-- ==== Sys2Proof/Word.lean ====
section
/-!
DEFINITION. The word types: a register is 32 bits (R55), memory is bytes.
-/
namespace Sys2Proof

/-- A 32-bit register value (R55). -/
abbrev Word := BitVec 32

/-- One byte of memory. -/
abbrev Byte := BitVec 8

end Sys2Proof
end

