-- ==== Sys2Proof/Syntax.lean ====
section
/-!
DEFINITION. The commands of the package and their operands. No row of the opcode table gives bits or operands:
an operand is what the unit named by the row's rule receives at that moment (log entry 5).
-/
namespace Sys2Proof

/-- Who makes a register or memory access: the PF, the VF of a partition, or the Carillon (R53). -/
inductive Req where
  | pf
  | vf (p : Nat)
  | car
deriving DecidableEq, Repr

/-- What the error-correcting code of the memory or array that a command reads finds (R102, R216, R217):
`corr` in the array of the unit, `uncorr` in it, and the same two for the `g`-th memory granule, from 0, that the
command reads; `memPermanent` is a corrected granule whose re-read still shows the error (R216). -/
inductive Ecc where
  | none
  | corr
  | uncorr
  | memCorr (g : Nat)
  | memPermanent (g : Nat)
  | memUncorr (g : Nat)
deriving DecidableEq, Repr

/-- The unit, descriptor or object that a command names by number, with what the error-correcting code finds on the
reads that the command makes (R216, R217). -/
structure Reader where
  no : Nat
  ecc : Ecc
deriving DecidableEq, Repr

/-- A translation fault as the MMU reports it (R248, R252). -/
structure FaultInfo where
  type : Nat
  access : Nat
  va : Nat
  levelValid : Bool
  level : Nat
  entry : Nat
  dpa : Nat
deriving DecidableEq, Repr

/-- The capabilities of a function's configuration space (R270). -/
inductive CfgCap where
  | pcie
  | pm
  | msix
  | aer
  | sriov
  | resizableBar
  | acs
  | serialNumber
  | phy (rate : Nat)
  | margining
  | dataLink
  | flr
deriving DecidableEq, Repr

/-- What a Configuration Request names: the fields of the header and of the capabilities that the manual uses (R268, R270 to
R276), whether the space holds a capability, another double word of a capability, or a double word of the space outside
them all. -/
inductive CfgReg where
  | ids
  | classCode
  | serial (hi : Bool)
  | totalVfs
  | numVfs
  | vfEnable
  | busMaster
  | msixEnable
  | bar2Size
  | initialVfs
  | bar (i : Nat)
  | msixTableSize
  | msixTable
  | msixPba
  | maxPayloadSupported
  | maxReadRequest
  | completionTimeout
  | asPm
  | powerState
  | capability (c : CfgCap)
  | capWord (c : CfgCap) (off : Nat)
  | other (off : Nat)
deriving DecidableEq, Repr

/-- An access of the Carillon to a HALTED slot under a debug grant of level D2 (R441): core, slot; kind 0 V register, 1 S
register, 2 P register of a strand, 3 accumulator, 4 sync object, 5 window; the context-relative unit (strand, bank or
object), the index in it, and the word to write. -/
structure DbgAcc where
  core : Nat
  slot : Nat
  kind : Nat
  unit : Nat
  idx : Nat
  write : Option Nat
deriving DecidableEq, Repr

/-- A lane that has equalised, locked and aligned in a training attempt (R296, R308): its pre-FEC BER as m × 10⁻ᵉ, and whether
training has turned precoding on. -/
structure LaneTrain where
  lane : Nat
  m : Nat
  e : Nat
  precode : Bool
deriving DecidableEq, Repr

/-- A port and the TOKEN of the link-control message that it has received (R300). -/
structure PortToken where
  port : Nat
  token : Nat
deriving DecidableEq, Repr

/-- An event that reflectometry finds on a fibre (R322): distance in 0.5 m, loss in 0.05 dB, magnitude of the reflectance in
0.5 dB, whether it is the END, and whether no light returns beyond it. -/
structure ReflEvent where
  dist : Nat
  loss : Nat
  refl : Nat
  last : Bool
  dark : Bool
deriving DecidableEq, Repr

/-- The commands: one constructor for each row of the opcode table, in its order. The operands are what the
unit of the rule receives at that moment. -/
inductive Instr where
  /-- VAUX12_IN_RANGE (R368): VAUX12 enters its range (event A), both Carillon controllers leave reset and boot stage S0 begins. -/
  | vaux12InRange (flash : Option (List (Nat × Byte))) (answers : Bool) (fuseBad : Option Nat)
  /-- BOOT_S1 (R368): Verified firmware runs in both controllers, the management port and sideband pins answer, and the package rests in A3 until VIN48 arrives. -/
  | bootS1
  /-- ROM_WATCHDOG (R412): Firmware that has not reached S1 within 1 s of being started is restarted at S0 by the ROM watchdog. -/
  | romWatchdog (answers : Bool)
  /-- VIN48_PRESENT (R368): VIN48 has stayed at or above 40 V for 10 ms while the package is at S1 (event B), and S2 begins. -/
  | vin48Present
  /-- BOOT_S2 (R368): The 48 V converter starts, base dies are powered and clocked, bridges train, staging boot BIST runs and host-port training begins. -/
  | bootS2 (bridges : Nat) (rows : List (Nat × Nat × Nat))
  /-- BOOT_S3 (R368): HBM stacks train, queued rows are hard-repaired and background zeroising starts. -/
  | bootS3 (trainFail : List (Nat × Nat)) (repaired : List (Nat × Nat × Nat))
  /-- BOOT_S4 (R368): Compute dies are powered, core BIST runs and every cluster map is formed. -/
  | bootS4 (once : List Nat) (twice : List Nat) (clusters : List (Nat × Nat))
  /-- BOOT_S5 (R368): The package peal runs and, when it completes, the Carillon applies the partition split and access levels from the tray configuration record. -/
  | bootS5 (healthy : Bool)
  /-- BOOT_S6 (R369): The boot reflectometry sweep runs and every port with REACH not 0 trains. -/
  | bootS6
  /-- BOOT_S7 (R368): DIR_BOOT_STAGE reads 7, Configuration Request Retry Status ends, EPOCH_ANNOUNCE is sent and a ready event goes to the tray controller. -/
  | bootS7
  /-- BOOT_STAGE_FAIL (R371): A fatal bring-up failure reruns the chip-level sequence from S2 once, and a second one sets BOOT_FAILED and powers the dies down. -/
  | bootStageFail (cause : Nat)
  /-- REGISTER_WRITE (R56): A write to a register with no behaviour of its own stores its value, subject to access level and size checks. -/
  | registerWrite (req : Req) (addr : Nat) (size : Nat) (value : BitVec 64)
  /-- RC_REGISTER_READ (R11): A read of an RC register returns its value and then clears it. -/
  | rcRegisterRead (req : Req) (addr : Nat) (size : Nat)
  /-- ACCESS_LEVEL_WRITE (R51): A Carillon write to ACCESS_LEVEL changes LEVEL and OWNER unless LOCKED, ignores LEVEL 3 and sets LOCKED on a 1. -/
  | accessLevelWrite (req : Req) (addr : Nat) (value : Word)
  /-- CTRL_ENABLE_SET (R51): Setting CTRL.ENABLE lets the block accept work. -/
  | ctrlEnableSet (req : Req) (addr : Nat) (value : Word)
  /-- CTRL_ENABLE_CLEAR (R58): Clearing ENABLE takes effect only when QUIESCED was 1 before the write; otherwise ENABLE stays 1. -/
  | ctrlEnableClear (req : Req) (addr : Nat) (value : Word)
  /-- CTRL_QUIESCE_SET (R57): QUIESCE going to 1 makes the block refuse new work and start settling in-flight work. -/
  | ctrlQuiesceSet (req : Req) (addr : Nat) (value : Word)
  /-- CTRL_QUIESCE_CLEAR (R57): QUIESCE returning to 0 clears QUIESCED at once, and the block accepts work again. -/
  | ctrlQuiesceClear (req : Req) (addr : Nat) (value : Word)
  /-- QUIESCED_REACHED (R474): A quiescing block finishes draining its accepted work and sets QUIESCED. -/
  | quiescedReached (pageAddr : Nat)
  /-- QUIESCE_TIMEOUT (R57): QUIESCED is still 0 10 ms after QUIESCE, so the block records QUIESCE_TIMEOUT and keeps trying. -/
  | quiesceTimeout (pageAddr : Nat)
  /-- CTRL_RESET_REQ (R59): RESET_REQ requests an engine reset on SQ, TE, VE and XE pages, or the block's named reset domain when written by the Carillon. -/
  | ctrlResetReq (req : Req) (addr : Nat) (value : Word)
  /-- ERR_STATUS_CLEAR (R65): W1C write to ERR_STATUS clears the handled error bits. -/
  | errStatusClear (req : Req) (addr : Nat) (value : Word)
  /-- ERR_FIRST_VALID_CLEAR (R65): Writing 1 to ERR_FIRST.VALID releases the first-error record for the next error. -/
  | errFirstValidClear (req : Req) (addr : Nat) (value : Word)
  /-- ERR_INJECT (R66): A PF or Carillon write with GO = 1 raises the named error when its CAPS1 bit is set. -/
  | errInject (req : Req) (addr : Nat) (value : Word)
  /-- INT_STATUS_CLEAR (R67): W1C write to INT_STATUS clears bits, and a new message is sent within 1 µs when an enabled bit remains set. -/
  | intStatusClear (req : Req) (addr : Nat) (value : Word)
  /-- SYN_STATE_READ (R195): A read of SYN_STATE_LO returns the low word and latches the high word for SYN_STATE_HI. -/
  | synStateRead (req : Req) (core : Reader)
  /-- CAR_TIME_READ (R531): A read of CAR_TIME_LO returns the low word of local time and latches CAR_TIME_HI. -/
  | carTimeRead (req : Req)
  /-- ISLAND_SENSOR_SAMPLE (R39): Every 100 µs the temperatures of adjacent islands are compared, and a hotter island is halved or released from half clock. -/
  | islandSensorSample (islandA : Nat) (islandB : Nat) (tempA : Nat) (tempB : Nat)
  /-- ISLAND_SUPPLY_SKEW (R39): A supply difference above 250 mV for more than 1 µs isolates the crossing and retires the core or cluster, or escalates to chip reset. -/
  | islandSupplySkew (islandA : Nat) (islandB : Nat)
  /-- ISLAND_CLOCK_SKEW (R39): A frequency ratio outside 1:4 to 4:1 is handled as a supply skew. -/
  | islandClockSkew (islandA : Nat) (islandB : Nat)
  /-- SQ_INSTALL (R78): INSTALL checks resources, zeroes allocations, advances the generation, forms the CTAG and starts the rudiment fetch or the restore read. -/
  | sqInstall (req : Req) (core : Nat) (slot : Nat)
  /-- DEFERRED_INSTALL (R464): An INSTALL held by orphans of the slot's previous context proceeds once the last orphan has cleared. -/
  | deferredInstall (core : Nat)
  /-- SQ_PREEMPT (R95): PREEMPT moves the slot to PREEMPTING and each engine stops the slot at its stop point. -/
  | sqPreempt (req : Req) (core : Nat) (slot : Nat)
  /-- SQ_RESUME (R255): RESUME returns a FAULTED slot to ACTIVE, and faulted accesses are translated again. -/
  | sqResume (req : Req) (core : Nat) (slot : Nat)
  /-- SQ_HALT (R80): HALT stops issue on an ACTIVE or WAITING slot when D2 is granted. -/
  | sqHalt (req : Req) (core : Nat) (slot : Nat)
  /-- SQ_UNHALT (R80): UNHALT returns a HALTED slot to its previous state without needing a grant. -/
  | sqUnhalt (req : Req) (core : Nat) (slot : Nat)
  /-- SQ_STEP (R148): STEP issues exactly one step of a HALTED slot when D2 is granted. -/
  | sqStep (req : Req) (core : Nat) (slot : Nat)
  /-- SQ_CMD_INVALID (R80): An unassigned OP value in SQ_CMD completes with INVALID. -/
  | sqCmdInvalid (req : Req) (core : Nat) (slot : Nat) (op : Nat)
  /-- RUDIMENT_LOAD_CHECK (R144): When the header and section table have arrived, the SQ checks them and applies SYNC_INIT, or ends the context. -/
  | rudimentLoadCheck (core : Nat) (slot : Reader)
  /-- RESTORE_HEADER_READ (R98): An INSTALL with RESTORE = 1 reads the save header and completes INVALID when it does not match. -/
  | restoreHeaderRead (core : Nat) (slot : Reader)
  /-- RESTORE_COMPLETE (R189): The save image is read in, discarded barrier releases are recovered, and the slot becomes ACTIVE. -/
  | restoreComplete (core : Nat) (slot : Reader)
  /-- STEP_PREFETCH (R82): The SQ fetches steps of an ACTIVE slot into its step buffer. -/
  | stepPrefetch (core : Nat) (slot : Reader)
  /-- STEP_ISSUE (R148): The step at the issue position is checked, its wait program and budget grant are met, and its parts are handed to the engines. -/
  | stepIssue (core : Nat) (slot : Nat) (ecc : Ecc)
  /-- STEP_COMPLETE (R151): When every part of a step has completed, its signal program runs and the slot may reach DONE. -/
  | stepComplete (core : Nat) (slot : Nat) (order : Nat)
  /-- BARRIER_BIND_READ_DONE (R184): The bind read of the barrier phase returns, the object is bound and the held arrival and remaining program operations proceed. -/
  | barrierBindReadDone (core : Nat) (slot : Nat)
  /-- GONG_ARRIVAL (R186): The gong unit counts an arrival by phase, answers an overrun or disabled barrier, and releases the phase when CUR reaches N. -/
  | gongArrival (core : Nat) (slot : Nat) (bar : Nat) (phase : Nat) (ecc : Ecc)
  /-- BARRIER_RELEASE_RECEIVE (R187): A core's XE applies the Release operation to each bound object matching the broadcast barrier and phase. -/
  | barrierReleaseReceive (core : Nat) (fabric : Bool) (bar : Nat) (phase : Reader)
  /-- BARRIER_OVERRUN_NOTICE (R186): An overrun or disabled-barrier notice reaching the arriving core raises BARRIER_OVERRUN or BARRIER_DISABLED on the context. -/
  | barrierOverrunNotice (core : Nat) (slot : Nat) (bar : Nat) (detail : Nat)
  /-- GNG_BAR_CFG_WRITE (R183): A write to GNG_BAR_CFG arms a tile barrier, disarms it, or is ignored with GNG_CFG_BUSY. -/
  | gngBarCfgWrite (req : Req) (tile : Nat) (bar : Nat) (value : Word)
  /-- GNG_PKG_CFG_WRITE (R183): A write to GNG_PKG_CFG arms or disarms a package-wide barrier under the same rules. -/
  | gngPkgCfgWrite (req : Req) (bar : Nat) (value : Word)
  /-- FB_LOCAL_ARRIVAL (R191): The barrier pipeline counts a local arrival and, at LOCAL_N, advances its phase and sends one device arrival to the root. -/
  | fbLocalArrival (pipe : Nat) (core : Nat) (slot : Nat) (bar : Nat) (phase : Nat)
  /-- FB_TIMEOUT (R193): COL_FB_TIMEOUT passes after a device arrival, so the barrier is disarmed and BARRIER_TIMEOUT is raised on bound contexts. -/
  | fbTimeout (pipe : Nat) (bar : Nat)
  /-- COL_FB_CFG_WRITE (R197): A write to COL_FB_CFG_LO arms or disarms a fabric barrier with the values in COL_FB_CFG_HI. -/
  | colFbCfgWrite (req : Req) (pipe : Nat) (bar : Nat) (value : Word)
  /-- TE_MMA (R123): The TE takes an MMA record from the queue, checks it and multiplies into the bank under the dot-product rules. -/
  | teMma (core : Nat) (slot : Nat) (ecc : Ecc)
  /-- TE_WB (R128): The TE takes a WB record and converts bank words to the destination format in local memory. -/
  | teWb (core : Nat) (slot : Nat) (ecc : Ecc)
  /-- TE_ZERO (R115): The TE takes a ZERO record and zeroes the bank. -/
  | teZero (core : Nat) (slot : Nat) (ecc : Ecc)
  /-- TE_LDACC (R115): The TE takes an LDACC record and loads the bank bit for bit from local memory. -/
  | teLdacc (core : Nat) (slot : Nat) (ecc : Ecc)
  /-- TE_OP_INVALID (R119): A TE record with an unassigned KIND or an invalid encoding is not performed and ends the context. -/
  | teOpInvalid (core : Nat) (slot : Nat)
  /-- TE_OP_COMPLETE (R120): A TE operation completes a fixed latency after its occupancy ends, and the part may complete. -/
  | teOpComplete (core : Nat) (bankPort : Bool) (ecc : Ecc)
  /-- VE_STRAND_LAUNCH (R150): A strand of a VE part starts at the variant's entry, with S0 to S2 set, once its previous launch has exited. -/
  | veStrandLaunch (core : Nat) (strand : Nat)
  /-- VE_NOP (R92): VE instruction with no effect. -/
  | veNop (core : Nat) (strand : Nat) (ecc : Ecc)
  /-- VE_ADD (R92): VE instruction D = A + B. -/
  | veAdd (core : Nat) (strand : Nat) (ecc : Ecc)
  /-- VE_SUB (R92): VE instruction D = A − B. -/
  | veSub (core : Nat) (strand : Nat) (ecc : Ecc)
  /-- VE_MUL (R92): VE instruction D = A × B. -/
  | veMul (core : Nat) (strand : Nat) (ecc : Ecc)
  /-- VE_FMA (R92): VE instruction D = A × B + C with one rounding. -/
  | veFma (core : Nat) (strand : Nat) (ecc : Ecc)
  /-- VE_MIN (R92): VE instruction D = min(A, B). -/
  | veMin (core : Nat) (strand : Nat) (ecc : Ecc)
  /-- VE_MAX (R92): VE instruction D = max(A, B). -/
  | veMax (core : Nat) (strand : Nat) (ecc : Ecc)
  /-- VE_ABS (R92): VE instruction D = abs(A). -/
  | veAbs (core : Nat) (strand : Nat) (ecc : Ecc)
  /-- VE_NEG (R92): VE instruction D = −A. -/
  | veNeg (core : Nat) (strand : Nat) (ecc : Ecc)
  /-- VE_CVT (R134): VE instruction converting A to the type and packing in its immediate. -/
  | veCvt (core : Nat) (strand : Nat) (ecc : Ecc)
  /-- VE_CMP (R92): VE instruction writing a predicate from a comparison of A and B. -/
  | veCmp (core : Nat) (strand : Nat) (ecc : Ecc)
  /-- VE_SEL (R92): VE instruction selecting A or B per lane by a predicate. -/
  | veSel (core : Nat) (strand : Nat) (ecc : Ecc)
  /-- VE_AND (R92): VE bitwise AND instruction. -/
  | veAnd (core : Nat) (strand : Nat) (ecc : Ecc)
  /-- VE_OR (R92): VE bitwise OR instruction. -/
  | veOr (core : Nat) (strand : Nat) (ecc : Ecc)
  /-- VE_XOR (R92): VE bitwise XOR instruction. -/
  | veXor (core : Nat) (strand : Nat) (ecc : Ecc)
  /-- VE_SHL (R92): VE shift-left instruction. -/
  | veShl (core : Nat) (strand : Nat) (ecc : Ecc)
  /-- VE_SHR (R92): VE logical shift-right instruction. -/
  | veShr (core : Nat) (strand : Nat) (ecc : Ecc)
  /-- VE_SAR (R92): VE arithmetic shift-right instruction. -/
  | veSar (core : Nat) (strand : Nat) (ecc : Ecc)
  /-- VE_RCP (R93): VE transcendental reciprocal. -/
  | veRcp (core : Nat) (strand : Nat) (ecc : Ecc)
  /-- VE_RSQRT (R93): VE transcendental reciprocal square root. -/
  | veRsqrt (core : Nat) (strand : Nat) (ecc : Ecc)
  /-- VE_SQRT (R93): VE transcendental square root. -/
  | veSqrt (core : Nat) (strand : Nat) (ecc : Ecc)
  /-- VE_EXP2 (R93): VE transcendental 2 to the power A. -/
  | veExp2 (core : Nat) (strand : Nat) (ecc : Ecc)
  /-- VE_LOG2 (R93): VE transcendental base-2 logarithm. -/
  | veLog2 (core : Nat) (strand : Nat) (ecc : Ecc)
  /-- VE_SINPI (R93): VE transcendental sin(πA). -/
  | veSinpi (core : Nat) (strand : Nat) (ecc : Ecc)
  /-- VE_COSPI (R93): VE transcendental cos(πA). -/
  | veCospi (core : Nat) (strand : Nat) (ecc : Ecc)
  /-- VE_TANH (R93): VE transcendental tanh A. -/
  | veTanh (core : Nat) (strand : Nat) (ecc : Ecc)
  /-- VE_LD (R92): VE instruction loading 128 B from the window. -/
  | veLd (core : Nat) (strand : Nat) (ecc : Ecc)
  /-- VE_ST (R92): VE instruction storing 128 B to the window. -/
  | veSt (core : Nat) (strand : Nat) (ecc : Ecc)
  /-- VE_LDX (R92): VE per-lane gather load of 4 B. -/
  | veLdx (core : Nat) (strand : Nat) (ecc : Ecc)
  /-- VE_STX (R92): VE per-lane scatter store of 4 B, highest lane winning. -/
  | veStx (core : Nat) (strand : Nat) (ecc : Ecc)
  /-- VE_SLD (R92): VE scalar load of 4 B into an S register. -/
  | veSld (core : Nat) (strand : Nat) (ecc : Ecc)
  /-- VE_SST (R92): VE scalar store of 4 B from an S register. -/
  | veSst (core : Nat) (strand : Nat) (ecc : Ecc)
  /-- VE_SHUF (R92): VE cross-lane shuffle. -/
  | veShuf (core : Nat) (strand : Nat) (ecc : Ecc)
  /-- VE_BCST (R92): VE broadcast of one lane. -/
  | veBcst (core : Nat) (strand : Nat) (ecc : Ecc)
  /-- VE_RADD (R132): VE sum of guarded lanes in lane order into a scalar. -/
  | veRadd (core : Nat) (strand : Nat) (ecc : Ecc)
  /-- VE_RMAX (R132): VE maximum of guarded lanes into a scalar. -/
  | veRmax (core : Nat) (strand : Nat) (ecc : Ecc)
  /-- VE_RMIN (R132): VE minimum of guarded lanes into a scalar. -/
  | veRmin (core : Nat) (strand : Nat) (ecc : Ecc)
  /-- VE_MOVI (R92): VE move immediate into every lane. -/
  | veMovi (core : Nat) (strand : Nat) (ecc : Ecc)
  /-- VE_MOV (R92): VE register move. -/
  | veMov (core : Nat) (strand : Nat) (ecc : Ecc)
  /-- VE_MOVS (R92): VE broadcast of a scalar register into every lane. -/
  | veMovs (core : Nat) (strand : Nat) (ecc : Ecc)
  /-- VE_LANEID (R92): VE instruction writing the lane number into each lane. -/
  | veLaneid (core : Nat) (strand : Nat) (ecc : Ecc)
  /-- VE_LOOP (R92): VE fixed-count loop over the next instructions, with body and depth checks. -/
  | veLoop (core : Nat) (strand : Nat) (ecc : Ecc)
  /-- VE_JMP (R92): VE jump to an instruction index, invalid inside a loop body. -/
  | veJmp (core : Nat) (strand : Nat) (ecc : Ecc)
  /-- VE_EXIT (R88): VE instruction ending the strand, and the VE part when it is its last strand. -/
  | veExit (core : Nat) (strand : Nat) (ecc : Ecc)
  /-- VE_WAIT (R175): VE instruction waiting on a sync object, descheduling only its strand. -/
  | veWait (core : Nat) (strand : Nat) (ecc : Ecc)
  /-- VE_SIGNAL (R175): VE instruction signalling a sync object. -/
  | veSignal (core : Nat) (strand : Nat) (ecc : Ecc)
  /-- VE_FENCE (R92): VE instruction waiting until every earlier memory access of the strand has completed. -/
  | veFence (core : Nat) (strand : Nat) (ecc : Ecc)
  /-- VE_OP_INVALID (R92): An unassigned opcode, reserved type or refused scalar form stops the strand and ends the context. -/
  | veOpInvalid (core : Nat) (strand : Nat) (ecc : Ecc)
  /-- XE_CHAIN_START (R94): A chain of an XE part begins on its stream once the stream is free. -/
  | xeChainStart (core : Nat) (stream : Nat)
  /-- XE_COPY (R159): COPY descriptor starts a strided copy of up to three dimensions. -/
  | xeCopy (core : Nat) (stream : Reader)
  /-- XE_FILL (R158): FILL descriptor starts writing a 32-bit pattern over a range. -/
  | xeFill (core : Nat) (stream : Reader)
  /-- XE_GATHER (R158): GATHER descriptor starts a copy by a list of element indices into a contiguous destination. -/
  | xeGather (core : Nat) (stream : Reader)
  /-- XE_SCATTER (R158): SCATTER descriptor starts a copy from a contiguous source to indexed elements. -/
  | xeScatter (core : Nat) (stream : Reader)
  /-- XE_AGEN (R160): AGEN descriptor resolves its table once and starts the generated transfers. -/
  | xeAgen (core : Nat) (stream : Reader)
  /-- XE_PUT (R338): PUT descriptor starts sending fabric write packets. -/
  | xePut (core : Nat) (stream : Reader)
  /-- XE_GET (R338): GET descriptor starts sending GET_REQ packets. -/
  | xeGet (core : Nat) (stream : Reader)
  /-- XE_SIGNAL (R338): SIGNAL descriptor sends one fabric SIGNAL packet. -/
  | xeSignal (core : Nat) (stream : Reader)
  /-- XE_ATOMIC (R338): ATOMIC descriptor sends one fabric atomic-add packet. -/
  | xeAtomic (core : Nat) (stream : Reader)
  /-- XE_REDUCE_PUT (R338): REDUCE-PUT descriptor starts sending reducing write packets. -/
  | xeReducePut (core : Nat) (stream : Reader)
  /-- XE_READ_ISSUE (R245): The XE issues the next translated access of a descriptor once a read-tracker entry is free. -/
  | xeReadIssue (core : Nat) (stream : Reader)
  /-- XE_READ_DATA_RETURN (R217): Read data returns and is written at its destination, or poisoned data ends the reader's context. -/
  | xeReadDataReturn (core : Nat) (stream : Nat) (which : Nat) (ecc : Ecc)
  /-- XE_DESC_COMPLETE (R94): A descriptor completes, signals or adds its byte count to SIG_OBJ, and the chain or part may complete. -/
  | xeDescComplete (core : Nat) (stream : Nat)
  /-- MMU_WALK (R239): The cluster MMU walks the page tables and returns a DPA or a fault type. -/
  | mmuWalk (core : Nat) (slot : Nat) (va : Nat) (access : Nat) (ecc : Ecc)
  /-- XE_TRANSLATION_FAULT (R249): A stream stops at the faulting access, records its restart point and posts a fault record, and the slot enters FAULTED. -/
  | xeTranslationFault (core : Nat) (stream : Nat) (info : FaultInfo)
  /-- FAULT_RECORD_POST (R253): A held fault or event record is posted to the fault queue when it has room, in SEQ order. -/
  | faultRecordPost (mmu : Nat)
  /-- MMU_INV_VA_RANGE (R242): MMU_INV_CMD OP 1 starts invalidating a VA range of an ASID. -/
  | mmuInvVaRange (req : Req) (mmu : Nat) (value : Word)
  /-- MMU_INV_ASID (R242): MMU_INV_CMD OP 2 starts invalidating one ASID. -/
  | mmuInvAsid (req : Req) (mmu : Nat) (value : Word)
  /-- MMU_INV_ALL (R242): MMU_INV_CMD OP 3 starts invalidating all ASIDs. -/
  | mmuInvAll (req : Req) (mmu : Nat) (value : Word)
  /-- MMU_INV_KEY (R266): MMU_INV_CMD OP 4 starts invalidating one key, completing when admitted operations under it have finished. -/
  | mmuInvKey (req : Req) (mmu : Nat) (value : Word)
  /-- MMU_INV_COMPLETE (R242): Every entry, walk and access in scope has ended, and BUSY clears. -/
  | mmuInvComplete (mmu : Nat)
  /-- MMU_INV_TIMEOUT (R242): An invalidation not complete after 10 ms records MMU_INV_TIMEOUT and continues. -/
  | mmuInvTimeout (mmu : Nat)
  /-- FABRIC_STOP_SETTLED (R256): A stopped fabric stream has had every sent packet answered or timed out, and its restart point and ACKED are fixed. -/
  | fabricStopSettled (core : Nat) (stream : Nat)
  /-- TALLY_ONLY_SEND (R257): Once every retried PUT packet is acknowledged, the XE sends one tally-only packet for LEN − ACKED bytes. -/
  | tallyOnlySend (core : Nat) (stream : Nat)
  /-- SAVE_START (R97): When every engine has stopped the pre-empted slot, the XE starts writing the save image. -/
  | saveStart (core : Nat) (slot : Nat)
  /-- SAVE_COMPLETE (R97): The header is written last with VALID = 1, and the slot becomes FREE with outcome PREEMPTED. -/
  | saveComplete (core : Nat) (slot : Reader)
  /-- SAVE_FAULT (R261): A fault on a save write stops the save and ends the context with outcome SAVE_FAULT. -/
  | saveFault (core : Nat) (slot : Nat) (offset : Nat) (info : FaultInfo)
  /-- SR_DOORBELL (R278): A write to CLU_SR_DB publishes new submission entries, or is ignored with SR_DOORBELL_BAD. -/
  | srDoorbell (req : Req) (clu : Nat) (ring : Nat) (value : Word)
  /-- SR_FETCH (R281): The package fetches published submission entries from host memory, up to 16 ahead. -/
  | srFetch (clu : Nat) (ring : Nat) (data : List Byte)
  /-- RING_DISPATCH (R281): A ring dispatches its next entry when the target SQ is not BUSY and any BARRIER is met. -/
  | ringDispatch (clu : Nat) (ring : Nat)
  /-- RING_NOP (R280): Ring command NOP completes on dispatch. -/
  | ringNop (clu : Nat) (ring : Nat)
  /-- RING_INSTALL (R280): Ring command INSTALL writes the eight slot registers and performs INSTALL as one action. -/
  | ringInstall (clu : Nat) (ring : Nat)
  /-- RING_CTX_RESET (R280): Ring command CTX_RESET requests a context reset of the task or its group. -/
  | ringCtxReset (clu : Nat) (ring : Nat)
  /-- RING_INVALID (R280): A ring entry with an unassigned OP or non-zero reserved field completes INVALID. -/
  | ringInvalid (clu : Nat) (ring : Nat)
  /-- CQ_POST (R282): A completion or EXIT event is written to its completion queue when there is room, holding up to 16 otherwise. -/
  | cqPost (clu : Nat) (cq : Nat)
  /-- CQ_TIMER_EXPIRY (R283): TIMER_US expires after the first unsignalled completion and the queue's vector is raised. -/
  | cqTimerExpiry (clu : Nat) (cq : Nat)
  /-- CLU_CQ_HEAD_WRITE (R283): The host writes a completion-queue consumer index, freeing room for held entries. -/
  | cluCqHeadWrite (req : Req) (clu : Nat) (cq : Nat) (value : Word)
  /-- CLU_FQ_HEAD_WRITE (R284): The host writes the fault-queue consumer index, and the vector is raised again if entries remain. -/
  | cluFqHeadWrite (req : Req) (clu : Nat) (value : Word)
  /-- Q_DMA_ERROR (R285): The host answers a queue fetch or write with an error, so the queue is disabled and marked ERROR. -/
  | qDmaError (clu : Nat) (queue : Nat)
  /-- Q_DMA_TIMEOUT (R285): A queue fetch or write unanswered within the completion timeout disables the queue as for an error. -/
  | qDmaTimeout (clu : Nat) (queue : Nat)
  /-- CONFIG_REQUEST (R287): A PCIe Configuration Request is answered with Retry Status before S7, and served otherwise. -/
  | configRequest (func : Nat) (write : Bool) (reg : CfgReg) (value : Nat)
  /-- BAR2_READ (R275): A host read through BAR2 returns memory data, zeros for unpopulated offsets, or poisoned completions. -/
  | bar2Read (func : Nat) (offset : Nat) (len : Nat) (ecc : Ecc)
  /-- BAR2_WRITE (R275): A host write through BAR2 writes memory, merging partial granules or discarding unpopulated offsets. -/
  | bar2Write (func : Nat) (offset : Nat) (data : List Byte) (enables : List Bool)
  /-- PCIE_LANE_FAILED (R269): A lane fails equalisation or Recovery is entered more than 3 times in 10 s, so the link retrains narrower or fails. -/
  | pcieLaneFailed (recovery : Bool)
  /-- PCIE_LINK_DOWN (R289): The link goes down without PERST_N; configuration space resets, host reads are abandoned, queues hold and contexts continue. -/
  | pcieLinkDown
  /-- VF_FLR (R288): An FLR of VF p requests a partition reset of partition p. -/
  | vfFlr (part : Nat)
  /-- PF_FLR (R288): An FLR of the PF clears VF Enable and requests a partition reset of every partition. -/
  | pfFlr
  /-- PERST_ASSERT (R288): PERST_N held low for at least 1 µs requests a chip reset. -/
  | perstAssert
  /-- PCE_PARTITION_RESET (R466): PCE_RESET_CMD with CHIP = 0 requests a partition reset, with or without SCRUB. -/
  | pcePartitionReset (req : Req) (part : Nat) (scrub : Bool)
  /-- PCE_CHIP_RESET (R466): PCE_RESET_CMD with CHIP = 1 requests a chip reset. -/
  | pceChipReset (req : Req)
  /-- FAB_CMD_ENABLE (R305): FAB_CMD ENABLE moves a DISABLED port with REACH not 0 to DOWN and turns on its lasers or transmitters. -/
  | fabCmdEnable (req : Req) (port : Nat)
  /-- FAB_CMD_DISABLE (R305): FAB_CMD DISABLE turns the port's transmitters and lasers off and moves it to DISABLED. -/
  | fabCmdDisable (req : Req) (port : Nat)
  /-- FAB_CMD_RETRAIN (R305): FAB_CMD RETRAIN moves a carrying or pausing port to RETRAIN. -/
  | fabCmdRetrain (req : Req) (port : Nat)
  /-- FAB_CMD_RECHECK (R313): FAB_CMD RECHECK moves a QUARANTINE port back to IDENTIFY. -/
  | fabCmdRecheck (req : Req) (port : Nat)
  /-- FAB_CMD_CLEAR (R305): FAB_CMD CLEAR moves a RETIRED port to DISABLED and clears retired and excluded lanes. -/
  | fabCmdClear (req : Req) (port : Nat)
  /-- FAB_CMD_RETIRE_LANE (R315): FAB_CMD RETIRE_LANE retires the named lane as a permanent lane. -/
  | fabCmdRetireLane (req : Req) (port : Nat) (lane : Nat)
  /-- FAB_SIGNAL_DETECT (R305): Signal detected on at least 8 lanes moves a DOWN port to TRAINING. -/
  | fabSignalDetect (port : Nat) (lanes : Nat)
  /-- DOWN_PROBE (R308): A DOWN port without signal probes again every 10 ms. -/
  | downProbe (port : Nat)
  /-- TRAINING_ATTEMPT_END (R305): An equalisation attempt ends: with at least 8 lanes the port goes to IDENTIFY, after 3 failed attempts it is RETIRED. -/
  | trainingAttemptEnd (port : Nat) (lanes : List LaneTrain) (signal : Bool)
  /-- IDENTITY_FRAME (R311): A partner identity frame is received and checked, leading to ACTIVE, DEGRADED, QUARANTINE or DISABLED. -/
  | identityFrame (port : Nat) (frame : List Byte) (rtt : Nat)
  /-- IDENTIFY_TIMEOUT (R305): No partner frame within 10 ms sends the port back to TRAINING as an attempt. -/
  | identifyTimeout (port : Nat)
  /-- FLIT_TRANSMIT (R301): The port sends the next DATA or IDLE flit on its lane set, carrying credits and acknowledgements. -/
  | flitTransmit (port : Nat)
  /-- FLIT_RECEIVE (R302): A flit is received and delivered in FSN order, or discarded and NAKed; a NAK causes resend. -/
  | flitReceive (port : Nat) (lane : Nat) (symbols : List Nat) (skewOver : Bool) (replayBad : Bool)
  /-- PAUSE_REQ (R317): A received PAUSE_REQ stops DATA flits, answers PAUSE_ACK and moves transmission to the new lane set. -/
  | pauseReq (port : Nat) (token : Nat) (lanes : Nat) (temp : Bool)
  /-- PAUSE_ACK (R317): A received PAUSE_ACK lets the deciding end transmit on the new lane set. -/
  | pauseAck (port : Nat) (token : Nat) (lanes : Nat)
  /-- PAUSE_COMPLETE (R317): Every DATA flit sent before the pause is acknowledged, RESUME is sent and the port returns to ACTIVE, DEGRADED or RETIRED. -/
  | pauseComplete (port : Nat)
  /-- LINK_RESUME (R317): A received RESUME lets the port send DATA flits again. -/
  | linkResume (port : PortToken)
  /-- RETRAIN_REQ (R305): A received RETRAIN_REQ moves the port to RETRAIN. -/
  | retrainReq (port : PortToken)
  /-- STANDBY_REQ (R325): A received STANDBY_REQ is answered STANDBY_ACK and the port enters STANDBY. -/
  | standbyReq (port : Nat) (token : Nat)
  /-- STANDBY_ACK (R325): A received STANDBY_ACK moves the port to STANDBY with only its lowest lane sending keepalives. -/
  | standbyAck (port : Nat) (token : Nat)
  /-- WAKE (R305): WAKE sent or received returns a STANDBY port to its previous state within 1 ms. -/
  | wake (port : Nat) (received : Option Nat)
  /-- KEEPALIVE (R325): In STANDBY the lowest lane sends KEEPALIVE every 10 µs. -/
  | keepalive (port : Nat)
  /-- LANE_BER_WINDOW (R314): A 10 ms pre-FEC BER window ends and the lane is marked marginal or permanent. -/
  | laneBerWindow (port : Nat) (lane : Nat) (m : Nat) (e : Nat)
  /-- LANE_UNCORR_WINDOW (R314): A 1 ms window ends, and uncorrectable codewords above UNCORR_PER_MS make the lane permanent. -/
  | laneUncorrWindow (port : Nat) (lane : Nat) (count : Nat)
  /-- LANE_LOCK_LOSS (R314): A lane loses lock; 2 to 8 lanes within 1 µs are excluded temporarily, 9 or more send the port DOWN. -/
  | laneLockLoss (port : Nat) (lanes : Nat)
  /-- LANE_LOCK_TIMEOUT (R314): A lane that stays unlocked beyond 1 µs, or loses lock 3 times in 1 s, becomes permanent. -/
  | laneLockTimeout (port : Nat) (lane : Nat)
  /-- LANE_RELOCK (R316): A temporarily excluded lane relocks within 50 ms and is retrained alone. -/
  | laneRelock (port : Nat) (lane : Nat)
  /-- LANE_RETRAIN_COMPLETE (R316): A relocked lane finishes its lone retraining and is admitted again through a pause. -/
  | laneRetrainComplete (port : Nat) (lane : Nat)
  /-- LANE_DARK_TIMEOUT (R316): A temporarily excluded lane still dark after 50 ms is retired. -/
  | laneDarkTimeout (port : Nat) (lane : Nat)
  /-- OPT_LASER_WARN (R320): Laser bias above 90 % of end-of-life for more than 10 s warns and starts a planned swap to L4. -/
  | optLaserWarn (port : Nat) (laser : Nat)
  /-- OPT_LASER_FAULT (R320): A laser's low output or fault flag excludes its group and warms L4, or retires the group's lanes. -/
  | optLaserFault (port : Nat) (laser : Nat)
  /-- LASER_WARM_COMPLETE (R320): L4 has warmed up, the group's lanes retrain and a pause moves the group to L4. -/
  | laserWarmComplete (port : Nat)
  /-- OPT_TEMP_READ (R321): Every 1 ms the engine temperature is read, recording OPT_HOT above 85 °C, disabling the port above 95 °C and re-enabling it below 80 °C. -/
  | optTempRead (port : Nat) (temp : Option Nat)
  /-- OPT_REFL_PERIODIC (R323): OPT_REFL_PERIOD hours have passed and a reflectometry sweep starts. -/
  | optReflPeriodic (port : Nat)
  /-- OPT_REFL_START (R324): OPT_REFL_CMD START begins a sweep of one fibre or all fibres, ignored while BUSY. -/
  | optReflStart (req : Req) (port : Nat) (fibre : Nat)
  /-- OPT_REFL_ABORT (R324): OPT_REFL_CMD ABORT ends the sweep after the current fibre. -/
  | optReflAbort (req : Req) (port : Nat)
  /-- REFL_FIBRE_COMPLETE (R323): The sweep of one fibre ends and its graded events are recorded. -/
  | reflFibreComplete (port : Nat) (events : List ReflEvent)
  /-- OPT_PROBE_FAIL (R324): The probe source fails and sweeps complete with PROBE_FAIL. -/
  | optProbeFail (port : Nat)
  /-- PLANE_FAIL_TIMER (R345): A plane's port has been non-carrying for 1 ms, and the variant excluding it is put in force when loaded. -/
  | planeFailTimer (port : Nat)
  /-- FABRIC_PACKET_SEND (R344): A request packet takes its roll-table entry and leaves through the plane's port when it holds a credit and a tracker entry. -/
  | fabricPacketSend (core : Nat) (stream : Reader)
  /-- PACKET_HOLD_TIMEOUT (R346): A packet held for a plane without a usable port beyond COL_OP_TIMEOUT ends its descriptor with NO_PATH. -/
  | packetHoldTimeout (core : Nat) (stream : Nat)
  /-- PUT (R349): An arriving PUT is checked, writes its payload, adds to its tally and is acknowledged. -/
  | putPkt (port : Nat) (part : Nat) (data : List Byte) (tagOk : Bool)
  /-- GET_REQ (R349): An arriving GET_REQ reads the requested bytes and returns them in GET_DATA. -/
  | getReq (port : Nat) (part : Nat) (data : List Byte) (tagOk : Bool) (ecc : Ecc)
  /-- SIGNAL (R349): An arriving SIGNAL adds or sets OPERAND on the named object. -/
  | signalPkt (port : Nat) (part : Nat) (data : List Byte) (tagOk : Bool)
  /-- ATOMIC (R136): An arriving ATOMIC performs the add at ADDR and returns the prior value. -/
  | atomicPkt (port : Nat) (part : Nat) (data : List Byte) (tagOk : Bool) (ecc : Ecc)
  /-- REDUCE_PUT (R135): An arriving REDUCE_PUT is combined element by element by the port's pipeline, or sent as multicast copies. -/
  | reducePut (port : Nat) (part : Nat) (data : List Byte) (tagOk : Bool) (ecc : Ecc)
  /-- TALLY (R349): An arriving tally-only packet adds OPERAND ÷ 4 to the named object. -/
  | tally (port : Nat) (part : Nat) (data : List Byte) (tagOk : Bool)
  /-- ACK (R352): An arriving ACK is matched to its request and advances the acknowledged count or applies the outcome of R353. -/
  | ackPkt (port : Nat) (part : Nat) (data : List Byte) (tagOk : Bool)
  /-- GET_DATA (R352): An arriving GET_DATA writes its bytes locally unless poisoned and advances the acknowledged count. -/
  | getData (port : Nat) (part : Nat) (data : List Byte) (tagOk : Bool)
  /-- ATOMIC_RSP (R136): An arriving ATOMIC_RSP writes the prior value to the return address and completes the descriptor. -/
  | atomicRsp (port : Nat) (part : Nat) (data : List Byte) (tagOk : Bool)
  /-- UNREACHABLE (R355): An UNREACHABLE answer adds the plane to the peer's set, schedules a resend and may move the peer to LOST. -/
  | unreachable (port : Nat) (part : Nat) (data : List Byte) (tagOk : Bool)
  /-- PACKET_RESEND (R353): A packet answered BUSY or UNREACHABLE is resent 10 µs later with a new FSEQ and its original timer. -/
  | packetResend (core : Nat) (stream : Nat) (fseq : Reader)
  /-- PACKET_TIMEOUT (R354): A request unanswered after COL_OP_TIMEOUT times out and its peer enters LOST. -/
  | packetTimeout (core : Nat) (stream : Nat) (fseq : Nat)
  /-- ORPHAN_TIMEOUT (R464): An orphan from a reset context is dropped from the response filter after COL_OP_TIMEOUT. -/
  | orphanTimeout (core : Nat) (slot : Nat) (flow : Nat) (fseq : Nat)
  /-- RESET_NOTICE (R360): An arriving RESET_NOTICE moves the sender's peer entry to RESET in every partition. -/
  | resetNotice (port : Nat) (part : Nat) (data : List Byte) (tagOk : Bool)
  /-- EPOCH_ANNOUNCE (R360): An arriving EPOCH_ANNOUNCE records the peer's new epoch and raises PEER_BACK, or moves a LIVE entry to RESET. -/
  | epochAnnounce (port : Nat) (part : Nat) (data : List Byte) (tagOk : Bool)
  /-- FB_ARRIVE (R358): A device arrival is counted at the root and, at DEV_N, the release is multicast to the job's devices. -/
  | fbArrive (port : Nat) (part : Nat) (data : List Byte) (tagOk : Bool)
  /-- FB_RELEASE (R358): A received release for an awaiting phase is broadcast to the partition's cores and forwarded where FWD is set. -/
  | fbRelease (port : Nat) (part : Nat) (data : List Byte) (tagOk : Bool)
  /-- FB_OVERRUN (R358): A received overrun notice records COL_FB_OVERRUN at the arriving device. -/
  | fbOverrun (port : Nat) (part : Nat) (data : List Byte) (tagOk : Bool)
  /-- ROLL_LOAD (R343): COL_ROLL_CMD LOAD starts reading a ROLL section into the partition's roll-table store. -/
  | rollLoad (req : Req) (pipe : Nat)
  /-- ROLL_LOAD_COMPLETE (R343): The LOAD finishes, installing the set or failing with its RESULT. -/
  | rollLoadComplete (pipe : Nat) (ecc : Ecc)
  /-- ROLL_SELECT (R345): COL_ROLL_CMD SELECT puts a loaded variant in force. -/
  | rollSelect (req : Req) (pipe : Nat) (variant : Nat)
  /-- ROLL_UNLOAD (R343): COL_ROLL_CMD UNLOAD removes the set when no installed context uses it. -/
  | rollUnload (req : Req) (pipe : Nat)
  /-- PEER_CLEAR (R360): COL_PEER_CMD CLEAR returns a RESET or LOST entry to LIVE in the new epoch, or to UNKNOWN. -/
  | peerClear (req : Req) (pipe : Nat) (coord : Nat)
  /-- PEER_MARK_LOST (R360): COL_PEER_CMD MARK_LOST moves a LIVE entry to LOST. -/
  | peerMarkLost (req : Req) (pipe : Nat) (coord : Nat)
  /-- PEAL_CHUNK (R383): A core accepts a broadcast peal chunk into its control store when ID, scope and CRC match. -/
  | pealChunk (core : Nat) (data : List Byte)
  /-- PEAL_END (R384): The peal end message reaches a core, which starts fetching its missing chunks. -/
  | pealEnd (core : Nat)
  /-- PEAL_FETCH_PASS (R384): A fetch pass ends, the image CRC is checked, and after the third failed pass the core reports PEAL_FAIL and is retired. -/
  | pealFetchPass (core : Nat) (fails : List Nat) (damage : Nat)
  /-- BIST_SLICE_SCHEDULE (R393): A class's BST_PERIOD interval expires and the Carillon schedules a slice on an instance. -/
  | bistSliceSchedule (cls : Nat) (inst : Nat)
  /-- BIST_SLICE_START (R394): Once admission conditions hold, the slice saves its region to the shadow buffer and runs March C-. -/
  | bistSliceStart (cls : Nat) (inst : Nat) (gran : Nat) (ecc : Ecc)
  /-- BIST_SLICE_COMPLETE (R395): The slice restores its region, releases the bank and records its finding. -/
  | bistSliceComplete (cls : Nat) (inst : Nat) (gran : Nat) (pass : Bool) (ecc : Ecc)
  /-- BIST_SLICE_RETRY (R395): A failed slice is run again 10 ms later and judged transient or permanent. -/
  | bistSliceRetry (cls : Nat) (inst : Nat) (pass : Bool) (rows : List Nat)
  /-- BST_DIRECT_CMD (R397): BST_DIRECT_CMD runs a named algorithm over a whole instance, or is refused. -/
  | bstDirectCmd (req : Req) (value : Word)
  /-- DIRECT_BIST_COMPLETE (R397): A direct BIST finishes, leaving zeros and reporting PASS. -/
  | directBistComplete (pass : Bool)
  /-- SCAN_REQUEST (R399): A scan request is checked and, if permitted, ends contexts, zeroises keys and memories. -/
  | scanRequest
  /-- SCAN_OPEN (R399): The clearing is done, the CLEARED latch is set and scan chains are enabled. -/
  | scanOpen
  /-- SET_CHECK (R388): COL_SET_CMD CHECK checks a rudiment set in owned DPA. -/
  | setCheck (req : Req) (pipe : Nat) (ecc : Ecc)
  /-- SET_FETCH (R389): COL_SET_CMD FETCH copies a set from host memory and checks it. -/
  | setFetch (req : Req) (pipe : Nat) (data : Option (List Byte))
  /-- SET_SEND (R389): COL_SET_CMD SEND checks a set and multicasts it to the group's members. -/
  | setSend (req : Req) (pipe : Nat) (grp : Nat) (ecc : Ecc)
  /-- SET_CMD_COMPLETE (R390): A set command ends with its RESULT and INDEX, and SET_DONE is raised. -/
  | setCmdComplete (pipe : Nat)
  /-- FIELD_RECORD_FLUSH (R379): Within 1 s of a change, the field record is copied to the tray flash. -/
  | fieldRecordFlush
  /-- FW_CONFIRM (R413): CONFIRM makes the running TRIAL slot VALID, raises the fused counter, revokes keys and fails rolled-back slots. -/
  | fwConfirm (req : Req) (ok : Bool)
  /-- FW_CANCEL_PENDING (R418): CAR_FW_CMD CANCEL_PENDING clears the pending slot. -/
  | fwCancelPending (req : Req)
  /-- FW_BUFFER_ECC (R410): An uncorrectable bundle-buffer error re-reads and re-verifies the running slot. -/
  | fwBufferEcc (answers : Bool)
  /-- STAGING_READBACK_COMPLETE (R414): The staged slot is read back and compared, becoming PENDING on a match. -/
  | stagingReadbackComplete
  /-- RCV_STATUS (R417): Recovery STATUS returns the download STATE, OWNER and RESULT. -/
  | rcvStatus (iface : Nat)
  /-- RCV_BEGIN (R417): Recovery BEGIN, by message or CAR_RCV_CMD, claims the download and clears the buffer. -/
  | rcvBegin (iface : Nat) (size : Nat)
  /-- RCV_DATA (R417): Recovery DATA, by message or the buffer window, places bytes in the bundle buffer. -/
  | rcvData (iface : Nat) (offset : Nat) (data : List Byte)
  /-- RCV_END (R417): Recovery END starts verifying the downloaded bundle. -/
  | rcvEnd (iface : Nat)
  /-- RCV_ABORT (R417): Recovery ABORT returns the download to IDLE. -/
  | rcvAbort (iface : Nat)
  /-- RCV_VERIFY_COMPLETE (R417): Verification ends: on success the bundle is written to slot A and boot continues at S1, else STATE is FAILED. -/
  | rcvVerifyComplete
  /-- RCV_INACTIVITY_TIMEOUT (R417): An interface holding the download loses it after 10 s without traffic. -/
  | rcvInactivityTimeout
  /-- LC_TO_MISSION (R422): SEC_LC_CMD TO_MISSION checks provisioning, clears the package and blows M. -/
  | lcToMission (req : Req)
  /-- LC_TO_RETURN (R422): SEC_LC_CMD TO_RETURN with a valid token clears, kills the seed and blows R. -/
  | lcToReturn (req : Req)
  /-- LC_TO_END (R422): SEC_LC_CMD TO_END clears, kills the seed and blows E. -/
  | lcToEnd (req : Req)
  /-- LC_TRANSITION_COMPLETE (R423): The fuses are programmed and the package holds at S1 with PENDING until the next S0. -/
  | lcTransitionComplete (ok : Bool)
  /-- ALARM_VGLITCH (R435): A supply leaves ±15 % of setpoint for at least 5 ns and the alarm acts at its configured level. -/
  | alarmVglitch
  /-- ALARM_CGLITCH (R435): A clock runs too fast or the reference is absent for more than 1 µs and the alarm acts at its level. -/
  | alarmCglitch
  /-- ALARM_TEMP (R435): The security temperature sensor stays outside −40 to 130 °C for 1 ms and the alarm acts at its level. -/
  | alarmTemp
  /-- ALARM_MESH (R435): An open or short in the active mesh fires the alarm at its level. -/
  | alarmMesh
  /-- ALARM_FUSE (R435): A fuse shadow parity error after S0 fires the alarm at its level. -/
  | alarmFuse
  /-- ALARM_DEBUG (R445): A debug-port misuse fires the alarm at its level and may lock out tokens. -/
  | alarmDebug (cause : Nat)
  /-- SEC_ALARM_CFG_WRITE (R436): A write to SEC_ALARM_CFG sets source levels no lower than their floors, and LOCK fixes them. -/
  | secAlarmCfgWrite (req : Req) (value : Word)
  /-- DBG_GET_NONCE (R442): GET_NONCE draws a fresh nonce and returns it. -/
  | dbgGetNonce
  /-- DBG_TOKEN (R443): A debug token is checked and, on pass, grants its level to the named partitions or passes a lifecycle request on. -/
  | dbgToken (token : List Byte)
  /-- DBG_REVOKE (R444): REVOKE message ends the grants of the named partitions. -/
  | dbgRevoke (mask : Nat)
  /-- DBG_STATUS (R442): Debug STATUS returns DBG_GRANT of every partition and DBG_D3. -/
  | dbgStatus
  /-- DBG_CMD_REVOKE (R452): DBG_CMD REVOKE ends the grants of the partitions in the mask. -/
  | dbgCmdRevoke (req : Req) (mask : Nat)
  /-- DBG_CMD_REVOKE_ALL (R452): DBG_CMD REVOKE_ALL ends every grant. -/
  | dbgCmdRevokeAll (req : Req)
  /-- DBG_CMD_OPEN (R448): DBG_CMD OPEN grants a level without token in TEST. -/
  | dbgCmdOpen (req : Req) (level : Nat) (mask : Nat)
  /-- TOKEN_LOCKOUT_EXPIRY (R445): The 60 s token lockout ends. -/
  | tokenLockoutExpiry
  /-- JTAG_INSTRUCTION (R447): A JTAG instruction is loaded and served, or replaced by BYPASS when its class is not permitted. -/
  | jtagInstruction (cls : Nat) (ir : Nat) (acc : Option DbgAcc)
  /-- TRACE_ENABLE (R446): Setting CLU_TRACE_CTRL.ENABLE starts step trace when D1 is granted and the ring is owned, or is refused. -/
  | traceEnable (req : Req) (clu : Nat) (value : Word)
  /-- FAB_KEY_SET (R432): Secured message writing a fabric key slot. -/
  | fabKeySet (session : Nat) (part : Nat) (slot : Nat) (key : List Byte)
  /-- FAB_KEY_DELETE (R432): Secured message zeroising a fabric key slot unless it is the TX slot. -/
  | fabKeyDelete (session : Nat) (part : Nat) (slot : Nat)
  /-- FAB_KEY_TX (R432): Secured message setting the TX key slot. -/
  | fabKeyTx (session : Nat) (part : Nat) (slot : Nat)
  /-- FAB_ENC (R432): Secured message turning fabric encryption on or off for a partition. -/
  | fabEnc (session : Nat) (part : Nat) (on : Bool)
  /-- SPDM_GET_VERSION (R523): SPDM GET_VERSION request. -/
  | spdmGetVersion
  /-- SPDM_GET_CAPABILITIES (R523): SPDM GET_CAPABILITIES request. -/
  | spdmGetCapabilities
  /-- SPDM_NEGOTIATE_ALGORITHMS (R523): SPDM NEGOTIATE_ALGORITHMS request. -/
  | spdmNegotiateAlgorithms (offered : Bool)
  /-- SPDM_GET_DIGESTS (R523): SPDM GET_DIGESTS request. -/
  | spdmGetDigests
  /-- SPDM_GET_CERTIFICATE (R523): SPDM GET_CERTIFICATE request for the slot 0 chain. -/
  | spdmGetCertificate (slot : Nat) (offset : Nat) (len : Nat)
  /-- SPDM_CHALLENGE (R523): SPDM CHALLENGE answered with an Alias-key signature. -/
  | spdmChallenge (slot : Nat) (nonce : List Byte)
  /-- SPDM_GET_MEASUREMENTS (R429): SPDM GET_MEASUREMENTS returns the signed measurement blocks. -/
  | spdmGetMeasurements (index : Nat) (nonce : List Byte)
  /-- SPDM_KEY_EXCHANGE (R523): SPDM KEY_EXCHANGE opens a session, refused beyond two sessions. -/
  | spdmKeyExchange (data : List Byte)
  /-- SPDM_FINISH (R523): SPDM FINISH completes session establishment. -/
  | spdmFinish (session : Nat) (ok : Bool)
  /-- SPDM_HEARTBEAT (R523): SPDM HEARTBEAT keeps a session alive. -/
  | spdmHeartbeat (session : Nat)
  /-- SPDM_KEY_UPDATE (R523): SPDM KEY_UPDATE rotates session keys. -/
  | spdmKeyUpdate (session : Nat)
  /-- SPDM_END_SESSION (R523): SPDM END_SESSION closes a session. -/
  | spdmEndSession (session : Nat)
  /-- SPDM_VENDOR_DEFINED_REQUEST (R523): SPDM VENDOR_DEFINED_REQUEST carries the fabric-key messages inside a session. -/
  | spdmVendorDefinedRequest (session : Nat) (msg : Nat) (part : Nat) (slot : Nat) (on : Bool) (key : List Byte)
  /-- HANG_EVENT (R457): A slot's idle timer reaches W, a hang record is posted and HNG_ACTION and any dump are applied. -/
  | hangEvent (core : Nat) (slot : Nat)
  /-- SAVE_TIMEOUT (R458): A slot PREEMPTING longer than HNG_SAVE_TIMEOUT is ended by context reset. -/
  | saveTimeout (core : Nat) (slot : Nat)
  /-- CONTEXT_RESET (R463): A context or group reset stops issue, absorbs arrivals, releases resources and leaves the slot FREE with CONTEXT_GONE. -/
  | contextReset (core : Nat) (slot : Nat) (group : Bool)
  /-- CTX_RESET_TIMEOUT (R470): A context reset not complete in 100 µs escalates to engine reset. -/
  | ctxResetTimeout (core : Nat) (slot : Nat) (engines : Nat)
  /-- ENGINE_RESET (R465): An engine reset ends the contexts that hold resources in the engine and returns its logic to reset values. -/
  | engineReset (core : Nat) (engine : Nat)
  /-- ENG_RESET_TIMEOUT (R470): An engine reset not complete in 300 µs escalates to partition reset. -/
  | engResetTimeout (core : Nat) (engine : Nat)
  /-- PARTITION_RESET (R466): A partition reset answers PEER_RESET, ends contexts, disarms barriers, resets cores, retires pending units, peals and optionally scrubs. -/
  | partitionReset (part : Nat)
  /-- PARTITION_RESET_COMPLETE (R466): The partition is ready, its PCE_RESET_STATUS bit clears and a PLDM event is sent. -/
  | partitionResetComplete (part : Nat) (healthy : Bool)
  /-- PART_RESET_TIMEOUT (R470): A partition reset not complete in 5 ms escalates to chip reset. -/
  | partResetTimeout (part : Nat)
  /-- CHIP_RESET (R467): A chip reset stops issue, sends RESET_NOTICE, collects any dump, saves logs, advances the epoch and restarts at S2. -/
  | chipReset
  /-- SPLIT_CHANGE_REQUEST (R468): A split change is performed as a chip reset when every slot is empty, or refused with SPLIT_REFUSED. -/
  | splitChangeRequest
  /-- SIDE_DOOR_TIMEOUT (R479): A side-door burst unanswered in 10 µs marks its item UNREADABLE. -/
  | sideDoorTimeout (pageAddr : Nat) (burst : Nat)
  /-- DUMP_COLLECTION_END (R479): Collection finishes, or stops at 200 ms with TRUNCATED set, and the dump is held. -/
  | dumpCollectionEnd (reached : Nat)
  /-- DUMP_TAKE (R478): HNG_DUMP_CMD or DMP_CMD TAKE requests a dump collection, skipped when conditions do not allow it. -/
  | dumpTake (req : Req) (hng : Bool)
  /-- DUMP_RELEASE (R482): RELEASE, by register or management message, frees the held dump and returns the region to its partition. -/
  | dumpRelease (req : Req) (hng : Bool)
  /-- DUMP_DATA_READ (R486): A read of HNG_DUMP_DATA(15) returns dump bytes and advances HNG_DUMP_OFFSET by 64. -/
  | dumpDataRead (req : Req)
  /-- PWR_STATE_CMD_A0 (R493): A request for A0 leaves A1 or A2, or from A3 starts a chip reset. -/
  | pwrStateCmdA0 (req : Req)
  /-- PWR_STATE_CMD_A2 (R494): A request for A2 runs the A2 entry sequence when every slot is free and nothing blocks it. -/
  | pwrStateCmdA2 (req : Req)
  /-- PWR_STATE_CMD_A3 (R495): A request for A3 enters A2 and then A3. -/
  | pwrStateCmdA3 (req : Req)
  /-- A1_IDLE_ENTRY (R493): Every slot has been FREE for PWR_IDLE_US and the core islands are clock-gated. -/
  | a1IdleEntry
  /-- A2_ENTRY_COMPLETE (R494): Ports are in standby, HBM in self-refresh and compute dies off; the package is in A2. -/
  | a2EntryComplete
  /-- A2_EXIT_COMPLETE (R494): Compute dies are powered, pealed, HBM leaves self-refresh and ports wake; the package is in A0. -/
  | a2ExitComplete
  /-- PWR_STATE_FAIL (R513): An A2 exit not complete within 30 ms leads to a chip reset. -/
  | pwrStateFail
  /-- POWER_GRANT (R496): The tile grant unit grants a step's charge when the pool's free part covers it. -/
  | powerGrant (core : Nat) (slot : Nat)
  /-- POOL_RECOMPUTE (R497): Every 10 µs the grant units reset the tile pools from L_eff and measured uncovered draw. -/
  | poolRecompute (uncovered : Nat)
  /-- FAST_LOOP_TICK (R498): The converter's fast loop lowers clock caps and issue duty when input exceeds L_eff, or relaxes one step. -/
  | fastLoopTick (avg10us : Nat) (avg1ms : Nat) (peak : Nat)
  /-- PWRBRK_ASSERT (R499): PWRBRK_N asserted for at least 20 ns applies brake stage 1 within 100 ns. -/
  | pwrbrkAssert
  /-- BRAKE_STAGE2 (R499): 10 µs after assertion, L_eff becomes the brake floor and the pools are recomputed. -/
  | brakeStage2 (uncovered : Nat)
  /-- BRAKE_RELEASE (R500): PWRBRK_N has stayed high for 10 µs and the brake ends. -/
  | brakeRelease
  /-- L_EFF_RAMP (R500): Every 100 µs after the brake, L_eff rises by at most 0.1 × L and stage 1 is released at 0.5 × L. -/
  | lEffRamp
  /-- BRAKE_STAGE_RECOMPUTE (R499): The Carillon recomputes the brake stages after a change of limit, floor or split. -/
  | brakeStageRecompute
  /-- PWR_LIMIT_CFG_WRITE (R492): A write to PWR_LIMIT_CFG changes L_eff within 10 µs. -/
  | pwrLimitCfgWrite (req : Req) (value : Word)
  /-- VIN_DIP (R501): VIN48 falls below 40 V for at most 10 µs and is ridden through. -/
  | vinDip (us : Nat)
  /-- POWER_FAIL_SEQUENCE (R502): VIN48 below 40 V for more than 10 µs sheds load, flushes logs and stops the converter into A3. -/
  | powerFailSequence (vin : Nat)
  /-- PWR_VIN_OV (R501): VIN48 above 60 V for more than 10 µs, or above 66 V at once, runs the power-fail sequence. -/
  | pwrVinOv (vin : Nat)
  /-- PWR_VAUX_LOST (R501): VAUX12 below 10.8 V for more than 100 µs with VIN48 present runs the power-fail sequence. -/
  | pwrVauxLost
  /-- VIN48_RETURN (R502): VIN48 is at least 40 V again for 10 ms after a power-fail sequence, and the package starts at S2. -/
  | vin48Return
  /-- VAUX12_REMOVED (R507): VAUX12 is removed, releasing THERMTRIP_N and stopping the Carillon. -/
  | vaux12Removed
  /-- THERMAL_SAMPLE (R505): Every 100 µs the sites are read, sensor pairs classified and thermal steps, hard limits and trips applied. -/
  | thermalSample (reads : List (Nat × Option Nat × Option Nat)) (input : Nat)
  /-- THERMAL_STEP_TIMER (R505): A stepped region's clock cap falls every 100 µs or rises every 1 ms, and the converter limit steps every 1 ms. -/
  | thermalStepTimer (site : Nat)
  /-- HBM_TEMP_READ (R213): Every 1 ms the HBM controller reads die temperatures, setting VALID = 0 after three failures, and throttles or limits the stack. -/
  | hbmTempRead (stack : Nat) (temp : Option Nat)
  /-- COOLING_EVENT_REPEAT (R508): The cooling-degraded event repeats every 60 s while its condition holds, and clears after 60 s without it. -/
  | coolingEventRepeat (input : Nat)
  /-- HBM_REFRESH (R212): A pseudo-channel's refresh interval expires and a per-bank refresh is issued at C3. -/
  | hbmRefresh (stack : Nat) (pc : Nat) (ca : Nat)
  /-- PATROL_SCRUB_READ (R218): Patrol scrub reads the next granule and treats any error under R216 and R217. -/
  | patrolScrubRead (hbm : Bool) (unit : Nat) (sub : Nat) (ecc : Ecc)
  /-- ZEROISE_COMPLETE (R224): Background zeroising of a region or slice reaches its end and the watermark is cleared. -/
  | zeroiseComplete (unit : Nat)
  /-- BRG_FLIT_CRC_FAIL (R227): A bridge flit fails its CRC and is replayed. -/
  | brgFlitCrcFail (bridge : Nat) (dir : Nat) (grp : Nat) (lane : Nat)
  /-- BRG_LANE_SPARED (R227): More than 16 replays on one lane in 1 ms swap it to the group's spare. -/
  | brgLaneSpared (bridge : Nat) (dir : Nat) (grp : Nat) (lane : Nat)
  /-- BRG_RETIRED (R227): A lane failure without a spare, or failed retraining, retires the bridge and moves traffic to the detour. -/
  | brgRetired (bridge : Nat) (dir : Nat) (grp : Nat)
  /-- CONTROLLER_SELFTEST_DONE (R514): A controller's ROM self-test ends, taking STANDBY or ACTIVE on pass or restarting on failure. -/
  | controllerSelftestDone (ctrl : Nat) (pass : Bool)
  /-- HEARTBEAT_SLOT (R515): A 1 ms heartbeat slot ends; missed slots on both paths are a controller fault, on one a path fault. -/
  | heartbeatSlot (ctrl : Nat) (wire : Bool) (mailbox : Bool)
  /-- TOKEN_REQUEST (R516): A controller requests the control token, granted only when the holder has not refreshed it for 3 ms. -/
  | tokenRequest (ctrl : Nat) (refreshed : Bool)
  /-- FAILOVER (R517): The standby takes the token, reads the journal and restarts interrupted operations. -/
  | failover
  /-- TAKEBACK (R518): At a quiet point after 10 s of healthy standby, CA takes the token back from CB. -/
  | takeback
  /-- BOTH_DOWN_TIMEOUT (R519): Neither controller holds the token for 100 ms, so the shared island drops CAR_ALIVE and limits power and clocks. -/
  | bothDownTimeout
  /-- I3C_ENTDAA (R520): The tray controller assigns the package's dynamic I3C address. -/
  | i3cEntdaa (bus : Nat) (addr : Nat)
  /-- MCTP_SET_ENDPOINT_ID (R520): MCTP Set Endpoint ID control message. -/
  | mctpSetEndpointId (bus : Nat) (eid : Nat)
  /-- MCTP_GET_ENDPOINT_ID (R520): MCTP Get Endpoint ID control message. -/
  | mctpGetEndpointId (bus : Nat)
  /-- MCTP_GET_VERSION_SUPPORT (R520): MCTP Get MCTP Version Support control message. -/
  | mctpGetVersionSupport (bus : Nat) (type : Nat)
  /-- MCTP_GET_MESSAGE_TYPE_SUPPORT (R520): MCTP Get Message Type Support control message. -/
  | mctpGetMessageTypeSupport (bus : Nat)
  /-- MCTP_GET_VENDOR_MESSAGE_SUPPORT (R520): MCTP Get Vendor Defined Message Support control message. -/
  | mctpGetVendorMessageSupport (bus : Nat) (sel : Nat)
  /-- PLDM_GET_TID (R520): PLDM GetTID request. -/
  | pldmGetTid (bus : Nat)
  /-- PLDM_SET_TID (R520): PLDM SetTID request. -/
  | pldmSetTid (bus : Nat) (tid : Nat)
  /-- PLDM_GET_PLDM_VERSION (R520): PLDM GetPLDMVersion request. -/
  | pldmGetPldmVersion (bus : Nat) (type : Nat)
  /-- PLDM_GET_PLDM_TYPES (R520): PLDM GetPLDMTypes request. -/
  | pldmGetPldmTypes (bus : Nat)
  /-- PLDM_GET_PLDM_COMMANDS (R520): PLDM GetPLDMCommands request. -/
  | pldmGetPldmCommands (bus : Nat) (type : Nat)
  /-- PLDM_SET_EVENT_RECEIVER (R526): SetEventReceiver names the event receiver and brings the event path up. -/
  | pldmSetEventReceiver (bus : Nat) (eid : Nat)
  /-- PLDM_POLL_FOR_EVENT (R526): PollForPlatformEventMessage returns a queued event and brings the path up. -/
  | pldmPollForEvent (bus : Nat) (ack : Option Nat)
  /-- PLDM_GET_SENSOR_READING (R522): GetSensorReading returns the latest sample of a numeric sensor. -/
  | pldmGetSensorReading (bus : Nat) (id : Nat)
  /-- PLDM_GET_STATE_SENSOR_READINGS (R522): GetStateSensorReadings returns a state sensor. -/
  | pldmGetStateSensorReadings (bus : Nat) (id : Nat)
  /-- PLDM_GET_PDR (R522): GetPDR returns a record of the PDR repository. -/
  | pldmGetPdr (bus : Nat) (handle : Nat)
  /-- PLDM_GET_PDR_REPOSITORY_INFO (R522): GetPDRRepositoryInfo returns the repository summary. -/
  | pldmGetPdrRepositoryInfo (bus : Nat)
  /-- EFFECTER_POWER_STATE (R522): SetStateEffecterStates on effecter 0x0100 requests A0, A2 or A3. -/
  | effecterPowerState (bus : Nat) (target : Nat)
  /-- EFFECTER_CHIP_RESET (R522): SetStateEffecterStates on effecter 0x0101 requests a chip reset. -/
  | effecterChipReset (bus : Nat)
  /-- EFFECTER_CONFIRM (R522): SetStateEffecterStates on effecter 0x0102 performs CONFIRM. -/
  | effecterConfirm (bus : Nat) (ok : Bool)
  /-- EVENT_SEND (R526): The oldest queued event record is sent as a PlatformEventMessage while the path is up. -/
  | eventSend
  /-- EVENT_ANSWER (R526): The receiver answers an event, which leaves the queue. -/
  | eventAnswer
  /-- EVENT_RETRY_TIMEOUT (R526): An unanswered event is resent after 100 ms, and the third unanswered attempt takes the path down. -/
  | eventRetryTimeout
  /-- PLDM_REQUEST_UPDATE (R520): PLDM RequestUpdate starts a firmware update, refused while the active slot is TRIAL. -/
  | pldmRequestUpdate (bus : Nat)
  /-- PLDM_PASS_COMPONENT_TABLE (R520): PLDM PassComponentTable names the single bundle component. -/
  | pldmPassComponentTable (bus : Nat) (cls : Nat) (id : Nat)
  /-- PLDM_UPDATE_COMPONENT (R414): PLDM UpdateComponent begins staging into the inactive slot. -/
  | pldmUpdateComponent (bus : Nat) (size : Nat)
  /-- FIRMWARE_DATA_RECEIVED (R414): A RequestFirmwareData response delivers bundle bytes that are written to the staged slot. -/
  | firmwareDataReceived (bus : Nat) (data : List Byte)
  /-- PLDM_ACTIVATE_FIRMWARE (R520): PLDM ActivateFirmware is accepted, changing nothing until the next S0. -/
  | pldmActivateFirmware (bus : Nat)
  /-- PLDM_GET_STATUS (R520): PLDM GetStatus returns the update state. -/
  | pldmGetStatus (bus : Nat)
  /-- PLDM_CANCEL_UPDATE (R520): PLDM CancelUpdate abandons the firmware update. -/
  | pldmCancelUpdate (bus : Nat)
  /-- CAR_STATUS (R524): Vendor STATUS returns CAR_CTRL_STATE, the boot stage and Carillon local time. -/
  | carStatus (bus : Nat)
  /-- MCTP_DUMP_READ (R524): Vendor DUMP_READ returns up to 1,024 dump bytes at an offset. -/
  | mctpDumpRead (bus : Nat) (off : Nat)
  /-- CONFIG_READ (R524): Vendor CONFIG_READ returns the tray configuration record in use. -/
  | configRead (bus : Nat)
  /-- CONFIG_WRITE (R528): Vendor CONFIG_WRITE checks a record and writes it to the copy not in use with SEQ + 1. -/
  | configWrite (bus : Nat) (data : List Byte)
  /-- TELEMETRY (R524): Vendor TELEMETRY returns every sensor with the local time of its sample. -/
  | telemetry (bus : Nat)
  /-- TELEMETRY_SAMPLE (R522): Every 100 ms the sensors are sampled at C5. -/
  | telemetrySample (vin : Nat) (vaux : Nat)
  /-- PERST_DEASSERT (R287): PERST_N is released by the host, ending the reset hold and letting the host port begin training once the T0 base die is up. -/
  | perstDeassert
  /-- PCIE_LINK_UP (R289): The host link completes training, or returns after going down, and reports its negotiated width, rate and FLIT mode. -/
  | pcieLinkUp (width : Nat) (gen : Nat) (flit : Bool)
  /-- QUEUE_ENABLE (R285): A write to the ENABLE bit of CLU_SR_CFG, CLU_CQ_CFG or CLU_FQ_CFG enables or disables a queue, and enabling it releases held entries and resumes fetching. -/
  | queueEnable (req : Req) (clu : Nat) (queue : Nat) (value : Word)
  /-- REFRESH_MANAGEMENT_REQUEST (R211): An HBM stack raises a refresh management request, which the controller honours at class C3 on the pseudo-channel. -/
  | refreshManagementRequest (stack : Nat) (pc : Nat)
deriving DecidableEq, Repr

end Sys2Proof
end

