-- ==== Sys2Proof/Decode.lean ====
section
/-!
DEFINITION. The decoder of table words. No row of the opcode table gives a command bits, so no word spells one.
-/
namespace Sys2Proof

/-- The command that a word of the opcode table spells: none, since the table gives no row any bits. -/
def decodeTableWord (_nbits _w : Nat) : Option Instr := none

end Sys2Proof
end

