-- ==== Sys2Proof/Config.lean ====
section
/-!
DEFINITION. What an implementation fixes (log entry 2) and the free values (log entry 3): an opaque constant has
no body, so no proof can see its values.
-/
namespace Sys2Proof.Config

/-- Celveolo's Vendor ID, which the manual does not print (R271). -/
opaque vendorId : Nat

/-- Celveolo's MIPI manufacturer ID and IANA enterprise number, which the manual does not print (R520). -/
opaque mipiId : Nat
opaque ianaId : Nat

/-- Hard-repair resources of an HBM stack as delivered, which the manual leaves per stack (R222, R230). -/
opaque pprResources : Nat → Nat

/-- The fuse word that BST_FUSE_DATA shows for a selection: the manual does not print the order of the fuse words. The first
argument lists what the unit has programmed itself (R372, R401, R424). -/
opaque fuseData : List Nat → Nat → Word

/-- Fresh random or undefined 32-bit values: the n-th value drawn (R86, R359, R431, R442). -/
opaque freeWord : Nat → Word

/-- The transcendental result of an FP32 input where the manual gives an error bound only (R93): opcode, operand. -/
opaque transcendental : Nat → Word → Word

/-- A double word of a capability that the manual names and whose contents it does not give (R270): function, capability, offset,
the double word last written. -/
opaque capWord : Nat → Nat → Nat → Word → Word

/-- The unit's identity seed of 256 bits (R424). -/
opaque seed : List Byte

/-- The Alias certificate that the ROM signs: DeviceID private key, what the certificate carries (R427). -/
opaque aliasCert : Nat → List Byte → List Byte

/-- An ECDSA P-256 signature with SHA-256, whose random number is free: private key, bytes signed (R428). -/
opaque sign : Nat → List Byte → List Byte

/-- What the supply monitor of an island measures at a time in µs (R45); island 0x8000 stands for what the supplies have in
common. -/
opaque supply : Nat → Nat → Nat

/-- The digest that a fused firmware key slot holds (R408). -/
opaque keyDigest : Nat → List Byte

/-- The fused digest of the debug-authority public key (R424). -/
opaque debugKeyDigest : List Byte

/-- The DeviceID certificate fused in CERT (R424). -/
opaque certificate : List Byte

/-- Does an ECDSA P-256 signature verify (R407, R443)? Public key, message digest, signature. -/
opaque verify : Nat → Nat → Nat → Bool

/-- A signature or other cryptographic answer of the package: purpose, bytes signed (R429, R523). -/
opaque crypto : Nat → List Byte → List Byte

end Sys2Proof.Config
end

