-- ==== Sys2Proof/Machine/Map.lean ====
section
/-!
DEFINITION. Sparse maps kept as key-sorted lists, bit fields of numbers and words, and the little-endian
byte layouts of R9.
-/
namespace Sys2Proof.Machine

/-- A sparse map from numbers, kept sorted by key without repeats. -/
abbrev NMap (α : Type) := List (Nat × α)

/-- The entry at a key. -/
def mget {α : Type} : NMap α → Nat → Option α
  | [], _ => none
  | (k', v) :: t, k => if k' = k then some v else mget t k

/-- The entry at a key, or the value an unlisted key has. -/
def mgetD {α : Type} (m : NMap α) (k : Nat) (d : α) : α := (mget m k).getD d

/-- Insert or replace, keeping the keys rising. -/
def mput {α : Type} : NMap α → Nat → α → NMap α
  | [], k, v => [(k, v)]
  | (k', v') :: t, k, v =>
    if k < k' then (k, v) :: (k', v') :: t
    else if k = k' then (k, v) :: t
    else (k', v') :: mput t k v

/-- Remove a key. -/
def mdel {α : Type} : NMap α → Nat → NMap α
  | [], _ => []
  | (k', v') :: t, k => if k' = k then t else (k', v') :: mdel t k

/-- Change the entry at a key; `d` is what an unlisted key holds. -/
def mupd {α : Type} (m : NMap α) (k : Nat) (d : α) (f : α → α) : NMap α := mput m k (f (mgetD m k d))

/-- Keep the entries whose key and value pass. -/
def mfilter {α : Type} (m : NMap α) (p : Nat → α → Bool) : NMap α := m.filter (fun e => p e.1 e.2)

/-- Put many. -/
def mputs {α : Type} (m : NMap α) (l : List (Nat × α)) : NMap α := l.foldl (fun m e => mput m e.1 e.2) m

/-- Keys are strictly rising. -/
def keysRising {α : Type} : NMap α → Bool
  | [] => true
  | [_] => true
  | (a, _) :: (b, y) :: t => decide (a < b) && keysRising ((b, y) :: t)

/-- The elements of a list at the positions that pass. -/
def replaceAt {α : Type} : List α → Nat → α → List α
  | [], _, _ => []
  | _ :: t, 0, v => v :: t
  | h :: t, n + 1, v => h :: replaceAt t n v

/-- Erase the first element that passes. -/
def eraseFirst {α : Type} (p : α → Bool) : List α → List α
  | [] => []
  | h :: t => if p h then t else h :: eraseFirst p t

/-- `len` bits of a number from bit `lo` up. -/
def bits (n lo len : Nat) : Nat := (n >>> lo) % 2 ^ len

/-- Bit `i` of a number. -/
def bit (n i : Nat) : Bool := n.testBit i

/-- A truth value as a bit. -/
def b2n (b : Bool) : Nat := if b then 1 else 0

/-- Field [hi:lo] of a register. -/
def fld (w : Word) (hi lo : Nat) : Nat := bits w.toNat lo (hi - lo + 1)

/-- Bit `i` of a register. -/
def wbit (w : Word) (i : Nat) : Bool := w.getLsbD i

/-- A register with field [hi:lo] replaced. -/
def setFld (w : Word) (hi lo v : Nat) : Word :=
  let mask := BitVec.ofNat 32 ((2 ^ (hi - lo + 1) - 1) <<< lo)
  (w &&& ~~~mask) ||| (BitVec.ofNat 32 (v <<< lo) &&& mask)

/-- A register with bit `i` set or cleared. -/
def setBit (w : Word) (i : Nat) (b : Bool) : Word := setFld w i i (b2n b)

/-- A word from a number, low 32 bits. -/
def wd (n : Nat) : Word := BitVec.ofNat 32 n

/-- The register with only bit `i` set. -/
def bitw (i : Nat) : Word := BitVec.ofNat 32 (1 <<< i)

/-- A register from the list of its fields, each a low bit and a value. -/
def packFields (fs : List (Nat × Nat)) : Word := wd (fs.foldl (fun a f => a ||| (f.2 <<< f.1)) 0)

/-- The mask whose bits are the numbers of a list. -/
def maskOf (l : List Nat) : Nat := l.foldl (fun a i => a ||| (1 <<< i)) 0

/-- The positions of the ones of a number below `n`. -/
def onesBelow (m n : Nat) : List Nat := (List.range n).filter (fun i => bit m i)

/-- How many ones a number has below `n`. -/
def popBelow (m n : Nat) : Nat := (onesBelow m n).length

/-- A number as `len` bytes, the lowest first (R9). -/
def leBytes (n : Nat) : Nat → List Byte
  | 0 => []
  | k + 1 => BitVec.ofNat 8 n :: leBytes (n >>> 8) k

/-- The number that bytes spell, the lowest first (R9). -/
def leNat : List Byte → Nat
  | [] => 0
  | b :: t => b.toNat + 256 * leNat t

/-- `len` bytes of a list from an offset, short lists read as zeros. -/
def slice (bs : List Byte) (off len : Nat) : List Byte :=
  let t := (bs.drop off).take len
  t ++ List.replicate (len - t.length) 0

/-- The little-endian number at an offset of a byte list. -/
def leAt (bs : List Byte) (off len : Nat) : Nat := leNat (slice bs off len)

/-- A byte list as the low part of a record of `len` bytes. -/
def padTo (bs : List Byte) (len : Nat) : List Byte := slice bs 0 len

/-- The least of a list and a bound. -/
def minList (l : List Nat) (d : Nat) : Nat := l.foldl min d

/-- The greatest of a list and a bound. -/
def maxList (l : List Nat) (d : Nat) : Nat := l.foldl max d

/-- A value held between two limits. -/
def clamp (lo hi v : Nat) : Nat := if v < lo then lo else if hi < v then hi else v

/-- The bytes of memory: (address, byte) pairs in canonical form, zero bytes unlisted. -/
abbrev Memory := List Host.Cell

/-- A byte of memory; a byte nothing has written reads as zero (R224, R392). -/
def memGet (m : Memory) (a : Nat) : Byte := mgetD m a 0

/-- Store one byte, keeping the canonical form. -/
def memPut (m : Memory) (a : Nat) (b : Byte) : Memory := if b = 0 then mdel m a else mput m a b

/-- `n` bytes from an address up. -/
def memRead (m : Memory) (a : Nat) : Nat → List Byte
  | 0 => []
  | n + 1 => memGet m a :: memRead m (a + 1) n

/-- Store bytes from an address up. -/
def memWrite (m : Memory) (a : Nat) : List Byte → Memory
  | [] => m
  | b :: t => memWrite (memPut m a b) (a + 1) t

/-- Zero every byte of a range [a, a + n). -/
def memZero (m : Memory) (a n : Nat) : Memory := m.filter (fun e => e.1 < a || a + n ≤ e.1)

/-- The canonical form of memory: addresses strictly rising, and no zero byte listed. -/
def Memory.wf (m : Memory) : Bool := keysRising m && m.all (fun e => e.2 != 0)

end Sys2Proof.Machine
end

