-- ==== Sys2Proof/Machine/Pages.lean ====
section
/-!
DEFINITION. The register pages of BAR0 (R47, R48, R51), the registers of every page with access type, reset
value and stored bits (R45, R49, R100, R101, R195 to R197, R229 to R231, R266, R290, R291, R328, R329, R364,
R380, R390, R401, R418, R451 to R453, R486, R487, R511, R512, R531), and the error codes of the pages with their
ERR_STATUS bits (R46, R69, R102, R198, R232, R267, R292, R330, R365, R366, R402, R419, R454, R488, R513, R532).
-/
namespace Sys2Proof.Machine

/-- The block types of R47, in type-code order. -/
inductive Block where
  | car | dir | pce | pwr | thm | sec | dbg | bst | hng | dmp | til | clu | sq | te | ve | xe | syn | gng | mmu | hbm | stg | brg | fab | opt | col
deriving DecidableEq, Repr

/-- Every block type. -/
def allBlocks : List Block :=
  [.car, .dir, .pce, .pwr, .thm, .sec, .dbg, .bst, .hng, .dmp, .til, .clu, .sq, .te, .ve, .xe, .syn, .gng, .mmu, .hbm, .stg, .brg, .fab, .opt, .col]

/-- Type code (R47). -/
def blockCode : Block → Nat
  | .car => 1
  | .dir => 2
  | .pce => 3
  | .pwr => 4
  | .thm => 5
  | .sec => 6
  | .dbg => 7
  | .bst => 8
  | .hng => 9
  | .dmp => 10
  | .til => 11
  | .clu => 12
  | .sq => 13
  | .te => 14
  | .ve => 15
  | .xe => 16
  | .syn => 17
  | .gng => 18
  | .mmu => 19
  | .hbm => 20
  | .stg => 21
  | .brg => 22
  | .fab => 23
  | .opt => 24
  | .col => 25

/-- Number of instances (R47). -/
def blockCount : Block → Nat
  | .car => 1
  | .dir => 1
  | .pce => 1
  | .pwr => 1
  | .thm => 1
  | .sec => 1
  | .dbg => 1
  | .bst => 1
  | .hng => 1
  | .dmp => 1
  | .til => 4
  | .clu => 64
  | .sq => 1152
  | .te => 1152
  | .ve => 1152
  | .xe => 1152
  | .syn => 1152
  | .gng => 4
  | .mmu => 64
  | .hbm => 16
  | .stg => 64
  | .brg => 4
  | .fab => 8
  | .opt => 8
  | .col => 8

/-- BASE (R47). -/
def blockBase : Block → Nat
  | .car => 0x1000
  | .dir => 0x0
  | .pce => 0x2000
  | .pwr => 0x3000
  | .thm => 0x4000
  | .sec => 0x5000
  | .dbg => 0x6000
  | .bst => 0x7000
  | .hng => 0x8000
  | .dmp => 0x9000
  | .til => 0x10000
  | .clu => 0x90000
  | .sq => 0x1000000
  | .te => 0x1001000
  | .ve => 0x1002000
  | .xe => 0x1003000
  | .syn => 0x1004000
  | .gng => 0x14000
  | .mmu => 0x100000
  | .hbm => 0x20000
  | .stg => 0x50000
  | .brg => 0x18000
  | .fab => 0x30000
  | .opt => 0x38000
  | .col => 0x40000

/-- STRIDE (R47). -/
def blockStride : Block → Nat
  | .car => 0x1000
  | .dir => 0x1000
  | .pce => 0x1000
  | .pwr => 0x1000
  | .thm => 0x1000
  | .sec => 0x1000
  | .dbg => 0x1000
  | .bst => 0x1000
  | .hng => 0x1000
  | .dmp => 0x1000
  | .til => 0x1000
  | .clu => 0x1000
  | .sq => 0x8000
  | .te => 0x8000
  | .ve => 0x8000
  | .xe => 0x8000
  | .syn => 0x8000
  | .gng => 0x1000
  | .mmu => 0x1000
  | .hbm => 0x1000
  | .stg => 0x1000
  | .brg => 0x1000
  | .fab => 0x1000
  | .opt => 0x1000
  | .col => 0x1000

/-- CAPS0 as the block chapters give it; 0 where a chapter gives none (DESIGN CHOICE, log entry 2). -/
def blockCaps0 : Block → Nat
  | .car => 0x4002
  | .dir => 0x0
  | .pce => 0x80710
  | .pwr => 0x0
  | .thm => 0x141040
  | .sec => 0x100406
  | .dbg => 0x803
  | .bst => 0x20a
  | .hng => 0x4008
  | .dmp => 0x640
  | .til => 0x702
  | .clu => 0x0
  | .sq => 0x410
  | .te => 0x88
  | .ve => 0x42040
  | .xe => 0x2000100
  | .syn => 0x801000
  | .gng => 0x0
  | .mmu => 0x40781000
  | .hbm => 0xc3040
  | .stg => 0x182010
  | .brg => 0x1001f4
  | .fab => 0x3e00111
  | .opt => 0x12215
  | .col => 0x404010

/-- The LEVEL that partition configuration gives a block type (R52). R52 names none for DIR; the model gives it LEVEL 0 (DESIGN CHOICE,
log entry 69). -/
def blockLevel : Block → Nat
  | .car => 2
  | .dir => 0
  | .pce => 0
  | .pwr => 0
  | .thm => 0
  | .sec => 2
  | .dbg => 2
  | .bst => 2
  | .hng => 0
  | .dmp => 2
  | .til => 0
  | .clu => 1
  | .sq => 1
  | .te => 1
  | .ve => 1
  | .xe => 1
  | .syn => 1
  | .gng => 0
  | .mmu => 1
  | .hbm => 0
  | .stg => 1
  | .brg => 0
  | .fab => 0
  | .opt => 0
  | .col => 1

/-- The BAR0 address of the page of an instance (R47). -/
def page (b : Block) (i : Nat) : Nat := blockBase b + i * blockStride b

/-- The page that an address falls in, as block, instance and offset (R47, R48). -/
def pageOf (a : Nat) : Option (Block × Nat × Nat) :=
  allBlocks.findSome? (fun b =>
    if blockBase b ≤ a then
      let d := a - blockBase b
      let i := d / blockStride b
      let off := d % blockStride b
      if i < blockCount b && off < 0x1000 then some (b, i, off) else none
    else none)

/-- Register access types (R11); `w1cBit` is a register whose named bit is W1C (ERR_FIRST.VALID). -/
inductive Acc where
  | ro | rw | w1c | w1s | wo | rc
deriving DecidableEq, Repr

/-- One row of a register table: an offset that repeats `count` times at `stride`, and again `count2` times. -/
structure RegRow where
  off : Nat
  stride : Nat
  count : Nat
  acc : Acc
  reset : Word
  mask : Word
deriving DecidableEq, Repr

/-- The common page header (R51). -/
def headerRows : List RegRow :=
  [⟨0x0, 4, 1, .ro, 0x0, 0x0⟩ /- ID -/,
   ⟨0x4, 4, 1, .ro, 0x0, 0x0⟩ /- VERSION -/,
   ⟨0x8, 4, 1, .ro, 0x0, 0x0⟩ /- CAPS0 -/,
   ⟨0xc, 4, 1, .ro, 0x0, 0x0⟩ /- CAPS1 -/,
   ⟨0x10, 4, 1, .rw, 0x0, 0x7⟩ /- CTRL -/,
   ⟨0x14, 4, 1, .ro, 0x0, 0x0⟩ /- STATUS -/,
   ⟨0x18, 4, 1, .rw, 0x0, 0xffffffff⟩ /- SCRATCH -/,
   ⟨0x20, 4, 1, .w1c, 0x0, 0xffffffff⟩ /- ERR_STATUS -/,
   ⟨0x24, 4, 1, .rw, 0x0, 0xffffffff⟩ /- ERR_MASK -/,
   ⟨0x28, 4, 1, .rw, 0x0, 0xffffffff⟩ /- ERR_SEVERITY -/,
   ⟨0x2c, 4, 1, .wo, 0x0, 0x0⟩ /- ERR_INJECT -/,
   ⟨0x30, 4, 1, .w1c, 0x0, 0x80000000⟩ /- ERR_FIRST -/,
   ⟨0x34, 4, 1, .rc, 0x0, 0x0⟩ /- ERR_COUNT -/,
   ⟨0x38, 4, 1, .ro, 0xffffffff, 0x0⟩ /- ERR_CTAG -/,
   ⟨0x40, 4, 1, .w1c, 0x0, 0xfffffffe⟩ /- INT_STATUS -/,
   ⟨0x44, 4, 1, .rw, 0x0, 0xffffffff⟩ /- INT_ENABLE -/,
   ⟨0x48, 4, 1, .rw, 0x0, 0x37ff⟩ /- INT_ROUTE -/,
   ⟨0x50, 4, 1, .rw, 0x2, 0xf07⟩ /- ACCESS_LEVEL -/]

/-- Registers of the CAR page. -/
def rowsCar : List RegRow :=
  [⟨0x400, 0x4, 1, .ro, 0x0, 0x0⟩ /- CAR_FW_BOOT -/,
   ⟨0x404, 0x4, 1, .ro, 0x0, 0x0⟩ /- CAR_FW_VER_A -/,
   ⟨0x408, 0x4, 1, .ro, 0x0, 0x0⟩ /- CAR_FW_VER_B -/,
   ⟨0x40c, 0x4, 1, .ro, 0x0, 0x0⟩ /- CAR_FW_STATE -/,
   ⟨0x410, 0x4, 1, .ro, 0x0, 0x0⟩ /- CAR_FW_SVN -/,
   ⟨0x414, 0x4, 1, .ro, 0x0, 0x0⟩ /- CAR_FW_KEYS -/,
   ⟨0x418, 0x4, 1, .wo, 0x0, 0x0⟩ /- CAR_FW_CMD -/,
   ⟨0x41c, 0x4, 1, .ro, 0x0, 0x0⟩ /- CAR_FW_CMD_RESULT -/,
   ⟨0x440, 0x4, 1, .ro, 0x0, 0x0⟩ /- CAR_RCV_STATUS -/,
   ⟨0x444, 0x4, 1, .rw, 0x0, 0xffffffff⟩ /- CAR_RCV_SIZE -/,
   ⟨0x448, 0x4, 1, .wo, 0x0, 0x0⟩ /- CAR_RCV_CMD -/,
   ⟨0x100, 0x4, 1, .ro, 0x0, 0x0⟩ /- CAR_CTRL_STATE -/,
   ⟨0x104, 0x4, 1, .ro, 0x0, 0x0⟩ /- CAR_HB_STATUS -/,
   ⟨0x108, 0x4, 1, .rc, 0x0, 0x0⟩ /- CAR_FAILOVERS -/,
   ⟨0x10c, 0x4, 1, .rc, 0x0, 0x0⟩ /- CAR_TAKEBACKS -/,
   ⟨0x110, 0x4, 1, .ro, 0x0, 0x0⟩ /- CAR_RESTARTS -/,
   ⟨0x118, 0x4, 1, .ro, 0x0, 0x0⟩ /- CAR_TIME_LO -/,
   ⟨0x11c, 0x4, 1, .ro, 0x0, 0x0⟩ /- CAR_TIME_HI -/,
   ⟨0x120, 0x4, 1, .ro, 0x0, 0x0⟩ /- CAR_EVQ_STATUS -/,
   ⟨0x124, 0x4, 1, .rc, 0x0, 0x0⟩ /- CAR_EVQ_LOST -/,
   ⟨0x128, 0x4, 1, .ro, 0x0, 0x0⟩ /- CAR_CFG_STATUS -/,
   ⟨0x12c, 0x4, 1, .ro, 0x0, 0x0⟩ /- CAR_SIDEBAND -/,
   ⟨0x130, 0x4, 2, .ro, 0x0, 0x0⟩ /- CAR_I3C -/]

/-- Registers of the DIR page. -/
def rowsDir : List RegRow :=
  [⟨0x290, 0x4, 1, .ro, 0x0, 0x0⟩ /- DIR_ENTRY_END -/,
   ⟨0x300, 0x4, 1, .ro, 0x0, 0x0⟩ /- DIR_PKG_ID -/,
   ⟨0x304, 0x4, 1, .ro, 0x0, 0x0⟩ /- DIR_UNIT_ID_LO -/,
   ⟨0x308, 0x4, 1, .ro, 0x0, 0x0⟩ /- DIR_UNIT_ID_HI -/,
   ⟨0x30c, 0x4, 1, .ro, 0x0, 0x0⟩ /- DIR_BOOT_STAGE -/,
   ⟨0x310, 0x4, 1, .ro, 0x0, 0x0⟩ /- DIR_FUNCTION -/]

/-- Registers of the PCE page. -/
def rowsPce : List RegRow :=
  [⟨0x100, 0x4, 1, .ro, 0x0, 0x0⟩ /- PCE_LINK_STATUS -/,
   ⟨0x104, 0x4, 1, .rc, 0x0, 0x0⟩ /- PCE_LINK_DOWNS -/,
   ⟨0x108, 0x4, 1, .rc, 0x0, 0x0⟩ /- PCE_RECOVERIES -/,
   ⟨0x10c, 0x4, 1, .ro, 0x0, 0x0⟩ /- PCE_NUMVFS -/,
   ⟨0x110, 0x4, 1, .wo, 0x0, 0x0⟩ /- PCE_RESET_CMD -/,
   ⟨0x114, 0x4, 1, .ro, 0x0, 0x0⟩ /- PCE_RESET_STATUS -/,
   ⟨0x200, 0x8, 9, .rw, 0x0, 0xc0000000⟩ /- PCE_BAR2_WIN_LO -/,
   ⟨0x204, 0x8, 9, .rw, 0x0, 0xff⟩ /- PCE_BAR2_WIN_HI -/]

/-- Registers of the PWR page. -/
def rowsPwr : List RegRow :=
  [⟨0x100, 0x4, 1, .ro, 0x0, 0x0⟩ /- PWR_STATE -/,
   ⟨0x104, 0x4, 1, .wo, 0x0, 0x0⟩ /- PWR_STATE_CMD -/,
   ⟨0x108, 0x4, 1, .ro, 0x0, 0x0⟩ /- PWR_STATE_RESULT -/,
   ⟨0x10c, 0x4, 1, .rw, 0x3e8, 0xffffff⟩ /- PWR_IDLE_US -/,
   ⟨0x110, 0x4, 1, .ro, 0x0, 0x0⟩ /- PWR_LIMIT -/,
   ⟨0x114, 0x4, 1, .rw, 0x0, 0xffff⟩ /- PWR_LIMIT_CFG -/,
   ⟨0x118, 0x4, 1, .rw, 0x1e, 0xff⟩ /- PWR_BRAKE_FLOOR -/,
   ⟨0x11c, 0x4, 1, .ro, 0x0, 0x0⟩ /- PWR_INPUT -/,
   ⟨0x120, 0x4, 1, .ro, 0x0, 0x0⟩ /- PWR_VIN -/,
   ⟨0x124, 0x4, 1, .rw, 0x3e8, 0xffff⟩ /- PWR_CORE_CAP -/,
   ⟨0x128, 0x4, 1, .ro, 0x10, 0x0⟩ /- PWR_CLOCK_CAP -/,
   ⟨0x12c, 0x4, 1, .rc, 0x0, 0x0⟩ /- PWR_GRANT_WAITS -/,
   ⟨0x130, 0x4, 4, .ro, 0x0, 0x0⟩ /- PWR_POOL -/,
   ⟨0x140, 0x4, 1, .rc, 0x0, 0x0⟩ /- PWR_BRAKE_COUNT -/,
   ⟨0x144, 0x4, 1, .ro, 0x0, 0x0⟩ /- PWR_FAIL_COUNT -/]

/-- Registers of the THM page. -/
def rowsThm : List RegRow :=
  [⟨0x100, 0x4, 1, .rw, 0x0, 0x7f⟩ /- THM_SITE_SEL -/,
   ⟨0x104, 0x4, 1, .ro, 0x0, 0x0⟩ /- THM_SITE_READ -/,
   ⟨0x108, 0x4, 1, .ro, 0x0, 0x0⟩ /- THM_HOTTEST -/,
   ⟨0x10c, 0x4, 1, .ro, 0x0, 0x0⟩ /- THM_REGIONS -/,
   ⟨0x110, 0x4, 1, .ro, 0x0, 0x0⟩ /- THM_HBM -/,
   ⟨0x114, 0x4, 1, .ro, 0x0, 0x0⟩ /- THM_SENSORS -/,
   ⟨0x118, 0x4, 1, .ro, 0x0, 0x0⟩ /- THM_WARN -/]

/-- Registers of the SEC page. -/
def rowsSec : List RegRow :=
  [⟨0x100, 0x4, 1, .ro, 0x0, 0x0⟩ /- SEC_LIFECYCLE -/,
   ⟨0x104, 0x4, 1, .wo, 0x0, 0x0⟩ /- SEC_LC_CMD -/,
   ⟨0x108, 0x4, 1, .ro, 0x0, 0x0⟩ /- SEC_LC_STATUS -/,
   ⟨0x110, 0x4, 1, .ro, 0x0, 0x0⟩ /- SEC_ALARM_LEVEL -/,
   ⟨0x114, 0x4, 1, .w1c, 0x0, 0x3f⟩ /- SEC_ALARM_SEEN -/,
   ⟨0x118, 0x4, 1, .rw, 0x0, 0x80000fff⟩ /- SEC_ALARM_CFG -/,
   ⟨0x11c, 0x4, 1, .ro, 0x0, 0x0⟩ /- SEC_ALARM_FLOOR -/,
   ⟨0x120, 0x4, 1, .rc, 0x0, 0x0⟩ /- SEC_ALARM_COUNT -/,
   ⟨0x124, 0x4, 1, .ro, 0x0, 0x0⟩ /- SEC_KEY_STATE -/,
   ⟨0x128, 0x4, 1, .ro, 0x1, 0x0⟩ /- SEC_TRNG_STATUS -/,
   ⟨0x140, 0x4, 8, .rw, 0x0, 0xf3⟩ /- SEC_PART_CFG -/]

/-- Registers of the DBG page. -/
def rowsDbg : List RegRow :=
  [⟨0x100, 0x4, 4, .ro, 0x0, 0x0⟩ /- DBG_NONCE -/,
   ⟨0x110, 0x4, 8, .ro, 0x0, 0x0⟩ /- DBG_GRANT -/,
   ⟨0x130, 0x4, 1, .ro, 0x0, 0x0⟩ /- DBG_D3 -/,
   ⟨0x134, 0x4, 1, .ro, 0x0, 0x0⟩ /- DBG_TOKEN_STATUS -/,
   ⟨0x138, 0x4, 1, .rc, 0x0, 0x0⟩ /- DBG_TOKEN_FAILS -/,
   ⟨0x13c, 0x4, 1, .ro, 0x0, 0x0⟩ /- DBG_JTAG_STATUS -/,
   ⟨0x140, 0x4, 1, .wo, 0x0, 0x0⟩ /- DBG_CMD -/]

/-- Registers of the BST page. -/
def rowsBst : List RegRow :=
  [⟨0x100, 0x4, 1, .ro, 0x0, 0x0⟩ /- BST_BOOT_RESULT -/,
   ⟨0x104, 0x4, 1, .rw, 0x0, 0xfff⟩ /- BST_FUSE_SEL -/,
   ⟨0x108, 0x4, 1, .ro, 0x0, 0x0⟩ /- BST_FUSE_DATA -/,
   ⟨0x10c, 0x4, 1, .ro, 0x0, 0x0⟩ /- BST_FUSE_STATUS -/,
   ⟨0x110, 0x4, 1, .rw, 0x1, 0x1⟩ /- BST_SLICE_CTRL -/,
   ⟨0x114, 0x4, 1, .rc, 0x0, 0x0⟩ /- BST_SLICES_DONE -/,
   ⟨0x118, 0x4, 1, .rc, 0x0, 0x0⟩ /- BST_SLICES_ABANDONED -/,
   ⟨0x11c, 0x4, 1, .rc, 0x0, 0x0⟩ /- BST_SLICE_FAILS -/,
   ⟨0x120, 0x4, 1, .ro, 0x0, 0x0⟩ /- BST_LAST_FAIL_LO -/,
   ⟨0x124, 0x4, 1, .ro, 0x0, 0x0⟩ /- BST_LAST_FAIL_HI -/,
   ⟨0x128, 0x4, 1, .wo, 0x0, 0x0⟩ /- BST_DIRECT_CMD -/,
   ⟨0x12c, 0x4, 1, .ro, 0x0, 0x0⟩ /- BST_DIRECT_STATUS -/,
   ⟨0x130, 0x4, 1, .ro, 0x0, 0x0⟩ /- BST_SCAN_STATUS -/,
   ⟨0x134, 0x4, 1, .ro, 0x0, 0x0⟩ /- BST_FIELD_COUNT -/,
   ⟨0x140, 0x4, 10, .rw, 0x3e8, 0xffff⟩ /- BST_PERIOD -/]

/-- Registers of the HNG page. -/
def rowsHng : List RegRow :=
  [⟨0x100, 0x4, 1, .rw, 0x1, 0x1⟩ /- HNG_CTRL -/,
   ⟨0x104, 0x4, 1, .ro, 0x0, 0x0⟩ /- HNG_STATUS -/,
   ⟨0x110, 0x4, 8, .rw, 0xc350, 0x3ffffff⟩ /- HNG_WINDOW -/,
   ⟨0x130, 0x4, 8, .rw, 0x1, 0x103⟩ /- HNG_ACTION -/,
   ⟨0x150, 0x4, 1, .rw, 0x2710, 0xffff⟩ /- HNG_SAVE_TIMEOUT -/,
   ⟨0x154, 0x4, 1, .rc, 0x0, 0x0⟩ /- HNG_EVENTS -/,
   ⟨0x158, 0x4, 1, .rc, 0x0, 0x0⟩ /- HNG_CTX_RESETS -/,
   ⟨0x15c, 0x4, 1, .rc, 0x0, 0x0⟩ /- HNG_ENG_RESETS -/,
   ⟨0x160, 0x4, 1, .rc, 0x0, 0x0⟩ /- HNG_PART_RESETS -/,
   ⟨0x164, 0x4, 1, .ro, 0xffffffff, 0x0⟩ /- HNG_LAST_CTAG -/,
   ⟨0x168, 0x4, 1, .ro, 0x0, 0x0⟩ /- HNG_LAST_RESET -/,
   ⟨0x180, 0x4, 1, .ro, 0x0, 0x0⟩ /- HNG_DUMP_STATUS -/,
   ⟨0x184, 0x4, 1, .rw, 0x0, 0x3ffffc0⟩ /- HNG_DUMP_OFFSET -/,
   ⟨0x188, 0x4, 1, .wo, 0x0, 0x0⟩ /- HNG_DUMP_CMD -/,
   ⟨0x18c, 0x4, 1, .ro, 0x0, 0x0⟩ /- HNG_DUMP_RESULT -/,
   ⟨0x1c0, 0x4, 16, .ro, 0x0, 0x0⟩ /- HNG_DUMP_DATA -/]

/-- Registers of the DMP page. -/
def rowsDmp : List RegRow :=
  [⟨0x100, 0x4, 1, .rw, 0x7, 0x7⟩ /- DMP_CFG -/,
   ⟨0x104, 0x4, 1, .ro, 0x0, 0x0⟩ /- DMP_STATUS -/,
   ⟨0x108, 0x4, 1, .wo, 0x0, 0x0⟩ /- DMP_CMD -/,
   ⟨0x10c, 0x4, 1, .ro, 0x0, 0x0⟩ /- DMP_RESULT -/,
   ⟨0x110, 0x4, 1, .rc, 0x0, 0x0⟩ /- DMP_TAKEN -/,
   ⟨0x114, 0x4, 1, .rc, 0x0, 0x0⟩ /- DMP_SKIPPED_COUNT -/,
   ⟨0x118, 0x4, 1, .rc, 0x0, 0x0⟩ /- DMP_UNREADABLE_COUNT -/]

/-- Registers of the TIL page. -/
def rowsTil : List RegRow :=
  [⟨0x100, 0x4, 1, .ro, 0x0, 0x0⟩ /- TIL_INFO -/,
   ⟨0x104, 0x4, 1, .ro, 0x0, 0x0⟩ /- TIL_BRIDGES -/,
   ⟨0x108, 0x4, 1, .ro, 0xf, 0x0⟩ /- TIL_SPLITS -/,
   ⟨0x10c, 0x4, 1, .ro, 0x0, 0x0⟩ /- TIL_ERR_PAIR -/,
   ⟨0x110, 0x4, 1, .rw, 0x0, 0x7fff⟩ /- TIL_ISLAND_SEL -/,
   ⟨0x114, 0x4, 1, .ro, 0x0, 0x0⟩ /- TIL_ISLAND_INFO -/,
   ⟨0x118, 0x4, 1, .rc, 0x0, 0x0⟩ /- TIL_GRADIENTS -/]

/-- Registers of the CLU page. -/
def rowsClu : List RegRow :=
  [⟨0x800, 0x40, 4, .rw, 0x0, 0xfffff000⟩ /- CLU_SR_BASE_LO -/,
   ⟨0x804, 0x40, 4, .rw, 0x0, 0xffffffff⟩ /- CLU_SR_BASE_HI -/,
   ⟨0x808, 0x40, 4, .rw, 0x0, 0x1030f⟩ /- CLU_SR_CFG -/,
   ⟨0x80c, 0x40, 4, .ro, 0x0, 0x0⟩ /- CLU_SR_HEAD -/,
   ⟨0x810, 0x40, 4, .wo, 0x0, 0x0⟩ /- CLU_SR_DB -/,
   ⟨0x814, 0x40, 4, .ro, 0x0, 0x0⟩ /- CLU_SR_STATUS -/,
   ⟨0x900, 0x40, 4, .rw, 0x0, 0xfffff000⟩ /- CLU_CQ_BASE_LO -/,
   ⟨0x904, 0x40, 4, .rw, 0x0, 0xffffffff⟩ /- CLU_CQ_BASE_HI -/,
   ⟨0x908, 0x40, 4, .rw, 0x0, 0x7ff010f⟩ /- CLU_CQ_CFG -/,
   ⟨0x90c, 0x40, 4, .ro, 0x0, 0x0⟩ /- CLU_CQ_TAIL -/,
   ⟨0x910, 0x40, 4, .rw, 0x0, 0xffff⟩ /- CLU_CQ_HEAD -/,
   ⟨0x914, 0x40, 4, .rw, 0x1, 0xffffff⟩ /- CLU_CQ_INT -/,
   ⟨0x918, 0x40, 4, .ro, 0x0, 0x0⟩ /- CLU_CQ_STATUS -/,
   ⟨0xa00, 0x4, 1, .rw, 0x0, 0xfffff000⟩ /- CLU_FQ_BASE_LO -/,
   ⟨0xa04, 0x4, 1, .rw, 0x0, 0xffffffff⟩ /- CLU_FQ_BASE_HI -/,
   ⟨0xa08, 0x4, 1, .rw, 0x0, 0x7ff010f⟩ /- CLU_FQ_CFG -/,
   ⟨0xa0c, 0x4, 1, .ro, 0x0, 0x0⟩ /- CLU_FQ_TAIL -/,
   ⟨0xa10, 0x4, 1, .rw, 0x0, 0xffff⟩ /- CLU_FQ_HEAD -/,
   ⟨0xa14, 0x4, 1, .ro, 0x0, 0x0⟩ /- CLU_FQ_STATUS -/,
   ⟨0x100, 0x4, 1, .ro, 0x0, 0x0⟩ /- CLU_CORE_USABLE -/,
   ⟨0x104, 0x4, 1, .ro, 0x0, 0x0⟩ /- CLU_CORE_RETIRED -/,
   ⟨0x108, 0x4, 1, .ro, 0x1f, 0x0⟩ /- CLU_CORE_INFO -/,
   ⟨0x10c, 0x4, 3, .ro, 0x0, 0x0⟩ /- CLU_LMAP -/,
   ⟨0x118, 0x4, 1, .ro, 0x0, 0x0⟩ /- CLU_PEAL_FAILED -/,
   ⟨0x11c, 0x4, 1, .rc, 0x0, 0x0⟩ /- CLU_PEAL_FETCHES -/,
   ⟨0xb00, 0x4, 1, .rw, 0x0, 0xff03⟩ /- CLU_TRACE_CTRL -/,
   ⟨0xb04, 0x4, 1, .rw, 0x0, 0xfffff000⟩ /- CLU_TRACE_BASE_LO -/,
   ⟨0xb08, 0x4, 1, .rw, 0x0, 0xffff⟩ /- CLU_TRACE_BASE_HI -/,
   ⟨0xb0c, 0x4, 1, .rw, 0x0, 0xfff⟩ /- CLU_TRACE_SIZE -/,
   ⟨0xb10, 0x4, 1, .ro, 0x0, 0x0⟩ /- CLU_TRACE_PTR -/]

/-- Registers of the SQ page. -/
def rowsSq : List RegRow :=
  [⟨0x100, 0x4, 1, .ro, 0x0, 0x0⟩ /- SQ_CORE_ID -/,
   ⟨0x104, 0x4, 1, .ro, 0x0, 0x0⟩ /- SQ_SLOT_BUSY -/,
   ⟨0x108, 0x4, 1, .wo, 0x0, 0x0⟩ /- SQ_CMD -/,
   ⟨0x10c, 0x4, 1, .ro, 0x0, 0x0⟩ /- SQ_CMD_RESULT -/,
   ⟨0x110, 0x4, 1, .ro, 0x400840, 0x0⟩ /- SQ_FREE0 -/,
   ⟨0x114, 0x4, 1, .ro, 0x100, 0x0⟩ /- SQ_FREE1 -/,
   ⟨0x400, 0x40, 16, .ro, 0xffffffff, 0x0⟩ /- SQ_SLOT_CTAG -/,
   ⟨0x404, 0x40, 16, .ro, 0x0, 0x0⟩ /- SQ_SLOT_STATE -/,
   ⟨0x408, 0x40, 16, .rw, 0x0, 0x33ffff⟩ /- SQ_SLOT_CFG -/,
   ⟨0x40c, 0x40, 16, .rw, 0x0, 0xfffff000⟩ /- SQ_SLOT_RUD_LO -/,
   ⟨0x410, 0x40, 16, .rw, 0x0, 0xffff⟩ /- SQ_SLOT_RUD_HI -/,
   ⟨0x414, 0x40, 16, .rw, 0x0, 0x1ffff⟩ /- SQ_SLOT_LM -/,
   ⟨0x418, 0x40, 16, .rw, 0x0, 0xff87ff7f⟩ /- SQ_SLOT_RES -/,
   ⟨0x41c, 0x40, 16, .rw, 0x0, 0xfffff000⟩ /- SQ_SLOT_SAVE_LO -/,
   ⟨0x420, 0x40, 16, .rw, 0x0, 0xffff⟩ /- SQ_SLOT_SAVE_HI -/,
   ⟨0x424, 0x40, 16, .rw, 0x0, 0xffffffff⟩ /- SQ_SLOT_SEED -/,
   ⟨0x428, 0x40, 16, .ro, 0x0, 0x0⟩ /- SQ_SLOT_STEP -/,
   ⟨0x42c, 0x40, 16, .ro, 0x0, 0x0⟩ /- SQ_SLOT_EXIT -/,
   ⟨0x800, 0x10, 16, .ro, 0x0, 0x0⟩ /- SQ_BEAT -/,
   ⟨0x804, 0x10, 16, .ro, 0x0, 0x0⟩ /- SQ_BEAT -/,
   ⟨0x808, 0x10, 16, .ro, 0x0, 0x0⟩ /- SQ_BEAT -/,
   ⟨0x80c, 0x10, 16, .ro, 0x0, 0x0⟩ /- SQ_BEAT -/]

/-- Registers of the TE page. -/
def rowsTe : List RegRow :=
  [⟨0x100, 0x4, 1, .ro, 0x0, 0x0⟩ /- TE_BANK_OWNER -/,
   ⟨0x104, 0x4, 1, .ro, 0x0, 0x0⟩ /- TE_BANK_VALID -/,
   ⟨0x108, 0x4, 1, .ro, 0x0, 0x0⟩ /- TE_QUEUED -/,
   ⟨0x10c, 0x4, 1, .rc, 0x0, 0x0⟩ /- TE_BUSY_CYCLES -/,
   ⟨0x110, 0x4, 1, .rc, 0x0, 0x0⟩ /- TE_OPS_DONE -/]

/-- Registers of the VE page. -/
def rowsVe : List RegRow :=
  [⟨0x100, 0x4, 8, .ro, 0x0, 0x0⟩ /- VE_STRAND_OWNER -/,
   ⟨0x120, 0x4, 1, .ro, 0x0, 0x0⟩ /- VE_STRAND_VALID_LO -/,
   ⟨0x124, 0x4, 1, .ro, 0x0, 0x0⟩ /- VE_STRAND_VALID_HI -/,
   ⟨0x128, 0x4, 1, .rc, 0x0, 0x0⟩ /- VE_ISSUE_CYCLES -/,
   ⟨0x12c, 0x4, 1, .rc, 0x0, 0x0⟩ /- VE_TRANS_OPS -/,
   ⟨0x130, 0x4, 1, .rc, 0x0, 0x0⟩ /- VE_IBUF_MISS -/]

/-- Registers of the XE page. -/
def rowsXe : List RegRow :=
  [⟨0x100, 0x4, 1, .ro, 0x0, 0x0⟩ /- XE_STREAMS_USED -/,
   ⟨0x104, 0x4, 1, .ro, 0x0, 0x0⟩ /- XE_READS_OUT -/,
   ⟨0x108, 0x4, 1, .rw, 0x0, 0xff⟩ /- XE_STREAM_SEL -/,
   ⟨0x10c, 0x4, 1, .ro, 0x0, 0x0⟩ /- XE_STREAM_INFO -/,
   ⟨0x110, 0x4, 1, .ro, 0x0, 0x0⟩ /- XE_STREAM_CHAIN_LO -/,
   ⟨0x114, 0x4, 1, .ro, 0x0, 0x0⟩ /- XE_STREAM_CHAIN_HI -/,
   ⟨0x118, 0x4, 1, .ro, 0x0, 0x0⟩ /- XE_STREAM_OFFSET -/,
   ⟨0x11c, 0x4, 1, .ro, 0x0, 0x0⟩ /- XE_RX_STREAMS -/,
   ⟨0x120, 0x4, 1, .rc, 0x0, 0x0⟩ /- XE_BYTES_OUT -/,
   ⟨0x124, 0x4, 1, .rc, 0x0, 0x0⟩ /- XE_BYTES_IN -/]

/-- Registers of the SYN page. -/
def rowsSyn : List RegRow :=
  [⟨0x100, 0x4, 8, .ro, 0x0, 0x0⟩ /- SYN_BLOCK_OWNER -/,
   ⟨0x120, 0x4, 1, .ro, 0x0, 0x0⟩ /- SYN_BLOCK_VALID_LO -/,
   ⟨0x124, 0x4, 1, .ro, 0x0, 0x0⟩ /- SYN_BLOCK_VALID_HI -/,
   ⟨0x128, 0x4, 1, .rw, 0x0, 0xfff⟩ /- SYN_SEL -/,
   ⟨0x12c, 0x4, 1, .ro, 0x0, 0x0⟩ /- SYN_STATE_LO -/,
   ⟨0x130, 0x4, 1, .ro, 0x0, 0x0⟩ /- SYN_STATE_HI -/,
   ⟨0x134, 0x4, 1, .ro, 0x0, 0x0⟩ /- SYN_INDEX_USED -/,
   ⟨0x138, 0x4, 1, .rc, 0x0, 0x0⟩ /- SYN_OPS -/,
   ⟨0x13c, 0x4, 1, .rc, 0x0, 0x0⟩ /- SYN_REMOTE_OPS -/,
   ⟨0x140, 0x4, 1, .rc, 0x0, 0x0⟩ /- SYN_DROPPED -/]

/-- Registers of the GNG page. -/
def rowsGng : List RegRow :=
  [⟨0x100, 0x4, 1, .rc, 0x0, 0x0⟩ /- GNG_ARRIVALS -/,
   ⟨0x104, 0x4, 1, .rc, 0x0, 0x0⟩ /- GNG_RELEASES -/,
   ⟨0x400, 0x8, 256, .rw, 0x0, 0xffff⟩ /- GNG_BAR_CFG -/,
   ⟨0x404, 0x8, 256, .ro, 0x0, 0x0⟩ /- GNG_BAR_STATE -/,
   ⟨0xc00, 0x8, 64, .rw, 0x0, 0xffff⟩ /- GNG_PKG_CFG -/,
   ⟨0xc04, 0x8, 64, .ro, 0x0, 0x0⟩ /- GNG_PKG_STATE -/]

/-- Registers of the MMU page. -/
def rowsMmu : List RegRow :=
  [⟨0x100, 0x4, 1, .wo, 0x0, 0x0⟩ /- MMU_INV_CMD -/,
   ⟨0x104, 0x4, 1, .rw, 0x0, 0xffff0000⟩ /- MMU_INV_VA_LO -/,
   ⟨0x108, 0x4, 1, .rw, 0x0, 0xffff⟩ /- MMU_INV_VA_HI -/,
   ⟨0x10c, 0x4, 1, .rw, 0x0, 0xffffffff⟩ /- MMU_INV_PAGES -/,
   ⟨0x110, 0x4, 1, .ro, 0x0, 0x0⟩ /- MMU_INV_STATUS -/,
   ⟨0x114, 0x4, 1, .rc, 0x0, 0x0⟩ /- MMU_TLB_HITS -/,
   ⟨0x118, 0x4, 1, .rc, 0x0, 0x0⟩ /- MMU_TLB_MISSES -/,
   ⟨0x11c, 0x4, 1, .rc, 0x0, 0x0⟩ /- MMU_FAULTS -/,
   ⟨0x120, 0x4, 1, .rc, 0x0, 0x0⟩ /- MMU_DEST_FAULTS -/,
   ⟨0x124, 0x4, 1, .ro, 0x0, 0x0⟩ /- MMU_FQ_HELD_COUNT -/,
   ⟨0x128, 0x4, 1, .ro, 0x0, 0x0⟩ /- MMU_FQ_SEQ -/,
   ⟨0x400, 0x8, 64, .rw, 0x0, 0x7fffffff⟩ /- MMU_KEY_LO -/,
   ⟨0x404, 0x8, 64, .rw, 0x0, 0x10fff⟩ /- MMU_KEY_HI -/,
   ⟨0x800, 0x8, 256, .rw, 0x0, 0xfffff001⟩ /- MMU_ASID_LO -/,
   ⟨0x804, 0x8, 256, .rw, 0x0, 0xffff⟩ /- MMU_ASID_HI -/]

/-- Registers of the HBM page. -/
def rowsHbm : List RegRow :=
  [⟨0x100, 0x4, 1, .ro, 0x0, 0x0⟩ /- HBM_STATE -/,
   ⟨0x104, 0x4, 1, .ro, 0x0, 0x0⟩ /- HBM_TEMP -/,
   ⟨0x108, 0x4, 1, .ro, 0xa, 0x0⟩ /- HBM_RATE -/,
   ⟨0x110, 0x4, 1, .ro, 0x0, 0x0⟩ /- HBM_PC_RETIRED_LO -/,
   ⟨0x114, 0x4, 1, .ro, 0x0, 0x0⟩ /- HBM_PC_RETIRED_HI -/,
   ⟨0x118, 0x4, 1, .ro, 0x0, 0x0⟩ /- HBM_PC_PENDING_LO -/,
   ⟨0x11c, 0x4, 1, .ro, 0x0, 0x0⟩ /- HBM_PC_PENDING_HI -/,
   ⟨0x120, 0x4, 1, .rw, 0xc01, 0xff01⟩ /- HBM_SCRUB_CFG -/,
   ⟨0x124, 0x4, 1, .ro, 0x0, 0x0⟩ /- HBM_SCRUB_PASS -/,
   ⟨0x128, 0x4, 1, .rc, 0x0, 0x0⟩ /- HBM_CORR_COUNT -/,
   ⟨0x12c, 0x4, 1, .rc, 0x0, 0x0⟩ /- HBM_UNCORR_COUNT -/,
   ⟨0x130, 0x4, 1, .ro, 0x0, 0x0⟩ /- HBM_LAST_ERR_LO -/,
   ⟨0x134, 0x4, 1, .ro, 0x0, 0x0⟩ /- HBM_LAST_ERR_HI -/,
   ⟨0x138, 0x4, 1, .ro, 0x0, 0x0⟩ /- HBM_PPR_QUEUED -/,
   ⟨0x13c, 0x4, 1, .ro, 0x0, 0x0⟩ /- HBM_PPR_LEFT -/,
   ⟨0x140, 0x4, 1, .ro, 0x0, 0x0⟩ /- HBM_ENC -/,
   ⟨0x144, 0x4, 1, .ro, 0x8000, 0x0⟩ /- HBM_REGION_CFG -/,
   ⟨0x148, 0x4, 1, .ro, 0x18000, 0x0⟩ /- HBM_REGION_SIZE -/,
   ⟨0x14c, 0x4, 1, .ro, 0x0, 0x0⟩ /- HBM_RPAGE_COUNT -/,
   ⟨0x200, 0x8, 64, .ro, 0x0, 0x0⟩ /- HBM_RPAGE_LO -/,
   ⟨0x204, 0x8, 64, .ro, 0x0, 0x0⟩ /- HBM_RPAGE_HI -/]

/-- Registers of the STG page. -/
def rowsStg : List RegRow :=
  [⟨0x100, 0x4, 1, .ro, 0x0, 0x0⟩ /- STG_BASE_LO -/,
   ⟨0x104, 0x4, 1, .ro, 0x0, 0x0⟩ /- STG_BASE_HI -/,
   ⟨0x108, 0x4, 1, .rw, 0x0, 0xf⟩ /- STG_BANK_SEL -/,
   ⟨0x10c, 0x4, 1, .ro, 0x0, 0x0⟩ /- STG_BANK_INFO -/,
   ⟨0x110, 0x4, 1, .rc, 0x0, 0x0⟩ /- STG_CORR_COUNT -/,
   ⟨0x114, 0x4, 1, .rc, 0x0, 0x0⟩ /- STG_UNCORR_COUNT -/,
   ⟨0x118, 0x4, 1, .rw, 0xa01, 0xff01⟩ /- STG_SCRUB_CFG -/,
   ⟨0x11c, 0x4, 1, .ro, 0x0, 0x0⟩ /- STG_SCRUB_PASS -/,
   ⟨0x120, 0x4, 1, .ro, 0x0, 0x0⟩ /- STG_LAST_ERR -/,
   ⟨0x124, 0x4, 1, .ro, 0x0, 0x0⟩ /- STG_SLICE_STATE -/]

/-- Registers of the BRG page. -/
def rowsBrg : List RegRow :=
  [⟨0x100, 0x4, 1, .ro, 0x0, 0x0⟩ /- BRG_STATE -/,
   ⟨0x104, 0x4, 1, .ro, 0xf, 0x0⟩ /- BRG_OWNER -/,
   ⟨0x108, 0x4, 1, .ro, 0x0, 0x0⟩ /- BRG_SPARE_USED -/,
   ⟨0x10c, 0x4, 1, .rc, 0x0, 0x0⟩ /- BRG_TX_BYTES -/,
   ⟨0x110, 0x4, 1, .rc, 0x0, 0x0⟩ /- BRG_RX_BYTES -/,
   ⟨0x114, 0x4, 1, .rc, 0x0, 0x0⟩ /- BRG_REPLAYS -/]

/-- Registers of the FAB page. -/
def rowsFab : List RegRow :=
  [⟨0x100, 0x4, 1, .ro, 0x0, 0x0⟩ /- FAB_STATE -/,
   ⟨0x104, 0x4, 1, .rw, 0x0, 0x7⟩ /- FAB_CFG -/,
   ⟨0x108, 0x4, 1, .wo, 0x0, 0x0⟩ /- FAB_CMD -/,
   ⟨0x10c, 0x4, 1, .ro, 0x0, 0x0⟩ /- FAB_LANES -/,
   ⟨0x110, 0x4, 1, .ro, 0x0, 0x0⟩ /- FAB_LANES_RETIRED -/,
   ⟨0x114, 0x4, 1, .ro, 0x0, 0x0⟩ /- FAB_LANES_TEMP -/,
   ⟨0x118, 0x4, 1, .ro, 0x0, 0x0⟩ /- FAB_PLANE -/,
   ⟨0x11c, 0x4, 1, .ro, 0x0, 0x0⟩ /- FAB_COORD -/,
   ⟨0x120, 0x4, 1, .rw, 0x0, 0x1ffff⟩ /- FAB_EXPECT -/,
   ⟨0x124, 0x4, 1, .rw, 0x1, 0x1⟩ /- FAB_VER_MASK -/,
   ⟨0x128, 0x4, 1, .ro, 0x0, 0x0⟩ /- FAB_PARTNER_ID_LO -/,
   ⟨0x12c, 0x4, 1, .ro, 0x0, 0x0⟩ /- FAB_PARTNER_ID_HI -/,
   ⟨0x130, 0x4, 1, .ro, 0x0, 0x0⟩ /- FAB_PARTNER_INFO -/,
   ⟨0x134, 0x4, 1, .ro, 0x0, 0x0⟩ /- FAB_PARTNER_FW -/,
   ⟨0x138, 0x4, 1, .rw, 0xa1808, 0xffffff⟩ /- FAB_THRESH -/,
   ⟨0x13c, 0x4, 1, .ro, 0x0, 0x0⟩ /- FAB_RTT -/,
   ⟨0x140, 0x4, 1, .rc, 0x0, 0x0⟩ /- FAB_REPLAYS -/,
   ⟨0x144, 0x4, 1, .rc, 0x0, 0x0⟩ /- FAB_FEC_UNCORR -/,
   ⟨0x148, 0x4, 1, .rc, 0x0, 0x0⟩ /- FAB_PAUSES -/,
   ⟨0x14c, 0x4, 1, .rc, 0x0, 0x0⟩ /- FAB_RETRAINS -/,
   ⟨0x150, 0x4, 1, .rc, 0x0, 0x0⟩ /- FAB_TX_FLITS -/,
   ⟨0x154, 0x4, 1, .rc, 0x0, 0x0⟩ /- FAB_RX_FLITS -/,
   ⟨0x200, 0x10, 17, .ro, 0x0, 0x0⟩ /- FAB_LANE_STATUS -/,
   ⟨0x204, 0x10, 17, .ro, 0x0, 0x0⟩ /- FAB_LANE_BER -/,
   ⟨0x208, 0x10, 17, .ro, 0x0, 0x0⟩ /- FAB_LANE_SNR -/]

/-- Registers of the OPT page. -/
def rowsOpt : List RegRow :=
  [⟨0x100, 0x4, 1, .ro, 0x0, 0x0⟩ /- OPT_STATE -/,
   ⟨0x104, 0x4, 1, .ro, 0x0, 0x0⟩ /- OPT_TEMP -/,
   ⟨0x108, 0x4, 1, .ro, 0x3210, 0x0⟩ /- OPT_LASER_MAP -/,
   ⟨0x10c, 0x4, 1, .rw, 0x0, 0x7⟩ /- OPT_LASER_SEL -/,
   ⟨0x110, 0x4, 1, .ro, 0x0, 0x0⟩ /- OPT_LASER_INFO -/,
   ⟨0x114, 0x4, 1, .rw, 0x0, 0x1f⟩ /- OPT_LANE_SEL -/,
   ⟨0x118, 0x4, 1, .ro, 0x0, 0x0⟩ /- OPT_LANE_POWER -/,
   ⟨0x11c, 0x4, 1, .rw, 0x18, 0xff⟩ /- OPT_REFL_PERIOD -/,
   ⟨0x120, 0x4, 1, .wo, 0x0, 0x0⟩ /- OPT_REFL_CMD -/,
   ⟨0x124, 0x4, 1, .ro, 0x0, 0x0⟩ /- OPT_REFL_STATUS -/,
   ⟨0x128, 0x4, 1, .rw, 0x0, 0x3f⟩ /- OPT_REFL_SEL -/,
   ⟨0x12c, 0x4, 1, .ro, 0x0, 0x0⟩ /- OPT_REFL_COUNT -/,
   ⟨0x130, 0x8, 8, .ro, 0x0, 0x0⟩ /- OPT_REFL_EV_LO -/,
   ⟨0x134, 0x8, 8, .ro, 0x0, 0x0⟩ /- OPT_REFL_EV_HI -/,
   ⟨0x170, 0x4, 1, .ro, 0x0, 0x0⟩ /- OPT_REFL_WORST0 -/,
   ⟨0x174, 0x4, 1, .ro, 0x0, 0x0⟩ /- OPT_REFL_WORST1 -/,
   ⟨0x178, 0x4, 1, .ro, 0x0, 0x0⟩ /- OPT_REFL_WORST2 -/]

/-- Registers of the COL page. -/
def rowsCol : List RegRow :=
  [⟨0x700, 0x4, 1, .rw, 0x0, 0xff⟩ /- COL_FB_SEL -/,
   ⟨0x704, 0x4, 1, .ro, 0x0, 0x0⟩ /- COL_FB_COUNTS -/,
   ⟨0x708, 0x4, 1, .ro, 0x0, 0x0⟩ /- COL_FB_PHASE -/,
   ⟨0x70c, 0x4, 1, .rw, 0x0, 0xffffffff⟩ /- COL_FB_TIMEOUT -/,
   ⟨0x800, 0x8, 256, .rw, 0x0, 0x1ffff⟩ /- COL_FB_CFG_LO -/,
   ⟨0x804, 0x8, 256, .rw, 0x0, 0xffffffff⟩ /- COL_FB_CFG_HI -/,
   ⟨0x100, 0x4, 1, .ro, 0x0, 0x0⟩ /- COL_PIPE_INFO -/,
   ⟨0x104, 0x4, 1, .rc, 0x0, 0x0⟩ /- COL_REDUCE_BYTES -/,
   ⟨0x108, 0x4, 1, .rc, 0x0, 0x0⟩ /- COL_MC_BYTES -/,
   ⟨0x10c, 0x4, 1, .rc, 0x0, 0x0⟩ /- COL_RX_PACKETS -/,
   ⟨0x110, 0x4, 1, .rc, 0x0, 0x0⟩ /- COL_DISCARDS -/,
   ⟨0x114, 0x4, 1, .rc, 0x0, 0x0⟩ /- COL_BUSY_SENT -/,
   ⟨0x200, 0x4, 1, .ro, 0x0, 0x0⟩ /- COL_EPOCH -/,
   ⟨0x204, 0x4, 1, .rw, 0x7d0, 0xffffffff⟩ /- COL_OP_TIMEOUT -/,
   ⟨0x208, 0x4, 1, .rw, 0x0, 0xffffffc0⟩ /- COL_ROLL_SRC_LO -/,
   ⟨0x20c, 0x4, 1, .rw, 0x0, 0xffff⟩ /- COL_ROLL_SRC_HI -/,
   ⟨0x210, 0x4, 1, .wo, 0x0, 0x0⟩ /- COL_ROLL_CMD -/,
   ⟨0x214, 0x4, 1, .ro, 0x0, 0x0⟩ /- COL_ROLL_STATUS -/,
   ⟨0x218, 0x4, 1, .ro, 0x0, 0x0⟩ /- COL_ROLL_SET_ID -/,
   ⟨0x21c, 0x4, 1, .ro, 0x0, 0x0⟩ /- COL_ENC_TX -/,
   ⟨0x220, 0x4, 1, .ro, 0x0, 0x0⟩ /- COL_NONCE_LO -/,
   ⟨0x224, 0x4, 1, .ro, 0x0, 0x0⟩ /- COL_NONCE_HI -/,
   ⟨0x230, 0x4, 1, .rw, 0x0, 0xffff⟩ /- COL_PEER_SEL -/,
   ⟨0x234, 0x4, 1, .ro, 0x0, 0x0⟩ /- COL_PEER_STATE -/,
   ⟨0x238, 0x4, 1, .ro, 0x0, 0x0⟩ /- COL_PEER_EPOCH -/,
   ⟨0x23c, 0x4, 1, .ro, 0x0, 0x0⟩ /- COL_PEER_NEW_EPOCH -/,
   ⟨0x240, 0x4, 1, .wo, 0x0, 0x0⟩ /- COL_PEER_CMD -/,
   ⟨0x244, 0x4, 1, .ro, 0x0, 0x0⟩ /- COL_PEER_COUNT -/,
   ⟨0x248, 0x4, 1, .ro, 0x0, 0x0⟩ /- COL_PEER_LAST -/,
   ⟨0x250, 0x4, 1, .rw, 0x0, 0x3f0f⟩ /- COL_MC_SEL -/,
   ⟨0x254, 0x4, 1, .rw, 0x0, 0x3f017f⟩ /- COL_MC_CFG -/,
   ⟨0x258, 0x4, 1, .rw, 0x0, 0xfffffff⟩ /- COL_MC_CHECK -/,
   ⟨0x25c, 0x4, 1, .rw, 0x0, 0x87ffffff⟩ /- COL_MC_MEMBER -/,
   ⟨0x260, 0x4, 1, .rw, 0x0, 0xffffffff⟩ /- COL_MC_KEY -/,
   ⟨0x600, 0x4, 64, .rw, 0x0, 0xf0f0f0f⟩ /- COL_FB_GROUP -/,
   ⟨0x300, 0x4, 1, .rw, 0x0, 0xfffff000⟩ /- COL_SET_SRC_LO -/,
   ⟨0x304, 0x4, 1, .rw, 0x0, 0xffffffff⟩ /- COL_SET_SRC_HI -/,
   ⟨0x308, 0x4, 1, .rw, 0x0, 0xfffff000⟩ /- COL_SET_DST_LO -/,
   ⟨0x30c, 0x4, 1, .rw, 0x0, 0xffff⟩ /- COL_SET_DST_HI -/,
   ⟨0x310, 0x4, 1, .wo, 0x0, 0x0⟩ /- COL_SET_CMD -/] ++
  [⟨0x314, 0x4, 1, .ro, 0x0, 0x0⟩ /- COL_SET_STATUS -/,
   ⟨0x318, 0x4, 1, .ro, 0x0, 0x0⟩ /- COL_SET_SIZE -/,
   ⟨0x31c, 0x4, 1, .ro, 0x0, 0x0⟩ /- COL_SET_JOB_TAG -/]

/-- The registers of a block type at 0x100 and above. -/
def blockRows : Block → List RegRow
  | .car => rowsCar
  | .dir => rowsDir
  | .pce => rowsPce
  | .pwr => rowsPwr
  | .thm => rowsThm
  | .sec => rowsSec
  | .dbg => rowsDbg
  | .bst => rowsBst
  | .hng => rowsHng
  | .dmp => rowsDmp
  | .til => rowsTil
  | .clu => rowsClu
  | .sq => rowsSq
  | .te => rowsTe
  | .ve => rowsVe
  | .xe => rowsXe
  | .syn => rowsSyn
  | .gng => rowsGng
  | .mmu => rowsMmu
  | .hbm => rowsHbm
  | .stg => rowsStg
  | .brg => rowsBrg
  | .fab => rowsFab
  | .opt => rowsOpt
  | .col => rowsCol

/-- Does a row hold the register at an offset? -/
def rowHas (r : RegRow) (off : Nat) : Bool :=
  decide (r.off ≤ off) && decide ((off - r.off) % r.stride = 0) && decide ((off - r.off) / r.stride < r.count)

/-- The row of a register, by block type and offset in the page. -/
def regRow (b : Block) (off : Nat) : Option RegRow :=
  (headerRows ++ blockRows b).find? (fun r => rowHas r off)

/-- An error code: the page it is recorded on, its ERR_STATUS bit, whether ERR_SEVERITY marks it uncorrected at
reset, and whether its chapter marks it with an event. -/
structure ErrCode where
  blk : Block
  bit : Nat
  unc : Bool
  event : Bool
deriving DecidableEq, Repr

/-- BRIDGE_DETOUR (R46). -/
def eBridgeDetour : ErrCode := ⟨.til, 0, false, true⟩
/-- BRIDGE_SPLIT (R46). -/
def eBridgeSplit : ErrCode := ⟨.til, 1, true, true⟩
/-- ISLAND_GRADIENT (R46). -/
def eIslandGradient : ErrCode := ⟨.til, 2, false, false⟩
/-- ISLAND_SUPPLY_SKEW (R46). -/
def eIslandSupplySkew : ErrCode := ⟨.til, 3, true, true⟩
/-- ISLAND_CLOCK_SKEW (R46). -/
def eIslandClockSkew : ErrCode := ⟨.til, 4, true, true⟩
/-- SQ_STEP_INVALID (R102). -/
def eSqStepInvalid : ErrCode := ⟨.sq, 0, true, false⟩
/-- SQ_SYNC_RANGE (R102). -/
def eSqSyncRange : ErrCode := ⟨.sq, 1, true, false⟩
/-- SQ_CMD_OVERLAP (R102). -/
def eSqCmdOverlap : ErrCode := ⟨.sq, 2, true, false⟩
/-- SAVE_FAULT (R102). -/
def eSaveFault : ErrCode := ⟨.sq, 3, true, false⟩
/-- SQ_BUFFER_ECC (R102). -/
def eSqBufferEcc : ErrCode := ⟨.sq, 4, true, false⟩
/-- TE_ACC_NOT_OWNED (R102). -/
def eTeAccNotOwned : ErrCode := ⟨.te, 0, true, false⟩
/-- TE_OPERAND_RANGE (R102). -/
def eTeOperandRange : ErrCode := ⟨.te, 1, true, false⟩
/-- TE_ACC_ECC_CORR (R102). -/
def eTeAccEccCorr : ErrCode := ⟨.te, 2, false, false⟩
/-- TE_ACC_ECC_UNCORR (R102). -/
def eTeAccEccUncorr : ErrCode := ⟨.te, 3, true, false⟩
/-- TE_OP_INVALID (R102). -/
def eTeOpInvalid : ErrCode := ⟨.te, 4, true, false⟩
/-- VE_OP_INVALID (R102). -/
def eVeOpInvalid : ErrCode := ⟨.ve, 0, true, false⟩
/-- VE_LM_RANGE (R102). -/
def eVeLmRange : ErrCode := ⟨.ve, 1, true, false⟩
/-- VE_LOOP_DEPTH (R102). -/
def eVeLoopDepth : ErrCode := ⟨.ve, 2, true, false⟩
/-- VE_REG_ECC_CORR (R102). -/
def eVeRegEccCorr : ErrCode := ⟨.ve, 3, false, false⟩
/-- VE_REG_ECC_UNCORR (R102). -/
def eVeRegEccUncorr : ErrCode := ⟨.ve, 4, true, false⟩
/-- VE_SYNC_RANGE (R102). -/
def eVeSyncRange : ErrCode := ⟨.ve, 5, true, false⟩
/-- XE_DESC_INVALID (R102). -/
def eXeDescInvalid : ErrCode := ⟨.xe, 0, true, false⟩
/-- XE_STREAM_OVERRUN (R102). -/
def eXeStreamOverrun : ErrCode := ⟨.xe, 1, true, false⟩
/-- XE_TRANSLATION_FAULT (R102). -/
def eXeTranslationFault : ErrCode := ⟨.xe, 2, true, false⟩
/-- XE_REMOTE_FAULT (R102). -/
def eXeRemoteFault : ErrCode := ⟨.xe, 3, true, false⟩
/-- XE_BUFFER_ECC (R102). -/
def eXeBufferEcc : ErrCode := ⟨.xe, 4, true, false⟩
/-- SYN_SATURATE (R198). -/
def eSynSaturate : ErrCode := ⟨.syn, 0, true, false⟩
/-- SYN_DOUBLE_SIGNAL (R198). -/
def eSynDoubleSignal : ErrCode := ⟨.syn, 1, true, false⟩
/-- SYN_MODE_MISMATCH (R198). -/
def eSynModeMismatch : ErrCode := ⟨.syn, 2, true, false⟩
/-- BARRIER_OVERRUN (R198). -/
def eBarrierOverrun : ErrCode := ⟨.syn, 3, true, false⟩
/-- SYN_ARRIVE_LIMIT (R198). -/
def eSynArriveLimit : ErrCode := ⟨.syn, 4, true, false⟩
/-- SYN_GONG_BIND (R198). -/
def eSynGongBind : ErrCode := ⟨.syn, 5, true, false⟩
/-- BARRIER_DISABLED (R198). -/
def eBarrierDisabled : ErrCode := ⟨.syn, 6, true, false⟩
/-- BARRIER_TIMEOUT (R198). -/
def eBarrierTimeout : ErrCode := ⟨.syn, 7, true, false⟩
/-- SYN_TALLY_FROZEN (R198). -/
def eSynTallyFrozen : ErrCode := ⟨.syn, 8, true, false⟩
/-- SYN_STATE_ECC_CORR (R198). -/
def eSynStateEccCorr : ErrCode := ⟨.syn, 9, false, false⟩
/-- SYN_STATE_ECC_UNCORR (R198). -/
def eSynStateEccUncorr : ErrCode := ⟨.syn, 10, true, false⟩
/-- GNG_CFG_BUSY (R198). -/
def eGngCfgBusy : ErrCode := ⟨.gng, 0, true, false⟩
/-- GNG_ARRIVE_DISABLED (R198). -/
def eGngArriveDisabled : ErrCode := ⟨.gng, 1, true, false⟩
/-- GNG_OVERRUN (R198). -/
def eGngOverrun : ErrCode := ⟨.gng, 2, true, false⟩
/-- GNG_STATE_ECC (R198). -/
def eGngStateEcc : ErrCode := ⟨.gng, 3, true, false⟩
/-- COL_FB_OVERRUN (R198). -/
def eColFbOverrun : ErrCode := ⟨.col, 24, true, false⟩
/-- COL_FB_TIMEOUT (R198). -/
def eColFbTimeout : ErrCode := ⟨.col, 25, true, false⟩
/-- HBM_CORR (R232). -/
def eHbmCorr : ErrCode := ⟨.hbm, 0, false, false⟩
/-- HBM_UNCORR (R232). -/
def eHbmUncorr : ErrCode := ⟨.hbm, 1, true, false⟩
/-- HBM_POISON_READ (R232). -/
def eHbmPoisonRead : ErrCode := ⟨.hbm, 2, true, false⟩
/-- HBM_ROW_FAILED (R232). -/
def eHbmRowFailed : ErrCode := ⟨.hbm, 3, true, false⟩
/-- HBM_PAGE_LIST_FULL (R232). -/
def eHbmPageListFull : ErrCode := ⟨.hbm, 4, true, false⟩
/-- HBM_PC_FAILED (R232). -/
def eHbmPcFailed : ErrCode := ⟨.hbm, 5, true, false⟩
/-- HBM_CA_PARITY (R232). -/
def eHbmCaParity : ErrCode := ⟨.hbm, 6, false, false⟩
/-- HBM_TRAIN_FAIL (R232). -/
def eHbmTrainFail : ErrCode := ⟨.hbm, 7, true, false⟩
/-- MEM_KEY_ABSENT (R232). -/
def eMemKeyAbsent : ErrCode := ⟨.hbm, 8, true, false⟩
/-- HBM_PPR_EXHAUSTED (R232). -/
def eHbmPprExhausted : ErrCode := ⟨.hbm, 9, true, false⟩
/-- STG_CORR (R232). -/
def eStgCorr : ErrCode := ⟨.stg, 0, false, false⟩
/-- STG_UNCORR (R232). -/
def eStgUncorr : ErrCode := ⟨.stg, 1, true, false⟩
/-- STG_POISON_READ (R232). -/
def eStgPoisonRead : ErrCode := ⟨.stg, 2, true, false⟩
/-- STG_ROW_SPARED (R232). -/
def eStgRowSpared : ErrCode := ⟨.stg, 3, true, false⟩
/-- STG_SLICE_FAILED (R232). -/
def eStgSliceFailed : ErrCode := ⟨.stg, 4, true, false⟩
/-- BRG_REPLAY (R232). -/
def eBrgReplay : ErrCode := ⟨.brg, 0, false, false⟩
/-- BRG_LANE_SPARED (R232). -/
def eBrgLaneSpared : ErrCode := ⟨.brg, 1, true, false⟩
/-- BRG_RETIRED (R232). -/
def eBrgRetired : ErrCode := ⟨.brg, 2, true, false⟩
/-- LM_ECC_CORR (R232). -/
def eLmEccCorr : ErrCode := ⟨.clu, 0, false, false⟩
/-- LM_ECC_UNCORR (R232). -/
def eLmEccUncorr : ErrCode := ⟨.clu, 1, true, false⟩
/-- MMU_WALK_POISON (R267). -/
def eMmuWalkPoison : ErrCode := ⟨.mmu, 0, true, false⟩
/-- MMU_TLB_PARITY (R267). -/
def eMmuTlbParity : ErrCode := ⟨.mmu, 1, false, false⟩
/-- MMU_INV_TIMEOUT (R267). -/
def eMmuInvTimeout : ErrCode := ⟨.mmu, 2, true, false⟩
/-- MMU_INV_OVERLAP (R267). -/
def eMmuInvOverlap : ErrCode := ⟨.mmu, 3, true, false⟩
/-- MMU_FQ_HELD (R267). -/
def eMmuFqHeld : ErrCode := ⟨.mmu, 4, true, false⟩
/-- MMU_DEST_FAULT (R267). -/
def eMmuDestFault : ErrCode := ⟨.mmu, 5, true, false⟩
/-- MMU_KEY_FAULT (R267). -/
def eMmuKeyFault : ErrCode := ⟨.mmu, 6, true, false⟩
/-- MMU_BOUNDS (R267). -/
def eMmuBounds : ErrCode := ⟨.mmu, 7, true, false⟩
/-- ACCESS_DENIED (R292). -/
def eAccessDenied : ErrCode := ⟨.pce, 0, true, false⟩
/-- ACCESS_SIZE (R292). -/
def eAccessSize : ErrCode := ⟨.pce, 1, true, false⟩
/-- INT_ROUTE_BAD (R292). -/
def eIntRouteBad : ErrCode := ⟨.pce, 2, true, false⟩
/-- BAR2_UNPOPULATED (R292). -/
def eBar2Unpopulated : ErrCode := ⟨.pce, 3, true, false⟩
/-- PCE_POISON_CPL (R292). -/
def ePcePoisonCpl : ErrCode := ⟨.pce, 4, true, false⟩
/-- PCE_WIDTH_DEGRADED (R292). -/
def ePceWidthDegraded : ErrCode := ⟨.pce, 5, false, true⟩
/-- PCE_LINK_FAILED (R292). -/
def ePceLinkFailed : ErrCode := ⟨.pce, 6, true, false⟩
/-- PCE_LINK_DOWN (R292). -/
def ePceLinkDown : ErrCode := ⟨.pce, 7, true, true⟩
/-- PCE_RESET_INVALID (R292). -/
def ePceResetInvalid : ErrCode := ⟨.pce, 8, false, false⟩
/-- SR_DOORBELL_BAD (R292). -/
def eSrDoorbellBad : ErrCode := ⟨.clu, 2, true, false⟩
/-- Q_DMA_ERROR (R292). -/
def eQDmaError : ErrCode := ⟨.clu, 3, true, false⟩
/-- FAB_REPLAY (R330). -/
def eFabReplay : ErrCode := ⟨.fab, 0, false, false⟩
/-- FAB_LANE_MARGINAL (R330). -/
def eFabLaneMarginal : ErrCode := ⟨.fab, 1, false, true⟩
/-- FAB_LANE_RETIRED (R330). -/
def eFabLaneRetired : ErrCode := ⟨.fab, 2, false, true⟩
/-- FAB_PORT_DEGRADED (R330). -/
def eFabPortDegraded : ErrCode := ⟨.fab, 3, true, true⟩
/-- FAB_PORT_RETIRED (R330). -/
def eFabPortRetired : ErrCode := ⟨.fab, 4, true, true⟩
/-- FAB_LINK_DOWN (R330). -/
def eFabLinkDown : ErrCode := ⟨.fab, 5, true, false⟩
/-- FAB_RETRAIN (R330). -/
def eFabRetrain : ErrCode := ⟨.fab, 6, false, false⟩
/-- FAB_QUARANTINE (R330). -/
def eFabQuarantine : ErrCode := ⟨.fab, 7, true, true⟩
/-- FAB_PLANE_REMAP (R330). -/
def eFabPlaneRemap : ErrCode := ⟨.fab, 8, false, true⟩
/-- FAB_VERSION_NONE (R330). -/
def eFabVersionNone : ErrCode := ⟨.fab, 9, true, false⟩
/-- FAB_TRAIN_FAIL (R330). -/
def eFabTrainFail : ErrCode := ⟨.fab, 10, false, false⟩
/-- FAB_REPLAY_ECC (R330). -/
def eFabReplayEcc : ErrCode := ⟨.fab, 11, true, false⟩
/-- OPT_LASER_WARN (R330). -/
def eOptLaserWarn : ErrCode := ⟨.opt, 0, false, false⟩
/-- OPT_LASER_SPARED (R330). -/
def eOptLaserSpared : ErrCode := ⟨.opt, 1, false, true⟩
/-- OPT_LASER_FAILED (R330). -/
def eOptLaserFailed : ErrCode := ⟨.opt, 2, true, true⟩
/-- OPT_HOT (R330). -/
def eOptHot : ErrCode := ⟨.opt, 3, false, true⟩
/-- OPT_OVERTEMP (R330). -/
def eOptOvertemp : ErrCode := ⟨.opt, 4, true, true⟩
/-- OPT_CONNECTOR (R330). -/
def eOptConnector : ErrCode := ⟨.opt, 5, false, true⟩
/-- OPT_PROBE_FAIL (R330). -/
def eOptProbeFail : ErrCode := ⟨.opt, 6, true, true⟩
/-- COL_PEER_RESET (R365). -/
def eColPeerReset : ErrCode := ⟨.col, 0, true, false⟩
/-- COL_PEER_LOST (R365). -/
def eColPeerLost : ErrCode := ⟨.col, 1, true, false⟩
/-- COL_STALE_EPOCH (R365). -/
def eColStaleEpoch : ErrCode := ⟨.col, 2, false, false⟩
/-- COL_HDR_INVALID (R365). -/
def eColHdrInvalid : ErrCode := ⟨.col, 3, true, false⟩
/-- COL_BAD_REQUEST (R365). -/
def eColBadRequest : ErrCode := ⟨.col, 4, true, false⟩
/-- COL_AUTH_FAIL (R365). -/
def eColAuthFail : ErrCode := ⟨.col, 5, true, false⟩
/-- COL_NO_KEY (R365). -/
def eColNoKey : ErrCode := ⟨.col, 6, true, false⟩
/-- COL_VARIANT_SWAP (R365). -/
def eColVariantSwap : ErrCode := ⟨.col, 7, false, false⟩
/-- COL_NO_PATH (R365). -/
def eColNoPath : ErrCode := ⟨.col, 8, true, false⟩
/-- COL_ROLL_LOAD_FAIL (R365). -/
def eColRollLoadFail : ErrCode := ⟨.col, 9, true, false⟩
/-- COL_MC_MEMBER_FAIL (R365). -/
def eColMcMemberFail : ErrCode := ⟨.col, 10, true, false⟩
/-- COL_UNREACHABLE (R365). -/
def eColUnreachable : ErrCode := ⟨.col, 11, false, false⟩
/-- COL_FB_STRAY (R365). -/
def eColFbStray : ErrCode := ⟨.col, 12, true, false⟩
/-- COL_NONCE_EXHAUSTED (R365). -/
def eColNonceExhausted : ErrCode := ⟨.col, 13, true, false⟩
/-- XE_PEER_GONE (R366). -/
def eXePeerGone : ErrCode := ⟨.xe, 5, true, false⟩
/-- XE_PEER_RESET (R366). -/
def eXePeerReset : ErrCode := ⟨.xe, 6, true, false⟩
/-- XE_PEER_LOST (R366). -/
def eXePeerLost : ErrCode := ⟨.xe, 7, true, false⟩
/-- XE_REMOTE_POISON (R366). -/
def eXeRemotePoison : ErrCode := ⟨.xe, 8, true, false⟩
/-- XE_NO_PATH (R366). -/
def eXeNoPath : ErrCode := ⟨.xe, 9, true, false⟩
/-- XE_REMOTE_REFUSED (R366). -/
def eXeRemoteRefused : ErrCode := ⟨.xe, 10, true, false⟩
/-- BIST_TRANSIENT (R402). -/
def eBistTransient : ErrCode := ⟨.bst, 0, false, false⟩
/-- BIST_PERMANENT (R402). -/
def eBistPermanent : ErrCode := ⟨.bst, 1, true, true⟩
/-- BIST_SHADOW_ECC (R402). -/
def eBistShadowEcc : ErrCode := ⟨.bst, 2, true, false⟩
/-- BOOT_STAGE_FAIL (R402). -/
def eBootStageFail : ErrCode := ⟨.bst, 3, true, true⟩
/-- FUSE_INTEGRITY (R402). -/
def eFuseIntegrity : ErrCode := ⟨.bst, 4, true, true⟩
/-- DIRECT_REFUSED (R402). -/
def eDirectRefused : ErrCode := ⟨.bst, 5, true, false⟩
/-- SCAN_REFUSED (R402). -/
def eScanRefused : ErrCode := ⟨.bst, 6, true, false⟩
/-- PEAL_STORE_FAIL (R402). -/
def ePealStoreFail : ErrCode := ⟨.bst, 7, true, true⟩
/-- FIELD_RECORD_LOST (R402). -/
def eFieldRecordLost : ErrCode := ⟨.bst, 8, true, true⟩
/-- CORE_RETIRED (R402). -/
def eCoreRetired : ErrCode := ⟨.clu, 4, true, true⟩
/-- CLUSTER_DEGRADED (R402). -/
def eClusterDegraded : ErrCode := ⟨.clu, 5, true, true⟩
/-- PEAL_FETCH (R402). -/
def ePealFetch : ErrCode := ⟨.clu, 6, false, false⟩
/-- CORE_BIST_TRANSIENT (R402). -/
def eCoreBistTransient : ErrCode := ⟨.clu, 7, false, false⟩
/-- CLUSTER_RETIRED (R402). -/
def eClusterRetired : ErrCode := ⟨.clu, 8, true, true⟩
/-- COL_SET_FAIL (R402). -/
def eColSetFail : ErrCode := ⟨.col, 14, true, false⟩
/-- FW_SLOT_FAILED (R419). -/
def eFwSlotFailed : ErrCode := ⟨.car, 16, true, true⟩
/-- FW_TRIAL_REVERTED (R419). -/
def eFwTrialReverted : ErrCode := ⟨.car, 17, true, true⟩
/-- FW_STAGE_ABORTED (R419). -/
def eFwStageAborted : ErrCode := ⟨.car, 18, true, true⟩
/-- FW_FUSE_WRITE (R419). -/
def eFwFuseWrite : ErrCode := ⟨.car, 19, true, true⟩
/-- FW_BUFFER_ECC (R419). -/
def eFwBufferEcc : ErrCode := ⟨.car, 20, true, true⟩
/-- FW_RECOVERY (R419). -/
def eFwRecovery : ErrCode := ⟨.car, 21, true, true⟩
/-- FW_BOOT_RECORD (R419). -/
def eFwBootRecord : ErrCode := ⟨.car, 22, false, true⟩
/-- SEC_ALARM_NOTE (R454). -/
def eSecAlarmNote : ErrCode := ⟨.sec, 0, false, true⟩
/-- SEC_ALARM_FREEZE (R454). -/
def eSecAlarmFreeze : ErrCode := ⟨.sec, 1, true, true⟩
/-- SEC_ALARM_ERASE (R454). -/
def eSecAlarmErase : ErrCode := ⟨.sec, 2, true, true⟩
/-- SEC_LC_FAIL (R454). -/
def eSecLcFail : ErrCode := ⟨.sec, 3, true, true⟩
/-- SEC_TRNG_FAIL (R454). -/
def eSecTrngFail : ErrCode := ⟨.sec, 4, true, true⟩
/-- SEC_KEY_REFUSED (R454). -/
def eSecKeyRefused : ErrCode := ⟨.sec, 5, true, true⟩
/-- DBG_GRANTED (R454). -/
def eDbgGranted : ErrCode := ⟨.dbg, 0, false, true⟩
/-- DBG_TOKEN_BAD (R454). -/
def eDbgTokenBad : ErrCode := ⟨.dbg, 1, true, true⟩
/-- DBG_MISUSE (R454). -/
def eDbgMisuse : ErrCode := ⟨.dbg, 2, true, true⟩
/-- DBG_JTAG_DENIED (R454). -/
def eDbgJtagDenied : ErrCode := ⟨.dbg, 3, true, true⟩
/-- HANG_DETECTED (R488). -/
def eHangDetected : ErrCode := ⟨.hng, 0, true, false⟩
/-- SAVE_TIMEOUT (R488). -/
def eSaveTimeout : ErrCode := ⟨.hng, 1, true, false⟩
/-- CTX_RESET_TIMEOUT (R488). -/
def eCtxResetTimeout : ErrCode := ⟨.hng, 2, true, false⟩
/-- ENG_RESET_TIMEOUT (R488). -/
def eEngResetTimeout : ErrCode := ⟨.hng, 3, true, true⟩
/-- PART_RESET_TIMEOUT (R488). -/
def ePartResetTimeout : ErrCode := ⟨.hng, 4, true, true⟩
/-- RECOVERY_ESCALATED (R488). -/
def eRecoveryEscalated : ErrCode := ⟨.hng, 5, true, true⟩
/-- SPLIT_REFUSED (R488). -/
def eSplitRefused : ErrCode := ⟨.hng, 6, true, false⟩
/-- POWER_CYCLE_REQ (R488). -/
def ePowerCycleReq : ErrCode := ⟨.hng, 7, true, true⟩
/-- DMP_TAKEN (R488). -/
def eDmpTaken : ErrCode := ⟨.dmp, 0, false, true⟩
/-- DMP_SKIPPED (R488). -/
def eDmpSkipped : ErrCode := ⟨.dmp, 1, false, false⟩
/-- DMP_TRUNCATED (R488). -/
def eDmpTruncated : ErrCode := ⟨.dmp, 2, true, false⟩
/-- DMP_UNREADABLE (R488). -/
def eDmpUnreadable : ErrCode := ⟨.dmp, 3, false, false⟩
/-- PWR_VIN_DIP (R513). -/
def ePwrVinDip : ErrCode := ⟨.pwr, 0, false, false⟩
/-- PWR_POWER_FAIL (R513). -/
def ePwrPowerFail : ErrCode := ⟨.pwr, 1, true, true⟩
/-- PWR_VIN_OV (R513). -/
def ePwrVinOv : ErrCode := ⟨.pwr, 2, true, true⟩
/-- PWR_VAUX_LOST (R513). -/
def ePwrVauxLost : ErrCode := ⟨.pwr, 3, true, true⟩
/-- PWR_BRAKE (R513). -/
def ePwrBrake : ErrCode := ⟨.pwr, 4, false, false⟩
/-- PWR_BUDGET_CAP (R513). -/
def ePwrBudgetCap : ErrCode := ⟨.pwr, 5, false, false⟩
/-- PWR_FAST_LOOP (R513). -/
def ePwrFastLoop : ErrCode := ⟨.pwr, 6, false, false⟩
/-- PWR_STATE_FAIL (R513). -/
def ePwrStateFail : ErrCode := ⟨.pwr, 7, true, false⟩
/-- SENSOR_SKEW (R513). -/
def eSensorSkew : ErrCode := ⟨.thm, 0, false, false⟩
/-- THM_SENSOR_DEGRADED (R513). -/
def eThmSensorDegraded : ErrCode := ⟨.thm, 1, true, true⟩
/-- THM_SENSOR_FAILED (R513). -/
def eThmSensorFailed : ErrCode := ⟨.thm, 2, true, true⟩
/-- THM_STEP (R513). -/
def eThmStep : ErrCode := ⟨.thm, 3, false, false⟩
/-- THM_HARD_LIMIT (R513). -/
def eThmHardLimit : ErrCode := ⟨.thm, 4, true, true⟩
/-- THM_HBM_THROTTLE (R513). -/
def eThmHbmThrottle : ErrCode := ⟨.thm, 5, false, false⟩
/-- THM_TRIP (R513). -/
def eThmTrip : ErrCode := ⟨.thm, 6, true, true⟩
/-- THM_COOLING_DEGRADED (R513). -/
def eThmCoolingDegraded : ErrCode := ⟨.thm, 7, true, true⟩
/-- THM_CONVERTER_HOT (R513). -/
def eThmConverterHot : ErrCode := ⟨.thm, 8, true, true⟩
/-- CAR_FAILOVER (R532). -/
def eCarFailover : ErrCode := ⟨.car, 0, true, true⟩
/-- CAR_PATH_FAULT (R532). -/
def eCarPathFault : ErrCode := ⟨.car, 1, false, true⟩
/-- CAR_STANDBY_LOST (R532). -/
def eCarStandbyLost : ErrCode := ⟨.car, 2, true, true⟩
/-- CAR_TAKEBACK (R532). -/
def eCarTakeback : ErrCode := ⟨.car, 3, false, true⟩
/-- CAR_CONTROLLER_FAILED (R532). -/
def eCarControllerFailed : ErrCode := ⟨.car, 4, true, true⟩
/-- CAR_BOTH_DOWN (R532). -/
def eCarBothDown : ErrCode := ⟨.car, 5, true, true⟩
/-- CAR_EVQ_OVERFLOW (R532). -/
def eCarEvqOverflow : ErrCode := ⟨.car, 6, false, true⟩
/-- CAR_CONFIG_INVALID (R532). -/
def eCarConfigInvalid : ErrCode := ⟨.car, 7, true, true⟩

/-- Error codes of the CAR page, bits 0 to 29. -/
def errsCar : List ErrCode := [eFwSlotFailed, eFwTrialReverted, eFwStageAborted, eFwFuseWrite, eFwBufferEcc, eFwRecovery, eFwBootRecord, eCarFailover, eCarPathFault, eCarStandbyLost, eCarTakeback, eCarControllerFailed, eCarBothDown, eCarEvqOverflow, eCarConfigInvalid]
/-- Error codes of the DIR page, bits 0 to 29. -/
def errsDir : List ErrCode := []
/-- Error codes of the PCE page, bits 0 to 29. -/
def errsPce : List ErrCode := [eAccessDenied, eAccessSize, eIntRouteBad, eBar2Unpopulated, ePcePoisonCpl, ePceWidthDegraded, ePceLinkFailed, ePceLinkDown, ePceResetInvalid]
/-- Error codes of the PWR page, bits 0 to 29. -/
def errsPwr : List ErrCode := [ePwrVinDip, ePwrPowerFail, ePwrVinOv, ePwrVauxLost, ePwrBrake, ePwrBudgetCap, ePwrFastLoop, ePwrStateFail]
/-- Error codes of the THM page, bits 0 to 29. -/
def errsThm : List ErrCode := [eSensorSkew, eThmSensorDegraded, eThmSensorFailed, eThmStep, eThmHardLimit, eThmHbmThrottle, eThmTrip, eThmCoolingDegraded, eThmConverterHot]
/-- Error codes of the SEC page, bits 0 to 29. -/
def errsSec : List ErrCode := [eSecAlarmNote, eSecAlarmFreeze, eSecAlarmErase, eSecLcFail, eSecTrngFail, eSecKeyRefused]
/-- Error codes of the DBG page, bits 0 to 29. -/
def errsDbg : List ErrCode := [eDbgGranted, eDbgTokenBad, eDbgMisuse, eDbgJtagDenied]
/-- Error codes of the BST page, bits 0 to 29. -/
def errsBst : List ErrCode := [eBistTransient, eBistPermanent, eBistShadowEcc, eBootStageFail, eFuseIntegrity, eDirectRefused, eScanRefused, ePealStoreFail, eFieldRecordLost]
/-- Error codes of the HNG page, bits 0 to 29. -/
def errsHng : List ErrCode := [eHangDetected, eSaveTimeout, eCtxResetTimeout, eEngResetTimeout, ePartResetTimeout, eRecoveryEscalated, eSplitRefused, ePowerCycleReq]
/-- Error codes of the DMP page, bits 0 to 29. -/
def errsDmp : List ErrCode := [eDmpTaken, eDmpSkipped, eDmpTruncated, eDmpUnreadable]
/-- Error codes of the TIL page, bits 0 to 29. -/
def errsTil : List ErrCode := [eBridgeDetour, eBridgeSplit, eIslandGradient, eIslandSupplySkew, eIslandClockSkew]
/-- Error codes of the CLU page, bits 0 to 29. -/
def errsClu : List ErrCode := [eLmEccCorr, eLmEccUncorr, eSrDoorbellBad, eQDmaError, eCoreRetired, eClusterDegraded, ePealFetch, eCoreBistTransient, eClusterRetired]
/-- Error codes of the SQ page, bits 0 to 29. -/
def errsSq : List ErrCode := [eSqStepInvalid, eSqSyncRange, eSqCmdOverlap, eSaveFault, eSqBufferEcc]
/-- Error codes of the TE page, bits 0 to 29. -/
def errsTe : List ErrCode := [eTeAccNotOwned, eTeOperandRange, eTeAccEccCorr, eTeAccEccUncorr, eTeOpInvalid]
/-- Error codes of the VE page, bits 0 to 29. -/
def errsVe : List ErrCode := [eVeOpInvalid, eVeLmRange, eVeLoopDepth, eVeRegEccCorr, eVeRegEccUncorr, eVeSyncRange]
/-- Error codes of the XE page, bits 0 to 29. -/
def errsXe : List ErrCode := [eXeDescInvalid, eXeStreamOverrun, eXeTranslationFault, eXeRemoteFault, eXeBufferEcc, eXePeerGone, eXePeerReset, eXePeerLost, eXeRemotePoison, eXeNoPath, eXeRemoteRefused]
/-- Error codes of the SYN page, bits 0 to 29. -/
def errsSyn : List ErrCode := [eSynSaturate, eSynDoubleSignal, eSynModeMismatch, eBarrierOverrun, eSynArriveLimit, eSynGongBind, eBarrierDisabled, eBarrierTimeout, eSynTallyFrozen, eSynStateEccCorr, eSynStateEccUncorr]
/-- Error codes of the GNG page, bits 0 to 29. -/
def errsGng : List ErrCode := [eGngCfgBusy, eGngArriveDisabled, eGngOverrun, eGngStateEcc]
/-- Error codes of the MMU page, bits 0 to 29. -/
def errsMmu : List ErrCode := [eMmuWalkPoison, eMmuTlbParity, eMmuInvTimeout, eMmuInvOverlap, eMmuFqHeld, eMmuDestFault, eMmuKeyFault, eMmuBounds]
/-- Error codes of the HBM page, bits 0 to 29. -/
def errsHbm : List ErrCode := [eHbmCorr, eHbmUncorr, eHbmPoisonRead, eHbmRowFailed, eHbmPageListFull, eHbmPcFailed, eHbmCaParity, eHbmTrainFail, eMemKeyAbsent, eHbmPprExhausted]
/-- Error codes of the STG page, bits 0 to 29. -/
def errsStg : List ErrCode := [eStgCorr, eStgUncorr, eStgPoisonRead, eStgRowSpared, eStgSliceFailed]
/-- Error codes of the BRG page, bits 0 to 29. -/
def errsBrg : List ErrCode := [eBrgReplay, eBrgLaneSpared, eBrgRetired]
/-- Error codes of the FAB page, bits 0 to 29. -/
def errsFab : List ErrCode := [eFabReplay, eFabLaneMarginal, eFabLaneRetired, eFabPortDegraded, eFabPortRetired, eFabLinkDown, eFabRetrain, eFabQuarantine, eFabPlaneRemap, eFabVersionNone, eFabTrainFail, eFabReplayEcc]
/-- Error codes of the OPT page, bits 0 to 29. -/
def errsOpt : List ErrCode := [eOptLaserWarn, eOptLaserSpared, eOptLaserFailed, eOptHot, eOptOvertemp, eOptConnector, eOptProbeFail]
/-- Error codes of the COL page, bits 0 to 29. -/
def errsCol : List ErrCode := [eColFbOverrun, eColFbTimeout, eColPeerReset, eColPeerLost, eColStaleEpoch, eColHdrInvalid, eColBadRequest, eColAuthFail, eColNoKey, eColVariantSwap, eColNoPath, eColRollLoadFail, eColMcMemberFail, eColUnreachable, eColFbStray, eColNonceExhausted, eColSetFail]

/-- Error codes of a page, bits 0 to 29. -/
def blockErrs : Block → List ErrCode
  | .car => errsCar
  | .dir => errsDir
  | .pce => errsPce
  | .pwr => errsPwr
  | .thm => errsThm
  | .sec => errsSec
  | .dbg => errsDbg
  | .bst => errsBst
  | .hng => errsHng
  | .dmp => errsDmp
  | .til => errsTil
  | .clu => errsClu
  | .sq => errsSq
  | .te => errsTe
  | .ve => errsVe
  | .xe => errsXe
  | .syn => errsSyn
  | .gng => errsGng
  | .mmu => errsMmu
  | .hbm => errsHbm
  | .stg => errsStg
  | .brg => errsBrg
  | .fab => errsFab
  | .opt => errsOpt
  | .col => errsCol

/-- CAPS1: every bit from 0 to 29 to which the manual assigns a code on the page (R66). -/
def blockCaps1 (b : Block) : Word := wd (maskOf ((blockErrs b).map (·.bit)))

/-- Reset value of ERR_SEVERITY: a 1 for every uncorrected code; bits 30 and 31 are 0 (R69). -/
def blockSeverity (b : Block) : Word := wd (maskOf (((blockErrs b).filter (·.unc)).map (·.bit)))

/-- Does the chapter of a code mark it with an event? -/
def codeEvent (b : Block) (bitNo : Nat) : Bool := ((blockErrs b).find? (fun e => e.bit = bitNo)).elim false (·.event)

/-- The number a register holds after reset: the ID (R51), ERR_SEVERITY (R69) and the header and block rows. -/
def regReset (b : Block) (i off : Nat) : Word :=
  if off = 0 then wd (blockCode b * 65536 + i)
  else if off = 4 then 0x00010000
  else if off = 8 then
    if b = .gng && i = 0 then 0x00400100 else if b = .gng then 0x100 else if b = .pwr then 0x00101928 else wd (blockCaps0 b)
  else if off = 0xC then blockCaps1 b
  else if off = 0x28 then blockSeverity b
  else ((regRow b off).elim 0 (·.reset))

end Sys2Proof.Machine
end

