-- ==== Sys2Proof/Machine/State.lean ====
section
/-!
DEFINITION. The state of the package as plain data. A stored register lives in `regs` under its BAR0 address; a
register that only shows state held elsewhere is computed where it is read. Maps list only what differs from the
unit's value at reset.
-/
namespace Sys2Proof.Machine

/-- A fault of the model. The spec gives every command an effect, so no meaning raises one. -/
inductive Fault where
  /-- Raised by no meaning: no command of the table stops the package. Safe. -/
  | stopped
deriving DecidableEq, Repr

/-- A refusal of the model. -/
inductive Refusal where
  /-- The arm of a command that has no meaning yet raises this. Safe: nothing is claimed of the command. -/
  | notModelled (mnemonic : String)
deriving DecidableEq, Repr

/-! ### Core state (chapters 03, 05, 06, 08) -/

/-- Slot states (R79, R100). -/
inductive SlotState where
  | free | active | waiting | faulted | preempting | halted
deriving DecidableEq, Repr

/-- A loop-stack entry of the Sequencer (R148). -/
structure LoopEnt where
  start : Nat
  count : Nat
  iter : Nat
  exit : Nat
deriving DecidableEq, Repr

/-- A step in flight: its record, resolved variant, issue number, what is not complete (R150, R151, R166). -/
structure InFlight where
  step : Nat := 0
  order : Nat := 0
  variant : Nat := 0
  iter0 : Nat := 0
  record : List Byte := []
  teLeft : Nat := 0
  veLeft : Nat := 0
  xeLeft : Nat := 0
  chainMask : Nat := 0
  charge : Nat := 0
  /-- The first record of its TE part that is not in the slot's queue yet, and how many are not (R70, R150). -/
  teNext : Nat := 0
  teWait : Nat := 0
  /-- Its place in the order of completion, from 1; 0 while a part is not complete (R151). -/
  doneNo : Nat := 0
deriving DecidableEq, Repr

/-- Why a context is being ended by a context reset: CAUSE and ERR of R460, the outcome for SQ_SLOT_EXIT, and whether the
reset names the group. -/
structure EndInfo where
  cause : Nat
  err : Nat
  outcome : Nat
  group : Bool := false
  /-- When the reset was accepted (R462, R470). -/
  us : Nat := 0
deriving DecidableEq, Repr

/-- The signal program of a completed step that waits for a bind read (R184): the operation held and those after. -/
structure BindHold where
  ops : List (List Byte)
deriving DecidableEq, Repr

/-- A context slot (R74 to R84, R148, R455). -/
structure Slot where
  st : SlotState := .free
  prior : SlotState := .active
  haltPending : Bool := false
  gen : Nat := 1
  ctag : Word := 0xFFFFFFFF
  outcome : Nat := 0
  part : Nat := 0
  ending : Option EndInfo := none
  strands : List Nat := []
  banks : List Nat := []
  blocks : List Nat := []
  streams : List Nat := []
  /-- Rudiment VA of the task (R75; from the save header at restore, R144). -/
  rud : Nat := 0
  restored : Bool := false
  loaded : Bool := false
  hdr : List Byte := []
  secs : List (Nat × Nat × Nat × Nat) := []
  pos : Nat := 0
  reentry : Bool := false
  loops : List LoopEnt := []
  issued : Nat := 0
  inflight : List InFlight := []
  beatSq : Nat := 0
  beatTe : Nat := 0
  beatVe : Nat := 0
  beatXe : Nat := 0
  wbc : Nat := 0
  buf : List (Nat × List Byte) := []
  granted : Bool := false
  grantAsked : Bool := false
  /-- A STEP is being performed; the step that it has issued (R79). -/
  stepOnce : Bool := false
  stepOrd : Option Nat := none
  bind : Option BindHold := none
  idleUs : Nat := 0
  hangW : Nat := 50000
  hangRaised : Bool := false
  preemptUs : Nat := 0
  saving : Bool := false
  restoring : Bool := false
  budgetCapped : Bool := false
  chargeAsked : Nat := 0
  notify : Option (Nat × Nat) := none
deriving DecidableEq, Repr

/-- A slot at chip reset: FREE, generation 1 (R74), no task. -/
def Slot.init : Slot := {}

/-- A launch of a strand that waits for the strand's EXIT (R150). -/
structure Launch where
  order : Nat
  idx : Nat
  entry : Nat
  variant : Nat
  iter : Nat
deriving DecidableEq, Repr

/-- Run state of a strand: idle, running, or waiting on a sync object with PEEK and VALUE (R175). -/
inductive StrandRun where
  | idle
  | run
  | wait (obj : Nat) (peek : Bool) (value : Nat)
  | stopped
deriving DecidableEq, Repr

/-- A loop of a strand (R92): first and last instruction index of the body and the iterations left. -/
structure VLoop where
  first : Nat
  last : Nat
  left : Nat
deriving DecidableEq, Repr

/-- A physical strand (R88): V registers by 32 × register + lane, S and P registers, PC, loop stack, and the SR
counter of stochastic rounding (R114). -/
structure Strand where
  v : NMap Word := []
  sreg : NMap Word := []
  preg : NMap Word := []
  pc : Nat := 0
  entry : Nat := 0
  loops : List VLoop := []
  run : StrandRun := .idle
  order : Nat := 0
  launches : List Launch := []
  src : Nat := 0
deriving DecidableEq, Repr

/-- The Strand at reset. -/
def Strand.init : Strand := {}

/-- A sync object's state word by its fields (R168). -/
structure SyncObj where
  value : Nat := 0
  event : Bool := false
  doubleFault : Bool := false
  double : Bool := false
  dropped : Bool := false
  pend : Nat := 0
  gphase : Nat := 0
  gkind : Bool := false
  bound : Bool := false
  gbar : Nat := 0
deriving DecidableEq, Repr

/-- The SyncObj at reset. -/
def SyncObj.init : SyncObj := {}

/-- A read-tracker entry (R94, R245): an access of a stream issued and not yet written. -/
structure ReadEnt where
  src : Nat
  dst : Nat
  /-- Source and destination are local memory, and not reached through the core port. -/
  srcLocal : Bool
  dstLocal : Bool
  len : Nat
  off : Nat
  /-- The VA ranges that the access translated: first byte and length (R242). -/
  vas : List (Nat × Nat)
deriving DecidableEq, Repr

/-- A fabric packet sent and not yet answered (R338, R353 to R355). -/
structure OutPkt where
  fseq : Nat := 0
  off : Nat := 0
  len : Nat := 0
  firstUs : Nat := 0
  /-- Where the answer of a GET or ATOMIC is written: translated before the packet was sent (R245). -/
  dst : List (Nat × Nat) := []
  retry : Bool := false
  tallyOnly : Bool := false
  /-- Planes that answered UNREACHABLE for the packet (R355). -/
  unreach : Nat := 0
  /-- Waiting to be sent again after BUSY or UNREACHABLE. -/
  resend : Bool := false
  /-- Held for want of a path (R346). -/
  held : Bool := false
  resends : Nat := 0
deriving DecidableEq, Repr

/-- A descriptor that has started on a stream and is not complete (R94). -/
structure ActDesc where
  idx : Nat := 0
  record : List Byte := []
  issued : Nat := 0
  done : Nat := 0
  reads : List ReadEnt := []
  pkts : List OutPkt := []
  opid : Nat := 0
  acked : Nat := 0
  nacked : Bool := false
  retry : Bool := false
  tallySent : Bool := false
  table : Option (List Byte) := none
  tabIdx : Nat := 0
  code : Nat := 0
  /-- The lowest offset whose GET data could not be written for a local fault (R256). -/
  lost : Option Nat := none
deriving DecidableEq, Repr

/-- Stream states of XE_STREAM_INFO (R101). -/
inductive StreamSt where
  | idle | run | wait | faulted | stopped
deriving DecidableEq, Repr

/-- A chain of a part: in-flight order of its step, its number k in the part, the index of its first descriptor. -/
structure Chain where
  order : Nat
  k : Nat
  first : Nat
deriving DecidableEq, Repr

/-- An XE descriptor stream (R94, R101, R246, R263). -/
structure Stream where
  st : StreamSt := .idle
  chain : Option Chain := none
  next : Nat := 0
  descs : List ActDesc := []
  waiting : List Chain := []
  offset : Nat := 0
  retry : Bool := false
  faultPending : Bool := false
  acked : Nat := 0
  table : Option Nat := none
  fseq : Nat := 0
  opCount : Nat := 0
  stopping : Bool := false
  /-- A RESUME has come while the stream was still stopping: it goes on once it has stopped (R255). -/
  goOn : Bool := false
  heldRec : Option (List Byte) := none
  /-- The next packet is held at the base die for want of a path: DETAIL of COL_NO_PATH and the time (R346). -/
  heldPath : Option (Nat × Nat) := none
  /-- The END descriptor has completed while an earlier one of the chain has not. -/
  chainEnded : Bool := false
deriving DecidableEq, Repr

/-- The Stream at reset. -/
def Stream.init : Stream := {}

/-- An ordered receive stream (R351): the operation bound, the context of the key's slot, the expected packet, the
packets held (number, request) and the answers they give. -/
structure RxStream where
  coord : Nat := 0
  endpt : Nat := 0
  flow : Nat := 0
  opid : Nat := 0
  slot : Nat := 0
  ctag : Word := 0
  nextSeq : Nat := 0
  held : List (Nat × List Byte × Nat) := []
deriving DecidableEq, Repr

/-- An orphan: a fabric request of an ended context that still awaits its answer (R464). -/
structure Orphan where
  slot : Nat
  flow : Nat
  fseq : Nat
  us : Nat
deriving DecidableEq, Repr

/-- A TE operation queued: in-flight order and record index (R150). -/
structure TeItem where
  order : Nat
  idx : Nat
deriving DecidableEq, Repr

/-- A TE operation running: slot, in-flight order, kind, physical bank, the window bytes it writes as ranges, the bytes
a write-back replaced, which an abandoned operation puts back (R86), its duration in core cycles (R120), and whether
another operation of the TE ran at the same time. -/
structure TeRun where
  slot : Nat := 0
  order : Nat := 0
  kind : Nat := 0
  bank : Nat := 0
  wr : List (Nat × Nat) := []
  undo : List (Nat × Byte) := []
  cycles : Nat := 0
  overlapped : Bool := false
deriving DecidableEq, Repr

/-- A cached translation (R241): ASID, VA base, size, DPA base, permission bits, table entry, its DPA and level. -/
structure TlbEnt where
  asid : Nat
  part : Nat
  va : Nat
  size : Nat
  dpa : Nat
  entry : Nat
  /-- DPA and level of the table entry (R252), and the number of the cache entry that holds it (R267). -/
  edpa : Nat := 0
  level : Nat := 0
  ix : Nat := 0
deriving DecidableEq, Repr

/-- A core: its engines, sync objects and pools (R70, R76). -/
structure Core where
  slots : NMap Slot := []
  strands : NMap Strand := []
  banks : NMap (NMap Word) := []
  sync : NMap SyncObj := []
  streams : NMap Stream := []
  rx : NMap RxStream := []
  relIndex : List Nat := []
  orphans : List Orphan := []
  utlb : List TlbEnt := []
  busy : Bool := false
  deferred : Option Nat := none
  /-- A command held by a context reset of its slot: OP, slot, and the submission entry of a ring's INSTALL (R463). -/
  heldCmd : Option (Nat × Nat × List Byte) := none
  /-- The ring command in progress: ring, USER, OP, entry number (R281, R282). -/
  ringCmd : Option (Nat × Nat × Nat × Nat) := none
  teq : NMap (List TeItem) := []
  teRun : List TeRun := []
  lastWriter : NMap (Nat × Nat) := []
  eccTimes : List (Nat × Nat × Nat) := []
  engReset : Nat := 0
  engCause : Nat := 0
  /-- When the engine resets in progress were requested, the first of them (R462, R470). -/
  engUs : Nat := 0
  stateHi : Word := 0
  mirrorCount : Nat := 0
  mirrorAt : NMap Nat := []
  xeInBytes : Nat := 0
  xeOutBytes : Nat := 0
  retirePending : Bool := false
deriving DecidableEq, Repr

/-- The Core at reset. -/
def Core.init : Core := {}

/-! ### Cluster state (chapters 08, 09, 12, 14) -/

/-- A submission entry fetched: its 64 bytes (R279). -/
structure SubEnt where
  num : Nat
  data : List Byte
deriving DecidableEq, Repr

/-- A submission ring (R278, R281). -/
structure Ring where
  enabled : Bool := false
  error : Bool := false
  prod : Nat := 0
  head : Nat := 0
  fetched : List SubEnt := []
  inProgress : List Nat := []
deriving DecidableEq, Repr

/-- The Ring at reset. -/
def Ring.init : Ring := {}

/-- A completion queue (R282, R283). -/
structure CompQ where
  enabled : Bool := false
  error : Bool := false
  tail : Nat := 0
  head : Nat := 0
  held : List (List Byte) := []
  timer : Option Nat := none
deriving DecidableEq, Repr

/-- The CompQ at reset. -/
def CompQ.init : CompQ := {}

/-- An MMU invalidation in progress (R242). -/
structure InvOp where
  op : Nat
  asid : Nat
  lo : Nat
  hi : Nat
  key : Nat
  scope : Bool
  startUs : Nat
  /-- VA ranges of the entries that it removed: first byte and length. -/
  removed : List (Nat × Nat) := []
deriving DecidableEq, Repr

/-- A cluster: MMU, queue set, map and trace (R20, R241, R252, R277, R374, R446). -/
structure Cluster where
  tlb : List TlbEnt := []
  /-- Walk cache: ASID, level, VA prefix, table DPA (R241), number of the entry. -/
  wc : List (Nat × Nat × Nat × Nat × Nat) := []
  seq : Nat := 0
  holdBuf : List (List Byte) := []
  /-- Records that wait for a place in the posting buffer and that no stream holds (R253). -/
  waitRecs : List (List Byte) := []
  inv : Option InvOp := none
  /-- Result of the latest walk command: DPA, or the fault type with `false` (R239). -/
  lastWalk : Option (Nat × Bool) := none
  /-- Parity errors of TLB entries, and of walk-cache entries from 4,096: entry, time; the entries retired (R267). -/
  tlbErr : List (Nat × Nat) := []
  tlbRetired : List Nat := []
  rings : NMap Ring := []
  cqs : NMap CompQ := []
  fqEnabled : Bool := false
  fqError : Bool := false
  fqTail : Nat := 0
  fqHead : Nat := 0
  retired : Nat := 0
  usable : Nat := 0x3FFFF
  map : List Nat := List.range 17
  spare : Nat := 17
  pealFailed : Nat := 0
  clusterRetired : Bool := false
  degraded : Bool := false
  cycles : Nat := 0
  traceOn : Bool := false
  traceRecs : Nat := 0
  /-- Crossings of its cores that have failed: core, time (R39). -/
  crossFail : List (Nat × Nat) := []
  /-- The cluster's retirement awaits its partition's reset: the cause, 0 none (R377). -/
  clusterPend : Nat := 0
deriving DecidableEq, Repr

/-- A cluster before its map is formed at S4: all 18 cores usable, cores 0 to 16 mapped, core 17 the spare (R20). -/
def Cluster.init : Cluster := {}

/-- A barrier counter: N, ENABLE, CUR, NEXT, PHASE (R183, R196). -/
structure Barrier where
  n : Nat := 0
  enabled : Bool := false
  cur : Nat := 0
  next : Nat := 0
  phase : Nat := 0
deriving DecidableEq, Repr

/-- The Barrier at reset. -/
def Barrier.init : Barrier := {}

/-- A ring's CTX_RESET in progress: cluster, ring, USER, entry number, core, slot, CTAG, and the slots not yet reset
(R280). -/
structure CtxReset where
  clu : Nat
  ring : Nat
  user : Nat
  num : Nat
  core : Nat
  slot : Nat
  ctag : Nat
  waiting : List (Nat × Nat)
deriving DecidableEq, Repr

/-! ### Package state -/

/-- An event record of the event queue (R525). -/
structure Event where
  pageId : Nat := 0
  errFirst : Word := 0
  ctag : Word := 0xFFFFFFFF
  time : Nat := 0
  kind : Nat := 1
  retention : Bool := false
  lostBefore : Bool := false
  code : Nat := 0
  detail : Nat := 0
  unc : Bool := false
  id : Nat := 0
deriving DecidableEq, Repr

/-- What the package has sent out, in order: read data, MSI-X messages, messages to the Carillon, bus-master
accesses to host memory, completions on the host link, flits and other wire actions of a port, management
messages, JTAG answers and accesses to the tray flash. -/
inductive Out where
  | readData (req : Req) (addr : Nat) (value : Word)
  | msi (func : Nat) (vector : Nat) (addr : Nat) (data : Nat)
  | carillonInt (pageAddr : Nat)
  | hostRead (func : Nat) (addr : Nat) (len : Nat)
  | hostWrite (func : Nat) (addr : Nat) (data : List Byte)
  | pcieCpl (func : Nat) (status : Nat) (data : List Byte)
  | wire (port : Nat) (what : String) (data : List Nat)
  | mgmt (bus : Nat) (what : String) (data : List Byte)
  | jtag (ir : Nat) (data : List Nat)
  | flashWrite (off : Nat) (data : List Byte)
  | note (what : String) (data : List Nat)
deriving DecidableEq, Repr

/-- On-chip messages sent and not yet delivered (R184 to R193, R239). -/
inductive NetMsg where
  | gongArrive (core slot bar phase : Nat)
  | fbArrive (pipe core slot bar phase : Nat)
  | bindRead (core slot : Nat)
  | release (core : Nat) (fabric : Bool) (bar phase : Nat)
  | notice (core slot bar detail : Nat)
  | loop (part : Nat) (data : List Byte)
deriving DecidableEq, Repr

/-- An MSI-X table entry (R276). -/
structure MsixEnt where
  addr : Nat := 0
  data : Nat := 0
  masked : Bool := true
deriving DecidableEq, Repr

/-- The host port (R268 to R289). -/
structure HostPort where
  up : Bool := false
  perst : Bool := true
  width : Nat := 0
  gen : Nat := 0
  flit : Bool := false
  maxWidth : Nat := 16
  failed : Bool := false
  degraded : Bool := false
  numVfs : Nat := 0
  vfEnable : Bool := false
  bme : NMap Bool := []
  msixEnable : NMap Bool := []
  msix : NMap MsixEnt := []
  bar2Log : NMap Nat := []
  cfg : NMap Word := []
  /-- Base address registers, Max_Read_Request_Size, completion-timeout value and power state by function (R268, R270, R273). -/
  bars : NMap Word := []
  maxRead : NMap Nat := []
  cplTimeout : NMap Nat := []
  d3hot : Bool := false
  recoveries : List Nat := []
deriving DecidableEq, Repr

/-- A requested reset of a partition or of the chip: CAUSE of R460, whether reached by escalation, SCRUB, and the
page whose error caused it. -/
structure ResetReq where
  cause : Nat := 0
  escalated : Bool := false
  scrub : Bool := false
  page : Nat := 0
deriving DecidableEq, Repr

/-- A partition reset in progress (R466); `mapChange` lists the regions whose interleave it changes (R221). -/
structure PartReset where
  cause : Nat := 0
  escalated : Bool := false
  scrub : Bool := false
  startUs : Nat := 0
  mapChange : List Nat := []
deriving DecidableEq, Repr

/-! ### Fabric state (chapters 06, 10, 11) -/

/-- A fabric barrier of a barrier pipeline: the local level, the phases that await release, and the root level (R190, R191, R193). -/
structure FabBar where
  n : Nat := 0
  enabled : Bool := false
  isRoot : Bool := false
  root : Nat := 0
  devN : Nat := 0
  cur : Nat := 0
  next : Nat := 0
  phase : Nat := 0
  await : List Nat := []
  /-- When the device arrival of each awaited phase was sent (R193). -/
  left : NMap Nat := []
  rcur : Nat := 0
  rnext : Nat := 0
  rphase : Nat := 0
deriving DecidableEq, Repr

/-- A partition's entry for a peer coordinate (R360): STATE 0 UNKNOWN, 1 LIVE, 2 RESET, 3 LOST; the unreachable set with
the time of each report (R355). -/
structure Peer where
  state : Nat := 0
  epoch : Nat := 0
  prevEpoch : Nat := 0
  announced : Bool := false
  newEpoch : Nat := 0
  unreach : List (Nat × Nat) := []
deriving DecidableEq, Repr

/-- A copy of a multicast send that has no answer yet (R354, R356): index of the member, FSEQ, coordinate, and when it was sent. -/
structure McWait where
  member : Nat
  fseq : Nat
  coord : Nat
  us : Nat
deriving DecidableEq, Repr

/-- A multicast send that awaits the answers of its members (R356): the request's header, the port or loopback it
arrived on, the copies not yet answered, the index of the first member that failed. -/
structure McSend where
  pipe : Nat
  group : Nat
  port : Nat
  header : List Byte
  waiting : List McWait
  failed : Option Nat
deriving DecidableEq, Repr

/-- A packet of a COL pipeline that is held at the base die for want of a path (R331, R346): a multicast copy, or an MGT packet;
its roll table and index, its bytes, the DETAIL of the hold, and when the hold began. -/
structure HeldPkt where
  pipe : Nat
  table : Nat
  idx : Nat
  data : List Byte
  copy : Bool
  detail : Nat
  us : Nat
deriving DecidableEq, Repr

/-- The roll-table store of a partition (R343, R345). -/
structure RollStore where
  data : List Byte := []
  variant : Nat := 0
  auto : Bool := false
  loading : Bool := false
deriving DecidableEq, Repr

/-- A link-control message of a port (R300), and when it was first sent, in µs. -/
structure LinkMsg where
  op : Nat
  token : Nat
  lanes : Nat
  temp : Bool
  us : Nat
deriving DecidableEq, Repr

/-- The link of a fabric port below the packet (R299 to R317): training attempts, the state before STANDBY, the pause in
progress, sequence numbers, the replay buffer, packet queues of the channels, credits to send and to return, and the
windows of R304, R306 and R314. `heard` says that a good identity frame has been received, `planeKnown` that the plane of
the port has been identified, so that FAB_PLANE names the plane that its failure excludes (R345). -/
structure Port where
  attempts : Nat := 0
  prior : Nat := 0
  token : Nat := 0
  lastToken : Nat := 256
  pauseLanes : Nat := 0
  pauseTemp : Bool := false
  pauseOwn : Bool := false
  pauseAcked : Bool := false
  resumeSent : Bool := false
  resumed : Bool := false
  standbySent : Bool := false
  standbyTok : Nat := 0
  heard : Bool := false
  planeKnown : Bool := false
  /-- Identity flits still to be sent after the partner's acknowledgement (R309). -/
  identLeft : Nat := 0
  /-- Link-control messages that flits repeat, the newest first, and the last TOKEN received of each OP (R300). -/
  ctl : List LinkMsg := []
  seen : NMap Nat := []
  txFsn : Nat := 0
  rxFsn : Nat := 0
  rxAny : Bool := false
  nakOut : Bool := false
  /-- Unacknowledged DATA flits: FSN, PKT_OFF and data (R302). -/
  replay : List (Nat × Nat × List Byte) := []
  resendFrom : Option Nat := none
  failCount : Nat := 0
  /-- DATA flits received ahead of their FSN, within the skew tolerance (R301). -/
  early : List (Nat × List Byte) := []
  /-- Codeword counter of each lane (R297). -/
  codewords : NMap Nat := []
  txMgt : List (List Byte) := []
  txRsp : List (List Byte) := []
  txReq : List (List Byte) := []
  txBytes : List Byte := []
  rxBytes : List Byte := []
  rx : List (List Byte) := []
  credReq : Nat := 0
  credRsp : Nat := 0
  credMgt : Nat := 0
  retReq : Nat := 0
  retRsp : Nat := 0
  retMgt : Nat := 0
  retrainUs : List Nat := []
  lockLoss : List (Nat × Nat) := []
  berOver : List Nat := []
  chosen : Nat := 0
deriving DecidableEq, Repr

/-- The Port at reset. -/
def Port.init : Port := {}

/-! ### The Carillon, firmware and security (chapters 13, 14, 17) -/

/-- The fuse groups that a unit programs in its life (R372, R408, R421, R424): blown fuses of the three of each
lifecycle bit and of SEED_KILL, what is provisioned, both copies of the revocations and of the counter, and the repairs
made at manufacture. -/
structure Fuses where
  /-- VARIANT: 0 /P, 1 /M, 2 /E (R3, R49). -/
  variant : Nat := 0
  stepping : Nat := 0
  unitId : Nat := 0
  m : Nat := 3
  r : Nat := 0
  e : Nat := 0
  kill : Nat := 0
  seed : Bool := true
  debugKey : Bool := true
  cert : Bool := true
  revoked0 : Nat := 0
  revoked1 : Nat := 0
  count0 : Nat := 0
  count1 : Nat := 0
  /-- CORE_DEFECT words by cluster. -/
  defects : NMap Nat := []
  /-- Valid STG_REPAIR rows by 16 × slice + bank. -/
  stgRepair : NMap Nat := []
  /-- BRG_REPAIR: bridge, direction, lane group. -/
  brgRepair : List (Nat × Nat × Nat) := []
deriving DecidableEq, Repr

/-- The boot record in force (R411). -/
structure BootRec where
  seq : Nat := 0
  active : Nat := 0
  pending : Nat := 0xFF
  stA : Nat := 1
  stB : Nat := 1
  fails : Nat := 0
  resA : Nat := 0
  resB : Nat := 0
  verA : Nat := 0
  verB : Nat := 0
  svnA : Nat := 0
  svnB : Nat := 0
deriving DecidableEq, Repr

/-- A staging transfer (R414): the slot, the bundle's size, and the bytes received. -/
structure Staging where
  slot : Nat
  size : Nat
  data : List Byte := []
deriving DecidableEq, Repr

/-- Firmware and its flash (R403 to R417). -/
structure Firmware where
  /-- The tray flash by offset; an unlisted byte is erased, 0xFF. -/
  flash : NMap Byte := []
  copy : Nat := 0
  bootRec : BootRec := {}
  running : Option Nat := none
  reachedS1 : Bool := false
  bundle : List Byte := []
  bundleOk : Bool := false
  /-- The chip is left unloaded until the next power cycle (R410). -/
  unloaded : Bool := false
  recovery : Bool := false
  rcvState : Nat := 0
  rcvOwner : Nat := 0
  rcvHeld : Bool := false
  rcvResult : Nat := 0
  rcvSize : Nat := 0
  rcvBuf : NMap Byte := []
  staging : Option Staging := none
deriving DecidableEq, Repr

/-- The two controllers, their token and the management path (R514 to R528). Controllers 0 CA and 1 CB; their states 0
OFF, 1 SELFTEST, 2 STANDBY, 3 ACTIVE, 4 FAILED. Paths 0 wire, 1 mailbox. -/
structure Carillon where
  powered : Bool := false
  ca : Nat := 0
  cb : Nat := 0
  token : Option Nat := none
  /-- Restarts of the controllers: controller, time; and when each last reached STANDBY or ACTIVE (R514). -/
  restarts : List (Nat × Nat) := []
  lastUp : NMap Nat := []
  /-- Missed heartbeat slots in a row, by 2 × watched controller + path. -/
  missed : NMap Nat := []
  pathFault : NMap Bool := []
  /-- When a faulted path began to show heartbeats again. -/
  pathGood : NMap Nat := []
  faults : Nat := 0
  /-- Since when CA has been a STANDBY without a missed slot. -/
  standbyUs : Option Nat := none
  alive : Bool := false
  bothDown : Bool := false
  cfg : List Byte := []
  cfgValid : Bool := false
  cfgCopy : Nat := 0
  addr : NMap Nat := []
  eid : NMap Nat := []
  receiver : NMap Nat := []
  tid : Nat := 0
  pathUp : Bool := false
  attempts : Nat := 0
  sentUs : Option Nat := none
  /-- State of the PLDM firmware update (0 idle, 1 requested, 2 components passed, 3 downloading, 4 applied). -/
  upd : Nat := 0
  /-- The latest sample of each sensor and its local time (R522). -/
  samples : NMap (Nat × Nat) := []
  spdmVer : Bool := false
  spdmAlg : Bool := false
  /-- SPDM sessions: identifier, established (R523). -/
  sessions : List (Nat × Bool) := []
  nextSession : Nat := 1
deriving DecidableEq, Repr

/-- Lifecycle, keys, alarms and debug (R420 to R448) that no register holds. -/
structure Security where
  aliasValid : Bool := false
  /-- The Alias private key, in the key register of each controller, and the certificate that the ROM signed (R427). -/
  aliasKey : Nat := 0
  aliasCert : List Byte := []
  erased : Bool := false
  seedLocked : Bool := false
  /-- Partitions that hold HBM keys. -/
  hbmKeys : Nat := 0
  /-- The alarm held fired while a chip reset was running (R437, R440). -/
  alarmInReset : Bool := false
  highAlarm : Nat := 0
  highDebug : NMap Nat := []
  d3Seen : Bool := false
  tokenFails : List Nat := []
  lockout : Bool := false
  /-- The target of the lifecycle transition in progress; and after one, the state that still governs until the next S0
  (R423). -/
  lcTo : Option Nat := none
  lcOld : Option Nat := none
  /-- A lifecycle token that has passed its checks: 0x10 TO_RETURN, 0x11 TO_END. -/
  lcToken : Option Nat := none
deriving DecidableEq, Repr

/-! ### Power, heat, islands (chapters 01, 16) -/

/-- Power feed and brake (R489 to R502): watts, and sixteenths of the fused clock. -/
structure Power where
  st : Nat := 0
  /-- Target of an A2 entry (2 or 3) or exit (0) in progress. -/
  moving : Option Nat := none
  vin48 : Bool := false
  brakePin : Bool := false
  /-- 0 no brake, 1 stage 1, 2 stage 2, 3 released and rising. -/
  brake : Nat := 0
  stage1 : Bool := false
  /-- Floor in watts that the Carillon has prepared for stage 2. -/
  floorW : Nat := 1200
  /-- L_eff in watts. -/
  lEff : Nat := 4000
  /-- What converter sites have taken off L_eff (R505). -/
  convCut : Nat := 0
  duty : Nat := 0
  failed : Bool := false
  vauxLost : Bool := false
deriving DecidableEq, Repr

/-- When something was in a step or at a hard limit: since when it is, and the spans before (R508). -/
structure HotTime where
  since : Option Nat := none
  spans : List (Nat × Nat) := []
deriving DecidableEq, Repr

/-- A thermal site (R503 to R505): pair state 0 OK, 1 SKEW, 2 DEGRADED, 3 FAILED; its own clock cap in sixteenths. -/
structure Site where
  diode : Nat := 0
  ring : Nat := 0
  used : Nat := 0
  pair : Nat := 0
  cap : Nat := 16
  stepping : Bool := false
  hard : Bool := false
  half : Bool := false
  skewUs : Option Nat := none
  coolUs : Option Nat := none
  hot : HotTime := {}
  read : Bool := false
deriving DecidableEq, Repr

/-- Heat (R503 to R508, R213). -/
structure Thermal where
  sites : NMap Site := []
  /-- HBM stacks: failed readouts in a row, and since when below 82 °C. -/
  hbmMiss : NMap Nat := []
  hbmCool : NMap Nat := []
  hbmHot : NMap HotTime := []
  /-- Stacks throttled only for want of a valid reading (R505). -/
  hbmInv : List Nat := []
  /-- Base dies in a step or at a hard limit, by tile (R508). -/
  baseHot : NMap HotTime := []
  /-- The cooling-degraded condition: when it last held, when the event was last sent. -/
  coolSent : Option Nat := none
  coolHeld : Nat := 0
  tripped : Bool := false
deriving DecidableEq, Repr

/-- An island as its monitors show it (R32, R39, R45). -/
structure Island where
  temp : Nat := 0
  stopped : Bool := false
  half : Bool := false
  /-- Islands that it is hotter than by the gradient rule. -/
  above : List Nat := []
deriving DecidableEq, Repr

/-! ### Self-test, peal, sets, dump (chapters 12, 15) -/

/-- A BIST slice (R393 to R395): class, instance, region, the part of the region in sixteenths (where it begins, how long
it is), phase 0 scheduled, 1 running, 2 waits for its repeat. -/
structure BistSlice where
  cls : Nat
  inst : Nat
  region : Nat
  part : Nat := 0
  len : Nat := 16
  phase : Nat := 0
deriving DecidableEq, Repr

/-- The test engine (R391 to R399). -/
structure Bist where
  slices : List BistSlice := []
  /-- The next region and the background of an instance, by 4096 × class + instance. -/
  next : NMap Nat := []
  /-- The sixteenths of the next region that are tested already, where a lower clock halved it (R393). -/
  part : NMap Nat := []
  back : NMap Nat := []
  /-- When the latest slice of an instance started (R43). -/
  last : NMap Nat := []
  /-- The direct BIST in progress: class, instance. -/
  direct : Option (Nat × Nat) := none
  scanning : Bool := false
  cleared : Bool := false
  scanOpen : Bool := false
  /-- Regions out of use since a permanent failure: class, instance, region. -/
  excluded : List (Nat × Nat × Nat) := []
deriving DecidableEq, Repr

/-- What a core holds of a peal (R383, R384): whether the peal is the package's, IMAGE_ID, TOTAL, the chunk bitmap, the
control store by chunk, IMAGE_CRC, passes made, complete, failed; `again` says that it is the repeat after the stores were
written anew (R386). -/
structure PealCore where
  pkg : Bool := false
  again : Bool := false
  id : Nat := 0
  total : Nat := 0
  have_ : List Nat := []
  data : NMap (List Byte) := []
  crc : Nat := 0
  ended : Bool := false
  passes : Nat := 0
  done : Bool := false
  failed : Bool := false
deriving DecidableEq, Repr

/-- A set command of a barrier pipeline in progress (R389): the operation, and the RESULT and INDEX known so far. -/
structure SetOp where
  op : Nat
  result : Nat := 0
  index : Nat := 0x7FF
deriving DecidableEq, Repr

/-- A dump being collected (R479, R481): trigger, start, failing page, scope, and what its side-door reads met. -/
structure DumpRun where
  trigger : Nat
  startUs : Nat
  page : Nat
  scope : Nat
  /-- The core of a HANG trigger. -/
  core : Nat := 0
  /-- Pages with a side-door burst that timed out, and how many bytes had been read before. -/
  unread : NMap Nat := []
  /-- The page of the latest timeout, and how many timeouts in a row its island has had. -/
  last : Nat := 0
  row : Nat := 0
  /-- Islands given up after four timeouts in a row, with the page of the fourth. -/
  deadIslands : List (Nat × Nat) := []
  /-- Held records copied when their partition was reset (R466): MMU, bytes. -/
  held : List (Nat × List Byte) := []
deriving DecidableEq, Repr

/-- An optical engine (R319 to R324): lasers as (state 0 OFF to 3 FAILED, WARN), the events of each fibre, the fibres left of the sweep. -/
structure Engine where
  lasers : NMap (Nat × Bool) := []
  events : NMap (List ReflEvent) := []
  sweep : List Nat := []
  abort : Bool := false
  probeFailed : Bool := false
  /-- The group whose lanes move to L4 when it has warmed up, and whether the swap is planned. -/
  warming : Option (Nat × Bool) := none
  overtemp : Bool := false
deriving DecidableEq, Repr

/-- The state of the package. -/
structure State where
  /-- Commands that wait, first in, first out (the block interface). -/
  pending : List Instr := []
  /-- Everything the package has sent out, oldest first (the model's record of its outputs). -/
  out : List Out := []
  /-- On-chip messages on their way. -/
  net : List NetMsg := []
  /-- Carillon local time in microseconds (R527). -/
  us : Nat := 0
  /-- Free values drawn so far (the model's own field). -/
  draws : Nat := 0
  /-- Stored registers by BAR0 address; an unlisted one holds its reset value. -/
  regs : NMap Word := []
  /-- Device memory by DPA. -/
  mem : Memory := []
  /-- Poisoned granules of memory, by DPA / 64 (R217). -/
  poison : NMap Bool := []
  /-- DIR_PKG_ID.SPLIT: 0 to 3 for 1, 2, 4 or 8 partitions (R49). -/
  split : Nat := 0
  cores : NMap Core := []
  clusters : NMap Cluster := []
  /-- Barriers of the gong units: 512 × tile + barrier, package-wide barriers from 256 in tile 0 (R182). -/
  gong : NMap Barrier := []
  host : HostPort := {}
  reqPart : NMap ResetReq := []
  reqChip : Option ResetReq := none
  partReset : NMap PartReset := []
  chipReset : Option ResetReq := none
  /-- Interrupt messages held for the VF of a partition under reset (R68): partition, page. -/
  heldInts : List (Nat × Nat) := []
  evq : List Event := []
  evCount : Nat := 0
  evOverflow : Bool := false
  /-- Correctable errors of HBM rows in the 24 h window: stack, pseudo-channel, row, time (R219). -/
  rowErrs : List (Nat × Nat × Nat × Nat) := []
  /-- HBM rows that became permanent since the chip reset: stack, pseudo-channel, row, time (R219). -/
  rowsPerm : List (Nat × Nat × Nat × Nat) := []
  /-- HBM rows that are permanent and not repaired, with the pages that each has retired (R219, R220, R222). -/
  rowPgs : List (Nat × Nat × Nat × List Nat) := []
  /-- HBM rows queued for hard repair (R222). -/
  pprQueue : List (Nat × Nat × Nat) := []
  /-- Hard repairs made by stack, which are permanent (R222). -/
  pprUsed : NMap Nat := []
  /-- Command/address parity errors that failed their retry: stack, pseudo-channel, time (R219). -/
  caFails : List (Nat × Nat × Nat) := []
  /-- Pseudo-channels that no longer answer (R221): stack, pseudo-channel. -/
  pcDead : List (Nat × Nat) := []
  /-- Correctable errors of staging rows: slice, bank, row, time (R223). -/
  stgErrs : List (Nat × Nat × Nat × Nat) := []
  /-- Spare rows used by bank: 16 × slice + bank (R223). -/
  stgSpares : NMap Nat := []
  /-- Permanent physical staging rows: slice, bank, row, a spare row numbered from 1,536 (R223). -/
  stgRowsPerm : List (Nat × Nat × Nat) := []
  /-- The spare that takes a row's place: slice, bank, row, number of the spare (R223). -/
  stgSubst : List (Nat × Nat × Nat × Nat) := []
  /-- The HBM keys are gone since an ERASE (R226). -/
  keysErased : Bool := false
  /-- Power pool of each tile and what it has granted, in units of 4 mW (R496, R497). -/
  pools : NMap Nat := []
  grants : NMap Nat := []
  /-- Requests that wait for a grant, in order of arrival: core, slot, charge, whether it has been counted as waiting. -/
  grantReqs : List (Nat × Nat × Nat × Bool) := []
  /-- Requests of each tile since the last recomputation (R497). -/
  poolAsked : NMap Nat := []
  /-- Fast-loop clock cap of the cores in sixteenths of the fused clock (R498). -/
  fastCap : Nat := 16
  /-- Fabric ports below the packet. -/
  ports : NMap Port := []
  /-- Fabric barriers: 256 × pipeline + barrier (R190). -/
  fb : NMap FabBar := []
  /-- Peer entries: 65,536 × partition + coordinate (R360). -/
  peers : NMap Peer := []
  /-- Roll-table stores by partition (R343). -/
  roll : NMap RollStore := []
  /-- Index of MGT packets in table 0 by pipeline (R347). -/
  mgtIdx : NMap Nat := []
  /-- COL_MC_CFG and COL_MC_CHECK by 16 × pipeline + group; members by 64 × that + member: COL_MC_MEMBER and
  COL_MC_KEY (R356, R364). -/
  mcCfg : NMap Word := []
  mcCheck : NMap Word := []
  mcMember : NMap Word := []
  mcKey : NMap Word := []
  /-- FSEQ of each multicast group (R356). -/
  mcFseq : NMap Nat := []
  mcSends : List McSend := []
  /-- Packets of COL pipelines held for want of a path, oldest first (R331, R346). -/
  heldPkts : List HeldPkt := []
  /-- DEST_SIDE records posted: MMU, key, 64 KiB page, time (R254). -/
  destRecs : List (Nat × Nat × Nat × Nat) := []
  /-- The package's epoch and the one before (R359, R361); 0 before the Carillon has drawn one. -/
  epoch : Nat := 0
  prevEpoch : Nat := 0
  /-- Coordinates recorded for EPOCH_ANNOUNCE (R361). -/
  epochPeers : List Nat := []
  /-- NONCE_CTR (R362). -/
  nonce : Nat := 0
  /-- Fabric key slots by number (R432). -/
  fabKeys : NMap (List Byte) := []
  /-- The part of a unit that a counter in units of more than one has not yet counted, by register address. -/
  resid : NMap Nat := []
  /-- Ring commands CTX_RESET in progress (R280). -/
  ctxResets : List CtxReset := []
  fuses : Fuses := {}
  fw : Firmware := {}
  carillon : Carillon := {}
  sec : Security := {}
  power : Power := {}
  thermal : Thermal := {}
  islands : NMap Island := []
  bist : Bist := {}
  /-- Peal state by core; the damaged copies of each tile's peal store as a mask (R383, R386). -/
  pealCores : NMap PealCore := []
  pealBad : NMap Nat := []
  setOps : NMap SetOp := []
  dump : Option DumpRun := none
  engines : NMap Engine := []
  /-- Retired ports in the retention log during a chip reset, by port: retired lanes, REASON (R326). -/
  retPorts : NMap (Nat × Nat) := []
  /-- When S6 began (R369). -/
  s6Us : Nat := 0
  /-- The field record: cores and slices retired, and whether the flash copy is older (R379). -/
  fieldCores : List Nat := []
  fieldSlices : List Nat := []
  fieldDirty : Bool := false
  /-- Retention log: page, ERR_FIRST, ERR_COUNT, ERR_CTAG (R61), and events that a power-fail sequence left (R502, R526). -/
  retention : List (Nat × Word × Word × Word) := []
  retEvents : List Event := []
  /-- A fatal bring-up failure has already made the sequence run again (R371). -/
  bootRetried : Bool := false
  /-- The chip reset in progress has begun its S2 (R467). -/
  chipAtS2 : Bool := false
  /-- Partitions whose reset an FLR requested: their queues end disabled with indices 0 (R286, R288). -/
  flr : NMap Bool := []
  /-- Latches of SYN_STATE_HI by core are in the cores; the latch of CAR_TIME_HI (R531). -/
  timeHi : Word := 0
  /-- Bridges out of service, by bridge (R30, R31). -/
  brgOut : List Nat := []
  /-- Only the 4-way and the 8-way splits are offered, until a bring-up in which all four bridges pass (R31). -/
  brgRestrict : Bool := false
  /-- Replays attributed to a bridge lane: bridge, direction × 16 + group, lane, time (R227). -/
  brgReplays : List (Nat × Nat × Nat × Nat) := []
  /-- Patrol scrub position by 64 × stack + pseudo-channel, from 4,096 by 16 × slice + bank (R218). -/
  scrub : NMap Nat := []
  /-- Zeroising watermark of regions 0 to 7 and of slices from 8 (R224). -/
  zeroAt : NMap Nat := []
deriving DecidableEq, Repr

/-- The package right after reset: nothing powered beyond the Carillon's first step, no command waiting. -/
def State.reset : State := {}

end Sys2Proof.Machine
end

