-- ==== Sys2Proof/Machine/Ops.lean ====
section
/-!
DEFINITION. The shared operations over registers, units, geometry and memory (R17 to R31, R47, R48, R199 to R206).
-/
namespace Sys2Proof.Machine

/-! ### Registers -/

/-- The stored value of the register at a BAR0 address. -/
def regGet (s : State) (a : Nat) : Word :=
  match mget s.regs a with
  | some v => v
  | none => match pageOf a with
    | some (b, i, off) => regReset b i off
    | none => 0

/-- Store a register. -/
def regSet (s : State) (a : Nat) (v : Word) : State := { s with regs := mput s.regs a v }

/-- The stored value of a register by block, instance and offset. -/
def rget (s : State) (b : Block) (i off : Nat) : Word := regGet s (page b i + off)

/-- Store a register by block, instance and offset. -/
def rset (s : State) (b : Block) (i off : Nat) (v : Word) : State := regSet s (page b i + off) v

/-- Add to a counter, which saturates at 0xFFFF_FFFF (R101). -/
def bump (s : State) (b : Block) (i off n : Nat) : State :=
  rset s b i off (wd (min 0xFFFFFFFF ((rget s b i off).toNat + n)))

/-- Add to a counter that counts in units of `unit`; what is short of a unit is kept beside it. -/
def bumpUnit (s : State) (b : Block) (i off n unit : Nat) : State :=
  let a := page b i + off
  let v := mgetD s.resid a 0 + n
  bump { s with resid := mput s.resid a (v % unit) } b i off (v / unit)

/-- Append to what the package has sent out. -/
def emit (s : State) (o : Out) : State := { s with out := s.out ++ [o] }

/-- Send an on-chip message. -/
def send (s : State) (m : NetMsg) : State := { s with net := s.net ++ [m] }

/-- Take a delivered message off the way; the delivery itself carries what arrived. -/
def deliver (s : State) (m : NetMsg) : State := { s with net := s.net.erase m }

/-- RESET_REQ clears on the pages that a completed reset covers (R51, R60). -/
def clearResetReq (s : State) (f : Block → Nat → Bool) : State :=
  { s with regs := s.regs.map (fun e =>
      match (if e.1 % 0x1000 = 0x10 then pageOf e.1 else none) with
      | some (b, i, _) => if f b i then (e.1, setBit e.2 2 false) else e
      | none => e) }

/-- Does a block accept new work: ENABLE = 1 and QUIESCE = 0 (R51, R57, R474)? -/
def accepting (s : State) (b : Block) (i : Nat) : Bool := wbit (rget s b i 0x10) 0 && !wbit (rget s b i 0x10) 1

/-- Draw the next free 32-bit value. -/
def drawWord (s : State) : Word × State := (Config.freeWord s.draws, { s with draws := s.draws + 1 })

/-- Draw `k` free words. -/
def drawWords (s : State) : Nat → List Word × State
  | 0 => ([], s)
  | k + 1 =>
    let (w, s1) := drawWord s
    let (ws, s2) := drawWords s1 k
    (w :: ws, s2)

/-- An alarm at FREEZE or ERASE holds (R437, R438): SEC_ALARM_LEVEL. -/
def frozen (s : State) : Bool := decide (2 ≤ fld (rget s .sec 0 0x110) 1 0)

/-- Does a block's page read as 0 and ignore writes because the package is in A2 or A3 (R494, R495)? -/
def pageDark (s : State) (b : Block) : Bool :=
  decide (2 ≤ s.power.st) && (b = .sq || b = .te || b = .ve || b = .xe || b = .syn || b = .mmu)

/-- Work arrives: the package leaves A1 for A0 (R493). -/
def leaveA1 (s : State) : State := if s.power.st = 1 then { s with power := { s.power with st := 0 } } else s

/-! ### Geometry -/

/-- Tile of core n (R48). -/
def coreTile (n : Nat) : Nat := n / 288

/-- CLU and MMU instance of core n: 16t + c (R48). -/
def coreClu (n : Nat) : Nat := n / 18

/-- Physical core number of core n in its cluster (R48). -/
def coreJ (n : Nat) : Nat := n % 18

/-- Core number n of physical core j of a cluster (R48). -/
def coreOf (clu j : Nat) : Nat := 18 * clu + j

/-- Half of a tile that a cluster lies in (R19). -/
def cluHalf (clu : Nat) : Nat := (clu % 16) / 8

/-- Number of partitions of the current split (R26). -/
def partCount (s : State) : Nat := 2 ^ s.split

/-- The partition that owns half h of tile t (R26). -/
def partOfHalf (s : State) (t h : Nat) : Nat :=
  if s.split = 0 then 0 else if s.split = 1 then t / 2 else if s.split = 2 then t else 2 * t + h

/-- The partition of a cluster. -/
def partOfClu (s : State) (clu : Nat) : Nat := partOfHalf s (clu / 16) (cluHalf clu)

/-- The partition of core n. -/
def partOfCore (s : State) (n : Nat) : Nat := partOfClu s (coreClu n)

/-- The clusters of a partition. -/
def partClus (s : State) (p : Nat) : List Nat := (List.range 64).filter (fun c => partOfClu s c = p)

/-- HBM region r belongs to half (r & 1) of tile r >> 1 (R201). -/
def partOfRegion (s : State) (r : Nat) : Nat := partOfHalf s (r / 2) (r % 2)

/-- The partition of a staging slice, instance 16t + k (R204). -/
def partOfSlice (s : State) (i : Nat) : Nat := partOfHalf s (i / 16) ((i % 16) / 8)

/-- The partition of a COL pipeline or fabric port p: half p & 1 of tile p >> 1 (R23, R24). -/
def partOfPipe (s : State) (k : Nat) : Nat := partOfHalf s (k / 2) (k % 2)

/-- The barrier pipeline of a partition: the lowest-numbered pipeline that R27 gives it (R190). -/
def barrierPipe (s : State) (p : Nat) : Nat := p * (8 / partCount s)

/-- Is the pipeline its partition's barrier pipeline? -/
def isBarrierPipe (s : State) (k : Nat) : Bool := k % (8 / partCount s) = 0

/-- The partition that owns the page of an instance of a LEVEL 1 block (R52). -/
def pageOwner (s : State) (b : Block) (i : Nat) : Nat :=
  match b with
  | .sq | .te | .ve | .xe | .syn => partOfCore s i
  | .clu | .mmu => partOfClu s i
  | .stg => partOfSlice s i
  | .col => partOfPipe s i
  | _ => 0

/-- Does a gong barrier belong to the partition (R27)? Barriers 256 to 319 are the package-wide ones (R152). -/
def gongOwned (s : State) (tile bar p : Nat) : Bool :=
  if bar < 256 then
    if s.split = 3 then decide (partOfHalf s tile (bar / 128) = p) else decide (partOfHalf s tile 0 = p)
  else decide ((bar - 256) / (64 / partCount s) = p) && decide (bar < 320)

/-- Key of a barrier in the gong units: package-wide barriers are in tile 0 (R24). -/
def gongKey (tile bar : Nat) : Nat := if bar < 256 then 512 * tile + bar else bar

/-! ### Units -/

/-- A core. -/
def core (s : State) (n : Nat) : Core := mgetD s.cores n Core.init

/-- Change a core. -/
def modCore (s : State) (n : Nat) (f : Core → Core) : State := { s with cores := mupd s.cores n Core.init f }

/-- A slot of a core. -/
def slot (s : State) (n k : Nat) : Slot := mgetD (core s n).slots k Slot.init

/-- Change a slot. -/
def modSlot (s : State) (n k : Nat) (f : Slot → Slot) : State :=
  modCore s n (fun c => { c with slots := mupd c.slots k Slot.init f })

/-- A physical strand. -/
def strand (s : State) (n i : Nat) : Strand := mgetD (core s n).strands i Strand.init

/-- Change a strand. -/
def modStrand (s : State) (n i : Nat) (f : Strand → Strand) : State :=
  modCore s n (fun c => { c with strands := mupd c.strands i Strand.init f })

/-- A physical stream. -/
def stream (s : State) (n i : Nat) : Stream := mgetD (core s n).streams i Stream.init

/-- Change a stream. -/
def modStream (s : State) (n i : Nat) (f : Stream → Stream) : State :=
  modCore s n (fun c => { c with streams := mupd c.streams i Stream.init f })

/-- A physical sync object. -/
def syncObj (s : State) (n o : Nat) : SyncObj := mgetD (core s n).sync o SyncObj.init

/-- Change a sync object. -/
def modSync (s : State) (n o : Nat) (f : SyncObj → SyncObj) : State :=
  modCore s n (fun c => { c with sync := mupd c.sync o SyncObj.init f })

/-- A cluster. -/
def cluster (s : State) (c : Nat) : Cluster := mgetD s.clusters c Cluster.init

/-- Change a cluster. -/
def modCluster (s : State) (c : Nat) (f : Cluster → Cluster) : State :=
  { s with clusters := mupd s.clusters c Cluster.init f }

/-- The slots of a core that are not FREE. -/
def busySlots (s : State) (n : Nat) : List Nat := (List.range 16).filter (fun k => (slot s n k).st ≠ .free)

/-- The logical number of physical core j of a cluster, 31 when spare or retired (R100). -/
def logicalOf (s : State) (clu j : Nat) : Nat := ((cluster s clu).map.findIdx? (· = j)).getD 31

/-- Is core n enabled: is it in its cluster's map (R20)? -/
def coreEnabled (s : State) (n : Nat) : Bool := decide (n < 1152) && (cluster s (coreClu n)).map.contains (coreJ n)

/-- The enabled cores of a partition. -/
def partCores (s : State) (p : Nat) : List Nat := (List.range 1152).filter (fun n => partOfCore s n = p && coreEnabled s n)

/-- Every slot of the listed cores that is not FREE, as (core, slot). Only cores that the state lists can hold one. -/
def partSlots (s : State) (p : Nat) : List (Nat × Nat) :=
  (s.cores.filter (fun e => partOfCore s e.1 = p)).flatMap (fun e => (busySlots s e.1).map (fun k => (e.1, k)))

/-- Is every context slot of the package empty (R28, R468)? -/
def allSlotsFree (s : State) : Bool := s.cores.all (fun e => (busySlots s e.1).isEmpty)

/-! ### Clocks and stops -/

/-- A thermal site; site c of a cluster, 64 + 4t + q of a base die (R503). -/
def site (s : State) (i : Nat) : Site := mgetD s.thermal.sites i {}

/-- An island by its identifier: core n, 4096 + cluster, 8192 + tile, 12288 + stack, 16384 + port, 20480, 24576 + Carillon
island (R45). -/
def island (s : State) (i : Nat) : Island := mgetD s.islands i {}

/-- Does the cluster network run at half clock (R39, R504)? -/
def clusterHalf (s : State) (c : Nat) : Bool := (site s c).half || (island s (4096 + c)).half

/-- Does the shared island limit power and clocks, because no controller holds the token (R519)? -/
def bothDown (s : State) : Bool := s.carillon.bothDown && s.carillon.token.isNone

/-- The clock cap of a core in sixteenths of the fused clock: the lowest of the fast loop, brake stage 1, the thermal step
and half clock (R39, R498, R499, R504, R505, R519). -/
def coreClock16 (s : State) (n : Nat) : Nat :=
  let x := site s (coreClu n)
  min (min s.fastCap (if s.power.stage1 then 4 else 16))
    (min x.cap (if x.half || (island s n).half || bothDown s then 8 else 16))

/-- Has the C0 power-fail or trip signal stopped the compute islands, or does the package run on VAUX12 alone (R495, R502, R507)? -/
def allStopped0 (s : State) : Bool := s.power.failed || s.thermal.tripped || decide (s.power.st = 3)

/-- Is a core's island stopped: a failed crossing, a hard limit of its region or base die, or a power fail (R39, R502,
R505)? -/
def coreStopped (s : State) (n : Nat) : Bool :=
  s.power.failed || s.thermal.tripped || (island s n).stopped || (island s (4096 + coreClu n)).stopped ||
  (site s (coreClu n)).hard || (List.range 4).any (fun q => (site s (64 + 4 * coreTile n + q)).hard)

/-- Is a cluster-network island stopped: a failed crossing, the hard limit of its region, a power fail, or compute dies
without power (R39, R494, R502, R505)? -/
def clusterStopped (s : State) (c : Nat) : Bool :=
  allStopped0 s || decide (2 ≤ s.power.st) || (island s (4096 + c)).stopped || (site s c).hard

/-- Kind and instance of an island (R45). -/
def islKind (i : Nat) : Nat := i / 4096
def islInst (i : Nat) : Nat := i % 4096

/-- Is an island stopped? Core islands are gated in A1 (R493). In A3 only the Carillon's islands run (R495); a trip stops every
island (R507). -/
def islandStopped (s : State) (i : Nat) : Bool :=
  match islKind i with
  | 0 => coreStopped s (islInst i) || decide (1 ≤ s.power.st)
  | 1 => clusterStopped s (islInst i)
  | 6 => (island s i).stopped || s.thermal.tripped
  | _ => (island s i).stopped || s.thermal.tripped || decide (s.power.st = 3)

/-- Does a Carillon island run at half clock (R39)? -/
def carHalf (s : State) : Bool := (List.range 3).any (fun c => (island s (24576 + c)).half)

/-- Does a base-die island run at half clock: a gradient, a site of it (R504, R505), A2 (R494), or a Carillon island at half
clock, which a whole base-die clock would leave outside 1:4 (R36)? -/
def baseHalf (s : State) (t : Nat) : Bool :=
  (island s (8192 + t)).half || (List.range 4).any (fun q => (site s (64 + 4 * t + q)).half) || decide (s.power.st = 2) || carHalf s

/-- Does an island run at half clock (R39, R494, R504, R505, R519)? -/
def islandHalf (s : State) (i : Nat) : Bool :=
  match islKind i with
  | 0 => (site s (coreClu (islInst i))).half || (island s i).half || bothDown s
  | 1 => clusterHalf s (islInst i)
  | 2 => baseHalf s (islInst i)
  | _ => (island s i).half

/-! ### Bridges (R18, R29, R30, R231) -/

/-- The tiles that a bridge joins (R18): BRG0 T0–T1, BRG1 T1–T3, BRG2 T2–T3, BRG3 T0–T2. -/
def bridgeEnds (b : Nat) : Nat × Nat :=
  if b = 0 then (0, 1) else if b = 1 then (1, 3) else if b = 2 then (2, 3) else (0, 2)

/-- The horizontal bridge of a tile's row, and the vertical one of its column (R17, R18). -/
def rowBridge (t : Nat) : Nat := if t / 2 = 0 then 0 else 2
def colBridge (t : Nat) : Nat := if t % 2 = 0 then 3 else 1

/-- The tile at the other end of a bridge. -/
def acrossBridge (b t : Nat) : Nat := if (bridgeEnds b).1 = t then (bridgeEnds b).2 else (bridgeEnds b).1

/-- The bridges from tile `x` to tile `y` with all in service: between diagonal tiles the horizontal one first (R29). -/
def straightRoute (x y : Nat) : List Nat :=
  (if x % 2 = y % 2 then [] else [rowBridge x]) ++ (if x / 2 = y / 2 then [] else [colBridge y])

/-- The three bridges of the other way round the ring from tile `x`, an end of bridge `b` (R30). -/
def detourRoute (b x : Nat) : List Nat :=
  if (x, acrossBridge b x) = (0, 1) || (x, acrossBridge b x) = (1, 3) || (x, acrossBridge b x) = (3, 2) || (x, acrossBridge b x) = (2, 0)
  then [(b + 3) % 4, (b + 2) % 4, (b + 1) % 4] else [(b + 1) % 4, (b + 2) % 4, (b + 3) % 4]

/-- The bridges that traffic from tile `x` to tile `y` crosses, in order (R29 to R31). With a bridge of its way out of service,
traffic between adjacent tiles takes the three-hop detour, and traffic between diagonal tiles their other two bridges (log entry
59). No bridge is crossed where none leads there. -/
def bridgeRoute (s : State) (x y : Nat) : List Nat :=
  let inService (l : List Nat) : Bool := l.all (fun b => !s.brgOut.contains b)
  let l := straightRoute x y
  if inService l then l
  else
    let o := match l with
      | [b] => detourRoute b x
      | _ => [colBridge x, rowBridge y]
    if inService o then o else []

/-- `n` bytes cross a bridge from tile `t`: BRG_TX_BYTES in direction 0, to the higher tile, BRG_RX_BYTES in direction 1 (R231). -/
def crossBridge (s : State) (b t n : Nat) : State :=
  bumpUnit s .brg b (if t < acrossBridge b t then 0x10C else 0x110) n 4096

/-- `n` bytes travel from tile `x` along a list of bridges; each counts them (R30). -/
def crossAll (s : State) (x n : Nat) : List Nat → State
  | [] => s
  | b :: l => crossAll (crossBridge s b x n) (acrossBridge b x) n l

/-- `n` bytes of data travel from tile `x` to tile `y` (R29, R30, R231). -/
def moveBytes (s : State) (x y n : Nat) : State := if n = 0 then s else crossAll s x n (bridgeRoute s x y)

/-! ### Device memory -/

/-- First DPA of staging SRAM and of local memory (R199). -/
def stgBase : Nat := 0x100000000000
def lmBase : Nat := 0x200000000000

/-- DPA of a core's local memory (R206). -/
def lmDpa (n : Nat) : Nat := lmBase + n * 0x100000

/-- DPA of staging slice 16t + k (R204). -/
def sliceDpa (i : Nat) : Nat := stgBase + (i / 16) * 0x18000000 + (i % 16) * 0x1800000

/-- What a DPA addresses (R199). -/
inductive DpaKind where
  | hbm (region off : Nat)
  | stg (slice off : Nat)
  | lm (core off : Nat)
  | none
deriving DecidableEq, Repr

/-- The memory that a DPA falls in (R199, R201, R204, R206). -/
def dpaKind (d : Nat) : DpaKind :=
  if d < 0xC000000000 then .hbm (d / 0x1800000000) (d % 0x1800000000)
  else if stgBase ≤ d && d < stgBase + 0x60000000 then
    .stg ((d - stgBase) / 0x1800000) ((d - stgBase) % 0x1800000)
  else if lmBase ≤ d && d < lmBase + 0x48000000 then .lm ((d - lmBase) / 0x100000) ((d - lmBase) % 0x100000)
  else .none

/-- Surviving pseudo-channels of a region, 128 when none is retired (R203): HBM_REGION_CFG [15:8] of the lower stack. -/
def regionS (s : State) (r : Nat) : Nat := fld (rget s .hbm (2 * r) 0x144) 15 8

/-- Does a region run in reduced interleave (R203)? -/
def regionReduced (s : State) (r : Nat) : Bool := wbit (rget s .hbm (2 * r) 0x144) 0

/-- Populated bytes of a region (R203). -/
def regionBytes (s : State) (r : Nat) : Nat :=
  if regionReduced s r then regionS s r * 0x30000000 else 0x1800000000

/-- Is a staging slice retired (R223)? -/
def sliceRetired (s : State) (i : Nat) : Bool := wbit (rget s .stg i 0x124) 1

/-- Is a crash dump held, or being collected, so that the dump region is the Carillon's alone (R205, R478)? -/
def dumpClosed (s : State) : Bool := wbit (rget s .dmp 0 0x104) 0 || wbit (rget s .dmp 0 0x104) 1

/-- Is a DPA populated (R200)? -/
def populated (s : State) (d : Nat) : Bool :=
  match dpaKind d with
  | .hbm r o => decide (o < regionBytes s r)
  | .stg i _ => !sliceRetired s i && !(dumpClosed s && decide (d < stgBase + 0x4000000))
  | .lm n _ => coreEnabled s n
  | .none => false

/-- Does a DPA belong to the partition (R239)? -/
def dpaPart (s : State) (d : Nat) : Option Nat :=
  match dpaKind d with
  | .hbm r _ => some (partOfRegion s r)
  | .stg i _ => some (partOfSlice s i)
  | .lm n _ => some (partOfCore s n)
  | .none => none

/-- The tile whose dies hold a DPA. -/
def dpaTile (d : Nat) : Nat :=
  match dpaKind d with
  | .hbm r _ => r / 2
  | .stg i _ => i / 16
  | .lm n _ => coreTile n
  | .none => 0

/-- owned() of R239: populated and of the partition. -/
def owned (s : State) (p d : Nat) : Bool := populated s d && dpaPart s d = some p

/-- owned() of a whole range: the ends and every unit boundary within it that could break ownership (slices,
regions, local memories and the dump region are multiples of 1 MiB). -/
def ownedRange (s : State) (p d len : Nat) : Bool :=
  owned s p d && owned s p (d + len - 1) &&
  (List.range (len / 0x100000)).all (fun i => owned s p (d + i * 0x100000))

/-- The granules (DPA / 64) that a range touches (R210). -/
def granules (d len : Nat) : List Nat :=
  if len = 0 then [] else (List.range ((d + len - 1) / 64 + 1 - d / 64)).map (fun i => d / 64 + i)

/-- The poisoned granules of a range. -/
def poisoned (s : State) (d len : Nat) : List Nat := (granules d len).filter (fun g => mgetD s.poison g false)

/-- Mark a granule poisoned (R217). -/
def poisonGranule (s : State) (g : Nat) : State := { s with poison := mput s.poison g true }

/-- Read bytes of device memory. -/
def readMem (s : State) (d len : Nat) : List Byte := memRead s.mem d len

/-- Write bytes of device memory. A write that covers a whole granule clears its poison mark; a partial one keeps it
(R208, R217). -/
def writeMem (s : State) (d : Nat) (bs : List Byte) : State :=
  let covered := (granules d bs.length).filter (fun g => decide (d ≤ 64 * g) && decide (64 * g + 64 ≤ d + bs.length))
  { s with mem := memWrite s.mem d bs, poison := covered.foldl mdel s.poison }

/-- Zero a range of device memory, poison marks included. -/
def zeroMem (s : State) (d len : Nat) : State :=
  { s with mem := memZero s.mem d len, poison := mfilter s.poison (fun g _ => g < d / 64 || (d + len) / 64 ≤ g) }

/-! ### Windows and sync objects of a slot -/

/-- The word of a slot register: `off` is its offset for slot 0 (R100). -/
def slotReg (s : State) (n k off : Nat) : Word := rget s .sq n (off + 0x40 * k)

/-- ASID, GROUP and PRIO of a slot (R75). -/
def slotAsid (s : State) (n k : Nat) : Nat := fld (slotReg s n k 0x408) 7 0
def slotGroup (s : State) (n k : Nat) : Nat := fld (slotReg s n k 0x408) 15 8

/-- BASE and SIZE of a slot's window in 4 KiB units (R72). -/
def winBase (s : State) (n k : Nat) : Nat := fld (slotReg s n k 0x414) 7 0
def winSize (s : State) (n k : Nat) : Nat := fld (slotReg s n k 0x414) 16 8

/-- Bytes of a slot's window. -/
def winBytes (s : State) (n k : Nat) : Nat := winSize s n k * 4096

/-- DPA of a window offset (R72, R206). -/
def winDpa (s : State) (n k off : Nat) : Nat := lmDpa n + winBase s n k * 4096 + off

/-- A 48-bit address held in two registers. -/
def addr48 (lo hi : Word) : Nat := lo.toNat + (fld hi 15 0) * 2 ^ 32

/-- VA of a slot's rudiment (R75). -/
def rudVa (s : State) (n k : Nat) : Nat := addr48 (slotReg s n k 0x40C) (slotReg s n k 0x410)

/-- VA of a slot's save area (R75). -/
def saveVa (s : State) (n k : Nat) : Nat := addr48 (slotReg s n k 0x41C) (slotReg s n k 0x420)

/-- Note that a context wrote local memory: the last-writer tag of each 4 KiB unit (R78). -/
def tagWriter (s : State) (n off len asid p : Nat) : State :=
  if len = 0 then s else
  modCore s n (fun c => { c with
    lastWriter := (List.range ((off + len - 1) / 4096 + 1 - off / 4096)).foldl
      (fun m i => mput m (off / 4096 + i) (asid, p)) c.lastWriter })

/-- A context's write of its window: bytes and last-writer tag. -/
def writeWin (s : State) (n k off : Nat) (bs : List Byte) : State :=
  tagWriter (writeMem s (winDpa s n k off) bs) n (winBase s n k * 4096 + off) bs.length (slotAsid s n k)
    (partOfCore s n)

/-- Read of a slot's window. -/
def readWin (s : State) (n k off len : Nat) : List Byte := readMem s (winDpa s n k off) len

/-- Write to device memory on behalf of an ASID of a partition; local memory takes the last-writer tag (R78). -/
def writeFor (s : State) (d : Nat) (bs : List Byte) (asid p : Nat) : State :=
  match dpaKind d with
  | .lm n off => tagWriter (writeMem s d bs) n off bs.length asid p
  | _ => writeMem s d bs

/-- Physical sync object of a slot's context-relative object, when in range (R167). -/
def physObj (s : State) (n k i : Nat) : Option Nat :=
  match (slot s n k).blocks[i / 64]? with
  | some b => some (64 * b + i % 64)
  | none => none

/-- The slot that owns a physical sync object and the object's context-relative number. -/
def objOwner (s : State) (n o : Nat) : Option (Nat × Nat) :=
  (List.range 16).findSome? (fun k =>
    let sl := slot s n k
    if sl.st = .free then none else
    (sl.blocks.findIdx? (· = o / 64)).map (fun x => (k, 64 * x + o % 64)))

/-- The state word of a sync object (R168). -/
def syncWord (o : SyncObj) : Nat :=
  o.value ||| (b2n o.event <<< 16) ||| (b2n o.doubleFault <<< 17) ||| (b2n o.double <<< 18) ||| (b2n o.dropped <<< 19)
  ||| (o.pend <<< 24) ||| (o.gphase <<< 26) ||| (b2n o.gkind <<< 28) ||| (b2n o.bound <<< 29) ||| (o.gbar <<< 32)

/-- The sync object that a state word spells (R168). -/
def syncOfWord (w : Nat) : SyncObj :=
  { value := bits w 0 16, event := bit w 16, doubleFault := bit w 17, double := bit w 18, dropped := bit w 19,
    pend := bits w 24 2, gphase := bits w 26 2, gkind := bit w 28, bound := bit w 29, gbar := bits w 32 9 }

/-- The numbers below `n` that are not in a list: the free units of a pool, lowest first. -/
def freeUnits (n : Nat) (used : List Nat) : List Nat := (List.range n).filter (fun i => !used.contains i)

/-- Units of a pool that slots of the core hold. -/
def usedUnits (s : State) (n : Nat) (f : Slot → List Nat) : List Nat :=
  (List.range 16).flatMap (fun k => let sl := slot s n k; if sl.st = .free && !sl.restoring then [] else f sl)

end Sys2Proof.Machine
end

