-- ==== Sys2Proof/Machine/LineCode.lean ====
section
/-!
DEFINITION. The line code of a fabric lane (R296, R297): Clause 91 RS(544,514) over 10-bit symbols. The field polynomial
x¹⁰ + x³ + 1 and the roots α⁰ to α²⁹ of the generator are those of IEEE 802.3 (log entry 65).
-/
namespace Sys2Proof.Machine

/-! ### The field of 1,024 elements -/

/-- Reduce a polynomial of degree 18 or less. -/
def gfReduce (x : Nat) : Nat :=
  (List.range 9).foldl (fun x k => if x.testBit (18 - k) then x ^^^ (0x409 <<< (8 - k)) else x) x

/-- Product. -/
def gfMul (a b : Nat) : Nat :=
  gfReduce ((List.range 10).foldl (fun acc k => if b.testBit k then acc ^^^ (a <<< k) else acc) 0)

/-- Power; `n` is below 1,024. -/
def gfPow (a n : Nat) : Nat :=
  ((List.range 10).foldl (fun (x : Nat × Nat) k => (if n.testBit k then gfMul x.1 x.2 else x.1, gfMul x.2 x.2)) (1, a)).1

/-- The power α^n of the primitive element, and the inverse of a non-zero element. -/
def gfAlpha (n : Nat) : Nat := gfPow 2 (n % 1023)
def gfInv (a : Nat) : Nat := gfPow a 1022

/-- Value at `x` of the polynomial whose coefficients are listed from the constant up. -/
def gfEval (p : List Nat) (x : Nat) : Nat := p.foldr (fun c acc => c ^^^ gfMul acc x) 0

/-! ### The encoder -/

/-- The generator polynomial, with the roots α⁰ to α²⁹; its coefficients from the constant up. -/
def rsGenerator : List Nat :=
  (List.range 30).foldl (fun g j => List.zipWith (· ^^^ ·) (0 :: g) (g.map (gfMul (gfAlpha j)) ++ [0])) [1]

/-- Symbols as one number, the first lowest. -/
def packSyms (l : List Nat) : Nat := l.foldr (fun c acc => c + acc * 1024) 0

/-- `n` symbols of a number, the lowest first. -/
def unpackSyms (x n : Nat) : List Nat := (List.range n).map (fun j => x / 1024 ^ j % 1024)

/-- The lower 30 coefficients of α^b times the generator, for each bit b of a feedback symbol. -/
def rsTaps : List Nat := (List.range 10).map (fun b => packSyms ((rsGenerator.take 30).map (gfMul (2 ^ b))))

/-- One step of the division by the generator: the remainder and the next symbol. -/
def rsStep (taps : List Nat) (r m : Nat) : Nat :=
  let f := m ^^^ (r >>> 290)
  (List.range 10).foldl (fun acc b => if f.testBit b then acc ^^^ (taps.getD b 0) else acc) ((r <<< 10) % 2 ^ 300)

/-- The 30 check symbols of a message, whose first symbol has the highest order. -/
def rsParity (msg : List Nat) : List Nat := (unpackSyms (msg.foldl (rsStep rsTaps) 0) 30).reverse

/-- The codeword of a message of 514 symbols, in the order in which it is sent. -/
def rsEncode (msg : List Nat) : List Nat := msg ++ rsParity msg

/-! ### The decoder -/

/-- The 30 syndromes of a received word of 544 symbols. -/
def rsSyndromes (r : List Nat) : List Nat := (List.range 30).map (fun j => gfEval r.reverse (gfAlpha j))

/-- State of the search for the error locator: the locator, the last one before a change of length, its discrepancy, the
length and the distance since. -/
structure RsLocate where
  loc : List Nat
  old : List Nat
  disc : Nat
  len : Nat
  gap : Nat
deriving DecidableEq, Repr

/-- Sum of two polynomials. -/
def polyAdd (a b : List Nat) : List Nat :=
  (List.range (max a.length b.length)).map (fun i => a.getD i 0 ^^^ b.getD i 0)

/-- One step of the Berlekamp-Massey search with syndrome `n`. -/
def rsLocateStep (syn : List Nat) (st : RsLocate) (n : Nat) : RsLocate :=
  let d := (List.range (st.len + 1)).foldl (fun acc i => acc ^^^ gfMul (st.loc.getD i 0) (syn.getD (n - i) 0)) 0
  if d = 0 then { st with gap := st.gap + 1 }
  else
    let c := gfMul d (gfInv st.disc)
    let loc := polyAdd st.loc (List.replicate st.gap 0 ++ st.old.map (gfMul c))
    if 2 * st.len ≤ n then ⟨loc, st.loc, d, n + 1 - st.len, 1⟩ else { st with loc := loc, gap := st.gap + 1 }

/-- The error locator, and the number of errors that it stands for. -/
def rsLocator (syn : List Nat) : List Nat × Nat :=
  let st := (List.range 30).foldl (rsLocateStep syn) ⟨[1], [1], 1, 0, 1⟩
  (st.loc, st.len)

/-- The orders, 0 to 543, of the symbols in error. -/
def rsPlaces (loc : List Nat) : List Nat := (List.range 544).filter (fun i => gfEval loc (gfAlpha (1023 - i)) = 0)

/-- The value that an error adds to the symbol of order `i`. -/
def rsMagnitude (syn loc : List Nat) (i : Nat) : Nat :=
  let x := gfAlpha (1023 - i)
  let omega := (List.range 30).map (fun n =>
    (List.range (n + 1)).foldl (fun acc j => acc ^^^ gfMul (loc.getD j 0) (syn.getD (n - j) 0)) 0)
  let odd := (List.range loc.length).map (fun j => if j % 2 = 1 then loc.getD j 0 else 0)
  gfMul (gfMul (gfAlpha i) (gfEval omega x)) (gfInv (gfMul (gfEval odd x) (gfAlpha i)))

/-- The message of a received word, up to 15 symbols of it corrected; none when it is uncorrectable. -/
def rsDecode (r : List Nat) : Option (List Nat) :=
  if r.length ≠ 544 then none
  else if rsParity (r.take 514) = r.drop 514 then some (r.take 514)
  else
    let syn := rsSyndromes r
    let (loc, len) := rsLocator syn
    let places := rsPlaces loc
    if 15 < len || places.length ≠ len then none
    else
      let fixed := (List.range 544).map (fun k =>
        let i := 543 - k
        if places.contains i then r.getD k 0 ^^^ rsMagnitude syn loc i else r.getD k 0)
      if rsParity (fixed.take 514) = fixed.drop 514 then some (fixed.take 514) else none

/-! ### The message of a codeword (R297) -/

/-- The 514 symbols of a marker and a flit: the marker first, then the bytes in ascending order, each from its least significant
bit. -/
def lineMessage (lane counter : Nat) (flit : List Byte) : List Nat :=
  unpackSyms (lane % 32 + counter % 2 ^ 15 * 32 + leNat flit * 2 ^ 20) 514

/-- The flit of a message. -/
def lineFlit (msg : List Nat) : List Byte := leBytes (packSyms msg / 2 ^ 20) 640

/-- The codeword of a flit on a lane. -/
def lineCodeword (lane counter : Nat) (flit : List Byte) : List Nat := rsEncode (lineMessage lane counter flit)

end Sys2Proof.Machine
end

