-- ==== Sys2Proof/Machine/Flags.lean ====
section
/-!
DEFINITION. Error and interrupt flags of the register pages: recording (R62, R63), escalation (R64, R472),
interrupts (R67, R68), events (R525, R526), and the power-cycle request (R469).
-/
namespace Sys2Proof.Machine

/-- INT_STATUS with its ERR bit, the OR of ERR_STATUS & ~ERR_MASK (R51). -/
def intStatus (s : State) (pg : Nat) : Word :=
  setBit (regGet s (pg + 0x40)) 0 ((regGet s (pg + 0x20) &&& ~~~(regGet s (pg + 0x24))) != 0)

/-- Is an enabled interrupt bit set on a page (R67)? -/
def intPending (s : State) (pg : Nat) : Bool := (intStatus s pg &&& regGet s (pg + 0x44)) != 0

/-- Is VF p usable (R271)? -/
def vfUsable (s : State) (p : Nat) : Bool :=
  s.host.vfEnable && decide (p + 1 ≤ s.host.numVfs) && decide (p < partCount s)

/-- MSI-X function number: 0 PF, p + 1 VF p. -/
def ownerFunc (s : State) (p : Nat) : Nat := if vfUsable s p then p + 1 else 0

/-- MSI-X table size of a function (R276). -/
def msixSize (f : Nat) : Nat := if f = 0 then 2048 else 256

/-- The MSI-X entry of a vector. -/
def msixEnt (s : State) (f v : Nat) : MsixEnt := mgetD s.host.msix (f * 2048 + v) {}

/-- Can a vector of a function be delivered: present and not masked (R68, R276)? With MSI-X Enable 0 or the host link down none can
(DESIGN CHOICE, log entry 68). -/
def msixOk (s : State) (f v : Nat) : Bool :=
  decide (v < msixSize f) && !(msixEnt s f v).masked && mgetD s.host.msixEnable f false && s.host.up

/-- Send the MSI-X message of a vector. -/
def msixSend (s : State) (f v : Nat) : State :=
  emit s (.msi f v (msixEnt s f v).addr (msixEnt s f v).data)

/-- LOST_BEFORE on the next record that is delivered: the oldest of the queue (R526). -/
def markLost : List Event → List Event
  | [] => []
  | e :: t => { e with lostBefore := true } :: t

/-- The event queue takes a record (R526): 64 records; when full, one of ERR_SEVERITY 1 or KIND 4 replaces the newest
of ERR_SEVERITY 0, and another is discarded and counted. -/
def queueEvent (s : State) (e : Event) : State :=
  let e := { e with id := s.evCount % 65536, lostBefore := false }
  let s := { s with evCount := s.evCount + 1 }
  if s.evq.length < 64 then { s with evq := s.evq ++ [e] }
  else
    let strong := e.unc || e.kind = 4
    let s := bump s .car 0 0x124 1
    if strong && s.evq.any (fun x => !x.unc && x.kind ≠ 4) then
      { s with evq := markLost ((eraseFirst (fun x => !x.unc && x.kind ≠ 4) s.evq.reverse).reverse ++ [e]) }
    else { s with evq := markLost s.evq }

/-- ERR_FIRST as an error would write it (R51). -/
def errFirstWord (bitNo : Nat) (sev inj : Bool) (sub det : Nat) : Word :=
  packFields [(0, bitNo), (5, b2n sev), (6, b2n inj), (8, sub % 256), (16, det % 32768), (31, 1)]

/-- The page of a block instance that a partition under reset owns holds its messages to the VF (R68). -/
def pageHeldFor (s : State) (pg : Nat) : Option Nat :=
  match pageOf pg with
  | some (b, i, _) => if blockLevel b = 1 && (mget s.partReset (pageOwner s b i)).isSome then some (pageOwner s b i) else none
  | none => none

/-- ERR_FIRST and ERR_CTAG of the first recorded error, or one more in ERR_COUNT, whose bit 31 says that it ran over (R51,
R62). -/
def noteFirst (s : State) (pg : Nat) (word ctag : Word) : State :=
  if wbit (regGet s (pg + 0x30)) 31 then
    let c := regGet s (pg + 0x34)
    regSet s (pg + 0x34) (if fld c 15 0 = 0xFFFF then setBit c 31 true else setFld c 15 0 (fld c 15 0 + 1))
  else regSet (regSet s (pg + 0x30) word) (pg + 0x38) ctag

/-- The event record of an error on a page (R525); POWER_CYCLE_REQ has KIND 4 (R469). -/
def errEvent (s : State) (pg bitNo : Nat) (word ctag : Word) (sev : Bool) (det : Nat) : Event :=
  let id := match pageOf pg with
    | some (b, i, _) => blockCode b * 65536 + i
    | none => 0
  { pageId := id, errFirst := word, ctag := ctag, time := s.us, kind := if pg = page .hng 0 && bitNo = 7 then 4 else 1
    code := bitNo, unc := sev, detail := det }

/-- A page's message goes to a vector of a function; `bad` is what a message that cannot be delivered does (R68). -/
def msixOr (s : State) (f v : Nat) (bad : State → State) : State := if msixOk s f v then msixSend s f v else bad s

/-- A page sends its interrupt message where INT_ROUTE says (R67, R68): 0 the PF, 1 the owning VF, whose messages wait while its
partition is under reset, 2 the Carillon, 3 the Carillon and the PF. -/
def intMessage (s : State) (pg : Nat) (bad : State → State) : State :=
  let route := regGet s (pg + 0x48)
  let vec := fld route 10 0
  let tgt := fld route 13 12
  if tgt = 0 then msixOr s 0 vec bad
  else if tgt = 2 then emit s (.carillonInt pg)
  else if tgt = 3 then msixOr (emit s (.carillonInt pg)) 0 vec bad
  else
    let al := regGet s (pg + 0x50)
    if fld al 1 0 ≠ 1 then bad s
    else match pageHeldFor s pg with
      | some p => { s with heldInts := s.heldInts ++ [(p, pg)] }
      | none => if vfUsable s (fld al 11 8) then msixOr s (fld al 11 8 + 1) vec bad else bad s

/-- Record an error on a page and raise the page's interrupt (R62, R67, R68, R525). A full event queue is recorded on the CAR
page and an undeliverable message, which goes to the Carillon, on the PCE page; the fuel bounds these. -/
def recordOn : Nat → State → Nat → Nat → Bool → Bool → Nat → Nat → Word → State
  | 0, s, _, _, _, _, _, _, _ => s
  | fuel + 1, s, pg, bitNo, event, inj, sub, det, ctag =>
    let before := intPending s pg
    let s := regSet s (pg + 0x20) (regGet s (pg + 0x20) ||| bitw bitNo)
    if wbit (regGet s (pg + 0x24)) bitNo then s
    else
      let sev := wbit (regGet s (pg + 0x28)) bitNo
      let word := errFirstWord bitNo sev inj sub det
      let s := noteFirst s pg word ctag
      let s :=
        if sev || event then
          let lost := s.evq.length = 64
          let s := queueEvent s (errEvent s pg bitNo word ctag sev det)
          if lost && !s.evOverflow then
            recordOn fuel { s with evOverflow := true } (page .car 0) eCarEvqOverflow.bit false false 0
              ((rget s .car 0 0x124).toNat) 0xFFFFFFFF
          else s
        else s
      if !before && intPending s pg then
        intMessage s pg (fun s =>
          recordOn fuel (emit s (.carillonInt pg)) (page .pce 0) eIntRouteBad.bit false false 0 (pg / 4096) 0xFFFFFFFF)
      else s

/-- Send a page's interrupt message again: the enabled status is still non-zero (R67). -/
def sendInt (s : State) (pg : Nat) : State :=
  intMessage s pg (fun s =>
    recordOn 3 (emit s (.carillonInt pg)) (page .pce 0) eIntRouteBad.bit false false 0 (pg / 4096) 0xFFFFFFFF)

/-- Set an INT_STATUS bit of a page, with the message of R67. -/
def raiseInt (s : State) (b : Block) (i bitNo : Nat) : State :=
  let pg := page b i
  let before := intPending s pg
  let s := regSet s (pg + 0x40) (regGet s (pg + 0x40) ||| bitw bitNo)
  if !before && intPending s pg then sendInt s pg else s

/-- Request a partition reset (R462). A request that is already there keeps its cause. -/
def requestPart (s : State) (p cause : Nat) (escalated scrub : Bool) (pg : Nat) : State :=
  { s with
    reqPart := mupd s.reqPart p ⟨cause, escalated, scrub, pg⟩ (fun r => { r with escalated := r.escalated || escalated, scrub := r.scrub || scrub }) }

/-- Request a chip reset (R462). -/
def requestChip (s : State) (cause : Nat) (escalated : Bool) (pg : Nat) : State :=
  let s := rset s .pce 0 0x114 (setBit (rget s .pce 0 0x114) 8 true)
  match s.reqChip with
  | some r => { s with reqChip := some { r with escalated := r.escalated || escalated } }
  | none => { s with reqChip := some ⟨cause, escalated, false, pg⟩ }

/-- Request an engine reset of an engine of a core: 0 SQ, 1 TE, 2 VE, 3 XE (R462). -/
def requestEng (s : State) (n e cause : Nat) : State :=
  modCore s n (fun c => { c with
    engReset := c.engReset ||| (1 <<< e), engCause := cause, engUs := if c.engReset = 0 then s.us else c.engUs })

/-- The codes that a failure of the hardware raises, not a program (R472). -/
def hardwareCodes : List ErrCode :=
  [eSqBufferEcc, eTeAccEccCorr, eTeAccEccUncorr, eVeRegEccCorr, eVeRegEccUncorr, eXeBufferEcc, eSynStateEccCorr,
    eSynStateEccUncorr, eGngStateEcc, eHbmCorr, eHbmUncorr, eHbmRowFailed, eHbmPcFailed, eHbmCaParity, eStgCorr, eStgUncorr,
    eStgRowSpared, eStgSliceFailed, eBrgReplay, eBrgLaneSpared, eBrgRetired, eLmEccCorr, eLmEccUncorr, eMmuTlbParity]

/-- Is an error of the code an uncorrected hardware error: ERR_SEVERITY of its page says so (R51, R64, R472)? -/
def hardwareError (s : State) (e : ErrCode) (i : Nat) : Bool :=
  wbit (rget s e.blk i 0x28) e.bit && hardwareCodes.contains e

/-- One rung up from the recovery that runs in the unit (R472): none when the unit is not under recovery. -/
def escalateUnit (s : State) (e : ErrCode) (i : Nat) : State :=
  let note (s : State) (p : Nat) : State :=
    recordOn 4 s (page .hng 0) eRecoveryEscalated.bit true false p (blockCode e.blk) 0xFFFFFFFF
  let p := pageOwner s e.blk i
  if !hardwareError s e i || s.chipReset.isSome then s
  else if blockLevel e.blk = 1 && (mget s.partReset p).isSome then requestChip (note s p) 6 true (page e.blk i)
  else
    let eng := match e.blk with
      | .sq => some 0 | .te => some 1 | .ve => some 2 | .xe => some 3 | _ => none
    match eng with
    | some k =>
      if bit (core s i).engReset k then requestPart (note s p) p 6 true false (page e.blk i)
      else if (busySlots s i).any (fun j => (slot s i j).ending.isSome) then requestEng (note s p) i k 6
      else s
    | none => s

/-- The reset wider than a context reset that the recovery of a code performs, whatever the error met (R102, R488, R513, R46): an
injected error requests it too (R66). An injected code names partition 0, as SUBUNIT = 0. -/
def codeReset (s : State) (e : ErrCode) (i : Nat) : State :=
  if s.chipReset.isSome then s
  else if e = eXeBufferEcc then requestEng s i 3 5
  else if e = eEngResetTimeout then requestPart s 0 6 true false (page .hng 0)
  else if e = ePartResetTimeout || e = eBridgeSplit || e = ePwrStateFail then requestChip s 6 true (page e.blk i)
  else s

/-- Record a detected error of a code on the page of an instance, and escalate when the unit is under recovery
(R62, R64, R472). -/
def recErr (s : State) (e : ErrCode) (i sub det : Nat) (ctag : Word) : State :=
  escalateUnit (recordOn 4 s (page e.blk i) e.bit e.event false sub det ctag) e i

/-- No context concerned. -/
def noCtag : Word := 0xFFFFFFFF

/-- Send a state event (R525): KIND 2, the event number in CODE [15:8]. -/
def stateEvent (s : State) (b : Block) (i num detail : Nat) : State :=
  queueEvent s { pageId := blockCode b * 65536 + i, time := s.us, kind := 2, code := num * 256, detail := detail }

/-- Ask the tray controller for a power cycle: POWER_CYCLE_REQ, its KIND 4 event and ALERT_N (R469). Causes: 1 boot
failed, 2 chip reset failed, 3 host link failed, 4 scan opened, 5 lifecycle transition, 6 THERMTRIP (log entry 6). -/
def powerCycleReq (s : State) (cause : Nat) : State :=
  recordOn 4 s (page .hng 0) ePowerCycleReq.bit true false 0 cause noCtag

end Sys2Proof.Machine
end

