-- ==== Sys2Proof/Machine/MemErr.lean ====
section
/-!
DEFINITION. Error correction and retirement of HBM, staging SRAM and local memory (R201 to R203, R214 to R223).
-/
namespace Sys2Proof.Machine

/-- 24 hours in microseconds: the sliding window of R219. -/
def dayUs : Nat := 86400000000

/-- Is an event inside the last `w` microseconds? -/
def within (s : State) (w t : Nat) : Bool := decide (s.us - t < w) || decide (s.us ≤ t)

/-- Is pseudo-channel `pc` of a stack retired (R221)? -/
def pcRetired (s : State) (stack pc : Nat) : Bool :=
  wbit (rget s .hbm stack (if pc < 32 then 0x110 else 0x114)) (pc % 32)

/-- The surviving pseudo-channels of a region in ascending order of stack and pseudo-channel (R203). -/
def survivors (s : State) (r : Nat) : List Nat :=
  (List.range 128).filter (fun i => !pcRetired s (2 * r + i / 64) (i % 64))

/-- The pseudo-channel index in the region and the local address of offset `o` of region `r` (R202, R203). -/
def hbmLoc (s : State) (r o : Nat) : Nat × Nat :=
  let g := o / 256
  if regionReduced s r then
    let sv := survivors s r
    (sv.getD (g % max 1 sv.length) 0, (g / max 1 sv.length) * 256 + o % 256)
  else
    ((g % 128) ^^^ ((g / 128) % 128) ^^^ ((g / 16384) % 128), (g / 128) * 256 + o % 256)

/-- The region offset of a local address of pseudo-channel index `idx` (the inverse of `hbmLoc`). -/
def hbmOff (s : State) (r idx loc : Nat) : Nat :=
  let q := loc / 256
  if regionReduced s r then
    let sv := survivors s r
    (q * sv.length + (sv.findIdx? (· = idx)).getD 0) * 256 + loc % 256
  else (q * 128 + (idx ^^^ (q % 128) ^^^ ((q / 128) % 128))) * 256 + loc % 256

/-- The 64 KiB pages that hold a row of a pseudo-channel (R202, R219): their DPAs, each once. -/
def rowPages (s : State) (stack pc row : Nat) : List Nat :=
  let r := stack / 2
  let idx := (stack % 2) * 64 + pc
  ((List.range 4).map (fun i => r * 0x1800000000 + hbmOff s r idx (row * 1024 + i * 256) / 65536 * 65536)).eraseDups

/-- The pages to list for a row: in full interleave both pages of the row's aligned 128 KiB block (R219). -/
def retirePages (s : State) (stack pc row : Nat) : List Nat :=
  let r := stack / 2
  if regionReduced s r then rowPages s stack pc row
  else [r * 0x1800000000 + row * 0x20000, r * 0x1800000000 + row * 0x20000 + 0x10000]

/-- Entries of a stack's page list as DPAs (R220, R230). -/
def pageList (s : State) (stack : Nat) : List Nat :=
  (List.range (fld (rget s .hbm stack 0x14C) 6 0)).map (fun i =>
    (fld (rget s .hbm stack (0x200 + 8 * i)) 31 16) * 65536 + (fld (rget s .hbm stack (0x204 + 8 * i)) 15 0) * 2 ^ 32)

/-- Does a 64 KiB page hold a poisoned granule? -/
def pagePoisoned (s : State) (d : Nat) : Bool := s.poison.any (fun e => e.2 && decide (e.1 / 1024 = d / 65536))

/-- Write the page list of a stack; UNCORR of an entry is shown at the read. -/
def setPageList (s : State) (stack : Nat) (l : List Nat) : State :=
  let s := (List.range 64).foldl (fun s i =>
    match l[i]? with
    | some d =>
      let s := rset s .hbm stack (0x200 + 8 * i) (wd ((bits d 16 16) * 65536 + 1))
      rset s .hbm stack (0x204 + 8 * i) (wd (bits d 32 16))
    | none => rset (rset s .hbm stack (0x200 + 8 * i) 0) .hbm stack (0x204 + 8 * i) 0) s
  rset s .hbm stack 0x14C (wd (min 64 l.length))

/-- A pseudo-channel becomes permanent: pending, HBM_PC_FAILED (R221). One that no longer answers escalates the owning
partition to partition reset at once. -/
def pcPermanent (s : State) (stack pc : Nat) (dead : Bool) : State :=
  let off := if pc < 32 then 0x118 else 0x11C
  if wbit (rget s .hbm stack off) (pc % 32) && !dead then s else
  let s := rset s .hbm stack off (rget s .hbm stack off ||| bitw (pc % 32))
  let s := recErr s eHbmPcFailed stack pc 0 noCtag
  if dead then
    requestPart { s with pcDead := (stack, pc) :: s.pcDead } (partOfRegion s (stack / 2)) 6 true false (page .hbm stack)
  else s

/-- A row becomes permanent: both pages of its block join the page list with INT_STATUS.RPAGE_ADDED and a PLDM event,
the row is queued for hard repair, and 16 rows in 24 h or a full list make the pseudo-channel permanent
(R219 to R221). -/
def rowPermanent (s : State) (stack pc row : Nat) : State :=
  if s.rowPgs.any (fun e => e.1 = stack && e.2.1 = pc && e.2.2.1 = row) then s else
  let s := { s with
    rowsPerm := s.rowsPerm ++ [(stack, pc, row, s.us)]
    rowPgs := s.rowPgs ++ [(stack, pc, row, retirePages s stack pc row)] }
  let s := recErr s eHbmRowFailed stack pc row noCtag
  let s := { s with pprQueue := s.pprQueue ++ [(stack, pc, row)] }
  let s := rset s .hbm stack 0x138 (wd (s.pprQueue.filter (fun e => e.1 = stack)).length)
  let new := (retirePages s stack pc row).filter (fun d => !(pageList s stack).contains d)
  let s :=
    if new.isEmpty then s
    else if 64 ≤ (pageList s stack).length then
      pcPermanent (recErr s eHbmPageListFull stack pc 0 noCtag) stack pc false
    else (new.take (64 - (pageList s stack).length)).foldl (fun s d =>
      stateEvent (raiseInt (setPageList s stack (pageList s stack ++ [d])) .hbm stack 1) .hbm stack 1 (d / 65536)) s
  if (s.rowsPerm.filter (fun e => e.1 = stack && e.2.1 = pc && within s dayUs e.2.2.2)).length ≥ 16 then
    pcPermanent s stack pc false
  else s

/-- HBM_LAST_ERR for an error at a DPA (R230). -/
def setHbmLast (s : State) (stack pc d : Nat) (unc : Bool) : State :=
  rset (rset s .hbm stack 0x130 (wd d)) .hbm stack 0x134 (packFields [(0, bits d 32 16), (16, pc), (24, b2n unc)])

/-- Bank of a staging slice offset, and row in the bank (R204, R223). -/
def stgBank (off : Nat) : Nat := (off / 64) % 16
def stgRow (off : Nat) : Nat := off / 1024 / 16

/-- The physical row that serves a row of a bank: itself, or the spare that has taken its place, numbered from 1,536 (R223). -/
def stgPhys (s : State) (i bank row : Nat) : Nat :=
  match s.stgSubst.find? (fun e => e.1 = i && e.2.1 = bank && e.2.2.1 = row) with
  | some e => 1536 + e.2.2.2
  | none => row

/-- A staging row becomes permanent: a spare row takes its place, one that has a spare takes a further one, or the slice is
marked pending (R223). A row that has none left and gains an uncorrectable granule asks for the partition reset at once. -/
def stgRowPermanent (s : State) (i bank row : Nat) (uncorr : Bool) : State :=
  let ph := stgPhys s i bank row
  let used := mgetD s.stgSpares (16 * i + bank) 0
  if s.stgRowsPerm.contains (i, bank, ph) then
    if uncorr && !sliceRetired s i then requestPart s (partOfSlice s i) 6 true false (page .stg i) else s
  else
  let s := { s with stgRowsPerm := s.stgRowsPerm ++ [(i, bank, ph)] }
  if used < 32 then
    recErr { s with
      stgSpares := mput s.stgSpares (16 * i + bank) (used + 1)
      stgSubst := (i, bank, row, used) :: s.stgSubst.filter (fun e => !(e.1 = i && e.2.1 = bank && e.2.2.1 = row)) }
      eStgRowSpared i bank row noCtag
  else
    let s := rset s .stg i 0x124 (setBit (rget s .stg i 0x124) 0 true)
    let s := recErr s eStgSliceFailed i bank 0 noCtag
    if uncorr then requestPart s (partOfSlice s i) 6 true false (page .stg i) else s

/-- Bank of a core's local-memory offset (R71). -/
def lmBank (off : Nat) : Nat := (off / 64) % 64

/-- A core becomes permanent in operation: it is marked pending and runs on until its partition's reset (R376). -/
def corePending (s : State) (n : Nat) : State :=
  if (core s n).retirePending then s else modCore s n (fun c => { c with retirePending := true })

/-- Note an uncorrectable error of a unit of a core (kind, unit) and answer whether an earlier one of the same unit
lies within 10 ms (R102, R198, R223). -/
def noteEcc (s : State) (n kind unit : Nat) : State × Bool :=
  let again := (core s n).eccTimes.any (fun e => e.1 = kind && e.2.1 = unit && within s 10001 e.2.2)
  (modCore s n (fun c => { c with eccTimes := (kind, unit, s.us) :: c.eccTimes }), again)

/-- A read finds a correctable error at a DPA; `permanent` when the re-read still shows it (R216, R219, R223). -/
def memCorr (s : State) (d : Nat) (permanent : Bool) : State :=
  match dpaKind d with
  | .hbm r o =>
    let (idx, loc) := hbmLoc s r o
    let stack := 2 * r + idx / 64
    let pc := idx % 64
    let row := loc / 1024
    let s := recErr (bump (setHbmLast s stack pc d false) .hbm stack 0x128 1) eHbmCorr stack pc 0 noCtag
    let s := { s with rowErrs := s.rowErrs ++ [(stack, pc, row, s.us)] }
    let cnt := (s.rowErrs.filter (fun e => e.1 = stack && e.2.1 = pc && e.2.2.1 = row && within s dayUs e.2.2.2)).length
    if permanent || cnt ≥ 4 then rowPermanent s stack pc row else s
  | .stg i o =>
    let s := rset s .stg i 0x120 (wd o)
    let s := recErr (bump s .stg i 0x110 1) eStgCorr i (stgBank o) 0 noCtag
    let ph := stgPhys s i (stgBank o) (stgRow o)
    let s := { s with stgErrs := s.stgErrs ++ [(i, stgBank o, ph, s.us)] }
    let cnt := (s.stgErrs.filter (fun e => e.1 = i && e.2.1 = stgBank o && e.2.2.1 = ph && within s dayUs e.2.2.2)).length
    if permanent || cnt ≥ 4 then stgRowPermanent s i (stgBank o) (stgRow o) false else s
  | .lm n o =>
    let s := recErr s eLmEccCorr (coreClu n) (coreJ n) (lmBank o) noCtag
    if permanent then corePending s n else s
  | .none => s

/-- A read finds an uncorrectable error for the first time: the granule is poisoned, the memory's page records it with
the reader's CTAG, and the row becomes permanent (R217, R219, R223). -/
def memUncorr (s : State) (d : Nat) (ctag : Word) : State :=
  let s := poisonGranule s (d / 64)
  match dpaKind d with
  | .hbm r o =>
    let (idx, loc) := hbmLoc s r o
    let stack := 2 * r + idx / 64
    let pc := idx % 64
    let s := recErr (bump (setHbmLast s stack pc d true) .hbm stack 0x12C 1) eHbmUncorr stack pc 0 ctag
    rowPermanent s stack pc (loc / 1024)
  | .stg i o =>
    let s := rset s .stg i 0x120 (setBit (wd o) 31 true)
    let s := recErr (bump s .stg i 0x114 1) eStgUncorr i (stgBank o) 0 ctag
    stgRowPermanent s i (stgBank o) (stgRow o) true
  | .lm n o =>
    let s := recErr s eLmEccUncorr (coreClu n) (coreJ n) (lmBank o) ctag
    let (s, again) := noteEcc s n 0 (lmBank o)
    if again then corePending s n else s
  | .none => s

/-- A read meets a granule that is already poisoned (R217, R223). -/
def memPoisonRead (s : State) (d : Nat) (ctag : Word) : State :=
  match dpaKind d with
  | .hbm r o =>
    let (idx, _) := hbmLoc s r o
    recErr s eHbmPoisonRead (2 * r + idx / 64) (idx % 64) 0 ctag
  | .stg i o => recErr s eStgPoisonRead i (stgBank o) 0 ctag
  | .lm n o => recErr s eLmEccUncorr (coreClu n) (coreJ n) (lmBank o + 64) ctag
  | .none => s

/-- ERR of R460 for the error that a poisoned read recorded: [15:8] the bit, [7:0] the page's type code. -/
def poisonErr (d : Nat) (first : Bool) : Nat :=
  match dpaKind d with
  | .hbm _ _ => (if first then eHbmUncorr.bit else eHbmPoisonRead.bit) * 256 + blockCode .hbm
  | .stg _ _ => (if first then eStgUncorr.bit else eStgPoisonRead.bit) * 256 + blockCode .stg
  | _ => eLmEccUncorr.bit * 256 + blockCode .clu

/-- Is a read of a granule served as poisoned because its pseudo-channel no longer answers (R221)? -/
def deadGranule (s : State) (d : Nat) : Bool :=
  match dpaKind d with
  | .hbm r o => let (idx, _) := hbmLoc s r o; s.pcDead.contains (2 * r + idx / 64, idx % 64)
  | _ => false

/-- The finding that is left for a command that has read `k` granules. -/
def eccAfter (e : Ecc) (k : Nat) : Ecc :=
  match e with
  | .memCorr g => if g < k then .none else .memCorr (g - k)
  | .memPermanent g => if g < k then .none else .memPermanent (g - k)
  | .memUncorr g => if g < k then .none else .memUncorr (g - k)
  | e => e

/-- The finding of a second read that starts over, when the first one read `k` granules. -/
def eccBeyond (e : Ecc) (k : Nat) : Ecc :=
  match e with
  | .memCorr g => if g < k then .none else e
  | .memPermanent g => if g < k then .none else e
  | .memUncorr g => if g < k then .none else e
  | e => e

/-- Check a read of [d, d + len) for a reader: what the code finds now, then every poisoned granule, each one error.
Answers the state, and ERR of R460 when the data is poisoned (R217). -/
def checkRead (s : State) (d len : Nat) (ecc : Ecc) (ctag : Word) : State × Option Nat :=
  let gs := granules d len
  let pre := gs.filter (fun g => mgetD s.poison g false || deadGranule s (64 * g))
  let fresh : Option Nat := match ecc with
    | .memUncorr g => (gs[g]?).filter (fun x => !pre.contains x)
    | _ => none
  let s := match ecc with
    | .memCorr g => (match gs[g]? with | some x => memCorr s (64 * x) false | none => s)
    | .memPermanent g => (match gs[g]? with | some x => memCorr s (64 * x) true | none => s)
    | _ => s
  let s := match fresh with | some x => memUncorr s (64 * x) ctag | none => s
  let s := pre.foldl (fun s g => memPoisonRead s (64 * g) ctag) s
  (s, match fresh with
    | some x => some (poisonErr (64 * x) true)
    | none => if pre.isEmpty then none else some (poisonErr (64 * pre.headD 0) false))

/-- Are the accesses to a DPA refused for want of a key (R226): an encrypted region after an ERASE? -/
def keyAbsent (s : State) (d : Nat) : Bool :=
  match dpaKind d with
  | .hbm r _ => s.keysErased && wbit (rget s .hbm (2 * r) 0x140) 0
  | _ => false

/-- MEM_KEY_ABSENT for an access with the requester's CTAG, on the stack and pseudo-channel of the DPA (R226, R228, R232). -/
def noteKeyAbsent (s : State) (d : Nat) (ctag : Word) : State :=
  match dpaKind d with
  | .hbm r o => let (idx, _) := hbmLoc s r o; recErr s eMemKeyAbsent (2 * r + idx / 64) (idx % 64) 0 ctag
  | _ => s

/-- The bytes that a reader of device memory gets: zeros from a region without its key (R226). -/
def readData (s : State) (d len : Nat) (ctag : Word) : State × List Byte :=
  if keyAbsent s d then (noteKeyAbsent s d ctag, List.replicate len 0) else (s, readMem s d len)

/-- The granules of a write that are served: those of a pseudo-channel that no longer answers are discarded (R221). -/
def writeLive (s : State) (d : Nat) (bs : List Byte) (asid p : Nat) : State :=
  (granules d bs.length).foldl (fun s g =>
    let lo := max d (64 * g)
    let hi := min (d + bs.length) (64 * g + 64)
    if deadGranule s (64 * g) then s else writeFor s lo ((bs.drop (lo - d)).take (hi - lo)) asid p) s

/-- A write of device memory: discarded in a region without its key (R226) or in a pseudo-channel that no longer
answers (R221). -/
def writeData (s : State) (d : Nat) (bs : List Byte) (ctag : Word) (asid p : Nat) : State :=
  if keyAbsent s d then noteKeyAbsent s d ctag
  else if s.pcDead.isEmpty then writeFor s d bs asid p
  else writeLive s d bs asid p

end Sys2Proof.Machine
end

