-- ==== Sys2Proof/Machine/Translate.lean ====
section
/-!
DEFINITION. Translation of a VA by the cluster MMU (R233 to R244): micro-TLB, TLB, walk cache and table walk.
-/
namespace Sys2Proof.Machine

/-- Access kinds by their ACCESS code (R244, R252). -/
def accRead : Nat := 0
def accWrite : Nat := 1
def accImage : Nat := 2
def accSaveWrite : Nat := 3
def accRestoreRead : Nat := 4
def accRemoteWrite : Nat := 5
def accRemoteRead : Nat := 6
def accRemoteRmw : Nat := 7
def accRemoteSignal : Nat := 8

/-- Fault types (R248). -/
def ftNotPresent : Nat := 1
def ftPermission : Nat := 2
def ftMalformed : Nat := 3
def ftBounds : Nat := 4
def ftAsidInvalid : Nat := 5
def ftWalkPoison : Nat := 6
def ftVaRange : Nat := 7
def ftKey : Nat := 8

/-- permits() of R239: the leaf bits that an access kind requires (R244). -/
def leafPermits (e acc : Nat) : Bool :=
  let r := bit e 2
  let w := bit e 3
  let remote := bit e 5
  let pin := bit e 6
  match acc with
  | 0 => r
  | 1 => w
  | 2 => r
  | 3 => w && pin
  | 4 => r && pin
  | 5 => w && remote
  | 6 => r && remote
  | 7 => r && w && remote
  | _ => true

/-- Leaf page size of a level (R237). -/
def pageSize (lvl : Nat) : Nat := if lvl = 2 then 0x40000000 else if lvl = 1 then 0x200000 else 0x10000

/-- VA index of a level (R237). -/
def vaIndex (va lvl : Nat) : Nat :=
  if lvl = 3 then bits va 39 9 else if lvl = 2 then bits va 30 9 else if lvl = 1 then bits va 21 9 else bits va 16 5

/-- The VA bits above a level's table, which name the table. -/
def vaPrefix (va lvl : Nat) : Nat :=
  if lvl = 2 then va / 2 ^ 39 else if lvl = 1 then va / 2 ^ 30 else va / 2 ^ 21

/-- ADDR of an entry: DPA [47:8] (R238). -/
def entryAddr (e : Nat) : Nat := bits e 8 40 * 256

/-- malformed() of R239 (R237, R238). -/
def entryMalformed (e lvl : Nat) : Bool :=
  let leaf := bit e 1
  bit e 4 || bit e 7 || bits e 48 16 ≠ 0 ||
  (if leaf then lvl = 3 || entryAddr e % pageSize lvl ≠ 0
   else lvl = 0 || bits e 1 7 ≠ 0 || entryAddr e % (if lvl = 1 then 256 else 4096) ≠ 0)

/-- The outcome of a translation: a DPA, or a fault. -/
inductive TrRes where
  | ok (dpa : Nat)
  | fault (info : FaultInfo)
deriving DecidableEq, Repr

/-- What a walk meets: the outcome; the last entry with its level and DPA; the tables it passed, as level and DPA; the DPAs of
the entries it read; the entry that is poisoned, and the one that lies in a region without its key. -/
structure WalkRes where
  res : TrRes
  entry : Nat := 0
  level : Nat
  tables : List (Nat × Nat) := []
  poison : Option Nat := none
  edpa : Nat := 0
  reads : List Nat := []
  keyless : Option Nat := none
deriving DecidableEq, Repr

/-- The walk of R239 from level `lvl` with the table at `t`; `p` is the partition, `acc` the access kind. -/
def walkFrom (s : State) (p va acc : Nat) : Nat → Nat → WalkRes
  | lvl, t =>
    let info (type entry dpa : Nat) : FaultInfo := ⟨type, acc, va, true, lvl, entry, dpa⟩
    if !owned s p t then { res := .fault (info ftBounds 0 t), level := lvl }
    else
      let a := t + 8 * vaIndex va lvl
      if mgetD s.poison (a / 64) false || deadGranule s a then
        { res := .fault (info ftWalkPoison 0 a), level := lvl, poison := some a, edpa := a, reads := [a] }
      else
        let e := if keyAbsent s a then 0 else leNat (readMem s a 8)
        let stop (r : TrRes) : WalkRes :=
          { res := r, entry := e, level := lvl, edpa := a, reads := [a], keyless := if keyAbsent s a then some a else none }
        if !bit e 0 then stop (.fault (info ftNotPresent e a))
        else if entryMalformed e lvl then stop (.fault (info ftMalformed e a))
        else if bit e 1 then
          if !ownedRange s p (entryAddr e) (pageSize lvl) then stop (.fault (info ftBounds e (entryAddr e)))
          else if !leafPermits e acc then stop (.fault (info ftPermission e a))
          else stop (.ok (entryAddr e + va % pageSize lvl))
        else match lvl with
          | 0 => stop (.fault (info ftMalformed e a))
          | l + 1 =>
            let r := walkFrom s p va acc l (entryAddr e)
            { r with tables := (l, entryAddr e) :: r.tables, reads := a :: r.reads }

/-- The DPA of the last table entry that a walk reads: the one an `Ecc` finding of the walk command is about. -/
def walkLast (s : State) (p va acc : Nat) : Nat → Nat → Nat
  | lvl, t =>
    let a := t + 8 * vaIndex va lvl
    if !owned s p t then a
    else
      let e := leNat (readMem s a 8)
      if !bit e 0 || entryMalformed e lvl || bit e 1 then a
      else match lvl with
        | 0 => a
        | l + 1 => walkLast s p va acc l (entryAddr e)

/-- Does a cached entry cover an access? -/
def tlbHit (asid p va : Nat) (e : TlbEnt) : Bool :=
  decide (e.asid = asid) && decide (e.part = p) && decide (e.va ≤ va) && decide (va < e.va + e.size)

/-- ASID entry of a cluster: VALID and root (R235). -/
def asidValid (s : State) (clu asid : Nat) : Bool := wbit (rget s .mmu clu (0x800 + 8 * asid)) 0
def asidRoot (s : State) (clu asid : Nat) : Nat :=
  (fld (rget s .mmu clu (0x800 + 8 * asid)) 31 12) * 4096 + (fld (rget s .mmu clu (0x804 + 8 * asid)) 15 0) * 2 ^ 32

/-- The walk-cache entry of the deepest table that it holds for a VA (R241). -/
def wcHit (s : State) (clu asid va : Nat) : Option (Nat × Nat × Nat × Nat × Nat) :=
  [0, 1, 2].findSome? (fun l => (cluster s clu).wc.find? (fun e => e.1 = asid && e.2.1 = l && e.2.2.1 = vaPrefix va l))

/-- Where a walk starts: the deepest table that the walk cache holds, else the root (R241). -/
def walkStart (s : State) (clu asid va : Nat) : Nat × Nat :=
  match wcHit s clu asid va with
  | some e => (e.2.1, e.2.2.2.1)
  | none => (3, asidRoot s clu asid)

/-- The first number that a list does not hold; `fuel` its length. -/
def firstFree (l : List Nat) : Nat → Nat → Nat
  | 0, i => i
  | fuel + 1, i => if l.contains i then firstFree l fuel (i + 1) else i

/-- A TLB takes an entry: the oldest makes room, and an entry that is retired is not used (R241, R267). -/
def tlbAdd (c : Cluster) (e : TlbEnt) : Cluster :=
  let out := c.tlbRetired.filter (· < 4096)
  let keep := c.tlb.take (4095 - out.length)
  let used := keep.map (·.ix) ++ out
  { c with tlb := { e with ix := firstFree used used.length 0 } :: keep }

/-- A walk cache takes a pointer: ASID, level, VA prefix, table DPA (R241, R267). -/
def wcAdd (c : Cluster) (e : Nat × Nat × Nat × Nat) : Cluster :=
  let out := (c.tlbRetired.filter (4096 ≤ ·)).map (· - 4096)
  let keep := c.wc.take (255 - out.length)
  let used := keep.map (·.2.2.2.2) ++ out
  { c with wc := (e.1, e.2.1, e.2.2.1, e.2.2.2, firstFree used used.length 0) :: keep }

/-- A walk by the cluster MMU: counters, cached entries, the error records of a poisoned table and of a region without its key,
and the bytes its table reads move (R217, R226, R231, R239, R241). `j` is the physical core for the records, `ctag` the context
whose access caused it, `fresh` the granule whose first detection has been recorded for it. -/
def mmuWalk (s : State) (clu p asid va acc j : Nat) (ctag : Word) (fresh : Option Nat) : State × TrRes :=
  let s := bump s .mmu clu 0x118 1
  if 2 ^ 48 ≤ va then (s, .fault ⟨ftVaRange, acc, va % 2 ^ 48, false, 0, 0, 0⟩)
  else if !asidValid s clu asid then (s, .fault ⟨ftAsidInvalid, acc, va, false, 0, 0, 0⟩)
  else
    let (lvl, t) := walkStart s clu asid va
    let r := walkFrom s p va acc lvl t
    let s := modCluster s clu (fun c => r.tables.reverse.foldl (fun c e => wcAdd c (asid, e.1, vaPrefix va e.1, e.2)) c)
    let s := r.reads.foldl (fun s a => moveBytes s (dpaTile a) (clu / 16) 8) s
    let s := match r.keyless with
      | some a => noteKeyAbsent s a ctag
      | none => s
    match r.res with
    | .ok d =>
      let sz := pageSize r.level
      (modCluster s clu (fun c => tlbAdd c
        { asid := asid, part := p, va := va / sz * sz, size := sz, dpa := entryAddr r.entry, entry := r.entry
          edpa := r.edpa, level := r.level }), .ok d)
    | .fault i =>
      let s := match r.poison with
        | some a => recErr (if fresh = some (a / 64) then s else memPoisonRead s a ctag) eMmuWalkPoison clu j 0 ctag
        | none => s
      (if i.type = ftBounds then recErr s eMmuBounds clu j 0 ctag else s, .fault i)

/-- A cached entry serves an access while the page that it maps is still populated and the partition's (R200, R205). -/
def tlbServes (s : State) (asid p va : Nat) (e : TlbEnt) : Bool := tlbHit asid p va e && owned s p (e.dpa + (va - e.va))

/-- Translate one access of core n: micro-TLB, cluster TLB, walk (R241). A cached leaf that lacks a permission faults as
the walk would, with the DPA and the level of its table entry (R252). -/
def translate (s : State) (n asid va acc : Nat) (ctag : Word) : State × TrRes :=
  let clu := coreClu n
  let p := partOfCore s n
  if 2 ^ 48 ≤ va then (s, .fault ⟨ftVaRange, acc, va % 2 ^ 48, false, 0, 0, 0⟩)
  else
    let use (s : State) (e : TlbEnt) : State × TrRes :=
      if leafPermits e.entry acc then (s, .ok (e.dpa + (va - e.va)))
      else (s, .fault ⟨ftPermission, acc, va, true, e.level, e.entry, e.edpa⟩)
    match (core s n).utlb.find? (tlbServes s asid p va) with
    | some e => use s e
    | none => match (cluster s clu).tlb.find? (tlbServes s asid p va) with
      | some e =>
        use (modCore (bump s .mmu clu 0x114 1) n (fun c => { c with utlb := (e :: c.utlb).take 64 })) e
      | none =>
        let (s, r) := mmuWalk s clu p asid va acc (coreJ n) ctag none
        match r with
        | .ok d =>
          (match (cluster s clu).tlb.head? with
            | some e => modCore s n (fun c => { c with utlb := (e :: c.utlb).take 64 })
            | none => s, .ok d)
        | .fault i => (s, .fault i)

/-- The XE of core n reads device memory: the bytes, which cross the bridges on their way (R29, R231). -/
def fetchMem (s : State) (n d len : Nat) (ctag : Word) : State × List Byte :=
  readData (moveBytes s (dpaTile d) (coreTile n) len) d len ctag

/-- The XE of core n writes device memory. -/
def storeMem (s : State) (n d : Nat) (bs : List Byte) (ctag : Word) (asid p : Nat) : State :=
  writeData (moveBytes s (coreTile n) (dpaTile d) bs.length) d bs ctag asid p

/-- Read `len` bytes of a VA range page by page for the SQ, a save or a restore: the bytes, or the fault with its offset
in the range, or ERR of a poisoned read (R217, R251, R261, R262). -/
inductive VaRead where
  | ok (data : List Byte)
  | fault (off : Nat) (info : FaultInfo)
  | poison (err : Nat)
deriving DecidableEq, Repr

/-- The part of a VA range in its first 64 KiB page. -/
def pagePart (va len : Nat) : Nat := min len (0x10000 - va % 0x10000)

/-- `fuel` bounds the pages of the range. -/
def readVa : Nat → State → Nat → Nat → Nat → Nat → Nat → Nat → Word → Ecc → State × VaRead
  | 0, s, _, _, _, _, _, _, _, _ => (s, .ok [])
  | fuel + 1, s, n, asid, acc, va, off, len, ctag, ecc =>
    if len ≤ off then (s, .ok [])
    else
      let part := pagePart (va + off) (len - off)
      match translate s n asid (va + off) acc ctag with
      | (s, .fault i) => (s, .fault off i)
      | (s, .ok d) =>
        match checkRead s d part ecc ctag with
        | (s, some e) => (s, .poison e)
        | (s, none) =>
          let (s, bs) := fetchMem s n d part ctag
          match readVa fuel s n asid acc va (off + part) len ctag (eccAfter ecc (granules d part).length) with
          | (s, .ok rest) => (s, .ok (bs ++ rest))
          | other => other

/-- Write bytes to a VA range page by page; the fault with its offset when one occurs. -/
def writeVa : Nat → State → Nat → Nat → Nat → Nat → Nat → List Byte → Word → State × Option (Nat × FaultInfo)
  | 0, s, _, _, _, _, _, _, _ => (s, none)
  | fuel + 1, s, n, asid, acc, va, off, bs, ctag =>
    if bs.isEmpty then (s, none)
    else
      let part := pagePart (va + off) bs.length
      match translate s n asid (va + off) acc ctag with
      | (s, .fault i) => (s, some (off, i))
      | (s, .ok d) =>
        let s := storeMem s n d (bs.take part) ctag asid (partOfCore s n)
        writeVa fuel s n asid acc va (off + part) (bs.drop part) ctag

/-- Pages that a range can touch, as fuel. -/
def pagesOf (len : Nat) : Nat := len / 0x10000 + 2

end Sys2Proof.Machine
end

