-- ==== Sys2Proof/Machine/ContextOps.lean ====
section
/-!
DEFINITION. Shared operations on contexts: step-record fields (R146), slot state and mirrors (R79, R480), sync
operations and wake-up (R170 to R177), ending a context (R145, R463), completions (R282) and event records
(R252, R253, R460).
-/
namespace Sys2Proof.Machine

/-! ### Fields of a step record (R146); a buffered step is the record, its wait program and its signal program -/

def stFlags (r : List Byte) : Nat := leAt r 0 2
def stHasTe (r : List Byte) : Bool := bit (stFlags r) 0
def stHasVe (r : List Byte) : Bool := bit (stFlags r) 1
def stHasXe (r : List Byte) : Bool := bit (stFlags r) 2
def stLoopBegin (r : List Byte) : Bool := bit (stFlags r) 3
def stEndLoops (r : List Byte) : Nat := bits (stFlags r) 4 3
def stLoopCount (r : List Byte) : Nat := leAt r 2 2
def stLoopExit (r : List Byte) : Nat := leAt r 4 4
def stSelSrc (r : List Byte) : Nat := leAt r 8 1
def stSelNvar (r : List Byte) : Nat := leAt r 9 1
def stSelArg (r : List Byte) : Nat := leAt r 0xA 2
def stTeFirst (r : List Byte) : Nat := leAt r 0xC 4
def stTeCount (r : List Byte) : Nat := leAt r 0x10 2
def stTeStride (r : List Byte) : Nat := leAt r 0x12 2
def stVeCode (r : List Byte) : Nat := leAt r 0x14 4
def stVeN (r : List Byte) : Nat := leAt r 0x18 1
def stVeFirst (r : List Byte) : Nat := leAt r 0x19 1
def stVeStride (r : List Byte) : Nat := leAt r 0x1A 2
def stXeFirst (r : List Byte) : Nat := leAt r 0x1C 4
def stXeCount (r : List Byte) : Nat := leAt r 0x20 2
def stXeStride (r : List Byte) : Nat := leAt r 0x22 2
def stWaitFirst (r : List Byte) : Nat := leAt r 0x24 4
def stSignalFirst (r : List Byte) : Nat := leAt r 0x28 4
def stWaitLen (r : List Byte) : Nat := leAt r 0x2C 1
def stSignalLen (r : List Byte) : Nat := leAt r 0x2D 1
def stBudget (r : List Byte) : Nat := leAt r 0x2E 2
def stBeat (r : List Byte) (e : Nat) : Nat := leAt r (0x34 + e) 1
def stTag (r : List Byte) : Nat := leAt r 0x38 4

/-- Operation `i` of the wait program of a buffered step. -/
def stWaitOp (r : List Byte) (i : Nat) : List Byte := slice r (64 + 8 * i) 8

/-- Operation `i` of the signal program of a buffered step. -/
def stSignalOp (r : List Byte) (i : Nat) : List Byte := slice r (128 + 8 * i) 8

/-- Fields of a sync operation (R152). -/
def opCode (o : List Byte) : Nat := leAt o 0 1
def opObj (o : List Byte) : Nat := leAt o 2 2
def opValue (o : List Byte) : Nat := leAt o 4 4

/-- The buffered step at an index. -/
def bufStep (sl : Slot) (i : Nat) : Option (List Byte) := (sl.buf.find? (fun e => e.1 = i)).map (·.2)

/-! ### Image header and sections (R140, R141) -/

def hdStepCount (sl : Slot) : Nat := leAt sl.hdr 0x1C 4
def hdImageSize (sl : Slot) : Nat := leAt sl.hdr 0x0C 4
def hdHangWindow (sl : Slot) : Nat := leAt sl.hdr 0x20 4
def hdRollSet (sl : Slot) : Nat := leAt sl.hdr 0x24 4
def hdJobTag (sl : Slot) : Nat := leAt sl.hdr 0x28 4

/-- COUNT, OFFSET and SIZE of a section type; zeros when absent. -/
def section_ (sl : Slot) (ty : Nat) : Nat × Nat × Nat :=
  match sl.secs.find? (fun e => e.1 = ty) with
  | some e => e.2
  | none => (0, 0, 0)

def secCount (sl : Slot) (ty : Nat) : Nat := (section_ sl ty).1
def secOff (sl : Slot) (ty : Nat) : Nat := (section_ sl ty).2.1

/-! ### Sync objects seen by a slot -/

/-- A context-relative sync object. -/
def ctxObj (s : State) (n k i : Nat) : Option SyncObj := (physObj s n k i).map (syncObj s n)

/-- The value a read of an object returns: VALUE, or SET of an event object (R170). -/
def objRead (o : SyncObj) : Nat := o.value

/-- Does one operation of a wait program hold (R152, R170)? -/
def waitOpHolds (s : State) (n k : Nat) (o : List Byte) : Bool :=
  match ctxObj s n k (opObj o) with
  | none => false
  | some x =>
    if opCode o = 1 then x.event && x.value = 1
    else !x.event && decide (opValue o ≤ x.value)

/-- The wait program of the buffered step at a slot's issue position. -/
def waitOps (r : List Byte) : List (List Byte) := (List.range (min 8 (stWaitLen r))).map (stWaitOp r)

/-- Does every operation of a step's wait program hold (R153)? -/
def waitProgHolds (s : State) (n k : Nat) (r : List Byte) : Bool := (waitOps r).all (waitOpHolds s n k)

/-- The step at the issue position waits on a sync object (R100, WAITING of the SQ). -/
def sqWaiting (s : State) (n k : Nat) : Bool :=
  let sl := slot s n k
  sl.loaded && sl.pos < hdStepCount sl &&
  match bufStep sl sl.pos with
  | some r => !waitProgHolds s n k r
  | none => false

/-- OUTSTANDING of the SQ: the step at the issue position could issue but is being fetched or checked or awaits its
power grant (R100). -/
def sqOutstanding (s : State) (n k : Nat) : Bool :=
  let sl := slot s n k
  if !sl.loaded then true
  else sl.pos < hdStepCount sl && sl.inflight.length < 4 &&
    match bufStep sl sl.pos with
    | some r => waitProgHolds s n k r
    | none => true

/-- Strands of a slot that hold work. -/
def liveStrands (s : State) (n k : Nat) : List Strand :=
  ((slot s n k).strands.map (strand s n)).filter (fun x => x.run ≠ .idle && x.run ≠ .stopped)

def strandWaits (x : Strand) : Bool :=
  match x.run with
  | .wait _ _ _ => true
  | _ => false

def veOutstanding (s : State) (n k : Nat) : Bool := (slot s n k).inflight.any (fun f => f.veLeft > 0)
def veWaiting (s : State) (n k : Nat) : Bool :=
  let l := liveStrands s n k
  !l.isEmpty && l.all strandWaits
def teOutstanding (s : State) (n k : Nat) : Bool := (slot s n k).inflight.any (fun f => f.teLeft > 0)
def xeOutstanding (s : State) (n k : Nat) : Bool := (slot s n k).inflight.any (fun f => f.xeLeft > 0)

/-- STATE code of SQ_SLOT_STATE (R100). -/
def stCode : SlotState → Nat
  | .free => 0 | .active => 1 | .waiting => 2 | .faulted => 3 | .preempting => 4 | .halted => 5

/-- SQ_SLOT_STATE of a slot (R100). -/
def slotStateWord (s : State) (n k : Nat) : Word :=
  let sl := slot s n k
  if sl.st = .free then 0 else
  packFields [(0, stCode sl.st), (3, b2n sl.haltPending), (8, b2n (sqWaiting s n k)), (10, b2n (veWaiting s n k)),
    (12, b2n (sqOutstanding s n k)), (13, b2n (teOutstanding s n k)), (14, b2n (veOutstanding s n k)),
    (15, b2n (xeOutstanding s n k))]

/-- Index of the oldest incomplete step (R100, SQ_SLOT_STEP). -/
def oldestStep (sl : Slot) : Nat :=
  match sl.inflight.head? with
  | some f => f.step
  | none => sl.pos

/-- STEP_TAG of the oldest incomplete step. -/
def oldestTag (sl : Slot) : Nat :=
  match sl.inflight.head? with
  | some f => stTag f.record
  | none => match bufStep sl sl.pos with
    | some r => stTag r
    | none => 0

/-- WAIT_OBJ of R457: the first unsatisfied object of the SQ's wait program, else the object of the lowest-numbered
waiting strand, else 0xFFFF. -/
def waitObj (s : State) (n k : Nat) : Nat :=
  let sl := slot s n k
  let sq := match bufStep sl sl.pos with
    | some r => if sqWaiting s n k then ((waitOps r).find? (fun o => !waitOpHolds s n k o)).map opObj else none
    | none => none
  match sq with
  | some o => o
  | none => (sl.strands.findSome? (fun i => match (strand s n i).run with
      | .wait o _ _ => some o
      | _ => none)).getD 0xFFFF

/-- SQ_CORE_ID (R100). -/
def coreIdWord (s : State) (n : Nat) : Word :=
  packFields [(0, coreJ n), (5, logicalOf s (coreClu n) (coreJ n)), (10, coreClu n % 16), (14, coreTile n)]

/-- SQ_SLOT_BUSY (R100). -/
def slotBusyWord (s : State) (n : Nat) : Word := wd (maskOf (busySlots s n))

/-- Read-tracker entries that the streams of a core hold (R94, XE_READS_OUT). -/
def readsOut (s : State) (n : Nat) : Nat :=
  ((core s n).streams.map (fun e => (e.2.descs.map (fun d => d.reads.length)).foldl (· + ·) 0)).foldl (· + ·) 0

/-- The 128 B mirror entry of a slot as the SQ rewrites it (R480). -/
def mirrorBytes (s : State) (n k : Nat) : List Byte :=
  let sl := slot s n k
  leBytes sl.ctag.toNat 4 ++ leBytes (slotStateWord s n k).toNat 4 ++ leBytes (slotReg s n k 0x408).toNat 4 ++
  leBytes (slotReg s n k 0x418).toNat 4 ++ leBytes (slotReg s n k 0x414).toNat 4 ++ leBytes (oldestStep sl) 4 ++
  leBytes (oldestTag sl) 4 ++ leBytes (hdJobTag sl) 4 ++
  leBytes sl.beatSq 4 ++ leBytes sl.beatTe 4 ++ leBytes sl.beatVe 4 ++ leBytes sl.beatXe 4 ++
  leBytes sl.rud 8 ++ leBytes (waitObj s n k) 2 ++ leBytes sl.outcome 1 ++ List.replicate 5 0 ++
  slice sl.hdr 0x40 32 ++ leBytes (cluster s (coreClu n)).cycles 8 ++ List.replicate 24 0

/-- The SQ rewrites a slot's mirror entry (R480). -/
def mirror (s : State) (n k : Nat) : State :=
  let b := mirrorBytes s n k
  modCore s n (fun c => { c with mirrorCount := c.mirrorCount + 1, mirrorAt := mput c.mirrorAt k (leNat b) })

/-- A record of the cluster's step trace (R446): EVENT 1 ISSUE, 2 COMPLETE, 3 WAIT, 4 WAKE, 5 FAULT, 6 PREEMPT, 7 EXIT,
written by the SQ. The trace stops when the ring is full and WRAP = 0. -/
def traceRec (s : State) (n k ev step : Nat) : State :=
  let clu := coreClu n
  let c := cluster s clu
  let ctrl := rget s .clu clu 0xB00
  if !c.traceOn || !wbit ctrl (7 + ev) then s
  else
    let size := max 1 (fld (rget s .clu clu 0xB0C) 11 0) * 256
    let a := fld (rget s .clu clu 0xB04) 31 12 * 4096 + fld (rget s .clu clu 0xB08) 15 0 * 2 ^ 32
    let s := writeMem s (a + 16 * (c.traceRecs % size))
      (leBytes (slot s n k).ctag.toNat 4 ++ leBytes step 2 ++ leBytes ev 1 ++ leBytes 0 1 ++ leBytes c.cycles 8)
    modCluster s clu (fun c => { c with
      traceRecs := c.traceRecs + 1, traceOn := wbit ctrl 1 || decide (c.traceRecs + 1 < size) })

/-- A slot changes state: the idle timer returns to 0 when it leaves FAULTED or HALTED (R456), and the mirror entry is
rewritten (R480). -/
def setSt (s : State) (n k : Nat) (st : SlotState) : State :=
  let old := (slot s n k).st
  if old = st then s else
  let s := modSlot s n k (fun sl => { sl with
    st := st, idleUs := if old = .faulted || old = .halted then 0 else sl.idleUs,
    hangRaised := sl.hangRaised && !(old = .faulted || old = .halted) })
  let ev := match st with
    | .waiting => 3
    | .active => if old = .waiting then 4 else 0
    | .faulted => 5
    | .preempting => 6
    | _ => 0
  let s := if ev = 0 then s else traceRec s n k ev (oldestStep (slot s n k))
  mirror s n k

/-- ACTIVE and WAITING follow the engines: a slot waits when every engine with outstanding work waits on a sync
object, and is ACTIVE again when one of them is satisfied (R79). -/
def refresh (s : State) (n k : Nat) : State :=
  let sl := slot s n k
  if sl.st = .active || sl.st = .waiting then
    let w := sqWaiting s n k || veWaiting s n k
    let busy := sqOutstanding s n k || teOutstanding s n k || xeOutstanding s n k ||
      (veOutstanding s n k && !veWaiting s n k)
    setSt s n k (if w && !busy then .waiting else .active)
  else s

/-! ### Completions and records -/

/-- A completion entry (R282); PHASE is put in when the entry is written. -/
def complEntry (user ctag result op ring slotNo logical : Nat) : List Byte :=
  leBytes user 8 ++ leBytes ctag 4 ++ leBytes result 1 ++ leBytes op 1 ++
  leBytes ((ring <<< 1) ||| (slotNo <<< 3) ||| (logical <<< 7)) 2

/-- The owner function of a partition's queues (R272). -/
def queueFunc (s : State) (clu : Nat) : Nat := ownerFunc s (partOfClu s clu)

/-- May the package access a queue of a cluster: link up and Bus Master Enable of the owner function (R277)? -/
def queueBus (s : State) (clu : Nat) : Bool := s.host.up && mgetD s.host.bme (queueFunc s clu) false

/-- A completion queue takes an entry (R282, R283). Those past the 16 that the package holds are EXIT events, which wait in their
order (log entry 16). -/
def cqPush (s : State) (clu ring : Nat) (entry : List Byte) : State :=
  let cq := fld (rget s .clu clu (0x808 + 0x40 * ring)) 9 8
  modCluster s clu (fun c => { c with
    cqs := mupd c.cqs cq CompQ.init (fun q => { q with held := q.held ++ [entry] }) })

/-- The completion queue of a ring (R283, R290). -/
def ringCq (s : State) (clu i : Nat) : Nat := fld (rget s .clu clu (0x808 + 0x40 * i)) 9 8

/-- Unconsumed entries of a completion queue (R278). -/
def cqCount (q : CompQ) : Nat := (q.tail + 65536 - q.head) % 65536

/-- Entries that a completion queue can still take: the room of its buffer, when the package may write it, and the 16 that the
package holds for a full queue (R283). -/
def cqRoom (s : State) (clu j : Nat) : Nat :=
  let q := mgetD (cluster s clu).cqs j CompQ.init
  16 + if q.enabled && queueBus s clu then 2 ^ fld (rget s .clu clu (0x908 + 0x40 * j)) 3 0 - cqCount q else 0

/-- Has a completion queue no place for the completion of another entry, besides what it holds and what the rings bound to it
have in progress (R283)? -/
def cqStops (s : State) (clu j : Nat) : Bool :=
  let c := cluster s clu
  let busy := ((List.range 4).map (fun i =>
    if ringCq s clu i = j then (mgetD c.rings i Ring.init).inProgress.length else 0)).foldl (· + ·) 0
  decide (cqRoom s clu j ≤ (mgetD c.cqs j CompQ.init).held.length + busy)

/-- STALLED of a ring: it has an entry to dispatch and waits for completion-queue space (R283, R290). -/
def ringStalled (s : State) (clu i : Nat) : Bool :=
  let r := mgetD (cluster s clu).rings i Ring.init
  r.enabled && !r.fetched.isEmpty && cqStops s clu (ringCq s clu i)

/-- Entries that a fault queue holds in host memory, and its room (R278, R284). -/
def fqCount (c : Cluster) : Nat := (c.fqTail + 65536 - c.fqHead) % 65536
def fqFull (s : State) (clu : Nat) : Bool :=
  !(cluster s clu).fqEnabled || decide (2 ^ fld (rget s .clu clu 0xA08) 3 0 ≤ fqCount (cluster s clu))

/-- Give a record its SEQ and MMU fields (R252). -/
def stampRecord (s : State) (clu : Nat) (r : List Byte) : List Byte :=
  slice r 0 0x38 ++ leBytes (cluster s clu).seq 4 ++ leBytes clu 2 ++ [0, 0]

/-- A fault or event record joins the records to post, in SEQ order; one that the queue cannot take, for want of room or of the
host link, is held, with MMU_FQ_HELD and INT_STATUS.FQ_HELD (R252, R253, R289). Answers false when the posting buffer of 64 is
full too. -/
def postRecord (s : State) (clu : Nat) (r : List Byte) : State × Bool × List Byte :=
  let r := stampRecord s clu r
  let s := modCluster s clu (fun c => { c with seq := (c.seq + 1) % 2 ^ 32 })
  let full := fqFull s clu || !queueBus s clu
  let room := (cluster s clu).holdBuf.length < 64
  let s := if room then modCluster s clu (fun c => { c with holdBuf := c.holdBuf ++ [r] }) else s
  let s :=
    if full then raiseInt (recErr s eMmuFqHeld clu 0xFF (cluster s clu).holdBuf.length noCtag) .mmu clu 1
    else s
  (s, room, r)

/-- A record joins those that wait outside the posting buffer: none is lost (R253). -/
def waitRecord (s : State) (clu : Nat) (r : List Byte) : State :=
  modCluster s clu (fun c => { c with waitRecs := c.waitRecs ++ [r] })

/-- A record of the SQ, of a destination or of the hang unit: with the buffer full it waits where it arose (log entry 7). -/
def postRec (s : State) (clu : Nat) (r : List Byte) : State :=
  let (s, ok, r) := postRecord s clu r
  if ok then s else waitRecord s clu r

/-- A fault record (R252). -/
def faultRecord (i : FaultInfo) (flags ctag asid stream desc off coord endpt key acked : Nat) : List Byte :=
  leBytes i.type 2 ++ leBytes i.access 1 ++ leBytes (flags ||| (b2n i.levelValid <<< 4)) 1 ++ leBytes ctag 4 ++
  leBytes (i.va % 2 ^ 48) 8 ++ leBytes asid 1 ++ leBytes i.level 1 ++ leBytes stream 2 ++ leBytes desc 4 ++
  leBytes off 4 ++ leBytes coord 2 ++ leBytes endpt 2 ++ leBytes key 4 ++ leBytes acked 4 ++ leBytes i.entry 8 ++
  leBytes (i.dpa % 2 ^ 48) 8

/-- Post a fault record of the context of a slot; MMU_FAULTS counts it (R252, R266). -/
def postFault (s : State) (n k : Nat) (i : FaultInfo) (flags stream desc off : Nat) : State :=
  let clu := coreClu n
  postRec (bump s .mmu clu 0x11C 1) clu
    (faultRecord i flags (slot s n k).ctag.toNat (slotAsid s n k) stream desc off 0 0 0 0)

/-- A hang or reset record (R460). -/
def eventRecord (s : State) (n k type domain cause eng err : Nat) : List Byte :=
  let sl := slot s n k
  leBytes type 2 ++ leBytes domain 1 ++ leBytes cause 1 ++ leBytes sl.ctag.toNat 4 ++
  leBytes sl.beatSq 4 ++ leBytes sl.beatTe 4 ++ leBytes sl.beatVe 4 ++ leBytes sl.beatXe 4 ++
  leBytes (oldestStep sl) 4 ++ leBytes (oldestTag sl) 4 ++ leBytes (waitObj s n k) 2 ++
  leBytes (slotStateWord s n k).toNat 2 ++ leBytes sl.hangW 4 ++ leBytes (hdJobTag sl) 4 ++ leBytes eng 1 ++
  leBytes (slotGroup s n k) 1 ++ leBytes err 2 ++ List.replicate 8 0

/-! ### Ending a context -/

/-- The context of a slot is to be ended by context reset: it issues nothing more and its arrivals are absorbed from now
on (R463, steps 1 and 2). A context that is being ended already absorbs a further program error (R472). -/
def endCtx (s : State) (n k cause err outcome : Nat) : State :=
  let sl := slot s n k
  if sl.st = .free || sl.ending.isSome then s
  else modSlot s n k (fun sl => { sl with ending := some { cause := cause, err := err, outcome := outcome, us := s.us } })

/-- Every context of a group of a partition is to be ended (R463). -/
def endGroup (s : State) (p group cause err : Nat) : State :=
  (partSlots s p).foldl (fun s e =>
    let sl := slot s e.1 e.2
    if slotGroup s e.1 e.2 = group && sl.ending.isNone then
      modSlot s e.1 e.2 (fun sl => { sl with ending := some { cause := cause, err := err, outcome := 3, group := true, us := s.us } })
    else s) s

/-- ERR of R460 for a code. -/
def errField (e : ErrCode) : Nat := e.bit * 256 + blockCode e.blk

/-- An error of a context on a page of its core ends the context by context reset (R102, R145). -/
def errCtx (s : State) (e : ErrCode) (n k det : Nat) : State :=
  endCtx (recErr s e n k det (slot s n k).ctag) n k 5 (errField e) 3

/-- Is the slot one that remote arrivals and its engines can reach: neither FREE nor PREEMPTING, nor being ended (R96,
R179, R463)? -/
def slotLive (s : State) (n k : Nat) : Bool :=
  let sl := slot s n k
  sl.st ≠ .free && sl.st ≠ .preempting && sl.ending.isNone

/-- Do the engines serve the slot: ACTIVE or WAITING and not being ended (R79, R95), with no alarm at FREEZE (R438), no
chip reset (R467) and a running island? -/
def served (s : State) (n k : Nat) : Bool :=
  let sl := slot s n k
  (sl.st = .active || sl.st = .waiting) && sl.ending.isNone && !frozen s && s.chipReset.isNone &&
  !coreStopped s n

/-- Do parts already issued run on: served, or HALTED with its one step (R79)? -/
def running (s : State) (n k : Nat) : Bool :=
  let sl := slot s n k
  (sl.st = .active || sl.st = .waiting || (sl.st = .halted && sl.stepOnce)) && sl.ending.isNone && !frozen s &&
  s.chipReset.isNone && !coreStopped s n

/-- May the SQ issue a step: served, or HALTED with a STEP that has not issued its step (R79)? -/
def issuing (s : State) (n k : Nat) : Bool :=
  served s n k || (running s n k && (slot s n k).stepOnce && (slot s n k).stepOrd.isNone)

/-! ### Completion of steps (R151) -/

/-- Is every part of a step in flight complete? -/
def stepDone (f : InFlight) : Bool := f.teLeft = 0 && f.veLeft = 0 && f.xeLeft = 0

/-- The latest place in the order of completion. -/
def lastDone (fl : List InFlight) : Nat := fl.foldl (fun m f => max m f.doneNo) 0

/-- A step whose last part has completed takes the next place in the order of completion (R151). -/
def markDone (fl : List InFlight) : List InFlight :=
  fl.map (fun f => if stepDone f && f.doneNo = 0 then { f with doneNo := lastDone fl + 1 } else f)

/-- The step whose signal program runs next: the earliest complete one (R151). -/
def nextDone (sl : Slot) : Option InFlight :=
  let l := sl.inflight.filter (fun f => f.doneNo ≠ 0)
  l.find? (fun f => l.all (fun g => f.doneNo ≤ g.doneNo))

/-! ### Sync operations (R170 to R177) -/

/-- Operations on a sync object (R170). -/
inductive SyncOp where
  | signal
  | add (n : Nat)
  | set (n : Nat)
  | bytes (b : Nat)
  | release
deriving DecidableEq, Repr

/-- What an operation does to an object: the object, SYN_SATURATE, SYN_DOUBLE_SIGNAL, SYN_MODE_MISMATCH (R170, R172,
R173). -/
def syncApply (o : SyncObj) (op : SyncOp) : SyncObj × Bool × Bool × Bool :=
  let addTo (v : Nat) : SyncObj × Bool × Bool × Bool :=
    ({ o with value := min 65535 (o.value + v) }, decide (65535 < o.value + v), false, false)
  let setEv (o : SyncObj) : SyncObj × Bool × Bool × Bool :=
    if o.value = 1 then ({ o with double := true }, false, o.doubleFault, false)
    else ({ o with value := 1 }, false, false, false)
  match op with
  | .signal => if o.event then setEv o else addTo 1
  | .add 0 => (o, false, false, false)
  | .add (v + 1) => if o.event then setEv o else addTo (v + 1)
  | .set v =>
    if o.event then ({ o with value := if v = 0 then 0 else 1 }, false, false, false)
    else ({ o with value := v }, false, false, false)
  | .bytes b => if o.event then (o, false, false, true) else addTo (b / 4)
  | .release =>
    if o.event then
      let (o', a, b, c) := setEv o
      ({ o' with pend := o'.pend - 1 }, a, b, c)
    else (o, false, false, true)

/-- A VE WAIT holds on an object (R170, R175): WAIT_EVENT or its peek on an event object, WAIT_COUNT or WAIT_PEEK with
VALUE, 0 meaning 1, on a counting one. -/
def veWaitHolds (o : SyncObj) (value : Nat) : Bool :=
  if o.event then o.value = 1 else decide (max 1 value ≤ o.value)

/-- What a VE WAIT that holds consumes. -/
def veWaitTake (o : SyncObj) (peek : Bool) (value : Nat) : SyncObj :=
  if peek then o else if o.event then { o with value := 0 } else { o with value := o.value - max 1 value }

/-- Do the SQ and the engines that a step hands parts to take new work (R57, R474)? Otherwise the step waits in the SQ. -/
def stepTaken (s : State) (n : Nat) (r : List Byte) : Bool :=
  accepting s .sq n && (!stHasTe r || accepting s .te n) && (!stHasVe r || accepting s .ve n) && (!stHasXe r || accepting s .xe n)

/-- The record whose wait program the SQ would consume in this evaluation: the buffered step at the issue position, when the
program holds and the step can issue (R148, R153, R177). -/
def sqTaker (s : State) (n k : Nat) : Option (List Byte) :=
  let sl := slot s n k
  if !issuing s n k || !sl.loaded || 4 ≤ sl.inflight.length then none
  else (bufStep sl sl.pos).filter (fun r =>
    stepTaken s n r && waitProgHolds s n k r && !(stLoopBegin r && !sl.reentry && stLoopCount r = 0) &&
    (sl.granted || !(stHasTe r || stHasVe r || stHasXe r)))

/-- What an object holds for a strand's wait: its value after the SQ's wait program, which is evaluated first (R177). -/
def leftForStrands (s : State) (n k ph : Nat) : SyncObj :=
  let o := syncObj s n ph
  match sqTaker s n k with
  | none => o
  | some r => (waitOps r).foldl (fun o w =>
      if physObj s n k (opObj w) ≠ some ph then o
      else if opCode w = 1 then { o with value := 0 }
      else if opCode w = 2 then { o with value := o.value - opValue w }
      else o) o

/-- Evaluate the waiting strands of a slot in ascending context-relative order; those whose condition holds consume and
run (R176, R177). -/
def wakeStrands (s : State) (n k : Nat) : State :=
  (slot s n k).strands.foldl (fun s i =>
    match (strand s n i).run with
    | .wait o peek v =>
      match physObj s n k o with
      | some ph =>
        if veWaitHolds (leftForStrands s n k ph) v then
          let s := if peek then s else bump s .syn n 0x138 1
          modStrand (modSync s n ph (fun x => veWaitTake x peek v)) n i (fun x => { x with run := .run })
        else s
      | none => s
    | _ => s) s

/-- Waits are evaluated after a change: the strands' waits on what the SQ's wait program leaves, and the slot's state
follows its engines (R79, R176, R177). -/
def wake (s : State) (n k : Nat) : State :=
  if running s n k then refresh (wakeStrands s n k) n k else s

/-- Apply an operation to a context-relative object of a slot; `remote` counts it as a receive-side one. An operation that
does not fit the object's mode is not applied and not counted. Faults are recorded with the owning CTAG and end the context
(R170, R172, R173, R195, R198). -/
def syncOp (s : State) (n k i : Nat) (op : SyncOp) (remote : Bool) : State :=
  match physObj s n k i with
  | none => s
  | some ph =>
    let (o, sat, dbl, mis) := syncApply (syncObj s n ph) op
    if mis then errCtx s eSynModeMismatch n k i
    else
      let s := bump s .syn n 0x138 1
      let s := if remote then bump s .syn n 0x13C 1 else s
      let s := modSync s n ph (fun _ => o)
      let s := modCore s n (fun c => { c with
        relIndex := if o.pend = 0 then c.relIndex.filter (· ≠ ph) else c.relIndex })
      let s := if sat then errCtx s eSynSaturate n k i else s
      if dbl then errCtx s eSynDoubleSignal n k i else s

/-- An operation on its own: the waits are evaluated on what it leaves (R177). -/
def syncDo (s : State) (n k i : Nat) (op : SyncOp) (remote : Bool) : State := wake (syncOp s n k i op remote) n k

/-- What the object store finds in the state word of physical object `o` (R198), recorded with its block and its owner's CTAG. An
uncorrectable word is lost, which leaves its fields free (log entry 64): the owner is ended by context reset, and a second one of
the block within 10 ms marks the core for retirement. -/
def synEcc (s : State) (n o : Nat) (ecc : Ecc) : State :=
  let own := (objOwner s n o).map (·.1)
  let ctag := (own.map (fun k => (slot s n k).ctag)).getD noCtag
  match ecc with
  | .corr => recErr s eSynStateEccCorr n (o / 64) o ctag
  | .uncorr =>
    let s := recErr s eSynStateEccUncorr n (o / 64) o ctag
    let (lo, s) := drawWord s
    let (hi, s) := drawWord s
    let s := modSync s n o (fun _ => syncOfWord (lo.toNat + hi.toNat * 2 ^ 32))
    let s := match own with
      | some k => endCtx s n k 5 (errField eSynStateEccUncorr) 3
      | none => s
    let (s, again) := noteEcc s n 3 (o / 64)
    if again then corePending s n else s
  | _ => s

/-- An arrival that cannot be applied: absorbed, SYN_DROPPED + 1 (R179). -/
def absorb (s : State) (n : Nat) : State := bump s .syn n 0x140 1

/-! ### Leaving a slot -/

/-- Physical sync objects of a slot. -/
def slotObjs (sl : Slot) : List Nat := sl.blocks.flatMap (fun b => (List.range 64).map (fun i => 64 * b + i))

/-- The task leaves its slot: charges and units return to the pools (R496), the release index drops its entries (R181), the
ordered receive streams bound to the slot are freed and what they hold is discarded (R14, R351), the slot becomes FREE with
an outcome, and a task installed with NOTIFY_EXIT posts its EXIT event (R79, R282). -/
def leaveSlot (s : State) (n k outcome : Nat) : State :=
  let s := traceRec s n k 7 (oldestStep (slot s n k))
  let sl := slot s n k
  let clu := coreClu n
  let s := match sl.notify with
    | some (ring, user) =>
      cqPush s clu ring (complEntry user sl.ctag.toNat outcome 0x80 ring k (logicalOf s clu (coreJ n)))
    | none => s
  let s := (sl.streams.filterMap (fun ph => (stream s n ph).heldRec)).foldl (fun s r => waitRecord s clu r) s
  let objs := slotObjs sl
  let back := (sl.inflight.map (·.charge)).foldl (· + ·) (if sl.granted then sl.chargeAsked else 0)
  let s := { s with
    grants := mupd s.grants (coreTile n) 0 (· - back)
    grantReqs := s.grantReqs.filter (fun q => !(q.1 = n && q.2.1 = k)) }
  let s := modCore s n (fun c => { c with
    relIndex := c.relIndex.filter (fun o => !objs.contains o)
    teq := mdel c.teq k
    teRun := c.teRun.filter (fun x => x.slot ≠ k)
    streams := mfilter c.streams (fun i _ => !sl.streams.contains i)
    rx := mfilter c.rx (fun _ x => x.slot ≠ k)
    strands := c.strands.map (fun e =>
      if sl.strands.contains e.1 then (e.1, { e.2 with run := .idle, launches := [], loops := [] }) else e) })
  let s := modSlot s n k (fun sl => { sl with
    st := .free, outcome := outcome, strands := [], banks := [], blocks := [], streams := [], ending := none,
    inflight := [], buf := [], loops := [], bind := none, loaded := false, haltPending := false,
    stepOnce := false, stepOrd := none, notify := none, saving := false, restoring := false, granted := false,
    grantAsked := false, idleUs := 0 })
  mirror s n k

/-- The rudiment is complete: the issue position equals STEP_COUNT, the loop stack is empty and every issued step has
completed (R148); an ACTIVE slot leaves with outcome DONE (R79). -/
def checkDone (s : State) (n k : Nat) : State :=
  let s := refresh s n k
  let sl := slot s n k
  if sl.loaded && sl.pos = hdStepCount sl && sl.loops.isEmpty && sl.inflight.isEmpty && sl.bind.isNone &&
      sl.ending.isNone && sl.st = .active then leaveSlot s n k 1
  else s

end Sys2Proof.Machine
end

