-- ==== Sys2Proof/Machine/Access.lean ====
section
/-!
DEFINITION. Access to register pages: who may reach a page (R53, R54), and the results of commands of the SQ (R80).
-/
namespace Sys2Proof.Machine

/-- Function number of a requester in error records: PF 0, VF p is p + 1, the Carillon 0xFF (log entry 8). -/
def reqNo : Req → Nat
  | .pf => 0
  | .vf p => p + 1
  | .car => 0xFF

/-- DIR_BOOT_STAGE (R49, R367). -/
def bootStage (s : State) : Nat := fld (rget s .dir 0 0x30C) 2 0

/-- Does the package answer a requester (R287, R289)? With the link down no request of the host arrives, and until S7 it answers
none; in ROM recovery mode the PF is served (R417). The Carillon's accesses do not come through the port. -/
def answered (s : State) (req : Req) : Bool :=
  req = .car || (s.host.up && (decide (bootStage s = 7) || (s.fw.recovery && req = .pf)))

/-- Is a page open to the requester (R53)? -/
def pageOpen (s : State) (req : Req) (pg : Nat) : Bool :=
  let al := regGet s (pg + 0x50)
  match req with
  | .car => true
  | .pf => fld al 1 0 ≠ 2
  | .vf p => fld al 1 0 = 1 && fld al 11 8 = p && vfUsable s p

/-- Is an offset of a page open to the requester: the first 16 bytes of every page and the whole DIR page are open to
all (R49, R53)? -/
def regOpen (s : State) (req : Req) (a : Nat) : Bool :=
  decide (a % 0x1000 < 0x10) || decide (a < 0x1000) || pageOpen s req (a / 0x1000 * 0x1000)

/-- ACCESS_DENIED on the PCE page (R54). -/
def denied (s : State) (req : Req) (a : Nat) : State := recErr s eAccessDenied 0 (reqNo req) (a / 0x1000) noCtag

/-- ACCESS_SIZE on the PCE page (R55). -/
def badSize (s : State) (req : Req) (a : Nat) : State := recErr s eAccessSize 0 (reqNo req) (a / 0x1000) noCtag

/-- Is a page that of a retired core or cluster, which ignores writes (R60, R377)? -/
def pageRetired (s : State) (b : Block) (i : Nat) : Bool :=
  match b with
  | .sq | .te | .ve | .xe | .syn =>
    (cluster s (coreClu i)).clusterRetired || bit (cluster s (coreClu i)).retired (coreJ i)
  | .clu | .mmu => (cluster s i).clusterRetired
  | _ => false

/-- STATUS.RETIRED of a page (R51). -/
def statusRetired (s : State) (b : Block) (i : Nat) : Bool :=
  match b with
  | .hbm => decide (fld (rget s .hbm i 0x100) 2 0 = 5)
  | .stg => sliceRetired s i
  | .brg => decide (fld (rget s .brg i 0x100) 1 0 = 3)
  | .fab => decide (fld (rget s .fab i 0x100) 3 0 = 10)
  | _ => pageRetired s b i

/-- The register in which a stack, slice, bridge or port says that it is RETIRED (R229 to R231, R328). -/
def stateReg : Block → Nat
  | .stg => 0x124
  | _ => 0x100

/-- Does a block-specific register read 0 because its page is retired (R60)? The register that says so of a stack, slice, bridge
or port is still read (log entry 21). -/
def readsZero (s : State) (b : Block) (i off : Nat) : Bool :=
  decide (0x100 ≤ off) &&
  (match b with
    | .hbm | .stg | .brg | .fab => statusRetired s b i && off ≠ stateReg b
    | _ => pageRetired s b i)

/-- Is a reset of any domain that covers the page in progress (R51, IN_RESET)? -/
def pageInReset (s : State) (b : Block) (i : Nat) : Bool :=
  s.chipReset.isSome ||
  (blockLevel b = 1 && (mget s.partReset (pageOwner s b i)).isSome) ||
  (match b with
    | .sq => bit (core s i).engReset 0
    | .te => bit (core s i).engReset 1
    | .ve => bit (core s i).engReset 2
    | .xe => bit (core s i).engReset 3
    | _ => false)

/-- A write of a requester to a register of a page: performed when the page is open, recorded when not (R54). A page
that is retired or dark ignores it (R60, R494), and before S7 or with the link down the host is not answered (R287, R289). -/
def guardWrite (s : State) (req : Req) (b : Block) (i off : Nat) (f : State → State) : State :=
  if !answered s req then s
  else if !pageOpen s req (page b i) then denied s req (page b i + off)
  else if pageRetired s b i || pageDark s b then s
  else f s

/-- Results of SQ_CMD_RESULT (R100). -/
def resOk : Nat := 0
def resSlotBusy : Nat := 1
def resNoResources : Nat := 2
def resLmConflict : Nat := 3
def resBadAsid : Nat := 4
def resNoTask : Nat := 5
def resNotFaulted : Nat := 6
def resDenied : Nat := 7
def resInvalid : Nat := 8

/-- An entry of a ring is complete: its completion is posted and the ring forgets it (R281, R282). -/
def ringDone (s : State) (clu ring num : Nat) (entry : List Byte) : State :=
  let s := modCluster s clu (fun c => { c with
    rings := mupd c.rings ring Ring.init (fun r => { r with inProgress := r.inProgress.filter (· ≠ num) }) })
  cqPush s clu ring entry

/-- A command of a core completes with a result, on SQ_CMD_RESULT and, for a ring command, by a completion (R80, R282). -/
def sqResult (s : State) (n k res : Nat) : State :=
  let rc := (core s n).ringCmd
  let s := rset (modCore s n (fun c => { c with busy := false, deferred := none, heldCmd := none, ringCmd := none }))
    .sq n 0x10C (packFields [(4, res), (8, k)])
  match rc with
  | none => s
  | some (ring, user, op, num) =>
    let ctag := if op = 1 && res ≠ 0 then 0xFFFFFFFF else (slot s n k).ctag.toNat
    ringDone s (coreClu n) ring num (complEntry user ctag res op ring k (logicalOf s (coreClu n) (coreJ n)))

/-- A command of a core is in progress: BUSY = 1 (R80). -/
def sqBusy (s : State) (n k : Nat) : State :=
  rset (modCore s n (fun c => { c with busy := true })) .sq n 0x10C (packFields [(0, 1), (8, k)])

/-- Is D3 granted (R452)? -/
def debugD3 (s : State) : Bool := wbit (rget s .dbg 0 0x130) 0

/-- The debug level granted to a partition (R441, R452); D3 is package-wide and includes the lower levels. -/
def debugLevel (s : State) (p : Nat) : Nat := if debugD3 s then 3 else fld (rget s .dbg 0 (0x110 + 4 * p)) 1 0

/-- Debug grants of a mask of partitions end (R444): their trace stops, and D3, whose scope is every partition, ends with
any of them. -/
def endGrants (s : State) (mask : Nat) : State :=
  let s := if mask % 256 = 0 then s else rset s .dbg 0 0x130 (setBit (rget s .dbg 0 0x130) 0 false)
  (onesBelow mask 8).foldl (fun s p =>
    let s := rset s .dbg 0 (0x110 + 4 * p) 0
    (partClus s p).foldl (fun s c => modCluster s c (fun x => { x with traceOn := false })) s) s

end Sys2Proof.Machine
end

