-- ==== Sys2Proof/Machine/Hash.lean ====
section
/-!
DEFINITION. Digests and check sums: SHA-256 (R143, R405), CRC-32C (R372, R382) and the CRC-64 of R299; and the component
entries of a firmware bundle.
-/
namespace Sys2Proof.Machine

/-- The largest r below 2^n with r^k at most x. -/
def rootBelow (k x : Nat) : Nat → Nat → Nat
  | 0, r => r
  | n + 1, r => rootBelow k x n (if (r + 2 ^ n) ^ k ≤ x then r + 2 ^ n else r)

/-- The first 32 bits of the fraction of the k-th root of a number (FIPS 180-4). -/
def rootFraction (k p : Nat) : Word := wd (rootBelow k (p * 2 ^ (32 * k)) 38 0 % 2 ^ 32)

/-- The primes below 312, of which there are 64. -/
def smallPrimes : List Nat :=
  ((List.range 312).drop 2).filter (fun p => ((List.range 18).drop 2).all (fun d => p = d || p % d ≠ 0))

/-- The round constants of SHA-256 are the fractions of the cube roots of the first 64 primes, and its initial hash value those
of the square roots of the first 8. -/
def shaK : List Word := smallPrimes.map (rootFraction 3)
def shaInit : List Word := (smallPrimes.take 8).map (rootFraction 2)

/-- The exclusive or of the rotations of a word. -/
def rotations (x : Word) (l : List Nat) : Word := l.foldl (fun acc r => acc ^^^ x.rotateRight r) 0

/-- The next words of the message schedule; the list holds the words so far, the newest first. -/
def shaExtend : Nat → List Word → List Word
  | 0, w => w
  | n + 1, w =>
    let near := w.getD 1 0
    let far := w.getD 14 0
    shaExtend n ((w.getD 6 0 + w.getD 15 0 + (rotations far [7, 18] ^^^ (far >>> 3)) +
      (rotations near [17, 19] ^^^ (near >>> 10))) :: w)

/-- One round on the eight working variables, with the sum of the round's constant and word. -/
def shaRound (v : List Word) (kw : Word) : List Word :=
  let x (i : Nat) := v.getD i 0
  let choose := x 6 ^^^ (x 4 &&& (x 5 ^^^ x 6))
  let major := (x 0 &&& x 1) ||| (x 2 &&& (x 0 ||| x 1))
  let mix := x 7 + kw + choose + rotations (x 4) [6, 11, 25]
  (mix + major + rotations (x 0) [2, 13, 22]) :: v.take 3 ++ (x 3 + mix) :: (v.drop 4).take 3

/-- A big-endian word of a byte list. -/
def beWord : List Byte → Word
  | [] => 0
  | b :: t => (wd (b.toNat <<< (8 * t.length))) + beWord t

/-- One block of 64 bytes. -/
def shaBlock (h : List Word) (blk : List Byte) : List Word :=
  let w := (List.range 16).map (fun i => beWord (slice blk (4 * i) 4))
  let ws := (shaExtend 48 w.reverse).reverse
  let v := (List.zipWith (· + ·) shaK ws).foldl shaRound h
  List.zipWith (· + ·) h v

/-- The blocks of a padded message. -/
def shaBlocks : Nat → List Word → List Byte → List Word
  | 0, h, _ => h
  | n + 1, h, m => shaBlocks n (shaBlock h (m.take 64)) (m.drop 64)

/-- The bytes of a word, the highest first. -/
def beBytes (w : Word) : List Byte := (leBytes w.toNat 4).reverse

/-- SHA-256 of a byte list. -/
def sha256 (m : List Byte) : List Byte :=
  let n := m.length
  let padded := m ++ [(0x80 : Byte)] ++ List.replicate ((119 - n % 64) % 64) 0 ++ (leBytes (8 * n) 8).reverse
  (shaBlocks (padded.length / 64) shaInit padded).flatMap beBytes

/-- One bit of a reflected CRC. -/
def crcBit (poly c : Nat) : Nat := if c % 2 = 1 then (c / 2) ^^^ poly else c / 2

/-- One byte of a reflected CRC. -/
def crcByte (poly c : Nat) (b : Byte) : Nat :=
  (List.range 8).foldl (fun c _ => crcBit poly c) (c ^^^ b.toNat)

/-- CRC-32C: Castagnoli's polynomial, reflected, initial value and final inversion of all ones (log entry 13). -/
def crc32c (bs : List Byte) : Nat := (bs.foldl (crcByte 0x82F63B78) 0xFFFFFFFF) ^^^ 0xFFFFFFFF

/-- One byte of the CRC-64, most significant bit first. -/
def crc64Byte (c : Nat) (b : Byte) : Nat :=
  (List.range 8).foldl (fun c _ =>
    let d := (c * 2) % 2 ^ 64
    if bit c 63 then d ^^^ 0x42F0E1EBA9EA3693 else d) (c ^^^ (b.toNat <<< 56))

/-- CRC-64 as R299 defines it. -/
def crc64 (bs : List Byte) : Nat := (bs.foldl crc64Byte (2 ^ 64 - 1)) ^^^ (2 ^ 64 - 1)

/-- A component entry of a header: TYPE, OFFSET, SIZE, HASH (R405). -/
def compType (b : List Byte) (i : Nat) : Nat := leAt b (0x40 + 48 * i) 2
def compOff (b : List Byte) (i : Nat) : Nat := leAt b (0x44 + 48 * i) 4
def compSize (b : List Byte) (i : Nat) : Nat := leAt b (0x48 + 48 * i) 4
def compHash (b : List Byte) (i : Nat) : List Byte := slice b (0x50 + 48 * i) 32

end Sys2Proof.Machine
end

