-- ==== Sys2Proof/Machine/Maps.lean ====
section
/-!
DEFINITION. Retirement of cores, clusters, slices and pseudo-channels, and the forming of maps (R203, R221, R223, R224,
R374 to R379).
-/
namespace Sys2Proof.Machine

/-! ### Cores and clusters -/

/-- Physical cores of a cluster that are out by fuse or by the field record (R374). -/
def coresOut (s : State) (clu : Nat) : Nat :=
  mgetD s.fuses.defects clu 0 |||
    maskOf ((s.fieldCores.filter (fun n => coreClu n = clu)).map coreJ)

/-- Enter cores in the field record (R379). -/
def fieldAdd (s : State) (l : List Nat) : State :=
  let new := l.filter (fun n => !s.fieldCores.contains n)
  if new.isEmpty then s else { s with fieldCores := s.fieldCores ++ new, fieldDirty := true }

/-- A cluster's map is formed from its usable cores (R375). -/
def formMap (s : State) (clu : Nat) : State :=
  if (cluster s clu).clusterRetired then
    modCluster s clu (fun c => { c with map := [], spare := 31, usable := 0, retired := 0x3FFFF, degraded := true })
  else
    let out := coresOut s clu
    let us := (List.range 18).filter (fun j => !bit out j)
    let map := us.take 17
    let s := modCluster s clu (fun c => { c with
      retired := out, usable := maskOf us, map := map, spare := (us.drop 17).headD 31, degraded := decide (map.length < 17) })
    if map.length < 17 then recErr s eClusterDegraded clu 0 map.length noCtag else s

/-- A core is retired and entered in the field record (R376, R378, R384): cause 1 BIST, 2 peal, 3 in operation. The map
is formed by the caller. -/
def retireCore (s : State) (n cause : Nat) : State :=
  let s := modCore (fieldAdd s [n]) n (fun c => { c with retirePending := false })
  recErr s eCoreRetired (coreClu n) (coreJ n) cause noCtag

/-- A cluster's network has failed in operation: its retirement is pending; a failure that stops the network escalates
the owning partition to reset at once (R377). -/
def clusterPending (s : State) (clu cause : Nat) (stops : Bool) : State :=
  let c := cluster s clu
  if c.clusterRetired then s
  else
    let s :=
      if c.clusterPend ≠ 0 then s
      else recErr (modCluster s clu (fun c => { c with clusterPend := cause })) eClusterRetired clu 0 cause noCtag
    if stops then requestPart s (partOfClu s clu) 6 true false (page .clu clu) else s

/-- A cluster is retired with its 18 cores and its queue set (R377). -/
def retireCluster (s : State) (clu : Nat) : State :=
  let s := fieldAdd s ((List.range 18).map (coreOf clu))
  formMap (modCluster s clu (fun c => { c with
    clusterRetired := true, clusterPend := 0, holdBuf := [], waitRecs := [], rings := [], cqs := [], fqEnabled := false, tlb := [], wc := [] })) clu

/-- The pending retirements of a partition's clusters and cores take effect and the maps are formed (R376). -/
def applyPending (s : State) (p : Nat) : State :=
  let clus := (partClus s p).filter (fun c => (cluster s c).clusterPend ≠ 0)
  let s := clus.foldl retireCluster s
  let cores := (s.cores.filter (fun e => e.2.retirePending && partOfCore s e.1 = p)).map (·.1)
  let s := cores.foldl (fun s n =>
    if (cluster s (coreClu n)).clusterRetired then modCore s n (fun c => { c with retirePending := false })
    else retireCore s n 3) s
  ((cores.map coreClu).eraseDups.filter (fun c => !(cluster s c).clusterRetired)).foldl formMap s

/-! ### The peal (R381 to R386) -/

/-- The core image of the running bundle, padded with zeros to whole chunks of 4 KiB (R381, R382). -/
def coreImage (s : State) : List Byte :=
  match (List.range 6).find? (fun i => compType s.fw.bundle i = 4) with
  | some i => padTo (slice s.fw.bundle (compOff s.fw.bundle i) (compSize s.fw.bundle i))
      ((compSize s.fw.bundle i + 4095) / 4096 * 4096)
  | none => []

/-- Does a peal of the package, or of a partition, reach core n: every physical core that is not retired (R383)? -/
def pealScope (s : State) (part : Option Nat) (n : Nat) : Bool :=
  (match part with | some p => decide (partOfCore s n = p) | none => true) &&
  !(cluster s (coreClu n)).clusterRetired && !bit (cluster s (coreClu n)).retired (coreJ n)

/-- A peal starts (R383 step 1): each core of the scope clears its chunk bitmap. `again` marks the repeat of R386. -/
def pealStart (s : State) (part : Option Nat) (again : Bool) : State :=
  let img := coreImage s
  let new : PealCore :=
    { pkg := part.isNone, again := again, id := leAt s.fw.bundle 0x20 4, total := img.length / 4096, crc := crc64 img }
  let cores := (List.range 1152).filter (pealScope s part)
  let clus := match part with | some p => partClus s p | none => List.range 64
  let s := clus.foldl (fun s c => modCluster s c (fun x => { x with pealFailed := 0 })) s
  { s with pealCores := match part with
    | none => cores.map (fun n => (n, new))
    | some p => mputs (mfilter s.pealCores (fun n _ => partOfCore s n ≠ p)) (cores.map (fun n => (n, new))) }

/-! ### Staging slices -/

/-- A staging slice is retired: unpopulated, and in the field record (R223, R379). -/
def retireSlice (s : State) (i : Nat) : State :=
  let s := rset s .stg i 0x124 (setBit (setBit (rget s .stg i 0x124) 0 false) 1 true)
  if s.fieldSlices.contains i then s else { s with fieldSlices := s.fieldSlices ++ [i], fieldDirty := true }

/-- The slices of a partition. -/
def partSlices (s : State) (p : Nat) : List Nat := (List.range 64).filter (fun i => partOfSlice s i = p)

/-- The regions of a partition. -/
def partRegions (s : State) (p : Nat) : List Nat := (List.range 8).filter (fun r => partOfRegion s r = p)

/-! ### Zeroising -/

/-- Background zeroising of a region starts: every byte reads zero from now on (R224), and ZEROISING shows until the end. -/
def zeroRegion (s : State) (r : Nat) : State :=
  let s := zeroMem s (r * 0x1800000000) 0x1800000000
  let s := rset s .hbm (2 * r) 0x144 (setBit (rget s .hbm (2 * r) 0x144) 16 true)
  { s with zeroAt := mput s.zeroAt r 0 }

/-- The bytes of a staging slice from its base that a held dump keeps (R205). -/
def dumpBytes (s : State) (i : Nat) : Nat :=
  if dumpClosed s then (if i < 2 then 0x1800000 else if i = 2 then 0x1000000 else 0) else 0

/-- Zeroising of a staging slice starts; a held dump stays (R205, R224). -/
def zeroSlice (s : State) (i : Nat) : State :=
  let keep := dumpBytes s i
  let s := zeroMem s (sliceDpa i + keep) (0x1800000 - keep)
  let s := rset s .stg i 0x124 (setBit (rget s .stg i 0x124) 3 true)
  { s with zeroAt := mput s.zeroAt (8 + i) 0 }

/-- The local memory of the cores of a partition is zeroised. -/
def zeroLocal (s : State) (p : Nat) : State :=
  { s with
    mem := s.mem.filter (fun e => match dpaKind e.1 with
      | .lm n _ => partOfCore s n ≠ p
      | _ => true)
    poison := mfilter s.poison (fun g _ => match dpaKind (64 * g) with
      | .lm n _ => partOfCore s n ≠ p
      | _ => true) }

/-! ### Pseudo-channels -/

/-- HBM_STATE of a stack by its retired pseudo-channels: READY, DEGRADED or RETIRED (R230). -/
def stackState (s : State) (k : Nat) : Nat :=
  let n := popBelow (rget s .hbm k 0x110).toNat 32 + popBelow (rget s .hbm k 0x114).toNat 32
  if n = 0 then 2 else if n = 64 then 5 else 4

/-- HBM_REGION_CFG and HBM_REGION_SIZE follow the surviving pseudo-channels (R203). -/
def setRegion (s : State) (r : Nat) : State :=
  let n := (survivors s r).length
  let s := rset s .hbm (2 * r) 0x144 (packFields [(0, b2n (decide (n < 128))), (8, n)])
  rset s .hbm (2 * r) 0x148 (wd (n * 768))

/-- A pseudo-channel is retired. -/
def retirePc (s : State) (k pc : Nat) : State :=
  let off := if pc < 32 then 0x110 else 0x114
  rset s .hbm k off (setBit (rget s .hbm k off) (pc % 32) true)

/-- The pending pseudo-channels of a region are retired (R221); the answer says whether its map changed. -/
def retirePcs (s : State) (r : Nat) : State × Bool :=
  let pend (k : Nat) : Nat := (rget s .hbm k 0x118).toNat ||| ((rget s .hbm k 0x11C).toNat <<< 32)
  let a := pend (2 * r)
  let b := pend (2 * r + 1)
  if a = 0 && b = 0 then (s, false)
  else
    let s := (onesBelow a 64).foldl (fun s pc => retirePc s (2 * r) pc) s
    let s := (onesBelow b 64).foldl (fun s pc => retirePc s (2 * r + 1) pc) s
    let s := [2 * r, 2 * r + 1].foldl (fun s k =>
      rset (rset (rset s .hbm k 0x118 0) .hbm k 0x11C 0) .hbm k 0x100 (wd (stackState s k))) s
    let s := { s with pcDead := s.pcDead.filter (fun e => e.1 / 2 ≠ r) }
    (setRegion s r, true)

/-- Step 4 of R466 for memory: pending pseudo-channels and slices of the partition; the regions whose map changed. -/
def retireMemory (s : State) (p : Nat) : State × List Nat :=
  let s := ((partSlices s p).filter (fun i => wbit (rget s .stg i 0x124) 0)).foldl retireSlice s
  (partRegions s p).foldl (fun (a : State × List Nat) r =>
    let (s, ch) := retirePcs a.1 r
    (s, if ch then a.2 ++ [r] else a.2)) (s, [])

/-! ### HBM keys -/

/-- New HBM keys of a partition are drawn; regions that are encrypted show KEY_VALID (R226, R431). -/
def drawHbmKeys (s : State) (p : Nat) : State :=
  let (_, s) := drawWords s 16
  let s := { s with sec := { s.sec with hbmKeys := s.sec.hbmKeys ||| (1 <<< p) } }
  (partRegions s p).foldl (fun s r =>
    [2 * r, 2 * r + 1].foldl (fun s k =>
      rset s .hbm k 0x140 (setBit (rget s .hbm k 0x140) 1 (wbit (rget s .hbm k 0x140) 0))) s) s

end Sys2Proof.Machine
end

