-- ==== Sys2Proof/Machine/Dump.lean ====
section
/-!
DEFINITION. When a crash dump is collected, skipped, held and released (R477 to R479, R482, R486 to R488).
-/
namespace Sys2Proof.Machine

/-- DMP_STATUS bits: a dump is held, or being collected. -/
def dumpHeld (s : State) : Bool := wbit (rget s .dmp 0 0x104) 0
def dumpCollecting (s : State) : Bool := s.dump.isSome

/-- May a dump be collected now (R478): a chip reset, a reset of the partition that owns the dump region, or that
partition holds no context? -/
def dumpAllowed (s : State) : Bool :=
  s.chipReset.isSome || (mget s.partReset (partOfSlice s 0)).isSome || (partSlots s (partOfSlice s 0)).isEmpty

/-- A dump is not collected: DMP_SKIPPED (R476, R478). -/
def dumpSkip (s : State) (trigger : Nat) : State :=
  recErr (bump s .dmp 0 0x114 1) eDmpSkipped 0 0 trigger noCtag

/-- DMP_STATUS: HELD, COLLECTING, TRIGGER and the size in 4 KiB units (R487). -/
def setDumpStatus (s : State) (held coll : Bool) (trigger size : Nat) : State :=
  rset s .dmp 0 0x104 (packFields [(0, b2n held), (1, b2n coll), (4, trigger), (16, (size + 4095) / 4096)])

/-- HNG_DUMP_RESULT, which DMP_RESULT shows too: BUSY and RESULT. -/
def setDumpResult (s : State) (busy : Bool) (res : Nat) : State :=
  rset s .hng 0 0x18C (packFields [(0, b2n busy), (4, res)])

/-- Collection starts: triggers 1 CHIP, 2 PARTITION, 3 ALARM, 4 HANG, 5 COMMAND (R477, R478, R481). The dump region is the
Carillon's alone from now on. -/
def dumpStart (s : State) (trigger pg scope core : Nat) : State :=
  if dumpHeld s || dumpCollecting s || !dumpAllowed s then dumpSkip s trigger
  else setDumpStatus
    { s with dump := some { trigger := trigger, startUs := s.us, page := pg, scope := scope, core := core } } false true trigger 0

/-- TAKE (R477, R478): RESULT HELD with a dump held or in collection, REGION_BUSY when R478 does not allow one. -/
def dumpTake (s : State) : State :=
  if dumpHeld s || dumpCollecting s then setDumpResult (dumpSkip s 5) (dumpCollecting s) 2
  else if !dumpAllowed s then setDumpResult (dumpSkip s 5) false 1
  else setDumpResult (dumpStart s 5 (page .dmp 0) 0xFF 0) true 0

/-- RELEASE (R482): the region returns to its partition and its bytes read as zeros; NONE when no dump is held. -/
def dumpRelease (s : State) : State :=
  if !dumpHeld s then setDumpResult s (dumpCollecting s) 3
  else setDumpResult (setDumpStatus (zeroMem s stgBase 0x4000000) false false 0 0) false 0

/-- The command page of a requester: HNG_DUMP_CMD for host functions, DMP_CMD for the Carillon (R486, R487). -/
def dumpCmd (s : State) (req : Req) (hng : Bool) (f : State → State) : State :=
  if hng then guardWrite s req .hng 0 0x188 f else guardWrite s req .dmp 0 0x108 f

/-- DUMP_TAKE (R478). -/
def execDumpTake (req : Req) (hng : Bool) (s : State) : Host.Outcome State Fault Refusal :=
  .next (dumpCmd s req hng dumpTake)

/-- DUMP_RELEASE (R482), by a register; `req` the Carillon with `hng` false is the management message too. -/
def execDumpRelease (req : Req) (hng : Bool) (s : State) : Host.Outcome State Fault Refusal :=
  .next (dumpCmd s req hng dumpRelease)

/-- A dump byte at an offset of the region, 0 when none is held. -/
def dumpByte (s : State) (off : Nat) : Byte := if dumpHeld s then memGet s.mem (stgBase + off) else 0

/-- HNG_DUMP_DATA(i): four bytes at HNG_DUMP_OFFSET + 4i (R486). -/
def dumpData (s : State) (i : Nat) : Word :=
  let o := fld (rget s .hng 0 0x184) 25 6 * 64 + 4 * i
  wd (leNat ((List.range 4).map (fun j => dumpByte s (o + j))))

/-- A read of HNG_DUMP_DATA(15) advances HNG_DUMP_OFFSET by 64. -/
def advanceDump (s : State) : State :=
  let w := rget s .hng 0 0x184
  rset s .hng 0 0x184 (setFld w 25 6 ((fld w 25 6 + 1) % 2 ^ 20))

/-- DUMP_DATA_READ (R486). -/
def execDumpDataRead (req : Req) (s : State) : Host.Outcome State Fault Refusal :=
  .next (
    if !answered s req then s
    else if !pageOpen s req (page .hng 0) then emit (denied s req (page .hng 0 + 0x1FC)) (.readData req (page .hng 0 + 0x1FC) 0)
    else advanceDump (emit s (.readData req (page .hng 0 + 0x1FC) (dumpData s 15))))

end Sys2Proof.Machine
end

