-- ==== Sys2Proof/Machine/Num.lean ====
section
/-!
DEFINITION. Numbers: the formats of R104, exact values, and the roundings and conversions of R105 to R114, R131, R135.
-/
namespace Sys2Proof.Machine

/-- The exact value of a number: NaN, an infinity, or (−1)^neg × m × 2^e. -/
inductive Num where
  | nan
  | inf (neg : Bool)
  | fin (neg : Bool) (m : Nat) (e : Int)
deriving DecidableEq, Repr

/-- A floating-point format (R104): exponent bits, mantissa bits, bias. -/
inductive Fmt where
  | fp32 | fp16 | bf16 | e4m3 | e5m2 | e2m1
deriving DecidableEq, Repr

namespace Fmt

def ebits : Fmt → Nat
  | fp32 => 8 | fp16 => 5 | bf16 => 8 | e4m3 => 4 | e5m2 => 5 | e2m1 => 2

def mbits : Fmt → Nat
  | fp32 => 23 | fp16 => 10 | bf16 => 7 | e4m3 => 3 | e5m2 => 2 | e2m1 => 1

def bias : Fmt → Nat
  | fp32 => 127 | fp16 => 15 | bf16 => 127 | e4m3 => 7 | e5m2 => 15 | e2m1 => 1

def width (f : Fmt) : Nat := 1 + f.ebits + f.mbits

/-- The format has infinities. -/
def hasInf : Fmt → Bool
  | e4m3 => false | e2m1 => false | _ => true

/-- Exponent of the unit in the last place of a subnormal. -/
def qMin (f : Fmt) : Int := 1 - (f.bias : Int) - f.mbits

/-- Bits of the largest finite magnitude M. -/
def maxBits (f : Fmt) : Nat :=
  match f with
  | e4m3 => 0x7E
  | e2m1 => 7
  | _ => ((2 ^ f.ebits - 1) <<< f.mbits) - 1

/-- Significand of M and the exponent of its unit in the last place. -/
def maxSig (f : Fmt) : Nat := 2 ^ f.mbits + f.maxBits % 2 ^ f.mbits
def maxQ (f : Fmt) : Int := f.qMin + ((f.maxBits >>> f.mbits : Nat) : Int) - 1

/-- The canonical NaN (R105); E2M1 has none and stores +0. -/
def nanBits : Fmt → Nat
  | fp32 => 0x7FC00000 | fp16 => 0x7E00 | bf16 => 0x7FC0 | e4m3 => 0x7F | e5m2 => 0x7E | e2m1 => 0

/-- The sign bit alone. -/
def signBit (f : Fmt) (neg : Bool) : Nat := if neg then 2 ^ (f.width - 1) else 0

/-- The infinity of a sign; where the format has none, NaN for E4M3 and ±M for E2M1 (R111). -/
def infBits (f : Fmt) (neg : Bool) : Nat :=
  match f with
  | e4m3 => 0x7F
  | e2m1 => f.signBit neg + f.maxBits
  | _ => f.signBit neg + ((2 ^ f.ebits - 1) <<< f.mbits)

/-- The value of the bits of a format (R104). -/
def decode (f : Fmt) (w : Nat) : Num :=
  let neg := bit w (f.width - 1)
  let ex := bits w f.mbits f.ebits
  let m := bits w 0 f.mbits
  if f.hasInf && ex = 2 ^ f.ebits - 1 then (if m = 0 then .inf neg else .nan)
  else if f = e4m3 && ex = 15 && m = 7 then .nan
  else if ex = 0 then .fin neg m f.qMin
  else .fin neg (2 ^ f.mbits + m) (f.qMin + ex - 1)

end Fmt

/-- Rounding modes (R110). -/
inductive Rm where
  | rne | rtz | sr
deriving DecidableEq, Repr

/-- The mode of a code; 3 is reserved. -/
def rmOf (c : Nat) : Option Rm := if c = 0 then some .rne else if c = 1 then some .rtz else if c = 2 then some .sr else none

/-- m × 2^e shifted so that the last retained bit has weight 2^q, rounded; `rnd` is the draw of SR (R110, R113). -/
def roundAt (m : Nat) (e q : Int) (rm : Rm) (rnd : Nat) : Nat :=
  if q ≤ e then m <<< (e - q).toNat
  else
    let d := (q - e).toNat
    let t := m >>> d
    let r := m % 2 ^ d
    match rm with
    | .rtz => t
    | .rne => if 2 * r < 2 ^ d then t else if 2 ^ d < 2 * r then t + 1 else t + t % 2
    | .sr =>
      let f := if 16 ≤ d then r >>> (d - 16) else r <<< (16 - d)
      if r = 0 then t else if 65536 ≤ f + rnd then t + 1 else t

/-- Compare m1 × 2^e1 with m2 × 2^e2. -/
def leMag (m1 : Nat) (e1 : Int) (m2 : Nat) (e2 : Int) : Bool :=
  if e1 ≤ e2 then decide (m1 ≤ m2 <<< (e2 - e1).toNat) else decide (m1 <<< (e1 - e2).toNat ≤ m2)

/-- Exponent of the leading bit of m × 2^e, m ≠ 0. -/
def leadExp (m : Nat) (e : Int) : Int := (Nat.log2 m : Int) + e

/-- Round an exact value to a format, with the overflow rules of R111. -/
def roundTo (f : Fmt) (rm : Rm) (sat : Bool) (rnd : Nat) (x : Num) : Nat :=
  match x with
  | .nan => f.nanBits
  | .inf neg => if sat then f.signBit neg + f.maxBits else f.infBits neg
  | .fin neg m e =>
    if m = 0 then f.signBit neg
    else if !leMag m e f.maxSig f.maxQ then
      if sat || f = .e2m1 || rm = .rtz then f.signBit neg + f.maxBits
      else if leMag (2 * f.maxSig + 1) (f.maxQ - 1) m e then f.infBits neg
      else f.signBit neg + f.maxBits
    else
      let q := max (leadExp m e - f.mbits) f.qMin
      f.signBit neg + ((q - f.qMin).toNat <<< f.mbits) + roundAt m e q rm rnd

/-- Round by RNE without saturation: the arithmetic that has no mode field (R110). -/
def rne (f : Fmt) (x : Num) : Nat := roundTo f .rne false 0 x

/-! ### Exact arithmetic -/

/-- A signed significand. -/
def sg (neg : Bool) (m : Nat) : Int := if neg then -(m : Int) else m

/-- Value from a signed significand; an exact zero takes the sign `z`. -/
def ofInt (v : Int) (e : Int) (z : Bool) : Num :=
  if v = 0 then .fin z 0 0 else .fin (decide (v < 0)) v.natAbs e

/-- Exact sum (IEEE 754 specials and signs of zero under RNE). -/
def addN (a b : Num) : Num :=
  match a, b with
  | .nan, _ => .nan
  | _, .nan => .nan
  | .inf x, .inf y => if x = y then .inf x else .nan
  | .inf x, _ => .inf x
  | _, .inf y => .inf y
  | .fin n1 m1 e1, .fin n2 m2 e2 =>
    let e := min e1 e2
    ofInt (sg n1 (m1 <<< (e1 - e).toNat) + sg n2 (m2 <<< (e2 - e).toNat)) e
      (m1 = 0 && m2 = 0 && n1 && n2)

/-- Negation. -/
def negN : Num → Num
  | .nan => .nan
  | .inf n => .inf (!n)
  | .fin n m e => .fin (!n) m e

/-- Exact product. -/
def mulN (a b : Num) : Num :=
  match a, b with
  | .nan, _ => .nan
  | _, .nan => .nan
  | .inf x, .inf y => .inf (x != y)
  | .inf x, .fin n m _ => if m = 0 then .nan else .inf (x != n)
  | .fin n m _, .inf y => if m = 0 then .nan else .inf (n != y)
  | .fin n1 m1 e1, .fin n2 m2 e2 => .fin (n1 != n2) (m1 * m2) (e1 + e2)

/-- Exact a × b + c. -/
def fmaN (a b c : Num) : Num := addN (mulN a b) c

/-- a < b for numbers that are not NaN; zeros of both signs are equal. -/
def ltN (a b : Num) : Bool :=
  match a, b with
  | .nan, _ => false
  | _, .nan => false
  | .inf x, .inf y => x && !y
  | .inf x, _ => x
  | _, .inf y => !y
  | .fin n1 m1 e1, .fin n2 m2 e2 =>
    let e := min e1 e2
    decide (sg n1 (m1 <<< (e1 - e).toNat) < sg n2 (m2 <<< (e2 - e).toNat))

/-- a = b for numbers that are not NaN. -/
def eqN (a b : Num) : Bool := a ≠ .nan && b ≠ .nan && !ltN a b && !ltN b a

/-- A zero of negative sign. -/
def negZero : Num → Bool
  | .fin n m _ => n && m = 0
  | _ => false

/-- Maximum with −0 below +0, NaN when either is NaN (R131, R135). -/
def maxN (a b : Num) : Num :=
  if a = .nan || b = .nan then .nan
  else if ltN a b then b else if ltN b a then a else if negZero a then b else a

/-- Minimum with −0 below +0, NaN when either is NaN (R131, R135). -/
def minN (a b : Num) : Num :=
  if a = .nan || b = .nan then .nan
  else if ltN a b then a else if ltN b a then b else if negZero a then a else b

/-! ### Integers (R112, R131) -/

/-- A 32-bit word as a signed number. -/
def sint (w : Nat) : Int := if w % 2 ^ 32 < 2 ^ 31 then (w % 2 ^ 32 : Nat) else (w % 2 ^ 32 : Nat) - 2 ^ 32

/-- The 32-bit word of an integer. -/
def wordOfInt (v : Int) : Nat := (v % (2 ^ 32 : Int)).toNat

/-- Saturate to the range of INT32, or of a 32-bit unsigned integer. -/
def satInt (signed : Bool) (v : Int) : Int :=
  let lo : Int := if signed then -(2 ^ 31 : Int) else 0
  let hi : Int := if signed then (2 ^ 31 : Int) - 1 else (2 ^ 32 : Int) - 1
  if v < lo then lo else if hi < v then hi else v

/-- Round a value to a 32-bit integer: saturating, NaN to 0 (R112). -/
def toInt32 (signed : Bool) (rm : Rm) (rnd : Nat) (x : Num) : Nat :=
  match x with
  | .nan => 0
  | .inf neg => wordOfInt (satInt signed (if neg then -(2 ^ 40 : Int) else 2 ^ 40))
  | .fin neg m e => wordOfInt (satInt signed (sg neg (roundAt m e 0 rm rnd)))

/-- The exact value of an integer. -/
def ofIntN (v : Int) : Num := ofInt v 0 false

/-! ### Stochastic rounding (R114) -/

/-- The 16-bit draw of R114. -/
def srBits (seed site idx : Nat) : Nat :=
  let m : Nat := 2 ^ 32
  let h := seed % m ^^^ (site * 0x9E3779B1 % m) ^^^ (idx * 0x6C8E9CF5 % m)
  let h := (h ^^^ (h >>> 16)) * 0x3A4F27D1 % m
  let h := (h ^^^ (h >>> 15)) * 0xB5E61C93 % m
  (h ^^^ (h >>> 16)) % 65536

/-! ### Words of a format -/

/-- FP32 and the 16-bit formats: one operation on bits, rounded by RNE. -/
def fAdd (f : Fmt) (a b : Nat) : Nat := rne f (addN (f.decode a) (f.decode b))
def fSub (f : Fmt) (a b : Nat) : Nat := rne f (addN (f.decode a) (negN (f.decode b)))
def fMul (f : Fmt) (a b : Nat) : Nat := rne f (mulN (f.decode a) (f.decode b))
def fFma (f : Fmt) (a b c : Nat) : Nat := rne f (fmaN (f.decode a) (f.decode b) (f.decode c))
def fMin (f : Fmt) (a b : Nat) : Nat := rne f (minN (f.decode a) (f.decode b))
def fMax (f : Fmt) (a b : Nat) : Nat := rne f (maxN (f.decode a) (f.decode b))

/-- The combination of a REDUCE-PUT (R135): OPX [1:0] the operation, [3:2] the type; the destination element and the
arriving one. -/
def reduceElem (opx d x : Nat) : Nat :=
  let op := opx % 4
  if opx / 4 % 4 = 2 then
    if op = 0 then (d + x) % 2 ^ 32
    else if op = 1 then (if sint d < sint x then x else d)
    else (if sint x < sint d then x else d)
  else
    let f : Fmt := if opx / 4 % 4 = 0 then .fp32 else .bf16
    if op = 0 then fAdd f d x else if op = 1 then fMax f d x else fMin f d x

/-- Combine byte ranges element by element (R135). -/
def reduceBytes (opx : Nat) : Nat → List Byte → List Byte → List Byte
  | 0, _, _ => []
  | n + 1, d, x =>
    let w := if opx / 4 % 4 = 1 then 2 else 4
    leBytes (reduceElem opx (leNat (d.take w)) (leNat (x.take w))) w ++ reduceBytes opx n (d.drop w) (x.drop w)

end Sys2Proof.Machine
end

