-- ==== Sys2Proof/Machine/Slots.lean ====
section
/-!
DEFINITION. Commands of the SQ (R74 to R80, R98, R255, R463, R464) and the load of a rudiment (R139 to R145, R166).
-/
namespace Sys2Proof.Machine

/-! ### INSTALL -/

/-- Do two windows of 4 KiB units overlap? -/
def winOverlap (b1 z1 b2 z2 : Nat) : Bool := z1 ≠ 0 && z2 ≠ 0 && decide (b1 < b2 + z2) && decide (b2 < b1 + z1)

/-- The first condition of R77 that an INSTALL of a slot fails, as its result. -/
def installCheck (s : State) (n k : Nat) : Nat :=
  let res := slotReg s n k 0x418
  let st := usedUnits s n (·.strands)
  let bk := usedUnits s n (·.banks)
  let bl := usedUnits s n (·.blocks)
  let xs := usedUnits s n (·.streams)
  let b := winBase s n k
  let z := winSize s n k
  if (slot s n k).st ≠ .free || (slot s n k).restoring then resSlotBusy
  else if 64 - st.length < fld res 6 0 || 8 - bk.length < fld res 11 8 || 64 - bl.length < fld res 18 12 ||
      256 - xs.length < fld res 31 23 then resNoResources
  else if 256 < b + z || (busySlots s n).any (fun j => winOverlap b z (winBase s n j) (winSize s n j)) then resLmConflict
  else if !asidValid s (coreClu n) (slotAsid s n k) then resBadAsid
  else resOk

/-- The next generation of a slot: it wraps from 0x1_FFFF to 1 (R74). -/
def nextGen (g : Nat) : Nat := if g = 0x1FFFF then 1 else g + 1

/-- The CTAG of a context (R74). -/
def mkCtag (n k gen : Nat) : Word :=
  packFields [(0, k), (4, coreJ n), (9, coreClu n % 16), (13, coreTile n), (15, gen)]

/-- Steps 1 to 3 of R78: allocate and zero the units, zero the window where R78 says, set the beat counters to 0,
advance the generation and form the CTAG. -/
def installUnits (s : State) (n k : Nat) : State :=
  let res := slotReg s n k 0x418
  let st := (freeUnits 64 (usedUnits s n (·.strands))).take (fld res 6 0)
  let bk := (freeUnits 8 (usedUnits s n (·.banks))).take (fld res 11 8)
  let bl := (freeUnits 64 (usedUnits s n (·.blocks))).take (fld res 18 12)
  let xs := (freeUnits 256 (usedUnits s n (·.streams))).take (fld res 31 23)
  let asid := slotAsid s n k
  let p := partOfCore s n
  let units := (List.range (winSize s n k)).map (fun i => winBase s n k + i)
  let zeroAll := wbit (slotReg s n k 0x408) 20
  let dirty := units.filter (fun u => zeroAll || (match mget (core s n).lastWriter u with
    | some w => w ≠ (asid, p)
    | none => false))
  let s := dirty.foldl (fun s u => zeroMem s (lmDpa n + u * 4096) 4096) s
  let gen := nextGen (slot s n k).gen
  let s := modCore s n (fun c => { c with
    strands := st.foldl mdel c.strands
    banks := bk.foldl mdel c.banks
    sync := mfilter c.sync (fun o _ => !bl.contains (o / 64))
    streams := xs.foldl mdel c.streams
    relIndex := c.relIndex.filter (fun o => !bl.contains (o / 64))
    rx := mfilter c.rx (fun _ x => x.slot ≠ k)
    teq := mdel c.teq k
    lastWriter := dirty.foldl mdel c.lastWriter })
  modSlot s n k (fun sl => { Slot.init with
    outcome := sl.outcome, gen := gen, ctag := mkCtag n k gen, part := p, strands := st, banks := bk, blocks := bl,
    streams := xs, rud := rudVa s n k, hangW := fld (rget s .hng 0 (0x110 + 4 * p)) 25 0 })

/-- INSTALL on a slot whose conditions are judged now (R77, R78). With RESTORE = 1 the command stays in progress until
the save image has been read (R98). -/
def installNow (s : State) (n k : Nat) (notify : Option (Nat × Nat)) : State :=
  let res := installCheck s n k
  if res ≠ resOk then sqResult s n k res
  else
    let s := leaveA1 (installUnits s n k)
    if wbit (slotReg s n k 0x408) 21 then
      sqBusy (modSlot s n k (fun sl => { sl with restoring := true, notify := notify })) n k
    else
      sqResult (setSt (modSlot s n k (fun sl => { sl with notify := notify })) n k .active) n k resOk

/-- INSTALL: it waits, BUSY, while orphans of the slot's previous context remain (R464). -/
def installCmd (s : State) (n k : Nat) (notify : Option (Nat × Nat)) : State :=
  if frozen s then sqResult s n k resDenied
  else if (core s n).orphans.any (fun o => o.slot = k) then
    sqBusy (modSlot (modCore s n (fun c => { c with deferred := some k })) n k (fun sl => { sl with notify := notify })) n k
  else installNow s n k notify

/-! ### The other commands -/

/-- PREEMPT (R79, R80, R95, R96): each engine stops the slot at its stop point. A HALTED slot stays as it is (log
entry 9). -/
def preemptCmd (s : State) (n k : Nat) : State :=
  let sl := slot s n k
  match sl.st with
  | .free => sqResult s n k resNoTask
  | .preempting => sqResult s n k resOk
  | .halted => sqResult s n k resOk
  | _ =>
    let s := modSlot s n k (fun sl => { sl with preemptUs := s.us, stepOnce := false, stepOrd := none })
    sqResult (setSt s n k .preempting) n k resOk

/-- The streams of a slot go on from their restart points; faulted accesses are translated again (R255). One that still
awaits answers goes on once it has them (R256). -/
def resumeStreams (s : State) (n k : Nat) : State :=
  (slot s n k).streams.foldl (fun s i =>
    if (stream s n i).st ≠ .faulted then s
    else modStream s n i (fun x =>
      if x.stopping then { x with goOn := true } else { x with st := .run, faultPending := false })) s

/-- RESUME (R79, R80, R255). -/
def resumeCmd (s : State) (n k : Nat) : State :=
  let sl := slot s n k
  if sl.st ≠ .faulted then sqResult s n k resNotFaulted
  else
    let s := resumeStreams s n k
    if sl.haltPending then
      sqResult (setSt (modSlot s n k (fun sl => { sl with haltPending := false, prior := .active })) n k .halted) n k resOk
    else sqResult (checkDone (wake (setSt s n k .active) n k) n k) n k resOk

/-- HALT (R79, R80): needs debug level D2; DENIED once an A2 entry has begun (R449). A slot that is FAULTED, PREEMPTING or
HALTED stays as it is (DESIGN CHOICE, log entry 9). -/
def haltCmd (s : State) (n k : Nat) : State :=
  let sl := slot s n k
  if debugLevel s (partOfCore s n) < 2 || s.power.moving.isSome then sqResult s n k resDenied
  else if sl.st = .free then sqResult s n k resNoTask
  else if sl.st = .active || sl.st = .waiting then
    sqResult (setSt (modSlot s n k (fun x => { x with prior := sl.st, stepOnce := false, stepOrd := none })) n k .halted)
      n k resOk
  else sqResult s n k resOk

/-- UNHALT (R79, R80). -/
def unhaltCmd (s : State) (n k : Nat) : State :=
  let sl := slot s n k
  if sl.st = .free then sqResult s n k resNoTask
  else if sl.st ≠ .halted then sqResult s n k resOk
  else
    let s := setSt (modSlot s n k (fun x => { x with stepOnce := false, stepOrd := none })) n k sl.prior
    sqResult (checkDone (wake s n k) n k) n k resOk

/-- Is there a step left to issue? Before the image is loaded there is (R145). -/
def stepLeft (sl : Slot) : Bool := !sl.loaded || decide (sl.pos < hdStepCount sl)

/-- STEP (R79, R80, R148): a HALTED slot performs one pass that reaches issue, and its engines serve it until that step
completes. With no step left there is none to issue; a slot that is not HALTED stays as it is (log entry 9). -/
def stepCmd (s : State) (n k : Nat) : State :=
  let sl := slot s n k
  if debugLevel s (partOfCore s n) < 2 then sqResult s n k resDenied
  else if sl.st = .free then sqResult s n k resNoTask
  else if sl.st = .halted && stepLeft sl then
    sqResult (wake (modSlot s n k (fun x => { x with stepOnce := true, stepOrd := none })) n k) n k resOk
  else sqResult s n k resOk

/-- A command with its OP code reaches a slot (R100): held while the slot's context is being reset (R463), DENIED under
FREEZE (R438). -/
def sqPerform (s : State) (n k op : Nat) : State :=
  if frozen s then sqResult s n k resDenied
  else if (slot s n k).ending.isSome && op ≠ 0 then
    sqBusy (modCore s n (fun c => { c with heldCmd := some (op, k, []) })) n k
  else if op = 1 then installCmd s n k none
  else if op = 2 then preemptCmd s n k
  else if op = 3 then resumeCmd s n k
  else if op = 4 then haltCmd s n k
  else if op = 5 then unhaltCmd s n k
  else if op = 6 then stepCmd s n k
  else sqResult s n k resInvalid

/-- A write of a command to SQ_CMD (R80): ignored with SQ_CMD_OVERLAP while BUSY, and ignored by an SQ in reset
(log entry 9). -/
def sqCmd (s : State) (req : Req) (n k op : Nat) : State :=
  guardWrite s req .sq n 0x108 (fun s =>
    if pageInReset s .sq n then s
    else if (core s n).busy then recErr s eSqCmdOverlap n k 0 (slot s n k).ctag
    else sqPerform s n k op)

def execSqInstall (req : Req) (n k : Nat) (s : State) : Host.Outcome State Fault Refusal := .next (sqCmd s req n k 1)
def execSqPreempt (req : Req) (n k : Nat) (s : State) : Host.Outcome State Fault Refusal := .next (sqCmd s req n k 2)
def execSqResume (req : Req) (n k : Nat) (s : State) : Host.Outcome State Fault Refusal := .next (sqCmd s req n k 3)
def execSqHalt (req : Req) (n k : Nat) (s : State) : Host.Outcome State Fault Refusal := .next (sqCmd s req n k 4)
def execSqUnhalt (req : Req) (n k : Nat) (s : State) : Host.Outcome State Fault Refusal := .next (sqCmd s req n k 5)
def execSqStep (req : Req) (n k : Nat) (s : State) : Host.Outcome State Fault Refusal := .next (sqCmd s req n k 6)

/-- SQ_CMD_INVALID (R80): an unassigned OP value completes with INVALID. -/
def execSqCmdInvalid (req : Req) (n k op : Nat) (s : State) : Host.Outcome State Fault Refusal :=
  .next (sqCmd s req n k (if op % 16 = 0 || 6 < op % 16 then 7 else op % 16))

/-- DEFERRED_INSTALL (R464): the INSTALL proceeds once the last orphan of the slot has cleared. -/
def execDeferredInstall (n : Nat) (s : State) : Host.Outcome State Fault Refusal :=
  .next (match (core s n).deferred with
    | some k =>
      if (core s n).orphans.any (fun o => o.slot = k) then s
      else installNow (modCore s n (fun c => { c with deferred := none })) n k (slot s n k).notify
    | none => s)

/-! ### Image reads by the SQ -/

/-- The slot enters FAULTED on a fetch of the SQ; the fetch is its restart point (R145, R251). -/
def sqFetchFault (s : State) (n k off : Nat) (i : FaultInfo) : State :=
  let s := modSlot s n k (fun sl => { sl with
    haltPending := sl.haltPending || sl.st = .halted })
  let s := recErr s eXeTranslationFault n k 0x1FF (slot s n k).ctag
  let s := postFault s n k i (if (slot s n k).st = .preempting then 4 else 0) 0x1FF 0 off
  if (slot s n k).st = .preempting then s else setSt s n k .faulted

/-- Read bytes of the slot's image at an offset (R139): the bytes, or the state after a fault or a poisoned read. `ecc` is
what the memory finds in the read. -/
def imageRead (s : State) (n k off len : Nat) (ecc : Ecc) : State × Option (List Byte) :=
  match readVa (pagesOf len) s n (slotAsid s n k) accImage ((slot s n k).rud + off) 0 len (slot s n k).ctag ecc with
  | (s, .ok bs) => (s, some bs)
  | (s, .fault o i) => (sqFetchFault s n k (off + o) i, none)
  | (s, .poison e) => (endCtx s n k 5 e 3, none)

/-- What is left of the finding of a command for its reads after one of the image. -/
def imageLeft (s : State) (n k off len : Nat) (ecc : Ecc) : Ecc :=
  eccAfter ecc (granules ((slot s n k).rud + off) len).length

/-! ### Checks at load (R142, R144) -/

/-- A section table entry: TYPE, reserved, COUNT, OFFSET, SIZE. -/
def secEntry (t : List Byte) (i : Nat) : Nat × Nat × Nat × Nat × Nat :=
  (leAt t (16 * i) 2, leAt t (16 * i + 2) 2, leAt t (16 * i + 4) 4, leAt t (16 * i + 8) 4, leAt t (16 * i + 12) 4)

/-- Record size of a section type (R141); ROLL and DATA by the byte. -/
def secRecSize (ty : Nat) : Nat :=
  if ty = 1 || ty = 2 || ty = 4 || ty = 5 then 64 else if ty = 3 || ty = 6 || ty = 7 then 8 else 1

/-- Is the section table well formed but for the sections that are required only when used and for the size of ROLL (R142)?
`cnt` entries, ROLL required exactly when `roll` ≠ 0. -/
def secTableOk (t : List Byte) (cnt size roll : Nat) : Bool :=
  let es := (List.range cnt).map (secEntry t)
  let has (ty : Nat) : Bool := es.any (fun e => e.1 = ty)
  es.all (fun e =>
    decide (1 ≤ e.1) && decide (e.1 ≤ 9) && e.2.1 = 0 && e.2.2.2.1 % 64 = 0 && decide (0x100 + 16 * cnt ≤ e.2.2.2.1) &&
    decide (e.2.2.2.1 + e.2.2.2.2 ≤ size) && (e.1 = 8 || e.2.2.2.2 = e.2.2.1 * secRecSize e.1)) &&
  (es.map (·.1)).eraseDups.length = es.length && has 1 && (has 3 = has 4) && (has 8 = decide (roll ≠ 0)) &&
  (List.range cnt).all (fun i => (List.range cnt).all (fun j => i = j ||
    (let a := secEntry t i; let b := secEntry t j;
     decide (a.2.2.2.1 + a.2.2.2.2 ≤ b.2.2.2.1) || decide (b.2.2.2.1 + b.2.2.2.2 ≤ a.2.2.2.1))))

/-- Ones of a 16-bit number. -/
def popcount16 (n : Nat) : Nat := popBelow n 16

/-- The checks of R144 on the header and the section table that need no further read, in order: 0x4001 to 0x4006; 0 when all
pass. -/
def tableCheck (s : State) (h t : List Byte) : Nat :=
  let size := leAt h 0x0C 4
  let cnt := leAt h 0x0A 2
  if leAt h 0 4 ≠ 0x44555258 then 0x4001
  else if leAt h 4 2 ≠ 1 || leAt h 6 2 ≠ 0 || leAt h 8 2 ≠ 0x100 then 0x4002
  else if leAt h 0x17 1 ≠ 0 || leAt h 0x30 16 ≠ 0 || leAt h 0x60 160 ≠ 0 || bits (leAt h 0x13 1) 3 5 ≠ 0 then 0x4003
  else if leAt h 0x10 2 ≠ 0x4A04 || s.fuses.stepping < leAt h 0x12 1 || !bit (leAt h 0x13 1) s.fuses.variant then 0x4004
  else if size = 0 || size % 64 ≠ 0 || 0x10000000 < size then 0x4005
  else if cnt = 0 || 16 < cnt || !secTableOk t cnt size (leAt h 0x24 4) then 0x4006
  else 0

/-- The checks of R144 after those of the table: 0x4007 to 0x400A, `rb` the first 16 bytes of ROLL; 0 when all pass. -/
def requestCheck (s : State) (n k : Nat) (h rb : List Byte) (set : Nat) : Nat :=
  let res := slotReg s n k 0x418
  let w := leAt h 0x20 4
  let roll := leAt h 0x24 4
  if leAt h 0x1C 4 = 0 || 16384 < leAt h 0x1C 4 || secCount (slot s n k) 1 ≠ leAt h 0x1C 4 then 0x4007
  else if fld res 6 0 < leAt h 0x14 1 || fld res 11 8 < leAt h 0x15 1 || fld res 18 12 < leAt h 0x16 1 ||
      fld res 31 23 < leAt h 0x18 2 || winSize s n k < leAt h 0x1A 2 then 0x4008
  else if w ≠ 0 && (w < 100 || 60000000 < w) then 0x4009
  else if roll ≠ 0 && (leAt rb 0 4 ≠ roll || set ≠ roll) then 0x400A
  else 0

/-- SET_ID of the roll-table set loaded for a partition (R144, R343). -/
def loadedSet (s : State) (p : Nat) : Nat := (rget s .col (barrierPipe s p) 0x218).toNat

/-- Is a SYNC_INIT record valid for a slot (R154)? The records are 8 B each. -/
def syncInitOk (nobj : Nat) (bs : List Byte) (cnt : Nat) : Bool :=
  let recs := (List.range cnt).map (fun i => slice bs (8 * i) 8)
  recs.all (fun r =>
    decide (leAt r 0 2 < nobj) && decide (leAt r 2 1 ≤ 1) && bits (leAt r 3 1) 1 7 = 0 && leAt r 6 2 = 0 &&
    (leAt r 2 1 = 0 || decide (leAt r 4 2 ≤ 1))) &&
  (recs.map (fun r => leAt r 0 2)).eraseDups.length = cnt

/-- Apply SYNC_INIT to the zeroed objects of a slot (R154). -/
def applySyncInit (s : State) (n k : Nat) (bs : List Byte) (cnt : Nat) : State :=
  (List.range cnt).foldl (fun s i =>
    let r := slice bs (8 * i) 8
    match physObj s n k (leAt r 0 2) with
    | some ph => modSync s n ph (fun _ =>
        { SyncObj.init with value := leAt r 4 2, event := leAt r 2 1 = 1, doubleFault := bit (leAt r 3 1) 0 })
    | none => s) s

/-- A check at load fails: SQ_STEP_INVALID with the DETAIL, and the context ends (R145). -/
def loadFail (s : State) (n k det : Nat) : State := errCtx s eSqStepInvalid n k det

/-- Does the image have a section of a type? -/
def hasSec (sl : Slot) (ty : Nat) : Bool := sl.secs.any (fun e => e.1 = ty)

/-- The 64 B records of a section, as far as they are needed. -/
def sectionRecords (s : State) (n k ty : Nat) (needed : Bool) (ecc : Ecc) : State × Option (List (List Byte)) :=
  let cnt := if needed then secCount (slot s n k) ty else 0
  match imageRead s n k (secOff (slot s n k) ty) (64 * cnt) ecc with
  | (s, none) => (s, none)
  | (s, some b) => (s, some ((List.range cnt).map (fun i => slice b (64 * i) 64)))

/-- The rules of presence that depend on use (R141, R142): TE_OPS, XE_DESC and SYNC_PROG when a step has a use for them, AGEN
(kind 5) when a descriptor is AGEN. The records are read where a section is absent. -/
def presenceCheck (s : State) (n k : Nat) (ecc : Ecc) : State × Option Bool :=
  let sl := slot s n k
  match sectionRecords s n k 1 (!(hasSec sl 2 && hasSec sl 4 && hasSec sl 6)) ecc with
  | (s, none) => (s, none)
  | (s, some steps) =>
    if (!hasSec sl 2 && steps.any stHasTe) || (!hasSec sl 4 && steps.any stHasXe) ||
        (!hasSec sl 6 && steps.any (fun r => stWaitLen r ≠ 0 || stSignalLen r ≠ 0)) then (s, some false)
    else match sectionRecords s n k 4 (!hasSec sl 5) (eccAfter ecc steps.length) with
      | (s, none) => (s, none)
      | (s, some descs) => (s, some (descs.all (fun d => leAt d 0 1 ≠ 5)))

/-- Records that `presenceCheck` reads. -/
def presenceReads (sl : Slot) : Nat :=
  (if hasSec sl 2 && hasSec sl 4 && hasSec sl 6 then 0 else secCount sl 1) + (if hasSec sl 5 then 0 else secCount sl 4)

/-- SYNC_INIT and the end of the load (R145, R154, R455): a restored context has its objects from the save image. -/
def loadEnd (s : State) (n k : Nat) (h ib : List Byte) : State :=
  let sl := slot s n k
  let cnt := secCount sl 7
  if !syncInitOk (64 * sl.blocks.length) ib cnt then loadFail s n k 0x400B
  else
    let s := if sl.restored then s else applySyncInit s n k ib cnt
    let w := leAt h 0x20 4
    modSlot s n k (fun sl => { sl with loaded := true, hangW := if w = 0 then sl.hangW else w })

/-- The load of a slot's image once its table has passed: ROLL, the sections required when used, the resources, SYNC_INIT
(R144). -/
def loadRest (s : State) (n k : Nat) (h : List Byte) (ecc : Ecc) : State :=
  let sl := slot s n k
  let roll := leAt h 0x24 4
  let rlen := if roll = 0 then 0 else 16
  match imageRead s n k (secOff sl 8) rlen ecc with
  | (s, none) => s
  | (s, some rb) =>
    let ecc := imageLeft s n k (secOff sl 8) rlen ecc
    if roll ≠ 0 && (section_ sl 8).2.2 ≠ 16 + popcount16 (leAt rb 4 2) * leAt rb 6 1 * 512 then loadFail s n k 0x4006
    else match presenceCheck s n k ecc with
    | (s, none) => s
    | (s, some false) => loadFail s n k 0x4006
    | (s, some true) =>
      let e := requestCheck s n k h rb (loadedSet s (partOfCore s n))
      if e ≠ 0 then loadFail s n k e
      else match imageRead s n k (secOff sl 7) (8 * secCount sl 7) (eccAfter ecc (presenceReads sl)) with
        | (s, none) => s
        | (s, some ib) => loadEnd s n k h ib

/-- The load of a slot's image: header, section table, the checks of R144, SYNC_INIT (R145, R154, R455). -/
def loadCheck (s : State) (n k : Nat) (ecc : Ecc) : State :=
  let sl := slot s n k
  if sl.loaded || !(sl.st = .active || sl.st = .waiting || sl.st = .halted) || sl.ending.isSome then s
  else match imageRead s n k 0 0x100 ecc with
  | (s, none) => s
  | (s, some h) =>
    let ecc := imageLeft s n k 0 0x100 ecc
    let tlen := 16 * min 16 (leAt h 0x0A 2)
    match imageRead s n k 0x100 tlen ecc with
    | (s, none) => s
    | (s, some t) =>
      let e := tableCheck s h t
      if e ≠ 0 then loadFail s n k e
      else
        let secs := (List.range (leAt h 0x0A 2)).map (fun i => let x := secEntry t i; (x.1, x.2.2.1, x.2.2.2.1, x.2.2.2.2))
        loadRest (modSlot s n k (fun sl => { sl with hdr := h, secs := secs })) n k h (imageLeft s n k 0x100 tlen ecc)

end Sys2Proof.Machine
end

