-- ==== Sys2Proof/Machine/Steps.lean ====
section
/-!
DEFINITION. The Sequencer runs a rudiment: prefetch, checks, issue, completion and signal programs (R82 to R84,
R146 to R153, R162, R163, R184, R185, R190, R496).
-/
namespace Sys2Proof.Machine

/-! ### Prefetch -/

/-- The lowest step index from the issue position on that the step buffer does not hold. -/
def prefetchIndex (sl : Slot) : Nat :=
  ((List.range 32).map (fun i => sl.pos + i)).find? (fun i => (bufStep sl i).isNone) |>.getD sl.pos

/-- The part of SYNC_PROG that a program names, zeros when it lies outside (R147 refuses such a step at issue). -/
def progRead (s : State) (n k first len : Nat) (ecc : Ecc) : State × Option (List Byte) :=
  let sl := slot s n k
  if len = 0 || 8 < len || secCount sl 6 < first + len then (s, some (List.replicate 64 0))
  else match imageRead s n k (secOff sl 6 + 8 * first) (8 * len) ecc with
    | (s, none) => (s, none)
    | (s, some bs) => (s, some (padTo bs 64))

/-- What is left of a finding after the read of a program. -/
def progLeft (s : State) (n k first len : Nat) (ecc : Ecc) : Ecc :=
  let sl := slot s n k
  if len = 0 || 8 < len || secCount sl 6 < first + len then ecc
  else imageLeft s n k (secOff sl 6 + 8 * first) (8 * len) ecc

/-- Fetch one step with its wait and signal programs into the step buffer of 32 records of 64 B (R70, R82). -/
def prefetch (s : State) (n k : Nat) (ecc : Ecc) : State :=
  let sl := slot s n k
  let i := prefetchIndex sl
  if !running s n k || !sl.loaded || hdStepCount sl ≤ i || (bufStep sl i).isSome then s
  else match imageRead s n k (secOff sl 1 + 64 * i) 64 ecc with
    | (s, none) => s
    | (s, some r) =>
      let ecc := eccAfter ecc 1
      match progRead s n k (stWaitFirst r) (stWaitLen r) ecc with
      | (s, none) => s
      | (s, some w) =>
        match progRead s n k (stSignalFirst r) (stSignalLen r) (progLeft s n k (stWaitFirst r) (stWaitLen r) ecc) with
        | (s, none) => s
        | (s, some g) =>
          let s := modSlot s n k (fun sl => { sl with
            buf := ((sl.buf.filter (fun e => sl.pos ≤ e.1 || sl.loops.any (fun l => l.start ≤ e.1))) ++
              [(i, r ++ w ++ g)]).reverse.take 32 |>.reverse })
          refresh s n k

/-- STEP_PREFETCH (R82): the SQ fetches a step of an ACTIVE slot into its step buffer. -/
def execStepPrefetch (n : Nat) (rd : Reader) (s : State) : Host.Outcome State Fault Refusal := .next (prefetch s n rd.no rd.ecc)

/-! ### Checks when a step comes up (R147, R153, R163) -/

/-- The outcome of the checks: passed, SQ_STEP_INVALID, or SQ_SYNC_RANGE. -/
inductive StepCheck where
  | ok | invalid | range
deriving DecidableEq, Repr

/-- Is an operation of a program assigned, of the program's kind and with a VALUE in range (R152, R153)? -/
def progOpOk (s : State) (n p : Nat) (wait : Bool) (o : List Byte) : Bool :=
  let v := opValue o
  leAt o 1 1 = 0 && decide (opObj o < 4096) &&
  (if wait then
    match opCode o with
    | 1 => v = 0
    | 2 => decide (1 ≤ v) && decide (v ≤ 65535)
    | 3 => decide (1 ≤ v) && decide (v ≤ 65535)
    | _ => false
  else
    match opCode o with
    | 0x10 => v = 0
    | 0x11 => decide (1 ≤ v) && decide (v ≤ 65535)
    | 0x12 => decide (v ≤ 65535)
    | 0x13 => decide (v < 320) && gongOwned s (coreTile n) v p
    | 0x14 => decide (v < 256)
    | _ => false)

/-- Does an operation match its object's mode (R152, R153)? -/
def progOpMode (s : State) (n k : Nat) (o : List Byte) : Bool :=
  match ctxObj s n k (opObj o) with
  | none => true
  | some x =>
    match opCode o with
    | 1 => x.event | 2 => !x.event | 3 => !x.event | 0x11 => !x.event | 0x12 => !x.event | 0x13 => x.event | 0x14 => x.event
    | _ => true

/-- The check of a program (R153). -/
def progCheck (s : State) (n k : Nat) (wait : Bool) (ops : List (List Byte)) : StepCheck :=
  let nobj := 64 * (slot s n k).blocks.length
  if !ops.all (progOpOk s n (partOfCore s n) wait) then .invalid
  else if ops.any (fun o => nobj ≤ opObj o) then .range
  else if !ops.all (progOpMode s n k) then .invalid
  else if wait && (ops.map opObj).eraseDups.length ≠ ops.length then .invalid
  else .ok

/-- The signal program of a buffered step. -/
def signalOps (r : List Byte) : List (List Byte) := (List.range (min 8 (stSignalLen r))).map (stSignalOp r)

/-- The loop stack once this step's own LOOP_BEGIN has been pushed (R147, R148). -/
def pushedLoops (sl : Slot) (r : List Byte) : List LoopEnt :=
  if stLoopBegin r && !sl.reentry then ⟨sl.pos, stLoopCount r, 0, stLoopExit r⟩ :: sl.loops else sl.loops

/-- The variant of a step (R149). -/
def stVariant (s : State) (n k : Nat) (loops : List LoopEnt) (r : List Byte) : Nat :=
  if stSelSrc r = 1 then ((loops[stSelArg r]?).map (·.iter)).getD 0 % max 1 (stSelNvar r)
  else if stSelSrc r = 2 then ((ctxObj s n k (stSelArg r)).map objRead).getD 0
  else 0

/-- The checks of a step that comes up for issue (R147). -/
def stepCheck (s : State) (n k : Nat) (r : List Byte) : StepCheck :=
  let sl := slot s n k
  let loops := pushedLoops sl r
  let v := stVariant s n k loops r
  let wp := progCheck s n k true (waitOps r)
  let sp := progCheck s n k false (signalOps r)
  let selRange := stSelSrc r = 2 && 64 * sl.blocks.length ≤ stSelArg r
  if bits (stFlags r) 7 9 ≠ 0 || leAt r 0x32 2 ≠ 0 || leAt r 0x3C 4 ≠ 0 then .invalid
  else if !stHasTe r && (leAt r 0xC 8 ≠ 0 || stBeat r 1 ≠ 0) then .invalid
  else if !stHasVe r && (leAt r 0x14 8 ≠ 0 || stBeat r 2 ≠ 0) then .invalid
  else if !stHasXe r && (leAt r 0x1C 8 ≠ 0 || stBeat r 3 ≠ 0) then .invalid
  else if (stHasTe r && stTeCount r = 0) || (stHasVe r && (stVeN r = 0 || 64 < stVeN r || stVeCode r % 8 ≠ 0)) ||
      (stHasXe r && stXeCount r = 0) then .invalid
  else if !stLoopBegin r && (stLoopCount r ≠ 0 || stLoopExit r ≠ 0) then .invalid
  else if stLoopBegin r && (stLoopExit r ≤ sl.pos || hdStepCount sl < stLoopExit r) then .invalid
  else if stLoopBegin r && !sl.reentry && stLoopCount r ≠ 0 && 4 ≤ sl.loops.length then .invalid
  else if 4 < stEndLoops r || loops.length < stEndLoops r then .invalid
  else if 2 < stSelSrc r || stSelNvar r = 0 || (stSelSrc r = 0 && (stSelNvar r ≠ 1 || stSelArg r ≠ 0)) then .invalid
  else if stSelSrc r = 1 && loops.length ≤ stSelArg r then .invalid
  else if selRange then .range
  else if stSelSrc r = 2 && stSelNvar r ≤ v then .invalid
  else if stHasTe r && secCount sl 2 < stTeFirst r + v * stTeStride r + stTeCount r then .invalid
  else if stHasXe r && secCount sl 3 < stXeFirst r + v * stXeStride r + stXeCount r then .invalid
  else if stHasVe r && (sl.strands.length < stVeFirst r + stVeN r ||
      winBytes s n k ≤ stVeCode r + 8 * v * stVeStride r) then .invalid
  else if 8 < stWaitLen r || 8 < stSignalLen r then .invalid
  else if (stWaitLen r ≠ 0 && secCount sl 6 < stWaitFirst r + stWaitLen r) ||
      (stSignalLen r ≠ 0 && secCount sl 6 < stSignalFirst r + stSignalLen r) then .invalid
  else if wp ≠ .ok then wp
  else if sp ≠ .ok then sp
  else if (stHasTe r || stHasVe r || stHasXe r) && stBudget r = 0 then .invalid
  else if stBeat r 0 = 0 || (stHasTe r && stBeat r 1 = 0) || (stHasVe r && stBeat r 2 = 0) || (stHasXe r && stBeat r 3 = 0)
    then .invalid
  else .ok

/-! ### Power -/

/-- The charge of a step in units of 4 mW: ⌈BUDGET × f ÷ f_fused⌉ from at most PWR_CORE_CAP (R496). -/
def stepCharge (s : State) (n budget : Nat) : Nat :=
  let cap := max 1 (fld (rget s .pwr 0 0x124) 15 0)
  (min budget cap * coreClock16 s n + 15) / 16

/-- The SQ asks for the charge of the step at the issue position (R82, R496). -/
def askGrant (s : State) (n k budget : Nat) : State :=
  let sl := slot s n k
  if sl.grantAsked then s else
  let ch := stepCharge s n budget
  let s := if max 1 (fld (rget s .pwr 0 0x124) 15 0) < budget && !sl.budgetCapped then
      recErr (modSlot s n k (fun sl => { sl with budgetCapped := true })) ePwrBudgetCap 0 k n sl.ctag
    else s
  let s := modSlot s n k (fun sl => { sl with grantAsked := true, chargeAsked := ch })
  { s with
    grantReqs := s.grantReqs ++ [(n, k, ch, false)]
    poolAsked := mupd s.poolAsked (coreTile n) 0 (· + ch) }

/-- A charge returns to the tile's pool (R496). -/
def returnCharge (s : State) (n ch : Nat) : State :=
  { s with grants := mupd s.grants (coreTile n) 0 (· - ch) }

/-! ### Issue -/

/-- Add to a beat counter, which wraps (R84). A change returns the idle timer to 0 (R456). -/
def addBeat (s : State) (n k e inc : Nat) : State :=
  if inc = 0 then s else
  modSlot s n k (fun sl =>
    let f (v : Nat) : Nat := (v + inc) % 2 ^ 32
    let sl := { sl with idleUs := 0, hangRaised := false }
    if e = 0 then { sl with beatSq := f sl.beatSq }
    else if e = 1 then { sl with beatTe := f sl.beatTe }
    else if e = 2 then { sl with beatVe := f sl.beatVe }
    else { sl with beatXe := f sl.beatXe })

/-- The consuming effects of a wait program, all at once at issue (R153). -/
def consumeWaits (s : State) (n k : Nat) (ops : List (List Byte)) : State :=
  ops.foldl (fun s o =>
    match physObj s n k (opObj o) with
    | none => s
    | some ph =>
      if opCode o = 1 then modSync (bump s .syn n 0x138 1) n ph (fun x => { x with value := 0 })
      else if opCode o = 2 then modSync (bump s .syn n 0x138 1) n ph (fun x => { x with value := x.value - opValue o })
      else s) s

/-- Close loops at the end of a step (R148): the next position, whether by a loop-back, the loop stack, and whether a
closed loop's exit differs from where issue goes. -/
def closeLoops : Nat → Nat → List LoopEnt → Nat × Bool × List LoopEnt × Bool
  | 0, next, ls => (next, false, ls, false)
  | c + 1, next, ls =>
    match ls with
    | [] => (next, false, [], false)
    | l :: t =>
      if l.iter + 1 < l.count then (l.start, true, { l with iter := l.iter + 1 } :: t, false)
      else if next ≠ l.exit then (next, false, t, true)
      else closeLoops c next t

/-- Hand the chains of an XE part to their streams (R94, R150, R157). A chain waits until its stream is free. -/
def handChains (s : State) (n k order : Nat) (entries : List (List Byte)) : State :=
  let sl := slot s n k
  (List.range entries.length).foldl (fun s i =>
    let e := entries.getD i []
    match sl.streams[leAt e 4 2]? with
    | some ph => modStream s n ph (fun x => { x with waiting := x.waiting ++ [⟨order, i, leAt e 0 4⟩] })
    | none => s) s

/-- Launch the strands of a VE part (R150). -/
def handStrands (s : State) (n k order v iter : Nat) (r : List Byte) : State :=
  let sl := slot s n k
  (List.range (stVeN r)).foldl (fun s i =>
    match sl.strands[stVeFirst r + i]? with
    | some ph => modStrand s n ph (fun x => { x with
        launches := x.launches ++ [⟨order, i, stVeCode r + 8 * v * stVeStride r, v, iter⟩] })
    | none => s) s

/-- Feed the records that wait into the slot's TE queue of 8 operations, those of the older step first (R70, R150). -/
def feedTe (s : State) (n k : Nat) : State :=
  (slot s n k).inflight.foldl (fun s f =>
    let m := min f.teWait (8 - (mgetD (core s n).teq k []).length)
    if m = 0 then s
    else
      let s := modCore s n (fun c => { c with
        teq := mupd c.teq k [] (fun q => q ++ (List.range m).map (fun i => ⟨f.order, f.teNext + i⟩)) })
      modSlot s n k (fun sl => { sl with inflight := sl.inflight.map (fun g =>
        if g.order = f.order then { g with teNext := g.teNext + m, teWait := g.teWait - m } else g) })) s

/-- Hand the records of a TE part over: they are fed into the slot's TE queue as space frees (R150). -/
def handTe (s : State) (n k order first cnt : Nat) : State :=
  feedTe (modSlot s n k (fun sl => { sl with inflight := sl.inflight.map (fun f =>
    if f.order = order then { f with teNext := first, teWait := cnt } else f) })) n k

/-! ### Barrier arrivals (R184, R185, R190) -/

/-- Objects of a slot with PEND > 0, as the release index counts them (R185). -/
def slotPending (s : State) (n k : Nat) : Nat :=
  ((core s n).relIndex.filter (fun o => (slotObjs (slot s n k)).contains o)).length

/-- Make an arrival through a bound object: GPHASE is sent, then GPHASE + 1 and PEND + 1 (R184, step 4). -/
def makeArrival (s : State) (n k ph bar : Nat) (fabric : Bool) : State :=
  let o := syncObj s n ph
  let s := modSync (bump s .syn n 0x138 1) n ph (fun x => { x with gphase := (x.gphase + 1) % 4, pend := x.pend + 1 })
  let s := modCore s n (fun c => { c with
    relIndex := if c.relIndex.contains ph then c.relIndex else c.relIndex ++ [ph] })
  if fabric then send s (.fbArrive (barrierPipe s (partOfCore s n)) n k bar o.gphase)
  else send s (.gongArrive n k bar o.gphase)

/-- Phase of a gong barrier, as a bind read returns it. -/
def gongBar (s : State) (tile bar : Nat) : Barrier := mgetD s.gong (gongKey tile bar) Barrier.init

/-- The operations of a signal program from one on; a bind read holds the rest until it returns (R151, R184). The waits are
evaluated on what the program leaves (R177). -/
def runSignals : List (List Byte) → State → Nat → Nat → State
  | [], s, n, k => modSlot s n k (fun sl => { sl with bind := none })
  | o :: rest, s, n, k =>
    if (slot s n k).ending.isSome then s else
    let v := opValue o
    if opCode o = 0x10 then runSignals rest (syncOp s n k (opObj o) .signal false) n k
    else if opCode o = 0x11 then runSignals rest (syncOp s n k (opObj o) (.add v) false) n k
    else if opCode o = 0x12 then runSignals rest (syncOp s n k (opObj o) (.set v) false) n k
    else
      let fabric := opCode o = 0x14
      match physObj s n k (opObj o) with
      | none => runSignals rest s n k
      | some ph =>
        let x := syncObj s n ph
        let named := x.bound && x.gbar = v && x.gkind = fabric
        if x.pend = 0 && !named then
          if 8 ≤ slotPending s n k then errCtx s eSynArriveLimit n k (opObj o)
          else send (modSlot s n k (fun sl => { sl with bind := some ⟨o :: rest⟩ })) (.bindRead n k)
        else if !named then errCtx s eSynGongBind n k (opObj o)
        else if x.pend = 2 then endGroup (recErr s eBarrierOverrun n k 1 (slot s n k).ctag) (partOfCore s n) (slotGroup s n k) 5 (errField eBarrierOverrun)
        else if x.pend = 0 && 8 ≤ slotPending s n k then errCtx s eSynArriveLimit n k (opObj o)
        else runSignals rest (makeArrival s n k ph v fabric) n k

/-- A step has completed on every engine: its charge returns, its signal program runs, the mirror is rewritten, and the
slot may reach DONE or, under STEP, halt again (R82, R148, R151, R480, R496). -/
def completeStep (s : State) (n k : Nat) (f : InFlight) : State :=
  let s := traceRec (returnCharge s n f.charge) n k 2 f.step
  let s := modSlot s n k (fun sl => { sl with inflight := sl.inflight.filter (fun g => g.order ≠ f.order) })
  let s :=
    match (slot s n k).bind with
    | some h => modSlot s n k (fun sl => { sl with bind := some ⟨h.ops ++ signalOps f.record⟩ })
    | none => wake (runSignals (signalOps f.record) s n k) n k
  let s := modSlot s n k (fun sl =>
    if sl.stepOrd = some f.order then { sl with stepOnce := false, stepOrd := none } else sl)
  checkDone (mirror s n k) n k

/-- STEP_COMPLETE (R151): the step of that issue number, when every part has completed; a step that completed later waits for
its turn. -/
def execStepComplete (n k order : Nat) (s : State) : Host.Outcome State Fault Refusal :=
  .next (match nextDone (slot s n k) with
    | some f => if f.order = order && (slot s n k).ending.isNone then completeStep s n k f else s
    | none => s)

/-- Complete steps in their order of completion until the one of an issue number has been: a step with no parts completes as
soon as it is issued (R151). -/
def completeUpTo : Nat → State → Nat → Nat → Nat → State
  | 0, s, _, _, _ => s
  | fuel + 1, s, n, k, order =>
    match nextDone (slot s n k) with
    | none => s
    | some f =>
      if (slot s n k).ending.isSome then s
      else
        let s := completeStep s n k f
        if f.order = order then s else completeUpTo fuel s n k order

/-- Issue the checked step: consume, resolve the variant, hand over the parts, count the SQ beat, move the issue
position (R148 to R150). -/
def issueStep (s : State) (n k : Nat) (r : List Byte) (chains : List (List Byte)) : State :=
  let sl := slot s n k
  let loops := pushedLoops sl r
  let v := stVariant s n k loops r
  let iter := (loops.head?.map (·.iter)).getD 0
  let order := sl.issued
  let s := consumeWaits s n k (waitOps r)
  let any := stHasTe r || stHasVe r || stHasXe r
  let f : InFlight :=
    { step := sl.pos, order := order, variant := v, iter0 := iter, record := r
      teLeft := if stHasTe r then stTeCount r else 0
      veLeft := if stHasVe r then stVeN r else 0
      xeLeft := if stHasXe r then stXeCount r else 0
      charge := if any then sl.chargeAsked else 0 }
  let (next, back, ls, bad) := closeLoops (stEndLoops r) (sl.pos + 1) loops
  let s := modSlot s n k (fun sl => { sl with
    inflight := markDone (sl.inflight ++ [f]), issued := sl.issued + 1, granted := false, grantAsked := false
    pos := next, reentry := back, loops := ls, stepOrd := if sl.stepOnce then some order else none })
  let s := addBeat (traceRec s n k 1 sl.pos) n k 0 (stBeat r 0)
  let s := if stHasTe r then handTe s n k order (stTeFirst r + v * stTeStride r) (stTeCount r) else s
  let s := if stHasVe r then handStrands s n k order v iter r else s
  let s := if stHasXe r then handChains s n k order chains else s
  let s := if bad || (hdStepCount sl ≤ next && !ls.isEmpty) || hdStepCount sl < next then
      errCtx s eSqStepInvalid n k sl.pos
    else s
  let s := if any then s else completeUpTo 4 s n k order
  wake s n k

/-- One pass of R148 on the buffered step at the issue position. -/
def stepPass (s : State) (n k : Nat) (r : List Byte) (ecc : Ecc) : State :=
  let sl := slot s n k
  match stepCheck s n k r with
  | .invalid => errCtx s eSqStepInvalid n k sl.pos
  | .range => errCtx s eSqSyncRange n k sl.pos
  | .ok =>
    if stLoopBegin r && !sl.reentry && stLoopCount r = 0 then
      let s := modSlot s n k (fun x => { x with
        pos := stLoopExit r, stepOnce := x.stepOnce && decide (stLoopExit r < hdStepCount x) })
      let s := if hdStepCount sl ≤ stLoopExit r && !sl.loops.isEmpty then errCtx s eSqStepInvalid n k sl.pos else s
      checkDone s n k
    else if !waitProgHolds s n k r || 4 ≤ sl.inflight.length then refresh s n k
    else
      let any := stHasTe r || stHasVe r || stHasXe r
      if any && !sl.granted then askGrant s n k (stBudget r)
      else
        let v := stVariant s n k (pushedLoops sl r) r
        if stHasXe r then
          if sl.streams.length < stXeCount r then errCtx s eXeStreamOverrun n k 0
          else match imageRead s n k (secOff sl 3 + 8 * (stXeFirst r + v * stXeStride r)) (8 * stXeCount r) ecc with
            | (s, none) => s
            | (s, some bs) =>
              let es := (List.range (stXeCount r)).map (fun i => slice bs (8 * i) 8)
              if es.any (fun e => sl.streams.length ≤ leAt e 4 2) then errCtx s eXeStreamOverrun n k 0
              else if es.any (fun e => leAt e 6 2 ≠ 0 || secCount sl 4 ≤ leAt e 0 4) then errCtx s eXeDescInvalid n k 0
              else issueStep s n k r es
        else issueStep s n k r []

/-- STEP_ISSUE (R82, R147 to R150): an uncorrectable step-buffer error ends the context (R102). -/
def execStepIssue (n k : Nat) (ecc : Ecc) (s : State) : Host.Outcome State Fault Refusal :=
  let sl := slot s n k
  .next (
    if !issuing s n k || !sl.loaded then s
    else match bufStep sl sl.pos with
      | none => s
      | some r =>
        if ecc = .uncorr then errCtx s eSqBufferEcc n k 0
        else if stepTaken s n r then stepPass s n k r ecc else s)

end Sys2Proof.Machine
end

