-- ==== Sys2Proof/Machine/Xe.lean ====
section
/-!
DEFINITION. The Transfer Engine: chains, descriptors and their checks (R94, R157 to R161, R234), the local kinds COPY,
FILL, GATHER, SCATTER and AGEN access by access (R245, R246), translation faults (R249 to R252) and completion.
-/
namespace Sys2Proof.Machine

/-! ### Descriptor fields (R158) -/

def dKind (r : List Byte) : Nat := leAt r 0 1
def dEnd (r : List Byte) : Bool := bit (leAt r 1 1) 0
def dOrder (r : List Byte) : Bool := bit (leAt r 1 1) 1
def dSig (r : List Byte) : Bool := bit (leAt r 1 1) 2
def dSigBytes (r : List Byte) : Bool := bit (leAt r 1 1) 3
def dSigObj (r : List Byte) : Nat := leAt r 2 2
def dSpA (r : List Byte) : Nat := bits (leAt r 4 1) 0 4
def dSpB (r : List Byte) : Nat := bits (leAt r 4 1) 4 4
def dA (r : List Byte) : Nat := leAt r 8 8
def dB (r : List Byte) : Nat := leAt r 0x10 8
/-- LEN0, LEN, ELEM or TABLE. -/
def dLen (r : List Byte) : Nat := leAt r 0x18 4
def dCnt1 (r : List Byte) : Nat := leAt r 0x1C 2
def dCnt2 (r : List Byte) : Nat := leAt r 0x1E 2
def dNelem (r : List Byte) : Nat := leAt r 0x1C 4
def dCoord (r : List Byte) : Nat := leAt r 0x1C 2
def dEndpt (r : List Byte) : Nat := leAt r 0x1E 2
def dRoll (r : List Byte) : Nat := leAt r 0x20 1
def dOpx (r : List Byte) : Nat := leAt r 0x21 1
def dRstream (r : List Byte) : Nat := leAt r 0x22 1
def dKey (r : List Byte) : Nat := leAt r 0x24 4
def dRsig (r : List Byte) : Nat := leAt r 0x28 2
def dOperand (r : List Byte) : Nat := leAt r 0x30 8

/-- A fabric kind: PUT, GET, SIGNAL, ATOMIC, REDUCE-PUT. -/
def dFabric (r : List Byte) : Bool := decide (6 ≤ dKind r)

/-- A 32-bit field as a signed number. -/
def s32 (n : Nat) : Int := if n < 0x80000000 then (n : Int) else (n : Int) - 0x100000000

/-- A range of a record is zero. -/
def zeroAt (r : List Byte) (off len : Nat) : Bool := leAt r off len = 0

/-- COUNTk of an AGEN table (R160). -/
def tabCount (t : List Byte) (i : Nat) : Nat := leAt t (8 + 2 * i) 2

/-- Is an AGEN table valid (R160)? -/
def tabOk (t : List Byte) : Bool :=
  let d := leAt t 4 1
  let l := leAt t 0 4
  decide (1 ≤ d) && decide (d ≤ 4) && decide (4 ≤ l) && decide (l ≤ 4096) && l % 4 = 0 && zeroAt t 5 3 && zeroAt t 0x38 8 &&
  (List.range 4).all (fun i => if i < d then tabCount t i ≠ 0 else tabCount t i = 0)

/-- Transfers of an AGEN table. -/
def tabTransfers (t : List Byte) : Nat :=
  (List.range (min 4 (leAt t 4 1))).foldl (fun a i => a * tabCount t i) 1

/-- Total length of a descriptor (R159, R160, R234). -/
def dTotal (r t : List Byte) : Nat :=
  match dKind r with
  | 1 => dLen r * dCnt1 r * dCnt2 r
  | 3 => dLen r * dNelem r
  | 4 => dLen r * dNelem r
  | 5 => leAt t 0 4 * tabTransfers t
  | 2 => dLen r
  | 6 => dLen r
  | 7 => dLen r
  | 10 => dLen r
  | _ => 0

/-- The reserved fields of a descriptor are 0 (R158). -/
def descReservedOk (r : List Byte) : Bool :=
  bits (leAt r 1 1) 4 4 = 0 && bits (leAt r 2 2) 12 4 = 0 && zeroAt r 5 3 && zeroAt r 0xE 2 && zeroAt r 0x16 2 &&
  (match dKind r with
    | 1 => zeroAt r 0x30 16
    | 2 => zeroAt r 0x20 32
    | 3 => zeroAt r 0x28 24
    | 4 => zeroAt r 0x28 24
    | 5 => zeroAt r 0x20 32
    | k =>
      zeroAt r 0x23 1 && zeroAt r 0x2A 6 && zeroAt r 0x38 8 && bits (dEndpt r) 11 5 = 0 && bits (dRoll r) 6 2 = 0 &&
      (if k = 10 then decide (dOpx r < 16) else if k = 8 || k = 9 then decide (dOpx r < 2) else dOpx r = 0))

/-- Roll tables that the image's ROLL section declares, 0 without one (R161, R164): the byte at 0x6 of the section is
kept with the store; a context with ROLL_SET_ID ≠ 0 has the partition's loaded set (R144). -/
def rollTables (s : State) (n k : Nat) : Nat :=
  if hdRollSet (slot s n k) = 0 then 0
  else leAt (mgetD s.roll (partOfCore s n) {}).data 6 1

/-- The checks of a descriptor when it starts (R158, R159, R161, R234); `t` is its AGEN table. -/
def descOk (s : State) (n k : Nat) (r t : List Byte) : Bool :=
  let kd := dKind r
  let a := dSpA r
  let b := dSpB r
  let remA := kd = 7
  let remB := kd = 6 || kd = 9 || kd = 10
  decide (1 ≤ kd) && decide (kd ≤ 10) && decide (a ≤ 3) && decide (b ≤ 3) && descReservedOk r &&
  ((a = 3) = remA) && ((b = 3) = remB) &&
  !(kd = 9 && a = 2) && !((kd ≤ 5 || kd = 7) && b = 2) &&
  !(kd = 2 && dA r ≠ 0) && !(kd = 8 && (dA r ≠ 0 || dB r ≠ 0)) &&
  !(a = 1 && dA r % 4 ≠ 0) && !(b = 1 && dB r % 4 ≠ 0) &&
  !(dSig r && 64 * (slot s n k).blocks.length ≤ dSigObj r) &&
  (match kd with
    | 1 => dLen r % 4 = 0 && dCnt1 r ≠ 0 && dCnt2 r ≠ 0
    | 2 => dLen r % 4 = 0
    | 3 => decide (4 ≤ dLen r) && decide (dLen r ≤ 4096) && dLen r % 4 = 0 && leAt r 0x20 4 % 4 = 0
    | 4 => decide (4 ≤ dLen r) && decide (dLen r ≤ 4096) && dLen r % 4 = 0 && leAt r 0x20 4 % 4 = 0
    | 5 => leAt r 0x1C 2 ≠ 0 && tabOk t
    | 8 => dLen r = 0
    | 9 => dLen r = 0
    | _ => decide (4 ≤ dLen r) && dLen r % 4 = 0) &&
  (!dFabric r || decide (dRoll r < rollTables s n k)) &&
  !((kd = 6 || kd = 10) && decide (16 ≤ dRstream r) && decide (dRstream r ≤ 254)) &&
  decide (dTotal r t ≤ 0xFFFFFFFC)

/-! ### Streams and their slots -/

/-- The slot that holds a physical stream, and the stream's context-relative number. -/
def streamOwner (s : State) (n ph : Nat) : Option (Nat × Nat) :=
  (List.range 16).findSome? (fun k =>
    let sl := slot s n k
    if sl.st = .free then none else (sl.streams.findIdx? (· = ph)).map (fun i => (k, i)))

/-- An error of a stream's descriptor ends the context (R102, R161). -/
def xeErr (s : State) (e : ErrCode) (n k i : Nat) : State := errCtx s e n k i

/-- Has an active descriptor issued every access or packet (R94)? -/
def descIssued (d : ActDesc) : Bool :=
  if dFabric d.record then
    if dKind d.record = 8 || dKind d.record = 9 then d.issued ≠ 0 else decide (dLen d.record ≤ d.issued)
  else decide (dTotal d.record (d.table.getD []) ≤ d.issued)

/-- Is an active descriptor complete (R94, R257, R352)? -/
def descDone (d : ActDesc) : Bool :=
  descIssued d && d.reads.isEmpty && d.pkts.isEmpty && !d.nacked && d.lost.isNone &&
  (!(d.retry && dKind d.record = 6 && dRsig d.record ≠ 0xFFFF && d.acked ≠ dLen d.record) || d.tallySent)

/-- Change an active descriptor of a stream. -/
def modDesc (s : State) (n ph idx : Nat) (f : ActDesc → ActDesc) : State :=
  modStream s n ph (fun x => { x with descs := x.descs.map (fun d => if d.idx = idx then f d else d) })

/-- XE_CHAIN_START (R94): the next waiting chain begins once its stream is free. -/
def execXeChainStart (n ph : Nat) (s : State) : Host.Outcome State Fault Refusal :=
  .next (match streamOwner s n ph with
    | none => s
    | some (k, _) =>
      let x := stream s n ph
      match x.waiting with
      | [] => s
      | c :: rest =>
        if !running s n k || x.st ≠ .idle then s
        else
          let s := modStream s n ph (fun x => { x with
            st := .run, chain := some c, next := 0, descs := [], waiting := rest, chainEnded := false, offset := 0, retry := false,
            acked := 0, table := none })
          modSlot s n k (fun sl => { sl with
            inflight := sl.inflight.map (fun f =>
              if f.order = c.order then { f with chainMask := f.chainMask ||| (1 <<< c.k) } else f) }))

/-! ### Translation faults of a stream -/

/-- The slot enters FAULTED on a fault of one of its streams: from HALTED with HALT_PENDING; a PREEMPTING slot stays
(R79, R249, R264). -/
def enterFaulted (s : State) (n k : Nat) : State :=
  let sl := slot s n k
  if sl.st = .active || sl.st = .waiting then setSt s n k .faulted
  else if sl.st = .halted then setSt (modSlot s n k (fun x => { x with haltPending := true })) n k .faulted
  else s

/-- Post a stream's record: when the posting buffer is full the stream holds it (R250, R253); a second one waits behind it. -/
def postStreamRecord (s : State) (n ph : Nat) (r : List Byte) : State :=
  let clu := coreClu n
  let (s, ok, r') := postRecord (bump s .mmu clu 0x11C 1) clu r
  if ok then s
  else if (stream s n ph).heldRec.isSome then waitRecord s clu r'
  else modStream s n ph (fun x => { x with heldRec := some r' })

/-- A stream stops on a translation fault at descriptor `desc`, offset `off` (R249 to R252). Accesses already issued
complete; with fabric packets unanswered the stream stops under R256. -/
def streamFault (s : State) (n ph k i desc off : Nat) (info : FaultInfo) (coord endpt key : Nat) : State :=
  let sl := slot s n k
  let x := stream s n ph
  if sl.ending.isSome || x.st = .stopped || x.faultPending then s
  else
    let s := recErr s eXeTranslationFault n k i sl.ctag
    let r := faultRecord info (if sl.st = .preempting then 4 else 0) sl.ctag.toNat (slotAsid s n k) i desc off
      coord endpt key 0
    let s := postStreamRecord s n ph r
    let s := modStream s n ph (fun x => { x with
      st := .faulted, faultPending := true, stopping := x.descs.any (fun d => !d.pkts.isEmpty), goOn := false })
    enterFaulted s n k

/-- Bytes that the XE receives or sends through the core port (XE_BYTES_IN, XE_BYTES_OUT; R102). -/
def portIn (s : State) (n len : Nat) : State := modCore s n (fun c => { c with xeInBytes := c.xeInBytes + len })
def portOut (s : State) (n len : Nat) : State := modCore s n (fun c => { c with xeOutBytes := c.xeOutBytes + len })

/-! ### Starting a descriptor -/

/-- Read the AGEN table of a descriptor from the image (R158, R247, R251). -/
inductive TabRead where
  | ok (bytes : List Byte) (idx : Nat)
  | invalid
  | fault (info : FaultInfo) (idx : Nat)
  | poison (err : Nat)
deriving DecidableEq, Repr

/-- Resolve and read the table of an AGEN descriptor; a restart keeps the resolved index. -/
def readTable (s : State) (n k : Nat) (x : Stream) (r : List Byte) (ecc : Ecc) : State × TabRead :=
  let sl := slot s n k
  let selObj := leAt r 0x1E 2
  let v : Option Nat := if selObj = 0xFFFF then some 0 else (ctxObj s n k selObj).map objRead
  let idx : Option Nat := match x.table with
    | some t => some t
    | none => match v with
      | some v => if v < leAt r 0x1C 2 then some (dLen r + v) else none
      | none => none
  match idx with
  | none => (s, .invalid)
  | some i =>
    if secCount sl 5 ≤ i then (s, .invalid)
    else match readVa 2 s n (slotAsid s n k) accImage (sl.rud + secOff sl 5 + 64 * i) 0 64 sl.ctag ecc with
    | (s, .ok bs) => (s, .ok bs i)
    | (s, .fault _ f) => (s, .fault f i)
    | (s, .poison e) => (s, .poison e)

/-- A stream is ready to start its next descriptor: it runs a chain that has not met END, and the previous descriptor has
issued all its reads (R94). -/
def streamReady (s : State) (n ph k : Nat) : Bool :=
  let x := stream s n ph
  running s n k && (slot s n k).loaded && x.st = .run && !x.stopping && !x.descs.any (fun d => !descIssued d || dEnd d.record) && !x.chainEnded

/-- The descriptor `r` starts with its table (R94, R158, R161, R247): it joins the active ones at the restart offset. -/
def beginDesc (s : State) (n ph k i : Nat) (r : List Byte) (t : Option (List Byte)) (ti : Nat) : State :=
  if !descOk s n k r (t.getD []) then xeErr s eXeDescInvalid n k i
  else modStream s n ph (fun x => { x with
    descs := x.descs ++ [{
      idx := x.next, record := r, issued := x.offset, done := x.offset, table := t, tabIdx := ti, retry := x.retry,
      acked := x.acked, opid := x.opCount % 65536 }]
    next := x.next + 1, offset := 0, table := none, retry := false, acked := 0
    opCount := if dFabric r then x.opCount + 1 else x.opCount })

/-- A fetched descriptor of a stream: the ORDER flag waits for the previous one (R94), and an AGEN reads its table, whose index
stays resolved when the read faults (R247). -/
def startFetched (s : State) (n ph k i : Nat) (r : List Byte) (ecc : Ecc) : State :=
  let x := stream s n ph
  if dOrder r && !x.descs.isEmpty then s
  else if dKind r = 5 then
    match readTable s n k x r ecc with
    | (s, .ok bs ti) => beginDesc s n ph k i r (some bs) ti
    | (s, .invalid) => xeErr s eXeDescInvalid n k i
    | (s, .fault f t) => streamFault (modStream s n ph (fun x => { x with table := some t })) n ph k i x.next 0 f 0 0 0
    | (s, .poison e) => endCtx s n k 5 e 3
  else beginDesc s n ph k i r none 0

/-- A stream fetches its next descriptor from the image and starts it (R94, R157, R158, R251). `kind` is the kind of the
command; a descriptor of another kind is not its event, and an unassigned kind is an error. -/
def startDesc (s : State) (n ph kind : Nat) (ecc : Ecc) : State :=
  match streamOwner s n ph with
  | none => s
  | some (k, i) =>
    let x := stream s n ph
    match x.chain with
    | none => s
    | some c =>
      if !streamReady s n ph k then s
      else if secCount (slot s n k) 4 ≤ c.first + x.next then xeErr s eXeDescInvalid n k i
      else
        let sl := slot s n k
        match readVa 2 s n (slotAsid s n k) accImage (sl.rud + secOff sl 4 + 64 * (c.first + x.next)) 0 64 sl.ctag ecc with
        | (s', .fault _ f) => streamFault s' n ph k i x.next 0 f 0 0 0
        | (s', .poison e) => endCtx s' n k 5 e 3
        | (s', .ok r) =>
          if dKind r = kind then startFetched s' n ph k i r (eccAfter ecc 1)
          else if 1 ≤ dKind r && dKind r ≤ 10 then s
          else xeErr s' eXeDescInvalid n k i

def execXeCopy (n : Nat) (rd : Reader) (s : State) : Host.Outcome State Fault Refusal := .next (startDesc s n rd.no 1 rd.ecc)
def execXeFill (n : Nat) (rd : Reader) (s : State) : Host.Outcome State Fault Refusal := .next (startDesc s n rd.no 2 rd.ecc)
def execXeGather (n : Nat) (rd : Reader) (s : State) : Host.Outcome State Fault Refusal := .next (startDesc s n rd.no 3 rd.ecc)
def execXeScatter (n : Nat) (rd : Reader) (s : State) : Host.Outcome State Fault Refusal := .next (startDesc s n rd.no 4 rd.ecc)
def execXeAgen (n : Nat) (rd : Reader) (s : State) : Host.Outcome State Fault Refusal := .next (startDesc s n rd.no 5 rd.ecc)
def execXePut (n : Nat) (rd : Reader) (s : State) : Host.Outcome State Fault Refusal := .next (startDesc s n rd.no 6 rd.ecc)
def execXeGet (n : Nat) (rd : Reader) (s : State) : Host.Outcome State Fault Refusal := .next (startDesc s n rd.no 7 rd.ecc)
def execXeSignal (n : Nat) (rd : Reader) (s : State) : Host.Outcome State Fault Refusal := .next (startDesc s n rd.no 8 rd.ecc)
def execXeAtomic (n : Nat) (rd : Reader) (s : State) : Host.Outcome State Fault Refusal := .next (startDesc s n rd.no 9 rd.ecc)
def execXeReducePut (n : Nat) (rd : Reader) (s : State) : Host.Outcome State Fault Refusal := .next (startDesc s n rd.no 10 rd.ecc)

/-! ### Accesses of the local kinds -/

/-- Source and destination addresses of the byte at an offset of a descriptor, and how many bytes follow in its run
(R159, R160, R245); `idx` is the element index of a GATHER or SCATTER. -/
def descAddr (r t : List Byte) (off idx : Nat) : Int × Int × Nat :=
  let a : Int := dA r
  let b : Int := dB r
  match dKind r with
  | 1 =>
    let l := max 1 (dLen r)
    let i1 := (off / l) % max 1 (dCnt1 r)
    let i2 := (off / l) / max 1 (dCnt1 r)
    let w := off % l
    (a + i1 * s32 (leAt r 0x20 4) + i2 * s32 (leAt r 0x24 4) + w, b + i1 * s32 (leAt r 0x28 4) + i2 * s32 (leAt r 0x2C 4) + w,
      l - w)
  | 3 =>
    let e := max 1 (dLen r)
    (a + idx * leAt r 0x24 4 + (off % e : Nat), b + off, e - off % e)
  | 4 =>
    let e := max 1 (dLen r)
    (a + off, b + idx * leAt r 0x24 4 + (off % e : Nat), e - off % e)
  | 5 =>
    let l := max 1 (leAt t 0 4)
    let w := off % l
    let tn := off / l
    let c (i : Nat) : Nat := max 1 (tabCount t i)
    let i0 := tn % c 0
    let i1 := tn / c 0 % c 1
    let i2 := tn / (c 0 * c 1) % c 2
    let i3 := tn / (c 0 * c 1 * c 2) % c 3
    let sum (o : Nat) : Int := i0 * s32 (leAt t o 4) + i1 * s32 (leAt t (o + 4) 4) + i2 * s32 (leAt t (o + 8) 4) +
      i3 * s32 (leAt t (o + 12) 4)
    (a + s32 (leAt t 0x30 4) + sum 0x10 + w, b + s32 (leAt t 0x34 4) + sum 0x20 + w, l - w)
  | _ => (a + off, b + off, dTotal r t - off)

/-- Where an access of an XE address goes. -/
inductive XeAddr where
  | ok (dpa : Nat)
  | fault (info : FaultInfo)
  | invalid
deriving DecidableEq, Repr

/-- Resolve `len` bytes at an address of a space (R233, R240, R244). -/
def xeAddr (s : State) (n k space : Nat) (addr : Int) (len acc : Nat) : State × XeAddr :=
  let sl := slot s n k
  let va (s : State) (v : Int) (acc : Nat) : State × XeAddr :=
    if v < 0 then (s, .fault ⟨ftVaRange, acc, (v % (2 ^ 48 : Int)).toNat, false, 0, 0, 0⟩)
    else match translate s n (slotAsid s n k) v.toNat acc sl.ctag with
      | (s, .ok d) => (s, .ok d)
      | (s, .fault f) => (s, .fault f)
  if space = 1 then
    if 0 ≤ addr && addr % 4 = 0 && addr + len ≤ winBytes s n k then (s, .ok (winDpa s n k addr.toNat)) else (s, .invalid)
  else if space = 2 then
    if 0 ≤ addr && addr + len ≤ hdImageSize sl then va s (addr + sl.rud) accImage else (s, .invalid)
  else va s addr acc

/-- Bytes up to the end of a block of `m` bytes. -/
def toBoundary (a : Int) (m : Nat) : Nat := m - (a % (m : Int)).toNat

/-- The pattern of a FILL from an offset (R158). -/
def fillBytes (pattern off : Nat) : Nat → List Byte
  | 0 => []
  | n + 1 => BitVec.ofNat 8 (pattern >>> (8 * (off % 4))) :: fillBytes pattern (off + 1) n

/-- Write of the XE at a DPA on behalf of a slot. -/
def xeWrite (s : State) (n k d : Nat) (bs : List Byte) : State :=
  storeMem s n d bs (slot s n k).ctag (slotAsid s n k) (partOfCore s n)

/-- The VA range of an access in space VA or IMAGE. -/
def vaRange (space rud : Nat) (addr : Int) (len : Nat) : List (Nat × Nat) :=
  if space = 0 then [(addr.toNat, len)] else if space = 2 then [((addr + rud).toNat, len)] else []

/-- The next access of a stream's issuing descriptor (R245): both addresses are translated before it issues. A FILL
writes at once; a read takes a tracker entry (R94). Accesses are at most 256 B and stay within a 256 B block of the
source and a 64 KiB page of the destination. `ecc` is what local memory finds in the index of a GATHER or SCATTER. -/
def readIssue (s : State) (n ph k i : Nat) (d : ActDesc) (ecc : Ecc) : State :=
  let r := d.record
  let t := d.table.getD []
  let total := dTotal r t
  let gather := dKind r = 3 || dKind r = 4
  let e := max 1 (dLen r)
  let listOff := leAt r 0x20 4 + 4 * (d.issued / e)
  if gather && winBytes s n k < leAt r 0x20 4 + 4 * dNelem r then xeErr s eXeDescInvalid n k i
  else
    let listDpa := winDpa s n k listOff
    let chk : State × Option Nat := if gather then checkRead s listDpa 4 ecc (slot s n k).ctag else (s, none)
    match chk with
    | (s, some err) => endCtx s n k 5 err 3
    | (s, none) =>
      let idx := if gather then leNat (readMem s listDpa 4) else 0
      let (a, b, run) := descAddr r t d.issued idx
      let fill := dKind r = 2
      let len := min (min run (total - d.issued))
        (if fill then toBoundary b 256 else min (toBoundary a 256) (toBoundary b 0x10000))
      let src : State × XeAddr := if fill then (s, .ok 0) else xeAddr s n k (dSpA r) a len accRead
      match src with
      | (s, .invalid) => xeErr s eXeDescInvalid n k i
      | (s, .fault f) => streamFault s n ph k i d.idx d.issued f 0 0 0
      | (s, .ok sd) =>
        match xeAddr s n k (dSpB r) b len accWrite with
        | (s, .invalid) => xeErr s eXeDescInvalid n k i
        | (s, .fault f) => streamFault s n ph k i d.idx d.issued f 0 0 0
        | (s, .ok dd) =>
          if fill then
            let s := portOut s n (if dSpB r = 1 then 0 else len)
            let s := xeWrite s n k dd (fillBytes (dNelem r) d.issued len)
            modDesc s n ph d.idx (fun d => { d with issued := d.issued + len, done := d.done + len })
          else if 512 ≤ readsOut s n then s
          else modDesc s n ph d.idx (fun d => { d with
            issued := d.issued + len
            reads := d.reads ++ [⟨sd, dd, dSpA r = 1, dSpB r = 1, len, d.issued,
              vaRange (dSpA r) (slot s n k).rud a len ++ vaRange (dSpB r) (slot s n k).rud b len⟩] })

/-- XE_READ_ISSUE (R245). -/
def execXeReadIssue (n : Nat) (rd : Reader) (s : State) : Host.Outcome State Fault Refusal :=
  .next (match streamOwner s n rd.no with
    | none => s
    | some (k, i) =>
      let x := stream s n rd.no
      if !running s n k || x.st ≠ .run || x.stopping then s
      else match x.descs.find? (fun d => !descIssued d) with
        | some d => if dFabric d.record then s else readIssue s n rd.no k i d rd.ecc
        | none => s)

/-- An uncorrectable error in stream state or the read tracker: engine reset of the XE (R102). -/
def xeBufferEcc (s : State) (n k i : Nat) : State :=
  requestEng (recErr s eXeBufferEcc n k i (slot s n k).ctag) n 3 5

/-- Read data returns for the `j`-th outstanding read of a stream, in issue order (R217, R246): it is written at its
destination; poison ends the reader's context; data that returns to a slot being pre-empted or reset is discarded. -/
def readReturn (s : State) (n ph k i j : Nat) (ecc : Ecc) : State :=
  let all := (stream s n ph).descs.flatMap (fun d => d.reads.map (fun q => (d.idx, q)))
  match all[j]? with
  | none => s
  | some (idx, q) =>
    let s := modDesc s n ph idx (fun d => { d with reads := d.reads.erase q })
    if ecc = .uncorr then xeBufferEcc s n k i
    else if (slot s n k).ending.isSome then s
    else if (slot s n k).st = .preempting then
      modDesc s n ph idx (fun d => { d with lost := some (min q.off (d.lost.getD q.off)) })
    else match checkRead s q.src q.len ecc (slot s n k).ctag with
      | (s, some e) => endCtx s n k 5 e 3
      | (s, none) =>
        let (s, bs) := fetchMem s n q.src q.len (slot s n k).ctag
        let s := portOut (portIn s n (if q.srcLocal then 0 else q.len)) n (if q.dstLocal then 0 else q.len)
        modDesc (xeWrite s n k q.dst bs) n ph idx (fun d => { d with done := d.done + q.len })

/-- XE_READ_DATA_RETURN (R217). -/
def execXeReadDataReturn (n ph j : Nat) (ecc : Ecc) (s : State) : Host.Outcome State Fault Refusal :=
  .next (match streamOwner s n ph with
    | none => s
    | some (k, i) => readReturn s n ph k i j ecc)

/-! ### Completion -/

/-- A chain has completed: its stream is free again, and the part completes with its last chain, moving the XE beat
(R84, R94, R151). -/
def chainDone (s : State) (n ph k : Nat) (c : Chain) : State :=
  let s := modStream s n ph (fun x => { x with st := .idle, chain := none, next := 0, descs := [] })
  let last := (slot s n k).inflight.any (fun f => f.order = c.order && f.xeLeft = 1)
  let beat := (((slot s n k).inflight.find? (fun f => f.order = c.order)).map (fun f => stBeat f.record 3)).getD 0
  let s := modSlot s n k (fun sl => { sl with
    inflight := markDone (sl.inflight.map (fun f => if f.order = c.order then { f with xeLeft := f.xeLeft - 1 } else f)) })
  refresh (if last then addBeat s n k 3 beat else s) n k

/-- XE_DESC_COMPLETE (R94): the oldest complete descriptor of a stream leaves, signals SIG_OBJ or adds its byte count
(R158, R170, R171), and the chain ends when its END descriptor and every earlier one are complete. A stopped stream
completes none (R353); during a pre-emption a descriptor whose reads and answers are all in completes before the save, so
that the restart point is that of the first incomplete one (R95, R256, R263). -/
def descComplete (s : State) (n ph k : Nat) : State :=
  let x := stream s n ph
  match x.descs.find? descDone, x.chain with
  | some d, some c =>
    let s := modStream s n ph (fun x => { x with descs := x.descs.filter (fun e => e.idx ≠ d.idx) })
    let total := dTotal d.record (d.table.getD [])
    let s := if dSig d.record then
        syncDo s n k (dSigObj d.record) (if dSigBytes d.record then .bytes total else .signal) false
      else s
    let x := stream s n ph
    if (slot s n k).ending.isSome then s
    else if x.descs.isEmpty && (dEnd d.record || x.chainEnded) then chainDone s n ph k c
    else if dEnd d.record then modStream s n ph (fun x => { x with chainEnded := true })
    else s
  | _, _ => s

def execXeDescComplete (n ph : Nat) (s : State) : Host.Outcome State Fault Refusal :=
  .next (match streamOwner s n ph with
    | none => s
    | some (k, _) =>
      if (slot s n k).ending.isSome || (slot s n k).saving || (stream s n ph).st = .stopped then s
      else descComplete s n ph k)

/-- XE_TRANSLATION_FAULT (R249): the fault that the MMU reports for a stream's next access, or for the fetch of the
descriptor that the stream is about to start (R251). -/
def execXeTranslationFault (n ph : Nat) (info : FaultInfo) (s : State) : Host.Outcome State Fault Refusal :=
  .next (match streamOwner s n ph with
    | none => s
    | some (k, i) =>
      let x := stream s n ph
      if x.chain.isNone then s
      else match x.descs.find? (fun d => !descIssued d) with
        | some d =>
          let r := d.record
          if dFabric r then streamFault s n ph k i d.idx d.issued info (dCoord r) (dEndpt r) 0
          else streamFault s n ph k i d.idx d.issued info 0 0 0
        | none => streamFault s n ph k i x.next 0 info 0 0 0)

end Sys2Proof.Machine
end

