-- ==== Sys2Proof/Machine/Packet.lean ====
section
/-!
DEFINITION. Fabric packets: the 64 B header and its checks (R335 to R337), endpoints (R332), roll-table lookup
(R343, R344, R347), encryption (R362), and the queues of a port (R339, R341, R347).
-/
namespace Sys2Proof.Machine

/-- A packet by its header fields (R335) and its payload. -/
structure Pkt where
  hver : Nat := 1
  type : Nat := 0
  flags : Nat := 0
  vc : Nat := 0
  dstCoord : Nat := 0
  dstEndpt : Nat := 0
  srcCoord : Nat := 0
  srcEndpt : Nat := 0
  route : Nat := 0
  plen : Nat := 0
  srcEpoch : Nat := 0
  dstEpoch : Nat := 0
  flow : Nat := 0
  opid : Nat := 0
  fseq : Nat := 0
  addr : Nat := 0
  rstream : Nat := 0xFF
  opx : Nat := 0
  rsig : Nat := 0xFFFF
  offset : Nat := 0
  key : Nat := 0
  encSlot : Nat := 0
  mcgroup : Nat := 0
  nonce : Nat := 0
  operand : Nat := 0
  payload : List Byte := []
deriving DecidableEq, Repr

/-! ### Types (R336) -/

def tPut : Nat := 0x01
def tGetReq : Nat := 0x02
def tSignal : Nat := 0x03
def tAtomic : Nat := 0x04
def tReducePut : Nat := 0x05
def tTally : Nat := 0x06
def tAck : Nat := 0x11
def tGetData : Nat := 0x12
def tAtomicRsp : Nat := 0x13
def tUnreachable : Nat := 0x14
def tResetNotice : Nat := 0x21
def tEpochAnnounce : Nat := 0x22
def tFbArrive : Nat := 0x23
def tFbRelease : Nat := 0x24
def tFbOverrun : Nat := 0x25

/-- Every assigned type. -/
def pktTypes : List Nat :=
  [tPut, tGetReq, tSignal, tAtomic, tReducePut, tTally, tAck, tGetData, tAtomicRsp, tUnreachable, tResetNotice,
   tEpochAnnounce, tFbArrive, tFbRelease, tFbOverrun]

/-- VC of a type: 0 REQ, 1 RSP, 2 MGT (R336). -/
def typeVc (t : Nat) : Nat := if t < 0x10 then 0 else if t < 0x20 then 1 else 2

/-- Does a type carry a payload (R336)? -/
def typeHasPayload (t : Nat) : Bool := [tPut, tReducePut, tGetData].contains t

/-! ### FLAGS (R335) -/

def Pkt.retry (p : Pkt) : Bool := bit p.flags 0
def Pkt.last (p : Pkt) : Bool := bit p.flags 1
def Pkt.ordered (p : Pkt) : Bool := bit p.flags 2
def Pkt.mcast (p : Pkt) : Bool := bit p.flags 3
def Pkt.fwd (p : Pkt) : Bool := bit p.flags 4
def Pkt.poison (p : Pkt) : Bool := bit p.flags 5
def Pkt.enc (p : Pkt) : Bool := bit p.flags 6

/-- The 64 B header (R335), little-endian. -/
def pktHeader (p : Pkt) : List Byte :=
  leBytes p.hver 1 ++ leBytes p.type 1 ++ leBytes p.flags 1 ++ leBytes p.vc 1 ++ leBytes p.dstCoord 2 ++
  leBytes p.dstEndpt 2 ++ leBytes p.srcCoord 2 ++ leBytes p.srcEndpt 2 ++ leBytes p.route 2 ++ leBytes p.plen 2 ++
  leBytes p.srcEpoch 4 ++ leBytes p.dstEpoch 4 ++ leBytes p.flow 2 ++ leBytes p.opid 2 ++ leBytes p.fseq 2 ++
  leBytes p.addr 6 ++ leBytes p.rstream 1 ++ leBytes p.opx 1 ++ leBytes p.rsig 2 ++ leBytes p.offset 4 ++
  leBytes p.key 4 ++ leBytes p.encSlot 1 ++ leBytes p.mcgroup 1 ++ leBytes p.nonce 6 ++ leBytes p.operand 8

/-- Header and payload. -/
def pktBytes (p : Pkt) : List Byte := pktHeader p ++ p.payload

/-- The packet that bytes spell. -/
def pktDecode (b : List Byte) : Pkt :=
  { hver := leAt b 0 1, type := leAt b 1 1, flags := leAt b 2 1, vc := leAt b 3 1, dstCoord := leAt b 4 2,
    dstEndpt := leAt b 6 2, srcCoord := leAt b 8 2, srcEndpt := leAt b 0xA 2, route := leAt b 0xC 2, plen := leAt b 0xE 2,
    srcEpoch := leAt b 0x10 4, dstEpoch := leAt b 0x14 4, flow := leAt b 0x18 2, opid := leAt b 0x1A 2,
    fseq := leAt b 0x1C 2, addr := leAt b 0x1E 6, rstream := leAt b 0x24 1, opx := leAt b 0x25 1, rsig := leAt b 0x26 2,
    offset := leAt b 0x28 4, key := leAt b 0x2C 4, encSlot := leAt b 0x30 1, mcgroup := leAt b 0x31 1,
    nonce := leAt b 0x32 6, operand := leAt b 0x38 8, payload := slice b 64 (leAt b 0xE 2) }

/-- The package's own coordinate, when FAB_COORD.VALID (R331). -/
def ownCoord (s : State) : Option Nat :=
  let w := rget s .fab 0 0x11C
  if wbit w 16 then some (fld w 15 0) else none

/-- Reserved fields of a header are 0 (R332, R335). -/
def hdrReservedOk (p : Pkt) : Bool :=
  decide (p.hver < 16) && !bit p.flags 7 && decide (p.vc < 4) && !bit p.route 3 && decide (p.plen < 8192) &&
  decide (p.flow < 8192) && decide (p.encSlot < 16) && decide (p.mcgroup < 16) && decide (p.dstEndpt < 2048) &&
  decide (p.srcEndpt < 2048)

/-- Is a header valid (R337)? -/
def hdrOk (s : State) (p : Pkt) : Bool :=
  p.hver = 1 && pktTypes.contains p.type && p.vc = typeVc p.type && p.plen % 4 = 0 &&
  (if typeHasPayload p.type then decide (4 ≤ p.plen) && decide (p.plen ≤ 4096) else p.plen = 0) && hdrReservedOk p &&
  ownCoord s = some p.dstCoord

/-! ### Endpoints (R332) -/

/-- What an endpoint names. -/
inductive Endpt where
  | core (n : Nat)
  | pipe (k : Nat)
  | carillon
  | barrier
  | invalid
deriving DecidableEq, Repr

/-- Decode an endpoint: [10:9] tile, [8:5] cluster, [4:0] core (R332). -/
def endptOf (s : State) (e : Nat) : Endpt :=
  let tile := bits e 9 2
  let clu := bits e 5 4
  let c := bits e 0 5
  if 2048 ≤ e then .invalid
  else if c < 17 then
    match (cluster s (16 * tile + clu)).map[c]? with
    | some j => .core (coreOf (16 * tile + clu) j)
    | none => .invalid
  else if c = 30 then (if clu < 2 then .pipe (2 * tile + clu) else .invalid)
  else if c = 31 then
    if tile = 0 && clu = 0 then .carillon else if tile = 0 && clu = 1 then .barrier else .invalid
  else .invalid

/-- Endpoint of core n, by its logical number. -/
def coreEndpt (s : State) (n : Nat) : Nat :=
  (coreTile n <<< 9) ||| ((coreClu n % 16) <<< 5) ||| logicalOf s (coreClu n) (coreJ n)

/-- Endpoint of COL pipeline k. -/
def pipeEndpt (k : Nat) : Nat := ((k / 2) <<< 9) ||| ((k % 2) <<< 5) ||| 30

def carillonEndpt : Nat := 0x01F
def barrierEndpt : Nat := 0x03F

/-! ### Ports and roll tables -/

/-- A fabric port's state below the packet. -/
def port (s : State) (i : Nat) : Port := mgetD s.ports i Port.init

/-- Change a port. -/
def modPort (s : State) (i : Nat) (f : Port → Port) : State := { s with ports := mupd s.ports i Port.init f }

/-- FAB_STATE.STATE of a port (R328). -/
def fabState (s : State) (i : Nat) : Nat := fld (rget s .fab i 0x100) 3 0

/-- Does a port carry packets (R306): ACTIVE or DEGRADED? -/
def portUp (s : State) (i : Nat) : Bool := fabState s i = 4 || fabState s i = 5

/-- The ports of a partition. -/
def partPorts (s : State) (p : Nat) : List Nat := (List.range 8).filter (fun i => partOfPipe s i = p)

/-- The partition's carrying port that reaches a plane (R312, R344). -/
def planePort (s : State) (p plane : Nat) : Option Nat :=
  (partPorts s p).find? (fun i =>
    portUp s i && wbit (rget s .fab i 0x118) 7 && fld (rget s .fab i 0x118) 2 0 = plane)

/-- The roll-table store of a partition. -/
def rollStore (s : State) (p : Nat) : RollStore := mgetD s.roll p {}

/-- The entry of a roll table of the variant in force (R164, R344). -/
def rollEntry (r : RollStore) (table idx : Nat) : Option Nat :=
  if r.data.isEmpty then none
  else
    let tables := leAt r.data 6 1
    let before := popBelow (leAt r.data 4 2) r.variant
    if tables ≤ table then none
    else some (leAt r.data (16 + (before * tables + table) * 512 + 2 * (idx % 256)) 2)

/-- Where a packet of a partition leaves: port and ROUTE, or the DETAIL of the hold (R344, R346). -/
inductive Path where
  | out (port route : Nat)
  | held (detail : Nat)
deriving DecidableEq, Repr

/-- Look up the path of a packet to another coordinate. -/
def pathOf (s : State) (p table idx : Nat) : Path :=
  if (ownCoord s).isNone then .held 8
  else match rollEntry (rollStore s p) table idx with
    | none => .held 8
    | some e => match planePort s p (e % 8) with
      | some i => .out i e
      | none => .held (e % 8)

/-! ### Encryption and queues -/

/-- COL_ENC_TX of a partition (R362). -/
def encTx (s : State) (p : Nat) : Word := rget s .col (barrierPipe s p) 0x21C

/-- Is fabric encryption enabled for a partition? -/
def encOn (s : State) (p : Nat) : Bool := wbit (encTx s p) 8

/-- The 96-bit IV (R362). -/
def encIv (k : Pkt) : List Byte := leBytes k.srcCoord 2 ++ leBytes k.srcEpoch 4 ++ leBytes k.nonce 6

/-- The bytes that leave for another coordinate: sealed with AES-256-GCM when encryption is on; none when the nonce
counter is exhausted or the TX slot is empty (R362, R432). -/
def sealPkt (s : State) (p : Nat) (k : Pkt) : State × Option (List Byte) :=
  if !encOn s p then (s, some (pktBytes k))
  else
    let sl := fld (encTx s p) 3 0
    let pg := barrierPipe s p
    if 2 ^ 48 - 1 ≤ s.nonce then
      (recErr (rset s .col pg 0x21C (setBit (encTx s p) 16 true)) eColNonceExhausted pg 0 0 noCtag, none)
    else match mget s.fabKeys (16 * p + sl) with
      | none => (s, none)
      | some key =>
        let k := { k with flags := k.flags ||| 64, encSlot := sl, nonce := s.nonce }
        let h := pktHeader k
        ({ s with nonce := s.nonce + 1 },
          some (h ++ padTo (Config.crypto 10 (key ++ encIv k ++ h ++ k.payload)) (k.plen + 16)))

/-- A packet joins the transmit queue of its channel at a port (R341). -/
def enqueue (s : State) (i vc : Nat) (data : List Byte) : State :=
  modPort s i (fun q =>
    if vc = 0 then { q with txReq := q.txReq ++ [data] }
    else if vc = 1 then { q with txRsp := q.txRsp ++ [data] }
    else { q with txMgt := q.txMgt ++ [data] })

/-- Send a finished packet: looped back in the package, or sealed and queued at a port, which it reaches across the bridges
(R29, R334, R362). Answers false when it could not be sealed. -/
def transmit (s : State) (p i : Nat) (k : Pkt) : State × Bool :=
  if ownCoord s = some k.dstCoord then (send s (.loop p (pktBytes k)), true)
  else match sealPkt s p k with
    | (s, some b) => (enqueue (moveBytes s (bits k.srcEndpt 9 2) (i / 2) b.length) i k.vc b, true)
    | (s, none) => (s, false)

/-- Has COL_OP_TIMEOUT passed since a time (R346, R354, R464)? -/
def opPassed (s : State) (p t : Nat) : Bool := decide (t + (rget s .col (barrierPipe s p) 0x204).toNat ≤ s.us)

/-- The peer entry of a partition for a coordinate (R360). -/
def peer (s : State) (p c : Nat) : Peer := mgetD s.peers (65536 * p + c) {}

/-- Change a peer entry. -/
def modPeer (s : State) (p c : Nat) (f : Peer → Peer) : State :=
  { s with peers := mupd s.peers (65536 * p + c) {} f }

/-- DST_EPOCH of a packet to a peer (R360). -/
def peerEpoch (s : State) (p c : Nat) : Nat := if (peer s p c).state = 1 then (peer s p c).epoch else 0

/-- Answer a request through the port it arrived on (255: loopback) with its ROUTE (R335, R347). -/
def answer (s : State) (p i : Nat) (q : Pkt) (type operand : Nat) (payload : List Byte) (poison : Bool) : State :=
  (transmit s p i
    { type := type, flags := if poison then 32 else 0, vc := 1, dstCoord := q.srcCoord, dstEndpt := q.srcEndpt
      srcCoord := q.dstCoord, srcEndpt := q.dstEndpt, route := q.route, plen := payload.length, srcEpoch := s.epoch
      dstEpoch := q.srcEpoch, flow := q.flow, opid := q.opid, fseq := q.fseq, offset := q.offset, rsig := 0
      operand := operand, payload := payload }).1

/-- Statuses of R350. -/
def stOk : Nat := 0
def stFaultNack : Nat := 1
def stContextGone : Nat := 2
def stPeerReset : Nat := 3
def stPeerLost : Nat := 4
def stStaleEpoch : Nat := 5
def stPoison : Nat := 6
def stBusy : Nat := 7
def stBadRequest : Nat := 8
def stMemberFailed : Nat := 9

/-- Answer with an ACK. -/
def ack (s : State) (p i : Nat) (q : Pkt) (operand : Nat) : State := answer s p i q tAck operand [] false

/-- Path of an MGT packet (R347): table 0 of the variant in force, or with no set loaded the lowest carrying port with
SELECTOR 0. -/
def mgtPath (s : State) (p idx : Nat) : Path :=
  if (ownCoord s).isNone then .held 8
  else if (rollStore s p).data.isEmpty then
    match (partPorts s p).find? (portUp s) with
    | some i => .out i (fld (rget s .fab i 0x118) 2 0)
    | none => .held 8
  else pathOf s p 0 idx

/-- A packet of a pipeline is held at the base die (R331, R346). -/
def holdPkt (s : State) (pipe table idx : Nat) (k : Pkt) (copy : Bool) (d : Nat) : State :=
  { s with heldPkts := s.heldPkts ++ [⟨pipe, table, idx, pktBytes k, copy, d, s.us⟩] }

/-- An MGT packet of a partition's pipeline, by the pipeline's counter (R347); without a path it is held (R331, R346). -/
def mgtSend (s : State) (p : Nat) (k : Pkt) : State :=
  let pipe := barrierPipe s p
  let k := { k with vc := 2, srcEpoch := s.epoch, srcCoord := (ownCoord s).getD 0 }
  if ownCoord s = some k.dstCoord then (transmit s p 0 k).1
  else
    let idx := mgetD s.mgtIdx pipe 0
    let s := if (rollStore s p).data.isEmpty then s else { s with mgtIdx := mput s.mgtIdx pipe ((idx + 1) % 65536) }
    match mgtPath s p idx with
    | .out i r => (transmit s p i { k with route := r }).1
    | .held d => holdPkt s pipe 0 idx k false d

/-- RESET_NOTICE and EPOCH_ANNOUNCE: one copy through every carrying port, SELECTOR 0, DST_EPOCH 0 (R347, R361). -/
def announceAll (s : State) (c type operand : Nat) : State :=
  (List.range 8).foldl (fun s i =>
    if portUp s i then
      (transmit s (partOfPipe s i) i
        { type := type, vc := 2, dstCoord := c, dstEndpt := carillonEndpt, srcCoord := (ownCoord s).getD 0
          srcEndpt := carillonEndpt, route := fld (rget s .fab i 0x118) 2 0, srcEpoch := s.epoch, operand := operand }).1
    else s) s

end Sys2Proof.Machine
end

