-- ==== Sys2Proof/Machine/Peers.lean ====
section
/-!
DEFINITION. Peers and what ends with them (R193, R351, R353, R356, R360): stopped streams, freed receive streams, fabric
barriers that end without release, multicast answers.
-/
namespace Sys2Proof.Machine

/-- A stream stops under R353: it rests in STOPPED once its other packets are answered. -/
def stopStream (s : State) (n ph k i : Nat) (e : ErrCode) : State :=
  if (stream s n ph).st = .stopped then s
  else
    let s := recErr s e n k i (slot s n k).ctag
    modStream s n ph (fun x => { x with
      st := .stopped, faultPending := false, heldPath := none, stopping := x.descs.any (fun d => !d.pkts.isEmpty) })

/-- A fabric barrier's entry. -/
def fbar (s : State) (pipe f : Nat) : FabBar := mgetD s.fb (256 * pipe + f) {}

/-- Change a fabric barrier. -/
def modFb (s : State) (pipe f : Nat) (g : FabBar → FabBar) : State := { s with fb := mupd s.fb (256 * pipe + f) {} g }

/-- Contexts of a partition with an object bound to a barrier and PEND > 0 (R187, R193). -/
def boundSlots (s : State) (p : Nat) (gkind : Bool) (bar : Nat) : List (Nat × Nat) :=
  (partSlots s p).filter (fun e =>
    ((core s e.1).relIndex.any (fun o =>
      let x := syncObj s e.1 o
      x.bound && x.gbar = bar && x.gkind = gkind && decide (0 < x.pend) && (slotObjs (slot s e.1 e.2)).contains o)))

/-- A fabric barrier ends without release: ENABLE is cleared, in COL_FB_CFG_LO too, and its counts are discarded (R193, R197). -/
def fbEnd (s : State) (pipe f : Nat) : State :=
  let s := modFb s pipe f (fun b => { b with enabled := false, cur := 0, next := 0, rcur := 0, rnext := 0, await := [], left := [] })
  let s := rset s .col pipe (0x800 + 8 * f) (setBit (rget s .col pipe (0x800 + 8 * f)) 15 false)
  let s := recErr s eColFbTimeout pipe (f % 256) 0 noCtag
  (boundSlots s (partOfPipe s pipe) true f).foldl (fun s e =>
    recErr s eBarrierTimeout e.1 e.2 f (slot s e.1 e.2).ctag) s

/-- Port of a multicast send that COL_SET_CMD SEND makes (R389). -/
def setPort : Nat := 254

/-- Every member of a multicast send has answered: the source gets OK or MEMBER_FAILED (R356), and a SEND of COL_SET_CMD
its result (R389). -/
def mcFinish (s : State) (m : McSend) : State :=
  let p := partOfPipe s m.pipe
  let q := pktDecode m.header
  match m.failed with
  | none => if m.port = setPort then s else ack s p m.port q stOk
  | some i =>
    let s := recErr s eColMcMemberFail m.pipe m.group i noCtag
    if m.port = setPort then
      { s with setOps := s.setOps.map (fun e => if e.1 = barrierPipe s p then (e.1, { e.2 with result := 5 }) else e) }
    else ack s p m.port q stMemberFailed

/-- A member of a multicast send has answered, or its copy has ended. -/
def mcMember (m : McSend) (fseq : Nat) (ok : Bool) : McSend :=
  match m.waiting.find? (fun w => w.fseq = fseq) with
  | some w => { m with
      waiting := m.waiting.filter (fun x => x.fseq ≠ fseq)
      failed := if ok then m.failed else match m.failed with
        | some x => some (min x w.member)
        | none => some w.member }
  | none => m

/-- Change the first multicast send that a test meets. -/
def modMc (s : State) (hit : McSend → Bool) (f : McSend → McSend) : State :=
  match s.mcSends.findIdx? hit with
  | some j => { s with mcSends := s.mcSends.modify j f }
  | none => s

/-- Sends that are complete answer their sources and leave. -/
def mcSettle (s : State) : State :=
  let done := s.mcSends.filter (fun m => m.waiting.isEmpty)
  done.foldl mcFinish { s with mcSends := s.mcSends.filter (fun m => !m.waiting.isEmpty) }

/-- The copies of a partition's multicasts to a coordinate fail. -/
def mcPeerDown (s : State) (p c : Nat) : State :=
  mcSettle { s with
    mcSends := s.mcSends.map (fun m =>
      if partOfPipe s m.pipe = p then
        (m.waiting.filter (fun w => w.coord = c)).foldl (fun m w => mcMember m w.fseq false) m
      else m) }

/-- The copy with an FSEQ that a pipeline sends. -/
def mcOf (pipe fseq : Nat) (m : McSend) : Bool := m.pipe = pipe && m.waiting.any (fun w => w.fseq = fseq)

/-- A copy ends without being sent: its member failed. -/
def mcLost (s : State) (pipe fseq : Nat) : State := mcSettle (modMc s (mcOf pipe fseq) (fun m => mcMember m fseq false))

/-- A copy of a multicast leaves: COL_MC_BYTES, and its timer starts (R354, R356, R364). -/
def mcSent (s : State) (pipe fseq plen : Nat) : State :=
  bumpUnit (modMc s (mcOf pipe fseq) (fun m => { m with
    waiting := m.waiting.map (fun w => if w.fseq = fseq then { w with us := s.us } else w) })) .col pipe 0x108 plen 4096

/-- A held packet of a pipeline is looked up again (R331, R346): it leaves, or stays held. -/
def retryPkt (s : State) (h : HeldPkt) : State :=
  let p := partOfPipe s h.pipe
  let k := { pktDecode h.data with srcCoord := (ownCoord s).getD 0 }
  let path := if ownCoord s = some k.dstCoord then .out 255 0 else if h.copy then pathOf s p h.table h.idx else mgtPath s p h.idx
  match path with
  | .held d => { s with heldPkts := s.heldPkts ++ [{ h with detail := d }] }
  | .out i r => match transmit s p i { k with route := r } with
    | (s, true) => if h.copy then mcSent s h.pipe k.fseq k.plen else s
    | (s, false) => if h.copy then mcLost s h.pipe k.fseq else s

/-- The packets that a partition's pipelines hold are looked up again, oldest first: the variant in force, the set, the coordinate
or a port has changed (R331, R346). -/
def retryHeld (s : State) (p : Nat) : State :=
  let mine (h : HeldPkt) : Bool := decide (partOfPipe s h.pipe = p)
  (s.heldPkts.filter mine).foldl retryPkt { s with heldPkts := s.heldPkts.filter (fun h => !mine h) }

/-- Held packets of every partition. -/
def retryAllHeld (s : State) : State := (List.range (partCount s)).foldl retryHeld s

/-- Every packet of the partition outstanding to the coordinate ends, and its streams stop (R353). -/
def endOutstanding (s : State) (p c : Nat) (e : ErrCode) : State :=
  (partSlots s p).foldl (fun s u =>
    ((slot s u.1 u.2).streams.zipIdx).foldl (fun s x =>
      let hit (d : ActDesc) : Bool := decide (dCoord d.record = c) && !d.pkts.isEmpty
      if (stream s u.1 x.1).descs.any hit then
        let s := modStream s u.1 x.1 (fun y => { y with
          descs := y.descs.map (fun d => if hit d then { d with pkts := [] } else d) })
        stopStream s u.1 x.1 u.2 x.2 e
      else s) s) s

/-- A peer of a partition enters RESET or LOST (R360): INT_STATUS.PEER_CHANGE, COL_PEER_LAST, and everything that ends
with the peer. -/
def peerDown (s : State) (p c : Nat) (lost : Bool) : State :=
  let st := (peer s p c).state
  if st = 2 || st = 3 then s
  else
    let pipe := barrierPipe s p
    let s := modPeer s p c (fun e => { e with state := if lost then 3 else 2 })
    let s := rset s .col pipe 0x248 (packFields [(0, c), (16, if lost then 3 else 2)])
    let s := recErr s (if lost then eColPeerLost else eColPeerReset) pipe 0 0 noCtag
    let s := raiseInt s .col pipe 1
    let s := endOutstanding s p c (if lost then eXePeerLost else eXePeerReset)
    let s := (s.cores.filter (fun e => partOfCore s e.1 = p)).foldl (fun s e =>
      modCore s e.1 (fun x => { x with rx := mfilter x.rx (fun _ r => r.coord ≠ c) })) s
    let s := (List.range 256).foldl (fun s f =>
      let b := fbar s pipe f
      if b.enabled && !b.await.isEmpty && b.root = c then fbEnd s pipe f else s) s
    mcPeerDown s p c

/-- What R360 makes of a packet from a peer. -/
inductive PeerRes where
  | ok
  | discard
  | lost
deriving DecidableEq, Repr

/-- The core, slot and object that an arrival's increment or SIGNAL names, when its key names one (R180, R243). -/
def namedObject (s : State) (p : Nat) (k : Pkt) : Option (Nat × Nat) :=
  let names := k.rsig ≠ 0xFFFF &&
    (((k.type = tPut || k.type = tReducePut) && !k.retry) || k.type = tSignal || k.type = tTally || k.type = tAtomic)
  match endptOf s k.dstEndpt with
  | .core n =>
    let lo := rget s .mmu (coreClu n) (0x400 + 8 * (k.key % 64))
    let hi := rget s .mmu (coreClu n) (0x404 + 8 * (k.key % 64))
    if names && partOfCore s n = p && wbit lo 26 && fld lo 25 0 = k.key / 64 then some (n, fld hi 11 8) else none
  | _ => none

/-- A discarded arrival of a reset or lost peer's old epoch freezes the object it names (R180). -/
def freeze (s : State) (p : Nat) (k : Pkt) : State :=
  let e := peer s p k.srcCoord
  if k.srcEpoch ≠ e.epoch && k.srcEpoch ≠ e.prevEpoch then s
  else match namedObject s p k with
    | none => s
    | some (n, sl) =>
      let s := bump s .syn n 0x140 1
      if (slot s n sl).st = .free then s
      else match physObj s n sl k.rsig with
        | none => s
        | some ph =>
          recErr (modSync s n ph (fun x => { x with dropped := true })) eSynTallyFrozen n sl k.rsig (slot s n sl).ctag

/-- The check of the source peer's state and epoch (R360), for packets that are no RESET_NOTICE, EPOCH_ANNOUNCE or
UNREACHABLE. -/
def peerCheck (s : State) (p : Nat) (k : Pkt) : State × PeerRes :=
  let e := peer s p k.srcCoord
  if e.state = 0 then (modPeer s p k.srcCoord (fun e => { e with state := 1, epoch := k.srcEpoch }), .ok)
  else if e.state = 1 then
    if k.srcEpoch = e.epoch then (s, .ok)
    else if k.srcEpoch = e.prevEpoch then
      (freeze (recErr s eColStaleEpoch (barrierPipe s p) 0 0 noCtag) p k, .discard)
    else (peerDown s p k.srcCoord false, .discard)
  else (freeze s p k, .lost)

/-! ### Arrival of a packet: the checks that every packet meets (R333, R334, R348) -/

/-- Where a packet arrived: port 0 to 7 or 255 for loopback, the arrival partition, and the COL page of its records. -/
structure Arrival where
  port : Nat
  part : Nat
  page : Nat
deriving DecidableEq, Repr

/-- The arrival of a packet on a port, or by loopback from a partition. -/
def arrival (s : State) (i part : Nat) : Arrival :=
  if i < 8 then ⟨i, partOfPipe s i, i⟩ else ⟨255, part, barrierPipe s part⟩

/-- A packet is discarded without answer (COL_DISCARDS). -/
def discardPkt (s : State) (a : Arrival) : State := bump s .col a.page 0x110 1

/-- A packet leaves the port's receive buffer, which returns its credit, or the base die (R334, R339). -/
def takePkt (s : State) (a : Arrival) (data : List Byte) : State :=
  if a.port = 255 then deliver s (.loop a.part data)
  else
    let q := port s a.port
    if q.rx.any (fun b => b.take 64 = data.take 64) then
      let vc := leAt data 3 1 % 4
      modPort s a.port (fun q => { q with
        rx := eraseFirst (fun b => b.take 64 = data.take 64) q.rx
        retReq := if vc = 0 then q.retReq + 1 else q.retReq
        retRsp := if vc = 1 then q.retRsp + 1 else q.retRsp
        retMgt := if vc = 2 then q.retMgt + 1 else q.retMgt })
    else s

/-- Is an arriving request held at its port: the pipeline, or the XE of the core that it names, takes no new work and is not
in reset (R57, R60, R474)? -/
def pktHeld (s : State) (a : Arrival) (k : Pkt) : Bool :=
  typeVc k.type = 0 &&
  ((!accepting s .col a.page && !pageInReset s .col a.page) ||
    (match endptOf s k.dstEndpt with
      | .core n => !accepting s .xe n && !pageInReset s .xe n
      | _ => false))

/-- Checks 1 and 2 of R348 on a packet whose bytes come decrypted with the verdict on its tag (log entry 10). Answers the
packet when it passes. A packet of another assigned type is no event of the command: nothing happens. -/
def arriveCheck (s : State) (a : Arrival) (type : Nat) (data : List Byte) (tagOk : Bool) : State × Option Pkt :=
  let k := pktDecode data
  if (k.type ≠ type && pktTypes.contains k.type) || pktHeld s a k then (s, none)
  else
    let s := takePkt s a data
    let s := if a.port < 8 then bumpUnit s .col a.port 0x10C 1 1024 else s
    let sub := if a.port < 8 then a.port else 0xFF
    if !hdrOk s k then (recErr (discardPkt s a) eColHdrInvalid a.page sub 0 noCtag, none)
    else
    let s := moveBytes s (if a.port = 255 then bits k.srcEndpt 9 2 else a.port / 2) (bits k.dstEndpt 9 2) data.length
    if a.port = 255 then (s, some k)
    else if k.enc then
      if (mget s.fabKeys (16 * a.part + k.encSlot)).isNone then
        (recErr (discardPkt s a) eColNoKey a.page 0 k.encSlot noCtag, none)
      else if !tagOk then (recErr (discardPkt s a) eColAuthFail a.page 0 0 noCtag, none)
      else (s, some k)
    else if encOn s a.part && k.type ≠ tUnreachable then
      (recErr (discardPkt s a) eColAuthFail a.page 0 0 noCtag, none)
    else (s, some k)

end Sys2Proof.Machine
end

