-- ==== Sys2Proof/Machine/Arrive.lean ====
section
/-!
DEFINITION. Request packets at the destination (R24, R136, R179, R180, R243, R244, R254, R259, R333, R348 to R351, R356):
PUT, GET_REQ, SIGNAL, ATOMIC, REDUCE_PUT, TALLY.
-/
namespace Sys2Proof.Machine

/-- ACCESS of a request (R244). -/
def reqAccess (t : Nat) : Nat :=
  if t = tPut then accRemoteWrite else if t = tGetReq then accRemoteRead
  else if t = tReducePut || t = tAtomic then accRemoteRmw else accRemoteSignal

/-- Bytes of memory that a request addresses. -/
def reqLen (k : Pkt) : Nat :=
  if k.type = tPut || k.type = tReducePut then k.plen
  else if k.type = tGetReq then bits k.operand 0 13
  else if k.type = tAtomic then (if bit k.opx 0 then 4 else 8)
  else 0

/-- Check 6 of R348 on the fields of a request. -/
def reqFieldsOk (k : Pkt) : Bool :=
  let red := k.type = tReducePut
  (if red then decide (k.opx % 4 ≤ 2) && decide (k.opx / 4 ≤ 2)
   else if k.type = tAtomic || k.type = tSignal then decide (k.opx < 2) else k.opx = 0) &&
  (if k.type = tAtomic then k.addr % reqLen k = 0 else k.addr % 4 = 0) &&
  !((k.type = tSignal || k.type = tTally) && k.rsig = 0xFFFF) &&
  (if k.ordered then (k.type = tPut || red) && decide (k.rstream < 16) else k.rstream = 0xFF) &&
  !(k.type = tGetReq && (k.operand % 8192 < 4 || 4096 < k.operand % 8192 || k.operand % 4 ≠ 0))

/-- The key entry that a request names, when R243 admits the request. -/
structure KeyEnt where
  asid : Nat
  slot : Nat
  target : Bool
deriving DecidableEq, Repr

/-- The permission bit of a request in MMU_KEY_LO (R243, R266); none for SIGNAL and TALLY. -/
def keyPermits (lo : Word) (t : Nat) : Bool :=
  if t = tPut then wbit lo 27 else if t = tGetReq then wbit lo 28 else if t = tReducePut then wbit lo 29
  else if t = tAtomic then wbit lo 30 else true

/-- Judge the KEY of a request at core n (R243). -/
def keyCheck (s : State) (n : Nat) (k : Pkt) : Option KeyEnt :=
  let lo := rget s .mmu (coreClu n) (0x400 + 8 * (k.key % 64))
  let hi := rget s .mmu (coreClu n) (0x404 + 8 * (k.key % 64))
  if wbit lo 26 && fld lo 25 0 = k.key / 64 && keyPermits lo k.type then
    some ⟨fld hi 7 0, fld hi 11 8, wbit hi 16⟩
  else none

/-- The answer OPERAND of a FAULT_NACK (R350). -/
def nackOperand (i : FaultInfo) : Nat := stFaultNack + (i.type <<< 8) + ((i.va % 2 ^ 48) <<< 16)

/-- The DEST_SIDE record of a refused request, at most one per key and 64 KiB page in 1 ms, with MMU_DEST_FAULT or
MMU_KEY_FAULT (R252, R254, R259). -/
def destFault (s : State) (n : Nat) (k : Pkt) (i : FaultInfo) (ctag : Word) (asid : Nat) : State :=
  let clu := coreClu n
  let pg := i.va / 65536
  let s := recErr s (if i.type = ftKey then eMmuKeyFault else eMmuDestFault) clu (coreJ n) (k.srcCoord % 32768) ctag
  if s.destRecs.any (fun e => e.1 = clu && e.2.1 = k.key && e.2.2.1 = pg && within s 1000 e.2.2.2) then
    bump s .mmu clu 0x120 1
  else
    let s := { s with destRecs := (clu, k.key, pg, s.us) :: s.destRecs.filter (fun e => within s 1000 e.2.2.2) }
    postRec (bump s .mmu clu 0x11C 1) clu
      (faultRecord i 1 ctag.toNat asid (bits k.flow 4 9) 0 0 k.srcCoord k.srcEndpt k.key 0)

/-- The pieces of memory behind a request. -/
inductive Span where
  | ok (parts : List (Nat × Nat))
  | fault (info : FaultInfo)
deriving DecidableEq, Repr

/-- Translate every byte of a VA range, page by page. -/
def spanVa : Nat → State → Nat → Nat → Nat → Nat → Nat → Word → State × Span
  | 0, s, _, _, _, _, _, _ => (s, .ok [])
  | fuel + 1, s, n, asid, acc, va, len, ctag =>
    if len = 0 then (s, .ok [])
    else
      let part := pagePart va len
      match translate s n asid va acc ctag with
      | (s, .fault i) => (s, .fault i)
      | (s, .ok d) =>
        match spanVa fuel s n asid acc (va + part) (len - part) ctag with
        | (s, .ok rest) => (s, .ok ((d, part) :: rest))
        | r => r

/-- Check 10 of R348: the memory of a request (R244). -/
def reqSpan (s : State) (n sl : Nat) (e : KeyEnt) (k : Pkt) : State × Span :=
  let len := reqLen k
  if len = 0 then (s, .ok [])
  else if e.target then
    if k.addr + len ≤ winBytes s n sl then (s, .ok [(winDpa s n sl k.addr, len)])
    else
      (recErr s eMmuBounds (coreClu n) (coreJ n) 0 (slot s n sl).ctag,
        .fault ⟨ftBounds, reqAccess k.type, max k.addr (winBytes s n sl), false, 0, 0, 0⟩)
  else spanVa (pagesOf len) s n e.asid (reqAccess k.type) k.addr len 0xFFFFFFFF

/-- The XE of core n reads the pieces of a span. -/
def readSpan (s : State) (n : Nat) (parts : List (Nat × Nat)) (ctag : Word) : State × List Byte :=
  parts.foldl (fun r e => let (s, b) := fetchMem r.1 n e.1 e.2 ctag; (s, r.2 ++ b)) (s, [])

/-- The XE of core n writes the pieces of a span. -/
def writeSpan (s : State) (n : Nat) (parts : List (Nat × Nat)) (bs : List Byte) (ctag : Word) (asid p : Nat) : State :=
  (parts.foldl (fun r e => (storeMem r.1 n e.1 (r.2.take e.2) ctag asid p, r.2.drop e.2)) (s, bs)).1

/-- Check the pieces of a span for poison (R217): is any granule poisoned? -/
def checkSpan (s : State) (parts : List (Nat × Nat)) (ecc : Ecc) (ctag : Word) : State × Bool :=
  let r := parts.foldl (fun r e =>
    let (s, err) := checkRead r.1 e.1 e.2 r.2.2 ctag
    (s, r.2.1 || err.isSome, eccAfter r.2.2 (granules e.1 e.2).length)) (s, false, ecc)
  (r.1, r.2.1)

/-- Check the pieces of a span as `checkSpan` does; ERR of R460 of the first error. -/
def spanErr (s : State) (parts : List (Nat × Nat)) (ecc : Ecc) (ctag : Word) : State × Option Nat :=
  let r := parts.foldl (fun r e =>
    let (s, err) := checkRead r.1 e.1 e.2 r.2.2 ctag
    (s, r.2.1.or err, eccAfter r.2.2 (granules e.1 e.2).length)) (s, (none : Option Nat), ecc)
  (r.1, r.2.1)

/-- Poisoned granules read as zeros (R349). -/
def readSpanZero (s : State) (n : Nat) (parts : List (Nat × Nat)) (ctag : Word) : State × List Byte :=
  parts.foldl (fun r e =>
    let bad := poisoned r.1 e.1 e.2
    let (s, b) := fetchMem r.1 n e.1 e.2 ctag
    (s, r.2 ++ (b.zipIdx.map (fun x =>
      if bad.contains ((e.1 + x.2) / 64) || deadGranule s (e.1 + x.2) then 0 else x.1)))) (s, [])

/-- What a request's memory effect answers: type, OPERAND, payload, POISON. -/
structure ReqRes where
  type : Nat := tAck
  operand : Nat := 0
  payload : List Byte := []
  poison : Bool := false
deriving DecidableEq, Repr

/-- Checks 10 and 11 of R348 and the memory effect of a request (R349). -/
def reqMemory (s : State) (n sl : Nat) (a : Arrival) (e : KeyEnt) (k : Pkt) (ecc : Ecc) : State × ReqRes :=
  let ctag := (slot s n sl).ctag
  let asid := if e.target then slotAsid s n sl else e.asid
  match reqSpan s n sl e k with
  | (s, .fault i) => (destFault s n k i (if e.target then ctag else 0xFFFFFFFF) e.asid, { operand := nackOperand i })
  | (s, .ok parts) =>
    let va := if e.target then 0 else reqLen k
    let s := portOut (portIn s n (k.plen + if k.type = tPut then 0 else va)) n
      (if k.type = tGetReq then reqLen k else va)
    if k.type = tPut then (writeSpan s n parts k.payload ctag asid a.part, {})
    else if k.type = tGetReq then
      let (s, bad) := checkSpan s parts ecc ctag
      let (s, b) := readSpanZero s n parts ctag
      (s, { type := tGetData, payload := b, poison := bad })
    else if k.type = tReducePut || k.type = tAtomic then
      match checkSpan s parts ecc ctag with
      | (s, true) => (s, { operand := stPoison })
      | (s, false) =>
        let (s, d) := readSpan s n parts ctag
        if k.type = tReducePut then
          let r := reduceBytes k.opx (if k.opx / 4 = 1 then k.plen / 2 else k.plen / 4) d k.payload
          (writeSpan (bumpUnit s .col a.page 0x104 k.plen 4096) n parts r ctag asid a.part, {})
        else
          let v := if bit k.opx 0 then fAdd .fp32 (leNat d) (k.operand % 2 ^ 32) else (leNat d + k.operand) % 2 ^ 64
          (writeSpan s n parts (leBytes v (reqLen k)) ctag asid a.part, { type := tAtomicRsp, operand := leNat d })
    else (s, {})

/-- The increment or SIGNAL of an applied request (R349). -/
def reqTally (s : State) (n sl : Nat) (k : Pkt) : State :=
  if k.rsig = 0xFFFF then s
  else if k.type = tPut || k.type = tReducePut then
    if k.retry then s else syncDo s n sl k.rsig (.bytes k.plen) true
  else if k.type = tSignal then
    syncDo s n sl k.rsig (if bit k.opx 0 then .set (k.operand % 65536) else .add (k.operand % 65536)) true
  else if k.type = tAtomic then syncDo s n sl k.rsig .signal true
  else if k.type = tTally then syncDo s n sl k.rsig (.bytes k.operand) true
  else s

/-- BUSY (R351). -/
def busyAnswer (s : State) (a : Arrival) (k : Pkt) : State :=
  ack (bump s .col a.page 0x114 1) a.part a.port k stBusy

/-- Apply the packets of an ordered stream that are next, in order (R351): the increment, then the ACK; the stream is
free after the LAST one. -/
def drainRx : Nat → State → Nat → Nat → State
  | 0, s, _, _ => s
  | fuel + 1, s, n, r =>
    match mget (core s n).rx r with
    | none => s
    | some x =>
      match x.held.find? (fun h => h.1 = x.nextSeq) with
      | none => s
      | some (_, h, operand) =>
        let k := pktDecode h
        let a := arrival s (leAt h 64 1) (leAt h 65 1)
        let s := modCore s n (fun c => { c with
          rx := if k.last then mdel c.rx r
                else mput c.rx r { x with nextSeq := x.nextSeq + 1, held := x.held.filter (fun y => y.1 ≠ x.nextSeq) } })
        let s := if operand = stOk then reqTally s n x.slot k else s
        drainRx fuel (ack s a.part a.port k operand) n r

/-- A packet of an ordered stream (R351): bind or match, window of 512, data written on arrival. -/
def orderedReq (s : State) (n sl : Nat) (a : Arrival) (e : KeyEnt) (k : Pkt) (ecc : Ecc) : State :=
  let i := k.offset / 4096
  let x := (mget (core s n).rx k.rstream).getD
    { coord := k.srcCoord, endpt := k.srcEndpt, flow := k.flow, opid := k.opid, slot := sl, ctag := (slot s n sl).ctag.toNat }
  if x.coord ≠ k.srcCoord || x.endpt ≠ k.srcEndpt || x.flow ≠ k.flow || x.opid ≠ k.opid || i < x.nextSeq ||
      x.nextSeq + 511 < i then busyAnswer s a k
  else
    let (s, r) := reqMemory s n sl a e k ecc
    let x := { x with held := x.held ++ [(i, pktHeader k ++ leBytes a.port 1 ++ leBytes a.part 1, r.operand)] }
    drainRx 513 (modCore s n (fun c => { c with rx := mput c.rx k.rstream x })) n k.rstream

/-- A request at a core endpoint, from check 7 of R348 on. -/
def coreReq (s : State) (n : Nat) (a : Arrival) (k : Pkt) (ecc : Ecc) : State :=
  if bit (core s n).engReset 3 then ack (absorb s n) a.part a.port k stContextGone
  else match keyCheck s n k with
    | none =>
      let i : FaultInfo := ⟨ftKey, reqAccess k.type, k.addr, false, 0, 0, 0⟩
      ack (destFault s n k i 0xFFFFFFFF 0) a.part a.port k (nackOperand i)
    | some e =>
      let sl := e.slot
      if !slotLive s n sl || (!e.target && slotAsid s n sl ≠ e.asid) ||
          (k.rsig ≠ 0xFFFF && (physObj s n sl k.rsig).isNone) then
        ack (absorb s n) a.part a.port k stContextGone
      else if k.ordered then orderedReq s n sl a e k ecc
      else
        let (s, r) := reqMemory s n sl a e k ecc
        let s := if r.type ≠ tAck || r.operand = stOk then reqTally s n sl k else s
        answer s a.part a.port k r.type r.operand r.payload r.poison

/-! ### Multicast (R356) -/

/-- One copy to a member of a group: peer state, route by the group's own FSEQ, and the queue; without a path it is held. -/
def mcCopy (s : State) (pipe g pp : Nat) (k : Pkt) (m : McSend) (i : Nat) : State × McSend :=
  let gk := 16 * pipe + g
  let mem := mgetD s.mcMember (64 * gk + i) 0
  let c := fld mem 15 0
  let fseq := mgetD s.mcFseq gk 0
  let s := { s with mcFseq := mput s.mcFseq gk ((fseq + 1) % 65536) }
  let p := partOfPipe s pipe
  let fail : McSend := { m with failed := some (m.failed.getD i) }
  let st := (peer s p c).state
  let q : Pkt := { k with
    flags := (if k.last then 2 else 0) + 8 + (if wbit mem 31 then 16 else 0), dstCoord := c, dstEndpt := fld mem 26 16
    srcCoord := (ownCoord s).getD 0, srcEndpt := pipeEndpt pp, srcEpoch := s.epoch, dstEpoch := peerEpoch s p c
    fseq := fseq, rstream := 0xFF, key := (mgetD s.mcKey (64 * gk + i) 0).toNat, encSlot := 0, mcgroup := g, nonce := 0
    operand := 0 }
  if st = 2 || st = 3 then (s, fail)
  else
    let go (s : State) (o r : Nat) : State × McSend :=
      match transmit s p o { q with route := r } with
      | (s, true) => (bumpUnit s .col pp 0x108 k.plen 4096, { m with waiting := m.waiting ++ [⟨i, fseq, c, s.us⟩] })
      | (s, false) => (s, fail)
    if ownCoord s = some c then go s 255 0
    else
      let table := fld (mgetD s.mcCfg gk 0) 21 16
      match pathOf s p table fseq with
      | .out o r => go s o r
      | .held d => (holdPkt s pp table fseq q true d, { m with waiting := m.waiting ++ [⟨i, fseq, c, s.us⟩] })

/-- A PUT at a pipeline endpoint: the payload is read once and one copy goes to each member of the group that its KEY names, which
for a copy with FWD is the group of the same number (R356). -/
def mcReq (s : State) (pp : Nat) (a : Arrival) (k : Pkt) : State :=
  let pipe := barrierPipe s a.part
  let g := k.key % 16
  let cfg := mgetD s.mcCfg (16 * pipe + g) 0
  if !wbit cfg 8 || (k.fwd && k.mcgroup ≠ g) || fld (mgetD s.mcCheck (16 * pipe + g) 0) 27 0 ≠ k.key / 16 then
    ack s a.part a.port k (nackOperand ⟨ftKey, accRemoteWrite, k.addr, false, 0, 0, 0⟩)
  else
    let m : McSend := ⟨pp, g, a.port, pktHeader k, [], none⟩
    let (s, m) := (List.range (min 64 (fld cfg 6 0))).foldl (fun r i => mcCopy r.1 pipe g pp k r.2 i) (s, m)
    mcSettle { s with mcSends := s.mcSends ++ [m] }

/-! ### The request rows -/

/-- Is a partition, or the package, in reset (R348, check 5)? -/
def inReset (s : State) (p : Nat) : Bool := s.chipReset.isSome || (mget s.partReset p).isSome

/-- BAD_REQUEST (R348, check 6). -/
def badRequest (s : State) (a : Arrival) (k : Pkt) : State :=
  ack (recErr s eColBadRequest a.page 0 (k.srcCoord % 32768) noCtag) a.part a.port k stBadRequest

/-- A request packet arrives (R348). -/
def reqArrive (s : State) (i part type : Nat) (data : List Byte) (tagOk : Bool) (ecc : Ecc) : State :=
  let a := arrival s i part
  match arriveCheck s a type data tagOk with
  | (s, none) => s
  | (s, some k) =>
    match peerCheck s a.part k with
    | (s, .discard) => discardPkt s a
    | (s, .lost) => ack s a.part a.port k stPeerLost
    | (s, .ok) =>
      if k.dstEpoch ≠ 0 && k.dstEpoch ≠ s.epoch then ack s a.part a.port k stStaleEpoch
      else match endptOf s k.dstEndpt with
        | .core n =>
          if inReset s (partOfCore s n) then ack s a.part a.port k stPeerReset
          else if partOfCore s n ≠ a.part || !reqFieldsOk k then badRequest s a k
          else coreReq s n a k ecc
        | .pipe pp =>
          if inReset s (partOfPipe s pp) then ack s a.part a.port k stPeerReset
          else if partOfPipe s pp ≠ a.part || !reqFieldsOk k || type ≠ tPut then badRequest s a k
          else mcReq s pp a k
        | _ => badRequest s a k

/-- PUT (R349). -/
def execPutPkt (i part : Nat) (data : List Byte) (tagOk : Bool) (s : State) : Host.Outcome State Fault Refusal :=
  .next (reqArrive s i part tPut data tagOk .none)

/-- GET_REQ (R349). -/
def execGetReq (i part : Nat) (data : List Byte) (tagOk : Bool) (ecc : Ecc) (s : State) : Host.Outcome State Fault Refusal :=
  .next (reqArrive s i part tGetReq data tagOk ecc)

/-- SIGNAL (R349). -/
def execSignalPkt (i part : Nat) (data : List Byte) (tagOk : Bool) (s : State) : Host.Outcome State Fault Refusal :=
  .next (reqArrive s i part tSignal data tagOk .none)

/-- ATOMIC (R136, R349). -/
def execAtomicPkt (i part : Nat) (data : List Byte) (tagOk : Bool) (ecc : Ecc) (s : State) :
    Host.Outcome State Fault Refusal := .next (reqArrive s i part tAtomic data tagOk ecc)

/-- REDUCE_PUT (R135, R349). -/
def execReducePut (i part : Nat) (data : List Byte) (tagOk : Bool) (ecc : Ecc) (s : State) :
    Host.Outcome State Fault Refusal := .next (reqArrive s i part tReducePut data tagOk ecc)

/-- TALLY (R349). -/
def execTally (i part : Nat) (data : List Byte) (tagOk : Bool) (s : State) : Host.Outcome State Fault Refusal :=
  .next (reqArrive s i part tTally data tagOk .none)

end Sys2Proof.Machine
end

