-- ==== Sys2Proof/Machine/Answers.lean ====
section
/-!
DEFINITION. The source side of the fabric: sending request packets (R338, R340, R344, R346, R351), answers and their
outcomes (R352, R353, R355 to R358), timers (R346, R353, R354, R464) and stops (R256, R257).
-/
namespace Sys2Proof.Machine

/-! ### Sending -/

/-- Requests of a core that await a response (R340). -/
def coreOut (s : State) (n : Nat) : Nat :=
  ((core s n).streams.map (fun e => (e.2.descs.map (fun d => d.pkts.length)).foldl (· + ·) 0)).foldl (· + ·) 0

/-- The pieces of memory behind bytes of a descriptor's local side. -/
inductive XeSpan where
  | ok (parts : List (Nat × Nat))
  | fault (info : FaultInfo)
  | invalid
deriving DecidableEq, Repr

/-- Resolve a range of an address space, 64 KiB page by page. -/
def xeSpan : Nat → State → Nat → Nat → Nat → Nat → Nat → Nat → State × XeSpan
  | 0, s, _, _, _, _, _, _ => (s, .ok [])
  | fuel + 1, s, n, k, space, a, len, acc =>
    if len = 0 then (s, .ok [])
    else
      let part := if space = 1 then len else
        if space = 2 then pagePart ((slot s n k).rud + a) len else pagePart a len
      match xeAddr s n k space a part acc with
      | (s, .invalid) => (s, .invalid)
      | (s, .fault i) => (s, .fault i)
      | (s, .ok d) =>
        match xeSpan fuel s n k space (a + part) (len - part) acc with
        | (s, .ok rest) => (s, .ok ((d, part) :: rest))
        | r => r

/-- What a packet of a descriptor needs of local memory before it is sent (R245). -/
inductive PktLocal where
  | ok (payload : List Byte) (dst : List (Nat × Nat))
  | fault (info : FaultInfo)
  | invalid
  | poison (err : Nat)
deriving DecidableEq, Repr

/-- The local side of the packet at an offset: PUT and REDUCE-PUT read their payload, in which the memory finds `ecc`; GET and
ATOMIC translate their destination, which the answer is written to. -/
def pktLocal (s : State) (n k : Nat) (r : List Byte) (off len : Nat) (ecc : Ecc) : State × PktLocal :=
  let kd := dKind r
  if kd = 6 || kd = 10 then
    match xeSpan 3 s n k (dSpA r) (dA r + off) len accRead with
    | (s, .invalid) => (s, .invalid)
    | (s, .fault i) => (s, .fault i)
    | (s, .ok parts) =>
      match spanErr s parts ecc (slot s n k).ctag with
      | (s, some e) => (s, .poison e)
      | (s, none) =>
        let (s, b) := readSpan s n parts (slot s n k).ctag
        (s, .ok b [])
  else if kd = 7 || kd = 9 then
    let a := if kd = 7 then dB r + off else dA r
    match xeSpan 3 s n k (if kd = 7 then dSpB r else dSpA r) a (if kd = 7 then len else if bit (dOpx r) 0 then 4 else 8)
      accWrite with
    | (s, .invalid) => (s, .invalid)
    | (s, .fault i) => (s, .fault i)
    | (s, .ok parts) => (s, .ok [] parts)
  else (s, .ok [] [])

/-- Packet type of a descriptor kind (R336). -/
def kindType (kd : Nat) : Nat :=
  if kd = 6 then tPut else if kd = 7 then tGetReq else if kd = 8 then tSignal else if kd = 9 then tAtomic else tReducePut

/-- The header of the packet of a descriptor at an offset (R335, R338, R351). -/
def descPkt (s : State) (n k i : Nat) (d : ActDesc) (fseq off len : Nat) (retry tally : Bool) (payload : List Byte) : Pkt :=
  let r := d.record
  let kd := dKind r
  let single := kd = 8 || kd = 9 || tally
  let last := single || decide (dLen r ≤ off + len)
  let ordered := (kd = 6 || kd = 10) && decide (dRstream r < 16) && !retry && !tally
  let base := if kd = 7 then dA r else dB r
  { type := if tally then tTally else kindType kd
    flags := b2n retry + 2 * b2n last + 4 * b2n ordered, vc := 0, dstCoord := dCoord r, dstEndpt := dEndpt r
    srcCoord := (ownCoord s).getD 0, srcEndpt := coreEndpt s n, plen := payload.length, srcEpoch := s.epoch
    dstEpoch := peerEpoch s (partOfCore s n) (dCoord r), flow := k + 16 * i, opid := d.opid, fseq := fseq
    addr := (base + (if single then 0 else off)) % 2 ^ 48
    rstream := if ordered then dRstream r else 0xFF, opx := if tally then 0 else dOpx r, rsig := dRsig r
    offset := if single then 0 else off, key := dKey r
    operand := if tally then len else if kd = 7 then len else if kd = 8 then dOperand r % 65536
      else if kd = 9 then dOperand r else 0
    payload := payload }

/-- The outcome of handing a request to its port. -/
inductive SendRes where
  | sent (plane : Nat)
  | wait
  | held (detail : Nat)
  | noPath
  | down (lost : Bool)
deriving DecidableEq, Repr

/-- Route, seal and queue one request packet (R331, R334, R339, R344, R346, R360, R362). -/
def sendReq (s : State) (n : Nat) (table : Nat) (k : Pkt) : State × SendRes :=
  let p := partOfCore s n
  let st := (peer s p k.dstCoord).state
  if st = 2 then (s, .down false)
  else if st = 3 then (s, .down true)
  else if ownCoord s = some k.dstCoord then ((transmit s p 255 k).1, .sent 8)
  else match pathOf s p table k.fseq with
    | .held d => (s, .held d)
    | .out i r =>
      if (port s i).credReq ≤ (port s i).txReq.length then (s, .wait)
      else match transmit s p i { k with route := r } with
        | (s, true) => (s, .sent (r % 8))
        | (s, false) => (s, .noPath)

/-- The stream stops for an outcome of a send; a held packet marks its stream (R346, R353). -/
def sendFailed (s : State) (n ph k i : Nat) (r : SendRes) : State :=
  match r with
  | .held d => modStream s n ph (fun x => { x with heldPath := some (x.heldPath.getD (d, s.us)) })
  | .noPath => stopStream s n ph k i eXeNoPath
  | .down lost => stopStream s n ph k i (if lost then eXePeerLost else eXePeerReset)
  | _ => s

/-- Send the next packet of a stream's issuing fabric descriptor (R338). -/
def sendNext (s : State) (n ph k i : Nat) (d : ActDesc) (ecc : Ecc) : State :=
  let r := d.record
  let single := dKind r = 8 || dKind r = 9
  let off := d.issued
  let len := if single then 0 else min 4096 (dLen r - off)
  if 512 ≤ coreOut s n then s
  else if (dKind r = 6 || dKind r = 10) && dRstream r < 16 && 512 ≤ d.pkts.length then s
  else match pktLocal s n k r off len ecc with
    | (s, .invalid) => xeErr s eXeDescInvalid n k i
    | (s, .fault f) => streamFault s n ph k i d.idx off f (dCoord r) (dEndpt r) 0
    | (s, .poison e) => endCtx s n k 5 e 3
    | (s, .ok b dst) =>
      let fseq := (stream s n ph).fseq
      match sendReq s n (dRoll r) (descPkt s n k i d fseq off len d.retry false b) with
      | (s, .sent _) =>
        let s := modStream s n ph (fun x => { x with fseq := (x.fseq + 1) % 65536, heldPath := none })
        let s := portOut (portIn s n (if dSpA r = 1 then 0 else b.length)) n b.length
        modDesc s n ph d.idx (fun d => { d with
          issued := if single then 1 else off + len
          pkts := d.pkts ++ [{ fseq := fseq, off := off, len := len, firstUs := s.us, dst := dst, retry := d.retry }] })
      | (s, r) => sendFailed s n ph k i r

/-- FABRIC_PACKET_SEND (R344). -/
def execFabricPacketSend (n : Nat) (rd : Reader) (s : State) : Host.Outcome State Fault Refusal :=
  .next (match streamOwner s n rd.no with
    | none => s
    | some (k, i) =>
      let x := stream s n rd.no
      if !running s n k || x.st ≠ .run || x.stopping then s
      else match x.descs.find? (fun d => !descIssued d) with
        | some d => if dFabric d.record then sendNext s n rd.no k i d rd.ecc else s
        | none => s)

/-- TALLY_ONLY_SEND (R257): every retried packet of a PUT is acknowledged. -/
def execTallyOnlySend (n ph : Nat) (s : State) : Host.Outcome State Fault Refusal :=
  .next (match streamOwner s n ph with
    | none => s
    | some (k, i) =>
      let x := stream s n ph
      if !running s n k || x.st ≠ .run || x.stopping then s
      else match x.descs.find? (fun d => d.retry && !d.tallySent && dKind d.record = 6 && descIssued d && d.pkts.isEmpty &&
          !d.nacked && dRsig d.record ≠ 0xFFFF && d.acked < dLen d.record) with
        | none => s
        | some d =>
          if 512 ≤ coreOut s n then s else
          let len := dLen d.record - d.acked
          match sendReq s n (dRoll d.record) (descPkt s n k i d x.fseq 0 len false true []) with
          | (s, .sent _) =>
            let s := modStream s n ph (fun x => { x with fseq := (x.fseq + 1) % 65536, heldPath := none })
            modDesc s n ph d.idx (fun d => { d with
              tallySent := true
              pkts := [{ fseq := x.fseq, len := len, firstUs := s.us, tallyOnly := true }] })
          | (s, r) => sendFailed s n ph k i r)

/-! ### Matching answers -/

/-- The request that an answer at core n matches (R348): slot, context-relative and physical stream, descriptor, packet. -/
structure Match where
  k : Nat
  i : Nat
  ph : Nat
  desc : ActDesc
  pkt : OutPkt
deriving DecidableEq, Repr

/-- Match by FLOW and FSEQ. -/
def matchOut (s : State) (n : Nat) (q : Pkt) : Option Match :=
  let k := q.flow % 16
  let i := bits q.flow 4 9
  if (slot s n k).st = .free then none
  else match (slot s n k).streams[i]? with
    | none => none
    | some ph => (stream s n ph).descs.findSome? (fun d =>
        (d.pkts.find? (fun o => o.fseq = q.fseq && !o.resend && !o.held)).map (fun o => ⟨k, i, ph, d, o⟩))

/-- The packet of a match is answered. -/
def dropPkt (s : State) (n : Nat) (m : Match) : State :=
  modDesc s n m.ph m.desc.idx (fun d => { d with pkts := d.pkts.filter (fun o => o.fseq ≠ m.pkt.fseq) })

/-- FAULT_NACK (R256 to R258). -/
def nacked (s : State) (n : Nat) (m : Match) (q : Pkt) : State :=
  let sl := slot s n m.k
  let r := m.desc.record
  let kd := dKind r
  let x := stream s n m.ph
  let acc := if kd = 6 then (if m.pkt.tallyOnly then accRemoteSignal else accRemoteWrite) else if kd = 7 then accRemoteRead
    else if kd = 8 then accRemoteSignal else accRemoteRmw
  let info : FaultInfo := ⟨bits q.operand 8 8, acc, bits q.operand 16 48, false, 0, 0, 0⟩
  let pre := if sl.st = .preempting then 4 else 0
  let s := recErr s eXeRemoteFault n m.k m.i sl.ctag
  if kd = 6 || kd = 7 then
    if x.st = .stopped then s
    else
      let s := if x.descs.any (fun d => d.nacked) then s else
        postStreamRecord s n m.ph (faultRecord info (2 + pre) sl.ctag.toNat (slotAsid s n m.k) m.i m.desc.idx 0 (dCoord r)
          (dEndpt r) (dKey r) (if kd = 6 then m.desc.acked else 0))
      let s := modDesc s n m.ph m.desc.idx (fun d => { d with nacked := true })
      let s := modStream s n m.ph (fun x => { x with st := .faulted, faultPending := true, stopping := true, goOn := false })
      enterFaulted s n m.k
  else
    let s := postStreamRecord s n m.ph (faultRecord info (2 + 8 + pre) sl.ctag.toNat (slotAsid s n m.k) m.i m.desc.idx
      m.pkt.off (dCoord r) (dEndpt r) (dKey r) m.desc.acked)
    endGroup s (partOfCore s n) (slotGroup s n m.k) 8 0

/-- An ACK of a matched request (R350, R352, R353). -/
def ackMatched (s : State) (n : Nat) (m : Match) (q : Pkt) : State :=
  let p := partOfCore s n
  let c := dCoord m.desc.record
  let st := q.operand % 256
  if st = stBusy then
    modDesc s n m.ph m.desc.idx (fun d => { d with
      pkts := d.pkts.map (fun o => if o.fseq = m.pkt.fseq then { o with resend := true } else o) })
  else
    let s := dropPkt s n m
    if st = stOk then
      if m.pkt.retry || m.pkt.tallyOnly then s
      else modDesc s n m.ph m.desc.idx (fun d => { d with acked := d.acked + m.pkt.len })
    else if st = stFaultNack then nacked s n m q
    else if st = stContextGone then stopStream s n m.ph m.k m.i eXePeerGone
    else if st = stPeerReset || st = stStaleEpoch then
      stopStream (peerDown s p c false) n m.ph m.k m.i eXePeerReset
    else if st = stPeerLost then stopStream (peerDown s p c true) n m.ph m.k m.i eXePeerLost
    else if st = stPoison then
      endCtx (recErr s eXeRemotePoison n m.k m.i (slot s n m.k).ctag) n m.k 5 (errField eXeRemotePoison) 3
    else stopStream s n m.ph m.k m.i eXeRemoteRefused

/-- GET_DATA of a matched GET: written where the packet's destination was translated to (R245, R352, R353), unless it carries
POISON. -/
def getMatched (s : State) (n : Nat) (m : Match) (q : Pkt) : State :=
  let r := m.desc.record
  let s := dropPkt s n m
  if q.poison then endCtx (recErr s eXeRemotePoison n m.k m.i (slot s n m.k).ctag) n m.k 5 (errField eXeRemotePoison) 3
  else
    let s := writeSpan s n m.pkt.dst q.payload (slot s n m.k).ctag (slotAsid s n m.k) (partOfCore s n)
    let s := portOut (portIn s n q.plen) n (if dSpB r = 1 then 0 else q.plen)
    modDesc s n m.ph m.desc.idx (fun d => { d with acked := d.acked + m.pkt.len, done := d.done + m.pkt.len })

/-- ATOMIC_RSP of a matched ATOMIC: the prior value is written at the return address, translated before the packet was sent
(R136, R245, R349). -/
def atomicMatched (s : State) (n : Nat) (m : Match) (q : Pkt) : State :=
  let len := if bit (dOpx m.desc.record) 0 then 4 else 8
  writeSpan (dropPkt s n m) n m.pkt.dst (leBytes q.operand len) (slot s n m.k).ctag (slotAsid s n m.k) (partOfCore s n)

/-- The planes that a partition's carrying ports reach, as a mask. -/
def upPlanes (s : State) (p : Nat) : Nat :=
  maskOf (((partPorts s p).filter (fun i => portUp s i && wbit (rget s .fab i 0x118) 7)).map
    (fun i => fld (rget s .fab i 0x118) 2 0)).eraseDups

/-- Planes of a peer's unreachable set that were reported within COL_OP_TIMEOUT (R355). -/
def unreachMask (s : State) (p c : Nat) : Nat :=
  let w := (rget s .col (barrierPipe s p) 0x204).toNat
  maskOf (((peer s p c).unreach.filter (fun e => within s (w + 1) e.2)).map (·.1)).eraseDups

/-- A plane joins a peer's unreachable set; with every plane that carrying ports of the partition reach, the peer enters LOST
(R355): the state after, and whether it did. -/
def noteUnreach (s : State) (p c plane : Nat) : State × Bool :=
  let s := modPeer s p c (fun e => { e with unreach := e.unreach.filter (fun x => x.1 ≠ plane) ++ [(plane, s.us)] })
  let s := recErr s eColUnreachable (barrierPipe s p) 0 plane noCtag
  let up := upPlanes s p
  if up ≠ 0 && unreachMask s p c &&& up = up then (peerDown s p c true, true) else (s, false)

/-- UNREACHABLE of a matched request (R355). -/
def unreachMatched (s : State) (n : Nat) (m : Match) (q : Pkt) : State :=
  let plane := q.route % 8
  match noteUnreach s (partOfCore s n) (dCoord m.desc.record) plane with
  | (s, true) => stopStream s n m.ph m.k m.i eXePeerLost
  | (s, false) => modDesc s n m.ph m.desc.idx (fun d => { d with
    pkts := d.pkts.map (fun o =>
      if o.fseq = m.pkt.fseq then { o with resend := true, unreach := o.unreach ||| (1 <<< plane) } else o) })

/-- What the outcome of an answer makes of the peer that gave it (R353, R355, R360). -/
def peerAnswer (s : State) (p : Nat) (q : Pkt) : State :=
  let st := q.operand % 256
  if q.type = tUnreachable then (noteUnreach s p q.srcCoord (q.route % 8)).1
  else if q.type ≠ tAck then s
  else if st = stPeerReset || st = stStaleEpoch then peerDown s p q.srcCoord false
  else if st = stPeerLost then peerDown s p q.srcCoord true
  else s

/-- An answer that meets a multicast copy of a pipeline, which it matches by FLOW and FSEQ (R348, R356). A multicast is never
retried: a copy that is UNREACHABLE has failed. -/
def mcAnswer (s : State) (pp : Nat) (q : Pkt) : Option State :=
  let hit (m : McSend) : Bool := m.pipe = pp && (pktDecode m.header).flow = q.flow && (pktDecode m.header).opid = q.opid &&
    (pktDecode m.header).offset = q.offset && m.waiting.any (fun w => w.fseq = q.fseq && w.coord = q.srcCoord)
  if s.mcSends.any hit then
    let ok := q.type = tAck && q.operand % 256 = stOk
    some (peerAnswer (mcSettle (modMc s hit (fun m => mcMember m q.fseq ok))) (partOfPipe s pp) q)
  else none

/-- An answer packet arrives (R348): processed when its DST_EPOCH is the package's, its endpoint belongs to the partition it
arrived for (R333) and it matches a request; one that meets an orphan is discarded (R464). -/
def rspArrive (s : State) (i part type : Nat) (data : List Byte) (tagOk : Bool)
    (f : State → Nat → Match → Pkt → State) (ok : Match → Pkt → Bool) : State :=
  let a := arrival s i part
  match arriveCheck s a type data tagOk with
  | (s, none) => s
  | (s, some q) =>
    let chk : State × PeerRes := if type = tUnreachable then (s, .ok) else peerCheck s a.part q
    match chk with
    | (s, .ok) =>
      if q.dstEpoch ≠ s.epoch then discardPkt s a
      else match endptOf s q.dstEndpt with
        | .core n =>
          if partOfCore s n ≠ a.part then discardPkt s a else
          let orphan (o : Orphan) : Bool := o.slot = q.flow % 16 && o.flow = bits q.flow 4 9 && o.fseq = q.fseq
          if (core s n).orphans.any orphan then
            discardPkt (modCore s n (fun c => { c with orphans := eraseFirst orphan c.orphans })) a
          else match matchOut s n q with
            | none => discardPkt s a
            | some m => if ok m q then f s n m q else discardPkt s a
        | .pipe pp => if partOfPipe s pp ≠ a.part then discardPkt s a else (mcAnswer s pp q).getD (discardPkt s a)
        | _ => discardPkt s a
    | (s, _) => discardPkt s a

/-- ACK (R352, R353). -/
def execAckPkt (i part : Nat) (data : List Byte) (tagOk : Bool) (s : State) : Host.Outcome State Fault Refusal :=
  .next (rspArrive s i part tAck data tagOk ackMatched
    (fun m q => !((dKind m.desc.record = 7 || dKind m.desc.record = 9) && q.operand % 256 = stOk)))

/-- GET_DATA (R352). -/
def execGetData (i part : Nat) (data : List Byte) (tagOk : Bool) (s : State) : Host.Outcome State Fault Refusal :=
  .next (rspArrive s i part tGetData data tagOk getMatched (fun m q => dKind m.desc.record = 7 && q.plen = m.pkt.len))

/-- ATOMIC_RSP (R136). -/
def execAtomicRsp (i part : Nat) (data : List Byte) (tagOk : Bool) (s : State) : Host.Outcome State Fault Refusal :=
  .next (rspArrive s i part tAtomicRsp data tagOk atomicMatched (fun m _ => dKind m.desc.record = 9))

/-- UNREACHABLE (R355). -/
def execUnreachable (i part : Nat) (data : List Byte) (tagOk : Bool) (s : State) : Host.Outcome State Fault Refusal :=
  .next (rspArrive s i part tUnreachable data tagOk unreachMatched (fun _ _ => true))

/-! ### Timers -/

/-- PACKET_RESEND (R353): a packet answered BUSY or UNREACHABLE is sent again with a new FSEQ and its original timer. -/
def execPacketResend (n ph : Nat) (rd : Reader) (s : State) : Host.Outcome State Fault Refusal :=
  .next (match streamOwner s n ph with
    | none => s
    | some (k, i) =>
      match (stream s n ph).descs.findSome? (fun d =>
          (d.pkts.find? (fun o => o.fseq = rd.no && o.resend)).map (fun o => (d, o))) with
      | none => s
      | some (d, o) =>
        if (slot s n k).ending.isSome then s else
        let loc : State × PktLocal := if o.tallyOnly then (s, .ok [] []) else pktLocal s n k d.record o.off o.len rd.ecc
        match loc with
        | (s, .invalid) => xeErr s eXeDescInvalid n k i
        | (s, .fault f) => streamFault s n ph k i d.idx o.off f (dCoord d.record) (dEndpt d.record) 0
        | (s, .poison e) => endCtx s n k 5 e 3
        | (s, .ok b dst) =>
          let nf := (stream s n ph).fseq
          match sendReq s n (dRoll d.record) (descPkt s n k i d nf o.off o.len o.retry o.tallyOnly b) with
          | (s, .sent _) =>
            let s := modStream s n ph (fun x => { x with fseq := (x.fseq + 1) % 65536, heldPath := none })
            modDesc s n ph d.idx (fun d => { d with
              pkts := d.pkts.map (fun y =>
                if y.fseq = rd.no then { y with fseq := nf, dst := dst, resend := false, resends := y.resends + 1 } else y) })
          | (s, .held det) => sendFailed s n ph k i (.held det)
          | (s, .wait) => s
          | (s, r) =>
            sendFailed (modDesc s n ph d.idx (fun d => { d with pkts := d.pkts.filter (fun y => y.fseq ≠ rd.no) })) n ph k i r)

/-- The oldest packet that a pipeline holds has been held too long (R346): COL_NO_PATH, and for a copy its member failed. -/
def pipeHoldTimeout (s : State) (pp : Nat) : State :=
  let p := partOfPipe s pp
  let hit (h : HeldPkt) : Bool := h.pipe = pp && opPassed s p (h.us + 1)
  match s.heldPkts.find? hit with
  | none => s
  | some h =>
    let s := recErr { s with heldPkts := eraseFirst hit s.heldPkts } eColNoPath (barrierPipe s p) 0 h.detail noCtag
    if h.copy then mcLost s pp (pktDecode h.data).fseq else s

/-- PACKET_HOLD_TIMEOUT (R346): the stream's packet, held for longer than COL_OP_TIMEOUT, ends its descriptor with NO_PATH.
Units from 1,152 on are the COL pipelines (log entry 37). -/
def execPacketHoldTimeout (n ph : Nat) (s : State) : Host.Outcome State Fault Refusal :=
  .next (if 1152 ≤ n then pipeHoldTimeout s (n - 1152) else match streamOwner s n ph with
    | none => s
    | some (k, i) =>
      match (stream s n ph).heldPath with
      | none => s
      | some (det, us) =>
        if !opPassed s (partOfCore s n) (us + 1) then s else
        let pipe := barrierPipe s (partOfCore s n)
        let s := modStream s n ph (fun x => { x with
          descs := x.descs.map (fun d => { d with pkts := d.pkts.filter (fun o => !o.resend) }) })
        stopStream (recErr s eColNoPath pipe 0 det noCtag) n ph k i eXeNoPath)

/-- A multicast copy of a pipeline has had no answer within COL_OP_TIMEOUT (R354, R356): its member failed and the peer is
LOST. -/
def copyTimeout (s : State) (pp fseq : Nat) : State :=
  let p := partOfPipe s pp
  let due (w : McWait) : Bool := w.fseq = fseq && opPassed s p w.us
  let hit (m : McSend) : Bool := m.pipe = pp && m.waiting.any due
  if s.heldPkts.any (fun h => h.pipe = pp && h.copy && (pktDecode h.data).fseq = fseq) then s
  else match (s.mcSends.find? hit).bind (fun m => m.waiting.find? due) with
    | none => s
    | some w => mcSettle (peerDown (modMc s hit (fun m => mcMember m fseq false)) p w.coord true)

/-- PACKET_TIMEOUT (R354): a request whose timer has reached COL_OP_TIMEOUT: the peer enters LOST and the stream stops. Units from
1,152 on are the COL pipelines, whose multicast copies time out as members that failed (R356, log entry 37). -/
def execPacketTimeout (u ph fseq : Nat) (s : State) : Host.Outcome State Fault Refusal :=
  .next (
    if 1152 ≤ u then copyTimeout s (u - 1152) fseq
    else match streamOwner s u ph with
    | none => s
    | some (k, i) =>
      match (stream s u ph).descs.find? (fun d => d.pkts.any (fun o => o.fseq = fseq && opPassed s (partOfCore s u) o.firstUs)) with
      | none => s
      | some d =>
        let s := peerDown s (partOfCore s u) (dCoord d.record) true
        let s := modDesc s u ph d.idx (fun d => { d with pkts := d.pkts.filter (fun o => o.fseq ≠ fseq) })
        stopStream s u ph k i eXePeerLost)

/-- ORPHAN_TIMEOUT (R464): the core's response filter drops an orphan once COL_OP_TIMEOUT has passed since it was sent. -/
def execOrphanTimeout (n k flow fseq : Nat) (s : State) : Host.Outcome State Fault Refusal :=
  .next (modCore s n (fun c => { c with
    orphans := eraseFirst (fun o => o.slot = k && o.flow = flow && o.fseq = fseq && opPassed s (partOfCore s n) o.us) c.orphans }))

/-! ### Stops (R256) -/

/-- The restart of a fabric descriptor once its packets are answered (R256, R257): a NACKed PUT starts again with RETRY,
a NACKed GET from offset 0, a GET with unwritten data at the first of it; every other goes on where it was. -/
def settleDesc (d : ActDesc) : ActDesc :=
  if d.nacked then
    if dKind d.record = 6 then { d with issued := 0, done := 0, nacked := false, retry := true, tallySent := false }
    else { d with issued := 0, done := 0, acked := 0, nacked := false, lost := none }
  else match d.lost with
    | some off => { d with issued := off, lost := none }
    | none => d

/-- FABRIC_STOP_SETTLED (R256): every packet already sent has been answered. A stream whose slot has been resumed goes
on. -/
def execFabricStopSettled (n ph : Nat) (s : State) : Host.Outcome State Fault Refusal :=
  .next (match streamOwner s n ph with
    | none => s
    | some (k, _) =>
      let x := stream s n ph
      if x.descs.any (fun d => !d.pkts.isEmpty) || (slot s n k).ending.isSome then s
      else if x.st = .stopped then modStream s n ph (fun x => { x with stopping := false })
      else if !x.stopping then s
      else
        let go := x.st = .faulted && x.goOn
        modStream s n ph (fun x => { x with
          stopping := false, goOn := false, descs := x.descs.map settleDesc, st := if go then .run else x.st
          faultPending := if go then false else x.faultPending }))

end Sys2Proof.Machine
end

