-- ==== Sys2Proof/Machine/Barriers.lean ====
section
/-!
DEFINITION. Gongs (R182 to R189) and fabric barriers (R190 to R193, R197, R358).
-/
namespace Sys2Proof.Machine

/-- A phase rule's counters after counting an arrival: PHASE counts in CUR, PHASE + 1 in NEXT (R186). -/
def countArrival (q phase cur next : Nat) : Nat × Nat := if q = phase then (cur + 1, next) else (cur, next + 1)

/-- Advance a phase (R186): arrivals in excess of N count towards the next. -/
def advance (n next : Nat) : Nat × Nat := (min next n, next - n)

/-! ### Bind reads -/

/-- BARRIER_BIND_READ_DONE (R184): the object is bound at the barrier's phase, the held arrival is made and the rest of
the signal program takes effect. -/
def execBarrierBindReadDone (n k : Nat) (s : State) : Host.Outcome State Fault Refusal :=
  .next (
    let s := deliver s (.bindRead n k)
    match (slot s n k).bind with
    | some ⟨o :: rest⟩ =>
      if (slot s n k).ending.isSome then s
      else
        let bar := opValue o
        let fabric := opCode o = 0x14
        match physObj s n k (opObj o) with
        | none => s
        | some ph =>
          let phase := if fabric then (fbar s (barrierPipe s (partOfCore s n)) bar).phase else (gongBar s (coreTile n) bar).phase
          let s := modSync s n ph (fun x => { x with gphase := phase, gbar := bar, gkind := fabric, bound := true })
          let s := modSlot s n k (fun sl => { sl with bind := none })
          checkDone (wake (runSignals rest (makeArrival s n k ph bar fabric) n k) n k) n k
    | _ => s)

/-! ### Gong units -/

/-- The GNG page of a barrier of a tile: package-wide barriers live in T0 (R182). -/
def gngPage (tile bar : Nat) : Nat := if bar < 256 then tile else 0

/-- The partition that a gong barrier belongs to (R27, R182). -/
def gongPart (s : State) (tile bar : Nat) : Nat :=
  if bar < 256 then (if s.split = 3 then partOfHalf s tile (bar / 128) else partOfHalf s tile 0)
  else (bar - 256) / (64 / partCount s)

/-- Broadcast a release to the cores of its scope (R182, R187). -/
def gongBroadcast (s : State) (tile bar phase : Nat) : State :=
  let p := gongPart s tile bar
  (s.cores.filter (fun e => coreEnabled s e.1 && partOfCore s e.1 = p && (256 ≤ bar || coreTile e.1 = tile))).foldl
    (fun s e => send s (.release e.1 false bar phase)) s

/-- Release while CUR equals N: the phase, and the next one when its arrivals are all there (R186). -/
def gongRelease : Nat → State → Nat → Nat → State
  | 0, s, _, _ => s
  | fuel + 1, s, tile, bar =>
    let b := gongBar s tile bar
    if b.cur < b.n || b.n = 0 then s
    else
      let (cur, next) := advance b.n b.next
      let s := { s with gong := mput s.gong (gongKey tile bar) { b with phase := (b.phase + 1) % 4, cur := cur, next := next } }
      let s := gongBroadcast (bump s .gng (gngPage tile bar) 0x104 1) tile bar b.phase
      gongRelease fuel s tile bar

/-- An arrival at a gong unit (R186). -/
def gongArrival (s : State) (n k bar q : Nat) (ecc : Ecc) : State :=
  let tile := coreTile n
  let pg := gngPage tile bar
  let ctag := (slot s n k).ctag
  let s := deliver s (.gongArrive n k bar q)
  let s := if ecc = .uncorr then
      recErr { s with gong := mupd s.gong (gongKey tile bar) Barrier.init (fun b => { b with enabled := false, cur := 0, next := 0 }) }
        eGngStateEcc pg (bar % 256) 0 noCtag
    else s
  let b := gongBar s tile bar
  if !b.enabled then send (recErr s eGngArriveDisabled pg (bar % 256) n ctag) (.notice n k bar 0)
  else
    let d := (q + 4 - b.phase) % 4
    if d < 2 then
      let (cur, next) := countArrival q b.phase b.cur b.next
      let s := { s with gong := mput s.gong (gongKey tile bar) { b with cur := cur, next := next } }
      gongRelease (cur + next + 1) (bump s .gng pg 0x100 1) tile bar
    else send (recErr s eGngOverrun pg (bar % 256) n ctag) (.notice n k bar d)

/-- GONG_ARRIVAL (R186): it waits on its way while the gong unit takes no new work (R57, R474). -/
def execGongArrival (n k bar q : Nat) (ecc : Ecc) (s : State) : Host.Outcome State Fault Refusal :=
  .next (if accepting s .gng (gngPage (coreTile n) bar) then gongArrival s n k bar q ecc else s)

/-- A core's XE applies the Release operation to every bound object that the broadcast matches (R187); a slot that is
FREE, PREEMPTING or ending discards it without notice (R179). -/
def releaseReceive (s : State) (n : Nat) (fabric : Bool) (bar r : Nat) : State :=
  (core s n).relIndex.foldl (fun s o =>
    let x := syncObj s n o
    if x.bound && x.gbar = bar && x.gkind = fabric && decide (0 < x.pend) && (x.gphase + 4 - x.pend) % 4 = r then
      match objOwner s n o with
      | some (k, i) => if slotLive s n k then syncDo s n k i .release true else s
      | none => s
    else s) s

/-- BARRIER_RELEASE_RECEIVE (R187); `ecc` is what the object store finds in the first state word that it reads. -/
def execBarrierReleaseReceive (n : Nat) (fabric : Bool) (bar : Nat) (rd : Reader) (s : State) : Host.Outcome State Fault Refusal :=
  let s := deliver s (.release n fabric bar rd.no)
  .next (releaseReceive (match (core s n).relIndex with
    | o :: _ => synEcc s n o rd.ecc
    | [] => s) n fabric bar rd.no)

/-- BARRIER_OVERRUN_NOTICE (R186): DETAIL 2 or 3 is an overrun, 0 a disabled barrier; the context's group is ended. -/
def execBarrierOverrunNotice (n k bar detail : Nat) (s : State) : Host.Outcome State Fault Refusal :=
  .next (
    let s := deliver s (.notice n k bar detail)
    if (slot s n k).st = .free || (slot s n k).ending.isSome then s
    else
      let e := if detail = 0 then eBarrierDisabled else eBarrierOverrun
      let s := recErr s e n k (if detail = 0 then bar else detail) (slot s n k).ctag
      endGroup s (partOfCore s n) (slotGroup s n k) 5 (errField e))

/-- A write of N and ENABLE to a gong barrier (R183, R196). -/
def gongCfg (s : State) (tile bar max : Nat) (w : Word) : State :=
  let pg := gngPage tile bar
  let b := gongBar s tile bar
  let n := min max (fld w 14 0)
  let en := wbit w 15 && n ≠ 0
  if en && b.enabled && (b.cur ≠ 0 || b.next ≠ 0) then recErr s eGngCfgBusy pg (bar % 256) 0 noCtag
  else
    let off := if bar < 256 then 0x400 + 8 * bar else 0xC00 + 8 * (bar - 256)
    let s := rset s .gng pg off (packFields [(0, n), (15, b2n en)])
    let b' : Barrier := if en then { n := n, enabled := true } else { b with n := n, enabled := false, cur := 0, next := 0 }
    { s with gong := mput s.gong (gongKey tile bar) b' }

/-- GNG_BAR_CFG_WRITE (R183). -/
def execGngBarCfgWrite (req : Req) (tile bar : Nat) (w : Word) (s : State) : Host.Outcome State Fault Refusal :=
  .next (guardWrite s req .gng tile (0x400 + 8 * bar) (fun s => gongCfg s tile bar 4352 w))

/-- GNG_PKG_CFG_WRITE (R183): package-wide barrier g of the gong unit of T0. -/
def execGngPkgCfgWrite (req : Req) (g : Nat) (w : Word) (s : State) : Host.Outcome State Fault Refusal :=
  .next (guardWrite s req .gng 0 (0xC00 + 8 * g) (fun s => gongCfg s 0 (256 + g) 17408 w))

/-! ### Fabric barriers -/

/-- Send a copy of a barrier message to each member of a multicast group of a partition's pipeline (R356, R358). -/
def fbMulticast (s : State) (pipe g : Nat) (k : Pkt) : State :=
  let cfg := mgetD s.mcCfg (16 * pipe + g) 0
  if !wbit cfg 8 then s
  else (List.range (min 64 (fld cfg 6 0))).foldl (fun s i =>
    let mem := mgetD s.mcMember (64 * (16 * pipe + g) + i) 0
    mgtSend s (partOfPipe s pipe) { k with
      flags := 8 + (if wbit mem 31 then 16 else 0), dstCoord := fld mem 15 0, dstEndpt := barrierEndpt
      srcEndpt := barrierEndpt, dstEpoch := 0, mcgroup := g, encSlot := 0, nonce := 0 }) s

/-- Release group of fabric barrier f (R364, COL_FB_GROUP). -/
def fbGroup (s : State) (pipe f : Nat) : Nat :=
  let w := rget s .col pipe (0x600 + 4 * (f / 4))
  fld w (8 * (f % 4) + 3) (8 * (f % 4))

/-- OPERAND of a barrier message (R336). -/
def fbOperand (f phase : Nat) : Nat := f + 256 * phase

/-- Release at the root while CUR equals DEV_N (R191). -/
def fbRootRelease : Nat → State → Nat → Nat → State
  | 0, s, _, _ => s
  | fuel + 1, s, pipe, f =>
    let b := fbar s pipe f
    if b.rcur < b.devN || b.devN = 0 then s
    else
      let (cur, next) := advance b.devN b.rnext
      let s := modFb s pipe f (fun b => { b with rphase := (b.rphase + 1) % 4, rcur := cur, rnext := next })
      let s := fbMulticast s pipe (fbGroup s pipe f) { type := tFbRelease, operand := fbOperand f b.rphase }
      fbRootRelease fuel s pipe f

/-- A device arrival from a coordinate is counted at the root (R191): an overrun notice goes back to the device. -/
def fbRootArrival (s : State) (pipe f q c : Nat) : State :=
  let b := fbar s pipe f
  let d := (q + 4 - b.rphase) % 4
  if d < 2 then
    let (cur, next) := countArrival q b.rphase b.rcur b.rnext
    fbRootRelease (cur + next + 1) (modFb s pipe f (fun b => { b with rcur := cur, rnext := next })) pipe f
  else
    let s := recErr s eColFbOverrun pipe (f % 256) (c % 32768) noCtag
    if ownCoord s = some c then s
    else mgtSend s (partOfPipe s pipe)
      { type := tFbOverrun, dstCoord := c, dstEndpt := barrierEndpt, srcEndpt := barrierEndpt, operand := fbOperand f q }

/-- The local level reached LOCAL_N: it advances and makes one device arrival (R191). -/
def fbDeviceArrive : Nat → State → Nat → Nat → State
  | 0, s, _, _ => s
  | fuel + 1, s, pipe, f =>
    let b := fbar s pipe f
    if b.cur < b.n || b.n = 0 then s
    else
      let (cur, next) := advance b.n b.next
      let s := modFb s pipe f (fun b => { b with
        phase := (b.phase + 1) % 4, cur := cur, next := next, await := b.await ++ [b.phase], left := mput b.left b.phase s.us })
      let s :=
        if b.isRoot then fbRootArrival s pipe f b.phase ((ownCoord s).getD 0)
        else mgtSend s (partOfPipe s pipe)
          { type := tFbArrive, dstCoord := b.root, dstEndpt := barrierEndpt, srcEndpt := barrierEndpt
            operand := fbOperand f b.phase }
      fbDeviceArrive fuel s pipe f

/-- FB_LOCAL_ARRIVAL (R190, R191): counted under the phase rule of R186. -/
def execFbLocalArrival (pipe n k f q : Nat) (s : State) : Host.Outcome State Fault Refusal :=
  .next (
    if !accepting s .col pipe then s
    else
    let s := deliver s (.fbArrive pipe n k f q)
    let b := fbar s pipe f
    if !b.enabled then send s (.notice n k f 0)
    else
      let d := (q + 4 - b.phase) % 4
      if d < 2 then
        let (cur, next) := countArrival q b.phase b.cur b.next
        fbDeviceArrive (cur + next + 1) (modFb s pipe f (fun b => { b with cur := cur, next := next })) pipe f
      else
        send (recErr s eColFbOverrun pipe (f % 256) ((ownCoord s).getD 0 % 32768) (slot s n k).ctag) (.notice n k f d))

/-- Has COL_FB_TIMEOUT, when it is not 0 and at least 1,000 µs, passed since the device arrival of a phase that awaits release (R193,
R197)? -/
def fbOverdue (s : State) (pipe f : Nat) : Bool :=
  let b := fbar s pipe f
  let t := (rget s .col pipe 0x70C).toNat
  b.enabled && decide (t ≠ 0) && b.await.any (fun q => decide (mgetD b.left q 0 + max 1000 t ≤ s.us))

/-- FB_TIMEOUT (R193). -/
def execFbTimeout (pipe f : Nat) (s : State) : Host.Outcome State Fault Refusal :=
  .next (if fbOverdue s pipe f then fbEnd s pipe f else s)

/-- COL_FB_CFG_WRITE (R183, R197): COL_FB_CFG_LO with the values that COL_FB_CFG_HI holds; ignored in a pipeline that is
no barrier pipeline. -/
def fbCfg (s : State) (pipe f : Nat) (w : Word) : State :=
  if !isBarrierPipe s pipe then s
  else
    let b := fbar s pipe f
    let hi := rget s .col pipe (0x804 + 8 * f)
    let n := min 17408 (fld w 14 0)
    let en := wbit w 15 && n ≠ 0
    if en && b.enabled && (b.cur ≠ 0 || b.next ≠ 0 || b.rcur ≠ 0 || b.rnext ≠ 0) then s
    else
      let s := rset s .col pipe (0x800 + 8 * f) (packFields [(0, n), (15, b2n en), (16, b2n (wbit w 16))])
      let b' : FabBar :=
        if en then { n := n, enabled := true, isRoot := wbit w 16, root := fld hi 15 0, devN := fld hi 31 16 }
        else { b with n := n, enabled := false, cur := 0, next := 0, rcur := 0, rnext := 0, await := [], left := [] }
      { s with fb := mput s.fb (256 * pipe + f) b' }

def execColFbCfgWrite (req : Req) (pipe f : Nat) (w : Word) (s : State) : Host.Outcome State Fault Refusal :=
  .next (guardWrite s req .col pipe (0x800 + 8 * f) (fun s => fbCfg s pipe f w))

/-! ### Barrier messages (R358) -/

/-- A barrier message for barrier f of the arrival partition: the packet, or none when it was discarded. -/
def fbMessage (s : State) (i part type : Nat) (data : List Byte) (tagOk : Bool) : State × Option (Arrival × Nat × Nat × Pkt) :=
  let a := arrival s i part
  match arriveCheck s a type data tagOk with
  | (s, none) => (s, none)
  | (s, some k) =>
    if k.dstEndpt ≠ barrierEndpt then (discardPkt s a, none)
    else (s, some (a, barrierPipe s a.part, bits k.operand 0 8, k))

/-- A message for a barrier that is not armed, or not root where a root is needed (R358). -/
def fbStray (s : State) (a : Arrival) (pipe f : Nat) : State := recErr (discardPkt s a) eColFbStray pipe (f % 256) 0 noCtag

/-- FB_ARRIVE (R358). -/
def execFbArrive (i part : Nat) (data : List Byte) (tagOk : Bool) (s : State) : Host.Outcome State Fault Refusal :=
  .next (match fbMessage s i part tFbArrive data tagOk with
    | (s, none) => s
    | (s, some (a, pipe, f, k)) =>
      if !(fbar s pipe f).enabled || !(fbar s pipe f).isRoot then fbStray s a pipe f
      else fbRootArrival s pipe f (bits k.operand 8 2) k.srcCoord)

/-- FB_RELEASE (R191, R358): ignored for a phase that does not await release; broadcast to the partition's cores; a copy
with FWD goes on to the receiver's own group of the same number. -/
def execFbRelease (i part : Nat) (data : List Byte) (tagOk : Bool) (s : State) : Host.Outcome State Fault Refusal :=
  .next (match fbMessage s i part tFbRelease data tagOk with
    | (s, none) => s
    | (s, some (a, pipe, f, k)) =>
      let r := bits k.operand 8 2
      if !(fbar s pipe f).enabled then fbStray s a pipe f
      else if !(fbar s pipe f).await.contains r then s
      else
        let s := modFb s pipe f (fun b => { b with await := b.await.erase r, left := mdel b.left r })
        let s := (s.cores.filter (fun e => coreEnabled s e.1 && partOfCore s e.1 = a.part)).foldl
          (fun s e => send s (.release e.1 true f r)) s
        if k.fwd then fbMulticast s pipe k.mcgroup k else s)

/-- FB_OVERRUN (R358). -/
def execFbOverrun (i part : Nat) (data : List Byte) (tagOk : Bool) (s : State) : Host.Outcome State Fault Refusal :=
  .next (match fbMessage s i part tFbOverrun data tagOk with
    | (s, none) => s
    | (s, some (a, pipe, f, _)) =>
      if !(fbar s pipe f).enabled then fbStray s a pipe f
      else recErr s eColFbOverrun pipe (f % 256) ((ownCoord s).getD 0 % 32768) noCtag)

end Sys2Proof.Machine
end

