-- ==== Sys2Proof/Machine/FabricCtl.lean ====
section
/-!
DEFINITION. Roll tables (R164, R343, R345, R364), peer commands (R360) and the peer messages RESET_NOTICE and
EPOCH_ANNOUNCE (R360, R361).
-/
namespace Sys2Proof.Machine

/-! ### Roll tables -/

/-- Change a partition's roll-table store. -/
def modRoll (s : State) (p : Nat) (f : RollStore → RollStore) : State := { s with roll := mupd s.roll p {} f }

/-- VARIANTS of a store. -/
def rollVariants (r : RollStore) : Nat := leAt r.data 4 2

/-- COL_ROLL_STATUS and COL_ROLL_SET_ID of a partition, with a RESULT (R364). -/
def showRoll (s : State) (p result : Nat) : State :=
  let pipe := barrierPipe s p
  let r := rollStore s p
  let loaded := !r.data.isEmpty
  let s := rset s .col pipe 0x214 (packFields [(0, b2n r.loading), (1, b2n loaded), (4, result), (8, r.variant),
    (12, b2n r.auto), (16, if loaded then rollVariants r else 0), (25, if loaded then leAt r.data 6 1 - 1 else 0)])
  rset s .col pipe 0x218 (wd (if loaded then leAt r.data 0 4 else 0))

/-- RESULT that COL_ROLL_STATUS holds. -/
def rollResult (s : State) (p : Nat) : Nat := fld (rget s .col (barrierPipe s p) 0x214) 7 4

/-- A plane of a partition has failed (R345): variant 0 gives way to the variant that excludes the plane, when loaded. -/
def planeFailed (s : State) (i : Nat) : State :=
  let p := partOfPipe s i
  let w := rget s .fab i 0x118
  let q := fld w 2 0
  let r := rollStore s p
  if (port s i).planeKnown && !r.data.isEmpty && r.variant = 0 && bit (rollVariants r) (q + 1) then
    let s := showRoll (modRoll s p (fun r => { r with variant := q + 1, auto := true })) p (rollResult s p)
    retryHeld (raiseInt (recErr s eColVariantSwap (barrierPipe s p) 0 q noCtag) .col (barrierPipe s p) 3) p
  else s

/-- PLANE_FAIL_TIMER (R345): the port has been DOWN, DISABLED or QUARANTINE for 1 ms. -/
def execPlaneFailTimer (i : Nat) (s : State) : Host.Outcome State Fault Refusal :=
  .next (if [0, 1, 9].contains (fabState s i) then planeFailed s i else s)

/-- Does an installed context of the partition hold ROLL_SET_ID ≠ 0 (R343)? -/
def rollInUse (s : State) (p : Nat) : Bool := (partSlots s p).any (fun e => hdRollSet (slot s e.1 e.2) ≠ 0)

/-- A write of COL_ROLL_CMD reaches a barrier pipeline and no LOAD is in progress (R363, R364). -/
def rollCmd (s : State) (req : Req) (pipe : Nat) (f : State → Nat → State) : State :=
  guardWrite s req .col pipe 0x210 (fun s =>
    let p := partOfPipe s pipe
    if !isBarrierPipe s pipe || (rollStore s p).loading then s else f s p)

/-- ROLL_LOAD (R343): the LOAD starts. -/
def execRollLoad (req : Req) (pipe : Nat) (s : State) : Host.Outcome State Fault Refusal :=
  .next (rollCmd s req pipe (fun s p => showRoll (modRoll s p (fun r => { r with loading := true })) p 0))

/-- Is a ROLL section well formed (R164, R343)? -/
def rollFormatOk (b : List Byte) : Bool :=
  let v := leAt b 4 2
  let t := leAt b 6 1
  bit v 0 && decide (v < 512) && leAt b 7 9 = 0 && decide (1 ≤ t) && decide (t ≤ 64) &&
  (List.range (popcount16 v * t * 256)).all (fun i => !bit (leAt b (16 + 2 * i) 2) 3)

/-- The LOAD reads the section at COL_ROLL_SRC: RESULT, and the section when OK (R343, R364). -/
def rollRead (s : State) (p : Nat) (ecc : Ecc) : State × Nat × List Byte :=
  let pipe := barrierPipe s p
  let d := addr48 (rget s .col pipe 0x208) (rget s .col pipe 0x20C)
  if !ownedRange s p d 16 then (s, 2, [])
  else match checkRead s d 16 ecc noCtag with
    | (s, some _) => (s, 4, [])
    | (s, none) =>
      let (s, h) := readData s d 16 noCtag
      let v := leAt h 4 2
      let t := leAt h 6 1
      if !bit v 0 || 512 ≤ v || t = 0 || 64 < t || leAt h 7 9 ≠ 0 then (s, 1, [])
      else
        let len := 16 + popcount16 v * t * 512
        if !ownedRange s p d len then (s, 2, [])
        else match checkRead s d len (eccBeyond ecc 1) noCtag with
          | (s, some _) => (s, 4, [])
          | (s, none) =>
            let (s, b) := readData s d len noCtag
            if !rollFormatOk b then (s, 1, [])
            else if !(rollStore s p).data.isEmpty && leAt (rollStore s p).data 0 4 ≠ leAt b 0 4 && rollInUse s p then (s, 3, [])
            else (s, 0, b)

/-- ROLL_LOAD_COMPLETE (R343, R345): the set is installed whole with variant 0 in force, or the LOAD fails with its
RESULT. -/
def execRollLoadComplete (pipe : Nat) (ecc : Ecc) (s : State) : Host.Outcome State Fault Refusal :=
  .next (
    let p := partOfPipe s pipe
    if !isBarrierPipe s pipe || !(rollStore s p).loading then s
    else match rollRead s p ecc with
      | (s, res, b) =>
        let s := modRoll s p (fun r => if res = 0 then { data := b, variant := 0, auto := false, loading := false }
          else { r with loading := false })
        let s := showRoll s p res
        let s := if res = 0 then s else recErr s eColRollLoadFail pipe 0 res noCtag
        retryHeld (raiseInt s .col pipe 4) p)

/-- ROLL_SELECT (R345): any loaded variant is put in force. -/
def execRollSelect (req : Req) (pipe variant : Nat) (s : State) : Host.Outcome State Fault Refusal :=
  .next (rollCmd s req pipe (fun s p =>
    if (rollStore s p).data.isEmpty || !bit (rollVariants (rollStore s p)) variant then showRoll s p 5
    else retryHeld (showRoll (modRoll s p (fun r => { r with variant := variant, auto := false })) p 0) p))

/-- ROLL_UNLOAD (R343). -/
def execRollUnload (req : Req) (pipe : Nat) (s : State) : Host.Outcome State Fault Refusal :=
  .next (rollCmd s req pipe (fun s p =>
    if (rollStore s p).data.isEmpty then showRoll s p 5
    else if rollInUse s p then showRoll s p 3
    else showRoll { s with roll := mdel s.roll p } p 0))

/-! ### Peers -/

/-- A write of COL_PEER_CMD reaches a barrier pipeline. -/
def peerCmd (s : State) (req : Req) (pipe : Nat) (f : State → Nat → State) : State :=
  guardWrite s req .col pipe 0x240 (fun s => if isBarrierPipe s pipe then f s (partOfPipe s pipe) else s)

/-- CLEAR of R360. -/
def peerClear (s : State) (p c : Nat) : State :=
  let e := peer s p c
  if e.state < 2 then s
  else if e.announced then
    modPeer s p c (fun e => { e with
      state := 1, prevEpoch := e.epoch, epoch := e.newEpoch, announced := false })
  else modPeer s p c (fun e => { e with state := 0 })

/-- PEER_CLEAR (R360). -/
def execPeerClear (req : Req) (pipe c : Nat) (s : State) : Host.Outcome State Fault Refusal :=
  .next (peerCmd s req pipe (fun s p => peerClear s p c))

/-- PEER_MARK_LOST (R360): a LIVE entry enters LOST. -/
def execPeerMarkLost (req : Req) (pipe c : Nat) (s : State) : Host.Outcome State Fault Refusal :=
  .next (peerCmd s req pipe (fun s p => if (peer s p c).state = 1 then peerDown s p c true else s))

/-- A peer message at the Carillon endpoint, for the entries of every partition (R332, R348, R360). -/
def peerMessage (s : State) (i part type : Nat) (data : List Byte) (tagOk : Bool) (f : State → Nat → Pkt → State) : State :=
  let a := arrival s i part
  match arriveCheck s a type data tagOk with
  | (s, none) => s
  | (s, some k) =>
    if k.dstEndpt ≠ carillonEndpt then discardPkt s a
    else (List.range (partCount s)).foldl (fun s p => f s p k) s

/-- RESET_NOTICE (R360): a LIVE entry enters RESET. -/
def execResetNotice (i part : Nat) (data : List Byte) (tagOk : Bool) (s : State) : Host.Outcome State Fault Refusal :=
  .next (peerMessage s i part tResetNotice data tagOk (fun s p k =>
    if (peer s p k.srcCoord).state = 1 then peerDown s p k.srcCoord false else s))

/-- EPOCH_ANNOUNCE on an entry (R360). -/
def epochAnnounce (s : State) (p : Nat) (k : Pkt) : State :=
  let c := k.srcCoord
  let s := if (peer s p c).state = 1 && (peer s p c).epoch = k.operand % 2 ^ 32 then peerDown s p c false else s
  let st := (peer s p c).state
  if 2 ≤ st then
    let s := modPeer s p c (fun e => { e with newEpoch := k.srcEpoch, announced := true })
    let pipe := barrierPipe s p
    raiseInt (rset s .col pipe 0x248 (packFields [(0, c), (16, st), (18, 1)])) .col pipe 2
  else s

/-- EPOCH_ANNOUNCE (R360). -/
def execEpochAnnounce (i part : Nat) (data : List Byte) (tagOk : Bool) (s : State) : Host.Outcome State Fault Refusal :=
  .next (peerMessage s i part tEpochAnnounce data tagOk epochAnnounce)

end Sys2Proof.Machine
end

