-- ==== Sys2Proof/Machine/PortState.lean ====
section
/-!
DEFINITION. States of a fabric port, its lane set and its optical engine's switch-on (R293, R301, R305, R315, R326, R328,
R329).
-/
namespace Sys2Proof.Machine

/-- Port states of FAB_STATE (R328). -/
def psDisabled : Nat := 0
def psDown : Nat := 1
def psTraining : Nat := 2
def psIdentify : Nat := 3
def psActive : Nat := 4
def psDegraded : Nat := 5
def psPaused : Nat := 6
def psRetrain : Nat := 7
def psStandby : Nat := 8
def psQuarantine : Nat := 9
def psRetired : Nat := 10

/-- REACH of a port; 5 to 7 act as 0 (R328). -/
def reach (s : State) (i : Nat) : Nat := let r := fld (rget s .fab i 0x104) 2 0; if 5 ≤ r then 0 else r

/-- Is a port optical (R293)? -/
def modeO (s : State) (i : Nat) : Bool := reach s i = 3 || reach s i = 4

/-- Masks of the 17 lanes: retired, temporarily excluded, usable. -/
def lanesRetired (s : State) (i : Nat) : Nat := (rget s .fab i 0x110).toNat % 2 ^ 17
def lanesTemp (s : State) (i : Nat) : Nat := (rget s .fab i 0x114).toNat % 2 ^ 17
def lanesUsable (s : State) (i : Nat) : Nat := 0x1FFFF ^^^ (lanesRetired s i ||| lanesTemp s i)

/-- The current lane set. -/
def laneSet (s : State) (i : Nat) : Nat := (rget s .fab i 0x10C).toNat % 2 ^ 17

/-- The lane set of the usable lanes: 16 lanes with the spare in place of one that is out, else the 8 lowest, else none
(R315). -/
def chooseSet (usable : Nat) : Nat :=
  let l := onesBelow usable 17
  if 16 ≤ l.length then maskOf (l.take 16) else if 8 ≤ l.length then maskOf (l.take 8) else 0

/-- FAB_LANE_STATUS of every lane follows the set, the retired and the excluded lanes (R328). -/
def showLanes (s : State) (i : Nat) : State :=
  let st := fabState s i
  (List.range 17).foldl (fun s n =>
    let a := 0x200 + 0x10 * n
    let v := if bit (lanesRetired s i) n then 3
      else if st < 2 || st = 10 || bit (lanesTemp s i) n then 0
      else if bit (laneSet s i) n then 1 else if 3 ≤ st then 2 else 0
    rset s .fab i a (setBit (setFld (rget s .fab i a) 1 0 v) 2 (bit (lanesTemp s i) n))) s

/-- LOCK of lanes. -/
def setLocks (s : State) (i mask : Nat) (on : Bool) : State :=
  (onesBelow mask 17).foldl (fun s n =>
    rset s .fab i (0x200 + 0x10 * n) (setBit (rget s .fab i (0x200 + 0x10 * n)) 4 on)) s

/-- Does a state carry the lane set's width? -/
def hasWidth (st : Nat) : Bool := st = 4 || st = 5 || st = 6 || st = 8

/-- A port enters a state with a REASON: FAB_STATE, whose CHOSEN is 0 until IDENTIFY is complete, and INT_STATUS.STATE_CHANGE when it is another state (R328). -/
def setFab (s : State) (i st reason : Nat) : State :=
  let old := fabState s i
  let n := popBelow (laneSet s i) 17
  let width := if !hasWidth st then 0 else if 16 ≤ n then 2 else if 8 ≤ n then 1 else 0
  let s := if !hasWidth st then modPort s i (fun x => { x with chosen := 0 }) else s
  let s := rset s .fab i 0x100 (packFields [(0, st), (4, width), (8, reason), (16, b2n (modeO s i)), (24, (port s i).chosen)])
  let s := showLanes s i
  if old = st then s else raiseInt s .fab i 1

/-- Unacknowledged flits and the credits are discarded; packets received whole stay (R304, R339). -/
def dropFlits (s : State) (i : Nat) : State :=
  modPort s i (fun x => { x with
    replay := [], resendFrom := none, txBytes := [], rxBytes := [], nakOut := false, failCount := 0, txFsn := 0, rxFsn := 0,
    rxAny := false, credReq := 0, credRsp := 0, credMgt := 0, retReq := 0, retRsp := 0, retMgt := 0, pauseOwn := false,
    pauseAcked := false, resumeSent := false, resumed := false, standbySent := false, heard := false, identLeft := 0
    ctl := [], seen := [], lastToken := 256, early := [] })

/-- FAB_PLANE loses VALID. -/
def dropPlane (s : State) (i : Nat) : State := rset s .fab i 0x118 (setBit (rget s .fab i 0x118) 7 false)

/-- Does OPT_LASER_MAP let a laser feed a group (R329)? -/
def laserMapped (s : State) (i l : Nat) : Bool :=
  (List.range 4).any (fun k => fld (rget s .opt i 0x108) (4 * k + 2) (4 * k) = l)

/-- Has a laser that feeds a group failed? -/
def engineFault (s : State) (i : Nat) : Bool :=
  (List.range 5).any (fun l => laserMapped s i l && (mgetD (mgetD s.engines i {}).lasers l (0, false)).1 = 3)

/-- OPT_STATE of the engine: 0 OFF, 1 WARMING, 2 ON, and 3 FAULT in place of both while a laser that feeds a group has failed (log
entry 66); the lasers that feed groups follow it, and a failed one stays FAILED. -/
def setEngine (s : State) (i st : Nat) : State :=
  let w := if st ≠ 0 && engineFault s i then 3 else st
  let s := rset s .opt i 0x100 (setBit (setFld (rget s .opt i 0x100) 1 0 w) 4 (!(mgetD s.engines i {}).probeFailed && decide (st ≠ 0)))
  { s with engines := mupd s.engines i {} (fun e => { e with
    lasers := (List.range 5).foldl (fun m l =>
      mupd m l (0, false) (fun x =>
        if x.1 = 3 then x else (if st = 0 then 0 else if laserMapped s i l then min st 2 else x.1, x.2))) e.lasers }) }

/-- The lasers of the lanes other than the lowest of the set go to standby bias, or return from it (R325). -/
def standbyLasers (s : State) (i : Nat) (on : Bool) : State :=
  if !modeO s i then s
  else
    let n := (onesBelow (laneSet s i) 17).headD 0
    let keep := fld (rget s .opt i 0x108) (4 * (n % 16 / 4) + 2) (4 * (n % 16 / 4))
    { s with engines := mupd s.engines i {} (fun e => { e with
      lasers := (List.range 5).foldl (fun m l =>
        if laserMapped s i l && l ≠ keep then
          mupd m l (0, false) (fun x => (if x.1 = (if on then 2 else 1) then (if on then 1 else 2) else x.1, x.2))
        else m) e.lasers }) }

/-- Any state to DISABLED: transmitters and lasers off, REASON set (R305). -/
def fabDisable (s : State) (i reason : Nat) : State :=
  let s := dropPlane (dropFlits s i) i
  setFab (setEngine (rset s .fab i 0x10C 0) i 0) i psDisabled reason

/-- DISABLED to DOWN: transmitters on, lasers to setpoint in O-mode (R305). -/
def fabEnable (s : State) (i : Nat) : State := setFab (if modeO s i then setEngine s i 1 else s) i psDown 0

/-- To DOWN: unacknowledged flits are discarded. -/
def fabDown (s : State) (i : Nat) : State := setFab (rset (dropPlane (dropFlits s i) i) .fab i 0x10C 0) i psDown 0

/-- RETIRED to DISABLED: retired and temporarily excluded lanes are cleared (R305). -/
def fabClear (s : State) (i : Nat) : State :=
  fabDisable (modPort (rset (rset s .fab i 0x110 0) .fab i 0x114 0) i (fun x => { x with retrainUs := [] })) i 0

/-- A chip reset sends a port to DOWN, and a RETIRED one to DISABLED with its lanes cleared, its record kept in the retention
log; the records of retired lanes of the other ports stay (R305, R326). -/
def portDown (s : State) (i : Nat) : State :=
  if fabState s i = 0 then s
  else if fabState s i = 10 then
    fabClear { s with retPorts := mput s.retPorts i (lanesRetired s i, fld (rget s .fab i 0x100) 11 8) } i
  else fabDown (rset s .fab i 0x114 0) i

/-- A port of a chip reset that has begun goes DOWN once no notice waits in it (R361, R467; log entry 45). -/
def portLeave (s : State) (i : Nat) : State :=
  if s.chipReset.isSome && !s.chipAtS2 && (port s i).txMgt.isEmpty && (port s i).txBytes.isEmpty then portDown s i else s

/-- A port as the dies are reset: DOWN at the latest now, a DISABLED one with REACH ≠ 0 too unless its retired record is kept, and
its engine is off until S6 (R326, R467). -/
def portReset (s : State) (i : Nat) : State :=
  let s := portDown s i
  let s := if fabState s i = 0 && reach s i ≠ 0 && (mget s.retPorts i).isNone then setFab s i psDown 0 else s
  modPort (setEngine s i 0) i (fun x => { x with txMgt := [], txRsp := [], txReq := [], rx := [] })

/-- The dies are reset: nothing waits in a port (R326, R467). -/
def portsReset (s : State) : State := (List.range 8).foldl portReset s

/-- Every port is DISABLED with a REASON: A3 and the power-fail sequence (R325, R495). -/
def portsOff (s : State) (reason : Nat) : State := (List.range 8).foldl (fun s i => fabDisable s i reason) s

end Sys2Proof.Machine
end

