-- ==== Sys2Proof/Machine/Mmu.lean ====
section
/-!
DEFINITION. Commands of the MMU: a walk (R239, R241), invalidations (R242, R266) and the posting of records (R252, R253).
-/
namespace Sys2Proof.Machine

/-! ### Walks -/

/-- A parity error in a TLB entry `x`, or in a walk-cache entry from 4,096 (R267): the entry is dropped and walked again, and a
second error in one entry within 10 ms retires it. -/
def tlbParity (s : State) (clu j x : Nat) : State :=
  let again := (cluster s clu).tlbErr.any (fun e => e.1 = x && within s 10001 e.2)
  recErr (modCluster s clu (fun c => { c with
    tlb := c.tlb.filter (fun e => e.ix ≠ x), wc := c.wc.filter (fun e => 4096 + e.2.2.2.2 ≠ x)
    tlbErr := (x, s.us) :: c.tlbErr
    tlbRetired := if again && !c.tlbRetired.contains x then x :: c.tlbRetired else c.tlbRetired })) eMmuTlbParity clu j x noCtag

/-- What the code finds in the last table entry that a walk reads, or the parity of the cached entry that serves it: the TLB's,
else the walk cache's (R217, R267). -/
def walkEcc (s : State) (clu p asid va acc j : Nat) (ctag : Word) (ecc : Ecc) : State :=
  let (lvl, t) := walkStart s clu asid va
  let a := walkLast s p va acc lvl t
  match ecc with
  | .memCorr _ => memCorr s a false
  | .memPermanent _ => memCorr s a true
  | .memUncorr _ => memUncorr s a ctag
  | .corr =>
    match (cluster s clu).tlb.find? (tlbServes s asid p va) with
    | some e => tlbParity s clu j e.ix
    | none => match wcHit s clu asid va with
      | some e => tlbParity s clu j (4096 + e.2.2.2.2)
      | none => s
  | _ => s

/-- The granule that a walk command finds uncorrectable. -/
def walkFresh (s : State) (clu p asid va acc : Nat) (ecc : Ecc) : Option Nat :=
  match ecc with
  | .memUncorr _ =>
    let (lvl, t) := walkStart s clu asid va
    some (walkLast s p va acc lvl t / 64)
  | _ => none

/-- MMU_WALK (R239): the walk for an access of a slot's context; its result is the DPA, or the fault type. A quiesced MMU
starts none (R57). -/
def execMmuWalk (n k va acc : Nat) (ecc : Ecc) (s : State) : Host.Outcome State Fault Refusal :=
  let clu := coreClu n
  let p := partOfCore s n
  let asid := slotAsid s n k
  let ctag := (slot s n k).ctag
  .next (
    if !accepting s .mmu clu then s
    else match mmuWalk (walkEcc s clu p asid va acc (coreJ n) ctag ecc) clu p asid va acc (coreJ n) ctag
        (walkFresh s clu p asid va acc ecc) with
      | (s, .ok d) => modCluster s clu (fun c => { c with lastWalk := some (d, true) })
      | (s, .fault i) => modCluster s clu (fun c => { c with lastWalk := some (i.type, false) }))

/-! ### Records -/

/-- Raise a queue's vector in the owner function's table (R283, R284); an undeliverable one goes to the Carillon (R68). -/
def queueVector (s : State) (clu vec : Nat) : State :=
  let f := queueFunc s clu
  if msixOk s f vec then msixSend s f vec
  else
    let pg := page .clu clu
    recErr (emit s (.carillonInt pg)) eIntRouteBad 0 0 (pg / 4096) noCtag

/-- Host address of an entry of a queue: base registers at `off`, entry `i`, size of an entry. -/
def queueAddr (s : State) (clu off log2 i len : Nat) : Nat :=
  (rget s .clu clu (off + 4)).toNat * 2 ^ 32 + (fld (rget s .clu clu off) 31 12) * 4096 + (i % 2 ^ log2) * len

/-- LOG2SIZE and VECTOR of the fault queue. -/
def fqLog (s : State) (clu : Nat) : Nat := fld (rget s .clu clu 0xA08) 3 0
def fqVector (s : State) (clu : Nat) : Nat := fld (rget s .clu clu 0xA08) 26 16

/-- The records of an MMU that wait outside the posting buffer, each with the core and stream that hold it (R253). -/
def outsideRecs (s : State) (clu : Nat) : List (Option (Nat × Nat) × List Byte) :=
  (cluster s clu).waitRecs.map (fun r => (none, r)) ++
  (s.cores.filter (fun e => coreClu e.1 = clu)).flatMap (fun e =>
    e.2.streams.filterMap (fun x => x.2.heldRec.map (fun r => (some (e.1, x.1), r))))

/-- Every record of an MMU that is not posted: those of the buffer, and those that wait outside it. -/
def heldRecs (s : State) (clu : Nat) : List (List Byte) := (cluster s clu).holdBuf ++ (outsideRecs s clu).map (·.2)

/-- How many records of the MMU have come since one was numbered. -/
def recAge (s : State) (clu : Nat) (r : List Byte) : Nat := ((cluster s clu).seq + 2 ^ 32 - leAt r 0x38 4) % 2 ^ 32

/-- The oldest record that waits outside the buffer takes a place in it (R253). -/
def refillBuf (s : State) (clu : Nat) : State :=
  let l := outsideRecs s clu
  match l.find? (fun x => l.all (fun y => recAge s clu y.2 ≤ recAge s clu x.2)) with
  | none => s
  | some (h, r) =>
    let s := modCluster s clu (fun c => { c with holdBuf := c.holdBuf ++ [r] })
    match h with
    | some (n, ph) => modStream s n ph (fun x => { x with heldRec := none })
    | none => modCluster s clu (fun c => { c with waitRecs := c.waitRecs.erase r })

/-- The oldest held record goes to the fault queue when it has room; the oldest one that waits outside the buffer then takes a
place in it, so that records are posted in SEQ order (R253). -/
def postOldest (clu : Nat) (s : State) : State :=
  match (cluster s clu).holdBuf with
    | [] => s
    | r :: rest =>
      if fqFull s clu || !queueBus s clu || (cluster s clu).fqError then s
      else
        let c := cluster s clu
        let was := fqCount c
        let s := emit (moveBytes s (clu / 16) 0 64)
          (.hostWrite (queueFunc s clu) (queueAddr s clu 0xA00 (fqLog s clu) c.fqTail 64) r)
        let s := modCluster s clu (fun c => { c with holdBuf := rest, fqTail := (c.fqTail + 1) % 65536 })
        refillBuf (if was = 0 then queueVector s clu (fqVector s clu) else s) clu

/-- FAULT_RECORD_POST (R252, R253, R284). -/
def execFaultRecordPost (clu : Nat) (s : State) : Host.Outcome State Fault Refusal := .next (postOldest clu s)

/-! ### Invalidation (R242) -/

/-- Is a cached translation in the scope of an invalidation? -/
def invHits (o : InvOp) (e : TlbEnt) : Bool :=
  if o.op = 1 then decide (e.asid = o.asid) && decide (e.va < o.hi) && decide (o.lo < e.va + e.size)
  else if o.op = 2 then decide (e.asid = o.asid)
  else o.op = 3

/-- Bytes of VA that the table of a walk-cache entry covers, by its level. -/
def wcSpan (lvl : Nat) : Nat := if lvl = 0 then 2 ^ 21 else if lvl = 1 then 2 ^ 30 else 2 ^ 39

/-- Is a walk-cache entry in scope? -/
def invHitsWc (o : InvOp) (e : Nat × Nat × Nat × Nat × Nat) : Bool :=
  if o.op = 1 then
    decide (e.1 = o.asid) && decide (e.2.2.1 * wcSpan e.2.1 < o.hi) && decide (o.lo < (e.2.2.1 + 1) * wcSpan e.2.1)
  else if o.op = 2 then decide (e.1 = o.asid)
  else o.op = 3

/-- Remove what an invalidation covers from an MMU and the micro-TLBs of its cluster. -/
def invDrop (s : State) (o : InvOp) (clu : Nat) : State :=
  let s := modCluster s clu (fun c => { c with
    tlb := c.tlb.filter (fun e => !invHits o e), wc := c.wc.filter (fun e => !invHitsWc o e) })
  { s with cores := s.cores.map (fun e =>
      if coreClu e.1 = clu then (e.1, { e.2 with utlb := e.2.utlb.filter (fun t => !invHits o t) }) else e) }

/-- The MMUs that an invalidation covers: this one, or every one of the partition. -/
def invScope (s : State) (clu : Nat) (o : InvOp) : List Nat := if o.scope then partClus s (partOfClu s clu) else [clu]

/-- The VA ranges of the TLB and micro-TLB entries of a cluster that an invalidation removes. -/
def invRanges (s : State) (o : InvOp) (clu : Nat) : List (Nat × Nat) :=
  (((cluster s clu).tlb ++ (s.cores.filter (fun e => coreClu e.1 = clu)).flatMap (fun e => e.2.utlb)).filter (invHits o)).map
    (fun e => (e.va, e.size))

/-- A write of MMU_INV_CMD with an OP (R242, R266); a quiesced MMU takes none (R57). -/
def invStart (s : State) (req : Req) (clu op : Nat) (w : Word) : State :=
  guardWrite s req .mmu clu 0x100 (fun s =>
    if (cluster s clu).inv.isSome then recErr s eMmuInvOverlap clu 0xFF 0 noCtag
    else if !accepting s .mmu clu then s
    else
      let lo := (fld (rget s .mmu clu 0x104) 31 16) * 65536 + (fld (rget s .mmu clu 0x108) 15 0) * 2 ^ 32
      let o : InvOp :=
        { op := op, asid := fld w 7 0, lo := lo, hi := lo + 65536 * max 1 (rget s .mmu clu 0x10C).toNat, key := fld w 21 16
          scope := wbit w 11, startUs := s.us }
      let o := { o with removed := (invScope s clu o).flatMap (invRanges s o) }
      let s := (invScope s clu o).foldl (fun s c => invDrop s o c) s
      let s := modCluster s clu (fun c => { c with inv := some o })
      rset s .mmu clu 0x110 1)

/-- MMU_INV_VA_RANGE, MMU_INV_ASID, MMU_INV_ALL, MMU_INV_KEY: OP 1 to 4 of MMU_INV_CMD. -/
def execMmuInvVaRange (req : Req) (clu : Nat) (w : Word) (s : State) : Host.Outcome State Fault Refusal :=
  .next (invStart s req clu 1 w)
def execMmuInvAsid (req : Req) (clu : Nat) (w : Word) (s : State) : Host.Outcome State Fault Refusal :=
  .next (invStart s req clu 2 w)
def execMmuInvAll (req : Req) (clu : Nat) (w : Word) (s : State) : Host.Outcome State Fault Refusal :=
  .next (invStart s req clu 3 w)
def execMmuInvKey (req : Req) (clu : Nat) (w : Word) (s : State) : Host.Outcome State Fault Refusal :=
  .next (invStart s req clu 4 w)

/-- The VA ranges of a descriptor's accesses that are still outstanding: its reads, and the local side of each packet
that is not yet answered, in space VA or in the image at rudiment VA `rud` (R242). -/
def outstandingVas (rud : Nat) (d : ActDesc) : List (Nat × Nat) :=
  d.reads.flatMap (·.vas) ++
  (if d.pkts.isEmpty || dKind d.record = 8 then []
    else
      let r := d.record
      let sp := if dKind r = 7 then dSpB r else dSpA r
      let base := if dKind r = 7 then dB r else dA r
      if sp = 1 then []
      else d.pkts.map (fun p => (base + p.off + if sp = 2 then rud else 0, if dKind r = 9 then 8 else p.len)))

/-- Does an access lie in the range of an invalidation or of an entry that it removed? -/
def invTouches (o : InvOp) (a : Nat × Nat) : Bool :=
  (decide (a.1 < o.hi) && decide (o.lo < a.1 + a.2)) ||
    o.removed.any (fun e => decide (a.1 < e.1 + e.2) && decide (e.1 < a.1 + a.2))

/-- Do accesses that a removed entry translated remain on a core: outstanding reads and fabric requests of the contexts
in scope (R242)? -/
def invOutstanding (s : State) (o : InvOp) (clu : Nat) : Bool :=
  (s.cores.filter (fun e => coreClu e.1 = clu)).any (fun e =>
    (busySlots s e.1).any (fun k =>
      (o.op = 3 || ((o.op = 1 || o.op = 2) && slotAsid s e.1 k = o.asid)) &&
      (slot s e.1 k).streams.any (fun ph =>
        (stream s e.1 ph).descs.any (fun d => (outstandingVas (slot s e.1 k).rud d).any (fun a => o.op ≠ 1 || invTouches o a)))))

/-- Do packets that an ordered stream holds remain of a key (R266)? -/
def keyOutstanding (s : State) (o : InvOp) (clu : Nat) : Bool :=
  o.op = 4 && (s.cores.filter (fun e => coreClu e.1 = clu)).any (fun e =>
    e.2.rx.any (fun x => x.2.held.any (fun h => leAt h.2.1 0x2C 4 % 64 = o.key)))

/-- MMU_INV_COMPLETE (R242). -/
def execMmuInvComplete (clu : Nat) (s : State) : Host.Outcome State Fault Refusal :=
  .next (match (cluster s clu).inv with
    | none => s
    | some o =>
      if (invScope s clu o).any (fun c => invOutstanding s o c || keyOutstanding s o c) then s
      else rset (modCluster s clu (fun c => { c with inv := none })) .mmu clu 0x110 0)

/-- MMU_INV_TIMEOUT (R242): 10 ms have passed; it is recorded, and the invalidation continues. -/
def execMmuInvTimeout (clu : Nat) (s : State) : Host.Outcome State Fault Refusal :=
  .next (match (cluster s clu).inv with
    | none => s
    | some o =>
      if wbit (rget s .mmu clu 0x110) 1 || s.us < o.startUs + 10000 then s
      else recErr (rset s .mmu clu 0x110 (rget s .mmu clu 0x110 ||| 2)) eMmuInvTimeout clu 0xFF o.op noCtag)

end Sys2Proof.Machine
end

