-- ==== Sys2Proof/Machine/Queues.lean ====
section
/-!
DEFINITION. Submission rings, completion queues and the fault queue in host memory (R277 to R286).
-/
namespace Sys2Proof.Machine

/-! ### Rings -/

def ring (s : State) (clu i : Nat) : Ring := mgetD (cluster s clu).rings i Ring.init
def modRing (s : State) (clu i : Nat) (f : Ring → Ring) : State :=
  modCluster s clu (fun c => { c with rings := mupd c.rings i Ring.init f })
def cq (s : State) (clu j : Nat) : CompQ := mgetD (cluster s clu).cqs j CompQ.init
def modCq (s : State) (clu j : Nat) (f : CompQ → CompQ) : State :=
  modCluster s clu (fun c => { c with cqs := mupd c.cqs j CompQ.init f })

/-- Configuration words of ring i and completion queue j (R290). -/
def srCfg (s : State) (clu i : Nat) : Word := rget s .clu clu (0x808 + 0x40 * i)
def cqCfg (s : State) (clu j : Nat) : Word := rget s .clu clu (0x908 + 0x40 * j)

/-- Entries that a ring holds: published and not fetched (R278). -/
def ringCount (r : Ring) : Nat := (r.prod + 65536 - r.head) % 65536

/-- SR_DOORBELL (R278). -/
def execSrDoorbell (req : Req) (clu i : Nat) (w : Word) (s : State) : Host.Outcome State Fault Refusal :=
  .next (guardWrite s req .clu clu (0x810 + 0x40 * i) (fun s =>
    let r := ring s clu i
    let new := fld w 15 0
    let cnt := (new + 65536 - r.head) % 65536
    if 2 ^ fld (srCfg s clu i) 3 0 < cnt || cnt < ringCount r then recErr s eSrDoorbellBad clu i 0 noCtag
    else modRing s clu i (fun r => { r with prod := new })))

/-- SR_FETCH (R278, R281): the host's answer to the fetch of the next published entries, at most 16 ahead of dispatch; entry
number i is read at position i mod 2^LOG2SIZE. -/
def execSrFetch (clu i : Nat) (data : List Byte) (s : State) : Host.Outcome State Fault Refusal :=
  .next (
    let r := ring s clu i
    let m := data.length / 64
    if !r.enabled || !accepting s .clu clu || s.chipReset.isSome || (mget s.partReset (partOfClu s clu)).isSome || !queueBus s clu || m = 0 || ringCount r < m || 16 < r.fetched.length + m then s
    else
      let log := fld (srCfg s clu i) 3 0
      let s := (List.range m).foldl (fun s x =>
        emit s (.hostRead (queueFunc s clu) (queueAddr s clu (0x800 + 0x40 * i) log (r.head + x) 64) 64)) s
      let s := moveBytes s 0 (clu / 16) (64 * m)
      modRing s clu i (fun r => { r with
        head := (r.head + m) % 65536
        fetched := r.fetched ++ (List.range m).map (fun x => ⟨(r.head + x) % 65536, slice data (64 * x) 64⟩) }))

/-! ### Dispatch (R279 to R281) -/

def seOp (b : List Byte) : Nat := leAt b 0 1
def seFlags (b : List Byte) : Nat := leAt b 1 1
def seCore (b : List Byte) : Nat := bits (leAt b 2 2) 0 5
def seSlot (b : List Byte) : Nat := bits (leAt b 2 2) 5 4
def seCtag (b : List Byte) : Nat := leAt b 4 4
def seUser (b : List Byte) : Nat := leAt b 8 8

/-- Core n of a submission entry's logical core (R20, R279). -/
def seTarget (s : State) (clu : Nat) (b : List Byte) : Option Nat := ((cluster s clu).map[seCore b]?).map (coreOf clu)

/-- Is an entry valid: an assigned OP, reserved fields 0, a logical core that exists (R279, R280)? -/
def seValid (s : State) (clu : Nat) (b : List Byte) : Bool :=
  decide (seOp b ≤ 7) && bits (seFlags b) 3 5 = 0 && bits (leAt b 2 2) 9 7 = 0 && leAt b 0x30 16 = 0 &&
  (seOp b = 1 || leAt b 0x10 32 = 0) && (seTarget s clu b).isSome

/-- The completion of an entry that reaches no SQ. -/
def seDone (s : State) (clu i : Nat) (e : SubEnt) (ctag res : Nat) : State :=
  ringDone s clu i e.num (complEntry (seUser e.data) ctag res (seOp e.data) i (seSlot e.data) (seCore e.data))

/-- CTX_RESET of a ring (R280, R463): the context or its group is to be ended; the entry completes when it is, and BUSY is 1
until then (R281). -/
def seCtxReset (s : State) (clu i n : Nat) (e : SubEnt) : State :=
  let k := seSlot e.data
  if (slot s n k).st = .free then seDone s clu i e (slot s n k).ctag.toNat resNoTask
  else
    let p := partOfCore s n
    let g := slotGroup s n k
    let whole := bit (seFlags e.data) 2
    let members := if whole then (partSlots s p).filter (fun u => slotGroup s u.1 u.2 = g) else [(n, k)]
    let s := if whole then endGroup s p g 3 0 else endCtx s n k 3 0 3
    sqBusy { s with ctxResets := s.ctxResets ++
        [⟨clu, i, seUser e.data, e.num, n, k, (slot s n k).ctag.toNat, members⟩] } n k

/-- INSTALL of a submission entry: the eight slot registers and the command as one action (R280). -/
def installEntry (s : State) (n k i : Nat) (b : List Byte) : State :=
  let s := if (slot s n k).st = .free && !(slot s n k).restoring then
      (List.range 8).foldl (fun s j => rset s .sq n (0x408 + 4 * j + 0x40 * k) (wd (leAt b (0x10 + 4 * j) 4) &&& (regRow .sq (0x408 + 4 * j)).elim 0 (·.mask))) s
    else s
  installCmd s n k (if bit (seFlags b) 1 then some (i, seUser b) else none)

/-- Perform a dispatched entry (R280, R281). -/
def sePerform (s : State) (clu i : Nat) (e : SubEnt) : State :=
  let b := e.data
  let op := seOp b
  let k := seSlot b
  if !seValid s clu b then
    seDone s clu i e (if op = 1 then 0xFFFFFFFF else match seTarget s clu b with
      | some n => (slot s n k).ctag.toNat
      | none => 0xFFFFFFFF) resInvalid
  else match seTarget s clu b with
  | none => s
  | some n =>
    let ctag := (slot s n k).ctag.toNat
    if op = 0 then seDone s clu i e ctag resOk
    else if op ≠ 1 && seCtag b ≠ 0 && seCtag b ≠ ctag then seDone s clu i e ctag (if op = 3 then resNotFaulted else 9)
    else if op = 7 then seCtxReset s clu i n e
    else
      let s := modCore s n (fun c => { c with ringCmd := some (i, seUser b, op, e.num) })
      if op = 1 then
        if (slot s n k).ending.isSome && !frozen s then
          sqBusy (modCore s n (fun c => { c with heldCmd := some (1, k, b) })) n k
        else installEntry s n k i b
      else sqPerform s n k op

/-- The entry that a ring would dispatch next, when nothing holds it (R281, R283). -/
def ringNext (s : State) (clu i : Nat) : Option SubEnt :=
  let r := ring s clu i
  match r.fetched with
  | [] => none
  | e :: _ =>
    let busy := match seTarget s clu e.data with
      | some n => (core s n).busy
      | none => false
    if !r.enabled || !accepting s .clu clu || s.chipReset.isSome || (mget s.partReset (partOfClu s clu)).isSome || busy || (bit (seFlags e.data) 0 && !r.inProgress.isEmpty) || cqStops s clu (ringCq s clu i)
    then none else some e

/-- Dispatch the next entry of a ring when it is one of the command's. -/
def ringDispatch (s : State) (clu i : Nat) (want : List Byte → Bool) : State :=
  match ringNext s clu i with
  | none => s
  | some e =>
    if want e.data then
      sePerform (modRing (leaveA1 s) clu i (fun r => { r with fetched := r.fetched.drop 1, inProgress := r.inProgress ++ [e.num] })) clu i e
    else s

/-- RING_DISPATCH (R281): the next entry, whatever its command. -/
def execRingDispatch (clu i : Nat) (s : State) : Host.Outcome State Fault Refusal :=
  .next (ringDispatch s clu i (fun _ => true))

/-- RING_NOP (R280). -/
def execRingNop (clu i : Nat) (s : State) : Host.Outcome State Fault Refusal :=
  .next (ringDispatch s clu i (fun b => seValid s clu b && seOp b = 0))

/-- RING_INSTALL (R280). -/
def execRingInstall (clu i : Nat) (s : State) : Host.Outcome State Fault Refusal :=
  .next (ringDispatch s clu i (fun b => seValid s clu b && seOp b = 1))

/-- RING_CTX_RESET (R280). -/
def execRingCtxReset (clu i : Nat) (s : State) : Host.Outcome State Fault Refusal :=
  .next (ringDispatch s clu i (fun b => seValid s clu b && seOp b = 7))

/-- RING_INVALID (R280): an unassigned OP or a non-zero reserved field. -/
def execRingInvalid (clu i : Nat) (s : State) : Host.Outcome State Fault Refusal :=
  .next (ringDispatch s clu i (fun b => !seValid s clu b))

/-! ### Completion queues -/

def cqTimer (s : State) (clu j : Nat) : Nat := fld (rget s .clu clu (0x914 + 0x40 * j)) 23 8
def cqThreshold (s : State) (clu j : Nat) : Nat := max 1 (fld (rget s .clu clu (0x914 + 0x40 * j)) 7 0)

/-- The queue's vector is raised: nothing is unsignalled then. -/
def cqSignal (s : State) (clu j : Nat) : State :=
  queueVector (modCq s clu j (fun q => { q with timer := none })) clu (fld (cqCfg s clu j) 26 16)

/-- CQ_POST (R282, R283): the oldest held entry is written when there is room, with PHASE 1 on the first pass and inverted
on each wrap; the vector is raised when the unconsumed entries reach COUNT. -/
def execCqPost (clu j : Nat) (s : State) : Host.Outcome State Fault Refusal :=
  .next (
    let q := cq s clu j
    let log := fld (cqCfg s clu j) 3 0
    match q.held with
    | [] => s
    | e :: rest =>
      if !q.enabled || !queueBus s clu || 2 ^ log ≤ cqCount q then s
      else
        let phase := if (q.tail / 2 ^ log) % 2 = 0 then 1 else 0
        let entry := e.take 14 ++ leBytes (leAt e 14 2 ||| phase) 2
        let s := emit s (.hostWrite (queueFunc s clu) (queueAddr s clu (0x900 + 0x40 * j) log q.tail 16) entry)
        let s := moveBytes s (clu / 16) 0 16
        let tmr := cqTimer s clu j
        let s := modCq s clu j (fun q => { q with
          held := rest, tail := (q.tail + 1) % 65536
          timer := if tmr ≠ 0 && q.timer.isNone then some s.us else q.timer })
        if cqCount (cq s clu j) = cqThreshold s clu j then cqSignal s clu j else s)

/-- CQ_TIMER_EXPIRY (R283): TIMER_US has passed since the first unsignalled entry. -/
def execCqTimerExpiry (clu j : Nat) (s : State) : Host.Outcome State Fault Refusal :=
  .next (match (cq s clu j).timer with
    | some t => if cqTimer s clu j ≠ 0 && decide (t + cqTimer s clu j ≤ s.us) then cqSignal s clu j else s
    | none => s)

/-- CLU_CQ_HEAD_WRITE (R283): room for held entries; a message again when COUNT is still reached. -/
def execCluCqHeadWrite (req : Req) (clu j : Nat) (w : Word) (s : State) : Host.Outcome State Fault Refusal :=
  .next (guardWrite s req .clu clu (0x910 + 0x40 * j) (fun s =>
    let s := modCq s clu j (fun q => { q with head := fld w 15 0 })
    if cqThreshold s clu j ≤ cqCount (cq s clu j) then cqSignal s clu j else s))

/-- CLU_FQ_HEAD_WRITE (R284). -/
def execCluFqHeadWrite (req : Req) (clu : Nat) (w : Word) (s : State) : Host.Outcome State Fault Refusal :=
  .next (guardWrite s req .clu clu 0xA10 (fun s =>
    let s := modCluster s clu (fun c => { c with fqHead := fld w 15 0 })
    if fqCount (cluster s clu) ≠ 0 then queueVector s clu (fqVector s clu) else s))

/-! ### Errors and enables (R285, R290) -/

/-- A queue number: 0 to 3 rings, 4 to 7 completion queues, 8 the fault queue (R292). A fetch or a write of it fails: ENABLE
is cleared and ERROR set. -/
def queueError (s : State) (clu q : Nat) : State :=
  let off := if q < 4 then 0x808 + 0x40 * q else if q < 8 then 0x908 + 0x40 * (q - 4) else 0xA08
  let s := rset s .clu clu off (setBit (rget s .clu clu off) (if q < 4 then 16 else 8) false)
  let s :=
    if q < 4 then modRing s clu q (fun r => { r with enabled := false, error := true })
    else if q < 8 then modCq s clu (q - 4) (fun c => { c with enabled := false, error := true })
    else modCluster s clu (fun c => { c with fqEnabled := false, fqError := true })
  recErr s eQDmaError clu q 0 noCtag

/-- Q_DMA_ERROR and Q_DMA_TIMEOUT (R285). -/
def execQDmaError (clu q : Nat) (s : State) : Host.Outcome State Fault Refusal := .next (queueError s clu q)
def execQDmaTimeout (clu q : Nat) (s : State) : Host.Outcome State Fault Refusal := .next (queueError s clu q)

/-- A write of a queue's CFG register (R285, R290): while ENABLE = 1 a write of a ring's changes only ENABLE. -/
def queueCfg (s : State) (clu q : Nat) (w : Word) : State :=
  let off := if q < 4 then 0x808 + 0x40 * q else if q < 8 then 0x908 + 0x40 * (q - 4) else 0xA08
  let eb := if q < 4 then 16 else 8
  let old := rget s .clu clu off
  let en := wbit w eb
  let v := setBit (if q < 4 && wbit old eb then old else setFld (w &&& (if q < 4 then 0x1030F else 0x07FF010F)) 3 0
    (clamp 4 12 (fld w 3 0))) eb en
  let s := rset s .clu clu off v
  if q < 4 then modRing s clu q (fun r => { r with enabled := en, error := r.error && !en })
  else if q < 8 then modCq s clu (q - 4) (fun c => { c with enabled := en, error := c.error && !en })
  else modCluster s clu (fun c => { c with fqEnabled := en, fqError := c.fqError && !en })

/-- QUEUE_ENABLE (R285). -/
def execQueueEnable (req : Req) (clu q : Nat) (w : Word) (s : State) : Host.Outcome State Fault Refusal :=
  .next (guardWrite s req .clu clu (if q < 4 then 0x808 + 0x40 * q else if q < 8 then 0x908 + 0x40 * (q - 4) else 0xA08)
    (fun s => queueCfg s clu q w))

end Sys2Proof.Machine
end

