-- ==== Sys2Proof/Machine/Tick.lean ====
section
/-!
DEFINITION. One microsecond of the package while no command waits (log entry 1): Carillon time, the cluster cycle
counters and the idle timers of the slots advance (R456, R504, R527). Everything else that time brings about is a
command of the table.
-/
namespace Sys2Proof.Machine

/-- Is a region of the partition, or a stack whose region it owns, at its hard limit (R506)? -/
def hardLimited (s : State) (p : Nat) : Bool :=
  (partClus s p).any (fun c => (site s c).hard || (List.range 4).any (fun q => (site s (64 + 4 * (c / 16) + q)).hard)) ||
  (List.range 16).any (fun k => wbit (rget s .thm 0 0x110) (16 + k) && partOfRegion s (k / 2) = p)

/-- Is hang supervision suspended for the slots of a partition: an alarm at FREEZE or ERASE holds, HNG_CTRL.ENABLE is 0,
a reset of the partition or the chip runs (R459), or a hard limit holds (R506)? -/
def hangSuspended (s : State) (p : Nat) : Bool :=
  s.chipReset.isSome || (mget s.partReset p).isSome || !wbit (rget s .hng 0 0x100) 0 || frozen s ||
  hardLimited s p

/-- The idle timer of a slot runs while it is ACTIVE or WAITING (R456). -/
def tickSlot (s : State) (n : Nat) (sl : Slot) : Slot :=
  if (sl.st = .active || sl.st = .waiting) && !hangSuspended s (partOfCore s n) then { sl with idleUs := sl.idleUs + 1 } else sl

/-- One microsecond passes. -/
def tick (s : State) : State :=
  { s with
    us := s.us + 1
    clusters := (List.range 64).foldl (fun m c => mupd m c Cluster.init
      (fun x => { x with cycles := (x.cycles + (if clusterStopped s c then 0 else if clusterHalf s c then 1100 else 2200)) % 2 ^ 64 })) s.clusters
    cores := s.cores.map (fun e => (e.1, { e.2 with slots := e.2.slots.map (fun x => (x.1, tickSlot s e.1 x.2)) })) }

end Sys2Proof.Machine
end

