-- ==== Sys2Proof/Machine/Recover.lean ====
section
/-!
DEFINITION. Hang events, context, engine, partition and chip resets and their escalation (R455 to R476).
-/
namespace Sys2Proof.Machine

/-- HNG_LAST_RESET (R486): domain 1 context, 2 engine, 3 partition, 4 chip; CAUSE of R460; partition mask. -/
def lastReset (s : State) (domain cause mask : Nat) : State :=
  rset s .hng 0 0x168 (packFields [(0, domain), (8, cause), (16, mask)])

/-! ### Context reset (R463, R464) -/

/-- The TE abandons a running write-back of the slot: the bytes it replaced come back (R86, R463). -/
def teAbandon (s : State) (n k : Nat) : State :=
  ((core s n).teRun.filter (fun x => x.slot = k)).foldl (fun s (x : TeRun) =>
    x.undo.foldl (fun s u => { s with mem := memPut s.mem u.1 u.2 }) s) s

/-- Orphans of a slot: the fabric requests that were sent and await an answer (R464). -/
def slotOrphans (s : State) (n k : Nat) : List Orphan :=
  (slot s n k).streams.zipIdx.flatMap (fun (ph, i) =>
    (stream s n ph).descs.flatMap (fun d =>
      (d.pkts.filter (fun p => !p.resend && !p.held)).map (fun p => ⟨k, i, p.fseq, p.firstUs⟩)))

/-- The suspect engine and CAUSE of a hang or reset record (R457): the lowest-numbered engine with outstanding work that
does not wait, with BUSY; 0xFF with WAIT when every one waits. -/
def suspect (s : State) (n k : Nat) : Nat × Nat :=
  if sqOutstanding s n k && !sqWaiting s n k then (0, 1)
  else if teOutstanding s n k then (1, 1)
  else if veOutstanding s n k && !veWaiting s n k then (2, 1)
  else if xeOutstanding s n k then (3, 1)
  else (0xFF, 2)

/-- A CTX_RESET of a ring completes when the last of its contexts has ended (R280). -/
def settleCtxResets (s : State) (n k : Nat) : State :=
  let s := { s with ctxResets := s.ctxResets.map (fun (c : CtxReset) => { c with waiting := c.waiting.filter (· ≠ (n, k)) }) }
  let ready := s.ctxResets.filter (fun c => c.waiting.isEmpty)
  let s := { s with ctxResets := s.ctxResets.filter (fun c => !c.waiting.isEmpty) }
  ready.foldl (fun s (c : CtxReset) =>
    ringDone (sqResult s c.core c.slot resOk) c.clu c.ring c.num
      (complEntry c.user c.ctag resOk 7 c.ring c.slot (logicalOf s c.clu (coreJ c.core)))) s

/-- The command that the reset of its slot has held meets the slot as it stands (R463, R476). -/
def releaseHeld (s : State) (n k : Nat) : State :=
  match (core s n).heldCmd with
  | some (op, k', b) =>
    if k' ≠ k then s
    else
      let s := modCore s n (fun c => { c with heldCmd := none })
      if op = 3 then sqResult s n k resNoTask
      else if b.isEmpty then sqPerform s n k op
      else installEntry s n k (((core s n).ringCmd.map (·.1)).getD 0) b
  | none => s

/-- Steps 3 to 5 of R463 for one slot, with the reset record of R460 in its domain: 0 context, 1 group, 2 + e engine. -/
def finishReset (s : State) (n k domain cause err outcome : Nat) : State :=
  if (slot s n k).st = .free then s
  else
    let s := teAbandon s n k
    let s := modCore s n (fun c => { c with orphans := c.orphans ++ slotOrphans s n k })
    let s :=
      if domain ≤ 1 && cause = 3 then s
      else postRec s (coreClu n) (eventRecord s n k 0x0102 domain cause (suspect s n k).1 (if cause = 5 then err else 0))
    let s := bump s .hng 0 0x158 1
    let s := lastReset s 1 cause (1 <<< partOfCore s n)
    let s := modCore s n (fun c => { c with rx := mfilter c.rx (fun _ x => x.slot ≠ k) })
    releaseHeld (settleCtxResets (leaveSlot s n k outcome) n k) n k

/-- A context that is to be ended is ended: its own cause, error and outcome. -/
def finishEnding (s : State) (n k : Nat) : State :=
  match (slot s n k).ending with
  | some e => finishReset s n k (b2n e.group) e.cause e.err e.outcome
  | none => s

/-- CONTEXT_RESET (R463): the reset that an error, a hang, a ring or the Carillon (CAUSE COMMAND) has asked for, of the
context or of its whole group. A chip reset absorbs it (R476). -/
def execContextReset (n k : Nat) (group : Bool) (s : State) : Host.Outcome State Fault Refusal :=
  .next (
    if s.chipReset.isSome || (slot s n k).st = .free then s
    else
      let p := partOfCore s n
      let g := slotGroup s n k
      let s :=
        if (slot s n k).ending.isSome then s
        else if group then endGroup s p g 3 0 else endCtx s n k 3 0 3
      let whole := ((slot s n k).ending.map (·.group)).getD false
      if whole then
        ((partSlots s p).filter (fun u => slotGroup s u.1 u.2 = g && ((slot s u.1 u.2).ending.map (·.group)).getD false)).foldl
          (fun s u => finishEnding s u.1 u.2) s
      else finishEnding s n k)

/-! ### Hang supervision (R456 to R458) -/

/-- HANG_EVENT (R456, R457): the idle timer of a supervised slot has reached W. -/
def execHangEvent (n k : Nat) (s : State) : Host.Outcome State Fault Refusal :=
  .next (
    let sl := slot s n k
    let p := partOfCore s n
    if !(sl.st = .active || sl.st = .waiting) || sl.ending.isSome || hangSuspended s p || sl.idleUs < sl.hangW ||
        sl.hangRaised then s
    else
      let s := modSlot s n k (fun sl => { sl with hangRaised := true })
      let s := recErr s eHangDetected 0 p n sl.ctag
      let s := rset (bump s .hng 0 0x154 1) .hng 0 0x164 sl.ctag
      let (eng, cause) := suspect s n k
      let s := postRec s (coreClu n) (eventRecord s n k 0x0101 0 cause eng 0)
      let act := rget s .hng 0 (0x130 + 4 * p)
      let s :=
        if fld act 1 0 = 0 then s
        else if fld act 1 0 = 1 then endCtx s n k 4 0 3
        else endGroup s p (slotGroup s n k) 4 0
      if wbit act 8 then dumpStart s 4 (page .hng 0) (1 <<< p) n else s)

/-- SAVE_TIMEOUT (R458): a slot PREEMPTING for longer than HNG_SAVE_TIMEOUT is to be ended. -/
def execSaveTimeout (n k : Nat) (s : State) : Host.Outcome State Fault Refusal :=
  .next (
    let sl := slot s n k
    if sl.st ≠ .preempting || sl.ending.isSome || s.us ≤ sl.preemptUs + max 1000 (fld (rget s .hng 0 0x150) 15 0) then s
    else endCtx (recErr s eSaveTimeout 0 (partOfCore s n) n sl.ctag) n k 7 0 3)

/-- CTX_RESET_TIMEOUT (R470): a context reset not complete within 100 µs: engine reset of each engine that still holds work of the
context, by the mask. -/
def execCtxResetTimeout (n k engines : Nat) (s : State) : Host.Outcome State Fault Refusal :=
  .next (
    if !((slot s n k).ending.any (fun e => decide (e.us + 100 ≤ s.us))) then s
    else (onesBelow engines 4).foldl (fun s e => requestEng s n e 6)
      (recErr s eCtxResetTimeout 0 (partOfCore s n) n (slot s n k).ctag))

/-! ### Engine reset (R465) -/

/-- Is a context ended by a reset of engine e of its core (R465)? -/
def engineHolds (s : State) (n k e : Nat) : Bool :=
  let sl := slot s n k
  sl.st ≠ .free &&
  (if e = 1 then !sl.banks.isEmpty || !(mgetD (core s n).teq k []).isEmpty || (core s n).teRun.any (fun x => x.slot = k)
   else if e = 2 then !sl.strands.isEmpty
   else true)

/-- The records that the streams of a core hold wait on: none is lost (R253). -/
def keepRecs (s : State) (n : Nat) : State :=
  ((core s n).streams.filterMap (fun x => x.2.heldRec)).foldl (fun s r => waitRecord s (coreClu n) r) s

/-- The logic and state arrays of an engine at their reset values (R465). The SQ keeps its slot registers. -/
def engineClear (s : State) (n e : Nat) : State :=
  if e = 0 then modCore s n (fun c => { c with sync := [], relIndex := [] })
  else if e = 1 then modCore s n (fun c => { c with banks := [], teq := [], teRun := [] })
  else if e = 2 then modCore s n (fun c => { c with strands := [] })
  else modCore (rset (keepRecs s n) .xe n 0x108 0) n (fun c => { c with streams := [], rx := [], utlb := [] })

/-- ENGINE_RESET of an engine that has been requested (R465): e 0 SQ, 1 TE, 2 VE, 3 XE. -/
def execEngineReset (n e : Nat) (s : State) : Host.Outcome State Fault Refusal :=
  .next (
    if !bit (core s n).engReset e || s.chipReset.isSome || (mget s.partReset (partOfCore s n)).isSome then s
    else
      let cause := (core s n).engCause
      let err := if cause = 5 then errField eXeBufferEcc else 0
      let s := ((List.range 16).filter (fun k => engineHolds s n k e)).foldl (fun s k => finishReset s n k (2 + e) cause err 3) s
      let s := modCore (engineClear s n e) n (fun c => { c with engReset := c.engReset &&& (0xF ^^^ (1 <<< e)) })
      let s := clearResetReq s (fun b i => decide (i = n) &&
        (match b with
          | .sq => e = 0 | .te => e = 1 | .ve => e = 2 | .xe => e = 3 | _ => false))
      lastReset (bump s .hng 0 0x15C 1) 2 cause (1 <<< partOfCore s n))

/-- ENG_RESET_TIMEOUT (R470): an engine reset not complete within 300 µs: partition reset of the core's partition. -/
def execEngResetTimeout (n e : Nat) (s : State) : Host.Outcome State Fault Refusal :=
  .next (
    if !bit (core s n).engReset e || s.us < (core s n).engUs + 300 then s
    else
      let p := partOfCore s n
      requestPart (recErr s eEngResetTimeout 0 p n noCtag) p 6 true false (page .hng 0))

/-! ### Partition reset (R466) -/

/-- The CTAG of an ABORTED completion: an INSTALL has failed, every other command has the task's (R282). -/
def abortCtag (s : State) (op n k : Nat) : Nat := if op = 1 then 0xFFFFFFFF else (slot s n k).ctag.toNat

/-- Step 1: rings stop; entries that were fetched, and commands in progress, complete ABORTED (R286), and no core is BUSY. -/
def abortRings (s : State) (p : Nat) : State :=
  let s := (s.cores.filter (fun e => partOfCore s e.1 = p)).foldl (fun s (e : Nat × Core) =>
    let s := modCore s e.1 (fun c => { c with busy := false, deferred := none, heldCmd := none, ringCmd := none })
    let s := rset s .sq e.1 0x10C (setBit (rget s .sq e.1 0x10C) 0 false)
    match e.2.ringCmd with
    | some (ring, user, op, num) =>
      let k := fld (rget s .sq e.1 0x10C) 11 8
      ringDone s (coreClu e.1) ring num (complEntry user (abortCtag s op e.1 k) 10 op ring k (logicalOf s (coreClu e.1) (coreJ e.1)))
    | none => s) s
  (partClus s p).foldl (fun s clu =>
    (List.range 4).foldl (fun s i =>
      let r := ring s clu i
      if r.fetched.isEmpty then s
      else
        let s := modRing s clu i (fun r => { r with fetched := [] })
        r.fetched.foldl (fun s e =>
          let ctag := match seTarget s clu e.data with
            | some n => abortCtag s (seOp e.data) n (seSlot e.data)
            | none => 0xFFFFFFFF
          cqPush s clu i (complEntry (seUser e.data) ctag 10 (seOp e.data) i (seSlot e.data) (seCore e.data))) s) s) s

/-- Is an on-chip message one of a partition's cores or pipelines? -/
def msgOf (s : State) (p : Nat) : NetMsg → Bool
  | .gongArrive n _ _ _ => partOfCore s n = p
  | .fbArrive pipe _ _ _ _ => partOfPipe s pipe = p
  | .bindRead n _ => partOfCore s n = p
  | .release n _ _ _ => partOfCore s n = p
  | .notice n _ _ _ => partOfCore s n = p
  | .loop q _ => q = p

/-- Step 3 for the barriers, the fabric and the translation state of a partition. -/
def partShared (s : State) (p : Nat) : State :=
  let s := { s with
    gong := mfilter s.gong (fun k _ => !(gongOwned s (k / 512) (k % 512) p))
    fb := mfilter s.fb (fun k _ => partOfPipe s (k / 256) ≠ p)
    net := s.net.filter (fun m => !msgOf s p m)
    mcSends := s.mcSends.filter (fun m => partOfPipe s m.pipe ≠ p)
    heldPkts := s.heldPkts.filter (fun h => partOfPipe s h.pipe ≠ p)
    peers := mfilter s.peers (fun k _ => k / 65536 ≠ p)
    fabKeys := mfilter s.fabKeys (fun k _ => k / 16 ≠ p)
    setOps := mfilter s.setOps (fun k _ => partOfPipe s k ≠ p) }
  let pipe := barrierPipe s p
  let s := rset s .col pipe 0x314 (setBit (rget s .col pipe 0x314) 0 false)
  let s := if (rollStore s p).loading then showRoll (modRoll s p (fun r => { r with loading := false })) p (rollResult s p) else s
  let s := (partClus s p).foldl (fun s clu => modCluster s clu (fun c => { c with
    tlb := [], wc := [], inv := none, lastWalk := none, traceOn := false })) s
  let s := { s with cores := s.cores.map (fun (e : Nat × Core) => if partOfCore s e.1 = p then (e.1, { e.2 with utlb := [] }) else e) }
  let s := { s with sec := { s.sec with highDebug := mdel s.sec.highDebug p } }
  endGrants s (1 <<< p)

/-- Held records of a partition: those that have room are posted, the rest are copied into a dump being collected and
then discarded (R253, R466). -/
def dropHeld (s : State) (p : Nat) : State :=
  (partClus s p).foldl (fun s clu =>
    let s := (List.range (heldRecs s clu).length).foldl (fun s _ => postOldest clu s) s
    let rest := heldRecs s clu
    if rest.isEmpty then s
    else modCluster { s with dump := s.dump.map (fun d => { d with held := d.held ++ [(clu, rest.flatten)] }) } clu
      (fun c => { c with holdBuf := [], waitRecs := [] })) s

/-- Core reset: the compute logic of a core; the response filter, local-memory tags, and what the slots last showed stay. -/
def coreReset (c : Core) : Core :=
  { c with strands := [], banks := [], sync := [], streams := [], rx := [], relIndex := [], utlb := [], busy := false,
           deferred := none, heldCmd := none, ringCmd := none, teq := [], teRun := [], engReset := 0, stateHi := 0
           slots := c.slots.map (fun e => (e.1, { Slot.init with
             gen := e.2.gen, ctag := e.2.ctag, outcome := e.2.outcome, beatSq := e.2.beatSq, beatTe := e.2.beatTe,
             beatVe := e.2.beatVe, beatXe := e.2.beatXe })) }

/-- Islands of the partition's cores and cluster networks that are still in use run again after its reset (R36, R39). -/
def restartIslands (s : State) (p : Nat) : State :=
  { s with islands := s.islands.map (fun e =>
      let i := e.1 % 4096
      let mine := if e.1 / 4096 = 0 then decide (partOfCore s i = p) && !pageRetired s .sq i
        else decide (e.1 / 4096 = 1) && decide (partOfClu s i = p) && !pageRetired s .clu i
      if mine then (e.1, { e.2 with stopped := false }) else e) }

/-- Steps 1 to 5 of R466, up to the start of the partition's peal. -/
def partitionStart (s : State) (p : Nat) (r : ResetReq) : State :=
  let s := rset s .pce 0 0x114 (setBit (rget s .pce 0 0x114) p true)
  let s := { s with
    reqPart := mdel s.reqPart p
    partReset := mput s.partReset p { cause := r.cause, escalated := r.escalated, scrub := r.scrub, startUs := s.us } }
  let s := bump s .hng 0 0x160 1
  let s := if r.escalated && wbit (rget s .dmp 0 0x100) 0 then dumpStart s 2 r.page (1 <<< p) 0 else s
  let s := abortRings s p
  let s := (partSlots s p).foldl (fun s u => finishReset s u.1 u.2 0 r.cause 0 3) s
  let s := dropHeld (partShared s p) p
  let s := { s with bist := { s.bist with slices := s.bist.slices.filter (fun b =>
    !(b.phase = 1 && (if b.cls = 0 then decide (partOfSlice s (b.inst / 16) = p)
      else if b.cls ≤ 6 then decide (partOfCore s (b.inst / (if b.cls = 1 then 64 else if b.cls = 2 then 8 else 1)) = p)
      else if b.cls = 7 then decide (partOfClu s b.inst = p) else false))) } }
  let s := { s with cores := s.cores.map (fun e => if partOfCore s e.1 = p then (e.1, coreReset e.2) else e) }
  let s := restartIslands (applyPending s p) p
  let (s, ch) := retireMemory s p
  pealStart { s with partReset := mupd s.partReset p {} (fun r => { r with mapChange := ch }) } (some p) false

/-- PARTITION_RESET (R466, R476): a request that meets the partition's reset is added to it; a chip reset absorbs it. -/
def execPartitionReset (p : Nat) (s : State) : Host.Outcome State Fault Refusal :=
  .next (
    match mget s.reqPart p with
    | none => s
    | some r =>
      if s.chipReset.isSome || partCount s ≤ p then { s with reqPart := mdel s.reqPart p }
      else if (mget s.partReset p).isSome then
        { s with
          reqPart := mdel s.reqPart p
          partReset := mupd s.partReset p {} (fun x => { x with scrub := x.scrub || r.scrub }) }
      else partitionStart s p r)

/-- What SCRUB clears beyond every partition reset: local memory, staging SRAM and HBM, ASID and key entries, multicast
groups and the roll-table store (R466 step 6, R483). -/
def scrubPartition (s : State) (p : Nat) : State :=
  let s := zeroLocal s p
  let s := (partSlices s p).foldl zeroSlice s
  let s := (partRegions s p).foldl zeroRegion s
  let s := { s with
    regs := mfilter s.regs (fun a _ => match pageOf a with
      | some (.mmu, i, off) => !(decide (partOfClu s i = p) && decide (0x400 ≤ off))
      | _ => true)
    roll := mdel s.roll p
    mcCfg := mfilter s.mcCfg (fun k _ => partOfPipe s (k / 16) ≠ p)
    mcCheck := mfilter s.mcCheck (fun k _ => partOfPipe s (k / 16) ≠ p)
    mcMember := mfilter s.mcMember (fun k _ => partOfPipe s (k / 1024) ≠ p)
    mcKey := mfilter s.mcKey (fun k _ => partOfPipe s (k / 1024) ≠ p) }
  showRoll s p 0

/-- The random source has failed its health tests when a key is due (R431). -/
def trngFail (s : State) : State :=
  let w := rget s .sec 0 0x128
  recErr (rset s .sec 0 0x128 (setFld (setBit w 0 false) 15 8 (min 255 (fld w 15 8 + 1)))) eSecTrngFail 0 0 0 noCtag

/-- Do the regions of a partition run encrypted? -/
def partEncrypted (s : State) (p : Nat) : Bool := (partRegions s p).any (fun r => wbit (rget s .hbm (2 * r) 0x140) 0)

/-- New HBM keys are due: they are drawn, or the random source fails (R431). -/
def renewKeys (s : State) (p : Nat) (healthy : Bool) : State :=
  if healthy then drawHbmKeys s p else trngFail s

/-- The regions whose contents end at a partition reset without scrub: those whose map changed, and, where the partition's HBM key is
replaced, every encrypted region of it (R224, R226). -/
def resetErases (s : State) (p : Nat) (healthy : Bool) (changed : List Nat) : List Nat :=
  (partRegions s p).filter (fun r =>
    changed.contains r || (healthy && !changed.isEmpty && wbit (rget s .hbm (2 * r) 0x140) 0))

/-- The queues of a partition that an FLR reset: disabled, indices 0 (R286). -/
def flrQueues (s : State) (p : Nat) : State :=
  (partClus s p).foldl (fun s clu =>
    let s := (List.range 9).foldl (fun s q =>
      let off := if q < 4 then 0x808 + 0x40 * q else if q < 8 then 0x908 + 0x40 * (q - 4) else 0xA08
      rset s .clu clu off (setBit (rget s .clu clu off) (if q < 4 then 16 else 8) false)) s
    modCluster s clu (fun c => { c with
      rings := c.rings.map (fun e => (e.1, { e.2 with enabled := false, prod := 0, head := 0, inProgress := [] }))
      cqs := c.cqs.map (fun e => (e.1, { e.2 with enabled := false, tail := 0, head := 0, timer := none }))
      fqEnabled := false, fqTail := 0, fqHead := 0 })) s

/-- Is the peal of a partition still under way? -/
def pealRunning (s : State) (p : Nat) : Bool :=
  s.pealCores.any (fun e => partOfCore s e.1 = p && !e.2.done && !e.2.failed)

/-- PARTITION_RESET_COMPLETE (R466 steps 6 and 7): `healthy` is the random source's health where keys are drawn. -/
def execPartitionResetComplete (p : Nat) (healthy : Bool) (s : State) : Host.Outcome State Fault Refusal :=
  .next (
    match mget s.partReset p with
    | none => s
    | some r =>
      if pealRunning s p then s
      else
        let renew := r.scrub || !r.mapChange.isEmpty
        let s := if r.scrub then scrubPartition s p else (resetErases s p healthy r.mapChange).foldl zeroRegion s
        let s := if renew then renewKeys s p healthy else s
        let flr := mgetD s.flr p false
        let s := if flr then flrQueues { s with flr := mdel s.flr p } p else s
        let s := { s with partReset := mdel s.partReset p, heldInts := s.heldInts.filter (fun e => e.1 ≠ p) }
        let s := rset s .pce 0 0x114 (setBit (rget s .pce 0 0x114) p false)
        let s := clearResetReq s (fun b i => blockLevel b = 1 && pageOwner s b i = p)
        let s := lastReset s 3 r.cause (1 <<< p)
        stateEvent s .hng 0 2 p)

/-- PART_RESET_TIMEOUT (R470): a partition reset not complete within 5 ms: chip reset. -/
def execPartResetTimeout (p : Nat) (s : State) : Host.Outcome State Fault Refusal :=
  .next (
    if !((mget s.partReset p).any (fun r => decide (r.startUs + 5000 ≤ s.us))) then s
    else requestChip (recErr s ePartResetTimeout 0 p 0 noCtag) 6 true (page .hng 0))

/-! ### Chip reset (R467) -/

/-- The coordinates that are LIVE or RESET in any partition (R361). -/
def recordedPeers (s : State) : List Nat :=
  ((s.peers.filter (fun e => e.2.state = 1 || e.2.state = 2)).map (fun e => e.1 % 65536)).eraseDups

/-- Steps 1 and 2 of R467 for an accepted request: resets of partitions are absorbed, notices wait in the ports that carry, the
other ports go DOWN, and a dump that is due starts. -/
def chipStart (s : State) (r : ResetReq) : State :=
  let s := { s with chipReset := some r, chipAtS2 := false, reqChip := none, reqPart := [], partReset := [] }
  let s := rset s .pce 0 0x114 (setFld (setBit (rget s .pce 0 0x114) 8 true) 7 0 0)
  let s := { s with epochPeers := recordedPeers s }
  let s := s.epochPeers.foldl (fun s c => announceAll s c tResetNotice 0) s
  let s := endGrants ((List.range 8).foldl portLeave { s with pealCores := [] }) 0xFF
  if r.escalated && wbit (rget s .dmp 0 0x100) 1 then dumpStart s 1 r.page 0xFF 0 else s

/-- CHIP_RESET (R467): the requested chip reset starts; a further request is absorbed (R60). -/
def execChipReset (s : State) : Host.Outcome State Fault Refusal :=
  .next (
    match s.reqChip with
    | none => s
    | some r => if s.chipReset.isSome then { s with reqChip := none } else chipStart s r)

end Sys2Proof.Machine
end

