-- ==== Sys2Proof/Machine/HostPort.lean ====
section
/-!
DEFINITION. The host port: configuration space, BAR2, the link and the resets that arrive through it (R268 to R276, R287
to R292).
-/
namespace Sys2Proof.Machine

/-- DIR_BOOT_STAGE is set (R49, R367). -/
def setStage (s : State) (n : Nat) : State := rset s .dir 0 0x30C (wd n)

/-- Status of a completion on the host link: 0 success, 1 Unsupported Request, 2 Configuration Request Retry Status, 3
success with a Poisoned TLP (R275, R287). -/
def cplOk : Nat := 0
def cplUr : Nat := 1
def cplCrs : Nat := 2
def cplPoison : Nat := 3

/-! ### Configuration space (R270, R271, R273, R287) -/

/-- Does a function exist on the port: the PF, and the VFs that are enabled (R271)? -/
def funcPresent (s : State) (f : Nat) : Bool :=
  f = 0 || (decide (f ≤ 8) && !s.fw.recovery && s.host.vfEnable && decide (f ≤ s.host.numVfs))

/-- log2 of the BAR2 size of a function: 1 TiB in the PF and 128 GiB in a VF at reset (R273). -/
def bar2Log (s : State) (f : Nat) : Nat := mgetD s.host.bar2Log f (if f = 0 then 40 else 37)

/-- Device ID of a function (R271, R287). -/
def deviceId (s : State) (f : Nat) : Nat := if s.fw.recovery then 0x4A0F else if f = 0 then 0x4A04 else 0x4A05

/-- Max_Payload_Size Supported (R268, R275). -/
def maxPayload : Nat := 512

/-- Does the configuration space of a function hold a capability (R270)? -/
def capPresent (f : Nat) : CfgCap → Bool
  | .pcie | .msix | .aer | .resizableBar | .acs | .flr => true
  | .pm | .sriov | .serialNumber | .margining | .dataLink => f = 0
  | .phy r => f = 0 && [16, 32, 64, 128].contains r

/-- A number for each capability. -/
def capNo : CfgCap → Nat
  | .pcie => 0 | .pm => 1 | .msix => 2 | .aer => 3 | .sriov => 4 | .resizableBar => 5 | .acs => 6 | .serialNumber => 7
  | .margining => 8 | .dataLink => 9 | .flr => 10 | .phy r => 11 + r

/-- Key of a capability's double word in the store of what was last written. -/
def capKey (f : Nat) (c : CfgCap) (off : Nat) : Nat := (f * 4096 + capNo c) * 1024 + off / 4 % 1024

/-- MSI-X table entries of a function (R270, R276). -/
def tableEntries (f : Nat) : Nat := if f = 0 then 2048 else 256

/-- A base address register (R273): BAR0, 64-bit and non-prefetchable, of 64 MiB in registers 0 and 1, BAR2, 64-bit and
prefetchable, in 2 and 3; no other is implemented. The places of the type bits are the PCI header's (log entry 5). -/
def barWord (s : State) (f i : Nat) : Nat :=
  let w := mgetD s.host.bars (8 * f + i) 0
  match i with
  | 0 => fld w 31 26 * 2 ^ 26 + 4
  | 1 => w.toNat
  | 2 => w.toNat / 2 ^ min 32 (bar2Log s f) * 2 ^ min 32 (bar2Log s f) + 12
  | 3 => w.toNat / 2 ^ (bar2Log s f - 32) * 2 ^ (bar2Log s f - 32)
  | _ => 0

/-- The completion-timeout value: 0 is the default of 50 ms, and ranges B and C may be chosen (R268). -/
def cplTimeoutOk (v : Nat) : Bool := [0, 5, 6, 9, 10].contains v

/-- What a configuration read returns: the fields that the manual gives, sizes in bytes; a double word of a capability whose
contents it leaves to the standard is a free value; outside every register the space reads 0 (R16, R270, log entry 5). -/
def cfgRead (s : State) (f : Nat) : CfgReg → Nat
  | .ids => Config.vendorId + deviceId s f * 65536
  | .classCode => 0x12000000
  | .serial hi => if f = 0 then s.fuses.unitId / (if hi then 2 ^ 32 else 1) % 2 ^ 32 else 0
  | .totalVfs => if f = 0 then 8 else 0
  | .initialVfs => if f = 0 then 8 else 0
  | .numVfs => if f = 0 then s.host.numVfs else 0
  | .vfEnable => if f = 0 then b2n s.host.vfEnable else 0
  | .busMaster => b2n (mgetD s.host.bme f false)
  | .msixEnable => b2n (mgetD s.host.msixEnable f false)
  | .bar2Size => bar2Log s f
  | .bar i => barWord s f i
  | .msixTableSize => tableEntries f
  | .msixTable => 0x03400000
  | .msixPba => 0x03408000
  | .maxPayloadSupported => maxPayload
  | .maxReadRequest => mgetD s.host.maxRead f 512
  | .completionTimeout => mgetD s.host.cplTimeout f 0
  | .asPm => 2
  | .powerState => if f = 0 && s.host.d3hot then 3 else 0
  | .capability c => b2n (capPresent f c)
  | .capWord c off =>
    if capPresent f c then (Config.capWord f (capNo c) off (mgetD s.host.cfg (capKey f c off) 0)).toNat else 0
  | .other _ => 0

/-- PCE_NUMVFS shows NumVFs and VF Enable (R291). -/
def showVfs (s : State) : State := rset s .pce 0 0x10C (packFields [(0, s.host.numVfs), (8, b2n s.host.vfEnable)])

/-- What a configuration write does. -/
def cfgWrite (s : State) (f : Nat) (r : CfgReg) (v : Nat) : State :=
  let set (h : HostPort) : State := { s with host := h }
  match r with
  | .numVfs => if f = 0 && !s.host.vfEnable then showVfs (set { s.host with numVfs := min 8 v }) else s
  | .vfEnable => if f = 0 then showVfs (set { s.host with vfEnable := v % 2 = 1 }) else s
  | .busMaster => set { s.host with bme := mput s.host.bme f (v % 2 = 1) }
  | .msixEnable => set { s.host with msixEnable := mput s.host.msixEnable f (v % 2 = 1) }
  | .bar2Size => set { s.host with bar2Log := mput s.host.bar2Log f (clamp 30 40 v) }
  | .bar i => if i < 4 then set { s.host with bars := mput s.host.bars (8 * f + i) (wd v) } else s
  | .maxReadRequest =>
    if [128, 256, 512, 1024, 2048, 4096].contains v then set { s.host with maxRead := mput s.host.maxRead f v } else s
  | .completionTimeout =>
    if cplTimeoutOk v then set { s.host with cplTimeout := mput s.host.cplTimeout f v } else s
  | .powerState => if f = 0 && (v = 0 || v = 3) then set { s.host with d3hot := v = 3 } else s
  | .capWord c off => if capPresent f c then set { s.host with cfg := mput s.host.cfg (capKey f c off) (wd v) } else s
  | _ => s

/-- CONFIG_REQUEST (R287): Retry Status before S7, ROM recovery mode apart; Unsupported Request of an absent function. -/
def execConfigRequest (f : Nat) (write : Bool) (r : CfgReg) (v : Nat) (s : State) : Host.Outcome State Fault Refusal :=
  .next (
    if !s.host.up then s
    else if bootStage s < 7 && !s.fw.recovery then emit s (.pcieCpl f cplCrs [])
    else if !funcPresent s f then emit s (.pcieCpl f cplUr [])
    else if write then emit (cfgWrite s f r v) (.pcieCpl f cplOk [])
    else emit s (.pcieCpl f cplOk (leBytes (cfgRead s f r) 4)))

/-! ### BAR2 (R274, R275) -/

/-- The regions and slices that a function reaches, in ascending order (R274). -/
def funcRegions (s : State) (f : Nat) : List Nat := if f = 0 then List.range 8 else partRegions s (f - 1)
def funcSlices (s : State) (f : Nat) : List Nat := if f = 0 then List.range 64 else partSlices s (f - 1)

/-- Window base of a function, rounded down to a multiple of its BAR2 size (R274, R291). -/
def bar2Win (s : State) (f : Nat) : Nat :=
  let w := (rget s .pce 0 (0x200 + 8 * f)).toNat + (rget s .pce 0 (0x204 + 8 * f)).toNat * 2 ^ 32
  w / 2 ^ bar2Log s f * 2 ^ bar2Log s f

/-- DPA of an aperture offset, when it lies in a region or slice of the function (R274). -/
def apertureDpa (s : State) (f a : Nat) : Option Nat :=
  let rs := funcRegions s f
  let h := rs.length * 0x1800000000
  if a < h then (rs[a / 0x1800000000]?).map (fun r => r * 0x1800000000 + a % 0x1800000000)
  else ((funcSlices s f)[(a - h) / 0x1800000]?).map (fun i => sliceDpa i + (a - h) % 0x1800000)

/-- The DPA of an aperture offset when it is populated (R200, R275). -/
def apertureAt (s : State) (f a : Nat) : Option Nat := (apertureDpa s f a).filter (populated s)

/-- The pieces of an access that lie each in one granule: aperture offset, place in the access, length. -/
def granulePieces (a pos : Nat) : Nat → Nat → List (Nat × Nat × Nat)
  | 0, _ => []
  | _, 0 => []
  | fuel + 1, len =>
    let m := min len (64 - a % 64)
    (a, pos, m) :: granulePieces (a + m) (pos + m) fuel (len - m)

/-- BAR2_UNPOPULATED for an access of a function (R275, R292). -/
def bar2Hole (s : State) (f a : Nat) : State := recErr s eBar2Unpopulated 0 f (bits a 30 10) noCtag

/-- Is BAR2 answered: the link up, S7 reached, no chip reset, the function present (R271, R287, R473)? Every offset of a VF
whose partition does not exist lies beyond its aperture (R274, R275). -/
def bar2Open (s : State) (f : Nat) : Bool :=
  s.host.up && bootStage s = 7 && s.chipReset.isNone && funcPresent s f

/-- One piece of a BAR2 read: state, bytes, whether poisoned. -/
def bar2ReadPiece (s : State) (f : Nat) (p : Nat × Nat × Nat) (ecc : Ecc) : State × List Byte × Bool :=
  match apertureAt s f p.1 with
  | none => (s, List.replicate p.2.2 0, false)
  | some d =>
    let (s, bad) := checkRead s d p.2.2 ecc noCtag
    let (s, bs) := readData s d p.2.2 noCtag
    (moveBytes s (dpaTile d) 0 p.2.2, bs, bad.isSome)

/-- BAR2_READ (R275), up to Max_Payload_Size. -/
def execBar2Read (f off len : Nat) (ecc : Ecc) (s : State) : Host.Outcome State Fault Refusal :=
  .next (
    if !s.host.up || bootStage s < 7 || s.chipReset.isSome || maxPayload < len then s
    else if !bar2Open s f then emit s (.pcieCpl f cplUr [])
    else
      let a := bar2Win s f + off
      let ps := granulePieces a 0 4096 len
      let (s, bs, bad) := ps.zipIdx.foldl (fun (acc : State × List Byte × Bool) p =>
        let (s, b, e) := bar2ReadPiece acc.1 f p.1 (eccAfter ecc p.2)
        (s, acc.2.1 ++ b, acc.2.2 || e)) (s, [], false)
      let s := match ps.find? (fun p => (apertureAt s f p.1).isNone) with
        | some p => bar2Hole s f p.1
        | none => s
      let s := if bad then recErr s ePcePoisonCpl 0 f 0 noCtag else s
      emit s (.pcieCpl f (if bad then cplPoison else cplOk) bs))

/-- One piece of a BAR2 write: a whole granule, or its enabled bytes merged (R208, R275). -/
def bar2WritePiece (s : State) (f : Nat) (p : Nat × Nat × Nat) (data : List Byte) (be : List Bool) : State :=
  match apertureAt s f p.1 with
  | none => s
  | some d =>
    let s := moveBytes s 0 (dpaTile d) p.2.2
    let bs := slice data p.2.1 p.2.2
    let en := (be.drop p.2.1).take p.2.2
    if en.all id then writeData s d bs noCtag 0 0
    else (List.range p.2.2).foldl (fun s i =>
      if (en[i]?).getD true then writeData s (d + i) ((bs.drop i).take 1) noCtag 0 0 else s) s

/-- BAR2_WRITE (R275): `be` gives the byte enables; bytes past its end are enabled. -/
def execBar2Write (f off : Nat) (data : List Byte) (be : List Bool) (s : State) : Host.Outcome State Fault Refusal :=
  .next (
    if !bar2Open s f || maxPayload < data.length then s
    else
      let a := bar2Win s f + off
      let ps := granulePieces a 0 4096 data.length
      let s := ps.foldl (fun s p => bar2WritePiece s f p data be) s
      match ps.find? (fun p => (apertureAt s f p.1).isNone) with
      | some p => bar2Hole s f p.1
      | none => s)

/-! ### The link (R269, R287 to R289) -/

/-- PCE_LINK_STATUS (R291). -/
def showLink (s : State) : State :=
  let h := s.host
  rset s .pce 0 0x100 (packFields [(0, if h.up then h.width else 0), (8, if h.up then h.gen else 0), (16, b2n h.up),
    (17, b2n h.degraded), (18, b2n (h.up && h.flit))])

/-- The link goes down: the configuration space of every function returns to its reset values (R289). -/
def linkDrop (s : State) : State :=
  showVfs (showLink { s with host := { s.host with
    up := false, width := 0, gen := 0, flit := false, numVfs := 0, vfEnable := false, bme := [], msixEnable := [],
    bar2Log := [], cfg := [], bars := [], maxRead := [], cplTimeout := [], d3hot := false } })

/-- The link goes down without PERST_N (R289): PCE_LINK_DOWN, its counter and a PLDM event. -/
def linkDown (s : State) : State :=
  let s := bump (linkDrop s) .pce 0 0x104 1
  recErr s ePceLinkDown 0 0 0 noCtag

/-- The port retrains at the next narrower width, or fails for want of one (R269). -/
def narrowLink (s : State) : State :=
  let w := (if s.host.up then s.host.width else s.host.maxWidth) / 2
  if w < 4 then
    let s := { s with host := { s.host with failed := true, recoveries := [] } }
    linkDown (powerCycleReq (recErr s ePceLinkFailed 0 0 0 noCtag) 3)
  else
    let s := showLink { s with host := { s.host with
      maxWidth := w, width := min s.host.width w, degraded := true, recoveries := [] } }
    recErr s ePceWidthDegraded 0 0 w noCtag

/-- PCIE_LANE_FAILED (R269): a lane fails equalisation, or the link enters Recovery (`recovery`), the fourth time within
10 s making a lane permanent. -/
def execPcieLaneFailed (recovery : Bool) (s : State) : Host.Outcome State Fault Refusal :=
  .next (
    if s.host.failed || s.host.perst then s
    else if recovery then
      let s := bump s .pce 0 0x108 1
      let l := (s.host.recoveries.filter (fun t => within s 10000000 t)) ++ [s.us]
      if 3 < l.length then narrowLink s else { s with host := { s.host with recoveries := l } }
    else narrowLink s)

/-- PCIE_LINK_DOWN (R289). -/
def execPcieLinkDown (s : State) : Host.Outcome State Fault Refusal := .next (if s.host.up then linkDown s else s)

/-- PCIE_LINK_UP (R268, R289): the link has trained at a width and rate that the port supports; FLIT mode always from
128 GT/s and 64 GT/s. -/
def execPcieLinkUp (width gen : Nat) (flit : Bool) (s : State) : Host.Outcome State Fault Refusal :=
  .next (
    if s.host.perst || s.host.failed || !((2 ≤ bootStage s && s.power.st < 3) || (s.fw.recovery && s.power.vin48)) || s.host.maxWidth < width ||
        !([4, 8, 16].contains width) || gen < 1 || 7 < gen || (6 ≤ gen && !flit) then s
    else showLink { s with host := { s.host with up := true, width := width, gen := gen, flit := flit } })

/-- PERST_ASSERT (R288): a chip reset is requested; the link goes down and its width limit ends (R269). -/
def execPerstAssert (s : State) : Host.Outcome State Fault Refusal :=
  .next (
    let s := linkDrop { s with host := { s.host with
      perst := true, failed := false, degraded := false, maxWidth := 16, recoveries := [] } }
    if !s.carillon.powered then s else requestChip s 3 false (page .pce 0))

/-- PERST_DEASSERT (R287). -/
def execPerstDeassert (s : State) : Host.Outcome State Fault Refusal :=
  .next { s with host := { s.host with perst := false } }

/-! ### Resets (R288, R466) -/

/-- An FLR of a function asks for the reset of a partition, whose queues it disables in the end (R286, R288, R476). -/
def flrPartition (s : State) (p : Nat) : State :=
  if partCount s ≤ p then s
  else
    let s := { s with flr := mput s.flr p true }
    if (mget s.partReset p).isSome then s else requestPart s p 3 false false (page .pce 0)

/-- What an FLR clears of a function's configuration. -/
def flrFunc (s : State) (f : Nat) : State :=
  { s with host := { s.host with
    bme := mdel s.host.bme f, msixEnable := mdel s.host.msixEnable f, bar2Log := mdel s.host.bar2Log f
    bars := mfilter s.host.bars (fun i _ => i / 8 ≠ f)
    cfg := mfilter s.host.cfg (fun i _ => i / 4194304 ≠ f)
    maxRead := mdel s.host.maxRead f, cplTimeout := mdel s.host.cplTimeout f, d3hot := s.host.d3hot && f ≠ 0 } }

/-- VF_FLR (R288). -/
def execVfFlr (p : Nat) (s : State) : Host.Outcome State Fault Refusal :=
  .next (if s.host.up && bootStage s = 7 && funcPresent s (p + 1) then flrPartition (flrFunc s (p + 1)) p else s)

/-- PF_FLR (R288): VF Enable is cleared and every partition is to be reset. An FLR is a Configuration Request, which is served
from S7 (R287). -/
def execPfFlr (s : State) : Host.Outcome State Fault Refusal :=
  .next (
    if !s.host.up || bootStage s ≠ 7 then s else
    let s := showVfs { s with host := { s.host with vfEnable := false, numVfs := 0 } }
    let s := (List.range 9).foldl flrFunc s
    (List.range (partCount s)).foldl flrPartition s)

/-- PCE_PARTITION_RESET (R466): a write of PCE_RESET_CMD with CHIP = 0. -/
def execPcePartitionReset (req : Req) (p : Nat) (scrub : Bool) (s : State) : Host.Outcome State Fault Refusal :=
  .next (guardWrite s req .pce 0 0x110 (fun s =>
    if partCount s ≤ p then recErr s ePceResetInvalid 0 (reqNo req) p noCtag
    else requestPart s p 3 false scrub (page .pce 0)))

/-- PCE_CHIP_RESET (R466): a write of PCE_RESET_CMD with CHIP = 1. -/
def execPceChipReset (req : Req) (s : State) : Host.Outcome State Fault Refusal :=
  .next (guardWrite s req .pce 0 0x110 (fun s => requestChip s 3 false (page .pce 0)))

end Sys2Proof.Machine
end

