-- ==== Sys2Proof/Machine/Identity.lean ====
section
/-!
DEFINITION. The identity of the unit: the key-derivation engine and what the ROM derives at S0 (R424 to R428).
-/
namespace Sys2Proof.Machine

/-! ### Lifecycle fuses (R421 to R424) -/

/-- The lifecycle state that fuses spell (R421): 0 TEST, 1 MISSION, 2 RETURN, 3 END. -/
def lcFused (f : Fuses) : Nat := if 2 ≤ f.e then 3 else if 2 ≤ f.r then 2 else if 2 ≤ f.m then 1 else 0

/-- The lifecycle state that governs: the fused one, or until the next S0 the one before a transition (R423). -/
def lcState (s : State) : Nat := s.sec.lcOld.getD (lcFused s.fuses)

/-- Is the seed killed (R424)? -/
def seedKilled (s : State) : Bool := decide (2 ≤ s.fuses.kill)

/-! ### Derivation (R425) -/

/-- HMAC-SHA-256 with a key of at most 64 bytes. -/
def hmac (key msg : List Byte) : List Byte :=
  let pad (x : Byte) := (padTo key 64).map (fun b => b ^^^ x)
  sha256 (pad 0x5C ++ sha256 (pad 0x36 ++ msg))

/-- The counter-mode KDF of SP 800-108 with HMAC-SHA-256, 384 bits: counter, label, a zero byte, context, length in bits; counter and
length are 32-bit and big-endian (log entry 67). -/
def kdf (key label context : List Byte) : List Byte :=
  let block (i : Nat) := hmac key ((leBytes i 4).reverse ++ label ++ [0] ++ context ++ (leBytes 384 4).reverse)
  (block 1 ++ block 2).take 48

/-- The order of the curve P-256. -/
def p256Order : Nat := 0xFFFFFFFF00000000FFFFFFFFFFFFFFFFBCE6FAADA7179E84F3B9CAC2FC632551

/-- The P-256 private key that 384 derived bits give; their first byte is the highest. -/
def privateKey (out : List Byte) : Nat := leNat out.reverse % (p256Order - 1) + 1

/-- The key-derivation engine on the seed: zeros once SEED_KILL is set (R424). -/
def seedKdf (s : State) (label context : List Byte) : List Byte :=
  if seedKilled s then List.replicate 48 0 else kdf Config.seed label context

/-! ### The ROM's layer (R426, R427) -/

/-- "XEX-DEVID" and "XEX-ALIAS". -/
def labelDevId : List Byte := [0x58, 0x45, 0x58, 0x2D, 0x44, 0x45, 0x56, 0x49, 0x44]
def labelAlias : List Byte := [0x58, 0x45, 0x58, 0x2D, 0x41, 0x4C, 0x49, 0x41, 0x53]

/-- The DeviceID private key: it depends on the seed, HW_TYPE and UNIT_ID only (R426). -/
def deviceKey (s : State) : Nat :=
  privateKey (seedKdf s labelDevId (leBytes 0x4A04 2 ++ leBytes s.fuses.unitId 8))

/-- H_HDR: the digest of header bytes 0x000 to 0x1FF of the running bundle (R427). -/
def headerHash (s : State) : List Byte := sha256 (slice s.fw.bundle 0 0x200)

/-- H_ROM: the digest of the ROM (R427, R429). -/
def romHash : List Byte := Config.crypto 1 []

/-- The compound device identifier (R427). -/
def deviceCdi (s : State) : List Byte :=
  let msg := romHash ++ headerHash s ++ leBytes (leAt s.fw.bundle 0x15 1) 1 ++ leBytes (lcState s) 1
  if seedKilled s then List.replicate 32 0 else hmac Config.seed msg

/-- The Alias private key (R427). -/
def aliasKeyOf (s : State) : Nat := privateKey (kdf (deviceCdi s) labelAlias (headerHash s))

/-- The ROM derives the keys at S0 when a verified bundle runs and the seed is there: it signs the Alias certificate, which carries
H_HDR, VERSION and SVN, with the DeviceID key, keeps the Alias key in the key register, erases the DeviceID key and the CDI, and
sets the seed read lock (R426, R427). -/
def romKeys (s : State) : State :=
  let ok := s.fw.running.isSome && s.fuses.seed && !seedKilled s
  { s with sec := { s.sec with
    aliasValid := ok, seedLocked := true
    aliasKey := if ok then aliasKeyOf s else 0
    aliasCert := if ok then
        Config.aliasCert (deviceKey s) (headerHash s ++ slice s.fw.bundle 0x20 4 ++ leBytes (leAt s.fw.bundle 0x15 1) 1)
      else [] } }

end Sys2Proof.Machine
end

