-- ==== Sys2Proof/Machine/Firmware.lean ====
section
/-!
DEFINITION. The tray flash and its records, verification of a bundle, slot selection, CONFIRM, staging and ROM recovery
mode (R379, R403 to R419, R528).
-/
namespace Sys2Proof.Machine

/-! ### Flash -/

/-- Bytes of the flash; an unlisted byte is erased. -/
def flashRead (s : State) (a n : Nat) : List Byte := (List.range n).map (fun i => mgetD s.fw.flash (a + i) 0xFF)

/-- The Carillon writes bytes of the flash. -/
def flashWrite (s : State) (a : Nat) (bs : List Byte) : State :=
  let fl := (bs.zipIdx).foldl (fun m (b, i) => if b = 0xFF then mdel m (a + i) else mput m (a + i) b) s.fw.flash
  emit { s with fw := { s.fw with flash := fl } } (.flashWrite a bs)

/-- The Carillon erases a range of the flash. -/
def flashErase (s : State) (a n : Nat) : State :=
  { s with fw := { s.fw with flash := mfilter s.fw.flash (fun k _ => k < a || a + n ≤ k) } }

/-- First flash byte of a slot (R404): 0 A, 1 B. -/
def slotBase (k : Nat) : Nat := k * 0x1000000

/-! ### Verification (R409) -/

/-- The fused anti-rollback counter in use: the larger of the copies (R408). -/
def fusedCount (s : State) : Nat := max s.fuses.count0 s.fuses.count1

/-- Revoked key slots: either copy marks (R408). -/
def revokedKeys (s : State) : Nat := s.fuses.revoked0 ||| s.fuses.revoked1

/-- Largest SIZE of a component type (R406). -/
def compMax (ty : Nat) : Nat :=
  if ty = 1 then 0x400000 else if ty = 2 then 0x200000 else if ty = 3 then 0x100000 else if ty = 4 then 0x80000
  else if ty = 5 then 0x200000 else if ty = 6 then 0x100000 else 0

/-- Reserved fields and fixed fields of a header (R405). -/
def headerFormatOk (b : List Byte) : Bool :=
  leAt b 4 2 = 1 && leAt b 6 2 = 0x240 && leAt b 8 4 ≠ 0 && leAt b 8 4 % 4096 = 0 && decide (leAt b 8 4 ≤ 0x1000000) &&
  leAt b 0xC 1 = 6 && leAt b 0xD 1 / 2 = 0 && leAt b 0xF 1 / 16 = 0 && leAt b 0x14 1 / 8 = 0 && leAt b 0x16 2 = 0 &&
  leAt b 0x24 28 = 0 && leAt b 0x160 96 = 0 && leAt b 0x240 0xDC0 = 0 &&
  (List.range 6).all (fun i => leAt b (0x42 + 48 * i) 2 = 0 && leAt b (0x4C + 48 * i) 4 = 0)

/-- Each component type once, aligned, within its SIZE and the bundle, none over another (R406, R409). -/
def componentsOk (b : List Byte) : Bool :=
  (List.range 6).all (fun i =>
    decide (1 ≤ compType b i) && decide (compType b i ≤ 6) && compOff b i % 4096 = 0 && decide (0x1000 ≤ compOff b i) &&
    decide (compSize b i ≤ compMax (compType b i)) && decide (compOff b i + compSize b i ≤ leAt b 8 4) &&
    (List.range 6).all (fun j => i = j || (compType b i ≠ compType b j &&
      (decide (compOff b i + compSize b i ≤ compOff b j) || decide (compOff b j + compSize b j ≤ compOff b i)))))

/-- RESULT of R409 for the bytes of a bundle; `answers` says whether the flash does. -/
def verifyBytes (s : State) (b : List Byte) (answers : Bool) : Nat :=
  let step := leAt b 0x12 1
  let top := leAt b 0x13 1
  let pub := slice b 0x1C0 64
  let key := leAt b 0xE 1
  if !answers then 10
  else if leAt b 0 4 ≠ 0x4C524143 then 1
  else if !headerFormatOk b then 2
  else if leAt b 0x10 2 ≠ 0x4A04 || s.fuses.stepping < step || (top ≠ 0xFF && top < s.fuses.stepping) ||
      !bit (leAt b 0x14 1) s.fuses.variant then 3
  else if bit (leAt b 0xD 1) 0 && leAt b 0x18 8 ≠ s.fuses.unitId then 4
  else if 3 < key || sha256 pub ≠ Config.keyDigest key || bit (revokedKeys s) key then 5
  else if !Config.verify (leNat pub) (leNat (sha256 (slice b 0 0x200))) (leNat (slice b 0x200 64)) then 6
  else if leAt b 0x15 1 < fusedCount s then 7
  else if !componentsOk b then 8
  else if !((List.range 6).all (fun i => sha256 (slice b (compOff b i) (compSize b i)) = compHash b i)) then 9
  else 0

/-- The bytes of a slot that make up its bundle. -/
def slotBytes (s : State) (k : Nat) : List Byte :=
  flashRead s (slotBase k) (clamp 0x1000 0x1000000 (leNat (flashRead s (slotBase k + 8) 4)))

/-! ### Boot record (R411) -/

/-- The 32 bytes of a boot record. -/
def bootRecBytes (r : BootRec) : List Byte :=
  let b := leBytes 0x44524342 4 ++ leBytes r.seq 4 ++ leBytes r.active 1 ++ leBytes r.pending 1 ++ leBytes r.stA 1 ++
    leBytes r.stB 1 ++ leBytes r.fails 1 ++ leBytes r.resA 1 ++ leBytes r.resB 1 ++ leBytes 0 1 ++
    leBytes r.verA 4 ++ leBytes r.verB 4 ++ leBytes r.svnA 1 ++ leBytes r.svnB 1 ++ leBytes 0 2
  b ++ leBytes (crc32c b) 4

/-- A boot record that a copy spells, when it is valid. -/
def bootRecOf (b : List Byte) : Option BootRec :=
  if leAt b 0 4 = 0x44524342 && leAt b 0x1C 4 = crc32c (slice b 0 0x1C) then
    some { seq := leAt b 4 4, active := leAt b 8 1, pending := leAt b 9 1, stA := leAt b 0xA 1, stB := leAt b 0xB 1,
           fails := leAt b 0xC 1, resA := leAt b 0xD 1, resB := leAt b 0xE 1, verA := leAt b 0x10 4, verB := leAt b 0x14 4,
           svnA := leAt b 0x18 1, svnB := leAt b 0x19 1 }
  else none

/-- The boot record in force and its copy: the valid one with the higher SEQ; without one, the defaults and
FW_BOOT_RECORD (R411). -/
def loadBootRec (s : State) : State :=
  let a := bootRecOf (flashRead s 0x2000000 32)
  let b := bootRecOf (flashRead s 0x2001000 32)
  let use (r : BootRec) (c : Nat) : State := { s with fw := { s.fw with bootRec := r, copy := c } }
  match a, b with
  | some x, some y => if x.seq < y.seq then use y 1 else use x 0
  | some x, none => use x 0
  | none, some y => use y 1
  | none, none => recErr (use {} 1) eFwBootRecord 0 0 0 noCtag

/-- The boot record is written over the other copy with SEQ + 1 (R411). -/
def writeBootRec (s : State) (r : BootRec) : State :=
  let r := { r with seq := (r.seq + 1) % 2 ^ 32 }
  let c := 1 - s.fw.copy
  flashWrite (flashErase { s with fw := { s.fw with bootRec := r, copy := c } } (0x2000000 + 0x1000 * c) 0x1000)
    (0x2000000 + 0x1000 * c) (bootRecBytes r)

/-- Fields of a slot in the boot record. -/
def brState (r : BootRec) (k : Nat) : Nat := if k = 0 then r.stA else r.stB
def brSetState (r : BootRec) (k v : Nat) : BootRec := if k = 0 then { r with stA := v } else { r with stB := v }
def brSetResult (r : BootRec) (k v : Nat) : BootRec := if k = 0 then { r with resA := v } else { r with resB := v }
def brSvn (r : BootRec) (k : Nat) : Nat := if k = 0 then r.svnA else r.svnB
def brSetBundle (r : BootRec) (k : Nat) (b : List Byte) : BootRec :=
  if k = 0 then { r with verA := leAt b 0x20 4, svnA := leAt b 0x15 1 } else { r with verB := leAt b 0x20 4, svnB := leAt b 0x15 1 }

/-! ### Slot selection (R412, R416) -/

/-- Recovery mode is entered: FW_RECOVERY with RESULT_A and RESULT_B (R416). -/
def enterRecovery (s : State) : State :=
  recErr { s with fw := { s.fw with
    recovery := true, running := none, rcvState := 0, rcvHeld := false, rcvResult := 0 } } eFwRecovery 0 0
    (s.fw.bootRec.resA + s.fw.bootRec.resB * 16) noCtag

/-- The ROM tries the slots of a list in order (R412). -/
def trySlots (s : State) (answers : Bool) : List Nat → State
  | [] => enterRecovery (writeBootRec s { s.fw.bootRec with pending := 0xFF })
  | k :: t =>
    let r := s.fw.bootRec
    if k = r.active && brState r k = 3 && 2 ≤ r.fails then
      let s := { s with fw := { s.fw with bootRec := brSetState r k 4 } }
      trySlots (recErr s eFwTrialReverted 0 k 0 noCtag) answers t
    else
      let b := slotBytes s k
      let res := verifyBytes s b answers
      let r := brSetResult r k res
      if res ≠ 0 then
        let s := { s with fw := { s.fw with bootRec := brSetState r k 4 } }
        trySlots (recErr s eFwSlotFailed 0 k res noCtag) answers t
      else
        let r := brSetBundle r k b
        let r := if k = r.pending then { brSetState r k 3 with fails := 0 } else r
        let s := writeBootRec s { r with active := k, pending := 0xFF }
        { s with fw := { s.fw with
          running := some k, bundle := b, bundleOk := true, reachedS1 := false, recovery := false } }

/-- The ROM selects a slot at S0 (R412): the pending slot, then the active one, or the active and then the other. A slot
that is TRIAL counts one more start first. -/
def romSelect (s : State) (answers : Bool) : State :=
  let s := loadBootRec s
  let r := s.fw.bootRec
  let r := if brState r r.active = 3 then { r with fails := min 2 (r.fails + 1) } else r
  trySlots { s with fw := { s.fw with bootRec := r } } answers
    (if r.pending ≠ 0xFF then [r.pending, r.active] else [r.active, 1 - r.active])

/-- ROM_WATCHDOG (R412): firmware that has not reached S1 is started again at S0. -/
def execRomWatchdog (answers : Bool) (s : State) : Host.Outcome State Fault Refusal :=
  .next (if s.fw.running.isSome && !s.fw.reachedS1 then romKeys (romSelect s answers) else s)

/-! ### CONFIRM, CANCEL_PENDING and the bundle buffer (R410, R413, R418) -/

/-- CAR_FW_CMD_RESULT (R418). -/
def fwResult (s : State) (res : Nat) : State := rset s .car 0 0x41C (packFields [(4, res)])

/-- Raise the fused counter to a value, and revoke key slots. -/
def burnCount (s : State) (n : Nat) : State :=
  { s with fuses := { s.fuses with count0 := max s.fuses.count0 n, count1 := max s.fuses.count1 n } }
def burnRevoke (s : State) (m : Nat) : State :=
  { s with fuses := { s.fuses with revoked0 := s.fuses.revoked0 ||| m, revoked1 := s.fuses.revoked1 ||| m } }

/-- Steps 2 to 4 of R413; `ok` says whether the fuses take. Group 6 is the counter (log entry 14). -/
def confirmFuses (s : State) (ok : Bool) : State :=
  let b := s.fw.bundle
  let svn := leAt b 0x15 1
  let mask := leAt b 0xF 1 % 16 &&& (15 ^^^ (1 <<< leAt b 0xE 1))
  let all := revokedKeys s ||| mask = 15
  let need := fusedCount s < svn || (mask ≠ 0 && !all)
  if need && !ok then fwResult (recErr s eFwFuseWrite 0 6 0 noCtag) 3
  else
    let s := burnCount s svn
    let s := if mask ≠ 0 && all then recErr s eFwFuseWrite 0 5 0 noCtag else burnRevoke s mask
    let low (k : Nat) (r : BootRec) : BootRec :=
      if brSvn r k < fusedCount s then brSetResult (brSetState r k 4) k 7 else r
    fwResult (writeBootRec s (low 1 (low 0 s.fw.bootRec))) 0

/-- CONFIRM (R413). -/
def fwConfirm (s : State) (ok : Bool) : State :=
  match s.fw.running with
  | some k =>
    if brState s.fw.bootRec k = 3 then
      confirmFuses (writeBootRec s (brSetState s.fw.bootRec k 1)) ok
    else fwResult s 1
  | none => fwResult s 1

/-- FW_CONFIRM by CAR_FW_CMD (R413). -/
def execFwConfirm (req : Req) (ok : Bool) (s : State) : Host.Outcome State Fault Refusal :=
  .next (guardWrite s req .car 0 0x418 (fun s => fwConfirm s ok))

/-- FW_CANCEL_PENDING (R418): the slot that is PENDING is EMPTY again. -/
def execFwCancelPending (req : Req) (s : State) : Host.Outcome State Fault Refusal :=
  .next (guardWrite s req .car 0 0x418 (fun s =>
    let r := s.fw.bootRec
    if r.pending = 0xFF then fwResult s 2
    else fwResult (writeBootRec s { brSetState r r.pending 0 with pending := 0xFF }) 0))

/-- FW_BUFFER_ECC (R410): the running slot is read and verified again; when it fails now, the dies stay unloaded until the
next power cycle. -/
def execFwBufferEcc (answers : Bool) (s : State) : Host.Outcome State Fault Refusal :=
  .next (
    match s.fw.running with
    | none => s
    | some k =>
      let s := recErr s eFwBufferEcc 0 0 0 noCtag
      let b := slotBytes s k
      let res := verifyBytes s b answers
      if res = 0 then { s with fw := { s.fw with bundle := b, bundleOk := true } }
      else
        let s := writeBootRec s (brSetResult (brSetState s.fw.bootRec k 4) k res)
        { s with fw := { s.fw with bundleOk := false, unloaded := true } })

/-! ### Staging (R414, R415) -/

/-- Staging is abandoned: the slot stays EMPTY, FW_STAGE_ABORTED (R415). -/
def stageAbort (s : State) : State :=
  match s.fw.staging with
  | none => s
  | some t =>
    recErr { s with fw := { s.fw with staging := none }, carillon := { s.carillon with upd := 0 } } eFwStageAborted 0 t.slot 0 noCtag

/-- Staging of a bundle of `size` bytes begins (R414 steps 1 and 2): refused, with `none`, while the active slot is TRIAL
or a transfer runs. -/
def stageBegin (s : State) (size : Nat) : Option State :=
  let r := s.fw.bootRec
  if brState r r.active = 3 || s.fw.staging.isSome then none
  else
    let k := 1 - r.active
    let s := writeBootRec s { brSetState r k 0 with pending := 0xFF }
    some (flashErase { s with fw := { s.fw with staging := some ⟨k, size, []⟩ } } (slotBase k) 0x1000000)

/-- Bytes of the transfer arrive and are written to the slot (R414 step 2). -/
def stageData (s : State) (bs : List Byte) : State :=
  match s.fw.staging with
  | none => s
  | some t =>
    let bs := bs.take (t.size - t.data.length)
    let s := flashWrite s (slotBase t.slot + t.data.length) bs
    { s with fw := { s.fw with staging := some { t with data := t.data ++ bs } } }

/-- A message of a PLDM firmware transfer to the tray (R520). -/
def updSay (s : State) (what : String) (res : Nat) : State :=
  match s.carillon.token with
  | some c => emit s (.mgmt c what (leBytes res 1))
  | none => s

/-- STAGING_READBACK_COMPLETE (R414, R415, R520): the slot as it reads back is compared by its CRC-32C with the transfer;
VerifyComplete reports the comparison, ApplyComplete the slot as PENDING. -/
def execStagingReadbackComplete (s : State) : Host.Outcome State Fault Refusal :=
  .next (
    match s.fw.staging with
    | none => s
    | some t =>
      if t.data.length < t.size then s
      else if crc32c (flashRead s (slotBase t.slot) t.size) = crc32c t.data then
        let r := brSetBundle (brSetState s.fw.bootRec t.slot 2) t.slot t.data
        let s := writeBootRec s { r with pending := t.slot }
        let s := { s with fw := { s.fw with staging := none }, carillon := { s.carillon with upd := 4 } }
        updSay (updSay s "VerifyComplete" 0) "ApplyComplete" 0
      else stageAbort (updSay s "VerifyComplete" 1))

/-! ### Recovery download (R417): interface 0 management, 1 PCIe -/

/-- Status byte of a response: 0 OK, 1 BUSY, 2 BAD_STATE, 3 BAD_RANGE. Only the management interface carries one. -/
def rcvAnswer (s : State) (iface status : Nat) (body : List Byte) : State :=
  if iface = 0 then emit s (.mgmt 0 "recovery" (leBytes status 1 ++ body)) else s

/-- CAR_RCV_STATUS (R418). -/
def rcvStatusWord (s : State) : Nat :=
  if s.fw.recovery then s.fw.rcvState + s.fw.rcvOwner * 8 + s.fw.rcvResult * 256 else 0

/-- RCV_STATUS (R417). -/
def execRcvStatus (iface : Nat) (s : State) : Host.Outcome State Fault Refusal :=
  .next (
    if iface = 0 then rcvAnswer s 0 (if s.fw.recovery then 0 else 2) (leBytes (rcvStatusWord s) 2)
    else emit s (.readData .pf (page .car 0 + 0x440) (wd (rcvStatusWord s))))

/-- A recovery message of an interface: refused outside recovery mode, BUSY while the other holds the download. -/
def rcvGuard (s : State) (iface : Nat) (f : State → State) : State :=
  if !s.fw.recovery then rcvAnswer s iface 2 []
  else if s.fw.rcvHeld && s.fw.rcvOwner ≠ iface then rcvAnswer s iface 1 []
  else f s

/-- RCV_BEGIN (R417): with a size in the message, or in CAR_RCV_SIZE. -/
def execRcvBegin (iface size : Nat) (s : State) : Host.Outcome State Fault Refusal :=
  .next (rcvGuard s iface (fun s =>
    let n := if iface = 0 then size else (rget s .car 0 0x444).toNat
    if s.fw.rcvState = 2 || s.fw.rcvState = 3 then rcvAnswer s iface 2 []
    else if 0x1000000 < n then rcvAnswer s iface 3 []
    else rcvAnswer { s with fw := { s.fw with
      rcvState := 1, rcvOwner := iface, rcvHeld := true, rcvResult := 0, rcvSize := n, rcvBuf := [] } } iface 0 []))

/-- RCV_DATA (R417). -/
def execRcvData (iface off : Nat) (data : List Byte) (s : State) : Host.Outcome State Fault Refusal :=
  .next (rcvGuard s iface (fun s =>
    if s.fw.rcvState ≠ 1 then rcvAnswer s iface 2 []
    else if s.fw.rcvSize < off + data.length || (iface = 0 && (data.length < 4 || 1024 < data.length)) then
      rcvAnswer s iface 3 []
    else rcvAnswer { s with fw := { s.fw with
      rcvBuf := (data.zipIdx).foldl (fun m (b, i) => mput m (off + i) b) s.fw.rcvBuf } } iface 0 []))

/-- RCV_END (R417): the buffer is to be verified; the interface no longer holds the download. -/
def execRcvEnd (iface : Nat) (s : State) : Host.Outcome State Fault Refusal :=
  .next (rcvGuard s iface (fun s =>
    if s.fw.rcvState ≠ 1 then rcvAnswer s iface 2 []
    else rcvAnswer { s with fw := { s.fw with rcvState := 2, rcvHeld := false } } iface 0 []))

/-- RCV_ABORT (R417). -/
def execRcvAbort (iface : Nat) (s : State) : Host.Outcome State Fault Refusal :=
  .next (rcvGuard s iface (fun s =>
    if s.fw.rcvState = 2 || s.fw.rcvState = 3 then rcvAnswer s iface 2 []
    else rcvAnswer { s with fw := { s.fw with rcvState := 0, rcvHeld := false } } iface 0 []))

/-- RCV_VERIFY_COMPLETE (R417): a bundle that passes is written to slot A and runs from the buffer; boot continues at
S1. -/
def execRcvVerifyComplete (s : State) : Host.Outcome State Fault Refusal :=
  .next (
    if !s.fw.recovery || s.fw.rcvState ≠ 2 then s
    else
      let b := (List.range s.fw.rcvSize).map (fun i => mgetD s.fw.rcvBuf i 0)
      let res := if s.fw.rcvSize ≠ leAt b 8 4 && leAt b 0 4 = 0x4C524143 then 2 else verifyBytes s b true
      if res ≠ 0 then { s with fw := { s.fw with rcvState := 5, rcvResult := res } }
      else
        let s := flashWrite (flashErase s 0 0x1000000) 0 b
        let r := { brSetBundle s.fw.bootRec 0 b with active := 0, pending := 0xFF, stA := 1, stB := 4, fails := 0, resA := 0 }
        let s := writeBootRec s r
        romKeys { s with fw := { s.fw with
          rcvState := 4, rcvResult := 0, recovery := false, running := some 0, bundle := b, bundleOk := true, reachedS1 := false } })

/-- RCV_INACTIVITY_TIMEOUT (R417): the interface loses the download after 10 s without traffic. -/
def execRcvInactivityTimeout (s : State) : Host.Outcome State Fault Refusal :=
  .next (if s.fw.rcvHeld then { s with fw := { s.fw with rcvHeld := false, rcvState := 0 } } else s)

/-! ### Field record (R379) and tray configuration record (R528) -/

/-- The field record as the Carillon writes it (log entry 15): counts, core numbers, slice numbers, CRC-32C. -/
def fieldBytes (s : State) : List Byte :=
  let b := leBytes s.fieldCores.length 2 ++ leBytes s.fieldSlices.length 2 ++ s.fieldCores.flatMap (fun n => leBytes n 2) ++
    s.fieldSlices.flatMap (fun n => leBytes n 2)
  b ++ leBytes (crc32c b) 4

/-- FIELD_RECORD_FLUSH (R379). -/
def execFieldRecordFlush (s : State) : Host.Outcome State Fault Refusal :=
  .next (if s.fieldDirty then
    flashWrite (flashErase { s with fieldDirty := false } 0x2020000 0x40000) 0x2020000 (fieldBytes s) else s)

/-- The field record is read back at S1 after a power cycle: an erased area is an empty record; one that fails its check
is treated as empty, with FIELD_RECORD_LOST. -/
def loadField (s : State) : State :=
  let h := flashRead s 0x2020000 4
  if leNat h = 0xFFFFFFFF then { s with fieldCores := [], fieldSlices := [] }
  else
    let nc := leAt h 0 2
    let ns := leAt h 2 2
    let b := flashRead s 0x2020000 (4 + 2 * (nc + ns) + 4)
    if nc ≤ 1152 && ns ≤ 64 && leAt b (4 + 2 * (nc + ns)) 4 = crc32c (slice b 0 (4 + 2 * (nc + ns))) then
      { s with
        fieldCores := (List.range nc).map (fun i => leAt b (4 + 2 * i) 2)
        fieldSlices := (List.range ns).map (fun i => leAt b (4 + 2 * (nc + i)) 2) }
    else recErr { s with fieldCores := [], fieldSlices := [], fieldDirty := true } eFieldRecordLost 0 0 0 noCtag

/-- Is a tray configuration record valid (R528)? -/
def cfgOk (b : List Byte) : Bool :=
  leAt b 0 4 = 0x47464354 && leAt b 4 2 = 1 && leAt b 6 2 = 0 && leAt b 0xE 2 = 0 && leAt b 0x1F 1 = 0 && leAt b 0x23 217 = 0 &&
  leAt b 0xFC 4 = crc32c (slice b 0 0xFC)

/-- First flash byte of a copy of the record. -/
def cfgBase (c : Nat) : Nat := 0x2010000 + 0x8000 * c

/-- The valid copy with the higher SEQ, with its number. -/
def cfgPick (s : State) : Option (Nat × List Byte) :=
  let a := flashRead s (cfgBase 0) 256
  let b := flashRead s (cfgBase 1) 256
  if cfgOk a && cfgOk b then (if leAt a 8 4 < leAt b 8 4 then some (1, b) else some (0, a))
  else if cfgOk a then some (0, a) else if cfgOk b then some (1, b) else none

/-- The record in use when no copy is valid: BRAKE_FLOOR 30, everything else 0. -/
def cfgDefault : List Byte := List.replicate 0x1E 0 ++ leBytes 30 1 ++ List.replicate 225 0

/-- The record is read at S1 and at each S2 (R528). -/
def loadCfg (s : State) : State :=
  match cfgPick s with
  | some (c, b) => { s with carillon := { s.carillon with cfg := b, cfgValid := true, cfgCopy := c } }
  | none =>
    recErr { s with carillon := { s.carillon with cfg := cfgDefault, cfgValid := false } } eCarConfigInvalid 0 0 0 noCtag

/-- SPLIT_CHANGE_REQUEST (R468): the tray controller has written a new split to the record and asks for a chip reset. It
is refused unless every slot is empty. -/
def execSplitChangeRequest (s : State) : Host.Outcome State Fault Refusal :=
  .next (
    if allSlotsFree s then requestChip s 3 false (page .car 0)
    else recErr s eSplitRefused 0 0 (((cfgPick s).map (fun c => leAt c.2 0xC 1)).getD 0) noCtag)

end Sys2Proof.Machine
end

