-- ==== Sys2Proof/Machine/Ras.lean ====
section
/-!
DEFINITION. Refresh, patrol scrub, the end of zeroising, the bridges, and the envelope of adjacent islands (R30 to R46,
R211 to R231).
-/
namespace Sys2Proof.Machine

/-! ### HBM commands (R211, R212, R219) -/

/-- Does a pseudo-channel take commands of its controller: its stack is READY or DEGRADED and it is not retired (R44, R230)? -/
def pcServed (s : State) (stack pc : Nat) : Bool :=
  (fld (rget s .hbm stack 0x100) 2 0 = 2 || fld (rget s .hbm stack 0x100) 2 0 = 4) && !pcRetired s stack pc

/-- A command/address parity error: `ca` 1 corrected by its retry; 2 not corrected, the third within 1 s makes the
pseudo-channel permanent; 3 the pseudo-channel stops answering (R219, R221). -/
def caError (s : State) (stack pc ca : Nat) : State :=
  if ca = 1 then recErr s eHbmCaParity stack pc 0 noCtag
  else if ca = 2 then
    let s := { s with caFails := (stack, pc, s.us) :: s.caFails.filter (fun e => within s 1000000 e.2.2) }
    if (s.caFails.filter (fun e => e.1 = stack && e.2.1 = pc)).length ≥ 3 then pcPermanent s stack pc false else s
  else if ca = 3 then pcPermanent s stack pc true
  else s

/-- HBM_REFRESH (R212): a per-bank refresh is issued, and its parity answer is judged. -/
def execHbmRefresh (stack pc ca : Nat) (s : State) : Host.Outcome State Fault Refusal :=
  .next (if pcServed s stack pc then caError (emit s (.note "REFpb" [stack, pc])) stack pc ca else s)

/-- REFRESH_MANAGEMENT_REQUEST (R211): the controller honours it on the pseudo-channel. -/
def execRefreshManagementRequest (stack pc : Nat) (s : State) : Host.Outcome State Fault Refusal :=
  .next (if pcServed s stack pc then emit s (.note "RFM" [stack, pc]) else s)

/-! ### Patrol scrub (R218) -/

/-- Granules of a pseudo-channel of 768 MiB, and of a staging bank of 1.5 MiB. -/
def pcGranules : Nat := 0xC00000
def bankGranules : Nat := 0x6000

/-- The first granule of a pseudo-channel at or after `g` whose page is not retired; the fuel bounds the rows skipped. -/
def scrubSkip (s : State) (stack pc : Nat) : Nat → Nat → Nat
  | 0, g => g
  | fuel + 1, g =>
    let r := stack / 2
    let d := r * 0x1800000000 + hbmOff s r ((stack % 2) * 64 + pc) (64 * g)
    if pcGranules ≤ g || !(pageList s (2 * r) ++ pageList s (2 * r + 1)).contains (d / 65536 * 65536) then g
    else scrubSkip s stack pc fuel ((64 * g / 256 + 1) * 4)

/-- Is a pseudo-channel the last of its stack that survives: the wrap of its scrub ends a pass? -/
def lastPc (s : State) (stack pc : Nat) : Bool :=
  ((List.range 64).filter (fun i => !pcRetired s stack i)).getLastD 64 = pc

/-- The scrub of a pseudo-channel reads its next granule. -/
def scrubHbm (s : State) (stack pc : Nat) (ecc : Ecc) : State :=
  if !pcServed s stack pc || !wbit (rget s .hbm stack 0x120) 0 then s
  else
    let key := 64 * stack + pc
    let r := stack / 2
    let idx := (stack % 2) * 64 + pc
    let g := scrubSkip s stack pc 8192 (mgetD s.scrub key 0)
    let s :=
      if g < pcGranules then (checkRead s (r * 0x1800000000 + hbmOff s r idx (64 * g)) 64 ecc noCtag).1 else s
    if g + 1 < pcGranules then { s with scrub := mput s.scrub key (g + 1) }
    else
      let s := { s with scrub := mdel s.scrub key }
      if lastPc s stack pc then rset s .hbm stack 0x124 (rget s .hbm stack 0x124 + 1) else s

/-- The scrub of a staging bank reads its next granule. -/
def scrubStg (s : State) (i bank : Nat) (ecc : Ecc) : State :=
  if sliceRetired s i || !wbit (rget s .stg i 0x118) 0 then s
  else
    let key := 4096 + 16 * i + bank
    let g := mgetD s.scrub key 0
    let s := (checkRead s (sliceDpa i + g * 1024 + bank * 64) 64 ecc noCtag).1
    if g + 1 < bankGranules then { s with scrub := mput s.scrub key (g + 1) }
    else
      let s := { s with scrub := mdel s.scrub key }
      if bank = 15 then rset s .stg i 0x11C (rget s .stg i 0x11C + 1) else s

/-- PATROL_SCRUB_READ (R218) of pseudo-channel `sub` of a stack, or of bank `sub` of a staging slice. -/
def execPatrolScrubRead (hbm : Bool) (unit sub : Nat) (ecc : Ecc) (s : State) : Host.Outcome State Fault Refusal :=
  .next (if hbm then scrubHbm s unit sub ecc else scrubStg s unit sub ecc)

/-! ### Zeroising (R224) -/

/-- ZEROISE_COMPLETE (R224) of region `unit`, or of slice `unit` − 8: ZEROISING and the watermark are cleared. -/
def execZeroiseComplete (unit : Nat) (s : State) : Host.Outcome State Fault Refusal :=
  .next (
    if (mget s.zeroAt unit).isNone then s
    else
      let s := { s with zeroAt := mdel s.zeroAt unit }
      if unit < 8 then rset s .hbm (2 * unit) 0x144 (setBit (rget s .hbm (2 * unit) 0x144) 16 false)
      else rset s .stg (unit - 8) 0x124 (setBit (rget s .stg (unit - 8) 0x124) 3 false))

/-! ### Bridges (R30, R31, R227) -/

/-- Does a bridge carry C4 traffic of the split of its own (R27)? -/
def bridgeUsed (s : State) (b : Nat) : Bool := s.split = 0 || (s.split = 1 && (b = 0 || b = 2))

/-- The bridge whose traffic is on a detour, when one is out of service and its tiles have traffic over it (R30, R31). -/
def detoured (s : State) : Option Nat :=
  match s.brgOut with
  | [b] => if bridgeUsed s b then some b else none
  | _ => none

/-- BRG_STATE of a bridge: its state and DETOUR. -/
def setBridge (s : State) (b st : Nat) : State :=
  rset s .brg b 0x100 (packFields [(0, st), (8, b2n (match detoured s with | some d => decide (d ≠ b) | none => false))])

/-- BRG_STATE of every bridge follows the bridges out of service. -/
def showBridges (s : State) : State :=
  (List.range 4).foldl (fun s b => setBridge s b (if s.brgOut.contains b then 3 else fld (rget s .brg b 0x100) 1 0)) s

/-- TIL_SPLITS of every tile (R31, R45). -/
def showSplits (s : State) : State :=
  (List.range 4).foldl (fun s t => rset s .til t 0x108 (if s.brgRestrict then 0xC else 0xF)) s

/-- What the TIL pages say of the bridges out of service (R31): one out, BRIDGE_DETOUR on both end tiles; two with a split
that spans tiles, BRIDGE_SPLIT on every tile, and the next bring-up offers only the 4-way and 8-way splits. -/
def noteBridges (s : State) : State :=
  let s := showSplits { s with brgRestrict := s.brgRestrict || (decide (2 ≤ s.brgOut.length) && decide (s.split ≤ 1)) }
  match s.brgOut with
  | [b] =>
    let (x, y) := bridgeEnds b
    recErr (recErr s eBridgeDetour x b 0 noCtag) eBridgeDetour y b 0 noCtag
  | [a, b] => if s.split ≤ 1 then (List.range 4).foldl (fun s t => recErr s eBridgeSplit t a b noCtag) s else s
  | _ => s

/-- A bridge goes out of service in operation: BRG_RETIRED, the detour, or the chip reset of a split that can no longer
reach all its tiles. Flits not acknowledged are sent again over the detour. -/
def bridgeRetire (s : State) (b sub : Nat) : State :=
  if s.brgOut.contains b then s
  else
    let s := noteBridges (showBridges (recErr { s with brgOut := s.brgOut ++ [b] } eBrgRetired b sub 0 noCtag))
    if s.brgOut.length = 2 && s.split ≤ 1 then requestChip s 6 true (page .til 0) else s

/-- Lane group of a direction as SUBUNIT and BRG_SPARE_USED number it. -/
def brgGroup (dir grp : Nat) : Nat := 16 * (dir % 2) + grp % 16

/-- Replays of a lane in the last 1 ms. -/
def laneReplays (s : State) (b g lane : Nat) : Nat :=
  (s.brgReplays.filter (fun e => e.1 = b && e.2.1 = g && e.2.2.1 = lane && within s 1000 e.2.2.2)).length

/-- BRG_FLIT_CRC_FAIL (R227): the flit is replayed, counted and attributed to its lane. -/
def execBrgFlitCrcFail (b dir grp lane : Nat) (s : State) : Host.Outcome State Fault Refusal :=
  .next (
    if s.brgOut.contains b then s
    else
      let g := brgGroup dir grp
      let s := { s with brgReplays := (b, g, lane, s.us) :: s.brgReplays.filter (fun e => within s 1000 e.2.2.2) }
      bump (recErr s eBrgReplay b g 0 noCtag) .brg b 0x114 1)

/-- BRG_LANE_SPARED (R227): a lane with more than 16 replays within 1 ms is swapped to the spare of its group; with the
spare in use the bridge is retired. -/
def execBrgLaneSpared (b dir grp lane : Nat) (s : State) : Host.Outcome State Fault Refusal :=
  .next (
    let g := brgGroup dir grp
    if s.brgOut.contains b || laneReplays s b g lane ≤ 16 then s
    else
      let s := { s with brgReplays := s.brgReplays.filter (fun e => !(e.1 = b && e.2.1 = g && e.2.2.1 = lane)) }
      let used := rget s .brg b 0x108
      if wbit used g then bridgeRetire s b g
      else recErr (rset s .brg b 0x108 (setBit used g true)) eBrgLaneSpared b g lane noCtag)

/-- BRG_RETIRED (R227): a lane has failed in a group whose spare is in use, or retraining has failed. -/
def execBrgRetired (b dir grp : Nat) (s : State) : Host.Outcome State Fault Refusal :=
  .next (bridgeRetire s b (brgGroup dir grp))

/-! ### Islands (R32 to R39, R45) -/

/-- Does an island exist? -/
def islValid (i : Nat) : Bool :=
  decide (islInst i < (match islKind i with | 0 => 1152 | 1 => 64 | 2 => 4 | 3 => 16 | 4 => 8 | 5 => 1 | 6 => 3 | _ => 0))

/-- Tile whose page reports an island: its own, T0 for the host port and the Carillon (R45). -/
def islTile (i : Nat) : Nat :=
  match islKind i with
  | 0 => coreTile (islInst i)
  | 1 => islInst i / 16
  | 2 => islInst i
  | 3 => islInst i / 4
  | 4 => islInst i / 2
  | _ => 0

/-- Does a crossing join two islands, the first of the lower kind (R34)? -/
def adjacentUp (a b : Nat) : Bool :=
  match islKind a, islKind b with
  | 0, 1 => coreClu (islInst a) = islInst b
  | 1, 2 => islInst a / 16 = islInst b
  | 2, 2 => (List.range 4).any (fun x => bridgeEnds x = (islInst a, islInst b))
  | 2, 3 => islInst a = islInst b / 4
  | 2, 4 => islInst a = islInst b / 2
  | 2, 5 => islInst a = 0
  | 2, 6 => true
  | 6, 6 => islInst a ≠ islInst b
  | _, _ => false

/-- Are two islands adjacent (R34)? -/
def adjacent (a b : Nat) : Bool := islValid a && islValid b && (adjacentUp a b || adjacentUp b a)

/-- Change an island. -/
def modIsland (s : State) (i : Nat) (f : Island → Island) : State :=
  { s with islands := mupd s.islands i {} f }

/-- Tile page on which a code of a pair is recorded: the tile of the first island, T0 for host-port and Carillon pairs
(R39). -/
def pairTile (a b : Nat) : Nat := if 5 ≤ islKind a || 5 ≤ islKind b then 0 else islTile a

/-- An ISLAND_ code: TIL_ERR_PAIR when the record is the one that ERR_FIRST takes (R45). -/
def pairErr (s : State) (e : ErrCode) (a b : Nat) : State :=
  let t := pairTile a b
  let first := !wbit (regGet s (page .til t + 0x30)) 31 && !wbit (regGet s (page .til t + 0x24)) e.bit
  let s := if first then rset s .til t 0x10C (packFields [(0, a), (16, b)]) else s
  recErr s e t 0xFF a noCtag

/-- Half clock of an island for the islands that it is hotter than (R39); `baseHalf` applies R36 to its neighbours. -/
def showHalf (s : State) (i : Nat) : State := modIsland s i (fun x => { x with half := !x.above.isEmpty })

/-- ISLAND_SENSOR_SAMPLE (R39): temperatures, in °C + 40, of two adjacent islands. The first island of the record is the hotter
one (DESIGN CHOICE, log entry 60). -/
def execIslandSensorSample (a b ta tb : Nat) (s : State) : Host.Outcome State Fault Refusal :=
  .next (
    let s := if islValid a then modIsland s a (fun x => { x with temp := ta }) else s
    let s := if islValid b then modIsland s b (fun x => { x with temp := tb }) else s
    if !adjacent a b || islandStopped s a || islandStopped s b then s
    else
      let hot := if tb ≤ ta then a else b
      let cold := if tb ≤ ta then b else a
      let diff := if tb ≤ ta then ta - tb else tb - ta
      let s := showHalf (modIsland s cold (fun x => { x with above := x.above.filter (· ≠ hot) })) cold
      if 45 < diff then
        if (island s hot).above.contains cold then s
        else
          let s := showHalf (modIsland s hot (fun x => { x with above := x.above ++ [cold] })) hot
          bump (pairErr s eIslandGradient hot cold) .til (pairTile hot cold) 0x118 1
      else if diff ≤ 40 then showHalf (modIsland s hot (fun x => { x with above := x.above.filter (· ≠ cold) })) hot
      else s)

/-- Does a crossing carry no envelope, because an island of the pair is stopped (R35, R36)? A cluster network that another
crossing of its cluster has stopped within 1 ms still counts against a core (R39, log entry 60). -/
def pairExempt (s : State) (a b : Nat) : Bool :=
  let lo := min a b
  let hi := max a b
  islandStopped s lo ||
  (islandStopped s hi &&
    !(islKind lo = 0 && !allStopped0 s && decide (s.power.st < 2) && !(site s (islInst hi)).hard &&
      (cluster s (islInst hi)).crossFail.any (fun x => decide (s.us ≤ x.2 + 1000))))

/-- A crossing has failed: both islands stop, and the core or the cluster is retired through its partition's reset, or
the package escalates to chip reset (R39, R376, R377). -/
def crossingFail (s : State) (e : ErrCode) (a b : Nat) : State :=
  if !adjacent a b || pairExempt s a b then s
  else
    let s := pairErr s e a b
    let s := modIsland (modIsland s a (fun x => { x with stopped := true })) b (fun x => { x with stopped := true })
    let lo := min a b
    if islKind lo = 0 then
      let n := islInst lo
      let clu := coreClu n
      let s := modCluster s clu (fun c => { c with
        crossFail := (n, s.us) :: c.crossFail.filter (fun x => within s 1001 x.2 && x.1 ≠ n) })
      if (cluster s clu).crossFail.length ≥ 2 then clusterPending s clu 1 true
      else requestPart (corePending s n) (partOfCore s n) 6 true false (page .til (coreTile n))
    else if islKind lo = 1 then clusterPending s (islInst lo) 1 true
    else requestChip s 6 true (page .til (pairTile a b))

/-- ISLAND_SUPPLY_SKEW (R39). -/
def execIslandSupplySkew (a b : Nat) (s : State) : Host.Outcome State Fault Refusal :=
  .next (crossingFail s eIslandSupplySkew a b)

/-- ISLAND_CLOCK_SKEW (R39): as for a supply difference. -/
def execIslandClockSkew (a b : Nat) (s : State) : Host.Outcome State Fault Refusal :=
  .next (crossingFail s eIslandClockSkew a b)

end Sys2Proof.Machine
end

