-- ==== Sys2Proof/Machine/Security.lean ====
section
/-!
DEFINITION. Lifecycle, alarms, debug grants, JTAG, step trace and fabric keys (R399, R420 to R454).
-/
namespace Sys2Proof.Machine

/-! ### Lifecycle (R420 to R423) -/

/-- Every context of every partition is ended by context reset, cause COMMAND (R399 step 2). -/
def endContexts (s : State) : State :=
  (s.cores.flatMap (fun e => (busySlots s e.1).map (fun k => (e.1, k)))).foldl (fun s u => finishReset s u.1 u.2 0 3 0 3) s

/-- The keys that ERASE destroys are zeroised, and the seed is read-locked (R399 step 3, R439). -/
def eraseKeys (s : State) : State :=
  let s := (List.range 16).foldl (fun s k => rset s .hbm k 0x140 (setBit (rget s .hbm k 0x140) 1 false)) s
  { s with
    fabKeys := [], keysErased := true
    sec := { s.sec with aliasValid := false, aliasKey := 0, aliasCert := [], erased := true, seedLocked := true, hbmKeys := 0 }
    carillon := { s.carillon with sessions := [] } }

/-- Every on-die SRAM apart from the Carillon's own is overwritten with zeros, and every HBM region is zeroised (R399
step 4). -/
def zeroPackage (s : State) : State :=
  let s := { s with
    mem := [], poison := [], pealCores := [], pealBad := [], dump := none
    cores := s.cores.map (fun e => (e.1, coreReset e.2))
    clusters := s.clusters.map (fun e => (e.1, { e.2 with tlb := [], wc := [], holdBuf := [], waitRecs := [] })) }
  (List.range 8).foldl zeroRegion (setDumpStatus s false false 0 0)

/-- Steps 2 to 4 of the scan sequence, which are the clearing before a lifecycle transition too (R399, R423). -/
def clearPackage (s : State) : State := zeroPackage (eraseKeys (endContexts s))

/-- SEC_LC_STATUS: BUSY, RESULT, PENDING_STATE and PENDING (R451). -/
def lcStatus (s : State) (busy : Bool) (res : Nat) (pend : Option Nat) : State :=
  rset s .sec 0 0x108 (packFields [(0, b2n busy), (4, res), (8, pend.getD 0), (10, b2n pend.isSome)])

/-- A lifecycle request completes with a RESULT other than OK (R422). -/
def lcFail (s : State) (res : Nat) : State :=
  recErr (lcStatus s false res (s.sec.lcOld.map (fun _ => lcFused s.fuses))) eSecLcFail 0 0 res noCtag

/-- The checks of a lifecycle request in the order of R422: 0 when it may run. -/
def lcCheck (s : State) (next : Nat) : Nat :=
  let st := lcState s
  if frozen s then 4
  else if s.sec.lcTo.isSome || s.sec.lcOld.isSome then 1
  else if next = 1 then
    if st ≠ 0 then 1
    else if s.fuses.seed && s.fuses.debugKey && s.fuses.cert && revokedKeys s ≠ 15 then 0 else 2
  else if next = 2 then (if st = 1 && s.sec.lcToken = some 0x10 then 0 else 1)
  else if st = 0 || st = 2 then 0
  else if st = 1 && s.sec.lcToken = some 0x11 then 0 else 1

/-- A lifecycle request: refused, or the clearing runs and the fuses are to be blown (R422, R423). -/
def lcRequest (s : State) (next : Nat) : State :=
  let res := lcCheck s next
  if res ≠ 0 then lcFail s res
  else
    let s := clearPackage s
    lcStatus { s with sec := { s.sec with lcTo := some next, lcToken := none } } true 0 none

/-- LC_TO_MISSION (R422). -/
def execLcToMission (req : Req) (s : State) : Host.Outcome State Fault Refusal :=
  .next (guardWrite s req .sec 0 0x104 (fun s => lcRequest s 1))

/-- LC_TO_RETURN (R422). -/
def execLcToReturn (req : Req) (s : State) : Host.Outcome State Fault Refusal :=
  .next (guardWrite s req .sec 0 0x104 (fun s => lcRequest s 2))

/-- LC_TO_END (R422). -/
def execLcToEnd (req : Req) (s : State) : Host.Outcome State Fault Refusal :=
  .next (guardWrite s req .sec 0 0x104 (fun s => lcRequest s 3))

/-- Is SEED_KILL blown before the state bit: always to RETURN, and to END when a seed is present that is not killed? -/
def killsSeed (s : State) (next : Nat) : Bool := next = 2 || (next = 3 && s.fuses.seed && !seedKilled s)

/-- The first `k` fuses of a transition are blown, SEED_KILL before the state bit. -/
def blowFuses (s : State) (next k : Nat) : Fuses :=
  let f := s.fuses
  let n := if killsSeed s next then 3 else 0
  let f := if killsSeed s next then { f with kill := max f.kill (min 3 k) } else f
  if next = 1 then { f with m := max f.m (min 3 (k - n)) }
  else if next = 2 then { f with r := max f.r (min 3 (k - n)) }
  else { f with e := max f.e (min 3 (k - n)) }

/-- The compute and base dies lose their power, as in A3 (R495): ports DISABLED, the host link down, debug grants ended, the
contents of HBM, staging SRAM and the compute dies lost. -/
def diesOff (s : State) (reason : Nat) : State :=
  let s := endGrants (linkDrop (portsOff s reason)) 0xFF
  { setDumpStatus s false false 0 0 with
    mem := [], poison := [], dump := none, net := [], pealCores := [], setOps := [], mcSends := [], heldPkts := []
    cores := s.cores.map (fun e => (e.1, coreReset e.2))
    clusters := s.clusters.map (fun e => (e.1, { e.2 with
      tlb := [], wc := [], rings := [], cqs := [], fqEnabled := false, holdBuf := [], waitRecs := [] }))
    power := { s.power with st := 3, moving := none } }

/-- The package holds at S1 until the next S0 (R423). -/
def holdAtS1 (s : State) : State := setStage (diesOff s 9) 1

/-- LC_TRANSITION_COMPLETE (R423): the fuses are programmed, or do not take. -/
def execLcTransitionComplete (ok : Bool) (s : State) : Host.Outcome State Fault Refusal :=
  .next (
    match s.sec.lcTo with
    | none => s
    | some next =>
      if !ok then lcFail { s with sec := { s.sec with lcTo := none } } 3
      else
        let s := { s with fuses := blowFuses s next 6, sec := { s.sec with lcTo := none, lcOld := some (lcState s) } }
        powerCycleReq (holdAtS1 (lcStatus s false 0 (some next))) 5)

/-- An alarm stops a transition that programs fuses: the fuse being blown completes and the rest does not, so how many
are blown is open (R440). -/
def lcStop (s : State) : State :=
  match s.sec.lcTo with
  | none => s
  | some next =>
    let (w, s) := drawWord s
    let old := lcState s
    let f := blowFuses s next (w.toNat % 6)
    let s := { s with
      fuses := f, sec := { s.sec with lcTo := none, lcOld := if lcFused f = old then none else some old } }
    recErr (lcStatus s false 4 none) eSecLcFail 0 0 4 noCtag

/-! ### Alarms (R434 to R440) -/

/-- The floor of source `src` in a lifecycle state (R436): 1 NOTE, 2 FREEZE, 3 ERASE. -/
def alarmFloor (lc src : Nat) : Nat :=
  if src ≤ 1 then (if lc = 1 then 2 else 1)
  else if src = 3 || src = 4 then (if lc = 1 || lc = 3 then 3 else 1)
  else 1

/-- SEC_ALARM_FLOOR (R451). -/
def alarmFloors (s : State) : Word := packFields ((List.range 6).map (fun i => (2 * i, alarmFloor (lcState s) i)))

/-- The level of a source in force: as configured, never below its floor. -/
def alarmLevel (s : State) (src : Nat) : Nat :=
  max (alarmFloor (lcState s) src) (fld (rget s .sec 0 0x118) (2 * src + 1) (2 * src))

/-- Running BIST slices are abandoned, restored and rescheduled (R43, R396). -/
def bistAbandon (s : State) : State :=
  let n := (s.bist.slices.filter (fun b => b.phase = 1)).length
  bump { s with bist := { s.bist with slices := s.bist.slices.map (fun (b : BistSlice) =>
    if b.phase = 1 then { b with phase := 0, len := 16 - b.part } else b) } } .bst 0 0x118 n

/-- FREEZE (R438): grants end, slices, staging and fuse programming stop. The stop of the engines is `frozen`. -/
def freezeActs (s : State) : State := lcStop (stageAbort (bistAbandon (endGrants s 0xFF)))

/-- A source fires: its level acts, and the code of the level is recorded with the source (R435 to R439). -/
def fireAlarm (s : State) (src : Nat) : State :=
  let lvl := alarmLevel s src
  let s := rset s .sec 0 0x114 (setBit (rget s .sec 0 0x114) src true)
  let s := bump { s with sec := { s.sec with highAlarm := max s.sec.highAlarm lvl } } .sec 0 0x120 1
  if lvl ≤ 1 then recErr s eSecAlarmNote 0 src 0 noCtag
  else
    let held := fld (rget s .sec 0 0x110) 1 0
    let s := if held < lvl then rset s .sec 0 0x110 (packFields [(0, lvl), (8, src)]) else s
    let s := { s with sec := { s.sec with alarmInReset := s.sec.alarmInReset || s.chipReset.isSome } }
    let s := freezeActs s
    let s := if lvl = 3 then recErr (eraseKeys s) eSecAlarmErase 0 src 0 noCtag else recErr s eSecAlarmFreeze 0 src 0 noCtag
    if wbit (rget s .dmp 0 0x100) 2 then dumpStart s 3 (page .sec 0) 0xFF 0 else s

/-- ALARM_VGLITCH (R435). -/
def execAlarmVglitch (s : State) : Host.Outcome State Fault Refusal := .next (fireAlarm s 0)

/-- ALARM_CGLITCH (R435). -/
def execAlarmCglitch (s : State) : Host.Outcome State Fault Refusal := .next (fireAlarm s 1)

/-- ALARM_TEMP (R435). -/
def execAlarmTemp (s : State) : Host.Outcome State Fault Refusal := .next (fireAlarm s 2)

/-- ALARM_MESH (R435). -/
def execAlarmMesh (s : State) : Host.Outcome State Fault Refusal := .next (fireAlarm s 3)

/-- ALARM_FUSE (R435): after S0. -/
def execAlarmFuse (s : State) : Host.Outcome State Fault Refusal := .next (fireAlarm s 4)

/-- A debug-port misuse (R445, R454): cause 1 failures, 2 purpose, 3 JTAG; tokens are locked out after the first. -/
def misuse (s : State) (cause : Nat) : State :=
  let s := recErr s eDbgMisuse 0 0 cause noCtag
  let s :=
    if cause = 1 then
      rset { s with sec := { s.sec with lockout := true } } .dbg 0 0x134 (setBit (rget s .dbg 0 0x134) 16 true)
    else s
  fireAlarm s 5

/-- ALARM_DEBUG (R445). -/
def execAlarmDebug (cause : Nat) (s : State) : Host.Outcome State Fault Refusal := .next (misuse s cause)

/-- A write of SEC_ALARM_CFG: fixed while LOCK is set; a level below its floor is stored as the floor (R436). -/
def alarmCfg (s : State) (v : Word) : State :=
  if wbit (rget s .sec 0 0x118) 31 then s
  else rset s .sec 0 0x118 (packFields ((List.range 6).map (fun i =>
    (2 * i, max (alarmFloor (lcState s) i) (fld v (2 * i + 1) (2 * i)))) ++ [(31, b2n (wbit v 31))]))

/-- SEC_ALARM_CFG_WRITE (R436). -/
def execSecAlarmCfgWrite (req : Req) (v : Word) (s : State) : Host.Outcome State Fault Refusal :=
  .next (guardWrite s req .sec 0 0x118 (fun s => alarmCfg s v))

/-! ### Debug (R441 to R449) -/

/-- An answer on the management port. -/
def mgmtOut (s : State) (what : String) (data : List Byte) : State := emit s (.mgmt 0 what data)

/-- DBG_NONCE as 16 bytes. -/
def nonceBytes (s : State) : List Byte := (List.range 4).flatMap (fun i => leBytes (rget s .dbg 0 (0x100 + 4 * i)).toNat 4)

/-- A fresh nonce is drawn (R442). -/
def freshNonce (s : State) : State :=
  let (ws, s) := drawWords s 4
  (ws.zipIdx).foldl (fun s (w, i) => rset s .dbg 0 (0x100 + 4 * i) w) s

/-- DBG_GET_NONCE (R442). -/
def execDbgGetNonce (s : State) : Host.Outcome State Fault Refusal :=
  .next (let s := freshNonce s; mgmtOut s "NONCE" (nonceBytes s))

/-- Does the lifecycle state give a token purpose to tokens (R422, R448)? -/
def purposeOk (lc pur : Nat) : Bool :=
  (lc = 1 && (pur = 1 || pur = 2 || pur = 0x10 || pur = 0x11)) || (lc = 2 && (pur = 1 || pur = 2 || pur = 3))

/-- Is a purpose never permitted in the state, whether by token or without one (R445)? -/
def purposeNever (lc pur : Nat) : Bool := lc = 3 || (lc = 1 && pur = 3) || (pur = 0x10 && lc ≠ 1)

/-- RESULT of R443 for a token, the lockout of R445 first. -/
def tokenResult (s : State) (t : List Byte) : Nat :=
  let pur := leAt t 6 1
  let parts := leAt t 7 1
  if s.sec.lockout then 10
  else if t.length ≠ 192 || leAt t 0 4 ≠ 0x4E4B5444 || leAt t 4 2 ≠ 1 || leAt t 0x20 2 ≠ 0x4A04 ||
      !([1, 2, 3, 0x10, 0x11].contains pur) || leAt t 0x23 29 ≠ 0 then 1
  else if leAt t 8 8 ≠ s.fuses.unitId then 2
  else if slice t 0x10 16 ≠ nonceBytes s then 3
  else if leAt t 0x22 1 ≠ lcState s then 4
  else if !s.fuses.debugKey || sha256 (slice t 0x40 64) ≠ Config.debugKeyDigest then 5
  else if !Config.verify (leNat (slice t 0x40 64)) (leNat (sha256 (slice t 0 0x80))) (leNat (slice t 0x80 64)) then 6
  else if !purposeOk (lcState s) pur || (pur = 3 && !allSlotsFree s) then 7
  else if (if pur ≤ 2 then decide (2 ^ partCount s ≤ parts) else parts ≠ 0xFF) then 8
  else if frozen s then 9
  else 0

/-- A level is granted to a mask of partitions, or D3 to the package (R443, R448). -/
def grant (s : State) (level mask : Nat) (token : Bool) : State :=
  let s :=
    if level = 3 then
      { rset s .dbg 0 0x130 (setBit (rget s .dbg 0 0x130) 0 true) with sec := { s.sec with d3Seen := true } }
    else (onesBelow mask (partCount s)).foldl (fun s p =>
      let s := rset s .dbg 0 (0x110 + 4 * p) (packFields [(0, level), (2, b2n token)])
      { s with sec := { s.sec with highDebug := mput s.sec.highDebug p (max level (mgetD s.sec.highDebug p 0)) } }) s
  recErr s eDbgGranted 0 mask level noCtag

/-- DBG_TOKEN_STATUS (R452). -/
def setTokenStatus (s : State) (res : Nat) : State :=
  rset s .dbg 0 0x134 (packFields [(0, res), (8, min 255 s.sec.tokenFails.length), (16, b2n s.sec.lockout)])

/-- A failed token: counted, recorded, and the third within 60 s is a misuse; a purpose that the state never permits is
one too (R445). -/
def tokenBad (s : State) (res pur : Nat) : State :=
  let fails := s.us :: s.sec.tokenFails.filter (within s 60000000)
  let s := setTokenStatus (bump { s with sec := { s.sec with tokenFails := fails } } .dbg 0 0x138 1) res
  let s := recErr s eDbgTokenBad 0 0 res noCtag
  if res = 7 && purposeNever (lcState s) pur then misuse s 2
  else if fails.length ≥ 3 && !s.sec.lockout then misuse s 1
  else s

/-- DBG_TOKEN (R442, R443): the token is checked, a fresh nonce is drawn, and the answer carries RESULT. -/
def execDbgToken (t : List Byte) (s : State) : Host.Outcome State Fault Refusal :=
  .next (
    let res := tokenResult s t
    let pur := leAt t 6 1
    let s := freshNonce s
    let s :=
      if res ≠ 0 then tokenBad s res pur
      else
        let s := setTokenStatus s 0
        if pur = 0x10 || pur = 0x11 then { s with sec := { s.sec with lcToken := some pur } }
        else grant s pur (leAt t 7 1) true
    mgmtOut s "TOKEN" (leBytes res 1))

/-- DBG_REVOKE (R444). -/
def execDbgRevoke (mask : Nat) (s : State) : Host.Outcome State Fault Refusal :=
  .next (mgmtOut (endGrants s mask) "REVOKE" [])

/-- DBG_STATUS (R442): DBG_GRANT of every partition and DBG_D3. -/
def execDbgStatus (s : State) : Host.Outcome State Fault Refusal :=
  .next (mgmtOut s "STATUS" ((List.range 9).flatMap (fun i => leBytes (rget s .dbg 0 (0x110 + 4 * i)).toNat 4)))

/-- DBG_CMD_REVOKE (R452). -/
def execDbgCmdRevoke (req : Req) (mask : Nat) (s : State) : Host.Outcome State Fault Refusal :=
  .next (guardWrite s req .dbg 0 0x140 (fun s => endGrants s mask))

/-- DBG_CMD_REVOKE_ALL (R452). -/
def execDbgCmdRevokeAll (req : Req) (s : State) : Host.Outcome State Fault Refusal :=
  .next (guardWrite s req .dbg 0 0x140 (fun s => endGrants s 0xFF))

/-- DBG_CMD_OPEN (R448, R452): in TEST only, without a token; D3 only while every partition holds no context (R441). -/
def execDbgCmdOpen (req : Req) (level mask : Nat) (s : State) : Host.Outcome State Fault Refusal :=
  .next (guardWrite s req .dbg 0 0x140 (fun s =>
    if lcState s ≠ 0 || frozen s || level = 0 || 3 < level || (level = 3 && !allSlotsFree s) then s
    else grant s level (if level = 3 then 0xFF else mask % 2 ^ partCount s) false))

/-- TOKEN_LOCKOUT_EXPIRY (R445). -/
def execTokenLockoutExpiry (s : State) : Host.Outcome State Fault Refusal :=
  .next (
    let s := { s with sec := { s.sec with lockout := false, tokenFails := [] } }
    rset s .dbg 0 0x134 (setFld (setBit (rget s .dbg 0 0x134) 16 false) 15 8 0))

/-! ### JTAG (R447) -/

/-- Is a class of instruction permitted: 0 identity, 1 boundary, 2 debug access, 3 test? -/
def jtagOk (s : State) (cls : Nat) : Bool :=
  match cls with
  | 0 => true
  | 1 =>
    if lcState s = 1 then s.power.st = 3 && s.host.perst else if lcState s = 3 then s.power.st = 3 else true
  | 2 => !frozen s && (List.range (partCount s)).any (fun p => decide (2 ≤ debugLevel s p))
  | _ => !frozen s && s.bist.scanOpen

/-- The V, S or P register word, accumulator word, sync word or window word of a HALTED slot (R441). -/
def dbgRead (s : State) (a : DbgAcc) : Nat :=
  let sl := slot s a.core a.slot
  let st := strand s a.core (sl.strands.getD a.unit 0)
  match a.kind with
  | 0 => (mgetD st.v a.idx 0).toNat
  | 1 => (mgetD st.sreg a.idx 0).toNat
  | 2 => if a.idx = 0 then 0xFFFFFFFF else (mgetD st.preg a.idx 0).toNat
  | 3 => (mgetD (mgetD (core s a.core).banks (sl.banks.getD a.unit 0) []) a.idx 0).toNat
  | 4 => match physObj s a.core a.slot a.unit with
    | some o => syncWord (syncObj s a.core o)
    | none => 0
  | _ => leNat (readWin s a.core a.slot (4 * a.idx) 4)

/-- The write of the same. -/
def dbgWrite (s : State) (a : DbgAcc) (v : Nat) : State :=
  let sl := slot s a.core a.slot
  let i := sl.strands.getD a.unit 0
  match a.kind with
  | 0 => modStrand s a.core i (fun x => { x with v := mput x.v a.idx (wd v) })
  | 1 => modStrand s a.core i (fun x => { x with sreg := mput x.sreg a.idx (wd v) })
  | 2 => if a.idx = 0 then s else modStrand s a.core i (fun x => { x with preg := mput x.preg a.idx (wd v) })
  | 3 => modCore s a.core (fun c => { c with
      banks := mupd c.banks (sl.banks.getD a.unit 0) [] (fun b => mput b a.idx (wd v)) })
  | 4 => match physObj s a.core a.slot a.unit with
    | some o => modSync s a.core o (fun _ => syncOfWord v)
    | none => s
  | _ => writeWin s a.core a.slot (4 * a.idx) (leBytes v 4)

/-- Does an access name what the slot holds, with D2 granted and the slot HALTED? -/
def dbgAccOk (s : State) (a : DbgAcc) : Bool :=
  let sl := slot s a.core a.slot
  decide (2 ≤ debugLevel s (partOfCore s a.core)) && sl.st = .halted && !frozen s &&
  (match a.kind with
    | 0 => decide (a.unit < sl.strands.length) && decide (a.idx < 512)
    | 1 => decide (a.unit < sl.strands.length) && decide (a.idx < 16)
    | 2 => decide (a.unit < sl.strands.length) && decide (a.idx < 8)
    | 3 => decide (a.unit < sl.banks.length) && decide (a.idx < 4096)
    | 4 => decide (a.unit < 64 * sl.blocks.length)
    | _ => decide (4 * a.idx + 4 ≤ winBytes s a.core a.slot))

/-- JTAG_INSTRUCTION (R447): `ir` is served, with the access it makes when it is one of debug access; a class that is not
permitted is replaced by BYPASS, and a private one is a misuse (R445). -/
def execJtagInstruction (cls ir : Nat) (acc : Option DbgAcc) (s : State) : Host.Outcome State Fault Refusal :=
  .next (
    let ok := jtagOk s cls && (match acc with | some a => cls ≠ 2 || dbgAccOk s a | none => true)
    let s := rset s .dbg 0 0x13C (packFields [(0, 1), (4, cls), (8, b2n !ok)])
    if !ok then
      let s := recErr (emit s (.jtag 0xFFFFFFFF [])) eDbgJtagDenied 0 0 cls noCtag
      if 2 ≤ cls then misuse s 3 else s
    else
      match acc with
      | some a =>
        if cls ≠ 2 then emit s (.jtag ir [])
        else match a.write with
          | some v => emit (dbgWrite s a v) (.jtag ir [])
          | none => emit s (.jtag ir [dbgRead s a])
      | none => emit s (.jtag ir []))

/-! ### Step trace (R446, R453) -/

/-- A write of CLU_TRACE_CTRL: not open without D1 (R54, R446); ENABLE is refused unless the ring lies in staging SRAM that
the partition owns. -/
def traceCtrl (s : State) (req : Req) (clu : Nat) (v : Word) : State :=
  let p := partOfClu s clu
  if debugLevel s p = 0 then denied s req (page .clu clu + 0xB00)
  else if !wbit v 0 then
    rset (modCluster s clu (fun c => { c with traceOn := false })) .clu clu 0xB00 (v &&& 0x0000FF02)
  else
    let size := max 1 (fld (rget s .clu clu 0xB0C) 11 0) * 4096
    let a := fld (rget s .clu clu 0xB04) 31 12 * 4096 + fld (rget s .clu clu 0xB08) 15 0 * 2 ^ 32
    let ok := decide (stgBase ≤ a) && decide (a + size ≤ stgBase + 0x60000000) && ownedRange s p a size
    if ok then
      rset (modCluster s clu (fun c => { c with traceOn := true, traceRecs := 0 })) .clu clu 0xB00 (v &&& 0x0000FF03)
    else
      rset (modCluster s clu (fun c => { c with traceOn := false })) .clu clu 0xB00 ((v &&& 0x0000FF02) ||| 0x00010000)

/-- TRACE_ENABLE (R446). -/
def execTraceEnable (req : Req) (clu : Nat) (v : Word) (s : State) : Host.Outcome State Fault Refusal :=
  .next (guardWrite s req .clu clu 0xB00 (fun s => traceCtrl s req clu v))

/-! ### Fabric keys (R432) -/

/-- Is an SPDM session established? -/
def sessionOpen (s : State) (id : Nat) : Bool := s.carillon.sessions.contains (id, true)

/-- A message of R432 is refused. -/
def keyRefused (s : State) (p sl : Nat) : State := mgmtOut (recErr s eSecKeyRefused 0 p sl noCtag) "KEY" (leBytes 1 1)

/-- COL_ENC_TX of a partition, which SEC_PART_CFG shows too (R451). -/
def setEncTx (s : State) (p : Nat) (slot : Nat) (on : Bool) : State :=
  let w := rget s .col (barrierPipe s p) 0x21C
  rset s .col (barrierPipe s p) 0x21C (setBit (setFld w 3 0 slot) 8 on)

/-- A message of R432 inside an established session, for a partition and slot that exist; another is refused. -/
def keyMessage (s : State) (sess p sl : Nat) (ok : Bool) (f : State → State) : State :=
  if !sessionOpen s sess then s
  else if partCount s ≤ p || 16 ≤ sl || !ok then keyRefused s p sl
  else mgmtOut (f s) "KEY" (leBytes 0 1)

/-- TX slot and ENABLED of a partition. -/
def txSlot (s : State) (p : Nat) : Nat := fld (rget s .col (barrierPipe s p) 0x21C) 3 0
def txOn (s : State) (p : Nat) : Bool := wbit (rget s .col (barrierPipe s p) 0x21C) 8

/-- The messages of R432: SET writes a slot; DELETE is refused for the TX slot; TX is refused for an empty slot; ENC on is
refused while the TX slot is empty. -/
def fabKeySet (s : State) (sess p sl : Nat) (key : List Byte) : State :=
  keyMessage s sess p sl (key.length = 32) (fun s => { s with fabKeys := mput s.fabKeys (16 * p + sl) key })
def fabKeyDelete (s : State) (sess p sl : Nat) : State :=
  keyMessage s sess p sl (txSlot s p ≠ sl) (fun s => { s with fabKeys := mdel s.fabKeys (16 * p + sl) })
def fabKeyTx (s : State) (sess p sl : Nat) : State :=
  keyMessage s sess p sl (mget s.fabKeys (16 * p + sl)).isSome (fun s => setEncTx s p sl (txOn s p))
def fabEnc (s : State) (sess p : Nat) (on : Bool) : State :=
  keyMessage s sess p (txSlot s p) (!on || (mget s.fabKeys (16 * p + txSlot s p)).isSome)
    (fun s => setEncTx s p (txSlot s p) on)

/-- FAB_KEY_SET (R432). -/
def execFabKeySet (sess p sl : Nat) (key : List Byte) (s : State) : Host.Outcome State Fault Refusal :=
  .next (fabKeySet s sess p sl key)

/-- FAB_KEY_DELETE (R432). -/
def execFabKeyDelete (sess p sl : Nat) (s : State) : Host.Outcome State Fault Refusal := .next (fabKeyDelete s sess p sl)

/-- FAB_KEY_TX (R432). -/
def execFabKeyTx (sess p sl : Nat) (s : State) : Host.Outcome State Fault Refusal := .next (fabKeyTx s sess p sl)

/-- FAB_ENC (R432). -/
def execFabEnc (sess p : Nat) (on : Bool) (s : State) : Host.Outcome State Fault Refusal := .next (fabEnc s sess p on)

end Sys2Proof.Machine
end

