-- ==== Sys2Proof/Machine/Link.lean ====
section
/-!
DEFINITION. Fabric ports below the packet: commands, training, identity, flits, replay, pauses, standby and the lanes
(R296 to R318, R325, R339).
-/
namespace Sys2Proof.Machine

/-! ### Lanes and pauses (R314 to R318) -/

/-- A link-control message is to be sent: every flit repeats it until its answer arrives, or for 1 µs (R300). One that follows
another of the same OP supersedes it. -/
def linkCtl (s : State) (i op token lanes : Nat) (temp : Bool) : State :=
  modPort s i (fun x => { x with ctl := ⟨op, token, lanes, temp, s.us⟩ :: x.ctl.filter (fun m => m.op ≠ op) })

/-- A request with a new TOKEN. -/
def askCtl (s : State) (i op lanes : Nat) (temp : Bool) : State :=
  let tok := ((port s i).token + 1) % 256
  linkCtl (modPort s i (fun x => { x with token := tok })) i op tok lanes temp

/-- A message is answered, or waits: no flit repeats it now. -/
def dropCtl (s : State) (i op : Nat) : State := modPort s i (fun x => { x with ctl := x.ctl.filter (fun m => m.op ≠ op) })

/-- The message that the flits of now carry: the newest, of those that await their answer or were first sent within 1 µs. -/
def liveCtl (s : State) (i : Nat) : Option LinkMsg :=
  (port s i).ctl.find? (fun m => m.op = 1 || m.op = 5 || decide (s.us ≤ m.us + 1))

/-- Is a received message new? A receiver acts once per TOKEN (R300). -/
def newToken (s : State) (i op token : Nat) : Bool := mget (port s i).seen op ≠ some token

/-- A TOKEN has been received. -/
def markToken (s : State) (i op token : Nat) : State := modPort s i (fun x => { x with seen := mput x.seen op token })

/-- A port becomes RETIRED: FAB_PORT_RETIRED, and its plane has failed (R305, R307). -/
def fabRetire (s : State) (i reason : Nat) : State :=
  let s := rset (dropPlane (dropFlits s i) i) .fab i 0x10C 0
  planeFailed (recErr (setFab s i psRetired reason) eFabPortRetired i 0 0 noCtag) i

/-- The lane set changes; FAB_PORT_DEGRADED when the port narrows to 8 lanes (R315, R330). -/
def setLanes (s : State) (i set : Nat) : State :=
  let narrows := popBelow set 17 < 16 && 16 ≤ popBelow (laneSet s i) 17 && 8 ≤ popBelow set 17
  let s := rset s .fab i 0x10C (wd set)
  if narrows then recErr s eFabPortDegraded i 0 (popBelow (lanesUsable s i) 17) noCtag else s

/-- The width of the set puts a port in ACTIVE or DEGRADED (R305, R315). -/
def fabCarry (s : State) (i set : Nat) : State :=
  let s := setLanes s i set
  if 16 ≤ popBelow set 17 then retryAllHeld (setFab s i psActive 0)
  else if 8 ≤ popBelow set 17 then retryAllHeld (setFab s i psDegraded 0)
  else fabRetire s i 10

/-- The package decides on a new lane set: PAUSED, and PAUSE_REQ with a new TOKEN; TEMP says that lanes are excluded temporarily. With
fewer than 8 usable lanes the port is RETIRED (R305, R315 to R317). A STANDBY_REQ waits (R318). -/
def startPause (s : State) (i : Nat) : State :=
  let set := chooseSet (lanesUsable s i)
  if set = 0 then fabRetire s i 10
  else
    let temp := decide (lanesTemp s i ≠ 0)
    let s := modPort s i (fun x => { x with
      pauseLanes := set, pauseTemp := temp, pauseOwn := true, pauseAcked := false, resumeSent := false, resumed := false })
    askCtl (dropCtl (setFab s i psPaused 0) i 5) i 1 set temp

/-- A change of the usable lanes takes a pause in a port that carries or pauses; in STANDBY it waits for WAKE (R318). -/
def lanesChanged (s : State) (i : Nat) : State :=
  if [4, 5, 6].contains (fabState s i) then startPause s i else showLanes s i

/-- OPT_REFL_STATUS: BUSY, DONE, ABORTED, RESULT, fibre, SWEPT (R329). -/
def reflStatus (s : State) (i : Nat) (busy done aborted : Bool) (res fibre : Nat) (swept : Bool) : State :=
  rset s .opt i 0x124 (packFields [(0, b2n busy), (1, b2n done), (2, b2n aborted), (3, res), (8, fibre),
    (31, b2n (swept || wbit (rget s .opt i 0x124) 31))])

/-- Reflectometry of the fibres of a lane is due when it is retired: it joins a sweep that runs, or starts one; without a probe it
completes at once with PROBE_FAIL (R319, R323, R324). -/
def sweepLane (s : State) (i n : Nat) : State :=
  if !modeO s i || fabState s i = 0 then s
  else if (mgetD s.engines i {}).probeFailed then reflStatus s i false true false 2 (17 + n) false
  else
    let busy := wbit (rget s .opt i 0x124) 0
    let s := { s with engines := mupd s.engines i {} (fun e => { e with
      sweep := (if busy then e.sweep else []) ++ [n, 17 + n], abort := busy && e.abort }) }
    if busy then s else reflStatus s i true false false 0 n false

/-- A lane joins the retired ones and its fibres are swept (R315, R323). -/
def markRetired (s : State) (i n : Nat) : State :=
  let s := rset s .fab i 0x110 (wd (lanesRetired s i ||| (1 <<< n)))
  sweepLane (rset s .fab i 0x114 (setBit (rget s .fab i 0x114) n false)) i n

/-- A lane is permanent: retired, with FAB_LANE_RETIRED (R315). -/
def retireLane (s : State) (i n : Nat) : State :=
  if bit (lanesRetired s i) n || 17 ≤ n || fabState s i = 10 then s
  else lanesChanged (markRetired (recErr s eFabLaneRetired i n 0 noCtag) i n) i

/-- Entry to RETRAIN, causes 1 replay, 2 partner, 3 command, 4 replay buffer; the fourth within 60 s retires the port
(R305, R306). -/
def fabRetrain (s : State) (i cause : Nat) : State :=
  let times := s.us :: (port s i).retrainUs.filter (within s 60000000)
  let s := modPort s i (fun x => { x with retrainUs := times, attempts := 0 })
  let s := bump s .fab i 0x14C 1
  if 4 ≤ times.length then recErr (fabRetire s i 0) eFabRetrain i 0 cause noCtag
  else
    let s := dropFlits (recErr s eFabRetrain i 0 cause noCtag) i
    setFab (if cause = 2 then s else askCtl s i 4 0 false) i psRetrain 0

/-! ### FAB_CMD (R305, R328) -/

/-- FAB_CMD_ENABLE. -/
def execFabCmdEnable (req : Req) (i : Nat) (s : State) : Host.Outcome State Fault Refusal :=
  .next (guardWrite s req .fab i 0x108 (fun s => if fabState s i = 0 && reach s i ≠ 0 then fabEnable s i else s))

/-- FAB_CMD_DISABLE. -/
def execFabCmdDisable (req : Req) (i : Nat) (s : State) : Host.Outcome State Fault Refusal :=
  .next (guardWrite s req .fab i 0x108 (fun s => fabDisable s i 1))

/-- FAB_CMD_RETRAIN. -/
def execFabCmdRetrain (req : Req) (i : Nat) (s : State) : Host.Outcome State Fault Refusal :=
  .next (guardWrite s req .fab i 0x108 (fun s => if [4, 5, 6].contains (fabState s i) then fabRetrain s i 3 else s))

/-- FAB_CMD_RECHECK (R313): frames are exchanged again. -/
def execFabCmdRecheck (req : Req) (i : Nat) (s : State) : Host.Outcome State Fault Refusal :=
  .next (guardWrite s req .fab i 0x108 (fun s =>
    if fabState s i = 9 then setFab (modPort s i (fun x => { x with heard := false })) i psIdentify 0 else s))

/-- FAB_CMD_CLEAR. -/
def execFabCmdClear (req : Req) (i : Nat) (s : State) : Host.Outcome State Fault Refusal :=
  .next (guardWrite s req .fab i 0x108 (fun s => if fabState s i = 10 then fabClear s i else s))

/-- FAB_CMD_RETIRE_LANE (R315). -/
def execFabCmdRetireLane (req : Req) (i lane : Nat) (s : State) : Host.Outcome State Fault Refusal :=
  .next (guardWrite s req .fab i 0x108 (fun s => retireLane s i lane))

/-! ### Training (R305, R308) -/

/-- May ports train: from boot stage S6, and not in a chip reset before it (R318, R369). -/
def trainOpen (s : State) : Bool := 6 ≤ bootStage s && (s.chipReset.isNone || s.chipAtS2)

/-- FAB_SIGNAL_DETECT: signal on `lanes` lanes of a DOWN port. -/
def execFabSignalDetect (i lanes : Nat) (s : State) : Host.Outcome State Fault Refusal :=
  .next (
    if fabState s i = 1 && 8 ≤ lanes && trainOpen s then
      let s := if modeO s i then setEngine s i 2 else s
      setFab (modPort s i (fun x => { x with attempts := 0 })) i psTraining 0
    else s)

/-- DOWN_PROBE (R308): a DOWN port without signal probes again and records nothing. -/
def execDownProbe (i : Nat) (s : State) : Host.Outcome State Fault Refusal :=
  .next (if fabState s i = 1 then emit s (.wire i "PROBE" []) else s)

/-- Is a BER of m × 10⁻ᵉ above `n` × 10⁻ᵏ? -/
def berAbove (m e n k : Nat) : Bool := decide (n * 10 ^ e < m * 10 ^ k)

/-- The lanes that training accepts: equalised, locked and aligned, with a pre-FEC BER not above FAB_THRESH.BER_LIMIT (R308). -/
def trainedLanes (s : State) (i : Nat) (l : List LaneTrain) : Nat :=
  maskOf ((l.filter (fun x => !berAbove x.m x.e (max 1 (fld (rget s .fab i 0x138) 15 8)) 5)).map (·.lane)) &&&
    (0x1FFFF ^^^ lanesRetired s i)

/-- Training has measured a lane's BER and turned its precoding on or off (R296, R328). -/
def noteTrain (s : State) (i : Nat) (x : LaneTrain) : State :=
  let a := 0x200 + 0x10 * x.lane
  rset (rset s .fab i (a + 4) (packFields [(0, x.m % 256), (8, x.e % 256)])) .fab i (a + 8) (packFields [(8, b2n x.precode)])

/-- TRAINING_ATTEMPT_END (R305, R308): what the lanes have reached, and whether signal is present. -/
def execTrainingAttemptEnd (i : Nat) (lanes : List LaneTrain) (signal : Bool) (s : State) : Host.Outcome State Fault Refusal :=
  .next (
    if !(fabState s i = 2 || fabState s i = 7) then s
    else
      let tried := 0x1FFFF ^^^ lanesRetired s i
      let good := trainedLanes s i lanes
      let s := lanes.foldl (fun s x => if x.lane < 17 then noteTrain s i x else s) s
      if 8 ≤ popBelow good 17 then
        let s := (onesBelow (tried &&& (0x1FFFF ^^^ good)) 17).foldl (fun s n =>
          recErr (markRetired s i n) eFabTrainFail i n 0 noCtag) s
        let s := setLocks (rset s .fab i 0x114 0) i good true
        setFab (modPort s i (fun x => { x with heard := false, identLeft := 0 })) i psIdentify 0
      else
        let a := (port s i).attempts + 1
        let s := modPort s i (fun x => { x with attempts := a })
        if 3 ≤ a && signal then fabRetire s i 10 else s)

/-! ### Identity (R309 to R313) -/

/-- The identity frame that the package sends (R309); with ACK = 1 CHOSEN is 1, the only version (R310). -/
def identityFrame (s : State) (i : Nat) : List Byte :=
  let x := port s i
  padTo (leBytes 0x544E4449 4 ++ leBytes 1 1 ++ leBytes (b2n (modeO s i)) 1 ++ leBytes (fld (rget s .fab i 0x124) 15 0) 2 ++
    leBytes 0x4A04 2 ++ leBytes i 1 ++ leBytes i 1 ++ leBytes ((ownCoord s).getD 0xFFFF) 2 ++ leBytes 0 2 ++
    leBytes (0x1FFFF ^^^ lanesRetired s i) 4 ++ leBytes s.fuses.unitId 8 ++ leBytes (leAt s.fw.bundle 0x20 4) 4 ++
    leBytes s.epoch 4 ++ leBytes (b2n x.heard) 1 ++ leBytes (b2n x.heard) 1) 64

/-- REASON of the first check of R311 that a frame fails: 0 when none does. -/
def identityCheck (s : State) (i : Nat) (f : List Byte) : Nat :=
  let plane := leAt f 0xB 1
  let coord := leAt f 0xC 2
  let ex := rget s .fab 0 0x120
  if leAt f 0 4 ≠ 0x544E4449 || leAt f 4 1 ≠ 2 then 4
  else if !(wbit (rget s .fab i 0x124) 0 && bit (leAt f 6 2) 0) then 3
  else if 7 < plane then 7
  else if (List.range 8).any (fun j => j ≠ i && wbit (rget s .fab j 0x118) 7 && fld (rget s .fab j 0x118) 2 0 = plane) then 5
  else if (wbit ex 16 && fld ex 15 0 ≠ coord) || (match ownCoord s with | some c => decide (c ≠ coord) | none => false) then 6
  else 0

/-- The package adopts a coordinate in every FAB page (R311). -/
def adoptCoord (s : State) (c : Nat) : State :=
  if (ownCoord s).isSome then s
  else (List.range 8).foldl (fun s i => rset s .fab i 0x11C (packFields [(0, c), (16, 1)])) s

/-- What a frame that passes says of the partner: its page registers, the plane, the coordinate and the lanes, of which those
that it leaves out are retired (R309, R311, R312; log entry 58). -/
def identityAccept (s : State) (i : Nat) (f : List Byte) (rtt : Nat) : State :=
  let plane := leAt f 0xB 1
  let s := rset (rset s .fab i 0x128 (wd (leAt f 0x14 4))) .fab i 0x12C (wd (leAt f 0x18 4))
  let s := rset s .fab i 0x130 (packFields [(0, leAt f 8 2), (16, leAt f 4 1), (24, leAt f 0xA 1)])
  let s := rset (rset s .fab i 0x134 (wd (leAt f 0x1C 4))) .fab i 0x13C (wd (rtt % 2 ^ 20))
  let s := rset s .fab i 0x118 (packFields [(0, plane), (7, 1), (8, leAt f 0xA 1 % 32)])
  let s := adoptCoord s (leAt f 0xC 2)
  let s := modPort s i (fun x => { x with heard := true, planeKnown := true })
  let out := 0x1FFFF ^^^ (leAt f 0x10 4 % 2 ^ 17)
  (onesBelow (out &&& (0x1FFFF ^^^ lanesRetired s i)) 17).foldl (fun s n =>
    markRetired (recErr s eFabLaneRetired i n 0 noCtag) i n) s

/-- The exchange is complete: the port carries packets at the width of its usable lanes, FAB_PORT_DEGRADED with 8 of them,
with whole pools to return (R305, R312, R339). -/
def identityDone (s : State) (i plane : Nat) : State :=
  let s := modPort (dropFlits s i) i (fun x => { x with retReq := 2112, retRsp := 2112, retMgt := 32, chosen := 1 })
  let s := fabCarry (rset s .fab i 0x10C 0) i (chooseSet (lanesUsable s i))
  let s := if fabState s i = psDegraded then recErr s eFabPortDegraded i 0 (popBelow (lanesUsable s i) 17) noCtag else s
  if plane = i then s
  else raiseInt (recErr s eFabPlaneRemap i 0 (i + plane * 8) noCtag) .fab i 2

/-- IDENTITY_FRAME (R309, R311): a frame of the partner; after the one that acknowledges ours, 16 more flits are due. `rtt` is
the round trip measured, in ns. -/
def execIdentityFrame (i : Nat) (f : List Byte) (rtt : Nat) (s : State) : Host.Outcome State Fault Refusal :=
  .next (
    if fabState s i ≠ 3 then s
    else
      let r := identityCheck s i f
      if r = 3 then fabDisable (recErr s eFabVersionNone i 0 (leAt f 6 2 % 2 ^ 15) noCtag) i 3
      else if r ≠ 0 then
        let s := modPort (dropPlane s i) i (fun x => { x with heard := true })
        recErr (setFab s i psQuarantine r) eFabQuarantine i 0 r noCtag
      else
        let s := identityAccept s i f rtt
        let s := if leAt f 0x24 1 = 1 then modPort s i (fun x => { x with identLeft := 16 }) else s
        setFab s i psIdentify 0)

/-- IDENTIFY_TIMEOUT (R305): no frame from the partner within 10 ms; it counts as an attempt. -/
def execIdentifyTimeout (i : Nat) (s : State) : Host.Outcome State Fault Refusal :=
  .next (
    if fabState s i = 3 && !(port s i).heard then
      setFab (modPort s i (fun x => { x with attempts := x.attempts + 1 })) i psTraining 0
    else s)

/-! ### Flits (R299 to R304, R339 to R341) -/

/-- LINK_CTL of a flit (R300). -/
def linkField (s : State) (i : Nat) : Nat :=
  match liveCtl s i with
  | some m => m.op + m.token * 256 + m.lanes * 65536 + b2n m.temp * 2 ^ 33
  | none => 0

/-- The 640 bytes of a flit (R299): DATA with FSN, PKT_OFF and data, or IDLE, with the acknowledgement, NAK and credits of
the port. -/
def flitBytes (s : State) (i fsn : Nat) (isData ident : Bool) (off : Nat) (body : List Byte) : List Byte :=
  let x := port s i
  let w := fsn + (if x.rxAny then ((x.rxFsn + 65535) % 65536) * 65536 else 0) + b2n x.nakOut * 2 ^ 32 + b2n isData * 2 ^ 33 +
    b2n x.rxAny * 2 ^ 34 + b2n ident * 2 ^ 35 + (if isData then off * 2 ^ 40 else 0)
  let b := leBytes w 8 ++ leBytes (min 255 x.retReq) 1 ++ leBytes (min 255 x.retRsp) 1 ++ leBytes (min 255 x.retMgt) 1 ++
    leBytes 0 5 ++ padTo body 608 ++ leBytes (linkField s i) 8
  b ++ leBytes (crc64 b) 8

/-- A flit leaves on a lane, as the codeword that its marker and its bytes make; the credits it carries are returned (R296,
R297). -/
def sendFlit (s : State) (i lane : Nat) (b : List Byte) : State :=
  let c := mgetD (port s i).codewords lane 0
  let s := emit s (.wire i "FLIT" (lane :: lineCodeword lane c b))
  modPort s i (fun x => { x with
    codewords := mput x.codewords lane ((c + 1) % 2 ^ 15)
    retReq := x.retReq - min 255 x.retReq, retRsp := x.retRsp - min 255 x.retRsp, retMgt := x.retMgt - min 255 x.retMgt })

/-- The lane of the set on which DATA flit `fsn` is sent (R301). -/
def fsnLane (s : State) (i fsn : Nat) : Nat :=
  let l := onesBelow (laneSet s i) 17
  l.getD (fsn % l.length) 0

/-- An IDLE flit leaves on a lane: it repeats the FSN of the next DATA flit. -/
def sendIdle (s : State) (i lane : Nat) : State := sendFlit s i lane (flitBytes s i (port s i).txFsn false false 0 [])

/-- The lanes that are not in the set and not retired carry IDLE flits (R301). -/
def idleOthers (s : State) (i : Nat) : State :=
  (onesBelow (0x1FFFF ^^^ (lanesRetired s i ||| laneSet s i)) 17).foldl (fun s n => sendIdle s i n) s

/-- A packet as it is laid in the data areas: from a 16 B boundary to the next (R299). -/
def padPkt (b : List Byte) : List Byte := padTo b ((b.length + 15) / 16 * 16)

/-- The next packet that may start: MGT before RSP before REQ, each with a credit (R339, R341). -/
def nextPkt (x : Port) : Option (List Byte × Port) :=
  match x.txMgt, x.txRsp, x.txReq with
  | b :: t, _, _ =>
    if 0 < x.credMgt then some (b, { x with txMgt := t, credMgt := x.credMgt - 1 })
    else nextRsp x
  | [], _, _ => nextRsp x
where
  nextRsp (x : Port) : Option (List Byte × Port) :=
    match x.txRsp with
    | b :: t => if 0 < x.credRsp then some (b, { x with txRsp := t, credRsp := x.credRsp - 1 }) else nextReq x
    | [] => nextReq x
  nextReq (x : Port) : Option (List Byte × Port) :=
    match x.txReq with
    | b :: t => if 0 < x.credReq then some (b, { x with txReq := t, credReq := x.credReq - 1 }) else none
    | [] => none

/-- Fill the data area of a flit: the bytes of packets that have started, and packets that start here; PKT_OFF is the
first of those. -/
def fillFlit : Nat → Port → Nat → Port × Nat
  | 0, x, off => (x, off)
  | fuel + 1, x, off =>
    if 608 ≤ x.txBytes.length then (x, off)
    else match nextPkt x with
      | none => (x, off)
      | some (b, y) =>
        fillFlit fuel { y with txBytes := y.txBytes ++ padPkt b } (if off = 63 then x.txBytes.length / 16 else off)

/-- Flits that the replay buffer holds at most: 16,384, less what BIST has excluded in regions of 8 KiB (R302, R395). -/
def replayCap (s : State) (i : Nat) : Nat :=
  (10485760 - 8192 * (s.bist.excluded.filter (fun e => e.1 = 8 && e.2.1 = i)).length) / 640

/-- An IDLE flit leaves on the lane of the set whose turn it is. -/
def idleTurn (s : State) (i : Nat) : State := sendIdle s i (fsnLane s i (port s i).txFsn)

/-- A flit that the partner asked for again, on the current lane set, with what its header says now (R302). -/
def resendFlit (s : State) (i f : Nat) : State :=
  match (port s i).replay.find? (fun e => e.1 = f) with
  | some e =>
    sendFlit (modPort s i (fun x => { x with resendFrom := some ((f + 1) % 65536) })) i (fsnLane s i f)
      (flitBytes s i f true false e.2.1 e.2.2)
  | none => idleTurn (modPort s i (fun x => { x with resendFrom := none })) i

/-- The next flit of a carrying port: one to be sent again, else DATA, else IDLE. -/
def carryFlit (s : State) (i : Nat) : State :=
  let x := port s i
  match x.resendFrom with
  | some f => resendFlit s i f
  | none =>
    let (y, off) := fillFlit 11 x 63
    if y.txBytes.isEmpty || replayCap s i ≤ x.replay.length then idleTurn s i
    else
      let b := flitBytes s i x.txFsn true false off (y.txBytes.take 608)
      let s := modPort s i (fun _ => { y with
        txBytes := y.txBytes.drop 608, replay := x.replay ++ [(x.txFsn, off, y.txBytes.take 608)]
        txFsn := (x.txFsn + 1) % 65536 })
      sendFlit (bumpUnit s .fab i 0x150 1 1024) i (fsnLane s i x.txFsn) b

/-- A port that pauses sends again what the partner asks for, and IDLE flits (R302, R317). -/
def pausedFlit (s : State) (i : Nat) : State :=
  match (port s i).resendFrom with
  | some f => resendFlit s i f
  | none => idleTurn s i

/-- One identity flit leaves on every lane that is not retired; with the last of the 16 that follow the partner's acknowledgement
the exchange is complete (R309). -/
def identFlits (s : State) (i : Nat) : State :=
  let b := identityFrame s i
  let s := (onesBelow (0x1FFFF ^^^ lanesRetired s i) 17).foldl (fun s n =>
    sendFlit s i n (flitBytes s i (port s i).txFsn false true 0 b)) s
  let k := (port s i).identLeft
  if fabState s i ≠ 3 || k = 0 then s
  else if k = 1 then identityDone s i (fld (rget s .fab i 0x118) 2 0)
  else modPort s i (fun x => { x with identLeft := k - 1 })

/-- FLIT_TRANSMIT (R301): one flit of the lane set, DATA or IDLE, and an IDLE flit on each lane outside it; IDLE flits with the
identity frame in IDENTIFY and QUARANTINE (R309, R313), IDLE flits while lanes train, and one on the lowest lane of the set in
STANDBY (R325). In a chip reset the port goes DOWN when its notices have left (R361). -/
def execFlitTransmit (i : Nat) (s : State) : Host.Outcome State Fault Refusal :=
  .next (
    let x := port s i
    let st := fabState s i
    if portUp s i && !(x.resumeSent && !x.resumed) then portLeave (idleOthers (carryFlit s i) i) i
    else if [4, 5, 6].contains st then idleOthers (pausedFlit s i) i
    else if st = 3 || st = 9 then identFlits s i
    else if st = 2 || st = 7 then (onesBelow (0x1FFFF ^^^ lanesRetired s i) 17).foldl (fun s n => sendIdle s i n) s
    else if st = 8 then sendIdle s i ((onesBelow (laneSet s i) 17).headD 0)
    else s)

/-- Is FSN `a` at or before `b` in sequence (R299: modulo 65,536)? -/
def fsnLe (a b : Nat) : Bool := decide ((b + 65536 - a) % 65536 < 32768)

/-- The acknowledgement, NAK and credits of a flit (R299, R302): a NAK is a replay performed. -/
def flitHeader (s : State) (i lane : Nat) (b : List Byte) : State :=
  let w := leAt b 0 8
  let ackF := bits w 16 16
  let s := modPort s i (fun x => { x with
    replay := if bit w 34 then x.replay.filter (fun e => !fsnLe e.1 ackF) else x.replay
    credReq := x.credReq + leAt b 8 1, credRsp := x.credRsp + leAt b 9 1, credMgt := x.credMgt + leAt b 10 1 })
  if bit w 32 && !(port s i).replay.isEmpty then
    let s := modPort s i (fun x => { x with resendFrom := x.replay.head?.map (·.1) })
    recErr (bump s .fab i 0x140 1) eFabReplay i lane 0 noCtag
  else s

/-- Whole packets leave the received bytes: a header gives its length, and a zero byte where a header would start is the
fill after the last packet (R299). -/
def parsePkts : Nat → List Byte → List (List Byte) → List (List Byte) × List Byte
  | 0, b, acc => (acc, b)
  | fuel + 1, b, acc =>
    if b.length < 64 then (acc, if b.all (· = 0) then [] else b)
    else if b.head? = some 0 then (acc, [])
    else
      let n := 64 + bits (leAt b 0xE 2) 0 13 + (if bit (leAt b 2 1) 6 then 16 else 0)
      if b.length < (n + 15) / 16 * 16 then (acc, b)
      else parsePkts fuel (b.drop ((n + 15) / 16 * 16)) (acc ++ [b.take n])

/-- A flit is discarded: a replay is requested with NAK, every later flit is discarded until the missing FSN arrives, and its fourth
failure in a row enters RETRAIN (R302, R304). `mine` says that the flit can be the missing one. -/
def flitBad (s : State) (i lane : Nat) (mine : Bool) : State :=
  let x := port s i
  if x.nakOut && !mine then s
  else
    let s := recErr (bump s .fab i 0x140 1) eFabReplay i lane 0 noCtag
    let s := modPort s i (fun x => { x with nakOut := true, failCount := x.failCount + 1, early := [] })
    if 4 ≤ x.failCount + 1 && [4, 5, 6].contains (fabState s i) then fabRetrain s i 1 else s

/-- The data of the DATA flit that is next in order is delivered. -/
def takeData (s : State) (i : Nat) (data : List Byte) : State :=
  let (ps, rest) := parsePkts 70 ((port s i).rxBytes ++ data) []
  bumpUnit (modPort s i (fun x => { x with
    rxFsn := (x.rxFsn + 1) % 65536, rxAny := true, nakOut := false, failCount := 0, rxBytes := rest, rx := x.rx ++ ps }))
    .fab i 0x154 1 1024

/-- Flits that came early follow in the order of their FSN (R301). -/
def takeEarly (s : State) (i : Nat) : Nat → State
  | 0 => s
  | fuel + 1 =>
    match (port s i).early.find? (fun e => e.1 = (port s i).rxFsn) with
    | none => s
    | some e => takeEarly (takeData (modPort s i (fun x => { x with early := x.early.filter (fun y => y.1 ≠ e.1) })) i e.2) i fuel

/-- FLIT_RECEIVE (R296, R301, R302, R304): the 544 symbols of a codeword as received; `skewOver` says whether an FSN before it has
been missing beyond the skew tolerance, `replayBad` whether the replay buffer shows an uncorrectable error as flits are read from
it. A flit that fails may be the missing one when it came on the missing one's lane. -/
def execFlitReceive (i lane : Nat) (symbols : List Nat) (skewOver replayBad : Bool) (s : State) :
    Host.Outcome State Fault Refusal :=
  .next (
    let msg := rsDecode symbols
    if !([4, 5, 6].contains (fabState s i)) then (if msg.isSome then s else bump s .fab i 0x144 1)
    else if replayBad then recErr (fabRetrain s i 4) eFabReplayEcc i 0 0 noCtag
    else
      let mine := lane = fsnLane s i (port s i).rxFsn
      match msg with
      | none => flitBad (bump s .fab i 0x144 1) i lane mine
      | some m =>
        let b := lineFlit m
        let w := leAt b 0 8
        let fsn := bits w 0 16
        if leAt b 0x278 8 ≠ crc64 (slice b 0 0x278) then flitBad s i lane mine
        else
          let s := flitHeader s i lane b
          let x := port s i
          let gap := fsn ≠ x.rxFsn && !fsnLe fsn x.rxFsn && !x.nakOut
          if !bit w 33 then (if gap && skewOver then flitBad s i lane false else s)
          else if fsn = x.rxFsn then takeEarly (takeData s i (slice b 0x10 608)) i x.early.length
          else if !gap then s
          else if skewOver then flitBad s i lane false
          else modPort s i (fun x => { x with
            early := x.early.filter (fun e => e.1 ≠ fsn) ++ [(fsn, slice b 0x10 608)] }))

/-! ### Link control (R300, R317, R318, R325) -/

/-- Lanes that a partner's set excludes: usable ones below the highest lane of the set that it leaves out. -/
def excludedBy (s : State) (i lanes : Nat) : Nat :=
  let top := ((onesBelow lanes 17).getLastD 0)
  maskOf ((onesBelow (lanesUsable s i) 17).filter (fun n => decide (n < top) && !bit lanes n))

/-- A port that carries asks its partner for STANDBY (R325). -/
def askStandby (s : State) (i : Nat) : State :=
  if portUp s i then
    let s := askCtl s i 5 0 false
    modPort s i (fun x => { x with standbySent := true, standbyTok := x.token })
  else s

/-- The partner leaves lanes out of the set: retired, each recorded and swept, or excluded temporarily; and it admits those of its set
again (R315, R316). -/
def takeLanes (s : State) (i lanes : Nat) (temp both : Bool) : State :=
  let s := if both then s else rset s .fab i 0x114 (rget s .fab i 0x114 &&& wd (0x1FFFF ^^^ lanes))
  let ex := excludedBy s i lanes
  if temp then rset s .fab i 0x114 (rget s .fab i 0x114 ||| wd ex)
  else (onesBelow ex 17).foldl (fun s n => markRetired (recErr s eFabLaneRetired i n 0 noCtag) i n) s

/-- The lane set becomes the one that a pause names: 16 lanes of it, else its 8 lowest, else the port is RETIRED (R305, R315). -/
def pauseSet (s : State) (i lanes : Nat) : State :=
  if chooseSet lanes = 0 then fabRetire s i 10
  else setFab (setLanes (modPort s i (fun x => { x with pauseLanes := chooseSet lanes })) i (chooseSet lanes)) i psPaused 0

/-- PAUSE_REQ (R317, R318): DATA flits stop, the exclusions of the partner are taken over, PAUSE_ACK names the new set, which
is the intersection when the package's own request is still unanswered. The pause goes before an own STANDBY_REQ. -/
def execPauseReq (i token lanes : Nat) (temp : Bool) (s : State) : Host.Outcome State Fault Refusal :=
  .next (
    let x := port s i
    if !([4, 5, 6].contains (fabState s i)) || x.lastToken = token then s
    else
      let both := fabState s i = 6 && x.pauseOwn && !x.pauseAcked
      let set := if both then lanes &&& x.pauseLanes else lanes
      let s := dropCtl (takeLanes s i lanes temp both) i 5
      let s := modPort s i (fun x => { x with
        lastToken := token, pauseOwn := both, resumeSent := false, resumed := false })
      linkCtl (pauseSet s i set) i 2 token set false)

/-- PAUSE_ACK (R317): the deciding end transmits on the new set. -/
def execPauseAck (i token lanes : Nat) (s : State) : Host.Outcome State Fault Refusal :=
  .next (
    let x := port s i
    if fabState s i = 6 && x.pauseOwn && !x.pauseAcked && x.token = token then
      pauseSet (dropCtl (modPort s i (fun x => { x with pauseAcked := true })) i 1) i lanes
    else s)

/-- PAUSE_COMPLETE (R317): with every DATA flit sent before the pause acknowledged, RESUME is sent, with the TOKEN of the pause, and
the port carries again at the width of the set. A STANDBY_REQ that waited is sent again (R318). -/
def execPauseComplete (i : Nat) (s : State) : Host.Outcome State Fault Refusal :=
  .next (
    let x := port s i
    if fabState s i ≠ 6 || (x.pauseOwn && !x.pauseAcked) || !x.replay.isEmpty then s
    else
      let s := modPort (bump s .fab i 0x148 1) i (fun x => { x with resumeSent := true, pauseOwn := false, pauseAcked := false })
      let s := fabCarry (linkCtl s i 3 (if x.pauseOwn then x.token else x.lastToken) 0 false) i x.pauseLanes
      if x.standbySent && portUp s i then askStandby s i else s)

/-- LINK_RESUME (R317): the partner has resumed. -/
def execLinkResume (r : PortToken) (s : State) : Host.Outcome State Fault Refusal :=
  .next (if [4, 5, 6].contains (fabState s r.port) && newToken s r.port 3 r.token then
    modPort (markToken s r.port 3 r.token) r.port (fun x => { x with resumed := true }) else s)

/-- RETRAIN_REQ (R305). -/
def execRetrainReq (r : PortToken) (s : State) : Host.Outcome State Fault Refusal :=
  .next (if [4, 5, 6].contains (fabState s r.port) && newToken s r.port 4 r.token then
    fabRetrain (markToken s r.port 4 r.token) r.port 2 else s)

/-- Entry to STANDBY (R325): only the lowest lane of the set keeps transmitting. -/
def fabStandby (s : State) (i : Nat) : State :=
  let st := fabState s i
  setFab (modPort (standbyLasers (dropCtl s i 5) i true) i (fun x => { x with prior := st, standbySent := false })) i psStandby 0

/-- STANDBY_REQ (R325). -/
def execStandbyReq (i token : Nat) (s : State) : Host.Outcome State Fault Refusal :=
  .next (if portUp s i && newToken s i 5 token then fabStandby (linkCtl (markToken s i 5 token) i 6 token 0 false) i else s)

/-- STANDBY_ACK (R305, R325): the answer to the package's own request. -/
def execStandbyAck (i token : Nat) (s : State) : Host.Outcome State Fault Refusal :=
  .next (if portUp s i && (port s i).standbySent && (port s i).standbyTok = token then fabStandby s i else s)

/-- WAKE sent or received (R305): the state before STANDBY; a lane that became permanent meanwhile takes a pause now
(R318). -/
def wakePort (s : State) (i : Nat) (sent : Bool) : State :=
  if fabState s i ≠ 8 then s
  else
    let s := standbyLasers (if sent then askCtl s i 7 0 false else s) i false
    let s := setFab s i (port s i).prior 0
    if chooseSet (lanesUsable s i) ≠ laneSet s i then startPause s i else s

/-- WAKE (R305): sent by the package, or received with a TOKEN. -/
def execWake (i : Nat) (received : Option Nat) (s : State) : Host.Outcome State Fault Refusal :=
  .next (match received with
    | none => wakePort s i true
    | some t => if newToken s i 7 t then wakePort (markToken s i 7 t) i false else s)

/-- KEEPALIVE (R325): every 10 µs in STANDBY, in an IDLE flit on the lowest lane. -/
def execKeepalive (i : Nat) (s : State) : Host.Outcome State Fault Refusal :=
  .next (if fabState s i = 8 then sendIdle (askCtl s i 8 0 false) i ((onesBelow (laneSet s i) 17).headD 0) else s)

/-! ### Lane health (R314, R316) -/

/-- LANE_BER_WINDOW (R314): a 10 ms window of a lane ends with a pre-FEC BER of m × 10⁻ᵉ. -/
def execLaneBerWindow (i lane m e : Nat) (s : State) : Host.Outcome State Fault Refusal :=
  .next (
    let th := rget s .fab i 0x138
    let a := 0x200 + 0x10 * lane
    let s := rset s .fab i (0x204 + 0x10 * lane) (packFields [(0, m % 256), (8, e % 256)])
    let marg := berAbove m e (max 1 (fld th 23 16)) 6
    let above := berAbove m e (max 1 (fld th 15 8)) 5
    let again := (port s i).berOver.contains lane
    let s := modPort s i (fun x => { x with
      berOver := if above then lane :: x.berOver.filter (· ≠ lane) else x.berOver.filter (· ≠ lane) })
    let was := wbit (rget s .fab i a) 3
    let s := rset s .fab i a (setBit (rget s .fab i a) 3 marg)
    let s := if marg && !was then recErr s eFabLaneMarginal i lane 0 noCtag else s
    if above && again then retireLane s i lane else s)

/-- LANE_UNCORR_WINDOW (R314): a 1 ms window of a lane ends. -/
def execLaneUncorrWindow (i lane count : Nat) (s : State) : Host.Outcome State Fault Refusal :=
  .next (
    let a := 0x200 + 0x10 * lane
    let s := rset s .fab i a (setFld (rget s .fab i a) 31 16 (min 0xFFFF count))
    if max 1 (fld (rget s .fab i 0x138) 7 0) < count then retireLane s i lane else s)

/-- LANE_LOCK_LOSS (R305, R314, R316): lanes lose lock within 1 µs. -/
def execLaneLockLoss (i lanes : Nat) (s : State) : Host.Outcome State Fault Refusal :=
  .next (
    let n := popBelow lanes 17
    let st := fabState s i
    let s := setLocks s i lanes false
    if 9 ≤ n then
      if [3, 4, 5, 6, 7, 8, 9].contains st then recErr (fabDown s i) eFabLinkDown i 0 0 noCtag else s
    else if 2 ≤ n then
      let ex := lanes &&& (0x1FFFF ^^^ lanesRetired s i)
      if st < 3 || st = 10 then s
      else lanesChanged (rset s .fab i 0x114 (rget s .fab i 0x114 ||| wd ex)) i
    else
      modPort s i (fun x => { x with
        lockLoss := (onesBelow lanes 17).map (fun l => (l, s.us)) ++ x.lockLoss.filter (fun e => within s 1000000 e.2) }))

/-- LANE_LOCK_TIMEOUT (R314): a lane stays unlocked beyond 1 µs, or has lost lock three times within 1 s. -/
def execLaneLockTimeout (i lane : Nat) (s : State) : Host.Outcome State Fault Refusal :=
  .next (
    let locked := wbit (rget s .fab i (0x200 + 0x10 * lane)) 4
    let losses := ((port s i).lockLoss.filter (fun e => e.1 = lane && within s 1000000 e.2)).length
    if (!locked && !bit (lanesTemp s i) lane) || 3 ≤ losses then retireLane s i lane else s)

/-- LANE_RELOCK (R314, R316). -/
def execLaneRelock (i lane : Nat) (s : State) : Host.Outcome State Fault Refusal :=
  .next (if bit (lanesRetired s i) lane then s else setLocks s i (1 <<< lane) true)

/-- LANE_RETRAIN_COMPLETE (R316): a lane excluded temporarily is admitted again through a pause. -/
def execLaneRetrainComplete (i lane : Nat) (s : State) : Host.Outcome State Fault Refusal :=
  .next (
    if bit (lanesTemp s i) lane && wbit (rget s .fab i (0x200 + 0x10 * lane)) 4 then
      lanesChanged (rset s .fab i 0x114 (setBit (rget s .fab i 0x114) lane false)) i
    else s)

/-- LANE_DARK_TIMEOUT (R316): a lane excluded temporarily is still dark after 50 ms. -/
def execLaneDarkTimeout (i lane : Nat) (s : State) : Host.Outcome State Fault Refusal :=
  .next (
    if bit (lanesTemp s i) lane && !wbit (rget s .fab i (0x200 + 0x10 * lane)) 4 then retireLane s i lane else s)

end Sys2Proof.Machine
end

