-- ==== Sys2Proof/Machine/Optics.lean ====
section
/-!
DEFINITION. The optical engines: lasers, temperature and reflectometry (R319 to R324, R329).
-/
namespace Sys2Proof.Machine

/-- An engine, and its change. -/
def engine (s : State) (i : Nat) : Engine := mgetD s.engines i {}
def modEngine (s : State) (i : Nat) (f : Engine → Engine) : State := { s with engines := mupd s.engines i {} f }

/-- Change a laser: state, WARN. -/
def modLaser (s : State) (i l : Nat) (f : Nat × Bool → Nat × Bool) : State :=
  modEngine s i (fun e => { e with lasers := mupd e.lasers l (0, false) f })

/-- State of a laser: 3 FAILED. -/
def laserState (s : State) (i l : Nat) : Nat := (mgetD (engine s i).lasers l (0, false)).1

/-- Lanes of group Gk (R319). -/
def groupLanes (k : Nat) : Nat := (0xF <<< (4 * k)) ||| (if k = 0 then 0x10000 else 0)

/-- The laser that feeds a group, and the group that a laser feeds (R329, OPT_LASER_MAP). -/
def groupLaser (s : State) (i k : Nat) : Nat := fld (rget s .opt i 0x108) (4 * k + 2) (4 * k)
def laserGroup (s : State) (i l : Nat) : Option Nat := (List.range 4).find? (fun k => groupLaser s i k = l)

/-- Is L4 free: in use by no group, not warming, not failed? -/
def spareFree (s : State) (i : Nat) : Bool :=
  !wbit (rget s .opt i 0x108) 16 && (engine s i).warming.isNone && laserState s i 4 ≠ 3

/-- L4 warms up for a group. -/
def warmSpare (s : State) (i k : Nat) (planned : Bool) : State :=
  modLaser (modEngine s i (fun e => { e with warming := some (k, planned) })) i 4 (fun x => (1, x.2))

/-- OPT_LASER_WARN (R320). -/
def execOptLaserWarn (i l : Nat) (s : State) : Host.Outcome State Fault Refusal :=
  .next (
    match laserGroup s i l with
    | none => s
    | some k =>
      if !modeO s i || laserState s i l = 3 then s
      else
        let s := recErr (modLaser s i l (fun x => (x.1, true))) eOptLaserWarn i (0x20 + l) 0 noCtag
        if spareFree s i && l ≠ 4 then warmSpare s i k true else s)

/-- OPT_LASER_FAULT (R320): with L4 free its group is excluded with TEMP while L4 warms up; else the group's lanes are
retired, with OPT_LASER_FAILED. -/
def execOptLaserFault (i l : Nat) (s : State) : Host.Outcome State Fault Refusal :=
  .next (
    if !modeO s i || laserState s i l = 3 then s
    else
      let s := modLaser s i l (fun x => (3, x.2))
      match laserGroup s i l with
      | none => s
      | some k =>
        let lanes := groupLanes k &&& (0x1FFFF ^^^ lanesRetired s i)
        if spareFree s i && l ≠ 4 then
          let s := setLocks (warmSpare s i k false) i lanes false
          lanesChanged (rset s .fab i 0x114 (rget s .fab i 0x114 ||| wd lanes)) i
        else
          let s := setEngine (recErr s eOptLaserFailed i (0x20 + l) 0 noCtag) i 2
          (onesBelow lanes 17).foldl (fun s n => retireLane s i n) s)

/-- LASER_WARM_COMPLETE (R320): the group moves to L4 with one pause. -/
def execLaserWarmComplete (i : Nat) (s : State) : Host.Outcome State Fault Refusal :=
  .next (
    match (engine s i).warming with
    | none => s
    | some (k, planned) =>
      let old := groupLaser s i k
      let s := modEngine s i (fun e => { e with warming := none })
      if laserState s i 4 = 3 then s
      else
        let s := modLaser s i 4 (fun x => (2, x.2))
        let s := if planned then modLaser s i old (fun x => (0, x.2)) else s
        let s := rset s .opt i 0x108 (setBit (setFld (rget s .opt i 0x108) (4 * k + 2) (4 * k) 4) 16 true)
        let s := recErr s eOptLaserSpared i (0x20 + old) 0 noCtag
        let s := setEngine s i (if fld (rget s .opt i 0x100) 1 0 = 1 then 1 else 2)
        if planned then lanesChanged s i
        else
          let lanes := groupLanes k &&& lanesTemp s i
          lanesChanged (setLocks (rset s .fab i 0x114 (rget s .fab i 0x114 &&& wd (0x1FFFF ^^^ groupLanes k))) i lanes true) i)

/-- OPT_TEMP_READ (R321): the temperature in °C, or none when the sensor fails. -/
def execOptTempRead (i : Nat) (t : Option Nat) (s : State) : Host.Outcome State Fault Refusal :=
  .next (
    let hot := match t with | some t => decide (85 < t) | none => true
    let was := wbit (rget s .opt i 0x104) 8
    let s := rset s .opt i 0x104 (packFields [(0, min 255 (t.getD 0)), (8, b2n hot), (31, b2n t.isSome)])
    if !modeO s i then s
    else
      let s := if hot && !was then recErr s eOptHot i 0 0 noCtag else s
      match t with
      | none => s
      | some t =>
        if 95 < t && (!(engine s i).overtemp || fabState s i ≠ 0) then
          let s := recErr (modEngine s i (fun e => { e with overtemp := true })) eOptOvertemp i 0 0 noCtag
          if fabState s i = 0 then s else fabDisable s i 8
        else if t < 80 && (engine s i).overtemp then
          let s := modEngine s i (fun e => { e with overtemp := false })
          if fabState s i = 0 && fld (rget s .fab i 0x100) 11 8 = 8 then fabEnable s i else s
        else s)

/-! ### Reflectometry (R322 to R324) -/

/-- GRADE of an event (R322). -/
def reflGrade (e : ReflEvent) : Nat :=
  if e.dark then 3
  else if e.loss ≤ 6 && 90 ≤ e.refl then 0
  else if e.loss ≤ 15 && 70 ≤ e.refl then 1
  else if e.loss ≤ 60 && 40 ≤ e.refl then 2
  else 3

/-- Is a sweep running? -/
def sweeping (s : State) (i : Nat) : Bool := wbit (rget s .opt i 0x124) 0

/-- A sweep of fibres starts: ignored while one runs or the port is DISABLED; NOT_OPTICAL in E-mode and PROBE_FAIL without
a probe complete at once. -/
def sweepStart (s : State) (i : Nat) (fibres : List Nat) : State :=
  if sweeping s i then s
  else if !modeO s i then reflStatus s i false true false 1 0 false
  else if fabState s i = 0 then s
  else if (engine s i).probeFailed then reflStatus s i false true false 2 0 false
  else reflStatus (modEngine s i (fun e => { e with sweep := fibres, abort := false })) i true false false 0 (fibres.headD 0) false

/-- OPT_REFL_START (R324): one fibre, or with 0x3F all. -/
def execOptReflStart (req : Req) (i fibre : Nat) (s : State) : Host.Outcome State Fault Refusal :=
  .next (guardWrite s req .opt i 0x120 (fun s =>
    if fibre = 0x3F then sweepStart s i (List.range 34) else if fibre < 34 then sweepStart s i [fibre] else s))

/-- OPT_REFL_PERIODIC (R323). -/
def execOptReflPeriodic (i : Nat) (s : State) : Host.Outcome State Fault Refusal :=
  .next (
    if fld (rget s .opt i 0x11C) 7 0 = 0 || !modeO s i then s else sweepStart s i (List.range 34))

/-- OPT_REFL_ABORT (R324): the sweep ends after the current fibre. -/
def execOptReflAbort (req : Req) (i : Nat) (s : State) : Host.Outcome State Fault Refusal :=
  .next (guardWrite s req .opt i 0x120 (fun s =>
    if sweeping s i then modEngine s i (fun e => { e with abort := true }) else s))

/-- OPT_REFL_WORST of a fibre. -/
def setWorst (s : State) (i f g : Nat) : State :=
  let a := 0x170 + 4 * (f / 16)
  rset s .opt i a (setFld (rget s .opt i a) (2 * (f % 16) + 1) (2 * (f % 16)) g)

/-- The events of a fibre are recorded: each graded DEGRADED or worse as OPT_CONNECTOR, with an event at DIRTY or BROKEN. -/
def reflRecord (s : State) (i f : Nat) (evs : List ReflEvent) : State :=
  let evs := evs.take 8
  let s := modEngine s i (fun e => { e with events := mput e.events f evs })
  let s := setWorst s i f (maxList (evs.map reflGrade) 0)
  evs.foldl (fun s e =>
    let g := reflGrade e
    if g = 0 then s else recErr s { eOptConnector with event := decide (2 ≤ g) } i f (g + e.dist * 4) noCtag) s

/-- REFL_FIBRE_COMPLETE (R323): suspended during a pause or a laser swap (R324). -/
def execReflFibreComplete (i : Nat) (evs : List ReflEvent) (s : State) : Host.Outcome State Fault Refusal :=
  .next (
    match (engine s i).sweep with
    | [] => s
    | f :: rest =>
      if !sweeping s i || fabState s i = 0 || fabState s i = 6 || (engine s i).warming.isSome then s
      else
        let s := reflRecord s i f evs
        let stop := (engine s i).abort
        if stop || rest.isEmpty then
          reflStatus (modEngine s i (fun e => { e with sweep := [], abort := false })) i false true (stop && !rest.isEmpty) 0 f true
        else reflStatus (modEngine s i (fun e => { e with sweep := rest })) i true false false 0 (rest.headD 0) false)

/-- OPT_PROBE_FAIL (R324). -/
def execOptProbeFail (i : Nat) (s : State) : Host.Outcome State Fault Refusal :=
  .next (
    let s := modEngine s i (fun e => { e with probeFailed := true })
    let s := rset s .opt i 0x100 (setBit (rget s .opt i 0x100) 4 false)
    let s := recErr s eOptProbeFail i 0 0 noCtag
    if sweeping s i then reflStatus (modEngine s i (fun e => { e with sweep := [] })) i false true false 2 0 false else s)

end Sys2Proof.Machine
end

