-- ==== Sys2Proof/Machine/Peal.lean ====
section
/-!
DEFINITION. Fatal failures of bring-up, and the peal (R370, R371, R381 to R386).
-/
namespace Sys2Proof.Machine

/-- Causes of a fatal failure in BST_BOOT_RESULT (R401). -/
def bootFuse : Nat := 1
def bootBaseDie : Nat := 2
def bootComputeDie : Nat := 3
def bootHostPort : Nat := 4
def bootPeal : Nat := 5

/-- A fatal failure (R371): the first makes the sequence run again from S2; the second sets BOOT_FAILED, powers the dies down
and asks for a power cycle (R469). One that meets a package in operation asks for a chip reset, whose sequence starts at
S2. -/
def bootFatal (s : State) (cause : Nat) : State :=
  let s := recErr s eBootStageFail 0 (bootStage s) cause noCtag
  if bootStage s = 7 then requestChip s 6 true (page .bst 0)
  else if s.bootRetried then
    let s := rset s .bst 0 0x100 (setFld (setBit (rget s .bst 0 0x100) 3 true) 7 4 cause)
    powerCycleReq (holdAtS1 s) (if s.chipReset.isSome then 2 else 1)
  else setStage { s with bootRetried := true, pealCores := [] } 1

/-- A core's peal state, and its change. -/
def pealCore (s : State) (n : Nat) : Option PealCore := mget s.pealCores n
def modPeal (s : State) (n : Nat) (f : PealCore → PealCore) : State :=
  { s with pealCores := s.pealCores.map (fun e => if e.1 = n then (n, f e.2) else e) }

/-- PEAL_CHUNK (R382, R383): accepted when IMAGE_ID matches, the scope includes the core and CRC is good; a chunk that is
already there is ignored. -/
def execPealChunk (n : Nat) (b : List Byte) (s : State) : Host.Outcome State Fault Refusal :=
  .next (
    match pealCore s n with
    | none => s
    | some c =>
      let k := leAt b 4 2
      let scope := if leAt b 8 1 = 0 then c.pkg else leAt b 8 1 = 1 && !c.pkg && leAt b 9 1 = partOfCore s n
      if c.ended || c.done || c.failed || leAt b 0 4 ≠ c.id || c.total ≤ k || !scope ||
          leAt b 0xC 4 ≠ crc32c (slice b 0x20 4096) || c.have_.contains k then s
      else modPeal s n (fun c => { c with
        have_ := k :: c.have_, data := mput c.data k (slice b 0x20 4096), crc := leAt b 0x10 8 }))

/-- PEAL_END (R384): the core begins to fetch its missing chunks. -/
def execPealEnd (n : Nat) (s : State) : Host.Outcome State Fault Refusal :=
  .next (modPeal s n (fun c => { c with ended := true }))

/-- A core fails the peal (R384): retired, in the field record, and out of its cluster's map. -/
def pealFail (s : State) (n : Nat) : State :=
  let s := modPeal s n (fun c => { c with failed := true })
  let s := modCluster s (coreClu n) (fun c => { c with pealFailed := c.pealFailed ||| (1 <<< coreJ n) })
  formMap (retireCore s n 2) (coreClu n)

/-- Damaged copies of a tile's peal store: found damaged, or excluded by BIST (R386, R395). -/
def storeBad (s : State) (tile : Nat) : Nat :=
  mgetD s.pealBad tile 0 |||
    maskOf ((s.bist.excluded.filter (fun e => e.1 = 9 && e.2.1 = tile)).map (fun e => e.2.2 / 32))

/-- Both copies of a store are damaged (R386): the stores are written anew and the peal is repeated once; the second time
is fatal. -/
def storeFail (s : State) (c : PealCore) (n : Nat) : State :=
  let t := coreTile n
  if c.again then
    bootFatal (recErr { s with pealCores := s.pealCores.filter (fun e => e.2.pkg ≠ c.pkg || (!c.pkg && partOfCore s e.1 ≠ partOfCore s n)) }
      ePealStoreFail 0 t 0 noCtag) bootPeal
  else pealStart { s with pealBad := mdel s.pealBad t } (if c.pkg then none else some (partOfCore s n)) true

/-- A pass over the missing chunks: those that take, and IMAGE_CRC over the control store once every chunk is there. -/
def pealPass (s : State) (n : Nat) (c : PealCore) (fails : List Nat) : State :=
  let img := coreImage s
  let missing := (List.range c.total).filter (fun k => !c.have_.contains k)
  let took := missing.filter (fun k => !fails.contains k)
  let c := { c with
    have_ := took ++ c.have_, data := took.foldl (fun m k => mput m k (slice img (4096 * k) 4096)) c.data
    passes := c.passes + 1 }
  let s := bump s .clu (coreClu n) 0x11C took.length
  let s := if missing.isEmpty then s else recErr s ePealFetch (coreClu n) (coreJ n) 0 noCtag
  let all := (List.range c.total).all (fun k => c.have_.contains k)
  if all && crc64 ((List.range c.total).flatMap (fun k => mgetD c.data k [])) = c.crc then
    modPeal s n (fun _ => { c with done := true })
  else
    let s := modPeal s n (fun _ => if all then { c with have_ := [], data := [] } else c)
    if 3 ≤ c.passes then pealFail s n else s

/-- PEAL_FETCH_PASS (R384): `fails` are the chunks that do not take in this pass, `damage` the copies of the tile's peal
store that it finds damaged, bit 0 the first. -/
def execPealFetchPass (n : Nat) (fails : List Nat) (damage : Nat) (s : State) : Host.Outcome State Fault Refusal :=
  .next (
    match pealCore s n with
    | none => s
    | some c =>
      if !c.ended || c.done || c.failed then s
      else
        let s := if damage % 4 = 0 then s else
          { s with pealBad := mput s.pealBad (coreTile n) (mgetD s.pealBad (coreTile n) 0 ||| damage % 4) }
        if storeBad s (coreTile n) = 3 then storeFail s c n else pealPass s n c fails)

end Sys2Proof.Machine
end

