-- ==== Sys2Proof/Machine/Bist.lean ====
section
/-!
DEFINITION. Periodic BIST slices, direct BIST and scan (R391 to R401). A slice holds its region and gives it back as it
was, so between its start and its end no other command finds it changed.
-/
namespace Sys2Proof.Machine

/-- Regions of an instance of a class (R393). -/
def bistRegions (c : Nat) : Nat :=
  match c with
  | 0 => 98 | 1 => 1 | 2 => 1 | 3 => 8 | 4 => 64 | 5 => 32 | 6 => 48 | 7 => 17 | 8 => 1280 | _ => 64

/-- Instances of a class: banks by 16 × slice, 64 × core and 8 × core; cores, MMUs, ports, base dies. -/
def bistCount (c : Nat) : Nat :=
  match c with
  | 0 => 1024 | 1 => 73728 | 2 => 9216 | 7 => 64 | 8 => 8 | 9 => 4 | _ => if c ≤ 6 then 1152 else 0

/-- The core of an instance of classes 1 to 6. -/
def bistCore (c i : Nat) : Nat := if c = 1 then i / 64 else if c = 2 then i / 8 else i

/-- The partition of an instance, when one owns it. -/
def bistPart (s : State) (c i : Nat) : Option Nat :=
  if c = 0 then some (partOfSlice s (i / 16))
  else if c ≤ 6 then some (partOfCore s (bistCore c i))
  else if c = 7 then some (partOfClu s i)
  else if c = 8 then some (partOfPipe s i) else none

/-- The instance that BST_LAST_FAIL names, and the region in it (R401). -/
def failInst (c i : Nat) : Nat := if c = 0 then i / 16 else if c ≤ 6 then bistCore c i else i
def failRegion (c i r : Nat) : Nat :=
  if c = 0 then (i % 16) * 98 + r else if c = 1 then i % 64 else if c = 2 then i % 8 else r

/-- BST_LAST_FAIL. -/
def setLastFail (s : State) (b : BistSlice) (permanent : Bool) : State :=
  let s := rset s .bst 0 0x120 (packFields [(0, b.cls), (8, failInst b.cls b.inst)])
  rset s .bst 0 0x124 (packFields [(0, failRegion b.cls b.inst b.region), (16, b2n permanent)])

/-- The slice of an instance in a phase. -/
def sliceOf (s : State) (c i phase : Nat) : Option BistSlice :=
  s.bist.slices.find? (fun b => b.cls = c && b.inst = i && b.phase = phase)

/-- Put the slice of an instance in a phase, or drop it. -/
def setPhase (s : State) (c i : Nat) (phase : Option Nat) : State :=
  { s with bist := { s.bist with slices := s.bist.slices.filterMap (fun b =>
    if b.cls = c && b.inst = i then phase.map (fun p => { b with phase := p }) else some b) } }

/-- BIST_SLICE_SCHEDULE (R393): the interval of an instance expires. -/
def execBistSliceSchedule (c i : Nat) (s : State) : Host.Outcome State Fault Refusal :=
  .next (
    if !wbit (rget s .bst 0 0x110) 0 || 10 ≤ c || bistCount c ≤ i || fld (rget s .bst 0 (0x140 + 4 * c)) 15 0 = 0 ||
        2 ≤ s.power.st || s.power.moving.isSome || s.chipReset.isSome || s.bist.scanning ||
        s.bist.slices.any (fun b => b.cls = c && b.inst = i) then s
    else { s with bist := { s.bist with slices := s.bist.slices ++
      [{ cls := c, inst := i, region := mgetD s.bist.next (131072 * c + i) 0,
         part := mgetD s.bist.part (131072 * c + i) 0, len := 16 - mgetD s.bist.part (131072 * c + i) 0 }] } })

/-- Sixteenths of a region that one slice takes at the clock of the island that holds the array (R393): halved at each
halving of the clock. An MMU is held by its cluster network's island (DEDUCED, log entry 72). -/
def sliceSpan (s : State) (c i : Nat) : Nat :=
  if c = 0 then (if islandHalf s (8192 + i / 256) then 8 else 16)
  else if c ≤ 6 then
    let x := coreClock16 s (bistCore c i)
    if 8 < x then 16 else if 4 < x then 8 else if 2 < x then 4 else if 1 < x then 2 else 1
  else if islandHalf s ((if c = 7 then 4096 else if c = 8 then 16384 else 8192) + i) then 8 else 16

/-- A slice as it runs now: no longer than the clock allows. -/
def sliceCut (s : State) (b : BistSlice) : BistSlice := { b with len := min b.len (sliceSpan s b.cls b.inst) }

/-- The slice of an instance takes the length that the clock allows, and goes into a phase. -/
def sliceBegin (s : State) (c i phase : Nat) : State :=
  { s with bist := { s.bist with slices := s.bist.slices.map (fun b =>
    if b.cls = c && b.inst = i then { sliceCut s b with phase := phase } else b) } }

/-- Is the instance of a class a bank: of staging SRAM, local memory or accumulators? -/
def bistBank (c : Nat) : Bool := decide (c ≤ 2)

/-- Does the part of a replay buffer that a slice tests hold a flit that awaits acknowledgement (R394)? The flit of
sequence number f lies at 640 × f of the 10 MiB buffer. -/
def replayHolds (s : State) (b : BistSlice) : Bool :=
  let lo := 8192 * b.region + 512 * b.part
  (port s b.inst).replay.any (fun e =>
    decide (640 * (e.1 % 16384) < lo + 512 * b.len) && decide (lo < 640 * (e.1 % 16384) + 640))

/-- May a slice start (R43, R394, R396): no slice of its bank within 10 ms, no reset of its partition, no power state above A1, no
TE operation on its bank, no flit in its region that awaits acknowledgement, the dump region not closed? -/
def sliceAdmitted (s : State) (b : BistSlice) : Bool :=
  !(bistBank b.cls && (match mget s.bist.last (131072 * b.cls + b.inst) with
    | some t => decide (s.us < t + 10000) | none => false)) &&
  decide (s.power.st < 2) && s.power.moving.isNone && s.chipReset.isNone && !s.bist.scanning &&
  (match bistPart s b.cls b.inst with | some p => (mget s.partReset p).isNone | none => true) &&
  !(b.cls = 8 && replayHolds s (sliceCut s b)) &&
  !(b.cls = 2 && (core s (b.inst / 8)).teRun.any (fun x => x.bank = b.inst % 8)) &&
  !(b.cls = 0 && dumpClosed s && (decide (b.inst / 16 < 2) || (b.inst / 16 = 2 && decide (b.region < 64))))

/-- Item `g` of the part of the region that a slice tests, of the `n` items in a sixteenth of a region. -/
def sliceItem (b : BistSlice) (n g : Nat) : Nat := n * b.part + g % (n * b.len)

/-- Does a slice test item `r` of its region, of the `n` items in a sixteenth? -/
def sliceHas (b : BistSlice) (n r : Nat) : Bool := decide (n * b.part ≤ r) && decide (r < n * (b.part + b.len))

/-- The DPA of granule `g` of a slice of class 0 or 1, of the 256 granules of a region; class 0 regions from 96 are spare
rows. -/
def sliceGranule (b : BistSlice) (g : Nat) : Option Nat :=
  let g := sliceItem b 16 g
  if b.cls = 0 then
    if b.region < 96 then some (sliceDpa (b.inst / 16) + b.region * 0x40000 + g * 1024 + (b.inst % 16) * 64) else none
  else if b.cls = 1 then some (lmDpa (b.inst / 64) + g * 4096 + (b.inst % 64) * 64)
  else none

/-- What saving the region finds (`g` the granule of a memory region, the object of a block of sync objects): a correctable error under the memory's own code; an uncorrectable one leaves the granule
poisoned, with BIST_SHADOW_ECC (R395). -/
def sliceSave (s : State) (b : BistSlice) (g : Nat) (ecc : Ecc) : State :=
  let d := sliceGranule b g
  match ecc with
  | .none => s
  | .corr | .memCorr _ | .memPermanent _ =>
    (match d with
      | some d => memCorr s d (match ecc with | .memPermanent _ => true | _ => false)
      | none =>
        let n := bistCore b.cls b.inst
        if b.cls = 2 then recErr s eTeAccEccCorr n 0 0 noCtag
        else if b.cls = 3 then recErr s eVeRegEccCorr n 0 0 noCtag
        else if b.cls = 4 then recErr s eSynStateEccCorr n b.region (64 * b.region + sliceItem b 4 g) noCtag
        else s)
  | .uncorr | .memUncorr _ =>
    let s := match d with | some d => poisonGranule s (d / 64) | none => s
    recErr (setLastFail s b false) eBistShadowEcc 0 b.cls 0 noCtag

/-- BIST_SLICE_START (R394): the region is saved and tested. The entries of a TLB and walk cache are dropped. -/
def execBistSliceStart (c i g : Nat) (ecc : Ecc) (s : State) : Host.Outcome State Fault Refusal :=
  .next (
    match sliceOf s c i 0 with
    | none => s
    | some b =>
      if !sliceAdmitted s b then s
      else
        let x := sliceCut s b
        let s := { s with bist := { s.bist with last := mput s.bist.last (131072 * c + i) s.us } }
        let s := sliceSave (sliceBegin s c i 1) x g ecc
        if c = 7 then modCluster s i (fun x => { x with tlb := [], wc := [] }) else s)

/-- The place of an instance advances past the slice, to what is left of its region or to the next region, and at a full
pass its background advances (R393). -/
def bistNext (s : State) (b : BistSlice) : State :=
  let key := 131072 * b.cls + b.inst
  if b.part + b.len < 16 then
    { s with bist := { s.bist with next := mput s.bist.next key b.region, part := mput s.bist.part key (b.part + b.len) } }
  else if b.region + 1 < bistRegions b.cls then
    { s with bist := { s.bist with next := mput s.bist.next key (b.region + 1), part := mput s.bist.part key 0 } }
  else
    { s with bist := { s.bist with
      next := mput s.bist.next key 0, part := mput s.bist.part key 0, back := mput s.bist.back key ((mgetD s.bist.back key 0 + 1) % 4) } }

/-- BIST_SLICE_COMPLETE (R395): the region is restored; `ecc` is what the shadow buffer shows. A march failure is run
again. -/
def execBistSliceComplete (c i g : Nat) (pass : Bool) (ecc : Ecc) (s : State) : Host.Outcome State Fault Refusal :=
  .next (
    match sliceOf s c i 1 with
    | none => s
    | some b =>
      let s := bump s .bst 0 0x114 1
      let s := match ecc with
        | .uncorr | .memUncorr _ => sliceSave s b g .uncorr
        | _ => s
      if pass then bistNext (setPhase s c i none) b
      else setLastFail (bump (setPhase s c i (some 2)) .bst 0 0x11C 1) b false)

/-- The class's rule for a permanent failure (R395): `rows` are the failing rows, or entries, of the region; those outside
the part that the slice tests are not its. -/
def bistRule (s : State) (b : BistSlice) (rows : List Nat) : State :=
  if b.cls = 0 then
    (rows.filter (sliceHas b 1)).foldl (fun s r =>
      let i := b.inst / 16
      let bank := b.inst % 16
      if b.region < 96 then stgRowPermanent s i bank (b.region * 16 + r) false
      else match s.stgSubst.find? (fun e => e.1 = i && e.2.1 = bank && e.2.2.2 = (b.region - 96) * 16 + r) with
        | some e => stgRowPermanent s i bank e.2.2.1 false
        | none => { s with stgSpares := mput s.stgSpares b.inst (min 32 (mgetD s.stgSpares b.inst 0 + 1)) }) s
  else if b.cls ≤ 6 then corePending s (bistCore b.cls b.inst)
  else
    let s := { s with bist := { s.bist with excluded := (b.cls, b.inst, b.region) :: s.bist.excluded } }
    if b.cls = 7 then modCluster s b.inst (fun x => { x with
      tlbRetired := ((rows.map (fun r => r % 256)).filter (sliceHas b 16)).map (fun r => 256 * b.region + r) ++ x.tlbRetired }) else s

/-- BIST_SLICE_RETRY (R395): the repeat 10 ms later judges the failure. -/
def execBistSliceRetry (c i : Nat) (pass : Bool) (rows : List Nat) (s : State) : Host.Outcome State Fault Refusal :=
  .next (
    match sliceOf s c i 2 with
    | none => s
    | some b =>
      if !sliceAdmitted s b then s
      else
        let b := sliceCut s b
        let s := { s with bist := { s.bist with last := mput s.bist.last (131072 * c + i) s.us } }
        let s := bistNext (setPhase (bump s .bst 0 0x114 1) c i none) b
        if pass then recErr (setLastFail s b false) eBistTransient 0 c 0 noCtag
        else bistRule (recErr (setLastFail (bump s .bst 0 0x11C 1) b true) eBistPermanent 0 c 0 noCtag) b rows)

/-! ### Direct BIST and scan (R397 to R399) -/

/-- Does the test engine serve direct BIST and scan in the lifecycle state (R398): TEST, or RETURN with D3? -/
def testPermitted (s : State) : Bool := lcState s = 0 || (lcState s = 2 && debugD3 s)

/-- The partition that owns a block instance of a class for a direct BIST, when one does. -/
def directPart (s : State) (c i : Nat) : Option Nat :=
  if c = 0 then some (partOfSlice s i)
  else if c ≤ 6 then some (partOfCore s i)
  else if c = 7 then some (partOfClu s i)
  else if c = 8 then some (partOfPipe s i) else none

/-- Is a direct BIST refused (R397, R398, R449)? -/
def directRefused (s : State) (c i : Nat) : Bool :=
  !testPermitted s || decide (2 ≤ s.power.st) || decide (10 ≤ c) ||
  (match directPart s c i with | some p => !(partSlots s p).isEmpty | none => false)

/-- BST_DIRECT_CMD (R397): a write while one runs is ignored. -/
def execBstDirectCmd (req : Req) (v : Word) (s : State) : Host.Outcome State Fault Refusal :=
  .next (guardWrite s req .bst 0 0x128 (fun s =>
    let c := fld v 3 0
    let i := fld v 31 12
    if s.bist.direct.isSome then s
    else if directRefused s c i then recErr (rset s .bst 0 0x12C 0xA) eDirectRefused 0 c 0 noCtag
    else rset { s with bist := { s.bist with direct := some (c, i) } } .bst 0 0x12C 1))

/-- The contents of an instance after a direct BIST: zeros. -/
def directZero (s : State) (c i : Nat) : State :=
  match c with
  | 0 => zeroMem s (sliceDpa i) 0x1800000
  | 1 => zeroMem s (lmDpa i) 0x100000
  | 2 => modCore s i (fun x => { x with banks := [] })
  | 3 => modCore s i (fun x => { x with strands := [] })
  | 4 => modCore s i (fun x => { x with sync := [], relIndex := [] })
  | 5 => { s with pealCores := mdel s.pealCores i }
  | 6 => modCore s i (fun x => { x with streams := [] })
  | 7 => modCluster s i (fun x => { x with tlb := [], wc := [] })
  | 8 => modPort s i (fun x => { x with replay := [], resendFrom := none })
  | _ => { s with pealBad := mput s.pealBad i 3 }

/-- DIRECT_BIST_COMPLETE (R397). -/
def execDirectBistComplete (pass : Bool) (s : State) : Host.Outcome State Fault Refusal :=
  .next (
    match s.bist.direct with
    | none => s
    | some (c, i) =>
      rset (directZero { s with bist := { s.bist with direct := none } } c i) .bst 0 0x12C (packFields [(1, 1), (2, b2n pass)]))

/-- SCAN_REQUEST (R398, R399): refused, or contexts end, keys and memories are zeroised. -/
def execScanRequest (s : State) : Host.Outcome State Fault Refusal :=
  .next (
    if !testPermitted s || 2 ≤ s.power.st || s.bist.scanning then recErr s eScanRefused 0 0 0 noCtag
    else
      let s := clearPackage s
      rset { s with bist := { s.bist with scanning := true, slices := [] } } .dbg 0 0x130
        (setBit (rget s .dbg 0 0x130) 1 true))

/-- SCAN_OPEN (R399): the CLEARED latch is set, scan chains are enabled, the D3 grant ends (R444), and a power cycle is
asked for (R469). -/
def execScanOpen (s : State) : Host.Outcome State Fault Refusal :=
  .next (
    if !s.bist.scanning || s.bist.cleared then s
    else
      let s := endGrants { s with bist := { s.bist with cleared := true, scanOpen := true } } 0xFF
      powerCycleReq (rset s .dbg 0 0x130 0) 4)

end Sys2Proof.Machine
end

