-- ==== Sys2Proof/Machine/Power.lean ====
section
/-!
DEFINITION. Power states, grants, the fast loop, the brake and the power-fail sequence (R489 to R502, R509 to R511).
-/
namespace Sys2Proof.Machine

/-- L of the variant in watts (R373, R489). -/
def inputLimit (s : State) : Nat := if s.fuses.variant = 0 then 4000 else if s.fuses.variant = 1 then 3200 else 2500

/-- What PWR_LIMIT_CFG limits to: 0 is L, and a value acts within 0.5 × L to L (R511). -/
def cfgLimit (s : State) : Nat :=
  let v := fld (rget s .pwr 0 0x114) 15 0
  if v = 0 then inputLimit s else clamp (inputLimit s / 2) (inputLimit s) v

/-- L_eff without the brake (R492, R505). -/
def unbraked (s : State) : Nat := min (cfgLimit s) (inputLimit s - s.power.convCut)

/-- What L_eff is to be: the floor under the brake's stage 2, and while no controller holds the token (R492, R499, R519). -/
def effTarget (s : State) : Nat := if s.power.brake = 2 || bothDown s then min (unbraked s) s.power.floorW else unbraked s

/-- A lower limit applies at once; a higher one is reached under R500. -/
def lowerEff (s : State) : State := { s with power := { s.power with lEff := min s.power.lEff (effTarget s) } }

/-- PWR_BRAKE_FLOOR in watts. -/
def floorWatts (s : State) : Nat := clamp 25 50 (fld (rget s .pwr 0 0x118) 7 0) * inputLimit s / 100

/-- PWR_STATE (R511). -/
def pwrStateWord (s : State) : Word :=
  packFields [(0, s.power.st), (4, b2n s.power.brakePin), (5, b2n (decide (s.power.brake = 2))), (6, b2n s.power.failed),
    (7, b2n s.power.moving.isSome)]

/-- PWR_CLOCK_CAP: the fast loop's cap, and the issue duty in force (R498, R499). -/
def pwrClockWord (s : State) : Word := packFields [(0, s.fastCap), (8, max s.power.duty (b2n s.power.stage1))]

/-- PWR_POOL of a tile in watts. -/
def pwrPoolWord (s : State) (t : Nat) : Word :=
  packFields [(0, min 65535 (mgetD s.pools t 0 / 250)), (16, min 65535 (mgetD s.grants t 0 / 250))]

/-! ### Power states (R493 to R495) -/

/-- PWR_STATE_RESULT. -/
def pwrResult (s : State) (busy : Bool) (res : Nat) : State := rset s .pwr 0 0x108 (packFields [(0, b2n busy), (4, res)])

/-- Does a reset of any partition or of the chip, a dump collection or a direct BIST run (R493)? -/
def pwrBlocked (s : State) : Bool :=
  s.chipReset.isSome || !s.partReset.isEmpty || s.dump.isSome || s.bist.direct.isSome

/-- Does a peal run? -/
def anyPeal (s : State) : Bool := s.pealCores.any (fun e => !e.2.done && !e.2.failed)

/-- A command of the PF's register, or of the tray controller by PLDM (R493), while no transition runs. -/
def pwrCmd (s : State) (req : Req) (f : State → State) : State :=
  guardWrite s req .pwr 0 0x104 (fun s => if s.power.moving.isSome then s else f s)

/-- An A2 entry begins, on the way to `target` (R494). -/
def enterA2 (s : State) (target : Nat) : State :=
  if s.power.st = target || (s.power.st = 2 && target = 2) then pwrResult s false 0
  else if s.power.st = 3 then pwrResult s false 3
  else if s.power.st = 2 then pwrResult (diesOff s 9) false 0
  else if !allSlotsFree s then pwrResult s false 1
  else if pwrBlocked s then pwrResult s false 2
  else (List.range 8).foldl askStandby (pwrResult { s with power := { s.power with moving := some target } } true 0)

/-- A request for A0: A1 is left, an A2 exit begins with its package peal, or from A3, through PLDM with VIN48 present, the
chip reset is requested (R493). -/
def enterA0 (s : State) (pldm : Bool) : State :=
  if s.power.st = 2 then
    pealStart (pwrResult { s with power := { s.power with moving := some 0 } } true 0) none false
  else if s.power.st = 3 then
    if pldm && s.power.vin48 && !s.power.vauxLost && !s.thermal.tripped then
      pwrResult (requestChip s 3 false (page .pwr 0)) false 0
    else pwrResult s false 3
  else pwrResult (leaveA1 s) false 0

/-- PWR_STATE_CMD_A0 (R493). -/
def execPwrStateCmdA0 (req : Req) (s : State) : Host.Outcome State Fault Refusal :=
  .next (pwrCmd s req (fun s => enterA0 s (req = .car)))

/-- PWR_STATE_CMD_A2 (R493, R494). -/
def execPwrStateCmdA2 (req : Req) (s : State) : Host.Outcome State Fault Refusal :=
  .next (pwrCmd s req (fun s => enterA2 s 2))

/-- PWR_STATE_CMD_A3 (R493, R495). -/
def execPwrStateCmdA3 (req : Req) (s : State) : Host.Outcome State Fault Refusal :=
  .next (pwrCmd s req (fun s => enterA2 s 3))

/-- A1_IDLE_ENTRY (R493). -/
def execA1IdleEntry (s : State) : Host.Outcome State Fault Refusal :=
  .next (
    if s.power.st ≠ 0 || s.power.moving.isSome || fld (rget s .pwr 0 0x10C) 23 0 = 0 || !allSlotsFree s || anyPeal s ||
        s.chipReset.isSome || !s.partReset.isEmpty || s.dump.isSome then s
    else { s with power := { s.power with st := 1 } })

/-- HBM_STATE of every stack that is in use: `f` gives the new state of stack `k`. -/
def setStacks (s : State) (p : Nat → Bool) (f : State → Nat → Nat) : State :=
  (List.range 16).foldl (fun s k =>
    if p (fld (rget s .hbm k 0x100) 2 0) then rset s .hbm k 0x100 (wd (f s k)) else s) s

/-- The compute dies lose their power: local memory, accumulators, control stores, sync objects and cached translations
(R494). -/
def computeOff (s : State) : State :=
  { s with
    mem := s.mem.filter (fun e => e.1 < lmBase), poison := mfilter s.poison (fun g _ => 64 * g < lmBase), pealCores := []
    cores := s.cores.map (fun e => (e.1, { coreReset e.2 with lastWriter := [] }))
    clusters := s.clusters.map (fun e => (e.1, { e.2 with tlb := [], wc := [], lastWalk := none, traceOn := false })) }

/-- A2_ENTRY_COMPLETE (R494, R495): the stacks refresh themselves and the compute dies are off; when A3 was the request, it
follows. -/
def execA2EntryComplete (s : State) : Host.Outcome State Fault Refusal :=
  .next (
    match s.power.moving with
    | some t =>
      if t < 2 || 2 ≤ s.power.st then s
      else
        let s := computeOff (setStacks s (fun x => x = 2 || x = 4) (fun _ _ => 3))
        let s := pwrResult { s with power := { s.power with st := 2, moving := none } } false 0
        if t = 3 then diesOff s 9 else s
    | none => s)

/-- A2_EXIT_COMPLETE (R494): the peal has ended, the stacks leave self-refresh and the ports wake. -/
def execA2ExitComplete (s : State) : Host.Outcome State Fault Refusal :=
  .next (
    if s.power.moving ≠ some 0 || s.power.st ≠ 2 || anyPeal s then s
    else
      let s := setStacks s (fun x => x = 3) stackState
      let s := (List.range 8).foldl (fun s i => wakePort s i true) s
      pwrResult { s with power := { s.power with st := 0, moving := none } } false 0)

/-- PWR_STATE_FAIL (R513): an A2 exit is not complete within 30 ms. -/
def execPwrStateFail (s : State) : Host.Outcome State Fault Refusal :=
  .next (
    if s.power.moving ≠ some 0 then s
    else requestChip (recErr { s with power := { s.power with moving := none } } ePwrStateFail 0 0 0 noCtag) 6 true (page .pwr 0))

/-! ### Budgets and grants (R496, R497) -/

/-- POWER_GRANT (R496): the oldest request of a core is granted when the free part of its tile's pool covers it; one that
does not fit waits, and is counted. -/
def execPowerGrant (n k : Nat) (s : State) : Host.Outcome State Fault Refusal :=
  .next (
    match s.grantReqs.find? (fun q => q.1 = n) with
    | none => s
    | some q =>
      let t := coreTile n
      if q.2.1 ≠ k || frozen s then s
      else if q.2.2.1 + mgetD s.grants t 0 ≤ mgetD s.pools t 0 then
        let s := modSlot s n k (fun sl => { sl with granted := true, grantAsked := false })
        { s with
          grantReqs := eraseFirst (fun q => q.1 = n) s.grantReqs
          grants := mupd s.grants t 0 (· + q.2.2.1) }
      else if q.2.2.2 then s
      else
        bump { s with grantReqs := s.grantReqs.map (fun (x : Nat × Nat × Nat × Bool) =>
          if x.1 = n && x.2.1 = k then (n, k, x.2.2.1, true) else x) } .pwr 0 0x12C 1)

/-- The tile pools in units of 4 mW from L_eff and the draw that grants do not cover (R497): 1/16 of the sum to each tile,
and the rest in proportion to the requests of the past window, those that wait on included (log entry 30). -/
def recomputePools (s : State) (uncovered : Nat) : State :=
  let sum := (s.power.lEff - uncovered) * 250 - 5 * inputLimit s
  let asked := (List.range 4).map (fun t => mgetD s.poolAsked t 0)
  let total := asked.foldl (· + ·) 0
  let rest := sum - 4 * (sum / 16)
  { s with
    pools := (List.range 4).map (fun t =>
      (t, sum / 16 + (if total = 0 then rest / 4 else rest * (asked[t]?.getD 0) / total)))
    poolAsked := s.grantReqs.foldl (fun m q => mupd m (coreTile q.1) 0 (· + q.2.2.1)) [] }

/-- POOL_RECOMPUTE (R497): `uncovered` is the measured N in watts. -/
def execPoolRecompute (uncovered : Nat) (s : State) : Host.Outcome State Fault Refusal := .next (recomputePools s uncovered)

/-- FAST_LOOP_TICK (R498): the averages of the input power over 10 µs and 1 ms, and the highest of the former within the
latter, in watts. -/
def execFastLoopTick (avg10us avg1ms peak : Nat) (s : State) : Host.Outcome State Fault Refusal :=
  .next (
    let s := rset s .pwr 0 0x11C (packFields [(0, min 65535 avg1ms), (16, min 65535 peak)])
    let full := s.fastCap = 16 && s.power.duty = 0
    if s.power.lEff < avg10us then
      let s :=
        if 4 < s.fastCap then { s with fastCap := s.fastCap - 1 }
        else { s with power := { s.power with duty := min 3 (s.power.duty + 1) } }
      if full then recErr s ePwrFastLoop 0 0 s.fastCap noCtag else s
    else if avg1ms * 100 < s.power.lEff * 95 then
      if s.power.duty ≠ 0 then { s with power := { s.power with duty := s.power.duty - 1 } }
      else { s with fastCap := min 16 (s.fastCap + 1) }
    else s)

/-! ### Brake (R499, R500) -/

/-- PWRBRK_ASSERT (R499): stage 1; running BIST slices are abandoned (R43). -/
def execPwrbrkAssert (s : State) : Host.Outcome State Fault Refusal :=
  .next (
    if s.power.brakePin then s
    else
      let s := { s with power := { s.power with brakePin := true, brake := 1, stage1 := true } }
      let s := bistAbandon (bump s .pwr 0 0x140 1)
      recErr s ePwrBrake 0 0 (clamp 25 50 (fld (rget s .pwr 0 0x118) 7 0)) noCtag)

/-- BRAKE_STAGE2 (R499): 10 µs after the assertion. -/
def execBrakeStage2 (uncovered : Nat) (s : State) : Host.Outcome State Fault Refusal :=
  .next (
    if !s.power.brakePin || s.power.brake ≠ 1 then s
    else recomputePools (lowerEff { s with power := { s.power with brake := 2 } }) uncovered)

/-- BRAKE_RELEASE (R500): PWRBRK_N has been high for 10 µs. -/
def execBrakeRelease (s : State) : Host.Outcome State Fault Refusal :=
  .next (
    if !s.power.brakePin then s
    else { s with power := { s.power with brakePin := false, brake := 3 } })

/-- L_EFF_RAMP (R500): L_eff rises by 0.1 × L toward its target; stage 1 is released at 0.5 × L. -/
def execLEffRamp (s : State) : Host.Outcome State Fault Refusal :=
  .next (
    let l := min (effTarget s) (s.power.lEff + inputLimit s / 10)
    let s := { s with power := { s.power with lEff := max s.power.lEff l } }
    if s.power.brake ≠ 3 then s
    else
      { s with power := { s.power with
        stage1 := s.power.stage1 && decide (s.power.lEff < inputLimit s / 2)
        brake := if s.power.lEff < unbraked s || s.power.lEff < inputLimit s / 2 then 3 else 0 } })

/-- BRAKE_STAGE_RECOMPUTE (R499): the Carillon prepares the stages again. -/
def execBrakeStageRecompute (s : State) : Host.Outcome State Fault Refusal :=
  .next (if s.carillon.token.isNone then s else lowerEff { s with power := { s.power with floorW := floorWatts s } })

/-- PWR_LIMIT_CFG_WRITE (R492, R509). -/
def execPwrLimitCfgWrite (req : Req) (v : Word) (s : State) : Host.Outcome State Fault Refusal :=
  .next (guardWrite s req .pwr 0 0x114 (fun s => lowerEff (rset s .pwr 0 0x114 (setFld 0 15 0 (fld v 15 0)))))

/-! ### Power fail (R501, R502) -/

/-- VIN_DIP (R501): a dip of at most 10 µs. -/
def execVinDip (us : Nat) (s : State) : Host.Outcome State Fault Refusal :=
  .next (if 10 < us then s else recErr s ePwrVinDip 0 0 us noCtag)

/-- The error mirror: ERR_FIRST, ERR_COUNT and ERR_CTAG of every page with VALID = 1 (R61, R502). Only pages whose ERR_FIRST
has been written are listed. -/
def errMirror (s : State) : List (Nat × Word × Word × Word) :=
  (s.regs.filter (fun e => e.1 % 0x1000 = 0x30 && wbit e.2 31)).map (fun e =>
    (e.1 - 0x30, e.2, regGet s (e.1 + 4), regGet s (e.1 + 8)))

/-- Resets in progress and requested are abandoned, and the package is in A3 (R476, R502, R507). -/
def abandonResets (s : State) : State :=
  let s := rset s .pce 0 0x114 0
  { s with chipReset := none, reqChip := none, reqPart := [], partReset := [], flr := [], heldInts := [] }

/-- The newest events as the retention SRAM keeps them: those from number `from_` on (R502, R507). -/
def retainEvents (s : State) (from_ : Nat) : State :=
  { s with retEvents := s.retEvents ++ (s.evq.filter (fun e => from_ ≤ e.id)).map (fun e => { e with retention := true }) }

/-- The power-fail sequence (R502), recorded under a code of its cause. The retention SRAM keeps the error mirror, the field
record, the epoch and the power-fail record. -/
def powerFail (s : State) (e : ErrCode) (detail : Nat) : State :=
  if s.power.failed then s
  else
    let n := s.evCount % 65536
    let s := recErr s e 0 0 detail noCtag
    let s := retainEvents { s with retention := s.retention ++ errMirror s, power := { s.power with failed := true } } n
    let s := rset s .pwr 0 0x144 (rget s .pwr 0 0x144 + 1)
    let s := diesOff (abandonResets (stageAbort s)) 11
    setStage { s with power := { s.power with brake := 0, stage1 := false, convCut := 0 } } 1

/-- POWER_FAIL_SEQUENCE (R502): VIN48, `vin` in units of 20 mV, has been below 40 V for more than 10 µs. In A3 the tray may
remove it (R495). -/
def execPowerFailSequence (vin : Nat) (s : State) : Host.Outcome State Fault Refusal :=
  .next (
    let s := rset s .pwr 0 0x120 (setFld (rget s .pwr 0 0x120) 11 0 vin)
    let s := { s with power := { s.power with
      vin48 := false, vauxLost := s.power.vauxLost && s.carillon.powered } }
    if s.power.st = 3 then s else powerFail s ePwrPowerFail vin)

/-- PWR_VIN_OV (R501): VIN48, at highest `vin` in units of 20 mV, is above 60 V. -/
def execPwrVinOv (vin : Nat) (s : State) : Host.Outcome State Fault Refusal :=
  .next (
    if vin ≤ 3000 then s
    else powerFail (rset s .pwr 0 0x120 (setFld (rget s .pwr 0 0x120) 11 0 (min 4095 vin))) ePwrVinOv vin)

/-- PWR_VAUX_LOST (R501): VAUX12 is lost while VIN48 is present. -/
def execPwrVauxLost (s : State) : Host.Outcome State Fault Refusal :=
  .next (
    if !s.power.vin48 then s
    else
      let s := powerFail s ePwrVauxLost 0
      { s with power := { s.power with vauxLost := true } })

/-- VIN48_RETURN (R476, R502): the package starts at S2 as a chip reset. -/
def execVin48Return (s : State) : Host.Outcome State Fault Refusal :=
  .next (
    if !s.power.failed || s.power.vauxLost || s.thermal.tripped then s
    else rset { s with
      power := { s.power with vin48 := true, failed := false }, chipReset := some { cause := 0 }, chipAtS2 := false } .pce 0 0x114 0x100)

/-- VAUX12_REMOVED (R490, R507): the Carillon stops and THERMTRIP_N is released. What the fuses, the tray flash and the
retention SRAM hold stays. -/
def execVaux12Removed (s : State) : Host.Outcome State Fault Refusal :=
  .next (
    let s := setStage (abandonResets (diesOff s 9)) 0
    { s with
      evq := []
      carillon := { s.carillon with powered := false, ca := 0, cb := 0, token := none, alive := false, sessions := [], pathUp := false }
      thermal := { s.thermal with tripped := false, sites := [] }
      power := { s.power with vauxLost := s.power.vauxLost && s.power.vin48 } })

end Sys2Proof.Machine
end

