-- ==== Sys2Proof/Machine/Thermal.lean ====
section
/-!
DEFINITION. Sensor pairs, thermal steps, hard limits, THERMTRIP and degraded cooling (R213, R503 to R508, R512). A
temperature is °C + 40 throughout, as the THM page encodes it.
-/
namespace Sys2Proof.Machine

/-- Kind of a site (R503): 0 cluster, 1 base die, 2 converter, 3 Carillon. -/
def siteKind (i : Nat) : Nat := if i < 64 then 0 else if i < 80 then 1 else if i < 84 then 2 else 3

/-- Are two clusters of a tile adjacent in the 4 × 4 grid of R19, four rows of which a quadrant is a column? -/
def gridAdjacent (a b : Nat) : Bool :=
  (a / 4 = b / 4 && (a % 4 + 1 = b % 4 || b % 4 + 1 = a % 4)) || (a % 4 = b % 4 && (a / 4 + 1 = b / 4 || b / 4 + 1 = a / 4))

/-- Neighbours of a site (R503). The corners of the converter are numbered NW, NE, SW, SE. -/
def neighbours (i : Nat) : List Nat :=
  if i < 64 then ((List.range 16).filter (gridAdjacent (i % 16))).map (fun c => i / 16 * 16 + c)
  else if i < 80 then ((List.range 4).map (fun q => i / 4 * 4 + q)).filter (· ≠ i)
  else if i = 80 || i = 83 then [81, 82]
  else if i < 84 then [80, 83]
  else [67, 71, 75, 79]

/-- Step threshold of a site (R505): 100 °C, a converter site 110 °C; the Carillon's site has none and takes 100 °C (log
entry 31). -/
def stepAt (i : Nat) : Nat := if siteKind i = 2 then 150 else 140

/-- Change a site. -/
def modSite (s : State) (i : Nat) (f : Site → Site) : State :=
  { s with thermal := { s.thermal with sites := mupd s.thermal.sites i {} f } }

/-- Is a reading plausible: −20 °C to 150 °C (R504)? A silent sensor gives none. -/
def plausible (x : Option Nat) : Bool := match x with | some v => decide (20 ≤ v) && decide (v ≤ 190) | none => false

/-- The pair state that two readings alone give (R504): 0 OK, 1 SKEW, 2 DEGRADED, 3 FAILED. -/
def pairState (d r : Option Nat) : Nat :=
  match plausible d, plausible r, d, r with
  | true, true, some a, some b =>
    let x := max a b - min a b
    if x < 3 then 0 else if x ≤ 12 then 1 else 2
  | false, false, _, _ => 3
  | _, _, _, _ => 2

/-- A FAILED pair: the reading used is the step threshold and the region runs at half clock (R504). -/
def siteFail (s : State) (i : Nat) : State :=
  if (site s i).pair = 3 then modSite s i (fun x => { x with used := stepAt i })
  else
    recErr (modSite s i (fun x => { x with
      pair := 3, used := stepAt i, half := true, hard := false, stepping := false, cap := 16 })) eThmSensorFailed 0 i 0 noCtag

/-- The readings of a site are taken and its pair is classified; DEGRADED and FAILED hold until the next chip reset (R504). -/
def readSite (s : State) (i : Nat) (d r : Option Nat) : State :=
  let a := d.getD 0
  let b := r.getD 0
  let s := modSite s i (fun x => { x with diode := a, ring := b, read := true })
  let p := max (if 2 ≤ (site s i).pair then (site s i).pair else 0) (pairState d r)
  if p = 3 then siteFail s i
  else if p = 2 then
    if (site s i).pair = 2 then s
    else recErr (modSite s i (fun x => { x with pair := 2 })) eThmSensorDegraded 0 i 0 noCtag
  else
    let s := modSite s i (fun x => { x with pair := p, used := max a b })
    let due := match (site s i).skewUs with | some t => decide (t + 3600000000 ≤ s.us) | none => true
    if p = 1 && due then
      recErr (modSite s i (fun x => { x with skewUs := some s.us })) eSensorSkew 0 i (max a b - min a b) noCtag
    else s

/-- A DEGRADED site takes the hottest reading of its neighbours that are OK or SKEW, plus 10 °C; without one it is FAILED
(R504). -/
def substituteSite (s : State) (i : Nat) : State :=
  if (site s i).pair ≠ 2 then s
  else
    let near := (neighbours i).filter (fun j => (site s j).read && (site s j).pair ≤ 1)
    if near.isEmpty then siteFail s i
    else modSite s i (fun x => { x with used := maxList (near.map (fun j => (site s j).used)) 0 + 10 })

/-- A hot time starts or ends (R508). -/
def HotTime.note (h : HotTime) (us : Nat) (on : Bool) : HotTime :=
  match h.since, on with
  | none, true => { h with since := some us }
  | some t, false => { since := none, spans := ((t, us) :: h.spans).filter (fun x => us < x.2 + 10000000) }
  | _, _ => h

/-- Microseconds of the last 10 s in a step or at a hard limit. -/
def HotTime.total (h : HotTime) (us : Nat) : Nat :=
  let clip (a b : Nat) : Nat := b - max a (us - 10000000)
  (h.spans.map (fun x => clip x.1 x.2)).foldl (· + ·) (match h.since with | some t => clip t us | none => 0)

/-- Is a site in a step or at its hard limit: a cluster whose cap is below f_fused, a base die at half clock for its
temperature (R505)? -/
def siteHot (s : State) (i : Nat) : Bool :=
  let x := site s i
  x.hard || (if i < 64 then x.stepping || decide (x.cap < 16) else if i < 80 then x.stepping else false)

/-- A region enters a step (R505): THM_STEP. -/
def siteStep (s : State) (i : Nat) : State :=
  let s := if siteHot s i then s else recErr s eThmStep 0 i 0 noCtag
  modSite s i (fun x => { x with stepping := true, coolUs := none })

/-- A region enters its hard limit (R505): THM_HARD_LIMIT. -/
def siteHard (s : State) (i : Nat) : State :=
  if (site s i).hard then s
  else recErr (modSite s i (fun x => { x with hard := true })) eThmHardLimit 0 i 0 noCtag

/-- The rules of R505 for a cluster site. -/
def clusterRule (s : State) (i : Nat) : State :=
  let u := (site s i).used
  if 145 ≤ u then siteHard (siteStep s i) i
  else
    let s := if (site s i).hard && u < 140 then modSite s i (fun x => { x with hard := false, cap := 4 }) else s
    if 140 ≤ u then siteStep s i else modSite s i (fun x => { x with stepping := false })

/-- The rules of R505 for a base-die site. -/
def baseRule (s : State) (i : Nat) : State :=
  let u := (site s i).used
  if 145 ≤ u then siteHard (modSite (siteStep s i) i (fun x => { x with half := true })) i
  else
    let s := if (site s i).hard && u < 140 then modSite s i (fun x => { x with hard := false }) else s
    if 140 ≤ u then modSite (siteStep s i) i (fun x => { x with half := true })
    else if 137 ≤ u then modSite s i (fun x => { x with coolUs := none })
    else match (site s i).coolUs with
      | none => if (site s i).stepping then modSite s i (fun x => { x with coolUs := some s.us }) else s
      | some t =>
        if t + 10000 ≤ s.us then modSite s i (fun x => { x with stepping := false, half := false, coolUs := none }) else s

/-- The rules of R505 for a converter site: THM_CONVERTER_HOT; with the last site below 100 °C L_eff may rise again. -/
def converterRule (s : State) (i : Nat) : State :=
  let u := (site s i).used
  if 150 ≤ u then
    if (site s i).stepping then s
    else recErr (modSite s i (fun x => { x with stepping := true })) eThmConverterHot 0 i 0 noCtag
  else if u < 140 && (site s i).stepping then
    let s := modSite s i (fun x => { x with stepping := false })
    if [80, 81, 82, 83].any (fun j => (site s j).stepping) then s else { s with power := { s.power with convCut := 0 } }
  else s

/-- THERMTRIP (R507): the alarm controller holds THERMTRIP_N, the islands stop, THM_TRIP and POWER_CYCLE_REQ are recorded and
kept, the Carillon controllers halt and the package is in A3. `sub` is the site, or 0x80 + stack. -/
def thermTrip (s : State) (sub : Nat) : State :=
  if s.thermal.tripped then s
  else
    let n := s.evCount % 65536
    let s := { s with thermal := { s.thermal with tripped := true } }
    let s := retainEvents (powerCycleReq (recErr s eThmTrip 0 sub 0 noCtag) 6) n
    let s := setStage (diesOff (abandonResets (stageAbort s)) 9) 1
    { s with carillon := { s.carillon with ca := 0, cb := 0, token := none, sessions := [] } }

/-- The rules of a site once its reading is known (R504, R505, R507). A FAILED cluster or base die only runs at half clock. -/
def siteRule (s : State) (i : Nat) : State :=
  if s.thermal.tripped || !(site s i).read then s
  else if 155 ≤ (site s i).used && (site s i).pair ≠ 3 then thermTrip s i
  else
    let s :=
      if siteKind i = 2 then converterRule s i
      else if (site s i).pair = 3 || siteKind i = 3 then s
      else if siteKind i = 0 then clusterRule s i else baseRule s i
    modSite s i (fun x => { x with hot := x.hot.note s.us (siteHot s i) })

/-! ### Degraded cooling (R508) -/

/-- The sites that have been read. -/
def readSites (s : State) : List Nat := (List.range 85).filter (fun i => (site s i).read)

/-- The hottest used reading and its site, the lowest-numbered of several (THM_HOTTEST). -/
def hottest (s : State) (l : List Nat) : Nat × Nat :=
  l.foldl (fun (a : Nat × Nat) i => if a.1 < (site s i).used then ((site s i).used, i) else a) (0, 0)

/-- Does a condition of R508 hold, with the 1 ms input power in watts? -/
def coolingBad (s : State) (input : Nat) : Bool :=
  (List.range 64).any (fun i => decide (1000000 ≤ (site s i).hot.total s.us)) ||
  s.thermal.baseHot.any (fun e => decide (1000000 ≤ e.2.total s.us)) ||
  s.thermal.hbmHot.any (fun e => decide (1000000 ≤ e.2.total s.us)) ||
  (decide (135 ≤ (hottest s ((readSites s).filter (· < 64))).1) && decide (input * 2 ≤ inputLimit s))

/-- THM_COOLING_DEGRADED is sent, and counted in THM_WARN (R508, R525). -/
def sendCooling (s : State) (input : Nat) : State :=
  let h := hottest s (readSites s)
  let w := rget s .thm 0 0x118
  let s := rset s .thm 0 0x118 (setFld w 15 8 (min 255 (fld w 15 8 + 1)))
  recErr { s with thermal := { s.thermal with coolSent := some s.us } } eThmCoolingDegraded 0 h.2
    (h.2 + h.1 * 256 + min 65535 input * 65536) noCtag

/-- The condition is judged: an event at its start, every 60 s while it holds, and a clearing event after 60 s without it.
THM_WARN shows whether it holds (R508, R512). -/
def coolingCheck (s : State) (input : Nat) : State :=
  let s := rset s .thm 0 0x118 (setBit (rget s .thm 0 0x118) 0 (!s.thermal.tripped && coolingBad s input))
  if s.thermal.tripped then s
  else if coolingBad s input then
    let s := { s with thermal := { s.thermal with coolHeld := s.us } }
    match s.thermal.coolSent with
    | some t => if t + 60000000 ≤ s.us then sendCooling s input else s
    | none => sendCooling s input
  else if s.thermal.coolSent.isSome && s.thermal.coolHeld + 60000000 ≤ s.us then
    stateEvent { s with thermal := { s.thermal with coolSent := none } } .thm 0 5 0
  else s

/-- A base die enters or leaves a step or hard limit of any of its four sites (R508). -/
def noteBase (s : State) (t : Nat) : State :=
  let hot := (List.range 4).any (fun q => siteHot s (64 + 4 * t + q))
  { s with thermal := { s.thermal with baseHot := mupd s.thermal.baseHot t {} (fun x => x.note s.us hot) } }

/-- The comparator of a site, which keeps the hard limit and the trip while no thermal manager runs: on the higher plausible
reading (R519; log entry 31). -/
def compareSite (s : State) (i : Nat) (d r : Option Nat) : State :=
  let u := max (if plausible d then d.getD 0 else 0) (if plausible r then r.getD 0 else 0)
  if s.thermal.tripped then s
  else if 155 ≤ u then thermTrip s i
  else if 2 ≤ siteKind i then s
  else if 145 ≤ u then siteHard s i
  else if (site s i).hard && u < 140 then
    modSite s i (fun x => { x with hard := false, cap := if siteKind i = 0 then 4 else x.cap })
  else s

/-- THERMAL_SAMPLE (R503 to R508): the sites read, each with what its diode and its ring oscillator report, and the input
power over the last 1 ms. With both controllers down only the comparators act (R519). -/
def execThermalSample (reads : List (Nat × Option Nat × Option Nat)) (input : Nat) (s : State) :
    Host.Outcome State Fault Refusal :=
  .next (
    let l := reads.filter (fun x => x.1 < 85)
    if s.thermal.tripped then s
    else if bothDown s then l.foldl (fun s x => compareSite s x.1 x.2.1 x.2.2) s
    else
      let s := l.foldl (fun s x => readSite s x.1 x.2.1 x.2.2) s
      let s := (List.range 85).foldl substituteSite s
      let s := (List.range 4).foldl noteBase ((List.range 85).foldl siteRule s)
      coolingCheck s input)

/-- THERMAL_STEP_TIMER (R505): a cluster's cap falls by a sixteenth while its reading is ≥ 100 °C and rises by one while it is
< 97 °C; the converter cut grows by 0.1 × L up to 0.5 × L, once for all converter sites. -/
def execThermalStepTimer (i : Nat) (s : State) : Host.Outcome State Fault Refusal :=
  .next (
    let x := site s i
    if siteKind i = 0 then
      if x.pair = 3 || x.hard || !x.read then s
      else if 140 ≤ x.used then modSite s i (fun x => { x with cap := max 4 (x.cap - 1) })
      else if x.used < 137 then modSite s i (fun x => { x with cap := min 16 (x.cap + 1) })
      else s
    else if siteKind i = 2 then
      if 150 ≤ x.used && [80, 81, 82, 83].find? (fun j => decide (150 ≤ (site s j).used)) = some i then
        lowerEff { s with power := { s.power with convCut := min (inputLimit s / 2) (s.power.convCut + inputLimit s / 10) } }
      else s
    else s)

/-- COOLING_EVENT_REPEAT (R508). -/
def execCoolingEventRepeat (input : Nat) (s : State) : Host.Outcome State Fault Refusal := .next (coolingCheck s input)

/-! ### HBM stacks (R213, R505) -/

/-- A stack is throttled, or not: THM_HBM and HBM_RATE. -/
def throttle (s : State) (k : Nat) (on : Bool) : State :=
  let was := wbit (rget s .thm 0 0x110) k
  let s := rset (rset s .thm 0 0x110 (setBit (rget s .thm 0 0x110) k on)) .hbm k 0x108 (if on then 8 else 10)
  if on && !was then recErr s eThmHbmThrottle 0 (0x80 + k) 0 noCtag else s

/-- A stack is at its hard limit, or not. -/
def stackHard (s : State) (k : Nat) (on : Bool) : State :=
  let was := wbit (rget s .thm 0 0x110) (16 + k)
  let s := rset s .thm 0 0x110 (setBit (rget s .thm 0 0x110) (16 + k) on)
  if on && !was then recErr s eThmHardLimit 0 (0x80 + k) 0 noCtag else s

/-- The throttle of a stack at `t` °C: from 85 °C, until it has been below 82 °C for 10 ms. -/
def stackThrottle (s : State) (k t : Nat) : State :=
  let cool (s : State) (v : Option Nat) : State :=
    { s with thermal := { s.thermal with hbmCool := match v with
      | some u => mput s.thermal.hbmCool k u
      | none => mdel s.thermal.hbmCool k } }
  if 85 ≤ t then throttle (cool s none) k true
  else if 82 ≤ t then cool s none
  else if !wbit (rget s .thm 0 0x110) k then s
  else match mget s.thermal.hbmCool k with
    | none => cool s (some s.us)
    | some u => if u + 10000 ≤ s.us then throttle (cool s none) k false else s

/-- HBM_TEMP_READ (R213, R505, R507): the hottest die of a stack in °C, or a failed readout, the third of which in a row
makes the reading invalid. -/
def execHbmTempRead (k : Nat) (temp : Option Nat) (s : State) : Host.Outcome State Fault Refusal :=
  .next (
    if 16 ≤ k || s.thermal.tripped then s
    else
      let miss (s : State) (n : Nat) : State := { s with thermal := { s.thermal with hbmMiss := mput s.thermal.hbmMiss k n } }
      let inval (s : State) (l : List Nat) : State := { s with thermal := { s.thermal with hbmInv := l } }
      let s := match temp with
        | none =>
          let n := mgetD s.thermal.hbmMiss k 0 + 1
          let s := miss s n
          if n < 3 then s
          else
            let s := if wbit (rget s .thm 0 0x110) k then s else inval s (k :: s.thermal.hbmInv)
            throttle (rset s .hbm k 0x104 (setBit (rget s .hbm k 0x104) 31 false)) k true
        | some t =>
          let s := if s.thermal.hbmInv.contains k && t < 85 then throttle s k false else s
          let s := inval s (s.thermal.hbmInv.filter (· ≠ k))
          let s := rset (miss s 0) .hbm k 0x104 (packFields [(0, min 255 t), (8, b2n (decide (85 < t))), (31, 1)])
          if 115 ≤ t then thermTrip s (0x80 + k)
          else
            let s := stackThrottle s k t
            if 95 ≤ t then stackHard s k true else if t < 92 then stackHard s k false else s
      if s.thermal.tripped then s
      else
        let h := rget s .thm 0 0x110
        { s with thermal := { s.thermal with
          hbmHot := mupd s.thermal.hbmHot k {} (fun x => x.note s.us (wbit h k || wbit h (16 + k))) } })

/-! ### Views of the THM page (R512) -/

/-- THM_SITE_READ of a site. -/
def siteWord (s : State) (i : Nat) : Word :=
  let x := site s i
  if 85 ≤ i then 0
  else packFields [(0, min 255 x.diode), (8, min 255 x.ring), (16, min 255 x.used), (24, x.pair),
    (26, if x.hard then 2 else if (i < 64 && (x.stepping || x.cap < 16)) || (80 ≤ i && x.stepping) then 1
      else if x.half then 3 else 0), (31, b2n x.read)]

/-- The sites of each region (R503): a cluster, the four of a base die, a converter phase group. -/
def regionSites : List (List Nat) :=
  (List.range 64).map (fun i => [i]) ++ (List.range 4).map (fun t => (List.range 4).map (fun q => 64 + 4 * t + q)) ++
  [[80], [81], [82], [83]]

/-- THM_HOTTEST, THM_REGIONS and THM_SENSORS. -/
def hottestWord (s : State) : Word := let h := hottest s (readSites s); packFields [(0, min 255 h.1), (8, h.2)]
def regionsWord (s : State) : Word :=
  let hard (l : List Nat) : Bool := l.any (fun i => (site s i).hard)
  let step (l : List Nat) : Bool := l.any (fun i => siteHot s i || (80 ≤ i && (site s i).stepping)) && !hard l
  packFields [(0, (regionSites.filter step).length), (16, (regionSites.filter hard).length)]
def sensorsWord (s : State) : Word :=
  packFields [(0, ((List.range 85).filter (fun i => (site s i).pair = 2)).length),
    (8, ((List.range 85).filter (fun i => (site s i).pair = 3)).length)]

end Sys2Proof.Machine
end

