-- ==== Sys2Proof/Machine/Boot.lean ====
section
/-!
DEFINITION. Bring-up: the stages S0 to S7, what a chip reset clears, partition configuration (R28, R52, R61, R367 to R379,
R412, R467, R528).
-/
namespace Sys2Proof.Machine

/-- A stage begins: DIR_BOOT_STAGE, and the highest stage reached in BST_BOOT_RESULT. -/
def reachStage (s : State) (n : Nat) : State :=
  let w := rget s .bst 0 0x100
  setStage (rset s .bst 0 0x100 (setFld w 2 0 (max n (fld w 2 0)))) n

/-- Has bring-up failed for good (R371)? -/
def bootFailed (s : State) : Bool := wbit (rget s .bst 0 0x100) 3

/-! ### S0 and S1 -/

/-- What a loss of VAUX12 leaves: fuses, the tray flash, hard repairs, the pins, and in the retention SRAM the records of a
power-fail sequence and the field-record changes not yet in the flash (R379, R483, R502). The flash is what the tray has programmed meanwhile (log entry 4). -/
def coldState (s : State) (flash : Option (List (Nat × Byte))) : State :=
  { State.reset with
    pending := s.pending, out := s.out, draws := s.draws, fuses := s.fuses, pprUsed := s.pprUsed
    retEvents := s.retEvents, brgRestrict := s.brgRestrict
    fieldCores := if s.fieldDirty then s.fieldCores else [], fieldSlices := if s.fieldDirty then s.fieldSlices else []
    fieldDirty := s.fieldDirty
    fw := { flash := match flash with
      | some l => mputs [] (l.filter (fun e => e.2 ≠ 0xFF))
      | none => s.fw.flash }
    host := { perst := s.host.perst }
    power := { st := 3, vin48 := s.power.vin48, brakePin := s.power.brakePin, lEff := inputLimit s, vauxLost := s.power.vauxLost,
               floorW := 30 * inputLimit s / 100 }
    carillon := { powered := true, ca := 1, cb := 1 } }

/-- The epoch is drawn, non-zero (R359). -/
def drawEpoch (s : State) : State :=
  let (w, s) := drawWord s
  { s with epoch := if w = 0 then 1 else w.toNat }

/-- What the shared island recorded while both controllers were down (R519). -/
def noteBothDown (s : State) (down : Bool) : State :=
  if !down then s
  else
    let s := recErr s eCarBothDown 0 0 0 noCtag
    { s with retention := s.retention ++ [(page .car 0, errFirstWord 5 true false 0 0, 0, noCtag)] }

/-- VAUX12_IN_RANGE (R368, R372, R412): both controllers run their ROMs, the fuses are checked and a slot is selected.
`answers` says whether the flash answers, `fuseBad` is the first fuse group that fails. -/
def execVaux12InRange (flash : Option (List (Nat × Byte))) (answers : Bool) (fuseBad : Option Nat) (s : State) :
    Host.Outcome State Fault Refusal :=
  .next (
    if s.carillon.powered then s
    else
      let s := noteBothDown (drawEpoch (coldState s flash)) s.carillon.bothDown
      match fuseBad with
      | some g =>
        let s := rset s .bst 0 0x10C (packFields [(0, 0), (1, b2n (g ≠ 1)), (8, g)])
        let s := recErr (recErr s eBootStageFail 0 0 bootFuse noCtag) eFuseIntegrity 0 g 0 noCtag
        powerCycleReq (rset s .bst 0 0x100 (packFields [(3, 1), (4, bootFuse)])) 1
      | none =>
        romKeys (romSelect (rset s .bst 0 0x10C 3) answers))

/-- BOOT_S1 (R368, R379, R412, R526, R528): the firmware runs, TRIAL_FAILS is cleared, the records are read, and what the
retention SRAM holds joins the event queue. -/
def execBootS1 (s : State) : Host.Outcome State Fault Refusal :=
  .next (
    if s.fw.running.isNone || s.carillon.token.isNone || s.fw.reachedS1 || bootFailed s then s
    else
      let s := { s with fw := { s.fw with reachedS1 := true } }
      let s := if s.fw.bootRec.fails = 0 then s else writeBootRec s { s.fw.bootRec with fails := 0 }
      let late := (s.fieldCores, s.fieldSlices)
      let s := loadField (loadCfg s)
      let s := { s with
        fieldCores := s.fieldCores ++ late.1.filter (fun n => !s.fieldCores.contains n)
        fieldSlices := s.fieldSlices ++ late.2.filter (fun n => !s.fieldSlices.contains n) }
      let s := s.retEvents.foldl queueEvent { s with retEvents := [] }
      reachStage { s with power := { s.power with st := 3 } } 1)

/-- VIN48_PRESENT (R368, R416): VIN48 has been at 40 V or more for 10 ms while the package is at S1. -/
def execVin48Present (s : State) : Host.Outcome State Fault Refusal :=
  .next (
    if !s.carillon.powered || s.thermal.tripped || s.power.failed || s.power.vauxLost ||
        !(s.fw.recovery || s.fw.reachedS1) then s
    else { s with power := { s.power with vin48 := true } })

/-! ### What a chip reset clears (R61, R433, R467) -/

/-- Registers that a chip reset leaves: the Carillon's and the alarm controller's own, what shows the dump, the boot result,
the power-fail count, the retired pseudo-channels and page lists of the stacks, and the lanes of the ports. -/
def keepsReg (a : Nat) : Bool :=
  match pageOf a with
  | some (b, _, off) =>
    if off < 0x100 then false
    else match b with
      | .car | .dmp => true
      | .sec => off < 0x140
      | .dbg => off < 0x110 || off = 0x134
      | .bst => off = 0x100 || off = 0x10C
      | .pwr => off = 0x144 || off = 0x120
      | .hbm => off = 0x110 || off = 0x114 || off = 0x138 || off = 0x144 || off = 0x148 || 0x14C ≤ off
      | .pce => off = 0x114
      | .fab => off = 0x100 || off = 0x104 || off = 0x110
      | .opt => off = 0x100
      | .dir => off = 0x30C
      | _ => false
  | none => false

/-- Does a held dump keep a byte of staging SRAM (R205, R467)? -/
def dumpKeeps (s : State) (a : Nat) : Bool := dumpClosed s && decide (stgBase ≤ a) && decide (a < stgBase + 0x4000000)

/-- The alarm controller at a chip reset (R436, R437): a level falls unless the alarm fired during the reset, SEC_ALARM_CFG is
at its floors and LOCK opens. -/
def clearAlarm (s : State) : State :=
  let s := rset s .sec 0 0x118 0
  let s := if s.sec.alarmInReset then s else rset s .sec 0 0x110 0
  { s with sec := { s.sec with alarmInReset := false, highDebug := [], hbmKeys := 0 } }

/-- Steps 4 and 5 of R467: pending retirements take effect, page records go to the retention log, the field record is
written, the epoch advances, and the dies are reset. -/
def chipClear (s : State) : State :=
  let s := (List.range (partCount s)).foldl (fun s p => (retireMemory (applyPending s p) p).1) s
  let s := { s with retention := s.retention ++ errMirror s }
  let s :=
    if s.fieldDirty then flashWrite (flashErase { s with fieldDirty := false } 0x2020000 0x40000) 0x2020000 (fieldBytes s) else s
  let s := portsReset (linkDrop (clearAlarm s))
  let e := (s.epoch + 1) % 2 ^ 32
  { s with
    prevEpoch := s.epoch, epoch := if e = 0 then 1 else e, nonce := 0, chipAtS2 := true, bootRetried := false
    regs := mfilter s.regs (fun a _ => keepsReg a)
    mem := s.mem.filter (fun c => dumpKeeps s c.1), poison := mfilter s.poison (fun g _ => dumpKeeps s (64 * g))
    cores := []
    clusters := s.clusters.map (fun e => (e.1, { Cluster.init with
      clusterRetired := e.2.clusterRetired, retired := e.2.retired }))
    gong := [], fb := [], net := [], peers := [], roll := [], mgtIdx := [], mcCfg := [], mcCheck := [], mcMember := []
    mcKey := [], mcFseq := [], mcSends := [], heldPkts := [], destRecs := [], fabKeys := [], resid := [], ctxResets := [], setOps := []
    pealCores := [], pealBad := [], islands := [], pools := [], grants := [], grantReqs := [], poolAsked := [], fastCap := 16
    rowErrs := [], rowsPerm := [], caFails := [], pcDead := [], stgErrs := [], brgReplays := [], brgOut := [], scrub := [], zeroAt := []
    heldInts := [], flr := []
    host := { s.host with msix := [], recoveries := [] }
    engines := s.engines.map (fun x => (x.1, { x.2 with sweep := [], abort := false, events := [], warming := none, lasers := [] }))
    bist := { s.bist with slices := [], next := [], part := [], back := [], direct := none, excluded := [] }
    thermal := { s.thermal with sites := [], hbmMiss := [], hbmCool := [], hbmHot := [], hbmInv := [], baseHot := [], coolSent := none } }

/-! ### S2 to S4 -/

/-- May S2 begin: both rails, the token and a verified bundle, nothing that holds the package at S1, and S1 reached or a
chip reset at its step 5 (R367, R371, R410, R423)? -/
def s2Ready (s : State) : Bool :=
  s.power.vin48 && !s.power.vauxLost && !s.thermal.tripped && s.carillon.token.isSome && s.fw.running.isSome &&
  s.fw.reachedS1 && s.fw.bundleOk && !s.fw.unloaded && !s.bist.scanOpen && s.sec.lcOld.isNone && s.sec.lcTo.isNone &&
  s.dump.isNone &&
  (if s.chipReset.isSome && !s.chipAtS2 then true else decide (bootStage s = 1) && !bootFailed s)

/-- The limits of the tray configuration record take force, and the brake when PWRBRK_N is asserted (R509, R528). -/
def bootPower (s : State) : State :=
  let s := rset s .pwr 0 0x114 (wd (leAt s.carillon.cfg 0x1C 2))
  let s := rset s .pwr 0 0x118 (wd (clamp 25 50 (leAt s.carillon.cfg 0x1E 1)))
  let b := s.power.brakePin
  let s := { s with power := { s.power with
    st := 0, moving := none, failed := false, brake := if b then 2 else 0, stage1 := b, duty := 0, convCut := 0
    floorW := floorWatts s } }
  { s with power := { s.power with lEff := effTarget s } }

/-- The bridges train: those of the mask fail (R30, R31, R370); the fused repairs use their spares (R372). The restriction of the
splits ends when all four pass (R31). The lane group that BRG_RETIRED names is not in the outcome: a free value. -/
def bootBridges (s : State) (bad : Nat) : State :=
  let out := onesBelow bad 4
  let s := showSplits { s with
    brgOut := out, brgRestrict := !out.isEmpty && (s.brgRestrict || decide (2 ≤ out.length)) }
  let s := (List.range 4).foldl (fun s b =>
    let used := maskOf ((s.fuses.brgRepair.filter (fun e => e.1 = b)).map (fun e => brgGroup e.2.1 e.2.2))
    setBridge (rset s .brg b 0x108 (wd used)) b (if bit bad b then 3 else 2)) s
  out.foldl (fun s b => let (w, s) := drawWord s; recErr s eBrgRetired b (w.toNat % 32) 0 noCtag) s

/-- A staging row that fails boot BIST takes a spare; without one the slice is retired (R223, R370). -/
def bootRow (s : State) (r : Nat × Nat × Nat) : State :=
  let s := stgRowPermanent s r.1 r.2.1 r.2.2 false
  if wbit (rget s .stg r.1 0x124) 0 then retireSlice s r.1 else s

/-- Staging SRAM at S2: fused repairs take spare rows, slices of the field record stay retired, failing rows are spared. -/
def bootStaging (s : State) (rows : List (Nat × Nat × Nat)) : State :=
  let s := { s with stgSpares := s.fuses.stgRepair, stgRowsPerm := [], stgSubst := [] }
  let s := s.fieldSlices.foldl retireSlice s
  rows.foldl bootRow s

/-- ACCESS_LEVEL and CTRL of every page are back at reset when the sequence starts at S2 (R52, R61). -/
def unlockPages (s : State) : State :=
  { s with regs := mfilter s.regs (fun a _ => a % 0x1000 ≠ 0x50 && a % 0x1000 ≠ 0x10) }

/-- BOOT_S2 (R368): `bridges` is the mask of bridges that do not train, `rows` are the staging rows (slice, bank, row) that
fail boot BIST. -/
def execBootS2 (bridges : Nat) (rows : List (Nat × Nat × Nat)) (s : State) : Host.Outcome State Fault Refusal :=
  .next (
    if !s2Ready s then s
    else
      let s := if s.chipReset.isSome && !s.chipAtS2 then loadCfg (chipClear s) else s
      let s := unlockPages s
      let w := rget s .bst 0 0x100
      let s := rset s .bst 0 0x100 (setFld (setFld w 15 8 (min 255 (fld w 15 8 + 1))) 7 3 0)
      reachStage (bootStaging (bootBridges (bootPower s) bridges) rows) 2)

/-- A queued row is repaired, and its pages leave the list but for those that another unrepaired row has retired; or its pages
stay retired (R222). -/
def bootRepair (s : State) (q : Nat × Nat × Nat) (repaired : List (Nat × Nat × Nat)) : State :=
  let (k, pc, row) := q
  let used := mgetD s.pprUsed k 0
  if repaired.contains q && used < Config.pprResources k then
    let mine (e : Nat × Nat × Nat × List Nat) : Bool := e.1 = k && e.2.1 = pc && e.2.2.1 = row
    let gone := (s.rowPgs.filter mine).flatMap (·.2.2.2)
    let s := { s with pprUsed := mput s.pprUsed k (used + 1), rowPgs := s.rowPgs.filter (fun e => !mine e) }
    let kept := (s.rowPgs.filter (fun e => e.1 = k)).flatMap (·.2.2.2)
    setPageList s k ((pageList s k).filter (fun d => !gone.contains d || kept.contains d))
  else recErr s eHbmPprExhausted k pc row noCtag

/-- BOOT_S3 (R368): hard repair of the queued rows, of which `repaired` take; pseudo-channels (stack, number) that fail
training are retired; zeroising of every region and slice starts. -/
def execBootS3 (trainFail : List (Nat × Nat)) (repaired : List (Nat × Nat × Nat)) (s : State) :
    Host.Outcome State Fault Refusal :=
  .next (
    if bootStage s ≠ 2 then s
    else
      let s := s.pprQueue.foldl (fun s q => bootRepair s q repaired) s
      let s := { s with pprQueue := [] }
      let s := trainFail.foldl (fun s e => retirePc (recErr s eHbmTrainFail e.1 e.2 0 noCtag) e.1 e.2) s
      let s := (List.range 8).foldl setRegion s
      let s := (List.range 16).foldl (fun s k =>
        rset (rset s .hbm k 0x138 0) .hbm k 0x100 (wd (stackState s k))) s
      let s := (List.range 8).foldl zeroRegion s
      reachStage ((List.range 64).foldl zeroSlice s) 3)

/-- A cluster that fails at S4 is retired: cause 2 bring-up, 3 BIST (R377). -/
def bootCluster (s : State) (e : Nat × Nat) : State :=
  if (cluster s e.1).clusterRetired then s
  else retireCluster (recErr s eClusterRetired e.1 0 e.2 noCtag) e.1

/-- A core whose second BIST run fails too is permanent (R378). -/
def bootCore (s : State) (n : Nat) : State :=
  if (cluster s (coreClu n)).clusterRetired || bit (coresOut s (coreClu n)) (coreJ n) then s else retireCore s n 1

/-- BOOT_S4 (R368, R374 to R378): `once` are the cores that fail their first BIST run and pass the second, `twice` those
that fail both, `clusters` the clusters that fail with the cause. Every map is formed. -/
def execBootS4 (once twice : List Nat) (clusters : List (Nat × Nat)) (s : State) : Host.Outcome State Fault Refusal :=
  .next (
    if bootStage s ≠ 3 then s
    else
      let s := clusters.foldl bootCluster s
      let s := once.foldl (fun s n => recErr s eCoreBistTransient (coreClu n) (coreJ n) 0 noCtag) s
      let s := twice.foldl bootCore s
      let s := (List.range 64).foldl (fun s c =>
        if coresOut s c = 0x3FFFF then modCluster s c (fun x => { x with clusterRetired := true }) else s) s
      reachStage ((List.range 64).foldl formMap s) 4)

/-! ### S5: the package peal and partition configuration (R28, R52, R431, R528) -/

/-- The split that the record asks for, within R31: while restricted, only the 4-way and the 8-way are offered. -/
def bootSplit (s : State) : Nat :=
  let x := leAt s.carillon.cfg 0xC 1 % 4
  if s.brgRestrict && x ≤ 1 then 2 else x

/-- HBM keys of the partitions of HBM_ENC: drawn, and their regions run encrypted; a partition whose key is due while the
random source fails is not configured. The answer is the mask of partitions configured. -/
def bootKeys (s : State) (healthy : Bool) : State × Nat :=
  (List.range (partCount s)).foldl (fun (a : State × Nat) p =>
    let s := rset a.1 .sec 0 (0x140 + 4 * p) (setBit (rget a.1 .sec 0 (0x140 + 4 * p)) 0 (bit (leAt s.carillon.cfg 0xD 1) p))
    let enc := bit (leAt s.carillon.cfg 0xD 1) p
    let s := (partRegions s p).foldl (fun s r => [2 * r, 2 * r + 1].foldl (fun s k =>
      rset s .hbm k 0x140 (packFields [(0, b2n enc), (4, p)])) s) s
    if !enc then (s, a.2 ||| (1 <<< p))
    else if healthy then (drawHbmKeys s p, a.2 ||| (1 <<< p))
    else (trngFail s, a.2)) (s, 0)

/-- Every page: block and instance. -/
def allPages : List (Block × Nat) := allBlocks.flatMap (fun b => (List.range (blockCount b)).map (fun i => (b, i)))

/-- ACCESS_LEVEL of a page at partition configuration (R52). -/
def configLevel (s : State) (b : Block) (i : Nat) : Word :=
  packFields [(0, blockLevel b), (2, 1), (8, if blockLevel b = 1 then pageOwner s b i else 0)]

/-- Partition configuration: ACCESS_LEVEL and ENABLE of every page but those of a partition that is not configured. -/
def configPages (s : State) (mask : Nat) : State :=
  (allPages.filter (fun x => blockLevel x.1 ≠ 1 || bit mask (pageOwner s x.1 x.2))).foldl (fun s x =>
    let pg := page x.1 x.2
    regSet (regSet s (pg + 0x50) (configLevel s x.1 x.2)) (pg + 0x10) (setBit (regGet s (pg + 0x10)) 0 true)) s

/-- Owner of a bridge under R27: 0xF when shared or none. -/
def bridgeOwner (s : State) (b : Nat) : Nat := if s.split = 1 then (if b = 0 then 0 else if b = 2 then 1 else 0xF) else 0xF

/-- Has partition configuration been done in this bring-up: the DIR page is LOCKED (R52)? -/
def configured (s : State) : Bool := wbit (rget s .dir 0 0x50) 2

/-- BOOT_S5 (R368): at S4 the package peal starts; when no core still runs it, the Carillon configures the partitions,
unless an alarm at FREEZE or ERASE holds (R440). -/
def execBootS5 (healthy : Bool) (s : State) : Host.Outcome State Fault Refusal :=
  .next (
    if bootStage s = 4 then reachStage (pealStart s none false) 5
    else if bootStage s ≠ 5 || anyPeal s || frozen s || configured s then s
    else
      let s := { s with split := bootSplit s, keysErased := false }
      let (s, mask) := bootKeys s healthy
      let s := configPages s mask
      let s := (List.range 4).foldl (fun s b => rset s .brg b 0x104 (wd (bridgeOwner s b))) s
      noteBridges (showBridges s))

/-! ### S6 and S7 -/

/-- A port at S6: REACH from the record; without one it is DISABLED, else its transmitters are on (R293, R308). -/
def bootPort (s : State) (i : Nat) : State :=
  let s := if fabState s i = 0 then rset s .fab i 0x104 (wd (leAt s.carillon.cfg (0x10 + i) 1 % 8)) else s
  match mget s.retPorts i with
  | some (lanes, reason) =>
    setFab (rset { s with retPorts := mdel s.retPorts i } .fab i 0x110 (wd lanes)) i psRetired reason
  | none => if reach s i = 0 then fabDisable s i 2 else fabEnable s i

/-- BOOT_S6 (R369): EXPECT, the boot sweep of every optical engine, and the ports. -/
def execBootS6 (s : State) : Host.Outcome State Fault Refusal :=
  .next (
    if bootStage s ≠ 5 || !configured s then s
    else
      let s := reachStage { s with s6Us := s.us } 6
      let s := rset s .fab 0 0x120 (packFields [(0, leAt s.carillon.cfg 0x18 2), (16, leAt s.carillon.cfg 0x1A 1 % 2)])
      let s := (List.range 8).foldl bootPort s
      (List.range 8).foldl (fun s i => if modeO s i then sweepStart s i (List.range 34) else s) s)

/-- Has a port come to rest in S6: neither TRAINING, IDENTIFY nor RETRAIN, and its sweep has ended (R369)? -/
def portSettled (s : State) (i : Nat) : Bool :=
  let st := fabState s i
  st ≠ psTraining && st ≠ psIdentify && st ≠ psRetrain && (mgetD s.engines i {}).sweep.isEmpty

/-- BOOT_S7 (R361, R368, R369): every port has come to rest, or 500 ms have passed since S6 began; the package is ready. -/
def execBootS7 (s : State) : Host.Outcome State Fault Refusal :=
  .next (
    if bootStage s ≠ 6 || !((List.range 8).all (portSettled s) || decide (s.s6Us + 500000 ≤ s.us)) then s
    else
      let s := s.epochPeers.foldl (fun s c => announceAll s c tEpochAnnounce s.prevEpoch) s
      let s := match s.chipReset with
        | some r => lastReset s 4 r.cause 0xFF
        | none => s
      let s := rset s .pce 0 0x114 (setBit (rget s .pce 0 0x114) 8 false)
      let s := { s with epochPeers := [], chipReset := none, chipAtS2 := false, bootRetried := false }
      stateEvent (reachStage s 7) .dir 0 6 0)

/-- BOOT_STAGE_FAIL (R370, R371): a fatal failure of S2 to S5. -/
def execBootStageFail (cause : Nat) (s : State) : Host.Outcome State Fault Refusal :=
  .next (if 2 ≤ bootStage s && bootStage s ≤ 6 then bootFatal s cause else s)

end Sys2Proof.Machine
end

