-- ==== Sys2Proof/Machine/Carillon.lean ====
section
/-!
DEFINITION. The two controllers, the control token and the event queue (R514 to R519, R521, R525, R526, R530). Controllers
and buses are numbered 0 CA and 1 CB.
-/
namespace Sys2Proof.Machine

/-- State of a controller: 0 OFF, 1 SELFTEST, 2 STANDBY, 3 ACTIVE, 4 FAILED. -/
def ctrlState (s : State) (c : Nat) : Nat := if c = 0 then s.carillon.ca else s.carillon.cb
def setCtrl (s : State) (c v : Nat) : State :=
  { s with carillon := if c = 0 then { s.carillon with ca := v } else { s.carillon with cb := v } }

/-- A controller has reached STANDBY or ACTIVE. -/
def ctrlUp (s : State) (c v : Nat) : State :=
  let s := setCtrl s c v
  { s with carillon := { s.carillon with
    lastUp := mput s.carillon.lastUp c s.us
    standbyUs := if c = 0 then (if v = 2 then some s.us else none) else s.carillon.standbyUs
    missed := mdel (mdel s.carillon.missed (2 * c)) (2 * c + 1) } }

/-- A controller is restarted; the third time within 10 min without reaching STANDBY or ACTIVE it is FAILED (R514). -/
def restartCtrl (s : State) (c : Nat) : State :=
  let l := (c, s.us) :: s.carillon.restarts.filter (fun e => within s 600000000 e.2)
  let s := { s with carillon := { s.carillon with
    restarts := l, standbyUs := if c = 0 then none else s.carillon.standbyUs } }
  let n := (l.filter (fun e => e.1 = c && mgetD s.carillon.lastUp c 0 ≤ e.2)).length
  if 3 ≤ n then recErr (setCtrl s c 4) eCarControllerFailed 0 c 0 noCtag else setCtrl s c 1

/-- Does a receiver on the bus of the token's holder make the path up: it has an address and a named receiver (R526)? -/
def busReady (s : State) : Bool :=
  match s.carillon.token with
  | some c => (mget s.carillon.receiver c).isSome && (mget s.carillon.addr c).isSome
  | none => false

/-- The token changes hands: SPDM sessions end, an event in flight stays queued, and the path is judged on the new bus
(R523, R526, R530). -/
def tokenTo (s : State) (c : Nat) : State :=
  let s := { s with carillon := { s.carillon with token := some c, sessions := [], sentUs := none, attempts := 0 } }
  { s with carillon := { s.carillon with pathUp := busReady s } }

/-- CONTROLLER_SELFTEST_DONE (R514, R516): a pass gives STANDBY, or ACTIVE when no controller holds the token; CB is refused
the token for 10 ms after VAUX12 enters its range. -/
def execControllerSelftestDone (c : Nat) (pass : Bool) (s : State) : Host.Outcome State Fault Refusal :=
  .next (
    if 2 ≤ c || ctrlState s c ≠ 1 || !s.carillon.powered then s
    else if !pass then restartCtrl s c
    else match s.carillon.token with
      | some _ => ctrlUp s c 2
      | none =>
        if c = 1 && s.us < 10000 then s
        else
          let s := tokenTo (ctrlUp s c 3) c
          { s with carillon := { s.carillon with alive := true } })

/-- Missed slots in a row of a watched controller on a path. -/
def missedOn (s : State) (c path : Nat) : Nat := mgetD s.carillon.missed (2 * c + path) 0

/-- A path fault (R515): CAR_PATH_FAULT with the path, 1 wire, 2 mailbox. -/
def pathFail (s : State) (path : Nat) : State :=
  if mgetD s.carillon.pathFault path false then s
  else
    recErr { s with carillon := { s.carillon with
      pathFault := mput s.carillon.pathFault path true, pathGood := mdel s.carillon.pathGood path
      faults := min 255 (s.carillon.faults + 1) } } eCarPathFault 0 0 (path + 1) noCtag

/-- A slot of a path ends with or without a heartbeat; a fault clears after 10 s of heartbeats. -/
def slotPath (s : State) (c path : Nat) (seen : Bool) : State :=
  let car := s.carillon
  if !seen then
    { s with carillon := { car with
      missed := mput car.missed (2 * c + path) (min 3 (missedOn s c path + 1)), pathGood := mdel car.pathGood path
      standbyUs := if c = 0 && car.standbyUs.isSome then some s.us else car.standbyUs } }
  else
    let s := { s with carillon := { car with missed := mput car.missed (2 * c + path) 0 } }
    if !mgetD car.pathFault path false then s
    else match mget car.pathGood path with
      | none => { s with carillon := { s.carillon with pathGood := mput car.pathGood path s.us } }
      | some t =>
        if t + 10000000 ≤ s.us then
          { s with carillon := { s.carillon with pathFault := mdel car.pathFault path, pathGood := mdel car.pathGood path } }
        else s

/-- HEARTBEAT_SLOT (R514, R515): a 1 ms slot of the watcher of controller `c` ends. -/
def execHeartbeatSlot (c : Nat) (wire mailbox : Bool) (s : State) : Host.Outcome State Fault Refusal :=
  .next (
    if 2 ≤ c || !(ctrlState s c = 2 || ctrlState s c = 3) then s
    else
      let s := slotPath (slotPath s c 0 wire) c 1 mailbox
      let a := missedOn s c 0
      let b := missedOn s c 1
      if 3 ≤ a && 3 ≤ b then
        if ctrlState s c = 2 then restartCtrl (recErr s eCarStandbyLost 0 c 0 noCtag) c else s
      else if 3 ≤ a && b = 0 then pathFail s 0
      else if 3 ≤ b && a = 0 then pathFail s 1
      else s)

/-- TOKEN_REQUEST (R516): granted when the holder has not refreshed the token for 3 ms, and the old holder is held in reset;
refused otherwise, with a path fault on both paths when the requester has detected a controller fault. -/
def execTokenRequest (c : Nat) (refreshed : Bool) (s : State) : Host.Outcome State Fault Refusal :=
  .next (
    match s.carillon.token with
    | none => s
    | some h =>
      if 2 ≤ c || h = c || ctrlState s c ≠ 2 then s
      else if refreshed then
        if 3 ≤ missedOn s h 0 && 3 ≤ missedOn s h 1 then pathFail (pathFail s 0) 1 else s
      else
        let s := tokenTo (setCtrl s h 0) c
        { s with carillon := { s.carillon with alive := false } })

/-- What the Carillon drives starts again from its first step under a new controller (R476, R517): a partition reset's peal,
a chip reset's bring-up from S2, a dump's collection. -/
def restartOps (s : State) : State :=
  let s := s.partReset.foldl (fun s (e : Nat × PartReset) =>
    pealStart { s with partReset := mupd s.partReset e.1 {} (fun r => { r with startUs := s.us }) } (some e.1) false) s
  let s :=
    if s.chipReset.isSome && s.chipAtS2 && 2 ≤ bootStage s then setStage { s with pealCores := [] } 1 else s
  { s with dump := s.dump.map (fun d => { d with startUs := s.us, unread := [], row := 0, deadIslands := [] }) }

/-- Firmware staging or a PLDM firmware transfer is abandoned (R415, R530). -/
def dropUpdate (s : State) : State :=
  if s.fw.staging.isSome then stageAbort s
  else if 1 ≤ s.carillon.upd && s.carillon.upd ≤ 3 then
    recErr { s with carillon := { s.carillon with upd := 0 } } eFwStageAborted 0 (1 - s.fw.bootRec.active) 0 noCtag
  else s

/-- A recovery-mode download loses its owner (R530). -/
def dropDownload (s : State) : State :=
  if s.fw.recovery && s.fw.rcvHeld then { s with fw := { s.fw with rcvHeld := false, rcvState := 0 } } else s

/-- FAILOVER (R517, R530): the standby that has taken the token is ACTIVE; the failed controller restarts. -/
def execFailover (s : State) : Host.Outcome State Fault Refusal :=
  .next (
    match s.carillon.token with
    | none => s
    | some c =>
      if ctrlState s c ≠ 2 then s
      else
        let s := bump (ctrlUp s c 3) .car 0 0x108 1
        let s := { s with carillon := { s.carillon with alive := true } }
        let s := recErr (dropDownload (dropUpdate s)) eCarFailover 0 (1 - c) 0 noCtag
        restartOps (restartCtrl (emit s (.mgmt c "IBI" [])) (1 - c)))

/-- Is this a quiet point (R518)? -/
def quiet (s : State) : Bool :=
  s.chipReset.isNone && s.partReset.isEmpty && s.dump.isNone && !anyPeal s && s.fw.staging.isNone && s.carillon.upd = 0 &&
  s.sec.lcTo.isNone && s.power.moving.isNone && !(s.fw.recovery && s.fw.rcvHeld)

/-- TAKEBACK (R518): CA takes the token back after 10 s as a STANDBY without a missed slot or a path fault. -/
def execTakeback (s : State) : Host.Outcome State Fault Refusal :=
  .next (
    let due := match s.carillon.standbyUs with | some t => decide (t + 10000000 ≤ s.us) | none => false
    if s.carillon.token ≠ some 1 || s.carillon.ca ≠ 2 || s.carillon.cb ≠ 3 || !due || !quiet s ||
        s.carillon.pathFault.any (fun e => e.2) then s
    else
      let s := bump (tokenTo (ctrlUp (ctrlUp s 0 3) 1 2) 0) .car 0 0x10C 1
      emit (recErr s eCarTakeback 0 0 0 noCtag) (.mgmt 0 "IBI" []))

/-- BOTH_DOWN_TIMEOUT (R519): no controller has held the token for 100 ms: the shared island drives CAR_ALIVE low, sets L_eff
to the brake floor and halves the core clocks. -/
def execBothDownTimeout (s : State) : Host.Outcome State Fault Refusal :=
  .next (
    if !s.carillon.powered then s
    else
      let off (v : Nat) : Nat := if v = 3 then 0 else v
      lowerEff { s with carillon := { s.carillon with
        token := none, alive := false, bothDown := true, ca := off s.carillon.ca, cb := off s.carillon.cb, sessions := []
        pathUp := false, sentUs := none } })

/-! ### Events (R525, R526) -/

/-- The 32 bytes of an event record. -/
def eventBytes (e : Event) : List Byte :=
  leBytes 1 2 ++ leBytes e.id 2 ++ leBytes e.pageId 4 ++ leBytes e.errFirst.toNat 4 ++ leBytes e.ctag.toNat 4 ++
  leBytes e.time 8 ++ leBytes e.kind 1 ++ leBytes (b2n e.lostBefore + 2 * b2n e.retention) 1 ++ leBytes e.code 2 ++
  leBytes e.detail 4

/-- The oldest record leaves for the receiver. -/
def sendEvent (s : State) : State :=
  match s.carillon.token, s.evq with
  | some c, e :: _ =>
    emit { s with carillon := { s.carillon with sentUs := some s.us, attempts := s.carillon.attempts + 1 } }
      (.mgmt c "EVENT" (eventBytes e))
  | _, _ => s

/-- EVENT_SEND (R526). -/
def execEventSend (s : State) : Host.Outcome State Fault Refusal :=
  .next (if s.carillon.pathUp && s.carillon.sentUs.isNone then sendEvent s else s)

/-- The oldest record leaves the queue, and the path is up. -/
def eventDone (s : State) : State :=
  { s with
    evq := s.evq.drop 1, evOverflow := s.evOverflow && decide (64 ≤ s.evq.length - 1)
    carillon := { s.carillon with sentUs := none, attempts := 0 } }

/-- EVENT_ANSWER (R526). -/
def execEventAnswer (s : State) : Host.Outcome State Fault Refusal :=
  .next (if s.carillon.sentUs.isSome then eventDone s else s)

/-- EVENT_RETRY_TIMEOUT (R526): sent again; after the third unanswered attempt the path is down. -/
def execEventRetryTimeout (s : State) : Host.Outcome State Fault Refusal :=
  .next (
    if s.carillon.sentUs.isNone then s
    else if 3 ≤ s.carillon.attempts then
      { s with carillon := { s.carillon with pathUp := false, sentUs := none, attempts := 0 } }
    else sendEvent s)

/-- ALERT_N is low: an undelivered record of ERR_SEVERITY 1 or KIND 4, or POWER_CYCLE_REQ held (R529). -/
def alertLow (s : State) : Bool :=
  s.evq.any (fun e => e.unc || e.kind = 4) || wbit (regGet s (page .hng 0 + 0x20)) 7

/-! ### Views of the CAR page (R418, R531) -/

/-- CAR_CTRL_STATE. -/
def ctrlWord (s : State) : Word :=
  packFields [(0, s.carillon.ca), (4, s.carillon.cb), (8, s.carillon.token.getD 0), (9, b2n s.carillon.token.isSome)]

/-- CAR_HB_STATUS. -/
def hbWord (s : State) : Word :=
  packFields [(0, b2n (mgetD s.carillon.pathFault 0 false)), (1, b2n (mgetD s.carillon.pathFault 1 false)),
    (4, maxList (s.carillon.missed.map (·.2)) 0), (8, s.carillon.faults)]

/-- CAR_RESTARTS. -/
def restartWord (s : State) : Word :=
  let n (c : Nat) : Nat := min 3 (s.carillon.restarts.filter (fun e => e.1 = c && within s 600000000 e.2)).length
  packFields [(0, n 0), (8, n 1)]

/-- CAR_EVQ_STATUS. -/
def evqWord (s : State) : Word :=
  packFields [(0, s.evq.length), (8, b2n s.carillon.pathUp),
    (9, b2n ((s.carillon.token.bind (fun c => mget s.carillon.receiver c)).isSome)), (16, s.evCount % 65536)]

/-- CAR_CFG_STATUS. -/
def cfgWord (s : State) : Word :=
  packFields [(0, b2n s.carillon.cfgValid), (1, s.carillon.cfgCopy), (2, b2n (!s.carillon.cfgValid && !s.carillon.cfg.isEmpty))]

/-- CAR_SIDEBAND. -/
def sidebandWord (s : State) : Word :=
  packFields [(0, b2n (alertLow s)), (1, b2n s.thermal.tripped), (2, b2n s.power.brakePin), (3, b2n s.host.perst),
    (4, b2n s.carillon.alive)]

/-- CAR_I3C of a bus. -/
def i3cWord (s : State) (k : Nat) : Word :=
  packFields [(0, b2n (mget s.carillon.addr k).isSome), (1, mgetD s.carillon.addr k 0), (8, mgetD s.carillon.eid k 0),
    (16, b2n (mget s.carillon.receiver k).isSome)]

/-- The firmware registers CAR_FW_BOOT to CAR_FW_KEYS by offset. -/
def fwWord (s : State) (off : Nat) : Word :=
  let r := s.fw.bootRec
  match off with
  | 0x400 => packFields [(0, s.fw.running.getD 0), (1, b2n s.fw.recovery),
      (2, b2n (match s.fw.running with | some k => decide (brState r k = 3) | none => false)), (8, r.resA), (12, r.resB), (16, r.fails)]
  | 0x404 => wd r.verA
  | 0x408 => wd r.verB
  | 0x40C => packFields [(0, r.stA), (4, r.stB), (8, b2n s.fw.staging.isSome), (9, b2n (decide (r.pending ≠ 0xFF)))]
  | 0x410 => packFields [(0, fusedCount s), (8, if s.fw.running.isSome then leAt s.fw.bundle 0x15 1 else 0)]
  | 0x414 => packFields [(0, revokedKeys s), (8, if s.fw.running.isSome then leAt s.fw.bundle 0xE 1 else 0)]
  | 0x440 => wd (rcvStatusWord s)
  | _ => 0

end Sys2Proof.Machine
end

