-- ==== Sys2Proof/Machine/Mgmt.lean ====
section
/-!
DEFINITION. The management port: I3C, MCTP, PLDM and the vendor messages (R520 to R524, R528). An answer is what the rule
gives it; the codes that the manual leaves to DMTF are those of DSP0236, DSP0240, DSP0248 and DSP0267 (log entry 22).
-/
namespace Sys2Proof.Machine

/-- An answer on a bus. -/
def reply (s : State) (bus : Nat) (what : String) (cc : Nat) (body : List Byte) : State :=
  emit s (.mgmt bus what (leBytes cc 1 ++ body))

/-- A message that a STANDBY and an ACTIVE controller answer; another state does not reply (R521). -/
def onBus (s : State) (bus : Nat) (f : State → State) : State :=
  if bus < 2 && (ctrlState s bus = 2 || ctrlState s bus = 3) then f s else s

/-- A PLDM request: ERROR_NOT_READY from a STANDBY controller (R521). -/
def pldm (s : State) (bus : Nat) (what : String) (f : State → State) : State :=
  onBus s bus (fun s => if ctrlState s bus = 3 then f s else reply s bus what 4 [])

/-- A vendor message other than STATUS: the ACTIVE controller answers; a STANDBY one with BUSY (R417, R521). -/
def vendor (s : State) (bus : Nat) (what : String) (f : State → State) : State :=
  onBus s bus (fun s => if ctrlState s bus = 3 then f s else reply s bus what 1 [])

/-! ### I3C and MCTP control (R520) -/

/-- I3C_ENTDAA: the provisioned ID, BCR 0x06 and DCR 0x00 are given, and the address is taken. -/
def execI3cEntdaa (bus addr : Nat) (s : State) : Host.Outcome State Fault Refusal :=
  .next (onBus s bus (fun s =>
    emit { s with carillon := { s.carillon with addr := mput s.carillon.addr bus (addr % 128) } }
      (.mgmt bus "ENTDAA" (leBytes (Config.mipiId * 2 ^ 33 + 0x4A04 * 65536 + bus * 4096) 6 ++ leBytes 6 1 ++ leBytes 0 1))))

/-- MCTP_SET_ENDPOINT_ID; 0 and 0xFF name no endpoint. -/
def execMctpSetEndpointId (bus eid : Nat) (s : State) : Host.Outcome State Fault Refusal :=
  .next (onBus s bus (fun s =>
    if eid = 0 || 255 ≤ eid then reply s bus "SET_EID" 2 []
    else reply { s with carillon := { s.carillon with eid := mput s.carillon.eid bus eid } } bus "SET_EID" 0
      (leBytes 0 1 ++ leBytes eid 1 ++ leBytes 0 1)))

/-- MCTP_GET_ENDPOINT_ID. -/
def execMctpGetEndpointId (bus : Nat) (s : State) : Host.Outcome State Fault Refusal :=
  .next (onBus s bus (fun s => reply s bus "GET_EID" 0 (leBytes (mgetD s.carillon.eid bus 0) 1 ++ leBytes 0 2)))

/-- MCTP_GET_VERSION_SUPPORT: 1.3 of the base, 1.0 of SPDM and 1.1 of secured messages; the version of the types for which the
manual prints none is open. -/
def execMctpGetVersionSupport (bus type : Nat) (s : State) : Host.Outcome State Fault Refusal :=
  .next (onBus s bus (fun s =>
    let one (s : State) (v : Nat) : State := reply s bus "GET_VERSION" 0 (leBytes 1 1 ++ leBytes v 4)
    if type = 0xFF || type = 0 then one s 0xF1F3FF00
    else if type = 5 then one s 0xF1F0FF00
    else if type = 6 then one s 0xF1F1FF00
    else if type = 1 || type = 0x7F then let (w, s) := drawWord s; one s w.toNat
    else reply s bus "GET_VERSION" 0x80 []))

/-- MCTP_GET_MESSAGE_TYPE_SUPPORT. -/
def execMctpGetMessageTypeSupport (bus : Nat) (s : State) : Host.Outcome State Fault Refusal :=
  .next (onBus s bus (fun s => reply s bus "GET_TYPES" 0 [4, 1, 5, 6, 0x7F]))

/-- MCTP_GET_VENDOR_MESSAGE_SUPPORT: the one set is the IANA enterprise number. -/
def execMctpGetVendorMessageSupport (bus sel : Nat) (s : State) : Host.Outcome State Fault Refusal :=
  .next (onBus s bus (fun s =>
    if sel = 0 then reply s bus "GET_VENDOR" 0 (leBytes 0xFF 1 ++ leBytes 1 1 ++ leBytes Config.ianaId 4 ++ leBytes 0 2)
    else reply s bus "GET_VENDOR" 2 []))

/-! ### PLDM base (R520) -/

/-- PLDM_GET_TID. -/
def execPldmGetTid (bus : Nat) (s : State) : Host.Outcome State Fault Refusal :=
  .next (pldm s bus "GetTID" (fun s => reply s bus "GetTID" 0 (leBytes s.carillon.tid 1)))

/-- PLDM_SET_TID; 0 and 0xFF are reserved. -/
def execPldmSetTid (bus tid : Nat) (s : State) : Host.Outcome State Fault Refusal :=
  .next (pldm s bus "SetTID" (fun s =>
    if tid = 0 || 255 ≤ tid then reply s bus "SetTID" 2 []
    else reply { s with carillon := { s.carillon with tid := tid } } bus "SetTID" 0 []))

/-- PLDM_GET_PLDM_VERSION: DSP0240 1.1, DSP0248 1.2, DSP0267 1.1. -/
def execPldmGetPldmVersion (bus type : Nat) (s : State) : Host.Outcome State Fault Refusal :=
  .next (pldm s bus "GetPLDMVersion" (fun s =>
    if type = 0 || type = 5 then reply s bus "GetPLDMVersion" 0 (leBytes 0xF1F1FF00 4)
    else if type = 2 then reply s bus "GetPLDMVersion" 0 (leBytes 0xF1F2FF00 4)
    else reply s bus "GetPLDMVersion" 0x83 []))

/-- PLDM_GET_PLDM_TYPES: types 0, 2 and 5. -/
def execPldmGetPldmTypes (bus : Nat) (s : State) : Host.Outcome State Fault Refusal :=
  .next (pldm s bus "GetPLDMTypes" (fun s => reply s bus "GetPLDMTypes" 0 (leBytes 0x25 8)))

/-- The commands of a PLDM type as a mask (R520). -/
def pldmCommands (type : Nat) : Option Nat :=
  if type = 0 then some (maskOf [1, 2, 3, 4, 5])
  else if type = 2 then some (maskOf [0x04, 0x0A, 0x0B, 0x11, 0x21, 0x39, 0x50, 0x51])
  else if type = 5 then some (maskOf [0x10, 0x13, 0x14, 0x15, 0x16, 0x17, 0x18, 0x1A, 0x1B, 0x1D])
  else none

/-- PLDM_GET_PLDM_COMMANDS. -/
def execPldmGetPldmCommands (bus type : Nat) (s : State) : Host.Outcome State Fault Refusal :=
  .next (pldm s bus "GetPLDMCommands" (fun s =>
    match pldmCommands type with
    | some m => reply s bus "GetPLDMCommands" 0 (leBytes m 32)
    | none => reply s bus "GetPLDMCommands" 0x83 []))

/-! ### PLDM events (R526) -/

/-- PLDM_SET_EVENT_RECEIVER: the path is up again. -/
def execPldmSetEventReceiver (bus eid : Nat) (s : State) : Host.Outcome State Fault Refusal :=
  .next (pldm s bus "SetEventReceiver" (fun s =>
    let s := { s with carillon := { s.carillon with
      receiver := mput s.carillon.receiver bus eid, sentUs := none, attempts := 0 } }
    reply { s with carillon := { s.carillon with pathUp := busReady s } } bus "SetEventReceiver" 0 []))

/-- PLDM_POLL_FOR_EVENT: an acknowledged record leaves the queue, the oldest one is returned, and the path is up. -/
def execPldmPollForEvent (bus : Nat) (ack : Option Nat) (s : State) : Host.Outcome State Fault Refusal :=
  .next (pldm s bus "PollForPlatformEventMessage" (fun s =>
    let s := match ack, s.evq with
      | some i, e :: _ => if e.id = i then eventDone s else s
      | _, _ => s
    let s := { s with carillon := { s.carillon with pathUp := busReady s, sentUs := none, attempts := 0 } }
    reply s bus "PollForPlatformEventMessage" 0 (match s.evq with | e :: _ => eventBytes e | [] => [])))

/-! ### Sensors and effecters (R522) -/

/-- °C of a temperature in the encoding of the THM page, as a 32-bit two's complement number. -/
def celsius (t : Nat) : Nat := (t + 2 ^ 32 - 40) % 2 ^ 32

/-- What the sensors show now, by ID. -/
def sensorNow (s : State) : List (Nat × Nat) :=
  let hot (t : Nat) : Nat := celsius (hottest s ((readSites s).filter (fun i => i < 64 && i / 16 = t))).1
  [(0x0001, fld (rget s .pwr 0 0x11C) 15 0), (0x0002, fld (rget s .pwr 0 0x120) 11 0 * 20),
   (0x0003, fld (rget s .pwr 0 0x120) 27 16 * 10), (0x0004, celsius (hottest s (readSites s)).1)] ++
  (List.range 16).map (fun k => (0x0010 + k, fld (rget s .hbm k 0x104) 7 0)) ++
  (List.range 4).map (fun t => (0x0020 + t, hot t)) ++
  (List.range 8).map (fun p => (0x0030 + p, fld (rget s .opt p 0x104) 7 0)) ++
  [(0x0080, s.power.st), (0x0081, bootStage s), (0x0082, match s.carillon.token with | some c => c | none => 2)] ++
  (List.range 8).map (fun p => (0x0088 + p, fabState s p))

/-- TELEMETRY_SAMPLE: every sensor is sampled; `vin` in 20 mV and `vaux` in 10 mV are the rails (R511). -/
def execTelemetrySample (vin vaux : Nat) (s : State) : Host.Outcome State Fault Refusal :=
  .next (
    let s := rset s .pwr 0 0x120 (packFields [(0, min 4095 vin), (16, min 4095 vaux)])
    { s with carillon := { s.carillon with
      samples := mputs s.carillon.samples ((sensorNow s).map (fun e => (e.1, e.2, s.us))) } })

/-- Is an ID one of a numeric sensor, of a state sensor? -/
def numericId (i : Nat) : Bool :=
  (1 ≤ i && i ≤ 4) || (0x10 ≤ i && i < 0x20) || (0x20 ≤ i && i < 0x24) || (0x30 ≤ i && i < 0x38)
def stateId (i : Nat) : Bool := (0x80 ≤ i && i ≤ 0x82) || (0x88 ≤ i && i < 0x90)

/-- The latest sample of a sensor: operational state 0 with the value, or 2, unavailable, before the first. -/
def reading (s : State) (bus : Nat) (what : String) (id : Nat) : State :=
  match mget s.carillon.samples id with
  | some (v, _) => reply s bus what 0 (leBytes 0 1 ++ leBytes v 4)
  | none => reply s bus what 0 (leBytes 2 1)

/-- PLDM_GET_SENSOR_READING. -/
def execPldmGetSensorReading (bus id : Nat) (s : State) : Host.Outcome State Fault Refusal :=
  .next (pldm s bus "GetSensorReading" (fun s =>
    if numericId id then reading s bus "GetSensorReading" id else reply s bus "GetSensorReading" 0x80 []))

/-- PLDM_GET_STATE_SENSOR_READINGS. -/
def execPldmGetStateSensorReadings (bus id : Nat) (s : State) : Host.Outcome State Fault Refusal :=
  .next (pldm s bus "GetStateSensorReadings" (fun s =>
    if stateId id then reading s bus "GetStateSensorReadings" id else reply s bus "GetStateSensorReadings" 0x80 []))

/-- The IDs of the PDR repository: every sensor and effecter. -/
def pdrIds : List Nat := (List.range 0x90).filter (fun i => numericId i || stateId i) ++ [0x100, 0x101, 0x102]

/-- Kind of a PDR: 0 numeric sensor, 1 state sensor, 2 state effecter. -/
def pdrKind (i : Nat) : Nat := if numericId i then 0 else if stateId i then 1 else 2

/-- PLDM_GET_PDR: the record of a handle, its position in the repository from 1, with the next handle. -/
def execPldmGetPdr (bus handle : Nat) (s : State) : Host.Outcome State Fault Refusal :=
  .next (pldm s bus "GetPDR" (fun s =>
    let h := max 1 handle
    match pdrIds[h - 1]? with
    | some i =>
      reply s bus "GetPDR" 0 (leBytes (if h < pdrIds.length then h + 1 else 0) 4 ++ leBytes (pdrKind i) 1 ++ leBytes i 2)
    | none => reply s bus "GetPDR" 0x82 []))

/-- PLDM_GET_PDR_REPOSITORY_INFO. -/
def execPldmGetPdrRepositoryInfo (bus : Nat) (s : State) : Host.Outcome State Fault Refusal :=
  .next (pldm s bus "GetPDRRepositoryInfo" (fun s => reply s bus "GetPDRRepositoryInfo" 0 (leBytes 0 1 ++ leBytes pdrIds.length 4)))

/-- EFFECTER_POWER_STATE (R493, R522). -/
def execEffecterPowerState (bus target : Nat) (s : State) : Host.Outcome State Fault Refusal :=
  .next (pldm s bus "EFFECTER_POWER" (fun s =>
    if target = 0 then reply (if s.power.moving.isSome then s else enterA0 s true) bus "EFFECTER_POWER" 0 []
    else if target = 2 || target = 3 then
      reply (if s.power.moving.isSome then s else enterA2 s target) bus "EFFECTER_POWER" 0 []
    else reply s bus "EFFECTER_POWER" 0x81 []))

/-- EFFECTER_CHIP_RESET (R462, R522): a chip reset by the Carillon, for which a dump is due (R477). -/
def execEffecterChipReset (bus : Nat) (s : State) : Host.Outcome State Fault Refusal :=
  .next (pldm s bus "EFFECTER_RESET" (fun s => reply (requestChip s 3 true (page .hng 0)) bus "EFFECTER_RESET" 0 []))

/-- EFFECTER_CONFIRM (R413, R522). -/
def execEffecterConfirm (bus : Nat) (ok : Bool) (s : State) : Host.Outcome State Fault Refusal :=
  .next (pldm s bus "EFFECTER_CONFIRM" (fun s => reply (fwConfirm s ok) bus "EFFECTER_CONFIRM" 0 []))

/-! ### Firmware update (R414, R415, R520) -/

/-- The state of the update. -/
def setUpd (s : State) (n : Nat) : State := { s with carillon := { s.carillon with upd := n } }

/-- PLDM_REQUEST_UPDATE: refused while the active slot is TRIAL or a transfer runs. -/
def execPldmRequestUpdate (bus : Nat) (s : State) : Host.Outcome State Fault Refusal :=
  .next (pldm s bus "RequestUpdate" (fun s =>
    if brState s.fw.bootRec s.fw.bootRec.active = 3 || s.fw.staging.isSome then reply (fwResult s 4) bus "RequestUpdate" 0x8A []
    else if s.carillon.upd ≠ 0 then reply s bus "RequestUpdate" 0x81 []
    else reply (setUpd s 1) bus "RequestUpdate" 0 []))

/-- PLDM_PASS_COMPONENT_TABLE: the one component is classification 0x000A, identifier 0x4A04. -/
def execPldmPassComponentTable (bus cls id : Nat) (s : State) : Host.Outcome State Fault Refusal :=
  .next (pldm s bus "PassComponentTable" (fun s =>
    if s.carillon.upd ≠ 1 then reply s bus "PassComponentTable" 0x80 []
    else if cls = 0x000A && id = 0x4A04 then reply (setUpd s 2) bus "PassComponentTable" 0 (leBytes 0 2)
    else reply s bus "PassComponentTable" 0 (leBytes 1 1 ++ leBytes 0x06 1)))

/-- PLDM_UPDATE_COMPONENT (R414): staging of `size` bytes begins, and data is requested. -/
def execPldmUpdateComponent (bus size : Nat) (s : State) : Host.Outcome State Fault Refusal :=
  .next (pldm s bus "UpdateComponent" (fun s =>
    if s.carillon.upd ≠ 2 then reply s bus "UpdateComponent" 0x80 []
    else match (if size ≤ 0x1000000 then stageBegin s size else none) with
      | some s => emit (reply (setUpd s 3) bus "UpdateComponent" 0 (leBytes 0 2)) (.mgmt bus "RequestFirmwareData" (leBytes 0 4))
      | none => reply (fwResult s 4) bus "UpdateComponent" 0 (leBytes 1 1 ++ leBytes 1 1)))

/-- FIRMWARE_DATA_RECEIVED (R414): at most 1,024 bytes, which are written to the slot; the next are requested, or the transfer
is complete. -/
def execFirmwareDataReceived (bus : Nat) (data : List Byte) (s : State) : Host.Outcome State Fault Refusal :=
  .next (
    if bus ≠ s.carillon.token.getD 2 || s.carillon.upd ≠ 3 || 1024 < data.length then s
    else
      let s := stageData s data
      match s.fw.staging with
      | some t =>
        if t.data.length < t.size then emit s (.mgmt bus "RequestFirmwareData" (leBytes t.data.length 4))
        else emit s (.mgmt bus "TransferComplete" (leBytes 0 1))
      | none => s)

/-- PLDM_ACTIVATE_FIRMWARE: nothing changes until the next S0. -/
def execPldmActivateFirmware (bus : Nat) (s : State) : Host.Outcome State Fault Refusal :=
  .next (pldm s bus "ActivateFirmware" (fun s =>
    if s.carillon.upd ≠ 4 then reply s bus "ActivateFirmware" 0x80 []
    else reply (setUpd s 0) bus "ActivateFirmware" 0 (leBytes 0 2)))

/-- PLDM_GET_STATUS. -/
def execPldmGetStatus (bus : Nat) (s : State) : Host.Outcome State Fault Refusal :=
  .next (pldm s bus "GetStatus" (fun s => reply s bus "GetStatus" 0 (leBytes s.carillon.upd 1)))

/-- PLDM_CANCEL_UPDATE: staging is abandoned. -/
def execPldmCancelUpdate (bus : Nat) (s : State) : Host.Outcome State Fault Refusal :=
  .next (pldm s bus "CancelUpdate" (fun s => reply (setUpd (stageAbort s) 0) bus "CancelUpdate" 0 []))

/-! ### Vendor messages (R524) -/

/-- CAR_STATUS: CAR_CTRL_STATE, the boot stage, the local time, and the tray's own fields of the record (R528). -/
def execCarStatus (bus : Nat) (s : State) : Host.Outcome State Fault Refusal :=
  .next (onBus s bus (fun s =>
    reply s bus "STATUS" 0 (leBytes (ctrlWord s).toNat 4 ++ leBytes (bootStage s) 1 ++ leBytes s.us 8 ++
      slice s.carillon.cfg 0x20 3)))

/-- SIZE of the held dump (R481). -/
def dumpSize (s : State) : Nat := leNat ((List.range 4).map (fun j => dumpByte s (0x10 + j)))

/-- MCTP_DUMP_READ: at most 1,024 bytes at an offset; BAD_STATE without a dump, BAD_RANGE beyond SIZE. -/
def execMctpDumpRead (bus off : Nat) (s : State) : Host.Outcome State Fault Refusal :=
  .next (vendor s bus "DUMP_READ" (fun s =>
    if !dumpHeld s then reply s bus "DUMP_READ" 2 []
    else if dumpSize s ≤ off then reply s bus "DUMP_READ" 3 []
    else reply s bus "DUMP_READ" 0 ((List.range (min 1024 (dumpSize s - off))).map (fun j => dumpByte s (off + j)))))

/-- CONFIG_READ. -/
def execConfigRead (bus : Nat) (s : State) : Host.Outcome State Fault Refusal :=
  .next (vendor s bus "CONFIG_READ" (fun s => reply s bus "CONFIG_READ" 0 s.carillon.cfg))

/-- The record that CONFIG_WRITE writes: SEQ one above that of the copy in use, and its CRC (R528). -/
def cfgNext (s : State) (b : List Byte) : List Byte :=
  let seq := (match cfgPick s with | some (_, x) => leAt x 8 4 | none => 0) + 1
  let b := slice b 0 8 ++ leBytes seq 4 ++ slice b 0xC 0xF0
  b ++ leBytes (crc32c b) 4

/-- CONFIG_WRITE (R528): a record that passes its check is written to the copy that is not in use. -/
def execConfigWrite (bus : Nat) (data : List Byte) (s : State) : Host.Outcome State Fault Refusal :=
  .next (vendor s bus "CONFIG_WRITE" (fun s =>
    if data.length ≠ 256 || !cfgOk data then reply s bus "CONFIG_WRITE" 3 []
    else
      let c := match cfgPick s with | some (c, _) => 1 - c | none => 0
      let b := cfgNext s data
      reply (flashWrite (flashErase s (cfgBase c) 0x1000) (cfgBase c) b) bus "CONFIG_WRITE" 0 []))

/-- TELEMETRY: every sensor with the local time of its sample. -/
def execTelemetry (bus : Nat) (s : State) : Host.Outcome State Fault Refusal :=
  .next (vendor s bus "TELEMETRY" (fun s =>
    reply s bus "TELEMETRY" 0 (s.carillon.samples.flatMap (fun e => leBytes e.1 2 ++ leBytes e.2.1 4 ++ leBytes e.2.2 8))))

end Sys2Proof.Machine
end

