-- ==== Sys2Proof/Machine/Tensor.lean ====
section
/-!
DEFINITION. The Tensor Engine: records and their checks (R115 to R119, R155, R156), MMA (R123 to R127), write-back
(R128 to R130), ZERO, LDACC, and completion (R86, R120, R121).
-/
namespace Sys2Proof.Machine

/-! ### Record fields (R155) -/

def teKind (r : List Byte) : Nat := leAt r 0 1
def teAcc (r : List Byte) : Nat := leAt r 1 1
def teB2 (r : List Byte) : Nat := leAt r 2 1
def teB3 (r : List Byte) : Nat := leAt r 3 1
def teM (r : List Byte) : Nat := 16 * (bits (teB2 r) 0 2 + 1)
def teN (r : List Byte) : Nat := 16 * (bits (teB2 r) 2 2 + 1)
def teInit (r : List Byte) : Bool := bit (teB2 r) 4
def teSparse (r : List Byte) : Bool := bit (teB2 r) 5
def teSmode (r : List Byte) : Nat := bits (teB2 r) 6 2
def teFa (r : List Byte) : Nat := bits (teB3 r) 0 4
def teFb (r : List Byte) : Nat := bits (teB3 r) 4 4
def teK (r : List Byte) : Nat := leAt r 4 2
def teOff (r : List Byte) (o : Nat) : Nat := leAt r o 4
def wbInt (r : List Byte) : Bool := bit (teB2 r) 4
def wbSat (r : List Byte) : Bool := bit (teB2 r) 5
def wbZero (r : List Byte) : Bool := bit (teB2 r) 6
def wbFd (r : List Byte) : Nat := bits (teB3 r) 0 4
def wbRm (r : List Byte) : Nat := bits (teB3 r) 4 2

/-! ### Formats (R116, R117) -/

/-- Element format of an FMT code; INT8 and INT32 have none. -/
def fmtOf (c : Nat) : Fmt :=
  if c = 0 then .fp32 else if c = 1 then .bf16 else if c = 2 then .fp16 else if c = 3 || c = 7 then .e4m3
  else if c = 4 || c = 8 then .e5m2 else .e2m1

/-- An MX format. -/
def fmtMx (c : Nat) : Bool := c = 7 || c = 8 || c = 9

/-- Element size in bits. -/
def fmtBits (c : Nat) : Nat := if c = 0 || c = 6 then 32 else if c = 1 || c = 2 then 16 else if c = 9 then 4 else 8

/-- G, largest dense K, whether a sparse A is accepted, and core cycles per K position, of an operand pair (R117). -/
def pairInfo (fa fb : Nat) : Option (Nat × Nat × Bool × Nat) :=
  let fp8 (c : Nat) : Bool := c = 3 || c = 4
  let mx8 (c : Nat) : Bool := c = 7 || c = 8
  if fa = 0 && fb = 0 then some (4, 128, false, 16)
  else if fa = 1 && fb = 1 then some (16, 512, true, 4)
  else if fa = 2 && fb = 2 then some (16, 512, false, 4)
  else if fp8 fa && fp8 fb then some (32, 1024, true, 2)
  else if fa = 5 && fb = 5 then some (32, 1024, false, 2)
  else if mx8 fa && mx8 fb then some (32, 1024, true, 2)
  else if (fa = 9 && mx8 fb) || (mx8 fa && fb = 9) then some (32, 1024, false, 2)
  else if fa = 9 && fb = 9 then some (32, 2048, true, 1)
  else none

/-- Bytes of `n` elements of a format. -/
def fmtLen (c n : Nat) : Nat := n * fmtBits c / 8

/-- Stored elements of a row of A. -/
def rowElems (r : List Byte) : Nat := if teSparse r then teK r / 2 else teK r

/-! ### Checks (R118, R119, R156) -/

/-- A window offset or stride is a multiple of 64 B. -/
def mult64 (n : Nat) : Bool := n % 64 = 0

/-- Is a record validly encoded (R115 to R118, R156)? -/
def teValid (r : List Byte) : Bool :=
  match teKind r with
  | 0 =>
    (match pairInfo (teFa r) (teFb r) with
      | none => false
      | some (_, maxK, sp, _) =>
        (!teSparse r || sp) && decide (32 ≤ teK r) && teK r % 32 = 0 &&
        decide (teK r ≤ (if teSparse r then 2 * maxK else maxK))) &&
    decide (teSmode r ≤ 2) && !(teFa r = 5 && teSmode r ≠ 0) &&
    leAt r 6 2 = 0 && leAt r 0x30 16 = 0 &&
    mult64 (teOff r 0x08) && mult64 (teOff r 0x10) && mult64 (teOff r 0x0C) && mult64 (teOff r 0x14) &&
    decide (fmtLen (teFa r) (rowElems r) ≤ teOff r 0x0C) && decide (fmtLen (teFb r) (teK r) ≤ teOff r 0x14) &&
    (if fmtMx (teFa r) || fmtMx (teFb r) then mult64 (teOff r 0x18) && mult64 (teOff r 0x1C)
      else teOff r 0x18 = 0 && teOff r 0x1C = 0) &&
    (if teSparse r then mult64 (teOff r 0x20) else teOff r 0x20 = 0) &&
    (if teSmode r = 2 then mult64 (teOff r 0x24) else teOff r 0x24 = 0) &&
    (teSmode r = 1 || (teOff r 0x28 = 0 && teOff r 0x2C = 0))
  | 1 =>
    let fd := wbFd r
    decide (fd ≤ 9) && fd ≠ 5 && !(fd = 6 && !wbInt r) && !(fmtMx fd && (teN r = 16 || teN r = 48)) &&
    wbRm r ≠ 3 && !bit (teB2 r) 7 && bits (teB3 r) 6 2 = 0 &&
    leAt r 4 4 = 0 && leAt r 0x18 40 = 0 &&
    mult64 (teOff r 0x08) && mult64 (teOff r 0x0C) && decide (fmtLen fd (teN r) ≤ teOff r 0x0C) &&
    (if fmtMx fd then mult64 (teOff r 0x10) else teOff r 0x10 = 0)
  | 2 => leAt r 2 62 = 0
  | 3 => leAt r 2 6 = 0 && leAt r 0x10 48 = 0 && mult64 (teOff r 0x08) && mult64 (teOff r 0x0C) && decide (256 ≤ teOff r 0x0C)
  | _ => false

/-- Rows of a block of window bytes: `n` rows of `len` bytes, `ld` apart. -/
def rowRanges (off ld len n : Nat) : List (Nat × Nat) := (List.range n).map (fun i => (off + i * ld, len))

/-- Window bytes that an operation reads (R118). -/
def teReads (r : List Byte) : List (Nat × Nat) :=
  match teKind r with
  | 0 =>
    rowRanges (teOff r 0x08) (teOff r 0x0C) (fmtLen (teFa r) (rowElems r)) (teM r) ++
    rowRanges (teOff r 0x10) (teOff r 0x14) (fmtLen (teFb r) (teK r)) (teN r) ++
    (if fmtMx (teFa r) then [(teOff r 0x18, teM r * (teK r / 32))] else []) ++
    (if fmtMx (teFb r) then [(teOff r 0x1C, teN r * (teK r / 32))] else []) ++
    (if teSparse r then [(teOff r 0x20, teM r * (teK r / 8))] else []) ++
    (if teSmode r = 2 then [(teOff r 0x24, 512)] else [])
  | 3 => rowRanges (teOff r 0x08) (teOff r 0x0C) 256 64
  | _ => []

/-- Window bytes that a write-back writes. -/
def teWrites (r : List Byte) : List (Nat × Nat) :=
  if teKind r = 1 then
    rowRanges (teOff r 0x08) (teOff r 0x0C) (fmtLen (wbFd r) (teN r)) (teM r) ++
    (if fmtMx (wbFd r) then [(teOff r 0x10, teM r * (teN r / 32))] else [])
  else []

/-- The address ranges by which R121 judges a write-back: from its first to its last byte, scale bytes apart. -/
def teSpans (r : List Byte) : List (Nat × Nat) :=
  if teKind r = 1 then
    (teOff r 0x08, (teM r - 1) * teOff r 0x0C + fmtLen (wbFd r) (teN r)) ::
    (if fmtMx (wbFd r) then [(teOff r 0x10, teM r * (teN r / 32))] else [])
  else []

/-- Do two byte ranges (offset, length) meet? -/
def rangesMeet (a b : Nat × Nat) : Bool := a.2 ≠ 0 && b.2 ≠ 0 && decide (a.1 < b.1 + b.2) && decide (b.1 < a.1 + a.2)

/-- Nominal duration in core cycles (R120). -/
def teCycles (r : List Byte) : Nat :=
  match teKind r with
  | 0 => match pairInfo (teFa r) (teFb r) with
    | some (_, _, _, c) => (if teSparse r then teK r * c / 2 else teK r * c) + 32
    | none => 0
  | 2 => 8
  | _ => 80

/-! ### Banks -/

/-- A word of a bank: row × 64 + column. -/
def bankWord (b : NMap Word) (i : Nat) : Nat := (mgetD b i 0).toNat

/-- Put a word; zero words are not listed. -/
def bankPut (b : NMap Word) (i v : Nat) : NMap Word := if v % 2 ^ 32 = 0 then mdel b i else mput b i (wd v)

def coreBank (s : State) (n b : Nat) : NMap Word := mgetD (core s n).banks b []
def setBank (s : State) (n b : Nat) (m : NMap Word) : State := modCore s n (fun c => { c with banks := mput c.banks b m })

/-! ### Dot products (R123 to R127) -/

/-- Bits of element `i` of a row of elements. -/
def elemBits (c : Nat) (row : List Byte) (i : Nat) : Nat :=
  if fmtBits c = 4 then bits (leAt row (i / 2) 1) (4 * (i % 2)) 4 else leAt row (i * (fmtBits c / 8)) (fmtBits c / 8)

/-- The elements of a row of A with their logical positions: the index of the stored element, or none for a position that
the metadata does not name, which is an exact zero (R126, R127). -/
def rowPositions (r : List Byte) (meta_ : List Byte) : List (Option Nat × Nat) :=
  if teSparse r then
    (List.range (teK r / 4)).flatMap (fun g =>
      let e := bits (leAt meta_ (g / 2) 1) (4 * (g % 2)) 4
      [(some (2 * g), 4 * g + e % 4), (some (2 * g + 1), 4 * g + e / 4)] ++
        ((List.range 4).filter (fun p => p ≠ e % 4 && p ≠ e / 4)).map (fun p => (none, 4 * g + p)))
  else (List.range (teK r)).map (fun i => (some i, i))

/-- The exact value of an element of A: a stored one, or zero. -/
def elemA (c : Nat) (row : List Byte) : Option Nat → Num
  | some i => (fmtOf c).decode (elemBits c row i)
  | none => .fin false 0 0

/-- A product truncated at the bit of weight 2^w. -/
def truncN (w : Int) : Num → Num
  | .fin n m e => if e < w then .fin n (m >>> (w - e).toNat) w else .fin n m e
  | x => x

/-- Leading exponent of a product, when it is a finite non-zero number. -/
def leadN : Num → Option Int
  | .fin _ m e => if m = 0 then none else some (leadExp m e)
  | _ => none

/-- The exact sum of a group of products, each truncated 30 bits below the leading bit of the largest (R123 step 1,
R124), before its rounding. -/
def groupSum (ps : List Num) : Num :=
  let ls := ps.filterMap leadN
  let ts := match ls with
    | [] => ps
    | l :: t => ps.map (truncN (t.foldl max l - 30))
  match ts with
  | [] => .fin false 0 0
  | p :: t => t.foldl addN p

/-- A block's two scales as a factor; a NaN scale gives NaN (R108, R123, R124). -/
def scaleN (sa sb : Option Nat) : Num :=
  if sa = some 0xFF || sb = some 0xFF then .nan
  else .fin false 1 (((sa.getD 127 : Nat) : Int) + ((sb.getD 127 : Nat) : Int) - 254)

/-- The running FP32 sum P of the group sums (R123 steps 1 and 2): products by logical position, scale bytes by block. -/
def dotP (g k : Nat) (ps : List (Nat × Num)) (sa sb : Option (List Byte)) : Nat :=
  (List.range (k / g)).foldl (fun acc i =>
    let grp := (ps.filter (fun e => e.1 / g = i)).map (·.2)
    let sum := Fmt.fp32.decode (rne .fp32 (groupSum grp))
    let sum := if sa.isSome || sb.isSome then
        mulN sum (scaleN (sa.map (fun b => leAt b i 1)) (sb.map (fun b => leAt b i 1)))
      else sum
    fAdd .fp32 acc (rne .fp32 sum)) 0

/-- An INT8 byte as a signed number. -/
def s8 (n : Nat) : Int := if n < 128 then (n : Int) else (n : Int) - 256

/-- C of an INT8 element (R125): each group sum is added with saturation. -/
def dotInt (g k : Nat) (a b : List Byte) (prior : Nat) : Nat :=
  (List.range (k / g)).foldl (fun acc i =>
    let sum := (List.range g).foldl (fun x j => x + s8 (leAt a (g * i + j) 1) * s8 (leAt b (g * i + j) 1)) (0 : Int)
    wordOfInt (satInt true (sint acc + sum))) prior

/-- The operand bytes of an MMA as the TE reads them: row i of A, column j of B, scale bytes, metadata and the operation
scale. -/
structure MmaIn where
  a : Nat → List Byte
  b : Nat → List Byte
  sa : Nat → Option (List Byte)
  sb : Nat → Option (List Byte)
  md : Nat → List Byte
  va : Nat → Nat
  vb : Nat → Nat

/-- The operands in a slot's window. -/
def mmaIn (s : State) (n k : Nat) (r : List Byte) : MmaIn :=
  let kk := teK r
  let rd (off len : Nat) : List Byte := readWin s n k off len
  { a := fun i => rd (teOff r 0x08 + i * teOff r 0x0C) (fmtLen (teFa r) (rowElems r))
    b := fun j => rd (teOff r 0x10 + j * teOff r 0x14) (fmtLen (teFb r) kk)
    sa := fun i => if fmtMx (teFa r) then some (rd (teOff r 0x18 + i * (kk / 32)) (kk / 32)) else none
    sb := fun j => if fmtMx (teFb r) then some (rd (teOff r 0x1C + j * (kk / 32)) (kk / 32)) else none
    md := fun i => if teSparse r then rd (teOff r 0x20 + i * (kk / 8)) (kk / 8) else []
    va := fun i => if teSmode r = 2 then leNat (rd (teOff r 0x24 + 4 * i) 4) else teOff r 0x28
    vb := fun j => if teSmode r = 2 then leNat (rd (teOff r 0x24 + 256 + 4 * j) 4) else teOff r 0x2C }

/-- C[i, j] after an MMA (R123 to R127). -/
def mmaElem (r : List Byte) (x : MmaIn) (i j prior : Nat) : Nat :=
  let g := ((pairInfo (teFa r) (teFb r)).map (·.1)).getD 32
  let prior := if teInit r then 0 else prior
  if teFa r = 5 then dotInt g (teK r) (x.a i) (x.b j) prior
  else
    let ra := x.a i
    let cb := x.b j
    let ps := (rowPositions r (x.md i)).map (fun e =>
      (e.2, mulN (elemA (teFa r) ra e.1) ((fmtOf (teFb r)).decode (elemBits (teFb r) cb e.2))))
    let p := dotP g (teK r) ps (x.sa i) (x.sb j)
    let sc := if teSmode r = 0 then 0x3F800000 else fMul .fp32 (x.va i) (x.vb j)
    fFma .fp32 sc p prior

/-- The bank after an MMA: rows below M and columns below N change (R122). -/
def mmaBank (r : List Byte) (x : MmaIn) (bank : NMap Word) : NMap Word :=
  (List.range (teM r)).foldl (fun b i =>
    (List.range (teN r)).foldl (fun b j => bankPut b (64 * i + j) (mmaElem r x i j (bankWord bank (64 * i + j)))) b) bank

/-! ### Write-back (R128 to R130) -/

/-- A bank word as an exact value: FP32 or INT32. -/
def wbVal (r : List Byte) (w : Nat) : Num := if wbInt r then ofIntN (sint w) else Fmt.fp32.decode w

/-- The rounding mode of a WB. -/
def wbMode (r : List Byte) : Rm := (rmOf (wbRm r)).getD .rne

/-- The draw of an element of a write-back (R114). -/
def wbRnd (seed wbc i j : Nat) : Nat := srBits seed 1 ((wbc * 4096 + i * 64 + j) % 2 ^ 32)

/-- The stored bits of an element outside MX (R128). -/
def wbElem (r : List Byte) (w rnd : Nat) : Nat :=
  let fd := wbFd r
  let scale := teOff r 0x14
  if fd = 6 then w
  else if fd = 0 && !wbInt r && scale = 0x3F800000 then w
  else roundTo (fmtOf fd) (wbMode r) (wbSat r) rnd (mulN (wbVal r w) (Fmt.fp32.decode scale))

/-- A value that is NaN or infinite. -/
def notFinite : Num → Bool
  | .fin _ _ _ => false
  | _ => true

/-- The larger magnitude of two leading parts. -/
def maxMag (a b : Nat × Int) : Nat × Int := if leMag a.1 a.2 b.1 b.2 then b else a

/-- Magnitude of a finite value. -/
def magN : Num → Nat × Int
  | .fin _ m e => (m, e)
  | _ => (0, 0)

/-- A block of an MX write-back: the scale byte and the 32 element codes (R129). -/
def mxBlock (r : List Byte) (ys : List (Num × Nat)) : Nat × List Nat :=
  let f := fmtOf (wbFd r)
  let amax := (ys.map (fun y => magN y.1)).foldl maxMag (0, 0)
  if ys.any (fun y => notFinite y.1) then (0xFF, ys.map (fun _ => 0))
  else if amax.1 = 0 then (0x7F, ys.map (fun _ => 0))
  else
    let em : Int := if f = .e4m3 then 8 else if f = .e5m2 then 15 else 2
    let e := max (-127) (min 127 (leadExp amax.1 amax.2 - em))
    ((e + 127).toNat, ys.map (fun y => roundTo f (wbMode r) true y.2 (mulN y.1 (.fin false 1 (-e)))))

/-- Element codes of a row as bytes; 4-bit codes two to a byte, the even one low (R109). -/
def packElems (c : Nat) : List Nat → List Byte
  | [] => []
  | [a] => if fmtBits c = 4 then [BitVec.ofNat 8 a] else leBytes a (fmtBits c / 8)
  | a :: b :: t =>
    (if fmtBits c = 4 then [BitVec.ofNat 8 (a + 16 * b)] else leBytes a (fmtBits c / 8) ++ leBytes b (fmtBits c / 8)) ++
    packElems c t

/-- The writes of a write-back: window offsets and bytes. -/
def wbWrites (r : List Byte) (bank : NMap Word) (seed wbc : Nat) : List (Nat × List Byte) :=
  (List.range (teM r)).flatMap (fun i =>
    let row := (List.range (teN r)).map (fun j => (bankWord bank (64 * i + j), wbRnd seed wbc i j))
    if fmtMx (wbFd r) then
      let ys := row.map (fun e => (mulN (wbVal r e.1) (Fmt.fp32.decode (teOff r 0x14)), e.2))
      let blocks := (List.range (teN r / 32)).map (fun b => mxBlock r ((ys.drop (32 * b)).take 32))
      [(teOff r 0x08 + i * teOff r 0x0C, packElems (wbFd r) (blocks.flatMap (·.2))),
       (teOff r 0x10 + i * (teN r / 32), blocks.map (fun b => BitVec.ofNat 8 b.1))]
    else [(teOff r 0x08 + i * teOff r 0x0C, packElems (wbFd r) (row.map (fun e => wbElem r e.1 e.2)))])

/-! ### Operations of the queue -/

/-- The record at the head of a slot's TE queue, read from the image (R139, R251). -/
def teFetch (s : State) (n k : Nat) (ecc : Ecc) : State × Option (TeItem × List Byte) :=
  match mgetD (core s n).teq k [] with
  | [] => (s, none)
  | it :: _ =>
    match imageRead s n k (secOff (slot s n k) 2 + 64 * it.idx) 64 ecc with
    | (s, some r) => (s, some (it, r))
    | (s, none) => (s, none)

/-- An error of a TE record ends the context (R102, R119). -/
def teErr (s : State) (e : ErrCode) (n k : Nat) : State := errCtx s e n k 0

/-- May the operation start beside those that run (R121)? -/
def teReady (s : State) (n k bank : Nat) (r : List Byte) : Bool :=
  (core s n).teRun.all (fun x => x.slot ≠ k ||
    ((x.bank ≠ bank || (x.kind = 0 && teKind r = 0)) &&
     !x.wr.any (fun w => (teReads r).any (rangesMeet w))))

/-- Local memory's findings on all the bytes an operation reads, every poisoned word one error; ERR of the first (R102, R217,
R223). -/
def teCheck (s : State) (n k : Nat) (ecc : Ecc) (r : List Byte) : State × Option Nat :=
  let r := (teReads r).foldl (fun (a : State × Option Nat × Ecc) x =>
    let (s, e) := checkRead a.1 (winDpa a.1 n k x.1) x.2 a.2.2 (slot a.1 n k).ctag
    (s, a.2.1.or e, eccAfter a.2.2 (granules (winDpa a.1 n k x.1) x.2).length))
    (s, none, ecc)
  (r.1, r.2.1)

/-- The operation is taken from the queue, which takes a further record, and runs. -/
def teStart (s : State) (n k bank : Nat) (it : TeItem) (r : List Byte) (undo : List (Nat × Byte)) : State :=
  feedTe (modCore s n (fun c => { c with
    teq := mupd c.teq k [] (fun q => q.drop 1)
    teRun := c.teRun.map (fun x => { x with overlapped := true }) ++
      [{ slot := k, order := it.order, kind := teKind r, bank := bank, wr := teSpans r, undo := undo,
         cycles := teCycles r, overlapped := !c.teRun.isEmpty }] })) n k

/-- The effect of a valid operation on its bank and the window (R115, R122, R128). -/
def teEffect (s : State) (n k bank : Nat) (it : TeItem) (r : List Byte) : State :=
  match teKind r with
  | 0 => teStart (setBank s n bank (mmaBank r (mmaIn s n k r) (coreBank s n bank))) n k bank it r []
  | 1 =>
    let ws := wbWrites r (coreBank s n bank) (slotReg s n k 0x424).toNat (slot s n k).wbc
    let undo := ws.flatMap (fun w => (List.range w.2.length).map (fun i =>
      (winDpa s n k (w.1 + i), memGet s.mem (winDpa s n k (w.1 + i)))))
    let s := ws.foldl (fun s w => writeWin s n k w.1 w.2) s
    let s := if wbZero r then setBank s n bank [] else s
    teStart (modSlot s n k (fun sl => { sl with wbc := (sl.wbc + 1) % 2 ^ 32 })) n k bank it r undo
  | 2 => teStart (setBank s n bank []) n k bank it r []
  | _ =>
    let b := (List.range 64).foldl (fun b i =>
      let row := readWin s n k (teOff r 0x08 + i * teOff r 0x0C) 256
      (List.range 64).foldl (fun b j => bankPut b (64 * i + j) (leAt row (4 * j) 4)) b) []
    teStart (setBank s n bank b) n k bank it r []

/-- The TE takes a record of a slot's queue (R119): encoding, bank, window bytes, in that order; then the accumulator's
and the memory's findings; then the effect. `kind` is the kind of the command. -/
def teTake (s : State) (n k kind : Nat) (ecc : Ecc) : State :=
  if !running s n k then s
  else match teFetch s n k ecc with
  | (s, none) => s
  | (s, some (it, r)) =>
    if !teValid r then teErr s eTeOpInvalid n k
    else if teKind r ≠ kind then s
    else match (slot s n k).banks[teAcc r]? with
    | none => teErr s eTeAccNotOwned n k
    | some bank =>
      if (teReads r ++ teWrites r).any (fun x => winBytes s n k < x.1 + x.2) then teErr s eTeOperandRange n k
      else if !teReady s n k bank r then s
      else
        let s := if ecc = .corr then recErr s eTeAccEccCorr n k bank (slot s n k).ctag else s
        if ecc = .uncorr then
          let s := teErrDet s eTeAccEccUncorr n k bank
          let (s, again) := noteEcc s n 1 bank
          if again then corePending s n else s
        else match teCheck s n k (eccAfter ecc 1) r with
        | (s, some e) => endCtx s n k 5 e 3
        | (s, none) => teEffect s n k bank it r
where
  /-- An error that records the bank in DETAIL (R102). -/
  teErrDet (s : State) (e : ErrCode) (n k det : Nat) : State := errCtx s e n k det

def execTeMma (n k : Nat) (ecc : Ecc) (s : State) : Host.Outcome State Fault Refusal := .next (teTake s n k 0 ecc)
def execTeWb (n k : Nat) (ecc : Ecc) (s : State) : Host.Outcome State Fault Refusal := .next (teTake s n k 1 ecc)
def execTeZero (n k : Nat) (ecc : Ecc) (s : State) : Host.Outcome State Fault Refusal := .next (teTake s n k 2 ecc)
def execTeLdacc (n k : Nat) (ecc : Ecc) (s : State) : Host.Outcome State Fault Refusal := .next (teTake s n k 3 ecc)

/-- TE_OP_INVALID (R119): the record at the head of the queue is not validly encoded. -/
def execTeOpInvalid (n k : Nat) (s : State) : Host.Outcome State Fault Refusal :=
  .next (if !running s n k then s
    else match teFetch s n k .none with
    | (s, none) => s
    | (s, some (_, r)) => if teValid r then s else teErr s eTeOpInvalid n k)

/-- TE_BUSY_CYCLES counts an operation that ran alone with its nominal time (R101, R120); what one adds that shared its time
with others is a free amount up to that, because the cycles of the overlap are counted once (log entry 32). -/
def teBusy (s : State) (n : Nat) (x : TeRun) : State :=
  if x.overlapped then
    let (w, s) := drawWord s
    bump s .te n 0x10C (w.toNat % (x.cycles + 1))
  else bump s .te n 0x10C x.cycles

/-- TE_OP_COMPLETE (R84, R120, R121, R151): the oldest operation of the bank port (WB, ZERO, LDACC) or of the multiplier
array (MMA) completes; the part completes with its last. -/
def teComplete (s : State) (n : Nat) (port : Bool) (ecc : Ecc) : State :=
  match (core s n).teRun.find? (fun x => decide (x.kind ≠ 0) == port) with
  | none => s
  | some x =>
    if ecc = .uncorr then
      let s := errCtx s eTeAccEccUncorr n x.slot x.bank
      let (s, again) := noteEcc s n 1 x.bank
      if again then corePending s n else s
    else
      let k := x.slot
      let s := if ecc = .corr then recErr s eTeAccEccCorr n k x.bank (slot s n k).ctag else s
      let s := modCore s n (fun c => { c with teRun := c.teRun.erase x })
      let s := teBusy (bump s .te n 0x110 1) n x
      let last := (slot s n k).inflight.find? (fun f => f.order = x.order && f.teLeft = 1)
      let s := modSlot s n k (fun sl => { sl with
        inflight := markDone (sl.inflight.map (fun f => if f.order = x.order then { f with teLeft := f.teLeft - 1 } else f)) })
      let s := match last with
        | some f => addBeat s n k 1 (stBeat f.record 1)
        | none => s
      refresh s n k

def execTeOpComplete (n : Nat) (port : Bool) (ecc : Ecc) (s : State) : Host.Outcome State Fault Refusal :=
  .next (teComplete s n port ecc)

end Sys2Proof.Machine
end

