-- ==== Sys2Proof/Machine/Save.lean ====
section
/-!
DEFINITION. The save image (R95 to R98, R166, R260 to R263), restore (R189, R262) and the load of a rudiment
(R144, R145, R166). The layout of the 512 B SQ state section and of the 160 B strand scoreboard is the model's (log
entry 11).
-/
namespace Sys2Proof.Machine

/-! ### Sizes (R97) -/

/-- Round up to a multiple of 256. -/
def up256 (n : Nat) : Nat := (n + 255) / 256 * 256

def svStreams (sl : Slot) : Nat := up256 (64 * sl.streams.length)

/-- Offsets of the sections of a save image: streams, accumulators, strands, window, sync objects, end. -/
structure SaveOffs where
  xe : Nat
  acc : Nat
  ve : Nat
  lm : Nat
  syn : Nat
  size : Nat
deriving DecidableEq, Repr

def saveOffs (sl : Slot) (win : Nat) : SaveOffs :=
  let xe := 256 + 512
  let acc := xe + svStreams sl
  let ve := acc + 16384 * sl.banks.length
  let lm := ve + 2304 * sl.strands.length
  let syn := lm + win
  ⟨xe, acc, ve, lm, syn, syn + 512 * sl.blocks.length⟩

/-! ### Writing -/

/-- The SQ state section (R166). -/
def saveSq (sl : Slot) : List Byte :=
  let loops := (List.range 4).flatMap (fun i => match sl.loops[i]? with
    | some l => leBytes l.start 4 ++ leBytes l.count 4 ++ leBytes l.iter 4 ++ leBytes l.exit 4
    | none => List.replicate 16 0)
  let fl := (List.range 4).flatMap (fun i => match sl.inflight[i]? with
    | some f => leBytes f.step 4 ++ leBytes f.variant 4 ++ leBytes f.order 4 ++ leBytes f.iter0 4 ++ leBytes f.teLeft 2 ++
        leBytes f.veLeft 2 ++ leBytes f.xeLeft 2 ++ leBytes f.doneNo 4 ++ List.replicate 6 0
    | none => List.replicate 32 0)
  let masks := (List.range 4).flatMap (fun i => leBytes ((sl.inflight[i]?).map (·.chainMask) |>.getD 0) 32)
  padTo (padTo (leBytes 1 2 ++ leBytes sl.inflight.length 1 ++ leBytes (b2n sl.reentry) 1 ++ leBytes sl.pos 4 ++
    leBytes sl.loops.length 4 ++ leBytes sl.beatSq 4 ++ leBytes sl.beatTe 4 ++ leBytes sl.beatVe 4 ++ leBytes sl.beatXe 4 ++
    leBytes sl.wbc 4 ++ loops ++ fl ++ leBytes sl.issued 4) 256 ++ masks) 512

/-- The restart offset of a descriptor (R246, R256, R260). -/
def restartOff (d : ActDesc) : Nat :=
  minList (d.reads.map (·.off)) (min ((d.lost).getD d.issued) d.issued)

/-- The 64 B entry of a stream (R263). A restored context whose image has not been checked again keeps its chain by its VA. -/
def saveStream (s : State) (n k ph : Nat) : List Byte :=
  let x := stream s n ph
  let sl := slot s n k
  match x.chain with
  | none => padTo (List.replicate 16 0 ++ leBytes (if x.st = .stopped then 4 else 0) 1 ++ List.replicate 7 0 ++ leBytes 0xFFFFFFFF 4) 64
  | some c =>
    let d := (x.descs.map settleDesc).head?
    let code := if x.st = .stopped then 4 else if x.faultPending then 3 else 1
    let flags := b2n (match d with
      | some d => d.retry
      | none => x.retry) + 2 * b2n (x.faultPending && x.st ≠ .stopped)
    let tab := match d with
      | some d => if d.table.isSome then d.tabIdx else 0xFFFFFFFF
      | none => x.table.getD 0xFFFFFFFF
    padTo (leBytes (if sl.restored then c.first else sl.rud + secOff sl 4 + 64 * c.first) 8 ++
      leBytes (match d with
        | some d => d.idx
        | none => x.next) 4 ++
      leBytes (match d with
        | some d => restartOff d
        | none => x.offset) 4 ++
      leBytes code 1 ++ leBytes flags 1 ++ leBytes ((sl.inflight.findIdx? (fun f => f.order = c.order)).getD 0) 1 ++ leBytes 0 1 ++
      leBytes (match d with
        | some d => d.acked
        | none => x.acked) 4 ++ leBytes tab 4) 64

/-- A bank: 4,096 FP32 values, row-major. -/
def saveBank (m : NMap Word) : List Byte := (List.range 4096).flatMap (fun i => leBytes (mgetD m i 0).toNat 4)

/-- The 160 B scoreboard of a strand. -/
def saveBoard (x : Strand) : List Byte :=
  let (code, peek, obj, val) : Nat × Bool × Nat × Nat := match x.run with
    | .idle => (0, false, 0, 0)
    | .run => (1, false, 0, 0)
    | .wait o p v => (2, p, o, v)
    | .stopped => (3, false, 0, 0)
  let loops := (List.range 4).flatMap (fun i => match x.loops[i]? with
    | some l => leBytes l.first 4 ++ leBytes l.last 4 ++ leBytes l.left 4
    | none => List.replicate 12 0)
  let la := (List.range 4).flatMap (fun i => match x.launches[i]? with
    | some l => leBytes l.order 4 ++ leBytes l.idx 2 ++ leBytes l.variant 2 ++ leBytes l.entry 4 ++ leBytes l.iter 4
    | none => List.replicate 16 0)
  padTo (leBytes x.pc 4 ++ leBytes x.entry 4 ++ leBytes code 1 ++ leBytes (b2n peek) 1 ++ leBytes obj 2 ++ leBytes val 4 ++
    leBytes x.order 4 ++ leBytes x.src 4 ++ leBytes x.loops.length 1 ++ leBytes x.launches.length 1 ++ [0, 0] ++ loops ++ la)
    160

/-- A strand: V, S and P registers and the scoreboard. P0, which always reads as all ones, has no storage: its word is 0
(DESIGN CHOICE, log entry 11). -/
def saveStrand (x : Strand) : List Byte :=
  (List.range 512).flatMap (fun i => leBytes (mgetD x.v i 0).toNat 4) ++
  (List.range 16).flatMap (fun i => leBytes (mgetD x.sreg i 0).toNat 4) ++
  (List.range 8).flatMap (fun i => leBytes (mgetD x.preg i 0).toNat 4) ++ saveBoard x

/-- The header (R97). -/
def saveHeader (s : State) (n k size : Nat) : List Byte :=
  let sl := slot s n k
  padTo (leBytes 1 2 ++ [1, 0] ++ leBytes sl.ctag.toNat 4 ++ leBytes ((slotReg s n k 0x408).toNat % 2 ^ 18) 4 ++
    leBytes (slotReg s n k 0x418).toNat 4 ++ leBytes (slotReg s n k 0x414).toNat 4 ++
    leBytes (slotReg s n k 0x424).toNat 4 ++ leBytes sl.rud 8 ++ leBytes size 4) 256

/-- Sections 1 to 6 of the image, in order. -/
def saveBody (s : State) (n k : Nat) (window : List Byte) : List Byte :=
  let sl := slot s n k
  saveSq sl ++ padTo (sl.streams.flatMap (saveStream s n k)) (svStreams sl) ++
  sl.banks.flatMap (fun b => saveBank (mgetD (core s n).banks b [])) ++
  sl.strands.flatMap (fun i => saveStrand (strand s n i)) ++ window ++
  (slotObjs sl).flatMap (fun o => leBytes (syncWord (syncObj s n o)) 8)

/-- Every engine has stopped the slot (R95): no TE operation runs, no fabric answer is outstanding, no bind read is on its way,
and every descriptor that is finished has completed (R257). -/
def allStopped (s : State) (n k : Nat) : Bool :=
  let sl := slot s n k
  (core s n).teRun.all (fun x => x.slot ≠ k) && sl.bind.isNone &&
  sl.streams.all (fun ph => (stream s n ph).descs.all (fun d => d.pkts.isEmpty) &&
    ((stream s n ph).st = .stopped || !(stream s n ph).descs.any descDone))

/-- SAVE_START (R97). -/
def execSaveStart (n k : Nat) (s : State) : Host.Outcome State Fault Refusal :=
  .next (
    let sl := slot s n k
    if sl.st = .preempting && sl.ending.isNone && allStopped s n k then modSlot s n k (fun sl => { sl with saving := true })
    else s)

/-- A fault on a save write: the record of R261, SAVE_FAULT, and the end of the context with outcome SAVE_FAULT. -/
def saveFault (s : State) (n k off : Nat) (i : FaultInfo) : State :=
  let s := postFault s n k { i with access := accSaveWrite } 4 0x1FF 0 off
  let s := recErr s eSaveFault n k 0 (slot s n k).ctag
  endCtx (modSlot s n k (fun sl => { sl with saving := false })) n k 5 (errField eSaveFault) 4

/-- SAVE_FAULT (R261). -/
def execSaveFault (n k off : Nat) (i : FaultInfo) (s : State) : Host.Outcome State Fault Refusal :=
  .next (if (slot s n k).st = .preempting && (slot s n k).saving && (slot s n k).ending.isNone then saveFault s n k off i else s)

/-- VALID of an earlier image is cleared first, so that a partial image holds VALID = 0 (R261); then sections 1 to 6 of the
image are written. -/
def saveSections (s : State) (n k : Nat) : State × Option (Nat × FaultInfo) :=
  let sl := slot s n k
  let body := saveBody s n k (readWin s n k 0 (winBytes s n k))
  match writeVa 2 s n (slotAsid s n k) accSaveWrite (saveVa s n k) 2 [0] sl.ctag with
  | (s, some f) => (s, some f)
  | (s, none) =>
    writeVa (pagesOf (saveOffs sl (winBytes s n k)).size) s n (slotAsid s n k) accSaveWrite (saveVa s n k) 256 body sl.ctag

/-- SAVE_COMPLETE (R97): sections 1 to 6 are written, the header last, and the slot becomes FREE with outcome PREEMPTED. A
poisoned granule of the window ends the context (R217). -/
def execSaveComplete (n : Nat) (rd : Reader) (s : State) : Host.Outcome State Fault Refusal :=
  .next (
    let sl := slot s n rd.no
    if !(sl.st = .preempting && sl.saving && sl.ending.isNone) then s
    else
      let o := saveOffs sl (winBytes s n rd.no)
      match checkRead s (winDpa s n rd.no 0) (winBytes s n rd.no) rd.ecc sl.ctag with
      | (s, some e) => endCtx s n rd.no 5 e 3
      | (s, none) =>
        match saveSections s n rd.no with
        | (s, some (off, i)) => saveFault s n rd.no off i
        | (s, none) =>
          match writeVa 2 s n (slotAsid s n rd.no) accSaveWrite (saveVa s n rd.no) 0 (saveHeader s n rd.no o.size) sl.ctag with
          | (s, some (off, i)) => saveFault s n rd.no off i
          | (s, none) => leaveSlot s n rd.no 2)

/-! ### Restore -/

/-- The INSTALL with RESTORE = 1 ends with INVALID; the slot stays FREE with its resources returned (R98, R262). The generation
that it advanced stays, and SQ_SLOT_CTAG shows the CTAG formed at step 3 of R78 (DESIGN CHOICE,
log entry 63). -/
def restoreFail (s : State) (n k : Nat) : State :=
  sqResult (modSlot s n k (fun sl => { sl with
    restoring := false, strands := [], banks := [], blocks := [], streams := [], notify := none })) n k resInvalid

/-- Read the save image at an offset (R262): the bytes, or the state after the INSTALL has failed. -/
def saveRead (s : State) (n k off len : Nat) (ecc : Ecc) : State × Option (List Byte) :=
  match readVa (pagesOf len) s n (slotAsid s n k) accRestoreRead (saveVa s n k + off) 0 len (slot s n k).ctag ecc with
  | (s, .ok b) => (s, some b)
  | (s, .fault o i) => (restoreFail (postFault s n k i 0 0x1FF 0 (off + o)) n k, none)
  | (s, .poison _) => (restoreFail s n k, none)

/-- The checks of R98 on the header. -/
def saveHeaderOk (s : State) (n k : Nat) (h : List Byte) : Bool :=
  leAt h 2 1 = 1 && leAt h 0 2 = 1 && leAt h 0xC 4 = (slotReg s n k 0x418).toNat &&
  fld (wd (leAt h 0x10 4)) 16 8 = winSize s n k

/-- RESTORE_HEADER_READ (R98). -/
def execRestoreHeaderRead (n : Nat) (rd : Reader) (s : State) : Host.Outcome State Fault Refusal :=
  .next (
    if !(slot s n rd.no).restoring then s
    else match saveRead s n rd.no 0 256 rd.ecc with
      | (s, none) => s
      | (s, some h) =>
        if saveHeaderOk s n rd.no h then modSlot s n rd.no (fun sl => { sl with rud := leAt h 0x18 8 % 2 ^ 48 })
        else restoreFail s n rd.no)

/-- The strand that 2,304 bytes spell. -/
def loadStrand (b : List Byte) : Strand :=
  let words (off n : Nat) : NMap Word :=
    ((List.range n).map (fun i => (i, wd (leAt b (off + 4 * i) 4)))).filter (fun e => e.2 ≠ 0)
  let t := b.drop 2144
  let code := leAt t 8 1
  { v := words 0 512, sreg := words 2048 16, preg := words 2112 8, pc := leAt t 0 4, entry := leAt t 4 4
    run := if code = 1 then .run else if code = 2 then .wait (leAt t 10 2) (leAt t 9 1 = 1) (leAt t 12 4)
      else if code = 3 then .stopped else .idle
    order := leAt t 16 4, src := leAt t 20 4
    loops := (List.range (min 4 (leAt t 24 1))).map (fun i => ⟨leAt t (28 + 12 * i) 4, leAt t (32 + 12 * i) 4, leAt t (36 + 12 * i) 4⟩)
    launches := (List.range (min 4 (leAt t 25 1))).map (fun i =>
      ⟨leAt t (76 + 16 * i) 4, leAt t (80 + 16 * i) 2, leAt t (84 + 16 * i) 4, leAt t (82 + 16 * i) 2, leAt t (88 + 16 * i) 4⟩) }

/-- The stream that an entry spells (R263); a chain's first descriptor is resolved once the image is loaded. -/
def loadStream (fl : List InFlight) (b : List Byte) : Stream :=
  let code := leAt b 0x10 1
  let fl1 := leAt b 0x11 1
  if code = 0 then Stream.init
  else
    { st := if code = 4 then .stopped else .run
      chain := (fl[leAt b 0x12 1 % 4]?).map (fun f => ⟨f.order, 0, leAt b 0 8⟩)
      next := leAt b 8 4, offset := leAt b 0xC 4, retry := bit fl1 0, acked := leAt b 0x14 4
      table := if leAt b 0x18 4 = 0xFFFFFFFF then none else some (leAt b 0x18 4) }

/-- Fields of the SQ state section. -/
def loadSq (sl : Slot) (b : List Byte) : Slot :=
  { sl with
    reentry := leAt b 3 1 = 1, pos := leAt b 4 4
    loops := (List.range (min 4 (leAt b 8 4))).map (fun i =>
      ⟨leAt b (32 + 16 * i) 4, leAt b (36 + 16 * i) 4, leAt b (40 + 16 * i) 4, leAt b (44 + 16 * i) 4⟩)
    beatSq := leAt b 12 4, beatTe := leAt b 16 4, beatVe := leAt b 20 4, beatXe := leAt b 24 4, wbc := leAt b 28 4
    issued := leAt b 224 4
    inflight := (List.range (min 4 (leAt b 2 1))).map (fun i =>
      let o := 96 + 32 * i
      { step := leAt b o 4, variant := leAt b (o + 4) 4, order := leAt b (o + 8) 4, iter0 := leAt b (o + 12) 4
        teLeft := leAt b (o + 16) 2, veLeft := leAt b (o + 18) 2, xeLeft := leAt b (o + 20) 2
        doneNo := leAt b (o + 22) 4
        chainMask := leAt b (256 + 32 * i) 32 }) }

/-- Recover the releases that were discarded while the context was pre-empted (R189). -/
def recoverReleases (s : State) (n k : Nat) : State :=
  ((slotObjs (slot s n k)).zipIdx).foldl (fun s e =>
    let x := syncObj s n e.1
    if x.pend = 0 then s
    else
      let s := modCore s n (fun c => { c with relIndex := if c.relIndex.contains e.1 then c.relIndex else c.relIndex ++ [e.1] })
      let p := if x.gkind then (fbar s (barrierPipe s (partOfCore s n)) x.gbar).phase else (gongBar s (coreTile n) x.gbar).phase
      let m := min x.pend ((p + 8 - (x.gphase + 4 - x.pend)) % 4)
      (List.range m).foldl (fun s _ => syncOp s n k e.2 .release true) s) s

/-- Write the restored image into the slot's resources. -/
def restoreInto (s : State) (n k : Nat) (o : SaveOffs) (b : List Byte) : State :=
  let sl := slot s n k
  let at_ (off len : Nat) : List Byte := slice b (off - 256) len
  let sl' := loadSq sl (at_ 256 512)
  let s := modSlot s n k (fun _ => sl')
  let s := (sl.streams.zipIdx).foldl (fun s e =>
    modStream s n e.1 (fun _ => loadStream sl'.inflight (at_ (o.xe + 64 * e.2) 64))) s
  let s := (sl.banks.zipIdx).foldl (fun s e =>
    setBank s n e.1
      (((List.range 4096).map (fun i => (i, wd (leAt (at_ (o.acc + 16384 * e.2) 16384) (4 * i) 4)))).filter (fun x => x.2 ≠ 0))) s
  let s := (sl.strands.zipIdx).foldl (fun s e =>
    modStrand s n e.1 (fun _ => loadStrand (at_ (o.ve + 2304 * e.2) 2304))) s
  let s := writeWin s n k 0 (at_ o.lm (winBytes s n k))
  (slotObjs sl).zipIdx.foldl (fun s e => modSync s n e.1 (fun _ => syncOfWord (leAt (at_ (o.syn + 8 * e.2) 8) 0 8))) s

/-- RESTORE_COMPLETE (R98, R189, R262): the image is read in, releases are recovered and the slot becomes ACTIVE; only then are
waits evaluated. -/
def execRestoreComplete (n : Nat) (rd : Reader) (s : State) : Host.Outcome State Fault Refusal :=
  .next (
    let sl := slot s n rd.no
    if !sl.restoring then s
    else
      let o := saveOffs sl (winBytes s n rd.no)
      match saveRead s n rd.no 0 256 rd.ecc with
      | (s, none) => s
      | (s, some h) =>
        if !saveHeaderOk s n rd.no h then restoreFail s n rd.no
        else match saveRead s n rd.no 256 (o.size - 256) (eccAfter rd.ecc 4) with
          | (s, none) => s
          | (s, some b) =>
            let s := restoreInto s n rd.no o b
            let s := modSlot s n rd.no (fun sl => { sl with
              restoring := false, restored := true, loaded := false, rud := leAt h 0x18 8 % 2 ^ 48 })
            let s := setSt s n rd.no .active
            sqResult (wake (recoverReleases s n rd.no) n rd.no) n rd.no resOk)

/-! ### The load of a rudiment, and what a restored context does once its image is checked (R166) -/

/-- Read the record and programs of a restored step again. -/
def refetchStep (s : State) (n k : Nat) (f : InFlight) : State × Option InFlight :=
  let sl := slot s n k
  match imageRead s n k (secOff sl 1 + 64 * f.step) 64 .none with
  | (s, none) => (s, none)
  | (s, some r) =>
    match progRead s n k (stSignalFirst r) (stSignalLen r) .none with
    | (s, none) => (s, none)
    | (s, some g) => (s, some { f with record := r ++ List.replicate 64 0 ++ g })

/-- Hand the parts of a restored step that have not run to their engines: TE records not started, and the chains whose
mask bit is clear. -/
def rehand (s : State) (n k : Nat) (f : InFlight) : State × Bool :=
  let sl := slot s n k
  let r := f.record
  let s := if f.teLeft = 0 then s else
    handTe s n k f.order (stTeFirst r + f.variant * stTeStride r + (stTeCount r - f.teLeft)) f.teLeft
  if !stHasXe r || f.xeLeft = 0 then (s, true)
  else match imageRead s n k (secOff sl 3 + 8 * (stXeFirst r + f.variant * stXeStride r)) (8 * stXeCount r) .none with
    | (s, none) => (s, false)
    | (s, some bs) =>
      ((List.range (stXeCount r)).foldl (fun s i =>
        let e := slice bs (8 * i) 8
        if bit f.chainMask i then s else
        match sl.streams[leAt e 4 2]? with
        | some ph => modStream s n ph (fun x => { x with waiting := x.waiting ++ [⟨f.order, i, leAt e 0 4⟩] })
        | none => s) s, true)

/-- The steps of a restored context go on. Answers false when a read of the image faulted: the load is then made again. -/
def restoreSteps (s : State) (n k : Nat) : State × Bool :=
  let r := (slot s n k).inflight.foldl (fun a f =>
    match a with
    | (s, fs, false) => (s, fs, false)
    | (s, fs, true) => match refetchStep s n k f with
      | (s, none) => (s, fs, false)
      | (s, some f) => (s, fs ++ [f], true)) (s, ([] : List InFlight), true)
  match r with
  | (s, _, false) => (s, false)
  | (s, fs, true) =>
    let sl := slot s n k
    let base := sl.rud + secOff sl 4
    let s := modSlot s n k (fun sl => { sl with inflight := fs })
    let (s, ok) := fs.foldl (fun a f => if a.2 then rehand a.1 n k f else a) (s, true)
    if !ok then
      let s := modSlot s n k (fun x => { x with inflight := sl.inflight })
      let s := modCore s n (fun c => { c with teq := mdel c.teq k })
      (sl.streams.foldl (fun s ph => modStream s n ph (fun x => { x with waiting := [] })) s, false)
    else (sl.streams.foldl (fun s ph => modStream s n ph (fun x => { x with
      chain := x.chain.map (fun c => { c with first := (c.first - base) / 64 }) })) s, true)

/-- RUDIMENT_LOAD_CHECK (R144, R145, R166). -/
def execRudimentLoadCheck (n : Nat) (rd : Reader) (s : State) : Host.Outcome State Fault Refusal :=
  .next (
    if (slot s n rd.no).loaded then s
    else
      let s1 := loadCheck s n rd.no rd.ecc
      if (slot s1 n rd.no).loaded && (slot s1 n rd.no).restored then
        match restoreSteps s1 n rd.no with
        | (s2, true) => checkDone (modSlot s2 n rd.no (fun sl => { sl with restored := false })) n rd.no
        | (s2, false) => modSlot s2 n rd.no (fun sl => { sl with loaded := false })
      else refresh s1 n rd.no)

end Sys2Proof.Machine
end

