-- ==== Sys2Proof/Machine/Sets.lean ====
section
/-!
DEFINITION. Rudiment sets: CHECK, FETCH and SEND of COL_SET_CMD (R387 to R390).
-/
namespace Sys2Proof.Machine

/-- OFFSET, SIZE and HASH of entry i of a manifest (R387). -/
def entOff (b : List Byte) (i : Nat) : Nat := leAt b (0x40 + 48 * i) 4
def entSize (b : List Byte) (i : Nat) : Nat := leAt b (0x44 + 48 * i) 4
def entHash (b : List Byte) (i : Nat) : List Byte := slice b (0x50 + 48 * i) 32

/-- The manifest's own fields (R387). -/
def manifestOk (b : List Byte) : Bool :=
  leAt b 0 4 = 0x54455352 && leAt b 4 2 = 1 && decide (1 ≤ leAt b 6 2) && decide (leAt b 6 2 ≤ 1024) &&
  leAt b 8 4 % 4096 = 0 && decide (leAt b 8 4 ≤ 0x40000000) && leAt b 0x30 16 = 0

/-- An entry's own fields, and its image's MAGIC and IMAGE_SIZE. -/
def entryOk (b : List Byte) (i : Nat) : Bool :=
  leAt b (0x48 + 48 * i) 8 = 0 && entOff b i % 4096 = 0 && decide (entOff b i + entSize b i ≤ leAt b 8 4) &&
  leAt b (entOff b i) 4 = 0x44555258 && leAt b (entOff b i + 0xC) 4 = entSize b i

/-- Do the images of two entries overlap? -/
def entOverlap (b : List Byte) (i j : Nat) : Bool :=
  decide (entOff b i < entOff b j + entSize b j) && decide (entOff b j < entOff b i + entSize b i)

/-- The digest of bytes with a field of 32 bytes taken as zero (R143, R387). -/
def hashWithout (b : List Byte) (off : Nat) : List Byte := sha256 (b.take off ++ List.replicate 32 0 ++ b.drop (off + 32))

/-- Does image i hash as its entry and its header say (R388)? -/
def imageHashOk (b : List Byte) (i : Nat) : Bool :=
  let img := slice b (entOff b i) (entSize b i)
  hashWithout img 0x40 = entHash b i && slice img 0x40 32 = entHash b i

/-- RESULT and INDEX of a set whose bytes are readable: FORMAT 1, HASH 3, in the order of R388. -/
def setJudge (b : List Byte) : Nat × Nat :=
  let n := leAt b 6 2
  if !manifestOk b then (1, 0x7FF)
  else match (List.range n).find? (fun i => !entryOk b i) with
    | some i => (1, i)
    | none =>
      if (List.range n).any (fun i => (List.range i).any (fun j => entOverlap b i j)) then (1, 0x7FF)
      else if hashWithout b 0x10 ≠ slice b 0x10 32 then (3, 0x7FF)
      else match (List.range n).find? (fun i => !imageHashOk b i) with
        | some i => (3, i)
        | none => (0, 0x7FF)

/-- A check of the set at a DPA (R388): BOUNDS 2 and POISON 7 first; COL_SET_SIZE and COL_SET_JOB_TAG show its header. -/
def setCheck (s : State) (pipe d : Nat) (ecc : Ecc) : State × Nat × Nat :=
  let p := partOfPipe s pipe
  if !ownedRange s p d 64 then (s, 2, 0x7FF)
  else match checkRead s d 64 ecc noCtag with
    | (s, some _) => (s, 7, 0x7FF)
    | (s, none) =>
      let (s, h) := readData s d 64 noCtag
      let n := leAt h 8 4
      let s := rset (rset s .col pipe 0x318 (wd n)) .col pipe 0x31C (wd (leAt h 0xC 4))
      if !ownedRange s p d (max 64 n) then (s, 2, 0x7FF)
      else match checkRead s d n (eccBeyond ecc 1) noCtag with
        | (s, some _) => (s, 7, 0x7FF)
        | (s, none) =>
          let (s, b) := readData s d n noCtag
          (s, setJudge (if n < 64 then h else b))

/-- COL_SET_SRC and COL_SET_DST (R390). -/
def setSrc (s : State) (pipe : Nat) : Nat :=
  fld (rget s .col pipe 0x300) 31 12 * 4096 + (rget s .col pipe 0x304).toNat * 2 ^ 32
def setDst (s : State) (pipe : Nat) : Nat :=
  fld (rget s .col pipe 0x308) 31 12 * 4096 + fld (rget s .col pipe 0x30C) 15 0 * 2 ^ 32

/-- A set command reaches a barrier pipeline that is not BUSY (R389, R390). -/
def setCmd (s : State) (req : Req) (pipe op : Nat) (f : State → State × Nat × Nat) : State :=
  guardWrite s req .col pipe 0x310 (fun s =>
    if !isBarrierPipe s pipe || (mget s.setOps pipe).isSome then s
    else
      let s := { s with setOps := mput s.setOps pipe { op := op } }
      let (s, r, i) := f (rset s .col pipe 0x314 (packFields [(0, 1)]))
      { s with setOps := s.setOps.map (fun e =>
        if e.1 = pipe then (pipe, { e.2 with result := if r = 0 then e.2.result else r, index := i }) else e) })

/-- SET_CHECK (R388, R389). -/
def execSetCheck (req : Req) (pipe : Nat) (ecc : Ecc) (s : State) : Host.Outcome State Fault Refusal :=
  .next (setCmd s req pipe 1 (fun s => setCheck s pipe (setSrc s pipe % 2 ^ 48) ecc))

/-- The set arrives from the host and is checked where it lands (R389): HOST_ERROR 4 for an error completion, a timeout or
an owner function that may not master the bus. -/
def setFetch (s : State) (pipe : Nat) (data : Option (List Byte)) : State × Nat × Nat :=
  let p := partOfPipe s pipe
  let f := ownerFunc s p
  if !(s.host.up && mgetD s.host.bme f false) then (s, 4, 0x7FF)
  else
    let s := emit s (.hostRead f (setSrc s pipe) ((data.map (fun b => leAt b 8 4)).getD 64))
    match data with
    | none => (s, 4, 0x7FF)
    | some b =>
      let n := leAt b 8 4
      if !ownedRange s p (setDst s pipe) (max 64 n) then (s, 2, 0x7FF)
      else setCheck (writeData s (setDst s pipe) (b.take (max 64 n)) noCtag 0 p) pipe (setDst s pipe) .none

/-- SET_FETCH (R389): `data` is what the host answers. -/
def execSetFetch (req : Req) (pipe : Nat) (data : Option (List Byte)) (s : State) : Host.Outcome State Fault Refusal :=
  .next (setCmd s req pipe 2 (fun s => setFetch s pipe data))

/-- The packets of a set leave for every member of a group (R356, R389). -/
def setSend (s : State) (pipe g : Nat) (ecc : Ecc) : State × Nat × Nat :=
  let cfg := mgetD s.mcCfg (16 * pipe + g) 0
  let cnt := min 64 (fld cfg 6 0)
  match setCheck s pipe (setSrc s pipe % 2 ^ 48) ecc with
  | (s, 0, _) =>
    if (List.range cnt).any (fun i => wbit (mgetD s.mcMember (64 * (16 * pipe + g) + i) 0) 31) then (s, 6, 0x7FF)
    else if !wbit cfg 8 then (s, 5, 0x7FF)
    else
      let n := (rget s .col pipe 0x318).toNat / 4096
      let s := (List.range n).foldl (fun s k =>
        let (s, b) := readData s (setSrc s pipe % 2 ^ 48 + 4096 * k) 4096 noCtag
        let q : Pkt := { pktDecode [] with
          type := tPut, flags := if k + 1 = n then 2 else 0, vc := 0, plen := 4096, addr := setDst s pipe + 4096 * k
          rsig := 0xFFFF, offset := 4096 * k, payload := b }
        let m : McSend := ⟨pipe, g, setPort, pktHeader q, [], none⟩
        let (s, m) := (List.range cnt).foldl (fun r i => mcCopy r.1 pipe g pipe q r.2 i) (s, m)
        { s with mcSends := s.mcSends ++ [m] }) s
      (mcSettle s, 0, 0x7FF)
  | r => r

/-- SET_SEND (R389). -/
def execSetSend (req : Req) (pipe grp : Nat) (ecc : Ecc) (s : State) : Host.Outcome State Fault Refusal :=
  .next (setCmd s req pipe 3 (fun s => setSend s pipe grp ecc))

/-- SET_CMD_COMPLETE (R390): the command ends, a SEND once every member has answered; SET_DONE is raised. -/
def execSetCmdComplete (pipe : Nat) (s : State) : Host.Outcome State Fault Refusal :=
  .next (
    match mget s.setOps pipe with
    | none => s
    | some o =>
      if s.mcSends.any (fun m => m.port = setPort && m.pipe = pipe) then s
      else
        let s := rset { s with setOps := mdel s.setOps pipe } .col pipe 0x314
          (packFields [(1, 1), (4, o.result), (16, o.index)])
        let s := if o.result = 0 then s else recErr s eColSetFail pipe 0 (o.result + o.index * 16) noCtag
        raiseInt s .col pipe 5)

end Sys2Proof.Machine
end

