-- ==== Sys2Proof/Machine/RegRead.lean ====
section
/-!
DEFINITION. What a read of a register returns: the stored value, or a view of the state for the registers that show state
held elsewhere (R45, R49, R51, R100, R101, R195 to R197, R229 to R231, R266, R290, R291, R328, R329, R364, R380, R390,
R401, R418, R451 to R453, R486, R487, R511, R512, R531).
-/
namespace Sys2Proof.Machine

/-! ### The common header (R51) -/

/-- STATUS of a page. -/
def statusWord (s : State) (b : Block) (i : Nat) : Word :=
  let c := rget s b i 0x10
  packFields [(0, b2n (wbit c 0 && !pageInReset s b i && !statusRetired s b i)), (1, b2n (wbit (rget s b i 0x14) 1)),
    (2, b2n (pageInReset s b i)), (3, b2n (statusRetired s b i))]

/-- CAPS1 reads 0 on SEC, DBG and BST pages in MISSION (R66). -/
def caps1Word (s : State) (b : Block) : Word :=
  if lcState s = 1 && (b = .sec || b = .dbg || b = .bst) then 0 else blockCaps1 b

/-! ### Owners of units (R100, R101, R195) -/

/-- The slot that owns each unit of a pool of a core, by unit. -/
def unitOwners (s : State) (n : Nat) (f : Slot → List Nat) : List (Nat × Nat) :=
  (List.range 16).flatMap (fun k => let sl := slot s n k; if sl.st = .free && !sl.restoring then [] else (f sl).map (fun u => (u, k)))

/-- An OWNER register: four bits for each of eight units from `lo` up. -/
def ownerWord (s : State) (n lo : Nat) (f : Slot → List Nat) : Word :=
  packFields (((unitOwners s n f).filter (fun e => lo ≤ e.1 && e.1 < lo + 8)).map (fun e => (4 * (e.1 - lo), e.2)))

/-- A VALID register: a one for each of `cnt` units from `lo` up that a slot owns. -/
def validWord (s : State) (n lo cnt : Nat) (f : Slot → List Nat) : Word :=
  wd (maskOf (((unitOwners s n f).filter (fun e => lo ≤ e.1 && e.1 < lo + cnt)).map (fun e => e.1 - lo)))

/-- Free units of a pool of `cnt`. -/
def freeCount (s : State) (n cnt : Nat) (f : Slot → List Nat) : Nat := cnt - (usedUnits s n f).length

/-! ### DIR (R49) -/

/-- A word of a directory entry. -/
def dirEntry (off : Nat) : Word :=
  match allBlocks[(off - 0x100) / 16]? with
  | none => 0
  | some b =>
    match off % 16 with
    | 0 => packFields [(0, blockCode b), (16, blockCount b)]
    | 4 => wd (blockBase b)
    | 8 => wd (blockStride b)
    | 12 => packFields [(0, 1), (16, b2n (b = .sq || b = .te || b = .ve || b = .xe || b = .syn)), (17, b2n (blockLevel b = 1))]
    | _ => 0

/-- The DIR page. -/
def viewDir (s : State) (req : Req) (off : Nat) : Option Word :=
  if 0x100 ≤ off && off < 0x290 then some (dirEntry off)
  else match off with
  | 0x300 => some (packFields [(0, s.fuses.variant), (4, s.split), (8, s.fuses.stepping), (16, 0x4A04)])
  | 0x304 => some (wd s.fuses.unitId)
  | 0x308 => some (wd (s.fuses.unitId / 2 ^ 32))
  | 0x310 => some (match req with
    | .vf p => wd p
    | _ => 0xFF)
  | _ => none

/-! ### Pages of the Carillon, power, heat, security and test -/

/-- The CAR page (R418, R531). -/
def viewCar (s : State) (off : Nat) : Option Word :=
  match off with
  | 0x100 => some (ctrlWord s)
  | 0x104 => some (hbWord s)
  | 0x110 => some (restartWord s)
  | 0x118 => some (wd s.us)
  | 0x11C => some s.timeHi
  | 0x120 => some (evqWord s)
  | 0x128 => some (cfgWord s)
  | 0x12C => some (sidebandWord s)
  | 0x130 => some (i3cWord s 0)
  | 0x134 => some (i3cWord s 1)
  | 0x444 => if s.fw.recovery then none else some 0
  | _ => if (0x400 ≤ off && off ≤ 0x414) || off = 0x440 then some (fwWord s off) else none

/-- The PWR page (R511). -/
def viewPwr (s : State) (off : Nat) : Option Word :=
  match off with
  | 0x100 => some (pwrStateWord s)
  | 0x110 => some (wd (inputLimit s))
  | 0x128 => some (pwrClockWord s)
  | _ => if 0x130 ≤ off && off < 0x140 then some (pwrPoolWord s ((off - 0x130) / 4)) else none

/-- The THM page (R512). -/
def viewThm (s : State) (off : Nat) : Option Word :=
  match off with
  | 0x104 => some (siteWord s (fld (rget s .thm 0 0x100) 6 0))
  | 0x108 => some (hottestWord s)
  | 0x10C => some (regionsWord s)
  | 0x114 => some (sensorsWord s)
  | _ => none

/-- Slots of a partition that hold a fabric key (R432). -/
def keySlots (s : State) (p : Nat) : Nat := maskOf ((s.fabKeys.filter (fun e => e.1 / 16 = p)).map (fun e => e.1 % 16))

/-- SEC_PART_CFG: HBM_ENC as written, FAB_ENC and TX_SLOT as COL_ENC_TX holds them, the slots loaded (R451). -/
def partCfgWord (s : State) (p : Nat) : Word :=
  packFields [(0, fld (rget s .sec 0 (0x140 + 4 * p)) 0 0), (1, b2n (txOn s p)), (4, txSlot s p), (16, keySlots s p)]

/-- The SEC page (R451). -/
def viewSec (s : State) (off : Nat) : Option Word :=
  match off with
  | 0x100 => some (packFields [(0, lcState s), (4, b2n s.fuses.seed), (5, b2n (seedKilled s)), (6, b2n s.sec.seedLocked),
      (7, b2n s.fuses.debugKey), (8, b2n s.fuses.cert)])
  | 0x118 => some (packFields ((List.range 6).map (fun i => (2 * i, alarmLevel s i)) ++
      [(31, b2n (wbit (rget s .sec 0 0x118) 31))]))
  | 0x11C => some (alarmFloors s)
  | 0x124 => some (packFields [(0, b2n s.sec.aliasValid), (1, b2n s.sec.erased), (8, s.sec.hbmKeys % 256),
      (16, maskOf ((List.range 8).filter (fun p => keySlots s p ≠ 0)))])
  | _ => if 0x140 ≤ off && off < 0x160 then
      (let p := (off - 0x140) / 4; some (if p < partCount s then partCfgWord s p else rget s .sec 0 off &&& 1)) else none

/-- The BST page (R401). -/
def viewBst (s : State) (off : Nat) : Option Word :=
  match off with
  | 0x108 => some (Config.fuseData [s.fuses.m, s.fuses.r, s.fuses.e, s.fuses.kill, fusedCount s, revokedKeys s]
      (fld (rget s .bst 0 0x104) 11 0))
  | 0x130 => some (packFields [(0, b2n s.bist.cleared), (1, b2n s.bist.scanOpen), (2, lcState s)])
  | 0x134 => some (packFields [(0, s.fieldCores.length), (16, s.fieldSlices.length)])
  | _ => none

/-- The HNG page (R486). -/
def viewHng (s : State) (off : Nat) : Option Word :=
  match off with
  | 0x104 => some (packFields [(0, b2n (frozen s))])
  | 0x180 => some (rget s .dmp 0 0x104)
  | _ => if 0x1C0 ≤ off && off < 0x200 then some (dumpData s ((off - 0x1C0) / 4)) else none

/-- The DMP page (R487). -/
def viewDmp (s : State) (off : Nat) : Option Word := if off = 0x10C then some (rget s .hng 0 0x18C) else none

/-! ### Tiles, bridges, memories (R45, R229 to R231) -/

/-- The clock of an island in units of 25 MHz (R32, R39): core islands at their cap, others at nominal or half clock. -/
def islandClock (s : State) (i : Nat) : Nat :=
  let nom := match islKind i with
    | 0 => if s.fuses.variant = 0 then 132 else if s.fuses.variant = 1 then 120 else 104
    | 1 => 88 | 2 => 66 | 3 => 100 | 4 => 70 | 5 => 80 | _ => 32
  if islKind i = 0 then nom * coreClock16 s (islInst i) / 16
  else if islandHalf s i then nom / 2
  else nom

/-- Supply of an island in units of 2 mV, a measured value (log entry 3): supplies of running islands differ by at most 250 mV (R35,
R36). -/
def supplyUnits (s : State) (i : Nat) : Nat :=
  if islandStopped s i then Config.supply s.us i % 1024 else Config.supply s.us 0x8000 % 899 + Config.supply s.us i % 126

/-- TIL_ISLAND_INFO of the selected island (R45). The clock field of a stopped island
reads 0 (DESIGN CHOICE, log entry 60). -/
def islandWord (s : State) (t : Nat) : Word :=
  let i := fld (rget s .til t 0x110) 14 0
  if !islValid i || islTile i ≠ t then 0
  else packFields [(0, (island s i).temp % 256), (8, if islandStopped s i then 0 else islandClock s i),
    (16, supplyUnits s i), (28, b2n (islandStopped s i)),
    (29, b2n (islandHalf s i)), (31, 1)]

/-- The TIL page (R45): with a bridge out of service every tile has traffic over the detour, and the two tiles that are
not at its ends forward transit traffic over both of their bridges. -/
def viewTil (s : State) (t off : Nat) : Option Word :=
  match off with
  | 0x100 => some (packFields [(0, t), (4, partOfHalf s t 0), (8, partOfHalf s t 1), (16, b2n (detoured s).isSome)])
  | 0x104 => some (packFields [(0, maskOf s.brgOut), (8, match detoured s with
      | none => 0
      | some b =>
        if (bridgeEnds b).1 = t || (bridgeEnds b).2 = t then 0
        else maskOf ((List.range 4).filter (fun x => (bridgeEnds x).1 = t || (bridgeEnds x).2 = t)))])
  | 0x114 => some (islandWord s t)
  | _ => none

/-- The HBM page (R230): the region registers read as 0 on odd stacks; UNCORR of a listed page follows its poison marks. -/
def viewHbm (s : State) (i off : Nat) : Option Word :=
  if off = 0x13C then some (wd (Config.pprResources i - mgetD s.pprUsed i 0))
  else if i % 2 = 1 && (off = 0x144 || off = 0x148) then some 0
  else if 0x200 ≤ off && off < 0x400 && off % 8 = 4 then
    some (match (pageList s i)[(off - 0x200) / 8]? with
      | some d => wd (bits d 32 16 + (b2n (pagePoisoned s d) <<< 16))
      | none => 0)
  else none

/-- The STG page (R229). -/
def viewStg (s : State) (i off : Nat) : Option Word :=
  match off with
  | 0x100 => some (wd (sliceDpa i))
  | 0x104 => some (wd (sliceDpa i / 2 ^ 32))
  | 0x10C =>
    let bk := fld (rget s .stg i 0x108) 3 0
    let used := mgetD s.stgSpares (16 * i + bk) 0
    some (packFields [(0, min 32 used), (8, b2n (decide (32 ≤ used))),
      (16, min 0xFFFF (s.stgErrs.filter (fun e => e.1 = i && e.2.1 = bk && within s dayUs e.2.2.2)).length)])
  | 0x124 => some (setBit (rget s .stg i 0x124) 2 (dumpHeld s && decide (sliceDpa i < stgBase + 0x4000000)))
  | _ => none

/-! ### Clusters and cores (R100, R101, R195, R266, R290, R380, R453) -/

/-- CLU_LMAP(k). -/
def lmapWord (c : Cluster) (k : Nat) : Word := packFields ((List.range 6).map (fun m => (5 * m, (c.map[6 * k + m]?).getD 31)))

/-- The map registers of a CLU page, at their reset values until S4 forms the map. -/
def viewMap (s : State) (i off : Nat) : Option Word :=
  let c := cluster s i
  if bootStage s < 4 then none
  else match off with
  | 0x100 => some (wd c.usable)
  | 0x104 => some (wd c.retired)
  | 0x108 => some (packFields [(0, c.spare), (8, c.map.length), (16, b2n c.degraded),
      (17, b2n (c.clusterPend ≠ 0 || (List.range 18).any (fun j => (core s (coreOf i j)).retirePending)))])
  | 0x10C => some (lmapWord c 0)
  | 0x110 => some (lmapWord c 1)
  | 0x114 => some (lmapWord c 2)
  | 0x118 => some (wd c.pealFailed)
  | _ => none

/-- The queue registers of a CLU page (R290). -/
def viewQueue (s : State) (i off : Nat) : Option Word :=
  let c := cluster s i
  if 0x800 ≤ off && off < 0x900 then
    let r := mgetD c.rings ((off - 0x800) / 0x40) Ring.init
    match off % 0x40 with
    | 0x0C => some (wd r.head)
    | 0x14 => some (packFields [(0, b2n r.enabled), (1, b2n r.error), (2, b2n (ringStalled s i ((off - 0x800) / 0x40)))])
    | _ => none
  else if 0x900 ≤ off && off < 0xA00 then
    let q := mgetD c.cqs ((off - 0x900) / 0x40) CompQ.init
    match off % 0x40 with
    | 0x0C => some (wd q.tail)
    | 0x10 => some (wd q.head)
    | 0x18 => some (packFields [(0, b2n q.enabled), (1, b2n q.error), (2, min 16 q.held.length)])
    | _ => none
  else match off with
  | 0xA0C => some (wd c.fqTail)
  | 0xA10 => some (wd c.fqHead)
  | 0xA14 => some (packFields [(0, b2n c.fqEnabled), (1, b2n c.fqError)])
  | _ => none

/-- The CLU page. -/
def viewClu (s : State) (i off : Nat) : Option Word :=
  if off < 0x800 then viewMap s i off
  else if off = 0xB10 then
    let n := (cluster s i).traceRecs
    let size := max 1 (fld (rget s .clu i 0xB0C) 11 0) * 256
    some (packFields [(0, min n 0xFFFFFFF), (31, b2n (!wbit (rget s .clu i 0xB00) 1 && decide (size ≤ n)))])
  else viewQueue s i off

/-- A register of slot k of the SQ page, by its offset for slot 0. -/
def viewSlot (s : State) (n k off : Nat) : Option Word :=
  let sl := slot s n k
  match off with
  | 0x400 => some sl.ctag
  | 0x404 => some (slotStateWord s n k)
  | 0x428 => some (wd (oldestStep sl))
  | 0x42C => some (wd sl.outcome)
  | _ => none

/-- The SQ page (R100). -/
def viewSq (s : State) (n off : Nat) : Option Word :=
  match off with
  | 0x100 => some (coreIdWord s n)
  | 0x104 => some (slotBusyWord s n)
  | 0x110 => some (packFields [(0, freeCount s n 64 (·.strands)), (8, freeCount s n 8 (·.banks)),
      (16, freeCount s n 64 (·.blocks))])
  | 0x114 => some (wd (freeCount s n 256 (·.streams)))
  | _ =>
    if 0x400 ≤ off && off < 0x800 then viewSlot s n ((off - 0x400) / 0x40) (0x400 + off % 0x40)
    else if 0x800 ≤ off && off < 0x900 then
      let sl := slot s n ((off - 0x800) / 16)
      some (wd (match off % 16 with
        | 0 => sl.beatSq
        | 4 => sl.beatTe
        | 8 => sl.beatVe
        | _ => sl.beatXe))
    else none

/-- The TE page (R101). -/
def viewTe (s : State) (n off : Nat) : Option Word :=
  match off with
  | 0x100 => some (ownerWord s n 0 (·.banks))
  | 0x104 => some (validWord s n 0 8 (·.banks))
  | 0x108 => some (wd (maskOf (((core s n).teq.filter (fun e => !e.2.isEmpty)).map (·.1))))
  | _ => none

/-- The VE page (R101); how many instructions miss the buffer is a free value, see `regRead`. -/
def viewVe (s : State) (n off : Nat) : Option Word :=
  if 0x100 ≤ off && off < 0x120 then some (ownerWord s n (2 * (off - 0x100)) (·.strands))
  else match off with
  | 0x120 => some (validWord s n 0 32 (·.strands))
  | 0x124 => some (validWord s n 32 32 (·.strands))
  | _ => none

/-- STATE of XE_STREAM_INFO. -/
def streamCode : StreamSt → Nat
  | .idle => 0 | .run => 1 | .wait => 2 | .faulted => 3 | .stopped => 4

/-- The XE page (R101). -/
def viewXe (s : State) (n off : Nat) : Option Word :=
  let ph := fld (rget s .xe n 0x108) 7 0
  let x := stream s n ph
  let own := ((unitOwners s n (·.streams)).find? (fun e => e.1 = ph)).map (·.2)
  let va := match own, x.chain with
    | some k, some c => (slot s n k).rud + secOff (slot s n k) 4 + 64 * c.first
    | _, _ => 0
  match off with
  | 0x100 => some (wd (usedUnits s n (·.streams)).length)
  | 0x104 => some (wd (readsOut s n))
  | 0x10C => some (match own with
    | none => 0
    | some k => packFields [(0, k), (4, 1), (5, streamCode x.st), (16, (match x.descs.head? with
        | some d => d.idx
        | none => x.next) % 65536)])
  | 0x110 => some (wd va)
  | 0x114 => some (wd (va / 2 ^ 32 % 65536))
  | 0x118 => some (if own.isNone then 0 else wd (match x.descs.head? with
      | some d => restartOff d
      | none => x.offset))
  | 0x11C => some (wd ((core s n).rx.foldl (fun m e => m ||| 2 ^ e.1) 0))
  | 0x120 => some (wd (min 0xFFFFFFFF ((core s n).xeOutBytes / 256)))
  | 0x124 => some (wd (min 0xFFFFFFFF ((core s n).xeInBytes / 256)))
  | _ => none

/-- The SYN page (R195). -/
def viewSyn (s : State) (n off : Nat) : Option Word :=
  if 0x100 ≤ off && off < 0x120 then some (ownerWord s n (2 * (off - 0x100)) (·.blocks))
  else match off with
  | 0x120 => some (validWord s n 0 32 (·.blocks))
  | 0x124 => some (validWord s n 32 32 (·.blocks))
  | 0x12C => some (wd (syncWord (syncObj s n (fld (rget s .syn n 0x128) 11 0))))
  | 0x130 => some (core s n).stateHi
  | 0x134 => some (wd (core s n).relIndex.length)
  | _ => none

/-- The GNG page (R196): the package-wide barriers are in T0. -/
def viewGng (s : State) (i off : Nat) : Option Word :=
  let st (b : Barrier) : Word := packFields [(0, b.cur), (15, b.next), (30, b.phase)]
  let cf (b : Barrier) : Word := packFields [(0, b.n), (15, b2n b.enabled)]
  if 0x400 ≤ off && off < 0xC00 then
    let b := gongBar s i ((off - 0x400) / 8)
    some (if off % 8 = 0 then cf b else st b)
  else if 0xC00 ≤ off && off < 0xE00 then
    let b := gongBar s 0 (256 + (off - 0xC00) / 8)
    some (if i ≠ 0 then 0 else if off % 8 = 0 then cf b else st b)
  else none

/-- The MMU page (R266). -/
def viewMmu (s : State) (i off : Nat) : Option Word :=
  match off with
  | 0x124 => some (wd (cluster s i).holdBuf.length)
  | 0x128 => some (wd (cluster s i).seq)
  | _ => none

/-! ### Ports, engines and pipelines (R328, R329, R197, R364, R390) -/

/-- The FAB page: FAB_EXPECT is in instance 0 only. -/
def viewFab (i off : Nat) : Option Word := if off = 0x120 && i ≠ 0 then some 0 else none

/-- Events shown by the OPT page: those of the fibre that OPT_REFL_SEL names. -/
def reflShown (s : State) (i : Nat) : List ReflEvent := mgetD (engine s i).events (fld (rget s .opt i 0x128) 5 0) []

/-- The OPT page; powers and bias are measured values. -/
def viewOpt (s : State) (i off : Nat) : Option Word :=
  if off = 0x110 then
    let l := mgetD (engine s i).lasers (fld (rget s .opt i 0x10C) 2 0) (0, false)
    some (packFields [(28, l.1), (30, b2n l.2)])
  else if off = 0x12C then some (wd (reflShown s i).length)
  else if 0x130 ≤ off && off < 0x170 then
    some (match (reflShown s i)[(off - 0x130) / 8]? with
    | none => 0
    | some e =>
      if off % 8 = 0 then packFields [(0, e.dist % 8192), (16, e.loss % 256), (24, reflGrade e), (31, 1)]
      else packFields [(0, e.refl % 256), (8, b2n e.last)])
  else none

/-- Is a packet of the partition outstanding to a coordinate (R364)? -/
def peerBusy (s : State) (p c : Nat) : Bool :=
  (partSlots s p).any (fun u => (slot s u.1 u.2).streams.any (fun ph =>
    (stream s u.1 ph).descs.any (fun d => decide (dCoord d.record = c) && !d.pkts.isEmpty)))

/-- The registers of a COL page that only a barrier pipeline has: offsets 0x200 to 0x3FF and from 0x600 up (R197, R363,
R390). -/
def barrierOnly (off : Nat) : Bool := (0x200 ≤ off && off < 0x400) || 0x600 ≤ off

/-- Partition registers of a barrier pipeline. -/
def viewPipe (s : State) (i off : Nat) : Option Word :=
  let p := partOfPipe s i
  let c := fld (rget s .col i 0x230) 15 0
  let e := peer s p c
  let g := fld (rget s .col i 0x250) 3 0
  let m := fld (rget s .col i 0x250) 13 8
  let f := fbar s i (fld (rget s .col i 0x700) 7 0)
  match off with
  | 0x200 => some (wd s.epoch)
  | 0x220 => some (wd s.nonce)
  | 0x224 => some (wd (s.nonce / 2 ^ 32 % 65536))
  | 0x234 => some (packFields [(0, e.state), (2, b2n e.announced), (3, b2n (peerBusy s p c)),
      (8, maskOf (e.unreach.map (fun u => u.1)) % 256)])
  | 0x238 => some (wd e.epoch)
  | 0x23C => some (wd e.newEpoch)
  | 0x244 =>
    let n (st : Nat) : Nat := (s.peers.filter (fun x => x.1 / 65536 = p && x.2.state = st)).length
    some (packFields [(0, min 0xFFFF (n 2)), (16, min 0xFFFF (n 3))])
  | 0x254 => some (mgetD s.mcCfg (16 * i + g) 0)
  | 0x258 => some (mgetD s.mcCheck (16 * i + g) 0)
  | 0x25C => some (mgetD s.mcMember (64 * (16 * i + g) + m) 0)
  | 0x260 => some (mgetD s.mcKey (64 * (16 * i + g) + m) 0)
  | 0x704 => some (if f.isRoot then packFields [(0, f.rcur), (16, f.rnext)] else packFields [(0, f.cur), (16, f.next)])
  | 0x708 => some (packFields [(0, f.phase), (2, if f.isRoot then f.rphase else 0), (4, b2n !f.await.isEmpty),
      (5, b2n (f.isRoot && decide (f.rcur ≠ 0)))])
  | _ => none

/-- The COL page. -/
def viewCol (s : State) (i off : Nat) : Option Word :=
  if off = 0x100 then some (packFields [(0, i), (8, partOfPipe s i), (16, b2n (isBarrierPipe s i))])
  else if barrierOnly off then (if isBarrierPipe s i then viewPipe s i off else some 0)
  else none

/-! ### Reads -/

/-- A register that shows state held elsewhere, at 0x100 and above. -/
def viewBlock (s : State) (req : Req) (b : Block) (i off : Nat) : Option Word :=
  match b with
  | .car => viewCar s off
  | .dir => viewDir s req off
  | .pwr => viewPwr s off
  | .thm => viewThm s off
  | .sec => viewSec s off
  | .bst => viewBst s off
  | .hng => viewHng s off
  | .dmp => viewDmp s off
  | .til => viewTil s i off
  | .clu => viewClu s i off
  | .sq => viewSq s i off
  | .te => viewTe s i off
  | .ve => viewVe s i off
  | .xe => viewXe s i off
  | .syn => viewSyn s i off
  | .gng => viewGng s i off
  | .mmu => viewMmu s i off
  | .hbm => viewHbm s i off
  | .stg => viewStg s i off
  | .fab => viewFab i off
  | .opt => viewOpt s i off
  | .col => viewCol s i off
  | _ => none

/-- What a register shows: the header by R51 (CAPS0 of the PWR page by the variant, R510), a view, or the stored value; write-only registers, and offsets that hold no
register, read as 0. -/
def regView (s : State) (req : Req) (b : Block) (i off : Nat) : Word :=
  if off = 0xC then caps1Word s b
  else if off = 8 && b = .pwr then setFld (regReset .pwr 0 8) 7 0 (inputLimit s / 100)
  else if off = 0x14 then statusWord s b i
  else if off = 0x40 then intStatus s (page b i)
  else if 0x100 ≤ off && pageRetired s b i then 0
  else if pageDark s b then 0
  else match (if off < 0x100 then none else viewBlock s req b i off) with
  | some w => w
  | none =>
    match regRow b off with
    | none => 0
    | some r => if r.acc = .wo then 0 else rget s b i off

/-- The bits of a register that show a value which the manual leaves to measurement or to an organisation it does not give:
supply of an island, receiver SNR, laser and lane powers, bytes over a bridge. They are 0 while the unit is off. -/
def freeMask (s : State) (b : Block) (i off : Nat) : Word :=
  match b with
  | .fab => if 0x200 ≤ off && off % 16 = 8 && off < 0x310 && fld (rget s .fab i (off - 8)) 1 0 ≠ 0 then 0xFF else 0
  | .opt =>
    if off = 0x110 && modeO s i then 0x0FFFFFFF
    else if off = 0x118 && fld (rget s .opt i 0x100) 1 0 ≠ 0 then 0xFFFFFFFF else 0
  | _ => 0

/-- A register's value with a free word `w` where it shows a free value. VE_IBUF_MISS is at most the instructions issued since
it was last read: the organisation of the buffer is not given (log entry 3). -/
def withFree (s : State) (req : Req) (b : Block) (i off : Nat) (w : Word) : Word :=
  let v := regView s req b i off
  if b = .ve && off = 0x130 then wd (w.toNat % (v.toNat + 1)) else v ||| (w &&& freeMask s b i off)

/-- Does a register show a free value now? -/
def showsFree (s : State) (b : Block) (i off : Nat) : Bool :=
  freeMask s b i off ≠ 0 || (b = .ve && off = 0x130 && rget s .ve i 0x130 ≠ 0)

/-- The value of a register at a read, which draws a free value where the register shows one. -/
def regValue (s : State) (req : Req) (b : Block) (i off : Nat) : State × Word :=
  if showsFree s b i off then
    let (w, t) := drawWord s
    (t, withFree s req b i off w)
  else (s, regView s req b i off)

/-- What a read does to a register (R11, R195, R486, R531): an RC register clears, SYN_STATE_LO and CAR_TIME_LO latch their
high words, HNG_DUMP_DATA(15) advances the offset. The byte counters of the XE page keep what is short of a unit. -/
def regReadEffect (s : State) (b : Block) (i off : Nat) : State :=
  if b = .syn && off = 0x12C then
    modCore s i (fun c => { c with
      stateHi := wd (syncWord (syncObj s i (fld (rget s .syn i 0x128) 11 0)) / 2 ^ 32) })
  else if b = .car && off = 0x118 then { s with timeHi := wd (s.us / 2 ^ 32) }
  else if b = .hng && off = 0x1FC then advanceDump s
  else if b = .xe && off = 0x120 then modCore s i (fun c => { c with xeOutBytes := c.xeOutBytes % 256 })
  else if b = .xe && off = 0x124 then modCore s i (fun c => { c with xeInBytes := c.xeInBytes % 256 })
  else match regRow b off with
  | some r => if r.acc = .rc then rset s b i off 0 else s
  | none => s

/-- May a requester read a register: R53, and in recovery mode the CAR_RCV registers are open to the PF (R417). -/
def readOpen (s : State) (req : Req) (a : Nat) : Bool :=
  regOpen s req a || (s.fw.recovery && req = .pf && decide (page .car 0 + 0x440 ≤ a) && decide (a < page .car 0 + 0x44C))

/-- Base of the MSI-X window of R276. -/
def msixBase : Nat := 0x3400000

/-- The function whose MSI-X structures a requester reaches: its own, and the PF's for the Carillon (R276). -/
def reqFunc : Req → Nat
  | .pf => 0
  | .vf p => p + 1
  | .car => 0

/-- A word of the MSI-X window: the function's table; the Pending Bit Array reads 0, because a message that a mask stops
goes to the Carillon (R68, R276). -/
def msixRead (s : State) (req : Req) (a : Nat) : Word :=
  let f := reqFunc req
  let d := a - msixBase
  if d / 16 < msixSize f then
    let e := msixEnt s f (d / 16)
    match d % 16 with
    | 0 => wd e.addr
    | 4 => wd (e.addr / 2 ^ 32)
    | 8 => wd e.data
    | _ => wd (b2n e.masked)
  else 0

/-- One aligned 4-byte read (R53 to R55): the word, 0 where the address holds no page or is not open. -/
def regRead (s : State) (req : Req) (a : Nat) : State × Word :=
  match pageOf a with
  | none => (s, if msixBase ≤ a && a < msixBase + 0x10000 then msixRead s req a else 0)
  | some (b, i, off) =>
    if !readOpen s req a then (denied s req a, 0)
    else if pageDark s b || readsZero s b i off then (s, 0)
    else
      let (s, w) := regValue s req b i off
      (regReadEffect s b i off, w)

/-- Is an access of 4 or 8 bytes not naturally aligned? The manual gives it no effect (R55, log entry 23). -/
def misaligned (a size : Nat) : Bool := (decide (4 ≤ size) && decide (size < 8) && a % 4 ≠ 0) || (decide (8 ≤ size) && a % 8 ≠ 0)

/-- A read of `size` bytes (R55): eight aligned bytes are two reads, the lower address first; a narrower read returns the addressed
bytes of the containing register, which is read whole; a misaligned read reaches no register and returns a free value (log entry
23). Before S7 or with the link down the host gets no answer (R287, R289). -/
def busRead (s : State) (req : Req) (a size : Nat) : State :=
  if !answered s req then s
  else if misaligned a size then
    let (w, s) := drawWord s
    emit s (.readData req a w)
  else if 8 ≤ size then
    let (s, lo) := regRead s req a
    let (s, hi) := regRead s req (a + 4)
    emit (emit s (.readData req a lo)) (.readData req (a + 4) hi)
  else
    let (s, w) := regRead s req (a / 4 * 4)
    emit s (.readData req a (wd (bits w.toNat (8 * (a % 4)) (8 * min size 4))))

/-- RC_REGISTER_READ (R11, R55): a read of an RC register returns its value and then clears it; a read of any other register
returns its value. -/
def execRcRegisterRead (req : Req) (a size : Nat) (s : State) : Host.Outcome State Fault Refusal := .next (busRead s req a size)

/-- SYN_STATE_READ (R195); `ecc` is what the object store finds in the word that SYN_SEL names (R198). -/
def execSynStateRead (req : Req) (rd : Reader) (s : State) : Host.Outcome State Fault Refusal :=
  .next (busRead (if answered s req && regOpen s req (page .syn rd.no + 0x12C) && !pageRetired s .syn rd.no then
    synEcc s rd.no (fld (rget s .syn rd.no 0x128) 11 0) rd.ecc else s) req (page .syn rd.no + 0x12C) 4)

/-- CAR_TIME_READ (R531). -/
def execCarTimeRead (req : Req) (s : State) : Host.Outcome State Fault Refusal := .next (busRead s req (page .car 0 + 0x118) 4)

end Sys2Proof.Machine
end

