-- ==== Sys2Proof/Machine/DumpBuild.lean ====
section
/-!
DEFINITION. The contents of a crash dump (R479 to R481): core mirrors, register pages, held records, the retention log and the
event queue.
-/
namespace Sys2Proof.Machine

/-- The island that answers the side-door reads of a page: the core, cluster network, base die, port or host port that holds
the block, else the Carillon's shared island (R32, R45). -/
def pageIsland (b : Block) (i : Nat) : Nat :=
  match b with
  | .sq | .te | .ve | .xe | .syn => i
  | .clu | .mmu => 4096 + i
  | .til | .gng => 8192 + i
  | .stg => 8192 + i / 16
  | .col => 8192 + i / 2
  | .hbm => 8192 + i / 4
  | .brg => 8192 + (bridgeEnds i).1
  | .fab | .opt => 16384 + i
  | .pce => 20480
  | _ => 24578

/-- Every page, by block type and instance. -/
def dumpPages : List (Block × Nat) := allBlocks.flatMap (fun b => (List.range (blockCount b)).map (fun i => (b, i)))

/-- Is a page of the failing domain (R481): every page of the package for a chip reset or an alarm, the pages of the partition
for a partition reset, the pages of the core for a hang; a command names none. -/
def inDomain (s : State) (d : DumpRun) (x : Block × Nat) : Bool :=
  match d.trigger with
  | 1 => true
  | 2 => blockLevel x.1 = 1 && bit d.scope (pageOwner s x.1 x.2)
  | 3 => true
  | 4 => (x.1 = .sq || x.1 = .te || x.1 = .ve || x.1 = .xe || x.1 = .syn) && x.2 = d.core
  | _ => false

/-- Pages dumped in full: the failing domain's, and those that hold a record (R481). -/
def fullPage (s : State) (d : DumpRun) (x : Block × Nat) : Bool := inDomain s d x || wbit (rget s x.1 x.2 0x30) 31

/-- The order in which pages are read: those dumped in full, then the others. -/
def pageOrder (s : State) (d : DumpRun) : List (Block × Nat) :=
  dumpPages.filter (fullPage s d) ++ dumpPages.filter (fun x => !fullPage s d x)

/-- The pages of an island in reading order, by address. -/
def islandPages (s : State) (d : DumpRun) (isl : Nat) : List Nat :=
  ((pageOrder s d).filter (fun x => pageIsland x.1 x.2 = isl)).map (fun x => page x.1 x.2)

/-- SIDE_DOOR_TIMEOUT (R479): the page is read no further; after four pages of an island in a row the rest of its pages are
not read. -/
def execSideDoorTimeout (a burst : Nat) (s : State) : Host.Outcome State Fault Refusal :=
  .next (
    match s.dump, pageOf a with
    | some d, some (b, i, _) =>
      let pg := page b i
      let isl := pageIsland b i
      if (mget d.unread pg).isSome || d.deadIslands.any (fun e => e.1 = isl) then s
      else
        let l := islandPages s d isl
        let next := d.row ≠ 0 && l.contains d.last && l.findIdx (· = pg) = l.findIdx (· = d.last) + 1
        let row := if next then d.row + 1 else 1
        let d := { d with
          unread := mput d.unread pg (min 4096 (64 * burst)), last := pg, row := row
          deadIslands := if row < 4 then d.deadIslands else d.deadIslands ++ [(isl, pg)] }
        recErr { s with dump := some d } eDmpUnreadable 0 isl 0 noCtag
    | _, _ => s)

/-- Bytes of a page that were read before a timeout; none when all were. A page after the fourth timeout of its island is not
read at all. -/
def bytesRead (s : State) (d : DumpRun) (b : Block) (i : Nat) : Option Nat :=
  match mget d.unread (page b i) with
  | some n => some n
  | none =>
    match d.deadIslands.find? (fun e => e.1 = pageIsland b i) with
    | none => none
    | some (isl, pg) =>
      let l := islandPages s d isl
      if l.findIdx (· = pg) < l.findIdx (· = page b i) then some 0 else none

/-- An item: KIND, FLAGS, SOURCE, payload. -/
structure DumpItem where
  kind : Nat
  flags : Nat := 0
  source : Nat := 0
  body : List Byte := []
deriving DecidableEq, Repr

/-- A register as the side door shows it; where it shows a free value, one of its own. -/
def sideDoor (s : State) (b : Block) (i off : Nat) : Word := withFree s .car b i off (Config.freeWord (s.draws + page b i + off))

/-- The item of a page: `len` bytes from offset 0, zeros where they were not read. -/
def pageItem (s : State) (d : DumpRun) (kind len : Nat) (x : Block × Nat) : DumpItem :=
  let bs := (List.range (len / 4)).flatMap (fun k => leBytes (sideDoor s x.1 x.2 (4 * k)).toNat 4)
  let read := bytesRead s d x.1 x.2
  { kind := kind, flags := b2n read.isSome, source := blockCode x.1 * 65536 + x.2
    body := match read with
      | none => bs
      | some n => padTo (bs.take n) len }

/-- The mirror of a core: the core part and the entries of its slots (R480). -/
def mirrorItem (s : State) (n : Nat) : DumpItem :=
  let c := core s n
  { kind := 1, source := n
    body := padTo (leBytes (coreIdWord s n).toNat 4 ++ leBytes (slotBusyWord s n).toNat 4 ++ leBytes c.mirrorCount 4 ++ leBytes 0 4 ++
        leBytes (cluster s (coreClu n)).cycles 8 ++ leBytes (readsOut s n) 4) 64 ++
      (List.range 16).flatMap (fun k => leBytes (mgetD c.mirrorAt k 0) 128) }

/-- The cores that a dump mirrors: those of the partitions in SCOPE. -/
def dumpCores (s : State) (d : DumpRun) : List Nat := (List.range 1152).filter (fun n => bit d.scope (partOfCore s n))

/-- The items of a dump in their order: KIND 1, 3, 2, 4, 5, 6. -/
def dumpItems (s : State) (d : DumpRun) : List DumpItem :=
  (dumpCores s d).map (mirrorItem s) ++ (dumpPages.filter (fullPage s d)).map (pageItem s d 3 4096) ++
  (dumpPages.filter (fun x => !fullPage s d x)).map (pageItem s d 2 256) ++
  d.held.map (fun e => { kind := 4, source := e.1, body := e.2 }) ++
  ((List.range 64).filter (fun c => !(heldRecs s c).isEmpty)).map (fun c =>
    { kind := 4, source := c, body := (heldRecs s c).flatten }) ++
  [{ kind := 5, body := s.retention.flatMap (fun e =>
      leBytes e.1 4 ++ leBytes e.2.1.toNat 4 ++ leBytes e.2.2.1.toNat 4 ++ leBytes e.2.2.2.toNat 4) },
   { kind := 6, body := s.evq.flatMap eventBytes }]

/-- The bytes of an item: its header, and its payload padded to 16 bytes. -/
def itemBytes (x : DumpItem) : List Byte :=
  leBytes x.kind 2 ++ leBytes x.flags 2 ++ leBytes x.source 4 ++ leBytes x.body.length 4 ++ leBytes 0 4 ++
  padTo x.body ((x.body.length + 15) / 16 * 16)

/-- The items after the first `reached` are NOT_REACHED: flagged, without payload. -/
def cutItems (reached : Nat) (l : List DumpItem) : List DumpItem :=
  l.take reached ++ (l.drop reached).map (fun x => { x with flags := 2, body := [] })

/-- The header of a dump (R481). -/
def dumpHeader (s : State) (d : DumpRun) (items : List DumpItem) (body : List Byte) (trunc : Bool) : List Byte :=
  let w (off : Nat) : Nat := (regGet s (d.page + off)).toNat
  padTo (leBytes 0x504D5544 4 ++ leBytes 1 2 ++ leBytes d.trigger 1 ++ leBytes (b2n trunc) 1 ++ leBytes d.scope 1 ++
    leBytes s.split 1 ++ leBytes 0 2 ++ leBytes s.epoch 4 ++ leBytes (256 + body.length) 4 ++ leBytes items.length 4 ++
    leBytes (items.filter (fun x => x.flags ≠ 0)).length 4 ++ leBytes (w 0) 4 ++ leBytes (w 0x30) 4 ++ leBytes (w 0x38) 4 ++
    leBytes d.startUs 8 ++ leBytes s.fuses.unitId 8 ++ leBytes (if s.fw.running.isSome then leAt s.fw.bundle 0x20 4 else 0) 4 ++
    leBytes (s.us - d.startUs) 4 ++ sha256 body) 256

/-- DUMP_COLLECTION_END (R479): the dump is held; `reached` items were read before the 200 ms were over. -/
def execDumpCollectionEnd (reached : Nat) (s : State) : Host.Outcome State Fault Refusal :=
  .next (
    match s.dump with
    | none => s
    | some d =>
      let all := dumpItems s d
      let items := cutItems reached all
      let body := items.flatMap itemBytes
      let missed := all.length - reached
      let bad := (items.filter (fun x => x.flags ≠ 0)).length
      let s' := writeMem s stgBase (dumpHeader s d items body (decide (0 < missed)) ++ body)
      let s' := setDumpStatus { s' with dump := none, draws := s'.draws + 0x4000000 } true false d.trigger (256 + body.length)
      let s' := if d.trigger = 5 then setDumpResult s' false 0 else s'
      let s' := recErr (bump (bump s' .dmp 0 0x110 1) .dmp 0 0x118 bad) eDmpTaken 0 0 d.trigger noCtag
      if 0 < missed then recErr s' eDmpTruncated 0 0 missed noCtag else s')

end Sys2Proof.Machine
end

