-- ==== Sys2Proof/Machine/Regs.lean ====
section
/-!
DEFINITION. Writes of registers: plain storage (R11, R12, R55, R56), the common header (R51, R57 to R60, R65 to R67), and
the registers whose writes act, which take the operation of their own command.
-/
namespace Sys2Proof.Machine

/-- What a command leaves, for a register write that is that command. -/
def after (s : State) (o : Host.Outcome State Fault Refusal) : State :=
  match o with
  | .next t => t
  | _ => s

/-! ### The header -/

/-- A change of a page that may raise its interrupt: a message leaves when (INT_STATUS & INT_ENABLE) becomes non-zero (R67). -/
def withInt (s : State) (pg : Nat) (f : State → State) : State :=
  let t := f s
  if !intPending s pg && intPending t pg then sendInt t pg else t

/-- The engine of a core that a page resets (R59): 0 SQ, 1 TE, 2 VE, 3 XE. -/
def pageEngine : Block → Option Nat
  | .sq => some 0
  | .te => some 1
  | .ve => some 2
  | .xe => some 3
  | _ => none

/-- RESET_REQ (R59, R60): an engine reset on an engine's page. No chapter names a reset domain for another block, and partition
and chip resets are not requested through this field, so the Carillon's write on another page requests nothing (log entry 26).
No second reset is requested where one that covers the page runs. -/
def resetReq (s : State) (req : Req) (b : Block) (i : Nat) : State :=
  let set (s : State) : State := rset s b i 0x10 (setBit (rget s b i 0x10) 2 true)
  match pageEngine b with
  | some e => if pageInReset s b i then set s else set (requestEng s i e 6)
  | none =>
    if req ≠ .car then denied s req (page b i)
    else if pageInReset s b i then set s
    else s

/-- CTRL_SEQUENCE (R58, R69). -/
def ctrlSequence (s : State) (pg : Nat) : State := recordOn 4 s pg 31 false false 0 0 noCtag

/-- A write of CTRL (R51, R57 to R60): QUIESCED is judged as it stood before the write. -/
def ctrlWrite (s : State) (req : Req) (b : Block) (i : Nat) (v : Word) : State :=
  if statusRetired s b i then s
  else
    let old := rget s b i 0x10
    let quiesced := wbit (rget s b i 0x14) 1
    let keep := wbit old 0 && !wbit v 0 && !quiesced
    let s := rset s b i 0x10 (setBit (setBit old 0 (wbit v 0 || keep)) 1 (wbit v 1))
    let s := if wbit v 1 then s else rset s b i 0x14 (setBit (rget s b i 0x14) 1 false)
    let s := if keep then ctrlSequence s (page b i) else s
    if wbit v 2 then resetReq s req b i else s

/-- A write of ACCESS_LEVEL (R51): the Carillon's, unless LOCKED; a LEVEL of 3 is not taken. -/
def accessLevelWrite (s : State) (req : Req) (pg : Nat) (v : Word) : State :=
  let old := regGet s (pg + 0x50)
  if req ≠ .car || wbit old 2 then s
  else regSet s (pg + 0x50) (packFields [(0, if fld v 1 0 = 3 then fld old 1 0 else fld v 1 0), (2, fld v 2 2), (8, fld v 11 8)])

/-- A write of ERR_INJECT (R66): from the PF or the Carillon, with GO, for a code of CAPS1; ignored in reset (R60). -/
def injectError (s : State) (req : Req) (b : Block) (i : Nat) (v : Word) : State :=
  let k := fld v 4 0
  if (match req with | .vf _ => true | _ => false) || !wbit v 8 || !wbit (caps1Word s b) k || pageInReset s b i then s
  else match (blockErrs b).find? (fun e => e.bit = k) with
    | none => s
    | some e => codeReset (escalateUnit (recordOn 4 s (page b i) k e.event true 0 0 noCtag) e i) e i

/-- A write of INT_STATUS (R67): with an enabled bit still set after bits were cleared, a new message leaves. -/
def intClear (s : State) (pg : Nat) (v : Word) : State :=
  let old := regGet s (pg + 0x40)
  let m := v &&& 0xFFFFFFFE
  let s := regSet s (pg + 0x40) (old &&& ~~~m)
  if (old &&& m) ≠ 0 && intPending s pg then sendInt s pg else s

/-- ERR_STATUS bits clear where a 1 is written (R65). Where this clears INT_STATUS.ERR and another enabled bit stays set, no message is
sent (DESIGN CHOICE, log entry 70). -/
def errClear (s : State) (pg : Nat) (v : Word) : State := regSet s (pg + 0x20) (regGet s (pg + 0x20) &&& ~~~v)

/-- ERR_FIRST.VALID clears where a 1 is written (R65). -/
def errFirstClear (s : State) (pg : Nat) (v : Word) : State :=
  if wbit v 31 then regSet s (pg + 0x30) (setBit (regGet s (pg + 0x30)) 31 false) else s

/-- A write of a header register (R51). -/
def headerWrite (s : State) (req : Req) (b : Block) (i off : Nat) (v : Word) : State :=
  let pg := page b i
  match off with
  | 0x10 => ctrlWrite s req b i v
  | 0x18 => regSet s (pg + 0x18) v
  | 0x20 => errClear s pg v
  | 0x24 => withInt s pg (fun s => regSet s (pg + 0x24) v)
  | 0x28 => regSet s (pg + 0x28) v
  | 0x2C => injectError s req b i v
  | 0x30 => errFirstClear s pg v
  | 0x40 => intClear s pg v
  | 0x44 => withInt s pg (fun s => regSet s (pg + 0x44) v)
  | 0x48 => regSet s (pg + 0x48) (v &&& 0x37FF)
  | 0x50 => accessLevelWrite s req pg v
  | _ => s

/-! ### Registers with no behaviour of their own -/

/-- Store the writable bits of a register (R11, R12): read-only bits and reserved fields keep their value. -/
def plainWrite (s : State) (b : Block) (i off : Nat) (v : Word) : State :=
  match regRow b off with
  | none => s
  | some r =>
    let old := rget s b i off
    match r.acc with
    | .rw => rset s b i off ((old &&& ~~~r.mask) ||| (v &&& r.mask))
    | .w1c => rset s b i off (old &&& ~~~(v &&& r.mask))
    | _ => s

/-- Store a register whose value is held between two limits. -/
def clampWrite (s : State) (b : Block) (i off lo hi v : Nat) : State := rset s b i off (wd (clamp lo hi v))

/-! ### Registers that act, by block -/

/-- The CAR page (R417, R418); how the fuses of a CONFIRM take is not in the write: a free value. -/
def writeCar (s : State) (req : Req) (off : Nat) (v : Word) : State :=
  match off with
  | 0x418 =>
    if fld v 3 0 = 1 then
      let (w, s) := drawWord s
      after s (execFwConfirm req (wbit w 0) s)
    else if fld v 3 0 = 2 then after s (execFwCancelPending req s)
    else s
  | 0x444 => if s.fw.recovery then rset s .car 0 0x444 v else s
  | 0x448 =>
    match fld v 1 0 with
    | 1 => after s (execRcvBegin 1 0 s)
    | 2 => after s (execRcvEnd 1 s)
    | 3 => after s (execRcvAbort 1 s)
    | _ => s
  | _ => plainWrite s .car 0 off v

/-- The PCE page (R291). -/
def writePce (s : State) (req : Req) (off : Nat) (v : Word) : State :=
  if off = 0x110 then
    if wbit v 12 then after s (execPceChipReset req s) else after s (execPcePartitionReset req (fld v 3 0) (wbit v 8) s)
  else plainWrite s .pce 0 off v

/-- The PWR page (R511); the brake floor is held between its limits (R499). -/
def writePwr (s : State) (req : Req) (off : Nat) (v : Word) : State :=
  match off with
  | 0x104 =>
    match fld v 1 0 with
    | 0 => after s (execPwrStateCmdA0 req s)
    | 2 => after s (execPwrStateCmdA2 req s)
    | 3 => after s (execPwrStateCmdA3 req s)
    | _ => s
  | 0x114 => after s (execPwrLimitCfgWrite req v s)
  | 0x118 => clampWrite s .pwr 0 0x118 25 50 (fld v 7 0)
  | _ => plainWrite s .pwr 0 off v

/-- SEC_PART_CFG (R451): HBM_ENC is stored; FAB_ENC and TX_SLOT act on COL_ENC_TX where the slot holds a key. -/
def partCfgWrite (s : State) (off : Nat) (v : Word) : State :=
  let p := (off - 0x140) / 4
  let s := rset s .sec 0 off (v &&& 1)
  let sl := fld v 7 4
  let keyed := (mget s.fabKeys (16 * p + sl)).isSome
  if partCount s ≤ p then s else setEncTx s p (if keyed then sl else txSlot s p) (keyed && wbit v 1)

/-- The SEC page (R451). -/
def writeSec (s : State) (req : Req) (off : Nat) (v : Word) : State :=
  match off with
  | 0x104 =>
    match fld v 3 0 with
    | 1 => after s (execLcToMission req s)
    | 2 => after s (execLcToReturn req s)
    | 3 => after s (execLcToEnd req s)
    | _ => s
  | 0x118 => alarmCfg s v
  | _ => if 0x140 ≤ off && off < 0x160 then partCfgWrite s off v else plainWrite s .sec 0 off v

/-- The DBG page (R452). -/
def writeDbg (s : State) (req : Req) (off : Nat) (v : Word) : State :=
  if off = 0x140 then
    match fld v 3 0 with
    | 1 => after s (execDbgCmdRevoke req (fld v 23 16) s)
    | 2 => after s (execDbgCmdRevokeAll req s)
    | 3 => after s (execDbgCmdOpen req (fld v 9 8) (fld v 23 16) s)
    | _ => s
  else plainWrite s .dbg 0 off v

/-- The BST page (R401). -/
def writeBst (s : State) (req : Req) (off : Nat) (v : Word) : State :=
  if off = 0x128 then after s (execBstDirectCmd req v s) else plainWrite s .bst 0 off v

/-- The HNG page (R486). -/
def writeHng (s : State) (off : Nat) (v : Word) : State :=
  if off = 0x188 then
    if fld v 1 0 = 1 then dumpTake s else if fld v 1 0 = 2 then dumpRelease s else s
  else if 0x110 ≤ off && off < 0x130 && off % 4 = 0 then clampWrite s .hng 0 off 100 60000000 (fld v 25 0)
  else plainWrite s .hng 0 off v

/-- The DMP page (R487). -/
def writeDmp (s : State) (off : Nat) (v : Word) : State :=
  if off = 0x108 then
    if fld v 1 0 = 1 then dumpTake s else if fld v 1 0 = 2 then dumpRelease s else s
  else plainWrite s .dmp 0 off v

/-- The CLU page (R290, R453). -/
def writeClu (s : State) (req : Req) (i off : Nat) (v : Word) : State :=
  if 0x800 ≤ off && off < 0x900 then
    let k := (off - 0x800) / 0x40
    match off % 0x40 with
    | 0x08 => queueCfg s i k v
    | 0x10 => after s (execSrDoorbell req i k v s)
    | _ => plainWrite s .clu i off v
  else if 0x900 ≤ off && off < 0xA00 then
    let k := (off - 0x900) / 0x40
    match off % 0x40 with
    | 0x08 => queueCfg s i (4 + k) v
    | 0x10 => after s (execCluCqHeadWrite req i k v s)
    | _ => plainWrite s .clu i off v
  else match off with
  | 0xA08 => queueCfg s i 8 v
  | 0xA10 => after s (execCluFqHeadWrite req i v s)
  | 0xB00 => traceCtrl s req i v
  | _ => plainWrite s .clu i off v

/-- Does a slot take writes of its registers (R75): while it is FREE, and no INSTALL of a ring waits on it or reads its save image,
which take effect as one action (R98, R280)? -/
def slotOpen (s : State) (n k : Nat) : Bool :=
  (slot s n k).st = .free && !(slot s n k).restoring &&
  !((core s n).deferred = some k && (core s n).ringCmd.isSome)

/-- The SQ page (R75, R100): slot registers are written while the slot is FREE. -/
def writeSq (s : State) (req : Req) (n off : Nat) (v : Word) : State :=
  if off = 0x108 then sqCmd s req n (fld v 3 0) (fld v 7 4)
  else if 0x400 ≤ off && off < 0x800 && !slotOpen s n ((off - 0x400) / 0x40) then s
  else plainWrite s .sq n off v

/-- The GNG page (R196). -/
def writeGng (s : State) (i off : Nat) (v : Word) : State :=
  if 0x400 ≤ off && off < 0xC00 then
    (if off % 8 = 0 then gongCfg s i ((off - 0x400) / 8) 4352 v else s)
  else if 0xC00 ≤ off && off < 0xE00 then
    (if i = 0 && off % 8 = 0 then gongCfg s 0 (256 + (off - 0xC00) / 8) 17408 v else s)
  else plainWrite s .gng i off v

/-- The MMU page (R266): an OP of 0, 5, 6 or 7 is ignored. -/
def writeMmu (s : State) (req : Req) (i off : Nat) (v : Word) : State :=
  if off = 0x100 then
    match fld v 10 8 with
    | 1 => after s (execMmuInvVaRange req i v s)
    | 2 => after s (execMmuInvAsid req i v s)
    | 3 => after s (execMmuInvAll req i v s)
    | 4 => after s (execMmuInvKey req i v s)
    | _ => s
  else plainWrite s .mmu i off v

/-- The FAB page (R293, R328): FAB_CFG in DISABLED only, FAB_EXPECT in instance 0 only. -/
def writeFab (s : State) (req : Req) (i off : Nat) (v : Word) : State :=
  match off with
  | 0x104 => if fabState s i = 0 then plainWrite s .fab i 0x104 v else s
  | 0x108 =>
    match fld v 3 0 with
    | 1 => after s (execFabCmdEnable req i s)
    | 2 => after s (execFabCmdDisable req i s)
    | 3 => after s (execFabCmdRetrain req i s)
    | 4 => after s (execFabCmdRecheck req i s)
    | 5 => after s (execFabCmdClear req i s)
    | 6 => after s (execFabCmdRetireLane req i (fld v 12 8) s)
    | _ => s
  | 0x120 => if i = 0 then plainWrite s .fab 0 0x120 v else s
  | _ => plainWrite s .fab i off v

/-- The OPT page (R329). -/
def writeOpt (s : State) (req : Req) (i off : Nat) (v : Word) : State :=
  if off = 0x120 then
    let s := if wbit v 9 then after s (execOptReflAbort req i s) else s
    if wbit v 8 then after s (execOptReflStart req i (fld v 5 0) s) else s
  else plainWrite s .opt i off v

/-- The multicast registers of the selected group (R356, R364): its entries are written while ENABLE = 0. -/
def writeMc (s : State) (i off : Nat) (v : Word) : State :=
  let g := 16 * i + fld (rget s .col i 0x250) 3 0
  let m := 64 * g + fld (rget s .col i 0x250) 13 8
  let on := wbit (mgetD s.mcCfg g 0) 8
  match off with
  | 0x254 => { s with mcCfg := mput s.mcCfg g (setFld (v &&& 0x3F017F) 6 0 (min 64 (fld v 6 0))) }
  | 0x258 => { s with mcCheck := mput s.mcCheck g (v &&& 0xFFFFFFF) }
  | 0x25C => if on then s else { s with mcMember := mput s.mcMember m (v &&& 0x87FFFFFF) }
  | 0x260 => if on then s else { s with mcKey := mput s.mcKey m v }
  | _ => s

/-- The partition registers of a barrier pipeline (R197, R364, R390). A FETCH of COL_SET_CMD needs what the host answers and
is the command SET_FETCH. -/
def writePipe (s : State) (req : Req) (i off : Nat) (v : Word) : State :=
  match off with
  | 0x204 => clampWrite s .col i 0x204 100 1000000 v.toNat
  | 0x210 =>
    match fld v 1 0 with
    | 1 => after s (execRollLoad req i s)
    | 2 => after s (execRollSelect req i (fld v 11 8) s)
    | 3 => after s (execRollUnload req i s)
    | _ => s
  | 0x240 =>
    match fld v 1 0 with
    | 1 => after s (execPeerClear req i (fld v 31 16) s)
    | 2 => after s (execPeerMarkLost req i (fld v 31 16) s)
    | _ => s
  | 0x310 =>
    match fld v 1 0 with
    | 1 => after s (execSetCheck req i .none s)
    | 3 => after s (execSetSend req i (fld v 7 4) .none s)
    | _ => s
  | _ =>
    if 0x254 ≤ off && off ≤ 0x260 then writeMc s i off v
    else if 0x800 ≤ off && off % 8 = 0 then fbCfg s i ((off - 0x800) / 8) v
    else plainWrite s .col i off v

/-- The COL page. -/
def writeCol (s : State) (req : Req) (i off : Nat) (v : Word) : State :=
  if barrierOnly off then (if isBarrierPipe s i then writePipe s req i off v else s) else plainWrite s .col i off v

/-- A write of a register at 0x100 or above. -/
def writeBlock (s : State) (req : Req) (b : Block) (i off : Nat) (v : Word) : State :=
  match b with
  | .car => writeCar s req off v
  | .pce => writePce s req off v
  | .pwr => writePwr s req off v
  | .sec => writeSec s req off v
  | .dbg => writeDbg s req off v
  | .bst => writeBst s req off v
  | .hng => writeHng s off v
  | .dmp => writeDmp s off v
  | .clu => writeClu s req i off v
  | .sq => writeSq s req i off v
  | .gng => writeGng s i off v
  | .mmu => writeMmu s req i off v
  | .fab => writeFab s req i off v
  | .opt => writeOpt s req i off v
  | .col => writeCol s req i off v
  | _ => plainWrite s b i off v

/-- A write of the MSI-X window: the table of the requester's function (R276). -/
def msixWrite (s : State) (req : Req) (a : Nat) (v : Word) : State :=
  let f := reqFunc req
  let d := a - msixBase
  if msixSize f ≤ d / 16 then s
  else
    let e := msixEnt s f (d / 16)
    let e' : MsixEnt := match d % 16 with
      | 0 => { e with addr := e.addr / 2 ^ 32 * 2 ^ 32 + v.toNat }
      | 4 => { e with addr := e.addr % 2 ^ 32 + v.toNat * 2 ^ 32 }
      | 8 => { e with data := v.toNat }
      | _ => { e with masked := wbit v 0 }
    { s with host := { s.host with msix := mput s.host.msix (f * 2048 + d / 16) e' } }

/-- May a requester write a register: R53; in recovery mode the PF reaches the CAR_RCV registers (R417). -/
def writeOpen (s : State) (req : Req) (a : Nat) : Bool :=
  pageOpen s req (a / 0x1000 * 0x1000) ||
  (s.fw.recovery && req = .pf && decide (page .car 0 + 0x440 ≤ a) && decide (a < page .car 0 + 0x44C))

/-- One aligned 4-byte write (R49, R53, R54, R60, R494). -/
def regWrite (s : State) (req : Req) (a : Nat) (v : Word) : State :=
  match pageOf a with
  | none => if msixBase ≤ a && a < msixBase + 0x8000 then msixWrite s req a v else s
  | some (b, i, off) =>
    if b = .dir then s
    else if !writeOpen s req a then denied s req a
    else if pageDark s b then s
    else if off < 0x100 then headerWrite s req b i off v
    else if pageRetired s b i then s
    else writeBlock s req b i off v

/-- A write of `size` bytes (R55): eight aligned bytes are two writes, the lower address first; a write narrower than 4 bytes has no
effect and records ACCESS_SIZE, or ACCESS_DENIED alone on a page that is not open, and a misaligned one has no effect (DESIGN CHOICE,
log entry 23). Before S7 or with the link down a write of the host has no effect (R287, R289). -/
def busWrite (s : State) (req : Req) (a size : Nat) (v : BitVec 64) : State :=
  if !answered s req then s
  else if misaligned a size then s
  else if 8 ≤ size then regWrite (regWrite s req a (v.setWidth 32)) req (a + 4) ((v >>> 32).setWidth 32)
  else if 4 ≤ size then regWrite s req a (v.setWidth 32)
  else match pageOf a with
    | some (b, _, _) => if b ≠ .dir && !writeOpen s req a then denied s req a else badSize s req a
    | none => badSize s req a

/-! ### The commands -/

/-- REGISTER_WRITE (R54 to R56). -/
def execRegisterWrite (req : Req) (a size : Nat) (v : BitVec 64) (s : State) : Host.Outcome State Fault Refusal :=
  .next (busWrite s req a size v)

/-- A write of a header register, its offset given, to the page that holds the address. -/
def headerCmd (s : State) (req : Req) (a off : Nat) (v : Word) : State :=
  if answered s req then regWrite s req (a / 0x1000 * 0x1000 + off) v else s

/-- ACCESS_LEVEL_WRITE (R51). -/
def execAccessLevelWrite (req : Req) (a : Nat) (v : Word) (s : State) : Host.Outcome State Fault Refusal :=
  .next (headerCmd s req a 0x50 v)

/-- CTRL_ENABLE_SET (R51): a write of CTRL with ENABLE = 1. -/
def execCtrlEnableSet (req : Req) (a : Nat) (v : Word) (s : State) : Host.Outcome State Fault Refusal :=
  .next (headerCmd s req a 0x10 (setBit v 0 true))

/-- CTRL_ENABLE_CLEAR (R58): a write of CTRL with ENABLE = 0. -/
def execCtrlEnableClear (req : Req) (a : Nat) (v : Word) (s : State) : Host.Outcome State Fault Refusal :=
  .next (headerCmd s req a 0x10 (setBit v 0 false))

/-- CTRL_QUIESCE_SET (R57): a write of CTRL with QUIESCE = 1. -/
def execCtrlQuiesceSet (req : Req) (a : Nat) (v : Word) (s : State) : Host.Outcome State Fault Refusal :=
  .next (headerCmd s req a 0x10 (setBit v 1 true))

/-- CTRL_QUIESCE_CLEAR (R57): a write of CTRL with QUIESCE = 0. -/
def execCtrlQuiesceClear (req : Req) (a : Nat) (v : Word) (s : State) : Host.Outcome State Fault Refusal :=
  .next (headerCmd s req a 0x10 (setBit v 1 false))

/-- CTRL_RESET_REQ (R59): a write of CTRL with RESET_REQ = 1. -/
def execCtrlResetReq (req : Req) (a : Nat) (v : Word) (s : State) : Host.Outcome State Fault Refusal :=
  .next (headerCmd s req a 0x10 (setBit v 2 true))

/-- ERR_STATUS_CLEAR (R65). -/
def execErrStatusClear (req : Req) (a : Nat) (v : Word) (s : State) : Host.Outcome State Fault Refusal :=
  .next (headerCmd s req a 0x20 v)

/-- ERR_FIRST_VALID_CLEAR (R65). -/
def execErrFirstValidClear (req : Req) (a : Nat) (v : Word) (s : State) : Host.Outcome State Fault Refusal :=
  .next (headerCmd s req a 0x30 v)

/-- ERR_INJECT (R66). -/
def execErrInject (req : Req) (a : Nat) (v : Word) (s : State) : Host.Outcome State Fault Refusal :=
  .next (headerCmd s req a 0x2C v)

/-- INT_STATUS_CLEAR (R67). -/
def execIntStatusClear (req : Req) (a : Nat) (v : Word) (s : State) : Host.Outcome State Fault Refusal :=
  .next (headerCmd s req a 0x40 v)

/-- Has a core's engine no work in flight? -/
def engineIdle (s : State) (n : Nat) (b : Block) : Bool :=
  let c := core s n
  match b with
  | .sq => !c.busy && c.slots.all (fun e => e.2.inflight.isEmpty && !e.2.saving && !e.2.restoring)
  | .te => c.teRun.isEmpty && c.teq.all (fun e => e.2.isEmpty)
  | .ve => c.strands.all (fun e => e.2.run = .idle || e.2.run = .stopped)
  | .xe => c.streams.all (fun e => e.2.descs.isEmpty && e.2.waiting.isEmpty && e.2.chain.isNone) && c.rx.isEmpty
  | _ => true

/-- Has a block drained every item that it has accepted (R474), as far as the state shows its items? -/
def blockIdle (s : State) (b : Block) (i : Nat) : Bool :=
  match b with
  | .clu => (cluster s i).rings.all (fun e => e.2.fetched.isEmpty && e.2.inProgress.isEmpty) &&
      (cluster s i).cqs.all (fun e => e.2.held.isEmpty)
  | .mmu => (cluster s i).inv.isNone && (cluster s i).holdBuf.isEmpty && (cluster s i).waitRecs.isEmpty
  | .col => (mget s.setOps i).isNone && s.mcSends.all (fun m => m.pipe ≠ i) && s.heldPkts.all (fun h => h.pipe ≠ i) && !(rollStore s (partOfPipe s i)).loading
  | .fab => (port s i).txReq.isEmpty && (port s i).txRsp.isEmpty && (port s i).txMgt.isEmpty && (port s i).replay.isEmpty
  | .opt => (engine s i).sweep.isEmpty
  | .bst => s.bist.direct.isNone && s.bist.slices.all (fun x => x.phase ≠ 1)
  | _ => engineIdle s i b

/-- QUIESCED_REACHED (R57, R474): the block has drained. -/
def execQuiescedReached (a : Nat) (s : State) : Host.Outcome State Fault Refusal :=
  .next (
    match pageOf a with
    | none => s
    | some (b, i, _) =>
      if wbit (rget s b i 0x10) 1 && !pageInReset s b i && blockIdle s b i then
        rset s b i 0x14 (setBit (rget s b i 0x14) 1 true)
      else s)

/-- QUIESCE_TIMEOUT (R57, R69): QUIESCED is still 0 10 ms after QUIESCE. -/
def execQuiesceTimeout (a : Nat) (s : State) : Host.Outcome State Fault Refusal :=
  .next (
    match pageOf a with
    | none => s
    | some (b, i, _) =>
      if wbit (rget s b i 0x10) 1 && !pageInReset s b i && !wbit (rget s b i 0x14) 1 then recordOn 4 s (page b i) 30 false false 0 0 noCtag else s)

end Sys2Proof.Machine
end

