-- ==== Sys2Proof/Machine/Spdm.lean ====
section
/-!
DEFINITION. Attestation and secured sessions over SPDM (R429, R430, R523). The codes of the answers are those of DMTF
DSP0274 (log entry 20).
-/
namespace Sys2Proof.Machine

/-- Is attestation available (R430)? -/
def attestOk (s : State) : Bool :=
  decide (lcState s ≤ 1) && !seedKilled s && !s.sec.erased && s.fuses.seed && s.sec.aliasValid

/-- An answer and the ERROR answer. -/
def spdmOut (s : State) (code : Nat) (body : List Byte) : State := mgmtOut s "SPDM" (leBytes code 1 ++ body)
def spdmError (s : State) : State := spdmOut s 0x7F []

/-- A request that needs attestation, and the version and algorithms agreed on before. -/
def spdmReq (s : State) (f : State → State) : State :=
  if attestOk s && s.carillon.spdmVer && s.carillon.spdmAlg then f s else spdmError s

/-- The certificate chain: root, DeviceID certificate, Alias certificate (R428). -/
def certChain (s : State) : List Byte := Config.crypto 4 [] ++ Config.certificate ++ s.sec.aliasCert

/-- HASH of the component of a type in the running bundle. -/
def componentHash (s : State) (ty : Nat) : List Byte :=
  match (List.range 6).find? (fun i => compType s.fw.bundle i = ty) with
  | some i => compHash s.fw.bundle i
  | none => List.replicate 32 0

/-- A measurement block (R429). -/
def measurement (s : State) (i : Nat) : List Byte :=
  if i = 1 then romHash
  else if i = 2 then headerHash s
  else if 3 ≤ i && i ≤ 8 then componentHash s (i - 2)
  else if i = 9 then
    leBytes (lcState s) 1 ++ leBytes (fusedCount s) 1 ++ leBytes (revokedKeys s) 1 ++ leBytes (leAt s.fw.bundle 0xE 1) 1 ++
    leBytes s.fuses.variant 1 ++ leBytes s.sec.highAlarm 1 ++ leBytes (b2n s.sec.d3Seen) 1 ++ leBytes s.split 1 ++ leBytes 0 8
  else if 10 ≤ i && i ≤ 17 then
    let p := i - 10
    leBytes (b2n (decide (p < partCount s))) 1 ++ leBytes (b2n (partEncrypted s p)) 1 ++ leBytes (b2n (txOn s p)) 1 ++
    leBytes (mgetD s.sec.highDebug p 0) 1 ++ leBytes (rget s .col (barrierPipe s p) 0x218).toNat 4 ++ leBytes 0 8
  else []

/-- The blocks that a request names: one, or with 0xFF all. -/
def measurements (s : State) (i : Nat) : List Byte :=
  if i = 0xFF then ((List.range 17).map (fun k => measurement s (k + 1))).flatten else measurement s i

/-- SPDM_GET_VERSION (R523). -/
def execSpdmGetVersion (s : State) : Host.Outcome State Fault Refusal :=
  .next (
    if attestOk s then
      spdmOut { s with carillon := { s.carillon with spdmVer := true, spdmAlg := false } } 0x04 []
    else spdmError s)

/-- SPDM_GET_CAPABILITIES (R523): CERT, CHAL, MEAS with signature, KEY_EX, ENCRYPT, MAC, HBEAT and KEY_UPD. -/
def execSpdmGetCapabilities (s : State) : Host.Outcome State Fault Refusal :=
  .next (if attestOk s && s.carillon.spdmVer then spdmOut s 0x61 (leBytes 0xFF 1) else spdmError s)

/-- SPDM_NEGOTIATE_ALGORITHMS (R523): `offered` says whether the request offers the algorithms of the rule. -/
def execSpdmNegotiateAlgorithms (offered : Bool) (s : State) : Host.Outcome State Fault Refusal :=
  .next (
    if attestOk s && s.carillon.spdmVer && offered then
      spdmOut { s with carillon := { s.carillon with spdmAlg := true } } 0x63 []
    else spdmError s)

/-- SPDM_GET_DIGESTS (R523): slot 0 only. -/
def execSpdmGetDigests (s : State) : Host.Outcome State Fault Refusal :=
  .next (spdmReq s (fun s => spdmOut s 0x01 (sha256 (certChain s))))

/-- SPDM_GET_CERTIFICATE (R523). -/
def execSpdmGetCertificate (slot off len : Nat) (s : State) : Host.Outcome State Fault Refusal :=
  .next (spdmReq s (fun s => if slot ≠ 0 then spdmError s else spdmOut s 0x02 (((certChain s).drop off).take len)))

/-- SPDM_CHALLENGE (R523): signed with the Alias key. -/
def execSpdmChallenge (slot : Nat) (nonce : List Byte) (s : State) : Host.Outcome State Fault Refusal :=
  .next (spdmReq s (fun s =>
    if slot ≠ 0 then spdmError s else spdmOut s 0x03 (Config.sign s.sec.aliasKey (nonce ++ sha256 (certChain s)))))

/-- SPDM_GET_MEASUREMENTS (R429): index 0 asks for the number of blocks, 0xFF for all. -/
def execSpdmGetMeasurements (index : Nat) (nonce : List Byte) (s : State) : Host.Outcome State Fault Refusal :=
  .next (spdmReq s (fun s =>
    if index = 0 then spdmOut s 0x60 (leBytes 17 1)
    else if 17 < index && index ≠ 0xFF then spdmError s
    else spdmOut s 0x60 (measurements s index ++ Config.sign s.sec.aliasKey (nonce ++ measurements s index))))

/-- SPDM_KEY_EXCHANGE (R523): a session opens, refused beyond two. -/
def execSpdmKeyExchange (data : List Byte) (s : State) : Host.Outcome State Fault Refusal :=
  .next (spdmReq s (fun s =>
    if 2 ≤ s.carillon.sessions.length then spdmError s
    else
      let id := s.carillon.nextSession
      spdmOut { s with carillon := { s.carillon with
        sessions := s.carillon.sessions ++ [(id, false)], nextSession := id + 1 } } 0x64 (leBytes id 4 ++ Config.crypto 5 data)))

/-- SPDM_FINISH (R523): `ok` says whether its check value verifies. -/
def execSpdmFinish (session : Nat) (ok : Bool) (s : State) : Host.Outcome State Fault Refusal :=
  .next (spdmReq s (fun s =>
    if ok && s.carillon.sessions.contains (session, false) then
      spdmOut { s with carillon := { s.carillon with
        sessions := s.carillon.sessions.map (fun e => if e.1 = session then (session, true) else e) } } 0x65 []
    else spdmError s))

/-- A request inside an established session. -/
def spdmIn (s : State) (session : Nat) (f : State → State) : State :=
  spdmReq s (fun s => if sessionOpen s session then f s else spdmError s)

/-- SPDM_HEARTBEAT (R523). -/
def execSpdmHeartbeat (session : Nat) (s : State) : Host.Outcome State Fault Refusal :=
  .next (spdmIn s session (fun s => spdmOut s 0x68 []))

/-- SPDM_KEY_UPDATE (R523). -/
def execSpdmKeyUpdate (session : Nat) (s : State) : Host.Outcome State Fault Refusal :=
  .next (spdmIn s session (fun s => spdmOut s 0x69 []))

/-- SPDM_END_SESSION (R523). -/
def execSpdmEndSession (session : Nat) (s : State) : Host.Outcome State Fault Refusal :=
  .next (spdmIn s session (fun s =>
    spdmOut { s with carillon := { s.carillon with sessions := s.carillon.sessions.filter (fun e => e.1 ≠ session) } } 0x6C []))

/-- SPDM_VENDOR_DEFINED_REQUEST (R432, R523): message 0 FAB_KEY_SET, 1 FAB_KEY_DELETE, 2 FAB_KEY_TX, 3 FAB_ENC. -/
def execSpdmVendorDefinedRequest (session msg p sl : Nat) (on : Bool) (key : List Byte) (s : State) :
    Host.Outcome State Fault Refusal :=
  .next (spdmIn s session (fun s =>
    spdmOut (match msg with
      | 0 => fabKeySet s session p sl key
      | 1 => fabKeyDelete s session p sl
      | 2 => fabKeyTx s session p sl
      | _ => fabEnc s session p on) 0x7E []))

end Sys2Proof.Machine
end

