-- ==== Sys2Proof/Machine/Transcendental.lean ====
section
/-!
DEFINITION. The transcendental functions (R93): special inputs exactly, every other result any value within the bound
that the manual states. A fixed-point value of 96 fraction bits stands for the exact result where that is irrational;
its error is far below every bound (log entry 12).
-/
namespace Sys2Proof.Machine

/-- One in fixed point. -/
def fx1 : Nat := 2 ^ 96

/-- ln 2 and π in fixed point. -/
def fxLn2 : Nat := 0xB17217F7D1CF79ABC9E3B398
def fxPi : Nat := 0x3243F6A8885A308D313198A2E

/-- e^t by its series, 0 ≤ t < 1; the term and the sum are carried. -/
def expSeries (t : Nat) : Nat → Nat → Nat → Nat → Nat
  | 0, _, _, acc => acc
  | n + 1, i, term, acc =>
    let term := term * t / fx1 / i
    expSeries t n (i + 1) term (acc + term)

/-- 2^f, 0 ≤ f < 1. -/
def fxExp2 (f : Nat) : Nat := expSeries (f * fxLn2 / fx1) 40 1 fx1 fx1

/-- The alternating series of the sine: x − x³/3! + …, x in fixed point. -/
def sinSeries (x2 : Nat) : Nat → Nat → Nat → Int → Int → Int
  | 0, _, _, _, acc => acc
  | n + 1, i, term, sgn, acc =>
    let term := term * x2 / fx1 / (i * (i + 1))
    sinSeries x2 n (i + 2) term (-sgn) (acc + sgn * term)

/-- sin(πr) in fixed point for 0 ≤ r ≤ 1/2. -/
def fxSinPi (r : Nat) : Nat :=
  let x := r * fxPi / fx1
  (sinSeries (x * x / fx1) 20 2 x (-1) x).toNat

/-- The fraction bits of log₂ y, 1 ≤ y < 2, by repeated squaring. -/
def log2Bits : Nat → Nat → Nat → Nat
  | 0, _, acc => acc
  | n + 1, y, acc =>
    let z := y * y / fx1
    if 2 * fx1 ≤ z then log2Bits n (z / 2) (2 * acc + 1) else log2Bits n z (2 * acc)

/-- A finite value as fixed point, truncated, with its sign apart. -/
def toFx (m : Nat) (e : Int) : Nat :=
  if 0 ≤ e + 96 then m <<< (e + 96).toNat else m >>> (-(e + 96)).toNat

/-- A fixed-point magnitude as a value. -/
def fxNum (neg : Bool) (v : Nat) : Num := .fin neg v (-96)

/-- The unit in the last place of a format at a value. -/
def ulpExp (f : Fmt) : Num → Int
  | .fin _ m e => if m = 0 then f.qMin else max (leadExp m e - f.mbits) f.qMin
  | _ => f.qMin

/-- |y − v| ≤ bound for finite values. -/
def nearBy (y v bound : Num) : Bool :=
  match addN y (negN v), bound with
  | .fin _ m e, .fin _ bm be => leMag m e bm be
  | _, _ => false

/-- The free word where it meets a bound around the exact value, else the nearest value. -/
def freeWithin (v bound : Num) (fw : Word) : Nat :=
  if nearBy (Fmt.fp32.decode fw.toNat) v bound then fw.toNat else rne .fp32 v

/-- An infinity. -/
def infN : Num → Bool
  | .inf _ => true
  | _ => false

/-- Within k ulp; a value that rounds to an infinity is that infinity (R111). -/
def freeUlps (k : Nat) (v : Num) (fw : Word) : Nat :=
  if infN (Fmt.fp32.decode (rne .fp32 v)) then rne .fp32 v
  else freeWithin v (.fin false k (ulpExp .fp32 v)) fw

/-- The exact value of a function of a finite FP32 operand, m × 2^e with a sign, as far as fixed point carries it: beyond
2^±512 an EXP2, and beyond 32 a TANH, is taken at that bound, where it is below or above every format's
values. Below 2^−20 SINPI is πA and TANH is A, to a relative 2^−38. -/
def exactFn (opc : Nat) (neg : Bool) (m : Nat) (e : Int) : Num :=
  match opc with
  | 0x20 => .fin neg (2 ^ 150 / m) (-150 - e)
  | 0x21 =>
    -- 1/√(m 2^e): with e made even, 2^160 / √(m 2^(2t))
    let (m', e') := if e % 2 = 0 then (m, e) else (2 * m, e - 1)
    .fin false (Nat.sqrt (2 ^ 320 / m')) (-160 - e' / 2)
  | 0x22 =>
    let (m', e') := if e % 2 = 0 then (m, e) else (2 * m, e - 1)
    .fin false (Nat.sqrt (m' * 2 ^ 200)) (e' / 2 - 100)
  | 0x23 =>
    let x := min (toFx m e) (512 * fx1)
    if neg then
      let i := (x + fx1 - 1) / fx1
      .fin false (fxExp2 (i * fx1 - x)) (-96 - (i : Int))
    else .fin false (fxExp2 (x % fx1)) ((x / fx1 : Nat) - 96)
  | 0x24 =>
    let l := Nat.log2 m
    let fr := log2Bits 80 (m * fx1 / 2 ^ l) 0
    let i : Int := (l : Int) + e
    ofInt (i * 2 ^ 80 + fr) (-80) false
  | 0x25 =>
    let r := toFx m e % (2 * fx1)
    let q := if r < fx1 then r else r - fx1
    if !leMag 1 (-20) m e then .fin neg (m * fxPi) (e - 96) else
    fxNum (neg != decide (fx1 ≤ r)) (fxSinPi (min q (fx1 - q)))
  | 0x26 =>
    let r := (toFx m e + fx1 / 2) % (2 * fx1)
    let q := if r < fx1 then r else r - fx1
    fxNum (decide (fx1 ≤ r)) (fxSinPi (min q (fx1 - q)))
  | _ =>
    -- tanh a = (u − 1)/(u + 1), u = e^(2a) = 2^(2a / ln 2); a below 2^−20 is its own tanh to a relative 2^−41
    if !leMag 1 (-20) m e then .fin neg m e else
    let x := 2 * min (toFx m e) (32 * fx1) * fx1 / fxLn2
    let u := fxExp2 (x % fx1) <<< (x / fx1)
    fxNum neg ((u - fx1) * fx1 / (u + fx1))

/-- A free word as a result: a NaN is the canonical one (R105). -/
def freeCanon (fw : Word) : Nat := if Fmt.fp32.decode fw.toNat = .nan then Fmt.nanBits .fp32 else fw.toNat

/-- The FP32 result of a transcendental instruction for an FP32 operand (R93): opcode, operand bits, the free word. An EXP2
below the normal range, for which the spec states no bound, is taken within 2 units of the last place too, which is the spacing
of the subnormals (R106; DESIGN CHOICE, log entry 12). -/
def transc (opc w : Nat) (fw : Word) : Nat :=
  let nan := Fmt.nanBits .fp32
  let inf (n : Bool) : Nat := Fmt.infBits .fp32 n
  let zero (n : Bool) : Nat := Fmt.signBit .fp32 n
  let one (n : Bool) : Nat := Fmt.signBit .fp32 n + 0x3F800000
  match Fmt.fp32.decode w with
  | .nan => nan
  | .inf neg =>
    (match opc with
      | 0x20 => zero neg
      | 0x21 => if neg then nan else zero false
      | 0x22 => if neg then nan else freeCanon fw
      | 0x23 => if neg then zero false else inf false
      | 0x24 => if neg then nan else inf false
      | 0x27 => one neg
      | _ => nan)
  | .fin neg m e =>
    let v := exactFn opc neg m e
    match opc with
    | 0x20 => if m = 0 then inf neg else freeUlps 1 v fw
    | 0x21 => if m = 0 then inf neg else if neg then nan else freeUlps 2 v fw
    | 0x22 => if m = 0 then (if neg then zero true else freeUlps 1 (.fin false 0 0) fw) else if neg then nan else freeUlps 1 v fw
    | 0x23 =>
      if leMag (2 ^ 8) 0 m e && !neg then inf false
      else if wbit fw 31 then rne .fp32 v
      else freeUlps 2 v fw
    | 0x24 =>
      if m = 0 then inf true else if neg then nan
      else if leMag 1 (-1) m e && leMag m e 2 0 then freeWithin v (.fin false 1 (-22)) fw
      else freeUlps 2 v fw
    | 0x25 =>
      if leMag (2 ^ 22) 0 m e then rneZero v (wbit fw 31) else freeWithin v (.fin false 1 (-22)) fw
    | 0x26 =>
      if leMag (2 ^ 22) 0 m e then rneZero v (wbit fw 31) else freeWithin v (.fin false 1 (-22)) fw
    | _ => if leMag 9 0 m e then one neg else freeWithin v (.fin false 1 (-21)) fw
where
  /-- The exact value at an integer or half-integer: 0 with a free sign, or ±1. -/
  rneZero (v : Num) (sgn : Bool) : Nat :=
    match v with
    | .fin n m e => if leMag 1 (-1) m e then Fmt.signBit .fp32 n + 0x3F800000 else Fmt.signBit .fp32 sgn
    | _ => 0

/-- A transcendental on an operand of type 0, 1 or 2: types 1 and 2 are computed in FP32 and rounded once, within one
ulp of their format (R93). -/
def transcTy (opc ty w : Nat) : Nat :=
  if ty = 0 then transc opc w (Config.transcendental opc (wd w))
  else
    let f : Fmt := if ty = 1 then .bf16 else .fp16
    let w32 := rne .fp32 (f.decode w)
    let r := rne f (Fmt.fp32.decode (transc opc w32 (Config.transcendental opc (wd w32))))
    match f.decode w, f.decode r with
    | .fin neg m e, .fin _ _ _ =>
      let v := exactFn opc neg m e
      if nearBy (f.decode r) v (.fin false 1 (ulpExp f v)) then r else rne f v
    | _, _ => r

end Sys2Proof.Machine
end

