-- ==== Sys2Proof/Machine/Vector.lean ====
section
/-!
DEFINITION. The Vector Engine (R88 to R93, R131 to R134, R150, R175): instruction fields, checks, lanes, memory,
control, and one meaning for each instruction.
-/
namespace Sys2Proof.Machine

/-! ### Instruction fields (R91) -/

def vOpc (w : Nat) : Nat := bits w 0 8
def vD (w : Nat) : Nat := bits w 8 4
def vA (w : Nat) : Nat := bits w 12 4
def vB (w : Nat) : Nat := bits w 16 4
def vC (w : Nat) : Nat := bits w 20 4
def vPg (w : Nat) : Nat := bits w 24 3
def vPn (w : Nat) : Bool := bit w 27
def vTy (w : Nat) : Nat := bits w 28 3
def vSc (w : Nat) : Bool := bit w 31
def vImm (w : Nat) : Nat := bits w 32 32

/-- Does an opcode accept a type (R92)? An unassigned opcode accepts none. -/
def vTypeOk (opc ty : Nat) : Bool :=
  if opc = 4 || (0x20 ≤ opc && opc ≤ 0x27) then decide (ty ≤ 2)
  else if opc = 7 || opc = 8 then decide (ty ≤ 3)
  else if (0x10 ≤ opc && opc ≤ 0x15) || opc = 0x34 || opc = 0x35 then ty = 3 || ty = 4
  else if 0x3A ≤ opc && opc ≤ 0x3C then ty = 0 || ty = 3 || ty = 4
  else if opc = 0x43 then ty = 3
  else if opc ≤ 0x0B || (0x30 ≤ opc && opc ≤ 0x33) || opc = 0x38 || opc = 0x39 || (0x40 ≤ opc && opc ≤ 0x42) ||
    (0x50 ≤ opc && opc ≤ 0x55) then decide (ty ≤ 4)
  else false

/-- Does an opcode accept the scalar form (R92)? -/
def vScOk (opc : Nat) : Bool :=
  (1 ≤ opc && opc ≤ 0x0B) || (0x10 ≤ opc && opc ≤ 0x15) || (0x20 ≤ opc && opc ≤ 0x27) || opc = 0x40 || opc = 0x41

/-- Is an opcode assigned? -/
def vAssigned (opc : Nat) : Bool := (List.range 5).any (vTypeOk opc)

/-- The CVT conversions of R134 and the reserved fields of R133. -/
def cvtOk (w : Nat) : Bool :=
  let imm := vImm w
  let ty := vTy w
  let dt := bits imm 0 3
  bits imm 4 2 ≠ 3 && !bit imm 7 && bits imm 10 22 = 0 && !(vSc w && 5 ≤ dt) &&
  (if bit imm 3 then ty = 0 && 5 ≤ dt else ty = 0 || (dt ≠ ty && dt < 5))

/-- Is an instruction refused with VE_OP_INVALID whatever the strand's state (R92, R133, R175)? -/
def vBad (w : Nat) : Bool :=
  let opc := vOpc w
  let imm := vImm w
  !vTypeOk opc (vTy w) || (vSc w && !vScOk opc) || (opc = 9 && !cvtOk w) || (opc = 0x0A && bits imm 0 3 = 7) ||
  (opc = 0x53 && bits imm 13 3 ≠ 0) || (opc = 0x54 && bits imm 12 20 ≠ 0)

/-! ### Registers of a strand (R88) -/

def vReg (x : Strand) (r lane : Nat) : Nat := (mgetD x.v (32 * r + lane) 0).toNat
def sReg (x : Strand) (r : Nat) : Nat := (mgetD x.sreg r 0).toNat
/-- P0 reads as all ones. -/
def pReg (x : Strand) (r : Nat) : Nat := if r = 0 then 0xFFFFFFFF else (mgetD x.preg r 0).toNat

def setV (x : Strand) (r lane v : Nat) : Strand := { x with v := mput x.v (32 * r + lane) (wd v) }
def setS (x : Strand) (r v : Nat) : Strand := { x with sreg := mput x.sreg r (wd v) }
/-- P0 ignores writes. -/
def setP (x : Strand) (r v : Nat) : Strand := if r = 0 then x else { x with preg := mput x.preg r (wd v) }

/-- The guarding mask (R91). -/
def vGuard (x : Strand) (w : Nat) : Nat :=
  if vPn w then 0xFFFFFFFF - pReg x (vPg w) else pReg x (vPg w)

/-- The guarded lanes, lowest first. -/
def vLanes (x : Strand) (w : Nat) : List Nat := onesBelow (vGuard x w) 32

/-- Write the guarded lanes of D, each from its lane number; sources are read before any lane is written. -/
def vWrite (x : Strand) (w : Nat) (f : Nat → Nat) : Strand :=
  (vLanes x w).foldl (fun y i => setV y (vD w) i (f i)) x

/-- The element form of an instruction: each guarded lane of D from A, B and C, or in the scalar form once on S
registers, under bit 0 of the guard (R91, R92). -/
def vElement (x : Strand) (w : Nat) (f : Nat → Nat → Nat → Nat) : Strand :=
  if vSc w then
    if bit (vGuard x w) 0 then setS x (vD w) (f (sReg x (vA w)) (sReg x (vB w)) (sReg x (vC w))) else x
  else vWrite x w (fun i => f (vReg x (vA w) i) (vReg x (vB w) i) (vReg x (vC w) i))

/-! ### Lane arithmetic (R131) -/

/-- The format of a floating-point type. -/
def vFmt (ty : Nat) : Fmt := if ty = 0 then .fp32 else if ty = 1 then .bf16 else .fp16

/-- An operation on both halves of packed 16-bit operands. -/
def vHalves (f : Nat → Nat → Nat → Nat) (a b c : Nat) : Nat :=
  f (a % 65536) (b % 65536) (c % 65536) % 65536 + 65536 * (f (a / 65536) (b / 65536) (c / 65536) % 65536)

/-- A floating-point operation or an integer one, by type. -/
def vArith (ty : Nat) (ff : Fmt → Nat → Nat → Nat → Nat) (fi : Bool → Nat → Nat → Nat → Nat) (a b c : Nat) : Nat :=
  if ty = 0 then ff .fp32 a b c
  else if ty = 1 || ty = 2 then vHalves (ff (vFmt ty)) a b c
  else fi (ty = 3) a b c % 2 ^ 32

/-- Signed or unsigned order of 32-bit integers. -/
def intLt (signed : Bool) (a b : Nat) : Bool := if signed then decide (sint a < sint b) else decide (a < b)

def vAdd (ty a b : Nat) : Nat := vArith ty (fun f a b _ => fAdd f a b) (fun _ a b _ => a + b) a b 0
def vSub (ty a b : Nat) : Nat := vArith ty (fun f a b _ => fSub f a b) (fun _ a b _ => a + (2 ^ 32 - b)) a b 0
def vMul (ty a b : Nat) : Nat := vArith ty (fun f a b _ => fMul f a b) (fun _ a b _ => a * b) a b 0
def vFma (ty a b c : Nat) : Nat := vArith ty (fun f a b c => fFma f a b c) (fun _ a _ _ => a) a b c
def vMin (ty a b : Nat) : Nat := vArith ty (fun f a b _ => fMin f a b) (fun s a b _ => if intLt s b a then b else a) a b 0
def vMax (ty a b : Nat) : Nat := vArith ty (fun f a b _ => fMax f a b) (fun s a b _ => if intLt s a b then b else a) a b 0

/-- ABS and NEG change only the sign bit of a floating-point operand (R105); integers wrap (R131). -/
def vAbs (ty a : Nat) : Nat :=
  vArith ty (fun f a _ _ => a % 2 ^ (f.width - 1)) (fun _ a _ _ => (sint a).natAbs) a 0 0
def vNeg (ty a : Nat) : Nat :=
  vArith ty (fun f a _ _ => a ^^^ 2 ^ (f.width - 1)) (fun _ a _ _ => 2 ^ 32 - a) a 0 0

/-- A condition code on ordered or unordered operands (R92, R131). -/
def condHolds (c : Nat) (lt eq un : Bool) : Bool :=
  if c = 0 then eq else if c = 1 then !eq || un else if c = 2 then lt else if c = 3 then lt || eq
  else if c = 4 then !lt && !eq && !un else if c = 5 then !lt && !un else un

def condFloat (f : Fmt) (c a b : Nat) : Bool :=
  let x := f.decode a
  let y := f.decode b
  condHolds c (ltN x y) (eqN x y) (x = .nan || y = .nan)

/-- CMP of one lane; a packed lane needs both halves. -/
def vCond (ty c a b : Nat) : Bool :=
  if ty = 0 then condFloat .fp32 c a b
  else if ty = 1 || ty = 2 then
    condFloat (vFmt ty) c (a % 65536) (b % 65536) && condFloat (vFmt ty) c (a / 65536) (b / 65536)
  else condHolds c (intLt (ty = 3) a b) (a = b) false

/-- Arithmetic shift right of a 32-bit word. -/
def sarWord (a n : Nat) : Nat := wordOfInt (sint a / (2 ^ n : Int))

/-- A transcendental of a lane, both halves of a packed one. -/
def vTrans (opc ty a : Nat) : Nat :=
  if ty = 0 then transcTy opc 0 a else vHalves (fun a _ _ => transcTy opc ty a) a 0 0

/-! ### CVT (R133, R134) -/

/-- One element converted: source type, destination type, rounding mode code, SAT, the draw. -/
def cvtElem (ty dt rm : Nat) (satBit : Bool) (rnd a : Nat) : Nat :=
  let mode := (rmOf rm).getD .rne
  /- a copy and the exact widenings keep an infinity whatever SAT is -/
  let sat := satBit && !(ty ≤ 2 && dt = 0)
  let dst (v : Num) : Nat :=
    if dt = 0 then roundTo .fp32 mode sat rnd v else if dt = 1 then roundTo .bf16 mode sat rnd v
    else if dt = 2 then roundTo .fp16 mode sat rnd v else if dt = 3 then toInt32 true mode rnd v
    else if dt = 4 then toInt32 false mode rnd v else if dt = 5 then roundTo .e4m3 mode sat rnd v
    else if dt = 6 then roundTo .e5m2 mode sat rnd v else roundTo .e2m1 mode sat rnd v
  if ty = 3 && dt = 4 then wordOfInt (satInt false (sint a))
  else if ty = 4 && dt = 3 then wordOfInt (satInt true (a : Int))
  else if ty = 3 then dst (ofIntN (sint a))
  else if ty = 4 then dst (ofIntN (a : Int))
  else dst ((vFmt ty).decode a)

/-- Replace bits [lo + len − 1 : lo] of a number. -/
def putBits (a lo len v : Nat) : Nat := a - (bits a lo len <<< lo) + ((v % 2 ^ len) <<< lo)

/-- The CVT of a strand: guarded elements, all sources read first. -/
def cvtStrand (x : Strand) (w seed site : Nat) : Strand :=
  let imm := vImm w
  let ty := vTy w
  let dt := bits imm 0 3
  let rm := bits imm 4 2
  let sat := bit imm 6
  let q := bits imm 8 2
  let h := q % 2
  let rnd (e : Nat) : Nat := if rm = 2 then srBits seed site ((x.src * 64 + e) % 2 ^ 32) else 0
  let cv (a e : Nat) : Nat := cvtElem ty dt rm sat (rnd e) a
  /- lane i from its source a and the old destination d, outside the FP8 and FP4 packings -/
  let lane (i a d : Nat) : Nat :=
    if ty = 0 && (dt = 1 || dt = 2) then putBits d (16 * h) 16 (cv a i)
    else if (ty = 1 || ty = 2) && dt < 3 && dt ≠ 0 then cv (a % 65536) (2 * i) + 65536 * cv (a / 65536) (2 * i + 1)
    else if ty = 1 || ty = 2 then cv (bits a (16 * h) 16) (2 * i + h)
    else if (ty = 3 || ty = 4) && (dt = 1 || dt = 2) then cv a i * 65537
    else cv a i
  let y :=
    if vSc w then
      if bit (vGuard x w) 0 then setS x (vD w) (lane 0 (sReg x (vA w)) (sReg x (vD w))) else x
    else if dt < 5 then vWrite x w (fun i => lane i (vReg x (vA w) i) (vReg x (vD w) i))
    else
      let width := if dt = 7 then 4 else 8
      let per := 32 / width
      let at_ (i : Nat) : Nat × Nat := ((32 / per) * q + i / per, width * (i % per))
      if bit imm 3 then
        let f : Fmt := if dt = 5 then .e4m3 else if dt = 6 then .e5m2 else .e2m1
        vWrite x w (fun i => rne .fp32 (f.decode (bits (vReg x (vA w) (at_ i).1) (at_ i).2 width)))
      else
        (vLanes x w).foldl (fun y i =>
          setV y (vD w) (at_ i).1 (putBits (vReg y (vD w) (at_ i).1) (at_ i).2 width (cv (vReg x (vA w) i) i))) x
  if rm = 2 then { y with src := (y.src + 1) % 2 ^ 32 } else y

/-! ### Program counter and loops (R90, R92) -/

/-- Leave the instruction `cur`: repeat or close the loops whose body it ends. -/
def loopNext : Nat → List VLoop → Nat × List VLoop
  | cur, [] => (cur + 1, [])
  | cur, l :: t =>
    if l.last ≠ cur then (cur + 1, l :: t)
    else if 1 < l.left then (l.first, { l with left := l.left - 1 } :: t)
    else loopNext cur t

/-- The strand goes on after the instruction `cur`. -/
def vAdvance (x : Strand) (cur : Nat) : Strand :=
  { x with pc := (loopNext cur x.loops).1, loops := (loopNext cur x.loops).2 }

/-! ### Strands of a slot -/

/-- The slot that holds a physical strand, and the strand's context-relative number. -/
def strandOwner (s : State) (n ph : Nat) : Option (Nat × Nat) :=
  (List.range 16).findSome? (fun k =>
    let sl := slot s n k
    if sl.st = .free then none else (sl.strands.findIdx? (· = ph)).map (fun i => (k, i)))

/-- An error stops the strand and ends the context (R92, R102). -/
def veErr (s : State) (e : ErrCode) (n k ph i : Nat) : State :=
  errCtx (modStrand s n ph (fun x => { x with run := .stopped })) e n k i

/-- VE_STRAND_LAUNCH (R150): the next launch of an idle strand starts, with S0 to S2 set. -/
def execVeStrandLaunch (n ph : Nat) (s : State) : Host.Outcome State Fault Refusal :=
  .next (match strandOwner s n ph with
    | none => s
    | some (k, _) =>
      let x := strand s n ph
      match x.launches with
      | [] => s
      | l :: rest =>
        if !running s n k || x.run ≠ .idle then s
        else refresh (modStrand s n ph (fun x =>
          { setS (setS (setS x 0 l.idx) 1 l.variant) 2 l.iter with
            pc := 0, entry := l.entry, loops := [], run := .run, order := l.order, launches := rest })) n k)

/-- What the VE finds when it fetches a strand's next instruction. -/
inductive VeFetch where
  | none
  | range (k i : Nat)
  | ins (k i w : Nat)
deriving DecidableEq, Repr

/-- The next instruction of a running strand, at window offset entry + 8 × PC (R92). The instruction buffer is taken to hold what
the window holds (R90; DESIGN CHOICE, log entry 62). -/
def veFetch (s : State) (n ph : Nat) : VeFetch :=
  match strandOwner s n ph with
  | none => .none
  | some (k, i) =>
    let x := strand s n ph
    if !running s n k || x.run ≠ .run then .none
    else if winBytes s n k < x.entry + 8 * x.pc + 8 then .range k i
    else .ins k i (leNat (readWin s n k (x.entry + 8 * x.pc) 8))

/-- Register-file and instruction-memory findings before an instruction issues (R102, R217): granule 0 of a finding is that of
the instruction. -/
def vePre (s : State) (n ph k i : Nat) (ecc : Ecc) : State × Bool :=
  let s := if ecc = .corr then recErr s eVeRegEccCorr n k i (slot s n k).ctag else s
  if ecc = .uncorr then
    let s := veErr s eVeRegEccUncorr n k ph i
    let (s, again) := noteEcc s n 2 ph
    (if again then corePending s n else s, false)
  else match checkRead s (winDpa s n k ((strand s n ph).entry + 8 * (strand s n ph).pc)) 8 ecc (slot s n k).ctag with
    | (s, some e) => (endCtx s n k 5 e 3, false)
    | (s, none) => (s, true)

/-- Issue the next instruction of a strand when it is `opc`: checks, the counters (R101), then the effect. An instruction
with another assigned opcode is not this command's event. -/
def veRun (s : State) (n ph opc : Nat) (ecc : Ecc) (f : State → Nat → Nat → Nat → State) : State :=
  match veFetch s n ph with
  | .none => s
  | .range k i => veErr s eVeLmRange n k ph i
  | .ins k i w =>
    if vAssigned (vOpc w) && vOpc w ≠ opc then s
    else match vePre s n ph k i ecc with
    | (s, false) => s
    | (s, true) =>
      if vBad w then veErr s eVeOpInvalid n k ph i
      else f (bump (bump s .ve n 0x128 1) .ve n 0x130 1) k i w

/-- An instruction that only changes its strand's registers. -/
def veReg (s : State) (n ph opc : Nat) (ecc : Ecc) (f : Strand → Nat → Strand) : State :=
  veRun s n ph opc ecc (fun s _ _ w => modStrand s n ph (fun x => vAdvance (f x w) x.pc))

/-- VE_OP_INVALID (R92): the next instruction is refused. -/
def execVeOpInvalid (n ph : Nat) (ecc : Ecc) (s : State) : Host.Outcome State Fault Refusal :=
  .next (match veFetch s n ph with
    | .none => s
    | .range k i => veErr s eVeLmRange n k ph i
    | .ins k i w =>
      if !vBad w then s
      else match vePre s n ph k i ecc with
      | (s, false) => s
      | (s, true) => veErr s eVeOpInvalid n k ph i)

/-! ### Memory instructions (R92, R72) -/

/-- 32-bit address arithmetic: the sum of a register and IMM wraps (DESIGN CHOICE, log entry 62). -/
def vAddr (a b : Nat) : Nat := (a + b) % 2 ^ 32

/-- The lanes and window offsets of a memory instruction: LD and ST, LDX and STX, SLD and SST. -/
def vAddrs (x : Strand) (w : Nat) : List (Nat × Nat) :=
  let opc := vOpc w
  if opc = 0x30 || opc = 0x31 then
    (vLanes x w).map (fun i => (i, vAddr (sReg x (vA w)) (vImm w) + 4 * i))
  else if opc = 0x32 || opc = 0x33 then (vLanes x w).map (fun i => (i, vAddr (vReg x (vA w) i) (vImm w)))
  else if bit (vGuard x w) 0 then [(0, vAddr (sReg x (vA w)) (vImm w))] else []

/-- Is an access refused with VE_LM_RANGE: misaligned, or beyond the window? With no lane guarded an LD or ST is still refused
for a misaligned base, and no access is beyond the window (DESIGN CHOICE, log entry 62). -/
def vRangeBad (s : State) (n k : Nat) (x : Strand) (w : Nat) : Bool :=
  ((vOpc w = 0x30 || vOpc w = 0x31) && vAddr (sReg x (vA w)) (vImm w) % 128 ≠ 0) ||
  (vAddrs x w).any (fun e => e.2 % 4 ≠ 0 || winBytes s n k < e.2 + 4)

/-- The check of every word that a load reads, each poisoned one an error (R217): the state, and ERR of R460 of the first. -/
def vLoadCheck (s : State) (n k : Nat) (as : List (Nat × Nat)) (ecc : Ecc) : State × Option Nat :=
  as.zipIdx.foldl (fun (a : State × Option Nat) e =>
    let (s, er) := checkRead a.1 (winDpa a.1 n k e.1.2) 4 (eccAfter ecc (1 + e.2)) (slot a.1 n k).ctag
    (s, a.2.or er))
    (s, none)

/-- A load: every lane's word is checked and read, then D is written. -/
def veLoad (s : State) (n ph opc : Nat) (ecc : Ecc) : State :=
  veRun s n ph opc ecc (fun s k i w =>
    let x := strand s n ph
    if vRangeBad s n k x w then veErr s eVeLmRange n k ph i
    else
      let as := vAddrs x w
      match vLoadCheck s n k as ecc with
      | (s, some er) => endCtx s n k 5 er 3
      | (s, none) =>
        let rd (o : Nat) : Nat := leNat (readWin s n k o 4)
        modStrand s n ph (fun x =>
          vAdvance (if opc = 0x34 then as.foldl (fun y e => setS y (vD w) (rd e.2)) x
            else as.foldl (fun y e => setV y (vD w) e.1 (rd e.2)) x) x.pc))

/-- The writes of a store, as window offsets and bytes: an ST writes each granule of its 128 B whose lanes are all guarded in one
piece, so that it covers the granule (R208, R217); every other lane writes its word, in ascending order, so that the highest lane
wins (R92). -/
def vStores (as : List (Nat × Nat)) (opc : Nat) (val : Nat → Nat) : List (Nat × List Byte) :=
  let word (e : Nat × Nat) : List Byte := leBytes (val e.1) 4
  let half (h : Nat) : List (Nat × List Byte) :=
    let l := as.filter (fun e => e.1 / 16 = h)
    if l.length = 16 then [((l.headD (0, 0)).2, l.flatMap word)] else l.map (fun e => (e.2, word e))
  if opc = 0x31 then half 0 ++ half 1 else as.map (fun e => (e.2, word e))

/-- A store (R92). -/
def veStore (s : State) (n ph opc : Nat) (ecc : Ecc) : State :=
  veRun s n ph opc ecc (fun s k i w =>
    let x := strand s n ph
    if vRangeBad s n k x w then veErr s eVeLmRange n k ph i
    else
      let val (lane : Nat) : Nat := if opc = 0x35 then sReg x (vB w) else vReg x (vB w) lane
      let s := (vStores (vAddrs x w) opc val).foldl (fun s e => writeWin s n k e.1 e.2) s
      modStrand s n ph (fun x => vAdvance x x.pc))

/-! ### Reductions (R132) -/

/-- A reduction over the guarded lanes, from the first; `empty` is the result without one. F32 results carry the
canonical NaN (R105). -/
def vReduce (x : Strand) (w empty : Nat) (f : Nat → Nat → Nat) : Strand :=
  let vs := (vLanes x w).map (vReg x (vA w))
  let r := match vs with
    | [] => empty
    | a :: t => t.foldl f a
  setS x (vD w) (if vTy w = 0 && !vs.isEmpty then rne .fp32 (Fmt.fp32.decode r) else r)

/-! ### Meanings -/

def execVeNop (n ph : Nat) (ecc : Ecc) (s : State) : Host.Outcome State Fault Refusal :=
  .next (veReg s n ph 0x00 ecc (fun x w => let _ := w; x))
def execVeAdd (n ph : Nat) (ecc : Ecc) (s : State) : Host.Outcome State Fault Refusal :=
  .next (veReg s n ph 0x01 ecc (fun x w => vElement x w (fun a b _ => vAdd (vTy w) a b)))
def execVeSub (n ph : Nat) (ecc : Ecc) (s : State) : Host.Outcome State Fault Refusal :=
  .next (veReg s n ph 0x02 ecc (fun x w => vElement x w (fun a b _ => vSub (vTy w) a b)))
def execVeMul (n ph : Nat) (ecc : Ecc) (s : State) : Host.Outcome State Fault Refusal :=
  .next (veReg s n ph 0x03 ecc (fun x w => vElement x w (fun a b _ => vMul (vTy w) a b)))
def execVeMin (n ph : Nat) (ecc : Ecc) (s : State) : Host.Outcome State Fault Refusal :=
  .next (veReg s n ph 0x05 ecc (fun x w => vElement x w (fun a b _ => vMin (vTy w) a b)))
def execVeMax (n ph : Nat) (ecc : Ecc) (s : State) : Host.Outcome State Fault Refusal :=
  .next (veReg s n ph 0x06 ecc (fun x w => vElement x w (fun a b _ => vMax (vTy w) a b)))
def execVeFma (n ph : Nat) (ecc : Ecc) (s : State) : Host.Outcome State Fault Refusal :=
  .next (veReg s n ph 0x04 ecc (fun x w => vElement x w (fun a b c => vFma (vTy w) a b c)))
def execVeAbs (n ph : Nat) (ecc : Ecc) (s : State) : Host.Outcome State Fault Refusal :=
  .next (veReg s n ph 0x07 ecc (fun x w => vElement x w (fun a _ _ => vAbs (vTy w) a)))
def execVeNeg (n ph : Nat) (ecc : Ecc) (s : State) : Host.Outcome State Fault Refusal :=
  .next (veReg s n ph 0x08 ecc (fun x w => vElement x w (fun a _ _ => vNeg (vTy w) a)))
/-- CVT (R133, R134): the draws of mode SR use the slot's SEED and the strand's context-relative number (R114). -/
def execVeCvt (n ph : Nat) (ecc : Ecc) (s : State) : Host.Outcome State Fault Refusal :=
  .next (veRun s n ph 0x09 ecc (fun s k i w =>
    modStrand s n ph (fun x => vAdvance (cvtStrand x w (slotReg s n k 0x424).toNat (0x100 + i)) x.pc)))

/-- CMP (R92): the guarded bits of P[D]; the scalar form sets every bit to its one result. -/
def vCmp (x : Strand) (w : Nat) : Strand :=
  let c := bits (vImm w) 0 3
  let d := vD w % 8
  if vSc w then
    if bit (vGuard x w) 0 then setP x d (if vCond (vTy w) c (sReg x (vA w)) (sReg x (vB w)) then 0xFFFFFFFF else 0) else x
  else
    setP x d ((vLanes x w).foldl (fun p i =>
      putBits p i 1 (b2n (vCond (vTy w) c (vReg x (vA w) i) (vReg x (vB w) i)))) (pReg x d))

def execVeCmp (n ph : Nat) (ecc : Ecc) (s : State) : Host.Outcome State Fault Refusal :=
  .next (veReg s n ph 0x0A ecc (fun x w => vCmp x w))
/-- SEL (R92): per lane by P[IMM[2:0]]; the scalar form by its bit 0. -/
def vSel (x : Strand) (w : Nat) : Strand :=
  let p := pReg x (bits (vImm w) 0 3)
  if vSc w then vElement x w (fun a b _ => if bit p 0 then a else b)
  else vWrite x w (fun i => if bit p i then vReg x (vA w) i else vReg x (vB w) i)

def execVeSel (n ph : Nat) (ecc : Ecc) (s : State) : Host.Outcome State Fault Refusal :=
  .next (veReg s n ph 0x0B ecc (fun x w => vSel x w))
def execVeAnd (n ph : Nat) (ecc : Ecc) (s : State) : Host.Outcome State Fault Refusal :=
  .next (veReg s n ph 0x10 ecc (fun x w => vElement x w (fun a b _ => a &&& b)))
def execVeOr (n ph : Nat) (ecc : Ecc) (s : State) : Host.Outcome State Fault Refusal :=
  .next (veReg s n ph 0x11 ecc (fun x w => vElement x w (fun a b _ => a ||| b)))
def execVeXor (n ph : Nat) (ecc : Ecc) (s : State) : Host.Outcome State Fault Refusal :=
  .next (veReg s n ph 0x12 ecc (fun x w => vElement x w (fun a b _ => a ^^^ b)))
def execVeShl (n ph : Nat) (ecc : Ecc) (s : State) : Host.Outcome State Fault Refusal :=
  .next (veReg s n ph 0x13 ecc (fun x w => vElement x w (fun a b _ => (a <<< (b % 32)) % 2 ^ 32)))
def execVeShr (n ph : Nat) (ecc : Ecc) (s : State) : Host.Outcome State Fault Refusal :=
  .next (veReg s n ph 0x14 ecc (fun x w => vElement x w (fun a b _ => a >>> (b % 32))))
def execVeSar (n ph : Nat) (ecc : Ecc) (s : State) : Host.Outcome State Fault Refusal :=
  .next (veReg s n ph 0x15 ecc (fun x w => vElement x w (fun a b _ => sarWord a (b % 32))))
/-- A transcendental instruction, counted by VE_TRANS_OPS (R93, R101). -/
def veTrans (s : State) (n ph opc : Nat) (ecc : Ecc) : State :=
  veRun s n ph opc ecc (fun s _ _ w =>
    modStrand (bump s .ve n 0x12C 1) n ph (fun x => vAdvance (vElement x w (fun a _ _ => vTrans opc (vTy w) a)) x.pc))

def execVeRcp (n ph : Nat) (ecc : Ecc) (s : State) : Host.Outcome State Fault Refusal := .next (veTrans s n ph 0x20 ecc)
def execVeRsqrt (n ph : Nat) (ecc : Ecc) (s : State) : Host.Outcome State Fault Refusal := .next (veTrans s n ph 0x21 ecc)
def execVeSqrt (n ph : Nat) (ecc : Ecc) (s : State) : Host.Outcome State Fault Refusal := .next (veTrans s n ph 0x22 ecc)
def execVeExp2 (n ph : Nat) (ecc : Ecc) (s : State) : Host.Outcome State Fault Refusal := .next (veTrans s n ph 0x23 ecc)
def execVeLog2 (n ph : Nat) (ecc : Ecc) (s : State) : Host.Outcome State Fault Refusal := .next (veTrans s n ph 0x24 ecc)
def execVeSinpi (n ph : Nat) (ecc : Ecc) (s : State) : Host.Outcome State Fault Refusal := .next (veTrans s n ph 0x25 ecc)
def execVeCospi (n ph : Nat) (ecc : Ecc) (s : State) : Host.Outcome State Fault Refusal := .next (veTrans s n ph 0x26 ecc)
def execVeTanh (n ph : Nat) (ecc : Ecc) (s : State) : Host.Outcome State Fault Refusal := .next (veTrans s n ph 0x27 ecc)
def execVeLd (n ph : Nat) (ecc : Ecc) (s : State) : Host.Outcome State Fault Refusal := .next (veLoad s n ph 0x30 ecc)
def execVeSt (n ph : Nat) (ecc : Ecc) (s : State) : Host.Outcome State Fault Refusal := .next (veStore s n ph 0x31 ecc)
def execVeLdx (n ph : Nat) (ecc : Ecc) (s : State) : Host.Outcome State Fault Refusal := .next (veLoad s n ph 0x32 ecc)
def execVeStx (n ph : Nat) (ecc : Ecc) (s : State) : Host.Outcome State Fault Refusal := .next (veStore s n ph 0x33 ecc)
def execVeSld (n ph : Nat) (ecc : Ecc) (s : State) : Host.Outcome State Fault Refusal := .next (veLoad s n ph 0x34 ecc)
def execVeSst (n ph : Nat) (ecc : Ecc) (s : State) : Host.Outcome State Fault Refusal := .next (veStore s n ph 0x35 ecc)
def execVeShuf (n ph : Nat) (ecc : Ecc) (s : State) : Host.Outcome State Fault Refusal :=
  .next (veReg s n ph 0x38 ecc (fun x w => vWrite x w (fun i => vReg x (vA w) (vReg x (vB w) i % 32))))
def execVeBcst (n ph : Nat) (ecc : Ecc) (s : State) : Host.Outcome State Fault Refusal :=
  .next (veReg s n ph 0x39 ecc (fun x w => vWrite x w (fun _ => vReg x (vA w) (bits (vImm w) 0 5))))
def execVeRadd (n ph : Nat) (ecc : Ecc) (s : State) : Host.Outcome State Fault Refusal :=
  .next (veReg s n ph 0x3A ecc (fun x w => vReduce x w 0 (vAdd (vTy w))))
def execVeRmax (n ph : Nat) (ecc : Ecc) (s : State) : Host.Outcome State Fault Refusal :=
  .next (veReg s n ph 0x3B ecc (fun x w => vReduce x w (if vTy w = 0 then 0xFF800000 else if vTy w = 3 then 0x80000000 else 0) (vMax (vTy w))))
def execVeRmin (n ph : Nat) (ecc : Ecc) (s : State) : Host.Outcome State Fault Refusal :=
  .next (veReg s n ph 0x3C ecc (fun x w => vReduce x w (if vTy w = 0 then 0x7F800000 else if vTy w = 3 then 0x7FFFFFFF else 0xFFFFFFFF) (vMin (vTy w))))
def execVeMovi (n ph : Nat) (ecc : Ecc) (s : State) : Host.Outcome State Fault Refusal :=
  .next (veReg s n ph 0x40 ecc (fun x w => vElement x w (fun _ _ _ => vImm w)))
def execVeMov (n ph : Nat) (ecc : Ecc) (s : State) : Host.Outcome State Fault Refusal :=
  .next (veReg s n ph 0x41 ecc (fun x w => vElement x w (fun a _ _ => a)))
def execVeMovs (n ph : Nat) (ecc : Ecc) (s : State) : Host.Outcome State Fault Refusal :=
  .next (veReg s n ph 0x42 ecc (fun x w => vWrite x w (fun _ => sReg x (vA w))))
def execVeLaneid (n ph : Nat) (ecc : Ecc) (s : State) : Host.Outcome State Fault Refusal :=
  .next (veReg s n ph 0x43 ecc (fun x w => vWrite x w (fun i => i)))

/-- LOOP (R92): body length, nesting, depth, in that order; 0 times skips the body. -/
def execVeLoop (n ph : Nat) (ecc : Ecc) (s : State) : Host.Outcome State Fault Refusal :=
  .next (veRun s n ph 0x50 ecc (fun s k i w =>
    let x := strand s n ph
    let body := bits (vImm w) 16 16
    let cnt := bits (vImm w) 0 16
    let last := x.pc + body
    if body = 0 || 4096 < body || x.loops.any (fun l => l.last < last) then veErr s eVeOpInvalid n k ph i
    else if 4 ≤ x.loops.length then veErr s eVeLoopDepth n k ph i
    else if cnt = 0 then modStrand s n ph (fun x => vAdvance x last)
    else modStrand s n ph (fun x => { x with pc := x.pc + 1, loops := ⟨x.pc + 1, last, cnt⟩ :: x.loops })))

/-- JMP (R92): not inside a LOOP body. -/
def execVeJmp (n ph : Nat) (ecc : Ecc) (s : State) : Host.Outcome State Fault Refusal :=
  .next (veRun s n ph 0x51 ecc (fun s k i w =>
    if (strand s n ph).loops.isEmpty then modStrand s n ph (fun x => { x with pc := vImm w })
    else veErr s eVeOpInvalid n k ph i))

/-- EXIT (R88): the strand ends, and the VE part with its last strand, which moves the VE beat (R84). -/
def execVeExit (n ph : Nat) (ecc : Ecc) (s : State) : Host.Outcome State Fault Refusal :=
  .next (veRun s n ph 0x52 ecc (fun s k _ _ =>
    let o := (strand s n ph).order
    let s := modStrand s n ph (fun x => { x with run := .idle, loops := [] })
    let last := (slot s n k).inflight.find? (fun f => f.order = o && f.veLeft = 1)
    let s := modSlot s n k (fun sl => { sl with
      inflight := markDone (sl.inflight.map (fun f => if f.order = o then { f with veLeft := f.veLeft - 1 } else f)) })
    let s := match last with
      | some f => addBeat s n k 2 (stBeat f.record 2)
      | none => s
    refresh s n k))

/-- WAIT (R170, R174, R175): one that holds is satisfied at once, another deschedules its strand. -/
def execVeWait (n ph : Nat) (ecc : Ecc) (s : State) : Host.Outcome State Fault Refusal :=
  .next (veRun s n ph 0x53 ecc (fun s k i w =>
    let obj := bits (vImm w) 0 12
    let peek := bit (vImm w) 12
    let v := bits (vImm w) 16 16
    match physObj s n k obj with
    | none => veErr s eVeSyncRange n k ph i
    | some o =>
      let x := syncObj s n o
      if x.event && v ≠ 0 then errCtx s eSynModeMismatch n k obj
      else
        let s := modStrand s n ph (fun y => vAdvance y y.pc)
        if veWaitHolds (leftForStrands s n k o) v then
          let s := if peek then s else bump s .syn n 0x138 1
          modSync s n o (fun z => veWaitTake z peek v)
        else refresh (modStrand s n ph (fun y => { y with run := .wait obj peek v })) n k))

/-- SIGNAL (R170, R175). -/
def execVeSignal (n ph : Nat) (ecc : Ecc) (s : State) : Host.Outcome State Fault Refusal :=
  .next (veRun s n ph 0x54 ecc (fun s k i w =>
    let obj := bits (vImm w) 0 12
    match physObj s n k obj with
    | none => veErr s eVeSyncRange n k ph i
    | some _ => syncDo (modStrand s n ph (fun y => vAdvance y y.pc)) n k obj .signal false))

/-- FENCE (R92): every earlier access of the strand is complete when its command is, so the strand goes on. -/
def execVeFence (n ph : Nat) (ecc : Ecc) (s : State) : Host.Outcome State Fault Refusal :=
  .next (veReg s n ph 0x55 ecc (fun x w => let _ := w; x))

end Sys2Proof.Machine
end

