-- ==== Sys2Proof/Machine/Dispatch.lean ====
section
/-!
DEFINITION. The dispatch of a command to its meaning: one arm per constructor.
-/
namespace Sys2Proof.Machine

def exec (i : Instr) (s : State) : Host.Outcome State Fault Refusal :=
  match i with
  | .vaux12InRange flash answers fuseBad => Sys2Proof.Machine.execVaux12InRange flash answers fuseBad s
  | .bootS1 => Sys2Proof.Machine.execBootS1 s
  | .romWatchdog answers => Sys2Proof.Machine.execRomWatchdog answers s
  | .vin48Present => Sys2Proof.Machine.execVin48Present s
  | .bootS2 bridges rows => Sys2Proof.Machine.execBootS2 bridges rows s
  | .bootS3 trainFail repaired => Sys2Proof.Machine.execBootS3 trainFail repaired s
  | .bootS4 once twice clusters => Sys2Proof.Machine.execBootS4 once twice clusters s
  | .bootS5 healthy => Sys2Proof.Machine.execBootS5 healthy s
  | .bootS6 => Sys2Proof.Machine.execBootS6 s
  | .bootS7 => Sys2Proof.Machine.execBootS7 s
  | .bootStageFail cause => Sys2Proof.Machine.execBootStageFail cause s
  | .registerWrite req addr size value => Sys2Proof.Machine.execRegisterWrite req addr size value s
  | .rcRegisterRead req addr size => Sys2Proof.Machine.execRcRegisterRead req addr size s
  | .accessLevelWrite req addr value => Sys2Proof.Machine.execAccessLevelWrite req addr value s
  | .ctrlEnableSet req addr value => Sys2Proof.Machine.execCtrlEnableSet req addr value s
  | .ctrlEnableClear req addr value => Sys2Proof.Machine.execCtrlEnableClear req addr value s
  | .ctrlQuiesceSet req addr value => Sys2Proof.Machine.execCtrlQuiesceSet req addr value s
  | .ctrlQuiesceClear req addr value => Sys2Proof.Machine.execCtrlQuiesceClear req addr value s
  | .quiescedReached pageAddr => Sys2Proof.Machine.execQuiescedReached pageAddr s
  | .quiesceTimeout pageAddr => Sys2Proof.Machine.execQuiesceTimeout pageAddr s
  | .ctrlResetReq req addr value => Sys2Proof.Machine.execCtrlResetReq req addr value s
  | .errStatusClear req addr value => Sys2Proof.Machine.execErrStatusClear req addr value s
  | .errFirstValidClear req addr value => Sys2Proof.Machine.execErrFirstValidClear req addr value s
  | .errInject req addr value => Sys2Proof.Machine.execErrInject req addr value s
  | .intStatusClear req addr value => Sys2Proof.Machine.execIntStatusClear req addr value s
  | .synStateRead req core => Sys2Proof.Machine.execSynStateRead req core s
  | .carTimeRead req => Sys2Proof.Machine.execCarTimeRead req s
  | .islandSensorSample islandA islandB tempA tempB => Sys2Proof.Machine.execIslandSensorSample islandA islandB tempA tempB s
  | .islandSupplySkew islandA islandB => Sys2Proof.Machine.execIslandSupplySkew islandA islandB s
  | .islandClockSkew islandA islandB => Sys2Proof.Machine.execIslandClockSkew islandA islandB s
  | .sqInstall req core slot => Sys2Proof.Machine.execSqInstall req core slot s
  | .deferredInstall core => Sys2Proof.Machine.execDeferredInstall core s
  | .sqPreempt req core slot => Sys2Proof.Machine.execSqPreempt req core slot s
  | .sqResume req core slot => Sys2Proof.Machine.execSqResume req core slot s
  | .sqHalt req core slot => Sys2Proof.Machine.execSqHalt req core slot s
  | .sqUnhalt req core slot => Sys2Proof.Machine.execSqUnhalt req core slot s
  | .sqStep req core slot => Sys2Proof.Machine.execSqStep req core slot s
  | .sqCmdInvalid req core slot op => Sys2Proof.Machine.execSqCmdInvalid req core slot op s
  | .rudimentLoadCheck core slot => Sys2Proof.Machine.execRudimentLoadCheck core slot s
  | .restoreHeaderRead core slot => Sys2Proof.Machine.execRestoreHeaderRead core slot s
  | .restoreComplete core slot => Sys2Proof.Machine.execRestoreComplete core slot s
  | .stepPrefetch core slot => Sys2Proof.Machine.execStepPrefetch core slot s
  | .stepIssue core slot ecc => Sys2Proof.Machine.execStepIssue core slot ecc s
  | .stepComplete core slot order => Sys2Proof.Machine.execStepComplete core slot order s
  | .barrierBindReadDone core slot => Sys2Proof.Machine.execBarrierBindReadDone core slot s
  | .gongArrival core slot bar phase ecc => Sys2Proof.Machine.execGongArrival core slot bar phase ecc s
  | .barrierReleaseReceive core fabric bar phase => Sys2Proof.Machine.execBarrierReleaseReceive core fabric bar phase s
  | .barrierOverrunNotice core slot bar detail => Sys2Proof.Machine.execBarrierOverrunNotice core slot bar detail s
  | .gngBarCfgWrite req tile bar value => Sys2Proof.Machine.execGngBarCfgWrite req tile bar value s
  | .gngPkgCfgWrite req bar value => Sys2Proof.Machine.execGngPkgCfgWrite req bar value s
  | .fbLocalArrival pipe core slot bar phase => Sys2Proof.Machine.execFbLocalArrival pipe core slot bar phase s
  | .fbTimeout pipe bar => Sys2Proof.Machine.execFbTimeout pipe bar s
  | .colFbCfgWrite req pipe bar value => Sys2Proof.Machine.execColFbCfgWrite req pipe bar value s
  | .teMma core slot ecc => Sys2Proof.Machine.execTeMma core slot ecc s
  | .teWb core slot ecc => Sys2Proof.Machine.execTeWb core slot ecc s
  | .teZero core slot ecc => Sys2Proof.Machine.execTeZero core slot ecc s
  | .teLdacc core slot ecc => Sys2Proof.Machine.execTeLdacc core slot ecc s
  | .teOpInvalid core slot => Sys2Proof.Machine.execTeOpInvalid core slot s
  | .teOpComplete core bankPort ecc => Sys2Proof.Machine.execTeOpComplete core bankPort ecc s
  | .veStrandLaunch core strand => Sys2Proof.Machine.execVeStrandLaunch core strand s
  | .veNop core strand ecc => Sys2Proof.Machine.execVeNop core strand ecc s
  | .veAdd core strand ecc => Sys2Proof.Machine.execVeAdd core strand ecc s
  | .veSub core strand ecc => Sys2Proof.Machine.execVeSub core strand ecc s
  | .veMul core strand ecc => Sys2Proof.Machine.execVeMul core strand ecc s
  | .veFma core strand ecc => Sys2Proof.Machine.execVeFma core strand ecc s
  | .veMin core strand ecc => Sys2Proof.Machine.execVeMin core strand ecc s
  | .veMax core strand ecc => Sys2Proof.Machine.execVeMax core strand ecc s
  | .veAbs core strand ecc => Sys2Proof.Machine.execVeAbs core strand ecc s
  | .veNeg core strand ecc => Sys2Proof.Machine.execVeNeg core strand ecc s
  | .veCvt core strand ecc => Sys2Proof.Machine.execVeCvt core strand ecc s
  | .veCmp core strand ecc => Sys2Proof.Machine.execVeCmp core strand ecc s
  | .veSel core strand ecc => Sys2Proof.Machine.execVeSel core strand ecc s
  | .veAnd core strand ecc => Sys2Proof.Machine.execVeAnd core strand ecc s
  | .veOr core strand ecc => Sys2Proof.Machine.execVeOr core strand ecc s
  | .veXor core strand ecc => Sys2Proof.Machine.execVeXor core strand ecc s
  | .veShl core strand ecc => Sys2Proof.Machine.execVeShl core strand ecc s
  | .veShr core strand ecc => Sys2Proof.Machine.execVeShr core strand ecc s
  | .veSar core strand ecc => Sys2Proof.Machine.execVeSar core strand ecc s
  | .veRcp core strand ecc => Sys2Proof.Machine.execVeRcp core strand ecc s
  | .veRsqrt core strand ecc => Sys2Proof.Machine.execVeRsqrt core strand ecc s
  | .veSqrt core strand ecc => Sys2Proof.Machine.execVeSqrt core strand ecc s
  | .veExp2 core strand ecc => Sys2Proof.Machine.execVeExp2 core strand ecc s
  | .veLog2 core strand ecc => Sys2Proof.Machine.execVeLog2 core strand ecc s
  | .veSinpi core strand ecc => Sys2Proof.Machine.execVeSinpi core strand ecc s
  | .veCospi core strand ecc => Sys2Proof.Machine.execVeCospi core strand ecc s
  | .veTanh core strand ecc => Sys2Proof.Machine.execVeTanh core strand ecc s
  | .veLd core strand ecc => Sys2Proof.Machine.execVeLd core strand ecc s
  | .veSt core strand ecc => Sys2Proof.Machine.execVeSt core strand ecc s
  | .veLdx core strand ecc => Sys2Proof.Machine.execVeLdx core strand ecc s
  | .veStx core strand ecc => Sys2Proof.Machine.execVeStx core strand ecc s
  | .veSld core strand ecc => Sys2Proof.Machine.execVeSld core strand ecc s
  | .veSst core strand ecc => Sys2Proof.Machine.execVeSst core strand ecc s
  | .veShuf core strand ecc => Sys2Proof.Machine.execVeShuf core strand ecc s
  | .veBcst core strand ecc => Sys2Proof.Machine.execVeBcst core strand ecc s
  | .veRadd core strand ecc => Sys2Proof.Machine.execVeRadd core strand ecc s
  | .veRmax core strand ecc => Sys2Proof.Machine.execVeRmax core strand ecc s
  | .veRmin core strand ecc => Sys2Proof.Machine.execVeRmin core strand ecc s
  | .veMovi core strand ecc => Sys2Proof.Machine.execVeMovi core strand ecc s
  | .veMov core strand ecc => Sys2Proof.Machine.execVeMov core strand ecc s
  | .veMovs core strand ecc => Sys2Proof.Machine.execVeMovs core strand ecc s
  | .veLaneid core strand ecc => Sys2Proof.Machine.execVeLaneid core strand ecc s
  | .veLoop core strand ecc => Sys2Proof.Machine.execVeLoop core strand ecc s
  | .veJmp core strand ecc => Sys2Proof.Machine.execVeJmp core strand ecc s
  | .veExit core strand ecc => Sys2Proof.Machine.execVeExit core strand ecc s
  | .veWait core strand ecc => Sys2Proof.Machine.execVeWait core strand ecc s
  | .veSignal core strand ecc => Sys2Proof.Machine.execVeSignal core strand ecc s
  | .veFence core strand ecc => Sys2Proof.Machine.execVeFence core strand ecc s
  | .veOpInvalid core strand ecc => Sys2Proof.Machine.execVeOpInvalid core strand ecc s
  | .xeChainStart core stream => Sys2Proof.Machine.execXeChainStart core stream s
  | .xeCopy core stream => Sys2Proof.Machine.execXeCopy core stream s
  | .xeFill core stream => Sys2Proof.Machine.execXeFill core stream s
  | .xeGather core stream => Sys2Proof.Machine.execXeGather core stream s
  | .xeScatter core stream => Sys2Proof.Machine.execXeScatter core stream s
  | .xeAgen core stream => Sys2Proof.Machine.execXeAgen core stream s
  | .xePut core stream => Sys2Proof.Machine.execXePut core stream s
  | .xeGet core stream => Sys2Proof.Machine.execXeGet core stream s
  | .xeSignal core stream => Sys2Proof.Machine.execXeSignal core stream s
  | .xeAtomic core stream => Sys2Proof.Machine.execXeAtomic core stream s
  | .xeReducePut core stream => Sys2Proof.Machine.execXeReducePut core stream s
  | .xeReadIssue core stream => Sys2Proof.Machine.execXeReadIssue core stream s
  | .xeReadDataReturn core stream which ecc => Sys2Proof.Machine.execXeReadDataReturn core stream which ecc s
  | .xeDescComplete core stream => Sys2Proof.Machine.execXeDescComplete core stream s
  | .mmuWalk core slot va access ecc => Sys2Proof.Machine.execMmuWalk core slot va access ecc s
  | .xeTranslationFault core stream info => Sys2Proof.Machine.execXeTranslationFault core stream info s
  | .faultRecordPost mmu => Sys2Proof.Machine.execFaultRecordPost mmu s
  | .mmuInvVaRange req mmu value => Sys2Proof.Machine.execMmuInvVaRange req mmu value s
  | .mmuInvAsid req mmu value => Sys2Proof.Machine.execMmuInvAsid req mmu value s
  | .mmuInvAll req mmu value => Sys2Proof.Machine.execMmuInvAll req mmu value s
  | .mmuInvKey req mmu value => Sys2Proof.Machine.execMmuInvKey req mmu value s
  | .mmuInvComplete mmu => Sys2Proof.Machine.execMmuInvComplete mmu s
  | .mmuInvTimeout mmu => Sys2Proof.Machine.execMmuInvTimeout mmu s
  | .fabricStopSettled core stream => Sys2Proof.Machine.execFabricStopSettled core stream s
  | .tallyOnlySend core stream => Sys2Proof.Machine.execTallyOnlySend core stream s
  | .saveStart core slot => Sys2Proof.Machine.execSaveStart core slot s
  | .saveComplete core slot => Sys2Proof.Machine.execSaveComplete core slot s
  | .saveFault core slot offset info => Sys2Proof.Machine.execSaveFault core slot offset info s
  | .srDoorbell req clu ring value => Sys2Proof.Machine.execSrDoorbell req clu ring value s
  | .srFetch clu ring data => Sys2Proof.Machine.execSrFetch clu ring data s
  | .ringDispatch clu ring => Sys2Proof.Machine.execRingDispatch clu ring s
  | .ringNop clu ring => Sys2Proof.Machine.execRingNop clu ring s
  | .ringInstall clu ring => Sys2Proof.Machine.execRingInstall clu ring s
  | .ringCtxReset clu ring => Sys2Proof.Machine.execRingCtxReset clu ring s
  | .ringInvalid clu ring => Sys2Proof.Machine.execRingInvalid clu ring s
  | .cqPost clu cq => Sys2Proof.Machine.execCqPost clu cq s
  | .cqTimerExpiry clu cq => Sys2Proof.Machine.execCqTimerExpiry clu cq s
  | .cluCqHeadWrite req clu cq value => Sys2Proof.Machine.execCluCqHeadWrite req clu cq value s
  | .cluFqHeadWrite req clu value => Sys2Proof.Machine.execCluFqHeadWrite req clu value s
  | .qDmaError clu queue => Sys2Proof.Machine.execQDmaError clu queue s
  | .qDmaTimeout clu queue => Sys2Proof.Machine.execQDmaTimeout clu queue s
  | .configRequest func write reg value => Sys2Proof.Machine.execConfigRequest func write reg value s
  | .bar2Read func offset len ecc => Sys2Proof.Machine.execBar2Read func offset len ecc s
  | .bar2Write func offset data enables => Sys2Proof.Machine.execBar2Write func offset data enables s
  | .pcieLaneFailed recovery => Sys2Proof.Machine.execPcieLaneFailed recovery s
  | .pcieLinkDown => Sys2Proof.Machine.execPcieLinkDown s
  | .vfFlr part => Sys2Proof.Machine.execVfFlr part s
  | .pfFlr => Sys2Proof.Machine.execPfFlr s
  | .perstAssert => Sys2Proof.Machine.execPerstAssert s
  | .pcePartitionReset req part scrub => Sys2Proof.Machine.execPcePartitionReset req part scrub s
  | .pceChipReset req => Sys2Proof.Machine.execPceChipReset req s
  | .fabCmdEnable req port => Sys2Proof.Machine.execFabCmdEnable req port s
  | .fabCmdDisable req port => Sys2Proof.Machine.execFabCmdDisable req port s
  | .fabCmdRetrain req port => Sys2Proof.Machine.execFabCmdRetrain req port s
  | .fabCmdRecheck req port => Sys2Proof.Machine.execFabCmdRecheck req port s
  | .fabCmdClear req port => Sys2Proof.Machine.execFabCmdClear req port s
  | .fabCmdRetireLane req port lane => Sys2Proof.Machine.execFabCmdRetireLane req port lane s
  | .fabSignalDetect port lanes => Sys2Proof.Machine.execFabSignalDetect port lanes s
  | .downProbe port => Sys2Proof.Machine.execDownProbe port s
  | .trainingAttemptEnd port lanes signal => Sys2Proof.Machine.execTrainingAttemptEnd port lanes signal s
  | .identityFrame port frame rtt => Sys2Proof.Machine.execIdentityFrame port frame rtt s
  | .identifyTimeout port => Sys2Proof.Machine.execIdentifyTimeout port s
  | .flitTransmit port => Sys2Proof.Machine.execFlitTransmit port s
  | .flitReceive port lane flit codeword replayBad => Sys2Proof.Machine.execFlitReceive port lane flit codeword replayBad s
  | .pauseReq port token lanes temp => Sys2Proof.Machine.execPauseReq port token lanes temp s
  | .pauseAck port token lanes => Sys2Proof.Machine.execPauseAck port token lanes s
  | .pauseComplete port => Sys2Proof.Machine.execPauseComplete port s
  | .linkResume port => Sys2Proof.Machine.execLinkResume port s
  | .retrainReq port => Sys2Proof.Machine.execRetrainReq port s
  | .standbyReq port token => Sys2Proof.Machine.execStandbyReq port token s
  | .standbyAck port token => Sys2Proof.Machine.execStandbyAck port token s
  | .wake port sent => Sys2Proof.Machine.execWake port sent s
  | .keepalive port => Sys2Proof.Machine.execKeepalive port s
  | .laneBerWindow port lane m e => Sys2Proof.Machine.execLaneBerWindow port lane m e s
  | .laneUncorrWindow port lane count => Sys2Proof.Machine.execLaneUncorrWindow port lane count s
  | .laneLockLoss port lanes => Sys2Proof.Machine.execLaneLockLoss port lanes s
  | .laneLockTimeout port lane => Sys2Proof.Machine.execLaneLockTimeout port lane s
  | .laneRelock port lane => Sys2Proof.Machine.execLaneRelock port lane s
  | .laneRetrainComplete port lane => Sys2Proof.Machine.execLaneRetrainComplete port lane s
  | .laneDarkTimeout port lane => Sys2Proof.Machine.execLaneDarkTimeout port lane s
  | .optLaserWarn port laser => Sys2Proof.Machine.execOptLaserWarn port laser s
  | .optLaserFault port laser => Sys2Proof.Machine.execOptLaserFault port laser s
  | .laserWarmComplete port => Sys2Proof.Machine.execLaserWarmComplete port s
  | .optTempRead port temp => Sys2Proof.Machine.execOptTempRead port temp s
  | .optReflPeriodic port => Sys2Proof.Machine.execOptReflPeriodic port s
  | .optReflStart req port fibre => Sys2Proof.Machine.execOptReflStart req port fibre s
  | .optReflAbort req port => Sys2Proof.Machine.execOptReflAbort req port s
  | .reflFibreComplete port events => Sys2Proof.Machine.execReflFibreComplete port events s
  | .optProbeFail port => Sys2Proof.Machine.execOptProbeFail port s
  | .planeFailTimer port => Sys2Proof.Machine.execPlaneFailTimer port s
  | .fabricPacketSend core stream => Sys2Proof.Machine.execFabricPacketSend core stream s
  | .packetHoldTimeout core stream => Sys2Proof.Machine.execPacketHoldTimeout core stream s
  | .putPkt port part data tagOk => Sys2Proof.Machine.execPutPkt port part data tagOk s
  | .getReq port part data tagOk ecc => Sys2Proof.Machine.execGetReq port part data tagOk ecc s
  | .signalPkt port part data tagOk => Sys2Proof.Machine.execSignalPkt port part data tagOk s
  | .atomicPkt port part data tagOk ecc => Sys2Proof.Machine.execAtomicPkt port part data tagOk ecc s
  | .reducePut port part data tagOk ecc => Sys2Proof.Machine.execReducePut port part data tagOk ecc s
  | .tally port part data tagOk => Sys2Proof.Machine.execTally port part data tagOk s
  | .ackPkt port part data tagOk => Sys2Proof.Machine.execAckPkt port part data tagOk s
  | .getData port part data tagOk => Sys2Proof.Machine.execGetData port part data tagOk s
  | .atomicRsp port part data tagOk => Sys2Proof.Machine.execAtomicRsp port part data tagOk s
  | .unreachable port part data tagOk => Sys2Proof.Machine.execUnreachable port part data tagOk s
  | .packetResend core stream fseq => Sys2Proof.Machine.execPacketResend core stream fseq s
  | .packetTimeout core stream fseq => Sys2Proof.Machine.execPacketTimeout core stream fseq s
  | .orphanTimeout core slot flow fseq => Sys2Proof.Machine.execOrphanTimeout core slot flow fseq s
  | .resetNotice port part data tagOk => Sys2Proof.Machine.execResetNotice port part data tagOk s
  | .epochAnnounce port part data tagOk => Sys2Proof.Machine.execEpochAnnounce port part data tagOk s
  | .fbArrive port part data tagOk => Sys2Proof.Machine.execFbArrive port part data tagOk s
  | .fbRelease port part data tagOk => Sys2Proof.Machine.execFbRelease port part data tagOk s
  | .fbOverrun port part data tagOk => Sys2Proof.Machine.execFbOverrun port part data tagOk s
  | .rollLoad req pipe => Sys2Proof.Machine.execRollLoad req pipe s
  | .rollLoadComplete pipe ecc => Sys2Proof.Machine.execRollLoadComplete pipe ecc s
  | .rollSelect req pipe variant => Sys2Proof.Machine.execRollSelect req pipe variant s
  | .rollUnload req pipe => Sys2Proof.Machine.execRollUnload req pipe s
  | .peerClear req pipe coord => Sys2Proof.Machine.execPeerClear req pipe coord s
  | .peerMarkLost req pipe coord => Sys2Proof.Machine.execPeerMarkLost req pipe coord s
  | .pealChunk core data => Sys2Proof.Machine.execPealChunk core data s
  | .pealEnd core => Sys2Proof.Machine.execPealEnd core s
  | .pealFetchPass core fails damage => Sys2Proof.Machine.execPealFetchPass core fails damage s
  | .bistSliceSchedule cls inst => Sys2Proof.Machine.execBistSliceSchedule cls inst s
  | .bistSliceStart cls inst gran ecc => Sys2Proof.Machine.execBistSliceStart cls inst gran ecc s
  | .bistSliceComplete cls inst gran pass ecc => Sys2Proof.Machine.execBistSliceComplete cls inst gran pass ecc s
  | .bistSliceRetry cls inst pass rows => Sys2Proof.Machine.execBistSliceRetry cls inst pass rows s
  | .bstDirectCmd req value => Sys2Proof.Machine.execBstDirectCmd req value s
  | .directBistComplete pass => Sys2Proof.Machine.execDirectBistComplete pass s
  | .scanRequest => Sys2Proof.Machine.execScanRequest s
  | .scanOpen => Sys2Proof.Machine.execScanOpen s
  | .setCheck req pipe ecc => Sys2Proof.Machine.execSetCheck req pipe ecc s
  | .setFetch req pipe data => Sys2Proof.Machine.execSetFetch req pipe data s
  | .setSend req pipe grp ecc => Sys2Proof.Machine.execSetSend req pipe grp ecc s
  | .setCmdComplete pipe => Sys2Proof.Machine.execSetCmdComplete pipe s
  | .fieldRecordFlush => Sys2Proof.Machine.execFieldRecordFlush s
  | .fwConfirm req ok => Sys2Proof.Machine.execFwConfirm req ok s
  | .fwCancelPending req => Sys2Proof.Machine.execFwCancelPending req s
  | .fwBufferEcc answers => Sys2Proof.Machine.execFwBufferEcc answers s
  | .stagingReadbackComplete => Sys2Proof.Machine.execStagingReadbackComplete s
  | .rcvStatus iface => Sys2Proof.Machine.execRcvStatus iface s
  | .rcvBegin iface size => Sys2Proof.Machine.execRcvBegin iface size s
  | .rcvData iface offset data => Sys2Proof.Machine.execRcvData iface offset data s
  | .rcvEnd iface => Sys2Proof.Machine.execRcvEnd iface s
  | .rcvAbort iface => Sys2Proof.Machine.execRcvAbort iface s
  | .rcvVerifyComplete => Sys2Proof.Machine.execRcvVerifyComplete s
  | .rcvInactivityTimeout => Sys2Proof.Machine.execRcvInactivityTimeout s
  | .lcToMission req => Sys2Proof.Machine.execLcToMission req s
  | .lcToReturn req => Sys2Proof.Machine.execLcToReturn req s
  | .lcToEnd req => Sys2Proof.Machine.execLcToEnd req s
  | .lcTransitionComplete ok => Sys2Proof.Machine.execLcTransitionComplete ok s
  | .alarmVglitch => Sys2Proof.Machine.execAlarmVglitch s
  | .alarmCglitch => Sys2Proof.Machine.execAlarmCglitch s
  | .alarmTemp => Sys2Proof.Machine.execAlarmTemp s
  | .alarmMesh => Sys2Proof.Machine.execAlarmMesh s
  | .alarmFuse => Sys2Proof.Machine.execAlarmFuse s
  | .alarmDebug cause => Sys2Proof.Machine.execAlarmDebug cause s
  | .secAlarmCfgWrite req value => Sys2Proof.Machine.execSecAlarmCfgWrite req value s
  | .dbgGetNonce => Sys2Proof.Machine.execDbgGetNonce s
  | .dbgToken token => Sys2Proof.Machine.execDbgToken token s
  | .dbgRevoke mask => Sys2Proof.Machine.execDbgRevoke mask s
  | .dbgStatus => Sys2Proof.Machine.execDbgStatus s
  | .dbgCmdRevoke req mask => Sys2Proof.Machine.execDbgCmdRevoke req mask s
  | .dbgCmdRevokeAll req => Sys2Proof.Machine.execDbgCmdRevokeAll req s
  | .dbgCmdOpen req level mask => Sys2Proof.Machine.execDbgCmdOpen req level mask s
  | .tokenLockoutExpiry => Sys2Proof.Machine.execTokenLockoutExpiry s
  | .jtagInstruction cls ir acc => Sys2Proof.Machine.execJtagInstruction cls ir acc s
  | .traceEnable req clu value => Sys2Proof.Machine.execTraceEnable req clu value s
  | .fabKeySet session part slot key => Sys2Proof.Machine.execFabKeySet session part slot key s
  | .fabKeyDelete session part slot => Sys2Proof.Machine.execFabKeyDelete session part slot s
  | .fabKeyTx session part slot => Sys2Proof.Machine.execFabKeyTx session part slot s
  | .fabEnc session part on => Sys2Proof.Machine.execFabEnc session part on s
  | .spdmGetVersion => Sys2Proof.Machine.execSpdmGetVersion s
  | .spdmGetCapabilities => Sys2Proof.Machine.execSpdmGetCapabilities s
  | .spdmNegotiateAlgorithms offered => Sys2Proof.Machine.execSpdmNegotiateAlgorithms offered s
  | .spdmGetDigests => Sys2Proof.Machine.execSpdmGetDigests s
  | .spdmGetCertificate slot offset len => Sys2Proof.Machine.execSpdmGetCertificate slot offset len s
  | .spdmChallenge slot nonce => Sys2Proof.Machine.execSpdmChallenge slot nonce s
  | .spdmGetMeasurements index nonce => Sys2Proof.Machine.execSpdmGetMeasurements index nonce s
  | .spdmKeyExchange data => Sys2Proof.Machine.execSpdmKeyExchange data s
  | .spdmFinish session ok => Sys2Proof.Machine.execSpdmFinish session ok s
  | .spdmHeartbeat session => Sys2Proof.Machine.execSpdmHeartbeat session s
  | .spdmKeyUpdate session => Sys2Proof.Machine.execSpdmKeyUpdate session s
  | .spdmEndSession session => Sys2Proof.Machine.execSpdmEndSession session s
  | .spdmVendorDefinedRequest session msg part slot on key => Sys2Proof.Machine.execSpdmVendorDefinedRequest session msg part slot on key s
  | .hangEvent core slot => Sys2Proof.Machine.execHangEvent core slot s
  | .saveTimeout core slot => Sys2Proof.Machine.execSaveTimeout core slot s
  | .contextReset core slot group => Sys2Proof.Machine.execContextReset core slot group s
  | .ctxResetTimeout core slot engines => Sys2Proof.Machine.execCtxResetTimeout core slot engines s
  | .engineReset core engine => Sys2Proof.Machine.execEngineReset core engine s
  | .engResetTimeout core engine => Sys2Proof.Machine.execEngResetTimeout core engine s
  | .partitionReset part => Sys2Proof.Machine.execPartitionReset part s
  | .partitionResetComplete part healthy => Sys2Proof.Machine.execPartitionResetComplete part healthy s
  | .partResetTimeout part => Sys2Proof.Machine.execPartResetTimeout part s
  | .chipReset => Sys2Proof.Machine.execChipReset s
  | .splitChangeRequest => Sys2Proof.Machine.execSplitChangeRequest s
  | .sideDoorTimeout pageAddr burst => Sys2Proof.Machine.execSideDoorTimeout pageAddr burst s
  | .dumpCollectionEnd reached => Sys2Proof.Machine.execDumpCollectionEnd reached s
  | .dumpTake req hng => Sys2Proof.Machine.execDumpTake req hng s
  | .dumpRelease req hng => Sys2Proof.Machine.execDumpRelease req hng s
  | .dumpDataRead req => Sys2Proof.Machine.execDumpDataRead req s
  | .pwrStateCmdA0 req => Sys2Proof.Machine.execPwrStateCmdA0 req s
  | .pwrStateCmdA2 req => Sys2Proof.Machine.execPwrStateCmdA2 req s
  | .pwrStateCmdA3 req => Sys2Proof.Machine.execPwrStateCmdA3 req s
  | .a1IdleEntry => Sys2Proof.Machine.execA1IdleEntry s
  | .a2EntryComplete => Sys2Proof.Machine.execA2EntryComplete s
  | .a2ExitComplete => Sys2Proof.Machine.execA2ExitComplete s
  | .pwrStateFail => Sys2Proof.Machine.execPwrStateFail s
  | .powerGrant core slot => Sys2Proof.Machine.execPowerGrant core slot s
  | .poolRecompute uncovered => Sys2Proof.Machine.execPoolRecompute uncovered s
  | .fastLoopTick avg10us avg1ms peak => Sys2Proof.Machine.execFastLoopTick avg10us avg1ms peak s
  | .pwrbrkAssert => Sys2Proof.Machine.execPwrbrkAssert s
  | .brakeStage2 uncovered => Sys2Proof.Machine.execBrakeStage2 uncovered s
  | .brakeRelease => Sys2Proof.Machine.execBrakeRelease s
  | .lEffRamp => Sys2Proof.Machine.execLEffRamp s
  | .brakeStageRecompute => Sys2Proof.Machine.execBrakeStageRecompute s
  | .pwrLimitCfgWrite req value => Sys2Proof.Machine.execPwrLimitCfgWrite req value s
  | .vinDip us => Sys2Proof.Machine.execVinDip us s
  | .powerFailSequence vin => Sys2Proof.Machine.execPowerFailSequence vin s
  | .pwrVinOv vin => Sys2Proof.Machine.execPwrVinOv vin s
  | .pwrVauxLost => Sys2Proof.Machine.execPwrVauxLost s
  | .vin48Return => Sys2Proof.Machine.execVin48Return s
  | .vaux12Removed => Sys2Proof.Machine.execVaux12Removed s
  | .thermalSample reads input => Sys2Proof.Machine.execThermalSample reads input s
  | .thermalStepTimer site => Sys2Proof.Machine.execThermalStepTimer site s
  | .hbmTempRead stack temp => Sys2Proof.Machine.execHbmTempRead stack temp s
  | .coolingEventRepeat input => Sys2Proof.Machine.execCoolingEventRepeat input s
  | .hbmRefresh stack pc ca => Sys2Proof.Machine.execHbmRefresh stack pc ca s
  | .patrolScrubRead hbm unit sub ecc => Sys2Proof.Machine.execPatrolScrubRead hbm unit sub ecc s
  | .zeroiseComplete unit => Sys2Proof.Machine.execZeroiseComplete unit s
  | .brgFlitCrcFail bridge dir grp lane => Sys2Proof.Machine.execBrgFlitCrcFail bridge dir grp lane s
  | .brgLaneSpared bridge dir grp lane => Sys2Proof.Machine.execBrgLaneSpared bridge dir grp lane s
  | .brgRetired bridge dir grp => Sys2Proof.Machine.execBrgRetired bridge dir grp s
  | .controllerSelftestDone ctrl pass => Sys2Proof.Machine.execControllerSelftestDone ctrl pass s
  | .heartbeatSlot ctrl wire mailbox => Sys2Proof.Machine.execHeartbeatSlot ctrl wire mailbox s
  | .tokenRequest ctrl refreshed => Sys2Proof.Machine.execTokenRequest ctrl refreshed s
  | .failover => Sys2Proof.Machine.execFailover s
  | .takeback => Sys2Proof.Machine.execTakeback s
  | .bothDownTimeout => Sys2Proof.Machine.execBothDownTimeout s
  | .i3cEntdaa bus addr => Sys2Proof.Machine.execI3cEntdaa bus addr s
  | .mctpSetEndpointId bus eid => Sys2Proof.Machine.execMctpSetEndpointId bus eid s
  | .mctpGetEndpointId bus => Sys2Proof.Machine.execMctpGetEndpointId bus s
  | .mctpGetVersionSupport bus type => Sys2Proof.Machine.execMctpGetVersionSupport bus type s
  | .mctpGetMessageTypeSupport bus => Sys2Proof.Machine.execMctpGetMessageTypeSupport bus s
  | .mctpGetVendorMessageSupport bus sel => Sys2Proof.Machine.execMctpGetVendorMessageSupport bus sel s
  | .pldmGetTid bus => Sys2Proof.Machine.execPldmGetTid bus s
  | .pldmSetTid bus tid => Sys2Proof.Machine.execPldmSetTid bus tid s
  | .pldmGetPldmVersion bus type => Sys2Proof.Machine.execPldmGetPldmVersion bus type s
  | .pldmGetPldmTypes bus => Sys2Proof.Machine.execPldmGetPldmTypes bus s
  | .pldmGetPldmCommands bus type => Sys2Proof.Machine.execPldmGetPldmCommands bus type s
  | .pldmSetEventReceiver bus eid => Sys2Proof.Machine.execPldmSetEventReceiver bus eid s
  | .pldmPollForEvent bus ack => Sys2Proof.Machine.execPldmPollForEvent bus ack s
  | .pldmGetSensorReading bus id => Sys2Proof.Machine.execPldmGetSensorReading bus id s
  | .pldmGetStateSensorReadings bus id => Sys2Proof.Machine.execPldmGetStateSensorReadings bus id s
  | .pldmGetPdr bus handle => Sys2Proof.Machine.execPldmGetPdr bus handle s
  | .pldmGetPdrRepositoryInfo bus => Sys2Proof.Machine.execPldmGetPdrRepositoryInfo bus s
  | .effecterPowerState bus target => Sys2Proof.Machine.execEffecterPowerState bus target s
  | .effecterChipReset bus => Sys2Proof.Machine.execEffecterChipReset bus s
  | .effecterConfirm bus ok => Sys2Proof.Machine.execEffecterConfirm bus ok s
  | .eventSend => Sys2Proof.Machine.execEventSend s
  | .eventAnswer => Sys2Proof.Machine.execEventAnswer s
  | .eventRetryTimeout => Sys2Proof.Machine.execEventRetryTimeout s
  | .pldmRequestUpdate bus => Sys2Proof.Machine.execPldmRequestUpdate bus s
  | .pldmPassComponentTable bus cls id => Sys2Proof.Machine.execPldmPassComponentTable bus cls id s
  | .pldmUpdateComponent bus size => Sys2Proof.Machine.execPldmUpdateComponent bus size s
  | .firmwareDataReceived bus data => Sys2Proof.Machine.execFirmwareDataReceived bus data s
  | .pldmActivateFirmware bus => Sys2Proof.Machine.execPldmActivateFirmware bus s
  | .pldmGetStatus bus => Sys2Proof.Machine.execPldmGetStatus bus s
  | .pldmCancelUpdate bus => Sys2Proof.Machine.execPldmCancelUpdate bus s
  | .carStatus bus => Sys2Proof.Machine.execCarStatus bus s
  | .mctpDumpRead bus off => Sys2Proof.Machine.execMctpDumpRead bus off s
  | .configRead bus => Sys2Proof.Machine.execConfigRead bus s
  | .configWrite bus data => Sys2Proof.Machine.execConfigWrite bus data s
  | .telemetry bus => Sys2Proof.Machine.execTelemetry bus s
  | .telemetrySample vin vaux => Sys2Proof.Machine.execTelemetrySample vin vaux s
  | .perstDeassert => Sys2Proof.Machine.execPerstDeassert s
  | .pcieLinkUp width gen flit => Sys2Proof.Machine.execPcieLinkUp width gen flit s
  | .queueEnable req clu queue value => Sys2Proof.Machine.execQueueEnable req clu queue value s
  | .refreshManagementRequest stack pc => Sys2Proof.Machine.execRefreshManagementRequest stack pc s

end Sys2Proof.Machine
end

