-- ==== Sys2Proof/Safety.lean ====
section
/-!
DEFINITION. The terms of the claims: a command that completes, states that differ in their registers alone, and the
invariant of the machine.
-/
namespace Sys2Proof

open Machine

/-- The command runs in the state, and what it leaves has the property. -/
def Completes (c : Instr) (s : State) (P : State → Prop) : Prop := ∃ t, exec c s = .next t ∧ P t

/-- `t` is `s` but for its stored registers. -/
def OnlyRegs (s t : State) : Prop := t = { s with regs := t.regs }

/-- The stored registers outside a list of addresses are the same. -/
def RegsKept (s t : State) (l : List Nat) : Prop := ∀ a, a ∉ l → regGet t a = regGet s a

/-- `t` is `s` but for what has been sent out. -/
def OnlyOut (s t : State) : Prop := t = { s with out := t.out }

/-- The last thing sent out. -/
def Sent (t : State) (o : Out) : Prop := t.out.getLast? = some o

/-- The invariant of the machine: memory in its canonical form, the sparse maps of poison marks, registers, cores and
clusters with rising keys, and one of the four splits of R26. -/
structure Inv (s : State) : Prop where
  mem : Memory.wf s.mem = true
  poison : keysRising s.poison = true
  regs : keysRising s.regs = true
  cores : keysRising s.cores = true
  clusters : keysRising s.clusters = true
  split : s.split ≤ 3

end Sys2Proof
end

