-- ==== Sys2Proof/Certificates/Slice0/Obligations.lean ====
section
/-!
DEFINITION. The statements for the provers: what each command of the opcode table does, what it leaves, and what every step
keeps.
-/
open Sys2Proof hiding core
open Sys2Proof.Machine

/-- A register access that a page takes: the address falls in the page of an instance, the page is open to the requester, the
package is not in A2 or A3 where these hide the page, and the unit is not retired (R53, R60, R494). -/
structure Sys2Proof.Machine.PageTakes (s : State) (req : Req) (a : Nat) (b : Block) (i : Nat) : Prop where
  inst : i < blockCount b
  notDir : b ≠ .dir
  addr : a / 0x1000 * 0x1000 = page b i
  inTime : answered s req = true
  isOpen : pageOpen s req (page b i) = true
  lit : pageDark s b = false
  alive : statusRetired s b i = false

/-- A page that takes a write of its requester: answered, open, neither retired nor dark (R53, R54, R60, R287, R289, R494). -/
structure Sys2Proof.Machine.Serves (s : State) (req : Req) (b : Block) (i : Nat) : Prop where
  inTime : answered s req = true
  isOpen : pageOpen s req (page b i) = true
  alive : pageRetired s b i = false
  lit : pageDark s b = false

/-- How a command on a register turns away a requester whose write the page does not take: unanswered, or of a retired or dark page,
it has no effect, and on a page that is not open it is recorded as ACCESS_DENIED (R54, R60, R287, R289, R494). -/
def Sys2Proof.Machine.TurnsAway (c : Instr) (req : Req) (b : Block) (i off : Nat) : Prop :=
  ∀ s : State,
    (answered s req = false → exec c s = .next s) ∧
    (answered s req = true → pageOpen s req (page b i) = false → exec c s = .next (denied s req (page b i + off))) ∧
    (answered s req = true → pageOpen s req (page b i) = true → pageRetired s b i = true ∨ pageDark s b = true →
      exec c s = .next s)

/-! ### The step, reset and the invariant -/

/-- Reset meets the invariant, lists no memory, waits for no command, and every register reads its reset value, ERR_CTAG
0xFFFF_FFFF and ACCESS_LEVEL LEVEL 2 on every page (R51); a value that the spec does not state is the model's (log entry 2). -/
def Obligations.ResetState : Prop :=
  Inv State.reset ∧ State.reset.pending = [] ∧ State.reset.mem = [] ∧
  (∀ (b : Block) (i off : Nat), i < blockCount b → off < 0x1000 → rget State.reset b i off = regReset b i off) ∧
  (∀ (b : Block) (i : Nat), i < blockCount b → b ≠ .dir →
    rget State.reset b i 0x10 = 0 ∧ rget State.reset b i 0x20 = 0 ∧ rget State.reset b i 0x30 = 0 ∧
    rget State.reset b i 0x38 = 0xFFFFFFFF ∧ rget State.reset b i 0x44 = 0 ∧ rget State.reset b i 0x50 = 2)

/-- Every step keeps the invariant: memory stays in its canonical form, the maps of poison marks, registers, cores and
clusters keep rising keys, and the split stays one of R26. -/
def Obligations.StepKeepsInv : Prop := ∀ s t : State, Inv s → step s = .next t → Inv t

/-- The block interface: a step takes the command at the front of the queue and runs it on the state with the queue's
rest; with an empty queue one microsecond passes (log entry 1: the model's choice). No command stops the machine:
every step from every state answers a next state. -/
def Obligations.StepRunsFront : Prop :=
  ((∀ (c : Instr) (rest : List Instr) (s : State), s.pending = c :: rest → step s = exec c { s with pending := rest }) ∧
   (∀ s : State, s.pending = [] → ∃ t, step s = .next t ∧ t.us = s.us + 1 ∧ t.pending = [] ∧ t.mem = s.mem)) ∧
  (∀ s : State, ∃ t, step s = .next t)

/-! ### Bring-up (R367 to R379, R412) -/

/-- Power arrives (R367, R368, R372, R412): with VAUX12 in range both controllers run their ROMs over what a loss of
VAUX12 leaves, and a slot runs, or the package is in recovery mode; a fuse group that fails its check ends bring-up.
The ROM watchdog selects again while firmware has not reached S1; S1 is reached when firmware runs in a controller
that holds the token; 48 V is noted at S1. Each does nothing in any other state. The choices that it rests on are the
model's: log entry 29. -/
def Obligations.BootPower : Prop :=
  (∀ (s : State) (flash : Option (List (Nat × Byte))) (answers : Bool) (bad : Option Nat),
    (s.carillon.powered = true → exec (.vaux12InRange flash answers bad) s = .next s) ∧
    (s.carillon.powered = false → Completes (.vaux12InRange flash answers bad) s (fun t =>
      t.carillon.powered = true ∧ t.pending = s.pending ∧ t.mem = [] ∧ t.cores = [] ∧ t.fuses = s.fuses ∧ t.power.st = 3 ∧
      t.us = 0 ∧ 0 < t.epoch ∧
      (bad = none → t.sec.seedLocked = true ∧ t.fw.bootRec.pending = 0xFF ∧ t.fw.reachedS1 = false ∧
        (t.fw.running.isSome ↔ t.fw.recovery = false)) ∧
      (∀ g, bad = some g → bootFailed t = true ∧ t.fw.running = none ∧
        wbit (rget t .bst 0 0x20) eFuseIntegrity.bit = true ∧ wbit (rget t .bst 0 0x20) eBootStageFail.bit = true ∧
        wbit (rget t .hng 0 0x20) ePowerCycleReq.bit = true)))) ∧
  (∀ (s : State) (answers : Bool),
    ((s.fw.running.isSome && !s.fw.reachedS1) = false → exec (.romWatchdog answers) s = .next s) ∧
    (s.fw.running.isSome → s.fw.reachedS1 = false → Completes (.romWatchdog answers) s (fun t =>
      t.fw.bootRec.pending = 0xFF ∧ t.fw.reachedS1 = false ∧ (t.fw.running.isSome ↔ t.fw.recovery = false) ∧
      t.sec.seedLocked = true ∧ t.mem = s.mem ∧ t.cores = s.cores ∧ t.carillon = s.carillon))) ∧
  (∀ s : State,
    ((s.fw.running.isNone || s.carillon.token.isNone || s.fw.reachedS1 || bootFailed s) = true → exec .bootS1 s = .next s) ∧
    (s.fw.running.isSome → s.carillon.token.isSome → s.fw.reachedS1 = false → bootFailed s = false →
      Completes .bootS1 s (fun t => bootStage t = 1 ∧ t.fw.reachedS1 = true ∧ t.fw.bootRec.fails = 0 ∧ t.power.st = 3 ∧
        t.retEvents = [] ∧ t.mem = s.mem ∧ t.cores = s.cores))) ∧
  (∀ s : State,
    let may := s.carillon.powered = true ∧ s.thermal.tripped = false ∧ s.power.failed = false ∧ s.power.vauxLost = false ∧
      (s.fw.recovery || s.fw.reachedS1) = true
    (may → exec .vin48Present s = .next { s with power := { s.power with vin48 := true } }) ∧
    (¬ may → exec .vin48Present s = .next s))

/-- The stages S2 to S7 in their order (R368, R369): each begins only at the end of the one before, shows itself in
DIR_BOOT_STAGE, and does nothing from another stage. S7 begins when every port has come to rest and its sweep has
ended, or 500 ms after S6 began. A fatal failure of S2 to S6 is recorded with its cause, and the sequence goes back to
S1 the first time; the second time BOOT_FAILED is set and the package holds at S1 (R371). In another stage the command
does nothing. The choices that it rests on are the model's: log entry 29. -/
def Obligations.BootStages : Prop :=
  ((∀ (s : State) (bridges : Nat) (rows : List (Nat × Nat × Nat)),
     (s2Ready s = false → exec (.bootS2 bridges rows) s = .next s) ∧
     (s2Ready s = true → Completes (.bootS2 bridges rows) s (fun t => bootStage t = 2))) ∧
   (∀ (s : State) (f : List (Nat × Nat)) (r : List (Nat × Nat × Nat)),
     (bootStage s ≠ 2 → exec (.bootS3 f r) s = .next s) ∧
     (bootStage s = 2 → Completes (.bootS3 f r) s (fun t => bootStage t = 3 ∧ t.pprQueue = []))) ∧
   (∀ (s : State) (once twice : List Nat) (cl : List (Nat × Nat)),
     (bootStage s ≠ 3 → exec (.bootS4 once twice cl) s = .next s) ∧
     (bootStage s = 3 → Completes (.bootS4 once twice cl) s (fun t => bootStage t = 4))) ∧
   (∀ (s : State) (h : Bool),
     (bootStage s = 4 → exec (.bootS5 h) s = .next (reachStage (pealStart s none false) 5)) ∧
     (bootStage s ≠ 4 → (bootStage s ≠ 5 ∨ anyPeal s = true ∨ frozen s = true ∨ configured s = true) →
       exec (.bootS5 h) s = .next s) ∧
     (bootStage s = 5 → anyPeal s = false → frozen s = false → configured s = false →
       Completes (.bootS5 h) s (fun t => t.split = bootSplit s ∧ t.keysErased = false ∧ configured t = true ∧ t.mem = s.mem))) ∧
   (∀ s : State,
     (bootStage s ≠ 5 ∨ configured s = false → exec .bootS6 s = .next s) ∧
     (bootStage s = 5 → configured s = true →
       Completes .bootS6 s (fun t => bootStage t = 6 ∧ t.s6Us = s.us ∧ t.mem = s.mem ∧ t.cores = s.cores))) ∧
   (∀ s : State,
     let rest := (∀ i < 8, portSettled s i = true) ∨ s.s6Us + 500000 ≤ s.us
     (bootStage s ≠ 6 ∨ ¬ rest → exec .bootS7 s = .next s) ∧
     (bootStage s = 6 → rest →
       Completes .bootS7 s (fun t => bootStage t = 7 ∧ t.chipReset = none ∧ t.bootRetried = false ∧ t.epochPeers = [] ∧
         t.mem = s.mem)))) ∧
  (∀ (s : State) (cause : Nat),
     (¬ (2 ≤ bootStage s ∧ bootStage s ≤ 6) → exec (.bootStageFail cause) s = .next s) ∧
     (2 ≤ bootStage s → bootStage s ≤ 6 →
       (s.bootRetried = false → Completes (.bootStageFail cause) s (fun t =>
         wbit (rget t .bst 0 0x20) eBootStageFail.bit = true ∧ bootStage t = 1 ∧ t.bootRetried = true ∧
         bootFailed t = bootFailed s ∧ t.mem = s.mem)) ∧
       (s.bootRetried = true → Completes (.bootStageFail cause) s (fun t => bootStage t = 1 ∧ bootFailed t = true))))

/-! ### Register pages (R11, R12, R51 to R68) -/

/-- A write of a register with no behaviour of its own stores its writable bits and nothing else: SCRATCH of every page, and
every RW register of the THM, TIL, TE, VE, XE, SYN, HBM, STG and BRG pages (R11, R12, R56). -/
def Obligations.PlainRegisterWrite : Prop :=
  (∀ (s : State) (req : Req) (b : Block) (i : Nat) (v : BitVec 64), PageTakes s req (page b i + 0x18) b i →
    exec (.registerWrite req (page b i + 0x18) 4 v) s = .next (rset s b i 0x18 (v.setWidth 32))) ∧
  (∀ (s : State) (req : Req) (b : Block) (i off : Nat) (r : RegRow) (v : BitVec 64),
    b ∈ [Block.thm, .til, .te, .ve, .xe, .syn, .hbm, .stg, .brg] → 0x100 ≤ off → off < 0x1000 → off % 4 = 0 →
    regRow b off = some r → r.acc = .rw → PageTakes s req (page b i + off) b i → pageRetired s b i = false →
    exec (.registerWrite req (page b i + off) 4 v) s =
      .next (rset s b i off ((rget s b i off &&& ~~~r.mask) ||| (v.setWidth 32 &&& r.mask))))

/-- An access that a page does not open to its requester completes: a read gives 0, a write has no effect, and ACCESS_DENIED is
recorded on the PCE page with the requester and the page number (R54). A write narrower than a register has no effect and
records ACCESS_SIZE, and an aligned write of 8 bytes is two writes, the lower address first (R55). -/
def Obligations.RefusedAccess : Prop :=
  (∀ (s : State) (req : Req) (b : Block) (i off : Nat) (v : BitVec 64), i < blockCount b → b ≠ .dir → off < 0x1000 →
    answered s req = true →
    (off % 4 = 0 → writeOpen s req (page b i + off) = false →
      exec (.registerWrite req (page b i + off) 4 v) s =
        .next (recErr s eAccessDenied 0 (reqNo req) ((page b i + off) / 0x1000) noCtag)) ∧
    (off % 4 = 0 → readOpen s req (page b i + off) = false →
      exec (.rcRegisterRead req (page b i + off) 4) s =
        .next (emit (recErr s eAccessDenied 0 (reqNo req) ((page b i + off) / 0x1000) noCtag)
          (.readData req (page b i + off) 0))) ∧
    (readOpen s req ((page b i + off) / 4 * 4) = false → ∀ size ∈ [1, 2],
      exec (.rcRegisterRead req (page b i + off) size) s =
        .next (emit (recErr s eAccessDenied 0 (reqNo req) ((page b i + off) / 0x1000) noCtag)
          (.readData req (page b i + off) 0))) ∧
    (writeOpen s req (page b i + off) = true → ∀ size ∈ [1, 2],
      exec (.registerWrite req (page b i + off) size v) s =
        .next (recErr s eAccessSize 0 (reqNo req) ((page b i + off) / 0x1000) noCtag))) ∧
  (∀ (s : State) (req : Req) (a size : Nat) (v : BitVec 64), a < 0x4000000 → answered s req = true → size ∈ [1, 2] →
    (∀ b i off, pageOf a = some (b, i, off) → b = .dir) →
    exec (.registerWrite req a size v) s = .next (recErr s eAccessSize 0 (reqNo req) (a / 0x1000) noCtag)) ∧
  (∀ (s : State) (req : Req) (a : Nat) (v : BitVec 64), answered s req = true → a % 8 = 0 →
    Completes (.registerWrite req a 4 (v.setWidth 32 |>.setWidth 64)) s (fun u =>
      answered u req = true → ∃ t, exec (.registerWrite req (a + 4) 4 (v >>> 32)) u = .next t ∧
        exec (.registerWrite req a 8 v) s = .next t)) ∧
  (∀ (s : State) (req : Req) (a size : Nat) (v : BitVec 64), answered s req = false →
    exec (.registerWrite req a size v) s = .next s ∧ exec (.rcRegisterRead req a size) s = .next s)

/-- A read of an RC register sends its value to the requester and then clears it (R11): ERR_COUNT of every page. A read of
SYN_STATE_LO latches the high word of the selected sync object, and of CAR_TIME_LO that of local time (R195, R531). -/
def Obligations.RegisterReads : Prop :=
  (∀ (s : State) (req : Req) (b : Block) (i : Nat), i < blockCount b → b ≠ .dir → answered s req = true →
    pageOpen s req (page b i) = true → pageDark s b = false →
    exec (.rcRegisterRead req (page b i + 0x34) 4) s =
      .next (emit (rset s b i 0x34 0) (.readData req (page b i + 0x34) (rget s b i 0x34)))) ∧
  (∀ (s : State) (req : Req) (rd : Reader), rd.no < 1152 → answered s req = true → pageOpen s req (page .syn rd.no) = true →
    pageDark s .syn = false → pageRetired s .syn rd.no = false →
    Completes (.synStateRead req rd) s (fun t => t.mem = s.mem ∧
      (rd.ecc = .none → let w := syncWord (syncObj s rd.no (fld (rget s .syn rd.no 0x128) 11 0))
        (core t rd.no).stateHi = wd (w / 2 ^ 32) ∧ Sent t (.readData req (page .syn rd.no + 0x12C) (wd w)) ∧ t.regs = s.regs) ∧
      (rd.ecc = .corr → let w := syncWord (syncObj s rd.no (fld (rget s .syn rd.no 0x128) 11 0))
        (core t rd.no).stateHi = wd (w / 2 ^ 32) ∧ Sent t (.readData req (page .syn rd.no + 0x12C) (wd w)) ∧
        wbit (rget t .syn rd.no 0x20) eSynStateEccCorr.bit = true) ∧
      (rd.ecc = .uncorr → wbit (rget t .syn rd.no 0x20) eSynStateEccUncorr.bit = true))) ∧
  (∀ (s : State) (req : Req), answered s req = true → pageOpen s req (page .car 0) = true →
    exec (.carTimeRead req) s =
      .next (emit { s with timeHi := wd (s.us / 2 ^ 32) } (.readData req (page .car 0 + 0x118) (wd s.us))))

/-- CAPS1 and ERR_INJECT (R66): CAPS1 shows a 1 for each code of the page's chapter, and in MISSION reads 0 on SEC, DBG and BST
pages; a write with GO from the PF or the Carillon raises the code that BIT names, recorded, escalated and sent as a detected
one is, with INJECTED 1, SUBUNIT and DETAIL 0 and no CTAG; any other write, and one in reset (R60), does nothing. -/
def Obligations.InjectedErrors : Prop :=
  (∀ (s : State) (b : Block) (k : Nat), k < 32 →
    (wbit (caps1Word s b) k = true ↔ k < 30 ∧ (∃ e ∈ blockErrs b, e.bit = k) ∧
      ¬(lcState s = 1 ∧ (b = .sec ∨ b = .dbg ∨ b = .bst)))) ∧
  (∀ (s : State) (req : Req) (b : Block) (i : Nat) (v : Word) (e : ErrCode), PageTakes s req (page b i + 0x2C) b i →
    (∀ p, req ≠ .vf p) → wbit v 8 = true → pageInReset s b i = false → e ∈ blockErrs b → fld v 4 0 = e.bit →
    wbit (caps1Word s b) e.bit = true →
    Completes (.errInject req (page b i + 0x2C) v) s (fun t =>
      t = codeReset (escalateUnit (recordOn 4 s (page b i) e.bit e.event true 0 0 noCtag) e i) e i ∧
      wbit (rget t b i 0x20) e.bit = true ∧
      (wbit (rget s b i 0x24) e.bit = false → wbit (rget s b i 0x30) 31 = false →
        rget t b i 0x30 = errFirstWord e.bit (wbit (rget s b i 0x28) e.bit) true 0 0 ∧
        rget t b i 0x38 = 0xFFFFFFFF) ∧ t.mem = s.mem)) ∧
  (∀ (s : State) (req : Req) (b : Block) (i : Nat) (v : Word), PageTakes s req (page b i + 0x2C) b i →
    (∃ p, req = .vf p) ∨ wbit v 8 = false ∨ wbit (caps1Word s b) (fld v 4 0) = false ∨ pageInReset s b i = true →
    exec (.errInject req (page b i + 0x2C) v) s = .next s)

/-- CTRL (R51, R57 to R60): each bit written takes its value and QUIESCED falls with QUIESCE; without RESET_REQ nothing
but the page's CTRL and STATUS changes; ENABLE can be cleared only after QUIESCED, judged as it stood before the
write, and an early clear records CTRL_SEQUENCE; a retired unit takes no write. RESET_REQ on an engine's page requests
that engine's reset, unless a reset that covers it runs; from the host on another page it records ACCESS_DENIED, and
the Carillon's write there requests nothing. ACCESS_LEVEL is the Carillon's until LOCKED and takes no LEVEL of 3
(R51); ERR_STATUS and ERR_FIRST.VALID clear where a 1 is written (R65); INT_STATUS clears where a 1 is written, and
where that leaves an enabled bit set the page sends a new message (R67). QUIESCED shows that a quiescing block has
drained, and a block that has not after 10 ms records QUIESCE_TIMEOUT (R57, R474); neither happens to a block that is
not quiescing or is held in reset. The choices that it rests on are the model's: log entries 25 and 26. -/
def Obligations.HeaderCommands : Prop :=
  ((∀ (s : State) (req : Req) (b : Block) (i : Nat) (v : Word), PageTakes s req (page b i + 0x10) b i →
     Completes (.ctrlEnableSet req (page b i + 0x10) v) s (fun t =>
       wbit (rget t b i 0x10) 0 = true ∧ wbit (rget t b i 0x10) 1 = wbit v 1 ∧ t.mem = s.mem ∧
       (wbit v 2 = false → OnlyRegs s t ∧ RegsKept s t [page b i + 0x10, page b i + 0x14]))) ∧
   (∀ (s : State) (req : Req) (b : Block) (i : Nat) (v : Word), PageTakes s req (page b i + 0x10) b i →
     Completes (.ctrlEnableClear req (page b i + 0x10) v) s (fun t =>
       wbit (rget t b i 0x10) 1 = wbit v 1 ∧ t.mem = s.mem ∧
       (wbit (rget s b i 0x14) 1 = true ∨ wbit (rget s b i 0x10) 0 = false → wbit (rget t b i 0x10) 0 = false ∧
         (wbit v 2 = false → OnlyRegs s t ∧ RegsKept s t [page b i + 0x10, page b i + 0x14])) ∧
       (wbit (rget s b i 0x14) 1 = false → wbit (rget s b i 0x10) 0 = true →
         wbit (rget t b i 0x10) 0 = true ∧ wbit (rget t b i 0x20) 31 = true))) ∧
   (∀ (s : State) (req : Req) (b : Block) (i : Nat) (v : Word), PageTakes s req (page b i + 0x10) b i →
     let enabled (t : State) : Prop := wbit (rget t b i 0x10) 0 =
       (wbit v 0 || (wbit (rget s b i 0x10) 0 && !wbit (rget s b i 0x14) 1))
     Completes (.ctrlQuiesceSet req (page b i + 0x10) v) s (fun t =>
       wbit (rget t b i 0x10) 1 = true ∧ enabled t ∧ t.mem = s.mem ∧
       (wbit v 2 = false → wbit v 0 = true → OnlyRegs s t ∧ RegsKept s t [page b i + 0x10])) ∧
     Completes (.ctrlQuiesceClear req (page b i + 0x10) v) s (fun t =>
       wbit (rget t b i 0x10) 1 = false ∧ wbit (rget t b i 0x14) 1 = false ∧ enabled t ∧ t.mem = s.mem ∧
       (wbit v 2 = false → wbit v 0 = true → OnlyRegs s t ∧ RegsKept s t [page b i + 0x10, page b i + 0x14]))) ∧
   (∀ (s : State) (req : Req) (b : Block) (i : Nat) (v : Word), PageTakes s req (page b i + 0x10) b i →
     Completes (.ctrlResetReq req (page b i + 0x10) v) s (fun t =>
       t.mem = s.mem ∧
       (∀ e, pageEngine b = some e → wbit (rget t b i 0x10) 2 = true ∧
         (pageInReset s b i = false → bit (core t i).engReset e = true) ∧ (pageInReset s b i = true → t.cores = s.cores)) ∧
       (pageEngine b = none → t.cores = s.cores ∧ t.reqPart = s.reqPart ∧ t.reqChip = s.reqChip ∧
         (req ≠ .car → wbit (rget t .pce 0 0x20) eAccessDenied.bit = true)))) ∧
   (∀ (s : State) (req : Req) (b : Block) (i : Nat) (v : Word), i < blockCount b → b ≠ .dir → answered s req = true →
     pageOpen s req (page b i) = true → statusRetired s b i = true →
     ∀ c ∈ [Instr.ctrlEnableSet, .ctrlEnableClear, .ctrlQuiesceSet, .ctrlQuiesceClear, .ctrlResetReq],
       exec (c req (page b i + 0x10) v) s = .next s)) ∧
  ((∀ (s : State) (b : Block) (i : Nat) (v : Word), PageTakes s .car (page b i + 0x50) b i →
     wbit (rget s b i 0x50) 2 = false →
     (fld v 1 0 ≠ 3 → exec (.accessLevelWrite .car (page b i + 0x50) v) s = .next (rset s b i 0x50 (v &&& 0xF07))) ∧
     (fld v 1 0 = 3 → exec (.accessLevelWrite .car (page b i + 0x50) v) s =
       .next (rset s b i 0x50 ((v &&& 0xF04) ||| (rget s b i 0x50 &&& 3))))) ∧
   (∀ (s : State) (req : Req) (b : Block) (i : Nat) (v : Word), PageTakes s req (page b i + 0x50) b i →
     (req ≠ .car ∨ wbit (rget s b i 0x50) 2 = true) →
     exec (.accessLevelWrite req (page b i + 0x50) v) s = .next s) ∧
   (∀ (s : State) (req : Req) (b : Block) (i : Nat) (v : Word), PageTakes s req (page b i + 0x20) b i →
     exec (.errStatusClear req (page b i + 0x20) v) s = .next (rset s b i 0x20 (rget s b i 0x20 &&& ~~~v))) ∧
   (∀ (s : State) (req : Req) (b : Block) (i : Nat) (v : Word), PageTakes s req (page b i + 0x30) b i →
     (wbit v 31 = true → exec (.errFirstValidClear req (page b i + 0x30) v) s =
       .next (rset s b i 0x30 (setBit (rget s b i 0x30) 31 false))) ∧
     (wbit v 31 = false → exec (.errFirstValidClear req (page b i + 0x30) v) s = .next s)) ∧
   (∀ (s : State) (req : Req) (b : Block) (i : Nat) (v : Word), PageTakes s req (page b i + 0x40) b i →
     let m := v &&& 0xFFFFFFFE
     let u := rset s b i 0x40 (rget s b i 0x40 &&& ~~~m)
     ((rget s b i 0x40 &&& m) = 0 ∨ intStatus s (page b i) &&& ~~~m &&& rget s b i 0x44 = 0 →
       exec (.intStatusClear req (page b i + 0x40) v) s = .next u) ∧
     ((rget s b i 0x40 &&& m) ≠ 0 → intStatus s (page b i) &&& ~~~m &&& rget s b i 0x44 ≠ 0 →
       exec (.intStatusClear req (page b i + 0x40) v) s = .next (sendInt u (page b i)) ∧
       (fld (rget s b i 0x48) 13 12 = 2 → Sent (sendInt u (page b i)) (.carillonInt (page b i))) ∧
       (fld (rget s b i 0x48) 13 12 = 0 → msixOk u 0 (fld (rget s b i 0x48) 10 0) = true →
         sendInt u (page b i) = msixSend u 0 (fld (rget s b i 0x48) 10 0))))) ∧
  (∀ (s : State) (b : Block) (i : Nat), i < blockCount b →
     let asked := wbit (rget s b i 0x10) 1 = true ∧ pageInReset s b i = false
     (asked → blockIdle s b i = true →
       exec (.quiescedReached (page b i)) s = .next (rset s b i 0x14 (setBit (rget s b i 0x14) 1 true))) ∧
     (¬ (asked ∧ blockIdle s b i = true) → exec (.quiescedReached (page b i)) s = .next s) ∧
     (asked → wbit (rget s b i 0x14) 1 = false →
       Completes (.quiesceTimeout (page b i)) s (fun t => wbit (rget t b i 0x20) 30 = true ∧ t.mem = s.mem ∧
         t.cores = s.cores)) ∧
     (¬ (asked ∧ wbit (rget s b i 0x14) 1 = false) → exec (.quiesceTimeout (page b i)) s = .next s))

/-- Recording a detected error (R62): its ERR_STATUS bit is set whatever ERR_MASK holds; an unmasked error with ERR_FIRST.VALID
0 writes ERR_FIRST and ERR_CTAG and sets VALID; with VALID 1 both stay and ERR_COUNT goes up by one, and at 0xFFFF sets
OVERFLOW; a masked error leaves all three. An error that another block's record of it brings (a full event queue, a message
without a way) counts for itself, so the counts of CAR and PCE are stated where the first brings none. -/
def Obligations.ErrorsRecorded : Prop :=
  ∀ (s : State) (e : ErrCode) (i sub det : Nat) (ctag : Word), e.bit < 32 → i < blockCount e.blk →
    wbit (rget (recErr s e i sub det ctag) e.blk i 0x20) e.bit = true ∧
    (wbit (rget s e.blk i 0x24) e.bit = true → ∀ off ∈ [0x30, 0x34, 0x38],
      rget (recErr s e i sub det ctag) e.blk i off = rget s e.blk i off) ∧
    (wbit (rget s e.blk i 0x24) e.bit = false →
      (wbit (rget s e.blk i 0x30) 31 = false →
        rget (recErr s e i sub det ctag) e.blk i 0x30 =
          errFirstWord e.bit (wbit (rget s e.blk i 0x28) e.bit) false sub det ∧
        wbit (rget (recErr s e i sub det ctag) e.blk i 0x30) 31 = true ∧
        rget (recErr s e i sub det ctag) e.blk i 0x38 = ctag) ∧
      (wbit (rget s e.blk i 0x30) 31 = true →
        rget (recErr s e i sub det ctag) e.blk i 0x30 = rget s e.blk i 0x30 ∧
        rget (recErr s e i sub det ctag) e.blk i 0x38 = rget s e.blk i 0x38 ∧
        ((e.blk ≠ .car ∧ e.blk ≠ .pce) ∨ (s.evq.length < 64 ∧ wbit (rget s e.blk i 0x44) 0 = false) →
          (fld (rget s e.blk i 0x34) 15 0 < 0xFFFF →
            fld (rget (recErr s e i sub det ctag) e.blk i 0x34) 15 0 = fld (rget s e.blk i 0x34) 15 0 + 1) ∧
          (fld (rget s e.blk i 0x34) 15 0 = 0xFFFF →
            fld (rget (recErr s e i sub det ctag) e.blk i 0x34) 15 0 = 0xFFFF ∧
            wbit (rget (recErr s e i sub det ctag) e.blk i 0x34) 31 = true))))

/-! ### The Sequencer: slots, images, steps (R74 to R84, R97, R98, R139 to R151, R464) -/

/-- An SQ that hears a command: its page is open, it is neither retired, dark nor in reset, no command is in progress and no ring
waits for it (R53, R80). -/
structure Sys2Proof.Machine.SqHears (s : State) (req : Req) (n : Nat) : Prop where
  core : n < 1152
  inTime : answered s req = true
  isOpen : pageOpen s req (page .sq n) = true
  lit : pageDark s .sq = false
  alive : pageRetired s .sq n = false
  running : pageInReset s .sq n = false
  idle : (Machine.core s n).busy = false
  own : (Machine.core s n).ringCmd = none

/-- An SQ that takes a command for a slot: it hears it, no alarm at FREEZE holds (R438) and the slot's context is not being ended
(R463). -/
structure Sys2Proof.Machine.SqTakes (s : State) (req : Req) (n k : Nat) : Prop where
  hears : SqHears s req n
  slot : k < 16
  thawed : frozen s = false
  kept : (Machine.slot s n k).ending = none

/-- SQ_CMD_RESULT after a command of a slot (R100). -/
def Sys2Proof.Machine.ResultIs (t : State) (n k res : Nat) : Prop := rget t .sq n 0x10C = packFields [(4, res), (8, k)]

/-- SQ_CMD_RESULT while a command of a slot is in progress (R100). -/
def Sys2Proof.Machine.BusyIs (t : State) (n k : Nat) : Prop :=
  (Machine.core t n).busy = true ∧ rget t .sq n 0x10C = packFields [(0, 1), (8, k)]

/-- Every slot but one is as it was. -/
def Sys2Proof.Machine.OtherSlots (s t : State) (n k : Nat) : Prop := ∀ m j, (m, j) ≠ (n, k) → slot t m j = slot s m j

/-- No slot and no byte of memory has changed. -/
def Sys2Proof.Machine.SlotsKept (s t : State) : Prop := (∀ m j, slot t m j = slot s m j) ∧ t.mem = s.mem

/-- PREEMPT, RESUME, HALT, UNHALT and STEP (R79, R80) change the state of their slot alone, with the result OK; a rudiment
whose last step has completed on every engine is DONE as its slot becomes ACTIVE (R79, R148); an unassigned OP gives
INVALID. Commands that change no slot: while BUSY one is ignored and records SQ_CMD_OVERLAP (R80); a retired SQ and
one in reset take none; under FREEZE each answers DENIED (R438); one for a context that is being ended waits (R463);
and each answers as R80 says in a state that does not permit it (log entry 9: HALT and STEP in a state of which R80
says nothing). The choices that it rests on are the model's: log entry 9. -/
def Obligations.SqCommands : Prop :=
  ((∀ (s : State) (req : Req) (n k : Nat), SqTakes s req n k →
     (slot s n k).st = .active ∨ (slot s n k).st = .waiting ∨ (slot s n k).st = .faulted →
     Completes (.sqPreempt req n k) s (fun t =>
       (slot t n k).st = .preempting ∧ (slot t n k).preemptUs = s.us ∧ ResultIs t n k resOk ∧ OtherSlots s t n k)) ∧
   (∀ (s : State) (req : Req) (n k : Nat), SqTakes s req n k → (slot s n k).st = .faulted →
     Completes (.sqResume req n k) s (fun t =>
       ((slot s n k).haltPending = true → (slot t n k).st = .halted) ∧
       ((slot s n k).haltPending = false →
         (slot t n k).st = .active ∨ (slot t n k).st = .waiting ∨
         ((slot s n k).loaded = true ∧ (slot s n k).pos = hdStepCount (slot s n k) ∧ (slot s n k).inflight = [] ∧
           (slot t n k).st = .free ∧ (slot t n k).outcome = 1)) ∧
       ResultIs t n k resOk ∧ OtherSlots s t n k)) ∧
   (∀ (s : State) (req : Req) (n k : Nat), SqTakes s req n k → 2 ≤ debugLevel s (partOfCore s n) →
     s.power.moving = none → (slot s n k).st = .active ∨ (slot s n k).st = .waiting →
     Completes (.sqHalt req n k) s (fun t =>
       (slot t n k).st = .halted ∧ (slot t n k).prior = (slot s n k).st ∧ ResultIs t n k resOk ∧
       OtherSlots s t n k)) ∧
   (∀ (s : State) (req : Req) (n k : Nat), SqTakes s req n k → (slot s n k).st = .halted →
     (slot s n k).prior = .active ∨ (slot s n k).prior = .waiting →
     Completes (.sqUnhalt req n k) s (fun t =>
       ((slot t n k).st = .active ∨ (slot t n k).st = .waiting ∨
         ((slot s n k).loaded = true ∧ (slot s n k).pos = hdStepCount (slot s n k) ∧ (slot s n k).inflight = [] ∧
           (slot t n k).st = .free ∧ (slot t n k).outcome = 1)) ∧
       ResultIs t n k resOk ∧ OtherSlots s t n k)) ∧
   (∀ (s : State) (req : Req) (n k : Nat), SqTakes s req n k → 2 ≤ debugLevel s (partOfCore s n) →
     (slot s n k).st = .halted → stepLeft (slot s n k) = true →
     Completes (.sqStep req n k) s (fun t =>
       (slot t n k).stepOnce = true ∧ (slot t n k).stepOrd = none ∧ (slot t n k).st = .halted ∧ ResultIs t n k resOk ∧
       OtherSlots s t n k ∧ t.mem = s.mem)) ∧
   (∀ (s : State) (req : Req) (n k op : Nat), SqTakes s req n k → op % 16 = 0 ∨ 6 < op % 16 →
     Completes (.sqCmdInvalid req n k op) s (fun t => ResultIs t n k resInvalid ∧ SlotsKept s t))) ∧
  ((∀ (s : State) (req : Req) (n k : Nat), n < 1152 → answered s req = true → pageOpen s req (page .sq n) = true →
     ∀ c ∈ [Instr.sqInstall, .sqPreempt, .sqResume, .sqHalt, .sqUnhalt, .sqStep],
     (pageRetired s .sq n = true ∨ pageDark s .sq = true ∨ pageInReset s .sq n = true → exec (c req n k) s = .next s) ∧
     (pageDark s .sq = false → pageRetired s .sq n = false → pageInReset s .sq n = false → (core s n).busy = true →
       exec (c req n k) s = .next (recErr s eSqCmdOverlap n k 0 (slot s n k).ctag)) ∧
     (SqHears s req n → k < 16 → frozen s = true →
       Completes (c req n k) s (fun t => ResultIs t n k resDenied ∧ SlotsKept s t)) ∧
     (SqHears s req n → k < 16 → frozen s = false → (slot s n k).ending.isSome →
       Completes (c req n k) s (fun t => (core t n).heldCmd.isSome ∧ BusyIs t n k ∧ SlotsKept s t))) ∧
   (∀ (s : State) (req : Req) (n k : Nat), SqTakes s req n k →
     ((slot s n k).st = .free → ∀ c ∈ [Instr.sqPreempt, .sqUnhalt],
       Completes (c req n k) s (fun t => ResultIs t n k resNoTask ∧ SlotsKept s t)) ∧
     ((slot s n k).st = .preempting ∨ (slot s n k).st = .halted →
       Completes (.sqPreempt req n k) s (fun t => ResultIs t n k resOk ∧ SlotsKept s t)) ∧
     ((slot s n k).st ≠ .faulted →
       Completes (.sqResume req n k) s (fun t => ResultIs t n k resNotFaulted ∧ SlotsKept s t)) ∧
     ((slot s n k).st ≠ .free → (slot s n k).st ≠ .halted →
       Completes (.sqUnhalt req n k) s (fun t => ResultIs t n k resOk ∧ SlotsKept s t)) ∧
     (debugLevel s (partOfCore s n) < 2 → ∀ c ∈ [Instr.sqHalt, .sqStep],
       Completes (c req n k) s (fun t => ResultIs t n k resDenied ∧ SlotsKept s t)) ∧
     (s.power.moving.isSome → Completes (.sqHalt req n k) s (fun t => ResultIs t n k resDenied ∧ SlotsKept s t)) ∧
     (2 ≤ debugLevel s (partOfCore s n) → s.power.moving = none → (slot s n k).st = .free → ∀ c ∈ [Instr.sqHalt, .sqStep],
       Completes (c req n k) s (fun t => ResultIs t n k resNoTask ∧ SlotsKept s t)) ∧
     (2 ≤ debugLevel s (partOfCore s n) → s.power.moving = none →
       (slot s n k).st = .faulted ∨ (slot s n k).st = .preempting ∨ (slot s n k).st = .halted →
       Completes (.sqHalt req n k) s (fun t => ResultIs t n k resOk ∧ SlotsKept s t)) ∧
     (2 ≤ debugLevel s (partOfCore s n) → (slot s n k).st ≠ .free →
       (slot s n k).st ≠ .halted ∨ stepLeft (slot s n k) = false →
       Completes (.sqStep req n k) s (fun t => ResultIs t n k resOk ∧ SlotsKept s t))))

/-- INSTALL (R77, R78), at once or after the last orphan has cleared (R464): the slot becomes ACTIVE with the next
generation, the CTAG of R74 and its units, and the result is OK; with RESTORE = 1 it is in progress, the slot still
FREE, until the save image has been read (R98); an INSTALL that fails changes no slot and reports its condition; no
other slot changes. The load of a rudiment (R144, R145, R154): the first check that fails ends the context with
SQ_STEP_INVALID and the check's DETAIL, in the order of R144; with every check passed the slot is loaded, and a
restored context takes its steps up again (R166). A step read by the prefetch stands in the step buffer (R82). A read
that faults or meets poison leaves what the read left. -/
def Obligations.SqInstalls : Prop :=
  ((∀ (s : State) (req : Req) (n k : Nat), SqTakes s req n k →
     (core s n).orphans.any (fun o => o.slot = k) = false → installCheck s n k = resOk →
     (wbit (slotReg s n k 0x408) 21 = false → Completes (.sqInstall req n k) s (fun t =>
       (slot t n k).st = .active ∧ (slot t n k).gen = nextGen (slot s n k).gen ∧
       (slot t n k).ctag = mkCtag n k (nextGen (slot s n k).gen) ∧ (slot t n k).part = partOfCore s n ∧
       (slot t n k).strands = (freeUnits 64 (usedUnits s n (·.strands))).take (fld (slotReg s n k 0x418) 6 0) ∧
       (slot t n k).beatSq = 0 ∧ (slot t n k).beatTe = 0 ∧ (slot t n k).beatVe = 0 ∧ (slot t n k).beatXe = 0 ∧
       ResultIs t n k resOk ∧ OtherSlots s t n k)) ∧
     (wbit (slotReg s n k 0x408) 21 = true → Completes (.sqInstall req n k) s (fun t =>
       (slot t n k).st = .free ∧ (slot t n k).restoring = true ∧ (slot t n k).gen = nextGen (slot s n k).gen ∧
       BusyIs t n k ∧ OtherSlots s t n k))) ∧
   (∀ (s : State) (req : Req) (n k : Nat), SqTakes s req n k →
     (core s n).orphans.any (fun o => o.slot = k) = false → installCheck s n k ≠ resOk →
     Completes (.sqInstall req n k) s (fun t => ResultIs t n k (installCheck s n k) ∧ SlotsKept s t)) ∧
   (∀ (s : State) (req : Req) (n k : Nat), SqTakes s req n k → (core s n).orphans.any (fun o => o.slot = k) = true →
     Completes (.sqInstall req n k) s (fun t =>
       (core t n).deferred = some k ∧ BusyIs t n k ∧ OtherSlots s t n k ∧ (slot t n k).st = (slot s n k).st ∧
       t.mem = s.mem)) ∧
   (∀ (s : State) (n k : Nat), n < 1152 → k < 16 → (core s n).deferred = some k → (core s n).ringCmd = none →
     (core s n).orphans.any (fun o => o.slot = k) = false →
     (installCheck s n k = resOk → wbit (slotReg s n k 0x408) 21 = false → Completes (.deferredInstall n) s (fun t =>
       (slot t n k).st = .active ∧ (slot t n k).gen = nextGen (slot s n k).gen ∧ (core t n).deferred = none ∧
       ResultIs t n k resOk ∧ OtherSlots s t n k)) ∧
     (installCheck s n k = resOk → wbit (slotReg s n k 0x408) 21 = true → Completes (.deferredInstall n) s (fun t =>
       (slot t n k).restoring = true ∧ (core t n).deferred = none ∧ OtherSlots s t n k)) ∧
     (installCheck s n k ≠ resOk → Completes (.deferredInstall n) s (fun t =>
       (core t n).deferred = none ∧ ResultIs t n k (installCheck s n k) ∧ SlotsKept s t))) ∧
   (∀ (s : State) (n : Nat), (∀ k, (core s n).deferred = some k → (core s n).orphans.any (fun o => o.slot = k) = true) →
     exec (.deferredInstall n) s = .next s)) ∧
  ((∀ (s : State) (n : Nat) (rd : Reader), (slot s n rd.no).loaded = true → exec (.rudimentLoadCheck n rd) s = .next s) ∧
   (∀ (s s1 : State) (n : Nat) (rd : Reader), (slot s n rd.no).loaded = false → (slot s n rd.no).ending = none →
     (slot s n rd.no).st = .active → (slot s1 n rd.no).loaded = false → imageRead s n rd.no 0 0x100 rd.ecc = (s1, none) →
     exec (.rudimentLoadCheck n rd) s = .next (refresh s1 n rd.no)) ∧
   (∀ (s s1 s2 : State) (n : Nat) (rd : Reader) (h tb : List Byte), (slot s n rd.no).loaded = false →
     (slot s n rd.no).ending = none → (slot s n rd.no).st = .active → imageRead s n rd.no 0 0x100 rd.ecc = (s1, some h) →
     imageRead s1 n rd.no 0x100 (16 * min 16 (leAt h 0x0A 2)) (imageLeft s1 n rd.no 0 0x100 rd.ecc) = (s2, some tb) →
     (slot s2 n rd.no).loaded = false →
     (tableCheck s2 h tb ≠ 0 →
       exec (.rudimentLoadCheck n rd) s =
         .next (refresh (errCtx s2 eSqStepInvalid n rd.no (tableCheck s2 h tb)) n rd.no)) ∧
     (tableCheck s2 h tb = 0 →
       let secs := (List.range (leAt h 0x0A 2)).map (fun i => let x := secEntry tb i; (x.1, x.2.2.1, x.2.2.2.1, x.2.2.2.2))
       let u := loadRest (modSlot s2 n rd.no (fun sl => { sl with hdr := h, secs := secs })) n rd.no h
         (imageLeft s2 n rd.no 0x100 (16 * min 16 (leAt h 0x0A 2)) (imageLeft s1 n rd.no 0 0x100 rd.ecc))
       ((slot u n rd.no).loaded = false ∨ (slot u n rd.no).restored = false →
         exec (.rudimentLoadCheck n rd) s = .next (refresh u n rd.no)) ∧
       (∀ w, (slot u n rd.no).loaded = true → (slot u n rd.no).restored = true → restoreSteps u n rd.no = (w, true) →
         exec (.rudimentLoadCheck n rd) s =
           .next (checkDone (modSlot w n rd.no (fun sl => { sl with restored := false })) n rd.no)))) ∧
   (∀ (s s1 s2 s3 : State) (n k : Nat) (h rb ib : List Byte) (ecc : Ecc),
     let sl := slot s n k
     let roll := leAt h 0x24 4
     let rlen := if roll = 0 then 0 else 16
     let left := imageLeft s1 n k (secOff sl 8) rlen ecc
     imageRead s n k (secOff sl 8) rlen ecc = (s1, some rb) →
     (roll ≠ 0 → (section_ sl 8).2.2 = 16 + popcount16 (leAt rb 4 2) * leAt rb 6 1 * 512) →
     presenceCheck s1 n k left = (s2, some true) →
     (requestCheck s2 n k h rb (loadedSet s2 (partOfCore s2 n)) ≠ 0 →
       loadRest s n k h ecc = errCtx s2 eSqStepInvalid n k (requestCheck s2 n k h rb (loadedSet s2 (partOfCore s2 n)))) ∧
     (requestCheck s2 n k h rb (loadedSet s2 (partOfCore s2 n)) = 0 →
       imageRead s2 n k (secOff sl 7) (8 * secCount sl 7) (eccAfter left (presenceReads sl)) = (s3, some ib) →
       (syncInitOk (64 * (slot s3 n k).blocks.length) ib (secCount (slot s3 n k) 7) = false →
         loadRest s n k h ecc = errCtx s3 eSqStepInvalid n k 0x400B) ∧
       (syncInitOk (64 * (slot s3 n k).blocks.length) ib (secCount (slot s3 n k) 7) = true →
         (slot (loadRest s n k h ecc) n k).loaded = true ∧ OtherSlots s3 (loadRest s n k h ecc) n k))) ∧
   (∀ (s s1 s2 s3 : State) (n : Nat) (rd : Reader) (r w g : List Byte), running s n rd.no = true →
     (slot s n rd.no).loaded = true → prefetchIndex (slot s n rd.no) < hdStepCount (slot s n rd.no) →
     bufStep (slot s n rd.no) (prefetchIndex (slot s n rd.no)) = none →
     imageRead s n rd.no (secOff (slot s n rd.no) 1 + 64 * prefetchIndex (slot s n rd.no)) 64 rd.ecc = (s1, some r) →
     progRead s1 n rd.no (stWaitFirst r) (stWaitLen r) (eccAfter rd.ecc 1) = (s2, some w) →
     progRead s2 n rd.no (stSignalFirst r) (stSignalLen r)
       (progLeft s2 n rd.no (stWaitFirst r) (stWaitLen r) (eccAfter rd.ecc 1)) = (s3, some g) →
     Completes (.stepPrefetch n rd) s (fun t =>
       (prefetchIndex (slot s n rd.no), r ++ w ++ g) ∈ (slot t n rd.no).buf ∧ (slot t n rd.no).buf.length ≤ 32 ∧
       OtherSlots s3 t n rd.no)) ∧
   (∀ (s : State) (n : Nat) (rd : Reader), running s n rd.no = false ∨ (slot s n rd.no).loaded = false ∨
     hdStepCount (slot s n rd.no) ≤ prefetchIndex (slot s n rd.no) → exec (.stepPrefetch n rd) s = .next s))

/-- The issue of a step (R82, R102, R147 to R150, R496): one that fails its checks, and an uncorrectable error of the step
buffer, end the context; a step with parts first asks for its grant; a step issued takes the next issue number, joins
the steps in flight, gives back its grant and counts its SQ beat. The earliest step whose parts have all completed
leaves the steps in flight, and no other (R151). The choices that it rests on are the model's: log entry 35. -/
def Obligations.SqSteps : Prop :=
  (∀ (s : State) (n k : Nat) (ecc : Ecc), issuing s n k = false ∨ (slot s n k).loaded = false ∨
    bufStep (slot s n k) (slot s n k).pos = none → exec (.stepIssue n k ecc) s = .next s) ∧
  (∀ (s : State) (n k : Nat) (r : List Byte) (ecc : Ecc), issuing s n k = true → (slot s n k).loaded = true →
    bufStep (slot s n k) (slot s n k).pos = some r →
    (ecc = .uncorr → exec (.stepIssue n k ecc) s = .next (errCtx s eSqBufferEcc n k 0)) ∧
    (ecc ≠ .uncorr → stepTaken s n r = false → exec (.stepIssue n k ecc) s = .next s) ∧
    (ecc ≠ .uncorr → stepTaken s n r = true →
      (stepCheck s n k r = .invalid →
        exec (.stepIssue n k ecc) s = .next (errCtx s eSqStepInvalid n k (slot s n k).pos)) ∧
      (stepCheck s n k r = .range →
        exec (.stepIssue n k ecc) s = .next (errCtx s eSqSyncRange n k (slot s n k).pos)) ∧
      (stepCheck s n k r = .ok →
        (stLoopBegin r && !(slot s n k).reentry && decide (stLoopCount r = 0)) = true →
        Completes (.stepIssue n k ecc) s (fun t => (slot t n k).pos = stLoopExit r ∧
          (slot t n k).issued = (slot s n k).issued ∧ OtherSlots s t n k)) ∧
      (stepCheck s n k r = .ok →
        (stLoopBegin r && !(slot s n k).reentry && decide (stLoopCount r = 0)) = false →
        (waitProgHolds s n k r = false ∨ 4 ≤ (slot s n k).inflight.length →
          exec (.stepIssue n k ecc) s = .next (refresh s n k)) ∧
        (waitProgHolds s n k r = true → (slot s n k).inflight.length < 4 → (stHasTe r || stHasVe r || stHasXe r) = true →
          (slot s n k).granted = false →
          Completes (.stepIssue n k ecc) s (fun t => (slot t n k).grantAsked = true ∧ (slot t n k).pos = (slot s n k).pos ∧
            (slot t n k).issued = (slot s n k).issued ∧ OtherSlots s t n k ∧ t.mem = s.mem)) ∧
        (waitProgHolds s n k r = true → (slot s n k).inflight.length < 4 → (stHasTe r || stHasVe r) = true →
          stHasXe r = false → (slot s n k).granted = true →
          Completes (.stepIssue n k ecc) s (fun t =>
            (slot t n k).issued = (slot s n k).issued + 1 ∧
            (slot t n k).inflight.length = (slot s n k).inflight.length + 1 ∧ (slot t n k).granted = false ∧
            (slot t n k).beatSq = ((slot s n k).beatSq + stBeat r 0) % 2 ^ 32 ∧ OtherSlots s t n k)) ∧
        (∀ (s1 : State) (bs : List Byte), waitProgHolds s n k r = true → (slot s n k).inflight.length < 4 →
          stHasXe r = true → (slot s n k).granted = true → stXeCount r ≤ (slot s n k).streams.length →
          imageRead s n k (secOff (slot s n k) 3 + 8 * (stXeFirst r +
            stVariant s n k (pushedLoops (slot s n k) r) r * stXeStride r)) (8 * stXeCount r) ecc = (s1, some bs) →
          ((List.range (stXeCount r)).map (fun i => slice bs (8 * i) 8)).all (fun e =>
            decide (leAt e 4 2 < (slot s n k).streams.length) && leAt e 6 2 = 0 &&
            decide (leAt e 0 4 < secCount (slot s n k) 4)) = true →
          exec (.stepIssue n k ecc) s =
            .next (issueStep s1 n k r ((List.range (stXeCount r)).map (fun i => slice bs (8 * i) 8))))))) ∧
  (∀ (s : State) (n k order : Nat),
    (∀ f, nextDone (slot s n k) = some f → f.order = order → (slot s n k).ending = none →
      Completes (.stepComplete n k order) s (fun t => ∀ g ∈ (slot t n k).inflight, g.order ≠ order)) ∧
    ((∀ f, nextDone (slot s n k) = some f → f.order ≠ order ∨ (slot s n k).ending.isSome) →
      exec (.stepComplete n k order) s = .next s))

/-- Save and restore (R97, R98, R217, R261, R262): a slot whose engines have all stopped starts its save; the save's end
frees it with outcome PREEMPTED; a poisoned window ends the context, and a fault on a save write ends it with
SAVE_FAULT; a restore reads the header, then the image, and the slot becomes ACTIVE again at its saved position; a
header that does not match ends it INVALID. The choices that it rests on are the model's: log entry 11. -/
def Obligations.SqSaves : Prop :=
  (∀ (s : State) (n k : Nat),
    let may := (slot s n k).st = .preempting ∧ (slot s n k).ending = none ∧ allStopped s n k = true
    (may → exec (.saveStart n k) s = .next (modSlot s n k (fun sl => { sl with saving := true }))) ∧
    (¬ may → exec (.saveStart n k) s = .next s)) ∧
  (∀ (s s0 s1 : State) (n : Nat) (rd : Reader), (slot s n rd.no).st = .preempting → (slot s n rd.no).ending = none →
    (slot s n rd.no).saving = true →
    (∀ e, checkRead s (winDpa s n rd.no 0) (winBytes s n rd.no) rd.ecc (slot s n rd.no).ctag = (s0, some e) →
      exec (.saveComplete n rd) s = .next (endCtx s0 n rd.no 5 e 3)) ∧
    (checkRead s (winDpa s n rd.no 0) (winBytes s n rd.no) rd.ecc (slot s n rd.no).ctag = (s0, none) →
      (∀ off i, saveSections s0 n rd.no = (s1, some (off, i)) →
        exec (.saveComplete n rd) s = .next (saveFault s1 n rd.no off i)) ∧
      (saveSections s0 n rd.no = (s1, none) → ∀ s2,
        (∀ off i, writeVa 2 s1 n (slotAsid s1 n rd.no) accSaveWrite (saveVa s1 n rd.no) 0
          (saveHeader s1 n rd.no (saveOffs (slot s n rd.no) (winBytes s n rd.no)).size) (slot s n rd.no).ctag =
            (s2, some (off, i)) →
          exec (.saveComplete n rd) s = .next (saveFault s2 n rd.no off i)) ∧
        (writeVa 2 s1 n (slotAsid s1 n rd.no) accSaveWrite (saveVa s1 n rd.no) 0
          (saveHeader s1 n rd.no (saveOffs (slot s n rd.no) (winBytes s n rd.no)).size) (slot s n rd.no).ctag = (s2, none) →
          Completes (.saveComplete n rd) s (fun t =>
            (slot t n rd.no).st = .free ∧ (slot t n rd.no).outcome = 2 ∧ (slot t n rd.no).strands = [] ∧
            (slot t n rd.no).banks = [] ∧ (slot t n rd.no).blocks = [] ∧ (slot t n rd.no).streams = []))))) ∧
  (∀ (s : State) (n : Nat) (rd : Reader), (slot s n rd.no).st ≠ .preempting ∨ (slot s n rd.no).saving = false ∨
    (slot s n rd.no).ending.isSome → exec (.saveComplete n rd) s = .next s) ∧
  (∀ (s : State) (n k off : Nat) (i : FaultInfo), n < 1152 →
    ((slot s n k).st = .preempting → (slot s n k).saving = true → (slot s n k).ending = none →
      Completes (.saveFault n k off i) s (fun t =>
        (slot t n k).saving = false ∧ ((slot t n k).ending.map (·.outcome)) = some 4 ∧
        wbit (rget t .sq n 0x20) eSaveFault.bit = true)) ∧
    ((slot s n k).st ≠ .preempting ∨ (slot s n k).saving = false ∨ (slot s n k).ending.isSome →
      exec (.saveFault n k off i) s = .next s)) ∧
  (∀ (s s1 : State) (n : Nat) (rd : Reader),
    ((slot s n rd.no).restoring = false →
      exec (.restoreHeaderRead n rd) s = .next s ∧ exec (.restoreComplete n rd) s = .next s) ∧
    ((slot s n rd.no).restoring = true → saveRead s n rd.no 0 256 rd.ecc = (s1, none) →
      exec (.restoreHeaderRead n rd) s = .next s1 ∧ exec (.restoreComplete n rd) s = .next s1) ∧
    (∀ h, (slot s n rd.no).restoring = true → saveRead s n rd.no 0 256 rd.ecc = (s1, some h) →
      (saveHeaderOk s1 n rd.no h = true → exec (.restoreHeaderRead n rd) s =
        .next (modSlot s1 n rd.no (fun sl => { sl with rud := leAt h 0x18 8 % 2 ^ 48 }))) ∧
      (saveHeaderOk s1 n rd.no h = false →
        exec (.restoreHeaderRead n rd) s = .next (restoreFail s1 n rd.no) ∧
        exec (.restoreComplete n rd) s = .next (restoreFail s1 n rd.no)))) ∧
  (∀ (s s1 s2 : State) (n : Nat) (rd : Reader) (h b : List Byte), (slot s n rd.no).restoring = true →
    saveRead s n rd.no 0 256 rd.ecc = (s1, some h) → saveHeaderOk s1 n rd.no h = true →
    saveRead s1 n rd.no 256 ((saveOffs (slot s n rd.no) (winBytes s n rd.no)).size - 256) (eccAfter rd.ecc 4) =
      (s2, some b) →
    Completes (.restoreComplete n rd) s (fun t =>
      (slot t n rd.no).restoring = false ∧ (slot t n rd.no).restored = true ∧
      ((slot t n rd.no).st = .active ∨ (slot t n rd.no).st = .waiting) ∧
      (slot t n rd.no).pos = leAt (slice b 0 512) 4 4))

/-! ### Sync objects, gongs and fabric barriers (R167 to R197, R358) -/

/-- The operations on a sync object (R170 to R173): a counting object adds, bytes as words, and stops at 65,535 with
SYN_SATURATE; SET gives it the value; an event object is set, and a SIGNAL, an ADD of 1 or more or a release that finds it set
leaves it set and DOUBLE, raises SYN_DOUBLE_SIGNAL where DOUBLE_FAULT asks for it, and one consuming wait takes both; bytes to an
event object and a release to a counting one are not applied and raise SYN_MODE_MISMATCH; an error is recorded with the CTAG
of the context. No operation leaves a counter above 65,535. -/
def Obligations.SyncOperations : Prop :=
  (∀ (o : SyncObj) (v : Nat), o.event = false → o.value + v ≤ 65535 → 1 ≤ v →
    syncApply o (.add v) = ({ o with value := o.value + v }, false, false, false)) ∧
  (∀ (o : SyncObj) (v : Nat), o.event = false → o.value ≤ 65535 → 65535 < o.value + v →
    syncApply o (.add v) = ({ o with value := 65535 }, true, false, false)) ∧
  (∀ (o : SyncObj) (b : Nat), o.event = false → o.value + b / 4 ≤ 65535 →
    syncApply o (.bytes b) = ({ o with value := o.value + b / 4 }, false, false, false)) ∧
  (∀ (o : SyncObj) (v : Nat), o.event = false → syncApply o (.set v) = ({ o with value := v }, false, false, false)) ∧
  (∀ o : SyncObj, o.event = true → o.value = 0 →
    syncApply o .signal = ({ o with value := 1 }, false, false, false) ∧
    syncApply o .release = ({ o with value := 1, pend := o.pend - 1 }, false, false, false)) ∧
  (∀ (o : SyncObj) (op : SyncOp), o.event = true → o.value = 1 →
    (op = .signal ∨ op = .release ∨ ∃ v, 1 ≤ v ∧ op = .add v) →
    (syncApply o op).1.value = 1 ∧ (syncApply o op).1.double = true ∧ (syncApply o op).2.2.1 = o.doubleFault ∧
    ∀ w, (veWaitTake (syncApply o op).1 false w).value = 0) ∧
  (∀ (o : SyncObj) (op : SyncOp), o.value ≤ 65535 → (∀ v, op = .set v → v ≤ 65535) → (syncApply o op).1.value ≤ 65535) ∧
  (∀ (s : State) (n k i ph : Nat) (op : SyncOp) (remote : Bool), n < 1152 → physObj s n k i = some ph →
    ((syncApply (syncObj s n ph) op).2.1 = true →
      wbit (rget (syncDo s n k i op remote) .syn n 0x20) eSynSaturate.bit = true ∧
      (syncObj (syncDo s n k i op remote) n ph).value = 65535 ∧
      (wbit (rget s .syn n 0x24) eSynSaturate.bit = false → wbit (rget s .syn n 0x30) 31 = false →
        rget (syncDo s n k i op remote) .syn n 0x38 = (slot s n k).ctag)) ∧
    ((syncApply (syncObj s n ph) op).2.2.1 = true →
      wbit (rget (syncDo s n k i op remote) .syn n 0x20) eSynDoubleSignal.bit = true ∧
      (syncObj (syncDo s n k i op remote) n ph).double = true) ∧
    ((syncApply (syncObj s n ph) op).2.2.2 = true →
      wbit (rget (syncDo s n k i op remote) .syn n 0x20) eSynModeMismatch.bit = true ∧
      syncObj (syncDo s n k i op remote) n ph = syncObj s n ph))

/-- A gong (R183 to R187, R198): N and ENABLE are written, 4,352 at most on a tile and 17,408 for the package; arming an
enabled barrier with counts is ignored with GNG_CFG_BUSY; ENABLE = 0 or N = 0 disarms without a release. An arrival of
the phase or of the next is counted, and the N-th advances the phase, carries the next phase's count over and sends a
release to the cores of its scope; a next phase that is then complete is released too. Any other arrival, and one at a
disabled barrier, is not counted, is recorded, and a notice returns; a barrier whose state is lost is disarmed.
Arrivals wait while the unit takes no new work. The arrival that a bind read lets go (R184, R190) binds the object to
its barrier at the phase read, counts it pending, and is on its way to the gong unit or the pipeline, and the rest of
the program takes effect; a release takes effect on each bound object it matches, in a slot that can take it, and on
no other (R187, R179); the state word that it reads may be found damaged (R198). An overrun notice ends the contexts
of the group (R186): BARRIER_OVERRUN or BARRIER_DISABLED is recorded on the core. A context that has left or is being
ended takes none. The choices that it rests on are the model's: log entry 34. -/
def Obligations.Gongs : Prop :=
  ((∀ (s : State) (req : Req) (tile bar : Nat) (w : Word), tile < 4 → bar < 256 →
     answered s req = true → pageOpen s req (page .gng tile) = true →
     let b := gongBar s tile bar
     let arm := wbit w 15 = true ∧ fld w 14 0 ≠ 0
     (arm → b.enabled = false ∨ (b.cur = 0 ∧ b.next = 0) →
       Completes (.gngBarCfgWrite req tile bar w) s (fun t =>
         gongBar t tile bar = { n := min 4352 (fld w 14 0), enabled := true } ∧
         rget t .gng tile (0x400 + 8 * bar) = packFields [(0, min 4352 (fld w 14 0)), (15, 1)] ∧
         t.mem = s.mem ∧ t.cores = s.cores)) ∧
     (arm → b.enabled = true → b.cur ≠ 0 ∨ b.next ≠ 0 →
       exec (.gngBarCfgWrite req tile bar w) s = .next (recErr s eGngCfgBusy tile (bar % 256) 0 noCtag)) ∧
     (¬ arm → Completes (.gngBarCfgWrite req tile bar w) s (fun t =>
       gongBar t tile bar = { b with n := min 4352 (fld w 14 0), enabled := false, cur := 0, next := 0 } ∧ t.net = s.net ∧
       t.mem = s.mem ∧ t.cores = s.cores))) ∧
   (∀ (s : State) (req : Req) (g : Nat) (w : Word), g < 64 → answered s req = true → pageOpen s req (page .gng 0) = true →
     let b := gongBar s 0 (256 + g)
     let arm := wbit w 15 = true ∧ fld w 14 0 ≠ 0
     (arm → b.enabled = false ∨ (b.cur = 0 ∧ b.next = 0) →
       Completes (.gngPkgCfgWrite req g w) s (fun t =>
         gongBar t 0 (256 + g) = { n := min 17408 (fld w 14 0), enabled := true } ∧
         rget t .gng 0 (0xC00 + 8 * g) = packFields [(0, min 17408 (fld w 14 0)), (15, 1)] ∧
         t.mem = s.mem ∧ t.cores = s.cores)) ∧
     (arm → b.enabled = true → b.cur ≠ 0 ∨ b.next ≠ 0 →
       exec (.gngPkgCfgWrite req g w) s = .next (recErr s eGngCfgBusy 0 ((256 + g) % 256) 0 noCtag)) ∧
     (¬ arm → Completes (.gngPkgCfgWrite req g w) s (fun t =>
       gongBar t 0 (256 + g) = { b with n := min 17408 (fld w 14 0), enabled := false, cur := 0, next := 0 } ∧
       t.net = s.net ∧ t.mem = s.mem ∧ t.cores = s.cores))) ∧
   (∀ (s : State) (n k bar q : Nat) (ecc : Ecc), accepting s .gng (gngPage (coreTile n) bar) = false →
     exec (.gongArrival n k bar q ecc) s = .next s) ∧
   (∀ (s : State) (n k bar q : Nat) (ecc : Ecc), accepting s .gng (gngPage (coreTile n) bar) = true → n < 1152 → q < 4 →
     let b := gongBar s (coreTile n) bar
     (ecc ≠ .uncorr → b.enabled = true → b.phase < 4 →
       (q = b.phase → Completes (.gongArrival n k bar q ecc) s (fun t =>
         (b.cur + 1 < b.n → gongBar t (coreTile n) bar = { b with cur := b.cur + 1 }) ∧
         (b.cur + 1 = b.n → b.next < b.n →
           gongBar t (coreTile n) bar = { b with phase := (q + 1) % 4, cur := b.next, next := 0 } ∧
           ∀ e ∈ s.cores, coreEnabled s e.1 = true → partOfCore s e.1 = gongPart s (coreTile n) bar →
             (256 ≤ bar ∨ coreTile e.1 = coreTile n) → NetMsg.release e.1 false bar q ∈ t.net) ∧
         (b.cur + 1 = b.n → b.next = b.n → gongBar t (coreTile n) bar = { b with phase := (q + 2) % 4, cur := 0, next := 0 }) ∧
         t.mem = s.mem ∧ t.cores = s.cores)) ∧
       (q = (b.phase + 1) % 4 → b.cur < b.n → Completes (.gongArrival n k bar q ecc) s (fun t =>
         gongBar t (coreTile n) bar = { b with next := b.next + 1 } ∧ t.mem = s.mem ∧ t.cores = s.cores)) ∧
       (q ≠ b.phase → q ≠ (b.phase + 1) % 4 → Completes (.gongArrival n k bar q ecc) s (fun t =>
         gongBar t (coreTile n) bar = b ∧ wbit (rget t .gng (gngPage (coreTile n) bar) 0x20) eGngOverrun.bit = true ∧
         NetMsg.notice n k bar ((q + 4 - b.phase) % 4) ∈ t.net ∧ t.mem = s.mem ∧ t.cores = s.cores))) ∧
     (ecc ≠ .uncorr → b.enabled = false → Completes (.gongArrival n k bar q ecc) s (fun t =>
       gongBar t (coreTile n) bar = b ∧ wbit (rget t .gng (gngPage (coreTile n) bar) 0x20) eGngArriveDisabled.bit = true ∧
       NetMsg.notice n k bar 0 ∈ t.net ∧ t.mem = s.mem ∧ t.cores = s.cores)) ∧
     (ecc = .uncorr → Completes (.gongArrival n k bar q ecc) s (fun t =>
       (gongBar t (coreTile n) bar).enabled = false ∧
       wbit (rget t .gng (gngPage (coreTile n) bar) 0x20) eGngStateEcc.bit = true ∧
       NetMsg.notice n k bar 0 ∈ t.net ∧ t.mem = s.mem)))) ∧
  ((∀ (s : State) (n k ph : Nat) (o : List Byte), (slot s n k).bind = some ⟨[o]⟩ → (slot s n k).ending = none →
     physObj s n k (opObj o) = some ph → (syncObj s n ph).pend = 0 →
     Completes (.barrierBindReadDone n k) s (fun t =>
       let fabric := decide (opCode o = 0x14)
       let q := if fabric then (fbar s (barrierPipe s (partOfCore s n)) (opValue o)).phase
         else (gongBar s (coreTile n) (opValue o)).phase
       (syncObj t n ph).bound = true ∧ (syncObj t n ph).gbar = opValue o ∧ (syncObj t n ph).gkind = fabric ∧
       (syncObj t n ph).gphase = (q + 1) % 4 ∧ (syncObj t n ph).pend = 1 ∧
       (fabric = false → NetMsg.gongArrive n k (opValue o) q ∈ t.net) ∧
       (fabric = true → NetMsg.fbArrive (barrierPipe s (partOfCore s n)) n k (opValue o) q ∈ t.net))) ∧
   (∀ (s : State) (n k : Nat), (slot s n k).bind = none ∨ (slot s n k).ending.isSome →
     exec (.barrierBindReadDone n k) s = .next (deliver s (.bindRead n k))) ∧
   (∀ (s : State) (n bar : Nat) (fabric : Bool) (rd : Reader), (core s n).relIndex = [] →
     exec (.barrierReleaseReceive n fabric bar rd) s = .next (deliver s (.release n fabric bar rd.no))) ∧
   (∀ (s u : State) (n ph bar : Nat) (fabric : Bool) (rd : Reader), (core s n).relIndex = [ph] →
     u = synEcc (deliver s (.release n fabric bar rd.no)) n ph rd.ecc → (core u n).relIndex = [ph] →
     let x := syncObj u n ph
     let hit := x.bound = true ∧ x.gbar = bar ∧ x.gkind = fabric ∧ 0 < x.pend ∧ (x.gphase + 4 - x.pend) % 4 = rd.no
     (∀ k i, hit → objOwner u n ph = some (k, i) → exec (.barrierReleaseReceive n fabric bar rd) s =
       .next (if slotLive u n k then syncDo u n k i .release true else u)) ∧
     (¬ hit → exec (.barrierReleaseReceive n fabric bar rd) s = .next u))) ∧
  ((∀ (s : State) (n k bar detail : Nat), n < 1152 → k < 16 → (slot s n k).st ≠ .free → (slot s n k).ending = none →
     Completes (.barrierOverrunNotice n k bar detail) s (fun t =>
       wbit (rget t .syn n 0x20) (if detail = 0 then eBarrierDisabled.bit else eBarrierOverrun.bit) = true ∧
       (slot t n k).ending.isSome = true ∧ t.mem = s.mem)) ∧
   (∀ (s : State) (n k bar detail : Nat), (slot s n k).st = .free ∨ (slot s n k).ending.isSome →
     exec (.barrierOverrunNotice n k bar detail) s = .next (deliver s (.notice n k bar detail))))

/-- Fabric barriers (R190 to R193, R197, R358): configuration on the barrier pipeline; a local arrival is counted under
the phase rule; with LOCAL_N reached the phase advances and a device arrival awaits release; the root counts device
arrivals; a release is passed to the cores; an overrun is recorded; a message for a barrier that is not armed, or no
root where one is needed, is discarded; a timeout takes the barrier out of use. The choices that it rests on are the
model's: log entry 34. -/
def Obligations.FabricBarriers : Prop :=
  (∀ (s : State) (req : Req) (pipe f : Nat) (w : Word), pipe < 8 → f < 256 → answered s req = true →
    pageOpen s req (page .col pipe) = true →
    let b := fbar s pipe f
    let arm := wbit w 15 = true ∧ fld w 14 0 ≠ 0
    let counts := b.cur ≠ 0 ∨ b.next ≠ 0 ∨ b.rcur ≠ 0 ∨ b.rnext ≠ 0
    (isBarrierPipe s pipe = false → exec (.colFbCfgWrite req pipe f w) s = .next s) ∧
    (isBarrierPipe s pipe = true → arm → b.enabled = true → counts → exec (.colFbCfgWrite req pipe f w) s = .next s) ∧
    (isBarrierPipe s pipe = true → arm → b.enabled = false ∨ ¬ counts → Completes (.colFbCfgWrite req pipe f w) s (fun t =>
      (let hi := rget s .col pipe (0x804 + 8 * f)
       fbar t pipe f =
         { n := min 17408 (fld w 14 0), enabled := true, isRoot := wbit w 16, root := fld hi 15 0, devN := fld hi 31 16 }) ∧
      t.mem = s.mem ∧ t.cores = s.cores)) ∧
    (isBarrierPipe s pipe = true → ¬ arm → Completes (.colFbCfgWrite req pipe f w) s (fun t =>
      (fbar t pipe f).enabled = false ∧ (fbar t pipe f).cur = 0 ∧ (fbar t pipe f).next = 0 ∧ (fbar t pipe f).await = [] ∧
      t.net = s.net ∧ t.mem = s.mem ∧ t.cores = s.cores))) ∧
  (∀ (s : State) (pipe n k f q : Nat), accepting s .col pipe = false → exec (.fbLocalArrival pipe n k f q) s = .next s) ∧
  (∀ (s : State) (pipe n k f q : Nat), accepting s .col pipe = true → pipe < 8 → q < 4 →
    let b := fbar s pipe f
    (b.enabled = true → b.phase < 4 →
      (q = b.phase → Completes (.fbLocalArrival pipe n k f q) s (fun t =>
        (b.cur + 1 < b.n → fbar t pipe f = { b with cur := b.cur + 1 }) ∧
        (b.cur + 1 = b.n → b.next < b.n → b.isRoot = false →
          fbar t pipe f = { b with
            phase := (q + 1) % 4, cur := b.next, next := 0, await := b.await ++ [q], left := mput b.left q s.us }) ∧
        t.mem = s.mem)) ∧
      (q = (b.phase + 1) % 4 → b.cur < b.n → Completes (.fbLocalArrival pipe n k f q) s (fun t =>
        fbar t pipe f = { b with next := b.next + 1 } ∧ t.mem = s.mem)) ∧
      (q ≠ b.phase → q ≠ (b.phase + 1) % 4 → Completes (.fbLocalArrival pipe n k f q) s (fun t =>
        fbar t pipe f = b ∧ wbit (rget t .col pipe 0x20) eColFbOverrun.bit = true ∧
        NetMsg.notice n k f ((q + 4 - b.phase) % 4) ∈ t.net ∧ t.mem = s.mem))) ∧
    (b.enabled = false → Completes (.fbLocalArrival pipe n k f q) s (fun t =>
      fbar t pipe f = b ∧ NetMsg.notice n k f 0 ∈ t.net ∧ t.mem = s.mem))) ∧
  (∀ (s s1 : State) (i part type : Nat) (data : List Byte) (ok : Bool) (c : Instr),
    (type, c) ∈ [(tFbArrive, Instr.fbArrive i part data ok), (tFbRelease, .fbRelease i part data ok),
      (tFbOverrun, .fbOverrun i part data ok)] →
    (arriveCheck s (arrival s i part) type data ok = (s1, none) → exec c s = .next s1) ∧
    (∀ k, arriveCheck s (arrival s i part) type data ok = (s1, some k) →
      let pipe := barrierPipe s1 (arrival s i part).part
      let b := fbar s1 pipe (bits k.operand 0 8)
      (k.dstEndpt ≠ barrierEndpt → exec c s = .next (discardPkt s1 (arrival s i part))) ∧
      (k.dstEndpt = barrierEndpt → b.enabled = false ∨ (type = tFbArrive ∧ b.isRoot = false) →
        exec c s = .next (fbStray s1 (arrival s i part) pipe (bits k.operand 0 8))))) ∧
  (∀ (s s1 : State) (i part : Nat) (data : List Byte) (ok : Bool) (k : Pkt),
    arriveCheck s (arrival s i part) tFbArrive data ok = (s1, some k) → k.dstEndpt = barrierEndpt →
    (fbar s1 (barrierPipe s1 (arrival s i part).part) (bits k.operand 0 8)).enabled = true →
    (fbar s1 (barrierPipe s1 (arrival s i part).part) (bits k.operand 0 8)).isRoot = true →
    exec (.fbArrive i part data ok) s = .next (fbRootArrival s1 (barrierPipe s1 (arrival s i part).part)
      (bits k.operand 0 8) (bits k.operand 8 2) k.srcCoord)) ∧
  (∀ (s : State) (pipe f q c : Nat), pipe < 8 → q < 4 → (fbar s pipe f).rphase < 4 → (fbar s pipe f).rcur < (fbar s pipe f).devN →
    let b := fbar s pipe f
    (q = b.rphase → b.rcur + 1 < b.devN → fbar (fbRootArrival s pipe f q c) pipe f = { b with rcur := b.rcur + 1 }) ∧
    (q = b.rphase → b.rcur + 1 = b.devN → b.rnext < b.devN →
      fbar (fbRootArrival s pipe f q c) pipe f = { b with rphase := (q + 1) % 4, rcur := b.rnext, rnext := 0 }) ∧
    (q = (b.rphase + 1) % 4 → fbar (fbRootArrival s pipe f q c) pipe f = { b with rnext := b.rnext + 1 }) ∧
    (q ≠ b.rphase → q ≠ (b.rphase + 1) % 4 → fbar (fbRootArrival s pipe f q c) pipe f = b ∧
      wbit (rget (fbRootArrival s pipe f q c) .col pipe 0x20) eColFbOverrun.bit = true)) ∧
  (∀ (s s1 : State) (i part : Nat) (data : List Byte) (ok : Bool) (k : Pkt),
    arriveCheck s (arrival s i part) tFbRelease data ok = (s1, some k) → k.dstEndpt = barrierEndpt →
    (fbar s1 (barrierPipe s1 (arrival s i part).part) (bits k.operand 0 8)).enabled = true →
    (bits k.operand 8 2 ∉ (fbar s1 (barrierPipe s1 (arrival s i part).part) (bits k.operand 0 8)).await →
      exec (.fbRelease i part data ok) s = .next s1) ∧
    (bits k.operand 8 2 ∈ (fbar s1 (barrierPipe s1 (arrival s i part).part) (bits k.operand 0 8)).await →
      Completes (.fbRelease i part data ok) s (fun t =>
        let pipe := barrierPipe s1 (arrival s i part).part
        (fbar t pipe (bits k.operand 0 8)).await =
          (fbar s1 pipe (bits k.operand 0 8)).await.erase (bits k.operand 8 2) ∧
        (∀ e ∈ s1.cores, coreEnabled s1 e.1 = true → partOfCore s1 e.1 = (arrival s i part).part →
          NetMsg.release e.1 true (bits k.operand 0 8) (bits k.operand 8 2) ∈ t.net) ∧
        t.mem = s.mem))) ∧
  (∀ (s s1 : State) (i part : Nat) (data : List Byte) (ok : Bool) (k : Pkt), i < 8 →
    arriveCheck s (arrival s i part) tFbOverrun data ok = (s1, some k) → k.dstEndpt = barrierEndpt →
    (fbar s1 (barrierPipe s1 (arrival s i part).part) (bits k.operand 0 8)).enabled = true →
    Completes (.fbOverrun i part data ok) s (fun t =>
      wbit (rget t .col (barrierPipe s1 (arrival s i part).part) 0x20) eColFbOverrun.bit = true ∧ t.mem = s.mem)) ∧
  (∀ (s : State) (pipe f : Nat), pipe < 8 → f < 256 →
    let late := (fbar s pipe f).enabled = true ∧ rget s .col pipe 0x70C ≠ 0 ∧
      ∃ q ∈ (fbar s pipe f).await, mgetD (fbar s pipe f).left q 0 + max 1000 (rget s .col pipe 0x70C).toNat ≤ s.us
    (late → Completes (.fbTimeout pipe f) s (fun t =>
      (fbar t pipe f).enabled = false ∧ (fbar t pipe f).await = [] ∧ wbit (rget t .col pipe (0x800 + 8 * f)) 15 = false ∧
      wbit (rget t .col pipe 0x20) eColFbTimeout.bit = true ∧ t.mem = s.mem)) ∧
    (¬ late → exec (.fbTimeout pipe f) s = .next s))

/-! ### The Vector Engine (R88 to R93, R131 to R134, R150, R170 to R175) -/

/-- The next instruction of a strand issues: the word `w`, with the opcode, of context-relative strand `i` of slot `k`, well formed,
and neither the strand's registers nor the instruction's bytes have an uncorrectable error; `s1` is what its findings leave (R90,
R102, R217). -/
structure Sys2Proof.Machine.VeIssues (s s1 : State) (n ph opc k i w : Nat) (ecc : Ecc) : Prop where
  fetch : veFetch s n ph = .ins k i w
  opcode : vOpc w = opc
  good : vBad w = false
  clean : vePre s n ph k i ecc = (s1, true)

/-- The counters of an issued instruction (R101): VE_OPS and the instruction buffer's. -/
def veCounted (s : State) (n : Nat) : State := bump (bump s .ve n 0x128 1) .ve n 0x130 1

/-- Every strand but one is as it was, and so is everything outside the cores and the stored registers. -/
def Sys2Proof.Machine.StrandFrame (s t : State) (n ph : Nat) : Prop :=
  t = { s with regs := t.regs, cores := t.cores } ∧ (∀ m j, (m, j) ≠ (n, ph) → strand t m j = strand s m j) ∧
  (∀ m j, slot t m j = slot s m j) ∧ (∀ m o, syncObj t m o = syncObj s m o)

/-- What an element-wise instruction does (R91, R92): each guarded lane of D takes the function of the lanes of A, B and C as they
were before, or in the scalar form S[D] does under bit 0 of the guard; every other register stays, the strand goes on, VE_OPS
counts. -/
def Sys2Proof.Machine.LaneOp (c : Nat → Nat → Ecc → Instr) (opc : Nat) (f : Strand → Nat → Nat → Nat → Nat → Nat → Nat) : Prop :=
  ∀ (s s1 : State) (n ph k i w : Nat) (ecc : Ecc), VeIssues s s1 n ph opc k i w ecc →
    Completes (c n ph ecc) s (fun t =>
      let x := strand s n ph
      let y := strand t n ph
      (vSc w = false → y.sreg = x.sreg ∧ ∀ lane, lane < 32 →
        vReg y (vD w) lane = if bit (vGuard x w) lane then
          f x w lane (vReg x (vA w) lane) (vReg x (vB w) lane) (vReg x (vC w) lane) % 2 ^ 32 else vReg x (vD w) lane) ∧
      (vSc w = true → y.v = x.v ∧ (∀ r, r ≠ vD w → sReg y r = sReg x r) ∧
        sReg y (vD w) = if bit (vGuard x w) 0 then
          f x w 0 (sReg x (vA w)) (sReg x (vB w)) (sReg x (vC w)) % 2 ^ 32 else sReg x (vD w)) ∧
      (∀ r lane, r ≠ vD w → lane < 32 → vReg y r lane = vReg x r lane) ∧ y.preg = x.preg ∧
      y.pc = (loopNext x.pc x.loops).1 ∧ y.loops = (loopNext x.pc x.loops).2 ∧ y.run = x.run ∧
      rget t .ve n 0x128 = wd (min 0xFFFFFFFF ((rget s .ve n 0x128).toNat + 1)) ∧ StrandFrame s1 t n ph)

/-- The arithmetic instructions (R92, R131). The logic and shift instructions (R92): shift counts are taken modulo 32, SAR
keeps the sign. The moves (R92): MOVI, MOV, SEL by a P register, SHUF by lane numbers, BCST of one lane, MOVS of an S
register, LANEID. The transcendental instructions (R93), whose FP32 results are free values within the manual's bounds
(log entry 12); VE_TRANS_OPS counts each one (R101). -/
def Obligations.VeLanes : Prop :=
  (LaneOp .veAdd 0x01 (fun _ w _ a b _ => vAdd (vTy w) a b) ∧
   LaneOp .veSub 0x02 (fun _ w _ a b _ => vSub (vTy w) a b) ∧
   LaneOp .veMul 0x03 (fun _ w _ a b _ => vMul (vTy w) a b) ∧
   LaneOp .veFma 0x04 (fun _ w _ a b c => vFma (vTy w) a b c) ∧
   LaneOp .veMin 0x05 (fun _ w _ a b _ => vMin (vTy w) a b) ∧
   LaneOp .veMax 0x06 (fun _ w _ a b _ => vMax (vTy w) a b) ∧
   LaneOp .veAbs 0x07 (fun _ w _ a _ _ => vAbs (vTy w) a) ∧
   LaneOp .veNeg 0x08 (fun _ w _ a _ _ => vNeg (vTy w) a)) ∧
  (LaneOp .veAnd 0x10 (fun _ _ _ a b _ => a &&& b) ∧ LaneOp .veOr 0x11 (fun _ _ _ a b _ => a ||| b) ∧
   LaneOp .veXor 0x12 (fun _ _ _ a b _ => a ^^^ b) ∧
   LaneOp .veShl 0x13 (fun _ _ _ a b _ => a * 2 ^ (b % 32)) ∧
   LaneOp .veShr 0x14 (fun _ _ _ a b _ => a / 2 ^ (b % 32)) ∧
   LaneOp .veSar 0x15 (fun _ _ _ a b _ => (BitVec.sshiftRight (wd a) (b % 32)).toNat)) ∧
  (LaneOp .veMovi 0x40 (fun _ w _ _ _ _ => vImm w) ∧ LaneOp .veMov 0x41 (fun _ _ _ a _ _ => a) ∧
   LaneOp .veSel 0x0B (fun x w lane a b _ => if bit (pReg x (bits (vImm w) 0 3)) lane then a else b) ∧
   LaneOp .veShuf 0x38 (fun x w _ _ b _ => vReg x (vA w) (b % 32)) ∧
   LaneOp .veBcst 0x39 (fun x w _ _ _ _ => vReg x (vA w) (bits (vImm w) 0 5)) ∧
   LaneOp .veMovs 0x42 (fun x w _ _ _ _ => sReg x (vA w)) ∧ LaneOp .veLaneid 0x43 (fun _ _ lane _ _ _ => lane)) ∧
  (LaneOp .veRcp 0x20 (fun _ w _ a _ _ => vTrans 0x20 (vTy w) a) ∧
   LaneOp .veRsqrt 0x21 (fun _ w _ a _ _ => vTrans 0x21 (vTy w) a) ∧
   LaneOp .veSqrt 0x22 (fun _ w _ a _ _ => vTrans 0x22 (vTy w) a) ∧
   LaneOp .veExp2 0x23 (fun _ w _ a _ _ => vTrans 0x23 (vTy w) a) ∧
   LaneOp .veLog2 0x24 (fun _ w _ a _ _ => vTrans 0x24 (vTy w) a) ∧
   LaneOp .veSinpi 0x25 (fun _ w _ a _ _ => vTrans 0x25 (vTy w) a) ∧
   LaneOp .veCospi 0x26 (fun _ w _ a _ _ => vTrans 0x26 (vTy w) a) ∧
   LaneOp .veTanh 0x27 (fun _ w _ a _ _ => vTrans 0x27 (vTy w) a) ∧
   (∀ (s s1 : State) (n ph k i w opc : Nat) (ecc : Ecc) (c : Nat → Nat → Ecc → Instr),
     (c, opc) ∈ [(Instr.veRcp, 0x20), (Instr.veRsqrt, 0x21), (Instr.veSqrt, 0x22), (Instr.veExp2, 0x23), (Instr.veLog2, 0x24),
       (Instr.veSinpi, 0x25), (Instr.veCospi, 0x26), (Instr.veTanh, 0x27)] → VeIssues s s1 n ph opc k i w ecc →
     Completes (c n ph ecc) s (fun t =>
       rget t .ve n 0x12C = wd (min 0xFFFFFFFF ((rget s .ve n 0x12C).toNat + 1)))))

/-- NOP and FENCE only go on (R92); CVT is the conversion of R133 and R134 with the slot's seed; CMP writes the guarded bits of
P[D], and P0 stays all ones; a reduction writes S[D] from the guarded lanes in ascending order (R132). -/
def Obligations.VeOthers : Prop :=
  (∀ (s s1 : State) (n ph k i w : Nat) (ecc : Ecc), VeIssues s s1 n ph 0x00 k i w ecc →
    exec (.veNop n ph ecc) s = .next (modStrand (veCounted s1 n) n ph (fun x => vAdvance x x.pc))) ∧
  (∀ (s s1 : State) (n ph k i w : Nat) (ecc : Ecc), VeIssues s s1 n ph 0x55 k i w ecc →
    exec (.veFence n ph ecc) s = .next (modStrand (veCounted s1 n) n ph (fun x => vAdvance x x.pc))) ∧
  (∀ (s s1 : State) (n ph k i w : Nat) (ecc : Ecc), VeIssues s s1 n ph 0x09 k i w ecc → n < 1152 → k < 16 →
    exec (.veCvt n ph ecc) s = .next (modStrand (veCounted s1 n) n ph (fun x =>
      vAdvance (cvtStrand x w (slotReg s n k 0x424).toNat (0x100 + i)) x.pc))) ∧
  (∀ (s s1 : State) (n ph k i w : Nat) (ecc : Ecc), VeIssues s s1 n ph 0x0A k i w ecc →
    Completes (.veCmp n ph ecc) s (fun t =>
      let x := strand s n ph
      let y := strand t n ph
      let c := bits (vImm w) 0 3
      (vD w % 8 = 0 → y.preg = x.preg) ∧
      (vD w % 8 ≠ 0 → vSc w = false → ∀ lane, lane < 32 → bit (pReg y (vD w % 8)) lane =
        if bit (vGuard x w) lane then vCond (vTy w) c (vReg x (vA w) lane) (vReg x (vB w) lane)
        else bit (pReg x (vD w % 8)) lane) ∧
      (vD w % 8 ≠ 0 → vSc w = true → pReg y (vD w % 8) =
        if bit (vGuard x w) 0 then (if vCond (vTy w) c (sReg x (vA w)) (sReg x (vB w)) then 0xFFFFFFFF else 0)
        else pReg x (vD w % 8)) ∧
      y.v = x.v ∧ y.sreg = x.sreg ∧ (∀ r, r ≠ vD w % 8 → pReg y r = pReg x r) ∧
      y.pc = (loopNext x.pc x.loops).1 ∧ StrandFrame s1 t n ph)) ∧
  (∀ (s s1 : State) (n ph k i w : Nat) (ecc : Ecc) (c : Nat → Nat → Ecc → Instr) (opc empty : Nat) (f : Nat → Nat → Nat),
    (c, opc, empty, f) ∈ [(Instr.veRadd, 0x3A, 0, vAdd (vTy w)),
      (Instr.veRmax, 0x3B, (if vTy w = 0 then 0xFF800000 else if vTy w = 3 then 0x80000000 else 0), vMax (vTy w)),
      (Instr.veRmin, 0x3C, (if vTy w = 0 then 0x7F800000 else if vTy w = 3 then 0x7FFFFFFF else 0xFFFFFFFF),
        vMin (vTy w))] →
    VeIssues s s1 n ph opc k i w ecc →
    Completes (c n ph ecc) s (fun t =>
      let x := strand s n ph
      let y := strand t n ph
      (vLanes x w = [] → sReg y (vD w) = empty) ∧
      (vTy w ≠ 0 → ∀ a l, (vLanes x w).map (vReg x (vA w)) = a :: l → sReg y (vD w) = l.foldl f a % 2 ^ 32) ∧
      (vTy w = 0 → ∀ a l, (vLanes x w).map (vReg x (vA w)) = a :: l →
        sReg y (vD w) = rne .fp32 (Fmt.fp32.decode (l.foldl f a)) % 2 ^ 32) ∧
      y.v = x.v ∧ y.preg = x.preg ∧ (∀ r, r ≠ vD w → sReg y r = sReg x r) ∧
      y.pc = (loopNext x.pc x.loops).1 ∧ StrandFrame s1 t n ph))

/-- The loads (R72, R92, R217): LD, LDX and SLD write what the window holds at each guarded lane's address, S or V
register by form; a poisoned word ends the context and writes no register; a misaligned address and one beyond the
window are VE_LM_RANGE. The stores (R72, R92): ST, STX and SST write each guarded lane's word at its address, where
two lanes meet the higher one's; every other byte of memory is as it was, and no register of the strand changes; a
misaligned address and one beyond the window are VE_LM_RANGE, with no byte of memory changed. -/
def Obligations.VeMemory : Prop :=
  ((∀ (s s1 s2 : State) (n ph k i w opc : Nat) (ecc : Ecc) (c : Nat → Nat → Ecc → Instr),
     (c, opc) ∈ [(Instr.veLd, 0x30), (Instr.veLdx, 0x32)] → VeIssues s s1 n ph opc k i w ecc →
     vRangeBad (veCounted s1 n) n k (strand s n ph) w = false →
     vLoadCheck (veCounted s1 n) n k (vAddrs (strand s n ph) w) ecc = (s2, none) →
     Completes (c n ph ecc) s (fun t =>
       let x := strand s n ph
       let y := strand t n ph
       (∀ e ∈ vAddrs x w, vReg y (vD w) e.1 = leNat (readWin s2 n k e.2 4)) ∧
       (∀ lane, lane < 32 → bit (vGuard x w) lane = false → vReg y (vD w) lane = vReg x (vD w) lane) ∧
       (∀ r lane, r ≠ vD w → lane < 32 → vReg y r lane = vReg x r lane) ∧ y.sreg = x.sreg ∧ y.preg = x.preg ∧
       y.pc = (loopNext x.pc x.loops).1 ∧ StrandFrame s2 t n ph)) ∧
   (∀ (s s1 s2 : State) (n ph k i w : Nat) (ecc : Ecc), VeIssues s s1 n ph 0x34 k i w ecc →
     vRangeBad (veCounted s1 n) n k (strand s n ph) w = false →
     vLoadCheck (veCounted s1 n) n k (vAddrs (strand s n ph) w) ecc = (s2, none) →
     Completes (.veSld n ph ecc) s (fun t =>
       let x := strand s n ph
       let y := strand t n ph
       (bit (vGuard x w) 0 = true → sReg y (vD w) = leNat (readWin s2 n k (vAddr (sReg x (vA w)) (vImm w)) 4)) ∧
       (bit (vGuard x w) 0 = false → y.sreg = x.sreg) ∧ (∀ r, r ≠ vD w → sReg y r = sReg x r) ∧ y.v = x.v ∧
       y.preg = x.preg ∧ y.pc = (loopNext x.pc x.loops).1 ∧ StrandFrame s2 t n ph)) ∧
   (∀ (s s1 s2 : State) (n ph k i w opc er : Nat) (ecc : Ecc) (c : Nat → Nat → Ecc → Instr),
     (c, opc) ∈ [(Instr.veLd, 0x30), (Instr.veLdx, 0x32), (Instr.veSld, 0x34)] → VeIssues s s1 n ph opc k i w ecc →
     (vRangeBad (veCounted s1 n) n k (strand s n ph) w = true →
       exec (c n ph ecc) s = .next (veErr (veCounted s1 n) eVeLmRange n k ph i)) ∧
     (vRangeBad (veCounted s1 n) n k (strand s n ph) w = false →
       vLoadCheck (veCounted s1 n) n k (vAddrs (strand s n ph) w) ecc = (s2, some er) →
       exec (c n ph ecc) s = .next (endCtx s2 n k 5 er 3)))) ∧
  (∀ (s s1 : State) (n ph k i w opc : Nat) (ecc : Ecc) (c : Nat → Nat → Ecc → Instr),
     (c, opc) ∈ [(Instr.veSt, 0x31), (Instr.veStx, 0x33), (Instr.veSst, 0x35)] → VeIssues s s1 n ph opc k i w ecc →
     (vRangeBad (veCounted s1 n) n k (strand s n ph) w = false → Memory.wf s1.mem = true →
       Completes (c n ph ecc) s (fun t =>
         let x := strand s n ph
         let val (lane : Nat) : Nat := if opc = 0x35 then sReg x (vB w) else vReg x (vB w) lane
         (∀ e ∈ vAddrs x w, (∀ e' ∈ vAddrs x w, e.1 < e'.1 → e'.2 ≠ e.2) →
           readMem t (winDpa s1 n k e.2) 4 = leBytes (val e.1) 4) ∧
         (∀ a, (∀ e ∈ vAddrs x w, a < winDpa s1 n k e.2 ∨ winDpa s1 n k e.2 + 4 ≤ a) →
           memGet t.mem a = memGet s1.mem a) ∧
         strand t n ph = vAdvance x x.pc ∧ (∀ m j, (m, j) ≠ (n, ph) → strand t m j = strand s m j) ∧
         (∀ m j, slot t m j = slot s m j))) ∧
     (vRangeBad (veCounted s1 n) n k (strand s n ph) w = true →
       Completes (c n ph ecc) s (fun t => t = veErr (veCounted s1 n) eVeLmRange n k ph i ∧ t.mem = s1.mem)))

/-- Strands and sync objects (R150, R170, R174, R175): a launch starts an idle strand with S0 to S2 set; a WAIT that holds takes
what it waits for and goes on, and one that does not deschedules its strand; SIGNAL is the Signal operation on the object; an
object outside the context is VE_SYNC_RANGE. -/
def Obligations.VeStrands : Prop :=
  (∀ (s : State) (n ph k i : Nat) (l : Launch) (rest : List Launch), strandOwner s n ph = some (k, i) →
    (strand s n ph).launches = l :: rest → running s n k = true → (strand s n ph).run = .idle →
    Completes (.veStrandLaunch n ph) s (fun t =>
      let y := strand t n ph
      y.run = .run ∧ y.pc = 0 ∧ y.entry = l.entry ∧ y.launches = rest ∧ y.loops = [] ∧ sReg y 0 = l.idx % 2 ^ 32 ∧
      sReg y 1 = l.variant % 2 ^ 32 ∧ sReg y 2 = l.iter % 2 ^ 32 ∧ y.v = (strand s n ph).v ∧
      y.preg = (strand s n ph).preg ∧ (∀ m j, (m, j) ≠ (n, ph) → strand t m j = strand s m j))) ∧
  (∀ (s : State) (n ph : Nat), strandOwner s n ph = none ∨ (strand s n ph).launches = [] ∨ (strand s n ph).run ≠ .idle ∨
    (∃ k i, strandOwner s n ph = some (k, i) ∧ running s n k = false) → exec (.veStrandLaunch n ph) s = .next s) ∧
  (∀ (s s1 : State) (n ph k i w o : Nat) (ecc : Ecc), VeIssues s s1 n ph 0x53 k i w ecc →
    physObj s1 n k (bits (vImm w) 0 12) = some o →
    ((syncObj s n o).event && decide (bits (vImm w) 16 16 ≠ 0)) = true →
    exec (.veWait n ph ecc) s = .next (errCtx (veCounted s1 n) eSynModeMismatch n k (bits (vImm w) 0 12))) ∧
  (∀ (s s1 : State) (n ph k i w o : Nat) (ecc : Ecc), VeIssues s s1 n ph 0x53 k i w ecc →
    physObj s1 n k (bits (vImm w) 0 12) = some o →
    ((syncObj s n o).event && decide (bits (vImm w) 16 16 ≠ 0)) = false →
    Completes (.veWait n ph ecc) s (fun t =>
      let holds := veWaitHolds (leftForStrands (modStrand (veCounted s1 n) n ph (fun y => vAdvance y y.pc)) n k o)
        (bits (vImm w) 16 16)
      (holds = true → strand t n ph = vAdvance (strand s n ph) (strand s n ph).pc ∧
        syncObj t n o = veWaitTake (syncObj s n o) (bit (vImm w) 12) (bits (vImm w) 16 16)) ∧
      (holds = false → (strand t n ph).run = .wait (bits (vImm w) 0 12) (bit (vImm w) 12) (bits (vImm w) 16 16) ∧
        syncObj t n o = syncObj s n o))) ∧
  (∀ (s s1 : State) (n ph k i w o : Nat) (ecc : Ecc), VeIssues s s1 n ph 0x54 k i w ecc →
    physObj s1 n k (bits (vImm w) 0 12) = some o →
    exec (.veSignal n ph ecc) s = .next (syncDo (modStrand (veCounted s1 n) n ph (fun y => vAdvance y y.pc)) n k
      (bits (vImm w) 0 12) .signal false)) ∧
  (∀ (s s1 : State) (n ph k i w opc : Nat) (ecc : Ecc) (c : Nat → Nat → Ecc → Instr),
    (c, opc) ∈ [(Instr.veWait, 0x53), (Instr.veSignal, 0x54)] → VeIssues s s1 n ph opc k i w ecc →
    physObj s1 n k (bits (vImm w) 0 12) = none →
    exec (c n ph ecc) s = .next (veErr (veCounted s1 n) eVeSyncRange n k ph i))

/-- Every command of the Vector Engine, with its opcode (R92). -/
def Sys2Proof.Machine.veCommands : List ((Nat → Nat → Ecc → Instr) × Nat) :=
  [(.veNop, 0x00), (.veAdd, 0x01), (.veSub, 0x02), (.veMul, 0x03), (.veFma, 0x04), (.veMin, 0x05), (.veMax, 0x06), (.veAbs, 0x07),
   (.veNeg, 0x08), (.veCvt, 0x09), (.veCmp, 0x0A), (.veSel, 0x0B), (.veAnd, 0x10), (.veOr, 0x11), (.veXor, 0x12), (.veShl, 0x13),
   (.veShr, 0x14), (.veSar, 0x15), (.veRcp, 0x20), (.veRsqrt, 0x21), (.veSqrt, 0x22), (.veExp2, 0x23), (.veLog2, 0x24),
   (.veSinpi, 0x25), (.veCospi, 0x26), (.veTanh, 0x27), (.veLd, 0x30), (.veSt, 0x31), (.veLdx, 0x32), (.veStx, 0x33),
   (.veSld, 0x34), (.veSst, 0x35), (.veShuf, 0x38), (.veBcst, 0x39), (.veRadd, 0x3A), (.veRmax, 0x3B), (.veRmin, 0x3C),
   (.veMovi, 0x40), (.veMov, 0x41), (.veMovs, 0x42), (.veLaneid, 0x43), (.veLoop, 0x50), (.veJmp, 0x51), (.veExit, 0x52),
   (.veWait, 0x53), (.veSignal, 0x54), (.veFence, 0x55)]

/-- Control flow of a strand (R88, R90, R92): LOOP enters its body or, 0 times, skips it; a body of 0 or of more than
4,096 instructions, or one not inside its enclosing body, is VE_OP_INVALID, and a fifth nested loop VE_LOOP_DEPTH; JMP
outside every loop goes to its target, and inside one is VE_OP_INVALID; EXIT ends the strand and its share of the
step, with the VE beat of the step's last strand (R84). What stops an instruction before its effect (R90, R92, R102,
R217), of every command of the Vector Engine: an instruction beyond the window is VE_LM_RANGE; an uncorrectable error
of the strand's registers and poison in the instruction's bytes end the context; an unassigned or malformed
instruction stops its strand, is recorded as VE_OP_INVALID with the strand's number, and ends its context, with no
byte of memory and no other strand changed. A command that is not the next instruction's event changes nothing. -/
def Obligations.VeControl : Prop :=
  ((∀ (s s1 : State) (n ph k i w : Nat) (ecc : Ecc), VeIssues s s1 n ph 0x50 k i w ecc →
     let fits := 1 ≤ bits (vImm w) 16 16 ∧ bits (vImm w) 16 16 ≤ 4096 ∧
       ∀ l ∈ (strand s n ph).loops, (strand s n ph).pc + bits (vImm w) 16 16 ≤ l.last
     (¬ fits → exec (.veLoop n ph ecc) s = .next (veErr (veCounted s1 n) eVeOpInvalid n k ph i)) ∧
     (fits → (strand s n ph).loops.length < 4 →
       Completes (.veLoop n ph ecc) s (fun t =>
         let x := strand s n ph
         let y := strand t n ph
         (bits (vImm w) 0 16 ≠ 0 → y.pc = x.pc + 1 ∧
           y.loops = ⟨x.pc + 1, x.pc + bits (vImm w) 16 16, bits (vImm w) 0 16⟩ :: x.loops) ∧
         (bits (vImm w) 0 16 = 0 → y = vAdvance x (x.pc + bits (vImm w) 16 16)) ∧
         y.v = x.v ∧ y.sreg = x.sreg ∧ y.preg = x.preg ∧ StrandFrame s1 t n ph)) ∧
     (fits → 4 ≤ (strand s n ph).loops.length →
       exec (.veLoop n ph ecc) s = .next (veErr (veCounted s1 n) eVeLoopDepth n k ph i))) ∧
   (∀ (s s1 : State) (n ph k i w : Nat) (ecc : Ecc), VeIssues s s1 n ph 0x51 k i w ecc →
     ((strand s n ph).loops = [] →
       exec (.veJmp n ph ecc) s = .next (modStrand (veCounted s1 n) n ph (fun x => { x with pc := vImm w }))) ∧
     ((strand s n ph).loops ≠ [] →
       exec (.veJmp n ph ecc) s = .next (veErr (veCounted s1 n) eVeOpInvalid n k ph i))) ∧
   (∀ (s s1 : State) (n ph k i w : Nat) (ecc : Ecc), VeIssues s s1 n ph 0x52 k i w ecc →
     Completes (.veExit n ph ecc) s (fun t =>
       (strand t n ph).run = .idle ∧ (strand t n ph).loops = [] ∧ (strand t n ph).v = (strand s n ph).v ∧
       (slot t n k).inflight = markDone ((slot s n k).inflight.map (fun f =>
         if f.order = (strand s n ph).order then { f with veLeft := f.veLeft - 1 } else f)) ∧
       (∀ f, (slot s n k).inflight.find? (fun f => f.order = (strand s n ph).order && f.veLeft = 1) = some f →
         (slot t n k).beatVe = ((slot s n k).beatVe + stBeat f.record 2) % 2 ^ 32) ∧
       ((slot s n k).inflight.find? (fun f => f.order = (strand s n ph).order && f.veLeft = 1) = none →
         (slot t n k).beatVe = (slot s n k).beatVe) ∧
       (∀ m j, (m, j) ≠ (n, ph) → strand t m j = strand s m j) ∧ OtherSlots s t n k))) ∧
  ((∀ e ∈ veCommands, ∀ (s : State) (n ph : Nat) (ecc : Ecc),
     (veFetch s n ph = .none → exec (e.1 n ph ecc) s = .next s) ∧
     (∀ k i, veFetch s n ph = .range k i → exec (e.1 n ph ecc) s = .next (veErr s eVeLmRange n k ph i)) ∧
     (∀ k i w, veFetch s n ph = .ins k i w →
       (vAssigned (vOpc w) = true → vOpc w ≠ e.2 → exec (e.1 n ph ecc) s = .next s) ∧
       (vAssigned (vOpc w) = false ∨ vOpc w = e.2 → ∀ s1,
         (vePre s n ph k i ecc = (s1, false) → exec (e.1 n ph ecc) s = .next s1) ∧
         (vePre s n ph k i ecc = (s1, true) → vBad w = true →
           exec (e.1 n ph ecc) s = .next (veErr s1 eVeOpInvalid n k ph i))))) ∧
   (∀ (s : State) (n ph : Nat) (ecc : Ecc),
     (veFetch s n ph = .none → exec (.veOpInvalid n ph ecc) s = .next s) ∧
     (∀ k i, veFetch s n ph = .range k i → exec (.veOpInvalid n ph ecc) s = .next (veErr s eVeLmRange n k ph i)) ∧
     (∀ k i w s1, veFetch s n ph = .ins k i w →
       (vBad w = false → exec (.veOpInvalid n ph ecc) s = .next s) ∧
       (vBad w = true → vePre s n ph k i ecc = (s1, false) → exec (.veOpInvalid n ph ecc) s = .next s1) ∧
       (vBad w = true → vePre s n ph k i ecc = (s1, true) → Completes (.veOpInvalid n ph ecc) s (fun t =>
         (strand t n ph).run = .stopped ∧ (slot t n k).ending.isSome = true ∧
         wbit (rget t .ve n 0x20) eVeOpInvalid.bit = true ∧ t.mem = s1.mem ∧
         (∀ m j, (m, j) ≠ (n, ph) → strand t m j = strand s m j))))) ∧
   (∀ (s : State) (n ph k i w : Nat), veFetch s n ph = .ins k i w →
     let t := (vePre s n ph k i .uncorr).1
     (vePre s n ph k i .uncorr).2 = false ∧ (strand t n ph).run = .stopped ∧ (slot t n k).ending.isSome = true ∧
     wbit (rget t .ve n 0x20) eVeRegEccUncorr.bit = true ∧ t.mem = s.mem))

/-! ### The Tensor Engine (R85, R86, R115 to R130) -/

/-- The record at the head of a slot's TE queue is at the end of its checks: the slot runs, the record has been read into `s1`, it is
validly encoded, of the kind, its bank is the context's and its bytes lie in the window (R119). -/
structure Sys2Proof.Machine.TeMeets (s s1 : State) (n k kind bank : Nat) (it : TeItem) (r : List Byte) (ecc : Ecc) : Prop where
  served : running s n k = true
  fetch : teFetch s n k ecc = (s1, some (it, r))
  valid : teValid r = true
  kindIs : teKind r = kind
  bankIs : (slot s1 n k).banks[teAcc r]? = some bank
  inside : (teReads r ++ teWrites r).any (fun x => winBytes s1 n k < x.1 + x.2) = false

/-- The TE takes the record: besides, no running operation stands in its way (R121), and neither its bank nor a byte that it reads has
an uncorrectable error (R102, R217); `u` is what the findings leave. -/
structure Sys2Proof.Machine.TeTakes (s s1 u : State) (n k kind bank : Nat) (it : TeItem) (r : List Byte) (ecc : Ecc) : Prop where
  meets : TeMeets s s1 n k kind bank it r ecc
  ready : teReady s1 n k bank r = true
  sound : ecc ≠ .uncorr
  clean : teCheck (if ecc = .corr then recErr s1 eTeAccEccCorr n k bank (slot s1 n k).ctag else s1) n k (eccAfter ecc 1) r =
    (u, none)

/-- The record has left the slot's queue of 8 operations, which takes further ones that wait (R70), and runs on its bank. -/
def Sys2Proof.Machine.TeStarted (s t : State) (n k kind bank : Nat) (it : TeItem) : Prop :=
  (mgetD (core s n).teq k []).drop 1 <+: mgetD (core t n).teq k [] ∧
  (∃ x ∈ (core t n).teRun, x.slot = k ∧ x.order = it.order ∧ x.kind = kind ∧ x.bank = bank)

/-- Every bank of the core but one is as it was, and so are the strands, the sync objects and the registers. -/
def Sys2Proof.Machine.TeFrame (s t : State) (n bank : Nat) : Prop :=
  (∀ m b, (m, b) ≠ (n, bank) → coreBank t m b = coreBank s m b) ∧ (∀ m j, strand t m j = strand s m j) ∧
  (∀ m o, syncObj t m o = syncObj s m o) ∧ t.regs = s.regs

/-- MMA accumulates into its bank by the element function of R122 and R124, ZERO clears it, LDACC loads it from the
window; none of them writes memory (R115, R128). WB writes the converted bank to the window, only there, and clears
the bank when it says so (R128). What keeps a record from its effect (R86, R102, R119, R121, R217), in the order of
the checks: one that is not validly encoded is TE_OP_INVALID, a bank that is not the context's TE_ACC_NOT_OWNED, bytes
beyond the window TE_OPERAND_RANGE, and each ends the context; a record whose operands a running operation still uses
waits; an uncorrectable error of its bank and poison in what it reads end the context with no effect. The completion
of the oldest operation counts it, takes it off the array or the bank port and off its step, with the TE beat of the
step's last one (R84, R101, R151). -/
def Obligations.TeTiles : Prop :=
  ((∀ (s s1 u : State) (n k bank : Nat) (it : TeItem) (r : List Byte) (ecc : Ecc), TeTakes s s1 u n k 0 bank it r ecc →
     Completes (.teMma n k ecc) s (fun t =>
       coreBank t n bank = mmaBank r (mmaIn u n k r) (coreBank s n bank) ∧ t.mem = u.mem ∧
       TeStarted s t n k 0 bank it ∧ TeFrame u t n bank)) ∧
   (∀ (s s1 u : State) (n k bank : Nat) (it : TeItem) (r : List Byte) (ecc : Ecc), TeTakes s s1 u n k 2 bank it r ecc →
     Completes (.teZero n k ecc) s (fun t =>
       (∀ i, bankWord (coreBank t n bank) i = 0) ∧ t.mem = u.mem ∧ TeStarted s t n k 2 bank it ∧
       TeFrame u t n bank)) ∧
   (∀ (s s1 u : State) (n k bank : Nat) (it : TeItem) (r : List Byte) (ecc : Ecc), TeTakes s s1 u n k 3 bank it r ecc →
     Completes (.teLdacc n k ecc) s (fun t =>
       (∀ i j, i < 64 → j < 64 → bankWord (coreBank t n bank) (64 * i + j) =
         leAt (readWin u n k (teOff r 0x08 + i * teOff r 0x0C) 256) (4 * j) 4) ∧
       t.mem = u.mem ∧ TeStarted s t n k 3 bank it ∧ TeFrame u t n bank))) ∧
  (∀ (s s1 u : State) (n k bank : Nat) (it : TeItem) (r : List Byte) (ecc : Ecc), TeTakes s s1 u n k 1 bank it r ecc →
     Completes (.teWb n k ecc) s (fun t =>
       let ws := wbWrites r (coreBank s n bank) (slotReg s n k 0x424).toNat (slot s n k).wbc
       t.mem = ws.foldl (fun m w => memWrite m (winDpa u n k w.1) w.2) u.mem ∧
       coreBank t n bank = (if wbZero r then [] else coreBank s n bank) ∧
       (slot t n k).wbc = ((slot s n k).wbc + 1) % 2 ^ 32 ∧ TeStarted s t n k 1 bank it ∧ TeFrame u t n bank)) ∧
  ((∀ (s : State) (n k : Nat) (ecc : Ecc), ∀ e ∈ [(Instr.teMma, 0), (Instr.teWb, 1), (Instr.teZero, 2), (Instr.teLdacc, 3)],
     (running s n k = false → exec (e.1 n k ecc) s = .next s) ∧
     (∀ s1, running s n k = true → teFetch s n k ecc = (s1, none) → exec (e.1 n k ecc) s = .next s1) ∧
     (∀ s1 it r, running s n k = true → teFetch s n k ecc = (s1, some (it, r)) →
       (teValid r = false → exec (e.1 n k ecc) s = .next (teErr s1 eTeOpInvalid n k)) ∧
       (teValid r = true → teKind r ≠ e.2 → exec (e.1 n k ecc) s = .next s1) ∧
       (teValid r = true → teKind r = e.2 → (slot s1 n k).banks[teAcc r]? = none →
         exec (e.1 n k ecc) s = .next (teErr s1 eTeAccNotOwned n k)) ∧
       (∀ bank, teValid r = true → teKind r = e.2 → (slot s1 n k).banks[teAcc r]? = some bank →
         (teReads r ++ teWrites r).any (fun x => winBytes s1 n k < x.1 + x.2) = true →
         exec (e.1 n k ecc) s = .next (teErr s1 eTeOperandRange n k))) ∧
     (∀ s1 bank it r, TeMeets s s1 n k e.2 bank it r ecc →
       (teReady s1 n k bank r = false → exec (e.1 n k ecc) s = .next s1) ∧
       (teReady s1 n k bank r = true → ecc = .uncorr → Completes (e.1 n k ecc) s (fun t =>
         wbit (rget t .te n 0x20) eTeAccEccUncorr.bit = true ∧ (slot t n k).ending.isSome = true ∧ t.mem = s1.mem ∧
         (∀ m b, coreBank t m b = coreBank s1 m b))) ∧
       (∀ u er, teReady s1 n k bank r = true → ecc ≠ .uncorr →
         teCheck (if ecc = .corr then recErr s1 eTeAccEccCorr n k bank (slot s1 n k).ctag else s1) n k (eccAfter ecc 1) r =
           (u, some er) →
         exec (e.1 n k ecc) s = .next (endCtx u n k 5 er 3)))) ∧
   (∀ (s s1 : State) (n k : Nat) (it : TeItem) (r : List Byte),
     (running s n k = false → exec (.teOpInvalid n k) s = .next s) ∧
     (running s n k = true → teFetch s n k .none = (s1, none) → exec (.teOpInvalid n k) s = .next s1) ∧
     (running s n k = true → teFetch s n k .none = (s1, some (it, r)) → teValid r = true →
       exec (.teOpInvalid n k) s = .next s1) ∧
     (running s n k = true → teFetch s n k .none = (s1, some (it, r)) → teValid r = false →
       Completes (.teOpInvalid n k) s (fun t =>
         wbit (rget t .te n 0x20) eTeOpInvalid.bit = true ∧ (slot t n k).ending.isSome = true ∧ t.mem = s1.mem))) ∧
   (∀ (s : State) (n : Nat) (port : Bool) (ecc : Ecc),
     (core s n).teRun.find? (fun x => decide (x.kind ≠ 0) == port) = none → exec (.teOpComplete n port ecc) s = .next s) ∧
   (∀ (s : State) (n : Nat) (port : Bool) (x : TeRun) (ecc : Ecc),
     (core s n).teRun.find? (fun x => decide (x.kind ≠ 0) == port) = some x →
     (ecc ≠ .uncorr → Completes (.teOpComplete n port ecc) s (fun t =>
       (core t n).teRun = (core s n).teRun.erase x ∧
       (slot t n x.slot).inflight = markDone ((slot s n x.slot).inflight.map (fun f =>
         if f.order = x.order then { f with teLeft := f.teLeft - 1 } else f)) ∧
       (∀ f, (slot s n x.slot).inflight.find? (fun f => f.order = x.order && f.teLeft = 1) = some f →
         (slot t n x.slot).beatTe = ((slot s n x.slot).beatTe + stBeat f.record 1) % 2 ^ 32) ∧
       rget t .te n 0x110 = wd (min 0xFFFFFFFF ((rget s .te n 0x110).toNat + 1)))) ∧
     (ecc = .uncorr → Completes (.teOpComplete n port ecc) s (fun t =>
       wbit (rget t .te n 0x20) eTeAccEccUncorr.bit = true ∧ (core t n).teRun = (core s n).teRun ∧ t.mem = s.mem))))

/-! ### The Transfer Engine (R94, R157 to R161, R245 to R252) -/

/-- A stream of a slot fetches the next descriptor of its chain: the stream is ready for it, and the chain's index lies in the
image's section. -/
structure Sys2Proof.Machine.XeFetches (s : State) (n ph k i : Nat) (c : Chain) : Prop where
  owner : streamOwner s n ph = some (k, i)
  ready : streamReady s n ph k = true
  chain : (stream s n ph).chain = some c

/-- What the fetch of a stream's next descriptor answers (R157, R251). -/
def Sys2Proof.Machine.xeFetch (s : State) (n ph k : Nat) (c : Chain) (ecc : Ecc) : State × VaRead :=
  readVa 2 s n (slotAsid s n k) accImage
    ((slot s n k).rud + secOff (slot s n k) 4 + 64 * (c.first + (stream s n ph).next)) 0 64 (slot s n k).ctag ecc

/-- A stream of a slot is about to start the descriptor `r` of its chain, which the image has answered; `s1` is what the fetch
leaves. -/
structure Sys2Proof.Machine.XeStarts (s s1 : State) (n ph k i : Nat) (r : List Byte) (ecc : Ecc) : Prop where
  fetches : ∃ c, XeFetches s n ph k i c ∧ c.first + (stream s n ph).next < secCount (slot s n k) 4 ∧
    xeFetch s n ph k c ecc = (s1, .ok r)
  order : dOrder r = true → (stream s1 n ph).descs = []

/-- Every stream but one is as it was, and no memory, slot, strand or sync object changes. -/
def Sys2Proof.Machine.StreamFrame (s t : State) (n ph : Nat) : Prop :=
  t = { s with cores := t.cores } ∧ (∀ m j, (m, j) ≠ (n, ph) → stream t m j = stream s m j) ∧
  (∀ m j, slot t m j = slot s m j) ∧ (∀ m j, strand t m j = strand s m j) ∧ (∀ m o, syncObj t m o = syncObj s m o)

/-- The commands that start a descriptor, with the kind of each (R158). -/
def Sys2Proof.Machine.xeKinds : List ((Nat → Reader → Instr) × Nat) :=
  [(.xeCopy, 1), (.xeFill, 2), (.xeGather, 3), (.xeScatter, 4), (.xeAgen, 5), (.xePut, 6), (.xeGet, 7), (.xeSignal, 8),
    (.xeAtomic, 9), (.xeReducePut, 10)]

/-- A valid descriptor of each kind starts (R94, R158): it joins the stream's active ones at the restart offset and the stream goes on
to the next; an AGEN first reads its table (R158, R247); an invalid one ends the context with XE_DESC_INVALID (R161); a fetch that
faults stops the stream at the descriptor (R251), and one that meets poison ends the context (R217); ORDER waits for the descriptors
before; a stream that is not ready starts none. -/
def Obligations.XeDescriptors : Prop :=
  (∀ e ∈ xeKinds, ∀ (s s1 : State) (n ph k i : Nat) (r : List Byte) (ecc : Ecc), XeStarts s s1 n ph k i r ecc → dKind r = e.2 →
    (∀ (s2 : State) (tb : Option (List Byte)) (ti : Nat),
      (e.2 ≠ 5 → tb = none ∧ ti = 0 ∧ s2 = s1) →
      (e.2 = 5 → ∃ b, tb = some b ∧ readTable s1 n k (stream s1 n ph) r (eccAfter ecc 1) = (s2, .ok b ti)) →
      (descOk s2 n k r (tb.getD []) = true →
        Completes (e.1 n ⟨ph, ecc⟩) s (fun t =>
          let x := stream s n ph
          (∃ d : ActDesc, (stream t n ph).descs = x.descs ++ [d] ∧ d.idx = x.next ∧ d.record = r ∧
            d.issued = x.offset ∧ d.done = x.offset ∧ d.table = tb ∧ d.reads = [] ∧ d.pkts = []) ∧
          (stream t n ph).next = x.next + 1 ∧ (stream t n ph).chain = x.chain ∧ (stream t n ph).st = x.st ∧
          StreamFrame s2 t n ph)) ∧
      (descOk s2 n k r (tb.getD []) = false →
        exec (e.1 n ⟨ph, ecc⟩) s = .next (errCtx s2 eXeDescInvalid n k i))) ∧
    (∀ s2, e.2 = 5 → readTable s1 n k (stream s1 n ph) r (eccAfter ecc 1) = (s2, .invalid) →
      exec (e.1 n ⟨ph, ecc⟩) s = .next (errCtx s2 eXeDescInvalid n k i)) ∧
    (∀ s2 f ti, e.2 = 5 → readTable s1 n k (stream s1 n ph) r (eccAfter ecc 1) = (s2, .fault f ti) →
      exec (e.1 n ⟨ph, ecc⟩) s = .next (streamFault (modStream s2 n ph (fun x => { x with table := some ti })) n ph k i
        (stream s1 n ph).next 0 f 0 0 0)) ∧
    (∀ s2 er, e.2 = 5 → readTable s1 n k (stream s1 n ph) r (eccAfter ecc 1) = (s2, .poison er) →
      exec (e.1 n ⟨ph, ecc⟩) s = .next (endCtx s2 n k 5 er 3))) ∧
  (∀ e ∈ xeKinds, ∀ (s : State) (n ph : Nat) (ecc : Ecc),
    (streamOwner s n ph = none ∨ (stream s n ph).chain = none ∨
      (∃ k i, streamOwner s n ph = some (k, i) ∧ streamReady s n ph k = false) → exec (e.1 n ⟨ph, ecc⟩) s = .next s) ∧
    (∀ k i c, XeFetches s n ph k i c →
      (secCount (slot s n k) 4 ≤ c.first + (stream s n ph).next →
        exec (e.1 n ⟨ph, ecc⟩) s = .next (errCtx s eXeDescInvalid n k i)) ∧
      (c.first + (stream s n ph).next < secCount (slot s n k) 4 →
        (∀ s1 o f, xeFetch s n ph k c ecc = (s1, .fault o f) →
          exec (e.1 n ⟨ph, ecc⟩) s = .next (streamFault s1 n ph k i (stream s n ph).next 0 f 0 0 0)) ∧
        (∀ s1 er, xeFetch s n ph k c ecc = (s1, .poison er) →
          exec (e.1 n ⟨ph, ecc⟩) s = .next (endCtx s1 n k 5 er 3)) ∧
        (∀ s1 r, xeFetch s n ph k c ecc = (s1, .ok r) →
          (dKind r = e.2 → dOrder r = true → (stream s1 n ph).descs ≠ [] → exec (e.1 n ⟨ph, ecc⟩) s = .next s1) ∧
          (dKind r ≠ e.2 → 1 ≤ dKind r → dKind r ≤ 10 → exec (e.1 n ⟨ph, ecc⟩) s = .next s) ∧
          (dKind r = 0 ∨ 10 < dKind r → exec (e.1 n ⟨ph, ecc⟩) s = .next (errCtx s1 eXeDescInvalid n k i))))))

/-- The length of the next access of a descriptor with the element index `idx` (R245): within the run, the 256 B block of the source
or, of a FILL, of the destination, and the destination's 64 KiB page. -/
def accessLen (d : ActDesc) (idx : Nat) : Nat :=
  let t := d.table.getD []
  let p := descAddr d.record t d.issued idx
  min (min p.2.2 (dTotal d.record t - d.issued))
    (if dKind d.record = 2 then toBoundary p.2.1 256 else min (toBoundary p.1 256) (toBoundary p.2.1 0x10000))

/-- Where in a slot's window the element index of the next access of a GATHER or SCATTER stands (R159). -/
def listAt (s : State) (n k : Nat) (d : ActDesc) : Nat :=
  winDpa s n k (leAt d.record 0x20 4 + 4 * (d.issued / max 1 (dLen d.record)))

/-- A stream makes the next access of the descriptor `d` (R94, R245). -/
structure Sys2Proof.Machine.XeIssues (s : State) (n ph k i : Nat) (d : ActDesc) : Prop where
  owner : streamOwner s n ph = some (k, i)
  served : running s n k = true
  runs : (stream s n ph).st = .run
  going : (stream s n ph).stopping = false
  next : (stream s n ph).descs.find? (fun d => !descIssued d) = some d
  isLocal : dFabric d.record = false

/-- The index list of a GATHER or SCATTER lies in the window (R159). -/
def Sys2Proof.Machine.ListInside (s : State) (n k : Nat) (d : ActDesc) : Prop :=
  leAt d.record 0x20 4 + 4 * dNelem d.record ≤ winBytes s n k

/-- The element index of the access is `idx`, read clean from the window by a GATHER or SCATTER, 0 for the others; `s1` is what the
read leaves. -/
def Sys2Proof.Machine.XeIndexed (s s1 : State) (n k : Nat) (d : ActDesc) (ecc : Ecc) (idx : Nat) : Prop :=
  (dKind d.record = 3 ∨ dKind d.record = 4 → ListInside s n k d ∧
    checkRead s (listAt s n k d) 4 ecc (slot s n k).ctag = (s1, none) ∧ idx = leNat (readMem s1 (listAt s n k d) 4)) ∧
  (dKind d.record ≠ 3 → dKind d.record ≠ 4 → s1 = s ∧ idx = 0)

/-- The accesses of a stream (R94, R217, R245, R246): a FILL writes its pattern at once, and only there; a read of a COPY,
GATHER, SCATTER or AGEN takes a tracker entry, when one of the 512 is free, and writes nothing; an address outside its
space is XE_DESC_INVALID, a fault of either translation stops the stream before the access issues, and a poisoned
index ends the context; data that returns is written at its destination, and only there. Chains (R94, R151, R249): a
waiting chain starts on its free stream; a complete descriptor leaves, and with the last of a chain the stream is idle
again; a translation fault stops the stream and puts its slot into FAULTED, a HALTED one with its halt pending. The
choices that it rests on are the model's: log entry 36. -/
def Obligations.XeDescriptorWork : Prop :=
  ((∀ (s s1 s2 : State) (n ph k i idx dd : Nat) (d : ActDesc) (ecc : Ecc), XeIssues s n ph k i d → XeIndexed s s1 n k d ecc idx →
     dKind d.record = 2 →
     xeAddr s1 n k (dSpB d.record) (descAddr d.record (d.table.getD []) d.issued idx).2.1 (accessLen d idx) accWrite =
       (s2, .ok dd) →
     keyAbsent s2 dd = false → (∀ g ∈ granules dd (accessLen d idx), deadGranule s2 (64 * g) = false) →
     Memory.wf s2.mem = true →
     Completes (.xeReadIssue n ⟨ph, ecc⟩) s (fun t =>
       readMem t dd (accessLen d idx) = fillBytes (dNelem d.record) d.issued (accessLen d idx) ∧
       (∀ a, a < dd ∨ dd + accessLen d idx ≤ a → memGet t.mem a = memGet s2.mem a) ∧
       (∀ e ∈ (stream s n ph).descs, e.idx = d.idx →
         { e with issued := e.issued + accessLen d idx, done := e.done + accessLen d idx } ∈ (stream t n ph).descs) ∧
       (∀ m j, slot t m j = slot s m j))) ∧
   (∀ (s s1 s2 s3 : State) (n ph k i idx sd dd : Nat) (d : ActDesc) (ecc : Ecc), XeIssues s n ph k i d →
     XeIndexed s s1 n k d ecc idx → dKind d.record ≠ 2 →
     xeAddr s1 n k (dSpA d.record) (descAddr d.record (d.table.getD []) d.issued idx).1 (accessLen d idx) accRead =
       (s2, .ok sd) →
     xeAddr s2 n k (dSpB d.record) (descAddr d.record (d.table.getD []) d.issued idx).2.1 (accessLen d idx) accWrite =
       (s3, .ok dd) →
     (readsOut s3 n < 512 → Completes (.xeReadIssue n ⟨ph, ecc⟩) s (fun t =>
       (∃ e ∈ (stream t n ph).descs, e.idx = d.idx ∧ e.issued = d.issued + accessLen d idx ∧
         ∃ q, e.reads = d.reads ++ [q] ∧ q.src = sd ∧ q.dst = dd ∧ q.len = accessLen d idx ∧ q.off = d.issued) ∧
       StreamFrame s3 t n ph)) ∧
     (512 ≤ readsOut s3 n → exec (.xeReadIssue n ⟨ph, ecc⟩) s = .next s3)) ∧
   (∀ (s s1 s2 : State) (n ph k i idx : Nat) (d : ActDesc) (ecc : Ecc) (f : FaultInfo), XeIssues s n ph k i d →
     XeIndexed s s1 n k d ecc idx →
     let a := descAddr d.record (d.table.getD []) d.issued idx
     let src := if dKind d.record = 2 then (s1, XeAddr.ok 0) else xeAddr s1 n k (dSpA d.record) a.1 (accessLen d idx) accRead
     (src = (s2, .invalid) → exec (.xeReadIssue n ⟨ph, ecc⟩) s = .next (errCtx s2 eXeDescInvalid n k i)) ∧
     (src = (s2, .fault f) →
       exec (.xeReadIssue n ⟨ph, ecc⟩) s = .next (streamFault s2 n ph k i d.idx d.issued f 0 0 0)) ∧
     (∀ u sd, src = (u, .ok sd) →
       (xeAddr u n k (dSpB d.record) a.2.1 (accessLen d idx) accWrite = (s2, .invalid) →
         exec (.xeReadIssue n ⟨ph, ecc⟩) s = .next (errCtx s2 eXeDescInvalid n k i)) ∧
       (xeAddr u n k (dSpB d.record) a.2.1 (accessLen d idx) accWrite = (s2, .fault f) →
         exec (.xeReadIssue n ⟨ph, ecc⟩) s = .next (streamFault s2 n ph k i d.idx d.issued f 0 0 0)))) ∧
   (∀ (s s1 : State) (n ph k i er : Nat) (d : ActDesc) (ecc : Ecc), XeIssues s n ph k i d →
     dKind d.record = 3 ∨ dKind d.record = 4 →
     (¬ ListInside s n k d → exec (.xeReadIssue n ⟨ph, ecc⟩) s = .next (errCtx s eXeDescInvalid n k i)) ∧
     (ListInside s n k d → checkRead s (listAt s n k d) 4 ecc (slot s n k).ctag = (s1, some er) →
       exec (.xeReadIssue n ⟨ph, ecc⟩) s = .next (endCtx s1 n k 5 er 3))) ∧
   (∀ (s : State) (n ph : Nat) (ecc : Ecc),
     (streamOwner s n ph = none ∨ (stream s n ph).st ≠ .run ∨ (stream s n ph).stopping = true ∨
       (stream s n ph).descs.find? (fun d => !descIssued d) = none ∨
       (∃ k i, streamOwner s n ph = some (k, i) ∧ running s n k = false) ∨
       (∃ d, (stream s n ph).descs.find? (fun d => !descIssued d) = some d ∧ dFabric d.record = true) →
       exec (.xeReadIssue n ⟨ph, ecc⟩) s = .next s)) ∧
   (∀ (s : State) (n ph k i j idx : Nat) (q : ReadEnt) (ecc : Ecc), streamOwner s n ph = some (k, i) →
     ((stream s n ph).descs.flatMap (fun d => d.reads.map (fun q => (d.idx, q))))[j]? = some (idx, q) →
     let u := modDesc s n ph idx (fun d => { d with reads := d.reads.erase q })
     (∀ v, ecc ≠ .uncorr → (slot s n k).ending = none → (slot s n k).st ≠ .preempting →
       checkRead u q.src q.len ecc (slot s n k).ctag = (v, none) →
       keyAbsent v q.src = false → keyAbsent v q.dst = false →
       (∀ g ∈ granules q.dst q.len, deadGranule v (64 * g) = false) → Memory.wf v.mem = true →
       Completes (.xeReadDataReturn n ph j ecc) s (fun t =>
         readMem t q.dst q.len = readMem v q.src q.len ∧
         (∀ a, a < q.dst ∨ q.dst + q.len ≤ a → memGet t.mem a = memGet v.mem a) ∧
         (∀ m j, slot t m j = slot s m j) ∧ (∀ m o, syncObj t m o = syncObj s m o) ∧
         (∀ b i off, b ≠ .brg → rget t b i off = rget v b i off))) ∧
     (∀ v er, ecc ≠ .uncorr → (slot s n k).ending = none → (slot s n k).st ≠ .preempting →
       checkRead u q.src q.len ecc (slot s n k).ctag = (v, some er) →
       exec (.xeReadDataReturn n ph j ecc) s = .next (endCtx v n k 5 er 3)) ∧
     (ecc ≠ .uncorr → (slot s n k).ending.isSome = true → exec (.xeReadDataReturn n ph j ecc) s = .next u) ∧
     (ecc ≠ .uncorr → (slot s n k).ending = none → (slot s n k).st = .preempting →
       Completes (.xeReadDataReturn n ph j ecc) s (fun t => t.mem = s.mem ∧
         ∀ d ∈ (stream t n ph).descs, d.idx = idx → d.lost.isSome = true)) ∧
     (ecc = .uncorr → Completes (.xeReadDataReturn n ph j ecc) s (fun t =>
       wbit (rget t .xe n 0x20) eXeBufferEcc.bit = true ∧ t.mem = s.mem))) ∧
   (∀ (s : State) (n ph j : Nat) (ecc : Ecc), streamOwner s n ph = none ∨
     ((stream s n ph).descs.flatMap (fun d => d.reads.map (fun q => (d.idx, q))))[j]? = none →
     exec (.xeReadDataReturn n ph j ecc) s = .next s)) ∧
  ((∀ (s : State) (n ph k i : Nat) (c : Chain) (rest : List Chain), streamOwner s n ph = some (k, i) →
     (stream s n ph).waiting = c :: rest → running s n k = true → (stream s n ph).st = .idle →
     Completes (.xeChainStart n ph) s (fun t =>
       (stream t n ph).st = .run ∧ (stream t n ph).chain = some c ∧ (stream t n ph).waiting = rest ∧
       (stream t n ph).next = 0 ∧ (stream t n ph).descs = [] ∧
       (∀ f ∈ (slot s n k).inflight, f.order = c.order →
         { f with chainMask := f.chainMask ||| (1 <<< c.k) } ∈ (slot t n k).inflight) ∧
       t = { s with cores := t.cores } ∧ OtherSlots s t n k)) ∧
   (∀ (s : State) (n ph : Nat), streamOwner s n ph = none ∨ (stream s n ph).waiting = [] ∨ (stream s n ph).st ≠ .idle ∨
     (∃ k i, streamOwner s n ph = some (k, i) ∧ running s n k = false) → exec (.xeChainStart n ph) s = .next s) ∧
   (∀ (s : State) (n ph k i : Nat) (d : ActDesc) (c : Chain), streamOwner s n ph = some (k, i) →
     (slot s n k).ending = none → (slot s n k).saving = false → (stream s n ph).st ≠ .stopped →
     (stream s n ph).descs.find? descDone = some d → (stream s n ph).chain = some c →
     Completes (.xeDescComplete n ph) s (fun t =>
       (∀ e ∈ (stream t n ph).descs, e.idx ≠ d.idx) ∧
       (dSig d.record = false → dEnd d.record = true → (stream s n ph).descs.filter (fun e => e.idx ≠ d.idx) = [] →
         (stream t n ph).st = .idle ∧ (stream t n ph).chain = none ∧
         (slot t n k).inflight = markDone ((slot s n k).inflight.map (fun f =>
           if f.order = c.order then { f with xeLeft := f.xeLeft - 1 } else f))))) ∧
   (∀ (s : State) (n ph : Nat), streamOwner s n ph = none ∨ (stream s n ph).st = .stopped ∨
     (stream s n ph).descs.find? descDone = none ∨ (stream s n ph).chain = none ∨
     (∃ k i, streamOwner s n ph = some (k, i) ∧ ((slot s n k).ending.isSome ∨ (slot s n k).saving = true)) →
     exec (.xeDescComplete n ph) s = .next s) ∧
   (∀ (s : State) (n ph k i : Nat) (info : FaultInfo), streamOwner s n ph = some (k, i) → (stream s n ph).chain.isSome = true →
     ((slot s n k).ending = none → (stream s n ph).st ≠ .stopped → (stream s n ph).faultPending = false →
       Completes (.xeTranslationFault n ph info) s (fun t =>
         ((slot s n k).st = .active ∨ (slot s n k).st = .waiting ∨ (slot s n k).st = .halted → (slot t n k).st = .faulted) ∧
         ((slot s n k).st = .halted → (slot t n k).haltPending = true) ∧
         ((slot s n k).st = .preempting → (slot t n k).st = .preempting) ∧
         (stream t n ph).st = .faulted ∧ (stream t n ph).faultPending = true ∧
         wbit (rget t .xe n 0x20) eXeTranslationFault.bit = true ∧
         (cluster t (coreClu n)).seq = ((cluster s (coreClu n)).seq + 1) % 2 ^ 32)) ∧
     ((slot s n k).ending.isSome ∨ (stream s n ph).st = .stopped ∨ (stream s n ph).faultPending = true →
       exec (.xeTranslationFault n ph info) s = .next s)) ∧
   (∀ (s : State) (n ph : Nat) (info : FaultInfo), streamOwner s n ph = none ∨ (stream s n ph).chain = none →
     exec (.xeTranslationFault n ph info) s = .next s))

/-! ### The MMU (R233 to R244, R252, R253, R266) -/

/-- A walk (R239, R241, R248): from the deepest cached table or the root of the ASID, it gives the DPA of a present,
permitted leaf of the partition and caches it, or the fault, and then caches no translation; MMU_WALKS counts it; a VA
beyond 48 bits and an ASID without a valid root fault at once; a poisoned table and one outside the partition are
recorded; a quiesced MMU starts none (R57). Invalidations (R242, R266): from the command on no cached translation that
it covers is left in the MMUs of its scope and the micro-TLBs of their cores; it is in progress, MMU_INV_STATUS BUSY,
until the accesses that it waits for are gone; a second one while it is in progress records MMU_INV_OVERLAP and starts
nothing; after 10 ms MMU_INV_TIMEOUT is recorded once, and it goes on. The oldest record goes to the fault queue in
host memory when it has room and the bus is the function's, and the tail moves on, and the records after it keep their
order (R252, R253, R284); with no record, a full queue or one in error nothing is posted. The choices that it rests on
are the model's: log entries 7 and 33. -/
def Obligations.MmuWork : Prop :=
  ((∀ (s : State) (n k va acc : Nat) (ecc : Ecc), accepting s .mmu (coreClu n) = false →
     exec (.mmuWalk n k va acc ecc) s = .next s) ∧
   (∀ (s : State) (n k va acc : Nat) (ecc : Ecc), accepting s .mmu (coreClu n) = true → coreClu n < 64 →
     let v := walkEcc s (coreClu n) (partOfCore s n) (slotAsid s n k) va acc (coreJ n) (slot s n k).ctag ecc
     (2 ^ 48 ≤ va → Completes (.mmuWalk n k va acc ecc) s (fun t =>
       (cluster t (coreClu n)).lastWalk = some (ftVaRange, false) ∧
       (cluster t (coreClu n)).tlb = (cluster v (coreClu n)).tlb ∧ t.mem = v.mem)) ∧
     (va < 2 ^ 48 → asidValid s (coreClu n) (slotAsid s n k) = false → Completes (.mmuWalk n k va acc ecc) s (fun t =>
       (cluster t (coreClu n)).lastWalk = some (ftAsidInvalid, false) ∧
       (cluster t (coreClu n)).tlb = (cluster v (coreClu n)).tlb ∧ t.mem = v.mem)) ∧
     (va < 2 ^ 48 → asidValid s (coreClu n) (slotAsid s n k) = true →
       let u := bump v .mmu (coreClu n) 0x118 1
       let w := walkStart u (coreClu n) (slotAsid s n k) va
       let r := walkFrom u (partOfCore s n) va acc w.1 w.2
       (∀ d, r.res = .ok d →
         Completes (.mmuWalk n k va acc ecc) s (fun t =>
           (cluster t (coreClu n)).lastWalk = some (d, true) ∧
           (∃ e, (cluster t (coreClu n)).tlb.head? = some e ∧ e.asid = slotAsid s n k ∧ e.part = partOfCore s n ∧
             e.va ≤ va ∧ va < e.va + e.size ∧ e.dpa + (va - e.va) = d ∧ leafPermits e.entry acc = true) ∧
           t.mem = v.mem ∧ t.cores = v.cores ∧
           rget t .mmu (coreClu n) 0x118 = wd (min 0xFFFFFFFF ((rget v .mmu (coreClu n) 0x118).toNat + 1)))) ∧
       (∀ f, r.res = .fault f →
         Completes (.mmuWalk n k va acc ecc) s (fun t =>
           (cluster t (coreClu n)).lastWalk = some (f.type, false) ∧
           (cluster t (coreClu n)).tlb = (cluster v (coreClu n)).tlb ∧ t.mem = v.mem ∧
           (f.type = ftBounds → wbit (rget t .mmu (coreClu n) 0x20) eMmuBounds.bit = true) ∧
           (r.poison.isSome = true → wbit (rget t .mmu (coreClu n) 0x20) eMmuWalkPoison.bit = true) ∧
           rget t .mmu (coreClu n) 0x118 = wd (min 0xFFFFFFFF ((rget v .mmu (coreClu n) 0x118).toNat + 1))))))) ∧
  ((∀ (c : Req → Nat → Word → Instr) (op : Nat),
     (c, op) ∈ [(Instr.mmuInvVaRange, 1), (Instr.mmuInvAsid, 2), (Instr.mmuInvAll, 3), (Instr.mmuInvKey, 4)] →
     ∀ (req : Req) (clu : Nat) (w : Word), TurnsAway (c req clu w) req .mmu clu 0x100 ∧
     ∀ (s : State), Serves s req .mmu clu →
       (∀ o, (cluster s clu).inv = some o →
         exec (c req clu w) s = .next (recErr s eMmuInvOverlap clu 0xFF 0 noCtag)) ∧
       ((cluster s clu).inv = none → accepting s .mmu clu = false → exec (c req clu w) s = .next s) ∧
       (clu < 64 → (cluster s clu).inv = none → accepting s .mmu clu = true →
         Completes (c req clu w) s (fun t =>
           ∃ o, (cluster t clu).inv = some o ∧ o.op = op ∧ o.asid = fld w 7 0 ∧ o.key = fld w 21 16 ∧ o.scope = wbit w 11 ∧
             o.lo = (fld (rget s .mmu clu 0x104) 31 16) * 65536 + (fld (rget s .mmu clu 0x108) 15 0) * 2 ^ 32 ∧
             o.hi = o.lo + 65536 * max 1 (rget s .mmu clu 0x10C).toNat ∧ o.startUs = s.us ∧
             (∀ x ∈ invScope s clu o, (∀ e ∈ (cluster t x).tlb, invHits o e = false) ∧
               (∀ e ∈ (cluster t x).wc, invHitsWc o e = false) ∧
               ∀ n, coreClu n = x → ∀ e ∈ (core t n).utlb, invHits o e = false) ∧
             rget t .mmu clu 0x110 = 1 ∧ t.mem = s.mem))) ∧
   (∀ (s : State) (clu : Nat), (cluster s clu).inv = none →
     exec (.mmuInvComplete clu) s = .next s ∧ exec (.mmuInvTimeout clu) s = .next s) ∧
   (∀ (s : State) (clu : Nat) (o : InvOp), (cluster s clu).inv = some o →
     let waits := (invScope s clu o).any (fun c => invOutstanding s o c || keyOutstanding s o c)
     (waits = false → exec (.mmuInvComplete clu) s =
       .next (rset (modCluster s clu (fun c => { c with inv := none })) .mmu clu 0x110 0)) ∧
     (waits = true → exec (.mmuInvComplete clu) s = .next s) ∧
     (wbit (rget s .mmu clu 0x110) 1 = false → o.startUs + 10000 ≤ s.us →
       Completes (.mmuInvTimeout clu) s (fun t =>
         wbit (rget t .mmu clu 0x20) eMmuInvTimeout.bit = true ∧ wbit (rget t .mmu clu 0x110) 1 = true ∧
         (cluster t clu).inv = some o ∧ t.mem = s.mem)) ∧
     (wbit (rget s .mmu clu 0x110) 1 = true ∨ s.us < o.startUs + 10000 → exec (.mmuInvTimeout clu) s = .next s))) ∧
  ((∀ (s : State) (clu : Nat) (r : List Byte) (rest : List (List Byte)), (cluster s clu).holdBuf = r :: rest →
     fqFull s clu = false → queueBus s clu = true → (cluster s clu).fqError = false → clu < 64 →
     Completes (.faultRecordPost clu) s (fun t =>
       Out.hostWrite (queueFunc s clu) (queueAddr s clu 0xA00 (fqLog s clu) (cluster s clu).fqTail 64) r ∈ t.out ∧
       (cluster t clu).fqTail = ((cluster s clu).fqTail + 1) % 65536 ∧ rest <+: (cluster t clu).holdBuf ∧ t.mem = s.mem)) ∧
   (∀ (s : State) (clu : Nat), (cluster s clu).holdBuf = [] ∨ fqFull s clu = true ∨ queueBus s clu = false ∨
     (cluster s clu).fqError = true → exec (.faultRecordPost clu) s = .next s))

/-! ### The queues of a cluster (R277 to R286, R290, R292) -/

/-- The completion of a submission entry that reaches no SQ (R282). -/
def Sys2Proof.Machine.SeCompletion (s t : State) (clu i : Nat) (e : SubEnt) (ctag res : Nat) : Prop :=
  (cq t clu (ringCq s clu i)).held = (cq s clu (ringCq s clu i)).held ++
    [complEntry (seUser e.data) ctag res (seOp e.data) i (seSlot e.data) (seCore e.data)]

/-- The offset of the CFG register of a queue: 0 to 3 rings, 4 to 7 completion queues, 8 the fault queue (R290, R292). -/
def Sys2Proof.Machine.queueOff (q : Nat) : Nat :=
  if q < 4 then 0x808 + 0x40 * q else if q < 8 then 0x908 + 0x40 * (q - 4) else 0xA08

/-- A ring may fetch: it is enabled, its cluster accepts work, no reset holds it and the bus is the function's (R57, R278, R289). -/
structure Sys2Proof.Machine.RingFetches (s : State) (clu i : Nat) : Prop where
  on : (ring s clu i).enabled = true
  work : accepting s .clu clu = true
  chip : s.chipReset = none
  part : mget s.partReset (partOfClu s clu) = none
  bus : queueBus s clu = true

/-- The next entry of a ring, with its OP, is valid and names slot `seSlot` of core `n` (R279 to R281). -/
structure Sys2Proof.Machine.RingTakes (s : State) (clu i n op : Nat) (e : SubEnt) : Prop where
  next : ringNext s clu i = some e
  valid : seValid s clu e.data = true
  isOp : seOp e.data = op
  target : seTarget s clu e.data = some n

/-- An entry has left its ring (R281). -/
def Sys2Proof.Machine.RingTook (s t : State) (clu i : Nat) : Prop := (ring t clu i).fetched = (ring s clu i).fetched.drop 1

/-- The slot registers that an INSTALL entry gives a FREE slot (R280). -/
def Sys2Proof.Machine.installRegs (s : State) (n k : Nat) (b : List Byte) : State :=
  if (slot s n k).st = .free && !(slot s n k).restoring then
    (List.range 8).foldl (fun s j => rset s .sq n (0x408 + 4 * j + 0x40 * k)
      (wd (leAt b (0x10 + 4 * j) 4) &&& (regRow .sq (0x408 + 4 * j)).elim 0 (·.mask))) s
  else s

/-- Rings (R278 to R281, R285): a doorbell publishes entries or is SR_DOORBELL_BAD; a fetch takes published entries in
order, each from its position in the buffer, and moves the fetch index, at most 16 ahead of dispatch; ENABLE starts a
ring and clears its ERROR, and while it is 1 a write changes ENABLE alone; a failed or late access clears ENABLE and
records Q_DMA_ERROR, of every queue. Ring commands (R280 to R282): the entry leaves the ring when nothing holds it;
NOP answers OK, an invalid entry INVALID; an entry whose CTAG is not the slot's answers NOT_FAULTED for RESUME and
STALE for the others; a CTX_RESET of a FREE slot answers NO_TASK, and of a live context ends it, or its group, and
completes later; INSTALL loads the slot's registers and starts the task, or answers its condition; PREEMPT, RESUME,
HALT, UNHALT and STEP reach the SQ. RING_DISPATCH takes an entry of any of them; a command whose entry is not next
changes nothing. The choices that it rests on are the model's: log entry 52. -/
def Obligations.Rings : Prop :=
  ((∀ (req : Req) (clu i : Nat) (w : Word), TurnsAway (.srDoorbell req clu i w) req .clu clu (0x810 + 0x40 * i) ∧
     ∀ (s : State), Serves s req .clu clu →
     let r := ring s clu i
     let cnt := (fld w 15 0 + 65536 - r.head) % 65536
     (cnt ≤ 2 ^ fld (srCfg s clu i) 3 0 → ringCount r ≤ cnt →
       Completes (.srDoorbell req clu i w) s (fun t =>
         ring t clu i = { r with prod := fld w 15 0 } ∧ t = { s with clusters := t.clusters } ∧
         (∀ j, j ≠ i → ring t clu j = ring s clu j))) ∧
     ((2 ^ fld (srCfg s clu i) 3 0 < cnt ∨ cnt < ringCount r) →
       exec (.srDoorbell req clu i w) s = .next (recErr s eSrDoorbellBad clu i 0 noCtag))) ∧
   (∀ (s : State) (clu i m : Nat) (data : List Byte), RingFetches s clu i → data.length / 64 = m → 0 < m →
     m ≤ ringCount (ring s clu i) → (ring s clu i).fetched.length + m ≤ 16 →
     Completes (.srFetch clu i data) s (fun t =>
       (ring t clu i).head = ((ring s clu i).head + m) % 65536 ∧
       (ring t clu i).fetched.map (·.data) =
         (ring s clu i).fetched.map (·.data) ++ (List.range m).map (fun x => slice data (64 * x) 64) ∧
       (ring t clu i).prod = (ring s clu i).prod ∧ t.mem = s.mem ∧
       (∀ x, x < m → Sent t (.hostRead (queueFunc s clu)
         (queueAddr s clu (0x800 + 0x40 * i) (fld (srCfg s clu i) 3 0) ((ring s clu i).head + x) 64) 64)))) ∧
   (∀ (s : State) (clu i : Nat) (data : List Byte), ¬ RingFetches s clu i ∨ data.length < 64 ∨
     ringCount (ring s clu i) < data.length / 64 ∨ 16 < (ring s clu i).fetched.length + data.length / 64 →
     exec (.srFetch clu i data) s = .next s) ∧
   (∀ (req : Req) (clu q : Nat) (w : Word), TurnsAway (.queueEnable req clu q w) req .clu clu (queueOff q)) ∧
   (∀ (s : State) (req : Req) (clu i : Nat) (w : Word), i < 4 → clu < 64 → Serves s req .clu clu →
     Completes (.queueEnable req clu i w) s (fun t =>
       (ring t clu i).enabled = wbit w 16 ∧ (ring t clu i).error = ((ring s clu i).error && !wbit w 16) ∧
       (ring t clu i).prod = (ring s clu i).prod ∧ (ring t clu i).head = (ring s clu i).head ∧
       wbit (srCfg t clu i) 16 = wbit w 16 ∧
       (wbit (srCfg s clu i) 16 = true → fld (srCfg t clu i) 15 0 = fld (srCfg s clu i) 15 0) ∧
       (wbit (srCfg s clu i) 16 = false → fld (srCfg t clu i) 3 0 = clamp 4 12 (fld w 3 0)) ∧ t.mem = s.mem)) ∧
   (∀ (s : State) (clu q : Nat) (c : Nat → Nat → Instr), c ∈ [Instr.qDmaError, Instr.qDmaTimeout] → clu < 64 →
     Completes (c clu q) s (fun t =>
       (q < 4 → (ring t clu q).enabled = false ∧ (ring t clu q).error = true ∧ wbit (rget t .clu clu (queueOff q)) 16 = false) ∧
       (4 ≤ q → q < 8 → (cq t clu (q - 4)).enabled = false ∧ (cq t clu (q - 4)).error = true ∧
         wbit (rget t .clu clu (queueOff q)) 8 = false) ∧
       (8 ≤ q → (cluster t clu).fqEnabled = false ∧ (cluster t clu).fqError = true ∧
         wbit (rget t .clu clu (queueOff q)) 8 = false) ∧
       wbit (rget t .clu clu 0x20) eQDmaError.bit = true ∧ t.mem = s.mem))) ∧
  ((∀ (s : State) (clu i : Nat), ringNext s clu i = none →
     ∀ c ∈ [Instr.ringDispatch, .ringNop, .ringInvalid, .ringCtxReset, .ringInstall], exec (c clu i) s = .next s) ∧
   (∀ (s : State) (clu i : Nat) (e : SubEnt), ringNext s clu i = some e →
     (seValid s clu e.data = true → exec (.ringInvalid clu i) s = .next s) ∧
     (∀ c op, (c, op) ∈ [(Instr.ringNop, 0), (.ringInstall, 1), (.ringCtxReset, 7)] →
       seValid s clu e.data = false ∨ seOp e.data ≠ op → exec (c clu i) s = .next s)) ∧
   (∀ (s : State) (clu i n : Nat) (e : SubEnt), RingTakes s clu i n 0 e → ∀ c ∈ [Instr.ringDispatch, .ringNop],
     Completes (c clu i) s (fun t =>
       RingTook s t clu i ∧ SeCompletion s t clu i e (slot s n (seSlot e.data)).ctag.toNat resOk ∧ t.cores = s.cores ∧
       t.mem = s.mem)) ∧
   (∀ (s : State) (clu i : Nat) (e : SubEnt), ringNext s clu i = some e → seValid s clu e.data = false →
     ∀ c ∈ [Instr.ringDispatch, .ringInvalid],
     Completes (c clu i) s (fun t => RingTook s t clu i ∧ t.cores = s.cores ∧ t.mem = s.mem ∧
       (seOp e.data = 1 ∨ seTarget s clu e.data = none → SeCompletion s t clu i e 0xFFFFFFFF resInvalid) ∧
       (∀ n, seOp e.data ≠ 1 → seTarget s clu e.data = some n →
         SeCompletion s t clu i e (slot s n (seSlot e.data)).ctag.toNat resInvalid))) ∧
   (∀ (s : State) (clu i n op : Nat) (e : SubEnt), RingTakes s clu i n op e → 2 ≤ op → seCtag e.data ≠ 0 →
     seCtag e.data ≠ (slot s n (seSlot e.data)).ctag.toNat →
     ∀ c ∈ (if op = 7 then [Instr.ringDispatch, .ringCtxReset] else [Instr.ringDispatch]),
     Completes (c clu i) s (fun t => RingTook s t clu i ∧ t.cores = s.cores ∧ t.mem = s.mem ∧
       SeCompletion s t clu i e (slot s n (seSlot e.data)).ctag.toNat (if op = 3 then resNotFaulted else 9))) ∧
   (∀ (s : State) (clu i n : Nat) (e : SubEnt), RingTakes s clu i n 7 e →
     seCtag e.data = 0 ∨ seCtag e.data = (slot s n (seSlot e.data)).ctag.toNat →
     ∀ c ∈ [Instr.ringDispatch, .ringCtxReset],
     ((slot s n (seSlot e.data)).st = .free →
       Completes (c clu i) s (fun t => RingTook s t clu i ∧
         SeCompletion s t clu i e (slot s n (seSlot e.data)).ctag.toNat resNoTask ∧ t.cores = s.cores)) ∧
     ((slot s n (seSlot e.data)).st ≠ .free → bit (seFlags e.data) 2 = false →
       Completes (c clu i) s (fun t => RingTook s t clu i ∧ (slot t n (seSlot e.data)).ending.isSome = true ∧
         ((slot s n (seSlot e.data)).ending = none →
           (slot t n (seSlot e.data)).ending.map (fun x => (x.cause, x.outcome)) = some (3, 3)) ∧
         t.ctxResets = s.ctxResets ++ [⟨clu, i, seUser e.data, e.num, n, seSlot e.data,
           (slot s n (seSlot e.data)).ctag.toNat, [(n, seSlot e.data)]⟩] ∧
         BusyIs t n (seSlot e.data) ∧ OtherSlots s t n (seSlot e.data) ∧ t.mem = s.mem)) ∧
     ((slot s n (seSlot e.data)).st ≠ .free → bit (seFlags e.data) 2 = true →
       Completes (c clu i) s (fun t => RingTook s t clu i ∧
         (∀ u ∈ partSlots s (partOfCore s n), slotGroup s u.1 u.2 = slotGroup s n (seSlot e.data) →
           (slot t u.1 u.2).ending.isSome = true) ∧
         BusyIs t n (seSlot e.data) ∧ t.mem = s.mem))) ∧
   (∀ (s : State) (clu i n : Nat) (e : SubEnt), RingTakes s clu i n 1 e →
     let k := seSlot e.data
     let s1 := installRegs s n k e.data
     ∀ c ∈ [Instr.ringDispatch, .ringInstall],
     (frozen s = true → Completes (c clu i) s (fun t => RingTook s t clu i ∧ ResultIs t n k resDenied ∧ SlotsKept s t)) ∧
     (frozen s = false → (slot s n k).ending.isSome = true →
       Completes (c clu i) s (fun t => RingTook s t clu i ∧ (core t n).heldCmd.isSome = true ∧ BusyIs t n k ∧ SlotsKept s t)) ∧
     (frozen s = false → (slot s n k).ending = none → (core s n).orphans.any (fun o => o.slot = k) = true →
       Completes (c clu i) s (fun t => RingTook s t clu i ∧ (core t n).deferred = some k ∧ BusyIs t n k ∧
         OtherSlots s t n k ∧ t.mem = s.mem)) ∧
     (frozen s = false → (slot s n k).ending = none → (core s n).orphans.any (fun o => o.slot = k) = false →
       (installCheck s1 n k ≠ resOk → Completes (c clu i) s (fun t =>
         RingTook s t clu i ∧ ResultIs t n k (installCheck s1 n k) ∧ SlotsKept s t)) ∧
       (installCheck s1 n k = resOk → wbit (slotReg s1 n k 0x408) 21 = true → Completes (c clu i) s (fun t =>
         RingTook s t clu i ∧ (slot t n k).restoring = true ∧ (slot t n k).gen = nextGen (slot s n k).gen ∧ BusyIs t n k ∧
         OtherSlots s t n k)) ∧
       (installCheck s1 n k = resOk → wbit (slotReg s1 n k 0x408) 21 = false → Completes (c clu i) s (fun t =>
         RingTook s t clu i ∧ (slot t n k).st = .active ∧ (slot t n k).gen = nextGen (slot s n k).gen ∧
         (slot t n k).ctag = mkCtag n k (nextGen (slot s n k).gen) ∧ (core t n).ringCmd = none ∧ OtherSlots s t n k ∧
         ResultIs t n k resOk)))) ∧
   (∀ (s : State) (clu i n op : Nat) (e : SubEnt), RingTakes s clu i n op e → 2 ≤ op → op ≤ 6 →
     seCtag e.data = 0 ∨ seCtag e.data = (slot s n (seSlot e.data)).ctag.toNat →
     let s1 := modRing (leaveA1 s) clu i (fun r => { r with fetched := r.fetched.drop 1, inProgress := r.inProgress ++ [e.num] })
     exec (.ringDispatch clu i) s = .next (sqPerform
       (modCore s1 n (fun c => { c with ringCmd := some (i, seUser e.data, op, e.num) })) n (seSlot e.data) op) ∧
     (op = 2 → frozen s = false → (slot s n (seSlot e.data)).ending = none → (slot s n (seSlot e.data)).st = .active →
       Completes (.ringDispatch clu i) s (fun t => RingTook s t clu i ∧ (slot t n (seSlot e.data)).st = .preempting ∧
         ResultIs t n (seSlot e.data) resOk ∧ OtherSlots s t n (seSlot e.data)))))

/-- Completion queues and the fault queue (R282 to R286): a held entry is written with PHASE when there is room and the
bus is the function's, and the tail moves on; a head write frees room; the vector goes out, and the timer stops, when
COUNT is reached or the time has passed; a queue that is off, full, without its bus or with nothing held posts
nothing. The choices that it rests on are the model's: log entry 52. -/
def Obligations.CompletionQueues : Prop :=
  (∀ (s : State) (clu j : Nat) (e : List Byte) (rest : List (List Byte)), (cq s clu j).held = e :: rest →
    (cq s clu j).enabled = true → queueBus s clu = true → cqCount (cq s clu j) < 2 ^ fld (cqCfg s clu j) 3 0 →
    Completes (.cqPost clu j) s (fun t =>
      (cq t clu j).held = rest ∧ (cq t clu j).tail = ((cq s clu j).tail + 1) % 65536 ∧
      (cq t clu j).head = (cq s clu j).head ∧ t.mem = s.mem ∧
      (cqCount (cq t clu j) = cqThreshold s clu j → (cq t clu j).timer = none) ∧
      (cqCount (cq t clu j) ≠ cqThreshold s clu j → (cq t clu j).timer =
        if cqTimer s clu j ≠ 0 ∧ (cq s clu j).timer = none then some s.us else (cq s clu j).timer) ∧
      Out.hostWrite (queueFunc s clu)
        (queueAddr s clu (0x900 + 0x40 * j) (fld (cqCfg s clu j) 3 0) (cq s clu j).tail 16)
        (e.take 14 ++ leBytes (leAt e 14 2 |||
          (if (cq s clu j).tail / 2 ^ fld (cqCfg s clu j) 3 0 % 2 = 0 then 1 else 0)) 2) ∈ t.out)) ∧
  (∀ (s : State) (clu j : Nat), (cq s clu j).held = [] ∨ (cq s clu j).enabled = false ∨ queueBus s clu = false ∨
    2 ^ fld (cqCfg s clu j) 3 0 ≤ cqCount (cq s clu j) → exec (.cqPost clu j) s = .next s) ∧
  (∀ (s : State) (clu j u : Nat), (cq s clu j).timer = some u → cqTimer s clu j ≠ 0 → u + cqTimer s clu j ≤ s.us →
    Completes (.cqTimerExpiry clu j) s (fun t =>
      (cq t clu j).timer = none ∧ (cq t clu j).held = (cq s clu j).held ∧ (cq t clu j).tail = (cq s clu j).tail ∧
      t.mem = s.mem)) ∧
  (∀ (s : State) (clu j : Nat), (cq s clu j).timer = none ∨ cqTimer s clu j = 0 ∨
    (∃ u, (cq s clu j).timer = some u ∧ s.us < u + cqTimer s clu j) → exec (.cqTimerExpiry clu j) s = .next s) ∧
  (∀ (req : Req) (clu j : Nat) (w : Word), TurnsAway (.cluCqHeadWrite req clu j w) req .clu clu (0x910 + 0x40 * j) ∧
    ∀ (s : State), Serves s req .clu clu →
    Completes (.cluCqHeadWrite req clu j w) s (fun t =>
      (cq t clu j).head = fld w 15 0 ∧ (cq t clu j).tail = (cq s clu j).tail ∧
      (cq t clu j).held = (cq s clu j).held ∧ t.mem = s.mem ∧
      (cqCount (cq t clu j) < cqThreshold s clu j → t.out = s.out ∧ (cq t clu j).timer = (cq s clu j).timer) ∧
      (cqThreshold s clu j ≤ cqCount (cq t clu j) → (cq t clu j).timer = none))) ∧
  (∀ (req : Req) (clu : Nat) (w : Word), TurnsAway (.cluFqHeadWrite req clu w) req .clu clu 0xA10 ∧
    ∀ (s : State), Serves s req .clu clu →
    Completes (.cluFqHeadWrite req clu w) s (fun t =>
      (cluster t clu).fqHead = fld w 15 0 ∧ (cluster t clu).fqTail = (cluster s clu).fqTail ∧ t.mem = s.mem ∧
      ((cluster s clu).fqTail = fld w 15 0 → t.out = s.out))) ∧
  (∀ (s : State) (req : Req) (clu q : Nat) (w : Word), 4 ≤ q → clu < 64 → Serves s req .clu clu →
    Completes (.queueEnable req clu q w) s (fun t =>
      (q < 8 → (cq t clu (q - 4)).enabled = wbit w 8 ∧ (cq t clu (q - 4)).held = (cq s clu (q - 4)).held ∧
        (cq t clu (q - 4)).error = ((cq s clu (q - 4)).error && !wbit w 8)) ∧
      (8 ≤ q → (cluster t clu).fqEnabled = wbit w 8 ∧ (cluster t clu).holdBuf = (cluster s clu).holdBuf ∧
        (cluster t clu).fqError = ((cluster s clu).fqError && !wbit w 8)) ∧
      t.mem = s.mem))

/-! ### Packets (R243, R244, R256, R257, R332 to R356, R464) -/

/-- The request rows, with the type of each (R336): the finding of its memory for those that read. -/
def Sys2Proof.Machine.reqRows : List ((Nat → Nat → List Byte → Bool → Ecc → Instr) × Nat) :=
  [(fun i p d g _ => .putPkt i p d g, tPut), (.getReq, tGetReq), (fun i p d g _ => .signalPkt i p d g, tSignal),
    (.atomicPkt, tAtomic), (.reducePut, tReducePut), (fun i p d g _ => .tally i p d g, tTally)]

/-- A packet of a type has passed the checks of R348 on its header and the check of its peer (R360). -/
def Sys2Proof.Machine.Passes (s s2 : State) (i part type : Nat) (data : List Byte) (tagOk : Bool) (k : Pkt) : Prop :=
  ∃ s1, arriveCheck s (arrival s i part) type data tagOk = (s1, some k) ∧
    peerCheck s1 (arrival s i part).part k = (s2, .ok)

/-- A request packet of a type that has passed the checks of R348 up to the fields, for core `n`. -/
structure Sys2Proof.Machine.ReqAt (s s2 : State) (i part type : Nat) (data : List Byte) (tagOk : Bool) (n : Nat) (k : Pkt) : Prop where
  passes : Passes s s2 i part type data tagOk k
  kind : k.type = type
  epoch : k.dstEpoch = 0 ∨ k.dstEpoch = s2.epoch
  endpt : endptOf s2 k.dstEndpt = .core n
  up : inReset s2 (partOfCore s2 n) = false
  own : partOfCore s2 n = (arrival s i part).part
  fields : reqFieldsOk k = true
  engine : bit (core s2 n).engReset 3 = false

/-- The KEY admits the request, its slot lives, and an object that it names exists (R179, R243). -/
structure Sys2Proof.Machine.ReqKey (s : State) (n : Nat) (k : Pkt) (e : KeyEnt) : Prop where
  admits : keyCheck s n k = some e
  live : slotLive s n e.slot = true
  asid : e.target = true ∨ slotAsid s n e.slot = e.asid
  object : k.rsig = 0xFFFF ∨ (physObj s n e.slot k.rsig).isSome = true

/-- The ASID that a request works for. -/
def reqAsid (s : State) (n : Nat) (e : KeyEnt) : Nat := if e.target then slotAsid s n e.slot else e.asid

/-- Bytes that a request moves through the core port: none of a target's window (R244). -/
def reqPort (e : KeyEnt) (len : Nat) : Nat := if e.target then 0 else len

/-- What an ordered stream of a core holds for the operation of a request: its entry, or a new one (R351). -/
def rxEntry (s : State) (n sl : Nat) (k : Pkt) : RxStream :=
  (mget (core s n).rx k.rstream).getD
    { coord := k.srcCoord, endpt := k.srcEndpt, flow := k.flow, opid := k.opid, slot := sl, ctag := (slot s n sl).ctag.toNat }

/-- An ordered stream has no place for a request: another operation holds it, or it lies outside the window (R351). -/
def rxBusy (s : State) (n sl : Nat) (k : Pkt) : Bool :=
  let x := rxEntry s n sl k
  x.coord ≠ k.srcCoord || x.endpt ≠ k.srcEndpt || x.flow ≠ k.flow || x.opid ≠ k.opid || k.offset / 4096 < x.nextSeq ||
    x.nextSeq + 511 < k.offset / 4096

/-- Requests (R136, R348 to R351): a PUT writes its payload, adds its bytes to its object and is answered OK, and no other
byte changes; a GET_REQ is answered with the bytes, a poisoned granule as zeros; a REDUCE_PUT and an ATOMIC write what
they compute, and the ATOMIC's answer carries the prior value; SIGNAL and TALLY act on their object; a packet of an
ordered stream takes its effect on memory as it arrives, is held, and leaves the stream in order, or is answered BUSY.
The choices that it rests on are the model's: log entry 10. -/
def Obligations.FabricRequests : Prop :=
  (∀ (s s2 s3 : State) (i part : Nat) (data : List Byte) (tagOk : Bool) (n : Nat) (k : Pkt) (e : KeyEnt)
    (parts : List (Nat × Nat)), ReqAt s s2 i part tPut data tagOk n k → ReqKey s2 n k e → k.ordered = false →
    reqSpan s2 n e.slot e k = (s3, .ok parts) →
    Completes (.putPkt i part data tagOk) s (fun t =>
      let a := arrival s i part
      let u := writeSpan (portOut (portIn s3 n k.plen) n (reqPort e k.plen)) n parts k.payload (slot s2 n e.slot).ctag
        (reqAsid s2 n e) a.part
      t = ack (reqTally u n e.slot k) a.part a.port k stOk ∧
      (k.rsig = 0xFFFF → ∀ x, (∀ r ∈ parts, x < r.1 ∨ r.1 + r.2 ≤ x) → memGet t.mem x = memGet s.mem x))) ∧
  (∀ (s s2 s3 s4 s5 : State) (i part : Nat) (data : List Byte) (tagOk : Bool) (n : Nat) (k : Pkt) (e : KeyEnt)
    (parts : List (Nat × Nat)) (bad : Bool) (b : List Byte) (ecc : Ecc), ReqAt s s2 i part tGetReq data tagOk n k →
    ReqKey s2 n k e → k.ordered = false → reqSpan s2 n e.slot e k = (s3, .ok parts) →
    checkSpan (portOut (portIn s3 n (k.plen + reqPort e (reqLen k))) n (reqLen k)) parts ecc (slot s2 n e.slot).ctag =
      (s4, bad) →
    readSpanZero s4 n parts (slot s2 n e.slot).ctag = (s5, b) →
    Completes (.getReq i part data tagOk ecc) s (fun t =>
      t = answer (reqTally s5 n e.slot k) (arrival s i part).part (arrival s i part).port k tGetData 0 b bad ∧
      (k.rsig = 0xFFFF → t.mem = s5.mem))) ∧
  (∀ (s s2 s3 s4 s5 : State) (i part : Nat) (data : List Byte) (tagOk : Bool) (n : Nat) (k : Pkt) (e : KeyEnt)
    (parts : List (Nat × Nat)) (d : List Byte) (ecc : Ecc), ReqAt s s2 i part tAtomic data tagOk n k → ReqKey s2 n k e →
    k.ordered = false → reqSpan s2 n e.slot e k = (s3, .ok parts) →
    checkSpan (portOut (portIn s3 n (k.plen + reqPort e (reqLen k))) n (reqPort e (reqLen k))) parts ecc
      (slot s2 n e.slot).ctag = (s4, false) →
    readSpan s4 n parts (slot s2 n e.slot).ctag = (s5, d) →
    Completes (.atomicPkt i part data tagOk ecc) s (fun t =>
      let a := arrival s i part
      let v := if bit k.opx 0 then fAdd .fp32 (leNat d) (k.operand % 2 ^ 32) else (leNat d + k.operand) % 2 ^ 64
      let u := writeSpan s5 n parts (leBytes v (reqLen k)) (slot s2 n e.slot).ctag (reqAsid s2 n e) a.part
      t = answer (reqTally u n e.slot k) a.part a.port k tAtomicRsp (leNat d) [] false)) ∧
  (∀ (s s2 s3 s4 s5 : State) (i part : Nat) (data : List Byte) (tagOk : Bool) (n : Nat) (k : Pkt) (e : KeyEnt)
    (parts : List (Nat × Nat)) (d : List Byte) (ecc : Ecc), ReqAt s s2 i part tReducePut data tagOk n k → ReqKey s2 n k e →
    k.ordered = false → reqSpan s2 n e.slot e k = (s3, .ok parts) →
    checkSpan (portOut (portIn s3 n (k.plen + reqPort e (reqLen k))) n (reqPort e (reqLen k))) parts ecc
      (slot s2 n e.slot).ctag = (s4, false) →
    readSpan s4 n parts (slot s2 n e.slot).ctag = (s5, d) →
    Completes (.reducePut i part data tagOk ecc) s (fun t =>
      let a := arrival s i part
      let r := reduceBytes k.opx (if k.opx / 4 = 1 then k.plen / 2 else k.plen / 4) d k.payload
      let u := writeSpan (bumpUnit s5 .col a.page 0x104 k.plen 4096) n parts r (slot s2 n e.slot).ctag (reqAsid s2 n e)
        a.part
      t = ack (reqTally u n e.slot k) a.part a.port k stOk)) ∧
  (∀ (s s2 : State) (i part : Nat) (data : List Byte) (tagOk : Bool) (n : Nat) (k : Pkt) (e : KeyEnt),
    ReqKey s2 n k e → k.ordered = false →
    (ReqAt s s2 i part tSignal data tagOk n k →
      Completes (.signalPkt i part data tagOk) s (fun t =>
        t = ack (syncDo (portOut (portIn s2 n k.plen) n 0) n e.slot k.rsig
          (if bit k.opx 0 then .set (k.operand % 65536) else .add (k.operand % 65536)) true)
          (arrival s i part).part (arrival s i part).port k stOk)) ∧
    (ReqAt s s2 i part tTally data tagOk n k →
      Completes (.tally i part data tagOk) s (fun t =>
        t = ack (syncDo (portOut (portIn s2 n k.plen) n 0) n e.slot k.rsig (.bytes k.operand) true)
          (arrival s i part).part (arrival s i part).port k stOk))) ∧
  (∀ c ∈ reqRows, c.2 = tPut ∨ c.2 = tReducePut → ∀ (s s2 s3 : State) (i part : Nat) (data : List Byte) (tagOk : Bool) (n : Nat)
    (k : Pkt) (e : KeyEnt) (ecc : Ecc) (r : ReqRes), ReqAt s s2 i part c.2 data tagOk n k → ReqKey s2 n k e → k.ordered = true →
    let a := arrival s i part
    (rxBusy s2 n e.slot k = true →
      exec (c.1 i part data tagOk ecc) s = .next (ack (bump s2 .col a.page 0x114 1) a.part a.port k stBusy)) ∧
    (rxBusy s2 n e.slot k = false →
      reqMemory s2 n e.slot a e k (if c.2 = tReducePut then ecc else .none) = (s3, r) →
      exec (c.1 i part data tagOk ecc) s = .next (drainRx 513 (modCore s3 n (fun c => { c with
        rx := mput c.rx k.rstream { rxEntry s2 n e.slot k with
          held := (rxEntry s2 n e.slot k).held ++
            [(k.offset / 4096, pktHeader k ++ leBytes a.port 1 ++ leBytes a.part 1, r.operand)] } })) n k.rstream)))

/-- Requests that are not applied (R348, R350, R356): one that fails the checks of its header has no answer, nor has one of a LIVE
peer's old epoch; an entry in RESET or LOST answers PEER_LOST, an old DST_EPOCH STALE_EPOCH, a partition in reset PEER_RESET, an
endpoint of another partition or kind and bad fields BAD_REQUEST with its record, a KEY that admits nothing FAULT_NACK, an ended context
or a missing object CONTEXT_GONE with SYN_DROPPED counted, memory that does not translate FAULT_NACK, poisoned operands POISON; none of
them changes memory. A PUT at a pipeline endpoint is a multicast. -/
def Obligations.FabricRefusals : Prop :=
  ∀ c ∈ reqRows, ∀ (s s1 s2 : State) (i part : Nat) (data : List Byte) (tagOk : Bool) (ecc : Ecc),
    let a := arrival s i part
    let I := c.1 i part data tagOk ecc
    (arriveCheck s a c.2 data tagOk = (s1, none) → exec I s = .next s1 ∧ s1.mem = s.mem) ∧
    (∀ k, arriveCheck s a c.2 data tagOk = (s1, some k) →
      (peerCheck s1 a.part k = (s2, .discard) → Completes I s (fun t => t = discardPkt s2 a ∧ t.mem = s.mem)) ∧
      (peerCheck s1 a.part k = (s2, .lost) → Completes I s (fun t => t = ack s2 a.part a.port k stPeerLost ∧ t.mem = s.mem)) ∧
      (peerCheck s1 a.part k = (s2, .ok) → k.dstEpoch ≠ 0 → k.dstEpoch ≠ s2.epoch →
        Completes I s (fun t => t = ack s2 a.part a.port k stStaleEpoch ∧ t.mem = s.mem)) ∧
      (peerCheck s1 a.part k = (s2, .ok) → k.dstEpoch = 0 ∨ k.dstEpoch = s2.epoch →
        ((∀ n, endptOf s2 k.dstEndpt ≠ .core n) → (∀ pp, endptOf s2 k.dstEndpt ≠ .pipe pp) →
          Completes I s (fun t => t = badRequest s2 a k ∧ t.mem = s.mem)) ∧
        (∀ n, endptOf s2 k.dstEndpt = .core n →
          (inReset s2 (partOfCore s2 n) = true →
            Completes I s (fun t => t = ack s2 a.part a.port k stPeerReset ∧ t.mem = s.mem)) ∧
          (inReset s2 (partOfCore s2 n) = false → partOfCore s2 n ≠ a.part ∨ reqFieldsOk k = false →
            Completes I s (fun t => t = badRequest s2 a k ∧ t.mem = s.mem)) ∧
          (inReset s2 (partOfCore s2 n) = false → partOfCore s2 n = a.part → reqFieldsOk k = true →
            (bit (core s2 n).engReset 3 = true →
              Completes I s (fun t => t = ack (bump s2 .syn n 0x140 1) a.part a.port k stContextGone ∧ t.mem = s.mem)) ∧
            (bit (core s2 n).engReset 3 = false →
              (keyCheck s2 n k = none →
                let f : FaultInfo := ⟨ftKey, reqAccess k.type, k.addr, false, 0, 0, 0⟩
                Completes I s (fun t =>
                  t = ack (destFault s2 n k f 0xFFFFFFFF 0) a.part a.port k (nackOperand f) ∧ t.mem = s.mem)) ∧
              (∀ e, keyCheck s2 n k = some e →
                slotLive s2 n e.slot = false ∨ (e.target = false ∧ slotAsid s2 n e.slot ≠ e.asid) ∨
                  (k.rsig ≠ 0xFFFF ∧ physObj s2 n e.slot k.rsig = none) →
                Completes I s (fun t => t = ack (bump s2 .syn n 0x140 1) a.part a.port k stContextGone ∧ t.mem = s.mem)) ∧
              (∀ e s3 f, ReqKey s2 n k e → k.ordered = false → reqSpan s2 n e.slot e k = (s3, .fault f) →
                Completes I s (fun t => t = ack (destFault s3 n k f (if e.target then (slot s2 n e.slot).ctag else 0xFFFFFFFF)
                  e.asid) a.part a.port k (nackOperand f) ∧ t.mem = s.mem)) ∧
              (∀ e s3 s4 parts, c.2 = tReducePut ∨ c.2 = tAtomic → ReqKey s2 n k e → k.ordered = false →
                reqSpan s2 n e.slot e k = (s3, .ok parts) →
                checkSpan (portOut (portIn s3 n (k.plen + reqPort e (reqLen k))) n (reqPort e (reqLen k))) parts ecc
                  (slot s2 n e.slot).ctag = (s4, true) →
                Completes I s (fun t => t = ack s4 a.part a.port k stPoison ∧ t.mem = s4.mem))))) ∧
        (∀ pp, endptOf s2 k.dstEndpt = .pipe pp →
          (inReset s2 (partOfPipe s2 pp) = true →
            Completes I s (fun t => t = ack s2 a.part a.port k stPeerReset ∧ t.mem = s.mem)) ∧
          (inReset s2 (partOfPipe s2 pp) = false → partOfPipe s2 pp ≠ a.part ∨ reqFieldsOk k = false ∨ c.2 ≠ tPut →
            Completes I s (fun t => t = badRequest s2 a k ∧ t.mem = s.mem)) ∧
          (inReset s2 (partOfPipe s2 pp) = false → partOfPipe s2 pp = a.part → reqFieldsOk k = true → c.2 = tPut →
            let g := 16 * barrierPipe s2 a.part + k.key % 16
            let own := wbit (mgetD s2.mcCfg g 0) 8 = true ∧ (k.fwd = true → k.mcgroup = k.key % 16) ∧
              fld (mgetD s2.mcCheck g 0) 27 0 = k.key / 16
            (own → exec I s = .next (mcReq s2 pp a k)) ∧
            (¬ own → exec I s = .next (ack s2 a.part a.port k
              (nackOperand ⟨ftKey, accRemoteWrite, k.addr, false, 0, 0, 0⟩)))))))

/-- The answer rows, with the type of each (R336). -/
def Sys2Proof.Machine.rspRows : List ((Nat → Nat → List Byte → Bool → Instr) × Nat) :=
  [(.ackPkt, tAck), (.getData, tGetData), (.atomicRsp, tAtomicRsp), (.unreachable, tUnreachable)]

/-- An answer has passed the checks of R348 on its header and its peer, and carries the package's epoch. -/
structure Sys2Proof.Machine.AnswerIn (s s2 : State) (i part type : Nat) (data : List Byte) (tagOk : Bool) (q : Pkt) : Prop where
  passes : ∃ s1, arriveCheck s (arrival s i part) type data tagOk = (s1, some q) ∧
    (if type = tUnreachable then (s1, PeerRes.ok) else peerCheck s1 (arrival s i part).part q) = (s2, .ok)
  epoch : q.dstEpoch = s2.epoch

/-- The orphan of a core that an answer meets (R464). -/
def orphanOf (q : Pkt) (o : Orphan) : Bool := o.slot = q.flow % 16 && o.flow = bits q.flow 4 9 && o.fseq = q.fseq

/-- An answer that has passed the checks of R348 and matches a request of core `n`. -/
structure Sys2Proof.Machine.AnswerAt (s s2 : State) (i part type : Nat) (data : List Byte) (tagOk : Bool) (n : Nat) (q : Pkt) (m : Match) :
    Prop where
  passes : AnswerIn s s2 i part type data tagOk q
  endpt : endptOf s2 q.dstEndpt = .core n
  own : partOfCore s2 n = (arrival s i part).part
  fresh : (core s2 n).orphans.any (orphanOf q) = false
  hit : matchOut s2 n q = some m

/-- Answers (R136, R352 to R356): OK counts the packet's bytes as acknowledged, BUSY leaves it to be sent again, and every
other STATUS ends the packet with the outcome that R353 gives it; GET_DATA is written where the descriptor says, an
ATOMIC's prior value at its return address; UNREACHABLE marks the plane and sends the packet again on another; an
answer of the wrong kind, of no request, of another partition or epoch is discarded, and so is one that meets an
orphan, which leaves (R464). The choices that it rests on are the model's: log entry 37. -/
def Obligations.FabricAnswers : Prop :=
  (∀ (s s2 : State) (i part : Nat) (data : List Byte) (tagOk : Bool) (n : Nat) (q : Pkt) (m : Match),
    AnswerAt s s2 i part tAck data tagOk n q m →
    let st := q.operand % 256
    let p := partOfCore s2 n
    let u := dropPkt s2 n m
    let I := Instr.ackPkt i part data tagOk
    (st = stOk → dKind m.desc.record ≠ 7 → dKind m.desc.record ≠ 9 →
      (m.pkt.retry = false → m.pkt.tallyOnly = false → Completes I s (fun t =>
        t = modDesc u n m.ph m.desc.idx (fun d => { d with acked := d.acked + m.pkt.len }) ∧ t.mem = s.mem)) ∧
      (m.pkt.retry = true ∨ m.pkt.tallyOnly = true → Completes I s (fun t => t = u ∧ t.mem = s.mem))) ∧
    (st = stOk → dKind m.desc.record = 7 ∨ dKind m.desc.record = 9 →
      exec I s = .next (discardPkt s2 (arrival s i part))) ∧
    (st = stBusy → Completes I s (fun t =>
      t = modDesc s2 n m.ph m.desc.idx (fun d => { d with
        pkts := d.pkts.map (fun o => if o.fseq = m.pkt.fseq then { o with resend := true } else o) }) ∧
      t.mem = s.mem)) ∧
    (st = stFaultNack → Completes I s (fun t => t = nacked u n m q ∧ t.mem = s.mem ∧
      (dKind m.desc.record = 6 ∨ dKind m.desc.record = 7 → (stream s2 n m.ph).st ≠ .stopped →
        (stream t n m.ph).st = .faulted ∧ (stream t n m.ph).stopping = true))) ∧
    (st = stContextGone → Completes I s (fun t => t = stopStream u n m.ph m.k m.i eXePeerGone ∧ t.mem = s.mem)) ∧
    (st = stPeerReset ∨ st = stStaleEpoch → Completes I s (fun t =>
      t = stopStream (peerDown u p (dCoord m.desc.record) false) n m.ph m.k m.i eXePeerReset ∧ t.mem = s.mem)) ∧
    (st = stPeerLost → Completes I s (fun t =>
      t = stopStream (peerDown u p (dCoord m.desc.record) true) n m.ph m.k m.i eXePeerLost ∧ t.mem = s.mem)) ∧
    (st = stPoison → Completes I s (fun t =>
      t = errCtx u eXeRemotePoison n m.k m.i ∧ t.mem = s.mem)) ∧
    (st ∉ [stOk, stBusy, stFaultNack, stContextGone, stPeerReset, stStaleEpoch, stPeerLost, stPoison] →
      Completes I s (fun t => t = stopStream u n m.ph m.k m.i eXeRemoteRefused ∧ t.mem = s.mem))) ∧
  (∀ (s s2 : State) (i part : Nat) (data : List Byte) (tagOk : Bool) (n : Nat) (q : Pkt) (m : Match),
    AnswerAt s s2 i part tGetData data tagOk n q m →
    (dKind m.desc.record = 7 → q.plen = m.pkt.len → q.poison = false →
      Completes (.getData i part data tagOk) s (fun t =>
        t.mem = (writeSpan (dropPkt s2 n m) n m.pkt.dst q.payload (slot s2 n m.k).ctag (slotAsid s2 n m.k)
          (partOfCore s2 n)).mem ∧
        (∀ x, (∀ r ∈ m.pkt.dst, x < r.1 ∨ r.1 + r.2 ≤ x) → memGet t.mem x = memGet s.mem x))) ∧
    (dKind m.desc.record = 7 → q.plen = m.pkt.len → q.poison = true →
      Completes (.getData i part data tagOk) s (fun t =>
        t = errCtx (dropPkt s2 n m) eXeRemotePoison n m.k m.i ∧ t.mem = s.mem)) ∧
    (dKind m.desc.record ≠ 7 ∨ q.plen ≠ m.pkt.len →
      exec (.getData i part data tagOk) s = .next (discardPkt s2 (arrival s i part)))) ∧
  (∀ (s s2 : State) (i part : Nat) (data : List Byte) (tagOk : Bool) (n : Nat) (q : Pkt) (m : Match),
    AnswerAt s s2 i part tAtomicRsp data tagOk n q m →
    (dKind m.desc.record = 9 → exec (.atomicRsp i part data tagOk) s = .next (writeSpan (dropPkt s2 n m) n m.pkt.dst
      (leBytes q.operand (if bit (dOpx m.desc.record) 0 then 4 else 8)) (slot s2 n m.k).ctag (slotAsid s2 n m.k)
      (partOfCore s2 n))) ∧
    (dKind m.desc.record ≠ 9 → exec (.atomicRsp i part data tagOk) s = .next (discardPkt s2 (arrival s i part)))) ∧
  (∀ (s s2 : State) (i part : Nat) (data : List Byte) (tagOk : Bool) (n : Nat) (q : Pkt) (m : Match),
    AnswerAt s s2 i part tUnreachable data tagOk n q m →
    Completes (.unreachable i part data tagOk) s (fun t => t = unreachMatched s2 n m q ∧ t.mem = s.mem)) ∧
  (∀ c ∈ rspRows, ∀ (s s1 s2 : State) (i part : Nat) (data : List Byte) (tagOk : Bool) (q : Pkt),
    let a := arrival s i part
    let I := c.1 i part data tagOk
    (arriveCheck s a c.2 data tagOk = (s1, none) → exec I s = .next s1) ∧
    (∀ res, arriveCheck s a c.2 data tagOk = (s1, some q) →
      (if c.2 = tUnreachable then (s1, PeerRes.ok) else peerCheck s1 a.part q) = (s2, res) →
      res ≠ .ok ∨ q.dstEpoch ≠ s2.epoch → exec I s = .next (discardPkt s2 a)) ∧
    (AnswerIn s s2 i part c.2 data tagOk q →
      ((∀ n, endptOf s2 q.dstEndpt ≠ .core n) → (∀ pp, endptOf s2 q.dstEndpt ≠ .pipe pp) →
        exec I s = .next (discardPkt s2 a)) ∧
      (∀ n, endptOf s2 q.dstEndpt = .core n → partOfCore s2 n ≠ a.part → exec I s = .next (discardPkt s2 a)) ∧
      (∀ n, endptOf s2 q.dstEndpt = .core n → partOfCore s2 n = a.part → (core s2 n).orphans.any (orphanOf q) = true →
        exec I s = .next (discardPkt (modCore s2 n (fun c => { c with
          orphans := eraseFirst (orphanOf q) c.orphans })) a)) ∧
      (∀ n, endptOf s2 q.dstEndpt = .core n → partOfCore s2 n = a.part → (core s2 n).orphans.any (orphanOf q) = false →
        matchOut s2 n q = none → exec I s = .next (discardPkt s2 a)) ∧
      (∀ pp, endptOf s2 q.dstEndpt = .pipe pp → partOfPipe s2 pp ≠ a.part → exec I s = .next (discardPkt s2 a)) ∧
      (∀ pp, endptOf s2 q.dstEndpt = .pipe pp → partOfPipe s2 pp = a.part →
        exec I s = .next ((mcAnswer s2 pp q).getD (discardPkt s2 a)))))

/-- A stream sends the next packet of the fabric descriptor `d` (R338, R340, R351): it runs, fewer than 512 requests of the core await
their answers, and an ordered stream has room in its window of 512. -/
structure Sys2Proof.Machine.SendsNext (s : State) (n ph k i : Nat) (d : ActDesc) : Prop where
  owner : streamOwner s n ph = some (k, i)
  served : running s n k = true
  runs : (stream s n ph).st = .run
  going : (stream s n ph).stopping = false
  next : (stream s n ph).descs.find? (fun d => !descIssued d) = some d
  isFabric : dFabric d.record = true
  room : coreOut s n < 512
  window : dKind d.record = 6 ∨ dKind d.record = 10 → dRstream d.record < 16 → d.pkts.length < 512

/-- The bytes of the next packet of a descriptor: none of a SIGNAL or ATOMIC, else at most 4,096 (R338). -/
def pktLen (d : ActDesc) : Nat := if dKind d.record = 8 ∨ dKind d.record = 9 then 0 else min 4096 (dLen d.record - d.issued)

/-- The PUT that awaits its TALLY (R257): every retried packet of it is acknowledged. -/
def wantsTally (d : ActDesc) : Bool :=
  d.retry && !d.tallySent && decide (dKind d.record = 6) && descIssued d && d.pkts.isEmpty && !d.nacked &&
    decide (dRsig d.record ≠ 0xFFFF) && decide (d.acked < dLen d.record)

/-- Packets of a descriptor (R338, R344, R346, R351, R353, R354, R257, R464): a packet sent carries the stream's next
FSEQ, joins the packets outstanding and moves the issue offset; TALLY-only and resent packets likewise; local memory
that faults, is out of its space or is poisoned ends the send as it ends an access; a hold marks the stream, and a
hold past COL_OP_TIMEOUT, a packet unanswered for it and a peer that is gone stop it; an orphan that times out leaves;
a stop settles when every packet is answered. The choices that it rests on are the model's: log entry 37. -/
def Obligations.FabricSends : Prop :=
  (∀ (s s1 : State) (n ph k i : Nat) (d : ActDesc) (ecc : Ecc), SendsNext s n ph k i d →
    let I := Instr.fabricPacketSend n ⟨ph, ecc⟩
    (∀ s2 b dst plane, pktLocal s n k d.record d.issued (pktLen d) ecc = (s1, .ok b dst) →
      sendReq s1 n (dRoll d.record) (descPkt s1 n k i d (stream s1 n ph).fseq d.issued (pktLen d) d.retry false b) =
        (s2, .sent plane) →
      Completes I s (fun t =>
        (stream t n ph).fseq = ((stream s2 n ph).fseq + 1) % 65536 ∧ (stream t n ph).heldPath = none ∧
        (stream t n ph).descs = (stream s2 n ph).descs.map (fun x => if x.idx = d.idx then { x with
          issued := (if dKind d.record = 8 ∨ dKind d.record = 9 then 1 else d.issued + pktLen d),
          pkts := x.pkts ++ [
            { fseq := (stream s1 n ph).fseq, off := d.issued, len := pktLen d, firstUs := s2.us, dst := dst, retry := x.retry }] }
          else x) ∧
        t.mem = s1.mem)) ∧
    (∀ s2 b dst r, pktLocal s n k d.record d.issued (pktLen d) ecc = (s1, .ok b dst) →
      sendReq s1 n (dRoll d.record) (descPkt s1 n k i d (stream s1 n ph).fseq d.issued (pktLen d) d.retry false b) = (s2, r) →
      (∀ plane, r ≠ .sent plane) → exec I s = .next (sendFailed s2 n ph k i r)) ∧
    (pktLocal s n k d.record d.issued (pktLen d) ecc = (s1, .invalid) →
      exec I s = .next (errCtx s1 eXeDescInvalid n k i)) ∧
    (∀ f, pktLocal s n k d.record d.issued (pktLen d) ecc = (s1, .fault f) →
      exec I s = .next (streamFault s1 n ph k i d.idx d.issued f (dCoord d.record) (dEndpt d.record) 0)) ∧
    (∀ er, pktLocal s n k d.record d.issued (pktLen d) ecc = (s1, .poison er) →
      exec I s = .next (endCtx s1 n k 5 er 3))) ∧
  (∀ (s : State) (n ph : Nat) (ecc : Ecc), (∀ k i d, ¬ SendsNext s n ph k i d) →
    exec (.fabricPacketSend n ⟨ph, ecc⟩) s = .next s) ∧
  (∀ (s s1 : State) (n ph k i : Nat), streamOwner s n ph = some (k, i) → running s n k = true → (stream s n ph).st = .run →
    (stream s n ph).stopping = false →
    ((stream s n ph).descs.find? wantsTally = none ∨ 512 ≤ coreOut s n → exec (.tallyOnlySend n ph) s = .next s) ∧
    (∀ d r, (stream s n ph).descs.find? wantsTally = some d → coreOut s n < 512 →
      sendReq s n (dRoll d.record) (descPkt s n k i d (stream s n ph).fseq 0 (dLen d.record - d.acked) false true []) =
        (s1, r) →
      (∀ plane, r = .sent plane → Completes (.tallyOnlySend n ph) s (fun t =>
        (stream t n ph).fseq = ((stream s n ph).fseq + 1) % 65536 ∧
        (stream t n ph).descs = (stream s1 n ph).descs.map (fun x => if x.idx = d.idx then { x with
          tallySent := true,
          pkts := [{ fseq := (stream s n ph).fseq, len := dLen d.record - d.acked, firstUs := s1.us, tallyOnly := true }] }
          else x) ∧ t.mem = s.mem)) ∧
      ((∀ plane, r ≠ .sent plane) → exec (.tallyOnlySend n ph) s = .next (sendFailed s1 n ph k i r)))) ∧
  (∀ (s : State) (n ph : Nat), streamOwner s n ph = none ∨ (stream s n ph).st ≠ .run ∨ (stream s n ph).stopping = true ∨
    (∃ k i, streamOwner s n ph = some (k, i) ∧ running s n k = false) → exec (.tallyOnlySend n ph) s = .next s) ∧
  (∀ (s s1 : State) (n ph k i fseq : Nat) (d : ActDesc) (o : OutPkt) (ecc : Ecc), streamOwner s n ph = some (k, i) →
    (stream s n ph).descs.findSome? (fun d =>
      (d.pkts.find? (fun o => o.fseq = fseq && o.resend)).map (fun o => (d, o))) = some (d, o) →
    let I := Instr.packetResend n ph ⟨fseq, ecc⟩
    let loc := if o.tallyOnly then (s, PktLocal.ok [] []) else pktLocal s n k d.record o.off o.len ecc
    ((slot s n k).ending.isSome = true → exec I s = .next s) ∧
    ((slot s n k).ending = none →
      (loc = (s1, .invalid) → exec I s = .next (errCtx s1 eXeDescInvalid n k i)) ∧
      (∀ f, loc = (s1, .fault f) →
        exec I s = .next (streamFault s1 n ph k i d.idx o.off f (dCoord d.record) (dEndpt d.record) 0)) ∧
      (∀ er, loc = (s1, .poison er) → exec I s = .next (endCtx s1 n k 5 er 3)) ∧
      (∀ b dst s2 r, loc = (s1, .ok b dst) →
        sendReq s1 n (dRoll d.record) (descPkt s1 n k i d (stream s1 n ph).fseq o.off o.len o.retry o.tallyOnly b) = (s2, r) →
        (∀ plane, r = .sent plane → Completes I s (fun t =>
          (stream t n ph).fseq = ((stream s2 n ph).fseq + 1) % 65536 ∧
          (stream t n ph).descs = (stream s2 n ph).descs.map (fun x => if x.idx = d.idx then { x with
            pkts := x.pkts.map (fun y => if y.fseq = fseq then
              { y with fseq := (stream s1 n ph).fseq, dst := dst, resend := false, resends := y.resends + 1 } else y) }
            else x) ∧
          t.mem = s1.mem)) ∧
        (∀ det, r = .held det → exec I s = .next (sendFailed s2 n ph k i (.held det))) ∧
        (r = .wait → exec I s = .next s2) ∧
        (r = .noPath ∨ (∃ lost, r = .down lost) → exec I s = .next (sendFailed
          (modDesc s2 n ph d.idx (fun d => { d with pkts := d.pkts.filter (fun y => y.fseq ≠ fseq) })) n ph k i r))))) ∧
  (∀ (s : State) (n ph fseq : Nat) (ecc : Ecc), streamOwner s n ph = none ∨
    (stream s n ph).descs.findSome? (fun d =>
      (d.pkts.find? (fun o => o.fseq = fseq && o.resend)).map (fun o => (d, o))) = none →
    exec (.packetResend n ph ⟨fseq, ecc⟩) s = .next s) ∧
  (∀ (s : State) (n ph k i det us : Nat), n < 1152 → streamOwner s n ph = some (k, i) →
    (stream s n ph).heldPath = some (det, us) →
    (opPassed s (partOfCore s n) (us + 1) = true → (stream s n ph).st ≠ .stopped →
      Completes (.packetHoldTimeout n ph) s (fun t =>
        (stream t n ph).st = .stopped ∧ (stream t n ph).heldPath = none ∧ wbit (rget t .xe n 0x20) eXeNoPath.bit = true ∧
        wbit (rget t .col (barrierPipe s (partOfCore s n)) 0x20) eColNoPath.bit = true ∧ t.mem = s.mem)) ∧
    (opPassed s (partOfCore s n) (us + 1) = false → exec (.packetHoldTimeout n ph) s = .next s)) ∧
  (∀ (s : State) (n ph : Nat), n < 1152 → streamOwner s n ph = none ∨ (stream s n ph).heldPath = none →
    exec (.packetHoldTimeout n ph) s = .next s) ∧
  (∀ (s : State) (pp ph : Nat),
    let due := fun (h : HeldPkt) => h.pipe = pp && opPassed s (partOfPipe s pp) (h.us + 1)
    (s.heldPkts.find? due = none → exec (.packetHoldTimeout (1152 + pp) ph) s = .next s) ∧
    (∀ h, s.heldPkts.find? due = some h → Completes (.packetHoldTimeout (1152 + pp) ph) s (fun t =>
      wbit (rget t .col (barrierPipe s (partOfPipe s pp)) 0x20) eColNoPath.bit = true ∧ t.mem = s.mem ∧
      (h.copy = false → t.heldPkts = eraseFirst due s.heldPkts)))) ∧
  (∀ (s : State) (n ph k i fseq : Nat), n < 1152 → streamOwner s n ph = some (k, i) →
    let due := fun (d : ActDesc) => d.pkts.any (fun o => o.fseq = fseq && opPassed s (partOfCore s n) o.firstUs)
    ((stream s n ph).descs.find? due = none → exec (.packetTimeout n ph fseq) s = .next s) ∧
    (∀ d, (stream s n ph).descs.find? due = some d →
      Completes (.packetTimeout n ph fseq) s (fun t =>
        2 ≤ (peer t (partOfCore s n) (dCoord d.record)).state ∧
        ((peer s (partOfCore s n) (dCoord d.record)).state < 2 →
          (peer t (partOfCore s n) (dCoord d.record)).state = 3) ∧
        (stream t n ph).st = .stopped ∧ t.mem = s.mem))) ∧
  (∀ (s : State) (n ph fseq : Nat), n < 1152 → streamOwner s n ph = none → exec (.packetTimeout n ph fseq) s = .next s) ∧
  (∀ (s : State) (pp ph fseq : Nat),
    let due := fun (w : McWait) => w.fseq = fseq && opPassed s (partOfPipe s pp) w.us
    let held := s.heldPkts.any (fun h => h.pipe = pp && h.copy && (pktDecode h.data).fseq = fseq)
    let hit := (s.mcSends.find? (fun m => m.pipe = pp && m.waiting.any due)).bind (fun m => m.waiting.find? due)
    (held = true ∨ hit = none → exec (.packetTimeout (1152 + pp) ph fseq) s = .next s) ∧
    (∀ w, held = false → hit = some w → Completes (.packetTimeout (1152 + pp) ph fseq) s (fun t =>
      2 ≤ (peer t (partOfPipe s pp) w.coord).state ∧ t.mem = s.mem))) ∧
  (∀ (s : State) (n k flow fseq : Nat), exec (.orphanTimeout n k flow fseq) s = .next (modCore s n (fun c => { c with
    orphans := eraseFirst (fun o => o.slot = k && o.flow = flow && o.fseq = fseq && opPassed s (partOfCore s n) o.us)
      c.orphans }))) ∧
  (∀ (s : State) (n ph k i : Nat), streamOwner s n ph = some (k, i) →
    ((stream s n ph).descs.any (fun d => !d.pkts.isEmpty) = true ∨ (slot s n k).ending.isSome = true →
      exec (.fabricStopSettled n ph) s = .next s) ∧
    ((stream s n ph).descs.any (fun d => !d.pkts.isEmpty) = false → (slot s n k).ending = none →
      ((stream s n ph).st = .stopped → exec (.fabricStopSettled n ph) s =
        .next (modStream s n ph (fun x => { x with stopping := false }))) ∧
      ((stream s n ph).st ≠ .stopped → (stream s n ph).stopping = false →
        exec (.fabricStopSettled n ph) s = .next s) ∧
      ((stream s n ph).st ≠ .stopped → (stream s n ph).stopping = true →
        Completes (.fabricStopSettled n ph) s (fun t =>
          (stream t n ph).stopping = false ∧ (stream t n ph).descs = (stream s n ph).descs.map settleDesc ∧
          ((stream s n ph).st = .faulted → (stream s n ph).goOn = true → (stream t n ph).st = .run) ∧
          ((stream s n ph).goOn = false → (stream t n ph).st = (stream s n ph).st) ∧
          t.mem = s.mem ∧ (∀ m j, slot t m j = slot s m j))))) ∧
  (∀ (s : State) (n ph : Nat), streamOwner s n ph = none → exec (.fabricStopSettled n ph) s = .next s)

/-! ### Roll tables and peers (R164, R343, R345, R360, R361, R364) -/

/-- Roll tables (R343, R345, R364): a LOAD starts, and its end installs the section whole with variant 0 in force or
leaves the store with a RESULT; SELECT puts a loaded variant in force; UNLOAD empties a store not in use; each answers
NOT_LOADED or IN_USE where R364 says so, and a pipeline that holds no barriers and a store that is loading take no
command; a failed plane swaps variant 0 for the one that excludes it. Peers (R360, R361): CLEAR of a peer that is
RESET or LOST makes it LIVE with the epoch it announced, else UNKNOWN; MARK_LOST and RESET_NOTICE end a LIVE peer and
leave every other; an EPOCH_ANNOUNCE of a LIVE peer's own epoch ends it, and is kept by an entry that is RESET or
LOST; a message at another endpoint is discarded. The choices that it rests on are the model's: log entry 37. -/
def Obligations.RollsAndPeers : Prop :=
  ((∀ (req : Req) (pipe v : Nat), ∀ c ∈ [Instr.rollLoad req pipe, .rollSelect req pipe v, .rollUnload req pipe],
     TurnsAway c req .col pipe 0x210 ∧
     ∀ (s : State), Serves s req .col pipe →
       isBarrierPipe s pipe = false ∨ (rollStore s (partOfPipe s pipe)).loading = true → exec c s = .next s) ∧
   (∀ (s : State) (req : Req) (pipe v : Nat), Serves s req .col pipe → isBarrierPipe s pipe = true →
     (rollStore s (partOfPipe s pipe)).loading = false →
     let p := partOfPipe s pipe
     let r := rollStore s p
     Completes (.rollLoad req pipe) s (fun t =>
       rollStore t p = { r with loading := true } ∧ t.mem = s.mem ∧ t.cores = s.cores) ∧
     (r.data ≠ [] → bit (rollVariants r) v = true →
       Completes (.rollSelect req pipe v) s (fun t =>
         rollStore t p = { r with variant := v, auto := false } ∧ t.mem = s.mem)) ∧
     (r.data = [] ∨ bit (rollVariants r) v = false → exec (.rollSelect req pipe v) s = .next (showRoll s p 5)) ∧
     (r.data = [] → exec (.rollUnload req pipe) s = .next (showRoll s p 5)) ∧
     (r.data ≠ [] → rollInUse s p = false → keysRising s.roll = true →
       Completes (.rollUnload req pipe) s (fun t => rollStore t p = {} ∧ t.mem = s.mem)) ∧
     (r.data ≠ [] → rollInUse s p = true → exec (.rollUnload req pipe) s = .next (showRoll s p 3))) ∧
   (∀ (s s1 : State) (pipe res : Nat) (b : List Byte) (ecc : Ecc),
     (isBarrierPipe s pipe = true → (rollStore s (partOfPipe s pipe)).loading = true →
       rollRead s (partOfPipe s pipe) ecc = (s1, res, b) →
       Completes (.rollLoadComplete pipe ecc) s (fun t =>
         (res = 0 → rollStore t (partOfPipe s pipe) = { data := b, variant := 0, auto := false, loading := false }) ∧
         (res ≠ 0 → rollStore t (partOfPipe s pipe) = { rollStore s (partOfPipe s pipe) with loading := false } ∧
           wbit (rget t .col pipe 0x20) eColRollLoadFail.bit = true) ∧
         t.mem = s1.mem)) ∧
     (isBarrierPipe s pipe = false ∨ (rollStore s (partOfPipe s pipe)).loading = false →
       exec (.rollLoadComplete pipe ecc) s = .next s)) ∧
   (∀ (s : State) (i : Nat),
     let p := partOfPipe s i
     let q := fld (rget s .fab i 0x118) 2 0
     let swaps := (fabState s i = 0 ∨ fabState s i = 1 ∨ fabState s i = 9) ∧ (port s i).planeKnown = true ∧
       (rollStore s p).data ≠ [] ∧ (rollStore s p).variant = 0 ∧ bit (rollVariants (rollStore s p)) (q + 1) = true
     (swaps → Completes (.planeFailTimer i) s (fun t =>
       rollStore t p = { rollStore s p with variant := q + 1, auto := true } ∧ t.mem = s.mem)) ∧
     (¬ swaps → exec (.planeFailTimer i) s = .next s))) ∧
  ((∀ (req : Req) (pipe c : Nat), ∀ I ∈ [Instr.peerClear req pipe c, .peerMarkLost req pipe c],
     TurnsAway I req .col pipe 0x240 ∧
     ∀ (s : State), Serves s req .col pipe → isBarrierPipe s pipe = false → exec I s = .next s) ∧
   (∀ (s : State) (req : Req) (pipe c : Nat), Serves s req .col pipe → isBarrierPipe s pipe = true →
     let p := partOfPipe s pipe
     (2 ≤ (peer s p c).state →
       Completes (.peerClear req pipe c) s (fun t =>
         ((peer s p c).announced = true → (peer t p c).state = 1 ∧ (peer t p c).epoch = (peer s p c).newEpoch ∧
           (peer t p c).prevEpoch = (peer s p c).epoch) ∧
         ((peer s p c).announced = false → (peer t p c).state = 0) ∧ (peer t p c).unreach = (peer s p c).unreach ∧
         t = { s with peers := t.peers })) ∧
     ((peer s p c).state < 2 → exec (.peerClear req pipe c) s = .next s) ∧
     ((peer s p c).state = 1 →
       Completes (.peerMarkLost req pipe c) s (fun t => (peer t p c).state = 3 ∧ t.mem = s.mem)) ∧
     ((peer s p c).state ≠ 1 → exec (.peerMarkLost req pipe c) s = .next s)) ∧
   (∀ (s s1 : State) (i part : Nat) (data : List Byte) (tagOk : Bool),
     ∀ c ∈ [(Instr.resetNotice, tResetNotice), (Instr.epochAnnounce, tEpochAnnounce)],
     (arriveCheck s (arrival s i part) c.2 data tagOk = (s1, none) → exec (c.1 i part data tagOk) s = .next s1) ∧
     (∀ k, arriveCheck s (arrival s i part) c.2 data tagOk = (s1, some k) → k.dstEndpt ≠ carillonEndpt →
       exec (c.1 i part data tagOk) s = .next (discardPkt s1 (arrival s i part)))) ∧
   (∀ (s s1 : State) (i part : Nat) (data : List Byte) (tagOk : Bool) (k : Pkt) (p : Nat),
     arriveCheck s (arrival s i part) tResetNotice data tagOk = (s1, some k) → k.dstEndpt = carillonEndpt →
     p < partCount s1 → k.srcCoord < 65536 →
     Completes (.resetNotice i part data tagOk) s (fun t =>
       ((peer s1 p k.srcCoord).state = 1 → (peer t p k.srcCoord).state = 2) ∧
       ((peer s1 p k.srcCoord).state ≠ 1 → peer t p k.srcCoord = peer s1 p k.srcCoord) ∧ t.mem = s.mem)) ∧
   (∀ (s s1 : State) (i part : Nat) (data : List Byte) (tagOk : Bool) (k : Pkt) (p : Nat),
     arriveCheck s (arrival s i part) tEpochAnnounce data tagOk = (s1, some k) → k.dstEndpt = carillonEndpt →
     p < partCount s1 → k.srcCoord < 65536 →
     let e := peer s1 p k.srcCoord
     let ends := e.state = 1 ∧ e.epoch = k.operand % 2 ^ 32
     Completes (.epochAnnounce i part data tagOk) s (fun t =>
       (2 ≤ e.state ∨ ends → (peer t p k.srcCoord).announced = true ∧ (peer t p k.srcCoord).newEpoch = k.srcEpoch) ∧
       (2 ≤ e.state → (peer t p k.srcCoord).state = e.state) ∧ (ends → (peer t p k.srcCoord).state = 2) ∧
       (e.state < 2 → ¬ ends → peer t p k.srcCoord = e) ∧ t.mem = s.mem)))

/-! ### The host port (R268 to R276, R287 to R291, R466) -/

/-- A BAR2 access that lies in one granule, which maps to a populated address (R274, R275). -/
structure Sys2Proof.Machine.Bar2Piece (s : State) (f off len d : Nat) : Prop where
  isOpen : bar2Open s f = true
  some : 0 < len
  piece : (bar2Win s f + off) % 64 + len ≤ 64
  maps : apertureAt s f (bar2Win s f + off) = Option.some d

/-- Every byte of a BAR2 access that reaches memory reaches a region whose key is loaded and a pseudo-channel that answers, and finds no
poison (R217, R221, R226). -/
def Sys2Proof.Machine.Bar2Sound (s : State) (f off len : Nat) : Prop :=
  ∀ j d, j < len → apertureAt s f (bar2Win s f + off + j) = some d →
    keyAbsent s d = false ∧ deadGranule s d = false ∧ mgetD s.poison (d / 64) false = false

/-- Accesses of the host (R271, R274, R275, R287): a configuration request before S7 gets Retry Status, of an absent
function Unsupported Request, else its register; a BAR2 read returns the bytes at the DPA, of an unpopulated address
zeros with BAR2_UNPOPULATED, of a poisoned granule a Poisoned completion; a write stores its enabled bytes there and
no other; before S7 and with the link down an access of the host has no effect and no answer (R289). The choices that
it rests on are the model's: log entry 51. -/
def Obligations.HostAccesses : Prop :=
  (∀ (s : State) (f : Nat) (wr : Bool) (r : CfgReg) (v : Nat),
    (s.host.up = false → exec (.configRequest f wr r v) s = .next s) ∧
    (s.host.up = true → bootStage s < 7 → s.fw.recovery = false →
      exec (.configRequest f wr r v) s = .next (emit s (.pcieCpl f cplCrs []))) ∧
    (s.host.up = true → 7 ≤ bootStage s ∨ s.fw.recovery = true → funcPresent s f = false →
      exec (.configRequest f wr r v) s = .next (emit s (.pcieCpl f cplUr []))) ∧
    (s.host.up = true → 7 ≤ bootStage s ∨ s.fw.recovery = true → funcPresent s f = true →
      exec (.configRequest f false r v) s = .next (emit s (.pcieCpl f cplOk (leBytes (cfgRead s f r) 4))) ∧
      Completes (.configRequest f true r v) s (fun t =>
        Sent t (.pcieCpl f cplOk []) ∧ t.mem = s.mem ∧ t.cores = s.cores ∧ RegsKept s t [page .pce 0 + 0x10C] ∧
        (r = .busMaster ∨ r = .msixEnable → cfgRead t f r = v % 2) ∧
        (r = .bar2Size → cfgRead t f r = clamp 30 40 v) ∧
        (r = .numVfs → f = 0 → s.host.vfEnable = false → cfgRead t 0 r = min 8 v) ∧
        (r = .vfEnable → f = 0 → cfgRead t 0 r = v % 2) ∧
        (r ∈ [.ids, .classCode, .totalVfs, .initialVfs, .msixTable, .msixPba, .maxPayloadSupported] →
          cfgRead t f r = cfgRead s f r)))) ∧
  (∀ (s : State) (f off len d : Nat) (ecc : Ecc), Bar2Piece s f off len d →
    (∀ (s1 s2 : State) (b : List Byte), checkRead s d len ecc noCtag = (s1, none) → readData s1 d len noCtag = (s2, b) →
      exec (.bar2Read f off len ecc) s = .next (emit (moveBytes s2 (dpaTile d) 0 len) (.pcieCpl f cplOk b))) ∧
    (∀ (s1 s2 : State) (x : Nat) (b : List Byte), checkRead s d len ecc noCtag = (s1, some x) →
      readData s1 d len noCtag = (s2, b) →
      exec (.bar2Read f off len ecc) s =
        .next (emit (recErr (moveBytes s2 (dpaTile d) 0 len) ePcePoisonCpl 0 f 0 noCtag) (.pcieCpl f cplPoison b)))) ∧
  (∀ (s : State) (f off len : Nat), bar2Open s f = true → len ≤ maxPayload → Bar2Sound s f off len →
    Completes (.bar2Read f off len .none) s (fun t => ∃ bs, Sent t (.pcieCpl f cplOk bs) ∧ bs.length = len ∧
      (∀ j, j < len → bs[j]? = match apertureAt s f (bar2Win s f + off + j) with
        | some d => (readMem s d 1).head?
        | none => some 0) ∧
      (∀ j, j < len → apertureAt s f (bar2Win s f + off + j) = none →
        wbit (rget t .pce 0 0x20) eBar2Unpopulated.bit = true) ∧ t.mem = s.mem)) ∧
  (∀ (s : State) (f off : Nat) (data : List Byte) (be : List Bool), bar2Open s f = true → data.length ≤ maxPayload →
    Bar2Sound s f off data.length → Memory.wf s.mem = true →
    let a := bar2Win s f + off
    Completes (.bar2Write f off data be) s (fun t =>
      (∀ j d b, data[j]? = some b → (be[j]?).getD true = true → apertureAt s f (a + j) = some d → readMem t d 1 = [b]) ∧
      (∀ x, (∀ j d, j < data.length → (be[j]?).getD true = true → apertureAt s f (a + j) = some d → x ≠ d) →
        memGet t.mem x = memGet s.mem x) ∧
      (∀ j, j < data.length → apertureAt s f (a + j) = none → wbit (rget t .pce 0 0x20) eBar2Unpopulated.bit = true) ∧
      t.cores = s.cores)) ∧
  (∀ (s : State) (f off len : Nat) (ecc : Ecc),
    (s.host.up = false ∨ bootStage s < 7 ∨ s.chipReset.isSome = true ∨ maxPayload < len →
      exec (.bar2Read f off len ecc) s = .next s) ∧
    (s.host.up = true → bootStage s = 7 → s.chipReset = none → len ≤ maxPayload → funcPresent s f = false →
      exec (.bar2Read f off len ecc) s = .next (emit s (.pcieCpl f cplUr [])))) ∧
  (∀ (s : State) (f off : Nat) (data : List Byte) (be : List Bool), bar2Open s f = false ∨ maxPayload < data.length →
    exec (.bar2Write f off data be) s = .next s)

/-- The width that the next narrower link has (R269). -/
def Sys2Proof.Machine.nextWidth (s : State) : Nat := (if s.host.up then s.host.width else s.host.maxWidth) / 2

/-- The link (R268, R269, R287 to R289): it comes up at a width and rate that it supports, from S2 on and in ROM recovery;
it goes down with the configuration of every function at reset and PCE_LINK_DOWN; a failed lane, and the fourth
Recovery within 10 s, give the next narrower width with PCE_WIDTH_DEGRADED, past x4 PCE_LINK_FAILED; PERST_N takes it
down, ends its width limit and requests a chip reset. Resets that the host asks for (R288, R466): an FLR of a VF asks
for its partition's reset, of the PF for that of every one; a write of PCE_RESET_CMD for a partition's or the
package's; an FLR of an absent function, or before S7, has no effect. -/
def Obligations.HostLinkAndResets : Prop :=
  ((∀ (s : State) (width gen : Nat) (flit : Bool),
     let trains := s.host.perst = false ∧ s.host.failed = false ∧
       ((2 ≤ bootStage s ∧ s.power.st < 3) ∨ (s.fw.recovery = true ∧ s.power.vin48 = true)) ∧ width ≤ s.host.maxWidth ∧
       (width = 4 ∨ width = 8 ∨ width = 16) ∧ 1 ≤ gen ∧ gen ≤ 7 ∧ (6 ≤ gen → flit = true)
     (trains → Completes (.pcieLinkUp width gen flit) s (fun t =>
       t.host = { s.host with up := true, width := width, gen := gen, flit := flit } ∧ t.mem = s.mem ∧
       RegsKept s t [page .pce 0 + 0x100])) ∧
     (¬ trains → exec (.pcieLinkUp width gen flit) s = .next s)) ∧
   (∀ s : State,
     (s.host.up = true → Completes .pcieLinkDown s (fun t =>
       t.host.up = false ∧ t.host.vfEnable = false ∧ t.host.bme = [] ∧ t.host.msixEnable = [] ∧ t.host.cfg = [] ∧
       t.host.bars = [] ∧ wbit (rget t .pce 0 0x20) ePceLinkDown.bit = true ∧ t.mem = s.mem)) ∧
     (s.host.up = false → exec .pcieLinkDown s = .next s)) ∧
   (∀ (s : State) (b : Bool), s.host.failed = false → s.host.perst = false →
     let recent := s.host.recoveries.filter (fun t => within s 10000000 t)
     (b = true → recent.length < 3 → Completes (.pcieLaneFailed b) s (fun t =>
       t.host = { s.host with recoveries := recent ++ [s.us] } ∧ t.mem = s.mem ∧ RegsKept s t [page .pce 0 + 0x108])) ∧
     (b = false ∨ 3 ≤ recent.length →
       (4 ≤ nextWidth s → Completes (.pcieLaneFailed b) s (fun t =>
         t.host.maxWidth = nextWidth s ∧ t.host.width = min s.host.width (nextWidth s) ∧ t.host.degraded = true ∧
         t.host.up = s.host.up ∧ wbit (rget t .pce 0 0x20) ePceWidthDegraded.bit = true ∧ t.mem = s.mem)) ∧
       (nextWidth s < 4 → Completes (.pcieLaneFailed b) s (fun t =>
         t.host.failed = true ∧ t.host.up = false ∧ wbit (rget t .pce 0 0x20) ePceLinkFailed.bit = true ∧
         t.mem = s.mem)))) ∧
   (∀ (s : State) (b : Bool), s.host.failed = true ∨ s.host.perst = true → exec (.pcieLaneFailed b) s = .next s) ∧
   (∀ s : State,
     Completes .perstAssert s (fun t =>
       t.host.up = false ∧ t.host.perst = true ∧ t.host.maxWidth = 16 ∧ t.host.failed = false ∧ t.mem = s.mem ∧
       (s.carillon.powered = true → t.reqChip.isSome = true))) ∧
   (∀ s : State, exec .perstDeassert s = .next { s with host := { s.host with perst := false } })) ∧
  ((∀ (s : State) (p : Nat), s.host.up = true → bootStage s = 7 → funcPresent s (p + 1) = true →
     Completes (.vfFlr p) s (fun t =>
       t.mem = s.mem ∧ t.cores = s.cores ∧ t.regs = s.regs ∧ cfgRead t (p + 1) .busMaster = 0 ∧
       (p < partCount s → mget t.flr p = some true ∧ (mget s.partReset p = none → (mget t.reqPart p).isSome = true)) ∧
       (partCount s ≤ p → t.reqPart = s.reqPart))) ∧
   (∀ (s : State) (p : Nat), s.host.up = false ∨ bootStage s ≠ 7 ∨ funcPresent s (p + 1) = false →
     exec (.vfFlr p) s = .next s) ∧
   (∀ s : State,
     (s.host.up = true → bootStage s = 7 → Completes .pfFlr s (fun t =>
       t.host.vfEnable = false ∧ t.host.numVfs = 0 ∧ (∀ p, p < partCount s → mget t.flr p = some true) ∧
       (∀ p, p < partCount s → mget s.partReset p = none → (mget t.reqPart p).isSome = true) ∧ t.mem = s.mem)) ∧
     (s.host.up = false ∨ bootStage s ≠ 7 → exec .pfFlr s = .next s)) ∧
   (∀ (req : Req) (p : Nat) (scrub : Bool), TurnsAway (.pcePartitionReset req p scrub) req .pce 0 0x110 ∧
     TurnsAway (.pceChipReset req) req .pce 0 0x110 ∧
     ∀ (s : State), Serves s req .pce 0 →
     (p < partCount s → exec (.pcePartitionReset req p scrub) s =
       .next (requestPart s p 3 false scrub (page .pce 0))) ∧
     (partCount s ≤ p → exec (.pcePartitionReset req p scrub) s =
       .next (recErr s ePceResetInvalid 0 (reqNo req) p noCtag)) ∧
     exec (.pceChipReset req) s = .next (requestChip s 3 false (page .pce 0))))

/-! ### Memory upkeep, bridges, islands (R30 to R39, R45, R211 to R231) -/

/-- HBM upkeep (R211, R212, R218, R219, R221, R224): a refresh of a served pseudo-channel goes out, and its parity answer
is judged: a corrected one is recorded, and the third uncorrected within 1 s and one that does not answer make the
pseudo-channel permanent; a refresh management request is honoured; the scrub reads one granule and moves on, and
starts again past the last; the end of a zeroising clears its watermark; a unit that takes none changes nothing.
Bridges (R30, R31, R227): a failed flit is replayed and counted; a lane with more than 16 replays in 1 ms takes the
spare of its group, once; the bridge then goes out of service, with BRG_RETIRED, and the second one out of a split
that spans tiles requests a chip reset; a bridge out of service changes no more. Islands (R32 to R39, R45): two
adjacent islands more than 45 °C apart put the hotter one at half clock until they are within 40 °C; a supply or clock
difference stops both; a pair with a stopped island, or that is not adjacent, has no envelope. The choices that it
rests on are the model's: log entries 40 and 48. -/
def Obligations.Upkeep : Prop :=
  ((∀ (s : State) (stack pc ca : Nat), pcServed s stack pc = false →
     exec (.hbmRefresh stack pc ca) s = .next s ∧ exec (.refreshManagementRequest stack pc) s = .next s) ∧
   (∀ (s : State) (stack pc ca : Nat), stack < 16 → pcServed s stack pc = true →
     let u := emit s (.note "REFpb" [stack, pc])
     let fails := ((stack, pc, s.us) :: s.caFails.filter (fun e => within s 1000000 e.2.2)).filter
       (fun e => e.1 = stack && e.2.1 = pc)
     (ca = 0 ∨ 3 < ca → exec (.hbmRefresh stack pc ca) s = .next u) ∧
     Completes (.hbmRefresh stack pc 1) s (fun t =>
       wbit (rget t .hbm stack 0x20) eHbmCaParity.bit = true ∧ t.mem = s.mem) ∧
     (fails.length < 3 → Completes (.hbmRefresh stack pc 2) s (fun t => t = { u with caFails := t.caFails } ∧
       (stack, pc, s.us) ∈ t.caFails)) ∧
     (3 ≤ fails.length → Completes (.hbmRefresh stack pc 2) s (fun t =>
       wbit (rget t .hbm stack (if pc < 32 then 0x118 else 0x11C)) (pc % 32) = true ∧ t.pcDead = s.pcDead)) ∧
     Completes (.hbmRefresh stack pc 3) s (fun t =>
       wbit (rget t .hbm stack 0x20) eHbmPcFailed.bit = true ∧ (stack, pc) ∈ t.pcDead) ∧
     exec (.refreshManagementRequest stack pc) s = .next (emit s (.note "RFM" [stack, pc]))) ∧
   (∀ (s : State) (stack pc : Nat) (ecc : Ecc),
     (pcServed s stack pc = false ∨ wbit (rget s .hbm stack 0x120) 0 = false →
       exec (.patrolScrubRead true stack pc ecc) s = .next s) ∧
     (pcServed s stack pc = true → wbit (rget s .hbm stack 0x120) 0 = true →
       let g := scrubSkip s stack pc 8192 (mgetD s.scrub (64 * stack + pc) 0)
       Completes (.patrolScrubRead true stack pc ecc) s (fun t =>
         (g + 1 < pcGranules → mgetD t.scrub (64 * stack + pc) 0 = g + 1) ∧
         (pcGranules ≤ g + 1 → keysRising s.scrub = true → mgetD t.scrub (64 * stack + pc) 0 = 0) ∧
         (ecc = .none → t.mem = s.mem)))) ∧
   (∀ (s : State) (i bank : Nat) (ecc : Ecc),
     (sliceRetired s i = true ∨ wbit (rget s .stg i 0x118) 0 = false →
       exec (.patrolScrubRead false i bank ecc) s = .next s) ∧
     (sliceRetired s i = false → wbit (rget s .stg i 0x118) 0 = true →
       let g := mgetD s.scrub (4096 + 16 * i + bank) 0
       Completes (.patrolScrubRead false i bank ecc) s (fun t =>
         (g + 1 < bankGranules → mgetD t.scrub (4096 + 16 * i + bank) 0 = g + 1) ∧
         (bankGranules ≤ g + 1 → keysRising s.scrub = true → mgetD t.scrub (4096 + 16 * i + bank) 0 = 0) ∧
         (ecc = .none → t.mem = s.mem)))) ∧
   (∀ (s : State) (unit : Nat),
     ((mget s.zeroAt unit).isSome = true → keysRising s.zeroAt = true →
       Completes (.zeroiseComplete unit) s (fun t =>
         mget t.zeroAt unit = none ∧ (∀ u, u ≠ unit → mget t.zeroAt u = mget s.zeroAt u) ∧ t.mem = s.mem ∧
         (unit < 8 → wbit (rget t .hbm (2 * unit) 0x144) 16 = false) ∧
         (8 ≤ unit → wbit (rget t .stg (unit - 8) 0x124) 3 = false))) ∧
     (mget s.zeroAt unit = none → exec (.zeroiseComplete unit) s = .next s))) ∧
  ((∀ (s : State) (b dir grp lane : Nat), s.brgOut.contains b = true →
     exec (.brgFlitCrcFail b dir grp lane) s = .next s ∧ exec (.brgLaneSpared b dir grp lane) s = .next s ∧
     exec (.brgRetired b dir grp) s = .next s) ∧
   (∀ (s : State) (b dir grp lane : Nat), b < 4 → s.brgOut.contains b = false →
     Completes (.brgFlitCrcFail b dir grp lane) s (fun t =>
       rget t .brg b 0x114 = wd (min 0xFFFFFFFF ((rget s .brg b 0x114).toNat + 1)) ∧
       wbit (rget t .brg b 0x20) eBrgReplay.bit = true ∧ t.brgOut = s.brgOut ∧ t.mem = s.mem)) ∧
   (∀ (s : State) (b dir grp lane : Nat), b < 4 → s.brgOut.contains b = false →
     (laneReplays s b (brgGroup dir grp) lane ≤ 16 → exec (.brgLaneSpared b dir grp lane) s = .next s) ∧
     (16 < laneReplays s b (brgGroup dir grp) lane → wbit (rget s .brg b 0x108) (brgGroup dir grp) = false →
       Completes (.brgLaneSpared b dir grp lane) s (fun t =>
         wbit (rget t .brg b 0x108) (brgGroup dir grp) = true ∧ t.brgOut = s.brgOut ∧
         wbit (rget t .brg b 0x20) eBrgLaneSpared.bit = true ∧
         laneReplays t b (brgGroup dir grp) lane = 0 ∧ t.mem = s.mem)) ∧
     (16 < laneReplays s b (brgGroup dir grp) lane → wbit (rget s .brg b 0x108) (brgGroup dir grp) = true →
       Completes (.brgLaneSpared b dir grp lane) s (fun t => t.brgOut = s.brgOut ++ [b] ∧
         wbit (rget t .brg b 0x20) eBrgRetired.bit = true ∧ t.mem = s.mem))) ∧
   (∀ (s : State) (b dir grp : Nat), b < 4 → s.brgOut.contains b = false →
     Completes (.brgRetired b dir grp) s (fun t => t.brgOut = s.brgOut ++ [b] ∧
       wbit (rget t .brg b 0x20) eBrgRetired.bit = true ∧ t.mem = s.mem ∧
       (s.brgOut.length = 1 → s.split ≤ 1 → t.reqChip.isSome = true)))) ∧
  ((∀ (s : State) (a b ta tb : Nat), adjacent a b = true → islandStopped s a = false → islandStopped s b = false →
     let hot := if tb ≤ ta then a else b
     let cold := if tb ≤ ta then b else a
     let diff := if tb ≤ ta then ta - tb else tb - ta
     Completes (.islandSensorSample a b ta tb) s (fun t =>
       (island t a).temp = ta ∧ (island t b).temp = tb ∧ t.mem = s.mem ∧ hot ∉ (island t cold).above ∧
       (45 < diff → (island t hot).half = true ∧ cold ∈ (island t hot).above) ∧
       (45 < diff → cold ∉ (island s hot).above →
         wbit (rget t .til (pairTile hot cold) 0x20) eIslandGradient.bit = true) ∧
       (40 < diff → diff ≤ 45 → (island t hot).above = (island s hot).above) ∧
       (diff ≤ 40 → cold ∉ (island t hot).above) ∧
       (diff ≤ 45 ∨ cold ∈ (island s hot).above → t.regs = s.regs))) ∧
   (∀ (s : State) (a b ta tb : Nat), adjacent a b = false ∨ islandStopped s a = true ∨ islandStopped s b = true →
     Completes (.islandSensorSample a b ta tb) s (fun t =>
       t = { s with islands := t.islands } ∧ (islValid b = true → (island t b).temp = tb) ∧
       (∀ i, (island t i).above = (island s i).above ∧ (island t i).stopped = (island s i).stopped))) ∧
   (∀ (s : State) (a b : Nat), ∀ e ∈ [(Instr.islandSupplySkew, eIslandSupplySkew), (Instr.islandClockSkew, eIslandClockSkew)],
     (adjacent a b = true → pairExempt s a b = false →
       Completes (e.1 a b) s (fun t => (island t a).stopped = true ∧ (island t b).stopped = true ∧
         wbit (rget t .til (pairTile a b) 0x20) e.2.bit = true ∧ t.mem = s.mem)) ∧
     (adjacent a b = false ∨ pairExempt s a b = true → exec (e.1 a b) s = .next s)))

/-! ### Fabric ports below the packet (R296 to R318, R325, R339) -/

/-- A flit that meets `P` has left a port on a lane, in the codeword of its marker and its bytes (R296, R297). -/
def Sys2Proof.Machine.FlitOn (t : State) (i lane : Nat) (P : List Byte → Prop) : Prop :=
  ∃ c b, Out.wire i "FLIT" (lane :: lineCodeword lane c b) ∈ t.out ∧ P b

/-- The fourth entry to RETRAIN within 60 s retires the port (R306). -/
def Sys2Proof.Machine.retrainTo (s : State) (i : Nat) : Nat :=
  if 3 ≤ ((port s i).retrainUs.filter (within s 60000000)).length then 10 else 7

/-- The state of a port whose lane set has a width (R305, R315). -/
def Sys2Proof.Machine.carryTo (set : Nat) : Nat :=
  if 16 ≤ popBelow set 17 then 4 else if 8 ≤ popBelow set 17 then 5 else 10

/-- Commands and states of a port (R305 to R313): ENABLE, DISABLE, RETRAIN (the fourth within 60 s retires the port),
RECHECK, CLEAR and RETIRE_LANE, each without effect in a state that does not take it; signal starts training from S6
on, training retires the lanes it does not accept, three attempts that fail on signal retire the port; a frame of the
partner that passes the checks makes its plane and coordinate known, the 16 identity flits that follow its
acknowledgement make the port carry, and one that fails puts it in QUARANTINE or DISABLED. The choices that it rests
on are the model's: log entries 38 and 58. -/
def Obligations.LinkStates : Prop :=
  (∀ (s : State) (req : Req) (i : Nat), i < 8 → Serves s req .fab i →
    (fabState s i = 0 → reach s i ≠ 0 →
      Completes (.fabCmdEnable req i) s (fun t => fabState t i = 1 ∧ t.mem = s.mem)) ∧
    (fabState s i ≠ 0 ∨ reach s i = 0 → exec (.fabCmdEnable req i) s = .next s) ∧
    Completes (.fabCmdDisable req i) s (fun t =>
      fabState t i = 0 ∧ wbit (rget t .fab i 0x118) 7 = false ∧ (port t i).planeKnown = (port s i).planeKnown ∧
      (port t i).replay = [] ∧
      t.mem = s.mem) ∧
    (fabState s i = 4 ∨ fabState s i = 5 ∨ fabState s i = 6 →
      Completes (.fabCmdRetrain req i) s (fun t => fabState t i = retrainTo s i ∧ t.mem = s.mem)) ∧
    (fabState s i ∉ [4, 5, 6] → exec (.fabCmdRetrain req i) s = .next s) ∧
    (fabState s i = 9 →
      Completes (.fabCmdRecheck req i) s (fun t => fabState t i = 3 ∧ (port t i).heard = false ∧ t.mem = s.mem)) ∧
    (fabState s i ≠ 9 → exec (.fabCmdRecheck req i) s = .next s) ∧
    (fabState s i = 10 →
      Completes (.fabCmdClear req i) s (fun t =>
        fabState t i = 0 ∧ lanesRetired t i = 0 ∧ lanesTemp t i = 0 ∧ t.mem = s.mem)) ∧
    (fabState s i ≠ 10 → exec (.fabCmdClear req i) s = .next s) ∧
    (∀ lane,
      (lane < 17 → bit (lanesRetired s i) lane = false → fabState s i ≠ 10 →
        Completes (.fabCmdRetireLane req i lane) s (fun t =>
          bit (lanesRetired t i) lane = true ∧ bit (lanesTemp t i) lane = false ∧ t.mem = s.mem)) ∧
      (17 ≤ lane ∨ bit (lanesRetired s i) lane = true ∨ fabState s i = 10 →
        exec (.fabCmdRetireLane req i lane) s = .next s))) ∧
  (∀ (req : Req) (i lane : Nat), ∀ c ∈ [Instr.fabCmdEnable req i, .fabCmdDisable req i, .fabCmdRetrain req i,
    .fabCmdRecheck req i, .fabCmdClear req i, .fabCmdRetireLane req i lane], TurnsAway c req .fab i 0x108) ∧
  (∀ (s : State) (i lanes : Nat), i < 8 →
    (fabState s i = 1 → 8 ≤ lanes → trainOpen s = true → Completes (.fabSignalDetect i lanes) s (fun t =>
      fabState t i = 2 ∧ (port t i).attempts = 0 ∧ t.mem = s.mem)) ∧
    (fabState s i ≠ 1 ∨ lanes < 8 ∨ trainOpen s = false → exec (.fabSignalDetect i lanes) s = .next s) ∧
    (fabState s i = 1 → exec (.downProbe i) s = .next (emit s (.wire i "PROBE" []))) ∧
    (fabState s i ≠ 1 → exec (.downProbe i) s = .next s)) ∧
  (∀ (s : State) (i : Nat) (lanes : List LaneTrain) (signal : Bool), i < 8 →
    let good := trainedLanes s i lanes
    (fabState s i = 2 ∨ fabState s i = 7 →
      (8 ≤ popBelow good 17 → Completes (.trainingAttemptEnd i lanes signal) s (fun t =>
        fabState t i = 3 ∧ (port t i).heard = false ∧ (∀ n, n < 17 → bit (lanesRetired t i) n = !bit good n) ∧
        t.mem = s.mem)) ∧
      (popBelow good 17 < 8 → Completes (.trainingAttemptEnd i lanes signal) s (fun t =>
        (2 ≤ (port s i).attempts → signal = true → fabState t i = 10) ∧
        ((port s i).attempts < 2 ∨ signal = false → fabState t i = fabState s i ∧
          (port t i).attempts = (port s i).attempts + 1) ∧ t.mem = s.mem))) ∧
    (fabState s i ≠ 2 → fabState s i ≠ 7 → exec (.trainingAttemptEnd i lanes signal) s = .next s)) ∧
  (∀ (s : State) (i rtt : Nat) (f : List Byte), i < 8 →
    (fabState s i = 3 →
      (identityCheck s i f = 0 →
        Completes (.identityFrame i f rtt) s (fun t =>
          fabState t i = 3 ∧ (port t i).heard = true ∧ (port t i).planeKnown = true ∧
          wbit (rget t .fab i 0x118) 7 = true ∧ fld (rget t .fab i 0x118) 2 0 = leAt f 0xB 1 ∧
          ownCoord t = some (leAt f 0xC 2) ∧
          (∀ n, n < 17 → bit (leAt f 0x10 4) n = false → bit (lanesRetired t i) n = true) ∧
          (leAt f 0x24 1 = 1 → (port t i).identLeft = 16) ∧ t.mem = s.mem)) ∧
      (identityCheck s i f = 3 → Completes (.identityFrame i f rtt) s (fun t =>
        fabState t i = 0 ∧ fld (rget t .fab i 0x100) 11 8 = 3 ∧ t.mem = s.mem)) ∧
      (identityCheck s i f ≠ 0 → identityCheck s i f ≠ 3 →
        Completes (.identityFrame i f rtt) s (fun t =>
          fabState t i = 9 ∧ fld (rget t .fab i 0x100) 11 8 = identityCheck s i f ∧
          wbit (rget t .fab i 0x118) 7 = false ∧ wbit (rget t .fab i 0x20) eFabQuarantine.bit = true ∧
          t.mem = s.mem)) ∧
      ((port s i).heard = false →
        Completes (.identifyTimeout i) s (fun t =>
          fabState t i = 2 ∧ (port t i).attempts = (port s i).attempts + 1 ∧ t.mem = s.mem))) ∧
    (fabState s i ≠ 3 → exec (.identityFrame i f rtt) s = .next s) ∧
    (fabState s i ≠ 3 ∨ (port s i).heard = true → exec (.identifyTimeout i) s = .next s)) ∧
  (∀ (s : State) (i : Nat), i < 8 → fabState s i = 3 ∨ fabState s i = 9 →
    (fabState s i = 3 → (port s i).identLeft = 1 → Completes (.flitTransmit i) s (fun t =>
      fabState t i = carryTo (chooseSet (lanesUsable s i)) ∧ t.mem = s.mem)) ∧
    (fabState s i = 9 ∨ (port s i).identLeft ≠ 1 → Completes (.flitTransmit i) s (fun t =>
      fabState t i = fabState s i ∧
      (∀ n, n < 17 → bit (lanesRetired s i) n = false →
        FlitOn t i n (fun b => slice b 0x10 64 = identityFrame s i ∧ bit (leAt b 0 8) 35 = true)) ∧
      (fabState s i = 3 → (port t i).identLeft = (port s i).identLeft - 1) ∧ t.mem = s.mem)))

/-- Flits (R296 to R304, R341): a DATA flit takes the next FSN, leaves on the lane of its turn and stays in the replay
buffer; a flit asked for again is sent again, in PAUSED too; the lanes outside the set carry IDLE flits; one received
in order is taken and its packets are delivered, a codeword that is not correctable or a flit with a bad CRC asks for
a replay, and the fourth failure in a row retrains the port; in a chip reset the port goes DOWN when its notices have
left (R361, R467). Link control (R300, R316 to R318, R325): every flit repeats the newest message; a pause is
requested, acknowledged on the lane set it names, and left by RESUME when every flit is acknowledged; a receiver acts
once per TOKEN; STANDBY and WAKE; keepalives; a message that the port's state does not take has no effect. The choices
that it rests on are the model's: log entries 38 and 45. -/
def Obligations.LinkTraffic : Prop :=
  ((∀ (s : State) (i : Nat), i < 8 → portUp s i = true → (port s i).resumeSent = false ∨ (port s i).resumed = true →
     (s.chipReset = none ∨ s.chipAtS2 = true →
       Completes (.flitTransmit i) s (fun t =>
         fabState t i = fabState s i ∧
         ((port s i).resendFrom = none → (fillFlit 11 (port s i) 63).1.txBytes ≠ [] →
           (port s i).replay.length < replayCap s i →
           (port t i).txFsn = ((port s i).txFsn + 1) % 65536 ∧
           (∃ off d, (port t i).replay = (port s i).replay ++ [((port s i).txFsn, off, d)] ∧
             d = (fillFlit 11 (port s i) 63).1.txBytes.take 608 ∧
             FlitOn t i (fsnLane s i (port s i).txFsn) (fun b => b = flitBytes s i (port s i).txFsn true false off d))) ∧
         (∀ n, n < 17 → bit (lanesRetired s i) n = false → bit (laneSet s i) n = false →
           FlitOn t i n (fun b => bit (leAt b 0 8) 33 = false)) ∧ t.mem = s.mem)) ∧
     (s.chipReset.isSome = true → s.chipAtS2 = false → (port (carryFlit s i) i).txMgt = [] →
       (port (carryFlit s i) i).txBytes = [] →
       Completes (.flitTransmit i) s (fun t => fabState t i = 1 ∧ t.mem = s.mem))) ∧
   (∀ (s : State) (i : Nat), i < 8 →
     fabState s i = 6 ∨ portUp s i = true ∧ (port s i).resumeSent = true ∧ (port s i).resumed = false →
     Completes (.flitTransmit i) s (fun t =>
       fabState t i = fabState s i ∧ (port t i).txFsn = (port s i).txFsn ∧ (port t i).replay = (port s i).replay ∧
       (∀ f off d, (port s i).resendFrom = some f →
         (port s i).replay.find? (fun e => e.1 = f) = some (f, off, d) →
         (port t i).resendFrom = some ((f + 1) % 65536) ∧
         FlitOn t i (fsnLane s i f) (fun b => b = flitBytes s i f true false off d)) ∧ t.mem = s.mem)) ∧
   (∀ (s : State) (i : Nat), i < 8 →
     (fabState s i = 2 ∨ fabState s i = 7 → Completes (.flitTransmit i) s (fun t =>
       (∀ n, n < 17 → bit (lanesRetired s i) n = false → FlitOn t i n (fun b => bit (leAt b 0 8) 33 = false)) ∧
       t.regs = s.regs ∧ t.mem = s.mem)) ∧
     (fabState s i = 8 → Completes (.flitTransmit i) s (fun t =>
       FlitOn t i ((onesBelow (laneSet s i) 17).headD 0) (fun b => bit (leAt b 0 8) 33 = false) ∧
       t.regs = s.regs ∧ t.mem = s.mem)) ∧
     (fabState s i < 2 ∨ 10 ≤ fabState s i → exec (.flitTransmit i) s = .next s)) ∧
   (∀ (s : State) (i lane : Nat) (sym m : List Nat) (skew : Bool), i < 8 → fabState s i ∈ [4, 5, 6] →
     rsDecode sym = some m → leAt (lineFlit m) 0x278 8 = crc64 (slice (lineFlit m) 0 0x278) →
     let b := lineFlit m
     let fsn := bits (leAt b 0 8) 0 16
     let gap := fsn ≠ (port s i).rxFsn ∧ fsnLe fsn (port s i).rxFsn = false ∧ (port s i).nakOut = false
     (bit (leAt b 0 8) 33 = true → fsn = (port s i).rxFsn →
       Completes (.flitReceive i lane sym skew false) s (fun t =>
         ((port s i).early.find? (fun e => e.1 = ((port s i).rxFsn + 1) % 65536) = none →
           (port t i).rxFsn = ((port s i).rxFsn + 1) % 65536 ∧
           (port t i).rx = (port s i).rx ++ (parsePkts 70 ((port s i).rxBytes ++ slice b 0x10 608) []).1) ∧
         (∃ ps, (port t i).rx = (port s i).rx ++ (parsePkts 70 ((port s i).rxBytes ++ slice b 0x10 608) []).1 ++ ps) ∧
         (port t i).nakOut = false ∧ (port t i).failCount = 0 ∧
         (port t i).credReq = (port s i).credReq + leAt b 8 1 ∧ t.mem = s.mem)) ∧
     (bit (leAt b 0 8) 33 = true → gap → skew = false →
       Completes (.flitReceive i lane sym skew false) s (fun t =>
         (fsn, slice b 0x10 608) ∈ (port t i).early ∧ (port t i).rxFsn = (port s i).rxFsn ∧ t.mem = s.mem)) ∧
     (gap → skew = true → (port s i).failCount < 3 →
       Completes (.flitReceive i lane sym skew false) s (fun t =>
         (port t i).nakOut = true ∧ (port t i).failCount = (port s i).failCount + 1 ∧
         (port t i).rxFsn = (port s i).rxFsn ∧ t.mem = s.mem)) ∧
     ((bit (leAt b 0 8) 33 = false ∧ ¬ gap) ∨ (bit (leAt b 0 8) 33 = false ∧ skew = false) ∨
         (fsn ≠ (port s i).rxFsn ∧ ¬ gap) →
       Completes (.flitReceive i lane sym skew false) s (fun t =>
         (port t i).rxFsn = (port s i).rxFsn ∧ (port t i).rx = (port s i).rx ∧
         (port t i).credReq = (port s i).credReq + leAt b 8 1 ∧ t.mem = s.mem))) ∧
   (∀ (s : State) (i lane : Nat) (sym : List Nat) (skew : Bool), i < 8 → fabState s i ∈ [4, 5, 6] →
     (∀ m, rsDecode sym = some m → leAt (lineFlit m) 0x278 8 ≠ crc64 (slice (lineFlit m) 0 0x278)) →
     ((port s i).nakOut = false ∨ lane = fsnLane s i (port s i).rxFsn →
       ((port s i).failCount < 3 → Completes (.flitReceive i lane sym skew false) s (fun t =>
         (port t i).nakOut = true ∧ (port t i).failCount = (port s i).failCount + 1 ∧
         (port t i).rxFsn = (port s i).rxFsn ∧ wbit (rget t .fab i 0x20) eFabReplay.bit = true ∧ t.mem = s.mem)) ∧
       (3 ≤ (port s i).failCount → Completes (.flitReceive i lane sym skew false) s (fun t =>
         fabState t i = retrainTo s i ∧ t.mem = s.mem))) ∧
     ((port s i).nakOut = true → lane ≠ fsnLane s i (port s i).rxFsn →
       exec (.flitReceive i lane sym skew false) s =
         .next (if (rsDecode sym).isSome then s else bump s .fab i 0x144 1))) ∧
   (∀ (s : State) (i lane : Nat) (sym : List Nat) (skew bad : Bool), i < 8 →
     (fabState s i ∈ [4, 5, 6] → Completes (.flitReceive i lane sym skew true) s (fun t =>
       fabState t i = retrainTo s i ∧ wbit (rget t .fab i 0x20) eFabReplayEcc.bit = true ∧ t.mem = s.mem)) ∧
     (fabState s i ∉ [4, 5, 6] → exec (.flitReceive i lane sym skew bad) s =
       .next (if (rsDecode sym).isSome then s else bump s .fab i 0x144 1)))) ∧
  ((∀ (s : State) (i token lanes : Nat) (temp : Bool), i < 8 →
     (fabState s i ∈ [4, 5, 6] → (port s i).lastToken ≠ token →
       let set := if fabState s i = 6 ∧ (port s i).pauseOwn = true ∧ (port s i).pauseAcked = false then
         lanes &&& (port s i).pauseLanes else lanes
       (chooseSet set ≠ 0 → Completes (.pauseReq i token lanes temp) s (fun t =>
         fabState t i = 6 ∧ (port t i).lastToken = token ∧ (port t i).pauseLanes = chooseSet set ∧
         laneSet t i = chooseSet set ∧ liveCtl t i = some ⟨2, token, set, false, s.us⟩ ∧ t.mem = s.mem)) ∧
       (chooseSet set = 0 → Completes (.pauseReq i token lanes temp) s (fun t => fabState t i = 10 ∧ t.mem = s.mem))) ∧
     (fabState s i ∉ [4, 5, 6] ∨ (port s i).lastToken = token → exec (.pauseReq i token lanes temp) s = .next s)) ∧
   (∀ (s : State) (i token lanes : Nat), i < 8 →
     (fabState s i = 6 → (port s i).pauseOwn = true → (port s i).pauseAcked = false → (port s i).token = token →
       (chooseSet lanes ≠ 0 → Completes (.pauseAck i token lanes) s (fun t =>
         fabState t i = 6 ∧ (port t i).pauseAcked = true ∧ (port t i).pauseLanes = chooseSet lanes ∧
         laneSet t i = chooseSet lanes ∧ t.mem = s.mem)) ∧
       (chooseSet lanes = 0 → Completes (.pauseAck i token lanes) s (fun t => fabState t i = 10 ∧ t.mem = s.mem))) ∧
     (fabState s i ≠ 6 ∨ (port s i).pauseOwn = false ∨ (port s i).pauseAcked = true ∨ (port s i).token ≠ token →
       exec (.pauseAck i token lanes) s = .next s)) ∧
   (∀ (s : State) (i : Nat), i < 8 →
     (fabState s i = 6 → (port s i).pauseOwn = false ∨ (port s i).pauseAcked = true → (port s i).replay = [] →
       Completes (.pauseComplete i) s (fun t =>
         fabState t i = carryTo (port s i).pauseLanes ∧
         (8 ≤ popBelow (port s i).pauseLanes 17 →
           (port t i).resumeSent = true ∧ (port t i).pauseOwn = false ∧ rget t .fab i 0x10C = wd (port s i).pauseLanes ∧
           ((port s i).standbySent = false → liveCtl t i = some ⟨3,
             if (port s i).pauseOwn then (port s i).token else (port s i).lastToken, 0, false, s.us⟩)) ∧ t.mem = s.mem)) ∧
     (fabState s i ≠ 6 ∨ (port s i).replay ≠ [] ∨ (port s i).pauseOwn = true ∧ (port s i).pauseAcked = false →
       exec (.pauseComplete i) s = .next s)) ∧
   (∀ (s : State) (r : PortToken), r.port < 8 →
     (fabState s r.port ∈ [4, 5, 6] →
       (newToken s r.port 3 r.token = true → Completes (.linkResume r) s (fun t =>
         (port t r.port).resumed = true ∧ newToken t r.port 3 r.token = false ∧ t.regs = s.regs ∧ t.mem = s.mem)) ∧
       (newToken s r.port 4 r.token = true → Completes (.retrainReq r) s (fun t =>
         fabState t r.port = retrainTo s r.port ∧ t.mem = s.mem))) ∧
     (fabState s r.port ∉ [4, 5, 6] ∨ newToken s r.port 3 r.token = false → exec (.linkResume r) s = .next s) ∧
     (fabState s r.port ∉ [4, 5, 6] ∨ newToken s r.port 4 r.token = false → exec (.retrainReq r) s = .next s)) ∧
   (∀ (s : State) (i token : Nat), i < 8 →
     (portUp s i = true →
       (newToken s i 5 token = true → Completes (.standbyReq i token) s (fun t =>
         fabState t i = 8 ∧ (port t i).prior = fabState s i ∧ liveCtl t i = some ⟨6, token, 0, false, s.us⟩ ∧
         t.mem = s.mem)) ∧
       ((port s i).standbySent = true → (port s i).standbyTok = token →
         Completes (.standbyAck i token) s (fun t =>
           fabState t i = 8 ∧ (port t i).prior = fabState s i ∧ (port t i).standbySent = false ∧ t.mem = s.mem))) ∧
     (portUp s i = false ∨ newToken s i 5 token = false → exec (.standbyReq i token) s = .next s) ∧
     (portUp s i = false ∨ (port s i).standbySent = false ∨ (port s i).standbyTok ≠ token →
       exec (.standbyAck i token) s = .next s)) ∧
   (∀ (s : State) (i : Nat) (r : Option Nat), i < 8 →
     (fabState s i = 8 → (∀ k, r = some k → newToken s i 7 k = true) →
       (chooseSet (lanesUsable s i) = laneSet s i → Completes (.wake i r) s (fun t =>
         fabState t i = (port s i).prior % 16 ∧
         (r = none → ∃ tok, liveCtl t i = some ⟨7, tok, 0, false, s.us⟩) ∧ t.mem = s.mem)) ∧
       (chooseSet (lanesUsable s i) ≠ laneSet s i → Completes (.wake i r) s (fun t =>
         fabState t i = (if chooseSet (lanesUsable s i) = 0 then 10 else 6) ∧ t.mem = s.mem))) ∧
     (fabState s i ≠ 8 → exec (.wake i none) s = .next s ∧
       Completes (.wake i r) s (fun t => t.regs = s.regs ∧ t.mem = s.mem)) ∧
     (∀ k, newToken s i 7 k = false → exec (.wake i (some k)) s = .next s) ∧
     (fabState s i = 8 → Completes (.keepalive i) s (fun t =>
       FlitOn t i ((onesBelow (laneSet s i) 17).headD 0) (fun b => leAt b 0x270 1 = 8) ∧
       t.regs = s.regs ∧ t.mem = s.mem)) ∧
     (fabState s i ≠ 8 → exec (.keepalive i) s = .next s)))

/-- Lane health (R314 to R316): two windows in a row over the BER threshold, a window over the uncorrectable one, a lane
that stays unlocked or has lost lock three times within 1 s, or a lane still dark retire the lane; nine lanes that
lose lock at once take the port DOWN, two to eight are excluded for a time; a lane that locks again comes back; a
retired lane does not. The choices that it rests on are the model's: log entry 38. -/
def Obligations.LinkLanes : Prop :=
  (∀ (s : State) (i lane : Nat), i < 8 → lane < 17 →
    (∀ m e, berAbove m e (max 1 (fld (rget s .fab i 0x138) 15 8)) 5 = true →
      (bit (lanesRetired s i) lane = false → fabState s i ≠ 10 → (port s i).berOver.contains lane = true →
        Completes (.laneBerWindow i lane m e) s (fun t => bit (lanesRetired t i) lane = true ∧ t.mem = s.mem)) ∧
      ((port s i).berOver.contains lane = false →
        Completes (.laneBerWindow i lane m e) s (fun t =>
          lane ∈ (port t i).berOver ∧ lanesRetired t i = lanesRetired s i ∧ t.mem = s.mem))) ∧
    (∀ m e, berAbove m e (max 1 (fld (rget s .fab i 0x138) 15 8)) 5 = false →
      Completes (.laneBerWindow i lane m e) s (fun t =>
        lane ∉ (port t i).berOver ∧ lanesRetired t i = lanesRetired s i ∧
        rget t .fab i (0x204 + 0x10 * lane) = packFields [(0, m % 256), (8, e % 256)] ∧ t.mem = s.mem)) ∧
    (∀ count, (max 1 (fld (rget s .fab i 0x138) 7 0) < count → bit (lanesRetired s i) lane = false → fabState s i ≠ 10 →
        Completes (.laneUncorrWindow i lane count) s (fun t => bit (lanesRetired t i) lane = true ∧ t.mem = s.mem)) ∧
      (count ≤ max 1 (fld (rget s .fab i 0x138) 7 0) ∨ bit (lanesRetired s i) lane = true →
        Completes (.laneUncorrWindow i lane count) s (fun t =>
          fld (rget t .fab i (0x200 + 0x10 * lane)) 31 16 = min 0xFFFF count ∧ OnlyRegs s t ∧
          RegsKept s t [page .fab i + (0x200 + 0x10 * lane)]))) ∧
    ((wbit (rget s .fab i (0x200 + 0x10 * lane)) 4 = false ∧ bit (lanesTemp s i) lane = false) ∨
        3 ≤ ((port s i).lockLoss.filter (fun e => e.1 = lane && within s 1000000 e.2)).length →
      bit (lanesRetired s i) lane = false → fabState s i ≠ 10 →
      Completes (.laneLockTimeout i lane) s (fun t => bit (lanesRetired t i) lane = true ∧ t.mem = s.mem)) ∧
    ((wbit (rget s .fab i (0x200 + 0x10 * lane)) 4 = true ∨ bit (lanesTemp s i) lane = true) →
      ((port s i).lockLoss.filter (fun e => e.1 = lane && within s 1000000 e.2)).length < 3 →
      exec (.laneLockTimeout i lane) s = .next s) ∧
    (bit (lanesRetired s i) lane = false → Completes (.laneRelock i lane) s (fun t =>
      wbit (rget t .fab i (0x200 + 0x10 * lane)) 4 = true ∧ OnlyRegs s t ∧
      RegsKept s t [page .fab i + (0x200 + 0x10 * lane)])) ∧
    (bit (lanesRetired s i) lane = true → exec (.laneRelock i lane) s = .next s ∧
      exec (.laneLockTimeout i lane) s = .next s) ∧
    (bit (lanesTemp s i) lane = true → wbit (rget s .fab i (0x200 + 0x10 * lane)) 4 = true →
      Completes (.laneRetrainComplete i lane) s (fun t => bit (lanesTemp t i) lane = false ∧ t.mem = s.mem)) ∧
    (bit (lanesTemp s i) lane = false ∨ wbit (rget s .fab i (0x200 + 0x10 * lane)) 4 = false →
      exec (.laneRetrainComplete i lane) s = .next s) ∧
    (bit (lanesTemp s i) lane = true → wbit (rget s .fab i (0x200 + 0x10 * lane)) 4 = false →
      bit (lanesRetired s i) lane = false → fabState s i ≠ 10 →
      Completes (.laneDarkTimeout i lane) s (fun t => bit (lanesRetired t i) lane = true ∧ t.mem = s.mem)) ∧
    (bit (lanesTemp s i) lane = false ∨ wbit (rget s .fab i (0x200 + 0x10 * lane)) 4 = true →
      exec (.laneDarkTimeout i lane) s = .next s)) ∧
  (∀ (s : State) (i lanes : Nat), i < 8 →
    (9 ≤ popBelow lanes 17 →
      (3 ≤ fabState s i → fabState s i < 10 → Completes (.laneLockLoss i lanes) s (fun t =>
        fabState t i = 1 ∧ wbit (rget t .fab i 0x20) eFabLinkDown.bit = true ∧ t.mem = s.mem)) ∧
      (fabState s i < 3 ∨ 10 ≤ fabState s i → Completes (.laneLockLoss i lanes) s (fun t =>
        fabState t i = fabState s i ∧ t.mem = s.mem))) ∧
    (2 ≤ popBelow lanes 17 → popBelow lanes 17 < 9 →
      (3 ≤ fabState s i → fabState s i ≠ 10 → Completes (.laneLockLoss i lanes) s (fun t =>
        (∀ lane, lane < 17 → bit lanes lane = true → bit (lanesRetired s i) lane = false →
          bit (lanesTemp t i) lane = true) ∧
        (fabState s i ∉ [4, 5, 6] → fabState t i = fabState s i) ∧ t.mem = s.mem)) ∧
      (fabState s i < 3 ∨ fabState s i = 10 → Completes (.laneLockLoss i lanes) s (fun t =>
        fabState t i = fabState s i ∧ lanesTemp t i = lanesTemp s i ∧ t.mem = s.mem))) ∧
    (popBelow lanes 17 < 2 → Completes (.laneLockLoss i lanes) s (fun t =>
      (∀ lane, lane < 17 → bit lanes lane = true → (lane, s.us) ∈ (port t i).lockLoss ∧
        wbit (rget t .fab i (0x200 + 0x10 * lane)) 4 = false) ∧
      fabState t i = fabState s i ∧ t.mem = s.mem)))

/-- Optical engines (R319 to R324): a warning marks its laser; a failed laser stays FAILED and its group waits for L4,
which takes the group when it has warmed up; more than 95 °C switches the port off and less than 80 °C afterwards on;
a sweep grades the fibres, one after the other, completes at once in E-mode and without a probe, and is ignored while
one runs or the port is DISABLED. The choices that it rests on are the model's: log entry 39. -/
def Obligations.Optics : Prop :=
  (∀ (s : State) (i l : Nat), i < 8 →
    (∀ k, laserGroup s i l = some k → modeO s i = true → laserState s i l ≠ 3 →
      Completes (.optLaserWarn i l) s (fun t =>
        (mgetD (engine t i).lasers l (0, false)).2 = true ∧ wbit (rget t .opt i 0x20) eOptLaserWarn.bit = true ∧
        t.mem = s.mem) ∧
      Completes (.optLaserFault i l) s (fun t =>
        laserState t i l = 3 ∧ (spareFree s i = true → l ≠ 4 → (engine t i).warming = some (k, false)) ∧
        (spareFree s i = false → wbit (rget t .opt i 0x20) eOptLaserFailed.bit = true) ∧ t.mem = s.mem)) ∧
    (laserGroup s i l = none → exec (.optLaserWarn i l) s = .next s ∧
      (modeO s i = true → Completes (.optLaserFault i l) s (fun t =>
        laserState t i l = 3 ∧ t.regs = s.regs ∧ t.mem = s.mem))) ∧
    (modeO s i = false ∨ laserState s i l = 3 →
      exec (.optLaserWarn i l) s = .next s ∧ exec (.optLaserFault i l) s = .next s)) ∧
  (∀ (s : State) (i : Nat), i < 8 →
    (∀ k planned, k < 4 → (engine s i).warming = some (k, planned) →
      (laserState s i 4 ≠ 3 → groupLaser s i k ≠ 4 → Completes (.laserWarmComplete i) s (fun t =>
        groupLaser t i k = 4 ∧ (engine t i).warming = none ∧ laserState t i 4 = 2 ∧
        (planned = true → laserState t i (groupLaser s i k) = 0) ∧ t.mem = s.mem)) ∧
      (laserState s i 4 = 3 → Completes (.laserWarmComplete i) s (fun t =>
        (engine t i).warming = none ∧ t.regs = s.regs ∧ t.mem = s.mem))) ∧
    ((engine s i).warming = none → exec (.laserWarmComplete i) s = .next s)) ∧
  (∀ (s : State) (i x : Nat), i < 8 →
    (modeO s i = false ∨ x ≤ 85 ∧ 80 ≤ x → Completes (.optTempRead i (some x)) s (fun t =>
      t = rset s .opt i 0x104 (packFields [(0, min 255 x), (8, b2n (decide (85 < x))), (31, 1)]))) ∧
    (modeO s i = false → exec (.optTempRead i none) s =
      .next (rset s .opt i 0x104 (packFields [(0, 0), (8, 1), (31, 0)]))) ∧
    (modeO s i = true →
      (85 < x → x ≤ 95 → Completes (.optTempRead i (some x)) s (fun t =>
        wbit (rget t .opt i 0x104) 8 = true ∧
        (wbit (rget s .opt i 0x104) 8 = false → wbit (rget t .opt i 0x20) eOptHot.bit = true) ∧
        fabState t i = fabState s i ∧ t.mem = s.mem)) ∧
      (95 < x → (engine s i).overtemp = false ∨ fabState s i ≠ 0 →
        Completes (.optTempRead i (some x)) s (fun t =>
          fabState t i = 0 ∧ (engine t i).overtemp = true ∧ wbit (rget t .opt i 0x20) eOptOvertemp.bit = true ∧
          t.mem = s.mem)) ∧
      (95 < x → (engine s i).overtemp = true → fabState s i = 0 →
        Completes (.optTempRead i (some x)) s (fun t => fabState t i = 0 ∧ t.mem = s.mem)) ∧
      (x < 80 → Completes (.optTempRead i (some x)) s (fun t =>
        (engine t i).overtemp = false ∧
        fabState t i = (if (engine s i).overtemp = true ∧ fabState s i = 0 ∧ fld (rget s .fab i 0x100) 11 8 = 8 then 1
          else fabState s i) ∧ t.mem = s.mem)) ∧
      Completes (.optTempRead i none) s (fun t =>
        rget t .opt i 0x104 = packFields [(0, 0), (8, 1), (31, 0)] ∧ fabState t i = fabState s i ∧ t.mem = s.mem))) ∧
  (∀ (s : State) (req : Req) (i fibre : Nat), i < 8 →
    (Serves s req .opt i →
      let fibres := if fibre = 0x3F then List.range 34 else [fibre]
      (fibre < 34 ∨ fibre = 0x3F → sweeping s i = false →
        (modeO s i = true → fabState s i ≠ 0 → (engine s i).probeFailed = false →
          Completes (.optReflStart req i fibre) s (fun t =>
            (engine t i).sweep = fibres ∧ sweeping t i = true ∧ t.mem = s.mem)) ∧
        (modeO s i = false → exec (.optReflStart req i fibre) s = .next (reflStatus s i false true false 1 0 false)) ∧
        (modeO s i = true → fabState s i ≠ 0 → (engine s i).probeFailed = true →
          exec (.optReflStart req i fibre) s = .next (reflStatus s i false true false 2 0 false)) ∧
        (modeO s i = true → fabState s i = 0 → exec (.optReflStart req i fibre) s = .next s)) ∧
      ((34 ≤ fibre ∧ fibre ≠ 0x3F) ∨ sweeping s i = true → exec (.optReflStart req i fibre) s = .next s) ∧
      (sweeping s i = true →
        Completes (.optReflAbort req i) s (fun t => (engine t i).abort = true ∧ t.regs = s.regs ∧ t.mem = s.mem)) ∧
      (sweeping s i = false → exec (.optReflAbort req i) s = .next s)) ∧
    TurnsAway (.optReflStart req i fibre) req .opt i 0x120 ∧ TurnsAway (.optReflAbort req i) req .opt i 0x120) ∧
  (∀ (s : State) (i : Nat), i < 8 →
    (fld (rget s .opt i 0x11C) 7 0 ≠ 0 → sweeping s i = false → modeO s i = true → fabState s i ≠ 0 →
      (engine s i).probeFailed = false → Completes (.optReflPeriodic i) s (fun t =>
        (engine t i).sweep = List.range 34 ∧ sweeping t i = true ∧ t.mem = s.mem)) ∧
    (fld (rget s .opt i 0x11C) 7 0 ≠ 0 → sweeping s i = false → modeO s i = true → fabState s i ≠ 0 →
      (engine s i).probeFailed = true →
      exec (.optReflPeriodic i) s = .next (reflStatus s i false true false 2 0 false)) ∧
    (fld (rget s .opt i 0x11C) 7 0 = 0 ∨ modeO s i = false ∨ sweeping s i = true ∨ fabState s i = 0 →
      exec (.optReflPeriodic i) s = .next s)) ∧
  (∀ (s : State) (i : Nat) (evs : List ReflEvent), i < 8 →
    (∀ f rest, (engine s i).sweep = f :: rest → sweeping s i = true → fabState s i ≠ 0 → fabState s i ≠ 6 →
      (engine s i).warming = none →
      Completes (.reflFibreComplete i evs) s (fun t =>
        mgetD (engine t i).events f [] = evs.take 8 ∧
        ((engine s i).abort = false → (engine t i).sweep = rest ∧ sweeping t i = !rest.isEmpty) ∧
        ((engine s i).abort = true → (engine t i).sweep = [] ∧ sweeping t i = false) ∧ t.mem = s.mem)) ∧
    ((engine s i).sweep = [] ∨ sweeping s i = false ∨ fabState s i = 0 ∨ fabState s i = 6 ∨
        (engine s i).warming ≠ none → exec (.reflFibreComplete i evs) s = .next s) ∧
    Completes (.optProbeFail i) s (fun t =>
      (engine t i).probeFailed = true ∧ sweeping t i = false ∧ wbit (rget t .opt i 0x20) eOptProbeFail.bit = true ∧
      t.mem = s.mem))

/-! ### The peal, rudiment sets and the test engine (R381 to R401) -/

/-- The chunks of a core's control store after a pass in which the chunks `fails` do not take (R384). -/
def Sys2Proof.Machine.pealImg (s : State) (c : PealCore) : List Byte :=
  (List.range c.total).flatMap (fun k =>
    if c.have_.contains k then mgetD c.data k [] else slice (coreImage s) (4096 * k) 4096)

/-- Does a pass leave a core with every chunk and an image that checks (R384)? -/
def Sys2Proof.Machine.PealGood (s : State) (c : PealCore) (fails : List Nat) : Prop :=
  (∀ k, k < c.total → c.have_.contains k = true ∨ fails.contains k = false) ∧ crc64 (pealImg s c) = c.crc

/-- The peal (R383, R384, R386) and COL_SET_CMD (R387 to R390): a good chunk is stored and any other ignored, PEAL_END
starts the fetches, a core whose image checks is done and one that fails its third pass is out; two damaged stores
repeat the peal once; a set command gives RESULT and INDEX, and SET_DONE at its end. The choices that it rests on are
the model's: log entry 41. -/
def Obligations.PealAndSets : Prop :=
  (∀ (s : State) (n : Nat) (b : List Byte),
    (∀ c, pealCore s n = some c →
      let good := c.ended = false ∧ c.done = false ∧ c.failed = false ∧ leAt b 0 4 = c.id ∧ leAt b 4 2 < c.total ∧
        (leAt b 8 1 = 0 ∧ c.pkg = true ∨ leAt b 8 1 = 1 ∧ c.pkg = false ∧ leAt b 9 1 = partOfCore s n) ∧
        leAt b 0xC 4 = crc32c (slice b 0x20 4096) ∧ c.have_.contains (leAt b 4 2) = false
      (good → Completes (.pealChunk n b) s (fun t => ∃ c', pealCore t n = some c' ∧ leAt b 4 2 ∈ c'.have_ ∧
        mgetD c'.data (leAt b 4 2) [] = slice b 0x20 4096 ∧ c'.crc = leAt b 0x10 8 ∧
        t = { s with pealCores := t.pealCores })) ∧
      (¬ good → exec (.pealChunk n b) s = .next s) ∧
      Completes (.pealEnd n) s (fun t => pealCore t n = some { c with ended := true } ∧
        t = { s with pealCores := t.pealCores })) ∧
    (pealCore s n = none → exec (.pealChunk n b) s = .next s ∧
      Completes (.pealEnd n) s (fun t => t = { s with pealCores := t.pealCores } ∧ pealCore t n = none))) ∧
  (∀ (s : State) (n damage : Nat) (fails : List Nat),
    (∀ c, pealCore s n = some c → c.ended = true → c.done = false → c.failed = false →
      (storeBad s (coreTile n) ||| damage % 4 ≠ 3 →
        (PealGood s c fails → Completes (.pealFetchPass n fails damage) s (fun t =>
          (pealCore t n).map (·.done) = some true ∧ t.mem = s.mem)) ∧
        (¬ PealGood s c fails → 2 ≤ c.passes → Completes (.pealFetchPass n fails damage) s (fun t =>
          (pealCore t n).map (·.failed) = some true ∧ t.mem = s.mem)) ∧
        (¬ PealGood s c fails → c.passes < 2 → Completes (.pealFetchPass n fails damage) s (fun t =>
          (pealCore t n).map (fun x => (x.passes, x.done, x.failed)) = some (c.passes + 1, false, false) ∧
          ((∀ k, k < c.total → c.have_.contains k = true ∨ fails.contains k = false) →
            (pealCore t n).map (·.have_) = some []) ∧ t.mem = s.mem))) ∧
      (storeBad s (coreTile n) ||| damage % 4 = 3 →
        (c.again = false → Completes (.pealFetchPass n fails damage) s (fun t =>
          (∀ c', pealCore t n = some c' → c'.ended = false ∧ c'.again = true) ∧ t.mem = s.mem)) ∧
        (c.again = true → Completes (.pealFetchPass n fails damage) s (fun t =>
          wbit (rget t .bst 0 0x20) ePealStoreFail.bit = true)))) ∧
    ((∀ c, pealCore s n = some c → c.ended = false ∨ c.done = true ∨ c.failed = true) →
      exec (.pealFetchPass n fails damage) s = .next s)) ∧
  (∀ (s s2 : State) (req : Req) (pipe r x : Nat) (ecc : Ecc) (data : Option (List Byte)) (g : Nat), Serves s req .col pipe →
    (isBarrierPipe s pipe = true → mget s.setOps pipe = none →
      let s1 (op : Nat) : State :=
        rset { s with setOps := mput s.setOps pipe { op := op } } .col pipe 0x314 (packFields [(0, 1)])
      (setCheck (s1 1) pipe (setSrc (s1 1) pipe % 2 ^ 48) ecc = (s2, r, x) →
        Completes (.setCheck req pipe ecc) s (fun t =>
          mget t.setOps pipe = some { op := 1, result := r, index := x } ∧ t.mem = s2.mem)) ∧
      (setFetch (s1 2) pipe data = (s2, r, x) →
        Completes (.setFetch req pipe data) s (fun t =>
          mget t.setOps pipe = some { op := 2, result := r, index := x } ∧ t.mem = s2.mem)) ∧
      (setSend (s1 3) pipe g ecc = (s2, r, x) →
        Completes (.setSend req pipe g ecc) s (fun t =>
          (∃ o, mget t.setOps pipe = some o ∧ o.op = 3 ∧ o.index = x ∧ (r ≠ 0 → o.result = r)) ∧ t.mem = s2.mem))) ∧
    (isBarrierPipe s pipe = false ∨ (mget s.setOps pipe).isSome = true →
      exec (.setCheck req pipe ecc) s = .next s ∧ exec (.setFetch req pipe data) s = .next s ∧
      exec (.setSend req pipe g ecc) s = .next s)) ∧
  (∀ (req : Req) (pipe g : Nat) (ecc : Ecc) (data : Option (List Byte)),
    ∀ c ∈ [Instr.setCheck req pipe ecc, .setFetch req pipe data, .setSend req pipe g ecc], TurnsAway c req .col pipe 0x310) ∧
  (∀ (s : State) (pipe : Nat),
    (∀ o, pipe < 8 → mget s.setOps pipe = some o → keysRising s.setOps = true →
      s.mcSends.any (fun m => m.port = setPort && m.pipe = pipe) = false →
      Completes (.setCmdComplete pipe) s (fun t =>
        mget t.setOps pipe = none ∧ t.mem = s.mem ∧
        rget t .col pipe 0x314 = packFields [(1, 1), (4, o.result), (16, o.index)])) ∧
    (mget s.setOps pipe = none ∨ s.mcSends.any (fun m => m.port = setPort && m.pipe = pipe) = true →
      exec (.setCmdComplete pipe) s = .next s))

/-- The test engine (R43, R393 to R399): a slice is scheduled, runs and gives its region back; a failure runs again and
only then counts as permanent; a direct BIST is refused or leaves its instance zeroed; a scan clears the package's
keys first; each has no effect where its conditions do not hold. The choices that it rests on are the model's: log
entries 41 and 72. -/
def Obligations.SelfTest : Prop :=
  (∀ (s : State) (c i : Nat),
    let due := wbit (rget s .bst 0 0x110) 0 = true ∧ c < 10 ∧ i < bistCount c ∧
      fld (rget s .bst 0 (0x140 + 4 * c)) 15 0 ≠ 0 ∧ s.power.st < 2 ∧ s.power.moving = none ∧ s.chipReset = none ∧
      s.bist.scanning = false ∧ s.bist.slices.any (fun b => b.cls = c && b.inst = i) = false
    (due → Completes (.bistSliceSchedule c i) s (fun t =>
      t = { s with bist := t.bist } ∧ t.bist.slices = s.bist.slices ++
        [{ cls := c, inst := i, region := mgetD s.bist.next (131072 * c + i) 0,
           part := mgetD s.bist.part (131072 * c + i) 0, len := 16 - mgetD s.bist.part (131072 * c + i) 0 }])) ∧
    (¬ due → exec (.bistSliceSchedule c i) s = .next s)) ∧
  (∀ (s : State) (c i g : Nat) (ecc : Ecc),
    (∀ b, sliceOf s c i 0 = some b → sliceAdmitted s b = true →
      Completes (.bistSliceStart c i g ecc) s (fun t =>
        (sliceOf t c i 1).isSome = true ∧ { b with len := min b.len (sliceSpan s c i), phase := 1 } ∈ t.bist.slices ∧
        mget t.bist.last (131072 * c + i) = some s.us ∧
        (c = 7 → (cluster t i).tlb = [] ∧ (cluster t i).wc = []) ∧
        (ecc = .uncorr → wbit (rget t .bst 0 0x20) eBistShadowEcc.bit = true) ∧
        (ecc = .none → t.regs = s.regs ∧ t.mem = s.mem))) ∧
    ((∀ b, sliceOf s c i 0 = some b → sliceAdmitted s b = false) → exec (.bistSliceStart c i g ecc) s = .next s) ∧
    (∀ b, sliceOf s c i 1 = some b →
      Completes (.bistSliceComplete c i g true ecc) s (fun t =>
        (∀ x ∈ t.bist.slices, ¬ (x.cls = c ∧ x.inst = i)) ∧
        mgetD t.bist.next (131072 * c + i) 0 = (if b.part + b.len < 16 then b.region
          else if b.region + 1 < bistRegions c then b.region + 1 else 0) ∧
        mgetD t.bist.part (131072 * c + i) 0 = (if b.part + b.len < 16 then b.part + b.len else 0) ∧
        (ecc = .uncorr → wbit (rget t .bst 0 0x20) eBistShadowEcc.bit = true) ∧ (ecc = .none → t.mem = s.mem)) ∧
      Completes (.bistSliceComplete c i g false ecc) s (fun t =>
        (sliceOf t c i 2).isSome = true ∧
        (ecc = .uncorr → wbit (rget t .bst 0 0x20) eBistShadowEcc.bit = true) ∧ (ecc = .none → t.mem = s.mem))) ∧
    (sliceOf s c i 1 = none → ∀ pass, exec (.bistSliceComplete c i g pass ecc) s = .next s)) ∧
  (∀ (s : State) (c i : Nat) (pass : Bool) (rows : List Nat),
    (∀ b, sliceOf s c i 2 = some b → sliceAdmitted s b = true →
      Completes (.bistSliceRetry c i pass rows) s (fun t =>
        wbit (rget t .bst 0 0x20) (if pass then eBistTransient else eBistPermanent).bit = true ∧
        (∀ x ∈ t.bist.slices, ¬ (x.cls = c ∧ x.inst = i)) ∧
        (pass = false → 7 ≤ c → (c, i, b.region) ∈ t.bist.excluded) ∧
        (pass = true ∨ rows = [] ∨ 7 ≤ c → t.mem = s.mem))) ∧
    ((∀ b, sliceOf s c i 2 = some b → sliceAdmitted s b = false) → exec (.bistSliceRetry c i pass rows) s = .next s)) ∧
  (∀ (s : State) (req : Req) (v : Word), Serves s req .bst 0 →
    (s.bist.direct = none → directRefused s (fld v 3 0) (fld v 31 12) = true →
      exec (.bstDirectCmd req v) s = .next (recErr (rset s .bst 0 0x12C 0xA) eDirectRefused 0 (fld v 3 0) 0 noCtag)) ∧
    (s.bist.direct = none → directRefused s (fld v 3 0) (fld v 31 12) = false →
      Completes (.bstDirectCmd req v) s (fun t =>
        t.bist.direct = some (fld v 3 0, fld v 31 12) ∧ rget t .bst 0 0x12C = 1 ∧ t.mem = s.mem)) ∧
    (s.bist.direct.isSome = true → exec (.bstDirectCmd req v) s = .next s)) ∧
  (∀ (req : Req) (v : Word), TurnsAway (.bstDirectCmd req v) req .bst 0 0x128) ∧
  (∀ (s : State) (pass : Bool),
    (∀ c i, s.bist.direct = some (c, i) → Completes (.directBistComplete pass) s (fun t =>
      t.bist.direct = none ∧ rget t .bst 0 0x12C = packFields [(1, 1), (2, b2n pass)] ∧
      (c = 0 → ∀ a, sliceDpa i ≤ a → a < sliceDpa i + 0x1800000 → memGet t.mem a = 0) ∧
      (c = 1 → ∀ a, lmDpa i ≤ a → a < lmDpa i + 0x100000 → memGet t.mem a = 0) ∧
      (2 ≤ c → t.mem = s.mem))) ∧
    (s.bist.direct = none → exec (.directBistComplete pass) s = .next s)) ∧
  (∀ s : State,
    (testPermitted s = false ∨ 2 ≤ s.power.st ∨ s.bist.scanning = true →
      exec .scanRequest s = .next (recErr s eScanRefused 0 0 0 noCtag)) ∧
    (testPermitted s = true → s.power.st < 2 → s.bist.scanning = false →
      Completes .scanRequest s (fun t =>
        t.bist.scanning = true ∧ t.bist.slices = [] ∧ t.fabKeys = [] ∧ t.keysErased = true ∧
        t.sec.seedLocked = true)) ∧
    (s.bist.scanning = true → s.bist.cleared = false →
      Completes .scanOpen s (fun t => t.bist.scanOpen = true ∧ t.bist.cleared = true ∧ t.mem = s.mem)) ∧
    (s.bist.scanning = false ∨ s.bist.cleared = true → exec .scanOpen s = .next s))

/-! ### Firmware (R379, R403 to R419, R468) -/

/-- A recovery message that the download takes (R417). -/
structure Sys2Proof.Machine.RcvTakes (s : State) (iface : Nat) : Prop where
  mode : s.fw.recovery = true
  held : s.fw.rcvHeld = false ∨ s.fw.rcvOwner = iface

/-- Firmware (R410 to R418): CONFIRM makes a TRIAL slot GOOD and raises the fused counter; a pending slot is cancelled; a
bundle buffer error reads the slot again; a staged bundle that reads back becomes PENDING, and is reported (R520); the
recovery download goes from BEGIN to a bundle that runs or a RESULT, and a message that it does not take is answered
BAD_STATE, BUSY or BAD_RANGE on the management interface; the field record is written when it has changed. The choices
that it rests on are the model's: log entry 42. -/
def Obligations.FirmwareSlots : Prop :=
  (∀ (s : State) (req : Req) (k : Nat), Serves s req .car 0 → s.fw.running = some k →
    (brState s.fw.bootRec k = 3 → fusedCount s ≤ brSvn s.fw.bootRec k → leAt s.fw.bundle 0x15 1 ≤ brSvn s.fw.bootRec k →
      Completes (.fwConfirm req true) s (fun t =>
        brState t.fw.bootRec k = 1 ∧ fusedCount t = max (fusedCount s) (leAt s.fw.bundle 0x15 1) ∧
        rget t .car 0 0x41C = packFields [(4, 0)] ∧ t.mem = s.mem)) ∧
    (brState s.fw.bootRec k = 3 → fusedCount s < leAt s.fw.bundle 0x15 1 → Completes (.fwConfirm req false) s (fun t =>
      brState t.fw.bootRec k = 1 ∧ rget t .car 0 0x41C = packFields [(4, 3)] ∧ t.fuses = s.fuses ∧
      wbit (rget t .car 0 0x20) eFwFuseWrite.bit = true ∧ t.mem = s.mem)) ∧
    (brState s.fw.bootRec k ≠ 3 → ∀ ok, exec (.fwConfirm req ok) s = .next (fwResult s 1))) ∧
  (∀ (s : State) (req : Req) (ok : Bool), Serves s req .car 0 → s.fw.running = none →
    exec (.fwConfirm req ok) s = .next (fwResult s 1)) ∧
  (∀ (req : Req) (ok : Bool), TurnsAway (.fwConfirm req ok) req .car 0 0x418 ∧
    TurnsAway (.fwCancelPending req) req .car 0 0x418) ∧
  (∀ (s : State) (req : Req), Serves s req .car 0 →
    (s.fw.bootRec.pending = 0xFF → exec (.fwCancelPending req) s = .next (fwResult s 2)) ∧
    (s.fw.bootRec.pending ≠ 0xFF →
      Completes (.fwCancelPending req) s (fun t =>
        t.fw.bootRec.pending = 0xFF ∧ brState t.fw.bootRec s.fw.bootRec.pending = 0 ∧
        rget t .car 0 0x41C = packFields [(4, 0)] ∧ t.mem = s.mem))) ∧
  (∀ (s : State) (k : Nat) (answers : Bool), s.fw.running = some k →
    Completes (.fwBufferEcc answers) s (fun t =>
      (verifyBytes s (slotBytes s k) answers = 0 → t.fw.bundle = slotBytes s k ∧ t.fw.bundleOk = true) ∧
      (verifyBytes s (slotBytes s k) answers ≠ 0 → t.fw.bundleOk = false ∧ t.fw.unloaded = true) ∧
      wbit (rget t .car 0 0x20) eFwBufferEcc.bit = true ∧ t.mem = s.mem)) ∧
  (∀ (s : State) (answers : Bool), s.fw.running = none → exec (.fwBufferEcc answers) s = .next s) ∧
  (∀ (s : State) (g : Staging), s.fw.staging = some g → g.size ≤ g.data.length →
    Completes .stagingReadbackComplete s (fun t =>
      t.fw.staging = none ∧ t.mem = s.mem ∧
      (crc32c (flashRead s (slotBase g.slot) g.size) = crc32c g.data → t.fw.bootRec.pending = g.slot ∧
        brState t.fw.bootRec g.slot = 2 ∧
        (∀ c, s.carillon.token = some c → Out.mgmt c "VerifyComplete" [0] ∈ t.out ∧ Out.mgmt c "ApplyComplete" [0] ∈ t.out)) ∧
      (crc32c (flashRead s (slotBase g.slot) g.size) ≠ crc32c g.data →
        wbit (rget t .car 0 0x20) eFwStageAborted.bit = true ∧ t.fw.flash = s.fw.flash ∧
        (∀ c, s.carillon.token = some c → Out.mgmt c "VerifyComplete" [1] ∈ t.out)))) ∧
  (∀ s : State, (∀ g, s.fw.staging = some g → g.data.length < g.size) → exec .stagingReadbackComplete s = .next s) ∧
  (∀ (s : State) (iface n off : Nat) (data : List Byte),
    ∀ c ∈ [Instr.rcvBegin iface n, .rcvData iface off data, .rcvEnd iface, .rcvAbort iface],
      (s.fw.recovery = false → exec c s = .next (rcvAnswer s iface 2 [])) ∧
      (s.fw.recovery = true → s.fw.rcvHeld = true → s.fw.rcvOwner ≠ iface →
        exec c s = .next (rcvAnswer s iface 1 []))) ∧
  (∀ s : State,
    (s.fw.recovery = false → exec (.rcvStatus 0) s = .next (emit s (.mgmt 0 "recovery" [2, 0, 0]))) ∧
    exec (.rcvStatus 1) s = .next (emit s (.readData .pf (page .car 0 + 0x440) (wd (rcvStatusWord s)))) ∧
    (s.fw.recovery = true → exec (.rcvStatus 0) s =
      .next (emit s (.mgmt 0 "recovery" (leBytes 0 1 ++ leBytes (rcvStatusWord s) 2))))) ∧
  (∀ (s : State) (iface : Nat), RcvTakes s iface →
    (∀ n, s.fw.rcvState ≠ 2 → s.fw.rcvState ≠ 3 →
      let size := if iface = 0 then n else (rget s .car 0 0x444).toNat
      (size ≤ 0x1000000 → Completes (.rcvBegin iface n) s (fun t =>
        t.fw.rcvState = 1 ∧ t.fw.rcvSize = size ∧ t.fw.rcvBuf = [] ∧ t.fw.rcvHeld = true ∧ t.fw.rcvOwner = iface)) ∧
      (0x1000000 < size → exec (.rcvBegin iface n) s = .next (rcvAnswer s iface 3 []))) ∧
    (s.fw.rcvState = 2 ∨ s.fw.rcvState = 3 → ∀ n, exec (.rcvBegin iface n) s = .next (rcvAnswer s iface 2 []) ∧
      exec (.rcvAbort iface) s = .next (rcvAnswer s iface 2 [])) ∧
    (s.fw.rcvState ≠ 1 → exec (.rcvEnd iface) s = .next (rcvAnswer s iface 2 []) ∧
      ∀ off data, exec (.rcvData iface off data) s = .next (rcvAnswer s iface 2 [])) ∧
    (∀ (off : Nat) (data : List Byte), s.fw.rcvState = 1 →
      s.fw.rcvSize < off + data.length ∨ iface = 0 ∧ (data.length < 4 ∨ 1024 < data.length) →
      exec (.rcvData iface off data) s = .next (rcvAnswer s iface 3 [])) ∧
    (∀ (off : Nat) (data : List Byte), s.fw.rcvState = 1 → off + data.length ≤ s.fw.rcvSize →
      (iface = 0 → 4 ≤ data.length ∧ data.length ≤ 1024) →
      Completes (.rcvData iface off data) s (fun t =>
        (∀ j b, data[j]? = some b → mgetD t.fw.rcvBuf (off + j) 0 = b) ∧ t.fw.rcvState = 1 ∧ t.mem = s.mem)) ∧
    (s.fw.rcvState = 1 →
      Completes (.rcvEnd iface) s (fun t => t.fw.rcvState = 2 ∧ t.fw.rcvHeld = false ∧ t.fw.rcvBuf = s.fw.rcvBuf)) ∧
    (s.fw.rcvState ≠ 2 → s.fw.rcvState ≠ 3 →
      Completes (.rcvAbort iface) s (fun t => t.fw.rcvState = 0 ∧ t.fw.rcvHeld = false))) ∧
  (∀ s : State, s.fw.recovery = true → s.fw.rcvState = 2 →
    let b := (List.range s.fw.rcvSize).map (fun i => mgetD s.fw.rcvBuf i 0)
    let res := if s.fw.rcvSize ≠ leAt b 8 4 ∧ leAt b 0 4 = 0x4C524143 then 2 else verifyBytes s b true
    Completes .rcvVerifyComplete s (fun t =>
      (res ≠ 0 → t = { s with fw := { s.fw with rcvState := 5, rcvResult := res } }) ∧
      (res = 0 → t.fw.running = some 0 ∧ t.fw.bundle = b ∧ t.fw.recovery = false ∧
        t.fw.rcvState = 4 ∧ t.mem = s.mem))) ∧
  (∀ s : State, s.fw.recovery = false ∨ s.fw.rcvState ≠ 2 → exec .rcvVerifyComplete s = .next s) ∧
  (∀ s : State,
    (s.fw.rcvHeld = true → exec .rcvInactivityTimeout s =
      .next { s with fw := { s.fw with rcvHeld := false, rcvState := 0 } }) ∧
    (s.fw.rcvHeld = false → exec .rcvInactivityTimeout s = .next s) ∧
    (s.fieldDirty = false → exec .fieldRecordFlush s = .next s) ∧
    (s.fieldDirty = true → Completes .fieldRecordFlush s (fun t => t.fieldDirty = false ∧ t.mem = s.mem ∧
      t.regs = s.regs ∧ t.out.getLast? = some (.flashWrite 0x2020000 (fieldBytes s)))) ∧
    (allSlotsFree s = true → exec .splitChangeRequest s = .next (requestChip s 3 false (page .car 0))) ∧
    (allSlotsFree s = false → Completes .splitChangeRequest s (fun t =>
      wbit (rget t .hng 0 0x20) eSplitRefused.bit = true ∧ t.mem = s.mem)))

/-! ### Lifecycle, keys, alarms, debug (R420 to R454) -/

/-- Lifecycle and fabric keys (R399, R422, R423, R432): a request that a check fails changes nothing but its RESULT; one
that passes clears the package and waits for its fuses, which are all blown or not; the messages of a session write,
delete and select keys, and one that is refused is recorded. The choices that it rests on are the model's: log entry
43. -/
def Obligations.LifecycleAndKeys : Prop :=
  (∀ (s : State) (req : Req) (c : Req → Instr) (goal : Nat),
    (c, goal) ∈ [(Instr.lcToMission, 1), (Instr.lcToReturn, 2), (Instr.lcToEnd, 3)] → Serves s req .sec 0 →
    (lcCheck s goal ≠ 0 → exec (c req) s = .next (lcFail s (lcCheck s goal))) ∧
    (lcCheck s goal = 0 →
      Completes (c req) s (fun t =>
        t.sec.lcTo = some goal ∧ t.fuses = s.fuses ∧ t.fabKeys = [] ∧ t.keysErased = true ∧ t.sec.aliasValid = false ∧
        rget t .sec 0 0x108 = packFields [(0, 1), (4, 0), (8, 0), (10, 0)]))) ∧
  (∀ (req : Req), ∀ c ∈ [Instr.lcToMission req, .lcToReturn req, .lcToEnd req], TurnsAway c req .sec 0 0x104) ∧
  (∀ (s : State) (ok : Bool), s.sec.lcTo = none → exec (.lcTransitionComplete ok) s = .next s) ∧
  (∀ (s : State) (sess p sl : Nat) (key : List Byte) (on : Bool),
    (sessionOpen s sess = false → ∀ c ∈ [Instr.fabKeySet sess p sl key, .fabKeyDelete sess p sl, .fabKeyTx sess p sl,
      .fabEnc sess p on], exec c s = .next s) ∧
    (sessionOpen s sess = true → partCount s ≤ p ∨ 16 ≤ sl → ∀ c ∈ [Instr.fabKeySet sess p sl key, .fabKeyDelete sess p sl,
      .fabKeyTx sess p sl], exec c s = .next (keyRefused s p sl)) ∧
    (sessionOpen s sess = true → partCount s ≤ p → exec (.fabEnc sess p on) s = .next (keyRefused s p (txSlot s p)))) ∧
  (∀ (s : State) (goal : Nat), s.sec.lcTo = some goal →
    Completes (.lcTransitionComplete true) s (fun t =>
      t.fuses = blowFuses s goal 6 ∧ t.sec.lcTo = none ∧ lcState t = lcState s ∧ bootStage t = 1 ∧ t.mem = []) ∧
    Completes (.lcTransitionComplete false) s (fun t =>
      t.fuses = s.fuses ∧ t.sec.lcTo = none ∧ t.mem = s.mem)) ∧
  (∀ (s : State) (sess p sl : Nat), sessionOpen s sess = true → p < partCount s → sl < 16 →
    (∀ (key : List Byte), key.length = 32 →
      Completes (.fabKeySet sess p sl key) s (fun t =>
        mget t.fabKeys (16 * p + sl) = some key ∧ (∀ x, x ≠ 16 * p + sl → mget t.fabKeys x = mget s.fabKeys x) ∧
        t = { s with fabKeys := t.fabKeys, out := t.out })) ∧
    (∀ (key : List Byte), key.length ≠ 32 → exec (.fabKeySet sess p sl key) s = .next (keyRefused s p sl)) ∧
    (txSlot s p ≠ sl → keysRising s.fabKeys = true →
      Completes (.fabKeyDelete sess p sl) s (fun t =>
        mget t.fabKeys (16 * p + sl) = none ∧ t = { s with fabKeys := t.fabKeys, out := t.out })) ∧
    (txSlot s p = sl → exec (.fabKeyDelete sess p sl) s = .next (keyRefused s p sl)) ∧
    ((mget s.fabKeys (16 * p + sl)).isSome = true →
      Completes (.fabKeyTx sess p sl) s (fun t => txSlot t p = sl ∧ txOn t p = txOn s p ∧ t.fabKeys = s.fabKeys ∧
        t.mem = s.mem)) ∧
    (mget s.fabKeys (16 * p + sl) = none → exec (.fabKeyTx sess p sl) s = .next (keyRefused s p sl)) ∧
    (mget s.fabKeys (16 * p + txSlot s p) = none →
      exec (.fabEnc sess p true) s = .next (keyRefused s p (txSlot s p))) ∧
    (∀ on, ((mget s.fabKeys (16 * p + txSlot s p)).isSome = true ∨ on = false) →
      Completes (.fabEnc sess p on) s (fun t => txOn t p = on ∧ txSlot t p = txSlot s p ∧ t.fabKeys = s.fabKeys ∧
        t.mem = s.mem)))

/-- Alarms (R435 to R440): a source sets its bit and acts at the level in force: NOTE records it, FREEZE freezes the
package, ERASE destroys the keys too; the configured levels cannot be lowered under their floors. The choices that it
rests on are the model's: log entry 43. -/
def Obligations.Alarms : Prop :=
  (∀ (s : State) (c : Instr) (src : Nat),
    ((c, src) ∈ [(Instr.alarmVglitch, 0), (.alarmCglitch, 1), (.alarmTemp, 2), (.alarmMesh, 3), (.alarmFuse, 4)] ∨
      (∃ cause, c = .alarmDebug cause) ∧ src = 5) →
    Completes c s (fun t =>
      wbit (rget t .sec 0 0x114) src = true ∧ t.sec.highAlarm = max s.sec.highAlarm (alarmLevel s src) ∧
      (alarmLevel s src = 1 → frozen t = frozen s) ∧ (2 ≤ alarmLevel s src → frozen t = true) ∧
      (alarmLevel s src = 3 → t.fabKeys = [] ∧ t.keysErased = true) ∧
      (alarmLevel s src ≤ 2 → t.fabKeys = s.fabKeys) ∧ t.mem = s.mem)) ∧
  (∀ (req : Req) (v : Word), TurnsAway (.secAlarmCfgWrite req v) req .sec 0 0x118) ∧
  (∀ (s : State) (req : Req) (v : Word), Serves s req .sec 0 →
    (wbit (rget s .sec 0 0x118) 31 = true → exec (.secAlarmCfgWrite req v) s = .next s) ∧
    (wbit (rget s .sec 0 0x118) 31 = false →
      Completes (.secAlarmCfgWrite req v) s (fun t =>
        (∀ src, src < 6 → fld (rget t .sec 0 0x118) (2 * src + 1) (2 * src) =
          max (alarmFloor (lcState s) src) (fld v (2 * src + 1) (2 * src))) ∧
        wbit (rget t .sec 0 0x118) 31 = wbit v 31 ∧ OnlyRegs s t ∧ RegsKept s t [page .sec 0 + 0x118])))

/-- Debug access (R441 to R448, R452): a nonce is drawn and sent; a token is answered with its RESULT, and one that passes
grants its level to the partitions it names; grants end by REVOKE; OPEN grants in TEST without a token; a lockout
ends. JTAG and the step trace (R446, R447): a permitted access reads or writes what the HALTED slot holds and nothing
else; a class that is not permitted gets BYPASS; the trace needs D1 and a ring in staging SRAM of the partition. The
choices that it rests on are the model's: log entry 44. -/
def Obligations.Debugging : Prop :=
  ((∀ s : State, Completes .dbgGetNonce s (fun t =>
     Sent t (.mgmt 0 "NONCE" (nonceBytes t)) ∧ t.mem = s.mem ∧ t.sec = s.sec)) ∧
   (∀ (s : State) (b : List Byte),
     Completes (.dbgToken b) s (fun t =>
       Sent t (.mgmt 0 "TOKEN" (leBytes (tokenResult s b) 1)) ∧
       (tokenResult s b = 0 → leAt b 6 1 = 0x10 ∨ leAt b 6 1 = 0x11 → t.sec.lcToken = some (leAt b 6 1)) ∧
       (tokenResult s b = 0 → leAt b 6 1 = 1 ∨ leAt b 6 1 = 2 → ∀ p, p < partCount s → p < 8 → bit (leAt b 7 1) p = true →
         rget t .dbg 0 (0x110 + 4 * p) = packFields [(0, leAt b 6 1), (2, 1)]) ∧ t.mem = s.mem)) ∧
   (∀ (s : State) (mask : Nat), exec (.dbgRevoke mask) s = .next (mgmtOut (endGrants s mask) "REVOKE" [])) ∧
   (∀ s : State, exec .dbgStatus s = .next (mgmtOut s "STATUS"
     ((List.range 9).flatMap (fun i => leBytes (rget s .dbg 0 (0x110 + 4 * i)).toNat 4)))) ∧
   (∀ (s : State) (req : Req) (mask : Nat), Serves s req .dbg 0 →
     Completes (.dbgCmdRevoke req mask) s (fun t =>
       (∀ p, p < 8 → bit mask p = true → rget t .dbg 0 (0x110 + 4 * p) = 0) ∧
       (∀ p, p < 8 → bit mask p = false → rget t .dbg 0 (0x110 + 4 * p) = rget s .dbg 0 (0x110 + 4 * p)) ∧
       t.mem = s.mem ∧ t.cores = s.cores) ∧
     Completes (.dbgCmdRevokeAll req) s (fun t =>
       (∀ p, p < 8 → rget t .dbg 0 (0x110 + 4 * p) = 0) ∧ t.mem = s.mem ∧ t.cores = s.cores) ∧
     (∀ level, lcState s = 0 → frozen s = false → level = 1 ∨ level = 2 →
       Completes (.dbgCmdOpen req level mask) s (fun t =>
         (∀ p, p < partCount s → p < 8 → bit mask p = true →
           rget t .dbg 0 (0x110 + 4 * p) = packFields [(0, level), (2, 0)]) ∧ t.mem = s.mem)) ∧
     (lcState s = 0 → frozen s = false → allSlotsFree s = true → Completes (.dbgCmdOpen req 3 mask) s (fun t =>
       debugD3 t = true ∧ t.sec.d3Seen = true ∧ t.mem = s.mem)) ∧
     (∀ level, lcState s ≠ 0 ∨ frozen s = true ∨ level = 0 ∨ 3 < level ∨ level = 3 ∧ allSlotsFree s = false →
       exec (.dbgCmdOpen req level mask) s = .next s)) ∧
   (∀ (req : Req) (level mask : Nat), ∀ c ∈ [Instr.dbgCmdRevoke req mask, .dbgCmdRevokeAll req, .dbgCmdOpen req level mask],
     TurnsAway c req .dbg 0 0x140) ∧
   (∀ s : State, Completes .tokenLockoutExpiry s (fun t =>
     t.sec.lockout = false ∧ t.sec.tokenFails = [] ∧ OnlyRegs { s with sec := t.sec } t ∧
     wbit (rget t .dbg 0 0x134) 16 = false))) ∧
  ((∀ (s : State) (ir : Nat) (a : DbgAcc), jtagOk s 2 = true → dbgAccOk s a = true →
     let u := rset s .dbg 0 0x13C (packFields [(0, 1), (4, 2), (8, 0)])
     (a.write = none → exec (.jtagInstruction 2 ir (some a)) s = .next (emit u (.jtag ir [dbgRead u a]))) ∧
     (∀ v, a.write = some v → exec (.jtagInstruction 2 ir (some a)) s = .next (emit (dbgWrite u a v) (.jtag ir [])))) ∧
   (∀ (s : State) (cls ir : Nat) (acc : Option DbgAcc),
     let u (denied : Bool) := rset s .dbg 0 0x13C (packFields [(0, 1), (4, cls), (8, b2n denied)])
     (jtagOk s cls = true → cls ≠ 2 ∨ acc = none →
       exec (.jtagInstruction cls ir acc) s = .next (emit (u false) (.jtag ir []))) ∧
     (jtagOk s cls = false ∨ cls = 2 ∧ (∃ a, acc = some a ∧ dbgAccOk s a = false) →
       Completes (.jtagInstruction cls ir acc) s (fun t =>
         Out.jtag 0xFFFFFFFF [] ∈ t.out ∧ wbit (rget t .dbg 0 0x20) eDbgJtagDenied.bit = true ∧
         wbit (rget t .dbg 0 0x13C) 8 = true ∧
         (cls = 1 → t.sec = s.sec) ∧ (2 ≤ cls → wbit (rget t .sec 0 0x114) 5 = true) ∧ t.mem = s.mem))) ∧
   (∀ (s : State) (req : Req) (clu : Nat) (v : Word), Serves s req .clu clu →
     (debugLevel s (partOfClu s clu) = 0 →
       exec (.traceEnable req clu v) s = .next (denied s req (page .clu clu + 0xB00))) ∧
     (debugLevel s (partOfClu s clu) ≠ 0 → wbit v 0 = false →
       Completes (.traceEnable req clu v) s (fun t =>
         (cluster t clu).traceOn = false ∧ t = { s with regs := t.regs, clusters := t.clusters })) ∧
     (debugLevel s (partOfClu s clu) ≠ 0 → wbit v 0 = true →
       let size := max 1 (fld (rget s .clu clu 0xB0C) 11 0) * 4096
       let a := fld (rget s .clu clu 0xB04) 31 12 * 4096 + fld (rget s .clu clu 0xB08) 15 0 * 2 ^ 32
       Completes (.traceEnable req clu v) s (fun t =>
         (cluster t clu).traceOn = (decide (stgBase ≤ a) && decide (a + size ≤ stgBase + 0x60000000) &&
           ownedRange s (partOfClu s clu) a size) ∧ t = { s with regs := t.regs, clusters := t.clusters }))) ∧
   (∀ (req : Req) (clu : Nat) (v : Word), TurnsAway (.traceEnable req clu v) req .clu clu 0xB00))

/-! ### Attestation (R429, R430, R523) -/

/-- Attestation is available, and the version and the algorithms are agreed on. -/
structure Sys2Proof.Machine.SpdmReady (s : State) : Prop where
  attest : attestOk s = true
  version : s.carillon.spdmVer = true
  algorithms : s.carillon.spdmAlg = true

/-- SPDM (R429, R430, R523): without attestation every request is an ERROR; version, capabilities and algorithms come
first; digests, certificates, a challenge and measurements are answered from the chain and the running bundle, signed
with the Alias key; a session opens, is established by FINISH, serves its requests and ends; a request out of its
place is an ERROR. The choices that it rests on are the model's: log entry 20. -/
def Obligations.Attestation : Prop :=
  (∀ (s : State) (offered : Bool),
    (attestOk s = true → exec .spdmGetVersion s =
      .next (spdmOut { s with carillon := { s.carillon with spdmVer := true, spdmAlg := false } } 0x04 [])) ∧
    (attestOk s = false → exec .spdmGetVersion s = .next (spdmError s)) ∧
    (attestOk s = true → s.carillon.spdmVer = true →
      exec .spdmGetCapabilities s = .next (spdmOut s 0x61 (leBytes 0xFF 1)) ∧
      exec (.spdmNegotiateAlgorithms true) s =
        .next (spdmOut { s with carillon := { s.carillon with spdmAlg := true } } 0x63 [])) ∧
    (attestOk s = false ∨ s.carillon.spdmVer = false →
      exec .spdmGetCapabilities s = .next (spdmError s) ∧
      exec (.spdmNegotiateAlgorithms offered) s = .next (spdmError s)) ∧
    exec (.spdmNegotiateAlgorithms false) s = .next (spdmError s)) ∧
  (∀ (s : State) (k off len sess msg p sl : Nat) (on ok : Bool) (b : List Byte), ¬ SpdmReady s →
    ∀ c ∈ [Instr.spdmGetDigests, .spdmGetCertificate k off len, .spdmChallenge k b, .spdmGetMeasurements k b,
      .spdmKeyExchange b, .spdmFinish sess ok, .spdmHeartbeat sess, .spdmKeyUpdate sess, .spdmEndSession sess,
      .spdmVendorDefinedRequest sess msg p sl on b], exec c s = .next (spdmError s)) ∧
  (∀ (s : State) (k off len : Nat) (nonce : List Byte), SpdmReady s →
    exec .spdmGetDigests s = .next (spdmOut s 0x01 (sha256 (certChain s))) ∧
    exec (.spdmGetCertificate 0 off len) s = .next (spdmOut s 0x02 (((certChain s).drop off).take len)) ∧
    exec (.spdmChallenge 0 nonce) s =
      .next (spdmOut s 0x03 (Config.sign s.sec.aliasKey (nonce ++ sha256 (certChain s)))) ∧
    (k ≠ 0 → exec (.spdmGetCertificate k off len) s = .next (spdmError s) ∧
      exec (.spdmChallenge k nonce) s = .next (spdmError s)) ∧
    exec (.spdmGetMeasurements 0 nonce) s = .next (spdmOut s 0x60 (leBytes 17 1)) ∧
    (1 ≤ k → k ≤ 17 ∨ k = 0xFF → exec (.spdmGetMeasurements k nonce) s =
      .next (spdmOut s 0x60 (measurements s k ++ Config.sign s.sec.aliasKey (nonce ++ measurements s k)))) ∧
    (17 < k → k ≠ 0xFF → exec (.spdmGetMeasurements k nonce) s = .next (spdmError s))) ∧
  (∀ (s : State) (data : List Byte), SpdmReady s →
    (s.carillon.sessions.length < 2 →
      Completes (.spdmKeyExchange data) s (fun t =>
        t.carillon.sessions = s.carillon.sessions ++ [(s.carillon.nextSession, false)] ∧
        t.carillon.nextSession = s.carillon.nextSession + 1 ∧ t = { s with carillon := t.carillon, out := t.out })) ∧
    (2 ≤ s.carillon.sessions.length → exec (.spdmKeyExchange data) s = .next (spdmError s))) ∧
  (∀ (s : State) (session msg p sl : Nat) (on : Bool) (key : List Byte), SpdmReady s →
    (s.carillon.sessions.contains (session, false) = true →
      Completes (.spdmFinish session true) s (fun t =>
        sessionOpen t session = true ∧ t = { s with carillon := t.carillon, out := t.out })) ∧
    (s.carillon.sessions.contains (session, false) = false →
      exec (.spdmFinish session true) s = .next (spdmError s)) ∧
    exec (.spdmFinish session false) s = .next (spdmError s) ∧
    (sessionOpen s session = false →
      ∀ c ∈ [Instr.spdmHeartbeat session, .spdmKeyUpdate session, .spdmEndSession session,
        .spdmVendorDefinedRequest session msg p sl on key], exec c s = .next (spdmError s)) ∧
    (sessionOpen s session = true →
      exec (.spdmHeartbeat session) s = .next (spdmOut s 0x68 []) ∧
      exec (.spdmKeyUpdate session) s = .next (spdmOut s 0x69 []) ∧
      Completes (.spdmEndSession session) s (fun t =>
        sessionOpen t session = false ∧ t = { s with carillon := t.carillon, out := t.out }) ∧
      exec (.spdmVendorDefinedRequest session 0 p sl on key) s =
        .next (spdmOut (fabKeySet s session p sl key) 0x7E []) ∧
      exec (.spdmVendorDefinedRequest session 1 p sl on key) s =
        .next (spdmOut (fabKeyDelete s session p sl) 0x7E []) ∧
      exec (.spdmVendorDefinedRequest session 2 p sl on key) s = .next (spdmOut (fabKeyTx s session p sl) 0x7E []) ∧
      (3 ≤ msg → exec (.spdmVendorDefinedRequest session msg p sl on key) s =
        .next (spdmOut (fabEnc s session p on) 0x7E []))))

/-! ### Resets and dumps (R455 to R488) -/

/-- Context and engine resets (R455 to R457, R463, R465, R470): a context that is ended leaves its slot FREE with its
outcome; a hang is raised once; a context reset that does not complete asks for engine resets; an engine reset ends
what the engine holds, and one that does not complete asks for the partition's. The choices that it rests on are the
model's: log entry 45. -/
def Obligations.ContextResets : Prop :=
  (∀ (s : State) (n k : Nat), s.chipReset = none → (slot s n k).st ≠ .free → (slot s n k).ending = none →
    (core s n).heldCmd = none →
    Completes (.contextReset n k false) s (fun t =>
      (slot t n k).st = .free ∧ (slot t n k).outcome = 3 ∧ (slot t n k).ending = none ∧ (slot t n k).strands = [] ∧
      (slot t n k).banks = [] ∧ (slot t n k).blocks = [] ∧ (slot t n k).streams = [] ∧
      (slot t n k).gen = (slot s n k).gen ∧ (slot t n k).ctag = (slot s n k).ctag)) ∧
  (∀ (s : State) (n k : Nat) (e : EndInfo) (group : Bool), s.chipReset = none → (slot s n k).st ≠ .free →
    (slot s n k).ending = some e → e.group = false → (core s n).heldCmd = none →
    Completes (.contextReset n k group) s (fun t =>
      (slot t n k).st = .free ∧ (slot t n k).outcome = e.outcome ∧ (slot t n k).ending = none)) ∧
  (∀ (s : State) (n k : Nat) (group : Bool), s.chipReset.isSome = true ∨ (slot s n k).st = .free →
    exec (.contextReset n k group) s = .next s) ∧
  (∀ (s : State) (n k : Nat), s.chipReset = none → (slot s n k).st ≠ .free → (slot s n k).ending = none → k < 16 →
    (∀ m, (core s m).heldCmd = none) → keysRising s.cores = true →
    Completes (.contextReset n k true) s (fun t => (slot t n k).st = .free ∧ (slot t n k).outcome = 3)) ∧
  (∀ (s : State) (n k : Nat), n < 1152 → (slot s n k).st = .active ∨ (slot s n k).st = .waiting →
    (slot s n k).ending = none → hangSuspended s (partOfCore s n) = false →
    (slot s n k).hangW ≤ (slot s n k).idleUs →
    (slot s n k).hangRaised = false →
    Completes (.hangEvent n k) s (fun t =>
      (slot t n k).hangRaised = true ∧ wbit (rget t .hng 0 0x20) eHangDetected.bit = true ∧
      (fld (rget s .hng 0 (0x130 + 4 * partOfCore s n)) 1 0 = 0 → (slot t n k).ending = none) ∧
      (fld (rget s .hng 0 (0x130 + 4 * partOfCore s n)) 1 0 = 1 →
        (slot t n k).ending.map (fun e => (e.cause, e.outcome)) = some (4, 3)) ∧ t.mem = s.mem)) ∧
  (∀ (s : State) (n k : Nat), ((slot s n k).st ≠ .active ∧ (slot s n k).st ≠ .waiting) ∨ (slot s n k).ending ≠ none ∨
    hangSuspended s (partOfCore s n) = true ∨ (slot s n k).idleUs < (slot s n k).hangW ∨ (slot s n k).hangRaised = true →
    exec (.hangEvent n k) s = .next s) ∧
  (∀ (s : State) (n k engines : Nat),
    (∀ x, (slot s n k).ending = some x → x.us + 100 ≤ s.us → Completes (.ctxResetTimeout n k engines) s (fun t =>
      (∀ e, e < 4 → bit engines e = true → bit (core t n).engReset e = true) ∧
      wbit (rget t .hng 0 0x20) eCtxResetTimeout.bit = true ∧ t.mem = s.mem)) ∧
    ((∀ x, (slot s n k).ending = some x → s.us < x.us + 100) → exec (.ctxResetTimeout n k engines) s = .next s)) ∧
  (∀ (s : State) (n e : Nat), e < 4 → bit (core s n).engReset e = true → s.chipReset = none →
    mget s.partReset (partOfCore s n) = none → (core s n).heldCmd = none →
    Completes (.engineReset n e) s (fun t =>
      bit (core t n).engReset e = false ∧ (∀ k, k < 16 → engineHolds s n k e = true → (slot t n k).st = .free) ∧
      (e = 0 → (core t n).sync = []) ∧
      (e = 1 → (core t n).banks = [] ∧ (core t n).teRun = []) ∧ (e = 2 → (core t n).strands = []) ∧
      (e = 3 → (core t n).streams = []))) ∧
  (∀ (s : State) (n e : Nat), bit (core s n).engReset e = false ∨ s.chipReset.isSome = true ∨
    (mget s.partReset (partOfCore s n)).isSome = true → exec (.engineReset n e) s = .next s) ∧
  (∀ (s : State) (n e : Nat),
    (bit (core s n).engReset e = true → (core s n).engUs + 300 ≤ s.us → Completes (.engResetTimeout n e) s (fun t =>
      (mget t.reqPart (partOfCore s n)).isSome = true ∧ wbit (rget t .hng 0 0x20) eEngResetTimeout.bit = true ∧
      t.mem = s.mem)) ∧
    (bit (core s n).engReset e = false ∨ s.us < (core s n).engUs + 300 → exec (.engResetTimeout n e) s = .next s))

/-- A slot that stays PREEMPTING longer than HNG_SAVE_TIMEOUT, 10,000 us at reset, and no sooner, is to be ended with CAUSE
SAVE_TIMEOUT, 7; SAVE_TIMEOUT is recorded, no save header is written, and the context reset leaves outcome CONTEXT_GONE, 3
(R458). -/
def Obligations.SaveTimeout : Prop :=
  (rget State.reset .hng 0 0x150).toNat = 10000 ∧
  (∀ (s : State) (n k : Nat), (slot s n k).st = .preempting → (slot s n k).ending = none →
    ((slot s n k).preemptUs + max 1000 (fld (rget s .hng 0 0x150) 15 0) < s.us →
      Completes (.saveTimeout n k) s (fun t =>
        (slot t n k).ending.map (fun e => (e.cause, e.outcome)) = some (7, 3) ∧
        wbit (rget t .hng 0 0x20) eSaveTimeout.bit = true ∧ t.mem = s.mem ∧
        (s.chipReset = none → (core s n).heldCmd = none →
          Completes (.contextReset n k false) t (fun u => (slot u n k).st = .free ∧ (slot u n k).outcome = 3)))) ∧
    (s.us ≤ (slot s n k).preemptUs + max 1000 (fld (rget s .hng 0 0x150) 15 0) →
      exec (.saveTimeout n k) s = .next s)) ∧
  ∀ (s : State) (n k : Nat), (slot s n k).st ≠ .preempting ∨ (slot s n k).ending ≠ none → exec (.saveTimeout n k) s = .next s

/-- Partition and chip resets (R466, R467, R470, R476): a requested partition reset starts, clears the partition's shared
state and ends by clearing what it shows; one that takes too long asks for the chip's; a chip reset absorbs the
others, takes every port down and clears nothing of memory before S2. The choices that it rests on are the model's:
log entry 45. -/
def Obligations.WiderResets : Prop :=
  (∀ (s : State) (p : Nat) (r : ResetReq), mget s.reqPart p = some r → s.chipReset = none → p < partCount s → p < 8 →
    (mget s.partReset p = none →
      Completes (.partitionReset p) s (fun t =>
        (mget t.partReset p).map (fun x => (x.cause, x.escalated, x.scrub)) = some (r.cause, r.escalated, r.scrub) ∧
        wbit (rget t .pce 0 0x114) p = true ∧ (∀ c, c < 65536 → (peer t p c).state = 0) ∧
        (∀ k, k < 16 → mget t.fabKeys (16 * p + k) = none))) ∧
    (∀ x, mget s.partReset p = some x →
      Completes (.partitionReset p) s (fun t =>
        mget t.partReset p = some { x with scrub := x.scrub || r.scrub } ∧
        t = { s with reqPart := t.reqPart, partReset := t.partReset }))) ∧
  (∀ (s : State) (p : Nat),
    (mget s.reqPart p = none → exec (.partitionReset p) s = .next s) ∧
    ((mget s.reqPart p).isSome = true → s.chipReset.isSome = true ∨ partCount s ≤ p →
      exec (.partitionReset p) s = .next { s with reqPart := mdel s.reqPart p })) ∧
  (∀ (s : State) (p : Nat) (healthy : Bool), mget s.partReset p = none ∨ pealRunning s p = true →
    exec (.partitionResetComplete p healthy) s = .next s) ∧
  (∀ (s : State) (p : Nat) (r : PartReset) (healthy : Bool), mget s.partReset p = some r → pealRunning s p = false →
    keysRising s.partReset = true →
    Completes (.partitionResetComplete p healthy) s (fun t =>
      mget t.partReset p = none ∧ wbit (rget t .pce 0 0x114) p = false ∧ (∀ e ∈ t.heldInts, e.1 ≠ p) ∧
      (r.scrub = false → r.mapChange = [] → t.mem = s.mem))) ∧
  (∀ (s : State) (p : Nat),
    (∀ x, mget s.partReset p = some x → x.startUs + 5000 ≤ s.us → Completes (.partResetTimeout p) s (fun t =>
      t.reqChip.isSome = true ∧ wbit (rget t .hng 0 0x20) ePartResetTimeout.bit = true ∧ t.mem = s.mem)) ∧
    ((∀ x, mget s.partReset p = some x → s.us < x.startUs + 5000) → exec (.partResetTimeout p) s = .next s)) ∧
  (∀ s : State, s.reqChip = none → exec .chipReset s = .next s) ∧
  (∀ (s : State) (r : ResetReq), s.reqChip = some r →
    (s.chipReset = none →
      Completes .chipReset s (fun t =>
        t.chipReset = some r ∧ t.partReset = [] ∧ t.pealCores = [] ∧ t.epochPeers = recordedPeers s ∧
        (∀ i, i < 8 → (port t i).txMgt = [] → (port t i).txBytes = [] → fabState t i ≤ 1) ∧ t.mem = s.mem)) ∧
    (s.chipReset.isSome = true → exec .chipReset s = .next { s with reqChip := none }))

/-- Crash dumps (R477 to R482, R486): TAKE starts a collection where R478 allows one; its end writes the dump to its
region and holds it; a read of the last data register moves the offset; RELEASE gives the region back as zeros; a page
that does not answer is marked. The choices that it rests on are the model's: log entry 46. -/
def Obligations.CrashDumps : Prop :=
  (∀ (s : State) (req : Req) (hng : Bool), (hng = true → Serves s req .hng 0) → (hng = false → Serves s req .dmp 0) →
    (dumpHeld s = false → dumpCollecting s = false → dumpAllowed s = true →
      Completes (.dumpTake req hng) s (fun t =>
        t.dump.map (fun d => (d.trigger, d.startUs, d.scope)) = some (5, s.us, 0xFF) ∧
        rget t .hng 0 0x18C = packFields [(0, 1), (4, 0)] ∧ t.mem = s.mem)) ∧
    (dumpHeld s = false → dumpCollecting s = false → dumpAllowed s = false →
      exec (.dumpTake req hng) s = .next (setDumpResult (dumpSkip s 5) false 1)) ∧
    (dumpHeld s = true ∨ dumpCollecting s = true →
      exec (.dumpTake req hng) s = .next (setDumpResult (dumpSkip s 5) (dumpCollecting s) 2)) ∧
    (dumpHeld s = true →
      Completes (.dumpRelease req hng) s (fun t =>
        dumpHeld t = false ∧ (∀ a, stgBase ≤ a → a < stgBase + 0x4000000 → memGet t.mem a = 0) ∧
        rget t .hng 0 0x18C = packFields [(0, 0), (4, 0)])) ∧
    (dumpHeld s = false →
      exec (.dumpRelease req hng) s = .next (setDumpResult s (dumpCollecting s) 3))) ∧
  (∀ req : Req, ∀ c ∈ [Instr.dumpTake req true, .dumpRelease req true], TurnsAway c req .hng 0 0x188) ∧
  (∀ req : Req, ∀ c ∈ [Instr.dumpTake req false, .dumpRelease req false], TurnsAway c req .dmp 0 0x108) ∧
  (∀ (s : State) (req : Req),
    (answered s req = false → exec (.dumpDataRead req) s = .next s) ∧
    (answered s req = true → pageOpen s req (page .hng 0) = false → exec (.dumpDataRead req) s =
      .next (emit (denied s req (page .hng 0 + 0x1FC)) (.readData req (page .hng 0 + 0x1FC) 0)))) ∧
  (∀ (s : State) (req : Req), answered s req = true → pageOpen s req (page .hng 0) = true →
    exec (.dumpDataRead req) s =
      .next (advanceDump (emit s (.readData req (page .hng 0 + 0x1FC) (dumpData s 15))))) ∧
  (∀ (s : State) (d : DumpRun) (reached : Nat), s.dump = some d →
    let items := cutItems reached (dumpItems s d)
    let body := items.flatMap itemBytes
    Completes (.dumpCollectionEnd reached) s (fun t =>
      t.dump = none ∧ dumpHeld t = true ∧ wbit (rget t .dmp 0 0x20) eDmpTaken.bit = true ∧
      t.mem = memWrite s.mem stgBase
        (dumpHeader s d items body (decide (0 < (dumpItems s d).length - reached)) ++ body))) ∧
  (∀ s : State, s.dump = none → (∀ n, exec (.dumpCollectionEnd n) s = .next s) ∧
    ∀ a b, exec (.sideDoorTimeout a b) s = .next s) ∧
  (∀ (s : State) (a b : Nat) (d : DumpRun), s.dump = some d →
    (pageOf a = none → exec (.sideDoorTimeout a b) s = .next s) ∧
    (∀ x i off, pageOf a = some (x, i, off) → (mget d.unread (page x i)).isSome = true ∨
      d.deadIslands.any (fun e => e.1 = pageIsland x i) = true → exec (.sideDoorTimeout a b) s = .next s)) ∧
  (∀ (s : State) (a b : Nat) (d : DumpRun) (x : Block) (i off : Nat), s.dump = some d → pageOf a = some (x, i, off) →
    mget d.unread (page x i) = none → d.deadIslands.any (fun e => e.1 = pageIsland x i) = false →
    Completes (.sideDoorTimeout a b) s (fun t =>
      (t.dump.bind (fun e => mget e.unread (page x i))) = some (min 4096 (64 * b)) ∧
      wbit (rget t .dmp 0 0x20) eDmpUnreadable.bit = true ∧ t.mem = s.mem))

/-! ### Power and heat (R213, R489 to R513) -/

/-- Power states (R493 to R495, R513): A2 begins only when every slot is empty and nothing blocks it, ends with the
compute dies off and their memory lost, A3 with the base dies' too; A0 is reached through a package peal; an exit that
fails asks for a chip reset. The choices that it rests on are the model's: log entry 47. -/
def Obligations.PowerStates : Prop :=
  (∀ (s : State) (req : Req), Serves s req .pwr 0 → s.power.moving = none →
    (s.power.st = 0 ∨ s.power.st = 1 → Completes (.pwrStateCmdA0 req) s (fun t => t.power.st = 0 ∧ t.mem = s.mem)) ∧
    (s.power.st = 2 →
      Completes (.pwrStateCmdA0 req) s (fun t => t.power.moving = some 0 ∧ t.power.st = 2 ∧ t.mem = s.mem)) ∧
    (s.power.st = 3 →
      (req = .car → s.power.vin48 = true → s.power.vauxLost = false → s.thermal.tripped = false →
        Completes (.pwrStateCmdA0 req) s (fun t => t.reqChip.isSome = true ∧ t.power = s.power ∧ t.mem = s.mem)) ∧
      (req ≠ .car ∨ s.power.vin48 = false ∨ s.power.vauxLost = true ∨ s.thermal.tripped = true →
        exec (.pwrStateCmdA0 req) s = .next (pwrResult s false 3)) ∧
      exec (.pwrStateCmdA2 req) s = .next (pwrResult s false 3) ∧
      exec (.pwrStateCmdA3 req) s = .next (pwrResult s false 0)) ∧
    (s.power.st = 2 → exec (.pwrStateCmdA2 req) s = .next (pwrResult s false 0) ∧
      Completes (.pwrStateCmdA3 req) s (fun t => t.power.st = 3 ∧ t.mem = [])) ∧
    (∀ (c : Req → Instr) (target : Nat), (c, target) ∈ [(Instr.pwrStateCmdA2, 2), (Instr.pwrStateCmdA3, 3)] →
      s.power.st < 2 →
      (allSlotsFree s = false → exec (c req) s = .next (pwrResult s false 1)) ∧
      (allSlotsFree s = true → pwrBlocked s = true → exec (c req) s = .next (pwrResult s false 2)) ∧
      (allSlotsFree s = true → pwrBlocked s = false →
        Completes (c req) s (fun t => t.power.moving = some target ∧ t.power.st = s.power.st ∧ t.mem = s.mem)))) ∧
  (∀ (s : State) (req : Req), Serves s req .pwr 0 → s.power.moving ≠ none →
    ∀ c ∈ [Instr.pwrStateCmdA0 req, .pwrStateCmdA2 req, .pwrStateCmdA3 req], exec c s = .next s) ∧
  (∀ req : Req, ∀ c ∈ [Instr.pwrStateCmdA0 req, .pwrStateCmdA2 req, .pwrStateCmdA3 req], TurnsAway c req .pwr 0 0x104) ∧
  (∀ s : State,
    let idle := s.power.st = 0 ∧ s.power.moving = none ∧ fld (rget s .pwr 0 0x10C) 23 0 ≠ 0 ∧ allSlotsFree s = true ∧
      anyPeal s = false ∧ s.chipReset = none ∧ s.partReset = [] ∧ s.dump = none
    (idle → exec .a1IdleEntry s = .next { s with power := { s.power with st := 1 } }) ∧
    (¬ idle → exec .a1IdleEntry s = .next s)) ∧
  (∀ s : State,
    (s.power.st < 2 → s.power.moving = some 2 →
      Completes .a2EntryComplete s (fun t =>
        t.power.st = 2 ∧ t.power.moving = none ∧ (∀ a, a < lmBase → memGet t.mem a = memGet s.mem a) ∧
        (∀ a, lmBase ≤ a → memGet t.mem a = 0))) ∧
    (s.power.st < 2 → s.power.moving = some 3 →
      Completes .a2EntryComplete s (fun t => t.power.st = 3 ∧ t.power.moving = none ∧ t.mem = [])) ∧
    (2 ≤ s.power.st ∨ s.power.moving = none ∨ s.power.moving = some 0 → exec .a2EntryComplete s = .next s)) ∧
  (∀ s : State,
    (s.power.moving = some 0 →
      (s.power.st = 2 → anyPeal s = false →
        Completes .a2ExitComplete s (fun t => t.power.st = 0 ∧ t.power.moving = none ∧ t.mem = s.mem)) ∧
      Completes .pwrStateFail s (fun t =>
        t.power.moving = none ∧ t.reqChip.isSome = true ∧ wbit (rget t .pwr 0 0x20) ePwrStateFail.bit = true ∧
        t.mem = s.mem)) ∧
    (s.power.moving ≠ some 0 → exec .pwrStateFail s = .next s) ∧
    (s.power.moving ≠ some 0 ∨ s.power.st ≠ 2 ∨ anyPeal s = true → exec .a2ExitComplete s = .next s))

/-- Budgets and the brake (R492, R496 to R500, R511): a request that fits its pool is granted, one that does not waits and
is counted; the pools never exceed what L_eff leaves; the fast loop moves by one step; the brake takes L_eff to the
floor and its release brings it back by tenths of L. The choices that it rests on are the model's: log entry 30. -/
def Obligations.PowerBudget : Prop :=
  (∀ (s : State) (n k c : Nat) (w : Bool), s.grantReqs.find? (fun q => q.1 = n) = some (n, k, c, w) → frozen s = false →
    (c + mgetD s.grants (coreTile n) 0 ≤ mgetD s.pools (coreTile n) 0 →
      Completes (.powerGrant n k) s (fun t =>
        (slot t n k).granted = true ∧ mgetD t.grants (coreTile n) 0 = mgetD s.grants (coreTile n) 0 + c ∧
        OtherSlots s t n k ∧ t.regs = s.regs ∧ t.mem = s.mem)) ∧
    (mgetD s.pools (coreTile n) 0 < c + mgetD s.grants (coreTile n) 0 → w = false →
      Completes (.powerGrant n k) s (fun t =>
        rget t .pwr 0 0x12C = wd (min 0xFFFFFFFF ((rget s .pwr 0 0x12C).toNat + 1)) ∧ t.grants = s.grants ∧
        (∀ m j, slot t m j = slot s m j))) ∧
    (mgetD s.pools (coreTile n) 0 < c + mgetD s.grants (coreTile n) 0 → w = true →
      exec (.powerGrant n k) s = .next s)) ∧
  (∀ (s : State) (n k : Nat), frozen s = true ∨ (∀ q, s.grantReqs.find? (fun q => q.1 = n) = some q → q.2.1 ≠ k) →
    exec (.powerGrant n k) s = .next s) ∧
  (∀ (s : State) (uncovered : Nat),
    Completes (.poolRecompute uncovered) s (fun t =>
      mgetD t.pools 0 0 + mgetD t.pools 1 0 + mgetD t.pools 2 0 + mgetD t.pools 3 0 ≤
        (s.power.lEff - uncovered) * 250 - 5 * inputLimit s ∧
      t = { s with pools := t.pools, poolAsked := t.poolAsked })) ∧
  (∀ (s : State) (a b peak : Nat),
    (s.power.lEff < a → 4 < s.fastCap →
      Completes (.fastLoopTick a b peak) s (fun t => t.fastCap = s.fastCap - 1 ∧ t.power = s.power ∧ t.mem = s.mem)) ∧
    (s.power.lEff < a → s.fastCap ≤ 4 →
      Completes (.fastLoopTick a b peak) s (fun t =>
        t.fastCap = s.fastCap ∧ t.power.duty = min 3 (s.power.duty + 1) ∧ t.mem = s.mem)) ∧
    (a ≤ s.power.lEff → b * 100 < s.power.lEff * 95 → s.power.duty = 0 →
      Completes (.fastLoopTick a b peak) s (fun t =>
        t.fastCap = min 16 (s.fastCap + 1) ∧ t.power = s.power ∧ t.mem = s.mem)) ∧
    (a ≤ s.power.lEff → b * 100 < s.power.lEff * 95 → s.power.duty ≠ 0 →
      Completes (.fastLoopTick a b peak) s (fun t =>
        t.fastCap = s.fastCap ∧ t.power.duty = s.power.duty - 1 ∧ t.mem = s.mem)) ∧
    (a ≤ s.power.lEff → s.power.lEff * 95 ≤ b * 100 →
      exec (.fastLoopTick a b peak) s =
        .next (rset s .pwr 0 0x11C (packFields [(0, min 65535 b), (16, min 65535 peak)])))) ∧
  (∀ s : State,
    (s.power.brakePin = false →
      Completes .pwrbrkAssert s (fun t =>
        t.power.brakePin = true ∧ t.power.brake = 1 ∧ t.power.stage1 = true ∧ t.power.lEff = s.power.lEff ∧
        wbit (rget t .pwr 0 0x20) ePwrBrake.bit = true ∧ (∀ b ∈ t.bist.slices, b.phase ≠ 1) ∧ t.mem = s.mem)) ∧
    (s.power.brakePin = true → exec .pwrbrkAssert s = .next s) ∧
    (s.power.brakePin = false ∨ s.power.brake ≠ 1 → ∀ u, exec (.brakeStage2 u) s = .next s) ∧
    (s.power.brakePin = false → exec .brakeRelease s = .next s) ∧
    (s.carillon.token = none → exec .brakeStageRecompute s = .next s) ∧
    (s.power.brakePin = true → s.power.brake = 1 → ∀ u,
      Completes (.brakeStage2 u) s (fun t =>
        t.power.brake = 2 ∧ t.power.lEff ≤ s.power.floorW ∧ t.power.lEff ≤ s.power.lEff ∧ t.mem = s.mem)) ∧
    (s.power.brakePin = true → exec .brakeRelease s =
      .next { s with power := { s.power with brakePin := false, brake := 3 } }) ∧
    Completes .lEffRamp s (fun t =>
      t.power.lEff = max s.power.lEff (min (effTarget s) (s.power.lEff + inputLimit s / 10)) ∧
      t = { s with power := t.power }) ∧
    (s.carillon.token.isSome = true → Completes .brakeStageRecompute s (fun t =>
      t.power.floorW = floorWatts s ∧ t.power.lEff ≤ s.power.lEff ∧ t = { s with power := t.power }))) ∧
  (∀ (req : Req) (v : Word), TurnsAway (.pwrLimitCfgWrite req v) req .pwr 0 0x114) ∧
  (∀ (s : State) (req : Req) (v : Word), Serves s req .pwr 0 →
    Completes (.pwrLimitCfgWrite req v) s (fun t =>
      fld (rget t .pwr 0 0x114) 15 0 = fld v 15 0 ∧ t.power.lEff ≤ s.power.lEff ∧
      t = { s with regs := t.regs, power := t.power }))

/-- Power failures (R490, R501, R502): a dip is recorded; the loss of 48 V, an overvoltage or the loss of VAUX12 put the
package in A3 with its events kept; the return of 48 V starts a chip reset; without VAUX12 the Carillon is off. Heat
(R213, R503 to R508, R519): a plausible pair that agrees is the reading of its site, a FAILED one makes its region run
at half clock; 115 °C trips the package; with no controller in charge the comparators alone keep the hard limit; a
cluster's cap moves by a sixteenth and the converter cut by a tenth of L; a stack is throttled from 85 °C and without
three readings; degraded cooling is reported. The choices that it rests on are the model's: log entries 31 and 48. -/
def Obligations.PowerFailuresAndHeat : Prop :=
  ((∀ (s : State) (us : Nat),
     (us ≤ 10 → exec (.vinDip us) s = .next (recErr s ePwrVinDip 0 0 us noCtag)) ∧
     (10 < us → exec (.vinDip us) s = .next s)) ∧
   (∀ (s : State) (c : Instr) (vin : Nat), s.power.failed = false → s.power.st ≠ 3 → s.power.vin48 = true →
     c = .powerFailSequence vin ∨ c = .pwrVinOv vin ∧ 3000 < vin ∨ c = .pwrVauxLost →
     Completes c s (fun t =>
       t.power.failed = true ∧ t.power.st = 3 ∧ t.power.brake = 0 ∧ t.mem = [] ∧ bootStage t = 1 ∧ t.chipReset = none ∧
       t.partReset = [] ∧ t.epoch = s.epoch ∧ t.fuses = s.fuses)) ∧
   (∀ (s : State) (vin : Nat),
     (s.power.st = 3 → Completes (.powerFailSequence vin) s (fun t =>
       t.power.vin48 = false ∧ t.power.st = 3 ∧ t.power.failed = s.power.failed ∧ t.mem = s.mem)) ∧
     (s.power.failed = true → 3000 < vin → Completes (.pwrVinOv vin) s (fun t => t.power = s.power ∧ t.mem = s.mem)) ∧
     (vin ≤ 3000 → exec (.pwrVinOv vin) s = .next s) ∧
     (s.power.vin48 = false → exec .pwrVauxLost s = .next s)) ∧
   (∀ s : State,
     (s.power.failed = true → s.power.vauxLost = false → s.thermal.tripped = false →
       Completes .vin48Return s (fun t =>
         t.power.vin48 = true ∧ t.power.failed = false ∧ t.chipReset.isSome = true ∧ t.chipAtS2 = false)) ∧
     (s.power.failed = false ∨ s.power.vauxLost = true ∨ s.thermal.tripped = true → exec .vin48Return s = .next s)) ∧
   (∀ s : State, Completes .vaux12Removed s (fun t =>
     t.carillon.powered = false ∧ t.carillon.token = none ∧ t.evq = [] ∧ t.mem = [] ∧ bootStage t = 0 ∧
     t.power.st = 3 ∧ t.fuses = s.fuses ∧ t.fw.flash = s.fw.flash))) ∧
  ((∀ (s : State) (i d input : Nat), s.thermal.tripped = false → bothDown s = false → i < 85 → (site s i).pair < 2 →
     (20 ≤ d → d ≤ 190 → Completes (.thermalSample [(i, some d, some d)] input) s (fun t =>
       (site t i).used = d ∧ (site t i).pair = 0 ∧ (site t i).read = true ∧
       (145 ≤ d → i < 80 → t.thermal.tripped = false → (site t i).hard = true) ∧
       (155 ≤ d → t.thermal.tripped = true ∧ t.power.st = 3 ∧ t.mem = []))) ∧
     Completes (.thermalSample [(i, none, none)] input) s (fun t =>
       (site t i).pair = 3 ∧ (site t i).half = true ∧ wbit (rget t .thm 0 0x20) eThmSensorFailed.bit = true)) ∧
   (∀ (s : State) (i d input : Nat), s.thermal.tripped = false → bothDown s = true → i < 85 → 20 ≤ d → d ≤ 190 →
     Completes (.thermalSample [(i, some d, some d)] input) s (fun t =>
       (155 ≤ d → t.thermal.tripped = true ∧ t.power.st = 3 ∧ t.mem = []) ∧
       (145 ≤ d → d < 155 → i < 80 → (site t i).hard = true ∧ t.mem = s.mem) ∧
       (d < 140 → i < 80 → (site t i).hard = false ∧ t.mem = s.mem))) ∧
   (∀ (s : State) (reads : List (Nat × Option Nat × Option Nat)) (input : Nat),
     (s.thermal.tripped = true → exec (.thermalSample reads input) s = .next s) ∧
     Completes (.thermalSample reads input) s (fun t => t.fuses = s.fuses ∧ t.fw.flash = s.fw.flash)) ∧
   (∀ (s : State) (i : Nat),
     (i < 64 → (site s i).pair ≠ 3 → (site s i).hard = false → (site s i).read = true →
       (140 ≤ (site s i).used → Completes (.thermalStepTimer i) s (fun t =>
         (site t i).cap = max 4 ((site s i).cap - 1) ∧ t = { s with thermal := t.thermal })) ∧
       ((site s i).used < 137 → Completes (.thermalStepTimer i) s (fun t =>
         (site t i).cap = min 16 ((site s i).cap + 1) ∧ t = { s with thermal := t.thermal })) ∧
       (137 ≤ (site s i).used → (site s i).used < 140 → exec (.thermalStepTimer i) s = .next s)) ∧
     (i < 64 → (site s i).pair = 3 ∨ (site s i).hard = true ∨ (site s i).read = false →
       exec (.thermalStepTimer i) s = .next s) ∧
     (siteKind i = 1 ∨ siteKind i = 3 → exec (.thermalStepTimer i) s = .next s) ∧
     (siteKind i = 2 →
       (150 ≤ (site s i).used → (∀ j, 80 ≤ j → j < i → (site s j).used < 150) →
         Completes (.thermalStepTimer i) s (fun t =>
           t.power.convCut = min (inputLimit s / 2) (s.power.convCut + inputLimit s / 10) ∧ t.power.lEff ≤ s.power.lEff ∧
           t = { s with power := t.power })) ∧
       ((site s i).used < 150 ∨ (∃ j, 80 ≤ j ∧ j < i ∧ 150 ≤ (site s j).used) →
         exec (.thermalStepTimer i) s = .next s))) ∧
   (∀ (s : State) (input : Nat),
     (s.thermal.tripped = false → coolingBad s input = true →
       s.thermal.coolSent = none ∨ (∃ x, s.thermal.coolSent = some x ∧ x + 60000000 ≤ s.us) →
       Completes (.coolingEventRepeat input) s (fun t =>
         t.thermal.coolSent = some s.us ∧ wbit (rget t .thm 0 0x20) eThmCoolingDegraded.bit = true ∧
         wbit (rget t .thm 0 0x118) 0 = true ∧ t.mem = s.mem)) ∧
     (s.thermal.tripped = false → coolingBad s input = true →
       (∃ x, s.thermal.coolSent = some x ∧ s.us < x + 60000000) →
       Completes (.coolingEventRepeat input) s (fun t =>
         t.thermal.coolSent = s.thermal.coolSent ∧ t.thermal.coolHeld = s.us ∧ wbit (rget t .thm 0 0x118) 0 = true ∧
         t.mem = s.mem)) ∧
     (s.thermal.tripped = false → coolingBad s input = false →
       Completes (.coolingEventRepeat input) s (fun t =>
         wbit (rget t .thm 0 0x118) 0 = false ∧
         (s.thermal.coolHeld + 60000000 ≤ s.us → t.thermal.coolSent = none) ∧
         (s.us < s.thermal.coolHeld + 60000000 → t.thermal = s.thermal) ∧ t.mem = s.mem)) ∧
     (s.thermal.tripped = true → Completes (.coolingEventRepeat input) s (fun t =>
       OnlyRegs s t ∧ wbit (rget t .thm 0 0x118) 0 = false))) ∧
   (∀ (s : State) (k : Nat),
     (k < 16 → s.thermal.tripped = false →
       (∀ x, 85 ≤ x → x < 115 →
         Completes (.hbmTempRead k (some x)) s (fun t =>
           wbit (rget t .thm 0 0x110) k = true ∧ rget t .hbm k 0x108 = 8 ∧ fld (rget t .hbm k 0x104) 7 0 = x ∧
           mgetD t.thermal.hbmMiss k 0 = 0 ∧ (95 ≤ x → wbit (rget t .thm 0 0x110) (16 + k) = true) ∧
           (x < 92 → wbit (rget t .thm 0 0x110) (16 + k) = false) ∧ t.mem = s.mem)) ∧
       (∀ x, x < 85 → Completes (.hbmTempRead k (some x)) s (fun t =>
         fld (rget t .hbm k 0x104) 7 0 = x ∧ mgetD t.thermal.hbmMiss k 0 = 0 ∧
         wbit (rget t .thm 0 0x110) (16 + k) = false ∧
         (x < 82 → wbit (rget s .thm 0 0x110) k = true →
           (∃ u, mget s.thermal.hbmCool k = some u ∧ u + 10000 ≤ s.us) →
           wbit (rget t .thm 0 0x110) k = false ∧ rget t .hbm k 0x108 = 10) ∧ t.mem = s.mem)) ∧
       (2 ≤ mgetD s.thermal.hbmMiss k 0 →
         Completes (.hbmTempRead k none) s (fun t =>
           wbit (rget t .thm 0 0x110) k = true ∧ rget t .hbm k 0x108 = 8 ∧ wbit (rget t .hbm k 0x104) 31 = false ∧
           t.mem = s.mem)) ∧
       (mgetD s.thermal.hbmMiss k 0 < 2 → Completes (.hbmTempRead k none) s (fun t =>
         mgetD t.thermal.hbmMiss k 0 = mgetD s.thermal.hbmMiss k 0 + 1 ∧ t.regs = s.regs ∧ t.mem = s.mem)) ∧
       (∀ x, 115 ≤ x → Completes (.hbmTempRead k (some x)) s (fun t =>
         t.thermal.tripped = true ∧ t.power.st = 3 ∧ t.mem = []))) ∧
     (16 ≤ k ∨ s.thermal.tripped = true → ∀ x, exec (.hbmTempRead k x) s = .next s)))

/-! ### The Carillon and the management port (R335, R514 to R530) -/

/-- The controllers (R514 to R516): a passed self-test gives STANDBY, or ACTIVE with the token when no controller holds
it, which CB is refused for 10 ms; a failed one restarts; a heartbeat slot with both beats clears the counts, the
third empty one on both paths loses a STANDBY controller; the token moves only when the holder has not refreshed it.
Fail-over, take-back and the absence of both controllers (R517 to R519): the controller that took the token is ACTIVE
and the failure is recorded; CA takes the token back after 10 s as a STANDBY at a quiet point; with no holder for 100
ms CAR_ALIVE is low and L_eff is no more than the brake floor. The choices that it rests on are the model's: log entry
49. -/
def Obligations.ControlToken : Prop :=
  ((∀ (s : State) (c : Nat), c < 2 → ctrlState s c = 1 → s.carillon.powered = true →
     (s.carillon.token.isSome = true → Completes (.controllerSelftestDone c true) s (fun t =>
       ctrlState t c = 2 ∧ t.carillon.token = s.carillon.token ∧ ctrlState t (1 - c) = ctrlState s (1 - c) ∧
       t.regs = s.regs ∧ t.mem = s.mem)) ∧
     (s.carillon.token = none → (c = 0 ∨ 10000 ≤ s.us) → Completes (.controllerSelftestDone c true) s (fun t =>
       ctrlState t c = 3 ∧ t.carillon.token = some c ∧ t.carillon.alive = true ∧
       ctrlState t (1 - c) = ctrlState s (1 - c) ∧ t.regs = s.regs ∧ t.mem = s.mem)) ∧
     (s.carillon.token = none → c = 1 → s.us < 10000 → exec (.controllerSelftestDone c true) s = .next s) ∧
     Completes (.controllerSelftestDone c false) s (fun t =>
       (ctrlState t c = 1 ∨ ctrlState t c = 4) ∧ ctrlState t (1 - c) = ctrlState s (1 - c) ∧ t.mem = s.mem)) ∧
   (∀ (s : State) (c : Nat) (pass a b : Bool),
     (2 ≤ c ∨ ctrlState s c ≠ 1 ∨ s.carillon.powered = false → exec (.controllerSelftestDone c pass) s = .next s) ∧
     (2 ≤ c ∨ ctrlState s c ≠ 2 ∧ ctrlState s c ≠ 3 → exec (.heartbeatSlot c a b) s = .next s) ∧
     (c < 2 → ctrlState s c = 2 ∨ ctrlState s c = 3 → missedOn s c 0 < 2 → missedOn s c 1 < 2 →
       Completes (.heartbeatSlot c a b) s (fun t =>
         missedOn t c 0 = (if a then 0 else missedOn s c 0 + 1) ∧ missedOn t c 1 = (if b then 0 else missedOn s c 1 + 1) ∧
         ctrlState t c = ctrlState s c ∧ t.regs = s.regs ∧ t.mem = s.mem)) ∧
     (s.carillon.token = none ∨ 2 ≤ c ∨ s.carillon.token = some c ∨ ctrlState s c ≠ 2 →
       exec (.tokenRequest c a) s = .next s)) ∧
   (∀ (s : State) (c : Nat), c < 2 → (ctrlState s c = 2 ∨ ctrlState s c = 3) →
     Completes (.heartbeatSlot c true true) s (fun t =>
       missedOn t c 0 = 0 ∧ missedOn t c 1 = 0 ∧ ctrlState t c = ctrlState s c ∧ t.regs = s.regs ∧ t.mem = s.mem) ∧
     (ctrlState s c = 2 → 2 ≤ missedOn s c 0 → 2 ≤ missedOn s c 1 →
       Completes (.heartbeatSlot c false false) s (fun t =>
         wbit (rget t .car 0 0x20) eCarStandbyLost.bit = true ∧ (ctrlState t c = 1 ∨ ctrlState t c = 4) ∧
         ctrlState t (1 - c) = ctrlState s (1 - c) ∧ t.mem = s.mem)) ∧
     (2 ≤ missedOn s c 0 → mgetD s.carillon.pathFault 0 false = false →
       Completes (.heartbeatSlot c false true) s (fun t =>
         wbit (rget t .car 0 0x20) eCarPathFault.bit = true ∧ mgetD t.carillon.pathFault 0 false = true ∧
         ctrlState t 0 = ctrlState s 0 ∧ ctrlState t 1 = ctrlState s 1 ∧ t.mem = s.mem)) ∧
     (2 ≤ missedOn s c 1 → mgetD s.carillon.pathFault 1 false = false →
       Completes (.heartbeatSlot c true false) s (fun t =>
         wbit (rget t .car 0 0x20) eCarPathFault.bit = true ∧ mgetD t.carillon.pathFault 1 false = true ∧
         ctrlState t 0 = ctrlState s 0 ∧ ctrlState t 1 = ctrlState s 1 ∧ t.mem = s.mem))) ∧
   (∀ (s : State) (c h : Nat), c < 2 → s.carillon.token = some h → h ≠ c → h < 2 → ctrlState s c = 2 →
     Completes (.tokenRequest c false) s (fun t =>
       t.carillon.token = some c ∧ ctrlState t h = 0 ∧ t.carillon.alive = false ∧ t.carillon.sessions = [] ∧
       t.regs = s.regs ∧ t.mem = s.mem) ∧
     (missedOn s h 0 < 3 ∨ missedOn s h 1 < 3 → exec (.tokenRequest c true) s = .next s) ∧
     (3 ≤ missedOn s h 0 → 3 ≤ missedOn s h 1 → Completes (.tokenRequest c true) s (fun t =>
       t.carillon.token = some h ∧ mgetD t.carillon.pathFault 0 false = true ∧
       mgetD t.carillon.pathFault 1 false = true ∧ t.mem = s.mem)))) ∧
  ((∀ (s : State) (c : Nat), s.carillon.token = some c → c < 2 → ctrlState s c = 2 →
     Completes .failover s (fun t =>
       ctrlState t c = 3 ∧ t.carillon.token = some c ∧ t.carillon.alive = true ∧
       (ctrlState t (1 - c) = 1 ∨ ctrlState t (1 - c) = 4) ∧
       wbit (rget t .car 0 0x20) eCarFailover.bit = true ∧ t.fw.staging = none ∧ Out.mgmt c "IBI" [] ∈ t.out ∧
       t.mem = s.mem)) ∧
   (∀ s : State, (∀ c, s.carillon.token = some c → ctrlState s c ≠ 2) → exec .failover s = .next s) ∧
   (∀ s : State, s.carillon.token ≠ some 1 ∨ s.carillon.ca ≠ 2 ∨ s.carillon.cb ≠ 3 ∨ s.carillon.standbyUs = none ∨
     (∃ x, s.carillon.standbyUs = some x ∧ s.us < x + 10000000) ∨ quiet s = false ∨
     s.carillon.pathFault.any (fun e => e.2) = true → exec .takeback s = .next s) ∧
   (∀ s : State, s.carillon.powered = false → exec .bothDownTimeout s = .next s) ∧
   (∀ (s : State) (since : Nat), s.carillon.token = some 1 → s.carillon.ca = 2 → s.carillon.cb = 3 →
     s.carillon.standbyUs = some since → since + 10000000 ≤ s.us → quiet s = true →
     s.carillon.pathFault.any (fun e => e.2) = false →
     Completes .takeback s (fun t =>
       t.carillon.token = some 0 ∧ t.carillon.ca = 3 ∧ t.carillon.cb = 2 ∧
       wbit (rget t .car 0 0x20) eCarTakeback.bit = true ∧ t.mem = s.mem)) ∧
   (∀ s : State, s.carillon.powered = true →
     Completes .bothDownTimeout s (fun t =>
       t.carillon.token = none ∧ t.carillon.alive = false ∧ t.carillon.bothDown = true ∧
       t.power.lEff ≤ s.power.floorW ∧ t.regs = s.regs ∧ t.mem = s.mem)))

/-- A STANDBY controller answers every PLDM request with ERROR_NOT_READY, 0x04, and does nothing else (R521). -/
def Obligations.StandbyNotReady : Prop :=
  ∀ (s : State) (bus : Nat), bus < 2 → ctrlState s bus = 2 →
    (∀ (c : Instr) (what : String), (c, what) ∈
      [(Instr.pldmGetTid bus, "GetTID"), (.pldmGetPldmTypes bus, "GetPLDMTypes"), (.pldmGetStatus bus, "GetStatus"),
       (.pldmCancelUpdate bus, "CancelUpdate"), (.pldmActivateFirmware bus, "ActivateFirmware"),
       (.pldmRequestUpdate bus, "RequestUpdate"), (.pldmGetPdrRepositoryInfo bus, "GetPDRRepositoryInfo"),
       (.effecterChipReset bus, "EFFECTER_RESET")] →
      exec c s = .next (reply s bus what 4 [])) ∧
    (∀ n : Nat, ∀ (c : Instr) (what : String), (c, what) ∈
      [(Instr.pldmSetTid bus n, "SetTID"), (.pldmGetPldmVersion bus n, "GetPLDMVersion"),
       (.pldmGetPldmCommands bus n, "GetPLDMCommands"), (.pldmSetEventReceiver bus n, "SetEventReceiver"),
       (.pldmGetSensorReading bus n, "GetSensorReading"), (.pldmGetStateSensorReadings bus n, "GetStateSensorReadings"),
       (.pldmGetPdr bus n, "GetPDR"), (.effecterPowerState bus n, "EFFECTER_POWER"),
       (.pldmUpdateComponent bus n, "UpdateComponent")] →
      exec c s = .next (reply s bus what 4 [])) ∧
    (∀ ack : Option Nat, exec (.pldmPollForEvent bus ack) s = .next (reply s bus "PollForPlatformEventMessage" 4 [])) ∧
    (∀ ok : Bool, exec (.effecterConfirm bus ok) s = .next (reply s bus "EFFECTER_CONFIRM" 4 [])) ∧
    (∀ cls id : Nat, exec (.pldmPassComponentTable bus cls id) s = .next (reply s bus "PassComponentTable" 4 []))

/-- PLDM on the ACTIVE controller's bus (R520, R522, R526): identity, versions, sensors, the PDR repository, events and
the effecters. The firmware update (R414, R415, R520): request, component table, component, data and activation follow
each other, and each out of its place is refused; the transfer lands in the inactive slot; nothing is activated before
the next S0. The choices that it rests on are the model's: log entries 22 and 50. -/
def Obligations.Pldm : Prop :=
  (∀ (s : State) (bus : Nat), bus < 2 → ctrlState s bus = 3 →
     exec (.pldmGetTid bus) s = .next (reply s bus "GetTID" 0 (leBytes s.carillon.tid 1)) ∧
     (∀ tid : Nat, 0 < tid → tid < 255 → Completes (.pldmSetTid bus tid) s (fun t =>
       t.carillon.tid = tid ∧ t.regs = s.regs ∧ t.mem = s.mem)) ∧
     (∀ tid : Nat, tid = 0 ∨ 255 ≤ tid → exec (.pldmSetTid bus tid) s = .next (reply s bus "SetTID" 2 [])) ∧
     (∀ type v : Nat, (type, v) ∈ [(0, 0xF1F1FF00), (2, 0xF1F2FF00), (5, 0xF1F1FF00)] →
       exec (.pldmGetPldmVersion bus type) s = .next (reply s bus "GetPLDMVersion" 0 (leBytes v 4))) ∧
     (∀ type : Nat, type ∉ [0, 2, 5] →
       exec (.pldmGetPldmVersion bus type) s = .next (reply s bus "GetPLDMVersion" 0x83 []) ∧
       exec (.pldmGetPldmCommands bus type) s = .next (reply s bus "GetPLDMCommands" 0x83 [])) ∧
     exec (.pldmGetPldmTypes bus) s = .next (reply s bus "GetPLDMTypes" 0 (leBytes 0x25 8)) ∧
     (∀ (type m : Nat), pldmCommands type = some m →
       exec (.pldmGetPldmCommands bus type) s = .next (reply s bus "GetPLDMCommands" 0 (leBytes m 32))) ∧
     (∀ eid : Nat, Completes (.pldmSetEventReceiver bus eid) s (fun t =>
       mget t.carillon.receiver bus = some eid ∧ t.carillon.sentUs = none ∧ t.evq = s.evq ∧ t.regs = s.regs ∧
       t.mem = s.mem)) ∧
     (∀ (e : Event) (rest : List Event), s.evq = e :: rest →
       Completes (.pldmPollForEvent bus (some e.id)) s (fun t => t.evq = rest ∧ t.regs = s.regs ∧ t.mem = s.mem) ∧
       (∀ ack : Option Nat, ack ≠ some e.id → Completes (.pldmPollForEvent bus ack) s (fun t =>
         Sent t (.mgmt bus "PollForPlatformEventMessage" (leBytes 0 1 ++ eventBytes e)) ∧ t.evq = s.evq ∧
         t.regs = s.regs ∧ t.mem = s.mem))) ∧
     (s.evq = [] → ∀ ack : Option Nat, Completes (.pldmPollForEvent bus ack) s (fun t =>
       Sent t (.mgmt bus "PollForPlatformEventMessage" (leBytes 0 1)) ∧ t.evq = [] ∧ t.regs = s.regs ∧ t.mem = s.mem)) ∧
     (∀ vin vaux : Nat, Completes (.telemetrySample vin vaux) s (fun t =>
       t.carillon.samples = mputs s.carillon.samples
         ((sensorNow (rset s .pwr 0 0x120 (packFields [(0, min 4095 vin), (16, min 4095 vaux)]))).map
           (fun e => (e.1, e.2, s.us))) ∧ t.mem = s.mem)) ∧
     (∀ id v us : Nat, mget s.carillon.samples id = some (v, us) →
       (numericId id = true →
         exec (.pldmGetSensorReading bus id) s =
           .next (reply s bus "GetSensorReading" 0 (leBytes 0 1 ++ leBytes v 4))) ∧
       (stateId id = true →
         exec (.pldmGetStateSensorReadings bus id) s =
           .next (reply s bus "GetStateSensorReadings" 0 (leBytes 0 1 ++ leBytes v 4)))) ∧
     (∀ id : Nat,
       (numericId id = true → mget s.carillon.samples id = none → exec (.pldmGetSensorReading bus id) s =
         .next (reply s bus "GetSensorReading" 0 (leBytes 2 1))) ∧
       (stateId id = true → mget s.carillon.samples id = none → exec (.pldmGetStateSensorReadings bus id) s =
         .next (reply s bus "GetStateSensorReadings" 0 (leBytes 2 1))) ∧
       (numericId id = false →
         exec (.pldmGetSensorReading bus id) s = .next (reply s bus "GetSensorReading" 0x80 [])) ∧
       (stateId id = false →
         exec (.pldmGetStateSensorReadings bus id) s = .next (reply s bus "GetStateSensorReadings" 0x80 []))) ∧
     (∀ h i : Nat, pdrIds[max 1 h - 1]? = some i → exec (.pldmGetPdr bus h) s = .next (reply s bus "GetPDR" 0
       (leBytes (if max 1 h < pdrIds.length then max 1 h + 1 else 0) 4 ++ leBytes (pdrKind i) 1 ++ leBytes i 2))) ∧
     (∀ h : Nat, pdrIds.length < h → exec (.pldmGetPdr bus h) s = .next (reply s bus "GetPDR" 0x82 [])) ∧
     exec (.pldmGetPdrRepositoryInfo bus) s =
       .next (reply s bus "GetPDRRepositoryInfo" 0 (leBytes 0 1 ++ leBytes pdrIds.length 4)) ∧
     (s.power.moving = none →
       exec (.effecterPowerState bus 0) s = .next (reply (enterA0 s true) bus "EFFECTER_POWER" 0 []) ∧
       exec (.effecterPowerState bus 2) s = .next (reply (enterA2 s 2) bus "EFFECTER_POWER" 0 []) ∧
       exec (.effecterPowerState bus 3) s = .next (reply (enterA2 s 3) bus "EFFECTER_POWER" 0 [])) ∧
     (∀ target : Nat,
       (target = 0 ∨ target = 2 ∨ target = 3 → s.power.moving ≠ none →
         exec (.effecterPowerState bus target) s = .next (reply s bus "EFFECTER_POWER" 0 [])) ∧
       (target ∉ [0, 2, 3] → exec (.effecterPowerState bus target) s = .next (reply s bus "EFFECTER_POWER" 0x81 []))) ∧
     Completes (.effecterChipReset bus) s (fun t =>
       t.reqChip.isSome = true ∧ wbit (rget t .pce 0 0x114) 8 = true ∧ t.mem = s.mem) ∧
     (∀ ok : Bool, exec (.effecterConfirm bus ok) s = .next (reply (fwConfirm s ok) bus "EFFECTER_CONFIRM" 0 []))) ∧
  (∀ (s : State) (bus : Nat), bus < 2 → ctrlState s bus = 3 →
     (let trial := brState s.fw.bootRec s.fw.bootRec.active = 3 ∨ s.fw.staging ≠ none
      (trial → exec (.pldmRequestUpdate bus) s = .next (reply (fwResult s 4) bus "RequestUpdate" 0x8A [])) ∧
      (¬ trial → s.carillon.upd ≠ 0 → exec (.pldmRequestUpdate bus) s = .next (reply s bus "RequestUpdate" 0x81 [])) ∧
      (¬ trial → s.carillon.upd = 0 → Completes (.pldmRequestUpdate bus) s (fun t =>
        t.carillon.upd = 1 ∧ t.fw = s.fw ∧ t.regs = s.regs ∧ t.mem = s.mem)) ∧
      (∀ size : Nat, s.carillon.upd = 2 →
        (size ≤ 0x1000000 → ¬ trial → Completes (.pldmUpdateComponent bus size) s (fun t =>
          t.carillon.upd = 3 ∧ t.fw.staging = some ⟨1 - s.fw.bootRec.active, size, []⟩ ∧
          t.fw.bootRec.pending = 0xFF ∧ Sent t (.mgmt bus "RequestFirmwareData" [0, 0, 0, 0]) ∧ t.regs = s.regs ∧
          t.mem = s.mem)) ∧
        (0x1000000 < size ∨ trial → exec (.pldmUpdateComponent bus size) s =
          .next (reply (fwResult s 4) bus "UpdateComponent" 0 (leBytes 1 1 ++ leBytes 1 1))))) ∧
     (∀ cls id : Nat,
       (s.carillon.upd = 1 →
         Completes (.pldmPassComponentTable bus 0x000A 0x4A04) s (fun t =>
           t.carillon.upd = 2 ∧ t.fw = s.fw ∧ t.regs = s.regs ∧ t.mem = s.mem) ∧
         (cls ≠ 0x000A ∨ id ≠ 0x4A04 → exec (.pldmPassComponentTable bus cls id) s =
           .next (reply s bus "PassComponentTable" 0 (leBytes 1 1 ++ leBytes 0x06 1)))) ∧
       (s.carillon.upd ≠ 1 →
         exec (.pldmPassComponentTable bus cls id) s = .next (reply s bus "PassComponentTable" 0x80 [])) ∧
       (s.carillon.upd ≠ 2 → exec (.pldmUpdateComponent bus id) s = .next (reply s bus "UpdateComponent" 0x80 [])) ∧
       (s.carillon.upd ≠ 4 → exec (.pldmActivateFirmware bus) s = .next (reply s bus "ActivateFirmware" 0x80 []))) ∧
     (∀ (data : List Byte) (k size : Nat) (got : List Byte), s.carillon.token = some bus → s.carillon.upd = 3 →
       data.length ≤ 1024 → s.fw.staging = some ⟨k, size, got⟩ →
       Completes (.firmwareDataReceived bus data) s (fun t =>
         t.fw.staging = some ⟨k, size, got ++ data.take (size - got.length)⟩ ∧
         (size ≤ got.length + data.length → got.length ≤ size → Sent t (.mgmt bus "TransferComplete" [0])) ∧
         (got.length + data.length < size →
           Sent t (.mgmt bus "RequestFirmwareData" (leBytes (got.length + data.length) 4))) ∧
         t.regs = s.regs ∧ t.mem = s.mem)) ∧
     (∀ data : List Byte, s.carillon.token ≠ some bus ∨ s.carillon.upd ≠ 3 ∨ 1024 < data.length →
       exec (.firmwareDataReceived bus data) s = .next s) ∧
     (s.carillon.upd = 4 →
       Completes (.pldmActivateFirmware bus) s (fun t =>
         t.carillon.upd = 0 ∧ t.fw = s.fw ∧ t.regs = s.regs ∧ t.mem = s.mem)) ∧
     exec (.pldmGetStatus bus) s = .next (reply s bus "GetStatus" 0 (leBytes s.carillon.upd 1)) ∧
     Completes (.pldmCancelUpdate bus) s (fun t => t.carillon.upd = 0 ∧ t.fw.staging = none ∧ t.mem = s.mem))

/-- The event queue (R526): the oldest record is sent to the named receiver and stays; the answer takes it from the queue;
after the third attempt without an answer the path is down and the queue holds. I3C and MCTP control on the bus of a
controller that is STANDBY or ACTIVE (R520, R521): the address and the endpoint are kept, the types are those of R520,
each request is answered, and one that the rule does not serve by its completion code; a controller in another state
answers no message. Vendor messages (R482, R521, R524, R528): a held dump is read from an offset; the tray record is
read, and a record that passes its check is written to the copy not in use, with SEQ one higher; every sensor is sent
with the time of its sample; a STANDBY controller answers BUSY. The choices that it rests on are the model's: log
entries 22 and 50. -/
def Obligations.ManagementMessages : Prop :=
  ((∀ s : State,
     (s.carillon.pathUp = false ∨ s.carillon.sentUs ≠ none ∨ s.carillon.token = none ∨ s.evq = [] →
       exec .eventSend s = .next s) ∧
     (s.carillon.sentUs = none → exec .eventAnswer s = .next s ∧ exec .eventRetryTimeout s = .next s)) ∧
   ∀ (s : State) (c : Nat) (e : Event) (rest : List Event), s.carillon.token = some c → s.evq = e :: rest →
     (s.carillon.pathUp = true → s.carillon.sentUs = none → Completes .eventSend s (fun t =>
       Sent t (.mgmt c "EVENT" (eventBytes e)) ∧ t.evq = s.evq ∧ t.carillon.attempts = s.carillon.attempts + 1 ∧
       t.carillon.sentUs = some s.us ∧ t.regs = s.regs ∧ t.mem = s.mem)) ∧
     (s.carillon.sentUs.isSome = true →
       Completes .eventAnswer s (fun t =>
         t.evq = rest ∧ t.carillon.sentUs = none ∧ t.carillon.attempts = 0 ∧ t.regs = s.regs ∧ t.mem = s.mem) ∧
       (3 ≤ s.carillon.attempts → Completes .eventRetryTimeout s (fun t =>
         t.carillon.pathUp = false ∧ t.evq = s.evq ∧ t.out = s.out ∧ t.regs = s.regs ∧ t.mem = s.mem)) ∧
       (s.carillon.attempts < 3 → Completes .eventRetryTimeout s (fun t =>
         Sent t (.mgmt c "EVENT" (eventBytes e)) ∧ t.evq = s.evq ∧
         t.carillon.attempts = s.carillon.attempts + 1 ∧ t.mem = s.mem)))) ∧
  ((∀ (s : State) (bus n m : Nat) (ok : Bool) (b : List Byte) (ack : Option Nat),
     2 ≤ bus ∨ ctrlState s bus ≠ 2 ∧ ctrlState s bus ≠ 3 →
     ∀ c ∈ [Instr.i3cEntdaa bus n, .mctpSetEndpointId bus n, .mctpGetEndpointId bus, .mctpGetVersionSupport bus n,
       .mctpGetMessageTypeSupport bus, .mctpGetVendorMessageSupport bus n, .carStatus bus, .pldmGetTid bus,
       .pldmSetTid bus n, .pldmGetPldmVersion bus n, .pldmGetPldmTypes bus, .pldmGetPldmCommands bus n,
       .pldmSetEventReceiver bus n, .pldmPollForEvent bus ack, .pldmGetSensorReading bus n,
       .pldmGetStateSensorReadings bus n, .pldmGetPdr bus n, .pldmGetPdrRepositoryInfo bus, .effecterPowerState bus n,
       .effecterChipReset bus, .effecterConfirm bus ok, .pldmRequestUpdate bus, .pldmPassComponentTable bus n m,
       .pldmUpdateComponent bus n, .pldmActivateFirmware bus, .pldmGetStatus bus, .pldmCancelUpdate bus,
       .mctpDumpRead bus n, .configRead bus, .configWrite bus b, .telemetry bus], exec c s = .next s) ∧
   ∀ (s : State) (bus : Nat), bus < 2 → (ctrlState s bus = 2 ∨ ctrlState s bus = 3) →
     (∀ addr : Nat, Completes (.i3cEntdaa bus addr) s (fun t =>
       mget t.carillon.addr bus = some (addr % 128) ∧ t.regs = s.regs ∧ t.mem = s.mem)) ∧
     (∀ eid : Nat,
       (0 < eid → eid < 255 → Completes (.mctpSetEndpointId bus eid) s (fun t =>
         mget t.carillon.eid bus = some eid ∧ t.regs = s.regs ∧ t.mem = s.mem)) ∧
       (eid = 0 ∨ 255 ≤ eid → exec (.mctpSetEndpointId bus eid) s = .next (reply s bus "SET_EID" 2 []))) ∧
     exec (.mctpGetEndpointId bus) s =
       .next (reply s bus "GET_EID" 0 (leBytes (mgetD s.carillon.eid bus 0) 1 ++ leBytes 0 2)) ∧
     (∀ type : Nat,
       (∀ v, (type, v) ∈ [(0xFF, 0xF1F3FF00), (0, 0xF1F3FF00), (5, 0xF1F0FF00), (6, 0xF1F1FF00)] →
         exec (.mctpGetVersionSupport bus type) s =
           .next (reply s bus "GET_VERSION" 0 (leBytes 1 1 ++ leBytes v 4))) ∧
       (type = 1 ∨ type = 0x7F → Completes (.mctpGetVersionSupport bus type) s (fun t =>
         (∃ v, Sent t (.mgmt bus "GET_VERSION" (leBytes 0 1 ++ (leBytes 1 1 ++ leBytes v 4)))) ∧ t.regs = s.regs ∧
         t.carillon = s.carillon ∧ t.mem = s.mem)) ∧
       (type ∉ [0xFF, 0, 5, 6, 1, 0x7F] →
         exec (.mctpGetVersionSupport bus type) s = .next (reply s bus "GET_VERSION" 0x80 []))) ∧
     exec (.mctpGetMessageTypeSupport bus) s = .next (reply s bus "GET_TYPES" 0 [4, 1, 5, 6, 0x7F]) ∧
     exec (.mctpGetVendorMessageSupport bus 0) s =
       .next (reply s bus "GET_VENDOR" 0 (leBytes 0xFF 1 ++ leBytes 1 1 ++ leBytes Config.ianaId 4 ++ leBytes 0 2)) ∧
     (∀ sel : Nat, sel ≠ 0 → exec (.mctpGetVendorMessageSupport bus sel) s = .next (reply s bus "GET_VENDOR" 2 [])) ∧
     exec (.carStatus bus) s =
       .next (reply s bus "STATUS" 0 (leBytes (ctrlWord s).toNat 4 ++ leBytes (bootStage s) 1 ++ leBytes s.us 8 ++
         slice s.carillon.cfg 0x20 3))) ∧
  ((∀ (s : State) (bus off : Nat) (data : List Byte), bus < 2 → ctrlState s bus = 2 →
     ∀ (c : Instr) (what : String), (c, what) ∈ [(Instr.mctpDumpRead bus off, "DUMP_READ"), (.configRead bus, "CONFIG_READ"),
       (.configWrite bus data, "CONFIG_WRITE"), (.telemetry bus, "TELEMETRY")] → exec c s = .next (reply s bus what 1 [])) ∧
   ∀ (s : State) (bus : Nat), bus < 2 → ctrlState s bus = 3 →
     (∀ off : Nat,
       (dumpHeld s = true → off < dumpSize s →
         exec (.mctpDumpRead bus off) s = .next (reply s bus "DUMP_READ" 0
           ((List.range (min 1024 (dumpSize s - off))).map (fun j => dumpByte s (off + j))))) ∧
       (dumpHeld s = true → dumpSize s ≤ off →
         exec (.mctpDumpRead bus off) s = .next (reply s bus "DUMP_READ" 3 [])) ∧
       (dumpHeld s = false → exec (.mctpDumpRead bus off) s = .next (reply s bus "DUMP_READ" 2 []))) ∧
     exec (.configRead bus) s = .next (reply s bus "CONFIG_READ" 0 s.carillon.cfg) ∧
     (∀ (data : List Byte), data.length = 256 → cfgOk data = true →
       (∀ (c : Nat) (old : List Byte), cfgPick s = some (c, old) →
         exec (.configWrite bus data) s = .next (reply
           (flashWrite (flashErase s (cfgBase (1 - c)) 0x1000) (cfgBase (1 - c)) (cfgNext s data)) bus "CONFIG_WRITE" 0 []) ∧
         leAt (cfgNext s data) 8 4 = (leAt old 8 4 + 1) % 2 ^ 32) ∧
       (cfgPick s = none →
         exec (.configWrite bus data) s = .next (reply
           (flashWrite (flashErase s (cfgBase 0) 0x1000) (cfgBase 0) (cfgNext s data)) bus "CONFIG_WRITE" 0 []) ∧
         leAt (cfgNext s data) 8 4 = 1)) ∧
     (∀ (data : List Byte), data.length ≠ 256 ∨ cfgOk data = false →
       exec (.configWrite bus data) s = .next (reply s bus "CONFIG_WRITE" 3 [])) ∧
     exec (.telemetry bus) s = .next (reply s bus "TELEMETRY" 0
       (s.carillon.samples.flatMap (fun e => leBytes e.1 2 ++ leBytes e.2.1 4 ++ leBytes e.2.2 8))))

/-- The fields of a packet fit the header's. -/
structure Sys2Proof.Machine.PktFits (p : Pkt) : Prop where
  b1 : p.hver < 2 ^ 8 ∧ p.type < 2 ^ 8 ∧ p.flags < 2 ^ 8 ∧ p.vc < 2 ^ 8 ∧ p.rstream < 2 ^ 8 ∧ p.opx < 2 ^ 8 ∧
    p.encSlot < 2 ^ 8 ∧ p.mcgroup < 2 ^ 8
  b2 : p.dstCoord < 2 ^ 16 ∧ p.dstEndpt < 2 ^ 16 ∧ p.srcCoord < 2 ^ 16 ∧ p.srcEndpt < 2 ^ 16 ∧ p.route < 2 ^ 16 ∧
    p.flow < 2 ^ 16 ∧ p.opid < 2 ^ 16 ∧ p.fseq < 2 ^ 16 ∧ p.rsig < 2 ^ 16
  b4 : p.srcEpoch < 2 ^ 32 ∧ p.dstEpoch < 2 ^ 32 ∧ p.offset < 2 ^ 32 ∧ p.key < 2 ^ 32
  b6 : p.addr < 2 ^ 48 ∧ p.nonce < 2 ^ 48
  b8 : p.operand < 2 ^ 64
  len : p.plen = p.payload.length ∧ p.payload.length < 2 ^ 16

/-- The header of R335 drops no bit of any field: the packet that the bytes of a packet spell is that packet. -/
def Obligations.PacketRoundTrip : Prop := ∀ p : Pkt, PktFits p → pktDecode (pktBytes p) = p
end

