-- ==== Sys2Proof/Laws/Map.lean ====
section
/-!
SUPPORT. What reading after writing gives in sparse maps and in memory, and that their operations keep the canonical
form.
-/
namespace Sys2Proof.Machine

variable {α : Type}

@[simp] theorem mget_nil (k : Nat) : mget ([] : NMap α) k = none := rfl

@[simp] theorem mgetD_nil (k : Nat) (d : α) : mgetD ([] : NMap α) k d = d := rfl

/-- A put is read back. -/
@[simp] theorem mget_mput_self (m : NMap α) (k : Nat) (v : α) : mget (mput m k v) k = some v := by
  induction m with
  | nil => simp [mput, mget]
  | cons e t ih =>
    obtain ⟨k', v'⟩ := e
    simp only [mput]
    split_ifs with h1 h2
    · simp [mget]
    · simp [mget]
    · simp [mget, Ne.symm h2, ih]

/-- A put leaves the other keys. -/
theorem mget_mput_ne (m : NMap α) {k j : Nat} (v : α) (h : j ≠ k) : mget (mput m k v) j = mget m j := by
  induction m with
  | nil => simp [mput, mget, Ne.symm h]
  | cons e t ih =>
    obtain ⟨k', v'⟩ := e
    simp only [mput]
    split_ifs with h1 h2
    · simp [mget, Ne.symm h]
    · subst h2; simp [mget, Ne.symm h]
    · simp [mget, ih]

theorem mget_mput (m : NMap α) (k j : Nat) (v : α) : mget (mput m k v) j = if j = k then some v else mget m j := by
  split_ifs with h
  · subst h; simp
  · exact mget_mput_ne m v h

@[simp] theorem mgetD_mput_self (m : NMap α) (k : Nat) (v d : α) : mgetD (mput m k v) k d = v := by simp [mgetD]

theorem mgetD_mput_ne (m : NMap α) {k j : Nat} (v d : α) (h : j ≠ k) : mgetD (mput m k v) j d = mgetD m j d := by
  simp [mgetD, mget_mput_ne m v h]

@[simp] theorem mgetD_mupd_self (m : NMap α) (k : Nat) (d : α) (f : α → α) :
    mgetD (mupd m k d f) k d = f (mgetD m k d) := by simp [mupd]

theorem mgetD_mupd_ne (m : NMap α) {k j : Nat} (d d' : α) (f : α → α) (h : j ≠ k) :
    mgetD (mupd m k d f) j d' = mgetD m j d' := by simp [mupd, mgetD_mput_ne m _ _ h]

@[simp] theorem mget_mupd_self (m : NMap α) (k : Nat) (d : α) (f : α → α) :
    mget (mupd m k d f) k = some (f (mgetD m k d)) := by simp [mupd]

theorem mget_mupd_ne (m : NMap α) {k j : Nat} (d : α) (f : α → α) (h : j ≠ k) :
    mget (mupd m k d f) j = mget m j := by simp [mupd, mget_mput_ne m _ h]

/-- Keys that rise, said of the head and the rest. -/
theorem keysRising_cons (a : Nat) (x : α) (t : NMap α) :
    keysRising ((a, x) :: t) = true ↔ (∀ e ∈ t, a < e.1) ∧ keysRising t = true := by
  induction t generalizing a x with
  | nil => simp [keysRising]
  | cons e u ih =>
    obtain ⟨b, y⟩ := e
    simp only [keysRising, Bool.and_eq_true, decide_eq_true_eq, List.mem_cons, forall_eq_or_imp]
    constructor
    · rintro ⟨h1, h2⟩
      have h3 := (ih b y).1 h2
      exact ⟨⟨h1, fun e he => lt_trans h1 (h3.1 e he)⟩, h2⟩
    · rintro ⟨⟨h1, _⟩, h2⟩
      exact ⟨h1, h2⟩

theorem mem_mput {m : NMap α} {k : Nat} {v : α} {e : Nat × α} (h : e ∈ mput m k v) : e = (k, v) ∨ e ∈ m := by
  induction m with
  | nil => simpa [mput] using h
  | cons e' t ih =>
    obtain ⟨k', v'⟩ := e'
    simp only [mput] at h
    split_ifs at h with h1 h2
    · simpa using h
    · rcases List.mem_cons.1 h with h | h
      · exact .inl h
      · exact .inr (List.mem_cons_of_mem _ h)
    · rcases List.mem_cons.1 h with h | h
      · exact .inr (by simp [h])
      · rcases ih h with h | h
        · exact .inl h
        · exact .inr (List.mem_cons_of_mem _ h)

/-- A put keeps the keys rising. -/
theorem keysRising_mput {m : NMap α} (k : Nat) (v : α) (h : keysRising m = true) : keysRising (mput m k v) = true := by
  induction m with
  | nil => simp [mput, keysRising]
  | cons e t ih =>
    obtain ⟨k', v'⟩ := e
    have hc := (keysRising_cons _ _ _).1 h
    simp only [mput]
    split_ifs with h1 h2
    · refine (keysRising_cons _ _ _).2 ⟨?_, h⟩
      intro e he
      rcases List.mem_cons.1 he with he | he
      · simp [he, h1]
      · exact lt_trans h1 (hc.1 e he)
    · subst h2
      exact (keysRising_cons _ _ _).2 hc
    · refine (keysRising_cons _ _ _).2 ⟨?_, ih hc.2⟩
      intro e he
      rcases mem_mput he with he | he
      · rw [he]; simp; omega
      · exact hc.1 e he

theorem mem_mdel {m : NMap α} {k : Nat} {e : Nat × α} (h : e ∈ mdel m k) : e ∈ m := by
  induction m with
  | nil => simp [mdel] at h
  | cons e' t ih =>
    obtain ⟨k', v'⟩ := e'
    simp only [mdel] at h
    split_ifs at h with h1
    · exact List.mem_cons_of_mem _ h
    · rcases List.mem_cons.1 h with h | h
      · simp [h]
      · exact List.mem_cons_of_mem _ (ih h)

/-- A removal keeps the keys rising. -/
theorem keysRising_mdel {m : NMap α} (k : Nat) (h : keysRising m = true) : keysRising (mdel m k) = true := by
  induction m with
  | nil => simp [mdel, keysRising]
  | cons e t ih =>
    obtain ⟨k', v'⟩ := e
    have hc := (keysRising_cons _ _ _).1 h
    simp only [mdel]
    split_ifs with h1
    · exact hc.2
    · exact (keysRising_cons _ _ _).2 ⟨fun e he => hc.1 e (mem_mdel he), ih hc.2⟩

/-- A selection keeps the keys rising. -/
theorem keysRising_filter {m : NMap α} (p : Nat × α → Bool) (h : keysRising m = true) :
    keysRising (m.filter p) = true := by
  induction m with
  | nil => simp [keysRising]
  | cons e t ih =>
    obtain ⟨k', v'⟩ := e
    have hc := (keysRising_cons _ _ _).1 h
    simp only [List.filter_cons]
    split_ifs
    · exact (keysRising_cons _ _ _).2 ⟨fun e he => hc.1 e (List.mem_of_mem_filter he), ih hc.2⟩
    · exact ih hc.2

/-- In a rising map a removed key is gone. -/
theorem mget_mdel_self {m : NMap α} (k : Nat) (h : keysRising m = true) : mget (mdel m k) k = none := by
  induction m with
  | nil => rfl
  | cons e t ih =>
    obtain ⟨k', v'⟩ := e
    have hc := (keysRising_cons _ _ _).1 h
    simp only [mdel]
    split_ifs with h1
    · subst h1
      have : ∀ u : NMap α, (∀ e ∈ u, k' < e.1) → mget u k' = none := by
        intro u hu
        induction u with
        | nil => rfl
        | cons f w ihw =>
          obtain ⟨a, b⟩ := f
          have := hu (a, b) (by simp)
          simp only [mget]
          rw [if_neg (by simp at this; omega)]
          exact ihw (fun e he => hu e (List.mem_cons_of_mem _ he))
      exact this t hc.1
    · simp [mget, h1, ih hc.2]

theorem mget_mdel_ne (m : NMap α) {k j : Nat} (h : j ≠ k) : mget (mdel m k) j = mget m j := by
  induction m with
  | nil => rfl
  | cons e t ih =>
    obtain ⟨k', v'⟩ := e
    simp only [mdel]
    split_ifs with h1
    · subst h1; simp [mget, Ne.symm h]
    · simp [mget, ih]

/-! ### Memory -/

/-- The canonical form, in words. -/
theorem Memory.wf_iff (m : Memory) : Memory.wf m = true ↔ keysRising m = true ∧ ∀ e ∈ m, e.2 ≠ 0 := by
  simp [Memory.wf]

/-- A byte store keeps the canonical form. -/
theorem Memory.wf_memPut {m : Memory} (a : Nat) (b : Byte) (h : Memory.wf m = true) : Memory.wf (memPut m a b) = true := by
  rw [Memory.wf_iff] at h ⊢
  unfold memPut
  split_ifs with hb
  · exact ⟨keysRising_mdel a h.1, fun e he => h.2 e (mem_mdel he)⟩
  · refine ⟨keysRising_mput a b h.1, fun e he => ?_⟩
    rcases mem_mput he with he | he
    · rw [he]; exact hb
    · exact h.2 e he

/-- A store keeps the canonical form. -/
theorem Memory.wf_memWrite {m : Memory} (a : Nat) (bs : List Byte) (h : Memory.wf m = true) :
    Memory.wf (memWrite m a bs) = true := by
  induction bs generalizing m a with
  | nil => exact h
  | cons b t ih => exact ih _ (Memory.wf_memPut a b h)

/-- Zeroing a range keeps the canonical form. -/
theorem Memory.wf_memZero {m : Memory} (a n : Nat) (h : Memory.wf m = true) : Memory.wf (memZero m a n) = true := by
  rw [Memory.wf_iff] at h ⊢
  exact ⟨keysRising_filter _ h.1, fun e he => h.2 e (List.mem_of_mem_filter he)⟩

/-- A byte stored is read back. -/
theorem memGet_memPut_self {m : Memory} (a : Nat) (b : Byte) (h : keysRising m = true) : memGet (memPut m a b) a = b := by
  unfold memGet memPut
  split_ifs with hb
  · simp [mgetD, mget_mdel_self a h, hb]
  · simp

/-- A byte store leaves every other byte. -/
theorem memGet_memPut_ne (m : Memory) {a c : Nat} (b : Byte) (h : c ≠ a) : memGet (memPut m a b) c = memGet m c := by
  unfold memGet memPut
  split_ifs with hb
  · simp [mgetD, mget_mdel_ne m h]
  · exact mgetD_mput_ne m b _ h

/-- A store leaves every byte outside its range. -/
theorem memGet_memWrite_out (m : Memory) (a c : Nat) (bs : List Byte) (h : c < a ∨ a + bs.length ≤ c) :
    memGet (memWrite m a bs) c = memGet m c := by
  induction bs generalizing m a with
  | nil => rfl
  | cons b t ih =>
    simp only [List.length_cons] at h
    have hne : c ≠ a := by omega
    simp only [memWrite]
    rw [ih _ _ (by omega), memGet_memPut_ne m b hne]

/-- What was stored is read back. -/
theorem memRead_memWrite {m : Memory} (a : Nat) (bs : List Byte) (h : Memory.wf m = true) :
    memRead (memWrite m a bs) a bs.length = bs := by
  induction bs generalizing m a with
  | nil => rfl
  | cons b t ih =>
    simp only [memWrite, List.length_cons, memRead]
    have hw := Memory.wf_memPut a b h
    rw [ih _ hw, memGet_memWrite_out _ _ _ _ (by omega), memGet_memPut_self a b ((Memory.wf_iff m).1 h).1]

/-- A zeroed range leaves every byte outside it. -/
theorem memGet_memZero_out (m : Memory) (a n c : Nat) (h : c < a ∨ a + n ≤ c) : memGet (memZero m a n) c = memGet m c := by
  unfold memGet memZero mgetD
  congr 1
  induction m with
  | nil => rfl
  | cons e t ih =>
    obtain ⟨k, v⟩ := e
    simp only [List.filter_cons]
    split_ifs with h1
    · simp [mget, ih]
    · simp only [mget]
      rw [if_neg, ih]
      simp at h1
      omega

end Sys2Proof.Machine
end

