-- ==== Sys2Proof/Laws/Bist.lean ====
section
/-!
SUPPORT. The periodic slices of the test engine (R393): where an instance goes on after a slice, and what a slice takes.
-/
namespace Sys2Proof.Machine

/-- After a slice an instance goes on with what is left of the region, else with the next region, else with the first. -/
theorem bistNext_place (s : State) (b : BistSlice) :
    mgetD (bistNext s b).bist.next (131072 * b.cls + b.inst) 0 =
      (if b.part + b.len < 16 then b.region else if b.region + 1 < bistRegions b.cls then b.region + 1 else 0) ∧
    mgetD (bistNext s b).bist.part (131072 * b.cls + b.inst) 0 = (if b.part + b.len < 16 then b.part + b.len else 0) := by
  unfold bistNext; dsimp only; split_ifs <;> simp

/-- A scheduled slice that begins has the length that the clock allows. -/
theorem sliceBegin_mem {s : State} {c i : Nat} {b : BistSlice} (h : sliceOf s c i 0 = some b) (p : Nat) :
    { b with len := min b.len (sliceSpan s c i), phase := p } ∈ (sliceBegin s c i p).bist.slices := by
  have hp := List.find?_some h
  simp only [Bool.and_eq_true, decide_eq_true_eq] at hp
  exact List.mem_map.2 ⟨b, List.mem_of_find?_eq_some h, by simp [hp.1.1, hp.1.2, sliceCut]⟩

end Sys2Proof.Machine
end

