-- ==== Sys2Proof/Laws/Bytes.lean ====
section
/-!
SUPPORT. Bounds of the CRCs, and numbers laid down in bytes and read back.
-/
namespace Sys2Proof.Machine

/-- A CRC-32 step stays below 2³². -/
theorem crcByte_lt (p c : Nat) (b : Byte) (hp : p < 2 ^ 32) (hc : c < 2 ^ 32) : crcByte p c b < 2 ^ 32 := by
  have bitlt (d : Nat) (hd : d < 2 ^ 32) : crcBit p d < 2 ^ 32 := by
    unfold crcBit; split
    · exact Nat.xor_lt_two_pow (by omega) hp
    · omega
  have fold (l : List Nat) : ∀ d, d < 2 ^ 32 → l.foldl (fun c _ => crcBit p c) d < 2 ^ 32 := by
    induction l with
    | nil => exact fun d h => h
    | cons x l ih => exact fun d h => ih _ (bitlt d h)
  exact fold _ _ (Nat.xor_lt_two_pow hc (by have := b.isLt; omega))

/-- CRC-32C is a 32-bit value. -/
theorem crc32c_lt (l : List Byte) : crc32c l < 2 ^ 32 := by
  have fold : ∀ d, d < 2 ^ 32 → l.foldl (crcByte 0x82F63B78) d < 2 ^ 32 := by
    induction l with
    | nil => exact fun d h => h
    | cons x l ih => exact fun d h => ih _ (crcByte_lt _ d x (by decide) h)
  exact Nat.xor_lt_two_pow (fold _ (by decide)) (by decide)

/-- CRC-64 is a 64-bit value. -/
theorem crc64_lt (l : List Byte) : crc64 l < 2 ^ 64 := by
  have step (c : Nat) (b : Byte) (hc : c < 2 ^ 64) : crc64Byte c b < 2 ^ 64 := by
    have fold (r : List Nat) : ∀ d, d < 2 ^ 64 → r.foldl (fun c _ =>
        let d := (c * 2) % 2 ^ 64
        if bit c 63 then d ^^^ 0x42F0E1EBA9EA3693 else d) d < 2 ^ 64 := by
      induction r with
      | nil => exact fun d h => h
      | cons x r ih =>
        refine fun d h => ih _ ?_
        show (if bit d 63 then (d * 2) % 2 ^ 64 ^^^ 0x42F0E1EBA9EA3693 else (d * 2) % 2 ^ 64) < 2 ^ 64
        split
        · exact Nat.xor_lt_two_pow (Nat.mod_lt _ (by decide)) (by decide)
        · exact Nat.mod_lt _ (by decide)
    refine fold _ _ (Nat.xor_lt_two_pow hc ?_)
    have := b.isLt
    rw [Nat.shiftLeft_eq]; omega
  have fold : ∀ d, d < 2 ^ 64 → l.foldl crc64Byte d < 2 ^ 64 := by
    induction l with
    | nil => exact fun d h => h
    | cons x l ih => exact fun d h => ih _ (step d x h)
  exact Nat.xor_lt_two_pow (fold _ (by decide)) (by decide)

/-- The bytes of a number that fits spell it. -/
theorem leNat_leBytes (k : Nat) : ∀ x, x < 256 ^ k → leNat (leBytes x k) = x := by
  induction k with
  | zero => intro x h; simp at h; subst h; rfl
  | succ k ih =>
    intro x h
    show _ = x
    rw [show leBytes x (k + 1) = BitVec.ofNat 8 x :: leBytes (x / 256) k from by rw [leBytes, Nat.shiftRight_eq_div_pow]]
    show (BitVec.ofNat 8 x).toNat + 256 * leNat (leBytes (x / 256) k) = x
    rw [ih _ (by rw [Nat.pow_succ] at h; omega), BitVec.toNat_ofNat]; omega

/-- The number that bytes spell, laid down again. -/
theorem leBytes_leNat (l : List Byte) : leBytes (leNat l) l.length = l := by
  induction l with
  | nil => rfl
  | cons b l ih =>
    have hb := b.isLt
    simp [leNat, leBytes]
    constructor
    · apply BitVec.eq_of_toNat_eq; simp; omega
    · have : (b.toNat + 256 * leNat l) / 256 = leNat l := by omega
      rw [Nat.shiftRight_eq_div_pow, show (2 : Nat) ^ 8 = 256 from rfl, this, ih]

@[simp] theorem leBytes_length (k : Nat) : ∀ n, (leBytes n k).length = k := by
  induction k with
  | zero => intro n; rfl
  | succ k ih => intro n; rw [leBytes, List.length_cons, ih]

@[simp] theorem slice_length (bs : List Byte) (a k : Nat) : (slice bs a k).length = k := by
  simp only [slice, List.length_append, List.length_replicate, List.length_take, List.length_drop]; omega

/-- The number that bytes spell fits them. -/
theorem leNat_lt (l : List Byte) : leNat l < 256 ^ l.length := by
  induction l with
  | nil => simp [leNat]
  | cons b l ih =>
    have hb := b.isLt
    simp [leNat, Nat.pow_succ]
    omega

/-- A number laid down between bytes is read back. -/
theorem leAt_leBytes (h t : List Byte) (x k : Nat) (hx : x < 256 ^ k) : leAt (h ++ leBytes x k ++ t) h.length k = x := by
  have hlen : ∀ (k x : Nat), (leBytes x k).length = k := by
    intro k
    induction k with
    | zero => intro x; rfl
    | succ k ih => intro x; rw [leBytes, List.length_cons, ih]
  have hs : slice (h ++ leBytes x k ++ t) h.length k = leBytes x k := by
    have := hlen k x
    simp [slice, List.append_assoc, this]
  rw [leAt, hs, leNat_leBytes k x hx]

/-- The middle of a list of bytes is read whole. -/
theorem slice_mid (h z t : List Byte) : slice (h ++ z ++ t) h.length z.length = z := by
  simp [slice, List.append_assoc]

/-- The number that the middle of a list spells. -/
theorem leAt_mid (h z t : List Byte) : leAt (h ++ z ++ t) h.length z.length = leNat z := by
  rw [leAt, slice_mid]

end Sys2Proof.Machine
end

