-- ==== Sys2Proof/Laws/State.lean ====
section
/-!
SUPPORT. The fields of State after each elementary update: true by definition, so that no proof unfolds a record
update.
-/
namespace Sys2Proof.Machine

@[simp] theorem regSet_pending (s : State) (a : Nat) (v : Word) : (regSet s a v).pending = s.pending := rfl
@[simp] theorem regSet_out (s : State) (a : Nat) (v : Word) : (regSet s a v).out = s.out := rfl
@[simp] theorem regSet_net (s : State) (a : Nat) (v : Word) : (regSet s a v).net = s.net := rfl
@[simp] theorem regSet_us (s : State) (a : Nat) (v : Word) : (regSet s a v).us = s.us := rfl
@[simp] theorem regSet_draws (s : State) (a : Nat) (v : Word) : (regSet s a v).draws = s.draws := rfl
@[simp] theorem regSet_mem (s : State) (a : Nat) (v : Word) : (regSet s a v).mem = s.mem := rfl
@[simp] theorem regSet_poison (s : State) (a : Nat) (v : Word) : (regSet s a v).poison = s.poison := rfl
@[simp] theorem regSet_split (s : State) (a : Nat) (v : Word) : (regSet s a v).split = s.split := rfl
@[simp] theorem regSet_cores (s : State) (a : Nat) (v : Word) : (regSet s a v).cores = s.cores := rfl
@[simp] theorem regSet_clusters (s : State) (a : Nat) (v : Word) : (regSet s a v).clusters = s.clusters := rfl
@[simp] theorem regSet_gong (s : State) (a : Nat) (v : Word) : (regSet s a v).gong = s.gong := rfl
@[simp] theorem regSet_host (s : State) (a : Nat) (v : Word) : (regSet s a v).host = s.host := rfl
@[simp] theorem regSet_reqPart (s : State) (a : Nat) (v : Word) : (regSet s a v).reqPart = s.reqPart := rfl
@[simp] theorem regSet_reqChip (s : State) (a : Nat) (v : Word) : (regSet s a v).reqChip = s.reqChip := rfl
@[simp] theorem regSet_partReset (s : State) (a : Nat) (v : Word) : (regSet s a v).partReset = s.partReset := rfl
@[simp] theorem regSet_chipReset (s : State) (a : Nat) (v : Word) : (regSet s a v).chipReset = s.chipReset := rfl
@[simp] theorem regSet_heldInts (s : State) (a : Nat) (v : Word) : (regSet s a v).heldInts = s.heldInts := rfl
@[simp] theorem regSet_evq (s : State) (a : Nat) (v : Word) : (regSet s a v).evq = s.evq := rfl
@[simp] theorem regSet_evCount (s : State) (a : Nat) (v : Word) : (regSet s a v).evCount = s.evCount := rfl
@[simp] theorem regSet_evOverflow (s : State) (a : Nat) (v : Word) : (regSet s a v).evOverflow = s.evOverflow := rfl
@[simp] theorem regSet_rowErrs (s : State) (a : Nat) (v : Word) : (regSet s a v).rowErrs = s.rowErrs := rfl
@[simp] theorem regSet_rowsPerm (s : State) (a : Nat) (v : Word) : (regSet s a v).rowsPerm = s.rowsPerm := rfl
@[simp] theorem regSet_rowPgs (s : State) (a : Nat) (v : Word) : (regSet s a v).rowPgs = s.rowPgs := rfl
@[simp] theorem regSet_pprQueue (s : State) (a : Nat) (v : Word) : (regSet s a v).pprQueue = s.pprQueue := rfl
@[simp] theorem regSet_pprUsed (s : State) (a : Nat) (v : Word) : (regSet s a v).pprUsed = s.pprUsed := rfl
@[simp] theorem regSet_caFails (s : State) (a : Nat) (v : Word) : (regSet s a v).caFails = s.caFails := rfl
@[simp] theorem regSet_pcDead (s : State) (a : Nat) (v : Word) : (regSet s a v).pcDead = s.pcDead := rfl
@[simp] theorem regSet_stgErrs (s : State) (a : Nat) (v : Word) : (regSet s a v).stgErrs = s.stgErrs := rfl
@[simp] theorem regSet_stgSpares (s : State) (a : Nat) (v : Word) : (regSet s a v).stgSpares = s.stgSpares := rfl
@[simp] theorem regSet_stgRowsPerm (s : State) (a : Nat) (v : Word) : (regSet s a v).stgRowsPerm = s.stgRowsPerm := rfl
@[simp] theorem regSet_stgSubst (s : State) (a : Nat) (v : Word) : (regSet s a v).stgSubst = s.stgSubst := rfl
@[simp] theorem regSet_keysErased (s : State) (a : Nat) (v : Word) : (regSet s a v).keysErased = s.keysErased := rfl
@[simp] theorem regSet_pools (s : State) (a : Nat) (v : Word) : (regSet s a v).pools = s.pools := rfl
@[simp] theorem regSet_grants (s : State) (a : Nat) (v : Word) : (regSet s a v).grants = s.grants := rfl
@[simp] theorem regSet_grantReqs (s : State) (a : Nat) (v : Word) : (regSet s a v).grantReqs = s.grantReqs := rfl
@[simp] theorem regSet_poolAsked (s : State) (a : Nat) (v : Word) : (regSet s a v).poolAsked = s.poolAsked := rfl
@[simp] theorem regSet_fastCap (s : State) (a : Nat) (v : Word) : (regSet s a v).fastCap = s.fastCap := rfl
@[simp] theorem regSet_ports (s : State) (a : Nat) (v : Word) : (regSet s a v).ports = s.ports := rfl
@[simp] theorem regSet_fb (s : State) (a : Nat) (v : Word) : (regSet s a v).fb = s.fb := rfl
@[simp] theorem regSet_peers (s : State) (a : Nat) (v : Word) : (regSet s a v).peers = s.peers := rfl
@[simp] theorem regSet_roll (s : State) (a : Nat) (v : Word) : (regSet s a v).roll = s.roll := rfl
@[simp] theorem regSet_mgtIdx (s : State) (a : Nat) (v : Word) : (regSet s a v).mgtIdx = s.mgtIdx := rfl
@[simp] theorem regSet_mcCfg (s : State) (a : Nat) (v : Word) : (regSet s a v).mcCfg = s.mcCfg := rfl
@[simp] theorem regSet_mcCheck (s : State) (a : Nat) (v : Word) : (regSet s a v).mcCheck = s.mcCheck := rfl
@[simp] theorem regSet_mcMember (s : State) (a : Nat) (v : Word) : (regSet s a v).mcMember = s.mcMember := rfl
@[simp] theorem regSet_mcKey (s : State) (a : Nat) (v : Word) : (regSet s a v).mcKey = s.mcKey := rfl
@[simp] theorem regSet_mcFseq (s : State) (a : Nat) (v : Word) : (regSet s a v).mcFseq = s.mcFseq := rfl
@[simp] theorem regSet_mcSends (s : State) (a : Nat) (v : Word) : (regSet s a v).mcSends = s.mcSends := rfl
@[simp] theorem regSet_heldPkts (s : State) (a : Nat) (v : Word) : (regSet s a v).heldPkts = s.heldPkts := rfl
@[simp] theorem regSet_destRecs (s : State) (a : Nat) (v : Word) : (regSet s a v).destRecs = s.destRecs := rfl
@[simp] theorem regSet_epoch (s : State) (a : Nat) (v : Word) : (regSet s a v).epoch = s.epoch := rfl
@[simp] theorem regSet_prevEpoch (s : State) (a : Nat) (v : Word) : (regSet s a v).prevEpoch = s.prevEpoch := rfl
@[simp] theorem regSet_epochPeers (s : State) (a : Nat) (v : Word) : (regSet s a v).epochPeers = s.epochPeers := rfl
@[simp] theorem regSet_nonce (s : State) (a : Nat) (v : Word) : (regSet s a v).nonce = s.nonce := rfl
@[simp] theorem regSet_fabKeys (s : State) (a : Nat) (v : Word) : (regSet s a v).fabKeys = s.fabKeys := rfl
@[simp] theorem regSet_resid (s : State) (a : Nat) (v : Word) : (regSet s a v).resid = s.resid := rfl
@[simp] theorem regSet_ctxResets (s : State) (a : Nat) (v : Word) : (regSet s a v).ctxResets = s.ctxResets := rfl
@[simp] theorem regSet_fuses (s : State) (a : Nat) (v : Word) : (regSet s a v).fuses = s.fuses := rfl
@[simp] theorem regSet_fw (s : State) (a : Nat) (v : Word) : (regSet s a v).fw = s.fw := rfl
@[simp] theorem regSet_carillon (s : State) (a : Nat) (v : Word) : (regSet s a v).carillon = s.carillon := rfl
@[simp] theorem regSet_sec (s : State) (a : Nat) (v : Word) : (regSet s a v).sec = s.sec := rfl
@[simp] theorem regSet_power (s : State) (a : Nat) (v : Word) : (regSet s a v).power = s.power := rfl
@[simp] theorem regSet_thermal (s : State) (a : Nat) (v : Word) : (regSet s a v).thermal = s.thermal := rfl
@[simp] theorem regSet_islands (s : State) (a : Nat) (v : Word) : (regSet s a v).islands = s.islands := rfl
@[simp] theorem regSet_bist (s : State) (a : Nat) (v : Word) : (regSet s a v).bist = s.bist := rfl
@[simp] theorem regSet_pealCores (s : State) (a : Nat) (v : Word) : (regSet s a v).pealCores = s.pealCores := rfl
@[simp] theorem regSet_pealBad (s : State) (a : Nat) (v : Word) : (regSet s a v).pealBad = s.pealBad := rfl
@[simp] theorem regSet_setOps (s : State) (a : Nat) (v : Word) : (regSet s a v).setOps = s.setOps := rfl
@[simp] theorem regSet_dump (s : State) (a : Nat) (v : Word) : (regSet s a v).dump = s.dump := rfl
@[simp] theorem regSet_engines (s : State) (a : Nat) (v : Word) : (regSet s a v).engines = s.engines := rfl
@[simp] theorem regSet_retPorts (s : State) (a : Nat) (v : Word) : (regSet s a v).retPorts = s.retPorts := rfl
@[simp] theorem regSet_s6Us (s : State) (a : Nat) (v : Word) : (regSet s a v).s6Us = s.s6Us := rfl
@[simp] theorem regSet_fieldCores (s : State) (a : Nat) (v : Word) : (regSet s a v).fieldCores = s.fieldCores := rfl
@[simp] theorem regSet_fieldSlices (s : State) (a : Nat) (v : Word) : (regSet s a v).fieldSlices = s.fieldSlices := rfl
@[simp] theorem regSet_fieldDirty (s : State) (a : Nat) (v : Word) : (regSet s a v).fieldDirty = s.fieldDirty := rfl
@[simp] theorem regSet_retention (s : State) (a : Nat) (v : Word) : (regSet s a v).retention = s.retention := rfl
@[simp] theorem regSet_retEvents (s : State) (a : Nat) (v : Word) : (regSet s a v).retEvents = s.retEvents := rfl
@[simp] theorem regSet_bootRetried (s : State) (a : Nat) (v : Word) : (regSet s a v).bootRetried = s.bootRetried := rfl
@[simp] theorem regSet_chipAtS2 (s : State) (a : Nat) (v : Word) : (regSet s a v).chipAtS2 = s.chipAtS2 := rfl
@[simp] theorem regSet_flr (s : State) (a : Nat) (v : Word) : (regSet s a v).flr = s.flr := rfl
@[simp] theorem regSet_timeHi (s : State) (a : Nat) (v : Word) : (regSet s a v).timeHi = s.timeHi := rfl
@[simp] theorem regSet_brgOut (s : State) (a : Nat) (v : Word) : (regSet s a v).brgOut = s.brgOut := rfl
@[simp] theorem regSet_brgRestrict (s : State) (a : Nat) (v : Word) : (regSet s a v).brgRestrict = s.brgRestrict := rfl
@[simp] theorem regSet_brgReplays (s : State) (a : Nat) (v : Word) : (regSet s a v).brgReplays = s.brgReplays := rfl
@[simp] theorem regSet_scrub (s : State) (a : Nat) (v : Word) : (regSet s a v).scrub = s.scrub := rfl
@[simp] theorem regSet_zeroAt (s : State) (a : Nat) (v : Word) : (regSet s a v).zeroAt = s.zeroAt := rfl

@[simp] theorem rset_pending (s : State) (b : Block) (i off : Nat) (v : Word) : (rset s b i off v).pending = s.pending := rfl
@[simp] theorem rset_out (s : State) (b : Block) (i off : Nat) (v : Word) : (rset s b i off v).out = s.out := rfl
@[simp] theorem rset_net (s : State) (b : Block) (i off : Nat) (v : Word) : (rset s b i off v).net = s.net := rfl
@[simp] theorem rset_us (s : State) (b : Block) (i off : Nat) (v : Word) : (rset s b i off v).us = s.us := rfl
@[simp] theorem rset_draws (s : State) (b : Block) (i off : Nat) (v : Word) : (rset s b i off v).draws = s.draws := rfl
@[simp] theorem rset_mem (s : State) (b : Block) (i off : Nat) (v : Word) : (rset s b i off v).mem = s.mem := rfl
@[simp] theorem rset_poison (s : State) (b : Block) (i off : Nat) (v : Word) : (rset s b i off v).poison = s.poison := rfl
@[simp] theorem rset_split (s : State) (b : Block) (i off : Nat) (v : Word) : (rset s b i off v).split = s.split := rfl
@[simp] theorem rset_cores (s : State) (b : Block) (i off : Nat) (v : Word) : (rset s b i off v).cores = s.cores := rfl
@[simp] theorem rset_clusters (s : State) (b : Block) (i off : Nat) (v : Word) : (rset s b i off v).clusters = s.clusters := rfl
@[simp] theorem rset_gong (s : State) (b : Block) (i off : Nat) (v : Word) : (rset s b i off v).gong = s.gong := rfl
@[simp] theorem rset_host (s : State) (b : Block) (i off : Nat) (v : Word) : (rset s b i off v).host = s.host := rfl
@[simp] theorem rset_reqPart (s : State) (b : Block) (i off : Nat) (v : Word) : (rset s b i off v).reqPart = s.reqPart := rfl
@[simp] theorem rset_reqChip (s : State) (b : Block) (i off : Nat) (v : Word) : (rset s b i off v).reqChip = s.reqChip := rfl
@[simp] theorem rset_partReset (s : State) (b : Block) (i off : Nat) (v : Word) : (rset s b i off v).partReset = s.partReset := rfl
@[simp] theorem rset_chipReset (s : State) (b : Block) (i off : Nat) (v : Word) : (rset s b i off v).chipReset = s.chipReset := rfl
@[simp] theorem rset_heldInts (s : State) (b : Block) (i off : Nat) (v : Word) : (rset s b i off v).heldInts = s.heldInts := rfl
@[simp] theorem rset_evq (s : State) (b : Block) (i off : Nat) (v : Word) : (rset s b i off v).evq = s.evq := rfl
@[simp] theorem rset_evCount (s : State) (b : Block) (i off : Nat) (v : Word) : (rset s b i off v).evCount = s.evCount := rfl
@[simp] theorem rset_evOverflow (s : State) (b : Block) (i off : Nat) (v : Word) : (rset s b i off v).evOverflow = s.evOverflow := rfl
@[simp] theorem rset_rowErrs (s : State) (b : Block) (i off : Nat) (v : Word) : (rset s b i off v).rowErrs = s.rowErrs := rfl
@[simp] theorem rset_rowsPerm (s : State) (b : Block) (i off : Nat) (v : Word) : (rset s b i off v).rowsPerm = s.rowsPerm := rfl
@[simp] theorem rset_rowPgs (s : State) (b : Block) (i off : Nat) (v : Word) : (rset s b i off v).rowPgs = s.rowPgs := rfl
@[simp] theorem rset_pprQueue (s : State) (b : Block) (i off : Nat) (v : Word) : (rset s b i off v).pprQueue = s.pprQueue := rfl
@[simp] theorem rset_pprUsed (s : State) (b : Block) (i off : Nat) (v : Word) : (rset s b i off v).pprUsed = s.pprUsed := rfl
@[simp] theorem rset_caFails (s : State) (b : Block) (i off : Nat) (v : Word) : (rset s b i off v).caFails = s.caFails := rfl
@[simp] theorem rset_pcDead (s : State) (b : Block) (i off : Nat) (v : Word) : (rset s b i off v).pcDead = s.pcDead := rfl
@[simp] theorem rset_stgErrs (s : State) (b : Block) (i off : Nat) (v : Word) : (rset s b i off v).stgErrs = s.stgErrs := rfl
@[simp] theorem rset_stgSpares (s : State) (b : Block) (i off : Nat) (v : Word) : (rset s b i off v).stgSpares = s.stgSpares := rfl
@[simp] theorem rset_stgRowsPerm (s : State) (b : Block) (i off : Nat) (v : Word) : (rset s b i off v).stgRowsPerm = s.stgRowsPerm := rfl
@[simp] theorem rset_stgSubst (s : State) (b : Block) (i off : Nat) (v : Word) : (rset s b i off v).stgSubst = s.stgSubst := rfl
@[simp] theorem rset_keysErased (s : State) (b : Block) (i off : Nat) (v : Word) : (rset s b i off v).keysErased = s.keysErased := rfl
@[simp] theorem rset_pools (s : State) (b : Block) (i off : Nat) (v : Word) : (rset s b i off v).pools = s.pools := rfl
@[simp] theorem rset_grants (s : State) (b : Block) (i off : Nat) (v : Word) : (rset s b i off v).grants = s.grants := rfl
@[simp] theorem rset_grantReqs (s : State) (b : Block) (i off : Nat) (v : Word) : (rset s b i off v).grantReqs = s.grantReqs := rfl
@[simp] theorem rset_poolAsked (s : State) (b : Block) (i off : Nat) (v : Word) : (rset s b i off v).poolAsked = s.poolAsked := rfl
@[simp] theorem rset_fastCap (s : State) (b : Block) (i off : Nat) (v : Word) : (rset s b i off v).fastCap = s.fastCap := rfl
@[simp] theorem rset_ports (s : State) (b : Block) (i off : Nat) (v : Word) : (rset s b i off v).ports = s.ports := rfl
@[simp] theorem rset_fb (s : State) (b : Block) (i off : Nat) (v : Word) : (rset s b i off v).fb = s.fb := rfl
@[simp] theorem rset_peers (s : State) (b : Block) (i off : Nat) (v : Word) : (rset s b i off v).peers = s.peers := rfl
@[simp] theorem rset_roll (s : State) (b : Block) (i off : Nat) (v : Word) : (rset s b i off v).roll = s.roll := rfl
@[simp] theorem rset_mgtIdx (s : State) (b : Block) (i off : Nat) (v : Word) : (rset s b i off v).mgtIdx = s.mgtIdx := rfl
@[simp] theorem rset_mcCfg (s : State) (b : Block) (i off : Nat) (v : Word) : (rset s b i off v).mcCfg = s.mcCfg := rfl
@[simp] theorem rset_mcCheck (s : State) (b : Block) (i off : Nat) (v : Word) : (rset s b i off v).mcCheck = s.mcCheck := rfl
@[simp] theorem rset_mcMember (s : State) (b : Block) (i off : Nat) (v : Word) : (rset s b i off v).mcMember = s.mcMember := rfl
@[simp] theorem rset_mcKey (s : State) (b : Block) (i off : Nat) (v : Word) : (rset s b i off v).mcKey = s.mcKey := rfl
@[simp] theorem rset_mcFseq (s : State) (b : Block) (i off : Nat) (v : Word) : (rset s b i off v).mcFseq = s.mcFseq := rfl
@[simp] theorem rset_mcSends (s : State) (b : Block) (i off : Nat) (v : Word) : (rset s b i off v).mcSends = s.mcSends := rfl
@[simp] theorem rset_heldPkts (s : State) (b : Block) (i off : Nat) (v : Word) : (rset s b i off v).heldPkts = s.heldPkts := rfl
@[simp] theorem rset_destRecs (s : State) (b : Block) (i off : Nat) (v : Word) : (rset s b i off v).destRecs = s.destRecs := rfl
@[simp] theorem rset_epoch (s : State) (b : Block) (i off : Nat) (v : Word) : (rset s b i off v).epoch = s.epoch := rfl
@[simp] theorem rset_prevEpoch (s : State) (b : Block) (i off : Nat) (v : Word) : (rset s b i off v).prevEpoch = s.prevEpoch := rfl
@[simp] theorem rset_epochPeers (s : State) (b : Block) (i off : Nat) (v : Word) : (rset s b i off v).epochPeers = s.epochPeers := rfl
@[simp] theorem rset_nonce (s : State) (b : Block) (i off : Nat) (v : Word) : (rset s b i off v).nonce = s.nonce := rfl
@[simp] theorem rset_fabKeys (s : State) (b : Block) (i off : Nat) (v : Word) : (rset s b i off v).fabKeys = s.fabKeys := rfl
@[simp] theorem rset_resid (s : State) (b : Block) (i off : Nat) (v : Word) : (rset s b i off v).resid = s.resid := rfl
@[simp] theorem rset_ctxResets (s : State) (b : Block) (i off : Nat) (v : Word) : (rset s b i off v).ctxResets = s.ctxResets := rfl
@[simp] theorem rset_fuses (s : State) (b : Block) (i off : Nat) (v : Word) : (rset s b i off v).fuses = s.fuses := rfl
@[simp] theorem rset_fw (s : State) (b : Block) (i off : Nat) (v : Word) : (rset s b i off v).fw = s.fw := rfl
@[simp] theorem rset_carillon (s : State) (b : Block) (i off : Nat) (v : Word) : (rset s b i off v).carillon = s.carillon := rfl
@[simp] theorem rset_sec (s : State) (b : Block) (i off : Nat) (v : Word) : (rset s b i off v).sec = s.sec := rfl
@[simp] theorem rset_power (s : State) (b : Block) (i off : Nat) (v : Word) : (rset s b i off v).power = s.power := rfl
@[simp] theorem rset_thermal (s : State) (b : Block) (i off : Nat) (v : Word) : (rset s b i off v).thermal = s.thermal := rfl
@[simp] theorem rset_islands (s : State) (b : Block) (i off : Nat) (v : Word) : (rset s b i off v).islands = s.islands := rfl
@[simp] theorem rset_bist (s : State) (b : Block) (i off : Nat) (v : Word) : (rset s b i off v).bist = s.bist := rfl
@[simp] theorem rset_pealCores (s : State) (b : Block) (i off : Nat) (v : Word) : (rset s b i off v).pealCores = s.pealCores := rfl
@[simp] theorem rset_pealBad (s : State) (b : Block) (i off : Nat) (v : Word) : (rset s b i off v).pealBad = s.pealBad := rfl
@[simp] theorem rset_setOps (s : State) (b : Block) (i off : Nat) (v : Word) : (rset s b i off v).setOps = s.setOps := rfl
@[simp] theorem rset_dump (s : State) (b : Block) (i off : Nat) (v : Word) : (rset s b i off v).dump = s.dump := rfl
@[simp] theorem rset_engines (s : State) (b : Block) (i off : Nat) (v : Word) : (rset s b i off v).engines = s.engines := rfl
@[simp] theorem rset_retPorts (s : State) (b : Block) (i off : Nat) (v : Word) : (rset s b i off v).retPorts = s.retPorts := rfl
@[simp] theorem rset_s6Us (s : State) (b : Block) (i off : Nat) (v : Word) : (rset s b i off v).s6Us = s.s6Us := rfl
@[simp] theorem rset_fieldCores (s : State) (b : Block) (i off : Nat) (v : Word) : (rset s b i off v).fieldCores = s.fieldCores := rfl
@[simp] theorem rset_fieldSlices (s : State) (b : Block) (i off : Nat) (v : Word) : (rset s b i off v).fieldSlices = s.fieldSlices := rfl
@[simp] theorem rset_fieldDirty (s : State) (b : Block) (i off : Nat) (v : Word) : (rset s b i off v).fieldDirty = s.fieldDirty := rfl
@[simp] theorem rset_retention (s : State) (b : Block) (i off : Nat) (v : Word) : (rset s b i off v).retention = s.retention := rfl
@[simp] theorem rset_retEvents (s : State) (b : Block) (i off : Nat) (v : Word) : (rset s b i off v).retEvents = s.retEvents := rfl
@[simp] theorem rset_bootRetried (s : State) (b : Block) (i off : Nat) (v : Word) : (rset s b i off v).bootRetried = s.bootRetried := rfl
@[simp] theorem rset_chipAtS2 (s : State) (b : Block) (i off : Nat) (v : Word) : (rset s b i off v).chipAtS2 = s.chipAtS2 := rfl
@[simp] theorem rset_flr (s : State) (b : Block) (i off : Nat) (v : Word) : (rset s b i off v).flr = s.flr := rfl
@[simp] theorem rset_timeHi (s : State) (b : Block) (i off : Nat) (v : Word) : (rset s b i off v).timeHi = s.timeHi := rfl
@[simp] theorem rset_brgOut (s : State) (b : Block) (i off : Nat) (v : Word) : (rset s b i off v).brgOut = s.brgOut := rfl
@[simp] theorem rset_brgRestrict (s : State) (b : Block) (i off : Nat) (v : Word) : (rset s b i off v).brgRestrict = s.brgRestrict := rfl
@[simp] theorem rset_brgReplays (s : State) (b : Block) (i off : Nat) (v : Word) : (rset s b i off v).brgReplays = s.brgReplays := rfl
@[simp] theorem rset_scrub (s : State) (b : Block) (i off : Nat) (v : Word) : (rset s b i off v).scrub = s.scrub := rfl
@[simp] theorem rset_zeroAt (s : State) (b : Block) (i off : Nat) (v : Word) : (rset s b i off v).zeroAt = s.zeroAt := rfl

@[simp] theorem bump_pending (s : State) (b : Block) (i off n : Nat) : (bump s b i off n).pending = s.pending := rfl
@[simp] theorem bump_out (s : State) (b : Block) (i off n : Nat) : (bump s b i off n).out = s.out := rfl
@[simp] theorem bump_net (s : State) (b : Block) (i off n : Nat) : (bump s b i off n).net = s.net := rfl
@[simp] theorem bump_us (s : State) (b : Block) (i off n : Nat) : (bump s b i off n).us = s.us := rfl
@[simp] theorem bump_draws (s : State) (b : Block) (i off n : Nat) : (bump s b i off n).draws = s.draws := rfl
@[simp] theorem bump_mem (s : State) (b : Block) (i off n : Nat) : (bump s b i off n).mem = s.mem := rfl
@[simp] theorem bump_poison (s : State) (b : Block) (i off n : Nat) : (bump s b i off n).poison = s.poison := rfl
@[simp] theorem bump_split (s : State) (b : Block) (i off n : Nat) : (bump s b i off n).split = s.split := rfl
@[simp] theorem bump_cores (s : State) (b : Block) (i off n : Nat) : (bump s b i off n).cores = s.cores := rfl
@[simp] theorem bump_clusters (s : State) (b : Block) (i off n : Nat) : (bump s b i off n).clusters = s.clusters := rfl
@[simp] theorem bump_gong (s : State) (b : Block) (i off n : Nat) : (bump s b i off n).gong = s.gong := rfl
@[simp] theorem bump_host (s : State) (b : Block) (i off n : Nat) : (bump s b i off n).host = s.host := rfl
@[simp] theorem bump_reqPart (s : State) (b : Block) (i off n : Nat) : (bump s b i off n).reqPart = s.reqPart := rfl
@[simp] theorem bump_reqChip (s : State) (b : Block) (i off n : Nat) : (bump s b i off n).reqChip = s.reqChip := rfl
@[simp] theorem bump_partReset (s : State) (b : Block) (i off n : Nat) : (bump s b i off n).partReset = s.partReset := rfl
@[simp] theorem bump_chipReset (s : State) (b : Block) (i off n : Nat) : (bump s b i off n).chipReset = s.chipReset := rfl
@[simp] theorem bump_heldInts (s : State) (b : Block) (i off n : Nat) : (bump s b i off n).heldInts = s.heldInts := rfl
@[simp] theorem bump_evq (s : State) (b : Block) (i off n : Nat) : (bump s b i off n).evq = s.evq := rfl
@[simp] theorem bump_evCount (s : State) (b : Block) (i off n : Nat) : (bump s b i off n).evCount = s.evCount := rfl
@[simp] theorem bump_evOverflow (s : State) (b : Block) (i off n : Nat) : (bump s b i off n).evOverflow = s.evOverflow := rfl
@[simp] theorem bump_rowErrs (s : State) (b : Block) (i off n : Nat) : (bump s b i off n).rowErrs = s.rowErrs := rfl
@[simp] theorem bump_rowsPerm (s : State) (b : Block) (i off n : Nat) : (bump s b i off n).rowsPerm = s.rowsPerm := rfl
@[simp] theorem bump_rowPgs (s : State) (b : Block) (i off n : Nat) : (bump s b i off n).rowPgs = s.rowPgs := rfl
@[simp] theorem bump_pprQueue (s : State) (b : Block) (i off n : Nat) : (bump s b i off n).pprQueue = s.pprQueue := rfl
@[simp] theorem bump_pprUsed (s : State) (b : Block) (i off n : Nat) : (bump s b i off n).pprUsed = s.pprUsed := rfl
@[simp] theorem bump_caFails (s : State) (b : Block) (i off n : Nat) : (bump s b i off n).caFails = s.caFails := rfl
@[simp] theorem bump_pcDead (s : State) (b : Block) (i off n : Nat) : (bump s b i off n).pcDead = s.pcDead := rfl
@[simp] theorem bump_stgErrs (s : State) (b : Block) (i off n : Nat) : (bump s b i off n).stgErrs = s.stgErrs := rfl
@[simp] theorem bump_stgSpares (s : State) (b : Block) (i off n : Nat) : (bump s b i off n).stgSpares = s.stgSpares := rfl
@[simp] theorem bump_stgRowsPerm (s : State) (b : Block) (i off n : Nat) : (bump s b i off n).stgRowsPerm = s.stgRowsPerm := rfl
@[simp] theorem bump_stgSubst (s : State) (b : Block) (i off n : Nat) : (bump s b i off n).stgSubst = s.stgSubst := rfl
@[simp] theorem bump_keysErased (s : State) (b : Block) (i off n : Nat) : (bump s b i off n).keysErased = s.keysErased := rfl
@[simp] theorem bump_pools (s : State) (b : Block) (i off n : Nat) : (bump s b i off n).pools = s.pools := rfl
@[simp] theorem bump_grants (s : State) (b : Block) (i off n : Nat) : (bump s b i off n).grants = s.grants := rfl
@[simp] theorem bump_grantReqs (s : State) (b : Block) (i off n : Nat) : (bump s b i off n).grantReqs = s.grantReqs := rfl
@[simp] theorem bump_poolAsked (s : State) (b : Block) (i off n : Nat) : (bump s b i off n).poolAsked = s.poolAsked := rfl
@[simp] theorem bump_fastCap (s : State) (b : Block) (i off n : Nat) : (bump s b i off n).fastCap = s.fastCap := rfl
@[simp] theorem bump_ports (s : State) (b : Block) (i off n : Nat) : (bump s b i off n).ports = s.ports := rfl
@[simp] theorem bump_fb (s : State) (b : Block) (i off n : Nat) : (bump s b i off n).fb = s.fb := rfl
@[simp] theorem bump_peers (s : State) (b : Block) (i off n : Nat) : (bump s b i off n).peers = s.peers := rfl
@[simp] theorem bump_roll (s : State) (b : Block) (i off n : Nat) : (bump s b i off n).roll = s.roll := rfl
@[simp] theorem bump_mgtIdx (s : State) (b : Block) (i off n : Nat) : (bump s b i off n).mgtIdx = s.mgtIdx := rfl
@[simp] theorem bump_mcCfg (s : State) (b : Block) (i off n : Nat) : (bump s b i off n).mcCfg = s.mcCfg := rfl
@[simp] theorem bump_mcCheck (s : State) (b : Block) (i off n : Nat) : (bump s b i off n).mcCheck = s.mcCheck := rfl
@[simp] theorem bump_mcMember (s : State) (b : Block) (i off n : Nat) : (bump s b i off n).mcMember = s.mcMember := rfl
@[simp] theorem bump_mcKey (s : State) (b : Block) (i off n : Nat) : (bump s b i off n).mcKey = s.mcKey := rfl
@[simp] theorem bump_mcFseq (s : State) (b : Block) (i off n : Nat) : (bump s b i off n).mcFseq = s.mcFseq := rfl
@[simp] theorem bump_mcSends (s : State) (b : Block) (i off n : Nat) : (bump s b i off n).mcSends = s.mcSends := rfl
@[simp] theorem bump_heldPkts (s : State) (b : Block) (i off n : Nat) : (bump s b i off n).heldPkts = s.heldPkts := rfl
@[simp] theorem bump_destRecs (s : State) (b : Block) (i off n : Nat) : (bump s b i off n).destRecs = s.destRecs := rfl
@[simp] theorem bump_epoch (s : State) (b : Block) (i off n : Nat) : (bump s b i off n).epoch = s.epoch := rfl
@[simp] theorem bump_prevEpoch (s : State) (b : Block) (i off n : Nat) : (bump s b i off n).prevEpoch = s.prevEpoch := rfl
@[simp] theorem bump_epochPeers (s : State) (b : Block) (i off n : Nat) : (bump s b i off n).epochPeers = s.epochPeers := rfl
@[simp] theorem bump_nonce (s : State) (b : Block) (i off n : Nat) : (bump s b i off n).nonce = s.nonce := rfl
@[simp] theorem bump_fabKeys (s : State) (b : Block) (i off n : Nat) : (bump s b i off n).fabKeys = s.fabKeys := rfl
@[simp] theorem bump_resid (s : State) (b : Block) (i off n : Nat) : (bump s b i off n).resid = s.resid := rfl
@[simp] theorem bump_ctxResets (s : State) (b : Block) (i off n : Nat) : (bump s b i off n).ctxResets = s.ctxResets := rfl
@[simp] theorem bump_fuses (s : State) (b : Block) (i off n : Nat) : (bump s b i off n).fuses = s.fuses := rfl
@[simp] theorem bump_fw (s : State) (b : Block) (i off n : Nat) : (bump s b i off n).fw = s.fw := rfl
@[simp] theorem bump_carillon (s : State) (b : Block) (i off n : Nat) : (bump s b i off n).carillon = s.carillon := rfl
@[simp] theorem bump_sec (s : State) (b : Block) (i off n : Nat) : (bump s b i off n).sec = s.sec := rfl
@[simp] theorem bump_power (s : State) (b : Block) (i off n : Nat) : (bump s b i off n).power = s.power := rfl
@[simp] theorem bump_thermal (s : State) (b : Block) (i off n : Nat) : (bump s b i off n).thermal = s.thermal := rfl
@[simp] theorem bump_islands (s : State) (b : Block) (i off n : Nat) : (bump s b i off n).islands = s.islands := rfl
@[simp] theorem bump_bist (s : State) (b : Block) (i off n : Nat) : (bump s b i off n).bist = s.bist := rfl
@[simp] theorem bump_pealCores (s : State) (b : Block) (i off n : Nat) : (bump s b i off n).pealCores = s.pealCores := rfl
@[simp] theorem bump_pealBad (s : State) (b : Block) (i off n : Nat) : (bump s b i off n).pealBad = s.pealBad := rfl
@[simp] theorem bump_setOps (s : State) (b : Block) (i off n : Nat) : (bump s b i off n).setOps = s.setOps := rfl
@[simp] theorem bump_dump (s : State) (b : Block) (i off n : Nat) : (bump s b i off n).dump = s.dump := rfl
@[simp] theorem bump_engines (s : State) (b : Block) (i off n : Nat) : (bump s b i off n).engines = s.engines := rfl
@[simp] theorem bump_retPorts (s : State) (b : Block) (i off n : Nat) : (bump s b i off n).retPorts = s.retPorts := rfl
@[simp] theorem bump_s6Us (s : State) (b : Block) (i off n : Nat) : (bump s b i off n).s6Us = s.s6Us := rfl
@[simp] theorem bump_fieldCores (s : State) (b : Block) (i off n : Nat) : (bump s b i off n).fieldCores = s.fieldCores := rfl
@[simp] theorem bump_fieldSlices (s : State) (b : Block) (i off n : Nat) : (bump s b i off n).fieldSlices = s.fieldSlices := rfl
@[simp] theorem bump_fieldDirty (s : State) (b : Block) (i off n : Nat) : (bump s b i off n).fieldDirty = s.fieldDirty := rfl
@[simp] theorem bump_retention (s : State) (b : Block) (i off n : Nat) : (bump s b i off n).retention = s.retention := rfl
@[simp] theorem bump_retEvents (s : State) (b : Block) (i off n : Nat) : (bump s b i off n).retEvents = s.retEvents := rfl
@[simp] theorem bump_bootRetried (s : State) (b : Block) (i off n : Nat) : (bump s b i off n).bootRetried = s.bootRetried := rfl
@[simp] theorem bump_chipAtS2 (s : State) (b : Block) (i off n : Nat) : (bump s b i off n).chipAtS2 = s.chipAtS2 := rfl
@[simp] theorem bump_flr (s : State) (b : Block) (i off n : Nat) : (bump s b i off n).flr = s.flr := rfl
@[simp] theorem bump_timeHi (s : State) (b : Block) (i off n : Nat) : (bump s b i off n).timeHi = s.timeHi := rfl
@[simp] theorem bump_brgOut (s : State) (b : Block) (i off n : Nat) : (bump s b i off n).brgOut = s.brgOut := rfl
@[simp] theorem bump_brgRestrict (s : State) (b : Block) (i off n : Nat) : (bump s b i off n).brgRestrict = s.brgRestrict := rfl
@[simp] theorem bump_brgReplays (s : State) (b : Block) (i off n : Nat) : (bump s b i off n).brgReplays = s.brgReplays := rfl
@[simp] theorem bump_scrub (s : State) (b : Block) (i off n : Nat) : (bump s b i off n).scrub = s.scrub := rfl
@[simp] theorem bump_zeroAt (s : State) (b : Block) (i off n : Nat) : (bump s b i off n).zeroAt = s.zeroAt := rfl

@[simp] theorem emit_pending (s : State) (o : Out) : (emit s o).pending = s.pending := rfl
@[simp] theorem emit_net (s : State) (o : Out) : (emit s o).net = s.net := rfl
@[simp] theorem emit_us (s : State) (o : Out) : (emit s o).us = s.us := rfl
@[simp] theorem emit_draws (s : State) (o : Out) : (emit s o).draws = s.draws := rfl
@[simp] theorem emit_regs (s : State) (o : Out) : (emit s o).regs = s.regs := rfl
@[simp] theorem emit_mem (s : State) (o : Out) : (emit s o).mem = s.mem := rfl
@[simp] theorem emit_poison (s : State) (o : Out) : (emit s o).poison = s.poison := rfl
@[simp] theorem emit_split (s : State) (o : Out) : (emit s o).split = s.split := rfl
@[simp] theorem emit_cores (s : State) (o : Out) : (emit s o).cores = s.cores := rfl
@[simp] theorem emit_clusters (s : State) (o : Out) : (emit s o).clusters = s.clusters := rfl
@[simp] theorem emit_gong (s : State) (o : Out) : (emit s o).gong = s.gong := rfl
@[simp] theorem emit_host (s : State) (o : Out) : (emit s o).host = s.host := rfl
@[simp] theorem emit_reqPart (s : State) (o : Out) : (emit s o).reqPart = s.reqPart := rfl
@[simp] theorem emit_reqChip (s : State) (o : Out) : (emit s o).reqChip = s.reqChip := rfl
@[simp] theorem emit_partReset (s : State) (o : Out) : (emit s o).partReset = s.partReset := rfl
@[simp] theorem emit_chipReset (s : State) (o : Out) : (emit s o).chipReset = s.chipReset := rfl
@[simp] theorem emit_heldInts (s : State) (o : Out) : (emit s o).heldInts = s.heldInts := rfl
@[simp] theorem emit_evq (s : State) (o : Out) : (emit s o).evq = s.evq := rfl
@[simp] theorem emit_evCount (s : State) (o : Out) : (emit s o).evCount = s.evCount := rfl
@[simp] theorem emit_evOverflow (s : State) (o : Out) : (emit s o).evOverflow = s.evOverflow := rfl
@[simp] theorem emit_rowErrs (s : State) (o : Out) : (emit s o).rowErrs = s.rowErrs := rfl
@[simp] theorem emit_rowsPerm (s : State) (o : Out) : (emit s o).rowsPerm = s.rowsPerm := rfl
@[simp] theorem emit_rowPgs (s : State) (o : Out) : (emit s o).rowPgs = s.rowPgs := rfl
@[simp] theorem emit_pprQueue (s : State) (o : Out) : (emit s o).pprQueue = s.pprQueue := rfl
@[simp] theorem emit_pprUsed (s : State) (o : Out) : (emit s o).pprUsed = s.pprUsed := rfl
@[simp] theorem emit_caFails (s : State) (o : Out) : (emit s o).caFails = s.caFails := rfl
@[simp] theorem emit_pcDead (s : State) (o : Out) : (emit s o).pcDead = s.pcDead := rfl
@[simp] theorem emit_stgErrs (s : State) (o : Out) : (emit s o).stgErrs = s.stgErrs := rfl
@[simp] theorem emit_stgSpares (s : State) (o : Out) : (emit s o).stgSpares = s.stgSpares := rfl
@[simp] theorem emit_stgRowsPerm (s : State) (o : Out) : (emit s o).stgRowsPerm = s.stgRowsPerm := rfl
@[simp] theorem emit_stgSubst (s : State) (o : Out) : (emit s o).stgSubst = s.stgSubst := rfl
@[simp] theorem emit_keysErased (s : State) (o : Out) : (emit s o).keysErased = s.keysErased := rfl
@[simp] theorem emit_pools (s : State) (o : Out) : (emit s o).pools = s.pools := rfl
@[simp] theorem emit_grants (s : State) (o : Out) : (emit s o).grants = s.grants := rfl
@[simp] theorem emit_grantReqs (s : State) (o : Out) : (emit s o).grantReqs = s.grantReqs := rfl
@[simp] theorem emit_poolAsked (s : State) (o : Out) : (emit s o).poolAsked = s.poolAsked := rfl
@[simp] theorem emit_fastCap (s : State) (o : Out) : (emit s o).fastCap = s.fastCap := rfl
@[simp] theorem emit_ports (s : State) (o : Out) : (emit s o).ports = s.ports := rfl
@[simp] theorem emit_fb (s : State) (o : Out) : (emit s o).fb = s.fb := rfl
@[simp] theorem emit_peers (s : State) (o : Out) : (emit s o).peers = s.peers := rfl
@[simp] theorem emit_roll (s : State) (o : Out) : (emit s o).roll = s.roll := rfl
@[simp] theorem emit_mgtIdx (s : State) (o : Out) : (emit s o).mgtIdx = s.mgtIdx := rfl
@[simp] theorem emit_mcCfg (s : State) (o : Out) : (emit s o).mcCfg = s.mcCfg := rfl
@[simp] theorem emit_mcCheck (s : State) (o : Out) : (emit s o).mcCheck = s.mcCheck := rfl
@[simp] theorem emit_mcMember (s : State) (o : Out) : (emit s o).mcMember = s.mcMember := rfl
@[simp] theorem emit_mcKey (s : State) (o : Out) : (emit s o).mcKey = s.mcKey := rfl
@[simp] theorem emit_mcFseq (s : State) (o : Out) : (emit s o).mcFseq = s.mcFseq := rfl
@[simp] theorem emit_mcSends (s : State) (o : Out) : (emit s o).mcSends = s.mcSends := rfl
@[simp] theorem emit_heldPkts (s : State) (o : Out) : (emit s o).heldPkts = s.heldPkts := rfl
@[simp] theorem emit_destRecs (s : State) (o : Out) : (emit s o).destRecs = s.destRecs := rfl
@[simp] theorem emit_epoch (s : State) (o : Out) : (emit s o).epoch = s.epoch := rfl
@[simp] theorem emit_prevEpoch (s : State) (o : Out) : (emit s o).prevEpoch = s.prevEpoch := rfl
@[simp] theorem emit_epochPeers (s : State) (o : Out) : (emit s o).epochPeers = s.epochPeers := rfl
@[simp] theorem emit_nonce (s : State) (o : Out) : (emit s o).nonce = s.nonce := rfl
@[simp] theorem emit_fabKeys (s : State) (o : Out) : (emit s o).fabKeys = s.fabKeys := rfl
@[simp] theorem emit_resid (s : State) (o : Out) : (emit s o).resid = s.resid := rfl
@[simp] theorem emit_ctxResets (s : State) (o : Out) : (emit s o).ctxResets = s.ctxResets := rfl
@[simp] theorem emit_fuses (s : State) (o : Out) : (emit s o).fuses = s.fuses := rfl
@[simp] theorem emit_fw (s : State) (o : Out) : (emit s o).fw = s.fw := rfl
@[simp] theorem emit_carillon (s : State) (o : Out) : (emit s o).carillon = s.carillon := rfl
@[simp] theorem emit_sec (s : State) (o : Out) : (emit s o).sec = s.sec := rfl
@[simp] theorem emit_power (s : State) (o : Out) : (emit s o).power = s.power := rfl
@[simp] theorem emit_thermal (s : State) (o : Out) : (emit s o).thermal = s.thermal := rfl
@[simp] theorem emit_islands (s : State) (o : Out) : (emit s o).islands = s.islands := rfl
@[simp] theorem emit_bist (s : State) (o : Out) : (emit s o).bist = s.bist := rfl
@[simp] theorem emit_pealCores (s : State) (o : Out) : (emit s o).pealCores = s.pealCores := rfl
@[simp] theorem emit_pealBad (s : State) (o : Out) : (emit s o).pealBad = s.pealBad := rfl
@[simp] theorem emit_setOps (s : State) (o : Out) : (emit s o).setOps = s.setOps := rfl
@[simp] theorem emit_dump (s : State) (o : Out) : (emit s o).dump = s.dump := rfl
@[simp] theorem emit_engines (s : State) (o : Out) : (emit s o).engines = s.engines := rfl
@[simp] theorem emit_retPorts (s : State) (o : Out) : (emit s o).retPorts = s.retPorts := rfl
@[simp] theorem emit_s6Us (s : State) (o : Out) : (emit s o).s6Us = s.s6Us := rfl
@[simp] theorem emit_fieldCores (s : State) (o : Out) : (emit s o).fieldCores = s.fieldCores := rfl
@[simp] theorem emit_fieldSlices (s : State) (o : Out) : (emit s o).fieldSlices = s.fieldSlices := rfl
@[simp] theorem emit_fieldDirty (s : State) (o : Out) : (emit s o).fieldDirty = s.fieldDirty := rfl
@[simp] theorem emit_retention (s : State) (o : Out) : (emit s o).retention = s.retention := rfl
@[simp] theorem emit_retEvents (s : State) (o : Out) : (emit s o).retEvents = s.retEvents := rfl
@[simp] theorem emit_bootRetried (s : State) (o : Out) : (emit s o).bootRetried = s.bootRetried := rfl
@[simp] theorem emit_chipAtS2 (s : State) (o : Out) : (emit s o).chipAtS2 = s.chipAtS2 := rfl
@[simp] theorem emit_flr (s : State) (o : Out) : (emit s o).flr = s.flr := rfl
@[simp] theorem emit_timeHi (s : State) (o : Out) : (emit s o).timeHi = s.timeHi := rfl
@[simp] theorem emit_brgOut (s : State) (o : Out) : (emit s o).brgOut = s.brgOut := rfl
@[simp] theorem emit_brgRestrict (s : State) (o : Out) : (emit s o).brgRestrict = s.brgRestrict := rfl
@[simp] theorem emit_brgReplays (s : State) (o : Out) : (emit s o).brgReplays = s.brgReplays := rfl
@[simp] theorem emit_scrub (s : State) (o : Out) : (emit s o).scrub = s.scrub := rfl
@[simp] theorem emit_zeroAt (s : State) (o : Out) : (emit s o).zeroAt = s.zeroAt := rfl

@[simp] theorem send_pending (s : State) (m : NetMsg) : (send s m).pending = s.pending := rfl
@[simp] theorem send_out (s : State) (m : NetMsg) : (send s m).out = s.out := rfl
@[simp] theorem send_us (s : State) (m : NetMsg) : (send s m).us = s.us := rfl
@[simp] theorem send_draws (s : State) (m : NetMsg) : (send s m).draws = s.draws := rfl
@[simp] theorem send_regs (s : State) (m : NetMsg) : (send s m).regs = s.regs := rfl
@[simp] theorem send_mem (s : State) (m : NetMsg) : (send s m).mem = s.mem := rfl
@[simp] theorem send_poison (s : State) (m : NetMsg) : (send s m).poison = s.poison := rfl
@[simp] theorem send_split (s : State) (m : NetMsg) : (send s m).split = s.split := rfl
@[simp] theorem send_cores (s : State) (m : NetMsg) : (send s m).cores = s.cores := rfl
@[simp] theorem send_clusters (s : State) (m : NetMsg) : (send s m).clusters = s.clusters := rfl
@[simp] theorem send_gong (s : State) (m : NetMsg) : (send s m).gong = s.gong := rfl
@[simp] theorem send_host (s : State) (m : NetMsg) : (send s m).host = s.host := rfl
@[simp] theorem send_reqPart (s : State) (m : NetMsg) : (send s m).reqPart = s.reqPart := rfl
@[simp] theorem send_reqChip (s : State) (m : NetMsg) : (send s m).reqChip = s.reqChip := rfl
@[simp] theorem send_partReset (s : State) (m : NetMsg) : (send s m).partReset = s.partReset := rfl
@[simp] theorem send_chipReset (s : State) (m : NetMsg) : (send s m).chipReset = s.chipReset := rfl
@[simp] theorem send_heldInts (s : State) (m : NetMsg) : (send s m).heldInts = s.heldInts := rfl
@[simp] theorem send_evq (s : State) (m : NetMsg) : (send s m).evq = s.evq := rfl
@[simp] theorem send_evCount (s : State) (m : NetMsg) : (send s m).evCount = s.evCount := rfl
@[simp] theorem send_evOverflow (s : State) (m : NetMsg) : (send s m).evOverflow = s.evOverflow := rfl
@[simp] theorem send_rowErrs (s : State) (m : NetMsg) : (send s m).rowErrs = s.rowErrs := rfl
@[simp] theorem send_rowsPerm (s : State) (m : NetMsg) : (send s m).rowsPerm = s.rowsPerm := rfl
@[simp] theorem send_rowPgs (s : State) (m : NetMsg) : (send s m).rowPgs = s.rowPgs := rfl
@[simp] theorem send_pprQueue (s : State) (m : NetMsg) : (send s m).pprQueue = s.pprQueue := rfl
@[simp] theorem send_pprUsed (s : State) (m : NetMsg) : (send s m).pprUsed = s.pprUsed := rfl
@[simp] theorem send_caFails (s : State) (m : NetMsg) : (send s m).caFails = s.caFails := rfl
@[simp] theorem send_pcDead (s : State) (m : NetMsg) : (send s m).pcDead = s.pcDead := rfl
@[simp] theorem send_stgErrs (s : State) (m : NetMsg) : (send s m).stgErrs = s.stgErrs := rfl
@[simp] theorem send_stgSpares (s : State) (m : NetMsg) : (send s m).stgSpares = s.stgSpares := rfl
@[simp] theorem send_stgRowsPerm (s : State) (m : NetMsg) : (send s m).stgRowsPerm = s.stgRowsPerm := rfl
@[simp] theorem send_stgSubst (s : State) (m : NetMsg) : (send s m).stgSubst = s.stgSubst := rfl
@[simp] theorem send_keysErased (s : State) (m : NetMsg) : (send s m).keysErased = s.keysErased := rfl
@[simp] theorem send_pools (s : State) (m : NetMsg) : (send s m).pools = s.pools := rfl
@[simp] theorem send_grants (s : State) (m : NetMsg) : (send s m).grants = s.grants := rfl
@[simp] theorem send_grantReqs (s : State) (m : NetMsg) : (send s m).grantReqs = s.grantReqs := rfl
@[simp] theorem send_poolAsked (s : State) (m : NetMsg) : (send s m).poolAsked = s.poolAsked := rfl
@[simp] theorem send_fastCap (s : State) (m : NetMsg) : (send s m).fastCap = s.fastCap := rfl
@[simp] theorem send_ports (s : State) (m : NetMsg) : (send s m).ports = s.ports := rfl
@[simp] theorem send_fb (s : State) (m : NetMsg) : (send s m).fb = s.fb := rfl
@[simp] theorem send_peers (s : State) (m : NetMsg) : (send s m).peers = s.peers := rfl
@[simp] theorem send_roll (s : State) (m : NetMsg) : (send s m).roll = s.roll := rfl
@[simp] theorem send_mgtIdx (s : State) (m : NetMsg) : (send s m).mgtIdx = s.mgtIdx := rfl
@[simp] theorem send_mcCfg (s : State) (m : NetMsg) : (send s m).mcCfg = s.mcCfg := rfl
@[simp] theorem send_mcCheck (s : State) (m : NetMsg) : (send s m).mcCheck = s.mcCheck := rfl
@[simp] theorem send_mcMember (s : State) (m : NetMsg) : (send s m).mcMember = s.mcMember := rfl
@[simp] theorem send_mcKey (s : State) (m : NetMsg) : (send s m).mcKey = s.mcKey := rfl
@[simp] theorem send_mcFseq (s : State) (m : NetMsg) : (send s m).mcFseq = s.mcFseq := rfl
@[simp] theorem send_mcSends (s : State) (m : NetMsg) : (send s m).mcSends = s.mcSends := rfl
@[simp] theorem send_heldPkts (s : State) (m : NetMsg) : (send s m).heldPkts = s.heldPkts := rfl
@[simp] theorem send_destRecs (s : State) (m : NetMsg) : (send s m).destRecs = s.destRecs := rfl
@[simp] theorem send_epoch (s : State) (m : NetMsg) : (send s m).epoch = s.epoch := rfl
@[simp] theorem send_prevEpoch (s : State) (m : NetMsg) : (send s m).prevEpoch = s.prevEpoch := rfl
@[simp] theorem send_epochPeers (s : State) (m : NetMsg) : (send s m).epochPeers = s.epochPeers := rfl
@[simp] theorem send_nonce (s : State) (m : NetMsg) : (send s m).nonce = s.nonce := rfl
@[simp] theorem send_fabKeys (s : State) (m : NetMsg) : (send s m).fabKeys = s.fabKeys := rfl
@[simp] theorem send_resid (s : State) (m : NetMsg) : (send s m).resid = s.resid := rfl
@[simp] theorem send_ctxResets (s : State) (m : NetMsg) : (send s m).ctxResets = s.ctxResets := rfl
@[simp] theorem send_fuses (s : State) (m : NetMsg) : (send s m).fuses = s.fuses := rfl
@[simp] theorem send_fw (s : State) (m : NetMsg) : (send s m).fw = s.fw := rfl
@[simp] theorem send_carillon (s : State) (m : NetMsg) : (send s m).carillon = s.carillon := rfl
@[simp] theorem send_sec (s : State) (m : NetMsg) : (send s m).sec = s.sec := rfl
@[simp] theorem send_power (s : State) (m : NetMsg) : (send s m).power = s.power := rfl
@[simp] theorem send_thermal (s : State) (m : NetMsg) : (send s m).thermal = s.thermal := rfl
@[simp] theorem send_islands (s : State) (m : NetMsg) : (send s m).islands = s.islands := rfl
@[simp] theorem send_bist (s : State) (m : NetMsg) : (send s m).bist = s.bist := rfl
@[simp] theorem send_pealCores (s : State) (m : NetMsg) : (send s m).pealCores = s.pealCores := rfl
@[simp] theorem send_pealBad (s : State) (m : NetMsg) : (send s m).pealBad = s.pealBad := rfl
@[simp] theorem send_setOps (s : State) (m : NetMsg) : (send s m).setOps = s.setOps := rfl
@[simp] theorem send_dump (s : State) (m : NetMsg) : (send s m).dump = s.dump := rfl
@[simp] theorem send_engines (s : State) (m : NetMsg) : (send s m).engines = s.engines := rfl
@[simp] theorem send_retPorts (s : State) (m : NetMsg) : (send s m).retPorts = s.retPorts := rfl
@[simp] theorem send_s6Us (s : State) (m : NetMsg) : (send s m).s6Us = s.s6Us := rfl
@[simp] theorem send_fieldCores (s : State) (m : NetMsg) : (send s m).fieldCores = s.fieldCores := rfl
@[simp] theorem send_fieldSlices (s : State) (m : NetMsg) : (send s m).fieldSlices = s.fieldSlices := rfl
@[simp] theorem send_fieldDirty (s : State) (m : NetMsg) : (send s m).fieldDirty = s.fieldDirty := rfl
@[simp] theorem send_retention (s : State) (m : NetMsg) : (send s m).retention = s.retention := rfl
@[simp] theorem send_retEvents (s : State) (m : NetMsg) : (send s m).retEvents = s.retEvents := rfl
@[simp] theorem send_bootRetried (s : State) (m : NetMsg) : (send s m).bootRetried = s.bootRetried := rfl
@[simp] theorem send_chipAtS2 (s : State) (m : NetMsg) : (send s m).chipAtS2 = s.chipAtS2 := rfl
@[simp] theorem send_flr (s : State) (m : NetMsg) : (send s m).flr = s.flr := rfl
@[simp] theorem send_timeHi (s : State) (m : NetMsg) : (send s m).timeHi = s.timeHi := rfl
@[simp] theorem send_brgOut (s : State) (m : NetMsg) : (send s m).brgOut = s.brgOut := rfl
@[simp] theorem send_brgRestrict (s : State) (m : NetMsg) : (send s m).brgRestrict = s.brgRestrict := rfl
@[simp] theorem send_brgReplays (s : State) (m : NetMsg) : (send s m).brgReplays = s.brgReplays := rfl
@[simp] theorem send_scrub (s : State) (m : NetMsg) : (send s m).scrub = s.scrub := rfl
@[simp] theorem send_zeroAt (s : State) (m : NetMsg) : (send s m).zeroAt = s.zeroAt := rfl

@[simp] theorem deliver_pending (s : State) (m : NetMsg) : (deliver s m).pending = s.pending := rfl
@[simp] theorem deliver_out (s : State) (m : NetMsg) : (deliver s m).out = s.out := rfl
@[simp] theorem deliver_us (s : State) (m : NetMsg) : (deliver s m).us = s.us := rfl
@[simp] theorem deliver_draws (s : State) (m : NetMsg) : (deliver s m).draws = s.draws := rfl
@[simp] theorem deliver_regs (s : State) (m : NetMsg) : (deliver s m).regs = s.regs := rfl
@[simp] theorem deliver_mem (s : State) (m : NetMsg) : (deliver s m).mem = s.mem := rfl
@[simp] theorem deliver_poison (s : State) (m : NetMsg) : (deliver s m).poison = s.poison := rfl
@[simp] theorem deliver_split (s : State) (m : NetMsg) : (deliver s m).split = s.split := rfl
@[simp] theorem deliver_cores (s : State) (m : NetMsg) : (deliver s m).cores = s.cores := rfl
@[simp] theorem deliver_clusters (s : State) (m : NetMsg) : (deliver s m).clusters = s.clusters := rfl
@[simp] theorem deliver_gong (s : State) (m : NetMsg) : (deliver s m).gong = s.gong := rfl
@[simp] theorem deliver_host (s : State) (m : NetMsg) : (deliver s m).host = s.host := rfl
@[simp] theorem deliver_reqPart (s : State) (m : NetMsg) : (deliver s m).reqPart = s.reqPart := rfl
@[simp] theorem deliver_reqChip (s : State) (m : NetMsg) : (deliver s m).reqChip = s.reqChip := rfl
@[simp] theorem deliver_partReset (s : State) (m : NetMsg) : (deliver s m).partReset = s.partReset := rfl
@[simp] theorem deliver_chipReset (s : State) (m : NetMsg) : (deliver s m).chipReset = s.chipReset := rfl
@[simp] theorem deliver_heldInts (s : State) (m : NetMsg) : (deliver s m).heldInts = s.heldInts := rfl
@[simp] theorem deliver_evq (s : State) (m : NetMsg) : (deliver s m).evq = s.evq := rfl
@[simp] theorem deliver_evCount (s : State) (m : NetMsg) : (deliver s m).evCount = s.evCount := rfl
@[simp] theorem deliver_evOverflow (s : State) (m : NetMsg) : (deliver s m).evOverflow = s.evOverflow := rfl
@[simp] theorem deliver_rowErrs (s : State) (m : NetMsg) : (deliver s m).rowErrs = s.rowErrs := rfl
@[simp] theorem deliver_rowsPerm (s : State) (m : NetMsg) : (deliver s m).rowsPerm = s.rowsPerm := rfl
@[simp] theorem deliver_rowPgs (s : State) (m : NetMsg) : (deliver s m).rowPgs = s.rowPgs := rfl
@[simp] theorem deliver_pprQueue (s : State) (m : NetMsg) : (deliver s m).pprQueue = s.pprQueue := rfl
@[simp] theorem deliver_pprUsed (s : State) (m : NetMsg) : (deliver s m).pprUsed = s.pprUsed := rfl
@[simp] theorem deliver_caFails (s : State) (m : NetMsg) : (deliver s m).caFails = s.caFails := rfl
@[simp] theorem deliver_pcDead (s : State) (m : NetMsg) : (deliver s m).pcDead = s.pcDead := rfl
@[simp] theorem deliver_stgErrs (s : State) (m : NetMsg) : (deliver s m).stgErrs = s.stgErrs := rfl
@[simp] theorem deliver_stgSpares (s : State) (m : NetMsg) : (deliver s m).stgSpares = s.stgSpares := rfl
@[simp] theorem deliver_stgRowsPerm (s : State) (m : NetMsg) : (deliver s m).stgRowsPerm = s.stgRowsPerm := rfl
@[simp] theorem deliver_stgSubst (s : State) (m : NetMsg) : (deliver s m).stgSubst = s.stgSubst := rfl
@[simp] theorem deliver_keysErased (s : State) (m : NetMsg) : (deliver s m).keysErased = s.keysErased := rfl
@[simp] theorem deliver_pools (s : State) (m : NetMsg) : (deliver s m).pools = s.pools := rfl
@[simp] theorem deliver_grants (s : State) (m : NetMsg) : (deliver s m).grants = s.grants := rfl
@[simp] theorem deliver_grantReqs (s : State) (m : NetMsg) : (deliver s m).grantReqs = s.grantReqs := rfl
@[simp] theorem deliver_poolAsked (s : State) (m : NetMsg) : (deliver s m).poolAsked = s.poolAsked := rfl
@[simp] theorem deliver_fastCap (s : State) (m : NetMsg) : (deliver s m).fastCap = s.fastCap := rfl
@[simp] theorem deliver_ports (s : State) (m : NetMsg) : (deliver s m).ports = s.ports := rfl
@[simp] theorem deliver_fb (s : State) (m : NetMsg) : (deliver s m).fb = s.fb := rfl
@[simp] theorem deliver_peers (s : State) (m : NetMsg) : (deliver s m).peers = s.peers := rfl
@[simp] theorem deliver_roll (s : State) (m : NetMsg) : (deliver s m).roll = s.roll := rfl
@[simp] theorem deliver_mgtIdx (s : State) (m : NetMsg) : (deliver s m).mgtIdx = s.mgtIdx := rfl
@[simp] theorem deliver_mcCfg (s : State) (m : NetMsg) : (deliver s m).mcCfg = s.mcCfg := rfl
@[simp] theorem deliver_mcCheck (s : State) (m : NetMsg) : (deliver s m).mcCheck = s.mcCheck := rfl
@[simp] theorem deliver_mcMember (s : State) (m : NetMsg) : (deliver s m).mcMember = s.mcMember := rfl
@[simp] theorem deliver_mcKey (s : State) (m : NetMsg) : (deliver s m).mcKey = s.mcKey := rfl
@[simp] theorem deliver_mcFseq (s : State) (m : NetMsg) : (deliver s m).mcFseq = s.mcFseq := rfl
@[simp] theorem deliver_mcSends (s : State) (m : NetMsg) : (deliver s m).mcSends = s.mcSends := rfl
@[simp] theorem deliver_heldPkts (s : State) (m : NetMsg) : (deliver s m).heldPkts = s.heldPkts := rfl
@[simp] theorem deliver_destRecs (s : State) (m : NetMsg) : (deliver s m).destRecs = s.destRecs := rfl
@[simp] theorem deliver_epoch (s : State) (m : NetMsg) : (deliver s m).epoch = s.epoch := rfl
@[simp] theorem deliver_prevEpoch (s : State) (m : NetMsg) : (deliver s m).prevEpoch = s.prevEpoch := rfl
@[simp] theorem deliver_epochPeers (s : State) (m : NetMsg) : (deliver s m).epochPeers = s.epochPeers := rfl
@[simp] theorem deliver_nonce (s : State) (m : NetMsg) : (deliver s m).nonce = s.nonce := rfl
@[simp] theorem deliver_fabKeys (s : State) (m : NetMsg) : (deliver s m).fabKeys = s.fabKeys := rfl
@[simp] theorem deliver_resid (s : State) (m : NetMsg) : (deliver s m).resid = s.resid := rfl
@[simp] theorem deliver_ctxResets (s : State) (m : NetMsg) : (deliver s m).ctxResets = s.ctxResets := rfl
@[simp] theorem deliver_fuses (s : State) (m : NetMsg) : (deliver s m).fuses = s.fuses := rfl
@[simp] theorem deliver_fw (s : State) (m : NetMsg) : (deliver s m).fw = s.fw := rfl
@[simp] theorem deliver_carillon (s : State) (m : NetMsg) : (deliver s m).carillon = s.carillon := rfl
@[simp] theorem deliver_sec (s : State) (m : NetMsg) : (deliver s m).sec = s.sec := rfl
@[simp] theorem deliver_power (s : State) (m : NetMsg) : (deliver s m).power = s.power := rfl
@[simp] theorem deliver_thermal (s : State) (m : NetMsg) : (deliver s m).thermal = s.thermal := rfl
@[simp] theorem deliver_islands (s : State) (m : NetMsg) : (deliver s m).islands = s.islands := rfl
@[simp] theorem deliver_bist (s : State) (m : NetMsg) : (deliver s m).bist = s.bist := rfl
@[simp] theorem deliver_pealCores (s : State) (m : NetMsg) : (deliver s m).pealCores = s.pealCores := rfl
@[simp] theorem deliver_pealBad (s : State) (m : NetMsg) : (deliver s m).pealBad = s.pealBad := rfl
@[simp] theorem deliver_setOps (s : State) (m : NetMsg) : (deliver s m).setOps = s.setOps := rfl
@[simp] theorem deliver_dump (s : State) (m : NetMsg) : (deliver s m).dump = s.dump := rfl
@[simp] theorem deliver_engines (s : State) (m : NetMsg) : (deliver s m).engines = s.engines := rfl
@[simp] theorem deliver_retPorts (s : State) (m : NetMsg) : (deliver s m).retPorts = s.retPorts := rfl
@[simp] theorem deliver_s6Us (s : State) (m : NetMsg) : (deliver s m).s6Us = s.s6Us := rfl
@[simp] theorem deliver_fieldCores (s : State) (m : NetMsg) : (deliver s m).fieldCores = s.fieldCores := rfl
@[simp] theorem deliver_fieldSlices (s : State) (m : NetMsg) : (deliver s m).fieldSlices = s.fieldSlices := rfl
@[simp] theorem deliver_fieldDirty (s : State) (m : NetMsg) : (deliver s m).fieldDirty = s.fieldDirty := rfl
@[simp] theorem deliver_retention (s : State) (m : NetMsg) : (deliver s m).retention = s.retention := rfl
@[simp] theorem deliver_retEvents (s : State) (m : NetMsg) : (deliver s m).retEvents = s.retEvents := rfl
@[simp] theorem deliver_bootRetried (s : State) (m : NetMsg) : (deliver s m).bootRetried = s.bootRetried := rfl
@[simp] theorem deliver_chipAtS2 (s : State) (m : NetMsg) : (deliver s m).chipAtS2 = s.chipAtS2 := rfl
@[simp] theorem deliver_flr (s : State) (m : NetMsg) : (deliver s m).flr = s.flr := rfl
@[simp] theorem deliver_timeHi (s : State) (m : NetMsg) : (deliver s m).timeHi = s.timeHi := rfl
@[simp] theorem deliver_brgOut (s : State) (m : NetMsg) : (deliver s m).brgOut = s.brgOut := rfl
@[simp] theorem deliver_brgRestrict (s : State) (m : NetMsg) : (deliver s m).brgRestrict = s.brgRestrict := rfl
@[simp] theorem deliver_brgReplays (s : State) (m : NetMsg) : (deliver s m).brgReplays = s.brgReplays := rfl
@[simp] theorem deliver_scrub (s : State) (m : NetMsg) : (deliver s m).scrub = s.scrub := rfl
@[simp] theorem deliver_zeroAt (s : State) (m : NetMsg) : (deliver s m).zeroAt = s.zeroAt := rfl

@[simp] theorem modCore_pending (s : State) (n : Nat) (f : Core → Core) : (modCore s n f).pending = s.pending := rfl
@[simp] theorem modCore_out (s : State) (n : Nat) (f : Core → Core) : (modCore s n f).out = s.out := rfl
@[simp] theorem modCore_net (s : State) (n : Nat) (f : Core → Core) : (modCore s n f).net = s.net := rfl
@[simp] theorem modCore_us (s : State) (n : Nat) (f : Core → Core) : (modCore s n f).us = s.us := rfl
@[simp] theorem modCore_draws (s : State) (n : Nat) (f : Core → Core) : (modCore s n f).draws = s.draws := rfl
@[simp] theorem modCore_regs (s : State) (n : Nat) (f : Core → Core) : (modCore s n f).regs = s.regs := rfl
@[simp] theorem modCore_mem (s : State) (n : Nat) (f : Core → Core) : (modCore s n f).mem = s.mem := rfl
@[simp] theorem modCore_poison (s : State) (n : Nat) (f : Core → Core) : (modCore s n f).poison = s.poison := rfl
@[simp] theorem modCore_split (s : State) (n : Nat) (f : Core → Core) : (modCore s n f).split = s.split := rfl
@[simp] theorem modCore_clusters (s : State) (n : Nat) (f : Core → Core) : (modCore s n f).clusters = s.clusters := rfl
@[simp] theorem modCore_gong (s : State) (n : Nat) (f : Core → Core) : (modCore s n f).gong = s.gong := rfl
@[simp] theorem modCore_host (s : State) (n : Nat) (f : Core → Core) : (modCore s n f).host = s.host := rfl
@[simp] theorem modCore_reqPart (s : State) (n : Nat) (f : Core → Core) : (modCore s n f).reqPart = s.reqPart := rfl
@[simp] theorem modCore_reqChip (s : State) (n : Nat) (f : Core → Core) : (modCore s n f).reqChip = s.reqChip := rfl
@[simp] theorem modCore_partReset (s : State) (n : Nat) (f : Core → Core) : (modCore s n f).partReset = s.partReset := rfl
@[simp] theorem modCore_chipReset (s : State) (n : Nat) (f : Core → Core) : (modCore s n f).chipReset = s.chipReset := rfl
@[simp] theorem modCore_heldInts (s : State) (n : Nat) (f : Core → Core) : (modCore s n f).heldInts = s.heldInts := rfl
@[simp] theorem modCore_evq (s : State) (n : Nat) (f : Core → Core) : (modCore s n f).evq = s.evq := rfl
@[simp] theorem modCore_evCount (s : State) (n : Nat) (f : Core → Core) : (modCore s n f).evCount = s.evCount := rfl
@[simp] theorem modCore_evOverflow (s : State) (n : Nat) (f : Core → Core) : (modCore s n f).evOverflow = s.evOverflow := rfl
@[simp] theorem modCore_rowErrs (s : State) (n : Nat) (f : Core → Core) : (modCore s n f).rowErrs = s.rowErrs := rfl
@[simp] theorem modCore_rowsPerm (s : State) (n : Nat) (f : Core → Core) : (modCore s n f).rowsPerm = s.rowsPerm := rfl
@[simp] theorem modCore_rowPgs (s : State) (n : Nat) (f : Core → Core) : (modCore s n f).rowPgs = s.rowPgs := rfl
@[simp] theorem modCore_pprQueue (s : State) (n : Nat) (f : Core → Core) : (modCore s n f).pprQueue = s.pprQueue := rfl
@[simp] theorem modCore_pprUsed (s : State) (n : Nat) (f : Core → Core) : (modCore s n f).pprUsed = s.pprUsed := rfl
@[simp] theorem modCore_caFails (s : State) (n : Nat) (f : Core → Core) : (modCore s n f).caFails = s.caFails := rfl
@[simp] theorem modCore_pcDead (s : State) (n : Nat) (f : Core → Core) : (modCore s n f).pcDead = s.pcDead := rfl
@[simp] theorem modCore_stgErrs (s : State) (n : Nat) (f : Core → Core) : (modCore s n f).stgErrs = s.stgErrs := rfl
@[simp] theorem modCore_stgSpares (s : State) (n : Nat) (f : Core → Core) : (modCore s n f).stgSpares = s.stgSpares := rfl
@[simp] theorem modCore_stgRowsPerm (s : State) (n : Nat) (f : Core → Core) : (modCore s n f).stgRowsPerm = s.stgRowsPerm := rfl
@[simp] theorem modCore_stgSubst (s : State) (n : Nat) (f : Core → Core) : (modCore s n f).stgSubst = s.stgSubst := rfl
@[simp] theorem modCore_keysErased (s : State) (n : Nat) (f : Core → Core) : (modCore s n f).keysErased = s.keysErased := rfl
@[simp] theorem modCore_pools (s : State) (n : Nat) (f : Core → Core) : (modCore s n f).pools = s.pools := rfl
@[simp] theorem modCore_grants (s : State) (n : Nat) (f : Core → Core) : (modCore s n f).grants = s.grants := rfl
@[simp] theorem modCore_grantReqs (s : State) (n : Nat) (f : Core → Core) : (modCore s n f).grantReqs = s.grantReqs := rfl
@[simp] theorem modCore_poolAsked (s : State) (n : Nat) (f : Core → Core) : (modCore s n f).poolAsked = s.poolAsked := rfl
@[simp] theorem modCore_fastCap (s : State) (n : Nat) (f : Core → Core) : (modCore s n f).fastCap = s.fastCap := rfl
@[simp] theorem modCore_ports (s : State) (n : Nat) (f : Core → Core) : (modCore s n f).ports = s.ports := rfl
@[simp] theorem modCore_fb (s : State) (n : Nat) (f : Core → Core) : (modCore s n f).fb = s.fb := rfl
@[simp] theorem modCore_peers (s : State) (n : Nat) (f : Core → Core) : (modCore s n f).peers = s.peers := rfl
@[simp] theorem modCore_roll (s : State) (n : Nat) (f : Core → Core) : (modCore s n f).roll = s.roll := rfl
@[simp] theorem modCore_mgtIdx (s : State) (n : Nat) (f : Core → Core) : (modCore s n f).mgtIdx = s.mgtIdx := rfl
@[simp] theorem modCore_mcCfg (s : State) (n : Nat) (f : Core → Core) : (modCore s n f).mcCfg = s.mcCfg := rfl
@[simp] theorem modCore_mcCheck (s : State) (n : Nat) (f : Core → Core) : (modCore s n f).mcCheck = s.mcCheck := rfl
@[simp] theorem modCore_mcMember (s : State) (n : Nat) (f : Core → Core) : (modCore s n f).mcMember = s.mcMember := rfl
@[simp] theorem modCore_mcKey (s : State) (n : Nat) (f : Core → Core) : (modCore s n f).mcKey = s.mcKey := rfl
@[simp] theorem modCore_mcFseq (s : State) (n : Nat) (f : Core → Core) : (modCore s n f).mcFseq = s.mcFseq := rfl
@[simp] theorem modCore_mcSends (s : State) (n : Nat) (f : Core → Core) : (modCore s n f).mcSends = s.mcSends := rfl
@[simp] theorem modCore_heldPkts (s : State) (n : Nat) (f : Core → Core) : (modCore s n f).heldPkts = s.heldPkts := rfl
@[simp] theorem modCore_destRecs (s : State) (n : Nat) (f : Core → Core) : (modCore s n f).destRecs = s.destRecs := rfl
@[simp] theorem modCore_epoch (s : State) (n : Nat) (f : Core → Core) : (modCore s n f).epoch = s.epoch := rfl
@[simp] theorem modCore_prevEpoch (s : State) (n : Nat) (f : Core → Core) : (modCore s n f).prevEpoch = s.prevEpoch := rfl
@[simp] theorem modCore_epochPeers (s : State) (n : Nat) (f : Core → Core) : (modCore s n f).epochPeers = s.epochPeers := rfl
@[simp] theorem modCore_nonce (s : State) (n : Nat) (f : Core → Core) : (modCore s n f).nonce = s.nonce := rfl
@[simp] theorem modCore_fabKeys (s : State) (n : Nat) (f : Core → Core) : (modCore s n f).fabKeys = s.fabKeys := rfl
@[simp] theorem modCore_resid (s : State) (n : Nat) (f : Core → Core) : (modCore s n f).resid = s.resid := rfl
@[simp] theorem modCore_ctxResets (s : State) (n : Nat) (f : Core → Core) : (modCore s n f).ctxResets = s.ctxResets := rfl
@[simp] theorem modCore_fuses (s : State) (n : Nat) (f : Core → Core) : (modCore s n f).fuses = s.fuses := rfl
@[simp] theorem modCore_fw (s : State) (n : Nat) (f : Core → Core) : (modCore s n f).fw = s.fw := rfl
@[simp] theorem modCore_carillon (s : State) (n : Nat) (f : Core → Core) : (modCore s n f).carillon = s.carillon := rfl
@[simp] theorem modCore_sec (s : State) (n : Nat) (f : Core → Core) : (modCore s n f).sec = s.sec := rfl
@[simp] theorem modCore_power (s : State) (n : Nat) (f : Core → Core) : (modCore s n f).power = s.power := rfl
@[simp] theorem modCore_thermal (s : State) (n : Nat) (f : Core → Core) : (modCore s n f).thermal = s.thermal := rfl
@[simp] theorem modCore_islands (s : State) (n : Nat) (f : Core → Core) : (modCore s n f).islands = s.islands := rfl
@[simp] theorem modCore_bist (s : State) (n : Nat) (f : Core → Core) : (modCore s n f).bist = s.bist := rfl
@[simp] theorem modCore_pealCores (s : State) (n : Nat) (f : Core → Core) : (modCore s n f).pealCores = s.pealCores := rfl
@[simp] theorem modCore_pealBad (s : State) (n : Nat) (f : Core → Core) : (modCore s n f).pealBad = s.pealBad := rfl
@[simp] theorem modCore_setOps (s : State) (n : Nat) (f : Core → Core) : (modCore s n f).setOps = s.setOps := rfl
@[simp] theorem modCore_dump (s : State) (n : Nat) (f : Core → Core) : (modCore s n f).dump = s.dump := rfl
@[simp] theorem modCore_engines (s : State) (n : Nat) (f : Core → Core) : (modCore s n f).engines = s.engines := rfl
@[simp] theorem modCore_retPorts (s : State) (n : Nat) (f : Core → Core) : (modCore s n f).retPorts = s.retPorts := rfl
@[simp] theorem modCore_s6Us (s : State) (n : Nat) (f : Core → Core) : (modCore s n f).s6Us = s.s6Us := rfl
@[simp] theorem modCore_fieldCores (s : State) (n : Nat) (f : Core → Core) : (modCore s n f).fieldCores = s.fieldCores := rfl
@[simp] theorem modCore_fieldSlices (s : State) (n : Nat) (f : Core → Core) : (modCore s n f).fieldSlices = s.fieldSlices := rfl
@[simp] theorem modCore_fieldDirty (s : State) (n : Nat) (f : Core → Core) : (modCore s n f).fieldDirty = s.fieldDirty := rfl
@[simp] theorem modCore_retention (s : State) (n : Nat) (f : Core → Core) : (modCore s n f).retention = s.retention := rfl
@[simp] theorem modCore_retEvents (s : State) (n : Nat) (f : Core → Core) : (modCore s n f).retEvents = s.retEvents := rfl
@[simp] theorem modCore_bootRetried (s : State) (n : Nat) (f : Core → Core) : (modCore s n f).bootRetried = s.bootRetried := rfl
@[simp] theorem modCore_chipAtS2 (s : State) (n : Nat) (f : Core → Core) : (modCore s n f).chipAtS2 = s.chipAtS2 := rfl
@[simp] theorem modCore_flr (s : State) (n : Nat) (f : Core → Core) : (modCore s n f).flr = s.flr := rfl
@[simp] theorem modCore_timeHi (s : State) (n : Nat) (f : Core → Core) : (modCore s n f).timeHi = s.timeHi := rfl
@[simp] theorem modCore_brgOut (s : State) (n : Nat) (f : Core → Core) : (modCore s n f).brgOut = s.brgOut := rfl
@[simp] theorem modCore_brgRestrict (s : State) (n : Nat) (f : Core → Core) : (modCore s n f).brgRestrict = s.brgRestrict := rfl
@[simp] theorem modCore_brgReplays (s : State) (n : Nat) (f : Core → Core) : (modCore s n f).brgReplays = s.brgReplays := rfl
@[simp] theorem modCore_scrub (s : State) (n : Nat) (f : Core → Core) : (modCore s n f).scrub = s.scrub := rfl
@[simp] theorem modCore_zeroAt (s : State) (n : Nat) (f : Core → Core) : (modCore s n f).zeroAt = s.zeroAt := rfl

@[simp] theorem modSlot_pending (s : State) (n k : Nat) (f : Slot → Slot) : (modSlot s n k f).pending = s.pending := rfl
@[simp] theorem modSlot_out (s : State) (n k : Nat) (f : Slot → Slot) : (modSlot s n k f).out = s.out := rfl
@[simp] theorem modSlot_net (s : State) (n k : Nat) (f : Slot → Slot) : (modSlot s n k f).net = s.net := rfl
@[simp] theorem modSlot_us (s : State) (n k : Nat) (f : Slot → Slot) : (modSlot s n k f).us = s.us := rfl
@[simp] theorem modSlot_draws (s : State) (n k : Nat) (f : Slot → Slot) : (modSlot s n k f).draws = s.draws := rfl
@[simp] theorem modSlot_regs (s : State) (n k : Nat) (f : Slot → Slot) : (modSlot s n k f).regs = s.regs := rfl
@[simp] theorem modSlot_mem (s : State) (n k : Nat) (f : Slot → Slot) : (modSlot s n k f).mem = s.mem := rfl
@[simp] theorem modSlot_poison (s : State) (n k : Nat) (f : Slot → Slot) : (modSlot s n k f).poison = s.poison := rfl
@[simp] theorem modSlot_split (s : State) (n k : Nat) (f : Slot → Slot) : (modSlot s n k f).split = s.split := rfl
@[simp] theorem modSlot_clusters (s : State) (n k : Nat) (f : Slot → Slot) : (modSlot s n k f).clusters = s.clusters := rfl
@[simp] theorem modSlot_gong (s : State) (n k : Nat) (f : Slot → Slot) : (modSlot s n k f).gong = s.gong := rfl
@[simp] theorem modSlot_host (s : State) (n k : Nat) (f : Slot → Slot) : (modSlot s n k f).host = s.host := rfl
@[simp] theorem modSlot_reqPart (s : State) (n k : Nat) (f : Slot → Slot) : (modSlot s n k f).reqPart = s.reqPart := rfl
@[simp] theorem modSlot_reqChip (s : State) (n k : Nat) (f : Slot → Slot) : (modSlot s n k f).reqChip = s.reqChip := rfl
@[simp] theorem modSlot_partReset (s : State) (n k : Nat) (f : Slot → Slot) : (modSlot s n k f).partReset = s.partReset := rfl
@[simp] theorem modSlot_chipReset (s : State) (n k : Nat) (f : Slot → Slot) : (modSlot s n k f).chipReset = s.chipReset := rfl
@[simp] theorem modSlot_heldInts (s : State) (n k : Nat) (f : Slot → Slot) : (modSlot s n k f).heldInts = s.heldInts := rfl
@[simp] theorem modSlot_evq (s : State) (n k : Nat) (f : Slot → Slot) : (modSlot s n k f).evq = s.evq := rfl
@[simp] theorem modSlot_evCount (s : State) (n k : Nat) (f : Slot → Slot) : (modSlot s n k f).evCount = s.evCount := rfl
@[simp] theorem modSlot_evOverflow (s : State) (n k : Nat) (f : Slot → Slot) : (modSlot s n k f).evOverflow = s.evOverflow := rfl
@[simp] theorem modSlot_rowErrs (s : State) (n k : Nat) (f : Slot → Slot) : (modSlot s n k f).rowErrs = s.rowErrs := rfl
@[simp] theorem modSlot_rowsPerm (s : State) (n k : Nat) (f : Slot → Slot) : (modSlot s n k f).rowsPerm = s.rowsPerm := rfl
@[simp] theorem modSlot_rowPgs (s : State) (n k : Nat) (f : Slot → Slot) : (modSlot s n k f).rowPgs = s.rowPgs := rfl
@[simp] theorem modSlot_pprQueue (s : State) (n k : Nat) (f : Slot → Slot) : (modSlot s n k f).pprQueue = s.pprQueue := rfl
@[simp] theorem modSlot_pprUsed (s : State) (n k : Nat) (f : Slot → Slot) : (modSlot s n k f).pprUsed = s.pprUsed := rfl
@[simp] theorem modSlot_caFails (s : State) (n k : Nat) (f : Slot → Slot) : (modSlot s n k f).caFails = s.caFails := rfl
@[simp] theorem modSlot_pcDead (s : State) (n k : Nat) (f : Slot → Slot) : (modSlot s n k f).pcDead = s.pcDead := rfl
@[simp] theorem modSlot_stgErrs (s : State) (n k : Nat) (f : Slot → Slot) : (modSlot s n k f).stgErrs = s.stgErrs := rfl
@[simp] theorem modSlot_stgSpares (s : State) (n k : Nat) (f : Slot → Slot) : (modSlot s n k f).stgSpares = s.stgSpares := rfl
@[simp] theorem modSlot_stgRowsPerm (s : State) (n k : Nat) (f : Slot → Slot) : (modSlot s n k f).stgRowsPerm = s.stgRowsPerm := rfl
@[simp] theorem modSlot_stgSubst (s : State) (n k : Nat) (f : Slot → Slot) : (modSlot s n k f).stgSubst = s.stgSubst := rfl
@[simp] theorem modSlot_keysErased (s : State) (n k : Nat) (f : Slot → Slot) : (modSlot s n k f).keysErased = s.keysErased := rfl
@[simp] theorem modSlot_pools (s : State) (n k : Nat) (f : Slot → Slot) : (modSlot s n k f).pools = s.pools := rfl
@[simp] theorem modSlot_grants (s : State) (n k : Nat) (f : Slot → Slot) : (modSlot s n k f).grants = s.grants := rfl
@[simp] theorem modSlot_grantReqs (s : State) (n k : Nat) (f : Slot → Slot) : (modSlot s n k f).grantReqs = s.grantReqs := rfl
@[simp] theorem modSlot_poolAsked (s : State) (n k : Nat) (f : Slot → Slot) : (modSlot s n k f).poolAsked = s.poolAsked := rfl
@[simp] theorem modSlot_fastCap (s : State) (n k : Nat) (f : Slot → Slot) : (modSlot s n k f).fastCap = s.fastCap := rfl
@[simp] theorem modSlot_ports (s : State) (n k : Nat) (f : Slot → Slot) : (modSlot s n k f).ports = s.ports := rfl
@[simp] theorem modSlot_fb (s : State) (n k : Nat) (f : Slot → Slot) : (modSlot s n k f).fb = s.fb := rfl
@[simp] theorem modSlot_peers (s : State) (n k : Nat) (f : Slot → Slot) : (modSlot s n k f).peers = s.peers := rfl
@[simp] theorem modSlot_roll (s : State) (n k : Nat) (f : Slot → Slot) : (modSlot s n k f).roll = s.roll := rfl
@[simp] theorem modSlot_mgtIdx (s : State) (n k : Nat) (f : Slot → Slot) : (modSlot s n k f).mgtIdx = s.mgtIdx := rfl
@[simp] theorem modSlot_mcCfg (s : State) (n k : Nat) (f : Slot → Slot) : (modSlot s n k f).mcCfg = s.mcCfg := rfl
@[simp] theorem modSlot_mcCheck (s : State) (n k : Nat) (f : Slot → Slot) : (modSlot s n k f).mcCheck = s.mcCheck := rfl
@[simp] theorem modSlot_mcMember (s : State) (n k : Nat) (f : Slot → Slot) : (modSlot s n k f).mcMember = s.mcMember := rfl
@[simp] theorem modSlot_mcKey (s : State) (n k : Nat) (f : Slot → Slot) : (modSlot s n k f).mcKey = s.mcKey := rfl
@[simp] theorem modSlot_mcFseq (s : State) (n k : Nat) (f : Slot → Slot) : (modSlot s n k f).mcFseq = s.mcFseq := rfl
@[simp] theorem modSlot_mcSends (s : State) (n k : Nat) (f : Slot → Slot) : (modSlot s n k f).mcSends = s.mcSends := rfl
@[simp] theorem modSlot_heldPkts (s : State) (n k : Nat) (f : Slot → Slot) : (modSlot s n k f).heldPkts = s.heldPkts := rfl
@[simp] theorem modSlot_destRecs (s : State) (n k : Nat) (f : Slot → Slot) : (modSlot s n k f).destRecs = s.destRecs := rfl
@[simp] theorem modSlot_epoch (s : State) (n k : Nat) (f : Slot → Slot) : (modSlot s n k f).epoch = s.epoch := rfl
@[simp] theorem modSlot_prevEpoch (s : State) (n k : Nat) (f : Slot → Slot) : (modSlot s n k f).prevEpoch = s.prevEpoch := rfl
@[simp] theorem modSlot_epochPeers (s : State) (n k : Nat) (f : Slot → Slot) : (modSlot s n k f).epochPeers = s.epochPeers := rfl
@[simp] theorem modSlot_nonce (s : State) (n k : Nat) (f : Slot → Slot) : (modSlot s n k f).nonce = s.nonce := rfl
@[simp] theorem modSlot_fabKeys (s : State) (n k : Nat) (f : Slot → Slot) : (modSlot s n k f).fabKeys = s.fabKeys := rfl
@[simp] theorem modSlot_resid (s : State) (n k : Nat) (f : Slot → Slot) : (modSlot s n k f).resid = s.resid := rfl
@[simp] theorem modSlot_ctxResets (s : State) (n k : Nat) (f : Slot → Slot) : (modSlot s n k f).ctxResets = s.ctxResets := rfl
@[simp] theorem modSlot_fuses (s : State) (n k : Nat) (f : Slot → Slot) : (modSlot s n k f).fuses = s.fuses := rfl
@[simp] theorem modSlot_fw (s : State) (n k : Nat) (f : Slot → Slot) : (modSlot s n k f).fw = s.fw := rfl
@[simp] theorem modSlot_carillon (s : State) (n k : Nat) (f : Slot → Slot) : (modSlot s n k f).carillon = s.carillon := rfl
@[simp] theorem modSlot_sec (s : State) (n k : Nat) (f : Slot → Slot) : (modSlot s n k f).sec = s.sec := rfl
@[simp] theorem modSlot_power (s : State) (n k : Nat) (f : Slot → Slot) : (modSlot s n k f).power = s.power := rfl
@[simp] theorem modSlot_thermal (s : State) (n k : Nat) (f : Slot → Slot) : (modSlot s n k f).thermal = s.thermal := rfl
@[simp] theorem modSlot_islands (s : State) (n k : Nat) (f : Slot → Slot) : (modSlot s n k f).islands = s.islands := rfl
@[simp] theorem modSlot_bist (s : State) (n k : Nat) (f : Slot → Slot) : (modSlot s n k f).bist = s.bist := rfl
@[simp] theorem modSlot_pealCores (s : State) (n k : Nat) (f : Slot → Slot) : (modSlot s n k f).pealCores = s.pealCores := rfl
@[simp] theorem modSlot_pealBad (s : State) (n k : Nat) (f : Slot → Slot) : (modSlot s n k f).pealBad = s.pealBad := rfl
@[simp] theorem modSlot_setOps (s : State) (n k : Nat) (f : Slot → Slot) : (modSlot s n k f).setOps = s.setOps := rfl
@[simp] theorem modSlot_dump (s : State) (n k : Nat) (f : Slot → Slot) : (modSlot s n k f).dump = s.dump := rfl
@[simp] theorem modSlot_engines (s : State) (n k : Nat) (f : Slot → Slot) : (modSlot s n k f).engines = s.engines := rfl
@[simp] theorem modSlot_retPorts (s : State) (n k : Nat) (f : Slot → Slot) : (modSlot s n k f).retPorts = s.retPorts := rfl
@[simp] theorem modSlot_s6Us (s : State) (n k : Nat) (f : Slot → Slot) : (modSlot s n k f).s6Us = s.s6Us := rfl
@[simp] theorem modSlot_fieldCores (s : State) (n k : Nat) (f : Slot → Slot) : (modSlot s n k f).fieldCores = s.fieldCores := rfl
@[simp] theorem modSlot_fieldSlices (s : State) (n k : Nat) (f : Slot → Slot) : (modSlot s n k f).fieldSlices = s.fieldSlices := rfl
@[simp] theorem modSlot_fieldDirty (s : State) (n k : Nat) (f : Slot → Slot) : (modSlot s n k f).fieldDirty = s.fieldDirty := rfl
@[simp] theorem modSlot_retention (s : State) (n k : Nat) (f : Slot → Slot) : (modSlot s n k f).retention = s.retention := rfl
@[simp] theorem modSlot_retEvents (s : State) (n k : Nat) (f : Slot → Slot) : (modSlot s n k f).retEvents = s.retEvents := rfl
@[simp] theorem modSlot_bootRetried (s : State) (n k : Nat) (f : Slot → Slot) : (modSlot s n k f).bootRetried = s.bootRetried := rfl
@[simp] theorem modSlot_chipAtS2 (s : State) (n k : Nat) (f : Slot → Slot) : (modSlot s n k f).chipAtS2 = s.chipAtS2 := rfl
@[simp] theorem modSlot_flr (s : State) (n k : Nat) (f : Slot → Slot) : (modSlot s n k f).flr = s.flr := rfl
@[simp] theorem modSlot_timeHi (s : State) (n k : Nat) (f : Slot → Slot) : (modSlot s n k f).timeHi = s.timeHi := rfl
@[simp] theorem modSlot_brgOut (s : State) (n k : Nat) (f : Slot → Slot) : (modSlot s n k f).brgOut = s.brgOut := rfl
@[simp] theorem modSlot_brgRestrict (s : State) (n k : Nat) (f : Slot → Slot) : (modSlot s n k f).brgRestrict = s.brgRestrict := rfl
@[simp] theorem modSlot_brgReplays (s : State) (n k : Nat) (f : Slot → Slot) : (modSlot s n k f).brgReplays = s.brgReplays := rfl
@[simp] theorem modSlot_scrub (s : State) (n k : Nat) (f : Slot → Slot) : (modSlot s n k f).scrub = s.scrub := rfl
@[simp] theorem modSlot_zeroAt (s : State) (n k : Nat) (f : Slot → Slot) : (modSlot s n k f).zeroAt = s.zeroAt := rfl

@[simp] theorem modStrand_pending (s : State) (n i : Nat) (f : Strand → Strand) : (modStrand s n i f).pending = s.pending := rfl
@[simp] theorem modStrand_out (s : State) (n i : Nat) (f : Strand → Strand) : (modStrand s n i f).out = s.out := rfl
@[simp] theorem modStrand_net (s : State) (n i : Nat) (f : Strand → Strand) : (modStrand s n i f).net = s.net := rfl
@[simp] theorem modStrand_us (s : State) (n i : Nat) (f : Strand → Strand) : (modStrand s n i f).us = s.us := rfl
@[simp] theorem modStrand_draws (s : State) (n i : Nat) (f : Strand → Strand) : (modStrand s n i f).draws = s.draws := rfl
@[simp] theorem modStrand_regs (s : State) (n i : Nat) (f : Strand → Strand) : (modStrand s n i f).regs = s.regs := rfl
@[simp] theorem modStrand_mem (s : State) (n i : Nat) (f : Strand → Strand) : (modStrand s n i f).mem = s.mem := rfl
@[simp] theorem modStrand_poison (s : State) (n i : Nat) (f : Strand → Strand) : (modStrand s n i f).poison = s.poison := rfl
@[simp] theorem modStrand_split (s : State) (n i : Nat) (f : Strand → Strand) : (modStrand s n i f).split = s.split := rfl
@[simp] theorem modStrand_clusters (s : State) (n i : Nat) (f : Strand → Strand) : (modStrand s n i f).clusters = s.clusters := rfl
@[simp] theorem modStrand_gong (s : State) (n i : Nat) (f : Strand → Strand) : (modStrand s n i f).gong = s.gong := rfl
@[simp] theorem modStrand_host (s : State) (n i : Nat) (f : Strand → Strand) : (modStrand s n i f).host = s.host := rfl
@[simp] theorem modStrand_reqPart (s : State) (n i : Nat) (f : Strand → Strand) : (modStrand s n i f).reqPart = s.reqPart := rfl
@[simp] theorem modStrand_reqChip (s : State) (n i : Nat) (f : Strand → Strand) : (modStrand s n i f).reqChip = s.reqChip := rfl
@[simp] theorem modStrand_partReset (s : State) (n i : Nat) (f : Strand → Strand) : (modStrand s n i f).partReset = s.partReset := rfl
@[simp] theorem modStrand_chipReset (s : State) (n i : Nat) (f : Strand → Strand) : (modStrand s n i f).chipReset = s.chipReset := rfl
@[simp] theorem modStrand_heldInts (s : State) (n i : Nat) (f : Strand → Strand) : (modStrand s n i f).heldInts = s.heldInts := rfl
@[simp] theorem modStrand_evq (s : State) (n i : Nat) (f : Strand → Strand) : (modStrand s n i f).evq = s.evq := rfl
@[simp] theorem modStrand_evCount (s : State) (n i : Nat) (f : Strand → Strand) : (modStrand s n i f).evCount = s.evCount := rfl
@[simp] theorem modStrand_evOverflow (s : State) (n i : Nat) (f : Strand → Strand) : (modStrand s n i f).evOverflow = s.evOverflow := rfl
@[simp] theorem modStrand_rowErrs (s : State) (n i : Nat) (f : Strand → Strand) : (modStrand s n i f).rowErrs = s.rowErrs := rfl
@[simp] theorem modStrand_rowsPerm (s : State) (n i : Nat) (f : Strand → Strand) : (modStrand s n i f).rowsPerm = s.rowsPerm := rfl
@[simp] theorem modStrand_rowPgs (s : State) (n i : Nat) (f : Strand → Strand) : (modStrand s n i f).rowPgs = s.rowPgs := rfl
@[simp] theorem modStrand_pprQueue (s : State) (n i : Nat) (f : Strand → Strand) : (modStrand s n i f).pprQueue = s.pprQueue := rfl
@[simp] theorem modStrand_pprUsed (s : State) (n i : Nat) (f : Strand → Strand) : (modStrand s n i f).pprUsed = s.pprUsed := rfl
@[simp] theorem modStrand_caFails (s : State) (n i : Nat) (f : Strand → Strand) : (modStrand s n i f).caFails = s.caFails := rfl
@[simp] theorem modStrand_pcDead (s : State) (n i : Nat) (f : Strand → Strand) : (modStrand s n i f).pcDead = s.pcDead := rfl
@[simp] theorem modStrand_stgErrs (s : State) (n i : Nat) (f : Strand → Strand) : (modStrand s n i f).stgErrs = s.stgErrs := rfl
@[simp] theorem modStrand_stgSpares (s : State) (n i : Nat) (f : Strand → Strand) : (modStrand s n i f).stgSpares = s.stgSpares := rfl
@[simp] theorem modStrand_stgRowsPerm (s : State) (n i : Nat) (f : Strand → Strand) : (modStrand s n i f).stgRowsPerm = s.stgRowsPerm := rfl
@[simp] theorem modStrand_stgSubst (s : State) (n i : Nat) (f : Strand → Strand) : (modStrand s n i f).stgSubst = s.stgSubst := rfl
@[simp] theorem modStrand_keysErased (s : State) (n i : Nat) (f : Strand → Strand) : (modStrand s n i f).keysErased = s.keysErased := rfl
@[simp] theorem modStrand_pools (s : State) (n i : Nat) (f : Strand → Strand) : (modStrand s n i f).pools = s.pools := rfl
@[simp] theorem modStrand_grants (s : State) (n i : Nat) (f : Strand → Strand) : (modStrand s n i f).grants = s.grants := rfl
@[simp] theorem modStrand_grantReqs (s : State) (n i : Nat) (f : Strand → Strand) : (modStrand s n i f).grantReqs = s.grantReqs := rfl
@[simp] theorem modStrand_poolAsked (s : State) (n i : Nat) (f : Strand → Strand) : (modStrand s n i f).poolAsked = s.poolAsked := rfl
@[simp] theorem modStrand_fastCap (s : State) (n i : Nat) (f : Strand → Strand) : (modStrand s n i f).fastCap = s.fastCap := rfl
@[simp] theorem modStrand_ports (s : State) (n i : Nat) (f : Strand → Strand) : (modStrand s n i f).ports = s.ports := rfl
@[simp] theorem modStrand_fb (s : State) (n i : Nat) (f : Strand → Strand) : (modStrand s n i f).fb = s.fb := rfl
@[simp] theorem modStrand_peers (s : State) (n i : Nat) (f : Strand → Strand) : (modStrand s n i f).peers = s.peers := rfl
@[simp] theorem modStrand_roll (s : State) (n i : Nat) (f : Strand → Strand) : (modStrand s n i f).roll = s.roll := rfl
@[simp] theorem modStrand_mgtIdx (s : State) (n i : Nat) (f : Strand → Strand) : (modStrand s n i f).mgtIdx = s.mgtIdx := rfl
@[simp] theorem modStrand_mcCfg (s : State) (n i : Nat) (f : Strand → Strand) : (modStrand s n i f).mcCfg = s.mcCfg := rfl
@[simp] theorem modStrand_mcCheck (s : State) (n i : Nat) (f : Strand → Strand) : (modStrand s n i f).mcCheck = s.mcCheck := rfl
@[simp] theorem modStrand_mcMember (s : State) (n i : Nat) (f : Strand → Strand) : (modStrand s n i f).mcMember = s.mcMember := rfl
@[simp] theorem modStrand_mcKey (s : State) (n i : Nat) (f : Strand → Strand) : (modStrand s n i f).mcKey = s.mcKey := rfl
@[simp] theorem modStrand_mcFseq (s : State) (n i : Nat) (f : Strand → Strand) : (modStrand s n i f).mcFseq = s.mcFseq := rfl
@[simp] theorem modStrand_mcSends (s : State) (n i : Nat) (f : Strand → Strand) : (modStrand s n i f).mcSends = s.mcSends := rfl
@[simp] theorem modStrand_heldPkts (s : State) (n i : Nat) (f : Strand → Strand) : (modStrand s n i f).heldPkts = s.heldPkts := rfl
@[simp] theorem modStrand_destRecs (s : State) (n i : Nat) (f : Strand → Strand) : (modStrand s n i f).destRecs = s.destRecs := rfl
@[simp] theorem modStrand_epoch (s : State) (n i : Nat) (f : Strand → Strand) : (modStrand s n i f).epoch = s.epoch := rfl
@[simp] theorem modStrand_prevEpoch (s : State) (n i : Nat) (f : Strand → Strand) : (modStrand s n i f).prevEpoch = s.prevEpoch := rfl
@[simp] theorem modStrand_epochPeers (s : State) (n i : Nat) (f : Strand → Strand) : (modStrand s n i f).epochPeers = s.epochPeers := rfl
@[simp] theorem modStrand_nonce (s : State) (n i : Nat) (f : Strand → Strand) : (modStrand s n i f).nonce = s.nonce := rfl
@[simp] theorem modStrand_fabKeys (s : State) (n i : Nat) (f : Strand → Strand) : (modStrand s n i f).fabKeys = s.fabKeys := rfl
@[simp] theorem modStrand_resid (s : State) (n i : Nat) (f : Strand → Strand) : (modStrand s n i f).resid = s.resid := rfl
@[simp] theorem modStrand_ctxResets (s : State) (n i : Nat) (f : Strand → Strand) : (modStrand s n i f).ctxResets = s.ctxResets := rfl
@[simp] theorem modStrand_fuses (s : State) (n i : Nat) (f : Strand → Strand) : (modStrand s n i f).fuses = s.fuses := rfl
@[simp] theorem modStrand_fw (s : State) (n i : Nat) (f : Strand → Strand) : (modStrand s n i f).fw = s.fw := rfl
@[simp] theorem modStrand_carillon (s : State) (n i : Nat) (f : Strand → Strand) : (modStrand s n i f).carillon = s.carillon := rfl
@[simp] theorem modStrand_sec (s : State) (n i : Nat) (f : Strand → Strand) : (modStrand s n i f).sec = s.sec := rfl
@[simp] theorem modStrand_power (s : State) (n i : Nat) (f : Strand → Strand) : (modStrand s n i f).power = s.power := rfl
@[simp] theorem modStrand_thermal (s : State) (n i : Nat) (f : Strand → Strand) : (modStrand s n i f).thermal = s.thermal := rfl
@[simp] theorem modStrand_islands (s : State) (n i : Nat) (f : Strand → Strand) : (modStrand s n i f).islands = s.islands := rfl
@[simp] theorem modStrand_bist (s : State) (n i : Nat) (f : Strand → Strand) : (modStrand s n i f).bist = s.bist := rfl
@[simp] theorem modStrand_pealCores (s : State) (n i : Nat) (f : Strand → Strand) : (modStrand s n i f).pealCores = s.pealCores := rfl
@[simp] theorem modStrand_pealBad (s : State) (n i : Nat) (f : Strand → Strand) : (modStrand s n i f).pealBad = s.pealBad := rfl
@[simp] theorem modStrand_setOps (s : State) (n i : Nat) (f : Strand → Strand) : (modStrand s n i f).setOps = s.setOps := rfl
@[simp] theorem modStrand_dump (s : State) (n i : Nat) (f : Strand → Strand) : (modStrand s n i f).dump = s.dump := rfl
@[simp] theorem modStrand_engines (s : State) (n i : Nat) (f : Strand → Strand) : (modStrand s n i f).engines = s.engines := rfl
@[simp] theorem modStrand_retPorts (s : State) (n i : Nat) (f : Strand → Strand) : (modStrand s n i f).retPorts = s.retPorts := rfl
@[simp] theorem modStrand_s6Us (s : State) (n i : Nat) (f : Strand → Strand) : (modStrand s n i f).s6Us = s.s6Us := rfl
@[simp] theorem modStrand_fieldCores (s : State) (n i : Nat) (f : Strand → Strand) : (modStrand s n i f).fieldCores = s.fieldCores := rfl
@[simp] theorem modStrand_fieldSlices (s : State) (n i : Nat) (f : Strand → Strand) : (modStrand s n i f).fieldSlices = s.fieldSlices := rfl
@[simp] theorem modStrand_fieldDirty (s : State) (n i : Nat) (f : Strand → Strand) : (modStrand s n i f).fieldDirty = s.fieldDirty := rfl
@[simp] theorem modStrand_retention (s : State) (n i : Nat) (f : Strand → Strand) : (modStrand s n i f).retention = s.retention := rfl
@[simp] theorem modStrand_retEvents (s : State) (n i : Nat) (f : Strand → Strand) : (modStrand s n i f).retEvents = s.retEvents := rfl
@[simp] theorem modStrand_bootRetried (s : State) (n i : Nat) (f : Strand → Strand) : (modStrand s n i f).bootRetried = s.bootRetried := rfl
@[simp] theorem modStrand_chipAtS2 (s : State) (n i : Nat) (f : Strand → Strand) : (modStrand s n i f).chipAtS2 = s.chipAtS2 := rfl
@[simp] theorem modStrand_flr (s : State) (n i : Nat) (f : Strand → Strand) : (modStrand s n i f).flr = s.flr := rfl
@[simp] theorem modStrand_timeHi (s : State) (n i : Nat) (f : Strand → Strand) : (modStrand s n i f).timeHi = s.timeHi := rfl
@[simp] theorem modStrand_brgOut (s : State) (n i : Nat) (f : Strand → Strand) : (modStrand s n i f).brgOut = s.brgOut := rfl
@[simp] theorem modStrand_brgRestrict (s : State) (n i : Nat) (f : Strand → Strand) : (modStrand s n i f).brgRestrict = s.brgRestrict := rfl
@[simp] theorem modStrand_brgReplays (s : State) (n i : Nat) (f : Strand → Strand) : (modStrand s n i f).brgReplays = s.brgReplays := rfl
@[simp] theorem modStrand_scrub (s : State) (n i : Nat) (f : Strand → Strand) : (modStrand s n i f).scrub = s.scrub := rfl
@[simp] theorem modStrand_zeroAt (s : State) (n i : Nat) (f : Strand → Strand) : (modStrand s n i f).zeroAt = s.zeroAt := rfl

@[simp] theorem modStream_pending (s : State) (n i : Nat) (f : Stream → Stream) : (modStream s n i f).pending = s.pending := rfl
@[simp] theorem modStream_out (s : State) (n i : Nat) (f : Stream → Stream) : (modStream s n i f).out = s.out := rfl
@[simp] theorem modStream_net (s : State) (n i : Nat) (f : Stream → Stream) : (modStream s n i f).net = s.net := rfl
@[simp] theorem modStream_us (s : State) (n i : Nat) (f : Stream → Stream) : (modStream s n i f).us = s.us := rfl
@[simp] theorem modStream_draws (s : State) (n i : Nat) (f : Stream → Stream) : (modStream s n i f).draws = s.draws := rfl
@[simp] theorem modStream_regs (s : State) (n i : Nat) (f : Stream → Stream) : (modStream s n i f).regs = s.regs := rfl
@[simp] theorem modStream_mem (s : State) (n i : Nat) (f : Stream → Stream) : (modStream s n i f).mem = s.mem := rfl
@[simp] theorem modStream_poison (s : State) (n i : Nat) (f : Stream → Stream) : (modStream s n i f).poison = s.poison := rfl
@[simp] theorem modStream_split (s : State) (n i : Nat) (f : Stream → Stream) : (modStream s n i f).split = s.split := rfl
@[simp] theorem modStream_clusters (s : State) (n i : Nat) (f : Stream → Stream) : (modStream s n i f).clusters = s.clusters := rfl
@[simp] theorem modStream_gong (s : State) (n i : Nat) (f : Stream → Stream) : (modStream s n i f).gong = s.gong := rfl
@[simp] theorem modStream_host (s : State) (n i : Nat) (f : Stream → Stream) : (modStream s n i f).host = s.host := rfl
@[simp] theorem modStream_reqPart (s : State) (n i : Nat) (f : Stream → Stream) : (modStream s n i f).reqPart = s.reqPart := rfl
@[simp] theorem modStream_reqChip (s : State) (n i : Nat) (f : Stream → Stream) : (modStream s n i f).reqChip = s.reqChip := rfl
@[simp] theorem modStream_partReset (s : State) (n i : Nat) (f : Stream → Stream) : (modStream s n i f).partReset = s.partReset := rfl
@[simp] theorem modStream_chipReset (s : State) (n i : Nat) (f : Stream → Stream) : (modStream s n i f).chipReset = s.chipReset := rfl
@[simp] theorem modStream_heldInts (s : State) (n i : Nat) (f : Stream → Stream) : (modStream s n i f).heldInts = s.heldInts := rfl
@[simp] theorem modStream_evq (s : State) (n i : Nat) (f : Stream → Stream) : (modStream s n i f).evq = s.evq := rfl
@[simp] theorem modStream_evCount (s : State) (n i : Nat) (f : Stream → Stream) : (modStream s n i f).evCount = s.evCount := rfl
@[simp] theorem modStream_evOverflow (s : State) (n i : Nat) (f : Stream → Stream) : (modStream s n i f).evOverflow = s.evOverflow := rfl
@[simp] theorem modStream_rowErrs (s : State) (n i : Nat) (f : Stream → Stream) : (modStream s n i f).rowErrs = s.rowErrs := rfl
@[simp] theorem modStream_rowsPerm (s : State) (n i : Nat) (f : Stream → Stream) : (modStream s n i f).rowsPerm = s.rowsPerm := rfl
@[simp] theorem modStream_rowPgs (s : State) (n i : Nat) (f : Stream → Stream) : (modStream s n i f).rowPgs = s.rowPgs := rfl
@[simp] theorem modStream_pprQueue (s : State) (n i : Nat) (f : Stream → Stream) : (modStream s n i f).pprQueue = s.pprQueue := rfl
@[simp] theorem modStream_pprUsed (s : State) (n i : Nat) (f : Stream → Stream) : (modStream s n i f).pprUsed = s.pprUsed := rfl
@[simp] theorem modStream_caFails (s : State) (n i : Nat) (f : Stream → Stream) : (modStream s n i f).caFails = s.caFails := rfl
@[simp] theorem modStream_pcDead (s : State) (n i : Nat) (f : Stream → Stream) : (modStream s n i f).pcDead = s.pcDead := rfl
@[simp] theorem modStream_stgErrs (s : State) (n i : Nat) (f : Stream → Stream) : (modStream s n i f).stgErrs = s.stgErrs := rfl
@[simp] theorem modStream_stgSpares (s : State) (n i : Nat) (f : Stream → Stream) : (modStream s n i f).stgSpares = s.stgSpares := rfl
@[simp] theorem modStream_stgRowsPerm (s : State) (n i : Nat) (f : Stream → Stream) : (modStream s n i f).stgRowsPerm = s.stgRowsPerm := rfl
@[simp] theorem modStream_stgSubst (s : State) (n i : Nat) (f : Stream → Stream) : (modStream s n i f).stgSubst = s.stgSubst := rfl
@[simp] theorem modStream_keysErased (s : State) (n i : Nat) (f : Stream → Stream) : (modStream s n i f).keysErased = s.keysErased := rfl
@[simp] theorem modStream_pools (s : State) (n i : Nat) (f : Stream → Stream) : (modStream s n i f).pools = s.pools := rfl
@[simp] theorem modStream_grants (s : State) (n i : Nat) (f : Stream → Stream) : (modStream s n i f).grants = s.grants := rfl
@[simp] theorem modStream_grantReqs (s : State) (n i : Nat) (f : Stream → Stream) : (modStream s n i f).grantReqs = s.grantReqs := rfl
@[simp] theorem modStream_poolAsked (s : State) (n i : Nat) (f : Stream → Stream) : (modStream s n i f).poolAsked = s.poolAsked := rfl
@[simp] theorem modStream_fastCap (s : State) (n i : Nat) (f : Stream → Stream) : (modStream s n i f).fastCap = s.fastCap := rfl
@[simp] theorem modStream_ports (s : State) (n i : Nat) (f : Stream → Stream) : (modStream s n i f).ports = s.ports := rfl
@[simp] theorem modStream_fb (s : State) (n i : Nat) (f : Stream → Stream) : (modStream s n i f).fb = s.fb := rfl
@[simp] theorem modStream_peers (s : State) (n i : Nat) (f : Stream → Stream) : (modStream s n i f).peers = s.peers := rfl
@[simp] theorem modStream_roll (s : State) (n i : Nat) (f : Stream → Stream) : (modStream s n i f).roll = s.roll := rfl
@[simp] theorem modStream_mgtIdx (s : State) (n i : Nat) (f : Stream → Stream) : (modStream s n i f).mgtIdx = s.mgtIdx := rfl
@[simp] theorem modStream_mcCfg (s : State) (n i : Nat) (f : Stream → Stream) : (modStream s n i f).mcCfg = s.mcCfg := rfl
@[simp] theorem modStream_mcCheck (s : State) (n i : Nat) (f : Stream → Stream) : (modStream s n i f).mcCheck = s.mcCheck := rfl
@[simp] theorem modStream_mcMember (s : State) (n i : Nat) (f : Stream → Stream) : (modStream s n i f).mcMember = s.mcMember := rfl
@[simp] theorem modStream_mcKey (s : State) (n i : Nat) (f : Stream → Stream) : (modStream s n i f).mcKey = s.mcKey := rfl
@[simp] theorem modStream_mcFseq (s : State) (n i : Nat) (f : Stream → Stream) : (modStream s n i f).mcFseq = s.mcFseq := rfl
@[simp] theorem modStream_mcSends (s : State) (n i : Nat) (f : Stream → Stream) : (modStream s n i f).mcSends = s.mcSends := rfl
@[simp] theorem modStream_heldPkts (s : State) (n i : Nat) (f : Stream → Stream) : (modStream s n i f).heldPkts = s.heldPkts := rfl
@[simp] theorem modStream_destRecs (s : State) (n i : Nat) (f : Stream → Stream) : (modStream s n i f).destRecs = s.destRecs := rfl
@[simp] theorem modStream_epoch (s : State) (n i : Nat) (f : Stream → Stream) : (modStream s n i f).epoch = s.epoch := rfl
@[simp] theorem modStream_prevEpoch (s : State) (n i : Nat) (f : Stream → Stream) : (modStream s n i f).prevEpoch = s.prevEpoch := rfl
@[simp] theorem modStream_epochPeers (s : State) (n i : Nat) (f : Stream → Stream) : (modStream s n i f).epochPeers = s.epochPeers := rfl
@[simp] theorem modStream_nonce (s : State) (n i : Nat) (f : Stream → Stream) : (modStream s n i f).nonce = s.nonce := rfl
@[simp] theorem modStream_fabKeys (s : State) (n i : Nat) (f : Stream → Stream) : (modStream s n i f).fabKeys = s.fabKeys := rfl
@[simp] theorem modStream_resid (s : State) (n i : Nat) (f : Stream → Stream) : (modStream s n i f).resid = s.resid := rfl
@[simp] theorem modStream_ctxResets (s : State) (n i : Nat) (f : Stream → Stream) : (modStream s n i f).ctxResets = s.ctxResets := rfl
@[simp] theorem modStream_fuses (s : State) (n i : Nat) (f : Stream → Stream) : (modStream s n i f).fuses = s.fuses := rfl
@[simp] theorem modStream_fw (s : State) (n i : Nat) (f : Stream → Stream) : (modStream s n i f).fw = s.fw := rfl
@[simp] theorem modStream_carillon (s : State) (n i : Nat) (f : Stream → Stream) : (modStream s n i f).carillon = s.carillon := rfl
@[simp] theorem modStream_sec (s : State) (n i : Nat) (f : Stream → Stream) : (modStream s n i f).sec = s.sec := rfl
@[simp] theorem modStream_power (s : State) (n i : Nat) (f : Stream → Stream) : (modStream s n i f).power = s.power := rfl
@[simp] theorem modStream_thermal (s : State) (n i : Nat) (f : Stream → Stream) : (modStream s n i f).thermal = s.thermal := rfl
@[simp] theorem modStream_islands (s : State) (n i : Nat) (f : Stream → Stream) : (modStream s n i f).islands = s.islands := rfl
@[simp] theorem modStream_bist (s : State) (n i : Nat) (f : Stream → Stream) : (modStream s n i f).bist = s.bist := rfl
@[simp] theorem modStream_pealCores (s : State) (n i : Nat) (f : Stream → Stream) : (modStream s n i f).pealCores = s.pealCores := rfl
@[simp] theorem modStream_pealBad (s : State) (n i : Nat) (f : Stream → Stream) : (modStream s n i f).pealBad = s.pealBad := rfl
@[simp] theorem modStream_setOps (s : State) (n i : Nat) (f : Stream → Stream) : (modStream s n i f).setOps = s.setOps := rfl
@[simp] theorem modStream_dump (s : State) (n i : Nat) (f : Stream → Stream) : (modStream s n i f).dump = s.dump := rfl
@[simp] theorem modStream_engines (s : State) (n i : Nat) (f : Stream → Stream) : (modStream s n i f).engines = s.engines := rfl
@[simp] theorem modStream_retPorts (s : State) (n i : Nat) (f : Stream → Stream) : (modStream s n i f).retPorts = s.retPorts := rfl
@[simp] theorem modStream_s6Us (s : State) (n i : Nat) (f : Stream → Stream) : (modStream s n i f).s6Us = s.s6Us := rfl
@[simp] theorem modStream_fieldCores (s : State) (n i : Nat) (f : Stream → Stream) : (modStream s n i f).fieldCores = s.fieldCores := rfl
@[simp] theorem modStream_fieldSlices (s : State) (n i : Nat) (f : Stream → Stream) : (modStream s n i f).fieldSlices = s.fieldSlices := rfl
@[simp] theorem modStream_fieldDirty (s : State) (n i : Nat) (f : Stream → Stream) : (modStream s n i f).fieldDirty = s.fieldDirty := rfl
@[simp] theorem modStream_retention (s : State) (n i : Nat) (f : Stream → Stream) : (modStream s n i f).retention = s.retention := rfl
@[simp] theorem modStream_retEvents (s : State) (n i : Nat) (f : Stream → Stream) : (modStream s n i f).retEvents = s.retEvents := rfl
@[simp] theorem modStream_bootRetried (s : State) (n i : Nat) (f : Stream → Stream) : (modStream s n i f).bootRetried = s.bootRetried := rfl
@[simp] theorem modStream_chipAtS2 (s : State) (n i : Nat) (f : Stream → Stream) : (modStream s n i f).chipAtS2 = s.chipAtS2 := rfl
@[simp] theorem modStream_flr (s : State) (n i : Nat) (f : Stream → Stream) : (modStream s n i f).flr = s.flr := rfl
@[simp] theorem modStream_timeHi (s : State) (n i : Nat) (f : Stream → Stream) : (modStream s n i f).timeHi = s.timeHi := rfl
@[simp] theorem modStream_brgOut (s : State) (n i : Nat) (f : Stream → Stream) : (modStream s n i f).brgOut = s.brgOut := rfl
@[simp] theorem modStream_brgRestrict (s : State) (n i : Nat) (f : Stream → Stream) : (modStream s n i f).brgRestrict = s.brgRestrict := rfl
@[simp] theorem modStream_brgReplays (s : State) (n i : Nat) (f : Stream → Stream) : (modStream s n i f).brgReplays = s.brgReplays := rfl
@[simp] theorem modStream_scrub (s : State) (n i : Nat) (f : Stream → Stream) : (modStream s n i f).scrub = s.scrub := rfl
@[simp] theorem modStream_zeroAt (s : State) (n i : Nat) (f : Stream → Stream) : (modStream s n i f).zeroAt = s.zeroAt := rfl

@[simp] theorem modSync_pending (s : State) (n o : Nat) (f : SyncObj → SyncObj) : (modSync s n o f).pending = s.pending := rfl
@[simp] theorem modSync_out (s : State) (n o : Nat) (f : SyncObj → SyncObj) : (modSync s n o f).out = s.out := rfl
@[simp] theorem modSync_net (s : State) (n o : Nat) (f : SyncObj → SyncObj) : (modSync s n o f).net = s.net := rfl
@[simp] theorem modSync_us (s : State) (n o : Nat) (f : SyncObj → SyncObj) : (modSync s n o f).us = s.us := rfl
@[simp] theorem modSync_draws (s : State) (n o : Nat) (f : SyncObj → SyncObj) : (modSync s n o f).draws = s.draws := rfl
@[simp] theorem modSync_regs (s : State) (n o : Nat) (f : SyncObj → SyncObj) : (modSync s n o f).regs = s.regs := rfl
@[simp] theorem modSync_mem (s : State) (n o : Nat) (f : SyncObj → SyncObj) : (modSync s n o f).mem = s.mem := rfl
@[simp] theorem modSync_poison (s : State) (n o : Nat) (f : SyncObj → SyncObj) : (modSync s n o f).poison = s.poison := rfl
@[simp] theorem modSync_split (s : State) (n o : Nat) (f : SyncObj → SyncObj) : (modSync s n o f).split = s.split := rfl
@[simp] theorem modSync_clusters (s : State) (n o : Nat) (f : SyncObj → SyncObj) : (modSync s n o f).clusters = s.clusters := rfl
@[simp] theorem modSync_gong (s : State) (n o : Nat) (f : SyncObj → SyncObj) : (modSync s n o f).gong = s.gong := rfl
@[simp] theorem modSync_host (s : State) (n o : Nat) (f : SyncObj → SyncObj) : (modSync s n o f).host = s.host := rfl
@[simp] theorem modSync_reqPart (s : State) (n o : Nat) (f : SyncObj → SyncObj) : (modSync s n o f).reqPart = s.reqPart := rfl
@[simp] theorem modSync_reqChip (s : State) (n o : Nat) (f : SyncObj → SyncObj) : (modSync s n o f).reqChip = s.reqChip := rfl
@[simp] theorem modSync_partReset (s : State) (n o : Nat) (f : SyncObj → SyncObj) : (modSync s n o f).partReset = s.partReset := rfl
@[simp] theorem modSync_chipReset (s : State) (n o : Nat) (f : SyncObj → SyncObj) : (modSync s n o f).chipReset = s.chipReset := rfl
@[simp] theorem modSync_heldInts (s : State) (n o : Nat) (f : SyncObj → SyncObj) : (modSync s n o f).heldInts = s.heldInts := rfl
@[simp] theorem modSync_evq (s : State) (n o : Nat) (f : SyncObj → SyncObj) : (modSync s n o f).evq = s.evq := rfl
@[simp] theorem modSync_evCount (s : State) (n o : Nat) (f : SyncObj → SyncObj) : (modSync s n o f).evCount = s.evCount := rfl
@[simp] theorem modSync_evOverflow (s : State) (n o : Nat) (f : SyncObj → SyncObj) : (modSync s n o f).evOverflow = s.evOverflow := rfl
@[simp] theorem modSync_rowErrs (s : State) (n o : Nat) (f : SyncObj → SyncObj) : (modSync s n o f).rowErrs = s.rowErrs := rfl
@[simp] theorem modSync_rowsPerm (s : State) (n o : Nat) (f : SyncObj → SyncObj) : (modSync s n o f).rowsPerm = s.rowsPerm := rfl
@[simp] theorem modSync_rowPgs (s : State) (n o : Nat) (f : SyncObj → SyncObj) : (modSync s n o f).rowPgs = s.rowPgs := rfl
@[simp] theorem modSync_pprQueue (s : State) (n o : Nat) (f : SyncObj → SyncObj) : (modSync s n o f).pprQueue = s.pprQueue := rfl
@[simp] theorem modSync_pprUsed (s : State) (n o : Nat) (f : SyncObj → SyncObj) : (modSync s n o f).pprUsed = s.pprUsed := rfl
@[simp] theorem modSync_caFails (s : State) (n o : Nat) (f : SyncObj → SyncObj) : (modSync s n o f).caFails = s.caFails := rfl
@[simp] theorem modSync_pcDead (s : State) (n o : Nat) (f : SyncObj → SyncObj) : (modSync s n o f).pcDead = s.pcDead := rfl
@[simp] theorem modSync_stgErrs (s : State) (n o : Nat) (f : SyncObj → SyncObj) : (modSync s n o f).stgErrs = s.stgErrs := rfl
@[simp] theorem modSync_stgSpares (s : State) (n o : Nat) (f : SyncObj → SyncObj) : (modSync s n o f).stgSpares = s.stgSpares := rfl
@[simp] theorem modSync_stgRowsPerm (s : State) (n o : Nat) (f : SyncObj → SyncObj) : (modSync s n o f).stgRowsPerm = s.stgRowsPerm := rfl
@[simp] theorem modSync_stgSubst (s : State) (n o : Nat) (f : SyncObj → SyncObj) : (modSync s n o f).stgSubst = s.stgSubst := rfl
@[simp] theorem modSync_keysErased (s : State) (n o : Nat) (f : SyncObj → SyncObj) : (modSync s n o f).keysErased = s.keysErased := rfl
@[simp] theorem modSync_pools (s : State) (n o : Nat) (f : SyncObj → SyncObj) : (modSync s n o f).pools = s.pools := rfl
@[simp] theorem modSync_grants (s : State) (n o : Nat) (f : SyncObj → SyncObj) : (modSync s n o f).grants = s.grants := rfl
@[simp] theorem modSync_grantReqs (s : State) (n o : Nat) (f : SyncObj → SyncObj) : (modSync s n o f).grantReqs = s.grantReqs := rfl
@[simp] theorem modSync_poolAsked (s : State) (n o : Nat) (f : SyncObj → SyncObj) : (modSync s n o f).poolAsked = s.poolAsked := rfl
@[simp] theorem modSync_fastCap (s : State) (n o : Nat) (f : SyncObj → SyncObj) : (modSync s n o f).fastCap = s.fastCap := rfl
@[simp] theorem modSync_ports (s : State) (n o : Nat) (f : SyncObj → SyncObj) : (modSync s n o f).ports = s.ports := rfl
@[simp] theorem modSync_fb (s : State) (n o : Nat) (f : SyncObj → SyncObj) : (modSync s n o f).fb = s.fb := rfl
@[simp] theorem modSync_peers (s : State) (n o : Nat) (f : SyncObj → SyncObj) : (modSync s n o f).peers = s.peers := rfl
@[simp] theorem modSync_roll (s : State) (n o : Nat) (f : SyncObj → SyncObj) : (modSync s n o f).roll = s.roll := rfl
@[simp] theorem modSync_mgtIdx (s : State) (n o : Nat) (f : SyncObj → SyncObj) : (modSync s n o f).mgtIdx = s.mgtIdx := rfl
@[simp] theorem modSync_mcCfg (s : State) (n o : Nat) (f : SyncObj → SyncObj) : (modSync s n o f).mcCfg = s.mcCfg := rfl
@[simp] theorem modSync_mcCheck (s : State) (n o : Nat) (f : SyncObj → SyncObj) : (modSync s n o f).mcCheck = s.mcCheck := rfl
@[simp] theorem modSync_mcMember (s : State) (n o : Nat) (f : SyncObj → SyncObj) : (modSync s n o f).mcMember = s.mcMember := rfl
@[simp] theorem modSync_mcKey (s : State) (n o : Nat) (f : SyncObj → SyncObj) : (modSync s n o f).mcKey = s.mcKey := rfl
@[simp] theorem modSync_mcFseq (s : State) (n o : Nat) (f : SyncObj → SyncObj) : (modSync s n o f).mcFseq = s.mcFseq := rfl
@[simp] theorem modSync_mcSends (s : State) (n o : Nat) (f : SyncObj → SyncObj) : (modSync s n o f).mcSends = s.mcSends := rfl
@[simp] theorem modSync_heldPkts (s : State) (n o : Nat) (f : SyncObj → SyncObj) : (modSync s n o f).heldPkts = s.heldPkts := rfl
@[simp] theorem modSync_destRecs (s : State) (n o : Nat) (f : SyncObj → SyncObj) : (modSync s n o f).destRecs = s.destRecs := rfl
@[simp] theorem modSync_epoch (s : State) (n o : Nat) (f : SyncObj → SyncObj) : (modSync s n o f).epoch = s.epoch := rfl
@[simp] theorem modSync_prevEpoch (s : State) (n o : Nat) (f : SyncObj → SyncObj) : (modSync s n o f).prevEpoch = s.prevEpoch := rfl
@[simp] theorem modSync_epochPeers (s : State) (n o : Nat) (f : SyncObj → SyncObj) : (modSync s n o f).epochPeers = s.epochPeers := rfl
@[simp] theorem modSync_nonce (s : State) (n o : Nat) (f : SyncObj → SyncObj) : (modSync s n o f).nonce = s.nonce := rfl
@[simp] theorem modSync_fabKeys (s : State) (n o : Nat) (f : SyncObj → SyncObj) : (modSync s n o f).fabKeys = s.fabKeys := rfl
@[simp] theorem modSync_resid (s : State) (n o : Nat) (f : SyncObj → SyncObj) : (modSync s n o f).resid = s.resid := rfl
@[simp] theorem modSync_ctxResets (s : State) (n o : Nat) (f : SyncObj → SyncObj) : (modSync s n o f).ctxResets = s.ctxResets := rfl
@[simp] theorem modSync_fuses (s : State) (n o : Nat) (f : SyncObj → SyncObj) : (modSync s n o f).fuses = s.fuses := rfl
@[simp] theorem modSync_fw (s : State) (n o : Nat) (f : SyncObj → SyncObj) : (modSync s n o f).fw = s.fw := rfl
@[simp] theorem modSync_carillon (s : State) (n o : Nat) (f : SyncObj → SyncObj) : (modSync s n o f).carillon = s.carillon := rfl
@[simp] theorem modSync_sec (s : State) (n o : Nat) (f : SyncObj → SyncObj) : (modSync s n o f).sec = s.sec := rfl
@[simp] theorem modSync_power (s : State) (n o : Nat) (f : SyncObj → SyncObj) : (modSync s n o f).power = s.power := rfl
@[simp] theorem modSync_thermal (s : State) (n o : Nat) (f : SyncObj → SyncObj) : (modSync s n o f).thermal = s.thermal := rfl
@[simp] theorem modSync_islands (s : State) (n o : Nat) (f : SyncObj → SyncObj) : (modSync s n o f).islands = s.islands := rfl
@[simp] theorem modSync_bist (s : State) (n o : Nat) (f : SyncObj → SyncObj) : (modSync s n o f).bist = s.bist := rfl
@[simp] theorem modSync_pealCores (s : State) (n o : Nat) (f : SyncObj → SyncObj) : (modSync s n o f).pealCores = s.pealCores := rfl
@[simp] theorem modSync_pealBad (s : State) (n o : Nat) (f : SyncObj → SyncObj) : (modSync s n o f).pealBad = s.pealBad := rfl
@[simp] theorem modSync_setOps (s : State) (n o : Nat) (f : SyncObj → SyncObj) : (modSync s n o f).setOps = s.setOps := rfl
@[simp] theorem modSync_dump (s : State) (n o : Nat) (f : SyncObj → SyncObj) : (modSync s n o f).dump = s.dump := rfl
@[simp] theorem modSync_engines (s : State) (n o : Nat) (f : SyncObj → SyncObj) : (modSync s n o f).engines = s.engines := rfl
@[simp] theorem modSync_retPorts (s : State) (n o : Nat) (f : SyncObj → SyncObj) : (modSync s n o f).retPorts = s.retPorts := rfl
@[simp] theorem modSync_s6Us (s : State) (n o : Nat) (f : SyncObj → SyncObj) : (modSync s n o f).s6Us = s.s6Us := rfl
@[simp] theorem modSync_fieldCores (s : State) (n o : Nat) (f : SyncObj → SyncObj) : (modSync s n o f).fieldCores = s.fieldCores := rfl
@[simp] theorem modSync_fieldSlices (s : State) (n o : Nat) (f : SyncObj → SyncObj) : (modSync s n o f).fieldSlices = s.fieldSlices := rfl
@[simp] theorem modSync_fieldDirty (s : State) (n o : Nat) (f : SyncObj → SyncObj) : (modSync s n o f).fieldDirty = s.fieldDirty := rfl
@[simp] theorem modSync_retention (s : State) (n o : Nat) (f : SyncObj → SyncObj) : (modSync s n o f).retention = s.retention := rfl
@[simp] theorem modSync_retEvents (s : State) (n o : Nat) (f : SyncObj → SyncObj) : (modSync s n o f).retEvents = s.retEvents := rfl
@[simp] theorem modSync_bootRetried (s : State) (n o : Nat) (f : SyncObj → SyncObj) : (modSync s n o f).bootRetried = s.bootRetried := rfl
@[simp] theorem modSync_chipAtS2 (s : State) (n o : Nat) (f : SyncObj → SyncObj) : (modSync s n o f).chipAtS2 = s.chipAtS2 := rfl
@[simp] theorem modSync_flr (s : State) (n o : Nat) (f : SyncObj → SyncObj) : (modSync s n o f).flr = s.flr := rfl
@[simp] theorem modSync_timeHi (s : State) (n o : Nat) (f : SyncObj → SyncObj) : (modSync s n o f).timeHi = s.timeHi := rfl
@[simp] theorem modSync_brgOut (s : State) (n o : Nat) (f : SyncObj → SyncObj) : (modSync s n o f).brgOut = s.brgOut := rfl
@[simp] theorem modSync_brgRestrict (s : State) (n o : Nat) (f : SyncObj → SyncObj) : (modSync s n o f).brgRestrict = s.brgRestrict := rfl
@[simp] theorem modSync_brgReplays (s : State) (n o : Nat) (f : SyncObj → SyncObj) : (modSync s n o f).brgReplays = s.brgReplays := rfl
@[simp] theorem modSync_scrub (s : State) (n o : Nat) (f : SyncObj → SyncObj) : (modSync s n o f).scrub = s.scrub := rfl
@[simp] theorem modSync_zeroAt (s : State) (n o : Nat) (f : SyncObj → SyncObj) : (modSync s n o f).zeroAt = s.zeroAt := rfl

@[simp] theorem modCluster_pending (s : State) (c : Nat) (f : Cluster → Cluster) : (modCluster s c f).pending = s.pending := rfl
@[simp] theorem modCluster_out (s : State) (c : Nat) (f : Cluster → Cluster) : (modCluster s c f).out = s.out := rfl
@[simp] theorem modCluster_net (s : State) (c : Nat) (f : Cluster → Cluster) : (modCluster s c f).net = s.net := rfl
@[simp] theorem modCluster_us (s : State) (c : Nat) (f : Cluster → Cluster) : (modCluster s c f).us = s.us := rfl
@[simp] theorem modCluster_draws (s : State) (c : Nat) (f : Cluster → Cluster) : (modCluster s c f).draws = s.draws := rfl
@[simp] theorem modCluster_regs (s : State) (c : Nat) (f : Cluster → Cluster) : (modCluster s c f).regs = s.regs := rfl
@[simp] theorem modCluster_mem (s : State) (c : Nat) (f : Cluster → Cluster) : (modCluster s c f).mem = s.mem := rfl
@[simp] theorem modCluster_poison (s : State) (c : Nat) (f : Cluster → Cluster) : (modCluster s c f).poison = s.poison := rfl
@[simp] theorem modCluster_split (s : State) (c : Nat) (f : Cluster → Cluster) : (modCluster s c f).split = s.split := rfl
@[simp] theorem modCluster_cores (s : State) (c : Nat) (f : Cluster → Cluster) : (modCluster s c f).cores = s.cores := rfl
@[simp] theorem modCluster_gong (s : State) (c : Nat) (f : Cluster → Cluster) : (modCluster s c f).gong = s.gong := rfl
@[simp] theorem modCluster_host (s : State) (c : Nat) (f : Cluster → Cluster) : (modCluster s c f).host = s.host := rfl
@[simp] theorem modCluster_reqPart (s : State) (c : Nat) (f : Cluster → Cluster) : (modCluster s c f).reqPart = s.reqPart := rfl
@[simp] theorem modCluster_reqChip (s : State) (c : Nat) (f : Cluster → Cluster) : (modCluster s c f).reqChip = s.reqChip := rfl
@[simp] theorem modCluster_partReset (s : State) (c : Nat) (f : Cluster → Cluster) : (modCluster s c f).partReset = s.partReset := rfl
@[simp] theorem modCluster_chipReset (s : State) (c : Nat) (f : Cluster → Cluster) : (modCluster s c f).chipReset = s.chipReset := rfl
@[simp] theorem modCluster_heldInts (s : State) (c : Nat) (f : Cluster → Cluster) : (modCluster s c f).heldInts = s.heldInts := rfl
@[simp] theorem modCluster_evq (s : State) (c : Nat) (f : Cluster → Cluster) : (modCluster s c f).evq = s.evq := rfl
@[simp] theorem modCluster_evCount (s : State) (c : Nat) (f : Cluster → Cluster) : (modCluster s c f).evCount = s.evCount := rfl
@[simp] theorem modCluster_evOverflow (s : State) (c : Nat) (f : Cluster → Cluster) : (modCluster s c f).evOverflow = s.evOverflow := rfl
@[simp] theorem modCluster_rowErrs (s : State) (c : Nat) (f : Cluster → Cluster) : (modCluster s c f).rowErrs = s.rowErrs := rfl
@[simp] theorem modCluster_rowsPerm (s : State) (c : Nat) (f : Cluster → Cluster) : (modCluster s c f).rowsPerm = s.rowsPerm := rfl
@[simp] theorem modCluster_rowPgs (s : State) (c : Nat) (f : Cluster → Cluster) : (modCluster s c f).rowPgs = s.rowPgs := rfl
@[simp] theorem modCluster_pprQueue (s : State) (c : Nat) (f : Cluster → Cluster) : (modCluster s c f).pprQueue = s.pprQueue := rfl
@[simp] theorem modCluster_pprUsed (s : State) (c : Nat) (f : Cluster → Cluster) : (modCluster s c f).pprUsed = s.pprUsed := rfl
@[simp] theorem modCluster_caFails (s : State) (c : Nat) (f : Cluster → Cluster) : (modCluster s c f).caFails = s.caFails := rfl
@[simp] theorem modCluster_pcDead (s : State) (c : Nat) (f : Cluster → Cluster) : (modCluster s c f).pcDead = s.pcDead := rfl
@[simp] theorem modCluster_stgErrs (s : State) (c : Nat) (f : Cluster → Cluster) : (modCluster s c f).stgErrs = s.stgErrs := rfl
@[simp] theorem modCluster_stgSpares (s : State) (c : Nat) (f : Cluster → Cluster) : (modCluster s c f).stgSpares = s.stgSpares := rfl
@[simp] theorem modCluster_stgRowsPerm (s : State) (c : Nat) (f : Cluster → Cluster) : (modCluster s c f).stgRowsPerm = s.stgRowsPerm := rfl
@[simp] theorem modCluster_stgSubst (s : State) (c : Nat) (f : Cluster → Cluster) : (modCluster s c f).stgSubst = s.stgSubst := rfl
@[simp] theorem modCluster_keysErased (s : State) (c : Nat) (f : Cluster → Cluster) : (modCluster s c f).keysErased = s.keysErased := rfl
@[simp] theorem modCluster_pools (s : State) (c : Nat) (f : Cluster → Cluster) : (modCluster s c f).pools = s.pools := rfl
@[simp] theorem modCluster_grants (s : State) (c : Nat) (f : Cluster → Cluster) : (modCluster s c f).grants = s.grants := rfl
@[simp] theorem modCluster_grantReqs (s : State) (c : Nat) (f : Cluster → Cluster) : (modCluster s c f).grantReqs = s.grantReqs := rfl
@[simp] theorem modCluster_poolAsked (s : State) (c : Nat) (f : Cluster → Cluster) : (modCluster s c f).poolAsked = s.poolAsked := rfl
@[simp] theorem modCluster_fastCap (s : State) (c : Nat) (f : Cluster → Cluster) : (modCluster s c f).fastCap = s.fastCap := rfl
@[simp] theorem modCluster_ports (s : State) (c : Nat) (f : Cluster → Cluster) : (modCluster s c f).ports = s.ports := rfl
@[simp] theorem modCluster_fb (s : State) (c : Nat) (f : Cluster → Cluster) : (modCluster s c f).fb = s.fb := rfl
@[simp] theorem modCluster_peers (s : State) (c : Nat) (f : Cluster → Cluster) : (modCluster s c f).peers = s.peers := rfl
@[simp] theorem modCluster_roll (s : State) (c : Nat) (f : Cluster → Cluster) : (modCluster s c f).roll = s.roll := rfl
@[simp] theorem modCluster_mgtIdx (s : State) (c : Nat) (f : Cluster → Cluster) : (modCluster s c f).mgtIdx = s.mgtIdx := rfl
@[simp] theorem modCluster_mcCfg (s : State) (c : Nat) (f : Cluster → Cluster) : (modCluster s c f).mcCfg = s.mcCfg := rfl
@[simp] theorem modCluster_mcCheck (s : State) (c : Nat) (f : Cluster → Cluster) : (modCluster s c f).mcCheck = s.mcCheck := rfl
@[simp] theorem modCluster_mcMember (s : State) (c : Nat) (f : Cluster → Cluster) : (modCluster s c f).mcMember = s.mcMember := rfl
@[simp] theorem modCluster_mcKey (s : State) (c : Nat) (f : Cluster → Cluster) : (modCluster s c f).mcKey = s.mcKey := rfl
@[simp] theorem modCluster_mcFseq (s : State) (c : Nat) (f : Cluster → Cluster) : (modCluster s c f).mcFseq = s.mcFseq := rfl
@[simp] theorem modCluster_mcSends (s : State) (c : Nat) (f : Cluster → Cluster) : (modCluster s c f).mcSends = s.mcSends := rfl
@[simp] theorem modCluster_heldPkts (s : State) (c : Nat) (f : Cluster → Cluster) : (modCluster s c f).heldPkts = s.heldPkts := rfl
@[simp] theorem modCluster_destRecs (s : State) (c : Nat) (f : Cluster → Cluster) : (modCluster s c f).destRecs = s.destRecs := rfl
@[simp] theorem modCluster_epoch (s : State) (c : Nat) (f : Cluster → Cluster) : (modCluster s c f).epoch = s.epoch := rfl
@[simp] theorem modCluster_prevEpoch (s : State) (c : Nat) (f : Cluster → Cluster) : (modCluster s c f).prevEpoch = s.prevEpoch := rfl
@[simp] theorem modCluster_epochPeers (s : State) (c : Nat) (f : Cluster → Cluster) : (modCluster s c f).epochPeers = s.epochPeers := rfl
@[simp] theorem modCluster_nonce (s : State) (c : Nat) (f : Cluster → Cluster) : (modCluster s c f).nonce = s.nonce := rfl
@[simp] theorem modCluster_fabKeys (s : State) (c : Nat) (f : Cluster → Cluster) : (modCluster s c f).fabKeys = s.fabKeys := rfl
@[simp] theorem modCluster_resid (s : State) (c : Nat) (f : Cluster → Cluster) : (modCluster s c f).resid = s.resid := rfl
@[simp] theorem modCluster_ctxResets (s : State) (c : Nat) (f : Cluster → Cluster) : (modCluster s c f).ctxResets = s.ctxResets := rfl
@[simp] theorem modCluster_fuses (s : State) (c : Nat) (f : Cluster → Cluster) : (modCluster s c f).fuses = s.fuses := rfl
@[simp] theorem modCluster_fw (s : State) (c : Nat) (f : Cluster → Cluster) : (modCluster s c f).fw = s.fw := rfl
@[simp] theorem modCluster_carillon (s : State) (c : Nat) (f : Cluster → Cluster) : (modCluster s c f).carillon = s.carillon := rfl
@[simp] theorem modCluster_sec (s : State) (c : Nat) (f : Cluster → Cluster) : (modCluster s c f).sec = s.sec := rfl
@[simp] theorem modCluster_power (s : State) (c : Nat) (f : Cluster → Cluster) : (modCluster s c f).power = s.power := rfl
@[simp] theorem modCluster_thermal (s : State) (c : Nat) (f : Cluster → Cluster) : (modCluster s c f).thermal = s.thermal := rfl
@[simp] theorem modCluster_islands (s : State) (c : Nat) (f : Cluster → Cluster) : (modCluster s c f).islands = s.islands := rfl
@[simp] theorem modCluster_bist (s : State) (c : Nat) (f : Cluster → Cluster) : (modCluster s c f).bist = s.bist := rfl
@[simp] theorem modCluster_pealCores (s : State) (c : Nat) (f : Cluster → Cluster) : (modCluster s c f).pealCores = s.pealCores := rfl
@[simp] theorem modCluster_pealBad (s : State) (c : Nat) (f : Cluster → Cluster) : (modCluster s c f).pealBad = s.pealBad := rfl
@[simp] theorem modCluster_setOps (s : State) (c : Nat) (f : Cluster → Cluster) : (modCluster s c f).setOps = s.setOps := rfl
@[simp] theorem modCluster_dump (s : State) (c : Nat) (f : Cluster → Cluster) : (modCluster s c f).dump = s.dump := rfl
@[simp] theorem modCluster_engines (s : State) (c : Nat) (f : Cluster → Cluster) : (modCluster s c f).engines = s.engines := rfl
@[simp] theorem modCluster_retPorts (s : State) (c : Nat) (f : Cluster → Cluster) : (modCluster s c f).retPorts = s.retPorts := rfl
@[simp] theorem modCluster_s6Us (s : State) (c : Nat) (f : Cluster → Cluster) : (modCluster s c f).s6Us = s.s6Us := rfl
@[simp] theorem modCluster_fieldCores (s : State) (c : Nat) (f : Cluster → Cluster) : (modCluster s c f).fieldCores = s.fieldCores := rfl
@[simp] theorem modCluster_fieldSlices (s : State) (c : Nat) (f : Cluster → Cluster) : (modCluster s c f).fieldSlices = s.fieldSlices := rfl
@[simp] theorem modCluster_fieldDirty (s : State) (c : Nat) (f : Cluster → Cluster) : (modCluster s c f).fieldDirty = s.fieldDirty := rfl
@[simp] theorem modCluster_retention (s : State) (c : Nat) (f : Cluster → Cluster) : (modCluster s c f).retention = s.retention := rfl
@[simp] theorem modCluster_retEvents (s : State) (c : Nat) (f : Cluster → Cluster) : (modCluster s c f).retEvents = s.retEvents := rfl
@[simp] theorem modCluster_bootRetried (s : State) (c : Nat) (f : Cluster → Cluster) : (modCluster s c f).bootRetried = s.bootRetried := rfl
@[simp] theorem modCluster_chipAtS2 (s : State) (c : Nat) (f : Cluster → Cluster) : (modCluster s c f).chipAtS2 = s.chipAtS2 := rfl
@[simp] theorem modCluster_flr (s : State) (c : Nat) (f : Cluster → Cluster) : (modCluster s c f).flr = s.flr := rfl
@[simp] theorem modCluster_timeHi (s : State) (c : Nat) (f : Cluster → Cluster) : (modCluster s c f).timeHi = s.timeHi := rfl
@[simp] theorem modCluster_brgOut (s : State) (c : Nat) (f : Cluster → Cluster) : (modCluster s c f).brgOut = s.brgOut := rfl
@[simp] theorem modCluster_brgRestrict (s : State) (c : Nat) (f : Cluster → Cluster) : (modCluster s c f).brgRestrict = s.brgRestrict := rfl
@[simp] theorem modCluster_brgReplays (s : State) (c : Nat) (f : Cluster → Cluster) : (modCluster s c f).brgReplays = s.brgReplays := rfl
@[simp] theorem modCluster_scrub (s : State) (c : Nat) (f : Cluster → Cluster) : (modCluster s c f).scrub = s.scrub := rfl
@[simp] theorem modCluster_zeroAt (s : State) (c : Nat) (f : Cluster → Cluster) : (modCluster s c f).zeroAt = s.zeroAt := rfl

end Sys2Proof.Machine
end

