-- ==== Sys2Proof/Laws/Flags.lean ====
section
/-!
SUPPORT. What recording an error can change: the registers, the event queue, what is sent out, interrupt messages held,
and, where it escalates, the reset requests. Everything else stays.
-/
namespace Sys2Proof.Machine

/-- `t` is `s` but for what recording an error, with its escalation, may change. -/
structure ErrFrame (s t : State) : Prop where
  pending : t.pending = s.pending := by rfl
  net : t.net = s.net := by rfl
  us : t.us = s.us := by rfl
  draws : t.draws = s.draws := by rfl
  mem : t.mem = s.mem := by rfl
  poison : t.poison = s.poison := by rfl
  split : t.split = s.split := by rfl
  clusters : t.clusters = s.clusters := by rfl
  gong : t.gong = s.gong := by rfl
  host : t.host = s.host := by rfl
  partReset : t.partReset = s.partReset := by rfl
  chipReset : t.chipReset = s.chipReset := by rfl
  rowErrs : t.rowErrs = s.rowErrs := by rfl
  rowsPerm : t.rowsPerm = s.rowsPerm := by rfl
  pprQueue : t.pprQueue = s.pprQueue := by rfl
  pprUsed : t.pprUsed = s.pprUsed := by rfl
  caFails : t.caFails = s.caFails := by rfl
  pcDead : t.pcDead = s.pcDead := by rfl
  stgErrs : t.stgErrs = s.stgErrs := by rfl
  stgSpares : t.stgSpares = s.stgSpares := by rfl
  stgRowsPerm : t.stgRowsPerm = s.stgRowsPerm := by rfl
  keysErased : t.keysErased = s.keysErased := by rfl
  pools : t.pools = s.pools := by rfl
  grants : t.grants = s.grants := by rfl
  grantReqs : t.grantReqs = s.grantReqs := by rfl
  poolAsked : t.poolAsked = s.poolAsked := by rfl
  fastCap : t.fastCap = s.fastCap := by rfl
  ports : t.ports = s.ports := by rfl
  fb : t.fb = s.fb := by rfl
  peers : t.peers = s.peers := by rfl
  roll : t.roll = s.roll := by rfl
  mgtIdx : t.mgtIdx = s.mgtIdx := by rfl
  mcCfg : t.mcCfg = s.mcCfg := by rfl
  mcCheck : t.mcCheck = s.mcCheck := by rfl
  mcMember : t.mcMember = s.mcMember := by rfl
  mcKey : t.mcKey = s.mcKey := by rfl
  mcFseq : t.mcFseq = s.mcFseq := by rfl
  mcSends : t.mcSends = s.mcSends := by rfl
  destRecs : t.destRecs = s.destRecs := by rfl
  epoch : t.epoch = s.epoch := by rfl
  prevEpoch : t.prevEpoch = s.prevEpoch := by rfl
  epochPeers : t.epochPeers = s.epochPeers := by rfl
  nonce : t.nonce = s.nonce := by rfl
  fabKeys : t.fabKeys = s.fabKeys := by rfl
  resid : t.resid = s.resid := by rfl
  ctxResets : t.ctxResets = s.ctxResets := by rfl
  fuses : t.fuses = s.fuses := by rfl
  fw : t.fw = s.fw := by rfl
  carillon : t.carillon = s.carillon := by rfl
  sec : t.sec = s.sec := by rfl
  power : t.power = s.power := by rfl
  thermal : t.thermal = s.thermal := by rfl
  islands : t.islands = s.islands := by rfl
  bist : t.bist = s.bist := by rfl
  pealCores : t.pealCores = s.pealCores := by rfl
  pealBad : t.pealBad = s.pealBad := by rfl
  setOps : t.setOps = s.setOps := by rfl
  dump : t.dump = s.dump := by rfl
  engines : t.engines = s.engines := by rfl
  fieldCores : t.fieldCores = s.fieldCores := by rfl
  fieldSlices : t.fieldSlices = s.fieldSlices := by rfl
  fieldDirty : t.fieldDirty = s.fieldDirty := by rfl
  retention : t.retention = s.retention := by rfl
  retEvents : t.retEvents = s.retEvents := by rfl
  bootRetried : t.bootRetried = s.bootRetried := by rfl
  chipAtS2 : t.chipAtS2 = s.chipAtS2 := by rfl
  flr : t.flr = s.flr := by rfl
  timeHi : t.timeHi = s.timeHi := by rfl
  brgOut : t.brgOut = s.brgOut := by rfl
  brgReplays : t.brgReplays = s.brgReplays := by rfl
  scrub : t.scrub = s.scrub := by rfl
  zeroAt : t.zeroAt = s.zeroAt := by rfl

/-- `t` is `s` but for what recording an error without escalation may change. -/
structure RecFrame (s t : State) : Prop extends ErrFrame s t where
  reqPart : t.reqPart = s.reqPart := by rfl
  cores : t.cores = s.cores := by rfl
  reqChip : t.reqChip = s.reqChip := by rfl

theorem ErrFrame.trans {s t u : State} (h : ErrFrame s t) (k : ErrFrame t u) : ErrFrame s u where
  pending := k.pending.trans h.pending
  net := k.net.trans h.net
  us := k.us.trans h.us
  draws := k.draws.trans h.draws
  mem := k.mem.trans h.mem
  poison := k.poison.trans h.poison
  split := k.split.trans h.split
  clusters := k.clusters.trans h.clusters
  gong := k.gong.trans h.gong
  host := k.host.trans h.host
  partReset := k.partReset.trans h.partReset
  chipReset := k.chipReset.trans h.chipReset
  rowErrs := k.rowErrs.trans h.rowErrs
  rowsPerm := k.rowsPerm.trans h.rowsPerm
  pprQueue := k.pprQueue.trans h.pprQueue
  pprUsed := k.pprUsed.trans h.pprUsed
  caFails := k.caFails.trans h.caFails
  pcDead := k.pcDead.trans h.pcDead
  stgErrs := k.stgErrs.trans h.stgErrs
  stgSpares := k.stgSpares.trans h.stgSpares
  stgRowsPerm := k.stgRowsPerm.trans h.stgRowsPerm
  keysErased := k.keysErased.trans h.keysErased
  pools := k.pools.trans h.pools
  grants := k.grants.trans h.grants
  grantReqs := k.grantReqs.trans h.grantReqs
  poolAsked := k.poolAsked.trans h.poolAsked
  fastCap := k.fastCap.trans h.fastCap
  ports := k.ports.trans h.ports
  fb := k.fb.trans h.fb
  peers := k.peers.trans h.peers
  roll := k.roll.trans h.roll
  mgtIdx := k.mgtIdx.trans h.mgtIdx
  mcCfg := k.mcCfg.trans h.mcCfg
  mcCheck := k.mcCheck.trans h.mcCheck
  mcMember := k.mcMember.trans h.mcMember
  mcKey := k.mcKey.trans h.mcKey
  mcFseq := k.mcFseq.trans h.mcFseq
  mcSends := k.mcSends.trans h.mcSends
  destRecs := k.destRecs.trans h.destRecs
  epoch := k.epoch.trans h.epoch
  prevEpoch := k.prevEpoch.trans h.prevEpoch
  epochPeers := k.epochPeers.trans h.epochPeers
  nonce := k.nonce.trans h.nonce
  fabKeys := k.fabKeys.trans h.fabKeys
  resid := k.resid.trans h.resid
  ctxResets := k.ctxResets.trans h.ctxResets
  fuses := k.fuses.trans h.fuses
  fw := k.fw.trans h.fw
  carillon := k.carillon.trans h.carillon
  sec := k.sec.trans h.sec
  power := k.power.trans h.power
  thermal := k.thermal.trans h.thermal
  islands := k.islands.trans h.islands
  bist := k.bist.trans h.bist
  pealCores := k.pealCores.trans h.pealCores
  pealBad := k.pealBad.trans h.pealBad
  setOps := k.setOps.trans h.setOps
  dump := k.dump.trans h.dump
  engines := k.engines.trans h.engines
  fieldCores := k.fieldCores.trans h.fieldCores
  fieldSlices := k.fieldSlices.trans h.fieldSlices
  fieldDirty := k.fieldDirty.trans h.fieldDirty
  retention := k.retention.trans h.retention
  retEvents := k.retEvents.trans h.retEvents
  bootRetried := k.bootRetried.trans h.bootRetried
  chipAtS2 := k.chipAtS2.trans h.chipAtS2
  flr := k.flr.trans h.flr
  timeHi := k.timeHi.trans h.timeHi
  brgOut := k.brgOut.trans h.brgOut
  brgReplays := k.brgReplays.trans h.brgReplays
  scrub := k.scrub.trans h.scrub
  zeroAt := k.zeroAt.trans h.zeroAt

theorem RecFrame.trans {s t u : State} (h : RecFrame s t) (k : RecFrame t u) : RecFrame s u where
  toErrFrame := h.toErrFrame.trans k.toErrFrame
  reqPart := k.reqPart.trans h.reqPart
  cores := k.cores.trans h.cores
  reqChip := k.reqChip.trans h.reqChip

theorem RecFrame.refl (s : State) : RecFrame s s where

theorem ErrFrame.refl (s : State) : ErrFrame s s where

theorem regSet_rec (s : State) (a : Nat) (v : Word) : RecFrame s (regSet s a v) where

theorem emit_rec (s : State) (o : Out) : RecFrame s (emit s o) where

theorem msixSend_rec (s : State) (f v : Nat) : RecFrame s (msixSend s f v) where

theorem heldInts_rec (s : State) (l : List (Nat × Nat)) : RecFrame s { s with heldInts := l } where

theorem evOverflow_rec (s : State) (b : Bool) : RecFrame s { s with evOverflow := b } where

/-- The event queue takes a record: what changes. -/
theorem queueEvent_rec (s : State) (e : Event) : RecFrame s (queueEvent s e) := by
  unfold queueEvent bump rset regSet
  dsimp only
  split
  · exact {}
  · split <;> exact {}

theorem noteFirst_rec (s : State) (pg : Nat) (word ctag : Word) : RecFrame s (noteFirst s pg word ctag) := by
  unfold noteFirst
  split
  · exact regSet_rec _ _ _
  · exact (regSet_rec _ _ _).trans (regSet_rec _ _ _)

theorem msixOr_rec (s : State) (f v : Nat) (bad : State → State) (hb : ∀ x, RecFrame x (bad x)) :
    RecFrame s (msixOr s f v bad) := by
  unfold msixOr
  split
  · exact msixSend_rec _ _ _
  · exact hb s

/-- A page's interrupt message: what changes. -/
theorem intMessage_rec (s : State) (pg : Nat) (bad : State → State) (hb : ∀ x, RecFrame x (bad x)) :
    RecFrame s (intMessage s pg bad) := by
  unfold intMessage
  dsimp only
  split
  · exact msixOr_rec _ _ _ _ hb
  · split
    · exact emit_rec _ _
    · split
      · exact (emit_rec _ _).trans (msixOr_rec _ _ _ _ hb)
      · split
        · exact hb s
        · split
          · exact heldInts_rec _ _
          · split
            · exact msixOr_rec _ _ _ _ hb
            · exact hb s

/-- Recording an error: what changes (R62, R67, R525). -/
theorem recordOn_rec (fuel : Nat) (s : State) (pg bitNo : Nat) (event inj : Bool) (sub det : Nat) (ctag : Word) :
    RecFrame s (recordOn fuel s pg bitNo event inj sub det ctag) := by
  induction fuel generalizing s pg bitNo event inj sub det ctag with
  | zero => exact RecFrame.refl s
  | succ n ih =>
    unfold recordOn
    dsimp only
    split
    · exact regSet_rec _ _ _
    · have h1 := (regSet_rec s (pg + 0x20) (regGet s (pg + 0x20) ||| bitw bitNo)).trans
        (noteFirst_rec _ pg (errFirstWord bitNo (wbit (regGet (regSet s (pg + 0x20) (regGet s (pg + 0x20) ||| bitw bitNo))
          (pg + 0x28)) bitNo) inj sub det) ctag)
      have hb : ∀ x, RecFrame x (recordOn n (emit x (.carillonInt pg)) (page .pce 0) eIntRouteBad.bit false false 0
          (pg / 4096) 0xFFFFFFFF) := fun x => (emit_rec x _).trans (ih _ _ _ _ _ _ _ _)
      have go : ∀ u, RecFrame s u → ∀ b : Bool, RecFrame s (if b then intMessage u pg (fun x =>
          recordOn n (emit x (.carillonInt pg)) (page .pce 0) eIntRouteBad.bit false false 0 (pg / 4096) 0xFFFFFFFF)
          else u) := by
        intro u hu b
        cases b
        · exact hu
        · exact hu.trans (intMessage_rec _ _ _ hb)
      apply go
      split
      · split
        · refine RecFrame.trans (h1.trans (queueEvent_rec _ _)) (RecFrame.trans (evOverflow_rec _ true) (ih _ _ _ _ _ _ _ _))
        · exact h1.trans (queueEvent_rec _ _)
      · exact h1

theorem sendInt_rec (s : State) (pg : Nat) : RecFrame s (sendInt s pg) :=
  intMessage_rec _ _ _ (fun x => (emit_rec x _).trans (recordOn_rec _ _ _ _ _ _ _ _ _))

/-- Raising an interrupt bit: what changes (R67). -/
theorem raiseInt_rec (s : State) (b : Block) (i bitNo : Nat) : RecFrame s (raiseInt s b i bitNo) := by
  unfold raiseInt
  dsimp only
  split
  · exact (regSet_rec _ _ _).trans (sendInt_rec _ _)
  · exact regSet_rec _ _ _

theorem stateEvent_rec (s : State) (b : Block) (i num detail : Nat) : RecFrame s (stateEvent s b i num detail) :=
  queueEvent_rec _ _

theorem powerCycleReq_rec (s : State) (cause : Nat) : RecFrame s (powerCycleReq s cause) := recordOn_rec _ _ _ _ _ _ _ _ _

theorem requestPart_err (s : State) (p cause : Nat) (e x : Bool) (pg : Nat) : ErrFrame s (requestPart s p cause e x pg) where

theorem requestEng_err (s : State) (n e cause : Nat) : ErrFrame s (requestEng s n e cause) where

theorem requestChip_err (s : State) (cause : Nat) (e : Bool) (pg : Nat) : ErrFrame s (requestChip s cause e pg) := by
  unfold requestChip
  dsimp only
  split <;> exact {}

/-- Escalation: what changes (R472). -/
theorem escalateUnit_err (s : State) (e : ErrCode) (i : Nat) : ErrFrame s (escalateUnit s e i) := by
  unfold escalateUnit
  dsimp only
  repeat' split
  all_goals first
    | exact ErrFrame.refl _
    | exact requestEng_err _ _ _ _
    | exact (recordOn_rec _ _ _ _ _ _ _ _ _).toErrFrame.trans (requestChip_err _ _ _ _)
    | exact (recordOn_rec _ _ _ _ _ _ _ _ _).toErrFrame.trans (requestPart_err _ _ _ _ _ _)
    | exact (recordOn_rec _ _ _ _ _ _ _ _ _).toErrFrame.trans (requestEng_err _ _ _ _)

/-- Recording a detected error of a code, with its escalation: what changes (R62, R64, R472). -/
theorem recErr_err (s : State) (e : ErrCode) (i sub det : Nat) (ctag : Word) : ErrFrame s (recErr s e i sub det ctag) :=
  (recordOn_rec _ _ _ _ _ _ _ _ _).toErrFrame.trans (escalateUnit_err _ _ _)

/-! The same, field by field. -/
@[simp] theorem recErr_pending (s : State) (e : ErrCode) (i sub det : Nat) (c : Word) : (recErr s e i sub det c).pending = s.pending := (recErr_err s e i sub det c).pending
@[simp] theorem recErr_net (s : State) (e : ErrCode) (i sub det : Nat) (c : Word) : (recErr s e i sub det c).net = s.net := (recErr_err s e i sub det c).net
@[simp] theorem recErr_us (s : State) (e : ErrCode) (i sub det : Nat) (c : Word) : (recErr s e i sub det c).us = s.us := (recErr_err s e i sub det c).us
@[simp] theorem recErr_draws (s : State) (e : ErrCode) (i sub det : Nat) (c : Word) : (recErr s e i sub det c).draws = s.draws := (recErr_err s e i sub det c).draws
@[simp] theorem recErr_mem (s : State) (e : ErrCode) (i sub det : Nat) (c : Word) : (recErr s e i sub det c).mem = s.mem := (recErr_err s e i sub det c).mem
@[simp] theorem recErr_poison (s : State) (e : ErrCode) (i sub det : Nat) (c : Word) : (recErr s e i sub det c).poison = s.poison := (recErr_err s e i sub det c).poison
@[simp] theorem recErr_split (s : State) (e : ErrCode) (i sub det : Nat) (c : Word) : (recErr s e i sub det c).split = s.split := (recErr_err s e i sub det c).split
@[simp] theorem recErr_clusters (s : State) (e : ErrCode) (i sub det : Nat) (c : Word) : (recErr s e i sub det c).clusters = s.clusters := (recErr_err s e i sub det c).clusters
@[simp] theorem recErr_gong (s : State) (e : ErrCode) (i sub det : Nat) (c : Word) : (recErr s e i sub det c).gong = s.gong := (recErr_err s e i sub det c).gong
@[simp] theorem recErr_host (s : State) (e : ErrCode) (i sub det : Nat) (c : Word) : (recErr s e i sub det c).host = s.host := (recErr_err s e i sub det c).host
@[simp] theorem recErr_partReset (s : State) (e : ErrCode) (i sub det : Nat) (c : Word) : (recErr s e i sub det c).partReset = s.partReset := (recErr_err s e i sub det c).partReset
@[simp] theorem recErr_chipReset (s : State) (e : ErrCode) (i sub det : Nat) (c : Word) : (recErr s e i sub det c).chipReset = s.chipReset := (recErr_err s e i sub det c).chipReset
@[simp] theorem recErr_rowErrs (s : State) (e : ErrCode) (i sub det : Nat) (c : Word) : (recErr s e i sub det c).rowErrs = s.rowErrs := (recErr_err s e i sub det c).rowErrs
@[simp] theorem recErr_rowsPerm (s : State) (e : ErrCode) (i sub det : Nat) (c : Word) : (recErr s e i sub det c).rowsPerm = s.rowsPerm := (recErr_err s e i sub det c).rowsPerm
@[simp] theorem recErr_pprQueue (s : State) (e : ErrCode) (i sub det : Nat) (c : Word) : (recErr s e i sub det c).pprQueue = s.pprQueue := (recErr_err s e i sub det c).pprQueue
@[simp] theorem recErr_pprUsed (s : State) (e : ErrCode) (i sub det : Nat) (c : Word) : (recErr s e i sub det c).pprUsed = s.pprUsed := (recErr_err s e i sub det c).pprUsed
@[simp] theorem recErr_caFails (s : State) (e : ErrCode) (i sub det : Nat) (c : Word) : (recErr s e i sub det c).caFails = s.caFails := (recErr_err s e i sub det c).caFails
@[simp] theorem recErr_pcDead (s : State) (e : ErrCode) (i sub det : Nat) (c : Word) : (recErr s e i sub det c).pcDead = s.pcDead := (recErr_err s e i sub det c).pcDead
@[simp] theorem recErr_stgErrs (s : State) (e : ErrCode) (i sub det : Nat) (c : Word) : (recErr s e i sub det c).stgErrs = s.stgErrs := (recErr_err s e i sub det c).stgErrs
@[simp] theorem recErr_stgSpares (s : State) (e : ErrCode) (i sub det : Nat) (c : Word) : (recErr s e i sub det c).stgSpares = s.stgSpares := (recErr_err s e i sub det c).stgSpares
@[simp] theorem recErr_stgRowsPerm (s : State) (e : ErrCode) (i sub det : Nat) (c : Word) : (recErr s e i sub det c).stgRowsPerm = s.stgRowsPerm := (recErr_err s e i sub det c).stgRowsPerm
@[simp] theorem recErr_keysErased (s : State) (e : ErrCode) (i sub det : Nat) (c : Word) : (recErr s e i sub det c).keysErased = s.keysErased := (recErr_err s e i sub det c).keysErased
@[simp] theorem recErr_pools (s : State) (e : ErrCode) (i sub det : Nat) (c : Word) : (recErr s e i sub det c).pools = s.pools := (recErr_err s e i sub det c).pools
@[simp] theorem recErr_grants (s : State) (e : ErrCode) (i sub det : Nat) (c : Word) : (recErr s e i sub det c).grants = s.grants := (recErr_err s e i sub det c).grants
@[simp] theorem recErr_grantReqs (s : State) (e : ErrCode) (i sub det : Nat) (c : Word) : (recErr s e i sub det c).grantReqs = s.grantReqs := (recErr_err s e i sub det c).grantReqs
@[simp] theorem recErr_poolAsked (s : State) (e : ErrCode) (i sub det : Nat) (c : Word) : (recErr s e i sub det c).poolAsked = s.poolAsked := (recErr_err s e i sub det c).poolAsked
@[simp] theorem recErr_fastCap (s : State) (e : ErrCode) (i sub det : Nat) (c : Word) : (recErr s e i sub det c).fastCap = s.fastCap := (recErr_err s e i sub det c).fastCap
@[simp] theorem recErr_ports (s : State) (e : ErrCode) (i sub det : Nat) (c : Word) : (recErr s e i sub det c).ports = s.ports := (recErr_err s e i sub det c).ports
@[simp] theorem recErr_fb (s : State) (e : ErrCode) (i sub det : Nat) (c : Word) : (recErr s e i sub det c).fb = s.fb := (recErr_err s e i sub det c).fb
@[simp] theorem recErr_peers (s : State) (e : ErrCode) (i sub det : Nat) (c : Word) : (recErr s e i sub det c).peers = s.peers := (recErr_err s e i sub det c).peers
@[simp] theorem recErr_roll (s : State) (e : ErrCode) (i sub det : Nat) (c : Word) : (recErr s e i sub det c).roll = s.roll := (recErr_err s e i sub det c).roll
@[simp] theorem recErr_mgtIdx (s : State) (e : ErrCode) (i sub det : Nat) (c : Word) : (recErr s e i sub det c).mgtIdx = s.mgtIdx := (recErr_err s e i sub det c).mgtIdx
@[simp] theorem recErr_mcCfg (s : State) (e : ErrCode) (i sub det : Nat) (c : Word) : (recErr s e i sub det c).mcCfg = s.mcCfg := (recErr_err s e i sub det c).mcCfg
@[simp] theorem recErr_mcCheck (s : State) (e : ErrCode) (i sub det : Nat) (c : Word) : (recErr s e i sub det c).mcCheck = s.mcCheck := (recErr_err s e i sub det c).mcCheck
@[simp] theorem recErr_mcMember (s : State) (e : ErrCode) (i sub det : Nat) (c : Word) : (recErr s e i sub det c).mcMember = s.mcMember := (recErr_err s e i sub det c).mcMember
@[simp] theorem recErr_mcKey (s : State) (e : ErrCode) (i sub det : Nat) (c : Word) : (recErr s e i sub det c).mcKey = s.mcKey := (recErr_err s e i sub det c).mcKey
@[simp] theorem recErr_mcFseq (s : State) (e : ErrCode) (i sub det : Nat) (c : Word) : (recErr s e i sub det c).mcFseq = s.mcFseq := (recErr_err s e i sub det c).mcFseq
@[simp] theorem recErr_mcSends (s : State) (e : ErrCode) (i sub det : Nat) (c : Word) : (recErr s e i sub det c).mcSends = s.mcSends := (recErr_err s e i sub det c).mcSends
@[simp] theorem recErr_destRecs (s : State) (e : ErrCode) (i sub det : Nat) (c : Word) : (recErr s e i sub det c).destRecs = s.destRecs := (recErr_err s e i sub det c).destRecs
@[simp] theorem recErr_epoch (s : State) (e : ErrCode) (i sub det : Nat) (c : Word) : (recErr s e i sub det c).epoch = s.epoch := (recErr_err s e i sub det c).epoch
@[simp] theorem recErr_prevEpoch (s : State) (e : ErrCode) (i sub det : Nat) (c : Word) : (recErr s e i sub det c).prevEpoch = s.prevEpoch := (recErr_err s e i sub det c).prevEpoch
@[simp] theorem recErr_epochPeers (s : State) (e : ErrCode) (i sub det : Nat) (c : Word) : (recErr s e i sub det c).epochPeers = s.epochPeers := (recErr_err s e i sub det c).epochPeers
@[simp] theorem recErr_nonce (s : State) (e : ErrCode) (i sub det : Nat) (c : Word) : (recErr s e i sub det c).nonce = s.nonce := (recErr_err s e i sub det c).nonce
@[simp] theorem recErr_fabKeys (s : State) (e : ErrCode) (i sub det : Nat) (c : Word) : (recErr s e i sub det c).fabKeys = s.fabKeys := (recErr_err s e i sub det c).fabKeys
@[simp] theorem recErr_resid (s : State) (e : ErrCode) (i sub det : Nat) (c : Word) : (recErr s e i sub det c).resid = s.resid := (recErr_err s e i sub det c).resid
@[simp] theorem recErr_ctxResets (s : State) (e : ErrCode) (i sub det : Nat) (c : Word) : (recErr s e i sub det c).ctxResets = s.ctxResets := (recErr_err s e i sub det c).ctxResets
@[simp] theorem recErr_fuses (s : State) (e : ErrCode) (i sub det : Nat) (c : Word) : (recErr s e i sub det c).fuses = s.fuses := (recErr_err s e i sub det c).fuses
@[simp] theorem recErr_fw (s : State) (e : ErrCode) (i sub det : Nat) (c : Word) : (recErr s e i sub det c).fw = s.fw := (recErr_err s e i sub det c).fw
@[simp] theorem recErr_carillon (s : State) (e : ErrCode) (i sub det : Nat) (c : Word) : (recErr s e i sub det c).carillon = s.carillon := (recErr_err s e i sub det c).carillon
@[simp] theorem recErr_sec (s : State) (e : ErrCode) (i sub det : Nat) (c : Word) : (recErr s e i sub det c).sec = s.sec := (recErr_err s e i sub det c).sec
@[simp] theorem recErr_power (s : State) (e : ErrCode) (i sub det : Nat) (c : Word) : (recErr s e i sub det c).power = s.power := (recErr_err s e i sub det c).power
@[simp] theorem recErr_thermal (s : State) (e : ErrCode) (i sub det : Nat) (c : Word) : (recErr s e i sub det c).thermal = s.thermal := (recErr_err s e i sub det c).thermal
@[simp] theorem recErr_islands (s : State) (e : ErrCode) (i sub det : Nat) (c : Word) : (recErr s e i sub det c).islands = s.islands := (recErr_err s e i sub det c).islands
@[simp] theorem recErr_bist (s : State) (e : ErrCode) (i sub det : Nat) (c : Word) : (recErr s e i sub det c).bist = s.bist := (recErr_err s e i sub det c).bist
@[simp] theorem recErr_pealCores (s : State) (e : ErrCode) (i sub det : Nat) (c : Word) : (recErr s e i sub det c).pealCores = s.pealCores := (recErr_err s e i sub det c).pealCores
@[simp] theorem recErr_pealBad (s : State) (e : ErrCode) (i sub det : Nat) (c : Word) : (recErr s e i sub det c).pealBad = s.pealBad := (recErr_err s e i sub det c).pealBad
@[simp] theorem recErr_setOps (s : State) (e : ErrCode) (i sub det : Nat) (c : Word) : (recErr s e i sub det c).setOps = s.setOps := (recErr_err s e i sub det c).setOps
@[simp] theorem recErr_dump (s : State) (e : ErrCode) (i sub det : Nat) (c : Word) : (recErr s e i sub det c).dump = s.dump := (recErr_err s e i sub det c).dump
@[simp] theorem recErr_engines (s : State) (e : ErrCode) (i sub det : Nat) (c : Word) : (recErr s e i sub det c).engines = s.engines := (recErr_err s e i sub det c).engines
@[simp] theorem recErr_fieldCores (s : State) (e : ErrCode) (i sub det : Nat) (c : Word) : (recErr s e i sub det c).fieldCores = s.fieldCores := (recErr_err s e i sub det c).fieldCores
@[simp] theorem recErr_fieldSlices (s : State) (e : ErrCode) (i sub det : Nat) (c : Word) : (recErr s e i sub det c).fieldSlices = s.fieldSlices := (recErr_err s e i sub det c).fieldSlices
@[simp] theorem recErr_fieldDirty (s : State) (e : ErrCode) (i sub det : Nat) (c : Word) : (recErr s e i sub det c).fieldDirty = s.fieldDirty := (recErr_err s e i sub det c).fieldDirty
@[simp] theorem recErr_retention (s : State) (e : ErrCode) (i sub det : Nat) (c : Word) : (recErr s e i sub det c).retention = s.retention := (recErr_err s e i sub det c).retention
@[simp] theorem recErr_retEvents (s : State) (e : ErrCode) (i sub det : Nat) (c : Word) : (recErr s e i sub det c).retEvents = s.retEvents := (recErr_err s e i sub det c).retEvents
@[simp] theorem recErr_bootRetried (s : State) (e : ErrCode) (i sub det : Nat) (c : Word) : (recErr s e i sub det c).bootRetried = s.bootRetried := (recErr_err s e i sub det c).bootRetried
@[simp] theorem recErr_chipAtS2 (s : State) (e : ErrCode) (i sub det : Nat) (c : Word) : (recErr s e i sub det c).chipAtS2 = s.chipAtS2 := (recErr_err s e i sub det c).chipAtS2
@[simp] theorem recErr_flr (s : State) (e : ErrCode) (i sub det : Nat) (c : Word) : (recErr s e i sub det c).flr = s.flr := (recErr_err s e i sub det c).flr
@[simp] theorem recErr_timeHi (s : State) (e : ErrCode) (i sub det : Nat) (c : Word) : (recErr s e i sub det c).timeHi = s.timeHi := (recErr_err s e i sub det c).timeHi
@[simp] theorem recErr_brgOut (s : State) (e : ErrCode) (i sub det : Nat) (c : Word) : (recErr s e i sub det c).brgOut = s.brgOut := (recErr_err s e i sub det c).brgOut
@[simp] theorem recErr_brgReplays (s : State) (e : ErrCode) (i sub det : Nat) (c : Word) : (recErr s e i sub det c).brgReplays = s.brgReplays := (recErr_err s e i sub det c).brgReplays
@[simp] theorem recErr_scrub (s : State) (e : ErrCode) (i sub det : Nat) (c : Word) : (recErr s e i sub det c).scrub = s.scrub := (recErr_err s e i sub det c).scrub
@[simp] theorem recErr_zeroAt (s : State) (e : ErrCode) (i sub det : Nat) (c : Word) : (recErr s e i sub det c).zeroAt = s.zeroAt := (recErr_err s e i sub det c).zeroAt

@[simp] theorem recordOn_pending (s : State) (n : Nat) (pg b : Nat) (e j : Bool) (sub det : Nat) (c : Word) : (recordOn n s pg b e j sub det c).pending = s.pending := (recordOn_rec n s pg b e j sub det c).pending
@[simp] theorem recordOn_net (s : State) (n : Nat) (pg b : Nat) (e j : Bool) (sub det : Nat) (c : Word) : (recordOn n s pg b e j sub det c).net = s.net := (recordOn_rec n s pg b e j sub det c).net
@[simp] theorem recordOn_us (s : State) (n : Nat) (pg b : Nat) (e j : Bool) (sub det : Nat) (c : Word) : (recordOn n s pg b e j sub det c).us = s.us := (recordOn_rec n s pg b e j sub det c).us
@[simp] theorem recordOn_draws (s : State) (n : Nat) (pg b : Nat) (e j : Bool) (sub det : Nat) (c : Word) : (recordOn n s pg b e j sub det c).draws = s.draws := (recordOn_rec n s pg b e j sub det c).draws
@[simp] theorem recordOn_mem (s : State) (n : Nat) (pg b : Nat) (e j : Bool) (sub det : Nat) (c : Word) : (recordOn n s pg b e j sub det c).mem = s.mem := (recordOn_rec n s pg b e j sub det c).mem
@[simp] theorem recordOn_poison (s : State) (n : Nat) (pg b : Nat) (e j : Bool) (sub det : Nat) (c : Word) : (recordOn n s pg b e j sub det c).poison = s.poison := (recordOn_rec n s pg b e j sub det c).poison
@[simp] theorem recordOn_split (s : State) (n : Nat) (pg b : Nat) (e j : Bool) (sub det : Nat) (c : Word) : (recordOn n s pg b e j sub det c).split = s.split := (recordOn_rec n s pg b e j sub det c).split
@[simp] theorem recordOn_clusters (s : State) (n : Nat) (pg b : Nat) (e j : Bool) (sub det : Nat) (c : Word) : (recordOn n s pg b e j sub det c).clusters = s.clusters := (recordOn_rec n s pg b e j sub det c).clusters
@[simp] theorem recordOn_gong (s : State) (n : Nat) (pg b : Nat) (e j : Bool) (sub det : Nat) (c : Word) : (recordOn n s pg b e j sub det c).gong = s.gong := (recordOn_rec n s pg b e j sub det c).gong
@[simp] theorem recordOn_host (s : State) (n : Nat) (pg b : Nat) (e j : Bool) (sub det : Nat) (c : Word) : (recordOn n s pg b e j sub det c).host = s.host := (recordOn_rec n s pg b e j sub det c).host
@[simp] theorem recordOn_partReset (s : State) (n : Nat) (pg b : Nat) (e j : Bool) (sub det : Nat) (c : Word) : (recordOn n s pg b e j sub det c).partReset = s.partReset := (recordOn_rec n s pg b e j sub det c).partReset
@[simp] theorem recordOn_chipReset (s : State) (n : Nat) (pg b : Nat) (e j : Bool) (sub det : Nat) (c : Word) : (recordOn n s pg b e j sub det c).chipReset = s.chipReset := (recordOn_rec n s pg b e j sub det c).chipReset
@[simp] theorem recordOn_rowErrs (s : State) (n : Nat) (pg b : Nat) (e j : Bool) (sub det : Nat) (c : Word) : (recordOn n s pg b e j sub det c).rowErrs = s.rowErrs := (recordOn_rec n s pg b e j sub det c).rowErrs
@[simp] theorem recordOn_rowsPerm (s : State) (n : Nat) (pg b : Nat) (e j : Bool) (sub det : Nat) (c : Word) : (recordOn n s pg b e j sub det c).rowsPerm = s.rowsPerm := (recordOn_rec n s pg b e j sub det c).rowsPerm
@[simp] theorem recordOn_pprQueue (s : State) (n : Nat) (pg b : Nat) (e j : Bool) (sub det : Nat) (c : Word) : (recordOn n s pg b e j sub det c).pprQueue = s.pprQueue := (recordOn_rec n s pg b e j sub det c).pprQueue
@[simp] theorem recordOn_pprUsed (s : State) (n : Nat) (pg b : Nat) (e j : Bool) (sub det : Nat) (c : Word) : (recordOn n s pg b e j sub det c).pprUsed = s.pprUsed := (recordOn_rec n s pg b e j sub det c).pprUsed
@[simp] theorem recordOn_caFails (s : State) (n : Nat) (pg b : Nat) (e j : Bool) (sub det : Nat) (c : Word) : (recordOn n s pg b e j sub det c).caFails = s.caFails := (recordOn_rec n s pg b e j sub det c).caFails
@[simp] theorem recordOn_pcDead (s : State) (n : Nat) (pg b : Nat) (e j : Bool) (sub det : Nat) (c : Word) : (recordOn n s pg b e j sub det c).pcDead = s.pcDead := (recordOn_rec n s pg b e j sub det c).pcDead
@[simp] theorem recordOn_stgErrs (s : State) (n : Nat) (pg b : Nat) (e j : Bool) (sub det : Nat) (c : Word) : (recordOn n s pg b e j sub det c).stgErrs = s.stgErrs := (recordOn_rec n s pg b e j sub det c).stgErrs
@[simp] theorem recordOn_stgSpares (s : State) (n : Nat) (pg b : Nat) (e j : Bool) (sub det : Nat) (c : Word) : (recordOn n s pg b e j sub det c).stgSpares = s.stgSpares := (recordOn_rec n s pg b e j sub det c).stgSpares
@[simp] theorem recordOn_stgRowsPerm (s : State) (n : Nat) (pg b : Nat) (e j : Bool) (sub det : Nat) (c : Word) : (recordOn n s pg b e j sub det c).stgRowsPerm = s.stgRowsPerm := (recordOn_rec n s pg b e j sub det c).stgRowsPerm
@[simp] theorem recordOn_keysErased (s : State) (n : Nat) (pg b : Nat) (e j : Bool) (sub det : Nat) (c : Word) : (recordOn n s pg b e j sub det c).keysErased = s.keysErased := (recordOn_rec n s pg b e j sub det c).keysErased
@[simp] theorem recordOn_pools (s : State) (n : Nat) (pg b : Nat) (e j : Bool) (sub det : Nat) (c : Word) : (recordOn n s pg b e j sub det c).pools = s.pools := (recordOn_rec n s pg b e j sub det c).pools
@[simp] theorem recordOn_grants (s : State) (n : Nat) (pg b : Nat) (e j : Bool) (sub det : Nat) (c : Word) : (recordOn n s pg b e j sub det c).grants = s.grants := (recordOn_rec n s pg b e j sub det c).grants
@[simp] theorem recordOn_grantReqs (s : State) (n : Nat) (pg b : Nat) (e j : Bool) (sub det : Nat) (c : Word) : (recordOn n s pg b e j sub det c).grantReqs = s.grantReqs := (recordOn_rec n s pg b e j sub det c).grantReqs
@[simp] theorem recordOn_poolAsked (s : State) (n : Nat) (pg b : Nat) (e j : Bool) (sub det : Nat) (c : Word) : (recordOn n s pg b e j sub det c).poolAsked = s.poolAsked := (recordOn_rec n s pg b e j sub det c).poolAsked
@[simp] theorem recordOn_fastCap (s : State) (n : Nat) (pg b : Nat) (e j : Bool) (sub det : Nat) (c : Word) : (recordOn n s pg b e j sub det c).fastCap = s.fastCap := (recordOn_rec n s pg b e j sub det c).fastCap
@[simp] theorem recordOn_ports (s : State) (n : Nat) (pg b : Nat) (e j : Bool) (sub det : Nat) (c : Word) : (recordOn n s pg b e j sub det c).ports = s.ports := (recordOn_rec n s pg b e j sub det c).ports
@[simp] theorem recordOn_fb (s : State) (n : Nat) (pg b : Nat) (e j : Bool) (sub det : Nat) (c : Word) : (recordOn n s pg b e j sub det c).fb = s.fb := (recordOn_rec n s pg b e j sub det c).fb
@[simp] theorem recordOn_peers (s : State) (n : Nat) (pg b : Nat) (e j : Bool) (sub det : Nat) (c : Word) : (recordOn n s pg b e j sub det c).peers = s.peers := (recordOn_rec n s pg b e j sub det c).peers
@[simp] theorem recordOn_roll (s : State) (n : Nat) (pg b : Nat) (e j : Bool) (sub det : Nat) (c : Word) : (recordOn n s pg b e j sub det c).roll = s.roll := (recordOn_rec n s pg b e j sub det c).roll
@[simp] theorem recordOn_mgtIdx (s : State) (n : Nat) (pg b : Nat) (e j : Bool) (sub det : Nat) (c : Word) : (recordOn n s pg b e j sub det c).mgtIdx = s.mgtIdx := (recordOn_rec n s pg b e j sub det c).mgtIdx
@[simp] theorem recordOn_mcCfg (s : State) (n : Nat) (pg b : Nat) (e j : Bool) (sub det : Nat) (c : Word) : (recordOn n s pg b e j sub det c).mcCfg = s.mcCfg := (recordOn_rec n s pg b e j sub det c).mcCfg
@[simp] theorem recordOn_mcCheck (s : State) (n : Nat) (pg b : Nat) (e j : Bool) (sub det : Nat) (c : Word) : (recordOn n s pg b e j sub det c).mcCheck = s.mcCheck := (recordOn_rec n s pg b e j sub det c).mcCheck
@[simp] theorem recordOn_mcMember (s : State) (n : Nat) (pg b : Nat) (e j : Bool) (sub det : Nat) (c : Word) : (recordOn n s pg b e j sub det c).mcMember = s.mcMember := (recordOn_rec n s pg b e j sub det c).mcMember
@[simp] theorem recordOn_mcKey (s : State) (n : Nat) (pg b : Nat) (e j : Bool) (sub det : Nat) (c : Word) : (recordOn n s pg b e j sub det c).mcKey = s.mcKey := (recordOn_rec n s pg b e j sub det c).mcKey
@[simp] theorem recordOn_mcFseq (s : State) (n : Nat) (pg b : Nat) (e j : Bool) (sub det : Nat) (c : Word) : (recordOn n s pg b e j sub det c).mcFseq = s.mcFseq := (recordOn_rec n s pg b e j sub det c).mcFseq
@[simp] theorem recordOn_mcSends (s : State) (n : Nat) (pg b : Nat) (e j : Bool) (sub det : Nat) (c : Word) : (recordOn n s pg b e j sub det c).mcSends = s.mcSends := (recordOn_rec n s pg b e j sub det c).mcSends
@[simp] theorem recordOn_destRecs (s : State) (n : Nat) (pg b : Nat) (e j : Bool) (sub det : Nat) (c : Word) : (recordOn n s pg b e j sub det c).destRecs = s.destRecs := (recordOn_rec n s pg b e j sub det c).destRecs
@[simp] theorem recordOn_epoch (s : State) (n : Nat) (pg b : Nat) (e j : Bool) (sub det : Nat) (c : Word) : (recordOn n s pg b e j sub det c).epoch = s.epoch := (recordOn_rec n s pg b e j sub det c).epoch
@[simp] theorem recordOn_prevEpoch (s : State) (n : Nat) (pg b : Nat) (e j : Bool) (sub det : Nat) (c : Word) : (recordOn n s pg b e j sub det c).prevEpoch = s.prevEpoch := (recordOn_rec n s pg b e j sub det c).prevEpoch
@[simp] theorem recordOn_epochPeers (s : State) (n : Nat) (pg b : Nat) (e j : Bool) (sub det : Nat) (c : Word) : (recordOn n s pg b e j sub det c).epochPeers = s.epochPeers := (recordOn_rec n s pg b e j sub det c).epochPeers
@[simp] theorem recordOn_nonce (s : State) (n : Nat) (pg b : Nat) (e j : Bool) (sub det : Nat) (c : Word) : (recordOn n s pg b e j sub det c).nonce = s.nonce := (recordOn_rec n s pg b e j sub det c).nonce
@[simp] theorem recordOn_fabKeys (s : State) (n : Nat) (pg b : Nat) (e j : Bool) (sub det : Nat) (c : Word) : (recordOn n s pg b e j sub det c).fabKeys = s.fabKeys := (recordOn_rec n s pg b e j sub det c).fabKeys
@[simp] theorem recordOn_resid (s : State) (n : Nat) (pg b : Nat) (e j : Bool) (sub det : Nat) (c : Word) : (recordOn n s pg b e j sub det c).resid = s.resid := (recordOn_rec n s pg b e j sub det c).resid
@[simp] theorem recordOn_ctxResets (s : State) (n : Nat) (pg b : Nat) (e j : Bool) (sub det : Nat) (c : Word) : (recordOn n s pg b e j sub det c).ctxResets = s.ctxResets := (recordOn_rec n s pg b e j sub det c).ctxResets
@[simp] theorem recordOn_fuses (s : State) (n : Nat) (pg b : Nat) (e j : Bool) (sub det : Nat) (c : Word) : (recordOn n s pg b e j sub det c).fuses = s.fuses := (recordOn_rec n s pg b e j sub det c).fuses
@[simp] theorem recordOn_fw (s : State) (n : Nat) (pg b : Nat) (e j : Bool) (sub det : Nat) (c : Word) : (recordOn n s pg b e j sub det c).fw = s.fw := (recordOn_rec n s pg b e j sub det c).fw
@[simp] theorem recordOn_carillon (s : State) (n : Nat) (pg b : Nat) (e j : Bool) (sub det : Nat) (c : Word) : (recordOn n s pg b e j sub det c).carillon = s.carillon := (recordOn_rec n s pg b e j sub det c).carillon
@[simp] theorem recordOn_sec (s : State) (n : Nat) (pg b : Nat) (e j : Bool) (sub det : Nat) (c : Word) : (recordOn n s pg b e j sub det c).sec = s.sec := (recordOn_rec n s pg b e j sub det c).sec
@[simp] theorem recordOn_power (s : State) (n : Nat) (pg b : Nat) (e j : Bool) (sub det : Nat) (c : Word) : (recordOn n s pg b e j sub det c).power = s.power := (recordOn_rec n s pg b e j sub det c).power
@[simp] theorem recordOn_thermal (s : State) (n : Nat) (pg b : Nat) (e j : Bool) (sub det : Nat) (c : Word) : (recordOn n s pg b e j sub det c).thermal = s.thermal := (recordOn_rec n s pg b e j sub det c).thermal
@[simp] theorem recordOn_islands (s : State) (n : Nat) (pg b : Nat) (e j : Bool) (sub det : Nat) (c : Word) : (recordOn n s pg b e j sub det c).islands = s.islands := (recordOn_rec n s pg b e j sub det c).islands
@[simp] theorem recordOn_bist (s : State) (n : Nat) (pg b : Nat) (e j : Bool) (sub det : Nat) (c : Word) : (recordOn n s pg b e j sub det c).bist = s.bist := (recordOn_rec n s pg b e j sub det c).bist
@[simp] theorem recordOn_pealCores (s : State) (n : Nat) (pg b : Nat) (e j : Bool) (sub det : Nat) (c : Word) : (recordOn n s pg b e j sub det c).pealCores = s.pealCores := (recordOn_rec n s pg b e j sub det c).pealCores
@[simp] theorem recordOn_pealBad (s : State) (n : Nat) (pg b : Nat) (e j : Bool) (sub det : Nat) (c : Word) : (recordOn n s pg b e j sub det c).pealBad = s.pealBad := (recordOn_rec n s pg b e j sub det c).pealBad
@[simp] theorem recordOn_setOps (s : State) (n : Nat) (pg b : Nat) (e j : Bool) (sub det : Nat) (c : Word) : (recordOn n s pg b e j sub det c).setOps = s.setOps := (recordOn_rec n s pg b e j sub det c).setOps
@[simp] theorem recordOn_dump (s : State) (n : Nat) (pg b : Nat) (e j : Bool) (sub det : Nat) (c : Word) : (recordOn n s pg b e j sub det c).dump = s.dump := (recordOn_rec n s pg b e j sub det c).dump
@[simp] theorem recordOn_engines (s : State) (n : Nat) (pg b : Nat) (e j : Bool) (sub det : Nat) (c : Word) : (recordOn n s pg b e j sub det c).engines = s.engines := (recordOn_rec n s pg b e j sub det c).engines
@[simp] theorem recordOn_fieldCores (s : State) (n : Nat) (pg b : Nat) (e j : Bool) (sub det : Nat) (c : Word) : (recordOn n s pg b e j sub det c).fieldCores = s.fieldCores := (recordOn_rec n s pg b e j sub det c).fieldCores
@[simp] theorem recordOn_fieldSlices (s : State) (n : Nat) (pg b : Nat) (e j : Bool) (sub det : Nat) (c : Word) : (recordOn n s pg b e j sub det c).fieldSlices = s.fieldSlices := (recordOn_rec n s pg b e j sub det c).fieldSlices
@[simp] theorem recordOn_fieldDirty (s : State) (n : Nat) (pg b : Nat) (e j : Bool) (sub det : Nat) (c : Word) : (recordOn n s pg b e j sub det c).fieldDirty = s.fieldDirty := (recordOn_rec n s pg b e j sub det c).fieldDirty
@[simp] theorem recordOn_retention (s : State) (n : Nat) (pg b : Nat) (e j : Bool) (sub det : Nat) (c : Word) : (recordOn n s pg b e j sub det c).retention = s.retention := (recordOn_rec n s pg b e j sub det c).retention
@[simp] theorem recordOn_retEvents (s : State) (n : Nat) (pg b : Nat) (e j : Bool) (sub det : Nat) (c : Word) : (recordOn n s pg b e j sub det c).retEvents = s.retEvents := (recordOn_rec n s pg b e j sub det c).retEvents
@[simp] theorem recordOn_bootRetried (s : State) (n : Nat) (pg b : Nat) (e j : Bool) (sub det : Nat) (c : Word) : (recordOn n s pg b e j sub det c).bootRetried = s.bootRetried := (recordOn_rec n s pg b e j sub det c).bootRetried
@[simp] theorem recordOn_chipAtS2 (s : State) (n : Nat) (pg b : Nat) (e j : Bool) (sub det : Nat) (c : Word) : (recordOn n s pg b e j sub det c).chipAtS2 = s.chipAtS2 := (recordOn_rec n s pg b e j sub det c).chipAtS2
@[simp] theorem recordOn_flr (s : State) (n : Nat) (pg b : Nat) (e j : Bool) (sub det : Nat) (c : Word) : (recordOn n s pg b e j sub det c).flr = s.flr := (recordOn_rec n s pg b e j sub det c).flr
@[simp] theorem recordOn_timeHi (s : State) (n : Nat) (pg b : Nat) (e j : Bool) (sub det : Nat) (c : Word) : (recordOn n s pg b e j sub det c).timeHi = s.timeHi := (recordOn_rec n s pg b e j sub det c).timeHi
@[simp] theorem recordOn_brgOut (s : State) (n : Nat) (pg b : Nat) (e j : Bool) (sub det : Nat) (c : Word) : (recordOn n s pg b e j sub det c).brgOut = s.brgOut := (recordOn_rec n s pg b e j sub det c).brgOut
@[simp] theorem recordOn_brgReplays (s : State) (n : Nat) (pg b : Nat) (e j : Bool) (sub det : Nat) (c : Word) : (recordOn n s pg b e j sub det c).brgReplays = s.brgReplays := (recordOn_rec n s pg b e j sub det c).brgReplays
@[simp] theorem recordOn_scrub (s : State) (n : Nat) (pg b : Nat) (e j : Bool) (sub det : Nat) (c : Word) : (recordOn n s pg b e j sub det c).scrub = s.scrub := (recordOn_rec n s pg b e j sub det c).scrub
@[simp] theorem recordOn_zeroAt (s : State) (n : Nat) (pg b : Nat) (e j : Bool) (sub det : Nat) (c : Word) : (recordOn n s pg b e j sub det c).zeroAt = s.zeroAt := (recordOn_rec n s pg b e j sub det c).zeroAt
@[simp] theorem recordOn_reqPart (s : State) (n : Nat) (pg b : Nat) (e j : Bool) (sub det : Nat) (c : Word) : (recordOn n s pg b e j sub det c).reqPart = s.reqPart := (recordOn_rec n s pg b e j sub det c).reqPart
@[simp] theorem recordOn_cores (s : State) (n : Nat) (pg b : Nat) (e j : Bool) (sub det : Nat) (c : Word) : (recordOn n s pg b e j sub det c).cores = s.cores := (recordOn_rec n s pg b e j sub det c).cores
@[simp] theorem recordOn_reqChip (s : State) (n : Nat) (pg b : Nat) (e j : Bool) (sub det : Nat) (c : Word) : (recordOn n s pg b e j sub det c).reqChip = s.reqChip := (recordOn_rec n s pg b e j sub det c).reqChip

@[simp] theorem raiseInt_pending (s : State) (b : Block) (i n : Nat) : (raiseInt s b i n).pending = s.pending := (raiseInt_rec s b i n).pending
@[simp] theorem raiseInt_net (s : State) (b : Block) (i n : Nat) : (raiseInt s b i n).net = s.net := (raiseInt_rec s b i n).net
@[simp] theorem raiseInt_us (s : State) (b : Block) (i n : Nat) : (raiseInt s b i n).us = s.us := (raiseInt_rec s b i n).us
@[simp] theorem raiseInt_draws (s : State) (b : Block) (i n : Nat) : (raiseInt s b i n).draws = s.draws := (raiseInt_rec s b i n).draws
@[simp] theorem raiseInt_mem (s : State) (b : Block) (i n : Nat) : (raiseInt s b i n).mem = s.mem := (raiseInt_rec s b i n).mem
@[simp] theorem raiseInt_poison (s : State) (b : Block) (i n : Nat) : (raiseInt s b i n).poison = s.poison := (raiseInt_rec s b i n).poison
@[simp] theorem raiseInt_split (s : State) (b : Block) (i n : Nat) : (raiseInt s b i n).split = s.split := (raiseInt_rec s b i n).split
@[simp] theorem raiseInt_clusters (s : State) (b : Block) (i n : Nat) : (raiseInt s b i n).clusters = s.clusters := (raiseInt_rec s b i n).clusters
@[simp] theorem raiseInt_gong (s : State) (b : Block) (i n : Nat) : (raiseInt s b i n).gong = s.gong := (raiseInt_rec s b i n).gong
@[simp] theorem raiseInt_host (s : State) (b : Block) (i n : Nat) : (raiseInt s b i n).host = s.host := (raiseInt_rec s b i n).host
@[simp] theorem raiseInt_partReset (s : State) (b : Block) (i n : Nat) : (raiseInt s b i n).partReset = s.partReset := (raiseInt_rec s b i n).partReset
@[simp] theorem raiseInt_chipReset (s : State) (b : Block) (i n : Nat) : (raiseInt s b i n).chipReset = s.chipReset := (raiseInt_rec s b i n).chipReset
@[simp] theorem raiseInt_rowErrs (s : State) (b : Block) (i n : Nat) : (raiseInt s b i n).rowErrs = s.rowErrs := (raiseInt_rec s b i n).rowErrs
@[simp] theorem raiseInt_rowsPerm (s : State) (b : Block) (i n : Nat) : (raiseInt s b i n).rowsPerm = s.rowsPerm := (raiseInt_rec s b i n).rowsPerm
@[simp] theorem raiseInt_pprQueue (s : State) (b : Block) (i n : Nat) : (raiseInt s b i n).pprQueue = s.pprQueue := (raiseInt_rec s b i n).pprQueue
@[simp] theorem raiseInt_pprUsed (s : State) (b : Block) (i n : Nat) : (raiseInt s b i n).pprUsed = s.pprUsed := (raiseInt_rec s b i n).pprUsed
@[simp] theorem raiseInt_caFails (s : State) (b : Block) (i n : Nat) : (raiseInt s b i n).caFails = s.caFails := (raiseInt_rec s b i n).caFails
@[simp] theorem raiseInt_pcDead (s : State) (b : Block) (i n : Nat) : (raiseInt s b i n).pcDead = s.pcDead := (raiseInt_rec s b i n).pcDead
@[simp] theorem raiseInt_stgErrs (s : State) (b : Block) (i n : Nat) : (raiseInt s b i n).stgErrs = s.stgErrs := (raiseInt_rec s b i n).stgErrs
@[simp] theorem raiseInt_stgSpares (s : State) (b : Block) (i n : Nat) : (raiseInt s b i n).stgSpares = s.stgSpares := (raiseInt_rec s b i n).stgSpares
@[simp] theorem raiseInt_stgRowsPerm (s : State) (b : Block) (i n : Nat) : (raiseInt s b i n).stgRowsPerm = s.stgRowsPerm := (raiseInt_rec s b i n).stgRowsPerm
@[simp] theorem raiseInt_keysErased (s : State) (b : Block) (i n : Nat) : (raiseInt s b i n).keysErased = s.keysErased := (raiseInt_rec s b i n).keysErased
@[simp] theorem raiseInt_pools (s : State) (b : Block) (i n : Nat) : (raiseInt s b i n).pools = s.pools := (raiseInt_rec s b i n).pools
@[simp] theorem raiseInt_grants (s : State) (b : Block) (i n : Nat) : (raiseInt s b i n).grants = s.grants := (raiseInt_rec s b i n).grants
@[simp] theorem raiseInt_grantReqs (s : State) (b : Block) (i n : Nat) : (raiseInt s b i n).grantReqs = s.grantReqs := (raiseInt_rec s b i n).grantReqs
@[simp] theorem raiseInt_poolAsked (s : State) (b : Block) (i n : Nat) : (raiseInt s b i n).poolAsked = s.poolAsked := (raiseInt_rec s b i n).poolAsked
@[simp] theorem raiseInt_fastCap (s : State) (b : Block) (i n : Nat) : (raiseInt s b i n).fastCap = s.fastCap := (raiseInt_rec s b i n).fastCap
@[simp] theorem raiseInt_ports (s : State) (b : Block) (i n : Nat) : (raiseInt s b i n).ports = s.ports := (raiseInt_rec s b i n).ports
@[simp] theorem raiseInt_fb (s : State) (b : Block) (i n : Nat) : (raiseInt s b i n).fb = s.fb := (raiseInt_rec s b i n).fb
@[simp] theorem raiseInt_peers (s : State) (b : Block) (i n : Nat) : (raiseInt s b i n).peers = s.peers := (raiseInt_rec s b i n).peers
@[simp] theorem raiseInt_roll (s : State) (b : Block) (i n : Nat) : (raiseInt s b i n).roll = s.roll := (raiseInt_rec s b i n).roll
@[simp] theorem raiseInt_mgtIdx (s : State) (b : Block) (i n : Nat) : (raiseInt s b i n).mgtIdx = s.mgtIdx := (raiseInt_rec s b i n).mgtIdx
@[simp] theorem raiseInt_mcCfg (s : State) (b : Block) (i n : Nat) : (raiseInt s b i n).mcCfg = s.mcCfg := (raiseInt_rec s b i n).mcCfg
@[simp] theorem raiseInt_mcCheck (s : State) (b : Block) (i n : Nat) : (raiseInt s b i n).mcCheck = s.mcCheck := (raiseInt_rec s b i n).mcCheck
@[simp] theorem raiseInt_mcMember (s : State) (b : Block) (i n : Nat) : (raiseInt s b i n).mcMember = s.mcMember := (raiseInt_rec s b i n).mcMember
@[simp] theorem raiseInt_mcKey (s : State) (b : Block) (i n : Nat) : (raiseInt s b i n).mcKey = s.mcKey := (raiseInt_rec s b i n).mcKey
@[simp] theorem raiseInt_mcFseq (s : State) (b : Block) (i n : Nat) : (raiseInt s b i n).mcFseq = s.mcFseq := (raiseInt_rec s b i n).mcFseq
@[simp] theorem raiseInt_mcSends (s : State) (b : Block) (i n : Nat) : (raiseInt s b i n).mcSends = s.mcSends := (raiseInt_rec s b i n).mcSends
@[simp] theorem raiseInt_destRecs (s : State) (b : Block) (i n : Nat) : (raiseInt s b i n).destRecs = s.destRecs := (raiseInt_rec s b i n).destRecs
@[simp] theorem raiseInt_epoch (s : State) (b : Block) (i n : Nat) : (raiseInt s b i n).epoch = s.epoch := (raiseInt_rec s b i n).epoch
@[simp] theorem raiseInt_prevEpoch (s : State) (b : Block) (i n : Nat) : (raiseInt s b i n).prevEpoch = s.prevEpoch := (raiseInt_rec s b i n).prevEpoch
@[simp] theorem raiseInt_epochPeers (s : State) (b : Block) (i n : Nat) : (raiseInt s b i n).epochPeers = s.epochPeers := (raiseInt_rec s b i n).epochPeers
@[simp] theorem raiseInt_nonce (s : State) (b : Block) (i n : Nat) : (raiseInt s b i n).nonce = s.nonce := (raiseInt_rec s b i n).nonce
@[simp] theorem raiseInt_fabKeys (s : State) (b : Block) (i n : Nat) : (raiseInt s b i n).fabKeys = s.fabKeys := (raiseInt_rec s b i n).fabKeys
@[simp] theorem raiseInt_resid (s : State) (b : Block) (i n : Nat) : (raiseInt s b i n).resid = s.resid := (raiseInt_rec s b i n).resid
@[simp] theorem raiseInt_ctxResets (s : State) (b : Block) (i n : Nat) : (raiseInt s b i n).ctxResets = s.ctxResets := (raiseInt_rec s b i n).ctxResets
@[simp] theorem raiseInt_fuses (s : State) (b : Block) (i n : Nat) : (raiseInt s b i n).fuses = s.fuses := (raiseInt_rec s b i n).fuses
@[simp] theorem raiseInt_fw (s : State) (b : Block) (i n : Nat) : (raiseInt s b i n).fw = s.fw := (raiseInt_rec s b i n).fw
@[simp] theorem raiseInt_carillon (s : State) (b : Block) (i n : Nat) : (raiseInt s b i n).carillon = s.carillon := (raiseInt_rec s b i n).carillon
@[simp] theorem raiseInt_sec (s : State) (b : Block) (i n : Nat) : (raiseInt s b i n).sec = s.sec := (raiseInt_rec s b i n).sec
@[simp] theorem raiseInt_power (s : State) (b : Block) (i n : Nat) : (raiseInt s b i n).power = s.power := (raiseInt_rec s b i n).power
@[simp] theorem raiseInt_thermal (s : State) (b : Block) (i n : Nat) : (raiseInt s b i n).thermal = s.thermal := (raiseInt_rec s b i n).thermal
@[simp] theorem raiseInt_islands (s : State) (b : Block) (i n : Nat) : (raiseInt s b i n).islands = s.islands := (raiseInt_rec s b i n).islands
@[simp] theorem raiseInt_bist (s : State) (b : Block) (i n : Nat) : (raiseInt s b i n).bist = s.bist := (raiseInt_rec s b i n).bist
@[simp] theorem raiseInt_pealCores (s : State) (b : Block) (i n : Nat) : (raiseInt s b i n).pealCores = s.pealCores := (raiseInt_rec s b i n).pealCores
@[simp] theorem raiseInt_pealBad (s : State) (b : Block) (i n : Nat) : (raiseInt s b i n).pealBad = s.pealBad := (raiseInt_rec s b i n).pealBad
@[simp] theorem raiseInt_setOps (s : State) (b : Block) (i n : Nat) : (raiseInt s b i n).setOps = s.setOps := (raiseInt_rec s b i n).setOps
@[simp] theorem raiseInt_dump (s : State) (b : Block) (i n : Nat) : (raiseInt s b i n).dump = s.dump := (raiseInt_rec s b i n).dump
@[simp] theorem raiseInt_engines (s : State) (b : Block) (i n : Nat) : (raiseInt s b i n).engines = s.engines := (raiseInt_rec s b i n).engines
@[simp] theorem raiseInt_fieldCores (s : State) (b : Block) (i n : Nat) : (raiseInt s b i n).fieldCores = s.fieldCores := (raiseInt_rec s b i n).fieldCores
@[simp] theorem raiseInt_fieldSlices (s : State) (b : Block) (i n : Nat) : (raiseInt s b i n).fieldSlices = s.fieldSlices := (raiseInt_rec s b i n).fieldSlices
@[simp] theorem raiseInt_fieldDirty (s : State) (b : Block) (i n : Nat) : (raiseInt s b i n).fieldDirty = s.fieldDirty := (raiseInt_rec s b i n).fieldDirty
@[simp] theorem raiseInt_retention (s : State) (b : Block) (i n : Nat) : (raiseInt s b i n).retention = s.retention := (raiseInt_rec s b i n).retention
@[simp] theorem raiseInt_retEvents (s : State) (b : Block) (i n : Nat) : (raiseInt s b i n).retEvents = s.retEvents := (raiseInt_rec s b i n).retEvents
@[simp] theorem raiseInt_bootRetried (s : State) (b : Block) (i n : Nat) : (raiseInt s b i n).bootRetried = s.bootRetried := (raiseInt_rec s b i n).bootRetried
@[simp] theorem raiseInt_chipAtS2 (s : State) (b : Block) (i n : Nat) : (raiseInt s b i n).chipAtS2 = s.chipAtS2 := (raiseInt_rec s b i n).chipAtS2
@[simp] theorem raiseInt_flr (s : State) (b : Block) (i n : Nat) : (raiseInt s b i n).flr = s.flr := (raiseInt_rec s b i n).flr
@[simp] theorem raiseInt_timeHi (s : State) (b : Block) (i n : Nat) : (raiseInt s b i n).timeHi = s.timeHi := (raiseInt_rec s b i n).timeHi
@[simp] theorem raiseInt_brgOut (s : State) (b : Block) (i n : Nat) : (raiseInt s b i n).brgOut = s.brgOut := (raiseInt_rec s b i n).brgOut
@[simp] theorem raiseInt_brgReplays (s : State) (b : Block) (i n : Nat) : (raiseInt s b i n).brgReplays = s.brgReplays := (raiseInt_rec s b i n).brgReplays
@[simp] theorem raiseInt_scrub (s : State) (b : Block) (i n : Nat) : (raiseInt s b i n).scrub = s.scrub := (raiseInt_rec s b i n).scrub
@[simp] theorem raiseInt_zeroAt (s : State) (b : Block) (i n : Nat) : (raiseInt s b i n).zeroAt = s.zeroAt := (raiseInt_rec s b i n).zeroAt
@[simp] theorem raiseInt_reqPart (s : State) (b : Block) (i n : Nat) : (raiseInt s b i n).reqPart = s.reqPart := (raiseInt_rec s b i n).reqPart
@[simp] theorem raiseInt_cores (s : State) (b : Block) (i n : Nat) : (raiseInt s b i n).cores = s.cores := (raiseInt_rec s b i n).cores
@[simp] theorem raiseInt_reqChip (s : State) (b : Block) (i n : Nat) : (raiseInt s b i n).reqChip = s.reqChip := (raiseInt_rec s b i n).reqChip

@[simp] theorem stateEvent_pending (s : State) (b : Block) (i n d : Nat) : (stateEvent s b i n d).pending = s.pending := (stateEvent_rec s b i n d).pending
@[simp] theorem stateEvent_net (s : State) (b : Block) (i n d : Nat) : (stateEvent s b i n d).net = s.net := (stateEvent_rec s b i n d).net
@[simp] theorem stateEvent_us (s : State) (b : Block) (i n d : Nat) : (stateEvent s b i n d).us = s.us := (stateEvent_rec s b i n d).us
@[simp] theorem stateEvent_draws (s : State) (b : Block) (i n d : Nat) : (stateEvent s b i n d).draws = s.draws := (stateEvent_rec s b i n d).draws
@[simp] theorem stateEvent_mem (s : State) (b : Block) (i n d : Nat) : (stateEvent s b i n d).mem = s.mem := (stateEvent_rec s b i n d).mem
@[simp] theorem stateEvent_poison (s : State) (b : Block) (i n d : Nat) : (stateEvent s b i n d).poison = s.poison := (stateEvent_rec s b i n d).poison
@[simp] theorem stateEvent_split (s : State) (b : Block) (i n d : Nat) : (stateEvent s b i n d).split = s.split := (stateEvent_rec s b i n d).split
@[simp] theorem stateEvent_clusters (s : State) (b : Block) (i n d : Nat) : (stateEvent s b i n d).clusters = s.clusters := (stateEvent_rec s b i n d).clusters
@[simp] theorem stateEvent_gong (s : State) (b : Block) (i n d : Nat) : (stateEvent s b i n d).gong = s.gong := (stateEvent_rec s b i n d).gong
@[simp] theorem stateEvent_host (s : State) (b : Block) (i n d : Nat) : (stateEvent s b i n d).host = s.host := (stateEvent_rec s b i n d).host
@[simp] theorem stateEvent_partReset (s : State) (b : Block) (i n d : Nat) : (stateEvent s b i n d).partReset = s.partReset := (stateEvent_rec s b i n d).partReset
@[simp] theorem stateEvent_chipReset (s : State) (b : Block) (i n d : Nat) : (stateEvent s b i n d).chipReset = s.chipReset := (stateEvent_rec s b i n d).chipReset
@[simp] theorem stateEvent_rowErrs (s : State) (b : Block) (i n d : Nat) : (stateEvent s b i n d).rowErrs = s.rowErrs := (stateEvent_rec s b i n d).rowErrs
@[simp] theorem stateEvent_rowsPerm (s : State) (b : Block) (i n d : Nat) : (stateEvent s b i n d).rowsPerm = s.rowsPerm := (stateEvent_rec s b i n d).rowsPerm
@[simp] theorem stateEvent_pprQueue (s : State) (b : Block) (i n d : Nat) : (stateEvent s b i n d).pprQueue = s.pprQueue := (stateEvent_rec s b i n d).pprQueue
@[simp] theorem stateEvent_pprUsed (s : State) (b : Block) (i n d : Nat) : (stateEvent s b i n d).pprUsed = s.pprUsed := (stateEvent_rec s b i n d).pprUsed
@[simp] theorem stateEvent_caFails (s : State) (b : Block) (i n d : Nat) : (stateEvent s b i n d).caFails = s.caFails := (stateEvent_rec s b i n d).caFails
@[simp] theorem stateEvent_pcDead (s : State) (b : Block) (i n d : Nat) : (stateEvent s b i n d).pcDead = s.pcDead := (stateEvent_rec s b i n d).pcDead
@[simp] theorem stateEvent_stgErrs (s : State) (b : Block) (i n d : Nat) : (stateEvent s b i n d).stgErrs = s.stgErrs := (stateEvent_rec s b i n d).stgErrs
@[simp] theorem stateEvent_stgSpares (s : State) (b : Block) (i n d : Nat) : (stateEvent s b i n d).stgSpares = s.stgSpares := (stateEvent_rec s b i n d).stgSpares
@[simp] theorem stateEvent_stgRowsPerm (s : State) (b : Block) (i n d : Nat) : (stateEvent s b i n d).stgRowsPerm = s.stgRowsPerm := (stateEvent_rec s b i n d).stgRowsPerm
@[simp] theorem stateEvent_keysErased (s : State) (b : Block) (i n d : Nat) : (stateEvent s b i n d).keysErased = s.keysErased := (stateEvent_rec s b i n d).keysErased
@[simp] theorem stateEvent_pools (s : State) (b : Block) (i n d : Nat) : (stateEvent s b i n d).pools = s.pools := (stateEvent_rec s b i n d).pools
@[simp] theorem stateEvent_grants (s : State) (b : Block) (i n d : Nat) : (stateEvent s b i n d).grants = s.grants := (stateEvent_rec s b i n d).grants
@[simp] theorem stateEvent_grantReqs (s : State) (b : Block) (i n d : Nat) : (stateEvent s b i n d).grantReqs = s.grantReqs := (stateEvent_rec s b i n d).grantReqs
@[simp] theorem stateEvent_poolAsked (s : State) (b : Block) (i n d : Nat) : (stateEvent s b i n d).poolAsked = s.poolAsked := (stateEvent_rec s b i n d).poolAsked
@[simp] theorem stateEvent_fastCap (s : State) (b : Block) (i n d : Nat) : (stateEvent s b i n d).fastCap = s.fastCap := (stateEvent_rec s b i n d).fastCap
@[simp] theorem stateEvent_ports (s : State) (b : Block) (i n d : Nat) : (stateEvent s b i n d).ports = s.ports := (stateEvent_rec s b i n d).ports
@[simp] theorem stateEvent_fb (s : State) (b : Block) (i n d : Nat) : (stateEvent s b i n d).fb = s.fb := (stateEvent_rec s b i n d).fb
@[simp] theorem stateEvent_peers (s : State) (b : Block) (i n d : Nat) : (stateEvent s b i n d).peers = s.peers := (stateEvent_rec s b i n d).peers
@[simp] theorem stateEvent_roll (s : State) (b : Block) (i n d : Nat) : (stateEvent s b i n d).roll = s.roll := (stateEvent_rec s b i n d).roll
@[simp] theorem stateEvent_mgtIdx (s : State) (b : Block) (i n d : Nat) : (stateEvent s b i n d).mgtIdx = s.mgtIdx := (stateEvent_rec s b i n d).mgtIdx
@[simp] theorem stateEvent_mcCfg (s : State) (b : Block) (i n d : Nat) : (stateEvent s b i n d).mcCfg = s.mcCfg := (stateEvent_rec s b i n d).mcCfg
@[simp] theorem stateEvent_mcCheck (s : State) (b : Block) (i n d : Nat) : (stateEvent s b i n d).mcCheck = s.mcCheck := (stateEvent_rec s b i n d).mcCheck
@[simp] theorem stateEvent_mcMember (s : State) (b : Block) (i n d : Nat) : (stateEvent s b i n d).mcMember = s.mcMember := (stateEvent_rec s b i n d).mcMember
@[simp] theorem stateEvent_mcKey (s : State) (b : Block) (i n d : Nat) : (stateEvent s b i n d).mcKey = s.mcKey := (stateEvent_rec s b i n d).mcKey
@[simp] theorem stateEvent_mcFseq (s : State) (b : Block) (i n d : Nat) : (stateEvent s b i n d).mcFseq = s.mcFseq := (stateEvent_rec s b i n d).mcFseq
@[simp] theorem stateEvent_mcSends (s : State) (b : Block) (i n d : Nat) : (stateEvent s b i n d).mcSends = s.mcSends := (stateEvent_rec s b i n d).mcSends
@[simp] theorem stateEvent_destRecs (s : State) (b : Block) (i n d : Nat) : (stateEvent s b i n d).destRecs = s.destRecs := (stateEvent_rec s b i n d).destRecs
@[simp] theorem stateEvent_epoch (s : State) (b : Block) (i n d : Nat) : (stateEvent s b i n d).epoch = s.epoch := (stateEvent_rec s b i n d).epoch
@[simp] theorem stateEvent_prevEpoch (s : State) (b : Block) (i n d : Nat) : (stateEvent s b i n d).prevEpoch = s.prevEpoch := (stateEvent_rec s b i n d).prevEpoch
@[simp] theorem stateEvent_epochPeers (s : State) (b : Block) (i n d : Nat) : (stateEvent s b i n d).epochPeers = s.epochPeers := (stateEvent_rec s b i n d).epochPeers
@[simp] theorem stateEvent_nonce (s : State) (b : Block) (i n d : Nat) : (stateEvent s b i n d).nonce = s.nonce := (stateEvent_rec s b i n d).nonce
@[simp] theorem stateEvent_fabKeys (s : State) (b : Block) (i n d : Nat) : (stateEvent s b i n d).fabKeys = s.fabKeys := (stateEvent_rec s b i n d).fabKeys
@[simp] theorem stateEvent_resid (s : State) (b : Block) (i n d : Nat) : (stateEvent s b i n d).resid = s.resid := (stateEvent_rec s b i n d).resid
@[simp] theorem stateEvent_ctxResets (s : State) (b : Block) (i n d : Nat) : (stateEvent s b i n d).ctxResets = s.ctxResets := (stateEvent_rec s b i n d).ctxResets
@[simp] theorem stateEvent_fuses (s : State) (b : Block) (i n d : Nat) : (stateEvent s b i n d).fuses = s.fuses := (stateEvent_rec s b i n d).fuses
@[simp] theorem stateEvent_fw (s : State) (b : Block) (i n d : Nat) : (stateEvent s b i n d).fw = s.fw := (stateEvent_rec s b i n d).fw
@[simp] theorem stateEvent_carillon (s : State) (b : Block) (i n d : Nat) : (stateEvent s b i n d).carillon = s.carillon := (stateEvent_rec s b i n d).carillon
@[simp] theorem stateEvent_sec (s : State) (b : Block) (i n d : Nat) : (stateEvent s b i n d).sec = s.sec := (stateEvent_rec s b i n d).sec
@[simp] theorem stateEvent_power (s : State) (b : Block) (i n d : Nat) : (stateEvent s b i n d).power = s.power := (stateEvent_rec s b i n d).power
@[simp] theorem stateEvent_thermal (s : State) (b : Block) (i n d : Nat) : (stateEvent s b i n d).thermal = s.thermal := (stateEvent_rec s b i n d).thermal
@[simp] theorem stateEvent_islands (s : State) (b : Block) (i n d : Nat) : (stateEvent s b i n d).islands = s.islands := (stateEvent_rec s b i n d).islands
@[simp] theorem stateEvent_bist (s : State) (b : Block) (i n d : Nat) : (stateEvent s b i n d).bist = s.bist := (stateEvent_rec s b i n d).bist
@[simp] theorem stateEvent_pealCores (s : State) (b : Block) (i n d : Nat) : (stateEvent s b i n d).pealCores = s.pealCores := (stateEvent_rec s b i n d).pealCores
@[simp] theorem stateEvent_pealBad (s : State) (b : Block) (i n d : Nat) : (stateEvent s b i n d).pealBad = s.pealBad := (stateEvent_rec s b i n d).pealBad
@[simp] theorem stateEvent_setOps (s : State) (b : Block) (i n d : Nat) : (stateEvent s b i n d).setOps = s.setOps := (stateEvent_rec s b i n d).setOps
@[simp] theorem stateEvent_dump (s : State) (b : Block) (i n d : Nat) : (stateEvent s b i n d).dump = s.dump := (stateEvent_rec s b i n d).dump
@[simp] theorem stateEvent_engines (s : State) (b : Block) (i n d : Nat) : (stateEvent s b i n d).engines = s.engines := (stateEvent_rec s b i n d).engines
@[simp] theorem stateEvent_fieldCores (s : State) (b : Block) (i n d : Nat) : (stateEvent s b i n d).fieldCores = s.fieldCores := (stateEvent_rec s b i n d).fieldCores
@[simp] theorem stateEvent_fieldSlices (s : State) (b : Block) (i n d : Nat) : (stateEvent s b i n d).fieldSlices = s.fieldSlices := (stateEvent_rec s b i n d).fieldSlices
@[simp] theorem stateEvent_fieldDirty (s : State) (b : Block) (i n d : Nat) : (stateEvent s b i n d).fieldDirty = s.fieldDirty := (stateEvent_rec s b i n d).fieldDirty
@[simp] theorem stateEvent_retention (s : State) (b : Block) (i n d : Nat) : (stateEvent s b i n d).retention = s.retention := (stateEvent_rec s b i n d).retention
@[simp] theorem stateEvent_retEvents (s : State) (b : Block) (i n d : Nat) : (stateEvent s b i n d).retEvents = s.retEvents := (stateEvent_rec s b i n d).retEvents
@[simp] theorem stateEvent_bootRetried (s : State) (b : Block) (i n d : Nat) : (stateEvent s b i n d).bootRetried = s.bootRetried := (stateEvent_rec s b i n d).bootRetried
@[simp] theorem stateEvent_chipAtS2 (s : State) (b : Block) (i n d : Nat) : (stateEvent s b i n d).chipAtS2 = s.chipAtS2 := (stateEvent_rec s b i n d).chipAtS2
@[simp] theorem stateEvent_flr (s : State) (b : Block) (i n d : Nat) : (stateEvent s b i n d).flr = s.flr := (stateEvent_rec s b i n d).flr
@[simp] theorem stateEvent_timeHi (s : State) (b : Block) (i n d : Nat) : (stateEvent s b i n d).timeHi = s.timeHi := (stateEvent_rec s b i n d).timeHi
@[simp] theorem stateEvent_brgOut (s : State) (b : Block) (i n d : Nat) : (stateEvent s b i n d).brgOut = s.brgOut := (stateEvent_rec s b i n d).brgOut
@[simp] theorem stateEvent_brgReplays (s : State) (b : Block) (i n d : Nat) : (stateEvent s b i n d).brgReplays = s.brgReplays := (stateEvent_rec s b i n d).brgReplays
@[simp] theorem stateEvent_scrub (s : State) (b : Block) (i n d : Nat) : (stateEvent s b i n d).scrub = s.scrub := (stateEvent_rec s b i n d).scrub
@[simp] theorem stateEvent_zeroAt (s : State) (b : Block) (i n d : Nat) : (stateEvent s b i n d).zeroAt = s.zeroAt := (stateEvent_rec s b i n d).zeroAt
@[simp] theorem stateEvent_reqPart (s : State) (b : Block) (i n d : Nat) : (stateEvent s b i n d).reqPart = s.reqPart := (stateEvent_rec s b i n d).reqPart
@[simp] theorem stateEvent_cores (s : State) (b : Block) (i n d : Nat) : (stateEvent s b i n d).cores = s.cores := (stateEvent_rec s b i n d).cores
@[simp] theorem stateEvent_reqChip (s : State) (b : Block) (i n d : Nat) : (stateEvent s b i n d).reqChip = s.reqChip := (stateEvent_rec s b i n d).reqChip

@[simp] theorem powerCycleReq_pending (s : State) (n : Nat) : (powerCycleReq s n).pending = s.pending := (powerCycleReq_rec s n).pending
@[simp] theorem powerCycleReq_net (s : State) (n : Nat) : (powerCycleReq s n).net = s.net := (powerCycleReq_rec s n).net
@[simp] theorem powerCycleReq_us (s : State) (n : Nat) : (powerCycleReq s n).us = s.us := (powerCycleReq_rec s n).us
@[simp] theorem powerCycleReq_draws (s : State) (n : Nat) : (powerCycleReq s n).draws = s.draws := (powerCycleReq_rec s n).draws
@[simp] theorem powerCycleReq_mem (s : State) (n : Nat) : (powerCycleReq s n).mem = s.mem := (powerCycleReq_rec s n).mem
@[simp] theorem powerCycleReq_poison (s : State) (n : Nat) : (powerCycleReq s n).poison = s.poison := (powerCycleReq_rec s n).poison
@[simp] theorem powerCycleReq_split (s : State) (n : Nat) : (powerCycleReq s n).split = s.split := (powerCycleReq_rec s n).split
@[simp] theorem powerCycleReq_clusters (s : State) (n : Nat) : (powerCycleReq s n).clusters = s.clusters := (powerCycleReq_rec s n).clusters
@[simp] theorem powerCycleReq_gong (s : State) (n : Nat) : (powerCycleReq s n).gong = s.gong := (powerCycleReq_rec s n).gong
@[simp] theorem powerCycleReq_host (s : State) (n : Nat) : (powerCycleReq s n).host = s.host := (powerCycleReq_rec s n).host
@[simp] theorem powerCycleReq_partReset (s : State) (n : Nat) : (powerCycleReq s n).partReset = s.partReset := (powerCycleReq_rec s n).partReset
@[simp] theorem powerCycleReq_chipReset (s : State) (n : Nat) : (powerCycleReq s n).chipReset = s.chipReset := (powerCycleReq_rec s n).chipReset
@[simp] theorem powerCycleReq_rowErrs (s : State) (n : Nat) : (powerCycleReq s n).rowErrs = s.rowErrs := (powerCycleReq_rec s n).rowErrs
@[simp] theorem powerCycleReq_rowsPerm (s : State) (n : Nat) : (powerCycleReq s n).rowsPerm = s.rowsPerm := (powerCycleReq_rec s n).rowsPerm
@[simp] theorem powerCycleReq_pprQueue (s : State) (n : Nat) : (powerCycleReq s n).pprQueue = s.pprQueue := (powerCycleReq_rec s n).pprQueue
@[simp] theorem powerCycleReq_pprUsed (s : State) (n : Nat) : (powerCycleReq s n).pprUsed = s.pprUsed := (powerCycleReq_rec s n).pprUsed
@[simp] theorem powerCycleReq_caFails (s : State) (n : Nat) : (powerCycleReq s n).caFails = s.caFails := (powerCycleReq_rec s n).caFails
@[simp] theorem powerCycleReq_pcDead (s : State) (n : Nat) : (powerCycleReq s n).pcDead = s.pcDead := (powerCycleReq_rec s n).pcDead
@[simp] theorem powerCycleReq_stgErrs (s : State) (n : Nat) : (powerCycleReq s n).stgErrs = s.stgErrs := (powerCycleReq_rec s n).stgErrs
@[simp] theorem powerCycleReq_stgSpares (s : State) (n : Nat) : (powerCycleReq s n).stgSpares = s.stgSpares := (powerCycleReq_rec s n).stgSpares
@[simp] theorem powerCycleReq_stgRowsPerm (s : State) (n : Nat) : (powerCycleReq s n).stgRowsPerm = s.stgRowsPerm := (powerCycleReq_rec s n).stgRowsPerm
@[simp] theorem powerCycleReq_keysErased (s : State) (n : Nat) : (powerCycleReq s n).keysErased = s.keysErased := (powerCycleReq_rec s n).keysErased
@[simp] theorem powerCycleReq_pools (s : State) (n : Nat) : (powerCycleReq s n).pools = s.pools := (powerCycleReq_rec s n).pools
@[simp] theorem powerCycleReq_grants (s : State) (n : Nat) : (powerCycleReq s n).grants = s.grants := (powerCycleReq_rec s n).grants
@[simp] theorem powerCycleReq_grantReqs (s : State) (n : Nat) : (powerCycleReq s n).grantReqs = s.grantReqs := (powerCycleReq_rec s n).grantReqs
@[simp] theorem powerCycleReq_poolAsked (s : State) (n : Nat) : (powerCycleReq s n).poolAsked = s.poolAsked := (powerCycleReq_rec s n).poolAsked
@[simp] theorem powerCycleReq_fastCap (s : State) (n : Nat) : (powerCycleReq s n).fastCap = s.fastCap := (powerCycleReq_rec s n).fastCap
@[simp] theorem powerCycleReq_ports (s : State) (n : Nat) : (powerCycleReq s n).ports = s.ports := (powerCycleReq_rec s n).ports
@[simp] theorem powerCycleReq_fb (s : State) (n : Nat) : (powerCycleReq s n).fb = s.fb := (powerCycleReq_rec s n).fb
@[simp] theorem powerCycleReq_peers (s : State) (n : Nat) : (powerCycleReq s n).peers = s.peers := (powerCycleReq_rec s n).peers
@[simp] theorem powerCycleReq_roll (s : State) (n : Nat) : (powerCycleReq s n).roll = s.roll := (powerCycleReq_rec s n).roll
@[simp] theorem powerCycleReq_mgtIdx (s : State) (n : Nat) : (powerCycleReq s n).mgtIdx = s.mgtIdx := (powerCycleReq_rec s n).mgtIdx
@[simp] theorem powerCycleReq_mcCfg (s : State) (n : Nat) : (powerCycleReq s n).mcCfg = s.mcCfg := (powerCycleReq_rec s n).mcCfg
@[simp] theorem powerCycleReq_mcCheck (s : State) (n : Nat) : (powerCycleReq s n).mcCheck = s.mcCheck := (powerCycleReq_rec s n).mcCheck
@[simp] theorem powerCycleReq_mcMember (s : State) (n : Nat) : (powerCycleReq s n).mcMember = s.mcMember := (powerCycleReq_rec s n).mcMember
@[simp] theorem powerCycleReq_mcKey (s : State) (n : Nat) : (powerCycleReq s n).mcKey = s.mcKey := (powerCycleReq_rec s n).mcKey
@[simp] theorem powerCycleReq_mcFseq (s : State) (n : Nat) : (powerCycleReq s n).mcFseq = s.mcFseq := (powerCycleReq_rec s n).mcFseq
@[simp] theorem powerCycleReq_mcSends (s : State) (n : Nat) : (powerCycleReq s n).mcSends = s.mcSends := (powerCycleReq_rec s n).mcSends
@[simp] theorem powerCycleReq_destRecs (s : State) (n : Nat) : (powerCycleReq s n).destRecs = s.destRecs := (powerCycleReq_rec s n).destRecs
@[simp] theorem powerCycleReq_epoch (s : State) (n : Nat) : (powerCycleReq s n).epoch = s.epoch := (powerCycleReq_rec s n).epoch
@[simp] theorem powerCycleReq_prevEpoch (s : State) (n : Nat) : (powerCycleReq s n).prevEpoch = s.prevEpoch := (powerCycleReq_rec s n).prevEpoch
@[simp] theorem powerCycleReq_epochPeers (s : State) (n : Nat) : (powerCycleReq s n).epochPeers = s.epochPeers := (powerCycleReq_rec s n).epochPeers
@[simp] theorem powerCycleReq_nonce (s : State) (n : Nat) : (powerCycleReq s n).nonce = s.nonce := (powerCycleReq_rec s n).nonce
@[simp] theorem powerCycleReq_fabKeys (s : State) (n : Nat) : (powerCycleReq s n).fabKeys = s.fabKeys := (powerCycleReq_rec s n).fabKeys
@[simp] theorem powerCycleReq_resid (s : State) (n : Nat) : (powerCycleReq s n).resid = s.resid := (powerCycleReq_rec s n).resid
@[simp] theorem powerCycleReq_ctxResets (s : State) (n : Nat) : (powerCycleReq s n).ctxResets = s.ctxResets := (powerCycleReq_rec s n).ctxResets
@[simp] theorem powerCycleReq_fuses (s : State) (n : Nat) : (powerCycleReq s n).fuses = s.fuses := (powerCycleReq_rec s n).fuses
@[simp] theorem powerCycleReq_fw (s : State) (n : Nat) : (powerCycleReq s n).fw = s.fw := (powerCycleReq_rec s n).fw
@[simp] theorem powerCycleReq_carillon (s : State) (n : Nat) : (powerCycleReq s n).carillon = s.carillon := (powerCycleReq_rec s n).carillon
@[simp] theorem powerCycleReq_sec (s : State) (n : Nat) : (powerCycleReq s n).sec = s.sec := (powerCycleReq_rec s n).sec
@[simp] theorem powerCycleReq_power (s : State) (n : Nat) : (powerCycleReq s n).power = s.power := (powerCycleReq_rec s n).power
@[simp] theorem powerCycleReq_thermal (s : State) (n : Nat) : (powerCycleReq s n).thermal = s.thermal := (powerCycleReq_rec s n).thermal
@[simp] theorem powerCycleReq_islands (s : State) (n : Nat) : (powerCycleReq s n).islands = s.islands := (powerCycleReq_rec s n).islands
@[simp] theorem powerCycleReq_bist (s : State) (n : Nat) : (powerCycleReq s n).bist = s.bist := (powerCycleReq_rec s n).bist
@[simp] theorem powerCycleReq_pealCores (s : State) (n : Nat) : (powerCycleReq s n).pealCores = s.pealCores := (powerCycleReq_rec s n).pealCores
@[simp] theorem powerCycleReq_pealBad (s : State) (n : Nat) : (powerCycleReq s n).pealBad = s.pealBad := (powerCycleReq_rec s n).pealBad
@[simp] theorem powerCycleReq_setOps (s : State) (n : Nat) : (powerCycleReq s n).setOps = s.setOps := (powerCycleReq_rec s n).setOps
@[simp] theorem powerCycleReq_dump (s : State) (n : Nat) : (powerCycleReq s n).dump = s.dump := (powerCycleReq_rec s n).dump
@[simp] theorem powerCycleReq_engines (s : State) (n : Nat) : (powerCycleReq s n).engines = s.engines := (powerCycleReq_rec s n).engines
@[simp] theorem powerCycleReq_fieldCores (s : State) (n : Nat) : (powerCycleReq s n).fieldCores = s.fieldCores := (powerCycleReq_rec s n).fieldCores
@[simp] theorem powerCycleReq_fieldSlices (s : State) (n : Nat) : (powerCycleReq s n).fieldSlices = s.fieldSlices := (powerCycleReq_rec s n).fieldSlices
@[simp] theorem powerCycleReq_fieldDirty (s : State) (n : Nat) : (powerCycleReq s n).fieldDirty = s.fieldDirty := (powerCycleReq_rec s n).fieldDirty
@[simp] theorem powerCycleReq_retention (s : State) (n : Nat) : (powerCycleReq s n).retention = s.retention := (powerCycleReq_rec s n).retention
@[simp] theorem powerCycleReq_retEvents (s : State) (n : Nat) : (powerCycleReq s n).retEvents = s.retEvents := (powerCycleReq_rec s n).retEvents
@[simp] theorem powerCycleReq_bootRetried (s : State) (n : Nat) : (powerCycleReq s n).bootRetried = s.bootRetried := (powerCycleReq_rec s n).bootRetried
@[simp] theorem powerCycleReq_chipAtS2 (s : State) (n : Nat) : (powerCycleReq s n).chipAtS2 = s.chipAtS2 := (powerCycleReq_rec s n).chipAtS2
@[simp] theorem powerCycleReq_flr (s : State) (n : Nat) : (powerCycleReq s n).flr = s.flr := (powerCycleReq_rec s n).flr
@[simp] theorem powerCycleReq_timeHi (s : State) (n : Nat) : (powerCycleReq s n).timeHi = s.timeHi := (powerCycleReq_rec s n).timeHi
@[simp] theorem powerCycleReq_brgOut (s : State) (n : Nat) : (powerCycleReq s n).brgOut = s.brgOut := (powerCycleReq_rec s n).brgOut
@[simp] theorem powerCycleReq_brgReplays (s : State) (n : Nat) : (powerCycleReq s n).brgReplays = s.brgReplays := (powerCycleReq_rec s n).brgReplays
@[simp] theorem powerCycleReq_scrub (s : State) (n : Nat) : (powerCycleReq s n).scrub = s.scrub := (powerCycleReq_rec s n).scrub
@[simp] theorem powerCycleReq_zeroAt (s : State) (n : Nat) : (powerCycleReq s n).zeroAt = s.zeroAt := (powerCycleReq_rec s n).zeroAt
@[simp] theorem powerCycleReq_reqPart (s : State) (n : Nat) : (powerCycleReq s n).reqPart = s.reqPart := (powerCycleReq_rec s n).reqPart
@[simp] theorem powerCycleReq_cores (s : State) (n : Nat) : (powerCycleReq s n).cores = s.cores := (powerCycleReq_rec s n).cores
@[simp] theorem powerCycleReq_reqChip (s : State) (n : Nat) : (powerCycleReq s n).reqChip = s.reqChip := (powerCycleReq_rec s n).reqChip

@[simp] theorem requestChip_pending (s : State) (n : Nat) (e : Bool) (pg : Nat) : (requestChip s n e pg).pending = s.pending := (requestChip_err s n e pg).pending
@[simp] theorem requestChip_net (s : State) (n : Nat) (e : Bool) (pg : Nat) : (requestChip s n e pg).net = s.net := (requestChip_err s n e pg).net
@[simp] theorem requestChip_us (s : State) (n : Nat) (e : Bool) (pg : Nat) : (requestChip s n e pg).us = s.us := (requestChip_err s n e pg).us
@[simp] theorem requestChip_draws (s : State) (n : Nat) (e : Bool) (pg : Nat) : (requestChip s n e pg).draws = s.draws := (requestChip_err s n e pg).draws
@[simp] theorem requestChip_mem (s : State) (n : Nat) (e : Bool) (pg : Nat) : (requestChip s n e pg).mem = s.mem := (requestChip_err s n e pg).mem
@[simp] theorem requestChip_poison (s : State) (n : Nat) (e : Bool) (pg : Nat) : (requestChip s n e pg).poison = s.poison := (requestChip_err s n e pg).poison
@[simp] theorem requestChip_split (s : State) (n : Nat) (e : Bool) (pg : Nat) : (requestChip s n e pg).split = s.split := (requestChip_err s n e pg).split
@[simp] theorem requestChip_clusters (s : State) (n : Nat) (e : Bool) (pg : Nat) : (requestChip s n e pg).clusters = s.clusters := (requestChip_err s n e pg).clusters
@[simp] theorem requestChip_gong (s : State) (n : Nat) (e : Bool) (pg : Nat) : (requestChip s n e pg).gong = s.gong := (requestChip_err s n e pg).gong
@[simp] theorem requestChip_host (s : State) (n : Nat) (e : Bool) (pg : Nat) : (requestChip s n e pg).host = s.host := (requestChip_err s n e pg).host
@[simp] theorem requestChip_partReset (s : State) (n : Nat) (e : Bool) (pg : Nat) : (requestChip s n e pg).partReset = s.partReset := (requestChip_err s n e pg).partReset
@[simp] theorem requestChip_chipReset (s : State) (n : Nat) (e : Bool) (pg : Nat) : (requestChip s n e pg).chipReset = s.chipReset := (requestChip_err s n e pg).chipReset
@[simp] theorem requestChip_rowErrs (s : State) (n : Nat) (e : Bool) (pg : Nat) : (requestChip s n e pg).rowErrs = s.rowErrs := (requestChip_err s n e pg).rowErrs
@[simp] theorem requestChip_rowsPerm (s : State) (n : Nat) (e : Bool) (pg : Nat) : (requestChip s n e pg).rowsPerm = s.rowsPerm := (requestChip_err s n e pg).rowsPerm
@[simp] theorem requestChip_pprQueue (s : State) (n : Nat) (e : Bool) (pg : Nat) : (requestChip s n e pg).pprQueue = s.pprQueue := (requestChip_err s n e pg).pprQueue
@[simp] theorem requestChip_pprUsed (s : State) (n : Nat) (e : Bool) (pg : Nat) : (requestChip s n e pg).pprUsed = s.pprUsed := (requestChip_err s n e pg).pprUsed
@[simp] theorem requestChip_caFails (s : State) (n : Nat) (e : Bool) (pg : Nat) : (requestChip s n e pg).caFails = s.caFails := (requestChip_err s n e pg).caFails
@[simp] theorem requestChip_pcDead (s : State) (n : Nat) (e : Bool) (pg : Nat) : (requestChip s n e pg).pcDead = s.pcDead := (requestChip_err s n e pg).pcDead
@[simp] theorem requestChip_stgErrs (s : State) (n : Nat) (e : Bool) (pg : Nat) : (requestChip s n e pg).stgErrs = s.stgErrs := (requestChip_err s n e pg).stgErrs
@[simp] theorem requestChip_stgSpares (s : State) (n : Nat) (e : Bool) (pg : Nat) : (requestChip s n e pg).stgSpares = s.stgSpares := (requestChip_err s n e pg).stgSpares
@[simp] theorem requestChip_stgRowsPerm (s : State) (n : Nat) (e : Bool) (pg : Nat) : (requestChip s n e pg).stgRowsPerm = s.stgRowsPerm := (requestChip_err s n e pg).stgRowsPerm
@[simp] theorem requestChip_keysErased (s : State) (n : Nat) (e : Bool) (pg : Nat) : (requestChip s n e pg).keysErased = s.keysErased := (requestChip_err s n e pg).keysErased
@[simp] theorem requestChip_pools (s : State) (n : Nat) (e : Bool) (pg : Nat) : (requestChip s n e pg).pools = s.pools := (requestChip_err s n e pg).pools
@[simp] theorem requestChip_grants (s : State) (n : Nat) (e : Bool) (pg : Nat) : (requestChip s n e pg).grants = s.grants := (requestChip_err s n e pg).grants
@[simp] theorem requestChip_grantReqs (s : State) (n : Nat) (e : Bool) (pg : Nat) : (requestChip s n e pg).grantReqs = s.grantReqs := (requestChip_err s n e pg).grantReqs
@[simp] theorem requestChip_poolAsked (s : State) (n : Nat) (e : Bool) (pg : Nat) : (requestChip s n e pg).poolAsked = s.poolAsked := (requestChip_err s n e pg).poolAsked
@[simp] theorem requestChip_fastCap (s : State) (n : Nat) (e : Bool) (pg : Nat) : (requestChip s n e pg).fastCap = s.fastCap := (requestChip_err s n e pg).fastCap
@[simp] theorem requestChip_ports (s : State) (n : Nat) (e : Bool) (pg : Nat) : (requestChip s n e pg).ports = s.ports := (requestChip_err s n e pg).ports
@[simp] theorem requestChip_fb (s : State) (n : Nat) (e : Bool) (pg : Nat) : (requestChip s n e pg).fb = s.fb := (requestChip_err s n e pg).fb
@[simp] theorem requestChip_peers (s : State) (n : Nat) (e : Bool) (pg : Nat) : (requestChip s n e pg).peers = s.peers := (requestChip_err s n e pg).peers
@[simp] theorem requestChip_roll (s : State) (n : Nat) (e : Bool) (pg : Nat) : (requestChip s n e pg).roll = s.roll := (requestChip_err s n e pg).roll
@[simp] theorem requestChip_mgtIdx (s : State) (n : Nat) (e : Bool) (pg : Nat) : (requestChip s n e pg).mgtIdx = s.mgtIdx := (requestChip_err s n e pg).mgtIdx
@[simp] theorem requestChip_mcCfg (s : State) (n : Nat) (e : Bool) (pg : Nat) : (requestChip s n e pg).mcCfg = s.mcCfg := (requestChip_err s n e pg).mcCfg
@[simp] theorem requestChip_mcCheck (s : State) (n : Nat) (e : Bool) (pg : Nat) : (requestChip s n e pg).mcCheck = s.mcCheck := (requestChip_err s n e pg).mcCheck
@[simp] theorem requestChip_mcMember (s : State) (n : Nat) (e : Bool) (pg : Nat) : (requestChip s n e pg).mcMember = s.mcMember := (requestChip_err s n e pg).mcMember
@[simp] theorem requestChip_mcKey (s : State) (n : Nat) (e : Bool) (pg : Nat) : (requestChip s n e pg).mcKey = s.mcKey := (requestChip_err s n e pg).mcKey
@[simp] theorem requestChip_mcFseq (s : State) (n : Nat) (e : Bool) (pg : Nat) : (requestChip s n e pg).mcFseq = s.mcFseq := (requestChip_err s n e pg).mcFseq
@[simp] theorem requestChip_mcSends (s : State) (n : Nat) (e : Bool) (pg : Nat) : (requestChip s n e pg).mcSends = s.mcSends := (requestChip_err s n e pg).mcSends
@[simp] theorem requestChip_destRecs (s : State) (n : Nat) (e : Bool) (pg : Nat) : (requestChip s n e pg).destRecs = s.destRecs := (requestChip_err s n e pg).destRecs
@[simp] theorem requestChip_epoch (s : State) (n : Nat) (e : Bool) (pg : Nat) : (requestChip s n e pg).epoch = s.epoch := (requestChip_err s n e pg).epoch
@[simp] theorem requestChip_prevEpoch (s : State) (n : Nat) (e : Bool) (pg : Nat) : (requestChip s n e pg).prevEpoch = s.prevEpoch := (requestChip_err s n e pg).prevEpoch
@[simp] theorem requestChip_epochPeers (s : State) (n : Nat) (e : Bool) (pg : Nat) : (requestChip s n e pg).epochPeers = s.epochPeers := (requestChip_err s n e pg).epochPeers
@[simp] theorem requestChip_nonce (s : State) (n : Nat) (e : Bool) (pg : Nat) : (requestChip s n e pg).nonce = s.nonce := (requestChip_err s n e pg).nonce
@[simp] theorem requestChip_fabKeys (s : State) (n : Nat) (e : Bool) (pg : Nat) : (requestChip s n e pg).fabKeys = s.fabKeys := (requestChip_err s n e pg).fabKeys
@[simp] theorem requestChip_resid (s : State) (n : Nat) (e : Bool) (pg : Nat) : (requestChip s n e pg).resid = s.resid := (requestChip_err s n e pg).resid
@[simp] theorem requestChip_ctxResets (s : State) (n : Nat) (e : Bool) (pg : Nat) : (requestChip s n e pg).ctxResets = s.ctxResets := (requestChip_err s n e pg).ctxResets
@[simp] theorem requestChip_fuses (s : State) (n : Nat) (e : Bool) (pg : Nat) : (requestChip s n e pg).fuses = s.fuses := (requestChip_err s n e pg).fuses
@[simp] theorem requestChip_fw (s : State) (n : Nat) (e : Bool) (pg : Nat) : (requestChip s n e pg).fw = s.fw := (requestChip_err s n e pg).fw
@[simp] theorem requestChip_carillon (s : State) (n : Nat) (e : Bool) (pg : Nat) : (requestChip s n e pg).carillon = s.carillon := (requestChip_err s n e pg).carillon
@[simp] theorem requestChip_sec (s : State) (n : Nat) (e : Bool) (pg : Nat) : (requestChip s n e pg).sec = s.sec := (requestChip_err s n e pg).sec
@[simp] theorem requestChip_power (s : State) (n : Nat) (e : Bool) (pg : Nat) : (requestChip s n e pg).power = s.power := (requestChip_err s n e pg).power
@[simp] theorem requestChip_thermal (s : State) (n : Nat) (e : Bool) (pg : Nat) : (requestChip s n e pg).thermal = s.thermal := (requestChip_err s n e pg).thermal
@[simp] theorem requestChip_islands (s : State) (n : Nat) (e : Bool) (pg : Nat) : (requestChip s n e pg).islands = s.islands := (requestChip_err s n e pg).islands
@[simp] theorem requestChip_bist (s : State) (n : Nat) (e : Bool) (pg : Nat) : (requestChip s n e pg).bist = s.bist := (requestChip_err s n e pg).bist
@[simp] theorem requestChip_pealCores (s : State) (n : Nat) (e : Bool) (pg : Nat) : (requestChip s n e pg).pealCores = s.pealCores := (requestChip_err s n e pg).pealCores
@[simp] theorem requestChip_pealBad (s : State) (n : Nat) (e : Bool) (pg : Nat) : (requestChip s n e pg).pealBad = s.pealBad := (requestChip_err s n e pg).pealBad
@[simp] theorem requestChip_setOps (s : State) (n : Nat) (e : Bool) (pg : Nat) : (requestChip s n e pg).setOps = s.setOps := (requestChip_err s n e pg).setOps
@[simp] theorem requestChip_dump (s : State) (n : Nat) (e : Bool) (pg : Nat) : (requestChip s n e pg).dump = s.dump := (requestChip_err s n e pg).dump
@[simp] theorem requestChip_engines (s : State) (n : Nat) (e : Bool) (pg : Nat) : (requestChip s n e pg).engines = s.engines := (requestChip_err s n e pg).engines
@[simp] theorem requestChip_fieldCores (s : State) (n : Nat) (e : Bool) (pg : Nat) : (requestChip s n e pg).fieldCores = s.fieldCores := (requestChip_err s n e pg).fieldCores
@[simp] theorem requestChip_fieldSlices (s : State) (n : Nat) (e : Bool) (pg : Nat) : (requestChip s n e pg).fieldSlices = s.fieldSlices := (requestChip_err s n e pg).fieldSlices
@[simp] theorem requestChip_fieldDirty (s : State) (n : Nat) (e : Bool) (pg : Nat) : (requestChip s n e pg).fieldDirty = s.fieldDirty := (requestChip_err s n e pg).fieldDirty
@[simp] theorem requestChip_retention (s : State) (n : Nat) (e : Bool) (pg : Nat) : (requestChip s n e pg).retention = s.retention := (requestChip_err s n e pg).retention
@[simp] theorem requestChip_retEvents (s : State) (n : Nat) (e : Bool) (pg : Nat) : (requestChip s n e pg).retEvents = s.retEvents := (requestChip_err s n e pg).retEvents
@[simp] theorem requestChip_bootRetried (s : State) (n : Nat) (e : Bool) (pg : Nat) : (requestChip s n e pg).bootRetried = s.bootRetried := (requestChip_err s n e pg).bootRetried
@[simp] theorem requestChip_chipAtS2 (s : State) (n : Nat) (e : Bool) (pg : Nat) : (requestChip s n e pg).chipAtS2 = s.chipAtS2 := (requestChip_err s n e pg).chipAtS2
@[simp] theorem requestChip_flr (s : State) (n : Nat) (e : Bool) (pg : Nat) : (requestChip s n e pg).flr = s.flr := (requestChip_err s n e pg).flr
@[simp] theorem requestChip_timeHi (s : State) (n : Nat) (e : Bool) (pg : Nat) : (requestChip s n e pg).timeHi = s.timeHi := (requestChip_err s n e pg).timeHi
@[simp] theorem requestChip_brgOut (s : State) (n : Nat) (e : Bool) (pg : Nat) : (requestChip s n e pg).brgOut = s.brgOut := (requestChip_err s n e pg).brgOut
@[simp] theorem requestChip_brgReplays (s : State) (n : Nat) (e : Bool) (pg : Nat) : (requestChip s n e pg).brgReplays = s.brgReplays := (requestChip_err s n e pg).brgReplays
@[simp] theorem requestChip_scrub (s : State) (n : Nat) (e : Bool) (pg : Nat) : (requestChip s n e pg).scrub = s.scrub := (requestChip_err s n e pg).scrub
@[simp] theorem requestChip_zeroAt (s : State) (n : Nat) (e : Bool) (pg : Nat) : (requestChip s n e pg).zeroAt = s.zeroAt := (requestChip_err s n e pg).zeroAt
@[simp] theorem requestChip_reqPart (s : State) (n : Nat) (e : Bool) (pg : Nat) : (requestChip s n e pg).reqPart = s.reqPart := by
  unfold requestChip; dsimp only; split <;> rfl
@[simp] theorem requestChip_cores (s : State) (n : Nat) (e : Bool) (pg : Nat) : (requestChip s n e pg).cores = s.cores := by
  unfold requestChip; dsimp only; split <;> rfl
@[simp] theorem requestChip_out (s : State) (n : Nat) (e : Bool) (pg : Nat) : (requestChip s n e pg).out = s.out := by
  unfold requestChip; dsimp only; split <;> rfl
@[simp] theorem requestChip_evq (s : State) (n : Nat) (e : Bool) (pg : Nat) : (requestChip s n e pg).evq = s.evq := by
  unfold requestChip; dsimp only; split <;> rfl
@[simp] theorem requestChip_evCount (s : State) (n : Nat) (e : Bool) (pg : Nat) : (requestChip s n e pg).evCount = s.evCount := by
  unfold requestChip; dsimp only; split <;> rfl

end Sys2Proof.Machine
end

