-- ==== Sys2Proof/Laws/Ops.lean ====
section
/-!
SUPPORT. What the shared operations over registers, units and memory do, said once.
-/
namespace Sys2Proof.Machine

/-! ### Registers -/

/-- A stored register is read back. -/
@[simp] theorem regGet_regSet_self (s : State) (a : Nat) (v : Word) : regGet (regSet s a v) a = v := by
  simp [regGet, regSet]

/-- A store leaves the other registers. -/
theorem regGet_regSet_ne (s : State) {a c : Nat} (v : Word) (h : c ≠ a) : regGet (regSet s a v) c = regGet s c := by
  simp [regGet, regSet, mget_mput_ne _ _ h]

theorem regGet_regSet (s : State) (a c : Nat) (v : Word) :
    regGet (regSet s a v) c = if c = a then v else regGet s c := by
  split_ifs with h
  · subst h; simp
  · exact regGet_regSet_ne s v h

/-- Registers depend on `regs` alone. -/
theorem regGet_congr {s t : State} (h : t.regs = s.regs) (a : Nat) : regGet t a = regGet s a := by
  simp [regGet, h]

theorem rget_congr {s t : State} (h : t.regs = s.regs) (b : Block) (i off : Nat) : rget t b i off = rget s b i off :=
  regGet_congr h _

@[simp] theorem rget_rset_self (s : State) (b : Block) (i off : Nat) (v : Word) : rget (rset s b i off v) b i off = v := by
  simp [rget, rset]

/-- A store leaves the other registers of its page. -/
theorem rget_rset_off (s : State) (b : Block) (i : Nat) {off o : Nat} (v : Word) (h : o ≠ off) :
    rget (rset s b i off v) b i o = rget s b i o := by
  simp only [rget, rset]
  exact regGet_regSet_ne s v (by omega)

/-- Two block types whose pages lie in ranges of their own. -/
theorem blocks_apart (b c : Block) : c = b ∨ blockBase c + blockCount c * blockStride c ≤ blockBase b ∨
    blockBase b + blockCount b * blockStride b ≤ blockBase c ∨ (blockStride b = 0x8000 ∧ blockStride c = 0x8000) := by
  cases b <;> cases c <;> decide

/-- An address of a page falls in that page (R47, R48). -/
theorem pageOf_page (b : Block) (i off : Nat) (hi : i < blockCount b) (ho : off < 0x1000) :
    pageOf (page b i + off) = some (b, i, off) := by
  have hs : ∀ c, 0x1000 ≤ blockStride c := by intro c; cases c <;> decide
  have hm : i * blockStride b + blockStride b ≤ blockCount b * blockStride b := by
    rw [← Nat.succ_mul]; exact Nat.mul_le_mul_right _ hi
  have key : ∀ c, (if blockBase c ≤ page b i + off then
      (if (page b i + off - blockBase c) / blockStride c < blockCount c &&
        (page b i + off - blockBase c) % blockStride c < 0x1000 then
        some (c, (page b i + off - blockBase c) / blockStride c, (page b i + off - blockBase c) % blockStride c)
       else none) else none) = if c = b then some (b, i, off) else none := by
    intro c
    have hsc := hs c
    have hsb := hs b
    by_cases hc : c = b
    · subst hc
      have h1 : page c i + off - blockBase c = off + i * blockStride c := by unfold page; omega
      have h3 : blockBase c ≤ page c i + off := by unfold page; omega
      rw [h1, Nat.add_mul_div_right _ _ (by omega), Nat.add_mul_mod_self_right, Nat.div_eq_of_lt (by omega),
        Nat.mod_eq_of_lt (by omega)]
      simp [h3, hi, ho]
    · rw [if_neg hc]
      split_ifs with h1 h2
      · exfalso
        simp only [Bool.and_eq_true, decide_eq_true_eq] at h2
        obtain ⟨h2, h3⟩ := h2
        rw [Nat.div_lt_iff_lt_mul (by omega)] at h2
        have hp : page b i + off < blockBase b + blockCount b * blockStride b := by unfold page; omega
        have hq : blockBase b ≤ page b i + off := by unfold page; omega
        rcases blocks_apart b c with h | h | h | ⟨hb8, hc8⟩
        · exact hc h
        · omega
        · omega
        · clear h2 hm hs hp hq hsc hsb
          unfold page at h1 h3
          cases b <;> simp [blockStride] at hb8 <;> cases c <;> simp [blockStride] at hc8 <;>
            simp only [blockBase, blockStride] at h1 h3 <;> first | exact hc rfl | omega
      · rfl
      · rfl
  unfold pageOf
  simp only [key, allBlocks]
  cases b <;> rfl
/-- Two addresses of pages are the same only in the same page at the same offset. -/
theorem page_inj {b c : Block} {i j o p : Nat} (hi : i < blockCount b) (hj : j < blockCount c) (ho : o < 0x1000)
    (hp : p < 0x1000) (h : page b i + o = page c j + p) : b = c ∧ i = j ∧ o = p := by
  have h1 := pageOf_page b i o hi ho
  rw [h, pageOf_page c j p hj hp] at h1
  simp only [Option.some.injEq, Prod.mk.injEq] at h1
  exact ⟨h1.1.symm, h1.2.1.symm, h1.2.2.symm⟩

/-- A store leaves the registers of other pages. -/
theorem rget_rset_page (s : State) {b c : Block} {i j off o : Nat} (v : Word) (hi : i < blockCount b)
    (hj : j < blockCount c) (ho : off < 0x1000) (hp : o < 0x1000) (h : (c, j, o) ≠ (b, i, off)) :
    rget (rset s b i off v) c j o = rget s c j o := by
  simp only [rget, rset]
  refine regGet_regSet_ne s v (fun e => h ?_)
  obtain ⟨rfl, rfl, rfl⟩ := page_inj hj hi hp ho e
  rfl

/-! ### Units -/

@[simp] theorem core_modCore_self (s : State) (n : Nat) (f : Core → Core) : core (modCore s n f) n = f (core s n) := by
  simp [core, modCore]

theorem core_modCore_ne (s : State) {n m : Nat} (f : Core → Core) (h : m ≠ n) : core (modCore s n f) m = core s m := by
  simp [core, modCore, mgetD_mupd_ne _ _ _ _ h]

theorem core_congr {s t : State} (h : t.cores = s.cores) (n : Nat) : core t n = core s n := by simp [core, h]

theorem slot_congr {s t : State} (h : t.cores = s.cores) (n k : Nat) : slot t n k = slot s n k := by
  simp [slot, core_congr h]

@[simp] theorem slot_modSlot_self (s : State) (n k : Nat) (f : Slot → Slot) : slot (modSlot s n k f) n k = f (slot s n k) := by
  simp [slot, modSlot]

theorem slot_modSlot_ne (s : State) {n m k j : Nat} (f : Slot → Slot) (h : (m, j) ≠ (n, k)) :
    slot (modSlot s n k f) m j = slot s m j := by
  by_cases hm : m = n
  · subst hm
    have hj : j ≠ k := fun e => h (by rw [e])
    simp [slot, modSlot, mgetD_mupd_ne _ _ _ _ hj]
  · simp [slot, modSlot, core_modCore_ne _ _ hm]

@[simp] theorem strand_modStrand_self (s : State) (n i : Nat) (f : Strand → Strand) :
    strand (modStrand s n i f) n i = f (strand s n i) := by
  simp [strand, modStrand]

theorem strand_modStrand_ne (s : State) {n m i j : Nat} (f : Strand → Strand) (h : (m, j) ≠ (n, i)) :
    strand (modStrand s n i f) m j = strand s m j := by
  by_cases hm : m = n
  · subst hm
    have hj : j ≠ i := fun e => h (by rw [e])
    simp [strand, modStrand, mgetD_mupd_ne _ _ _ _ hj]
  · simp [strand, modStrand, core_modCore_ne _ _ hm]

@[simp] theorem stream_modStream_self (s : State) (n i : Nat) (f : Stream → Stream) :
    stream (modStream s n i f) n i = f (stream s n i) := by
  simp [stream, modStream]

@[simp] theorem syncObj_modSync_self (s : State) (n o : Nat) (f : SyncObj → SyncObj) :
    syncObj (modSync s n o f) n o = f (syncObj s n o) := by
  simp [syncObj, modSync]

@[simp] theorem cluster_modCluster_self (s : State) (c : Nat) (f : Cluster → Cluster) :
    cluster (modCluster s c f) c = f (cluster s c) := by
  simp [cluster, modCluster]

theorem cluster_modCluster_ne (s : State) {c d : Nat} (f : Cluster → Cluster) (h : d ≠ c) :
    cluster (modCluster s c f) d = cluster s d := by
  simp [cluster, modCluster, mgetD_mupd_ne _ _ _ _ h]

/-! ### Device memory -/

/-- A store to device memory: the bytes stored, every other byte kept, the canonical form kept. -/
theorem writeMem_out (s : State) (d c : Nat) (bs : List Byte) (h : c < d ∨ d + bs.length ≤ c) :
    memGet (writeMem s d bs).mem c = memGet s.mem c := memGet_memWrite_out _ _ _ _ h

theorem readMem_writeMem (s : State) (d : Nat) (bs : List Byte) (h : Memory.wf s.mem = true) :
    readMem (writeMem s d bs) d bs.length = bs := memRead_memWrite d bs h

theorem writeMem_wf (s : State) (d : Nat) (bs : List Byte) (h : Memory.wf s.mem = true) :
    Memory.wf (writeMem s d bs).mem = true := Memory.wf_memWrite d bs h

theorem zeroMem_wf (s : State) (d n : Nat) (h : Memory.wf s.mem = true) : Memory.wf (zeroMem s d n).mem = true :=
  Memory.wf_memZero d n h

theorem zeroMem_out (s : State) (d n c : Nat) (h : c < d ∨ d + n ≤ c) :
    memGet (zeroMem s d n).mem c = memGet s.mem c := memGet_memZero_out _ _ _ _ h

end Sys2Proof.Machine
end

