-- ==== Sys2Proof/Laws/Errors.lean ====
section
/-!
SUPPORT. The registers that recording an error writes, and those it leaves (R51, R62): the ERR_ registers of pages, the
lost-event counter of the CAR page and, where it asks for a chip reset, PCE_RESET_STATUS.
-/
namespace Sys2Proof.Machine

/-- A register that recording an error never writes: no ERR_STATUS, ERR_FIRST, ERR_COUNT or ERR_CTAG, nor CAR_EVQ_LOST. -/
def errQuiet (a : Nat) : Prop :=
  a % 0x1000 ≠ 0x20 ∧ a % 0x1000 ≠ 0x30 ∧ a % 0x1000 ≠ 0x34 ∧ a % 0x1000 ≠ 0x38 ∧ a ≠ page .car 0 + 0x124

theorem page_mod (b : Block) (i : Nat) : page b i % 0x1000 = 0 := by
  cases b <;> simp only [page, blockBase, blockStride] <;> omega

theorem regGet_noteFirst (s : State) (pg : Nat) (w c : Word) {a : Nat} (hp : pg % 0x1000 = 0)
    (h1 : a % 0x1000 ≠ 0x30) (h2 : a % 0x1000 ≠ 0x34) (h3 : a % 0x1000 ≠ 0x38) :
    regGet (noteFirst s pg w c) a = regGet s a := by
  unfold noteFirst
  dsimp only
  split
  · exact regGet_regSet_ne _ _ (by omega)
  · rw [regGet_regSet_ne _ _ (by omega), regGet_regSet_ne _ _ (by omega)]

theorem regGet_queueEvent (s : State) (e : Event) {a : Nat} (h : a ≠ page .car 0 + 0x124) :
    regGet (queueEvent s e) a = regGet s a := by
  unfold queueEvent
  dsimp only
  split
  · rfl
  · have hb : ∀ u : State, u.regs = s.regs → regGet (bump u .car 0 0x124 1) a = regGet s a := by
      intro u hu
      unfold bump rset
      rw [regGet_regSet_ne _ _ h, regGet_congr hu]
    split
    · exact (regGet_congr rfl a).trans (hb _ rfl)
    · exact hb _ rfl

theorem intMessage_regs (s : State) (pg : Nat) (bad : State → State) (a : Nat)
    (P : Word → Prop) (hb : ∀ x : State, x.regs = s.regs → P (regGet (bad x) a)) (hs : P (regGet s a)) :
    P (regGet (intMessage s pg bad) a) := by
  have hm : ∀ (x : State) (f v : Nat), x.regs = s.regs → P (regGet (msixOr x f v bad) a) := by
    intro x f v hx
    unfold msixOr
    split
    · exact (regGet_congr (s := s) (t := msixSend x f v) hx a) ▸ hs
    · exact hb x hx
  unfold intMessage
  dsimp only
  split
  · exact hm _ _ _ rfl
  · split
    · exact hs
    · split
      · exact hm _ _ _ rfl
      · split
        · exact hb _ rfl
        · split
          · exact hs
          · split
            · exact hm _ _ _ rfl
            · exact hb _ rfl

/-- What holds of a register before an error is recorded holds after, if setting ERR_STATUS bits keeps it. -/
theorem recordOn_reg (fuel : Nat) (s : State) (pg bitNo : Nat) (event inj : Bool) (sub det : Nat) (ctag : Word)
    (a : Nat) (P : Word → Prop) (hp : pg % 0x1000 = 0) (h1 : a % 0x1000 ≠ 0x30) (h2 : a % 0x1000 ≠ 0x34)
    (h3 : a % 0x1000 ≠ 0x38) (h4 : a ≠ page .car 0 + 0x124)
    (hor : a % 0x1000 = 0x20 → ∀ w k, P w → P (w ||| bitw k)) (hs : P (regGet s a)) :
    P (regGet (recordOn fuel s pg bitNo event inj sub det ctag) a) := by
  induction fuel generalizing s pg bitNo event inj sub det ctag with
  | zero => exact hs
  | succ n ih =>
    have hset : P (regGet (regSet s (pg + 0x20) (regGet s (pg + 0x20) ||| bitw bitNo)) a) := by
      rw [regGet_regSet]
      split_ifs with h
      · subst h; exact hor (by omega) _ _ hs
      · exact hs
    unfold recordOn
    dsimp only
    split
    · exact hset
    · have go : ∀ u : State, P (regGet u a) → ∀ b : Bool, P (regGet (if b then intMessage u pg (fun x =>
          recordOn n (emit x (.carillonInt pg)) (page .pce 0) eIntRouteBad.bit false false 0 (pg / 4096) 0xFFFFFFFF)
          else u) a) := by
        intro u hu b
        cases b
        · exact hu
        · exact intMessage_regs u pg _ a P (fun x hx => ih _ _ _ _ _ _ _ _ (page_mod _ _)
            ((regGet_congr (s := u) (t := emit x (.carillonInt pg)) hx a) ▸ hu)) hu
      apply go
      split
      · split
        · apply ih _ _ _ _ _ _ _ _ (page_mod _ _)
          change P (regGet (queueEvent _ _) a)
          rw [regGet_queueEvent _ _ h4, regGet_noteFirst _ _ _ _ hp h1 h2 h3]
          exact hset
        · rw [regGet_queueEvent _ _ h4, regGet_noteFirst _ _ _ _ hp h1 h2 h3]
          exact hset
      · rw [regGet_noteFirst _ _ _ _ hp h1 h2 h3]
        exact hset

theorem wbit_or (w v : Word) (k : Nat) : wbit (w ||| v) k = (wbit w k || wbit v k) := by simp [wbit]

theorem wbit_bitw (k : Nat) (h : k < 32) : wbit (bitw k) k = true := by
  rw [wbit, bitw, BitVec.getLsbD_ofNat, Nat.testBit_shiftLeft]
  simp [h]

/-- Recording never clears an ERR_STATUS bit. -/
theorem recordOn_keeps (fuel : Nat) (s : State) (pg bitNo : Nat) (event inj : Bool) (sub det : Nat) (ctag : Word)
    (a k : Nat) (hp : pg % 0x1000 = 0) (ha : a % 0x1000 = 0x20) (hs : wbit (regGet s a) k = true) :
    wbit (regGet (recordOn fuel s pg bitNo event inj sub det ctag) a) k = true := by
  refine recordOn_reg fuel s pg bitNo event inj sub det ctag a (fun w => wbit w k = true) hp (by omega) (by omega)
    (by omega) ?_ ?_ hs
  · intro h; rw [h] at ha; revert ha; decide
  · intro _ w j hw; simp [wbit_or, hw]

/-- A register that recording leaves. -/
theorem recordOn_quiet (fuel : Nat) (s : State) (pg bitNo : Nat) (event inj : Bool) (sub det : Nat) (ctag : Word)
    (a : Nat) (hp : pg % 0x1000 = 0) (ha : errQuiet a) :
    regGet (recordOn fuel s pg bitNo event inj sub det ctag) a = regGet s a := by
  obtain ⟨h0, h1, h2, h3, h4⟩ := ha
  exact recordOn_reg fuel s pg bitNo event inj sub det ctag a (fun w => w = regGet s a) hp h1 h2 h3 h4
    (fun h => absurd h h0) rfl

/-- Recording sets the ERR_STATUS bit, whatever ERR_MASK holds (R62). -/
theorem recordOn_sets (n : Nat) (s : State) (pg bitNo : Nat) (event inj : Bool) (sub det : Nat) (ctag : Word)
    (hp : pg % 0x1000 = 0) (hb : bitNo < 32) :
    wbit (regGet (recordOn (n + 1) s pg bitNo event inj sub det ctag) (pg + 0x20)) bitNo = true := by
  have ha : (pg + 0x20) % 0x1000 = 0x20 := by omega
  have hset : wbit (regGet (regSet s (pg + 0x20) (regGet s (pg + 0x20) ||| bitw bitNo)) (pg + 0x20)) bitNo = true := by
    simp [wbit_or, wbit_bitw bitNo hb]
  have h4 : pg + 0x20 ≠ page .car 0 + 0x124 := by
    intro h; rw [h] at ha; revert ha; decide
  unfold recordOn
  dsimp only
  split
  · exact hset
  · have go : ∀ u : State, wbit (regGet u (pg + 0x20)) bitNo = true → ∀ b : Bool,
        wbit (regGet (if b then intMessage u pg (fun x =>
        recordOn n (emit x (.carillonInt pg)) (page .pce 0) eIntRouteBad.bit false false 0 (pg / 4096) 0xFFFFFFFF)
        else u) (pg + 0x20)) bitNo = true := by
      intro u hu b
      cases b
      · exact hu
      · exact intMessage_regs u pg _ (pg + 0x20) (fun w => wbit w bitNo = true)
          (fun x hx => recordOn_keeps n _ _ _ _ _ _ _ _ _ _ (page_mod _ _) ha
            ((regGet_congr (s := u) (t := emit x (.carillonInt pg)) hx _) ▸ hu)) hu
    apply go
    split
    · split
      · apply recordOn_keeps n _ _ _ _ _ _ _ _ _ _ (page_mod _ _) ha
        change wbit (regGet (queueEvent _ _) (pg + 0x20)) bitNo = true
        rw [regGet_queueEvent _ _ h4, regGet_noteFirst _ _ _ _ hp (by omega) (by omega) (by omega)]
        exact hset
      · rw [regGet_queueEvent _ _ h4, regGet_noteFirst _ _ _ _ hp (by omega) (by omega) (by omega)]
        exact hset
    · rw [regGet_noteFirst _ _ _ _ hp (by omega) (by omega) (by omega)]
      exact hset

theorem requestChip_reg (s : State) (cause : Nat) (e : Bool) (pg : Nat) {a : Nat} (h : a ≠ page .pce 0 + 0x114) :
    regGet (requestChip s cause e pg) a = regGet s a := by
  unfold requestChip
  dsimp only
  split <;> exact (regGet_congr rfl a).trans (regGet_regSet_ne _ _ h)

/-- What escalation leaves of the registers. -/
theorem escalateUnit_reg (s : State) (e : ErrCode) (i : Nat) (a : Nat) (P : Word → Prop) (h1 : a % 0x1000 ≠ 0x30)
    (h2 : a % 0x1000 ≠ 0x34) (h3 : a % 0x1000 ≠ 0x38) (h4 : a ≠ page .car 0 + 0x124) (h5 : a ≠ page .pce 0 + 0x114)
    (hor : a % 0x1000 = 0x20 → ∀ w k, P w → P (w ||| bitw k)) (hs : P (regGet s a)) :
    P (regGet (escalateUnit s e i) a) := by
  have hn : ∀ p, P (regGet (recordOn 4 s (page .hng 0) eRecoveryEscalated.bit true false p (blockCode e.blk) 0xFFFFFFFF) a) :=
    fun p => recordOn_reg 4 s _ _ _ _ _ _ _ a P (page_mod _ _) h1 h2 h3 h4 hor hs
  unfold escalateUnit
  dsimp only
  split
  · exact hs
  · split
    · rw [requestChip_reg _ _ _ _ h5]
      exact hn _
    · split
      · split
        · exact (regGet_congr (t := requestPart _ _ _ _ _ _) rfl a) ▸ hn _
        · split
          · exact (regGet_congr (t := requestEng _ _ _ _) rfl a) ▸ hn _
          · exact hs
      · exact hs

/-- Recording a detected error sets its ERR_STATUS bit, whatever ERR_MASK holds (R62). -/
theorem recErr_sets (s : State) (e : ErrCode) (i sub det : Nat) (ctag : Word) (hb : e.bit < 32) :
    wbit (rget (recErr s e i sub det ctag) e.blk i 0x20) e.bit = true := by
  have hm := page_mod e.blk i
  have ha : (page e.blk i + 0x20) % 0x1000 = 0x20 := by omega
  unfold rget recErr
  refine escalateUnit_reg _ e i _ (fun w => wbit w e.bit = true) (by omega) (by omega) (by omega) ?_ ?_ ?_
    (recordOn_sets 3 s _ _ _ _ _ _ _ hm hb)
  · intro h; rw [h] at ha; revert ha; decide
  · intro h; rw [h] at ha; revert ha; decide
  · intro _ w j hw; simp [wbit_or, hw]

/-- Recording a detected error clears no ERR_STATUS bit. -/
theorem recErr_keeps (s : State) (e : ErrCode) (i sub det : Nat) (ctag : Word) (a k : Nat) (ha : a % 0x1000 = 0x20)
    (hs : wbit (regGet s a) k = true) : wbit (regGet (recErr s e i sub det ctag) a) k = true := by
  unfold recErr
  refine escalateUnit_reg _ e i _ (fun w => wbit w k = true) (by omega) (by omega) (by omega) ?_ ?_ ?_
    (recordOn_keeps 4 s _ _ _ _ _ _ _ _ _ (page_mod _ _) ha hs)
  · intro h; rw [h] at ha; revert ha; decide
  · intro h; rw [h] at ha; revert ha; decide
  · intro _ w j hw; simp [wbit_or, hw]

/-- A register that recording a detected error leaves. -/
theorem recErr_quiet (s : State) (e : ErrCode) (i sub det : Nat) (ctag : Word) (a : Nat) (ha : errQuiet a)
    (h5 : a ≠ page .pce 0 + 0x114) : regGet (recErr s e i sub det ctag) a = regGet s a := by
  have hq := recordOn_quiet 4 s (page e.blk i) e.bit e.event false sub det ctag a (page_mod _ _) ha
  obtain ⟨h0, h1, h2, h3, h4⟩ := ha
  exact escalateUnit_reg _ e i a (fun w => w = regGet s a) h1 h2 h3 h4 h5 (fun h => absurd h h0) hq

end Sys2Proof.Machine
end

