-- ==== Sys2Proof/Laws/LineCode.lean ====
section
/-! SUPPORT. The line code of a fabric lane (R296): what decoding does to a codeword that arrives whole. -/

namespace Sys2Proof.Machine

theorem unpackSyms_length (x n : Nat) : (unpackSyms x n).length = n := by simp [unpackSyms]

theorem rsParity_length (msg : List Nat) : (rsParity msg).length = 30 := by simp [rsParity, unpackSyms]

/-- A codeword that arrives whole decodes to its message. -/
theorem rsDecode_rsEncode {msg : List Nat} (h : msg.length = 514) : rsDecode (rsEncode msg) = some msg := by
  have ht : (rsEncode msg).take 514 = msg := by rw [rsEncode, ← h, List.take_left']; rfl
  have hd : (rsEncode msg).drop 514 = rsParity msg := by rw [rsEncode, ← h, List.drop_left']; rfl
  have hl : (rsEncode msg).length = 544 := by rw [rsEncode, List.length_append, h, rsParity_length]
  unfold rsDecode
  rw [if_neg (by simp [hl]), ht, hd, if_pos rfl]

/-- The codeword of a flit decodes to the marker and the flit. -/
theorem rsDecode_lineCodeword (lane counter : Nat) (flit : List Byte) :
    rsDecode (lineCodeword lane counter flit) = some (lineMessage lane counter flit) :=
  rsDecode_rsEncode (unpackSyms_length _ _)

/-- The symbols of a number spell it, as far as they reach. -/
theorem packSyms_unpackSyms (x n : Nat) : packSyms (unpackSyms x n) = x % 1024 ^ n := by
  induction n generalizing x with
  | zero => simp [packSyms, unpackSyms, Nat.mod_one]
  | succ n ih =>
    have h : unpackSyms x (n + 1) = (x % 1024) :: unpackSyms (x / 1024) n := by
      simp only [unpackSyms, List.range_succ_eq_map, List.map_cons, List.map_map, Nat.pow_zero, Nat.div_one, List.cons.injEq, true_and]
      refine List.map_congr_left fun j _ => ?_
      simp only [Function.comp_apply, Nat.pow_succ', Nat.div_div_eq_div_mul]
    have hp : packSyms (unpackSyms x (n + 1)) = x % 1024 + packSyms (unpackSyms (x / 1024) n) * 1024 := by rw [h]; rfl
    rw [hp, ih, Nat.pow_succ', Nat.mod_mul, Nat.mul_comm]

/-- The flit of the message that carries it. -/
theorem lineFlit_lineMessage (lane counter : Nat) {flit : List Byte} (h : flit.length = 640) :
    lineFlit (lineMessage lane counter flit) = flit := by
  have hl := leNat_lt flit
  have h1 : lane % 32 + counter % 2 ^ 15 * 32 < 2 ^ 20 := by omega
  have h2 : (lane % 32 + counter % 2 ^ 15 * 32 + leNat flit * 2 ^ 20) / 2 ^ 20 = leNat flit := by omega
  rw [lineFlit, lineMessage, packSyms_unpackSyms, Nat.mod_eq_of_lt, h2, ← h, leBytes_leNat]
  rw [h] at hl
  have h3 : ∀ a b c : Nat, 8 * a + b = 10 * c → (256 : Nat) ^ a * 2 ^ b = 1024 ^ c := by
    intro a b c h
    rw [show (256 : Nat) = 2 ^ 8 from rfl, show (1024 : Nat) = 2 ^ 10 from rfl, ← Nat.pow_mul, ← Nat.pow_mul, ← Nat.pow_add, h]
  rw [← h3 640 20 514 rfl]
  generalize (256 : Nat) ^ 640 = c at hl
  omega

theorem flitBytes_length (s : State) (i fsn : Nat) (isData ident : Bool) (off : Nat) (body : List Byte) :
    (flitBytes s i fsn isData ident off body).length = 640 := by
  simp only [flitBytes, padTo, List.length_append, leBytes_length, slice_length]

/-- Every flit that leaves checks. -/
theorem flitBytes_crc (s : State) (i fsn : Nat) (isData ident : Bool) (off : Nat) (body : List Byte) :
    leAt (flitBytes s i fsn isData ident off body) 0x278 8 = crc64 (slice (flitBytes s i fsn isData ident off body) 0 0x278) := by
  have key : ∀ b : List Byte, b.length = 0x278 →
      leAt (b ++ leBytes (crc64 b) 8) 0x278 8 = crc64 (slice (b ++ leBytes (crc64 b) 8) 0 0x278) := by
    intro b hb
    have h1 := leAt_leBytes b [] (crc64 b) 8 (crc64_lt b)
    have h2 := slice_mid [] b (leBytes (crc64 b) 8)
    simp only [List.append_nil, List.nil_append, List.length_nil, hb] at h1 h2
    rw [h1, h2]
  exact key _ (by simp only [padTo, List.length_append, leBytes_length, slice_length])
end Sys2Proof.Machine
end

