-- ==== Sys2Proof/WellFormed.lean ====
section
/-!
DEFINITION. Well-formed commands: every operand names a unit, a register or an instance that the package has (R18 to
R25, R47, R48). The sender of a command is the package itself or its link partners, so an ill-formed one never arrives.
-/
namespace Sys2Proof

/-- A requester: the PF, the VF of one of at most eight partitions, or the Carillon (R53). -/
def Req.wf : Req → Bool
  | .pf => true
  | .vf p => decide (p < 8)
  | .car => true

/-- The base address of a 4 KiB page of BAR0 (R47). -/
def pageAddrWf (a : Nat) : Bool := decide (a < 0x4000000) && a % 0x1000 = 0

/-- A debug access names a core, a slot and one of the six kinds (R441). -/
def accWf : Option DbgAcc → Bool
  | none => true
  | some a => decide (a.core < 1152) && decide (a.slot < 16) && decide (a.kind < 6)

/-- Is a command well formed? -/
def wellFormed : Instr → Bool
  | .vaux12InRange _ _ _ => true
  | .bootS1 => true
  | .romWatchdog _ => true
  | .vin48Present => true
  | .bootS2 bridges _ => decide (bridges < 16)
  | .bootS3 _ _ => true
  | .bootS4 _ _ _ => true
  | .bootS5 _ => true
  | .bootS6 => true
  | .bootS7 => true
  | .bootStageFail _ => true
  | .registerWrite req addr size _ =>
    req.wf && decide (addr < 0x4000000) && (size = 1 || size = 2 || size = 4 || size = 8)
  | .rcRegisterRead req addr size =>
    req.wf && decide (addr < 0x4000000) && (size = 1 || size = 2 || size = 4 || size = 8)
  | .accessLevelWrite req addr _ => req.wf && decide (addr < 0x4000000)
  | .ctrlEnableSet req addr _ => req.wf && decide (addr < 0x4000000)
  | .ctrlEnableClear req addr _ => req.wf && decide (addr < 0x4000000)
  | .ctrlQuiesceSet req addr _ => req.wf && decide (addr < 0x4000000)
  | .ctrlQuiesceClear req addr _ => req.wf && decide (addr < 0x4000000)
  | .quiescedReached pageAddr => pageAddrWf pageAddr
  | .quiesceTimeout pageAddr => pageAddrWf pageAddr
  | .ctrlResetReq req addr _ => req.wf && decide (addr < 0x4000000)
  | .errStatusClear req addr _ => req.wf && decide (addr < 0x4000000)
  | .errFirstValidClear req addr _ => req.wf && decide (addr < 0x4000000)
  | .errInject req addr _ => req.wf && decide (addr < 0x4000000)
  | .intStatusClear req addr _ => req.wf && decide (addr < 0x4000000)
  | .synStateRead req core => req.wf && decide (core.no < 1152)
  | .carTimeRead req => req.wf
  | .islandSensorSample islandA islandB _ _ => decide (islandA < 32768) && decide (islandB < 32768)
  | .islandSupplySkew islandA islandB => decide (islandA < 32768) && decide (islandB < 32768)
  | .islandClockSkew islandA islandB => decide (islandA < 32768) && decide (islandB < 32768)
  | .sqInstall req core slot => req.wf && decide (core < 1152) && decide (slot < 16)
  | .deferredInstall core => decide (core < 1152)
  | .sqPreempt req core slot => req.wf && decide (core < 1152) && decide (slot < 16)
  | .sqResume req core slot => req.wf && decide (core < 1152) && decide (slot < 16)
  | .sqHalt req core slot => req.wf && decide (core < 1152) && decide (slot < 16)
  | .sqUnhalt req core slot => req.wf && decide (core < 1152) && decide (slot < 16)
  | .sqStep req core slot => req.wf && decide (core < 1152) && decide (slot < 16)
  | .sqCmdInvalid req core slot _ => req.wf && decide (core < 1152) && decide (slot < 16)
  | .rudimentLoadCheck core slot => decide (core < 1152) && decide (slot.no < 16)
  | .restoreHeaderRead core slot => decide (core < 1152) && decide (slot.no < 16)
  | .restoreComplete core slot => decide (core < 1152) && decide (slot.no < 16)
  | .stepPrefetch core slot => decide (core < 1152) && decide (slot.no < 16)
  | .stepIssue core slot _ => decide (core < 1152) && decide (slot < 16)
  | .stepComplete core slot _ => decide (core < 1152) && decide (slot < 16)
  | .barrierBindReadDone core slot => decide (core < 1152) && decide (slot < 16)
  | .gongArrival core slot bar phase _ =>
    decide (core < 1152) && decide (slot < 16) && decide (bar < 320) && decide (phase < 4)
  | .barrierReleaseReceive core fabric bar phase =>
    decide (core < 1152) && decide (bar < if fabric then 256 else 320) && decide (phase.no < 4)
  | .barrierOverrunNotice core slot bar _ => decide (core < 1152) && decide (slot < 16) && decide (bar < 320)
  | .gngBarCfgWrite req tile bar _ => req.wf && decide (tile < 4) && decide (bar < 256)
  | .gngPkgCfgWrite req bar _ => req.wf && decide (bar < 64)
  | .fbLocalArrival pipe core slot bar phase =>
    decide (pipe < 8) && decide (core < 1152) && decide (slot < 16) && decide (bar < 256) && decide (phase < 4)
  | .fbTimeout pipe bar => decide (pipe < 8) && decide (bar < 256)
  | .colFbCfgWrite req pipe bar _ => req.wf && decide (pipe < 8) && decide (bar < 256)
  | .teMma core slot _ => decide (core < 1152) && decide (slot < 16)
  | .teWb core slot _ => decide (core < 1152) && decide (slot < 16)
  | .teZero core slot _ => decide (core < 1152) && decide (slot < 16)
  | .teLdacc core slot _ => decide (core < 1152) && decide (slot < 16)
  | .teOpInvalid core slot => decide (core < 1152) && decide (slot < 16)
  | .teOpComplete core _ _ => decide (core < 1152)
  | .veStrandLaunch core strand => decide (core < 1152) && decide (strand < 64)
  | .veNop core strand _ => decide (core < 1152) && decide (strand < 64)
  | .veAdd core strand _ => decide (core < 1152) && decide (strand < 64)
  | .veSub core strand _ => decide (core < 1152) && decide (strand < 64)
  | .veMul core strand _ => decide (core < 1152) && decide (strand < 64)
  | .veFma core strand _ => decide (core < 1152) && decide (strand < 64)
  | .veMin core strand _ => decide (core < 1152) && decide (strand < 64)
  | .veMax core strand _ => decide (core < 1152) && decide (strand < 64)
  | .veAbs core strand _ => decide (core < 1152) && decide (strand < 64)
  | .veNeg core strand _ => decide (core < 1152) && decide (strand < 64)
  | .veCvt core strand _ => decide (core < 1152) && decide (strand < 64)
  | .veCmp core strand _ => decide (core < 1152) && decide (strand < 64)
  | .veSel core strand _ => decide (core < 1152) && decide (strand < 64)
  | .veAnd core strand _ => decide (core < 1152) && decide (strand < 64)
  | .veOr core strand _ => decide (core < 1152) && decide (strand < 64)
  | .veXor core strand _ => decide (core < 1152) && decide (strand < 64)
  | .veShl core strand _ => decide (core < 1152) && decide (strand < 64)
  | .veShr core strand _ => decide (core < 1152) && decide (strand < 64)
  | .veSar core strand _ => decide (core < 1152) && decide (strand < 64)
  | .veRcp core strand _ => decide (core < 1152) && decide (strand < 64)
  | .veRsqrt core strand _ => decide (core < 1152) && decide (strand < 64)
  | .veSqrt core strand _ => decide (core < 1152) && decide (strand < 64)
  | .veExp2 core strand _ => decide (core < 1152) && decide (strand < 64)
  | .veLog2 core strand _ => decide (core < 1152) && decide (strand < 64)
  | .veSinpi core strand _ => decide (core < 1152) && decide (strand < 64)
  | .veCospi core strand _ => decide (core < 1152) && decide (strand < 64)
  | .veTanh core strand _ => decide (core < 1152) && decide (strand < 64)
  | .veLd core strand _ => decide (core < 1152) && decide (strand < 64)
  | .veSt core strand _ => decide (core < 1152) && decide (strand < 64)
  | .veLdx core strand _ => decide (core < 1152) && decide (strand < 64)
  | .veStx core strand _ => decide (core < 1152) && decide (strand < 64)
  | .veSld core strand _ => decide (core < 1152) && decide (strand < 64)
  | .veSst core strand _ => decide (core < 1152) && decide (strand < 64)
  | .veShuf core strand _ => decide (core < 1152) && decide (strand < 64)
  | .veBcst core strand _ => decide (core < 1152) && decide (strand < 64)
  | .veRadd core strand _ => decide (core < 1152) && decide (strand < 64)
  | .veRmax core strand _ => decide (core < 1152) && decide (strand < 64)
  | .veRmin core strand _ => decide (core < 1152) && decide (strand < 64)
  | .veMovi core strand _ => decide (core < 1152) && decide (strand < 64)
  | .veMov core strand _ => decide (core < 1152) && decide (strand < 64)
  | .veMovs core strand _ => decide (core < 1152) && decide (strand < 64)
  | .veLaneid core strand _ => decide (core < 1152) && decide (strand < 64)
  | .veLoop core strand _ => decide (core < 1152) && decide (strand < 64)
  | .veJmp core strand _ => decide (core < 1152) && decide (strand < 64)
  | .veExit core strand _ => decide (core < 1152) && decide (strand < 64)
  | .veWait core strand _ => decide (core < 1152) && decide (strand < 64)
  | .veSignal core strand _ => decide (core < 1152) && decide (strand < 64)
  | .veFence core strand _ => decide (core < 1152) && decide (strand < 64)
  | .veOpInvalid core strand _ => decide (core < 1152) && decide (strand < 64)
  | .xeChainStart core stream => decide (core < 1152) && decide (stream < 256)
  | .xeCopy core stream => decide (core < 1152) && decide (stream.no < 256)
  | .xeFill core stream => decide (core < 1152) && decide (stream.no < 256)
  | .xeGather core stream => decide (core < 1152) && decide (stream.no < 256)
  | .xeScatter core stream => decide (core < 1152) && decide (stream.no < 256)
  | .xeAgen core stream => decide (core < 1152) && decide (stream.no < 256)
  | .xePut core stream => decide (core < 1152) && decide (stream.no < 256)
  | .xeGet core stream => decide (core < 1152) && decide (stream.no < 256)
  | .xeSignal core stream => decide (core < 1152) && decide (stream.no < 256)
  | .xeAtomic core stream => decide (core < 1152) && decide (stream.no < 256)
  | .xeReducePut core stream => decide (core < 1152) && decide (stream.no < 256)
  | .xeReadIssue core stream => decide (core < 1152) && decide (stream.no < 256)
  | .xeReadDataReturn core stream _ _ => decide (core < 1152) && decide (stream < 256)
  | .xeDescComplete core stream => decide (core < 1152) && decide (stream < 256)
  | .mmuWalk core slot _ _ _ => decide (core < 1152) && decide (slot < 16)
  | .xeTranslationFault core stream _ => decide (core < 1152) && decide (stream < 256)
  | .faultRecordPost mmu => decide (mmu < 64)
  | .mmuInvVaRange req mmu _ => req.wf && decide (mmu < 64)
  | .mmuInvAsid req mmu _ => req.wf && decide (mmu < 64)
  | .mmuInvAll req mmu _ => req.wf && decide (mmu < 64)
  | .mmuInvKey req mmu _ => req.wf && decide (mmu < 64)
  | .mmuInvComplete mmu => decide (mmu < 64)
  | .mmuInvTimeout mmu => decide (mmu < 64)
  | .fabricStopSettled core stream => decide (core < 1152) && decide (stream < 256)
  | .tallyOnlySend core stream => decide (core < 1152) && decide (stream < 256)
  | .saveStart core slot => decide (core < 1152) && decide (slot < 16)
  | .saveComplete core slot => decide (core < 1152) && decide (slot.no < 16)
  | .saveFault core slot _ _ => decide (core < 1152) && decide (slot < 16)
  | .srDoorbell req clu ring _ => req.wf && decide (clu < 64) && decide (ring < 4)
  | .srFetch clu ring _ => decide (clu < 64) && decide (ring < 4)
  | .ringDispatch clu ring => decide (clu < 64) && decide (ring < 4)
  | .ringNop clu ring => decide (clu < 64) && decide (ring < 4)
  | .ringInstall clu ring => decide (clu < 64) && decide (ring < 4)
  | .ringCtxReset clu ring => decide (clu < 64) && decide (ring < 4)
  | .ringInvalid clu ring => decide (clu < 64) && decide (ring < 4)
  | .cqPost clu cq => decide (clu < 64) && decide (cq < 4)
  | .cqTimerExpiry clu cq => decide (clu < 64) && decide (cq < 4)
  | .cluCqHeadWrite req clu cq _ => req.wf && decide (clu < 64) && decide (cq < 4)
  | .cluFqHeadWrite req clu _ => req.wf && decide (clu < 64)
  | .qDmaError clu queue => decide (clu < 64) && decide (queue < 9)
  | .qDmaTimeout clu queue => decide (clu < 64) && decide (queue < 9)
  | .configRequest func _ _ _ => decide (func < 9)
  | .bar2Read func _ len _ => decide (func < 9) && decide (len ≤ 512)
  | .bar2Write func _ data enables => decide (func < 9) && decide (enables.length = data.length) && decide (data.length ≤ 512)
  | .pcieLaneFailed _ => true
  | .pcieLinkDown => true
  | .vfFlr part => decide (part < 8)
  | .pfFlr => true
  | .perstAssert => true
  | .pcePartitionReset req part _ => req.wf && decide (part < 8)
  | .pceChipReset req => req.wf
  | .fabCmdEnable req port => req.wf && decide (port < 8)
  | .fabCmdDisable req port => req.wf && decide (port < 8)
  | .fabCmdRetrain req port => req.wf && decide (port < 8)
  | .fabCmdRecheck req port => req.wf && decide (port < 8)
  | .fabCmdClear req port => req.wf && decide (port < 8)
  | .fabCmdRetireLane req port lane => req.wf && decide (port < 8) && decide (lane < 32)
  | .fabSignalDetect port lanes => decide (port < 8) && decide (lanes < 2 ^ 17)
  | .downProbe port => decide (port < 8)
  | .trainingAttemptEnd port lanes _ => decide (port < 8) && lanes.all (fun x => decide (x.lane < 17))
  | .identityFrame port _ _ => decide (port < 8)
  | .identifyTimeout port => decide (port < 8)
  | .flitTransmit port => decide (port < 8)
  | .flitReceive port lane symbols _ _ =>
    decide (port < 8) && decide (lane < 17) && decide (symbols.length = 544) && symbols.all (fun x => decide (x < 1024))
  | .pauseReq port _ lanes _ => decide (port < 8) && decide (lanes < 2 ^ 17)
  | .pauseAck port _ lanes => decide (port < 8) && decide (lanes < 2 ^ 17)
  | .pauseComplete port => decide (port < 8)
  | .linkResume port => decide (port.port < 8) && decide (port.token < 256)
  | .retrainReq port => decide (port.port < 8) && decide (port.token < 256)
  | .standbyReq port _ => decide (port < 8)
  | .standbyAck port _ => decide (port < 8)
  | .wake port _ => decide (port < 8)
  | .keepalive port => decide (port < 8)
  | .laneBerWindow port lane m e => decide (port < 8) && decide (lane < 17) && decide (m < 256) && decide (e < 256)
  | .laneUncorrWindow port lane _ => decide (port < 8) && decide (lane < 17)
  | .laneLockLoss port lanes => decide (port < 8) && decide (lanes < 2 ^ 17)
  | .laneLockTimeout port lane => decide (port < 8) && decide (lane < 17)
  | .laneRelock port lane => decide (port < 8) && decide (lane < 17)
  | .laneRetrainComplete port lane => decide (port < 8) && decide (lane < 17)
  | .laneDarkTimeout port lane => decide (port < 8) && decide (lane < 17)
  | .optLaserWarn port laser => decide (port < 8) && decide (laser < 5)
  | .optLaserFault port laser => decide (port < 8) && decide (laser < 5)
  | .laserWarmComplete port => decide (port < 8)
  | .optTempRead port _ => decide (port < 8)
  | .optReflPeriodic port => decide (port < 8)
  | .optReflStart req port fibre => req.wf && decide (port < 8) && decide (fibre < 64)
  | .optReflAbort req port => req.wf && decide (port < 8)
  | .reflFibreComplete port _ => decide (port < 8)
  | .optProbeFail port => decide (port < 8)
  | .planeFailTimer port => decide (port < 8)
  | .fabricPacketSend core stream => decide (core < 1152) && decide (stream.no < 256)
  | .packetHoldTimeout core stream => decide (core < 1160) && decide (stream < 256)
  | .putPkt port part _ _ => (decide (port < 8) || port = 255) && decide (part < 8)
  | .getReq port part _ _ _ => (decide (port < 8) || port = 255) && decide (part < 8)
  | .signalPkt port part _ _ => (decide (port < 8) || port = 255) && decide (part < 8)
  | .atomicPkt port part _ _ _ => (decide (port < 8) || port = 255) && decide (part < 8)
  | .reducePut port part _ _ _ => (decide (port < 8) || port = 255) && decide (part < 8)
  | .tally port part _ _ => (decide (port < 8) || port = 255) && decide (part < 8)
  | .ackPkt port part _ _ => (decide (port < 8) || port = 255) && decide (part < 8)
  | .getData port part _ _ => (decide (port < 8) || port = 255) && decide (part < 8)
  | .atomicRsp port part _ _ => (decide (port < 8) || port = 255) && decide (part < 8)
  | .unreachable port part _ _ => (decide (port < 8) || port = 255) && decide (part < 8)
  | .packetResend core stream fseq => decide (core < 1152) && decide (stream < 256) && decide (fseq.no < 65536)
  | .packetTimeout core stream fseq => decide (core < 1160) && decide (stream < 256) && decide (fseq < 65536)
  | .orphanTimeout core slot _ fseq => decide (core < 1152) && decide (slot < 16) && decide (fseq < 65536)
  | .resetNotice port part _ _ => (decide (port < 8) || port = 255) && decide (part < 8)
  | .epochAnnounce port part _ _ => (decide (port < 8) || port = 255) && decide (part < 8)
  | .fbArrive port part _ _ => (decide (port < 8) || port = 255) && decide (part < 8)
  | .fbRelease port part _ _ => (decide (port < 8) || port = 255) && decide (part < 8)
  | .fbOverrun port part _ _ => (decide (port < 8) || port = 255) && decide (part < 8)
  | .rollLoad req pipe => req.wf && decide (pipe < 8)
  | .rollLoadComplete pipe _ => decide (pipe < 8)
  | .rollSelect req pipe _ => req.wf && decide (pipe < 8)
  | .rollUnload req pipe => req.wf && decide (pipe < 8)
  | .peerClear req pipe coord => req.wf && decide (pipe < 8) && decide (coord < 65536)
  | .peerMarkLost req pipe coord => req.wf && decide (pipe < 8) && decide (coord < 65536)
  | .pealChunk core _ => decide (core < 1152)
  | .pealEnd core => decide (core < 1152)
  | .pealFetchPass core _ _ => decide (core < 1152)
  | .bistSliceSchedule cls _ => decide (cls < 10)
  | .bistSliceStart cls _ _ _ => decide (cls < 10)
  | .bistSliceComplete cls _ _ _ _ => decide (cls < 10)
  | .bistSliceRetry cls _ _ _ => decide (cls < 10)
  | .bstDirectCmd req _ => req.wf
  | .directBistComplete _ => true
  | .scanRequest => true
  | .scanOpen => true
  | .setCheck req pipe _ => req.wf && decide (pipe < 8)
  | .setFetch req pipe _ => req.wf && decide (pipe < 8)
  | .setSend req pipe grp _ => req.wf && decide (pipe < 8) && decide (grp < 16)
  | .setCmdComplete pipe => decide (pipe < 8)
  | .fieldRecordFlush => true
  | .fwConfirm req _ => req.wf
  | .fwCancelPending req => req.wf
  | .fwBufferEcc _ => true
  | .stagingReadbackComplete => true
  | .rcvStatus iface => decide (iface < 2)
  | .rcvBegin iface _ => decide (iface < 2)
  | .rcvData iface _ _ => decide (iface < 2)
  | .rcvEnd iface => decide (iface < 2)
  | .rcvAbort iface => decide (iface < 2)
  | .rcvVerifyComplete => true
  | .rcvInactivityTimeout => true
  | .lcToMission req => req.wf
  | .lcToReturn req => req.wf
  | .lcToEnd req => req.wf
  | .lcTransitionComplete _ => true
  | .alarmVglitch => true
  | .alarmCglitch => true
  | .alarmTemp => true
  | .alarmMesh => true
  | .alarmFuse => true
  | .alarmDebug _ => true
  | .secAlarmCfgWrite req _ => req.wf
  | .dbgGetNonce => true
  | .dbgToken _ => true
  | .dbgRevoke mask => decide (mask < 256)
  | .dbgStatus => true
  | .dbgCmdRevoke req mask => req.wf && decide (mask < 256)
  | .dbgCmdRevokeAll req => req.wf
  | .dbgCmdOpen req _ mask => req.wf && decide (mask < 256)
  | .tokenLockoutExpiry => true
  | .jtagInstruction cls _ acc => decide (cls < 4) && accWf acc
  | .traceEnable req clu _ => req.wf && decide (clu < 64)
  | .fabKeySet _ _ _ _ => true
  | .fabKeyDelete _ _ _ => true
  | .fabKeyTx _ _ _ => true
  | .fabEnc _ _ _ => true
  | .spdmGetVersion => true
  | .spdmGetCapabilities => true
  | .spdmNegotiateAlgorithms _ => true
  | .spdmGetDigests => true
  | .spdmGetCertificate _ _ _ => true
  | .spdmChallenge _ _ => true
  | .spdmGetMeasurements _ _ => true
  | .spdmKeyExchange _ => true
  | .spdmFinish _ _ => true
  | .spdmHeartbeat _ => true
  | .spdmKeyUpdate _ => true
  | .spdmEndSession _ => true
  | .spdmVendorDefinedRequest _ _ _ _ _ _ => true
  | .hangEvent core slot => decide (core < 1152) && decide (slot < 16)
  | .saveTimeout core slot => decide (core < 1152) && decide (slot < 16)
  | .contextReset core slot _ => decide (core < 1152) && decide (slot < 16)
  | .ctxResetTimeout core slot engines => decide (core < 1152) && decide (slot < 16) && decide (engines < 16)
  | .engineReset core engine => decide (core < 1152) && decide (engine < 4)
  | .engResetTimeout core engine => decide (core < 1152) && decide (engine < 4)
  | .partitionReset part => decide (part < 8)
  | .partitionResetComplete part _ => decide (part < 8)
  | .partResetTimeout part => decide (part < 8)
  | .chipReset => true
  | .splitChangeRequest => true
  | .sideDoorTimeout pageAddr _ => pageAddrWf pageAddr
  | .dumpCollectionEnd _ => true
  | .dumpTake req _ => req.wf
  | .dumpRelease req _ => req.wf
  | .dumpDataRead req => req.wf
  | .pwrStateCmdA0 req => req.wf
  | .pwrStateCmdA2 req => req.wf
  | .pwrStateCmdA3 req => req.wf
  | .a1IdleEntry => true
  | .a2EntryComplete => true
  | .a2ExitComplete => true
  | .pwrStateFail => true
  | .powerGrant core slot => decide (core < 1152) && decide (slot < 16)
  | .poolRecompute _ => true
  | .fastLoopTick _ _ _ => true
  | .pwrbrkAssert => true
  | .brakeStage2 _ => true
  | .brakeRelease => true
  | .lEffRamp => true
  | .brakeStageRecompute => true
  | .pwrLimitCfgWrite req _ => req.wf
  | .vinDip _ => true
  | .powerFailSequence _ => true
  | .pwrVinOv _ => true
  | .pwrVauxLost => true
  | .vin48Return => true
  | .vaux12Removed => true
  | .thermalSample _ _ => true
  | .thermalStepTimer site => decide (site < 85)
  | .hbmTempRead stack _ => decide (stack < 16)
  | .coolingEventRepeat _ => true
  | .hbmRefresh stack pc _ => decide (stack < 16) && decide (pc < 64)
  | .patrolScrubRead hbm unit sub _ => decide (unit < if hbm then 16 else 64) && decide (sub < if hbm then 64 else 16)
  | .zeroiseComplete unit => decide (unit < 72)
  | .brgFlitCrcFail bridge dir grp lane =>
    decide (bridge < 4) && decide (dir < 2) && decide (grp < 16) && decide (lane < 65)
  | .brgLaneSpared bridge dir grp lane =>
    decide (bridge < 4) && decide (dir < 2) && decide (grp < 16) && decide (lane < 65)
  | .brgRetired bridge dir grp => decide (bridge < 4) && decide (dir < 2) && decide (grp < 16)
  | .controllerSelftestDone ctrl _ => decide (ctrl < 2)
  | .heartbeatSlot ctrl _ _ => decide (ctrl < 2)
  | .tokenRequest ctrl _ => decide (ctrl < 2)
  | .failover => true
  | .takeback => true
  | .bothDownTimeout => true
  | .i3cEntdaa bus addr => decide (bus < 2) && decide (addr < 128)
  | .mctpSetEndpointId bus eid => decide (bus < 2) && decide (eid < 256)
  | .mctpGetEndpointId bus => decide (bus < 2)
  | .mctpGetVersionSupport bus _ => decide (bus < 2)
  | .mctpGetMessageTypeSupport bus => decide (bus < 2)
  | .mctpGetVendorMessageSupport bus _ => decide (bus < 2)
  | .pldmGetTid bus => decide (bus < 2)
  | .pldmSetTid bus _ => decide (bus < 2)
  | .pldmGetPldmVersion bus _ => decide (bus < 2)
  | .pldmGetPldmTypes bus => decide (bus < 2)
  | .pldmGetPldmCommands bus _ => decide (bus < 2)
  | .pldmSetEventReceiver bus eid => decide (bus < 2) && decide (eid < 256)
  | .pldmPollForEvent bus _ => decide (bus < 2)
  | .pldmGetSensorReading bus _ => decide (bus < 2)
  | .pldmGetStateSensorReadings bus _ => decide (bus < 2)
  | .pldmGetPdr bus _ => decide (bus < 2)
  | .pldmGetPdrRepositoryInfo bus => decide (bus < 2)
  | .effecterPowerState bus _ => decide (bus < 2)
  | .effecterChipReset bus => decide (bus < 2)
  | .effecterConfirm bus _ => decide (bus < 2)
  | .eventSend => true
  | .eventAnswer => true
  | .eventRetryTimeout => true
  | .pldmRequestUpdate bus => decide (bus < 2)
  | .pldmPassComponentTable bus _ _ => decide (bus < 2)
  | .pldmUpdateComponent bus _ => decide (bus < 2)
  | .firmwareDataReceived bus _ => decide (bus < 2)
  | .pldmActivateFirmware bus => decide (bus < 2)
  | .pldmGetStatus bus => decide (bus < 2)
  | .pldmCancelUpdate bus => decide (bus < 2)
  | .carStatus bus => decide (bus < 2)
  | .mctpDumpRead bus _ => decide (bus < 2)
  | .configRead bus => decide (bus < 2)
  | .configWrite bus _ => decide (bus < 2)
  | .telemetry bus => decide (bus < 2)
  | .telemetrySample _ _ => true
  | .perstDeassert => true
  | .pcieLinkUp _ _ _ => true
  | .queueEnable req clu queue _ => req.wf && decide (clu < 64) && decide (queue < 9)
  | .refreshManagementRequest stack pc => decide (stack < 16) && decide (pc < 64)

end Sys2Proof
end

