-- ==== Sys2Proof/Tests/Slice0.lean ====
section
/-!
SUPPORT. Tests: steps and operations on the values of the manual's worked examples, ill-formed commands that the check refuses, and
for each statement a theorem that shows concrete states and operands meeting the hypotheses of each of its clauses. The values that a
hypothesis determines are taken from it.
-/
set_option Elab.async false
set_option linter.unnecessarySeqFocus false
set_option linter.unreachableTactic false
set_option linter.unusedTactic false

open Sys2Proof hiding core
open Sys2Proof.Machine

namespace Slice0Tests

/-! ### Small states -/

/-- A slot of the last core in a state. -/
def withSlot (f : Slot → Slot) : State := modSlot State.reset 1151 15 f

/-- A slot of the first core that is ACTIVE. -/
def active (f : Slot → Slot) : State := modSlot State.reset 0 0 (fun sl => f { sl with st := .active })

/-- The boot stage shown is `n`. -/
def atStage (n : Nat) : State := setStage State.reset n

/-- Core 0 holds a translation of its first GiB to the first GiB of memory, for ASID 1, which slot 0 names. -/
def mapped (s : State) : State :=
  rset (rset (modCore s 0 (fun c => { c with utlb := [⟨1, 0, 0, 0x40000000, 0, 0x6F, 0, 0, 0⟩] })) .sq 0 0x408 1) .mmu 0 0x808 1

/-- A rudiment of one step: its header, section table, and step at 0x140 (R139 to R144). -/
def image : List Byte :=
  padTo (leBytes 0x44555258 4 ++ [1, 0, 0, 0] ++ leBytes 0x100 2 ++ leBytes 1 2 ++ leBytes 0x180 4 ++ leBytes 0x4A04 2 ++
    [0, 1] ++ leBytes 0 8 ++ leBytes 1 4) 256 ++
  padTo (leBytes 1 2 ++ leBytes 0 2 ++ leBytes 1 4 ++ leBytes 0x140 4 ++ leBytes 64 4) 64

/-- Memory that holds the rudiment at 0x10000. -/
def imageMem : Memory := memWrite [] 0x10000 image

/-- A step record with the flags given, one operation of each engine, for a strand at 0. -/
def stepRec (flags : Nat) : List Byte :=
  padTo (leBytes flags 2 ++ leBytes 0 6 ++ [0, 1, 0, 0] ++
    (if bit flags 0 then leBytes 0 4 ++ leBytes 1 2 ++ leBytes 0 2 else leBytes 0 8) ++
    (if bit flags 1 then leBytes 0 4 ++ [1, 0, 0, 0] else leBytes 0 8)) 64

/-- Core 1151 whose slot 15 runs strand 63 on a window of 4 KiB, with the instruction word `w` at its start. -/
def veState (w : Nat) (f : Strand → Strand) : State :=
  { rset (modStrand (withSlot (fun sl => { sl with st := .active, strands := [63] })) 1151 63
      (fun x => f { x with run := .run })) .sq 1151 0x7D4 0x100 with mem := memWrite [] (lmDpa 1151) (leBytes w 8) }

/-- The image of `mapped`'s slot 0, with one section of type `ty` at 0x140 whose record is `r`, and one page of window. -/
def withRecord (ty : Nat) (r : List Byte) (f : Slot → Slot) : State :=
  { rset (mapped (active (fun sl => f { sl with loaded := true, rud := 0x10000, secs := [(ty, 1, 0x140, 64)] }))) .sq 0 0x414
      (if ty = 2 then 0x800 else 0x100) with mem := memWrite [] 0x10140 r }

/-- A TE record at the head of slot 0's queue, with physical bank 7. -/
def teState (r : List Byte) : State :=
  modCore (withRecord 2 r (fun sl => { sl with banks := [7] })) 0 (fun c => { c with teq := [(0, [⟨1, 0⟩])] })

/-- A descriptor next on stream 255 of core 0, context-relative stream 0 of slot 0. -/
def xeState (r : List Byte) (f : Stream → Stream) : State :=
  modStream (withRecord 4 r (fun sl => { sl with streams := [255] })) 0 255
    (fun x => f { x with st := .run, chain := some ⟨1, 0, 0⟩ })

/-- A COPY of 4 bytes from the window to the window at 0x100. -/
def copyRec : List Byte := padTo ([1, 0, 0, 0, 0x11, 0, 0, 0] ++ leBytes 0 8 ++ leBytes 0x100 8 ++ leBytes 4 4 ++ [1, 0, 1, 0]) 64

/-- A FILL of 4 bytes of the window. -/
def fillRec : List Byte := padTo ([2, 0, 0, 0, 0x10, 0, 0, 0] ++ leBytes 0 8 ++ leBytes 0 8 ++ leBytes 4 4) 64

/-- A fabric descriptor of a kind from and to the window, 4 bytes, peer 6, KEY 1, RSIG none. -/
def fabRec (kind spaces len : Nat) : List Byte :=
  padTo ([wd8 kind, 0, 0, 0, wd8 spaces, 0, 0, 0] ++ leBytes 0 16 ++ leBytes len 4 ++ leBytes 6 2 ++ leBytes 0 2 ++
    [0, 0, 0xFF, 0] ++ leBytes 64 4 ++ [0xFF, 0xFF]) 64
  where wd8 (n : Nat) : Byte := BitVec.ofNat 8 n

/-- Coordinate 5, pipeline 7 and the XE of core 0 accept packets; slot 0 is ACTIVE with one page of window, sync objects 0 to 63,
and stream 255; KEY 1 of the MMU names its window. -/
def fabric (s : State) : State :=
  rset (rset (rset (rset (rset (rset s .fab 0 0x11C 0x10005) .col 7 0x10 1) .xe 0 0x10 1) .sq 0 0x414 0x100) .mmu 0 0x400
    0x7C000001) .mmu 0 0x404 0x10000

/-- The fabric state with an active context. -/
def fab0 : State := fabric (active (fun sl => { sl with blocks := [0], streams := [255] }))

/-- A request packet from coordinate 6 to core 0. -/
def reqPkt (type len opx rsig operand : Nat) (b : List Byte) : Pkt :=
  { type := type, dstCoord := 5, srcCoord := 6, plen := len, opx := opx, rsig := rsig, key := 64, operand := operand, payload := b }

/-- What the checks of a packet on port 7 leave. -/
def arrived (s : State) (type : Nat) (p : Pkt) : State := (arriveCheck s (arrival s 7 0) type (pktBytes p) true).1

/-- What the peer check leaves after it. -/
def peered (s : State) (type : Nat) (p : Pkt) : State := (peerCheck (arrived s type p) 0 p).1


/-- The codeword of an empty flit with a FSN on lane 0. -/
def flitSyms (fsn : Nat) (data : Bool) : List Nat := lineCodeword 0 0 (flitBytes State.reset 7 fsn data false 0 [])

/-- Its message. -/
def flitMsg (fsn : Nat) (data : Bool) : List Nat := lineMessage 0 0 (flitBytes State.reset 7 fsn data false 0 [])

theorem lineFlit_flitMsg (fsn : Nat) (data : Bool) :
    lineFlit (flitMsg fsn data) = flitBytes State.reset 7 fsn data false 0 [] :=
  lineFlit_lineMessage 0 0 (flitBytes_length ..)

/-- A tray configuration record that passes its check (R528). -/
def cfgRec : List Byte := let h := padTo (leBytes 0x47464354 4 ++ [1, 0]) 252; h ++ leBytes (crc32c h) 4
/-! ### Options in hypotheses -/

theorem opt_all {α : Type} {o : Option α} {P : α → Prop} [DecidablePred P] (h : o.all (fun x => decide (P x)) = true) :
    ∀ x, o = some x → P x := by
  intro x hx; subst hx; simpa using h

theorem opt_all_pair {α β : Type} {o : Option (α × β)} {P : α → β → Prop} [∀ x y, Decidable (P x y)]
    (h : o.all (fun x => decide (P x.1 x.2)) = true) : ∀ x y, o = some (x, y) → P x y := by
  intro x y hx; subst hx; simpa using h

theorem opt_all_triple {α β γ : Type} {o : Option (α × β × γ)} {P : α → β → γ → Prop} [∀ x y z, Decidable (P x y z)]
    (h : o.all (fun x => decide (P x.1 x.2.1 x.2.2)) = true) : ∀ x y z, o = some (x, y, z) → P x y z := by
  intro x y z hx; subst hx; simpa using h

theorem opt_ex {α : Type} {o : Option α} {P : α → Prop} [DecidablePred P] (h : o.any (fun x => decide (P x)) = true) :
    ∃ x, o = some x ∧ P x := by
  cases o with
  | none => simp at h
  | some x => exact ⟨x, rfl, by simpa using h⟩

theorem opt_ex_pair {α β : Type} {o : Option (α × β)} {P : α → β → Prop} [∀ x y, Decidable (P x y)]
    (h : o.any (fun x => decide (P x.1 x.2)) = true) : ∃ x y, o = some (x, y) ∧ P x y := by
  cases o with
  | none => simp at h
  | some x => exact ⟨x.1, x.2, rfl, by simpa using h⟩


theorem wit_ResetState :
    (∃ (b : Block), ∃ (i off : Nat), i < blockCount b ∧ off < 0x1000) ∧
    (∃ (b : Block), ∃ (i : Nat), i < blockCount b ∧ b ≠ .dir) := by
  refine ⟨?_, ?_⟩
  · refine ⟨Block.col, 3, 4095, ?_, ?_⟩ <;>
      decide +kernel
  · refine ⟨Block.col, 3, ?_, ?_⟩ <;>
      decide +kernel

theorem wit_StepKeepsInv :
    ∃ (s t : State), Inv s ∧ step s = .next t := by
  exact ⟨State.reset, (match (step State.reset) with | .next z_ => z_ | _ => State.reset),
    (by constructor <;> decide +kernel), rfl⟩

/-- A state of the witnesses of `StepRunsFront`. -/
def sStepRunsFront0 : State :=
  { pending := [.bootS6] }

theorem wit_StepRunsFront :
    (∃ (c : Instr), ∃ (rest : List Instr), ∃ (s : State), s.pending = c :: rest) ∧
    (∃ (s : State), s.pending = []) := by
  refine ⟨?_, ?_⟩
  · refine ⟨(List.head (sStepRunsFront0.pending) (by decide +kernel)), [], sStepRunsFront0, ?_⟩ <;>
      decide +kernel
  · refine ⟨State.reset, ?_⟩ <;>
      decide +kernel

/-- A state of the witnesses of `BootPower`. -/
def sBootPower0 : State :=
  { carillon := { powered := true } }

/-- A state of the witnesses of `BootPower`. -/
def sBootPower2 : State :=
  { fw := { running := some 0 } }

/-- A state of the witnesses of `BootPower`. -/
def sBootPower3 : State :=
  { fw := { running := some 0 }, carillon := { token := some 0 } }

/-- A state of the witnesses of `BootPower`. -/
def sBootPower4 : State :=
  { fw := { recovery := true }, carillon := { powered := true } }

theorem wit_BootPower :
    (∃ (s : State), s.carillon.powered = true) ∧
    (∃ (s : State), s.carillon.powered = false) ∧
    (∃ (s : State), (s.fw.running.isSome && !s.fw.reachedS1) = false) ∧
    (∃ (s : State), s.fw.running.isSome ∧ s.fw.reachedS1 = false) ∧
    (∃ (s : State), (s.fw.running.isNone || s.carillon.token.isNone || s.fw.reachedS1 || bootFailed s) = true) ∧
    (∃ (s : State), s.fw.running.isSome ∧ s.carillon.token.isSome ∧ s.fw.reachedS1 = false ∧ bootFailed s = false) ∧
    (∃ (s : State), (s.carillon.powered = true ∧ s.thermal.tripped = false ∧ s.power.failed = false ∧ s.power.vauxLost
    = false ∧ (s.fw.recovery || s.fw.reachedS1) = true)) ∧
    (∃ (s : State), (¬ (s.carillon.powered = true ∧ s.thermal.tripped = false ∧ s.power.failed = false ∧
    s.power.vauxLost = false ∧ (s.fw.recovery || s.fw.reachedS1) = true))) := by
  refine ⟨?_, ?_, ?_, ?_, ?_, ?_, ?_, ?_⟩
  · refine ⟨sBootPower0, ?_⟩ <;>
      decide +kernel
  · refine ⟨State.reset, ?_⟩ <;>
      decide +kernel
  · refine ⟨sBootPower0, ?_⟩ <;>
      decide +kernel
  · refine ⟨sBootPower2, ?_, ?_⟩ <;>
      decide +kernel
  · refine ⟨sBootPower0, ?_⟩ <;>
      decide +kernel
  · refine ⟨sBootPower3, ?_, ?_, ?_, ?_⟩ <;>
      decide +kernel
  · refine ⟨sBootPower4, ⟨?_, ?_, ?_, ?_, ?_⟩⟩ <;>
      decide +kernel
  · refine ⟨sBootPower0, ?_⟩ <;>
      decide +kernel

/-- A state of the witnesses of `BootStages`. -/
def sBootStages0 : State :=
  setStage
  { power := { vin48 := true }, carillon := { token := some 0 }, fw := { running := some 0, reachedS1 := true, bundleOk := true } }
  1

/-- A state of the witnesses of `BootStages`. -/
def sBootStages11 : State :=
  { atStage 6 with bootRetried := true }

theorem wit_BootStages :
    (∃ (s : State), s2Ready s = false) ∧
    (∃ (s : State), s2Ready s = true) ∧
    (∃ (s : State), bootStage s ≠ 2) ∧
    (∃ (s : State), bootStage s = 2) ∧
    (∃ (s : State), bootStage s ≠ 3) ∧
    (∃ (s : State), bootStage s = 3) ∧
    (∃ (s : State), bootStage s = 4) ∧
    (∃ (s : State), bootStage s ≠ 4 ∧ (bootStage s ≠ 5 ∨ anyPeal s = true ∨ frozen s = true ∨ configured s = true)) ∧
    (∃ (s : State), bootStage s = 5 ∧ anyPeal s = false ∧ frozen s = false ∧ configured s = false) ∧
    (∃ (s : State), (bootStage s ≠ 5 ∨ configured s = false)) ∧
    (∃ (s : State), bootStage s = 5 ∧ configured s = true) ∧
    (∃ (s : State), (bootStage s ≠ 6 ∨ ¬ ((∀ i < 8, portSettled s i = true) ∨ s.s6Us + 500000 ≤ s.us))) ∧
    (∃ (s : State), bootStage s = 6 ∧ (((∀ i < 8, portSettled s i = true) ∨ s.s6Us + 500000 ≤ s.us))) ∧
    (∃ (s : State), (¬ (2 ≤ bootStage s ∧ bootStage s ≤ 6))) ∧
    (∃ (s : State), 2 ≤ bootStage s ∧ bootStage s ≤ 6 ∧ s.bootRetried = false) ∧
    (∃ (s : State), 2 ≤ bootStage s ∧ bootStage s ≤ 6 ∧ s.bootRetried = true) := by
  refine ⟨?_, ?_, ?_, ?_, ?_, ?_, ?_, ?_, ?_, ?_, ?_, ?_, ?_, ?_, ?_, ?_⟩
  · refine ⟨State.reset, ?_⟩ <;>
      decide +kernel
  · refine ⟨sBootStages0, ?_⟩ <;>
      decide +kernel
  · refine ⟨sBootStages0, ?_⟩ <;>
      decide +kernel
  · refine ⟨atStage 2, ?_⟩ <;>
      decide +kernel
  · refine ⟨sBootStages0, ?_⟩ <;>
      decide +kernel
  · refine ⟨atStage 3, ?_⟩ <;>
      decide +kernel
  · refine ⟨atStage 4, ?_⟩ <;>
      decide +kernel
  · refine ⟨sBootStages0, ?_, ?_⟩ <;>
      decide +kernel
  · refine ⟨atStage 5, ?_, ?_, ?_, ?_⟩ <;>
      decide +kernel
  · refine ⟨sBootStages0, ?_⟩ <;>
      decide +kernel
  · refine ⟨rset (atStage 5) .dir 0 0x50 4, ?_, ?_⟩ <;>
      decide +kernel
  · exact ⟨sBootStages0, (by first | exact Or.inl (by decide +kernel) | exact Or.inr (by decide +kernel))⟩
  · refine ⟨atStage 6, ?_, (by first | exact Or.inl (by decide +kernel) | exact Or.inr (by decide +kernel))⟩ <;>
      decide +kernel
  · refine ⟨sBootStages0, ?_⟩ <;>
      decide +kernel
  · refine ⟨atStage 2, ?_, ?_, ?_⟩ <;>
      decide +kernel
  · refine ⟨sBootStages11, ?_, ?_, ?_⟩ <;>
      decide +kernel

theorem wit_PlainRegisterWrite :
    (∃ (s : State), ∃ (req : Req), ∃ (b : Block), ∃ (i : Nat), PageTakes s req (page b i + 0x18) b i) ∧
    (∃ (s : State), ∃ (req : Req), ∃ (b : Block), ∃ (i off : Nat), ∃ (r : RegRow), b ∈ [Block.thm, .til, .te, .ve, .xe,
    .syn, .hbm, .stg, .brg] ∧ 0x100 ≤ off ∧ off < 0x1000 ∧ off % 4 = 0 ∧ regRow b off = some r ∧ r.acc = .rw ∧
    PageTakes s req (page b i + off) b i ∧ pageRetired s b i = false) := by
  refine ⟨?_, ?_⟩
  · refine ⟨State.reset, Req.car, Block.col, 3, ⟨?_, ?_, ?_, ?_, ?_, ?_, ?_⟩⟩ <;>
      decide +kernel
  · refine ⟨State.reset, Req.car, Block.stg, 3, 280, (Option.get (regRow Block.stg 280) (by decide +kernel)),
    (List.mem_cons_of_mem _ (List.mem_cons_of_mem _ (List.mem_cons_of_mem _ (List.mem_cons_of_mem _
    (List.mem_cons_of_mem _ (List.mem_cons_of_mem _ (List.mem_cons_of_mem _ List.mem_cons_self))))))), ?_, ?_, ?_, ?_,
    ?_, ⟨?_, ?_, ?_, ?_, ?_, ?_, ?_⟩, ?_⟩ <;>
      decide +kernel

/-- A state of the witnesses of `RefusedAccess`. -/
def sRefusedAccess0 : State :=
  { setStage State.reset 7 with host := { up := true, perst := false } }

theorem wit_RefusedAccess :
    (∃ (s : State), ∃ (req : Req), ∃ (b : Block), ∃ (i off : Nat), i < blockCount b ∧ b ≠ .dir ∧ off < 0x1000 ∧
    answered s req = true ∧ off % 4 = 0 ∧ writeOpen s req (page b i + off) = false) ∧
    (∃ (s : State), ∃ (req : Req), ∃ (b : Block), ∃ (i off : Nat), i < blockCount b ∧ b ≠ .dir ∧ off < 0x1000 ∧
    answered s req = true ∧ off % 4 = 0 ∧ readOpen s req (page b i + off) = false) ∧
    (∃ (s : State), ∃ (req : Req), ∃ (b : Block), ∃ (i off : Nat), ∃ size, i < blockCount b ∧ b ≠ .dir ∧ off < 0x1000 ∧
    answered s req = true ∧ readOpen s req ((page b i + off) / 4 * 4) = false ∧ size ∈ [1, 2]) ∧
    (∃ (s : State), ∃ (req : Req), ∃ (b : Block), ∃ (i off : Nat), ∃ size, i < blockCount b ∧ b ≠ .dir ∧ off < 0x1000 ∧
    answered s req = true ∧ writeOpen s req (page b i + off) = true ∧ size ∈ [1, 2]) ∧
    (∃ (s : State), ∃ (req : Req), ∃ (a size : Nat), a < 0x4000000 ∧ answered s req = true ∧ size ∈ [1, 2] ∧ (∀ b i
    off, pageOf a = some (b, i, off) → b = .dir)) ∧
    (∃ (s : State), ∃ (req : Req), ∃ (a : Nat), answered s req = true ∧ a % 8 = 0) ∧
    (∃ (s : State), ∃ (req : Req), answered s req = false) := by
  refine ⟨?_, ?_, ?_, ?_, ?_, ?_, ?_⟩
  · refine ⟨sRefusedAccess0, Req.pf, Block.col, 0, 4092, ?_, ?_, ?_, ?_, ?_, ?_⟩ <;>
      decide +kernel
  · refine ⟨sRefusedAccess0, Req.pf, Block.col, 0, 4092, ?_, ?_, ?_, ?_, ?_, ?_⟩ <;>
      decide +kernel
  · refine ⟨sRefusedAccess0, Req.pf, Block.col, 0, 4092, 1, ?_, ?_, ?_, ?_, ?_, ?_⟩ <;>
      decide +kernel
  · refine ⟨sRefusedAccess0, Req.car, Block.col, 0, 4092, 1, ?_, ?_, ?_, ?_, ?_, ?_⟩ <;>
      decide +kernel
  · refine ⟨sRefusedAccess0, Req.car, 4092, 1, ?_, ?_, ?_, (opt_all_triple (by decide +kernel))⟩ <;>
      decide +kernel
  · refine ⟨sRefusedAccess0, Req.car, 16, ?_, ?_⟩ <;>
      decide +kernel
  · refine ⟨State.reset, Req.pf, ?_⟩ <;>
      decide +kernel

theorem wit_RegisterReads :
    (∃ (s : State), ∃ (req : Req), ∃ (b : Block), ∃ (i : Nat), i < blockCount b ∧ b ≠ .dir ∧ answered s req = true ∧
    pageOpen s req (page b i) = true ∧ pageDark s b = false) ∧
    (∃ (s : State), ∃ (req : Req), ∃ (rd : Reader), rd.no < 1152 ∧ answered s req = true ∧ pageOpen s req (page .syn
    rd.no) = true ∧ pageDark s .syn = false ∧ pageRetired s .syn rd.no = false) ∧
    (∃ (s : State), ∃ (req : Req), answered s req = true ∧ pageOpen s req (page .car 0) = true) := by
  refine ⟨?_, ?_, ?_⟩
  · refine ⟨State.reset, Req.car, Block.col, 7, ?_, ?_, ?_, ?_, ?_⟩ <;>
      decide +kernel
  · refine ⟨State.reset, Req.car, (⟨7, .none⟩ : Reader), ?_, ?_, ?_, ?_, ?_⟩ <;>
      decide +kernel
  · refine ⟨State.reset, Req.car, ?_, ?_⟩ <;>
      decide +kernel

theorem wit_InjectedErrors :
    (∃ (k : Nat), k < 32) ∧
    (∃ (s : State), ∃ (req : Req), ∃ (b : Block), ∃ (i : Nat), ∃ (v : Word), ∃ (e : ErrCode), PageTakes s req (page b i
    + 0x2C) b i ∧ (∀ p, req ≠ .vf p) ∧ wbit v 8 = true ∧ pageInReset s b i = false ∧ e ∈ blockErrs b ∧ fld v 4 0 =
    e.bit ∧ wbit (caps1Word s b) e.bit = true) ∧
    (∃ (s : State), ∃ (req : Req), ∃ (b : Block), ∃ (i : Nat), ∃ (v : Word), PageTakes s req (page b i + 0x2C) b i ∧
    ((∃ p, req = .vf p) ∨ wbit v 8 = false ∨ wbit (caps1Word s b) (fld v 4 0) = false ∨ pageInReset s b i = true)) := by
  refine ⟨?_, ?_, ?_⟩
  · refine ⟨0, ?_⟩ <;>
      decide +kernel
  · refine ⟨State.reset, Req.car, Block.col, 0, 0x100, ((blockErrs Block.col)[2]'(by decide +kernel)), ⟨?_, ?_, ?_, ?_, ?_,
    ?_, ?_⟩, (fun p_ h_ => absurd (show (match Req.car with | .vf _ => true | _ => false) = true by rw [h_])
    (by decide +kernel)), ?_, ?_, (List.getElem_mem _), ?_, ?_⟩ <;>
      decide +kernel
  · refine ⟨State.reset, Req.car, Block.col, 0, 0x10F, ⟨?_, ?_, ?_, ?_, ?_, ?_, ?_⟩,
    (by first | exact Or.inl (by decide +kernel) | exact Or.inr (Or.inl (by decide +kernel)) | exact Or.inr (Or.inr (Or.inl (by decide +kernel))) | exact Or.inr (Or.inr (Or.inr (by decide +kernel))))⟩ <;>
      decide +kernel

/-- A state of the witnesses of `HeaderCommands`. -/
def sHeaderCommands1 : State :=
  modCluster (modCore State.reset 1151 id) 63 (fun c => { c with retired := 0x3FFFF, clusterRetired := true })

/-- A state of the witnesses of `HeaderCommands`. -/
def sHeaderCommands6 : State :=
  rset (rset (rset State.reset .stg 63 0x40 6) .stg 63 0x44 6) .stg 63 0x48 0x2000

/-- A state of the witnesses of `HeaderCommands`. -/
def sHeaderCommands7 : State :=
  rset (rset (rset
  ({ setStage State.reset 7 with host := { up := true, perst := false, bme := [(0, true)], msixEnable := [(0, true)], msix := [(0, { addr := 64, masked := false })] } })
  .stg 63 0x40 6) .stg 63 0x44 6) .stg 63 0x48 0

theorem wit_HeaderCommands :
    (∃ (s : State), ∃ (req : Req), ∃ (b : Block), ∃ (i : Nat), PageTakes s req (page b i + 0x10) b i) ∧
    (∃ (s : State), ∃ (req : Req), ∃ (b : Block), ∃ (i : Nat), PageTakes s req (page b i + 0x10) b i) ∧
    (∃ (s : State), ∃ (req : Req), ∃ (b : Block), ∃ (i : Nat), ∃ c, i < blockCount b ∧ b ≠ .dir ∧ answered s req = true
    ∧ pageOpen s req (page b i) = true ∧ statusRetired s b i = true ∧ c ∈ [Instr.ctrlEnableSet, .ctrlEnableClear,
    .ctrlQuiesceSet, .ctrlQuiesceClear, .ctrlResetReq]) ∧
    (∃ (s : State), ∃ (b : Block), ∃ (i : Nat), ∃ (v : Word), PageTakes s .car (page b i + 0x50) b i ∧ wbit (rget s b i
    0x50) 2 = false ∧ fld v 1 0 ≠ 3) ∧
    (∃ (s : State), ∃ (b : Block), ∃ (i : Nat), ∃ (v : Word), PageTakes s .car (page b i + 0x50) b i ∧ wbit (rget s b i
    0x50) 2 = false ∧ fld v 1 0 = 3) ∧
    (∃ (s : State), ∃ (req : Req), ∃ (b : Block), ∃ (i : Nat), PageTakes s req (page b i + 0x50) b i ∧ (req ≠ .car ∨
    wbit (rget s b i 0x50) 2 = true)) ∧
    (∃ (s : State), ∃ (req : Req), ∃ (b : Block), ∃ (i : Nat), PageTakes s req (page b i + 0x20) b i) ∧
    (∃ (s : State), ∃ (req : Req), ∃ (b : Block), ∃ (i : Nat), ∃ (v : Word), PageTakes s req (page b i + 0x30) b i ∧
    wbit v 31 = true) ∧
    (∃ (s : State), ∃ (req : Req), ∃ (b : Block), ∃ (i : Nat), ∃ (v : Word), PageTakes s req (page b i + 0x30) b i ∧
    wbit v 31 = false) ∧
    (∃ (s : State), ∃ (req : Req), ∃ (b : Block), ∃ (i : Nat), ∃ (v : Word), PageTakes s req (page b i + 0x40) b i ∧
    let m := v &&& 0xFFFFFFFE; ((rget s b i 0x40 &&& m) = 0 ∨ intStatus s (page b i) &&& ~~~m &&& rget s b i 0x44 = 0)) ∧
    (∃ (s : State), ∃ (req : Req), ∃ (b : Block), ∃ (i : Nat), ∃ (v : Word), PageTakes s req (page b i + 0x40) b i ∧
    let m := v &&& 0xFFFFFFFE; (rget s b i 0x40 &&& m) ≠ 0 ∧ intStatus s (page b i) &&& ~~~m &&& rget s b i 0x44 ≠ 0) ∧
    (∃ (s : State), ∃ (req : Req), ∃ (b : Block), ∃ (i : Nat), ∃ (v : Word), PageTakes s req (page b i + 0x40) b i ∧
    let m := v &&& 0xFFFFFFFE; (rget s b i 0x40 &&& m) ≠ 0 ∧ intStatus s (page b i) &&& ~~~m &&& rget s b i 0x44 ≠ 0 ∧
      fld (rget s b i 0x48) 13 12 = 2) ∧
    (∃ (s : State), ∃ (req : Req), ∃ (b : Block), ∃ (i : Nat), ∃ (v : Word), PageTakes s req (page b i + 0x40) b i ∧
    let m := v &&& 0xFFFFFFFE;
      let u := rset s b i 0x40 (rget s b i 0x40 &&& ~~~m); (rget s b i 0x40 &&& m) ≠ 0 ∧ intStatus s (page b i) &&&
        ~~~m &&& rget s b i 0x44 ≠ 0 ∧ fld (rget s b i 0x48) 13 12 = 0 ∧ msixOk u 0 (fld (rget s b i 0x48) 10 0) =
        true) ∧
    (∃ (s : State), ∃ (b : Block), ∃ (i : Nat), i < blockCount b ∧ (wbit (rget s b i 0x10) 1 = true ∧ pageInReset s b i
    = false) ∧ blockIdle s b i = true) ∧
    (∃ (s : State), ∃ (b : Block), ∃ (i : Nat), i < blockCount b ∧ (¬ ((wbit (rget s b i 0x10) 1 = true ∧ pageInReset s
    b i = false) ∧ blockIdle s b i = true))) ∧
    (∃ (s : State), ∃ (b : Block), ∃ (i : Nat), i < blockCount b ∧ (wbit (rget s b i 0x10) 1 = true ∧ pageInReset s b i
    = false) ∧ wbit (rget s b i 0x14) 1 = false) ∧
    (∃ (s : State), ∃ (b : Block), ∃ (i : Nat), i < blockCount b ∧ (¬ ((wbit (rget s b i 0x10) 1 = true ∧ pageInReset s
    b i = false) ∧ wbit (rget s b i 0x14) 1 = false))) := by
  refine ⟨?_, ?_, ?_, ?_, ?_, ?_, ?_, ?_, ?_, ?_, ?_, ?_, ?_, ?_, ?_, ?_, ?_⟩
  · refine ⟨State.reset, Req.car, Block.col, 7, ⟨?_, ?_, ?_, ?_, ?_, ?_, ?_⟩⟩ <;>
      decide +kernel
  · refine ⟨State.reset, Req.car, Block.col, 7, ⟨?_, ?_, ?_, ?_, ?_, ?_, ?_⟩⟩ <;>
      decide +kernel
  · refine ⟨sHeaderCommands1, Req.car, Block.sq, 1151, Instr.ctrlEnableSet, ?_, ?_, ?_, ?_, ?_, List.mem_cons_self⟩ <;>
      decide +kernel
  · refine ⟨State.reset, Block.col, 7, 1, ⟨?_, ?_, ?_, ?_, ?_, ?_, ?_⟩, ?_, ?_⟩ <;>
      decide +kernel
  · refine ⟨State.reset, Block.col, 7, 3, ⟨?_, ?_, ?_, ?_, ?_, ?_, ?_⟩, ?_, ?_⟩ <;>
      decide +kernel
  · refine ⟨rset State.reset .col 7 0x50 0x4, Req.car, Block.col, 7, ⟨?_, ?_, ?_, ?_, ?_, ?_, ?_⟩, ?_⟩ <;>
      decide +kernel
  · refine ⟨State.reset, Req.car, Block.col, 7, ⟨?_, ?_, ?_, ?_, ?_, ?_, ?_⟩⟩ <;>
      decide +kernel
  · refine ⟨State.reset, Req.car, Block.col, 7, 0x80000000, ⟨?_, ?_, ?_, ?_, ?_, ?_, ?_⟩, ?_⟩ <;>
      decide +kernel
  · refine ⟨State.reset, Req.car, Block.col, 7, 1, ⟨?_, ?_, ?_, ?_, ?_, ?_, ?_⟩, ?_⟩ <;>
      decide +kernel
  · refine ⟨State.reset, Req.car, Block.col, 7, 1, ⟨?_, ?_, ?_, ?_, ?_, ?_, ?_⟩, ?_⟩ <;>
      decide +kernel
  · refine ⟨sHeaderCommands6, Req.car, Block.stg, 63, 3, ⟨?_, ?_, ?_, ?_, ?_, ?_, ?_⟩, ?_, ?_⟩ <;>
      decide +kernel
  · refine ⟨sHeaderCommands6, Req.car, Block.stg, 63, 3, ⟨?_, ?_, ?_, ?_, ?_, ?_, ?_⟩, ?_, ?_, ?_⟩ <;>
      decide +kernel
  · refine ⟨sHeaderCommands7, Req.car, Block.stg, 63, 3, ⟨?_, ?_, ?_, ?_, ?_, ?_, ?_⟩, ?_, ?_, ?_, ?_⟩ <;>
      decide +kernel
  · refine ⟨rset State.reset .stg 63 0x10 2, Block.stg, 63, ?_, ⟨?_, ?_⟩, ?_⟩ <;>
      decide +kernel
  · refine ⟨State.reset, Block.col, 7, ?_, ?_⟩ <;>
      decide +kernel
  · refine ⟨rset State.reset .stg 63 0x10 2, Block.stg, 63, ?_, ⟨?_, ?_⟩, ?_⟩ <;>
      decide +kernel
  · refine ⟨State.reset, Block.col, 7, ?_, ?_⟩ <;>
      decide +kernel

/-- A state of the witnesses of `ErrorsRecorded`. -/
def sErrorsRecorded1 : State :=
  rset State.reset .sq 1151 0x24 0xFFFFFFFF

/-- A state of the witnesses of `ErrorsRecorded`. -/
def sErrorsRecorded2 : State :=
  rset State.reset .sq 1151 0x30 0x80000000

/-- A state of the witnesses of `ErrorsRecorded`. -/
def sErrorsRecorded3 : State :=
  rset (rset State.reset .sq 1151 0x30 0x80000000) .sq 1151 0x34 0xFFFF

theorem wit_ErrorsRecorded :
    (∃ (e : ErrCode), ∃ (i : Nat), e.bit < 32 ∧ i < blockCount e.blk) ∧
    (∃ (s : State), ∃ (e : ErrCode), ∃ (i : Nat), ∃ off, e.bit < 32 ∧ i < blockCount e.blk ∧ wbit (rget s e.blk i 0x24)
    e.bit = true ∧ off ∈ [0x30, 0x34, 0x38]) ∧
    (∃ (s : State), ∃ (e : ErrCode), ∃ (i : Nat), e.bit < 32 ∧ i < blockCount e.blk ∧ wbit (rget s e.blk i 0x24) e.bit
    = false ∧ wbit (rget s e.blk i 0x30) 31 = false) ∧
    (∃ (s : State), ∃ (e : ErrCode), ∃ (i : Nat), e.bit < 32 ∧ i < blockCount e.blk ∧ wbit (rget s e.blk i 0x24) e.bit
    = false ∧ wbit (rget s e.blk i 0x30) 31 = true) ∧
    (∃ (s : State), ∃ (e : ErrCode), ∃ (i : Nat), e.bit < 32 ∧ i < blockCount e.blk ∧ wbit (rget s e.blk i 0x24) e.bit
    = false ∧ wbit (rget s e.blk i 0x30) 31 = true ∧ ((e.blk ≠ .car ∧ e.blk ≠ .pce) ∨ (s.evq.length < 64 ∧ wbit (rget
    s e.blk i 0x44) 0 = false)) ∧ fld (rget s e.blk i 0x34) 15 0 < 0xFFFF) ∧
    (∃ (s : State), ∃ (e : ErrCode), ∃ (i : Nat), e.bit < 32 ∧ i < blockCount e.blk ∧ wbit (rget s e.blk i 0x24) e.bit
    = false ∧ wbit (rget s e.blk i 0x30) 31 = true ∧ ((e.blk ≠ .car ∧ e.blk ≠ .pce) ∨ (s.evq.length < 64 ∧ wbit (rget
    s e.blk i 0x44) 0 = false)) ∧ fld (rget s e.blk i 0x34) 15 0 = 0xFFFF) := by
  refine ⟨?_, ?_, ?_, ?_, ?_, ?_⟩
  · refine ⟨eSqStepInvalid, 0, ?_, ?_⟩ <;>
      decide +kernel
  · refine ⟨sErrorsRecorded1, eSqStepInvalid, 1151, 48, ?_, ?_, ?_, ?_⟩ <;>
      decide +kernel
  · refine ⟨State.reset, eSqStepInvalid, 1151, ?_, ?_, ?_, ?_⟩ <;>
      decide +kernel
  · refine ⟨sErrorsRecorded2, eSqStepInvalid, 1151, ?_, ?_, ?_, ?_⟩ <;>
      decide +kernel
  · refine ⟨sErrorsRecorded2, eSqStepInvalid, 1151, ?_, ?_, ?_, ?_, ?_, ?_⟩ <;>
      decide +kernel
  · refine ⟨sErrorsRecorded3, eSqStepInvalid, 1151, ?_, ?_, ?_, ?_, ?_, ?_⟩ <;>
      decide +kernel

/-- A state of the witnesses of `SqCommands`. -/
def sSqCommands0 : State :=
  withSlot (fun sl => { sl with st := .active })

/-- A state of the witnesses of `SqCommands`. -/
def sSqCommands2 : State :=
  withSlot (fun sl => { sl with st := .faulted })

/-- A state of the witnesses of `SqCommands`. -/
def sSqCommands3 : State :=
  withSlot (fun sl => { sl with st := .halted })

/-- A state of the witnesses of `SqCommands`. -/
def sSqCommands5 : State :=
  rset (withSlot (fun sl => { sl with st := .active })) .dbg 0 0x110 2

/-- A state of the witnesses of `SqCommands`. -/
def sSqCommands7 : State :=
  rset (withSlot (fun sl => { sl with st := .faulted })) .dbg 0 0x110 2

/-- A state of the witnesses of `SqCommands`. -/
def sSqCommands8 : State :=
  rset (withSlot (fun sl => { sl with st := .halted })) .dbg 0 0x110 2

/-- A state of the witnesses of `SqCommands`. -/
def sSqCommands12 : State :=
  modCluster (modCore State.reset 1151 id) 63 (fun c => { c with retired := 0x3FFFF, clusterRetired := true })

/-- A state of the witnesses of `SqCommands`. -/
def sSqCommands13 : State :=
  modCore State.reset 1151 (fun c => { c with busy := true })

/-- A state of the witnesses of `SqCommands`. -/
def sSqCommands15 : State :=
  withSlot (fun sl => { sl with ending := some ⟨3, 0, 3, false, 0⟩ })

/-- A state of the witnesses of `SqCommands`. -/
def sSqCommands16 : State :=
  { power := { moving := some 0 } }

theorem wit_SqCommands :
    (∃ (s : State), ∃ (req : Req), ∃ (n k : Nat), SqTakes s req n k ∧ ((slot s n k).st = .active ∨ (slot s n k).st =
    .waiting ∨ (slot s n k).st = .faulted)) ∧
    (∃ (s : State), ∃ (req : Req), ∃ (n k : Nat), SqTakes s req n k ∧ (slot s n k).st = .faulted) ∧
    (∃ (s : State), ∃ (req : Req), ∃ (n k : Nat), SqTakes s req n k ∧ 2 ≤ debugLevel s (partOfCore s n) ∧
    s.power.moving = none ∧ ((slot s n k).st = .active ∨ (slot s n k).st = .waiting)) ∧
    (∃ (s : State), ∃ (req : Req), ∃ (n k : Nat), SqTakes s req n k ∧ (slot s n k).st = .halted ∧ ((slot s n k).prior =
    .active ∨ (slot s n k).prior = .waiting)) ∧
    (∃ (s : State), ∃ (req : Req), ∃ (n k : Nat), SqTakes s req n k ∧ 2 ≤ debugLevel s (partOfCore s n) ∧ (slot s n
    k).st = .halted ∧ stepLeft (slot s n k) = true) ∧
    (∃ (s : State), ∃ (req : Req), ∃ (n k op : Nat), SqTakes s req n k ∧ (op % 16 = 0 ∨ 6 < op % 16)) ∧
    (∃ (s : State), ∃ (req : Req), ∃ (n : Nat), ∃ c, n < 1152 ∧ answered s req = true ∧ pageOpen s req (page .sq n) =
    true ∧ c ∈ [Instr.sqInstall, .sqPreempt, .sqResume, .sqHalt, .sqUnhalt, .sqStep] ∧ (pageRetired s .sq n = true ∨
    pageDark s .sq = true ∨ pageInReset s .sq n = true)) ∧
    (∃ (s : State), ∃ (req : Req), ∃ (n : Nat), ∃ c, n < 1152 ∧ answered s req = true ∧ pageOpen s req (page .sq n) =
    true ∧ c ∈ [Instr.sqInstall, .sqPreempt, .sqResume, .sqHalt, .sqUnhalt, .sqStep] ∧ pageDark s .sq = false ∧
    pageRetired s .sq n = false ∧ pageInReset s .sq n = false ∧ (core s n).busy = true) ∧
    (∃ (s : State), ∃ (req : Req), ∃ (n k : Nat), ∃ c, n < 1152 ∧ answered s req = true ∧ pageOpen s req (page .sq n) =
    true ∧ c ∈ [Instr.sqInstall, .sqPreempt, .sqResume, .sqHalt, .sqUnhalt, .sqStep] ∧ SqHears s req n ∧ k < 16 ∧
    frozen s = true) ∧
    (∃ (s : State), ∃ (req : Req), ∃ (n k : Nat), ∃ c, n < 1152 ∧ answered s req = true ∧ pageOpen s req (page .sq n) =
    true ∧ c ∈ [Instr.sqInstall, .sqPreempt, .sqResume, .sqHalt, .sqUnhalt, .sqStep] ∧ SqHears s req n ∧ k < 16 ∧
    frozen s = false ∧ (slot s n k).ending.isSome) ∧
    (∃ (s : State), ∃ (req : Req), ∃ (n k : Nat), ∃ c, SqTakes s req n k ∧ (slot s n k).st = .free ∧ c ∈
    [Instr.sqPreempt, .sqUnhalt]) ∧
    (∃ (s : State), ∃ (req : Req), ∃ (n k : Nat), SqTakes s req n k ∧ ((slot s n k).st = .preempting ∨ (slot s n k).st
    = .halted)) ∧
    (∃ (s : State), ∃ (req : Req), ∃ (n k : Nat), SqTakes s req n k ∧ (slot s n k).st ≠ .faulted) ∧
    (∃ (s : State), ∃ (req : Req), ∃ (n k : Nat), SqTakes s req n k ∧ (slot s n k).st ≠ .free ∧ (slot s n k).st ≠
    .halted) ∧
    (∃ (s : State), ∃ (req : Req), ∃ (n k : Nat), ∃ c, SqTakes s req n k ∧ debugLevel s (partOfCore s n) < 2 ∧ c ∈
    [Instr.sqHalt, .sqStep]) ∧
    (∃ (s : State), ∃ (req : Req), ∃ (n k : Nat), SqTakes s req n k ∧ s.power.moving.isSome) ∧
    (∃ (s : State), ∃ (req : Req), ∃ (n k : Nat), ∃ c, SqTakes s req n k ∧ 2 ≤ debugLevel s (partOfCore s n) ∧
    s.power.moving = none ∧ (slot s n k).st = .free ∧ c ∈ [Instr.sqHalt, .sqStep]) ∧
    (∃ (s : State), ∃ (req : Req), ∃ (n k : Nat), SqTakes s req n k ∧ 2 ≤ debugLevel s (partOfCore s n) ∧
    s.power.moving = none ∧ ((slot s n k).st = .faulted ∨ (slot s n k).st = .preempting ∨ (slot s n k).st = .halted)) ∧
    (∃ (s : State), ∃ (req : Req), ∃ (n k : Nat), SqTakes s req n k ∧ 2 ≤ debugLevel s (partOfCore s n) ∧ (slot s n
    k).st ≠ .free ∧ ((slot s n k).st ≠ .halted ∨ stepLeft (slot s n k) = false)) := by
  refine ⟨?_, ?_, ?_, ?_, ?_, ?_, ?_, ?_, ?_, ?_, ?_, ?_, ?_, ?_, ?_, ?_, ?_, ?_, ?_⟩
  · refine ⟨sSqCommands0, Req.car, 1151, 15, ⟨⟨?_, ?_, ?_, ?_, ?_, ?_, ?_, ?_⟩, ?_, ?_, ?_⟩, ?_⟩ <;>
      decide +kernel
  · refine ⟨sSqCommands2, Req.car, 1151, 15, ⟨⟨?_, ?_, ?_, ?_, ?_, ?_, ?_, ?_⟩, ?_, ?_, ?_⟩, ?_⟩ <;>
      decide +kernel
  · refine ⟨sSqCommands5, Req.car, 1151, 15, ⟨⟨?_, ?_, ?_, ?_, ?_, ?_, ?_, ?_⟩, ?_, ?_, ?_⟩, ?_, ?_, ?_⟩ <;>
      decide +kernel
  · refine ⟨sSqCommands3, Req.car, 1151, 15, ⟨⟨?_, ?_, ?_, ?_, ?_, ?_, ?_, ?_⟩, ?_, ?_, ?_⟩, ?_, ?_⟩ <;>
      decide +kernel
  · refine ⟨sSqCommands8, Req.car, 1151, 15, ⟨⟨?_, ?_, ?_, ?_, ?_, ?_, ?_, ?_⟩, ?_, ?_, ?_⟩, ?_, ?_, ?_⟩ <;>
      decide +kernel
  · refine ⟨sSqCommands0, Req.car, 1151, 15, 1151, ⟨⟨?_, ?_, ?_, ?_, ?_, ?_, ?_, ?_⟩, ?_, ?_, ?_⟩, ?_⟩ <;>
      decide +kernel
  · refine ⟨sSqCommands12, Req.car, 1151, Instr.sqInstall, ?_, ?_, ?_, List.mem_cons_self, ?_⟩ <;>
      decide +kernel
  · refine ⟨sSqCommands13, Req.car, 1151, Instr.sqInstall, ?_, ?_, ?_, List.mem_cons_self, ?_, ?_, ?_, ?_⟩ <;>
      decide +kernel
  · refine ⟨rset State.reset .sec 0 0x110 2, Req.car, 1151, 15, Instr.sqInstall, ?_, ?_, ?_, List.mem_cons_self, ⟨?_, ?_, ?_,
    ?_, ?_, ?_, ?_, ?_⟩, ?_, ?_⟩ <;>
      decide +kernel
  · refine ⟨sSqCommands15, Req.car, 1151, 15, Instr.sqInstall, ?_, ?_, ?_, List.mem_cons_self, ⟨?_, ?_, ?_, ?_, ?_, ?_, ?_,
    ?_⟩, ?_, ?_, ?_⟩ <;>
      decide +kernel
  · refine ⟨sSqCommands0, Req.car, 1151, 0, Instr.sqPreempt, ⟨⟨?_, ?_, ?_, ?_, ?_, ?_, ?_, ?_⟩, ?_, ?_, ?_⟩, ?_,
    List.mem_cons_self⟩ <;>
      decide +kernel
  · refine ⟨sSqCommands3, Req.car, 1151, 15, ⟨⟨?_, ?_, ?_, ?_, ?_, ?_, ?_, ?_⟩, ?_, ?_, ?_⟩, ?_⟩ <;>
      decide +kernel
  · refine ⟨sSqCommands0, Req.car, 1151, 15, ⟨⟨?_, ?_, ?_, ?_, ?_, ?_, ?_, ?_⟩, ?_, ?_, ?_⟩, ?_⟩ <;>
      decide +kernel
  · refine ⟨sSqCommands0, Req.car, 1151, 15, ⟨⟨?_, ?_, ?_, ?_, ?_, ?_, ?_, ?_⟩, ?_, ?_, ?_⟩, ?_, ?_⟩ <;>
      decide +kernel
  · refine ⟨sSqCommands0, Req.car, 1151, 15, Instr.sqHalt, ⟨⟨?_, ?_, ?_, ?_, ?_, ?_, ?_, ?_⟩, ?_, ?_, ?_⟩, ?_,
    List.mem_cons_self⟩ <;>
      decide +kernel
  · refine ⟨sSqCommands16, Req.car, 1151, 15, ⟨⟨?_, ?_, ?_, ?_, ?_, ?_, ?_, ?_⟩, ?_, ?_, ?_⟩, ?_⟩ <;>
      decide +kernel
  · refine ⟨sSqCommands5, Req.car, 1151, 0, Instr.sqHalt, ⟨⟨?_, ?_, ?_, ?_, ?_, ?_, ?_, ?_⟩, ?_, ?_, ?_⟩, ?_, ?_, ?_,
    List.mem_cons_self⟩ <;>
      decide +kernel
  · refine ⟨sSqCommands7, Req.car, 1151, 15, ⟨⟨?_, ?_, ?_, ?_, ?_, ?_, ?_, ?_⟩, ?_, ?_, ?_⟩, ?_, ?_, ?_⟩ <;>
      decide +kernel
  · refine ⟨sSqCommands5, Req.car, 1151, 15, ⟨⟨?_, ?_, ?_, ?_, ?_, ?_, ?_, ?_⟩, ?_, ?_, ?_⟩, ?_, ?_, ?_⟩ <;>
      decide +kernel

/-- A state of the witnesses of `SqInstalls`. -/
def sSqInstalls1 : State :=
  rset (rset State.reset .mmu 63 0x800 1) .sq 1151 0x7C8 0x200000

/-- A state of the witnesses of `SqInstalls`. -/
def sSqInstalls3 : State :=
  modCore State.reset 1151 (fun c => { c with orphans := [⟨15, 0, 0, 0⟩] })

/-- A state of the witnesses of `SqInstalls`. -/
def sSqInstalls4 : State :=
  modCore (rset State.reset .mmu 63 0x800 1) 1151 (fun c => { c with deferred := some 15 })

/-- A state of the witnesses of `SqInstalls`. -/
def sSqInstalls5 : State :=
  modCore (rset (rset State.reset .mmu 63 0x800 1) .sq 1151 0x7C8 0x200000) 1151 (fun c =>
  { c with deferred := some 15 })

/-- A state of the witnesses of `SqInstalls`. -/
def sSqInstalls6 : State :=
  modCore State.reset 1151 (fun c => { c with deferred := some 15 })

/-- A state of the witnesses of `SqInstalls`. -/
def sSqInstalls7 : State :=
  mapped (active (fun sl => { sl with loaded := true, hdr := slice image 0 256, secs := [(1, 1, 0x140, 64)] }))

/-- A state of the witnesses of `SqInstalls`. -/
def sSqInstalls8 : State :=
  mapped { active (fun sl => { sl with rud := 0x10000 }) with mem := imageMem }

/-- A state of the witnesses of `SqInstalls`. -/
def sSqInstalls12 : State :=
  mapped { active (fun sl => { sl with rud := 0x10000, restored := true }) with mem := imageMem }

/-- A state of the witnesses of `SqInstalls`. -/
def sSqInstalls14 : State :=
  { mapped (active (fun sl => { sl with hdr := slice image 0 256, rud := 0x10000, secs := [(1, 1, 0x140, 64), (7, 1, 0x180, 8)], blocks := [0] })) with mem := memWrite [] 0x10180 [0xFF, 0xFF] }

def vSqInstalls0 : State :=
  (imageRead (active id) 0 (⟨0, .none⟩ : Reader).no 0 0x100 (⟨0, .none⟩ : Reader).ecc).1

def vSqInstalls1 : State :=
  (imageRead (mapped (active id)) 0 (⟨0, .none⟩ : Reader).no 0 0x100 (⟨0, .none⟩ : Reader).ecc).1

def vSqInstalls2 : List Byte :=
  (Option.get ((imageRead (mapped (active id)) 0 (⟨0, .none⟩ : Reader).no 0 0x100 (⟨0, .none⟩ : Reader).ecc).2)
  (by decide +kernel))

def vSqInstalls3 : State :=
  (imageRead vSqInstalls1 0 (⟨0, .none⟩ : Reader).no 0x100 (16 * min 16 (leAt vSqInstalls2 0x0A 2)) (imageLeft
  vSqInstalls1 0 (⟨0, .none⟩ : Reader).no 0 0x100 (⟨0, .none⟩ : Reader).ecc)).1

def vSqInstalls4 : State :=
  (imageRead sSqInstalls8 0 (⟨0, .none⟩ : Reader).no 0 0x100 (⟨0, .none⟩ : Reader).ecc).1

def vSqInstalls5 : List Byte :=
  (Option.get ((imageRead sSqInstalls8 0 (⟨0, .none⟩ : Reader).no 0 0x100 (⟨0, .none⟩ : Reader).ecc).2)
  (by decide +kernel))

def vSqInstalls6 : State :=
  (imageRead vSqInstalls4 0 (⟨0, .none⟩ : Reader).no 0x100 (16 * min 16 (leAt vSqInstalls5 0x0A 2)) (imageLeft
  vSqInstalls4 0 (⟨0, .none⟩ : Reader).no 0 0x100 (⟨0, .none⟩ : Reader).ecc)).1

def vSqInstalls7 : State :=
  (imageRead sSqInstalls12 0 (⟨0, .none⟩ : Reader).no 0 0x100 (⟨0, .none⟩ : Reader).ecc).1

def vSqInstalls8 : List Byte :=
  (Option.get ((imageRead sSqInstalls12 0 (⟨0, .none⟩ : Reader).no 0 0x100 (⟨0, .none⟩ : Reader).ecc).2)
  (by decide +kernel))

def vSqInstalls9 : State :=
  (imageRead vSqInstalls7 0 (⟨0, .none⟩ : Reader).no 0x100 (16 * min 16 (leAt vSqInstalls8 0x0A 2)) (imageLeft
  vSqInstalls7 0 (⟨0, .none⟩ : Reader).no 0 0x100 (⟨0, .none⟩ : Reader).ecc)).1

def vSqInstalls10 : State :=
  (imageRead (rset State.reset .mmu 63 0x800 1) 1151 1151 (secOff (slot (rset State.reset .mmu 63 0x800 1) 1151 1151)
  8) (if (leAt (slice image 0 256) 0x24 4) = 0 then 0 else 16) Ecc.none).1

def vSqInstalls11 : State :=
  (presenceCheck vSqInstalls10 1151 1151 (imageLeft vSqInstalls10 1151 1151 (secOff (slot (rset State.reset .mmu 63
  0x800 1) 1151 1151) 8) (if (leAt (slice image 0 256) 0x24 4) = 0 then 0 else 16) Ecc.none)).1

def vSqInstalls12 : State :=
  (imageRead sSqInstalls14 0 0 (secOff (slot sSqInstalls14 0 0) 8) (if (leAt (slice image 0 256) 0x24 4) = 0 then 0
  else 16) Ecc.none).1

def vSqInstalls13 : State :=
  (presenceCheck vSqInstalls12 0 0 (imageLeft vSqInstalls12 0 0 (secOff (slot sSqInstalls14 0 0) 8) (if (leAt (slice
  image 0 256) 0x24 4) = 0 then 0 else 16) Ecc.none)).1

def vSqInstalls14 : State :=
  (imageRead vSqInstalls13 0 0 (secOff (slot sSqInstalls14 0 0) 7) (8 * secCount (slot sSqInstalls14 0 0) 7) (eccAfter
  (imageLeft vSqInstalls12 0 0 (secOff (slot sSqInstalls14 0 0) 8) (if (leAt (slice image 0 256) 0x24 4) = 0 then 0
  else 16) Ecc.none) (presenceReads (slot sSqInstalls14 0 0)))).1

def vSqInstalls15 : State :=
  (imageRead sSqInstalls7 0 0 (secOff (slot sSqInstalls7 0 0) 8) (if (leAt (slice image 0 256) 0x24 4) = 0 then 0 else
  16) Ecc.none).1

def vSqInstalls16 : State :=
  (presenceCheck vSqInstalls15 0 0 (imageLeft vSqInstalls15 0 0 (secOff (slot sSqInstalls7 0 0) 8) (if (leAt (slice
  image 0 256) 0x24 4) = 0 then 0 else 16) Ecc.none)).1

def vSqInstalls17 : State :=
  (imageRead vSqInstalls16 0 0 (secOff (slot sSqInstalls7 0 0) 7) (8 * secCount (slot sSqInstalls7 0 0) 7) (eccAfter
  (imageLeft vSqInstalls15 0 0 (secOff (slot sSqInstalls7 0 0) 8) (if (leAt (slice image 0 256) 0x24 4) = 0 then 0
  else 16) Ecc.none) (presenceReads (slot sSqInstalls7 0 0)))).1

def vSqInstalls18 : State :=
  (imageRead sSqInstalls7 0 (⟨0, .none⟩ : Reader).no (secOff (slot sSqInstalls7 0 (⟨0, .none⟩ : Reader).no) 1 + 64 *
  prefetchIndex (slot sSqInstalls7 0 (⟨0, .none⟩ : Reader).no)) 64 (⟨0, .none⟩ : Reader).ecc).1

def vSqInstalls19 : List Byte :=
  (Option.get ((imageRead sSqInstalls7 0 (⟨0, .none⟩ : Reader).no (secOff (slot sSqInstalls7 0 (⟨0, .none⟩ :
  Reader).no) 1 + 64 * prefetchIndex (slot sSqInstalls7 0 (⟨0, .none⟩ : Reader).no)) 64 (⟨0, .none⟩ : Reader).ecc).2)
  (by decide +kernel))

def vSqInstalls20 : State :=
  (progRead vSqInstalls18 0 (⟨0, .none⟩ : Reader).no (stWaitFirst vSqInstalls19) (stWaitLen vSqInstalls19) (eccAfter
  (⟨0, .none⟩ : Reader).ecc 1)).1

def vSqInstalls21 : List Byte :=
  (Option.get ((progRead vSqInstalls18 0 (⟨0, .none⟩ : Reader).no (stWaitFirst vSqInstalls19) (stWaitLen
  vSqInstalls19) (eccAfter (⟨0, .none⟩ : Reader).ecc 1)).2) (by decide +kernel))

def vSqInstalls22 : State :=
  (progRead vSqInstalls20 0 (⟨0, .none⟩ : Reader).no (stSignalFirst vSqInstalls19) (stSignalLen vSqInstalls19)
  (progLeft vSqInstalls20 0 (⟨0, .none⟩ : Reader).no (stWaitFirst vSqInstalls19) (stWaitLen vSqInstalls19) (eccAfter
  (⟨0, .none⟩ : Reader).ecc 1))).1

def vSqInstalls23 : List Byte :=
  (Option.get ((progRead vSqInstalls20 0 (⟨0, .none⟩ : Reader).no (stSignalFirst vSqInstalls19) (stSignalLen
  vSqInstalls19) (progLeft vSqInstalls20 0 (⟨0, .none⟩ : Reader).no (stWaitFirst vSqInstalls19) (stWaitLen
  vSqInstalls19) (eccAfter (⟨0, .none⟩ : Reader).ecc 1))).2) (by decide +kernel))

theorem wit_SqInstalls :
    (∃ (s : State), ∃ (req : Req), ∃ (n k : Nat), SqTakes s req n k ∧ (core s n).orphans.any (fun o => o.slot = k) =
    false ∧ installCheck s n k = resOk ∧ wbit (slotReg s n k 0x408) 21 = false) ∧
    (∃ (s : State), ∃ (req : Req), ∃ (n k : Nat), SqTakes s req n k ∧ (core s n).orphans.any (fun o => o.slot = k) =
    false ∧ installCheck s n k = resOk ∧ wbit (slotReg s n k 0x408) 21 = true) ∧
    (∃ (s : State), ∃ (req : Req), ∃ (n k : Nat), SqTakes s req n k ∧ (core s n).orphans.any (fun o => o.slot = k) =
    false ∧ installCheck s n k ≠ resOk) ∧
    (∃ (s : State), ∃ (req : Req), ∃ (n k : Nat), SqTakes s req n k ∧ (core s n).orphans.any (fun o => o.slot = k) =
    true) ∧
    (∃ (s : State), ∃ (n k : Nat), n < 1152 ∧ k < 16 ∧ (core s n).deferred = some k ∧ (core s n).ringCmd = none ∧ (core
    s n).orphans.any (fun o => o.slot = k) = false ∧ installCheck s n k = resOk ∧ wbit (slotReg s n k 0x408) 21 =
    false) ∧
    (∃ (s : State), ∃ (n k : Nat), n < 1152 ∧ k < 16 ∧ (core s n).deferred = some k ∧ (core s n).ringCmd = none ∧ (core
    s n).orphans.any (fun o => o.slot = k) = false ∧ installCheck s n k = resOk ∧ wbit (slotReg s n k 0x408) 21 = true) ∧
    (∃ (s : State), ∃ (n k : Nat), n < 1152 ∧ k < 16 ∧ (core s n).deferred = some k ∧ (core s n).ringCmd = none ∧ (core
    s n).orphans.any (fun o => o.slot = k) = false ∧ installCheck s n k ≠ resOk) ∧
    (∃ (s : State), ∃ (n : Nat), (∀ k, (core s n).deferred = some k → (core s n).orphans.any (fun o => o.slot = k) =
    true)) ∧
    (∃ (s : State), ∃ (n : Nat), ∃ (rd : Reader), (slot s n rd.no).loaded = true) ∧
    (∃ (s s1 : State), ∃ (n : Nat), ∃ (rd : Reader), (slot s n rd.no).loaded = false ∧ (slot s n rd.no).ending = none ∧
    (slot s n rd.no).st = .active ∧ (slot s1 n rd.no).loaded = false ∧ imageRead s n rd.no 0 0x100 rd.ecc = (s1, none)) ∧
    (∃ (s s1 s2 : State), ∃ (n : Nat), ∃ (rd : Reader), ∃ (h tb : List Byte), (slot s n rd.no).loaded = false ∧ (slot s
    n rd.no).ending = none ∧ (slot s n rd.no).st = .active ∧ imageRead s n rd.no 0 0x100 rd.ecc = (s1, some h) ∧
    imageRead s1 n rd.no 0x100 (16 * min 16 (leAt h 0x0A 2)) (imageLeft s1 n rd.no 0 0x100 rd.ecc) = (s2, some tb) ∧
    (slot s2 n rd.no).loaded = false ∧ tableCheck s2 h tb ≠ 0) ∧
    (∃ (s s1 s2 : State), ∃ (n : Nat), ∃ (rd : Reader), ∃ (h tb : List Byte), (slot s n rd.no).loaded = false ∧ (slot s
    n rd.no).ending = none ∧ (slot s n rd.no).st = .active ∧ imageRead s n rd.no 0 0x100 rd.ecc = (s1, some h) ∧
    imageRead s1 n rd.no 0x100 (16 * min 16 (leAt h 0x0A 2)) (imageLeft s1 n rd.no 0 0x100 rd.ecc) = (s2, some tb) ∧
    (slot s2 n rd.no).loaded = false ∧ tableCheck s2 h tb = 0 ∧
    let secs := (List.range (leAt h 0x0A 2)).map (fun i =>
      let x := secEntry tb i; (x.1, x.2.2.1, x.2.2.2.1, x.2.2.2.2));
        let u := loadRest (modSlot s2 n rd.no (fun sl => { sl with hdr := h, secs := secs })) n rd.no h (imageLeft s2
          n rd.no 0x100 (16 * min 16 (leAt h 0x0A 2)) (imageLeft s1 n rd.no 0 0x100 rd.ecc)); ((slot u n rd.no).loaded
          = false ∨ (slot u n rd.no).restored = false)) ∧
    (∃ (s s1 s2 : State), ∃ (n : Nat), ∃ (rd : Reader), ∃ (h tb : List Byte), ∃ w, (slot s n rd.no).loaded = false ∧
    (slot s n rd.no).ending = none ∧ (slot s n rd.no).st = .active ∧ imageRead s n rd.no 0 0x100 rd.ecc = (s1, some h)
    ∧ imageRead s1 n rd.no 0x100 (16 * min 16 (leAt h 0x0A 2)) (imageLeft s1 n rd.no 0 0x100 rd.ecc) = (s2, some tb) ∧
    (slot s2 n rd.no).loaded = false ∧ tableCheck s2 h tb = 0 ∧
    let secs := (List.range (leAt h 0x0A 2)).map (fun i =>
      let x := secEntry tb i; (x.1, x.2.2.1, x.2.2.2.1, x.2.2.2.2));
        let u := loadRest (modSlot s2 n rd.no (fun sl => { sl with hdr := h, secs := secs })) n rd.no h (imageLeft s2
          n rd.no 0x100 (16 * min 16 (leAt h 0x0A 2)) (imageLeft s1 n rd.no 0 0x100 rd.ecc)); (slot u n rd.no).loaded
          = true ∧ (slot u n rd.no).restored = true ∧ restoreSteps u n rd.no = (w, true)) ∧
    (∃ (s s1 s2 : State), ∃ (n k : Nat), ∃ (h rb : List Byte), ∃ (ecc : Ecc),
    let sl := slot s n k;
      let roll := leAt h 0x24 4;
        let rlen := if roll = 0 then 0 else 16;
          let left := imageLeft s1 n k (secOff sl 8) rlen ecc; imageRead s n k (secOff sl 8) rlen ecc = (s1, some rb)
            ∧ (roll ≠ 0 → (section_ sl 8).2.2 = 16 + popcount16 (leAt rb 4 2) * leAt rb 6 1 * 512) ∧ presenceCheck s1
            n k left = (s2, some true) ∧ requestCheck s2 n k h rb (loadedSet s2 (partOfCore s2 n)) ≠ 0) ∧
    (∃ (s s1 s2 s3 : State), ∃ (n k : Nat), ∃ (h rb ib : List Byte), ∃ (ecc : Ecc),
    let sl := slot s n k;
      let roll := leAt h 0x24 4;
        let rlen := if roll = 0 then 0 else 16;
          let left := imageLeft s1 n k (secOff sl 8) rlen ecc; imageRead s n k (secOff sl 8) rlen ecc = (s1, some rb)
            ∧ (roll ≠ 0 → (section_ sl 8).2.2 = 16 + popcount16 (leAt rb 4 2) * leAt rb 6 1 * 512) ∧ presenceCheck s1
            n k left = (s2, some true) ∧ requestCheck s2 n k h rb (loadedSet s2 (partOfCore s2 n)) = 0 ∧ imageRead s2
            n k (secOff sl 7) (8 * secCount sl 7) (eccAfter left (presenceReads sl)) = (s3, some ib) ∧ syncInitOk (64
            * (slot s3 n k).blocks.length) ib (secCount (slot s3 n k) 7) = false) ∧
    (∃ (s s1 s2 s3 : State), ∃ (n k : Nat), ∃ (h rb ib : List Byte), ∃ (ecc : Ecc),
    let sl := slot s n k;
      let roll := leAt h 0x24 4;
        let rlen := if roll = 0 then 0 else 16;
          let left := imageLeft s1 n k (secOff sl 8) rlen ecc; imageRead s n k (secOff sl 8) rlen ecc = (s1, some rb)
            ∧ (roll ≠ 0 → (section_ sl 8).2.2 = 16 + popcount16 (leAt rb 4 2) * leAt rb 6 1 * 512) ∧ presenceCheck s1
            n k left = (s2, some true) ∧ requestCheck s2 n k h rb (loadedSet s2 (partOfCore s2 n)) = 0 ∧ imageRead s2
            n k (secOff sl 7) (8 * secCount sl 7) (eccAfter left (presenceReads sl)) = (s3, some ib) ∧ syncInitOk (64
            * (slot s3 n k).blocks.length) ib (secCount (slot s3 n k) 7) = true) ∧
    (∃ (s s1 s2 s3 : State), ∃ (n : Nat), ∃ (rd : Reader), ∃ (r w g : List Byte), running s n rd.no = true ∧ (slot s n
    rd.no).loaded = true ∧ prefetchIndex (slot s n rd.no) < hdStepCount (slot s n rd.no) ∧ bufStep (slot s n rd.no)
    (prefetchIndex (slot s n rd.no)) = none ∧ imageRead s n rd.no (secOff (slot s n rd.no) 1 + 64 * prefetchIndex
    (slot s n rd.no)) 64 rd.ecc = (s1, some r) ∧ progRead s1 n rd.no (stWaitFirst r) (stWaitLen r) (eccAfter rd.ecc 1)
    = (s2, some w) ∧ progRead s2 n rd.no (stSignalFirst r) (stSignalLen r) (progLeft s2 n rd.no (stWaitFirst r)
    (stWaitLen r) (eccAfter rd.ecc 1)) = (s3, some g)) ∧
    (∃ (s : State), ∃ (n : Nat), ∃ (rd : Reader), (running s n rd.no = false ∨ (slot s n rd.no).loaded = false ∨
    hdStepCount (slot s n rd.no) ≤ prefetchIndex (slot s n rd.no))) := by
  refine ⟨?_, ?_, ?_, ?_, ?_, ?_, ?_, ?_, ?_, ?_, ?_, ?_, ?_, ?_, ?_, ?_, ?_, ?_⟩
  · refine ⟨rset State.reset .mmu 63 0x800 1, Req.car, 1151, 15, ⟨⟨?_, ?_, ?_, ?_, ?_, ?_, ?_, ?_⟩, ?_, ?_, ?_⟩, ?_, ?_, ?_⟩ <;>
      decide +kernel
  · refine ⟨sSqInstalls1, Req.car, 1151, 15, ⟨⟨?_, ?_, ?_, ?_, ?_, ?_, ?_, ?_⟩, ?_, ?_, ?_⟩, ?_, ?_, ?_⟩ <;>
      decide +kernel
  · refine ⟨rset State.reset .mmu 63 0x800 1, Req.car, 15, 15, ⟨⟨?_, ?_, ?_, ?_, ?_, ?_, ?_, ?_⟩, ?_, ?_, ?_⟩, ?_, ?_⟩ <;>
      decide +kernel
  · refine ⟨sSqInstalls3, Req.car, 1151, 15, ⟨⟨?_, ?_, ?_, ?_, ?_, ?_, ?_, ?_⟩, ?_, ?_, ?_⟩, ?_⟩ <;>
      decide +kernel
  · refine ⟨sSqInstalls4, 1151, 15, ?_, ?_, ?_, ?_, ?_, ?_, ?_⟩ <;>
      decide +kernel
  · refine ⟨sSqInstalls5, 1151, 15, ?_, ?_, ?_, ?_, ?_, ?_, ?_⟩ <;>
      decide +kernel
  · refine ⟨sSqInstalls6, 1151, 15, ?_, ?_, ?_, ?_, ?_, ?_⟩ <;>
      decide +kernel
  · exact ⟨rset State.reset .mmu 63 0x800 1, 1151, (opt_all (by decide +kernel))⟩
  · refine ⟨sSqInstalls7, 0, (⟨0, .none⟩ : Reader), ?_⟩ <;>
      decide +kernel
  · refine ⟨active id, vSqInstalls0, 0, (⟨0, .none⟩ : Reader), ?_, ?_, ?_, ?_, ?_⟩ <;>
      decide +kernel
  · refine ⟨mapped (active id), vSqInstalls1, vSqInstalls3, 0, (⟨0, .none⟩ : Reader), vSqInstalls2, [], ?_, ?_, ?_, ?_, ?_,
    ?_, ?_⟩ <;>
      decide +kernel
  · refine ⟨sSqInstalls8, vSqInstalls4, vSqInstalls6, 0, (⟨0, .none⟩ : Reader), vSqInstalls5, [1, 0, 0, 0, 1, 0, 0, 0, 64, 1,
    0, 0, 64, 0, 0, 0], ?_, ?_, ?_, ?_, ?_, ?_, ?_, ?_⟩ <;>
      decide +kernel
  · refine ⟨sSqInstalls12, vSqInstalls7, vSqInstalls9, 0, (⟨0, .none⟩ : Reader), vSqInstalls8, [1, 0, 0, 0, 1, 0, 0, 0, 64,
    1, 0, 0, 64, 0, 0, 0], (restoreSteps (loadRest (modSlot vSqInstalls9 0 (⟨0, .none⟩ : Reader).no (fun sl =>
    { sl with hdr := vSqInstalls8, secs := ((List.range (leAt vSqInstalls8 0x0A 2)).map (fun i => let x := secEntry [1, 0, 0, 0, 1, 0, 0, 0, 64, 1, 0, 0, 64, 0, 0, 0] i; (x.1, x.2.2.1, x.2.2.2.1, x.2.2.2.2))) }))
    0 (⟨0, .none⟩ : Reader).no vSqInstalls8 (imageLeft vSqInstalls9 0 (⟨0, .none⟩ : Reader).no 0x100 (16 * min 16
    (leAt vSqInstalls8 0x0A 2)) (imageLeft vSqInstalls7 0 (⟨0, .none⟩ : Reader).no 0 0x100 (⟨0, .none⟩ :
    Reader).ecc))) 0 (⟨0, .none⟩ : Reader).no).1, ?_, ?_, ?_, ?_, ?_, ?_, ?_, ?_, ?_, ?_⟩ <;>
      decide +kernel
  · refine ⟨rset State.reset .mmu 63 0x800 1, vSqInstalls10, vSqInstalls11, 1151, 1151, slice image 0 256, [], Ecc.none, ?_,
    ?_, ?_, ?_⟩ <;>
      decide +kernel
  · refine ⟨sSqInstalls14, vSqInstalls12, vSqInstalls13, vSqInstalls14, 0, 0, slice image 0 256, [], [255, 255, 0, 0, 0, 0,
    0, 0], Ecc.none, ?_, ?_, ?_, ?_, ?_, ?_⟩ <;>
      decide +kernel
  · refine ⟨sSqInstalls7, vSqInstalls15, vSqInstalls16, vSqInstalls17, 0, 0, slice image 0 256, [], [], Ecc.none, ?_, ?_, ?_,
    ?_, ?_, ?_⟩ <;>
      decide +kernel
  · refine ⟨sSqInstalls7, vSqInstalls18, vSqInstalls20, vSqInstalls22, 0, (⟨0, .none⟩ : Reader), vSqInstalls19,
    vSqInstalls21, vSqInstalls23, ?_, ?_, ?_, ?_, ?_, ?_, ?_⟩ <;>
      decide +kernel
  · refine ⟨rset State.reset .mmu 63 0x800 1, 1151, (⟨1151, .none⟩ : Reader), ?_⟩ <;>
      decide +kernel

/-- A state of the witnesses of `SqSteps`. -/
def sSqSteps0 : State :=
  rset (rset (rset (active (fun sl =>
  { sl with loaded := true, hdr := slice image 0 256, strands := [0], buf := [(0, (padTo (leBytes 2 2 ++ leBytes 0 6 ++ [0, 1] ++ leBytes 0 14 ++ [1] ++ leBytes 0 21 ++ [1, 0] ++ leBytes 0 4 ++ [1, 0, 1]) 192))], granted := true }))
  .sq 0 0x414 0x100) .sq 0 0x10 1) .ve 0 0x10 1

/-- A state of the witnesses of `SqSteps`. -/
def sSqSteps1 : State :=
  rset (rset (rset (active (fun sl =>
  { sl with loaded := true, hdr := slice image 0 256, strands := [0], buf := [(0, (padTo (leBytes 2 2 ++ leBytes 0 6 ++ [0, 1] ++ leBytes 0 14 ++ [1] ++ leBytes 0 21 ++ [1, 0] ++ leBytes 0 4 ++ [1, 0, 1]) 192))] }))
  .sq 0 0x414 0x100) .sq 0 0x10 1) .ve 0 0x10 1

/-- A state of the witnesses of `SqSteps`. -/
def sSqSteps3 : State :=
  rset (rset (rset (active (fun sl =>
  { sl with loaded := true, hdr := slice image 0 256, strands := [0], buf := [(0, padTo [0, 0x80] 192)] })) .sq 0
  0x414 0x100) .sq 0 0x10 1) .ve 0 0x10 1

/-- A state of the witnesses of `SqSteps`. -/
def sSqSteps4 : State :=
  rset (rset (rset (active (fun sl =>
  { sl with loaded := true, hdr := slice image 0 256, strands := [0], buf := [(0, padTo [0xFF, 0xFF, 1] 192)] })) .sq
  0 0x414 0x100) .sq 0 0x10 1) .ve 0 0x10 1

/-- A state of the witnesses of `SqSteps`. -/
def sSqSteps6 : State :=
  rset (rset (rset (active (fun sl =>
  { sl with loaded := true, hdr := slice image 0 256, strands := [0], buf := [(0, (padTo (leBytes 2 2 ++ leBytes 0 6 ++ [0, 1] ++ leBytes 0 14 ++ [1] ++ leBytes 0 21 ++ [1, 0] ++ leBytes 0 4 ++ [1, 0, 1]) 192))], inflight := List.replicate 4 { order := 9 }, granted := true }))
  .sq 0 0x414 0x100) .sq 0 0x10 1) .ve 0 0x10 1

/-- A state of the witnesses of `SqSteps`. -/
def sSqSteps8 : State :=
  rset (rset (rset (active (fun sl =>
  { sl with loaded := true, hdr := slice image 0 256, strands := [0], buf := [(0, padTo (leBytes 0 8 ++ [2, 1]) 192)] }))
  .sq 0 0x414 0x100) .sq 0 0x10 1) .ve 0 0x10 1

/-- A state of the witnesses of `SqSteps`. -/
def sSqSteps10 : State :=
  mapped (rset (rset (rset (active (fun sl =>
  { sl with loaded := true, granted := true, rud := 0x10000, hdr := slice image 0 256, streams := [255], secs := [(3, 1, 0x140, 8), (4, 1, 0x180, 64)], buf := [(0, (padTo (leBytes 4 2 ++ leBytes 0 6 ++ [0, 1] ++ leBytes 0 22 ++ [1] ++ leBytes 0 13 ++ [1, 0] ++ leBytes 0 4 ++ [1, 0, 0, 1]) 192))] }))
  .sq 0 0x414 0x100) .sq 0 0x10 1) .xe 0 0x10 1)

/-- A state of the witnesses of `SqSteps`. -/
def sSqSteps11 : State :=
  withSlot (fun sl => { sl with inflight := [{ order := 7, doneNo := 1 }] })

/-- A state of the witnesses of `SqSteps`. -/
def sSqSteps12 : State :=
  rset (rset (rset (active (fun sl =>
  { sl with loaded := true, hdr := slice image 0 256, strands := [0], buf := [(0, padTo (leBytes 8 2 ++ leBytes 0 2 ++ leBytes 1 4 ++ [0, 1] ++ leBytes 0 42 ++ [1]) 192)] }))
  .sq 0 0x414 0x100) .sq 0 0x10 1) .ve 0 0x10 1

def vSqSteps0 : List Byte :=
  (Option.get (bufStep (slot sSqSteps0 0 0) (slot sSqSteps0 0 0).pos) (by decide +kernel))

def vSqSteps1 : List Byte :=
  (Option.get (bufStep (slot sSqSteps4 0 0) (slot sSqSteps4 0 0).pos) (by decide +kernel))

def vSqSteps2 : List Byte :=
  (Option.get (bufStep (slot sSqSteps3 0 0) (slot sSqSteps3 0 0).pos) (by decide +kernel))

def vSqSteps3 : List Byte :=
  (Option.get (bufStep (slot sSqSteps8 0 0) (slot sSqSteps8 0 0).pos) (by decide +kernel))

def vSqSteps4 : List Byte :=
  (Option.get (bufStep (slot sSqSteps12 0 0) (slot sSqSteps12 0 0).pos) (by decide +kernel))

def vSqSteps5 : List Byte :=
  (Option.get (bufStep (slot sSqSteps6 0 0) (slot sSqSteps6 0 0).pos) (by decide +kernel))

def vSqSteps6 : List Byte :=
  (Option.get (bufStep (slot sSqSteps1 0 0) (slot sSqSteps1 0 0).pos) (by decide +kernel))

def vSqSteps7 : List Byte :=
  (Option.get (bufStep (slot sSqSteps10 0 0) (slot sSqSteps10 0 0).pos) (by decide +kernel))

def vSqSteps8 : State :=
  (imageRead sSqSteps10 0 0 (secOff (slot sSqSteps10 0 0) 3 + 8 * (stXeFirst vSqSteps7 + stVariant sSqSteps10 0 0
  (pushedLoops (slot sSqSteps10 0 0) vSqSteps7) vSqSteps7 * stXeStride vSqSteps7)) (8 * stXeCount vSqSteps7)
  Ecc.none).1

theorem wit_SqSteps :
    (∃ (s : State), ∃ (n k : Nat), (issuing s n k = false ∨ (slot s n k).loaded = false ∨ bufStep (slot s n k) (slot s
    n k).pos = none)) ∧
    (∃ (s : State), ∃ (n k : Nat), ∃ (r : List Byte), ∃ (ecc : Ecc), issuing s n k = true ∧ (slot s n k).loaded = true
    ∧ bufStep (slot s n k) (slot s n k).pos = some r ∧ ecc = .uncorr) ∧
    (∃ (s : State), ∃ (n k : Nat), ∃ (r : List Byte), ∃ (ecc : Ecc), issuing s n k = true ∧ (slot s n k).loaded = true
    ∧ bufStep (slot s n k) (slot s n k).pos = some r ∧ ecc ≠ .uncorr ∧ stepTaken s n r = false) ∧
    (∃ (s : State), ∃ (n k : Nat), ∃ (r : List Byte), ∃ (ecc : Ecc), issuing s n k = true ∧ (slot s n k).loaded = true
    ∧ bufStep (slot s n k) (slot s n k).pos = some r ∧ ecc ≠ .uncorr ∧ stepTaken s n r = true ∧ stepCheck s n k r =
    .invalid) ∧
    (∃ (s : State), ∃ (n k : Nat), ∃ (r : List Byte), ∃ (ecc : Ecc), issuing s n k = true ∧ (slot s n k).loaded = true
    ∧ bufStep (slot s n k) (slot s n k).pos = some r ∧ ecc ≠ .uncorr ∧ stepTaken s n r = true ∧ stepCheck s n k r =
    .range) ∧
    (∃ (s : State), ∃ (n k : Nat), ∃ (r : List Byte), ∃ (ecc : Ecc), issuing s n k = true ∧ (slot s n k).loaded = true
    ∧ bufStep (slot s n k) (slot s n k).pos = some r ∧ ecc ≠ .uncorr ∧ stepTaken s n r = true ∧ stepCheck s n k r =
    .ok ∧ (stLoopBegin r && !(slot s n k).reentry && decide (stLoopCount r = 0)) = true) ∧
    (∃ (s : State), ∃ (n k : Nat), ∃ (r : List Byte), ∃ (ecc : Ecc), issuing s n k = true ∧ (slot s n k).loaded = true
    ∧ bufStep (slot s n k) (slot s n k).pos = some r ∧ ecc ≠ .uncorr ∧ stepTaken s n r = true ∧ stepCheck s n k r =
    .ok ∧ (stLoopBegin r && !(slot s n k).reentry && decide (stLoopCount r = 0)) = false ∧ (waitProgHolds s n k r =
    false ∨ 4 ≤ (slot s n k).inflight.length)) ∧
    (∃ (s : State), ∃ (n k : Nat), ∃ (r : List Byte), ∃ (ecc : Ecc), issuing s n k = true ∧ (slot s n k).loaded = true
    ∧ bufStep (slot s n k) (slot s n k).pos = some r ∧ ecc ≠ .uncorr ∧ stepTaken s n r = true ∧ stepCheck s n k r =
    .ok ∧ (stLoopBegin r && !(slot s n k).reentry && decide (stLoopCount r = 0)) = false ∧ waitProgHolds s n k r =
    true ∧ (slot s n k).inflight.length < 4 ∧ (stHasTe r || stHasVe r || stHasXe r) = true ∧ (slot s n k).granted =
    false) ∧
    (∃ (s : State), ∃ (n k : Nat), ∃ (r : List Byte), ∃ (ecc : Ecc), issuing s n k = true ∧ (slot s n k).loaded = true
    ∧ bufStep (slot s n k) (slot s n k).pos = some r ∧ ecc ≠ .uncorr ∧ stepTaken s n r = true ∧ stepCheck s n k r =
    .ok ∧ (stLoopBegin r && !(slot s n k).reentry && decide (stLoopCount r = 0)) = false ∧ waitProgHolds s n k r =
    true ∧ (slot s n k).inflight.length < 4 ∧ (stHasTe r || stHasVe r) = true ∧ stHasXe r = false ∧ (slot s n
    k).granted = true) ∧
    (∃ (s : State), ∃ (n k : Nat), ∃ (r : List Byte), ∃ (ecc : Ecc), ∃ (s1 : State), ∃ (bs : List Byte), issuing s n k
    = true ∧ (slot s n k).loaded = true ∧ bufStep (slot s n k) (slot s n k).pos = some r ∧ ecc ≠ .uncorr ∧ stepTaken s
    n r = true ∧ stepCheck s n k r = .ok ∧ (stLoopBegin r && !(slot s n k).reentry && decide (stLoopCount r = 0)) =
    false ∧ waitProgHolds s n k r = true ∧ (slot s n k).inflight.length < 4 ∧ stHasXe r = true ∧ (slot s n k).granted
    = true ∧ stXeCount r ≤ (slot s n k).streams.length ∧ imageRead s n k (secOff (slot s n k) 3 + 8 * (stXeFirst r +
    stVariant s n k (pushedLoops (slot s n k) r) r * stXeStride r)) (8 * stXeCount r) ecc = (s1, some bs) ∧
    ((List.range (stXeCount r)).map (fun i => slice bs (8 * i) 8)).all (fun e => decide (leAt e 4 2 < (slot s n
    k).streams.length) && leAt e 6 2 = 0 && decide (leAt e 0 4 < secCount (slot s n k) 4)) = true) ∧
    (∃ (s : State), ∃ (n k order : Nat), ∃ f, nextDone (slot s n k) = some f ∧ f.order = order ∧ (slot s n k).ending =
    none) ∧
    (∃ (s : State), ∃ (n k order : Nat), (∀ f, nextDone (slot s n k) = some f → f.order ≠ order ∨ (slot s n
    k).ending.isSome)) := by
  refine ⟨?_, ?_, ?_, ?_, ?_, ?_, ?_, ?_, ?_, ?_, ?_, ?_⟩
  · refine ⟨State.reset, 1151, 1151, ?_⟩ <;>
      decide +kernel
  · refine ⟨sSqSteps0, 0, 0, vSqSteps0, Ecc.uncorr, ?_, ?_, ?_, ?_⟩ <;>
      decide +kernel
  · refine ⟨sSqSteps4, 0, 0, vSqSteps1, Ecc.none, ?_, ?_, ?_, ?_, ?_⟩ <;>
      decide +kernel
  · refine ⟨sSqSteps3, 0, 0, vSqSteps2, Ecc.none, ?_, ?_, ?_, ?_, ?_, ?_⟩ <;>
      decide +kernel
  · refine ⟨sSqSteps8, 0, 0, vSqSteps3, Ecc.none, ?_, ?_, ?_, ?_, ?_, ?_⟩ <;>
      decide +kernel
  · refine ⟨sSqSteps12, 0, 0, vSqSteps4, Ecc.none, ?_, ?_, ?_, ?_, ?_, ?_, ?_⟩ <;>
      decide +kernel
  · refine ⟨sSqSteps6, 0, 0, vSqSteps5, Ecc.none, ?_, ?_, ?_, ?_, ?_, ?_, ?_, ?_⟩ <;>
      decide +kernel
  · refine ⟨sSqSteps1, 0, 0, vSqSteps6, Ecc.none, ?_, ?_, ?_, ?_, ?_, ?_, ?_, ?_, ?_, ?_, ?_⟩ <;>
      decide +kernel
  · refine ⟨sSqSteps0, 0, 0, vSqSteps0, Ecc.none, ?_, ?_, ?_, ?_, ?_, ?_, ?_, ?_, ?_, ?_, ?_, ?_⟩ <;>
      decide +kernel
  · refine ⟨sSqSteps10, 0, 0, vSqSteps7, Ecc.none, vSqSteps8, [0, 0, 0, 0, 0, 0, 0, 0], ?_, ?_, ?_, ?_, ?_, ?_, ?_, ?_, ?_,
    ?_, ?_, ?_, ?_, ?_⟩ <;>
      decide +kernel
  · refine ⟨sSqSteps11, 1151, 15, 7, (Option.get (nextDone (slot sSqSteps11 1151 15)) (by decide +kernel)), ?_, ?_, ?_⟩ <;>
      decide +kernel
  · exact ⟨sSqSteps0, 0, 0, 0, (opt_all (by decide +kernel))⟩

/-- A state of the witnesses of `SqSaves`. -/
def sSqSaves0 : State :=
  withSlot (fun sl => { sl with st := .preempting })

/-- A state of the witnesses of `SqSaves`. -/
def sSqSaves2 : State :=
  mapped (active (fun sl => { sl with st := .preempting, saving := true }))

/-- A state of the witnesses of `SqSaves`. -/
def sSqSaves3 : State :=
  withSlot (fun sl => { sl with st := .preempting, saving := true })

/-- A state of the witnesses of `SqSaves`. -/
def sSqSaves4 : State :=
  { mapped (modSlot State.reset 0 0 (fun sl => { sl with restoring := true })) with mem := memWrite [] 0 [1, 0, 1] }

/-- A state of the witnesses of `SqSaves`. -/
def sSqSaves5 : State :=
  mapped (modSlot State.reset 0 0 (fun sl => { sl with restoring := true }))

/-- A state of the witnesses of `SqSaves`. -/
def sSqSaves6 : State :=
  withSlot (fun sl => { sl with restoring := true })

/-- A state of the witnesses of `SqSaves`. -/
def sSqSaves7 : State :=
  { rset (rset (mapped (active (fun sl => { sl with st := .preempting, saving := true }))) .sq 0 0x414 0x100) .sq 0 0x410 0 with poison := [(lmDpa 0 / 64, true)] }

/-- A state of the witnesses of `SqSaves`. -/
def sSqSaves10 : State :=
  rset (rset (rset (modCore (active (fun sl => { sl with st := .preempting, saving := true })) 0 (fun c =>
  { c with utlb := [⟨1, 0, 0x40000000, 0x40000000, 0, 0x6F, 0, 0, 0⟩] })) .sq 0 0x408 1) .mmu 0 0x808 1) .sq 0 0x41C
  0x3FFFFFFF

def vSqSaves0 : State :=
  (checkRead sSqSaves7 (winDpa sSqSaves7 0 (⟨0, .none⟩ : Reader).no 0) (winBytes sSqSaves7 0 (⟨0, .none⟩ : Reader).no)
  (⟨0, .none⟩ : Reader).ecc (slot sSqSaves7 0 (⟨0, .none⟩ : Reader).no).ctag).1

def vSqSaves1 : State :=
  (checkRead sSqSaves3 (winDpa sSqSaves3 1151 (⟨15, .none⟩ : Reader).no 0) (winBytes sSqSaves3 1151 (⟨15, .none⟩ :
  Reader).no) (⟨15, .none⟩ : Reader).ecc (slot sSqSaves3 1151 (⟨15, .none⟩ : Reader).no).ctag).1

def vSqSaves2 : State :=
  (checkRead sSqSaves10 (winDpa sSqSaves10 0 (⟨0, .none⟩ : Reader).no 0) (winBytes sSqSaves10 0 (⟨0, .none⟩ :
  Reader).no) (⟨0, .none⟩ : Reader).ecc (slot sSqSaves10 0 (⟨0, .none⟩ : Reader).no).ctag).1

def vSqSaves3 : State :=
  (writeVa 2 ((saveSections vSqSaves2 0 (⟨0, .none⟩ : Reader).no).1) 0 (slotAsid ((saveSections vSqSaves2 0 (⟨0,
  .none⟩ : Reader).no).1) 0 (⟨0, .none⟩ : Reader).no) accSaveWrite (saveVa ((saveSections vSqSaves2 0 (⟨0, .none⟩ :
  Reader).no).1) 0 (⟨0, .none⟩ : Reader).no) 0 (saveHeader ((saveSections vSqSaves2 0 (⟨0, .none⟩ : Reader).no).1) 0
  (⟨0, .none⟩ : Reader).no (saveOffs (slot sSqSaves10 0 (⟨0, .none⟩ : Reader).no) (winBytes sSqSaves10 0 (⟨0, .none⟩ :
  Reader).no)).size) (slot sSqSaves10 0 (⟨0, .none⟩ : Reader).no).ctag).1

def vSqSaves4 : State :=
  (checkRead sSqSaves2 (winDpa sSqSaves2 0 (⟨0, .none⟩ : Reader).no 0) (winBytes sSqSaves2 0 (⟨0, .none⟩ : Reader).no)
  (⟨0, .none⟩ : Reader).ecc (slot sSqSaves2 0 (⟨0, .none⟩ : Reader).no).ctag).1

def vSqSaves5 : State :=
  (writeVa 2 ((saveSections vSqSaves4 0 (⟨0, .none⟩ : Reader).no).1) 0 (slotAsid ((saveSections vSqSaves4 0 (⟨0,
  .none⟩ : Reader).no).1) 0 (⟨0, .none⟩ : Reader).no) accSaveWrite (saveVa ((saveSections vSqSaves4 0 (⟨0, .none⟩ :
  Reader).no).1) 0 (⟨0, .none⟩ : Reader).no) 0 (saveHeader ((saveSections vSqSaves4 0 (⟨0, .none⟩ : Reader).no).1) 0
  (⟨0, .none⟩ : Reader).no (saveOffs (slot sSqSaves2 0 (⟨0, .none⟩ : Reader).no) (winBytes sSqSaves2 0 (⟨0, .none⟩ :
  Reader).no)).size) (slot sSqSaves2 0 (⟨0, .none⟩ : Reader).no).ctag).1

def vSqSaves6 : State :=
  (saveRead sSqSaves6 1151 (⟨15, .none⟩ : Reader).no 0 256 (⟨15, .none⟩ : Reader).ecc).1

def vSqSaves7 : State :=
  (saveRead sSqSaves4 0 (⟨0, .none⟩ : Reader).no 0 256 (⟨0, .none⟩ : Reader).ecc).1

def vSqSaves8 : State :=
  (saveRead sSqSaves5 0 (⟨0, .none⟩ : Reader).no 0 256 (⟨0, .none⟩ : Reader).ecc).1

def vSqSaves9 : List Byte :=
  (Option.get ((saveRead sSqSaves4 0 (⟨0, .none⟩ : Reader).no 0 256 (⟨0, .none⟩ : Reader).ecc).2) (by decide +kernel))

def vSqSaves10 : State :=
  (saveRead vSqSaves7 0 (⟨0, .none⟩ : Reader).no 256 ((saveOffs (slot sSqSaves4 0 (⟨0, .none⟩ : Reader).no) (winBytes
  sSqSaves4 0 (⟨0, .none⟩ : Reader).no)).size - 256) (eccAfter (⟨0, .none⟩ : Reader).ecc 4)).1

def vSqSaves11 : List Byte :=
  (Option.get ((saveRead vSqSaves7 0 (⟨0, .none⟩ : Reader).no 256 ((saveOffs (slot sSqSaves4 0 (⟨0, .none⟩ :
  Reader).no) (winBytes sSqSaves4 0 (⟨0, .none⟩ : Reader).no)).size - 256) (eccAfter (⟨0, .none⟩ : Reader).ecc 4)).2)
  (by decide +kernel))

theorem wit_SqSaves :
    (∃ (s : State), ∃ (n k : Nat), ((slot s n k).st = .preempting ∧ (slot s n k).ending = none ∧ allStopped s n k =
    true)) ∧
    (∃ (s : State), ∃ (n k : Nat), (¬ ((slot s n k).st = .preempting ∧ (slot s n k).ending = none ∧ allStopped s n k =
    true))) ∧
    (∃ (s s0 : State), ∃ (n : Nat), ∃ (rd : Reader), ∃ e, (slot s n rd.no).st = .preempting ∧ (slot s n rd.no).ending =
    none ∧ (slot s n rd.no).saving = true ∧ checkRead s (winDpa s n rd.no 0) (winBytes s n rd.no) rd.ecc (slot s n
    rd.no).ctag = (s0, some e)) ∧
    (∃ (s s0 s1 : State), ∃ (n : Nat), ∃ (rd : Reader), ∃ off i, (slot s n rd.no).st = .preempting ∧ (slot s n
    rd.no).ending = none ∧ (slot s n rd.no).saving = true ∧ checkRead s (winDpa s n rd.no 0) (winBytes s n rd.no)
    rd.ecc (slot s n rd.no).ctag = (s0, none) ∧ saveSections s0 n rd.no = (s1, some (off, i))) ∧
    (∃ (s s0 s1 : State), ∃ (n : Nat), ∃ (rd : Reader), ∃ (s2 : State), ∃ off i, (slot s n rd.no).st = .preempting ∧
    (slot s n rd.no).ending = none ∧ (slot s n rd.no).saving = true ∧ checkRead s (winDpa s n rd.no 0) (winBytes s n
    rd.no) rd.ecc (slot s n rd.no).ctag = (s0, none) ∧ saveSections s0 n rd.no = (s1, none) ∧ writeVa 2 s1 n (slotAsid
    s1 n rd.no) accSaveWrite (saveVa s1 n rd.no) 0 (saveHeader s1 n rd.no (saveOffs (slot s n rd.no) (winBytes s n
    rd.no)).size) (slot s n rd.no).ctag = (s2, some (off, i))) ∧
    (∃ (s s0 s1 : State), ∃ (n : Nat), ∃ (rd : Reader), ∃ (s2 : State), (slot s n rd.no).st = .preempting ∧ (slot s n
    rd.no).ending = none ∧ (slot s n rd.no).saving = true ∧ checkRead s (winDpa s n rd.no 0) (winBytes s n rd.no)
    rd.ecc (slot s n rd.no).ctag = (s0, none) ∧ saveSections s0 n rd.no = (s1, none) ∧ writeVa 2 s1 n (slotAsid s1 n
    rd.no) accSaveWrite (saveVa s1 n rd.no) 0 (saveHeader s1 n rd.no (saveOffs (slot s n rd.no) (winBytes s n
    rd.no)).size) (slot s n rd.no).ctag = (s2, none)) ∧
    (∃ (s : State), ∃ (n : Nat), ∃ (rd : Reader), ((slot s n rd.no).st ≠ .preempting ∨ (slot s n rd.no).saving = false
    ∨ (slot s n rd.no).ending.isSome)) ∧
    (∃ (s : State), ∃ (n k : Nat), n < 1152 ∧ (slot s n k).st = .preempting ∧ (slot s n k).saving = true ∧ (slot s n
    k).ending = none) ∧
    (∃ (s : State), ∃ (n k : Nat), n < 1152 ∧ ((slot s n k).st ≠ .preempting ∨ (slot s n k).saving = false ∨ (slot s n
    k).ending.isSome)) ∧
    (∃ (s : State), ∃ (n : Nat), ∃ (rd : Reader), (slot s n rd.no).restoring = false) ∧
    (∃ (s s1 : State), ∃ (n : Nat), ∃ (rd : Reader), (slot s n rd.no).restoring = true ∧ saveRead s n rd.no 0 256
    rd.ecc = (s1, none)) ∧
    (∃ (s s1 : State), ∃ (n : Nat), ∃ (rd : Reader), ∃ h, (slot s n rd.no).restoring = true ∧ saveRead s n rd.no 0 256
    rd.ecc = (s1, some h) ∧ saveHeaderOk s1 n rd.no h = true) ∧
    (∃ (s s1 : State), ∃ (n : Nat), ∃ (rd : Reader), ∃ h, (slot s n rd.no).restoring = true ∧ saveRead s n rd.no 0 256
    rd.ecc = (s1, some h) ∧ saveHeaderOk s1 n rd.no h = false) ∧
    (∃ (s s1 s2 : State), ∃ (n : Nat), ∃ (rd : Reader), ∃ (h b : List Byte), (slot s n rd.no).restoring = true ∧
    saveRead s n rd.no 0 256 rd.ecc = (s1, some h) ∧ saveHeaderOk s1 n rd.no h = true ∧ saveRead s1 n rd.no 256
    ((saveOffs (slot s n rd.no) (winBytes s n rd.no)).size - 256) (eccAfter rd.ecc 4) = (s2, some b)) := by
  refine ⟨?_, ?_, ?_, ?_, ?_, ?_, ?_, ?_, ?_, ?_, ?_, ?_, ?_, ?_⟩
  · refine ⟨sSqSaves0, 1151, 15, ⟨?_, ?_, ?_⟩⟩ <;>
      decide +kernel
  · refine ⟨sSqSaves0, 1151, 1151, ?_⟩ <;>
      decide +kernel
  · refine ⟨sSqSaves7, vSqSaves0, 0, (⟨0, .none⟩ : Reader), 268, ?_, ?_, ?_, ?_⟩ <;>
      decide +kernel
  · refine ⟨sSqSaves3, vSqSaves1, (saveSections vSqSaves1 1151 (⟨15, .none⟩ : Reader).no).1, 1151, (⟨15, .none⟩ : Reader), 2,
    (Option.get ((saveSections vSqSaves1 1151 (⟨15, .none⟩ : Reader).no).2) (by decide +kernel)).2, ?_, ?_, ?_, ?_,
    ?_⟩ <;>
      decide +kernel
  · refine ⟨sSqSaves10, vSqSaves2, (saveSections vSqSaves2 0 (⟨0, .none⟩ : Reader).no).1, 0, (⟨0, .none⟩ : Reader),
    vSqSaves3, 0, (Option.get ((writeVa 2 ((saveSections vSqSaves2 0 (⟨0, .none⟩ : Reader).no).1) 0 (slotAsid
    ((saveSections vSqSaves2 0 (⟨0, .none⟩ : Reader).no).1) 0 (⟨0, .none⟩ : Reader).no) accSaveWrite (saveVa
    ((saveSections vSqSaves2 0 (⟨0, .none⟩ : Reader).no).1) 0 (⟨0, .none⟩ : Reader).no) 0 (saveHeader ((saveSections
    vSqSaves2 0 (⟨0, .none⟩ : Reader).no).1) 0 (⟨0, .none⟩ : Reader).no (saveOffs (slot sSqSaves10 0 (⟨0, .none⟩ :
    Reader).no) (winBytes sSqSaves10 0 (⟨0, .none⟩ : Reader).no)).size) (slot sSqSaves10 0 (⟨0, .none⟩ :
    Reader).no).ctag).2) (by decide +kernel)).2, ?_, ?_, ?_, ?_, ?_, ?_⟩ <;>
      decide +kernel
  · refine ⟨sSqSaves2, vSqSaves4, (saveSections vSqSaves4 0 (⟨0, .none⟩ : Reader).no).1, 0, (⟨0, .none⟩ : Reader), vSqSaves5,
    ?_, ?_, ?_, ?_, ?_, ?_⟩ <;>
      decide +kernel
  · refine ⟨sSqSaves0, 1151, (⟨1151, .none⟩ : Reader), ?_⟩ <;>
      decide +kernel
  · refine ⟨sSqSaves2, 0, 0, ?_, ?_, ?_, ?_⟩ <;>
      decide +kernel
  · refine ⟨sSqSaves0, 1151, 1151, ?_, ?_⟩ <;>
      decide +kernel
  · refine ⟨sSqSaves0, 1151, (⟨1151, .none⟩ : Reader), ?_⟩ <;>
      decide +kernel
  · refine ⟨sSqSaves6, vSqSaves6, 1151, (⟨15, .none⟩ : Reader), ?_, ?_⟩ <;>
      decide +kernel
  · refine ⟨sSqSaves4, vSqSaves7, 0, (⟨0, .none⟩ : Reader), (Option.get ((saveRead sSqSaves4 0 (⟨0, .none⟩ : Reader).no 0 256
    (⟨0, .none⟩ : Reader).ecc).2) (by decide +kernel)), ?_, ?_, ?_⟩ <;>
      decide +kernel
  · refine ⟨sSqSaves5, vSqSaves8, 0, (⟨0, .none⟩ : Reader), (Option.get ((saveRead sSqSaves5 0 (⟨0, .none⟩ : Reader).no 0 256
    (⟨0, .none⟩ : Reader).ecc).2) (by decide +kernel)), ?_, ?_, ?_⟩ <;>
      decide +kernel
  · refine ⟨sSqSaves4, vSqSaves7, vSqSaves10, 0, (⟨0, .none⟩ : Reader), vSqSaves9, vSqSaves11, ?_, ?_, ?_, ?_⟩ <;>
      decide +kernel

/-- A state of the witnesses of `SyncOperations`. -/
def sSyncOperations0 : State :=
  modSync (withSlot (fun sl => { sl with st := .active, blocks := [63] })) 1151 4095 (fun _ => { value := 65535 })

/-- A state of the witnesses of `SyncOperations`. -/
def sSyncOperations1 : State :=
  modSync (withSlot (fun sl => { sl with st := .active, blocks := [63] })) 1151 4095 (fun _ =>
  { event := true, value := 1, doubleFault := true })

theorem wit_SyncOperations :
    (∃ (o : SyncObj), ∃ (v : Nat), o.event = false ∧ o.value + v ≤ 65535 ∧ 1 ≤ v) ∧
    (∃ (o : SyncObj), ∃ (v : Nat), o.event = false ∧ o.value ≤ 65535 ∧ 65535 < o.value + v) ∧
    (∃ (o : SyncObj), ∃ (b : Nat), o.event = false ∧ o.value + b / 4 ≤ 65535) ∧
    (∃ (o : SyncObj), o.event = false) ∧
    (∃ (o : SyncObj), o.event = true ∧ o.value = 0) ∧
    (∃ (o : SyncObj), ∃ (op : SyncOp), o.event = true ∧ o.value = 1 ∧ (op = .signal ∨ op = .release ∨ ∃ v, 1 ≤ v ∧ op =
    .add v)) ∧
    (∃ (o : SyncObj), ∃ (op : SyncOp), o.event = true ∧ o.value = 1 ∧ (op = .signal ∨ op = .release ∨ ∃ v, 1 ≤ v ∧ op =
    .add v)) ∧
    (∃ (o : SyncObj), ∃ (op : SyncOp), o.value ≤ 65535 ∧ (∀ v, op = .set v → v ≤ 65535)) ∧
    (∃ (s : State), ∃ (n k i ph : Nat), ∃ (op : SyncOp), n < 1152 ∧ physObj s n k i = some ph ∧ (syncApply (syncObj s n
    ph) op).2.1 = true) ∧
    (∃ (s : State), ∃ (n k i ph : Nat), ∃ (op : SyncOp), n < 1152 ∧ physObj s n k i = some ph ∧ (syncApply (syncObj s n
    ph) op).2.1 = true ∧ wbit (rget s .syn n 0x24) eSynSaturate.bit = false ∧ wbit (rget s .syn n 0x30) 31 = false) ∧
    (∃ (s : State), ∃ (n k i ph : Nat), ∃ (op : SyncOp), n < 1152 ∧ physObj s n k i = some ph ∧ (syncApply (syncObj s n
    ph) op).2.2.1 = true) ∧
    (∃ (s : State), ∃ (n k i ph : Nat), ∃ (op : SyncOp), n < 1152 ∧ physObj s n k i = some ph ∧ (syncApply (syncObj s n
    ph) op).2.2.2 = true) := by
  refine ⟨?_, ?_, ?_, ?_, ?_, ?_, ?_, ?_, ?_, ?_, ?_, ?_⟩
  · refine ⟨({ value := 65534 } : SyncObj), 1, ?_, ?_, ?_⟩ <;>
      decide +kernel
  · refine ⟨({ value := 65534 } : SyncObj), 65535, ?_, ?_, ?_⟩ <;>
      decide +kernel
  · refine ⟨({ value := 65534 } : SyncObj), 1, ?_, ?_⟩ <;>
      decide +kernel
  · refine ⟨({ value := 65534 } : SyncObj), ?_⟩ <;>
      decide +kernel
  · refine ⟨({ event := true } : SyncObj), ?_, ?_⟩ <;>
      decide +kernel
  · refine ⟨({ event := true, value := 1 } : SyncObj), SyncOp.signal, ?_, ?_,
    (by first | exact Or.inl (by decide +kernel) | exact Or.inr (Or.inl (by decide +kernel)) | exact Or.inr (Or.inr (by decide +kernel)))⟩ <;>
      decide +kernel
  · refine ⟨({ event := true, value := 1 } : SyncObj), SyncOp.signal, ?_, ?_,
    (by first | exact Or.inl (by decide +kernel) | exact Or.inr (Or.inl (by decide +kernel)) | exact Or.inr (Or.inr (by decide +kernel)))⟩ <;>
      decide +kernel
  · refine ⟨({ value := 65534 } : SyncObj), SyncOp.signal, ?_, (by intro v_ h_; cases h_ <;> decide)⟩ <;>
      decide +kernel
  · refine ⟨sSyncOperations0, 1151, 15, 63, 4095, SyncOp.signal, ?_, ?_, ?_⟩ <;>
      decide +kernel
  · refine ⟨sSyncOperations0, 1151, 15, 63, 4095, SyncOp.signal, ?_, ?_, ?_, ?_, ?_⟩ <;>
      decide +kernel
  · refine ⟨sSyncOperations1, 1151, 15, 63, 4095, SyncOp.signal, ?_, ?_, ?_⟩ <;>
      decide +kernel
  · refine ⟨sSyncOperations0, 1151, 15, 15, 4047, SyncOp.release, ?_, ?_, ?_⟩ <;>
      decide +kernel

/-- A state of the witnesses of `Gongs`. -/
def sGongs1 : State :=
  { rset State.reset .gng 3 0x10 1 with gong := mput State.reset.gong (gongKey 3 255) { n := 1, enabled := true, phase := 3 } }

/-- A state of the witnesses of `Gongs`. -/
def sGongs2 : State :=
  { rset State.reset .gng 3 0x10 1 with gong := mput State.reset.gong (gongKey 3 255) { n := 2, enabled := true, phase := 3, cur := 1 } }

/-- A state of the witnesses of `Gongs`. -/
def sGongs4 : State :=
  { State.reset with gong := mput State.reset.gong (gongKey 0 319) { n := 2, enabled := true, cur := 1 } }

/-- A state of the witnesses of `Gongs`. -/
def sGongs5 : State :=
  withSlot (fun sl => { sl with st := .active, blocks := [63], bind := some ⟨[padTo [0x13] 8]⟩ })

/-- A state of the witnesses of `Gongs`. -/
def sGongs7 : State :=
  modSync (modCore (withSlot (fun sl => { sl with st := .active, blocks := [63] })) 1151 (fun c =>
  { c with relIndex := [4095] })) 1151 4095 (fun o => { o with bound := true, gbar := 255, pend := 1, gphase := 0 })

def vGongs0 : State :=
  synEcc (deliver sGongs7 (.release 1151 false 255 (⟨3, .none⟩ : Reader).no)) 1151 4095 (⟨3, .none⟩ : Reader).ecc

def vGongs1 : State :=
  synEcc (deliver sGongs7 (.release 1151 true 1151 (⟨1151, .none⟩ : Reader).no)) 1151 4095 (⟨1151, .none⟩ :
  Reader).ecc

theorem wit_Gongs :
    (∃ (s : State), ∃ (req : Req), ∃ (tile bar : Nat), ∃ (w : Word), tile < 4 ∧ bar < 256 ∧ answered s req = true ∧
    pageOpen s req (page .gng tile) = true ∧
    let b := gongBar s tile bar; (wbit w 15 = true ∧ fld w 14 0 ≠ 0) ∧ (b.enabled = false ∨ (b.cur = 0 ∧ b.next = 0))) ∧
    (∃ (s : State), ∃ (req : Req), ∃ (tile bar : Nat), ∃ (w : Word), tile < 4 ∧ bar < 256 ∧ answered s req = true ∧
    pageOpen s req (page .gng tile) = true ∧
    let b := gongBar s tile bar; (wbit w 15 = true ∧ fld w 14 0 ≠ 0) ∧ b.enabled = true ∧ (b.cur ≠ 0 ∨ b.next ≠ 0)) ∧
    (∃ (s : State), ∃ (req : Req), ∃ (tile bar : Nat), ∃ (w : Word), tile < 4 ∧ bar < 256 ∧ answered s req = true ∧
    pageOpen s req (page .gng tile) = true ∧ (¬ (wbit w 15 = true ∧ fld w 14 0 ≠ 0))) ∧
    (∃ (s : State), ∃ (req : Req), ∃ (g : Nat), ∃ (w : Word), g < 64 ∧ answered s req = true ∧ pageOpen s req (page
    .gng 0) = true ∧
    let b := gongBar s 0 (256 + g); (wbit w 15 = true ∧ fld w 14 0 ≠ 0) ∧ (b.enabled = false ∨ (b.cur = 0 ∧ b.next =
      0))) ∧
    (∃ (s : State), ∃ (req : Req), ∃ (g : Nat), ∃ (w : Word), g < 64 ∧ answered s req = true ∧ pageOpen s req (page
    .gng 0) = true ∧
    let b := gongBar s 0 (256 + g); (wbit w 15 = true ∧ fld w 14 0 ≠ 0) ∧ b.enabled = true ∧ (b.cur ≠ 0 ∨ b.next ≠ 0)) ∧
    (∃ (s : State), ∃ (req : Req), ∃ (g : Nat), ∃ (w : Word), g < 64 ∧ answered s req = true ∧ pageOpen s req (page
    .gng 0) = true ∧ (¬ (wbit w 15 = true ∧ fld w 14 0 ≠ 0))) ∧
    (∃ (s : State), ∃ (n bar : Nat), accepting s .gng (gngPage (coreTile n) bar) = false) ∧
    (∃ (s : State), ∃ (n bar q : Nat), ∃ (ecc : Ecc), accepting s .gng (gngPage (coreTile n) bar) = true ∧ n < 1152 ∧ q
    < 4 ∧
    let b := gongBar s (coreTile n) bar; ecc ≠ .uncorr ∧ b.enabled = true ∧ b.phase < 4 ∧ q = b.phase) ∧
    (∃ (s : State), ∃ (n bar q : Nat), ∃ (ecc : Ecc), accepting s .gng (gngPage (coreTile n) bar) = true ∧ n < 1152 ∧ q
    < 4 ∧
    let b := gongBar s (coreTile n) bar; ecc ≠ .uncorr ∧ b.enabled = true ∧ b.phase < 4 ∧ q = (b.phase + 1) % 4 ∧
      b.cur < b.n) ∧
    (∃ (s : State), ∃ (n bar q : Nat), ∃ (ecc : Ecc), accepting s .gng (gngPage (coreTile n) bar) = true ∧ n < 1152 ∧ q
    < 4 ∧
    let b := gongBar s (coreTile n) bar; ecc ≠ .uncorr ∧ b.enabled = true ∧ b.phase < 4 ∧ q ≠ b.phase ∧ q ≠ (b.phase +
      1) % 4) ∧
    (∃ (s : State), ∃ (n bar q : Nat), ∃ (ecc : Ecc), accepting s .gng (gngPage (coreTile n) bar) = true ∧ n < 1152 ∧ q
    < 4 ∧
    let b := gongBar s (coreTile n) bar; ecc ≠ .uncorr ∧ b.enabled = false) ∧
    (∃ (s : State), ∃ (n bar q : Nat), ∃ (ecc : Ecc), accepting s .gng (gngPage (coreTile n) bar) = true ∧ n < 1152 ∧ q
    < 4 ∧ ecc = .uncorr) ∧
    (∃ (s : State), ∃ (n k ph : Nat), ∃ (o : List Byte), (slot s n k).bind = some ⟨[o]⟩ ∧ (slot s n k).ending = none ∧
    physObj s n k (opObj o) = some ph ∧ (syncObj s n ph).pend = 0) ∧
    (∃ (s : State), ∃ (n k : Nat), ((slot s n k).bind = none ∨ (slot s n k).ending.isSome)) ∧
    (∃ (s : State), ∃ (n : Nat), (core s n).relIndex = []) ∧
    (∃ (s u : State), ∃ (n ph bar : Nat), ∃ (fabric : Bool), ∃ (rd : Reader), ∃ k i, (core s n).relIndex = [ph] ∧ u =
    synEcc (deliver s (.release n fabric bar rd.no)) n ph rd.ecc ∧ (core u n).relIndex = [ph] ∧
    let x := syncObj u n ph; (x.bound = true ∧ x.gbar = bar ∧ x.gkind = fabric ∧ 0 < x.pend ∧ (x.gphase + 4 - x.pend)
      % 4 = rd.no) ∧ objOwner u n ph = some (k, i)) ∧
    (∃ (s u : State), ∃ (n ph bar : Nat), ∃ (fabric : Bool), ∃ (rd : Reader), (core s n).relIndex = [ph] ∧ u = synEcc
    (deliver s (.release n fabric bar rd.no)) n ph rd.ecc ∧ (core u n).relIndex = [ph] ∧
    let x := syncObj u n ph; (¬ (x.bound = true ∧ x.gbar = bar ∧ x.gkind = fabric ∧ 0 < x.pend ∧ (x.gphase + 4 -
      x.pend) % 4 = rd.no))) ∧
    (∃ (s : State), ∃ (n k : Nat), n < 1152 ∧ k < 16 ∧ (slot s n k).st ≠ .free ∧ (slot s n k).ending = none) ∧
    (∃ (s : State), ∃ (n k : Nat), ((slot s n k).st = .free ∨ (slot s n k).ending.isSome)) := by
  refine ⟨?_, ?_, ?_, ?_, ?_, ?_, ?_, ?_, ?_, ?_, ?_, ?_, ?_, ?_, ?_, ?_, ?_, ?_, ?_⟩
  · refine ⟨State.reset, Req.car, 3, 3, 0x8001, ?_, ?_, ?_, ?_, ⟨?_, ?_⟩, ?_⟩ <;>
      decide +kernel
  · refine ⟨sGongs2, Req.car, 3, 255, 0x8001, ?_, ?_, ?_, ?_, ⟨?_, ?_⟩, ?_, ?_⟩ <;>
      decide +kernel
  · refine ⟨State.reset, Req.car, 3, 3, 0x8000, ?_, ?_, ?_, ?_, ?_⟩ <;>
      decide +kernel
  · refine ⟨State.reset, Req.car, 3, 0x8001, ?_, ?_, ?_, ⟨?_, ?_⟩, ?_⟩ <;>
      decide +kernel
  · refine ⟨sGongs4, Req.car, 63, 0x8001, ?_, ?_, ?_, ⟨?_, ?_⟩, ?_, ?_⟩ <;>
      decide +kernel
  · refine ⟨State.reset, Req.car, 3, 0x8000, ?_, ?_, ?_, ?_⟩ <;>
      decide +kernel
  · refine ⟨State.reset, 3, 3, ?_⟩ <;>
      decide +kernel
  · refine ⟨sGongs1, 1151, 255, 3, Ecc.none, ?_, ?_, ?_, ?_, ?_, ?_, ?_⟩ <;>
      decide +kernel
  · refine ⟨sGongs1, 1151, 255, 0, Ecc.none, ?_, ?_, ?_, ?_, ?_, ?_, ?_, ?_⟩ <;>
      decide +kernel
  · refine ⟨sGongs2, 1151, 255, 2, Ecc.none, ?_, ?_, ?_, ?_, ?_, ?_, ?_, ?_⟩ <;>
      decide +kernel
  · refine ⟨sGongs1, 1151, 3, 3, Ecc.none, ?_, ?_, ?_, ?_, ?_⟩ <;>
      decide +kernel
  · refine ⟨sGongs1, 1151, 3, 3, Ecc.uncorr, ?_, ?_, ?_, ?_⟩ <;>
      decide +kernel
  · refine ⟨sGongs5, 1151, 15, 4032, [19, 0, 0, 0, 0, 0, 0, 0], ?_, ?_, ?_, ?_⟩ <;>
      decide +kernel
  · refine ⟨State.reset, 3, 3, ?_⟩ <;>
      decide +kernel
  · refine ⟨State.reset, 3, ?_⟩ <;>
      decide +kernel
  · refine ⟨sGongs7, vGongs0, 1151, 4095, 255, false, (⟨3, .none⟩ : Reader), 15, 63, ?_, ?_, ?_, ⟨?_, ?_, ?_, ?_, ?_⟩, ?_⟩ <;>
      decide +kernel
  · refine ⟨sGongs7, vGongs1, 1151, 4095, 1151, true, (⟨1151, .none⟩ : Reader), ?_, ?_, ?_, ?_⟩ <;>
      decide +kernel
  · refine ⟨sGongs5, 1151, 15, ?_, ?_, ?_, ?_⟩ <;>
      decide +kernel
  · refine ⟨State.reset, 3, 3, ?_⟩ <;>
      decide +kernel

/-- A state of the witnesses of `FabricBarriers`. -/
def sFabricBarriers1 : State :=
  { fb := [(255, { n := 2, enabled := true, phase := 3, cur := 1 })] }

/-- A state of the witnesses of `FabricBarriers`. -/
def sFabricBarriers2 : State :=
  { rset State.reset .col 7 0x10 1 with fb := [(256 * 7 + 255, { n := 1, enabled := true, phase := 3 })] }

/-- A state of the witnesses of `FabricBarriers`. -/
def sFabricBarriers3 : State :=
  { rset State.reset .col 7 0x10 1 with fb := [(256 * 7 + 255, { n := 2, enabled := true, phase := 3, cur := 1 })] }

/-- A state of the witnesses of `FabricBarriers`. -/
def sFabricBarriers5 : State :=
  { rset State.reset .col 7 0x10 1 with fb := [(256 * 7 + 255, { devN := 2, rphase := 3, isRoot := true })] }

/-- A state of the witnesses of `FabricBarriers`. -/
def sFabricBarriers6 : State :=
  { rset State.reset .col 7 0x10 1 with fb := [(256 * 7 + 255, { devN := 1, rphase := 3, isRoot := true })] }

/-- A state of the witnesses of `FabricBarriers`. -/
def sFabricBarriers7 : State :=
  { rset ({ fab0 with fb := [(255, { n := 1, enabled := true, phase := 3, isRoot := true, await := [3], left := [(3, 0)] })] }) .col 0 0x70C 1 with us := 1000 }

/-- A state of the witnesses of `FabricBarriers`. -/
def sFabricBarriers9 : State :=
  { fab0 with fb := [(255, { n := 1, enabled := true, phase := 3, isRoot := true })] }

def vFabricBarriers0 : List Byte :=
  pktBytes { type := tFbArrive, vc := 2, dstCoord := 5, srcCoord := 6, dstEndpt := 0, operand := 255 + 256 * 3 }

def vFabricBarriers1 : State :=
  (arriveCheck sFabricBarriers7 (arrival sFabricBarriers7 0 0) 35 vFabricBarriers0 true).1

def vFabricBarriers2 : List Byte :=
  pktBytes
  { type := tFbArrive, vc := 2, dstCoord := 5, srcCoord := 6, dstEndpt := barrierEndpt, operand := 255 + 256 * 3 }

def vFabricBarriers3 : State :=
  (arriveCheck sFabricBarriers7 (arrival sFabricBarriers7 255 255) 35 vFabricBarriers2 true).1

def vFabricBarriers4 : State :=
  (arriveCheck sFabricBarriers7 (arrival sFabricBarriers7 0 0) tFbArrive vFabricBarriers2 true).1

def vFabricBarriers5 : Pkt :=
  (Option.get ((arriveCheck sFabricBarriers7 (arrival sFabricBarriers7 0 0) tFbArrive vFabricBarriers2 true).2)
  (by decide +kernel))

def vFabricBarriers6 : List Byte :=
  pktBytes
  { type := tFbRelease, vc := 2, dstCoord := 5, srcCoord := 6, dstEndpt := barrierEndpt, operand := 255 + 256 * 3 }

def vFabricBarriers7 : State :=
  (arriveCheck sFabricBarriers9 (arrival sFabricBarriers9 7 7) tFbRelease vFabricBarriers6 true).1

def vFabricBarriers8 : Pkt :=
  (Option.get ((arriveCheck sFabricBarriers9 (arrival sFabricBarriers9 7 7) tFbRelease vFabricBarriers6 true).2)
  (by decide +kernel))

def vFabricBarriers9 : State :=
  (arriveCheck sFabricBarriers7 (arrival sFabricBarriers7 0 0) tFbRelease vFabricBarriers6 true).1

def vFabricBarriers10 : Pkt :=
  (Option.get ((arriveCheck sFabricBarriers7 (arrival sFabricBarriers7 0 0) tFbRelease vFabricBarriers6 true).2)
  (by decide +kernel))

def vFabricBarriers11 : List Byte :=
  pktBytes
  { type := tFbOverrun, vc := 2, dstCoord := 5, srcCoord := 6, dstEndpt := barrierEndpt, operand := 255 + 256 * 3 }

def vFabricBarriers12 : State :=
  (arriveCheck sFabricBarriers7 (arrival sFabricBarriers7 0 0) tFbOverrun vFabricBarriers11 true).1

def vFabricBarriers13 : Pkt :=
  (Option.get ((arriveCheck sFabricBarriers7 (arrival sFabricBarriers7 0 0) tFbOverrun vFabricBarriers11 true).2)
  (by decide +kernel))

theorem wit_FabricBarriers :
    (∃ (s : State), ∃ (req : Req), ∃ (pipe f : Nat), pipe < 8 ∧ f < 256 ∧ answered s req = true ∧ pageOpen s req (page
    .col pipe) = true ∧ isBarrierPipe s pipe = false) ∧
    (∃ (s : State), ∃ (req : Req), ∃ (pipe f : Nat), ∃ (w : Word), pipe < 8 ∧ f < 256 ∧ answered s req = true ∧
    pageOpen s req (page .col pipe) = true ∧
    let b := fbar s pipe f; isBarrierPipe s pipe = true ∧ (wbit w 15 = true ∧ fld w 14 0 ≠ 0) ∧ b.enabled = true ∧
      ((b.cur ≠ 0 ∨ b.next ≠ 0 ∨ b.rcur ≠ 0 ∨ b.rnext ≠ 0))) ∧
    (∃ (s : State), ∃ (req : Req), ∃ (pipe f : Nat), ∃ (w : Word), pipe < 8 ∧ f < 256 ∧ answered s req = true ∧
    pageOpen s req (page .col pipe) = true ∧
    let b := fbar s pipe f; isBarrierPipe s pipe = true ∧ (wbit w 15 = true ∧ fld w 14 0 ≠ 0) ∧ (b.enabled = false ∨ ¬
      (b.cur ≠ 0 ∨ b.next ≠ 0 ∨ b.rcur ≠ 0 ∨ b.rnext ≠ 0))) ∧
    (∃ (s : State), ∃ (req : Req), ∃ (pipe f : Nat), ∃ (w : Word), pipe < 8 ∧ f < 256 ∧ answered s req = true ∧
    pageOpen s req (page .col pipe) = true ∧ isBarrierPipe s pipe = true ∧ (¬ (wbit w 15 = true ∧ fld w 14 0 ≠ 0))) ∧
    (∃ (s : State), ∃ (pipe : Nat), accepting s .col pipe = false) ∧
    (∃ (s : State), ∃ (pipe f q : Nat), accepting s .col pipe = true ∧ pipe < 8 ∧ q < 4 ∧
    let b := fbar s pipe f; b.enabled = true ∧ b.phase < 4 ∧ q = b.phase) ∧
    (∃ (s : State), ∃ (pipe f q : Nat), accepting s .col pipe = true ∧ pipe < 8 ∧ q < 4 ∧
    let b := fbar s pipe f; b.enabled = true ∧ b.phase < 4 ∧ q = (b.phase + 1) % 4 ∧ b.cur < b.n) ∧
    (∃ (s : State), ∃ (pipe f q : Nat), accepting s .col pipe = true ∧ pipe < 8 ∧ q < 4 ∧
    let b := fbar s pipe f; b.enabled = true ∧ b.phase < 4 ∧ q ≠ b.phase ∧ q ≠ (b.phase + 1) % 4) ∧
    (∃ (s : State), ∃ (pipe f q : Nat), accepting s .col pipe = true ∧ pipe < 8 ∧ q < 4 ∧
    let b := fbar s pipe f; b.enabled = false) ∧
    (∃ (s s1 : State), ∃ (i part type : Nat), ∃ (data : List Byte), ∃ (ok : Bool), ∃ (c : Instr), (type, c) ∈
    [(tFbArrive, Instr.fbArrive i part data ok), (tFbRelease, .fbRelease i part data ok), (tFbOverrun, .fbOverrun i
    part data ok)] ∧ arriveCheck s (arrival s i part) type data ok = (s1, none)) ∧
    (∃ (s s1 : State), ∃ (i part type : Nat), ∃ (data : List Byte), ∃ (ok : Bool), ∃ (c : Instr), ∃ k, (type, c) ∈
    [(tFbArrive, Instr.fbArrive i part data ok), (tFbRelease, .fbRelease i part data ok), (tFbOverrun, .fbOverrun i
    part data ok)] ∧ arriveCheck s (arrival s i part) type data ok = (s1, some k) ∧ k.dstEndpt ≠ barrierEndpt) ∧
    (∃ (s s1 : State), ∃ (i part type : Nat), ∃ (data : List Byte), ∃ (ok : Bool), ∃ (c : Instr), ∃ k, (type, c) ∈
    [(tFbArrive, Instr.fbArrive i part data ok), (tFbRelease, .fbRelease i part data ok), (tFbOverrun, .fbOverrun i
    part data ok)] ∧ arriveCheck s (arrival s i part) type data ok = (s1, some k) ∧
    let pipe := barrierPipe s1 (arrival s i part).part;
      let b := fbar s1 pipe (bits k.operand 0 8); k.dstEndpt = barrierEndpt ∧ (b.enabled = false ∨ (type = tFbArrive ∧
        b.isRoot = false))) ∧
    (∃ (s s1 : State), ∃ (i part : Nat), ∃ (data : List Byte), ∃ (ok : Bool), ∃ (k : Pkt), arriveCheck s (arrival s i
    part) tFbArrive data ok = (s1, some k) ∧ k.dstEndpt = barrierEndpt ∧ (fbar s1 (barrierPipe s1 (arrival s i
    part).part) (bits k.operand 0 8)).enabled = true ∧ (fbar s1 (barrierPipe s1 (arrival s i part).part) (bits
    k.operand 0 8)).isRoot = true) ∧
    (∃ (s : State), ∃ (pipe f q : Nat), pipe < 8 ∧ q < 4 ∧ (fbar s pipe f).rphase < 4 ∧ (fbar s pipe f).rcur < (fbar s
    pipe f).devN ∧
    let b := fbar s pipe f; q = b.rphase ∧ b.rcur + 1 < b.devN) ∧
    (∃ (s : State), ∃ (pipe f q : Nat), pipe < 8 ∧ q < 4 ∧ (fbar s pipe f).rphase < 4 ∧ (fbar s pipe f).rcur < (fbar s
    pipe f).devN ∧
    let b := fbar s pipe f; q = b.rphase ∧ b.rcur + 1 = b.devN ∧ b.rnext < b.devN) ∧
    (∃ (s : State), ∃ (pipe f q : Nat), pipe < 8 ∧ q < 4 ∧ (fbar s pipe f).rphase < 4 ∧ (fbar s pipe f).rcur < (fbar s
    pipe f).devN ∧
    let b := fbar s pipe f; q = (b.rphase + 1) % 4) ∧
    (∃ (s : State), ∃ (pipe f q : Nat), pipe < 8 ∧ q < 4 ∧ (fbar s pipe f).rphase < 4 ∧ (fbar s pipe f).rcur < (fbar s
    pipe f).devN ∧
    let b := fbar s pipe f; q ≠ b.rphase ∧ q ≠ (b.rphase + 1) % 4) ∧
    (∃ (s s1 : State), ∃ (i part : Nat), ∃ (data : List Byte), ∃ (ok : Bool), ∃ (k : Pkt), arriveCheck s (arrival s i
    part) tFbRelease data ok = (s1, some k) ∧ k.dstEndpt = barrierEndpt ∧ (fbar s1 (barrierPipe s1 (arrival s i
    part).part) (bits k.operand 0 8)).enabled = true ∧ bits k.operand 8 2 ∉ (fbar s1 (barrierPipe s1 (arrival s i
    part).part) (bits k.operand 0 8)).await) ∧
    (∃ (s s1 : State), ∃ (i part : Nat), ∃ (data : List Byte), ∃ (ok : Bool), ∃ (k : Pkt), arriveCheck s (arrival s i
    part) tFbRelease data ok = (s1, some k) ∧ k.dstEndpt = barrierEndpt ∧ (fbar s1 (barrierPipe s1 (arrival s i
    part).part) (bits k.operand 0 8)).enabled = true ∧ bits k.operand 8 2 ∈ (fbar s1 (barrierPipe s1 (arrival s i
    part).part) (bits k.operand 0 8)).await) ∧
    (∃ (s s1 : State), ∃ (i part : Nat), ∃ (data : List Byte), ∃ (ok : Bool), ∃ (k : Pkt), i < 8 ∧ arriveCheck s
    (arrival s i part) tFbOverrun data ok = (s1, some k) ∧ k.dstEndpt = barrierEndpt ∧ (fbar s1 (barrierPipe s1
    (arrival s i part).part) (bits k.operand 0 8)).enabled = true) ∧
    (∃ (s : State), ∃ (pipe f : Nat), pipe < 8 ∧ f < 256 ∧ (((fbar s pipe f).enabled = true ∧ rget s .col pipe 0x70C ≠
    0 ∧ ∃ q ∈ (fbar s pipe f).await, mgetD (fbar s pipe f).left q 0 + max 1000 (rget s .col pipe 0x70C).toNat ≤ s.us))) ∧
    (∃ (s : State), ∃ (pipe f : Nat), pipe < 8 ∧ f < 256 ∧ (¬ ((fbar s pipe f).enabled = true ∧ rget s .col pipe 0x70C
    ≠ 0 ∧ ∃ q ∈ (fbar s pipe f).await, mgetD (fbar s pipe f).left q 0 + max 1000 (rget s .col pipe 0x70C).toNat ≤
    s.us))) := by
  refine ⟨?_, ?_, ?_, ?_, ?_, ?_, ?_, ?_, ?_, ?_, ?_, ?_, ?_, ?_, ?_, ?_, ?_, ?_, ?_, ?_, ?_, ?_⟩
  · refine ⟨State.reset, Req.car, 7, 7, ?_, ?_, ?_, ?_, ?_⟩ <;>
      decide +kernel
  · refine ⟨sFabricBarriers1, Req.car, 0, 255, 0x8001, ?_, ?_, ?_, ?_, ?_, ⟨?_, ?_⟩, ?_, ?_⟩ <;>
      decide +kernel
  · refine ⟨State.reset, Req.car, 0, 7, 0x8001, ?_, ?_, ?_, ?_, ?_, ⟨?_, ?_⟩, ?_⟩ <;>
      decide +kernel
  · refine ⟨State.reset, Req.car, 0, 7, 0, ?_, ?_, ?_, ?_, ?_, ?_⟩ <;>
      decide +kernel
  · refine ⟨State.reset, 7, ?_⟩ <;>
      decide +kernel
  · refine ⟨sFabricBarriers2, 7, 255, 3, ?_, ?_, ?_, ?_, ?_, ?_⟩ <;>
      decide +kernel
  · refine ⟨sFabricBarriers2, 7, 255, 0, ?_, ?_, ?_, ?_, ?_, ?_, ?_⟩ <;>
      decide +kernel
  · refine ⟨sFabricBarriers3, 7, 255, 2, ?_, ?_, ?_, ?_, ?_, ?_, ?_⟩ <;>
      decide +kernel
  · refine ⟨sFabricBarriers2, 7, 7, 3, ?_, ?_, ?_, ?_⟩ <;>
      decide +kernel
  · refine ⟨State.reset, (arriveCheck State.reset (arrival State.reset 7 7) 35 [] true).1, 7, 7, 35, [], true, Instr.fbArrive
    7 7 [] true, List.mem_cons_self, ?_⟩ <;>
      decide +kernel
  · refine ⟨sFabricBarriers7, vFabricBarriers1, 0, 0, 35, vFabricBarriers0, true, Instr.fbArrive 0 0 vFabricBarriers0 true,
    (Option.get ((arriveCheck sFabricBarriers7 (arrival sFabricBarriers7 0 0) 35 vFabricBarriers0 true).2)
    (by decide +kernel)), List.mem_cons_self, ?_, ?_⟩ <;>
      decide +kernel
  · refine ⟨sFabricBarriers7, vFabricBarriers3, 255, 255, 35, vFabricBarriers2, true, Instr.fbArrive 255 255 vFabricBarriers2
    true, (Option.get ((arriveCheck sFabricBarriers7 (arrival sFabricBarriers7 255 255) 35 vFabricBarriers2 true).2)
    (by decide +kernel)), List.mem_cons_self, ?_, ?_, ?_⟩ <;>
      decide +kernel
  · refine ⟨sFabricBarriers7, vFabricBarriers4, 0, 0, vFabricBarriers2, true, vFabricBarriers5, ?_, ?_, ?_, ?_⟩ <;>
      decide +kernel
  · refine ⟨sFabricBarriers5, 7, 255, 3, ?_, ?_, ?_, ?_, ?_, ?_⟩ <;>
      decide +kernel
  · refine ⟨sFabricBarriers6, 7, 255, 3, ?_, ?_, ?_, ?_, ?_, ?_, ?_⟩ <;>
      decide +kernel
  · refine ⟨sFabricBarriers5, 7, 255, 0, ?_, ?_, ?_, ?_, ?_⟩ <;>
      decide +kernel
  · refine ⟨sFabricBarriers5, 7, 255, 2, ?_, ?_, ?_, ?_, ?_, ?_⟩ <;>
      decide +kernel
  · refine ⟨sFabricBarriers9, vFabricBarriers7, 7, 7, vFabricBarriers6, true, vFabricBarriers8, ?_, ?_, ?_, ?_⟩ <;>
      decide +kernel
  · refine ⟨sFabricBarriers7, vFabricBarriers9, 0, 0, vFabricBarriers6, true, vFabricBarriers10, ?_, ?_, ?_, ?_⟩ <;>
      decide +kernel
  · refine ⟨sFabricBarriers7, vFabricBarriers12, 0, 0, vFabricBarriers11, true, vFabricBarriers13, ?_, ?_, ?_, ?_⟩ <;>
      decide +kernel
  · refine ⟨sFabricBarriers7, 0, 255, ?_, ?_, ⟨?_, ?_, ?_⟩⟩ <;>
      decide +kernel
  · refine ⟨State.reset, 7, 7, ?_, ?_, ?_⟩ <;>
      decide +kernel

theorem wit_VeLanes :
    ∃ (s s1 : State), ∃ (n ph k i w opc : Nat), ∃ (ecc : Ecc), ∃ (c : Nat → Nat → Ecc → Instr), (c, opc) ∈
    [(Instr.veRcp, 0x20), (Instr.veRsqrt, 0x21), (Instr.veSqrt, 0x22), (Instr.veExp2, 0x23), (Instr.veLog2, 0x24),
    (Instr.veSinpi, 0x25), (Instr.veCospi, 0x26), (Instr.veTanh, 0x27)] ∧ VeIssues s s1 n ph opc k i w ecc := by
  refine ⟨veState 0x20 id, (vePre (veState 0x20 id) 1151 63 15 0 Ecc.none).1, 1151, 63, 15, 0, 32, 32, Ecc.none,
    Instr.veRcp, List.mem_cons_self, ⟨?_, ?_, ?_, ?_⟩⟩ <;>
    decide +kernel

theorem wit_VeOthers :
    (∃ (s s1 : State), ∃ (n ph k i w : Nat), ∃ (ecc : Ecc), VeIssues s s1 n ph 0x00 k i w ecc) ∧
    (∃ (s s1 : State), ∃ (n ph k i w : Nat), ∃ (ecc : Ecc), VeIssues s s1 n ph 0x55 k i w ecc) ∧
    (∃ (s s1 : State), ∃ (n ph k i w : Nat), ∃ (ecc : Ecc), VeIssues s s1 n ph 0x09 k i w ecc ∧ n < 1152 ∧ k < 16) ∧
    (∃ (s s1 : State), ∃ (n ph k i w : Nat), ∃ (ecc : Ecc), VeIssues s s1 n ph 0x0A k i w ecc) ∧
    (∃ (s s1 : State), ∃ (n ph k i w : Nat), ∃ (ecc : Ecc), ∃ (c : Nat → Nat → Ecc → Instr), ∃ (opc empty : Nat), ∃ (f
    : Nat → Nat → Nat), (c, opc, empty, f) ∈ [(Instr.veRadd, 0x3A, 0, vAdd (vTy w)), (Instr.veRmax, 0x3B, (if vTy w =
    0 then 0xFF800000 else if vTy w = 3 then 0x80000000 else 0), vMax (vTy w)), (Instr.veRmin, 0x3C, (if vTy w = 0
    then 0x7F800000 else if vTy w = 3 then 0x7FFFFFFF else 0xFFFFFFFF), vMin (vTy w))] ∧ VeIssues s s1 n ph opc k i w
    ecc) := by
  refine ⟨?_, ?_, ?_, ?_, ?_⟩
  · refine ⟨veState 0x0 id, (vePre (veState 0x0 id) 1151 63 15 0 Ecc.none).1, 1151, 63, 15, 0, 0, Ecc.none, ⟨?_, ?_, ?_, ?_⟩⟩ <;>
      decide +kernel
  · refine ⟨veState 0x55 id, (vePre (veState 0x55 id) 1151 63 15 0 Ecc.none).1, 1151, 63, 15, 0, 85, Ecc.none, ⟨?_, ?_, ?_,
    ?_⟩⟩ <;>
      decide +kernel
  · refine ⟨veState 0x9 id, (vePre (veState 0x9 id) 1151 63 15 0 Ecc.none).1, 1151, 63, 15, 0, 9, Ecc.none, ⟨?_, ?_, ?_, ?_⟩,
    ?_, ?_⟩ <;>
      decide +kernel
  · refine ⟨veState 0xA id, (vePre (veState 0xA id) 1151 63 15 0 Ecc.none).1, 1151, 63, 15, 0, 10, Ecc.none, ⟨?_, ?_, ?_,
    ?_⟩⟩ <;>
      decide +kernel
  · refine ⟨veState 0x3A id, (vePre (veState 0x3A id) 1151 63 15 0 Ecc.none).1, 1151, 63, 15, 0, 58, Ecc.none, Instr.veRadd,
    58, 0, vAdd (vTy 58), List.mem_cons_self, ⟨?_, ?_, ?_, ?_⟩⟩ <;>
      decide +kernel

/-- A state of the witnesses of `VeMemory`. -/
def sVeMemory19 : State :=
  veState (0x30 + 2 ^ 24 * 0 + 1 * 2 ^ 16 + 4096 * 2 ^ 32) id

/-- A state of the witnesses of `VeMemory`. -/
def sVeMemory29 : State :=
  { veState (0x30 + 128 * 2 ^ 32) id with poison := [(lmDpa 1151 / 64 + 2, true)] }

def vVeMemory0 : State :=
  (vLoadCheck (veCounted ((vePre (veState 0x30 id) 1151 63 15 0 Ecc.none).1) 1151) 1151 15 (vAddrs (strand (veState
  0x30 id) 1151 63) 48) Ecc.none).1

def vVeMemory1 : State :=
  (vLoadCheck (veCounted ((vePre (veState (0x34 + 3 * 2 ^ 28) id) 1151 63 15 0 Ecc.none).1) 1151) 1151 15 (vAddrs
  (strand (veState (0x34 + 3 * 2 ^ 28) id) 1151 63) 805306420) Ecc.none).1

def vVeMemory2 : State :=
  (vLoadCheck (veCounted ((vePre sVeMemory29 1151 63 15 0 Ecc.none).1) 1151) 1151 15 (vAddrs (strand sVeMemory29 1151
  63) 549755813936) Ecc.none).1

theorem wit_VeMemory :
    (∃ (s s1 s2 : State), ∃ (n ph k i w opc : Nat), ∃ (ecc : Ecc), ∃ (c : Nat → Nat → Ecc → Instr), (c, opc) ∈
    [(Instr.veLd, 0x30), (Instr.veLdx, 0x32)] ∧ VeIssues s s1 n ph opc k i w ecc ∧ vRangeBad (veCounted s1 n) n k
    (strand s n ph) w = false ∧ vLoadCheck (veCounted s1 n) n k (vAddrs (strand s n ph) w) ecc = (s2, none)) ∧
    (∃ (s s1 s2 : State), ∃ (n ph k i w : Nat), ∃ (ecc : Ecc), VeIssues s s1 n ph 0x34 k i w ecc ∧ vRangeBad (veCounted
    s1 n) n k (strand s n ph) w = false ∧ vLoadCheck (veCounted s1 n) n k (vAddrs (strand s n ph) w) ecc = (s2, none)) ∧
    (∃ (s s1 : State), ∃ (n ph k i w opc : Nat), ∃ (ecc : Ecc), ∃ (c : Nat → Nat → Ecc → Instr), (c, opc) ∈
    [(Instr.veLd, 0x30), (Instr.veLdx, 0x32), (Instr.veSld, 0x34)] ∧ VeIssues s s1 n ph opc k i w ecc ∧ vRangeBad
    (veCounted s1 n) n k (strand s n ph) w = true) ∧
    (∃ (s s1 s2 : State), ∃ (n ph k i w opc er : Nat), ∃ (ecc : Ecc), ∃ (c : Nat → Nat → Ecc → Instr), (c, opc) ∈
    [(Instr.veLd, 0x30), (Instr.veLdx, 0x32), (Instr.veSld, 0x34)] ∧ VeIssues s s1 n ph opc k i w ecc ∧ vRangeBad
    (veCounted s1 n) n k (strand s n ph) w = false ∧ vLoadCheck (veCounted s1 n) n k (vAddrs (strand s n ph) w) ecc =
    (s2, some er)) ∧
    (∃ (s s1 : State), ∃ (n ph k i w opc : Nat), ∃ (ecc : Ecc), ∃ (c : Nat → Nat → Ecc → Instr), (c, opc) ∈
    [(Instr.veSt, 0x31), (Instr.veStx, 0x33), (Instr.veSst, 0x35)] ∧ VeIssues s s1 n ph opc k i w ecc ∧ vRangeBad
    (veCounted s1 n) n k (strand s n ph) w = false ∧ Memory.wf s1.mem = true) ∧
    (∃ (s s1 : State), ∃ (n ph k i w opc : Nat), ∃ (ecc : Ecc), ∃ (c : Nat → Nat → Ecc → Instr), (c, opc) ∈
    [(Instr.veSt, 0x31), (Instr.veStx, 0x33), (Instr.veSst, 0x35)] ∧ VeIssues s s1 n ph opc k i w ecc ∧ vRangeBad
    (veCounted s1 n) n k (strand s n ph) w = true) := by
  refine ⟨?_, ?_, ?_, ?_, ?_, ?_⟩
  · refine ⟨veState 0x30 id, (vePre (veState 0x30 id) 1151 63 15 0 Ecc.none).1, vVeMemory0, 1151, 63, 15, 0, 48, 48,
    Ecc.none, Instr.veLd, List.mem_cons_self, ⟨?_, ?_, ?_, ?_⟩, ?_, ?_⟩ <;>
      decide +kernel
  · refine ⟨veState (0x34 + 3 * 2 ^ 28) id, (vePre (veState (0x34 + 3 * 2 ^ 28) id) 1151 63 15 0 Ecc.none).1, vVeMemory1,
    1151, 63, 15, 0, 805306420, Ecc.none, ⟨?_, ?_, ?_, ?_⟩, ?_, ?_⟩ <;>
      decide +kernel
  · refine ⟨sVeMemory19, (vePre sVeMemory19 1151 63 15 0 Ecc.none).1, 1151, 63, 15, 0, 17592186110000, 48, Ecc.none,
    Instr.veLd, List.mem_cons_self, ⟨?_, ?_, ?_, ?_⟩, ?_⟩ <;>
      decide +kernel
  · refine ⟨sVeMemory29, (vePre sVeMemory29 1151 63 15 0 Ecc.none).1, vVeMemory2, 1151, 63, 15, 0, 549755813936, 48, 268,
    Ecc.none, Instr.veLd, List.mem_cons_self, ⟨?_, ?_, ?_, ?_⟩, ?_, ?_⟩ <;>
      decide +kernel
  · refine ⟨veState 0x31 id, (vePre (veState 0x31 id) 1151 63 15 0 Ecc.none).1, 1151, 63, 15, 0, 49, 49, Ecc.none,
    Instr.veSt, List.mem_cons_self, ⟨?_, ?_, ?_, ?_⟩, ?_, ?_⟩ <;>
      decide +kernel
  · refine ⟨veState (0x31 + 4096 * 2 ^ 32) id, (vePre (veState (0x31 + 4096 * 2 ^ 32) id) 1151 63 15 0 Ecc.none).1, 1151, 63,
    15, 0, 17592186044465, 49, Ecc.none, Instr.veSt, List.mem_cons_self, ⟨?_, ?_, ?_, ?_⟩, ?_⟩ <;>
      decide +kernel

/-- A state of the witnesses of `VeStrands`. -/
def sVeStrands19 : State :=
  modStrand (withSlot (fun sl => { sl with st := .active, strands := [63] })) 1151 63 (fun x =>
  { x with launches := [⟨0, 0, 0, 0, 0⟩] })

/-- A state of the witnesses of `VeStrands`. -/
def sVeStrands21 : State :=
  modSlot (veState 0x53 id) 1151 15 (fun sl => { sl with blocks := [63] })

/-- A state of the witnesses of `VeStrands`. -/
def sVeStrands22 : State :=
  modSlot (veState 0x54 id) 1151 15 (fun sl => { sl with blocks := [63] })

/-- A state of the witnesses of `VeStrands`. -/
def sVeStrands23 : State :=
  modSync (modSlot (veState (0x53 + 2 ^ 48) id) 1151 15 (fun sl => { sl with blocks := [63] })) 1151 4032 (fun o =>
  { o with event := true })

def vVeStrands0 : Launch :=
  (List.head ((strand sVeStrands19 1151 63).launches) (by decide +kernel))

theorem wit_VeStrands :
    (∃ (s : State), ∃ (n ph k i : Nat), ∃ (l : Launch), ∃ (rest : List Launch), strandOwner s n ph = some (k, i) ∧
    (strand s n ph).launches = l :: rest ∧ running s n k = true ∧ (strand s n ph).run = .idle) ∧
    (∃ (s : State), ∃ (n ph : Nat), (strandOwner s n ph = none ∨ (strand s n ph).launches = [] ∨ (strand s n ph).run ≠
    .idle ∨ (∃ k i, strandOwner s n ph = some (k, i) ∧ running s n k = false))) ∧
    (∃ (s s1 : State), ∃ (n ph k i w o : Nat), ∃ (ecc : Ecc), VeIssues s s1 n ph 0x53 k i w ecc ∧ physObj s1 n k (bits
    (vImm w) 0 12) = some o ∧ ((syncObj s n o).event && decide (bits (vImm w) 16 16 ≠ 0)) = true) ∧
    (∃ (s s1 : State), ∃ (n ph k i w o : Nat), ∃ (ecc : Ecc), VeIssues s s1 n ph 0x53 k i w ecc ∧ physObj s1 n k (bits
    (vImm w) 0 12) = some o ∧ ((syncObj s n o).event && decide (bits (vImm w) 16 16 ≠ 0)) = false) ∧
    (∃ (s s1 : State), ∃ (n ph k i w o : Nat), ∃ (ecc : Ecc), VeIssues s s1 n ph 0x54 k i w ecc ∧ physObj s1 n k (bits
    (vImm w) 0 12) = some o) ∧
    (∃ (s s1 : State), ∃ (n ph k i w opc : Nat), ∃ (ecc : Ecc), ∃ (c : Nat → Nat → Ecc → Instr), (c, opc) ∈
    [(Instr.veWait, 0x53), (Instr.veSignal, 0x54)] ∧ VeIssues s s1 n ph opc k i w ecc ∧ physObj s1 n k (bits (vImm w)
    0 12) = none) := by
  refine ⟨?_, ?_, ?_, ?_, ?_, ?_⟩
  · refine ⟨sVeStrands19, 1151, 63, 15, 0, vVeStrands0, [], ?_, ?_, ?_, ?_⟩ <;>
      decide +kernel
  · exact ⟨veState 0x0 id, 1151, 1151,
    (by first | exact Or.inl (by decide +kernel) | exact Or.inr (Or.inl (by decide +kernel)) | exact Or.inr (Or.inr (Or.inl (by decide +kernel))) | exact Or.inr (Or.inr (Or.inr ((opt_ex_pair (by decide +kernel))))))⟩
  · refine ⟨sVeStrands23, (vePre sVeStrands23 1151 63 15 0 Ecc.none).1, 1151, 63, 15, 0, 281474976710739, 4032, Ecc.none,
    ⟨?_, ?_, ?_, ?_⟩, ?_, ?_⟩ <;>
      decide +kernel
  · refine ⟨sVeStrands21, (vePre sVeStrands21 1151 63 15 0 Ecc.none).1, 1151, 63, 15, 0, 83, 4032, Ecc.none, ⟨?_, ?_, ?_,
    ?_⟩, ?_, ?_⟩ <;>
      decide +kernel
  · refine ⟨sVeStrands22, (vePre sVeStrands22 1151 63 15 0 Ecc.none).1, 1151, 63, 15, 0, 84, 4032, Ecc.none, ⟨?_, ?_, ?_,
    ?_⟩, ?_⟩ <;>
      decide +kernel
  · refine ⟨veState 0x53 id, (vePre (veState 0x53 id) 1151 63 15 0 Ecc.none).1, 1151, 63, 15, 0, 83, 83, Ecc.none,
    Instr.veWait, List.mem_cons_self, ⟨?_, ?_, ?_, ?_⟩, ?_⟩ <;>
      decide +kernel

/-- A state of the witnesses of `VeControl`. -/
def sVeControl20 : State :=
  veState (0x50 + 2 ^ 48) (fun x => { x with loops := List.replicate 4 ⟨0, 9, 1⟩ })

/-- A state of the witnesses of `VeControl`. -/
def sVeControl21 : State :=
  veState 0x51 (fun x => { x with loops := [⟨0, 9, 1⟩] })

/-- A state of the witnesses of `VeControl`. -/
def sVeControl22 : State :=
  veState 0 (fun x => { x with pc := 0x10000 })

theorem wit_VeControl :
    (∃ (s s1 : State), ∃ (n ph k i w : Nat), ∃ (ecc : Ecc), VeIssues s s1 n ph 0x50 k i w ecc ∧ (¬ (1 ≤ bits (vImm w)
    16 16 ∧ bits (vImm w) 16 16 ≤ 4096 ∧ ∀ l ∈ (strand s n ph).loops, (strand s n ph).pc + bits (vImm w) 16 16 ≤
    l.last))) ∧
    (∃ (s s1 : State), ∃ (n ph k i w : Nat), ∃ (ecc : Ecc), VeIssues s s1 n ph 0x50 k i w ecc ∧ (1 ≤ bits (vImm w) 16
    16 ∧ bits (vImm w) 16 16 ≤ 4096 ∧ ∀ l ∈ (strand s n ph).loops, (strand s n ph).pc + bits (vImm w) 16 16 ≤ l.last)
    ∧ (strand s n ph).loops.length < 4) ∧
    (∃ (s s1 : State), ∃ (n ph k i w : Nat), ∃ (ecc : Ecc), VeIssues s s1 n ph 0x50 k i w ecc ∧ (1 ≤ bits (vImm w) 16
    16 ∧ bits (vImm w) 16 16 ≤ 4096 ∧ ∀ l ∈ (strand s n ph).loops, (strand s n ph).pc + bits (vImm w) 16 16 ≤ l.last)
    ∧ 4 ≤ (strand s n ph).loops.length) ∧
    (∃ (s s1 : State), ∃ (n ph k i w : Nat), ∃ (ecc : Ecc), VeIssues s s1 n ph 0x51 k i w ecc ∧ (strand s n ph).loops =
    []) ∧
    (∃ (s s1 : State), ∃ (n ph k i w : Nat), ∃ (ecc : Ecc), VeIssues s s1 n ph 0x51 k i w ecc ∧ (strand s n ph).loops ≠
    []) ∧
    (∃ (s s1 : State), ∃ (n ph k i w : Nat), ∃ (ecc : Ecc), VeIssues s s1 n ph 0x52 k i w ecc) ∧
    (∃ e, ∃ (s : State), ∃ (n ph : Nat), e ∈ veCommands ∧ veFetch s n ph = .none) ∧
    (∃ e, ∃ (s : State), ∃ (n ph : Nat), ∃ k i, e ∈ veCommands ∧ veFetch s n ph = .range k i) ∧
    (∃ e, ∃ (s : State), ∃ (n ph : Nat), ∃ k i w, e ∈ veCommands ∧ veFetch s n ph = .ins k i w ∧ vAssigned (vOpc w) =
    true ∧ vOpc w ≠ e.2) ∧
    (∃ e, ∃ (s : State), ∃ (n ph : Nat), ∃ (ecc : Ecc), ∃ k i w, ∃ (s1 : State), e ∈ veCommands ∧ veFetch s n ph = .ins
    k i w ∧ (vAssigned (vOpc w) = false ∨ vOpc w = e.2) ∧ vePre s n ph k i ecc = (s1, false)) ∧
    (∃ e, ∃ (s : State), ∃ (n ph : Nat), ∃ (ecc : Ecc), ∃ k i w, ∃ (s1 : State), e ∈ veCommands ∧ veFetch s n ph = .ins
    k i w ∧ (vAssigned (vOpc w) = false ∨ vOpc w = e.2) ∧ vePre s n ph k i ecc = (s1, true) ∧ vBad w = true) ∧
    (∃ (s : State), ∃ (n ph : Nat), veFetch s n ph = .none) ∧
    (∃ (s : State), ∃ (n ph : Nat), ∃ k i, veFetch s n ph = .range k i) ∧
    (∃ (s : State), ∃ (n ph : Nat), ∃ k i w, veFetch s n ph = .ins k i w ∧ vBad w = false) ∧
    (∃ (s : State), ∃ (n ph : Nat), ∃ (ecc : Ecc), ∃ k i w, ∃ (s1 : State), veFetch s n ph = .ins k i w ∧ vBad w = true
    ∧ vePre s n ph k i ecc = (s1, false)) ∧
    (∃ (s : State), ∃ (n ph : Nat), ∃ (ecc : Ecc), ∃ k i w, ∃ (s1 : State), veFetch s n ph = .ins k i w ∧ vBad w = true
    ∧ vePre s n ph k i ecc = (s1, true)) ∧
    (∃ (s : State), ∃ (n ph k i w : Nat), veFetch s n ph = .ins k i w) := by
  refine ⟨?_, ?_, ?_, ?_, ?_, ?_, ?_, ?_, ?_, ?_, ?_, ?_, ?_, ?_, ?_, ?_, ?_⟩
  · refine ⟨veState 0x50 id, (vePre (veState 0x50 id) 1151 63 15 0 Ecc.none).1, 1151, 63, 15, 0, 80, Ecc.none, ⟨?_, ?_, ?_,
    ?_⟩, ?_⟩ <;>
      decide +kernel
  · refine ⟨veState (0x50 + 4096 * 2 ^ 48) id, (vePre (veState (0x50 + 4096 * 2 ^ 48) id) 1151 63 15 0 Ecc.none).1, 1151, 63,
    15, 0, 1152921504606847056, Ecc.none, ⟨?_, ?_, ?_, ?_⟩, ⟨?_, ?_, ?_⟩, ?_⟩ <;>
      decide +kernel
  · refine ⟨sVeControl20, (vePre sVeControl20 1151 63 15 0 Ecc.none).1, 1151, 63, 15, 0, 281474976710736, Ecc.none, ⟨?_, ?_,
    ?_, ?_⟩, ⟨?_, ?_, ?_⟩, ?_⟩ <;>
      decide +kernel
  · refine ⟨veState 0x51 id, (vePre (veState 0x51 id) 1151 63 15 0 Ecc.none).1, 1151, 63, 15, 0, 81, Ecc.none, ⟨?_, ?_, ?_,
    ?_⟩, ?_⟩ <;>
      decide +kernel
  · refine ⟨sVeControl21, (vePre sVeControl21 1151 63 15 0 Ecc.none).1, 1151, 63, 15, 0, 81, Ecc.none, ⟨?_, ?_, ?_, ?_⟩, ?_⟩ <;>
      decide +kernel
  · refine ⟨veState 0x52 id, (vePre (veState 0x52 id) 1151 63 15 0 Ecc.none).1, 1151, 63, 15, 0, 82, Ecc.none, ⟨?_, ?_, ?_,
    ?_⟩⟩ <;>
      decide +kernel
  · refine ⟨(Instr.veNop, 0x00), veState 0x0 id, 1151, 1151, List.mem_cons_self, ?_⟩ <;>
      decide +kernel
  · refine ⟨(Instr.veNop, 0x00), sVeControl22, 1151, 63, 15, 0, List.mem_cons_self, ?_⟩ <;>
      decide +kernel
  · refine ⟨(Instr.veNop, 0x00), veState 0x55 id, 1151, 63, 15, 0, 85, List.mem_cons_self, ?_, ?_, ?_⟩ <;>
      decide +kernel
  · refine ⟨(Instr.veNop, 0x00), veState 0x0 id, 1151, 63, Ecc.uncorr, 15, 0, 0, (vePre (veState 0x0 id) 1151 63 15 0
    Ecc.uncorr).1, List.mem_cons_self, ?_, ?_, ?_⟩ <;>
      decide +kernel
  · refine ⟨(Instr.veNop, 0x00), veState 0xFF id, 1151, 63, Ecc.none, 15, 0, 255, (vePre (veState 0xFF id) 1151 63 15 0
    Ecc.none).1, List.mem_cons_self, ?_, ?_, ?_, ?_⟩ <;>
      decide +kernel
  · refine ⟨veState 0x0 id, 1151, 1151, ?_⟩ <;>
      decide +kernel
  · refine ⟨sVeControl22, 1151, 63, 15, 0, ?_⟩ <;>
      decide +kernel
  · refine ⟨veState 0x0 id, 1151, 63, 15, 0, 0, ?_, ?_⟩ <;>
      decide +kernel
  · refine ⟨veState 0xFF id, 1151, 63, Ecc.uncorr, 15, 0, 255, (vePre (veState 0xFF id) 1151 63 15 0 Ecc.uncorr).1, ?_, ?_,
    ?_⟩ <;>
      decide +kernel
  · refine ⟨veState 0xFF id, 1151, 63, Ecc.none, 15, 0, 255, (vePre (veState 0xFF id) 1151 63 15 0 Ecc.none).1, ?_, ?_, ?_⟩ <;>
      decide +kernel
  · refine ⟨veState 0x0 id, 1151, 63, 15, 0, 0, ?_⟩ <;>
      decide +kernel

/-- A state of the witnesses of `TeTiles`. -/
def sTeTiles0 : State :=
  teState (padTo ([0, 0, 0, 0x11] ++ leBytes 32 2 ++ [0, 0] ++ leBytes 0 4 ++ leBytes 64 4 ++ leBytes 0x1000 4 ++
  leBytes 64 4) 64)

/-- A state of the witnesses of `TeTiles`. -/
def sTeTiles2 : State :=
  teState (padTo ([3, 0, 0, 0, 0, 0, 0, 0] ++ leBytes 0 4 ++ leBytes 256 4) 64)

/-- A state of the witnesses of `TeTiles`. -/
def sTeTiles3 : State :=
  teState (padTo ([1, 0, 0, 0, 0, 0, 0, 0] ++ leBytes 0 4 ++ leBytes 64 4) 64)

/-- A state of the witnesses of `TeTiles`. -/
def sTeTiles6 : State :=
  teState (padTo ([3, 0, 0, 0, 0, 0, 0, 0] ++ leBytes 0x10000000 4 ++ leBytes 256 4) 64)

/-- A state of the witnesses of `TeTiles`. -/
def sTeTiles8 : State :=
  modCore State.reset 1151 (fun c => { c with teRun := [{ slot := 15 }] })

/-- A state of the witnesses of `TeTiles`. -/
def sTeTiles9 : State :=
  modCore (teState (padTo [2] 64)) 0 (fun c => { c with teq := [] })

/-- A state of the witnesses of `TeTiles`. -/
def sTeTiles10 : State :=
  modCore (teState (padTo [2] 64)) 0 (fun c => { c with teRun := [{ kind := 1, bank := 7 }] })

/-- A state of the witnesses of `TeTiles`. -/
def sTeTiles12 : State :=
  { teState (padTo ([3, 0, 0, 0, 0, 0, 0, 0] ++ leBytes 0 4 ++ leBytes 256 4) 64) with poison := [(lmDpa 0 / 64, true)] }

def vTeTiles0 : TeItem :=
  (Option.get ((teFetch sTeTiles0 0 0 Ecc.none).2) (by decide +kernel)).1

def vTeTiles1 : List Byte :=
  (Option.get ((teFetch sTeTiles0 0 0 Ecc.none).2) (by decide +kernel)).2

def vTeTiles2 : State :=
  (teCheck (if Ecc.none = .corr then recErr ((teFetch sTeTiles0 0 0 Ecc.none).1) eTeAccEccCorr 0 0 7 (slot ((teFetch
  sTeTiles0 0 0 Ecc.none).1) 0 0).ctag else ((teFetch sTeTiles0 0 0 Ecc.none).1)) 0 0 (eccAfter Ecc.none 1)
  vTeTiles1).1

def vTeTiles3 : TeItem :=
  (Option.get ((teFetch (teState (padTo [2] 64)) 0 0 Ecc.none).2) (by decide +kernel)).1

def vTeTiles4 : List Byte :=
  (Option.get ((teFetch (teState (padTo [2] 64)) 0 0 Ecc.none).2) (by decide +kernel)).2

def vTeTiles5 : State :=
  (teCheck (if Ecc.none = .corr then recErr ((teFetch (teState (padTo [2] 64)) 0 0 Ecc.none).1) eTeAccEccCorr 0 0 7
  (slot ((teFetch (teState (padTo [2] 64)) 0 0 Ecc.none).1) 0 0).ctag else ((teFetch (teState (padTo [2] 64)) 0 0
  Ecc.none).1)) 0 0 (eccAfter Ecc.none 1) vTeTiles4).1

def vTeTiles6 : TeItem :=
  (Option.get ((teFetch sTeTiles2 0 0 Ecc.none).2) (by decide +kernel)).1

def vTeTiles7 : List Byte :=
  (Option.get ((teFetch sTeTiles2 0 0 Ecc.none).2) (by decide +kernel)).2

def vTeTiles8 : State :=
  (teCheck (if Ecc.none = .corr then recErr ((teFetch sTeTiles2 0 0 Ecc.none).1) eTeAccEccCorr 0 0 7 (slot ((teFetch
  sTeTiles2 0 0 Ecc.none).1) 0 0).ctag else ((teFetch sTeTiles2 0 0 Ecc.none).1)) 0 0 (eccAfter Ecc.none 1)
  vTeTiles7).1

def vTeTiles9 : TeItem :=
  (Option.get ((teFetch sTeTiles3 0 0 Ecc.none).2) (by decide +kernel)).1

def vTeTiles10 : List Byte :=
  (Option.get ((teFetch sTeTiles3 0 0 Ecc.none).2) (by decide +kernel)).2

def vTeTiles11 : State :=
  (teCheck (if Ecc.none = .corr then recErr ((teFetch sTeTiles3 0 0 Ecc.none).1) eTeAccEccCorr 0 0 7 (slot ((teFetch
  sTeTiles3 0 0 Ecc.none).1) 0 0).ctag else ((teFetch sTeTiles3 0 0 Ecc.none).1)) 0 0 (eccAfter Ecc.none 1)
  vTeTiles10).1

def vTeTiles12 : TeItem :=
  (Option.get ((teFetch (teState (padTo [9] 64)) 0 0 .none).2) (by decide +kernel)).1

def vTeTiles13 : List Byte :=
  (Option.get ((teFetch (teState (padTo [9] 64)) 0 0 .none).2) (by decide +kernel)).2

def vTeTiles14 : TeRun :=
  (Option.get ((core sTeTiles8 1151).teRun.find? (fun x => decide (x.kind ≠ 0) == false)) (by decide +kernel))

theorem wit_TeTiles :
    (∃ (s s1 u : State), ∃ (n k bank : Nat), ∃ (it : TeItem), ∃ (r : List Byte), ∃ (ecc : Ecc), TeTakes s s1 u n k 0
    bank it r ecc) ∧
    (∃ (s s1 u : State), ∃ (n k bank : Nat), ∃ (it : TeItem), ∃ (r : List Byte), ∃ (ecc : Ecc), TeTakes s s1 u n k 2
    bank it r ecc) ∧
    (∃ (s s1 u : State), ∃ (n k bank : Nat), ∃ (it : TeItem), ∃ (r : List Byte), ∃ (ecc : Ecc), TeTakes s s1 u n k 3
    bank it r ecc) ∧
    (∃ (s s1 u : State), ∃ (n k bank : Nat), ∃ (it : TeItem), ∃ (r : List Byte), ∃ (ecc : Ecc), TeTakes s s1 u n k 1
    bank it r ecc) ∧
    (∃ (s : State), ∃ (n k : Nat), ∃ e, e ∈ [(Instr.teMma, 0), (Instr.teWb, 1), (Instr.teZero, 2), (Instr.teLdacc, 3)]
    ∧ running s n k = false) ∧
    (∃ (s : State), ∃ (n k : Nat), ∃ (ecc : Ecc), ∃ e, ∃ (s1 : State), e ∈ [(Instr.teMma, 0), (Instr.teWb, 1),
    (Instr.teZero, 2), (Instr.teLdacc, 3)] ∧ running s n k = true ∧ teFetch s n k ecc = (s1, none)) ∧
    (∃ (s : State), ∃ (n k : Nat), ∃ (ecc : Ecc), ∃ e, ∃ (s1 : State), ∃ it r, e ∈ [(Instr.teMma, 0), (Instr.teWb, 1),
    (Instr.teZero, 2), (Instr.teLdacc, 3)] ∧ running s n k = true ∧ teFetch s n k ecc = (s1, some (it, r)) ∧ teValid r
    = false) ∧
    (∃ (s : State), ∃ (n k : Nat), ∃ (ecc : Ecc), ∃ e, ∃ (s1 : State), ∃ it r, e ∈ [(Instr.teMma, 0), (Instr.teWb, 1),
    (Instr.teZero, 2), (Instr.teLdacc, 3)] ∧ running s n k = true ∧ teFetch s n k ecc = (s1, some (it, r)) ∧ teValid r
    = true ∧ teKind r ≠ e.2) ∧
    (∃ (s : State), ∃ (n k : Nat), ∃ (ecc : Ecc), ∃ e, ∃ (s1 : State), ∃ it r, e ∈ [(Instr.teMma, 0), (Instr.teWb, 1),
    (Instr.teZero, 2), (Instr.teLdacc, 3)] ∧ running s n k = true ∧ teFetch s n k ecc = (s1, some (it, r)) ∧ teValid r
    = true ∧ teKind r = e.2 ∧ (slot s1 n k).banks[teAcc r]? = none) ∧
    (∃ (s : State), ∃ (n k : Nat), ∃ (ecc : Ecc), ∃ e, ∃ (s1 : State), ∃ it r bank, e ∈ [(Instr.teMma, 0), (Instr.teWb,
    1), (Instr.teZero, 2), (Instr.teLdacc, 3)] ∧ running s n k = true ∧ teFetch s n k ecc = (s1, some (it, r)) ∧
    teValid r = true ∧ teKind r = e.2 ∧ (slot s1 n k).banks[teAcc r]? = some bank ∧ (teReads r ++ teWrites r).any (fun
    x => winBytes s1 n k < x.1 + x.2) = true) ∧
    (∃ (s : State), ∃ (n k : Nat), ∃ (ecc : Ecc), ∃ e, ∃ (s1 : State), ∃ bank it r, e ∈ [(Instr.teMma, 0), (Instr.teWb,
    1), (Instr.teZero, 2), (Instr.teLdacc, 3)] ∧ TeMeets s s1 n k e.2 bank it r ecc ∧ teReady s1 n k bank r = false) ∧
    (∃ (s : State), ∃ (n k : Nat), ∃ (ecc : Ecc), ∃ e, ∃ (s1 : State), ∃ bank it r, e ∈ [(Instr.teMma, 0), (Instr.teWb,
    1), (Instr.teZero, 2), (Instr.teLdacc, 3)] ∧ TeMeets s s1 n k e.2 bank it r ecc ∧ teReady s1 n k bank r = true ∧
    ecc = .uncorr) ∧
    (∃ (s : State), ∃ (n k : Nat), ∃ (ecc : Ecc), ∃ e, ∃ (s1 : State), ∃ bank it r u er, e ∈ [(Instr.teMma, 0),
    (Instr.teWb, 1), (Instr.teZero, 2), (Instr.teLdacc, 3)] ∧ TeMeets s s1 n k e.2 bank it r ecc ∧ teReady s1 n k bank
    r = true ∧ ecc ≠ .uncorr ∧ teCheck (if ecc = .corr then recErr s1 eTeAccEccCorr n k bank (slot s1 n k).ctag else
    s1) n k (eccAfter ecc 1) r = (u, some er)) ∧
    (∃ (s : State), ∃ (n k : Nat), running s n k = false) ∧
    (∃ (s s1 : State), ∃ (n k : Nat), running s n k = true ∧ teFetch s n k .none = (s1, none)) ∧
    (∃ (s s1 : State), ∃ (n k : Nat), ∃ (it : TeItem), ∃ (r : List Byte), running s n k = true ∧ teFetch s n k .none =
    (s1, some (it, r)) ∧ teValid r = true) ∧
    (∃ (s s1 : State), ∃ (n k : Nat), ∃ (it : TeItem), ∃ (r : List Byte), running s n k = true ∧ teFetch s n k .none =
    (s1, some (it, r)) ∧ teValid r = false) ∧
    (∃ (s : State), ∃ (n : Nat), ∃ (port : Bool), (core s n).teRun.find? (fun x => decide (x.kind ≠ 0) == port) = none) ∧
    (∃ (s : State), ∃ (n : Nat), ∃ (port : Bool), ∃ (x : TeRun), ∃ (ecc : Ecc), (core s n).teRun.find? (fun x => decide
    (x.kind ≠ 0) == port) = some x ∧ ecc ≠ .uncorr) ∧
    (∃ (s : State), ∃ (n : Nat), ∃ (port : Bool), ∃ (x : TeRun), ∃ (ecc : Ecc), (core s n).teRun.find? (fun x => decide
    (x.kind ≠ 0) == port) = some x ∧ ecc = .uncorr) := by
  refine ⟨?_, ?_, ?_, ?_, ?_, ?_, ?_, ?_, ?_, ?_, ?_, ?_, ?_, ?_, ?_, ?_, ?_, ?_, ?_, ?_⟩
  · refine ⟨sTeTiles0, (teFetch sTeTiles0 0 0 Ecc.none).1, vTeTiles2, 0, 0, 7, vTeTiles0, vTeTiles1, Ecc.none, ⟨⟨?_, ?_, ?_,
    ?_, ?_, ?_⟩, ?_, ?_, ?_⟩⟩ <;>
      decide +kernel
  · refine ⟨teState (padTo [2] 64), (teFetch (teState (padTo [2] 64)) 0 0 Ecc.none).1, vTeTiles5, 0, 0, 7, vTeTiles3,
    vTeTiles4, Ecc.none, ⟨⟨?_, ?_, ?_, ?_, ?_, ?_⟩, ?_, ?_, ?_⟩⟩ <;>
      decide +kernel
  · refine ⟨sTeTiles2, (teFetch sTeTiles2 0 0 Ecc.none).1, vTeTiles8, 0, 0, 7, vTeTiles6, vTeTiles7, Ecc.none, ⟨⟨?_, ?_, ?_,
    ?_, ?_, ?_⟩, ?_, ?_, ?_⟩⟩ <;>
      decide +kernel
  · refine ⟨sTeTiles3, (teFetch sTeTiles3 0 0 Ecc.none).1, vTeTiles11, 0, 0, 7, vTeTiles9, vTeTiles10, Ecc.none, ⟨⟨?_, ?_,
    ?_, ?_, ?_, ?_⟩, ?_, ?_, ?_⟩⟩ <;>
      decide +kernel
  · refine ⟨State.reset, 0, 0, (Instr.teMma, 0), List.mem_cons_self, ?_⟩ <;>
      decide +kernel
  · refine ⟨sTeTiles9, 0, 0, Ecc.none, (Instr.teMma, 0), (teFetch sTeTiles9 0 0 Ecc.none).1, List.mem_cons_self, ?_, ?_⟩ <;>
      decide +kernel
  · refine ⟨teState (padTo [9] 64), 0, 0, Ecc.none, (Instr.teMma, 0), (teFetch (teState (padTo [9] 64)) 0 0 Ecc.none).1,
    (Option.get ((teFetch (teState (padTo [9] 64)) 0 0 Ecc.none).2) (by decide +kernel)).1, (Option.get ((teFetch
    (teState (padTo [9] 64)) 0 0 Ecc.none).2) (by decide +kernel)).2, List.mem_cons_self, ?_, ?_, ?_⟩ <;>
      decide +kernel
  · refine ⟨teState (padTo [2] 64), 0, 0, Ecc.none, (Instr.teMma, 0), (teFetch (teState (padTo [2] 64)) 0 0 Ecc.none).1,
    (Option.get ((teFetch (teState (padTo [2] 64)) 0 0 Ecc.none).2) (by decide +kernel)).1, (Option.get ((teFetch
    (teState (padTo [2] 64)) 0 0 Ecc.none).2) (by decide +kernel)).2, List.mem_cons_self, ?_, ?_, ?_, ?_⟩ <;>
      decide +kernel
  · refine ⟨teState (padTo [2, 9] 64), 0, 0, Ecc.none, (Instr.teZero, 2), (teFetch (teState (padTo [2, 9] 64)) 0 0
    Ecc.none).1, (Option.get ((teFetch (teState (padTo [2, 9] 64)) 0 0 Ecc.none).2) (by decide +kernel)).1,
    (Option.get ((teFetch (teState (padTo [2, 9] 64)) 0 0 Ecc.none).2) (by decide +kernel)).2, (List.mem_cons_of_mem _
    (List.mem_cons_of_mem _ List.mem_cons_self)), ?_, ?_, ?_, ?_, ?_⟩ <;>
      decide +kernel
  · refine ⟨sTeTiles6, 0, 0, Ecc.none, (Instr.teLdacc, 3), (teFetch sTeTiles6 0 0 Ecc.none).1, (Option.get ((teFetch
    sTeTiles6 0 0 Ecc.none).2) (by decide +kernel)).1, (Option.get ((teFetch sTeTiles6 0 0 Ecc.none).2)
    (by decide +kernel)).2, 7, (List.mem_cons_of_mem _ (List.mem_cons_of_mem _ (List.mem_cons_of_mem _
    List.mem_cons_self))), ?_, ?_, ?_, ?_, ?_, ?_⟩ <;>
      decide +kernel
  · refine ⟨sTeTiles10, 0, 0, Ecc.none, (Instr.teZero, 2), (teFetch sTeTiles10 0 0 Ecc.none).1, 7, (Option.get ((teFetch
    sTeTiles10 0 0 Ecc.none).2) (by decide +kernel)).1, (Option.get ((teFetch sTeTiles10 0 0 Ecc.none).2)
    (by decide +kernel)).2, (List.mem_cons_of_mem _ (List.mem_cons_of_mem _ List.mem_cons_self)), ⟨?_, ?_, ?_, ?_, ?_,
    ?_⟩, ?_⟩ <;>
      decide +kernel
  · refine ⟨sTeTiles0, 0, 0, Ecc.uncorr, (Instr.teMma, 0), (teFetch sTeTiles0 0 0 Ecc.uncorr).1, 7, (Option.get ((teFetch
    sTeTiles0 0 0 Ecc.uncorr).2) (by decide +kernel)).1, (Option.get ((teFetch sTeTiles0 0 0 Ecc.uncorr).2)
    (by decide +kernel)).2, List.mem_cons_self, ⟨?_, ?_, ?_, ?_, ?_, ?_⟩, ?_, ?_⟩ <;>
      decide +kernel
  · refine ⟨sTeTiles12, 0, 0, Ecc.none, (Instr.teLdacc, 3), (teFetch sTeTiles12 0 0 Ecc.none).1, 7, (Option.get ((teFetch
    sTeTiles12 0 0 Ecc.none).2) (by decide +kernel)).1, (Option.get ((teFetch sTeTiles12 0 0 Ecc.none).2)
    (by decide +kernel)).2, (teCheck (if Ecc.none = .corr then recErr ((teFetch sTeTiles12 0 0 Ecc.none).1)
    eTeAccEccCorr 0 0 7 (slot ((teFetch sTeTiles12 0 0 Ecc.none).1) 0 0).ctag else ((teFetch sTeTiles12 0 0
    Ecc.none).1)) 0 0 (eccAfter Ecc.none 1) ((Option.get ((teFetch sTeTiles12 0 0 Ecc.none).2)
    (by decide +kernel)).2)).1, 268, (List.mem_cons_of_mem _ (List.mem_cons_of_mem _ (List.mem_cons_of_mem _
    List.mem_cons_self))), ⟨?_, ?_, ?_, ?_, ?_, ?_⟩, ?_, ?_, ?_⟩ <;>
      decide +kernel
  · refine ⟨State.reset, 0, 0, ?_⟩ <;>
      decide +kernel
  · refine ⟨sTeTiles9, (teFetch sTeTiles9 0 0 .none).1, 0, 0, ?_, ?_⟩ <;>
      decide +kernel
  · refine ⟨sTeTiles0, (teFetch sTeTiles0 0 0 .none).1, 0, 0, (Option.get ((teFetch sTeTiles0 0 0 .none).2)
    (by decide +kernel)).1, (Option.get ((teFetch sTeTiles0 0 0 .none).2) (by decide +kernel)).2, ?_, ?_, ?_⟩ <;>
      decide +kernel
  · refine ⟨teState (padTo [9] 64), (teFetch (teState (padTo [9] 64)) 0 0 .none).1, 0, 0, vTeTiles12, vTeTiles13, ?_, ?_, ?_⟩ <;>
      decide +kernel
  · refine ⟨sTeTiles0, 0, false, ?_⟩ <;>
      decide +kernel
  · refine ⟨sTeTiles8, 1151, false, vTeTiles14, Ecc.none, ?_, ?_⟩ <;>
      decide +kernel
  · refine ⟨sTeTiles8, 1151, false, vTeTiles14, Ecc.uncorr, ?_, ?_⟩ <;>
      decide +kernel

/-- A state of the witnesses of `XeDescriptors`. -/
def sXeDescriptors2 : State :=
  xeState (padTo ([5, 0, 0, 0, 0x11, 0, 0, 0] ++ leBytes 0 8 ++ leBytes 0x100 8 ++ leBytes 4 4 ++ [1, 0, 1, 0]) 64) id

/-- A state of the witnesses of `XeDescriptors`. -/
def sXeDescriptors6 : State :=
  modSlot (xeState copyRec id) 0 0 (fun sl => { sl with secs := [] })

/-- A state of the witnesses of `XeDescriptors`. -/
def sXeDescriptors7 : State :=
  modCore (xeState copyRec id) 0 (fun c => { c with utlb := [] })

/-- A state of the witnesses of `XeDescriptors`. -/
def sXeDescriptors8 : State :=
  { xeState copyRec id with poison := [(0x10140 / 64, true)] }

/-- A state of the witnesses of `XeDescriptors`. -/
def sXeDescriptors10 : State :=
  modSlot (xeState (padTo ([5, 0, 0, 0, 0x11, 0, 0, 0] ++ leBytes 0 16 ++ leBytes 0 4 ++ [1, 0, 0xFF, 0xFF]) 64) id) 0
  0 (fun sl => { sl with secs := [(4, 1, 0x140, 64), (5, 1, 0x3FFF0000, 64)] })

/-- A state of the witnesses of `XeDescriptors`. -/
def sXeDescriptors11 : State :=
  { modSlot (xeState (padTo ([5, 0, 0, 0, 0x11, 0, 0, 0] ++ leBytes 0 16 ++ leBytes 0 4 ++ [1, 0, 0xFF, 0xFF]) 64) id) 0 0 (fun sl => { sl with secs := [(4, 1, 0x140, 64), (5, 1, 0x180, 64)] }) with poison := [(0x10180 / 64, true)] }

/-- A state of the witnesses of `XeDescriptors`. -/
def sXeDescriptors12 : State :=
  xeState (copyRec.set 1 2) (fun x => { x with descs := [{ record := copyRec, issued := 4 }] })

def vXeDescriptors0 : State :=
  (xeFetch (xeState copyRec id) 0 255 0 (Option.get ((stream (xeState copyRec id) 0 255).chain) (by decide +kernel))
  Ecc.none).1

def vXeDescriptors1 : List Byte :=
  (match ((xeFetch (xeState copyRec id) 0 255 0 (Option.get ((stream (xeState copyRec id) 0 255).chain)
  (by decide +kernel)) Ecc.none).2) with | .ok z_ => z_ | _ => [])

def vXeDescriptors2 : State :=
  (xeFetch (xeState (copyRec.set 5 1) id) 0 255 0 (Option.get ((stream (xeState (copyRec.set 5 1) id) 0 255).chain)
  (by decide +kernel)) Ecc.none).1

def vXeDescriptors3 : List Byte :=
  (match ((xeFetch (xeState (copyRec.set 5 1) id) 0 255 0 (Option.get ((stream (xeState (copyRec.set 5 1) id) 0
  255).chain) (by decide +kernel)) Ecc.none).2) with | .ok z_ => z_ | _ => [])

def vXeDescriptors4 : State :=
  (xeFetch sXeDescriptors2 0 255 0 (Option.get ((stream sXeDescriptors2 0 255).chain) (by decide +kernel)) Ecc.none).1

def vXeDescriptors5 : List Byte :=
  (match ((xeFetch sXeDescriptors2 0 255 0 (Option.get ((stream sXeDescriptors2 0 255).chain) (by decide +kernel))
  Ecc.none).2) with | .ok z_ => z_ | _ => [])

def vXeDescriptors6 : State :=
  (readTable vXeDescriptors4 0 0 (stream vXeDescriptors4 0 255) vXeDescriptors5 (eccAfter Ecc.none 1)).1

def vXeDescriptors7 : State :=
  (xeFetch sXeDescriptors10 0 255 0 (Option.get ((stream sXeDescriptors10 0 255).chain) (by decide +kernel))
  Ecc.none).1

def vXeDescriptors8 : List Byte :=
  (match ((xeFetch sXeDescriptors10 0 255 0 (Option.get ((stream sXeDescriptors10 0 255).chain) (by decide +kernel))
  Ecc.none).2) with | .ok z_ => z_ | _ => [])

def vXeDescriptors9 : State :=
  (readTable vXeDescriptors7 0 0 (stream vXeDescriptors7 0 255) vXeDescriptors8 (eccAfter Ecc.none 1)).1

def vXeDescriptors10 : State :=
  (xeFetch sXeDescriptors11 0 255 0 (Option.get ((stream sXeDescriptors11 0 255).chain) (by decide +kernel))
  Ecc.none).1

def vXeDescriptors11 : List Byte :=
  (match ((xeFetch sXeDescriptors11 0 255 0 (Option.get ((stream sXeDescriptors11 0 255).chain) (by decide +kernel))
  Ecc.none).2) with | .ok z_ => z_ | _ => [])

def vXeDescriptors12 : State :=
  (readTable vXeDescriptors10 0 0 (stream vXeDescriptors10 0 255) vXeDescriptors11 (eccAfter Ecc.none 1)).1

def vXeDescriptors13 : State :=
  (xeFetch sXeDescriptors7 0 255 0 (Option.get ((stream sXeDescriptors7 0 255).chain) (by decide +kernel)) Ecc.none).1

def vXeDescriptors14 : State :=
  (xeFetch sXeDescriptors8 0 255 0 (Option.get ((stream sXeDescriptors8 0 255).chain) (by decide +kernel)) Ecc.none).1

def vXeDescriptors15 : State :=
  (xeFetch sXeDescriptors12 0 255 0 (Option.get ((stream sXeDescriptors12 0 255).chain) (by decide +kernel))
  Ecc.none).1

def vXeDescriptors16 : State :=
  (xeFetch (xeState (copyRec.set 0 11) id) 0 255 0 (Option.get ((stream (xeState (copyRec.set 0 11) id) 0 255).chain)
  (by decide +kernel)) Ecc.none).1

theorem wit_XeDescriptors :
    (∃ e, ∃ (s s1 : State), ∃ (n ph k i : Nat), ∃ (r : List Byte), ∃ (ecc : Ecc), ∃ (s2 : State), ∃ (tb : Option (List
    Byte)), ∃ (ti : Nat), e ∈ xeKinds ∧ XeStarts s s1 n ph k i r ecc ∧ dKind r = e.2 ∧ (e.2 ≠ 5 → tb = none ∧ ti = 0 ∧
    s2 = s1) ∧ (e.2 = 5 → ∃ b, tb = some b ∧ readTable s1 n k (stream s1 n ph) r (eccAfter ecc 1) = (s2, .ok b ti)) ∧
    descOk s2 n k r (tb.getD []) = true) ∧
    (∃ e, ∃ (s s1 : State), ∃ (n ph k i : Nat), ∃ (r : List Byte), ∃ (ecc : Ecc), ∃ (s2 : State), ∃ (tb : Option (List
    Byte)), ∃ (ti : Nat), e ∈ xeKinds ∧ XeStarts s s1 n ph k i r ecc ∧ dKind r = e.2 ∧ (e.2 ≠ 5 → tb = none ∧ ti = 0 ∧
    s2 = s1) ∧ (e.2 = 5 → ∃ b, tb = some b ∧ readTable s1 n k (stream s1 n ph) r (eccAfter ecc 1) = (s2, .ok b ti)) ∧
    descOk s2 n k r (tb.getD []) = false) ∧
    (∃ e, ∃ (s s1 : State), ∃ (n ph k i : Nat), ∃ (r : List Byte), ∃ (ecc : Ecc), ∃ (s2 : State), e ∈ xeKinds ∧
    XeStarts s s1 n ph k i r ecc ∧ dKind r = e.2 ∧ e.2 = 5 ∧ readTable s1 n k (stream s1 n ph) r (eccAfter ecc 1) =
    (s2, .invalid)) ∧
    (∃ e, ∃ (s s1 : State), ∃ (n ph k i : Nat), ∃ (r : List Byte), ∃ (ecc : Ecc), ∃ (s2 : State), ∃ f ti, e ∈ xeKinds ∧
    XeStarts s s1 n ph k i r ecc ∧ dKind r = e.2 ∧ e.2 = 5 ∧ readTable s1 n k (stream s1 n ph) r (eccAfter ecc 1) =
    (s2, .fault f ti)) ∧
    (∃ e, ∃ (s s1 : State), ∃ (n ph k i : Nat), ∃ (r : List Byte), ∃ (ecc : Ecc), ∃ (s2 : State), ∃ er, e ∈ xeKinds ∧
    XeStarts s s1 n ph k i r ecc ∧ dKind r = e.2 ∧ e.2 = 5 ∧ readTable s1 n k (stream s1 n ph) r (eccAfter ecc 1) =
    (s2, .poison er)) ∧
    (∃ e, ∃ (s : State), ∃ (n ph : Nat), e ∈ xeKinds ∧ (streamOwner s n ph = none ∨ (stream s n ph).chain = none ∨ (∃ k
    i, streamOwner s n ph = some (k, i) ∧ streamReady s n ph k = false))) ∧
    (∃ e, ∃ (s : State), ∃ (n ph : Nat), ∃ k i c, e ∈ xeKinds ∧ XeFetches s n ph k i c ∧ secCount (slot s n k) 4 ≤
    c.first + (stream s n ph).next) ∧
    (∃ e, ∃ (s : State), ∃ (n ph : Nat), ∃ (ecc : Ecc), ∃ k i c, ∃ (s1 : State), ∃ o f, e ∈ xeKinds ∧ XeFetches s n ph
    k i c ∧ c.first + (stream s n ph).next < secCount (slot s n k) 4 ∧ xeFetch s n ph k c ecc = (s1, .fault o f)) ∧
    (∃ e, ∃ (s : State), ∃ (n ph : Nat), ∃ (ecc : Ecc), ∃ k i c, ∃ (s1 : State), ∃ er, e ∈ xeKinds ∧ XeFetches s n ph k
    i c ∧ c.first + (stream s n ph).next < secCount (slot s n k) 4 ∧ xeFetch s n ph k c ecc = (s1, .poison er)) ∧
    (∃ e, ∃ (s : State), ∃ (n ph : Nat), ∃ (ecc : Ecc), ∃ k i c, ∃ (s1 : State), ∃ r, e ∈ xeKinds ∧ XeFetches s n ph k
    i c ∧ c.first + (stream s n ph).next < secCount (slot s n k) 4 ∧ xeFetch s n ph k c ecc = (s1, .ok r) ∧ dKind r =
    e.2 ∧ dOrder r = true ∧ (stream s1 n ph).descs ≠ []) ∧
    (∃ e, ∃ (s : State), ∃ (n ph : Nat), ∃ (ecc : Ecc), ∃ k i c, ∃ (s1 : State), ∃ r, e ∈ xeKinds ∧ XeFetches s n ph k
    i c ∧ c.first + (stream s n ph).next < secCount (slot s n k) 4 ∧ xeFetch s n ph k c ecc = (s1, .ok r) ∧ dKind r ≠
    e.2 ∧ 1 ≤ dKind r ∧ dKind r ≤ 10) ∧
    (∃ e, ∃ (s : State), ∃ (n ph : Nat), ∃ (ecc : Ecc), ∃ k i c, ∃ (s1 : State), ∃ r, e ∈ xeKinds ∧ XeFetches s n ph k
    i c ∧ c.first + (stream s n ph).next < secCount (slot s n k) 4 ∧ xeFetch s n ph k c ecc = (s1, .ok r) ∧ (dKind r =
    0 ∨ 10 < dKind r)) := by
  refine ⟨?_, ?_, ?_, ?_, ?_, ?_, ?_, ?_, ?_, ?_, ?_, ?_⟩
  · refine ⟨(Instr.xeCopy, 1), xeState copyRec id, vXeDescriptors0, 0, 255, 0, 0, vXeDescriptors1, Ecc.none, vXeDescriptors0,
    none, 0, List.mem_cons_self, ⟨⟨(Option.get ((stream (xeState copyRec id) 0 255).chain) (by decide +kernel)), ⟨⟨?_,
    ?_, ?_⟩, ?_, ?_⟩⟩, ?_⟩, ?_, ?_, (fun h => absurd h (by decide)), ?_⟩ <;>
      decide +kernel
  · refine ⟨(Instr.xeCopy, 1), xeState (copyRec.set 5 1) id, vXeDescriptors2, 0, 255, 0, 0, vXeDescriptors3, Ecc.none,
    vXeDescriptors2, none, 0, List.mem_cons_self, ⟨⟨(Option.get ((stream (xeState (copyRec.set 5 1) id) 0 255).chain)
    (by decide +kernel)), ⟨⟨?_, ?_, ?_⟩, ?_, ?_⟩⟩, ?_⟩, ?_, ?_, (fun h => absurd h (by decide)), ?_⟩ <;>
      decide +kernel
  · refine ⟨(Instr.xeAgen, 5), sXeDescriptors2, vXeDescriptors4, 0, 255, 0, 0, vXeDescriptors5, Ecc.none, vXeDescriptors6,
    (List.mem_cons_of_mem _ (List.mem_cons_of_mem _ (List.mem_cons_of_mem _ (List.mem_cons_of_mem _
    List.mem_cons_self)))), ⟨⟨(Option.get ((stream sXeDescriptors2 0 255).chain) (by decide +kernel)), ⟨⟨?_, ?_, ?_⟩,
    ?_, ?_⟩⟩, ?_⟩, ?_, ?_, ?_⟩ <;>
      decide +kernel
  · refine ⟨(Instr.xeAgen, 5), sXeDescriptors10, vXeDescriptors7, 0, 255, 0, 0, vXeDescriptors8, Ecc.none, vXeDescriptors9,
    (match ((readTable vXeDescriptors7 0 0 (stream vXeDescriptors7 0 255) vXeDescriptors8 (eccAfter Ecc.none 1)).2)
    with | .fault z_ _ => z_ | _ => ⟨0, 0, 0, false, 0, 0, 0⟩), 0, (List.mem_cons_of_mem _ (List.mem_cons_of_mem _
    (List.mem_cons_of_mem _ (List.mem_cons_of_mem _ List.mem_cons_self)))), ⟨⟨(Option.get ((stream sXeDescriptors10 0
    255).chain) (by decide +kernel)), ⟨⟨?_, ?_, ?_⟩, ?_, ?_⟩⟩, ?_⟩, ?_, ?_, ?_⟩ <;>
      decide +kernel
  · refine ⟨(Instr.xeAgen, 5), sXeDescriptors11, vXeDescriptors10, 0, 255, 0, 0, vXeDescriptors11, Ecc.none,
    vXeDescriptors12, 532, (List.mem_cons_of_mem _ (List.mem_cons_of_mem _ (List.mem_cons_of_mem _
    (List.mem_cons_of_mem _ List.mem_cons_self)))), ⟨⟨(Option.get ((stream sXeDescriptors11 0 255).chain)
    (by decide +kernel)), ⟨⟨?_, ?_, ?_⟩, ?_, ?_⟩⟩, ?_⟩, ?_, ?_, ?_⟩ <;>
      decide +kernel
  · exact ⟨(Instr.xeCopy, 1), xeState copyRec id, 0, 0, List.mem_cons_self,
    (by first | exact Or.inl (by decide +kernel) | exact Or.inr (Or.inl (by decide +kernel)) | exact Or.inr (Or.inr ((opt_ex_pair (by decide +kernel)))))⟩
  · refine ⟨(Instr.xeCopy, 1), sXeDescriptors6, 0, 255, 0, 0, (Option.get ((stream sXeDescriptors6 0 255).chain)
    (by decide +kernel)), List.mem_cons_self, ⟨?_, ?_, ?_⟩, ?_⟩ <;>
      decide +kernel
  · refine ⟨(Instr.xeCopy, 1), sXeDescriptors7, 0, 255, Ecc.none, 0, 0, (Option.get ((stream sXeDescriptors7 0 255).chain)
    (by decide +kernel)), vXeDescriptors13, 0, (match ((xeFetch sXeDescriptors7 0 255 0 (Option.get ((stream
    sXeDescriptors7 0 255).chain) (by decide +kernel)) Ecc.none).2) with
    | .fault _ z_ => z_ | _ => ⟨0, 0, 0, false, 0, 0, 0⟩), List.mem_cons_self, ⟨?_, ?_, ?_⟩, ?_, ?_⟩ <;>
      decide +kernel
  · refine ⟨(Instr.xeCopy, 1), sXeDescriptors8, 0, 255, Ecc.none, 0, 0, (Option.get ((stream sXeDescriptors8 0 255).chain)
    (by decide +kernel)), vXeDescriptors14, 532, List.mem_cons_self, ⟨?_, ?_, ?_⟩, ?_, ?_⟩ <;>
      decide +kernel
  · refine ⟨(Instr.xeCopy, 1), sXeDescriptors12, 0, 255, Ecc.none, 0, 0, (Option.get ((stream sXeDescriptors12 0 255).chain)
    (by decide +kernel)), vXeDescriptors15, (match ((xeFetch sXeDescriptors12 0 255 0 (Option.get ((stream
    sXeDescriptors12 0 255).chain) (by decide +kernel)) Ecc.none).2) with | .ok z_ => z_ | _ => []),
    List.mem_cons_self, ⟨?_, ?_, ?_⟩, ?_, ?_, ?_, ?_, ?_⟩ <;>
      decide +kernel
  · refine ⟨(Instr.xeCopy, 1), sXeDescriptors2, 0, 255, Ecc.none, 0, 0, (Option.get ((stream sXeDescriptors2 0 255).chain)
    (by decide +kernel)), vXeDescriptors4, (match ((xeFetch sXeDescriptors2 0 255 0 (Option.get ((stream
    sXeDescriptors2 0 255).chain) (by decide +kernel)) Ecc.none).2) with | .ok z_ => z_ | _ => []),
    List.mem_cons_self, ⟨?_, ?_, ?_⟩, ?_, ?_, ?_, ?_, ?_⟩ <;>
      decide +kernel
  · refine ⟨(Instr.xeCopy, 1), xeState (copyRec.set 0 11) id, 0, 255, Ecc.none, 0, 0, (Option.get ((stream (xeState
    (copyRec.set 0 11) id) 0 255).chain) (by decide +kernel)), vXeDescriptors16, (match ((xeFetch (xeState
    (copyRec.set 0 11) id) 0 255 0 (Option.get ((stream (xeState (copyRec.set 0 11) id) 0 255).chain)
    (by decide +kernel)) Ecc.none).2) with | .ok z_ => z_ | _ => []), List.mem_cons_self, ⟨?_, ?_, ?_⟩, ?_, ?_, ?_⟩ <;>
      decide +kernel

/-- A state of the witnesses of `XeDescriptorWork`. -/
def sXeDescriptorWork0 : State :=
  xeState copyRec (fun x => { x with descs := [{ record := fillRec }] })

/-- A state of the witnesses of `XeDescriptorWork`. -/
def sXeDescriptorWork1 : State :=
  xeState copyRec (fun x => { x with descs := [{ record := copyRec }] })

/-- A state of the witnesses of `XeDescriptorWork`. -/
def sXeDescriptorWork2 : State :=
  xeState copyRec (fun x =>
  { x with descs := [{ record := copyRec, issued := 4, reads := [⟨lmDpa 0, lmDpa 0 + 256, true, true, 4, 0, []⟩] }] })

/-- A state of the witnesses of `XeDescriptorWork`. -/
def sXeDescriptorWork4 : State :=
  xeState copyRec (fun x => { x with st := .idle, waiting := [⟨1, 0, 0⟩] })

/-- A state of the witnesses of `XeDescriptorWork`. -/
def sXeDescriptorWork5 : State :=
  xeState copyRec (fun x => { x with descs := [{ record := copyRec, issued := 4 }] })

/-- A state of the witnesses of `XeDescriptorWork`. -/
def sXeDescriptorWork9 : State :=
  modSlot (xeState copyRec (fun x =>
  { x with descs := [{ record := copyRec, issued := 4, reads := [⟨lmDpa 0, lmDpa 0 + 256, true, true, 4, 0, []⟩] }] }))
  0 0 (fun sl => { sl with ending := some ⟨3, 0, 3, false, 0⟩ })

/-- A state of the witnesses of `XeDescriptorWork`. -/
def sXeDescriptorWork10 : State :=
  modSlot (xeState copyRec (fun x =>
  { x with descs := [{ record := copyRec, issued := 4, reads := [⟨lmDpa 0, lmDpa 0 + 256, true, true, 4, 0, []⟩] }] }))
  0 0 (fun sl => { sl with st := .preempting })

/-- A state of the witnesses of `XeDescriptorWork`. -/
def sXeDescriptorWork11 : State :=
  { xeState copyRec (fun x => { x with descs := [{ record := copyRec, issued := 4, reads := [⟨lmDpa 0, lmDpa 0 + 256, true, true, 4, 0, []⟩] }] }) with poison := [(lmDpa 0 / 64, true)] }

/-- A state of the witnesses of `XeDescriptorWork`. -/
def sXeDescriptorWork12 : State :=
  xeState copyRec (fun x =>
  { x with descs := [{ record := (copyRec |>.take 8) ++ leBytes 0x100000 8 ++ (copyRec.drop 16) }] })

/-- A state of the witnesses of `XeDescriptorWork`. -/
def sXeDescriptorWork13 : State :=
  xeState copyRec (fun x =>
  { x with descs := [{ record := (copyRec |>.take 16) ++ leBytes 0x100000 8 ++ (copyRec.drop 24) }] })

/-- A state of the witnesses of `XeDescriptorWork`. -/
def sXeDescriptorWork16 : State :=
  modCore (xeState copyRec (fun x => { x with descs := [{ record := copyRec.set 4 0x10 }] })) 0 (fun c =>
  { c with utlb := [] })

/-- A state of the witnesses of `XeDescriptorWork`. -/
def sXeDescriptorWork17 : State :=
  modCore (xeState copyRec (fun x => { x with descs := [{ record := copyRec.set 4 0x01 }] })) 0 (fun c =>
  { c with utlb := [] })

/-- A state of the witnesses of `XeDescriptorWork`. -/
def sXeDescriptorWork18 : State :=
  xeState copyRec (fun x =>
  { x with descs := [{ record := (padTo ([3, 0, 0, 0, 0x11, 0, 0, 0] ++ leBytes 0 8 ++ leBytes 0x100 8 ++ leBytes 4 4 ++ [1, 0, 1, 0]) 64) }] })

/-- A state of the witnesses of `XeDescriptorWork`. -/
def sXeDescriptorWork21 : State :=
  xeState copyRec (fun x =>
  { x with descs := [{ record := copyRec, issued := 4, reads := List.replicate 512 ⟨lmDpa 0, lmDpa 0 + 256, true, true, 4, 0, []⟩ }, { record := copyRec, idx := 1 }] })

/-- A state of the witnesses of `XeDescriptorWork`. -/
def sXeDescriptorWork23 : State :=
  { xeState copyRec (fun x => { x with descs := [{ record := (padTo ([3, 0, 0, 0, 0x11, 0, 0, 0] ++ leBytes 0 8 ++ leBytes 0x100 8 ++ leBytes 4 4 ++ [1, 0, 0, 0]) 64) }] }) with poison := [(lmDpa 0 / 64, true)] }

def vXeDescriptorWork0 : ActDesc :=
  (Option.get ((stream sXeDescriptorWork0 0 255).descs.find? (fun (d : ActDesc) => !descIssued d)) (by decide +kernel))

def vXeDescriptorWork1 : State :=
  (if (dKind vXeDescriptorWork0.record = 3 || dKind vXeDescriptorWork0.record = 4) then (checkRead sXeDescriptorWork0
  (listAt sXeDescriptorWork0 0 0 vXeDescriptorWork0) 4 Ecc.none (slot sXeDescriptorWork0 0 0).ctag).1 else
  sXeDescriptorWork0)

def vXeDescriptorWork2 : State :=
  (xeAddr vXeDescriptorWork1 0 0 (dSpB vXeDescriptorWork0.record) (descAddr vXeDescriptorWork0.record
  (vXeDescriptorWork0.table.getD []) vXeDescriptorWork0.issued 0).2.1 (accessLen vXeDescriptorWork0 0) accWrite).1

def vXeDescriptorWork3 : ActDesc :=
  (Option.get ((stream sXeDescriptorWork1 0 255).descs.find? (fun (d : ActDesc) => !descIssued d)) (by decide +kernel))

def vXeDescriptorWork4 : State :=
  (if (dKind vXeDescriptorWork3.record = 3 || dKind vXeDescriptorWork3.record = 4) then (checkRead sXeDescriptorWork1
  (listAt sXeDescriptorWork1 0 0 vXeDescriptorWork3) 4 Ecc.none (slot sXeDescriptorWork1 0 0).ctag).1 else
  sXeDescriptorWork1)

def vXeDescriptorWork5 : State :=
  (xeAddr vXeDescriptorWork4 0 0 (dSpA vXeDescriptorWork3.record) (descAddr vXeDescriptorWork3.record
  (vXeDescriptorWork3.table.getD []) vXeDescriptorWork3.issued 0).1 (accessLen vXeDescriptorWork3 0) accRead).1

def vXeDescriptorWork6 : State :=
  (xeAddr vXeDescriptorWork5 0 0 (dSpB vXeDescriptorWork3.record) (descAddr vXeDescriptorWork3.record
  (vXeDescriptorWork3.table.getD []) vXeDescriptorWork3.issued 0).2.1 (accessLen vXeDescriptorWork3 0) accWrite).1

def vXeDescriptorWork7 : ActDesc :=
  (Option.get ((stream sXeDescriptorWork21 0 255).descs.find? (fun (d : ActDesc) => !descIssued d)) (by decide +kernel))

def vXeDescriptorWork8 : State :=
  (if (dKind vXeDescriptorWork7.record = 3 || dKind vXeDescriptorWork7.record = 4) then (checkRead sXeDescriptorWork21
  (listAt sXeDescriptorWork21 0 0 vXeDescriptorWork7) 4 Ecc.none (slot sXeDescriptorWork21 0 0).ctag).1 else
  sXeDescriptorWork21)

def vXeDescriptorWork9 : State :=
  (xeAddr vXeDescriptorWork8 0 0 (dSpA vXeDescriptorWork7.record) (descAddr vXeDescriptorWork7.record
  (vXeDescriptorWork7.table.getD []) vXeDescriptorWork7.issued 0).1 (accessLen vXeDescriptorWork7 0) accRead).1

def vXeDescriptorWork10 : State :=
  (xeAddr vXeDescriptorWork9 0 0 (dSpB vXeDescriptorWork7.record) (descAddr vXeDescriptorWork7.record
  (vXeDescriptorWork7.table.getD []) vXeDescriptorWork7.issued 0).2.1 (accessLen vXeDescriptorWork7 0) accWrite).1

def vXeDescriptorWork11 : ActDesc :=
  (Option.get ((stream sXeDescriptorWork12 0 255).descs.find? (fun (d : ActDesc) => !descIssued d)) (by decide +kernel))

def vXeDescriptorWork12 : State :=
  (if (dKind vXeDescriptorWork11.record = 3 || dKind vXeDescriptorWork11.record = 4) then (checkRead
  sXeDescriptorWork12 (listAt sXeDescriptorWork12 0 0 vXeDescriptorWork11) 4 Ecc.none (slot sXeDescriptorWork12 0
  0).ctag).1 else sXeDescriptorWork12)

def vXeDescriptorWork13 : State :=
  (if dKind vXeDescriptorWork11.record = 2 then (vXeDescriptorWork12, XeAddr.ok 0) else xeAddr vXeDescriptorWork12 0 0
  (dSpA vXeDescriptorWork11.record) (descAddr vXeDescriptorWork11.record (vXeDescriptorWork11.table.getD [])
  vXeDescriptorWork11.issued 0).1 (accessLen vXeDescriptorWork11 0) accRead).1

def vXeDescriptorWork14 : ActDesc :=
  (Option.get ((stream sXeDescriptorWork16 0 255).descs.find? (fun (d : ActDesc) => !descIssued d)) (by decide +kernel))

def vXeDescriptorWork15 : State :=
  (if (dKind vXeDescriptorWork14.record = 3 || dKind vXeDescriptorWork14.record = 4) then (checkRead
  sXeDescriptorWork16 (listAt sXeDescriptorWork16 0 0 vXeDescriptorWork14) 4 Ecc.none (slot sXeDescriptorWork16 0
  0).ctag).1 else sXeDescriptorWork16)

def vXeDescriptorWork16 : State :=
  (if dKind vXeDescriptorWork14.record = 2 then (vXeDescriptorWork15, XeAddr.ok 0) else xeAddr vXeDescriptorWork15 0 0
  (dSpA vXeDescriptorWork14.record) (descAddr vXeDescriptorWork14.record (vXeDescriptorWork14.table.getD [])
  vXeDescriptorWork14.issued 0).1 (accessLen vXeDescriptorWork14 0) accRead).1

def vXeDescriptorWork17 : FaultInfo :=
  (match ((if dKind vXeDescriptorWork14.record = 2 then (vXeDescriptorWork15, XeAddr.ok 0) else xeAddr
  vXeDescriptorWork15 0 0 (dSpA vXeDescriptorWork14.record) (descAddr vXeDescriptorWork14.record
  (vXeDescriptorWork14.table.getD []) vXeDescriptorWork14.issued 0).1 (accessLen vXeDescriptorWork14 0) accRead).2)
  with | .fault z_ => z_ | _ => ⟨0, 0, 0, false, 0, 0, 0⟩)

def vXeDescriptorWork18 : ActDesc :=
  (Option.get ((stream sXeDescriptorWork13 0 255).descs.find? (fun (d : ActDesc) => !descIssued d)) (by decide +kernel))

def vXeDescriptorWork19 : State :=
  (if (dKind vXeDescriptorWork18.record = 3 || dKind vXeDescriptorWork18.record = 4) then (checkRead
  sXeDescriptorWork13 (listAt sXeDescriptorWork13 0 0 vXeDescriptorWork18) 4 Ecc.none (slot sXeDescriptorWork13 0
  0).ctag).1 else sXeDescriptorWork13)

def vXeDescriptorWork20 : State :=
  (xeAddr ((if dKind vXeDescriptorWork18.record = 2 then (vXeDescriptorWork19, XeAddr.ok 0) else xeAddr
  vXeDescriptorWork19 0 0 (dSpA vXeDescriptorWork18.record) (descAddr vXeDescriptorWork18.record
  (vXeDescriptorWork18.table.getD []) vXeDescriptorWork18.issued 0).1 (accessLen vXeDescriptorWork18 0) accRead).1) 0
  0 (dSpB vXeDescriptorWork18.record) (descAddr vXeDescriptorWork18.record (vXeDescriptorWork18.table.getD [])
  vXeDescriptorWork18.issued 0).2.1 (accessLen vXeDescriptorWork18 0) accWrite).1

def vXeDescriptorWork21 : ActDesc :=
  (Option.get ((stream sXeDescriptorWork17 0 255).descs.find? (fun (d : ActDesc) => !descIssued d)) (by decide +kernel))

def vXeDescriptorWork22 : State :=
  (if (dKind vXeDescriptorWork21.record = 3 || dKind vXeDescriptorWork21.record = 4) then (checkRead
  sXeDescriptorWork17 (listAt sXeDescriptorWork17 0 0 vXeDescriptorWork21) 4 Ecc.none (slot sXeDescriptorWork17 0
  0).ctag).1 else sXeDescriptorWork17)

def vXeDescriptorWork23 : State :=
  (xeAddr ((if dKind vXeDescriptorWork21.record = 2 then (vXeDescriptorWork22, XeAddr.ok 0) else xeAddr
  vXeDescriptorWork22 0 0 (dSpA vXeDescriptorWork21.record) (descAddr vXeDescriptorWork21.record
  (vXeDescriptorWork21.table.getD []) vXeDescriptorWork21.issued 0).1 (accessLen vXeDescriptorWork21 0) accRead).1) 0
  0 (dSpB vXeDescriptorWork21.record) (descAddr vXeDescriptorWork21.record (vXeDescriptorWork21.table.getD [])
  vXeDescriptorWork21.issued 0).2.1 (accessLen vXeDescriptorWork21 0) accWrite).1

def vXeDescriptorWork24 : FaultInfo :=
  (match ((xeAddr ((if dKind vXeDescriptorWork21.record = 2 then (vXeDescriptorWork22, XeAddr.ok 0) else xeAddr
  vXeDescriptorWork22 0 0 (dSpA vXeDescriptorWork21.record) (descAddr vXeDescriptorWork21.record
  (vXeDescriptorWork21.table.getD []) vXeDescriptorWork21.issued 0).1 (accessLen vXeDescriptorWork21 0) accRead).1) 0
  0 (dSpB vXeDescriptorWork21.record) (descAddr vXeDescriptorWork21.record (vXeDescriptorWork21.table.getD [])
  vXeDescriptorWork21.issued 0).2.1 (accessLen vXeDescriptorWork21 0) accWrite).2) with
  | .fault z_ => z_ | _ => ⟨0, 0, 0, false, 0, 0, 0⟩)

def vXeDescriptorWork25 : ActDesc :=
  (Option.get ((stream sXeDescriptorWork18 0 255).descs.find? (fun (d : ActDesc) => !descIssued d)) (by decide +kernel))

def vXeDescriptorWork26 : ActDesc :=
  (Option.get ((stream sXeDescriptorWork23 0 255).descs.find? (fun (d : ActDesc) => !descIssued d)) (by decide +kernel))

def vXeDescriptorWork27 : State :=
  (checkRead sXeDescriptorWork23 (listAt sXeDescriptorWork23 0 0 vXeDescriptorWork26) 4 Ecc.none (slot
  sXeDescriptorWork23 0 0).ctag).1

def vXeDescriptorWork28 : ReadEnt :=
  (Option.get (((stream sXeDescriptorWork2 0 255).descs.flatMap (fun (d : ActDesc) => d.reads.map (fun q => (d.idx, q))))[0]?)
  (by decide +kernel)).2

def vXeDescriptorWork29 : ReadEnt :=
  (Option.get (((stream sXeDescriptorWork11 0 255).descs.flatMap (fun (d : ActDesc) => d.reads.map (fun q => (d.idx, q))))[0]?)
  (by decide +kernel)).2

def vXeDescriptorWork30 : ReadEnt :=
  (Option.get (((stream sXeDescriptorWork9 0 255).descs.flatMap (fun (d : ActDesc) => d.reads.map (fun q => (d.idx, q))))[0]?)
  (by decide +kernel)).2

def vXeDescriptorWork31 : ReadEnt :=
  (Option.get (((stream sXeDescriptorWork10 0 255).descs.flatMap (fun (d : ActDesc) => d.reads.map (fun q => (d.idx, q))))[0]?)
  (by decide +kernel)).2

def vXeDescriptorWork32 : Chain :=
  (List.head ((stream sXeDescriptorWork4 0 255).waiting) (by decide +kernel))

def vXeDescriptorWork33 : ActDesc :=
  (Option.get ((stream sXeDescriptorWork5 0 255).descs.find? descDone) (by decide +kernel))

def vXeDescriptorWork34 : Chain :=
  (Option.get ((stream sXeDescriptorWork5 0 255).chain) (by decide +kernel))

theorem wit_XeDescriptorWork :
    (∃ (s s1 s2 : State), ∃ (n ph k i idx dd : Nat), ∃ (d : ActDesc), ∃ (ecc : Ecc), XeIssues s n ph k i d ∧ XeIndexed
    s s1 n k d ecc idx ∧ dKind d.record = 2 ∧ xeAddr s1 n k (dSpB d.record) (descAddr d.record (d.table.getD [])
    d.issued idx).2.1 (accessLen d idx) accWrite = (s2, .ok dd) ∧ keyAbsent s2 dd = false ∧ (∀ g ∈ granules dd
    (accessLen d idx), deadGranule s2 (64 * g) = false) ∧ Memory.wf s2.mem = true) ∧
    (∃ (s s1 s2 s3 : State), ∃ (n ph k i idx sd dd : Nat), ∃ (d : ActDesc), ∃ (ecc : Ecc), XeIssues s n ph k i d ∧
    XeIndexed s s1 n k d ecc idx ∧ dKind d.record ≠ 2 ∧ xeAddr s1 n k (dSpA d.record) (descAddr d.record (d.table.getD
    []) d.issued idx).1 (accessLen d idx) accRead = (s2, .ok sd) ∧ xeAddr s2 n k (dSpB d.record) (descAddr d.record
    (d.table.getD []) d.issued idx).2.1 (accessLen d idx) accWrite = (s3, .ok dd) ∧ readsOut s3 n < 512) ∧
    (∃ (s s1 s2 s3 : State), ∃ (n ph k i idx sd dd : Nat), ∃ (d : ActDesc), ∃ (ecc : Ecc), XeIssues s n ph k i d ∧
    XeIndexed s s1 n k d ecc idx ∧ dKind d.record ≠ 2 ∧ xeAddr s1 n k (dSpA d.record) (descAddr d.record (d.table.getD
    []) d.issued idx).1 (accessLen d idx) accRead = (s2, .ok sd) ∧ xeAddr s2 n k (dSpB d.record) (descAddr d.record
    (d.table.getD []) d.issued idx).2.1 (accessLen d idx) accWrite = (s3, .ok dd) ∧ 512 ≤ readsOut s3 n) ∧
    (∃ (s s1 s2 : State), ∃ (n ph k i idx : Nat), ∃ (d : ActDesc), ∃ (ecc : Ecc), XeIssues s n ph k i d ∧ XeIndexed s
    s1 n k d ecc idx ∧
    let a := descAddr d.record (d.table.getD []) d.issued idx;
      let src := if dKind d.record = 2 then (s1, XeAddr.ok 0) else xeAddr s1 n k (dSpA d.record) a.1 (accessLen d idx)
        accRead; src = (s2, .invalid)) ∧
    (∃ (s s1 s2 : State), ∃ (n ph k i idx : Nat), ∃ (d : ActDesc), ∃ (ecc : Ecc), ∃ (f : FaultInfo), XeIssues s n ph k
    i d ∧ XeIndexed s s1 n k d ecc idx ∧
    let a := descAddr d.record (d.table.getD []) d.issued idx;
      let src := if dKind d.record = 2 then (s1, XeAddr.ok 0) else xeAddr s1 n k (dSpA d.record) a.1 (accessLen d idx)
        accRead; src = (s2, .fault f)) ∧
    (∃ (s s1 s2 : State), ∃ (n ph k i idx : Nat), ∃ (d : ActDesc), ∃ (ecc : Ecc), ∃ u sd, XeIssues s n ph k i d ∧
    XeIndexed s s1 n k d ecc idx ∧
    let a := descAddr d.record (d.table.getD []) d.issued idx;
      let src := if dKind d.record = 2 then (s1, XeAddr.ok 0) else xeAddr s1 n k (dSpA d.record) a.1 (accessLen d idx)
        accRead; src = (u, .ok sd) ∧ xeAddr u n k (dSpB d.record) a.2.1 (accessLen d idx) accWrite = (s2, .invalid)) ∧
    (∃ (s s1 s2 : State), ∃ (n ph k i idx : Nat), ∃ (d : ActDesc), ∃ (ecc : Ecc), ∃ (f : FaultInfo), ∃ u sd, XeIssues s
    n ph k i d ∧ XeIndexed s s1 n k d ecc idx ∧
    let a := descAddr d.record (d.table.getD []) d.issued idx;
      let src := if dKind d.record = 2 then (s1, XeAddr.ok 0) else xeAddr s1 n k (dSpA d.record) a.1 (accessLen d idx)
        accRead; src = (u, .ok sd) ∧ xeAddr u n k (dSpB d.record) a.2.1 (accessLen d idx) accWrite = (s2, .fault f)) ∧
    (∃ (s : State), ∃ (n ph k i : Nat), ∃ (d : ActDesc), XeIssues s n ph k i d ∧ (dKind d.record = 3 ∨ dKind d.record =
    4) ∧ (¬ ListInside s n k d)) ∧
    (∃ (s s1 : State), ∃ (n ph k i er : Nat), ∃ (d : ActDesc), ∃ (ecc : Ecc), XeIssues s n ph k i d ∧ (dKind d.record =
    3 ∨ dKind d.record = 4) ∧ ListInside s n k d ∧ checkRead s (listAt s n k d) 4 ecc (slot s n k).ctag = (s1, some
    er)) ∧
    (∃ (s : State), ∃ (n ph : Nat), (streamOwner s n ph = none ∨ (stream s n ph).st ≠ .run ∨ (stream s n ph).stopping =
    true ∨ (stream s n ph).descs.find? (fun d => !descIssued d) = none ∨ (∃ k i, streamOwner s n ph = some (k, i) ∧
    running s n k = false) ∨ (∃ d, (stream s n ph).descs.find? (fun d => !descIssued d) = some d ∧ dFabric d.record =
    true))) ∧
    (∃ (s : State), ∃ (n ph k i j idx : Nat), ∃ (q : ReadEnt), ∃ (ecc : Ecc), ∃ v, streamOwner s n ph = some (k, i) ∧
    ((stream s n ph).descs.flatMap (fun d => d.reads.map (fun q => (d.idx, q))))[j]? = some (idx, q) ∧
    let u := modDesc s n ph idx (fun d => { d with reads := d.reads.erase q }); ecc ≠ .uncorr ∧ (slot s n k).ending =
      none ∧ (slot s n k).st ≠ .preempting ∧ checkRead u q.src q.len ecc (slot s n k).ctag = (v, none) ∧ keyAbsent v
      q.src = false ∧ keyAbsent v q.dst = false ∧ (∀ g ∈ granules q.dst q.len, deadGranule v (64 * g) = false) ∧
      Memory.wf v.mem = true) ∧
    (∃ (s : State), ∃ (n ph k i j idx : Nat), ∃ (q : ReadEnt), ∃ (ecc : Ecc), ∃ v er, streamOwner s n ph = some (k, i)
    ∧ ((stream s n ph).descs.flatMap (fun d => d.reads.map (fun q => (d.idx, q))))[j]? = some (idx, q) ∧
    let u := modDesc s n ph idx (fun d => { d with reads := d.reads.erase q }); ecc ≠ .uncorr ∧ (slot s n k).ending =
      none ∧ (slot s n k).st ≠ .preempting ∧ checkRead u q.src q.len ecc (slot s n k).ctag = (v, some er)) ∧
    (∃ (s : State), ∃ (n ph k i j idx : Nat), ∃ (q : ReadEnt), ∃ (ecc : Ecc), streamOwner s n ph = some (k, i) ∧
    ((stream s n ph).descs.flatMap (fun d => d.reads.map (fun q => (d.idx, q))))[j]? = some (idx, q) ∧ ecc ≠ .uncorr ∧
    (slot s n k).ending.isSome = true) ∧
    (∃ (s : State), ∃ (n ph k i j idx : Nat), ∃ (q : ReadEnt), ∃ (ecc : Ecc), streamOwner s n ph = some (k, i) ∧
    ((stream s n ph).descs.flatMap (fun d => d.reads.map (fun q => (d.idx, q))))[j]? = some (idx, q) ∧ ecc ≠ .uncorr ∧
    (slot s n k).ending = none ∧ (slot s n k).st = .preempting) ∧
    (∃ (s : State), ∃ (n ph k i j idx : Nat), ∃ (q : ReadEnt), ∃ (ecc : Ecc), streamOwner s n ph = some (k, i) ∧
    ((stream s n ph).descs.flatMap (fun d => d.reads.map (fun q => (d.idx, q))))[j]? = some (idx, q) ∧ ecc = .uncorr) ∧
    (∃ (s : State), ∃ (n ph j : Nat), (streamOwner s n ph = none ∨ ((stream s n ph).descs.flatMap (fun d => d.reads.map
    (fun q => (d.idx, q))))[j]? = none)) ∧
    (∃ (s : State), ∃ (n ph k i : Nat), ∃ (c : Chain), ∃ (rest : List Chain), streamOwner s n ph = some (k, i) ∧
    (stream s n ph).waiting = c :: rest ∧ running s n k = true ∧ (stream s n ph).st = .idle) ∧
    (∃ (s : State), ∃ (n ph : Nat), (streamOwner s n ph = none ∨ (stream s n ph).waiting = [] ∨ (stream s n ph).st ≠
    .idle ∨ (∃ k i, streamOwner s n ph = some (k, i) ∧ running s n k = false))) ∧
    (∃ (s : State), ∃ (n ph k i : Nat), ∃ (d : ActDesc), ∃ (c : Chain), streamOwner s n ph = some (k, i) ∧ (slot s n
    k).ending = none ∧ (slot s n k).saving = false ∧ (stream s n ph).st ≠ .stopped ∧ (stream s n ph).descs.find?
    descDone = some d ∧ (stream s n ph).chain = some c) ∧
    (∃ (s : State), ∃ (n ph : Nat), (streamOwner s n ph = none ∨ (stream s n ph).st = .stopped ∨ (stream s n
    ph).descs.find? descDone = none ∨ (stream s n ph).chain = none ∨ (∃ k i, streamOwner s n ph = some (k, i) ∧ ((slot
    s n k).ending.isSome ∨ (slot s n k).saving = true)))) ∧
    (∃ (s : State), ∃ (n ph k i : Nat), streamOwner s n ph = some (k, i) ∧ (stream s n ph).chain.isSome = true ∧ (slot
    s n k).ending = none ∧ (stream s n ph).st ≠ .stopped ∧ (stream s n ph).faultPending = false) ∧
    (∃ (s : State), ∃ (n ph k i : Nat), streamOwner s n ph = some (k, i) ∧ (stream s n ph).chain.isSome = true ∧ ((slot
    s n k).ending.isSome ∨ (stream s n ph).st = .stopped ∨ (stream s n ph).faultPending = true)) ∧
    (∃ (s : State), ∃ (n ph : Nat), (streamOwner s n ph = none ∨ (stream s n ph).chain = none)) := by
  refine ⟨?_, ?_, ?_, ?_, ?_, ?_, ?_, ?_, ?_, ?_, ?_, ?_, ?_, ?_, ?_, ?_, ?_, ?_, ?_, ?_, ?_, ?_, ?_⟩
  · refine ⟨sXeDescriptorWork0, vXeDescriptorWork1, vXeDescriptorWork2, 0, 255, 0, 0, 0, 35184372088832, vXeDescriptorWork0,
    Ecc.none, ⟨?_, ?_, ?_, ?_, ?_, ?_⟩, (by unfold XeIndexed ListInside; decide +kernel), ?_, ?_, ?_, ?_, ?_⟩ <;>
      decide +kernel
  · refine ⟨sXeDescriptorWork1, vXeDescriptorWork4, vXeDescriptorWork5, vXeDescriptorWork6, 0, 255, 0, 0, 0, 35184372088832,
    35184372089088, vXeDescriptorWork3, Ecc.none, ⟨?_, ?_, ?_, ?_, ?_, ?_⟩,
    (by unfold XeIndexed ListInside; decide +kernel), ?_, ?_, ?_, ?_⟩ <;>
      decide +kernel
  · refine ⟨sXeDescriptorWork21, vXeDescriptorWork8, vXeDescriptorWork9, vXeDescriptorWork10, 0, 255, 0, 0, 0,
    35184372088832, 35184372089088, vXeDescriptorWork7, Ecc.none, ⟨?_, ?_, ?_, ?_, ?_, ?_⟩,
    (by unfold XeIndexed ListInside; decide +kernel), ?_, ?_, ?_, ?_⟩ <;>
      decide +kernel
  · refine ⟨sXeDescriptorWork12, vXeDescriptorWork12, vXeDescriptorWork13, 0, 255, 0, 0, 0, vXeDescriptorWork11, Ecc.none,
    ⟨?_, ?_, ?_, ?_, ?_, ?_⟩, (by unfold XeIndexed ListInside; decide +kernel), ?_⟩ <;>
      decide +kernel
  · refine ⟨sXeDescriptorWork16, vXeDescriptorWork15, vXeDescriptorWork16, 0, 255, 0, 0, 0, vXeDescriptorWork14, Ecc.none,
    vXeDescriptorWork17, ⟨?_, ?_, ?_, ?_, ?_, ?_⟩, (by unfold XeIndexed ListInside; decide +kernel), ?_⟩ <;>
      decide +kernel
  · refine ⟨sXeDescriptorWork13, vXeDescriptorWork19, vXeDescriptorWork20, 0, 255, 0, 0, 0, vXeDescriptorWork18, Ecc.none,
    (if dKind vXeDescriptorWork18.record = 2 then (vXeDescriptorWork19, XeAddr.ok 0) else xeAddr vXeDescriptorWork19 0
    0 (dSpA vXeDescriptorWork18.record) (descAddr vXeDescriptorWork18.record (vXeDescriptorWork18.table.getD [])
    vXeDescriptorWork18.issued 0).1 (accessLen vXeDescriptorWork18 0) accRead).1, 35184372088832, ⟨?_, ?_, ?_, ?_, ?_,
    ?_⟩, (by unfold XeIndexed ListInside; decide +kernel), ?_, ?_⟩ <;>
      decide +kernel
  · refine ⟨sXeDescriptorWork17, vXeDescriptorWork22, vXeDescriptorWork23, 0, 255, 0, 0, 0, vXeDescriptorWork21, Ecc.none,
    vXeDescriptorWork24, (if dKind vXeDescriptorWork21.record = 2 then (vXeDescriptorWork22, XeAddr.ok 0) else xeAddr
    vXeDescriptorWork22 0 0 (dSpA vXeDescriptorWork21.record) (descAddr vXeDescriptorWork21.record
    (vXeDescriptorWork21.table.getD []) vXeDescriptorWork21.issued 0).1 (accessLen vXeDescriptorWork21 0) accRead).1,
    35184372088832, ⟨?_, ?_, ?_, ?_, ?_, ?_⟩, (by unfold XeIndexed ListInside; decide +kernel), ?_, ?_⟩ <;>
      decide +kernel
  · refine ⟨sXeDescriptorWork18, 0, 255, 0, 0, vXeDescriptorWork25, ⟨?_, ?_, ?_, ?_, ?_, ?_⟩, ?_,
    (by unfold ListInside; decide +kernel)⟩ <;>
      decide +kernel
  · refine ⟨sXeDescriptorWork23, vXeDescriptorWork27, 0, 255, 0, 0, 268, vXeDescriptorWork26, Ecc.none, ⟨?_, ?_, ?_, ?_, ?_,
    ?_⟩, ?_, (by unfold ListInside; decide +kernel), ?_⟩ <;>
      decide +kernel
  · exact ⟨sXeDescriptorWork0, 0, 0,
    (by first | exact Or.inl (by decide +kernel) | exact Or.inr (Or.inl (by decide +kernel)) | exact Or.inr (Or.inr (Or.inl (by decide +kernel))) | exact Or.inr (Or.inr (Or.inr (Or.inl (by decide +kernel)))) | exact Or.inr (Or.inr (Or.inr (Or.inr (Or.inl (opt_ex_pair (by decide +kernel)))))) | exact Or.inr (Or.inr (Or.inr (Or.inr (Or.inr ((opt_ex (by decide +kernel))))))))⟩
  · refine ⟨sXeDescriptorWork2, 0, 255, 0, 0, 0, 0, vXeDescriptorWork28, Ecc.none, (checkRead (modDesc sXeDescriptorWork2 0
    255 0 (fun d => { d with reads := d.reads.erase vXeDescriptorWork28 })) vXeDescriptorWork28.src
    vXeDescriptorWork28.len Ecc.none (slot sXeDescriptorWork2 0 0).ctag).1, ?_, ?_, ?_, ?_, ?_, ?_, ?_, ?_, ?_, ?_⟩ <;>
      decide +kernel
  · refine ⟨sXeDescriptorWork11, 0, 255, 0, 0, 0, 0, vXeDescriptorWork29, Ecc.none, (checkRead (modDesc sXeDescriptorWork11 0
    255 0 (fun d => { d with reads := d.reads.erase vXeDescriptorWork29 })) vXeDescriptorWork29.src
    vXeDescriptorWork29.len Ecc.none (slot sXeDescriptorWork11 0 0).ctag).1, 268, ?_, ?_, ?_, ?_, ?_, ?_⟩ <;>
      decide +kernel
  · refine ⟨sXeDescriptorWork9, 0, 255, 0, 0, 0, 0, vXeDescriptorWork30, Ecc.none, ?_, ?_, ?_, ?_⟩ <;>
      decide +kernel
  · refine ⟨sXeDescriptorWork10, 0, 255, 0, 0, 0, 0, vXeDescriptorWork31, Ecc.none, ?_, ?_, ?_, ?_, ?_⟩ <;>
      decide +kernel
  · refine ⟨sXeDescriptorWork2, 0, 255, 0, 0, 0, 0, vXeDescriptorWork28, Ecc.uncorr, ?_, ?_, ?_⟩ <;>
      decide +kernel
  · refine ⟨sXeDescriptorWork0, 0, 0, 0, ?_⟩ <;>
      decide +kernel
  · refine ⟨sXeDescriptorWork4, 0, 255, 0, 0, vXeDescriptorWork32, [], ?_, ?_, ?_, ?_⟩ <;>
      decide +kernel
  · exact ⟨sXeDescriptorWork0, 0, 0,
    (by first | exact Or.inl (by decide +kernel) | exact Or.inr (Or.inl (by decide +kernel)) | exact Or.inr (Or.inr (Or.inl (by decide +kernel))) | exact Or.inr (Or.inr (Or.inr ((opt_ex_pair (by decide +kernel))))))⟩
  · refine ⟨sXeDescriptorWork5, 0, 255, 0, 0, vXeDescriptorWork33, vXeDescriptorWork34, ?_, ?_, ?_, ?_, ?_, ?_⟩ <;>
      decide +kernel
  · exact ⟨sXeDescriptorWork0, 0, 0,
    (by first | exact Or.inl (by decide +kernel) | exact Or.inr (Or.inl (by decide +kernel)) | exact Or.inr (Or.inr (Or.inl (by decide +kernel))) | exact Or.inr (Or.inr (Or.inr (Or.inl (by decide +kernel)))) | exact Or.inr (Or.inr (Or.inr (Or.inr ((opt_ex_pair (by decide +kernel)))))))⟩
  · refine ⟨sXeDescriptorWork0, 0, 255, 0, 0, ?_, ?_, ?_, ?_, ?_⟩ <;>
      decide +kernel
  · refine ⟨sXeDescriptorWork9, 0, 255, 0, 0, ?_, ?_, ?_⟩ <;>
      decide +kernel
  · refine ⟨sXeDescriptorWork0, 0, 0, ?_⟩ <;>
      decide +kernel

/-- A state of the witnesses of `MmuWork`. -/
def sMmuWork2 : State :=
  rset (rset State.reset .mmu 63 0x10 1) .mmu 63 0x800 1

/-- A state of the witnesses of `MmuWork`. -/
def sMmuWork3 : State :=
  modCluster (rset State.reset .mmu 63 0x10 1) 63 (fun c => { c with inv := some ⟨3, 0, 0, 0, 0, false, 0, []⟩ })

/-- A state of the witnesses of `MmuWork`. -/
def sMmuWork4 : State :=
  { modCluster (rset State.reset .mmu 63 0x10 1) 63 (fun c => { c with inv := some ⟨3, 0, 0, 0, 0, false, 0, []⟩ }) with us := 10000 }

/-- A state of the witnesses of `MmuWork`. -/
def sMmuWork5 : State :=
  modCluster (xeState copyRec (fun x =>
  { x with descs := [{ record := copyRec, issued := 4, reads := [⟨lmDpa 0, lmDpa 0 + 256, true, true, 4, 0, []⟩] }] }))
  0 (fun c => { c with inv := some ⟨3, 0, 0, 0, 0, true, 0, []⟩ })

/-- A state of the witnesses of `MmuWork`. -/
def sMmuWork6 : State :=
  modCluster { State.reset with host := { up := true, bme := [(0, true)] } } 63 (fun c =>
  { c with fqEnabled := true, holdBuf := [List.replicate 64 0] })

/-- A state of the witnesses of `MmuWork`. -/
def sMmuWork7 : State :=
  { modCluster (rset (rset State.reset .mmu 63 0x10 1) .mmu 63 0x800 1) 63 (fun c => { c with wc := [(0, 2, 0, 0, 0)] }) with mem := memWrite [] 0 (leBytes 0x6F 8) }

/-- A state of the witnesses of `MmuWork`. -/
def sMmuWork8 : State :=
  modCluster (xeState copyRec (fun x =>
  { x with descs := [{ record := copyRec, issued := 4, reads := [⟨lmDpa 0, lmDpa 0 + 256, true, true, 4, 0, [(0, 4)]⟩] }] }))
  0 (fun c => { c with inv := some ⟨3, 0, 0, 0, 0, false, 0, []⟩ })

theorem wit_MmuWork :
    (∃ (s : State), ∃ (n : Nat), accepting s .mmu (coreClu n) = false) ∧
    (∃ (s : State), ∃ (n va : Nat), accepting s .mmu (coreClu n) = true ∧ coreClu n < 64 ∧ 2 ^ 48 ≤ va) ∧
    (∃ (s : State), ∃ (n k va : Nat), accepting s .mmu (coreClu n) = true ∧ coreClu n < 64 ∧ va < 2 ^ 48 ∧ asidValid s
    (coreClu n) (slotAsid s n k) = false) ∧
    (∃ (s : State), ∃ (n k va acc : Nat), ∃ (ecc : Ecc), ∃ d, accepting s .mmu (coreClu n) = true ∧ coreClu n < 64 ∧
    let v := walkEcc s (coreClu n) (partOfCore s n) (slotAsid s n k) va acc (coreJ n) (slot s n k).ctag ecc; va < 2 ^
      48 ∧ asidValid s (coreClu n) (slotAsid s n k) = true ∧
      let u := bump v .mmu (coreClu n) 0x118 1;
        let w := walkStart u (coreClu n) (slotAsid s n k) va;
          let r := walkFrom u (partOfCore s n) va acc w.1 w.2; r.res = .ok d) ∧
    (∃ (s : State), ∃ (n k va acc : Nat), ∃ (ecc : Ecc), ∃ f, accepting s .mmu (coreClu n) = true ∧ coreClu n < 64 ∧
    let v := walkEcc s (coreClu n) (partOfCore s n) (slotAsid s n k) va acc (coreJ n) (slot s n k).ctag ecc; va < 2 ^
      48 ∧ asidValid s (coreClu n) (slotAsid s n k) = true ∧
      let u := bump v .mmu (coreClu n) 0x118 1;
        let w := walkStart u (coreClu n) (slotAsid s n k) va;
          let r := walkFrom u (partOfCore s n) va acc w.1 w.2; r.res = .fault f) ∧
    (∃ (c : Req → Nat → Word → Instr), ∃ (op : Nat), (c, op) ∈ [(Instr.mmuInvVaRange, 1), (Instr.mmuInvAsid, 2),
    (Instr.mmuInvAll, 3), (Instr.mmuInvKey, 4)]) ∧
    (∃ (c : Req → Nat → Word → Instr), ∃ (op : Nat), ∃ (req : Req), ∃ (clu : Nat), ∃ (s : State), ∃ o, (c, op) ∈
    [(Instr.mmuInvVaRange, 1), (Instr.mmuInvAsid, 2), (Instr.mmuInvAll, 3), (Instr.mmuInvKey, 4)] ∧ Serves s req .mmu
    clu ∧ (cluster s clu).inv = some o) ∧
    (∃ (c : Req → Nat → Word → Instr), ∃ (op : Nat), ∃ (req : Req), ∃ (clu : Nat), ∃ (s : State), (c, op) ∈
    [(Instr.mmuInvVaRange, 1), (Instr.mmuInvAsid, 2), (Instr.mmuInvAll, 3), (Instr.mmuInvKey, 4)] ∧ Serves s req .mmu
    clu ∧ (cluster s clu).inv = none ∧ accepting s .mmu clu = false) ∧
    (∃ (c : Req → Nat → Word → Instr), ∃ (op : Nat), ∃ (req : Req), ∃ (clu : Nat), ∃ (s : State), (c, op) ∈
    [(Instr.mmuInvVaRange, 1), (Instr.mmuInvAsid, 2), (Instr.mmuInvAll, 3), (Instr.mmuInvKey, 4)] ∧ Serves s req .mmu
    clu ∧ clu < 64 ∧ (cluster s clu).inv = none ∧ accepting s .mmu clu = true) ∧
    (∃ (s : State), ∃ (clu : Nat), (cluster s clu).inv = none) ∧
    (∃ (s : State), ∃ (clu : Nat), ∃ (o : InvOp), (cluster s clu).inv = some o ∧
    let waits := (invScope s clu o).any (fun c => invOutstanding s o c || keyOutstanding s o c); waits = false) ∧
    (∃ (s : State), ∃ (clu : Nat), ∃ (o : InvOp), (cluster s clu).inv = some o ∧
    let waits := (invScope s clu o).any (fun c => invOutstanding s o c || keyOutstanding s o c); waits = true) ∧
    (∃ (s : State), ∃ (clu : Nat), ∃ (o : InvOp), (cluster s clu).inv = some o ∧ wbit (rget s .mmu clu 0x110) 1 = false
    ∧ o.startUs + 10000 ≤ s.us) ∧
    (∃ (s : State), ∃ (clu : Nat), ∃ (o : InvOp), (cluster s clu).inv = some o ∧ (wbit (rget s .mmu clu 0x110) 1 = true
    ∨ s.us < o.startUs + 10000)) ∧
    (∃ (s : State), ∃ (clu : Nat), ∃ (r : List Byte), ∃ (rest : List (List Byte)), (cluster s clu).holdBuf = r :: rest
    ∧ fqFull s clu = false ∧ queueBus s clu = true ∧ (cluster s clu).fqError = false ∧ clu < 64) ∧
    (∃ (s : State), ∃ (clu : Nat), ((cluster s clu).holdBuf = [] ∨ fqFull s clu = true ∨ queueBus s clu = false ∨
    (cluster s clu).fqError = true)) := by
  refine ⟨?_, ?_, ?_, ?_, ?_, ?_, ?_, ?_, ?_, ?_, ?_, ?_, ?_, ?_, ?_, ?_⟩
  · refine ⟨State.reset, 1151, ?_⟩ <;>
      decide +kernel
  · refine ⟨rset State.reset .mmu 63 0x10 1, 1151, 281474976710656, ?_, ?_, ?_⟩ <;>
      decide +kernel
  · refine ⟨rset State.reset .mmu 63 0x10 1, 1151, 1151, 1151, ?_, ?_, ?_, ?_⟩ <;>
      decide +kernel
  · refine ⟨sMmuWork7, 1151, 1151, 1151, 1151, Ecc.none, 1151, ?_, ?_, ?_, ?_, ?_⟩ <;>
      decide +kernel
  · refine ⟨sMmuWork2, 1151, 1151, 1151, 1151, Ecc.none, (match ((walkFrom (bump (walkEcc sMmuWork2 (coreClu 1151)
    (partOfCore sMmuWork2 1151) (slotAsid sMmuWork2 1151 1151) 1151 1151 (coreJ 1151) (slot sMmuWork2 1151 1151).ctag
    Ecc.none) .mmu (coreClu 1151) 0x118 1) (partOfCore sMmuWork2 1151) 1151 1151 (walkStart (bump (walkEcc sMmuWork2
    (coreClu 1151) (partOfCore sMmuWork2 1151) (slotAsid sMmuWork2 1151 1151) 1151 1151 (coreJ 1151) (slot sMmuWork2
    1151 1151).ctag Ecc.none) .mmu (coreClu 1151) 0x118 1) (coreClu 1151) (slotAsid sMmuWork2 1151 1151) 1151).1
    (walkStart (bump (walkEcc sMmuWork2 (coreClu 1151) (partOfCore sMmuWork2 1151) (slotAsid sMmuWork2 1151 1151) 1151
    1151 (coreJ 1151) (slot sMmuWork2 1151 1151).ctag Ecc.none) .mmu (coreClu 1151) 0x118 1) (coreClu 1151) (slotAsid
    sMmuWork2 1151 1151) 1151).2).res) with | .fault z_ => z_ | _ => ⟨0, 0, 0, false, 0, 0, 0⟩), ?_, ?_, ?_, ?_, ?_⟩ <;>
      decide +kernel
  · exact ⟨Instr.mmuInvVaRange, 1, List.mem_cons_self⟩
  · refine ⟨Instr.mmuInvVaRange, 1, Req.car, 0, sMmuWork5, (Option.get ((cluster sMmuWork5 0).inv) (by decide +kernel)),
    List.mem_cons_self, ⟨?_, ?_, ?_, ?_⟩, ?_⟩ <;>
      decide +kernel
  · refine ⟨Instr.mmuInvVaRange, 1, Req.car, 0, State.reset, List.mem_cons_self, ⟨?_, ?_, ?_, ?_⟩, ?_, ?_⟩ <;>
      decide +kernel
  · refine ⟨Instr.mmuInvVaRange, 1, Req.car, 63, rset State.reset .mmu 63 0x10 1, List.mem_cons_self, ⟨?_, ?_, ?_, ?_⟩, ?_,
    ?_, ?_⟩ <;>
      decide +kernel
  · refine ⟨State.reset, 1151, ?_⟩ <;>
      decide +kernel
  · refine ⟨sMmuWork3, 63, (Option.get ((cluster sMmuWork3 63).inv) (by decide +kernel)), ?_, ?_⟩ <;>
      decide +kernel
  · refine ⟨sMmuWork8, 0, (Option.get ((cluster sMmuWork8 0).inv) (by decide +kernel)), ?_, ?_⟩ <;>
      decide +kernel
  · refine ⟨sMmuWork4, 63, (Option.get ((cluster sMmuWork4 63).inv) (by decide +kernel)), ?_, ?_, ?_⟩ <;>
      decide +kernel
  · refine ⟨sMmuWork3, 63, (Option.get ((cluster sMmuWork3 63).inv) (by decide +kernel)), ?_, ?_⟩ <;>
      decide +kernel
  · refine ⟨sMmuWork6, 63, (List.head ((cluster sMmuWork6 63).holdBuf) (by decide +kernel)), [], ?_, ?_, ?_, ?_, ?_⟩ <;>
      decide +kernel
  · refine ⟨State.reset, 1151, ?_⟩ <;>
      decide +kernel

/-- A state of the witnesses of `Rings`. -/
def sRings1 : State :=
  rset (modCluster ({ State.reset with host := { up := true, bme := [(0, true)] } }) 63 (fun c =>
  { c with rings := [(3, { enabled := true, prod := 1 })] })) .clu 63 0x10 1

/-- A state of the witnesses of `Rings`. -/
def sRings2 : State :=
  rset (modCluster State.reset 63 (fun c =>
  { c with rings := [(3, { enabled := true, fetched := [⟨0, List.replicate 64 0⟩] })] })) .clu 63 0x10 1

/-- A state of the witnesses of `Rings`. -/
def sRings3 : State :=
  rset (modCluster State.reset 63 (fun c =>
  { c with rings := [(3, { enabled := true, fetched := [⟨0, padTo [1, 8] 64⟩] })] })) .clu 63 0x10 1

/-- A state of the witnesses of `Rings`. -/
def sRings4 : State :=
  rset (modCluster State.reset 63 (fun c =>
  { c with rings := [(3, { enabled := true, fetched := [⟨0, padTo ([7, 0] ++ leBytes (16 + 32 * 15) 2) 64⟩] })] }))
  .clu 63 0x10 1

/-- A state of the witnesses of `Rings`. -/
def sRings5 : State :=
  rset (modCluster State.reset 63 (fun c =>
  { c with rings := [(3, { enabled := true, fetched := [⟨0, padTo ([1, 0] ++ leBytes (16 + 32 * 15) 2) 64⟩] })] }))
  .clu 63 0x10 1

/-- A state of the witnesses of `Rings`. -/
def sRings7 : State :=
  rset (modCluster State.reset 63 (fun c =>
  { c with rings := [(3, { enabled := true, fetched := [⟨0, padTo ([2, 0] ++ leBytes (16 + 32 * 15) 2) 64⟩] })] }))
  .clu 63 0x10 1

/-- A state of the witnesses of `Rings`. -/
def sRings10 : State :=
  rset (modCluster (modSlot State.reset (coreOf 63 16) 15 (fun sl => { sl with st := .active })) 63 (fun c =>
  { c with rings := [(3, { enabled := true, fetched := [⟨0, padTo ([7, 0] ++ leBytes (16 + 32 * 15) 2) 64⟩] })] }))
  .clu 63 0x10 1

/-- A state of the witnesses of `Rings`. -/
def sRings11 : State :=
  rset (modCluster (modSlot State.reset (coreOf 63 16) 15 (fun sl => { sl with st := .active })) 63 (fun c =>
  { c with rings := [(3, { enabled := true, fetched := [⟨0, padTo ([7, 4] ++ leBytes (16 + 32 * 15) 2) 64⟩] })] }))
  .clu 63 0x10 1

/-- A state of the witnesses of `Rings`. -/
def sRings12 : State :=
  rset (modCluster (modSlot State.reset (coreOf 63 16) 15 (fun sl => { sl with st := .active })) 63 (fun c =>
  { c with rings := [(3, { enabled := true, fetched := [⟨0, padTo ([2, 0] ++ leBytes (16 + 32 * 15) 2) 64⟩] })] }))
  .clu 63 0x10 1

/-- A state of the witnesses of `Rings`. -/
def sRings14 : State :=
  rset (modCluster (rset State.reset .sec 0 0x110 2) 63 (fun c =>
  { c with rings := [(3, { enabled := true, fetched := [⟨0, padTo ([1, 0] ++ leBytes (16 + 32 * 15) 2) 64⟩] })] }))
  .clu 63 0x10 1

/-- A state of the witnesses of `Rings`. -/
def sRings15 : State :=
  rset (modCluster (modSlot State.reset (coreOf 63 16) 15 (fun sl => { sl with ending := some ⟨3, 0, 3, false, 0⟩ }))
  63 (fun c =>
  { c with rings := [(3, { enabled := true, fetched := [⟨0, padTo ([1, 0] ++ leBytes (16 + 32 * 15) 2) 64⟩] })] }))
  .clu 63 0x10 1

/-- A state of the witnesses of `Rings`. -/
def sRings16 : State :=
  rset (modCluster (modCore State.reset (coreOf 63 16) (fun c => { c with orphans := [⟨15, 0, 0, 0⟩] })) 63 (fun c =>
  { c with rings := [(3, { enabled := true, fetched := [⟨0, padTo ([1, 0] ++ leBytes (16 + 32 * 15) 2) 64⟩] })] }))
  .clu 63 0x10 1

/-- A state of the witnesses of `Rings`. -/
def sRings17 : State :=
  rset (modCluster (rset State.reset .mmu 63 0x800 1) 63 (fun c =>
  { c with rings := [(3, { enabled := true, fetched := [⟨0, padTo ([1, 0] ++ leBytes (16 + 32 * 15) 2) 64⟩] })] }))
  .clu 63 0x10 1

/-- A state of the witnesses of `Rings`. -/
def sRings18 : State :=
  rset (modCluster (rset State.reset .mmu 63 0x800 1) 63 (fun c =>
  { c with rings := [(3, { enabled := true, fetched := [⟨0, padTo ([1, 0] ++ leBytes (16 + 32 * 15) 2 ++ leBytes 0 12 ++ leBytes 0x200000 4) 64⟩] })] }))
  .clu 63 0x10 1

/-- A state of the witnesses of `Rings`. -/
def sRings19 : State :=
  rset (modCluster (modSlot State.reset (coreOf 63 16) 15 (fun sl => { sl with st := .active })) 63 (fun c =>
  { c with rings := [(3, { enabled := true, fetched := [⟨0, padTo ([7, 0] ++ leBytes (16 + 32 * 15) 2 ++ leBytes 5 4) 64⟩] })] }))
  .clu 63 0x10 1

theorem wit_Rings :
    (∃ (req : Req), ∃ (clu i : Nat), ∃ (w : Word), ∃ (s : State), Serves s req .clu clu ∧
    let r := ring s clu i;
      let cnt := (fld w 15 0 + 65536 - r.head) % 65536; cnt ≤ 2 ^ fld (srCfg s clu i) 3 0 ∧ ringCount r ≤ cnt) ∧
    (∃ (req : Req), ∃ (clu i : Nat), ∃ (w : Word), ∃ (s : State), Serves s req .clu clu ∧
    let r := ring s clu i;
      let cnt := (fld w 15 0 + 65536 - r.head) % 65536; (2 ^ fld (srCfg s clu i) 3 0 < cnt ∨ cnt < ringCount r)) ∧
    (∃ (s : State), ∃ (clu i m : Nat), ∃ (data : List Byte), RingFetches s clu i ∧ data.length / 64 = m ∧ 0 < m ∧ m ≤
    ringCount (ring s clu i) ∧ (ring s clu i).fetched.length + m ≤ 16) ∧
    (∃ (s : State), ∃ (clu i : Nat), ∃ (data : List Byte), (¬ RingFetches s clu i ∨ data.length < 64 ∨ ringCount (ring
    s clu i) < data.length / 64 ∨ 16 < (ring s clu i).fetched.length + data.length / 64)) ∧
    (∃ (s : State), ∃ (req : Req), ∃ (clu i : Nat), i < 4 ∧ clu < 64 ∧ Serves s req .clu clu) ∧
    (∃ (clu : Nat), ∃ (c : Nat → Nat → Instr), c ∈ [Instr.qDmaError, Instr.qDmaTimeout] ∧ clu < 64) ∧
    (∃ (s : State), ∃ (clu i : Nat), ∃ c, ringNext s clu i = none ∧ c ∈ [Instr.ringDispatch, .ringNop, .ringInvalid,
    .ringCtxReset, .ringInstall]) ∧
    (∃ (s : State), ∃ (clu i : Nat), ∃ (e : SubEnt), ringNext s clu i = some e ∧ seValid s clu e.data = true) ∧
    (∃ (s : State), ∃ (clu i : Nat), ∃ (e : SubEnt), ∃ c op, ringNext s clu i = some e ∧ (c, op) ∈ [(Instr.ringNop, 0),
    (.ringInstall, 1), (.ringCtxReset, 7)] ∧ (seValid s clu e.data = false ∨ seOp e.data ≠ op)) ∧
    (∃ (s : State), ∃ (clu i n : Nat), ∃ (e : SubEnt), ∃ c, RingTakes s clu i n 0 e ∧ c ∈ [Instr.ringDispatch,
    .ringNop]) ∧
    (∃ (s : State), ∃ (clu i : Nat), ∃ (e : SubEnt), ∃ c, ringNext s clu i = some e ∧ seValid s clu e.data = false ∧ c
    ∈ [Instr.ringDispatch, .ringInvalid]) ∧
    (∃ (s : State), ∃ (clu i n op : Nat), ∃ (e : SubEnt), ∃ c, RingTakes s clu i n op e ∧ 2 ≤ op ∧ seCtag e.data ≠ 0 ∧
    seCtag e.data ≠ (slot s n (seSlot e.data)).ctag.toNat ∧ c ∈ (if op = 7 then [Instr.ringDispatch, .ringCtxReset]
    else [Instr.ringDispatch])) ∧
    (∃ (s : State), ∃ (clu i n : Nat), ∃ (e : SubEnt), ∃ c, RingTakes s clu i n 7 e ∧ (seCtag e.data = 0 ∨ seCtag
    e.data = (slot s n (seSlot e.data)).ctag.toNat) ∧ c ∈ [Instr.ringDispatch, .ringCtxReset] ∧ (slot s n (seSlot
    e.data)).st = .free) ∧
    (∃ (s : State), ∃ (clu i n : Nat), ∃ (e : SubEnt), ∃ c, RingTakes s clu i n 7 e ∧ (seCtag e.data = 0 ∨ seCtag
    e.data = (slot s n (seSlot e.data)).ctag.toNat) ∧ c ∈ [Instr.ringDispatch, .ringCtxReset] ∧ (slot s n (seSlot
    e.data)).st ≠ .free ∧ bit (seFlags e.data) 2 = false) ∧
    (∃ (s : State), ∃ (clu i n : Nat), ∃ (e : SubEnt), ∃ c, RingTakes s clu i n 7 e ∧ (seCtag e.data = 0 ∨ seCtag
    e.data = (slot s n (seSlot e.data)).ctag.toNat) ∧ c ∈ [Instr.ringDispatch, .ringCtxReset] ∧ (slot s n (seSlot
    e.data)).st ≠ .free ∧ bit (seFlags e.data) 2 = true) ∧
    (∃ (s : State), ∃ (clu i n : Nat), ∃ (e : SubEnt), ∃ c, RingTakes s clu i n 1 e ∧ c ∈ [Instr.ringDispatch,
    .ringInstall] ∧ frozen s = true) ∧
    (∃ (s : State), ∃ (clu i n : Nat), ∃ (e : SubEnt), ∃ c, RingTakes s clu i n 1 e ∧
    let k := seSlot e.data; c ∈ [Instr.ringDispatch, .ringInstall] ∧ frozen s = false ∧ (slot s n k).ending.isSome =
      true) ∧
    (∃ (s : State), ∃ (clu i n : Nat), ∃ (e : SubEnt), ∃ c, RingTakes s clu i n 1 e ∧
    let k := seSlot e.data; c ∈ [Instr.ringDispatch, .ringInstall] ∧ frozen s = false ∧ (slot s n k).ending = none ∧
      (core s n).orphans.any (fun o => o.slot = k) = true) ∧
    (∃ (s : State), ∃ (clu i n : Nat), ∃ (e : SubEnt), ∃ c, RingTakes s clu i n 1 e ∧
    let k := seSlot e.data;
      let s1 := installRegs s n k e.data; c ∈ [Instr.ringDispatch, .ringInstall] ∧ frozen s = false ∧ (slot s n
        k).ending = none ∧ (core s n).orphans.any (fun o => o.slot = k) = false ∧ installCheck s1 n k ≠ resOk) ∧
    (∃ (s : State), ∃ (clu i n : Nat), ∃ (e : SubEnt), ∃ c, RingTakes s clu i n 1 e ∧
    let k := seSlot e.data;
      let s1 := installRegs s n k e.data; c ∈ [Instr.ringDispatch, .ringInstall] ∧ frozen s = false ∧ (slot s n
        k).ending = none ∧ (core s n).orphans.any (fun o => o.slot = k) = false ∧ installCheck s1 n k = resOk ∧ wbit
        (slotReg s1 n k 0x408) 21 = true) ∧
    (∃ (s : State), ∃ (clu i n : Nat), ∃ (e : SubEnt), ∃ c, RingTakes s clu i n 1 e ∧
    let k := seSlot e.data;
      let s1 := installRegs s n k e.data; c ∈ [Instr.ringDispatch, .ringInstall] ∧ frozen s = false ∧ (slot s n
        k).ending = none ∧ (core s n).orphans.any (fun o => o.slot = k) = false ∧ installCheck s1 n k = resOk ∧ wbit
        (slotReg s1 n k 0x408) 21 = false) ∧
    (∃ (s : State), ∃ (clu i n op : Nat), ∃ (e : SubEnt), RingTakes s clu i n op e ∧ 2 ≤ op ∧ op ≤ 6 ∧ (seCtag e.data =
    0 ∨ seCtag e.data = (slot s n (seSlot e.data)).ctag.toNat)) ∧
    (∃ (s : State), ∃ (clu i n op : Nat), ∃ (e : SubEnt), RingTakes s clu i n op e ∧ 2 ≤ op ∧ op ≤ 6 ∧ (seCtag e.data =
    0 ∨ seCtag e.data = (slot s n (seSlot e.data)).ctag.toNat) ∧ op = 2 ∧ frozen s = false ∧ (slot s n (seSlot
    e.data)).ending = none ∧ (slot s n (seSlot e.data)).st = .active) := by
  refine ⟨?_, ?_, ?_, ?_, ?_, ?_, ?_, ?_, ?_, ?_, ?_, ?_, ?_, ?_, ?_, ?_, ?_, ?_, ?_, ?_, ?_, ?_, ?_⟩
  · refine ⟨Req.car, 0, 0, 0, State.reset, ⟨?_, ?_, ?_, ?_⟩, ?_, ?_⟩ <;>
      decide +kernel
  · refine ⟨Req.car, 0, 0, 0xFFFF, State.reset, ⟨?_, ?_, ?_, ?_⟩, ?_⟩ <;>
      decide +kernel
  · refine ⟨sRings1, 63, 3, 1, List.replicate 64 0, ⟨?_, ?_, ?_, ?_, ?_⟩, ?_, ?_, ?_, ?_⟩ <;>
      decide +kernel
  · exact ⟨State.reset, 63, 63, List.replicate 64 0,
    (by first | exact Or.inl (by unfold RingFetches; decide +kernel) | exact Or.inr (Or.inl (by decide +kernel)) | exact Or.inr (Or.inr (Or.inl (by decide +kernel))) | exact Or.inr (Or.inr (Or.inr (by decide +kernel))))⟩
  · refine ⟨State.reset, Req.car, 63, 3, ?_, ?_, ⟨?_, ?_, ?_, ?_⟩⟩ <;>
      decide +kernel
  · refine ⟨0, Instr.qDmaError, List.mem_cons_self, ?_⟩ <;>
      decide +kernel
  · refine ⟨State.reset, 63, 63, Instr.ringDispatch, ?_, List.mem_cons_self⟩ <;>
      decide +kernel
  · refine ⟨sRings2, 63, 3, (Option.get (ringNext sRings2 63 3) (by decide +kernel)), ?_, ?_⟩ <;>
      decide +kernel
  · refine ⟨sRings3, 63, 3, (Option.get (ringNext sRings3 63 3) (by decide +kernel)), Instr.ringNop, 0, ?_,
    List.mem_cons_self, ?_⟩ <;>
      decide +kernel
  · refine ⟨sRings2, 63, 3, 1134, (Option.get (ringNext sRings2 63 3) (by decide +kernel)), Instr.ringDispatch, ⟨?_, ?_, ?_,
    ?_⟩, List.mem_cons_self⟩ <;>
      decide +kernel
  · refine ⟨sRings3, 63, 3, (Option.get (ringNext sRings3 63 3) (by decide +kernel)), Instr.ringDispatch, ?_, ?_,
    List.mem_cons_self⟩ <;>
      decide +kernel
  · refine ⟨sRings19, 63, 3, 1150, 7, (Option.get (ringNext sRings19 63 3) (by decide +kernel)), (((if 7 = 7 then
    [Instr.ringDispatch, .ringCtxReset] else [Instr.ringDispatch]))[0]'(by decide +kernel)), ⟨?_, ?_, ?_, ?_⟩, ?_, ?_,
    ?_, (List.getElem_mem _)⟩ <;>
      decide +kernel
  · refine ⟨sRings4, 63, 3, 1150, (Option.get (ringNext sRings4 63 3) (by decide +kernel)), Instr.ringDispatch, ⟨?_, ?_, ?_,
    ?_⟩, ?_, List.mem_cons_self, ?_⟩ <;>
      decide +kernel
  · refine ⟨sRings10, 63, 3, 1150, (Option.get (ringNext sRings10 63 3) (by decide +kernel)), Instr.ringDispatch, ⟨?_, ?_,
    ?_, ?_⟩, ?_, List.mem_cons_self, ?_, ?_⟩ <;>
      decide +kernel
  · refine ⟨sRings11, 63, 3, 1150, (Option.get (ringNext sRings11 63 3) (by decide +kernel)), Instr.ringDispatch, ⟨?_, ?_,
    ?_, ?_⟩, ?_, List.mem_cons_self, ?_, ?_⟩ <;>
      decide +kernel
  · refine ⟨sRings14, 63, 3, 1150, (Option.get (ringNext sRings14 63 3) (by decide +kernel)), Instr.ringDispatch, ⟨?_, ?_,
    ?_, ?_⟩, List.mem_cons_self, ?_⟩ <;>
      decide +kernel
  · refine ⟨sRings15, 63, 3, 1150, (Option.get (ringNext sRings15 63 3) (by decide +kernel)), Instr.ringDispatch, ⟨?_, ?_,
    ?_, ?_⟩, List.mem_cons_self, ?_, ?_⟩ <;>
      decide +kernel
  · refine ⟨sRings16, 63, 3, 1150, (Option.get (ringNext sRings16 63 3) (by decide +kernel)), Instr.ringDispatch, ⟨?_, ?_,
    ?_, ?_⟩, List.mem_cons_self, ?_, ?_, ?_⟩ <;>
      decide +kernel
  · refine ⟨sRings5, 63, 3, 1150, (Option.get (ringNext sRings5 63 3) (by decide +kernel)), Instr.ringDispatch, ⟨?_, ?_, ?_,
    ?_⟩, List.mem_cons_self, ?_, ?_, ?_, ?_⟩ <;>
      decide +kernel
  · refine ⟨sRings18, 63, 3, 1150, (Option.get (ringNext sRings18 63 3) (by decide +kernel)), Instr.ringDispatch, ⟨?_, ?_,
    ?_, ?_⟩, List.mem_cons_self, ?_, ?_, ?_, ?_, ?_⟩ <;>
      decide +kernel
  · refine ⟨sRings17, 63, 3, 1150, (Option.get (ringNext sRings17 63 3) (by decide +kernel)), Instr.ringDispatch, ⟨?_, ?_,
    ?_, ?_⟩, List.mem_cons_self, ?_, ?_, ?_, ?_, ?_⟩ <;>
      decide +kernel
  · refine ⟨sRings7, 63, 3, 1150, 2, (Option.get (ringNext sRings7 63 3) (by decide +kernel)), ⟨?_, ?_, ?_, ?_⟩, ?_, ?_, ?_⟩ <;>
      decide +kernel
  · refine ⟨sRings12, 63, 3, 1150, 2, (Option.get (ringNext sRings12 63 3) (by decide +kernel)), ⟨?_, ?_, ?_, ?_⟩, ?_, ?_,
    ?_, ?_, ?_, ?_, ?_⟩ <;>
      decide +kernel

/-- A state of the witnesses of `CompletionQueues`. -/
def sCompletionQueues0 : State :=
  modCluster ({ State.reset with host := { up := true, bme := [(0, true)] } }) 63 (fun c =>
  { c with cqs := [(3, { enabled := true, held := [List.replicate 16 0] })] })

/-- A state of the witnesses of `CompletionQueues`. -/
def sCompletionQueues2 : State :=
  { rset (modCluster (State.reset) 63 (fun c => { c with cqs := [(3, { timer := some 0 })] })) .clu 63 0x9D4 0x100 with us := 1 }

theorem wit_CompletionQueues :
    (∃ (s : State), ∃ (clu j : Nat), ∃ (e : List Byte), ∃ (rest : List (List Byte)), (cq s clu j).held = e :: rest ∧
    (cq s clu j).enabled = true ∧ queueBus s clu = true ∧ cqCount (cq s clu j) < 2 ^ fld (cqCfg s clu j) 3 0) ∧
    (∃ (s : State), ∃ (clu j : Nat), ((cq s clu j).held = [] ∨ (cq s clu j).enabled = false ∨ queueBus s clu = false ∨
    2 ^ fld (cqCfg s clu j) 3 0 ≤ cqCount (cq s clu j))) ∧
    (∃ (s : State), ∃ (clu j u : Nat), (cq s clu j).timer = some u ∧ cqTimer s clu j ≠ 0 ∧ u + cqTimer s clu j ≤ s.us) ∧
    (∃ (s : State), ∃ (clu j : Nat), ((cq s clu j).timer = none ∨ cqTimer s clu j = 0 ∨ (∃ u, (cq s clu j).timer = some
    u ∧ s.us < u + cqTimer s clu j))) ∧
    (∃ (req : Req), ∃ (clu : Nat), ∃ (s : State), Serves s req .clu clu) ∧
    (∃ (req : Req), ∃ (clu : Nat), ∃ (s : State), Serves s req .clu clu) ∧
    (∃ (s : State), ∃ (req : Req), ∃ (clu q : Nat), 4 ≤ q ∧ clu < 64 ∧ Serves s req .clu clu) := by
  refine ⟨?_, ?_, ?_, ?_, ?_, ?_, ?_⟩
  · refine ⟨sCompletionQueues0, 63, 3, [0, 0, 0, 0, 0, 0, 0, 0, 0, 0, 0, 0, 0, 0, 0, 0], [], ?_, ?_, ?_, ?_⟩ <;>
      decide +kernel
  · refine ⟨sCompletionQueues0, 63, 63, ?_⟩ <;>
      decide +kernel
  · refine ⟨sCompletionQueues2, 63, 3, 0, ?_, ?_, ?_⟩ <;>
      decide +kernel
  · exact ⟨sCompletionQueues0, 63, 63,
    (by first | exact Or.inl (by decide +kernel) | exact Or.inr (Or.inl (by decide +kernel)) | exact Or.inr (Or.inr ((opt_ex (by decide +kernel)))))⟩
  · refine ⟨Req.car, 0, sCompletionQueues0, ⟨?_, ?_, ?_, ?_⟩⟩ <;>
      decide +kernel
  · refine ⟨Req.car, 0, sCompletionQueues0, ⟨?_, ?_, ?_, ?_⟩⟩ <;>
      decide +kernel
  · refine ⟨sCompletionQueues0, Req.car, 63, 63, ?_, ?_, ⟨?_, ?_, ?_, ?_⟩⟩ <;>
      decide +kernel

/-- A state of the witnesses of `FabricRequests`. -/
def sFabricRequests2 : State :=
  modCore fab0 0 (fun c => { c with rx := [(3, { coord := 9 })] })

def vFabricRequests0 : Pkt :=
  (Option.get ((arriveCheck fab0 (arrival fab0 7 7) tPut (pktBytes (reqPkt tPut 4 0 0xFFFF 0 [1, 2, 3, 4])) true).2)
  (by decide +kernel))

def vFabricRequests1 : State :=
  (peerCheck ((arriveCheck fab0 (arrival fab0 7 7) tPut (pktBytes (reqPkt tPut 4 0 0xFFFF 0 [1, 2, 3, 4])) true).1)
  (arrival fab0 7 7).part vFabricRequests0).1

def vFabricRequests2 : KeyEnt :=
  (Option.get (keyCheck vFabricRequests1 0 vFabricRequests0) (by decide +kernel))

def vFabricRequests3 : State :=
  (reqSpan vFabricRequests1 0 vFabricRequests2.slot vFabricRequests2 vFabricRequests0).1

def vFabricRequests4 : Pkt :=
  (Option.get ((arriveCheck fab0 (arrival fab0 7 7) tGetReq (pktBytes (reqPkt tGetReq 0 0 0xFFFF 4 [])) true).2)
  (by decide +kernel))

def vFabricRequests5 : State :=
  (peerCheck ((arriveCheck fab0 (arrival fab0 7 7) tGetReq (pktBytes (reqPkt tGetReq 0 0 0xFFFF 4 [])) true).1)
  (arrival fab0 7 7).part vFabricRequests4).1

def vFabricRequests6 : KeyEnt :=
  (Option.get (keyCheck vFabricRequests5 0 vFabricRequests4) (by decide +kernel))

def vFabricRequests7 : State :=
  (reqSpan vFabricRequests5 0 vFabricRequests6.slot vFabricRequests6 vFabricRequests4).1

def vFabricRequests8 : State :=
  (checkSpan (portOut (portIn vFabricRequests7 0 (vFabricRequests4.plen + reqPort vFabricRequests6 (reqLen
  vFabricRequests4))) 0 (reqLen vFabricRequests4)) [(35184372088832, 4)] Ecc.none (slot vFabricRequests5 0
  vFabricRequests6.slot).ctag).1

def vFabricRequests9 : State :=
  (readSpanZero vFabricRequests8 0 [(35184372088832, 4)] (slot vFabricRequests5 0 vFabricRequests6.slot).ctag).1

def vFabricRequests10 : Pkt :=
  (Option.get ((arriveCheck fab0 (arrival fab0 7 7) tAtomic (pktBytes (reqPkt tAtomic 0 0 63 1 [])) true).2)
  (by decide +kernel))

def vFabricRequests11 : State :=
  (peerCheck ((arriveCheck fab0 (arrival fab0 7 7) tAtomic (pktBytes (reqPkt tAtomic 0 0 63 1 [])) true).1) (arrival
  fab0 7 7).part vFabricRequests10).1

def vFabricRequests12 : KeyEnt :=
  (Option.get (keyCheck vFabricRequests11 0 vFabricRequests10) (by decide +kernel))

def vFabricRequests13 : State :=
  (reqSpan vFabricRequests11 0 vFabricRequests12.slot vFabricRequests12 vFabricRequests10).1

def vFabricRequests14 : State :=
  (checkSpan (portOut (portIn vFabricRequests13 0 (vFabricRequests10.plen + reqPort vFabricRequests12 (reqLen
  vFabricRequests10))) 0 (reqPort vFabricRequests12 (reqLen vFabricRequests10))) [(35184372088832, 8)] Ecc.none (slot
  vFabricRequests11 0 vFabricRequests12.slot).ctag).1

def vFabricRequests15 : State :=
  (readSpan vFabricRequests14 0 [(35184372088832, 8)] (slot vFabricRequests11 0 vFabricRequests12.slot).ctag).1

def vFabricRequests16 : Pkt :=
  (Option.get ((arriveCheck fab0 (arrival fab0 7 7) tReducePut (pktBytes (reqPkt tReducePut 4 0 0xFFFF 0 [1, 2, 3,
  4])) true).2) (by decide +kernel))

def vFabricRequests17 : State :=
  (peerCheck ((arriveCheck fab0 (arrival fab0 7 7) tReducePut (pktBytes (reqPkt tReducePut 4 0 0xFFFF 0 [1, 2, 3, 4]))
  true).1) (arrival fab0 7 7).part vFabricRequests16).1

def vFabricRequests18 : KeyEnt :=
  (Option.get (keyCheck vFabricRequests17 0 vFabricRequests16) (by decide +kernel))

def vFabricRequests19 : State :=
  (reqSpan vFabricRequests17 0 vFabricRequests18.slot vFabricRequests18 vFabricRequests16).1

def vFabricRequests20 : State :=
  (checkSpan (portOut (portIn vFabricRequests19 0 (vFabricRequests16.plen + reqPort vFabricRequests18 (reqLen
  vFabricRequests16))) 0 (reqPort vFabricRequests18 (reqLen vFabricRequests16))) [(35184372088832, 4)] Ecc.none (slot
  vFabricRequests17 0 vFabricRequests18.slot).ctag).1

def vFabricRequests21 : State :=
  (readSpan vFabricRequests20 0 [(35184372088832, 4)] (slot vFabricRequests17 0 vFabricRequests18.slot).ctag).1

def vFabricRequests22 : Pkt :=
  (Option.get ((arriveCheck fab0 (arrival fab0 7 7) tSignal (pktBytes (reqPkt tSignal 0 0 63 1 [])) true).2)
  (by decide +kernel))

def vFabricRequests23 : State :=
  (peerCheck ((arriveCheck fab0 (arrival fab0 7 7) tSignal (pktBytes (reqPkt tSignal 0 0 63 1 [])) true).1) (arrival
  fab0 7 7).part vFabricRequests22).1

def vFabricRequests24 : KeyEnt :=
  (Option.get (keyCheck vFabricRequests23 0 vFabricRequests22) (by decide +kernel))

def vFabricRequests25 : Pkt :=
  (Option.get ((arriveCheck fab0 (arrival fab0 7 7) tTally (pktBytes (reqPkt tTally 0 0 63 4 [])) true).2)
  (by decide +kernel))

def vFabricRequests26 : State :=
  (peerCheck ((arriveCheck fab0 (arrival fab0 7 7) tTally (pktBytes (reqPkt tTally 0 0 63 4 [])) true).1) (arrival
  fab0 7 7).part vFabricRequests25).1

def vFabricRequests27 : KeyEnt :=
  (Option.get (keyCheck vFabricRequests26 0 vFabricRequests25) (by decide +kernel))

def vFabricRequests28 : List Byte :=
  pktBytes ({ reqPkt tPut 4 0 0xFFFF 0 [1, 2, 3, 4] with rstream := 3, flags := 4 })

def vFabricRequests29 : Pkt :=
  (Option.get ((arriveCheck sFabricRequests2 (arrival sFabricRequests2 7 7) tPut vFabricRequests28 true).2)
  (by decide +kernel))

def vFabricRequests30 : State :=
  (peerCheck ((arriveCheck sFabricRequests2 (arrival sFabricRequests2 7 7) tPut vFabricRequests28 true).1) (arrival
  sFabricRequests2 7 7).part vFabricRequests29).1

def vFabricRequests31 : KeyEnt :=
  (Option.get (keyCheck vFabricRequests30 0 vFabricRequests29) (by decide +kernel))

def vFabricRequests32 : Pkt :=
  (Option.get ((arriveCheck fab0 (arrival fab0 7 7) tPut vFabricRequests28 true).2) (by decide +kernel))

def vFabricRequests33 : State :=
  (peerCheck ((arriveCheck fab0 (arrival fab0 7 7) tPut vFabricRequests28 true).1) (arrival fab0 7 7).part
  vFabricRequests32).1

def vFabricRequests34 : KeyEnt :=
  (Option.get (keyCheck vFabricRequests33 0 vFabricRequests32) (by decide +kernel))

def vFabricRequests35 : State :=
  (reqMemory vFabricRequests33 0 vFabricRequests34.slot (arrival fab0 7 7) vFabricRequests34 vFabricRequests32 (if
  tPut = tReducePut then Ecc.none else .none)).1

def vFabricRequests36 : ReqRes :=
  (reqMemory vFabricRequests33 0 vFabricRequests34.slot (arrival fab0 7 7) vFabricRequests34 vFabricRequests32 (if
  tPut = tReducePut then Ecc.none else .none)).2

theorem wit_FabricRequests :
    (∃ (s s2 s3 : State), ∃ (i part : Nat), ∃ (data : List Byte), ∃ (tagOk : Bool), ∃ (n : Nat), ∃ (k : Pkt), ∃ (e :
    KeyEnt), ∃ (parts : List (Nat × Nat)), ReqAt s s2 i part tPut data tagOk n k ∧ ReqKey s2 n k e ∧ k.ordered = false
    ∧ reqSpan s2 n e.slot e k = (s3, .ok parts)) ∧
    (∃ (s s2 s3 s4 s5 : State), ∃ (i part : Nat), ∃ (data : List Byte), ∃ (tagOk : Bool), ∃ (n : Nat), ∃ (k : Pkt), ∃
    (e : KeyEnt), ∃ (parts : List (Nat × Nat)), ∃ (bad : Bool), ∃ (b : List Byte), ∃ (ecc : Ecc), ReqAt s s2 i part
    tGetReq data tagOk n k ∧ ReqKey s2 n k e ∧ k.ordered = false ∧ reqSpan s2 n e.slot e k = (s3, .ok parts) ∧
    checkSpan (portOut (portIn s3 n (k.plen + reqPort e (reqLen k))) n (reqLen k)) parts ecc (slot s2 n e.slot).ctag =
    (s4, bad) ∧ readSpanZero s4 n parts (slot s2 n e.slot).ctag = (s5, b)) ∧
    (∃ (s s2 s3 s4 s5 : State), ∃ (i part : Nat), ∃ (data : List Byte), ∃ (tagOk : Bool), ∃ (n : Nat), ∃ (k : Pkt), ∃
    (e : KeyEnt), ∃ (parts : List (Nat × Nat)), ∃ (d : List Byte), ∃ (ecc : Ecc), ReqAt s s2 i part tAtomic data tagOk
    n k ∧ ReqKey s2 n k e ∧ k.ordered = false ∧ reqSpan s2 n e.slot e k = (s3, .ok parts) ∧ checkSpan (portOut (portIn
    s3 n (k.plen + reqPort e (reqLen k))) n (reqPort e (reqLen k))) parts ecc (slot s2 n e.slot).ctag = (s4, false) ∧
    readSpan s4 n parts (slot s2 n e.slot).ctag = (s5, d)) ∧
    (∃ (s s2 s3 s4 s5 : State), ∃ (i part : Nat), ∃ (data : List Byte), ∃ (tagOk : Bool), ∃ (n : Nat), ∃ (k : Pkt), ∃
    (e : KeyEnt), ∃ (parts : List (Nat × Nat)), ∃ (d : List Byte), ∃ (ecc : Ecc), ReqAt s s2 i part tReducePut data
    tagOk n k ∧ ReqKey s2 n k e ∧ k.ordered = false ∧ reqSpan s2 n e.slot e k = (s3, .ok parts) ∧ checkSpan (portOut
    (portIn s3 n (k.plen + reqPort e (reqLen k))) n (reqPort e (reqLen k))) parts ecc (slot s2 n e.slot).ctag = (s4,
    false) ∧ readSpan s4 n parts (slot s2 n e.slot).ctag = (s5, d)) ∧
    (∃ (s s2 : State), ∃ (i part : Nat), ∃ (data : List Byte), ∃ (tagOk : Bool), ∃ (n : Nat), ∃ (k : Pkt), ∃ (e :
    KeyEnt), ReqKey s2 n k e ∧ k.ordered = false ∧ ReqAt s s2 i part tSignal data tagOk n k) ∧
    (∃ (s s2 : State), ∃ (i part : Nat), ∃ (data : List Byte), ∃ (tagOk : Bool), ∃ (n : Nat), ∃ (k : Pkt), ∃ (e :
    KeyEnt), ReqKey s2 n k e ∧ k.ordered = false ∧ ReqAt s s2 i part tTally data tagOk n k) ∧
    (∃ c, ∃ (s s2 : State), ∃ (i part : Nat), ∃ (data : List Byte), ∃ (tagOk : Bool), ∃ (n : Nat), ∃ (k : Pkt), ∃ (e :
    KeyEnt), c ∈ reqRows ∧ (c.2 = tPut ∨ c.2 = tReducePut) ∧ ReqAt s s2 i part c.2 data tagOk n k ∧ ReqKey s2 n k e ∧
    k.ordered = true ∧ rxBusy s2 n e.slot k = true) ∧
    (∃ c, ∃ (s s2 s3 : State), ∃ (i part : Nat), ∃ (data : List Byte), ∃ (tagOk : Bool), ∃ (n : Nat), ∃ (k : Pkt), ∃ (e
    : KeyEnt), ∃ (ecc : Ecc), ∃ (r : ReqRes), c ∈ reqRows ∧ (c.2 = tPut ∨ c.2 = tReducePut) ∧ ReqAt s s2 i part c.2
    data tagOk n k ∧ ReqKey s2 n k e ∧ k.ordered = true ∧
    let a := arrival s i part; rxBusy s2 n e.slot k = false ∧ reqMemory s2 n e.slot a e k (if c.2 = tReducePut then
      ecc else .none) = (s3, r)) := by
  refine ⟨?_, ?_, ?_, ?_, ?_, ?_, ?_, ?_⟩
  · refine ⟨fab0, vFabricRequests1, vFabricRequests3, 7, 7, pktBytes (reqPkt tPut 4 0 0xFFFF 0 [1, 2, 3, 4]), true, 0,
    vFabricRequests0, vFabricRequests2, [(35184372088832, 4)], ⟨⟨(arriveCheck fab0 (arrival fab0 7 7) tPut (pktBytes
    (reqPkt tPut 4 0 0xFFFF 0 [1, 2, 3, 4])) true).1, ⟨?_, ?_⟩⟩, ?_, ?_, ?_, ?_, ?_, ?_, ?_⟩, ⟨?_, ?_, ?_, ?_⟩, ?_,
    ?_⟩ <;>
      decide +kernel
  · refine ⟨fab0, vFabricRequests5, vFabricRequests7, vFabricRequests8, vFabricRequests9, 7, 7, pktBytes (reqPkt tGetReq 0 0
    0xFFFF 4 []), true, 0, vFabricRequests4, vFabricRequests6, [(35184372088832, 4)], false, [0, 0, 0, 0], Ecc.none,
    ⟨⟨(arriveCheck fab0 (arrival fab0 7 7) tGetReq (pktBytes (reqPkt tGetReq 0 0 0xFFFF 4 [])) true).1, ⟨?_, ?_⟩⟩, ?_,
    ?_, ?_, ?_, ?_, ?_, ?_⟩, ⟨?_, ?_, ?_, ?_⟩, ?_, ?_, ?_, ?_⟩ <;>
      decide +kernel
  · refine ⟨fab0, vFabricRequests11, vFabricRequests13, vFabricRequests14, vFabricRequests15, 7, 7, pktBytes (reqPkt tAtomic
    0 0 63 1 []), true, 0, vFabricRequests10, vFabricRequests12, [(35184372088832, 8)], [0, 0, 0, 0, 0, 0, 0, 0],
    Ecc.none, ⟨⟨(arriveCheck fab0 (arrival fab0 7 7) tAtomic (pktBytes (reqPkt tAtomic 0 0 63 1 [])) true).1, ⟨?_,
    ?_⟩⟩, ?_, ?_, ?_, ?_, ?_, ?_, ?_⟩, ⟨?_, ?_, ?_, ?_⟩, ?_, ?_, ?_, ?_⟩ <;>
      decide +kernel
  · refine ⟨fab0, vFabricRequests17, vFabricRequests19, vFabricRequests20, vFabricRequests21, 7, 7, pktBytes (reqPkt
    tReducePut 4 0 0xFFFF 0 [1, 2, 3, 4]), true, 0, vFabricRequests16, vFabricRequests18, [(35184372088832, 4)], [0,
    0, 0, 0], Ecc.none, ⟨⟨(arriveCheck fab0 (arrival fab0 7 7) tReducePut (pktBytes (reqPkt tReducePut 4 0 0xFFFF 0
    [1, 2, 3, 4])) true).1, ⟨?_, ?_⟩⟩, ?_, ?_, ?_, ?_, ?_, ?_, ?_⟩, ⟨?_, ?_, ?_, ?_⟩, ?_, ?_, ?_, ?_⟩ <;>
      decide +kernel
  · refine ⟨fab0, vFabricRequests23, 7, 7, pktBytes (reqPkt tSignal 0 0 63 1 []), true, 0, vFabricRequests22,
    vFabricRequests24, ⟨?_, ?_, ?_, ?_⟩, ?_, ⟨⟨(arriveCheck fab0 (arrival fab0 7 7) tSignal (pktBytes (reqPkt tSignal
    0 0 63 1 [])) true).1, ⟨?_, ?_⟩⟩, ?_, ?_, ?_, ?_, ?_, ?_, ?_⟩⟩ <;>
      decide +kernel
  · refine ⟨fab0, vFabricRequests26, 7, 7, pktBytes (reqPkt tTally 0 0 63 4 []), true, 0, vFabricRequests25,
    vFabricRequests27, ⟨?_, ?_, ?_, ?_⟩, ?_, ⟨⟨(arriveCheck fab0 (arrival fab0 7 7) tTally (pktBytes (reqPkt tTally 0
    0 63 4 [])) true).1, ⟨?_, ?_⟩⟩, ?_, ?_, ?_, ?_, ?_, ?_, ?_⟩⟩ <;>
      decide +kernel
  · refine ⟨(fun i p d g _ => Instr.putPkt i p d g, tPut), sFabricRequests2, vFabricRequests30, 7, 7, vFabricRequests28,
    true, 0, vFabricRequests29, vFabricRequests31, List.mem_cons_self, ?_, ⟨⟨(arriveCheck sFabricRequests2 (arrival
    sFabricRequests2 7 7) tPut vFabricRequests28 true).1, ⟨?_, ?_⟩⟩, ?_, ?_, ?_, ?_, ?_, ?_, ?_⟩, ⟨?_, ?_, ?_, ?_⟩,
    ?_, ?_⟩ <;>
      decide +kernel
  · refine ⟨(fun i p d g _ => Instr.putPkt i p d g, tPut), fab0, vFabricRequests33, vFabricRequests35, 7, 7,
    vFabricRequests28, true, 0, vFabricRequests32, vFabricRequests34, Ecc.none, vFabricRequests36, List.mem_cons_self,
    ?_, ⟨⟨(arriveCheck fab0 (arrival fab0 7 7) tPut vFabricRequests28 true).1, ⟨?_, ?_⟩⟩, ?_, ?_, ?_, ?_, ?_, ?_, ?_⟩,
    ⟨?_, ?_, ?_, ?_⟩, ?_, ?_, ?_⟩ <;>
      decide +kernel

/-- A state of the witnesses of `FabricRefusals`. -/
def sFabricRefusals1 : State :=
  { fab0 with partReset := [(0, {})] }

/-- A state of the witnesses of `FabricRefusals`. -/
def sFabricRefusals2 : State :=
  modCore fab0 0 (fun c => { c with engReset := 8 })

/-- A state of the witnesses of `FabricRefusals`. -/
def sFabricRefusals3 : State :=
  { fab0 with peers := [(6, { state := 2 })] }

/-- A state of the witnesses of `FabricRefusals`. -/
def sFabricRefusals6 : State :=
  { fab0 with poison := [(lmDpa 0 / 64, true)] }

/-- A state of the witnesses of `FabricRefusals`. -/
def sFabricRefusals9 : State :=
  { fab0 with split := 1 }

/-- A state of the witnesses of `FabricRefusals`. -/
def sFabricRefusals10 : State :=
  { fab0 with peers := [(6, { state := 1, epoch := 9 })] }

/-- A state of the witnesses of `FabricRefusals`. -/
def sFabricRefusals11 : State :=
  { fab0 with mcCfg := [(0, 0x100)], mcCheck := [(0, 4)] }

def vFabricRefusals0 : State :=
  (arriveCheck sFabricRefusals10 (arrival sFabricRefusals10 7 7) tPut (pktBytes (reqPkt tPut 4 0 0xFFFF 0 [1, 2, 3,
  4])) true).1

def vFabricRefusals1 : State :=
  (peerCheck vFabricRefusals0 (arrival sFabricRefusals10 7 7).part (Option.get ((arriveCheck sFabricRefusals10
  (arrival sFabricRefusals10 7 7) tPut (pktBytes (reqPkt tPut 4 0 0xFFFF 0 [1, 2, 3, 4])) true).2)
  (by decide +kernel))).1

def vFabricRefusals2 : State :=
  (arriveCheck sFabricRefusals3 (arrival sFabricRefusals3 7 7) tPut (pktBytes (reqPkt tPut 4 0 0xFFFF 0 [1, 2, 3, 4]))
  true).1

def vFabricRefusals3 : State :=
  (peerCheck vFabricRefusals2 (arrival sFabricRefusals3 7 7).part (Option.get ((arriveCheck sFabricRefusals3 (arrival
  sFabricRefusals3 7 7) tPut (pktBytes (reqPkt tPut 4 0 0xFFFF 0 [1, 2, 3, 4])) true).2) (by decide +kernel))).1

def vFabricRefusals4 : List Byte :=
  pktBytes ({ reqPkt tPut 4 0 0xFFFF 0 [1, 2, 3, 4] with dstEpoch := 9 })

def vFabricRefusals5 : State :=
  (peerCheck ((arriveCheck fab0 (arrival fab0 7 7) tPut vFabricRefusals4 true).1) (arrival fab0 7 7).part (Option.get
  ((arriveCheck fab0 (arrival fab0 7 7) tPut vFabricRefusals4 true).2) (by decide +kernel))).1

def vFabricRefusals6 : List Byte :=
  pktBytes ({ reqPkt tPut 4 0 0xFFFF 0 [1, 2, 3, 4] with dstEndpt := 95 })

def vFabricRefusals7 : State :=
  (peerCheck ((arriveCheck fab0 (arrival fab0 7 7) tPut vFabricRefusals6 true).1) (arrival fab0 7 7).part (Option.get
  ((arriveCheck fab0 (arrival fab0 7 7) tPut vFabricRefusals6 true).2) (by decide +kernel))).1

def vFabricRefusals8 : State :=
  (arriveCheck sFabricRefusals1 (arrival sFabricRefusals1 7 7) tPut (pktBytes (reqPkt tPut 4 0 0xFFFF 0 [1, 2, 3, 4]))
  true).1

def vFabricRefusals9 : State :=
  (peerCheck vFabricRefusals8 (arrival sFabricRefusals1 7 7).part (Option.get ((arriveCheck sFabricRefusals1 (arrival
  sFabricRefusals1 7 7) tPut (pktBytes (reqPkt tPut 4 0 0xFFFF 0 [1, 2, 3, 4])) true).2) (by decide +kernel))).1

def vFabricRefusals10 : State :=
  (arriveCheck fab0 (arrival fab0 7 7) tPut (pktBytes ({ reqPkt tPut 4 0 0xFFFF 0 [1, 2, 3, 4] with opx := 9 }))
  true).1

def vFabricRefusals11 : State :=
  (peerCheck vFabricRefusals10 (arrival fab0 7 7).part (Option.get ((arriveCheck fab0 (arrival fab0 7 7) tPut
  (pktBytes ({ reqPkt tPut 4 0 0xFFFF 0 [1, 2, 3, 4] with opx := 9 })) true).2) (by decide +kernel))).1

def vFabricRefusals12 : State :=
  (arriveCheck sFabricRefusals2 (arrival sFabricRefusals2 7 7) tPut (pktBytes (reqPkt tPut 4 0 0xFFFF 0 [1, 2, 3, 4]))
  true).1

def vFabricRefusals13 : State :=
  (peerCheck vFabricRefusals12 (arrival sFabricRefusals2 7 7).part (Option.get ((arriveCheck sFabricRefusals2 (arrival
  sFabricRefusals2 7 7) tPut (pktBytes (reqPkt tPut 4 0 0xFFFF 0 [1, 2, 3, 4])) true).2) (by decide +kernel))).1

def vFabricRefusals14 : State :=
  (arriveCheck fab0 (arrival fab0 7 7) tPut (pktBytes ({ reqPkt tPut 4 0 0xFFFF 0 [1, 2, 3, 4] with key := 0 }))
  true).1

def vFabricRefusals15 : State :=
  (peerCheck vFabricRefusals14 (arrival fab0 7 7).part (Option.get ((arriveCheck fab0 (arrival fab0 7 7) tPut
  (pktBytes ({ reqPkt tPut 4 0 0xFFFF 0 [1, 2, 3, 4] with key := 0 })) true).2) (by decide +kernel))).1

def vFabricRefusals16 : State :=
  (arriveCheck fab0 (arrival fab0 7 7) tPut (pktBytes ({ reqPkt tPut 4 0 0xFFFF 0 [1, 2, 3, 4] with rsig := 5000 }))
  true).1

def vFabricRefusals17 : State :=
  (peerCheck vFabricRefusals16 (arrival fab0 7 7).part (Option.get ((arriveCheck fab0 (arrival fab0 7 7) tPut
  (pktBytes ({ reqPkt tPut 4 0 0xFFFF 0 [1, 2, 3, 4] with rsig := 5000 })) true).2) (by decide +kernel))).1

def vFabricRefusals18 : List Byte :=
  pktBytes ({ reqPkt tPut 4 0 0xFFFF 0 [1, 2, 3, 4] with addr := 0x10000000 })

def vFabricRefusals19 : State :=
  (peerCheck ((arriveCheck fab0 (arrival fab0 7 7) tPut vFabricRefusals18 true).1) (arrival fab0 7 7).part (Option.get
  ((arriveCheck fab0 (arrival fab0 7 7) tPut vFabricRefusals18 true).2) (by decide +kernel))).1

def vFabricRefusals20 : State :=
  (reqSpan vFabricRefusals19 0 (Option.get (keyCheck vFabricRefusals19 0 (Option.get ((arriveCheck fab0 (arrival fab0
  7 7) tPut vFabricRefusals18 true).2) (by decide +kernel))) (by decide +kernel)).slot (Option.get (keyCheck
  vFabricRefusals19 0 (Option.get ((arriveCheck fab0 (arrival fab0 7 7) tPut vFabricRefusals18 true).2)
  (by decide +kernel))) (by decide +kernel)) (Option.get ((arriveCheck fab0 (arrival fab0 7 7) tPut vFabricRefusals18
  true).2) (by decide +kernel))).1

def vFabricRefusals21 : State :=
  (arriveCheck sFabricRefusals6 (arrival sFabricRefusals6 7 7) tAtomic (pktBytes (reqPkt tAtomic 0 0 63 1 [])) true).1

def vFabricRefusals22 : State :=
  (peerCheck vFabricRefusals21 (arrival sFabricRefusals6 7 7).part (Option.get ((arriveCheck sFabricRefusals6 (arrival
  sFabricRefusals6 7 7) tAtomic (pktBytes (reqPkt tAtomic 0 0 63 1 [])) true).2) (by decide +kernel))).1

def vFabricRefusals23 : State :=
  (reqSpan vFabricRefusals22 0 (Option.get (keyCheck vFabricRefusals22 0 (Option.get ((arriveCheck sFabricRefusals6
  (arrival sFabricRefusals6 7 7) tAtomic (pktBytes (reqPkt tAtomic 0 0 63 1 [])) true).2) (by decide +kernel)))
  (by decide +kernel)).slot (Option.get (keyCheck vFabricRefusals22 0 (Option.get ((arriveCheck sFabricRefusals6
  (arrival sFabricRefusals6 7 7) tAtomic (pktBytes (reqPkt tAtomic 0 0 63 1 [])) true).2) (by decide +kernel)))
  (by decide +kernel)) (Option.get ((arriveCheck sFabricRefusals6 (arrival sFabricRefusals6 7 7) tAtomic (pktBytes
  (reqPkt tAtomic 0 0 63 1 [])) true).2) (by decide +kernel))).1

def vFabricRefusals24 : State :=
  (checkSpan (portOut (portIn vFabricRefusals23 0 ((Option.get ((arriveCheck sFabricRefusals6 (arrival
  sFabricRefusals6 7 7) tAtomic (pktBytes (reqPkt tAtomic 0 0 63 1 [])) true).2) (by decide +kernel)).plen + reqPort
  (Option.get (keyCheck vFabricRefusals22 0 (Option.get ((arriveCheck sFabricRefusals6 (arrival sFabricRefusals6 7 7)
  tAtomic (pktBytes (reqPkt tAtomic 0 0 63 1 [])) true).2) (by decide +kernel))) (by decide +kernel)) (reqLen
  (Option.get ((arriveCheck sFabricRefusals6 (arrival sFabricRefusals6 7 7) tAtomic (pktBytes (reqPkt tAtomic 0 0 63 1
  [])) true).2) (by decide +kernel))))) 0 (reqPort (Option.get (keyCheck vFabricRefusals22 0 (Option.get ((arriveCheck
  sFabricRefusals6 (arrival sFabricRefusals6 7 7) tAtomic (pktBytes (reqPkt tAtomic 0 0 63 1 [])) true).2)
  (by decide +kernel))) (by decide +kernel)) (reqLen (Option.get ((arriveCheck sFabricRefusals6 (arrival
  sFabricRefusals6 7 7) tAtomic (pktBytes (reqPkt tAtomic 0 0 63 1 [])) true).2) (by decide +kernel)))))
  [(35184372088832, 8)] Ecc.none (slot vFabricRefusals22 0 (Option.get (keyCheck vFabricRefusals22 0 (Option.get
  ((arriveCheck sFabricRefusals6 (arrival sFabricRefusals6 7 7) tAtomic (pktBytes (reqPkt tAtomic 0 0 63 1 []))
  true).2) (by decide +kernel))) (by decide +kernel)).slot).ctag).1

def vFabricRefusals25 : List Byte :=
  pktBytes ({ reqPkt tPut 4 0 0xFFFF 0 [1, 2, 3, 4] with dstEndpt := 30 })

def vFabricRefusals26 : State :=
  (arriveCheck sFabricRefusals1 (arrival sFabricRefusals1 7 7) tPut vFabricRefusals25 true).1

def vFabricRefusals27 : State :=
  (peerCheck vFabricRefusals26 (arrival sFabricRefusals1 7 7).part (Option.get ((arriveCheck sFabricRefusals1 (arrival
  sFabricRefusals1 7 7) tPut vFabricRefusals25 true).2) (by decide +kernel))).1

def vFabricRefusals28 : State :=
  (arriveCheck sFabricRefusals9 (arrival sFabricRefusals9 7 7) tPut vFabricRefusals25 true).1

def vFabricRefusals29 : State :=
  (peerCheck vFabricRefusals28 (arrival sFabricRefusals9 7 7).part (Option.get ((arriveCheck sFabricRefusals9 (arrival
  sFabricRefusals9 7 7) tPut vFabricRefusals25 true).2) (by decide +kernel))).1

def vFabricRefusals30 : State :=
  (arriveCheck sFabricRefusals11 (arrival sFabricRefusals11 7 7) tPut vFabricRefusals25 true).1

def vFabricRefusals31 : State :=
  (peerCheck vFabricRefusals30 (arrival sFabricRefusals11 7 7).part (Option.get ((arriveCheck sFabricRefusals11
  (arrival sFabricRefusals11 7 7) tPut vFabricRefusals25 true).2) (by decide +kernel))).1

def vFabricRefusals32 : State :=
  (peerCheck ((arriveCheck fab0 (arrival fab0 7 7) tPut vFabricRefusals25 true).1) (arrival fab0 7 7).part (Option.get
  ((arriveCheck fab0 (arrival fab0 7 7) tPut vFabricRefusals25 true).2) (by decide +kernel))).1

theorem wit_FabricRefusals :
    (∃ c, ∃ (s s1 : State), ∃ (i part : Nat), ∃ (data : List Byte), ∃ (tagOk : Bool), c ∈ reqRows ∧
    let a := arrival s i part; arriveCheck s a c.2 data tagOk = (s1, none)) ∧
    (∃ c, ∃ (s s1 s2 : State), ∃ (i part : Nat), ∃ (data : List Byte), ∃ (tagOk : Bool), ∃ k, c ∈ reqRows ∧
    let a := arrival s i part; arriveCheck s a c.2 data tagOk = (s1, some k) ∧ peerCheck s1 a.part k = (s2, .discard)) ∧
    (∃ c, ∃ (s s1 s2 : State), ∃ (i part : Nat), ∃ (data : List Byte), ∃ (tagOk : Bool), ∃ k, c ∈ reqRows ∧
    let a := arrival s i part; arriveCheck s a c.2 data tagOk = (s1, some k) ∧ peerCheck s1 a.part k = (s2, .lost)) ∧
    (∃ c, ∃ (s s1 s2 : State), ∃ (i part : Nat), ∃ (data : List Byte), ∃ (tagOk : Bool), ∃ k, c ∈ reqRows ∧
    let a := arrival s i part; arriveCheck s a c.2 data tagOk = (s1, some k) ∧ peerCheck s1 a.part k = (s2, .ok) ∧
      k.dstEpoch ≠ 0 ∧ k.dstEpoch ≠ s2.epoch) ∧
    (∃ c, ∃ (s s1 s2 : State), ∃ (i part : Nat), ∃ (data : List Byte), ∃ (tagOk : Bool), ∃ k, c ∈ reqRows ∧
    let a := arrival s i part; arriveCheck s a c.2 data tagOk = (s1, some k) ∧ peerCheck s1 a.part k = (s2, .ok) ∧
      (k.dstEpoch = 0 ∨ k.dstEpoch = s2.epoch) ∧ (∀ n, endptOf s2 k.dstEndpt ≠ .core n) ∧ (∀ pp, endptOf s2 k.dstEndpt
      ≠ .pipe pp)) ∧
    (∃ c, ∃ (s s1 s2 : State), ∃ (i part : Nat), ∃ (data : List Byte), ∃ (tagOk : Bool), ∃ k n, c ∈ reqRows ∧
    let a := arrival s i part; arriveCheck s a c.2 data tagOk = (s1, some k) ∧ peerCheck s1 a.part k = (s2, .ok) ∧
      (k.dstEpoch = 0 ∨ k.dstEpoch = s2.epoch) ∧ endptOf s2 k.dstEndpt = .core n ∧ inReset s2 (partOfCore s2 n) = true) ∧
    (∃ c, ∃ (s s1 s2 : State), ∃ (i part : Nat), ∃ (data : List Byte), ∃ (tagOk : Bool), ∃ k n, c ∈ reqRows ∧
    let a := arrival s i part; arriveCheck s a c.2 data tagOk = (s1, some k) ∧ peerCheck s1 a.part k = (s2, .ok) ∧
      (k.dstEpoch = 0 ∨ k.dstEpoch = s2.epoch) ∧ endptOf s2 k.dstEndpt = .core n ∧ inReset s2 (partOfCore s2 n) =
      false ∧ (partOfCore s2 n ≠ a.part ∨ reqFieldsOk k = false)) ∧
    (∃ c, ∃ (s s1 s2 : State), ∃ (i part : Nat), ∃ (data : List Byte), ∃ (tagOk : Bool), ∃ k n, c ∈ reqRows ∧
    let a := arrival s i part; arriveCheck s a c.2 data tagOk = (s1, some k) ∧ peerCheck s1 a.part k = (s2, .ok) ∧
      (k.dstEpoch = 0 ∨ k.dstEpoch = s2.epoch) ∧ endptOf s2 k.dstEndpt = .core n ∧ inReset s2 (partOfCore s2 n) =
      false ∧ partOfCore s2 n = a.part ∧ reqFieldsOk k = true ∧ bit (core s2 n).engReset 3 = true) ∧
    (∃ c, ∃ (s s1 s2 : State), ∃ (i part : Nat), ∃ (data : List Byte), ∃ (tagOk : Bool), ∃ k n, c ∈ reqRows ∧
    let a := arrival s i part; arriveCheck s a c.2 data tagOk = (s1, some k) ∧ peerCheck s1 a.part k = (s2, .ok) ∧
      (k.dstEpoch = 0 ∨ k.dstEpoch = s2.epoch) ∧ endptOf s2 k.dstEndpt = .core n ∧ inReset s2 (partOfCore s2 n) =
      false ∧ partOfCore s2 n = a.part ∧ reqFieldsOk k = true ∧ bit (core s2 n).engReset 3 = false ∧ keyCheck s2 n k =
      none) ∧
    (∃ c, ∃ (s s1 s2 : State), ∃ (i part : Nat), ∃ (data : List Byte), ∃ (tagOk : Bool), ∃ k n e, c ∈ reqRows ∧
    let a := arrival s i part; arriveCheck s a c.2 data tagOk = (s1, some k) ∧ peerCheck s1 a.part k = (s2, .ok) ∧
      (k.dstEpoch = 0 ∨ k.dstEpoch = s2.epoch) ∧ endptOf s2 k.dstEndpt = .core n ∧ inReset s2 (partOfCore s2 n) =
      false ∧ partOfCore s2 n = a.part ∧ reqFieldsOk k = true ∧ bit (core s2 n).engReset 3 = false ∧ keyCheck s2 n k =
      some e ∧ (slotLive s2 n e.slot = false ∨ (e.target = false ∧ slotAsid s2 n e.slot ≠ e.asid) ∨ (k.rsig ≠ 0xFFFF ∧
      physObj s2 n e.slot k.rsig = none))) ∧
    (∃ c, ∃ (s s1 s2 : State), ∃ (i part : Nat), ∃ (data : List Byte), ∃ (tagOk : Bool), ∃ k n e, ∃ (s3 : State), ∃ f,
    c ∈ reqRows ∧
    let a := arrival s i part; arriveCheck s a c.2 data tagOk = (s1, some k) ∧ peerCheck s1 a.part k = (s2, .ok) ∧
      (k.dstEpoch = 0 ∨ k.dstEpoch = s2.epoch) ∧ endptOf s2 k.dstEndpt = .core n ∧ inReset s2 (partOfCore s2 n) =
      false ∧ partOfCore s2 n = a.part ∧ reqFieldsOk k = true ∧ bit (core s2 n).engReset 3 = false ∧ ReqKey s2 n k e ∧
      k.ordered = false ∧ reqSpan s2 n e.slot e k = (s3, .fault f)) ∧
    (∃ c, ∃ (s s1 s2 : State), ∃ (i part : Nat), ∃ (data : List Byte), ∃ (tagOk : Bool), ∃ (ecc : Ecc), ∃ k n e, ∃ (s3
    : State), ∃ s4 parts, c ∈ reqRows ∧
    let a := arrival s i part; arriveCheck s a c.2 data tagOk = (s1, some k) ∧ peerCheck s1 a.part k = (s2, .ok) ∧
      (k.dstEpoch = 0 ∨ k.dstEpoch = s2.epoch) ∧ endptOf s2 k.dstEndpt = .core n ∧ inReset s2 (partOfCore s2 n) =
      false ∧ partOfCore s2 n = a.part ∧ reqFieldsOk k = true ∧ bit (core s2 n).engReset 3 = false ∧ (c.2 = tReducePut
      ∨ c.2 = tAtomic) ∧ ReqKey s2 n k e ∧ k.ordered = false ∧ reqSpan s2 n e.slot e k = (s3, .ok parts) ∧ checkSpan
      (portOut (portIn s3 n (k.plen + reqPort e (reqLen k))) n (reqPort e (reqLen k))) parts ecc (slot s2 n
      e.slot).ctag = (s4, true)) ∧
    (∃ c, ∃ (s s1 s2 : State), ∃ (i part : Nat), ∃ (data : List Byte), ∃ (tagOk : Bool), ∃ k pp, c ∈ reqRows ∧
    let a := arrival s i part; arriveCheck s a c.2 data tagOk = (s1, some k) ∧ peerCheck s1 a.part k = (s2, .ok) ∧
      (k.dstEpoch = 0 ∨ k.dstEpoch = s2.epoch) ∧ endptOf s2 k.dstEndpt = .pipe pp ∧ inReset s2 (partOfPipe s2 pp) =
      true) ∧
    (∃ c, ∃ (s s1 s2 : State), ∃ (i part : Nat), ∃ (data : List Byte), ∃ (tagOk : Bool), ∃ k pp, c ∈ reqRows ∧
    let a := arrival s i part; arriveCheck s a c.2 data tagOk = (s1, some k) ∧ peerCheck s1 a.part k = (s2, .ok) ∧
      (k.dstEpoch = 0 ∨ k.dstEpoch = s2.epoch) ∧ endptOf s2 k.dstEndpt = .pipe pp ∧ inReset s2 (partOfPipe s2 pp) =
      false ∧ (partOfPipe s2 pp ≠ a.part ∨ reqFieldsOk k = false ∨ c.2 ≠ tPut)) ∧
    (∃ c, ∃ (s s1 s2 : State), ∃ (i part : Nat), ∃ (data : List Byte), ∃ (tagOk : Bool), ∃ k pp, c ∈ reqRows ∧
    let a := arrival s i part; arriveCheck s a c.2 data tagOk = (s1, some k) ∧ peerCheck s1 a.part k = (s2, .ok) ∧
      (k.dstEpoch = 0 ∨ k.dstEpoch = s2.epoch) ∧ endptOf s2 k.dstEndpt = .pipe pp ∧ inReset s2 (partOfPipe s2 pp) =
      false ∧ partOfPipe s2 pp = a.part ∧ reqFieldsOk k = true ∧ c.2 = tPut ∧
      let g := 16 * barrierPipe s2 a.part + k.key % 16; ((wbit (mgetD s2.mcCfg g 0) 8 = true ∧ (k.fwd = true →
        k.mcgroup = k.key % 16) ∧ fld (mgetD s2.mcCheck g 0) 27 0 = k.key / 16))) ∧
    (∃ c, ∃ (s s1 s2 : State), ∃ (i part : Nat), ∃ (data : List Byte), ∃ (tagOk : Bool), ∃ k pp, c ∈ reqRows ∧
    let a := arrival s i part; arriveCheck s a c.2 data tagOk = (s1, some k) ∧ peerCheck s1 a.part k = (s2, .ok) ∧
      (k.dstEpoch = 0 ∨ k.dstEpoch = s2.epoch) ∧ endptOf s2 k.dstEndpt = .pipe pp ∧ inReset s2 (partOfPipe s2 pp) =
      false ∧ partOfPipe s2 pp = a.part ∧ reqFieldsOk k = true ∧ c.2 = tPut ∧
      let g := 16 * barrierPipe s2 a.part + k.key % 16; (¬ (wbit (mgetD s2.mcCfg g 0) 8 = true ∧ (k.fwd = true →
        k.mcgroup = k.key % 16) ∧ fld (mgetD s2.mcCheck g 0) 27 0 = k.key / 16))) := by
  refine ⟨?_, ?_, ?_, ?_, ?_, ?_, ?_, ?_, ?_, ?_, ?_, ?_, ?_, ?_, ?_, ?_⟩
  · refine ⟨(fun i p d g _ => Instr.putPkt i p d g, tPut), fab0, (arriveCheck fab0 (arrival fab0 7 7) tPut [] true).1, 7, 7,
    [], true, List.mem_cons_self, ?_⟩ <;>
      decide +kernel
  · refine ⟨(fun i p d g _ => Instr.putPkt i p d g, tPut), sFabricRefusals10, vFabricRefusals0, vFabricRefusals1, 7, 7,
    pktBytes (reqPkt tPut 4 0 0xFFFF 0 [1, 2, 3, 4]), true, (Option.get ((arriveCheck sFabricRefusals10 (arrival
    sFabricRefusals10 7 7) tPut (pktBytes (reqPkt tPut 4 0 0xFFFF 0 [1, 2, 3, 4])) true).2) (by decide +kernel)),
    List.mem_cons_self, ?_, ?_⟩ <;>
      decide +kernel
  · refine ⟨(fun i p d g _ => Instr.putPkt i p d g, tPut), sFabricRefusals3, vFabricRefusals2, vFabricRefusals3, 7, 7,
    pktBytes (reqPkt tPut 4 0 0xFFFF 0 [1, 2, 3, 4]), true, (Option.get ((arriveCheck sFabricRefusals3 (arrival
    sFabricRefusals3 7 7) tPut (pktBytes (reqPkt tPut 4 0 0xFFFF 0 [1, 2, 3, 4])) true).2) (by decide +kernel)),
    List.mem_cons_self, ?_, ?_⟩ <;>
      decide +kernel
  · refine ⟨(fun i p d g _ => Instr.putPkt i p d g, tPut), fab0, (arriveCheck fab0 (arrival fab0 7 7) tPut vFabricRefusals4
    true).1, vFabricRefusals5, 7, 7, vFabricRefusals4, true, (Option.get ((arriveCheck fab0 (arrival fab0 7 7) tPut
    vFabricRefusals4 true).2) (by decide +kernel)), List.mem_cons_self, ?_, ?_, ?_, ?_⟩ <;>
      decide +kernel
  · refine ⟨(fun i p d g _ => Instr.putPkt i p d g, tPut), fab0, (arriveCheck fab0 (arrival fab0 7 7) tPut vFabricRefusals6
    true).1, vFabricRefusals7, 7, 7, vFabricRefusals6, true, (Option.get ((arriveCheck fab0 (arrival fab0 7 7) tPut
    vFabricRefusals6 true).2) (by decide +kernel)), List.mem_cons_self, ?_, ?_, ?_, (fun p_ h_ => absurd (show (match
    endptOf vFabricRefusals7 (Option.get ((arriveCheck fab0 (arrival fab0 7 7) tPut vFabricRefusals6 true).2)
    (by decide +kernel)).dstEndpt with | .core _ => true | _ => false) = true by rw [h_]) (by decide +kernel)), (fun
    p_ h_ => absurd (show (match endptOf vFabricRefusals7 (Option.get ((arriveCheck fab0 (arrival fab0 7 7) tPut
    vFabricRefusals6 true).2) (by decide +kernel)).dstEndpt with | .pipe _ => true | _ => false) = true by rw [h_])
    (by decide +kernel))⟩ <;>
      decide +kernel
  · refine ⟨(fun i p d g _ => Instr.putPkt i p d g, tPut), sFabricRefusals1, vFabricRefusals8, vFabricRefusals9, 7, 7,
    pktBytes (reqPkt tPut 4 0 0xFFFF 0 [1, 2, 3, 4]), true, (Option.get ((arriveCheck sFabricRefusals1 (arrival
    sFabricRefusals1 7 7) tPut (pktBytes (reqPkt tPut 4 0 0xFFFF 0 [1, 2, 3, 4])) true).2) (by decide +kernel)), 0,
    List.mem_cons_self, ?_, ?_, ?_, ?_, ?_⟩ <;>
      decide +kernel
  · refine ⟨(fun i p d g _ => Instr.putPkt i p d g, tPut), fab0, vFabricRefusals10, vFabricRefusals11, 7, 7, pktBytes
    ({ reqPkt tPut 4 0 0xFFFF 0 [1, 2, 3, 4] with opx := 9 }), true, (Option.get ((arriveCheck fab0 (arrival fab0 7 7)
    tPut (pktBytes ({ reqPkt tPut 4 0 0xFFFF 0 [1, 2, 3, 4] with opx := 9 })) true).2) (by decide +kernel)), 0,
    List.mem_cons_self, ?_, ?_, ?_, ?_, ?_, ?_⟩ <;>
      decide +kernel
  · refine ⟨(fun i p d g _ => Instr.putPkt i p d g, tPut), sFabricRefusals2, vFabricRefusals12, vFabricRefusals13, 7, 7,
    pktBytes (reqPkt tPut 4 0 0xFFFF 0 [1, 2, 3, 4]), true, (Option.get ((arriveCheck sFabricRefusals2 (arrival
    sFabricRefusals2 7 7) tPut (pktBytes (reqPkt tPut 4 0 0xFFFF 0 [1, 2, 3, 4])) true).2) (by decide +kernel)), 0,
    List.mem_cons_self, ?_, ?_, ?_, ?_, ?_, ?_, ?_, ?_⟩ <;>
      decide +kernel
  · refine ⟨(fun i p d g _ => Instr.putPkt i p d g, tPut), fab0, vFabricRefusals14, vFabricRefusals15, 7, 7, pktBytes
    ({ reqPkt tPut 4 0 0xFFFF 0 [1, 2, 3, 4] with key := 0 }), true, (Option.get ((arriveCheck fab0 (arrival fab0 7 7)
    tPut (pktBytes ({ reqPkt tPut 4 0 0xFFFF 0 [1, 2, 3, 4] with key := 0 })) true).2) (by decide +kernel)), 0,
    List.mem_cons_self, ?_, ?_, ?_, ?_, ?_, ?_, ?_, ?_, ?_⟩ <;>
      decide +kernel
  · refine ⟨(fun i p d g _ => Instr.putPkt i p d g, tPut), fab0, vFabricRefusals16, vFabricRefusals17, 7, 7, pktBytes
    ({ reqPkt tPut 4 0 0xFFFF 0 [1, 2, 3, 4] with rsig := 5000 }), true, (Option.get ((arriveCheck fab0 (arrival fab0
    7 7) tPut (pktBytes ({ reqPkt tPut 4 0 0xFFFF 0 [1, 2, 3, 4] with rsig := 5000 })) true).2) (by decide +kernel)),
    0, (Option.get (keyCheck vFabricRefusals17 0 (Option.get ((arriveCheck fab0 (arrival fab0 7 7) tPut (pktBytes
    ({ reqPkt tPut 4 0 0xFFFF 0 [1, 2, 3, 4] with rsig := 5000 })) true).2) (by decide +kernel)))
    (by decide +kernel)), List.mem_cons_self, ?_, ?_, ?_, ?_, ?_, ?_, ?_, ?_, ?_, ?_⟩ <;>
      decide +kernel
  · refine ⟨(fun i p d g _ => Instr.putPkt i p d g, tPut), fab0, (arriveCheck fab0 (arrival fab0 7 7) tPut vFabricRefusals18
    true).1, vFabricRefusals19, 7, 7, vFabricRefusals18, true, (Option.get ((arriveCheck fab0 (arrival fab0 7 7) tPut
    vFabricRefusals18 true).2) (by decide +kernel)), 0, (Option.get (keyCheck vFabricRefusals19 0 (Option.get
    ((arriveCheck fab0 (arrival fab0 7 7) tPut vFabricRefusals18 true).2) (by decide +kernel))) (by decide +kernel)),
    vFabricRefusals20, (match ((reqSpan vFabricRefusals19 0 (Option.get (keyCheck vFabricRefusals19 0 (Option.get
    ((arriveCheck fab0 (arrival fab0 7 7) tPut vFabricRefusals18 true).2) (by decide +kernel)))
    (by decide +kernel)).slot (Option.get (keyCheck vFabricRefusals19 0 (Option.get ((arriveCheck fab0 (arrival fab0 7
    7) tPut vFabricRefusals18 true).2) (by decide +kernel))) (by decide +kernel)) (Option.get ((arriveCheck fab0
    (arrival fab0 7 7) tPut vFabricRefusals18 true).2) (by decide +kernel))).2) with
    | .fault z_ => z_ | _ => ⟨0, 0, 0, false, 0, 0, 0⟩), List.mem_cons_self, ?_, ?_, ?_, ?_, ?_, ?_, ?_, ?_, ⟨?_, ?_,
    ?_, ?_⟩, ?_, ?_⟩ <;>
      decide +kernel
  · refine ⟨(Instr.atomicPkt, tAtomic), sFabricRefusals6, vFabricRefusals21, vFabricRefusals22, 7, 7, pktBytes (reqPkt
    tAtomic 0 0 63 1 []), true, Ecc.none, (Option.get ((arriveCheck sFabricRefusals6 (arrival sFabricRefusals6 7 7)
    tAtomic (pktBytes (reqPkt tAtomic 0 0 63 1 [])) true).2) (by decide +kernel)), 0, (Option.get (keyCheck
    vFabricRefusals22 0 (Option.get ((arriveCheck sFabricRefusals6 (arrival sFabricRefusals6 7 7) tAtomic (pktBytes
    (reqPkt tAtomic 0 0 63 1 [])) true).2) (by decide +kernel))) (by decide +kernel)), vFabricRefusals23,
    vFabricRefusals24, [(35184372088832, 8)], (List.mem_cons_of_mem _ (List.mem_cons_of_mem _ (List.mem_cons_of_mem _
    List.mem_cons_self))), ?_, ?_, ?_, ?_, ?_, ?_, ?_, ?_, ?_, ⟨?_, ?_, ?_, ?_⟩, ?_, ?_, ?_⟩ <;>
      decide +kernel
  · refine ⟨(fun i p d g _ => Instr.putPkt i p d g, tPut), sFabricRefusals1, vFabricRefusals26, vFabricRefusals27, 7, 7,
    vFabricRefusals25, true, (Option.get ((arriveCheck sFabricRefusals1 (arrival sFabricRefusals1 7 7) tPut
    vFabricRefusals25 true).2) (by decide +kernel)), 0, List.mem_cons_self, ?_, ?_, ?_, ?_, ?_⟩ <;>
      decide +kernel
  · refine ⟨(fun i p d g _ => Instr.putPkt i p d g, tPut), sFabricRefusals9, vFabricRefusals28, vFabricRefusals29, 7, 7,
    vFabricRefusals25, true, (Option.get ((arriveCheck sFabricRefusals9 (arrival sFabricRefusals9 7 7) tPut
    vFabricRefusals25 true).2) (by decide +kernel)), 0, List.mem_cons_self, ?_, ?_, ?_, ?_, ?_, ?_⟩ <;>
      decide +kernel
  · refine ⟨(fun i p d g _ => Instr.putPkt i p d g, tPut), sFabricRefusals11, vFabricRefusals30, vFabricRefusals31, 7, 7,
    vFabricRefusals25, true, (Option.get ((arriveCheck sFabricRefusals11 (arrival sFabricRefusals11 7 7) tPut
    vFabricRefusals25 true).2) (by decide +kernel)), 0, List.mem_cons_self, ?_, ?_, ?_, ?_, ?_, ?_, ?_, ?_, ⟨?_, ?_,
    ?_⟩⟩ <;>
      decide +kernel
  · refine ⟨(fun i p d g _ => Instr.putPkt i p d g, tPut), fab0, (arriveCheck fab0 (arrival fab0 7 7) tPut vFabricRefusals25
    true).1, vFabricRefusals32, 7, 7, vFabricRefusals25, true, (Option.get ((arriveCheck fab0 (arrival fab0 7 7) tPut
    vFabricRefusals25 true).2) (by decide +kernel)), 0, List.mem_cons_self, ?_, ?_, ?_, ?_, ?_, ?_, ?_, ?_, ?_⟩ <;>
      decide +kernel

/-- A state of the witnesses of `FabricAnswers`. -/
def sFabricAnswers0 : State :=
  modStream fab0 0 255 (fun x =>
  { x with st := .run, descs := [{ record := fabRec 6 0x31 4, issued := 4, pkts := [{ fseq := 7, len := 4 }] }] })

/-- A state of the witnesses of `FabricAnswers`. -/
def sFabricAnswers1 : State :=
  modStream fab0 0 255 (fun x =>
  { x with st := .run, descs := [{ record := fabRec 7 0x13 4, issued := 4, pkts := [{ fseq := 7, len := 4 }] }] })

/-- A state of the witnesses of `FabricAnswers`. -/
def sFabricAnswers2 : State :=
  modStream fab0 0 255 (fun x =>
  { x with st := .run, descs := [{ record := fabRec 9 0x31 0, issued := 4, pkts := [{ fseq := 7, len := 0 }] }] })

/-- A state of the witnesses of `FabricAnswers`. -/
def sFabricAnswers3 : State :=
  modStream fab0 0 255 (fun x =>
  { x with st := .run, descs := [{ record := fabRec 6 0x31 4, issued := 4, pkts := [{ fseq := 7, len := 4, retry := true }] }] })

/-- A state of the witnesses of `FabricAnswers`. -/
def sFabricAnswers5 : State :=
  modCore fab0 0 (fun c => { c with orphans := [⟨0, 0, 7, 0⟩] })

/-- A state of the witnesses of `FabricAnswers`. -/
def sFabricAnswers6 : State :=
  { fab0 with split := 1 }

def vFabricAnswers0 : List Byte :=
  pktBytes { type := tAck, vc := 1, dstCoord := 5, srcCoord := 6, fseq := 7, plen := 0, operand := 0, payload := [] }

def vFabricAnswers1 : Pkt :=
  (Option.get ((arriveCheck sFabricAnswers0 (arrival sFabricAnswers0 7 7) tAck vFabricAnswers0 true).2)
  (by decide +kernel))

def vFabricAnswers2 : State :=
  (if tAck = tUnreachable then (((arriveCheck sFabricAnswers0 (arrival sFabricAnswers0 7 7) tAck vFabricAnswers0
  true).1), PeerRes.ok) else peerCheck ((arriveCheck sFabricAnswers0 (arrival sFabricAnswers0 7 7) tAck
  vFabricAnswers0 true).1) (arrival sFabricAnswers0 7 7).part vFabricAnswers1).1

def vFabricAnswers3 : Match :=
  (Option.get (matchOut vFabricAnswers2 0 vFabricAnswers1) (by decide +kernel))

def vFabricAnswers4 : Pkt :=
  (Option.get ((arriveCheck sFabricAnswers3 (arrival sFabricAnswers3 7 7) tAck vFabricAnswers0 true).2)
  (by decide +kernel))

def vFabricAnswers5 : State :=
  (if tAck = tUnreachable then (((arriveCheck sFabricAnswers3 (arrival sFabricAnswers3 7 7) tAck vFabricAnswers0
  true).1), PeerRes.ok) else peerCheck ((arriveCheck sFabricAnswers3 (arrival sFabricAnswers3 7 7) tAck
  vFabricAnswers0 true).1) (arrival sFabricAnswers3 7 7).part vFabricAnswers4).1

def vFabricAnswers6 : Match :=
  (Option.get (matchOut vFabricAnswers5 0 vFabricAnswers4) (by decide +kernel))

def vFabricAnswers7 : Pkt :=
  (Option.get ((arriveCheck sFabricAnswers1 (arrival sFabricAnswers1 7 7) tAck vFabricAnswers0 true).2)
  (by decide +kernel))

def vFabricAnswers8 : State :=
  (if tAck = tUnreachable then (((arriveCheck sFabricAnswers1 (arrival sFabricAnswers1 7 7) tAck vFabricAnswers0
  true).1), PeerRes.ok) else peerCheck ((arriveCheck sFabricAnswers1 (arrival sFabricAnswers1 7 7) tAck
  vFabricAnswers0 true).1) (arrival sFabricAnswers1 7 7).part vFabricAnswers7).1

def vFabricAnswers9 : Match :=
  (Option.get (matchOut vFabricAnswers8 0 vFabricAnswers7) (by decide +kernel))

def vFabricAnswers10 : List Byte :=
  pktBytes { type := tAck, vc := 1, dstCoord := 5, srcCoord := 6, fseq := 7, plen := 0, operand := 7, payload := [] }

def vFabricAnswers11 : Pkt :=
  (Option.get ((arriveCheck sFabricAnswers0 (arrival sFabricAnswers0 7 7) tAck vFabricAnswers10 true).2)
  (by decide +kernel))

def vFabricAnswers12 : State :=
  (if tAck = tUnreachable then (((arriveCheck sFabricAnswers0 (arrival sFabricAnswers0 7 7) tAck vFabricAnswers10
  true).1), PeerRes.ok) else peerCheck ((arriveCheck sFabricAnswers0 (arrival sFabricAnswers0 7 7) tAck
  vFabricAnswers10 true).1) (arrival sFabricAnswers0 7 7).part vFabricAnswers11).1

def vFabricAnswers13 : Match :=
  (Option.get (matchOut vFabricAnswers12 0 vFabricAnswers11) (by decide +kernel))

def vFabricAnswers14 : List Byte :=
  pktBytes { type := tAck, vc := 1, dstCoord := 5, srcCoord := 6, fseq := 7, plen := 0, operand := 1, payload := [] }

def vFabricAnswers15 : Pkt :=
  (Option.get ((arriveCheck sFabricAnswers0 (arrival sFabricAnswers0 7 7) tAck vFabricAnswers14 true).2)
  (by decide +kernel))

def vFabricAnswers16 : State :=
  (if tAck = tUnreachable then (((arriveCheck sFabricAnswers0 (arrival sFabricAnswers0 7 7) tAck vFabricAnswers14
  true).1), PeerRes.ok) else peerCheck ((arriveCheck sFabricAnswers0 (arrival sFabricAnswers0 7 7) tAck
  vFabricAnswers14 true).1) (arrival sFabricAnswers0 7 7).part vFabricAnswers15).1

def vFabricAnswers17 : Match :=
  (Option.get (matchOut vFabricAnswers16 0 vFabricAnswers15) (by decide +kernel))

def vFabricAnswers18 : List Byte :=
  pktBytes { type := tAck, vc := 1, dstCoord := 5, srcCoord := 6, fseq := 7, plen := 0, operand := 2, payload := [] }

def vFabricAnswers19 : Pkt :=
  (Option.get ((arriveCheck sFabricAnswers0 (arrival sFabricAnswers0 7 7) tAck vFabricAnswers18 true).2)
  (by decide +kernel))

def vFabricAnswers20 : State :=
  (if tAck = tUnreachable then (((arriveCheck sFabricAnswers0 (arrival sFabricAnswers0 7 7) tAck vFabricAnswers18
  true).1), PeerRes.ok) else peerCheck ((arriveCheck sFabricAnswers0 (arrival sFabricAnswers0 7 7) tAck
  vFabricAnswers18 true).1) (arrival sFabricAnswers0 7 7).part vFabricAnswers19).1

def vFabricAnswers21 : Match :=
  (Option.get (matchOut vFabricAnswers20 0 vFabricAnswers19) (by decide +kernel))

def vFabricAnswers22 : List Byte :=
  pktBytes { type := tAck, vc := 1, dstCoord := 5, srcCoord := 6, fseq := 7, plen := 0, operand := 3, payload := [] }

def vFabricAnswers23 : Pkt :=
  (Option.get ((arriveCheck sFabricAnswers0 (arrival sFabricAnswers0 7 7) tAck vFabricAnswers22 true).2)
  (by decide +kernel))

def vFabricAnswers24 : State :=
  (if tAck = tUnreachable then (((arriveCheck sFabricAnswers0 (arrival sFabricAnswers0 7 7) tAck vFabricAnswers22
  true).1), PeerRes.ok) else peerCheck ((arriveCheck sFabricAnswers0 (arrival sFabricAnswers0 7 7) tAck
  vFabricAnswers22 true).1) (arrival sFabricAnswers0 7 7).part vFabricAnswers23).1

def vFabricAnswers25 : Match :=
  (Option.get (matchOut vFabricAnswers24 0 vFabricAnswers23) (by decide +kernel))

def vFabricAnswers26 : List Byte :=
  pktBytes { type := tAck, vc := 1, dstCoord := 5, srcCoord := 6, fseq := 7, plen := 0, operand := 4, payload := [] }

def vFabricAnswers27 : Pkt :=
  (Option.get ((arriveCheck sFabricAnswers0 (arrival sFabricAnswers0 7 7) tAck vFabricAnswers26 true).2)
  (by decide +kernel))

def vFabricAnswers28 : State :=
  (if tAck = tUnreachable then (((arriveCheck sFabricAnswers0 (arrival sFabricAnswers0 7 7) tAck vFabricAnswers26
  true).1), PeerRes.ok) else peerCheck ((arriveCheck sFabricAnswers0 (arrival sFabricAnswers0 7 7) tAck
  vFabricAnswers26 true).1) (arrival sFabricAnswers0 7 7).part vFabricAnswers27).1

def vFabricAnswers29 : Match :=
  (Option.get (matchOut vFabricAnswers28 0 vFabricAnswers27) (by decide +kernel))

def vFabricAnswers30 : List Byte :=
  pktBytes { type := tAck, vc := 1, dstCoord := 5, srcCoord := 6, fseq := 7, plen := 0, operand := 6, payload := [] }

def vFabricAnswers31 : Pkt :=
  (Option.get ((arriveCheck sFabricAnswers0 (arrival sFabricAnswers0 7 7) tAck vFabricAnswers30 true).2)
  (by decide +kernel))

def vFabricAnswers32 : State :=
  (if tAck = tUnreachable then (((arriveCheck sFabricAnswers0 (arrival sFabricAnswers0 7 7) tAck vFabricAnswers30
  true).1), PeerRes.ok) else peerCheck ((arriveCheck sFabricAnswers0 (arrival sFabricAnswers0 7 7) tAck
  vFabricAnswers30 true).1) (arrival sFabricAnswers0 7 7).part vFabricAnswers31).1

def vFabricAnswers33 : Match :=
  (Option.get (matchOut vFabricAnswers32 0 vFabricAnswers31) (by decide +kernel))

def vFabricAnswers34 : List Byte :=
  pktBytes { type := tAck, vc := 1, dstCoord := 5, srcCoord := 6, fseq := 7, plen := 0, operand := 8, payload := [] }

def vFabricAnswers35 : Pkt :=
  (Option.get ((arriveCheck sFabricAnswers0 (arrival sFabricAnswers0 7 7) tAck vFabricAnswers34 true).2)
  (by decide +kernel))

def vFabricAnswers36 : State :=
  (if tAck = tUnreachable then (((arriveCheck sFabricAnswers0 (arrival sFabricAnswers0 7 7) tAck vFabricAnswers34
  true).1), PeerRes.ok) else peerCheck ((arriveCheck sFabricAnswers0 (arrival sFabricAnswers0 7 7) tAck
  vFabricAnswers34 true).1) (arrival sFabricAnswers0 7 7).part vFabricAnswers35).1

def vFabricAnswers37 : Match :=
  (Option.get (matchOut vFabricAnswers36 0 vFabricAnswers35) (by decide +kernel))

def vFabricAnswers38 : List Byte :=
  pktBytes
  { type := tGetData, vc := 1, dstCoord := 5, srcCoord := 6, fseq := 7, plen := 4, operand := 0, payload := [1, 2, 3, 4] }

def vFabricAnswers39 : Pkt :=
  (Option.get ((arriveCheck sFabricAnswers1 (arrival sFabricAnswers1 7 7) tGetData vFabricAnswers38 true).2)
  (by decide +kernel))

def vFabricAnswers40 : State :=
  (if tGetData = tUnreachable then (((arriveCheck sFabricAnswers1 (arrival sFabricAnswers1 7 7) tGetData
  vFabricAnswers38 true).1), PeerRes.ok) else peerCheck ((arriveCheck sFabricAnswers1 (arrival sFabricAnswers1 7 7)
  tGetData vFabricAnswers38 true).1) (arrival sFabricAnswers1 7 7).part vFabricAnswers39).1

def vFabricAnswers41 : Match :=
  (Option.get (matchOut vFabricAnswers40 0 vFabricAnswers39) (by decide +kernel))

def vFabricAnswers42 : List Byte :=
  pktBytes
  { type := tGetData, vc := 1, dstCoord := 5, srcCoord := 6, fseq := 7, plen := 4, operand := 0, payload := [1, 2, 3, 4], flags := 32 }

def vFabricAnswers43 : Pkt :=
  (Option.get ((arriveCheck sFabricAnswers1 (arrival sFabricAnswers1 7 7) tGetData vFabricAnswers42 true).2)
  (by decide +kernel))

def vFabricAnswers44 : State :=
  (if tGetData = tUnreachable then (((arriveCheck sFabricAnswers1 (arrival sFabricAnswers1 7 7) tGetData
  vFabricAnswers42 true).1), PeerRes.ok) else peerCheck ((arriveCheck sFabricAnswers1 (arrival sFabricAnswers1 7 7)
  tGetData vFabricAnswers42 true).1) (arrival sFabricAnswers1 7 7).part vFabricAnswers43).1

def vFabricAnswers45 : Match :=
  (Option.get (matchOut vFabricAnswers44 0 vFabricAnswers43) (by decide +kernel))

def vFabricAnswers46 : Pkt :=
  (Option.get ((arriveCheck sFabricAnswers0 (arrival sFabricAnswers0 7 7) tGetData vFabricAnswers38 true).2)
  (by decide +kernel))

def vFabricAnswers47 : State :=
  (if tGetData = tUnreachable then (((arriveCheck sFabricAnswers0 (arrival sFabricAnswers0 7 7) tGetData
  vFabricAnswers38 true).1), PeerRes.ok) else peerCheck ((arriveCheck sFabricAnswers0 (arrival sFabricAnswers0 7 7)
  tGetData vFabricAnswers38 true).1) (arrival sFabricAnswers0 7 7).part vFabricAnswers46).1

def vFabricAnswers48 : Match :=
  (Option.get (matchOut vFabricAnswers47 0 vFabricAnswers46) (by decide +kernel))

def vFabricAnswers49 : List Byte :=
  pktBytes
  { type := tAtomicRsp, vc := 1, dstCoord := 5, srcCoord := 6, fseq := 7, plen := 0, operand := 9, payload := [] }

def vFabricAnswers50 : Pkt :=
  (Option.get ((arriveCheck sFabricAnswers2 (arrival sFabricAnswers2 7 7) tAtomicRsp vFabricAnswers49 true).2)
  (by decide +kernel))

def vFabricAnswers51 : State :=
  (if tAtomicRsp = tUnreachable then (((arriveCheck sFabricAnswers2 (arrival sFabricAnswers2 7 7) tAtomicRsp
  vFabricAnswers49 true).1), PeerRes.ok) else peerCheck ((arriveCheck sFabricAnswers2 (arrival sFabricAnswers2 7 7)
  tAtomicRsp vFabricAnswers49 true).1) (arrival sFabricAnswers2 7 7).part vFabricAnswers50).1

def vFabricAnswers52 : Match :=
  (Option.get (matchOut vFabricAnswers51 0 vFabricAnswers50) (by decide +kernel))

def vFabricAnswers53 : Pkt :=
  (Option.get ((arriveCheck sFabricAnswers0 (arrival sFabricAnswers0 7 7) tAtomicRsp vFabricAnswers49 true).2)
  (by decide +kernel))

def vFabricAnswers54 : State :=
  (if tAtomicRsp = tUnreachable then (((arriveCheck sFabricAnswers0 (arrival sFabricAnswers0 7 7) tAtomicRsp
  vFabricAnswers49 true).1), PeerRes.ok) else peerCheck ((arriveCheck sFabricAnswers0 (arrival sFabricAnswers0 7 7)
  tAtomicRsp vFabricAnswers49 true).1) (arrival sFabricAnswers0 7 7).part vFabricAnswers53).1

def vFabricAnswers55 : Match :=
  (Option.get (matchOut vFabricAnswers54 0 vFabricAnswers53) (by decide +kernel))

def vFabricAnswers56 : List Byte :=
  pktBytes
  { type := tUnreachable, vc := 1, dstCoord := 5, srcCoord := 6, fseq := 7, plen := 0, operand := 0, payload := [] }

def vFabricAnswers57 : Pkt :=
  (Option.get ((arriveCheck sFabricAnswers0 (arrival sFabricAnswers0 7 7) tUnreachable vFabricAnswers56 true).2)
  (by decide +kernel))

def vFabricAnswers58 : State :=
  (if tUnreachable = tUnreachable then (((arriveCheck sFabricAnswers0 (arrival sFabricAnswers0 7 7) tUnreachable
  vFabricAnswers56 true).1), PeerRes.ok) else peerCheck ((arriveCheck sFabricAnswers0 (arrival sFabricAnswers0 7 7)
  tUnreachable vFabricAnswers56 true).1) (arrival sFabricAnswers0 7 7).part vFabricAnswers57).1

def vFabricAnswers59 : Match :=
  (Option.get (matchOut vFabricAnswers58 0 vFabricAnswers57) (by decide +kernel))

def vFabricAnswers60 : State :=
  (arriveCheck sFabricAnswers0 (arrival sFabricAnswers0 7 7) tAck [] true).1

def vFabricAnswers61 : List Byte :=
  pktBytes
  { type := tAck, vc := 1, dstCoord := 5, srcCoord := 6, fseq := 7, plen := 0, operand := 0, payload := [], dstEpoch := 9 }

def vFabricAnswers62 : State :=
  (arriveCheck sFabricAnswers0 (arrival sFabricAnswers0 7 7) tAck vFabricAnswers61 true).1

def vFabricAnswers63 : Pkt :=
  (Option.get ((arriveCheck sFabricAnswers0 (arrival sFabricAnswers0 7 7) tAck vFabricAnswers61 true).2)
  (by decide +kernel))

def vFabricAnswers64 : State :=
  (if tAck = tUnreachable then (vFabricAnswers62, PeerRes.ok) else peerCheck vFabricAnswers62 (arrival sFabricAnswers0
  7 7).part vFabricAnswers63).1

def vFabricAnswers65 : List Byte :=
  pktBytes
  { type := tAck, vc := 1, dstCoord := 5, srcCoord := 6, fseq := 7, plen := 0, operand := 0, payload := [], dstEndpt := 95 }

def vFabricAnswers66 : Pkt :=
  (Option.get ((arriveCheck sFabricAnswers0 (arrival sFabricAnswers0 7 7) tAck vFabricAnswers65 true).2)
  (by decide +kernel))

def vFabricAnswers67 : State :=
  (if tAck = tUnreachable then (((arriveCheck sFabricAnswers0 (arrival sFabricAnswers0 7 7) tAck vFabricAnswers65
  true).1), PeerRes.ok) else peerCheck ((arriveCheck sFabricAnswers0 (arrival sFabricAnswers0 7 7) tAck
  vFabricAnswers65 true).1) (arrival sFabricAnswers0 7 7).part vFabricAnswers66).1

def vFabricAnswers68 : Pkt :=
  (Option.get ((arriveCheck sFabricAnswers6 (arrival sFabricAnswers6 7 7) tAck vFabricAnswers0 true).2)
  (by decide +kernel))

def vFabricAnswers69 : State :=
  (if tAck = tUnreachable then (((arriveCheck sFabricAnswers6 (arrival sFabricAnswers6 7 7) tAck vFabricAnswers0
  true).1), PeerRes.ok) else peerCheck ((arriveCheck sFabricAnswers6 (arrival sFabricAnswers6 7 7) tAck
  vFabricAnswers0 true).1) (arrival sFabricAnswers6 7 7).part vFabricAnswers68).1

def vFabricAnswers70 : Pkt :=
  (Option.get ((arriveCheck sFabricAnswers5 (arrival sFabricAnswers5 7 7) tAck vFabricAnswers0 true).2)
  (by decide +kernel))

def vFabricAnswers71 : State :=
  (if tAck = tUnreachable then (((arriveCheck sFabricAnswers5 (arrival sFabricAnswers5 7 7) tAck vFabricAnswers0
  true).1), PeerRes.ok) else peerCheck ((arriveCheck sFabricAnswers5 (arrival sFabricAnswers5 7 7) tAck
  vFabricAnswers0 true).1) (arrival sFabricAnswers5 7 7).part vFabricAnswers70).1

def vFabricAnswers72 : Pkt :=
  (Option.get ((arriveCheck fab0 (arrival fab0 7 7) tAck vFabricAnswers0 true).2) (by decide +kernel))

def vFabricAnswers73 : State :=
  (if tAck = tUnreachable then (((arriveCheck fab0 (arrival fab0 7 7) tAck vFabricAnswers0 true).1), PeerRes.ok) else
  peerCheck ((arriveCheck fab0 (arrival fab0 7 7) tAck vFabricAnswers0 true).1) (arrival fab0 7 7).part
  vFabricAnswers72).1

def vFabricAnswers74 : List Byte :=
  pktBytes
  { type := tAck, vc := 1, dstCoord := 5, srcCoord := 6, fseq := 7, plen := 0, operand := 0, payload := [], dstEndpt := 30 }

def vFabricAnswers75 : Pkt :=
  (Option.get ((arriveCheck sFabricAnswers6 (arrival sFabricAnswers6 7 7) tAck vFabricAnswers74 true).2)
  (by decide +kernel))

def vFabricAnswers76 : State :=
  (if tAck = tUnreachable then (((arriveCheck sFabricAnswers6 (arrival sFabricAnswers6 7 7) tAck vFabricAnswers74
  true).1), PeerRes.ok) else peerCheck ((arriveCheck sFabricAnswers6 (arrival sFabricAnswers6 7 7) tAck
  vFabricAnswers74 true).1) (arrival sFabricAnswers6 7 7).part vFabricAnswers75).1

def vFabricAnswers77 : Pkt :=
  (Option.get ((arriveCheck sFabricAnswers0 (arrival sFabricAnswers0 7 7) tAck vFabricAnswers74 true).2)
  (by decide +kernel))

def vFabricAnswers78 : State :=
  (if tAck = tUnreachable then (((arriveCheck sFabricAnswers0 (arrival sFabricAnswers0 7 7) tAck vFabricAnswers74
  true).1), PeerRes.ok) else peerCheck ((arriveCheck sFabricAnswers0 (arrival sFabricAnswers0 7 7) tAck
  vFabricAnswers74 true).1) (arrival sFabricAnswers0 7 7).part vFabricAnswers77).1

theorem wit_FabricAnswers :
    (∃ (s s2 : State), ∃ (i part : Nat), ∃ (data : List Byte), ∃ (tagOk : Bool), ∃ (n : Nat), ∃ (q : Pkt), ∃ (m :
    Match), AnswerAt s s2 i part tAck data tagOk n q m ∧
    let st := q.operand % 256; st = stOk ∧ dKind m.desc.record ≠ 7 ∧ dKind m.desc.record ≠ 9 ∧ m.pkt.retry = false ∧
      m.pkt.tallyOnly = false) ∧
    (∃ (s s2 : State), ∃ (i part : Nat), ∃ (data : List Byte), ∃ (tagOk : Bool), ∃ (n : Nat), ∃ (q : Pkt), ∃ (m :
    Match), AnswerAt s s2 i part tAck data tagOk n q m ∧
    let st := q.operand % 256; st = stOk ∧ dKind m.desc.record ≠ 7 ∧ dKind m.desc.record ≠ 9 ∧ (m.pkt.retry = true ∨
      m.pkt.tallyOnly = true)) ∧
    (∃ (s s2 : State), ∃ (i part : Nat), ∃ (data : List Byte), ∃ (tagOk : Bool), ∃ (n : Nat), ∃ (q : Pkt), ∃ (m :
    Match), AnswerAt s s2 i part tAck data tagOk n q m ∧
    let st := q.operand % 256; st = stOk ∧ (dKind m.desc.record = 7 ∨ dKind m.desc.record = 9)) ∧
    (∃ (s s2 : State), ∃ (i part : Nat), ∃ (data : List Byte), ∃ (tagOk : Bool), ∃ (n : Nat), ∃ (q : Pkt), ∃ (m :
    Match), AnswerAt s s2 i part tAck data tagOk n q m ∧
    let st := q.operand % 256; st = stBusy) ∧
    (∃ (s s2 : State), ∃ (i part : Nat), ∃ (data : List Byte), ∃ (tagOk : Bool), ∃ (n : Nat), ∃ (q : Pkt), ∃ (m :
    Match), AnswerAt s s2 i part tAck data tagOk n q m ∧
    let st := q.operand % 256; st = stFaultNack) ∧
    (∃ (s s2 : State), ∃ (i part : Nat), ∃ (data : List Byte), ∃ (tagOk : Bool), ∃ (n : Nat), ∃ (q : Pkt), ∃ (m :
    Match), AnswerAt s s2 i part tAck data tagOk n q m ∧
    let st := q.operand % 256; st = stContextGone) ∧
    (∃ (s s2 : State), ∃ (i part : Nat), ∃ (data : List Byte), ∃ (tagOk : Bool), ∃ (n : Nat), ∃ (q : Pkt), ∃ (m :
    Match), AnswerAt s s2 i part tAck data tagOk n q m ∧
    let st := q.operand % 256; (st = stPeerReset ∨ st = stStaleEpoch)) ∧
    (∃ (s s2 : State), ∃ (i part : Nat), ∃ (data : List Byte), ∃ (tagOk : Bool), ∃ (n : Nat), ∃ (q : Pkt), ∃ (m :
    Match), AnswerAt s s2 i part tAck data tagOk n q m ∧
    let st := q.operand % 256; st = stPeerLost) ∧
    (∃ (s s2 : State), ∃ (i part : Nat), ∃ (data : List Byte), ∃ (tagOk : Bool), ∃ (n : Nat), ∃ (q : Pkt), ∃ (m :
    Match), AnswerAt s s2 i part tAck data tagOk n q m ∧
    let st := q.operand % 256; st = stPoison) ∧
    (∃ (s s2 : State), ∃ (i part : Nat), ∃ (data : List Byte), ∃ (tagOk : Bool), ∃ (n : Nat), ∃ (q : Pkt), ∃ (m :
    Match), AnswerAt s s2 i part tAck data tagOk n q m ∧
    let st := q.operand % 256; st ∉ [stOk, stBusy, stFaultNack, stContextGone, stPeerReset, stStaleEpoch, stPeerLost,
      stPoison]) ∧
    (∃ (s s2 : State), ∃ (i part : Nat), ∃ (data : List Byte), ∃ (tagOk : Bool), ∃ (n : Nat), ∃ (q : Pkt), ∃ (m :
    Match), AnswerAt s s2 i part tGetData data tagOk n q m ∧ dKind m.desc.record = 7 ∧ q.plen = m.pkt.len ∧ q.poison =
    false) ∧
    (∃ (s s2 : State), ∃ (i part : Nat), ∃ (data : List Byte), ∃ (tagOk : Bool), ∃ (n : Nat), ∃ (q : Pkt), ∃ (m :
    Match), AnswerAt s s2 i part tGetData data tagOk n q m ∧ dKind m.desc.record = 7 ∧ q.plen = m.pkt.len ∧ q.poison =
    true) ∧
    (∃ (s s2 : State), ∃ (i part : Nat), ∃ (data : List Byte), ∃ (tagOk : Bool), ∃ (n : Nat), ∃ (q : Pkt), ∃ (m :
    Match), AnswerAt s s2 i part tGetData data tagOk n q m ∧ (dKind m.desc.record ≠ 7 ∨ q.plen ≠ m.pkt.len)) ∧
    (∃ (s s2 : State), ∃ (i part : Nat), ∃ (data : List Byte), ∃ (tagOk : Bool), ∃ (n : Nat), ∃ (q : Pkt), ∃ (m :
    Match), AnswerAt s s2 i part tAtomicRsp data tagOk n q m ∧ dKind m.desc.record = 9) ∧
    (∃ (s s2 : State), ∃ (i part : Nat), ∃ (data : List Byte), ∃ (tagOk : Bool), ∃ (n : Nat), ∃ (q : Pkt), ∃ (m :
    Match), AnswerAt s s2 i part tAtomicRsp data tagOk n q m ∧ dKind m.desc.record ≠ 9) ∧
    (∃ (s s2 : State), ∃ (i part : Nat), ∃ (data : List Byte), ∃ (tagOk : Bool), ∃ (n : Nat), ∃ (q : Pkt), ∃ (m :
    Match), AnswerAt s s2 i part tUnreachable data tagOk n q m) ∧
    (∃ c, ∃ (s s1 : State), ∃ (i part : Nat), ∃ (data : List Byte), ∃ (tagOk : Bool), c ∈ rspRows ∧
    let a := arrival s i part; arriveCheck s a c.2 data tagOk = (s1, none)) ∧
    (∃ c, ∃ (s s1 s2 : State), ∃ (i part : Nat), ∃ (data : List Byte), ∃ (tagOk : Bool), ∃ (q : Pkt), ∃ res, c ∈
    rspRows ∧
    let a := arrival s i part; arriveCheck s a c.2 data tagOk = (s1, some q) ∧ (if c.2 = tUnreachable then (s1,
      PeerRes.ok) else peerCheck s1 a.part q) = (s2, res) ∧ (res ≠ .ok ∨ q.dstEpoch ≠ s2.epoch)) ∧
    (∃ c, ∃ (s s2 : State), ∃ (i part : Nat), ∃ (data : List Byte), ∃ (tagOk : Bool), ∃ (q : Pkt), c ∈ rspRows ∧
    AnswerIn s s2 i part c.2 data tagOk q ∧ (∀ n, endptOf s2 q.dstEndpt ≠ .core n) ∧ (∀ pp, endptOf s2 q.dstEndpt ≠
    .pipe pp)) ∧
    (∃ c, ∃ (s s2 : State), ∃ (i part : Nat), ∃ (data : List Byte), ∃ (tagOk : Bool), ∃ (q : Pkt), ∃ n, c ∈ rspRows ∧
    let a := arrival s i part; AnswerIn s s2 i part c.2 data tagOk q ∧ endptOf s2 q.dstEndpt = .core n ∧ partOfCore s2
      n ≠ a.part) ∧
    (∃ c, ∃ (s s2 : State), ∃ (i part : Nat), ∃ (data : List Byte), ∃ (tagOk : Bool), ∃ (q : Pkt), ∃ n, c ∈ rspRows ∧
    let a := arrival s i part; AnswerIn s s2 i part c.2 data tagOk q ∧ endptOf s2 q.dstEndpt = .core n ∧ partOfCore s2
      n = a.part ∧ (core s2 n).orphans.any (orphanOf q) = true) ∧
    (∃ c, ∃ (s s2 : State), ∃ (i part : Nat), ∃ (data : List Byte), ∃ (tagOk : Bool), ∃ (q : Pkt), ∃ n, c ∈ rspRows ∧
    let a := arrival s i part; AnswerIn s s2 i part c.2 data tagOk q ∧ endptOf s2 q.dstEndpt = .core n ∧ partOfCore s2
      n = a.part ∧ (core s2 n).orphans.any (orphanOf q) = false ∧ matchOut s2 n q = none) ∧
    (∃ c, ∃ (s s2 : State), ∃ (i part : Nat), ∃ (data : List Byte), ∃ (tagOk : Bool), ∃ (q : Pkt), ∃ pp, c ∈ rspRows ∧
    let a := arrival s i part; AnswerIn s s2 i part c.2 data tagOk q ∧ endptOf s2 q.dstEndpt = .pipe pp ∧ partOfPipe
      s2 pp ≠ a.part) ∧
    (∃ c, ∃ (s s2 : State), ∃ (i part : Nat), ∃ (data : List Byte), ∃ (tagOk : Bool), ∃ (q : Pkt), ∃ pp, c ∈ rspRows ∧
    let a := arrival s i part; AnswerIn s s2 i part c.2 data tagOk q ∧ endptOf s2 q.dstEndpt = .pipe pp ∧ partOfPipe
      s2 pp = a.part) := by
  refine ⟨?_, ?_, ?_, ?_, ?_, ?_, ?_, ?_, ?_, ?_, ?_, ?_, ?_, ?_, ?_, ?_, ?_, ?_, ?_, ?_, ?_, ?_, ?_, ?_⟩
  · refine ⟨sFabricAnswers0, vFabricAnswers2, 7, 7, vFabricAnswers0, true, 0, vFabricAnswers1, vFabricAnswers3,
    ⟨⟨⟨(arriveCheck sFabricAnswers0 (arrival sFabricAnswers0 7 7) tAck vFabricAnswers0 true).1, ⟨?_, ?_⟩⟩, ?_⟩, ?_,
    ?_, ?_, ?_⟩, ?_, ?_, ?_, ?_, ?_⟩ <;>
      decide +kernel
  · refine ⟨sFabricAnswers3, vFabricAnswers5, 7, 7, vFabricAnswers0, true, 0, vFabricAnswers4, vFabricAnswers6,
    ⟨⟨⟨(arriveCheck sFabricAnswers3 (arrival sFabricAnswers3 7 7) tAck vFabricAnswers0 true).1, ⟨?_, ?_⟩⟩, ?_⟩, ?_,
    ?_, ?_, ?_⟩, ?_, ?_, ?_, ?_⟩ <;>
      decide +kernel
  · refine ⟨sFabricAnswers1, vFabricAnswers8, 7, 7, vFabricAnswers0, true, 0, vFabricAnswers7, vFabricAnswers9,
    ⟨⟨⟨(arriveCheck sFabricAnswers1 (arrival sFabricAnswers1 7 7) tAck vFabricAnswers0 true).1, ⟨?_, ?_⟩⟩, ?_⟩, ?_,
    ?_, ?_, ?_⟩, ?_, ?_⟩ <;>
      decide +kernel
  · refine ⟨sFabricAnswers0, vFabricAnswers12, 7, 7, vFabricAnswers10, true, 0, vFabricAnswers11, vFabricAnswers13,
    ⟨⟨⟨(arriveCheck sFabricAnswers0 (arrival sFabricAnswers0 7 7) tAck vFabricAnswers10 true).1, ⟨?_, ?_⟩⟩, ?_⟩, ?_,
    ?_, ?_, ?_⟩, ?_⟩ <;>
      decide +kernel
  · refine ⟨sFabricAnswers0, vFabricAnswers16, 7, 7, vFabricAnswers14, true, 0, vFabricAnswers15, vFabricAnswers17,
    ⟨⟨⟨(arriveCheck sFabricAnswers0 (arrival sFabricAnswers0 7 7) tAck vFabricAnswers14 true).1, ⟨?_, ?_⟩⟩, ?_⟩, ?_,
    ?_, ?_, ?_⟩, ?_⟩ <;>
      decide +kernel
  · refine ⟨sFabricAnswers0, vFabricAnswers20, 7, 7, vFabricAnswers18, true, 0, vFabricAnswers19, vFabricAnswers21,
    ⟨⟨⟨(arriveCheck sFabricAnswers0 (arrival sFabricAnswers0 7 7) tAck vFabricAnswers18 true).1, ⟨?_, ?_⟩⟩, ?_⟩, ?_,
    ?_, ?_, ?_⟩, ?_⟩ <;>
      decide +kernel
  · refine ⟨sFabricAnswers0, vFabricAnswers24, 7, 7, vFabricAnswers22, true, 0, vFabricAnswers23, vFabricAnswers25,
    ⟨⟨⟨(arriveCheck sFabricAnswers0 (arrival sFabricAnswers0 7 7) tAck vFabricAnswers22 true).1, ⟨?_, ?_⟩⟩, ?_⟩, ?_,
    ?_, ?_, ?_⟩, ?_⟩ <;>
      decide +kernel
  · refine ⟨sFabricAnswers0, vFabricAnswers28, 7, 7, vFabricAnswers26, true, 0, vFabricAnswers27, vFabricAnswers29,
    ⟨⟨⟨(arriveCheck sFabricAnswers0 (arrival sFabricAnswers0 7 7) tAck vFabricAnswers26 true).1, ⟨?_, ?_⟩⟩, ?_⟩, ?_,
    ?_, ?_, ?_⟩, ?_⟩ <;>
      decide +kernel
  · refine ⟨sFabricAnswers0, vFabricAnswers32, 7, 7, vFabricAnswers30, true, 0, vFabricAnswers31, vFabricAnswers33,
    ⟨⟨⟨(arriveCheck sFabricAnswers0 (arrival sFabricAnswers0 7 7) tAck vFabricAnswers30 true).1, ⟨?_, ?_⟩⟩, ?_⟩, ?_,
    ?_, ?_, ?_⟩, ?_⟩ <;>
      decide +kernel
  · refine ⟨sFabricAnswers0, vFabricAnswers36, 7, 7, vFabricAnswers34, true, 0, vFabricAnswers35, vFabricAnswers37,
    ⟨⟨⟨(arriveCheck sFabricAnswers0 (arrival sFabricAnswers0 7 7) tAck vFabricAnswers34 true).1, ⟨?_, ?_⟩⟩, ?_⟩, ?_,
    ?_, ?_, ?_⟩, ?_⟩ <;>
      decide +kernel
  · refine ⟨sFabricAnswers1, vFabricAnswers40, 7, 7, vFabricAnswers38, true, 0, vFabricAnswers39, vFabricAnswers41,
    ⟨⟨⟨(arriveCheck sFabricAnswers1 (arrival sFabricAnswers1 7 7) tGetData vFabricAnswers38 true).1, ⟨?_, ?_⟩⟩, ?_⟩,
    ?_, ?_, ?_, ?_⟩, ?_, ?_, ?_⟩ <;>
      decide +kernel
  · refine ⟨sFabricAnswers1, vFabricAnswers44, 7, 7, vFabricAnswers42, true, 0, vFabricAnswers43, vFabricAnswers45,
    ⟨⟨⟨(arriveCheck sFabricAnswers1 (arrival sFabricAnswers1 7 7) tGetData vFabricAnswers42 true).1, ⟨?_, ?_⟩⟩, ?_⟩,
    ?_, ?_, ?_, ?_⟩, ?_, ?_, ?_⟩ <;>
      decide +kernel
  · refine ⟨sFabricAnswers0, vFabricAnswers47, 7, 7, vFabricAnswers38, true, 0, vFabricAnswers46, vFabricAnswers48,
    ⟨⟨⟨(arriveCheck sFabricAnswers0 (arrival sFabricAnswers0 7 7) tGetData vFabricAnswers38 true).1, ⟨?_, ?_⟩⟩, ?_⟩,
    ?_, ?_, ?_, ?_⟩, ?_⟩ <;>
      decide +kernel
  · refine ⟨sFabricAnswers2, vFabricAnswers51, 7, 7, vFabricAnswers49, true, 0, vFabricAnswers50, vFabricAnswers52,
    ⟨⟨⟨(arriveCheck sFabricAnswers2 (arrival sFabricAnswers2 7 7) tAtomicRsp vFabricAnswers49 true).1, ⟨?_, ?_⟩⟩, ?_⟩,
    ?_, ?_, ?_, ?_⟩, ?_⟩ <;>
      decide +kernel
  · refine ⟨sFabricAnswers0, vFabricAnswers54, 7, 7, vFabricAnswers49, true, 0, vFabricAnswers53, vFabricAnswers55,
    ⟨⟨⟨(arriveCheck sFabricAnswers0 (arrival sFabricAnswers0 7 7) tAtomicRsp vFabricAnswers49 true).1, ⟨?_, ?_⟩⟩, ?_⟩,
    ?_, ?_, ?_, ?_⟩, ?_⟩ <;>
      decide +kernel
  · refine ⟨sFabricAnswers0, vFabricAnswers58, 7, 7, vFabricAnswers56, true, 0, vFabricAnswers57, vFabricAnswers59,
    ⟨⟨⟨(arriveCheck sFabricAnswers0 (arrival sFabricAnswers0 7 7) tUnreachable vFabricAnswers56 true).1, ⟨?_, ?_⟩⟩,
    ?_⟩, ?_, ?_, ?_, ?_⟩⟩ <;>
      decide +kernel
  · refine ⟨(Instr.ackPkt, tAck), sFabricAnswers0, vFabricAnswers60, 7, 7, [], true, List.mem_cons_self, ?_⟩ <;>
      decide +kernel
  · refine ⟨(Instr.ackPkt, tAck), sFabricAnswers0, vFabricAnswers62, vFabricAnswers64, 7, 7, vFabricAnswers61, true,
    vFabricAnswers63, (if tAck = tUnreachable then (vFabricAnswers62, PeerRes.ok) else peerCheck vFabricAnswers62
    (arrival sFabricAnswers0 7 7).part vFabricAnswers63).2, List.mem_cons_self, ?_, ?_, ?_⟩ <;>
      decide +kernel
  · refine ⟨(Instr.ackPkt, tAck), sFabricAnswers0, vFabricAnswers67, 7, 7, vFabricAnswers65, true, vFabricAnswers66,
    List.mem_cons_self, ⟨⟨(arriveCheck sFabricAnswers0 (arrival sFabricAnswers0 7 7) tAck vFabricAnswers65 true).1,
    ⟨?_, ?_⟩⟩, ?_⟩, (fun p_ h_ => absurd (show (match endptOf vFabricAnswers67 vFabricAnswers66.dstEndpt
    with | .core _ => true | _ => false) = true by rw [h_]) (by decide +kernel)), (fun p_ h_ => absurd (show (match
    endptOf vFabricAnswers67 vFabricAnswers66.dstEndpt with | .pipe _ => true | _ => false) = true by rw [h_])
    (by decide +kernel))⟩ <;>
      decide +kernel
  · refine ⟨(Instr.ackPkt, tAck), sFabricAnswers6, vFabricAnswers69, 7, 7, vFabricAnswers0, true, vFabricAnswers68, 0,
    List.mem_cons_self, ⟨⟨(arriveCheck sFabricAnswers6 (arrival sFabricAnswers6 7 7) tAck vFabricAnswers0 true).1,
    ⟨?_, ?_⟩⟩, ?_⟩, ?_, ?_⟩ <;>
      decide +kernel
  · refine ⟨(Instr.ackPkt, tAck), sFabricAnswers5, vFabricAnswers71, 7, 7, vFabricAnswers0, true, vFabricAnswers70, 0,
    List.mem_cons_self, ⟨⟨(arriveCheck sFabricAnswers5 (arrival sFabricAnswers5 7 7) tAck vFabricAnswers0 true).1,
    ⟨?_, ?_⟩⟩, ?_⟩, ?_, ?_, ?_⟩ <;>
      decide +kernel
  · refine ⟨(Instr.ackPkt, tAck), fab0, vFabricAnswers73, 7, 7, vFabricAnswers0, true, vFabricAnswers72, 0,
    List.mem_cons_self, ⟨⟨(arriveCheck fab0 (arrival fab0 7 7) tAck vFabricAnswers0 true).1, ⟨?_, ?_⟩⟩, ?_⟩, ?_, ?_,
    ?_, ?_⟩ <;>
      decide +kernel
  · refine ⟨(Instr.ackPkt, tAck), sFabricAnswers6, vFabricAnswers76, 7, 7, vFabricAnswers74, true, vFabricAnswers75, 0,
    List.mem_cons_self, ⟨⟨(arriveCheck sFabricAnswers6 (arrival sFabricAnswers6 7 7) tAck vFabricAnswers74 true).1,
    ⟨?_, ?_⟩⟩, ?_⟩, ?_, ?_⟩ <;>
      decide +kernel
  · refine ⟨(Instr.ackPkt, tAck), sFabricAnswers0, vFabricAnswers78, 7, 7, vFabricAnswers74, true, vFabricAnswers77, 0,
    List.mem_cons_self, ⟨⟨(arriveCheck sFabricAnswers0 (arrival sFabricAnswers0 7 7) tAck vFabricAnswers74 true).1,
    ⟨?_, ?_⟩⟩, ?_⟩, ?_, ?_⟩ <;>
      decide +kernel

/-- A state of the witnesses of `FabricSends`. -/
def sFabricSends0 : State :=
  modStream (rset fab0 .fab 0 0x11C 0x10006) 0 255 (fun x =>
  { x with st := .run, descs := [{ record := fabRec 8 0 0 }] })

/-- A state of the witnesses of `FabricSends`. -/
def sFabricSends2 : State :=
  modCore (modStream (rset fab0 .fab 0 0x11C 0x10006) 0 255 (fun x =>
  { x with st := .run, descs := [{ record := fabRec 6 0x30 4 }] })) 0 (fun c => { c with utlb := [] })

/-- A state of the witnesses of `FabricSends`. -/
def sFabricSends4 : State :=
  { modStream (rset fab0 .fab 0 0x11C 0x10006) 0 255 (fun x => { x with st := .run, descs := [{ record := fabRec 6 0x31 4 }] }) with poison := [(lmDpa 0 / 64, true)] }

/-- A state of the witnesses of `FabricSends`. -/
def sFabricSends5 : State :=
  modStream (rset fab0 .fab 0 0x11C 0x10006) 0 255 (fun x =>
  { x with st := .run, descs := [{ record := (fabRec 6 0x31 4).set 8 1 |>.set 10 1 }] })

/-- A state of the witnesses of `FabricSends`. -/
def sFabricSends6 : State :=
  modStream (rset fab0 .fab 0 0x11C 0x10007) 0 255 (fun x =>
  { x with st := .run, descs := [{ record := fabRec 6 0x31 4 }] })

/-- A state of the witnesses of `FabricSends`. -/
def sFabricSends8 : State :=
  modStream (rset fab0 .fab 0 0x11C 0x10006) 0 255 (fun x =>
  { x with st := .run, descs := [{ record := (fabRec 6 0x31 4).set 0x29 0, retry := true, issued := 4 }] })

/-- A state of the witnesses of `FabricSends`. -/
def sFabricSends9 : State :=
  modStream (rset fab0 .fab 0 0x11C 0x10007) 0 255 (fun x =>
  { x with st := .run, descs := [{ record := (fabRec 6 0x31 4).set 0x29 0, retry := true, issued := 4 }] })

/-- A state of the witnesses of `FabricSends`. -/
def sFabricSends10 : State :=
  modStream (rset fab0 .fab 0 0x11C 0x10006) 0 255 (fun x =>
  { x with st := .run, descs := [{ record := fabRec 6 0x31 4, issued := 4, pkts := [{ fseq := 7, len := 4, resend := true }] }] })

/-- A state of the witnesses of `FabricSends`. -/
def sFabricSends12 : State :=
  modSlot (modStream (rset fab0 .fab 0 0x11C 0x10006) 0 255 (fun x =>
  { x with st := .run, descs := [{ record := fabRec 6 0x31 4, issued := 4, pkts := [{ fseq := 7, len := 4, resend := true }] }] }))
  0 0 (fun sl => { sl with ending := some ⟨3, 0, 3, false, 0⟩ })

/-- A state of the witnesses of `FabricSends`. -/
def sFabricSends13 : State :=
  modCore (modStream (rset fab0 .fab 0 0x11C 0x10006) 0 255 (fun x =>
  { x with st := .run, descs := [{ record := fabRec 6 0x30 4, issued := 4, pkts := [{ fseq := 7, len := 4, resend := true }] }] }))
  0 (fun c => { c with utlb := [] })

/-- A state of the witnesses of `FabricSends`. -/
def sFabricSends14 : State :=
  modStream (rset fab0 .fab 0 0x11C 0x10006) 0 255 (fun x =>
  { x with st := .run, descs := [{ record := ((fabRec 6 0x31 4).set 10 1), issued := 4, pkts := [{ fseq := 7, len := 4, resend := true }] }] })

/-- A state of the witnesses of `FabricSends`. -/
def sFabricSends15 : State :=
  { modStream (rset fab0 .fab 0 0x11C 0x10006) 0 255 (fun x => { x with st := .run, descs := [{ record := fabRec 6 0x31 4, issued := 4, pkts := [{ fseq := 7, len := 4, resend := true }] }] }) with poison := [(lmDpa 0 / 64, true)] }

/-- A state of the witnesses of `FabricSends`. -/
def sFabricSends16 : State :=
  modStream (rset fab0 .fab 0 0x11C 0x10007) 0 255 (fun x =>
  { x with st := .run, descs := [{ record := fabRec 6 0x31 4, issued := 4, pkts := [{ fseq := 7, len := 4, resend := true }] }] })

/-- A state of the witnesses of `FabricSends`. -/
def sFabricSends19 : State :=
  { modStream (withSlot (fun sl => { sl with st := .active, streams := [255] })) 1151 255 (fun x => { x with heldPath := some (8, 0) }) with us := 5000000 }

/-- A state of the witnesses of `FabricSends`. -/
def sFabricSends20 : State :=
  modStream (withSlot (fun sl => { sl with st := .active, streams := [255] })) 1151 255 (fun x =>
  { x with heldPath := some (8, 0) })

/-- A state of the witnesses of `FabricSends`. -/
def sFabricSends21 : State :=
  { heldPkts := [⟨7, 0, 0, [], false, 0, 0⟩], us := 5000000 }

/-- A state of the witnesses of `FabricSends`. -/
def sFabricSends22 : State :=
  { modStream (withSlot (fun sl => { sl with st := .active, streams := [255] })) 1151 255 (fun x => { x with descs := [{ pkts := [{ fseq := 7 }] }] }) with us := 5000000 }

/-- A state of the witnesses of `FabricSends`. -/
def sFabricSends23 : State :=
  modStream (withSlot (fun sl => { sl with st := .active, streams := [255] })) 1151 255 (fun x =>
  { x with stopping := true })

/-- A state of the witnesses of `FabricSends`. -/
def sFabricSends24 : State :=
  modStream (withSlot (fun sl => { sl with st := .active, streams := [255] })) 1151 255 (fun x =>
  { x with st := .stopped })

/-- A state of the witnesses of `FabricSends`. -/
def sFabricSends26 : State :=
  { mcSends := [⟨7, 0, 0, [], [⟨0, 7, 0, 0⟩], none⟩], us := 5000000 }

/-- A state of the witnesses of `FabricSends`. -/
def sFabricSends27 : State :=
  { modStream (rset fab0 .fab 0 0x11C 0x10006) 0 255 (fun x => { x with st := .run, descs := [{ record := fabRec 6 0x31 4, issued := 4, pkts := [{ fseq := 7, len := 4, resend := true }] }] }) with peers := [(6, { state := 2 })] }

/-- A state of the witnesses of `FabricSends`. -/
def sFabricSends28 : State :=
  { rset (rset (modStream (rset fab0 .fab 0 0x11C 0x10007) 0 255 (fun x => { x with st := .run, descs := [{ record := fabRec 6 0x31 4, issued := 4, pkts := [{ fseq := 7, len := 4, resend := true }] }] })) .fab 7 0x118 0x80) .fab 7 0x100 4 with roll := [(0, { data := leBytes 9 4 ++ leBytes 3 2 ++ [1] ++ List.replicate 1033 0 })] }

def vFabricSends0 : ActDesc :=
  (Option.get ((stream sFabricSends0 0 255).descs.find? (fun (d : ActDesc) => !descIssued d)) (by decide +kernel))

def vFabricSends1 : State :=
  (pktLocal sFabricSends0 0 0 vFabricSends0.record vFabricSends0.issued (pktLen vFabricSends0) Ecc.none).1

def vFabricSends2 : State :=
  (sendReq vFabricSends1 0 (dRoll vFabricSends0.record) (descPkt vFabricSends1 0 0 0 vFabricSends0 (stream
  vFabricSends1 0 255).fseq vFabricSends0.issued (pktLen vFabricSends0) vFabricSends0.retry false [])).1

def vFabricSends3 : ActDesc :=
  (Option.get ((stream sFabricSends6 0 255).descs.find? (fun (d : ActDesc) => !descIssued d)) (by decide +kernel))

def vFabricSends4 : State :=
  (pktLocal sFabricSends6 0 0 vFabricSends3.record vFabricSends3.issued (pktLen vFabricSends3) Ecc.none).1

def vFabricSends5 : State :=
  (sendReq vFabricSends4 0 (dRoll vFabricSends3.record) (descPkt vFabricSends4 0 0 0 vFabricSends3 (stream
  vFabricSends4 0 255).fseq vFabricSends3.issued (pktLen vFabricSends3) vFabricSends3.retry false [0, 0, 0, 0])).1

def vFabricSends6 : ActDesc :=
  (Option.get ((stream sFabricSends5 0 255).descs.find? (fun (d : ActDesc) => !descIssued d)) (by decide +kernel))

def vFabricSends7 : State :=
  (pktLocal sFabricSends5 0 0 vFabricSends6.record vFabricSends6.issued (pktLen vFabricSends6) Ecc.none).1

def vFabricSends8 : ActDesc :=
  (Option.get ((stream sFabricSends2 0 255).descs.find? (fun (d : ActDesc) => !descIssued d)) (by decide +kernel))

def vFabricSends9 : State :=
  (pktLocal sFabricSends2 0 0 vFabricSends8.record vFabricSends8.issued (pktLen vFabricSends8) Ecc.none).1

def vFabricSends10 : ActDesc :=
  (Option.get ((stream sFabricSends4 0 255).descs.find? (fun (d : ActDesc) => !descIssued d)) (by decide +kernel))

def vFabricSends11 : State :=
  (pktLocal sFabricSends4 0 0 vFabricSends10.record vFabricSends10.issued (pktLen vFabricSends10) Ecc.none).1

def vFabricSends12 : State :=
  (sendReq sFabricSends8 0 (dRoll (Option.get ((stream sFabricSends8 0 255).descs.find? wantsTally)
  (by decide +kernel)).record) (descPkt sFabricSends8 0 0 0 (Option.get ((stream sFabricSends8 0 255).descs.find?
  wantsTally) (by decide +kernel)) (stream sFabricSends8 0 255).fseq 0 (dLen (Option.get ((stream sFabricSends8 0
  255).descs.find? wantsTally) (by decide +kernel)).record - (Option.get ((stream sFabricSends8 0 255).descs.find?
  wantsTally) (by decide +kernel)).acked) false true [])).1

def vFabricSends13 : State :=
  (sendReq sFabricSends9 0 (dRoll (Option.get ((stream sFabricSends9 0 255).descs.find? wantsTally)
  (by decide +kernel)).record) (descPkt sFabricSends9 0 0 0 (Option.get ((stream sFabricSends9 0 255).descs.find?
  wantsTally) (by decide +kernel)) (stream sFabricSends9 0 255).fseq 0 (dLen (Option.get ((stream sFabricSends9 0
  255).descs.find? wantsTally) (by decide +kernel)).record - (Option.get ((stream sFabricSends9 0 255).descs.find?
  wantsTally) (by decide +kernel)).acked) false true [])).1

def vFabricSends14 : ActDesc :=
  (Option.get ((stream sFabricSends12 0 255).descs.findSome? (fun (d : ActDesc) => (d.pkts.find? (fun o => o.fseq = 7 &&
  o.resend)).map (fun o => (d, o)))) (by decide +kernel)).1

def vFabricSends15 : OutPkt :=
  (Option.get ((stream sFabricSends12 0 255).descs.findSome? (fun (d : ActDesc) => (d.pkts.find? (fun o => o.fseq = 7 &&
  o.resend)).map (fun o => (d, o)))) (by decide +kernel)).2

def vFabricSends16 : ActDesc :=
  (Option.get ((stream sFabricSends14 0 255).descs.findSome? (fun (d : ActDesc) => (d.pkts.find? (fun o => o.fseq = 7 &&
  o.resend)).map (fun o => (d, o)))) (by decide +kernel)).1

def vFabricSends17 : OutPkt :=
  (Option.get ((stream sFabricSends14 0 255).descs.findSome? (fun (d : ActDesc) => (d.pkts.find? (fun o => o.fseq = 7 &&
  o.resend)).map (fun o => (d, o)))) (by decide +kernel)).2

def vFabricSends18 : State :=
  (if vFabricSends17.tallyOnly then (sFabricSends14, PktLocal.ok [] []) else pktLocal sFabricSends14 0 0
  vFabricSends16.record vFabricSends17.off vFabricSends17.len Ecc.none).1

def vFabricSends19 : ActDesc :=
  (Option.get ((stream sFabricSends13 0 255).descs.findSome? (fun (d : ActDesc) => (d.pkts.find? (fun o => o.fseq = 7 &&
  o.resend)).map (fun o => (d, o)))) (by decide +kernel)).1

def vFabricSends20 : OutPkt :=
  (Option.get ((stream sFabricSends13 0 255).descs.findSome? (fun (d : ActDesc) => (d.pkts.find? (fun o => o.fseq = 7 &&
  o.resend)).map (fun o => (d, o)))) (by decide +kernel)).2

def vFabricSends21 : State :=
  (if vFabricSends20.tallyOnly then (sFabricSends13, PktLocal.ok [] []) else pktLocal sFabricSends13 0 0
  vFabricSends19.record vFabricSends20.off vFabricSends20.len Ecc.none).1

def vFabricSends22 : ActDesc :=
  (Option.get ((stream sFabricSends15 0 255).descs.findSome? (fun (d : ActDesc) => (d.pkts.find? (fun o => o.fseq = 7 &&
  o.resend)).map (fun o => (d, o)))) (by decide +kernel)).1

def vFabricSends23 : OutPkt :=
  (Option.get ((stream sFabricSends15 0 255).descs.findSome? (fun (d : ActDesc) => (d.pkts.find? (fun o => o.fseq = 7 &&
  o.resend)).map (fun o => (d, o)))) (by decide +kernel)).2

def vFabricSends24 : State :=
  (if vFabricSends23.tallyOnly then (sFabricSends15, PktLocal.ok [] []) else pktLocal sFabricSends15 0 0
  vFabricSends22.record vFabricSends23.off vFabricSends23.len Ecc.none).1

def vFabricSends25 : ActDesc :=
  (Option.get ((stream sFabricSends10 0 255).descs.findSome? (fun (d : ActDesc) => (d.pkts.find? (fun o => o.fseq = 7 &&
  o.resend)).map (fun o => (d, o)))) (by decide +kernel)).1

def vFabricSends26 : OutPkt :=
  (Option.get ((stream sFabricSends10 0 255).descs.findSome? (fun (d : ActDesc) => (d.pkts.find? (fun o => o.fseq = 7 &&
  o.resend)).map (fun o => (d, o)))) (by decide +kernel)).2

def vFabricSends27 : State :=
  (if vFabricSends26.tallyOnly then (sFabricSends10, PktLocal.ok [] []) else pktLocal sFabricSends10 0 0
  vFabricSends25.record vFabricSends26.off vFabricSends26.len Ecc.none).1

def vFabricSends28 : State :=
  (sendReq vFabricSends27 0 (dRoll vFabricSends25.record) (descPkt vFabricSends27 0 0 0 vFabricSends25 (stream
  vFabricSends27 0 255).fseq vFabricSends26.off vFabricSends26.len vFabricSends26.retry vFabricSends26.tallyOnly [0,
  0, 0, 0])).1

def vFabricSends29 : ActDesc :=
  (Option.get ((stream sFabricSends16 0 255).descs.findSome? (fun (d : ActDesc) => (d.pkts.find? (fun o => o.fseq = 7 &&
  o.resend)).map (fun o => (d, o)))) (by decide +kernel)).1

def vFabricSends30 : OutPkt :=
  (Option.get ((stream sFabricSends16 0 255).descs.findSome? (fun (d : ActDesc) => (d.pkts.find? (fun o => o.fseq = 7 &&
  o.resend)).map (fun o => (d, o)))) (by decide +kernel)).2

def vFabricSends31 : State :=
  (if vFabricSends30.tallyOnly then (sFabricSends16, PktLocal.ok [] []) else pktLocal sFabricSends16 0 0
  vFabricSends29.record vFabricSends30.off vFabricSends30.len Ecc.none).1

def vFabricSends32 : State :=
  (sendReq vFabricSends31 0 (dRoll vFabricSends29.record) (descPkt vFabricSends31 0 0 0 vFabricSends29 (stream
  vFabricSends31 0 255).fseq vFabricSends30.off vFabricSends30.len vFabricSends30.retry vFabricSends30.tallyOnly [0,
  0, 0, 0])).1

def vFabricSends33 : ActDesc :=
  (Option.get ((stream sFabricSends28 0 255).descs.findSome? (fun (d : ActDesc) => (d.pkts.find? (fun o => o.fseq = 7 &&
  o.resend)).map (fun o => (d, o)))) (by decide +kernel)).1

def vFabricSends34 : OutPkt :=
  (Option.get ((stream sFabricSends28 0 255).descs.findSome? (fun (d : ActDesc) => (d.pkts.find? (fun o => o.fseq = 7 &&
  o.resend)).map (fun o => (d, o)))) (by decide +kernel)).2

def vFabricSends35 : State :=
  (if vFabricSends34.tallyOnly then (sFabricSends28, PktLocal.ok [] []) else pktLocal sFabricSends28 0 0
  vFabricSends33.record vFabricSends34.off vFabricSends34.len Ecc.none).1

def vFabricSends36 : State :=
  (sendReq vFabricSends35 0 (dRoll vFabricSends33.record) (descPkt vFabricSends35 0 0 0 vFabricSends33 (stream
  vFabricSends35 0 255).fseq vFabricSends34.off vFabricSends34.len vFabricSends34.retry vFabricSends34.tallyOnly [0,
  0, 0, 0])).1

def vFabricSends37 : ActDesc :=
  (Option.get ((stream sFabricSends27 0 255).descs.findSome? (fun (d : ActDesc) => (d.pkts.find? (fun o => o.fseq = 7 &&
  o.resend)).map (fun o => (d, o)))) (by decide +kernel)).1

def vFabricSends38 : OutPkt :=
  (Option.get ((stream sFabricSends27 0 255).descs.findSome? (fun (d : ActDesc) => (d.pkts.find? (fun o => o.fseq = 7 &&
  o.resend)).map (fun o => (d, o)))) (by decide +kernel)).2

def vFabricSends39 : State :=
  (if vFabricSends38.tallyOnly then (sFabricSends27, PktLocal.ok [] []) else pktLocal sFabricSends27 0 0
  vFabricSends37.record vFabricSends38.off vFabricSends38.len Ecc.none).1

def vFabricSends40 : State :=
  (sendReq vFabricSends39 0 (dRoll vFabricSends37.record) (descPkt vFabricSends39 0 0 0 vFabricSends37 (stream
  vFabricSends39 0 255).fseq vFabricSends38.off vFabricSends38.len vFabricSends38.retry vFabricSends38.tallyOnly [0,
  0, 0, 0])).1

theorem wit_FabricSends :
    (∃ (s s1 : State), ∃ (n ph k i : Nat), ∃ (d : ActDesc), ∃ (ecc : Ecc), ∃ (s2 : State), ∃ b dst plane, SendsNext s n
    ph k i d ∧ pktLocal s n k d.record d.issued (pktLen d) ecc = (s1, .ok b dst) ∧ sendReq s1 n (dRoll d.record)
    (descPkt s1 n k i d (stream s1 n ph).fseq d.issued (pktLen d) d.retry false b) = (s2, .sent plane)) ∧
    (∃ (s s1 : State), ∃ (n ph k i : Nat), ∃ (d : ActDesc), ∃ (ecc : Ecc), ∃ (s2 : State), ∃ b dst r, SendsNext s n ph
    k i d ∧ pktLocal s n k d.record d.issued (pktLen d) ecc = (s1, .ok b dst) ∧ sendReq s1 n (dRoll d.record) (descPkt
    s1 n k i d (stream s1 n ph).fseq d.issued (pktLen d) d.retry false b) = (s2, r) ∧ (∀ plane, r ≠ .sent plane)) ∧
    (∃ (s s1 : State), ∃ (n ph k i : Nat), ∃ (d : ActDesc), ∃ (ecc : Ecc), SendsNext s n ph k i d ∧ pktLocal s n k
    d.record d.issued (pktLen d) ecc = (s1, .invalid)) ∧
    (∃ (s s1 : State), ∃ (n ph k i : Nat), ∃ (d : ActDesc), ∃ (ecc : Ecc), ∃ f, SendsNext s n ph k i d ∧ pktLocal s n k
    d.record d.issued (pktLen d) ecc = (s1, .fault f)) ∧
    (∃ (s s1 : State), ∃ (n ph k i : Nat), ∃ (d : ActDesc), ∃ (ecc : Ecc), ∃ er, SendsNext s n ph k i d ∧ pktLocal s n
    k d.record d.issued (pktLen d) ecc = (s1, .poison er)) ∧
    (∃ (s : State), ∃ (n ph : Nat), (∀ k i d, ¬ SendsNext s n ph k i d)) ∧
    (∃ (s : State), ∃ (n ph k i : Nat), streamOwner s n ph = some (k, i) ∧ running s n k = true ∧ (stream s n ph).st =
    .run ∧ (stream s n ph).stopping = false ∧ ((stream s n ph).descs.find? wantsTally = none ∨ 512 ≤ coreOut s n)) ∧
    (∃ (s s1 : State), ∃ (n ph k i : Nat), ∃ d r plane, streamOwner s n ph = some (k, i) ∧ running s n k = true ∧
    (stream s n ph).st = .run ∧ (stream s n ph).stopping = false ∧ (stream s n ph).descs.find? wantsTally = some d ∧
    coreOut s n < 512 ∧ sendReq s n (dRoll d.record) (descPkt s n k i d (stream s n ph).fseq 0 (dLen d.record -
    d.acked) false true []) = (s1, r) ∧ r = .sent plane) ∧
    (∃ (s s1 : State), ∃ (n ph k i : Nat), ∃ d r, streamOwner s n ph = some (k, i) ∧ running s n k = true ∧ (stream s n
    ph).st = .run ∧ (stream s n ph).stopping = false ∧ (stream s n ph).descs.find? wantsTally = some d ∧ coreOut s n <
    512 ∧ sendReq s n (dRoll d.record) (descPkt s n k i d (stream s n ph).fseq 0 (dLen d.record - d.acked) false true
    []) = (s1, r) ∧ (∀ plane, r ≠ .sent plane)) ∧
    (∃ (s : State), ∃ (n ph : Nat), (streamOwner s n ph = none ∨ (stream s n ph).st ≠ .run ∨ (stream s n ph).stopping =
    true ∨ (∃ k i, streamOwner s n ph = some (k, i) ∧ running s n k = false))) ∧
    (∃ (s : State), ∃ (n ph k i fseq : Nat), ∃ (d : ActDesc), ∃ (o : OutPkt), streamOwner s n ph = some (k, i) ∧
    (stream s n ph).descs.findSome? (fun d => (d.pkts.find? (fun o => o.fseq = fseq && o.resend)).map (fun o => (d,
    o))) = some (d, o) ∧ (slot s n k).ending.isSome = true) ∧
    (∃ (s s1 : State), ∃ (n ph k i fseq : Nat), ∃ (d : ActDesc), ∃ (o : OutPkt), ∃ (ecc : Ecc), streamOwner s n ph =
    some (k, i) ∧ (stream s n ph).descs.findSome? (fun d => (d.pkts.find? (fun o => o.fseq = fseq && o.resend)).map
    (fun o => (d, o))) = some (d, o) ∧
    let loc := if o.tallyOnly then (s, PktLocal.ok [] []) else pktLocal s n k d.record o.off o.len ecc; (slot s n
      k).ending = none ∧ loc = (s1, .invalid)) ∧
    (∃ (s s1 : State), ∃ (n ph k i fseq : Nat), ∃ (d : ActDesc), ∃ (o : OutPkt), ∃ (ecc : Ecc), ∃ f, streamOwner s n ph
    = some (k, i) ∧ (stream s n ph).descs.findSome? (fun d => (d.pkts.find? (fun o => o.fseq = fseq && o.resend)).map
    (fun o => (d, o))) = some (d, o) ∧
    let loc := if o.tallyOnly then (s, PktLocal.ok [] []) else pktLocal s n k d.record o.off o.len ecc; (slot s n
      k).ending = none ∧ loc = (s1, .fault f)) ∧
    (∃ (s s1 : State), ∃ (n ph k i fseq : Nat), ∃ (d : ActDesc), ∃ (o : OutPkt), ∃ (ecc : Ecc), ∃ er, streamOwner s n
    ph = some (k, i) ∧ (stream s n ph).descs.findSome? (fun d => (d.pkts.find? (fun o => o.fseq = fseq &&
    o.resend)).map (fun o => (d, o))) = some (d, o) ∧
    let loc := if o.tallyOnly then (s, PktLocal.ok [] []) else pktLocal s n k d.record o.off o.len ecc; (slot s n
      k).ending = none ∧ loc = (s1, .poison er)) ∧
    (∃ (s s1 : State), ∃ (n ph k i fseq : Nat), ∃ (d : ActDesc), ∃ (o : OutPkt), ∃ (ecc : Ecc), ∃ b dst, ∃ (s2 :
    State), ∃ r plane, streamOwner s n ph = some (k, i) ∧ (stream s n ph).descs.findSome? (fun d => (d.pkts.find? (fun
    o => o.fseq = fseq && o.resend)).map (fun o => (d, o))) = some (d, o) ∧
    let loc := if o.tallyOnly then (s, PktLocal.ok [] []) else pktLocal s n k d.record o.off o.len ecc; (slot s n
      k).ending = none ∧ loc = (s1, .ok b dst) ∧ sendReq s1 n (dRoll d.record) (descPkt s1 n k i d (stream s1 n
      ph).fseq o.off o.len o.retry o.tallyOnly b) = (s2, r) ∧ r = .sent plane) ∧
    (∃ (s s1 : State), ∃ (n ph k i fseq : Nat), ∃ (d : ActDesc), ∃ (o : OutPkt), ∃ (ecc : Ecc), ∃ b dst, ∃ (s2 :
    State), ∃ r det, streamOwner s n ph = some (k, i) ∧ (stream s n ph).descs.findSome? (fun d => (d.pkts.find? (fun o
    => o.fseq = fseq && o.resend)).map (fun o => (d, o))) = some (d, o) ∧
    let loc := if o.tallyOnly then (s, PktLocal.ok [] []) else pktLocal s n k d.record o.off o.len ecc; (slot s n
      k).ending = none ∧ loc = (s1, .ok b dst) ∧ sendReq s1 n (dRoll d.record) (descPkt s1 n k i d (stream s1 n
      ph).fseq o.off o.len o.retry o.tallyOnly b) = (s2, r) ∧ r = .held det) ∧
    (∃ (s s1 : State), ∃ (n ph k i fseq : Nat), ∃ (d : ActDesc), ∃ (o : OutPkt), ∃ (ecc : Ecc), ∃ b dst, ∃ (s2 :
    State), ∃ r, streamOwner s n ph = some (k, i) ∧ (stream s n ph).descs.findSome? (fun d => (d.pkts.find? (fun o =>
    o.fseq = fseq && o.resend)).map (fun o => (d, o))) = some (d, o) ∧
    let loc := if o.tallyOnly then (s, PktLocal.ok [] []) else pktLocal s n k d.record o.off o.len ecc; (slot s n
      k).ending = none ∧ loc = (s1, .ok b dst) ∧ sendReq s1 n (dRoll d.record) (descPkt s1 n k i d (stream s1 n
      ph).fseq o.off o.len o.retry o.tallyOnly b) = (s2, r) ∧ r = .wait) ∧
    (∃ (s s1 : State), ∃ (n ph k i fseq : Nat), ∃ (d : ActDesc), ∃ (o : OutPkt), ∃ (ecc : Ecc), ∃ b dst, ∃ (s2 :
    State), ∃ r, streamOwner s n ph = some (k, i) ∧ (stream s n ph).descs.findSome? (fun d => (d.pkts.find? (fun o =>
    o.fseq = fseq && o.resend)).map (fun o => (d, o))) = some (d, o) ∧
    let loc := if o.tallyOnly then (s, PktLocal.ok [] []) else pktLocal s n k d.record o.off o.len ecc; (slot s n
      k).ending = none ∧ loc = (s1, .ok b dst) ∧ sendReq s1 n (dRoll d.record) (descPkt s1 n k i d (stream s1 n
      ph).fseq o.off o.len o.retry o.tallyOnly b) = (s2, r) ∧ (r = .noPath ∨ (∃ lost, r = .down lost))) ∧
    (∃ (s : State), ∃ (n ph fseq : Nat), (streamOwner s n ph = none ∨ (stream s n ph).descs.findSome? (fun d =>
    (d.pkts.find? (fun o => o.fseq = fseq && o.resend)).map (fun o => (d, o))) = none)) ∧
    (∃ (s : State), ∃ (n ph k i det us : Nat), n < 1152 ∧ streamOwner s n ph = some (k, i) ∧ (stream s n ph).heldPath =
    some (det, us) ∧ opPassed s (partOfCore s n) (us + 1) = true ∧ (stream s n ph).st ≠ .stopped) ∧
    (∃ (s : State), ∃ (n ph k i det us : Nat), n < 1152 ∧ streamOwner s n ph = some (k, i) ∧ (stream s n ph).heldPath =
    some (det, us) ∧ opPassed s (partOfCore s n) (us + 1) = false) ∧
    (∃ (s : State), ∃ (n ph : Nat), n < 1152 ∧ (streamOwner s n ph = none ∨ (stream s n ph).heldPath = none)) ∧
    (∃ (s : State), ∃ (pp : Nat),
    let due := fun (h : HeldPkt) => h.pipe = pp && opPassed s (partOfPipe s pp) (h.us + 1); s.heldPkts.find? due =
      none) ∧
    (∃ (s : State), ∃ (pp : Nat), ∃ h,
    let due := fun (h : HeldPkt) => h.pipe = pp && opPassed s (partOfPipe s pp) (h.us + 1); s.heldPkts.find? due =
      some h) ∧
    (∃ (s : State), ∃ (n ph k i fseq : Nat), n < 1152 ∧ streamOwner s n ph = some (k, i) ∧
    let due := fun (d : ActDesc) => d.pkts.any (fun o => o.fseq = fseq && opPassed s (partOfCore s n) o.firstUs);
      (stream s n ph).descs.find? due = none) ∧
    (∃ (s : State), ∃ (n ph k i fseq : Nat), ∃ d, n < 1152 ∧ streamOwner s n ph = some (k, i) ∧
    let due := fun (d : ActDesc) => d.pkts.any (fun o => o.fseq = fseq && opPassed s (partOfCore s n) o.firstUs);
      (stream s n ph).descs.find? due = some d) ∧
    (∃ (s : State), ∃ (n ph : Nat), n < 1152 ∧ streamOwner s n ph = none) ∧
    (∃ (s : State), ∃ (pp fseq : Nat),
    let due := fun (w : McWait) => w.fseq = fseq && opPassed s (partOfPipe s pp) w.us;
      let held := s.heldPkts.any (fun h => h.pipe = pp && h.copy && (pktDecode h.data).fseq = fseq);
        let hit := (s.mcSends.find? (fun m => m.pipe = pp && m.waiting.any due)).bind (fun m => m.waiting.find? due);
          (held = true ∨ hit = none)) ∧
    (∃ (s : State), ∃ (pp fseq : Nat), ∃ w,
    let due := fun (w : McWait) => w.fseq = fseq && opPassed s (partOfPipe s pp) w.us;
      let held := s.heldPkts.any (fun h => h.pipe = pp && h.copy && (pktDecode h.data).fseq = fseq);
        let hit := (s.mcSends.find? (fun m => m.pipe = pp && m.waiting.any due)).bind (fun m => m.waiting.find? due);
          held = false ∧ hit = some w) ∧
    (∃ (s : State), ∃ (n ph k i : Nat), streamOwner s n ph = some (k, i) ∧ ((stream s n ph).descs.any (fun d =>
    !d.pkts.isEmpty) = true ∨ (slot s n k).ending.isSome = true)) ∧
    (∃ (s : State), ∃ (n ph k i : Nat), streamOwner s n ph = some (k, i) ∧ (stream s n ph).descs.any (fun d =>
    !d.pkts.isEmpty) = false ∧ (slot s n k).ending = none ∧ (stream s n ph).st = .stopped) ∧
    (∃ (s : State), ∃ (n ph k i : Nat), streamOwner s n ph = some (k, i) ∧ (stream s n ph).descs.any (fun d =>
    !d.pkts.isEmpty) = false ∧ (slot s n k).ending = none ∧ (stream s n ph).st ≠ .stopped ∧ (stream s n ph).stopping =
    false) ∧
    (∃ (s : State), ∃ (n ph k i : Nat), streamOwner s n ph = some (k, i) ∧ (stream s n ph).descs.any (fun d =>
    !d.pkts.isEmpty) = false ∧ (slot s n k).ending = none ∧ (stream s n ph).st ≠ .stopped ∧ (stream s n ph).stopping =
    true) ∧
    (∃ (s : State), ∃ (n ph : Nat), streamOwner s n ph = none) := by
  refine ⟨?_, ?_, ?_, ?_, ?_, ?_, ?_, ?_, ?_, ?_, ?_, ?_, ?_, ?_, ?_, ?_, ?_, ?_, ?_, ?_, ?_, ?_, ?_, ?_, ?_, ?_, ?_, ?_, ?_, ?_, ?_, ?_, ?_, ?_⟩
  · refine ⟨sFabricSends0, vFabricSends1, 0, 255, 0, 0, vFabricSends0, Ecc.none, vFabricSends2, [], [], 8, ⟨?_, ?_, ?_, ?_,
    ?_, ?_, ?_, ?_⟩, ?_, ?_⟩ <;>
      decide +kernel
  · refine ⟨sFabricSends6, vFabricSends4, 0, 255, 0, 0, vFabricSends3, Ecc.none, vFabricSends5, [0, 0, 0, 0], [], (sendReq
    vFabricSends4 0 (dRoll vFabricSends3.record) (descPkt vFabricSends4 0 0 0 vFabricSends3 (stream vFabricSends4 0
    255).fseq vFabricSends3.issued (pktLen vFabricSends3) vFabricSends3.retry false [0, 0, 0, 0])).2, ⟨?_, ?_, ?_, ?_,
    ?_, ?_, ?_, ?_⟩, ?_, ?_, (fun p_ h_ => absurd (show (match ((sendReq vFabricSends4 0 (dRoll vFabricSends3.record)
    (descPkt vFabricSends4 0 0 0 vFabricSends3 (stream vFabricSends4 0 255).fseq vFabricSends3.issued (pktLen
    vFabricSends3) vFabricSends3.retry false [0, 0, 0, 0])).2) with | .sent _ => true | _ => false) = true by rw [h_])
    (by decide +kernel))⟩ <;>
      decide +kernel
  · refine ⟨sFabricSends5, vFabricSends7, 0, 255, 0, 0, vFabricSends6, Ecc.none, ⟨?_, ?_, ?_, ?_, ?_, ?_, ?_, ?_⟩, ?_⟩ <;>
      decide +kernel
  · refine ⟨sFabricSends2, vFabricSends9, 0, 255, 0, 0, vFabricSends8, Ecc.none, (match ((pktLocal sFabricSends2 0 0
    vFabricSends8.record vFabricSends8.issued (pktLen vFabricSends8) Ecc.none).2) with
    | .fault z_ => z_ | _ => ⟨0, 0, 0, false, 0, 0, 0⟩), ⟨?_, ?_, ?_, ?_, ?_, ?_, ?_, ?_⟩, ?_⟩ <;>
      decide +kernel
  · refine ⟨sFabricSends4, vFabricSends11, 0, 255, 0, 0, vFabricSends10, Ecc.none, 268, ⟨?_, ?_, ?_, ?_, ?_, ?_, ?_, ?_⟩, ?_⟩ <;>
      decide +kernel
  · exact ⟨sFabricSends0, 0, 0,
    (fun _ _ _ h_ => nomatch (h_.owner.symm.trans (by decide +kernel : streamOwner sFabricSends0 0 0 = none)))⟩
  · refine ⟨sFabricSends0, 0, 255, 0, 0, ?_, ?_, ?_, ?_, ?_⟩ <;>
      decide +kernel
  · refine ⟨sFabricSends8, vFabricSends12, 0, 255, 0, 0, (Option.get ((stream sFabricSends8 0 255).descs.find? wantsTally)
    (by decide +kernel)), (sendReq sFabricSends8 0 (dRoll (Option.get ((stream sFabricSends8 0 255).descs.find?
    wantsTally) (by decide +kernel)).record) (descPkt sFabricSends8 0 0 0 (Option.get ((stream sFabricSends8 0
    255).descs.find? wantsTally) (by decide +kernel)) (stream sFabricSends8 0 255).fseq 0 (dLen (Option.get ((stream
    sFabricSends8 0 255).descs.find? wantsTally) (by decide +kernel)).record - (Option.get ((stream sFabricSends8 0
    255).descs.find? wantsTally) (by decide +kernel)).acked) false true [])).2, 8, ?_, ?_, ?_, ?_, ?_, ?_, ?_, ?_⟩ <;>
      decide +kernel
  · refine ⟨sFabricSends9, vFabricSends13, 0, 255, 0, 0, (Option.get ((stream sFabricSends9 0 255).descs.find? wantsTally)
    (by decide +kernel)), (sendReq sFabricSends9 0 (dRoll (Option.get ((stream sFabricSends9 0 255).descs.find?
    wantsTally) (by decide +kernel)).record) (descPkt sFabricSends9 0 0 0 (Option.get ((stream sFabricSends9 0
    255).descs.find? wantsTally) (by decide +kernel)) (stream sFabricSends9 0 255).fseq 0 (dLen (Option.get ((stream
    sFabricSends9 0 255).descs.find? wantsTally) (by decide +kernel)).record - (Option.get ((stream sFabricSends9 0
    255).descs.find? wantsTally) (by decide +kernel)).acked) false true [])).2, ?_, ?_, ?_, ?_, ?_, ?_, ?_, (fun p_ h_
    => absurd (show (match ((sendReq sFabricSends9 0 (dRoll (Option.get ((stream sFabricSends9 0 255).descs.find?
    wantsTally) (by decide +kernel)).record) (descPkt sFabricSends9 0 0 0 (Option.get ((stream sFabricSends9 0
    255).descs.find? wantsTally) (by decide +kernel)) (stream sFabricSends9 0 255).fseq 0 (dLen (Option.get ((stream
    sFabricSends9 0 255).descs.find? wantsTally) (by decide +kernel)).record - (Option.get ((stream sFabricSends9 0
    255).descs.find? wantsTally) (by decide +kernel)).acked) false true [])).2) with | .sent _ => true | _ => false) =
    true by rw [h_]) (by decide +kernel))⟩ <;>
      decide +kernel
  · exact ⟨sFabricSends0, 0, 0,
    (by first | exact Or.inl (by decide +kernel) | exact Or.inr (Or.inl (by decide +kernel)) | exact Or.inr (Or.inr (Or.inl (by decide +kernel))) | exact Or.inr (Or.inr (Or.inr ((opt_ex_pair (by decide +kernel))))))⟩
  · refine ⟨sFabricSends12, 0, 255, 0, 0, 7, vFabricSends14, vFabricSends15, ?_, ?_, ?_⟩ <;>
      decide +kernel
  · refine ⟨sFabricSends14, vFabricSends18, 0, 255, 0, 0, 7, vFabricSends16, vFabricSends17, Ecc.none, ?_, ?_, ?_, ?_⟩ <;>
      decide +kernel
  · refine ⟨sFabricSends13, vFabricSends21, 0, 255, 0, 0, 7, vFabricSends19, vFabricSends20, Ecc.none, (match ((if
    vFabricSends20.tallyOnly then (sFabricSends13, PktLocal.ok [] []) else pktLocal sFabricSends13 0 0
    vFabricSends19.record vFabricSends20.off vFabricSends20.len Ecc.none).2) with
    | .fault z_ => z_ | _ => ⟨0, 0, 0, false, 0, 0, 0⟩), ?_, ?_, ?_, ?_⟩ <;>
      decide +kernel
  · refine ⟨sFabricSends15, vFabricSends24, 0, 255, 0, 0, 7, vFabricSends22, vFabricSends23, Ecc.none, 268, ?_, ?_, ?_, ?_⟩ <;>
      decide +kernel
  · refine ⟨sFabricSends10, vFabricSends27, 0, 255, 0, 0, 7, vFabricSends25, vFabricSends26, Ecc.none, [0, 0, 0, 0], [],
    vFabricSends28, (sendReq vFabricSends27 0 (dRoll vFabricSends25.record) (descPkt vFabricSends27 0 0 0
    vFabricSends25 (stream vFabricSends27 0 255).fseq vFabricSends26.off vFabricSends26.len vFabricSends26.retry
    vFabricSends26.tallyOnly [0, 0, 0, 0])).2, 8, ?_, ?_, ?_, ?_, ?_, ?_⟩ <;>
      decide +kernel
  · refine ⟨sFabricSends16, vFabricSends31, 0, 255, 0, 0, 7, vFabricSends29, vFabricSends30, Ecc.none, [0, 0, 0, 0], [],
    vFabricSends32, (sendReq vFabricSends31 0 (dRoll vFabricSends29.record) (descPkt vFabricSends31 0 0 0
    vFabricSends29 (stream vFabricSends31 0 255).fseq vFabricSends30.off vFabricSends30.len vFabricSends30.retry
    vFabricSends30.tallyOnly [0, 0, 0, 0])).2, 8, ?_, ?_, ?_, ?_, ?_, ?_⟩ <;>
      decide +kernel
  · refine ⟨sFabricSends28, vFabricSends35, 0, 255, 0, 0, 7, vFabricSends33, vFabricSends34, Ecc.none, [0, 0, 0, 0], [],
    vFabricSends36, .wait, ?_, ?_, ?_, ?_, ?_, ?_⟩ <;>
      decide +kernel
  · refine ⟨sFabricSends27, vFabricSends39, 0, 255, 0, 0, 7, vFabricSends37, vFabricSends38, Ecc.none, [0, 0, 0, 0], [],
    vFabricSends40, (sendReq vFabricSends39 0 (dRoll vFabricSends37.record) (descPkt vFabricSends39 0 0 0
    vFabricSends37 (stream vFabricSends39 0 255).fseq vFabricSends38.off vFabricSends38.len vFabricSends38.retry
    vFabricSends38.tallyOnly [0, 0, 0, 0])).2, ?_, ?_, ?_, ?_, ?_,
    (by first | exact Or.inl (by decide +kernel) | exact Or.inr (by decide +kernel))⟩ <;>
      decide +kernel
  · refine ⟨sFabricSends0, 0, 0, 0, ?_⟩ <;>
      decide +kernel
  · refine ⟨sFabricSends19, 1151, 255, 15, 0, 8, 0, ?_, ?_, ?_, ?_, ?_⟩ <;>
      decide +kernel
  · refine ⟨sFabricSends20, 1151, 255, 15, 0, 8, 0, ?_, ?_, ?_, ?_⟩ <;>
      decide +kernel
  · refine ⟨sFabricSends0, 0, 0, ?_, ?_⟩ <;>
      decide +kernel
  · refine ⟨sFabricSends0, 0, ?_⟩ <;>
      decide +kernel
  · refine ⟨sFabricSends21, 7, (Option.get (sFabricSends21.heldPkts.find? (fun (h : HeldPkt) => h.pipe = 7 && opPassed
    sFabricSends21 (partOfPipe sFabricSends21 7) (h.us + 1))) (by decide +kernel)), ?_⟩ <;>
      decide +kernel
  · refine ⟨sFabricSends0, 0, 255, 0, 0, 0, ?_, ?_, ?_⟩ <;>
      decide +kernel
  · refine ⟨sFabricSends22, 1151, 255, 15, 0, 7, (Option.get ((stream sFabricSends22 1151 255).descs.find? (fun (d : ActDesc)
    => d.pkts.any (fun o => o.fseq = 7 && opPassed sFabricSends22 (partOfCore sFabricSends22 1151) o.firstUs)))
    (by decide +kernel)), ?_, ?_, ?_⟩ <;>
      decide +kernel
  · refine ⟨sFabricSends0, 0, 0, ?_, ?_⟩ <;>
      decide +kernel
  · refine ⟨sFabricSends0, 0, 0, ?_⟩ <;>
      decide +kernel
  · refine ⟨sFabricSends26, 7, 7, (Option.get (((sFabricSends26.mcSends.find? (fun m => m.pipe = 7 && m.waiting.any (fun (w :
    McWait) => w.fseq = 7 && opPassed sFabricSends26 (partOfPipe sFabricSends26 7) w.us))).bind (fun m =>
    m.waiting.find? (fun (w : McWait) => w.fseq = 7 && opPassed sFabricSends26 (partOfPipe sFabricSends26 7) w.us))))
    (by decide +kernel)), ?_, ?_⟩ <;>
      decide +kernel
  · refine ⟨sFabricSends10, 0, 255, 0, 0, ?_, ?_⟩ <;>
      decide +kernel
  · refine ⟨sFabricSends24, 1151, 255, 15, 0, ?_, ?_, ?_, ?_⟩ <;>
      decide +kernel
  · refine ⟨sFabricSends0, 0, 255, 0, 0, ?_, ?_, ?_, ?_, ?_⟩ <;>
      decide +kernel
  · refine ⟨sFabricSends23, 1151, 255, 15, 0, ?_, ?_, ?_, ?_, ?_⟩ <;>
      decide +kernel
  · refine ⟨sFabricSends0, 0, 0, ?_⟩ <;>
      decide +kernel

/-- A state of the witnesses of `RollsAndPeers`. -/
def sRollsAndPeers1 : State :=
  { roll := [(0, { loading := true })] }

/-- A state of the witnesses of `RollsAndPeers`. -/
def sRollsAndPeers2 : State :=
  { State.reset with roll := [(0, { data := leBytes 9 4 ++ leBytes 3 2 ++ [1] ++ List.replicate 1033 0 })] }

/-- A state of the witnesses of `RollsAndPeers`. -/
def sRollsAndPeers3 : State :=
  { active (fun sl => { sl with hdr := List.replicate 256 1 }) with roll := [(0, { data := leBytes 9 4 ++ leBytes 3 2 ++ [1] ++ List.replicate 1033 0 })] }

/-- A state of the witnesses of `RollsAndPeers`. -/
def sRollsAndPeers4 : State :=
  { modPort State.reset 7 (fun q => { q with planeKnown := true }) with roll := [(0, { data := leBytes 9 4 ++ leBytes 3 2 ++ [1] ++ List.replicate 1033 0 })] }

/-- A state of the witnesses of `RollsAndPeers`. -/
def sRollsAndPeers5 : State :=
  { peers := [(0xFFFF, { state := 2 })] }

/-- A state of the witnesses of `RollsAndPeers`. -/
def sRollsAndPeers6 : State :=
  { peers := [(0xFFFF, { state := 1 })] }

def vRollsAndPeers0 : State :=
  (arriveCheck State.reset (arrival State.reset 0 0) tResetNotice [] true).1

def vRollsAndPeers1 : List Byte :=
  pktBytes { type := tResetNotice, vc := 2, dstCoord := 5, srcCoord := 0xFFFF }

def vRollsAndPeers2 : State :=
  (arriveCheck fab0 (arrival fab0 7 7) tResetNotice vRollsAndPeers1 true).1

def vRollsAndPeers3 : List Byte :=
  pktBytes { type := tResetNotice, vc := 2, dstCoord := 5, srcCoord := 0xFFFF, dstEndpt := carillonEndpt }

def vRollsAndPeers4 : State :=
  (arriveCheck fab0 (arrival fab0 7 7) tResetNotice vRollsAndPeers3 true).1

def vRollsAndPeers5 : Pkt :=
  (Option.get ((arriveCheck fab0 (arrival fab0 7 7) tResetNotice vRollsAndPeers3 true).2) (by decide +kernel))

def vRollsAndPeers6 : List Byte :=
  pktBytes
  { type := tEpochAnnounce, vc := 2, dstCoord := 5, srcCoord := 0xFFFF, dstEndpt := carillonEndpt, srcEpoch := 3 }

def vRollsAndPeers7 : State :=
  (arriveCheck fab0 (arrival fab0 7 7) tEpochAnnounce vRollsAndPeers6 true).1

def vRollsAndPeers8 : Pkt :=
  (Option.get ((arriveCheck fab0 (arrival fab0 7 7) tEpochAnnounce vRollsAndPeers6 true).2) (by decide +kernel))

theorem wit_RollsAndPeers :
    (∃ (req : Req), ∃ (pipe v : Nat), ∃ c, c ∈ [Instr.rollLoad req pipe, .rollSelect req pipe v, .rollUnload req pipe]) ∧
    (∃ (req : Req), ∃ (pipe v : Nat), ∃ c, ∃ (s : State), c ∈ [Instr.rollLoad req pipe, .rollSelect req pipe v,
    .rollUnload req pipe] ∧ Serves s req .col pipe ∧ (isBarrierPipe s pipe = false ∨ (rollStore s (partOfPipe s
    pipe)).loading = true)) ∧
    (∃ (s : State), ∃ (req : Req), ∃ (pipe : Nat), Serves s req .col pipe ∧ isBarrierPipe s pipe = true ∧ (rollStore s
    (partOfPipe s pipe)).loading = false) ∧
    (∃ (s : State), ∃ (req : Req), ∃ (pipe v : Nat), Serves s req .col pipe ∧ isBarrierPipe s pipe = true ∧ (rollStore
    s (partOfPipe s pipe)).loading = false ∧
    let p := partOfPipe s pipe;
      let r := rollStore s p; r.data ≠ [] ∧ bit (rollVariants r) v = true) ∧
    (∃ (s : State), ∃ (req : Req), ∃ (pipe v : Nat), Serves s req .col pipe ∧ isBarrierPipe s pipe = true ∧ (rollStore
    s (partOfPipe s pipe)).loading = false ∧
    let p := partOfPipe s pipe;
      let r := rollStore s p; (r.data = [] ∨ bit (rollVariants r) v = false)) ∧
    (∃ (s : State), ∃ (req : Req), ∃ (pipe : Nat), Serves s req .col pipe ∧ isBarrierPipe s pipe = true ∧ (rollStore s
    (partOfPipe s pipe)).loading = false ∧
    let p := partOfPipe s pipe;
      let r := rollStore s p; r.data = []) ∧
    (∃ (s : State), ∃ (req : Req), ∃ (pipe : Nat), Serves s req .col pipe ∧ isBarrierPipe s pipe = true ∧ (rollStore s
    (partOfPipe s pipe)).loading = false ∧
    let p := partOfPipe s pipe;
      let r := rollStore s p; r.data ≠ [] ∧ rollInUse s p = false ∧ keysRising s.roll = true) ∧
    (∃ (s : State), ∃ (req : Req), ∃ (pipe : Nat), Serves s req .col pipe ∧ isBarrierPipe s pipe = true ∧ (rollStore s
    (partOfPipe s pipe)).loading = false ∧
    let p := partOfPipe s pipe;
      let r := rollStore s p; r.data ≠ [] ∧ rollInUse s p = true) ∧
    (∃ (s s1 : State), ∃ (pipe res : Nat), ∃ (b : List Byte), ∃ (ecc : Ecc), isBarrierPipe s pipe = true ∧ (rollStore s
    (partOfPipe s pipe)).loading = true ∧ rollRead s (partOfPipe s pipe) ecc = (s1, res, b)) ∧
    (∃ (s : State), ∃ (pipe : Nat), (isBarrierPipe s pipe = false ∨ (rollStore s (partOfPipe s pipe)).loading = false)) ∧
    (∃ (s : State), ∃ (i : Nat),
    let p := partOfPipe s i;
      let q := fld (rget s .fab i 0x118) 2 0; (((fabState s i = 0 ∨ fabState s i = 1 ∨ fabState s i = 9) ∧ (port s
        i).planeKnown = true ∧ (rollStore s p).data ≠ [] ∧ (rollStore s p).variant = 0 ∧ bit (rollVariants (rollStore
        s p)) (q + 1) = true))) ∧
    (∃ (s : State), ∃ (i : Nat),
    let p := partOfPipe s i;
      let q := fld (rget s .fab i 0x118) 2 0; (¬ ((fabState s i = 0 ∨ fabState s i = 1 ∨ fabState s i = 9) ∧ (port s
        i).planeKnown = true ∧ (rollStore s p).data ≠ [] ∧ (rollStore s p).variant = 0 ∧ bit (rollVariants (rollStore
        s p)) (q + 1) = true))) ∧
    (∃ (req : Req), ∃ (pipe c : Nat), ∃ (I : Instr), I ∈ [Instr.peerClear req pipe c, .peerMarkLost req pipe c]) ∧
    (∃ (req : Req), ∃ (pipe c : Nat), ∃ (I : Instr), ∃ (s : State), I ∈ [Instr.peerClear req pipe c, .peerMarkLost req
    pipe c] ∧ Serves s req .col pipe ∧ isBarrierPipe s pipe = false) ∧
    (∃ (s : State), ∃ (req : Req), ∃ (pipe c : Nat), Serves s req .col pipe ∧ isBarrierPipe s pipe = true ∧
    let p := partOfPipe s pipe; 2 ≤ (peer s p c).state) ∧
    (∃ (s : State), ∃ (req : Req), ∃ (pipe c : Nat), Serves s req .col pipe ∧ isBarrierPipe s pipe = true ∧
    let p := partOfPipe s pipe; (peer s p c).state < 2) ∧
    (∃ (s : State), ∃ (req : Req), ∃ (pipe c : Nat), Serves s req .col pipe ∧ isBarrierPipe s pipe = true ∧
    let p := partOfPipe s pipe; (peer s p c).state = 1) ∧
    (∃ (s : State), ∃ (req : Req), ∃ (pipe c : Nat), Serves s req .col pipe ∧ isBarrierPipe s pipe = true ∧
    let p := partOfPipe s pipe; (peer s p c).state ≠ 1) ∧
    (∃ (s s1 : State), ∃ (i part : Nat), ∃ (data : List Byte), ∃ (tagOk : Bool), ∃ c, c ∈ [(Instr.resetNotice,
    tResetNotice), (Instr.epochAnnounce, tEpochAnnounce)] ∧ arriveCheck s (arrival s i part) c.2 data tagOk = (s1,
    none)) ∧
    (∃ (s s1 : State), ∃ (i part : Nat), ∃ (data : List Byte), ∃ (tagOk : Bool), ∃ c k, c ∈ [(Instr.resetNotice,
    tResetNotice), (Instr.epochAnnounce, tEpochAnnounce)] ∧ arriveCheck s (arrival s i part) c.2 data tagOk = (s1,
    some k) ∧ k.dstEndpt ≠ carillonEndpt) ∧
    (∃ (s s1 : State), ∃ (i part : Nat), ∃ (data : List Byte), ∃ (tagOk : Bool), ∃ (k : Pkt), ∃ (p : Nat), arriveCheck
    s (arrival s i part) tResetNotice data tagOk = (s1, some k) ∧ k.dstEndpt = carillonEndpt ∧ p < partCount s1 ∧
    k.srcCoord < 65536) ∧
    (∃ (s s1 : State), ∃ (i part : Nat), ∃ (data : List Byte), ∃ (tagOk : Bool), ∃ (k : Pkt), ∃ (p : Nat), arriveCheck
    s (arrival s i part) tEpochAnnounce data tagOk = (s1, some k) ∧ k.dstEndpt = carillonEndpt ∧ p < partCount s1 ∧
    k.srcCoord < 65536) := by
  refine ⟨?_, ?_, ?_, ?_, ?_, ?_, ?_, ?_, ?_, ?_, ?_, ?_, ?_, ?_, ?_, ?_, ?_, ?_, ?_, ?_, ?_, ?_⟩
  · exact ⟨Req.car, 0, 0, Instr.rollLoad Req.car 0, List.mem_cons_self⟩
  · refine ⟨Req.car, 0, 0, Instr.rollLoad Req.car 0, sRollsAndPeers1, List.mem_cons_self, ⟨?_, ?_, ?_, ?_⟩, ?_⟩ <;>
      decide +kernel
  · refine ⟨State.reset, Req.car, 0, ⟨?_, ?_, ?_, ?_⟩, ?_, ?_⟩ <;>
      decide +kernel
  · refine ⟨sRollsAndPeers2, Req.car, 0, 0, ⟨?_, ?_, ?_, ?_⟩, ?_, ?_, ?_, ?_⟩ <;>
      decide +kernel
  · refine ⟨State.reset, Req.car, 0, 0, ⟨?_, ?_, ?_, ?_⟩, ?_, ?_, ?_⟩ <;>
      decide +kernel
  · refine ⟨State.reset, Req.car, 0, ⟨?_, ?_, ?_, ?_⟩, ?_, ?_, ?_⟩ <;>
      decide +kernel
  · refine ⟨sRollsAndPeers2, Req.car, 0, ⟨?_, ?_, ?_, ?_⟩, ?_, ?_, ?_, ?_, ?_⟩ <;>
      decide +kernel
  · refine ⟨sRollsAndPeers3, Req.car, 0, ⟨?_, ?_, ?_, ?_⟩, ?_, ?_, ?_, ?_⟩ <;>
      decide +kernel
  · refine ⟨sRollsAndPeers1, (rollRead sRollsAndPeers1 (partOfPipe sRollsAndPeers1 0) Ecc.none).1, 0, 1, [], Ecc.none, ?_,
    ?_, ?_⟩ <;>
      decide +kernel
  · refine ⟨State.reset, 0, ?_⟩ <;>
      decide +kernel
  · refine ⟨sRollsAndPeers4, 7, ⟨?_, ?_, ?_, ?_, ?_⟩⟩ <;>
      decide +kernel
  · refine ⟨State.reset, 0, ?_⟩ <;>
      decide +kernel
  · exact ⟨Req.car, 0, 0, Instr.peerClear Req.car 0 0, List.mem_cons_self⟩
  · refine ⟨Req.car, 1, 0, Instr.peerClear Req.car 1 0, State.reset, List.mem_cons_self, ⟨?_, ?_, ?_, ?_⟩, ?_⟩ <;>
      decide +kernel
  · refine ⟨sRollsAndPeers5, Req.car, 0, 65535, ⟨?_, ?_, ?_, ?_⟩, ?_, ?_⟩ <;>
      decide +kernel
  · refine ⟨State.reset, Req.car, 0, 0, ⟨?_, ?_, ?_, ?_⟩, ?_, ?_⟩ <;>
      decide +kernel
  · refine ⟨sRollsAndPeers6, Req.car, 0, 65535, ⟨?_, ?_, ?_, ?_⟩, ?_, ?_⟩ <;>
      decide +kernel
  · refine ⟨State.reset, Req.car, 0, 0, ⟨?_, ?_, ?_, ?_⟩, ?_, ?_⟩ <;>
      decide +kernel
  · refine ⟨State.reset, vRollsAndPeers0, 0, 0, [], true, (Instr.resetNotice, tResetNotice), List.mem_cons_self, ?_⟩ <;>
      decide +kernel
  · refine ⟨fab0, vRollsAndPeers2, 7, 7, vRollsAndPeers1, true, (Instr.resetNotice, tResetNotice), (Option.get ((arriveCheck
    fab0 (arrival fab0 7 7) tResetNotice vRollsAndPeers1 true).2) (by decide +kernel)), List.mem_cons_self, ?_, ?_⟩ <;>
      decide +kernel
  · refine ⟨fab0, vRollsAndPeers4, 7, 7, vRollsAndPeers3, true, vRollsAndPeers5, 0, ?_, ?_, ?_, ?_⟩ <;>
      decide +kernel
  · refine ⟨fab0, vRollsAndPeers7, 7, 7, vRollsAndPeers6, true, vRollsAndPeers8, 0, ?_, ?_, ?_, ?_⟩ <;>
      decide +kernel

/-- A state of the witnesses of `HostAccesses`. -/
def sHostAccesses1 : State :=
  { host := { up := true, perst := false } }

/-- A state of the witnesses of `HostAccesses`. -/
def sHostAccesses2 : State :=
  { setStage State.reset 7 with host := { up := true, perst := false } }

/-- A state of the witnesses of `HostAccesses`. -/
def sHostAccesses3 : State :=
  { setStage State.reset 7 with host := { up := true, perst := false }, poison := [(1, true)] }

def vHostAccesses0 : State :=
  (readData ((checkRead sHostAccesses2 8 8 Ecc.none noCtag).1) 8 8 noCtag).1

def vHostAccesses1 : State :=
  (readData ((checkRead sHostAccesses3 64 64 Ecc.none noCtag).1) 64 64 noCtag).1

def vHostAccesses2 : List Byte :=
  (readData ((checkRead sHostAccesses3 64 64 Ecc.none noCtag).1) 64 64 noCtag).2

theorem wit_HostAccesses :
    (∃ (s : State), s.host.up = false) ∧
    (∃ (s : State), s.host.up = true ∧ bootStage s < 7 ∧ s.fw.recovery = false) ∧
    (∃ (s : State), ∃ (f : Nat), s.host.up = true ∧ (7 ≤ bootStage s ∨ s.fw.recovery = true) ∧ funcPresent s f = false) ∧
    (∃ (s : State), ∃ (f : Nat), s.host.up = true ∧ (7 ≤ bootStage s ∨ s.fw.recovery = true) ∧ funcPresent s f = true) ∧
    (∃ (s : State), ∃ (f off len d : Nat), ∃ (ecc : Ecc), ∃ (s1 s2 : State), ∃ (b : List Byte), Bar2Piece s f off len d
    ∧ checkRead s d len ecc noCtag = (s1, none) ∧ readData s1 d len noCtag = (s2, b)) ∧
    (∃ (s : State), ∃ (f off len d : Nat), ∃ (ecc : Ecc), ∃ (s1 s2 : State), ∃ (x : Nat), ∃ (b : List Byte), Bar2Piece
    s f off len d ∧ checkRead s d len ecc noCtag = (s1, some x) ∧ readData s1 d len noCtag = (s2, b)) ∧
    (∃ (s : State), ∃ (f off len : Nat), bar2Open s f = true ∧ len ≤ maxPayload ∧ Bar2Sound s f off len) ∧
    (∃ (s : State), ∃ (f off : Nat), ∃ (data : List Byte), bar2Open s f = true ∧ data.length ≤ maxPayload ∧ Bar2Sound s
    f off data.length ∧ Memory.wf s.mem = true) ∧
    (∃ (s : State), ∃ (len : Nat), (s.host.up = false ∨ bootStage s < 7 ∨ s.chipReset.isSome = true ∨ maxPayload < len)) ∧
    (∃ (s : State), ∃ (f len : Nat), s.host.up = true ∧ bootStage s = 7 ∧ s.chipReset = none ∧ len ≤ maxPayload ∧
    funcPresent s f = false) ∧
    (∃ (s : State), ∃ (f : Nat), ∃ (data : List Byte), (bar2Open s f = false ∨ maxPayload < data.length)) := by
  refine ⟨?_, ?_, ?_, ?_, ?_, ?_, ?_, ?_, ?_, ?_, ?_⟩
  · refine ⟨State.reset, ?_⟩ <;>
      decide +kernel
  · refine ⟨sHostAccesses1, ?_, ?_, ?_⟩ <;>
      decide +kernel
  · refine ⟨sHostAccesses2, 8, ?_, ?_, ?_⟩ <;>
      decide +kernel
  · refine ⟨sHostAccesses2, 0, ?_, ?_, ?_⟩ <;>
      decide +kernel
  · refine ⟨sHostAccesses2, 0, 8, 8, 8, Ecc.none, (checkRead sHostAccesses2 8 8 Ecc.none noCtag).1, vHostAccesses0, [0, 0, 0,
    0, 0, 0, 0, 0], ⟨?_, ?_, ?_, ?_⟩, ?_, ?_⟩ <;>
      decide +kernel
  · refine ⟨sHostAccesses3, 0, 64, 64, 64, Ecc.none, (checkRead sHostAccesses3 64 64 Ecc.none noCtag).1, vHostAccesses1, 532,
    vHostAccesses2, ⟨?_, ?_, ?_, ?_⟩, ?_, ?_⟩ <;>
      decide +kernel
  · refine ⟨sHostAccesses2, 0, 8, 8, ?_, ?_,
    (by intro j d hj; exact opt_all ((show ∀ j, j < 8 → ((apertureAt sHostAccesses2 0 (bar2Win sHostAccesses2 0 + 8 + j)).all fun d => decide (keyAbsent sHostAccesses2 d = false ∧ deadGranule sHostAccesses2 d = false ∧ mgetD sHostAccesses2.poison (d / 64) false = false)) = true from by decide +kernel) j hj) d)⟩ <;>
      decide +kernel
  · refine ⟨sHostAccesses2, 0, 8, [1, 2, 3, 4], ?_, ?_,
    (by intro j d hj; exact opt_all ((show ∀ j, j < [1, 2, 3, 4].length → ((apertureAt sHostAccesses2 0 (bar2Win sHostAccesses2 0 + 8 + j)).all fun d => decide (keyAbsent sHostAccesses2 d = false ∧ deadGranule sHostAccesses2 d = false ∧ mgetD sHostAccesses2.poison (d / 64) false = false)) = true from by decide +kernel) j hj) d),
    ?_⟩ <;>
      decide +kernel
  · refine ⟨State.reset, 8, ?_⟩ <;>
      decide +kernel
  · refine ⟨sHostAccesses2, 8, 8, ?_, ?_, ?_, ?_, ?_⟩ <;>
      decide +kernel
  · refine ⟨State.reset, 8, [1, 2, 3, 4], ?_⟩ <;>
      decide +kernel

/-- A state of the witnesses of `HostLinkAndResets`. -/
def sHostLinkAndResets1 : State :=
  { setStage State.reset 7 with host := { perst := false } }

/-- A state of the witnesses of `HostLinkAndResets`. -/
def sHostLinkAndResets2 : State :=
  { host := { up := true, perst := false } }

/-- A state of the witnesses of `HostLinkAndResets`. -/
def sHostLinkAndResets5 : State :=
  { setStage State.reset 7 with split := 3, host := { up := true, perst := false, vfEnable := true, numVfs := 8 } }

theorem wit_HostLinkAndResets :
    (∃ (s : State), ∃ (width gen : Nat), ∃ (flit : Bool), ((s.host.perst = false ∧ s.host.failed = false ∧ ((2 ≤
    bootStage s ∧ s.power.st < 3) ∨ (s.fw.recovery = true ∧ s.power.vin48 = true)) ∧ width ≤ s.host.maxWidth ∧ (width
    = 4 ∨ width = 8 ∨ width = 16) ∧ 1 ≤ gen ∧ gen ≤ 7 ∧ (6 ≤ gen → flit = true)))) ∧
    (∃ (s : State), ∃ (width gen : Nat), ∃ (flit : Bool), (¬ (s.host.perst = false ∧ s.host.failed = false ∧ ((2 ≤
    bootStage s ∧ s.power.st < 3) ∨ (s.fw.recovery = true ∧ s.power.vin48 = true)) ∧ width ≤ s.host.maxWidth ∧ (width
    = 4 ∨ width = 8 ∨ width = 16) ∧ 1 ≤ gen ∧ gen ≤ 7 ∧ (6 ≤ gen → flit = true)))) ∧
    (∃ (s : State), s.host.up = true) ∧
    (∃ (s : State), s.host.up = false) ∧
    (∃ (s : State), ∃ (b : Bool), s.host.failed = false ∧ s.host.perst = false ∧
    let recent := s.host.recoveries.filter (fun t => within s 10000000 t); b = true ∧ recent.length < 3) ∧
    (∃ (s : State), ∃ (b : Bool), s.host.failed = false ∧ s.host.perst = false ∧
    let recent := s.host.recoveries.filter (fun t => within s 10000000 t); (b = false ∨ 3 ≤ recent.length) ∧ 4 ≤
      nextWidth s) ∧
    (∃ (s : State), ∃ (b : Bool), s.host.failed = false ∧ s.host.perst = false ∧
    let recent := s.host.recoveries.filter (fun t => within s 10000000 t); (b = false ∨ 3 ≤ recent.length) ∧ nextWidth
      s < 4) ∧
    (∃ (s : State), (s.host.failed = true ∨ s.host.perst = true)) ∧
    (∃ (s : State), ∃ (p : Nat), s.host.up = true ∧ bootStage s = 7 ∧ funcPresent s (p + 1) = true) ∧
    (∃ (s : State), ∃ (p : Nat), (s.host.up = false ∨ bootStage s ≠ 7 ∨ funcPresent s (p + 1) = false)) ∧
    (∃ (s : State), s.host.up = true ∧ bootStage s = 7) ∧
    (∃ (s : State), (s.host.up = false ∨ bootStage s ≠ 7)) ∧
    (∃ (req : Req), ∃ (p : Nat), ∃ (s : State), Serves s req .pce 0 ∧ p < partCount s) ∧
    (∃ (req : Req), ∃ (p : Nat), ∃ (s : State), Serves s req .pce 0 ∧ partCount s ≤ p) ∧
    (∃ (req : Req), ∃ (s : State), Serves s req .pce 0) := by
  refine ⟨?_, ?_, ?_, ?_, ?_, ?_, ?_, ?_, ?_, ?_, ?_, ?_, ?_, ?_, ?_⟩
  · refine ⟨sHostLinkAndResets1, 16, 7, true, ⟨?_, ?_, ?_, ?_, ?_, ?_, ?_, ?_⟩⟩ <;>
      decide +kernel
  · refine ⟨State.reset, 16, 16, true, ?_⟩ <;>
      decide +kernel
  · refine ⟨sHostLinkAndResets2, ?_⟩ <;>
      decide +kernel
  · refine ⟨State.reset, ?_⟩ <;>
      decide +kernel
  · refine ⟨sHostLinkAndResets1, true, ?_, ?_, ?_, ?_⟩ <;>
      decide +kernel
  · refine ⟨sHostLinkAndResets1, false, ?_, ?_, ?_, ?_⟩ <;>
      decide +kernel
  · refine ⟨sHostLinkAndResets2, false, ?_, ?_, ?_, ?_⟩ <;>
      decide +kernel
  · refine ⟨State.reset, ?_⟩ <;>
      decide +kernel
  · refine ⟨sHostLinkAndResets5, 7, ?_, ?_, ?_⟩ <;>
      decide +kernel
  · refine ⟨State.reset, 16, ?_⟩ <;>
      decide +kernel
  · refine ⟨sHostLinkAndResets5, ?_, ?_⟩ <;>
      decide +kernel
  · refine ⟨State.reset, ?_⟩ <;>
      decide +kernel
  · refine ⟨Req.car, 0, State.reset, ⟨?_, ?_, ?_, ?_⟩, ?_⟩ <;>
      decide +kernel
  · refine ⟨Req.car, 1, State.reset, ⟨?_, ?_, ?_, ?_⟩, ?_⟩ <;>
      decide +kernel
  · refine ⟨Req.car, State.reset, ⟨?_, ?_, ?_, ?_⟩⟩ <;>
      decide +kernel

/-- A state of the witnesses of `Upkeep`. -/
def sUpkeep2 : State :=
  { rset State.reset .hbm 15 0x100 2 with caFails := [(15, 63, 0), (15, 63, 0)] }

/-- A state of the witnesses of `Upkeep`. -/
def sUpkeep5 : State :=
  { zeroAt := [(71, 0)] }

/-- A state of the witnesses of `Upkeep`. -/
def sUpkeep6 : State :=
  { brgOut := [3] }

/-- A state of the witnesses of `Upkeep`. -/
def sUpkeep7 : State :=
  { brgReplays := List.replicate 17 (3, 31, 31, 0) }

/-- A state of the witnesses of `Upkeep`. -/
def sUpkeep8 : State :=
  rset { State.reset with brgReplays := List.replicate 17 (3, 31, 31, 0) } .brg 3 0x108 0x80000000

theorem wit_Upkeep :
    (∃ (s : State), ∃ (stack pc : Nat), pcServed s stack pc = false) ∧
    (∃ (s : State), ∃ (stack pc ca : Nat), stack < 16 ∧ pcServed s stack pc = true ∧ (ca = 0 ∨ 3 < ca)) ∧
    (∃ (s : State), ∃ (stack pc : Nat), stack < 16 ∧ pcServed s stack pc = true) ∧
    (∃ (s : State), ∃ (stack pc : Nat), stack < 16 ∧ pcServed s stack pc = true ∧
    let fails := ((stack, pc, s.us) :: s.caFails.filter (fun e => within s 1000000 e.2.2)).filter (fun e => e.1 =
      stack && e.2.1 = pc); fails.length < 3) ∧
    (∃ (s : State), ∃ (stack pc : Nat), stack < 16 ∧ pcServed s stack pc = true ∧
    let fails := ((stack, pc, s.us) :: s.caFails.filter (fun e => within s 1000000 e.2.2)).filter (fun e => e.1 =
      stack && e.2.1 = pc); 3 ≤ fails.length) ∧
    (∃ (s : State), ∃ (stack pc : Nat), (pcServed s stack pc = false ∨ wbit (rget s .hbm stack 0x120) 0 = false)) ∧
    (∃ (s : State), ∃ (stack pc : Nat), pcServed s stack pc = true ∧ wbit (rget s .hbm stack 0x120) 0 = true) ∧
    (∃ (s : State), ∃ (i : Nat), (sliceRetired s i = true ∨ wbit (rget s .stg i 0x118) 0 = false)) ∧
    (∃ (s : State), ∃ (i : Nat), sliceRetired s i = false ∧ wbit (rget s .stg i 0x118) 0 = true) ∧
    (∃ (s : State), ∃ (unit : Nat), (mget s.zeroAt unit).isSome = true ∧ keysRising s.zeroAt = true) ∧
    (∃ (s : State), ∃ (unit : Nat), mget s.zeroAt unit = none) ∧
    (∃ (s : State), ∃ (b : Nat), s.brgOut.contains b = true) ∧
    (∃ (s : State), ∃ (b : Nat), b < 4 ∧ s.brgOut.contains b = false) ∧
    (∃ (s : State), ∃ (b dir grp lane : Nat), b < 4 ∧ s.brgOut.contains b = false ∧ laneReplays s b (brgGroup dir grp)
    lane ≤ 16) ∧
    (∃ (s : State), ∃ (b dir grp lane : Nat), b < 4 ∧ s.brgOut.contains b = false ∧ 16 < laneReplays s b (brgGroup dir
    grp) lane ∧ wbit (rget s .brg b 0x108) (brgGroup dir grp) = false) ∧
    (∃ (s : State), ∃ (b dir grp lane : Nat), b < 4 ∧ s.brgOut.contains b = false ∧ 16 < laneReplays s b (brgGroup dir
    grp) lane ∧ wbit (rget s .brg b 0x108) (brgGroup dir grp) = true) ∧
    (∃ (s : State), ∃ (b : Nat), b < 4 ∧ s.brgOut.contains b = false) ∧
    (∃ (s : State), ∃ (a b : Nat), adjacent a b = true ∧ islandStopped s a = false ∧ islandStopped s b = false) ∧
    (∃ (s : State), ∃ (a b : Nat), (adjacent a b = false ∨ islandStopped s a = true ∨ islandStopped s b = true)) ∧
    (∃ (s : State), ∃ (a b : Nat), ∃ e, e ∈ [(Instr.islandSupplySkew, eIslandSupplySkew), (Instr.islandClockSkew,
    eIslandClockSkew)] ∧ adjacent a b = true ∧ pairExempt s a b = false) ∧
    (∃ (s : State), ∃ (a b : Nat), ∃ e, e ∈ [(Instr.islandSupplySkew, eIslandSupplySkew), (Instr.islandClockSkew,
    eIslandClockSkew)] ∧ (adjacent a b = false ∨ pairExempt s a b = true)) := by
  refine ⟨?_, ?_, ?_, ?_, ?_, ?_, ?_, ?_, ?_, ?_, ?_, ?_, ?_, ?_, ?_, ?_, ?_, ?_, ?_, ?_, ?_⟩
  · refine ⟨State.reset, 15, 15, ?_⟩ <;>
      decide +kernel
  · refine ⟨rset State.reset .hbm 15 0x100 2, 15, 15, 15, ?_, ?_, ?_⟩ <;>
      decide +kernel
  · refine ⟨rset State.reset .hbm 15 0x100 2, 15, 15, ?_, ?_⟩ <;>
      decide +kernel
  · refine ⟨rset State.reset .hbm 15 0x100 2, 15, 15, ?_, ?_, ?_⟩ <;>
      decide +kernel
  · refine ⟨sUpkeep2, 15, 63, ?_, ?_, ?_⟩ <;>
      decide +kernel
  · refine ⟨State.reset, 15, 15, ?_⟩ <;>
      decide +kernel
  · refine ⟨rset State.reset .hbm 15 0x100 2, 15, 15, ?_, ?_⟩ <;>
      decide +kernel
  · refine ⟨State.reset, 71, ?_⟩ <;>
      decide +kernel
  · refine ⟨State.reset, 15, ?_, ?_⟩ <;>
      decide +kernel
  · refine ⟨sUpkeep5, 71, ?_, ?_⟩ <;>
      decide +kernel
  · refine ⟨State.reset, 15, ?_⟩ <;>
      decide +kernel
  · refine ⟨sUpkeep6, 3, ?_⟩ <;>
      decide +kernel
  · refine ⟨State.reset, 3, ?_, ?_⟩ <;>
      decide +kernel
  · refine ⟨State.reset, 3, 15, 15, 15, ?_, ?_, ?_⟩ <;>
      decide +kernel
  · refine ⟨sUpkeep7, 3, 3, 15, 31, ?_, ?_, ?_, ?_⟩ <;>
      decide +kernel
  · refine ⟨sUpkeep8, 3, 3, 15, 31, ?_, ?_, ?_, ?_⟩ <;>
      decide +kernel
  · refine ⟨State.reset, 3, ?_, ?_⟩ <;>
      decide +kernel
  · refine ⟨State.reset, 15, 4096, ?_, ?_, ?_⟩ <;>
      decide +kernel
  · refine ⟨State.reset, 15, 15, ?_⟩ <;>
      decide +kernel
  · refine ⟨State.reset, 15, 4096, (Instr.islandSupplySkew, eIslandSupplySkew), List.mem_cons_self, ?_, ?_⟩ <;>
      decide +kernel
  · refine ⟨State.reset, 15, 15, (Instr.islandSupplySkew, eIslandSupplySkew), List.mem_cons_self, ?_⟩ <;>
      decide +kernel

/-- A state of the witnesses of `LinkStates`. -/
def sLinkStates11 : State :=
  rset (setStage State.reset 6) .fab 7 0x100 1

/-- A state of the witnesses of `LinkStates`. -/
def sLinkStates14 : State :=
  modPort (rset State.reset .fab 7 0x100 3) 7 (fun q => { q with identLeft := 1 })

def vLinkStates0 : List Byte :=
  padTo (leBytes 0x544E4449 4 ++ [2, 0, 1, 0] ++ leBytes 0x4A04 2 ++ [7, 7] ++ leBytes 9 2 ++ leBytes 0 2 ++ leBytes
  0x1FFFF 4 ++ leBytes 0 16 ++ [1, 1]) 64

def vLinkStates1 : List Byte :=
  padTo (leBytes 0x544E4449 4 ++ [2, 0, 0, 0] ++ leBytes 0x4A04 2 ++ [7, 7] ++ leBytes 9 2 ++ leBytes 0 2 ++ leBytes
  0x1FFFF 4 ++ leBytes 0 16 ++ [1, 1]) 64

theorem wit_LinkStates :
    (∃ (s : State), ∃ (req : Req), ∃ (i : Nat), i < 8 ∧ Serves s req .fab i ∧ fabState s i = 0 ∧ reach s i ≠ 0) ∧
    (∃ (s : State), ∃ (req : Req), ∃ (i : Nat), i < 8 ∧ Serves s req .fab i ∧ (fabState s i ≠ 0 ∨ reach s i = 0)) ∧
    (∃ (s : State), ∃ (req : Req), ∃ (i : Nat), i < 8 ∧ Serves s req .fab i) ∧
    (∃ (s : State), ∃ (req : Req), ∃ (i : Nat), i < 8 ∧ Serves s req .fab i ∧ (fabState s i = 4 ∨ fabState s i = 5 ∨
    fabState s i = 6)) ∧
    (∃ (s : State), ∃ (req : Req), ∃ (i : Nat), i < 8 ∧ Serves s req .fab i ∧ fabState s i ∉ [4, 5, 6]) ∧
    (∃ (s : State), ∃ (req : Req), ∃ (i : Nat), i < 8 ∧ Serves s req .fab i ∧ fabState s i = 9) ∧
    (∃ (s : State), ∃ (req : Req), ∃ (i : Nat), i < 8 ∧ Serves s req .fab i ∧ fabState s i ≠ 9) ∧
    (∃ (s : State), ∃ (req : Req), ∃ (i : Nat), i < 8 ∧ Serves s req .fab i ∧ fabState s i = 10) ∧
    (∃ (s : State), ∃ (req : Req), ∃ (i : Nat), i < 8 ∧ Serves s req .fab i ∧ fabState s i ≠ 10) ∧
    (∃ (s : State), ∃ (req : Req), ∃ (i : Nat), ∃ lane, i < 8 ∧ Serves s req .fab i ∧ lane < 17 ∧ bit (lanesRetired s
    i) lane = false ∧ fabState s i ≠ 10) ∧
    (∃ (s : State), ∃ (req : Req), ∃ (i : Nat), ∃ lane, i < 8 ∧ Serves s req .fab i ∧ (17 ≤ lane ∨ bit (lanesRetired s
    i) lane = true ∨ fabState s i = 10)) ∧
    (∃ (req : Req), ∃ (i lane : Nat), ∃ c, c ∈ [Instr.fabCmdEnable req i, .fabCmdDisable req i, .fabCmdRetrain req i,
    .fabCmdRecheck req i, .fabCmdClear req i, .fabCmdRetireLane req i lane]) ∧
    (∃ (s : State), ∃ (i lanes : Nat), i < 8 ∧ fabState s i = 1 ∧ 8 ≤ lanes ∧ trainOpen s = true) ∧
    (∃ (s : State), ∃ (i lanes : Nat), i < 8 ∧ (fabState s i ≠ 1 ∨ lanes < 8 ∨ trainOpen s = false)) ∧
    (∃ (s : State), ∃ (i : Nat), i < 8 ∧ fabState s i = 1) ∧
    (∃ (s : State), ∃ (i : Nat), i < 8 ∧ fabState s i ≠ 1) ∧
    (∃ (s : State), ∃ (i : Nat), ∃ (lanes : List LaneTrain), i < 8 ∧
    let good := trainedLanes s i lanes; (fabState s i = 2 ∨ fabState s i = 7) ∧ 8 ≤ popBelow good 17) ∧
    (∃ (s : State), ∃ (i : Nat), ∃ (lanes : List LaneTrain), i < 8 ∧
    let good := trainedLanes s i lanes; (fabState s i = 2 ∨ fabState s i = 7) ∧ popBelow good 17 < 8) ∧
    (∃ (s : State), ∃ (i : Nat), i < 8 ∧ fabState s i ≠ 2 ∧ fabState s i ≠ 7) ∧
    (∃ (s : State), ∃ (i : Nat), ∃ (f : List Byte), i < 8 ∧ fabState s i = 3 ∧ identityCheck s i f = 0) ∧
    (∃ (s : State), ∃ (i : Nat), ∃ (f : List Byte), i < 8 ∧ fabState s i = 3 ∧ identityCheck s i f = 3) ∧
    (∃ (s : State), ∃ (i : Nat), ∃ (f : List Byte), i < 8 ∧ fabState s i = 3 ∧ identityCheck s i f ≠ 0 ∧ identityCheck
    s i f ≠ 3) ∧
    (∃ (s : State), ∃ (i : Nat), i < 8 ∧ fabState s i = 3 ∧ (port s i).heard = false) ∧
    (∃ (s : State), ∃ (i : Nat), i < 8 ∧ fabState s i ≠ 3) ∧
    (∃ (s : State), ∃ (i : Nat), i < 8 ∧ (fabState s i ≠ 3 ∨ (port s i).heard = true)) ∧
    (∃ (s : State), ∃ (i : Nat), i < 8 ∧ (fabState s i = 3 ∨ fabState s i = 9) ∧ fabState s i = 3 ∧ (port s
    i).identLeft = 1) ∧
    (∃ (s : State), ∃ (i : Nat), i < 8 ∧ (fabState s i = 3 ∨ fabState s i = 9) ∧ (fabState s i = 9 ∨ (port s
    i).identLeft ≠ 1)) := by
  refine ⟨?_, ?_, ?_, ?_, ?_, ?_, ?_, ?_, ?_, ?_, ?_, ?_, ?_, ?_, ?_, ?_, ?_, ?_, ?_, ?_, ?_, ?_, ?_, ?_, ?_, ?_, ?_⟩
  · refine ⟨rset State.reset .fab 7 0x104 4, Req.car, 7, ?_, ⟨?_, ?_, ?_, ?_⟩, ?_, ?_⟩ <;>
      decide +kernel
  · refine ⟨State.reset, Req.car, 7, ?_, ⟨?_, ?_, ?_, ?_⟩, ?_⟩ <;>
      decide +kernel
  · refine ⟨State.reset, Req.car, 7, ?_, ⟨?_, ?_, ?_, ?_⟩⟩ <;>
      decide +kernel
  · refine ⟨rset State.reset .fab 7 0x100 4, Req.car, 7, ?_, ⟨?_, ?_, ?_, ?_⟩, ?_⟩ <;>
      decide +kernel
  · refine ⟨State.reset, Req.car, 7, ?_, ⟨?_, ?_, ?_, ?_⟩, ?_⟩ <;>
      decide +kernel
  · refine ⟨rset State.reset .fab 7 0x100 9, Req.car, 7, ?_, ⟨?_, ?_, ?_, ?_⟩, ?_⟩ <;>
      decide +kernel
  · refine ⟨State.reset, Req.car, 7, ?_, ⟨?_, ?_, ?_, ?_⟩, ?_⟩ <;>
      decide +kernel
  · refine ⟨rset State.reset .fab 7 0x100 10, Req.car, 7, ?_, ⟨?_, ?_, ?_, ?_⟩, ?_⟩ <;>
      decide +kernel
  · refine ⟨State.reset, Req.car, 7, ?_, ⟨?_, ?_, ?_, ?_⟩, ?_⟩ <;>
      decide +kernel
  · refine ⟨State.reset, Req.car, 7, 7, ?_, ⟨?_, ?_, ?_, ?_⟩, ?_, ?_, ?_⟩ <;>
      decide +kernel
  · refine ⟨rset State.reset .fab 7 0x100 10, Req.car, 7, 7, ?_, ⟨?_, ?_, ?_, ?_⟩, ?_⟩ <;>
      decide +kernel
  · exact ⟨Req.car, 0, 0, Instr.fabCmdEnable Req.car 0, List.mem_cons_self⟩
  · refine ⟨sLinkStates11, 7, 131071, ?_, ?_, ?_, ?_⟩ <;>
      decide +kernel
  · refine ⟨State.reset, 7, 7, ?_, ?_⟩ <;>
      decide +kernel
  · refine ⟨rset State.reset .fab 7 0x100 1, 7, ?_, ?_⟩ <;>
      decide +kernel
  · refine ⟨State.reset, 7, ?_, ?_⟩ <;>
      decide +kernel
  · refine ⟨rset State.reset .fab 7 0x100 2, 7, (List.range 17).map (fun n => ⟨n, 0, 0, false⟩), ?_, ?_, ?_⟩ <;>
      decide +kernel
  · refine ⟨rset State.reset .fab 7 0x100 2, 7, [], ?_, ?_, ?_⟩ <;>
      decide +kernel
  · refine ⟨State.reset, 7, ?_, ?_, ?_⟩ <;>
      decide +kernel
  · refine ⟨rset State.reset .fab 7 0x100 3, 7, vLinkStates0, ?_, ?_, ?_⟩ <;>
      decide +kernel
  · refine ⟨rset State.reset .fab 7 0x100 3, 7, vLinkStates1, ?_, ?_, ?_⟩ <;>
      decide +kernel
  · refine ⟨rset State.reset .fab 7 0x100 3, 7, [], ?_, ?_, ?_, ?_⟩ <;>
      decide +kernel
  · refine ⟨rset State.reset .fab 7 0x100 3, 7, ?_, ?_, ?_⟩ <;>
      decide +kernel
  · refine ⟨State.reset, 7, ?_, ?_⟩ <;>
      decide +kernel
  · refine ⟨State.reset, 7, ?_, ?_⟩ <;>
      decide +kernel
  · refine ⟨sLinkStates14, 7, ?_, ?_, ?_, ?_⟩ <;>
      decide +kernel
  · refine ⟨rset State.reset .fab 7 0x100 3, 7, ?_, ?_, ?_⟩ <;>
      decide +kernel

/-- A state of the witnesses of `LinkTraffic`. -/
def sLinkTraffic7 : State :=
  { rset State.reset .fab 7 0x100 4 with chipReset := some {} }

/-- A state of the witnesses of `LinkTraffic`. -/
def sLinkTraffic9 : State :=
  modPort (rset State.reset .fab 7 0x100 5) 7 (fun q => { q with failCount := 3 })

/-- A state of the witnesses of `LinkTraffic`. -/
def sLinkTraffic10 : State :=
  modPort (rset State.reset .fab 7 0x100 5) 7 (fun q => { q with nakOut := true, rxFsn := 1 })

/-- A state of the witnesses of `LinkTraffic`. -/
def sLinkTraffic11 : State :=
  modPort (rset State.reset .fab 7 0x100 6) 7 (fun q => { q with pauseOwn := true, token := 255 })

/-- A state of the witnesses of `LinkTraffic`. -/
def sLinkTraffic13 : State :=
  modPort (rset State.reset .fab 7 0x100 5) 7 (fun q => { q with standbySent := true, standbyTok := 255 })

/-- A state of the witnesses of `LinkTraffic`. -/
def sLinkTraffic15 : State :=
  modPort (rset State.reset .fab 7 0x100 5) 7 (fun q => { q with seen := [(3, 255), (4, 255), (5, 255), (7, 255)] })

/-- A state of the witnesses of `LinkTraffic`. -/
def sLinkTraffic18 : State :=
  rset (modPort (rset State.reset .fab 7 0x100 8) 7 (fun q => { q with prior := 4 })) .fab 7 0x10C 0xFFFF

theorem wit_LinkTraffic :
    (∃ (s : State), ∃ (i : Nat), i < 8 ∧ portUp s i = true ∧ ((port s i).resumeSent = false ∨ (port s i).resumed =
    true) ∧ (s.chipReset = none ∨ s.chipAtS2 = true)) ∧
    (∃ (s : State), ∃ (i : Nat), i < 8 ∧ portUp s i = true ∧ ((port s i).resumeSent = false ∨ (port s i).resumed =
    true) ∧ s.chipReset.isSome = true ∧ s.chipAtS2 = false ∧ (port (carryFlit s i) i).txMgt = [] ∧ (port (carryFlit s
    i) i).txBytes = []) ∧
    (∃ (s : State), ∃ (i : Nat), i < 8 ∧ (fabState s i = 6 ∨ portUp s i = true ∧ (port s i).resumeSent = true ∧ (port s
    i).resumed = false)) ∧
    (∃ (s : State), ∃ (i : Nat), i < 8 ∧ (fabState s i = 2 ∨ fabState s i = 7)) ∧
    (∃ (s : State), ∃ (i : Nat), i < 8 ∧ fabState s i = 8) ∧
    (∃ (s : State), ∃ (i : Nat), i < 8 ∧ (fabState s i < 2 ∨ 10 ≤ fabState s i)) ∧
    (∃ (s : State), ∃ (i : Nat), ∃ (sym m : List Nat), i < 8 ∧ fabState s i ∈ [4, 5, 6] ∧ rsDecode sym = some m ∧ leAt
    (lineFlit m) 0x278 8 = crc64 (slice (lineFlit m) 0 0x278) ∧
    let b := lineFlit m;
      let fsn := bits (leAt b 0 8) 0 16; bit (leAt b 0 8) 33 = true ∧ fsn = (port s i).rxFsn) ∧
    (∃ (s : State), ∃ (i : Nat), ∃ (sym m : List Nat), ∃ (skew : Bool), i < 8 ∧ fabState s i ∈ [4, 5, 6] ∧ rsDecode sym
    = some m ∧ leAt (lineFlit m) 0x278 8 = crc64 (slice (lineFlit m) 0 0x278) ∧
    let b := lineFlit m;
      let fsn := bits (leAt b 0 8) 0 16; bit (leAt b 0 8) 33 = true ∧ (fsn ≠ (port s i).rxFsn ∧ fsnLe fsn (port s
        i).rxFsn = false ∧ (port s i).nakOut = false) ∧ skew = false) ∧
    (∃ (s : State), ∃ (i : Nat), ∃ (sym m : List Nat), ∃ (skew : Bool), i < 8 ∧ fabState s i ∈ [4, 5, 6] ∧ rsDecode sym
    = some m ∧ leAt (lineFlit m) 0x278 8 = crc64 (slice (lineFlit m) 0 0x278) ∧
    let b := lineFlit m;
      let fsn := bits (leAt b 0 8) 0 16; (fsn ≠ (port s i).rxFsn ∧ fsnLe fsn (port s i).rxFsn = false ∧ (port s
        i).nakOut = false) ∧ skew = true ∧ (port s i).failCount < 3) ∧
    (∃ (s : State), ∃ (i : Nat), ∃ (sym m : List Nat), ∃ (skew : Bool), i < 8 ∧ fabState s i ∈ [4, 5, 6] ∧ rsDecode sym
    = some m ∧ leAt (lineFlit m) 0x278 8 = crc64 (slice (lineFlit m) 0 0x278) ∧
    let b := lineFlit m;
      let fsn := bits (leAt b 0 8) 0 16; ((bit (leAt b 0 8) 33 = false ∧ ¬ (fsn ≠ (port s i).rxFsn ∧ fsnLe fsn (port s
        i).rxFsn = false ∧ (port s i).nakOut = false)) ∨ (bit (leAt b 0 8) 33 = false ∧ skew = false) ∨ (fsn ≠ (port s
        i).rxFsn ∧ ¬ (fsn ≠ (port s i).rxFsn ∧ fsnLe fsn (port s i).rxFsn = false ∧ (port s i).nakOut = false)))) ∧
    (∃ (s : State), ∃ (i lane : Nat), ∃ (sym : List Nat), i < 8 ∧ fabState s i ∈ [4, 5, 6] ∧ (∀ m, rsDecode sym = some
    m → leAt (lineFlit m) 0x278 8 ≠ crc64 (slice (lineFlit m) 0 0x278)) ∧ ((port s i).nakOut = false ∨ lane = fsnLane
    s i (port s i).rxFsn) ∧ (port s i).failCount < 3) ∧
    (∃ (s : State), ∃ (i lane : Nat), ∃ (sym : List Nat), i < 8 ∧ fabState s i ∈ [4, 5, 6] ∧ (∀ m, rsDecode sym = some
    m → leAt (lineFlit m) 0x278 8 ≠ crc64 (slice (lineFlit m) 0 0x278)) ∧ ((port s i).nakOut = false ∨ lane = fsnLane
    s i (port s i).rxFsn) ∧ 3 ≤ (port s i).failCount) ∧
    (∃ (s : State), ∃ (i lane : Nat), ∃ (sym : List Nat), i < 8 ∧ fabState s i ∈ [4, 5, 6] ∧ (∀ m, rsDecode sym = some
    m → leAt (lineFlit m) 0x278 8 ≠ crc64 (slice (lineFlit m) 0 0x278)) ∧ (port s i).nakOut = true ∧ lane ≠ fsnLane s
    i (port s i).rxFsn) ∧
    (∃ (s : State), ∃ (i : Nat), i < 8 ∧ fabState s i ∈ [4, 5, 6]) ∧
    (∃ (s : State), ∃ (i : Nat), i < 8 ∧ fabState s i ∉ [4, 5, 6]) ∧
    (∃ (s : State), ∃ (i token lanes : Nat), i < 8 ∧ fabState s i ∈ [4, 5, 6] ∧ (port s i).lastToken ≠ token ∧
    let set := if fabState s i = 6 ∧ (port s i).pauseOwn = true ∧ (port s i).pauseAcked = false then lanes &&& (port s
      i).pauseLanes else lanes; chooseSet set ≠ 0) ∧
    (∃ (s : State), ∃ (i token lanes : Nat), i < 8 ∧ fabState s i ∈ [4, 5, 6] ∧ (port s i).lastToken ≠ token ∧
    let set := if fabState s i = 6 ∧ (port s i).pauseOwn = true ∧ (port s i).pauseAcked = false then lanes &&& (port s
      i).pauseLanes else lanes; chooseSet set = 0) ∧
    (∃ (s : State), ∃ (i token : Nat), i < 8 ∧ (fabState s i ∉ [4, 5, 6] ∨ (port s i).lastToken = token)) ∧
    (∃ (s : State), ∃ (i token lanes : Nat), i < 8 ∧ fabState s i = 6 ∧ (port s i).pauseOwn = true ∧ (port s
    i).pauseAcked = false ∧ (port s i).token = token ∧ chooseSet lanes ≠ 0) ∧
    (∃ (s : State), ∃ (i token lanes : Nat), i < 8 ∧ fabState s i = 6 ∧ (port s i).pauseOwn = true ∧ (port s
    i).pauseAcked = false ∧ (port s i).token = token ∧ chooseSet lanes = 0) ∧
    (∃ (s : State), ∃ (i token : Nat), i < 8 ∧ (fabState s i ≠ 6 ∨ (port s i).pauseOwn = false ∨ (port s i).pauseAcked
    = true ∨ (port s i).token ≠ token)) ∧
    (∃ (s : State), ∃ (i : Nat), i < 8 ∧ fabState s i = 6 ∧ ((port s i).pauseOwn = false ∨ (port s i).pauseAcked =
    true) ∧ (port s i).replay = []) ∧
    (∃ (s : State), ∃ (i : Nat), i < 8 ∧ (fabState s i ≠ 6 ∨ (port s i).replay ≠ [] ∨ (port s i).pauseOwn = true ∧
    (port s i).pauseAcked = false)) ∧
    (∃ (s : State), ∃ (r : PortToken), r.port < 8 ∧ fabState s r.port ∈ [4, 5, 6] ∧ newToken s r.port 3 r.token = true) ∧
    (∃ (s : State), ∃ (r : PortToken), r.port < 8 ∧ fabState s r.port ∈ [4, 5, 6] ∧ newToken s r.port 4 r.token = true) ∧
    (∃ (s : State), ∃ (r : PortToken), r.port < 8 ∧ (fabState s r.port ∉ [4, 5, 6] ∨ newToken s r.port 3 r.token =
    false)) ∧
    (∃ (s : State), ∃ (r : PortToken), r.port < 8 ∧ (fabState s r.port ∉ [4, 5, 6] ∨ newToken s r.port 4 r.token =
    false)) ∧
    (∃ (s : State), ∃ (i token : Nat), i < 8 ∧ portUp s i = true ∧ newToken s i 5 token = true) ∧
    (∃ (s : State), ∃ (i token : Nat), i < 8 ∧ portUp s i = true ∧ (port s i).standbySent = true ∧ (port s
    i).standbyTok = token) ∧
    (∃ (s : State), ∃ (i token : Nat), i < 8 ∧ (portUp s i = false ∨ newToken s i 5 token = false)) ∧
    (∃ (s : State), ∃ (i token : Nat), i < 8 ∧ (portUp s i = false ∨ (port s i).standbySent = false ∨ (port s
    i).standbyTok ≠ token)) ∧
    (∃ (s : State), ∃ (i : Nat), ∃ (r : Option Nat), i < 8 ∧ fabState s i = 8 ∧ (∀ k, r = some k → newToken s i 7 k =
    true) ∧ chooseSet (lanesUsable s i) = laneSet s i) ∧
    (∃ (s : State), ∃ (i : Nat), ∃ (r : Option Nat), i < 8 ∧ fabState s i = 8 ∧ (∀ k, r = some k → newToken s i 7 k =
    true) ∧ chooseSet (lanesUsable s i) ≠ laneSet s i) ∧
    (∃ (s : State), ∃ (i : Nat), i < 8 ∧ fabState s i ≠ 8) ∧
    (∃ (s : State), ∃ (i : Nat), ∃ k, i < 8 ∧ newToken s i 7 k = false) ∧
    (∃ (s : State), ∃ (i : Nat), i < 8 ∧ fabState s i = 8) := by
  refine ⟨?_, ?_, ?_, ?_, ?_, ?_, ?_, ?_, ?_, ?_, ?_, ?_, ?_, ?_, ?_, ?_, ?_, ?_, ?_, ?_, ?_, ?_, ?_, ?_, ?_, ?_, ?_, ?_, ?_, ?_, ?_, ?_, ?_, ?_, ?_, ?_⟩
  · refine ⟨rset State.reset .fab 7 0x100 4, 7, ?_, ?_, ?_, ?_⟩ <;>
      decide +kernel
  · refine ⟨sLinkTraffic7, 7, ?_, ?_, ?_, ?_, ?_, ?_, ?_⟩ <;>
      decide +kernel
  · refine ⟨rset State.reset .fab 7 0x100 6, 7, ?_, ?_⟩ <;>
      decide +kernel
  · refine ⟨rset State.reset .fab 7 0x100 2, 7, ?_, ?_⟩ <;>
      decide +kernel
  · refine ⟨rset State.reset .fab 7 0x100 8, 7, ?_, ?_⟩ <;>
      decide +kernel
  · refine ⟨rset State.reset .fab 7 0x100 0, 7, ?_, ?_⟩ <;>
      decide +kernel
  · refine ⟨rset State.reset .fab 7 0x100 4, 7, flitSyms 0 true, flitMsg 0 true, ?_, ?_,
    (by unfold flitSyms flitMsg; exact rsDecode_lineCodeword 0 0 _),
    (by rw [lineFlit_flitMsg]; exact flitBytes_crc ..), ?_, ?_⟩ <;>
      first | (rw [lineFlit_flitMsg]; decide +kernel) | decide +kernel
  · refine ⟨rset State.reset .fab 7 0x100 4, 7, flitSyms 1 true, flitMsg 1 true, false, ?_, ?_,
    (by unfold flitSyms flitMsg; exact rsDecode_lineCodeword 0 0 _),
    (by rw [lineFlit_flitMsg]; exact flitBytes_crc ..), ?_, ⟨?_, ?_, ?_⟩, ?_⟩ <;>
      first | (rw [lineFlit_flitMsg]; decide +kernel) | decide +kernel
  · refine ⟨rset State.reset .fab 7 0x100 4, 7, flitSyms 1 true, flitMsg 1 true, true, ?_, ?_,
    (by unfold flitSyms flitMsg; exact rsDecode_lineCodeword 0 0 _),
    (by rw [lineFlit_flitMsg]; exact flitBytes_crc ..), ⟨?_, ?_, ?_⟩, ?_, ?_⟩ <;>
      first | (rw [lineFlit_flitMsg]; decide +kernel) | decide +kernel
  · refine ⟨sLinkTraffic10, 7, flitSyms 0 true, flitMsg 0 true, false, ?_, ?_,
    (by unfold flitSyms flitMsg; exact rsDecode_lineCodeword 0 0 _),
    (by rw [lineFlit_flitMsg]; exact flitBytes_crc ..), ?_⟩ <;>
      first | (rw [lineFlit_flitMsg]; decide +kernel) | decide +kernel
  · refine ⟨rset State.reset .fab 7 0x100 4, 7, 0, [], ?_, ?_, (opt_all (by decide +kernel)), ?_, ?_⟩ <;>
      decide +kernel
  · refine ⟨sLinkTraffic9, 7, 0, [], ?_, ?_, (opt_all (by decide +kernel)), ?_, ?_⟩ <;>
      decide +kernel
  · refine ⟨sLinkTraffic10, 7, 1, [], ?_, ?_, (opt_all (by decide +kernel)), ?_, ?_⟩ <;>
      decide +kernel
  · refine ⟨rset State.reset .fab 7 0x100 4, 7, ?_, ?_⟩ <;>
      decide +kernel
  · refine ⟨rset State.reset .fab 7 0x100 0, 7, ?_, ?_⟩ <;>
      decide +kernel
  · refine ⟨rset State.reset .fab 7 0x100 4, 7, 0, 255, ?_, ?_, ?_, ?_⟩ <;>
      decide +kernel
  · refine ⟨rset State.reset .fab 7 0x100 4, 7, 0, 0, ?_, ?_, ?_, ?_⟩ <;>
      decide +kernel
  · refine ⟨rset State.reset .fab 7 0x100 0, 7, 7, ?_, ?_⟩ <;>
      decide +kernel
  · refine ⟨sLinkTraffic11, 7, 255, 255, ?_, ?_, ?_, ?_, ?_, ?_⟩ <;>
      decide +kernel
  · refine ⟨sLinkTraffic11, 7, 255, 7, ?_, ?_, ?_, ?_, ?_, ?_⟩ <;>
      decide +kernel
  · refine ⟨rset State.reset .fab 7 0x100 0, 7, 7, ?_, ?_⟩ <;>
      decide +kernel
  · refine ⟨rset State.reset .fab 7 0x100 6, 7, ?_, ?_, ?_, ?_⟩ <;>
      decide +kernel
  · refine ⟨rset State.reset .fab 7 0x100 0, 7, ?_, ?_⟩ <;>
      decide +kernel
  · refine ⟨rset State.reset .fab 7 0x100 4, (⟨7, 255⟩ : PortToken), ?_, ?_, ?_⟩ <;>
      decide +kernel
  · refine ⟨rset State.reset .fab 7 0x100 4, (⟨7, 255⟩ : PortToken), ?_, ?_, ?_⟩ <;>
      decide +kernel
  · refine ⟨rset State.reset .fab 7 0x100 0, (⟨7, 255⟩ : PortToken), ?_, ?_⟩ <;>
      decide +kernel
  · refine ⟨rset State.reset .fab 7 0x100 0, (⟨7, 255⟩ : PortToken), ?_, ?_⟩ <;>
      decide +kernel
  · refine ⟨rset State.reset .fab 7 0x100 4, 7, 7, ?_, ?_, ?_⟩ <;>
      decide +kernel
  · refine ⟨sLinkTraffic13, 7, 255, ?_, ?_, ?_, ?_⟩ <;>
      decide +kernel
  · refine ⟨rset State.reset .fab 7 0x100 0, 7, 7, ?_, ?_⟩ <;>
      decide +kernel
  · refine ⟨rset State.reset .fab 7 0x100 0, 7, 7, ?_, ?_⟩ <;>
      decide +kernel
  · refine ⟨sLinkTraffic18, 7, none, ?_, ?_, (opt_all (by decide +kernel)), ?_⟩ <;>
      decide +kernel
  · refine ⟨rset State.reset .fab 7 0x100 8, 7, none, ?_, ?_, (opt_all (by decide +kernel)), ?_⟩ <;>
      decide +kernel
  · refine ⟨rset State.reset .fab 7 0x100 0, 7, ?_, ?_⟩ <;>
      decide +kernel
  · refine ⟨sLinkTraffic15, 7, 255, ?_, ?_⟩ <;>
      decide +kernel
  · refine ⟨rset State.reset .fab 7 0x100 8, 7, ?_, ?_⟩ <;>
      decide +kernel

/-- A state of the witnesses of `LinkLanes`. -/
def sLinkLanes1 : State :=
  modPort State.reset 7 (fun q => { q with berOver := [16] })

/-- A state of the witnesses of `LinkLanes`. -/
def sLinkLanes3 : State :=
  rset (rset State.reset .fab 7 0x114 0x10000) .fab 7 0x300 0x10

theorem wit_LinkLanes :
    (∃ (s : State), ∃ (i lane : Nat), ∃ m e, i < 8 ∧ lane < 17 ∧ berAbove m e (max 1 (fld (rget s .fab i 0x138) 15 8))
    5 = true ∧ bit (lanesRetired s i) lane = false ∧ fabState s i ≠ 10 ∧ (port s i).berOver.contains lane = true) ∧
    (∃ (s : State), ∃ (i lane : Nat), ∃ m e, i < 8 ∧ lane < 17 ∧ berAbove m e (max 1 (fld (rget s .fab i 0x138) 15 8))
    5 = true ∧ (port s i).berOver.contains lane = false) ∧
    (∃ (s : State), ∃ (i lane : Nat), ∃ m e, i < 8 ∧ lane < 17 ∧ berAbove m e (max 1 (fld (rget s .fab i 0x138) 15 8))
    5 = false) ∧
    (∃ (s : State), ∃ (i lane : Nat), ∃ count, i < 8 ∧ lane < 17 ∧ max 1 (fld (rget s .fab i 0x138) 7 0) < count ∧ bit
    (lanesRetired s i) lane = false ∧ fabState s i ≠ 10) ∧
    (∃ (s : State), ∃ (i lane : Nat), ∃ count, i < 8 ∧ lane < 17 ∧ (count ≤ max 1 (fld (rget s .fab i 0x138) 7 0) ∨ bit
    (lanesRetired s i) lane = true)) ∧
    (∃ (s : State), ∃ (i lane : Nat), i < 8 ∧ lane < 17 ∧ ((wbit (rget s .fab i (0x200 + 0x10 * lane)) 4 = false ∧ bit
    (lanesTemp s i) lane = false) ∨ 3 ≤ ((port s i).lockLoss.filter (fun e => e.1 = lane && within s 1000000
    e.2)).length) ∧ bit (lanesRetired s i) lane = false ∧ fabState s i ≠ 10) ∧
    (∃ (s : State), ∃ (i lane : Nat), i < 8 ∧ lane < 17 ∧ (wbit (rget s .fab i (0x200 + 0x10 * lane)) 4 = true ∨ bit
    (lanesTemp s i) lane = true) ∧ ((port s i).lockLoss.filter (fun e => e.1 = lane && within s 1000000 e.2)).length <
    3) ∧
    (∃ (s : State), ∃ (i lane : Nat), i < 8 ∧ lane < 17 ∧ bit (lanesRetired s i) lane = false) ∧
    (∃ (s : State), ∃ (i lane : Nat), i < 8 ∧ lane < 17 ∧ bit (lanesRetired s i) lane = true) ∧
    (∃ (s : State), ∃ (i lane : Nat), i < 8 ∧ lane < 17 ∧ bit (lanesTemp s i) lane = true ∧ wbit (rget s .fab i (0x200
    + 0x10 * lane)) 4 = true) ∧
    (∃ (s : State), ∃ (i lane : Nat), i < 8 ∧ lane < 17 ∧ (bit (lanesTemp s i) lane = false ∨ wbit (rget s .fab i
    (0x200 + 0x10 * lane)) 4 = false)) ∧
    (∃ (s : State), ∃ (i lane : Nat), i < 8 ∧ lane < 17 ∧ bit (lanesTemp s i) lane = true ∧ wbit (rget s .fab i (0x200
    + 0x10 * lane)) 4 = false ∧ bit (lanesRetired s i) lane = false ∧ fabState s i ≠ 10) ∧
    (∃ (s : State), ∃ (i lane : Nat), i < 8 ∧ lane < 17 ∧ (bit (lanesTemp s i) lane = false ∨ wbit (rget s .fab i
    (0x200 + 0x10 * lane)) 4 = true)) ∧
    (∃ (s : State), ∃ (i lanes : Nat), i < 8 ∧ 9 ≤ popBelow lanes 17 ∧ 3 ≤ fabState s i ∧ fabState s i < 10) ∧
    (∃ (s : State), ∃ (i lanes : Nat), i < 8 ∧ 9 ≤ popBelow lanes 17 ∧ (fabState s i < 3 ∨ 10 ≤ fabState s i)) ∧
    (∃ (s : State), ∃ (i lanes : Nat), i < 8 ∧ 2 ≤ popBelow lanes 17 ∧ popBelow lanes 17 < 9 ∧ 3 ≤ fabState s i ∧
    fabState s i ≠ 10) ∧
    (∃ (s : State), ∃ (i lanes : Nat), i < 8 ∧ 2 ≤ popBelow lanes 17 ∧ popBelow lanes 17 < 9 ∧ (fabState s i < 3 ∨
    fabState s i = 10)) ∧
    (∃ (i lanes : Nat), i < 8 ∧ popBelow lanes 17 < 2) := by
  refine ⟨?_, ?_, ?_, ?_, ?_, ?_, ?_, ?_, ?_, ?_, ?_, ?_, ?_, ?_, ?_, ?_, ?_, ?_⟩
  · refine ⟨sLinkLanes1, 7, 16, 7, 0, ?_, ?_, ?_, ?_, ?_, ?_⟩ <;>
      decide +kernel
  · refine ⟨State.reset, 7, 7, 7, 0, ?_, ?_, ?_, ?_⟩ <;>
      decide +kernel
  · refine ⟨State.reset, 7, 7, 7, 7, ?_, ?_, ?_⟩ <;>
      decide +kernel
  · refine ⟨State.reset, 7, 7, 16, ?_, ?_, ?_, ?_, ?_⟩ <;>
      decide +kernel
  · refine ⟨State.reset, 7, 7, 7, ?_, ?_, ?_⟩ <;>
      decide +kernel
  · refine ⟨State.reset, 7, 7, ?_, ?_, ?_, ?_, ?_⟩ <;>
      decide +kernel
  · refine ⟨sLinkLanes3, 7, 16, ?_, ?_, ?_, ?_⟩ <;>
      decide +kernel
  · refine ⟨State.reset, 7, 7, ?_, ?_, ?_⟩ <;>
      decide +kernel
  · refine ⟨rset State.reset .fab 7 0x110 0x10000, 7, 16, ?_, ?_, ?_⟩ <;>
      decide +kernel
  · refine ⟨sLinkLanes3, 7, 16, ?_, ?_, ?_, ?_⟩ <;>
      decide +kernel
  · refine ⟨State.reset, 7, 7, ?_, ?_, ?_⟩ <;>
      decide +kernel
  · refine ⟨rset State.reset .fab 7 0x114 0x10000, 7, 16, ?_, ?_, ?_, ?_, ?_, ?_⟩ <;>
      decide +kernel
  · refine ⟨State.reset, 7, 7, ?_, ?_, ?_⟩ <;>
      decide +kernel
  · refine ⟨rset State.reset .fab 7 0x100 3, 7, 131071, ?_, ?_, ?_, ?_⟩ <;>
      decide +kernel
  · refine ⟨State.reset, 7, 131071, ?_, ?_, ?_⟩ <;>
      decide +kernel
  · refine ⟨rset State.reset .fab 7 0x100 3, 7, 7, ?_, ?_, ?_, ?_, ?_⟩ <;>
      decide +kernel
  · refine ⟨State.reset, 7, 7, ?_, ?_, ?_, ?_⟩ <;>
      decide +kernel
  · refine ⟨0, 0, ?_, ?_⟩ <;>
      decide +kernel

/-- A state of the witnesses of `Optics`. -/
def sOptics0 : State :=
  rset (rset State.reset .fab 7 0x104 4) .fab 7 0x100 4

/-- A state of the witnesses of `Optics`. -/
def sOptics2 : State :=
  { rset (rset State.reset .fab 7 0x104 4) .fab 7 0x100 4 with engines := [(7, { warming := some (3, true) })] }

/-- A state of the witnesses of `Optics`. -/
def sOptics5 : State :=
  { rset (rset State.reset .fab 7 0x104 4) .fab 7 0x100 4 with engines := [(7, { probeFailed := true })] }

/-- A state of the witnesses of `Optics`. -/
def sOptics7 : State :=
  rset (rset (rset State.reset .fab 7 0x104 4) .fab 7 0x100 4) .opt 7 0x124 1

/-- A state of the witnesses of `Optics`. -/
def sOptics8 : State :=
  { rset (rset (rset State.reset .fab 7 0x104 4) .fab 7 0x100 4) .opt 7 0x124 1 with engines := [(7, { sweep := [33] })] }

/-- A state of the witnesses of `Optics`. -/
def sOptics9 : State :=
  { rset State.reset .fab 7 0x104 4 with engines := [(7, { overtemp := true })] }

/-- A state of the witnesses of `Optics`. -/
def sOptics11 : State :=
  { rset (rset State.reset .fab 7 0x104 4) .fab 7 0x100 4 with engines := [(7, { warming := some (3, true), lasers := [(4, (3, false))] })] }

theorem wit_Optics :
    (∃ (s : State), ∃ (i l : Nat), ∃ k, i < 8 ∧ laserGroup s i l = some k ∧ modeO s i = true ∧ laserState s i l ≠ 3) ∧
    (∃ (s : State), ∃ (i l : Nat), i < 8 ∧ laserGroup s i l = none) ∧
    (∃ (s : State), ∃ (i l : Nat), i < 8 ∧ laserGroup s i l = none ∧ modeO s i = true) ∧
    (∃ (s : State), ∃ (i l : Nat), i < 8 ∧ (modeO s i = false ∨ laserState s i l = 3)) ∧
    (∃ (s : State), ∃ (i : Nat), ∃ k planned, i < 8 ∧ k < 4 ∧ (engine s i).warming = some (k, planned) ∧ laserState s i
    4 ≠ 3 ∧ groupLaser s i k ≠ 4) ∧
    (∃ (s : State), ∃ (i : Nat), ∃ k planned, i < 8 ∧ k < 4 ∧ (engine s i).warming = some (k, planned) ∧ laserState s i
    4 = 3) ∧
    (∃ (s : State), ∃ (i : Nat), i < 8 ∧ (engine s i).warming = none) ∧
    (∃ (s : State), ∃ (i x : Nat), i < 8 ∧ (modeO s i = false ∨ x ≤ 85 ∧ 80 ≤ x)) ∧
    (∃ (s : State), ∃ (i : Nat), i < 8 ∧ modeO s i = false) ∧
    (∃ (s : State), ∃ (i x : Nat), i < 8 ∧ modeO s i = true ∧ 85 < x ∧ x ≤ 95) ∧
    (∃ (s : State), ∃ (i x : Nat), i < 8 ∧ modeO s i = true ∧ 95 < x ∧ ((engine s i).overtemp = false ∨ fabState s i ≠
    0)) ∧
    (∃ (s : State), ∃ (i x : Nat), i < 8 ∧ modeO s i = true ∧ 95 < x ∧ (engine s i).overtemp = true ∧ fabState s i = 0) ∧
    (∃ (s : State), ∃ (i x : Nat), i < 8 ∧ modeO s i = true ∧ x < 80) ∧
    (∃ (s : State), ∃ (i : Nat), i < 8 ∧ modeO s i = true) ∧
    (∃ (s : State), ∃ (req : Req), ∃ (i fibre : Nat), i < 8 ∧ Serves s req .opt i ∧ (fibre < 34 ∨ fibre = 0x3F) ∧
    sweeping s i = false ∧ modeO s i = true ∧ fabState s i ≠ 0 ∧ (engine s i).probeFailed = false) ∧
    (∃ (s : State), ∃ (req : Req), ∃ (i fibre : Nat), i < 8 ∧ Serves s req .opt i ∧ (fibre < 34 ∨ fibre = 0x3F) ∧
    sweeping s i = false ∧ modeO s i = false) ∧
    (∃ (s : State), ∃ (req : Req), ∃ (i fibre : Nat), i < 8 ∧ Serves s req .opt i ∧ (fibre < 34 ∨ fibre = 0x3F) ∧
    sweeping s i = false ∧ modeO s i = true ∧ fabState s i ≠ 0 ∧ (engine s i).probeFailed = true) ∧
    (∃ (s : State), ∃ (req : Req), ∃ (i fibre : Nat), i < 8 ∧ Serves s req .opt i ∧ (fibre < 34 ∨ fibre = 0x3F) ∧
    sweeping s i = false ∧ modeO s i = true ∧ fabState s i = 0) ∧
    (∃ (s : State), ∃ (req : Req), ∃ (i fibre : Nat), i < 8 ∧ Serves s req .opt i ∧ ((34 ≤ fibre ∧ fibre ≠ 0x3F) ∨
    sweeping s i = true)) ∧
    (∃ (s : State), ∃ (req : Req), ∃ (i : Nat), i < 8 ∧ Serves s req .opt i ∧ sweeping s i = true) ∧
    (∃ (s : State), ∃ (req : Req), ∃ (i : Nat), i < 8 ∧ Serves s req .opt i ∧ sweeping s i = false) ∧
    (∃ (i : Nat), i < 8) ∧
    (∃ (s : State), ∃ (i : Nat), i < 8 ∧ fld (rget s .opt i 0x11C) 7 0 ≠ 0 ∧ sweeping s i = false ∧ modeO s i = true ∧
    fabState s i ≠ 0 ∧ (engine s i).probeFailed = false) ∧
    (∃ (s : State), ∃ (i : Nat), i < 8 ∧ fld (rget s .opt i 0x11C) 7 0 ≠ 0 ∧ sweeping s i = false ∧ modeO s i = true ∧
    fabState s i ≠ 0 ∧ (engine s i).probeFailed = true) ∧
    (∃ (s : State), ∃ (i : Nat), i < 8 ∧ (fld (rget s .opt i 0x11C) 7 0 = 0 ∨ modeO s i = false ∨ sweeping s i = true ∨
    fabState s i = 0)) ∧
    (∃ (s : State), ∃ (i : Nat), ∃ f rest, i < 8 ∧ (engine s i).sweep = f :: rest ∧ sweeping s i = true ∧ fabState s i
    ≠ 0 ∧ fabState s i ≠ 6 ∧ (engine s i).warming = none) ∧
    (∃ (s : State), ∃ (i : Nat), i < 8 ∧ ((engine s i).sweep = [] ∨ sweeping s i = false ∨ fabState s i = 0 ∨ fabState
    s i = 6 ∨ (engine s i).warming ≠ none)) ∧
    (∃ (i : Nat), i < 8) := by
  refine ⟨?_, ?_, ?_, ?_, ?_, ?_, ?_, ?_, ?_, ?_, ?_, ?_, ?_, ?_, ?_, ?_, ?_, ?_, ?_, ?_, ?_, ?_, ?_, ?_, ?_, ?_, ?_, ?_⟩
  · refine ⟨sOptics0, 7, 3, 3, ?_, ?_, ?_, ?_⟩ <;>
      decide +kernel
  · refine ⟨sOptics0, 7, 7, ?_, ?_⟩ <;>
      decide +kernel
  · refine ⟨sOptics0, 7, 7, ?_, ?_, ?_⟩ <;>
      decide +kernel
  · refine ⟨sOptics0, 3, 7, ?_, ?_⟩ <;>
      decide +kernel
  · refine ⟨sOptics2, 7, 3, true, ?_, ?_, ?_, ?_, ?_⟩ <;>
      decide +kernel
  · refine ⟨sOptics11, 7, 3, true, ?_, ?_, ?_, ?_⟩ <;>
      decide +kernel
  · refine ⟨sOptics0, 7, ?_, ?_⟩ <;>
      decide +kernel
  · refine ⟨sOptics0, 7, 85, ?_, ?_⟩ <;>
      decide +kernel
  · refine ⟨sOptics0, 3, ?_, ?_⟩ <;>
      decide +kernel
  · refine ⟨sOptics0, 7, 90, ?_, ?_, ?_, ?_⟩ <;>
      decide +kernel
  · refine ⟨sOptics0, 7, 96, ?_, ?_, ?_, ?_⟩ <;>
      decide +kernel
  · refine ⟨sOptics9, 7, 96, ?_, ?_, ?_, ?_, ?_⟩ <;>
      decide +kernel
  · refine ⟨sOptics0, 7, 7, ?_, ?_, ?_⟩ <;>
      decide +kernel
  · refine ⟨sOptics0, 7, ?_, ?_⟩ <;>
      decide +kernel
  · refine ⟨sOptics0, Req.car, 7, 7, ?_, ⟨?_, ?_, ?_, ?_⟩, ?_, ?_, ?_, ?_, ?_⟩ <;>
      decide +kernel
  · refine ⟨sOptics0, Req.car, 3, 7, ?_, ⟨?_, ?_, ?_, ?_⟩, ?_, ?_, ?_⟩ <;>
      decide +kernel
  · refine ⟨sOptics5, Req.car, 7, 7, ?_, ⟨?_, ?_, ?_, ?_⟩, ?_, ?_, ?_, ?_, ?_⟩ <;>
      decide +kernel
  · refine ⟨rset State.reset .fab 7 0x104 4, Req.car, 7, 7, ?_, ⟨?_, ?_, ?_, ?_⟩, ?_, ?_, ?_, ?_⟩ <;>
      decide +kernel
  · refine ⟨sOptics0, Req.car, 7, 85, ?_, ⟨?_, ?_, ?_, ?_⟩, ?_⟩ <;>
      decide +kernel
  · refine ⟨sOptics7, Req.car, 7, ?_, ⟨?_, ?_, ?_, ?_⟩, ?_⟩ <;>
      decide +kernel
  · refine ⟨sOptics0, Req.car, 7, ?_, ⟨?_, ?_, ?_, ?_⟩, ?_⟩ <;>
      decide +kernel
  · refine ⟨0, ?_⟩ <;>
      decide +kernel
  · refine ⟨sOptics0, 7, ?_, ?_, ?_, ?_, ?_, ?_⟩ <;>
      decide +kernel
  · refine ⟨sOptics5, 7, ?_, ?_, ?_, ?_, ?_, ?_⟩ <;>
      decide +kernel
  · refine ⟨sOptics0, 3, ?_, ?_⟩ <;>
      decide +kernel
  · refine ⟨sOptics8, 7, 33, [], ?_, ?_, ?_, ?_, ?_, ?_⟩ <;>
      decide +kernel
  · refine ⟨sOptics0, 7, ?_, ?_⟩ <;>
      decide +kernel
  · refine ⟨0, ?_⟩ <;>
      decide +kernel

/-- A state of the witnesses of `PealAndSets`. -/
def sPealAndSets0 : State :=
  { pealCores := [(1151, { pkg := true, id := 5, total := 2 })] }

/-- A state of the witnesses of `PealAndSets`. -/
def sPealAndSets3 : State :=
  { pealCores := [(1151, { ended := true, total := 1, have_ := [0], data := [(0, [1])], crc := crc64 [1] })] }

/-- A state of the witnesses of `PealAndSets`. -/
def sPealAndSets4 : State :=
  { pealCores := [(1151, { ended := true, total := 1, have_ := [0], data := [(0, [1])], passes := 2 })] }

/-- A state of the witnesses of `PealAndSets`. -/
def sPealAndSets5 : State :=
  { pealCores := [(1151, { ended := true, total := 1, have_ := [0], data := [(0, [1])], passes := 1 })] }

/-- A state of the witnesses of `PealAndSets`. -/
def sPealAndSets6 : State :=
  { pealCores := [(1151, { ended := true, again := true })] }

/-- A state of the witnesses of `PealAndSets`. -/
def sPealAndSets8 : State :=
  { setOps := [(7, { op := 1 })] }

def vPealAndSets0 : List Byte :=
  (leBytes 5 4 ++ leBytes 1 2 ++ leBytes 0 6 ++ leBytes (crc32c (List.replicate 4096 0)) 4 ++ List.replicate 16 0 ++
  List.replicate 4096 0)

def vPealAndSets1 : State :=
  (setCheck ((fun (op : Nat) => rset { State.reset with setOps := mput State.reset.setOps 0 { op := op } } .col 0
  0x314 (packFields [(0, 1)])) 1) 0 (setSrc ((fun (op : Nat) => rset
  { State.reset with setOps := mput State.reset.setOps 0 { op := op } } .col 0 0x314 (packFields [(0, 1)])) 1) 0 % 2 ^
  48) Ecc.none).1

def vPealAndSets2 : State :=
  (setFetch ((fun (op : Nat) => rset { State.reset with setOps := mput State.reset.setOps 0 { op := op } } .col 0
  0x314 (packFields [(0, 1)])) 2) 0 none).1

def vPealAndSets3 : State :=
  (setSend ((fun (op : Nat) => rset { State.reset with setOps := mput State.reset.setOps 0 { op := op } } .col 0 0x314
  (packFields [(0, 1)])) 3) 0 1151 Ecc.none).1

set_option maxRecDepth 1000000 in
theorem wit_PealAndSets :
    (∃ (s : State), ∃ (n : Nat), ∃ (b : List Byte), ∃ c, pealCore s n = some c ∧ ((c.ended = false ∧ c.done = false ∧
    c.failed = false ∧ leAt b 0 4 = c.id ∧ leAt b 4 2 < c.total ∧ (leAt b 8 1 = 0 ∧ c.pkg = true ∨ leAt b 8 1 = 1 ∧
    c.pkg = false ∧ leAt b 9 1 = partOfCore s n) ∧ leAt b 0xC 4 = crc32c (slice b 0x20 4096) ∧ c.have_.contains (leAt
    b 4 2) = false))) ∧
    (∃ (s : State), ∃ (n : Nat), ∃ (b : List Byte), ∃ c, pealCore s n = some c ∧ (¬ (c.ended = false ∧ c.done = false ∧
    c.failed = false ∧ leAt b 0 4 = c.id ∧ leAt b 4 2 < c.total ∧ (leAt b 8 1 = 0 ∧ c.pkg = true ∨ leAt b 8 1 = 1 ∧
    c.pkg = false ∧ leAt b 9 1 = partOfCore s n) ∧ leAt b 0xC 4 = crc32c (slice b 0x20 4096) ∧ c.have_.contains (leAt
    b 4 2) = false))) ∧
    (∃ (s : State), ∃ (n : Nat), ∃ c, pealCore s n = some c) ∧
    (∃ (s : State), ∃ (n : Nat), pealCore s n = none) ∧
    (∃ (s : State), ∃ (n damage : Nat), ∃ (fails : List Nat), ∃ c, pealCore s n = some c ∧ c.ended = true ∧ c.done =
    false ∧ c.failed = false ∧ storeBad s (coreTile n) ||| damage % 4 ≠ 3 ∧ PealGood s c fails) ∧
    (∃ (s : State), ∃ (n damage : Nat), ∃ (fails : List Nat), ∃ c, pealCore s n = some c ∧ c.ended = true ∧ c.done =
    false ∧ c.failed = false ∧ storeBad s (coreTile n) ||| damage % 4 ≠ 3 ∧ (¬ PealGood s c fails) ∧ 2 ≤ c.passes) ∧
    (∃ (s : State), ∃ (n damage : Nat), ∃ (fails : List Nat), ∃ c, pealCore s n = some c ∧ c.ended = true ∧ c.done =
    false ∧ c.failed = false ∧ storeBad s (coreTile n) ||| damage % 4 ≠ 3 ∧ (¬ PealGood s c fails) ∧ c.passes < 2) ∧
    (∃ (s : State), ∃ (n damage : Nat), ∃ c, pealCore s n = some c ∧ c.ended = true ∧ c.done = false ∧ c.failed = false
    ∧ storeBad s (coreTile n) ||| damage % 4 = 3 ∧ c.again = false) ∧
    (∃ (s : State), ∃ (n damage : Nat), ∃ c, pealCore s n = some c ∧ c.ended = true ∧ c.done = false ∧ c.failed = false
    ∧ storeBad s (coreTile n) ||| damage % 4 = 3 ∧ c.again = true) ∧
    (∃ (s : State), ∃ (n : Nat), (∀ c, pealCore s n = some c → c.ended = false ∨ c.done = true ∨ c.failed = true)) ∧
    (∃ (s s2 : State), ∃ (req : Req), ∃ (pipe r x : Nat), ∃ (ecc : Ecc), Serves s req .col pipe ∧ isBarrierPipe s pipe
    = true ∧ mget s.setOps pipe = none ∧
    let s1 (op : Nat) : State := rset { s with setOps := mput s.setOps pipe { op := op } } .col pipe 0x314 (packFields
      [(0, 1)]); setCheck (s1 1) pipe (setSrc (s1 1) pipe % 2 ^ 48) ecc = (s2, r, x)) ∧
    (∃ (s s2 : State), ∃ (req : Req), ∃ (pipe r x : Nat), ∃ (data : Option (List Byte)), Serves s req .col pipe ∧
    isBarrierPipe s pipe = true ∧ mget s.setOps pipe = none ∧
    let s1 (op : Nat) : State := rset { s with setOps := mput s.setOps pipe { op := op } } .col pipe 0x314 (packFields
      [(0, 1)]); setFetch (s1 2) pipe data = (s2, r, x)) ∧
    (∃ (s s2 : State), ∃ (req : Req), ∃ (pipe r x : Nat), ∃ (ecc : Ecc), ∃ (g : Nat), Serves s req .col pipe ∧
    isBarrierPipe s pipe = true ∧ mget s.setOps pipe = none ∧
    let s1 (op : Nat) : State := rset { s with setOps := mput s.setOps pipe { op := op } } .col pipe 0x314 (packFields
      [(0, 1)]); setSend (s1 3) pipe g ecc = (s2, r, x)) ∧
    (∃ (s : State), ∃ (req : Req), ∃ (pipe : Nat), Serves s req .col pipe ∧ (isBarrierPipe s pipe = false ∨ (mget
    s.setOps pipe).isSome = true)) ∧
    (∃ (req : Req), ∃ (pipe g : Nat), ∃ (ecc : Ecc), ∃ (data : Option (List Byte)), ∃ c, c ∈ [Instr.setCheck req pipe
    ecc, .setFetch req pipe data, .setSend req pipe g ecc]) ∧
    (∃ (s : State), ∃ (pipe : Nat), ∃ o, pipe < 8 ∧ mget s.setOps pipe = some o ∧ keysRising s.setOps = true ∧
    s.mcSends.any (fun m => m.port = setPort && m.pipe = pipe) = false) ∧
    (∃ (s : State), ∃ (pipe : Nat), (mget s.setOps pipe = none ∨ s.mcSends.any (fun m => m.port = setPort && m.pipe =
    pipe) = true)) := by
  refine ⟨?_, ?_, ?_, ?_, ?_, ?_, ?_, ?_, ?_, ?_, ?_, ?_, ?_, ?_, ?_, ?_, ?_⟩
  · refine ⟨sPealAndSets0, 1151, vPealAndSets0, (Option.get (pealCore sPealAndSets0 1151) (by decide +kernel)), ?_, ⟨?_, ?_,
    ?_, ?_, ?_, ?_, ?_, ?_⟩⟩ <;>
      decide +kernel
  · refine ⟨sPealAndSets0, 1151, [], (Option.get (pealCore sPealAndSets0 1151) (by decide +kernel)), ?_, ?_⟩ <;>
      decide +kernel
  · refine ⟨sPealAndSets0, 1151, (Option.get (pealCore sPealAndSets0 1151) (by decide +kernel)), ?_⟩ <;>
      decide +kernel
  · refine ⟨State.reset, 1151, ?_⟩ <;>
      decide +kernel
  · refine ⟨sPealAndSets3, 1151, 0, [], (Option.get (pealCore sPealAndSets3 1151) (by decide +kernel)), ?_, ?_, ?_, ?_, ?_,
    (by unfold PealGood; decide +kernel)⟩ <;>
      decide +kernel
  · refine ⟨sPealAndSets4, 1151, 0, [], (Option.get (pealCore sPealAndSets4 1151) (by decide +kernel)), ?_, ?_, ?_, ?_, ?_,
    (by unfold PealGood; decide +kernel), ?_⟩ <;>
      decide +kernel
  · refine ⟨sPealAndSets5, 1151, 0, [], (Option.get (pealCore sPealAndSets5 1151) (by decide +kernel)), ?_, ?_, ?_, ?_, ?_,
    (by unfold PealGood; decide +kernel), ?_⟩ <;>
      decide +kernel
  · refine ⟨sPealAndSets3, 1151, 1151, (Option.get (pealCore sPealAndSets3 1151) (by decide +kernel)), ?_, ?_, ?_, ?_, ?_,
    ?_⟩ <;>
      decide +kernel
  · refine ⟨sPealAndSets6, 1151, 1151, (Option.get (pealCore sPealAndSets6 1151) (by decide +kernel)), ?_, ?_, ?_, ?_, ?_,
    ?_⟩ <;>
      decide +kernel
  · exact ⟨sPealAndSets0, 1151, (opt_all (by decide +kernel))⟩
  · refine ⟨State.reset, vPealAndSets1, Req.car, 0, 1, 2047, Ecc.none, ⟨?_, ?_, ?_, ?_⟩, ?_, ?_, ?_⟩ <;>
      decide +kernel
  · refine ⟨State.reset, vPealAndSets2, Req.car, 0, 4, 2047, none, ⟨?_, ?_, ?_, ?_⟩, ?_, ?_, ?_⟩ <;>
      decide +kernel
  · refine ⟨State.reset, vPealAndSets3, Req.car, 0, 1, 2047, Ecc.none, 1151, ⟨?_, ?_, ?_, ?_⟩, ?_, ?_, ?_⟩ <;>
      decide +kernel
  · refine ⟨sPealAndSets0, Req.car, 1151, ⟨?_, ?_, ?_, ?_⟩, ?_⟩ <;>
      decide +kernel
  · exact ⟨Req.car, 0, 0, Ecc.none, none, Instr.setCheck Req.car 0 Ecc.none, List.mem_cons_self⟩
  · refine ⟨sPealAndSets8, 7, (Option.get (mget sPealAndSets8.setOps 7) (by decide +kernel)), ?_, ?_, ?_, ?_⟩ <;>
      decide +kernel
  · refine ⟨sPealAndSets0, 1151, ?_⟩ <;>
      decide +kernel

/-- A state of the witnesses of `SelfTest`. -/
def sSelfTest0 : State :=
  rset (rset State.reset .bst 0 0x110 1) .bst 0 0x164 1

/-- A state of the witnesses of `SelfTest`. -/
def sSelfTest2 : State :=
  { bist := { slices := [{ cls := 9, inst := 3, region := 0, phase := 0 }] } }

/-- A state of the witnesses of `SelfTest`. -/
def sSelfTest4 : State :=
  { bist := { slices := [{ cls := 9, inst := 3, region := 0, phase := 1 }] } }

/-- A state of the witnesses of `SelfTest`. -/
def sSelfTest5 : State :=
  { bist := { slices := [{ cls := 9, inst := 3, region := 0, phase := 2 }] } }

/-- A state of the witnesses of `SelfTest`. -/
def sSelfTest6 : State :=
  { bist := { direct := some (1, 73727) } }

/-- A state of the witnesses of `SelfTest`. -/
def sSelfTest7 : State :=
  { fuses := { m := 0 } }

/-- A state of the witnesses of `SelfTest`. -/
def sSelfTest8 : State :=
  { bist := { scanning := true } }

theorem wit_SelfTest :
    (∃ (s : State), ∃ (c i : Nat), (wbit (rget s .bst 0 0x110) 0 = true ∧ c < 10 ∧ i < bistCount c ∧ fld (rget s .bst 0
    (0x140 + 4 * c)) 15 0 ≠ 0 ∧ s.power.st < 2 ∧ s.power.moving = none ∧ s.chipReset = none ∧ s.bist.scanning = false
    ∧ s.bist.slices.any (fun b => b.cls = c && b.inst = i) = false)) ∧
    (∃ (s : State), ∃ (c i : Nat), (¬ (wbit (rget s .bst 0 0x110) 0 = true ∧ c < 10 ∧ i < bistCount c ∧ fld (rget s
    .bst 0 (0x140 + 4 * c)) 15 0 ≠ 0 ∧ s.power.st < 2 ∧ s.power.moving = none ∧ s.chipReset = none ∧ s.bist.scanning =
    false ∧ s.bist.slices.any (fun b => b.cls = c && b.inst = i) = false))) ∧
    (∃ (s : State), ∃ (c i : Nat), ∃ b, sliceOf s c i 0 = some b ∧ sliceAdmitted s b = true) ∧
    (∃ (s : State), ∃ (c i : Nat), (∀ b, sliceOf s c i 0 = some b → sliceAdmitted s b = false)) ∧
    (∃ (s : State), ∃ (c i : Nat), ∃ b, sliceOf s c i 1 = some b) ∧
    (∃ (s : State), ∃ (c i : Nat), sliceOf s c i 1 = none) ∧
    (∃ (s : State), ∃ (c i : Nat), ∃ b, sliceOf s c i 2 = some b ∧ sliceAdmitted s b = true) ∧
    (∃ (s : State), ∃ (c i : Nat), (∀ b, sliceOf s c i 2 = some b → sliceAdmitted s b = false)) ∧
    (∃ (s : State), ∃ (req : Req), ∃ (v : Word), Serves s req .bst 0 ∧ s.bist.direct = none ∧ directRefused s (fld v 3
    0) (fld v 31 12) = true) ∧
    (∃ (s : State), ∃ (req : Req), ∃ (v : Word), Serves s req .bst 0 ∧ s.bist.direct = none ∧ directRefused s (fld v 3
    0) (fld v 31 12) = false) ∧
    (∃ (s : State), ∃ (req : Req), Serves s req .bst 0 ∧ s.bist.direct.isSome = true) ∧
    (∃ (s : State), ∃ c i, s.bist.direct = some (c, i)) ∧
    (∃ (s : State), s.bist.direct = none) ∧
    (∃ (s : State), (testPermitted s = false ∨ 2 ≤ s.power.st ∨ s.bist.scanning = true)) ∧
    (∃ (s : State), testPermitted s = true ∧ s.power.st < 2 ∧ s.bist.scanning = false) ∧
    (∃ (s : State), s.bist.scanning = true ∧ s.bist.cleared = false) ∧
    (∃ (s : State), (s.bist.scanning = false ∨ s.bist.cleared = true)) := by
  refine ⟨?_, ?_, ?_, ?_, ?_, ?_, ?_, ?_, ?_, ?_, ?_, ?_, ?_, ?_, ?_, ?_, ?_⟩
  · refine ⟨sSelfTest0, 9, 3, ⟨?_, ?_, ?_, ?_, ?_, ?_, ?_, ?_, ?_⟩⟩ <;>
      decide +kernel
  · refine ⟨sSelfTest0, 9, 9, ?_⟩ <;>
      decide +kernel
  · refine ⟨sSelfTest2, 9, 3, (Option.get (sliceOf sSelfTest2 9 3 0) (by decide +kernel)), ?_, ?_⟩ <;>
      decide +kernel
  · exact ⟨sSelfTest0, 9, 9, (opt_all (by decide +kernel))⟩
  · refine ⟨sSelfTest4, 9, 3, (Option.get (sliceOf sSelfTest4 9 3 1) (by decide +kernel)), ?_⟩ <;>
      decide +kernel
  · refine ⟨sSelfTest0, 9, 9, ?_⟩ <;>
      decide +kernel
  · refine ⟨sSelfTest5, 9, 3, (Option.get (sliceOf sSelfTest5 9 3 2) (by decide +kernel)), ?_, ?_⟩ <;>
      decide +kernel
  · exact ⟨sSelfTest0, 9, 9, (opt_all (by decide +kernel))⟩
  · refine ⟨sSelfTest0, Req.car, 0x0047F001, ⟨?_, ?_, ?_, ?_⟩, ?_, ?_⟩ <;>
      decide +kernel
  · refine ⟨sSelfTest7, Req.car, 0x0047F001, ⟨?_, ?_, ?_, ?_⟩, ?_, ?_⟩ <;>
      decide +kernel
  · refine ⟨sSelfTest6, Req.car, ⟨?_, ?_, ?_, ?_⟩, ?_⟩ <;>
      decide +kernel
  · refine ⟨sSelfTest6, 1, 73727, ?_⟩ <;>
      decide +kernel
  · refine ⟨sSelfTest0, ?_⟩ <;>
      decide +kernel
  · refine ⟨sSelfTest0, ?_⟩ <;>
      decide +kernel
  · refine ⟨sSelfTest7, ?_, ?_, ?_⟩ <;>
      decide +kernel
  · refine ⟨sSelfTest8, ?_, ?_⟩ <;>
      decide +kernel
  · refine ⟨sSelfTest0, ?_⟩ <;>
      decide +kernel

/-- A state of the witnesses of `FirmwareSlots`. -/
def sFirmwareSlots0 : State :=
  { fw := { running := some 1, bootRec := { stB := 3, svnB := 255 } } }

/-- A state of the witnesses of `FirmwareSlots`. -/
def sFirmwareSlots1 : State :=
  { fw := { running := some 1, bootRec := { stB := 3 }, bundle := List.replicate 32 9 } }

/-- A state of the witnesses of `FirmwareSlots`. -/
def sFirmwareSlots2 : State :=
  { fw := { running := some 1 } }

/-- A state of the witnesses of `FirmwareSlots`. -/
def sFirmwareSlots4 : State :=
  { fw := { bootRec := { pending := 1 } } }

/-- A state of the witnesses of `FirmwareSlots`. -/
def sFirmwareSlots5 : State :=
  { fw := { staging := some { slot := 1, size := 2, data := [1, 2] } } }

/-- A state of the witnesses of `FirmwareSlots`. -/
def sFirmwareSlots6 : State :=
  { fw := { recovery := true, rcvState := 0 } }

/-- A state of the witnesses of `FirmwareSlots`. -/
def sFirmwareSlots7 : State :=
  { fw := { recovery := true, rcvState := 1 } }

/-- A state of the witnesses of `FirmwareSlots`. -/
def sFirmwareSlots8 : State :=
  { fw := { recovery := true, rcvState := 2 } }

/-- A state of the witnesses of `FirmwareSlots`. -/
def sFirmwareSlots11 : State :=
  { fw := { recovery := true, rcvHeld := true, rcvOwner := 1 } }

/-- A state of the witnesses of `FirmwareSlots`. -/
def sFirmwareSlots13 : State :=
  { fieldDirty := true }

theorem wit_FirmwareSlots :
    (∃ (s : State), ∃ (req : Req), ∃ (k : Nat), Serves s req .car 0 ∧ s.fw.running = some k ∧ brState s.fw.bootRec k =
    3 ∧ fusedCount s ≤ brSvn s.fw.bootRec k ∧ leAt s.fw.bundle 0x15 1 ≤ brSvn s.fw.bootRec k) ∧
    (∃ (s : State), ∃ (req : Req), ∃ (k : Nat), Serves s req .car 0 ∧ s.fw.running = some k ∧ brState s.fw.bootRec k =
    3 ∧ fusedCount s < leAt s.fw.bundle 0x15 1) ∧
    (∃ (s : State), ∃ (req : Req), ∃ (k : Nat), Serves s req .car 0 ∧ s.fw.running = some k ∧ brState s.fw.bootRec k ≠
    3) ∧
    (∃ (s : State), ∃ (req : Req), Serves s req .car 0 ∧ s.fw.running = none) ∧
    (∃ (s : State), ∃ (req : Req), Serves s req .car 0 ∧ s.fw.bootRec.pending = 0xFF) ∧
    (∃ (s : State), ∃ (req : Req), Serves s req .car 0 ∧ s.fw.bootRec.pending ≠ 0xFF) ∧
    (∃ (s : State), ∃ (k : Nat), s.fw.running = some k) ∧
    (∃ (s : State), s.fw.running = none) ∧
    (∃ (s : State), ∃ (g : Staging), s.fw.staging = some g ∧ g.size ≤ g.data.length) ∧
    (∃ (s : State), (∀ g, s.fw.staging = some g → g.data.length < g.size)) ∧
    (∃ (s : State), ∃ (iface n off : Nat), ∃ (data : List Byte), ∃ c, c ∈ [Instr.rcvBegin iface n, .rcvData iface off
    data, .rcvEnd iface, .rcvAbort iface] ∧ s.fw.recovery = false) ∧
    (∃ (s : State), ∃ (iface n off : Nat), ∃ (data : List Byte), ∃ c, c ∈ [Instr.rcvBegin iface n, .rcvData iface off
    data, .rcvEnd iface, .rcvAbort iface] ∧ s.fw.recovery = true ∧ s.fw.rcvHeld = true ∧ s.fw.rcvOwner ≠ iface) ∧
    (∃ (s : State), s.fw.recovery = false) ∧
    (∃ (s : State), s.fw.recovery = true) ∧
    (∃ (s : State), ∃ (iface : Nat), ∃ n, RcvTakes s iface ∧ s.fw.rcvState ≠ 2 ∧ s.fw.rcvState ≠ 3 ∧
    let size := if iface = 0 then n else (rget s .car 0 0x444).toNat; size ≤ 0x1000000) ∧
    (∃ (s : State), ∃ (iface : Nat), ∃ n, RcvTakes s iface ∧ s.fw.rcvState ≠ 2 ∧ s.fw.rcvState ≠ 3 ∧
    let size := if iface = 0 then n else (rget s .car 0 0x444).toNat; 0x1000000 < size) ∧
    (∃ (s : State), ∃ (iface : Nat), RcvTakes s iface ∧ (s.fw.rcvState = 2 ∨ s.fw.rcvState = 3)) ∧
    (∃ (s : State), ∃ (iface : Nat), RcvTakes s iface ∧ s.fw.rcvState ≠ 1) ∧
    (∃ (s : State), ∃ (iface : Nat), RcvTakes s iface ∧ s.fw.rcvState ≠ 1) ∧
    (∃ (s : State), ∃ (iface off : Nat), ∃ (data : List Byte), RcvTakes s iface ∧ s.fw.rcvState = 1 ∧ (s.fw.rcvSize <
    off + data.length ∨ iface = 0 ∧ (data.length < 4 ∨ 1024 < data.length))) ∧
    (∃ (s : State), ∃ (iface off : Nat), ∃ (data : List Byte), RcvTakes s iface ∧ s.fw.rcvState = 1 ∧ off + data.length
    ≤ s.fw.rcvSize ∧ (iface = 0 → 4 ≤ data.length ∧ data.length ≤ 1024)) ∧
    (∃ (s : State), ∃ (iface : Nat), RcvTakes s iface ∧ s.fw.rcvState = 1) ∧
    (∃ (s : State), ∃ (iface : Nat), RcvTakes s iface ∧ s.fw.rcvState ≠ 2 ∧ s.fw.rcvState ≠ 3) ∧
    (∃ (s : State), s.fw.recovery = true ∧ s.fw.rcvState = 2) ∧
    (∃ (s : State), (s.fw.recovery = false ∨ s.fw.rcvState ≠ 2)) ∧
    (∃ (s : State), s.fw.rcvHeld = true) ∧
    (∃ (s : State), s.fw.rcvHeld = false) ∧
    (∃ (s : State), s.fieldDirty = false) ∧
    (∃ (s : State), s.fieldDirty = true) ∧
    (∃ (s : State), allSlotsFree s = true) ∧
    (∃ (s : State), allSlotsFree s = false) := by
  refine ⟨?_, ?_, ?_, ?_, ?_, ?_, ?_, ?_, ?_, ?_, ?_, ?_, ?_, ?_, ?_, ?_, ?_, ?_, ?_, ?_, ?_, ?_, ?_, ?_, ?_, ?_, ?_, ?_, ?_, ?_, ?_⟩
  · refine ⟨sFirmwareSlots0, Req.car, 1, ⟨?_, ?_, ?_, ?_⟩, ?_, ?_, ?_, ?_⟩ <;>
      decide +kernel
  · refine ⟨sFirmwareSlots1, Req.car, 1, ⟨?_, ?_, ?_, ?_⟩, ?_, ?_, ?_⟩ <;>
      decide +kernel
  · refine ⟨sFirmwareSlots2, Req.car, 1, ⟨?_, ?_, ?_, ?_⟩, ?_, ?_⟩ <;>
      decide +kernel
  · refine ⟨State.reset, Req.car, ⟨?_, ?_, ?_, ?_⟩, ?_⟩ <;>
      decide +kernel
  · refine ⟨sFirmwareSlots0, Req.car, ⟨?_, ?_, ?_, ?_⟩, ?_⟩ <;>
      decide +kernel
  · refine ⟨sFirmwareSlots4, Req.car, ⟨?_, ?_, ?_, ?_⟩, ?_⟩ <;>
      decide +kernel
  · refine ⟨sFirmwareSlots0, 1, ?_⟩ <;>
      decide +kernel
  · refine ⟨State.reset, ?_⟩ <;>
      decide +kernel
  · refine ⟨sFirmwareSlots5, (Option.get (sFirmwareSlots5.fw.staging) (by decide +kernel)), ?_, ?_⟩ <;>
      decide +kernel
  · exact ⟨sFirmwareSlots0, (opt_all (by decide +kernel))⟩
  · refine ⟨sFirmwareSlots0, 1, 1, 1, [1, 2, 3, 4], Instr.rcvBegin 1 1, List.mem_cons_self, ?_⟩ <;>
      decide +kernel
  · refine ⟨sFirmwareSlots11, 0, 0, 0, [1, 2, 3, 4], Instr.rcvBegin 0 0, List.mem_cons_self, ?_, ?_, ?_⟩ <;>
      decide +kernel
  · refine ⟨sFirmwareSlots0, ?_⟩ <;>
      decide +kernel
  · refine ⟨sFirmwareSlots6, ?_⟩ <;>
      decide +kernel
  · refine ⟨sFirmwareSlots6, 1, 1, ⟨?_, ?_⟩, ?_, ?_, ?_⟩ <;>
      decide +kernel
  · refine ⟨sFirmwareSlots6, 0, 16777217, ⟨?_, ?_⟩, ?_, ?_, ?_⟩ <;>
      decide +kernel
  · refine ⟨sFirmwareSlots8, 1, ⟨?_, ?_⟩, ?_⟩ <;>
      decide +kernel
  · refine ⟨sFirmwareSlots6, 1, ⟨?_, ?_⟩, ?_⟩ <;>
      decide +kernel
  · refine ⟨sFirmwareSlots6, 1, ⟨?_, ?_⟩, ?_⟩ <;>
      decide +kernel
  · refine ⟨sFirmwareSlots7, 1, 1, [1, 2, 3, 4], ⟨?_, ?_⟩, ?_, ?_⟩ <;>
      decide +kernel
  · refine ⟨sFirmwareSlots7, 1, 0, [], ⟨?_, ?_⟩, ?_, ?_, ?_⟩ <;>
      decide +kernel
  · refine ⟨sFirmwareSlots7, 1, ⟨?_, ?_⟩, ?_⟩ <;>
      decide +kernel
  · refine ⟨sFirmwareSlots6, 1, ⟨?_, ?_⟩, ?_, ?_⟩ <;>
      decide +kernel
  · refine ⟨sFirmwareSlots8, ?_, ?_⟩ <;>
      decide +kernel
  · refine ⟨sFirmwareSlots0, ?_⟩ <;>
      decide +kernel
  · refine ⟨sFirmwareSlots11, ?_⟩ <;>
      decide +kernel
  · refine ⟨sFirmwareSlots0, ?_⟩ <;>
      decide +kernel
  · refine ⟨sFirmwareSlots0, ?_⟩ <;>
      decide +kernel
  · refine ⟨sFirmwareSlots13, ?_⟩ <;>
      decide +kernel
  · refine ⟨sFirmwareSlots0, ?_⟩ <;>
      decide +kernel
  · refine ⟨active id, ?_⟩ <;>
      decide +kernel

/-- A state of the witnesses of `LifecycleAndKeys`. -/
def sLifecycleAndKeys1 : State :=
  { fuses := { m := 0 } }

/-- A state of the witnesses of `LifecycleAndKeys`. -/
def sLifecycleAndKeys2 : State :=
  { sec := { lcTo := some 3 } }

/-- A state of the witnesses of `LifecycleAndKeys`. -/
def sLifecycleAndKeys3 : State :=
  { split := 3, carillon := { sessions := [(1, true)] } }

/-- A state of the witnesses of `LifecycleAndKeys`. -/
def sLifecycleAndKeys5 : State :=
  { split := 3, carillon := { sessions := [(1, true)] }, fabKeys := [(127, [])] }

theorem wit_LifecycleAndKeys :
    (∃ (s : State), ∃ (req : Req), ∃ (c : Req → Instr), ∃ (goal : Nat), (c, goal) ∈ [(Instr.lcToMission, 1),
    (Instr.lcToReturn, 2), (Instr.lcToEnd, 3)] ∧ Serves s req .sec 0 ∧ lcCheck s goal ≠ 0) ∧
    (∃ (s : State), ∃ (req : Req), ∃ (c : Req → Instr), ∃ (goal : Nat), (c, goal) ∈ [(Instr.lcToMission, 1),
    (Instr.lcToReturn, 2), (Instr.lcToEnd, 3)] ∧ Serves s req .sec 0 ∧ lcCheck s goal = 0) ∧
    (∃ (req : Req), ∃ c, c ∈ [Instr.lcToMission req, .lcToReturn req, .lcToEnd req]) ∧
    (∃ (s : State), s.sec.lcTo = none) ∧
    (∃ (s : State), ∃ (sess p sl : Nat), ∃ (key : List Byte), ∃ (on : Bool), ∃ c, sessionOpen s sess = false ∧ c ∈
    [Instr.fabKeySet sess p sl key, .fabKeyDelete sess p sl, .fabKeyTx sess p sl, .fabEnc sess p on]) ∧
    (∃ (s : State), ∃ (sess p sl : Nat), ∃ (key : List Byte), ∃ c, sessionOpen s sess = true ∧ (partCount s ≤ p ∨ 16 ≤
    sl) ∧ c ∈ [Instr.fabKeySet sess p sl key, .fabKeyDelete sess p sl, .fabKeyTx sess p sl]) ∧
    (∃ (s : State), ∃ (sess p : Nat), sessionOpen s sess = true ∧ partCount s ≤ p) ∧
    (∃ (s : State), ∃ (goal : Nat), s.sec.lcTo = some goal) ∧
    (∃ (s : State), ∃ (sess p sl : Nat), ∃ (key : List Byte), sessionOpen s sess = true ∧ p < partCount s ∧ sl < 16 ∧
    key.length = 32) ∧
    (∃ (s : State), ∃ (sess p sl : Nat), ∃ (key : List Byte), sessionOpen s sess = true ∧ p < partCount s ∧ sl < 16 ∧
    key.length ≠ 32) ∧
    (∃ (s : State), ∃ (sess p sl : Nat), sessionOpen s sess = true ∧ p < partCount s ∧ sl < 16 ∧ txSlot s p ≠ sl ∧
    keysRising s.fabKeys = true) ∧
    (∃ (s : State), ∃ (sess p sl : Nat), sessionOpen s sess = true ∧ p < partCount s ∧ sl < 16 ∧ txSlot s p = sl) ∧
    (∃ (s : State), ∃ (sess p sl : Nat), sessionOpen s sess = true ∧ p < partCount s ∧ sl < 16 ∧ (mget s.fabKeys (16 *
    p + sl)).isSome = true) ∧
    (∃ (s : State), ∃ (sess p sl : Nat), sessionOpen s sess = true ∧ p < partCount s ∧ sl < 16 ∧ mget s.fabKeys (16 * p
    + sl) = none) ∧
    (∃ (s : State), ∃ (sess p sl : Nat), sessionOpen s sess = true ∧ p < partCount s ∧ sl < 16 ∧ mget s.fabKeys (16 * p
    + txSlot s p) = none) ∧
    (∃ (s : State), ∃ (sess p sl : Nat), ∃ (on : Bool), sessionOpen s sess = true ∧ p < partCount s ∧ sl < 16 ∧ ((mget
    s.fabKeys (16 * p + txSlot s p)).isSome = true ∨ on = false)) := by
  refine ⟨?_, ?_, ?_, ?_, ?_, ?_, ?_, ?_, ?_, ?_, ?_, ?_, ?_, ?_, ?_, ?_⟩
  · refine ⟨State.reset, Req.car, Instr.lcToMission, 1, List.mem_cons_self, ⟨?_, ?_, ?_, ?_⟩, ?_⟩ <;>
      decide +kernel
  · refine ⟨sLifecycleAndKeys1, Req.car, Instr.lcToMission, 1, List.mem_cons_self, ⟨?_, ?_, ?_, ?_⟩, ?_⟩ <;>
      decide +kernel
  · exact ⟨Req.car, Instr.lcToMission Req.car, List.mem_cons_self⟩
  · refine ⟨State.reset, ?_⟩ <;>
      decide +kernel
  · refine ⟨State.reset, 0, 0, 0, List.replicate 32 0, true, Instr.fabKeySet 0 0 0 (List.replicate 32 0), ?_,
    List.mem_cons_self⟩ <;>
      decide +kernel
  · refine ⟨sLifecycleAndKeys3, 1, 1, 16, List.replicate 32 0, Instr.fabKeySet 1 1 16 (List.replicate 32 0), ?_, ?_,
    List.mem_cons_self⟩ <;>
      decide +kernel
  · refine ⟨sLifecycleAndKeys3, 1, 15, ?_, ?_⟩ <;>
      decide +kernel
  · refine ⟨sLifecycleAndKeys2, 3, ?_⟩ <;>
      decide +kernel
  · refine ⟨sLifecycleAndKeys3, 1, 1, 1, List.replicate 32 0, ?_, ?_, ?_, ?_⟩ <;>
      decide +kernel
  · refine ⟨sLifecycleAndKeys3, 1, 1, 1, [], ?_, ?_, ?_, ?_⟩ <;>
      decide +kernel
  · refine ⟨sLifecycleAndKeys3, 1, 1, 1, ?_, ?_, ?_, ?_, ?_⟩ <;>
      decide +kernel
  · refine ⟨sLifecycleAndKeys3, 1, 1, 0, ?_, ?_, ?_, ?_⟩ <;>
      decide +kernel
  · refine ⟨sLifecycleAndKeys5, 1, 7, 15, ?_, ?_, ?_, ?_⟩ <;>
      decide +kernel
  · refine ⟨sLifecycleAndKeys3, 1, 1, 1, ?_, ?_, ?_, ?_⟩ <;>
      decide +kernel
  · refine ⟨sLifecycleAndKeys3, 1, 1, 1, ?_, ?_, ?_, ?_⟩ <;>
      decide +kernel
  · refine ⟨sLifecycleAndKeys3, 1, 1, 1, false, ?_, ?_, ?_, ?_⟩ <;>
      decide +kernel

/-- A state of the witnesses of `Alarms`. -/
def sAlarms1 : State :=
  rset State.reset .sec 0 0x118 0x80000000

theorem wit_Alarms :
    (∃ (c : Instr), ∃ (src : Nat), ((c, src) ∈ [(Instr.alarmVglitch, 0), (.alarmCglitch, 1), (.alarmTemp, 2),
    (.alarmMesh, 3), (.alarmFuse, 4)] ∨ (∃ cause, c = .alarmDebug cause) ∧ src = 5)) ∧
    (∃ (s : State), ∃ (req : Req), Serves s req .sec 0 ∧ wbit (rget s .sec 0 0x118) 31 = true) ∧
    (∃ (s : State), ∃ (req : Req), Serves s req .sec 0 ∧ wbit (rget s .sec 0 0x118) 31 = false) := by
  refine ⟨?_, ?_, ?_⟩
  · exact ⟨Instr.alarmVglitch, 0, (by first | exact Or.inl (by decide +kernel) | exact Or.inr (by decide +kernel))⟩
  · refine ⟨sAlarms1, Req.car, ⟨?_, ?_, ?_, ?_⟩, ?_⟩ <;>
      decide +kernel
  · refine ⟨State.reset, Req.car, ⟨?_, ?_, ?_, ?_⟩, ?_⟩ <;>
      decide +kernel

/-- A state of the witnesses of `Debugging`. -/
def sDebugging1 : State :=
  { fuses := { m := 0 } }

/-- A state of the witnesses of `Debugging`. -/
def sDebugging3 : State :=
  rset (withSlot (fun sl => { sl with st := .halted, strands := [63] })) .dbg 0 0x110 2

theorem wit_Debugging :
    (∃ (s : State), ∃ (req : Req), Serves s req .dbg 0) ∧
    (∃ (s : State), ∃ (req : Req), ∃ level, Serves s req .dbg 0 ∧ lcState s = 0 ∧ frozen s = false ∧ (level = 1 ∨ level
    = 2)) ∧
    (∃ (s : State), ∃ (req : Req), Serves s req .dbg 0 ∧ lcState s = 0 ∧ frozen s = false ∧ allSlotsFree s = true) ∧
    (∃ (s : State), ∃ (req : Req), ∃ level, Serves s req .dbg 0 ∧ (lcState s ≠ 0 ∨ frozen s = true ∨ level = 0 ∨ 3 <
    level ∨ level = 3 ∧ allSlotsFree s = false)) ∧
    (∃ (req : Req), ∃ (level mask : Nat), ∃ c, c ∈ [Instr.dbgCmdRevoke req mask, .dbgCmdRevokeAll req, .dbgCmdOpen req
    level mask]) ∧
    (∃ (s : State), ∃ (a : DbgAcc), jtagOk s 2 = true ∧ dbgAccOk s a = true ∧ a.write = none) ∧
    (∃ (s : State), ∃ (a : DbgAcc), ∃ v, jtagOk s 2 = true ∧ dbgAccOk s a = true ∧ a.write = some v) ∧
    (∃ (s : State), ∃ (cls : Nat), ∃ (acc : Option DbgAcc), jtagOk s cls = true ∧ (cls ≠ 2 ∨ acc = none)) ∧
    (∃ (s : State), ∃ (cls : Nat), ∃ (acc : Option DbgAcc), (jtagOk s cls = false ∨ cls = 2 ∧ (∃ a, acc = some a ∧
    dbgAccOk s a = false))) ∧
    (∃ (s : State), ∃ (req : Req), ∃ (clu : Nat), Serves s req .clu clu ∧ debugLevel s (partOfClu s clu) = 0) ∧
    (∃ (s : State), ∃ (req : Req), ∃ (clu : Nat), ∃ (v : Word), Serves s req .clu clu ∧ debugLevel s (partOfClu s clu)
    ≠ 0 ∧ wbit v 0 = false) ∧
    (∃ (s : State), ∃ (req : Req), ∃ (clu : Nat), ∃ (v : Word), Serves s req .clu clu ∧ debugLevel s (partOfClu s clu)
    ≠ 0 ∧ wbit v 0 = true) := by
  refine ⟨?_, ?_, ?_, ?_, ?_, ?_, ?_, ?_, ?_, ?_, ?_, ?_⟩
  · refine ⟨State.reset, Req.car, ⟨?_, ?_, ?_, ?_⟩⟩ <;>
      decide +kernel
  · refine ⟨sDebugging1, Req.car, 2, ⟨?_, ?_, ?_, ?_⟩, ?_, ?_, ?_⟩ <;>
      decide +kernel
  · refine ⟨sDebugging1, Req.car, ⟨?_, ?_, ?_, ?_⟩, ?_, ?_, ?_⟩ <;>
      decide +kernel
  · refine ⟨State.reset, Req.car, 255, ⟨?_, ?_, ?_, ?_⟩, ?_⟩ <;>
      decide +kernel
  · exact ⟨Req.car, 0, 0, Instr.dbgCmdRevoke Req.car 0, List.mem_cons_self⟩
  · refine ⟨sDebugging3, (⟨1151, 15, 0, 0, 511, none⟩ : DbgAcc), ?_, ?_, ?_⟩ <;>
      decide +kernel
  · refine ⟨sDebugging3, (⟨1151, 15, 0, 0, 511, some 1⟩ : DbgAcc), 1, ?_, ?_, ?_⟩ <;>
      decide +kernel
  · refine ⟨State.reset, 0, none, ?_, ?_⟩ <;>
      decide +kernel
  · exact ⟨State.reset, 255, none, (by first | exact Or.inl (by decide +kernel) | exact Or.inr (by decide +kernel))⟩
  · refine ⟨State.reset, Req.car, 255, ⟨?_, ?_, ?_, ?_⟩, ?_⟩ <;>
      decide +kernel
  · refine ⟨sDebugging3, Req.car, 9, 0, ⟨?_, ?_, ?_, ?_⟩, ?_, ?_⟩ <;>
      decide +kernel
  · refine ⟨sDebugging3, Req.car, 9, 1, ⟨?_, ?_, ?_, ?_⟩, ?_, ?_⟩ <;>
      decide +kernel

/-- A state of the witnesses of `Attestation`. -/
def sAttestation0 : State :=
  { sec := { aliasValid := true } }

/-- A state of the witnesses of `Attestation`. -/
def sAttestation2 : State :=
  { sec := { aliasValid := true }, carillon := { spdmVer := true } }

/-- A state of the witnesses of `Attestation`. -/
def sAttestation3 : State :=
  { sec := { aliasValid := true }, carillon := { spdmVer := true, spdmAlg := true } }

/-- A state of the witnesses of `Attestation`. -/
def sAttestation4 : State :=
  { sec := { aliasValid := true }, carillon := { spdmVer := true, spdmAlg := true, sessions := [(1, false), (2, true)] } }

/-- A state of the witnesses of `Attestation`. -/
def sAttestation5 : State :=
  { sec := { aliasValid := true }, carillon := { spdmVer := true, spdmAlg := true, sessions := [(1, true)] } }

theorem wit_Attestation :
    (∃ (s : State), attestOk s = true) ∧
    (∃ (s : State), attestOk s = false) ∧
    (∃ (s : State), attestOk s = true ∧ s.carillon.spdmVer = true) ∧
    (∃ (s : State), (attestOk s = false ∨ s.carillon.spdmVer = false)) ∧
    (∃ (s : State), ∃ (k off len sess msg p sl : Nat), ∃ (on ok : Bool), ∃ (b : List Byte), ∃ c, (¬ SpdmReady s) ∧ c ∈
    [Instr.spdmGetDigests, .spdmGetCertificate k off len, .spdmChallenge k b, .spdmGetMeasurements k b,
    .spdmKeyExchange b, .spdmFinish sess ok, .spdmHeartbeat sess, .spdmKeyUpdate sess, .spdmEndSession sess,
    .spdmVendorDefinedRequest sess msg p sl on b]) ∧
    (∃ (s : State), SpdmReady s) ∧
    (∃ (s : State), ∃ (k : Nat), SpdmReady s ∧ k ≠ 0) ∧
    (∃ (s : State), ∃ (k : Nat), SpdmReady s ∧ 1 ≤ k ∧ (k ≤ 17 ∨ k = 0xFF)) ∧
    (∃ (s : State), ∃ (k : Nat), SpdmReady s ∧ 17 < k ∧ k ≠ 0xFF) ∧
    (∃ (s : State), SpdmReady s ∧ s.carillon.sessions.length < 2) ∧
    (∃ (s : State), SpdmReady s ∧ 2 ≤ s.carillon.sessions.length) ∧
    (∃ (s : State), ∃ (session : Nat), SpdmReady s ∧ s.carillon.sessions.contains (session, false) = true) ∧
    (∃ (s : State), ∃ (session : Nat), SpdmReady s ∧ s.carillon.sessions.contains (session, false) = false) ∧
    (∃ (s : State), SpdmReady s) ∧
    (∃ (s : State), ∃ (session msg p sl : Nat), ∃ (on : Bool), ∃ (key : List Byte), ∃ c, SpdmReady s ∧ sessionOpen s
    session = false ∧ c ∈ [Instr.spdmHeartbeat session, .spdmKeyUpdate session, .spdmEndSession session,
    .spdmVendorDefinedRequest session msg p sl on key]) ∧
    (∃ (s : State), ∃ (session : Nat), SpdmReady s ∧ sessionOpen s session = true) ∧
    (∃ (s : State), ∃ (session msg : Nat), SpdmReady s ∧ sessionOpen s session = true ∧ 3 ≤ msg) := by
  refine ⟨?_, ?_, ?_, ?_, ?_, ?_, ?_, ?_, ?_, ?_, ?_, ?_, ?_, ?_, ?_, ?_, ?_⟩
  · refine ⟨sAttestation0, ?_⟩ <;>
      decide +kernel
  · refine ⟨State.reset, ?_⟩ <;>
      decide +kernel
  · refine ⟨sAttestation2, ?_, ?_⟩ <;>
      decide +kernel
  · refine ⟨sAttestation0, ?_⟩ <;>
      decide +kernel
  · exact ⟨sAttestation0, 0, 0, 0, 0, 0, 0, 0, true, true, [], Instr.spdmGetDigests,
    (fun h_ => by first | exact absurd h_.1 (by decide +kernel) | exact absurd h_.2 (by decide +kernel) | exact absurd h_.3 (by decide +kernel)),
    List.mem_cons_self⟩
  · refine ⟨sAttestation3, ⟨?_, ?_, ?_⟩⟩ <;>
      decide +kernel
  · refine ⟨sAttestation3, 17, ⟨?_, ?_, ?_⟩, ?_⟩ <;>
      decide +kernel
  · refine ⟨sAttestation3, 17, ⟨?_, ?_, ?_⟩, ?_, ?_⟩ <;>
      decide +kernel
  · refine ⟨sAttestation3, 18, ⟨?_, ?_, ?_⟩, ?_, ?_⟩ <;>
      decide +kernel
  · refine ⟨sAttestation3, ⟨?_, ?_, ?_⟩, ?_⟩ <;>
      decide +kernel
  · refine ⟨sAttestation4, ⟨?_, ?_, ?_⟩, ?_⟩ <;>
      decide +kernel
  · refine ⟨sAttestation4, 1, ⟨?_, ?_, ?_⟩, ?_⟩ <;>
      decide +kernel
  · refine ⟨sAttestation3, 0, ⟨?_, ?_, ?_⟩, ?_⟩ <;>
      decide +kernel
  · refine ⟨sAttestation3, ⟨?_, ?_, ?_⟩⟩ <;>
      decide +kernel
  · refine ⟨sAttestation3, 0, 0, 0, 0, true, [], Instr.spdmHeartbeat 0, ⟨?_, ?_, ?_⟩, ?_, List.mem_cons_self⟩ <;>
      decide +kernel
  · refine ⟨sAttestation4, 2, ⟨?_, ?_, ?_⟩, ?_⟩ <;>
      decide +kernel
  · refine ⟨sAttestation5, 1, 3, ⟨?_, ?_, ?_⟩, ?_, ?_⟩ <;>
      decide +kernel

/-- A state of the witnesses of `ContextResets`. -/
def sContextResets0 : State :=
  withSlot (fun sl => { sl with st := .waiting })

/-- A state of the witnesses of `ContextResets`. -/
def sContextResets1 : State :=
  withSlot (fun sl => { sl with st := .active, ending := some ⟨3, 0, 3, false, 0⟩ })

/-- A state of the witnesses of `ContextResets`. -/
def sContextResets2 : State :=
  { withSlot (fun sl => { sl with st := .active, ending := some ⟨3, 0, 3, false, 0⟩ }) with us := 100 }

/-- A state of the witnesses of `ContextResets`. -/
def sContextResets4 : State :=
  rset (withSlot (fun sl => { sl with st := .active, idleUs := 50000 })) .hng 0 0x100 1

/-- A state of the witnesses of `ContextResets`. -/
def sContextResets5 : State :=
  modCore State.reset 1151 (fun c => { c with engReset := 8 })

/-- A state of the witnesses of `ContextResets`. -/
def sContextResets6 : State :=
  { modCore State.reset 1151 (fun c => { c with engReset := 8 }) with us := 300 }

def vContextResets0 : EndInfo :=
  (Option.get ((slot sContextResets1 1151 15).ending) (by decide +kernel))

theorem wit_ContextResets :
    (∃ (s : State), ∃ (n k : Nat), s.chipReset = none ∧ (slot s n k).st ≠ .free ∧ (slot s n k).ending = none ∧ (core s
    n).heldCmd = none) ∧
    (∃ (s : State), ∃ (n k : Nat), ∃ (e : EndInfo), s.chipReset = none ∧ (slot s n k).st ≠ .free ∧ (slot s n k).ending
    = some e ∧ e.group = false ∧ (core s n).heldCmd = none) ∧
    (∃ (s : State), ∃ (n k : Nat), (s.chipReset.isSome = true ∨ (slot s n k).st = .free)) ∧
    (∃ (s : State), ∃ (n k : Nat), s.chipReset = none ∧ (slot s n k).st ≠ .free ∧ (slot s n k).ending = none ∧ k < 16 ∧
    (∀ m, (core s m).heldCmd = none) ∧ keysRising s.cores = true) ∧
    (∃ (s : State), ∃ (n k : Nat), n < 1152 ∧ ((slot s n k).st = .active ∨ (slot s n k).st = .waiting) ∧ (slot s n
    k).ending = none ∧ hangSuspended s (partOfCore s n) = false ∧ (slot s n k).hangW ≤ (slot s n k).idleUs ∧ (slot s n
    k).hangRaised = false) ∧
    (∃ (s : State), ∃ (n k : Nat), (((slot s n k).st ≠ .active ∧ (slot s n k).st ≠ .waiting) ∨ (slot s n k).ending ≠
    none ∨ hangSuspended s (partOfCore s n) = true ∨ (slot s n k).idleUs < (slot s n k).hangW ∨ (slot s n
    k).hangRaised = true)) ∧
    (∃ (s : State), ∃ (n k : Nat), ∃ x, (slot s n k).ending = some x ∧ x.us + 100 ≤ s.us) ∧
    (∃ (s : State), ∃ (n k : Nat), (∀ x, (slot s n k).ending = some x → s.us < x.us + 100)) ∧
    (∃ (s : State), ∃ (n e : Nat), e < 4 ∧ bit (core s n).engReset e = true ∧ s.chipReset = none ∧ mget s.partReset
    (partOfCore s n) = none ∧ (core s n).heldCmd = none) ∧
    (∃ (s : State), ∃ (n e : Nat), (bit (core s n).engReset e = false ∨ s.chipReset.isSome = true ∨ (mget s.partReset
    (partOfCore s n)).isSome = true)) ∧
    (∃ (s : State), ∃ (n e : Nat), bit (core s n).engReset e = true ∧ (core s n).engUs + 300 ≤ s.us) ∧
    (∃ (s : State), ∃ (n e : Nat), (bit (core s n).engReset e = false ∨ s.us < (core s n).engUs + 300)) := by
  refine ⟨?_, ?_, ?_, ?_, ?_, ?_, ?_, ?_, ?_, ?_, ?_, ?_⟩
  · refine ⟨sContextResets0, 1151, 15, ?_, ?_, ?_, ?_⟩ <;>
      decide +kernel
  · refine ⟨sContextResets1, 1151, 15, vContextResets0, ?_, ?_, ?_, ?_, ?_⟩ <;>
      decide +kernel
  · refine ⟨sContextResets0, 1151, 1151, ?_⟩ <;>
      decide +kernel
  · refine ⟨sContextResets0, 1151, 15, ?_, ?_, ?_, ?_,
    (fun m_ => by by_cases h_ : m_ = 1151; exact (by subst h_; decide +kernel); unfold sContextResets0 withSlot modSlot; rw [core_modCore_ne _ _ h_]; rfl),
    ?_⟩ <;>
      decide +kernel
  · refine ⟨sContextResets4, 1151, 15, ?_, ?_, ?_, ?_, ?_, ?_⟩ <;>
      decide +kernel
  · refine ⟨sContextResets0, 1151, 1151, ?_⟩ <;>
      decide +kernel
  · refine ⟨sContextResets2, 1151, 15, (Option.get ((slot sContextResets2 1151 15).ending) (by decide +kernel)), ?_, ?_⟩ <;>
      decide +kernel
  · exact ⟨sContextResets0, 1151, 1151, (opt_all (by decide +kernel))⟩
  · refine ⟨sContextResets5, 1151, 3, ?_, ?_, ?_, ?_, ?_⟩ <;>
      decide +kernel
  · refine ⟨sContextResets0, 1151, 1151, ?_⟩ <;>
      decide +kernel
  · refine ⟨sContextResets6, 1151, 3, ?_, ?_⟩ <;>
      decide +kernel
  · refine ⟨sContextResets0, 1151, 1151, ?_⟩ <;>
      decide +kernel

/-- A state of the witnesses of `SaveTimeout`. -/
def sSaveTimeout0 : State :=
  { withSlot (fun sl => { sl with st := .preempting }) with us := 1001 }

/-- A state of the witnesses of `SaveTimeout`. -/
def sSaveTimeout3 : State :=
  { withSlot (fun sl => { sl with st := .preempting }) with us := 100000000 }

theorem wit_SaveTimeout :
    (∃ (s : State), ∃ (n k : Nat), (slot s n k).st = .preempting ∧ (slot s n k).ending = none ∧ (slot s n k).preemptUs
    + max 1000 (fld (rget s .hng 0 0x150) 15 0) < s.us) ∧
    (∃ (s : State), ∃ (n k : Nat), (slot s n k).st = .preempting ∧ (slot s n k).ending = none ∧ s.us ≤ (slot s n
    k).preemptUs + max 1000 (fld (rget s .hng 0 0x150) 15 0)) ∧
    (∃ (s : State), ∃ (n k : Nat), ((slot s n k).st ≠ .preempting ∨ (slot s n k).ending ≠ none)) := by
  refine ⟨?_, ?_, ?_⟩
  · refine ⟨sSaveTimeout3, 1151, 15, ?_, ?_, ?_⟩ <;>
      decide +kernel
  · refine ⟨sSaveTimeout0, 1151, 15, ?_, ?_, ?_⟩ <;>
      decide +kernel
  · refine ⟨sSaveTimeout0, 1151, 1151, ?_⟩ <;>
      decide +kernel

/-- A state of the witnesses of `WiderResets`. -/
def sWiderResets0 : State :=
  { split := 3, reqPart := [(7, { cause := 3 })] }

/-- A state of the witnesses of `WiderResets`. -/
def sWiderResets1 : State :=
  { split := 3, reqPart := [(7, { cause := 3 })], partReset := [(7, {})] }

/-- A state of the witnesses of `WiderResets`. -/
def sWiderResets2 : State :=
  { split := 3, reqPart := [(7, { cause := 3 })], chipReset := some {} }

/-- A state of the witnesses of `WiderResets`. -/
def sWiderResets3 : State :=
  { split := 3, partReset := [(7, {})] }

/-- A state of the witnesses of `WiderResets`. -/
def sWiderResets4 : State :=
  { split := 3, partReset := [(7, {})], us := 5000 }

/-- A state of the witnesses of `WiderResets`. -/
def sWiderResets6 : State :=
  { reqChip := some { cause := 3 } }

/-- A state of the witnesses of `WiderResets`. -/
def sWiderResets7 : State :=
  { reqChip := some { cause := 3 }, chipReset := some {} }

theorem wit_WiderResets :
    (∃ (s : State), ∃ (p : Nat), ∃ (r : ResetReq), mget s.reqPart p = some r ∧ s.chipReset = none ∧ p < partCount s ∧ p
    < 8 ∧ mget s.partReset p = none) ∧
    (∃ (s : State), ∃ (p : Nat), ∃ (r : ResetReq), ∃ x, mget s.reqPart p = some r ∧ s.chipReset = none ∧ p < partCount
    s ∧ p < 8 ∧ mget s.partReset p = some x) ∧
    (∃ (s : State), ∃ (p : Nat), mget s.reqPart p = none) ∧
    (∃ (s : State), ∃ (p : Nat), (mget s.reqPart p).isSome = true ∧ (s.chipReset.isSome = true ∨ partCount s ≤ p)) ∧
    (∃ (s : State), ∃ (p : Nat), (mget s.partReset p = none ∨ pealRunning s p = true)) ∧
    (∃ (s : State), ∃ (p : Nat), ∃ (r : PartReset), mget s.partReset p = some r ∧ pealRunning s p = false ∧ keysRising
    s.partReset = true) ∧
    (∃ (s : State), ∃ (p : Nat), ∃ x, mget s.partReset p = some x ∧ x.startUs + 5000 ≤ s.us) ∧
    (∃ (s : State), ∃ (p : Nat), (∀ x, mget s.partReset p = some x → s.us < x.startUs + 5000)) ∧
    (∃ (s : State), s.reqChip = none) ∧
    (∃ (s : State), ∃ (r : ResetReq), s.reqChip = some r ∧ s.chipReset = none) ∧
    (∃ (s : State), ∃ (r : ResetReq), s.reqChip = some r ∧ s.chipReset.isSome = true) := by
  refine ⟨?_, ?_, ?_, ?_, ?_, ?_, ?_, ?_, ?_, ?_, ?_⟩
  · refine ⟨sWiderResets0, 7, (Option.get (mget sWiderResets0.reqPart 7) (by decide +kernel)), ?_, ?_, ?_, ?_, ?_⟩ <;>
      decide +kernel
  · refine ⟨sWiderResets1, 7, (Option.get (mget sWiderResets1.reqPart 7) (by decide +kernel)), (Option.get (mget
    sWiderResets1.partReset 7) (by decide +kernel)), ?_, ?_, ?_, ?_, ?_⟩ <;>
      decide +kernel
  · refine ⟨sWiderResets3, 7, ?_⟩ <;>
      decide +kernel
  · refine ⟨sWiderResets2, 7, ?_, ?_⟩ <;>
      decide +kernel
  · refine ⟨sWiderResets0, 7, ?_⟩ <;>
      decide +kernel
  · refine ⟨sWiderResets1, 7, (Option.get (mget sWiderResets1.partReset 7) (by decide +kernel)), ?_, ?_, ?_⟩ <;>
      decide +kernel
  · refine ⟨sWiderResets4, 7, (Option.get (mget sWiderResets4.partReset 7) (by decide +kernel)), ?_, ?_⟩ <;>
      decide +kernel
  · exact ⟨sWiderResets0, 7, (opt_all (by decide +kernel))⟩
  · refine ⟨sWiderResets0, ?_⟩ <;>
      decide +kernel
  · refine ⟨sWiderResets6, (Option.get (sWiderResets6.reqChip) (by decide +kernel)), ?_, ?_⟩ <;>
      decide +kernel
  · refine ⟨sWiderResets7, (Option.get (sWiderResets7.reqChip) (by decide +kernel)), ?_, ?_⟩ <;>
      decide +kernel

/-- A state of the witnesses of `CrashDumps`. -/
def sCrashDumps3 : State :=
  { setStage State.reset 7 with host := { up := true, perst := false } }

/-- A state of the witnesses of `CrashDumps`. -/
def sCrashDumps4 : State :=
  { dump := some ⟨4, 0, 0, 0xFF, 0, [], 0, 0, [], []⟩ }

/-- A state of the witnesses of `CrashDumps`. -/
def sCrashDumps5 : State :=
  { dump := some ⟨4, 0, 0, 0xFF, 0, [(page .col 7, 1)], 0, 0, [], []⟩ }

theorem wit_CrashDumps :
    (∃ (s : State), ∃ (req : Req), ∃ (hng : Bool), (hng = true → Serves s req .hng 0) ∧ (hng = false → Serves s req
    .dmp 0) ∧ dumpHeld s = false ∧ dumpCollecting s = false ∧ dumpAllowed s = true) ∧
    (∃ (s : State), ∃ (req : Req), ∃ (hng : Bool), (hng = true → Serves s req .hng 0) ∧ (hng = false → Serves s req
    .dmp 0) ∧ dumpHeld s = false ∧ dumpCollecting s = false ∧ dumpAllowed s = false) ∧
    (∃ (s : State), ∃ (req : Req), ∃ (hng : Bool), (hng = true → Serves s req .hng 0) ∧ (hng = false → Serves s req
    .dmp 0) ∧ (dumpHeld s = true ∨ dumpCollecting s = true)) ∧
    (∃ (s : State), ∃ (req : Req), ∃ (hng : Bool), (hng = true → Serves s req .hng 0) ∧ (hng = false → Serves s req
    .dmp 0) ∧ dumpHeld s = true) ∧
    (∃ (s : State), ∃ (req : Req), ∃ (hng : Bool), (hng = true → Serves s req .hng 0) ∧ (hng = false → Serves s req
    .dmp 0) ∧ dumpHeld s = false) ∧
    (∃ (req : Req), ∃ c, c ∈ [Instr.dumpTake req true, .dumpRelease req true]) ∧
    (∃ (req : Req), ∃ c, c ∈ [Instr.dumpTake req false, .dumpRelease req false]) ∧
    (∃ (s : State), ∃ (req : Req), answered s req = false) ∧
    (∃ (s : State), ∃ (req : Req), answered s req = true ∧ pageOpen s req (page .hng 0) = false) ∧
    (∃ (s : State), ∃ (req : Req), answered s req = true ∧ pageOpen s req (page .hng 0) = true) ∧
    (∃ (s : State), ∃ (d : DumpRun), s.dump = some d) ∧
    (∃ (s : State), s.dump = none) ∧
    (∃ (s : State), s.dump = none) ∧
    (∃ (s : State), ∃ (a : Nat), ∃ (d : DumpRun), s.dump = some d ∧ pageOf a = none) ∧
    (∃ (s : State), ∃ (a : Nat), ∃ (d : DumpRun), ∃ x i off, s.dump = some d ∧ pageOf a = some (x, i, off) ∧ ((mget
    d.unread (page x i)).isSome = true ∨ d.deadIslands.any (fun e => e.1 = pageIsland x i) = true)) ∧
    (∃ (s : State), ∃ (a : Nat), ∃ (d : DumpRun), ∃ (x : Block), ∃ (i off : Nat), s.dump = some d ∧ pageOf a = some (x,
    i, off) ∧ mget d.unread (page x i) = none ∧ d.deadIslands.any (fun e => e.1 = pageIsland x i) = false) := by
  refine ⟨?_, ?_, ?_, ?_, ?_, ?_, ?_, ?_, ?_, ?_, ?_, ?_, ?_, ?_, ?_, ?_⟩
  · refine ⟨State.reset, Req.car, true,
    (fun h_ => by first | exact absurd h_ (by decide) | exact ⟨(by decide +kernel), (by decide +kernel), (by decide +kernel), (by decide +kernel)⟩),
    (fun h_ => by first | exact absurd h_ (by decide) | exact ⟨(by decide +kernel), (by decide +kernel), (by decide +kernel), (by decide +kernel)⟩),
    ?_, ?_, ?_⟩ <;>
      decide +kernel
  · refine ⟨active id, Req.car, true,
    (fun h_ => by first | exact absurd h_ (by decide) | exact ⟨(by decide +kernel), (by decide +kernel), (by decide +kernel), (by decide +kernel)⟩),
    (fun h_ => by first | exact absurd h_ (by decide) | exact ⟨(by decide +kernel), (by decide +kernel), (by decide +kernel), (by decide +kernel)⟩),
    ?_, ?_, ?_⟩ <;>
      decide +kernel
  · refine ⟨rset State.reset .dmp 0 0x104 1, Req.car, true,
    (fun h_ => by first | exact absurd h_ (by decide) | exact ⟨(by decide +kernel), (by decide +kernel), (by decide +kernel), (by decide +kernel)⟩),
    (fun h_ => by first | exact absurd h_ (by decide) | exact ⟨(by decide +kernel), (by decide +kernel), (by decide +kernel), (by decide +kernel)⟩),
    ?_⟩ <;>
      decide +kernel
  · refine ⟨rset State.reset .dmp 0 0x104 1, Req.car, true,
    (fun h_ => by first | exact absurd h_ (by decide) | exact ⟨(by decide +kernel), (by decide +kernel), (by decide +kernel), (by decide +kernel)⟩),
    (fun h_ => by first | exact absurd h_ (by decide) | exact ⟨(by decide +kernel), (by decide +kernel), (by decide +kernel), (by decide +kernel)⟩),
    ?_⟩ <;>
      decide +kernel
  · refine ⟨State.reset, Req.car, true,
    (fun h_ => by first | exact absurd h_ (by decide) | exact ⟨(by decide +kernel), (by decide +kernel), (by decide +kernel), (by decide +kernel)⟩),
    (fun h_ => by first | exact absurd h_ (by decide) | exact ⟨(by decide +kernel), (by decide +kernel), (by decide +kernel), (by decide +kernel)⟩),
    ?_⟩ <;>
      decide +kernel
  · exact ⟨Req.car, Instr.dumpTake Req.car true, List.mem_cons_self⟩
  · exact ⟨Req.car, Instr.dumpTake Req.car false, List.mem_cons_self⟩
  · refine ⟨State.reset, Req.pf, ?_⟩ <;>
      decide +kernel
  · refine ⟨sCrashDumps3, Req.pf, ?_, ?_⟩ <;>
      decide +kernel
  · refine ⟨State.reset, Req.car, ?_, ?_⟩ <;>
      decide +kernel
  · refine ⟨sCrashDumps4, (Option.get (sCrashDumps4.dump) (by decide +kernel)), ?_⟩ <;>
      decide +kernel
  · refine ⟨State.reset, ?_⟩ <;>
      decide +kernel
  · refine ⟨State.reset, ?_⟩ <;>
      decide +kernel
  · refine ⟨sCrashDumps4, 100000001, (Option.get (sCrashDumps4.dump) (by decide +kernel)), ?_, ?_⟩ <;>
      decide +kernel
  · refine ⟨sCrashDumps5, 290816, (Option.get (sCrashDumps5.dump) (by decide +kernel)), (Option.get (pageOf 290816)
    (by decide +kernel)).1, 7, 0, ?_, ?_, ?_⟩ <;>
      decide +kernel
  · refine ⟨sCrashDumps4, 0, (Option.get (sCrashDumps4.dump) (by decide +kernel)), (Option.get (pageOf 0)
    (by decide +kernel)).1, 0, 0, ?_, ?_, ?_, ?_⟩ <;>
      decide +kernel

/-- A state of the witnesses of `PowerStates`. -/
def sPowerStates0 : State :=
  { power := { st := 0 } }

/-- A state of the witnesses of `PowerStates`. -/
def sPowerStates1 : State :=
  { power := { st := 1 } }

/-- A state of the witnesses of `PowerStates`. -/
def sPowerStates2 : State :=
  { power := { st := 2 } }

/-- A state of the witnesses of `PowerStates`. -/
def sPowerStates3 : State :=
  { power := { st := 3, vin48 := true } }

/-- A state of the witnesses of `PowerStates`. -/
def sPowerStates4 : State :=
  { power := { st := 3 } }

/-- A state of the witnesses of `PowerStates`. -/
def sPowerStates6 : State :=
  { bist := { direct := some (0, 0) } }

/-- A state of the witnesses of `PowerStates`. -/
def sPowerStates8 : State :=
  { power := { moving := some 2 } }

/-- A state of the witnesses of `PowerStates`. -/
def sPowerStates9 : State :=
  { power := { st := 1, moving := some 3 } }

/-- A state of the witnesses of `PowerStates`. -/
def sPowerStates10 : State :=
  { power := { st := 2, moving := some 0 } }

theorem wit_PowerStates :
    (∃ (s : State), ∃ (req : Req), Serves s req .pwr 0 ∧ s.power.moving = none ∧ (s.power.st = 0 ∨ s.power.st = 1)) ∧
    (∃ (s : State), ∃ (req : Req), Serves s req .pwr 0 ∧ s.power.moving = none ∧ s.power.st = 2) ∧
    (∃ (s : State), ∃ (req : Req), Serves s req .pwr 0 ∧ s.power.moving = none ∧ s.power.st = 3 ∧ req = .car ∧
    s.power.vin48 = true ∧ s.power.vauxLost = false ∧ s.thermal.tripped = false) ∧
    (∃ (s : State), ∃ (req : Req), Serves s req .pwr 0 ∧ s.power.moving = none ∧ s.power.st = 3 ∧ (req ≠ .car ∨
    s.power.vin48 = false ∨ s.power.vauxLost = true ∨ s.thermal.tripped = true)) ∧
    (∃ (s : State), ∃ (req : Req), Serves s req .pwr 0 ∧ s.power.moving = none ∧ s.power.st = 3) ∧
    (∃ (s : State), ∃ (req : Req), ∃ (c : Req → Instr), ∃ (target : Nat), Serves s req .pwr 0 ∧ s.power.moving = none ∧
    (c, target) ∈ [(Instr.pwrStateCmdA2, 2), (Instr.pwrStateCmdA3, 3)] ∧ s.power.st < 2 ∧ allSlotsFree s = false) ∧
    (∃ (s : State), ∃ (req : Req), ∃ (c : Req → Instr), ∃ (target : Nat), Serves s req .pwr 0 ∧ s.power.moving = none ∧
    (c, target) ∈ [(Instr.pwrStateCmdA2, 2), (Instr.pwrStateCmdA3, 3)] ∧ s.power.st < 2 ∧ allSlotsFree s = true ∧
    pwrBlocked s = true) ∧
    (∃ (s : State), ∃ (req : Req), ∃ (c : Req → Instr), ∃ (target : Nat), Serves s req .pwr 0 ∧ s.power.moving = none ∧
    (c, target) ∈ [(Instr.pwrStateCmdA2, 2), (Instr.pwrStateCmdA3, 3)] ∧ s.power.st < 2 ∧ allSlotsFree s = true ∧
    pwrBlocked s = false) ∧
    (∃ (s : State), ∃ (req : Req), ∃ c, Serves s req .pwr 0 ∧ s.power.moving ≠ none ∧ c ∈ [Instr.pwrStateCmdA0 req,
    .pwrStateCmdA2 req, .pwrStateCmdA3 req]) ∧
    (∃ (req : Req), ∃ c, c ∈ [Instr.pwrStateCmdA0 req, .pwrStateCmdA2 req, .pwrStateCmdA3 req]) ∧
    (∃ (s : State), (s.power.st = 0 ∧ s.power.moving = none ∧ fld (rget s .pwr 0 0x10C) 23 0 ≠ 0 ∧ allSlotsFree s =
    true ∧ anyPeal s = false ∧ s.chipReset = none ∧ s.partReset = [] ∧ s.dump = none)) ∧
    (∃ (s : State), (¬ (s.power.st = 0 ∧ s.power.moving = none ∧ fld (rget s .pwr 0 0x10C) 23 0 ≠ 0 ∧ allSlotsFree s =
    true ∧ anyPeal s = false ∧ s.chipReset = none ∧ s.partReset = [] ∧ s.dump = none))) ∧
    (∃ (s : State), s.power.st < 2 ∧ s.power.moving = some 2) ∧
    (∃ (s : State), s.power.st < 2 ∧ s.power.moving = some 3) ∧
    (∃ (s : State), (2 ≤ s.power.st ∨ s.power.moving = none ∨ s.power.moving = some 0)) ∧
    (∃ (s : State), s.power.moving = some 0 ∧ s.power.st = 2 ∧ anyPeal s = false) ∧
    (∃ (s : State), s.power.moving = some 0) ∧
    (∃ (s : State), s.power.moving ≠ some 0) ∧
    (∃ (s : State), (s.power.moving ≠ some 0 ∨ s.power.st ≠ 2 ∨ anyPeal s = true)) := by
  refine ⟨?_, ?_, ?_, ?_, ?_, ?_, ?_, ?_, ?_, ?_, ?_, ?_, ?_, ?_, ?_, ?_, ?_, ?_, ?_⟩
  · refine ⟨sPowerStates0, Req.car, ⟨?_, ?_, ?_, ?_⟩, ?_, ?_⟩ <;>
      decide +kernel
  · refine ⟨sPowerStates2, Req.car, ⟨?_, ?_, ?_, ?_⟩, ?_, ?_⟩ <;>
      decide +kernel
  · refine ⟨sPowerStates3, Req.car, ⟨?_, ?_, ?_, ?_⟩, ?_, ?_, ?_, ?_, ?_, ?_⟩ <;>
      decide +kernel
  · refine ⟨sPowerStates4, Req.car, ⟨?_, ?_, ?_, ?_⟩, ?_, ?_, ?_⟩ <;>
      decide +kernel
  · refine ⟨sPowerStates3, Req.car, ⟨?_, ?_, ?_, ?_⟩, ?_, ?_⟩ <;>
      decide +kernel
  · refine ⟨active id, Req.car, Instr.pwrStateCmdA2, 2, ⟨?_, ?_, ?_, ?_⟩, ?_, List.mem_cons_self, ?_, ?_⟩ <;>
      decide +kernel
  · refine ⟨sPowerStates6, Req.car, Instr.pwrStateCmdA2, 2, ⟨?_, ?_, ?_, ?_⟩, ?_, List.mem_cons_self, ?_, ?_, ?_⟩ <;>
      decide +kernel
  · refine ⟨sPowerStates0, Req.car, Instr.pwrStateCmdA2, 2, ⟨?_, ?_, ?_, ?_⟩, ?_, List.mem_cons_self, ?_, ?_, ?_⟩ <;>
      decide +kernel
  · refine ⟨sPowerStates8, Req.car, Instr.pwrStateCmdA0 Req.car, ⟨?_, ?_, ?_, ?_⟩, ?_, List.mem_cons_self⟩ <;>
      decide +kernel
  · exact ⟨Req.car, Instr.pwrStateCmdA0 Req.car, List.mem_cons_self⟩
  · refine ⟨sPowerStates0, ⟨?_, ?_, ?_, ?_, ?_, ?_, ?_, ?_⟩⟩ <;>
      decide +kernel
  · refine ⟨sPowerStates1, ?_⟩ <;>
      decide +kernel
  · refine ⟨sPowerStates8, ?_, ?_⟩ <;>
      decide +kernel
  · refine ⟨sPowerStates9, ?_, ?_⟩ <;>
      decide +kernel
  · refine ⟨sPowerStates0, ?_⟩ <;>
      decide +kernel
  · refine ⟨sPowerStates10, ?_, ?_, ?_⟩ <;>
      decide +kernel
  · refine ⟨sPowerStates10, ?_⟩ <;>
      decide +kernel
  · refine ⟨sPowerStates0, ?_⟩ <;>
      decide +kernel
  · refine ⟨sPowerStates0, ?_⟩ <;>
      decide +kernel

/-- A state of the witnesses of `PowerBudget`. -/
def sPowerBudget0 : State :=
  { grantReqs := [(1151, 15, 7, false)], pools := [(3, 7)] }

/-- A state of the witnesses of `PowerBudget`. -/
def sPowerBudget1 : State :=
  { grantReqs := [(1151, 15, 7, false)], pools := [(3, 6)] }

/-- A state of the witnesses of `PowerBudget`. -/
def sPowerBudget2 : State :=
  { grantReqs := [(1151, 15, 7, true)], pools := [(3, 6)] }

/-- A state of the witnesses of `PowerBudget`. -/
def sPowerBudget4 : State :=
  { fastCap := 4 }

/-- A state of the witnesses of `PowerBudget`. -/
def sPowerBudget5 : State :=
  { power := { duty := 1 } }

/-- A state of the witnesses of `PowerBudget`. -/
def sPowerBudget6 : State :=
  { power := { brakePin := true, brake := 1 } }

/-- A state of the witnesses of `PowerBudget`. -/
def sPowerBudget8 : State :=
  { carillon := { token := some 1 } }

theorem wit_PowerBudget :
    (∃ (s : State), ∃ (n k c : Nat), ∃ (w : Bool), s.grantReqs.find? (fun q => q.1 = n) = some (n, k, c, w) ∧ frozen s
    = false ∧ c + mgetD s.grants (coreTile n) 0 ≤ mgetD s.pools (coreTile n) 0) ∧
    (∃ (s : State), ∃ (n k c : Nat), ∃ (w : Bool), s.grantReqs.find? (fun q => q.1 = n) = some (n, k, c, w) ∧ frozen s
    = false ∧ mgetD s.pools (coreTile n) 0 < c + mgetD s.grants (coreTile n) 0 ∧ w = false) ∧
    (∃ (s : State), ∃ (n k c : Nat), ∃ (w : Bool), s.grantReqs.find? (fun q => q.1 = n) = some (n, k, c, w) ∧ frozen s
    = false ∧ mgetD s.pools (coreTile n) 0 < c + mgetD s.grants (coreTile n) 0 ∧ w = true) ∧
    (∃ (s : State), ∃ (n k : Nat), (frozen s = true ∨ (∀ q, s.grantReqs.find? (fun q => q.1 = n) = some q → q.2.1 ≠ k))) ∧
    (∃ (s : State), ∃ (a : Nat), s.power.lEff < a ∧ 4 < s.fastCap) ∧
    (∃ (s : State), ∃ (a : Nat), s.power.lEff < a ∧ s.fastCap ≤ 4) ∧
    (∃ (s : State), ∃ (a b : Nat), a ≤ s.power.lEff ∧ b * 100 < s.power.lEff * 95 ∧ s.power.duty = 0) ∧
    (∃ (s : State), ∃ (a b : Nat), a ≤ s.power.lEff ∧ b * 100 < s.power.lEff * 95 ∧ s.power.duty ≠ 0) ∧
    (∃ (s : State), ∃ (a b : Nat), a ≤ s.power.lEff ∧ s.power.lEff * 95 ≤ b * 100) ∧
    (∃ (s : State), s.power.brakePin = false) ∧
    (∃ (s : State), s.power.brakePin = true) ∧
    (∃ (s : State), (s.power.brakePin = false ∨ s.power.brake ≠ 1)) ∧
    (∃ (s : State), s.carillon.token = none) ∧
    (∃ (s : State), s.power.brakePin = true ∧ s.power.brake = 1) ∧
    (∃ (s : State), s.carillon.token.isSome = true) ∧
    (∃ (s : State), ∃ (req : Req), Serves s req .pwr 0) := by
  refine ⟨?_, ?_, ?_, ?_, ?_, ?_, ?_, ?_, ?_, ?_, ?_, ?_, ?_, ?_, ?_, ?_⟩
  · refine ⟨sPowerBudget0, 1151, 15, 7, false, ?_, ?_, ?_⟩ <;>
      decide +kernel
  · refine ⟨sPowerBudget1, 1151, 15, 7, false, ?_, ?_, ?_, ?_⟩ <;>
      decide +kernel
  · refine ⟨sPowerBudget2, 1151, 15, 7, true, ?_, ?_, ?_, ?_⟩ <;>
      decide +kernel
  · exact ⟨sPowerBudget0, 1151, 1151,
    (by first | exact Or.inl (by decide +kernel) | exact Or.inr ((opt_all (by decide +kernel))))⟩
  · refine ⟨State.reset, 4001, ?_, ?_⟩ <;>
      decide +kernel
  · refine ⟨sPowerBudget4, 4001, ?_, ?_⟩ <;>
      decide +kernel
  · refine ⟨sPowerBudget0, 1151, 1151, ?_, ?_, ?_⟩ <;>
      decide +kernel
  · refine ⟨sPowerBudget5, 0, 0, ?_, ?_, ?_⟩ <;>
      decide +kernel
  · refine ⟨State.reset, 0, 4001, ?_, ?_⟩ <;>
      decide +kernel
  · refine ⟨sPowerBudget0, ?_⟩ <;>
      decide +kernel
  · refine ⟨sPowerBudget6, ?_⟩ <;>
      decide +kernel
  · refine ⟨sPowerBudget0, ?_⟩ <;>
      decide +kernel
  · refine ⟨sPowerBudget0, ?_⟩ <;>
      decide +kernel
  · refine ⟨sPowerBudget6, ?_, ?_⟩ <;>
      decide +kernel
  · refine ⟨sPowerBudget8, ?_⟩ <;>
      decide +kernel
  · refine ⟨sPowerBudget0, Req.car, ⟨?_, ?_, ?_, ?_⟩⟩ <;>
      decide +kernel

/-- A state of the witnesses of `PowerFailuresAndHeat`. -/
def sPowerFailuresAndHeat2 : State :=
  { power := { st := 3 } }

/-- A state of the witnesses of `PowerFailuresAndHeat`. -/
def sPowerFailuresAndHeat3 : State :=
  { power := { failed := true } }

/-- A state of the witnesses of `PowerFailuresAndHeat`. -/
def sPowerFailuresAndHeat4 : State :=
  { thermal := { tripped := true } }

/-- A state of the witnesses of `PowerFailuresAndHeat`. -/
def sPowerFailuresAndHeat5 : State :=
  { carillon := { bothDown := true } }

/-- A state of the witnesses of `PowerFailuresAndHeat`. -/
def sPowerFailuresAndHeat6 : State :=
  { thermal := { sites := [(63, { used := 140, read := true })] } }

/-- A state of the witnesses of `PowerFailuresAndHeat`. -/
def sPowerFailuresAndHeat7 : State :=
  { thermal := { sites := [(63, { used := 136, read := true })] } }

/-- A state of the witnesses of `PowerFailuresAndHeat`. -/
def sPowerFailuresAndHeat8 : State :=
  { thermal := { sites := [(63, { used := 137, read := true })] } }

/-- A state of the witnesses of `PowerFailuresAndHeat`. -/
def sPowerFailuresAndHeat9 : State :=
  { thermal := { sites := [(80, { used := 150 })] } }

/-- A state of the witnesses of `PowerFailuresAndHeat`. -/
def sPowerFailuresAndHeat12 : State :=
  { thermal := { hbmMiss := [(15, 2)] } }

/-- A state of the witnesses of `PowerFailuresAndHeat`. -/
def sPowerFailuresAndHeat14 : State :=
  { us := 1000000, thermal := { sites := [(63, { hot := { spans := [(0, 1000000)] } })], coolSent := some 0 } }

theorem wit_PowerFailuresAndHeat :
    (∃ (us : Nat), us ≤ 10) ∧
    (∃ (us : Nat), 10 < us) ∧
    (∃ (s : State), ∃ (c : Instr), ∃ (vin : Nat), s.power.failed = false ∧ s.power.st ≠ 3 ∧ s.power.vin48 = true ∧ (c =
    .powerFailSequence vin ∨ c = .pwrVinOv vin ∧ 3000 < vin ∨ c = .pwrVauxLost)) ∧
    (∃ (s : State), s.power.st = 3) ∧
    (∃ (s : State), ∃ (vin : Nat), s.power.failed = true ∧ 3000 < vin) ∧
    (∃ (vin : Nat), vin ≤ 3000) ∧
    (∃ (s : State), s.power.vin48 = false) ∧
    (∃ (s : State), s.power.failed = true ∧ s.power.vauxLost = false ∧ s.thermal.tripped = false) ∧
    (∃ (s : State), (s.power.failed = false ∨ s.power.vauxLost = true ∨ s.thermal.tripped = true)) ∧
    (∃ (s : State), ∃ (i d : Nat), s.thermal.tripped = false ∧ bothDown s = false ∧ i < 85 ∧ (site s i).pair < 2 ∧ 20 ≤
    d ∧ d ≤ 190) ∧
    (∃ (s : State), ∃ (i : Nat), s.thermal.tripped = false ∧ bothDown s = false ∧ i < 85 ∧ (site s i).pair < 2) ∧
    (∃ (s : State), ∃ (i d : Nat), s.thermal.tripped = false ∧ bothDown s = true ∧ i < 85 ∧ 20 ≤ d ∧ d ≤ 190) ∧
    (∃ (s : State), s.thermal.tripped = true) ∧
    (∃ (s : State), ∃ (i : Nat), i < 64 ∧ (site s i).pair ≠ 3 ∧ (site s i).hard = false ∧ (site s i).read = true ∧ 140
    ≤ (site s i).used) ∧
    (∃ (s : State), ∃ (i : Nat), i < 64 ∧ (site s i).pair ≠ 3 ∧ (site s i).hard = false ∧ (site s i).read = true ∧
    (site s i).used < 137) ∧
    (∃ (s : State), ∃ (i : Nat), i < 64 ∧ (site s i).pair ≠ 3 ∧ (site s i).hard = false ∧ (site s i).read = true ∧ 137
    ≤ (site s i).used ∧ (site s i).used < 140) ∧
    (∃ (s : State), ∃ (i : Nat), i < 64 ∧ ((site s i).pair = 3 ∨ (site s i).hard = true ∨ (site s i).read = false)) ∧
    (∃ (i : Nat), (siteKind i = 1 ∨ siteKind i = 3)) ∧
    (∃ (s : State), ∃ (i : Nat), siteKind i = 2 ∧ 150 ≤ (site s i).used ∧ (∀ j, 80 ≤ j → j < i → (site s j).used < 150)) ∧
    (∃ (s : State), ∃ (i : Nat), siteKind i = 2 ∧ ((site s i).used < 150 ∨ (∃ j, 80 ≤ j ∧ j < i ∧ 150 ≤ (site s
    j).used))) ∧
    (∃ (s : State), ∃ (input : Nat), s.thermal.tripped = false ∧ coolingBad s input = true ∧ (s.thermal.coolSent = none
    ∨ (∃ x, s.thermal.coolSent = some x ∧ x + 60000000 ≤ s.us))) ∧
    (∃ (s : State), ∃ (input : Nat), s.thermal.tripped = false ∧ coolingBad s input = true ∧ (∃ x, s.thermal.coolSent =
    some x ∧ s.us < x + 60000000)) ∧
    (∃ (s : State), ∃ (input : Nat), s.thermal.tripped = false ∧ coolingBad s input = false) ∧
    (∃ (s : State), s.thermal.tripped = true) ∧
    (∃ (s : State), ∃ (k : Nat), ∃ x, k < 16 ∧ s.thermal.tripped = false ∧ 85 ≤ x ∧ x < 115) ∧
    (∃ (s : State), ∃ (k : Nat), ∃ x, k < 16 ∧ s.thermal.tripped = false ∧ x < 85) ∧
    (∃ (s : State), ∃ (k : Nat), k < 16 ∧ s.thermal.tripped = false ∧ 2 ≤ mgetD s.thermal.hbmMiss k 0) ∧
    (∃ (s : State), ∃ (k : Nat), k < 16 ∧ s.thermal.tripped = false ∧ mgetD s.thermal.hbmMiss k 0 < 2) ∧
    (∃ (s : State), ∃ (k : Nat), ∃ x, k < 16 ∧ s.thermal.tripped = false ∧ 115 ≤ x) ∧
    (∃ (s : State), ∃ (k : Nat), (16 ≤ k ∨ s.thermal.tripped = true)) := by
  refine ⟨?_, ?_, ?_, ?_, ?_, ?_, ?_, ?_, ?_, ?_, ?_, ?_, ?_, ?_, ?_, ?_, ?_, ?_, ?_, ?_, ?_, ?_, ?_, ?_, ?_, ?_, ?_, ?_, ?_, ?_⟩
  · refine ⟨0, ?_⟩ <;>
      decide +kernel
  · refine ⟨15, ?_⟩ <;>
      decide +kernel
  · refine ⟨({ power := { State.reset.power with vin48 := true } } : State), (Instr.pwrVinOv 3001), 3001, ?_, ?_, ?_, ?_⟩ <;>
      decide +kernel
  · refine ⟨sPowerFailuresAndHeat2, ?_⟩ <;>
      decide +kernel
  · refine ⟨sPowerFailuresAndHeat3, 3001, ?_, ?_⟩ <;>
      decide +kernel
  · refine ⟨0, ?_⟩ <;>
      decide +kernel
  · refine ⟨State.reset, ?_⟩ <;>
      decide +kernel
  · refine ⟨sPowerFailuresAndHeat3, ?_, ?_, ?_⟩ <;>
      decide +kernel
  · refine ⟨State.reset, ?_⟩ <;>
      decide +kernel
  · refine ⟨State.reset, 10, 84, ?_, ?_, ?_, ?_, ?_, ?_⟩ <;>
      decide +kernel
  · refine ⟨State.reset, 10, ?_, ?_, ?_, ?_⟩ <;>
      decide +kernel
  · refine ⟨sPowerFailuresAndHeat5, 84, 84, ?_, ?_, ?_, ?_, ?_⟩ <;>
      decide +kernel
  · refine ⟨sPowerFailuresAndHeat4, ?_⟩ <;>
      decide +kernel
  · refine ⟨sPowerFailuresAndHeat6, 63, ?_, ?_, ?_, ?_, ?_⟩ <;>
      decide +kernel
  · refine ⟨sPowerFailuresAndHeat7, 63, ?_, ?_, ?_, ?_, ?_⟩ <;>
      decide +kernel
  · refine ⟨sPowerFailuresAndHeat8, 63, ?_, ?_, ?_, ?_, ?_, ?_⟩ <;>
      decide +kernel
  · refine ⟨State.reset, 10, ?_, ?_⟩ <;>
      decide +kernel
  · refine ⟨64, ?_⟩ <;>
      decide +kernel
  · refine ⟨sPowerFailuresAndHeat9, 80, ?_, ?_, (fun j_ h_ g_ => absurd g_ (by omega))⟩ <;>
      decide +kernel
  · refine ⟨State.reset, 80, ?_, (by first | exact Or.inl (by decide +kernel) | exact Or.inr (by decide +kernel))⟩ <;>
      decide +kernel
  · refine ⟨sPowerFailuresAndHeat6, 63, ?_, ?_,
    (by first | exact Or.inl (by decide +kernel) | exact Or.inr ((opt_ex (by decide +kernel))))⟩ <;>
      decide +kernel
  · refine ⟨sPowerFailuresAndHeat14, 0, ?_, ?_, ⟨0, ⟨?_, ?_⟩⟩⟩ <;>
      decide +kernel
  · refine ⟨State.reset, 10, ?_, ?_⟩ <;>
      decide +kernel
  · refine ⟨sPowerFailuresAndHeat4, ?_⟩ <;>
      decide +kernel
  · refine ⟨State.reset, 10, 85, ?_, ?_, ?_, ?_⟩ <;>
      decide +kernel
  · refine ⟨State.reset, 10, 10, ?_, ?_, ?_⟩ <;>
      decide +kernel
  · refine ⟨sPowerFailuresAndHeat12, 15, ?_, ?_, ?_⟩ <;>
      decide +kernel
  · refine ⟨State.reset, 10, ?_, ?_, ?_⟩ <;>
      decide +kernel
  · refine ⟨State.reset, 10, 190, ?_, ?_, ?_⟩ <;>
      decide +kernel
  · refine ⟨State.reset, 84, ?_⟩ <;>
      decide +kernel

/-- A state of the witnesses of `ControlToken`. -/
def sControlToken0 : State :=
  { carillon := { cb := 1, powered := true, token := some 0 } }

/-- A state of the witnesses of `ControlToken`. -/
def sControlToken1 : State :=
  { carillon := { cb := 1, powered := true }, us := 10000 }

/-- A state of the witnesses of `ControlToken`. -/
def sControlToken2 : State :=
  { carillon := { cb := 1, powered := true } }

/-- A state of the witnesses of `ControlToken`. -/
def sControlToken3 : State :=
  { carillon := { cb := 3 } }

/-- A state of the witnesses of `ControlToken`. -/
def sControlToken4 : State :=
  { carillon := { cb := 2, missed := [(2, 2), (3, 2)] } }

/-- A state of the witnesses of `ControlToken`. -/
def sControlToken6 : State :=
  { carillon := { token := some 0, cb := 2 } }

/-- A state of the witnesses of `ControlToken`. -/
def sControlToken7 : State :=
  { carillon := { token := some 0, cb := 2, missed := [(0, 3), (1, 3)] } }

/-- A state of the witnesses of `ControlToken`. -/
def sControlToken8 : State :=
  { carillon := { token := some 1, cb := 2 } }

/-- A state of the witnesses of `ControlToken`. -/
def sControlToken9 : State :=
  { carillon := { token := some 1, ca := 2, cb := 3, standbyUs := some 0 }, us := 10000000 }

theorem wit_ControlToken :
    (∃ (s : State), ∃ (c : Nat), c < 2 ∧ ctrlState s c = 1 ∧ s.carillon.powered = true ∧ s.carillon.token.isSome = true) ∧
    (∃ (s : State), ∃ (c : Nat), c < 2 ∧ ctrlState s c = 1 ∧ s.carillon.powered = true ∧ s.carillon.token = none ∧ (c =
    0 ∨ 10000 ≤ s.us)) ∧
    (∃ (s : State), ∃ (c : Nat), c < 2 ∧ ctrlState s c = 1 ∧ s.carillon.powered = true ∧ s.carillon.token = none ∧ c =
    1 ∧ s.us < 10000) ∧
    (∃ (s : State), ∃ (c : Nat), c < 2 ∧ ctrlState s c = 1 ∧ s.carillon.powered = true) ∧
    (∃ (s : State), ∃ (c : Nat), (2 ≤ c ∨ ctrlState s c ≠ 1 ∨ s.carillon.powered = false)) ∧
    (∃ (s : State), ∃ (c : Nat), (2 ≤ c ∨ ctrlState s c ≠ 2 ∧ ctrlState s c ≠ 3)) ∧
    (∃ (s : State), ∃ (c : Nat), c < 2 ∧ (ctrlState s c = 2 ∨ ctrlState s c = 3) ∧ missedOn s c 0 < 2 ∧ missedOn s c 1
    < 2) ∧
    (∃ (s : State), ∃ (c : Nat), (s.carillon.token = none ∨ 2 ≤ c ∨ s.carillon.token = some c ∨ ctrlState s c ≠ 2)) ∧
    (∃ (s : State), ∃ (c : Nat), c < 2 ∧ (ctrlState s c = 2 ∨ ctrlState s c = 3)) ∧
    (∃ (s : State), ∃ (c : Nat), c < 2 ∧ (ctrlState s c = 2 ∨ ctrlState s c = 3) ∧ ctrlState s c = 2 ∧ 2 ≤ missedOn s c
    0 ∧ 2 ≤ missedOn s c 1) ∧
    (∃ (s : State), ∃ (c : Nat), c < 2 ∧ (ctrlState s c = 2 ∨ ctrlState s c = 3) ∧ 2 ≤ missedOn s c 0 ∧ mgetD
    s.carillon.pathFault 0 false = false) ∧
    (∃ (s : State), ∃ (c : Nat), c < 2 ∧ (ctrlState s c = 2 ∨ ctrlState s c = 3) ∧ 2 ≤ missedOn s c 1 ∧ mgetD
    s.carillon.pathFault 1 false = false) ∧
    (∃ (s : State), ∃ (c h : Nat), c < 2 ∧ s.carillon.token = some h ∧ h ≠ c ∧ h < 2 ∧ ctrlState s c = 2) ∧
    (∃ (s : State), ∃ (c h : Nat), c < 2 ∧ s.carillon.token = some h ∧ h ≠ c ∧ h < 2 ∧ ctrlState s c = 2 ∧ (missedOn s
    h 0 < 3 ∨ missedOn s h 1 < 3)) ∧
    (∃ (s : State), ∃ (c h : Nat), c < 2 ∧ s.carillon.token = some h ∧ h ≠ c ∧ h < 2 ∧ ctrlState s c = 2 ∧ 3 ≤ missedOn
    s h 0 ∧ 3 ≤ missedOn s h 1) ∧
    (∃ (s : State), ∃ (c : Nat), s.carillon.token = some c ∧ c < 2 ∧ ctrlState s c = 2) ∧
    (∃ (s : State), (∀ c, s.carillon.token = some c → ctrlState s c ≠ 2)) ∧
    (∃ (s : State), (s.carillon.token ≠ some 1 ∨ s.carillon.ca ≠ 2 ∨ s.carillon.cb ≠ 3 ∨ s.carillon.standbyUs = none ∨
    (∃ x, s.carillon.standbyUs = some x ∧ s.us < x + 10000000) ∨ quiet s = false ∨ s.carillon.pathFault.any (fun e =>
    e.2) = true)) ∧
    (∃ (s : State), s.carillon.powered = false) ∧
    (∃ (s : State), ∃ (since : Nat), s.carillon.token = some 1 ∧ s.carillon.ca = 2 ∧ s.carillon.cb = 3 ∧
    s.carillon.standbyUs = some since ∧ since + 10000000 ≤ s.us ∧ quiet s = true ∧ s.carillon.pathFault.any (fun e =>
    e.2) = false) ∧
    (∃ (s : State), s.carillon.powered = true) := by
  refine ⟨?_, ?_, ?_, ?_, ?_, ?_, ?_, ?_, ?_, ?_, ?_, ?_, ?_, ?_, ?_, ?_, ?_, ?_, ?_, ?_, ?_⟩
  · refine ⟨sControlToken0, 1, ?_, ?_, ?_, ?_⟩ <;>
      decide +kernel
  · refine ⟨sControlToken1, 1, ?_, ?_, ?_, ?_, ?_⟩ <;>
      decide +kernel
  · refine ⟨sControlToken2, 1, ?_, ?_, ?_, ?_, ?_, ?_⟩ <;>
      decide +kernel
  · refine ⟨sControlToken0, 1, ?_, ?_, ?_⟩ <;>
      decide +kernel
  · refine ⟨sControlToken0, 0, ?_⟩ <;>
      decide +kernel
  · refine ⟨sControlToken0, 1, ?_⟩ <;>
      decide +kernel
  · refine ⟨sControlToken3, 1, ?_, ?_, ?_, ?_⟩ <;>
      decide +kernel
  · refine ⟨sControlToken0, 1, ?_⟩ <;>
      decide +kernel
  · refine ⟨sControlToken3, 1, ?_, ?_⟩ <;>
      decide +kernel
  · refine ⟨sControlToken4, 1, ?_, ?_, ?_, ?_, ?_⟩ <;>
      decide +kernel
  · refine ⟨sControlToken4, 1, ?_, ?_, ?_, ?_⟩ <;>
      decide +kernel
  · refine ⟨sControlToken4, 1, ?_, ?_, ?_, ?_⟩ <;>
      decide +kernel
  · refine ⟨sControlToken6, 1, 0, ?_, ?_, ?_, ?_, ?_⟩ <;>
      decide +kernel
  · refine ⟨sControlToken6, 1, 0, ?_, ?_, ?_, ?_, ?_, ?_⟩ <;>
      decide +kernel
  · refine ⟨sControlToken7, 1, 0, ?_, ?_, ?_, ?_, ?_, ?_, ?_⟩ <;>
      decide +kernel
  · refine ⟨sControlToken8, 1, ?_, ?_, ?_⟩ <;>
      decide +kernel
  · exact ⟨sControlToken0, (opt_all (by decide +kernel))⟩
  · exact ⟨sControlToken0,
    (by first | exact Or.inl (by decide +kernel) | exact Or.inr (Or.inl (by decide +kernel)) | exact Or.inr (Or.inr (Or.inl (by decide +kernel))) | exact Or.inr (Or.inr (Or.inr (Or.inl (by decide +kernel)))) | exact Or.inr (Or.inr (Or.inr (Or.inr (Or.inl (opt_ex (by decide +kernel)))))) | exact Or.inr (Or.inr (Or.inr (Or.inr (Or.inr (Or.inl (by decide +kernel)))))) | exact Or.inr (Or.inr (Or.inr (Or.inr (Or.inr (Or.inr (by decide +kernel)))))))⟩
  · refine ⟨sControlToken3, ?_⟩ <;>
      decide +kernel
  · refine ⟨sControlToken9, 0, ?_, ?_, ?_, ?_, ?_, ?_, ?_⟩ <;>
      decide +kernel
  · refine ⟨sControlToken0, ?_⟩ <;>
      decide +kernel

/-- A state of the witnesses of `StandbyNotReady`. -/
def sStandbyNotReady0 : State :=
  { carillon := { cb := 2 } }

theorem wit_StandbyNotReady :
    (∃ (s : State), ∃ (bus : Nat), ∃ (c : Instr), ∃ (what : String), bus < 2 ∧ ctrlState s bus = 2 ∧ (c, what) ∈
    [(Instr.pldmGetTid bus, "GetTID"), (.pldmGetPldmTypes bus, "GetPLDMTypes"), (.pldmGetStatus bus, "GetStatus"),
    (.pldmCancelUpdate bus, "CancelUpdate"), (.pldmActivateFirmware bus, "ActivateFirmware"), (.pldmRequestUpdate bus,
    "RequestUpdate"), (.pldmGetPdrRepositoryInfo bus, "GetPDRRepositoryInfo"), (.effecterChipReset bus,
    "EFFECTER_RESET")]) ∧
    (∃ (s : State), ∃ (bus n : Nat), ∃ (c : Instr), ∃ (what : String), bus < 2 ∧ ctrlState s bus = 2 ∧ (c, what) ∈
    [(Instr.pldmSetTid bus n, "SetTID"), (.pldmGetPldmVersion bus n, "GetPLDMVersion"), (.pldmGetPldmCommands bus n,
    "GetPLDMCommands"), (.pldmSetEventReceiver bus n, "SetEventReceiver"), (.pldmGetSensorReading bus n,
    "GetSensorReading"), (.pldmGetStateSensorReadings bus n, "GetStateSensorReadings"), (.pldmGetPdr bus n, "GetPDR"),
    (.effecterPowerState bus n, "EFFECTER_POWER"), (.pldmUpdateComponent bus n, "UpdateComponent")]) ∧
    (∃ (s : State), ∃ (bus : Nat), bus < 2 ∧ ctrlState s bus = 2) ∧
    (∃ (s : State), ∃ (bus : Nat), bus < 2 ∧ ctrlState s bus = 2) ∧
    (∃ (s : State), ∃ (bus : Nat), bus < 2 ∧ ctrlState s bus = 2) := by
  refine ⟨?_, ?_, ?_, ?_, ?_⟩
  · refine ⟨sStandbyNotReady0, 1, Instr.pldmGetTid 1, "GetTID", ?_, ?_, List.mem_cons_self⟩ <;>
      decide +kernel
  · refine ⟨sStandbyNotReady0, 1, 1, Instr.pldmSetTid 1 1, "SetTID", ?_, ?_, List.mem_cons_self⟩ <;>
      decide +kernel
  · refine ⟨sStandbyNotReady0, 1, ?_, ?_⟩ <;>
      decide +kernel
  · refine ⟨sStandbyNotReady0, 1, ?_, ?_⟩ <;>
      decide +kernel
  · refine ⟨sStandbyNotReady0, 1, ?_, ?_⟩ <;>
      decide +kernel

/-- A state of the witnesses of `Pldm`. -/
def sPldm0 : State :=
  { carillon := { cb := 3 } }

/-- A state of the witnesses of `Pldm`. -/
def sPldm1 : State :=
  { carillon := { cb := 3 }, evq := [{}] }

/-- A state of the witnesses of `Pldm`. -/
def sPldm2 : State :=
  { carillon := { cb := 3, samples := [(0x37, 5, 0)] } }

/-- A state of the witnesses of `Pldm`. -/
def sPldm3 : State :=
  { carillon := { cb := 3, samples := [(0x8F, 1, 0)] } }

/-- A state of the witnesses of `Pldm`. -/
def sPldm4 : State :=
  { carillon := { cb := 3 }, power := { moving := some 0 } }

/-- A state of the witnesses of `Pldm`. -/
def sPldm5 : State :=
  { carillon := { cb := 3 }, fw := { staging := some ⟨1, 1024, []⟩ } }

/-- A state of the witnesses of `Pldm`. -/
def sPldm6 : State :=
  { carillon := { cb := 3, upd := 1 } }

/-- A state of the witnesses of `Pldm`. -/
def sPldm7 : State :=
  { carillon := { cb := 3, upd := 2 } }

/-- A state of the witnesses of `Pldm`. -/
def sPldm8 : State :=
  { carillon := { cb := 3, token := some 1, upd := 3 }, fw := { staging := some ⟨1, 1024, []⟩ } }

/-- A state of the witnesses of `Pldm`. -/
def sPldm9 : State :=
  { carillon := { cb := 3, upd := 4 } }

theorem wit_Pldm :
    (∃ (s : State), ∃ (bus : Nat), bus < 2 ∧ ctrlState s bus = 3) ∧
    (∃ (s : State), ∃ (bus tid : Nat), bus < 2 ∧ ctrlState s bus = 3 ∧ 0 < tid ∧ tid < 255) ∧
    (∃ (s : State), ∃ (bus tid : Nat), bus < 2 ∧ ctrlState s bus = 3 ∧ (tid = 0 ∨ 255 ≤ tid)) ∧
    (∃ (s : State), ∃ (bus type v : Nat), bus < 2 ∧ ctrlState s bus = 3 ∧ (type, v) ∈ [(0, 0xF1F1FF00), (2,
    0xF1F2FF00), (5, 0xF1F1FF00)]) ∧
    (∃ (s : State), ∃ (bus type : Nat), bus < 2 ∧ ctrlState s bus = 3 ∧ type ∉ [0, 2, 5]) ∧
    (∃ (s : State), ∃ (bus type m : Nat), bus < 2 ∧ ctrlState s bus = 3 ∧ pldmCommands type = some m) ∧
    (∃ (s : State), ∃ (bus : Nat), bus < 2 ∧ ctrlState s bus = 3) ∧
    (∃ (s : State), ∃ (bus : Nat), ∃ (e : Event), ∃ (rest : List Event), bus < 2 ∧ ctrlState s bus = 3 ∧ s.evq = e ::
    rest) ∧
    (∃ (s : State), ∃ (bus : Nat), ∃ (e : Event), ∃ (rest : List Event), ∃ (ack : Option Nat), bus < 2 ∧ ctrlState s
    bus = 3 ∧ s.evq = e :: rest ∧ ack ≠ some e.id) ∧
    (∃ (s : State), ∃ (bus : Nat), bus < 2 ∧ ctrlState s bus = 3 ∧ s.evq = []) ∧
    (∃ (s : State), ∃ (bus : Nat), bus < 2 ∧ ctrlState s bus = 3) ∧
    (∃ (s : State), ∃ (bus id v us : Nat), bus < 2 ∧ ctrlState s bus = 3 ∧ mget s.carillon.samples id = some (v, us) ∧
    numericId id = true) ∧
    (∃ (s : State), ∃ (bus id v us : Nat), bus < 2 ∧ ctrlState s bus = 3 ∧ mget s.carillon.samples id = some (v, us) ∧
    stateId id = true) ∧
    (∃ (s : State), ∃ (bus id : Nat), bus < 2 ∧ ctrlState s bus = 3 ∧ numericId id = true ∧ mget s.carillon.samples id
    = none) ∧
    (∃ (s : State), ∃ (bus id : Nat), bus < 2 ∧ ctrlState s bus = 3 ∧ stateId id = true ∧ mget s.carillon.samples id =
    none) ∧
    (∃ (s : State), ∃ (bus id : Nat), bus < 2 ∧ ctrlState s bus = 3 ∧ numericId id = false) ∧
    (∃ (s : State), ∃ (bus id : Nat), bus < 2 ∧ ctrlState s bus = 3 ∧ stateId id = false) ∧
    (∃ (s : State), ∃ (bus h i : Nat), bus < 2 ∧ ctrlState s bus = 3 ∧ pdrIds[max 1 h - 1]? = some i) ∧
    (∃ (s : State), ∃ (bus h : Nat), bus < 2 ∧ ctrlState s bus = 3 ∧ pdrIds.length < h) ∧
    (∃ (s : State), ∃ (bus : Nat), bus < 2 ∧ ctrlState s bus = 3 ∧ s.power.moving = none) ∧
    (∃ (s : State), ∃ (bus target : Nat), bus < 2 ∧ ctrlState s bus = 3 ∧ (target = 0 ∨ target = 2 ∨ target = 3) ∧
    s.power.moving ≠ none) ∧
    (∃ (s : State), ∃ (bus target : Nat), bus < 2 ∧ ctrlState s bus = 3 ∧ target ∉ [0, 2, 3]) ∧
    (∃ (s : State), ∃ (bus : Nat), bus < 2 ∧ ctrlState s bus = 3) ∧
    (∃ (s : State), ∃ (bus : Nat), bus < 2 ∧ ctrlState s bus = 3 ∧ ((brState s.fw.bootRec s.fw.bootRec.active = 3 ∨
    s.fw.staging ≠ none))) ∧
    (∃ (s : State), ∃ (bus : Nat), bus < 2 ∧ ctrlState s bus = 3 ∧ (¬ (brState s.fw.bootRec s.fw.bootRec.active = 3 ∨
    s.fw.staging ≠ none)) ∧ s.carillon.upd ≠ 0) ∧
    (∃ (s : State), ∃ (bus : Nat), bus < 2 ∧ ctrlState s bus = 3 ∧ (¬ (brState s.fw.bootRec s.fw.bootRec.active = 3 ∨
    s.fw.staging ≠ none)) ∧ s.carillon.upd = 0) ∧
    (∃ (s : State), ∃ (bus size : Nat), bus < 2 ∧ ctrlState s bus = 3 ∧ s.carillon.upd = 2 ∧ size ≤ 0x1000000 ∧ (¬
    (brState s.fw.bootRec s.fw.bootRec.active = 3 ∨ s.fw.staging ≠ none))) ∧
    (∃ (s : State), ∃ (bus size : Nat), bus < 2 ∧ ctrlState s bus = 3 ∧ s.carillon.upd = 2 ∧ (0x1000000 < size ∨
    (brState s.fw.bootRec s.fw.bootRec.active = 3 ∨ s.fw.staging ≠ none))) ∧
    (∃ (s : State), ∃ (bus : Nat), bus < 2 ∧ ctrlState s bus = 3 ∧ s.carillon.upd = 1) ∧
    (∃ (s : State), ∃ (bus cls id : Nat), bus < 2 ∧ ctrlState s bus = 3 ∧ s.carillon.upd = 1 ∧ (cls ≠ 0x000A ∨ id ≠
    0x4A04)) ∧
    (∃ (s : State), ∃ (bus : Nat), bus < 2 ∧ ctrlState s bus = 3 ∧ s.carillon.upd ≠ 1) ∧
    (∃ (s : State), ∃ (bus : Nat), bus < 2 ∧ ctrlState s bus = 3 ∧ s.carillon.upd ≠ 2) ∧
    (∃ (s : State), ∃ (bus : Nat), bus < 2 ∧ ctrlState s bus = 3 ∧ s.carillon.upd ≠ 4) ∧
    (∃ (s : State), ∃ (bus : Nat), ∃ (data : List Byte), ∃ (k size : Nat), ∃ (got : List Byte), bus < 2 ∧ ctrlState s
    bus = 3 ∧ s.carillon.token = some bus ∧ s.carillon.upd = 3 ∧ data.length ≤ 1024 ∧ s.fw.staging = some ⟨k, size,
    got⟩) ∧
    (∃ (s : State), ∃ (bus : Nat), ∃ (data : List Byte), bus < 2 ∧ ctrlState s bus = 3 ∧ (s.carillon.token ≠ some bus ∨
    s.carillon.upd ≠ 3 ∨ 1024 < data.length)) ∧
    (∃ (s : State), ∃ (bus : Nat), bus < 2 ∧ ctrlState s bus = 3 ∧ s.carillon.upd = 4) := by
  refine ⟨?_, ?_, ?_, ?_, ?_, ?_, ?_, ?_, ?_, ?_, ?_, ?_, ?_, ?_, ?_, ?_, ?_, ?_, ?_, ?_, ?_, ?_, ?_, ?_, ?_, ?_, ?_, ?_, ?_, ?_, ?_, ?_, ?_, ?_, ?_, ?_⟩
  · refine ⟨sPldm0, 1, ?_, ?_⟩ <;>
      decide +kernel
  · refine ⟨sPldm0, 1, 1, ?_, ?_, ?_, ?_⟩ <;>
      decide +kernel
  · refine ⟨sPldm0, 1, 255, ?_, ?_, ?_⟩ <;>
      decide +kernel
  · refine ⟨sPldm0, 1, 0, 4059168512, ?_, ?_, ?_⟩ <;>
      decide +kernel
  · refine ⟨sPldm0, 1, 1, ?_, ?_, ?_⟩ <;>
      decide +kernel
  · refine ⟨sPldm0, 1, 5, 771293184, ?_, ?_, ?_⟩ <;>
      decide +kernel
  · refine ⟨sPldm0, 1, ?_, ?_⟩ <;>
      decide +kernel
  · refine ⟨sPldm1, 1, (List.head (sPldm1.evq) (by decide +kernel)), [], ?_, ?_, ?_⟩ <;>
      decide +kernel
  · refine ⟨sPldm1, 1, (List.head (sPldm1.evq) (by decide +kernel)), [], none, ?_, ?_, ?_, ?_⟩ <;>
      decide +kernel
  · refine ⟨sPldm0, 1, ?_, ?_, ?_⟩ <;>
      decide +kernel
  · refine ⟨sPldm0, 1, ?_, ?_⟩ <;>
      decide +kernel
  · refine ⟨sPldm2, 1, 55, 5, 0, ?_, ?_, ?_, ?_⟩ <;>
      decide +kernel
  · refine ⟨sPldm3, 1, 143, 1, 0, ?_, ?_, ?_, ?_⟩ <;>
      decide +kernel
  · refine ⟨sPldm0, 1, 1, ?_, ?_, ?_, ?_⟩ <;>
      decide +kernel
  · refine ⟨sPldm0, 1, 143, ?_, ?_, ?_, ?_⟩ <;>
      decide +kernel
  · refine ⟨sPldm0, 1, 254, ?_, ?_, ?_⟩ <;>
      decide +kernel
  · refine ⟨sPldm0, 1, 1, ?_, ?_, ?_⟩ <;>
      decide +kernel
  · refine ⟨sPldm0, 1, 1, 1, ?_, ?_, ?_⟩ <;>
      decide +kernel
  · refine ⟨sPldm0, 1, 254, ?_, ?_, ?_⟩ <;>
      decide +kernel
  · refine ⟨sPldm0, 1, ?_, ?_, ?_⟩ <;>
      decide +kernel
  · refine ⟨sPldm4, 1, 0, ?_, ?_, ?_, ?_⟩ <;>
      decide +kernel
  · refine ⟨sPldm0, 1, 1, ?_, ?_, ?_⟩ <;>
      decide +kernel
  · refine ⟨sPldm0, 1, ?_, ?_⟩ <;>
      decide +kernel
  · refine ⟨sPldm5, 1, ?_, ?_, ?_⟩ <;>
      decide +kernel
  · refine ⟨sPldm6, 1, ?_, ?_, ?_, ?_⟩ <;>
      decide +kernel
  · refine ⟨sPldm0, 1, ?_, ?_, ?_, ?_⟩ <;>
      decide +kernel
  · refine ⟨sPldm7, 1, 1, ?_, ?_, ?_, ?_, ?_⟩ <;>
      decide +kernel
  · refine ⟨sPldm7, 1, 16777217, ?_, ?_, ?_, ?_⟩ <;>
      decide +kernel
  · refine ⟨sPldm6, 1, ?_, ?_, ?_⟩ <;>
      decide +kernel
  · refine ⟨sPldm6, 1, 1, 1, ?_, ?_, ?_, ?_⟩ <;>
      decide +kernel
  · refine ⟨sPldm0, 1, ?_, ?_, ?_⟩ <;>
      decide +kernel
  · refine ⟨sPldm0, 1, ?_, ?_, ?_⟩ <;>
      decide +kernel
  · refine ⟨sPldm0, 1, ?_, ?_, ?_⟩ <;>
      decide +kernel
  · refine ⟨sPldm8, 1, List.replicate 1024 0, 1, 1024, [], ?_, ?_, ?_, ?_, ?_, ?_⟩ <;>
      decide +kernel
  · refine ⟨sPldm0, 1, List.replicate 1024 0, ?_, ?_, ?_⟩ <;>
      decide +kernel
  · refine ⟨sPldm9, 1, ?_, ?_, ?_⟩ <;>
      decide +kernel

/-- A state of the witnesses of `ManagementMessages`. -/
def sManagementMessages1 : State :=
  { carillon := { token := some 1, pathUp := true }, evq := [{}] }

/-- A state of the witnesses of `ManagementMessages`. -/
def sManagementMessages2 : State :=
  { carillon := { token := some 1, sentUs := some 0, attempts := 3 }, evq := [{}] }

/-- A state of the witnesses of `ManagementMessages`. -/
def sManagementMessages3 : State :=
  { carillon := { token := some 1, sentUs := some 0, attempts := 2 }, evq := [{}] }

/-- A state of the witnesses of `ManagementMessages`. -/
def sManagementMessages4 : State :=
  { carillon := { cb := 2 } }

/-- A state of the witnesses of `ManagementMessages`. -/
def sManagementMessages5 : State :=
  { carillon := { cb := 3 } }

/-- A state of the witnesses of `ManagementMessages`. -/
def sManagementMessages6 : State :=
  { rset State.reset .dmp 0 0x104 1 with carillon := { cb := 3 }, mem := memWrite [] (stgBase + 0x10) (leBytes 256 4) }

/-- A state of the witnesses of `ManagementMessages`. -/
def sManagementMessages8 : State :=
  { fw := { flash := (List.range 256).map (fun i => (cfgBase 0 + i, cfgRec.getD i 0)) }, carillon := { cb := 3 } }

theorem wit_ManagementMessages :
    (∃ (s : State), (s.carillon.pathUp = false ∨ s.carillon.sentUs ≠ none ∨ s.carillon.token = none ∨ s.evq = [])) ∧
    (∃ (s : State), s.carillon.sentUs = none) ∧
    (∃ (s : State), ∃ (c : Nat), ∃ (e : Event), ∃ (rest : List Event), s.carillon.token = some c ∧ s.evq = e :: rest ∧
    s.carillon.pathUp = true ∧ s.carillon.sentUs = none) ∧
    (∃ (s : State), ∃ (c : Nat), ∃ (e : Event), ∃ (rest : List Event), s.carillon.token = some c ∧ s.evq = e :: rest ∧
    s.carillon.sentUs.isSome = true) ∧
    (∃ (s : State), ∃ (c : Nat), ∃ (e : Event), ∃ (rest : List Event), s.carillon.token = some c ∧ s.evq = e :: rest ∧
    s.carillon.sentUs.isSome = true ∧ 3 ≤ s.carillon.attempts) ∧
    (∃ (s : State), ∃ (c : Nat), ∃ (e : Event), ∃ (rest : List Event), s.carillon.token = some c ∧ s.evq = e :: rest ∧
    s.carillon.sentUs.isSome = true ∧ s.carillon.attempts < 3) ∧
    (∃ (s : State), ∃ (bus n m : Nat), ∃ (ok : Bool), ∃ (b : List Byte), ∃ (ack : Option Nat), ∃ c, (2 ≤ bus ∨
    ctrlState s bus ≠ 2 ∧ ctrlState s bus ≠ 3) ∧ c ∈ [Instr.i3cEntdaa bus n, .mctpSetEndpointId bus n,
    .mctpGetEndpointId bus, .mctpGetVersionSupport bus n, .mctpGetMessageTypeSupport bus, .mctpGetVendorMessageSupport
    bus n, .carStatus bus, .pldmGetTid bus, .pldmSetTid bus n, .pldmGetPldmVersion bus n, .pldmGetPldmTypes bus,
    .pldmGetPldmCommands bus n, .pldmSetEventReceiver bus n, .pldmPollForEvent bus ack, .pldmGetSensorReading bus n,
    .pldmGetStateSensorReadings bus n, .pldmGetPdr bus n, .pldmGetPdrRepositoryInfo bus, .effecterPowerState bus n,
    .effecterChipReset bus, .effecterConfirm bus ok, .pldmRequestUpdate bus, .pldmPassComponentTable bus n m,
    .pldmUpdateComponent bus n, .pldmActivateFirmware bus, .pldmGetStatus bus, .pldmCancelUpdate bus, .mctpDumpRead
    bus n, .configRead bus, .configWrite bus b, .telemetry bus]) ∧
    (∃ (s : State), ∃ (bus : Nat), bus < 2 ∧ (ctrlState s bus = 2 ∨ ctrlState s bus = 3)) ∧
    (∃ (s : State), ∃ (bus eid : Nat), bus < 2 ∧ (ctrlState s bus = 2 ∨ ctrlState s bus = 3) ∧ 0 < eid ∧ eid < 255) ∧
    (∃ (s : State), ∃ (bus eid : Nat), bus < 2 ∧ (ctrlState s bus = 2 ∨ ctrlState s bus = 3) ∧ (eid = 0 ∨ 255 ≤ eid)) ∧
    (∃ (s : State), ∃ (bus : Nat), bus < 2 ∧ (ctrlState s bus = 2 ∨ ctrlState s bus = 3)) ∧
    (∃ (s : State), ∃ (bus type : Nat), ∃ v, bus < 2 ∧ (ctrlState s bus = 2 ∨ ctrlState s bus = 3) ∧ (type, v) ∈
    [(0xFF, 0xF1F3FF00), (0, 0xF1F3FF00), (5, 0xF1F0FF00), (6, 0xF1F1FF00)]) ∧
    (∃ (s : State), ∃ (bus type : Nat), bus < 2 ∧ (ctrlState s bus = 2 ∨ ctrlState s bus = 3) ∧ (type = 1 ∨ type =
    0x7F)) ∧
    (∃ (s : State), ∃ (bus type : Nat), bus < 2 ∧ (ctrlState s bus = 2 ∨ ctrlState s bus = 3) ∧ type ∉ [0xFF, 0, 5, 6,
    1, 0x7F]) ∧
    (∃ (s : State), ∃ (bus sel : Nat), bus < 2 ∧ (ctrlState s bus = 2 ∨ ctrlState s bus = 3) ∧ sel ≠ 0) ∧
    (∃ (s : State), ∃ (bus off : Nat), ∃ (data : List Byte), ∃ (c : Instr), ∃ (what : String), bus < 2 ∧ ctrlState s
    bus = 2 ∧ (c, what) ∈ [(Instr.mctpDumpRead bus off, "DUMP_READ"), (.configRead bus, "CONFIG_READ"), (.configWrite
    bus data, "CONFIG_WRITE"), (.telemetry bus, "TELEMETRY")]) ∧
    (∃ (s : State), ∃ (bus off : Nat), bus < 2 ∧ ctrlState s bus = 3 ∧ dumpHeld s = true ∧ off < dumpSize s) ∧
    (∃ (s : State), ∃ (bus off : Nat), bus < 2 ∧ ctrlState s bus = 3 ∧ dumpHeld s = true ∧ dumpSize s ≤ off) ∧
    (∃ (s : State), ∃ (bus : Nat), bus < 2 ∧ ctrlState s bus = 3 ∧ dumpHeld s = false) ∧
    (∃ (s : State), ∃ (bus : Nat), bus < 2 ∧ ctrlState s bus = 3) ∧
    (∃ (s : State), ∃ (bus : Nat), ∃ (data : List Byte), ∃ (c : Nat), ∃ (old : List Byte), bus < 2 ∧ ctrlState s bus =
    3 ∧ data.length = 256 ∧ cfgOk data = true ∧ cfgPick s = some (c, old)) ∧
    (∃ (s : State), ∃ (bus : Nat), ∃ (data : List Byte), bus < 2 ∧ ctrlState s bus = 3 ∧ data.length = 256 ∧ cfgOk data
    = true ∧ cfgPick s = none) ∧
    (∃ (s : State), ∃ (bus : Nat), ∃ (data : List Byte), bus < 2 ∧ ctrlState s bus = 3 ∧ (data.length ≠ 256 ∨ cfgOk
    data = false)) := by
  refine ⟨?_, ?_, ?_, ?_, ?_, ?_, ?_, ?_, ?_, ?_, ?_, ?_, ?_, ?_, ?_, ?_, ?_, ?_, ?_, ?_, ?_, ?_, ?_⟩
  · refine ⟨State.reset, ?_⟩ <;>
      decide +kernel
  · refine ⟨State.reset, ?_⟩ <;>
      decide +kernel
  · refine ⟨sManagementMessages1, 1, (List.head (sManagementMessages1.evq) (by decide +kernel)), [], ?_, ?_, ?_, ?_⟩ <;>
      decide +kernel
  · refine ⟨sManagementMessages2, 1, (List.head (sManagementMessages2.evq) (by decide +kernel)), [], ?_, ?_, ?_⟩ <;>
      decide +kernel
  · refine ⟨sManagementMessages2, 1, (List.head (sManagementMessages2.evq) (by decide +kernel)), [], ?_, ?_, ?_, ?_⟩ <;>
      decide +kernel
  · refine ⟨sManagementMessages3, 1, (List.head (sManagementMessages3.evq) (by decide +kernel)), [], ?_, ?_, ?_, ?_⟩ <;>
      decide +kernel
  · refine ⟨State.reset, 1, 1, 1, true, List.replicate 256 0, none, Instr.i3cEntdaa 1 1, ?_, List.mem_cons_self⟩ <;>
      decide +kernel
  · refine ⟨sManagementMessages4, 1, ?_, ?_⟩ <;>
      decide +kernel
  · refine ⟨sManagementMessages4, 1, 1, ?_, ?_, ?_, ?_⟩ <;>
      decide +kernel
  · refine ⟨sManagementMessages4, 1, 255, ?_, ?_, ?_⟩ <;>
      decide +kernel
  · refine ⟨sManagementMessages4, 1, ?_, ?_⟩ <;>
      decide +kernel
  · refine ⟨sManagementMessages4, 1, 255, 4059299584, ?_, ?_, ?_⟩ <;>
      decide +kernel
  · refine ⟨sManagementMessages4, 1, 1, ?_, ?_, ?_⟩ <;>
      decide +kernel
  · refine ⟨sManagementMessages4, 1, 254, ?_, ?_, ?_⟩ <;>
      decide +kernel
  · refine ⟨sManagementMessages4, 1, 1, ?_, ?_, ?_⟩ <;>
      decide +kernel
  · refine ⟨sManagementMessages4, 1, 1, List.replicate 256 0, Instr.mctpDumpRead 1 1, "DUMP_READ", ?_, ?_,
    List.mem_cons_self⟩ <;>
      decide +kernel
  · refine ⟨sManagementMessages6, 1, 1, ?_, ?_, ?_, ?_⟩ <;>
      decide +kernel
  · refine ⟨sManagementMessages6, 1, 256, ?_, ?_, ?_, ?_⟩ <;>
      decide +kernel
  · refine ⟨sManagementMessages5, 1, ?_, ?_, ?_⟩ <;>
      decide +kernel
  · refine ⟨sManagementMessages5, 1, ?_, ?_⟩ <;>
      decide +kernel
  · refine ⟨sManagementMessages8, 1, cfgRec, 0, (Option.get (cfgPick sManagementMessages8) (by decide +kernel)).2, ?_, ?_,
    ?_, ?_, ?_⟩ <;>
      decide +kernel
  · refine ⟨sManagementMessages5, 1, cfgRec, ?_, ?_, ?_, ?_, ?_⟩ <;>
      decide +kernel
  · refine ⟨sManagementMessages5, 1, List.replicate 256 0, ?_, ?_, ?_⟩ <;>
      decide +kernel

theorem wit_PacketRoundTrip :
    ∃ (p : Pkt), PktFits p := by
  refine ⟨({ type := tPut, plen := 4, payload := [1, 2, 3, 4] } : Pkt), ⟨⟨?_, ?_, ?_, ?_, ?_, ?_, ?_, ?_⟩, ⟨?_, ?_, ?_, ?_,
    ?_, ?_, ?_, ?_, ?_⟩, ⟨?_, ?_, ?_, ?_⟩, ⟨?_, ?_⟩, ?_, ⟨?_, ?_⟩⟩⟩ <;>
    decide +kernel

/-! ### Single steps and operations, with the values of the manual's worked examples -/

/-- Register Pages, worked example: the XE page of core 743, and its ID. -/
theorem test_xe_page : page .xe 743 = 0x0273B000 ∧ rget State.reset .xe 743 0 = 0x001002E7 := by decide +kernel

/-- Cores, worked encoding: the low word of an FMA. -/
theorem test_fma_word : let w := 0x02573304
    (vOpc w, vD w, vA w, vB w, vC w, vPg w) = (0x04, 3, 3, 7, 5, 2) ∧ (vPn w, vTy w, vSc w) = (false, 0, false) := by
  decide +kernel

/-- Cores, worked example: the size of a save image. -/
theorem test_save_size :
    let sl : Slot := { strands := List.range 16, banks := List.range 4, blocks := List.range 4, streams := List.range 32 }
    (saveOffs sl (128 * 4096)).size = 631552 := by decide +kernel

/-- Host Port, worked example: the CTAG of generation 7 of slot 2 of core 743. -/
theorem test_ctag : mkCtag 743 2 7 = 0x0003D252 := by decide +kernel

/-- Arithmetic, FP8 decoding: 448, the smallest normal of E4M3, NaN, the infinity and the smallest subnormal of E5M2. -/
theorem test_fp8_decode : rne .fp32 (Fmt.e4m3.decode 0x7E) = 0x43E00000 ∧ rne .fp32 (Fmt.e4m3.decode 0x08) = 0x3C800000 ∧
    Fmt.e4m3.decode 0x7F = .nan ∧ rne .fp32 (Fmt.e5m2.decode 0x7C) = 0x7F800000 ∧
    rne .fp32 (Fmt.e5m2.decode 0x01) = 0x37800000 := by decide +kernel

/-- The MMA record of the MXFP4 example, with K = 32 for its one block that is not zero, and SMODE 1. -/
def mxRec : List Byte := padTo ([0, 0, 0x4F, 0x99] ++ leBytes 32 2 ++ leBytes 0 34 ++ leBytes 0x3F400000 4 ++ leBytes 0x3F000000 4) 64

/-- Its operands: the element rows and the scale bytes. -/
def mxIn : MmaIn :=
  { a := fun _ => padTo [0xF3, 0x01] 16, b := fun _ => padTo [0x16, 0x05] 16, sa := fun _ => some [0x7E],
    sb := fun _ => some [0x81], md := fun _ => [], va := fun _ => 0x3F400000, vb := fun _ => 0x3F000000 }

/-- Arithmetic, MXFP4 block with two-level scaling: C[3, 10] = 5.375. -/
theorem test_mxfp4_block : mmaElem mxRec mxIn 3 10 0x40000000 = 0x40AC0000 := by decide +kernel

/-- The write-back record of the MXFP8 example. -/
def wbRec : List Byte := padTo ([1, 0, 0x0F, 0x07] ++ leBytes 0 4 ++ leBytes 0 4 ++ leBytes 64 4 ++ leBytes 0x1000 4 ++ leBytes 0x3F800000 4) 64

/-- Arithmetic, write-back to MXFP8: the scale byte and the elements of 1,000, 300 and 0.01. -/
theorem test_mxfp8_block :
    let b := mxBlock wbRec ([0x447A0000, 0x43960000, 0x3C23D70A].map (fun w => (Fmt.fp32.decode w, 0)) ++
      List.replicate 29 (Num.fin false 0 0, 0))
    b.1 = 0x80 ∧ b.2.take 3 = [0x7E, 0x71, 0x03] := by decide +kernel

/-- Sync Objects, example: 2, then a tally of 4 KiB, then SET 0. -/
theorem test_set_after_tally :
    let o := (syncApply { value := 2 } (.bytes 4096)).1
    o.value = 1026 ∧ (syncApply o (.set 0)).1.value = 0 := by decide +kernel

/-- Gongs, worked example with N = 3: the arrival of C in phase 0 with CUR 2 and NEXT 2 releases phase 0. -/
theorem test_gong_phase :
    let s := { rset State.reset .gng 0 0x10 1 with gong := [(5, { n := 3, enabled := true, cur := 2, next := 2 })] }
    (match exec (.gongArrival 0 0 5 0 .none) s with
      | .next t => decide (gongBar t 0 5 = { n := 3, enabled := true, phase := 1, cur := 2, next := 0 })
      | _ => false) = true := by decide +kernel

/-- Memory Hierarchy, locating a failing row: stack H5, channel 16, pseudo-channel 0, local address 0x246_8A80. -/
theorem test_failing_row : hbmLoc State.reset 2 0x123456780 = (0x60, 0x2468A80) := by decide +kernel

/-- The tables of the four-level walk. -/
def walkMem : Memory :=
  memWrite (memWrite (memWrite (memWrite [] 0x1C0004A0 (leBytes 0x1C001001 8)) 0x1C0016F0 (leBytes 0x1C002001 8)) 0x1C002CB8
    (leBytes 0x1C003101 8)) 0x1C003130 (leBytes 0x0A42000F 8)

/-- Translation, a four-level walk; a SAVE_WRITE and an incoming PUT to the page fault with PERMISSION. -/
theorem test_four_level_walk :
    let s := { State.reset with mem := walkMem }
    (walkFrom s 0 0x4A37B2E6C1A8 accRead 3 0x1C000000).res = .ok 0x0A42C1A8 ∧
    (match (walkFrom s 0 0x4A37B2E6C1A8 accSaveWrite 3 0x1C000000).res with
      | .fault f => decide (f.type = ftPermission) | .ok _ => false) = true ∧
    (match (walkFrom s 0 0x4A37B2E6C1A8 accRemoteWrite 3 0x1C000000).res with
      | .fault f => decide (f.type = ftPermission) | .ok _ => false) = true := by decide +kernel

/-- Rudiments, worked rudiment: the first 24 bytes of TE record 0. -/
theorem test_te_record :
    let r := padTo [0x00, 0x00, 0x1F, 0x33, 0x00, 0x04, 0x00, 0x00, 0x00, 0x10, 0x00, 0x00, 0x00, 0x04, 0x00, 0x00, 0x00, 0x10,
      0x02, 0x00, 0x00, 0x04, 0x00, 0x00] 64
    teValid r = true ∧ (teKind r, teAcc r, teM r, teN r, teK r) = (0, 0, 64, 64, 1024) ∧ teInit r = true ∧
      (teFa r, teFb r) = (3, 3) ∧ (teOff r 0x08, teOff r 0x0C, teOff r 0x10, teOff r 0x14) = (0x1000, 1024, 0x21000, 1024) := by
  decide +kernel

/-- Host Port, worked example: the ring holds at most 10 entries after both doorbells; BAR2 offset 64 GiB is HBM of region 5. -/
theorem test_doorbells :
    let s := modCluster State.reset 41 (fun c => { c with rings := [(0, { head := 250, prod := 250 })] })
    let s := rset s .clu 41 0x808 8
    (match exec (.srDoorbell .car 41 0 256) s with
      | .next t => decide ((ring t 41 0).prod = 256) &&
        (match exec (.srDoorbell .car 41 0 260) t with
          | .next u => decide ((ring u 41 0).prod = 260) && decide (ringCount (ring u 41 0) = 10)
          | _ => false)
      | _ => false) = true := by decide +kernel

/-- Fabric Transport, a sprayed REDUCE-PUT: the header of packet 2. -/
theorem test_reduce_put_header :
    let a : Pkt := { type := tReducePut, dstCoord := 0x2451, dstEndpt := 0x80, srcCoord := 0x1583, srcEndpt := 0x67 }
    let b : Pkt := { a with route := 0x3A50, plen := 4096, srcEpoch := 0x6D2104C3, dstEpoch := 0x1B9E77A0, flow := 2 }
    let c : Pkt := { b with fseq := 2, addr := 0x7F002000, rsig := 9, offset := 0x2000, key := 0x000ADF05 }
    pktHeader c =
    [0x01, 0x05, 0x00, 0x00, 0x51, 0x24, 0x80, 0x00, 0x83, 0x15, 0x67, 0x00, 0x50, 0x3A, 0x00, 0x10, 0xC3, 0x04, 0x21, 0x6D, 0xA0,
      0x77, 0x9E, 0x1B, 0x02, 0x00, 0x00, 0x00, 0x02, 0x00, 0x00, 0x20, 0x00, 0x7F, 0x00, 0x00, 0xFF, 0x00, 0x09, 0x00, 0x00, 0x20,
      0x00, 0x00, 0x05, 0xDF, 0x0A, 0x00, 0, 0, 0, 0, 0, 0, 0, 0, 0, 0, 0, 0, 0, 0, 0, 0] := by decide +kernel

/-- Firmware, worked example: CONFIRM of bundle 2.2 (SVN 4) in slot B makes it VALID, raises the counter to 4 and fails slot A. -/
theorem test_confirm :
    let f : Firmware := { running := some 1, bundle := padTo (List.replicate 0x15 0 ++ [4]) 64 }
    let s : State := { fuses := { count0 := 3, count1 := 3 }, fw := { f with bootRec := { active := 1, stB := 3, svnA := 3 } } }
    let s := { s with fw := { s.fw with bootRec := { s.fw.bootRec with svnB := 4 } } }
    (match exec (.fwConfirm .car true) s with
      | .next t => decide (brState t.fw.bootRec 1 = 1) && decide (brState t.fw.bootRec 0 = 4) && decide (fusedCount t = 4)
      | _ => false) = true := by decide +kernel

/-- The table gives its rows no bits, so a word spells no command, and placing one changes nothing. -/
theorem test_no_table_words : decodeTableWord 32 0 = none ∧ State.reset.withFetchWord 32 0xFFFFFFFF = State.reset :=
  ⟨rfl, rfl⟩

/-! ### Ill-formed commands, one for each check -/

theorem test_ill_formed_boot_s2_bridges : wellFormed (.bootS2 16 []) = false := by rfl
theorem test_ill_formed_register_write_req : wellFormed (.registerWrite (.vf 8) 0 1 0) = false := by rfl
theorem test_ill_formed_register_write_addr : wellFormed (.registerWrite .car 0x4000000 1 0) = false := by rfl
theorem test_ill_formed_register_write_size : wellFormed (.registerWrite .car 0 3 0) = false := by rfl
theorem test_ill_formed_quiesced_reached_pageAddr : wellFormed (.quiescedReached 0x1004) = false := by rfl
theorem test_ill_formed_syn_state_read_core : wellFormed (.synStateRead .car ⟨1152, .none⟩) = false := by rfl
theorem test_ill_formed_island_sensor_sample_islandA : wellFormed (.islandSensorSample 32768 0 0 0) = false := by rfl
theorem test_ill_formed_island_sensor_sample_islandB : wellFormed (.islandSensorSample 0 32768 0 0) = false := by rfl
theorem test_ill_formed_sq_install_slot : wellFormed (.sqInstall .car 0 16) = false := by rfl
theorem test_ill_formed_gong_arrival_bar : wellFormed (.gongArrival 0 0 320 0 .none) = false := by rfl
theorem test_ill_formed_gong_arrival_phase : wellFormed (.gongArrival 0 0 0 4 .none) = false := by rfl
theorem test_ill_formed_barrier_release_receive_bar : wellFormed (.barrierReleaseReceive 0 false 320 ⟨0, .none⟩) = false := by rfl
theorem test_ill_formed_barrier_release_receive_fabric : wellFormed (.barrierReleaseReceive 0 true 256 ⟨0, .none⟩) = false := by rfl
theorem test_ill_formed_barrier_release_receive_phase : wellFormed (.barrierReleaseReceive 0 false 0 ⟨4, .none⟩) = false := by rfl
theorem test_ill_formed_gng_bar_cfg_write_tile : wellFormed (.gngBarCfgWrite .car 4 0 0) = false := by rfl
theorem test_ill_formed_gng_bar_cfg_write_bar : wellFormed (.gngBarCfgWrite .car 0 256 0) = false := by rfl
theorem test_ill_formed_gng_pkg_cfg_write_bar : wellFormed (.gngPkgCfgWrite .car 64 0) = false := by rfl
theorem test_ill_formed_fb_local_arrival_pipe : wellFormed (.fbLocalArrival 8 0 0 0 0) = false := by rfl
theorem test_ill_formed_ve_strand_launch_strand : wellFormed (.veStrandLaunch 0 64) = false := by rfl
theorem test_ill_formed_xe_chain_start_stream : wellFormed (.xeChainStart 0 256) = false := by rfl
theorem test_ill_formed_fault_record_post_mmu : wellFormed (.faultRecordPost 64) = false := by rfl
theorem test_ill_formed_sr_doorbell_clu : wellFormed (.srDoorbell .car 64 0 0) = false := by rfl
theorem test_ill_formed_sr_doorbell_ring : wellFormed (.srDoorbell .car 0 4 0) = false := by rfl
theorem test_ill_formed_cq_post_cq : wellFormed (.cqPost 0 4) = false := by rfl
theorem test_ill_formed_q_dma_error_queue : wellFormed (.qDmaError 0 9) = false := by rfl
theorem test_ill_formed_config_request_func : wellFormed (.configRequest 9 false .busMaster 0) = false := by rfl
theorem test_ill_formed_bar2_write_length : wellFormed (.bar2Write 0 0 (List.replicate 513 0) (List.replicate 513 true)) = false := by
  decide +kernel
theorem test_ill_formed_bar2_write_enables : wellFormed (.bar2Write 0 0 [] [true]) = false := by rfl
theorem test_ill_formed_vf_flr_part : wellFormed (.vfFlr 8) = false := by rfl
theorem test_ill_formed_fab_cmd_enable_port : wellFormed (.fabCmdEnable .car 8) = false := by rfl
theorem test_ill_formed_fab_cmd_retire_lane_lane : wellFormed (.fabCmdRetireLane .car 0 32) = false := by rfl
theorem test_ill_formed_fab_signal_detect_lanes : wellFormed (.fabSignalDetect 0 (2 ^ 17)) = false := by rfl
theorem test_ill_formed_flit_receive_lane : wellFormed (.flitReceive 0 17 (List.replicate 544 0) false false) = false := by
  decide +kernel
theorem test_ill_formed_flit_receive_length : wellFormed (.flitReceive 0 0 [] false false) = false := by rfl
theorem test_ill_formed_flit_receive_symbols : wellFormed (.flitReceive 0 0 (List.replicate 544 1024) false false) = false := by
  decide +kernel
theorem test_ill_formed_lane_ber_window_lane : wellFormed (.laneBerWindow 0 17 0 0) = false := by rfl
theorem test_ill_formed_lane_ber_window_m : wellFormed (.laneBerWindow 0 0 256 0) = false := by rfl
theorem test_ill_formed_lane_ber_window_e : wellFormed (.laneBerWindow 0 0 0 256) = false := by rfl
theorem test_ill_formed_opt_laser_warn_laser : wellFormed (.optLaserWarn 0 5) = false := by rfl
theorem test_ill_formed_opt_refl_start_fibre : wellFormed (.optReflStart .car 0 64) = false := by rfl
theorem test_ill_formed_put_pkt_port : wellFormed (.putPkt 8 0 [] false) = false := by rfl
theorem test_ill_formed_packet_resend_fseq : wellFormed (.packetResend 0 0 ⟨65536, .none⟩) = false := by rfl
theorem test_ill_formed_peer_clear_coord : wellFormed (.peerClear .car 0 65536) = false := by rfl
theorem test_ill_formed_bist_slice_schedule_cls : wellFormed (.bistSliceSchedule 10 0) = false := by rfl
theorem test_ill_formed_set_send_grp : wellFormed (.setSend .car 0 16 .none) = false := by rfl
theorem test_ill_formed_rcv_status_iface : wellFormed (.rcvStatus 2) = false := by rfl
theorem test_ill_formed_dbg_revoke_mask : wellFormed (.dbgRevoke 256) = false := by rfl
theorem test_ill_formed_jtag_instruction_cls : wellFormed (.jtagInstruction 4 0 none) = false := by rfl
theorem test_ill_formed_jtag_instruction_acc : wellFormed (.jtagInstruction 0 0 (some ⟨1152, 0, 0, 0, 0, none⟩)) = false := by rfl
theorem test_ill_formed_ctx_reset_timeout_engines : wellFormed (.ctxResetTimeout 0 0 16) = false := by rfl
theorem test_ill_formed_engine_reset_engine : wellFormed (.engineReset 0 4) = false := by rfl
theorem test_ill_formed_thermal_step_timer_site : wellFormed (.thermalStepTimer 85) = false := by rfl
theorem test_ill_formed_hbm_temp_read_stack : wellFormed (.hbmTempRead 16 none) = false := by rfl
theorem test_ill_formed_hbm_refresh_pc : wellFormed (.hbmRefresh 0 64 0) = false := by rfl
theorem test_ill_formed_patrol_scrub_read_unit : wellFormed (.patrolScrubRead false 64 0 .none) = false := by rfl
theorem test_ill_formed_patrol_scrub_read_sub : wellFormed (.patrolScrubRead false 0 16 .none) = false := by rfl
theorem test_ill_formed_zeroise_complete_unit : wellFormed (.zeroiseComplete 72) = false := by rfl
theorem test_ill_formed_brg_flit_crc_fail_bridge : wellFormed (.brgFlitCrcFail 4 0 0 0) = false := by rfl
theorem test_ill_formed_brg_flit_crc_fail_dir : wellFormed (.brgFlitCrcFail 0 2 0 0) = false := by rfl
theorem test_ill_formed_brg_flit_crc_fail_lane : wellFormed (.brgFlitCrcFail 0 0 0 65) = false := by rfl
theorem test_ill_formed_controller_selftest_done_ctrl : wellFormed (.controllerSelftestDone 2 false) = false := by rfl
theorem test_ill_formed_i3c_entdaa_bus : wellFormed (.i3cEntdaa 2 0) = false := by rfl
theorem test_ill_formed_i3c_entdaa_addr : wellFormed (.i3cEntdaa 0 128) = false := by rfl
theorem test_ill_formed_mctp_set_endpoint_id_eid : wellFormed (.mctpSetEndpointId 0 256) = false := by rfl

/-- R393: at half clock a slice of a staging bank takes half of its region, and the next slice the other half. -/
theorem test_slice_half_region :
    sliceSpan ({ power := { st := 2 } } : State) 0 0 = 8 ∧ sliceSpan State.reset 0 0 = 16 ∧
    (bistNext State.reset { cls := 0, inst := 0, region := 5, len := 8 }).bist.next = [(0, 5)] ∧
    (bistNext State.reset { cls := 0, inst := 0, region := 5, len := 8 }).bist.part = [(0, 8)] := by decide +kernel

end Slice0Tests
end

section
/-!
PROOFS. Accesses of register pages and the step (R8, R11, R12, R56, R195, R531): how an aligned access of four bytes meets the
page that serves it, what recording an error leaves of the conditions of an access, and the statements that follow.
-/
namespace Sys2Proof.Machine

/-! ### Addresses of a page -/

/-- An offset of a page keeps its alignment in the address. -/
theorem page_off_aligned (b : Block) (i : Nat) {off : Nat} (h : off % 4 = 0) : (page b i + off) % 4 = 0 := by
  have hp := page_mod b i
  omega

/-- The page of an address in it. -/
theorem page_of_address (b : Block) (i : Nat) {off : Nat} (h : off < 0x1000) :
    (page b i + off) / 0x1000 * 0x1000 = page b i := by
  have hp := page_mod b i
  omega

/-! ### Writes -/

theorem exec_registerWrite (req : Req) (a size : Nat) (v : BitVec 64) (s : State) :
    exec (.registerWrite req a size v) s = .next (busWrite s req a size v) := rfl

/-- An answered, aligned write of four bytes is one register write (R55). -/
theorem exec_registerWrite_word {s : State} {req : Req} (b : Block) (i : Nat) {off : Nat} (v : BitVec 64)
    (ha : answered s req = true) (h : off % 4 = 0) :
    exec (.registerWrite req (page b i + off) 4 v) s = .next (regWrite s req (page b i + off) (v.setWidth 32)) := by
  rw [exec_registerWrite]
  simp [busWrite, ha, misaligned, page_off_aligned b i h]

/-- A write to a page that takes it reaches the header, or the block where the unit is not retired (R53, R60, R494). -/
theorem regWrite_of_pageTakes {s : State} {req : Req} {b : Block} {i off : Nat} (v : Word) (ho : off < 0x1000)
    (h : PageTakes s req (page b i + off) b i) :
    regWrite s req (page b i + off) v =
      if off < 0x100 then headerWrite s req b i off v
      else if pageRetired s b i then s else writeBlock s req b i off v := by
  have hw : writeOpen s req (page b i + off) = true := by simp [writeOpen, page_of_address b i ho, h.isOpen]
  simp [regWrite, pageOf_page b i off h.inst ho, h.notDir, hw, h.lit]

/-- The blocks whose registers have no behaviour of their own store what is written. -/
theorem writeBlock_plain (s : State) (req : Req) {b : Block} (i off : Nat) (v : Word)
    (hb : b ∈ [Block.thm, .til, .te, .ve, .xe, .syn, .hbm, .stg, .brg]) :
    writeBlock s req b i off v = plainWrite s b i off v := by
  simp only [List.mem_cons, List.not_mem_nil, or_false] at hb
  rcases hb with rfl | rfl | rfl | rfl | rfl | rfl | rfl | rfl | rfl <;> rfl

/-- A plain write of an RW register stores its writable bits (R11, R12). -/
theorem plainWrite_rw (s : State) {b : Block} (i : Nat) {off : Nat} {r : RegRow} (v : Word) (hr : regRow b off = some r)
    (ha : r.acc = .rw) :
    plainWrite s b i off v = rset s b i off ((rget s b i off &&& ~~~r.mask) ||| (v &&& r.mask)) := by
  simp [plainWrite, hr, ha]

/-- Settles O6: SCRATCH is stored by the header write, an RW register of a block without behaviour by the plain write. -/
theorem plainRegisterWrite : Obligations.PlainRegisterWrite := by
  unfold Obligations.PlainRegisterWrite
  constructor
  · intro s req b i v h
    rw [exec_registerWrite_word b i v h.inTime rfl, regWrite_of_pageTakes _ (by decide) h, if_pos (by decide)]
    rfl
  · intro s req b i off r v hb hlo hhi hal hr hacc h halive
    rw [exec_registerWrite_word b i v h.inTime hal, regWrite_of_pageTakes _ hhi h, if_neg (by omega), halive,
      if_neg (by decide), writeBlock_plain s req i off _ hb, plainWrite_rw s i _ hr hacc]

/-! ### Reads -/

theorem exec_rcRegisterRead (req : Req) (a size : Nat) (s : State) :
    exec (.rcRegisterRead req a size) s = .next (busRead s req a size) := rfl

theorem exec_carTimeRead (req : Req) (s : State) :
    exec (.carTimeRead req) s = .next (busRead s req (page .car 0 + 0x118) 4) := rfl

/-- The low 32 bits of a register's value are the register. -/
theorem wd_bits_word (w : Word) : wd (bits w.toNat 0 32) = w := by
  apply BitVec.eq_of_toNat_eq
  simpa [wd, bits] using w.isLt

/-- An answered, aligned read of four bytes sends what one register read gives (R55). -/
theorem busRead_word {s : State} {req : Req} (b : Block) (i : Nat) {off : Nat} (ha : answered s req = true) (h : off % 4 = 0) :
    busRead s req (page b i + off) 4 =
      emit (regRead s req (page b i + off)).1 (.readData req (page b i + off) (regRead s req (page b i + off)).2) := by
  have hm := page_off_aligned b i h
  have hd : (page b i + off) / 4 * 4 = page b i + off := by omega
  simp [busRead, ha, misaligned, hm, hd, wd_bits_word]

/-- A read of a page that serves it, of a register that shows neither 0 nor a free value: the value, and then its effect. -/
theorem regRead_of_open {s : State} {req : Req} {b : Block} {i off : Nat} (hi : i < blockCount b) (ho : off < 0x1000)
    (hopen : pageOpen s req (page b i) = true) (hlit : pageDark s b = false) (hz : readsZero s b i off = false)
    (hf : showsFree s b i off = false) :
    regRead s req (page b i + off) = (regReadEffect s b i off, regView s req b i off) := by
  have hr : readOpen s req (page b i + off) = true := by simp [readOpen, regOpen, page_of_address b i ho, hopen]
  simp [regRead, pageOf_page b i off hi ho, hr, hlit, hz, regValue, hf]

/-- The row of ERR_COUNT is in the header of every page (R51). -/
theorem regRow_errCount (b : Block) : regRow b 0x34 = some ⟨0x34, 4, 1, .rc, 0x0, 0x0⟩ := by
  simp [regRow, headerRows, rowHas]

/-- ERR_COUNT shows no free value. -/
theorem showsFree_errCount (s : State) (b : Block) (i : Nat) : showsFree s b i 0x34 = false := by
  cases b <;> rfl

/-- ERR_COUNT shows the stored count. -/
theorem regView_errCount (s : State) (req : Req) (b : Block) (i : Nat) (h : pageDark s b = false) :
    regView s req b i 0x34 = rget s b i 0x34 := by
  simp [regView, h, regRow_errCount]

/-- A read of ERR_COUNT clears it (R11). -/
theorem regReadEffect_errCount (s : State) (b : Block) (i : Nat) : regReadEffect s b i 0x34 = rset s b i 0x34 0 := by
  simp [regReadEffect, regRow_errCount]

/-- A read of CAR_TIME_LO gives the low word of local time and latches the high one (R531). -/
theorem regRead_carTime {s : State} {req : Req} (hopen : pageOpen s req (page .car 0) = true) :
    regRead s req (page .car 0 + 0x118) = ({ s with timeHi := wd (s.us / 2 ^ 32) }, wd s.us) := by
  have hd : pageDark s .car = false := by simp [pageDark]
  rw [regRead_of_open (by decide) (by decide) hopen hd rfl rfl]
  simp [regView, regReadEffect, hd, pageRetired, viewBlock, viewCar]

/-! ### SYN_STATE_LO -/

/-- The state word of the sync object that SYN_SEL names (R168, R195). -/
def selSyncWord (s : State) (n : Nat) : Nat := syncWord (syncObj s n (fld (rget s .syn n 0x128) 11 0))

/-- A read of SYN_STATE_LO latches the high word of the selected object's state (R195). -/
def latchSync (s : State) (n : Nat) : State := modCore s n (fun c => { c with stateHi := wd (selSyncWord s n / 2 ^ 32) })

theorem regReadEffect_synState (s : State) (n : Nat) : regReadEffect s .syn n 0x12C = latchSync s n := rfl

/-- A read of SYN_STATE_LO of a page that serves it: the low word is sent and the high word latched. -/
theorem busRead_synState {s : State} {req : Req} {n : Nat} (hn : n < 1152) (h : Serves s req .syn n) :
    busRead s req (page .syn n + 0x12C) 4 =
      emit (latchSync s n) (.readData req (page .syn n + 0x12C) (wd (selSyncWord s n))) := by
  have hz : readsZero s .syn n 0x12C = false := by simp [readsZero, h.alive]
  rw [busRead_word .syn n h.inTime rfl, regRead_of_open hn (by decide) h.isOpen h.lit hz rfl, regReadEffect_synState]
  simp [regView, h.alive, h.lit, viewBlock, viewSyn, selSyncWord]

/-- `t` keeps the memory of `s`, and every ERR_STATUS bit set in `s` stays set. -/
structure KeepsErrs (s t : State) : Prop where
  mem : t.mem = s.mem
  bits : ∀ a k, a % 0x1000 = 0x20 → wbit (regGet s a) k = true → wbit (regGet t a) k = true

theorem KeepsErrs.of_regs {s t : State} (hm : t.mem = s.mem) (hr : t.regs = s.regs) : KeepsErrs s t where
  mem := hm
  bits a k _ h := by rwa [regGet_congr hr]

theorem recErr_keepsErrs (s : State) (e : ErrCode) (i sub det : Nat) (c : Word) : KeepsErrs s (recErr s e i sub det c) where
  mem := recErr_mem s e i sub det c
  bits a k := recErr_keeps s e i sub det c a k

/-- A read of SYN_STATE_LO, served or not, keeps memory and the recorded errors. -/
theorem regRead_synState_keepsErrs (s : State) (req : Req) {n : Nat} (hn : n < 1152) :
    KeepsErrs s (regRead s req (page .syn n + 0x12C)).1 := by
  simp only [regRead, pageOf_page .syn n 0x12C hn (by decide)]
  split
  · exact recErr_keepsErrs _ _ _ _ _ _
  · split
    · exact .of_regs rfl rfl
    · exact .of_regs rfl rfl

theorem busRead_synState_keepsErrs (s : State) (req : Req) {n : Nat} (hn : n < 1152) :
    KeepsErrs s (busRead s req (page .syn n + 0x12C) 4) := by
  by_cases ha : answered s req = true
  · rw [busRead_word .syn n ha rfl]
    obtain ⟨hm, hb⟩ := regRead_synState_keepsErrs s req hn
    exact ⟨hm, hb⟩
  · simp only [Bool.not_eq_true] at ha
    simp only [busRead, ha]
    exact .of_regs rfl rfl

/-! ### What an ECC finding of the object store leaves (R198) -/

/-- An error on a page that is no engine's page leaves the cores. -/
theorem recErr_cores (s : State) {e : ErrCode} (i sub det : Nat) (c : Word) (he : pageEngine e.blk = none) :
    (recErr s e i sub det c).cores = s.cores := by
  have hr := (recordOn_rec 4 s (page e.blk i) e.bit e.event false sub det c).cores
  unfold recErr escalateUnit
  dsimp only
  split
  · exact hr
  · split
    · rw [requestChip_cores, (recordOn_rec _ _ _ _ _ _ _ _ _).cores, hr]
    · cases hb : e.blk <;> simp_all [pageEngine]

/-- Recording an error leaves the registers at every offset where no page has a register that it writes. -/
theorem rget_recErr (s : State) (e : ErrCode) (j sub det : Nat) (c : Word) (b : Block) (i : Nat) {off : Nat}
    (hlt : off < 0x1000) (h : off ∉ [0x20, 0x30, 0x34, 0x38, 0x114, 0x124]) :
    rget (recErr s e j sub det c) b i off = rget s b i off := by
  have hp := page_mod b i
  have hcar := page_mod .car 0
  have hpce := page_mod .pce 0
  simp only [List.mem_cons, List.not_mem_nil, or_false, not_or] at h
  obtain ⟨h20, h30, h34, h38, h114, h124⟩ := h
  exact recErr_quiet s e j sub det c _ ⟨by omega, by omega, by omega, by omega, by omega⟩ (by omega)

@[simp] theorem recErr_answered (s : State) (e : ErrCode) (i sub det : Nat) (c : Word) (req : Req) :
    answered (recErr s e i sub det c) req = answered s req := by
  have hb := rget_recErr s e i sub det c .dir 0 (off := 0x30C) (by decide) (by decide)
  unfold answered bootStage
  rw [hb, recErr_host, recErr_fw]

@[simp] theorem recErr_pageOpen (s : State) (e : ErrCode) (j sub det : Nat) (c : Word) (req : Req) (b : Block) (i : Nat) :
    pageOpen (recErr s e j sub det c) req (page b i) = pageOpen s req (page b i) := by
  have hl : regGet (recErr s e j sub det c) (page b i + 0x50) = regGet s (page b i + 0x50) :=
    rget_recErr s e j sub det c b i (by decide) (by decide)
  cases req <;> simp only [pageOpen, hl]
  unfold vfUsable partCount
  rw [recErr_host, recErr_split]

@[simp] theorem recErr_pageRetired (s : State) (e : ErrCode) (j sub det : Nat) (c : Word) (b : Block) (i : Nat) :
    pageRetired (recErr s e j sub det c) b i = pageRetired s b i := by
  simp [pageRetired, cluster]

@[simp] theorem recErr_pageDark (s : State) (e : ErrCode) (j sub det : Nat) (c : Word) (b : Block) :
    pageDark (recErr s e j sub det c) b = pageDark s b := by
  simp [pageDark]

/-- Recording an error changes neither who is answered nor which pages are open, alive and lit. -/
theorem Serves.after_recErr {s : State} {req : Req} {b : Block} {i : Nat} (h : Serves s req b i) (e : ErrCode)
    (j sub det : Nat) (c : Word) : Serves (recErr s e j sub det c) req b i where
  inTime := (recErr_answered s e j sub det c req).trans h.inTime
  isOpen := (recErr_pageOpen s e j sub det c req b i).trans h.isOpen
  alive := (recErr_pageRetired s e j sub det c b i).trans h.alive
  lit := (recErr_pageDark s e j sub det c b).trans h.lit

/-- An ECC error in the object store leaves what SYN_SEL names and its state word. -/
theorem selSyncWord_recErr (s : State) {e : ErrCode} (i sub det : Nat) (c : Word) (n : Nat) (he : pageEngine e.blk = none) :
    selSyncWord (recErr s e i sub det c) n = selSyncWord s n := by
  have hc := core_congr (recErr_cores s i sub det c he) n
  simp [selSyncWord, syncObj, hc, rget_recErr s e i sub det c .syn n (off := 0x128) (by decide) (by decide)]

@[simp] theorem endCtx_regs (s : State) (n k cause err outcome : Nat) : (endCtx s n k cause err outcome).regs = s.regs := by
  unfold endCtx
  dsimp only
  split <;> rfl

@[simp] theorem endCtx_mem (s : State) (n k cause err outcome : Nat) : (endCtx s n k cause err outcome).mem = s.mem := by
  unfold endCtx
  dsimp only
  split <;> rfl

@[simp] theorem corePending_regs (s : State) (n : Nat) : (corePending s n).regs = s.regs := by
  unfold corePending
  split <;> rfl

@[simp] theorem corePending_mem (s : State) (n : Nat) : (corePending s n).mem = s.mem := by
  unfold corePending
  split <;> rfl

/-- A correctable word is recorded, and nothing else happens (R198). -/
theorem synEcc_corr (s : State) (n o : Nat) : ∃ c, synEcc s n o .corr = recErr s eSynStateEccCorr n (o / 64) o c := ⟨_, rfl⟩

/-- An uncorrectable word (R198): beyond its record no register and no memory changes. -/
theorem synEcc_uncorr_frame (s : State) (n o : Nat) : ∃ c,
    (synEcc s n o .uncorr).regs = (recErr s eSynStateEccUncorr n (o / 64) o c).regs ∧ (synEcc s n o .uncorr).mem = s.mem := by
  refine ⟨((objOwner s n o).map (·.1) |>.map (fun k => (slot s n k).ctag)).getD noCtag, ?_⟩
  unfold synEcc
  cases objOwner s n o with
  | none =>
    dsimp only [Option.map, drawWord, noteEcc]
    split <;> simp
  | some own =>
    dsimp only [Option.map, drawWord, noteEcc]
    split <;> simp

theorem synEcc_mem (s : State) (n o : Nat) (ecc : Ecc) : (synEcc s n o ecc).mem = s.mem := by
  cases ecc
  case uncorr => obtain ⟨c, -, hm⟩ := synEcc_uncorr_frame s n o; exact hm
  case corr => exact recErr_mem _ _ _ _ _ _
  all_goals rfl

/-- An uncorrectable word is recorded on the SYN page (R198). -/
theorem synEcc_uncorr_sets (s : State) (n o : Nat) :
    wbit (rget (synEcc s n o .uncorr) .syn n 0x20) eSynStateEccUncorr.bit = true := by
  obtain ⟨c, hr, -⟩ := synEcc_uncorr_frame s n o
  rw [rget_congr hr]
  exact recErr_sets s eSynStateEccUncorr n _ _ c (by decide)

theorem exec_synStateRead (req : Req) (rd : Reader) (s : State) :
    exec (.synStateRead req rd) s =
      .next (busRead (if answered s req && regOpen s req (page .syn rd.no + 0x12C) && !pageRetired s .syn rd.no then
        synEcc s rd.no (fld (rget s .syn rd.no 0x128) 11 0) rd.ecc else s) req (page .syn rd.no + 0x12C) 4) := rfl

/-- SYN_STATE_READ of a page that serves it: the ECC finding, then the read (R195, R198). -/
theorem exec_synStateRead_of_serves {s : State} {req : Req} {rd : Reader} (h : Serves s req .syn rd.no) :
    exec (.synStateRead req rd) s =
      .next (busRead (synEcc s rd.no (fld (rget s .syn rd.no 0x128) 11 0) rd.ecc) req (page .syn rd.no + 0x12C) 4) := by
  have hr : regOpen s req (page .syn rd.no + 0x12C) = true := by
    simp [regOpen, page_of_address .syn rd.no (off := 0x12C) (by decide), h.isOpen]
  simp [exec_synStateRead, h.inTime, hr, h.alive]

/-- A read of SYN_STATE_LO in a state that serves it: the word is sent, its high half latched, and the registers stay. -/
theorem busRead_synState_sends {u : State} {req : Req} {n : Nat} (hn : n < 1152) (h : Serves u req .syn n) :
    (core (busRead u req (page .syn n + 0x12C) 4) n).stateHi = wd (selSyncWord u n / 2 ^ 32) ∧
    Sent (busRead u req (page .syn n + 0x12C) 4) (.readData req (page .syn n + 0x12C) (wd (selSyncWord u n))) ∧
    (busRead u req (page .syn n + 0x12C) 4).regs = u.regs := by
  rw [busRead_synState hn h]
  refine ⟨?_, ?_, rfl⟩
  · rw [core_congr (emit_cores _ _)]
    simp [latchSync]
  · simp [Sent, emit]

/-- A read whose word is corrected: the word is sent and latched as without the error, which is recorded (R198). -/
theorem busRead_synState_corr {s : State} {req : Req} {n : Nat} (hn : n < 1152) (h : Serves s req .syn n) (o : Nat) :
    (core (busRead (synEcc s n o .corr) req (page .syn n + 0x12C) 4) n).stateHi = wd (selSyncWord s n / 2 ^ 32) ∧
    Sent (busRead (synEcc s n o .corr) req (page .syn n + 0x12C) 4)
      (.readData req (page .syn n + 0x12C) (wd (selSyncWord s n))) ∧
    wbit (rget (busRead (synEcc s n o .corr) req (page .syn n + 0x12C) 4) .syn n 0x20) eSynStateEccCorr.bit = true := by
  obtain ⟨c, hc⟩ := synEcc_corr s n o
  rw [hc]
  obtain ⟨hlatch, hsent, hregs⟩ := busRead_synState_sends hn (h.after_recErr eSynStateEccCorr n (o / 64) o c)
  rw [selSyncWord_recErr s n (o / 64) o c n rfl] at hlatch hsent
  refine ⟨hlatch, hsent, ?_⟩
  rw [rget_congr hregs]
  exact recErr_sets s eSynStateEccCorr n (o / 64) o c (by decide)

/-- A read whose word is lost: the error stays recorded (R198). -/
theorem busRead_synState_uncorr (s : State) (req : Req) {n : Nat} (hn : n < 1152) (o : Nat) :
    wbit (rget (busRead (synEcc s n o .uncorr) req (page .syn n + 0x12C) 4) .syn n 0x20) eSynStateEccUncorr.bit = true := by
  have hp := page_mod .syn n
  exact (busRead_synState_keepsErrs _ req hn).bits _ _ (by omega) (synEcc_uncorr_sets s n o)

/-- Settles O8: ERR_COUNT by the row that every header has, SYN_STATE_LO by its ECC findings, CAR_TIME_LO by its view. -/
theorem registerReads : Obligations.RegisterReads := by
  unfold Obligations.RegisterReads
  refine ⟨?_, ?_, ?_⟩
  · intro s req b i hi _ ha hopen hlit
    rw [exec_rcRegisterRead, busRead_word b i ha rfl, regRead_of_open hi (by decide) hopen hlit rfl (showsFree_errCount s b i),
      regReadEffect_errCount, regView_errCount s req b i hlit]
  · intro s req rd hn ha hopen hlit halive
    have hs : Serves s req .syn rd.no := ⟨ha, hopen, halive, hlit⟩
    refine ⟨_, exec_synStateRead_of_serves hs, ?_, ?_, ?_, ?_⟩
    · rw [(busRead_synState_keepsErrs _ req hn).mem, synEcc_mem]
    · intro hecc
      rw [hecc]
      exact busRead_synState_sends hn hs
    · intro hecc
      rw [hecc]
      exact busRead_synState_corr hn hs _
    · intro hecc
      rw [hecc]
      exact busRead_synState_uncorr s req hn _
  · intro s req ha hopen
    rw [exec_carTimeRead, busRead_word .car 0 ha rfl, regRead_carTime hopen]

/-! ### The step -/

/-- Every meaning answers a next state: no command faults or is refused. -/
theorem exec_next (c : Instr) (s : State) : ∃ t, exec c s = .next t := by
  cases c <;> exact ⟨_, rfl⟩

theorem step_front {s : State} {c : Instr} {rest : List Instr} (h : s.pending = c :: rest) :
    step s = exec c { s with pending := rest } := by
  simp only [step, h]

theorem step_empty {s : State} (h : s.pending = []) : step s = .next (tick s) := by
  simp only [step, h]

/-- Settles O3: the front of the queue decides the step, and no meaning stops. -/
theorem stepRunsFront : Obligations.StepRunsFront := by
  unfold Obligations.StepRunsFront
  refine ⟨⟨fun c rest s h => step_front h, fun s h => ⟨tick s, step_empty h, rfl, h, rfl⟩⟩, fun s => ?_⟩
  cases h : s.pending with
  | nil => exact ⟨tick s, step_empty h⟩
  | cons c rest =>
    rw [step_front h]
    exact exec_next c _

end Sys2Proof.Machine
end

/-! ### The invariant of the machine is kept by every step (R26)

One lemma per function of the model that answers a state, named after it: `Inv.f` says that `f` keeps `Inv`. Its proof is
the chain of the lemmas of the operations that the body of `f` calls, in the order of the body, so a proof reads like the
function it is about: `h.recordOn.escalateUnit` for a body that calls `recordOn` and then `escalateUnit`, `h.when (·.rset)`
for one that writes a register under a condition. The combinators for conditions, matches and folds come first. -/

section
namespace Sys2Proof.Machine
variable {α β : Type}

/-- A map of the values leaves the keys as they are. -/
theorem keysRising_map {m : NMap α} {g : Nat × α → Nat × β} (hg : ∀ e, (g e).1 = e.1 := by intro; rfl) :
    keysRising (m.map g) = keysRising m := by
  induction m with
  | nil => rfl
  | cons e t ih =>
    obtain ⟨k, v⟩ := e
    have hk : g (k, v) = (k, (g (k, v)).2) := Prod.ext (hg _) rfl
    rw [List.map_cons, hk, Bool.eq_iff_iff, keysRising_cons, keysRising_cons, ih, List.forall_mem_map]
    simp only [hg]

theorem keysRising_foldl {γ : Type} {f : NMap α → γ → NMap α} {l : List γ} {m : NMap α} (h : keysRising m = true)
    (hf : ∀ {m x}, keysRising m = true → keysRising (f m x) = true) : keysRising (l.foldl f m) = true := by
  induction l generalizing m with
  | nil => exact h
  | cons x l ih => exact ih (hf h)

theorem Memory.wf_filter {m : Memory} (p : Host.Cell → Bool) (h : Memory.wf m = true) :
    Memory.wf (m.filter p) = true := by
  obtain ⟨hkeys, hcells⟩ := (Memory.wf_iff _).1 h
  exact (Memory.wf_iff _).2 ⟨keysRising_filter p hkeys, fun e he => hcells e (List.mem_of_mem_filter he)⟩

end Sys2Proof.Machine
end

section
set_option Elab.async false
namespace Sys2Proof
open Machine

section
variable {α β : Type} {s : State} {p q : State × α} {c : Prop} {inst : Decidable c}

/-- An update of a field that the invariant does not read. -/
protected theorem Inv.frame {t : State} (h : Inv s)
    (ht : (t.mem, t.poison, t.regs, t.cores, t.clusters, t.split) =
      (s.mem, s.poison, s.regs, s.cores, s.clusters, s.split) := by rfl) : Inv t := by
  simp only [Prod.mk.injEq] at ht
  obtain ⟨hm, hp, hr, hc, hl, hs⟩ := ht
  exact ⟨hm ▸ h.mem, hp ▸ h.poison, hr ▸ h.regs, hc ▸ h.cores, hl ▸ h.clusters, hs ▸ h.split⟩

protected theorem Inv.setCarillon {x} (h : Inv s) : Inv { s with carillon := x } :=
  h.frame

protected theorem Inv.setThermal {x} (h : Inv s) : Inv { s with thermal := x } :=
  h.frame

protected theorem Inv.setScrub {x} (h : Inv s) : Inv { s with scrub := x } :=
  h.frame

protected theorem Inv.setField {x y} (h : Inv s) : Inv { s with fieldCores := x, fieldSlices := y } :=
  h.frame

protected theorem Inv.setSetOps {x} (h : Inv s) : Inv { s with setOps := x } :=
  h.frame

protected theorem Inv.setDump {x n} (h : Inv s) : Inv { s with dump := x, draws := n } :=
  h.frame

protected theorem Inv.mapCores {g : Nat × Core → Nat × Core} (h : Inv s) (hg : ∀ e, (g e).1 = e.1) :
    Inv { s with cores := s.cores.map g } :=
  { h with cores := (keysRising_map hg).trans h.cores }

protected theorem Inv.ite {a b : State} (ha : Inv a) (hb : Inv b) : Inv (if c then a else b) := by
  split
  · exact ha
  · exact hb

protected theorem Inv.iteFst (ha : Inv p.1) (hb : Inv q.1) : Inv (if c then p else q).1 := by
  split
  · exact ha
  · exact hb

protected theorem Inv.branch {a b : State} (h : Inv s) (ha : Inv s → Inv a) (hb : Inv s → Inv b) :
    Inv (if c then a else b) :=
  .ite (ha h) (hb h)

protected theorem Inv.branchFst (h : Inv s) (ha : Inv s → Inv p.1) (hb : Inv s → Inv q.1) :
    Inv (if c then p else q).1 :=
  .iteFst (ha h) (hb h)

protected theorem Inv.when {a : State} (h : Inv s) (ha : Inv s → Inv a) : Inv (if c then a else s) :=
  .ite (ha h) h

protected theorem Inv.whenNot {a : State} (h : Inv s) (ha : Inv s → Inv a) : Inv (if c then s else a) :=
  .ite h (ha h)

protected theorem Inv.whenFst {x : α} (h : Inv s) (ha : Inv s → Inv p.1) : Inv (if c then p else (s, x)).1 :=
  .iteFst (ha h) h

protected theorem Inv.whenNotFst {x : α} (h : Inv s) (ha : Inv s → Inv p.1) : Inv (if c then (s, x) else p).1 :=
  .iteFst h (ha h)

/-- A state that the steps after it share. -/
protected theorem Inv.bind {a b : State} (ha : Inv a) (hb : Inv a → Inv b) : Inv b :=
  hb ha

protected theorem Inv.pair {x : α} (h : Inv s) : Inv (s, x).1 :=
  h

protected theorem Inv.pairSnd {x : α} (h : Inv s) : Inv (x, s).2 :=
  h

/-- The state of a pair that a match took apart. -/
protected theorem Inv.ofEq {x : α} (h : Inv p.1) (e : p = (s, x)) : Inv s := by
  rw [e] at h
  exact h

protected theorem Inv.foldl {f : State → β → State} {l : List β} (h : Inv s) (hf : ∀ {s x}, Inv s → Inv (f s x)) :
    Inv (l.foldl f s) := by
  induction l generalizing s with
  | nil => exact h
  | cons x l ih => exact ih (hf h)

protected theorem Inv.foldlFst {f : State × α → β → State × α} {l : List β} (h : Inv p.1)
    (hf : ∀ {p x}, Inv p.1 → Inv (f p x).1) : Inv (l.foldl f p).1 := by
  induction l generalizing p with
  | nil => exact h
  | cons x l ih => exact ih (hf h)

/-- The same with the step's result named, for steps whose body a proof takes apart. -/
protected theorem Inv.foldlEq {f : State × α → β → State × α} {l : List β} (h : Inv p.1)
    (hf : ∀ {p x q}, f p x = q → Inv p.1 → Inv q.1) : Inv (l.foldl f p).1 :=
  h.foldlFst (hf rfl)

end

/-- A command that runs another one and goes on from its answer. -/
theorem Completes.after {c : Instr} {s t : State} (h : Completes c s Inv) : Inv (after t (exec c s)) := by
  obtain ⟨u, hu, hi⟩ := h
  rw [hu]
  exact hi

variable {s : State}

/-! #### Ops -/

protected theorem Inv.regSet {a v} (h : Inv s) : Inv (regSet s a v) :=
  { h with regs := keysRising_mput a v h.regs }

protected theorem Inv.rset {b i off v} (h : Inv s) : Inv (rset s b i off v) :=
  h.regSet

protected theorem Inv.bump {b i off n} (h : Inv s) : Inv (bump s b i off n) :=
  h.rset

protected theorem Inv.bumpUnit {b i off n unit} (h : Inv s) : Inv (bumpUnit s b i off n unit) :=
  h.frame.bump

protected theorem Inv.emit {o} (h : Inv s) : Inv (emit s o) :=
  h.frame

protected theorem Inv.send {m} (h : Inv s) : Inv (send s m) :=
  h.frame

protected theorem Inv.deliver {m} (h : Inv s) : Inv (deliver s m) :=
  h.frame

protected theorem Inv.clearResetReq {f} (h : Inv s) : Inv (clearResetReq s f) := by
  refine { h with regs := (keysRising_map fun e => ?_).trans h.regs }
  split
  · split <;> rfl
  · rfl

protected theorem Inv.drawWord (h : Inv s) : Inv (drawWord s).2 :=
  h.frame.pairSnd

protected theorem Inv.drawWords {k} {s : State} (h : Inv s) : Inv (drawWords s k).2 := by
  unfold drawWords
  split
  · exact h.pairSnd
  · exact h.drawWord.drawWords.pairSnd

protected theorem Inv.leaveA1 (h : Inv s) : Inv (leaveA1 s) :=
  h.when (·.frame)

protected theorem Inv.modCore {n f} (h : Inv s) : Inv (modCore s n f) :=
  { h with cores := keysRising_mput _ _ h.cores }

protected theorem Inv.modSlot {n k f} (h : Inv s) : Inv (modSlot s n k f) :=
  h.modCore

protected theorem Inv.modStrand {n i f} (h : Inv s) : Inv (modStrand s n i f) :=
  h.modCore

protected theorem Inv.modStream {n i f} (h : Inv s) : Inv (modStream s n i f) :=
  h.modCore

protected theorem Inv.modSync {n o f} (h : Inv s) : Inv (modSync s n o f) :=
  h.modCore

protected theorem Inv.modCluster {c f} (h : Inv s) : Inv (modCluster s c f) :=
  { h with clusters := keysRising_mput _ _ h.clusters }

protected theorem Inv.crossBridge {b t n} (h : Inv s) : Inv (crossBridge s b t n) :=
  h.bumpUnit

protected theorem Inv.crossAll {x n route} {s : State} (h : Inv s) : Inv (crossAll s x n route) := by
  unfold crossAll
  split
  · exact h
  · exact h.crossBridge.crossAll

protected theorem Inv.moveBytes {x y n} (h : Inv s) : Inv (moveBytes s x y n) :=
  h.whenNot (·.crossAll)

protected theorem Inv.poisonGranule {g} (h : Inv s) : Inv (poisonGranule s g) :=
  { h with poison := keysRising_mput _ _ h.poison }

protected theorem Inv.writeMem {d bs} (h : Inv s) : Inv (writeMem s d bs) :=
  { h with mem := Memory.wf_memWrite _ _ h.mem, poison := keysRising_foldl h.poison fun hm => keysRising_mdel _ hm }

protected theorem Inv.zeroMem {d len} (h : Inv s) : Inv (zeroMem s d len) :=
  { h with mem := Memory.wf_memZero _ _ h.mem, poison := keysRising_filter _ h.poison }

protected theorem Inv.tagWriter {n off len asid p} (h : Inv s) : Inv (tagWriter s n off len asid p) :=
  h.whenNot (·.modCore)

protected theorem Inv.writeWin {n k off bs} (h : Inv s) : Inv (writeWin s n k off bs) :=
  h.writeMem.tagWriter

protected theorem Inv.writeFor {d bs asid p} (h : Inv s) : Inv (writeFor s d bs asid p) := by
  unfold writeFor
  split
  · exact h.writeMem.tagWriter
  · exact h.writeMem

/-! #### Flags -/

protected theorem Inv.msixSend {f v} (h : Inv s) : Inv (msixSend s f v) :=
  h.emit

protected theorem Inv.queueEvent {e} (h : Inv s) : Inv (queueEvent s e) :=
  h.frame.branch (·.frame) (fun h1 => h1.bump.branch (·.frame) (·.frame))

protected theorem Inv.noteFirst {pg word ctag} (h : Inv s) : Inv (noteFirst s pg word ctag) :=
  h.branch (·.regSet) (·.regSet.regSet)

protected theorem Inv.msixOr {f v bad} (h : Inv s) (hf3 : ∀ {s}, Inv s → Inv (bad s)) : Inv (msixOr s f v bad) :=
  Inv.ite h.msixSend (hf3 h)

protected theorem Inv.intMessage {pg bad} (h : Inv s) (hf2 : ∀ {s}, Inv s → Inv (bad s)) :
    Inv (intMessage s pg bad) := by
  unfold intMessage
  dsimp only
  split
  · exact h.msixOr hf2
  · split
    · exact h.emit
    · split
      · exact h.emit.msixOr hf2
      · split
        · exact hf2 h
        · split
          · exact h.frame
          · exact Inv.ite (h.msixOr hf2) (hf2 h)

protected theorem Inv.recordOn {fuel pg bitNo event inj sub det ctag} {s : State} (h : Inv s) :
    Inv (recordOn fuel s pg bitNo event inj sub det ctag) := by
  unfold recordOn
  split
  · exact h
  · exact h.regSet.whenNot
      (fun h1 => h1.noteFirst.when (fun h2 => h2.queueEvent.when (·.frame.recordOn)) |>.when
        (fun h4 => h4.intMessage (·.emit.recordOn)))

protected theorem Inv.sendInt {pg} (h : Inv s) : Inv (sendInt s pg) :=
  h.intMessage (·.emit.recordOn)

protected theorem Inv.raiseInt {b i bitNo} (h : Inv s) : Inv (raiseInt s b i bitNo) :=
  h.regSet.when (·.sendInt)

protected theorem Inv.requestPart {p cause escalated scrub pg} (h : Inv s) :
    Inv (requestPart s p cause escalated scrub pg) :=
  h.frame

protected theorem Inv.requestChip {cause escalated pg} (h : Inv s) : Inv (requestChip s cause escalated pg) := by
  unfold requestChip
  dsimp only
  split
  · exact h.rset.frame
  · exact h.rset.frame

protected theorem Inv.requestEng {n e cause} (h : Inv s) : Inv (requestEng s n e cause) :=
  h.modCore

protected theorem Inv.escalateUnit {e i} (h : Inv s) : Inv (escalateUnit s e i) := by
  unfold escalateUnit
  dsimp only
  split
  · exact h
  · split
    · exact h.recordOn.requestChip
    · split
      · exact h.branch (·.recordOn.requestPart) (fun h => h.when (·.recordOn.requestEng))
      · exact h

protected theorem Inv.codeReset {e i} (h : Inv s) : Inv (codeReset s e i) :=
  h.whenNot (fun h => h.branch (·.requestEng) (fun h => h.branch (·.requestPart) (fun h => h.when (·.requestChip))))

protected theorem Inv.recErr {e i sub det ctag} (h : Inv s) : Inv (recErr s e i sub det ctag) :=
  h.recordOn.escalateUnit

protected theorem Inv.stateEvent {b i num detail} (h : Inv s) : Inv (stateEvent s b i num detail) :=
  h.queueEvent

protected theorem Inv.powerCycleReq {cause} (h : Inv s) : Inv (powerCycleReq s cause) :=
  h.recordOn

/-! #### MemErr -/

protected theorem Inv.setPageList {stack l} (h : Inv s) : Inv (setPageList s stack l) :=
  h.foldl (fun h1 => by
      split
      · exact h1.rset.rset
      · exact h1.rset.rset) |>.rset

protected theorem Inv.pcPermanent {stack pc dead} (h : Inv s) : Inv (pcPermanent s stack pc dead) :=
  h.whenNot (fun h => h.rset.recErr.when (·.frame.requestPart))

protected theorem Inv.rowPermanent {stack pc row} (h : Inv s) : Inv (rowPermanent s stack pc row) := by
  unfold rowPermanent
  split
  · exact h
  · extract_lets s1 s2 s3 s4 new s5
    have h1 : Inv s1 := h.frame
    have h4 : Inv s4 := h1.recErr.frame.rset
    have h5 : Inv s5 := .ite h4 (.ite h4.recErr.pcPermanent (h4.foldl (·.setPageList.raiseInt.stateEvent)))
    exact h5.when (·.pcPermanent)

protected theorem Inv.setHbmLast {stack pc d unc} (h : Inv s) : Inv (setHbmLast s stack pc d unc) :=
  h.rset.rset

protected theorem Inv.stgRowPermanent {i bank row uncorr} (h : Inv s) : Inv (stgRowPermanent s i bank row uncorr) :=
  h.branch (fun h => h.when (·.requestPart))
    (fun h => h.frame.branch (·.frame.recErr) (fun h1 => h1.rset.recErr.when (·.requestPart)))

protected theorem Inv.corePending {n} (h : Inv s) : Inv (corePending s n) :=
  h.whenNot (·.modCore)

protected theorem Inv.noteEcc {n kind unit} (h : Inv s) : Inv (noteEcc s n kind unit).1 :=
  h.modCore.pair

protected theorem Inv.memCorr {d permanent} (h : Inv s) : Inv (memCorr s d permanent) := by
  unfold memCorr
  split
  · exact h.setHbmLast.bump.recErr.frame.when (·.rowPermanent)
  · exact h.rset.bump.recErr.frame.when (·.stgRowPermanent)
  · exact h.recErr.when (·.corePending)
  · exact h

protected theorem Inv.memUncorr {d ctag} (h : Inv s) : Inv (memUncorr s d ctag) := by
  unfold memUncorr
  split
  · exact h.poisonGranule.setHbmLast.bump.recErr.rowPermanent
  · exact h.poisonGranule.rset.bump.recErr.stgRowPermanent
  · exact h.poisonGranule.recErr.branch (·.noteEcc.corePending) (·.noteEcc)
  · exact h.poisonGranule

protected theorem Inv.memPoisonRead {d ctag} (h : Inv s) : Inv (memPoisonRead s d ctag) := by
  unfold memPoisonRead
  split
  · exact h.recErr
  · exact h.recErr
  · exact h.recErr
  · exact h

protected theorem Inv.checkRead {d len ecc ctag} (h : Inv s) : Inv (checkRead s d len ecc ctag).1 := by
  unfold checkRead
  extract_lets gs pre fresh s1 s2 s3
  have h1 : Inv s1 := by
    unfold s1
    split
    · split
      · exact h.memCorr
      · exact h
    · split
      · exact h.memCorr
      · exact h
    · exact h
  have h2 : Inv s2 := by
    unfold s2
    cases fresh with
    | none => exact h1
    | some x => exact h1.memUncorr
  exact (h2.foldl (·.memPoisonRead)).pair

protected theorem Inv.noteKeyAbsent {d ctag} (h : Inv s) : Inv (noteKeyAbsent s d ctag) := by
  unfold noteKeyAbsent
  split
  · exact h.recErr
  · exact h

protected theorem Inv.readData {d len ctag} (h : Inv s) : Inv (readData s d len ctag).1 :=
  h.branchFst (·.noteKeyAbsent.pair) (·.pair)

protected theorem Inv.writeLive {d bs asid p} (h : Inv s) : Inv (writeLive s d bs asid p) :=
  h.foldl (fun h1 => h1.whenNot (·.writeFor))

protected theorem Inv.writeData {d bs ctag asid p} (h : Inv s) : Inv (writeData s d bs ctag asid p) :=
  h.branch (·.noteKeyAbsent) (fun h => h.branch (·.writeFor) (·.writeLive))

/-! #### Translate -/

protected theorem Inv.mmuWalk {clu p asid va acc j ctag fresh} (h : Inv s) :
    Inv (mmuWalk s clu p asid va acc j ctag fresh).1 := by
  unfold mmuWalk
  refine Inv.iteFst h.bump.pair (.iteFst h.bump.pair ?_)
  split
  extract_lets r _ s1 s2 _ s3
  have h1 : Inv s1 := h.bump.modCluster.foldl (·.moveBytes)
  have h2 : Inv s2 := by
    unfold s2
    split
    · exact h1.noteKeyAbsent
    · exact h1
  have h3 : Inv s3 := by
    unfold s3
    split
    · exact (h2.whenNot (·.memPoisonRead)).recErr
    · exact h2
  split
  · exact h2.modCluster.pair
  · exact (h3.when (·.recErr)).pair

protected theorem Inv.translate {n asid va acc ctag} (h : Inv s) : Inv (Machine.translate s n asid va acc ctag).1 := by
  unfold Machine.translate
  dsimp only
  split
  · exact h.pair
  · split
    · exact h.branchFst (·.pair) (·.pair)
    · split
      · exact h.branchFst (·.bump.modCore.pair) (·.bump.modCore.pair)
      · split
        · exact Inv.pair (by
            split
            · exact h.mmuWalk.modCore
            · exact h.mmuWalk)
        · exact h.mmuWalk.pair

protected theorem Inv.fetchMem {n d len ctag} (h : Inv s) : Inv (fetchMem s n d len ctag).1 :=
  h.moveBytes.readData

protected theorem Inv.storeMem {n d bs ctag asid p} (h : Inv s) : Inv (storeMem s n d bs ctag asid p) :=
  h.moveBytes.writeData

protected theorem Inv.readVa {f n asid acc va off len ctag ecc} (h : Inv s) :
    Inv (readVa f s n asid acc va off len ctag ecc).1 := by
  induction f generalizing s off ecc with
  | zero => exact h
  | succ f ih =>
    generalize hq : readVa (f + 1) s n asid acc va off len ctag ecc = q
    unfold readVa at hq
    dsimp only at hq
    split at hq
    · exact hq ▸ h
    · split at hq
      · next e => exact hq ▸ h.translate.ofEq e
      · next e =>
        split at hq
        · next e2 => exact hq ▸ (h.translate.ofEq e).checkRead.ofEq e2
        · next e2 =>
          have h2 := (h.translate.ofEq e).checkRead.ofEq e2
          split at hq
          · next e3 => exact hq ▸ (ih h2.fetchMem).ofEq e3
          · exact hq ▸ ih h2.fetchMem

protected theorem Inv.writeVa {fuel n asid acc va off bs ctag} {s : State} (h : Inv s) :
    Inv (writeVa fuel s n asid acc va off bs ctag).1 := by
  unfold writeVa
  split
  · exact h.pair
  · split
    · exact h.pair
    · split
      · next _ _ e => exact h.translate.ofEq e |>.pair
      · next _ _ e2 => exact h.translate.ofEq e2 |>.storeMem |>.writeVa

/-! #### ContextOps -/

protected theorem Inv.mirror {n k} (h : Inv s) : Inv (mirror s n k) :=
  h.modCore

protected theorem Inv.traceRec {n k ev step} (h : Inv s) : Inv (traceRec s n k ev step) :=
  h.whenNot (·.writeMem.modCluster)

protected theorem Inv.setSt {n k st} (h : Inv s) : Inv (setSt s n k st) :=
  h.whenNot (fun h => h.modSlot.whenNot (·.traceRec) |>.mirror)

protected theorem Inv.refresh {n k} (h : Inv s) : Inv (refresh s n k) :=
  h.when (·.setSt)

protected theorem Inv.cqPush {clu ring entry} (h : Inv s) : Inv (cqPush s clu ring entry) :=
  h.modCluster

protected theorem Inv.postRecord {clu r} (h : Inv s) : Inv (postRecord s clu r).1 :=
  h.modCluster.when (·.modCluster) |>.when (·.recErr.raiseInt) |>.pair

protected theorem Inv.waitRecord {clu r} (h : Inv s) : Inv (waitRecord s clu r) :=
  h.modCluster

protected theorem Inv.postRec {clu r} (h : Inv s) : Inv (postRec s clu r) :=
  h.branch (·.postRecord) (·.postRecord.waitRecord)

protected theorem Inv.postFault {n k i flags stream desc off} (h : Inv s) :
    Inv (postFault s n k i flags stream desc off) :=
  h.bump.postRec

protected theorem Inv.endCtx {n k cause err outcome} (h : Inv s) : Inv (endCtx s n k cause err outcome) :=
  h.whenNot (·.modSlot)

protected theorem Inv.endGroup {p group cause err} (h : Inv s) : Inv (endGroup s p group cause err) :=
  h.foldl (fun h1 => h1.when (·.modSlot))

protected theorem Inv.errCtx {e n k det} (h : Inv s) : Inv (errCtx s e n k det) :=
  h.recErr.endCtx

protected theorem Inv.wakeStrands {n k} (h : Inv s) : Inv (wakeStrands s n k) :=
  h.foldl (fun h1 => by
      split
      · split
        · exact h1.when (fun h1 => h1.whenNot (·.bump) |>.modSync |>.modStrand)
        · exact h1
      · exact h1)

protected theorem Inv.wake {n k} (h : Inv s) : Inv (wake s n k) :=
  h.when (·.wakeStrands.refresh)

protected theorem Inv.syncOp {n k i op remote} (h : Inv s) : Inv (syncOp s n k i op remote) := by
  unfold syncOp
  split
  · exact h
  · exact h.branch (·.errCtx)
      (fun h => h.bump.when (·.bump) |>.modSync |>.modCore |>.when (·.errCtx) |>.when (·.errCtx))

protected theorem Inv.syncDo {n k i op remote} (h : Inv s) : Inv (syncDo s n k i op remote) :=
  h.syncOp.wake

protected theorem Inv.synEcc {n o ecc} (h : Inv s) : Inv (synEcc s n o ecc) := by
  unfold synEcc
  split
  · exact h.recErr
  · exact Inv.when (Inv.noteEcc (by
      split
      · exact h.recErr.drawWord.drawWord.modSync.endCtx
      · exact h.recErr.drawWord.drawWord.modSync)) (·.corePending)
  · exact h

protected theorem Inv.absorb {n} (h : Inv s) : Inv (absorb s n) :=
  h.bump

protected theorem Inv.leaveSlot {n k outcome} (h : Inv s) : Inv (leaveSlot s n k outcome) := by
  unfold leaveSlot
  extract_lets s1 sl clu s2 s3 objs back s4 s5 s6
  have h1 : Inv s1 := h.traceRec
  have h2 : Inv s2 := by
    unfold s2
    split
    · exact h1.cqPush
    · exact h1
  have h3 : Inv s3 := h2.foldl (·.waitRecord)
  exact h3.frame.modCore.modSlot.mirror

protected theorem Inv.checkDone {n k} (h : Inv s) : Inv (checkDone s n k) :=
  h.refresh.when (·.leaveSlot)

/-! #### Access -/

protected theorem Inv.denied {req a} (h : Inv s) : Inv (denied s req a) :=
  h.recErr

protected theorem Inv.badSize {req a} (h : Inv s) : Inv (badSize s req a) :=
  h.recErr

protected theorem Inv.guardWrite {req b i off f} (h : Inv s) (hf5 : ∀ {s}, Inv s → Inv (f s)) :
    Inv (guardWrite s req b i off f) :=
  Inv.ite h (Inv.ite h.denied (Inv.ite h (hf5 h)))

protected theorem Inv.ringDone {clu ring num entry} (h : Inv s) : Inv (ringDone s clu ring num entry) :=
  h.modCluster.cqPush

protected theorem Inv.sqResult {n k res} (h : Inv s) : Inv (sqResult s n k res) := by
  unfold sqResult
  dsimp only
  split
  · exact h.modCore.rset
  · exact h.modCore.rset.ringDone

protected theorem Inv.sqBusy {n k} (h : Inv s) : Inv (sqBusy s n k) :=
  h.modCore.rset

protected theorem Inv.endGrants {mask} (h : Inv s) : Inv (endGrants s mask) :=
  h.whenNot (·.rset) |>.foldl (fun h1 => h1.rset.foldl (·.modCluster))

/-! #### Maps -/

protected theorem Inv.fieldAdd {l} (h : Inv s) : Inv (fieldAdd s l) :=
  h.whenNot (·.frame)

protected theorem Inv.formMap {clu} (h : Inv s) : Inv (formMap s clu) :=
  h.branch (·.modCluster) (fun h => h.modCluster.when (·.recErr))

protected theorem Inv.retireCore {n cause} (h : Inv s) : Inv (retireCore s n cause) :=
  h.fieldAdd.modCore.recErr

protected theorem Inv.clusterPending {clu cause stops} (h : Inv s) : Inv (clusterPending s clu cause stops) :=
  h.whenNot (fun h => h.whenNot (·.modCluster.recErr) |>.when (·.requestPart))

protected theorem Inv.retireCluster {clu} (h : Inv s) : Inv (retireCluster s clu) :=
  h.fieldAdd.modCluster.formMap

protected theorem Inv.applyPending {p} (h : Inv s) : Inv (applyPending s p) :=
  h.foldl (·.retireCluster) |>.foldl (fun h2 => h2.branch (·.modCore) (·.retireCore)) |>.foldl (·.formMap)

protected theorem Inv.pealStart {part again} (h : Inv s) : Inv (pealStart s part again) :=
  h.foldl (·.modCluster) |>.frame

protected theorem Inv.retireSlice {i} (h : Inv s) : Inv (retireSlice s i) :=
  h.rset.whenNot (·.frame)

protected theorem Inv.zeroRegion {r} (h : Inv s) : Inv (zeroRegion s r) :=
  h.zeroMem.rset.frame

protected theorem Inv.zeroSlice {i} (h : Inv s) : Inv (zeroSlice s i) :=
  h.zeroMem.rset.frame

protected theorem Inv.zeroLocal {p} (h : Inv s) : Inv (zeroLocal s p) :=
  { h with mem := Memory.wf_filter _ h.mem, poison := keysRising_filter _ h.poison }

protected theorem Inv.setRegion {r} (h : Inv s) : Inv (setRegion s r) :=
  h.rset.rset

protected theorem Inv.retirePc {k pc} (h : Inv s) : Inv (retirePc s k pc) :=
  h.rset

protected theorem Inv.retirePcs {r} (h : Inv s) : Inv (retirePcs s r).1 :=
  h.branchFst (·.pair)
    (fun h => h.foldl (·.retirePc) |>.foldl (·.retirePc) |>.foldl (·.rset.rset.rset) |>.frame |>.setRegion |>.pair)

protected theorem Inv.retireMemory {p} (h : Inv s) : Inv (retireMemory s p).1 :=
  h.foldl (·.retireSlice) |>.pair |>.foldlFst (·.retirePcs.pair)

protected theorem Inv.drawHbmKeys {p} (h : Inv s) : Inv (drawHbmKeys s p) := by
  unfold drawHbmKeys
  dsimp only
  exact h.drawWords.frame.foldl (fun h1 => h1.foldl (·.rset))

/-! #### Dump -/

protected theorem Inv.dumpSkip {trigger} (h : Inv s) : Inv (dumpSkip s trigger) :=
  h.bump.recErr

protected theorem Inv.setDumpStatus {held coll trigger size} (h : Inv s) :
    Inv (setDumpStatus s held coll trigger size) :=
  h.rset

protected theorem Inv.setDumpResult {busy res} (h : Inv s) : Inv (setDumpResult s busy res) :=
  h.rset

protected theorem Inv.dumpStart {trigger pg scope core} (h : Inv s) : Inv (dumpStart s trigger pg scope core) :=
  h.branch (·.dumpSkip) (·.frame.setDumpStatus)

protected theorem Inv.dumpTake (h : Inv s) : Inv (dumpTake s) :=
  h.branch (·.dumpSkip.setDumpResult) (fun h => h.branch (·.dumpSkip.setDumpResult) (·.dumpStart.setDumpResult))

protected theorem Inv.dumpRelease (h : Inv s) : Inv (dumpRelease s) :=
  h.branch (·.setDumpResult) (·.zeroMem.setDumpStatus.setDumpResult)

protected theorem Inv.dumpCmd {req hng f} (h : Inv s) (hf3 : ∀ {s}, Inv s → Inv (f s)) : Inv (dumpCmd s req hng f) :=
  h.branch (·.guardWrite hf3) (·.guardWrite hf3)

protected theorem Inv.execDumpTake {req hng} (h : Inv s) : Completes (.dumpTake req hng) s Inv :=
  ⟨_, rfl, h.dumpCmd (·.dumpTake)⟩

protected theorem Inv.execDumpRelease {req hng} (h : Inv s) : Completes (.dumpRelease req hng) s Inv :=
  ⟨_, rfl, h.dumpCmd (·.dumpRelease)⟩

protected theorem Inv.advanceDump (h : Inv s) : Inv (advanceDump s) :=
  h.rset

protected theorem Inv.execDumpDataRead {req} (h : Inv s) : Completes (.dumpDataRead req) s Inv :=
  ⟨_, rfl, h.whenNot (fun h => h.branch (·.denied.emit) (·.emit.advanceDump))⟩

/-! #### Slots -/

protected theorem Inv.installUnits {n k} (h : Inv s) : Inv (installUnits s n k) :=
  h.foldl (·.zeroMem) |>.modCore |>.modSlot

protected theorem Inv.installNow {n k notify} (h : Inv s) : Inv (installNow s n k notify) :=
  h.branch (·.sqResult) (fun h => h.installUnits.leaveA1.branch (·.modSlot.sqBusy) (·.modSlot.setSt.sqResult))

protected theorem Inv.installCmd {n k notify} (h : Inv s) : Inv (installCmd s n k notify) :=
  h.branch (·.sqResult) (fun h => h.branch (·.modCore.modSlot.sqBusy) (·.installNow))

protected theorem Inv.preemptCmd {n k} (h : Inv s) : Inv (preemptCmd s n k) := by
  unfold preemptCmd
  dsimp only
  split
  · exact h.sqResult
  · exact h.sqResult
  · exact h.sqResult
  · exact h.modSlot.setSt.sqResult

protected theorem Inv.resumeStreams {n k} (h : Inv s) : Inv (resumeStreams s n k) :=
  h.foldl (fun h1 => h1.whenNot (·.modStream))

protected theorem Inv.resumeCmd {n k} (h : Inv s) : Inv (resumeCmd s n k) :=
  h.branch (·.sqResult)
    (fun h => h.resumeStreams.branch (·.modSlot.setSt.sqResult) (·.setSt.wake.checkDone.sqResult))

protected theorem Inv.haltCmd {n k} (h : Inv s) : Inv (haltCmd s n k) :=
  h.branch (·.sqResult) (fun h => h.branch (·.sqResult) (fun h => h.branch (·.modSlot.setSt.sqResult) (·.sqResult)))

protected theorem Inv.unhaltCmd {n k} (h : Inv s) : Inv (unhaltCmd s n k) :=
  h.branch (·.sqResult) (fun h => h.branch (·.sqResult) (·.modSlot.setSt.wake.checkDone.sqResult))

protected theorem Inv.stepCmd {n k} (h : Inv s) : Inv (stepCmd s n k) :=
  h.branch (·.sqResult) (fun h => h.branch (·.sqResult) (fun h => h.branch (·.modSlot.wake.sqResult) (·.sqResult)))

protected theorem Inv.sqPerform {n k op} (h : Inv s) : Inv (sqPerform s n k op) :=
  h.branch (·.sqResult)
    (fun h => h.branch (·.modCore.sqBusy)
      (fun h => h.branch (·.installCmd)
        (fun h => h.branch (·.preemptCmd)
          (fun h => h.branch (·.resumeCmd)
            (fun h => h.branch (·.haltCmd)
              (fun h => h.branch (·.unhaltCmd) (fun h => h.branch (·.stepCmd) (·.sqResult))))))))

protected theorem Inv.sqCmd {req n k op} (h : Inv s) : Inv (sqCmd s req n k op) :=
  h.guardWrite (fun h1 => h1.whenNot (fun h1 => h1.branch (·.recErr) (·.sqPerform)))

protected theorem Inv.execSqInstall {req n k} (h : Inv s) : Completes (.sqInstall req n k) s Inv :=
  ⟨_, rfl, h.sqCmd⟩

protected theorem Inv.execSqPreempt {req n k} (h : Inv s) : Completes (.sqPreempt req n k) s Inv :=
  ⟨_, rfl, h.sqCmd⟩

protected theorem Inv.execSqResume {req n k} (h : Inv s) : Completes (.sqResume req n k) s Inv :=
  ⟨_, rfl, h.sqCmd⟩

protected theorem Inv.execSqHalt {req n k} (h : Inv s) : Completes (.sqHalt req n k) s Inv :=
  ⟨_, rfl, h.sqCmd⟩

protected theorem Inv.execSqUnhalt {req n k} (h : Inv s) : Completes (.sqUnhalt req n k) s Inv :=
  ⟨_, rfl, h.sqCmd⟩

protected theorem Inv.execSqStep {req n k} (h : Inv s) : Completes (.sqStep req n k) s Inv :=
  ⟨_, rfl, h.sqCmd⟩

protected theorem Inv.execSqCmdInvalid {req n k op} (h : Inv s) : Completes (.sqCmdInvalid req n k op) s Inv :=
  ⟨_, rfl, h.sqCmd⟩

protected theorem Inv.execDeferredInstall {n} (h : Inv s) : Completes (.deferredInstall n) s Inv := by
  refine ⟨_, rfl, ?_⟩
  split
  · exact h.whenNot (·.modCore.installNow)
  · exact h

protected theorem Inv.sqFetchFault {n k off i} (h : Inv s) : Inv (sqFetchFault s n k off i) :=
  h.modSlot.recErr.postFault.whenNot (·.setSt)

protected theorem Inv.imageRead {n k off len ecc} (h : Inv s) : Inv (imageRead s n k off len ecc).1 := by
  unfold imageRead
  split
  · next _ _ e => exact h.readVa.ofEq e |>.pair
  · next _ _ _ e2 => exact h.readVa.ofEq e2 |>.sqFetchFault |>.pair
  · next _ _ e3 => exact h.readVa.ofEq e3 |>.endCtx |>.pair

protected theorem Inv.applySyncInit {n k bs cnt} (h : Inv s) : Inv (applySyncInit s n k bs cnt) := by
  unfold applySyncInit
  dsimp only
  exact h.foldl (fun h1 => by
      split
      · exact h1.modSync
      · exact h1)

protected theorem Inv.loadFail {n k det} (h : Inv s) : Inv (loadFail s n k det) :=
  h.errCtx

protected theorem Inv.sectionRecords {n k ty needed ecc} (h : Inv s) : Inv (sectionRecords s n k ty needed ecc).1 := by
  unfold sectionRecords
  dsimp only
  split
  · next _ e => exact h.imageRead.ofEq e |>.pair
  · next _ _ e2 => exact h.imageRead.ofEq e2 |>.pair

protected theorem Inv.presenceCheck {n k ecc} (h : Inv s) : Inv (presenceCheck s n k ecc).1 := by
  unfold presenceCheck
  dsimp only
  split
  · next _ e => exact h.sectionRecords.ofEq e |>.pair
  · next _ _ e2 =>
      split
      · exact h.sectionRecords.ofEq e2 |>.pair
      · split
        · next _ e3 => exact h.sectionRecords.ofEq e2 |>.sectionRecords |>.ofEq e3 |>.pair
        · next _ _ e4 => exact h.sectionRecords.ofEq e2 |>.sectionRecords |>.ofEq e4 |>.pair

protected theorem Inv.loadEnd {n k hdr ib} (h : Inv s) : Inv (loadEnd s n k hdr ib) :=
  h.branch (·.loadFail) (fun h => h.whenNot (·.applySyncInit) |>.modSlot)

protected theorem Inv.loadRest {n k hdr ecc} (h : Inv s) : Inv (loadRest s n k hdr ecc) := by
  unfold loadRest
  dsimp only
  split
  · next _ e => exact h.imageRead.ofEq e
  · next _ _ e2 =>
      split
      · exact h.imageRead.ofEq e2 |>.loadFail
      · split
        · next _ e3 => exact h.imageRead.ofEq e2 |>.presenceCheck |>.ofEq e3
        · next _ e4 => exact h.imageRead.ofEq e2 |>.presenceCheck |>.ofEq e4 |>.loadFail
        · next _ e5 =>
            split
            · exact h.imageRead.ofEq e2 |>.presenceCheck |>.ofEq e5 |>.loadFail
            · split
              · next _ e6 => exact h.imageRead.ofEq e2 |>.presenceCheck |>.ofEq e5 |>.imageRead |>.ofEq e6
              · next _ _ e7 =>
                  exact h.imageRead.ofEq e2 |>.presenceCheck |>.ofEq e5 |>.imageRead |>.ofEq e7 |>.loadEnd

protected theorem Inv.loadCheck {n k ecc} (h : Inv s) : Inv (loadCheck s n k ecc) := by
  unfold loadCheck
  dsimp only
  split
  · exact h
  · split
    · next _ e => exact h.imageRead.ofEq e
    · next _ _ e2 =>
        split
        · next _ e3 => exact h.imageRead.ofEq e2 |>.imageRead |>.ofEq e3
        · next _ _ e4 =>
            exact h.branch (·.imageRead.ofEq e2 |>.imageRead |>.ofEq e4 |>.loadFail)
              (·.imageRead.ofEq e2 |>.imageRead |>.ofEq e4 |>.modSlot |>.loadRest)

/-! #### Steps -/

protected theorem Inv.progRead {n k first len ecc} (h : Inv s) : Inv (progRead s n k first len ecc).1 := by
  unfold progRead
  dsimp only
  split
  · exact h.pair
  · split
    · next _ e => exact h.imageRead.ofEq e |>.pair
    · next _ _ e2 => exact h.imageRead.ofEq e2 |>.pair

protected theorem Inv.prefetch {n k ecc} (h : Inv s) : Inv (prefetch s n k ecc) := by
  unfold prefetch
  dsimp only
  split
  · exact h
  · split
    · next _ e => exact h.imageRead.ofEq e
    · next _ _ e2 =>
        split
        · next _ e3 => exact h.imageRead.ofEq e2 |>.progRead |>.ofEq e3
        · next _ _ e4 =>
            split
            · next _ e5 => exact h.imageRead.ofEq e2 |>.progRead |>.ofEq e4 |>.progRead |>.ofEq e5
            · next _ _ e6 =>
                exact h.imageRead.ofEq e2 |>.progRead |>.ofEq e4 |>.progRead |>.ofEq e6 |>.modSlot |>.refresh

protected theorem Inv.execStepPrefetch {n rd} (h : Inv s) : Completes (.stepPrefetch n rd) s Inv :=
  ⟨_, rfl, h.prefetch⟩

protected theorem Inv.askGrant {n k budget} (h : Inv s) : Inv (askGrant s n k budget) :=
  h.whenNot (fun h => h.when (·.modSlot.recErr) |>.modSlot |>.frame)

protected theorem Inv.returnCharge {n ch} (h : Inv s) : Inv (returnCharge s n ch) :=
  h.frame

protected theorem Inv.addBeat {n k e inc} (h : Inv s) : Inv (addBeat s n k e inc) :=
  h.whenNot (·.modSlot)

protected theorem Inv.consumeWaits {n k ops} (h : Inv s) : Inv (consumeWaits s n k ops) :=
  h.foldl (fun h1 => by
      split
      · exact h1
      · exact h1.branch (·.bump.modSync) (fun h1 => h1.when (·.bump.modSync)))

protected theorem Inv.handChains {n k order entries} (h : Inv s) : Inv (handChains s n k order entries) := by
  unfold handChains
  dsimp only
  exact h.foldl (fun h1 => by
      split
      · exact h1.modStream
      · exact h1)

protected theorem Inv.handStrands {n k order v iter r} (h : Inv s) : Inv (handStrands s n k order v iter r) :=
  h.foldl (fun h1 => by
      split
      · exact h1.modStrand
      · exact h1)

protected theorem Inv.feedTe {n k} (h : Inv s) : Inv (feedTe s n k) :=
  h.foldl (fun h1 => h1.whenNot (·.modCore.modSlot))

protected theorem Inv.handTe {n k order first cnt} (h : Inv s) : Inv (handTe s n k order first cnt) :=
  h.modSlot.feedTe

protected theorem Inv.makeArrival {n k ph bar fabric} (h : Inv s) : Inv (makeArrival s n k ph bar fabric) :=
  h.bump.modSync.modCore.branch (·.send) (·.send)

protected theorem Inv.runSignals {ops n k} {s : State} (h : Inv s) : Inv (runSignals ops s n k) := by
  unfold runSignals
  split
  · exact h.modSlot
  · split
    · exact h
    · split
      · exact h.syncOp.runSignals
      · split
        · exact h.syncOp.runSignals
        · split
          · exact h.syncOp.runSignals
          · split
            · exact h.runSignals
            · exact h.branch (fun h => h.branch (·.errCtx) (·.modSlot.send))
                (fun h => h.branch (·.errCtx)
                  (fun h => h.branch (·.recErr.endGroup) (fun h => h.branch (·.errCtx) (·.makeArrival.runSignals))))

protected theorem Inv.completeStep {n k f} (h : Inv s) : Inv (completeStep s n k f) :=
  Inv.modSlot (by
    split
    · exact h.returnCharge.traceRec.modSlot.modSlot
    · exact h.returnCharge.traceRec.modSlot.runSignals.wake) |>.mirror |>.checkDone

protected theorem Inv.execStepComplete {n k order} (h : Inv s) : Completes (.stepComplete n k order) s Inv := by
  refine ⟨_, rfl, ?_⟩
  split
  · exact h.when (·.completeStep)
  · exact h

protected theorem Inv.completeUpTo {fuel n k order} {s : State} (h : Inv s) : Inv (completeUpTo fuel s n k order) := by
  unfold completeUpTo
  split
  · exact h
  · split
    · exact h
    · exact h.whenNot (fun h => h.completeStep.whenNot (·.completeUpTo))

protected theorem Inv.issueStep {n k r chains} (h : Inv s) : Inv (issueStep s n k r chains) :=
  h.consumeWaits.modSlot.traceRec.addBeat.when (·.handTe) |>.when (·.handStrands) |>.when (·.handChains)
    |>.when (·.errCtx) |>.whenNot (·.completeUpTo) |>.wake

protected theorem Inv.stepPass {n k r ecc} (h : Inv s) : Inv (stepPass s n k r ecc) := by
  unfold stepPass
  dsimp only
  split
  · exact h.errCtx
  · exact h.errCtx
  · split
    · exact h.modSlot.when (·.errCtx) |>.checkDone
    · split
      · exact h.refresh
      · split
        · exact h.askGrant
        · split
          · split
            · exact h.errCtx
            · split
              · next _ e => exact h.imageRead.ofEq e
              · next _ _ e2 =>
                  exact h.branch (·.imageRead.ofEq e2 |>.errCtx)
                    (fun h => h.branch (·.imageRead.ofEq e2 |>.errCtx) (·.imageRead.ofEq e2 |>.issueStep))
          · exact h.issueStep

protected theorem Inv.execStepIssue {n k ecc} (h : Inv s) : Completes (.stepIssue n k ecc) s Inv := by
  refine ⟨_, rfl, ?_⟩
  split
  · exact h
  · split
    · exact h
    · exact h.branch (·.errCtx) (fun h => h.when (·.stepPass))

/-! #### Xe -/

protected theorem Inv.xeErr {e n k i} (h : Inv s) : Inv (xeErr s e n k i) :=
  h.errCtx

protected theorem Inv.modDesc {n ph idx f} (h : Inv s) : Inv (modDesc s n ph idx f) :=
  h.modStream

protected theorem Inv.execXeChainStart {n ph} (h : Inv s) : Completes (.xeChainStart n ph) s Inv := by
  refine ⟨_, rfl, ?_⟩
  dsimp only
  split
  · exact h
  · split
    · exact h
    · exact h.whenNot (·.modStream.modSlot)

protected theorem Inv.enterFaulted {n k} (h : Inv s) : Inv (enterFaulted s n k) :=
  h.branch (·.setSt) (fun h => h.when (·.modSlot.setSt))

protected theorem Inv.postStreamRecord {n ph r} (h : Inv s) : Inv (postStreamRecord s n ph r) :=
  h.branch (·.bump.postRecord) (fun h => h.branch (·.bump.postRecord.waitRecord) (·.bump.postRecord.modStream))

protected theorem Inv.streamFault {n ph k i desc off info coord endpt key} (h : Inv s) :
    Inv (streamFault s n ph k i desc off info coord endpt key) :=
  h.whenNot (·.recErr.postStreamRecord.modStream.enterFaulted)

protected theorem Inv.portIn {n len} (h : Inv s) : Inv (portIn s n len) :=
  h.modCore

protected theorem Inv.portOut {n len} (h : Inv s) : Inv (portOut s n len) :=
  h.modCore

protected theorem Inv.readTable {n k x r ecc} (h : Inv s) : Inv (readTable s n k x r ecc).1 := by
  unfold readTable
  dsimp only
  split
  · exact h.pair
  · split
    · exact h.pair
    · split
      · next _ _ e => exact h.readVa.ofEq e |>.pair
      · next _ _ _ e2 => exact h.readVa.ofEq e2 |>.pair
      · next _ _ e3 => exact h.readVa.ofEq e3 |>.pair

protected theorem Inv.beginDesc {n ph k i r t ti} (h : Inv s) : Inv (beginDesc s n ph k i r t ti) :=
  h.branch (·.xeErr) (·.modStream)

protected theorem Inv.startFetched {n ph k i r ecc} (h : Inv s) : Inv (startFetched s n ph k i r ecc) := by
  unfold startFetched
  dsimp only
  split
  · exact h
  · split
    · split
      · next _ _ _ e => exact h.readTable.ofEq e |>.beginDesc
      · next _ e2 => exact h.readTable.ofEq e2 |>.xeErr
      · next _ _ _ e3 => exact h.readTable.ofEq e3 |>.modStream |>.streamFault
      · next _ _ e4 => exact h.readTable.ofEq e4 |>.endCtx
    · exact h.beginDesc

protected theorem Inv.startDesc {n ph kind ecc} (h : Inv s) : Inv (startDesc s n ph kind ecc) := by
  unfold startDesc
  dsimp only
  split
  · exact h
  · split
    · exact h
    · split
      · exact h
      · split
        · exact h.xeErr
        · split
          · next _ _ _ e => exact h.readVa.ofEq e |>.streamFault
          · next _ _ e2 => exact h.readVa.ofEq e2 |>.endCtx
          · next _ _ e3 =>
              exact h.branch (·.readVa.ofEq e3 |>.startFetched) (fun h => h.whenNot (·.readVa.ofEq e3 |>.xeErr))

protected theorem Inv.execXeCopy {n rd} (h : Inv s) : Completes (.xeCopy n rd) s Inv :=
  ⟨_, rfl, h.startDesc⟩

protected theorem Inv.execXeFill {n rd} (h : Inv s) : Completes (.xeFill n rd) s Inv :=
  ⟨_, rfl, h.startDesc⟩

protected theorem Inv.execXeGather {n rd} (h : Inv s) : Completes (.xeGather n rd) s Inv :=
  ⟨_, rfl, h.startDesc⟩

protected theorem Inv.execXeScatter {n rd} (h : Inv s) : Completes (.xeScatter n rd) s Inv :=
  ⟨_, rfl, h.startDesc⟩

protected theorem Inv.execXeAgen {n rd} (h : Inv s) : Completes (.xeAgen n rd) s Inv :=
  ⟨_, rfl, h.startDesc⟩

protected theorem Inv.execXePut {n rd} (h : Inv s) : Completes (.xePut n rd) s Inv :=
  ⟨_, rfl, h.startDesc⟩

protected theorem Inv.execXeGet {n rd} (h : Inv s) : Completes (.xeGet n rd) s Inv :=
  ⟨_, rfl, h.startDesc⟩

protected theorem Inv.execXeSignal {n rd} (h : Inv s) : Completes (.xeSignal n rd) s Inv :=
  ⟨_, rfl, h.startDesc⟩

protected theorem Inv.execXeAtomic {n rd} (h : Inv s) : Completes (.xeAtomic n rd) s Inv :=
  ⟨_, rfl, h.startDesc⟩

protected theorem Inv.execXeReducePut {n rd} (h : Inv s) : Completes (.xeReducePut n rd) s Inv :=
  ⟨_, rfl, h.startDesc⟩

protected theorem Inv.xeAddr {n k space addr len acc} (h : Inv s) : Inv (xeAddr s n k space addr len acc).1 := by
  unfold xeAddr
  dsimp only
  split
  · exact h.branchFst (·.pair) (·.pair)
  · split
    · split
      · split
        · exact h.pair
        · split
          · next _ _ e => exact h.translate.ofEq e |>.pair
          · next _ _ e2 => exact h.translate.ofEq e2 |>.pair
      · exact h.pair
    · split
      · exact h.pair
      · split
        · next _ _ e3 => exact h.translate.ofEq e3 |>.pair
        · next _ _ e4 => exact h.translate.ofEq e4 |>.pair

protected theorem Inv.xeWrite {n k d bs} (h : Inv s) : Inv (xeWrite s n k d bs) :=
  h.storeMem

protected theorem Inv.readIssue {n ph k i d ecc} (h : Inv s) : Inv (readIssue s n ph k i d ecc) := by
  unfold readIssue
  dsimp only
  refine h.branch (·.xeErr) fun h => ?_
  split
  · next e => exact (Inv.ofEq (.iteFst h.checkRead h.pair) e).endCtx
  · next e1 =>
    have h1 := Inv.ofEq (.iteFst h.checkRead h.pair) e1
    split
    · next e => exact (Inv.ofEq (.iteFst h1.pair h1.xeAddr) e).xeErr
    · next e => exact (Inv.ofEq (.iteFst h1.pair h1.xeAddr) e).streamFault
    · next e2 =>
      have h2 := (Inv.ofEq (.iteFst h1.pair h1.xeAddr) e2)
      split
      · next e => exact (h2.xeAddr.ofEq e).xeErr
      · next e => exact (h2.xeAddr.ofEq e).streamFault
      · next e => exact (h2.xeAddr.ofEq e).branch (·.portOut.xeWrite.modDesc) (·.whenNot (·.modDesc))

protected theorem Inv.execXeReadIssue {n rd} (h : Inv s) : Completes (.xeReadIssue n rd) s Inv := by
  refine ⟨_, rfl, ?_⟩
  dsimp only
  split
  · exact h
  · split
    · exact h
    · split
      · exact h.whenNot (·.readIssue)
      · exact h

protected theorem Inv.xeBufferEcc {n k i} (h : Inv s) : Inv (xeBufferEcc s n k i) :=
  h.recErr.requestEng

protected theorem Inv.readReturn {n ph k i j ecc} (h : Inv s) : Inv (readReturn s n ph k i j ecc) := by
  unfold readReturn
  dsimp only
  split
  · exact h
  · split
    · exact h.modDesc.xeBufferEcc
    · split
      · exact h.modDesc
      · split
        · exact h.modDesc.modDesc
        · split
          · next _ _ e => exact h.modDesc.checkRead.ofEq e |>.endCtx
          · next _ e2 => exact h.modDesc.checkRead.ofEq e2 |>.fetchMem |>.portIn |>.portOut |>.xeWrite |>.modDesc

protected theorem Inv.execXeReadDataReturn {n ph j ecc} (h : Inv s) :
    Completes (.xeReadDataReturn n ph j ecc) s Inv := by
  refine ⟨_, rfl, ?_⟩
  split
  · exact h
  · exact h.readReturn

protected theorem Inv.chainDone {n ph k c} (h : Inv s) : Inv (chainDone s n ph k c) :=
  h.modStream.modSlot.when (·.addBeat) |>.refresh

protected theorem Inv.descComplete {n ph k} (h : Inv s) : Inv (descComplete s n ph k) := by
  unfold descComplete
  dsimp only
  split
  · exact h.modStream.when (·.syncDo) |>.whenNot
      (fun h2 => h2.branch (·.chainDone) (fun h2 => h2.when (·.modStream)))
  · exact h

protected theorem Inv.execXeDescComplete {n ph} (h : Inv s) : Completes (.xeDescComplete n ph) s Inv := by
  refine ⟨_, rfl, ?_⟩
  split
  · exact h
  · exact h.whenNot (·.descComplete)

protected theorem Inv.execXeTranslationFault {n ph info} (h : Inv s) :
    Completes (.xeTranslationFault n ph info) s Inv := by
  refine ⟨_, rfl, ?_⟩
  dsimp only
  split
  · exact h
  · split
    · exact h
    · split
      · exact h.branch (·.streamFault) (·.streamFault)
      · exact h.streamFault

/-! #### Packet -/

protected theorem Inv.modPort {i f} (h : Inv s) : Inv (modPort s i f) :=
  h.frame

protected theorem Inv.sealPkt {p k} (h : Inv s) : Inv (sealPkt s p k).1 := by
  unfold sealPkt
  dsimp only
  split
  · exact h.pair
  · split
    · exact h.rset.recErr.pair
    · split
      · exact h.pair
      · exact h.frame.pair

protected theorem Inv.enqueue {i vc data} (h : Inv s) : Inv (enqueue s i vc data) :=
  h.modPort

protected theorem Inv.transmit {p i k} (h : Inv s) : Inv (transmit s p i k).1 := by
  unfold transmit
  split
  · exact h.send.pair
  · split
    · next _ _ e => exact h.sealPkt.ofEq e |>.moveBytes |>.enqueue |>.pair
    · next _ e2 => exact h.sealPkt.ofEq e2 |>.pair

protected theorem Inv.modPeer {p c f} (h : Inv s) : Inv (modPeer s p c f) :=
  h.frame

protected theorem Inv.answer {p i q type operand payload poison} (h : Inv s) :
    Inv (answer s p i q type operand payload poison) :=
  h.transmit

protected theorem Inv.ack {p i q operand} (h : Inv s) : Inv (ack s p i q operand) :=
  h.answer

protected theorem Inv.holdPkt {pipe table idx k copy d} (h : Inv s) : Inv (holdPkt s pipe table idx k copy d) :=
  h.frame

protected theorem Inv.mgtSend {p k} (h : Inv s) : Inv (mgtSend s p k) := by
  unfold mgtSend
  extract_lets pipe k idx s1
  have h1 : Inv s1 := h.whenNot (·.frame)
  clear_value s1
  refine .ite h.transmit ?_
  split
  · exact h1.transmit
  · exact h1.holdPkt

protected theorem Inv.announceAll {c type operand} (h : Inv s) : Inv (announceAll s c type operand) :=
  h.foldl (fun h1 => h1.when (·.transmit))

/-! #### Peers -/

protected theorem Inv.stopStream {n ph k i e} (h : Inv s) : Inv (stopStream s n ph k i e) :=
  h.whenNot (·.recErr.modStream)

protected theorem Inv.modFb {pipe f g} (h : Inv s) : Inv (modFb s pipe f g) :=
  h.frame

protected theorem Inv.fbEnd {pipe f} (h : Inv s) : Inv (fbEnd s pipe f) :=
  h.modFb.rset.recErr.foldl (·.recErr)

protected theorem Inv.mcFinish {m} (h : Inv s) : Inv (mcFinish s m) := by
  unfold mcFinish
  split
  · exact h.whenNot (·.ack)
  · exact h.recErr.branch (·.frame) (·.ack)

protected theorem Inv.modMc {hit f} (h : Inv s) : Inv (modMc s hit f) := by
  unfold modMc
  split
  · exact h.frame
  · exact h

protected theorem Inv.mcSettle (h : Inv s) : Inv (mcSettle s) :=
  h.frame.foldl (·.mcFinish)

protected theorem Inv.mcPeerDown {p c} (h : Inv s) : Inv (mcPeerDown s p c) :=
  h.frame.mcSettle

protected theorem Inv.mcLost {pipe fseq} (h : Inv s) : Inv (mcLost s pipe fseq) :=
  h.modMc.mcSettle

protected theorem Inv.mcSent {pipe fseq plen} (h : Inv s) : Inv (mcSent s pipe fseq plen) :=
  h.modMc.bumpUnit

protected theorem Inv.retryPkt {hdr} (h : Inv s) : Inv (retryPkt s hdr) := by
  unfold retryPkt
  dsimp only
  split
  · exact h.frame
  · split
    · next _ e => exact h.branch (·.transmit.ofEq e |>.mcSent) (·.transmit.ofEq e)
    · next _ e2 => exact h.branch (·.transmit.ofEq e2 |>.mcLost) (·.transmit.ofEq e2)

protected theorem Inv.retryHeld {p} (h : Inv s) : Inv (retryHeld s p) :=
  h.frame.foldl (·.retryPkt)

protected theorem Inv.retryAllHeld (h : Inv s) : Inv (retryAllHeld s) :=
  h.foldl (·.retryHeld)

protected theorem Inv.endOutstanding {p c e} (h : Inv s) : Inv (endOutstanding s p c e) :=
  h.foldl (fun h1 => h1.foldl (fun h2 => h2.when (·.modStream.stopStream)))

protected theorem Inv.peerDown {p c lost} (h : Inv s) : Inv (peerDown s p c lost) :=
  h.whenNot (fun h => h.modPeer.rset.recErr.raiseInt.endOutstanding.foldl (·.modCore) |>.foldl
    (fun h2 => h2.when (·.fbEnd)) |>.mcPeerDown)

protected theorem Inv.freeze {p k} (h : Inv s) : Inv (freeze s p k) := by
  unfold freeze
  dsimp only
  split
  · exact h
  · split
    · exact h
    · split
      · exact h.bump
      · split
        · exact h.bump
        · exact h.bump.modSync.recErr

protected theorem Inv.peerCheck {p k} (h : Inv s) : Inv (peerCheck s p k).1 :=
  h.branchFst (·.modPeer.pair)
    (fun h => h.branchFst
      (fun h => h.branchFst (·.pair) (fun h => h.branchFst (·.recErr.freeze.pair) (·.peerDown.pair)))
      (·.freeze.pair))

protected theorem Inv.discardPkt {a} (h : Inv s) : Inv (discardPkt s a) :=
  h.bump

protected theorem Inv.takePkt {a data} (h : Inv s) : Inv (takePkt s a data) :=
  h.branch (·.deliver) (fun h => h.when (·.modPort))

protected theorem Inv.arriveCheck {a type data tagOk} (h : Inv s) : Inv (arriveCheck s a type data tagOk).1 :=
  h.branchFst (·.pair)
    (fun h => h.takePkt.when (·.bumpUnit) |>.branchFst (·.discardPkt.recErr.pair)
      (fun h2 => h2.moveBytes.branchFst (·.pair)
        (fun h3 => h3.branchFst
          (fun h3 => h3.branchFst (·.discardPkt.recErr.pair)
            (fun h3 => h3.branchFst (·.discardPkt.recErr.pair) (·.pair)))
          (fun h3 => h3.branchFst (·.discardPkt.recErr.pair) (·.pair)))))

/-! #### Arrive -/

protected theorem Inv.destFault {n k i ctag asid} (h : Inv s) : Inv (destFault s n k i ctag asid) :=
  h.recErr.branch (·.bump) (·.frame.bump.postRec)

protected theorem Inv.spanVa {f n asid acc va len ctag} (h : Inv s) : Inv (spanVa f s n asid acc va len ctag).1 := by
  induction f generalizing s va len with
  | zero => exact h
  | succ f ih =>
    generalize hq : spanVa (f + 1) s n asid acc va len ctag = q
    unfold spanVa at hq
    dsimp only at hq
    split at hq
    · exact hq ▸ h
    · split at hq
      · next e => exact hq ▸ h.translate.ofEq e
      · next e =>
        split at hq
        · next e2 => exact hq ▸ (ih (h.translate.ofEq e)).ofEq e2
        · exact hq ▸ ih (h.translate.ofEq e)

protected theorem Inv.reqSpan {n sl e k} (h : Inv s) : Inv (reqSpan s n sl e k).1 :=
  h.branchFst (·.pair) (fun h => h.branchFst (fun h => h.branchFst (·.pair) (·.recErr.pair)) (·.spanVa))

protected theorem Inv.readSpan {n parts ctag} (h : Inv s) : Inv (readSpan s n parts ctag).1 :=
  h.pair.foldlFst (·.fetchMem.pair)

protected theorem Inv.writeSpan {n parts bs ctag asid p} (h : Inv s) : Inv (writeSpan s n parts bs ctag asid p) :=
  h.pair.foldlFst (·.storeMem.pair)

protected theorem Inv.checkSpan {parts ecc ctag} (h : Inv s) : Inv (checkSpan s parts ecc ctag).1 :=
  h.pair.foldlFst (·.checkRead.pair) |>.pair

protected theorem Inv.spanErr {parts ecc ctag} (h : Inv s) : Inv (spanErr s parts ecc ctag).1 :=
  h.pair.foldlFst (·.checkRead.pair) |>.pair

protected theorem Inv.readSpanZero {n parts ctag} (h : Inv s) : Inv (readSpanZero s n parts ctag).1 :=
  h.pair.foldlFst (·.fetchMem.pair)

protected theorem Inv.reqMemory {n sl a e k ecc} (h : Inv s) : Inv (reqMemory s n sl a e k ecc).1 := by
  unfold reqMemory
  dsimp only
  split
  · next _ _ e => exact h.reqSpan.ofEq e |>.destFault |>.pair
  · next _ _ e2 =>
      split
      · exact h.reqSpan.ofEq e2 |>.portIn |>.portOut |>.writeSpan |>.pair
      · split
        · exact h.reqSpan.ofEq e2 |>.portIn |>.portOut |>.checkSpan |>.readSpanZero |>.pair
        · split
          · split
            · next _ e3 => exact h.reqSpan.ofEq e2 |>.portIn |>.portOut |>.checkSpan |>.ofEq e3 |>.pair
            · next _ e4 =>
                exact h.reqSpan.ofEq e2 |>.portIn |>.portOut
                  |>.branchFst (·.checkSpan.ofEq e4 |>.readSpan |>.bumpUnit |>.writeSpan |>.pair)
                  (·.checkSpan.ofEq e4 |>.readSpan |>.writeSpan |>.pair)
          · exact h.reqSpan.ofEq e2 |>.portIn |>.portOut |>.pair

protected theorem Inv.reqTally {n sl k} (h : Inv s) : Inv (reqTally s n sl k) :=
  h.whenNot (fun h => h.branch (fun h => h.whenNot (·.syncDo))
      (fun h => h.branch (·.syncDo) (fun h => h.branch (·.syncDo) (fun h => h.when (·.syncDo)))))

protected theorem Inv.busyAnswer {a k} (h : Inv s) : Inv (busyAnswer s a k) :=
  h.bump.ack

protected theorem Inv.drainRx {fuel n r} {s : State} (h : Inv s) : Inv (drainRx fuel s n r) := by
  unfold drainRx
  split
  · exact h
  · split
    · exact h
    · split
      · exact h
      · exact h.modCore.when (·.reqTally) |>.ack |>.drainRx

protected theorem Inv.orderedReq {n sl a e k ecc} (h : Inv s) : Inv (orderedReq s n sl a e k ecc) :=
  h.branch (·.busyAnswer) (·.reqMemory.modCore.drainRx)

protected theorem Inv.coreReq {n a k ecc} (h : Inv s) : Inv (coreReq s n a k ecc) := by
  unfold coreReq
  split
  · exact h.absorb.ack
  · split
    · exact h.destFault.ack
    · exact h.branch (·.absorb.ack)
        (fun h => h.branch (·.orderedReq) (fun h => h.branch (·.reqMemory.reqTally) (·.reqMemory) |>.answer))

protected theorem Inv.mcCopy {pipe g pp k m i} (h : Inv s) : Inv (mcCopy s pipe g pp k m i).1 := by
  unfold mcCopy
  dsimp only
  split
  · exact h.frame.pair
  · split
    · split
      · next _ e => exact h.frame.transmit.ofEq e |>.bumpUnit |>.pair
      · next _ e2 => exact h.frame.transmit.ofEq e2 |>.pair
    · split
      · split
        · next _ e3 => exact h.frame.transmit.ofEq e3 |>.bumpUnit |>.pair
        · next _ e4 => exact h.frame.transmit.ofEq e4 |>.pair
      · exact h.frame.holdPkt.pair

protected theorem Inv.mcReq {pp a k} (h : Inv s) : Inv (mcReq s pp a k) :=
  h.branch (·.ack) (fun h => h.pair.foldlFst (·.mcCopy) |>.frame |>.mcSettle)

protected theorem Inv.badRequest {a k} (h : Inv s) : Inv (badRequest s a k) :=
  h.recErr.ack

protected theorem Inv.reqArrive {i part type data tagOk ecc} (h : Inv s) :
    Inv (reqArrive s i part type data tagOk ecc) := by
  unfold reqArrive
  dsimp only
  split
  · next _ e => exact h.arriveCheck.ofEq e
  · next _ _ e2 =>
      split
      · next _ e3 => exact h.arriveCheck.ofEq e2 |>.peerCheck |>.ofEq e3 |>.discardPkt
      · next _ e4 => exact h.arriveCheck.ofEq e2 |>.peerCheck |>.ofEq e4 |>.ack
      · next _ e5 =>
          split
          · exact h.arriveCheck.ofEq e2 |>.peerCheck |>.ofEq e5 |>.ack
          · split
            · exact h.branch (·.arriveCheck.ofEq e2 |>.peerCheck |>.ofEq e5 |>.ack)
                (fun h => h.branch (·.arriveCheck.ofEq e2 |>.peerCheck |>.ofEq e5 |>.badRequest)
                  (·.arriveCheck.ofEq e2 |>.peerCheck |>.ofEq e5 |>.coreReq))
            · exact h.branch (·.arriveCheck.ofEq e2 |>.peerCheck |>.ofEq e5 |>.ack)
                (fun h => h.branch (·.arriveCheck.ofEq e2 |>.peerCheck |>.ofEq e5 |>.badRequest)
                  (·.arriveCheck.ofEq e2 |>.peerCheck |>.ofEq e5 |>.mcReq))
            · exact h.arriveCheck.ofEq e2 |>.peerCheck |>.ofEq e5 |>.badRequest

protected theorem Inv.execPutPkt {i part data tagOk} (h : Inv s) : Completes (.putPkt i part data tagOk) s Inv :=
  ⟨_, rfl, h.reqArrive⟩

protected theorem Inv.execGetReq {i part data tagOk ecc} (h : Inv s) :
    Completes (.getReq i part data tagOk ecc) s Inv :=
  ⟨_, rfl, h.reqArrive⟩

protected theorem Inv.execSignalPkt {i part data tagOk} (h : Inv s) :
    Completes (.signalPkt i part data tagOk) s Inv :=
  ⟨_, rfl, h.reqArrive⟩

protected theorem Inv.execAtomicPkt {i part data tagOk ecc} (h : Inv s) :
    Completes (.atomicPkt i part data tagOk ecc) s Inv :=
  ⟨_, rfl, h.reqArrive⟩

protected theorem Inv.execReducePut {i part data tagOk ecc} (h : Inv s) :
    Completes (.reducePut i part data tagOk ecc) s Inv :=
  ⟨_, rfl, h.reqArrive⟩

protected theorem Inv.execTally {i part data tagOk} (h : Inv s) : Completes (.tally i part data tagOk) s Inv :=
  ⟨_, rfl, h.reqArrive⟩

/-! #### Answers -/

protected theorem Inv.xeSpan {f n k space a len acc} (h : Inv s) : Inv (xeSpan f s n k space a len acc).1 := by
  induction f generalizing s a len with
  | zero => exact h
  | succ f ih =>
    generalize hq : xeSpan (f + 1) s n k space a len acc = q
    unfold xeSpan at hq
    dsimp only at hq
    split at hq
    · exact hq ▸ h
    · split at hq
      · next e => exact hq ▸ h.xeAddr.ofEq e
      · next e => exact hq ▸ h.xeAddr.ofEq e
      · next e =>
        split at hq
        · next e2 => exact hq ▸ (ih (h.xeAddr.ofEq e)).ofEq e2
        · exact hq ▸ ih (h.xeAddr.ofEq e)

protected theorem Inv.pktLocal {n k r off len ecc} (h : Inv s) : Inv (pktLocal s n k r off len ecc).1 := by
  unfold pktLocal
  dsimp only
  split
  · split
    · next _ e => exact h.xeSpan.ofEq e |>.pair
    · next _ _ e2 => exact h.xeSpan.ofEq e2 |>.pair
    · next _ _ e3 =>
        split
        · next _ _ e4 => exact h.xeSpan.ofEq e3 |>.spanErr |>.ofEq e4 |>.pair
        · next _ e5 => exact h.xeSpan.ofEq e3 |>.spanErr |>.ofEq e5 |>.readSpan |>.pair
  · split
    · split
      · next _ e6 => exact h.xeSpan.ofEq e6 |>.pair
      · next _ _ e7 => exact h.xeSpan.ofEq e7 |>.pair
      · next _ _ e8 => exact h.xeSpan.ofEq e8 |>.pair
    · exact h.pair

protected theorem Inv.sendReq {n table k} (h : Inv s) : Inv (sendReq s n table k).1 := by
  unfold sendReq
  dsimp only
  split
  · exact h.pair
  · split
    · exact h.pair
    · split
      · exact h.transmit.pair
      · split
        · exact h.pair
        · split
          · exact h.pair
          · split
            · next _ e => exact h.transmit.ofEq e |>.pair
            · next _ e2 => exact h.transmit.ofEq e2 |>.pair

protected theorem Inv.sendFailed {n ph k i r} (h : Inv s) : Inv (sendFailed s n ph k i r) := by
  unfold sendFailed
  split
  · exact h.modStream
  · exact h.stopStream
  · exact h.stopStream
  · exact h

protected theorem Inv.sendNext {n ph k i d ecc} (h : Inv s) : Inv (sendNext s n ph k i d ecc) := by
  unfold sendNext
  dsimp only
  split
  · exact h
  · split
    · exact h
    · split
      · next _ e => exact h.pktLocal.ofEq e |>.xeErr
      · next _ _ e2 => exact h.pktLocal.ofEq e2 |>.streamFault
      · next _ _ e3 => exact h.pktLocal.ofEq e3 |>.endCtx
      · next _ _ _ e4 =>
          split
          · next _ _ e5 =>
              exact h.pktLocal.ofEq e4 |>.sendReq |>.ofEq e5 |>.modStream |>.portIn |>.portOut |>.modDesc
          · next _ _ e6 => exact h.pktLocal.ofEq e4 |>.sendReq |>.ofEq e6 |>.sendFailed

protected theorem Inv.execFabricPacketSend {n rd} (h : Inv s) : Completes (.fabricPacketSend n rd) s Inv := by
  refine ⟨_, rfl, ?_⟩
  dsimp only
  split
  · exact h
  · split
    · exact h
    · split
      · exact h.when (·.sendNext)
      · exact h

protected theorem Inv.execTallyOnlySend {n ph} (h : Inv s) : Completes (.tallyOnlySend n ph) s Inv := by
  refine ⟨_, rfl, ?_⟩
  dsimp only
  split
  · exact h
  · split
    · exact h
    · split
      · exact h
      · split
        · exact h
        · split
          · next _ _ e => exact h.sendReq.ofEq e |>.modStream |>.modDesc
          · next _ _ e2 => exact h.sendReq.ofEq e2 |>.sendFailed

protected theorem Inv.dropPkt {n m} (h : Inv s) : Inv (dropPkt s n m) :=
  h.modDesc

protected theorem Inv.nacked {n m q} (h : Inv s) : Inv (nacked s n m q) :=
  h.recErr.branch
    (fun h1 => h1.whenNot (fun h1 => h1.whenNot (·.postStreamRecord) |>.modDesc |>.modStream |>.enterFaulted))
    (·.postStreamRecord.endGroup)

protected theorem Inv.ackMatched {n m q} (h : Inv s) : Inv (ackMatched s n m q) :=
  h.branch (·.modDesc)
    (fun h => h.dropPkt.branch (fun h1 => h1.whenNot (·.modDesc))
      (fun h1 => h1.branch (·.nacked)
        (fun h1 => h1.branch (·.stopStream)
          (fun h1 => h1.branch (·.peerDown.stopStream)
            (fun h1 => h1.branch (·.peerDown.stopStream) (fun h1 => h1.branch (·.recErr.endCtx) (·.stopStream)))))))

protected theorem Inv.getMatched {n m q} (h : Inv s) : Inv (getMatched s n m q) :=
  h.dropPkt.branch (·.recErr.endCtx) (·.writeSpan.portIn.portOut.modDesc)

protected theorem Inv.atomicMatched {n m q} (h : Inv s) : Inv (atomicMatched s n m q) :=
  h.dropPkt.writeSpan

protected theorem Inv.noteUnreach {p c plane} (h : Inv s) : Inv (noteUnreach s p c plane).1 :=
  h.modPeer.recErr.branchFst (·.peerDown.pair) (·.pair)

protected theorem Inv.unreachMatched {n m q} (h : Inv s) : Inv (unreachMatched s n m q) := by
  unfold unreachMatched
  dsimp only
  split
  · next _ e => exact h.noteUnreach.ofEq e |>.stopStream
  · next _ e2 => exact h.noteUnreach.ofEq e2 |>.modDesc

protected theorem Inv.peerAnswer {p q} (h : Inv s) : Inv (peerAnswer s p q) :=
  h.branch (·.noteUnreach) (fun h => h.whenNot (fun h => h.branch (·.peerDown) (fun h => h.when (·.peerDown))))

protected theorem Inv.mcAnswer {pp q t} (h : Inv s) (ht : mcAnswer s pp q = some t) : Inv t := by
  unfold mcAnswer at ht
  dsimp only at ht
  split at ht
  · cases ht
    exact h.modMc.mcSettle.peerAnswer
  · cases ht

protected theorem Inv.rspArrive {i part type data tagOk f ok} (h : Inv s)
    (hf : ∀ {s n m q}, Inv s → Inv (f s n m q)) : Inv (rspArrive s i part type data tagOk f ok) := by
  unfold rspArrive
  dsimp only
  split
  · next e => exact h.arriveCheck.ofEq e
  · next e =>
    have h1 := h.arriveCheck.ofEq e
    generalize hc : ite (type = tUnreachable) _ _ = c
    have h2 : Inv c.1 := hc ▸ .iteFst h1.pair h1.peerCheck
    obtain ⟨s2, r⟩ := c
    split
    · next e2 =>
      have h3 := h2.ofEq e2
      split
      · exact h3.discardPkt
      · split
        · refine h3.branch (·.discardPkt) fun h => h.branch (·.modCore.discardPkt) fun h => ?_
          split
          · exact h.discardPkt
          · exact h.branch hf (·.discardPkt)
        · refine h3.branch (·.discardPkt) fun h => ?_
          cases hm : mcAnswer _ _ _ with
          | none => exact h.discardPkt
          | some t => exact h.mcAnswer hm
        · exact h3.discardPkt
    · next e2 => exact (h2.ofEq e2).discardPkt

protected theorem Inv.execAckPkt {i part data tagOk} (h : Inv s) : Completes (.ackPkt i part data tagOk) s Inv :=
  ⟨_, rfl, h.rspArrive (·.ackMatched)⟩

protected theorem Inv.execGetData {i part data tagOk} (h : Inv s) : Completes (.getData i part data tagOk) s Inv :=
  ⟨_, rfl, h.rspArrive (·.getMatched)⟩

protected theorem Inv.execAtomicRsp {i part data tagOk} (h : Inv s) :
    Completes (.atomicRsp i part data tagOk) s Inv :=
  ⟨_, rfl, h.rspArrive (·.atomicMatched)⟩

protected theorem Inv.execUnreachable {i part data tagOk} (h : Inv s) :
    Completes (.unreachable i part data tagOk) s Inv :=
  ⟨_, rfl, h.rspArrive (·.unreachMatched)⟩

protected theorem Inv.execPacketResend {n ph rd} (h : Inv s) : Completes (.packetResend n ph rd) s Inv := by
  refine ⟨_, rfl, ?_⟩
  split
  · exact h
  · split
    · exact h
    · next o _ =>
      refine h.whenNot fun h => ?_
      generalize hc : (if o.tallyOnly = true then _ else pktLocal ..) = c
      have h1 : Inv c.1 := hc ▸ .iteFst h.pair h.pktLocal
      obtain ⟨t, loc⟩ := c
      cases loc with
      | invalid => exact h1.xeErr
      | fault f => exact h1.streamFault
      | poison e => exact h1.endCtx
      | ok b dst =>
        dsimp only
        split
        · next e => exact (h1.sendReq.ofEq e).modStream.modDesc
        · next e => exact (h1.sendReq.ofEq e).sendFailed
        · next e => exact h1.sendReq.ofEq e
        · next e => exact (h1.sendReq.ofEq e).modDesc.sendFailed

protected theorem Inv.pipeHoldTimeout {pp} (h : Inv s) : Inv (pipeHoldTimeout s pp) := by
  unfold pipeHoldTimeout
  dsimp only
  split
  · exact h
  · exact h.frame.recErr.when (·.mcLost)

protected theorem Inv.execPacketHoldTimeout {n ph} (h : Inv s) : Completes (.packetHoldTimeout n ph) s Inv := by
  refine ⟨_, rfl, ?_⟩
  split
  · exact h.pipeHoldTimeout
  · split
    · exact h
    · split
      · exact h
      · exact h.whenNot (·.modStream.recErr.stopStream)

protected theorem Inv.copyTimeout {pp fseq} (h : Inv s) : Inv (copyTimeout s pp fseq) := by
  unfold copyTimeout
  dsimp only
  split
  · exact h
  · split
    · exact h
    · exact h.modMc.peerDown.mcSettle

protected theorem Inv.execPacketTimeout {u ph fseq} (h : Inv s) : Completes (.packetTimeout u ph fseq) s Inv := by
  refine ⟨_, rfl, ?_⟩
  split
  · exact h.copyTimeout
  · split
    · exact h
    · split
      · exact h
      · exact h.peerDown.modDesc.stopStream

protected theorem Inv.execOrphanTimeout {n k flow fseq} (h : Inv s) :
    Completes (.orphanTimeout n k flow fseq) s Inv :=
  ⟨_, rfl, h.modCore⟩

protected theorem Inv.execFabricStopSettled {n ph} (h : Inv s) : Completes (.fabricStopSettled n ph) s Inv := by
  refine ⟨_, rfl, ?_⟩
  split
  · exact h
  · exact h.whenNot (fun h => h.branch (·.modStream) (fun h => h.whenNot (·.modStream)))

/-! #### Barriers -/

protected theorem Inv.execBarrierBindReadDone {n k} (h : Inv s) : Completes (.barrierBindReadDone n k) s Inv := by
  refine ⟨_, rfl, ?_⟩
  dsimp only
  split
  · split
    · exact h.deliver
    · split
      · exact h.deliver
      · exact h.deliver.modSync.modSlot.makeArrival.runSignals.wake.checkDone
  · exact h.deliver

protected theorem Inv.gongBroadcast {tile bar phase} (h : Inv s) : Inv (gongBroadcast s tile bar phase) :=
  h.foldl (·.send)

protected theorem Inv.gongRelease {fuel tile bar} {s : State} (h : Inv s) : Inv (gongRelease fuel s tile bar) := by
  unfold gongRelease
  split
  · exact h
  · exact h.whenNot (·.frame.bump.gongBroadcast.gongRelease)

protected theorem Inv.gongArrival {n k bar q ecc} (h : Inv s) : Inv (gongArrival s n k bar q ecc) :=
  h.deliver.when (·.frame.recErr) |>.branch (·.recErr.send)
    (fun h2 => h2.branch (·.frame.bump.gongRelease) (·.recErr.send))

protected theorem Inv.execGongArrival {n k bar q ecc} (h : Inv s) : Completes (.gongArrival n k bar q ecc) s Inv :=
  ⟨_, rfl, h.when (·.gongArrival)⟩

protected theorem Inv.releaseReceive {n fabric bar r} (h : Inv s) : Inv (releaseReceive s n fabric bar r) :=
  h.foldl (fun h1 => Inv.ite (by
        split
        · exact h1.when (·.syncDo)
        · exact h1)
      h1)

protected theorem Inv.execBarrierReleaseReceive {n fabric bar rd} (h : Inv s) :
    Completes (.barrierReleaseReceive n fabric bar rd) s Inv :=
  ⟨_, rfl, Inv.releaseReceive (by
      split
      · exact h.deliver.synEcc
      · exact h.deliver)⟩

protected theorem Inv.execBarrierOverrunNotice {n k bar detail} (h : Inv s) :
    Completes (.barrierOverrunNotice n k bar detail) s Inv :=
  ⟨_, rfl, h.deliver.whenNot (·.recErr.endGroup)⟩

protected theorem Inv.gongCfg {tile bar max w} (h : Inv s) : Inv (gongCfg s tile bar max w) :=
  h.branch (·.recErr) (·.rset.frame)

protected theorem Inv.execGngBarCfgWrite {req tile bar w} (h : Inv s) :
    Completes (.gngBarCfgWrite req tile bar w) s Inv :=
  ⟨_, rfl, h.guardWrite (·.gongCfg)⟩

protected theorem Inv.execGngPkgCfgWrite {req g w} (h : Inv s) : Completes (.gngPkgCfgWrite req g w) s Inv :=
  ⟨_, rfl, h.guardWrite (·.gongCfg)⟩

protected theorem Inv.fbMulticast {pipe g k} (h : Inv s) : Inv (fbMulticast s pipe g k) :=
  h.whenNot (fun h => h.foldl (·.mgtSend))

protected theorem Inv.fbRootRelease {fuel pipe f} {s : State} (h : Inv s) : Inv (fbRootRelease fuel s pipe f) := by
  unfold fbRootRelease
  split
  · exact h
  · exact h.whenNot (·.modFb.fbMulticast.fbRootRelease)

protected theorem Inv.fbRootArrival {pipe f q c} (h : Inv s) : Inv (fbRootArrival s pipe f q c) :=
  h.branch (·.modFb.fbRootRelease) (fun h => h.recErr.whenNot (·.mgtSend))

protected theorem Inv.fbDeviceArrive {fuel pipe f} {s : State} (h : Inv s) : Inv (fbDeviceArrive fuel s pipe f) := by
  unfold fbDeviceArrive
  split
  · exact h
  · exact h.whenNot (fun h => h.modFb.branch (·.fbRootArrival) (·.mgtSend) |>.fbDeviceArrive)

protected theorem Inv.execFbLocalArrival {pipe n k f q} (h : Inv s) :
    Completes (.fbLocalArrival pipe n k f q) s Inv :=
  ⟨_, rfl, h.whenNot
    (fun h => h.deliver.branch (·.send) (fun h1 => h1.branch (·.modFb.fbDeviceArrive) (·.recErr.send)))⟩

protected theorem Inv.execFbTimeout {pipe f} (h : Inv s) : Completes (.fbTimeout pipe f) s Inv :=
  ⟨_, rfl, h.when (·.fbEnd)⟩

protected theorem Inv.fbCfg {pipe f w} (h : Inv s) : Inv (fbCfg s pipe f w) :=
  h.whenNot (fun h => h.whenNot (·.rset.frame))

protected theorem Inv.execColFbCfgWrite {req pipe f w} (h : Inv s) : Completes (.colFbCfgWrite req pipe f w) s Inv :=
  ⟨_, rfl, h.guardWrite (·.fbCfg)⟩

protected theorem Inv.fbMessage {i part type data tagOk} (h : Inv s) : Inv (fbMessage s i part type data tagOk).1 := by
  unfold fbMessage
  dsimp only
  split
  · next _ e => exact h.arriveCheck.ofEq e |>.pair
  · next _ _ e2 => exact h.branchFst (·.arriveCheck.ofEq e2 |>.discardPkt |>.pair) (·.arriveCheck.ofEq e2 |>.pair)

protected theorem Inv.fbStray {a pipe f} (h : Inv s) : Inv (fbStray s a pipe f) :=
  h.discardPkt.recErr

protected theorem Inv.execFbArrive {i part data tagOk} (h : Inv s) : Completes (.fbArrive i part data tagOk) s Inv := by
  refine ⟨_, rfl, ?_⟩
  split
  · next _ e => exact h.fbMessage.ofEq e
  · next _ _ _ _ _ e2 => exact h.branch (·.fbMessage.ofEq e2 |>.fbStray) (·.fbMessage.ofEq e2 |>.fbRootArrival)

protected theorem Inv.execFbRelease {i part data tagOk} (h : Inv s) :
    Completes (.fbRelease i part data tagOk) s Inv := by
  refine ⟨_, rfl, ?_⟩
  split
  · next _ e => exact h.fbMessage.ofEq e
  · next _ _ _ _ _ e2 =>
      exact h.branch (·.fbMessage.ofEq e2 |>.fbStray)
        (fun h => h.branch (·.fbMessage.ofEq e2)
          (fun h => h.fbMessage.ofEq e2 |>.modFb |>.foldl (·.send) |>.when (·.fbMulticast)))

protected theorem Inv.execFbOverrun {i part data tagOk} (h : Inv s) :
    Completes (.fbOverrun i part data tagOk) s Inv := by
  refine ⟨_, rfl, ?_⟩
  split
  · next _ e => exact h.fbMessage.ofEq e
  · next _ _ _ _ _ e2 => exact h.branch (·.fbMessage.ofEq e2 |>.fbStray) (·.fbMessage.ofEq e2 |>.recErr)

/-! #### FabricCtl -/

protected theorem Inv.modRoll {p f} (h : Inv s) : Inv (modRoll s p f) :=
  h.frame

protected theorem Inv.showRoll {p result} (h : Inv s) : Inv (showRoll s p result) :=
  h.rset.rset

protected theorem Inv.planeFailed {i} (h : Inv s) : Inv (planeFailed s i) :=
  h.when (·.modRoll.showRoll.recErr.raiseInt.retryHeld)

protected theorem Inv.execPlaneFailTimer {i} (h : Inv s) : Completes (.planeFailTimer i) s Inv :=
  ⟨_, rfl, h.when (·.planeFailed)⟩

protected theorem Inv.rollCmd {req pipe f} (h : Inv s) (hf : ∀ {s p}, Inv s → Inv (f s p)) :
    Inv (rollCmd s req pipe f) :=
  h.guardWrite (·.whenNot hf)

protected theorem Inv.execRollLoad {req pipe} (h : Inv s) : Completes (.rollLoad req pipe) s Inv :=
  ⟨_, rfl, h.rollCmd (·.modRoll.showRoll)⟩

/-- `readData` as a function whose value is a pair: matches on it then reduce at once. -/
theorem readData_pair : ∃ f : State → Nat → Nat → Word → State, (∀ {s d n c}, Inv s → Inv (f s d n c)) ∧
    ∃ g : State → Nat → Nat → Word → List Byte, readData = fun s d n c => (f s d n c, g s d n c) :=
  ⟨fun s d n c => (readData s d n c).1, Inv.readData, fun s d n c => (readData s d n c).2, rfl⟩
protected theorem Inv.rollRead {p ecc} (h : Inv s) : Inv (rollRead s p ecc).1 := by
  have hc {s : State} {d n e c} (h : Inv s) : Inv (checkRead s d n e c).1 := h.checkRead
  obtain ⟨f, hf, g, hd⟩ := readData_pair
  delta rollRead
  extract_lets pipe d
  clear_value pipe d
  rw [hd]
  generalize checkRead = cr at hc ⊢
  refine h.whenNotFst fun h => ?_
  rcases e : cr s d 16 ecc noCtag with ⟨t, _ | x⟩
  · dsimp only
    refine (hf ((hc h).ofEq e)).whenNotFst fun h => ?_
    refine h.whenNotFst fun h => ?_
    generalize 16 + popcount16 _ * _ * 512 = len
    rcases e : cr _ d len (eccBeyond ecc 1) noCtag with ⟨t, _ | x⟩
    · have ht := hf (d := d) (n := len) (c := noCtag) ((hc h).ofEq e)
      exact .iteFst ht (.iteFst ht ht)
    · exact (hc h).ofEq e
  · exact (hc h).ofEq e

protected theorem Inv.execRollLoadComplete {pipe ecc} (h : Inv s) : Completes (.rollLoadComplete pipe ecc) s Inv := by
  refine ⟨_, rfl, h.whenNot fun h => ?_⟩
  have hr := h.rollRead (p := partOfPipe s pipe) (ecc := ecc)
  generalize rollRead s (partOfPipe s pipe) ecc = r at hr ⊢
  obtain ⟨t, res, b⟩ := r
  exact .retryHeld (.raiseInt (.whenNot hr.modRoll.showRoll .recErr))

protected theorem Inv.execRollSelect {req pipe variant} (h : Inv s) :
    Completes (.rollSelect req pipe variant) s Inv :=
  ⟨_, rfl, h.rollCmd (fun h1 => h1.branch (·.showRoll) (·.modRoll.showRoll.retryHeld))⟩

protected theorem Inv.execRollUnload {req pipe} (h : Inv s) : Completes (.rollUnload req pipe) s Inv :=
  ⟨_, rfl, h.rollCmd (fun h1 => h1.branch (·.showRoll) (fun h1 => h1.branch (·.showRoll) (·.frame.showRoll)))⟩

protected theorem Inv.peerCmd {req pipe f} (h : Inv s) (hf : ∀ {s p}, Inv s → Inv (f s p)) :
    Inv (peerCmd s req pipe f) :=
  h.guardWrite (·.when hf)

protected theorem Inv.peerClear {p c} (h : Inv s) : Inv (peerClear s p c) :=
  h.whenNot (fun h => h.branch (·.modPeer) (·.modPeer))

protected theorem Inv.execPeerClear {req pipe c} (h : Inv s) : Completes (.peerClear req pipe c) s Inv :=
  ⟨_, rfl, h.peerCmd (·.peerClear)⟩

protected theorem Inv.execPeerMarkLost {req pipe c} (h : Inv s) : Completes (.peerMarkLost req pipe c) s Inv :=
  ⟨_, rfl, h.peerCmd (fun h1 => h1.when (·.peerDown))⟩

protected theorem Inv.peerMessage {i part type data tagOk f} (h : Inv s) (hf : ∀ {s p k}, Inv s → Inv (f s p k)) :
    Inv (peerMessage s i part type data tagOk f) := by
  unfold peerMessage
  dsimp only
  split
  · next e => exact h.arriveCheck.ofEq e
  · next e => exact (h.arriveCheck.ofEq e).branch (·.discardPkt) (·.foldl hf)

protected theorem Inv.execResetNotice {i part data tagOk} (h : Inv s) :
    Completes (.resetNotice i part data tagOk) s Inv :=
  ⟨_, rfl, h.peerMessage (fun h1 => h1.when (·.peerDown))⟩

protected theorem Inv.epochAnnounce {p k} (h : Inv s) : Inv (epochAnnounce s p k) :=
  h.when (·.peerDown) |>.when (·.modPeer.rset.raiseInt)

protected theorem Inv.execEpochAnnounce {i part data tagOk} (h : Inv s) :
    Completes (.epochAnnounce i part data tagOk) s Inv :=
  ⟨_, rfl, h.peerMessage (·.epochAnnounce)⟩

/-! #### PortState -/

protected theorem Inv.showLanes {i} (h : Inv s) : Inv (showLanes s i) :=
  h.foldl (·.rset)

protected theorem Inv.setLocks {i mask on} (h : Inv s) : Inv (setLocks s i mask on) :=
  h.foldl (·.rset)

protected theorem Inv.setFab {i st reason} (h : Inv s) : Inv (setFab s i st reason) :=
  h.when (·.modPort) |>.rset |>.showLanes |>.whenNot (·.raiseInt)

protected theorem Inv.dropFlits {i} (h : Inv s) : Inv (dropFlits s i) :=
  h.modPort

protected theorem Inv.dropPlane {i} (h : Inv s) : Inv (dropPlane s i) :=
  h.rset

protected theorem Inv.setEngine {i st} (h : Inv s) : Inv (setEngine s i st) :=
  h.rset.frame

protected theorem Inv.standbyLasers {i on} (h : Inv s) : Inv (standbyLasers s i on) :=
  h.whenNot (·.frame)

protected theorem Inv.fabDisable {i reason} (h : Inv s) : Inv (fabDisable s i reason) :=
  h.dropFlits.dropPlane.rset.setEngine.setFab

protected theorem Inv.fabEnable {i} (h : Inv s) : Inv (fabEnable s i) :=
  h.when (·.setEngine) |>.setFab

protected theorem Inv.fabDown {i} (h : Inv s) : Inv (fabDown s i) :=
  h.dropFlits.dropPlane.rset.setFab

protected theorem Inv.fabClear {i} (h : Inv s) : Inv (fabClear s i) :=
  h.rset.rset.modPort.fabDisable

protected theorem Inv.portDown {i} (h : Inv s) : Inv (portDown s i) :=
  h.whenNot (fun h => h.branch (·.frame.fabClear) (·.rset.fabDown))

protected theorem Inv.portLeave {i} (h : Inv s) : Inv (portLeave s i) :=
  h.when (·.portDown)

protected theorem Inv.portReset {i} (h : Inv s) : Inv (portReset s i) :=
  h.portDown.when (·.setFab) |>.setEngine |>.modPort

protected theorem Inv.portsReset (h : Inv s) : Inv (portsReset s) :=
  h.foldl (·.portReset)

protected theorem Inv.portsOff {reason} (h : Inv s) : Inv (portsOff s reason) :=
  h.foldl (·.fabDisable)

/-! #### Mmu -/

protected theorem Inv.tlbParity {clu j x} (h : Inv s) : Inv (tlbParity s clu j x) :=
  h.modCluster.recErr

protected theorem Inv.walkEcc {clu p asid va acc j ctag ecc} (h : Inv s) :
    Inv (walkEcc s clu p asid va acc j ctag ecc) := by
  unfold walkEcc
  dsimp only
  split
  · exact h.memCorr
  · exact h.memCorr
  · exact h.memUncorr
  · split
    · exact h.tlbParity
    · split
      · exact h.tlbParity
      · exact h
  · exact h

protected theorem Inv.execMmuWalk {n k va acc ecc} (h : Inv s) : Completes (.mmuWalk n k va acc ecc) s Inv := by
  refine ⟨_, rfl, ?_⟩
  split
  · exact h
  · split
    · next _ _ e => exact h.walkEcc.mmuWalk.ofEq e |>.modCluster
    · next _ _ e2 => exact h.walkEcc.mmuWalk.ofEq e2 |>.modCluster

protected theorem Inv.queueVector {clu vec} (h : Inv s) : Inv (queueVector s clu vec) :=
  h.branch (·.msixSend) (·.emit.recErr)

protected theorem Inv.refillBuf {clu} (h : Inv s) : Inv (refillBuf s clu) := by
  unfold refillBuf
  dsimp only
  split
  · exact h
  · split
    · exact h.modCluster.modStream
    · exact h.modCluster.modCluster

protected theorem Inv.postOldest {clu} (h : Inv s) : Inv (postOldest clu s) := by
  unfold postOldest
  split
  · exact h
  · exact h.whenNot (fun h => h.moveBytes.emit.modCluster.when (·.queueVector) |>.refillBuf)

protected theorem Inv.execFaultRecordPost {clu} (h : Inv s) : Completes (.faultRecordPost clu) s Inv :=
  ⟨_, rfl, h.postOldest⟩

protected theorem Inv.invDrop {o clu} (h : Inv s) : Inv (invDrop s o clu) :=
  h.modCluster.mapCores fun _ => by split <;> rfl

protected theorem Inv.invStart {req clu op w} (h : Inv s) : Inv (invStart s req clu op w) :=
  h.guardWrite
    (fun h1 => h1.branch (·.recErr) (fun h1 => h1.whenNot (fun h1 => h1.foldl (·.invDrop) |>.modCluster |>.rset)))

protected theorem Inv.execMmuInvVaRange {req clu w} (h : Inv s) : Completes (.mmuInvVaRange req clu w) s Inv :=
  ⟨_, rfl, h.invStart⟩

protected theorem Inv.execMmuInvAsid {req clu w} (h : Inv s) : Completes (.mmuInvAsid req clu w) s Inv :=
  ⟨_, rfl, h.invStart⟩

protected theorem Inv.execMmuInvAll {req clu w} (h : Inv s) : Completes (.mmuInvAll req clu w) s Inv :=
  ⟨_, rfl, h.invStart⟩

protected theorem Inv.execMmuInvKey {req clu w} (h : Inv s) : Completes (.mmuInvKey req clu w) s Inv :=
  ⟨_, rfl, h.invStart⟩

protected theorem Inv.execMmuInvComplete {clu} (h : Inv s) : Completes (.mmuInvComplete clu) s Inv := by
  refine ⟨_, rfl, ?_⟩
  split
  · exact h
  · exact h.whenNot (·.modCluster.rset)

protected theorem Inv.execMmuInvTimeout {clu} (h : Inv s) : Completes (.mmuInvTimeout clu) s Inv := by
  refine ⟨_, rfl, ?_⟩
  split
  · exact h
  · exact h.whenNot (·.rset.recErr)

/-! #### Queues -/

protected theorem Inv.modRing {clu i f} (h : Inv s) : Inv (modRing s clu i f) :=
  h.modCluster

protected theorem Inv.modCq {clu j f} (h : Inv s) : Inv (modCq s clu j f) :=
  h.modCluster

protected theorem Inv.execSrDoorbell {req clu i w} (h : Inv s) : Completes (.srDoorbell req clu i w) s Inv :=
  ⟨_, rfl, h.guardWrite (fun h1 => h1.branch (·.recErr) (·.modRing))⟩

protected theorem Inv.execSrFetch {clu i data} (h : Inv s) : Completes (.srFetch clu i data) s Inv :=
  ⟨_, rfl, h.whenNot (fun h => h.foldl (·.emit) |>.moveBytes |>.modRing)⟩

protected theorem Inv.seDone {clu i e ctag res} (h : Inv s) : Inv (seDone s clu i e ctag res) :=
  h.ringDone

protected theorem Inv.seCtxReset {clu i n e} (h : Inv s) : Inv (seCtxReset s clu i n e) :=
  h.branch (·.seDone) (fun h => h.branch (·.endGroup) (·.endCtx) |>.frame |>.sqBusy)

protected theorem Inv.installEntry {n k i b} (h : Inv s) : Inv (installEntry s n k i b) :=
  h.when (fun h => h.foldl (·.rset)) |>.installCmd

protected theorem Inv.sePerform {clu i e} (h : Inv s) : Inv (sePerform s clu i e) := by
  unfold sePerform
  dsimp only
  split
  · exact h.seDone
  · split
    · exact h
    · exact h.branch (·.seDone)
        (fun h => h.branch (·.seDone)
          (fun h => h.branch (·.seCtxReset)
            (fun h => h.modCore.branch (fun h1 => h1.branch (·.modCore.sqBusy) (·.installEntry)) (·.sqPerform))))

protected theorem Inv.ringDispatch {clu i want} (h : Inv s) : Inv (ringDispatch s clu i want) := by
  unfold ringDispatch
  split
  · exact h
  · exact h.when (·.leaveA1.modRing.sePerform)

protected theorem Inv.execRingDispatch {clu i} (h : Inv s) : Completes (.ringDispatch clu i) s Inv :=
  ⟨_, rfl, h.ringDispatch⟩

protected theorem Inv.execRingNop {clu i} (h : Inv s) : Completes (.ringNop clu i) s Inv :=
  ⟨_, rfl, h.ringDispatch⟩

protected theorem Inv.execRingInstall {clu i} (h : Inv s) : Completes (.ringInstall clu i) s Inv :=
  ⟨_, rfl, h.ringDispatch⟩

protected theorem Inv.execRingCtxReset {clu i} (h : Inv s) : Completes (.ringCtxReset clu i) s Inv :=
  ⟨_, rfl, h.ringDispatch⟩

protected theorem Inv.execRingInvalid {clu i} (h : Inv s) : Completes (.ringInvalid clu i) s Inv :=
  ⟨_, rfl, h.ringDispatch⟩

protected theorem Inv.cqSignal {clu j} (h : Inv s) : Inv (cqSignal s clu j) :=
  h.modCq.queueVector

protected theorem Inv.execCqPost {clu j} (h : Inv s) : Completes (.cqPost clu j) s Inv := by
  refine ⟨_, rfl, ?_⟩
  dsimp only
  split
  · exact h
  · exact h.whenNot (fun h => h.emit.moveBytes.modCq.when (·.cqSignal))

protected theorem Inv.execCqTimerExpiry {clu j} (h : Inv s) : Completes (.cqTimerExpiry clu j) s Inv := by
  refine ⟨_, rfl, ?_⟩
  split
  · exact h.when (·.cqSignal)
  · exact h

protected theorem Inv.execCluCqHeadWrite {req clu j w} (h : Inv s) : Completes (.cluCqHeadWrite req clu j w) s Inv :=
  ⟨_, rfl, h.guardWrite (fun h1 => h1.modCq.when (·.cqSignal))⟩

protected theorem Inv.execCluFqHeadWrite {req clu w} (h : Inv s) : Completes (.cluFqHeadWrite req clu w) s Inv :=
  ⟨_, rfl, h.guardWrite (fun h1 => h1.modCluster.when (·.queueVector))⟩

protected theorem Inv.queueError {clu q} (h : Inv s) : Inv (queueError s clu q) :=
  h.rset.branch (·.modRing) (fun h1 => h1.branch (·.modCq) (·.modCluster)) |>.recErr

protected theorem Inv.execQDmaError {clu q} (h : Inv s) : Completes (.qDmaError clu q) s Inv :=
  ⟨_, rfl, h.queueError⟩

protected theorem Inv.execQDmaTimeout {clu q} (h : Inv s) : Completes (.qDmaTimeout clu q) s Inv :=
  ⟨_, rfl, h.queueError⟩

protected theorem Inv.queueCfg {clu q w} (h : Inv s) : Inv (queueCfg s clu q w) :=
  h.rset.branch (·.modRing) (fun h1 => h1.branch (·.modCq) (·.modCluster))

protected theorem Inv.execQueueEnable {req clu q w} (h : Inv s) : Completes (.queueEnable req clu q w) s Inv :=
  ⟨_, rfl, h.guardWrite (·.queueCfg)⟩

/-! #### Tick -/

protected theorem Inv.tick (h : Inv s) : Inv (tick s) := by
  unfold tick
  generalize List.range 64 = l
  refine { h with clusters := ?_, cores := (keysRising_map).trans h.cores }
  show keysRising (List.foldl _ _ _) = true
  exact keysRising_foldl h.clusters fun hm => keysRising_mput _ _ hm

/-! #### Recover -/

protected theorem Inv.lastReset {domain cause mask} (h : Inv s) : Inv (lastReset s domain cause mask) :=
  h.rset

protected theorem Inv.teAbandon {n k} (h : Inv s) : Inv (teAbandon s n k) :=
  h.foldl fun h => h.foldl fun h => { h with mem := Memory.wf_memPut _ _ h.mem }

protected theorem Inv.settleCtxResets {n k} (h : Inv s) : Inv (settleCtxResets s n k) :=
  h.frame.frame.foldl (·.sqResult.ringDone)

protected theorem Inv.releaseHeld {n k} (h : Inv s) : Inv (releaseHeld s n k) := by
  unfold releaseHeld
  split
  · exact h.whenNot (fun h => h.modCore.branch (·.sqResult) (fun h1 => h1.branch (·.sqPerform) (·.installEntry)))
  · exact h

protected theorem Inv.finishReset {n k domain cause err outcome} (h : Inv s) :
    Inv (finishReset s n k domain cause err outcome) :=
  h.whenNot (fun h => h.teAbandon.modCore.whenNot (·.postRec) |>.bump |>.lastReset |>.modCore |>.leaveSlot
    |>.settleCtxResets |>.releaseHeld)

protected theorem Inv.finishEnding {n k} (h : Inv s) : Inv (finishEnding s n k) := by
  unfold finishEnding
  split
  · exact h.finishReset
  · exact h

protected theorem Inv.execContextReset {n k group} (h : Inv s) : Completes (.contextReset n k group) s Inv :=
  ⟨_, rfl, h.whenNot
    (fun h => h.whenNot (fun h => h.branch (·.endGroup) (·.endCtx)) |>.branch (fun h1 => h1.foldl (·.finishEnding))
        (·.finishEnding))⟩

protected theorem Inv.execHangEvent {n k} (h : Inv s) : Completes (.hangEvent n k) s Inv :=
  ⟨_, rfl, h.whenNot
    (fun h => h.modSlot.recErr.bump.rset.postRec.whenNot (fun h1 => h1.branch (·.endCtx) (·.endGroup))
      |>.when (·.dumpStart))⟩

protected theorem Inv.execSaveTimeout {n k} (h : Inv s) : Completes (.saveTimeout n k) s Inv :=
  ⟨_, rfl, h.whenNot (·.recErr.endCtx)⟩

protected theorem Inv.execCtxResetTimeout {n k engines} (h : Inv s) :
    Completes (.ctxResetTimeout n k engines) s Inv :=
  ⟨_, rfl, h.whenNot (fun h => h.recErr.foldl (·.requestEng))⟩

protected theorem Inv.keepRecs {n} (h : Inv s) : Inv (keepRecs s n) :=
  h.foldl (·.waitRecord)

protected theorem Inv.engineClear {n e} (h : Inv s) : Inv (engineClear s n e) :=
  h.branch (·.modCore) (fun h => h.branch (·.modCore) (fun h => h.branch (·.modCore) (·.keepRecs.rset.modCore)))

protected theorem Inv.execEngineReset {n e} (h : Inv s) : Completes (.engineReset n e) s Inv :=
  ⟨_, rfl, h.whenNot
    (fun h => h.foldl (·.finishReset) |>.engineClear |>.modCore |>.clearResetReq |>.bump |>.lastReset)⟩

protected theorem Inv.execEngResetTimeout {n e} (h : Inv s) : Completes (.engResetTimeout n e) s Inv :=
  ⟨_, rfl, h.whenNot (·.recErr.requestPart)⟩

protected theorem Inv.abortRings {p} (h : Inv s) : Inv (abortRings s p) :=
  h.foldl (fun h1 => by
      split
      · exact h1.modCore.rset.ringDone
      · exact h1.modCore.rset) |>.foldl
          (fun h2 => h2.foldl (fun h3 => h3.whenNot (fun h3 => h3.modRing.foldl (·.cqPush))))

protected theorem Inv.partShared {p} (h : Inv s) : Inv (partShared s p) := by
  unfold partShared
  extract_lets s1 pipe s2 s3 s4 s5
  have h1 : Inv s1 := h.frame
  have h4 : Inv s4 := (h1.rset.when (·.modRoll.showRoll)).foldl (·.modCluster)
  have h5 : Inv s5 := h4.mapCores fun _ => by split <;> rfl
  clear_value s5
  exact h5.frame.endGrants

protected theorem Inv.dropHeld {p} (h : Inv s) : Inv (dropHeld s p) :=
  h.foldl (fun h1 => h1.foldl (·.postOldest) |>.whenNot (·.frame.modCluster))

protected theorem Inv.restartIslands {p} (h : Inv s) : Inv (restartIslands s p) :=
  h.frame

protected theorem Inv.partitionStart {p r} (h : Inv s) : Inv (partitionStart s p r) := by
  unfold partitionStart
  extract_lets s1 s2 s3 s4 s5 s6 s7 b s8 s9 s10
  have h2 : Inv s2 := h.rset.frame
  have h7 : Inv s7 := ((h2.bump.when (·.dumpStart)).abortRings.foldl (·.finishReset)).partShared.dropHeld
  have h8 : Inv s8 := h7.frame
  have h9 : Inv s9 := h8.mapCores fun _ => by split <;> rfl
  have h10 : Inv (retireMemory s10 p).1 := h9.applyPending.restartIslands.retireMemory
  generalize retireMemory s10 p = q at h10 ⊢
  obtain ⟨t, ch⟩ := q
  exact h10.frame.pealStart

protected theorem Inv.execPartitionReset {p} (h : Inv s) : Completes (.partitionReset p) s Inv := by
  refine ⟨_, rfl, ?_⟩
  exact by
    split
    · exact h
    · exact h.branch (·.frame) (fun h => h.branch (·.frame) (·.partitionStart))

protected theorem Inv.scrubPartition {p} (h : Inv s) : Inv (scrubPartition s p) := by
  unfold scrubPartition
  extract_lets s1 s2 s3 s4
  have h3 : Inv s3 := (h.zeroLocal.foldl (·.zeroSlice)).foldl (·.zeroRegion)
  have h4 : Inv s4 := { h3 with regs := keysRising_filter _ h3.regs }
  exact h4.showRoll

protected theorem Inv.trngFail (h : Inv s) : Inv (trngFail s) :=
  h.rset.recErr

protected theorem Inv.renewKeys {p healthy} (h : Inv s) : Inv (renewKeys s p healthy) :=
  h.branch (·.drawHbmKeys) (·.trngFail)

protected theorem Inv.flrQueues {p} (h : Inv s) : Inv (flrQueues s p) :=
  h.foldl (fun h1 => h1.foldl (·.rset) |>.modCluster)

protected theorem Inv.execPartitionResetComplete {p healthy} (h : Inv s) :
    Completes (.partitionResetComplete p healthy) s Inv := by
  refine ⟨_, rfl, ?_⟩
  cases mget s.partReset p with
  | none => exact h
  | some r =>
    refine h.whenNot fun h => ?_
    extract_lets renew s1 s2 flr s3 s4
    have h1 : Inv s1 := h.branch (·.scrubPartition) (·.foldl (·.zeroRegion))
    have h2 : Inv s2 := h1.when (·.renewKeys)
    have h3 : Inv s3 := h2.when (·.frame.flrQueues)
    clear_value s3
    exact h3.frame.rset.clearResetReq.lastReset.stateEvent

protected theorem Inv.execPartResetTimeout {p} (h : Inv s) : Completes (.partResetTimeout p) s Inv :=
  ⟨_, rfl, h.whenNot (·.recErr.requestChip)⟩

protected theorem Inv.chipStart {r} (h : Inv s) : Inv (chipStart s r) := by
  unfold chipStart
  extract_lets s1 s2 s3 s4 s5
  have h1 : Inv s1 := h.frame
  have h2 : Inv s2 := h1.rset
  have h3 : Inv s3 := h2.frame
  have h4 : Inv s4 := h3.foldl (·.announceAll)
  clear_value s4
  exact (h4.frame.foldl (·.portLeave)).endGrants.when (·.dumpStart)

protected theorem Inv.execChipReset (h : Inv s) : Completes (.chipReset) s Inv := by
  refine ⟨_, rfl, ?_⟩
  split
  · exact h
  · exact h.branch (·.frame) (·.chipStart)

/-! #### HostPort -/

protected theorem Inv.setStage {n} (h : Inv s) : Inv (setStage s n) :=
  h.rset

protected theorem Inv.showVfs (h : Inv s) : Inv (showVfs s) :=
  h.rset

protected theorem Inv.cfgWrite {f r v} (h : Inv s) : Inv (cfgWrite s f r v) := by
  unfold cfgWrite
  split
  · exact h.when (·.frame.showVfs)
  · exact h.when (·.frame.showVfs)
  · exact h.frame
  · exact h.frame
  · exact h.frame
  · exact h.when (·.frame)
  · exact h.when (·.frame)
  · exact h.when (·.frame)
  · exact h.when (·.frame)
  · exact h.when (·.frame)
  · exact h

protected theorem Inv.execConfigRequest {f write r v} (h : Inv s) : Completes (.configRequest f write r v) s Inv :=
  ⟨_, rfl, h.whenNot
    (fun h => h.branch (·.emit) (fun h => h.branch (·.emit) (fun h => h.branch (·.cfgWrite.emit) (·.emit))))⟩

protected theorem Inv.bar2Hole {f a} (h : Inv s) : Inv (bar2Hole s f a) :=
  h.recErr

protected theorem Inv.bar2ReadPiece {f p ecc} (h : Inv s) : Inv (bar2ReadPiece s f p ecc).1 := by
  generalize hq : bar2ReadPiece s f p ecc = q
  rw [show bar2ReadPiece = _ by delta bar2ReadPiece; rfl] at hq
  cases ha : apertureAt s f p.1 with
  | none =>
    rw [ha] at hq
    exact hq ▸ h
  | some d =>
    rw [ha] at hq
    rw [← hq]
    exact (h.checkRead (d := d) (len := p.2.2) (ecc := ecc) (ctag := noCtag)).readData
      (d := d) (len := p.2.2) (ctag := noCtag) |>.moveBytes (x := dpaTile d) (y := 0) (n := p.2.2)

protected theorem Inv.execBar2Read {f off len ecc} (h : Inv s) : Completes (.bar2Read f off len ecc) s Inv := by
  refine ⟨_, rfl, h.whenNot fun h => h.branch (·.emit) fun h => ?_⟩
  extract_lets a ps
  have h1 : Inv (ps.zipIdx.foldl (fun (acc : State × List Byte × Bool) p =>
      let (s, b, e) := bar2ReadPiece acc.1 f p.1 (eccAfter ecc p.2)
      (s, acc.2.1 ++ b, acc.2.2 || e)) (s, [], false)).1 := by
    refine h.pair.foldlEq fun {acc p q} hq h => ?_
    have h2 := h.bar2ReadPiece (f := f) (p := p.1) (ecc := eccAfter ecc p.2)
    generalize bar2ReadPiece acc.1 f p.1 (eccAfter ecc p.2) = r at h2 hq
    obtain ⟨t, b, e⟩ := r
    exact hq ▸ h2
  generalize List.foldl _ _ _ = q at h1 ⊢
  obtain ⟨t, bs, bad⟩ := q
  dsimp only
  cases ps.find? (fun p => (apertureAt t f p.1).isNone) with
  | some p => exact (h1.bar2Hole.when (·.recErr)).emit
  | none => exact (h1.when (·.recErr)).emit

protected theorem Inv.bar2WritePiece {f p data be} (h : Inv s) : Inv (bar2WritePiece s f p data be) := by
  rw [show bar2WritePiece = _ by delta bar2WritePiece; rfl]
  cases apertureAt s f p.1 with
  | none => exact h
  | some d => exact h.moveBytes.branch (·.writeData) (·.foldl (·.when (·.writeData)))

protected theorem Inv.execBar2Write {f off data be} (h : Inv s) : Completes (.bar2Write f off data be) s Inv := by
  refine ⟨_, rfl, ?_⟩
  dsimp only
  split
  · exact h
  · split
    · exact h.foldl (·.bar2WritePiece) |>.bar2Hole
    · exact h.foldl (·.bar2WritePiece)

protected theorem Inv.showLink (h : Inv s) : Inv (showLink s) :=
  h.rset

protected theorem Inv.linkDrop (h : Inv s) : Inv (linkDrop s) :=
  h.frame.showLink.showVfs

protected theorem Inv.linkDown (h : Inv s) : Inv (linkDown s) :=
  h.linkDrop.bump.recErr

protected theorem Inv.narrowLink (h : Inv s) : Inv (narrowLink s) :=
  h.branch (·.frame.recErr.powerCycleReq.linkDown) (·.frame.showLink.recErr)

protected theorem Inv.execPcieLaneFailed {recovery} (h : Inv s) : Completes (.pcieLaneFailed recovery) s Inv :=
  ⟨_, rfl, h.whenNot (fun h => h.branch (fun h => h.bump.branch (·.narrowLink) (·.frame)) (·.narrowLink))⟩

protected theorem Inv.execPcieLinkDown (h : Inv s) : Completes (.pcieLinkDown) s Inv :=
  ⟨_, rfl, h.when (·.linkDown)⟩

protected theorem Inv.execPcieLinkUp {width gen flit} (h : Inv s) : Completes (.pcieLinkUp width gen flit) s Inv :=
  ⟨_, rfl, h.whenNot (·.frame.showLink)⟩

protected theorem Inv.execPerstAssert (h : Inv s) : Completes (.perstAssert) s Inv :=
  ⟨_, rfl, h.frame.linkDrop.whenNot (·.requestChip)⟩

protected theorem Inv.execPerstDeassert (h : Inv s) : Completes (.perstDeassert) s Inv :=
  ⟨_, rfl, h.frame⟩

protected theorem Inv.flrPartition {p} (h : Inv s) : Inv (flrPartition s p) :=
  h.whenNot (fun h => h.frame.whenNot (·.requestPart))

protected theorem Inv.flrFunc {f} (h : Inv s) : Inv (flrFunc s f) :=
  h.frame

protected theorem Inv.execVfFlr {p} (h : Inv s) : Completes (.vfFlr p) s Inv :=
  ⟨_, rfl, h.when (·.flrFunc.flrPartition)⟩

protected theorem Inv.execPfFlr (h : Inv s) : Completes (.pfFlr) s Inv :=
  ⟨_, rfl, h.whenNot (fun h => h.frame.showVfs.foldl (·.flrFunc) |>.foldl (·.flrPartition))⟩

protected theorem Inv.execPcePartitionReset {req p scrub} (h : Inv s) :
    Completes (.pcePartitionReset req p scrub) s Inv :=
  ⟨_, rfl, h.guardWrite (fun h1 => h1.branch (·.recErr) (·.requestPart))⟩

protected theorem Inv.execPceChipReset {req} (h : Inv s) : Completes (.pceChipReset req) s Inv :=
  ⟨_, rfl, h.guardWrite (·.requestChip)⟩

/-! #### Identity -/

protected theorem Inv.romKeys (h : Inv s) : Inv (romKeys s) :=
  h.frame

/-! #### Firmware -/

protected theorem Inv.flashWrite {a bs} (h : Inv s) : Inv (flashWrite s a bs) :=
  h.frame.emit

protected theorem Inv.flashErase {a n} (h : Inv s) : Inv (flashErase s a n) :=
  h.frame

protected theorem Inv.loadBootRec (h : Inv s) : Inv (loadBootRec s) := by
  unfold loadBootRec
  dsimp only
  split
  · exact h.branch (·.frame) (·.frame)
  · exact h.frame
  · exact h.frame
  · exact h.frame.recErr

protected theorem Inv.writeBootRec {r} (h : Inv s) : Inv (writeBootRec s r) :=
  h.frame.flashErase.flashWrite

protected theorem Inv.enterRecovery (h : Inv s) : Inv (enterRecovery s) :=
  h.frame.recErr

protected theorem Inv.trySlots {answers l} {s : State} (h : Inv s) : Inv (trySlots s answers l) := by
  induction l generalizing s with
  | nil => exact h.writeBootRec.enterRecovery
  | cons k l ih =>
    unfold trySlots
    extract_lets r fw s1 b res r1 s2 r2 r3 r4 s3
    have h1 : Inv s1 := h.frame
    have h2 : Inv s2 := h.frame
    have h3 : Inv s3 := h.writeBootRec
    clear_value s1 s2 s3
    exact .ite (ih h1.recErr) (.ite (ih h2.recErr) h3.frame)

protected theorem Inv.romSelect {answers} (h : Inv s) : Inv (romSelect s answers) := by
  unfold romSelect
  extract_lets s1
  have h1 : Inv s1 := h.loadBootRec
  clear_value s1
  exact h1.frame.trySlots

protected theorem Inv.execRomWatchdog {answers} (h : Inv s) : Completes (.romWatchdog answers) s Inv :=
  ⟨_, rfl, h.when (·.romSelect.romKeys)⟩

protected theorem Inv.fwResult {res} (h : Inv s) : Inv (fwResult s res) :=
  h.rset

protected theorem Inv.burnCount {n} (h : Inv s) : Inv (burnCount s n) :=
  h.frame

protected theorem Inv.burnRevoke {m} (h : Inv s) : Inv (burnRevoke s m) :=
  h.frame

protected theorem Inv.confirmFuses {ok} (h : Inv s) : Inv (confirmFuses s ok) :=
  h.branch (·.recErr.fwResult) (fun h => h.burnCount.branch (·.recErr) (·.burnRevoke) |>.writeBootRec |>.fwResult)

protected theorem Inv.fwConfirm {ok} (h : Inv s) : Inv (fwConfirm s ok) := by
  unfold fwConfirm
  split
  · exact h.branch (·.writeBootRec.confirmFuses) (·.fwResult)
  · exact h.fwResult

protected theorem Inv.execFwConfirm {req ok} (h : Inv s) : Completes (.fwConfirm req ok) s Inv :=
  ⟨_, rfl, h.guardWrite (·.fwConfirm)⟩

protected theorem Inv.execFwCancelPending {req} (h : Inv s) : Completes (.fwCancelPending req) s Inv :=
  ⟨_, rfl, h.guardWrite (fun h1 => h1.branch (·.fwResult) (·.writeBootRec.fwResult))⟩

protected theorem Inv.execFwBufferEcc {answers} (h : Inv s) : Completes (.fwBufferEcc answers) s Inv := by
  refine ⟨_, rfl, ?_⟩
  cases s.fw.running with
  | none => exact h
  | some k =>
    extract_lets s1
    have h1 : Inv s1 := h.recErr
    clear_value s1
    refine .ite h1.frame ?_
    extract_lets s2
    have h2 : Inv s2 := h1.writeBootRec
    clear_value s2
    exact h2.frame

protected theorem Inv.stageAbort (h : Inv s) : Inv (stageAbort s) := by
  unfold stageAbort
  split
  · exact h
  · exact h.frame.recErr

protected theorem Inv.stageBegin {size t} (h : Inv s) (ht : stageBegin s size = some t) : Inv t := by
  unfold stageBegin at ht
  extract_lets r k r1 s1 at ht
  obtain ⟨-, ht⟩ := Option.ite_none_left_eq_some.1 ht
  rw [← Option.some.inj ht]
  have h1 : Inv s1 := h.writeBootRec
  clear_value s1
  exact h1.frame.flashErase

protected theorem Inv.stageData {bs} (h : Inv s) : Inv (stageData s bs) := by
  unfold stageData
  cases s.fw.staging with
  | none => exact h
  | some t =>
    have h1 : Inv (flashWrite s (slotBase t.slot + t.data.length) (bs.take (t.size - t.data.length))) := h.flashWrite
    exact h1.frame

protected theorem Inv.updSay {what res} (h : Inv s) : Inv (updSay s what res) := by
  unfold updSay
  split
  · exact h.emit
  · exact h

protected theorem Inv.execStagingReadbackComplete (h : Inv s) : Completes (.stagingReadbackComplete) s Inv := by
  refine ⟨_, rfl, ?_⟩
  cases s.fw.staging with
  | none => exact h
  | some t =>
    refine h.whenNot fun h => ?_
    extract_lets r s1
    have h1 : Inv s1 := h.writeBootRec
    clear_value s1
    exact .ite h1.frame.updSay.updSay h.updSay.stageAbort

protected theorem Inv.rcvAnswer {iface status body} (h : Inv s) : Inv (rcvAnswer s iface status body) :=
  h.when (·.emit)

protected theorem Inv.execRcvStatus {iface} (h : Inv s) : Completes (.rcvStatus iface) s Inv :=
  ⟨_, rfl, h.branch (·.rcvAnswer) (·.emit)⟩

protected theorem Inv.rcvGuard {iface f} (h : Inv s) (hf2 : ∀ {s}, Inv s → Inv (f s)) : Inv (rcvGuard s iface f) :=
  Inv.ite h.rcvAnswer (Inv.ite h.rcvAnswer (hf2 h))

protected theorem Inv.execRcvBegin {iface size} (h : Inv s) : Completes (.rcvBegin iface size) s Inv :=
  ⟨_, rfl, h.rcvGuard (fun h1 => h1.branch (·.rcvAnswer) (fun h1 => h1.branch (·.rcvAnswer) (·.frame.rcvAnswer)))⟩

protected theorem Inv.execRcvData {iface off data} (h : Inv s) : Completes (.rcvData iface off data) s Inv :=
  ⟨_, rfl, h.rcvGuard (fun h1 => h1.branch (·.rcvAnswer) (fun h1 => h1.branch (·.rcvAnswer) (·.frame.rcvAnswer)))⟩

protected theorem Inv.execRcvEnd {iface} (h : Inv s) : Completes (.rcvEnd iface) s Inv :=
  ⟨_, rfl, h.rcvGuard (fun h1 => h1.branch (·.rcvAnswer) (·.frame.rcvAnswer))⟩

protected theorem Inv.execRcvAbort {iface} (h : Inv s) : Completes (.rcvAbort iface) s Inv :=
  ⟨_, rfl, h.rcvGuard (fun h1 => h1.branch (·.rcvAnswer) (·.frame.rcvAnswer))⟩

protected theorem Inv.execRcvVerifyComplete (h : Inv s) : Completes (.rcvVerifyComplete) s Inv := by
  refine ⟨_, rfl, h.whenNot fun h => ?_⟩
  extract_lets b res fw s1 r1 r s2
  have h2 : Inv s2 := h.flashErase.flashWrite.writeBootRec
  clear_value s2
  exact .ite h.frame h2.frame.romKeys

protected theorem Inv.execRcvInactivityTimeout (h : Inv s) : Completes (.rcvInactivityTimeout) s Inv :=
  ⟨_, rfl, h.when (·.frame)⟩

protected theorem Inv.execFieldRecordFlush (h : Inv s) : Completes (.fieldRecordFlush) s Inv :=
  ⟨_, rfl, h.when (·.frame.flashErase.flashWrite)⟩

protected theorem Inv.loadField (h : Inv s) : Inv (loadField s) :=
  h.branch (·.frame) (fun h => h.branch (·.frame) (·.frame.recErr))

protected theorem Inv.loadCfg (h : Inv s) : Inv (loadCfg s) := by
  unfold loadCfg
  split
  · exact h.frame
  · exact h.frame.recErr

protected theorem Inv.execSplitChangeRequest (h : Inv s) : Completes (.splitChangeRequest) s Inv :=
  ⟨_, rfl, h.branch (·.requestChip) (·.recErr)⟩

/-! #### Ras -/

protected theorem Inv.caError {stack pc ca} (h : Inv s) : Inv (caError s stack pc ca) :=
  h.branch (·.recErr) (fun h => h.branch (fun h => h.frame.when (·.pcPermanent)) (fun h => h.when (·.pcPermanent)))

protected theorem Inv.execHbmRefresh {stack pc ca} (h : Inv s) : Completes (.hbmRefresh stack pc ca) s Inv :=
  ⟨_, rfl, h.when (·.emit.caError)⟩

protected theorem Inv.execRefreshManagementRequest {stack pc} (h : Inv s) :
    Completes (.refreshManagementRequest stack pc) s Inv :=
  ⟨_, rfl, h.when (·.emit)⟩

protected theorem Inv.scrubHbm {stack pc ecc} (h : Inv s) : Inv (scrubHbm s stack pc ecc) :=
  h.whenNot (fun h => h.when (·.checkRead) |>.branch (·.frame) (fun h1 => h1.frame.when (·.rset)))

protected theorem Inv.scrubStg {i bank ecc} (h : Inv s) : Inv (scrubStg s i bank ecc) :=
  h.whenNot fun h => .ite h.checkRead.setScrub (h.checkRead.setScrub.when (·.rset))

protected theorem Inv.execPatrolScrubRead {hbm unit sub ecc} (h : Inv s) :
    Completes (.patrolScrubRead hbm unit sub ecc) s Inv :=
  ⟨_, rfl, h.branch (·.scrubHbm) (·.scrubStg)⟩

protected theorem Inv.execZeroiseComplete {unit} (h : Inv s) : Completes (.zeroiseComplete unit) s Inv :=
  ⟨_, rfl, h.whenNot (fun h => h.frame.branch (·.rset) (·.rset))⟩

protected theorem Inv.setBridge {b st} (h : Inv s) : Inv (setBridge s b st) :=
  h.rset

protected theorem Inv.showBridges (h : Inv s) : Inv (showBridges s) :=
  h.foldl (·.setBridge)

protected theorem Inv.showSplits (h : Inv s) : Inv (showSplits s) :=
  h.foldl (·.rset)

protected theorem Inv.noteBridges (h : Inv s) : Inv (noteBridges s) := by
  unfold noteBridges
  dsimp only
  split
  · exact h.frame.showSplits.recErr.recErr
  · exact h.frame.showSplits.when (fun h1 => h1.foldl (·.recErr))
  · exact h.frame.showSplits

protected theorem Inv.bridgeRetire {b sub} (h : Inv s) : Inv (bridgeRetire s b sub) :=
  h.whenNot (fun h => h.frame.recErr.showBridges.noteBridges.when (·.requestChip))

protected theorem Inv.execBrgFlitCrcFail {b dir grp lane} (h : Inv s) :
    Completes (.brgFlitCrcFail b dir grp lane) s Inv :=
  ⟨_, rfl, h.whenNot (·.frame.recErr.bump)⟩

protected theorem Inv.execBrgLaneSpared {b dir grp lane} (h : Inv s) :
    Completes (.brgLaneSpared b dir grp lane) s Inv :=
  ⟨_, rfl, h.whenNot (fun h => h.frame.branch (·.bridgeRetire) (·.rset.recErr))⟩

protected theorem Inv.execBrgRetired {b dir grp} (h : Inv s) : Completes (.brgRetired b dir grp) s Inv :=
  ⟨_, rfl, h.bridgeRetire⟩

protected theorem Inv.modIsland {i f} (h : Inv s) : Inv (modIsland s i f) :=
  h.frame

protected theorem Inv.pairErr {e a b} (h : Inv s) : Inv (pairErr s e a b) :=
  h.when (·.rset) |>.recErr

protected theorem Inv.showHalf {i} (h : Inv s) : Inv (showHalf s i) :=
  h.modIsland

protected theorem Inv.execIslandSensorSample {a b ta tb} (h : Inv s) :
    Completes (.islandSensorSample a b ta tb) s Inv :=
  ⟨_, rfl, h.when (·.modIsland) |>.when (·.modIsland) |>.whenNot
    (fun h2 => h2.modIsland.showHalf.branch (fun h3 => h3.whenNot (·.modIsland.showHalf.pairErr.bump))
        (fun h3 => h3.when (·.modIsland.showHalf)))⟩

protected theorem Inv.crossingFail {e a b} (h : Inv s) : Inv (crossingFail s e a b) :=
  h.whenNot (fun h => h.pairErr.modIsland.modIsland.branch
    (fun h1 => h1.modCluster.branch (·.clusterPending) (·.corePending.requestPart))
      (fun h1 => h1.branch (·.clusterPending) (·.requestChip)))

protected theorem Inv.execIslandSupplySkew {a b} (h : Inv s) : Completes (.islandSupplySkew a b) s Inv :=
  ⟨_, rfl, h.crossingFail⟩

protected theorem Inv.execIslandClockSkew {a b} (h : Inv s) : Completes (.islandClockSkew a b) s Inv :=
  ⟨_, rfl, h.crossingFail⟩

/-! #### Security -/

protected theorem Inv.endContexts (h : Inv s) : Inv (endContexts s) :=
  h.foldl (·.finishReset)

protected theorem Inv.eraseKeys (h : Inv s) : Inv (eraseKeys s) := by
  unfold eraseKeys
  extract_lets s1
  have h1 : Inv s1 := h.foldl (·.rset)
  clear_value s1
  exact h1.frame

protected theorem Inv.zeroPackage (h : Inv s) : Inv (zeroPackage s) := by
  unfold zeroPackage
  extract_lets s1
  have h1 : Inv s1 :=
    { h with
      mem := rfl, poison := rfl
      cores := (keysRising_map).trans h.cores
      clusters := (keysRising_map).trans h.clusters }
  exact h1.setDumpStatus.foldl (·.zeroRegion)

protected theorem Inv.clearPackage (h : Inv s) : Inv (clearPackage s) :=
  h.endContexts.eraseKeys.zeroPackage

protected theorem Inv.lcStatus {busy res pend} (h : Inv s) : Inv (lcStatus s busy res pend) :=
  h.rset

protected theorem Inv.lcFail {res} (h : Inv s) : Inv (lcFail s res) :=
  h.lcStatus.recErr

protected theorem Inv.lcRequest {next} (h : Inv s) : Inv (lcRequest s next) := by
  unfold lcRequest
  extract_lets res s1
  have h1 : Inv s1 := h.clearPackage
  clear_value s1
  exact .ite h.lcFail h1.frame.lcStatus

protected theorem Inv.execLcToMission {req} (h : Inv s) : Completes (.lcToMission req) s Inv :=
  ⟨_, rfl, h.guardWrite (·.lcRequest)⟩

protected theorem Inv.execLcToReturn {req} (h : Inv s) : Completes (.lcToReturn req) s Inv :=
  ⟨_, rfl, h.guardWrite (·.lcRequest)⟩

protected theorem Inv.execLcToEnd {req} (h : Inv s) : Completes (.lcToEnd req) s Inv :=
  ⟨_, rfl, h.guardWrite (·.lcRequest)⟩

protected theorem Inv.diesOff {reason} (h : Inv s) : Inv (diesOff s reason) := by
  unfold diesOff
  extract_lets s1 d pw
  have h1 : Inv s1 := h.portsOff.linkDrop.endGrants
  have h2 : Inv d := h1.setDumpStatus
  clear_value s1 d
  exact
    { h2 with
      mem := rfl, poison := rfl
      cores := (keysRising_map).trans h1.cores
      clusters := (keysRising_map).trans h1.clusters }

protected theorem Inv.holdAtS1 (h : Inv s) : Inv (holdAtS1 s) :=
  h.diesOff.setStage

protected theorem Inv.execLcTransitionComplete {ok} (h : Inv s) : Completes (.lcTransitionComplete ok) s Inv := by
  refine ⟨_, rfl, ?_⟩
  split
  · exact h
  · exact h.branch (·.frame.lcFail) (·.frame.lcStatus.holdAtS1.powerCycleReq)

protected theorem Inv.lcStop (h : Inv s) : Inv (lcStop s) := by
  unfold lcStop
  split
  · exact h
  · exact h.drawWord.frame.lcStatus.recErr

protected theorem Inv.bistAbandon (h : Inv s) : Inv (bistAbandon s) :=
  h.frame.bump

protected theorem Inv.freezeActs (h : Inv s) : Inv (freezeActs s) :=
  h.endGrants.bistAbandon.stageAbort.lcStop

protected theorem Inv.fireAlarm {src} (h : Inv s) : Inv (fireAlarm s src) :=
  h.rset.frame.bump.branch (·.recErr)
    (fun h1 => h1.when (·.rset) |>.frame |>.freezeActs |>.branch (·.eraseKeys.recErr) (·.recErr)
      |>.when (·.dumpStart))

protected theorem Inv.execAlarmVglitch (h : Inv s) : Completes (.alarmVglitch) s Inv :=
  ⟨_, rfl, h.fireAlarm⟩

protected theorem Inv.execAlarmCglitch (h : Inv s) : Completes (.alarmCglitch) s Inv :=
  ⟨_, rfl, h.fireAlarm⟩

protected theorem Inv.execAlarmTemp (h : Inv s) : Completes (.alarmTemp) s Inv :=
  ⟨_, rfl, h.fireAlarm⟩

protected theorem Inv.execAlarmMesh (h : Inv s) : Completes (.alarmMesh) s Inv :=
  ⟨_, rfl, h.fireAlarm⟩

protected theorem Inv.execAlarmFuse (h : Inv s) : Completes (.alarmFuse) s Inv :=
  ⟨_, rfl, h.fireAlarm⟩

protected theorem Inv.misuse {cause} (h : Inv s) : Inv (misuse s cause) :=
  h.recErr.when (·.frame.rset) |>.fireAlarm

protected theorem Inv.execAlarmDebug {cause} (h : Inv s) : Completes (.alarmDebug cause) s Inv :=
  ⟨_, rfl, h.misuse⟩

protected theorem Inv.alarmCfg {v} (h : Inv s) : Inv (alarmCfg s v) :=
  h.whenNot (·.rset)

protected theorem Inv.execSecAlarmCfgWrite {req v} (h : Inv s) : Completes (.secAlarmCfgWrite req v) s Inv :=
  ⟨_, rfl, h.guardWrite (·.alarmCfg)⟩

protected theorem Inv.mgmtOut {what data} (h : Inv s) : Inv (mgmtOut s what data) :=
  h.emit

protected theorem Inv.freshNonce (h : Inv s) : Inv (freshNonce s) := by
  unfold freshNonce
  dsimp only
  exact h.drawWords.foldl (·.rset)

protected theorem Inv.execDbgGetNonce (h : Inv s) : Completes (.dbgGetNonce) s Inv :=
  ⟨_, rfl, h.freshNonce.mgmtOut⟩

protected theorem Inv.grant {level mask token} (h : Inv s) : Inv (grant s level mask token) :=
  h.branch (·.rset.frame) (fun h => h.foldl (·.rset.frame)) |>.recErr

protected theorem Inv.setTokenStatus {res} (h : Inv s) : Inv (setTokenStatus s res) :=
  h.rset

protected theorem Inv.tokenBad {res pur} (h : Inv s) : Inv (tokenBad s res pur) :=
  h.frame.bump.setTokenStatus.recErr.branch (·.misuse) (fun h1 => h1.when (·.misuse))

protected theorem Inv.execDbgToken {t} (h : Inv s) : Completes (.dbgToken t) s Inv :=
  ⟨_, rfl, h.freshNonce.branch (·.tokenBad) (fun h1 => h1.setTokenStatus.branch (·.frame) (·.grant)) |>.mgmtOut⟩

protected theorem Inv.execDbgRevoke {mask} (h : Inv s) : Completes (.dbgRevoke mask) s Inv :=
  ⟨_, rfl, h.endGrants.mgmtOut⟩

protected theorem Inv.execDbgStatus (h : Inv s) : Completes (.dbgStatus) s Inv :=
  ⟨_, rfl, h.mgmtOut⟩

protected theorem Inv.execDbgCmdRevoke {req mask} (h : Inv s) : Completes (.dbgCmdRevoke req mask) s Inv :=
  ⟨_, rfl, h.guardWrite (·.endGrants)⟩

protected theorem Inv.execDbgCmdRevokeAll {req} (h : Inv s) : Completes (.dbgCmdRevokeAll req) s Inv :=
  ⟨_, rfl, h.guardWrite (·.endGrants)⟩

protected theorem Inv.execDbgCmdOpen {req level mask} (h : Inv s) : Completes (.dbgCmdOpen req level mask) s Inv :=
  ⟨_, rfl, h.guardWrite (fun h1 => h1.whenNot (·.grant))⟩

protected theorem Inv.execTokenLockoutExpiry (h : Inv s) : Completes (.tokenLockoutExpiry) s Inv :=
  ⟨_, rfl, h.frame.rset⟩

protected theorem Inv.dbgWrite {a v} (h : Inv s) : Inv (dbgWrite s a v) := by
  unfold dbgWrite
  split
  · exact h.modStrand
  · exact h.modStrand
  · exact h.whenNot (·.modStrand)
  · exact h.modCore
  · split
    · exact h.modSync
    · exact h
  · exact h.writeWin

protected theorem Inv.execJtagInstruction {cls ir acc} (h : Inv s) : Completes (.jtagInstruction cls ir acc) s Inv := by
  refine ⟨_, rfl, ?_⟩
  exact Inv.ite (h.rset.emit.recErr.when (·.misuse))
    (by
      split
      · split
        · exact h.rset.emit
        · split
          · exact h.rset.dbgWrite.emit
          · exact h.rset.emit
      · exact h.rset.emit)

protected theorem Inv.traceCtrl {req clu v} (h : Inv s) : Inv (traceCtrl s req clu v) :=
  h.branch (·.denied)
    (fun h => h.branch (·.modCluster.rset) (fun h => h.branch (·.modCluster.rset) (·.modCluster.rset)))

protected theorem Inv.execTraceEnable {req clu v} (h : Inv s) : Completes (.traceEnable req clu v) s Inv :=
  ⟨_, rfl, h.guardWrite (·.traceCtrl)⟩

protected theorem Inv.keyRefused {p sl} (h : Inv s) : Inv (keyRefused s p sl) :=
  h.recErr.mgmtOut

protected theorem Inv.setEncTx {p slot on} (h : Inv s) : Inv (setEncTx s p slot on) :=
  h.rset

protected theorem Inv.keyMessage {sess p sl ok f} (h : Inv s) (hf5 : ∀ {s}, Inv s → Inv (f s)) :
    Inv (keyMessage s sess p sl ok f) :=
  Inv.ite h (Inv.ite h.keyRefused (hf5 h |>.mgmtOut))

protected theorem Inv.fabKeySet {sess p sl key} (h : Inv s) : Inv (fabKeySet s sess p sl key) :=
  h.keyMessage (·.frame)

protected theorem Inv.fabKeyDelete {sess p sl} (h : Inv s) : Inv (fabKeyDelete s sess p sl) :=
  h.keyMessage (·.frame)

protected theorem Inv.fabKeyTx {sess p sl} (h : Inv s) : Inv (fabKeyTx s sess p sl) :=
  h.keyMessage (·.setEncTx)

protected theorem Inv.fabEnc {sess p on} (h : Inv s) : Inv (fabEnc s sess p on) :=
  h.keyMessage (·.setEncTx)

protected theorem Inv.execFabKeySet {sess p sl key} (h : Inv s) : Completes (.fabKeySet sess p sl key) s Inv :=
  ⟨_, rfl, h.fabKeySet⟩

protected theorem Inv.execFabKeyDelete {sess p sl} (h : Inv s) : Completes (.fabKeyDelete sess p sl) s Inv :=
  ⟨_, rfl, h.fabKeyDelete⟩

protected theorem Inv.execFabKeyTx {sess p sl} (h : Inv s) : Completes (.fabKeyTx sess p sl) s Inv :=
  ⟨_, rfl, h.fabKeyTx⟩

protected theorem Inv.execFabEnc {sess p on} (h : Inv s) : Completes (.fabEnc sess p on) s Inv :=
  ⟨_, rfl, h.fabEnc⟩

/-! #### Link -/

protected theorem Inv.linkCtl {i op token lanes temp} (h : Inv s) : Inv (linkCtl s i op token lanes temp) :=
  h.modPort

protected theorem Inv.askCtl {i op lanes temp} (h : Inv s) : Inv (askCtl s i op lanes temp) :=
  h.modPort.linkCtl

protected theorem Inv.dropCtl {i op} (h : Inv s) : Inv (dropCtl s i op) :=
  h.modPort

protected theorem Inv.markToken {i op token} (h : Inv s) : Inv (markToken s i op token) :=
  h.modPort

protected theorem Inv.fabRetire {i reason} (h : Inv s) : Inv (fabRetire s i reason) :=
  h.dropFlits.dropPlane.rset.setFab.recErr.planeFailed

protected theorem Inv.setLanes {i set} (h : Inv s) : Inv (setLanes s i set) :=
  h.rset.when (·.recErr)

protected theorem Inv.fabCarry {i set} (h : Inv s) : Inv (fabCarry s i set) :=
  h.setLanes.branch (·.setFab.retryAllHeld) (fun h1 => h1.branch (·.setFab.retryAllHeld) (·.fabRetire))

protected theorem Inv.startPause {i} (h : Inv s) : Inv (startPause s i) :=
  h.branch (·.fabRetire) (·.modPort.setFab.dropCtl.askCtl)

protected theorem Inv.lanesChanged {i} (h : Inv s) : Inv (lanesChanged s i) :=
  h.branch (·.startPause) (·.showLanes)

protected theorem Inv.reflStatus {i busy done aborted res fibre swept} (h : Inv s) :
    Inv (reflStatus s i busy done aborted res fibre swept) :=
  h.rset

protected theorem Inv.sweepLane {i n} (h : Inv s) : Inv (sweepLane s i n) :=
  h.whenNot (fun h => h.branch (·.reflStatus) (fun h => h.frame.whenNot (·.reflStatus)))

protected theorem Inv.markRetired {i n} (h : Inv s) : Inv (markRetired s i n) :=
  h.rset.rset.sweepLane

protected theorem Inv.retireLane {i n} (h : Inv s) : Inv (retireLane s i n) :=
  h.whenNot (·.recErr.markRetired.lanesChanged)

protected theorem Inv.fabRetrain {i cause} (h : Inv s) : Inv (fabRetrain s i cause) :=
  h.modPort.bump.branch (·.fabRetire.recErr) (fun h1 => h1.recErr.dropFlits.whenNot (·.askCtl) |>.setFab)

protected theorem Inv.execFabCmdEnable {req i} (h : Inv s) : Completes (.fabCmdEnable req i) s Inv :=
  ⟨_, rfl, h.guardWrite (fun h1 => h1.when (·.fabEnable))⟩

protected theorem Inv.execFabCmdDisable {req i} (h : Inv s) : Completes (.fabCmdDisable req i) s Inv :=
  ⟨_, rfl, h.guardWrite (·.fabDisable)⟩

protected theorem Inv.execFabCmdRetrain {req i} (h : Inv s) : Completes (.fabCmdRetrain req i) s Inv :=
  ⟨_, rfl, h.guardWrite (fun h1 => h1.when (·.fabRetrain))⟩

protected theorem Inv.execFabCmdRecheck {req i} (h : Inv s) : Completes (.fabCmdRecheck req i) s Inv :=
  ⟨_, rfl, h.guardWrite (fun h1 => h1.when (·.modPort.setFab))⟩

protected theorem Inv.execFabCmdClear {req i} (h : Inv s) : Completes (.fabCmdClear req i) s Inv :=
  ⟨_, rfl, h.guardWrite (fun h1 => h1.when (·.fabClear))⟩

protected theorem Inv.execFabCmdRetireLane {req i lane} (h : Inv s) :
    Completes (.fabCmdRetireLane req i lane) s Inv :=
  ⟨_, rfl, h.guardWrite (·.retireLane)⟩

protected theorem Inv.execFabSignalDetect {i lanes} (h : Inv s) : Completes (.fabSignalDetect i lanes) s Inv :=
  ⟨_, rfl, h.when (fun h => h.when (·.setEngine) |>.modPort |>.setFab)⟩

protected theorem Inv.execDownProbe {i} (h : Inv s) : Completes (.downProbe i) s Inv :=
  ⟨_, rfl, h.when (·.emit)⟩

protected theorem Inv.noteTrain {i x} (h : Inv s) : Inv (noteTrain s i x) :=
  h.rset.rset

protected theorem Inv.execTrainingAttemptEnd {i lanes signal} (h : Inv s) :
    Completes (.trainingAttemptEnd i lanes signal) s Inv :=
  ⟨_, rfl, h.whenNot
    (fun h => h.foldl (fun h1 => h1.when (·.noteTrain)) |>.branch
      (fun h2 => h2.foldl (·.markRetired.recErr) |>.rset |>.setLocks |>.modPort |>.setFab)
        (fun h2 => h2.modPort.when (·.fabRetire)))⟩

protected theorem Inv.adoptCoord {c} (h : Inv s) : Inv (adoptCoord s c) :=
  h.whenNot (fun h => h.foldl (·.rset))

protected theorem Inv.identityAccept {i f rtt} (h : Inv s) : Inv (identityAccept s i f rtt) :=
  h.rset.rset.rset.rset.rset.rset.adoptCoord.modPort.foldl (·.recErr.markRetired)

protected theorem Inv.identityDone {i plane} (h : Inv s) : Inv (identityDone s i plane) :=
  h.dropFlits.modPort.rset.fabCarry.when (·.recErr) |>.whenNot (·.recErr.raiseInt)

protected theorem Inv.execIdentityFrame {i f rtt} (h : Inv s) : Completes (.identityFrame i f rtt) s Inv :=
  ⟨_, rfl, h.whenNot (fun h => h.branch (·.recErr.fabDisable)
        (fun h => h.branch (·.dropPlane.modPort.setFab.recErr)
          (fun h => h.identityAccept.when (·.modPort) |>.setFab)))⟩

protected theorem Inv.execIdentifyTimeout {i} (h : Inv s) : Completes (.identifyTimeout i) s Inv :=
  ⟨_, rfl, h.when (·.modPort.setFab)⟩

protected theorem Inv.sendFlit {i lane b} (h : Inv s) : Inv (sendFlit s i lane b) :=
  h.emit.modPort

protected theorem Inv.sendIdle {i lane} (h : Inv s) : Inv (sendIdle s i lane) :=
  h.sendFlit

protected theorem Inv.idleOthers {i} (h : Inv s) : Inv (idleOthers s i) :=
  h.foldl (·.sendIdle)

protected theorem Inv.idleTurn {i} (h : Inv s) : Inv (idleTurn s i) :=
  h.sendIdle

protected theorem Inv.resendFlit {i f} (h : Inv s) : Inv (resendFlit s i f) := by
  unfold resendFlit
  split
  · exact h.modPort.sendFlit
  · exact h.modPort.idleTurn

protected theorem Inv.carryFlit {i} (h : Inv s) : Inv (carryFlit s i) := by
  unfold carryFlit
  dsimp only
  split
  · exact h.resendFlit
  · exact h.branch (·.idleTurn) (·.modPort.bumpUnit.sendFlit)

protected theorem Inv.pausedFlit {i} (h : Inv s) : Inv (pausedFlit s i) := by
  unfold pausedFlit
  split
  · exact h.resendFlit
  · exact h.idleTurn

protected theorem Inv.identFlits {i} (h : Inv s) : Inv (identFlits s i) :=
  h.foldl (·.sendFlit) |>.whenNot (fun h2 => h2.branch (·.identityDone) (·.modPort))

protected theorem Inv.execFlitTransmit {i} (h : Inv s) : Completes (.flitTransmit i) s Inv :=
  ⟨_, rfl, h.branch (·.carryFlit.idleOthers.portLeave)
      (fun h => h.branch (·.pausedFlit.idleOthers)
        (fun h => h.branch (·.identFlits)
          (fun h => h.branch (fun h => h.foldl (·.sendIdle)) (fun h => h.when (·.sendIdle)))))⟩

protected theorem Inv.flitHeader {i lane b} (h : Inv s) : Inv (flitHeader s i lane b) :=
  h.modPort.when (·.modPort.bump.recErr)

protected theorem Inv.flitBad {i lane mine} (h : Inv s) : Inv (flitBad s i lane mine) :=
  h.whenNot (fun h => h.bump.recErr.modPort.when (·.fabRetrain))

protected theorem Inv.takeData {i data} (h : Inv s) : Inv (takeData s i data) :=
  h.modPort.bumpUnit

protected theorem Inv.takeEarly {i fuel} {s : State} (h : Inv s) : Inv (takeEarly s i fuel) := by
  unfold takeEarly
  split
  · exact h
  · split
    · exact h
    · exact h.modPort.takeData.takeEarly

protected theorem Inv.execFlitReceive {i lane symbols skewOver replayBad} (h : Inv s) :
    Completes (.flitReceive i lane symbols skewOver replayBad) s Inv := by
  refine ⟨_, rfl, ?_⟩
  dsimp only
  split
  · exact h.whenNot (·.bump)
  · split
    · exact h.fabRetrain.recErr
    · split
      · exact h.bump.flitBad
      · exact h.branch (·.flitBad)
          (fun h => h.flitHeader.branch (fun h1 => h1.when (·.flitBad))
            (fun h1 => h1.branch (·.takeData.takeEarly)
              (fun h1 => h1.whenNot (fun h1 => h1.branch (·.flitBad) (·.modPort)))))

protected theorem Inv.askStandby {i} (h : Inv s) : Inv (askStandby s i) :=
  h.when (·.askCtl.modPort)

protected theorem Inv.takeLanes {i lanes temp both} (h : Inv s) : Inv (takeLanes s i lanes temp both) :=
  h.whenNot (·.rset) |>.branch (·.rset) (fun h1 => h1.foldl (·.recErr.markRetired))

protected theorem Inv.pauseSet {i lanes} (h : Inv s) : Inv (pauseSet s i lanes) :=
  h.branch (·.fabRetire) (·.modPort.setLanes.setFab)

protected theorem Inv.execPauseReq {i token lanes temp} (h : Inv s) :
    Completes (.pauseReq i token lanes temp) s Inv :=
  ⟨_, rfl, h.whenNot (·.takeLanes.dropCtl.modPort.pauseSet.linkCtl)⟩

protected theorem Inv.execPauseAck {i token lanes} (h : Inv s) : Completes (.pauseAck i token lanes) s Inv :=
  ⟨_, rfl, h.when (·.modPort.dropCtl.pauseSet)⟩

protected theorem Inv.execPauseComplete {i} (h : Inv s) : Completes (.pauseComplete i) s Inv :=
  ⟨_, rfl, h.whenNot (fun h => h.bump.modPort.linkCtl.fabCarry.when (·.askStandby))⟩

protected theorem Inv.execLinkResume {r} (h : Inv s) : Completes (.linkResume r) s Inv :=
  ⟨_, rfl, h.when (·.markToken.modPort)⟩

protected theorem Inv.execRetrainReq {r} (h : Inv s) : Completes (.retrainReq r) s Inv :=
  ⟨_, rfl, h.when (·.markToken.fabRetrain)⟩

protected theorem Inv.fabStandby {i} (h : Inv s) : Inv (fabStandby s i) :=
  h.dropCtl.standbyLasers.modPort.setFab

protected theorem Inv.execStandbyReq {i token} (h : Inv s) : Completes (.standbyReq i token) s Inv :=
  ⟨_, rfl, h.when (·.markToken.linkCtl.fabStandby)⟩

protected theorem Inv.execStandbyAck {i token} (h : Inv s) : Completes (.standbyAck i token) s Inv :=
  ⟨_, rfl, h.when (·.fabStandby)⟩

protected theorem Inv.wakePort {i sent} (h : Inv s) : Inv (wakePort s i sent) :=
  h.whenNot (fun h => h.when (·.askCtl) |>.standbyLasers |>.setFab |>.when (·.startPause))

protected theorem Inv.execWake {i received} (h : Inv s) : Completes (.wake i received) s Inv := by
  refine ⟨_, rfl, ?_⟩
  split
  · exact h.wakePort
  · exact h.when (·.markToken.wakePort)

protected theorem Inv.execKeepalive {i} (h : Inv s) : Completes (.keepalive i) s Inv :=
  ⟨_, rfl, h.when (·.askCtl.sendIdle)⟩

protected theorem Inv.execLaneBerWindow {i lane m e} (h : Inv s) : Completes (.laneBerWindow i lane m e) s Inv :=
  ⟨_, rfl, h.rset.modPort.rset.when (·.recErr) |>.when (·.retireLane)⟩

protected theorem Inv.execLaneUncorrWindow {i lane count} (h : Inv s) :
    Completes (.laneUncorrWindow i lane count) s Inv :=
  ⟨_, rfl, h.rset.when (·.retireLane)⟩

protected theorem Inv.execLaneLockLoss {i lanes} (h : Inv s) : Completes (.laneLockLoss i lanes) s Inv :=
  ⟨_, rfl, h.setLocks.branch (fun h1 => h1.when (·.fabDown.recErr))
      (fun h1 => h1.branch (fun h1 => h1.whenNot (·.rset.lanesChanged)) (·.modPort))⟩

protected theorem Inv.execLaneLockTimeout {i lane} (h : Inv s) : Completes (.laneLockTimeout i lane) s Inv :=
  ⟨_, rfl, h.when (·.retireLane)⟩

protected theorem Inv.execLaneRelock {i lane} (h : Inv s) : Completes (.laneRelock i lane) s Inv :=
  ⟨_, rfl, h.whenNot (·.setLocks)⟩

protected theorem Inv.execLaneRetrainComplete {i lane} (h : Inv s) : Completes (.laneRetrainComplete i lane) s Inv :=
  ⟨_, rfl, h.when (·.rset.lanesChanged)⟩

protected theorem Inv.execLaneDarkTimeout {i lane} (h : Inv s) : Completes (.laneDarkTimeout i lane) s Inv :=
  ⟨_, rfl, h.when (·.retireLane)⟩

/-! #### Optics -/

protected theorem Inv.modEngine {i f} (h : Inv s) : Inv (modEngine s i f) :=
  h.frame

protected theorem Inv.modLaser {i l f} (h : Inv s) : Inv (modLaser s i l f) :=
  h.modEngine

protected theorem Inv.warmSpare {i k planned} (h : Inv s) : Inv (warmSpare s i k planned) :=
  h.modEngine.modLaser

protected theorem Inv.execOptLaserWarn {i l} (h : Inv s) : Completes (.optLaserWarn i l) s Inv := by
  refine ⟨_, rfl, ?_⟩
  split
  · exact h
  · exact h.whenNot (fun h => h.modLaser.recErr.when (·.warmSpare))

protected theorem Inv.execOptLaserFault {i l} (h : Inv s) : Completes (.optLaserFault i l) s Inv := by
  refine ⟨_, rfl, ?_⟩
  dsimp only
  split
  · exact h
  · split
    · exact h.modLaser
    · exact h.modLaser.branch (·.warmSpare.setLocks.rset.lanesChanged)
        (fun h1 => h1.recErr.setEngine.foldl (·.retireLane))

protected theorem Inv.execLaserWarmComplete {i} (h : Inv s) : Completes (.laserWarmComplete i) s Inv := by
  refine ⟨_, rfl, ?_⟩
  split
  · exact h
  · exact h.modEngine.whenNot
      (fun h1 => h1.modLaser.when (·.modLaser) |>.rset |>.recErr |>.setEngine |>.branch (·.lanesChanged)
        (·.rset.setLocks.lanesChanged))

protected theorem Inv.execOptTempRead {i t} (h : Inv s) : Completes (.optTempRead i t) s Inv := by
  refine ⟨_, rfl, ?_⟩
  extract_lets hot was s1 s2
  have h1 : Inv s1 := h.rset
  have h2 : Inv s2 := h1.when (·.recErr)
  clear_value s2 s1
  refine h1.whenNot fun _ => ?_
  cases t with
  | none => exact h2
  | some t =>
    exact h2.branch (·.modEngine.recErr.whenNot (·.fabDisable)) (·.when (·.modEngine.when (·.fabEnable)))

protected theorem Inv.sweepStart {i fibres} (h : Inv s) : Inv (sweepStart s i fibres) :=
  h.whenNot (fun h => h.branch (·.reflStatus)
    (fun h => h.whenNot (fun h => h.branch (·.reflStatus) (·.modEngine.reflStatus))))

protected theorem Inv.execOptReflStart {req i fibre} (h : Inv s) : Completes (.optReflStart req i fibre) s Inv :=
  ⟨_, rfl, h.guardWrite (fun h1 => h1.branch (·.sweepStart) (fun h1 => h1.when (·.sweepStart)))⟩

protected theorem Inv.execOptReflPeriodic {i} (h : Inv s) : Completes (.optReflPeriodic i) s Inv :=
  ⟨_, rfl, h.whenNot (·.sweepStart)⟩

protected theorem Inv.execOptReflAbort {req i} (h : Inv s) : Completes (.optReflAbort req i) s Inv :=
  ⟨_, rfl, h.guardWrite (fun h1 => h1.when (·.modEngine))⟩

protected theorem Inv.setWorst {i f g} (h : Inv s) : Inv (setWorst s i f g) :=
  h.rset

protected theorem Inv.reflRecord {i f evs} (h : Inv s) : Inv (reflRecord s i f evs) :=
  h.modEngine.setWorst.foldl (fun h1 => h1.whenNot (·.recErr))

protected theorem Inv.execReflFibreComplete {i evs} (h : Inv s) : Completes (.reflFibreComplete i evs) s Inv := by
  refine ⟨_, rfl, ?_⟩
  split
  · exact h
  · exact h.whenNot (fun h => h.reflRecord.branch (·.modEngine.reflStatus) (·.modEngine.reflStatus))

protected theorem Inv.execOptProbeFail {i} (h : Inv s) : Completes (.optProbeFail i) s Inv :=
  ⟨_, rfl, h.modEngine.rset.recErr.when (·.modEngine.reflStatus)⟩

/-! #### Peal -/

protected theorem Inv.bootFatal {cause} (h : Inv s) : Inv (bootFatal s cause) :=
  h.recErr.branch (·.requestChip) (fun h1 => h1.branch (·.rset.holdAtS1.powerCycleReq) (·.frame.setStage))

protected theorem Inv.modPeal {n f} (h : Inv s) : Inv (modPeal s n f) :=
  h.frame

protected theorem Inv.execPealChunk {n b} (h : Inv s) : Completes (.pealChunk n b) s Inv := by
  refine ⟨_, rfl, ?_⟩
  split
  · exact h
  · exact h.whenNot (·.modPeal)

protected theorem Inv.execPealEnd {n} (h : Inv s) : Completes (.pealEnd n) s Inv :=
  ⟨_, rfl, h.modPeal⟩

protected theorem Inv.pealFail {n} (h : Inv s) : Inv (pealFail s n) :=
  h.modPeal.modCluster.retireCore.formMap

protected theorem Inv.storeFail {c n} (h : Inv s) : Inv (storeFail s c n) :=
  h.branch (·.frame.recErr.bootFatal) (·.frame.pealStart)

protected theorem Inv.pealPass {n c fails} (h : Inv s) : Inv (pealPass s n c fails) :=
  h.bump.whenNot (·.recErr) |>.branch (·.modPeal) (fun h2 => h2.modPeal.when (·.pealFail))

protected theorem Inv.execPealFetchPass {n fails damage} (h : Inv s) :
    Completes (.pealFetchPass n fails damage) s Inv := by
  refine ⟨_, rfl, ?_⟩
  split
  · exact h
  · exact h.whenNot (fun h => h.whenNot (·.frame) |>.branch (·.storeFail) (·.pealPass))

/-! #### Bist -/

protected theorem Inv.setLastFail {b permanent} (h : Inv s) : Inv (setLastFail s b permanent) :=
  h.rset.rset

protected theorem Inv.setPhase {c i phase} (h : Inv s) : Inv (setPhase s c i phase) :=
  h.frame

protected theorem Inv.execBistSliceSchedule {c i} (h : Inv s) : Completes (.bistSliceSchedule c i) s Inv :=
  ⟨_, rfl, h.whenNot (·.frame)⟩

protected theorem Inv.sliceBegin {c i phase} (h : Inv s) : Inv (sliceBegin s c i phase) :=
  h.frame

protected theorem Inv.sliceSave {b g ecc} (h : Inv s) : Inv (sliceSave s b g ecc) := by
  unfold sliceSave
  dsimp only
  split
  · exact h
  · split
    · exact h.memCorr
    · exact h.branch (·.recErr) (fun h => h.branch (·.recErr) (fun h => h.when (·.recErr)))
  · split
    · exact h.memCorr
    · exact h.branch (·.recErr) (fun h => h.branch (·.recErr) (fun h => h.when (·.recErr)))
  · split
    · exact h.memCorr
    · exact h.branch (·.recErr) (fun h => h.branch (·.recErr) (fun h => h.when (·.recErr)))
  · exact Inv.setLastFail (by
      split
      · exact h.poisonGranule
      · exact h) |>.recErr
  · exact Inv.setLastFail (by
      split
      · exact h.poisonGranule
      · exact h) |>.recErr

protected theorem Inv.execBistSliceStart {c i g ecc} (h : Inv s) : Completes (.bistSliceStart c i g ecc) s Inv := by
  refine ⟨_, rfl, ?_⟩
  split
  · exact h
  · exact h.whenNot (fun h => h.frame.sliceBegin.sliceSave.when (·.modCluster))

protected theorem Inv.bistNext {b} (h : Inv s) : Inv (bistNext s b) :=
  h.branch (·.frame) (fun h => h.branch (·.frame) (·.frame))

protected theorem Inv.execBistSliceComplete {c i g pass ecc} (h : Inv s) :
    Completes (.bistSliceComplete c i g pass ecc) s Inv := by
  refine ⟨_, rfl, ?_⟩
  cases sliceOf s c i 1 with
  | none => exact h
  | some b =>
    cases ecc with
    | uncorr => exact h.bump.sliceSave.branch (·.setPhase.bistNext) (·.setPhase.bump.setLastFail)
    | memUncorr _ => exact h.bump.sliceSave.branch (·.setPhase.bistNext) (·.setPhase.bump.setLastFail)
    | _ => exact h.bump.branch (·.setPhase.bistNext) (·.setPhase.bump.setLastFail)

protected theorem Inv.bistRule {b rows} (h : Inv s) : Inv (bistRule s b rows) := by
  unfold bistRule
  split
  · exact h.foldl (fun h1 => Inv.ite h1.stgRowPermanent
        (by
          split
          · exact h1.stgRowPermanent
          · exact h1.frame))
  · exact h.branch (·.corePending) (fun h => h.frame.when (·.modCluster))

protected theorem Inv.execBistSliceRetry {c i pass rows} (h : Inv s) :
    Completes (.bistSliceRetry c i pass rows) s Inv := by
  refine ⟨_, rfl, ?_⟩
  split
  · exact h
  · exact h.whenNot
      (fun h => h.frame.bump.setPhase.bistNext.branch (·.setLastFail.recErr) (·.bump.setLastFail.recErr.bistRule))

protected theorem Inv.execBstDirectCmd {req v} (h : Inv s) : Completes (.bstDirectCmd req v) s Inv :=
  ⟨_, rfl, h.guardWrite (fun h1 => h1.whenNot (fun h1 => h1.branch (·.rset.recErr) (·.frame.rset)))⟩

protected theorem Inv.directZero {c i} (h : Inv s) : Inv (directZero s c i) := by
  unfold directZero
  split
  · exact h.zeroMem
  · exact h.zeroMem
  · exact h.modCore
  · exact h.modCore
  · exact h.modCore
  · exact h.frame
  · exact h.modCore
  · exact h.modCluster
  · exact h.modPort
  · exact h.frame

protected theorem Inv.execDirectBistComplete {pass} (h : Inv s) : Completes (.directBistComplete pass) s Inv := by
  refine ⟨_, rfl, ?_⟩
  split
  · exact h
  · exact h.frame.directZero.rset

protected theorem Inv.execScanRequest (h : Inv s) : Completes (.scanRequest) s Inv := by
  refine ⟨_, rfl, h.branch (·.recErr) fun h => ?_⟩
  extract_lets s1
  have h1 : Inv s1 := h.clearPackage
  clear_value s1
  exact h1.frame.rset

protected theorem Inv.execScanOpen (h : Inv s) : Completes (.scanOpen) s Inv :=
  ⟨_, rfl, h.whenNot (·.frame.endGrants.rset.powerCycleReq)⟩

/-! #### Power -/

protected theorem Inv.lowerEff (h : Inv s) : Inv (lowerEff s) :=
  h.frame

protected theorem Inv.pwrResult {busy res} (h : Inv s) : Inv (pwrResult s busy res) :=
  h.rset

protected theorem Inv.pwrCmd {req f} (h : Inv s) (hf2 : ∀ {s}, Inv s → Inv (f s)) : Inv (pwrCmd s req f) :=
  h.guardWrite (fun h1 => Inv.ite h1 (hf2 h1))

protected theorem Inv.enterA2 {target} (h : Inv s) : Inv (enterA2 s target) :=
  h.branch (·.pwrResult)
    (fun h => h.branch (·.pwrResult)
      (fun h => h.branch (·.diesOff.pwrResult)
        (fun h => h.branch (·.pwrResult)
          (fun h => h.branch (·.pwrResult) (fun h => h.frame.pwrResult.foldl (·.askStandby))))))

protected theorem Inv.enterA0 {pldm} (h : Inv s) : Inv (enterA0 s pldm) :=
  h.branch (·.frame.pwrResult.pealStart)
    (fun h => h.branch (fun h => h.branch (·.requestChip.pwrResult) (·.pwrResult)) (·.leaveA1.pwrResult))

protected theorem Inv.execPwrStateCmdA0 {req} (h : Inv s) : Completes (.pwrStateCmdA0 req) s Inv :=
  ⟨_, rfl, h.pwrCmd (·.enterA0)⟩

protected theorem Inv.execPwrStateCmdA2 {req} (h : Inv s) : Completes (.pwrStateCmdA2 req) s Inv :=
  ⟨_, rfl, h.pwrCmd (·.enterA2)⟩

protected theorem Inv.execPwrStateCmdA3 {req} (h : Inv s) : Completes (.pwrStateCmdA3 req) s Inv :=
  ⟨_, rfl, h.pwrCmd (·.enterA2)⟩

protected theorem Inv.execA1IdleEntry (h : Inv s) : Completes (.a1IdleEntry) s Inv :=
  ⟨_, rfl, h.whenNot (·.frame)⟩

protected theorem Inv.setStacks {p f} (h : Inv s) : Inv (setStacks s p f) :=
  h.foldl (fun h1 => h1.when (·.rset))

protected theorem Inv.computeOff (h : Inv s) : Inv (computeOff s) :=
  { h with
    mem := Memory.wf_filter _ h.mem, poison := keysRising_filter _ h.poison
    cores := (keysRising_map).trans h.cores
    clusters := (keysRising_map).trans h.clusters }

protected theorem Inv.execA2EntryComplete (h : Inv s) : Completes (.a2EntryComplete) s Inv := by
  refine ⟨_, rfl, ?_⟩
  cases s.power.moving with
  | none => exact h
  | some t =>
    refine h.whenNot fun h => ?_
    extract_lets s1 s2
    have h1 : Inv s1 := h.setStacks.computeOff
    clear_value s1
    exact h1.frame.pwrResult.when (·.diesOff)

protected theorem Inv.execA2ExitComplete (h : Inv s) : Completes (.a2ExitComplete) s Inv := by
  refine ⟨_, rfl, h.whenNot fun h => ?_⟩
  extract_lets s1 s2
  have h2 : Inv s2 := h.setStacks.foldl (·.wakePort)
  clear_value s2
  exact h2.frame.pwrResult

protected theorem Inv.execPwrStateFail (h : Inv s) : Completes (.pwrStateFail) s Inv :=
  ⟨_, rfl, h.whenNot (·.frame.recErr.requestChip)⟩

protected theorem Inv.execPowerGrant {n k} (h : Inv s) : Completes (.powerGrant n k) s Inv := by
  refine ⟨_, rfl, ?_⟩
  split
  · exact h
  · exact h.whenNot (fun h => h.branch (·.modSlot.frame) (fun h => h.whenNot (·.frame.bump)))

protected theorem Inv.recomputePools {uncovered} (h : Inv s) : Inv (recomputePools s uncovered) :=
  h.frame

protected theorem Inv.execPoolRecompute {uncovered} (h : Inv s) : Completes (.poolRecompute uncovered) s Inv :=
  ⟨_, rfl, h.recomputePools⟩

protected theorem Inv.execFastLoopTick {avg10us avg1ms peak} (h : Inv s) :
    Completes (.fastLoopTick avg10us avg1ms peak) s Inv :=
  ⟨_, rfl, h.rset.branch (fun h1 => h1.branch (·.frame) (·.frame) |>.when (·.recErr))
      (fun h1 => h1.when (fun h1 => h1.branch (·.frame) (·.frame)))⟩

protected theorem Inv.execPwrbrkAssert (h : Inv s) : Completes (.pwrbrkAssert) s Inv :=
  ⟨_, rfl, h.whenNot (·.frame.bump.bistAbandon.recErr)⟩

protected theorem Inv.execBrakeStage2 {uncovered} (h : Inv s) : Completes (.brakeStage2 uncovered) s Inv :=
  ⟨_, rfl, h.whenNot (·.frame.lowerEff.recomputePools)⟩

protected theorem Inv.execBrakeRelease (h : Inv s) : Completes (.brakeRelease) s Inv :=
  ⟨_, rfl, h.whenNot (·.frame)⟩

protected theorem Inv.execLEffRamp (h : Inv s) : Completes (.lEffRamp) s Inv :=
  ⟨_, rfl, h.frame.whenNot (·.frame)⟩

protected theorem Inv.execBrakeStageRecompute (h : Inv s) : Completes (.brakeStageRecompute) s Inv :=
  ⟨_, rfl, h.whenNot (·.frame.lowerEff)⟩

protected theorem Inv.execPwrLimitCfgWrite {req v} (h : Inv s) : Completes (.pwrLimitCfgWrite req v) s Inv :=
  ⟨_, rfl, h.guardWrite (·.rset.lowerEff)⟩

protected theorem Inv.execVinDip {us} (h : Inv s) : Completes (.vinDip us) s Inv :=
  ⟨_, rfl, h.whenNot (·.recErr)⟩

protected theorem Inv.abandonResets (h : Inv s) : Inv (abandonResets s) :=
  h.rset.frame

protected theorem Inv.retainEvents {from_} (h : Inv s) : Inv (retainEvents s from_) :=
  h.frame

protected theorem Inv.powerFail {e detail} (h : Inv s) : Inv (powerFail s e detail) := by
  unfold powerFail
  refine h.whenNot fun h => ?_
  extract_lets n s1 pw s2 s3 s4
  have h1 : Inv s1 := h.recErr
  clear_value s1
  have h4 : Inv s4 := h1.frame.retainEvents.rset.stageAbort.abandonResets.diesOff
  clear_value s4
  exact h4.frame.setStage

protected theorem Inv.execPowerFailSequence {vin} (h : Inv s) : Completes (.powerFailSequence vin) s Inv :=
  ⟨_, rfl, h.rset.frame.whenNot (·.powerFail)⟩

protected theorem Inv.execPwrVinOv {vin} (h : Inv s) : Completes (.pwrVinOv vin) s Inv :=
  ⟨_, rfl, h.whenNot (·.rset.powerFail)⟩

protected theorem Inv.execPwrVauxLost (h : Inv s) : Completes (.pwrVauxLost) s Inv :=
  ⟨_, rfl, h.whenNot (·.powerFail.frame)⟩

protected theorem Inv.execVin48Return (h : Inv s) : Completes (.vin48Return) s Inv :=
  ⟨_, rfl, h.whenNot (·.frame.rset)⟩

protected theorem Inv.execVaux12Removed (h : Inv s) : Completes (.vaux12Removed) s Inv := by
  refine ⟨_, rfl, ?_⟩
  extract_lets s1
  have h1 : Inv s1 := h.diesOff.abandonResets.setStage
  clear_value s1
  exact h1.frame

/-! #### Thermal -/

protected theorem Inv.modSite {i f} (h : Inv s) : Inv (modSite s i f) :=
  h.frame

protected theorem Inv.siteFail {i} (h : Inv s) : Inv (siteFail s i) :=
  h.branch (·.modSite) (·.modSite.recErr)

protected theorem Inv.readSite {i d r} (h : Inv s) : Inv (readSite s i d r) :=
  h.modSite.branch (·.siteFail)
    (fun h1 => h1.branch (fun h1 => h1.whenNot (·.modSite.recErr)) (fun h1 => h1.modSite.when (·.modSite.recErr)))

protected theorem Inv.substituteSite {i} (h : Inv s) : Inv (substituteSite s i) :=
  h.whenNot (fun h => h.branch (·.siteFail) (·.modSite))

protected theorem Inv.siteStep {i} (h : Inv s) : Inv (siteStep s i) :=
  h.whenNot (·.recErr) |>.modSite

protected theorem Inv.siteHard {i} (h : Inv s) : Inv (siteHard s i) :=
  h.whenNot (·.modSite.recErr)

protected theorem Inv.clusterRule {i} (h : Inv s) : Inv (clusterRule s i) :=
  h.branch (·.siteStep.siteHard) (fun h => h.when (·.modSite) |>.branch (·.siteStep) (·.modSite))

protected theorem Inv.baseRule {i} (h : Inv s) : Inv (baseRule s i) := by
  unfold baseRule
  dsimp only
  split
  · exact h.siteStep.modSite.siteHard
  · split
    · exact h.when (·.modSite) |>.siteStep |>.modSite
    · split
      · exact h.when (·.modSite) |>.modSite
      · split
        · exact h.when (·.modSite) |>.when (·.modSite)
        · exact h.when (·.modSite) |>.when (·.modSite)

protected theorem Inv.converterRule {i} (h : Inv s) : Inv (converterRule s i) :=
  h.branch (fun h => h.whenNot (·.modSite.recErr)) (fun h => h.when (fun h => h.modSite.whenNot (·.frame)))

protected theorem Inv.thermTrip {sub} (h : Inv s) : Inv (thermTrip s sub) := by
  unfold thermTrip
  refine h.whenNot fun h => ?_
  extract_lets n th s1 s2 s3
  have h1 : Inv s1 := h.frame
  have h2 : Inv s2 := h1.recErr.powerCycleReq.retainEvents
  have h3 : Inv s3 := h2.stageAbort.abandonResets.diesOff.setStage
  clear_value s3
  exact h3.frame

protected theorem Inv.siteRule {i} (h : Inv s) : Inv (siteRule s i) :=
  h.whenNot (fun h => h.branch (·.thermTrip)
      (fun h => h.branch (·.converterRule) (fun h => h.whenNot (fun h => h.branch (·.clusterRule) (·.baseRule)))
        |>.modSite))

protected theorem Inv.sendCooling {input} (h : Inv s) : Inv (sendCooling s input) :=
  h.rset.frame.recErr

protected theorem Inv.coolingCheck {input} (h : Inv s) : Inv (coolingCheck s input) := by
  unfold coolingCheck
  dsimp only
  split
  · exact h.rset
  · split
    · split
      · exact h.rset.frame.when (·.sendCooling)
      · exact h.rset.frame.sendCooling
    · exact h.rset.when (·.frame.stateEvent)

protected theorem Inv.noteBase {t} (h : Inv s) : Inv (noteBase s t) :=
  h.frame

protected theorem Inv.compareSite {i d r} (h : Inv s) : Inv (compareSite s i d r) :=
  h.whenNot (fun h => h.branch (·.thermTrip)
    (fun h => h.whenNot (fun h => h.branch (·.siteHard) (fun h => h.when (·.modSite)))))

protected theorem Inv.execThermalSample {reads input} (h : Inv s) : Completes (.thermalSample reads input) s Inv :=
  ⟨_, rfl, h.whenNot (fun h => h.branch (fun h => h.foldl (·.compareSite))
        (fun h => h.foldl (·.readSite) |>.foldl (·.substituteSite) |>.foldl (·.siteRule) |>.foldl (·.noteBase)
          |>.coolingCheck))⟩

protected theorem Inv.execThermalStepTimer {i} (h : Inv s) : Completes (.thermalStepTimer i) s Inv :=
  ⟨_, rfl, h.branch (fun h => h.whenNot (fun h => h.branch (·.modSite) (fun h => h.when (·.modSite))))
      (fun h => h.when (fun h => h.when (·.frame.lowerEff)))⟩

protected theorem Inv.execCoolingEventRepeat {input} (h : Inv s) : Completes (.coolingEventRepeat input) s Inv :=
  ⟨_, rfl, h.coolingCheck⟩

protected theorem Inv.throttle {k on} (h : Inv s) : Inv (throttle s k on) :=
  h.rset.rset.when (·.recErr)

protected theorem Inv.stackHard {k on} (h : Inv s) : Inv (stackHard s k on) :=
  h.rset.when (·.recErr)

protected theorem Inv.stackThrottle {k t} (h : Inv s) : Inv (stackThrottle s k t) := by
  unfold stackThrottle
  split
  · exact h.frame.throttle
  · split
    · exact h.frame
    · split
      · exact h
      · split
        · exact h.frame
        · exact h.when (·.frame.throttle)

protected theorem Inv.execHbmTempRead {k temp} (h : Inv s) : Completes (.hbmTempRead k temp) s Inv := by
  refine ⟨_, rfl, h.whenNot fun h => ?_⟩
  cases temp with
  | none =>
    exact (h.setThermal.whenNot fun h => (h.whenNot (·.setThermal)).rset.throttle).whenNot (·.setThermal)
  | some t =>
    exact (((h.when (·.throttle)).setThermal.setThermal.rset).branch (·.thermTrip)
      (·.stackThrottle.branch (·.stackHard) (·.when (·.stackHard)))).whenNot (·.setThermal)

/-! #### Boot -/

protected theorem Inv.reachStage {n} (h : Inv s) : Inv (reachStage s n) :=
  h.rset.setStage

protected theorem Inv.coldState {flash} (_ : Inv s) : Inv (coldState s flash) :=
  { mem := rfl, poison := rfl, regs := rfl, cores := rfl, clusters := rfl, split := Nat.zero_le _ }

protected theorem Inv.drawEpoch (h : Inv s) : Inv (drawEpoch s) :=
  h.drawWord.frame

protected theorem Inv.noteBothDown {down} (h : Inv s) : Inv (noteBothDown s down) :=
  h.whenNot (·.recErr.frame)

protected theorem Inv.execVaux12InRange {flash answers fuseBad} (h : Inv s) :
    Completes (.vaux12InRange flash answers fuseBad) s Inv := by
  refine ⟨_, rfl, ?_⟩
  split
  · exact h
  · split
    · exact h.coldState.drawEpoch.noteBothDown.rset.recErr.recErr.rset.powerCycleReq
    · exact h.coldState.drawEpoch.noteBothDown.rset.romSelect.romKeys

protected theorem Inv.execBootS1 (h : Inv s) : Completes (.bootS1) s Inv := by
  refine ⟨_, rfl, h.whenNot fun h => ?_⟩
  extract_lets fw s1 r s2 late s3 s4 s5
  have h1 : Inv s1 := h.frame
  have h2 : Inv s2 := h1.whenNot (·.writeBootRec)
  have h4 : Inv s4 := h2.loadCfg.loadField.setField
  clear_value s4
  have h5 : Inv s5 := h4.frame.foldl (·.queueEvent)
  clear_value s5
  exact h5.frame.reachStage

protected theorem Inv.execVin48Present (h : Inv s) : Completes (.vin48Present) s Inv :=
  ⟨_, rfl, h.whenNot (·.frame)⟩

protected theorem Inv.clearAlarm (h : Inv s) : Inv (clearAlarm s) :=
  h.rset.whenNot (·.rset) |>.frame

protected theorem Inv.chipClear (h : Inv s) : Inv (chipClear s) := by
  unfold chipClear
  extract_lets s1 s2 s3 s4 e
  have h2 : Inv s2 := (h.foldl (·.applyPending.retireMemory)).frame
  have h4 : Inv s4 := (h2.when (·.frame.flashErase.flashWrite)).clearAlarm.linkDrop.portsReset
  clear_value s4
  exact
    { h4 with
      regs := keysRising_filter _ h4.regs, mem := Memory.wf_filter _ h4.mem, poison := keysRising_filter _ h4.poison
      cores := rfl, clusters := (keysRising_map).trans h4.clusters }

protected theorem Inv.bootPower (h : Inv s) : Inv (bootPower s) :=
  h.rset.rset.frame.frame

protected theorem Inv.bootBridges {bad} (h : Inv s) : Inv (bootBridges s bad) :=
  h.frame.showSplits.foldl (·.rset.setBridge) |>.foldl (·.drawWord.recErr)

protected theorem Inv.bootRow {r} (h : Inv s) : Inv (bootRow s r) :=
  h.stgRowPermanent.when (·.retireSlice)

protected theorem Inv.bootStaging {rows} (h : Inv s) : Inv (bootStaging s rows) :=
  h.frame.foldl (·.retireSlice) |>.foldl (·.bootRow)

protected theorem Inv.unlockPages (h : Inv s) : Inv (unlockPages s) :=
  { h with regs := keysRising_filter _ h.regs }

protected theorem Inv.execBootS2 {bridges rows} (h : Inv s) : Completes (.bootS2 bridges rows) s Inv :=
  ⟨_, rfl, h.whenNot
    (fun h => h.when (·.chipClear.loadCfg) |>.unlockPages |>.rset |>.bootPower |>.bootBridges |>.bootStaging
      |>.reachStage)⟩

protected theorem Inv.bootRepair {q repaired} (h : Inv s) : Inv (bootRepair s q repaired) :=
  h.branch (·.frame.setPageList) (·.recErr)

protected theorem Inv.execBootS3 {trainFail repaired} (h : Inv s) : Completes (.bootS3 trainFail repaired) s Inv :=
  ⟨_, rfl, h.whenNot
    (fun h => h.foldl (·.bootRepair) |>.frame |>.foldl (·.recErr.retirePc) |>.foldl (·.setRegion)
      |>.foldl (·.rset.rset) |>.foldl (·.zeroRegion) |>.foldl (·.zeroSlice) |>.reachStage)⟩

protected theorem Inv.bootCluster {e} (h : Inv s) : Inv (bootCluster s e) :=
  h.whenNot (·.recErr.retireCluster)

protected theorem Inv.bootCore {n} (h : Inv s) : Inv (bootCore s n) :=
  h.whenNot (·.retireCore)

protected theorem Inv.execBootS4 {once twice clusters} (h : Inv s) : Completes (.bootS4 once twice clusters) s Inv :=
  ⟨_, rfl, h.whenNot
    (fun h => h.foldl (·.bootCluster) |>.foldl (·.recErr) |>.foldl (·.bootCore) |>.foldl
      (fun h4 => h4.when (·.modCluster)) |>.foldl (·.formMap) |>.reachStage)⟩

protected theorem Inv.bootKeys {healthy} (h : Inv s) : Inv (bootKeys s healthy).1 :=
  h.pair.foldlFst (fun h1 => h1.rset.foldl (fun h2 => h2.foldl (·.rset)) |>.branchFst (·.pair)
      (fun h4 => h4.branchFst (·.drawHbmKeys.pair) (·.trngFail.pair)))

protected theorem Inv.configPages {mask} (h : Inv s) : Inv (configPages s mask) :=
  h.foldl (·.regSet.regSet)

/-- The split that the record asks for is one of the four of R26. -/
theorem bootSplit_le (s : State) : bootSplit s ≤ 3 := by
  unfold bootSplit
  extract_lets x
  have hx : x < 4 := Nat.mod_lt _ (by decide)
  split <;> omega
protected theorem Inv.execBootS5 {healthy} (h : Inv s) : Completes (.bootS5 healthy) s Inv := by
  have h1 : Inv { s with split := bootSplit s, keysErased := false } := { h with split := bootSplit_le s }
  exact ⟨_, rfl, .ite h.pealStart.reachStage
    (h.whenNot fun _ => (h1.bootKeys.configPages.foldl (·.rset)).showBridges.noteBridges)⟩

protected theorem Inv.bootPort {i} (h : Inv s) : Inv (bootPort s i) := by
  unfold bootPort
  dsimp only
  split
  · exact h.when (·.rset) |>.frame |>.rset |>.setFab
  · exact h.when (·.rset) |>.branch (·.fabDisable) (·.fabEnable)

protected theorem Inv.execBootS6 (h : Inv s) : Completes (.bootS6) s Inv :=
  ⟨_, rfl, h.whenNot
    (fun h => h.frame.reachStage.rset.foldl (·.bootPort) |>.foldl (fun h2 => h2.when (·.sweepStart)))⟩

protected theorem Inv.execBootS7 (h : Inv s) : Completes (.bootS7) s Inv := by
  refine ⟨_, rfl, h.whenNot fun h => ?_⟩
  extract_lets s1 s2 s3
  have h1 : Inv s1 := h.foldl (·.announceAll)
  have h2 : Inv s2 := by
    unfold s2
    cases s1.chipReset with
    | none => exact h1
    | some r => exact h1.lastReset
  have h3 : Inv s3 := h2.rset
  clear_value s3
  exact h3.frame.reachStage.stateEvent

protected theorem Inv.execBootStageFail {cause} (h : Inv s) : Completes (.bootStageFail cause) s Inv :=
  ⟨_, rfl, h.when (·.bootFatal)⟩

/-! #### Carillon -/

protected theorem Inv.setCtrl {c v} (h : Inv s) : Inv (setCtrl s c v) :=
  h.frame

protected theorem Inv.ctrlUp {c v} (h : Inv s) : Inv (ctrlUp s c v) :=
  h.setCtrl.setCarillon

protected theorem Inv.restartCtrl {c} (h : Inv s) : Inv (restartCtrl s c) :=
  h.frame.branch (·.setCtrl.recErr) (·.setCtrl)

protected theorem Inv.tokenTo {c} (h : Inv s) : Inv (tokenTo s c) :=
  h.frame.frame

protected theorem Inv.execControllerSelftestDone {c pass} (h : Inv s) :
    Completes (.controllerSelftestDone c pass) s Inv := by
  refine ⟨_, rfl, h.whenNot fun h => h.branch (·.restartCtrl) fun h => ?_⟩
  cases s.carillon.token with
  | some _ => exact h.ctrlUp
  | none => exact h.whenNot (·.ctrlUp.tokenTo.setCarillon)

protected theorem Inv.pathFail {path} (h : Inv s) : Inv (pathFail s path) :=
  h.whenNot (·.frame.recErr)

protected theorem Inv.slotPath {c path seen} (h : Inv s) : Inv (slotPath s c path seen) := by
  unfold slotPath
  dsimp only
  split
  · exact h.frame
  · split
    · exact h.frame
    · split
      · exact h.frame.frame
      · exact h.frame.when (·.frame)

protected theorem Inv.execHeartbeatSlot {c wire mailbox} (h : Inv s) :
    Completes (.heartbeatSlot c wire mailbox) s Inv :=
  ⟨_, rfl, h.whenNot (fun h => h.slotPath.slotPath.branch (fun h1 => h1.when (·.recErr.restartCtrl))
        (fun h1 => h1.branch (·.pathFail) (fun h1 => h1.when (·.pathFail))))⟩

protected theorem Inv.execTokenRequest {c refreshed} (h : Inv s) : Completes (.tokenRequest c refreshed) s Inv := by
  refine ⟨_, rfl, ?_⟩
  cases s.carillon.token with
  | none => exact h
  | some k => exact h.whenNot (·.branch (·.when (·.pathFail.pathFail)) (·.setCtrl.tokenTo.setCarillon))

protected theorem Inv.restartOps (h : Inv s) : Inv (restartOps s) := by
  unfold restartOps
  extract_lets s1 s2
  have h1 : Inv s1 := h.foldl (·.frame.pealStart)
  clear_value s1
  have h2 : Inv s2 := h1.when (·.frame.setStage)
  clear_value s2
  exact h2.frame

protected theorem Inv.dropUpdate (h : Inv s) : Inv (dropUpdate s) :=
  h.branch (·.stageAbort) (fun h => h.when (·.frame.recErr))

protected theorem Inv.dropDownload (h : Inv s) : Inv (dropDownload s) :=
  h.when (·.frame)

protected theorem Inv.execFailover (h : Inv s) : Completes (.failover) s Inv := by
  refine ⟨_, rfl, ?_⟩
  split
  · exact h
  · exact h.whenNot (·.ctrlUp.bump.frame.dropUpdate.dropDownload.recErr.emit.restartCtrl.restartOps)

protected theorem Inv.execTakeback (h : Inv s) : Completes (.takeback) s Inv :=
  ⟨_, rfl, h.whenNot (·.ctrlUp.ctrlUp.tokenTo.bump.recErr.emit)⟩

protected theorem Inv.execBothDownTimeout (h : Inv s) : Completes (.bothDownTimeout) s Inv :=
  ⟨_, rfl, h.whenNot (·.frame.lowerEff)⟩

protected theorem Inv.sendEvent (h : Inv s) : Inv (sendEvent s) := by
  unfold sendEvent
  split
  · exact h.frame.emit
  · exact h

protected theorem Inv.execEventSend (h : Inv s) : Completes (.eventSend) s Inv :=
  ⟨_, rfl, h.when (·.sendEvent)⟩

protected theorem Inv.eventDone (h : Inv s) : Inv (eventDone s) :=
  h.frame

protected theorem Inv.execEventAnswer (h : Inv s) : Completes (.eventAnswer) s Inv :=
  ⟨_, rfl, h.when (·.eventDone)⟩

protected theorem Inv.execEventRetryTimeout (h : Inv s) : Completes (.eventRetryTimeout) s Inv :=
  ⟨_, rfl, h.whenNot (fun h => h.branch (·.frame) (·.sendEvent))⟩

/-! #### Mgmt -/

protected theorem Inv.reply {bus what cc body} (h : Inv s) : Inv (reply s bus what cc body) :=
  h.emit

protected theorem Inv.onBus {bus f} (h : Inv s) (hf2 : ∀ {s}, Inv s → Inv (f s)) : Inv (onBus s bus f) :=
  Inv.ite (hf2 h) h

protected theorem Inv.pldm {bus what f} (h : Inv s) (hf3 : ∀ {s}, Inv s → Inv (f s)) : Inv (pldm s bus what f) :=
  h.onBus (fun h1 => Inv.ite (hf3 h1) h1.reply)

protected theorem Inv.vendor {bus what f} (h : Inv s) (hf3 : ∀ {s}, Inv s → Inv (f s)) : Inv (vendor s bus what f) :=
  h.onBus (fun h1 => Inv.ite (hf3 h1) h1.reply)

protected theorem Inv.execI3cEntdaa {bus addr} (h : Inv s) : Completes (.i3cEntdaa bus addr) s Inv :=
  ⟨_, rfl, h.onBus (·.frame.emit)⟩

protected theorem Inv.execMctpSetEndpointId {bus eid} (h : Inv s) : Completes (.mctpSetEndpointId bus eid) s Inv :=
  ⟨_, rfl, h.onBus (fun h1 => h1.branch (·.reply) (·.frame.reply))⟩

protected theorem Inv.execMctpGetEndpointId {bus} (h : Inv s) : Completes (.mctpGetEndpointId bus) s Inv :=
  ⟨_, rfl, h.onBus (·.reply)⟩

protected theorem Inv.execMctpGetVersionSupport {bus type} (h : Inv s) :
    Completes (.mctpGetVersionSupport bus type) s Inv :=
  ⟨_, rfl, h.onBus (fun h1 => h1.branch (·.reply)
        (fun h1 => h1.branch (·.reply)
          (fun h1 => h1.branch (·.reply) (fun h1 => h1.branch (·.drawWord.reply) (·.reply)))))⟩

protected theorem Inv.execMctpGetMessageTypeSupport {bus} (h : Inv s) :
    Completes (.mctpGetMessageTypeSupport bus) s Inv :=
  ⟨_, rfl, h.onBus (·.reply)⟩

protected theorem Inv.execMctpGetVendorMessageSupport {bus sel} (h : Inv s) :
    Completes (.mctpGetVendorMessageSupport bus sel) s Inv :=
  ⟨_, rfl, h.onBus (fun h1 => h1.branch (·.reply) (·.reply))⟩

protected theorem Inv.execPldmGetTid {bus} (h : Inv s) : Completes (.pldmGetTid bus) s Inv :=
  ⟨_, rfl, h.pldm (·.reply)⟩

protected theorem Inv.execPldmSetTid {bus tid} (h : Inv s) : Completes (.pldmSetTid bus tid) s Inv :=
  ⟨_, rfl, h.pldm (fun h1 => h1.branch (·.reply) (·.frame.reply))⟩

protected theorem Inv.execPldmGetPldmVersion {bus type} (h : Inv s) :
    Completes (.pldmGetPldmVersion bus type) s Inv :=
  ⟨_, rfl, h.pldm (fun h1 => h1.branch (·.reply) (fun h1 => h1.branch (·.reply) (·.reply)))⟩

protected theorem Inv.execPldmGetPldmTypes {bus} (h : Inv s) : Completes (.pldmGetPldmTypes bus) s Inv :=
  ⟨_, rfl, h.pldm (·.reply)⟩

protected theorem Inv.execPldmGetPldmCommands {bus type} (h : Inv s) :
    Completes (.pldmGetPldmCommands bus type) s Inv :=
  ⟨_, rfl, h.pldm (fun h1 => by
        split
        · exact h1.reply
        · exact h1.reply)⟩

protected theorem Inv.execPldmSetEventReceiver {bus eid} (h : Inv s) :
    Completes (.pldmSetEventReceiver bus eid) s Inv :=
  ⟨_, rfl, h.pldm (·.frame.frame.reply)⟩

protected theorem Inv.execPldmPollForEvent {bus ack} (h : Inv s) : Completes (.pldmPollForEvent bus ack) s Inv := by
  refine ⟨_, rfl, h.pldm fun h => Inv.reply (Inv.setCarillon ?_)⟩
  split
  · exact h.when (·.eventDone)
  · exact h

protected theorem Inv.execTelemetrySample {vin vaux} (h : Inv s) : Completes (.telemetrySample vin vaux) s Inv :=
  ⟨_, rfl, h.rset.setCarillon⟩

protected theorem Inv.reading {bus what id} (h : Inv s) : Inv (reading s bus what id) := by
  unfold reading
  split
  · exact h.reply
  · exact h.reply

protected theorem Inv.execPldmGetSensorReading {bus id} (h : Inv s) :
    Completes (.pldmGetSensorReading bus id) s Inv :=
  ⟨_, rfl, h.pldm (fun h1 => h1.branch (·.reading) (·.reply))⟩

protected theorem Inv.execPldmGetStateSensorReadings {bus id} (h : Inv s) :
    Completes (.pldmGetStateSensorReadings bus id) s Inv :=
  ⟨_, rfl, h.pldm (fun h1 => h1.branch (·.reading) (·.reply))⟩

protected theorem Inv.execPldmGetPdr {bus handle} (h : Inv s) : Completes (.pldmGetPdr bus handle) s Inv := by
  refine ⟨_, rfl, ?_⟩
  dsimp only
  exact h.pldm (fun h1 => by
      split
      · exact h1.reply
      · exact h1.reply)

protected theorem Inv.execPldmGetPdrRepositoryInfo {bus} (h : Inv s) :
    Completes (.pldmGetPdrRepositoryInfo bus) s Inv :=
  ⟨_, rfl, h.pldm (·.reply)⟩

protected theorem Inv.execEffecterPowerState {bus target} (h : Inv s) :
    Completes (.effecterPowerState bus target) s Inv :=
  ⟨_, rfl, h.pldm (fun h1 => h1.branch (fun h1 => h1.whenNot (·.enterA0) |>.reply)
        (fun h1 => h1.branch (fun h1 => h1.whenNot (·.enterA2) |>.reply) (·.reply)))⟩

protected theorem Inv.execEffecterChipReset {bus} (h : Inv s) : Completes (.effecterChipReset bus) s Inv :=
  ⟨_, rfl, h.pldm (·.requestChip.reply)⟩

protected theorem Inv.execEffecterConfirm {bus ok} (h : Inv s) : Completes (.effecterConfirm bus ok) s Inv :=
  ⟨_, rfl, h.pldm (·.fwConfirm.reply)⟩

protected theorem Inv.setUpd {n} (h : Inv s) : Inv (setUpd s n) :=
  h.frame

protected theorem Inv.execPldmRequestUpdate {bus} (h : Inv s) : Completes (.pldmRequestUpdate bus) s Inv :=
  ⟨_, rfl, h.pldm (fun h1 => h1.branch (·.fwResult.reply) (fun h1 => h1.branch (·.reply) (·.setUpd.reply)))⟩

protected theorem Inv.execPldmPassComponentTable {bus cls id} (h : Inv s) :
    Completes (.pldmPassComponentTable bus cls id) s Inv :=
  ⟨_, rfl, h.pldm (fun h1 => h1.branch (·.reply) (fun h1 => h1.branch (·.setUpd.reply) (·.reply)))⟩

protected theorem Inv.execPldmUpdateComponent {bus size} (h : Inv s) :
    Completes (.pldmUpdateComponent bus size) s Inv :=
  ⟨_, rfl, h.pldm fun h => h.branch (·.reply) fun h => by
    split
    · next hb => exact (h.stageBegin (Option.ite_none_right_eq_some.1 hb).2).setUpd.reply.emit
    · exact h.fwResult.reply⟩

protected theorem Inv.execFirmwareDataReceived {bus data} (h : Inv s) :
    Completes (.firmwareDataReceived bus data) s Inv := by
  refine ⟨_, rfl, ?_⟩
  dsimp only
  split
  · exact h
  · split
    · exact h.stageData.branch (·.emit) (·.emit)
    · exact h.stageData

protected theorem Inv.execPldmActivateFirmware {bus} (h : Inv s) : Completes (.pldmActivateFirmware bus) s Inv :=
  ⟨_, rfl, h.pldm (fun h1 => h1.branch (·.reply) (·.setUpd.reply))⟩

protected theorem Inv.execPldmGetStatus {bus} (h : Inv s) : Completes (.pldmGetStatus bus) s Inv :=
  ⟨_, rfl, h.pldm (·.reply)⟩

protected theorem Inv.execPldmCancelUpdate {bus} (h : Inv s) : Completes (.pldmCancelUpdate bus) s Inv :=
  ⟨_, rfl, h.pldm (·.stageAbort.setUpd.reply)⟩

protected theorem Inv.execCarStatus {bus} (h : Inv s) : Completes (.carStatus bus) s Inv :=
  ⟨_, rfl, h.onBus (·.reply)⟩

protected theorem Inv.execMctpDumpRead {bus off} (h : Inv s) : Completes (.mctpDumpRead bus off) s Inv :=
  ⟨_, rfl, h.vendor (fun h1 => h1.branch (·.reply) (fun h1 => h1.branch (·.reply) (·.reply)))⟩

protected theorem Inv.execConfigRead {bus} (h : Inv s) : Completes (.configRead bus) s Inv :=
  ⟨_, rfl, h.vendor (·.reply)⟩

protected theorem Inv.execConfigWrite {bus data} (h : Inv s) : Completes (.configWrite bus data) s Inv :=
  ⟨_, rfl, h.vendor (fun h1 => h1.branch (·.reply) (·.flashErase.flashWrite.reply))⟩

protected theorem Inv.execTelemetry {bus} (h : Inv s) : Completes (.telemetry bus) s Inv :=
  ⟨_, rfl, h.vendor (·.reply)⟩

/-! #### Tensor -/

protected theorem Inv.setBank {n b m} (h : Inv s) : Inv (setBank s n b m) :=
  h.modCore

protected theorem Inv.teFetch {n k ecc} (h : Inv s) : Inv (teFetch s n k ecc).1 := by
  unfold teFetch
  split
  · exact h.pair
  · split
    · next _ _ e => exact h.imageRead.ofEq e |>.pair
    · next _ e2 => exact h.imageRead.ofEq e2 |>.pair

protected theorem Inv.teErr {e n k} (h : Inv s) : Inv (teErr s e n k) :=
  h.errCtx

protected theorem Inv.teCheck {n k ecc r} (h : Inv s) : Inv (teCheck s n k ecc r).1 :=
  h.pair.foldlFst (·.checkRead.pair) |>.pair

protected theorem Inv.teStart {n k bank it r undo} (h : Inv s) : Inv (teStart s n k bank it r undo) :=
  h.modCore.feedTe

protected theorem Inv.teEffect {n k bank it r} (h : Inv s) : Inv (teEffect s n k bank it r) := by
  unfold teEffect
  split
  · exact h.setBank.teStart
  · exact h.foldl (·.writeWin) |>.when (·.setBank) |>.modSlot |>.teStart
  · exact h.setBank.teStart
  · exact h.setBank.teStart

protected theorem Inv.teTake {n k kind ecc} (h : Inv s) : Inv (teTake s n k kind ecc) := by
  unfold teTake
  refine h.whenNot fun h => ?_
  have h1 : Inv (teFetch s n k ecc).1 := h.teFetch
  generalize teFetch s n k ecc = q at h1 ⊢
  obtain ⟨t, _ | ⟨it, r⟩⟩ := q
  · exact h1
  · refine h1.branch (·.teErr) fun h => h.whenNot fun h => ?_
    split
    · exact h.teErr
    · refine h.branch (·.teErr) fun h => h.whenNot fun h => ?_
      extract_lets t1
      have h2 : Inv t1 := h.when (·.recErr)
      refine h2.branch (·.errCtx.noteEcc.when (·.corePending)) fun h => ?_
      have h3 : Inv (teCheck t1 n k (eccAfter ecc 1) r).1 := h.teCheck
      generalize teCheck t1 n k (eccAfter ecc 1) r = q at h3 ⊢
      obtain ⟨u, _ | e⟩ := q
      · exact h3.teEffect
      · exact h3.endCtx

protected theorem Inv.execTeMma {n k ecc} (h : Inv s) : Completes (.teMma n k ecc) s Inv :=
  ⟨_, rfl, h.teTake⟩

protected theorem Inv.execTeWb {n k ecc} (h : Inv s) : Completes (.teWb n k ecc) s Inv :=
  ⟨_, rfl, h.teTake⟩

protected theorem Inv.execTeZero {n k ecc} (h : Inv s) : Completes (.teZero n k ecc) s Inv :=
  ⟨_, rfl, h.teTake⟩

protected theorem Inv.execTeLdacc {n k ecc} (h : Inv s) : Completes (.teLdacc n k ecc) s Inv :=
  ⟨_, rfl, h.teTake⟩

protected theorem Inv.execTeOpInvalid {n k} (h : Inv s) : Completes (.teOpInvalid n k) s Inv := by
  refine ⟨_, rfl, ?_⟩
  split
  · exact h
  · split
    · next _ e => exact h.teFetch.ofEq e
    · next _ _ _ e2 => exact h.branch (·.teFetch.ofEq e2) (·.teFetch.ofEq e2 |>.teErr)

protected theorem Inv.teBusy {n x} (h : Inv s) : Inv (teBusy s n x) :=
  h.branch (·.drawWord.bump) (·.bump)

protected theorem Inv.teComplete {n port ecc} (h : Inv s) : Inv (teComplete s n port ecc) := by
  unfold teComplete
  split
  · exact h
  · split
    · exact h.errCtx.branch (·.noteEcc.corePending) (·.noteEcc)
    · exact Inv.refresh (by
        split
        · exact h.when (·.recErr) |>.modCore |>.bump |>.teBusy |>.modSlot |>.addBeat
        · exact h.when (·.recErr) |>.modCore |>.bump |>.teBusy |>.modSlot)

protected theorem Inv.execTeOpComplete {n port ecc} (h : Inv s) : Completes (.teOpComplete n port ecc) s Inv :=
  ⟨_, rfl, h.teComplete⟩

/-! #### Save -/

protected theorem Inv.execSaveStart {n k} (h : Inv s) : Completes (.saveStart n k) s Inv :=
  ⟨_, rfl, h.when (·.modSlot)⟩

protected theorem Inv.saveFault {n k off i} (h : Inv s) : Inv (saveFault s n k off i) :=
  h.postFault.recErr.modSlot.endCtx

protected theorem Inv.execSaveFault {n k off i} (h : Inv s) : Completes (.saveFault n k off i) s Inv :=
  ⟨_, rfl, h.when (·.saveFault)⟩

protected theorem Inv.saveSections {n k} (h : Inv s) : Inv (saveSections s n k).1 := by
  generalize hq : saveSections s n k = q
  rw [show saveSections = _ by delta saveSections; rfl] at hq
  extract_lets sl body at hq
  have h1 : Inv (writeVa 2 s n (slotAsid s n k) accSaveWrite (saveVa s n k) 2 [0] sl.ctag).1 := h.writeVa
  generalize writeVa 2 s n (slotAsid s n k) accSaveWrite (saveVa s n k) 2 [0] sl.ctag = r at h1 hq
  obtain ⟨t, _ | f⟩ := r
  · exact hq ▸ h1.writeVa
  · exact hq ▸ h1

protected theorem Inv.execSaveComplete {n rd} (h : Inv s) : Completes (.saveComplete n rd) s Inv := by
  have hs {s : State} {n k} (h : Inv s) : Inv (saveSections s n k).1 := h.saveSections
  have hw {f n a b c d l e} {s : State} (h : Inv s) : Inv (writeVa f s n a b c d l e).1 := h.writeVa
  refine ⟨_, rfl, h.whenNot fun h => ?_⟩
  have hc : Inv (checkRead s (winDpa s n rd.no 0) (winBytes s n rd.no) rd.ecc (slot s n rd.no).ctag).1 := h.checkRead
  generalize checkRead s (winDpa s n rd.no 0) (winBytes s n rd.no) rd.ecc (slot s n rd.no).ctag = q at hc ⊢
  generalize saveSections = ss at hs ⊢
  generalize writeVa = wv at hw ⊢
  revert q ss wv
  refine id fun q hc ss hs wv hw => ?_
  dsimp only
  split
  · exact hc.endCtx
  · split
    · next e => exact ((hs hc).ofEq e).saveFault
    · next e =>
      have h := (hs hc).ofEq e
      split
      · next e => exact ((hw h).ofEq e).saveFault
      · next e => exact ((hw h).ofEq e).leaveSlot

protected theorem Inv.restoreFail {n k} (h : Inv s) : Inv (restoreFail s n k) :=
  h.modSlot.sqResult

protected theorem Inv.saveRead {n k off len ecc} (h : Inv s) : Inv (saveRead s n k off len ecc).1 := by
  unfold saveRead
  split
  · next _ _ e => exact h.readVa.ofEq e |>.pair
  · next _ _ _ e2 => exact h.readVa.ofEq e2 |>.postFault |>.restoreFail |>.pair
  · next _ _ e3 => exact h.readVa.ofEq e3 |>.restoreFail |>.pair

protected theorem Inv.execRestoreHeaderRead {n rd} (h : Inv s) : Completes (.restoreHeaderRead n rd) s Inv := by
  refine ⟨_, rfl, ?_⟩
  split
  · exact h
  · split
    · next _ e => exact h.saveRead.ofEq e
    · next _ _ e2 => exact h.branch (·.saveRead.ofEq e2 |>.modSlot) (·.saveRead.ofEq e2 |>.restoreFail)

protected theorem Inv.recoverReleases {n k} (h : Inv s) : Inv (recoverReleases s n k) :=
  h.foldl (fun h1 => h1.whenNot (fun h1 => h1.modCore.foldl (·.syncOp)))

protected theorem Inv.restoreInto {n k o b} (h : Inv s) : Inv (restoreInto s n k o b) :=
  h.modSlot.foldl (·.modStream) |>.foldl (·.setBank) |>.foldl (·.modStrand) |>.writeWin |>.foldl (·.modSync)

protected theorem Inv.execRestoreComplete {n rd} (h : Inv s) : Completes (.restoreComplete n rd) s Inv := by
  have hr {s : State} {n k a b e} (h : Inv s) : Inv (saveRead s n k a b e).1 := h.saveRead
  refine ⟨_, rfl, h.whenNot fun h => ?_⟩
  generalize saveRead = sr at hr ⊢
  revert sr
  refine id fun sr hr => ?_
  dsimp only
  split
  · next e => exact (hr h).ofEq e
  · next e =>
    refine ((hr h).ofEq e).branch (·.restoreFail) fun h => ?_
    split
    · next e => exact (hr h).ofEq e
    · next e => exact ((hr h).ofEq e).restoreInto.modSlot.setSt.recoverReleases.wake.sqResult

protected theorem Inv.refetchStep {n k f} (h : Inv s) : Inv (refetchStep s n k f).1 := by
  unfold refetchStep
  dsimp only
  split
  · next _ e => exact h.imageRead.ofEq e |>.pair
  · next _ _ e2 =>
      split
      · next _ e3 => exact h.imageRead.ofEq e2 |>.progRead |>.ofEq e3 |>.pair
      · next _ _ e4 => exact h.imageRead.ofEq e2 |>.progRead |>.ofEq e4 |>.pair

protected theorem Inv.rehand {n k f} (h : Inv s) : Inv (rehand s n k f).1 := by
  unfold rehand
  dsimp only
  split
  · exact h.whenNot (·.handTe) |>.pair
  · split
    · next _ e => exact h.whenNot (·.handTe) |>.imageRead |>.ofEq e |>.pair
    · next _ _ e2 =>
        exact h.whenNot (·.handTe) |>.imageRead |>.ofEq e2 |>.foldl (fun h1 => Inv.ite h1
            (by
              split
              · exact h1.modStream
              · exact h1)) |>.pair

protected theorem Inv.restoreSteps {n k} (h : Inv s) : Inv (restoreSteps s n k).1 := by
  have hf {s : State} {n k f} (h : Inv s) : Inv (refetchStep s n k f).1 := h.refetchStep
  have hr {s : State} {n k f} (h : Inv s) : Inv (rehand s n k f).1 := h.rehand
  generalize hq : restoreSteps s n k = q
  rw [show restoreSteps = _ by delta restoreSteps; rfl] at hq
  generalize refetchStep = rf at hf hq
  generalize rehand = rh at hr hq
  revert rf rh
  refine id fun rf hf rh hr hq => ?_
  extract_lets r at hq
  have h1 : Inv r.1 := by
    refine h.pair.foldlEq fun {a f q} hq h => ?_
    obtain ⟨t, fs, _ | _⟩ := a
    · exact hq ▸ h
    · have h2 := hf (n := n) (k := k) (f := f) h
      dsimp only at hq
      rcases e : rf t n k f with ⟨u, _ | g⟩
      · rw [e] at hq h2
        exact hq ▸ h2
      · rw [e] at hq h2
        exact hq ▸ h2
  clear_value r
  obtain ⟨t, fs, _ | _⟩ := r
  · exact hq ▸ h1
  · rw [← hq]
    refine .iteFst (Inv.foldl (Inv.modCore (Inv.modSlot ?_)) (·.modStream)) (Inv.foldl ?_ (·.modStream))
    · exact h1.modSlot.pair.foldlFst fun h => h.whenFst hr
    · exact h1.modSlot.pair.foldlFst fun h => h.whenFst hr

protected theorem Inv.execRudimentLoadCheck {n rd} (h : Inv s) : Completes (.rudimentLoadCheck n rd) s Inv := by
  refine ⟨_, rfl, ?_⟩
  dsimp only
  split
  · exact h
  · split
    · split
      · next _ e => exact h.loadCheck.restoreSteps.ofEq e |>.modSlot |>.checkDone
      · next _ e2 => exact h.loadCheck.restoreSteps.ofEq e2 |>.modSlot
    · exact h.loadCheck.refresh

/-! #### Sets -/

protected theorem Inv.setCheck {pipe d ecc} (h : Inv s) : Inv (setCheck s pipe d ecc).1 := by
  have hc {s : State} {d n e c} (h : Inv s) : Inv (checkRead s d n e c).1 := h.checkRead
  have hd {s : State} {d n c} (h : Inv s) : Inv (readData s d n c).1 := h.readData
  generalize hq : setCheck s pipe d ecc = q
  rw [show setCheck = _ by delta setCheck; rfl] at hq
  generalize checkRead = cr at hc hq
  generalize readData = rd at hd hq
  dsimp only at hq
  split at hq
  · exact hq ▸ h
  · split at hq
    · next e => exact hq ▸ (hc h).ofEq e
    · next e =>
      have h1 := hd (d := d) (n := 64) (c := noCtag) ((hc h).ofEq e)
      split at hq
      · exact hq ▸ h1.rset.rset
      · split at hq
        · next e => exact hq ▸ (hc h1.rset.rset).ofEq e
        · next e => exact hq ▸ hd ((hc h1.rset.rset).ofEq e)

protected theorem Inv.setCmd {req pipe op f} (h : Inv s) (hf : ∀ {s q}, f s = q → Inv s → Inv q.1) :
    Inv (setCmd s req pipe op f) :=
  h.guardWrite (·.whenNot fun h => (hf rfl h.setSetOps.rset).setSetOps)

protected theorem Inv.execSetCheck {req pipe ecc} (h : Inv s) : Completes (.setCheck req pipe ecc) s Inv :=
  ⟨_, rfl, h.setCmd fun e h => e ▸ h.setCheck⟩

protected theorem Inv.setFetch {pipe data} (h : Inv s) : Inv (setFetch s pipe data).1 := by
  have hs {s : State} {p d e} (h : Inv s) : Inv (setCheck s p d e).1 := h.setCheck
  generalize hq : setFetch s pipe data = q
  rw [show setFetch = _ by delta setFetch; rfl] at hq
  generalize setCheck = sc at hs hq
  revert sc
  refine id fun sc hs hq => ?_
  dsimp only at hq
  split at hq
  · exact hq ▸ h
  · cases data with
    | none => exact hq ▸ h.emit
    | some b =>
      dsimp only at hq
      split at hq
      · exact hq ▸ h.emit
      · exact hq ▸ hs h.emit.writeData

protected theorem Inv.execSetFetch {req pipe data} (h : Inv s) : Completes (.setFetch req pipe data) s Inv :=
  ⟨_, rfl, h.setCmd fun e h => e ▸ h.setFetch⟩

protected theorem Inv.setSend {pipe g ecc} (h : Inv s) : Inv (setSend s pipe g ecc).1 := by
  have hs {s : State} {p d e} (h : Inv s) : Inv (setCheck s p d e).1 := h.setCheck
  have hd {s : State} {d n c} (h : Inv s) : Inv (readData s d n c).1 := h.readData
  have hm {s : State} {a b c d e f} (h : Inv s) : Inv (mcCopy s a b c d e f).1 := h.mcCopy
  generalize hq : setSend s pipe g ecc = q
  rw [show setSend = _ by delta setSend; rfl] at hq
  generalize setCheck = sc at hs hq
  generalize readData = rd at hd hq
  generalize mcCopy = mc at hm hq
  revert sc rd mc
  refine id fun sc hs rd hd mc hm hq => ?_
  have h1 := hs (p := pipe) (d := setSrc s pipe % 2 ^ 48) (e := ecc) h
  generalize sc s pipe (setSrc s pipe % 2 ^ 48) ecc = r at hq h1
  obtain ⟨t, _ | r, i⟩ := r
  · subst hq
    refine Inv.iteFst h1 (Inv.iteFst h1 ?_)
    exact (h1.foldl fun h => ((hd h).pair.foldlFst hm).frame).mcSettle
  · obtain rfl : q = (t, r + 1, i) := hq.symm
    exact h1

protected theorem Inv.execSetSend {req pipe grp ecc} (h : Inv s) : Completes (.setSend req pipe grp ecc) s Inv :=
  ⟨_, rfl, h.setCmd fun e h => e ▸ h.setSend⟩

protected theorem Inv.execSetCmdComplete {pipe} (h : Inv s) : Completes (.setCmdComplete pipe) s Inv := by
  refine ⟨_, rfl, ?_⟩
  split
  · exact h
  · exact h.whenNot (fun h => h.frame.rset.whenNot (·.recErr) |>.raiseInt)

/-! #### RegRead -/

protected theorem Inv.regValue {req b i off} (h : Inv s) : Inv (regValue s req b i off).1 :=
  h.branchFst (·.drawWord.pair) (·.pair)

protected theorem Inv.regReadEffect {b i off} (h : Inv s) : Inv (regReadEffect s b i off) := by
  unfold regReadEffect
  split
  · exact h.modCore
  · split
    · exact h.frame
    · split
      · exact h.advanceDump
      · split
        · exact h.modCore
        · split
          · exact h.modCore
          · split
            · exact h.when (·.rset)
            · exact h

protected theorem Inv.regRead {req a} (h : Inv s) : Inv (regRead s req a).1 := by
  unfold regRead
  split
  · exact h.pair
  · exact h.branchFst (·.denied.pair) (fun h => h.branchFst (·.pair) (·.regValue.regReadEffect.pair))

protected theorem Inv.busRead {req a size} (h : Inv s) : Inv (busRead s req a size) :=
  h.whenNot (fun h => h.branch (·.drawWord.emit) (fun h => h.branch (·.regRead.regRead.emit.emit) (·.regRead.emit)))

protected theorem Inv.execRcRegisterRead {req a size} (h : Inv s) : Completes (.rcRegisterRead req a size) s Inv :=
  ⟨_, rfl, h.busRead⟩

protected theorem Inv.execSynStateRead {req rd} (h : Inv s) : Completes (.synStateRead req rd) s Inv :=
  ⟨_, rfl, h.when (·.synEcc) |>.busRead⟩

protected theorem Inv.execCarTimeRead {req} (h : Inv s) : Completes (.carTimeRead req) s Inv :=
  ⟨_, rfl, h.busRead⟩

/-! #### DumpBuild -/

protected theorem Inv.execSideDoorTimeout {a burst} (h : Inv s) : Completes (.sideDoorTimeout a burst) s Inv := by
  refine ⟨_, rfl, ?_⟩
  split
  · exact h.whenNot (·.frame.recErr)
  · exact h

protected theorem Inv.execDumpCollectionEnd {reached} (h : Inv s) : Completes (.dumpCollectionEnd reached) s Inv := by
  refine ⟨_, rfl, ?_⟩
  cases s.dump with
  | none => exact h
  | some d => exact (h.writeMem.setDump.setDumpStatus.when (·.setDumpResult)).bump.bump.recErr.when (·.recErr)

/-! #### Regs -/

protected theorem Inv.withInt {pg f} (h : Inv s) (hf2 : ∀ {s}, Inv s → Inv (f s)) : Inv (withInt s pg f) :=
  hf2 h |>.when (·.sendInt)

protected theorem Inv.resetReq {req b i} (h : Inv s) : Inv (resetReq s req b i) := by
  unfold resetReq
  split
  · exact h.branch (·.rset) (·.requestEng.rset)
  · exact h.branch (·.denied) (fun h => h.when (·.rset))

protected theorem Inv.ctrlSequence {pg} (h : Inv s) : Inv (ctrlSequence s pg) :=
  h.recordOn

protected theorem Inv.ctrlWrite {req b i v} (h : Inv s) : Inv (ctrlWrite s req b i v) :=
  h.whenNot (fun h => h.rset.whenNot (·.rset) |>.when (·.ctrlSequence) |>.when (·.resetReq))

protected theorem Inv.accessLevelWrite {req pg v} (h : Inv s) : Inv (accessLevelWrite s req pg v) :=
  h.whenNot (·.regSet)

protected theorem Inv.injectError {req b i v} (h : Inv s) : Inv (injectError s req b i v) := by
  unfold injectError
  exact Inv.ite h
    (by
      split
      · exact h
      · exact h.recordOn.escalateUnit.codeReset)

protected theorem Inv.intClear {pg v} (h : Inv s) : Inv (intClear s pg v) :=
  h.regSet.when (·.sendInt)

protected theorem Inv.errClear {pg v} (h : Inv s) : Inv (errClear s pg v) :=
  h.regSet

protected theorem Inv.errFirstClear {pg v} (h : Inv s) : Inv (errFirstClear s pg v) :=
  h.when (·.regSet)

protected theorem Inv.headerWrite {req b i off v} (h : Inv s) : Inv (headerWrite s req b i off v) := by
  unfold headerWrite
  split
  · exact h.ctrlWrite
  · exact h.regSet
  · exact h.errClear
  · exact h.withInt (·.regSet)
  · exact h.regSet
  · exact h.injectError
  · exact h.errFirstClear
  · exact h.intClear
  · exact h.withInt (·.regSet)
  · exact h.regSet
  · exact h.accessLevelWrite
  · exact h

protected theorem Inv.plainWrite {b i off v} (h : Inv s) : Inv (plainWrite s b i off v) := by
  unfold plainWrite
  split
  · exact h
  · split
    · exact h.rset
    · exact h.rset
    · exact h

protected theorem Inv.clampWrite {b i off lo hi v} (h : Inv s) : Inv (clampWrite s b i off lo hi v) :=
  h.rset

protected theorem Inv.writeCar {req off v} (h : Inv s) : Inv (writeCar s req off v) := by
  unfold writeCar
  split
  · exact h.branch (·.drawWord.execFwConfirm.after) (fun h => h.when (·.execFwCancelPending.after))
  · exact h.when (·.rset)
  · split
    · exact h.execRcvBegin.after
    · exact h.execRcvEnd.after
    · exact h.execRcvAbort.after
    · exact h
  · exact h.plainWrite

protected theorem Inv.writePce {req off v} (h : Inv s) : Inv (writePce s req off v) :=
  h.branch (fun h => h.branch (·.execPceChipReset.after) (·.execPcePartitionReset.after)) (·.plainWrite)

protected theorem Inv.writePwr {req off v} (h : Inv s) : Inv (writePwr s req off v) := by
  unfold writePwr
  split
  · split
    · exact h.execPwrStateCmdA0.after
    · exact h.execPwrStateCmdA2.after
    · exact h.execPwrStateCmdA3.after
    · exact h
  · exact h.execPwrLimitCfgWrite.after
  · exact h.clampWrite
  · exact h.plainWrite

protected theorem Inv.partCfgWrite {off v} (h : Inv s) : Inv (partCfgWrite s off v) :=
  h.rset.whenNot (·.setEncTx)

protected theorem Inv.writeSec {req off v} (h : Inv s) : Inv (writeSec s req off v) := by
  unfold writeSec
  split
  · split
    · exact h.execLcToMission.after
    · exact h.execLcToReturn.after
    · exact h.execLcToEnd.after
    · exact h
  · exact h.alarmCfg
  · exact h.branch (·.partCfgWrite) (·.plainWrite)

protected theorem Inv.writeDbg {req off v} (h : Inv s) : Inv (writeDbg s req off v) := by
  unfold writeDbg
  split
  · split
    · exact h.execDbgCmdRevoke.after
    · exact h.execDbgCmdRevokeAll.after
    · exact h.execDbgCmdOpen.after
    · exact h
  · exact h.plainWrite

protected theorem Inv.writeBst {req off v} (h : Inv s) : Inv (writeBst s req off v) :=
  h.branch (·.execBstDirectCmd.after) (·.plainWrite)

protected theorem Inv.writeHng {off v} (h : Inv s) : Inv (writeHng s off v) :=
  h.branch (fun h => h.branch (·.dumpTake) (fun h => h.when (·.dumpRelease)))
    (fun h => h.branch (·.clampWrite) (·.plainWrite))

protected theorem Inv.writeDmp {off v} (h : Inv s) : Inv (writeDmp s off v) :=
  h.branch (fun h => h.branch (·.dumpTake) (fun h => h.when (·.dumpRelease))) (·.plainWrite)

protected theorem Inv.writeClu {req i off v} (h : Inv s) : Inv (writeClu s req i off v) := by
  unfold writeClu
  split
  · split
    · exact h.queueCfg
    · exact h.execSrDoorbell.after
    · exact h.plainWrite
  · split
    · split
      · exact h.queueCfg
      · exact h.execCluCqHeadWrite.after
      · exact h.plainWrite
    · split
      · exact h.queueCfg
      · exact h.execCluFqHeadWrite.after
      · exact h.traceCtrl
      · exact h.plainWrite

protected theorem Inv.writeSq {req n off v} (h : Inv s) : Inv (writeSq s req n off v) :=
  h.branch (·.sqCmd) (fun h => h.whenNot (·.plainWrite))

protected theorem Inv.writeGng {i off v} (h : Inv s) : Inv (writeGng s i off v) :=
  h.branch (fun h => h.when (·.gongCfg)) (fun h => h.branch (fun h => h.when (·.gongCfg)) (·.plainWrite))

protected theorem Inv.writeMmu {req i off v} (h : Inv s) : Inv (writeMmu s req i off v) := by
  unfold writeMmu
  split
  · split
    · exact h.execMmuInvVaRange.after
    · exact h.execMmuInvAsid.after
    · exact h.execMmuInvAll.after
    · exact h.execMmuInvKey.after
    · exact h
  · exact h.plainWrite

protected theorem Inv.writeFab {req i off v} (h : Inv s) : Inv (writeFab s req i off v) := by
  unfold writeFab
  split
  · exact h.when (·.plainWrite)
  · split
    · exact h.execFabCmdEnable.after
    · exact h.execFabCmdDisable.after
    · exact h.execFabCmdRetrain.after
    · exact h.execFabCmdRecheck.after
    · exact h.execFabCmdClear.after
    · exact h.execFabCmdRetireLane.after
    · exact h
  · exact h.when (·.plainWrite)
  · exact h.plainWrite

protected theorem Inv.writeOpt {req i off v} (h : Inv s) : Inv (writeOpt s req i off v) :=
  h.branch (fun h => h.when (·.execOptReflAbort.after) |>.when (·.execOptReflStart.after)) (·.plainWrite)

protected theorem Inv.writeMc {i off v} (h : Inv s) : Inv (writeMc s i off v) := by
  unfold writeMc
  split
  · exact h.frame
  · exact h.frame
  · exact h.whenNot (·.frame)
  · exact h.whenNot (·.frame)
  · exact h

protected theorem Inv.writePipe {req i off v} (h : Inv s) : Inv (writePipe s req i off v) := by
  unfold writePipe
  split
  · exact h.clampWrite
  · split
    · exact h.execRollLoad.after
    · exact h.execRollSelect.after
    · exact h.execRollUnload.after
    · exact h
  · split
    · exact h.execPeerClear.after
    · exact h.execPeerMarkLost.after
    · exact h
  · split
    · exact h.execSetCheck.after
    · exact h.execSetSend.after
    · exact h
  · exact h.branch (·.writeMc) (fun h => h.branch (·.fbCfg) (·.plainWrite))

protected theorem Inv.writeCol {req i off v} (h : Inv s) : Inv (writeCol s req i off v) :=
  h.branch (fun h => h.when (·.writePipe)) (·.plainWrite)

protected theorem Inv.writeBlock {req b i off v} (h : Inv s) : Inv (writeBlock s req b i off v) := by
  unfold writeBlock
  split
  · exact h.writeCar
  · exact h.writePce
  · exact h.writePwr
  · exact h.writeSec
  · exact h.writeDbg
  · exact h.writeBst
  · exact h.writeHng
  · exact h.writeDmp
  · exact h.writeClu
  · exact h.writeSq
  · exact h.writeGng
  · exact h.writeMmu
  · exact h.writeFab
  · exact h.writeOpt
  · exact h.writeCol
  · exact h.plainWrite

protected theorem Inv.msixWrite {req a v} (h : Inv s) : Inv (msixWrite s req a v) :=
  h.whenNot (·.frame)

protected theorem Inv.regWrite {req a v} (h : Inv s) : Inv (regWrite s req a v) := by
  unfold regWrite
  split
  · exact h.when (·.msixWrite)
  · exact h.whenNot (fun h => h.branch (·.denied)
        (fun h => h.whenNot (fun h => h.branch (·.headerWrite) (fun h => h.whenNot (·.writeBlock)))))

protected theorem Inv.busWrite {req a size v} (h : Inv s) : Inv (busWrite s req a size v) := by
  unfold busWrite
  split
  · exact h
  · split
    · exact h
    · split
      · exact h.regWrite.regWrite
      · split
        · exact h.regWrite
        · split
          · exact h.branch (·.denied) (·.badSize)
          · exact h.badSize

protected theorem Inv.execRegisterWrite {req a size v} (h : Inv s) : Completes (.registerWrite req a size v) s Inv :=
  ⟨_, rfl, h.busWrite⟩

protected theorem Inv.headerCmd {req a off v} (h : Inv s) : Inv (headerCmd s req a off v) :=
  h.when (·.regWrite)

protected theorem Inv.execAccessLevelWrite {req a v} (h : Inv s) : Completes (.accessLevelWrite req a v) s Inv :=
  ⟨_, rfl, h.headerCmd⟩

protected theorem Inv.execCtrlEnableSet {req a v} (h : Inv s) : Completes (.ctrlEnableSet req a v) s Inv :=
  ⟨_, rfl, h.headerCmd⟩

protected theorem Inv.execCtrlEnableClear {req a v} (h : Inv s) : Completes (.ctrlEnableClear req a v) s Inv :=
  ⟨_, rfl, h.headerCmd⟩

protected theorem Inv.execCtrlQuiesceSet {req a v} (h : Inv s) : Completes (.ctrlQuiesceSet req a v) s Inv :=
  ⟨_, rfl, h.headerCmd⟩

protected theorem Inv.execCtrlQuiesceClear {req a v} (h : Inv s) : Completes (.ctrlQuiesceClear req a v) s Inv :=
  ⟨_, rfl, h.headerCmd⟩

protected theorem Inv.execCtrlResetReq {req a v} (h : Inv s) : Completes (.ctrlResetReq req a v) s Inv :=
  ⟨_, rfl, h.headerCmd⟩

protected theorem Inv.execErrStatusClear {req a v} (h : Inv s) : Completes (.errStatusClear req a v) s Inv :=
  ⟨_, rfl, h.headerCmd⟩

protected theorem Inv.execErrFirstValidClear {req a v} (h : Inv s) : Completes (.errFirstValidClear req a v) s Inv :=
  ⟨_, rfl, h.headerCmd⟩

protected theorem Inv.execErrInject {req a v} (h : Inv s) : Completes (.errInject req a v) s Inv :=
  ⟨_, rfl, h.headerCmd⟩

protected theorem Inv.execIntStatusClear {req a v} (h : Inv s) : Completes (.intStatusClear req a v) s Inv :=
  ⟨_, rfl, h.headerCmd⟩

protected theorem Inv.execQuiescedReached {a} (h : Inv s) : Completes (.quiescedReached a) s Inv := by
  refine ⟨_, rfl, ?_⟩
  split
  · exact h
  · exact h.when (·.rset)

protected theorem Inv.execQuiesceTimeout {a} (h : Inv s) : Completes (.quiesceTimeout a) s Inv := by
  refine ⟨_, rfl, ?_⟩
  split
  · exact h
  · exact h.when (·.recordOn)

/-! #### Spdm -/

protected theorem Inv.spdmOut {code body} (h : Inv s) : Inv (spdmOut s code body) :=
  h.mgmtOut

protected theorem Inv.spdmError (h : Inv s) : Inv (spdmError s) :=
  h.spdmOut

protected theorem Inv.spdmReq {f} (h : Inv s) (hf1 : ∀ {s}, Inv s → Inv (f s)) : Inv (spdmReq s f) :=
  Inv.ite (hf1 h) h.spdmError

protected theorem Inv.execSpdmGetVersion (h : Inv s) : Completes (.spdmGetVersion) s Inv :=
  ⟨_, rfl, h.branch (·.frame.spdmOut) (·.spdmError)⟩

protected theorem Inv.execSpdmGetCapabilities (h : Inv s) : Completes (.spdmGetCapabilities) s Inv :=
  ⟨_, rfl, h.branch (·.spdmOut) (·.spdmError)⟩

protected theorem Inv.execSpdmNegotiateAlgorithms {offered} (h : Inv s) :
    Completes (.spdmNegotiateAlgorithms offered) s Inv :=
  ⟨_, rfl, h.branch (·.frame.spdmOut) (·.spdmError)⟩

protected theorem Inv.execSpdmGetDigests (h : Inv s) : Completes (.spdmGetDigests) s Inv :=
  ⟨_, rfl, h.spdmReq (·.spdmOut)⟩

protected theorem Inv.execSpdmGetCertificate {slot off len} (h : Inv s) :
    Completes (.spdmGetCertificate slot off len) s Inv :=
  ⟨_, rfl, h.spdmReq (fun h1 => h1.branch (·.spdmError) (·.spdmOut))⟩

protected theorem Inv.execSpdmChallenge {slot nonce} (h : Inv s) : Completes (.spdmChallenge slot nonce) s Inv :=
  ⟨_, rfl, h.spdmReq (fun h1 => h1.branch (·.spdmError) (·.spdmOut))⟩

protected theorem Inv.execSpdmGetMeasurements {index nonce} (h : Inv s) :
    Completes (.spdmGetMeasurements index nonce) s Inv :=
  ⟨_, rfl, h.spdmReq (fun h1 => h1.branch (·.spdmOut) (fun h1 => h1.branch (·.spdmError) (·.spdmOut)))⟩

protected theorem Inv.execSpdmKeyExchange {data} (h : Inv s) : Completes (.spdmKeyExchange data) s Inv :=
  ⟨_, rfl, h.spdmReq (fun h1 => h1.branch (·.spdmError) (·.frame.spdmOut))⟩

protected theorem Inv.execSpdmFinish {session ok} (h : Inv s) : Completes (.spdmFinish session ok) s Inv :=
  ⟨_, rfl, h.spdmReq (fun h1 => h1.branch (·.frame.spdmOut) (·.spdmError))⟩

protected theorem Inv.spdmIn {session f} (h : Inv s) (hf2 : ∀ {s}, Inv s → Inv (f s)) : Inv (spdmIn s session f) :=
  h.spdmReq (fun h1 => Inv.ite (hf2 h1) h1.spdmError)

protected theorem Inv.execSpdmHeartbeat {session} (h : Inv s) : Completes (.spdmHeartbeat session) s Inv :=
  ⟨_, rfl, h.spdmIn (·.spdmOut)⟩

protected theorem Inv.execSpdmKeyUpdate {session} (h : Inv s) : Completes (.spdmKeyUpdate session) s Inv :=
  ⟨_, rfl, h.spdmIn (·.spdmOut)⟩

protected theorem Inv.execSpdmEndSession {session} (h : Inv s) : Completes (.spdmEndSession session) s Inv :=
  ⟨_, rfl, h.spdmIn (·.frame.spdmOut)⟩

protected theorem Inv.execSpdmVendorDefinedRequest {session msg p sl on key} (h : Inv s) :
    Completes (.spdmVendorDefinedRequest session msg p sl on key) s Inv :=
  ⟨_, rfl, h.spdmIn (fun h1 => Inv.spdmOut (by
        split
        · exact h1.fabKeySet
        · exact h1.fabKeyDelete
        · exact h1.fabKeyTx
        · exact h1.fabEnc))⟩

/-! #### Vector -/

protected theorem Inv.veErr {e n k ph i} (h : Inv s) : Inv (veErr s e n k ph i) :=
  h.modStrand.errCtx

protected theorem Inv.execVeStrandLaunch {n ph} (h : Inv s) : Completes (.veStrandLaunch n ph) s Inv := by
  refine ⟨_, rfl, ?_⟩
  dsimp only
  split
  · exact h
  · split
    · exact h
    · exact h.whenNot (·.modStrand.refresh)

protected theorem Inv.vePre {n ph k i ecc} (h : Inv s) : Inv (vePre s n ph k i ecc).1 := by
  unfold vePre
  dsimp only
  split
  · exact h.when (·.recErr) |>.veErr |>.branch (·.noteEcc.corePending) (·.noteEcc) |>.pair
  · split
    · next _ _ e => exact h.when (·.recErr) |>.checkRead |>.ofEq e |>.endCtx |>.pair
    · next _ e2 => exact h.when (·.recErr) |>.checkRead |>.ofEq e2 |>.pair

protected theorem Inv.veRun {n ph opc ecc f} (h : Inv s) (hf : ∀ {s k i w}, Inv s → Inv (f s k i w)) :
    Inv (veRun s n ph opc ecc f) := by
  unfold veRun
  split
  · exact h
  · exact h.veErr
  · split
    · exact h
    · split
      · next e => exact h.vePre.ofEq e
      · next e => exact (h.vePre.ofEq e).branch (·.veErr) (fun h => hf h.bump.bump)

protected theorem Inv.veReg {n ph opc ecc f} (h : Inv s) : Inv (veReg s n ph opc ecc f) :=
  h.veRun (·.modStrand)

protected theorem Inv.execVeOpInvalid {n ph ecc} (h : Inv s) : Completes (.veOpInvalid n ph ecc) s Inv := by
  refine ⟨_, rfl, ?_⟩
  split
  · exact h
  · exact h.veErr
  · split
    · exact h
    · split
      · next _ e => exact h.vePre.ofEq e
      · next _ e2 => exact h.vePre.ofEq e2 |>.veErr

protected theorem Inv.vLoadCheck {n k as ecc} (h : Inv s) : Inv (vLoadCheck s n k as ecc).1 :=
  h.pair.foldlFst (·.checkRead.pair)

protected theorem Inv.veLoad {n ph opc ecc} (h : Inv s) : Inv (veLoad s n ph opc ecc) := by
  unfold veLoad
  dsimp only
  exact h.veRun (fun h1 => Inv.ite h1.veErr
      (by
        split
        · next _ _ e => exact h1.vLoadCheck.ofEq e |>.endCtx
        · next _ e2 => exact h1.vLoadCheck.ofEq e2 |>.modStrand))

protected theorem Inv.veStore {n ph opc ecc} (h : Inv s) : Inv (veStore s n ph opc ecc) :=
  h.veRun (fun h1 => h1.branch (·.veErr) (fun h1 => h1.foldl (·.writeWin) |>.modStrand))

protected theorem Inv.execVeNop {n ph ecc} (h : Inv s) : Completes (.veNop n ph ecc) s Inv :=
  ⟨_, rfl, h.veReg⟩

protected theorem Inv.execVeAdd {n ph ecc} (h : Inv s) : Completes (.veAdd n ph ecc) s Inv :=
  ⟨_, rfl, h.veReg⟩

protected theorem Inv.execVeSub {n ph ecc} (h : Inv s) : Completes (.veSub n ph ecc) s Inv :=
  ⟨_, rfl, h.veReg⟩

protected theorem Inv.execVeMul {n ph ecc} (h : Inv s) : Completes (.veMul n ph ecc) s Inv :=
  ⟨_, rfl, h.veReg⟩

protected theorem Inv.execVeMin {n ph ecc} (h : Inv s) : Completes (.veMin n ph ecc) s Inv :=
  ⟨_, rfl, h.veReg⟩

protected theorem Inv.execVeMax {n ph ecc} (h : Inv s) : Completes (.veMax n ph ecc) s Inv :=
  ⟨_, rfl, h.veReg⟩

protected theorem Inv.execVeFma {n ph ecc} (h : Inv s) : Completes (.veFma n ph ecc) s Inv :=
  ⟨_, rfl, h.veReg⟩

protected theorem Inv.execVeAbs {n ph ecc} (h : Inv s) : Completes (.veAbs n ph ecc) s Inv :=
  ⟨_, rfl, h.veReg⟩

protected theorem Inv.execVeNeg {n ph ecc} (h : Inv s) : Completes (.veNeg n ph ecc) s Inv :=
  ⟨_, rfl, h.veReg⟩

protected theorem Inv.execVeCvt {n ph ecc} (h : Inv s) : Completes (.veCvt n ph ecc) s Inv :=
  ⟨_, rfl, h.veRun (·.modStrand)⟩

protected theorem Inv.execVeCmp {n ph ecc} (h : Inv s) : Completes (.veCmp n ph ecc) s Inv :=
  ⟨_, rfl, h.veReg⟩

protected theorem Inv.execVeSel {n ph ecc} (h : Inv s) : Completes (.veSel n ph ecc) s Inv :=
  ⟨_, rfl, h.veReg⟩

protected theorem Inv.execVeAnd {n ph ecc} (h : Inv s) : Completes (.veAnd n ph ecc) s Inv :=
  ⟨_, rfl, h.veReg⟩

protected theorem Inv.execVeOr {n ph ecc} (h : Inv s) : Completes (.veOr n ph ecc) s Inv :=
  ⟨_, rfl, h.veReg⟩

protected theorem Inv.execVeXor {n ph ecc} (h : Inv s) : Completes (.veXor n ph ecc) s Inv :=
  ⟨_, rfl, h.veReg⟩

protected theorem Inv.execVeShl {n ph ecc} (h : Inv s) : Completes (.veShl n ph ecc) s Inv :=
  ⟨_, rfl, h.veReg⟩

protected theorem Inv.execVeShr {n ph ecc} (h : Inv s) : Completes (.veShr n ph ecc) s Inv :=
  ⟨_, rfl, h.veReg⟩

protected theorem Inv.execVeSar {n ph ecc} (h : Inv s) : Completes (.veSar n ph ecc) s Inv :=
  ⟨_, rfl, h.veReg⟩

protected theorem Inv.veTrans {n ph opc ecc} (h : Inv s) : Inv (veTrans s n ph opc ecc) :=
  h.veRun (·.bump.modStrand)

protected theorem Inv.execVeRcp {n ph ecc} (h : Inv s) : Completes (.veRcp n ph ecc) s Inv :=
  ⟨_, rfl, h.veTrans⟩

protected theorem Inv.execVeRsqrt {n ph ecc} (h : Inv s) : Completes (.veRsqrt n ph ecc) s Inv :=
  ⟨_, rfl, h.veTrans⟩

protected theorem Inv.execVeSqrt {n ph ecc} (h : Inv s) : Completes (.veSqrt n ph ecc) s Inv :=
  ⟨_, rfl, h.veTrans⟩

protected theorem Inv.execVeExp2 {n ph ecc} (h : Inv s) : Completes (.veExp2 n ph ecc) s Inv :=
  ⟨_, rfl, h.veTrans⟩

protected theorem Inv.execVeLog2 {n ph ecc} (h : Inv s) : Completes (.veLog2 n ph ecc) s Inv :=
  ⟨_, rfl, h.veTrans⟩

protected theorem Inv.execVeSinpi {n ph ecc} (h : Inv s) : Completes (.veSinpi n ph ecc) s Inv :=
  ⟨_, rfl, h.veTrans⟩

protected theorem Inv.execVeCospi {n ph ecc} (h : Inv s) : Completes (.veCospi n ph ecc) s Inv :=
  ⟨_, rfl, h.veTrans⟩

protected theorem Inv.execVeTanh {n ph ecc} (h : Inv s) : Completes (.veTanh n ph ecc) s Inv :=
  ⟨_, rfl, h.veTrans⟩

protected theorem Inv.execVeLd {n ph ecc} (h : Inv s) : Completes (.veLd n ph ecc) s Inv :=
  ⟨_, rfl, h.veLoad⟩

protected theorem Inv.execVeSt {n ph ecc} (h : Inv s) : Completes (.veSt n ph ecc) s Inv :=
  ⟨_, rfl, h.veStore⟩

protected theorem Inv.execVeLdx {n ph ecc} (h : Inv s) : Completes (.veLdx n ph ecc) s Inv :=
  ⟨_, rfl, h.veLoad⟩

protected theorem Inv.execVeStx {n ph ecc} (h : Inv s) : Completes (.veStx n ph ecc) s Inv :=
  ⟨_, rfl, h.veStore⟩

protected theorem Inv.execVeSld {n ph ecc} (h : Inv s) : Completes (.veSld n ph ecc) s Inv :=
  ⟨_, rfl, h.veLoad⟩

protected theorem Inv.execVeSst {n ph ecc} (h : Inv s) : Completes (.veSst n ph ecc) s Inv :=
  ⟨_, rfl, h.veStore⟩

protected theorem Inv.execVeShuf {n ph ecc} (h : Inv s) : Completes (.veShuf n ph ecc) s Inv :=
  ⟨_, rfl, h.veReg⟩

protected theorem Inv.execVeBcst {n ph ecc} (h : Inv s) : Completes (.veBcst n ph ecc) s Inv :=
  ⟨_, rfl, h.veReg⟩

protected theorem Inv.execVeRadd {n ph ecc} (h : Inv s) : Completes (.veRadd n ph ecc) s Inv :=
  ⟨_, rfl, h.veReg⟩

protected theorem Inv.execVeRmax {n ph ecc} (h : Inv s) : Completes (.veRmax n ph ecc) s Inv :=
  ⟨_, rfl, h.veReg⟩

protected theorem Inv.execVeRmin {n ph ecc} (h : Inv s) : Completes (.veRmin n ph ecc) s Inv :=
  ⟨_, rfl, h.veReg⟩

protected theorem Inv.execVeMovi {n ph ecc} (h : Inv s) : Completes (.veMovi n ph ecc) s Inv :=
  ⟨_, rfl, h.veReg⟩

protected theorem Inv.execVeMov {n ph ecc} (h : Inv s) : Completes (.veMov n ph ecc) s Inv :=
  ⟨_, rfl, h.veReg⟩

protected theorem Inv.execVeMovs {n ph ecc} (h : Inv s) : Completes (.veMovs n ph ecc) s Inv :=
  ⟨_, rfl, h.veReg⟩

protected theorem Inv.execVeLaneid {n ph ecc} (h : Inv s) : Completes (.veLaneid n ph ecc) s Inv :=
  ⟨_, rfl, h.veReg⟩

protected theorem Inv.execVeLoop {n ph ecc} (h : Inv s) : Completes (.veLoop n ph ecc) s Inv :=
  ⟨_, rfl, h.veRun
    (fun h1 => h1.branch (·.veErr)
      (fun h1 => h1.branch (·.veErr) (fun h1 => h1.branch (·.modStrand) (·.modStrand))))⟩

protected theorem Inv.execVeJmp {n ph ecc} (h : Inv s) : Completes (.veJmp n ph ecc) s Inv :=
  ⟨_, rfl, h.veRun (fun h1 => h1.branch (·.modStrand) (·.veErr))⟩

protected theorem Inv.execVeExit {n ph ecc} (h : Inv s) : Completes (.veExit n ph ecc) s Inv :=
  ⟨_, rfl, h.veRun (fun h1 => Inv.refresh (by
        split
        · exact h1.modStrand.modSlot.addBeat
        · exact h1.modStrand.modSlot))⟩

protected theorem Inv.execVeWait {n ph ecc} (h : Inv s) : Completes (.veWait n ph ecc) s Inv := by
  refine ⟨_, rfl, ?_⟩
  dsimp only
  exact h.veRun (fun h1 => by
      split
      · exact h1.veErr
      · exact h1.branch (·.errCtx)
          (fun h1 => h1.modStrand.branch (fun h2 => h2.whenNot (·.bump) |>.modSync) (·.modStrand.refresh)))

protected theorem Inv.execVeSignal {n ph ecc} (h : Inv s) : Completes (.veSignal n ph ecc) s Inv := by
  refine ⟨_, rfl, ?_⟩
  dsimp only
  exact h.veRun (fun h1 => by
      split
      · exact h1.veErr
      · exact h1.modStrand.syncDo)

protected theorem Inv.execVeFence {n ph ecc} (h : Inv s) : Completes (.veFence n ph ecc) s Inv :=
  ⟨_, rfl, h.veReg⟩

/-! #### The step -/

/-- Every command completes in a state that keeps the invariant: one case per command, each by the lemma of its meaning. -/
theorem exec_completes_inv (c : Instr) (h : Inv s) : Completes c s Inv := by
  cases c with
  | vaux12InRange => exact h.execVaux12InRange
  | bootS1 => exact h.execBootS1
  | romWatchdog => exact h.execRomWatchdog
  | vin48Present => exact h.execVin48Present
  | bootS2 => exact h.execBootS2
  | bootS3 => exact h.execBootS3
  | bootS4 => exact h.execBootS4
  | bootS5 => exact h.execBootS5
  | bootS6 => exact h.execBootS6
  | bootS7 => exact h.execBootS7
  | bootStageFail => exact h.execBootStageFail
  | registerWrite => exact h.execRegisterWrite
  | rcRegisterRead => exact h.execRcRegisterRead
  | accessLevelWrite => exact h.execAccessLevelWrite
  | ctrlEnableSet => exact h.execCtrlEnableSet
  | ctrlEnableClear => exact h.execCtrlEnableClear
  | ctrlQuiesceSet => exact h.execCtrlQuiesceSet
  | ctrlQuiesceClear => exact h.execCtrlQuiesceClear
  | quiescedReached => exact h.execQuiescedReached
  | quiesceTimeout => exact h.execQuiesceTimeout
  | ctrlResetReq => exact h.execCtrlResetReq
  | errStatusClear => exact h.execErrStatusClear
  | errFirstValidClear => exact h.execErrFirstValidClear
  | errInject => exact h.execErrInject
  | intStatusClear => exact h.execIntStatusClear
  | synStateRead => exact h.execSynStateRead
  | carTimeRead => exact h.execCarTimeRead
  | islandSensorSample => exact h.execIslandSensorSample
  | islandSupplySkew => exact h.execIslandSupplySkew
  | islandClockSkew => exact h.execIslandClockSkew
  | sqInstall => exact h.execSqInstall
  | deferredInstall => exact h.execDeferredInstall
  | sqPreempt => exact h.execSqPreempt
  | sqResume => exact h.execSqResume
  | sqHalt => exact h.execSqHalt
  | sqUnhalt => exact h.execSqUnhalt
  | sqStep => exact h.execSqStep
  | sqCmdInvalid => exact h.execSqCmdInvalid
  | rudimentLoadCheck => exact h.execRudimentLoadCheck
  | restoreHeaderRead => exact h.execRestoreHeaderRead
  | restoreComplete => exact h.execRestoreComplete
  | stepPrefetch => exact h.execStepPrefetch
  | stepIssue => exact h.execStepIssue
  | stepComplete => exact h.execStepComplete
  | barrierBindReadDone => exact h.execBarrierBindReadDone
  | gongArrival => exact h.execGongArrival
  | barrierReleaseReceive => exact h.execBarrierReleaseReceive
  | barrierOverrunNotice => exact h.execBarrierOverrunNotice
  | gngBarCfgWrite => exact h.execGngBarCfgWrite
  | gngPkgCfgWrite => exact h.execGngPkgCfgWrite
  | fbLocalArrival => exact h.execFbLocalArrival
  | fbTimeout => exact h.execFbTimeout
  | colFbCfgWrite => exact h.execColFbCfgWrite
  | teMma => exact h.execTeMma
  | teWb => exact h.execTeWb
  | teZero => exact h.execTeZero
  | teLdacc => exact h.execTeLdacc
  | teOpInvalid => exact h.execTeOpInvalid
  | teOpComplete => exact h.execTeOpComplete
  | veStrandLaunch => exact h.execVeStrandLaunch
  | veNop => exact h.execVeNop
  | veAdd => exact h.execVeAdd
  | veSub => exact h.execVeSub
  | veMul => exact h.execVeMul
  | veFma => exact h.execVeFma
  | veMin => exact h.execVeMin
  | veMax => exact h.execVeMax
  | veAbs => exact h.execVeAbs
  | veNeg => exact h.execVeNeg
  | veCvt => exact h.execVeCvt
  | veCmp => exact h.execVeCmp
  | veSel => exact h.execVeSel
  | veAnd => exact h.execVeAnd
  | veOr => exact h.execVeOr
  | veXor => exact h.execVeXor
  | veShl => exact h.execVeShl
  | veShr => exact h.execVeShr
  | veSar => exact h.execVeSar
  | veRcp => exact h.execVeRcp
  | veRsqrt => exact h.execVeRsqrt
  | veSqrt => exact h.execVeSqrt
  | veExp2 => exact h.execVeExp2
  | veLog2 => exact h.execVeLog2
  | veSinpi => exact h.execVeSinpi
  | veCospi => exact h.execVeCospi
  | veTanh => exact h.execVeTanh
  | veLd => exact h.execVeLd
  | veSt => exact h.execVeSt
  | veLdx => exact h.execVeLdx
  | veStx => exact h.execVeStx
  | veSld => exact h.execVeSld
  | veSst => exact h.execVeSst
  | veShuf => exact h.execVeShuf
  | veBcst => exact h.execVeBcst
  | veRadd => exact h.execVeRadd
  | veRmax => exact h.execVeRmax
  | veRmin => exact h.execVeRmin
  | veMovi => exact h.execVeMovi
  | veMov => exact h.execVeMov
  | veMovs => exact h.execVeMovs
  | veLaneid => exact h.execVeLaneid
  | veLoop => exact h.execVeLoop
  | veJmp => exact h.execVeJmp
  | veExit => exact h.execVeExit
  | veWait => exact h.execVeWait
  | veSignal => exact h.execVeSignal
  | veFence => exact h.execVeFence
  | veOpInvalid => exact h.execVeOpInvalid
  | xeChainStart => exact h.execXeChainStart
  | xeCopy => exact h.execXeCopy
  | xeFill => exact h.execXeFill
  | xeGather => exact h.execXeGather
  | xeScatter => exact h.execXeScatter
  | xeAgen => exact h.execXeAgen
  | xePut => exact h.execXePut
  | xeGet => exact h.execXeGet
  | xeSignal => exact h.execXeSignal
  | xeAtomic => exact h.execXeAtomic
  | xeReducePut => exact h.execXeReducePut
  | xeReadIssue => exact h.execXeReadIssue
  | xeReadDataReturn => exact h.execXeReadDataReturn
  | xeDescComplete => exact h.execXeDescComplete
  | mmuWalk => exact h.execMmuWalk
  | xeTranslationFault => exact h.execXeTranslationFault
  | faultRecordPost => exact h.execFaultRecordPost
  | mmuInvVaRange => exact h.execMmuInvVaRange
  | mmuInvAsid => exact h.execMmuInvAsid
  | mmuInvAll => exact h.execMmuInvAll
  | mmuInvKey => exact h.execMmuInvKey
  | mmuInvComplete => exact h.execMmuInvComplete
  | mmuInvTimeout => exact h.execMmuInvTimeout
  | fabricStopSettled => exact h.execFabricStopSettled
  | tallyOnlySend => exact h.execTallyOnlySend
  | saveStart => exact h.execSaveStart
  | saveComplete => exact h.execSaveComplete
  | saveFault => exact h.execSaveFault
  | srDoorbell => exact h.execSrDoorbell
  | srFetch => exact h.execSrFetch
  | ringDispatch => exact h.execRingDispatch
  | ringNop => exact h.execRingNop
  | ringInstall => exact h.execRingInstall
  | ringCtxReset => exact h.execRingCtxReset
  | ringInvalid => exact h.execRingInvalid
  | cqPost => exact h.execCqPost
  | cqTimerExpiry => exact h.execCqTimerExpiry
  | cluCqHeadWrite => exact h.execCluCqHeadWrite
  | cluFqHeadWrite => exact h.execCluFqHeadWrite
  | qDmaError => exact h.execQDmaError
  | qDmaTimeout => exact h.execQDmaTimeout
  | configRequest => exact h.execConfigRequest
  | bar2Read => exact h.execBar2Read
  | bar2Write => exact h.execBar2Write
  | pcieLaneFailed => exact h.execPcieLaneFailed
  | pcieLinkDown => exact h.execPcieLinkDown
  | vfFlr => exact h.execVfFlr
  | pfFlr => exact h.execPfFlr
  | perstAssert => exact h.execPerstAssert
  | pcePartitionReset => exact h.execPcePartitionReset
  | pceChipReset => exact h.execPceChipReset
  | fabCmdEnable => exact h.execFabCmdEnable
  | fabCmdDisable => exact h.execFabCmdDisable
  | fabCmdRetrain => exact h.execFabCmdRetrain
  | fabCmdRecheck => exact h.execFabCmdRecheck
  | fabCmdClear => exact h.execFabCmdClear
  | fabCmdRetireLane => exact h.execFabCmdRetireLane
  | fabSignalDetect => exact h.execFabSignalDetect
  | downProbe => exact h.execDownProbe
  | trainingAttemptEnd => exact h.execTrainingAttemptEnd
  | identityFrame => exact h.execIdentityFrame
  | identifyTimeout => exact h.execIdentifyTimeout
  | flitTransmit => exact h.execFlitTransmit
  | flitReceive => exact h.execFlitReceive
  | pauseReq => exact h.execPauseReq
  | pauseAck => exact h.execPauseAck
  | pauseComplete => exact h.execPauseComplete
  | linkResume => exact h.execLinkResume
  | retrainReq => exact h.execRetrainReq
  | standbyReq => exact h.execStandbyReq
  | standbyAck => exact h.execStandbyAck
  | wake => exact h.execWake
  | keepalive => exact h.execKeepalive
  | laneBerWindow => exact h.execLaneBerWindow
  | laneUncorrWindow => exact h.execLaneUncorrWindow
  | laneLockLoss => exact h.execLaneLockLoss
  | laneLockTimeout => exact h.execLaneLockTimeout
  | laneRelock => exact h.execLaneRelock
  | laneRetrainComplete => exact h.execLaneRetrainComplete
  | laneDarkTimeout => exact h.execLaneDarkTimeout
  | optLaserWarn => exact h.execOptLaserWarn
  | optLaserFault => exact h.execOptLaserFault
  | laserWarmComplete => exact h.execLaserWarmComplete
  | optTempRead => exact h.execOptTempRead
  | optReflPeriodic => exact h.execOptReflPeriodic
  | optReflStart => exact h.execOptReflStart
  | optReflAbort => exact h.execOptReflAbort
  | reflFibreComplete => exact h.execReflFibreComplete
  | optProbeFail => exact h.execOptProbeFail
  | planeFailTimer => exact h.execPlaneFailTimer
  | fabricPacketSend => exact h.execFabricPacketSend
  | packetHoldTimeout => exact h.execPacketHoldTimeout
  | putPkt => exact h.execPutPkt
  | getReq => exact h.execGetReq
  | signalPkt => exact h.execSignalPkt
  | atomicPkt => exact h.execAtomicPkt
  | reducePut => exact h.execReducePut
  | tally => exact h.execTally
  | ackPkt => exact h.execAckPkt
  | getData => exact h.execGetData
  | atomicRsp => exact h.execAtomicRsp
  | unreachable => exact h.execUnreachable
  | packetResend => exact h.execPacketResend
  | packetTimeout => exact h.execPacketTimeout
  | orphanTimeout => exact h.execOrphanTimeout
  | resetNotice => exact h.execResetNotice
  | epochAnnounce => exact h.execEpochAnnounce
  | fbArrive => exact h.execFbArrive
  | fbRelease => exact h.execFbRelease
  | fbOverrun => exact h.execFbOverrun
  | rollLoad => exact h.execRollLoad
  | rollLoadComplete => exact h.execRollLoadComplete
  | rollSelect => exact h.execRollSelect
  | rollUnload => exact h.execRollUnload
  | peerClear => exact h.execPeerClear
  | peerMarkLost => exact h.execPeerMarkLost
  | pealChunk => exact h.execPealChunk
  | pealEnd => exact h.execPealEnd
  | pealFetchPass => exact h.execPealFetchPass
  | bistSliceSchedule => exact h.execBistSliceSchedule
  | bistSliceStart => exact h.execBistSliceStart
  | bistSliceComplete => exact h.execBistSliceComplete
  | bistSliceRetry => exact h.execBistSliceRetry
  | bstDirectCmd => exact h.execBstDirectCmd
  | directBistComplete => exact h.execDirectBistComplete
  | scanRequest => exact h.execScanRequest
  | scanOpen => exact h.execScanOpen
  | setCheck => exact h.execSetCheck
  | setFetch => exact h.execSetFetch
  | setSend => exact h.execSetSend
  | setCmdComplete => exact h.execSetCmdComplete
  | fieldRecordFlush => exact h.execFieldRecordFlush
  | fwConfirm => exact h.execFwConfirm
  | fwCancelPending => exact h.execFwCancelPending
  | fwBufferEcc => exact h.execFwBufferEcc
  | stagingReadbackComplete => exact h.execStagingReadbackComplete
  | rcvStatus => exact h.execRcvStatus
  | rcvBegin => exact h.execRcvBegin
  | rcvData => exact h.execRcvData
  | rcvEnd => exact h.execRcvEnd
  | rcvAbort => exact h.execRcvAbort
  | rcvVerifyComplete => exact h.execRcvVerifyComplete
  | rcvInactivityTimeout => exact h.execRcvInactivityTimeout
  | lcToMission => exact h.execLcToMission
  | lcToReturn => exact h.execLcToReturn
  | lcToEnd => exact h.execLcToEnd
  | lcTransitionComplete => exact h.execLcTransitionComplete
  | alarmVglitch => exact h.execAlarmVglitch
  | alarmCglitch => exact h.execAlarmCglitch
  | alarmTemp => exact h.execAlarmTemp
  | alarmMesh => exact h.execAlarmMesh
  | alarmFuse => exact h.execAlarmFuse
  | alarmDebug => exact h.execAlarmDebug
  | secAlarmCfgWrite => exact h.execSecAlarmCfgWrite
  | dbgGetNonce => exact h.execDbgGetNonce
  | dbgToken => exact h.execDbgToken
  | dbgRevoke => exact h.execDbgRevoke
  | dbgStatus => exact h.execDbgStatus
  | dbgCmdRevoke => exact h.execDbgCmdRevoke
  | dbgCmdRevokeAll => exact h.execDbgCmdRevokeAll
  | dbgCmdOpen => exact h.execDbgCmdOpen
  | tokenLockoutExpiry => exact h.execTokenLockoutExpiry
  | jtagInstruction => exact h.execJtagInstruction
  | traceEnable => exact h.execTraceEnable
  | fabKeySet => exact h.execFabKeySet
  | fabKeyDelete => exact h.execFabKeyDelete
  | fabKeyTx => exact h.execFabKeyTx
  | fabEnc => exact h.execFabEnc
  | spdmGetVersion => exact h.execSpdmGetVersion
  | spdmGetCapabilities => exact h.execSpdmGetCapabilities
  | spdmNegotiateAlgorithms => exact h.execSpdmNegotiateAlgorithms
  | spdmGetDigests => exact h.execSpdmGetDigests
  | spdmGetCertificate => exact h.execSpdmGetCertificate
  | spdmChallenge => exact h.execSpdmChallenge
  | spdmGetMeasurements => exact h.execSpdmGetMeasurements
  | spdmKeyExchange => exact h.execSpdmKeyExchange
  | spdmFinish => exact h.execSpdmFinish
  | spdmHeartbeat => exact h.execSpdmHeartbeat
  | spdmKeyUpdate => exact h.execSpdmKeyUpdate
  | spdmEndSession => exact h.execSpdmEndSession
  | spdmVendorDefinedRequest => exact h.execSpdmVendorDefinedRequest
  | hangEvent => exact h.execHangEvent
  | saveTimeout => exact h.execSaveTimeout
  | contextReset => exact h.execContextReset
  | ctxResetTimeout => exact h.execCtxResetTimeout
  | engineReset => exact h.execEngineReset
  | engResetTimeout => exact h.execEngResetTimeout
  | partitionReset => exact h.execPartitionReset
  | partitionResetComplete => exact h.execPartitionResetComplete
  | partResetTimeout => exact h.execPartResetTimeout
  | chipReset => exact h.execChipReset
  | splitChangeRequest => exact h.execSplitChangeRequest
  | sideDoorTimeout => exact h.execSideDoorTimeout
  | dumpCollectionEnd => exact h.execDumpCollectionEnd
  | dumpTake => exact h.execDumpTake
  | dumpRelease => exact h.execDumpRelease
  | dumpDataRead => exact h.execDumpDataRead
  | pwrStateCmdA0 => exact h.execPwrStateCmdA0
  | pwrStateCmdA2 => exact h.execPwrStateCmdA2
  | pwrStateCmdA3 => exact h.execPwrStateCmdA3
  | a1IdleEntry => exact h.execA1IdleEntry
  | a2EntryComplete => exact h.execA2EntryComplete
  | a2ExitComplete => exact h.execA2ExitComplete
  | pwrStateFail => exact h.execPwrStateFail
  | powerGrant => exact h.execPowerGrant
  | poolRecompute => exact h.execPoolRecompute
  | fastLoopTick => exact h.execFastLoopTick
  | pwrbrkAssert => exact h.execPwrbrkAssert
  | brakeStage2 => exact h.execBrakeStage2
  | brakeRelease => exact h.execBrakeRelease
  | lEffRamp => exact h.execLEffRamp
  | brakeStageRecompute => exact h.execBrakeStageRecompute
  | pwrLimitCfgWrite => exact h.execPwrLimitCfgWrite
  | vinDip => exact h.execVinDip
  | powerFailSequence => exact h.execPowerFailSequence
  | pwrVinOv => exact h.execPwrVinOv
  | pwrVauxLost => exact h.execPwrVauxLost
  | vin48Return => exact h.execVin48Return
  | vaux12Removed => exact h.execVaux12Removed
  | thermalSample => exact h.execThermalSample
  | thermalStepTimer => exact h.execThermalStepTimer
  | hbmTempRead => exact h.execHbmTempRead
  | coolingEventRepeat => exact h.execCoolingEventRepeat
  | hbmRefresh => exact h.execHbmRefresh
  | patrolScrubRead => exact h.execPatrolScrubRead
  | zeroiseComplete => exact h.execZeroiseComplete
  | brgFlitCrcFail => exact h.execBrgFlitCrcFail
  | brgLaneSpared => exact h.execBrgLaneSpared
  | brgRetired => exact h.execBrgRetired
  | controllerSelftestDone => exact h.execControllerSelftestDone
  | heartbeatSlot => exact h.execHeartbeatSlot
  | tokenRequest => exact h.execTokenRequest
  | failover => exact h.execFailover
  | takeback => exact h.execTakeback
  | bothDownTimeout => exact h.execBothDownTimeout
  | i3cEntdaa => exact h.execI3cEntdaa
  | mctpSetEndpointId => exact h.execMctpSetEndpointId
  | mctpGetEndpointId => exact h.execMctpGetEndpointId
  | mctpGetVersionSupport => exact h.execMctpGetVersionSupport
  | mctpGetMessageTypeSupport => exact h.execMctpGetMessageTypeSupport
  | mctpGetVendorMessageSupport => exact h.execMctpGetVendorMessageSupport
  | pldmGetTid => exact h.execPldmGetTid
  | pldmSetTid => exact h.execPldmSetTid
  | pldmGetPldmVersion => exact h.execPldmGetPldmVersion
  | pldmGetPldmTypes => exact h.execPldmGetPldmTypes
  | pldmGetPldmCommands => exact h.execPldmGetPldmCommands
  | pldmSetEventReceiver => exact h.execPldmSetEventReceiver
  | pldmPollForEvent => exact h.execPldmPollForEvent
  | pldmGetSensorReading => exact h.execPldmGetSensorReading
  | pldmGetStateSensorReadings => exact h.execPldmGetStateSensorReadings
  | pldmGetPdr => exact h.execPldmGetPdr
  | pldmGetPdrRepositoryInfo => exact h.execPldmGetPdrRepositoryInfo
  | effecterPowerState => exact h.execEffecterPowerState
  | effecterChipReset => exact h.execEffecterChipReset
  | effecterConfirm => exact h.execEffecterConfirm
  | eventSend => exact h.execEventSend
  | eventAnswer => exact h.execEventAnswer
  | eventRetryTimeout => exact h.execEventRetryTimeout
  | pldmRequestUpdate => exact h.execPldmRequestUpdate
  | pldmPassComponentTable => exact h.execPldmPassComponentTable
  | pldmUpdateComponent => exact h.execPldmUpdateComponent
  | firmwareDataReceived => exact h.execFirmwareDataReceived
  | pldmActivateFirmware => exact h.execPldmActivateFirmware
  | pldmGetStatus => exact h.execPldmGetStatus
  | pldmCancelUpdate => exact h.execPldmCancelUpdate
  | carStatus => exact h.execCarStatus
  | mctpDumpRead => exact h.execMctpDumpRead
  | configRead => exact h.execConfigRead
  | configWrite => exact h.execConfigWrite
  | telemetry => exact h.execTelemetry
  | telemetrySample => exact h.execTelemetrySample
  | perstDeassert => exact h.execPerstDeassert
  | pcieLinkUp => exact h.execPcieLinkUp
  | queueEnable => exact h.execQueueEnable
  | refreshManagementRequest => exact h.execRefreshManagementRequest

/-- Settles O2: a step runs the front of the queue, or is a tick when the queue is empty, and both keep the invariant. -/
theorem stepKeepsInv : Obligations.StepKeepsInv := by
  unfold Obligations.StepKeepsInv
  intro s t h ht
  cases hp : s.pending with
  | nil =>
    rw [step_empty hp] at ht
    cases ht
    exact h.tick
  | cons c rest =>
    obtain ⟨u, hu, hi⟩ := exec_completes_inv c (s := { s with pending := rest }) h.frame
    rw [step_front hp, hu] at ht
    cases ht
    exact hi

end Sys2Proof
end

/-! ### Upkeep: an island that already counts a colder neighbour keeps its clock

`execIslandSensorSample` shows the half clock of the hotter island only when it adds the colder one to its list; the
statement asks for the half clock in every state. A state whose list already names the neighbour, at full clock, refutes
it. -/

section
set_option Elab.async false
namespace Sys2Proof.Machine

/-- Island 24576 (kind 6, the first of its kind) counts its colder neighbour 24577 and runs at full clock all the same. -/
def countedAtFullClock : State :=
  { State.reset with islands := [(24576, { above := [24577] })] }

/-- A sample that finds the pair 100 °C apart leaves the hotter island of `countedAtFullClock` at full clock. -/
theorem islandSensorSample_countedAtFullClock :
    ∃ t, exec (.islandSensorSample 24576 24577 100 0) countedAtFullClock = .next t ∧ (island t 24576).half = false :=
  ⟨_, rfl, by decide⟩

end Sys2Proof.Machine

namespace Sys2Proof
open Machine

/-- Refutes O37: the clause of the island sample fails in `countedAtFullClock`, whose hotter island stays at full clock
although the pair is more than 45 °C apart. -/
theorem not_upkeep : ¬ Obligations.Upkeep := by
  unfold Obligations.Upkeep
  rintro ⟨-, -, hsample, -⟩
  obtain ⟨t, ht, -, -, -, -, hhalf, -⟩ := hsample countedAtFullClock 24576 24577 100 0 (by decide)
    (by decide) (by decide)
  obtain ⟨u, hu, hfull⟩ := islandSensorSample_countedAtFullClock
  obtain rfl : t = u := by injection ht.symm.trans hu
  exact absurd (hhalf (by decide)).1 (by simp [hfull])

end Sys2Proof
end

/-! ### The test engine: slices, direct BIST and scan (R43, R393 to R399)

First what the operations that a slice calls leave: the slices themselves, memory, and the ERR_STATUS bits already set.
Then one group of lemmas for each command, and the statement put together from them. -/

section
set_option Elab.async false
namespace Sys2Proof.Machine

/-! #### What a permanent failure leaves -/

theorem KeepsErrs.refl (s : State) : KeepsErrs s s := .of_regs rfl rfl

theorem KeepsErrs.trans {s t u : State} (h : KeepsErrs s t) (k : KeepsErrs t u) : KeepsErrs s u where
  mem := k.mem.trans h.mem
  bits a n ha hs := k.bits a n ha (h.bits a n ha hs)

theorem KeepsErrs.recErr {s t : State} (h : KeepsErrs s t) (e : ErrCode) (i sub det : Nat) (c : Word) :
    KeepsErrs s (Machine.recErr t e i sub det c) := h.trans (recErr_keepsErrs t e i sub det c)

/-- A store to a register that is no ERR_STATUS keeps the recorded errors. -/
theorem rset_keepsErrs (s : State) (b : Block) (i off : Nat) (v : Word) (h : off % 0x1000 ≠ 0x20) :
    KeepsErrs s (rset s b i off v) where
  mem := rfl
  bits a k ha hs := by
    have hp := page_mod b i
    rwa [rset, regGet_regSet_ne s v (by omega)]

theorem KeepsErrs.foldl {α : Type} {f : State → α → State} (hf : ∀ u x, KeepsErrs u (f u x)) (l : List α) (s : State) :
    KeepsErrs s (l.foldl f s) :=
  List.foldlRecOn l f (motive := KeepsErrs s) (.refl s) fun u hu x _ => hu.trans (hf u x)

theorem foldl_bist {α : Type} {f : State → α → State} (hf : ∀ u x, (f u x).bist = u.bist) (l : List α) (s : State) :
    (l.foldl f s).bist = s.bist :=
  List.foldlRecOn l f (motive := fun t => t.bist = s.bist) rfl fun u hu x _ => (hf u x).trans hu

/-- The record that a request of a partition reset leaves is not among the registers. -/
theorem requestPart_keepsErrs (s : State) (p cause : Nat) (e x : Bool) (pg : Nat) :
    KeepsErrs s (requestPart s p cause e x pg) := .of_regs rfl rfl

theorem stgRowPermanent_keepsErrs (s : State) (i bank row : Nat) (u : Bool) :
    KeepsErrs s (stgRowPermanent s i bank row u) := by
  unfold stgRowPermanent
  extract_lets ph used s1 s2 s3
  have h1 : KeepsErrs s s1 := .of_regs rfl rfl
  have h3 : KeepsErrs s s3 :=
    (h1.trans (rset_keepsErrs s1 .stg i 0x124 _ (by decide))).recErr _ _ _ _ _
  clear_value s3
  split
  · split
    · exact requestPart_keepsErrs _ _ _ _ _ _
    · exact .refl s
  · split
    · refine KeepsErrs.recErr ?_ _ _ _ _ _
      exact .of_regs rfl rfl
    · split
      · exact h3.trans (requestPart_keepsErrs _ _ _ _ _ _)
      · exact h3

@[simp] theorem stgRowPermanent_bist (s : State) (i bank row : Nat) (u : Bool) :
    (stgRowPermanent s i bank row u).bist = s.bist := by
  unfold stgRowPermanent
  extract_lets ph used s1 s2 s3
  have h3 : s3.bist = s.bist := recErr_bist s2 _ _ _ _ _
  clear_value s3
  split
  · split <;> rfl
  · split
    · exact recErr_bist _ _ _ _ _ _
    · split <;> exact h3

@[simp] theorem corePending_bist (s : State) (n : Nat) : (corePending s n).bist = s.bist := by
  unfold corePending
  split <;> rfl

/-! #### What a corrected word leaves -/

@[simp] theorem pcPermanent_bist (s : State) (stack pc : Nat) (dead : Bool) :
    (pcPermanent s stack pc dead).bist = s.bist := by
  unfold pcPermanent
  extract_lets off s1 s2
  have h2 : s2.bist = s.bist := recErr_bist s1 _ _ _ _ _
  clear_value s2
  split
  · rfl
  · split <;> exact h2

@[simp] theorem setPageList_bist (s : State) (stack : Nat) (l : List Nat) : (setPageList s stack l).bist = s.bist := by
  unfold setPageList
  refine (rset_bist _ _ _ _ _).trans (foldl_bist (fun u x => ?_) _ _)
  split <;> rfl

@[simp] theorem rowPermanent_bist (s : State) (stack pc row : Nat) : (rowPermanent s stack pc row).bist = s.bist := by
  unfold rowPermanent
  split
  · rfl
  · extract_lets s1 s2 s3 s4 new s5
    have h4 : s4.bist = s.bist := recErr_bist _ _ _ _ _ _
    have h5 : s5.bist = s4.bist := by
      show (if new.isEmpty = true then s4 else _ : State).bist = _
      split
      · rfl
      · split
        · rw [pcPermanent_bist, recErr_bist]
        · exact foldl_bist (fun u d => (stateEvent_rec _ _ _ _ _).bist.trans
            ((raiseInt_rec _ _ _ _).bist.trans (setPageList_bist _ _ _))) _ _
    split
    · rw [pcPermanent_bist, h5, h4]
    · rw [h5, h4]

@[simp] theorem memCorr_bist (s : State) (d : Nat) (permanent : Bool) : (memCorr s d permanent).bist = s.bist := by
  unfold memCorr
  split
  · dsimp only
    split <;> simp [setHbmLast, bump]
  · dsimp only
    split <;> simp [bump]
  · dsimp only
    split <;> simp
  · rfl

/-! #### Saving a region -/

@[simp] theorem setLastFail_bist (s : State) (b : BistSlice) (p : Bool) : (setLastFail s b p).bist = s.bist := rfl

@[simp] theorem setLastFail_mem (s : State) (b : BistSlice) (p : Bool) : (setLastFail s b p).mem = s.mem := rfl

/-- An uncorrectable word of the region is recorded (R395). -/
theorem sliceSave_uncorr_sets (s : State) (b : BistSlice) (g : Nat) :
    wbit (rget (sliceSave s b g .uncorr) .bst 0 0x20) eBistShadowEcc.bit = true := by
  unfold sliceSave
  exact recErr_sets _ eBistShadowEcc 0 _ _ _ (by decide)

/-- Saving a region leaves the test engine's own state. -/
@[simp] theorem sliceSave_bist (s : State) (b : BistSlice) (g : Nat) (ecc : Ecc) : (sliceSave s b g ecc).bist = s.bist := by
  unfold sliceSave
  cases ecc
  case none => rfl
  case corr | memCorr | memPermanent =>
    dsimp only
    cases sliceGranule b g with
    | some d => exact memCorr_bist _ _ _
    | none => dsimp only; split_ifs <;> simp
  case uncorr | memUncorr =>
    refine (recErr_bist _ _ _ _ _ _).trans ((setLastFail_bist _ _ _).trans ?_)
    cases sliceGranule b g <;> rfl

/-! #### Slices of an array -/

/-- What finding a slice says of it. -/
theorem sliceOf_some {s : State} {c i p : Nat} {b : BistSlice} (h : sliceOf s c i p = some b) :
    b ∈ s.bist.slices ∧ b.cls = c ∧ b.inst = i ∧ b.phase = p := by
  have hp := List.find?_some h
  simp only [Bool.and_eq_true, decide_eq_true_eq] at hp
  obtain ⟨⟨hc, hi⟩, hph⟩ := hp
  exact ⟨List.mem_of_find?_eq_some h, hc, hi, hph⟩

theorem sliceOf_isSome {s : State} {c i p : Nat} {b : BistSlice} (hb : b ∈ s.bist.slices) (hc : b.cls = c)
    (hi : b.inst = i) (hp : b.phase = p) : (sliceOf s c i p).isSome = true :=
  List.find?_isSome.2 ⟨b, hb, by simp [hc, hi, hp]⟩

/-- No slice of an array is left once it is dropped. -/
theorem setPhase_none (s : State) (c i : Nat) :
    ∀ x ∈ (setPhase s c i none).bist.slices, ¬ (x.cls = c ∧ x.inst = i) := by
  intro x hx
  obtain ⟨b, -, hb⟩ := List.mem_filterMap.1 hx
  by_cases h : b.cls = c ∧ b.inst = i
  · simp [h] at hb
  · obtain rfl : b = x := by simpa [h] using hb
    exact h

/-- A slice put in a phase is found there. -/
theorem setPhase_some {s : State} {c i p : Nat} {b : BistSlice} (h : sliceOf s c i p = some b) (q : Nat) :
    (sliceOf (setPhase s c i (some q)) c i q).isSome = true := by
  obtain ⟨hb, hc, hi, -⟩ := sliceOf_some h
  have hmem : { b with phase := q } ∈ (setPhase s c i (some q)).bist.slices :=
    List.mem_filterMap.2 ⟨b, hb, by simp [hc, hi]⟩
  exact sliceOf_isSome hmem hc hi rfl

@[simp] theorem bistNext_slices (s : State) (b : BistSlice) : (bistNext s b).bist.slices = s.bist.slices := by
  unfold bistNext; dsimp only; split_ifs <;> rfl

@[simp] theorem bistNext_mem (s : State) (b : BistSlice) : (bistNext s b).mem = s.mem := by
  unfold bistNext; dsimp only; split_ifs <;> rfl

@[simp] theorem bistNext_regs (s : State) (b : BistSlice) : (bistNext s b).regs = s.regs := by
  unfold bistNext; dsimp only; split_ifs <;> rfl

/-! #### BIST_SLICE_SCHEDULE (R393) -/

/-- The interval of an array is on, and nothing forbids a slice of it (R393). -/
def sliceDue (s : State) (c i : Nat) : Prop :=
  wbit (rget s .bst 0 0x110) 0 = true ∧ c < 10 ∧ i < bistCount c ∧ fld (rget s .bst 0 (0x140 + 4 * c)) 15 0 ≠ 0 ∧
  s.power.st < 2 ∧ s.power.moving = none ∧ s.chipReset = none ∧ s.bist.scanning = false ∧
  s.bist.slices.any (fun b => b.cls = c && b.inst = i) = false

/-- The slice that is scheduled next for an array. -/
def nextSlice (s : State) (c i : Nat) : BistSlice :=
  { cls := c, inst := i, region := mgetD s.bist.next (131072 * c + i) 0,
    part := mgetD s.bist.part (131072 * c + i) 0, len := 16 - mgetD s.bist.part (131072 * c + i) 0 }

theorem exec_bistSliceSchedule_due {s : State} {c i : Nat} (h : sliceDue s c i) :
    exec (.bistSliceSchedule c i) s =
      .next { s with bist := { s.bist with slices := s.bist.slices ++ [nextSlice s c i] } } := by
  obtain ⟨hon, hc, hi, hlen, hst, hmoving, hchip, hscan, hfree⟩ := h
  show execBistSliceSchedule c i s = _
  rw [execBistSliceSchedule, hon, hmoving, hchip, hscan, hfree, decide_eq_false (Nat.not_le.2 hc),
    decide_eq_false (Nat.not_le.2 hi), decide_eq_false hlen, decide_eq_false (Nat.not_le.2 hst)]
  rfl

theorem exec_bistSliceSchedule_not_due {s : State} {c i : Nat} (h : ¬ sliceDue s c i) :
    exec (.bistSliceSchedule c i) s = .next s := by
  show execBistSliceSchedule c i s = _
  unfold execBistSliceSchedule
  split
  · rfl
  · rename_i hcond
    exact absurd (by simpa [sliceDue, and_assoc] using hcond) h

/-! #### BIST_SLICE_START (R394) -/

/-- The state in which an admitted slice of an array runs, its region saved. -/
def sliceStarted (s : State) (c i g : Nat) (ecc : Ecc) (b : BistSlice) : State :=
  sliceSave (sliceBegin { s with bist := { s.bist with last := mput s.bist.last (131072 * c + i) s.us } } c i 1)
    (sliceCut s b) g ecc

/-- The entries of a TLB and walk cache that is tested are dropped. -/
def dropEntries (s : State) (c i : Nat) : State :=
  if c = 7 then modCluster s i (fun x => { x with tlb := [], wc := [] }) else s

theorem exec_bistSliceStart_admitted {s : State} {c i : Nat} {b : BistSlice} (h : sliceOf s c i 0 = some b)
    (ha : sliceAdmitted s b = true) (g : Nat) (ecc : Ecc) :
    exec (.bistSliceStart c i g ecc) s = .next (dropEntries (sliceStarted s c i g ecc b) c i) := by
  show execBistSliceStart c i g ecc s = _
  rw [execBistSliceStart, h]
  simp only [ha]
  rfl

theorem exec_bistSliceStart_refused {s : State} {c i : Nat}
    (h : ∀ b, sliceOf s c i 0 = some b → sliceAdmitted s b = false) (g : Nat) (ecc : Ecc) :
    exec (.bistSliceStart c i g ecc) s = .next s := by
  show execBistSliceStart c i g ecc s = _
  rw [execBistSliceStart]
  cases hb : sliceOf s c i 0 with
  | none => rfl
  | some b => simp [h b hb]

@[simp] theorem dropEntries_bist (s : State) (c i : Nat) : (dropEntries s c i).bist = s.bist := by
  unfold dropEntries; split <;> rfl

@[simp] theorem dropEntries_regs (s : State) (c i : Nat) : (dropEntries s c i).regs = s.regs := by
  unfold dropEntries; split <;> rfl

@[simp] theorem dropEntries_mem (s : State) (c i : Nat) : (dropEntries s c i).mem = s.mem := by
  unfold dropEntries; split <;> rfl

/-- A slice that starts runs with the length that the clock allows, and the time of the bank's test is noted. -/
theorem bistSliceStart_completes {s : State} {c i : Nat} {b : BistSlice} (h : sliceOf s c i 0 = some b)
    (ha : sliceAdmitted s b = true) (g : Nat) (ecc : Ecc) :
    Completes (.bistSliceStart c i g ecc) s (fun t =>
      (sliceOf t c i 1).isSome = true ∧ { b with len := min b.len (sliceSpan s c i), phase := 1 } ∈ t.bist.slices ∧
      mget t.bist.last (131072 * c + i) = some s.us ∧
      (c = 7 → (cluster t i).tlb = [] ∧ (cluster t i).wc = []) ∧
      (ecc = .uncorr → wbit (rget t .bst 0 0x20) eBistShadowEcc.bit = true) ∧
      (ecc = .none → t.regs = s.regs ∧ t.mem = s.mem)) := by
  obtain ⟨-, hc, hi, -⟩ := sliceOf_some h
  have hbist : (dropEntries (sliceStarted s c i g ecc b) c i).bist = (sliceBegin
      { s with bist := { s.bist with last := mput s.bist.last (131072 * c + i) s.us } } c i 1).bist := by
    rw [dropEntries_bist, sliceStarted, sliceSave_bist]
  have hmem : { b with len := min b.len (sliceSpan s c i), phase := 1 } ∈
      (dropEntries (sliceStarted s c i g ecc b) c i).bist.slices := by
    rw [hbist]
    exact sliceBegin_mem (s := { s with bist := { s.bist with last := mput s.bist.last (131072 * c + i) s.us } }) h 1
  refine ⟨_, exec_bistSliceStart_admitted h ha g ecc, sliceOf_isSome hmem hc hi rfl, hmem, ?_, ?_, ?_, ?_⟩
  · rw [hbist]
    exact mget_mput_self _ _ _
  · rintro rfl
    simp [dropEntries]
  · rintro rfl
    rw [rget_congr (dropEntries_regs _ _ _)]
    exact sliceSave_uncorr_sets _ _ _
  · rintro rfl
    exact ⟨dropEntries_regs _ _ _, dropEntries_mem _ _ _⟩

/-! #### BIST_SLICE_COMPLETE (R395) -/

/-- The state of a slice whose region is being restored: counted, and what the shadow buffer shows recorded. -/
def sliceRestored (s : State) (g : Nat) (ecc : Ecc) (b : BistSlice) : State :=
  match ecc with
  | .uncorr | .memUncorr _ => sliceSave (bump s .bst 0 0x114 1) b g .uncorr
  | _ => bump s .bst 0 0x114 1

theorem exec_bistSliceComplete_pass {s : State} {c i : Nat} {b : BistSlice} (h : sliceOf s c i 1 = some b) (g : Nat)
    (ecc : Ecc) :
    exec (.bistSliceComplete c i g true ecc) s = .next (bistNext (setPhase (sliceRestored s g ecc b) c i none) b) := by
  show execBistSliceComplete c i g true ecc s = _
  rw [execBistSliceComplete, h]
  cases ecc <;> rfl

theorem exec_bistSliceComplete_fail {s : State} {c i : Nat} {b : BistSlice} (h : sliceOf s c i 1 = some b) (g : Nat)
    (ecc : Ecc) :
    exec (.bistSliceComplete c i g false ecc) s =
      .next (setLastFail (bump (setPhase (sliceRestored s g ecc b) c i (some 2)) .bst 0 0x11C 1) b false) := by
  show execBistSliceComplete c i g false ecc s = _
  rw [execBistSliceComplete, h]
  cases ecc <;> rfl

theorem exec_bistSliceComplete_idle {s : State} {c i : Nat} (h : sliceOf s c i 1 = none) (g : Nat) (pass : Bool)
    (ecc : Ecc) : exec (.bistSliceComplete c i g pass ecc) s = .next s := by
  show execBistSliceComplete c i g pass ecc s = _
  rw [execBistSliceComplete, h]

@[simp] theorem sliceRestored_bist (s : State) (g : Nat) (ecc : Ecc) (b : BistSlice) :
    (sliceRestored s g ecc b).bist = s.bist := by
  unfold sliceRestored
  split
  · exact sliceSave_bist _ _ _ _
  · exact sliceSave_bist _ _ _ _
  · rfl

/-- A shadow buffer that loses the region is recorded when the region is restored. -/
theorem sliceRestored_uncorr_sets (s : State) (g : Nat) (b : BistSlice) :
    wbit (rget (sliceRestored s g .uncorr b) .bst 0 0x20) eBistShadowEcc.bit = true := sliceSave_uncorr_sets _ _ _

/-- The last failure, and its count, stand in registers of their own. -/
@[simp] theorem rget_setLastFail_errStatus (s : State) (b : BistSlice) (p : Bool) :
    rget (setLastFail s b p) .bst 0 0x20 = rget s .bst 0 0x20 := by
  unfold setLastFail
  dsimp only
  rw [rget_rset_off _ _ _ _ (by decide), rget_rset_off _ _ _ _ (by decide)]

/-- A slice that passes gives its region back, and its array goes on after it. -/
theorem bistSliceComplete_pass {s : State} {c i : Nat} {b : BistSlice} (h : sliceOf s c i 1 = some b) (g : Nat)
    (ecc : Ecc) :
    Completes (.bistSliceComplete c i g true ecc) s (fun t =>
      (∀ x ∈ t.bist.slices, ¬ (x.cls = c ∧ x.inst = i)) ∧
      mgetD t.bist.next (131072 * c + i) 0 = (if b.part + b.len < 16 then b.region
        else if b.region + 1 < bistRegions c then b.region + 1 else 0) ∧
      mgetD t.bist.part (131072 * c + i) 0 = (if b.part + b.len < 16 then b.part + b.len else 0) ∧
      (ecc = .uncorr → wbit (rget t .bst 0 0x20) eBistShadowEcc.bit = true) ∧ (ecc = .none → t.mem = s.mem)) := by
  obtain ⟨-, rfl, rfl, -⟩ := sliceOf_some h
  obtain ⟨hnext, hpart⟩ := bistNext_place (setPhase (sliceRestored s g ecc b) b.cls b.inst none) b
  refine ⟨_, exec_bistSliceComplete_pass h g ecc, ?_, hnext, hpart, ?_, ?_⟩
  · rw [bistNext_slices]
    exact setPhase_none _ _ _
  · rintro rfl
    rw [rget_congr (bistNext_regs _ _)]
    exact sliceRestored_uncorr_sets s g b
  · rintro rfl
    exact bistNext_mem _ _

/-- A slice that fails waits for its repeat. -/
theorem bistSliceComplete_fail {s : State} {c i : Nat} {b : BistSlice} (h : sliceOf s c i 1 = some b) (g : Nat)
    (ecc : Ecc) :
    Completes (.bistSliceComplete c i g false ecc) s (fun t =>
      (sliceOf t c i 2).isSome = true ∧
      (ecc = .uncorr → wbit (rget t .bst 0 0x20) eBistShadowEcc.bit = true) ∧ (ecc = .none → t.mem = s.mem)) := by
  have hr : sliceOf (sliceRestored s g ecc b) c i 1 = some b := by
    rw [← h, sliceOf, sliceOf, sliceRestored_bist]
  refine ⟨_, exec_bistSliceComplete_fail h g ecc, setPhase_some hr 2, ?_, ?_⟩
  · rintro rfl
    rw [rget_setLastFail_errStatus, bump, rget_rset_off _ _ _ _ (by decide)]
    exact sliceRestored_uncorr_sets s g b
  · rintro rfl
    rfl

/-! #### BIST_SLICE_RETRY (R395) -/

/-- The class's rule keeps memory and the recorded errors. -/
theorem bistRule_keepsErrs (s : State) (b : BistSlice) (rows : List Nat) : KeepsErrs s (bistRule s b rows) := by
  unfold bistRule
  split
  · refine .foldl (fun u r => ?_) _ _
    dsimp only
    split
    · exact stgRowPermanent_keepsErrs _ _ _ _ _
    · split
      · exact stgRowPermanent_keepsErrs _ _ _ _ _
      · exact .of_regs rfl rfl
  · split
    · exact .of_regs (corePending_mem _ _) (corePending_regs _ _)
    · dsimp only
      split <;> exact .of_regs rfl rfl

/-- The class's rule leaves the slices. -/
@[simp] theorem bistRule_slices (s : State) (b : BistSlice) (rows : List Nat) :
    (bistRule s b rows).bist.slices = s.bist.slices := by
  unfold bistRule
  split
  · refine congrArg Bist.slices (foldl_bist (fun u r => ?_) _ _)
    dsimp only
    split
    · exact stgRowPermanent_bist _ _ _ _ _
    · split
      · exact stgRowPermanent_bist _ _ _ _ _
      · rfl
  · split
    · rw [corePending_bist]
    · dsimp only
      split <;> rfl

/-- A region of an MMU, a replay buffer or a base die that fails is excluded. -/
theorem bistRule_excludes (s : State) {b : BistSlice} (rows : List Nat) (h : 7 ≤ b.cls) :
    (b.cls, b.inst, b.region) ∈ (bistRule s b rows).bist.excluded := by
  unfold bistRule
  rw [if_neg (by omega), if_neg (by omega)]
  dsimp only
  split <;> exact List.mem_cons_self

/-- The state of a slice whose repeat has run: counted, dropped, its array gone on. -/
def sliceRetried (s : State) (c i : Nat) (b : BistSlice) : State :=
  bistNext (setPhase (bump { s with bist := { s.bist with last := mput s.bist.last (131072 * c + i) s.us } } .bst 0 0x114 1)
    c i none) b

theorem sliceRetried_slices (s : State) (c i : Nat) (b : BistSlice) :
    ∀ x ∈ (sliceRetried s c i b).bist.slices, ¬ (x.cls = c ∧ x.inst = i) := by
  rw [sliceRetried, bistNext_slices]
  exact setPhase_none _ _ _

@[simp] theorem sliceRetried_mem (s : State) (c i : Nat) (b : BistSlice) : (sliceRetried s c i b).mem = s.mem :=
  bistNext_mem _ _

theorem exec_bistSliceRetry_pass {s : State} {c i : Nat} {b : BistSlice} (h : sliceOf s c i 2 = some b)
    (ha : sliceAdmitted s b = true) (rows : List Nat) :
    exec (.bistSliceRetry c i true rows) s =
      .next (recErr (setLastFail (sliceRetried s c i (sliceCut s b)) (sliceCut s b) false) eBistTransient 0 c 0 noCtag) := by
  show execBistSliceRetry c i true rows s = _
  rw [execBistSliceRetry, h]
  simp only [ha]
  rfl

theorem exec_bistSliceRetry_fail {s : State} {c i : Nat} {b : BistSlice} (h : sliceOf s c i 2 = some b)
    (ha : sliceAdmitted s b = true) (rows : List Nat) :
    exec (.bistSliceRetry c i false rows) s =
      .next (bistRule (recErr (setLastFail (bump (sliceRetried s c i (sliceCut s b)) .bst 0 0x11C 1) (sliceCut s b) true)
        eBistPermanent 0 c 0 noCtag) (sliceCut s b) rows) := by
  show execBistSliceRetry c i false rows s = _
  rw [execBistSliceRetry, h]
  simp only [ha]
  rfl

theorem exec_bistSliceRetry_refused {s : State} {c i : Nat}
    (h : ∀ b, sliceOf s c i 2 = some b → sliceAdmitted s b = false) (pass : Bool) (rows : List Nat) :
    exec (.bistSliceRetry c i pass rows) s = .next s := by
  show execBistSliceRetry c i pass rows s = _
  rw [execBistSliceRetry]
  cases hb : sliceOf s c i 2 with
  | none => rfl
  | some b => simp [h b hb]

/-- A repeat that passes: a transient failure. -/
theorem bistSliceRetry_pass {s : State} {c i : Nat} {b : BistSlice} (h : sliceOf s c i 2 = some b)
    (ha : sliceAdmitted s b = true) (rows : List Nat) :
    Completes (.bistSliceRetry c i true rows) s (fun t =>
      wbit (rget t .bst 0 0x20) eBistTransient.bit = true ∧
      (∀ x ∈ t.bist.slices, ¬ (x.cls = c ∧ x.inst = i)) ∧ t.mem = s.mem) := by
  refine ⟨_, exec_bistSliceRetry_pass h ha rows, recErr_sets _ eBistTransient 0 _ _ _ (by decide), ?_, ?_⟩
  · rw [recErr_bist, setLastFail_bist]
    exact sliceRetried_slices _ _ _ _
  · rw [recErr_mem, setLastFail_mem, sliceRetried_mem]

/-- A repeat that fails: a permanent failure, by the class's rule. -/
theorem bistSliceRetry_fail {s : State} {c i : Nat} {b : BistSlice} (h : sliceOf s c i 2 = some b)
    (ha : sliceAdmitted s b = true) (rows : List Nat) :
    Completes (.bistSliceRetry c i false rows) s (fun t =>
      wbit (rget t .bst 0 0x20) eBistPermanent.bit = true ∧
      (∀ x ∈ t.bist.slices, ¬ (x.cls = c ∧ x.inst = i)) ∧
      (7 ≤ c → (c, i, b.region) ∈ t.bist.excluded) ∧ t.mem = s.mem) := by
  obtain ⟨-, rfl, rfl, -⟩ := sliceOf_some h
  have hp := page_mod .bst 0
  refine ⟨_, exec_bistSliceRetry_fail h ha rows, ?_, ?_, ?_, ?_⟩
  · exact (bistRule_keepsErrs _ _ _).bits _ _ (by omega) (recErr_sets _ eBistPermanent 0 _ _ _ (by decide))
  · rw [bistRule_slices, recErr_bist, setLastFail_bist]
    exact sliceRetried_slices _ _ _ _
  · exact bistRule_excludes _ (b := sliceCut s b) rows
  · rw [(bistRule_keepsErrs _ _ _).mem, recErr_mem, setLastFail_mem]
    exact sliceRetried_mem _ _ _ _

/-! #### Direct BIST (R397) -/

/-- A page that serves the write takes the command. -/
theorem guardWrite_serves {s : State} {req : Req} {b : Block} {i : Nat} (h : Serves s req b i) (off : Nat)
    (f : State → State) : guardWrite s req b i off f = f s := by
  simp [guardWrite, h.inTime, h.isOpen, h.alive, h.lit]

/-- A command that is a write of a page turns away whom the page turns away. -/
theorem turnsAway_guardWrite {c : Instr} {req : Req} {b : Block} {i off : Nat} {f : State → State}
    (hc : ∀ s, exec c s = .next (guardWrite s req b i off f)) : TurnsAway c req b i off := by
  refine fun s => ⟨fun ha => ?_, fun ha ho => ?_, fun ha ho hd => ?_⟩
  · simp [hc, guardWrite, ha]
  · simp [hc, guardWrite, ha, ho]
  · have hdead : (pageRetired s b i || pageDark s b) = true := by simpa using hd
    simp [hc, guardWrite, ha, ho, hdead]

/-- BST_DIRECT_CMD on a page that takes it. -/
def directCmd (v : Word) (s : State) : State :=
  if s.bist.direct.isSome then s
  else if directRefused s (fld v 3 0) (fld v 31 12) then
    recErr (rset s .bst 0 0x12C 0xA) eDirectRefused 0 (fld v 3 0) 0 noCtag
  else rset { s with bist := { s.bist with direct := some (fld v 3 0, fld v 31 12) } } .bst 0 0x12C 1

theorem exec_bstDirectCmd (req : Req) (v : Word) (s : State) :
    exec (.bstDirectCmd req v) s = .next (guardWrite s req .bst 0 0x128 (directCmd v)) := rfl

theorem exec_bstDirectCmd_serves {s : State} {req : Req} (h : Serves s req .bst 0) (v : Word) :
    exec (.bstDirectCmd req v) s = .next (directCmd v s) := by
  rw [exec_bstDirectCmd, guardWrite_serves h]

/-- A zeroed range reads as zero. -/
theorem memGet_memZero_in (m : Memory) {a n c : Nat} (h1 : a ≤ c) (h2 : c < a + n) : memGet (memZero m a n) c = 0 := by
  unfold memGet memZero mgetD
  induction m with
  | nil => rfl
  | cons e t ih =>
    obtain ⟨k, v⟩ := e
    simp only [List.filter_cons]
    split_ifs with hk
    · have hne : k ≠ c := by
        simp only [Bool.or_eq_true, decide_eq_true_eq] at hk
        omega
      rw [mget, if_neg hne]
      exact ih
    · exact ih

@[simp] theorem directZero_bist (s : State) (c i : Nat) : (directZero s c i).bist = s.bist := by
  unfold directZero
  split <;> rfl

/-- Past classes 0 and 1 the block is no device memory. -/
theorem directZero_mem {c : Nat} (h : 2 ≤ c) (s : State) (i : Nat) : (directZero s c i).mem = s.mem := by
  unfold directZero
  split
  · omega
  · omega
  all_goals rfl

theorem exec_directBistComplete {s : State} {c i : Nat} (h : s.bist.direct = some (c, i)) (pass : Bool) :
    exec (.directBistComplete pass) s =
      .next (rset (directZero { s with bist := { s.bist with direct := none } } c i) .bst 0 0x12C
        (packFields [(1, 1), (2, b2n pass)])) := by
  show execDirectBistComplete pass s = _
  rw [execDirectBistComplete, h]

theorem exec_directBistComplete_idle {s : State} (h : s.bist.direct = none) (pass : Bool) :
    exec (.directBistComplete pass) s = .next s := by
  show execDirectBistComplete pass s = _
  rw [execDirectBistComplete, h]

/-- A direct BIST that ends shows its result and leaves its memory zeroed. -/
theorem directBistComplete_completes {s : State} {c i : Nat} (h : s.bist.direct = some (c, i)) (pass : Bool) :
    Completes (.directBistComplete pass) s (fun t =>
      t.bist.direct = none ∧ rget t .bst 0 0x12C = packFields [(1, 1), (2, b2n pass)] ∧
      (c = 0 → ∀ a, sliceDpa i ≤ a → a < sliceDpa i + 0x1800000 → memGet t.mem a = 0) ∧
      (c = 1 → ∀ a, lmDpa i ≤ a → a < lmDpa i + 0x100000 → memGet t.mem a = 0) ∧
      (2 ≤ c → t.mem = s.mem)) := by
  refine ⟨_, exec_directBistComplete h pass, ?_, rget_rset_self _ _ _ _ _, ?_, ?_, ?_⟩
  · rw [rset_bist, directZero_bist]
  · rintro rfl a
    exact memGet_memZero_in s.mem
  · rintro rfl a
    exact memGet_memZero_in s.mem
  · intro hc
    rw [rset_mem, directZero_mem hc]

/-! #### Scan (R398, R399) -/

/-- What clearing the package ends with: the keys are gone and the seed is locked, whatever is zeroed after. -/
structure KeysGone (t : State) : Prop where
  fabKeys : t.fabKeys = []
  keysErased : t.keysErased = true
  seedLocked : t.sec.seedLocked = true

theorem keysGone_eraseKeys (s : State) : KeysGone (eraseKeys s) := ⟨rfl, rfl, rfl⟩

theorem KeysGone.zeroRegion {s : State} (h : KeysGone s) (r : Nat) : KeysGone (zeroRegion s r) :=
  ⟨h.fabKeys, h.keysErased, h.seedLocked⟩

theorem KeysGone.zeroPackage {s : State} (h : KeysGone s) : KeysGone (zeroPackage s) := by
  unfold Machine.zeroPackage
  extract_lets s1
  have h1 : KeysGone (setDumpStatus s1 false false 0 0) := ⟨h.fabKeys, h.keysErased, h.seedLocked⟩
  exact List.foldlRecOn (List.range 8) Machine.zeroRegion h1 fun u hu r _ => hu.zeroRegion r

theorem keysGone_clearPackage (s : State) : KeysGone (clearPackage s) := (keysGone_eraseKeys _).zeroPackage

theorem exec_scanRequest_refused {s : State} (h : testPermitted s = false ∨ 2 ≤ s.power.st ∨ s.bist.scanning = true) :
    exec .scanRequest s = .next (recErr s eScanRefused 0 0 0 noCtag) := by
  have hr : (!testPermitted s || decide (2 ≤ s.power.st) || s.bist.scanning) = true := by
    simpa [or_assoc] using h
  show execScanRequest s = _
  rw [execScanRequest, if_pos hr]

theorem exec_scanRequest_taken {s : State} (hp : testPermitted s = true) (hst : s.power.st < 2)
    (hs : s.bist.scanning = false) :
    exec .scanRequest s =
      .next (rset { clearPackage s with bist := { (clearPackage s).bist with scanning := true, slices := [] } } .dbg 0 0x130
        (setBit (rget (clearPackage s) .dbg 0 0x130) 1 true)) := by
  have hr : ¬ (!testPermitted s || decide (2 ≤ s.power.st) || s.bist.scanning) = true := by simp [hp, hst, hs]
  show execScanRequest s = _
  rw [execScanRequest, if_neg hr]

/-- A scan that is taken clears the package's keys first. -/
theorem scanRequest_completes {s : State} (hp : testPermitted s = true) (hst : s.power.st < 2)
    (hs : s.bist.scanning = false) :
    Completes .scanRequest s (fun t =>
      t.bist.scanning = true ∧ t.bist.slices = [] ∧ t.fabKeys = [] ∧ t.keysErased = true ∧ t.sec.seedLocked = true) := by
  obtain ⟨hfab, herased, hlocked⟩ := keysGone_clearPackage s
  refine ⟨_, exec_scanRequest_taken hp hst hs, ?_⟩
  generalize clearPackage s = u at hfab herased hlocked ⊢
  exact ⟨rfl, rfl, hfab, herased, hlocked⟩

/-- Ending the grants leaves the test engine and memory. -/
theorem endGrants_frame (s : State) (mask : Nat) :
    (endGrants s mask).bist = s.bist ∧ (endGrants s mask).mem = s.mem := by
  unfold endGrants
  extract_lets s1
  have h1 : s1.bist = s.bist ∧ s1.mem = s.mem := by
    show (if mask % 256 = 0 then s else _ : State).bist = s.bist ∧ (if mask % 256 = 0 then s else _ : State).mem = s.mem
    split <;> exact ⟨rfl, rfl⟩
  clear_value s1
  refine List.foldlRecOn _ _ (motive := fun t : State => t.bist = s.bist ∧ t.mem = s.mem) h1 fun u hu p _ => ?_
  exact List.foldlRecOn (partClus _ p) _ (motive := fun t : State => t.bist = s.bist ∧ t.mem = s.mem) hu fun v hv c _ => hv

/-- The state in which the scan chains are open: the latch set and the D3 grant ended. -/
def scanOpened (s : State) : State := endGrants { s with bist := { s.bist with cleared := true, scanOpen := true } } 0xFF

theorem scanOpened_bist (s : State) : (scanOpened s).bist = { s.bist with cleared := true, scanOpen := true } :=
  (endGrants_frame { s with bist := { s.bist with cleared := true, scanOpen := true } } 0xFF).1

theorem scanOpened_mem (s : State) : (scanOpened s).mem = s.mem :=
  (endGrants_frame { s with bist := { s.bist with cleared := true, scanOpen := true } } 0xFF).2

theorem exec_scanOpen_taken {s : State} (hs : s.bist.scanning = true) (hc : s.bist.cleared = false) :
    exec .scanOpen s = .next (powerCycleReq (rset (scanOpened s) .dbg 0 0x130 0) 4) := by
  show execScanOpen s = _
  rw [execScanOpen, hs, hc]
  rfl

theorem exec_scanOpen_idle {s : State} (h : s.bist.scanning = false ∨ s.bist.cleared = true) :
    exec .scanOpen s = .next s := by
  have hr : (!s.bist.scanning || s.bist.cleared) = true := by simpa using h
  show execScanOpen s = _
  rw [execScanOpen, if_pos hr]

theorem scanOpen_completes {s : State} (hs : s.bist.scanning = true) (hc : s.bist.cleared = false) :
    Completes .scanOpen s (fun t => t.bist.scanOpen = true ∧ t.bist.cleared = true ∧ t.mem = s.mem) := by
  have hbist : (powerCycleReq (rset (scanOpened s) .dbg 0 0x130 0) 4).bist =
      { s.bist with cleared := true, scanOpen := true } := by
    rw [(powerCycleReq_rec _ 4).bist, rset_bist, scanOpened_bist]
  refine ⟨_, exec_scanOpen_taken hs hc, by rw [hbist], by rw [hbist], ?_⟩
  rw [(powerCycleReq_rec _ 4).mem, rset_mem, scanOpened_mem]

end Sys2Proof.Machine

namespace Sys2Proof
open Machine

/-- Settles O43: one lemma for each command of the test engine and each outcome, put together. -/
theorem selfTest : Obligations.SelfTest := by
  unfold Obligations.SelfTest
  refine ⟨fun s c i => ⟨fun hdue => ?_, fun hdue => ?_⟩, fun s c i g ecc => ⟨?_, ?_, ?_, ?_⟩,
    fun s c i pass rows => ⟨?_, ?_⟩, fun s req v hserves => ?_, fun req v => turnsAway_guardWrite (exec_bstDirectCmd req v),
    fun s pass => ⟨fun c i h => directBistComplete_completes h pass, fun h => exec_directBistComplete_idle h pass⟩,
    fun s => ⟨exec_scanRequest_refused, scanRequest_completes, scanOpen_completes, exec_scanOpen_idle⟩⟩
  · exact ⟨_, exec_bistSliceSchedule_due hdue, rfl, rfl⟩
  · exact exec_bistSliceSchedule_not_due hdue
  · exact fun b h ha => bistSliceStart_completes h ha g ecc
  · exact fun h => exec_bistSliceStart_refused h g ecc
  · exact fun b h => ⟨bistSliceComplete_pass h g ecc, bistSliceComplete_fail h g ecc⟩
  · exact fun h pass => exec_bistSliceComplete_idle h g pass ecc
  · intro b h ha
    cases pass
    · obtain ⟨t, ht, hperm, hslices, hexcl, hmem⟩ := bistSliceRetry_fail h ha rows
      exact ⟨t, ht, hperm, hslices, fun _ => hexcl, fun _ => hmem⟩
    · obtain ⟨t, ht, htrans, hslices, hmem⟩ := bistSliceRetry_pass h ha rows
      exact ⟨t, ht, htrans, hslices, fun hne => absurd hne (by decide), fun _ => hmem⟩
  · exact fun h => exec_bistSliceRetry_refused h pass rows
  · rw [exec_bstDirectCmd_serves hserves]
    refine ⟨fun hnone hr => ?_, fun hnone hr => ?_, fun hsome => ?_⟩
    · simp [directCmd, hnone, hr]
    · refine ⟨_, exec_bstDirectCmd_serves hserves v, ?_⟩
      rw [directCmd, hnone, hr]
      exact ⟨rfl, rget_rset_self _ _ _ _ _, rfl⟩
    · simp [directCmd, hsome]

end Sys2Proof
end

/-! ### Reset and refused accesses (R51, R54, R55, R287, R289)

What the registers read after reset, and what an access meets that its page does not open, that is narrower than a register, or that
the package does not answer. -/

section
namespace Sys2Proof.Machine

/-! #### Reset -/

/-- Nothing is stored at reset, so a register of a page reads its reset value. -/
theorem rget_reset {b : Block} {i off : Nat} (hi : i < blockCount b) (ho : off < 0x1000) :
    rget State.reset b i off = regReset b i off := by
  simp [rget, regGet, State.reset, pageOf_page b i off hi ho]

/-- A header register takes its reset value from its row, on every page; ID, VERSION, the CAPS and ERR_SEVERITY have their own (R51). -/
theorem regReset_header (b : Block) (i : Nat) {off : Nat} (hr : (headerRows.find? (fun r => rowHas r off)).isSome)
    (hoff : off ∉ [0, 4, 8, 0xC, 0x28]) : regReset b i off = (headerRows.find? (fun r => rowHas r off)).elim 0 (·.reset) := by
  simp only [List.mem_cons, List.not_mem_nil, or_false, not_or] at hoff
  obtain ⟨h0, h4, h8, hC, h28⟩ := hoff
  obtain ⟨r, hr⟩ := Option.isSome_iff_exists.1 hr
  simp [regReset, h0, h4, h8, hC, h28, regRow, List.find?_append, hr]

/-- Reset meets the invariant: nothing is listed, and the package is one partition. -/
theorem inv_reset : Inv State.reset where
  mem := rfl
  poison := rfl
  regs := rfl
  cores := rfl
  clusters := rfl
  split := by decide

/-- Settles O1: no register is stored at reset, so each reads its reset value, and a header register that of its row. -/
theorem resetState : Obligations.ResetState := by
  unfold Obligations.ResetState
  refine ⟨inv_reset, rfl, rfl, fun b i off hi ho => rget_reset hi ho, fun b i hi _ => ?_⟩
  have header : ∀ off, (headerRows.find? (fun r => rowHas r off)).isSome → off ∉ [0, 4, 8, 0xC, 0x28] → off < 0x1000 →
      rget State.reset b i off = (headerRows.find? (fun r => rowHas r off)).elim 0 (·.reset) :=
    fun off hr hoff ho => (rget_reset hi ho).trans (regReset_header b i hr hoff)
  exact ⟨header 0x10 rfl (by decide) (by decide), header 0x20 rfl (by decide) (by decide), header 0x30 rfl (by decide) (by decide),
    header 0x38 rfl (by decide) (by decide), header 0x44 rfl (by decide) (by decide), header 0x50 rfl (by decide) (by decide)⟩

/-! #### Accesses that the page does not open (R54) -/

/-- The page of an address in it, as its number. -/
theorem page_number (b : Block) (i : Nat) {off : Nat} (h : off < 0x1000) : (page b i + off) / 0x1000 = page b i / 0x1000 := by
  have hp := page_mod b i
  omega

/-- A write that the page does not open is denied. -/
theorem regWrite_denied {s : State} {req : Req} {b : Block} {i off : Nat} (v : Word) (hi : i < blockCount b) (hb : b ≠ .dir)
    (ho : off < 0x1000) (hw : writeOpen s req (page b i + off) = false) :
    regWrite s req (page b i + off) v = denied s req (page b i + off) := by
  simp [regWrite, pageOf_page b i off hi ho, hb, hw]

/-- A read that the page does not open is denied, and gives 0. -/
theorem regRead_denied {s : State} {req : Req} {b : Block} {i off : Nat} (hi : i < blockCount b) (ho : off < 0x1000)
    (hr : readOpen s req (page b i + off) = false) :
    regRead s req (page b i + off) = (denied s req (page b i + off), 0) := by
  simp [regRead, pageOf_page b i off hi ho, hr]

/-! #### Accesses narrower than a register (R55) -/

/-- The register that contains a byte of a page. -/
theorem page_register (b : Block) (i off : Nat) : (page b i + off) / 4 * 4 = page b i + off / 4 * 4 := by
  have hp := page_mod b i
  omega

/-- An access of one or two bytes is never misaligned. -/
theorem misaligned_narrow (a : Nat) {size : Nat} (h : size < 4) : misaligned a size = false := by
  have h4 : ¬ 4 ≤ size := by omega
  have h8 : ¬ 8 ≤ size := by omega
  simp [misaligned, h4, h8]

/-- A narrow read that the page does not open is denied, and gives 0. -/
theorem busRead_narrow_denied {s : State} {req : Req} {b : Block} {i off size : Nat} (hi : i < blockCount b) (ho : off < 0x1000)
    (ha : answered s req = true) (hsize : size < 4) (hr : readOpen s req ((page b i + off) / 4 * 4) = false) :
    busRead s req (page b i + off) size =
      emit (denied s req (page b i + off)) (.readData req (page b i + off) 0) := by
  have ho' : off / 4 * 4 < 0x1000 := by omega
  have hnum : (page b i + off / 4 * 4) / 0x1000 = (page b i + off) / 0x1000 :=
    (page_number b i ho').trans (page_number b i ho).symm
  have hdenied : denied s req (page b i + off / 4 * 4) = denied s req (page b i + off) := by
    unfold denied
    rw [hnum]
  rw [page_register] at hr
  have h8 : ¬ 8 ≤ size := by omega
  simp [busRead, ha, misaligned_narrow _ hsize, h8, page_register, regRead_denied hi ho' hr, hdenied, bits, wd]

/-- A narrow write has no effect beyond its record, where the page does not deny it. -/
theorem busWrite_narrow {s : State} {req : Req} {a size : Nat} (v : BitVec 64) (ha : answered s req = true) (hsize : size < 4)
    (hopen : ∀ b i off, pageOf a = some (b, i, off) → b = .dir ∨ writeOpen s req a = true) :
    busWrite s req a size v = badSize s req a := by
  have h4 : ¬ 4 ≤ size := by omega
  have h8 : ¬ 8 ≤ size := by omega
  simp only [busWrite, ha, misaligned_narrow _ hsize, h4, h8, if_false, Bool.not_true, Bool.false_eq_true]
  cases hp : pageOf a with
  | none => rfl
  | some p =>
    obtain ⟨b, i, off⟩ := p
    rcases hopen b i off hp with hb | hw
    · simp [hb]
    · simp [hw]

/-- A size of one or two bytes is narrower than a register. -/
theorem narrow_of_mem {size : Nat} (h : size ∈ [1, 2]) : size < 4 := by
  simp only [List.mem_cons, List.not_mem_nil, or_false] at h
  omega

/-! #### Accesses of eight bytes (R55) -/

/-- An aligned write of eight bytes is two register writes, the lower address first. -/
theorem busWrite_double {s : State} {req : Req} {a : Nat} (v : BitVec 64) (ha : answered s req = true) (h : a % 8 = 0) :
    busWrite s req a 8 v =
      regWrite (regWrite s req a (v.setWidth 32)) req (a + 4) ((v >>> 32).setWidth 32) := by
  simp [busWrite, ha, misaligned, h]

/-- An aligned write of four bytes anywhere is one register write. -/
theorem busWrite_single {s : State} {req : Req} {a : Nat} (v : BitVec 64) (ha : answered s req = true) (h : a % 4 = 0) :
    busWrite s req a 4 v = regWrite s req a (v.setWidth 32) := by
  simp [busWrite, ha, misaligned, h]

/-- Settles O7: a page that is not open denies, a narrow write is recorded, eight bytes are two writes, and an access that the
package does not answer does nothing. -/
theorem refusedAccess : Obligations.RefusedAccess := by
  unfold Obligations.RefusedAccess
  refine ⟨fun s req b i off v hi hb ho ha => ⟨?_, ?_, ?_, ?_⟩, ?_, ?_, ?_⟩
  · intro hal hw
    rw [exec_registerWrite_word b i v ha hal, regWrite_denied _ hi hb ho hw]
    rfl
  · intro hal hr
    rw [exec_rcRegisterRead, busRead_word b i ha hal, regRead_denied hi ho hr]
    rfl
  · intro hr size hsize
    rw [exec_rcRegisterRead, busRead_narrow_denied hi ho ha (narrow_of_mem hsize) hr]
    rfl
  · intro hw size hsize
    rw [exec_registerWrite, busWrite_narrow v ha (narrow_of_mem hsize) fun _ _ _ _ => .inr hw]
    rfl
  · intro s req a size v _ ha hsize hdir
    rw [exec_registerWrite, busWrite_narrow v ha (narrow_of_mem hsize) fun b i off hp => .inl (hdir b i off hp)]
    rfl
  · intro s req a v ha hal
    have hlow : ((v.setWidth 32).setWidth 64).setWidth 32 = v.setWidth 32 := by simp
    refine ⟨_, exec_registerWrite req a 4 _ s, fun hu => ⟨_, exec_registerWrite req (a + 4) 4 _ _, ?_⟩⟩
    rw [busWrite_single _ ha (by omega), hlow] at hu ⊢
    rw [exec_registerWrite, busWrite_double v ha hal, busWrite_single _ hu (by omega)]
  · intro s req a size v ha
    rw [exec_registerWrite, exec_rcRegisterRead]
    simp [busWrite, busRead, ha]

end Sys2Proof.Machine
end

/-! ### What recording an error writes (R62, R63)

An error that is recorded may bring others: a full event queue is recorded on the CAR page, a message without a way on the PCE page,
an escalation on the HNG page. `KeptByRecords` says which properties of a state all of these keep, and one induction over
the records gives every frame that the statements need. -/

section
namespace Sys2Proof.Machine

/-! #### Bits and fields of a register -/

theorem testBit_fld (w : Word) (hi lo k : Nat) : (fld w hi lo).testBit k = (decide (k < hi - lo + 1) && wbit w (lo + k)) := by
  simp [fld, bits, Nat.testBit_mod_two_pow, Nat.testBit_shiftRight, wbit, BitVec.getLsbD]

/-- A field written into a register: its bits are those of the value, the others stay. -/
theorem wbit_setFld (w : Word) {hi lo v k : Nat} (hk : k < 32) :
    wbit (setFld w hi lo v) k = if lo ≤ k ∧ k - lo < hi - lo + 1 then v.testBit (k - lo) else wbit w k := by
  simp only [wbit, setFld, BitVec.getLsbD_or, BitVec.getLsbD_and, BitVec.getLsbD_not, BitVec.getLsbD_ofNat,
    Nat.testBit_shiftLeft, Nat.testBit_two_pow_sub_one, hk, decide_true, Bool.true_and]
  by_cases h1 : lo ≤ k <;> by_cases h2 : k - lo < hi - lo + 1 <;> simp [h1, h2]

theorem wbit_setBit (w : Word) {i k : Nat} (b : Bool) (hk : k < 32) :
    wbit (setBit w i b) k = if k = i then b else wbit w k := by
  rw [setBit, wbit_setFld w hk]
  by_cases h : k = i
  · subst h
    cases b <;> simp [b2n]
  · have hne : ¬ (i ≤ k ∧ k - i < i - i + 1) := by omega
    rw [if_neg hne, if_neg h]

@[simp] theorem wbit_setBit_self (w : Word) {i : Nat} (b : Bool) (hi : i < 32) : wbit (setBit w i b) i = b := by
  simp [wbit_setBit w b hi]

theorem wbit_setBit_ne (w : Word) {i k : Nat} (b : Bool) (hk : k < 32) (h : k ≠ i) : wbit (setBit w i b) k = wbit w k := by
  simp [wbit_setBit w b hk, h]

/-- A field reads back as it was written, cut to its width. -/
theorem fld_setFld (w : Word) {hi lo : Nat} (v : Nat) (hlo : lo ≤ hi) (hhi : hi < 32) :
    fld (setFld w hi lo v) hi lo = v % 2 ^ (hi - lo + 1) := by
  apply Nat.eq_of_testBit_eq
  intro k
  rw [testBit_fld, Nat.testBit_mod_two_pow]
  by_cases h : k < hi - lo + 1
  · rw [wbit_setFld w (by omega), if_pos (by omega), Nat.add_sub_cancel_left]
  · simp [h]

/-- A bit outside a field leaves the field. -/
theorem fld_setBit (w : Word) {hi lo i : Nat} (b : Bool) (hlo : lo ≤ hi) (hhi : hi < 32) (hi' : hi < i) :
    fld (setBit w i b) hi lo = fld w hi lo := by
  apply Nat.eq_of_testBit_eq
  intro k
  simp only [testBit_fld]
  by_cases h : k < hi - lo + 1
  · rw [wbit_setBit_ne w b (by omega) (by omega)]
  · simp [h]

/-- ERR_FIRST of a record has VALID set. -/
theorem errFirstWord_valid (k : Nat) (sev inj : Bool) (sub det : Nat) : wbit (errFirstWord k sev inj sub det) 31 = true := by
  simp [errFirstWord, packFields, wbit, wd]

/-! #### Setting a status bit leaves the mask and the severity -/

theorem errMask_regSet_status (s : State) (pg : Nat) (v : Word) :
    regGet (regSet s (pg + 0x20) v) (pg + 0x24) = regGet s (pg + 0x24) :=
  regGet_regSet_ne _ _ (by omega)

theorem errSeverity_regSet_status (s : State) (pg : Nat) (v : Word) :
    regGet (regSet s (pg + 0x20) v) (pg + 0x28) = regGet s (pg + 0x28) :=
  regGet_regSet_ne _ _ (by omega)

/-! #### What records keep -/

/-- A property that recording an error on a page of `pages` keeps, with the errors that the record brings. -/
structure KeptByRecords (pages : Nat → Prop) (P : State → Prop) : Prop where
  status : ∀ s pg k, pages pg → P s → P (regSet s (pg + 0x20) (regGet s (pg + 0x20) ||| bitw k))
  first : ∀ s pg w c, pages pg → P s → P (noteFirst s pg w c)
  queued : ∀ s e, P s → P (queueEvent s e)
  overflow : ∀ s b, P s → P { s with evOverflow := b }
  sent : ∀ s o, P s → P (emit s o)
  held : ∀ s l, P s → P { s with heldInts := l }
  car : pages (page .car 0)
  pce : pages (page .pce 0)

/-- The state in which an unmasked error has been noted: ERR_STATUS, then ERR_FIRST with ERR_CTAG or ERR_COUNT (R62). -/
def errNoted (s : State) (pg k : Nat) (inj : Bool) (sub det : Nat) (ctag : Word) : State :=
  noteFirst (regSet s (pg + 0x20) (regGet s (pg + 0x20) ||| bitw k)) pg
    (errFirstWord k (wbit (regGet s (pg + 0x28)) k) inj sub det) ctag

section
variable {pages : Nat → Prop} {P : State → Prop} (h : KeptByRecords pages P)
include h

theorem KeptByRecords.msixOr {s : State} (f v : Nat) {bad : State → State} (hb : ∀ x, P x → P (bad x)) (hs : P s) :
    P (msixOr s f v bad) := by
  unfold Machine.msixOr
  split
  · exact h.sent _ _ hs
  · exact hb s hs

theorem KeptByRecords.intMessage {s : State} (pg : Nat) {bad : State → State} (hb : ∀ x, P x → P (bad x)) (hs : P s) :
    P (intMessage s pg bad) := by
  unfold Machine.intMessage
  dsimp only
  split
  · exact h.msixOr _ _ hb hs
  · split
    · exact h.sent _ _ hs
    · split
      · exact h.msixOr _ _ hb (h.sent _ _ hs)
      · split
        · exact hb s hs
        · split
          · exact h.held _ _ hs
          · split
            · exact h.msixOr _ _ hb hs
            · exact hb s hs

/-- After the note, a record queues its event and sends the page's message, each with the error that it may bring. -/
theorem KeptByRecords.recordOn_succ {n : Nat}
    (hn : ∀ u pg k ev inj sub det c, pages pg → P u → P (recordOn n u pg k ev inj sub det c))
    {s : State} {pg k : Nat} (ev inj : Bool) (sub det : Nat) (c : Word) (hm : wbit (regGet s (pg + 0x24)) k = false)
    (hs : P (errNoted s pg k inj sub det c)) : P (recordOn (n + 1) s pg k ev inj sub det c) := by
  have sends : ∀ u, P u → ∀ b : Bool, P (if b then Machine.intMessage u pg (fun x =>
      recordOn n (emit x (.carillonInt pg)) (page .pce 0) eIntRouteBad.bit false false 0 (pg / 4096) 0xFFFFFFFF) else u) := by
    intro u hu b
    cases b
    · exact hu
    · exact h.intMessage pg (fun x hx => hn _ _ _ _ _ _ _ _ h.pce (h.sent _ _ hx)) hu
  unfold recordOn
  dsimp only
  rw [errMask_regSet_status, hm, if_neg (by decide), errSeverity_regSet_status]
  apply sends
  split
  · split
    · exact hn _ _ _ _ _ _ _ _ h.car (h.overflow _ _ (h.queued _ _ hs))
    · exact h.queued _ _ hs
  · exact hs

/-- Recording on a page of `pages` keeps the property, whatever errors it brings. -/
theorem KeptByRecords.recordOn (n : Nat) {s : State} {pg : Nat} (k : Nat) (ev inj : Bool) (sub det : Nat) (c : Word)
    (hpg : pages pg) (hs : P s) : P (recordOn n s pg k ev inj sub det c) := by
  induction n generalizing s pg k ev inj sub det c with
  | zero => exact hs
  | succ n ih =>
    cases hm : wbit (regGet s (pg + 0x24)) k with
    | false =>
      exact h.recordOn_succ (fun u pg k ev inj sub det c hpg hu => ih k ev inj sub det c hpg hu) ev inj sub det c hm
        (h.first _ _ _ _ hpg (h.status _ _ _ hpg hs))
    | true =>
      unfold Machine.recordOn
      dsimp only
      rw [errMask_regSet_status, hm, if_pos rfl]
      exact h.status _ _ _ hpg hs

/-- An unmasked record keeps on any page what holds once the error is noted. -/
theorem KeptByRecords.recordOn_noted (n : Nat) {s : State} {pg k : Nat} (ev inj : Bool) (sub det : Nat) (c : Word)
    (hm : wbit (regGet s (pg + 0x24)) k = false) (hs : P (errNoted s pg k inj sub det c)) :
    P (Machine.recordOn (n + 1) s pg k ev inj sub det c) :=
  h.recordOn_succ (fun _ _ k ev inj sub det c hpg hu => h.recordOn n k ev inj sub det c hpg hu) ev inj sub det c hm hs

/-- The page's message again (R67). -/
theorem KeptByRecords.sendInt {s : State} (pg : Nat) (hs : P s) : P (sendInt s pg) :=
  h.intMessage pg (fun _ hx => h.recordOn 3 _ _ _ _ _ _ h.pce (h.sent _ _ hx)) hs

/-- Escalation keeps what its note and its request of a reset keep (R472). -/
theorem KeptByRecords.escalateUnit {s : State} (hhng : pages (page .hng 0))
    (hchip : ∀ s cause e pg, P s → P (requestChip s cause e pg))
    (hpart : ∀ s p cause e x pg, P s → P (requestPart s p cause e x pg))
    (heng : ∀ s n e cause, P s → P (requestEng s n e cause)) (e : ErrCode) (i : Nat) (hs : P s) : P (escalateUnit s e i) := by
  have hnote : ∀ p, P (Machine.recordOn 4 s (page .hng 0) eRecoveryEscalated.bit true false p (blockCode e.blk) 0xFFFFFFFF) :=
    fun p => h.recordOn 4 _ _ _ _ _ _ hhng hs
  unfold Machine.escalateUnit
  dsimp only
  split
  · exact hs
  · split
    · exact hchip _ _ _ _ (hnote _)
    · split
      · split
        · exact hpart _ _ _ _ _ _ (hnote _)
        · split
          · exact heng _ _ _ _ (hnote _)
          · exact hs
      · exact hs

end

/-- A masked error sets its ERR_STATUS bit and nothing else (R62). -/
theorem recordOn_masked (n : Nat) {s : State} {pg k : Nat} (ev inj : Bool) (sub det : Nat) (c : Word)
    (hm : wbit (regGet s (pg + 0x24)) k = true) :
    recordOn (n + 1) s pg k ev inj sub det c = regSet s (pg + 0x20) (regGet s (pg + 0x20) ||| bitw k) := by
  unfold recordOn
  dsimp only
  rw [errMask_regSet_status, hm, if_pos rfl]

/-! #### ERR_FIRST and ERR_CTAG of a page whose VALID is set stay -/

/-- ERR_FIRST and ERR_CTAG of a page hold the given words. -/
def ErrFirstIs (pg : Nat) (w c : Word) (s : State) : Prop := regGet s (pg + 0x30) = w ∧ regGet s (pg + 0x38) = c

theorem ErrFirstIs.congr {pg : Nat} {w c : Word} {s t : State} (hs : ErrFirstIs pg w c s)
    (h0 : regGet t (pg + 0x30) = regGet s (pg + 0x30)) (h8 : regGet t (pg + 0x38) = regGet s (pg + 0x38)) :
    ErrFirstIs pg w c t :=
  ⟨h0.trans hs.1, h8.trans hs.2⟩

/-- With VALID set, an error is counted. -/
theorem noteFirst_valid {s : State} {pg : Nat} (w c : Word) (hv : wbit (regGet s (pg + 0x30)) 31 = true) :
    noteFirst s pg w c = regSet s (pg + 0x34) (if fld (regGet s (pg + 0x34)) 15 0 = 0xFFFF then setBit (regGet s (pg + 0x34)) 31 true
      else setFld (regGet s (pg + 0x34)) 15 0 (fld (regGet s (pg + 0x34)) 15 0 + 1)) := by
  simp [noteFirst, hv]

/-- With VALID clear, an error is the first. -/
theorem noteFirst_free {s : State} {pg : Nat} (w c : Word) (hv : wbit (regGet s (pg + 0x30)) 31 = false) :
    noteFirst s pg w c = regSet (regSet s (pg + 0x30) w) (pg + 0x38) c := by
  simp [noteFirst, hv]

theorem ErrFirstIs.noteFirst {pg q : Nat} {w c : Word} {s : State} (hv : wbit w 31 = true) (hpg : pg % 0x1000 = 0)
    (hq : q % 0x1000 = 0) (hs : ErrFirstIs pg w c s) (w' c' : Word) : ErrFirstIs pg w c (noteFirst s q w' c') := by
  by_cases hsame : q = pg
  · subst hsame
    rw [noteFirst_valid w' c' (by rw [hs.1]; exact hv)]
    exact hs.congr (regGet_regSet_ne _ _ (by omega)) (regGet_regSet_ne _ _ (by omega))
  · cases hv' : wbit (regGet s (q + 0x30)) 31 with
    | true =>
      rw [noteFirst_valid w' c' hv']
      exact hs.congr (regGet_regSet_ne _ _ (by omega)) (regGet_regSet_ne _ _ (by omega))
    | false =>
      rw [noteFirst_free w' c' hv']
      exact hs.congr ((regGet_regSet_ne _ _ (by omega)).trans (regGet_regSet_ne _ _ (by omega)))
        ((regGet_regSet_ne _ _ (by omega)).trans (regGet_regSet_ne _ _ (by omega)))

/-- The first record of a page stays until VALID is cleared, whatever is recorded on any page (R62). -/
theorem errFirstIs_kept {pg : Nat} {w c : Word} (hv : wbit w 31 = true) (hpg : pg % 0x1000 = 0) :
    KeptByRecords (fun q => q % 0x1000 = 0) (ErrFirstIs pg w c) where
  status s q k hq hs := hs.congr (regGet_regSet_ne _ _ (by omega)) (regGet_regSet_ne _ _ (by omega))
  first s q w' c' hq hs := hs.noteFirst hv hpg hq w' c'
  queued s e hs := by
    have hcar := page_mod .car 0
    exact hs.congr (regGet_queueEvent _ _ (by omega)) (regGet_queueEvent _ _ (by omega))
  overflow s b hs := hs
  sent s o hs := hs
  held s l hs := hs
  car := page_mod .car 0
  pce := page_mod .pce 0

theorem errFirstIs_errNoted_valid {s : State} {pg : Nat} (k : Nat) (inj : Bool) (sub det : Nat) (c : Word)
    (hv : wbit (regGet s (pg + 0x30)) 31 = true) (hpg : pg % 0x1000 = 0) :
    ErrFirstIs pg (regGet s (pg + 0x30)) (regGet s (pg + 0x38)) (errNoted s pg k inj sub det c) :=
  ErrFirstIs.noteFirst hv hpg hpg ⟨regGet_regSet_ne _ _ (by omega), regGet_regSet_ne _ _ (by omega)⟩ _ _

theorem errFirstIs_errNoted_free {s : State} {pg : Nat} (k : Nat) (inj : Bool) (sub det : Nat) (c : Word)
    (hv : wbit (regGet s (pg + 0x30)) 31 = false) :
    ErrFirstIs pg (errFirstWord k (wbit (regGet s (pg + 0x28)) k) inj sub det) c (errNoted s pg k inj sub det c) := by
  have hv' : ∀ v, wbit (regGet (regSet s (pg + 0x20) v) (pg + 0x30)) 31 = false := fun v => by
    rwa [regGet_regSet_ne _ _ (by omega)]
  rw [errNoted, noteFirst_free _ _ (hv' _)]
  exact ⟨(regGet_regSet_ne _ _ (by omega)).trans (regGet_regSet_self _ _ _), regGet_regSet_self _ _ _⟩

/-- An unmasked error with VALID clear writes ERR_FIRST and ERR_CTAG (R62). -/
theorem recordOn_first (n : Nat) {s : State} {pg k : Nat} (ev inj : Bool) (sub det : Nat) (c : Word) (hpg : pg % 0x1000 = 0)
    (hm : wbit (regGet s (pg + 0x24)) k = false) (hv : wbit (regGet s (pg + 0x30)) 31 = false) :
    ErrFirstIs pg (errFirstWord k (wbit (regGet s (pg + 0x28)) k) inj sub det) c (recordOn (n + 1) s pg k ev inj sub det c) :=
  (errFirstIs_kept (errFirstWord_valid _ _ _ _ _) hpg).recordOn_noted n ev inj sub det c hm
    (errFirstIs_errNoted_free k inj sub det c hv)

/-- An unmasked error with VALID set leaves ERR_FIRST and ERR_CTAG (R62). -/
theorem recordOn_again (n : Nat) {s : State} {pg k : Nat} (ev inj : Bool) (sub det : Nat) (c : Word) (hpg : pg % 0x1000 = 0)
    (hm : wbit (regGet s (pg + 0x24)) k = false) (hv : wbit (regGet s (pg + 0x30)) 31 = true) :
    ErrFirstIs pg (regGet s (pg + 0x30)) (regGet s (pg + 0x38)) (recordOn (n + 1) s pg k ev inj sub det c) :=
  (errFirstIs_kept hv hpg).recordOn_noted n ev inj sub det c hm (errFirstIs_errNoted_valid k inj sub det c hv hpg)

/-! #### The registers of a page on which no brought error is recorded -/

/-- A page of another type of block than `b`. -/
def OtherPage (b : Block) (pg : Nat) : Prop := ∃ c j, b ≠ c ∧ j < blockCount c ∧ pg = page c j

/-- A register is apart from the registers of the pages of other blocks. -/
theorem OtherPage.apart {b : Block} {pg : Nat} (h : OtherPage b pg) {i off o : Nat} (hi : i < blockCount b) (ho : off < 0x1000)
    (hp : o < 0x1000) : page b i + off ≠ pg + o := by
  obtain ⟨c, j, hbc, hj, rfl⟩ := h
  exact fun he => hbc (page_inj hi hj ho hp he).1

/-- A register stays, whatever is recorded on the pages of other blocks. -/
theorem register_kept {b : Block} {i off : Nat} (w : Word) (hi : i < blockCount b) (ho : off < 0x1000) (hcar : b ≠ .car)
    (hpce : b ≠ .pce) : KeptByRecords (OtherPage b) (fun s => rget s b i off = w) where
  status s q k hq hs := (regGet_regSet_ne _ _ (hq.apart hi ho (by decide))).trans hs
  first s q w' c' hq hs := by
    have hne : ∀ o < 0x1000, page b i + off ≠ q + o := fun o hp => hq.apart hi ho hp
    unfold noteFirst
    dsimp only
    split
    · exact (regGet_regSet_ne _ _ (hne _ (by decide))).trans hs
    · exact (regGet_regSet_ne _ _ (hne _ (by decide))).trans ((regGet_regSet_ne _ _ (hne _ (by decide))).trans hs)
  queued s e hs := (regGet_queueEvent s e (OtherPage.apart ⟨.car, 0, hcar, by decide, rfl⟩ hi ho (by decide))).trans hs
  overflow s b hs := hs
  sent s o hs := hs
  held s l hs := hs
  car := ⟨.car, 0, hcar, by decide, rfl⟩
  pce := ⟨.pce, 0, hpce, by decide, rfl⟩

/-- No failure of the hardware is recorded on the pages on which other errors are brought. -/
theorem hardwareCodes_blk : ∀ e ∈ hardwareCodes, e.blk ≠ .car ∧ e.blk ≠ .pce ∧ e.blk ≠ .hng := by decide

/-- An error that is no failure of the hardware does not escalate (R472). -/
theorem recErr_of_soft (s : State) {e : ErrCode} (i sub det : Nat) (c : Word) (he : e ∉ hardwareCodes) :
    recErr s e i sub det c = recordOn 4 s (page e.blk i) e.bit e.event false sub det c := by
  have hsoft : ∀ u, hardwareError u e i = false := fun u => by simp [hardwareError, he]
  unfold recErr escalateUnit
  dsimp only
  rw [hsoft, Bool.not_false, Bool.true_or, if_pos rfl]

/-- Escalation leaves the registers of the error's own page (R472). -/
theorem escalateUnit_ownPage (s : State) (e : ErrCode) {i off : Nat} (hi : i < blockCount e.blk) (ho : off < 0x1000) :
    rget (escalateUnit s e i) e.blk i off = rget s e.blk i off := by
  cases hw : hardwareError s e i with
  | false => simp [escalateUnit, hw]
  | true =>
    have hmem : e ∈ hardwareCodes := by
      simp only [hardwareError, Bool.and_eq_true, List.contains_iff_mem] at hw
      exact hw.2
    obtain ⟨hcar, hpce, hhng⟩ := hardwareCodes_blk e hmem
    have hk := register_kept (rget s e.blk i off) hi ho hcar hpce
    exact hk.escalateUnit ⟨.hng, 0, hhng, by decide, rfl⟩
      (fun u cause x pg hu => (requestChip_reg u cause x pg (OtherPage.apart hk.pce hi ho (by decide))).trans hu)
      (fun u p cause x y pg hu => hu) (fun u n k cause hu => hu) e i rfl

/-- On its own page a detected error writes what its record writes. -/
theorem recErr_ownPage (s : State) (e : ErrCode) {i off : Nat} (sub det : Nat) (c : Word) (hi : i < blockCount e.blk)
    (ho : off < 0x1000) :
    rget (recErr s e i sub det c) e.blk i off = rget (recordOn 4 s (page e.blk i) e.bit e.event false sub det c) e.blk i off :=
  escalateUnit_ownPage _ e hi ho

/-! #### ERR_COUNT -/

/-- ERR_COUNT after one more error: the count goes up, and past 0xFFFF it sets OVERFLOW (R51). -/
def countUp (w : Word) : Word := if fld w 15 0 = 0xFFFF then setBit w 31 true else setFld w 15 0 (fld w 15 0 + 1)

theorem countUp_below {w : Word} (h : fld w 15 0 < 0xFFFF) : fld (countUp w) 15 0 = fld w 15 0 + 1 := by
  rw [countUp, if_neg (by omega), fld_setFld _ _ (by decide) (by decide)]
  exact Nat.mod_eq_of_lt (by omega)

theorem countUp_full {w : Word} (h : fld w 15 0 = 0xFFFF) : fld (countUp w) 15 0 = 0xFFFF ∧ wbit (countUp w) 31 = true := by
  rw [countUp, if_pos h]
  exact ⟨(fld_setBit w true (by decide) (by decide) (by decide)).trans h, wbit_setBit_self w true (by decide)⟩

theorem regGet_errNoted_count {s : State} {pg : Nat} (k : Nat) (inj : Bool) (sub det : Nat) (c : Word)
    (hv : wbit (regGet s (pg + 0x30)) 31 = true) :
    regGet (errNoted s pg k inj sub det c) (pg + 0x34) = countUp (regGet s (pg + 0x34)) := by
  have h30 : ∀ v, regGet (regSet s (pg + 0x20) v) (pg + 0x30) = regGet s (pg + 0x30) := fun v => regGet_regSet_ne _ _ (by omega)
  have h34 : ∀ v, regGet (regSet s (pg + 0x20) v) (pg + 0x34) = regGet s (pg + 0x34) := fun v => regGet_regSet_ne _ _ (by omega)
  rw [errNoted, noteFirst_valid _ _ (by rw [h30]; exact hv), regGet_regSet_self, h34]
  rfl

/-- On a page where no brought error is recorded, one more error is counted once. -/
theorem recordOn_count_apart (n : Nat) {s : State} {b : Block} {i k : Nat} (ev inj : Bool) (sub det : Nat) (c : Word)
    (hi : i < blockCount b) (hcar : b ≠ .car) (hpce : b ≠ .pce) (hm : wbit (rget s b i 0x24) k = false)
    (hv : wbit (rget s b i 0x30) 31 = true) :
    rget (recordOn (n + 1) s (page b i) k ev inj sub det c) b i 0x34 = countUp (rget s b i 0x34) :=
  (register_kept _ hi (by decide) hcar hpce).recordOn_noted n ev inj sub det c hm (regGet_errNoted_count k inj sub det c hv)

/-- Where INT_ENABLE of ERR is clear, an error does not change what is pending. -/
theorem intPending_errOff {s t : State} {pg : Nat} (h40 : regGet t (pg + 0x40) = regGet s (pg + 0x40))
    (h44 : regGet t (pg + 0x44) = regGet s (pg + 0x44)) (hoff : wbit (regGet s (pg + 0x44)) 0 = false) :
    intPending t pg = intPending s pg := by
  have hbits : ∀ (w en : Word) (x y : Bool), wbit en 0 = false → setBit w 0 x &&& en = setBit w 0 y &&& en := by
    intro w en x y hen
    apply BitVec.eq_of_getLsbD_eq
    intro k hk
    have hx := wbit_setBit w (i := 0) x hk
    have hy := wbit_setBit w (i := 0) y hk
    simp only [wbit] at hx hy hen
    rw [BitVec.getLsbD_and, BitVec.getLsbD_and, hx, hy]
    split
    · next h0 => rw [h0, hen, Bool.and_false, Bool.and_false]
    · rfl
  unfold intPending intStatus
  rw [h40, h44, hbits _ _ _ _ hoff]

@[simp] theorem noteFirst_evq (s : State) (pg : Nat) (w c : Word) : (noteFirst s pg w c).evq = s.evq := by
  unfold noteFirst
  split <;> rfl

/-- With room in the event queue and no interrupt of ERR, a record brings no other error. -/
theorem recordOn_count_quiet (n : Nat) {s : State} {pg k : Nat} (ev inj : Bool) (sub det : Nat) (c : Word)
    (hpg : pg % 0x1000 = 0) (hroom : s.evq.length < 64) (hoff : wbit (regGet s (pg + 0x44)) 0 = false)
    (hm : wbit (regGet s (pg + 0x24)) k = false) (hv : wbit (regGet s (pg + 0x30)) 31 = true) :
    regGet (recordOn (n + 1) s pg k ev inj sub det c) (pg + 0x34) = countUp (regGet s (pg + 0x34)) := by
  have hcar := page_mod .car 0
  have silent : ∀ (u : State) (f : State → State), (∀ o ∈ [0x34, 0x40, 0x44], regGet u (pg + o) = regGet (errNoted s pg k inj sub det c) (pg + o)) →
      regGet (if (!intPending s pg && intPending u pg) = true then f u else u) (pg + 0x34) = countUp (regGet s (pg + 0x34)) := by
    intro u f hu
    have hint : ∀ o ∈ [0x40, 0x44], regGet (errNoted s pg k inj sub det c) (pg + o) = regGet s (pg + o) := by
      intro o ho
      simp only [List.mem_cons, List.not_mem_nil, or_false] at ho
      rw [errNoted, regGet_noteFirst _ _ _ _ hpg (by omega) (by omega) (by omega)]
      exact regGet_regSet_ne _ _ (by omega)
    have hp : intPending u pg = intPending s pg :=
      intPending_errOff ((hu _ (by decide)).trans (hint _ (by decide))) ((hu _ (by decide)).trans (hint _ (by decide))) hoff
    rw [hp, Bool.not_and_self, if_neg (by decide), hu _ (by decide)]
    exact regGet_errNoted_count k inj sub det c hv
  unfold recordOn
  dsimp only
  rw [errMask_regSet_status, hm, if_neg (by decide), errSeverity_regSet_status]
  refine silent _ (fun u => intMessage u pg _) fun o ho => ?_
  have hne : pg + o ≠ page .car 0 + 0x124 := by
    simp only [List.mem_cons, List.not_mem_nil, or_false] at ho
    omega
  split
  · rw [noteFirst_evq, regSet_evq, decide_eq_false (by omega), Bool.false_and, if_neg (by decide)]
    exact regGet_queueEvent _ _ hne
  · rfl

/-- Settles O11: escalation leaves the page, a masked record sets one bit, VALID freezes ERR_FIRST, and a further error is counted. -/
theorem errorsRecorded : Obligations.ErrorsRecorded := by
  unfold Obligations.ErrorsRecorded
  intro s e i sub det c hbit hi
  have hpg := page_mod e.blk i
  refine ⟨recErr_sets s e i sub det c hbit, fun hm off hoff => ?_, fun hm => ⟨fun hv => ?_, fun hv => ?_⟩⟩
  · have ho : off < 0x1000 ∧ off ≠ 0x20 := by
      simp only [List.mem_cons, List.not_mem_nil, or_false] at hoff
      omega
    rw [recErr_ownPage s e sub det c hi ho.1, recordOn_masked 3 _ _ _ _ _ hm]
    exact rget_rset_off _ _ _ _ ho.2
  · obtain ⟨hfirst, hctag⟩ := recordOn_first 3 e.event false sub det c hpg hm hv
    simp only [recErr_ownPage s e sub det c hi (show 0x30 < 0x1000 by decide), recErr_ownPage s e sub det c hi (show 0x38 < 0x1000 by decide)]
    refine ⟨hfirst, ?_, hctag⟩
    rw [rget, hfirst]
    exact errFirstWord_valid _ _ _ _ _
  · obtain ⟨hfirst, hctag⟩ := recordOn_again 3 e.event false sub det c hpg hm hv
    rw [recErr_ownPage s e sub det c hi (show 0x30 < 0x1000 by decide), recErr_ownPage s e sub det c hi (show 0x38 < 0x1000 by decide),
      recErr_ownPage s e sub det c hi (show 0x34 < 0x1000 by decide)]
    refine ⟨hfirst, hctag, fun hapart => ?_⟩
    have hcount : rget (recordOn 4 s (page e.blk i) e.bit e.event false sub det c) e.blk i 0x34 = countUp (rget s e.blk i 0x34) := by
      rcases hapart with ⟨hcar, hpce⟩ | ⟨hroom, hoff⟩
      · exact recordOn_count_apart 3 e.event false sub det c hi hcar hpce hm hv
      · exact recordOn_count_quiet 3 e.event false sub det c hpg hroom hoff hm hv
    rw [hcount]
    exact ⟨countUp_below, countUp_full⟩

end Sys2Proof.Machine
end

/-! ### CAPS1 and injected errors (R66)

What CAPS1 shows of a page's codes, and what a write of ERR_INJECT raises. A write of a header register, of which this is one, is first
reduced to the page that takes it. -/

section
namespace Sys2Proof.Machine

/-! #### CAPS1 -/

/-- The mask of a list of bit numbers has a 1 for each. -/
theorem testBit_maskOf (l : List Nat) (k : Nat) : (maskOf l).testBit k = decide (k ∈ l) := by
  have acc : ∀ a : Nat, (l.foldl (fun a i => a ||| (1 <<< i)) a).testBit k = (a.testBit k || decide (k ∈ l)) := by
    induction l with
    | nil => simp
    | cons i l ih =>
      intro a
      rw [List.foldl_cons, ih, Nat.testBit_or, Nat.one_shiftLeft, Nat.testBit_two_pow]
      simp [Bool.or_assoc, eq_comm, Bool.decide_or]
  simpa [maskOf] using acc 0

theorem wbit_wd (n : Nat) {k : Nat} (hk : k < 32) : wbit (wd n) k = n.testBit k := by
  rw [wbit, wd, BitVec.getLsbD_ofNat, decide_eq_true hk, Bool.true_and]

/-- CAPS1 of a block shows its codes. -/
theorem wbit_blockCaps1 (b : Block) {k : Nat} (hk : k < 32) : wbit (blockCaps1 b) k = true ↔ ∃ e ∈ blockErrs b, e.bit = k := by
  simp [blockCaps1, wbit_wd _ hk, testBit_maskOf]

/-- The codes of a page are recorded on that page, below bit 30. -/
theorem blockErrs_place (b : Block) : ∀ e ∈ blockErrs b, e.blk = b ∧ e.bit < 30 := by
  cases b <;> decide

/-- A page gives a bit to one code. -/
theorem blockErrs_find (b : Block) : ∀ e ∈ blockErrs b, (blockErrs b).find? (fun x => x.bit = e.bit) = some e := by
  cases b <;> decide

/-- CAPS1 shows the codes of the page's chapter, and nothing on SEC, DBG and BST pages in MISSION. -/
theorem wbit_caps1Word (s : State) (b : Block) {k : Nat} (hk : k < 32) :
    wbit (caps1Word s b) k = true ↔
      k < 30 ∧ (∃ e ∈ blockErrs b, e.bit = k) ∧ ¬ (lcState s = 1 ∧ (b = .sec ∨ b = .dbg ∨ b = .bst)) := by
  have hlow : (∃ e ∈ blockErrs b, e.bit = k) → k < 30 := by
    rintro ⟨e, he, rfl⟩
    exact (blockErrs_place b e he).2
  by_cases hide : lcState s = 1 ∧ (b = .sec ∨ b = .dbg ∨ b = .bst)
  · have hzero : caps1Word s b = 0 := by
      simp only [caps1Word]
      rw [if_pos (by simpa [or_assoc] using hide)]
    simp [hzero, hide, wbit]
  · have hshow : caps1Word s b = blockCaps1 b := by
      simp only [caps1Word]
      rw [if_neg (by simpa [or_assoc] using hide)]
    rw [hshow, wbit_blockCaps1 b hk]
    exact ⟨fun h => ⟨hlow h, h, hide⟩, fun h => h.2.1⟩

/-! #### Writes of a header register -/

/-- A command on a header register of a page that takes it is the header write. -/
theorem headerCmd_of_pageTakes {s : State} {req : Req} {b : Block} {i o off : Nat} (v : Word) (hoff : off < 0x100)
    (h : PageTakes s req (page b i + o) b i) : headerCmd s req (page b i + o) off v = headerWrite s req b i off v := by
  have h' : PageTakes s req (page b i + off) b i :=
    { h with addr := page_of_address b i (by omega) }
  rw [headerCmd, h.inTime, if_pos rfl, h.addr, regWrite_of_pageTakes v (by omega) h', if_pos hoff]

/-! #### ERR_INJECT -/

theorem exec_errInject {s : State} {req : Req} {b : Block} {i : Nat} (v : Word) (h : PageTakes s req (page b i + 0x2C) b i) :
    exec (.errInject req (page b i + 0x2C) v) s = .next (injectError s req b i v) :=
  congrArg Host.Outcome.next (headerCmd_of_pageTakes v (by decide) h)

/-- The state in which a code has been injected: recorded as INJECTED, escalated, and the reset of its recovery requested. -/
def injected (s : State) (e : ErrCode) (i : Nat) : State :=
  codeReset (escalateUnit (recordOn 4 s (page e.blk i) e.bit e.event true 0 0 noCtag) e i) e i

/-- A write with GO, of the PF or the Carillon, for a code that CAPS1 shows, raises the code. -/
theorem injectError_raises {s : State} {req : Req} {i : Nat} {v : Word} {e : ErrCode} (hreq : ∀ p, req ≠ .vf p)
    (hgo : wbit v 8 = true) (hr : pageInReset s e.blk i = false) (he : e ∈ blockErrs e.blk) (hk : fld v 4 0 = e.bit)
    (hcaps : wbit (caps1Word s e.blk) e.bit = true) : injectError s req e.blk i v = injected s e i := by
  have hfind := blockErrs_find e.blk e he
  cases req with
  | vf p => exact absurd rfl (hreq p)
  | pf | car => simp [injectError, hgo, hr, hk, hcaps, hfind, injected]

/-- Any other write of ERR_INJECT does nothing. -/
theorem injectError_ignored {s : State} {req : Req} {b : Block} {i : Nat} {v : Word}
    (h : (∃ p, req = .vf p) ∨ wbit v 8 = false ∨ wbit (caps1Word s b) (fld v 4 0) = false ∨ pageInReset s b i = true) :
    injectError s req b i v = s := by
  unfold injectError
  rcases h with ⟨p, rfl⟩ | h | h | h
  · simp
  all_goals simp [h]

/-- The reset of a code's recovery is one request at most (R102, R488, R513, R46). -/
theorem codeReset_cases (s : State) (e : ErrCode) (i : Nat) :
    codeReset s e i = s ∨ codeReset s e i = requestEng s i 3 5 ∨
      codeReset s e i = requestPart s 0 6 true false (page .hng 0) ∨ codeReset s e i = requestChip s 6 true (page e.blk i) := by
  unfold codeReset
  split_ifs <;> simp

theorem codeReset_mem (s : State) (e : ErrCode) (i : Nat) : (codeReset s e i).mem = s.mem := by
  rcases codeReset_cases s e i with h | h | h | h <;> rw [h]
  · rfl
  · rfl
  · exact (requestChip_err _ _ _ _).mem

/-- The reset that a code's recovery requests writes no register but PCE_RESET_STATUS. -/
theorem codeReset_reg (s : State) (e : ErrCode) (i : Nat) {a : Nat} (ha : a ≠ page .pce 0 + 0x114) :
    regGet (codeReset s e i) a = regGet s a := by
  rcases codeReset_cases s e i with h | h | h | h <;> rw [h]
  · rfl
  · rfl
  · exact requestChip_reg _ _ _ _ ha

theorem injected_mem (s : State) (e : ErrCode) (i : Nat) : (injected s e i).mem = s.mem := by
  rw [injected, codeReset_mem, (escalateUnit_err _ _ _).mem, recordOn_mem]

/-- On the page of its code an injected error writes what its record writes. -/
theorem injected_ownPage (s : State) (e : ErrCode) {i off : Nat} (hi : i < blockCount e.blk) (ho : off < 0x1000)
    (h : off ≠ 0x114) :
    rget (injected s e i) e.blk i off = rget (recordOn 4 s (page e.blk i) e.bit e.event true 0 0 noCtag) e.blk i off := by
  have hp := page_mod e.blk i
  have hpce := page_mod .pce 0
  refine Eq.trans (codeReset_reg _ e i ?_) (escalateUnit_ownPage _ e hi ho)
  omega

/-- Settles O9: CAPS1 by the codes of a block, and a write of ERR_INJECT by whether it raises one. -/
theorem injectedErrors : Obligations.InjectedErrors := by
  unfold Obligations.InjectedErrors
  refine ⟨fun s b k hk => wbit_caps1Word s b hk, fun s req b i v e h hreq hgo hr he hk hcaps => ?_, fun s req b i v h hno => ?_⟩
  · obtain ⟨hblk, hbit⟩ := blockErrs_place b e he
    subst hblk
    have hp := page_mod e.blk i
    refine ⟨injected s e i, ?_, rfl, ?_, fun hm hv => ?_, injected_mem s e i⟩
    · rw [exec_errInject v h, injectError_raises hreq hgo hr he hk hcaps]
    · rw [injected_ownPage s e h.inst (by decide) (by decide)]
      exact recordOn_sets 3 s _ _ _ _ _ _ _ hp (by omega)
    · obtain ⟨hfirst, hctag⟩ := recordOn_first 3 e.event true 0 0 noCtag hp hm hv
      rw [injected_ownPage s e h.inst (by decide) (by decide), injected_ownPage s e h.inst (by decide) (by decide)]
      exact ⟨hfirst, hctag⟩
  · rw [exec_errInject v h, injectError_ignored hno]

end Sys2Proof.Machine
end

/-! ### The common header: CTRL, ACCESS_LEVEL, the clearing of records, QUIESCED (R51, R57 to R60, R65, R67, R474)

A write of CTRL has three parts: it stores ENABLE and QUIESCE, it records an early clear of ENABLE, and it requests a reset. Each part has
its own frame, and `CtrlTaken` puts them together for the four commands that write CTRL without asking for the outcome of RESET_REQ. -/

section
namespace Sys2Proof.Machine

/-! #### The parts of a write of CTRL -/

/-- ENABLE stays set against a write that clears it before the block has quiesced (R58). -/
def enableKept (s : State) (b : Block) (i : Nat) (v : Word) : Bool :=
  wbit (rget s b i 0x10) 0 && !wbit v 0 && !wbit (rget s b i 0x14) 1

/-- ENABLE and QUIESCE stored; QUIESCED falls with QUIESCE (R51, R57). -/
def ctrlStored (s : State) (b : Block) (i : Nat) (v : Word) : State :=
  let t := rset s b i 0x10 (setBit (setBit (rget s b i 0x10) 0 (wbit v 0 || enableKept s b i v)) 1 (wbit v 1))
  if wbit v 1 then t else rset t b i 0x14 (setBit (rget t b i 0x14) 1 false)

/-- An early clear of ENABLE is recorded (R58). -/
def ctrlNoted (s : State) (b : Block) (i : Nat) (v : Word) : State :=
  if enableKept s b i v then ctrlSequence (ctrlStored s b i v) (page b i) else ctrlStored s b i v

theorem ctrlWrite_eq {s : State} {b : Block} {i : Nat} (req : Req) (v : Word) (ha : statusRetired s b i = false) :
    ctrlWrite s req b i v = if wbit v 2 then resetReq (ctrlNoted s b i v) req b i else ctrlNoted s b i v := by
  rw [ctrlWrite, ha, if_neg (by decide)]
  rfl

theorem ctrlWrite_retired {s : State} {b : Block} {i : Nat} (req : Req) (v : Word) (hr : statusRetired s b i = true) :
    ctrlWrite s req b i v = s := by
  rw [ctrlWrite, hr, if_pos rfl]

/-! ##### What is stored -/

theorem rget_ctrlStored_ctrl (s : State) (b : Block) (i : Nat) (v : Word) :
    rget (ctrlStored s b i v) b i 0x10 =
      setBit (setBit (rget s b i 0x10) 0 (wbit v 0 || enableKept s b i v)) 1 (wbit v 1) := by
  unfold ctrlStored
  dsimp only
  split
  · exact rget_rset_self _ _ _ _ _
  · rw [rget_rset_off _ _ _ _ (by decide), rget_rset_self]

theorem rget_ctrlStored_quiesced {s : State} {b : Block} {i : Nat} {v : Word} (h : wbit v 1 = false) :
    wbit (rget (ctrlStored s b i v) b i 0x14) 1 = false := by
  unfold ctrlStored
  dsimp only
  rw [h, if_neg (by decide), rget_rset_self]
  exact wbit_setBit_self _ _ (by decide)

/-- Storing ENABLE and QUIESCE writes registers alone. -/
theorem ctrlStored_onlyRegs (s : State) (b : Block) (i : Nat) (v : Word) : OnlyRegs s (ctrlStored s b i v) := by
  unfold ctrlStored
  dsimp only
  split <;> rfl

theorem ctrlStored_kept (s : State) (b : Block) (i : Nat) (v : Word) :
    RegsKept s (ctrlStored s b i v) [page b i + 0x10, page b i + 0x14] := by
  intro a ha
  simp only [List.mem_cons, List.not_mem_nil, or_false, not_or] at ha
  obtain ⟨h10, h14⟩ := ha
  unfold ctrlStored
  dsimp only
  split
  · exact regGet_regSet_ne _ _ h10
  · exact (regGet_regSet_ne _ _ h14).trans (regGet_regSet_ne _ _ h10)

/-- With QUIESCE set only CTRL is written. -/
theorem ctrlStored_kept_quiesce {s : State} {b : Block} {i : Nat} {v : Word} (h : wbit v 1 = true) :
    RegsKept s (ctrlStored s b i v) [page b i + 0x10] := by
  intro a ha
  unfold ctrlStored
  dsimp only
  rw [h, if_pos rfl]
  exact regGet_regSet_ne _ _ (by simpa using ha)

theorem ctrlStored_rec (s : State) (b : Block) (i : Nat) (v : Word) : RecFrame s (ctrlStored s b i v) := by
  unfold ctrlStored
  dsimp only
  split <;> exact {}

/-! ##### What is recorded -/

theorem ctrlNoted_of_not_kept {s : State} {b : Block} {i : Nat} {v : Word} (h : enableKept s b i v = false) :
    ctrlNoted s b i v = ctrlStored s b i v := by
  rw [ctrlNoted, h, if_neg (by decide)]

theorem ctrlNoted_rec (s : State) (b : Block) (i : Nat) (v : Word) : RecFrame s (ctrlNoted s b i v) := by
  unfold ctrlNoted
  split
  · exact (ctrlStored_rec s b i v).trans (recordOn_rec _ _ _ _ _ _ _ _ _)
  · exact ctrlStored_rec s b i v

/-- The registers of a page that recording never writes. -/
theorem errQuiet_page (b : Block) (i : Nat) {off : Nat} (ho : off < 0x1000)
    (h : off ∉ [0x20, 0x30, 0x34, 0x38, 0x124]) : errQuiet (page b i + off) := by
  have hp := page_mod b i
  have hcar := page_mod .car 0
  simp only [List.mem_cons, List.not_mem_nil, or_false, not_or] at h
  refine ⟨?_, ?_, ?_, ?_, ?_⟩ <;> omega

/-- The record of an early clear leaves the registers that no record writes, CTRL and STATUS among them. -/
theorem rget_ctrlNoted (s : State) (b : Block) (i : Nat) (v : Word) {off : Nat} (ho : off < 0x1000)
    (h : off ∉ [0x20, 0x30, 0x34, 0x38, 0x124]) : rget (ctrlNoted s b i v) b i off = rget (ctrlStored s b i v) b i off := by
  unfold ctrlNoted
  split
  · exact recordOn_quiet _ _ _ _ _ _ _ _ _ _ (page_mod b i) (errQuiet_page b i ho h)
  · rfl

theorem ctrlNoted_sequence {s : State} {b : Block} {i : Nat} {v : Word} (h : enableKept s b i v = true) :
    wbit (rget (ctrlNoted s b i v) b i 0x20) 31 = true := by
  rw [ctrlNoted, h, if_pos rfl]
  exact recordOn_sets 3 _ _ _ _ _ _ _ _ (page_mod b i) (by decide)

/-! ##### The request of a reset -/

/-- RESET_REQ shown in CTRL. -/
def setResetReq (s : State) (b : Block) (i : Nat) : State := rset s b i 0x10 (setBit (rget s b i 0x10) 2 true)

/-- What RESET_REQ does (R59, R60): on an engine's page it is shown, and requests the engine's reset unless one runs; elsewhere the host
is denied, and the Carillon's write is shown while a reset runs. -/
theorem resetReq_cases (s : State) (req : Req) (b : Block) (i : Nat) :
    (∃ e, pageEngine b = some e ∧ pageInReset s b i = false ∧ resetReq s req b i = setResetReq (requestEng s i e 6) b i) ∨
    ((pageEngine b = none → req = .car) ∧ pageInReset s b i = true ∧ resetReq s req b i = setResetReq s b i) ∨
    (pageEngine b = none ∧ req ≠ .car ∧ resetReq s req b i = denied s req (page b i)) ∨
    (pageEngine b = none ∧ req = .car ∧ pageInReset s b i = false ∧ resetReq s req b i = s) := by
  unfold resetReq
  cases he : pageEngine b with
  | some e =>
    cases hr : pageInReset s b i with
    | true => exact .inr (.inl ⟨fun h => (nomatch h), rfl, rfl⟩)
    | false => exact .inl ⟨e, rfl, rfl, rfl⟩
  | none =>
    by_cases hc : req = .car
    · cases hr : pageInReset s b i with
      | true => exact .inr (.inl ⟨fun _ => hc, rfl, by simp [hc, setResetReq]⟩)
      | false => exact .inr (.inr (.inr ⟨rfl, hc, rfl, by simp [hc]⟩))
    · exact .inr (.inr (.inl ⟨rfl, hc, by simp [hc]⟩))

theorem rget_setResetReq (s : State) (b : Block) (i : Nat) : rget (setResetReq s b i) b i 0x10 = setBit (rget s b i 0x10) 2 true :=
  rget_rset_self _ _ _ _ _

theorem setResetReq_keepsErrs (s : State) (b : Block) (i : Nat) : KeepsErrs s (setResetReq s b i) :=
  rset_keepsErrs s b i 0x10 _ (by decide)

theorem requestEng_keepsErrs (s : State) (n e cause : Nat) : KeepsErrs s (requestEng s n e cause) := .of_regs rfl rfl

/-- A request of a reset keeps memory and the recorded errors. -/
theorem resetReq_keepsErrs (s : State) (req : Req) (b : Block) (i : Nat) : KeepsErrs s (resetReq s req b i) := by
  rcases resetReq_cases s req b i with ⟨e, -, -, h⟩ | ⟨-, -, h⟩ | ⟨-, -, h⟩ | ⟨-, -, -, h⟩ <;> rw [h]
  · exact (requestEng_keepsErrs s i e 6).trans (setResetReq_keepsErrs _ b i)
  · exact setResetReq_keepsErrs s b i
  · exact recErr_keepsErrs s eAccessDenied 0 _ _ noCtag
  · exact .refl s

theorem denied_rget (s : State) (req : Req) (a : Nat) (b : Block) (i : Nat) {off : Nat} (ho : off < 0x1000)
    (h : off ∉ [0x20, 0x30, 0x34, 0x38, 0x114, 0x124]) : rget (denied s req a) b i off = rget s b i off :=
  rget_recErr s eAccessDenied 0 _ _ noCtag b i ho h

/-- A request of a reset changes no other bit of CTRL than RESET_REQ. -/
theorem resetReq_ctrl (s : State) (req : Req) (b : Block) (i : Nat) {k : Nat} (hk : k < 32) (h2 : k ≠ 2) :
    wbit (rget (resetReq s req b i) b i 0x10) k = wbit (rget s b i 0x10) k := by
  rcases resetReq_cases s req b i with ⟨e, -, -, h⟩ | ⟨-, -, h⟩ | ⟨-, -, h⟩ | ⟨-, -, -, h⟩ <;> rw [h]
  · rw [rget_setResetReq, wbit_setBit_ne _ _ hk h2]
    rfl
  · rw [rget_setResetReq, wbit_setBit_ne _ _ hk h2]
  · rw [denied_rget s req _ b i (by decide) (by decide)]

/-- A request of a reset leaves STATUS. -/
theorem resetReq_status (s : State) (req : Req) (b : Block) (i : Nat) :
    rget (resetReq s req b i) b i 0x14 = rget s b i 0x14 := by
  rcases resetReq_cases s req b i with ⟨e, -, -, h⟩ | ⟨-, -, h⟩ | ⟨-, -, h⟩ | ⟨-, -, -, h⟩ <;> rw [h]
  · exact rget_rset_off _ _ _ _ (by decide)
  · exact rget_rset_off _ _ _ _ (by decide)
  · exact denied_rget s req _ b i (by decide) (by decide)

/-! #### A write of CTRL that a page takes -/

/-- What a write of CTRL leaves: its bits, QUIESCED, memory, the record of an early clear, and, without one and without RESET_REQ, nothing
but CTRL and STATUS changed. -/
structure CtrlTaken (s : State) (b : Block) (i : Nat) (v : Word) (t : State) : Prop where
  enable : wbit (rget t b i 0x10) 0 = (wbit v 0 || enableKept s b i v)
  quiesce : wbit (rget t b i 0x10) 1 = wbit v 1
  quiesced : wbit v 1 = false → wbit (rget t b i 0x14) 1 = false
  mem : t.mem = s.mem
  sequence : enableKept s b i v = true → wbit (rget t b i 0x20) 31 = true
  onlyRegs : enableKept s b i v = false → wbit v 2 = false → OnlyRegs s t
  kept : enableKept s b i v = false → wbit v 2 = false → RegsKept s t [page b i + 0x10, page b i + 0x14]
  keptStatus : enableKept s b i v = false → wbit v 2 = false → wbit v 1 = true → RegsKept s t [page b i + 0x10]

theorem ctrlNoted_taken (s : State) (b : Block) (i : Nat) (v : Word) : CtrlTaken s b i v (ctrlNoted s b i v) where
  enable := by
    rw [rget_ctrlNoted s b i v (by decide) (by decide), rget_ctrlStored_ctrl, wbit_setBit_ne _ _ (by decide) (by decide),
      wbit_setBit_self _ _ (by decide)]
  quiesce := by rw [rget_ctrlNoted s b i v (by decide) (by decide), rget_ctrlStored_ctrl, wbit_setBit_self _ _ (by decide)]
  quiesced h := by
    rw [rget_ctrlNoted s b i v (by decide) (by decide)]
    exact rget_ctrlStored_quiesced h
  mem := (ctrlNoted_rec s b i v).mem
  sequence := ctrlNoted_sequence
  onlyRegs h _ := by
    rw [ctrlNoted_of_not_kept h]
    exact ctrlStored_onlyRegs s b i v
  kept h _ := by
    rw [ctrlNoted_of_not_kept h]
    exact ctrlStored_kept s b i v
  keptStatus h _ hq := by
    rw [ctrlNoted_of_not_kept h]
    exact ctrlStored_kept_quiesce hq

theorem ctrlWrite_taken {s : State} {b : Block} {i : Nat} (req : Req) (v : Word) (ha : statusRetired s b i = false) :
    CtrlTaken s b i v (ctrlWrite s req b i v) := by
  have h := ctrlNoted_taken s b i v
  rw [ctrlWrite_eq req v ha]
  cases hreset : wbit v 2 with
  | false => exact h
  | true =>
    have hp := page_mod b i
    have hk := resetReq_keepsErrs (ctrlNoted s b i v) req b i
    exact
      { enable := (resetReq_ctrl _ req b i (by decide) (by decide)).trans h.enable
        quiesce := (resetReq_ctrl _ req b i (by decide) (by decide)).trans h.quiesce
        quiesced := fun hq => by rw [if_pos rfl, resetReq_status]; exact h.quiesced hq
        mem := hk.mem.trans h.mem
        sequence := fun he => hk.bits _ _ (by omega) (h.sequence he)
        onlyRegs := fun _ h2 => by rw [hreset] at h2; cases h2
        kept := fun _ h2 => by rw [hreset] at h2; cases h2
        keptStatus := fun _ h2 => by rw [hreset] at h2; cases h2 }

/-- A command on CTRL of a page that takes it is the write of CTRL. -/
theorem headerCmd_ctrl {s : State} {req : Req} {b : Block} {i : Nat} (v : Word) (h : PageTakes s req (page b i + 0x10) b i) :
    headerCmd s req (page b i + 0x10) 0x10 v = ctrlWrite s req b i v :=
  headerCmd_of_pageTakes v (by decide) h

/-- The state in which a command leaves CTRL of a page that takes it. -/
theorem headerCmd_ctrlTaken {s : State} {req : Req} {b : Block} {i : Nat} (v : Word)
    (h : PageTakes s req (page b i + 0x10) b i) : CtrlTaken s b i v (headerCmd s req (page b i + 0x10) 0x10 v) := by
  rw [headerCmd_ctrl v h]
  exact ctrlWrite_taken req v h.alive

/-- A write with ENABLE keeps nothing against itself. -/
theorem enableKept_of_enable {s : State} {b : Block} {i : Nat} {v : Word} (h : wbit v 0 = true) : enableKept s b i v = false := by
  simp [enableKept, h]

theorem ctrlEnableSet_completes {s : State} {req : Req} {b : Block} {i : Nat} (v : Word)
    (h : PageTakes s req (page b i + 0x10) b i) : Completes (.ctrlEnableSet req (page b i + 0x10) v) s (fun t =>
      wbit (rget t b i 0x10) 0 = true ∧ wbit (rget t b i 0x10) 1 = wbit v 1 ∧ t.mem = s.mem ∧
      (wbit v 2 = false → OnlyRegs s t ∧ RegsKept s t [page b i + 0x10, page b i + 0x14])) := by
  have ht := headerCmd_ctrlTaken (setBit v 0 true) h
  have h0 : wbit (setBit v 0 true) 0 = true := wbit_setBit_self _ _ (by decide)
  have h1 : wbit (setBit v 0 true) 1 = wbit v 1 := wbit_setBit_ne _ _ (by decide) (by decide)
  have h2 : wbit (setBit v 0 true) 2 = wbit v 2 := wbit_setBit_ne _ _ (by decide) (by decide)
  have hk := enableKept_of_enable (s := s) (b := b) (i := i) h0
  refine ⟨_, rfl, ?_, ht.quiesce.trans h1, ht.mem, fun hv => ?_⟩
  · rw [ht.enable, h0, Bool.true_or]
  · exact ⟨ht.onlyRegs hk (h2.trans hv), ht.kept hk (h2.trans hv)⟩

theorem ctrlEnableClear_completes {s : State} {req : Req} {b : Block} {i : Nat} (v : Word)
    (h : PageTakes s req (page b i + 0x10) b i) : Completes (.ctrlEnableClear req (page b i + 0x10) v) s (fun t =>
      wbit (rget t b i 0x10) 1 = wbit v 1 ∧ t.mem = s.mem ∧
      (wbit (rget s b i 0x14) 1 = true ∨ wbit (rget s b i 0x10) 0 = false → wbit (rget t b i 0x10) 0 = false ∧
        (wbit v 2 = false → OnlyRegs s t ∧ RegsKept s t [page b i + 0x10, page b i + 0x14])) ∧
      (wbit (rget s b i 0x14) 1 = false → wbit (rget s b i 0x10) 0 = true →
        wbit (rget t b i 0x10) 0 = true ∧ wbit (rget t b i 0x20) 31 = true)) := by
  have ht := headerCmd_ctrlTaken (setBit v 0 false) h
  have h0 : wbit (setBit v 0 false) 0 = false := wbit_setBit_self _ _ (by decide)
  have h1 : wbit (setBit v 0 false) 1 = wbit v 1 := wbit_setBit_ne _ _ (by decide) (by decide)
  have h2 : wbit (setBit v 0 false) 2 = wbit v 2 := wbit_setBit_ne _ _ (by decide) (by decide)
  have henable := ht.enable
  rw [h0, Bool.false_or] at henable
  refine ⟨_, rfl, ht.quiesce.trans h1, ht.mem, fun hmay => ?_, fun hq he => ?_⟩
  · have hk : enableKept s b i (setBit v 0 false) = false := by
      rcases hmay with hq | he
      · simp [enableKept, hq]
      · simp [enableKept, he]
    exact ⟨henable.trans hk, fun hv => ⟨ht.onlyRegs hk (h2.trans hv), ht.kept hk (h2.trans hv)⟩⟩
  · have hk : enableKept s b i (setBit v 0 false) = true := by simp [enableKept, hq, he, h0]
    exact ⟨henable.trans hk, ht.sequence hk⟩

/-- ENABLE after a write that leaves the ENABLE bit to its operand. -/
theorem CtrlTaken.enable_eq {s t : State} {b : Block} {i : Nat} {v w : Word} (ht : CtrlTaken s b i w t) (h0 : wbit w 0 = wbit v 0) :
    wbit (rget t b i 0x10) 0 = (wbit v 0 || (wbit (rget s b i 0x10) 0 && !wbit (rget s b i 0x14) 1)) := by
  rw [ht.enable, enableKept, h0]
  cases wbit v 0 <;> simp

theorem ctrlQuiesceSet_completes {s : State} {req : Req} {b : Block} {i : Nat} (v : Word)
    (h : PageTakes s req (page b i + 0x10) b i) : Completes (.ctrlQuiesceSet req (page b i + 0x10) v) s (fun t =>
      wbit (rget t b i 0x10) 1 = true ∧
      wbit (rget t b i 0x10) 0 = (wbit v 0 || (wbit (rget s b i 0x10) 0 && !wbit (rget s b i 0x14) 1)) ∧ t.mem = s.mem ∧
      (wbit v 2 = false → wbit v 0 = true → OnlyRegs s t ∧ RegsKept s t [page b i + 0x10])) := by
  have ht := headerCmd_ctrlTaken (setBit v 1 true) h
  have h0 : wbit (setBit v 1 true) 0 = wbit v 0 := wbit_setBit_ne _ _ (by decide) (by decide)
  have h1 : wbit (setBit v 1 true) 1 = true := wbit_setBit_self _ _ (by decide)
  have h2 : wbit (setBit v 1 true) 2 = wbit v 2 := wbit_setBit_ne _ _ (by decide) (by decide)
  refine ⟨_, rfl, ht.quiesce.trans h1, ht.enable_eq h0, ht.mem, fun hv he => ?_⟩
  have hk := enableKept_of_enable (s := s) (b := b) (i := i) (h0.trans he)
  exact ⟨ht.onlyRegs hk (h2.trans hv), ht.keptStatus hk (h2.trans hv) h1⟩

theorem ctrlQuiesceClear_completes {s : State} {req : Req} {b : Block} {i : Nat} (v : Word)
    (h : PageTakes s req (page b i + 0x10) b i) : Completes (.ctrlQuiesceClear req (page b i + 0x10) v) s (fun t =>
      wbit (rget t b i 0x10) 1 = false ∧ wbit (rget t b i 0x14) 1 = false ∧
      wbit (rget t b i 0x10) 0 = (wbit v 0 || (wbit (rget s b i 0x10) 0 && !wbit (rget s b i 0x14) 1)) ∧ t.mem = s.mem ∧
      (wbit v 2 = false → wbit v 0 = true → OnlyRegs s t ∧ RegsKept s t [page b i + 0x10, page b i + 0x14])) := by
  have ht := headerCmd_ctrlTaken (setBit v 1 false) h
  have h0 : wbit (setBit v 1 false) 0 = wbit v 0 := wbit_setBit_ne _ _ (by decide) (by decide)
  have h1 : wbit (setBit v 1 false) 1 = false := wbit_setBit_self _ _ (by decide)
  have h2 : wbit (setBit v 1 false) 2 = wbit v 2 := wbit_setBit_ne _ _ (by decide) (by decide)
  refine ⟨_, rfl, ht.quiesce.trans h1, ht.quiesced h1, ht.enable_eq h0, ht.mem, fun hv he => ?_⟩
  have hk := enableKept_of_enable (s := s) (b := b) (i := i) (h0.trans he)
  exact ⟨ht.onlyRegs hk (h2.trans hv), ht.kept hk (h2.trans hv)⟩

/-! #### RESET_REQ (R59, R60) -/

/-- Whether a page is in reset is read from the resets in progress and the split. -/
theorem pageInReset_congr {s t : State} (b : Block) (i : Nat) (hchip : t.chipReset = s.chipReset)
    (hpart : t.partReset = s.partReset) (hsplit : t.split = s.split) (hcores : t.cores = s.cores) :
    pageInReset t b i = pageInReset s b i := by
  have howner : pageOwner t b i = pageOwner s b i := by
    cases b <;> simp [pageOwner, partOfCore, partOfClu, partOfSlice, partOfPipe, partOfHalf, hsplit]
  simp [pageInReset, hchip, hpart, howner, core_congr hcores]

theorem ctrlNoted_pageInReset (s : State) (b : Block) (i : Nat) (v : Word) :
    pageInReset (ctrlNoted s b i v) b i = pageInReset s b i :=
  have h := ctrlNoted_rec s b i v
  pageInReset_congr b i h.chipReset h.partReset h.split h.cores

/-- The request of an engine's reset is held with the core. -/
theorem requestEng_engReset (s : State) (n e cause : Nat) : bit (core (requestEng s n e cause) n).engReset e = true := by
  simp [requestEng, bit, Nat.testBit_or, Nat.testBit_shiftLeft]

/-- RESET_REQ on an engine's page is shown in CTRL. -/
theorem resetReq_shown {s : State} {b : Block} {e : Nat} (req : Req) (i : Nat) (he : pageEngine b = some e) :
    wbit (rget (resetReq s req b i) b i 0x10) 2 = true := by
  rcases resetReq_cases s req b i with ⟨e', -, -, h⟩ | ⟨-, -, h⟩ | ⟨hn, -⟩ | ⟨hn, -⟩
  · rw [h, rget_setResetReq, wbit_setBit_self _ _ (by decide)]
  · rw [h, rget_setResetReq, wbit_setBit_self _ _ (by decide)]
  · rw [he] at hn; cases hn
  · rw [he] at hn; cases hn

/-- It requests the engine's reset. -/
theorem resetReq_requests {s : State} {b : Block} {i e : Nat} (req : Req) (he : pageEngine b = some e)
    (hr : pageInReset s b i = false) : bit (core (resetReq s req b i) i).engReset e = true := by
  rcases resetReq_cases s req b i with ⟨e', he', -, h⟩ | ⟨-, hr', -⟩ | ⟨hn, -⟩ | ⟨hn, -⟩
  · obtain rfl : e = e' := by rw [he] at he'; exact Option.some.inj he'
    rw [h]
    exact requestEng_engReset s i e 6
  · rw [hr] at hr'; cases hr'
  · rw [he] at hn; cases hn
  · rw [he] at hn; cases hn

theorem denied_cores (s : State) (req : Req) (a : Nat) : (denied s req a).cores = s.cores := recErr_cores s 0 _ _ noCtag rfl

/-- No second reset is requested where one that covers the page runs. -/
theorem resetReq_cores_inReset {s : State} {b : Block} {i : Nat} (req : Req) (hr : pageInReset s b i = true) :
    (resetReq s req b i).cores = s.cores := by
  rcases resetReq_cases s req b i with ⟨e, -, hr', -⟩ | ⟨-, -, h⟩ | ⟨-, -, h⟩ | ⟨-, -, hr', -⟩
  · rw [hr] at hr'; cases hr'
  · rw [h]; rfl
  · rw [h, denied_cores]
  · rw [hr] at hr'; cases hr'

/-- ACCESS_DENIED is no failure of the hardware, so its record asks for no reset. -/
theorem denied_eq_recordOn (s : State) (req : Req) (a : Nat) :
    denied s req a = recordOn 4 s (page .pce 0) eAccessDenied.bit eAccessDenied.event false (reqNo req) (a / 0x1000) noCtag :=
  recErr_of_soft s 0 _ _ noCtag (by decide)

/-- RESET_REQ on another page requests nothing. -/
theorem resetReq_none_frame {s : State} {b : Block} (req : Req) (i : Nat) (he : pageEngine b = none) :
    (resetReq s req b i).cores = s.cores ∧ (resetReq s req b i).reqPart = s.reqPart ∧
      (resetReq s req b i).reqChip = s.reqChip := by
  rcases resetReq_cases s req b i with ⟨e, he', -⟩ | ⟨-, -, h⟩ | ⟨-, -, h⟩ | ⟨-, -, -, h⟩
  · rw [he] at he'; cases he'
  · rw [h]; exact ⟨rfl, rfl, rfl⟩
  · rw [h, denied_eq_recordOn]
    exact ⟨recordOn_cores _ _ _ _ _ _ _ _ _, recordOn_reqPart _ _ _ _ _ _ _ _ _, recordOn_reqChip _ _ _ _ _ _ _ _ _⟩
  · rw [h]; exact ⟨rfl, rfl, rfl⟩

/-- RESET_REQ of the host on another page is recorded. -/
theorem resetReq_none_denied {s : State} {req : Req} {b : Block} (i : Nat) (he : pageEngine b = none) (hc : req ≠ .car) :
    wbit (rget (resetReq s req b i) .pce 0 0x20) eAccessDenied.bit = true := by
  rcases resetReq_cases s req b i with ⟨e, he', -⟩ | ⟨hcar, -⟩ | ⟨-, -, h⟩ | ⟨-, hcar, -⟩
  · rw [he] at he'; cases he'
  · exact absurd (hcar he) hc
  · rw [h]
    exact recErr_sets s eAccessDenied 0 _ _ noCtag (by decide)
  · exact absurd hcar hc

theorem ctrlResetReq_completes {s : State} {req : Req} {b : Block} {i : Nat} (v : Word)
    (h : PageTakes s req (page b i + 0x10) b i) : Completes (.ctrlResetReq req (page b i + 0x10) v) s (fun t =>
      t.mem = s.mem ∧
      (∀ e, pageEngine b = some e → wbit (rget t b i 0x10) 2 = true ∧
        (pageInReset s b i = false → bit (core t i).engReset e = true) ∧ (pageInReset s b i = true → t.cores = s.cores)) ∧
      (pageEngine b = none → t.cores = s.cores ∧ t.reqPart = s.reqPart ∧ t.reqChip = s.reqChip ∧
        (req ≠ .car → wbit (rget t .pce 0 0x20) eAccessDenied.bit = true))) := by
  refine ⟨_, rfl, (headerCmd_ctrlTaken (setBit v 2 true) h).mem, ?_⟩
  rw [headerCmd_ctrl _ h, ctrlWrite_eq req _ h.alive, wbit_setBit_self _ _ (by decide), if_pos rfl]
  have hrec := ctrlNoted_rec s b i (setBit v 2 true)
  have hreset := ctrlNoted_pageInReset s b i (setBit v 2 true)
  generalize ctrlNoted s b i (setBit v 2 true) = u at hrec hreset
  refine ⟨fun e he => ⟨resetReq_shown req i he, fun hr => ?_, fun hr => ?_⟩, fun he => ?_⟩
  · exact resetReq_requests req he (hreset.trans hr)
  · rw [resetReq_cores_inReset req (hreset.trans hr), hrec.cores]
  · obtain ⟨hcores, hpart, hchip⟩ := resetReq_none_frame (s := u) req i he
    exact ⟨hcores.trans hrec.cores, hpart.trans hrec.reqPart, hchip.trans hrec.reqChip, resetReq_none_denied i he⟩

/-- A retired unit takes no write of CTRL (R60). -/
theorem headerCmd_ctrl_retired {s : State} {req : Req} {b : Block} {i : Nat} (v : Word) (hi : i < blockCount b) (hb : b ≠ .dir)
    (ha : answered s req = true) (ho : pageOpen s req (page b i) = true) (hr : statusRetired s b i = true) :
    headerCmd s req (page b i + 0x10) 0x10 v = s := by
  have hw : writeOpen s req (page b i + 0x10) = true := by simp [writeOpen, page_of_address b i, ho]
  rw [headerCmd, ha, if_pos rfl, page_of_address b i (by decide)]
  simp only [regWrite, pageOf_page b i 0x10 hi (by decide), hb, if_false, hw, Bool.not_true, Bool.false_eq_true]
  split
  · rfl
  · exact ctrlWrite_retired req v hr

/-! #### ACCESS_LEVEL (R51) -/

/-- The bits of a register packed from three fields that fill [1:0], [2:2] and [11:8]. -/
theorem wbit_accessWord (x y z : Word) {k : Nat} (hk : k < 32) :
    wbit (packFields [(0, fld x 1 0), (2, fld y 2 2), (8, fld z 11 8)]) k =
      if k < 2 then wbit x k else if k = 2 then wbit y k else if 8 ≤ k ∧ k < 12 then wbit z k else false := by
  simp only [packFields, List.foldl_cons, List.foldl_nil, wbit_wd _ hk, Nat.testBit_or, Nat.testBit_shiftLeft, testBit_fld,
    Nat.zero_testBit, Bool.false_or, Nat.zero_le, decide_true, Bool.true_and, Nat.sub_zero, Nat.zero_add]
  rcases Nat.lt_or_ge k 2 with h | h
  · simp [h, show ¬ 2 ≤ k by omega, show ¬ 8 ≤ k by omega]
  · rcases Nat.lt_or_ge k 8 with h8 | h8
    · by_cases h2 : k = 2
      · subst h2; simp
      · simp [h2, show ¬ k < 2 by omega, show ¬ 8 ≤ k by omega, show ¬ k - 2 = 0 by omega]
    · by_cases h12 : k < 12
      · simp [h8, h12, show ¬ k < 2 by omega, show ¬ k = 2 by omega, show ¬ k - 2 = 0 by omega, show k - 8 < 4 by omega,
          show 8 + (k - 8) = k by omega]
      · simp [h8, h12, show ¬ k < 2 by omega, show ¬ k = 2 by omega, show ¬ k - 2 = 0 by omega, show ¬ k - 8 < 4 by omega]

/-- The bits of the masks of ACCESS_LEVEL. -/
theorem wbit_accessMask : ∀ k < 32,
    (wbit 0xF07 k = decide (k < 2 ∨ k = 2 ∨ 8 ≤ k ∧ k < 12)) ∧ (wbit 0xF04 k = decide (k = 2 ∨ 8 ≤ k ∧ k < 12)) ∧
      (wbit 3 k = decide (k < 2)) := by
  decide

theorem wbit_and (w v : Word) (k : Nat) : wbit (w &&& v) k = (wbit w k && wbit v k) := by simp [wbit]

/-- Registers with the same bits are the same. -/
theorem word_ext {w v : Word} (h : ∀ k < 32, wbit w k = wbit v k) : w = v := BitVec.eq_of_getLsbD_eq h

/-- A LEVEL that is taken: the writable bits as written. -/
theorem accessWord_taken (v : Word) : packFields [(0, fld v 1 0), (2, fld v 2 2), (8, fld v 11 8)] = v &&& 0xF07 := by
  refine word_ext fun k hk => ?_
  rw [wbit_accessWord v v v hk, wbit_and, (wbit_accessMask k hk).1]
  split_ifs <;> simp_all

/-- A LEVEL that is not taken: the old one stays. -/
theorem accessWord_kept (v old : Word) :
    packFields [(0, fld old 1 0), (2, fld v 2 2), (8, fld v 11 8)] = (v &&& 0xF04) ||| (old &&& 3) := by
  obtain hmask := wbit_accessMask
  refine word_ext fun k hk => ?_
  obtain ⟨-, h4, h3⟩ := hmask k hk
  rw [wbit_accessWord old v v hk, wbit_or, wbit_and, wbit_and, h4, h3]
  split_ifs with h h2 h8
  · simp [h, show ¬ k = 2 by omega, show ¬ 8 ≤ k by omega]
  · simp [h2]
  · simp [h, h8]
  · simp [h, h2, h8]

theorem exec_accessLevelWrite {s : State} {req : Req} {b : Block} {i : Nat} (v : Word)
    (h : PageTakes s req (page b i + 0x50) b i) :
    exec (.accessLevelWrite req (page b i + 0x50) v) s = .next (accessLevelWrite s req (page b i) v) :=
  congrArg Host.Outcome.next (headerCmd_of_pageTakes v (by decide) h)

/-- The Carillon's write of an ACCESS_LEVEL that is not LOCKED. -/
theorem accessLevelWrite_open {s : State} {b : Block} {i : Nat} (v : Word) (hl : wbit (rget s b i 0x50) 2 = false) :
    accessLevelWrite s .car (page b i) v = rset s b i 0x50
      (packFields [(0, if fld v 1 0 = 3 then fld (rget s b i 0x50) 1 0 else fld v 1 0), (2, fld v 2 2), (8, fld v 11 8)]) := by
  have hl' : wbit (regGet s (page b i + 0x50)) 2 = false := hl
  simp [accessLevelWrite, hl', rset, rget]

theorem accessLevelWrite_closed {s : State} {req : Req} {b : Block} {i : Nat} (v : Word)
    (h : req ≠ .car ∨ wbit (rget s b i 0x50) 2 = true) : accessLevelWrite s req (page b i) v = s := by
  have h' : (decide (req ≠ .car) || wbit (regGet s (page b i + 0x50)) 2) = true := by simpa [rget] using h
  rw [accessLevelWrite, if_pos h']

/-! #### Clearing records (R65, R67) -/

theorem exec_errStatusClear {s : State} {req : Req} {b : Block} {i : Nat} (v : Word)
    (h : PageTakes s req (page b i + 0x20) b i) :
    exec (.errStatusClear req (page b i + 0x20) v) s = .next (rset s b i 0x20 (rget s b i 0x20 &&& ~~~v)) :=
  congrArg Host.Outcome.next (headerCmd_of_pageTakes v (by decide) h)

theorem exec_errFirstValidClear {s : State} {req : Req} {b : Block} {i : Nat} (v : Word)
    (h : PageTakes s req (page b i + 0x30) b i) :
    exec (.errFirstValidClear req (page b i + 0x30) v) s =
      .next (if wbit v 31 then rset s b i 0x30 (setBit (rget s b i 0x30) 31 false) else s) :=
  congrArg Host.Outcome.next (headerCmd_of_pageTakes v (by decide) h)

theorem exec_intStatusClear {s : State} {req : Req} {b : Block} {i : Nat} (v : Word)
    (h : PageTakes s req (page b i + 0x40) b i) :
    exec (.intStatusClear req (page b i + 0x40) v) s = .next (intClear s (page b i) v) :=
  congrArg Host.Outcome.next (headerCmd_of_pageTakes v (by decide) h)

/-- INT_STATUS with the bits of a mask cleared, ERR excepted. -/
def intCleared (s : State) (b : Block) (i : Nat) (v : Word) : State :=
  rset s b i 0x40 (rget s b i 0x40 &&& ~~~(v &&& 0xFFFFFFFE))

/-- Clearing bits of INT_STATUS clears them from what the page shows, and its ERR bit follows ERR_STATUS as before. -/
theorem intStatus_intCleared (s : State) (b : Block) (i : Nat) (v : Word) :
    intStatus (intCleared s b i v) (page b i) = intStatus s (page b i) &&& ~~~(v &&& 0xFFFFFFFE) := by
  have h20 : regGet (intCleared s b i v) (page b i + 0x20) = regGet s (page b i + 0x20) := regGet_regSet_ne _ _ (by omega)
  have h24 : regGet (intCleared s b i v) (page b i + 0x24) = regGet s (page b i + 0x24) := regGet_regSet_ne _ _ (by omega)
  have h40 : regGet (intCleared s b i v) (page b i + 0x40) = regGet s (page b i + 0x40) &&& ~~~(v &&& 0xFFFFFFFE) :=
    regGet_regSet_self _ _ _
  unfold intStatus
  rw [h20, h24, h40]
  refine word_ext fun k hk => ?_
  rw [wbit_setBit _ _ hk, wbit_and, wbit_and, wbit_setBit _ _ hk]
  split
  · next h0 => subst h0; simp [wbit]
  · rfl

theorem intPending_intCleared (s : State) (b : Block) (i : Nat) (v : Word) :
    intPending (intCleared s b i v) (page b i) =
      (intStatus s (page b i) &&& ~~~(v &&& 0xFFFFFFFE) &&& rget s b i 0x44 != 0) := by
  have h44 : regGet (intCleared s b i v) (page b i + 0x44) = rget s b i 0x44 := regGet_regSet_ne _ _ (by omega)
  rw [intPending, intStatus_intCleared, h44]

/-- A message leaves where bits were cleared and an enabled one is still set (R67). -/
theorem intClear_eq (s : State) (b : Block) (i : Nat) (v : Word) :
    intClear s (page b i) v =
      if (rget s b i 0x40 &&& (v &&& 0xFFFFFFFE)) ≠ 0 ∧
          intStatus s (page b i) &&& ~~~(v &&& 0xFFFFFFFE) &&& rget s b i 0x44 ≠ 0 then
        sendInt (intCleared s b i v) (page b i) else intCleared s b i v := by
  have hp := intPending_intCleared s b i v
  unfold intCleared at hp ⊢
  unfold intClear
  simp only [rset, rget] at hp ⊢
  rw [hp]
  simp only [Bool.and_eq_true, decide_eq_true_eq, bne_iff_ne]
  exact if_congr Iff.rfl rfl rfl

/-- A message for the Carillon (R67). -/
theorem sendInt_carillon {s : State} {b : Block} {i : Nat} (h : fld (rget s b i 0x48) 13 12 = 2) :
    sendInt s (page b i) = emit s (.carillonInt (page b i)) := by
  simp [sendInt, intMessage, show fld (regGet s (page b i + 0x48)) 13 12 = 2 from h]

/-- A message for the PF that can be delivered (R67, R68). -/
theorem sendInt_pf {s : State} {b : Block} {i : Nat} (h : fld (rget s b i 0x48) 13 12 = 0)
    (hok : msixOk s 0 (fld (rget s b i 0x48) 10 0) = true) :
    sendInt s (page b i) = msixSend s 0 (fld (rget s b i 0x48) 10 0) := by
  have hok' : msixOk s 0 (fld (regGet s (page b i + 0x48)) 10 0) = true := hok
  simp [sendInt, intMessage, show fld (regGet s (page b i + 0x48)) 13 12 = 0 from h, msixOr, hok', rget]

theorem rget_intCleared_route (s : State) (b : Block) (i : Nat) (v : Word) :
    rget (intCleared s b i v) b i 0x48 = rget s b i 0x48 := rget_rset_off _ _ _ _ (by decide)

/-! #### QUIESCED and its timeout (R57, R474) -/

/-- A block that is quiescing, and not held in reset. -/
def quiescing (s : State) (b : Block) (i : Nat) : Prop := wbit (rget s b i 0x10) 1 = true ∧ pageInReset s b i = false

/-- The page of a unit is found at its first address. -/
theorem pageOf_start {b : Block} {i : Nat} (hi : i < blockCount b) : pageOf (page b i) = some (b, i, 0) := by
  have h := pageOf_page b i 0 hi (by decide)
  rwa [Nat.add_zero] at h

theorem exec_quiescedReached {b : Block} {i : Nat} (s : State) (hi : i < blockCount b) :
    exec (.quiescedReached (page b i)) s =
      .next (if wbit (rget s b i 0x10) 1 && !pageInReset s b i && blockIdle s b i then
        rset s b i 0x14 (setBit (rget s b i 0x14) 1 true) else s) := by
  show execQuiescedReached (page b i) s = _
  rw [execQuiescedReached, pageOf_start hi]

theorem exec_quiesceTimeout {b : Block} {i : Nat} (s : State) (hi : i < blockCount b) :
    exec (.quiesceTimeout (page b i)) s =
      .next (if wbit (rget s b i 0x10) 1 && !pageInReset s b i && !wbit (rget s b i 0x14) 1 then
        recordOn 4 s (page b i) 30 false false 0 0 noCtag else s) := by
  show execQuiesceTimeout (page b i) s = _
  rw [execQuiesceTimeout, pageOf_start hi]

theorem quiescedReached_takes {s : State} {b : Block} {i : Nat} (hi : i < blockCount b) (h : quiescing s b i)
    (hidle : blockIdle s b i = true) :
    exec (.quiescedReached (page b i)) s = .next (rset s b i 0x14 (setBit (rget s b i 0x14) 1 true)) := by
  simp [exec_quiescedReached s hi, h.1, h.2, hidle]

theorem quiescedReached_idle {s : State} {b : Block} {i : Nat} (hi : i < blockCount b)
    (h : ¬ (quiescing s b i ∧ blockIdle s b i = true)) : exec (.quiescedReached (page b i)) s = .next s := by
  rw [exec_quiescedReached s hi, if_neg (by simpa [quiescing, and_assoc] using h)]

theorem quiesceTimeout_records {s : State} {b : Block} {i : Nat} (hi : i < blockCount b) (h : quiescing s b i)
    (hq : wbit (rget s b i 0x14) 1 = false) :
    Completes (.quiesceTimeout (page b i)) s (fun t => wbit (rget t b i 0x20) 30 = true ∧ t.mem = s.mem ∧ t.cores = s.cores) := by
  refine ⟨recordOn 4 s (page b i) 30 false false 0 0 noCtag, ?_, ?_, recordOn_mem _ _ _ _ _ _ _ _ _,
    recordOn_cores _ _ _ _ _ _ _ _ _⟩
  · simp [exec_quiesceTimeout s hi, h.1, h.2, hq]
  · exact recordOn_sets 3 s _ _ _ _ _ _ _ (page_mod b i) (by decide)

theorem quiesceTimeout_idle {s : State} {b : Block} {i : Nat} (hi : i < blockCount b)
    (h : ¬ (quiescing s b i ∧ wbit (rget s b i 0x14) 1 = false)) : exec (.quiesceTimeout (page b i)) s = .next s := by
  rw [exec_quiesceTimeout s hi, if_neg (by simpa [quiescing, and_assoc] using h)]

/-! #### The statement -/

/-- Settles O10: CTRL by what a write that is taken leaves and by its request of a reset, the other registers by their own write. -/
theorem headerCommands : Obligations.HeaderCommands := by
  unfold Obligations.HeaderCommands
  refine ⟨⟨fun s req b i v h => ctrlEnableSet_completes v h, fun s req b i v h => ctrlEnableClear_completes v h,
      fun s req b i v h => ⟨ctrlQuiesceSet_completes v h, ctrlQuiesceClear_completes v h⟩,
      fun s req b i v h => ctrlResetReq_completes v h, fun s req b i v hi hb ha ho hr c hc => ?_⟩,
    ⟨fun s b i v h hl => ⟨fun h3 => ?_, fun h3 => ?_⟩, fun s req b i v h hclosed => ?_,
      fun s req b i v h => exec_errStatusClear v h, fun s req b i v h => ⟨fun hv => ?_, fun hv => ?_⟩,
      fun s req b i v h => ⟨fun hnone => ?_, fun hold hleft => ⟨?_, fun hcar => ?_, fun hpf hok => ?_⟩⟩⟩,
    fun s b i hi => ⟨quiescedReached_takes hi, quiescedReached_idle hi, quiesceTimeout_records hi, quiesceTimeout_idle hi⟩⟩
  · have hnone : ∀ w, headerCmd s req (page b i + 0x10) 0x10 w = s := fun w => headerCmd_ctrl_retired w hi hb ha ho hr
    simp only [List.mem_cons, List.not_mem_nil, or_false] at hc
    rcases hc with rfl | rfl | rfl | rfl | rfl <;> exact congrArg Host.Outcome.next (hnone _)
  · rw [exec_accessLevelWrite v h, accessLevelWrite_open v hl, if_neg h3, accessWord_taken]
  · rw [exec_accessLevelWrite v h, accessLevelWrite_open v hl, if_pos h3, accessWord_kept]
  · rw [exec_accessLevelWrite v h, accessLevelWrite_closed v hclosed]
  · rw [exec_errFirstValidClear v h, if_pos hv]
  · rw [exec_errFirstValidClear v h, hv, if_neg (by decide)]
  · rw [exec_intStatusClear v h, intClear_eq, if_neg (by tauto)]
    rfl
  · rw [exec_intStatusClear v h, intClear_eq, if_pos ⟨hold, hleft⟩]
    rfl
  · change Sent (sendInt (intCleared s b i v) (page b i)) _
    rw [sendInt_carillon ((congrArg (fld · 13 12) (rget_intCleared_route s b i v)).trans hcar)]
    simp [Sent, emit]
  · change sendInt (intCleared s b i v) (page b i) = _
    rw [sendInt_pf ((congrArg (fld · 13 12) (rget_intCleared_route s b i v)).trans hpf) (by rw [rget_intCleared_route]; exact hok),
      rget_intCleared_route]
    rfl

end Sys2Proof.Machine
end

/-! ### The MMU: what its records leave (R217, R226, R231, R267)

Before a walk the memory code may find an error in the table entry that it reads, and the walk itself counts bytes on the bridges and
records what it meets. None of this touches the ASID tables of an MMU page, which lie above offset 0x800, nor the count of walks, nor
what the MMU caches. -/

section
namespace Sys2Proof.Machine

/-! #### Registers above 0x800 -/

/-- The registers from offset 0x800 up, on every page, are the same. -/
def HighKept (s t : State) : Prop := ∀ a, 0x800 ≤ a % 0x1000 → regGet t a = regGet s a

/-- A register that recording never writes: the property that it holds a word is kept by records. -/
theorem quietRegister_kept {a : Nat} (w : Word) (ha : errQuiet a) :
    KeptByRecords (fun q => q % 0x1000 = 0) (fun s => regGet s a = w) where
  status s q k hq hs := by
    obtain ⟨h20, -⟩ := ha
    exact (regGet_regSet_ne _ _ (by omega)).trans hs
  first s q w' c' hq hs := by
    obtain ⟨-, h30, h34, h38, -⟩ := ha
    exact (regGet_noteFirst s q w' c' hq h30 h34 h38).trans hs
  queued s e hs := by
    obtain ⟨-, -, -, -, h124⟩ := ha
    exact (regGet_queueEvent s e h124).trans hs
  overflow s b hs := hs
  sent s o hs := hs
  held s l hs := hs
  car := page_mod .car 0
  pce := page_mod .pce 0

theorem errQuiet_high {a : Nat} (ha : 0x800 ≤ a % 0x1000) : errQuiet a := by
  have hcar := page_mod .car 0
  refine ⟨?_, ?_, ?_, ?_, ?_⟩ <;> omega

section
variable {s t u : State} {c : Prop} {inst : Decidable c}

theorem HighKept.refl (s : State) : HighKept s s := fun _ _ => rfl

theorem HighKept.trans (h : HighKept s t) (k : HighKept t u) : HighKept s u := fun a ha => (k a ha).trans (h a ha)

/-- An update of another field than the registers. -/
protected theorem HighKept.frame (h : HighKept s t) (hr : u.regs = t.regs := by rfl) : HighKept s u :=
  fun a ha => (regGet_congr hr a).trans (h a ha)

protected theorem HighKept.ite (ht : HighKept s t) (hu : HighKept s u) : HighKept s (if c then t else u) := by
  split
  · exact ht
  · exact hu

protected theorem HighKept.branch {v : State} (h : HighKept s t) (hu : HighKept s t → HighKept s u)
    (hv : HighKept s t → HighKept s v) : HighKept s (if c then u else v) := .ite (hu h) (hv h)

protected theorem HighKept.when (h : HighKept s t) (hu : HighKept s t → HighKept s u) :
    HighKept s (if c then u else t) := .ite (hu h) h

protected theorem HighKept.whenNot (h : HighKept s t) (hu : HighKept s t → HighKept s u) :
    HighKept s (if c then t else u) := .ite h (hu h)

protected theorem HighKept.foldl {α : Type} {f : State → α → State} {l : List α} (h : HighKept s t)
    (hf : ∀ {u x}, x ∈ l → HighKept s u → HighKept s (f u x)) : HighKept s (l.foldl f t) :=
  List.foldlRecOn l f (motive := HighKept s) h fun _ hu _ hx => hf hx hu

protected theorem HighKept.rset {b i off v} (h : HighKept s t) (ho : off < 0x800 := by decide) :
    HighKept s (rset t b i off v) := by
  have hp := page_mod b i
  exact fun a ha => (regGet_regSet_ne t v (by omega)).trans (h a ha)

protected theorem HighKept.bump {b i off n} (h : HighKept s t) (ho : off < 0x800 := by decide) :
    HighKept s (bump t b i off n) := h.rset ho

protected theorem HighKept.recErr {e i sub det ctag} (h : HighKept s t) : HighKept s (recErr t e i sub det ctag) := by
  have hpce := page_mod .pce 0
  exact fun a ha => (recErr_quiet t e i sub det ctag a (errQuiet_high ha) (by omega)).trans (h a ha)

protected theorem HighKept.stateEvent {b i num detail} (h : HighKept s t) : HighKept s (stateEvent t b i num detail) := by
  have hcar := page_mod .car 0
  exact fun a ha => (regGet_queueEvent t _ (by omega)).trans (h a ha)

protected theorem HighKept.raiseInt {b i k} (h : HighKept s t) : HighKept s (raiseInt t b i k) := by
  have hp := page_mod b i
  intro a ha
  have hset : regGet (regSet t (page b i + 0x40) (regGet t (page b i + 0x40) ||| bitw k)) a = regGet s a :=
    (regGet_regSet_ne _ _ (by omega)).trans (h a ha)
  unfold Machine.raiseInt
  dsimp only
  split
  · exact (quietRegister_kept _ (errQuiet_high ha)).sendInt _ hset
  · exact hset

/-! #### What the memory code finds (R216 to R223) -/

protected theorem HighKept.setPageList {stack l} (h : HighKept s t) : HighKept s (setPageList t stack l) := by
  refine HighKept.rset (h.foldl fun {u i} hi hu => ?_)
  have hi := List.mem_range.1 hi
  split
  · exact (hu.rset (by omega)).rset (by omega)
  · exact (hu.rset (by omega)).rset (by omega)

protected theorem HighKept.pcPermanent {stack pc dead} (h : HighKept s t) : HighKept s (pcPermanent t stack pc dead) := by
  have hoff : (if pc < 32 then 0x118 else 0x11C) < 0x800 := by split <;> decide
  exact h.whenNot fun h => (h.rset hoff).recErr.when (·.frame)

protected theorem HighKept.rowPermanent {stack pc row} (h : HighKept s t) : HighKept s (rowPermanent t stack pc row) := by
  unfold Machine.rowPermanent
  split
  · exact h
  · extract_lets t1 t2 t3 t4 new t5
    have h1 : HighKept s t1 := h.frame
    have h4 : HighKept s t4 := h1.recErr.frame.rset
    have h5 : HighKept s t5 := .ite h4 (.ite h4.recErr.pcPermanent (h4.foldl fun _ hu => hu.setPageList.raiseInt.stateEvent))
    exact h5.when (·.pcPermanent)

protected theorem HighKept.stgRowPermanent {i bank row unc} (h : HighKept s t) :
    HighKept s (stgRowPermanent t i bank row unc) :=
  h.branch (fun h => h.when (·.frame))
    (fun h => h.frame.branch (·.frame.recErr) (fun h1 => h1.rset.recErr.when (·.frame)))

protected theorem HighKept.setHbmLast {stack pc d unc} (h : HighKept s t) : HighKept s (setHbmLast t stack pc d unc) :=
  h.rset.rset

protected theorem HighKept.corePending {n} (h : HighKept s t) : HighKept s (corePending t n) := h.frame (corePending_regs t n)

protected theorem HighKept.memCorr {d permanent} (h : HighKept s t) : HighKept s (memCorr t d permanent) := by
  unfold Machine.memCorr
  split
  · exact (h.setHbmLast.bump (off := 0x128)).recErr.frame.when (·.rowPermanent)
  · exact ((h.rset (off := 0x120)).bump (off := 0x110)).recErr.frame.when (·.stgRowPermanent)
  · exact h.recErr.when (·.corePending)
  · exact h

protected theorem HighKept.memUncorr {d ctag} (h : HighKept s t) : HighKept s (memUncorr t d ctag) := by
  have h0 : HighKept s (poisonGranule t (d / 64)) := h.frame
  unfold Machine.memUncorr
  split
  · exact h0.setHbmLast.bump.recErr.rowPermanent
  · exact h0.rset.bump.recErr.stgRowPermanent
  · exact h0.recErr.frame.when (·.corePending)
  · exact h0

protected theorem HighKept.tlbParity {clu j x} (h : HighKept s t) : HighKept s (tlbParity t clu j x) := h.frame.recErr

end

/-- What the memory code or the parity of a cached entry finds before a walk leaves the ASID tables. -/
theorem walkEcc_highKept (s : State) (clu p asid va acc j : Nat) (ctag : Word) (ecc : Ecc) :
    HighKept s (walkEcc s clu p asid va acc j ctag ecc) := by
  have h := HighKept.refl s
  unfold walkEcc
  dsimp only
  cases ecc with
  | memCorr g => exact h.memCorr
  | memPermanent g => exact h.memCorr
  | memUncorr g => exact h.memUncorr
  | none => exact h
  | uncorr => exact h
  | corr =>
    dsimp only
    split
    · exact h.tlbParity
    · split
      · exact h.tlbParity
      · exact h

/-- The root of an ASID is valid as its table says. -/
theorem HighKept.asidValid {s t : State} (h : HighKept s t) (clu : Nat) {asid : Nat} (ha : asid < 256) :
    asidValid t clu asid = asidValid s clu asid := by
  have hp := page_mod .mmu clu
  unfold Machine.asidValid rget
  rw [h _ (by omega)]

theorem slotAsid_lt (s : State) (n k : Nat) : slotAsid s n k < 256 := Nat.mod_lt _ (by decide)

end Sys2Proof.Machine
end

/-! ### MMU_WALK (R239, R241, R248)

A walk that starts caches the tables that it passes, moves the bytes that it reads, and ends with a leaf that it caches or a fault that it
records. `WalkKept` is what all of it leaves: memory, the cores, what the clusters hold, and the counters at offset 0x118. -/

section
namespace Sys2Proof.Machine

/-! #### What a walk leaves -/

/-- Memory, the cores, the clusters and the counters of walks are the same. -/
structure WalkKept (s t : State) : Prop where
  mem : t.mem = s.mem := by rfl
  cores : t.cores = s.cores := by rfl
  clusters : t.clusters = s.clusters := by rfl
  count : ∀ a, a % 0x1000 = 0x118 → regGet t a = regGet s a := by exact fun _ _ => rfl

section
variable {s t : State}

theorem WalkKept.refl (s : State) : WalkKept s s where

theorem WalkKept.trans {u : State} (h : WalkKept s t) (k : WalkKept t u) : WalkKept s u where
  mem := k.mem.trans h.mem
  cores := k.cores.trans h.cores
  clusters := k.clusters.trans h.clusters
  count a ha := (k.count a ha).trans (h.count a ha)

/-- An error on a page that is no engine's, recorded with its escalation. -/
protected theorem WalkKept.recErr {e : ErrCode} {i sub det ctag} (h : WalkKept s t) (he : pageEngine e.blk = none) :
    WalkKept s (recErr t e i sub det ctag) where
  mem := (recErr_mem t e i sub det ctag).trans h.mem
  cores := (recErr_cores t i sub det ctag he).trans h.cores
  clusters := (recErr_clusters t e i sub det ctag).trans h.clusters
  count a ha := by
    have hcar := page_mod .car 0
    have hpce := page_mod .pce 0
    refine (recErr_quiet t e i sub det ctag a ⟨?_, ?_, ?_, ?_, ?_⟩ ?_).trans (h.count a ha) <;> omega

protected theorem WalkKept.crossBridge {b x n} (h : WalkKept s t) : WalkKept s (crossBridge t b x n) where
  mem := h.mem
  cores := h.cores
  clusters := h.clusters
  count a ha := by
    have hp := page_mod .brg b
    have hoff : (if x < acrossBridge b x then 0x10C else 0x110) < 0x118 := by split <;> decide
    exact (regGet_regSet_ne _ _ (by omega)).trans (h.count a ha)

protected theorem WalkKept.crossAll {x n} {l : List Nat} (h : WalkKept s t) : WalkKept s (crossAll t x n l) := by
  induction l generalizing t x with
  | nil => exact h
  | cons b l ih => exact ih h.crossBridge

protected theorem WalkKept.moveBytes {x y n} (h : WalkKept s t) : WalkKept s (moveBytes t x y n) := by
  unfold Machine.moveBytes
  split
  · exact h
  · exact h.crossAll

protected theorem WalkKept.noteKeyAbsent {d ctag} (h : WalkKept s t) : WalkKept s (noteKeyAbsent t d ctag) := by
  unfold Machine.noteKeyAbsent
  split
  · exact h.recErr rfl
  · exact h

protected theorem WalkKept.memPoisonRead {d ctag} (h : WalkKept s t) : WalkKept s (memPoisonRead t d ctag) := by
  unfold Machine.memPoisonRead
  split
  · exact h.recErr rfl
  · exact h.recErr rfl
  · exact h.recErr rfl
  · exact h

protected theorem WalkKept.foldl {α : Type} {f : State → α → State} {l : List α} (h : WalkKept s t)
    (hf : ∀ {u x}, WalkKept s u → WalkKept s (f u x)) : WalkKept s (l.foldl f t) :=
  List.foldlRecOn l f (motive := WalkKept s) h fun _ hu _ _ => hf hu

end

theorem cluster_congr {s t : State} (h : t.clusters = s.clusters) (c : Nat) : cluster t c = cluster s c := by
  simp [cluster, h]

/-! #### What a walk is made of -/

/-- The walk of R239 from where it starts. -/
def walkResult (u : State) (clu p asid va acc : Nat) : WalkRes :=
  walkFrom u p va acc (walkStart u clu asid va).1 (walkStart u clu asid va).2

/-- The tables that a walk has passed, in the walk cache (R241). -/
def walkPassed (u : State) (clu asid va : Nat) (r : WalkRes) : State :=
  modCluster u clu (fun c => r.tables.reverse.foldl (fun c e => wcAdd c (asid, e.1, vaPrefix va e.1, e.2)) c)

/-- The bytes of its reads have crossed the bridges, and a region without its key is recorded (R226, R231). -/
def walkNoted (u : State) (clu asid va : Nat) (ctag : Word) (r : WalkRes) : State :=
  let s := r.reads.foldl (fun s a => moveBytes s (dpaTile a) (clu / 16) 8) (walkPassed u clu asid va r)
  match r.keyless with
  | some a => noteKeyAbsent s a ctag
  | none => s

/-- The leaf that a walk has found, as the TLB takes it. -/
def walkLeaf (p asid va : Nat) (r : WalkRes) : TlbEnt :=
  { asid := asid, part := p, va := va / pageSize r.level * pageSize r.level, size := pageSize r.level, dpa := entryAddr r.entry,
    entry := r.entry, edpa := r.edpa, level := r.level }

/-- A poisoned table is recorded by its memory, where the walk has not just found it, and by the MMU (R217). -/
def walkPoisonNoted (s : State) (clu j : Nat) (ctag : Word) (fresh : Option Nat) (r : WalkRes) : State :=
  match r.poison with
  | some a => recErr (if fresh = some (a / 64) then s else memPoisonRead s a ctag) eMmuWalkPoison clu j 0 ctag
  | none => s

/-- The records of a walk that faults: a poisoned table, and one outside the partition (R217, R248). -/
def walkFaulted (s : State) (clu j : Nat) (ctag : Word) (fresh : Option Nat) (r : WalkRes) (i : FaultInfo) : State :=
  let s := walkPoisonNoted s clu j ctag fresh r
  if i.type = ftBounds then recErr s eMmuBounds clu j 0 ctag else s

section
variable {s : State} {clu p asid va acc : Nat} (j : Nat) (ctag : Word) (fresh : Option Nat)

theorem mmuWalk_vaRange (h : 2 ^ 48 ≤ va) : mmuWalk s clu p asid va acc j ctag fresh =
    (bump s .mmu clu 0x118 1, .fault ⟨ftVaRange, acc, va % 2 ^ 48, false, 0, 0, 0⟩) := by
  unfold mmuWalk
  dsimp only
  rw [if_pos h]

theorem mmuWalk_asidInvalid (h : va < 2 ^ 48) (ha : asidValid (bump s .mmu clu 0x118 1) clu asid = false) :
    mmuWalk s clu p asid va acc j ctag fresh = (bump s .mmu clu 0x118 1, .fault ⟨ftAsidInvalid, acc, va, false, 0, 0, 0⟩) := by
  unfold mmuWalk
  dsimp only
  rw [if_neg (Nat.not_le.2 h), ha]
  rfl

theorem mmuWalk_ok {d : Nat} (h : va < 2 ^ 48) (ha : asidValid (bump s .mmu clu 0x118 1) clu asid = true)
    (hr : (walkResult (bump s .mmu clu 0x118 1) clu p asid va acc).res = .ok d) :
    mmuWalk s clu p asid va acc j ctag fresh =
      (modCluster (walkNoted (bump s .mmu clu 0x118 1) clu asid va ctag (walkResult (bump s .mmu clu 0x118 1) clu p asid va acc)) clu
        (fun c => tlbAdd c (walkLeaf p asid va (walkResult (bump s .mmu clu 0x118 1) clu p asid va acc))), .ok d) := by
  unfold mmuWalk
  dsimp only
  rw [if_neg (Nat.not_le.2 h), ha]
  unfold walkResult at hr ⊢
  simp only [hr, Bool.not_true, Bool.false_eq_true, if_false]
  rfl

theorem mmuWalk_fault {i : FaultInfo} (h : va < 2 ^ 48) (ha : asidValid (bump s .mmu clu 0x118 1) clu asid = true)
    (hr : (walkResult (bump s .mmu clu 0x118 1) clu p asid va acc).res = .fault i) :
    mmuWalk s clu p asid va acc j ctag fresh =
      (walkFaulted (walkNoted (bump s .mmu clu 0x118 1) clu asid va ctag (walkResult (bump s .mmu clu 0x118 1) clu p asid va acc))
        clu j ctag fresh (walkResult (bump s .mmu clu 0x118 1) clu p asid va acc) i, .fault i) := by
  unfold mmuWalk
  dsimp only
  rw [if_neg (Nat.not_le.2 h), ha]
  unfold walkResult at hr ⊢
  simp only [hr, Bool.not_true, Bool.false_eq_true, if_false]
  rfl

end

/-! #### The parts of a walk, one by one -/

/-- The walk cache takes a pointer and leaves the TLB. -/
theorem wcAdd_tlb (c : Cluster) (e : Nat × Nat × Nat × Nat) : (wcAdd c e).tlb = c.tlb := rfl

theorem walkPassed_tlb (u : State) (clu asid va : Nat) (r : WalkRes) :
    (cluster (walkPassed u clu asid va r) clu).tlb = (cluster u clu).tlb := by
  unfold walkPassed
  rw [cluster_modCluster_self]
  exact List.foldlRecOn _ _ (motive := fun c : Cluster => c.tlb = (cluster u clu).tlb) rfl fun c hc e _ => (wcAdd_tlb c _).trans hc

theorem walkNoted_kept (u : State) (clu asid va : Nat) (ctag : Word) (r : WalkRes) :
    WalkKept (walkPassed u clu asid va r) (walkNoted u clu asid va ctag r) := by
  have h : WalkKept (walkPassed u clu asid va r)
      (r.reads.foldl (fun s a => moveBytes s (dpaTile a) (clu / 16) 8) (walkPassed u clu asid va r)) :=
    (WalkKept.refl _).foldl (·.moveBytes)
  unfold walkNoted
  dsimp only
  split
  · exact h.noteKeyAbsent
  · exact h

theorem walkPoisonNoted_kept (s : State) (clu j : Nat) (ctag : Word) (fresh : Option Nat) (r : WalkRes) :
    WalkKept s (walkPoisonNoted s clu j ctag fresh r) := by
  unfold walkPoisonNoted
  split
  · split
    · exact (WalkKept.refl s).recErr rfl
    · exact (WalkKept.refl s).memPoisonRead.recErr rfl
  · exact .refl s

theorem walkFaulted_kept (s : State) (clu j : Nat) (ctag : Word) (fresh : Option Nat) (r : WalkRes) (i : FaultInfo) :
    WalkKept s (walkFaulted s clu j ctag fresh r i) := by
  have h := walkPoisonNoted_kept s clu j ctag fresh r
  unfold walkFaulted
  dsimp only
  split
  · exact h.recErr rfl
  · exact h

/-- A table outside the partition is recorded. -/
theorem walkFaulted_bounds (s : State) (clu j : Nat) (ctag : Word) (fresh : Option Nat) (r : WalkRes) {i : FaultInfo}
    (h : i.type = ftBounds) : wbit (rget (walkFaulted s clu j ctag fresh r i) .mmu clu 0x20) eMmuBounds.bit = true := by
  unfold walkFaulted
  dsimp only
  rw [if_pos h]
  exact recErr_sets _ eMmuBounds clu _ _ _ (by decide)

/-- A poisoned table is recorded. -/
theorem walkPoisonNoted_sets (s : State) (clu j : Nat) (ctag : Word) (fresh : Option Nat) {r : WalkRes}
    (h : r.poison.isSome = true) : wbit (rget (walkPoisonNoted s clu j ctag fresh r) .mmu clu 0x20) eMmuWalkPoison.bit = true := by
  obtain ⟨a, ha⟩ := Option.isSome_iff_exists.1 h
  unfold walkPoisonNoted
  rw [ha]
  exact recErr_sets _ eMmuWalkPoison clu _ _ _ (by decide)

theorem walkFaulted_poison (s : State) (clu j : Nat) (ctag : Word) (fresh : Option Nat) {r : WalkRes} (i : FaultInfo)
    (h : r.poison.isSome = true) : wbit (rget (walkFaulted s clu j ctag fresh r i) .mmu clu 0x20) eMmuWalkPoison.bit = true := by
  have hp := page_mod .mmu clu
  have hset := walkPoisonNoted_sets s clu j ctag fresh h
  unfold walkFaulted
  dsimp only
  split
  · exact recErr_keeps _ _ _ _ _ _ _ _ (by omega) hset
  · exact hset

/-- What one level of a walk comes to (R239): a fault, a leaf of the level that permits the access, or what the walk gives from the
table that the entry names. -/
inductive WalkStep (s : State) (p va acc lvl : Nat) (r : WalkRes) : Prop where
  | fault (f : FaultInfo) (hres : r.res = .fault f)
  | leaf (hlevel : r.level = lvl) (hperm : leafPermits r.entry acc = true)
      (hres : r.res = .ok (entryAddr r.entry + va % pageSize lvl))
  | next (l t : Nat) (hlvl : lvl = l + 1) (hres : r.res = (walkFrom s p va acc l t).res)
      (hlevel : r.level = (walkFrom s p va acc l t).level) (hentry : r.entry = (walkFrom s p va acc l t).entry)

theorem walkFrom_step (s : State) (p va acc lvl t : Nat) : WalkStep s p va acc lvl (walkFrom s p va acc lvl t) := by
  unfold walkFrom
  extract_lets info a e stop
  split
  · exact .fault _ rfl
  · split
    · exact .fault _ rfl
    · split
      · exact .fault _ rfl
      · split
        · exact .fault _ rfl
        · split
          · split
            · exact .fault _ rfl
            · split
              · exact .fault _ rfl
              · next h => exact .leaf rfl (by simpa using h) rfl
          · cases lvl with
            | zero => exact .fault _ rfl
            | succ l => exact .next l (entryAddr e) rfl rfl rfl rfl

/-- A walk that gives a DPA gives that of its leaf, which permits the access (R239). -/
theorem walkFrom_ok {s : State} {p va acc lvl t d : Nat} (h : (walkFrom s p va acc lvl t).res = .ok d) :
    d = entryAddr (walkFrom s p va acc lvl t).entry + va % pageSize (walkFrom s p va acc lvl t).level ∧
      leafPermits (walkFrom s p va acc lvl t).entry acc = true := by
  induction lvl using Nat.strong_induction_on generalizing t with
  | h lvl ih =>
    cases walkFrom_step s p va acc lvl t with
    | fault f hres => rw [hres] at h; cases h
    | leaf hlevel hperm hres =>
      rw [hres] at h
      rw [hlevel]
      exact ⟨(TrRes.ok.inj h).symm, hperm⟩
    | next l t' hlvl hres hlevel hentry =>
      rw [hlevel, hentry]
      exact ih l (by omega) (hres.symm.trans h)

theorem pageSize_pos (l : Nat) : 0 < pageSize l := by
  unfold pageSize
  split_ifs <;> decide

/-- The leaf that is cached serves the access that walked. -/
theorem walkLeaf_serves (p asid va : Nat) (r : WalkRes) :
    (walkLeaf p asid va r).va ≤ va ∧ va < (walkLeaf p asid va r).va + (walkLeaf p asid va r).size ∧
      (walkLeaf p asid va r).dpa + (va - (walkLeaf p asid va r).va) = entryAddr r.entry + va % pageSize r.level := by
  have hpos := pageSize_pos r.level
  have hdiv := Nat.div_add_mod va (pageSize r.level)
  have hlt := Nat.mod_lt va hpos
  rw [Nat.mul_comm] at hdiv
  simp only [walkLeaf]
  refine ⟨?_, ?_, ?_⟩ <;> omega

/-! #### The command (R57, R239) -/

/-- The result of a walk command, as the cluster shows it. -/
def walkEnd (clu : Nat) : State × TrRes → State
  | (t, .ok d) => modCluster t clu (fun c => { c with lastWalk := some (d, true) })
  | (t, .fault i) => modCluster t clu (fun c => { c with lastWalk := some (i.type, false) })

/-- A quiesced MMU starts no walk (R57). -/
theorem exec_mmuWalk_held {s : State} {n : Nat} (h : accepting s .mmu (coreClu n) = false) (k va acc : Nat) (ecc : Ecc) :
    exec (.mmuWalk n k va acc ecc) s = .next s := by
  show execMmuWalk n k va acc ecc s = _
  unfold execMmuWalk
  dsimp only
  rw [h]
  rfl

theorem exec_mmuWalk {s : State} {n : Nat} (h : accepting s .mmu (coreClu n) = true) (k va acc : Nat) (ecc : Ecc) :
    exec (.mmuWalk n k va acc ecc) s = .next (walkEnd (coreClu n)
      (mmuWalk (walkEcc s (coreClu n) (partOfCore s n) (slotAsid s n k) va acc (coreJ n) (slot s n k).ctag ecc) (coreClu n)
        (partOfCore s n) (slotAsid s n k) va acc (coreJ n) (slot s n k).ctag
        (walkFresh s (coreClu n) (partOfCore s n) (slotAsid s n k) va acc ecc))) := by
  show execMmuWalk n k va acc ecc s = _
  unfold execMmuWalk
  dsimp only
  rw [h]
  rfl

section
variable {v : State} {clu p asid va acc : Nat} (j : Nat) (ctag : Word) (fresh : Option Nat)

/-- The state in which a walk of `v` that starts has read the tables. -/
abbrev walkedOf (v : State) (clu p asid va acc : Nat) (ctag : Word) : State :=
  walkNoted (bump v .mmu clu 0x118 1) clu asid va ctag (walkResult (bump v .mmu clu 0x118 1) clu p asid va acc)

theorem walkedOf_mem : (walkedOf v clu p asid va acc ctag).mem = v.mem := (walkNoted_kept _ _ _ _ _ _).mem

theorem walkedOf_cores : (walkedOf v clu p asid va acc ctag).cores = v.cores := (walkNoted_kept _ _ _ _ _ _).cores

theorem walkedOf_tlb : (cluster (walkedOf v clu p asid va acc ctag) clu).tlb = (cluster v clu).tlb := by
  rw [cluster_congr (walkNoted_kept _ _ _ _ _ _).clusters, walkPassed_tlb, cluster_congr (bump_clusters v .mmu clu 0x118 1)]

/-- A walk that starts is counted (R266). -/
theorem walkedOf_count : rget (walkedOf v clu p asid va acc ctag) .mmu clu 0x118 =
    wd (min 0xFFFFFFFF ((rget v .mmu clu 0x118).toNat + 1)) := by
  have hp := page_mod .mmu clu
  exact ((walkNoted_kept _ _ _ _ _ _).count _ (by omega)).trans (regGet_regSet_self _ _ _)

/-- A fault without a walk: a VA beyond 48 bits, or an ASID without a valid root (R239). -/
theorem walkEnd_atOnce (i : FaultInfo) (hw : mmuWalk v clu p asid va acc j ctag fresh = (bump v .mmu clu 0x118 1, .fault i)) :
    (cluster (walkEnd clu (mmuWalk v clu p asid va acc j ctag fresh)) clu).lastWalk = some (i.type, false) ∧
    (cluster (walkEnd clu (mmuWalk v clu p asid va acc j ctag fresh)) clu).tlb = (cluster v clu).tlb ∧
    (walkEnd clu (mmuWalk v clu p asid va acc j ctag fresh)).mem = v.mem := by
  rw [hw]
  simp only [walkEnd, cluster_modCluster_self]
  exact ⟨trivial, congrArg Cluster.tlb (cluster_congr (bump_clusters v .mmu clu 0x118 1) clu), rfl⟩

/-- A walk that finds a leaf gives its DPA and caches it first (R239, R241). -/
theorem walkEnd_ok {d : Nat} (hva : va < 2 ^ 48) (hvalid : asidValid (bump v .mmu clu 0x118 1) clu asid = true)
    (hr : (walkResult (bump v .mmu clu 0x118 1) clu p asid va acc).res = .ok d) :
    let t := walkEnd clu (mmuWalk v clu p asid va acc j ctag fresh)
    (cluster t clu).lastWalk = some (d, true) ∧
    (∃ e, (cluster t clu).tlb.head? = some e ∧ e.asid = asid ∧ e.part = p ∧ e.va ≤ va ∧ va < e.va + e.size ∧
      e.dpa + (va - e.va) = d ∧ leafPermits e.entry acc = true) ∧
    t.mem = v.mem ∧ t.cores = v.cores ∧
    rget t .mmu clu 0x118 = wd (min 0xFFFFFFFF ((rget v .mmu clu 0x118).toNat + 1)) := by
  intro t
  obtain ⟨hd, hperm⟩ := walkFrom_ok hr
  have ht : t = modCluster (modCluster (walkedOf v clu p asid va acc ctag) clu (fun c => tlbAdd c
      (walkLeaf p asid va (walkResult (bump v .mmu clu 0x118 1) clu p asid va acc)))) clu
      (fun c => { c with lastWalk := some (d, true) }) := by
    show walkEnd clu _ = _
    rw [mmuWalk_ok j ctag fresh hva hvalid hr]
    rfl
  obtain ⟨hlo, hhi, hdpa⟩ := walkLeaf_serves p asid va (walkResult (bump v .mmu clu 0x118 1) clu p asid va acc)
  rw [ht]
  simp only [cluster_modCluster_self]
  exact ⟨trivial, ⟨_, rfl, rfl, rfl, hlo, hhi, hdpa.trans hd.symm, hperm⟩, walkedOf_mem ctag, walkedOf_cores ctag,
    walkedOf_count ctag⟩

/-- A walk that faults caches no translation, and records a poisoned table and one outside the partition (R217, R239, R248). -/
theorem walkEnd_fault {f : FaultInfo} (hva : va < 2 ^ 48) (hvalid : asidValid (bump v .mmu clu 0x118 1) clu asid = true)
    (hr : (walkResult (bump v .mmu clu 0x118 1) clu p asid va acc).res = .fault f) :
    let t := walkEnd clu (mmuWalk v clu p asid va acc j ctag fresh)
    (cluster t clu).lastWalk = some (f.type, false) ∧ (cluster t clu).tlb = (cluster v clu).tlb ∧ t.mem = v.mem ∧
    (f.type = ftBounds → wbit (rget t .mmu clu 0x20) eMmuBounds.bit = true) ∧
    ((walkResult (bump v .mmu clu 0x118 1) clu p asid va acc).poison.isSome = true →
      wbit (rget t .mmu clu 0x20) eMmuWalkPoison.bit = true) ∧
    rget t .mmu clu 0x118 = wd (min 0xFFFFFFFF ((rget v .mmu clu 0x118).toNat + 1)) := by
  intro t
  have ht : t = modCluster (walkFaulted (walkedOf v clu p asid va acc ctag) clu j ctag fresh
      (walkResult (bump v .mmu clu 0x118 1) clu p asid va acc) f) clu (fun c => { c with lastWalk := some (f.type, false) }) := by
    show walkEnd clu _ = _
    rw [mmuWalk_fault j ctag fresh hva hvalid hr]
    rfl
  have hkept := walkFaulted_kept (walkedOf v clu p asid va acc ctag) clu j ctag fresh
    (walkResult (bump v .mmu clu 0x118 1) clu p asid va acc) f
  have hp := page_mod .mmu clu
  rw [ht]
  simp only [cluster_modCluster_self]
  refine ⟨trivial, ?_, hkept.mem.trans (walkedOf_mem ctag), walkFaulted_bounds _ _ _ _ _ _, walkFaulted_poison _ _ _ _ _ _,
    (hkept.count _ (by omega)).trans (walkedOf_count ctag)⟩
  rw [cluster_congr hkept.clusters]
  exact walkedOf_tlb ctag

end

/-- What is found before a walk, and its count, leave the roots of the ASIDs. -/
theorem asidValid_walkEcc (s : State) (n k va acc : Nat) (ecc : Ecc) :
    asidValid (bump (walkEcc s (coreClu n) (partOfCore s n) (slotAsid s n k) va acc (coreJ n) (slot s n k).ctag ecc)
      .mmu (coreClu n) 0x118 1) (coreClu n) (slotAsid s n k) = asidValid s (coreClu n) (slotAsid s n k) :=
  HighKept.asidValid (walkEcc_highKept _ _ _ _ _ _ _ _ _).bump (coreClu n) (slotAsid_lt s n k)

end Sys2Proof.Machine
end

/-! ### Invalidations (R242, R266)

An invalidation goes through the MMUs of its scope one by one. What it drops in one stays dropped, for it only ever removes entries. -/

section
namespace Sys2Proof.Machine

/-! #### What is dropped -/

/-- No cached translation that an invalidation covers is left in a cluster: its TLB, its walk cache, the micro-TLBs of its cores. -/
def InvClean (o : InvOp) (x : Nat) (s : State) : Prop :=
  (∀ e ∈ (cluster s x).tlb, invHits o e = false) ∧ (∀ e ∈ (cluster s x).wc, invHitsWc o e = false) ∧
    ∀ n, coreClu n = x → ∀ e ∈ (core s n).utlb, invHits o e = false

/-- The entry of a map whose values are changed, each by its key. -/
theorem mget_map {α : Type} (m : NMap α) (g : Nat → α → α) (k : Nat) :
    mget (m.map (fun e => (e.1, g e.1 e.2))) k = (mget m k).map (g k) := by
  induction m with
  | nil => rfl
  | cons e t ih =>
    obtain ⟨k', v⟩ := e
    simp only [List.map_cons, mget]
    split
    · next h => rw [h]; rfl
    · exact ih

/-- A core after a drop in cluster `c`: a core of it has lost the entries in scope, another is as it was. -/
theorem core_invDrop (s : State) (o : InvOp) (c n : Nat) :
    core (invDrop s o c) n =
      if coreClu n = c then { core s n with utlb := (core s n).utlb.filter (fun t => !invHits o t) } else core s n := by
  have hmap : (invDrop s o c).cores = s.cores.map (fun e => (e.1,
      if coreClu e.1 = c then { e.2 with utlb := e.2.utlb.filter (fun t => !invHits o t) } else e.2)) := by
    refine List.map_congr_left fun e _ => ?_
    split <;> rfl
  have hget := mget_map s.cores
    (fun k v => if coreClu k = c then { v with utlb := v.utlb.filter (fun t => !invHits o t) } else v) n
  unfold core mgetD
  rw [hmap, hget]
  cases mget s.cores n with
  | some v => rfl
  | none => exact (ite_self (c := coreClu n = c) Core.init).symm

/-- What a drop leaves of the MMU of its cluster. -/
def dropped (o : InvOp) (c : Cluster) : Cluster :=
  { c with tlb := c.tlb.filter (fun e => !invHits o e), wc := c.wc.filter (fun e => !invHitsWc o e) }

theorem cluster_invDrop_self (s : State) (o : InvOp) (c : Nat) : cluster (invDrop s o c) c = dropped o (cluster s c) :=
  cluster_modCluster_self s c (dropped o)

theorem cluster_invDrop_ne (s : State) (o : InvOp) {c x : Nat} (h : x ≠ c) : cluster (invDrop s o c) x = cluster s x :=
  cluster_modCluster_ne s (dropped o) h

theorem not_mem_of_filter {α : Type} {p : α → Bool} {l : List α} : ∀ e ∈ l.filter (fun e => !p e), p e = false := by
  intro e he
  simpa using (List.mem_filter.1 he).2

/-- A drop cleans its cluster. -/
theorem invDrop_clean (s : State) (o : InvOp) (c : Nat) : InvClean o c (invDrop s o c) := by
  refine ⟨?_, ?_, fun n hn => ?_⟩
  · rw [cluster_invDrop_self]
    exact not_mem_of_filter
  · rw [cluster_invDrop_self]
    exact not_mem_of_filter
  · rw [core_invDrop, if_pos hn]
    exact not_mem_of_filter

/-- A drop leaves clean what is clean. -/
theorem InvClean.invDrop {o : InvOp} {x : Nat} {s : State} (h : InvClean o x s) (c : Nat) : InvClean o x (invDrop s o c) := by
  by_cases hx : x = c
  · subst hx
    exact invDrop_clean s o x
  · obtain ⟨htlb, hwc, hutlb⟩ := h
    refine ⟨?_, ?_, fun n hn => ?_⟩
    · rw [cluster_invDrop_ne s o hx]
      exact htlb
    · rw [cluster_invDrop_ne s o hx]
      exact hwc
    · rw [core_invDrop, if_neg (by omega)]
      exact hutlb n hn

theorem InvClean.invDrops {o : InvOp} {x : Nat} {s : State} (h : InvClean o x s) (l : List Nat) :
    InvClean o x (l.foldl (fun s c => Machine.invDrop s o c) s) :=
  List.foldlRecOn l _ (motive := InvClean o x) h fun _ hu c _ => hu.invDrop c

/-- The drops of a list of clusters clean each of them. -/
theorem invDrops_clean (o : InvOp) {l : List Nat} {x : Nat} (hx : x ∈ l) (s : State) :
    InvClean o x (l.foldl (fun s c => Machine.invDrop s o c) s) := by
  induction l generalizing s with
  | nil => cases hx
  | cons c l ih =>
    rcases List.mem_cons.1 hx with rfl | hx
    · exact (invDrop_clean s o x).invDrops l
    · exact ih hx _

/-- Noting the invalidation leaves clean what is clean. -/
theorem InvClean.noted {o : InvOp} {x : Nat} {s : State} (h : InvClean o x s) (clu : Nat) (w : Word) :
    InvClean o x (rset (modCluster s clu (fun c => { c with inv := some o })) .mmu clu 0x110 w) := by
  obtain ⟨htlb, hwc, hutlb⟩ := h
  by_cases hx : x = clu
  · subst hx
    have hc : cluster (rset (modCluster s x (fun c => { c with inv := some o })) .mmu x 0x110 w) x =
        { cluster s x with inv := some o } := cluster_modCluster_self s x (fun c => { c with inv := some o })
    exact ⟨by rw [hc]; exact htlb, by rw [hc]; exact hwc, hutlb⟩
  · have hc : cluster (rset (modCluster s clu (fun c => { c with inv := some o })) .mmu clu 0x110 w) x = cluster s x :=
      cluster_modCluster_ne s (fun c => { c with inv := some o }) hx
    exact ⟨by rw [hc]; exact htlb, by rw [hc]; exact hwc, hutlb⟩

theorem invDrops_mem (s : State) (o : InvOp) (l : List Nat) : (l.foldl (fun s c => invDrop s o c) s).mem = s.mem :=
  List.foldlRecOn l _ (motive := fun t : State => t.mem = s.mem) rfl fun _ hu _ _ => hu

/-! #### The commands that start one -/

/-- The operation that a write of MMU_INV_CMD names, with the VA ranges that it removes (R242, R266). -/
def invOpOf (s : State) (clu op : Nat) (w : Word) : InvOp :=
  let lo := (fld (rget s .mmu clu 0x104) 31 16) * 65536 + (fld (rget s .mmu clu 0x108) 15 0) * 2 ^ 32
  let o : InvOp :=
    { op := op, asid := fld w 7 0, lo := lo, hi := lo + 65536 * max 1 (rget s .mmu clu 0x10C).toNat, key := fld w 21 16
      scope := wbit w 11, startUs := s.us }
  { o with removed := (invScope s clu o).flatMap (invRanges s o) }

/-- The state in which an invalidation is in progress. -/
def invStarted (s : State) (clu : Nat) (o : InvOp) : State :=
  rset (modCluster ((invScope s clu o).foldl (fun s c => invDrop s o c) s) clu (fun c => { c with inv := some o })) .mmu clu 0x110 1

/-- What a write of MMU_INV_CMD does on a page that takes it. -/
def invCommand (clu op : Nat) (w : Word) (s : State) : State :=
  if (cluster s clu).inv.isSome then recErr s eMmuInvOverlap clu 0xFF 0 noCtag
  else if !accepting s .mmu clu then s
  else invStarted s clu (invOpOf s clu op w)

/-- The four commands are the four operations. -/
theorem exec_mmuInv {c : Req → Nat → Word → Instr} {op : Nat}
    (h : (c, op) ∈ [(Instr.mmuInvVaRange, 1), (Instr.mmuInvAsid, 2), (Instr.mmuInvAll, 3), (Instr.mmuInvKey, 4)])
    (req : Req) (clu : Nat) (w : Word) (s : State) :
    exec (c req clu w) s = .next (guardWrite s req .mmu clu 0x100 (invCommand clu op w)) := by
  simp only [List.mem_cons, List.not_mem_nil, or_false, Prod.mk.injEq] at h
  rcases h with ⟨rfl, rfl⟩ | ⟨rfl, rfl⟩ | ⟨rfl, rfl⟩ | ⟨rfl, rfl⟩ <;> rfl

theorem invCommand_overlap {s : State} {clu : Nat} {o : InvOp} (h : (cluster s clu).inv = some o) (op : Nat) (w : Word) :
    invCommand clu op w s = recErr s eMmuInvOverlap clu 0xFF 0 noCtag := by
  rw [invCommand, h]
  rfl

theorem invCommand_held {s : State} {clu : Nat} (h : (cluster s clu).inv = none) (ha : accepting s .mmu clu = false) (op : Nat)
    (w : Word) : invCommand clu op w s = s := by
  rw [invCommand, h, ha]
  rfl

theorem invCommand_starts {s : State} {clu : Nat} (h : (cluster s clu).inv = none) (ha : accepting s .mmu clu = true) (op : Nat)
    (w : Word) : invCommand clu op w s = invStarted s clu (invOpOf s clu op w) := by
  rw [invCommand, h, ha]
  rfl

theorem invStarted_inv (s : State) (clu : Nat) (o : InvOp) : (cluster (invStarted s clu o) clu).inv = some o :=
  congrArg Cluster.inv (cluster_modCluster_self _ clu (fun c => { c with inv := some o }))

theorem invStarted_clean (s : State) (clu : Nat) (o : InvOp) {x : Nat} (hx : x ∈ invScope s clu o) :
    InvClean o x (invStarted s clu o) := (invDrops_clean o hx s).noted clu 1

/-! #### Its end and its timeout -/

theorem exec_mmuInvComplete_none {s : State} {clu : Nat} (h : (cluster s clu).inv = none) :
    exec (.mmuInvComplete clu) s = .next s := by
  show execMmuInvComplete clu s = _
  rw [execMmuInvComplete, h]

theorem exec_mmuInvTimeout_none {s : State} {clu : Nat} (h : (cluster s clu).inv = none) :
    exec (.mmuInvTimeout clu) s = .next s := by
  show execMmuInvTimeout clu s = _
  rw [execMmuInvTimeout, h]

theorem exec_mmuInvComplete_some {s : State} {clu : Nat} {o : InvOp} (h : (cluster s clu).inv = some o) :
    exec (.mmuInvComplete clu) s =
      .next (if (invScope s clu o).any (fun c => invOutstanding s o c || keyOutstanding s o c) then s
        else rset (modCluster s clu (fun c => { c with inv := none })) .mmu clu 0x110 0) := by
  show execMmuInvComplete clu s = _
  rw [execMmuInvComplete, h]

theorem exec_mmuInvTimeout_some {s : State} {clu : Nat} {o : InvOp} (h : (cluster s clu).inv = some o) :
    exec (.mmuInvTimeout clu) s =
      .next (if wbit (rget s .mmu clu 0x110) 1 || s.us < o.startUs + 10000 then s
        else recErr (rset s .mmu clu 0x110 (rget s .mmu clu 0x110 ||| 2)) eMmuInvTimeout clu 0xFF o.op noCtag) := by
  show execMmuInvTimeout clu s = _
  rw [execMmuInvTimeout, h]

/-- After 10 ms the timeout is recorded, and the invalidation goes on (R242). -/
theorem mmuInvTimeout_records {s : State} {clu : Nat} {o : InvOp} (h : (cluster s clu).inv = some o)
    (hnot : wbit (rget s .mmu clu 0x110) 1 = false) (hlate : o.startUs + 10000 ≤ s.us) :
    Completes (.mmuInvTimeout clu) s (fun t =>
      wbit (rget t .mmu clu 0x20) eMmuInvTimeout.bit = true ∧ wbit (rget t .mmu clu 0x110) 1 = true ∧
      (cluster t clu).inv = some o ∧ t.mem = s.mem) := by
  have hexec := exec_mmuInvTimeout_some h
  rw [hnot, decide_eq_false (Nat.not_lt.2 hlate), Bool.false_or, if_neg (by decide)] at hexec
  refine ⟨_, hexec, recErr_sets _ eMmuInvTimeout clu _ _ _ (by decide), ?_, ?_, recErr_mem _ _ _ _ _ _⟩
  · rw [rget_recErr _ _ _ _ _ _ _ _ (by decide) (by decide), rget_rset_self, wbit_or]
    simp [wbit]
  · rw [cluster_congr (recErr_clusters _ _ _ _ _ _)]
    exact h

end Sys2Proof.Machine
end

/-! ### The fault queue (R252, R253, R284) -/

section
namespace Sys2Proof.Machine

/-! #### What is sent stays sent -/

@[simp] theorem queueEvent_out (s : State) (e : Event) : (queueEvent s e).out = s.out := by
  unfold queueEvent
  dsimp only
  split
  · rfl
  · split <;> rfl

@[simp] theorem noteFirst_out (s : State) (pg : Nat) (w c : Word) : (noteFirst s pg w c).out = s.out := by
  unfold noteFirst
  split <;> rfl

/-- Recording takes nothing back that has been sent. -/
theorem sent_kept (o : Out) : KeptByRecords (fun _ => True) (fun s => o ∈ s.out) where
  status _ _ _ _ hs := hs
  first s pg w c _ hs := by rwa [noteFirst_out]
  queued s e hs := by rwa [queueEvent_out]
  overflow _ _ hs := hs
  sent _ _ hs := List.mem_append_left _ hs
  held _ _ hs := hs
  car := trivial
  pce := trivial

/-- The vector of a queue takes nothing back either. -/
theorem queueVector_sent {s : State} {o : Out} (clu vec : Nat) (h : o ∈ s.out) : o ∈ (queueVector s clu vec).out := by
  unfold queueVector
  dsimp only
  split
  · exact List.mem_append_left _ h
  · rw [recErr_of_soft _ _ _ _ _ (by decide)]
    exact (sent_kept o).recordOn 4 _ _ _ _ _ _ trivial (List.mem_append_left _ h)

theorem queueVector_frame (s : State) (clu vec : Nat) :
    (queueVector s clu vec).clusters = s.clusters ∧ (queueVector s clu vec).mem = s.mem := by
  unfold queueVector
  dsimp only
  split
  · exact ⟨rfl, rfl⟩
  · exact ⟨recErr_clusters _ _ _ _ _ _, recErr_mem _ _ _ _ _ _⟩

/-! #### A place in the buffer -/

/-- The record that takes a place in the buffer comes after those that are in it; the queue, what is sent and memory stay (R253). -/
theorem refillBuf_frame (s : State) (clu : Nat) :
    (refillBuf s clu).out = s.out ∧ (refillBuf s clu).mem = s.mem ∧
      (cluster (refillBuf s clu) clu).fqTail = (cluster s clu).fqTail ∧
      (cluster s clu).holdBuf <+: (cluster (refillBuf s clu) clu).holdBuf := by
  unfold refillBuf
  dsimp only
  split
  · exact ⟨rfl, rfl, rfl, ⟨[], List.append_nil _⟩⟩
  · next h r _ =>
    have hbuf : cluster (modCluster s clu (fun c => { c with holdBuf := c.holdBuf ++ [r] })) clu =
        { cluster s clu with holdBuf := (cluster s clu).holdBuf ++ [r] } := cluster_modCluster_self s clu _
    cases h with
    | some p =>
      have hsame : cluster (modStream (modCluster s clu (fun c => { c with holdBuf := c.holdBuf ++ [r] })) p.1 p.2
          (fun x => { x with heldRec := none })) clu = { cluster s clu with holdBuf := (cluster s clu).holdBuf ++ [r] } := hbuf
      dsimp only
      rw [hsame]
      exact ⟨rfl, rfl, rfl, ⟨[r], rfl⟩⟩
    | none =>
      dsimp only
      rw [cluster_modCluster_self, hbuf]
      exact ⟨rfl, rfl, rfl, ⟨[r], rfl⟩⟩

/-! #### FAULT_RECORD_POST -/

/-- The oldest record, written to the host's queue, and the tail moved on. -/
def recordPosted (s : State) (clu : Nat) (r : List Byte) (rest : List (List Byte)) : State :=
  modCluster (emit (moveBytes s (clu / 16) 0 64)
    (.hostWrite (queueFunc s clu) (queueAddr s clu 0xA00 (fqLog s clu) (cluster s clu).fqTail 64) r)) clu
    (fun c => { c with holdBuf := rest, fqTail := (c.fqTail + 1) % 65536 })

theorem postOldest_posts {s : State} {clu : Nat} {r : List Byte} {rest : List (List Byte)}
    (hbuf : (cluster s clu).holdBuf = r :: rest) (hfull : fqFull s clu = false) (hbus : queueBus s clu = true)
    (herr : (cluster s clu).fqError = false) :
    postOldest clu s = refillBuf (if fqCount (cluster s clu) = 0 then queueVector (recordPosted s clu r rest) clu
      (fqVector (recordPosted s clu r rest) clu) else recordPosted s clu r rest) clu := by
  unfold postOldest
  rw [hbuf]
  dsimp only
  rw [hfull, hbus, herr]
  rfl

theorem postOldest_holds {s : State} {clu : Nat} (h : (cluster s clu).holdBuf = [] ∨ fqFull s clu = true ∨
    queueBus s clu = false ∨ (cluster s clu).fqError = true) : postOldest clu s = s := by
  unfold postOldest
  cases hbuf : (cluster s clu).holdBuf with
  | nil => rfl
  | cons r rest =>
    have hstop : (fqFull s clu || !queueBus s clu || (cluster s clu).fqError) = true := by
      rcases h with h | h | h | h
      · rw [hbuf] at h; cases h
      · simp [h]
      · simp [h]
      · simp [h]
    dsimp only
    rw [if_pos hstop]

/-- What posting the oldest record leaves, with or without the queue's vector. -/
theorem recordPosted_frame (s : State) (clu : Nat) (r : List Byte) (rest : List (List Byte)) :
    Out.hostWrite (queueFunc s clu) (queueAddr s clu 0xA00 (fqLog s clu) (cluster s clu).fqTail 64) r ∈ (recordPosted s clu r rest).out ∧
      (cluster (recordPosted s clu r rest) clu).fqTail = ((cluster s clu).fqTail + 1) % 65536 ∧
      (cluster (recordPosted s clu r rest) clu).holdBuf = rest ∧ (recordPosted s clu r rest).mem = s.mem := by
  have hmove : WalkKept s (moveBytes s (clu / 16) 0 64) := (WalkKept.refl s).moveBytes
  have htail : cluster (emit (moveBytes s (clu / 16) 0 64)
      (.hostWrite (queueFunc s clu) (queueAddr s clu 0xA00 (fqLog s clu) (cluster s clu).fqTail 64) r)) clu = cluster s clu :=
    cluster_congr hmove.clusters clu
  unfold recordPosted
  rw [cluster_modCluster_self, htail]
  exact ⟨List.mem_append_right _ (List.mem_singleton.2 rfl), rfl, rfl, hmove.mem⟩

/-- The oldest record goes to the host, and those after it keep their order (R252, R253, R284). -/
theorem faultRecordPost_posts {s : State} {clu : Nat} {r : List Byte} {rest : List (List Byte)}
    (hbuf : (cluster s clu).holdBuf = r :: rest) (hfull : fqFull s clu = false) (hbus : queueBus s clu = true)
    (herr : (cluster s clu).fqError = false) :
    Completes (.faultRecordPost clu) s (fun t =>
      Out.hostWrite (queueFunc s clu) (queueAddr s clu 0xA00 (fqLog s clu) (cluster s clu).fqTail 64) r ∈ t.out ∧
      (cluster t clu).fqTail = ((cluster s clu).fqTail + 1) % 65536 ∧ rest <+: (cluster t clu).holdBuf ∧ t.mem = s.mem) := by
  obtain ⟨hsent, htail, hrest, hmem⟩ := recordPosted_frame s clu r rest
  refine ⟨postOldest clu s, rfl, ?_⟩
  rw [postOldest_posts hbuf hfull hbus herr]
  generalize recordPosted s clu r rest = u at hsent htail hrest hmem
  obtain ⟨hvclu, hvmem⟩ := queueVector_frame u clu (fqVector u clu)
  split
  · obtain ⟨hout, hm, ht, hb⟩ := refillBuf_frame (queueVector u clu (fqVector u clu)) clu
    rw [cluster_congr hvclu] at ht hb
    exact ⟨by rw [hout]; exact queueVector_sent _ _ hsent, ht.trans htail, hrest ▸ hb, hm.trans (hvmem.trans hmem)⟩
  · obtain ⟨hout, hm, ht, hb⟩ := refillBuf_frame u clu
    exact ⟨by rw [hout]; exact hsent, ht.trans htail, hrest ▸ hb, hm.trans hmem⟩

/-! #### The statement -/

/-- Settles O27: the walk by how `mmuWalk` ends, an invalidation by what its drops clean, the fault queue by its oldest record. -/
theorem mmuWork : Obligations.MmuWork := by
  unfold Obligations.MmuWork
  refine ⟨⟨fun s n k va acc ecc h => exec_mmuWalk_held h k va acc ecc, fun s n k va acc ecc h _ => ?_⟩,
    ⟨fun c op hc req clu w => ⟨turnsAway_guardWrite (exec_mmuInv hc req clu w), fun s hs => ?_⟩,
      fun s clu h => ⟨exec_mmuInvComplete_none h, exec_mmuInvTimeout_none h⟩,
      fun s clu o h => ⟨fun hwaits => ?_, fun hwaits => ?_, mmuInvTimeout_records h, fun hnot => ?_⟩⟩,
    fun s clu r rest hbuf hfull hbus herr _ => faultRecordPost_posts hbuf hfull hbus herr,
    fun s clu h => congrArg Host.Outcome.next (postOldest_holds h)⟩
  · have hvalid := asidValid_walkEcc s n k va acc ecc
    have hexec := exec_mmuWalk h k va acc ecc
    refine ⟨fun hva => ⟨_, hexec, ?_⟩, fun hva ha => ⟨_, hexec, ?_⟩,
      fun hva ha => ⟨fun d hr => ⟨_, hexec, ?_⟩, fun f hr => ⟨_, hexec, ?_⟩⟩⟩
    · exact walkEnd_atOnce _ _ _ _ (mmuWalk_vaRange _ _ _ hva)
    · exact walkEnd_atOnce _ _ _ _ (mmuWalk_asidInvalid _ _ _ hva (hvalid.trans ha))
    · exact walkEnd_ok _ _ _ hva (hvalid.trans ha) hr
    · exact walkEnd_fault _ _ _ hva (hvalid.trans ha) hr
  · rw [exec_mmuInv hc, guardWrite_serves hs]
    refine ⟨fun o ho => ?_, fun ho ha => ?_, fun _ ho ha => ⟨invStarted s clu (invOpOf s clu op w), ?_, invOpOf s clu op w,
      invStarted_inv _ _ _, rfl, rfl, rfl, rfl, rfl, rfl, rfl, fun x hx => invStarted_clean _ _ _ hx, rget_rset_self _ _ _ _ _,
      invDrops_mem _ _ _⟩⟩
    · rw [invCommand_overlap ho]
    · rw [invCommand_held ho ha]
    · rw [exec_mmuInv hc, guardWrite_serves hs, invCommand_starts ho ha]
  · rw [exec_mmuInvComplete_some h, hwaits, if_neg (by decide)]
  · rw [exec_mmuInvComplete_some h, hwaits, if_pos rfl]
  · rw [exec_mmuInvTimeout_some h, if_pos (by simpa using hnot)]

end Sys2Proof.Machine
end

/-! ### Cores, slots and tasks: what the shared operations leave (R62, R70, R79, R102, R216 to R223, R239, R480)

Three relations, from the narrowest change to the widest. `UnitsKept`: the units of every core are as they were, which holds of records,
reads of memory, translations, traces and mirrors. `TaskKept`: besides what strands, streams and objects do, one slot may change its
state or begin to end, and its task goes on as it was. `OthersKept`: one slot may change in any way. One lemma per operation says
which it keeps; a proof follows the body of the operation. -/

section
namespace Sys2Proof.Machine

/-! #### The units of the cores -/

/-- Two states of a core agree on its slots and units and on the command that it performs. -/
structure CoreKept (c d : Core) : Prop where
  slots : d.slots = c.slots := by rfl
  strands : d.strands = c.strands := by rfl
  sync : d.sync = c.sync := by rfl
  streams : d.streams = c.streams := by rfl
  busy : d.busy = c.busy := by rfl
  deferred : d.deferred = c.deferred := by rfl
  heldCmd : d.heldCmd = c.heldCmd := by rfl
  ringCmd : d.ringCmd = c.ringCmd := by rfl

/-- The slots and units of every core are as they were. -/
def UnitsKept (s t : State) : Prop := ∀ n, CoreKept (core s n) (core t n)

section
variable {s t u : State} {c : Prop} {inst : Decidable c} {n k m j : Nat}

theorem CoreKept.refl (c : Core) : CoreKept c c where

theorem CoreKept.trans {c d e : Core} (h : CoreKept c d) (g : CoreKept d e) : CoreKept c e where
  slots := g.slots.trans h.slots
  strands := g.strands.trans h.strands
  sync := g.sync.trans h.sync
  streams := g.streams.trans h.streams
  busy := g.busy.trans h.busy
  deferred := g.deferred.trans h.deferred
  heldCmd := g.heldCmd.trans h.heldCmd
  ringCmd := g.ringCmd.trans h.ringCmd

theorem UnitsKept.refl (s : State) : UnitsKept s s := fun _ => .refl _

theorem UnitsKept.trans (h : UnitsKept s t) (g : UnitsKept t u) : UnitsKept s u := fun n => (h n).trans (g n)

theorem UnitsKept.slot (h : UnitsKept s t) (m j : Nat) : slot t m j = slot s m j := by simp only [Machine.slot, (h m).slots]

theorem UnitsKept.strand (h : UnitsKept s t) (m j : Nat) : strand t m j = strand s m j := by
  simp only [Machine.strand, (h m).strands]

theorem UnitsKept.stream (h : UnitsKept s t) (m j : Nat) : stream t m j = stream s m j := by
  simp only [Machine.stream, (h m).streams]

theorem UnitsKept.syncObj (h : UnitsKept s t) (m o : Nat) : syncObj t m o = syncObj s m o := by
  simp only [Machine.syncObj, (h m).sync]

theorem UnitsKept.ringCmd (h : UnitsKept s t) (m : Nat) : (core t m).ringCmd = (core s m).ringCmd := (h m).ringCmd

/-- An update of another field than the cores. -/
protected theorem UnitsKept.frame (h : UnitsKept s t) (hc : u.cores = t.cores := by rfl) : UnitsKept s u := by
  intro n
  rw [core_congr hc]
  exact h n

protected theorem UnitsKept.modCore {f : Core → Core} (h : UnitsKept s t) (hf : ∀ c, CoreKept c (f c)) :
    UnitsKept s (modCore t n f) := by
  intro m
  by_cases hm : m = n
  · subst hm
    rw [core_modCore_self]
    exact (h m).trans (hf _)
  · rw [core_modCore_ne _ _ hm]
    exact h m

protected theorem UnitsKept.ite (ht : UnitsKept s t) (hu : UnitsKept s u) : UnitsKept s (if c then t else u) := by
  split
  · exact ht
  · exact hu

protected theorem UnitsKept.when (h : UnitsKept s t) (hu : UnitsKept s t → UnitsKept s u) :
    UnitsKept s (if c then u else t) := .ite (hu h) h

protected theorem UnitsKept.whenNot (h : UnitsKept s t) (hu : UnitsKept s t → UnitsKept s u) :
    UnitsKept s (if c then t else u) := .ite h (hu h)

protected theorem UnitsKept.foldl {α : Type} {f : State → α → State} {l : List α} (h : UnitsKept s t)
    (hf : ∀ {u x}, UnitsKept s u → UnitsKept s (f u x)) : UnitsKept s (l.foldl f t) :=
  List.foldlRecOn l f (motive := UnitsKept s) h fun _ hu _ _ => hf hu

/-! #### Records -/

/-- What a record brings leaves the cores. -/
theorem unitsKept_records (s : State) : KeptByRecords (fun _ => True) (UnitsKept s) where
  status _ _ _ _ h := h.frame
  first t q w c _ h := h.frame (noteFirst_rec t q w c).cores
  queued t e h := h.frame (queueEvent_rec t e).cores
  overflow _ _ h := h.frame
  sent _ _ h := h.frame
  held _ _ h := h.frame
  car := trivial
  pce := trivial

protected theorem UnitsKept.requestEng {e cause} (h : UnitsKept s t) : UnitsKept s (requestEng t n e cause) :=
  h.modCore fun _ => {}

protected theorem UnitsKept.recErr {e : ErrCode} {i sub det ctag} (h : UnitsKept s t) : UnitsKept s (recErr t e i sub det ctag) :=
  (unitsKept_records s).escalateUnit trivial (fun _ _ _ _ hu => hu.frame (requestChip_cores _ _ _ _)) (fun _ _ _ _ _ _ hu => hu.frame)
    (fun _ _ _ _ hu => hu.requestEng) e i (h.frame (recordOn_cores ..))

protected theorem UnitsKept.bump {b i off x} (h : UnitsKept s t) : UnitsKept s (bump t b i off x) := h.frame

protected theorem UnitsKept.raiseInt {b i x} (h : UnitsKept s t) : UnitsKept s (raiseInt t b i x) := h.frame (raiseInt_cores ..)

protected theorem UnitsKept.stateEvent {b i x d} (h : UnitsKept s t) : UnitsKept s (stateEvent t b i x d) :=
  h.frame (stateEvent_cores ..)

/-! #### Memory -/

protected theorem UnitsKept.noteEcc {kind unit} (h : UnitsKept s t) : UnitsKept s (noteEcc t n kind unit).1 := h.modCore fun _ => {}

protected theorem UnitsKept.corePending (h : UnitsKept s t) : UnitsKept s (corePending t n) := h.whenNot (·.modCore fun _ => {})

protected theorem UnitsKept.setPageList {stack l} (h : UnitsKept s t) : UnitsKept s (setPageList t stack l) := by
  refine UnitsKept.frame (h.foldl fun {u i} hu => ?_)
  split
  · exact hu.frame
  · exact hu.frame

protected theorem UnitsKept.pcPermanent {stack pc dead} (h : UnitsKept s t) : UnitsKept s (pcPermanent t stack pc dead) :=
  h.whenNot fun h => (h.frame (u := rset _ _ _ _ _)).recErr.when (·.frame)

protected theorem UnitsKept.rowPermanent {stack pc row} (h : UnitsKept s t) : UnitsKept s (rowPermanent t stack pc row) := by
  unfold Machine.rowPermanent
  split
  · exact h
  · extract_lets t1 t2 t3 t4 new t5
    have h1 : UnitsKept s t1 := h.frame
    have h4 : UnitsKept s t4 := h1.recErr.frame
    have h5 : UnitsKept s t5 := .ite h4 (.ite h4.recErr.pcPermanent (h4.foldl fun hu => hu.setPageList.raiseInt.stateEvent))
    exact h5.when (·.pcPermanent)

protected theorem UnitsKept.stgRowPermanent {i bank row unc} (h : UnitsKept s t) :
    UnitsKept s (stgRowPermanent t i bank row unc) :=
  .ite (h.when (·.frame)) (.ite (h.frame (u := { t with stgRowsPerm := _, stgSpares := _, stgSubst := _ })).recErr
    ((h.frame (u := rset { t with stgRowsPerm := _ } _ _ _ _)).recErr.when (·.frame)))

protected theorem UnitsKept.memCorr {d permanent} (h : UnitsKept s t) : UnitsKept s (memCorr t d permanent) := by
  unfold Machine.memCorr
  split
  · exact (h.frame (u := Machine.bump (setHbmLast ..) ..)).recErr.frame.when (·.rowPermanent)
  · exact (h.frame (u := Machine.bump (rset ..) ..)).recErr.frame.when (·.stgRowPermanent)
  · exact h.recErr.when (·.corePending)
  · exact h

protected theorem UnitsKept.memUncorr {d ctag} (h : UnitsKept s t) : UnitsKept s (memUncorr t d ctag) := by
  unfold Machine.memUncorr
  split
  · exact (h.frame (u := Machine.bump (setHbmLast ..) ..)).recErr.rowPermanent
  · exact (h.frame (u := Machine.bump (rset ..) ..)).recErr.stgRowPermanent
  · exact (h.frame (u := poisonGranule ..)).recErr.noteEcc.when (·.corePending)
  · exact h.frame

protected theorem UnitsKept.memPoisonRead {d ctag} (h : UnitsKept s t) : UnitsKept s (memPoisonRead t d ctag) := by
  unfold Machine.memPoisonRead
  split
  · exact h.recErr
  · exact h.recErr
  · exact h.recErr
  · exact h

protected theorem UnitsKept.checkRead {d len ecc ctag} (h : UnitsKept s t) : UnitsKept s (checkRead t d len ecc ctag).1 := by
  unfold Machine.checkRead
  extract_lets gs pre fresh t1 t2
  have h1 : UnitsKept s t1 := by
    show UnitsKept s (match ecc with
      | .memCorr g => _
      | .memPermanent g => _
      | _ => t)
    cases ecc with
    | memCorr g => dsimp only; split; exacts [h.memCorr, h]
    | memPermanent g => dsimp only; split; exacts [h.memCorr, h]
    | _ => exact h
  have h2 : ∀ o : Option Nat, UnitsKept s (match o with
      | some x => memUncorr t1 (64 * x) ctag
      | none => t1) := by
    rintro (_ | x)
    · exact h1
    · exact h1.memUncorr
  exact (h2 fresh).foldl (·.memPoisonRead)

protected theorem UnitsKept.crossAll {x} {l : List Nat} (h : UnitsKept s t) : UnitsKept s (crossAll t x n l) := by
  induction l generalizing t x with
  | nil => exact h
  | cons b l ih => exact ih h.frame

protected theorem UnitsKept.moveBytes {x y} (h : UnitsKept s t) : UnitsKept s (moveBytes t x y n) := h.whenNot (·.crossAll)

protected theorem UnitsKept.noteKeyAbsent {d ctag} (h : UnitsKept s t) : UnitsKept s (noteKeyAbsent t d ctag) := by
  unfold Machine.noteKeyAbsent
  split
  · exact h.recErr
  · exact h

protected theorem UnitsKept.fetchMem {d len ctag} (h : UnitsKept s t) : UnitsKept s (fetchMem t n d len ctag).1 := by
  unfold Machine.fetchMem Machine.readData
  split
  · exact h.moveBytes.noteKeyAbsent
  · exact h.moveBytes

protected theorem UnitsKept.writeMem {d bs} (h : UnitsKept s t) : UnitsKept s (writeMem t d bs) := h.frame

protected theorem UnitsKept.tagWriter {off len asid p} (h : UnitsKept s t) : UnitsKept s (tagWriter t n off len asid p) :=
  h.whenNot (·.modCore fun _ => {})

protected theorem UnitsKept.writeWin {off bs} (h : UnitsKept s t) : UnitsKept s (writeWin t n k off bs) := h.writeMem.tagWriter

/-! #### Translation -/

/-- A walk leaves the cores. -/
theorem mmuWalk_cores (s : State) (clu p asid va acc j : Nat) (ctag : Word) (fresh : Option Nat) :
    (mmuWalk s clu p asid va acc j ctag fresh).1.cores = s.cores := by
  by_cases hva : 2 ^ 48 ≤ va
  · rw [mmuWalk_vaRange _ _ _ hva]
    rfl
  · cases ha : asidValid (Machine.bump s .mmu clu 0x118 1) clu asid with
    | false =>
      rw [mmuWalk_asidInvalid _ _ _ (Nat.lt_of_not_le hva) ha]
      rfl
    | true =>
      cases hr : (walkResult (Machine.bump s .mmu clu 0x118 1) clu p asid va acc).res with
      | ok d =>
        rw [mmuWalk_ok _ _ _ (Nat.lt_of_not_le hva) ha hr]
        exact (walkNoted_kept ..).cores
      | fault i =>
        rw [mmuWalk_fault _ _ _ (Nat.lt_of_not_le hva) ha hr]
        exact (walkFaulted_kept ..).cores.trans (walkNoted_kept ..).cores

protected theorem UnitsKept.translate {asid va acc ctag} (h : UnitsKept s t) :
    UnitsKept s (translate t n asid va acc ctag).1 := by
  unfold Machine.translate
  extract_lets clu p use
  have huse : ∀ {v e}, UnitsKept s v → UnitsKept s (use v e).1 := by
    intro v e hv
    show UnitsKept s (if leafPermits e.entry acc then (v, TrRes.ok _) else (v, TrRes.fault _)).1
    split
    · exact hv
    · exact hv
  split
  · exact h
  · split
    · exact huse h
    · split
      · exact huse (h.bump.modCore fun _ => {})
      · have hw : UnitsKept s (mmuWalk t clu p asid va acc (coreJ n) ctag none).1 := h.frame (mmuWalk_cores ..)
        generalize mmuWalk t clu p asid va acc (coreJ n) ctag none = q at hw
        obtain ⟨v, d | i⟩ := q
        · show UnitsKept s (match (cluster v clu).tlb.head? with
            | some e => Machine.modCore v n _
            | none => v)
          split
          · exact hw.modCore fun _ => {}
          · exact hw
        · exact hw

protected theorem UnitsKept.readVa {fuel asid acc va off len ctag ecc} (h : UnitsKept s t) :
    UnitsKept s (readVa fuel t n asid acc va off len ctag ecc).1 := by
  induction fuel generalizing t off ecc with
  | zero => exact h
  | succ fuel ih =>
    unfold Machine.readVa
    split
    · exact h
    · dsimp only
      have htr := h.translate (n := n) (asid := asid) (va := va + off) (acc := acc) (ctag := ctag)
      split
      · next heq => rw [heq] at htr; exact htr
      · next v d heq =>
        rw [heq] at htr
        have hck := UnitsKept.checkRead (d := d) (len := pagePart (va + off) (len - off)) (ecc := ecc) (ctag := ctag) htr
        split
        · next heq => rw [heq] at hck; exact hck
        · next heq =>
          rw [heq] at hck
          have hrest := ih (off := off + pagePart (va + off) (len - off))
            (ecc := eccAfter ecc (granules d (pagePart (va + off) (len - off))).length)
            (hck.fetchMem (n := n) (d := d) (len := pagePart (va + off) (len - off)) (ctag := ctag))
          split
          · next heq => rw [heq] at hrest; exact hrest
          · exact hrest

/-! #### Posted records, traces and mirrors -/

protected theorem UnitsKept.postRec {clu r} (h : UnitsKept s t) : UnitsKept s (postRec t clu r) := by
  have hp : UnitsKept s (postRecord t clu r).1 := by
    unfold postRecord
    dsimp only
    split
    · exact (UnitsKept.ite (h.frame (u := modCluster (modCluster ..) ..)) h.frame).recErr.raiseInt
    · exact .ite h.frame h.frame
  unfold Machine.postRec
  dsimp only
  split
  · exact hp
  · exact hp.frame

protected theorem UnitsKept.postFault {i flags stream desc off} (h : UnitsKept s t) :
    UnitsKept s (postFault t n k i flags stream desc off) := h.bump.postRec

protected theorem UnitsKept.traceRec {ev step} (h : UnitsKept s t) : UnitsKept s (traceRec t n k ev step) := h.whenNot (·.frame)

protected theorem UnitsKept.mirror (h : UnitsKept s t) : UnitsKept s (mirror t n k) := h.modCore fun _ => {}

protected theorem UnitsKept.cqPush {clu ring e} (h : UnitsKept s t) : UnitsKept s (cqPush t clu ring e) := h.frame

end
end Sys2Proof.Machine
end

section
namespace Sys2Proof.Machine

/-! #### One slot changes -/

/-- Every slot but one is as it was, and no core has taken or completed a ring command. -/
structure OthersKept (s t : State) (n k : Nat) : Prop where
  slots : OtherSlots s t n k
  ring : ∀ m, (core t m).ringCmd = (core s m).ringCmd

/-- A task goes on: its slot may change its state, and what follows from the state, or begin to end. -/
def SameTask (a b : Slot) : Prop :=
  b = { a with st := b.st, idleUs := b.idleUs, hangRaised := b.hangRaised, ending := b.ending }

/-- Only one slot may have changed, and its task goes on. -/
structure TaskKept (s t : State) (n k : Nat) : Prop extends OthersKept s t n k where
  task : SameTask (slot s n k) (slot t n k)

theorem SameTask.refl (a : Slot) : SameTask a a := rfl

theorem SameTask.trans {a b c : Slot} (h : SameTask a b) (g : SameTask b c) : SameTask a c := by
  unfold SameTask at h g ⊢
  rw [h] at g
  exact g

section
variable {s t u : State} {c : Prop} {inst : Decidable c} {n k m j : Nat}

theorem OthersKept.refl (s : State) (n k : Nat) : OthersKept s s n k := ⟨fun _ _ _ => rfl, fun _ => rfl⟩

theorem OthersKept.trans (h : OthersKept s t n k) (g : OthersKept t u n k) : OthersKept s u n k :=
  ⟨fun m j hmj => (g.slots m j hmj).trans (h.slots m j hmj), fun m => (g.ring m).trans (h.ring m)⟩

protected theorem OthersKept.units (h : OthersKept s t n k) (g : UnitsKept t t → UnitsKept t u) : OthersKept s u n k :=
  h.trans ⟨fun m j _ => (g (.refl t)).slot m j, (g (.refl t)).ringCmd⟩

/-- An update of another field than the cores. -/
protected theorem OthersKept.frame (h : OthersKept s t n k) (hc : u.cores = t.cores := by rfl) : OthersKept s u n k :=
  h.units (·.frame hc)

theorem slot_modCore {f : Core → Core} (s : State) (n m j : Nat) (hf : ∀ c, (f c).slots = c.slots := by intro; rfl) :
    slot (modCore s n f) m j = slot s m j := by
  unfold slot
  by_cases hm : m = n
  · rw [hm, core_modCore_self, hf]
  · rw [core_modCore_ne _ _ hm]

theorem ringCmd_modCore {f : Core → Core} (s : State) (n m : Nat) (hf : ∀ c, (f c).ringCmd = c.ringCmd := by intro; rfl) :
    (core (modCore s n f) m).ringCmd = (core s m).ringCmd := by
  by_cases hm : m = n
  · rw [hm, core_modCore_self, hf]
  · rw [core_modCore_ne _ _ hm]

@[simp] theorem slot_modStrand (s : State) (n i : Nat) (f : Strand → Strand) (m j : Nat) :
    slot (modStrand s n i f) m j = slot s m j := slot_modCore s n m j

@[simp] theorem slot_modStream (s : State) (n i : Nat) (f : Stream → Stream) (m j : Nat) :
    slot (modStream s n i f) m j = slot s m j := slot_modCore s n m j

@[simp] theorem slot_modSync (s : State) (n i : Nat) (f : SyncObj → SyncObj) (m j : Nat) :
    slot (modSync s n i f) m j = slot s m j := slot_modCore s n m j

@[simp] theorem slot_bump (s : State) (b : Block) (i off x m j : Nat) : slot (bump s b i off x) m j = slot s m j := rfl

protected theorem OthersKept.modCore {f : Core → Core} (h : OthersKept s t n k) (hs : ∀ c, (f c).slots = c.slots := by intro; rfl)
    (hr : ∀ c, (f c).ringCmd = c.ringCmd := by intro; rfl) : OthersKept s (modCore t m f) n k :=
  h.trans ⟨fun m' j _ => slot_modCore t m m' j hs, fun m' => ringCmd_modCore t m m' hr⟩

protected theorem OthersKept.modSlot {f} (h : OthersKept s t n k) : OthersKept s (modSlot t n k f) n k :=
  h.trans ⟨fun _ _ hmj => slot_modSlot_ne t f hmj, fun m => ringCmd_modCore t n m⟩

protected theorem OthersKept.ite (ht : OthersKept s t n k) (hu : OthersKept s u n k) : OthersKept s (if c then t else u) n k := by
  split
  · exact ht
  · exact hu

protected theorem OthersKept.foldl {α : Type} {f : State → α → State} {l : List α} (h : OthersKept s t n k)
    (hf : ∀ {u x}, OthersKept s u n k → OthersKept s (f u x) n k) : OthersKept s (l.foldl f t) n k :=
  List.foldlRecOn l f (motive := (OthersKept s · n k)) h fun _ hu _ _ => hf hu

/-! #### A task goes on -/

theorem TaskKept.refl (s : State) (n k : Nat) : TaskKept s s n k := ⟨.refl s n k, .refl _⟩

theorem TaskKept.trans (h : TaskKept s t n k) (g : TaskKept t u n k) : TaskKept s u n k :=
  ⟨h.toOthersKept.trans g.toOthersKept, h.task.trans g.task⟩

protected theorem TaskKept.units (h : TaskKept s t n k) (g : UnitsKept t t → UnitsKept t u) : TaskKept s u n k := by
  refine ⟨h.toOthersKept.units g, ?_⟩
  rw [(g (.refl t)).slot]
  exact h.task

protected theorem TaskKept.frame (h : TaskKept s t n k) (hc : u.cores = t.cores := by rfl) : TaskKept s u n k :=
  h.units (·.frame hc)

protected theorem TaskKept.modCore {f : Core → Core} (h : TaskKept s t n k) (hs : ∀ c, (f c).slots = c.slots := by intro; rfl)
    (hr : ∀ c, (f c).ringCmd = c.ringCmd := by intro; rfl) : TaskKept s (modCore t m f) n k := by
  refine ⟨h.toOthersKept.modCore hs hr, ?_⟩
  rw [slot_modCore _ _ _ _ hs]
  exact h.task

protected theorem TaskKept.modSync {o f} (h : TaskKept s t n k) : TaskKept s (modSync t m o f) n k := h.modCore

protected theorem TaskKept.modStrand {i f} (h : TaskKept s t n k) : TaskKept s (modStrand t m i f) n k := h.modCore

protected theorem TaskKept.modStream {i f} (h : TaskKept s t n k) : TaskKept s (modStream t m i f) n k := h.modCore

protected theorem TaskKept.modSlot {f} (h : TaskKept s t n k) (hf : ∀ a, SameTask a (f a) := by intro; rfl) :
    TaskKept s (modSlot t n k f) n k := by
  refine ⟨h.toOthersKept.modSlot, ?_⟩
  rw [slot_modSlot_self]
  exact h.task.trans (hf _)

protected theorem TaskKept.ite (ht : TaskKept s t n k) (hu : TaskKept s u n k) : TaskKept s (if c then t else u) n k := by
  split
  · exact ht
  · exact hu

protected theorem TaskKept.when (h : TaskKept s t n k) (hu : TaskKept s t n k → TaskKept s u n k) :
    TaskKept s (if c then u else t) n k := .ite (hu h) h

protected theorem TaskKept.whenNot (h : TaskKept s t n k) (hu : TaskKept s t n k → TaskKept s u n k) :
    TaskKept s (if c then t else u) n k := .ite h (hu h)

protected theorem TaskKept.foldl {α : Type} {f : State → α → State} {l : List α} (h : TaskKept s t n k)
    (hf : ∀ {u x}, TaskKept s u n k → TaskKept s (f u x) n k) : TaskKept s (l.foldl f t) n k :=
  List.foldlRecOn l f (motive := (TaskKept s · n k)) h fun _ hu _ _ => hf hu

protected theorem TaskKept.setSt {x} (h : TaskKept s t n k) : TaskKept s (setSt t n k x) n k := by
  unfold Machine.setSt
  dsimp only
  split
  · exact h
  · exact (TaskKept.ite h.modSlot (h.modSlot.units (·.traceRec))).units (·.mirror)

protected theorem TaskKept.refresh (h : TaskKept s t n k) : TaskKept s (refresh t n k) n k := h.when (·.setSt)

protected theorem TaskKept.endCtx {cause err out} (h : TaskKept s t n k) : TaskKept s (endCtx t n k cause err out) n k :=
  h.whenNot (·.modSlot)

protected theorem TaskKept.errCtx {e det} (h : TaskKept s t n k) : TaskKept s (errCtx t e n k det) n k :=
  (h.units (·.recErr)).endCtx

protected theorem TaskKept.wakeStrands (h : TaskKept s t n k) : TaskKept s (wakeStrands t n k) n k := by
  refine h.foldl fun {u i} hu => ?_
  split
  · split
    · exact hu.when fun hu => (hu.whenNot (·.frame)).modSync.modStrand
    · exact hu
  · exact hu

protected theorem TaskKept.wake (h : TaskKept s t n k) : TaskKept s (wake t n k) n k := h.when (·.wakeStrands.refresh)

protected theorem TaskKept.syncOp {i op remote} (h : TaskKept s t n k) : TaskKept s (syncOp t n k i op remote) n k := by
  unfold Machine.syncOp
  split
  · exact h
  · dsimp only
    split
    · exact h.errCtx
    · exact .when (.when (.modCore (.modSync (.when h.frame (·.frame)))) (·.errCtx)) (·.errCtx)

end

/-! #### The state of a slot -/

section
variable (s : State) (n k : Nat)

/-- A slot shows the state that it has entered. -/
@[simp] theorem setSt_st (x : SlotState) : (slot (setSt s n k x) n k).st = x := by
  unfold setSt
  dsimp only
  split
  · assumption
  · rw [(UnitsKept.refl _).mirror.slot]
    have htrace (ev step : Nat) (v : State) : slot (if ev = 0 then v else traceRec v n k ev step) n k = slot v n k := by
      split
      · rfl
      · exact (UnitsKept.refl v).traceRec.slot n k
    exact (congrArg Slot.st (htrace _ _ _)).trans (by rw [slot_modSlot_self])

/-- A slot that the engines serve: ACTIVE or WAITING (R79). -/
def Serving (sl : Slot) : Prop := sl.st = .active ∨ sl.st = .waiting

variable {s n k}

theorem refresh_serving (h : Serving (slot s n k)) : Serving (slot (refresh s n k) n k) := by
  unfold refresh
  dsimp only
  split
  · rw [Serving, setSt_st]
    split
    · exact .inr rfl
    · exact .inl rfl
  · exact h

theorem refresh_idle (h : ¬ Serving (slot s n k)) : refresh s n k = s := by
  unfold refresh
  dsimp only
  rw [if_neg]
  simpa [Serving] using h

/-- Waking strands leaves every slot. -/
theorem slot_wakeStrands (s : State) (n k m j : Nat) : slot (wakeStrands s n k) m j = slot s m j := by
  refine List.foldlRecOn (motive := fun u : State => slot u m j = slot s m j) _ _ rfl fun u hu i _ => ?_
  split
  · split
    · split
      · split
        · simpa using hu
        · simpa using hu
      · exact hu
    · exact hu
  · exact hu

theorem wake_serving (h : Serving (slot s n k)) : Serving (slot (wake s n k) n k) := by
  unfold wake
  split
  · exact refresh_serving ((slot_wakeStrands s n k n k).symm ▸ h)
  · exact h

theorem wake_idle_slot (h : ¬ Serving (slot s n k)) : slot (wake s n k) n k = slot s n k := by
  unfold wake
  split
  · rw [refresh_idle ((slot_wakeStrands s n k n k).symm ▸ h), slot_wakeStrands]
  · rfl

/-- Waking strands leaves memory. -/
@[simp] theorem wakeStrands_mem (s : State) (n k : Nat) : (wakeStrands s n k).mem = s.mem := by
  refine List.foldlRecOn (motive := fun u : State => u.mem = s.mem) _ _ rfl fun u hu i _ => ?_
  split
  · split
    · split
      · split
        · exact hu
        · exact hu
      · exact hu
    · exact hu
  · exact hu

/-! #### A task leaves its slot -/

/-- The slot that a task has left with an outcome (R79). -/
def leftSlot (sl : Slot) (outcome : Nat) : Slot :=
  { sl with
    st := .free, outcome := outcome, strands := [], banks := [], blocks := [], streams := [], ending := none,
    inflight := [], buf := [], loops := [], bind := none, loaded := false, haltPending := false,
    stepOnce := false, stepOrd := none, notify := none, saving := false, restoring := false, granted := false,
    grantAsked := false, idleUs := 0 }

/-- Leaving a slot posts records and gives back what the task held; then the slot is `leftSlot`. The other slots and the ring commands
stay. -/
theorem leaveSlot_frame (s : State) (n k outcome : Nat) :
    slot (leaveSlot s n k outcome) n k = leftSlot (slot s n k) outcome ∧ OthersKept s (leaveSlot s n k outcome) n k := by
  unfold leaveSlot
  extract_lets s1 sl clu s2 s3 objs back s4 s5 s6
  have h1 : UnitsKept s s1 := (UnitsKept.refl s).traceRec
  have h2 : UnitsKept s s2 := by
    show UnitsKept s (match sl.notify with
      | some (ring, user) => _
      | none => s1)
    split
    · exact h1.cqPush
    · exact h1
  have h4 : UnitsKept s s4 := UnitsKept.frame (h2.foldl (·.frame) : UnitsKept s s3)
  have h5 : slot s5 n k = slot s n k := (slot_modCore s4 n n k).trans (h4.slot n k)
  constructor
  · rw [(UnitsKept.refl s6).mirror.slot]
    exact (slot_modSlot_self s5 n k (leftSlot · outcome)).trans (by rw [h5])
  · exact ((((OthersKept.refl s n k).units fun _ => h4).modCore : OthersKept s s5 n k).modSlot : OthersKept s s6 n k).units (·.mirror)

theorem slot_leaveSlot (s : State) (n k outcome : Nat) : slot (leaveSlot s n k outcome) n k = leftSlot (slot s n k) outcome :=
  (leaveSlot_frame s n k outcome).1

protected theorem OthersKept.leaveSlot {s t : State} {n k outcome : Nat} (h : OthersKept s t n k) :
    OthersKept s (leaveSlot t n k outcome) n k := h.trans (leaveSlot_frame t n k outcome).2

/-- A rudiment whose steps have all completed, on a slot about to be ACTIVE (R148). -/
def StepsOver (sl : Slot) : Prop := sl.loaded = true ∧ sl.pos = hdStepCount sl ∧ sl.inflight = []

/-- `checkDone` either lets the task go on, or the rudiment is complete and the task leaves with outcome DONE. -/
theorem checkDone_cases (s : State) (n k : Nat) :
    checkDone s n k = refresh s n k ∨
    (StepsOver (slot s n k) ∧ checkDone s n k = leaveSlot (refresh s n k) n k 1) := by
  have htask : SameTask (slot s n k) (slot (refresh s n k) n k) := ((TaskKept.refl s n k).refresh).task
  unfold checkDone
  dsimp only
  split
  · next h =>
    simp only [Bool.and_eq_true, decide_eq_true_eq, List.isEmpty_iff] at h
    obtain ⟨⟨⟨⟨⟨⟨hload, hpos⟩, -⟩, hfl⟩, -⟩, -⟩, -⟩ := h
    rw [htask] at hload hpos hfl
    exact .inr ⟨⟨hload, hpos, hfl⟩, rfl⟩
  · exact .inl rfl

protected theorem OthersKept.checkDone {s t : State} {n k : Nat} (h : OthersKept s t n k) :
    OthersKept s (checkDone t n k) n k := by
  have hr := h.trans ((TaskKept.refl t n k).refresh).toOthersKept
  obtain heq | ⟨-, heq⟩ := checkDone_cases t n k
  · rw [heq]
    exact hr
  · rw [heq]
    exact hr.leaveSlot

end
end Sys2Proof.Machine
end

/-! ### Commands of a context slot (R79, R80, R438, R463)

A command that the SQ takes runs `sqPerform`; each command changes its slot by the operations of `TaskKept` and ends with its result. -/

section
namespace Sys2Proof.Machine

/-! #### The result of a command -/

section
variable (s : State) (n k res : Nat)

/-- A result leaves every slot. -/
@[simp] theorem slot_sqResult (m j : Nat) : slot (sqResult s n k res) m j = slot s m j := by
  unfold sqResult
  dsimp only
  have hcore := slot_modCore (f := fun c => { c with busy := false, deferred := none, heldCmd := none, ringCmd := none }) s n m j
  split
  · exact hcore
  · exact hcore

@[simp] theorem sqResult_mem : (sqResult s n k res).mem = s.mem := by
  unfold sqResult
  dsimp only
  split
  · rfl
  · rfl

@[simp] theorem slot_sqBusy (m j : Nat) : slot (sqBusy s n k) m j = slot s m j :=
  slot_modCore (f := fun c => { c with busy := true }) s n m j

theorem sqBusy_busyIs : BusyIs (sqBusy s n k) n k := ⟨by simp [sqBusy, rset, regSet, core, modCore], rget_rset_self ..⟩

variable {s n k}

/-- A command that no ring waits for shows its result (R80, R100). -/
theorem sqResult_resultIs (h : (core s n).ringCmd = none) : ResultIs (sqResult s n k res) n k res := by
  unfold sqResult
  rw [h]
  exact rget_rset_self ..

end

/-- A command of a slot that leaves the others ends with its result. -/
theorem OthersKept.answered {s t : State} {n k : Nat} (h : OthersKept s t n k) (res : Nat) (hown : (core s n).ringCmd = none) :
    ResultIs (sqResult t n k res) n k res ∧ OtherSlots s (sqResult t n k res) n k :=
  ⟨sqResult_resultIs res ((h.ring n).trans hown), fun m j hmj => (slot_sqResult t n k res m j).trans (h.slots m j hmj)⟩

/-- A command that answers at once changes no slot. -/
theorem sqResult_atOnce {s : State} {n : Nat} (k res : Nat) (hown : (core s n).ringCmd = none) :
    ResultIs (sqResult s n k res) n k res ∧ SlotsKept s (sqResult s n k res) :=
  ⟨sqResult_resultIs res hown, slot_sqResult s n k res, sqResult_mem s n k res⟩

/-! #### Which commands the SQ takes -/

/-- The commands of a slot with their OP codes (R100). -/
def sqOps : List ((Req → Nat → Nat → Instr) × Nat) :=
  [(.sqInstall, 1), (.sqPreempt, 2), (.sqResume, 3), (.sqHalt, 4), (.sqUnhalt, 5), (.sqStep, 6)]

theorem exec_sqOp {c : Req → Nat → Nat → Instr} {op : Nat} (h : (c, op) ∈ sqOps) (req : Req) (n k : Nat) (s : State) :
    exec (c req n k) s = .next (sqCmd s req n k op) := by
  simp only [sqOps, List.mem_cons, Prod.mk.injEq, List.not_mem_nil, or_false] at h
  rcases h with ⟨rfl, rfl⟩ | ⟨rfl, rfl⟩ | ⟨rfl, rfl⟩ | ⟨rfl, rfl⟩ | ⟨rfl, rfl⟩ | ⟨rfl, rfl⟩ <;> rfl

theorem sqOps_op {c : Req → Nat → Nat → Instr} {op : Nat} (h : (c, op) ∈ sqOps) : op ≠ 0 := by
  simp only [sqOps, List.mem_cons, Prod.mk.injEq, List.not_mem_nil, or_false] at h
  omega

/-- The OP code of a listed command. -/
theorem sqOps_of_mem {c : Req → Nat → Nat → Instr} (h : c ∈ sqOps.map (·.1)) : ∃ op, (c, op) ∈ sqOps := by
  obtain ⟨⟨_, op⟩, hmem, rfl⟩ := List.mem_map.1 h
  exact ⟨op, hmem⟩

section
variable {s : State} {req : Req} {n k op : Nat}

/-- An SQ that is retired, dark or in reset takes no command (R53, R60). -/
theorem sqCmd_deaf (ha : answered s req = true) (ho : pageOpen s req (page .sq n) = true)
    (h : pageRetired s .sq n = true ∨ pageDark s .sq = true ∨ pageInReset s .sq n = true) : sqCmd s req n k op = s := by
  unfold sqCmd guardWrite
  rcases h with h | h | h
  · simp [ha, ho, h]
  · simp [ha, ho, h]
  · simp [ha, ho, h]

/-- A command while one is in progress (R80). -/
theorem sqCmd_overlap (ha : answered s req = true) (ho : pageOpen s req (page .sq n) = true) (hd : pageDark s .sq = false)
    (hr : pageRetired s .sq n = false) (hi : pageInReset s .sq n = false) (hb : (core s n).busy = true) :
    sqCmd s req n k op = recErr s eSqCmdOverlap n k 0 (slot s n k).ctag := by
  simp [sqCmd, guardWrite, ha, ho, hd, hr, hi, hb]

theorem sqCmd_heard (h : SqHears s req n) : sqCmd s req n k op = sqPerform s n k op := by
  simp [sqCmd, guardWrite, h.inTime, h.isOpen, h.lit, h.alive, h.running, h.idle]

theorem sqPerform_frozen (h : frozen s = true) : sqPerform s n k op = sqResult s n k resDenied := by simp [sqPerform, h]

theorem sqPerform_ending (hf : frozen s = false) (he : (slot s n k).ending.isSome = true) (hop : op ≠ 0) :
    sqPerform s n k op = sqBusy (modCore s n (fun c => { c with heldCmd := some (op, k, []) })) n k := by
  simp [sqPerform, hf, he, hop]

/-- A command for a slot that the SQ takes: what is left of `sqPerform` is the command itself. -/
theorem SqTakes.perform (h : SqTakes s req n k) : sqPerform s n k op =
    if op = 1 then installCmd s n k none else if op = 2 then preemptCmd s n k else if op = 3 then resumeCmd s n k
    else if op = 4 then haltCmd s n k else if op = 5 then unhaltCmd s n k else if op = 6 then stepCmd s n k
    else sqResult s n k resInvalid := by
  simp [sqPerform, h.thawed, h.kept]

theorem SqTakes.exec {c : Req → Nat → Nat → Instr} (h : SqTakes s req n k) (hc : (c, op) ∈ sqOps) :
    exec (c req n k) s = .next (sqPerform s n k op) := by
  rw [exec_sqOp hc, sqCmd_heard h.hears]

theorem SqTakes.exec_sqPreempt (h : SqTakes s req n k) : Machine.exec (.sqPreempt req n k) s = .next (preemptCmd s n k) := by
  rw [h.exec (op := 2) (by simp [sqOps]), h.perform]
  rfl

theorem SqTakes.exec_sqResume (h : SqTakes s req n k) : Machine.exec (.sqResume req n k) s = .next (resumeCmd s n k) := by
  rw [h.exec (op := 3) (by simp [sqOps]), h.perform]
  rfl

theorem SqTakes.exec_sqHalt (h : SqTakes s req n k) : Machine.exec (.sqHalt req n k) s = .next (haltCmd s n k) := by
  rw [h.exec (op := 4) (by simp [sqOps]), h.perform]
  rfl

theorem SqTakes.exec_sqUnhalt (h : SqTakes s req n k) : Machine.exec (.sqUnhalt req n k) s = .next (unhaltCmd s n k) := by
  rw [h.exec (op := 5) (by simp [sqOps]), h.perform]
  rfl

theorem SqTakes.exec_sqStep (h : SqTakes s req n k) : Machine.exec (.sqStep req n k) s = .next (stepCmd s n k) := by
  rw [h.exec (op := 6) (by simp [sqOps]), h.perform]
  rfl

theorem SqTakes.exec_sqCmdInvalid (h : SqTakes s req n k) (hop : op % 16 = 0 ∨ 6 < op % 16) :
    Machine.exec (.sqCmdInvalid req n k op) s = .next (sqResult s n k resInvalid) := by
  show Host.Outcome.next (sqCmd s req n k (if op % 16 = 0 || 6 < op % 16 then 7 else op % 16)) = _
  rw [if_pos (by simpa using hop), sqCmd_heard h.hears, h.perform]
  rfl

theorem SqTakes.ringCmd (h : SqTakes s req n k) : (core s n).ringCmd = none := h.hears.own

end

/-! #### PREEMPT, RESUME, HALT, UNHALT and STEP -/

section
variable {s : State} {n k : Nat}

theorem preemptCmd_stops (h : (slot s n k).st = .active ∨ (slot s n k).st = .waiting ∨ (slot s n k).st = .faulted) :
    preemptCmd s n k = sqResult (setSt (modSlot s n k (fun sl => { sl with preemptUs := s.us, stepOnce := false, stepOrd := none }))
      n k .preempting) n k resOk := by
  unfold preemptCmd
  rcases h with h | h | h
  · simp only [h]
  · simp only [h]
  · simp only [h]

/-- A slot that is pre-empted notes the time (R79, R96). -/
theorem preemptCmd_slot (h : (slot s n k).st = .active ∨ (slot s n k).st = .waiting ∨ (slot s n k).st = .faulted) :
    (slot (preemptCmd s n k) n k).st = .preempting ∧ (slot (preemptCmd s n k) n k).preemptUs = s.us := by
  rw [preemptCmd_stops h, slot_sqResult]
  refine ⟨setSt_st _ n k _, ?_⟩
  have htask := ((TaskKept.refl (modSlot s n k (fun sl => { sl with preemptUs := s.us, stepOnce := false, stepOrd := none })) n k).setSt
    (x := .preempting)).task
  rw [htask, slot_modSlot_self]

/-- The streams of a slot that go on leave its task. -/
theorem resumeStreams_task (s : State) (n k : Nat) : TaskKept s (resumeStreams s n k) n k :=
  (TaskKept.refl s n k).foldl (·.whenNot (·.modStream))

/-- A slot that goes on is served, unless its rudiment is complete and leaves with outcome DONE (R79, R148). -/
theorem checkDone_goesOn {t : State} (h : SameTask (slot s n k) (slot t n k)) (hs : Serving (slot t n k)) :
    (slot (checkDone t n k) n k).st = .active ∨ (slot (checkDone t n k) n k).st = .waiting ∨
      ((slot s n k).loaded = true ∧ (slot s n k).pos = hdStepCount (slot s n k) ∧ (slot s n k).inflight = [] ∧
        (slot (checkDone t n k) n k).st = .free ∧ (slot (checkDone t n k) n k).outcome = 1) := by
  obtain heq | ⟨hover, heq⟩ := checkDone_cases t n k
  · rw [heq]
    exact (refresh_serving hs).imp id Or.inl
  · rw [heq, slot_leaveSlot]
    rw [h] at hover
    obtain ⟨hload, hpos, hfl⟩ := hover
    exact .inr (.inr ⟨hload, hpos, hfl, rfl, rfl⟩)

theorem resumeCmd_faulted (h : (slot s n k).st = .faulted) : resumeCmd s n k =
    if (slot s n k).haltPending then
      sqResult (setSt (modSlot (resumeStreams s n k) n k (fun sl => { sl with haltPending := false, prior := .active })) n k .halted)
        n k resOk
    else sqResult (checkDone (wake (setSt (resumeStreams s n k) n k .active) n k) n k) n k resOk := by
  unfold resumeCmd
  dsimp only
  rw [if_neg (by simp [h])]

/-- RESUME of a FAULTED slot (R79, R255): HALTED when a HALT is pending, else it goes on. -/
theorem resumeCmd_resumes {req : Req} (ht : SqTakes s req n k) (h : (slot s n k).st = .faulted) :
    Completes (.sqResume req n k) s (fun t =>
      ((slot s n k).haltPending = true → (slot t n k).st = .halted) ∧
      ((slot s n k).haltPending = false →
        (slot t n k).st = .active ∨ (slot t n k).st = .waiting ∨
        ((slot s n k).loaded = true ∧ (slot s n k).pos = hdStepCount (slot s n k) ∧ (slot s n k).inflight = [] ∧
          (slot t n k).st = .free ∧ (slot t n k).outcome = 1)) ∧
      ResultIs t n k resOk ∧ OtherSlots s t n k) := by
  refine ⟨_, ht.exec_sqResume, ?_⟩
  have hstreams := resumeStreams_task s n k
  rw [resumeCmd_faulted h]
  cases hp : (slot s n k).haltPending with
  | true =>
    rw [if_pos rfl]
    have hkept := hstreams.toOthersKept.modSlot (f := fun sl => { sl with haltPending := false, prior := .active })
    exact ⟨fun _ => by rw [slot_sqResult, setSt_st], by simp,
      (hkept.trans ((TaskKept.refl _ n k).setSt).toOthersKept).answered resOk ht.ringCmd⟩
  | false =>
    rw [if_neg (by decide)]
    have hwake := (hstreams.setSt (x := .active)).wake
    have hserving : Serving (slot (wake (setSt (resumeStreams s n k) n k .active) n k) n k) :=
      wake_serving (.inl (setSt_st _ n k .active))
    refine ⟨by simp, fun _ => ?_, hwake.toOthersKept.checkDone.answered resOk ht.ringCmd⟩
    rw [slot_sqResult]
    exact checkDone_goesOn hwake.task hserving

theorem haltCmd_halts (hd : 2 ≤ debugLevel s (partOfCore s n)) (hm : s.power.moving = none) (h : Serving (slot s n k)) :
    haltCmd s n k = sqResult (setSt (modSlot s n k (fun x => { x with prior := (slot s n k).st, stepOnce := false, stepOrd := none }))
      n k .halted) n k resOk := by
  unfold haltCmd
  rcases h with h | h
  · simp [h, hm, Nat.not_lt.2 hd]
  · simp [h, hm, Nat.not_lt.2 hd]

theorem haltCmd_slot (hd : 2 ≤ debugLevel s (partOfCore s n)) (hm : s.power.moving = none) (h : Serving (slot s n k)) :
    (slot (haltCmd s n k) n k).st = .halted ∧ (slot (haltCmd s n k) n k).prior = (slot s n k).st := by
  rw [haltCmd_halts hd hm h, slot_sqResult]
  refine ⟨setSt_st _ n k _, ?_⟩
  have htask := ((TaskKept.refl (modSlot s n k (fun x => { x with prior := (slot s n k).st, stepOnce := false, stepOrd := none }))
    n k).setSt (x := .halted)).task
  rw [htask, slot_modSlot_self]

theorem unhaltCmd_halted (h : (slot s n k).st = .halted) : unhaltCmd s n k = sqResult (checkDone (wake (setSt
    (modSlot s n k (fun x => { x with stepOnce := false, stepOrd := none })) n k (slot s n k).prior) n k) n k) n k resOk := by
  unfold unhaltCmd
  simp [h]

/-- UNHALT of a HALTED slot (R79): it is again what it was, and goes on. -/
theorem unhaltCmd_goesOn {req : Req} (ht : SqTakes s req n k) (h : (slot s n k).st = .halted)
    (hp : (slot s n k).prior = .active ∨ (slot s n k).prior = .waiting) :
    Completes (.sqUnhalt req n k) s (fun t =>
      ((slot t n k).st = .active ∨ (slot t n k).st = .waiting ∨
        ((slot s n k).loaded = true ∧ (slot s n k).pos = hdStepCount (slot s n k) ∧ (slot s n k).inflight = [] ∧
          (slot t n k).st = .free ∧ (slot t n k).outcome = 1)) ∧
      ResultIs t n k resOk ∧ OtherSlots s t n k) := by
  refine ⟨_, ht.exec_sqUnhalt, ?_⟩
  rw [unhaltCmd_halted h]
  have hkept := (OthersKept.refl s n k).modSlot (f := fun x => { x with stepOnce := false, stepOrd := none })
  have hslot := slot_modSlot_self s n k (fun x => { x with stepOnce := false, stepOrd := none })
  generalize modSlot s n k (fun x => { x with stepOnce := false, stepOrd := none }) = u at hkept hslot
  have hwake := ((TaskKept.refl u n k).setSt (x := (slot s n k).prior)).wake
  have hserving : Serving (slot (wake (setSt u n k (slot s n k).prior) n k) n k) :=
    wake_serving (by rw [Serving, setSt_st]; exact hp)
  refine ⟨?_, (hkept.trans hwake.toOthersKept).checkDone.answered resOk ht.ringCmd⟩
  have hdone := checkDone_goesOn hwake.task hserving
  rw [hslot] at hdone
  rw [slot_sqResult]
  exact hdone

theorem stepCmd_steps (hd : 2 ≤ debugLevel s (partOfCore s n)) (h : (slot s n k).st = .halted) (hl : stepLeft (slot s n k) = true) :
    stepCmd s n k = sqResult (wake (modSlot s n k (fun x => { x with stepOnce := true, stepOrd := none })) n k) n k resOk := by
  unfold stepCmd
  simp [h, hl, Nat.not_lt.2 hd]

/-- Waking in a slot that is neither ACTIVE nor WAITING leaves memory. -/
theorem wake_idle_mem (h : ¬ Serving (slot s n k)) : (wake s n k).mem = s.mem := by
  unfold wake
  split
  · rw [refresh_idle ((slot_wakeStrands s n k n k).symm ▸ h), wakeStrands_mem]
  · rfl

/-- STEP of a HALTED slot with a step left (R79): it stays HALTED and may issue one step. -/
theorem stepCmd_once {req : Req} (ht : SqTakes s req n k) (hd : 2 ≤ debugLevel s (partOfCore s n))
    (h : (slot s n k).st = .halted) (hl : stepLeft (slot s n k) = true) :
    Completes (.sqStep req n k) s (fun t =>
      (slot t n k).stepOnce = true ∧ (slot t n k).stepOrd = none ∧ (slot t n k).st = .halted ∧ ResultIs t n k resOk ∧
      OtherSlots s t n k ∧ t.mem = s.mem) := by
  refine ⟨_, ht.exec_sqStep, ?_⟩
  rw [stepCmd_steps hd h hl]
  have hkept := (OthersKept.refl s n k).modSlot (f := fun x => { x with stepOnce := true, stepOrd := none })
  have hslot := slot_modSlot_self s n k (fun x => { x with stepOnce := true, stepOrd := none })
  have hmem : (modSlot s n k (fun x => { x with stepOnce := true, stepOrd := none })).mem = s.mem := rfl
  generalize modSlot s n k (fun x => { x with stepOnce := true, stepOrd := none }) = u at hkept hslot hmem
  have hidle : ¬ Serving (slot u n k) := by
    rw [hslot]
    simp [Serving, h]
  obtain ⟨hres, hothers⟩ := (hkept.trans ((TaskKept.refl u n k).wake).toOthersKept).answered resOk ht.ringCmd
  refine ⟨?_, ?_, ?_, hres, hothers, (sqResult_mem ..).trans ((wake_idle_mem hidle).trans hmem)⟩
  · rw [slot_sqResult, wake_idle_slot hidle, hslot]
  · rw [slot_sqResult, wake_idle_slot hidle, hslot]
  · rw [slot_sqResult, wake_idle_slot hidle, hslot]
    exact h

/-! #### Commands that change no slot -/

/-- A command that answers at once. -/
theorem completes_atOnce {c : Instr} {res : Nat} (hc : exec c s = .next (sqResult s n k res)) (hown : (core s n).ringCmd = none) :
    Completes c s (fun t => ResultIs t n k res ∧ SlotsKept s t) := ⟨_, hc, sqResult_atOnce k res hown⟩

variable {req : Req} (ht : SqTakes s req n k)
include ht

theorem sqPreempt_atOnce {res : Nat} (h : preemptCmd s n k = sqResult s n k res) :
    Completes (.sqPreempt req n k) s (fun t => ResultIs t n k res ∧ SlotsKept s t) :=
  completes_atOnce (h ▸ ht.exec_sqPreempt) ht.ringCmd

theorem sqResume_atOnce {res : Nat} (h : resumeCmd s n k = sqResult s n k res) :
    Completes (.sqResume req n k) s (fun t => ResultIs t n k res ∧ SlotsKept s t) :=
  completes_atOnce (h ▸ ht.exec_sqResume) ht.ringCmd

theorem sqHalt_atOnce {res : Nat} (h : haltCmd s n k = sqResult s n k res) :
    Completes (.sqHalt req n k) s (fun t => ResultIs t n k res ∧ SlotsKept s t) :=
  completes_atOnce (h ▸ ht.exec_sqHalt) ht.ringCmd

theorem sqUnhalt_atOnce {res : Nat} (h : unhaltCmd s n k = sqResult s n k res) :
    Completes (.sqUnhalt req n k) s (fun t => ResultIs t n k res ∧ SlotsKept s t) :=
  completes_atOnce (h ▸ ht.exec_sqUnhalt) ht.ringCmd

theorem sqStep_atOnce {res : Nat} (h : stepCmd s n k = sqResult s n k res) :
    Completes (.sqStep req n k) s (fun t => ResultIs t n k res ∧ SlotsKept s t) :=
  completes_atOnce (h ▸ ht.exec_sqStep) ht.ringCmd

/-- What each command answers in a state that does not permit it (R80, log entry 9). -/
theorem sqCommands_notPermitted :
    ((slot s n k).st = .free → ∀ c ∈ [Instr.sqPreempt, .sqUnhalt],
      Completes (c req n k) s (fun t => ResultIs t n k resNoTask ∧ SlotsKept s t)) ∧
    ((slot s n k).st = .preempting ∨ (slot s n k).st = .halted →
      Completes (.sqPreempt req n k) s (fun t => ResultIs t n k resOk ∧ SlotsKept s t)) ∧
    ((slot s n k).st ≠ .faulted →
      Completes (.sqResume req n k) s (fun t => ResultIs t n k resNotFaulted ∧ SlotsKept s t)) ∧
    ((slot s n k).st ≠ .free → (slot s n k).st ≠ .halted →
      Completes (.sqUnhalt req n k) s (fun t => ResultIs t n k resOk ∧ SlotsKept s t)) ∧
    (debugLevel s (partOfCore s n) < 2 → ∀ c ∈ [Instr.sqHalt, .sqStep],
      Completes (c req n k) s (fun t => ResultIs t n k resDenied ∧ SlotsKept s t)) ∧
    (s.power.moving.isSome → Completes (.sqHalt req n k) s (fun t => ResultIs t n k resDenied ∧ SlotsKept s t)) ∧
    (2 ≤ debugLevel s (partOfCore s n) → s.power.moving = none → (slot s n k).st = .free → ∀ c ∈ [Instr.sqHalt, .sqStep],
      Completes (c req n k) s (fun t => ResultIs t n k resNoTask ∧ SlotsKept s t)) ∧
    (2 ≤ debugLevel s (partOfCore s n) → s.power.moving = none →
      (slot s n k).st = .faulted ∨ (slot s n k).st = .preempting ∨ (slot s n k).st = .halted →
      Completes (.sqHalt req n k) s (fun t => ResultIs t n k resOk ∧ SlotsKept s t)) ∧
    (2 ≤ debugLevel s (partOfCore s n) → (slot s n k).st ≠ .free →
      (slot s n k).st ≠ .halted ∨ stepLeft (slot s n k) = false →
      Completes (.sqStep req n k) s (fun t => ResultIs t n k resOk ∧ SlotsKept s t)) := by
  simp only [List.forall_mem_cons, List.not_mem_nil, false_imp_iff, implies_true, and_true]
  refine ⟨fun h => ⟨sqPreempt_atOnce ht (by simp [preemptCmd, h]), sqUnhalt_atOnce ht (by simp [unhaltCmd, h])⟩,
    fun h => sqPreempt_atOnce ht ?_, fun h => sqResume_atOnce ht (by simp [resumeCmd, h]),
    fun hf hh => sqUnhalt_atOnce ht (by simp [unhaltCmd, hf, hh]),
    fun hd => ⟨sqHalt_atOnce ht (by simp [haltCmd, hd]), sqStep_atOnce ht (by simp [stepCmd, hd])⟩,
    fun hm => sqHalt_atOnce ht (by simp [haltCmd, hm]),
    fun hd hm h => ⟨sqHalt_atOnce ht (by simp [haltCmd, hm, h, Nat.not_lt.2 hd]),
      sqStep_atOnce ht (by simp [stepCmd, h, Nat.not_lt.2 hd])⟩,
    fun hd hm h => sqHalt_atOnce ht ?_, fun hd hf h => sqStep_atOnce ht ?_⟩
  · rcases h with h | h
    · simp only [preemptCmd, h]
    · simp only [preemptCmd, h]
  · rcases h with h | h | h
    · simp [haltCmd, hm, h, Nat.not_lt.2 hd]
    · simp [haltCmd, hm, h, Nat.not_lt.2 hd]
    · simp [haltCmd, hm, h, Nat.not_lt.2 hd]
  · rcases h with h | h
    · simp [stepCmd, hf, h, Nat.not_lt.2 hd]
    · simp [stepCmd, hf, h, Nat.not_lt.2 hd]

end

/-- Settles O12: each command by the operations that it performs on its slot, the others by the answer that they give at once. -/
theorem sqCommands : Obligations.SqCommands := by
  unfold Obligations.SqCommands
  refine ⟨⟨fun s req n k ht h => ⟨_, ht.exec_sqPreempt, ?_⟩, fun s req n k => resumeCmd_resumes,
    fun s req n k ht hd hm h => ⟨_, ht.exec_sqHalt, ?_⟩, fun s req n k => unhaltCmd_goesOn, fun s req n k => stepCmd_once,
    fun s req n k op ht hop => completes_atOnce (ht.exec_sqCmdInvalid hop) ht.ringCmd⟩,
    fun s req n k hn ha ho c hc => ?_, fun s req n k => sqCommands_notPermitted⟩
  · obtain ⟨hst, hus⟩ := preemptCmd_slot h
    refine ⟨hst, hus, ?_⟩
    rw [preemptCmd_stops h]
    exact ((OthersKept.refl s n k).modSlot.trans ((TaskKept.refl _ n k).setSt).toOthersKept).answered resOk ht.ringCmd
  · obtain ⟨hst, hprior⟩ := haltCmd_slot hd hm h
    refine ⟨hst, hprior, ?_⟩
    rw [haltCmd_halts hd hm h]
    exact ((OthersKept.refl s n k).modSlot.trans ((TaskKept.refl _ n k).setSt).toOthersKept).answered resOk ht.ringCmd
  · obtain ⟨op, hop⟩ := sqOps_of_mem hc
    rw [exec_sqOp hop]
    refine ⟨fun h => congrArg _ (sqCmd_deaf ha ho h), fun hd hr hi hb => congrArg _ (sqCmd_overlap ha ho hd hr hi hb),
      fun hh _ hf => completes_atOnce ?_ hh.own, fun hh _ hf he => ⟨_, exec_sqOp hop req n k s, ?_⟩⟩
    · rw [exec_sqOp hop, sqCmd_heard hh, sqPerform_frozen hf]
    · rw [sqCmd_heard hh, sqPerform_ending hf he (sqOps_op hop)]
      refine ⟨?_, sqBusy_busyIs _ n k, fun m j => ?_, rfl⟩
      · simp [sqBusy, rset, regSet, modCore, core]
      · rw [slot_sqBusy, slot_modCore]

end Sys2Proof.Machine
end

/-! ### INSTALL, the load of a rudiment and the step prefetch (R77, R78, R82, R98, R144, R145, R154, R166, R464) -/

section
namespace Sys2Proof.Machine

/-! #### The units of an INSTALL -/

section
variable {s t : State} {n k : Nat}

/-- The slot that INSTALL has given its units (R74, R78). -/
structure Installed (s : State) (n k : Nat) (sl : Slot) : Prop where
  st : sl.st = .free
  gen : sl.gen = nextGen (slot s n k).gen
  ctag : sl.ctag = mkCtag n k (nextGen (slot s n k).gen)
  part : sl.part = partOfCore s n
  strands : sl.strands = (freeUnits 64 (usedUnits s n (·.strands))).take (fld (slotReg s n k 0x418) 6 0)
  beatSq : sl.beatSq = 0
  beatTe : sl.beatTe = 0
  beatVe : sl.beatVe = 0
  beatXe : sl.beatXe = 0

theorem Installed.noted {sl : Slot} (h : Installed s n k sl) (notify : Option (Nat × Nat)) :
    Installed s n k { sl with notify := notify } := { h with }

/-- A zeroed window leaves the cores and the registers. -/
theorem zeroMems_frame (s : State) (l : List Nat) (f : Nat → Nat) (len : Nat) :
    UnitsKept s (l.foldl (fun s u => zeroMem s (f u) len) s) ∧ (l.foldl (fun s u => zeroMem s (f u) len) s).regs = s.regs :=
  ⟨(UnitsKept.refl s).foldl (·.frame), List.foldlRecOn (motive := fun t : State => t.regs = s.regs) l _ rfl fun _ h _ _ => h⟩

theorem installUnits_installed (s : State) (n k : Nat) : Installed s n k (slot (installUnits s n k) n k) := by
  unfold installUnits
  extract_lets res st bk bl xs asid p units zeroAll dirty s1 gen s2
  have h1 := (zeroMems_frame s dirty (fun u => lmDpa n + u * 4096) 4096).1
  have hgen : gen = nextGen (slot s n k).gen := congrArg (fun sl : Slot => nextGen sl.gen) (h1.slot n k)
  rw [slot_modSlot_self]
  exact ⟨rfl, hgen, congrArg (mkCtag n k) hgen, rfl, rfl, rfl, rfl, rfl, rfl⟩

/-- INSTALL changes one slot, and no register. -/
theorem installUnits_frame (s : State) (n k : Nat) : OthersKept s (installUnits s n k) n k ∧
    (installUnits s n k).regs = s.regs ∧ (core (installUnits s n k) n).deferred = (core s n).deferred := by
  unfold installUnits
  extract_lets res st bk bl xs asid p units zeroAll dirty s1 gen s2
  obtain ⟨h1, hr⟩ := zeroMems_frame s dirty (fun u => lmDpa n + u * 4096) 4096
  refine ⟨OthersKept.modSlot (.modCore ((OthersKept.refl s n k).units fun _ => h1)), hr, ?_⟩
  rw [modSlot, core_modCore_self]
  show (core s2 n).deferred = _
  rw [core_modCore_self]
  exact (h1 n).deferred

/-- The slot with its units, before it becomes ACTIVE or waits for its save image. -/
def installing (s : State) (n k : Nat) (f : Slot → Slot) : State := modSlot (leaveA1 (installUnits s n k)) n k f

theorem leaveA1_cores (s : State) : (leaveA1 s).cores = s.cores := by
  unfold leaveA1
  split
  · rfl
  · rfl

theorem leaveA1_regs (s : State) : (leaveA1 s).regs = s.regs := by
  unfold leaveA1
  split
  · rfl
  · rfl

theorem installing_frame (s : State) (n k : Nat) (f : Slot → Slot) : OthersKept s (installing s n k f) n k :=
  ((installUnits_frame s n k).1.frame (leaveA1_cores _)).modSlot

theorem slot_installing (s : State) (n k : Nat) (f : Slot → Slot) :
    slot (installing s n k f) n k = f (slot (installUnits s n k) n k) := by
  rw [installing, slot_modSlot_self, slot_congr (leaveA1_cores _)]

theorem installing_deferred (s : State) (n k : Nat) (f : Slot → Slot) :
    (core (installing s n k f) n).deferred = (core s n).deferred := by
  rw [installing, modSlot, core_modCore_self, core_congr (leaveA1_cores _)]
  exact (installUnits_frame s n k).2.2

/-! #### INSTALL whose conditions are judged -/

theorem installNow_fails (h : installCheck s n k ≠ resOk) (notify : Option (Nat × Nat)) :
    installNow s n k notify = sqResult s n k (installCheck s n k) := by
  unfold installNow
  exact if_pos h

theorem slotReg_installUnits (s : State) (n k off : Nat) : slotReg (leaveA1 (installUnits s n k)) n k off = slotReg s n k off :=
  rget_congr ((leaveA1_regs _).trans (installUnits_frame s n k).2.1) ..

/-- INSTALL on a slot that meets its conditions (R78). -/
theorem installNow_active (h : installCheck s n k = resOk) (hr : wbit (slotReg s n k 0x408) 21 = false)
    (notify : Option (Nat × Nat)) :
    installNow s n k notify = sqResult (setSt (installing s n k (fun sl => { sl with notify := notify })) n k .active) n k resOk := by
  unfold installNow
  dsimp only
  rw [if_neg (by simp [h]), slotReg_installUnits, hr, if_neg (by decide)]
  rfl

/-- INSTALL with RESTORE = 1 stays in progress (R98). -/
theorem installNow_restoring (h : installCheck s n k = resOk) (hr : wbit (slotReg s n k 0x408) 21 = true)
    (notify : Option (Nat × Nat)) : installNow s n k notify =
      sqBusy (installing s n k (fun sl => { sl with restoring := true, notify := notify })) n k := by
  unfold installNow
  dsimp only
  rw [if_neg (by simp [h]), slotReg_installUnits, hr, if_pos rfl]
  rfl

/-- A slot with its units that has become ACTIVE (R78). -/
theorem installed_activates {u t : State} (hi : Installed s n k (slot u n k)) (hu : OthersKept s u n k)
    (hown : (core s n).ringCmd = none) (ht : t = sqResult (setSt u n k .active) n k resOk) :
    Installed s n k { slot t n k with st := .free } ∧ (slot t n k).st = .active ∧ ResultIs t n k resOk ∧ OtherSlots s t n k := by
  have hset := (TaskKept.refl u n k).setSt (x := .active)
  have htask : SameTask (slot u n k) (slot t n k) := by
    rw [ht, slot_sqResult]
    exact hset.task
  refine ⟨?_, ?_, ht ▸ (hu.trans hset.toOthersKept).answered resOk hown⟩
  · rw [htask]
    exact { hi with st := rfl }
  · rw [ht, slot_sqResult, setSt_st]

/-- What an INSTALL leaves whose slot becomes ACTIVE. -/
theorem installNow_active_leaves (h : installCheck s n k = resOk) (hr : wbit (slotReg s n k 0x408) 21 = false)
    (hown : (core s n).ringCmd = none) (notify : Option (Nat × Nat)) :
    let t := installNow s n k notify
    (slot t n k).st = .active ∧ (slot t n k).gen = nextGen (slot s n k).gen ∧
    (slot t n k).ctag = mkCtag n k (nextGen (slot s n k).gen) ∧ (slot t n k).part = partOfCore s n ∧
    (slot t n k).strands = (freeUnits 64 (usedUnits s n (·.strands))).take (fld (slotReg s n k 0x418) 6 0) ∧
    (slot t n k).beatSq = 0 ∧ (slot t n k).beatTe = 0 ∧ (slot t n k).beatVe = 0 ∧ (slot t n k).beatXe = 0 ∧
    ResultIs t n k resOk ∧ OtherSlots s t n k := by
  have hi : Installed s n k (slot (installing s n k (fun sl => { sl with notify := notify })) n k) := by
    rw [slot_installing]
    exact (installUnits_installed s n k).noted notify
  obtain ⟨hslot, hst, hans⟩ := installed_activates hi (installing_frame s n k _) hown (installNow_active h hr notify)
  exact ⟨hst, hslot.gen, hslot.ctag, hslot.part, hslot.strands, hslot.beatSq, hslot.beatTe, hslot.beatVe, hslot.beatXe, hans⟩

theorem sqBusy_deferred (s : State) (n k : Nat) : (core (sqBusy s n k) n).deferred = (core s n).deferred := by
  simp [sqBusy, rset, regSet, modCore, core]

/-- What an INSTALL leaves that waits for its save image. -/
theorem installNow_restoring_leaves (h : installCheck s n k = resOk) (hr : wbit (slotReg s n k 0x408) 21 = true)
    (notify : Option (Nat × Nat)) :
    let t := installNow s n k notify
    (slot t n k).st = .free ∧ (slot t n k).restoring = true ∧ (slot t n k).gen = nextGen (slot s n k).gen ∧
    BusyIs t n k ∧ OtherSlots s t n k ∧ (core t n).deferred = (core s n).deferred := by
  intro t
  have ht : t = _ := installNow_restoring h hr notify
  have hi := installUnits_installed s n k
  rw [ht]
  simp only [slot_sqBusy, slot_installing]
  refine ⟨hi.st, trivial, hi.gen, sqBusy_busyIs _ n k, fun m j hmj => ?_, ?_⟩
  · rw [slot_sqBusy]
    exact (installing_frame s n k _).slots m j hmj
  · rw [sqBusy_deferred]
    exact installing_deferred s n k _

/-- A result ends a deferred INSTALL. -/
theorem sqResult_deferred (s : State) (n k res : Nat) : (core (sqResult s n k res) n).deferred = none := by
  have hcore : (core (modCore s n (fun c => { c with busy := false, deferred := none, heldCmd := none, ringCmd := none })) n).deferred
      = none := by rw [core_modCore_self]
  unfold sqResult
  dsimp only
  split
  · exact hcore
  · exact hcore

/-! #### The commands -/

theorem SqTakes.exec_sqInstall {req : Req} (h : SqTakes s req n k) :
    Machine.exec (.sqInstall req n k) s = .next (installCmd s n k none) := by
  rw [h.exec (op := 1) (by simp [sqOps]), h.perform]
  rfl

theorem installCmd_now (hf : frozen s = false) (h : (core s n).orphans.any (fun o => o.slot = k) = false)
    (notify : Option (Nat × Nat)) : installCmd s n k notify = installNow s n k notify := by
  simp [installCmd, hf, h]

theorem installCmd_waits (hf : frozen s = false) (h : (core s n).orphans.any (fun o => o.slot = k) = true)
    (notify : Option (Nat × Nat)) : installCmd s n k notify =
      sqBusy (modSlot (modCore s n (fun c => { c with deferred := some k })) n k (fun sl => { sl with notify := notify })) n k := by
  simp [installCmd, hf, h]

/-- An INSTALL that waits for the orphans of the slot's last context (R464). -/
theorem installCmd_waits_leaves (hf : frozen s = false) (h : (core s n).orphans.any (fun o => o.slot = k) = true)
    (notify : Option (Nat × Nat)) :
    let t := installCmd s n k notify
    (core t n).deferred = some k ∧ BusyIs t n k ∧ OtherSlots s t n k ∧ (slot t n k).st = (slot s n k).st ∧ t.mem = s.mem := by
  intro t
  have ht : t = _ := installCmd_waits hf h notify
  rw [ht]
  refine ⟨?_, sqBusy_busyIs _ n k, fun m j hmj => ?_, ?_, rfl⟩
  · simp [sqBusy, rset, regSet, modSlot, modCore, core]
  · rw [slot_sqBusy, slot_modSlot_ne _ _ hmj, slot_modCore]
  · rw [slot_sqBusy, slot_modSlot_self, slot_modCore]

theorem exec_deferredInstall_waits (h : ∀ k, (core s n).deferred = some k → (core s n).orphans.any (fun o => o.slot = k) = true) :
    exec (.deferredInstall n) s = .next s := by
  show Host.Outcome.next (match (core s n).deferred with
    | some k => _
    | none => s) = _
  split
  · next k hk => rw [if_pos (h k hk)]
  · rfl

theorem exec_deferredInstall_goes (hd : (core s n).deferred = some k) (h : (core s n).orphans.any (fun o => o.slot = k) = false) :
    exec (.deferredInstall n) s =
      .next (installNow (modCore s n (fun c => { c with deferred := none })) n k (slot s n k).notify) := by
  show Host.Outcome.next (match (core s n).deferred with
    | some k => _
    | none => s) = _
  rw [hd]
  dsimp only
  rw [if_neg (by simp [h])]

/-- The deferred INSTALL (R464) is judged as one that comes now. -/
theorem deferredInstall_completes (hown : (core s n).ringCmd = none) (hd : (core s n).deferred = some k)
    (h : (core s n).orphans.any (fun o => o.slot = k) = false) :
    (installCheck s n k = resOk → wbit (slotReg s n k 0x408) 21 = false → Completes (.deferredInstall n) s (fun t =>
      (slot t n k).st = .active ∧ (slot t n k).gen = nextGen (slot s n k).gen ∧ (core t n).deferred = none ∧
      ResultIs t n k resOk ∧ OtherSlots s t n k)) ∧
    (installCheck s n k = resOk → wbit (slotReg s n k 0x408) 21 = true → Completes (.deferredInstall n) s (fun t =>
      (slot t n k).restoring = true ∧ (core t n).deferred = none ∧ OtherSlots s t n k)) ∧
    (installCheck s n k ≠ resOk → Completes (.deferredInstall n) s (fun t =>
      (core t n).deferred = none ∧ ResultIs t n k (installCheck s n k) ∧ SlotsKept s t)) := by
  have hexec := exec_deferredInstall_goes hd h
  have hslot : ∀ m j, slot (modCore s n (fun c => { c with deferred := none })) m j = slot s m j := fun m j => slot_modCore s n m j
  have hcheck : installCheck (modCore s n (fun c => { c with deferred := none })) n k = installCheck s n k := by
    unfold installCheck
    simp only [usedUnits, busySlots, hslot]
    rfl
  have hown' : (core (modCore s n (fun c => { c with deferred := none })) n).ringCmd = none := (ringCmd_modCore s n n).trans hown
  have hnone : (core (modCore s n (fun c => { c with deferred := none })) n).deferred = none := by rw [core_modCore_self]
  have hmem : (modCore s n (fun c => { c with deferred := none })).mem = s.mem := rfl
  have hreg : slotReg (modCore s n (fun c => { c with deferred := none })) n k 0x408 = slotReg s n k 0x408 := rfl
  generalize modCore s n (fun c => { c with deferred := none }) = u at *
  rw [← hcheck, ← hreg]
  refine ⟨fun hc hr => ⟨_, hexec, ?_⟩, fun hc hr => ⟨_, hexec, ?_⟩, fun hc => ⟨_, hexec, ?_⟩⟩
  · obtain ⟨hst, hgen, -, -, -, -, -, -, -, hres, hothers⟩ := installNow_active_leaves hc hr hown' (slot s n k).notify
    refine ⟨hst, hgen.trans (by rw [hslot]), ?_, hres, fun m j hmj => (hothers m j hmj).trans (hslot m j)⟩
    rw [installNow_active hc hr]
    exact sqResult_deferred ..
  · obtain ⟨-, hrest, -, -, hothers, hdef⟩ := installNow_restoring_leaves hc hr (slot s n k).notify
    exact ⟨hrest, hdef.trans hnone, fun m j hmj => (hothers m j hmj).trans (hslot m j)⟩
  · rw [installNow_fails hc]
    exact ⟨sqResult_deferred .., sqResult_resultIs _ hown', fun m j => (slot_sqResult ..).trans (hslot m j),
      (sqResult_mem ..).trans hmem⟩

end

/-! #### The load of a rudiment -/

section
variable {s s1 s2 s3 : State} {n k : Nat} {ecc : Ecc} {h tb rb ib : List Byte}

/-- A slot whose image may be loaded: its task runs and has none. -/
structure Unloaded (sl : Slot) : Prop where
  loaded : sl.loaded = false
  kept : sl.ending = none
  st : sl.st = .active

theorem loadCheck_unread (hs : Unloaded (slot s n k)) (hr : imageRead s n k 0 0x100 ecc = (s1, none)) :
    loadCheck s n k ecc = s1 := by
  unfold loadCheck
  simp [hs.loaded, hs.kept, hs.st, hr]

/-- The image that a slot holds once the table has passed (R144). -/
def tabled (s : State) (n k : Nat) (h tb : List Byte) : State :=
  modSlot s n k (fun sl => { sl with
    hdr := h, secs := (List.range (leAt h 0x0A 2)).map (fun i => let x := secEntry tb i; (x.1, x.2.2.1, x.2.2.2.1, x.2.2.2.2)) })

theorem loadCheck_read (hs : Unloaded (slot s n k)) (hr : imageRead s n k 0 0x100 ecc = (s1, some h))
    (ht : imageRead s1 n k 0x100 (16 * min 16 (leAt h 0x0A 2)) (imageLeft s1 n k 0 0x100 ecc) = (s2, some tb)) :
    loadCheck s n k ecc = if tableCheck s2 h tb ≠ 0 then loadFail s2 n k (tableCheck s2 h tb)
      else loadRest (tabled s2 n k h tb) n k h
        (imageLeft s2 n k 0x100 (16 * min 16 (leAt h 0x0A 2)) (imageLeft s1 n k 0 0x100 ecc)) := by
  unfold loadCheck
  simp only [hs.loaded, hs.kept, hs.st, hr, ht]
  rfl

theorem exec_rudimentLoadCheck_loaded {rd : Reader} (hl : (slot s n rd.no).loaded = true) :
    exec (.rudimentLoadCheck n rd) s = .next s := by
  show Host.Outcome.next (if _ then _ else _) = _
  rw [if_pos hl]

/-- After the load a task goes on, or takes up its restored steps (R166). -/
theorem exec_rudimentLoadCheck {rd : Reader} (hl : (slot s n rd.no).loaded = false) :
    ((slot (loadCheck s n rd.no rd.ecc) n rd.no).loaded = false ∨ (slot (loadCheck s n rd.no rd.ecc) n rd.no).restored = false →
      exec (.rudimentLoadCheck n rd) s = .next (refresh (loadCheck s n rd.no rd.ecc) n rd.no)) ∧
    (∀ w, (slot (loadCheck s n rd.no rd.ecc) n rd.no).loaded = true → (slot (loadCheck s n rd.no rd.ecc) n rd.no).restored = true →
      restoreSteps (loadCheck s n rd.no rd.ecc) n rd.no = (w, true) →
      exec (.rudimentLoadCheck n rd) s =
        .next (checkDone (modSlot w n rd.no (fun sl => { sl with restored := false })) n rd.no)) := by
  have hexec : exec (.rudimentLoadCheck n rd) s = execRudimentLoadCheck n rd s := rfl
  unfold execRudimentLoadCheck at hexec
  dsimp only at hexec
  rw [if_neg (by simp [hl])] at hexec
  refine ⟨fun h => ?_, fun w h1 h2 h3 => ?_⟩
  · rw [hexec, if_neg]
    rcases h with h | h
    · simp [h]
    · simp [h]
  · rw [hexec, h1, h2, h3]
    rfl

theorem errCtx_loaded (s : State) (e : ErrCode) (n k det : Nat) : (slot (errCtx s e n k det) n k).loaded = (slot s n k).loaded := by
  rw [((TaskKept.refl s n k).errCtx (e := e) (det := det)).task]

/-- The checks of a header and a section table, in the order of R144. -/
theorem rudimentLoadCheck_table {rd : Reader} (hs : Unloaded (slot s n rd.no))
    (hr : imageRead s n rd.no 0 0x100 rd.ecc = (s1, some h))
    (ht : imageRead s1 n rd.no 0x100 (16 * min 16 (leAt h 0x0A 2)) (imageLeft s1 n rd.no 0 0x100 rd.ecc) = (s2, some tb))
    (hl : (slot s2 n rd.no).loaded = false) (hbad : tableCheck s2 h tb ≠ 0) :
    exec (.rudimentLoadCheck n rd) s = .next (refresh (errCtx s2 eSqStepInvalid n rd.no (tableCheck s2 h tb)) n rd.no) := by
  have hload : loadCheck s n rd.no rd.ecc = errCtx s2 eSqStepInvalid n rd.no (tableCheck s2 h tb) :=
    (loadCheck_read hs hr ht).trans (if_pos hbad)
  rw [(exec_rudimentLoadCheck hs.loaded).1 (.inl _), hload]
  rw [hload, errCtx_loaded, hl]

/-- ROLL has the size that its first bytes give (R142, R164). -/
def rollSized (sl : Slot) (h rb : List Byte) : Prop :=
  leAt h 0x24 4 ≠ 0 → (section_ sl 8).2.2 = 16 + popcount16 (leAt rb 4 2) * leAt rb 6 1 * 512

/-- The end of a load whose SYNC_INIT has been read (R154). -/
def initRead (n k : Nat) (h : List Byte) : State × Option (List Byte) → State
  | (s, none) => s
  | (s, some ib) => loadEnd s n k h ib

/-- The rest of a load whose sections are present: what is asked for is judged next (R144). -/
theorem loadRest_present
    (hr : imageRead s n k (secOff (slot s n k) 8) (if leAt h 0x24 4 = 0 then 0 else 16) ecc = (s1, some rb))
    (hroll : rollSized (slot s n k) h rb)
    (hp : presenceCheck s1 n k (imageLeft s1 n k (secOff (slot s n k) 8) (if leAt h 0x24 4 = 0 then 0 else 16) ecc) =
      (s2, some true)) :
    loadRest s n k h ecc = if requestCheck s2 n k h rb (loadedSet s2 (partOfCore s2 n)) ≠ 0 then
        loadFail s2 n k (requestCheck s2 n k h rb (loadedSet s2 (partOfCore s2 n)))
      else initRead n k h (imageRead s2 n k (secOff (slot s n k) 7) (8 * secCount (slot s n k) 7)
        (eccAfter (imageLeft s1 n k (secOff (slot s n k) 8) (if leAt h 0x24 4 = 0 then 0 else 16) ecc)
          (presenceReads (slot s n k)))) := by
  unfold loadRest
  dsimp only
  rw [hr]
  dsimp only
  rw [if_neg, hp]
  · rfl
  · simpa [rollSized] using hroll

theorem loadEnd_invalid (hb : syncInitOk (64 * (slot s n k).blocks.length) ib (secCount (slot s n k) 7) = false) :
    loadEnd s n k h ib = errCtx s eSqStepInvalid n k 0x400B := by
  unfold loadEnd
  dsimp only
  rw [hb]
  rfl

/-- SYNC_INIT leaves every slot. -/
theorem slot_applySyncInit (s : State) (n k : Nat) (bs : List Byte) (cnt m j : Nat) :
    slot (applySyncInit s n k bs cnt) m j = slot s m j := by
  refine List.foldlRecOn (motive := fun u : State => slot u m j = slot s m j) _ _ rfl fun u hu i _ => ?_
  dsimp only
  split
  · rw [slot_modSync]
    exact hu
  · exact hu

/-- The end of a load whose SYNC_INIT is valid (R154). -/
theorem loadEnd_loads (hb : syncInitOk (64 * (slot s n k).blocks.length) ib (secCount (slot s n k) 7) = true) :
    (slot (loadEnd s n k h ib) n k).loaded = true ∧ OtherSlots s (loadEnd s n k h ib) n k := by
  unfold loadEnd
  dsimp only
  rw [hb, if_neg (by decide), slot_modSlot_self]
  refine ⟨rfl, fun m j hmj => ?_⟩
  rw [slot_modSlot_ne _ _ hmj]
  split
  · rfl
  · exact slot_applySyncInit ..

end

/-! #### The step prefetch -/

section
variable {s s1 s2 s3 : State} {n : Nat} {rd : Reader} {r w g : List Byte}

/-- The step buffer of 32 records takes one more at its end (R70). -/
def pushed {α : Type} (l : List α) (x : α) : List α := ((l ++ [x]).reverse.take 32).reverse

theorem mem_pushed {α : Type} (l : List α) (x : α) : x ∈ pushed l x := by simp [pushed]

theorem pushed_length {α : Type} (l : List α) (x : α) : (pushed l x).length ≤ 32 := by
  rw [pushed, List.length_reverse]
  exact List.length_take_le ..

/-- The step buffer with a step that the prefetch has read: what the slot may still issue, and the step (R82). -/
def buffered (sl : Slot) (x : Nat × List Byte) : List (Nat × List Byte) :=
  pushed (sl.buf.filter (fun e => sl.pos ≤ e.1 || sl.loops.any (fun l => l.start ≤ e.1))) x

/-- The prefetch puts a step with its programs into the step buffer (R82). -/
theorem prefetch_reads (hrun : running s n rd.no = true) (hl : (slot s n rd.no).loaded = true)
    (hi : prefetchIndex (slot s n rd.no) < hdStepCount (slot s n rd.no))
    (hb : bufStep (slot s n rd.no) (prefetchIndex (slot s n rd.no)) = none)
    (h1 : imageRead s n rd.no (secOff (slot s n rd.no) 1 + 64 * prefetchIndex (slot s n rd.no)) 64 rd.ecc = (s1, some r))
    (h2 : progRead s1 n rd.no (stWaitFirst r) (stWaitLen r) (eccAfter rd.ecc 1) = (s2, some w))
    (h3 : progRead s2 n rd.no (stSignalFirst r) (stSignalLen r)
      (progLeft s2 n rd.no (stWaitFirst r) (stWaitLen r) (eccAfter rd.ecc 1)) = (s3, some g)) :
    Completes (.stepPrefetch n rd) s (fun t =>
      (prefetchIndex (slot s n rd.no), r ++ w ++ g) ∈ (slot t n rd.no).buf ∧ (slot t n rd.no).buf.length ≤ 32 ∧
      OtherSlots s3 t n rd.no) := by
  refine ⟨_, rfl, ?_⟩
  unfold prefetch
  dsimp only
  rw [if_neg (by simp [hrun, hl, hb, hi]), h1]
  dsimp only
  rw [h2]
  dsimp only
  rw [h3]
  dsimp only
  let x := (prefetchIndex (slot s n rd.no), r ++ w ++ g)
  let u := modSlot s3 n rd.no (fun sl => { sl with buf := buffered sl x })
  have hbuf : (slot (refresh u n rd.no) n rd.no).buf = buffered (slot s3 n rd.no) x := by
    have hu : slot u n rd.no = { slot s3 n rd.no with buf := buffered (slot s3 n rd.no) x } := slot_modSlot_self ..
    have htask := ((TaskKept.refl u n rd.no).refresh).task
    rw [hu] at htask
    exact congrArg Slot.buf htask
  refine ⟨(congrArg (x ∈ ·) hbuf).mpr (mem_pushed _ _), (congrArg (List.length · ≤ 32) hbuf).mpr (pushed_length _ _), ?_⟩
  exact ((OthersKept.refl s3 n rd.no).modSlot.trans ((TaskKept.refl u n rd.no).refresh).toOthersKept).slots

theorem exec_stepPrefetch_idle (h : running s n rd.no = false ∨ (slot s n rd.no).loaded = false ∨
    hdStepCount (slot s n rd.no) ≤ prefetchIndex (slot s n rd.no)) : exec (.stepPrefetch n rd) s = .next s := by
  show Host.Outcome.next (prefetch s n rd.no rd.ecc) = _
  unfold prefetch
  dsimp only
  rw [if_pos]
  rcases h with h | h | h
  · simp [h]
  · simp [h]
  · simp [h]

end

/-- Settles O13: INSTALL by what its units leave, the load by its reads and checks in their order, the prefetch by its three reads. -/
theorem sqInstalls : Obligations.SqInstalls := by
  unfold Obligations.SqInstalls
  refine ⟨⟨fun s req n k ht ho hc => ⟨fun hr => ⟨_, ht.exec_sqInstall, ?_⟩, fun hr => ⟨_, ht.exec_sqInstall, ?_⟩⟩,
    fun s req n k ht ho hc => completes_atOnce (ht.exec_sqInstall.trans ?_) ht.ringCmd,
    fun s req n k ht ho => ⟨_, ht.exec_sqInstall, installCmd_waits_leaves ht.thawed ho none⟩,
    fun s n k _ _ hd hown ho => deferredInstall_completes hown hd ho, fun s n h => exec_deferredInstall_waits h⟩,
    fun s n rd hl => exec_rudimentLoadCheck_loaded hl,
    fun s s1 n rd hl hk hst hl1 hr => ?_,
    fun s s1 s2 n rd h tb hl hk hst hr ht hl2 => ⟨rudimentLoadCheck_table ⟨hl, hk, hst⟩ hr ht hl2, fun hok => ?_⟩,
    fun s s1 s2 s3 n k h rb ib ecc hr hroll hp => ?_,
    fun s s1 s2 s3 n rd r w g => prefetch_reads, fun s n rd => exec_stepPrefetch_idle⟩
  · rw [installCmd_now ht.thawed ho]
    exact installNow_active_leaves hc hr ht.ringCmd none
  · rw [installCmd_now ht.thawed ho]
    obtain ⟨hst, hrest, hgen, hbusy, hothers, -⟩ := installNow_restoring_leaves hc hr none
    exact ⟨hst, hrest, hgen, hbusy, hothers⟩
  · rw [installCmd_now ht.thawed ho, installNow_fails hc]
  · have hload := loadCheck_unread ⟨hl, hk, hst⟩ hr
    rw [(exec_rudimentLoadCheck hl).1 (.inl (by rw [hload, hl1])), hload]
  · have hload := (loadCheck_read ⟨hl, hk, hst⟩ hr ht).trans (if_neg (not_not.2 hok))
    have hexec := exec_rudimentLoadCheck hl
    rw [hload] at hexec
    exact hexec
  · have hrest := loadRest_present hr hroll hp
    refine ⟨fun hbad => hrest.trans (if_pos hbad), fun hok hib => ?_⟩
    rw [if_neg (not_not.2 hok), hib] at hrest
    rw [hrest]
    exact ⟨loadEnd_invalid, loadEnd_loads⟩

end Sys2Proof.Machine
end

/-! ### Statements of the engines that a state refutes (R84, R94, R101)

A beat counter of R84 counts modulo 2³², and a step with beat 0 leaves it as it is. The statements say that the counter *is* the sum
modulo 2³², which a state whose counter holds 2³² refutes. The statement of the Transfer Engine names the registers that stay by a block
and any offset, so that the offset may reach a bridge's byte counter. -/

section
set_option Elab.async false
namespace Sys2Proof.Machine

/-- A slot whose step in flight counts no beats (its record has no bytes) and ends with one more part of the TE or the VE; both beat
counters hold 2³². -/
def beatsFull : Slot :=
  { st := .active, strands := [63], inflight := [{ teLeft := 1, veLeft := 1 }], beatTe := 2 ^ 32, beatVe := 2 ^ 32 }

/-- `beatsFull` in slot 15 of core 1151, whose strand 63 stands at an EXIT at the start of its window of 4 KiB. -/
def exitState : State :=
  { rset (modStrand (modSlot State.reset 1151 15 (fun _ => beatsFull)) 1151 63 (fun x => { x with run := .run })) .sq 1151 0x7D4 0x100
    with mem := memWrite [] (lmDpa 1151) (leBytes 0x52 8) }

theorem exitState_issues : VeIssues exitState (vePre exitState 1151 63 15 0 .none).1 1151 63 0x52 15 0 0x52 .none where
  fetch := by decide +kernel
  opcode := by decide
  good := by decide
  clean := by decide +kernel

/-- The step's last EXIT leaves the counter as it is. -/
theorem veExit_exitState : ∃ t, exec (.veExit 1151 63 .none) exitState = .next t ∧ (slot t 1151 15).beatVe = 2 ^ 32 :=
  ⟨_, rfl, by decide +kernel⟩

/-- `beatsFull` in slot 0 of core 0, whose one TE operation runs. -/
def lastOpState : State := modCore (modSlot State.reset 0 0 (fun _ => beatsFull)) 0 (fun c => { c with teRun := [{}] })

/-- The step's last operation leaves the counter as it is. -/
theorem teOpComplete_lastOpState :
    ∃ t, exec (.teOpComplete 0 false .none) lastOpState = .next t ∧ (slot t 0 0).beatTe = 2 ^ 32 :=
  ⟨_, rfl, by decide +kernel⟩

/-- A read of 4 bytes from the local memory of core 0, in tile 0, to that of core 288, in tile 1. -/
def crossingRead : ReadEnt :=
  { src := lmDpa 0, dst := lmDpa 288, srcLocal := true, dstLocal := false, len := 4, off := 0, vas := [] }

/-- Stream 0 of core 0, of an ACTIVE slot, waits for `crossingRead`; the bridge between tiles 0 and 1 lacks one byte to its next unit. -/
def crossingState : State :=
  { modStream (modSlot State.reset 0 0 (fun _ => { st := .active, streams := [0] })) 0 0
      (fun x => { x with st := .run, descs := [{ reads := [crossingRead] }] })
    with resid := [(page .brg 0 + 0x10C, 4095)] }

/-- The offset from the page of the directory at which BRG_TX_BYTES of bridge 0 stands. -/
def bridgeOffset : Nat := page .brg 0 + 0x10C - page .dir 0

/-- `crossingState` with its read taken from the descriptor. -/
def crossingTaken : State := modDesc crossingState 0 0 0 (fun d => { d with reads := d.reads.erase crossingRead })

theorem checkRead_crossingTaken :
    checkRead crossingTaken crossingRead.src crossingRead.len .none (slot crossingState 0 0).ctag = (crossingTaken, none) := by
  rfl

/-- The bytes that cross the bridge move its counter. -/
theorem xeReadDataReturn_crossingState : ∃ t, exec (.xeReadDataReturn 0 0 0 .none) crossingState = .next t ∧
    rget t .dir 0 bridgeOffset ≠ rget crossingTaken .dir 0 bridgeOffset :=
  ⟨_, rfl, by decide +kernel⟩

end Sys2Proof.Machine

namespace Sys2Proof
open Machine

/-- Refutes O23: in `exitState` the last EXIT of a step with VE beat 0 leaves the counter 2³², which is no sum modulo 2³². -/
theorem not_veControl : ¬ Obligations.VeControl := by
  unfold Obligations.VeControl
  rintro ⟨⟨-, -, hexit⟩, -⟩
  obtain ⟨t, ht, -, -, -, -, hbeat, -⟩ := hexit _ _ _ _ _ _ _ _ exitState_issues
  obtain ⟨u, hu, hfull⟩ := veExit_exitState
  obtain rfl : t = u := by injection ht.symm.trans hu
  have hsum := hbeat { teLeft := 1, veLeft := 1 } (by decide)
  exact absurd (hfull.symm.trans hsum) (by decide)

/-- Refutes O24: in `lastOpState` the last operation of a step with TE beat 0 leaves the counter 2³², which is no sum modulo 2³². -/
theorem not_teTiles : ¬ Obligations.TeTiles := by
  unfold Obligations.TeTiles
  rintro ⟨-, -, -, -, -, hcomplete⟩
  obtain ⟨t, ht, -, -, hbeat, -⟩ := (hcomplete lastOpState 0 false {} .none (by decide)).1 (by decide)
  obtain ⟨u, hu, hfull⟩ := teOpComplete_lastOpState
  obtain rfl : t = u := by injection ht.symm.trans hu
  have hsum := hbeat { teLeft := 1, veLeft := 1 } (by decide)
  exact absurd (hfull.symm.trans hsum) (by decide)

/-- Refutes O26: in `crossingState` the data of a read cross a bridge, and the offset `bridgeOffset` from the directory's page names the
counter that they move. -/
theorem not_xeDescriptorWork : ¬ Obligations.XeDescriptorWork := by
  unfold Obligations.XeDescriptorWork
  rintro ⟨⟨-, -, -, -, -, hreturn, -⟩, -⟩
  obtain ⟨t, ht, -, -, -, -, hregs⟩ := (hreturn crossingState 0 0 0 0 0 0 crossingRead .none (by decide) (by decide)).1 crossingTaken
    (by decide) (by decide) (by decide) checkRead_crossingTaken (by decide) (by decide) (by decide) (by decide)
  obtain ⟨u, hu, hmoved⟩ := xeReadDataReturn_crossingState
  obtain rfl : t = u := by injection ht.symm.trans hu
  exact hmoved (hregs .dir 0 bridgeOffset (by decide))

end Sys2Proof
end

/-! ### Start of a descriptor (R94, R158, R161, R217, R247, R251)

First what a change of one strand, stream or object leaves of the others; then the start of a descriptor, one equation for each way
that its fetch can end. -/

section
namespace Sys2Proof.Machine

/-! #### One unit changes -/

section
variable {f : Core → Core} (s : State) (n m j : Nat)

theorem strand_modCore (hf : ∀ c, (f c).strands = c.strands := by intro; rfl) : strand (modCore s n f) m j = strand s m j := by
  unfold strand
  by_cases hm : m = n
  · rw [hm, core_modCore_self, hf]
  · rw [core_modCore_ne _ _ hm]

theorem syncObj_modCore (hf : ∀ c, (f c).sync = c.sync := by intro; rfl) : syncObj (modCore s n f) m j = syncObj s m j := by
  unfold syncObj
  by_cases hm : m = n
  · rw [hm, core_modCore_self, hf]
  · rw [core_modCore_ne _ _ hm]

theorem stream_modStream_ne {i} (g : Stream → Stream) (h : (m, j) ≠ (n, i)) : stream (modStream s n i g) m j = stream s m j := by
  by_cases hm : m = n
  · subst hm
    have hj : j ≠ i := fun e => h (by rw [e])
    simp [stream, modStream, mgetD_mupd_ne _ _ _ _ hj]
  · simp [stream, modStream, core_modCore_ne _ _ hm]

theorem modStream_frame (i : Nat) (g : Stream → Stream) : StreamFrame s (modStream s n i g) n i :=
  ⟨rfl, fun m j h => stream_modStream_ne s n m j g h, fun m j => slot_modStream s n i g m j, fun m j => strand_modCore s n m j,
    fun m o => syncObj_modCore s n m o⟩

theorem modStrand_frame (i : Nat) (g : Strand → Strand) : StrandFrame s (modStrand s n i g) n i :=
  ⟨rfl, fun _ _ h => strand_modStrand_ne s g h, fun m j => slot_modStrand s n i g m j, fun m o => syncObj_modCore s n m o⟩

end

/-! #### The fetch of a descriptor -/

section
variable {s s1 s2 : State} {n ph k i kind : Nat} {c : Chain} {ecc : Ecc} {r : List Byte}

/-- Each command that starts a descriptor is the start of one of its kind (R158). -/
theorem exec_xeKind {e : (Nat → Reader → Instr) × Nat} (h : e ∈ xeKinds) (s : State) (n ph : Nat) (ecc : Ecc) :
    exec (e.1 n ⟨ph, ecc⟩) s = .next (startDesc s n ph e.2 ecc) := by
  simp only [xeKinds, List.mem_cons, List.not_mem_nil, or_false] at h
  rcases h with rfl | rfl | rfl | rfl | rfl | rfl | rfl | rfl | rfl | rfl
  all_goals rfl

/-- The kinds of the descriptors are 1 to 10 (R158). -/
theorem xeKind_bounds {e : (Nat → Reader → Instr) × Nat} (h : e ∈ xeKinds) : 1 ≤ e.2 ∧ e.2 ≤ 10 := by
  simp only [xeKinds, List.mem_cons, List.not_mem_nil, or_false] at h
  rcases h with rfl | rfl | rfl | rfl | rfl | rfl | rfl | rfl | rfl | rfl
  all_goals decide

theorem startDesc_idle (h : streamOwner s n ph = none ∨ (stream s n ph).chain = none ∨
    (∃ k i, streamOwner s n ph = some (k, i) ∧ streamReady s n ph k = false)) : startDesc s n ph kind ecc = s := by
  unfold startDesc
  cases ho : streamOwner s n ph with
  | none => rfl
  | some o =>
    dsimp only
    cases hc : (stream s n ph).chain with
    | none => rfl
    | some c =>
      rw [ho, hc] at h
      obtain h | h | ⟨k, i, hki, hr⟩ := h
      · cases h
      · cases h
      · obtain rfl := Option.some.inj hki
        simp [hr]

/-- What a stream does once its fetch has answered. -/
def fetched (s : State) (n ph k i kind : Nat) (ecc : Ecc) : State × VaRead → State
  | (s', .fault _ f) => streamFault s' n ph k i (stream s n ph).next 0 f 0 0 0
  | (s', .poison e) => endCtx s' n k 5 e 3
  | (s', .ok r) => if dKind r = kind then startFetched s' n ph k i r (eccAfter ecc 1)
    else if 1 ≤ dKind r && dKind r ≤ 10 then s else xeErr s' eXeDescInvalid n k i

theorem XeFetches.startDesc (h : XeFetches s n ph k i c) : Machine.startDesc s n ph kind ecc =
    if secCount (slot s n k) 4 ≤ c.first + (stream s n ph).next then xeErr s eXeDescInvalid n k i
    else fetched s n ph k i kind ecc (xeFetch s n ph k c ecc) := by
  unfold Machine.startDesc
  rw [h.owner]
  dsimp only
  rw [h.chain]
  dsimp only
  rw [h.ready]
  rfl

theorem XeFetches.startDesc_inside (h : XeFetches s n ph k i c) (hi : c.first + (stream s n ph).next < secCount (slot s n k) 4) :
    Machine.startDesc s n ph kind ecc = fetched s n ph k i kind ecc (xeFetch s n ph k c ecc) :=
  h.startDesc.trans (if_neg (Nat.not_le.2 hi))

theorem XeStarts.startDesc (h : XeStarts s s1 n ph k i r ecc) :
    Machine.startDesc s n ph (dKind r) ecc = startFetched s1 n ph k i r (eccAfter ecc 1) := by
  obtain ⟨c, hf, hi, hr⟩ := h.fetches
  rw [hf.startDesc_inside hi, hr]
  exact if_pos rfl

/-- The fetch leaves the streams. -/
theorem XeStarts.stream (h : XeStarts s s1 n ph k i r ecc) (m j : Nat) : Machine.stream s1 m j = Machine.stream s m j := by
  obtain ⟨c, -, -, hr⟩ := h.fetches
  have hu : UnitsKept s (xeFetch s n ph k c ecc).1 := (UnitsKept.refl s).readVa
  rw [hr] at hu
  exact hu.stream m j

/-! #### The start of the descriptor that has come -/

theorem startFetched_waits (ho : dOrder r = true) (hd : (stream s n ph).descs ≠ []) : startFetched s n ph k i r ecc = s := by
  unfold startFetched
  simp [ho, hd]

/-- What an AGEN does once its table has answered (R247). -/
def tableRead (n ph k i : Nat) (r : List Byte) (next : Nat) : State × TabRead → State
  | (s, .ok bs ti) => beginDesc s n ph k i r (some bs) ti
  | (s, .invalid) => xeErr s eXeDescInvalid n k i
  | (s, .fault f t) => streamFault (modStream s n ph (fun x => { x with table := some t })) n ph k i next 0 f 0 0 0
  | (s, .poison e) => endCtx s n k 5 e 3

theorem startFetched_agen (ho : dOrder r = true → (stream s n ph).descs = []) (hk : dKind r = 5) :
    startFetched s n ph k i r ecc = tableRead n ph k i r (stream s n ph).next (readTable s n k (stream s n ph) r ecc) := by
  unfold startFetched
  dsimp only
  rw [if_neg (by simpa using ho), if_pos hk]
  rfl

theorem startFetched_other (ho : dOrder r = true → (stream s n ph).descs = []) (hk : dKind r ≠ 5) :
    startFetched s n ph k i r ecc = beginDesc s n ph k i r none 0 := by
  unfold startFetched
  dsimp only
  rw [if_neg (by simpa using ho), if_neg hk]

/-- The read of a table leaves the units. -/
theorem UnitsKept.readTable {t : State} {x : Stream} (h : UnitsKept s t) : UnitsKept s (readTable t n k x r ecc).1 := by
  unfold Machine.readTable
  extract_lets sl selObj v idx
  clear_value idx
  split
  · exact h
  · split
    · exact h
    · next j _ =>
      have hr := h.readVa (fuel := 2) (n := n) (asid := slotAsid t n k) (acc := accImage) (va := sl.rud + secOff sl 5 + 64 * j)
        (off := 0) (len := 64) (ctag := sl.ctag) (ecc := ecc)
      split
      · next heq => rw [heq] at hr; exact hr
      · next heq => rw [heq] at hr; exact hr
      · next heq => rw [heq] at hr; exact hr

theorem beginDesc_invalid {t : Option (List Byte)} (h : descOk s n k r (t.getD []) = false) (ti : Nat) :
    beginDesc s n ph k i r t ti = errCtx s eXeDescInvalid n k i := by
  unfold beginDesc
  rw [h]
  rfl

/-- A valid descriptor joins the active ones of its stream (R94, R158). -/
theorem beginDesc_begins {t : Option (List Byte)} (h : descOk s n k r (t.getD []) = true) (ti : Nat) :
    let u := beginDesc s n ph k i r t ti
    let x := stream s n ph
    (∃ d : ActDesc, (stream u n ph).descs = x.descs ++ [d] ∧ d.idx = x.next ∧ d.record = r ∧
      d.issued = x.offset ∧ d.done = x.offset ∧ d.table = t ∧ d.reads = [] ∧ d.pkts = []) ∧
    (stream u n ph).next = x.next + 1 ∧ (stream u n ph).chain = x.chain ∧ (stream u n ph).st = x.st ∧
    StreamFrame s u n ph := by
  unfold beginDesc
  rw [h, if_neg (by decide)]
  dsimp only
  rw [stream_modStream_self]
  exact ⟨⟨_, rfl, rfl, rfl, rfl, rfl, rfl, rfl, rfl⟩, rfl, rfl, rfl, modStream_frame s n ph _⟩

/-- The descriptor begins on what its fetch and, of an AGEN, its table have left. -/
theorem XeStarts.begins {tb : Option (List Byte)} {ti : Nat} (h : XeStarts s s1 n ph k i r ecc)
    (hother : dKind r ≠ 5 → tb = none ∧ ti = 0 ∧ s2 = s1)
    (hagen : dKind r = 5 → ∃ b, tb = some b ∧ readTable s1 n k (Machine.stream s1 n ph) r (eccAfter ecc 1) = (s2, .ok b ti)) :
    Machine.startDesc s n ph (dKind r) ecc = beginDesc s2 n ph k i r tb ti ∧ Machine.stream s2 n ph = Machine.stream s n ph := by
  rw [h.startDesc]
  by_cases hk : dKind r = 5
  · obtain ⟨b, rfl, hread⟩ := hagen hk
    have hu : UnitsKept s1 (readTable s1 n k (Machine.stream s1 n ph) r (eccAfter ecc 1)).1 := (UnitsKept.refl s1).readTable
    rw [startFetched_agen h.order hk, hread]
    rw [hread] at hu
    exact ⟨rfl, (hu.stream n ph).trans (h.stream n ph)⟩
  · obtain ⟨rfl, rfl, rfl⟩ := hother hk
    exact ⟨startFetched_other h.order hk, h.stream n ph⟩

theorem XeStarts.agen (h : XeStarts s s1 n ph k i r ecc) (hk : dKind r = 5) : Machine.startDesc s n ph (dKind r) ecc =
    tableRead n ph k i r (Machine.stream s1 n ph).next (readTable s1 n k (Machine.stream s1 n ph) r (eccAfter ecc 1)) := by
  rw [h.startDesc, startFetched_agen h.order hk]

end

/-- Settles O25: by the equation of each way that a descriptor's fetch, and an AGEN's table, can end. -/
theorem xeDescriptors : Obligations.XeDescriptors := by
  unfold Obligations.XeDescriptors
  refine ⟨fun e he s s1 n ph k i r ecc h hk => ?_, fun e he s n ph ecc => ?_⟩
  · rw [exec_xeKind he, ← hk]
    refine ⟨fun s2 tb ti hother hagen => ?_, fun s2 h5 hr => ?_, fun s2 f ti h5 hr => ?_, fun s2 er h5 hr => ?_⟩
    · obtain ⟨hstart, hstream⟩ := h.begins hother hagen
      rw [hstart, ← hstream]
      exact ⟨fun hok => ⟨_, exec_xeKind he s n ph ecc, by rw [← hk, hstart]; exact beginDesc_begins hok ti⟩,
        fun hbad => congrArg _ (beginDesc_invalid hbad ti)⟩
    · rw [h.agen h5, hr]
      rfl
    · rw [h.agen h5, hr]
      rfl
    · rw [h.agen h5, hr]
      rfl
  · rw [exec_xeKind he]
    refine ⟨fun h => congrArg _ (startDesc_idle h), fun k i c h =>
      ⟨fun hout => congrArg _ (h.startDesc.trans (if_pos hout)), fun hin => ?_⟩⟩
    rw [h.startDesc_inside hin]
    refine ⟨fun s1 o f hr => by rw [hr]; rfl, fun s1 er hr => by rw [hr]; rfl, fun s1 r hr => ?_⟩
    rw [hr, fetched]
    refine ⟨fun hk ho hd => ?_, fun hk h1 h10 => ?_, fun hbad => ?_⟩
    · rw [if_pos hk, startFetched_waits ho hd]
    · rw [if_neg hk, if_pos (by simp [h1, h10])]
    · obtain ⟨h1, h10⟩ := xeKind_bounds he
      rw [if_neg (by omega), if_neg (by simp; omega)]
      rfl

end Sys2Proof.Machine
end

/-! ### Save and restore (R97, R98, R189, R217, R261, R262) -/

section
namespace Sys2Proof.Machine

/-! #### The state of a slot that operations on its objects keep -/

section
variable (s : State) (n k : Nat)

theorem endCtx_st (cause err outcome : Nat) : (slot (endCtx s n k cause err outcome) n k).st = (slot s n k).st := by
  unfold endCtx
  dsimp only
  split
  · rfl
  · rw [slot_modSlot_self]

theorem errCtx_st (e : ErrCode) (det : Nat) : (slot (errCtx s e n k det) n k).st = (slot s n k).st := by
  rw [errCtx, endCtx_st, ((UnitsKept.refl s).recErr).slot]

theorem syncOp_st (i : Nat) (op : SyncOp) (remote : Bool) : (slot (syncOp s n k i op remote) n k).st = (slot s n k).st := by
  unfold syncOp
  split
  · rfl
  · next ph _ =>
    dsimp only
    split
    · exact errCtx_st ..
    · set u := modCore (modSync _ n ph _) n _ with hu
      have hst : (slot u n k).st = (slot s n k).st := by
        rw [hu, slot_modCore, slot_modSync]
        split
        · rfl
        · rfl
      split
      · rw [errCtx_st]
        split
        · rw [errCtx_st, hst]
        · exact hst
      · split
        · rw [errCtx_st, hst]
        · exact hst

end

/-! #### Save -/

section
variable {s s0 s1 : State} {n k : Nat} {rd : Reader}

/-- A slot whose save is in progress (R97). -/
structure Saving (sl : Slot) : Prop where
  st : sl.st = .preempting
  kept : sl.ending = none
  saving : sl.saving = true

/-- A save by the answers of its window's check, its sections' writes and its header's write (R97, R217, R261). The proof names the
three functions by variables, which keeps the kernel from running them. -/
theorem exec_saveComplete (h : Saving (slot s n rd.no)) :
    (∀ e, checkRead s (winDpa s n rd.no 0) (winBytes s n rd.no) rd.ecc (slot s n rd.no).ctag = (s0, some e) →
      exec (.saveComplete n rd) s = .next (endCtx s0 n rd.no 5 e 3)) ∧
    (checkRead s (winDpa s n rd.no 0) (winBytes s n rd.no) rd.ecc (slot s n rd.no).ctag = (s0, none) →
      (∀ off i, saveSections s0 n rd.no = (s1, some (off, i)) →
        exec (.saveComplete n rd) s = .next (saveFault s1 n rd.no off i)) ∧
      (saveSections s0 n rd.no = (s1, none) → ∀ (s2 : State) (f : Option (Nat × FaultInfo)),
        writeVa 2 s1 n (slotAsid s1 n rd.no) accSaveWrite (saveVa s1 n rd.no) 0
          (saveHeader s1 n rd.no (saveOffs (slot s n rd.no) (winBytes s n rd.no)).size) (slot s n rd.no).ctag = (s2, f) →
        exec (.saveComplete n rd) s =
          .next (f.elim (leaveSlot s2 n rd.no 2) (fun x => saveFault s2 n rd.no x.1 x.2)))) := by
  have hexec : exec (.saveComplete n rd) s = execSaveComplete n rd s := rfl
  rw [hexec, execSaveComplete]
  obtain ⟨check, hcheck⟩ := exists_eq' (a' := checkRead)
  obtain ⟨sects, hsects⟩ := exists_eq' (a' := saveSections)
  obtain ⟨write, hwrite⟩ := exists_eq' (a' := writeVa)
  rw [hcheck, hsects, hwrite]
  dsimp only
  rw [if_neg (by simp [h.st, h.kept, h.saving])]
  refine ⟨fun e he => ?_, fun hc => ⟨fun off i hs => ?_, fun hs s2 f hh => ?_⟩⟩
  · rw [he]
  · rw [hc]
    dsimp only
    rw [hs]
  · rw [hc]
    dsimp only
    rw [hs]
    dsimp only
    rw [hh]
    cases f with
    | none => rfl
    | some x => rfl

theorem exec_saveComplete_idle (h : (slot s n rd.no).st ≠ .preempting ∨ (slot s n rd.no).saving = false ∨
    (slot s n rd.no).ending.isSome) : exec (.saveComplete n rd) s = .next s := by
  show Host.Outcome.next (if _ then _ else _) = _
  rw [if_pos]
  rcases h with h | h | h
  · simp [h]
  · simp [h]
  · simp [Option.isNone_eq_false_iff.2 h]

/-- A fault on a save write ends the context with outcome SAVE_FAULT (R261). -/
theorem saveFault_ends (h : Saving (slot s n k)) (off : Nat) (i : FaultInfo) :
    (slot (saveFault s n k off i) n k).saving = false ∧ ((slot (saveFault s n k off i) n k).ending.map (·.outcome)) = some 4 ∧
      wbit (rget (saveFault s n k off i) .sq n 0x20) eSaveFault.bit = true := by
  unfold saveFault
  extract_lets u v
  have hslot : slot v n k = slot s n k := (UnitsKept.refl s).postFault.recErr.slot n k
  have hbit : wbit (rget v .sq n 0x20) eSaveFault.bit = true := recErr_sets u eSaveFault n k 0 _ (by decide)
  have hm : slot (modSlot v n k (fun sl => { sl with saving := false })) n k = { slot s n k with saving := false } := by
    rw [slot_modSlot_self, hslot]
  have hend : slot (endCtx (modSlot v n k (fun sl => { sl with saving := false })) n k 5 (errField eSaveFault) 4) n k =
      { slot s n k with
        saving := false, ending := some { cause := 5, err := errField eSaveFault, outcome := 4, us := v.us } } := by
    unfold endCtx
    dsimp only
    rw [hm, if_neg (by simp [h.st, h.kept]), slot_modSlot_self, hm]
    rfl
  refine ⟨congrArg Slot.saving hend, congrArg (fun sl => sl.ending.map (·.outcome)) hend, ?_⟩
  rw [rget_congr (endCtx_regs ..)]
  exact hbit

end

/-! #### Restore -/

section
variable {s s1 s2 : State} {n k : Nat} {rd : Reader} {h b : List Byte}

/-- What a restore has read in: the saved task in its slot (R98, R262). -/
def restoredSlot (s : State) (n k : Nat) (o : SaveOffs) (h b : List Byte) : State :=
  modSlot (restoreInto s n k o b) n k (fun sl => { sl with
    restoring := false, restored := true, loaded := false, rud := leAt h 0x18 8 % 2 ^ 48 })

/-- The engines' state and the window go into the units; the slot takes the fields of the SQ state section. -/
theorem slot_restoreInto (s : State) (n k : Nat) (o : SaveOffs) (b : List Byte) :
    slot (restoreInto s n k o b) n k = loadSq (slot s n k) (slice b 0 512) := by
  unfold restoreInto
  extract_lets sl at_ sl' s1 s2 s3 s4 s5
  have h1 : slot s1 n k = sl' := slot_modSlot_self s n k _
  have h2 : slot s2 n k = sl' := List.foldlRecOn (motive := fun u : State => slot u n k = sl') _ _ h1 fun u hu _ _ => by
    rw [slot_modStream, hu]
  have h3 : slot s3 n k = sl' := List.foldlRecOn (motive := fun u : State => slot u n k = sl') _ _ h2 fun u hu _ _ =>
    (slot_modCore u n n k).trans hu
  have h4 : slot s4 n k = sl' := List.foldlRecOn (motive := fun u : State => slot u n k = sl') _ _ h3 fun u hu _ _ => by
    rw [slot_modStrand, hu]
  have h5 : slot s5 n k = sl' := ((UnitsKept.refl s4).writeWin.slot n k).trans h4
  exact List.foldlRecOn (motive := fun u : State => slot u n k = sl') _ _ h5 fun u hu _ _ => by
    rw [slot_modSync, hu]

/-- The releases that a restored task recovers (R189) leave it as it is, but for an error that ends it. -/
theorem recoverReleases_kept (s : State) (n k : Nat) :
    TaskKept s (recoverReleases s n k) n k ∧ (slot (recoverReleases s n k) n k).st = (slot s n k).st := by
  refine List.foldlRecOn (motive := fun u : State => TaskKept s u n k ∧ (slot u n k).st = (slot s n k).st) _ _
    ⟨.refl s n k, rfl⟩ fun u hu e _ => ?_
  dsimp only
  split
  · exact hu
  · refine List.foldlRecOn (motive := fun u : State => TaskKept s u n k ∧ (slot u n k).st = (slot s n k).st) _ _ ⟨hu.1.modCore, ?_⟩
      fun v hv _ _ => ⟨hv.1.syncOp, (syncOp_st ..).trans hv.2⟩
    rw [slot_modCore]
    exact hu.2

theorem exec_restoreComplete (hr : (slot s n rd.no).restoring = true) (h1 : saveRead s n rd.no 0 256 rd.ecc = (s1, some h))
    (hok : saveHeaderOk s1 n rd.no h = true)
    (h2 : saveRead s1 n rd.no 256 ((saveOffs (slot s n rd.no) (winBytes s n rd.no)).size - 256) (eccAfter rd.ecc 4) = (s2, some b)) :
    exec (.restoreComplete n rd) s = .next (sqResult (wake (recoverReleases (setSt
      (restoredSlot s2 n rd.no (saveOffs (slot s n rd.no) (winBytes s n rd.no)) h b) n rd.no .active) n rd.no) n rd.no) n rd.no resOk) := by
  have hexec : exec (.restoreComplete n rd) s = execRestoreComplete n rd s := rfl
  rw [hexec, execRestoreComplete]
  obtain ⟨read, hread⟩ := exists_eq' (a' := saveRead)
  rw [hread] at h1 h2 ⊢
  dsimp only
  rw [hr, if_neg (by decide), h1]
  dsimp only
  rw [hok, if_neg (by decide), h2]
  rfl

/-- A restored task is ACTIVE again at its saved position, or WAITING there (R98, R189). -/
theorem restored_serves (u : State) (n k : Nat) :
    let t := sqResult (wake (recoverReleases (setSt u n k .active) n k) n k) n k resOk
    SameTask (slot u n k) (slot t n k) ∧ ((slot t n k).st = .active ∨ (slot t n k).st = .waiting) := by
  dsimp only
  rw [slot_sqResult]
  obtain ⟨hrel, hst⟩ := recoverReleases_kept (setSt u n k .active) n k
  exact ⟨(((TaskKept.refl u n k).setSt.trans hrel).wake).task, wake_serving (.inl (hst.trans (setSt_st u n k .active)))⟩

theorem exec_restore_idle (hr : (slot s n rd.no).restoring = false) :
    exec (.restoreHeaderRead n rd) s = .next s ∧ exec (.restoreComplete n rd) s = .next s := by
  have hpos : (!(slot s n rd.no).restoring) = true := by rw [hr]; rfl
  exact ⟨congrArg Host.Outcome.next (if_pos hpos), congrArg Host.Outcome.next (if_pos hpos)⟩

/-- The read of the header, and what is left when it fails (R98). -/
theorem exec_restore_unread (hr : (slot s n rd.no).restoring = true) (h1 : saveRead s n rd.no 0 256 rd.ecc = (s1, none)) :
    exec (.restoreHeaderRead n rd) s = .next s1 ∧ exec (.restoreComplete n rd) s = .next s1 := by
  have hhead : exec (.restoreHeaderRead n rd) s = execRestoreHeaderRead n rd s := rfl
  have hcompl : exec (.restoreComplete n rd) s = execRestoreComplete n rd s := rfl
  rw [hhead, hcompl, execRestoreHeaderRead, execRestoreComplete]
  obtain ⟨read, hread⟩ := exists_eq' (a' := saveRead)
  rw [hread] at h1 ⊢
  dsimp only
  rw [hr, if_neg (by decide), if_neg (by decide), h1]
  exact ⟨rfl, rfl⟩

theorem exec_restore_header (hr : (slot s n rd.no).restoring = true) (h1 : saveRead s n rd.no 0 256 rd.ecc = (s1, some h)) :
    (saveHeaderOk s1 n rd.no h = true → exec (.restoreHeaderRead n rd) s =
      .next (modSlot s1 n rd.no (fun sl => { sl with rud := leAt h 0x18 8 % 2 ^ 48 }))) ∧
    (saveHeaderOk s1 n rd.no h = false → exec (.restoreHeaderRead n rd) s = .next (restoreFail s1 n rd.no) ∧
      exec (.restoreComplete n rd) s = .next (restoreFail s1 n rd.no)) := by
  have hhead : exec (.restoreHeaderRead n rd) s = execRestoreHeaderRead n rd s := rfl
  have hcompl : exec (.restoreComplete n rd) s = execRestoreComplete n rd s := rfl
  rw [hhead, hcompl, execRestoreHeaderRead, execRestoreComplete]
  obtain ⟨read, hread⟩ := exists_eq' (a' := saveRead)
  rw [hread] at h1 ⊢
  dsimp only
  rw [hr, if_neg (by decide), if_neg (by decide), h1]
  dsimp only
  refine ⟨fun hok => ?_, fun hbad => ?_⟩
  · rw [hok, if_pos rfl]
  · rw [hbad]
    exact ⟨rfl, rfl⟩

end

/-- Settles O15: each command by the results of its checks, reads and writes in their order. -/
theorem sqSaves : Obligations.SqSaves := by
  unfold Obligations.SqSaves
  refine ⟨fun s n k => ⟨fun ⟨hst, hk, hall⟩ => ?_, fun h => ?_⟩,
    fun s s0 s1 n rd hst hk hs => ⟨fun e he => ?_, fun hc =>
      ⟨fun off i hsec => ?_, fun hsec s2 => ⟨fun off i hh => ?_, fun hh => ?_⟩⟩⟩,
    fun s n rd => exec_saveComplete_idle, fun s n k off i hn =>
      ⟨fun hst hs hk => ⟨_, ?_, saveFault_ends ⟨hst, hk, hs⟩ off i⟩, fun h => ?_⟩,
    fun s s1 n rd => ⟨exec_restore_idle, exec_restore_unread, fun h hr h1 => exec_restore_header hr h1⟩,
    fun s s1 s2 n rd h b hr h1 hok h2 => ⟨_, exec_restoreComplete hr h1 hok h2, ?_⟩⟩
  · exact congrArg Host.Outcome.next (if_pos (by simp [hst, hk, hall]))
  · exact congrArg Host.Outcome.next (if_neg (by simpa [and_assoc] using h))
  · exact (exec_saveComplete (s1 := s1) ⟨hst, hk, hs⟩).1 e he
  · exact ((exec_saveComplete ⟨hst, hk, hs⟩).2 hc).1 off i hsec
  · exact ((exec_saveComplete ⟨hst, hk, hs⟩).2 hc).2 hsec s2 _ hh
  · refine ⟨_, ((exec_saveComplete ⟨hst, hk, hs⟩).2 hc).2 hsec s2 _ hh, ?_⟩
    dsimp only [Option.elim_none]
    rw [slot_leaveSlot]
    exact ⟨rfl, rfl, rfl, rfl, rfl, rfl⟩
  · exact congrArg Host.Outcome.next (if_pos (by simp [hst, hk, hs]))
  · refine congrArg Host.Outcome.next (if_neg ?_)
    rcases h with h | h | h
    · simp [h]
    · simp [h]
    · simp [Option.isNone_eq_false_iff.2 h]
  · obtain ⟨htask, hst⟩ := restored_serves (restoredSlot s2 n rd.no (saveOffs (slot s n rd.no) (winBytes s n rd.no)) h b) n rd.no
    have hslot := slot_modSlot_self (restoreInto s2 n rd.no (saveOffs (slot s n rd.no) (winBytes s n rd.no)) b) n rd.no
      (fun sl => { sl with restoring := false, restored := true, loaded := false, rud := leAt h 0x18 8 % 2 ^ 48 })
    rw [slot_restoreInto] at hslot
    exact ⟨(congrArg Slot.restoring htask).trans (congrArg Slot.restoring hslot),
      (congrArg Slot.restored htask).trans (congrArg Slot.restored hslot), hst,
      (congrArg Slot.pos htask).trans (congrArg Slot.pos hslot)⟩

end Sys2Proof.Machine
end

/-! ### Issue and completion of a step (R82, R84, R102, R147 to R151, R496) -/

section
namespace Sys2Proof.Machine

/-! #### What the hand-over of a step's parts keeps of its slot -/

/-- Two states of a slot have issued the same steps, and have the same number in flight, the same grant and the same SQ beat. -/
structure StepsKept (a b : Slot) : Prop where
  issued : b.issued = a.issued := by rfl
  flights : b.inflight.length = a.inflight.length := by rfl
  granted : b.granted = a.granted := by rfl
  beatSq : b.beatSq = a.beatSq := by rfl

theorem StepsKept.trans {a b c : Slot} (h : StepsKept a b) (g : StepsKept b c) : StepsKept a c where
  issued := g.issued.trans h.issued
  flights := g.flights.trans h.flights
  granted := g.granted.trans h.granted
  beatSq := g.beatSq.trans h.beatSq

theorem SameTask.stepsKept {a b : Slot} (h : SameTask a b) : StepsKept a b where
  issued := by rw [h]
  flights := by rw [h]
  granted := by rw [h]
  beatSq := by rw [h]

/-- Only one slot may have changed, and it has issued the same steps. -/
structure HandedOver (s t : State) (n k : Nat) : Prop extends OthersKept s t n k where
  steps : StepsKept (slot s n k) (slot t n k)

section
variable {s t u : State} {c : Prop} {inst : Decidable c} {n k : Nat}

theorem TaskKept.handedOver (h : TaskKept s t n k) : HandedOver s t n k := ⟨h.toOthersKept, h.task.stepsKept⟩

theorem HandedOver.trans (h : HandedOver s t n k) (g : HandedOver t u n k) : HandedOver s u n k :=
  ⟨h.toOthersKept.trans g.toOthersKept, h.steps.trans g.steps⟩

protected theorem HandedOver.task (h : HandedOver s t n k) (g : TaskKept t t n k → TaskKept t u n k) : HandedOver s u n k :=
  h.trans (g (.refl t n k)).handedOver

protected theorem HandedOver.when (h : HandedOver s t n k) (hu : HandedOver s t n k → HandedOver s u n k) :
    HandedOver s (if c then u else t) n k := by
  split
  · exact hu h
  · exact h

protected theorem HandedOver.mapInflight {f : InFlight → InFlight} (h : HandedOver s t n k) :
    HandedOver s (modSlot t n k (fun sl => { sl with inflight := sl.inflight.map f })) n k := by
  refine ⟨h.toOthersKept.modSlot, ?_⟩
  rw [slot_modSlot_self]
  exact h.steps.trans { flights := List.length_map .. }

protected theorem HandedOver.feedTe (h : HandedOver s t n k) : HandedOver s (feedTe t n k) n k := by
  refine List.foldlRecOn (motive := (HandedOver s · n k)) _ _ h fun u hu f _ => ?_
  dsimp only
  split
  · exact hu
  · exact (hu.task (·.modCore)).mapInflight

protected theorem HandedOver.handTe {order first cnt} (h : HandedOver s t n k) : HandedOver s (handTe t n k order first cnt) n k :=
  h.mapInflight.feedTe

protected theorem TaskKept.handStrands {order v iter r} (h : TaskKept s t n k) :
    TaskKept s (handStrands t n k order v iter r) n k := by
  refine h.foldl fun {u i} hu => ?_
  split
  · exact hu.modStrand
  · exact hu

/-- The wait program takes from its objects alone (R153). -/
protected theorem TaskKept.consumeWaits {ops} (h : TaskKept s t n k) : TaskKept s (consumeWaits t n k ops) n k := by
  refine h.foldl fun {u o} hu => ?_
  split
  · exact hu
  · split
    · exact (hu.units (·.bump)).modSync
    · exact .when hu fun hu => (hu.units (·.bump)).modSync

end

/-! #### The pass over the step at the issue position -/

section
variable {s s1 : State} {n k : Nat} {r : List Byte} {ecc : Ecc}

theorem exec_stepIssue_idle (h : issuing s n k = false ∨ (slot s n k).loaded = false ∨ bufStep (slot s n k) (slot s n k).pos = none) :
    exec (.stepIssue n k ecc) s = .next s := by
  have hexec : exec (.stepIssue n k ecc) s = execStepIssue n k ecc s := rfl
  rw [hexec, execStepIssue]
  rcases h with h | h | h
  · simp [h]
  · simp [h]
  · simp [h]

/-- The step at the issue position comes up (R82). -/
structure ComesUp (s : State) (n k : Nat) (r : List Byte) : Prop where
  issuing : issuing s n k = true
  loaded : (slot s n k).loaded = true
  buffered : bufStep (slot s n k) (slot s n k).pos = some r

theorem ComesUp.exec (h : ComesUp s n k r) (ecc : Ecc) : Machine.exec (.stepIssue n k ecc) s =
    .next (if ecc = .uncorr then errCtx s eSqBufferEcc n k 0 else if stepTaken s n r then stepPass s n k r ecc else s) := by
  have hexec : Machine.exec (.stepIssue n k ecc) s = execStepIssue n k ecc s := rfl
  rw [hexec, execStepIssue]
  rw [if_neg (by simp [h.issuing, h.loaded]), h.buffered]

theorem ComesUp.exec_stepPass (h : ComesUp s n k r) (he : ecc ≠ .uncorr) (ht : stepTaken s n r = true) :
    Machine.exec (.stepIssue n k ecc) s = .next (stepPass s n k r ecc) := by
  rw [h.exec, if_neg he, if_pos ht]

theorem stepPass_invalid (h : stepCheck s n k r = .invalid) : stepPass s n k r ecc = errCtx s eSqStepInvalid n k (slot s n k).pos := by
  unfold stepPass
  rw [h]

theorem stepPass_range (h : stepCheck s n k r = .range) : stepPass s n k r ecc = errCtx s eSqSyncRange n k (slot s n k).pos := by
  unfold stepPass
  rw [h]

/-- A step at the head of a loop of 0 iterations, which is entered for the first time (R148). -/
def skipsLoop (s : State) (n k : Nat) (r : List Byte) : Bool := stLoopBegin r && !(slot s n k).reentry && decide (stLoopCount r = 0)

/-- The pass over a step that has passed its checks, up to its issue (R82, R148, R496). -/
theorem stepPass_ok (h : stepCheck s n k r = .ok) (hskip : skipsLoop s n k r = false) :
    (waitProgHolds s n k r = false ∨ 4 ≤ (slot s n k).inflight.length → stepPass s n k r ecc = refresh s n k) ∧
    (waitProgHolds s n k r = true → (slot s n k).inflight.length < 4 → (stHasTe r || stHasVe r || stHasXe r) = true →
      (slot s n k).granted = false → stepPass s n k r ecc = askGrant s n k (stBudget r)) ∧
    (waitProgHolds s n k r = true → (slot s n k).inflight.length < 4 → (slot s n k).granted = true → stHasXe r = false →
      stepPass s n k r ecc = issueStep s n k r []) := by
  unfold stepPass
  rw [h]
  dsimp only
  unfold skipsLoop at hskip
  rw [if_neg (by rw [hskip]; decide)]
  refine ⟨fun hw => if_pos ?_, fun hw hf hp hg => ?_, fun hw hf hg hx => ?_⟩
  · rcases hw with hw | hw
    · simp [hw]
    · simp [hw]
  · rw [if_neg (by simp [hw, hf]), if_pos (by simp only [hp, hg]; rfl)]
  · rw [if_neg (by simp [hw, hf]), if_neg (by simp [hg]), if_neg (by simp [hx])]

/-- A step with a part of the XE reads its chain entries from the image; with good ones it is issued (R150, R157). -/
theorem stepPass_chains {bs : List Byte} (h : stepCheck s n k r = .ok) (hskip : skipsLoop s n k r = false)
    (hw : waitProgHolds s n k r = true) (hf : (slot s n k).inflight.length < 4) (hx : stHasXe r = true)
    (hg : (slot s n k).granted = true) (hn : stXeCount r ≤ (slot s n k).streams.length)
    (hread : imageRead s n k (secOff (slot s n k) 3 + 8 * (stXeFirst r +
      stVariant s n k (pushedLoops (slot s n k) r) r * stXeStride r)) (8 * stXeCount r) ecc = (s1, some bs))
    (hes : ((List.range (stXeCount r)).map (fun i => slice bs (8 * i) 8)).all (fun e =>
      decide (leAt e 4 2 < (slot s n k).streams.length) && leAt e 6 2 = 0 &&
        decide (leAt e 0 4 < secCount (slot s n k) 4)) = true) :
    stepPass s n k r ecc = issueStep s1 n k r ((List.range (stXeCount r)).map (fun i => slice bs (8 * i) 8)) := by
  unfold stepPass
  rw [h]
  dsimp only
  unfold skipsLoop at hskip
  rw [if_neg (by rw [hskip]; decide), if_neg (by simp [hw, hf]), if_neg (by simp [hg]), if_pos hx, if_neg (Nat.not_lt.2 hn), hread]
  dsimp only
  simp only [List.all_eq_true, Bool.and_eq_true, decide_eq_true_eq] at hes
  rw [if_neg, if_neg]
  · simp only [List.any_eq_true, Bool.or_eq_true, decide_eq_true_eq, not_exists, not_and, not_or, not_not, Nat.not_le]
    exact fun e he => ⟨(hes e he).1.2, (hes e he).2⟩
  · simp only [List.any_eq_true, decide_eq_true_eq, not_exists, not_and, Nat.not_le]
    exact fun e he => (hes e he).1.1

/-- A task keeps its position and its issue number, also when it leaves with its last step complete (R148). -/
theorem checkDone_position {u v : State} (h : TaskKept u v n k) : (slot (checkDone v n k) n k).pos = (slot u n k).pos ∧
    (slot (checkDone v n k) n k).issued = (slot u n k).issued := by
  have hr : SameTask (slot u n k) (slot (refresh v n k) n k) := h.refresh.task
  obtain heq | ⟨-, heq⟩ := checkDone_cases v n k
  · rw [heq, hr]
    exact ⟨rfl, rfl⟩
  · rw [heq, slot_leaveSlot, hr]
    exact ⟨rfl, rfl⟩

/-- A loop of 0 iterations is skipped (R148). -/
theorem stepPass_skips (h : stepCheck s n k r = .ok) (hskip : skipsLoop s n k r = true) :
    (slot (stepPass s n k r ecc) n k).pos = stLoopExit r ∧ (slot (stepPass s n k r ecc) n k).issued = (slot s n k).issued ∧
      OtherSlots s (stepPass s n k r ecc) n k := by
  unfold stepPass
  rw [h]
  dsimp only
  unfold skipsLoop at hskip
  rw [if_pos hskip]
  refine ⟨(checkDone_position (.when (.refl _ n k) (·.errCtx))).1.trans ?_,
    (checkDone_position (.when (.refl _ n k) (·.errCtx))).2.trans ?_, (OthersKept.checkDone ?_).slots⟩
  · rw [slot_modSlot_self]
  · rw [slot_modSlot_self]
  · exact (OthersKept.refl s n k).modSlot.trans (TaskKept.when (.refl _ n k) (·.errCtx)).toOthersKept

/-- A BUDGET above the cap is recorded once (R496). -/
def capBudget (s : State) (n k budget : Nat) : State :=
  if max 1 (fld (rget s .pwr 0 0x124) 15 0) < budget && !(slot s n k).budgetCapped then
    recErr (modSlot s n k (fun sl => { sl with budgetCapped := true })) ePwrBudgetCap 0 k n (slot s n k).ctag
  else s

theorem capBudget_kept (s : State) (n k budget : Nat) : OthersKept s (capBudget s n k budget) n k ∧
    (slot (capBudget s n k budget) n k).pos = (slot s n k).pos ∧
    (slot (capBudget s n k budget) n k).issued = (slot s n k).issued ∧ (capBudget s n k budget).mem = s.mem := by
  unfold capBudget
  split
  · have hslot := slot_modSlot_self s n k (fun sl => { sl with budgetCapped := true })
    rw [((UnitsKept.refl _).recErr).slot, hslot]
    exact ⟨(OthersKept.refl s n k).modSlot.units (·.recErr), rfl, rfl, recErr_mem ..⟩
  · exact ⟨.refl s n k, rfl, rfl, rfl⟩

theorem askGrant_once (h : (slot s n k).grantAsked = false) (budget : Nat) : askGrant s n k budget =
    let u := modSlot (capBudget s n k budget) n k (fun sl => { sl with grantAsked := true, chargeAsked := stepCharge s n budget })
    { u with
      grantReqs := u.grantReqs ++ [(n, k, stepCharge s n budget, false)]
      poolAsked := mupd u.poolAsked (coreTile n) 0 (· + stepCharge s n budget) } := by
  unfold askGrant
  dsimp only
  rw [h]
  rfl

/-- The SQ asks for a step's charge once (R82, R496). -/
theorem askGrant_asks (s : State) (n k budget : Nat) :
    (slot (askGrant s n k budget) n k).grantAsked = true ∧ (slot (askGrant s n k budget) n k).pos = (slot s n k).pos ∧
      (slot (askGrant s n k budget) n k).issued = (slot s n k).issued ∧ OtherSlots s (askGrant s n k budget) n k ∧
      (askGrant s n k budget).mem = s.mem := by
  cases h : (slot s n k).grantAsked with
  | true =>
    unfold askGrant
    dsimp only
    rw [h]
    exact ⟨h, rfl, rfl, fun _ _ _ => rfl, rfl⟩
  | false =>
    rw [askGrant_once h]
    obtain ⟨hothers, hpos, hissued, hmem⟩ := capBudget_kept s n k budget
    have hslot := slot_modSlot_self (capBudget s n k budget) n k
      (fun sl => { sl with grantAsked := true, chargeAsked := stepCharge s n budget })
    exact ⟨congrArg Slot.grantAsked hslot, (congrArg Slot.pos hslot).trans hpos, (congrArg Slot.issued hslot).trans hissued,
      (hothers.modSlot (f := fun sl => { sl with grantAsked := true, chargeAsked := stepCharge s n budget })).slots, hmem⟩

/-! #### The issue -/

/-- A check of a chain of checks has not failed. -/
theorem StepCheck.of_ite {c : Prop} {inst : Decidable c} {x y : StepCheck} (hy : c → y ≠ .ok) (h : (if c then y else x) = .ok) :
    ¬ c ∧ x = .ok := by
  split at h
  · next hc => exact absurd h (hy hc)
  · next hc => exact ⟨hc, h⟩

/-- A step that passes its checks counts an SQ beat (R147). -/
theorem stBeat_ne_zero_of_stepCheck (h : stepCheck s n k r = .ok) : stBeat r 0 ≠ 0 := by
  unfold stepCheck at h
  extract_lets sl loops v wp sp selRange at h
  iterate 18 replace h := (StepCheck.of_ite (fun _ => by decide) h).2
  replace h := (StepCheck.of_ite id h).2
  replace h := (StepCheck.of_ite id h).2
  replace h := (StepCheck.of_ite (fun _ => by decide) h).2
  have hbeat := (StepCheck.of_ite (fun _ => by decide) h).1
  intro h0
  simp [h0] at hbeat

theorem addBeat_sq {inc : Nat} (h : inc ≠ 0) : OthersKept s (addBeat s n k 0 inc) n k ∧
    StepsKept { slot s n k with beatSq := ((slot s n k).beatSq + inc) % 2 ^ 32 } (slot (addBeat s n k 0 inc) n k) := by
  unfold addBeat
  rw [if_neg h, slot_modSlot_self]
  exact ⟨(OthersKept.refl s n k).modSlot, {}⟩

/-- A step with a part of the TE or the VE, and none of the XE, is issued (R82, R84, R150, R496). -/
theorem issueStep_issues (hb : stBeat r 0 ≠ 0) (hp : (stHasTe r || stHasVe r) = true) (hx : stHasXe r = false) :
    let t := issueStep s n k r []
    (slot t n k).issued = (slot s n k).issued + 1 ∧ (slot t n k).inflight.length = (slot s n k).inflight.length + 1 ∧
      (slot t n k).granted = false ∧ (slot t n k).beatSq = ((slot s n k).beatSq + stBeat r 0) % 2 ^ 32 ∧ OtherSlots s t n k := by
  intro t
  have ht : t = issueStep s n k r [] := rfl
  unfold issueStep at ht
  extract_lets sl loops v iter order u1 any f at ht
  generalize closeLoops (stEndLoops r) (sl.pos + 1) loops = q at ht
  obtain ⟨next, back, ls, bad⟩ := q
  dsimp -zeta only at ht
  extract_lets u2 u3 u4 u5 u6 u7 u8 at ht
  have h1 : TaskKept s u1 n k := (TaskKept.refl s n k).consumeWaits
  have h2 : OthersKept s u2 n k := h1.toOthersKept.modSlot
  have hslot2 : (slot u2 n k).issued = (slot s n k).issued + 1 ∧
      (slot u2 n k).inflight.length = (slot s n k).inflight.length + 1 ∧ (slot u2 n k).granted = false ∧
      (slot u2 n k).beatSq = (slot s n k).beatSq := by
    have hm : slot u2 n k = _ := slot_modSlot_self ..
    rw [hm]
    refine ⟨congrArg (· + 1) h1.task.stepsKept.issued, ?_, rfl, h1.task.stepsKept.beatSq⟩
    dsimp only
    rw [markDone, List.length_map, List.length_append, h1.task.stepsKept.flights]
    rfl
  have htr := (UnitsKept.refl u2).traceRec (n := n) (k := k) (ev := 1) (step := sl.pos)
  obtain ⟨h3, hslot3⟩ := addBeat_sq (s := traceRec u2 n k 1 sl.pos) (n := n) (k := k) hb
  rw [htr.slot] at hslot3
  have hte : HandedOver u3 u4 n k := .when (TaskKept.refl u3 n k).handedOver (·.handTe)
  have hve : HandedOver u3 u5 n k := hte.when (·.task (·.handStrands))
  have hxe : u6 = u5 := if_neg (by simp [hx])
  have herr : HandedOver u3 u7 n k := .when (hxe ▸ hve) (·.task (·.errCtx))
  have hany : u8 = u7 := if_pos (by simp only [any, hp, Bool.true_or])
  have hall : HandedOver u3 t n k := by
    rw [ht, hany]
    exact herr.task (·.wake)
  have hsteps := hslot3.trans hall.steps
  obtain ⟨hi, hf, hg, hbeat⟩ := hslot2
  refine ⟨hsteps.issued.trans hi, hsteps.flights.trans hf, hsteps.granted.trans hg, hsteps.beatSq.trans ?_,
    (((h2.units (·.traceRec)).trans h3).trans hall.toOthersKept).slots⟩
  rw [hbeat]

end

/-! #### The completion -/

section
variable {s t u : State} {n k : Nat}

/-- The steps in flight of a slot are as they were. -/
def FlightsKept (s t : State) (n k : Nat) : Prop := (slot t n k).inflight = (slot s n k).inflight

theorem FlightsKept.trans (h : FlightsKept s t n k) (g : FlightsKept t u n k) : FlightsKept s u n k := Eq.trans g h

theorem TaskKept.flights (h : TaskKept s t n k) : FlightsKept s t n k := by
  unfold FlightsKept
  rw [h.task]

theorem FlightsKept.modSlot {m j : Nat} {f : Slot → Slot} (h : FlightsKept s t n k)
    (hf : ∀ sl, (f sl).inflight = sl.inflight := by intro; rfl) : FlightsKept s (modSlot t m j f) n k := by
  refine h.trans ?_
  unfold FlightsKept
  by_cases hmj : (n, k) = (m, j)
  · obtain ⟨rfl, rfl⟩ := Prod.mk.inj hmj
    rw [slot_modSlot_self, hf]
  · rw [slot_modSlot_ne _ _ hmj]

theorem FlightsKept.endGroup {p group cause err} (h : FlightsKept s t n k) : FlightsKept s (endGroup t p group cause err) n k := by
  refine List.foldlRecOn (motive := (FlightsKept s · n k)) _ _ h fun u hu e _ => ?_
  dsimp only
  split
  · exact hu.modSlot
  · exact hu

protected theorem TaskKept.makeArrival {ph bar fabric} (h : TaskKept s t n k) : TaskKept s (makeArrival t n k ph bar fabric) n k := by
  unfold Machine.makeArrival
  extract_lets o u v
  have hv : TaskKept s v n k := ((h.units (·.bump)).modSync : TaskKept s u n k).modCore
  exact .ite hv.frame hv.frame

/-- A signal program leaves the steps in flight (R151, R184). -/
theorem runSignals_flights (ops : List (List Byte)) (s : State) (n k : Nat) : FlightsKept s (runSignals ops s n k) n k := by
  induction ops generalizing s with
  | nil => exact FlightsKept.modSlot rfl
  | cons o rest ih =>
    have hrest {u : State} (hu : TaskKept s u n k) : FlightsKept s (runSignals rest u n k) n k := hu.flights.trans (ih u)
    have herr (e : ErrCode) : FlightsKept s (errCtx s e n k (opObj o)) n k := ((TaskKept.refl s n k).errCtx).flights
    unfold runSignals
    split
    · rfl
    · dsimp only
      split
      · exact hrest (TaskKept.refl s n k).syncOp
      · split
        · exact hrest (TaskKept.refl s n k).syncOp
        · split
          · exact hrest (TaskKept.refl s n k).syncOp
          · split
            · exact ih s
            · split
              · split
                · exact herr _
                · exact FlightsKept.modSlot rfl
              · split
                · exact herr _
                · split
                  · exact (((TaskKept.refl s n k).units (·.recErr)).flights).endGroup
                  · split
                    · exact herr _
                    · exact hrest (TaskKept.refl s n k).makeArrival

/-- The step of an issue number is not in flight. -/
def Landed (sl : Slot) (order : Nat) : Prop := ∀ g ∈ sl.inflight, g.order ≠ order

theorem FlightsKept.landed {order : Nat} (h : FlightsKept s t n k) (hs : Landed (slot s n k) order) : Landed (slot t n k) order := by
  unfold Landed
  rw [h]
  exact hs

/-- A step that completes leaves the steps in flight (R151). -/
theorem completeStep_landed (s : State) (n k : Nat) (f : InFlight) : Landed (slot (completeStep s n k f) n k) f.order := by
  unfold completeStep
  extract_lets u1 u2 u3 u4
  have h2 : Landed (slot u2 n k) f.order := by
    have hslot : slot u2 n k = _ := slot_modSlot_self ..
    rw [hslot]
    intro g hg
    simpa using (List.mem_filter.1 hg).2
  have h3 : FlightsKept u2 u3 n k := by
    show FlightsKept u2 (match (slot u2 n k).bind with
      | some h => _
      | none => _) n k
    split
    · exact FlightsKept.modSlot rfl
    · exact (runSignals_flights ..).trans ((TaskKept.refl _ n k).wake).flights
  have h4 : FlightsKept u2 u4 n k := h3.modSlot fun sl => by
    split
    · rfl
    · rfl
  have h5 : Landed (slot (mirror u4 n k) n k) f.order := (((TaskKept.refl u4 n k).units (·.mirror)).flights).landed (h4.landed h2)
  obtain heq | ⟨-, heq⟩ := checkDone_cases (mirror u4 n k) n k
  · rw [heq]
    exact ((TaskKept.refl _ n k).refresh).flights.landed h5
  · rw [heq, slot_leaveSlot]
    intro g hg
    cases hg

theorem exec_stepComplete {order : Nat} {f : InFlight} (hf : nextDone (slot s n k) = some f) : exec (.stepComplete n k order) s =
    .next (if f.order = order && (slot s n k).ending.isNone then completeStep s n k f else s) := by
  have hexec : exec (.stepComplete n k order) s = execStepComplete n k order s := rfl
  rw [hexec, execStepComplete, hf]

end

/-- Settles O14: the pass over the step at the issue position by its checks in order, the issue by what its hand-overs keep, the completion by
what leaves the steps in flight. -/
theorem sqSteps : Obligations.SqSteps := by
  unfold Obligations.SqSteps
  refine ⟨fun s n k ecc => exec_stepIssue_idle, fun s n k r ecc hi hl hb => ?_, fun s n k order => ⟨fun f hf ho hk => ?_, fun h => ?_⟩⟩
  · have hup : ComesUp s n k r := ⟨hi, hl, hb⟩
    refine ⟨fun he => by rw [hup.exec, if_pos he], fun he ht => by rw [hup.exec, if_neg he, ht]; rfl, fun he ht => ?_⟩
    have hexec := hup.exec_stepPass he ht
    refine ⟨fun hc => hexec.trans (congrArg _ (stepPass_invalid hc)), fun hc => hexec.trans (congrArg _ (stepPass_range hc)),
      fun hc hskip => ⟨_, hexec, stepPass_skips hc hskip⟩, fun hc hskip => ?_⟩
    obtain ⟨hwaits, hasks, hissues⟩ := stepPass_ok (ecc := ecc) hc hskip
    refine ⟨fun h => hexec.trans (congrArg _ (hwaits h)),
      fun hw hf hp hg => ⟨_, hexec.trans (congrArg _ (hasks hw hf hp hg)), askGrant_asks ..⟩,
      fun hw hf hp hx hg => ⟨_, hexec.trans (congrArg _ (hissues hw hf hg hx)), issueStep_issues (stBeat_ne_zero_of_stepCheck hc) hp hx⟩,
      fun s1 bs hw hf hx hg hn hread hes => hexec.trans (congrArg _ (stepPass_chains hc hskip hw hf hx hg hn hread hes))⟩
  · refine ⟨_, (exec_stepComplete hf).trans (congrArg _ (if_pos (by simp [ho, hk]))), ?_⟩
    exact ho ▸ completeStep_landed s n k f
  · cases hf : nextDone (slot s n k) with
    | none =>
      have hexec : exec (.stepComplete n k order) s = execStepComplete n k order s := rfl
      rw [hexec, execStepComplete, hf]
    | some f =>
      rw [exec_stepComplete hf, if_neg]
      rcases h f hf with h | h
      · simp [h]
      · simp [Option.isNone_eq_false_iff.2 h]

end Sys2Proof.Machine
end

/-! ### The Vector Engine: what an issue leaves, and the lanes of a register (R72, R88, R91, R101, R102, R217)

First the registers that the findings of an issue leave; then the issue of one command; then lane by lane what a write of the guarded
lanes does. -/

section
namespace Sys2Proof.Machine

/-! #### The registers that findings leave -/

/-- Every register that no record writes is as it was. -/
def QuietRegs (s t : State) : Prop := ∀ a, errQuiet a → a ≠ page .pce 0 + 0x114 → regGet t a = regGet s a

section
variable {s t u : State} {n k : Nat}

theorem QuietRegs.refl (s : State) : QuietRegs s s := fun _ _ _ => rfl

theorem QuietRegs.trans (h : QuietRegs s t) (g : QuietRegs t u) : QuietRegs s u := fun a ha hp => (g a ha hp).trans (h a ha hp)

protected theorem QuietRegs.frame (h : QuietRegs s t) (hr : u.regs = t.regs := by rfl) : QuietRegs s u :=
  h.trans fun a _ _ => regGet_congr hr a

protected theorem QuietRegs.recErr {e i sub det ctag} (h : QuietRegs s t) : QuietRegs s (recErr t e i sub det ctag) :=
  h.trans fun a ha hp => recErr_quiet t e i sub det ctag a ha hp

protected theorem QuietRegs.when {c : Prop} {inst : Decidable c} (h : QuietRegs s t) (hu : QuietRegs s t → QuietRegs s u) :
    QuietRegs s (if c then u else t) := by
  split
  · exact hu h
  · exact h

protected theorem QuietRegs.corePending (h : QuietRegs s t) : QuietRegs s (corePending t n) := by
  unfold Machine.corePending
  split
  · exact h
  · exact h.frame

/-- A quiet register of a page. -/
theorem QuietRegs.rget {b : Block} {i off : Nat} (h : QuietRegs s t) (ho : off < 0x1000)
    (hq : off ∉ [0x20, 0x30, 0x34, 0x38, 0x114, 0x124]) : rget t b i off = rget s b i off := by
  have hp := page_mod b i
  have hpce := page_mod .pce 0
  simp only [List.mem_cons, List.not_mem_nil, or_false, not_or] at hq
  obtain ⟨h1, h2, h3, h4, h5, h6⟩ := hq
  refine h _ (errQuiet_page b i ho (by simp [*])) ?_
  omega

/-! #### Reads of local memory -/

/-- From the first byte of local memory on, an address is one of a core's or of none. -/
theorem dpaKind_local {d : Nat} (h : lmBase ≤ d) : (∃ m o, dpaKind d = .lm m o) ∨ dpaKind d = .none := by
  have hd : 0x200000000000 ≤ d := h
  have hstg : ¬ d < stgBase + 0x60000000 := by
    unfold stgBase
    omega
  unfold dpaKind
  rw [if_neg (by omega), if_neg (by simp [hstg])]
  split
  · exact .inl ⟨_, _, rfl⟩
  · exact .inr rfl

variable {d : Nat} {ctag : Word} (hd : lmBase ≤ d)
include hd

theorem QuietRegs.memCorr {permanent} (h : QuietRegs s t) : QuietRegs s (memCorr t d permanent) := by
  unfold Machine.memCorr
  obtain ⟨m, o, hk⟩ | hk := dpaKind_local hd
  · rw [hk]
    exact h.recErr.when (·.corePending)
  · rw [hk]
    exact h

theorem QuietRegs.memUncorr (h : QuietRegs s t) : QuietRegs s (memUncorr t d ctag) := by
  unfold Machine.memUncorr
  obtain ⟨m, o, hk⟩ | hk := dpaKind_local hd
  · rw [hk]
    exact .when (QuietRegs.frame (h.frame (u := poisonGranule t (d / 64))).recErr) (·.corePending)
  · rw [hk]
    exact h.frame

theorem QuietRegs.memPoisonRead (h : QuietRegs s t) : QuietRegs s (memPoisonRead t d ctag) := by
  unfold Machine.memPoisonRead
  obtain ⟨m, o, hk⟩ | hk := dpaKind_local hd
  · rw [hk]
    exact h.recErr
  · rw [hk]
    exact h

theorem lmBase_le_granule {len g : Nat} (hg : g ∈ granules d len) : lmBase ≤ 64 * g := by
  unfold granules at hg
  split at hg
  · cases hg
  · obtain ⟨i, -, rfl⟩ := List.mem_map.1 hg
    simp only [lmBase] at hd ⊢
    omega

theorem QuietRegs.checkRead {len ecc} (h : QuietRegs s t) : QuietRegs s (checkRead t d len ecc ctag).1 := by
  have hgs (g : Nat) (x : Nat) (hx : (granules d len)[g]? = some x) : lmBase ≤ 64 * x :=
    lmBase_le_granule hd (List.mem_of_getElem? hx)
  unfold Machine.checkRead
  extract_lets gs pre fresh t1 t2
  have hcorr (g : Nat) (permanent : Bool) : QuietRegs s (match gs[g]? with
      | some x => Machine.memCorr t (64 * x) permanent
      | none => t) := by
    cases hx : gs[g]? with
    | none => exact h
    | some x => exact h.memCorr (hgs g x hx)
  have h1 : QuietRegs s t1 := by
    cases ecc with
    | memCorr g => exact hcorr g false
    | memPermanent g => exact hcorr g true
    | _ => exact h
  have hfresh (x : Nat) (hx : fresh = some x) : lmBase ≤ 64 * x := by
    cases ecc with
    | memUncorr g => exact hgs g x (Option.filter_eq_some_iff.1 hx).1
    | _ => simp [fresh] at hx
  have h2 : QuietRegs s t2 := by
    clear_value fresh
    cases fresh with
    | none => exact h1
    | some x => exact h1.memUncorr (hfresh x rfl)
  exact List.foldlRecOn (motive := QuietRegs s) pre _ h2 fun u hu g hg =>
    hu.memPoisonRead (lmBase_le_granule hd (List.mem_filter.1 hg).1)

end

theorem lmBase_le_winDpa (s : State) (n k off : Nat) : lmBase ≤ winDpa s n k off := by
  unfold winDpa lmDpa
  omega

/-! #### The issue of an instruction -/

section
variable {s s1 : State} {n ph opc k i w : Nat} {ecc : Ecc}

/-- What an issue finds leaves the units and the quiet registers (R102, R217). -/
theorem vePre_kept (h : vePre s n ph k i ecc = (s1, true)) : UnitsKept s s1 ∧ QuietRegs s s1 := by
  unfold vePre at h
  set u := if ecc = .corr then recErr s eVeRegEccCorr n k i (slot s n k).ctag else s
  have hu : UnitsKept s u := .when (.refl s) (·.recErr)
  have hr : QuietRegs s u := .when (.refl s) (·.recErr)
  dsimp only at h
  split at h
  · simp at h
  · have hu' := hu.checkRead (d := winDpa u n k ((strand u n ph).entry + 8 * (strand u n ph).pc)) (len := 8) (ecc := ecc)
      (ctag := (slot u n k).ctag)
    have hr' := hr.checkRead (lmBase_le_winDpa u n k ((strand u n ph).entry + 8 * (strand u n ph).pc)) (len := 8) (ecc := ecc)
      (ctag := (slot u n k).ctag)
    split at h
    · simp at h
    · next heq =>
      rw [heq] at hu' hr'
      obtain rfl := (Prod.mk.inj h).1
      exact ⟨hu', hr'⟩

variable (h : VeIssues s s1 n ph opc k i w ecc)
include h

theorem VeIssues.units : UnitsKept s s1 := (vePre_kept h.clean).1

theorem VeIssues.quiet : QuietRegs s s1 := (vePre_kept h.clean).2

/-- The effect of the instruction that issues (R92, R101). -/
theorem VeIssues.veRun (f : State → Nat → Nat → Nat → State) : Machine.veRun s n ph opc ecc f = f (veCounted s1 n) k i w := by
  unfold Machine.veRun
  rw [h.fetch]
  dsimp only
  rw [if_neg (by simp [h.opcode]), h.clean]
  dsimp only
  rw [h.good]
  rfl

theorem VeIssues.veReg (f : Strand → Nat → Strand) :
    Machine.veReg s n ph opc ecc f = modStrand (veCounted s1 n) n ph (fun x => vAdvance (f x w) x.pc) := h.veRun _

/-- An instruction that changes its strand, on a state that counts it. -/
theorem VeIssues.frame {u : State} (hu : u = { s1 with regs := u.regs }) (g : Strand → Strand) :
    strand (modStrand u n ph g) n ph = g (strand s n ph) ∧ StrandFrame s1 (modStrand u n ph g) n ph := by
  obtain ⟨rs, rfl⟩ : ∃ rs, u = { s1 with regs := rs } := ⟨_, hu⟩
  have hk : UnitsKept s1 { s1 with regs := rs } := (UnitsKept.refl s1).frame
  obtain ⟨-, hstrand, hslot, hsync⟩ := modStrand_frame { s1 with regs := rs } n ph g
  refine ⟨?_, rfl, fun m j hmj => (hstrand m j hmj).trans (hk.strand m j), fun m j => (hslot m j).trans (hk.slot m j),
    fun m o => (hsync m o).trans (hk.syncObj m o)⟩
  rw [strand_modStrand_self, hk.strand, h.units.strand]

/-- VE_OPS counts the instruction (R101). -/
theorem VeIssues.counts : rget (veCounted s1 n) .ve n 0x128 = wd (min 0xFFFFFFFF ((rget s .ve n 0x128).toNat + 1)) := by
  unfold veCounted bump
  rw [rget_rset_off _ _ _ _ (by decide), rget_rset_self, h.quiet.rget (by decide) (by decide)]

end

/-! #### The lanes of a register -/

section
variable {x y z : Strand} {r l v w : Nat}

theorem wd_toNat (n : Nat) : (wd n).toNat = n % 2 ^ 32 := BitVec.toNat_ofNat n 32

theorem vReg_setV (hl : l < 32) {r' l' : Nat} (hl' : l' < 32) :
    vReg (setV x r l v) r' l' = if r' = r ∧ l' = l then v % 2 ^ 32 else vReg x r' l' := by
  unfold vReg setV
  split
  · next heq =>
    obtain ⟨rfl, rfl⟩ := heq
    rw [mgetD_mput_self, wd_toNat]
  · next hne => rw [mgetD_mput_ne _ _ _ (by omega)]

theorem sReg_setS_self : sReg (setS x r v) r = v % 2 ^ 32 := by
  unfold sReg setS
  rw [mgetD_mput_self, wd_toNat]

theorem sReg_setS_ne {r' : Nat} (h : r' ≠ r) : sReg (setS x r v) r' = sReg x r' := by
  unfold sReg setS
  rw [mgetD_mput_ne _ _ _ h]

theorem mem_vLanes : l ∈ vLanes x w ↔ l < 32 ∧ bit (vGuard x w) l = true := by
  unfold vLanes onesBelow
  rw [List.mem_filter, List.mem_range]

theorem vLanes_pairwise (x : Strand) (w : Nat) : (vLanes x w).Pairwise (· < ·) := List.pairwise_lt_range.filter _

/-- Two strands differ in their V registers alone. -/
def VOnly (x y : Strand) : Prop := y = { x with v := y.v }

/-- Writing lanes of one V register: the lanes of the list take their values, the others stay. -/
theorem foldl_setV (f : Nat → Nat) (r : Nat) (ls : List Nat) (x : Strand) (hls : ∀ l ∈ ls, l < 32) :
    VOnly x (ls.foldl (fun y l => setV y r l (f l)) x) ∧ ∀ r' l, l < 32 →
      vReg (ls.foldl (fun y l => setV y r l (f l)) x) r' l = if r' = r ∧ l ∈ ls then f l % 2 ^ 32 else vReg x r' l := by
  induction ls generalizing x with
  | nil => exact ⟨rfl, fun r' l _ => by simp⟩
  | cons a ls ih =>
    have ha : a < 32 := hls a (by simp)
    obtain ⟨hv, hreg⟩ := ih (setV x r a (f a)) fun l hl => hls l (by simp [hl])
    refine ⟨hv, fun r' l hl => ?_⟩
    rw [List.foldl_cons, hreg r' l hl, vReg_setV ha hl]
    by_cases hr : r' = r
    · by_cases hla : l = a
      · simp [hr, hla]
      · simp [hr, hla]
    · simp [hr]

/-- What the guarded lanes of D take (R91). -/
theorem vWrite_lanes (x : Strand) (w : Nat) (f : Nat → Nat) : VOnly x (vWrite x w f) ∧ ∀ r l, l < 32 →
    vReg (vWrite x w f) r l = if r = vD w ∧ bit (vGuard x w) l = true then f l % 2 ^ 32 else vReg x r l := by
  obtain ⟨hv, hreg⟩ := foldl_setV f (vD w) (vLanes x w) x fun l hl => (mem_vLanes.1 hl).1
  refine ⟨hv, fun r l hl => ?_⟩
  unfold vWrite
  rw [hreg r l hl]
  simp only [mem_vLanes, hl, true_and]

/-- What an element-wise instruction makes of its strand (R91, R92). -/
structure LaneResult (x y : Strand) (w : Nat) (f : Nat → Nat → Nat → Nat → Nat) : Prop where
  vector : vSc w = false → y.sreg = x.sreg ∧ ∀ lane, lane < 32 → vReg y (vD w) lane = if bit (vGuard x w) lane then
    f lane (vReg x (vA w) lane) (vReg x (vB w) lane) (vReg x (vC w) lane) % 2 ^ 32 else vReg x (vD w) lane
  scalar : vSc w = true → y.v = x.v ∧ (∀ r, r ≠ vD w → sReg y r = sReg x r) ∧
    sReg y (vD w) = if bit (vGuard x w) 0 then f 0 (sReg x (vA w)) (sReg x (vB w)) (sReg x (vC w)) % 2 ^ 32 else sReg x (vD w)
  others : ∀ r lane, r ≠ vD w → lane < 32 → vReg y r lane = vReg x r lane
  preg : y.preg = x.preg
  pc : y.pc = x.pc
  loops : y.loops = x.loops
  run : y.run = x.run

theorem vReg_lt (x : Strand) (r l : Nat) : vReg x r l < 2 ^ 32 := BitVec.isLt _

theorem sReg_lt (x : Strand) (r : Nat) : sReg x r < 2 ^ 32 := BitVec.isLt _

theorem LaneResult.congr {f g : Nat → Nat → Nat → Nat → Nat} (h : LaneResult x y w f)
    (hfg : ∀ lane a b c, a < 2 ^ 32 → f lane a b c % 2 ^ 32 = g lane a b c % 2 ^ 32) : LaneResult x y w g where
  vector hs := by
    obtain ⟨hsreg, hv⟩ := h.vector hs
    refine ⟨hsreg, fun lane hl => ?_⟩
    rw [hv lane hl, hfg _ _ _ _ (vReg_lt ..)]
  scalar hs := by
    obtain ⟨hv, hne, hd⟩ := h.scalar hs
    refine ⟨hv, hne, ?_⟩
    rw [hd, hfg _ _ _ _ (sReg_lt ..)]
  others := h.others
  preg := h.preg
  pc := h.pc
  loops := h.loops
  run := h.run

/-- An instruction without a scalar form writes the guarded lanes of D. -/
theorem laneResult_vWrite (hs : vSc w = false) (f : Nat → Nat → Nat → Nat → Nat) :
    LaneResult x (vWrite x w (fun i => f i (vReg x (vA w) i) (vReg x (vB w) i) (vReg x (vC w) i))) w f := by
  obtain ⟨hv, hreg⟩ := vWrite_lanes x w (fun i => f i (vReg x (vA w) i) (vReg x (vB w) i) (vReg x (vC w) i))
  exact {
    vector := fun _ => ⟨by rw [hv], fun lane hl => by rw [hreg _ _ hl]; simp⟩
    scalar := fun h => absurd h (by simp [hs])
    others := fun r lane hr hl => by rw [hreg r lane hl, if_neg (fun h => hr h.1)]
    preg := by rw [hv]
    pc := by rw [hv]
    loops := by rw [hv]
    run := by rw [hv] }

/-- The element form (R91, R92). -/
theorem laneResult_vElement (x : Strand) (w : Nat) (f : Nat → Nat → Nat → Nat) :
    LaneResult x (vElement x w f) w (fun _ => f) := by
  unfold vElement
  cases hs : vSc w with
  | false =>
    rw [if_neg (by decide)]
    exact laneResult_vWrite hs (fun _ => f)
  | true =>
    rw [if_pos rfl]
    split
    · next hg => exact {
        vector := fun h => absurd h (by simp [hs])
        scalar := fun _ => ⟨rfl, fun r hr => sReg_setS_ne hr, by rw [sReg_setS_self, if_pos hg]⟩
        others := fun _ _ _ _ => rfl
        preg := rfl
        pc := rfl
        loops := rfl
        run := rfl }
    · next hg => exact {
        vector := fun h => absurd h (by simp [hs])
        scalar := fun _ => ⟨rfl, fun _ _ => rfl, by rw [if_neg hg]⟩
        others := fun _ _ _ _ => rfl
        preg := rfl
        pc := rfl
        loops := rfl
        run := rfl }

end

end Sys2Proof.Machine
end

/-! ### The lane instructions of the Vector Engine (R91, R92, R93, R101, R131) -/

section
namespace Sys2Proof.Machine

/-! #### From a lane result to the instruction -/

section
variable {c : Nat → Nat → Ecc → Instr} {opc : Nat} {f : Strand → Nat → Nat → Nat → Nat → Nat → Nat} {e : Strand → Nat → Strand}

/-- A counter besides VE_OPS that an instruction may count. -/
def CountsBeside (count : State → Nat → State) : Prop := ∀ s n, count s n = { s with regs := (count s n).regs } ∧
  rget (count s n) .ve n 0x128 = rget s .ve n 0x128

/-- An instruction that makes a lane result of its strand. -/
theorem laneOp_of_laneResult {count : State → Nat → State} (hcount : CountsBeside count)
    (hexec : ∀ n ph ecc s, exec (c n ph ecc) s = .next (veRun s n ph opc ecc (fun s _ _ w =>
      modStrand (count s n) n ph (fun x => vAdvance (e x w) x.pc))))
    (hres : ∀ x w, vOpc w = opc → vBad w = false → LaneResult x (e x w) w (f x w)) : LaneOp c opc f := by
  intro s s1 n ph k i w ecc h
  obtain ⟨hregs, hcnt⟩ := hcount (veCounted s1 n) n
  have hu : count (veCounted s1 n) n = { s1 with regs := (count (veCounted s1 n) n).regs } := hregs
  obtain ⟨hstrand, hframe⟩ := h.frame hu (fun x => vAdvance (e x w) x.pc)
  have hr := hres (strand s n ph) w h.opcode h.good
  refine ⟨_, (hexec n ph ecc s).trans (congrArg _ (h.veRun _)), ?_⟩
  dsimp only
  rw [hstrand]
  have hpc : (vAdvance (e (strand s n ph) w) (strand s n ph).pc).pc = (loopNext (strand s n ph).pc (strand s n ph).loops).1 :=
    congrArg (fun l => (loopNext (strand s n ph).pc l).1) hr.loops
  have hloops : (vAdvance (e (strand s n ph) w) (strand s n ph).pc).loops = (loopNext (strand s n ph).pc (strand s n ph).loops).2 :=
    congrArg (fun l => (loopNext (strand s n ph).pc l).2) hr.loops
  exact ⟨hr.vector, hr.scalar, hr.others, hr.preg, hpc, hloops, hr.run, hcnt.trans h.counts, hframe⟩

theorem laneOp_veReg (hexec : ∀ n ph ecc s, exec (c n ph ecc) s = .next (veReg s n ph opc ecc e))
    (hres : ∀ x w, vOpc w = opc → vBad w = false → LaneResult x (e x w) w (f x w)) : LaneOp c opc f :=
  laneOp_of_laneResult (count := fun s _ => s) (fun _ _ => ⟨rfl, rfl⟩) hexec hres

/-- An instruction in element form. -/
theorem laneOp_vElement {g : Nat → Nat → Nat → Nat → Nat}
    (hexec : ∀ n ph ecc s, exec (c n ph ecc) s = .next (veReg s n ph opc ecc (fun x w => vElement x w (g w))))
    (hfg : ∀ x w lane a b c, a < 2 ^ 32 → g w a b c % 2 ^ 32 = f x w lane a b c % 2 ^ 32) : LaneOp c opc f :=
  laneOp_veReg hexec fun x w _ _ => (laneResult_vElement x w (g w)).congr fun lane a b c => hfg x w lane a b c

/-- An instruction that has no scalar form. -/
theorem laneOp_vWrite (hsc : vScOk opc = false) (hexec : ∀ n ph ecc s, exec (c n ph ecc) s =
      .next (veReg s n ph opc ecc (fun x w => vWrite x w (fun i => f x w i (vReg x (vA w) i) (vReg x (vB w) i) (vReg x (vC w) i))))) :
    LaneOp c opc f := by
  refine laneOp_veReg hexec fun x w hopc hgood => laneResult_vWrite ?_ (f x w)
  cases hs : vSc w with
  | false => rfl
  | true =>
    unfold vBad at hgood
    simp [hopc, hsc, hs] at hgood

theorem vTrans_counts : CountsBeside (fun s n => bump s .ve n 0x12C 1) := fun _ _ => ⟨rfl, rget_rset_off _ _ _ _ (by decide)⟩

/-- A transcendental instruction (R93). -/
theorem laneOp_veTrans (hexec : ∀ n ph ecc s, exec (c n ph ecc) s = .next (veTrans s n ph opc ecc)) :
    LaneOp c opc (fun _ w _ a _ _ => vTrans opc (vTy w) a) :=
  laneOp_of_laneResult vTrans_counts hexec fun x w _ _ => laneResult_vElement x w (fun a _ _ => vTrans opc (vTy w) a)

/-- VE_TRANS_OPS counts a transcendental instruction (R101). -/
theorem veTrans_counts (hexec : ∀ n ph ecc s, exec (c n ph ecc) s = .next (veTrans s n ph opc ecc)) {s s1 : State} {n ph k i w : Nat}
    {ecc : Ecc} (h : VeIssues s s1 n ph opc k i w ecc) : Completes (c n ph ecc) s (fun t =>
      rget t .ve n 0x12C = wd (min 0xFFFFFFFF ((rget s .ve n 0x12C).toNat + 1))) := by
  refine ⟨_, (hexec n ph ecc s).trans (congrArg _ (h.veRun _)), ?_⟩
  dsimp only
  rw [rget_congr (modStrand_regs ..), bump, rget_rset_self, veCounted, bump, bump, rget_rset_off _ _ _ _ (by decide),
    rget_rset_off _ _ _ _ (by decide), h.quiet.rget (by decide) (by decide)]

end

/-! #### Shifts -/

/-- The signed value of a word, as the library has it. -/
theorem sint_eq_toInt {a : Nat} (h : a < 2 ^ 32) : sint a = (wd a).toInt := by
  unfold sint
  rw [BitVec.toInt_eq_toNat_cond, wd_toNat, Nat.mod_eq_of_lt h]
  split
  · rw [if_pos (by omega)]
  · rw [if_neg (by omega)]
    rfl

/-- SAR keeps the sign (R92). -/
theorem sarWord_eq_sshiftRight {a : Nat} (h : a < 2 ^ 32) (k : Nat) : sarWord a k = (BitVec.sshiftRight (wd a) k).toNat := by
  unfold sarWord wordOfInt BitVec.sshiftRight
  rw [BitVec.toNat_ofInt, sint_eq_toInt h, Int.shiftRight_eq_div_pow]
  rfl

/-! #### SEL -/

/-- SEL takes A or B by the lane's bit of a P register (R92). -/
theorem laneResult_vSel (x : Strand) (w : Nat) :
    LaneResult x (vSel x w) w (fun lane a b _ => if bit (pReg x (bits (vImm w) 0 3)) lane then a else b) := by
  unfold vSel
  dsimp only
  cases hs : vSc w with
  | false =>
    rw [if_neg (by decide)]
    exact laneResult_vWrite hs fun lane a b _ => if bit (pReg x (bits (vImm w) 0 3)) lane then a else b
  | true =>
    rw [if_pos rfl]
    have h := laneResult_vElement x w (fun a b _ => if bit (pReg x (bits (vImm w) 0 3)) 0 then a else b)
    exact { h with vector := fun hv => absurd hv (by simp [hs]) }

/-- Settles O19: each instruction by its lane result, in the element form or without a scalar form. -/
theorem veLanes : Obligations.VeLanes := by
  unfold Obligations.VeLanes
  refine ⟨⟨?_, ?_, ?_, ?_, ?_, ?_, ?_, ?_⟩, ⟨?_, ?_, ?_, ?_, ?_, ?_⟩, ⟨?_, ?_, ?_, ?_, ?_, ?_, ?_⟩, ?_, ?_, ?_, ?_, ?_, ?_, ?_, ?_,
    fun s s1 n ph k i w opc ecc c hc h => ?_⟩
  · exact laneOp_vElement (g := fun w a b _ => vAdd (vTy w) a b) (fun _ _ _ _ => rfl) fun _ _ _ _ _ _ _ => rfl
  · exact laneOp_vElement (g := fun w a b _ => vSub (vTy w) a b) (fun _ _ _ _ => rfl) fun _ _ _ _ _ _ _ => rfl
  · exact laneOp_vElement (g := fun w a b _ => vMul (vTy w) a b) (fun _ _ _ _ => rfl) fun _ _ _ _ _ _ _ => rfl
  · exact laneOp_vElement (g := fun w a b c => vFma (vTy w) a b c) (fun _ _ _ _ => rfl) fun _ _ _ _ _ _ _ => rfl
  · exact laneOp_vElement (g := fun w a b _ => vMin (vTy w) a b) (fun _ _ _ _ => rfl) fun _ _ _ _ _ _ _ => rfl
  · exact laneOp_vElement (g := fun w a b _ => vMax (vTy w) a b) (fun _ _ _ _ => rfl) fun _ _ _ _ _ _ _ => rfl
  · exact laneOp_vElement (g := fun w a _ _ => vAbs (vTy w) a) (fun _ _ _ _ => rfl) fun _ _ _ _ _ _ _ => rfl
  · exact laneOp_vElement (g := fun w a _ _ => vNeg (vTy w) a) (fun _ _ _ _ => rfl) fun _ _ _ _ _ _ _ => rfl
  · exact laneOp_vElement (g := fun _ a b _ => a &&& b) (fun _ _ _ _ => rfl) fun _ _ _ _ _ _ _ => rfl
  · exact laneOp_vElement (g := fun _ a b _ => a ||| b) (fun _ _ _ _ => rfl) fun _ _ _ _ _ _ _ => rfl
  · exact laneOp_vElement (g := fun _ a b _ => a ^^^ b) (fun _ _ _ _ => rfl) fun _ _ _ _ _ _ _ => rfl
  · exact laneOp_vElement (g := fun _ a b _ => (a <<< (b % 32)) % 2 ^ 32) (fun _ _ _ _ => rfl) fun _ _ _ a b _ _ => by
      rw [Nat.mod_mod, Nat.shiftLeft_eq]
  · exact laneOp_vElement (g := fun _ a b _ => a >>> (b % 32)) (fun _ _ _ _ => rfl) fun _ _ _ a b _ _ => by
      rw [Nat.shiftRight_eq_div_pow]
  · exact laneOp_vElement (g := fun _ a b _ => sarWord a (b % 32)) (fun _ _ _ _ => rfl) fun _ _ _ a b _ ha => by
      rw [sarWord_eq_sshiftRight ha]
  · exact laneOp_vElement (g := fun w _ _ _ => vImm w) (fun _ _ _ _ => rfl) fun _ _ _ _ _ _ _ => rfl
  · exact laneOp_vElement (g := fun _ a _ _ => a) (fun _ _ _ _ => rfl) fun _ _ _ _ _ _ _ => rfl
  · exact laneOp_veReg (fun _ _ _ _ => rfl) fun x w _ _ => laneResult_vSel x w
  · exact laneOp_vWrite rfl fun _ _ _ _ => rfl
  · exact laneOp_vWrite rfl fun _ _ _ _ => rfl
  · exact laneOp_vWrite rfl fun _ _ _ _ => rfl
  · exact laneOp_vWrite rfl fun _ _ _ _ => rfl
  iterate 8 exact laneOp_veTrans fun _ _ _ _ => rfl
  simp only [List.mem_cons, List.not_mem_nil, or_false, Prod.mk.injEq] at hc
  rcases hc with ⟨rfl, rfl⟩ | ⟨rfl, rfl⟩ | ⟨rfl, rfl⟩ | ⟨rfl, rfl⟩ | ⟨rfl, rfl⟩ | ⟨rfl, rfl⟩ | ⟨rfl, rfl⟩ | ⟨rfl, rfl⟩
  all_goals exact veTrans_counts (fun _ _ _ _ => rfl) h

end Sys2Proof.Machine
end

/-! ### NOP, FENCE, CVT, CMP and the reductions (R92, R132 to R134) -/

section
namespace Sys2Proof.Machine

/-! #### The registers of a slot at an issue -/

section
variable {s s1 : State} {n ph opc k i w : Nat} {ecc : Ecc}

/-- The counters of the Vector Engine leave the slot registers (R101). -/
theorem slotReg_veCounted (hk : k < 16) {off : Nat} (ho : off < 0x800) : slotReg (veCounted s n) n k off = slotReg s n k off := by
  unfold slotReg veCounted bump rget rset
  rw [regGet_regSet_ne _ _ ?_, regGet_regSet_ne _ _ ?_]
  · simp only [page, blockBase, blockStride]
    omega
  · simp only [page, blockBase, blockStride]
    omega

theorem VeIssues.slotReg (h : VeIssues s s1 n ph opc k i w ecc) (hk : k < 16) {off : Nat} (ho : off < 0x800) (hq : 0x124 < off) :
    Machine.slotReg (veCounted s1 n) n k off = Machine.slotReg s n k off := by
  rw [slotReg_veCounted hk ho]
  refine h.quiet.rget (by omega) ?_
  simp only [List.mem_cons, List.not_mem_nil, or_false, not_or]
  omega

end

/-! #### CMP -/

/-- A number around its bit `i`. -/
theorem testBit_around (hi b lo i j : Nat) (hb : b < 2) (hlo : lo < 2 ^ i) : (2 ^ i * (2 * hi + b) + lo).testBit j =
    if j < i then lo.testBit j else if j = i then decide (b = 1) else hi.testBit (j - i - 1) := by
  rw [Nat.testBit_two_pow_mul_add _ hlo]
  split
  · rfl
  · split
    · next hji =>
      rw [hji, Nat.sub_self, Nat.testBit_zero, show (2 * hi + b) % 2 = b by omega]
    · rw [show j - i = (j - i - 1) + 1 by omega, Nat.testBit_succ, show (2 * hi + b) / 2 = hi by omega]
      rfl

/-- Replacing bit `i` replaces no other. -/
theorem bit_putBits (p i v j : Nat) : bit (putBits p i 1 v) j = if j = i then decide (v % 2 = 1) else bit p j := by
  have hp : p = 2 ^ i * (2 * (p / 2 ^ i / 2) + p / 2 ^ i % 2) + p % 2 ^ i := by
    rw [Nat.div_add_mod, Nat.div_add_mod]
  have hput : putBits p i 1 v = 2 ^ i * (2 * (p / 2 ^ i / 2) + v % 2) + p % 2 ^ i := by
    unfold putBits bits
    simp only [Nat.shiftLeft_eq, Nat.shiftRight_eq_div_pow, Nat.pow_one]
    have hmul (a : Nat) : 2 ^ i * (2 * (p / 2 ^ i / 2) + a) = 2 ^ i * (2 * (p / 2 ^ i / 2)) + a * 2 ^ i := by ring
    rw [hmul] at hp ⊢
    omega
  have hlo : p % 2 ^ i < 2 ^ i := Nat.mod_lt _ (Nat.two_pow_pos i)
  unfold bit
  rw [hput, testBit_around _ _ _ _ _ (Nat.mod_lt _ (by decide)) hlo]
  conv_rhs => rw [hp, testBit_around _ _ _ _ _ (Nat.mod_lt _ (by decide)) hlo]
  split
  · rw [if_neg (by omega)]
  · split
    · rfl
    · rfl

theorem b2n_mod_two (b : Bool) : decide (b2n b % 2 = 1) = b := by
  cases b
  · rfl
  · rfl

/-- Writing bits one by one: those of the list take their values. -/
theorem foldl_putBits (cond : Nat → Bool) (ls : List Nat) (p j : Nat) :
    bit (ls.foldl (fun p i => putBits p i 1 (b2n (cond i))) p) j = if j ∈ ls then cond j else bit p j := by
  induction ls generalizing p with
  | nil => simp
  | cons a ls ih =>
    rw [List.foldl_cons, ih, bit_putBits, b2n_mod_two]
    by_cases hj : j ∈ ls
    · simp [hj]
    · by_cases hja : j = a
      · simp [hja]
      · simp [hj, hja]

section
variable {x : Strand} {r v w : Nat}

theorem setP_zero (x : Strand) (v : Nat) : setP x 0 v = x := rfl

theorem pReg_setP_self (hr : r ≠ 0) : pReg (setP x r v) r = v % 2 ^ 32 := by
  unfold pReg setP
  rw [if_neg hr, if_neg hr, mgetD_mput_self, wd_toNat]

theorem pReg_setP_ne {r' : Nat} (h : r' ≠ r) : pReg (setP x r v) r' = pReg x r' := by
  unfold pReg setP
  split
  · rfl
  · split
    · rfl
    · rw [mgetD_mput_ne _ _ _ h]

theorem setP_rest (x : Strand) (r v : Nat) : setP x r v = { x with preg := (setP x r v).preg } := by
  unfold setP
  split
  · rfl
  · rfl

/-- A CMP is a write of one P register, or none. -/
theorem vCmp_cases (x : Strand) (w : Nat) : vCmp x w = x ∨ ∃ v, vCmp x w = setP x (vD w % 8) v := by
  unfold vCmp
  dsimp only
  split
  · split
    · exact .inr ⟨_, rfl⟩
    · exact .inl rfl
  · exact .inr ⟨_, rfl⟩

theorem vCmp_rest (x : Strand) (w : Nat) : vCmp x w = { x with preg := (vCmp x w).preg } ∧
    (vD w % 8 = 0 → (vCmp x w).preg = x.preg) ∧ ∀ r, r ≠ vD w % 8 → pReg (vCmp x w) r = pReg x r := by
  obtain h | ⟨v, h⟩ := vCmp_cases x w
  · rw [h]
    exact ⟨rfl, fun _ => rfl, fun _ _ => rfl⟩
  · rw [h]
    refine ⟨setP_rest x _ v, fun h0 => ?_, fun r hr => pReg_setP_ne hr⟩
    rw [h0, setP_zero]

theorem vCmp_vector (hd : vD w % 8 ≠ 0) (hs : vSc w = false) {lane : Nat} (hl : lane < 32) :
    bit (pReg (vCmp x w) (vD w % 8)) lane = if bit (vGuard x w) lane then
      vCond (vTy w) (bits (vImm w) 0 3) (vReg x (vA w) lane) (vReg x (vB w) lane) else bit (pReg x (vD w % 8)) lane := by
  unfold vCmp
  dsimp only
  rw [hs, if_neg (by decide), pReg_setP_self hd]
  have hbit (a : Nat) : bit (a % 2 ^ 32) lane = bit a lane := by
    unfold bit
    rw [Nat.testBit_mod_two_pow]
    simp [hl]
  rw [hbit, foldl_putBits (fun i => vCond (vTy w) (bits (vImm w) 0 3) (vReg x (vA w) i) (vReg x (vB w) i))]
  simp only [mem_vLanes, hl, true_and]

theorem vCmp_scalar (hd : vD w % 8 ≠ 0) (hs : vSc w = true) : pReg (vCmp x w) (vD w % 8) =
    if bit (vGuard x w) 0 then
      (if vCond (vTy w) (bits (vImm w) 0 3) (sReg x (vA w)) (sReg x (vB w)) then 0xFFFFFFFF else 0)
    else pReg x (vD w % 8) := by
  unfold vCmp
  dsimp only
  rw [hs, if_pos rfl]
  split
  · rw [pReg_setP_self hd]
    split
    · rfl
    · rfl
  · rfl

/-! #### Reductions -/

/-- A reduction writes S[D] (R132). -/
theorem sReg_vReduce (x : Strand) (w empty : Nat) (f : Nat → Nat → Nat) :
    ((vLanes x w).map (vReg x (vA w)) = [] → sReg (vReduce x w empty f) (vD w) = empty % 2 ^ 32) ∧
    ∀ a l, (vLanes x w).map (vReg x (vA w)) = a :: l → sReg (vReduce x w empty f) (vD w) =
      (if vTy w = 0 then rne .fp32 (Fmt.fp32.decode (l.foldl f a)) else l.foldl f a) % 2 ^ 32 := by
  unfold vReduce
  dsimp only
  refine ⟨fun h => ?_, fun a l h => ?_⟩
  · rw [h, sReg_setS_self]
    simp
  · rw [h, sReg_setS_self]
    simp

end

section
variable {s s1 : State} {n ph opc k i w : Nat} {ecc : Ecc} {c : Nat → Nat → Ecc → Instr}

/-- A reduction (R132). -/
theorem vReduce_completes (empty : Nat → Nat) (f : Nat → Nat → Nat → Nat)
    (hexec : exec (c n ph ecc) s = .next (veReg s n ph opc ecc (fun x w => vReduce x w (empty w) (f w))))
    (hempty : empty w < 2 ^ 32) (h : VeIssues s s1 n ph opc k i w ecc) : Completes (c n ph ecc) s (fun t =>
      let x := strand s n ph
      let y := strand t n ph
      (vLanes x w = [] → sReg y (vD w) = empty w) ∧
      (vTy w ≠ 0 → ∀ a l, (vLanes x w).map (vReg x (vA w)) = a :: l → sReg y (vD w) = l.foldl (f w) a % 2 ^ 32) ∧
      (vTy w = 0 → ∀ a l, (vLanes x w).map (vReg x (vA w)) = a :: l →
        sReg y (vD w) = rne .fp32 (Fmt.fp32.decode (l.foldl (f w) a)) % 2 ^ 32) ∧
      y.v = x.v ∧ y.preg = x.preg ∧ (∀ r, r ≠ vD w → sReg y r = sReg x r) ∧
      y.pc = (loopNext x.pc x.loops).1 ∧ StrandFrame s1 t n ph) := by
  obtain ⟨hstrand, hframe⟩ := h.frame (u := veCounted s1 n) rfl (fun x => vAdvance (vReduce x w (empty w) (f w)) x.pc)
  obtain ⟨hnone, hsome⟩ := sReg_vReduce (strand s n ph) w (empty w) (f w)
  refine ⟨_, hexec.trans (congrArg _ (h.veReg _)), ?_⟩
  dsimp only
  rw [hstrand]
  refine ⟨fun hl => ?_, fun ht a l hl => ?_, fun ht a l hl => ?_, rfl, rfl, fun r hr => sReg_setS_ne hr, rfl, hframe⟩
  · exact (hnone (by rw [hl]; rfl)).trans (Nat.mod_eq_of_lt hempty)
  · exact (hsome a l hl).trans (by rw [if_neg ht])
  · exact (hsome a l hl).trans (by rw [if_pos ht])

end

/-- Settles O20: NOP, FENCE and CVT by the issue, CMP by the bits that it writes, the reductions by the S register. -/
theorem veOthers : Obligations.VeOthers := by
  unfold Obligations.VeOthers
  refine ⟨fun s s1 n ph k i w ecc h => congrArg _ (h.veReg _), fun s s1 n ph k i w ecc h => congrArg _ (h.veReg _),
    fun s s1 n ph k i w ecc h _ hk => ?_, fun s s1 n ph k i w ecc h => ⟨_, congrArg Host.Outcome.next (h.veReg vCmp), ?_⟩,
    fun s s1 n ph k i w ecc c opc empty f hc h => ?_⟩
  · refine congrArg Host.Outcome.next ((h.veRun _).trans ?_)
    rw [h.slotReg hk (by decide) (by decide)]
  · obtain ⟨hstrand, hframe⟩ := h.frame (u := veCounted s1 n) rfl (fun x => vAdvance (vCmp x w) x.pc)
    obtain ⟨hrest, hzero, hne⟩ := vCmp_rest (strand s n ph) w
    rw [hstrand]
    refine ⟨hzero, fun hd hs lane hl => vCmp_vector hd hs hl, fun hd hs => vCmp_scalar hd hs, ?_, ?_, hne, ?_, hframe⟩
    · rw [hrest]
      rfl
    · rw [hrest]
      rfl
    · rw [hrest]
      rfl
  · simp only [List.mem_cons, List.not_mem_nil, or_false, Prod.mk.injEq] at hc
    rcases hc with ⟨rfl, rfl, rfl, rfl⟩ | ⟨rfl, rfl, rfl, rfl⟩ | ⟨rfl, rfl, rfl, rfl⟩
    · exact vReduce_completes (fun _ => 0) (fun w => vAdd (vTy w)) rfl (by decide) h
    · exact vReduce_completes (fun w => if vTy w = 0 then 0xFF800000 else if vTy w = 3 then 0x80000000 else 0)
        (fun w => vMax (vTy w)) rfl (by split_ifs <;> decide) h
    · exact vReduce_completes (fun w => if vTy w = 0 then 0x7F800000 else if vTy w = 3 then 0x7FFFFFFF else 0xFFFFFFFF)
        (fun w => vMin (vTy w)) rfl (by split_ifs <;> decide) h

end Sys2Proof.Machine
end

/-! ### Loads and stores of the Vector Engine (R72, R92, R208, R217)

A store writes each guarded lane's word, lowest lane first: also an ST, whose full granules go out in one piece. Two accesses of one
instruction are aligned words, so they are the same word or do not meet. -/

section
namespace Sys2Proof.Machine

/-! #### Where an instruction issues -/

section
variable {s s1 : State} {n ph opc k i w : Nat} {ecc : Ecc}

theorem strandOwner_lt (h : strandOwner s n ph = some (k, i)) : k < 16 := by
  obtain ⟨j, hj, heq⟩ := List.exists_of_findSome?_eq_some h
  dsimp only at heq
  split at heq
  · cases heq
  · obtain ⟨a, -, ha⟩ := Option.map_eq_some_iff.1 heq
    obtain ⟨rfl, rfl⟩ := Prod.mk.inj ha
    exact List.mem_range.1 hj

variable (h : VeIssues s s1 n ph opc k i w ecc)
include h

theorem VeIssues.slot_lt : k < 16 := by
  have hf := h.fetch
  unfold veFetch at hf
  split at hf
  · cases hf
  · next j l ho =>
    dsimp only at hf
    split at hf
    · cases hf
    · split at hf
      · cases hf
      · obtain ⟨rfl, -, -⟩ := VeFetch.ins.inj hf
        exact strandOwner_lt ho

theorem VeIssues.strand : Machine.strand (veCounted s1 n) n ph = Machine.strand s n ph := h.units.strand n ph

theorem VeIssues.winDpa (off : Nat) : Machine.winDpa (veCounted s1 n) n k off = Machine.winDpa s1 n k off := by
  unfold Machine.winDpa winBase
  rw [slotReg_veCounted h.slot_lt (by decide)]

end

/-! #### The addresses of an instruction -/

section
variable {x : Strand} {w : Nat}

/-- The lanes of a memory instruction rise (R92). -/
theorem vAddrs_pairwise (x : Strand) (w : Nat) : (vAddrs x w).Pairwise (fun e e' => e.1 < e'.1) := by
  unfold vAddrs
  dsimp only
  split
  · exact (vLanes_pairwise x w).map _ fun _ _ h => h
  · split
    · exact (vLanes_pairwise x w).map _ fun _ _ h => h
    · split
      · exact List.pairwise_singleton ..
      · exact List.Pairwise.nil

/-- The vector forms access one word for each guarded lane. -/
theorem vAddrs_vector (h : vOpc w = 0x30 ∨ vOpc w = 0x32) :
    ∃ addr : Nat → Nat, vAddrs x w = (vLanes x w).map (fun i => (i, addr i)) := by
  unfold vAddrs
  dsimp only
  rcases h with h | h
  · exact ⟨fun i => vAddr (sReg x (vA w)) (vImm w) + 4 * i, if_pos (by simp [h])⟩
  · exact ⟨fun i => vAddr (vReg x (vA w) i) (vImm w), (if_neg (by simp [h])).trans (if_pos (by simp [h]))⟩

theorem vAddrs_st (h : vOpc w = 0x31) :
    vAddrs x w = (vLanes x w).map (fun i => (i, vAddr (sReg x (vA w)) (vImm w) + 4 * i)) := by
  unfold vAddrs
  exact if_pos (by simp [h])

theorem vAddrs_sld (h : vOpc w = 0x34) :
    vAddrs x w = if bit (vGuard x w) 0 then [(0, vAddr (sReg x (vA w)) (vImm w))] else [] := by
  unfold vAddrs
  exact (if_neg (by simp [h])).trans (if_neg (by simp [h]))

/-- An access that is not refused is aligned (R92). -/
theorem vAddrs_aligned {s : State} {n k : Nat} (h : vRangeBad s n k x w = false) : ∀ e ∈ vAddrs x w, e.2 % 4 = 0 := by
  intro e he
  unfold vRangeBad at h
  have hany := (Bool.or_eq_false_iff.1 h).2
  have := List.any_eq_false.1 hany e he
  simp only [Bool.or_eq_true, decide_eq_true_eq, not_or, not_not] at this
  exact this.1

end

/-! #### Loads -/

theorem memRead_length (m : Memory) (a n : Nat) : (memRead m a n).length = n := by
  induction n generalizing a with
  | zero => rfl
  | succ n ih => rw [memRead, List.length_cons, ih]

/-- A word that the window holds. -/
theorem leNat_readWin_lt (s : State) (n k off : Nat) : leNat (readWin s n k off 4) < 2 ^ 32 := by
  have h := leNat_lt (readWin s n k off 4)
  rwa [show (readWin s n k off 4).length = 4 from memRead_length ..] at h

/-- The checks of a load leave the units. -/
theorem vLoadCheck_units (s : State) (n k : Nat) (as : List (Nat × Nat)) (ecc : Ecc) : UnitsKept s (vLoadCheck s n k as ecc).1 := by
  have hcheck : ∀ (t : State) d len ecc ctag, UnitsKept s t → UnitsKept s (checkRead t d len ecc ctag).1 := fun _ _ _ _ _ ht =>
    ht.checkRead
  unfold vLoadCheck
  obtain ⟨check, hname⟩ := exists_eq' (a' := checkRead)
  rw [hname] at hcheck ⊢
  exact List.foldlRecOn (motive := fun a : State × Option Nat => UnitsKept s a.1) _ _ (.refl s) fun _ ha _ _ => hcheck _ _ _ _ _ ha

/-- The strand of a load, with what it has read. -/
def loadedStrand (s : State) (n k opc w : Nat) (as : List (Nat × Nat)) (x : Strand) : Strand :=
  if opc = 0x34 then as.foldl (fun y e => setS y (vD w) (leNat (readWin s n k e.2 4))) x
  else as.foldl (fun y e => setV y (vD w) e.1 (leNat (readWin s n k e.2 4))) x

section
variable {s s1 s2 : State} {n ph opc k i w : Nat} {ecc : Ecc} (h : VeIssues s s1 n ph opc k i w ecc)
include h

theorem VeIssues.veLoad_bad (hbad : vRangeBad (veCounted s1 n) n k (Machine.strand s n ph) w = true) :
    veLoad s n ph opc ecc = veErr (veCounted s1 n) eVeLmRange n k ph i := by
  unfold veLoad
  rw [h.veRun]
  dsimp only
  rw [h.strand, if_pos hbad]

variable (hgood : vRangeBad (veCounted s1 n) n k (Machine.strand s n ph) w = false)
include hgood

theorem VeIssues.veLoad_poisoned {er : Nat}
    (hc : vLoadCheck (veCounted s1 n) n k (vAddrs (Machine.strand s n ph) w) ecc = (s2, some er)) :
    veLoad s n ph opc ecc = endCtx s2 n k 5 er 3 := by
  unfold veLoad
  rw [h.veRun]
  dsimp only
  rw [h.strand, if_neg (by simp [hgood]), hc]

variable (hc : vLoadCheck (veCounted s1 n) n k (vAddrs (Machine.strand s n ph) w) ecc = (s2, none))
include hc

theorem VeIssues.veLoad_loads : veLoad s n ph opc ecc = modStrand s2 n ph (fun x =>
    vAdvance (loadedStrand s2 n k opc w (vAddrs (Machine.strand s n ph) w) x) x.pc) := by
  unfold veLoad
  rw [h.veRun]
  dsimp only
  rw [h.strand, if_neg (by simp [hgood]), hc]
  rfl

theorem VeIssues.veLoad_strand : Machine.strand (veLoad s n ph opc ecc) n ph = vAdvance
    (loadedStrand s2 n k opc w (vAddrs (Machine.strand s n ph) w) (Machine.strand s n ph)) (Machine.strand s n ph).pc := by
  have hu := vLoadCheck_units (veCounted s1 n) n k (vAddrs (Machine.strand s n ph) w) ecc
  rw [hc] at hu
  rw [h.veLoad_loads hgood hc, strand_modStrand_self, hu.strand, h.strand]

theorem VeIssues.veLoad_frame : StrandFrame s2 (veLoad s n ph opc ecc) n ph := by
  rw [h.veLoad_loads hgood hc]
  exact modStrand_frame s2 n ph _

/-- LD and LDX write each guarded lane of a V register (R92). -/
theorem VeIssues.veLoad_vector (hopc : opc = 0x30 ∨ opc = 0x32) :
    let x := Machine.strand s n ph
    let y := Machine.strand (veLoad s n ph opc ecc) n ph
    (∀ e ∈ vAddrs x w, vReg y (vD w) e.1 = leNat (readWin s2 n k e.2 4)) ∧
    (∀ lane, lane < 32 → bit (vGuard x w) lane = false → vReg y (vD w) lane = vReg x (vD w) lane) ∧
    (∀ r lane, r ≠ vD w → lane < 32 → vReg y r lane = vReg x r lane) ∧ y.sreg = x.sreg ∧ y.preg = x.preg ∧
    y.pc = (loopNext x.pc x.loops).1 ∧ StrandFrame s2 (veLoad s n ph opc ecc) n ph := by
  have hframe := h.veLoad_frame hgood hc
  have hstrand := h.veLoad_strand hgood hc
  dsimp only
  rw [hstrand]
  generalize Machine.strand s n ph = x
  obtain ⟨addr, haddr⟩ := vAddrs_vector (x := x) (hopc.imp h.opcode.trans h.opcode.trans)
  have hload : loadedStrand s2 n k opc w (vAddrs x w) x = vWrite x w (fun i => leNat (readWin s2 n k (addr i) 4)) := by
    unfold loadedStrand
    rw [if_neg (by omega), haddr, List.foldl_map]
    rfl
  obtain ⟨hv, hreg⟩ := vWrite_lanes x w (fun i => leNat (readWin s2 n k (addr i) 4))
  rw [hload]
  refine ⟨fun e he => ?_, fun lane hl hg => ?_, fun r lane hr hl => ?_, ?_, ?_, ?_, hframe⟩
  · rw [haddr] at he
    obtain ⟨lane, hlane, rfl⟩ := List.mem_map.1 he
    obtain ⟨hl, hg⟩ := mem_vLanes.1 hlane
    exact (hreg _ _ hl).trans ((if_pos ⟨rfl, hg⟩).trans (Nat.mod_eq_of_lt (leNat_readWin_lt ..)))
  · exact (hreg _ _ hl).trans (if_neg (by simp [hg]))
  · exact (hreg _ _ hl).trans (if_neg fun hrd => hr hrd.1)
  · rw [hv]
    rfl
  · rw [hv]
    rfl
  · rw [hv]
    rfl

/-- SLD writes an S register (R92). -/
theorem VeIssues.veLoad_scalar (hopc : opc = 0x34) :
    let x := Machine.strand s n ph
    let y := Machine.strand (veLoad s n ph opc ecc) n ph
    (bit (vGuard x w) 0 = true → sReg y (vD w) = leNat (readWin s2 n k (vAddr (sReg x (vA w)) (vImm w)) 4)) ∧
    (bit (vGuard x w) 0 = false → y.sreg = x.sreg) ∧ (∀ r, r ≠ vD w → sReg y r = sReg x r) ∧ y.v = x.v ∧
    y.preg = x.preg ∧ y.pc = (loopNext x.pc x.loops).1 ∧ StrandFrame s2 (veLoad s n ph opc ecc) n ph := by
  have hframe := h.veLoad_frame hgood hc
  have hstrand := h.veLoad_strand hgood hc
  dsimp only
  rw [hstrand]
  generalize Machine.strand s n ph = x
  unfold loadedStrand
  rw [if_pos hopc, vAddrs_sld (h.opcode.trans hopc)]
  split
  · next hg =>
    refine ⟨fun _ => ?_, fun hno => absurd hno (by simp [hg]), fun r hr => sReg_setS_ne hr, rfl, rfl, rfl, hframe⟩
    exact sReg_setS_self.trans (Nat.mod_eq_of_lt (leNat_readWin_lt ..))
  · next hg => exact ⟨fun hyes => absurd hyes hg, fun _ => rfl, fun _ _ => rfl, rfl, rfl, rfl, hframe⟩

end

/-! #### The words of a store -/

theorem memWrite_append (m : Memory) (a : Nat) (xs ys : List Byte) :
    memWrite m a (xs ++ ys) = memWrite (memWrite m a xs) (a + xs.length) ys := by
  induction xs generalizing m a with
  | nil => rfl
  | cons b xs ih =>
    rw [List.cons_append, memWrite, memWrite, ih, List.length_cons, Nat.add_assoc, Nat.add_comm 1]

theorem memRead_congr {m m' : Memory} (a n : Nat) (h : ∀ c, a ≤ c → c < a + n → memGet m c = memGet m' c) :
    memRead m a n = memRead m' a n := by
  induction n generalizing a with
  | zero => rfl
  | succ n ih => rw [memRead, memRead, h a (by omega) (by omega), ih (a + 1) fun c h1 h2 => h c (by omega) (by omega)]

/-- One word after the other, at window offsets from `d` on. -/
def storeWords (d : Nat) (val : Nat → Nat) (as : List (Nat × Nat)) (m : Memory) : Memory :=
  as.foldl (fun m e => memWrite m (d + e.2) (leBytes (val e.1) 4)) m

section
variable {d : Nat} {val : Nat → Nat} {as : List (Nat × Nat)}

theorem storeWords_out {m : Memory} {c : Nat} (h : ∀ e ∈ as, c < d + e.2 ∨ d + e.2 + 4 ≤ c) :
    memGet (storeWords d val as m) c = memGet m c := by
  induction as generalizing m with
  | nil => rfl
  | cons a as ih =>
    have ha := h a (by simp)
    refine (ih (m := memWrite m (d + a.2) (leBytes (val a.1) 4)) fun e he => h e (by simp [he])).trans ?_
    exact memGet_memWrite_out _ _ _ _ (by rwa [leBytes_length])

/-- A lane's word stands in memory unless a higher lane has the same address (R92). -/
theorem storeWords_read (hlanes : as.Pairwise (fun e e' => e.1 < e'.1)) (halign : ∀ e ∈ as, e.2 % 4 = 0) {m : Memory}
    (hm : Memory.wf m = true) {e : Nat × Nat} (he : e ∈ as) (hlast : ∀ e' ∈ as, e.1 < e'.1 → e'.2 ≠ e.2) :
    memRead (storeWords d val as m) (d + e.2) 4 = leBytes (val e.1) 4 := by
  induction as generalizing m with
  | nil => cases he
  | cons a as ih =>
    obtain ⟨hlt, hlanes⟩ := List.pairwise_cons.1 hlanes
    have hwf : Memory.wf (memWrite m (d + a.2) (leBytes (val a.1) 4)) = true := Memory.wf_memWrite _ _ hm
    obtain rfl | he := List.mem_cons.1 he
    · have hread := memRead_memWrite (d + e.2) (leBytes (val e.1) 4) hm
      rw [leBytes_length] at hread
      rw [← hread]
      refine memRead_congr _ _ fun c h1 h2 => storeWords_out (m := memWrite m (d + e.2) (leBytes (val e.1) 4)) fun e' he' => ?_
      have hne := hlast e' (by simp [he']) (hlt e' he')
      have h4 := halign e (by simp)
      have h4' := halign e' (by simp [he'])
      omega
    · exact ih hlanes (fun e' he' => halign e' (by simp [he'])) hwf he fun e' he' => hlast e' (by simp [he'])

/-- Words in a row go out in one piece. -/
theorem memWrite_row (b p q : Nat) (m : Memory) :
    memWrite m (d + (b + 4 * p)) ((List.range' p q).flatMap (fun i => leBytes (val i) 4)) =
      storeWords d val ((List.range' p q).map (fun i => (i, b + 4 * i))) m := by
  induction q generalizing p m with
  | zero => rfl
  | succ q ih =>
    rw [List.range'_succ, List.flatMap_cons, memWrite_append, leBytes_length, show d + (b + 4 * p) + 4 = d + (b + 4 * (p + 1)) by omega,
      ih]
    rfl

/-- The lanes of one half that a mask guards. -/
theorem onesBelow_half (g : Nat) {hf : Nat} (h : hf < 2) :
    (onesBelow g 32).filter (fun i => decide (i / 16 = hf)) = (List.range' (16 * hf) 16).filter (bit g) := by
  have hrange : (List.range 32).filter (fun i => decide (i / 16 = hf)) = List.range' (16 * hf) 16 := by
    interval_cases hf
    · decide
    · decide
  unfold onesBelow
  rw [← hrange, List.filter_filter, List.filter_filter]
  exact List.filter_congr fun i _ => Bool.and_comm ..

theorem onesBelow_halves (g : Nat) : (onesBelow g 32).filter (fun i => decide (i / 16 = 0)) ++
    (onesBelow g 32).filter (fun i => decide (i / 16 = 1)) = onesBelow g 32 := by
  rw [onesBelow_half g (by decide), onesBelow_half g (by decide), ← List.filter_append]
  rfl

/-- The writes of one half of an ST: a full granule in one piece, or word by word (R208, R217). -/
def halfStores (as : List (Nat × Nat)) (val : Nat → Nat) (hf : Nat) : List (Nat × List Byte) :=
  let l := as.filter (fun e => e.1 / 16 = hf)
  if l.length = 16 then [((l.headD (0, 0)).2, l.flatMap (fun e => leBytes (val e.1) 4))]
  else l.map (fun e => (e.2, leBytes (val e.1) 4))

/-- The writes of a store in memory. -/
def storeWrites (d : Nat) (ws : List (Nat × List Byte)) (m : Memory) : Memory := ws.foldl (fun m e => memWrite m (d + e.1) e.2) m

theorem storeWrites_words (m : Memory) : storeWrites d (as.map (fun e => (e.2, leBytes (val e.1) 4))) m = storeWords d val as m := by
  unfold storeWrites storeWords
  rw [List.foldl_map]

/-- Either way a half writes its words. -/
theorem storeWrites_half (g b : Nat) {hf : Nat} (h : hf < 2) (m : Memory) :
    storeWrites d (halfStores ((onesBelow g 32).map (fun i => (i, b + 4 * i))) val hf) m =
      storeWords d val (((onesBelow g 32).filter (fun i => decide (i / 16 = hf))).map (fun i => (i, b + 4 * i))) m := by
  have hl : ((onesBelow g 32).map (fun i => (i, b + 4 * i))).filter (fun e => decide (e.1 / 16 = hf)) =
      ((List.range' (16 * hf) 16).filter (bit g)).map (fun i => (i, b + 4 * i)) := by
    rw [List.filter_map, ← onesBelow_half g h]
    rfl
  unfold halfStores
  dsimp only
  rw [hl, onesBelow_half g h]
  split
  · next hlen =>
    rw [List.length_map] at hlen
    have hall : (List.range' (16 * hf) 16).filter (bit g) = List.range' (16 * hf) 16 :=
      List.filter_eq_self.2 (List.length_filter_eq_length_iff.1 (hlen.trans List.length_range'.symm))
    rw [hall, ← memWrite_row, List.flatMap_map]
    rfl
  · exact storeWrites_words m

end

/-- The writes of a store are its words, lowest lane first (R92). -/
theorem storeWrites_vStores (d : Nat) (x : Strand) (w : Nat) {opc : Nat} (hopc : vOpc w = opc) (val : Nat → Nat) (m : Memory) :
    storeWrites d (vStores (vAddrs x w) opc val) m = storeWords d val (vAddrs x w) m := by
  by_cases h : opc = 0x31
  · have hst : vStores (vAddrs x w) opc val = halfStores (vAddrs x w) val 0 ++ halfStores (vAddrs x w) val 1 := if_pos h
    rw [hst, storeWrites, List.foldl_append, vAddrs_st (hopc.trans h)]
    refine (storeWrites_half (vGuard x w) _ (hf := 1) (by decide) _).trans ?_
    rw [← storeWrites, vLanes, storeWrites_half (vGuard x w) _ (by decide)]
    conv_rhs => rw [← onesBelow_halves (vGuard x w), List.map_append]
    exact (List.foldl_append ..).symm
  · have hst : vStores (vAddrs x w) opc val = (vAddrs x w).map (fun e => (e.2, leBytes (val e.1) 4)) := if_neg h
    rw [hst, storeWrites_words]

/-! #### Stores -/

/-- Writes of a slot's window: the units and the registers stay, and memory takes the bytes (R72). -/
theorem foldl_writeWin (ws : List (Nat × List Byte)) (s : State) (n k : Nat) :
    let t := ws.foldl (fun s e => writeWin s n k e.1 e.2) s
    UnitsKept s t ∧ t.mem = storeWrites (winDpa s n k 0) ws s.mem := by
  induction ws generalizing s with
  | nil => exact ⟨.refl s, rfl⟩
  | cons e ws ih =>
    have hregs : (writeWin s n k e.1 e.2).regs = s.regs := by
      unfold writeWin tagWriter
      split
      · rfl
      · rfl
    have hmem : (writeWin s n k e.1 e.2).mem = memWrite s.mem (winDpa s n k e.1) e.2 := by
      unfold writeWin tagWriter
      split
      · rfl
      · rfl
    have hdpa : winDpa (writeWin s n k e.1 e.2) n k 0 = winDpa s n k 0 := by
      unfold winDpa winBase slotReg
      rw [rget_congr hregs]
    obtain ⟨hu, hm⟩ := ih (writeWin s n k e.1 e.2)
    rw [hmem, hdpa] at hm
    exact ⟨((UnitsKept.refl s).writeWin).trans hu, hm⟩

/-- The values that a store writes (R92). -/
def storeVal (x : Strand) (opc w lane : Nat) : Nat := if opc = 0x35 then sReg x (vB w) else vReg x (vB w) lane

theorem veErr_mem (s : State) (e : ErrCode) (n k ph i : Nat) : (veErr s e n k ph i).mem = s.mem := by
  unfold veErr errCtx
  rw [endCtx_mem, recErr_mem, modStrand_mem]

section
variable {s s1 : State} {n ph opc k i w : Nat} {ecc : Ecc} (h : VeIssues s s1 n ph opc k i w ecc)
include h

theorem VeIssues.veStore_bad (hbad : vRangeBad (veCounted s1 n) n k (Machine.strand s n ph) w = true) :
    veStore s n ph opc ecc = veErr (veCounted s1 n) eVeLmRange n k ph i := by
  unfold veStore
  rw [h.veRun]
  dsimp only
  rw [h.strand, if_pos hbad]

variable (hgood : vRangeBad (veCounted s1 n) n k (Machine.strand s n ph) w = false)
include hgood

theorem VeIssues.veStore_stores : veStore s n ph opc ecc = modStrand
    ((vStores (vAddrs (Machine.strand s n ph) w) opc (storeVal (Machine.strand s n ph) opc w)).foldl
      (fun s e => writeWin s n k e.1 e.2) (veCounted s1 n)) n ph (fun x => vAdvance x x.pc) := by
  unfold veStore
  rw [h.veRun]
  dsimp only
  rw [h.strand, if_neg (by simp [hgood])]
  rfl

theorem VeIssues.veStore_mem : (veStore s n ph opc ecc).mem = storeWords (Machine.winDpa s1 n k 0)
    (storeVal (Machine.strand s n ph) opc w) (vAddrs (Machine.strand s n ph) w) s1.mem := by
  rw [h.veStore_stores hgood, modStrand_mem, (foldl_writeWin _ _ n k).2, storeWrites_vStores _ _ _ h.opcode, h.winDpa]
  rfl

/-- A store changes its strand's place and the words that it writes (R92). -/
theorem VeIssues.veStore_leaves (hm : Memory.wf s1.mem = true) :
    let t := veStore s n ph opc ecc
    let x := Machine.strand s n ph
    (∀ e ∈ vAddrs x w, (∀ e' ∈ vAddrs x w, e.1 < e'.1 → e'.2 ≠ e.2) →
      readMem t (Machine.winDpa s1 n k e.2) 4 = leBytes (storeVal x opc w e.1) 4) ∧
    (∀ a, (∀ e ∈ vAddrs x w, a < Machine.winDpa s1 n k e.2 ∨ Machine.winDpa s1 n k e.2 + 4 ≤ a) →
      memGet t.mem a = memGet s1.mem a) ∧
    Machine.strand t n ph = vAdvance x x.pc ∧ (∀ m j, (m, j) ≠ (n, ph) → Machine.strand t m j = Machine.strand s m j) ∧
    (∀ m j, slot t m j = slot s m j) := by
  have hmem := h.veStore_mem hgood
  have hu := (foldl_writeWin (vStores (vAddrs (Machine.strand s n ph) w) opc (storeVal (Machine.strand s n ph) opc w))
    (veCounted s1 n) n k).1
  have hkept : UnitsKept s _ := h.units.trans (((UnitsKept.refl s1).frame : UnitsKept s1 (veCounted s1 n)).trans hu)
  dsimp only
  refine ⟨fun e he hlast => ?_, fun a ha => ?_, ?_, fun m j hmj => ?_, fun m j => ?_⟩
  · rw [readMem, hmem]
    exact storeWords_read (vAddrs_pairwise ..) (vAddrs_aligned hgood) hm he hlast
  · rw [hmem]
    exact storeWords_out ha
  · rw [h.veStore_stores hgood, strand_modStrand_self, hkept.strand]
  · rw [h.veStore_stores hgood, strand_modStrand_ne _ _ hmj, hkept.strand]
  · rw [h.veStore_stores hgood, slot_modStrand, hkept.slot]

end

/-- Settles O21: the loads by the lanes that they write, the stores by the words that memory takes, lowest lane first. -/
theorem veMemory : Obligations.VeMemory := by
  unfold Obligations.VeMemory
  refine ⟨⟨fun s s1 s2 n ph k i w opc ecc c hcmd h hgood hc => ?_, fun s s1 s2 n ph k i w ecc h hgood hc =>
      ⟨_, rfl, h.veLoad_scalar hgood hc rfl⟩, fun s s1 s2 n ph k i w opc er ecc c hcmd h => ?_⟩,
    fun s s1 n ph k i w opc ecc c hcmd h => ?_⟩
  · simp only [List.mem_cons, List.not_mem_nil, or_false, Prod.mk.injEq] at hcmd
    rcases hcmd with ⟨rfl, rfl⟩ | ⟨rfl, rfl⟩
    · exact ⟨_, rfl, h.veLoad_vector hgood hc (.inl rfl)⟩
    · exact ⟨_, rfl, h.veLoad_vector hgood hc (.inr rfl)⟩
  · have hexec : exec (c n ph ecc) s = .next (veLoad s n ph opc ecc) := by
      simp only [List.mem_cons, List.not_mem_nil, or_false, Prod.mk.injEq] at hcmd
      rcases hcmd with ⟨rfl, rfl⟩ | ⟨rfl, rfl⟩ | ⟨rfl, rfl⟩
      all_goals rfl
    exact ⟨fun hbad => hexec.trans (congrArg _ (h.veLoad_bad hbad)),
      fun hgood hc => hexec.trans (congrArg _ (h.veLoad_poisoned hgood hc))⟩
  · have hexec : exec (c n ph ecc) s = .next (veStore s n ph opc ecc) := by
      simp only [List.mem_cons, List.not_mem_nil, or_false, Prod.mk.injEq] at hcmd
      rcases hcmd with ⟨rfl, rfl⟩ | ⟨rfl, rfl⟩ | ⟨rfl, rfl⟩
      all_goals rfl
    refine ⟨fun hgood hm => ⟨_, hexec, h.veStore_leaves hgood hm⟩, fun hbad => ⟨_, hexec, h.veStore_bad hbad, ?_⟩⟩
    rw [h.veStore_bad hbad, veErr_mem]
    rfl

end Sys2Proof.Machine
end

/-! ### Answers at the source: a FAULT_NACK that the step trace records

A slot that becomes FAULTED is an event of the step trace, whose record goes to memory (R446). The statement says that a FAULT_NACK
leaves memory as it is; a cluster that traces the event FAULT refutes it. -/

section
namespace Sys2Proof.Machine

/-- The descriptor of a PUT of 4 bytes, all sent: its one packet, of FSEQ 7, awaits its answer. -/
def putAwaiting : ActDesc := { record := [6], issued := 4, pkts := [{ fseq := 7, len := 4 }] }

/-- Core 0 of the package at coordinate 5: `putAwaiting` on stream 255, the first of slot 0, which is ACTIVE. -/
def putState : State :=
  modStream (modSlot (rset State.reset .fab 0 0x11C 0x10005) 0 0 (fun sl => { sl with st := .active, streams := [255] })) 0 255
    (fun x => { x with st := .run, descs := [putAwaiting] })

/-- `putState` with the step trace of cluster 0 on (R446): the event FAULT, with the ring at the start of staging SRAM. -/
def tracedState : State :=
  rset (rset (modCluster putState 0 (fun c => { c with traceOn := true })) .clu 0 0xB00 0x1000) .clu 0 0xB08 0x1000

/-- FAULT_NACK from coordinate 6 to that packet. -/
def nackPkt : Pkt := { type := tAck, vc := 1, dstCoord := 5, srcCoord := 6, fseq := 7, operand := stFaultNack }

/-- What the checks of R348 leave of `tracedState`. -/
def nackChecked : State := (arriveCheck tracedState (arrival tracedState 7 0) tAck (pktBytes nackPkt) true).1

/-- What the check of the peer leaves of it. -/
def nackPeered : State := (peerCheck nackChecked (arrival tracedState 7 0).part nackPkt).1

theorem nackPkt_arrives :
    arriveCheck tracedState (arrival tracedState 7 0) tAck (pktBytes nackPkt) true = (nackChecked, some nackPkt) :=
  Prod.ext rfl (by decide +kernel)

theorem nackPkt_peer : peerCheck nackChecked (arrival tracedState 7 0).part nackPkt = (nackPeered, .ok) :=
  Prod.ext rfl (by decide +kernel)

theorem nackPkt_answers : AnswerAt tracedState nackPeered 7 0 tAck (pktBytes nackPkt) true 0 nackPkt
    ⟨0, 0, 255, putAwaiting, { fseq := 7, len := 4 }⟩ where
  passes := ⟨⟨nackChecked, nackPkt_arrives, nackPkt_peer⟩, by decide +kernel⟩
  endpt := by decide +kernel
  own := by decide +kernel
  fresh := by decide +kernel
  hit := by decide +kernel

/-- The slot becomes FAULTED, and its record in the ring names the event, 5, at byte 6. -/
theorem ackPkt_tracedState : ∃ t, exec (.ackPkt 7 0 (pktBytes nackPkt) true) tracedState = .next t ∧
    memGet t.mem (stgBase + 6) = 5 ∧ memGet tracedState.mem (stgBase + 6) = 0 :=
  ⟨_, rfl, by decide +kernel, by decide +kernel⟩

end Sys2Proof.Machine

namespace Sys2Proof
open Machine

/-- Refutes O32: in `tracedState` a FAULT_NACK makes the slot FAULTED, and the step trace of its cluster (R446) writes the event to
memory, which the clause says is unchanged. -/
theorem not_fabricAnswers : ¬ Obligations.FabricAnswers := by
  unfold Obligations.FabricAnswers
  rintro ⟨hack, -⟩
  obtain ⟨-, -, -, hnack, -⟩ := hack _ _ _ _ _ _ _ _ _ nackPkt_answers
  obtain ⟨t, ht, -, hmem, -⟩ := hnack (by decide)
  obtain ⟨u, hu, hwritten, hclear⟩ := ackPkt_tracedState
  obtain rfl : t = u := by injection ht.symm.trans hu
  rw [hmem, hclear] at hwritten
  exact absurd hwritten (by decide)

end Sys2Proof
end

/-! ### Requests at their destination (R243, R244, R348 to R351)

First what translation, arrival and answer leave of memory, and what the write of a span leaves; then the way of a request to its
core, and one equation for the effect of each type on memory and on its object. -/

section
namespace Sys2Proof.Machine

/-! #### Memory: what keeps it, and what a span writes -/

@[simp] theorem moveBytes_mem (s : State) (x y n : Nat) : (moveBytes s x y n).mem = s.mem := (WalkKept.refl s).moveBytes.mem

@[simp] theorem noteKeyAbsent_mem (s : State) (d : Nat) (ctag : Word) : (noteKeyAbsent s d ctag).mem = s.mem :=
  (WalkKept.refl s).noteKeyAbsent.mem

@[simp] theorem mmuWalk_mem (s : State) (clu p asid va acc j : Nat) (ctag : Word) (fresh : Option Nat) :
    (mmuWalk s clu p asid va acc j ctag fresh).1.mem = s.mem := by
  by_cases hva : 2 ^ 48 ≤ va
  · rw [mmuWalk_vaRange _ _ _ hva, bump_mem]
  · have hlt := Nat.lt_of_not_le hva
    cases ha : asidValid (bump s .mmu clu 0x118 1) clu asid with
    | false => rw [mmuWalk_asidInvalid _ _ _ hlt ha, bump_mem]
    | true =>
      cases hr : (walkResult (bump s .mmu clu 0x118 1) clu p asid va acc).res with
      | ok d =>
        rw [mmuWalk_ok _ _ _ hlt ha hr]
        exact walkedOf_mem ctag
      | fault i =>
        rw [mmuWalk_fault _ _ _ hlt ha hr]
        exact (walkFaulted_kept ..).mem.trans (walkedOf_mem ctag)

@[simp] theorem translate_mem (s : State) (n asid va acc : Nat) (ctag : Word) : (translate s n asid va acc ctag).1.mem = s.mem := by
  unfold translate
  extract_lets clu p use
  have huse : ∀ v e, (use v e).1.mem = v.mem := fun v e => by
    show (if leafPermits e.entry acc then (v, TrRes.ok _) else (v, TrRes.fault _)).1.mem = v.mem
    split <;> rfl
  split
  · rfl
  · split
    · exact huse _ _
    · split
      · exact huse _ _
      · have hw := mmuWalk_mem s clu p asid va acc (coreJ n) ctag none
        generalize mmuWalk s clu p asid va acc (coreJ n) ctag none = q at hw
        obtain ⟨v, d | i⟩ := q
        · dsimp only
          split
          · exact hw
          · exact hw
        · exact hw

@[simp] theorem spanVa_mem (fuel : Nat) (s : State) (n asid acc va len : Nat) (ctag : Word) :
    (spanVa fuel s n asid acc va len ctag).1.mem = s.mem := by
  induction fuel generalizing s va len with
  | zero => rfl
  | succ fuel ih =>
    unfold spanVa
    split
    · rfl
    · dsimp only
      have htr := translate_mem s n asid va acc ctag
      generalize translate s n asid va acc ctag = q at htr
      obtain ⟨v, d | i⟩ := q
      · have hrest := ih v (va + pagePart va len) (len - pagePart va len)
        dsimp only
        generalize spanVa fuel v n asid acc (va + pagePart va len) (len - pagePart va len) ctag = r at hrest
        obtain ⟨w, rest | i⟩ := r
        · exact hrest.trans htr
        · exact hrest.trans htr
      · exact htr

@[simp] theorem reqSpan_mem (s : State) (n sl : Nat) (e : KeyEnt) (k : Pkt) : (reqSpan s n sl e k).1.mem = s.mem := by
  unfold reqSpan
  dsimp only
  split_ifs
  · rfl
  · rfl
  · exact recErr_mem ..
  · exact spanVa_mem ..

/-- A write of the bytes `bs` at `d` leaves what lies outside them. -/
theorem writeFor_out (s : State) {d x : Nat} {bs : List Byte} (asid p : Nat) (h : x < d ∨ d + bs.length ≤ x) :
    memGet (writeFor s d bs asid p).mem x = memGet s.mem x := by
  have hw : (writeFor s d bs asid p).mem = (writeMem s d bs).mem := by
    unfold writeFor
    split
    · unfold tagWriter
      split <;> rfl
    · rfl
  rw [hw]
  exact writeMem_out s d x bs h

theorem writeLive_out (s : State) {d x : Nat} {bs : List Byte} (asid p : Nat) (h : x < d ∨ d + bs.length ≤ x) :
    memGet (writeLive s d bs asid p).mem x = memGet s.mem x := by
  unfold writeLive
  refine List.foldlRecOn _ _ (motive := fun t : State => memGet t.mem x = memGet s.mem x) rfl fun t ht g _ => ?_
  dsimp only
  split
  · exact ht
  · refine (writeFor_out t asid p ?_).trans ht
    rw [List.length_take, List.length_drop]
    omega

theorem storeMem_out (s : State) (n : Nat) {d x : Nat} {bs : List Byte} (ctag : Word) (asid p : Nat)
    (h : x < d ∨ d + bs.length ≤ x) : memGet (storeMem s n d bs ctag asid p).mem x = memGet s.mem x := by
  unfold storeMem writeData
  split_ifs
  · rw [noteKeyAbsent_mem, moveBytes_mem]
  · rw [writeFor_out _ asid p h, moveBytes_mem]
  · rw [writeLive_out _ asid p h, moveBytes_mem]

/-- A span's write leaves what lies outside its pieces. -/
theorem writeSpan_out (s : State) (n : Nat) {parts : List (Nat × Nat)} (bs : List Byte) (ctag : Word) (asid p : Nat) {x : Nat}
    (h : ∀ r ∈ parts, x < r.1 ∨ r.1 + r.2 ≤ x) :
    memGet (writeSpan s n parts bs ctag asid p).mem x = memGet s.mem x := by
  unfold writeSpan
  refine List.foldlRecOn _ _ (motive := fun q : State × List Byte => memGet q.1.mem x = memGet s.mem x) rfl fun q hq r hr => ?_
  refine (storeMem_out q.1 n ctag asid p ?_).trans hq
  have hout := h r hr
  rw [List.length_take]
  omega

/-! #### Memory: the arrival and the answer of a packet -/

@[simp] theorem takePkt_mem (s : State) (a : Arrival) (data : List Byte) : (takePkt s a data).mem = s.mem := by
  unfold takePkt
  split
  · rfl
  · dsimp only
    split <;> rfl

@[simp] theorem bumpUnit_mem (s : State) (b : Block) (i off n unit : Nat) : (bumpUnit s b i off n unit).mem = s.mem := rfl

@[simp] theorem discardPkt_mem (s : State) (a : Arrival) : (discardPkt s a).mem = s.mem := rfl

@[simp] theorem arriveCheck_mem (s : State) (a : Arrival) (type : Nat) (data : List Byte) (tagOk : Bool) :
    (arriveCheck s a type data tagOk).1.mem = s.mem := by
  unfold arriveCheck
  extract_lets k s1 s2 sub s3
  have h2 : s2.mem = s.mem := (apply_ite State.mem ..).trans (by simp [s1])
  have h3 : s3.mem = s.mem := (moveBytes_mem ..).trans h2
  split_ifs <;> simp [h2, h3]

/-- A peer that is LIVE, or becomes it, leaves memory. -/
theorem peerCheck_ok_mem {s t : State} {p : Nat} {k : Pkt} (h : peerCheck s p k = (t, .ok)) : t.mem = s.mem := by
  unfold peerCheck at h
  dsimp only at h
  split_ifs at h <;> simp only [Prod.mk.injEq, reduceCtorEq, and_false, and_true] at h
  · rw [← h]
    rfl
  · rw [← h]

@[simp] theorem sealPkt_mem (s : State) (p : Nat) (k : Pkt) : (sealPkt s p k).1.mem = s.mem := by
  unfold sealPkt
  dsimp only
  split_ifs
  · rfl
  · rw [recErr_mem, rset_mem]
  · split <;> rfl

@[simp] theorem transmit_mem (s : State) (p i : Nat) (k : Pkt) : (transmit s p i k).1.mem = s.mem := by
  unfold transmit
  split
  · rfl
  · have hs := sealPkt_mem s p k
    generalize sealPkt s p k = q at hs
    obtain ⟨t, _ | b⟩ := q
    · exact hs
    · exact (moveBytes_mem ..).trans hs

@[simp] theorem answer_mem (s : State) (p i : Nat) (q : Pkt) (type operand : Nat) (payload : List Byte) (poison : Bool) :
    (answer s p i q type operand payload poison).mem = s.mem := transmit_mem ..

@[simp] theorem ack_mem (s : State) (p i : Nat) (q : Pkt) (operand : Nat) : (ack s p i q operand).mem = s.mem := answer_mem ..

theorem Passes.mem {s s2 : State} {i part type : Nat} {data : List Byte} {tagOk : Bool} {k : Pkt}
    (h : Passes s s2 i part type data tagOk k) : s2.mem = s.mem := by
  obtain ⟨s1, harrive, hpeer⟩ := h
  have h1 := arriveCheck_mem s (arrival s i part) type data tagOk
  rw [harrive] at h1
  exact (peerCheck_ok_mem hpeer).trans h1

/-! #### A request that its core admits -/

/-- A request row runs its packet's arrival, with the finding of its memory for a type that reads. -/
theorem exec_reqRow {c : (Nat → Nat → List Byte → Bool → Ecc → Instr) × Nat} (hc : c ∈ reqRows) (s : State) (i part : Nat)
    (data : List Byte) (tagOk : Bool) (ecc : Ecc) : exec (c.1 i part data tagOk ecc) s =
      .next (reqArrive s i part c.2 data tagOk (if c.2 ∈ [tGetReq, tAtomic, tReducePut] then ecc else .none)) := by
  simp only [reqRows, List.mem_cons, List.not_mem_nil, or_false] at hc
  rcases hc with rfl | rfl | rfl | rfl | rfl | rfl
  all_goals rfl

section
variable {s s2 t : State} {i part type : Nat} {data : List Byte} {tagOk : Bool} {n : Nat} {k : Pkt} {e : KeyEnt} {ecc : Ecc}
  {a : Arrival} {parts : List (Nat × Nat)}

/-- A request that has passed the checks of R348 up to the fields goes to its core. -/
theorem ReqAt.reqArrive (h : ReqAt s s2 i part type data tagOk n k) (ecc : Ecc) :
    reqArrive s i part type data tagOk ecc = coreReq s2 n (arrival s i part) k ecc := by
  obtain ⟨s1, harrive, hpeer⟩ := h.passes
  have hepoch : (k.dstEpoch ≠ 0 && k.dstEpoch ≠ s2.epoch) = false := by
    rcases h.epoch with h0 | h0 <;> simp [h0]
  have hrefused : (partOfCore s2 n ≠ (arrival s i part).part || !reqFieldsOk k) = false := by simp [h.own, h.fields]
  unfold Machine.reqArrive
  dsimp only
  rw [harrive]
  dsimp only
  rw [hpeer]
  dsimp only
  rw [hepoch, h.endpt]
  dsimp only
  rw [h.up, hrefused]
  rfl

/-- A request that its KEY admits takes its effect, on an ordered stream or at once (R349, R351). -/
theorem ReqKey.coreReq (h : ReqKey s n k e) (hup : bit (core s n).engReset 3 = false) (a : Arrival) (ecc : Ecc) :
    coreReq s n a k ecc = if k.ordered then orderedReq s n e.slot a e k ecc else
      let r := reqMemory s n e.slot a e k ecc
      answer (if r.2.type ≠ tAck || r.2.operand = stOk then reqTally r.1 n e.slot k else r.1) a.part a.port k r.2.type
        r.2.operand r.2.payload r.2.poison := by
  have hlive : (!slotLive s n e.slot || (!e.target && slotAsid s n e.slot ≠ e.asid) ||
      (k.rsig ≠ 0xFFFF && (physObj s n e.slot k.rsig).isNone)) = false := by
    rcases h.asid with ha | ha <;> rcases h.object with ho | ho <;> simp [h.live, ha, ho]
  unfold Machine.coreReq
  rw [hup, h.admits]
  dsimp only
  rw [hlive]
  rfl

/-- A request outside ordered streams whose memory effect succeeds is applied, and answered with what it gives (R349). -/
theorem ReqAt.applied (h : ReqAt s s2 i part type data tagOk n k) (hk : ReqKey s2 n k e) (ho : k.ordered = false)
    {r : ReqRes} (hm : reqMemory s2 n e.slot (arrival s i part) e k ecc = (t, r)) (hr : r.type ≠ tAck ∨ r.operand = stOk) :
    Machine.reqArrive s i part type data tagOk ecc =
      answer (reqTally t n e.slot k) (arrival s i part).part (arrival s i part).port k r.type r.operand r.payload r.poison := by
  rw [h.reqArrive, hk.coreReq h.engine, ho, hm]
  simp [hr]

/-- One whose memory effect answers OK and nothing else is acknowledged. -/
theorem ReqAt.acked (h : ReqAt s s2 i part type data tagOk n k) (hk : ReqKey s2 n k e) (ho : k.ordered = false)
    (hm : reqMemory s2 n e.slot (arrival s i part) e k ecc = (t, {})) : Machine.reqArrive s i part type data tagOk ecc =
      ack (reqTally t n e.slot k) (arrival s i part).part (arrival s i part).port k stOk := by
  rw [h.applied hk ho hm (.inr rfl), ack]
  rfl

/-- A request of an ordered stream that finds no place is answered BUSY (R351). -/
theorem orderedReq_busy {sl : Nat} (h : rxBusy s n sl k = true) : orderedReq s n sl a e k ecc = busyAnswer s a k := by
  unfold orderedReq
  exact if_pos h

/-- One that finds its place takes its effect on memory and is held until its turn (R351). -/
theorem orderedReq_held {sl : Nat} {r : ReqRes} (h : rxBusy s n sl k = false) (hm : reqMemory s n sl a e k ecc = (t, r)) :
    orderedReq s n sl a e k ecc = drainRx 513 (modCore t n (fun c => { c with
      rx := mput c.rx k.rstream { rxEntry s n sl k with held := (rxEntry s n sl k).held ++
        [(k.offset / 4096, pktHeader k ++ leBytes a.port 1 ++ leBytes a.part 1, r.operand)] } })) n k.rstream := by
  unfold orderedReq
  refine (if_neg (ne_true_of_eq_false h)).trans ?_
  rw [hm]
  rfl

/-! #### The effect of each type on memory (R349) -/

theorem reqSpan_empty (sl : Nat) (h : reqLen k = 0) : reqSpan s n sl e k = (s, .ok []) := by
  unfold reqSpan
  exact if_pos h

theorem reqLen_put (h : k.type = tPut) : reqLen k = k.plen := by simp [reqLen, h]

theorem reqLen_signal (h : k.type = tSignal) : reqLen k = 0 := by
  simp [reqLen, h, tSignal, tPut, tReducePut, tGetReq, tAtomic]

theorem reqLen_tally (h : k.type = tTally) : reqLen k = 0 := by
  simp [reqLen, h, tTally, tPut, tReducePut, tGetReq, tAtomic]

theorem reqMemory_put (ht : k.type = tPut) (hs : reqSpan s n e.slot e k = (t, .ok parts)) :
    reqMemory s n e.slot a e k ecc = (writeSpan (portOut (portIn t n k.plen) n (reqPort e k.plen)) n parts k.payload
      (slot s n e.slot).ctag (reqAsid s n e) a.part, {}) := by
  unfold reqMemory
  rw [hs]
  simp [ht, reqPort, reqAsid, reqLen_put ht, tPut, tGetReq]

theorem reqMemory_get {u v : State} {bad : Bool} {b : List Byte} (ht : k.type = tGetReq)
    (hs : reqSpan s n e.slot e k = (t, .ok parts))
    (hc : checkSpan (portOut (portIn t n (k.plen + reqPort e (reqLen k))) n (reqLen k)) parts ecc (slot s n e.slot).ctag = (u, bad))
    (hb : readSpanZero u n parts (slot s n e.slot).ctag = (v, b)) :
    reqMemory s n e.slot a e k ecc = (v, { type := tGetData, payload := b, poison := bad }) := by
  unfold reqMemory
  rw [hs]
  unfold reqPort at hc
  simp [ht, hc, hb, tPut, tGetReq]

theorem reqMemory_atomic {u v : State} {d : List Byte} (ht : k.type = tAtomic) (hs : reqSpan s n e.slot e k = (t, .ok parts))
    (hc : checkSpan (portOut (portIn t n (k.plen + reqPort e (reqLen k))) n (reqPort e (reqLen k))) parts ecc
      (slot s n e.slot).ctag = (u, false))
    (hd : readSpan u n parts (slot s n e.slot).ctag = (v, d)) :
    reqMemory s n e.slot a e k ecc = (writeSpan v n parts (leBytes
      (if bit k.opx 0 then fAdd .fp32 (leNat d) (k.operand % 2 ^ 32) else (leNat d + k.operand) % 2 ^ 64) (reqLen k))
      (slot s n e.slot).ctag (reqAsid s n e) a.part, { type := tAtomicRsp, operand := leNat d }) := by
  unfold reqMemory
  rw [hs]
  unfold reqPort at hc
  simp [ht, hc, hd, reqAsid, tPut, tGetReq, tReducePut, tAtomic]

theorem reqMemory_reducePut {u v : State} {d : List Byte} (ht : k.type = tReducePut)
    (hs : reqSpan s n e.slot e k = (t, .ok parts))
    (hc : checkSpan (portOut (portIn t n (k.plen + reqPort e (reqLen k))) n (reqPort e (reqLen k))) parts ecc
      (slot s n e.slot).ctag = (u, false))
    (hd : readSpan u n parts (slot s n e.slot).ctag = (v, d)) :
    reqMemory s n e.slot a e k ecc = (writeSpan (bumpUnit v .col a.page 0x104 k.plen 4096) n parts
      (reduceBytes k.opx (if k.opx / 4 = 1 then k.plen / 2 else k.plen / 4) d k.payload) (slot s n e.slot).ctag
      (reqAsid s n e) a.part, {}) := by
  unfold reqMemory
  rw [hs]
  unfold reqPort at hc
  simp [ht, hc, hd, reqAsid, tPut, tGetReq, tReducePut]

/-- SIGNAL and TALLY move no bytes of memory. -/
theorem reqMemory_empty (ht : k.type = tSignal ∨ k.type = tTally) :
    reqMemory s n e.slot a e k ecc = (portOut (portIn s n k.plen) n 0, {}) := by
  have hlen : reqLen k = 0 := ht.elim reqLen_signal reqLen_tally
  unfold reqMemory
  rw [reqSpan_empty _ hlen]
  rcases ht with ht | ht <;> simp [ht, hlen, tSignal, tTally, tPut, tGetReq, tReducePut, tAtomic]

/-- The answers with data are no ACK. -/
theorem getData_ne_ack : tGetData ≠ tAck := by decide

theorem atomicRsp_ne_ack : tAtomicRsp ≠ tAck := by decide

/-! #### The effect of each type on its object (R349) -/

/-- A SIGNAL or TALLY names an object. -/
theorem rsig_named (hf : reqFieldsOk k = true) (ht : k.type = tSignal ∨ k.type = tTally) : k.rsig ≠ 0xFFFF := by
  intro hnone
  rcases ht with ht | ht <;> simp [reqFieldsOk, ht, hnone] at hf

theorem reqTally_none (sl : Nat) (h : k.rsig = 0xFFFF) : reqTally s n sl k = s := if_pos h

theorem reqTally_signal (sl : Nat) (h : k.rsig ≠ 0xFFFF) (ht : k.type = tSignal) : reqTally s n sl k =
    syncDo s n sl k.rsig (if bit k.opx 0 then .set (k.operand % 65536) else .add (k.operand % 65536)) true := by
  unfold reqTally
  simp [h, ht, tSignal, tPut, tReducePut]

theorem reqTally_tally (sl : Nat) (h : k.rsig ≠ 0xFFFF) (ht : k.type = tTally) :
    reqTally s n sl k = syncDo s n sl k.rsig (.bytes k.operand) true := by
  unfold reqTally
  simp [h, ht, tTally, tSignal, tPut, tReducePut, tAtomic]

end

end Sys2Proof.Machine

namespace Sys2Proof
open Machine

/-- Settles O30: each type by its effect on memory and on its object; a PUT's memory by what its span's write leaves. -/
theorem fabricRequests : Obligations.FabricRequests := by
  unfold Obligations.FabricRequests
  refine ⟨?put, ?get, ?atomic, ?reduce, ?sync, ?ordered⟩
  case put =>
    intro s s2 s3 i part data tagOk n k e parts hat hk ho hs
    refine ⟨_, rfl, ?_⟩
    extract_lets a u
    have hrun : reqArrive s i part tPut data tagOk .none = ack (reqTally u n e.slot k) a.part a.port k stOk :=
      hat.acked hk ho (reqMemory_put hat.kind hs)
    refine ⟨hrun, fun hnone x hx => ?_⟩
    have hspan := reqSpan_mem s2 n e.slot e k
    rw [hs] at hspan
    rw [hrun, ack_mem, reqTally_none _ hnone, writeSpan_out _ _ _ _ _ _ hx]
    exact congrArg (memGet · x) (hspan.trans hat.passes.mem)
  case get =>
    intro s s2 s3 s4 s5 i part data tagOk n k e parts bad b ecc hat hk ho hs hc hb
    have hrun := hat.applied hk ho (reqMemory_get hat.kind hs hc hb) (.inl getData_ne_ack)
    refine ⟨_, rfl, hrun, fun hnone => ?_⟩
    rw [hrun, answer_mem, reqTally_none _ hnone]
  case atomic =>
    intro s s2 s3 s4 s5 i part data tagOk n k e parts d ecc hat hk ho hs hc hd
    have hrun := hat.applied hk ho (reqMemory_atomic hat.kind hs hc hd) (.inl atomicRsp_ne_ack)
    refine ⟨_, rfl, ?_⟩
    extract_lets a v u
    exact hrun
  case reduce =>
    intro s s2 s3 s4 s5 i part data tagOk n k e parts d ecc hat hk ho hs hc hd
    have hrun := hat.acked hk ho (reqMemory_reducePut hat.kind hs hc hd)
    refine ⟨_, rfl, ?_⟩
    extract_lets a r u
    exact hrun
  case sync =>
    intro s s2 i part data tagOk n k e hk ho
    refine ⟨fun hat => ⟨_, rfl, ?_⟩, fun hat => ⟨_, rfl, ?_⟩⟩
    · rw [hat.acked hk ho (reqMemory_empty (.inl hat.kind)),
        reqTally_signal _ (rsig_named hat.fields (.inl hat.kind)) hat.kind]
    · rw [hat.acked hk ho (reqMemory_empty (.inr hat.kind)),
        reqTally_tally _ (rsig_named hat.fields (.inr hat.kind)) hat.kind]
  case ordered =>
    intro c hc htype s s2 s3 i part data tagOk n k e ecc r hat hk ho
    extract_lets a
    have hecc : (if c.2 ∈ [tGetReq, tAtomic, tReducePut] then ecc else .none) = if c.2 = tReducePut then ecc else .none := by
      rcases htype with h | h <;> rw [h] <;> rfl
    have hrun : exec (c.1 i part data tagOk ecc) s =
        .next (orderedReq s2 n e.slot a e k (if c.2 = tReducePut then ecc else .none)) := by
      rw [exec_reqRow hc, hecc, hat.reqArrive, hk.coreReq hat.engine, if_pos ho]
    refine ⟨fun hbusy => ?_, fun hfree hm => ?_⟩
    · rw [hrun, orderedReq_busy hbusy, busyAnswer]
    · rw [hrun, orderedReq_held hfree hm]

end Sys2Proof
end

/-! ### Strands and sync objects (R79, R88, R150, R170, R174, R175)

First what a slot's new state leaves of strands and objects; then a launch, and each way that WAIT and SIGNAL can go on. -/

section
namespace Sys2Proof.Machine

/-! #### A slot changes its state -/

/-- Every strand and every sync object is as it was. -/
structure WorkKept (s t : State) : Prop where
  strand : ∀ m j, strand t m j = strand s m j
  syncObj : ∀ m o, syncObj t m o = syncObj s m o

section
variable {s t : State} {n k : Nat}

theorem WorkKept.refl (s : State) : WorkKept s s := ⟨fun _ _ => rfl, fun _ _ => rfl⟩

theorem WorkKept.modSlot {f} : WorkKept s (modSlot s n k f) :=
  ⟨fun m j => strand_modCore s n m j, fun m o => syncObj_modCore s n m o⟩

protected theorem WorkKept.units {u : State} (h : WorkKept s t) (g : UnitsKept t u) : WorkKept s u :=
  ⟨fun m j => (g.strand m j).trans (h.strand m j), fun m o => (g.syncObj m o).trans (h.syncObj m o)⟩

theorem workKept_setSt (x : SlotState) : WorkKept s (setSt s n k x) := by
  unfold setSt
  dsimp only
  split
  · exact .refl s
  · exact WorkKept.modSlot.units ((UnitsKept.refl _).whenNot (·.traceRec)).mirror

/-- A slot that follows its engines leaves their work (R79). -/
theorem workKept_refresh (s : State) (n k : Nat) : WorkKept s (refresh s n k) := by
  unfold refresh
  dsimp only
  split
  · exact workKept_setSt _
  · exact .refl s

end

/-! #### Launch -/

/-- A strand that starts its launch `l` (R150). -/
def startedStrand (l : Launch) (rest : List Launch) (x : Strand) : Strand :=
  { setS (setS (setS x 0 l.idx) 1 l.variant) 2 l.iter with
    pc := 0, entry := l.entry, loops := [], run := .run, order := l.order, launches := rest }

/-- A launch sets S0 to S2. -/
theorem startedStrand_sReg (l : Launch) (rest : List Launch) (x : Strand) :
    sReg (startedStrand l rest x) 0 = l.idx % 2 ^ 32 ∧ sReg (startedStrand l rest x) 1 = l.variant % 2 ^ 32 ∧
    sReg (startedStrand l rest x) 2 = l.iter % 2 ^ 32 := by
  have hsreg (r : Nat) : sReg (startedStrand l rest x) r = sReg (setS (setS (setS x 0 l.idx) 1 l.variant) 2 l.iter) r := rfl
  refine ⟨?_, ?_, ?_⟩
  · rw [hsreg, sReg_setS_ne (by decide), sReg_setS_ne (by decide), sReg_setS_self]
  · rw [hsreg, sReg_setS_ne (by decide), sReg_setS_self]
  · rw [hsreg, sReg_setS_self]

section
variable {s : State} {n ph k i : Nat}

theorem exec_veStrandLaunch_starts {l : Launch} {rest : List Launch} (ho : strandOwner s n ph = some (k, i))
    (hl : (strand s n ph).launches = l :: rest) (hk : running s n k = true) (hi : (strand s n ph).run = .idle) :
    exec (.veStrandLaunch n ph) s = .next (refresh (modStrand s n ph (startedStrand l rest)) n k) := by
  change execVeStrandLaunch n ph s = _
  unfold execVeStrandLaunch
  rw [ho]
  dsimp only
  rw [hl]
  dsimp only
  rw [if_neg (by simp [hk, hi])]
  rfl

/-- No start without an owner that runs, a launch and an idle strand (R150). -/
theorem exec_veStrandLaunch_stays (h : strandOwner s n ph = none ∨ (strand s n ph).launches = [] ∨ (strand s n ph).run ≠ .idle ∨
    ∃ k i, strandOwner s n ph = some (k, i) ∧ running s n k = false) : exec (.veStrandLaunch n ph) s = .next s := by
  refine congrArg Host.Outcome.next ?_
  split
  · rfl
  · next k i ho =>
    dsimp only
    split
    · rfl
    · next l rest hl =>
      refine if_pos ?_
      rcases h with h | h | h | ⟨k', i', ho', hk⟩
      · simp [ho] at h
      · simp [hl] at h
      · simp [h]
      · obtain ⟨rfl, rfl⟩ := Prod.mk.inj (Option.some.inj (ho.symm.trans ho'))
        simp [hk]

end

/-! #### WAIT and SIGNAL -/

/-- An issued instruction is counted, and its strand goes on to the next (R92, R101). -/
def issuedState (s1 : State) (n ph : Nat) : State := modStrand (veCounted s1 n) n ph (fun y => vAdvance y y.pc)

section
variable {s s1 : State} {n ph opc k i w o : Nat} {ecc : Ecc}

theorem VeIssues.issuedState_strand (h : VeIssues s s1 n ph opc k i w ecc) :
    Machine.strand (issuedState s1 n ph) n ph = vAdvance (Machine.strand s n ph) (Machine.strand s n ph).pc := by
  rw [issuedState, strand_modStrand_self, h.strand]

theorem VeIssues.veCounted_syncObj (h : VeIssues s s1 n ph opc k i w ecc) (o : Nat) :
    syncObj (veCounted s1 n) n o = syncObj s n o := h.units.syncObj n o

theorem VeIssues.issuedState_syncObj (h : VeIssues s s1 n ph opc k i w ecc) (o : Nat) :
    syncObj (issuedState s1 n ph) n o = syncObj s n o := (syncObj_modCore _ n n o).trans (h.veCounted_syncObj o)

theorem physObj_veCounted (s : State) (n k o : Nat) : physObj (veCounted s n) n k o = physObj s n k o := rfl

theorem VeIssues.veSignal (h : VeIssues s s1 n ph 0x54 k i w ecc) (ho : physObj s1 n k (bits (vImm w) 0 12) = some o) :
    exec (.veSignal n ph ecc) s = .next (syncDo (issuedState s1 n ph) n k (bits (vImm w) 0 12) .signal false) := by
  refine congrArg _ ((h.veRun _).trans ?_)
  dsimp only
  rw [physObj_veCounted, ho]
  rfl

theorem VeIssues.veSignal_range (h : VeIssues s s1 n ph 0x54 k i w ecc) (ho : physObj s1 n k (bits (vImm w) 0 12) = none) :
    exec (.veSignal n ph ecc) s = .next (veErr (veCounted s1 n) eVeSyncRange n k ph i) := by
  refine congrArg _ ((h.veRun _).trans ?_)
  dsimp only
  rw [physObj_veCounted, ho]

variable (h : VeIssues s s1 n ph 0x53 k i w ecc)
include h

theorem VeIssues.veWait_range (ho : physObj s1 n k (bits (vImm w) 0 12) = none) :
    exec (.veWait n ph ecc) s = .next (veErr (veCounted s1 n) eVeSyncRange n k ph i) := by
  refine congrArg _ ((h.veRun _).trans ?_)
  dsimp only
  rw [physObj_veCounted, ho]

variable (ho : physObj s1 n k (bits (vImm w) 0 12) = some o)
include ho

theorem VeIssues.veWait_mismatch (hm : ((syncObj s n o).event && decide (bits (vImm w) 16 16 ≠ 0)) = true) :
    exec (.veWait n ph ecc) s = .next (errCtx (veCounted s1 n) eSynModeMismatch n k (bits (vImm w) 0 12)) := by
  refine congrArg _ ((h.veRun _).trans ?_)
  dsimp only
  rw [physObj_veCounted, ho]
  dsimp only
  rw [h.veCounted_syncObj, if_pos hm]

variable (hm : ((syncObj s n o).event && decide (bits (vImm w) 16 16 ≠ 0)) = false)
include hm

/-- A WAIT of its object's mode takes what it waits for, or its strand is descheduled (R174, R175). -/
theorem VeIssues.veWait : exec (.veWait n ph ecc) s = .next (
    if veWaitHolds (leftForStrands (issuedState s1 n ph) n k o) (bits (vImm w) 16 16) then
      modSync (if bit (vImm w) 12 then issuedState s1 n ph else bump (issuedState s1 n ph) .syn n 0x138 1) n o
        (fun z => veWaitTake z (bit (vImm w) 12) (bits (vImm w) 16 16))
    else refresh (modStrand (issuedState s1 n ph) n ph (fun y =>
      { y with run := .wait (bits (vImm w) 0 12) (bit (vImm w) 12) (bits (vImm w) 16 16) })) n k) := by
  refine congrArg _ ((h.veRun _).trans ?_)
  dsimp only
  rw [physObj_veCounted, ho]
  dsimp only
  rw [h.veCounted_syncObj, if_neg (Bool.eq_false_iff.1 hm)]
  rfl

theorem VeIssues.veWait_completes : Completes (.veWait n ph ecc) s (fun t =>
    let holds := veWaitHolds (leftForStrands (issuedState s1 n ph) n k o) (bits (vImm w) 16 16)
    (holds = true → Machine.strand t n ph = vAdvance (Machine.strand s n ph) (Machine.strand s n ph).pc ∧
      syncObj t n o = veWaitTake (syncObj s n o) (bit (vImm w) 12) (bits (vImm w) 16 16)) ∧
    (holds = false → (Machine.strand t n ph).run = .wait (bits (vImm w) 0 12) (bit (vImm w) 12) (bits (vImm w) 16 16) ∧
      syncObj t n o = syncObj s n o)) := by
  refine ⟨_, h.veWait ho hm, fun hh => ?_, fun hh => ?_⟩
  · have hcount : UnitsKept (issuedState s1 n ph)
        (if bit (vImm w) 12 then issuedState s1 n ph else bump (issuedState s1 n ph) .syn n 0x138 1) :=
      (UnitsKept.refl _).whenNot (·.bump)
    rw [if_pos hh, syncObj_modSync_self, hcount.syncObj, h.issuedState_syncObj, modSync, strand_modCore, hcount.strand,
      h.issuedState_strand]
    exact ⟨rfl, rfl⟩
  · have hkept (u : State) := workKept_refresh u n k
    rw [if_neg (by simp [hh]), (hkept _).strand, (hkept _).syncObj, strand_modStrand_self, modStrand, syncObj_modCore,
      h.issuedState_syncObj]
    exact ⟨rfl, rfl⟩

end

/-- Settles O22: a launch by the strand that it starts, WAIT and SIGNAL by what their object answers. -/
theorem veStrands : Obligations.VeStrands := by
  unfold Obligations.VeStrands
  refine ⟨fun s n ph k i l rest ho hl hk hi => ⟨_, exec_veStrandLaunch_starts ho hl hk hi, ?_⟩,
    fun s n ph h => exec_veStrandLaunch_stays h, fun s s1 n ph k i w o ecc h ho hm => h.veWait_mismatch ho hm,
    fun s s1 n ph k i w o ecc h ho hm => h.veWait_completes ho hm, fun s s1 n ph k i w o ecc h ho => h.veSignal ho,
    fun s s1 n ph k i w opc ecc c hc h ho => ?_⟩
  · have hkept := workKept_refresh (modStrand s n ph (startedStrand l rest)) n k
    obtain ⟨h0, h1, h2⟩ := startedStrand_sReg l rest (strand s n ph)
    dsimp only
    rw [hkept.strand, strand_modStrand_self]
    exact ⟨rfl, rfl, rfl, rfl, rfl, h0, h1, h2, rfl, rfl,
      fun m j hmj => (hkept.strand m j).trans (strand_modStrand_ne s _ hmj)⟩
  · simp only [List.mem_cons, List.not_mem_nil, or_false, Prod.mk.injEq] at hc
    rcases hc with ⟨rfl, rfl⟩ | ⟨rfl, rfl⟩
    · exact h.veWait_range ho
    · exact h.veSignal_range ho

end Sys2Proof.Machine
end

/-! ### What the barrier units send (R186, R191, R356, R358)

A gong unit sends releases and notices to the cores, a barrier pipeline besides sends packets to other packages. `Posts` says what all
of it leaves: memory, the cores, what the clusters hold, the messages on their way and the recorded errors. `PostsOnly` adds the counts
of the barriers, which only an arrival and a release change. -/

section
namespace Sys2Proof.Machine

/-- Messages are sent and errors recorded; no message is taken off the way and no recorded error is cleared. -/
structure Posts (s t : State) : Prop extends KeepsErrs s t where
  cores : t.cores = s.cores
  clusters : t.clusters = s.clusters
  split : t.split = s.split
  us : t.us = s.us
  net : ∀ m ∈ s.net, m ∈ t.net

/-- Besides, every barrier is as it was. -/
structure PostsOnly (s t : State) : Prop extends Posts s t where
  gong : t.gong = s.gong
  fb : t.fb = s.fb

section
variable {s t u : State} {c : Prop} {inst : Decidable c}

theorem Posts.refl (s : State) : Posts s s := ⟨.refl s, rfl, rfl, rfl, rfl, fun _ hm => hm⟩

theorem Posts.trans (h : Posts s t) (g : Posts t u) : Posts s u :=
  ⟨h.toKeepsErrs.trans g.toKeepsErrs, g.cores.trans h.cores, g.clusters.trans h.clusters, g.split.trans h.split, g.us.trans h.us,
    fun m hm => g.net m (h.net m hm)⟩

/-- An update of the barriers alone. -/
protected theorem Posts.barriers {g f} (h : Posts s t) : Posts s { t with gong := g, fb := f } :=
  h.trans ⟨.of_regs rfl rfl, rfl, rfl, rfl, rfl, fun _ hm => hm⟩

theorem PostsOnly.refl (s : State) : PostsOnly s s := ⟨.refl s, rfl, rfl⟩

theorem PostsOnly.trans (h : PostsOnly s t) (g : PostsOnly t u) : PostsOnly s u :=
  ⟨h.toPosts.trans g.toPosts, g.gong.trans h.gong, g.fb.trans h.fb⟩

/-- Posting goes on. -/
protected theorem Posts.only (h : Posts s t) (g : PostsOnly t t → PostsOnly t u) : Posts s u := h.trans (g (.refl t)).toPosts

/-- An update of the ports, or of what the pipelines hold and count. -/
protected theorem PostsOnly.pipes {ports heldPkts mgtIdx resid nonce} (h : PostsOnly s t) : PostsOnly s
    { t with ports := ports, heldPkts := heldPkts, mgtIdx := mgtIdx, resid := resid, nonce := nonce } :=
  h.trans ⟨⟨.of_regs rfl rfl, rfl, rfl, rfl, rfl, fun _ hm => hm⟩, rfl, rfl⟩

protected theorem PostsOnly.ite (ht : PostsOnly s t) (hu : PostsOnly s u) : PostsOnly s (if c then t else u) := by
  split
  · exact ht
  · exact hu

protected theorem PostsOnly.foldl {α : Type} {f : State → α → State} {l : List α} (h : PostsOnly s t)
    (hf : ∀ {u x}, PostsOnly s u → PostsOnly s (f u x)) : PostsOnly s (l.foldl f t) :=
  List.foldlRecOn l f (motive := PostsOnly s) h fun _ hu _ _ => hf hu

protected theorem PostsOnly.send {m} (h : PostsOnly s t) : PostsOnly s (send t m) :=
  h.trans ⟨⟨.of_regs rfl rfl, rfl, rfl, rfl, rfl, fun _ hm => List.mem_append_left _ hm⟩, rfl, rfl⟩

protected theorem PostsOnly.rset {b i off v} (h : PostsOnly s t) (ho : off % 0x1000 ≠ 0x20) : PostsOnly s (rset t b i off v) :=
  h.trans ⟨⟨rset_keepsErrs t b i off v ho, rfl, rfl, rfl, rfl, fun _ hm => hm⟩, rfl, rfl⟩

protected theorem PostsOnly.bump {b i off n} (h : PostsOnly s t) (ho : off % 0x1000 ≠ 0x20 := by decide) :
    PostsOnly s (bump t b i off n) := h.rset ho

/-- An error on a page that is no engine's, recorded with its escalation. -/
protected theorem PostsOnly.recErr {e : ErrCode} {i sub det ctag} (h : PostsOnly s t) (he : pageEngine e.blk = none) :
    PostsOnly s (recErr t e i sub det ctag) :=
  h.trans ⟨⟨recErr_keepsErrs t e i sub det ctag, recErr_cores t i sub det ctag he, recErr_clusters .., recErr_split .., recErr_us ..,
    fun _ hm => by rwa [recErr_net]⟩, recErr_gong .., recErr_fb ..⟩

protected theorem PostsOnly.moveBytes {x y n} (h : PostsOnly s t) : PostsOnly s (moveBytes t x y n) := by
  have hall (l : List Nat) : ∀ {t x}, PostsOnly s t → PostsOnly s (crossAll t x n l) := by
    induction l with
    | nil => exact fun h => h
    | cons b l ih =>
      refine fun h => ih (PostsOnly.bump h.pipes ?_)
      split <;> decide
  exact .ite h (hall _ h)

protected theorem PostsOnly.sealPkt {p k} (h : PostsOnly s t) : PostsOnly s (sealPkt t p k).1 := by
  unfold Machine.sealPkt
  dsimp only
  split_ifs
  · exact h
  · exact (h.rset (by decide)).recErr rfl
  · split
    · exact h
    · exact h.pipes

protected theorem PostsOnly.transmit {p i k} (h : PostsOnly s t) : PostsOnly s (transmit t p i k).1 := by
  unfold Machine.transmit
  split
  · exact h.send
  · have hseal := PostsOnly.sealPkt (p := p) (k := k) h
    generalize sealPkt t p k = q at hseal
    obtain ⟨v, _ | b⟩ := q
    · exact hseal
    · exact hseal.moveBytes.pipes

protected theorem PostsOnly.mgtSend {p k} (h : PostsOnly s t) : PostsOnly s (mgtSend t p k) := by
  unfold Machine.mgtSend
  extract_lets pipe k' idx v
  have hv : PostsOnly s v := .ite h h.pipes
  split
  · exact h.transmit
  · split
    · exact hv.transmit
    · exact hv.pipes

protected theorem PostsOnly.fbMulticast {pipe g k} (h : PostsOnly s t) : PostsOnly s (fbMulticast t pipe g k) :=
  .ite h (h.foldl (·.mgtSend))

/-- A message to each element of a list. -/
theorem foldl_send_net {α : Type} (l : List α) (f : α → NetMsg) (s : State) :
    (l.foldl (fun s e => Machine.send s (f e)) s).net = s.net ++ l.map f := by
  induction l generalizing s with
  | nil => exact (List.append_nil _).symm
  | cons e l ih => exact (ih _).trans (List.append_cons ..).symm

end
end Sys2Proof.Machine
end

/-! ### Configuration, arrivals and releases at a gong unit (R183, R186, R187, R198) -/

section
namespace Sys2Proof.Machine

/-! #### The barriers of a gong unit -/

/-- A gong barrier takes a value. -/
def setGong (s : State) (tile bar : Nat) (b : Barrier) : State := { s with gong := mput s.gong (gongKey tile bar) b }

@[simp] theorem gongBar_setGong (s : State) (tile bar : Nat) (b : Barrier) : gongBar (setGong s tile bar b) tile bar = b :=
  mgetD_mput_self ..

theorem gongBar_congr {s t : State} (h : t.gong = s.gong) (tile bar : Nat) : gongBar t tile bar = gongBar s tile bar := by
  simp only [gongBar, h]

/-! #### Configuration -/

section
variable {s : State} {tile bar max : Nat} {w : Word}

/-- The offset of the register of a barrier. -/
def gongReg (bar : Nat) : Nat := if bar < 256 then 0x400 + 8 * bar else 0xC00 + 8 * (bar - 256)

/-- A write arms a barrier: ENABLE with N not 0. -/
theorem arms_iff (hmax : 0 < max) :
    (wbit w 15 && decide (min max (fld w 14 0) ≠ 0)) = true ↔ wbit w 15 = true ∧ fld w 14 0 ≠ 0 := by
  simp only [Bool.and_eq_true, decide_eq_true_eq]
  refine and_congr_right fun _ => ?_
  omega

/-- Arming an enabled barrier with counts is refused (R183). -/
theorem gongCfg_busy (hmax : 0 < max) (harm : wbit w 15 = true ∧ fld w 14 0 ≠ 0) (hen : (gongBar s tile bar).enabled = true)
    (hcount : (gongBar s tile bar).cur ≠ 0 ∨ (gongBar s tile bar).next ≠ 0) :
    gongCfg s tile bar max w = recErr s eGngCfgBusy (gngPage tile bar) (bar % 256) 0 noCtag := by
  unfold gongCfg
  dsimp only
  rw [(arms_iff hmax).2 harm, hen, if_pos]
  simpa using hcount

/-- A barrier that is not enabled, or has no counts, is armed afresh (R183). -/
theorem gongCfg_arms (hmax : 0 < max) (harm : wbit w 15 = true ∧ fld w 14 0 ≠ 0)
    (hidle : (gongBar s tile bar).enabled = false ∨ ((gongBar s tile bar).cur = 0 ∧ (gongBar s tile bar).next = 0)) :
    gongCfg s tile bar max w = setGong (rset s .gng (gngPage tile bar) (gongReg bar)
      (packFields [(0, min max (fld w 14 0)), (15, 1)])) tile bar { n := min max (fld w 14 0), enabled := true } := by
  unfold gongCfg
  dsimp only
  rw [(arms_iff hmax).2 harm, if_neg]
  · rfl
  · rcases hidle with h | ⟨hc, hn⟩
    · simp [h]
    · simp [hc, hn]

/-- A write that does not arm disarms, without a release (R183). -/
theorem gongCfg_disarms (hmax : 0 < max) (harm : ¬ (wbit w 15 = true ∧ fld w 14 0 ≠ 0)) :
    gongCfg s tile bar max w = setGong (rset s .gng (gngPage tile bar) (gongReg bar)
      (packFields [(0, min max (fld w 14 0)), (15, 0)])) tile bar
      { gongBar s tile bar with n := min max (fld w 14 0), enabled := false, cur := 0, next := 0 } := by
  have hen := Bool.eq_false_iff.2 (mt (arms_iff hmax).1 harm)
  unfold gongCfg
  dsimp only
  rw [hen]
  rfl

end

/-! #### Releases -/

section
variable {s t : State} {tile bar fuel : Nat}

/-- A barrier after a release: the phase advances and the next phase's count carries over (R186). -/
def gongNext (b : Barrier) : Barrier :=
  { b with phase := (b.phase + 1) % 4, cur := (advance b.n b.next).1, next := (advance b.n b.next).2 }

/-- One release of a gong unit: the barrier advances, the release is counted and sent (R186). -/
def gongReleased (s : State) (tile bar : Nat) : State :=
  gongBroadcast (bump (setGong s tile bar (gongNext (gongBar s tile bar))) .gng (gngPage tile bar) 0x104 1) tile bar
    (gongBar s tile bar).phase

theorem gongBroadcast_only (phase : Nat) (h : PostsOnly s t) : PostsOnly s (gongBroadcast t tile bar phase) :=
  h.foldl (·.send)

theorem gongReleased_only (s : State) (tile bar : Nat) :
    PostsOnly (setGong s tile bar (gongNext (gongBar s tile bar))) (gongReleased s tile bar) :=
  gongBroadcast_only _ (PostsOnly.refl _).bump

theorem gongReleased_posts (s : State) (tile bar : Nat) : Posts s (gongReleased s tile bar) :=
  (Posts.refl s).barriers.trans (gongReleased_only s tile bar).toPosts

@[simp] theorem gongBar_gongReleased (s : State) (tile bar : Nat) :
    gongBar (gongReleased s tile bar) tile bar = gongNext (gongBar s tile bar) :=
  (gongBar_congr (gongReleased_only s tile bar).gong tile bar).trans (gongBar_setGong ..)

/-- A barrier short of its N arrivals is not released. -/
theorem gongRelease_short (h : (gongBar s tile bar).cur < (gongBar s tile bar).n) : gongRelease fuel s tile bar = s := by
  cases fuel with
  | zero => rfl
  | succ fuel =>
    rw [gongRelease]
    exact if_pos (by simp [h])

/-- A barrier with its N arrivals is released. -/
theorem gongRelease_full (h : (gongBar s tile bar).n ≤ (gongBar s tile bar).cur) (hn : 0 < (gongBar s tile bar).n) :
    gongRelease (fuel + 1) s tile bar = gongRelease fuel (gongReleased s tile bar) tile bar := by
  rw [gongRelease]
  refine if_neg ?_
  simp only [Bool.or_eq_true, decide_eq_true_eq]
  omega

theorem gongRelease_posts (fuel : Nat) (s : State) (tile bar : Nat) : Posts s (gongRelease fuel s tile bar) := by
  induction fuel generalizing s with
  | zero => exact .refl s
  | succ fuel ih =>
    rw [gongRelease]
    dsimp only
    split
    · exact .refl s
    · exact (gongReleased_posts s tile bar).trans (ih _)

/-- A release is sent to every enabled core of its scope (R182, R187). -/
theorem release_mem_gongReleased {e : Nat × Core} (he : e ∈ s.cores) (hen : coreEnabled s e.1 = true)
    (hp : partOfCore s e.1 = gongPart s tile bar) (ht : 256 ≤ bar ∨ coreTile e.1 = tile) :
    NetMsg.release e.1 false bar (gongBar s tile bar).phase ∈ (gongReleased s tile bar).net := by
  have hnet := foldl_send_net
    (s.cores.filter (fun e => coreEnabled s e.1 && partOfCore s e.1 = gongPart s tile bar && (256 ≤ bar || coreTile e.1 = tile)))
    (fun e => .release e.1 false bar (gongBar s tile bar).phase)
    (bump (setGong s tile bar (gongNext (gongBar s tile bar))) .gng (gngPage tile bar) 0x104 1)
  have hmem : e ∈ s.cores.filter
      (fun e => coreEnabled s e.1 && partOfCore s e.1 = gongPart s tile bar && (256 ≤ bar || coreTile e.1 = tile)) :=
    List.mem_filter.2 ⟨he, by simpa [hen, hp] using ht⟩
  have hin := List.mem_append_right s.net (List.mem_map_of_mem (f := fun e : Nat × Core =>
    NetMsg.release e.1 false bar (gongBar s tile bar).phase) hmem)
  exact hnet ▸ hin

end

/-! #### Arrivals -/

section
variable {s : State} {n k bar q : Nat} {ecc : Ecc}

/-- A barrier after an arrival of its phase or of the next (R186). -/
def gongCount (b : Barrier) (q : Nat) : Barrier :=
  { b with cur := (countArrival q b.phase b.cur b.next).1, next := (countArrival q b.phase b.cur b.next).2 }

theorem gongCount_now {b : Barrier} (h : q = b.phase) : gongCount b q = { b with cur := b.cur + 1 } := by
  simp only [gongCount, countArrival, if_pos h]

theorem gongCount_later {b : Barrier} (h : q ≠ b.phase) : gongCount b q = { b with next := b.next + 1 } := by
  simp only [gongCount, countArrival, if_neg h]

/-- An arrival is counted at its gong unit. -/
def gongCounted (s : State) (tile bar q : Nat) : State :=
  bump (setGong s tile bar (gongCount (gongBar s tile bar) q)) .gng (gngPage tile bar) 0x100 1

theorem gongCounted_posts (s : State) (tile bar q : Nat) : Posts s (gongCounted s tile bar q) :=
  (Posts.refl s).barriers.only (·.bump)

@[simp] theorem gongBar_gongCounted (s : State) (tile bar q : Nat) :
    gongBar (gongCounted s tile bar q) tile bar = gongCount (gongBar s tile bar) q := gongBar_setGong ..

/-- Its barrier is enabled and its state is sound. -/
structure GongArmed (s : State) (n bar : Nat) (ecc : Ecc) : Prop where
  sound : ecc ≠ .uncorr
  enabled : (gongBar s (coreTile n) bar).enabled = true

theorem GongArmed.enabled_deliver {m : NetMsg} (h : GongArmed s n bar ecc) :
    (gongBar (deliver s m) (coreTile n) bar).enabled = true := h.enabled

theorem exec_gongArrival_waits (h : accepting s .gng (gngPage (coreTile n) bar) = false) :
    exec (.gongArrival n k bar q ecc) s = .next s := by
  have hexec : exec (.gongArrival n k bar q ecc) s = execGongArrival n k bar q ecc s := rfl
  rw [hexec, execGongArrival, h]
  rfl

theorem exec_gongArrival (h : accepting s .gng (gngPage (coreTile n) bar) = true) :
    exec (.gongArrival n k bar q ecc) s = .next (gongArrival s n k bar q ecc) := by
  have hexec : exec (.gongArrival n k bar q ecc) s = execGongArrival n k bar q ecc s := rfl
  rw [hexec, execGongArrival, h]
  rfl

/-- An arrival of the barrier's phase, or of the next, is counted. -/
theorem gongArrival_counts (h : GongArmed s n bar ecc) (hq : (q + 4 - (gongBar s (coreTile n) bar).phase) % 4 < 2) :
    gongArrival s n k bar q ecc =
      gongRelease ((gongCount (gongBar s (coreTile n) bar) q).cur + (gongCount (gongBar s (coreTile n) bar) q).next + 1)
        (gongCounted (deliver s (.gongArrive n k bar q)) (coreTile n) bar q) (coreTile n) bar := by
  unfold gongArrival
  dsimp only
  rw [if_neg h.sound]
  exact (if_neg (by simp [h.enabled_deliver])).trans (if_pos hq)

/-- One of another phase overruns the barrier (R186). -/
theorem gongArrival_overruns (h : GongArmed s n bar ecc) (hq : 2 ≤ (q + 4 - (gongBar s (coreTile n) bar).phase) % 4) :
    gongArrival s n k bar q ecc = send (recErr (deliver s (.gongArrive n k bar q)) eGngOverrun (gngPage (coreTile n) bar) (bar % 256) n
      (slot s n k).ctag) (.notice n k bar ((q + 4 - (gongBar s (coreTile n) bar).phase) % 4)) := by
  unfold gongArrival
  dsimp only
  rw [if_neg h.sound]
  exact (if_neg (by simp [h.enabled_deliver])).trans (if_neg (Nat.not_lt.2 hq))

/-- One at a disabled barrier is turned back (R186). -/
theorem gongArrival_disabled (hecc : ecc ≠ .uncorr) (hen : (gongBar s (coreTile n) bar).enabled = false) :
    gongArrival s n k bar q ecc = send (recErr (deliver s (.gongArrive n k bar q)) eGngArriveDisabled (gngPage (coreTile n) bar)
      (bar % 256) n (slot s n k).ctag) (.notice n k bar 0) := by
  unfold gongArrival
  dsimp only
  rw [if_neg hecc]
  exact if_pos (congrArg not hen)

/-- The barrier whose state is lost (R198). -/
def gongLost (s : State) (tile bar : Nat) : State :=
  recErr (setGong s tile bar { gongBar s tile bar with enabled := false, cur := 0, next := 0 }) eGngStateEcc (gngPage tile bar)
    (bar % 256) 0 noCtag

theorem gongBar_gongLost (s : State) (tile bar : Nat) :
    gongBar (gongLost s tile bar) tile bar = { gongBar s tile bar with enabled := false, cur := 0, next := 0 } :=
  (gongBar_congr (recErr_gong ..) tile bar).trans (gongBar_setGong ..)

/-- One that finds the barrier's state lost disarms it and is turned back (R198). -/
theorem gongArrival_lost : gongArrival s n k bar q .uncorr =
    send (recErr (gongLost (deliver s (.gongArrive n k bar q)) (coreTile n) bar) eGngArriveDisabled (gngPage (coreTile n) bar)
      (bar % 256) n (slot s n k).ctag) (.notice n k bar 0) := by
  have hb := gongBar_gongLost (deliver s (.gongArrive n k bar q)) (coreTile n) bar
  refine (if_pos ?_).trans rfl
  show (!(gongBar (gongLost (deliver s (.gongArrive n k bar q)) (coreTile n) bar) (coreTile n) bar).enabled) = true
  rw [hb]
  rfl

end
end Sys2Proof.Machine
end

/-! ### Statements about a gong unit and the bound objects (R179, R183 to R187, R190, R198) -/

section
namespace Sys2Proof.Machine

/-! #### Configuration commands -/

section
variable {s : State} {c : Instr} {tile bar max pg off : Nat} {w : Word}

/-- A write of N and ENABLE arms, is refused or disarms (R183). -/
theorem gongCfg_completes (hexec : exec c s = .next (gongCfg s tile bar max w)) (hmax : 0 < max) (hpg : gngPage tile bar = pg)
    (hoff : gongReg bar = off) :
    let b := gongBar s tile bar
    let arm := wbit w 15 = true ∧ fld w 14 0 ≠ 0
    (arm → b.enabled = false ∨ (b.cur = 0 ∧ b.next = 0) → Completes c s (fun t =>
      gongBar t tile bar = { n := min max (fld w 14 0), enabled := true } ∧
      rget t .gng pg off = packFields [(0, min max (fld w 14 0)), (15, 1)] ∧ t.mem = s.mem ∧ t.cores = s.cores)) ∧
    (arm → b.enabled = true → b.cur ≠ 0 ∨ b.next ≠ 0 → exec c s = .next (recErr s eGngCfgBusy pg (bar % 256) 0 noCtag)) ∧
    (¬ arm → Completes c s (fun t =>
      gongBar t tile bar = { b with n := min max (fld w 14 0), enabled := false, cur := 0, next := 0 } ∧ t.net = s.net ∧
      t.mem = s.mem ∧ t.cores = s.cores)) := by
  subst hpg hoff
  refine ⟨fun harm hidle => ⟨_, hexec, ?_⟩, fun harm hen hcount => ?_, fun harm => ⟨_, hexec, ?_⟩⟩
  · rw [gongCfg_arms hmax harm hidle]
    exact ⟨gongBar_setGong .., rget_rset_self .., rfl, rfl⟩
  · rw [hexec, gongCfg_busy hmax harm hen hcount]
  · rw [gongCfg_disarms hmax harm]
    exact ⟨gongBar_setGong .., rfl, rfl, rfl⟩

variable {req : Req}

theorem exec_gngBarCfgWrite (ha : answered s req = true) (ho : pageOpen s req (page .gng tile) = true) :
    exec (.gngBarCfgWrite req tile bar w) s = .next (gongCfg s tile bar 4352 w) := by
  have hexec : exec (.gngBarCfgWrite req tile bar w) s =
    .next (guardWrite s req .gng tile (0x400 + 8 * bar) (fun s => gongCfg s tile bar 4352 w)) := rfl
  rw [hexec, guardWrite_serves ⟨ha, ho, rfl, by simp [pageDark]⟩]

theorem exec_gngPkgCfgWrite {g : Nat} (ha : answered s req = true) (ho : pageOpen s req (page .gng 0) = true) :
    exec (.gngPkgCfgWrite req g w) s = .next (gongCfg s 0 (256 + g) 17408 w) := by
  have hexec : exec (.gngPkgCfgWrite req g w) s =
    .next (guardWrite s req .gng 0 (0xC00 + 8 * g) (fun s => gongCfg s 0 (256 + g) 17408 w)) := rfl
  rw [hexec, guardWrite_serves ⟨ha, ho, rfl, by simp [pageDark]⟩]

end

/-! #### What an arrival leaves of its barrier -/

section
variable {s : State} {n k tile bar q fuel : Nat} {ecc : Ecc}

/-- A next phase with at most N arrivals carries all of them over. -/
theorem gongNext_of_le {b : Barrier} (h : b.next ≤ b.n) :
    gongNext b = { b with phase := (b.phase + 1) % 4, cur := b.next, next := 0 } := by
  simp only [gongNext, advance, Nat.min_eq_left h, Nat.sub_eq_zero_of_le h]

/-- One release, when the next phase is not complete. -/
theorem gongRelease_once (hf : 0 < fuel) (hfull : (gongBar s tile bar).cur = (gongBar s tile bar).n)
    (hnext : (gongBar s tile bar).next < (gongBar s tile bar).n) :
    gongRelease fuel s tile bar = gongReleased s tile bar := by
  obtain ⟨f, rfl⟩ := Nat.exists_eq_add_of_lt hf
  rw [Nat.zero_add, gongRelease_full hfull.ge (Nat.zero_lt_of_lt hnext)]
  refine gongRelease_short ?_
  rw [gongBar_gongReleased, gongNext_of_le hnext.le]
  exact hnext

/-- Two, when it is. -/
theorem gongRelease_twice (hf : 1 < fuel) (hfull : (gongBar s tile bar).cur = (gongBar s tile bar).n)
    (hnext : (gongBar s tile bar).next = (gongBar s tile bar).n) (hn : 0 < (gongBar s tile bar).n) :
    gongRelease fuel s tile bar = gongReleased (gongReleased s tile bar) tile bar := by
  obtain ⟨f, rfl⟩ := Nat.exists_eq_add_of_lt (Nat.zero_lt_of_lt hf)
  rw [Nat.zero_add, gongRelease_full hfull.ge hn]
  refine gongRelease_once (by omega) ?_ ?_
  · rw [gongBar_gongReleased, gongNext_of_le hnext.le]
    exact hnext
  · rw [gongBar_gongReleased, gongNext_of_le hnext.le]
    exact hn

/-- Whatever it releases, a counted arrival leaves memory and the cores. -/
theorem gongCounted_release_posts (s : State) (tile bar q fuel : Nat) :
    Posts s (gongRelease fuel (gongCounted s tile bar q) tile bar) :=
  (gongCounted_posts s tile bar q).trans (gongRelease_posts fuel _ tile bar)

variable (h : GongArmed s n bar ecc) (hacc : accepting s .gng (gngPage (coreTile n) bar) = true)
include h hacc

/-- An arrival of the barrier's phase (R186). -/
theorem GongArmed.arrival_now (hnow : q = (gongBar s (coreTile n) bar).phase) :
    Completes (.gongArrival n k bar q ecc) s (fun t =>
      let b := gongBar s (coreTile n) bar
      (b.cur + 1 < b.n → gongBar t (coreTile n) bar = { b with cur := b.cur + 1 }) ∧
      (b.cur + 1 = b.n → b.next < b.n →
        gongBar t (coreTile n) bar = { b with phase := (q + 1) % 4, cur := b.next, next := 0 } ∧
        ∀ e ∈ s.cores, coreEnabled s e.1 = true → partOfCore s e.1 = gongPart s (coreTile n) bar →
          (256 ≤ bar ∨ coreTile e.1 = coreTile n) → NetMsg.release e.1 false bar q ∈ t.net) ∧
      (b.cur + 1 = b.n → b.next = b.n → gongBar t (coreTile n) bar = { b with phase := (q + 2) % 4, cur := 0, next := 0 }) ∧
      t.mem = s.mem ∧ t.cores = s.cores) := by
  have hcounts := gongArrival_counts (k := k) (q := q) h (by omega)
  rw [gongCount_now hnow] at hcounts
  set c := gongCounted (deliver s (.gongArrive n k bar q)) (coreTile n) bar q with hc
  have hbar : gongBar c (coreTile n) bar = { gongBar s (coreTile n) bar with cur := (gongBar s (coreTile n) bar).cur + 1 } :=
    (gongBar_gongCounted ..).trans (gongCount_now hnow)
  have hkept := gongCounted_release_posts (deliver s (.gongArrive n k bar q)) (coreTile n) bar q
  refine ⟨_, exec_gongArrival hacc, ?_⟩
  rw [hcounts]
  refine ⟨fun hlt => ?_, fun hfull hnext => ⟨?_, fun e he hen hp ht => ?_⟩, fun hfull hnext => ?_, (hkept _).mem, (hkept _).cores⟩
  · rw [gongRelease_short (by rwa [hbar]), hbar]
  · rw [gongRelease_once (Nat.succ_pos _) (by rwa [hbar]) (by rwa [hbar]), gongBar_gongReleased,
      gongNext_of_le (by rw [hbar]; exact hnext.le), hbar, hnow]
  · rw [gongRelease_once (Nat.succ_pos _) (by rwa [hbar]) (by rwa [hbar])]
    have hsent := release_mem_gongReleased (s := c) (bar := bar) he hen hp ht
    rwa [hbar, ← hnow] at hsent
  · have hn : 0 < (gongBar c (coreTile n) bar).n := by
      rw [hbar]
      exact hfull ▸ Nat.succ_pos _
    have hnext' : (gongBar c (coreTile n) bar).next = (gongBar c (coreTile n) bar).n := by rwa [hbar]
    have hone := (gongBar_gongReleased c (coreTile n) bar).trans (gongNext_of_le hnext'.le)
    rw [gongRelease_twice (by dsimp only; omega) (by rwa [hbar]) hnext' hn, gongBar_gongReleased,
      gongNext_of_le (by rw [hone]; exact Nat.zero_le _), hone, hbar, hnow]
    simp only [Nat.mod_add_mod, Nat.add_assoc]

/-- One of the next phase (R186). -/
theorem GongArmed.arrival_later (hlater : q = ((gongBar s (coreTile n) bar).phase + 1) % 4)
    (hcur : (gongBar s (coreTile n) bar).cur < (gongBar s (coreTile n) bar).n) :
    Completes (.gongArrival n k bar q ecc) s (fun t =>
      gongBar t (coreTile n) bar = { gongBar s (coreTile n) bar with next := (gongBar s (coreTile n) bar).next + 1 } ∧
      t.mem = s.mem ∧ t.cores = s.cores) := by
  have hcounts := gongArrival_counts (k := k) (q := q) h (by omega)
  have hbar := (gongBar_gongCounted (deliver s (.gongArrive n k bar q)) (coreTile n) bar q).trans
    (gongCount_later (b := gongBar s (coreTile n) bar) (by omega))
  have hkept := gongCounted_posts (deliver s (.gongArrive n k bar q)) (coreTile n) bar q
  rw [gongRelease_short (by rwa [hbar])] at hcounts
  exact ⟨_, exec_gongArrival hacc, hcounts ▸ hbar, hcounts ▸ hkept.mem, hcounts ▸ hkept.cores⟩

omit h in
/-- An arrival that is not counted: an error is recorded and a notice returns (R186). -/
theorem gongArrival_refused {e : ErrCode} {sub det detail : Nat} {ctag : Word} (he : e.blk = .gng) (hb : e.bit < 32)
    (hr : gongArrival s n k bar q ecc = send (recErr (deliver s (.gongArrive n k bar q)) e (gngPage (coreTile n) bar) sub det ctag)
      (.notice n k bar detail)) :
    Completes (.gongArrival n k bar q ecc) s (fun t =>
      gongBar t (coreTile n) bar = gongBar s (coreTile n) bar ∧ wbit (rget t .gng (gngPage (coreTile n) bar) 0x20) e.bit = true ∧
      NetMsg.notice n k bar detail ∈ t.net ∧ t.mem = s.mem ∧ t.cores = s.cores) := by
  have hsets := recErr_sets (deliver s (.gongArrive n k bar q)) e (gngPage (coreTile n) bar) sub det ctag hb
  rw [he] at hsets
  refine ⟨_, exec_gongArrival hacc, ?_⟩
  rw [hr]
  exact ⟨gongBar_congr (recErr_gong ..) _ _, hsets, List.mem_append_right _ (List.mem_singleton_self _), recErr_mem ..,
    recErr_cores _ _ _ _ _ (by rw [he]; rfl)⟩

omit h in
/-- One that finds the barrier's state lost (R198). -/
theorem gongArrival_lost_completes : Completes (.gongArrival n k bar q .uncorr) s (fun t =>
    (gongBar t (coreTile n) bar).enabled = false ∧ wbit (rget t .gng (gngPage (coreTile n) bar) 0x20) eGngStateEcc.bit = true ∧
    NetMsg.notice n k bar 0 ∈ t.net ∧ t.mem = s.mem) := by
  have hp := page_mod .gng (gngPage (coreTile n) bar)
  refine ⟨_, exec_gongArrival hacc, ?_⟩
  rw [gongArrival_lost]
  refine ⟨?_, ?_, List.mem_append_right _ (List.mem_singleton_self _), (recErr_mem ..).trans (recErr_mem ..)⟩
  · exact congrArg Barrier.enabled ((gongBar_congr (recErr_gong ..) _ _).trans (gongBar_gongLost ..))
  · exact recErr_keeps _ _ _ _ _ _ _ _ (by omega) (recErr_sets _ eGngStateEcc (gngPage (coreTile n) bar) _ _ _ (by decide))

end

/-! #### Bound objects -/

section
variable {s t u : State} {c : Prop} {inst : Decidable c} {n k : Nat}

/-- What is on its way, and every sync object but for its value, is as it was. -/
structure BindingsKept (s t : State) : Prop where
  net : t.net = s.net
  obj : ∀ m o, syncObj t m o = { syncObj s m o with value := (syncObj t m o).value }

theorem BindingsKept.refl (s : State) : BindingsKept s s := ⟨rfl, fun _ _ => rfl⟩

theorem BindingsKept.trans (h : BindingsKept s t) (g : BindingsKept t u) : BindingsKept s u where
  net := g.net.trans h.net
  obj m o := by
    rw [g.obj m o, h.obj m o]

/-- An update that leaves the objects. -/
protected theorem BindingsKept.objs (h : BindingsKept s t) (hobj : ∀ m o, syncObj u m o = syncObj t m o) (hn : u.net = t.net := by rfl) :
    BindingsKept s u := by
  refine h.trans ⟨hn, fun m o => ?_⟩
  rw [hobj m o]

protected theorem BindingsKept.modCore {f : Core → Core} (h : BindingsKept s t) (hf : ∀ c, (f c).sync = c.sync := by intro; rfl) :
    BindingsKept s (modCore t n f) := h.objs fun m o => syncObj_modCore t n m o hf

protected theorem BindingsKept.modSlot {f} (h : BindingsKept s t) : BindingsKept s (modSlot t n k f) := h.modCore

protected theorem BindingsKept.modStrand {i f} (h : BindingsKept s t) : BindingsKept s (modStrand t n i f) := h.modCore

theorem syncObj_modSync_ne (s : State) {n m o p : Nat} (f : SyncObj → SyncObj) (h : (m, p) ≠ (n, o)) :
    syncObj (modSync s n o f) m p = syncObj s m p := by
  by_cases hm : m = n
  · subst hm
    have hp : p ≠ o := fun e => h (by rw [e])
    simp [syncObj, modSync, mgetD_mupd_ne _ _ _ _ hp]
  · simp [syncObj, modSync, core_modCore_ne _ _ hm]

protected theorem BindingsKept.modSync {o f} (h : BindingsKept s t) (hf : ∀ x : SyncObj, f x = { x with value := (f x).value }) :
    BindingsKept s (modSync t n o f) := by
  refine h.trans ⟨rfl, fun m p => ?_⟩
  by_cases hmp : (m, p) = (n, o)
  · obtain ⟨rfl, rfl⟩ := Prod.mk.inj hmp
    rw [syncObj_modSync_self]
    exact hf _
  · rw [syncObj_modSync_ne t f hmp]

protected theorem BindingsKept.ite (ht : BindingsKept s t) (hu : BindingsKept s u) : BindingsKept s (if c then t else u) := by
  split
  · exact ht
  · exact hu

protected theorem BindingsKept.foldl {α : Type} {f : State → α → State} {l : List α} (h : BindingsKept s t)
    (hf : ∀ {u x}, BindingsKept s u → BindingsKept s (f u x)) : BindingsKept s (l.foldl f t) :=
  List.foldlRecOn l f (motive := BindingsKept s) h fun _ hu _ _ => hf hu

protected theorem BindingsKept.bump {b i off x} (h : BindingsKept s t) : BindingsKept s (bump t b i off x) := h.objs fun _ _ => rfl

protected theorem BindingsKept.modCluster {i f} (h : BindingsKept s t) : BindingsKept s (modCluster t i f) := h.objs fun _ _ => rfl

protected theorem BindingsKept.traceRec {ev step} (h : BindingsKept s t) : BindingsKept s (traceRec t n k ev step) :=
  .ite h (h.objs fun _ _ => rfl)

protected theorem BindingsKept.mirror (h : BindingsKept s t) : BindingsKept s (mirror t n k) := h.modCore

protected theorem BindingsKept.setSt {x} (h : BindingsKept s t) : BindingsKept s (setSt t n k x) := by
  unfold Machine.setSt
  dsimp only
  split
  · exact h
  · exact (BindingsKept.ite h.modSlot h.modSlot.traceRec).mirror

protected theorem BindingsKept.refresh (h : BindingsKept s t) : BindingsKept s (refresh t n k) := .ite h.setSt h

/-- What a wait consumes is of the value (R175). -/
theorem veWaitTake_value (x : SyncObj) (peek : Bool) (v : Nat) :
    veWaitTake x peek v = { x with value := (veWaitTake x peek v).value } := by
  unfold veWaitTake
  split_ifs
  · rfl
  · rfl
  · rfl

protected theorem BindingsKept.wake (h : BindingsKept s t) : BindingsKept s (wake t n k) := by
  refine .ite (BindingsKept.refresh (h.foldl fun {u i} hu => ?_)) h
  split
  · split
    · exact .ite (((BindingsKept.ite hu hu.bump).modSync fun x => veWaitTake_value x _ _).modStrand) hu
    · exact hu
  · exact hu

protected theorem BindingsKept.leaveSlot {outcome} (h : BindingsKept s t) : BindingsKept s (leaveSlot t n k outcome) := by
  unfold Machine.leaveSlot
  extract_lets s1 sl clu s2 s3 objs back s4 s5 s6
  have h2 : BindingsKept s s2 := by
    show BindingsKept s (match sl.notify with
      | some (ring, user) => _
      | none => s1)
    split
    · exact h.traceRec.modCluster
    · exact h.traceRec
  have h3 : BindingsKept s s3 := h2.foldl (·.modCluster)
  have h4 : BindingsKept s s4 := h3.objs fun _ _ => rfl
  exact h4.modCore.modSlot.mirror

protected theorem BindingsKept.checkDone (h : BindingsKept s t) : BindingsKept s (checkDone t n k) := by
  obtain heq | ⟨-, heq⟩ := checkDone_cases t n k
  · rw [heq]
    exact h.refresh
  · rw [heq]
    exact h.refresh.leaveSlot

/-- The message of an arrival through a bound object: to its gong unit, or to its partition's barrier pipeline (R184, R190). -/
def arriveMsg (s : State) (n k bar : Nat) (fabric : Bool) (q : Nat) : NetMsg :=
  if fabric then .fbArrive (barrierPipe s (partOfCore s n)) n k bar q else .gongArrive n k bar q

/-- An arrival counts on its object, and is on its way with the object's phase (R184). -/
theorem makeArrival_effect (s : State) (n k ph bar : Nat) (fabric : Bool) :
    syncObj (makeArrival s n k ph bar fabric) n ph =
      { syncObj s n ph with gphase := ((syncObj s n ph).gphase + 1) % 4, pend := (syncObj s n ph).pend + 1 } ∧
    (makeArrival s n k ph bar fabric).net = s.net ++ [arriveMsg s n k bar fabric (syncObj s n ph).gphase] := by
  unfold makeArrival
  extract_lets o s1 s2
  have hobj : syncObj s2 n ph = _ := (syncObj_modCore s1 n n ph).trans (syncObj_modSync_self ..)
  cases fabric
  · exact ⟨hobj, rfl⟩
  · exact ⟨hobj, rfl⟩

/-- The phase that a bind read returns (R184, R190). -/
def bindPhase (s : State) (n bar : Nat) (fabric : Bool) : Nat :=
  if fabric then (fbar s (barrierPipe s (partOfCore s n)) bar).phase else (gongBar s (coreTile n) bar).phase

/-- The object of a bind read is bound, and the read is over. -/
def bindDone (s : State) (n k ph bar : Nat) (fabric : Bool) : State :=
  modSlot (modSync s n ph (fun x => { x with gphase := bindPhase s n bar fabric, gbar := bar, gkind := fabric, bound := true })) n k
    (fun sl => { sl with bind := none })

theorem syncObj_bindDone (s : State) (n k ph bar : Nat) (fabric : Bool) : syncObj (bindDone s n k ph bar fabric) n ph =
    { syncObj s n ph with gphase := bindPhase s n bar fabric, gbar := bar, gkind := fabric, bound := true } := by
  unfold bindDone
  rw [modSlot, syncObj_modCore, syncObj_modSync_self]

theorem exec_bindRead {ph : Nat} {o : List Byte} (hb : (slot s n k).bind = some ⟨[o]⟩) (he : (slot s n k).ending = none)
    (hph : physObj s n k (opObj o) = some ph) : exec (.barrierBindReadDone n k) s = .next (checkDone (wake (modSlot
      (makeArrival (bindDone (deliver s (.bindRead n k)) n k ph (opValue o) (decide (opCode o = 0x14))) n k ph (opValue o)
        (decide (opCode o = 0x14))) n k (fun sl => { sl with bind := none })) n k) n k) := by
  have hphase : bindPhase (deliver s (.bindRead n k)) n (opValue o) (decide (opCode o = 0x14)) = if opCode o = 0x14 then
      (fbar (deliver s (.bindRead n k)) (barrierPipe (deliver s (.bindRead n k)) (partOfCore (deliver s (.bindRead n k)) n))
        (opValue o)).phase
      else (gongBar (deliver s (.bindRead n k)) (coreTile n) (opValue o)).phase := if_congr decide_eq_true_iff rfl rfl
  have hb' : (slot (deliver s (.bindRead n k)) n k).bind = some ⟨[o]⟩ := hb
  have he' : (slot (deliver s (.bindRead n k)) n k).ending = none := he
  have hph' : physObj (deliver s (.bindRead n k)) n k (opObj o) = some ph := hph
  have hexec : exec (.barrierBindReadDone n k) s = execBarrierBindReadDone n k s := rfl
  rw [hexec, execBarrierBindReadDone, bindDone, hphase]
  refine congrArg Host.Outcome.next ?_
  clear hexec hphase
  generalize deliver s (.bindRead n k) = u at hb' he' hph'
  dsimp only
  rw [hb']
  dsimp only
  rw [he', hph']
  dsimp only
  rw [runSignals]
  exact if_neg Bool.false_ne_true

/-- A slot with no bind read, or whose context is being ended, takes none (R184). -/
theorem exec_bindRead_none (h : (slot s n k).bind = none ∨ (slot s n k).ending.isSome) :
    exec (.barrierBindReadDone n k) s = .next (deliver s (.bindRead n k)) := by
  have hexec : exec (.barrierBindReadDone n k) s = execBarrierBindReadDone n k s := rfl
  rw [hexec, execBarrierBindReadDone]
  refine congrArg _ ?_
  dsimp only
  split
  · next o rest hb =>
    have hb' : (slot s n k).bind = some ⟨o :: rest⟩ := hb
    refine if_pos (h.resolve_left ?_)
    rw [hb']
    exact Option.some_ne_none _
  · rfl

/-- The arrival that a bind read lets go (R184, R190). -/
theorem bindRead_completes {ph : Nat} {o : List Byte} (hb : (slot s n k).bind = some ⟨[o]⟩) (he : (slot s n k).ending = none)
    (hph : physObj s n k (opObj o) = some ph) (hpend : (syncObj s n ph).pend = 0) :
    Completes (.barrierBindReadDone n k) s (fun t =>
      let fabric := decide (opCode o = 0x14)
      let q := bindPhase s n (opValue o) fabric
      (syncObj t n ph).bound = true ∧ (syncObj t n ph).gbar = opValue o ∧ (syncObj t n ph).gkind = fabric ∧
      (syncObj t n ph).gphase = (q + 1) % 4 ∧ (syncObj t n ph).pend = 1 ∧ arriveMsg s n k (opValue o) fabric q ∈ t.net) := by
  refine ⟨_, exec_bindRead hb he hph, ?_⟩
  set v := bindDone (deliver s (.bindRead n k)) n k ph (opValue o) (decide (opCode o = 0x14)) with hv
  have hbound := syncObj_bindDone (deliver s (.bindRead n k)) n k ph (opValue o) (decide (opCode o = 0x14))
  obtain ⟨hobj, hnet⟩ := makeArrival_effect v n k ph (opValue o) (decide (opCode o = 0x14))
  have hpend' : (syncObj (deliver s (.bindRead n k)) n ph).pend = 0 := hpend
  rw [hbound, hpend'] at hobj
  rw [hbound] at hnet
  have hkept : BindingsKept (makeArrival v n k ph (opValue o) (decide (opCode o = 0x14))) _ :=
    (((BindingsKept.refl _).modSlot (n := n) (k := k) (f := fun sl => { sl with bind := none })).wake (n := n) (k := k)).checkDone
      (n := n) (k := k)
  have hend := (hkept.obj n ph)
  rw [hobj] at hend
  dsimp only
  rw [hend, hkept.net, hnet]
  exact ⟨rfl, rfl, rfl, rfl, rfl, List.mem_append_right _ (List.mem_singleton_self _)⟩

end

/-! #### Releases at a core -/

section
variable {s u : State} {n ph bar : Nat} {fabric : Bool} {rd : Reader}

/-- A release matches a bound object: its barrier, its kind and the phase of its oldest pending arrival (R187). -/
def ReleaseHits (x : SyncObj) (fabric : Bool) (bar r : Nat) : Prop :=
  x.bound = true ∧ x.gbar = bar ∧ x.gkind = fabric ∧ 0 < x.pend ∧ (x.gphase + 4 - x.pend) % 4 = r

theorem exec_release (s : State) (n : Nat) (fabric : Bool) (bar : Nat) (rd : Reader) : exec (.barrierReleaseReceive n fabric bar rd) s =
    .next (releaseReceive (match (core s n).relIndex with
      | o :: _ => synEcc (deliver s (.release n fabric bar rd.no)) n o rd.ecc
      | [] => deliver s (.release n fabric bar rd.no)) n fabric bar rd.no) := rfl

/-- No object of the core has an arrival pending (R187). -/
theorem exec_release_none (h : (core s n).relIndex = []) :
    exec (.barrierReleaseReceive n fabric bar rd) s = .next (deliver s (.release n fabric bar rd.no)) := by
  have hd : (core (deliver s (.release n fabric bar rd.no)) n).relIndex = [] := h
  rw [exec_release, h]
  dsimp only
  rw [releaseReceive, hd]
  rfl

/-- One object has: the core looks at it alone, after what the object store finds in it (R187, R198). -/
theorem exec_release_one (h : (core s n).relIndex = [ph]) (hu : u = synEcc (deliver s (.release n fabric bar rd.no)) n ph rd.ecc)
    (hkept : (core u n).relIndex = [ph]) : exec (.barrierReleaseReceive n fabric bar rd) s = .next (
      let x := syncObj u n ph
      if x.bound && x.gbar = bar && x.gkind = fabric && decide (0 < x.pend) && (x.gphase + 4 - x.pend) % 4 = rd.no then
        match objOwner u n ph with
        | some (k, i) => if slotLive u n k then syncDo u n k i .release true else u
        | none => u
      else u) := by
  rw [exec_release, h]
  dsimp only
  rw [← hu, releaseReceive, hkept]
  rfl

theorem releaseHits_iff (x : SyncObj) (fabric : Bool) (bar r : Nat) :
    (x.bound && x.gbar = bar && x.gkind = fabric && decide (0 < x.pend) && (x.gphase + 4 - x.pend) % 4 = r) = true ↔
      ReleaseHits x fabric bar r := by
  simp only [ReleaseHits, Bool.and_eq_true, decide_eq_true_eq, and_assoc]

/-- A matching object takes the release, where its slot can take it (R179, R187). -/
theorem exec_release_hit (h : (core s n).relIndex = [ph]) (hu : u = synEcc (deliver s (.release n fabric bar rd.no)) n ph rd.ecc)
    (hkept : (core u n).relIndex = [ph]) (hhit : ReleaseHits (syncObj u n ph) fabric bar rd.no) {k i : Nat}
    (hown : objOwner u n ph = some (k, i)) : exec (.barrierReleaseReceive n fabric bar rd) s =
      .next (if slotLive u n k then syncDo u n k i .release true else u) := by
  refine (exec_release_one h hu hkept).trans (congrArg _ ((if_pos ((releaseHits_iff ..).2 hhit)).trans ?_))
  rw [hown]

/-- Another object takes nothing. -/
theorem exec_release_miss (h : (core s n).relIndex = [ph]) (hu : u = synEcc (deliver s (.release n fabric bar rd.no)) n ph rd.ecc)
    (hkept : (core u n).relIndex = [ph]) (hmiss : ¬ ReleaseHits (syncObj u n ph) fabric bar rd.no) :
    exec (.barrierReleaseReceive n fabric bar rd) s = .next u :=
  (exec_release_one h hu hkept).trans (congrArg _ (if_neg (mt (releaseHits_iff ..).1 hmiss)))

end

/-! #### Overrun notices -/

section
variable {s : State} {n k : Nat}

theorem mem_of_mget {α : Type} {m : NMap α} {j : Nat} {v : α} (h : mget m j = some v) : (j, v) ∈ m := by
  induction m with
  | nil => cases h
  | cons e t ih =>
    obtain ⟨i, w⟩ := e
    rw [mget] at h
    split at h
    · next hi =>
      rw [hi, Option.some.inj h]
      exact List.mem_cons_self
    · exact List.mem_cons_of_mem _ (ih h)

/-- A slot that is not FREE is among the slots of its core's partition. -/
theorem mem_partSlots (hk : k < 16) (hst : (slot s n k).st ≠ .free) : (n, k) ∈ partSlots s (partOfCore s n) := by
  have hcore : ∃ c, (n, c) ∈ s.cores := by
    cases hm : mget s.cores n with
    | some c => exact ⟨c, mem_of_mget hm⟩
    | none =>
      refine absurd ?_ hst
      rw [slot, core, mgetD.eq_def s.cores, hm]
      rfl
  obtain ⟨c, hc⟩ := hcore
  refine List.mem_flatMap.2 ⟨(n, c), List.mem_filter.2 ⟨hc, by simp⟩, List.mem_map.2 ⟨k, ?_, rfl⟩⟩
  exact List.mem_filter.2 ⟨List.mem_range.2 hk, by simpa using hst⟩

/-- The registers, and memory, are as they were. -/
structure StoresKept (s t : State) : Prop where
  regs : t.regs = s.regs
  mem : t.mem = s.mem

/-- One context of a group is to be ended (R463). -/
def endOne (group cause err : Nat) (s : State) (e : Nat × Nat) : State :=
  if slotGroup s e.1 e.2 = group && (slot s e.1 e.2).ending.isNone then
    modSlot s e.1 e.2 (fun sl => { sl with ending := some { cause := cause, err := err, outcome := 3, group := true, us := s.us } })
  else s

theorem endGroup_eq (s : State) (p group cause err : Nat) :
    endGroup s p group cause err = (partSlots s p).foldl (endOne group cause err) s := rfl

theorem endOne_stores (group cause err : Nat) (s : State) (e : Nat × Nat) : StoresKept s (endOne group cause err s e) := by
  unfold endOne
  split
  · exact ⟨rfl, rfl⟩
  · exact ⟨rfl, rfl⟩

/-- A context that is being ended goes on so. -/
theorem endOne_keeps (group cause err : Nat) (e : Nat × Nat) (h : (slot s n k).ending.isSome = true) :
    (slot (endOne group cause err s e) n k).ending.isSome = true := by
  unfold endOne
  split
  · by_cases hnk : (n, k) = e
    · rw [← hnk, slot_modSlot_self]
      rfl
    · rwa [slot_modSlot_ne s _ hnk]
  · exact h

/-- A context of the group is to be ended. -/
theorem endOne_ends {group : Nat} (cause err : Nat) (hg : slotGroup s n k = group) :
    (slot (endOne group cause err s (n, k)) n k).ending.isSome = true := by
  unfold endOne
  split
  · rw [slot_modSlot_self]
    rfl
  · next h =>
    simpa [hg, Option.isSome_iff_ne_none] using h

theorem slotGroup_congr {s t : State} (h : t.regs = s.regs) (n k : Nat) : slotGroup t n k = slotGroup s n k := by
  simp only [slotGroup, slotReg, rget_congr h]

theorem foldl_endOne_ends {group : Nat} (cause err : Nat) {l : List (Nat × Nat)} (hl : (n, k) ∈ l) (hg : slotGroup s n k = group) :
    (slot (l.foldl (endOne group cause err) s) n k).ending.isSome = true := by
  induction l generalizing s with
  | nil => cases hl
  | cons e l ih =>
    have hg' := (slotGroup_congr (endOne_stores group cause err s e).regs n k).trans hg
    rcases List.mem_cons.1 hl with rfl | hl
    · exact List.foldlRecOn (motive := fun u : State => (slot u n k).ending.isSome = true) l _ (endOne_ends cause err hg)
        fun _ hu e _ => endOne_keeps group cause err e hu
    · exact ih hl hg'

theorem endGroup_stores (s : State) (p group cause err : Nat) : StoresKept s (endGroup s p group cause err) :=
  List.foldlRecOn (motive := StoresKept s) _ _ ⟨rfl, rfl⟩ fun _ hu e _ =>
    ⟨(endOne_stores group cause err _ e).regs.trans hu.regs, (endOne_stores group cause err _ e).mem.trans hu.mem⟩

/-- The error that a notice records (R186). -/
def noticeCode (detail : Nat) : ErrCode := if detail = 0 then eBarrierDisabled else eBarrierOverrun

theorem exec_notice {bar detail : Nat} (hst : (slot s n k).st ≠ .free) (he : (slot s n k).ending = none) :
    exec (.barrierOverrunNotice n k bar detail) s = .next (
      let u := recErr (deliver s (.notice n k bar detail)) (noticeCode detail) n k (if detail = 0 then bar else detail) (slot s n k).ctag
      endGroup u (partOfCore u n) (slotGroup u n k) 5 (errField (noticeCode detail))) := by
  refine congrArg _ (if_neg ?_)
  have hslot : slot (deliver s (.notice n k bar detail)) n k = slot s n k := rfl
  simp [hslot, hst, he]

/-- A context that has left, or is being ended, takes no notice (R463). -/
theorem exec_notice_absorbed {bar detail : Nat} (h : (slot s n k).st = .free ∨ (slot s n k).ending.isSome) :
    exec (.barrierOverrunNotice n k bar detail) s = .next (deliver s (.notice n k bar detail)) := by
  refine congrArg _ (if_pos ?_)
  have hslot : slot (deliver s (.notice n k bar detail)) n k = slot s n k := rfl
  simpa [hslot] using h

/-- A notice ends the contexts of the group (R186). -/
theorem notice_ends {bar detail : Nat} (hk : k < 16) (hst : (slot s n k).st ≠ .free) (he : (slot s n k).ending = none) :
    Completes (.barrierOverrunNotice n k bar detail) s (fun t =>
      wbit (rget t .syn n 0x20) (noticeCode detail).bit = true ∧ (slot t n k).ending.isSome = true ∧ t.mem = s.mem) := by
  refine ⟨_, exec_notice hst he, ?_⟩
  have hcode : (noticeCode detail).blk = .syn ∧ (noticeCode detail).bit < 32 := by
    unfold noticeCode
    split <;> decide
  have hsets := fun u : State => recErr_sets u (noticeCode detail) n k (if detail = 0 then bar else detail) (slot s n k).ctag hcode.2
  have hkept := ((UnitsKept.refl (deliver s (.notice n k bar detail))).recErr (e := noticeCode detail) (i := n) (sub := k)
    (det := if detail = 0 then bar else detail) (ctag := (slot s n k).ctag)).slot n k
  rw [hcode.1] at hsets
  have hend := endGroup_stores
  refine ⟨?_, ?_, ?_⟩
  · rw [rget_congr (hend ..).regs]
    exact hsets _
  · rw [endGroup_eq]
    refine foldl_endOne_ends _ _ (mem_partSlots hk ?_) rfl
    rw [hkept]
    exact hst
  · exact (hend ..).mem.trans (recErr_mem ..)

end

/-- Settles O17: configuration by what the write arms, arrivals by the phase that they meet, bind reads by what wakes and completions
leave of a bound object, releases by the one object that may match, notices by the contexts of the group. -/
theorem gongs : Obligations.Gongs := by
  unfold Obligations.Gongs
  refine ⟨⟨?_, ?_, ?_, ?_⟩, ⟨?_, ?_, ?_, ?_⟩, ?_, ?_⟩
  · intro s req tile bar w ht hb ha ho
    exact gongCfg_completes (exec_gngBarCfgWrite ha ho) (by decide) (if_pos hb) (if_pos hb)
  · intro s req g w hg ha ho
    exact gongCfg_completes (exec_gngPkgCfgWrite ha ho) (by decide) (ite_self _) (by simp [gongReg])
  · intro s n k bar q ecc hacc
    exact exec_gongArrival_waits hacc
  · intro s n k bar q ecc hacc hn hq
    refine ⟨fun hecc hen hphase => ?_, fun hecc hen => ?_, fun hecc => ?_⟩
    · have h : GongArmed s n bar ecc := ⟨hecc, hen⟩
      refine ⟨h.arrival_now hacc, h.arrival_later hacc, fun hnow hlater => ?_⟩
      have hover := gongArrival_overruns (k := k) (q := q) h (by omega)
      exact gongArrival_refused hacc rfl (by decide) hover
    · have hturned := gongArrival_disabled (k := k) (q := q) hecc hen
      exact gongArrival_refused hacc rfl (by decide) hturned
    · rw [hecc]
      exact gongArrival_lost_completes hacc
  · intro s n k ph o hb he hph hpend
    obtain ⟨t, ht, hbound, hbar, hkind, hphase, hcount, hmsg⟩ := bindRead_completes hb he hph hpend
    refine ⟨t, ht, hbound, hbar, hkind, hphase, hcount, fun hf => ?_, fun hf => ?_⟩
    · rw [hf] at hmsg ⊢
      exact hmsg
    · rw [hf] at hmsg ⊢
      exact hmsg
  · intro s n k h
    exact exec_bindRead_none h
  · intro s n bar fabric rd h
    exact exec_release_none h
  · intro s u n ph bar fabric rd h hu hkept
    exact ⟨fun k i hhit hown => exec_release_hit h hu hkept hhit hown, exec_release_miss h hu hkept⟩
  · intro s n k bar detail hn hk hst he
    obtain ⟨t, ht, hbit, hrest⟩ := notice_ends (bar := bar) (detail := detail) hk hst he
    refine ⟨t, ht, ?_, hrest⟩
    rwa [noticeCode, apply_ite ErrCode.bit] at hbit
  · intro s n k bar detail h
    exact exec_notice_absorbed h

end Sys2Proof.Machine
end

/-! ### Fabric barriers (R190 to R193, R197, R358)

A barrier pipeline has two levels. The device level counts local arrivals and, with LOCAL_N of them, makes one device arrival; the root
level counts device arrivals and, with DEV_N of them, sends the release. Each level follows the phase rule of a gong unit. -/

section
namespace Sys2Proof.Machine

/-! #### The entry of a barrier -/

@[simp] theorem fbar_modFb_self (s : State) (pipe f : Nat) (g : FabBar → FabBar) :
    fbar (modFb s pipe f g) pipe f = g (fbar s pipe f) := mgetD_mupd_self ..

theorem fbar_congr {s t : State} (h : t.fb = s.fb) (pipe f : Nat) : fbar t pipe f = fbar s pipe f := by
  simp only [fbar, h]

theorem modFb_posts (s : State) (pipe f : Nat) (g : FabBar → FabBar) : Posts s (modFb s pipe f g) := (Posts.refl s).barriers

/-! #### Configuration (R183, R197) -/

section
variable {s : State} {pipe f : Nat} {w : Word}

/-- A barrier has arrivals counted, at either level. -/
def FabCounts (b : FabBar) : Prop := b.cur ≠ 0 ∨ b.next ≠ 0 ∨ b.rcur ≠ 0 ∨ b.rnext ≠ 0

theorem fabCounts_iff (b : FabBar) : (b.cur ≠ 0 || b.next ≠ 0 || b.rcur ≠ 0 || b.rnext ≠ 0) = true ↔ FabCounts b := by
  simp only [FabCounts, Bool.or_eq_true, decide_eq_true_eq, or_assoc]

/-- COL_FB_CFG_LO takes a value, and the barrier an entry. -/
def fbConfigured (s : State) (pipe f : Nat) (w : Word) (en : Nat) (b : FabBar) : State :=
  modFb (rset s .col pipe (0x800 + 8 * f) (packFields [(0, min 17408 (fld w 14 0)), (15, en), (16, b2n (wbit w 16))])) pipe f fun _ => b

theorem fbar_fbConfigured (s : State) (pipe f : Nat) (w : Word) (en : Nat) (b : FabBar) :
    fbar (fbConfigured s pipe f w en b) pipe f = b := fbar_modFb_self ..

/-- A barrier that a write disarms. -/
def fbDisarmed (w : Word) (b : FabBar) : FabBar :=
  { b with
    n := min 17408 (fld w 14 0), enabled := false, cur := 0, next := 0, rcur := 0, rnext := 0, await := [], left := [] }

/-- A pipeline that is no barrier pipeline ignores the write. -/
theorem fbCfg_otherPipe (h : isBarrierPipe s pipe = false) : fbCfg s pipe f w = s := by
  unfold fbCfg
  exact if_pos (congrArg not h)

variable (hp : isBarrierPipe s pipe = true)
include hp

/-- So does an enabled barrier with counts that is armed again. -/
theorem fbCfg_busy (harm : wbit w 15 = true ∧ fld w 14 0 ≠ 0) (hen : (fbar s pipe f).enabled = true)
    (hcount : FabCounts (fbar s pipe f)) : fbCfg s pipe f w = s := by
  unfold fbCfg
  rw [hp]
  dsimp only
  rw [(arms_iff (by decide)).2 harm, hen, (fabCounts_iff _).2 hcount]
  rfl

theorem fbCfg_arms (harm : wbit w 15 = true ∧ fld w 14 0 ≠ 0)
    (hidle : (fbar s pipe f).enabled = false ∨ ¬ FabCounts (fbar s pipe f)) : fbCfg s pipe f w = fbConfigured s pipe f w 1
      { n := min 17408 (fld w 14 0), enabled := true, isRoot := wbit w 16, root := fld (rget s .col pipe (0x804 + 8 * f)) 15 0,
        devN := fld (rget s .col pipe (0x804 + 8 * f)) 31 16 } := by
  have hbusy : ((fbar s pipe f).enabled && ((fbar s pipe f).cur ≠ 0 || (fbar s pipe f).next ≠ 0 || (fbar s pipe f).rcur ≠ 0 ||
      (fbar s pipe f).rnext ≠ 0)) = false := by
    rcases hidle with h | h
    · rw [h, Bool.false_and]
    · rw [Bool.eq_false_iff.2 (mt (fabCounts_iff _).1 h), Bool.and_false]
  unfold fbCfg
  rw [hp]
  dsimp only
  rw [(arms_iff (by decide)).2 harm, Bool.true_and, hbusy]
  rfl

theorem fbCfg_disarms (harm : ¬ (wbit w 15 = true ∧ fld w 14 0 ≠ 0)) : 
    fbCfg s pipe f w = fbConfigured s pipe f w 0 (fbDisarmed w (fbar s pipe f)) := by
  unfold fbCfg
  rw [hp]
  dsimp only
  rw [Bool.eq_false_iff.2 (mt (arms_iff (by decide)).1 harm)]
  rfl

omit hp in
theorem exec_colFbCfgWrite {req : Req} (ha : answered s req = true) (ho : pageOpen s req (page .col pipe) = true) :
    exec (.colFbCfgWrite req pipe f w) s = .next (fbCfg s pipe f w) := by
  have hexec : exec (.colFbCfgWrite req pipe f w) s =
    .next (guardWrite s req .col pipe (0x800 + 8 * f) (fun s => fbCfg s pipe f w)) := rfl
  rw [hexec, guardWrite_serves ⟨ha, ho, rfl, by simp [pageDark]⟩]

end

/-! #### The root (R191) -/

section
variable {s : State} {pipe f q c fuel : Nat}

/-- The root level after a release. -/
def fbRootNext (b : FabBar) : FabBar :=
  { b with rphase := (b.rphase + 1) % 4, rcur := (advance b.devN b.rnext).1, rnext := (advance b.devN b.rnext).2 }

theorem fbRootNext_of_le {b : FabBar} (h : b.rnext ≤ b.devN) :
    fbRootNext b = { b with rphase := (b.rphase + 1) % 4, rcur := b.rnext, rnext := 0 } := by
  simp only [fbRootNext, advance, Nat.min_eq_left h, Nat.sub_eq_zero_of_le h]

/-- One release of the root, sent to the barrier's group. -/
def fbRootReleased (s : State) (pipe f : Nat) : State :=
  fbMulticast (modFb s pipe f fbRootNext) pipe (fbGroup (modFb s pipe f fbRootNext) pipe f)
    { type := tFbRelease, operand := fbOperand f (fbar s pipe f).rphase }

theorem fbRootReleased_only (s : State) (pipe f : Nat) : PostsOnly (modFb s pipe f fbRootNext) (fbRootReleased s pipe f) :=
  (PostsOnly.refl _).fbMulticast

@[simp] theorem fbar_fbRootReleased (s : State) (pipe f : Nat) : fbar (fbRootReleased s pipe f) pipe f = fbRootNext (fbar s pipe f) :=
  (fbar_congr (fbRootReleased_only s pipe f).fb pipe f).trans (fbar_modFb_self ..)

theorem fbRootReleased_posts (s : State) (pipe f : Nat) : Posts s (fbRootReleased s pipe f) :=
  (modFb_posts ..).trans (fbRootReleased_only s pipe f).toPosts

/-- Short of its DEV_N arrivals, the root releases nothing. -/
theorem fbRootRelease_short (h : (fbar s pipe f).rcur < (fbar s pipe f).devN) : fbRootRelease fuel s pipe f = s := by
  cases fuel with
  | zero => rfl
  | succ fuel =>
    rw [fbRootRelease]
    exact if_pos (by simp [h])

/-- With DEV_N arrivals of this phase and fewer of the next, it releases once. -/
theorem fbRootRelease_once (hf : 0 < fuel) (hfull : (fbar s pipe f).rcur = (fbar s pipe f).devN)
    (hnext : (fbar s pipe f).rnext < (fbar s pipe f).devN) : fbRootRelease fuel s pipe f = fbRootReleased s pipe f := by
  obtain ⟨fuel, rfl⟩ := Nat.exists_eq_add_of_lt hf
  have hgoes : ¬ (decide ((fbar s pipe f).rcur < (fbar s pipe f).devN) || decide ((fbar s pipe f).devN = 0)) = true := by
    simp only [Bool.or_eq_true, decide_eq_true_eq]
    omega
  rw [Nat.zero_add, fbRootRelease]
  refine (if_neg hgoes).trans (fbRootRelease_short (s := fbRootReleased s pipe f) ?_)
  rw [fbar_fbRootReleased, fbRootNext_of_le hnext.le]
  exact hnext

theorem fbRootRelease_posts (fuel : Nat) (s : State) (pipe f : Nat) : Posts s (fbRootRelease fuel s pipe f) := by
  induction fuel generalizing s with
  | zero => exact .refl s
  | succ fuel ih =>
    rw [fbRootRelease]
    dsimp only
    split
    · exact .refl s
    · exact (fbRootReleased_posts s pipe f).trans (ih _)

/-- The root level after a device arrival of its phase or of the next. -/
def fbRootCount (q : Nat) (b : FabBar) : FabBar :=
  { b with rcur := (countArrival q b.rphase b.rcur b.rnext).1, rnext := (countArrival q b.rphase b.rcur b.rnext).2 }

theorem fbRootCount_now {b : FabBar} (h : q = b.rphase) : fbRootCount q b = { b with rcur := b.rcur + 1 } := by
  simp only [fbRootCount, countArrival, if_pos h]

theorem fbRootCount_later {b : FabBar} (h : q ≠ b.rphase) : fbRootCount q b = { b with rnext := b.rnext + 1 } := by
  simp only [fbRootCount, countArrival, if_neg h]

theorem fbRootArrival_counts (hq : (q + 4 - (fbar s pipe f).rphase) % 4 < 2) : fbRootArrival s pipe f q c =
    fbRootRelease ((fbRootCount q (fbar s pipe f)).rcur + (fbRootCount q (fbar s pipe f)).rnext + 1)
      (modFb s pipe f (fbRootCount q)) pipe f := if_pos hq

/-- A device arrival of another phase is recorded, and a notice goes back to another device. -/
def fbRootOverrun (s : State) (pipe f q c : Nat) : State :=
  let u := recErr s eColFbOverrun pipe (f % 256) (c % 32768) noCtag
  if ownCoord u = some c then u
  else mgtSend u (partOfPipe u pipe)
    { type := tFbOverrun, dstCoord := c, dstEndpt := barrierEndpt, srcEndpt := barrierEndpt, operand := fbOperand f q }

theorem fbRootArrival_overruns (hq : 2 ≤ (q + 4 - (fbar s pipe f).rphase) % 4) :
    fbRootArrival s pipe f q c = fbRootOverrun s pipe f q c := if_neg (Nat.not_lt.2 hq)

theorem fbRootOverrun_only (s : State) (pipe f q c : Nat) :
    PostsOnly (recErr s eColFbOverrun pipe (f % 256) (c % 32768) noCtag) (fbRootOverrun s pipe f q c) :=
  .ite (.refl _) (PostsOnly.refl _).mgtSend

theorem fbRootArrival_posts (s : State) (pipe f q c : Nat) : Posts s (fbRootArrival s pipe f q c) := by
  by_cases hq : (q + 4 - (fbar s pipe f).rphase) % 4 < 2
  · rw [fbRootArrival_counts hq]
    exact (modFb_posts ..).trans (fbRootRelease_posts ..)
  · rw [fbRootArrival_overruns (Nat.not_lt.1 hq)]
    exact ((PostsOnly.refl s).recErr rfl).toPosts.trans (fbRootOverrun_only ..).toPosts

/-- A device arrival at the root under the phase rule. -/
theorem fbRootArrival_phases (hq : q < 4) (hphase : (fbar s pipe f).rphase < 4) (hcur : (fbar s pipe f).rcur < (fbar s pipe f).devN) :
    let b := fbar s pipe f
    (q = b.rphase → b.rcur + 1 < b.devN → fbar (fbRootArrival s pipe f q c) pipe f = { b with rcur := b.rcur + 1 }) ∧
    (q = b.rphase → b.rcur + 1 = b.devN → b.rnext < b.devN →
      fbar (fbRootArrival s pipe f q c) pipe f = { b with rphase := (q + 1) % 4, rcur := b.rnext, rnext := 0 }) ∧
    (q = (b.rphase + 1) % 4 → fbar (fbRootArrival s pipe f q c) pipe f = { b with rnext := b.rnext + 1 }) ∧
    (q ≠ b.rphase → q ≠ (b.rphase + 1) % 4 → fbar (fbRootArrival s pipe f q c) pipe f = b ∧
      wbit (rget (fbRootArrival s pipe f q c) .col pipe 0x20) eColFbOverrun.bit = true) := by
  have hnow (h : q = (fbar s pipe f).rphase) : fbar (modFb s pipe f (fbRootCount q)) pipe f =
      { fbar s pipe f with rcur := (fbar s pipe f).rcur + 1 } := (fbar_modFb_self ..).trans (fbRootCount_now h)
  refine ⟨fun h hlt => ?_, fun h hfull hnext => ?_, fun h => ?_, fun h1 h2 => ?_⟩
  · rw [fbRootArrival_counts (by omega), fbRootRelease_short (by rwa [hnow h]), hnow h]
  · rw [fbRootArrival_counts (by omega), fbRootRelease_once (Nat.succ_pos _) (by rwa [hnow h]) (by rwa [hnow h]), fbar_fbRootReleased,
      fbRootNext_of_le (by rw [hnow h]; exact hnext.le), hnow h, h]
  · have hlater : fbar (modFb s pipe f (fbRootCount q)) pipe f = { fbar s pipe f with rnext := (fbar s pipe f).rnext + 1 } :=
      (fbar_modFb_self ..).trans (fbRootCount_later (by omega))
    rw [fbRootArrival_counts (by omega), fbRootRelease_short (by rwa [hlater]), hlater]
  · have hp := page_mod .col pipe
    have hover := fbRootOverrun_only s pipe f q c
    rw [fbRootArrival_overruns (by omega)]
    exact ⟨fbar_congr (hover.fb.trans (recErr_fb ..)) pipe f,
      hover.bits _ _ (by omega) (recErr_sets s eColFbOverrun pipe _ _ _ (by decide))⟩

end

/-! #### The device level (R190, R191) -/

section
variable {s : State} {pipe n k f q fuel : Nat}

/-- The device level, at time `us`, after LOCAL_N arrivals of its phase: a device arrival awaits release. -/
def fbNext (us : Nat) (b : FabBar) : FabBar :=
  { b with phase := (b.phase + 1) % 4, cur := (advance b.n b.next).1, next := (advance b.n b.next).2, await := b.await ++ [b.phase],
           left := mput b.left b.phase us }

theorem fbNext_of_le {us : Nat} {b : FabBar} (h : b.next ≤ b.n) : fbNext us b =
    { b with phase := (b.phase + 1) % 4, cur := b.next, next := 0, await := b.await ++ [b.phase], left := mput b.left b.phase us } := by
  simp only [fbNext, advance, Nat.min_eq_left h, Nat.sub_eq_zero_of_le h]

/-- The device arrival is made: at the pipeline itself where it is the root, else by a packet to the root. -/
def fbReached (s : State) (pipe f : Nat) : State :=
  let u := modFb s pipe f (fbNext s.us)
  if (fbar s pipe f).isRoot then fbRootArrival u pipe f (fbar s pipe f).phase ((ownCoord u).getD 0)
  else mgtSend u (partOfPipe u pipe)
    { type := tFbArrive, dstCoord := (fbar s pipe f).root, dstEndpt := barrierEndpt, srcEndpt := barrierEndpt
      operand := fbOperand f (fbar s pipe f).phase }

theorem fbReached_posts (s : State) (pipe f : Nat) : Posts s (fbReached s pipe f) := by
  unfold fbReached
  dsimp only
  split
  · exact (modFb_posts ..).trans (fbRootArrival_posts ..)
  · exact (modFb_posts ..).trans (PostsOnly.refl _).mgtSend.toPosts

/-- Where it is not the root, its entry is the device level's alone. -/
theorem fbar_fbReached (h : (fbar s pipe f).isRoot = false) : fbar (fbReached s pipe f) pipe f = fbNext s.us (fbar s pipe f) := by
  unfold fbReached
  rw [h]
  exact (fbar_congr (PostsOnly.refl (modFb s pipe f (fbNext s.us))).mgtSend.fb pipe f).trans (fbar_modFb_self ..)

theorem fbDeviceArrive_short (h : (fbar s pipe f).cur < (fbar s pipe f).n) : fbDeviceArrive fuel s pipe f = s := by
  cases fuel with
  | zero => rfl
  | succ fuel =>
    rw [fbDeviceArrive]
    exact if_pos (by simp [h])

theorem fbDeviceArrive_once (hf : 0 < fuel) (hfull : (fbar s pipe f).cur = (fbar s pipe f).n)
    (hnext : (fbar s pipe f).next < (fbar s pipe f).n) (hroot : (fbar s pipe f).isRoot = false) :
    fbDeviceArrive fuel s pipe f = fbReached s pipe f := by
  obtain ⟨fuel, rfl⟩ := Nat.exists_eq_add_of_lt hf
  have hgoes : ¬ (decide ((fbar s pipe f).cur < (fbar s pipe f).n) || decide ((fbar s pipe f).n = 0)) = true := by
    simp only [Bool.or_eq_true, decide_eq_true_eq]
    omega
  rw [Nat.zero_add, fbDeviceArrive]
  refine (if_neg hgoes).trans (fbDeviceArrive_short (s := fbReached s pipe f) ?_)
  rw [fbar_fbReached hroot, fbNext_of_le hnext.le]
  exact hnext

theorem fbDeviceArrive_posts (fuel : Nat) (s : State) (pipe f : Nat) : Posts s (fbDeviceArrive fuel s pipe f) := by
  induction fuel generalizing s with
  | zero => exact .refl s
  | succ fuel ih =>
    rw [fbDeviceArrive]
    dsimp only
    split
    · exact .refl s
    · exact (fbReached_posts s pipe f).trans (ih _)

/-- The device level after a local arrival of its phase or of the next. -/
def fbCount (q : Nat) (b : FabBar) : FabBar :=
  { b with cur := (countArrival q b.phase b.cur b.next).1, next := (countArrival q b.phase b.cur b.next).2 }

theorem fbCount_now {b : FabBar} (h : q = b.phase) : fbCount q b = { b with cur := b.cur + 1 } := by
  simp only [fbCount, countArrival, if_pos h]

theorem fbCount_later {b : FabBar} (h : q ≠ b.phase) : fbCount q b = { b with next := b.next + 1 } := by
  simp only [fbCount, countArrival, if_neg h]

theorem exec_fbLocalArrival_waits (h : accepting s .col pipe = false) : exec (.fbLocalArrival pipe n k f q) s = .next s := by
  have hexec : exec (.fbLocalArrival pipe n k f q) s = execFbLocalArrival pipe n k f q s := rfl
  rw [hexec, execFbLocalArrival, h]
  rfl

/-- A local arrival at a pipeline that takes it. -/
def fbLocal (u : State) (pipe n k f q : Nat) : State :=
  if !(fbar u pipe f).enabled then send u (.notice n k f 0)
  else if (q + 4 - (fbar u pipe f).phase) % 4 < 2 then
    fbDeviceArrive ((fbCount q (fbar u pipe f)).cur + (fbCount q (fbar u pipe f)).next + 1) (modFb u pipe f (fbCount q)) pipe f
  else send (recErr u eColFbOverrun pipe (f % 256) ((ownCoord u).getD 0 % 32768) (slot u n k).ctag)
    (.notice n k f ((q + 4 - (fbar u pipe f).phase) % 4))

theorem exec_fbLocalArrival (h : accepting s .col pipe = true) : exec (.fbLocalArrival pipe n k f q) s =
    .next (fbLocal (deliver s (.fbArrive pipe n k f q)) pipe n k f q) := by
  have hexec : exec (.fbLocalArrival pipe n k f q) s = execFbLocalArrival pipe n k f q s := rfl
  rw [hexec, execFbLocalArrival, h]
  rfl

section
variable {u : State} (hen : (fbar u pipe f).enabled = true)
include hen

theorem fbLocal_counts (hq : (q + 4 - (fbar u pipe f).phase) % 4 < 2) : fbLocal u pipe n k f q =
    fbDeviceArrive ((fbCount q (fbar u pipe f)).cur + (fbCount q (fbar u pipe f)).next + 1) (modFb u pipe f (fbCount q)) pipe f := by
  unfold fbLocal
  rw [hen]
  exact if_pos hq

theorem fbLocal_overruns (hq : 2 ≤ (q + 4 - (fbar u pipe f).phase) % 4) : fbLocal u pipe n k f q =
    send (recErr u eColFbOverrun pipe (f % 256) ((ownCoord u).getD 0 % 32768) (slot u n k).ctag)
      (.notice n k f ((q + 4 - (fbar u pipe f).phase) % 4)) := by
  unfold fbLocal
  rw [hen]
  exact if_neg (Nat.not_lt.2 hq)

/-- A local arrival of the phase. -/
theorem fbLocal_now (hnow : q = (fbar u pipe f).phase) :
    let b := fbar u pipe f
    let t := fbLocal u pipe n k f q
    (b.cur + 1 < b.n → fbar t pipe f = { b with cur := b.cur + 1 }) ∧
    (b.cur + 1 = b.n → b.next < b.n → b.isRoot = false → fbar t pipe f = { b with
      phase := (q + 1) % 4, cur := b.next, next := 0, await := b.await ++ [q], left := mput b.left q u.us }) ∧ t.mem = u.mem := by
  have hbar : fbar (modFb u pipe f (fbCount q)) pipe f = { fbar u pipe f with cur := (fbar u pipe f).cur + 1 } :=
    (fbar_modFb_self ..).trans (fbCount_now hnow)
  dsimp only
  rw [fbLocal_counts hen (by omega)]
  refine ⟨fun hlt => ?_, fun hfull hnext hroot => ?_, ?_⟩
  · rw [fbDeviceArrive_short (by rwa [hbar]), hbar]
  · have hus : (modFb u pipe f (fbCount q)).us = u.us := rfl
    rw [fbDeviceArrive_once (Nat.succ_pos _) (by rwa [hbar]) (by rwa [hbar]) (by rwa [hbar]), fbar_fbReached (by rwa [hbar]),
      fbNext_of_le (by rw [hbar]; exact hnext.le), hbar, hus, hnow]
  · exact ((modFb_posts ..).trans (fbDeviceArrive_posts ..)).mem

/-- One of the next phase. -/
theorem fbLocal_later (hlater : q = ((fbar u pipe f).phase + 1) % 4) (hcur : (fbar u pipe f).cur < (fbar u pipe f).n) :
    fbLocal u pipe n k f q = modFb u pipe f (fun b => { b with next := b.next + 1 }) := by
  have hbar : fbar (modFb u pipe f (fbCount q)) pipe f = { fbar u pipe f with next := (fbar u pipe f).next + 1 } :=
    (fbar_modFb_self ..).trans (fbCount_later (by omega))
  have hcount : fbCount q (fbar u pipe f) = { fbar u pipe f with next := (fbar u pipe f).next + 1 } := fbCount_later (by omega)
  rw [fbLocal_counts hen (by omega), fbDeviceArrive_short (by rwa [hbar])]
  unfold modFb mupd
  exact congrArg (fun b => { u with fb := mput u.fb (256 * pipe + f) b }) hcount

/-- One of another phase. -/
theorem fbLocal_other (hq : q < 4) (hphase : (fbar u pipe f).phase < 4) (h1 : q ≠ (fbar u pipe f).phase)
    (h2 : q ≠ ((fbar u pipe f).phase + 1) % 4) :
    let t := fbLocal u pipe n k f q
    fbar t pipe f = fbar u pipe f ∧ wbit (rget t .col pipe 0x20) eColFbOverrun.bit = true ∧
    NetMsg.notice n k f ((q + 4 - (fbar u pipe f).phase) % 4) ∈ t.net ∧ t.mem = u.mem := by
  dsimp only
  rw [fbLocal_overruns hen (by omega)]
  exact ⟨fbar_congr (recErr_fb ..) pipe f, recErr_sets u eColFbOverrun pipe _ _ _ (by decide),
    List.mem_append_right _ (List.mem_singleton_self _), recErr_mem ..⟩

end

/-- One at a barrier that is not enabled. -/
theorem fbLocal_disabled {u : State} (hen : (fbar u pipe f).enabled = false) : fbLocal u pipe n k f q = send u (.notice n k f 0) := by
  unfold fbLocal
  exact if_pos (congrArg not hen)

end

/-! #### Barrier messages (R358) -/

section
variable {s s1 : State} {i part type : Nat} {data : List Byte} {ok : Bool} {k : Pkt}

/-- What a message that has passed the checks does at its barrier: `effect` of the arrival, the pipeline, the barrier and the packet. -/
def fbHandle (effect : State → Arrival → Nat → Nat → Pkt → State) (s : State) (i part type : Nat) (data : List Byte) (ok : Bool) :
    State :=
  match fbMessage s i part type data ok with
  | (s, none) => s
  | (s, some (a, pipe, f, k)) => effect s a pipe f k

def fbArriveEffect (s : State) (a : Arrival) (pipe f : Nat) (k : Pkt) : State :=
  if !(fbar s pipe f).enabled || !(fbar s pipe f).isRoot then fbStray s a pipe f
  else fbRootArrival s pipe f (bits k.operand 8 2) k.srcCoord

/-- The release of phase `r` is sent to the cores of the partition, and on where the packet says so. -/
def fbReleased (s : State) (a : Arrival) (pipe f r : Nat) (k : Pkt) : State :=
  let u := modFb s pipe f (fun b => { b with await := b.await.erase r, left := mdel b.left r })
  let v := (u.cores.filter (fun e => coreEnabled u e.1 && partOfCore u e.1 = a.part)).foldl (fun s e => send s (.release e.1 true f r)) u
  if k.fwd then fbMulticast v pipe k.mcgroup k else v

def fbReleaseEffect (s : State) (a : Arrival) (pipe f : Nat) (k : Pkt) : State :=
  if !(fbar s pipe f).enabled then fbStray s a pipe f
  else if !(fbar s pipe f).await.contains (bits k.operand 8 2) then s
  else fbReleased s a pipe f (bits k.operand 8 2) k

def fbOverrunEffect (s : State) (a : Arrival) (pipe f : Nat) (_ : Pkt) : State :=
  if !(fbar s pipe f).enabled then fbStray s a pipe f
  else recErr s eColFbOverrun pipe (f % 256) ((ownCoord s).getD 0 % 32768) noCtag

theorem exec_fbArrive (i part : Nat) (data : List Byte) (ok : Bool) (s : State) :
    exec (.fbArrive i part data ok) s = .next (fbHandle fbArriveEffect s i part tFbArrive data ok) := rfl

theorem exec_fbRelease (i part : Nat) (data : List Byte) (ok : Bool) (s : State) :
    exec (.fbRelease i part data ok) s = .next (fbHandle fbReleaseEffect s i part tFbRelease data ok) := rfl

theorem exec_fbOverrun (i part : Nat) (data : List Byte) (ok : Bool) (s : State) :
    exec (.fbOverrun i part data ok) s = .next (fbHandle fbOverrunEffect s i part tFbOverrun data ok) := rfl

section
variable {effect : State → Arrival → Nat → Nat → Pkt → State}

/-- A packet that the checks turn away. -/
theorem fbHandle_none (h : arriveCheck s (arrival s i part) type data ok = (s1, none)) :
    fbHandle effect s i part type data ok = s1 := by
  unfold fbHandle fbMessage
  dsimp only
  rw [h]

/-- One for another endpoint. -/
theorem fbHandle_discard (h : arriveCheck s (arrival s i part) type data ok = (s1, some k)) (hd : k.dstEndpt ≠ barrierEndpt) :
    fbHandle effect s i part type data ok = discardPkt s1 (arrival s i part) := by
  unfold fbHandle fbMessage
  dsimp only
  rw [h]
  dsimp only
  rw [if_pos hd]

theorem fbHandle_effect (h : arriveCheck s (arrival s i part) type data ok = (s1, some k)) (hd : k.dstEndpt = barrierEndpt) :
    fbHandle effect s i part type data ok =
      effect s1 (arrival s i part) (barrierPipe s1 (arrival s i part).part) (bits k.operand 0 8) k := by
  unfold fbHandle fbMessage
  dsimp only
  rw [h]
  dsimp only
  rw [if_neg (not_not_intro hd)]

end

/-- The three messages of a barrier go to their barrier alike, and are strays where it is not armed or no root (R358). -/
theorem fbRow {c : Instr} (hc : (type, c) ∈ [(tFbArrive, Instr.fbArrive i part data ok), (tFbRelease, .fbRelease i part data ok),
    (tFbOverrun, .fbOverrun i part data ok)]) : ∃ effect,
    (∀ s, exec c s = .next (fbHandle effect s i part type data ok)) ∧
    ∀ s a pipe f k, (fbar s pipe f).enabled = false ∨ (type = tFbArrive ∧ (fbar s pipe f).isRoot = false) →
      effect s a pipe f k = fbStray s a pipe f := by
  simp only [List.mem_cons, List.not_mem_nil, or_false, Prod.mk.injEq] at hc
  rcases hc with ⟨rfl, rfl⟩ | ⟨rfl, rfl⟩ | ⟨rfl, rfl⟩
  · refine ⟨fbArriveEffect, exec_fbArrive i part data ok, fun s a pipe f k h => if_pos ?_⟩
    rcases h with h | ⟨-, h⟩
    · simp [h]
    · simp [h]
  · refine ⟨fbReleaseEffect, exec_fbRelease i part data ok, fun s a pipe f k h => if_pos ?_⟩
    exact congrArg not (h.resolve_right (fun h => absurd h.1 (by decide)))
  · refine ⟨fbOverrunEffect, exec_fbOverrun i part data ok, fun s a pipe f k h => if_pos ?_⟩
    exact congrArg not (h.resolve_right (fun h => absurd h.1 (by decide)))

/-- The checks of a packet leave memory. -/
theorem arriveCheck_eq_mem {r : Option Pkt} (h : arriveCheck s (arrival s i part) type data ok = (s1, r)) : s1.mem = s.mem := by
  have hm := arriveCheck_mem s (arrival s i part) type data ok
  rwa [h] at hm

section
variable {a : Arrival} {pipe f r : Nat}

/-- A release takes its phase off the awaited ones, and is sent to every enabled core of the partition (R191). -/
theorem fbReleased_effect (s : State) (a : Arrival) (pipe f r : Nat) (k : Pkt) :
    (fbar (fbReleased s a pipe f r k) pipe f).await = (fbar s pipe f).await.erase r ∧
    (∀ e ∈ s.cores, coreEnabled s e.1 = true → partOfCore s e.1 = a.part →
      NetMsg.release e.1 true f r ∈ (fbReleased s a pipe f r k).net) ∧ (fbReleased s a pipe f r k).mem = s.mem := by
  unfold fbReleased
  extract_lets u v
  have hv : PostsOnly u v := (PostsOnly.refl u).foldl (·.send)
  have hnet : v.net = s.net ++ (s.cores.filter (fun e => coreEnabled s e.1 && partOfCore s e.1 = a.part)).map
      (fun e => .release e.1 true f r) := foldl_send_net ..
  have ht : PostsOnly v (if k.fwd then fbMulticast v pipe k.mcgroup k else v) := .ite (PostsOnly.refl v).fbMulticast (.refl v)
  refine ⟨?_, fun e he hen hp => ht.net _ ?_, (hv.trans ht).mem⟩
  · rw [fbar_congr (hv.trans ht).fb pipe f, fbar_modFb_self]
  · rw [hnet]
    exact List.mem_append_right _ (List.mem_map.2 ⟨e, List.mem_filter.2 ⟨he, by simp [hen, hp]⟩, rfl⟩)

theorem fbReleaseEffect_unawaited (hen : (fbar s pipe f).enabled = true) (h : bits k.operand 8 2 ∉ (fbar s pipe f).await) :
    fbReleaseEffect s a pipe f k = s := by
  unfold fbReleaseEffect
  rw [hen]
  exact (if_neg (by decide)).trans (if_pos (by simpa using h))

theorem fbReleaseEffect_awaited (hen : (fbar s pipe f).enabled = true) (h : bits k.operand 8 2 ∈ (fbar s pipe f).await) :
    fbReleaseEffect s a pipe f k = fbReleased s a pipe f (bits k.operand 8 2) k := by
  unfold fbReleaseEffect
  rw [hen]
  exact (if_neg (by decide)).trans (if_neg (by simpa using h))

end

end

/-! #### The timeout (R193) -/

section
variable {s : State} {pipe f : Nat}

/-- A phase of the barrier has awaited its release for longer than COL_FB_TIMEOUT, or 1,000 µs. -/
def FbLate (s : State) (pipe f : Nat) : Prop :=
  (fbar s pipe f).enabled = true ∧ rget s .col pipe 0x70C ≠ 0 ∧
    ∃ q ∈ (fbar s pipe f).await, mgetD (fbar s pipe f).left q 0 + max 1000 (rget s .col pipe 0x70C).toNat ≤ s.us

theorem fbOverdue_iff (s : State) (pipe f : Nat) : fbOverdue s pipe f = true ↔ FbLate s pipe f := by
  have hzero : (rget s .col pipe 0x70C).toNat ≠ 0 ↔ rget s .col pipe 0x70C ≠ 0 := by simp [BitVec.toNat_eq]
  simp only [fbOverdue, FbLate, Bool.and_eq_true, decide_eq_true_eq, List.any_eq_true, and_assoc, hzero]

/-- A barrier that ends leaves service and its register says so; its end is recorded, for its contexts too (R193, R197). -/
theorem fbEnd_effect (s : State) (pipe f : Nat) (hf : f < 256) :
    (fbar (fbEnd s pipe f) pipe f).enabled = false ∧ (fbar (fbEnd s pipe f) pipe f).await = [] ∧
    wbit (rget (fbEnd s pipe f) .col pipe (0x800 + 8 * f)) 15 = false ∧
    wbit (rget (fbEnd s pipe f) .col pipe 0x20) eColFbTimeout.bit = true ∧ (fbEnd s pipe f).mem = s.mem := by
  have hp := page_mod .col pipe
  unfold fbEnd
  extract_lets u v x
  have hx : PostsOnly v x := (PostsOnly.refl v).recErr rfl
  have hend : PostsOnly x ((boundSlots x (partOfPipe x pipe) true f).foldl (fun s e =>
      recErr s eBarrierTimeout e.1 e.2 f (slot s e.1 e.2).ctag) x) := (PostsOnly.refl x).foldl (·.recErr rfl)
  have hhigh : HighKept v ((boundSlots x (partOfPipe x pipe) true f).foldl (fun s e =>
      recErr s eBarrierTimeout e.1 e.2 f (slot s e.1 e.2).ctag) x) := (HighKept.refl v).recErr.foldl fun _ hu => hu.recErr
  have hfb := (hx.trans hend).fb.trans (show v.fb = u.fb from rfl)
  have hbar := (fbar_congr hfb pipe f).trans (fbar_modFb_self s pipe f _)
  refine ⟨congrArg FabBar.enabled hbar, congrArg FabBar.await hbar, ?_, ?_, ((hx.trans hend).mem).trans rfl⟩
  · have hreg := hhigh (page .col pipe + (0x800 + 8 * f)) (by omega)
    refine (congrArg (wbit · 15) hreg).trans ?_
    exact (congrArg (wbit · 15) (rget_rset_self u .col pipe (0x800 + 8 * f) _)).trans (wbit_setBit_self _ _ (by decide))
  · exact hend.bits _ _ (by omega) (recErr_sets v eColFbTimeout pipe _ _ _ (by decide))

theorem exec_fbTimeout (s : State) (pipe f : Nat) :
    exec (.fbTimeout pipe f) s = .next (if fbOverdue s pipe f then fbEnd s pipe f else s) := rfl

end

/-- Settles O18: configuration by what the write arms, local and device arrivals by the phase that they meet, messages by the one way
that they go to their barrier, the timeout by what an end leaves. -/
theorem fabricBarriers : Obligations.FabricBarriers := by
  unfold Obligations.FabricBarriers
  refine ⟨?_, ?_, ?_, ?_, ?_, ?_, ?_, ?_, ?_⟩
  · intro s req pipe f w hpipe hf ha ho
    have hexec : exec (.colFbCfgWrite req pipe f w) s = _ := exec_colFbCfgWrite ha ho
    refine ⟨fun h => hexec.trans (congrArg _ (fbCfg_otherPipe h)),
      fun hp harm hen hcount => hexec.trans (congrArg _ (fbCfg_busy hp harm hen hcount)),
      fun hp harm hidle => ⟨_, hexec.trans (congrArg _ (fbCfg_arms hp harm hidle)), fbar_fbConfigured .., rfl, rfl⟩,
      fun hp harm => ⟨_, hexec.trans (congrArg _ (fbCfg_disarms hp harm)), ?_⟩⟩
    have hbar := fbar_fbConfigured s pipe f w 0 (fbDisarmed w (fbar s pipe f))
    exact ⟨congrArg FabBar.enabled hbar, congrArg FabBar.cur hbar, congrArg FabBar.next hbar, congrArg FabBar.await hbar, rfl, rfl, rfl⟩
  · intro s pipe n k f q h
    exact exec_fbLocalArrival_waits h
  · intro s pipe n k f q hacc hpipe hq
    have hexec : exec (.fbLocalArrival pipe n k f q) s = _ := exec_fbLocalArrival hacc
    refine ⟨fun hen hphase => ⟨fun hnow => ?_, fun hlater hcur => ?_, fun h1 h2 => ?_⟩, fun hen => ?_⟩
    · have h := fbLocal_now (u := deliver s (.fbArrive pipe n k f q)) (n := n) (k := k) hen hnow
      exact ⟨_, hexec, h⟩
    · refine ⟨_, hexec.trans (congrArg _ (fbLocal_later hen hlater hcur)), fbar_modFb_self .., rfl⟩
    · have h := fbLocal_other (u := deliver s (.fbArrive pipe n k f q)) (n := n) (k := k) hen hq hphase h1 h2
      exact ⟨_, hexec, h⟩
    · exact ⟨_, hexec.trans (congrArg _ (fbLocal_disabled hen)), rfl, List.mem_append_right _ (List.mem_singleton_self _), rfl⟩
  · intro s s1 i part type data ok c hc
    obtain ⟨effect, hexec, hstray⟩ := fbRow hc
    refine ⟨fun h => (hexec s).trans (congrArg _ (fbHandle_none h)), fun k h =>
      ⟨fun hd => (hexec s).trans (congrArg _ (fbHandle_discard h hd)), fun hd hoff => ?_⟩⟩
    rw [hexec, fbHandle_effect h hd, hstray _ _ _ _ _ hoff]
  · intro s s1 i part data ok k h hd hen hroot
    rw [exec_fbArrive, fbHandle_effect h hd, fbArriveEffect, hen, hroot]
    rfl
  · intro s pipe f q c hpipe hq hphase hcur
    exact fbRootArrival_phases hq hphase hcur
  · intro s s1 i part data ok k h hd hen
    refine ⟨fun hnot => ?_, fun hin => ?_⟩
    · rw [exec_fbRelease, fbHandle_effect h hd, fbReleaseEffect_unawaited hen hnot]
    · obtain ⟨hawait, hsent, hmem⟩ := fbReleased_effect s1 (arrival s i part) (barrierPipe s1 (arrival s i part).part)
        (bits k.operand 0 8) (bits k.operand 8 2) k
      refine ⟨_, ?_, hawait, hsent, hmem.trans (arriveCheck_eq_mem h)⟩
      rw [exec_fbRelease, fbHandle_effect h hd, fbReleaseEffect_awaited hen hin]
  · intro s s1 i part data ok k hi h hd hen
    refine ⟨_, ?_, recErr_sets s1 eColFbOverrun _ (bits k.operand 0 8 % 256) ((ownCoord s1).getD 0 % 32768) noCtag (by decide),
      (recErr_mem ..).trans (arriveCheck_eq_mem h)⟩
    rw [exec_fbOverrun, fbHandle_effect h hd, fbOverrunEffect, hen]
    rfl
  · intro s pipe f hpipe hf
    refine ⟨fun hlate => ⟨_, ?_, fbEnd_effect s pipe f hf⟩, fun hlate => ?_⟩
    · rw [exec_fbTimeout, if_pos ((fbOverdue_iff s pipe f).2 hlate)]
    · rw [exec_fbTimeout, if_neg (mt (fbOverdue_iff s pipe f).1 hlate)]

end Sys2Proof.Machine
end

/-! ### Heat and power failures: what the package keeps when its dies lose their power (R490, R495, R501, R502, R507)

`PackageKept` holds of every operation on the way to A3: it leaves the power feed, the thermal state, fuses, flash and epoch, and clears
no recorded error. One lemma per operation; `ShutDown` then says what A3 leaves of the package. -/

section
namespace Sys2Proof.Machine

/-- No recorded error is cleared. -/
def ErrsKept (s t : State) : Prop := ∀ a k, a % 0x1000 = 0x20 → wbit (regGet s a) k = true → wbit (regGet t a) k = true

/-- A set ERR_STATUS bit stays set, whatever is recorded. -/
theorem errBit_kept {a : Nat} (k : Nat) (ha : a % 0x1000 = 0x20) :
    KeptByRecords (fun q => q % 0x1000 = 0) (fun s => wbit (regGet s a) k = true) where
  status s q j hq hs := by
    rw [regGet_regSet]
    split_ifs with h
    · subst h
      rw [wbit_or, hs, Bool.true_or]
    · exact hs
  first s q w c hq hs := by rwa [regGet_noteFirst s q w c hq (by omega) (by omega) (by omega)]
  queued s e hs := by
    have hcar := page_mod .car 0
    rwa [regGet_queueEvent s e (by omega)]
  overflow s b hs := hs
  sent s o hs := hs
  held s l hs := hs
  car := page_mod .car 0
  pce := page_mod .pce 0

theorem regSet_errsKept (s : State) {a : Nat} (v : Word) (ha : a % 0x1000 ≠ 0x20) : ErrsKept s (regSet s a v) := by
  intro b k hb hs
  rwa [regGet_regSet_ne s v (by omega)]

theorem recErr_errsKept (s : State) (e : ErrCode) (i sub det : Nat) (c : Word) : ErrsKept s (recErr s e i sub det c) :=
  fun a k => recErr_keeps s e i sub det c a k

theorem raiseInt_errsKept (s : State) (b : Block) (i n : Nat) : ErrsKept s (raiseInt s b i n) := by
  intro a k ha hs
  have hp := page_mod b i
  have hset := regSet_errsKept s (a := page b i + 0x40) (regGet s (page b i + 0x40) ||| bitw n) (by omega) a k ha hs
  unfold raiseInt
  dsimp only
  split
  · exact (errBit_kept k ha).sendInt _ hset
  · exact hset

theorem stateEvent_errsKept (s : State) (b : Block) (i num detail : Nat) : ErrsKept s (stateEvent s b i num detail) :=
  fun _ k ha hs => (errBit_kept k ha).queued s _ hs

theorem powerCycleReq_errsKept (s : State) (cause : Nat) : ErrsKept s (powerCycleReq s cause) :=
  fun _ k ha hs => (errBit_kept k ha).recordOn 4 _ _ _ _ _ _ (page_mod .hng 0) hs

/-- The power feed, the thermal state, the resets that run, fuses, flash and epoch are as they were, and no recorded error is cleared. -/
structure PackageKept (s t : State) : Prop where
  power : t.power = s.power := by rfl
  thermal : t.thermal = s.thermal := by rfl
  chipReset : t.chipReset = s.chipReset := by rfl
  partReset : t.partReset = s.partReset := by rfl
  epoch : t.epoch = s.epoch := by rfl
  fuses : t.fuses = s.fuses := by rfl
  flash : t.fw.flash = s.fw.flash := by rfl
  errs : ErrsKept s t := by exact fun _ _ _ h => h

section
variable {s t u : State} {c : Prop} {inst : Decidable c} {i : Nat}

theorem PackageKept.refl (s : State) : PackageKept s s where

theorem PackageKept.trans (h : PackageKept s t) (g : PackageKept t u) : PackageKept s u where
  power := g.power.trans h.power
  thermal := g.thermal.trans h.thermal
  chipReset := g.chipReset.trans h.chipReset
  partReset := g.partReset.trans h.partReset
  epoch := g.epoch.trans h.epoch
  fuses := g.fuses.trans h.fuses
  flash := g.flash.trans h.flash
  errs a k ha hs := g.errs a k ha (h.errs a k ha hs)

/-- What recording an error changes is none of it. -/
theorem PackageKept.records (h : PackageKept s t) (g : ErrFrame t u) (he : ErrsKept t u) : PackageKept s u :=
  h.trans ⟨g.power, g.thermal, g.chipReset, g.partReset, g.epoch, g.fuses, congrArg Firmware.flash g.fw, he⟩

protected theorem PackageKept.ite (ht : PackageKept s t) (hu : PackageKept s u) : PackageKept s (if c then t else u) := by
  split
  · exact ht
  · exact hu

protected theorem PackageKept.foldl {α : Type} {f : State → α → State} {l : List α} (h : PackageKept s t)
    (hf : ∀ {u x}, x ∈ l → PackageKept s u → PackageKept s (f u x)) : PackageKept s (l.foldl f t) :=
  List.foldlRecOn l f (motive := PackageKept s) h fun _ hu _ hx => hf hx hu

protected theorem PackageKept.rset {b off v} (h : PackageKept s t) (ho : off % 0x1000 ≠ 0x20 := by decide) :
    PackageKept s (rset t b i off v) := by
  have hp := page_mod b i
  exact h.trans { errs := regSet_errsKept t v (by omega) }

protected theorem PackageKept.recErr {e sub det ctag} (h : PackageKept s t) : PackageKept s (recErr t e i sub det ctag) :=
  h.records (recErr_err ..) (recErr_errsKept _ _ _ _ _ _)

protected theorem PackageKept.raiseInt {b n} (h : PackageKept s t) : PackageKept s (raiseInt t b i n) :=
  h.records (raiseInt_rec ..).toErrFrame (raiseInt_errsKept _ _ _ _)

protected theorem PackageKept.powerCycleReq {cause} (h : PackageKept s t) : PackageKept s (powerCycleReq t cause) :=
  h.records (powerCycleReq_rec ..).toErrFrame (powerCycleReq_errsKept _ _)

protected theorem PackageKept.modPort {f} (h : PackageKept s t) : PackageKept s (modPort t i f) := h.trans {}

protected theorem PackageKept.modCluster {f} (h : PackageKept s t) : PackageKept s (modCluster t i f) := h.trans {}

/-! #### A port is disabled (R305) -/

protected theorem PackageKept.showLanes (h : PackageKept s t) : PackageKept s (showLanes t i) :=
  h.foldl fun hn hu => by
    have hlt := List.mem_range.1 hn
    exact hu.rset (by omega)

protected theorem PackageKept.setFab {st reason} (h : PackageKept s t) : PackageKept s (setFab t i st reason) :=
  .ite (PackageKept.ite h.modPort h).rset.showLanes (PackageKept.ite h.modPort h).rset.showLanes.raiseInt

protected theorem PackageKept.setEngine {st} (h : PackageKept s t) : PackageKept s (setEngine t i st) :=
  (h.rset (i := i) (b := .opt) (off := 0x100)).trans {}

protected theorem PackageKept.fabDisable {reason} (h : PackageKept s t) : PackageKept s (fabDisable t i reason) :=
  (PackageKept.rset (PackageKept.rset h.modPort)).setEngine.setFab

/-! #### The dies are off (R495) -/

protected theorem PackageKept.portsOff {reason} (h : PackageKept s t) : PackageKept s (portsOff t reason) :=
  h.foldl fun _ hu => hu.fabDisable

protected theorem PackageKept.linkDrop (h : PackageKept s t) : PackageKept s (linkDrop t) :=
  PackageKept.rset (PackageKept.rset (h.trans (u := { t with host := _ }) {}))

protected theorem PackageKept.endGrants {mask} (h : PackageKept s t) : PackageKept s (endGrants t mask) := by
  refine PackageKept.foldl (.ite h h.rset) fun {u p} hp hu => ?_
  have hlt : p < 8 := List.mem_range.1 (List.mem_of_mem_filter hp)
  exact (hu.rset (by omega)).foldl fun _ hv => hv.modCluster

protected theorem PackageKept.stageAbort (h : PackageKept s t) : PackageKept s (stageAbort t) := by
  unfold Machine.stageAbort
  split
  · exact h
  · exact (h.trans (u := { t with fw := _, carillon := _ }) {}).recErr

end

/-- The dies have lost their power: memory is lost and the power state is A3; the rest of the feed, the thermal state, fuses, flash and
epoch are as they were (R495). -/
structure DiesLost (s t : State) : Prop where
  power : t.power = { s.power with st := 3, moving := none }
  mem : t.mem = []
  thermal : t.thermal = s.thermal
  epoch : t.epoch = s.epoch
  fuses : t.fuses = s.fuses
  flash : t.fw.flash = s.fw.flash
  errs : ErrsKept s t

/-- What the loss of the dies leaves, the resets that run among it. -/
theorem diesOff_effect (s : State) (reason : Nat) :
    DiesLost s (diesOff s reason) ∧ (diesOff s reason).chipReset = s.chipReset ∧ (diesOff s reason).partReset = s.partReset := by
  unfold diesOff
  extract_lets u v pw
  have hu : PackageKept s u := (PackageKept.refl s).portsOff.linkDrop.endGrants
  have hv : PackageKept s v := hu.rset
  have hpw : pw = s.power := hu.power
  clear_value u v pw
  subst hpw
  exact ⟨⟨rfl, rfl, hv.thermal, hv.epoch, hv.fuses, hv.flash, hv.errs⟩, hv.chipReset, hv.partReset⟩

theorem abandonResets_errsKept (s : State) : ErrsKept s (abandonResets s) :=
  regSet_errsKept s 0 (by decide)

/-- Staging and the resets are abandoned and the dies lose their power, as a power failure and a trip have it (R415, R476, R502, R507). -/
theorem shutDown_effect (s : State) (reason : Nat) :
    DiesLost s (diesOff (abandonResets (stageAbort s)) reason) ∧
    (diesOff (abandonResets (stageAbort s)) reason).chipReset = none ∧
    (diesOff (abandonResets (stageAbort s)) reason).partReset = [] := by
  have ha : PackageKept s (stageAbort s) := (PackageKept.refl s).stageAbort
  obtain ⟨hd, hchip, hpart⟩ := diesOff_effect (abandonResets (stageAbort s)) reason
  refine ⟨⟨hd.power.trans ?_, hd.mem, hd.thermal.trans ha.thermal, hd.epoch.trans ha.epoch, hd.fuses.trans ha.fuses,
    hd.flash.trans ha.flash, fun a k hk hs => hd.errs a k hk (abandonResets_errsKept _ a k hk (ha.errs a k hk hs))⟩, hchip, hpart⟩
  rw [← ha.power]
  rfl

/-- DIR_BOOT_STAGE shows the stage that was set (R49). -/
theorem bootStage_setStage (s : State) {n : Nat} (hn : n < 8) : bootStage (setStage s n) = n := by
  rw [bootStage, setStage, rget_rset_self, fld, bits, wd, BitVec.toNat_ofNat, Nat.mod_eq_of_lt (show n < 2 ^ 32 by omega)]
  exact Nat.mod_eq_of_lt hn

theorem setStage_errsKept (s : State) (n : Nat) : ErrsKept s (setStage s n) := regSet_errsKept s _ (by decide)

theorem DiesLost.setStage {s t : State} (h : DiesLost s t) (n : Nat) : DiesLost s (setStage t n) :=
  ⟨h.power, h.mem, h.thermal, h.epoch, h.fuses, h.flash, fun a k ha hs => setStage_errsKept t n a k ha (h.errs a k ha hs)⟩

/-! #### The power-fail sequence (R501, R502) -/

/-- The package is in A3 after a power failure: resets are abandoned and memory is lost, epoch and fuses stay. -/
structure PowerFailed (s t : State) : Prop where
  failed : t.power.failed = true
  st : t.power.st = 3
  brake : t.power.brake = 0
  mem : t.mem = []
  stage : bootStage t = 1
  chipReset : t.chipReset = none
  partReset : t.partReset = []
  epoch : t.epoch = s.epoch
  fuses : t.fuses = s.fuses

/-- What a power failure leaves of a package that had not failed (R502). -/
theorem powerFail_effect {s : State} (e : ErrCode) (detail : Nat) (h : s.power.failed = false) :
    PowerFailed s (powerFail s e detail) := by
  unfold powerFail
  rw [h, if_neg (by decide)]
  extract_lets n s1 pw s2 s3 s4
  have h1 : PackageKept s s1 := (PackageKept.refl s).recErr
  obtain ⟨hd, hchip, hpart⟩ : DiesLost s3 s4 ∧ s4.chipReset = none ∧ s4.partReset = [] := shutDown_effect s3 11
  have hfailed : s4.power.failed = true := congrArg Power.failed hd.power
  have hst : s4.power.st = 3 := congrArg Power.st hd.power
  clear_value s4
  exact ⟨hfailed, hst, rfl, hd.mem, bootStage_setStage _ (by decide), hchip, hpart, hd.epoch.trans h1.epoch, hd.fuses.trans h1.fuses⟩

/-- A package that has failed does not fail again (R502). -/
theorem powerFail_again {s : State} (e : ErrCode) (detail : Nat) (h : s.power.failed = true) : powerFail s e detail = s := if_pos h

/-- The state in which a loss of 48 V is judged: VIN48 is shown, and with the Carillon off VAUX12 counts as present again. -/
def vin48Lost (s : State) (vin : Nat) : State :=
  { rset s .pwr 0 0x120 (setFld (rget s .pwr 0 0x120) 11 0 vin) with
    power := { s.power with vin48 := false, vauxLost := s.power.vauxLost && s.carillon.powered } }

/-- The state in which an overvoltage is judged: VIN48 is shown. -/
def vin48Over (s : State) (vin : Nat) : State := rset s .pwr 0 0x120 (setFld (rget s .pwr 0 0x120) 11 0 (min 4095 vin))

theorem exec_powerFailSequence (s : State) (vin : Nat) : exec (.powerFailSequence vin) s =
    .next (if s.power.st = 3 then vin48Lost s vin else powerFail (vin48Lost s vin) ePwrPowerFail vin) := rfl

theorem exec_pwrVinOv (s : State) (vin : Nat) : exec (.pwrVinOv vin) s =
    .next (if vin ≤ 3000 then s else powerFail (vin48Over s vin) ePwrVinOv vin) := rfl

/-- VAUX12 is lost after the sequence. -/
def vauxGone (s : State) : State := { s with power := { s.power with vauxLost := true } }

theorem exec_pwrVauxLost (s : State) :
    exec .pwrVauxLost s = .next (if !s.power.vin48 then s else vauxGone (powerFail s ePwrVauxLost 0)) := rfl

theorem PowerFailed.vauxGone {s t : State} (h : PowerFailed s t) : PowerFailed s (vauxGone t) :=
  ⟨h.failed, h.st, h.brake, h.mem, h.stage, h.chipReset, h.partReset, h.epoch, h.fuses⟩

/-- The three failures that start the sequence (R501, R502). -/
theorem powerFailure_completes {s : State} {c : Instr} {vin : Nat} (hf : s.power.failed = false) (hst : s.power.st ≠ 3)
    (hv : s.power.vin48 = true) (hc : c = .powerFailSequence vin ∨ c = .pwrVinOv vin ∧ 3000 < vin ∨ c = .pwrVauxLost) :
    Completes c s (PowerFailed s) := by
  obtain rfl | ⟨rfl, hvin⟩ | rfl := hc
  · refine ⟨_, exec_powerFailSequence s vin, ?_⟩
    rw [if_neg hst]
    exact { powerFail_effect (s := vin48Lost s vin) ePwrPowerFail vin hf with }
  · refine ⟨_, exec_pwrVinOv s vin, ?_⟩
    rw [if_neg (by omega)]
    exact { powerFail_effect (s := vin48Over s vin) ePwrVinOv vin hf with }
  · refine ⟨_, exec_pwrVauxLost s, ?_⟩
    rw [hv, if_neg (by decide)]
    exact (powerFail_effect ePwrVauxLost 0 hf).vauxGone

end Sys2Proof.Machine
end

/-! ### The thermal manager: what its operations keep, and what a sample leaves of a site (R503 to R508, R519)

`HeatStep` holds of every operation of the manager, the trip included, and composes: what trips the package puts it in A3 without
memory, and what does not leaves both. `SiteOp f i` adds that only site `i` changes, and that its part `f` stays. -/

section
namespace Sys2Proof.Machine

/-! #### What every operation keeps -/

/-- Fuses, flash and recorded errors stay; and either the trip, the power state and memory are as they were, or the package has tripped
and is in A3 without memory (R495, R507). -/
structure HeatStep (s t : State) : Prop where
  fuses : t.fuses = s.fuses
  flash : t.fw.flash = s.fw.flash
  errs : ErrsKept s t
  trip : (t.thermal.tripped = s.thermal.tripped ∧ t.power.st = s.power.st ∧ t.mem = s.mem) ∨
    (t.thermal.tripped = true ∧ t.power.st = 3 ∧ t.mem = [])

/-- Besides, the sites are as they were. -/
structure SitesKept (s t : State) : Prop extends HeatStep s t where
  sites : t.thermal.sites = s.thermal.sites

/-- Besides, the other sites are as they were, and what `f` tells of site `i`. -/
structure SiteOp {α : Type} (f : Site → α) (i : Nat) (s t : State) : Prop extends HeatStep s t where
  others : ∀ j, j ≠ i → site t j = site s j
  own : f (site t i) = f (site s i)

/-- What the rules of R505 read of a site and do not write: the reading used, the state of the pair, whether it has been read. -/
def Site.reading (x : Site) : Nat × Nat × Bool := (x.used, x.pair, x.read)

theorem site_congr {s t : State} (h : t.thermal.sites = s.thermal.sites) (i : Nat) : site t i = site s i := by simp [site, h]

@[simp] theorem site_modSite_self (s : State) (i : Nat) (f : Site → Site) : site (modSite s i f) i = f (site s i) := by
  simp [site, modSite]

theorem site_modSite_ne (s : State) {i j : Nat} (f : Site → Site) (h : j ≠ i) : site (modSite s i f) j = site s j := by
  simp [site, modSite, mgetD_mupd_ne _ _ _ _ h]

@[simp] theorem site_recErr (s : State) (e : ErrCode) (i sub det : Nat) (c : Word) (j : Nat) :
    site (recErr s e i sub det c) j = site s j := site_congr (by rw [recErr_thermal]) j

section
variable {s t u : State} {α : Type} {f : Site → α} {i : Nat} {c : Prop} {inst : Decidable c}

theorem HeatStep.refl (s : State) : HeatStep s s := ⟨rfl, rfl, fun _ _ _ h => h, .inl ⟨rfl, rfl, rfl⟩⟩

theorem HeatStep.trans (h : HeatStep s t) (g : HeatStep t u) : HeatStep s u where
  fuses := g.fuses.trans h.fuses
  flash := g.flash.trans h.flash
  errs a k ha hs := g.errs a k ha (h.errs a k ha hs)
  trip := by
    obtain ⟨htrip, hst, hmem⟩ | hoff := g.trip
    · rw [htrip, hst, hmem]
      exact h.trip
    · exact .inr hoff

/-- A trip lasts. -/
theorem HeatStep.tripped (h : HeatStep s t) (hs : s.thermal.tripped = true) : t.thermal.tripped = true := by
  obtain ⟨htrip, -, -⟩ | ⟨htrip, -, -⟩ := h.trip
  · rw [htrip, hs]
  · exact htrip

theorem HeatStep.untripped (h : HeatStep s t) (ht : t.thermal.tripped = false) : s.thermal.tripped = false := by
  cases hs : s.thermal.tripped with
  | false => rfl
  | true => exact absurd (h.tripped hs) (by simp [ht])

/-- A package that trips is in A3 without memory. -/
theorem HeatStep.off (h : HeatStep s t) (hs : s.thermal.tripped = false) (ht : t.thermal.tripped = true) :
    t.power.st = 3 ∧ t.mem = [] := by
  obtain ⟨htrip, -, -⟩ | ⟨-, hoff⟩ := h.trip
  · simp [ht, hs] at htrip
  · exact hoff

protected theorem HeatStep.foldl {β : Type} {f : State → β → State} {l : List β} (h : HeatStep s t)
    (hf : ∀ u x, HeatStep u (f u x)) : HeatStep s (l.foldl f t) :=
  List.foldlRecOn l f (motive := HeatStep s) h fun _ hu x _ => hu.trans (hf _ x)

theorem SitesKept.refl (s : State) : SitesKept s s := ⟨.refl s, rfl⟩

theorem SitesKept.trans (h : SitesKept s t) (g : SitesKept t u) : SitesKept s u :=
  ⟨h.toHeatStep.trans g.toHeatStep, g.sites.trans h.sites⟩

/-- What recording an error changes is none of it. -/
theorem SitesKept.of_records (g : ErrFrame s t) (he : ErrsKept s t) : SitesKept s t :=
  ⟨⟨g.fuses, congrArg Firmware.flash g.fw, he, .inl ⟨congrArg Thermal.tripped g.thermal, congrArg Power.st g.power, g.mem⟩⟩,
    congrArg Thermal.sites g.thermal⟩

theorem recErr_sitesKept (s : State) (e : ErrCode) (i sub det : Nat) (c : Word) : SitesKept s (recErr s e i sub det c) :=
  .of_records (recErr_err ..) (recErr_errsKept _ _ _ _ _ _)

theorem SiteOp.refl (s : State) : SiteOp f i s s := ⟨.refl s, fun _ _ => rfl, rfl⟩

/-- An operation that leaves the sites goes on. -/
theorem SiteOp.sites (h : SiteOp f i s t) (g : SitesKept t u) : SiteOp f i s u :=
  ⟨h.toHeatStep.trans g.toHeatStep, fun j hj => (site_congr g.sites j).trans (h.others j hj),
    (congrArg f (site_congr g.sites i)).trans h.own⟩

protected theorem SiteOp.recErr {e k sub det ctag} (h : SiteOp f i s t) : SiteOp f i s (recErr t e k sub det ctag) :=
  h.sites (recErr_sitesKept ..)

protected theorem SiteOp.modSite {g : Site → Site} (h : SiteOp f i s t) (hg : ∀ x, f (g x) = f x := by exact fun _ => rfl) :
    SiteOp f i s (modSite t i g) :=
  ⟨h.toHeatStep.trans ⟨rfl, rfl, fun _ _ _ h => h, .inl ⟨rfl, rfl, rfl⟩⟩,
    fun j hj => (site_modSite_ne t g hj).trans (h.others j hj),
    (congrArg f (site_modSite_self t i g)).trans ((hg _).trans h.own)⟩

protected theorem SiteOp.ite (ht : SiteOp f i s t) (hu : SiteOp f i s u) : SiteOp f i s (if c then t else u) := by
  split
  · exact ht
  · exact hu

protected theorem SiteOp.branch {v : State} (h : SiteOp f i s t) (hu : SiteOp f i s t → SiteOp f i s u)
    (hv : SiteOp f i s t → SiteOp f i s v) : SiteOp f i s (if c then u else v) := .ite (hu h) (hv h)

protected theorem SiteOp.when (h : SiteOp f i s t) (hu : SiteOp f i s t → SiteOp f i s u) :
    SiteOp f i s (if c then u else t) := .ite (hu h) h

protected theorem SiteOp.whenNot (h : SiteOp f i s t) (hu : SiteOp f i s t → SiteOp f i s u) :
    SiteOp f i s (if c then t else u) := .ite h (hu h)

/-! #### The trip (R507) -/

/-- What a trip leaves of a package that had not tripped: the sites stay, and the package is in A3 without memory. -/
theorem thermTrip_effect (sub : Nat) (h : s.thermal.tripped = false) :
    SitesKept s (thermTrip s sub) ∧ (thermTrip s sub).thermal.tripped = true := by
  unfold thermTrip
  rw [h, if_neg (by decide)]
  extract_lets n th s1 s2 s3
  have h2 : PackageKept s1 s2 := (PackageKept.refl s1).recErr.powerCycleReq.trans {}
  have hd : DiesLost s2 s3 := (shutDown_effect s2 9).1.setStage 1
  clear_value s3
  have hth : s3.thermal = s1.thermal := hd.thermal.trans h2.thermal
  have htrip : s3.thermal.tripped = true := congrArg Thermal.tripped hth
  have hsites : s3.thermal.sites = s.thermal.sites := by rw [hth]
  have hst : s3.power.st = 3 := congrArg Power.st hd.power
  have herrs : ErrsKept s s3 := fun a k ha hs => hd.errs a k ha (h2.errs a k ha hs)
  exact ⟨⟨⟨hd.fuses.trans h2.fuses, hd.flash.trans h2.flash, herrs, .inr ⟨htrip, hst, hd.mem⟩⟩, hsites⟩, htrip⟩

theorem thermTrip_sitesKept (s : State) (sub : Nat) : SitesKept s (thermTrip s sub) := by
  cases h : s.thermal.tripped with
  | false => exact (thermTrip_effect sub h).1
  | true =>
    rw [thermTrip, if_pos h]
    exact .refl s

theorem thermTrip_tripped (s : State) (sub : Nat) : (thermTrip s sub).thermal.tripped = true := by
  cases h : s.thermal.tripped with
  | false => exact (thermTrip_effect sub h).2
  | true => rwa [thermTrip, if_pos h]

/-! #### Readings (R504) -/

/-- Nothing is said of a site. -/
def anySite (_ : Site) : Unit := ()

protected theorem SiteOp.siteFail (h : SiteOp anySite i s t) : SiteOp anySite i s (siteFail t i) :=
  h.branch (·.modSite) (·.modSite.recErr)

theorem readSite_op (s : State) (i : Nat) (d r : Option Nat) : SiteOp anySite i s (readSite s i d r) :=
  (SiteOp.refl s).modSite.branch (·.siteFail)
    (fun h => h.branch (·.whenNot (·.modSite.recErr)) (fun h => h.modSite.when (·.modSite.recErr)))

theorem substituteSite_op (s : State) (i : Nat) : SiteOp anySite i s (substituteSite s i) :=
  (SiteOp.refl s).whenNot (fun h => h.branch (·.siteFail) (·.modSite))

/-- Two equal plausible readings make the pair OK, and are the reading used. -/
theorem readSite_agrees {d : Nat} (hp : (site s i).pair < 2) (hlo : 20 ≤ d) (hhi : d ≤ 190) :
    (site (readSite s i (some d) (some d)) i).reading = (d, 0, true) := by
  have hp' : ¬ 2 ≤ (site s i).pair := by omega
  simp [readSite, pairState, plausible, hlo, hhi, hp', Site.reading]

/-- Two silent sensors fail the pair: its region runs at half clock, and THM_SENSOR_FAILED is recorded. -/
theorem readSite_silent (hp : (site s i).pair < 2) :
    (site (readSite s i none none) i).pair = 3 ∧ (site (readSite s i none none) i).half = true ∧
    wbit (rget (readSite s i none none) .thm 0 0x20) eThmSensorFailed.bit = true := by
  have hp' : ¬ 2 ≤ (site s i).pair := by omega
  have hfail : readSite s i none none = siteFail (modSite s i (fun x => { x with diode := 0, ring := 0, read := true })) i := by
    simp [readSite, pairState, plausible, hp']
  have hne : (site (modSite s i (fun x => { x with diode := 0, ring := 0, read := true })) i).pair ≠ 3 := by
    rw [site_modSite_self]
    show (site s i).pair ≠ 3
    omega
  rw [hfail, siteFail, if_neg hne]
  exact ⟨by simp, by simp, recErr_sets _ eThmSensorFailed 0 i 0 noCtag (by decide)⟩

/-- A site whose pair is not DEGRADED keeps its reading when others take theirs from their neighbours. -/
theorem substituteSite_kept (j : Nat) (h : (site s i).pair ≠ 2) : site (substituteSite s j) i = site s i := by
  by_cases hj : i = j
  · subst hj
    rw [substituteSite, if_pos h]
  · exact (substituteSite_op s j).others i hj

theorem substituteSites_kept (l : List Nat) (h : (site s i).pair ≠ 2) : site (l.foldl substituteSite s) i = site s i :=
  List.foldlRecOn l substituteSite (motive := fun u => site u i = site s i) rfl
    fun u hu j _ => (substituteSite_kept j (by rwa [hu])).trans hu

/-! #### The rules of a site (R505) -/

protected theorem SiteOp.siteStep (h : SiteOp Site.reading i s t) : SiteOp Site.reading i s (siteStep t i) :=
  (h.whenNot (·.recErr)).modSite

protected theorem SiteOp.siteHard (h : SiteOp Site.reading i s t) : SiteOp Site.reading i s (siteHard t i) :=
  h.whenNot (·.modSite.recErr)

protected theorem SiteOp.clusterRule (h : SiteOp Site.reading i s t) : SiteOp Site.reading i s (clusterRule t i) :=
  h.branch (·.siteStep.siteHard) (fun h => h.when (·.modSite) |>.branch (·.siteStep) (·.modSite))

protected theorem SiteOp.baseRule (h : SiteOp Site.reading i s t) : SiteOp Site.reading i s (baseRule t i) := by
  have hcooled : SiteOp Site.reading i s (if (site t i).hard && decide ((site t i).used < 140) then
      modSite t i (fun x => { x with hard := false }) else t) := h.when (·.modSite)
  unfold Machine.baseRule
  dsimp only
  split
  · exact h.siteStep.modSite.siteHard
  · split
    · exact hcooled.siteStep.modSite
    · split
      · exact hcooled.modSite
      · split
        · exact hcooled.when (·.modSite)
        · exact hcooled.when (·.modSite)

/-- A converter site changes only whether it is in a step, and may end the cut of L_eff. -/
protected theorem SiteOp.converterRule (h : SiteOp f i s t)
    (hf : ∀ x b, f { x with stepping := b } = f x := by exact fun _ _ => rfl) : SiteOp f i s (converterRule t i) :=
  h.branch (·.whenNot fun h => (h.modSite (hf · true)).recErr)
    (·.when fun h => (h.modSite (hf · false)).whenNot
      (·.sites ⟨⟨rfl, rfl, fun _ _ _ h => h, .inl ⟨rfl, rfl, rfl⟩⟩, rfl⟩))

/-- The rules leave every site's reading and pair, and the other sites whole. -/
theorem siteRule_op (s : State) (i : Nat) : SiteOp Site.reading i s (siteRule s i) :=
  (SiteOp.refl s).whenNot (·.branch (·.sites (thermTrip_sitesKept ..))
    (fun h => (h.branch (·.converterRule) (·.whenNot (·.branch (·.clusterRule) (·.baseRule)))).modSite))

/-- A FAILED site stays at half clock. -/
theorem siteRule_failed (h : (site s i).pair = 3) :
    SiteOp (fun x => (x.pair, x.half)) i s (siteRule s i) := by
  unfold siteRule
  simp only [h, ne_eq, not_true_eq_false, decide_false, Bool.and_false, Bool.false_eq_true, if_false, decide_true, Bool.true_or,
    if_true]
  exact (SiteOp.refl s).whenNot fun h => (h.when (·.converterRule)).modSite

/-- From 115 °C on, a site that has not FAILED trips the package (R507). -/
theorem siteRule_trips (hread : (site s i).read = true) (hp : (site s i).pair ≠ 3) (hu : 155 ≤ (site s i).used) :
    (siteRule s i).thermal.tripped = true := by
  cases h : s.thermal.tripped with
  | true => exact (siteRule_op s i).tripped h
  | false =>
    rw [siteRule, if_neg (by simp [h, hread]), if_pos (by simp [hu, hp])]
    exact thermTrip_tripped s i

theorem siteHard_hard (s : State) (i : Nat) : (site (siteHard s i) i).hard = true := by
  unfold siteHard
  split
  · assumption
  · simp

theorem clusterRule_hard (hu : 145 ≤ (site s i).used) : (site (clusterRule s i) i).hard = true := by
  rw [clusterRule, if_pos hu]
  exact siteHard_hard _ i

theorem baseRule_hard (hu : 145 ≤ (site s i).used) : (site (baseRule s i) i).hard = true := by
  rw [baseRule, if_pos hu]
  exact siteHard_hard _ i

/-- From 105 °C on, a cluster or a base die is at its hard limit, unless the package trips (R505). -/
theorem siteRule_hard (hi : i < 80) (hread : (site s i).read = true) (hp : (site s i).pair ≠ 3) (hu : 145 ≤ (site s i).used)
    (ht : (siteRule s i).thermal.tripped = false) : (site (siteRule s i) i).hard = true := by
  have hs := (siteRule_op s i).untripped ht
  have hcold : ¬ 155 ≤ (site s i).used := fun h => by simp [siteRule_trips hread hp h] at ht
  have hkind : siteKind i ≠ 2 ∧ siteKind i ≠ 3 := by
    unfold siteKind
    split_ifs <;> omega
  obtain ⟨h2, h3⟩ := hkind
  rw [siteRule, if_neg (by simp [hs, hread]), if_neg (by simp [hcold]), if_neg h2, if_neg (by simp [hp, h3]), site_modSite_self]
  split
  · exact clusterRule_hard hu
  · exact baseRule_hard hu

/-! #### The sample (R503, R519) -/

/-- A property that every step keeps, and one of the steps strengthens, holds strengthened at the end. -/
theorem foldl_reaches {β γ : Type} {f : β → γ → β} {P Q : β → Prop} {a : γ} {l : List γ} (ha : a ∈ l) {b : β} (hb : P b)
    (hP : ∀ u x, P u → P (f u x)) (hreach : ∀ u, P u → Q (f u a)) (hQ : ∀ u x, Q u → Q (f u x)) : Q (l.foldl f b) := by
  obtain ⟨l₁, l₂, rfl⟩ := List.append_of_mem ha
  rw [List.foldl_append, List.foldl_cons]
  exact List.foldlRecOn l₂ f (motive := Q) (hreach _ (List.foldlRecOn l₁ f (motive := P) hb fun u hu x _ => hP u x hu))
    fun u hu x _ => hQ u x hu

/-- The sites are judged after one of them has been read. -/
def sampleJudged (s : State) (i : Nat) (d r : Option Nat) : State :=
  (List.range 85).foldl siteRule ((List.range 85).foldl substituteSite (readSite s i d r))

theorem noteBase_sitesKept (s : State) (t : Nat) : SitesKept s (noteBase s t) :=
  ⟨⟨rfl, rfl, fun _ _ _ h => h, .inl ⟨rfl, rfl, rfl⟩⟩, rfl⟩

theorem noteBases_sitesKept (s : State) (l : List Nat) : SitesKept s (l.foldl noteBase s) :=
  List.foldlRecOn l noteBase (motive := SitesKept s) (.refl s) fun u hu x _ => hu.trans (noteBase_sitesKept u x)

theorem coolSent_sitesKept (s : State) (h : Nat) (x : Option Nat) :
    SitesKept s { s with thermal := { s.thermal with coolHeld := h, coolSent := x } } :=
  ⟨⟨rfl, rfl, fun _ _ _ h => h, .inl ⟨rfl, rfl, rfl⟩⟩, rfl⟩

theorem rset_sitesKept (s : State) (b : Block) (i : Nat) {off : Nat} (v : Word) (ho : off % 0x1000 ≠ 0x20) :
    SitesKept s (rset s b i off v) := by
  have hp := page_mod b i
  exact ⟨⟨rfl, rfl, regSet_errsKept s v (by omega), .inl ⟨rfl, rfl, rfl⟩⟩, rfl⟩

theorem sendCooling_sitesKept (s : State) (input : Nat) : SitesKept s (sendCooling s input) :=
  ((rset_sitesKept s .thm 0 _ (by decide)).trans (coolSent_sitesKept ..)).trans (recErr_sitesKept ..)

theorem coolingCheck_sitesKept (s : State) (input : Nat) : SitesKept s (coolingCheck s input) := by
  have hshown : ∀ v, SitesKept s (rset s .thm 0 0x118 v) := fun v => rset_sitesKept s .thm 0 v (by decide)
  unfold coolingCheck
  dsimp only
  split
  · exact hshown _
  · split
    · have hheld := fun v => (hshown v).trans (coolSent_sitesKept _ s.us s.thermal.coolSent)
      split
      · split
        · exact (hheld _).trans (sendCooling_sitesKept ..)
        · exact hheld _
      · exact (hheld _).trans (sendCooling_sitesKept ..)
    · split
      · exact ((hshown _).trans (coolSent_sitesKept _ s.thermal.coolHeld none)).trans
          (.of_records (stateEvent_rec ..).toErrFrame (stateEvent_errsKept _ _ _ _ _))
      · exact hshown _

/-- The comparator of a site (R519). -/
theorem compareSite_heatStep (s : State) (i : Nat) (d r : Option Nat) : HeatStep s (compareSite s i d r) :=
  (SiteOp.whenNot (f := Site.reading) (i := i) (.refl s) (·.branch (·.sites (thermTrip_sitesKept ..))
    (·.whenNot (·.branch (·.siteHard) (·.when (·.modSite)))))).toHeatStep

/-- A sample keeps what every operation of the manager keeps. -/
theorem thermalSample_heatStep (s : State) (reads : List (Nat × Option Nat × Option Nat)) (input : Nat) :
    Completes (.thermalSample reads input) s (HeatStep s) := by
  refine ⟨_, rfl, ?_⟩
  dsimp only
  have h := HeatStep.refl s
  split
  · exact h
  · split
    · exact h.foldl fun u x => compareSite_heatStep u _ _ _
    · have hread : HeatStep s ((reads.filter (fun x => x.1 < 85)).foldl (fun s x => readSite s x.1 x.2.1 x.2.2) s) :=
        h.foldl fun u x => (readSite_op u _ _ _).toHeatStep
      have hjudged := (hread.foldl (l := List.range 85) fun u x => (substituteSite_op u x).toHeatStep).foldl (l := List.range 85)
        fun u x => (siteRule_op u x).toHeatStep
      exact (hjudged.trans (noteBases_sitesKept _ _).toHeatStep).trans (coolingCheck_sitesKept ..).toHeatStep

end

/-- What a command leaves is one state. -/
theorem completes_of_exec {c : Instr} {s t : State} {P : State → Prop} (h : Completes c s P) (he : exec c s = .next t) : P t := by
  obtain ⟨u, hu, hP⟩ := h
  obtain rfl : t = u := by injection he.symm.trans hu
  exact hP

section
variable {s : State} {i d input : Nat}

/-- A sample of one site, with a controller in charge. -/
theorem exec_thermalSample_one (x y : Option Nat) (ht : s.thermal.tripped = false) (hb : bothDown s = false) (hi : i < 85) :
    exec (.thermalSample [(i, x, y)] input) s =
      .next (coolingCheck ((List.range 4).foldl noteBase (sampleJudged s i x y)) input) := by
  show execThermalSample _ _ _ = _
  simp only [execThermalSample, ht, hb, hi, sampleJudged, List.filter_cons, List.filter_nil, decide_true, if_true, if_false,
    Bool.false_eq_true, List.foldl_cons, List.foldl_nil]

/-- With no controller in charge, only the comparator of the site acts (R519). -/
theorem exec_thermalSample_compared (x y : Option Nat) (ht : s.thermal.tripped = false) (hb : bothDown s = true) (hi : i < 85) :
    exec (.thermalSample [(i, x, y)] input) s = .next (compareSite s i x y) := by
  show execThermalSample _ _ _ = _
  simp only [execThermalSample, ht, hb, hi, List.filter_cons, List.filter_nil, decide_true, if_true, if_false,
    Bool.false_eq_true, List.foldl_cons, List.foldl_nil]

theorem sample_sitesKept (s : State) (input : Nat) : SitesKept s (coolingCheck ((List.range 4).foldl noteBase s) input) :=
  (noteBases_sitesKept s _).trans (coolingCheck_sitesKept ..)

/-- A site is judged once its reading stands: its limits apply. -/
structure SiteJudged (i d : Nat) (u : State) : Prop where
  reading : (site u i).reading = (d, 0, true)
  hard : 145 ≤ d → i < 80 → u.thermal.tripped = false → (site u i).hard = true
  trip : 155 ≤ d → u.thermal.tripped = true

/-- The rules of the other sites leave what has been judged. -/
theorem SiteJudged.siteRule {u : State} (h : SiteJudged i d u) (j : Nat) (hj : j ≠ i) : SiteJudged i d (siteRule u j) where
  reading := by rw [(siteRule_op u j).others i hj.symm, h.reading]
  hard hd hi ht := by
    rw [(siteRule_op u j).others i hj.symm]
    exact h.hard hd hi ((siteRule_op u j).untripped ht)
  trip hd := (siteRule_op u j).tripped (h.trip hd)

/-- A site's own rules judge its reading. -/
theorem siteJudged_siteRule {u : State} (h : (site u i).reading = (d, 0, true)) : SiteJudged i d (siteRule u i) := by
  have hreading := h
  simp only [Site.reading, Prod.mk.injEq] at h
  obtain ⟨hused, hpair, hread⟩ := h
  exact ⟨(siteRule_op u i).own.trans hreading, fun hd hi => siteRule_hard hi hread (by simp [hpair]) (by omega),
    fun hd => siteRule_trips hread (by simp [hpair]) (by omega)⟩

/-- A plausible pair that agrees is the reading of its site, which then is judged (R504, R505, R507). -/
theorem sampleJudged_agrees (hi : i < 85) (hp : (site s i).pair < 2) (hlo : 20 ≤ d) (hhi : d ≤ 190) :
    SiteJudged i d (sampleJudged s i (some d) (some d)) := by
  have hread := readSite_agrees hp hlo hhi
  refine foldl_reaches (P := fun u => (site u i).reading = (d, 0, true)) (a := i) (List.mem_range.2 hi) ?_ ?_
    (fun u hu => siteJudged_siteRule hu) ?_
  · rw [substituteSites_kept]
    · exact hread
    · simp only [Site.reading, Prod.mk.injEq] at hread
      obtain ⟨-, hpair, -⟩ := hread
      simp [hpair]
  · intro u j hu
    by_cases hj : j = i
    · subst hj
      exact (siteRule_op u j).own.trans hu
    · rw [(siteRule_op u j).others i (Ne.symm hj), hu]
  · intro u j hu
    by_cases hj : j = i
    · subst hj
      exact siteJudged_siteRule hu.reading
    · exact hu.siteRule j hj

/-- A pair without a plausible reading is FAILED, and its region runs at half clock (R504). -/
theorem sampleJudged_silent (hp : (site s i).pair < 2) :
    (site (sampleJudged s i none none) i).pair = 3 ∧ (site (sampleJudged s i none none) i).half = true ∧
    wbit (rget (sampleJudged s i none none) .thm 0 0x20) eThmSensorFailed.bit = true := by
  obtain ⟨hpair, hhalf, herr⟩ := readSite_silent hp
  have hsub : HeatStep (readSite s i none none) ((List.range 85).foldl substituteSite (readSite s i none none)) :=
    (HeatStep.refl _).foldl fun u x => (substituteSite_op u x).toHeatStep
  have hrules : HeatStep (readSite s i none none) (sampleJudged s i none none) :=
    hsub.foldl fun u x => (siteRule_op u x).toHeatStep
  have hsite : (site (sampleJudged s i none none) i).pair = 3 ∧ (site (sampleJudged s i none none) i).half = true := by
    refine List.foldlRecOn (List.range 85) siteRule (motive := fun u => (site u i).pair = 3 ∧ (site u i).half = true) ?_ ?_
    · rw [substituteSites_kept _ (by simp [hpair])]
      exact ⟨hpair, hhalf⟩
    · intro u hu j _
      by_cases hj : j = i
      · subst hj
        obtain ⟨hup, huh⟩ := hu
        have hown := (siteRule_failed hup).own
        simp only [Prod.mk.injEq] at hown
        exact ⟨hown.1.trans hup, hown.2.trans huh⟩
      · rwa [(siteRule_op u j).others i (Ne.symm hj)]
  exact ⟨hsite.1, hsite.2, hrules.errs _ _ (by decide) herr⟩

/-- What a sample of one site whose sensors agree leaves. -/
theorem thermalSample_agrees (input : Nat) (ht : s.thermal.tripped = false) (hb : bothDown s = false) (hi : i < 85)
    (hp : (site s i).pair < 2) (hlo : 20 ≤ d) (hhi : d ≤ 190) :
    Completes (.thermalSample [(i, some d, some d)] input) s (fun t =>
      (site t i).used = d ∧ (site t i).pair = 0 ∧ (site t i).read = true ∧
      (145 ≤ d → i < 80 → t.thermal.tripped = false → (site t i).hard = true) ∧
      (155 ≤ d → t.thermal.tripped = true ∧ t.power.st = 3 ∧ t.mem = [])) := by
  have hexec := exec_thermalSample_one (input := input) (some d) (some d) ht hb hi
  have hheat := completes_of_exec (thermalSample_heatStep s _ input) hexec
  have hjudged := sampleJudged_agrees hi hp hlo hhi
  have hkept := sample_sitesKept (sampleJudged s i (some d) (some d)) input
  have hreading := hjudged.reading
  rw [← site_congr hkept.sites] at hreading
  simp only [Site.reading, Prod.mk.injEq] at hreading
  obtain ⟨hused, hpair, hread⟩ := hreading
  refine ⟨_, hexec, hused, hpair, hread, fun hd h80 hcold => ?_, fun hd => ?_⟩
  · rw [site_congr hkept.sites]
    exact hjudged.hard hd h80 (hkept.untripped hcold)
  · have htrip := hkept.tripped (hjudged.trip hd)
    exact ⟨htrip, hheat.off ht htrip⟩

/-- What a sample of one site whose sensors are silent leaves. -/
theorem thermalSample_silent (input : Nat) (ht : s.thermal.tripped = false) (hb : bothDown s = false) (hi : i < 85)
    (hp : (site s i).pair < 2) :
    Completes (.thermalSample [(i, none, none)] input) s (fun t =>
      (site t i).pair = 3 ∧ (site t i).half = true ∧ wbit (rget t .thm 0 0x20) eThmSensorFailed.bit = true) := by
  obtain ⟨hpair, hhalf, herr⟩ := sampleJudged_silent hp
  have hkept := sample_sitesKept (sampleJudged s i none none) input
  refine ⟨_, exec_thermalSample_one none none ht hb hi, ?_, ?_, hkept.errs _ _ (by decide) herr⟩
  · rw [site_congr hkept.sites, hpair]
  · rw [site_congr hkept.sites, hhalf]

/-- What the comparators make of two equal plausible readings (R519). -/
theorem compareSite_agrees (ht : s.thermal.tripped = false) (hlo : 20 ≤ d) (hhi : d ≤ 190) :
    compareSite s i (some d) (some d) =
      if 155 ≤ d then thermTrip s i
      else if 2 ≤ siteKind i then s
      else if 145 ≤ d then siteHard s i
      else if (site s i).hard && decide (d < 140) then
        modSite s i (fun x => { x with hard := false, cap := if siteKind i = 0 then 4 else x.cap })
      else s := by
  simp [compareSite, plausible, ht, hlo, hhi]

/-- With no controller in charge the comparators keep the trip and the hard limit. -/
theorem thermalSample_compared (input : Nat) (ht : s.thermal.tripped = false) (hb : bothDown s = true) (hi : i < 85)
    (hlo : 20 ≤ d) (hhi : d ≤ 190) :
    Completes (.thermalSample [(i, some d, some d)] input) s (fun t =>
      (155 ≤ d → t.thermal.tripped = true ∧ t.power.st = 3 ∧ t.mem = []) ∧
      (145 ≤ d → d < 155 → i < 80 → (site t i).hard = true ∧ t.mem = s.mem) ∧
      (d < 140 → i < 80 → (site t i).hard = false ∧ t.mem = s.mem)) := by
  have hkind (h : i < 80) : ¬ 2 ≤ siteKind i := by
    unfold siteKind
    split_ifs <;> omega
  refine ⟨_, exec_thermalSample_compared _ _ ht hb hi, fun hd => ?_, fun hd hcold h80 => ?_, fun hd h80 => ?_⟩ <;>
    rw [compareSite_agrees ht hlo hhi]
  · rw [if_pos hd]
    obtain ⟨hkept, htrip⟩ := thermTrip_effect i ht
    exact ⟨htrip, hkept.off ht htrip⟩
  · rw [if_neg (by omega), if_neg (hkind h80), if_pos hd]
    refine ⟨siteHard_hard s i, ?_⟩
    unfold siteHard
    split
    · rfl
    · exact recErr_mem ..
  · rw [if_neg (by omega), if_neg (hkind h80), if_neg (by omega)]
    cases hhard : (site s i).hard with
    | true =>
      rw [if_pos (by simp [hd])]
      exact ⟨by rw [site_modSite_self], rfl⟩
    | false => exact ⟨hhard, rfl⟩

end
end Sys2Proof.Machine
end

/-! ### The step timer, degraded cooling and the HBM stacks (R213, R505, R507, R508) -/

section
namespace Sys2Proof.Machine

/-! #### THERMAL_STEP_TIMER (R505) -/

section
variable {s : State} {i : Nat}

theorem siteKind_cluster (h : i < 64) : siteKind i = 0 := if_pos h

/-- The step timer of a cluster: its cap falls from 100 °C, rises below 97 °C, and stays in between. -/
theorem exec_thermalStepTimer_cluster (hi : i < 64) (hp : (site s i).pair ≠ 3) (hh : (site s i).hard = false)
    (hr : (site s i).read = true) :
    exec (.thermalStepTimer i) s = .next (
      if 140 ≤ (site s i).used then modSite s i (fun x => { x with cap := max 4 (x.cap - 1) })
      else if (site s i).used < 137 then modSite s i (fun x => { x with cap := min 16 (x.cap + 1) })
      else s) := by
  show execThermalStepTimer i s = _
  simp only [execThermalStepTimer, siteKind_cluster hi, hp, hh, hr, if_true, decide_false, Bool.not_true, Bool.or_false, Bool.false_eq_true,
    if_false]

/-- A cluster that has FAILED, is at its hard limit or was never read keeps its cap. -/
theorem exec_thermalStepTimer_held (hi : i < 64) (h : (site s i).pair = 3 ∨ (site s i).hard = true ∨ (site s i).read = false) :
    exec (.thermalStepTimer i) s = .next s := by
  have hcond : (decide ((site s i).pair = 3) || (site s i).hard || !(site s i).read) = true := by
    simpa only [Bool.or_eq_true, decide_eq_true_eq, Bool.not_eq_true', or_assoc] using h
  show execThermalStepTimer i s = _
  simp only [execThermalStepTimer, siteKind_cluster hi, hcond, if_true]

/-- Base dies and the Carillon have no step timer. -/
theorem exec_thermalStepTimer_other (h : siteKind i = 1 ∨ siteKind i = 3) : exec (.thermalStepTimer i) s = .next s := by
  show execThermalStepTimer i s = _
  obtain h | h := h <;> simp [execThermalStepTimer, h]

/-- The converter site that stands for all: the first that is at 110 °C or above. -/
theorem converterFirst_iff (h : siteKind i = 2) :
    [80, 81, 82, 83].find? (fun j => decide (150 ≤ (site s j).used)) = some i ↔
      150 ≤ (site s i).used ∧ ∀ j, 80 ≤ j → j < i → (site s j).used < 150 := by
  have hi : 80 ≤ i ∧ i < 84 := by
    unfold siteKind at h
    split_ifs at h <;> omega
  have hrange : [80, 81, 82, 83] = List.range' 80 4 := rfl
  rw [hrange, List.find?_range'_eq_some]
  simp [hi.1, hi.2]

/-- The step timer of the first hot converter site: the cut of L_eff grows by a tenth of L, once for all sites. -/
theorem exec_thermalStepTimer_first (h : siteKind i = 2) (hhot : 150 ≤ (site s i).used)
    (hfirst : ∀ j, 80 ≤ j → j < i → (site s j).used < 150) :
    exec (.thermalStepTimer i) s = .next (lowerEff
      { s with power := { s.power with convCut := min (inputLimit s / 2) (s.power.convCut + inputLimit s / 10) } }) := by
  have hfind := (converterFirst_iff (s := s) h).2 ⟨hhot, hfirst⟩
  show execThermalStepTimer i s = _
  simp [execThermalStepTimer, h, hhot, hfind]

/-- Another converter site has no effect. -/
theorem exec_thermalStepTimer_later (h : siteKind i = 2)
    (hcold : (site s i).used < 150 ∨ ∃ j, 80 ≤ j ∧ j < i ∧ 150 ≤ (site s j).used) :
    exec (.thermalStepTimer i) s = .next s := by
  have hfind : [80, 81, 82, 83].find? (fun j => decide (150 ≤ (site s j).used)) ≠ some i := by
    rw [Ne, converterFirst_iff h]
    rintro ⟨hhot, hfirst⟩
    obtain hlt | ⟨j, hj, hji, hjhot⟩ := hcold
    · omega
    · exact absurd (hfirst j hj hji) (by omega)
  show execThermalStepTimer i s = _
  simp [execThermalStepTimer, h, hfind]

end

/-! #### Degraded cooling (R508) -/

/-- A register that no record writes, whatever its page: none of ERR_STATUS, ERR_FIRST, ERR_COUNT, ERR_CTAG, CAR_EVQ_LOST and
PCE_RESET_STATUS has its offset. -/
theorem rget_recErr_plain (s : State) (e : ErrCode) (i sub det : Nat) (c : Word) (b : Block) (j : Nat) {off : Nat}
    (ho : off < 0x1000 ∧ off ∉ [0x20, 0x30, 0x34, 0x38, 0x114, 0x124] := by decide) :
    rget (recErr s e i sub det c) b j off = rget s b j off := by
  have hp := page_mod b j
  have hcar := page_mod .car 0
  have hpce := page_mod .pce 0
  obtain ⟨hlt, hout⟩ := ho
  simp only [List.mem_cons, List.not_mem_nil, or_false, not_or] at hout
  obtain ⟨h20, h30, h34, h38, h114, h124⟩ := hout
  refine recErr_quiet s e i sub det c _ ⟨?_, ?_, ?_, ?_, ?_⟩ ?_ <;> omega

section
variable {s : State} {input : Nat}

/-- THM_WARN shows whether the condition holds. -/
def coolingShown (s : State) (bad : Bool) : State := rset s .thm 0 0x118 (setBit (rget s .thm 0 0x118) 0 bad)

/-- The condition holds: shown, with its time. -/
def coolingHolds (s : State) : State :=
  { coolingShown s true with thermal := { s.thermal with coolHeld := s.us } }

theorem wbit_coolingShown (s : State) (bad : Bool) : wbit (rget (coolingShown s bad) .thm 0 0x118) 0 = bad := by
  rw [coolingShown, rget_rset_self, wbit_setBit_self _ _ (by decide)]

/-- The event is counted in THM_WARN, and its time noted. -/
def coolingCounted (s : State) : State :=
  { rset s .thm 0 0x118 (setFld (rget s .thm 0 0x118) 15 8 (min 255 (fld (rget s .thm 0 0x118) 15 8 + 1))) with
    thermal := { s.thermal with coolSent := some s.us } }

theorem sendCooling_eq (s : State) (input : Nat) :
    ∃ sub det, sendCooling s input = recErr (coolingCounted s) eThmCoolingDegraded 0 sub det noCtag := ⟨_, _, rfl⟩

/-- The event: its time, its record and its bit, memory and the shown condition kept. -/
theorem sendCooling_effect (s : State) (input : Nat) :
    (sendCooling s input).thermal.coolSent = some s.us ∧ wbit (rget (sendCooling s input) .thm 0 0x20) eThmCoolingDegraded.bit = true ∧
    wbit (rget (sendCooling s input) .thm 0 0x118) 0 = wbit (rget s .thm 0 0x118) 0 ∧ (sendCooling s input).mem = s.mem := by
  obtain ⟨sub, det, heq⟩ := sendCooling_eq s input
  have hreg : rget (coolingCounted s) .thm 0 0x118 =
      setFld (rget s .thm 0 0x118) 15 8 (min 255 (fld (rget s .thm 0 0x118) 15 8 + 1)) := rget_rset_self ..
  rw [heq, recErr_thermal, recErr_mem, rget_recErr_plain (off := 0x118), hreg, wbit_setFld _ (by decide), if_neg (by omega)]
  exact ⟨rfl, recErr_sets _ eThmCoolingDegraded 0 _ _ noCtag (by decide), rfl, rfl⟩

theorem exec_coolingEventRepeat (s : State) (input : Nat) :
    exec (.coolingEventRepeat input) s = .next (coolingCheck s input) := rfl

/-- What is shown is the condition, while the package has not tripped. -/
theorem coolingShown_eq {bad : Bool} (ht : s.thermal.tripped = false) (hbad : coolingBad s input = bad) :
    rset s .thm 0 0x118 (setBit (rget s .thm 0 0x118) 0 (!s.thermal.tripped && coolingBad s input)) = coolingShown s bad := by
  rw [ht, hbad]
  rfl

/-- After a trip nothing is judged. -/
theorem coolingCheck_tripped (ht : s.thermal.tripped = true) : coolingCheck s input = coolingShown s false := by
  have hshown : rset s .thm 0 0x118 (setBit (rget s .thm 0 0x118) 0 (!s.thermal.tripped && coolingBad s input)) =
      coolingShown s false := by
    rw [ht]
    rfl
  have htrip : (coolingShown s false).thermal.tripped = true := ht
  unfold coolingCheck
  rw [hshown]
  exact if_pos htrip

/-- The condition holds: an event when none was sent in the last 60 s. -/
theorem coolingCheck_bad (ht : s.thermal.tripped = false) (hbad : coolingBad s input = true) :
    coolingCheck s input = if (∀ x, s.thermal.coolSent = some x → x + 60000000 ≤ s.us) then sendCooling (coolingHolds s) input
      else coolingHolds s := by
  have hcold : ¬ (coolingShown s true).thermal.tripped = true := by simp [coolingShown, ht]
  have hstill : coolingBad (coolingShown s true) input = true := hbad
  have hmatch : coolingCheck s input = match s.thermal.coolSent with
      | some x => if x + 60000000 ≤ s.us then sendCooling (coolingHolds s) input else coolingHolds s
      | none => sendCooling (coolingHolds s) input := by
    unfold coolingCheck
    rw [coolingShown_eq ht hbad]
    exact (if_neg hcold).trans (if_pos hstill)
  rw [hmatch]
  cases s.thermal.coolSent with
  | none => simp
  | some x => simp

/-- The end of the condition is noted. -/
def coolingOver (s : State) : State := { coolingShown s false with thermal := { s.thermal with coolSent := none } }

/-- The condition does not hold: its end is reported once 60 s have passed. -/
theorem coolingCheck_good (ht : s.thermal.tripped = false) (hbad : coolingBad s input = false) :
    coolingCheck s input = if s.thermal.coolSent.isSome && decide (s.thermal.coolHeld + 60000000 ≤ s.us) then
      stateEvent (coolingOver s) .thm 0 5 0 else coolingShown s false := by
  have hcold : ¬ (coolingShown s false).thermal.tripped = true := by simp [coolingShown, ht]
  have hstill : ¬ coolingBad (coolingShown s false) input = true := by
    show ¬ coolingBad s input = true
    simp [hbad]
  unfold coolingCheck
  rw [coolingShown_eq ht hbad]
  exact (if_neg hcold).trans (if_neg hstill)

/-- A state event leaves the THM page. -/
theorem rget_stateEvent_thm (s : State) (b : Block) (i num detail off : Nat) (ho : off < 0x1000) :
    rget (stateEvent s b i num detail) .thm 0 off = rget s .thm 0 off :=
  regGet_queueEvent s _ (by simp only [page, blockBase, blockStride]; omega)

/-- With the condition and an event due, it is sent (R508). -/
theorem coolingEventRepeat_due (ht : s.thermal.tripped = false) (hbad : coolingBad s input = true)
    (hdue : s.thermal.coolSent = none ∨ ∃ x, s.thermal.coolSent = some x ∧ x + 60000000 ≤ s.us) :
    Completes (.coolingEventRepeat input) s (fun t =>
      t.thermal.coolSent = some s.us ∧ wbit (rget t .thm 0 0x20) eThmCoolingDegraded.bit = true ∧
      wbit (rget t .thm 0 0x118) 0 = true ∧ t.mem = s.mem) := by
  have hall : ∀ x, s.thermal.coolSent = some x → x + 60000000 ≤ s.us := by
    intro x hx
    obtain h | ⟨y, hy, hle⟩ := hdue
    · simp [h] at hx
    · obtain rfl : y = x := by injection hy.symm.trans hx
      exact hle
  obtain ⟨hsent, herr, hshown, hmem⟩ := sendCooling_effect (coolingHolds s) input
  have hcheck := (coolingCheck_bad ht hbad).trans (if_pos hall)
  exact ⟨_, (exec_coolingEventRepeat s input).trans (congrArg _ hcheck), hsent, herr, hshown.trans (wbit_coolingShown s true), hmem⟩

/-- Within 60 s of an event, the condition is only shown (R508). -/
theorem coolingEventRepeat_early (ht : s.thermal.tripped = false) (hbad : coolingBad s input = true)
    (h : ∃ x, s.thermal.coolSent = some x ∧ s.us < x + 60000000) :
    Completes (.coolingEventRepeat input) s (fun t =>
      t.thermal.coolSent = s.thermal.coolSent ∧ t.thermal.coolHeld = s.us ∧ wbit (rget t .thm 0 0x118) 0 = true ∧
      t.mem = s.mem) := by
  obtain ⟨x, hx, hlt⟩ := h
  have hearly : ¬ ∀ x, s.thermal.coolSent = some x → x + 60000000 ≤ s.us := fun hall => by
    have := hall x hx
    omega
  have hcheck := (coolingCheck_bad ht hbad).trans (if_neg hearly)
  exact ⟨_, (exec_coolingEventRepeat s input).trans (congrArg _ hcheck), rfl, rfl, wbit_coolingShown s true, rfl⟩

/-- Without the condition, its end is reported after 60 s (R508). -/
theorem coolingEventRepeat_good (ht : s.thermal.tripped = false) (hbad : coolingBad s input = false) :
    Completes (.coolingEventRepeat input) s (fun t =>
      wbit (rget t .thm 0 0x118) 0 = false ∧
      (s.thermal.coolHeld + 60000000 ≤ s.us → t.thermal.coolSent = none) ∧
      (s.us < s.thermal.coolHeld + 60000000 → t.thermal = s.thermal) ∧ t.mem = s.mem) := by
  refine ⟨_, (exec_coolingEventRepeat s input).trans (congrArg _ (coolingCheck_good ht hbad)), ?_⟩
  split
  · next h =>
    obtain ⟨-, hlate⟩ : s.thermal.coolSent.isSome = true ∧ s.thermal.coolHeld + 60000000 ≤ s.us := by simpa using h
    refine ⟨?_, fun _ => congrArg Thermal.coolSent (stateEvent_rec ..).thermal, fun hlt => absurd hlate (by omega),
      (stateEvent_rec ..).mem⟩
    rw [rget_stateEvent_thm _ _ _ _ _ _ (by decide)]
    exact wbit_coolingShown s false
  · next h =>
    refine ⟨wbit_coolingShown s false, fun hlate => ?_, fun _ => rfl, rfl⟩
    have hnone : s.thermal.coolSent = none := by simpa [hlate] using h
    exact hnone

/-- After a trip only THM_WARN changes. -/
theorem coolingEventRepeat_tripped (ht : s.thermal.tripped = true) :
    Completes (.coolingEventRepeat input) s (fun t => OnlyRegs s t ∧ wbit (rget t .thm 0 0x118) 0 = false) :=
  ⟨_, (exec_coolingEventRepeat s input).trans (congrArg _ (coolingCheck_tripped ht)), rfl, wbit_coolingShown s false⟩

end

/-! #### The stacks (R213, R505) -/

/-- What the registers show of a stack: THM_HBM, and its HBM_RATE and HBM_TEMP. -/
structure StackShows (s : State) (k : Nat) (w rate temp : Word) : Prop where
  limits : rget s .thm 0 0x110 = w
  rate : rget s .hbm k 0x108 = rate
  temp : rget s .hbm k 0x104 = temp

/-- A stack's operation leaves memory, the failed readouts and the trip. -/
structure StackKept (s t : State) : Prop where
  mem : t.mem = s.mem := by rfl
  miss : t.thermal.hbmMiss = s.thermal.hbmMiss := by rfl
  tripped : t.thermal.tripped = s.thermal.tripped := by rfl

section
variable {s t u : State} {k x : Nat} {w rate temp : Word}

theorem StackKept.refl (s : State) : StackKept s s where

theorem StackKept.trans (h : StackKept s t) (g : StackKept t u) : StackKept s u :=
  ⟨g.mem.trans h.mem, g.miss.trans h.miss, g.tripped.trans h.tripped⟩

theorem stackShows_self (s : State) (k : Nat) :
    StackShows s k (rget s .thm 0 0x110) (rget s .hbm k 0x108) (rget s .hbm k 0x104) := ⟨rfl, rfl, rfl⟩

theorem StackShows.congr (h : StackShows s k w rate temp) (hr : t.regs = s.regs := by rfl) : StackShows t k w rate temp :=
  ⟨(rget_congr hr ..).trans h.limits, (rget_congr hr ..).trans h.rate, (rget_congr hr ..).trans h.temp⟩

theorem StackShows.recErr {e i sub det c} (h : StackShows s k w rate temp) : StackShows (recErr s e i sub det c) k w rate temp :=
  ⟨(rget_recErr_plain ..).trans h.limits, (rget_recErr_plain ..).trans h.rate, (rget_recErr_plain ..).trans h.temp⟩

theorem StackShows.setLimits (hk : k < 16) (h : StackShows s k w rate temp) (v : Word) :
    StackShows (rset s .thm 0 0x110 v) k v rate temp :=
  ⟨rget_rset_self .., (rget_rset_page s v (by decide) hk (by decide) (by decide) (by simp)).trans h.rate,
    (rget_rset_page s v (by decide) hk (by decide) (by decide) (by simp)).trans h.temp⟩

theorem StackShows.setRate (hk : k < 16) (h : StackShows s k w rate temp) (v : Word) :
    StackShows (rset s .hbm k 0x108 v) k w v temp :=
  ⟨(rget_rset_page s v hk (by decide) (by decide) (by decide) (by simp)).trans h.limits, rget_rset_self ..,
    (rget_rset_off s .hbm k v (by decide)).trans h.temp⟩

theorem StackShows.setTemp (hk : k < 16) (h : StackShows s k w rate temp) (v : Word) :
    StackShows (rset s .hbm k 0x104 v) k w rate v :=
  ⟨(rget_rset_page s v hk (by decide) (by decide) (by decide) (by simp)).trans h.limits,
    (rget_rset_off s .hbm k v (by decide)).trans h.rate, rget_rset_self ..⟩

/-- A stack is throttled, or not: its bit of THM_HBM and its HBM_RATE. -/
theorem StackShows.throttle (hk : k < 16) (h : StackShows s k w rate temp) (on : Bool) :
    StackShows (throttle s k on) k (setBit w k on) (if on then 8 else 10) temp := by
  have hset := (h.setLimits hk (setBit (rget s .thm 0 0x110) k on)).setRate hk (if on then 8 else 10)
  rw [h.limits] at hset
  unfold Machine.throttle
  dsimp only
  rw [h.limits]
  split
  · exact hset.recErr
  · exact hset

/-- A stack is at its hard limit, or not: its other bit of THM_HBM. -/
theorem StackShows.stackHard (hk : k < 16) (h : StackShows s k w rate temp) (on : Bool) :
    StackShows (stackHard s k on) k (setBit w (16 + k) on) rate temp := by
  have hset := h.setLimits hk (setBit w (16 + k) on)
  unfold Machine.stackHard
  dsimp only
  rw [h.limits]
  split
  · exact hset.recErr
  · exact hset

theorem recErr_stackKept (s : State) (e : ErrCode) (i sub det : Nat) (c : Word) : StackKept s (recErr s e i sub det c) :=
  ⟨recErr_mem .., congrArg Thermal.hbmMiss (recErr_thermal ..), congrArg Thermal.tripped (recErr_thermal ..)⟩

theorem throttle_stackKept (s : State) (k : Nat) (on : Bool) : StackKept s (throttle s k on) := by
  unfold throttle
  dsimp only
  split
  · exact StackKept.trans {} (recErr_stackKept ..)
  · exact {}

theorem stackHard_stackKept (s : State) (k : Nat) (on : Bool) : StackKept s (stackHard s k on) := by
  unfold stackHard
  dsimp only
  split
  · exact StackKept.trans {} (recErr_stackKept ..)
  · exact {}

theorem stackThrottle_stackKept (s : State) (k x : Nat) : StackKept s (stackThrottle s k x) := by
  unfold stackThrottle
  dsimp only
  split
  · exact StackKept.trans {} (throttle_stackKept ..)
  · split
    · exact {}
    · split
      · exact .refl s
      · split
        · exact {}
        · split
          · exact StackKept.trans {} (throttle_stackKept ..)
          · exact .refl s

/-- From 85 °C on, the stack is throttled. -/
theorem StackShows.stackThrottle_hot (hk : k < 16) (h : StackShows s k w rate temp) (hx : 85 ≤ x) :
    StackShows (stackThrottle s k x) k (setBit w k true) 8 temp := by
  unfold stackThrottle
  rw [if_pos hx]
  exact (h.congr (t := { s with thermal := _ })).throttle hk true

/-- Below 85 °C, the hard limit and HBM_TEMP are left. -/
theorem StackShows.stackThrottle_cool (hk : k < 16) (h : StackShows s k w rate temp) (hx : x < 85) :
    ∃ w' rate', StackShows (stackThrottle s k x) k w' rate' temp ∧
      (x < 82 → wbit w k = false → w' = w ∧ rate' = rate) ∧
      (x < 82 → wbit w k = true → (∃ u, mget s.thermal.hbmCool k = some u ∧ u + 10000 ≤ s.us) →
        w' = setBit w k false ∧ rate' = 10) := by
  unfold stackThrottle
  dsimp only
  rw [if_neg (by omega), h.limits]
  split
  · next h82 => exact ⟨w, rate, h.congr, fun hlt => absurd h82 (by omega), fun hlt => absurd h82 (by omega)⟩
  · split
    · next hw => exact ⟨w, rate, h, fun _ _ => ⟨rfl, rfl⟩, fun _ hon => by simp [hon] at hw⟩
    · next hw =>
      have hon : wbit w k = true := by simpa using hw
      split
      · next hnone => exact ⟨w, rate, h.congr, fun _ _ => ⟨rfl, rfl⟩, fun _ _ hcool => by simp [hnone] at hcool⟩
      · next u hsome =>
        split
        · exact ⟨_, _, (h.congr (t := { s with thermal := _ })).throttle hk false, fun _ hoff => by simp [hon] at hoff,
            fun _ _ _ => ⟨rfl, rfl⟩⟩
        · next hearly =>
          refine ⟨w, rate, h, fun _ _ => ⟨rfl, rfl⟩, fun _ _ hcool => ?_⟩
          obtain ⟨v, hv, hle⟩ := hcool
          obtain rfl : u = v := by injection hsome.symm.trans hv
          exact absurd hle hearly

end

/-! #### HBM_TEMP_READ (R213, R505, R507) -/

/-- The number of failed readouts in a row of a stack. -/
def stackMissed (s : State) (k n : Nat) : State := { s with thermal := { s.thermal with hbmMiss := mput s.thermal.hbmMiss k n } }

/-- A reading of a stack: one that was throttled only for want of a reading is so no more below 85 °C; no readout has failed, and
HBM_TEMP shows it. -/
def stackRead (s : State) (k x : Nat) : State :=
  let s := if s.thermal.hbmInv.contains k && x < 85 then throttle s k false else s
  let s := { s with thermal := { s.thermal with hbmInv := s.thermal.hbmInv.filter (· ≠ k) } }
  rset (stackMissed s k 0) .hbm k 0x104 (packFields [(0, min 255 x), (8, b2n (decide (85 < x))), (31, 1)])

/-- The limits of a stack at a reading below 115 °C. -/
def stackLimits (s : State) (k x : Nat) : State :=
  let s := stackThrottle s k x
  if 95 ≤ x then stackHard s k true else if x < 92 then stackHard s k false else s

/-- The third failed readout in a row: the reading is invalid and the stack is throttled. -/
def stackInvalid (s : State) (k : Nat) : State :=
  let s := if wbit (rget s .thm 0 0x110) k then s else { s with thermal := { s.thermal with hbmInv := k :: s.thermal.hbmInv } }
  throttle (rset s .hbm k 0x104 (setBit (rget s .hbm k 0x104) 31 false)) k true

/-- Whether a stack is throttled or at its hard limit counts for R508, unless the package has tripped. -/
def stackNoted (s : State) (k : Nat) : State :=
  if s.thermal.tripped then s
  else { s with thermal := { s.thermal with
    hbmHot := mupd s.thermal.hbmHot k {} (fun x => x.note s.us (wbit (rget s .thm 0 0x110) k || wbit (rget s .thm 0 0x110) (16 + k))) } }

section
variable {s : State} {k x : Nat} {w rate temp : Word}

theorem exec_hbmTempRead_off (temp : Option Nat) (h : 16 ≤ k ∨ s.thermal.tripped = true) :
    exec (.hbmTempRead k temp) s = .next s := by
  have hexec : exec (.hbmTempRead k temp) s = execHbmTempRead k temp s := rfl
  rw [hexec, execHbmTempRead, if_pos (by simpa using h)]

theorem exec_hbmTempRead_some (hk : k < 16) (ht : s.thermal.tripped = false) :
    exec (.hbmTempRead k (some x)) s = .next (stackNoted
      (if 115 ≤ x then thermTrip (stackRead s k x) (0x80 + k) else stackLimits (stackRead s k x) k x) k) := by
  have hexec : exec (.hbmTempRead k (some x)) s = execHbmTempRead k (some x) s := rfl
  rw [hexec, execHbmTempRead, if_neg (by simp [ht, hk])]
  rfl

theorem exec_hbmTempRead_none (hk : k < 16) (ht : s.thermal.tripped = false) :
    exec (.hbmTempRead k none) s = .next (stackNoted
      (if mgetD s.thermal.hbmMiss k 0 + 1 < 3 then stackMissed s k (mgetD s.thermal.hbmMiss k 0 + 1)
      else stackInvalid (stackMissed s k (mgetD s.thermal.hbmMiss k 0 + 1)) k) k) := by
  have hexec : exec (.hbmTempRead k none) s = execHbmTempRead k none s := rfl
  rw [hexec, execHbmTempRead, if_neg (by simp [ht, hk])]
  rfl

theorem stackNoted_regs (s : State) (k : Nat) : (stackNoted s k).regs = s.regs := by
  unfold stackNoted
  split <;> rfl

theorem stackNoted_stackKept (s : State) (k : Nat) : StackKept s (stackNoted s k) := by
  unfold stackNoted
  split
  · exact .refl s
  · exact {}

theorem stackLimits_stackKept (s : State) (k x : Nat) : StackKept s (stackLimits s k x) := by
  have h := stackThrottle_stackKept s k x
  unfold stackLimits
  dsimp only
  split
  · exact h.trans (stackHard_stackKept ..)
  · split
    · exact h.trans (stackHard_stackKept ..)
    · exact h

/-- What a reading leaves of the package, besides the registers of the stack. -/
theorem stackRead_effect (s : State) (k x : Nat) :
    mgetD (stackRead s k x).thermal.hbmMiss k 0 = 0 ∧ (stackRead s k x).mem = s.mem ∧
    (stackRead s k x).thermal.tripped = s.thermal.tripped := by
  unfold stackRead
  extract_lets u v
  have hu : StackKept s u := by
    show StackKept s (if s.thermal.hbmInv.contains k && decide (x < 85) then throttle s k false else s)
    split
    · exact throttle_stackKept ..
    · exact .refl s
  exact ⟨mgetD_mput_self .., hu.mem, hu.tripped⟩

/-- HBM_TEMP shows the reading. -/
theorem fld_stackTemp (hx : x < 256) (b : Bool) : fld (packFields [(0, min 255 x), (8, b2n b), (31, 1)]) 7 0 = x := by
  have hmin : min 255 x = x := by omega
  apply Nat.eq_of_testBit_eq
  intro j
  rw [testBit_fld]
  by_cases hj : j < 8
  · have hb : (b2n b <<< 8).testBit j = false := by simp [Nat.testBit_shiftLeft]; omega
    have h31 : ((1 : Nat) <<< 31).testBit j = false := by rw [Nat.testBit_shiftLeft, decide_eq_false (by omega), Bool.false_and]
    have hpack : packFields [(0, min 255 x), (8, b2n b), (31, 1)] = wd (0 ||| min 255 x <<< 0 ||| b2n b <<< 8 ||| 1 <<< 31) := rfl
    rw [hpack, wbit_wd _ (by omega), Nat.testBit_or, Nat.zero_add, Nat.testBit_or, hb, h31, hmin]
    simp [hj]
  · rw [Nat.testBit_lt_two_pow (by calc x < 2 ^ 8 := hx
      _ ≤ 2 ^ j := Nat.pow_le_pow_right (by decide) (by omega))]
    simp [hj]

/-- The registers of a stack that is read: throttled for want of a reading only, it is so no more below 85 °C. -/
theorem stackRead_shows (hk : k < 16) (s : State) (x : Nat) :
    ∃ w rate, StackShows (stackRead s k x) k w rate (packFields [(0, min 255 x), (8, b2n (decide (85 < x))), (31, 1)]) ∧
      (w = rget s .thm 0 0x110 ∧ rate = rget s .hbm k 0x108 ∨ wbit w k = false ∧ rate = 10) ∧
      (stackRead s k x).us = s.us ∧ (stackRead s k x).thermal.hbmCool = s.thermal.hbmCool := by
  have hself := stackShows_self s k
  unfold stackRead
  extract_lets u th v
  by_cases hinv : (s.thermal.hbmInv.contains k && decide (x < 85)) = true
  · have hu : u = throttle s k false := if_pos hinv
    have hshow : StackShows v k (setBit (rget s .thm 0 0x110) k false) 10 (rget s .hbm k 0x104) := by
      have h := hself.throttle hk false
      rw [← hu] at h
      exact h.congr
    have hfields : u.us = s.us ∧ u.thermal.hbmCool = s.thermal.hbmCool := by
      rw [hu, throttle]
      simp
    exact ⟨_, _, (hshow.congr (t := stackMissed v k 0)).setTemp hk _, .inr ⟨wbit_setBit_self _ _ (by omega), rfl⟩, hfields⟩
  · have hu : u = s := if_neg hinv
    have hshow : StackShows v k (rget s .thm 0 0x110) (rget s .hbm k 0x108) (rget s .hbm k 0x104) := by
      rw [← hu] at hself ⊢
      exact hself.congr
    have hfields : u.us = s.us ∧ u.thermal.hbmCool = s.thermal.hbmCool := by rw [hu]; exact ⟨rfl, rfl⟩
    exact ⟨_, _, (hshow.congr (t := stackMissed v k 0)).setTemp hk _, .inl ⟨rfl, rfl⟩, hfields⟩

/-- The hard limit of a stack, from 95 °C until below 92 °C. -/
theorem stackLimits_shows (hk : k < 16) (h : StackShows (stackThrottle s k x) k w rate temp) :
    ∃ w', StackShows (stackLimits s k x) k w' rate temp ∧ wbit w' k = wbit w k ∧
      (95 ≤ x → wbit w' (16 + k) = true) ∧ (x < 92 → wbit w' (16 + k) = false) := by
  have hother : ∀ b, wbit (setBit w (16 + k) b) k = wbit w k := fun b => wbit_setBit_ne w b (by omega) (by omega)
  have hself : ∀ b, wbit (setBit w (16 + k) b) (16 + k) = b := fun b => wbit_setBit_self w b (by omega)
  unfold stackLimits
  dsimp only
  split
  · exact ⟨_, h.stackHard hk true, hother true, fun _ => hself true, fun _ => by omega⟩
  · split
    · exact ⟨_, h.stackHard hk false, hother false, fun _ => by omega, fun _ => hself false⟩
    · exact ⟨w, h, rfl, fun _ => by omega, fun _ => by omega⟩

/-- A reading from 85 °C on throttles its stack (R213, R505). -/
theorem hbmTempRead_hot (hk : k < 16) (ht : s.thermal.tripped = false) (hlo : 85 ≤ x) (hhi : x < 115) :
    Completes (.hbmTempRead k (some x)) s (fun t =>
      wbit (rget t .thm 0 0x110) k = true ∧ rget t .hbm k 0x108 = 8 ∧ fld (rget t .hbm k 0x104) 7 0 = x ∧
      mgetD t.thermal.hbmMiss k 0 = 0 ∧ (95 ≤ x → wbit (rget t .thm 0 0x110) (16 + k) = true) ∧
      (x < 92 → wbit (rget t .thm 0 0x110) (16 + k) = false) ∧ t.mem = s.mem) := by
  obtain ⟨w, rate, hread, -, -, -⟩ := stackRead_shows hk s x
  obtain ⟨w', hlim, hbit, h95, h92⟩ := stackLimits_shows hk (hread.stackThrottle_hot hk hlo)
  obtain ⟨hmiss, hmem, -⟩ := stackRead_effect s k x
  have hshow := hlim.congr (stackNoted_regs (stackLimits (stackRead s k x) k x) k)
  have hkept := (stackLimits_stackKept (stackRead s k x) k x).trans (stackNoted_stackKept _ k)
  refine ⟨_, exec_hbmTempRead_some hk ht, ?_⟩
  dsimp only
  rw [if_neg (by omega), hshow.limits, hshow.rate, hshow.temp, hkept.miss, hkept.mem]
  exact ⟨hbit.trans (wbit_setBit_self _ _ (by omega)), rfl, fld_stackTemp (by omega) _, hmiss, h95, h92, hmem⟩

/-- A reading below 85 °C; after 10 ms below 82 °C the stack is throttled no more (R505). -/
theorem hbmTempRead_cool (hk : k < 16) (ht : s.thermal.tripped = false) (hhi : x < 85) :
    Completes (.hbmTempRead k (some x)) s (fun t =>
      fld (rget t .hbm k 0x104) 7 0 = x ∧ mgetD t.thermal.hbmMiss k 0 = 0 ∧
      wbit (rget t .thm 0 0x110) (16 + k) = false ∧
      (x < 82 → wbit (rget s .thm 0 0x110) k = true →
        (∃ u, mget s.thermal.hbmCool k = some u ∧ u + 10000 ≤ s.us) →
        wbit (rget t .thm 0 0x110) k = false ∧ rget t .hbm k 0x108 = 10) ∧ t.mem = s.mem) := by
  obtain ⟨w, rate, hread, hbefore, hus, hcool⟩ := stackRead_shows hk s x
  obtain ⟨w1, rate1, hthr, hoff, hended⟩ := hread.stackThrottle_cool hk hhi
  obtain ⟨w', hlim, hbit, -, h92⟩ := stackLimits_shows hk hthr
  obtain ⟨hmiss, hmem, -⟩ := stackRead_effect s k x
  have hshow := hlim.congr (stackNoted_regs (stackLimits (stackRead s k x) k x) k)
  have hkept := (stackLimits_stackKept (stackRead s k x) k x).trans (stackNoted_stackKept _ k)
  refine ⟨_, exec_hbmTempRead_some hk ht, ?_⟩
  dsimp only
  rw [if_neg (by omega), hshow.limits, hshow.rate, hshow.temp, hkept.miss, hkept.mem]
  refine ⟨fld_stackTemp (by omega) _, hmiss, h92 (by omega), fun h82 hon hlong => ?_, hmem⟩
  rw [hbit]
  obtain ⟨rfl, rfl⟩ | ⟨hwoff, rfl⟩ := hbefore
  · obtain ⟨rfl, rfl⟩ := hended h82 hon (by rwa [hcool, hus])
    exact ⟨wbit_setBit_self _ _ (by omega), rfl⟩
  · obtain ⟨rfl, rfl⟩ := hoff h82 hwoff
    exact ⟨hwoff, rfl⟩

/-- The third failed readout in a row throttles the stack (R213). -/
theorem hbmTempRead_invalid (hk : k < 16) (ht : s.thermal.tripped = false) (h : 2 ≤ mgetD s.thermal.hbmMiss k 0) :
    Completes (.hbmTempRead k none) s (fun t =>
      wbit (rget t .thm 0 0x110) k = true ∧ rget t .hbm k 0x108 = 8 ∧ wbit (rget t .hbm k 0x104) 31 = false ∧
      t.mem = s.mem) := by
  refine ⟨_, exec_hbmTempRead_none hk ht, ?_⟩
  dsimp only
  rw [if_neg (by omega)]
  generalize hm : stackMissed s k (mgetD s.thermal.hbmMiss k 0 + 1) = m
  have hmem : m.mem = s.mem := by rw [← hm]; rfl
  unfold stackInvalid
  extract_lets th u
  have hu : u.mem = m.mem := by
    show (if wbit (rget m .thm 0 0x110) k = true then m else { m with thermal := _ }).mem = m.mem
    split <;> rfl
  have hshow := (((stackShows_self u k).setTemp hk (setBit (rget u .hbm k 0x104) 31 false)).throttle hk true).congr
    (stackNoted_regs _ k)
  rw [hshow.limits, hshow.rate, hshow.temp, (stackNoted_stackKept _ k).mem, (throttle_stackKept ..).mem]
  exact ⟨wbit_setBit_self _ _ (by omega), rfl, wbit_setBit_self _ _ (by decide), hu.trans hmem⟩

/-- An earlier one is counted. -/
theorem hbmTempRead_missed (hk : k < 16) (ht : s.thermal.tripped = false) (h : mgetD s.thermal.hbmMiss k 0 < 2) :
    Completes (.hbmTempRead k none) s (fun t =>
      mgetD t.thermal.hbmMiss k 0 = mgetD s.thermal.hbmMiss k 0 + 1 ∧ t.regs = s.regs ∧ t.mem = s.mem) := by
  refine ⟨_, exec_hbmTempRead_none hk ht, ?_⟩
  dsimp only
  rw [if_pos (by omega), (stackNoted_stackKept _ k).miss, (stackNoted_stackKept _ k).mem, stackNoted_regs]
  exact ⟨mgetD_mput_self .., rfl, rfl⟩

/-- A stack trips the package from 115 °C on (R507). -/
theorem hbmTempRead_trips (hk : k < 16) (ht : s.thermal.tripped = false) (hx : 115 ≤ x) :
    Completes (.hbmTempRead k (some x)) s (fun t => t.thermal.tripped = true ∧ t.power.st = 3 ∧ t.mem = []) := by
  obtain ⟨-, -, hcold⟩ := stackRead_effect s k x
  obtain ⟨hkept, htrip⟩ := thermTrip_effect (0x80 + k) (hcold.trans ht)
  refine ⟨_, exec_hbmTempRead_some hk ht, ?_⟩
  rw [if_pos hx, stackNoted, if_pos htrip]
  exact ⟨htrip, hkept.off (hcold.trans ht) htrip⟩

end

/-! #### The statement -/

/-- The package starts at S2 as a chip reset. -/
def chipResetAtS2 (s : State) : State :=
  rset { s with power := { s.power with vin48 := true, failed := false }, chipReset := some { cause := 0 }, chipAtS2 := false } .pce 0 0x114
    0x100

theorem exec_vin48Return (s : State) : exec .vin48Return s =
    .next (if !s.power.failed || s.power.vauxLost || s.thermal.tripped then s else chipResetAtS2 s) := rfl

/-- The Carillon is off and nothing is tripped (R490, R507). -/
def carillonOff (s : State) : State :=
  { s with
    evq := []
    carillon := { s.carillon with powered := false, ca := 0, cb := 0, token := none, alive := false, sessions := [], pathUp := false }
    thermal := { s.thermal with tripped := false, sites := [] }
    power := { s.power with vauxLost := s.power.vauxLost && s.power.vin48 } }

theorem exec_vaux12Removed (s : State) :
    exec .vaux12Removed s = .next (carillonOff (setStage (abandonResets (diesOff s 9)) 0)) := rfl

/-- Without VAUX12 the Carillon is off, and fuses and flash stay (R490). -/
theorem vaux12Removed_completes (s : State) : Completes .vaux12Removed s (fun t =>
    t.carillon.powered = false ∧ t.carillon.token = none ∧ t.evq = [] ∧ t.mem = [] ∧ bootStage t = 0 ∧
    t.power.st = 3 ∧ t.fuses = s.fuses ∧ t.fw.flash = s.fw.flash) := by
  obtain ⟨hd, -, -⟩ := diesOff_effect s 9
  have hst : (diesOff s 9).power.st = 3 := congrArg Power.st hd.power
  have hexec := exec_vaux12Removed s
  generalize diesOff s 9 = u at hd hst hexec
  exact ⟨_, hexec, rfl, rfl, rfl, hd.mem, bootStage_setStage (abandonResets u) (by decide), hst, hd.fuses, hd.flash⟩

/-- Settles O55: a power failure and a trip by what the loss of the dies leaves, a sample by the judgement of its site, the stacks by
what their registers show. -/
theorem powerFailuresAndHeat : Obligations.PowerFailuresAndHeat := by
  unfold Obligations.PowerFailuresAndHeat
  refine ⟨⟨?_, ?_, ?_, ?_, vaux12Removed_completes⟩, ?_, ?_, ?_, ?_, ?_, ?_⟩
  · intro s us
    have hexec : exec (.vinDip us) s = .next (if 10 < us then s else recErr s ePwrVinDip 0 0 us noCtag) := rfl
    exact ⟨fun h => hexec.trans (congrArg _ (if_neg (by omega))), fun h => hexec.trans (congrArg _ (if_pos h))⟩
  · intro s c vin hf hst hv hc
    obtain ⟨t, ht, h⟩ := powerFailure_completes hf hst hv hc
    exact ⟨t, ht, h.failed, h.st, h.brake, h.mem, h.stage, h.chipReset, h.partReset, h.epoch, h.fuses⟩
  · intro s vin
    refine ⟨fun h => ⟨_, (exec_powerFailSequence s vin).trans (congrArg _ (if_pos h)), rfl, h, rfl, rfl⟩, fun h hv => ?_,
      fun h => (exec_pwrVinOv s vin).trans (congrArg _ (if_pos h)),
      fun h => (exec_pwrVauxLost s).trans (congrArg _ (if_pos (by simp [h])))⟩
    have hagain : powerFail (vin48Over s vin) ePwrVinOv vin = vin48Over s vin := powerFail_again _ _ h
    exact ⟨_, (exec_pwrVinOv s vin).trans (congrArg _ ((if_neg (by omega)).trans hagain)), rfl, rfl⟩
  · intro s
    refine ⟨fun hf hl ht => ⟨_, (exec_vin48Return s).trans (congrArg _ (if_neg (by simp [hf, hl, ht]))), rfl, rfl, rfl, rfl⟩,
      fun h => (exec_vin48Return s).trans (congrArg _ (if_pos (by simpa [or_assoc] using h)))⟩
  · intro s i d input ht hb hi hp
    exact ⟨fun hlo hhi => thermalSample_agrees input ht hb hi hp hlo hhi, thermalSample_silent input ht hb hi hp⟩
  · intro s i d input ht hb hi hlo hhi
    exact thermalSample_compared input ht hb hi hlo hhi
  · intro s reads input
    obtain ⟨t, hexec, h⟩ := thermalSample_heatStep s reads input
    exact ⟨fun ht => congrArg _ (if_pos ht), t, hexec, h.fuses, h.flash⟩
  · intro s i
    refine ⟨fun hi hp hh hr => ?_, exec_thermalStepTimer_held, exec_thermalStepTimer_other, fun hk => ?_⟩
    · have hexec := exec_thermalStepTimer_cluster hi hp hh hr
      refine ⟨fun hhot => ⟨_, hexec.trans (congrArg _ (if_pos hhot)), ?_, rfl⟩,
        fun hcold => ⟨_, hexec.trans (congrArg _ ((if_neg (by omega)).trans (if_pos hcold))), ?_, rfl⟩,
        fun h137 h140 => hexec.trans (congrArg _ ((if_neg (by omega)).trans (if_neg (by omega))))⟩ <;>
      rw [site_modSite_self]
    · exact ⟨fun hhot hfirst => ⟨_, exec_thermalStepTimer_first hk hhot hfirst, rfl, Nat.min_le_left .., rfl⟩,
        exec_thermalStepTimer_later hk⟩
  · intro s input
    exact ⟨coolingEventRepeat_due, coolingEventRepeat_early, coolingEventRepeat_good, coolingEventRepeat_tripped⟩
  · intro s k
    refine ⟨fun hk ht => ⟨fun x hlo hhi => hbmTempRead_hot hk ht hlo hhi, fun x hhi => hbmTempRead_cool hk ht hhi,
      hbmTempRead_invalid hk ht, hbmTempRead_missed hk ht, fun x hx => hbmTempRead_trips hk ht hx⟩,
      fun h x => exec_hbmTempRead_off x h⟩

end Sys2Proof.Machine
end
